-- ==== Sys2Proof/Word.lean ====
section
/-! DEFINITION. The word types of the EB2 and their plainest arithmetic (00 R5 to R7). -/

namespace Sys2Proof

/-- A register is 32 bits wide (00 R7). -/
abbrev Word := BitVec 32

/-- A byte of memory, of a message or of an edge word. -/
abbrev Byte := BitVec 8

/-- A fret number as the fret counters hold it (04 R178). -/
abbrev U64 := BitVec 64

/-- A count that stops at the largest value of its field instead of wrapping. -/
def satAdd {w : Nat} (x : BitVec w) (n : Nat) : BitVec w :=
  BitVec.ofNat w (min (x.toNat + n) (2 ^ w - 1))

/-- A value cut to the largest value of its field. -/
def satOfNat (w n : Nat) : BitVec w := BitVec.ofNat w (min n (2 ^ w - 1))

/-- `a / b` rounded up. -/
def ceilDiv (a b : Nat) : Nat := (a + b - 1) / b

end Sys2Proof
end

