-- ==== Sys2Proof/Syntax/Units.lean ====
section
/-! DEFINITION. Names of the EB2's units and the small closed sets the spec gives: halves, ports, accessors, status codes (00, 01, 17 R755). -/

namespace Sys2Proof

/-- The two compute dies (01 R18). -/
inductive Half where
  | west | east
deriving DecidableEq, Repr

/-- The two PCIe ports (01 R32). -/
inductive HostPort where
  | a | b
deriving DecidableEq, Repr

/-- Who makes a BAR0 access (17 R748). -/
inductive Accessor where
  | portA | portB | mc
deriving DecidableEq, Repr

/-- The holder of the owner token (09 R501). -/
inductive Owner where
  | none | a | b
deriving DecidableEq, Repr

/-- The two management ports (09 R508). -/
inductive MgmtPort where
  | m0 | m1
deriving DecidableEq, Repr

/-- The grades (00 R1). -/
inductive Grade where
  | g30 | g26 | g22
deriving DecidableEq, Repr

/-- Partition P0 to P15 (01 R19). -/
abbrev Part := Fin 16
/-- Cluster C0 to C127 (01 R19). -/
abbrev Clus := Fin 128
/-- Logical tile LT0 to LT2047 (01 R22). -/
abbrev Lt := Fin 2048
/-- Physical tile PT0 to PT2303 (01 R23). -/
abbrev Pt := Fin 2304
/-- Fabric port: 0 to 15 for F0 to F15, 16 for TW (01 R32). -/
abbrev FabPort := Fin 17
/-- Connection number (07 R363). -/
abbrev ConnN := Fin 4096
/-- Queue number (07 R355). -/
abbrev QueueN := Fin 4096
/-- Stream context number within a cluster (05 R249). -/
abbrev Ctx := Fin 64
/-- Fold number (03 R150). -/
abbrev FoldN := Fin 8

/-- Status codes by name (17 R755). -/
inductive Status where
  | ok | nakFull | nakStale | nakFenced | routeCut | parked
  | residue | parity | underrun | bound | skew | slip | hang | memory | peer
  | unsided | migration | variant | overQuota
deriving DecidableEq, Repr

/-- The value of a status code (17 R755). -/
def Status.code : Status → Nat
  | .ok => 0x00 | .nakFull => 0x01 | .nakStale => 0x02 | .nakFenced => 0x03
  | .routeCut => 0x04 | .parked => 0x05 | .residue => 0x10 | .parity => 0x11
  | .underrun => 0x12 | .bound => 0x13 | .skew => 0x14 | .slip => 0x15
  | .hang => 0x16 | .memory => 0x17 | .peer => 0x18 | .unsided => 0x20
  | .migration => 0x21 | .variant => 0x22 | .overQuota => 0x30

/-- Element formats of the tile (02 R50). -/
inductive Fmt where
  | e2m1 | e2m3 | e3m2 | e4m3 | e5m2 | bf16 | fp16 | fp32 | int4 | int8 | int32
deriving DecidableEq, Repr

/-- Rounding of an output port (02 R75). -/
inductive Rounding where
  | rne | sr
deriving DecidableEq, Repr

/-- Compute clock of a grade in MHz (00 R1). -/
def Grade.mhz : Grade → Nat
  | .g30 => 3000 | .g26 => 2600 | .g22 => 2200

/-- Input power limit of a grade in W (00 R1). -/
def Grade.limit : Grade → Nat
  | .g30 => 2150 | .g26 => 1750 | .g22 => 1400

/-- Grade code of TOP_ID and FAB_PEER_INFO (17 R740, 08 R468). -/
def Grade.code : Grade → Nat
  | .g30 => 0x30 | .g26 => 0x26 | .g22 => 0x22

def Accessor.idx : Accessor → Nat
  | .portA => 0 | .portB => 1 | .mc => 2

def HostPort.accessor : HostPort → Accessor
  | .a => .portA | .b => .portB

def HostPort.other : HostPort → HostPort
  | .a => .b | .b => .a

def HostPort.owner : HostPort → Owner
  | .a => .a | .b => .b

def Half.other : Half → Half
  | .west => .east | .east => .west

/-- One value per accessor (17 R748). -/
structure Per (α : Type) where
  a : α
  b : α
  mc : α
deriving DecidableEq, Repr

def Per.get {α : Type} (p : Per α) : Accessor → α
  | .portA => p.a | .portB => p.b | .mc => p.mc

def Per.set {α : Type} (p : Per α) : Accessor → α → Per α
  | .portA, v => { p with a := v } | .portB, v => { p with b := v } | .mc, v => { p with mc := v }

def Per.all {α : Type} (v : α) : Per α := ⟨v, v, v⟩

/-- One value per half. -/
structure PerHalf (α : Type) where
  w : α
  e : α
deriving DecidableEq, Repr

def PerHalf.get {α : Type} (p : PerHalf α) : Half → α
  | .west => p.w | .east => p.e

def PerHalf.set {α : Type} (p : PerHalf α) : Half → α → PerHalf α
  | .west, v => { p with w := v } | .east, v => { p with e := v }

/-- One value per PCIe port. -/
structure PerPort (α : Type) where
  a : α
  b : α
deriving DecidableEq, Repr

def PerPort.get {α : Type} (p : PerPort α) : HostPort → α
  | .a => p.a | .b => p.b

def PerPort.set {α : Type} (p : PerPort α) : HostPort → α → PerPort α
  | .a, v => { p with a := v } | .b, v => { p with b := v }

end Sys2Proof
end

