-- ==== Sys2Proof/Syntax/Image.lean ====
section
/-! DEFINITION. The parts of a schedule image that the hardware uses (03 R114), as structured data: the spec gives their contents and leaves the image's byte layout to the toolchain. -/

namespace Sys2Proof

/-- Who may own a slot of a bank's slot wheel (02 R103). -/
inductive SlotUser where
  | array | vector | topk | portWrite | portRead
deriving DecidableEq, Repr

/-- One entry of a slot wheel: `user` owns slot `slot`, of 16, of bank `bank`, of 8 (02 R102, R103). -/
structure WheelSlot where
  bank : Fin 8
  slot : Fin 16
  user : SlotUser
deriving DecidableEq, Repr

/-- Where a datapath step reads or writes: an input's words of this firing, an SRAM range inside the fold's partition,
a temporary of this firing, or an output port's words (03, "Firings and static rates"). -/
inductive Buf where
  | inp (i : Nat)
  | sram (off len : Nat)
  | tmp (n : Nat)
  | out (j : Nat)
deriving DecidableEq, Repr

/-- Lane operations of the vector unit on one, two or three operands (02 R88). -/
inductive VecOp where
  | add | sub | mul | fma | min | max | cmpLt | cmpLe | cmpEq | select | abs | neg
  | recip | rsqrt | exp | log | tanh
deriving DecidableEq, Repr

/-- Operations across the 256 lanes (02 R88, R93). -/
inductive LaneOp where
  | sum | min | max
deriving DecidableEq, Repr

/-- How top-k keys compare (02 R96). -/
inductive KeyKind where
  | unsigned | signed | fp32
deriving DecidableEq, Repr

/-- Configuration of the streaming top-k unit for a fold (02 R94, R96, R99): entries per group, groups, how keys compare, and
the firings of one selection. -/
structure TopkCfg where
  k : Nat
  every : Nat
  groups : Nat
  kind : KeyKind
  smallerBetter : Bool
deriving DecidableEq, Repr

/-- One step of a fold's fixed datapath, built from the units of the tile (02 R56, R59, R61, R70, R74, R77, R83, R88, R94). `last`
marks the last pass on the active set, and `swapBanks` the end of an output tile. -/
inductive DpOp where
  | move (src dst : Buf)
  | slice (src : Buf) (off len : Nat) (dst : Buf)
  | loadSet (src : Buf) (scales : Option Buf) (fmt : Fmt) (k n : Nat)
  | initAcc (src : Option Buf) (fmt : Fmt) (rows cols : Nat) (compensated : Bool)
  | pass (a : Buf) (aScales : Option Buf) (fa : Fmt) (rows : Nat) (last : Bool)
  | swapBanks
  | drain (rows cols : Nat) (fmt : Fmt) (mx : Bool) (port : Nat) (dst : Buf) (scaleDst : Option Buf)
  | loadQueries (src : Buf) (bits count : Nat)
  | hamming (input bits base : Nat)
  | topkKeys (keys : Buf) (base group : Nat)
  | topkRecords (src : Buf)
  | topkEmit (dst : Buf)
  | vec (op : VecOp) (x y z : Buf) (dst : Buf)
  | lane (op : LaneOp) (x : Buf) (dst : Buf)
  | conv (src : Buf) (fromFmt toFmt : Fmt) (port : Nat) (dst : Buf)
deriving DecidableEq, Repr

/-- An edge as its consumer sees it: depth and queue offset, its producer, and the route and allowances of its credit
returns (03 R127, R128, R132). -/
structure EdgeIn where
  depth : Nat
  qoff : Nat
  chip : Nat
  lt : Nat
  fold : Nat
  port : Nat
  hops : List (BitVec 5)
  allow : List Nat
  cls : Bool
deriving DecidableEq, Repr

/-- What feeds a fold's input (03 R124, R127, R143). -/
inductive InKind where
  | edge (e : EdgeIn)
  | drawer (ctx : Nat)
  | queue
deriving DecidableEq, Repr

/-- One fold input: its source and the words c_i a firing consumes (03 R124). -/
structure InputCfg where
  kind : InKind
  consume : Nat
deriving DecidableEq, Repr

/-- The edge an output port drives: consumer, depth, source route and allowances (03 R114, R127, 04 R198). -/
structure EdgeOut where
  chip : Nat
  lt : Nat
  fold : Nat
  input : Nat
  depth : Nat
  hops : List (BitVec 5)
  allow : List Nat
  cls : Bool
deriving DecidableEq, Repr

/-- One output port: words p_j a firing produces, what it drives, its rounding, and the release fret of its last credit
return as an offset from the launch fret (03 R124, R133; 02 R75). `edges` is a list so that check 0x8 of R172 can fail. -/
structure OutputCfg where
  produce : Nat
  edges : List EdgeOut
  drawer : Option Nat
  rounding : Rounding
  lastCredit : Nat
deriving DecidableEq, Repr

/-- A steering unit (03 R139 to R145): data inputs, token input, group size, bound, output port, and the declared
group frets as first, interval and count per fold period, counted from the start of the fold's slice. -/
structure SteerCfg where
  data : List Nat
  token : Nat
  group : Nat
  bound : BitVec 16
  out : Nat
  first : Nat
  interval : Nat
  count : Nat
deriving DecidableEq, Repr

/-- How a fold keeps a unit's contents while it is inactive (03 R155 to R157). -/
inductive Share where
  | resident (bytes : Nat)
  | spill (bytes off : Nat)
deriving DecidableEq, Repr

/-- One fold's configuration (03 R123 to R163). -/
structure FoldCfg where
  slice : Nat
  first : Nat
  interval : Nat
  count : Nat
  delay : Nat
  sramBase : Nat
  sramSize : Nat
  inputs : List InputCfg
  outputs : List OutputCfg
  steers : List SteerCfg
  stationary : Share
  accumulator : Share
  topkShare : Share
  wheel : List WheelSlot
  topk : TopkCfg
  path : List DpOp
deriving DecidableEq, Repr

/-- A tile's configuration for a task (03 R150). -/
structure TileCfg where
  period : Nat
  folds : List FoldCfg
deriving DecidableEq, Repr

/-- Kinds of stream context (05 R250). -/
inductive StreamKind where
  | read | write | gather | kvRead | kvWrite
deriving DecidableEq, Repr

/-- A stream context's address source (05 R251). -/
inductive AddrSrc where
  | absolute (base : Nat)
  | region (n : Nat) (next : Bool) (off : Nat)
deriving DecidableEq, Repr

/-- Parameters of a gather use (05 R268, R269, 06 R305). -/
structure GatherCfg where
  tableBase : Nat
  tableCount : Nat
  pageSize : Nat
  indexInput : Nat
  lpKey : Option (BitVec 8)
  hintInput : Nat
deriving DecidableEq, Repr

/-- Parameters of a KV use (06 R324, R327, R328, R338, R342); plane 0xFF is a status use. -/
structure KvCfg where
  pool : Nat
  plane : Nat
  n : Nat
  sessionInput : Nat
  verify : Bool
  judge : Option Nat
  window : Nat
deriving DecidableEq, Repr

/-- One use of a stream context (05 R251). -/
structure StreamUse where
  kind : StreamKind
  slot : Nat
  fold : Nat
  port : Nat
  size : Nat
  base0 : Nat
  base1 : Nat
  n : Nat
  period : Nat
  first : Int
  prologue : Nat
  lead : Nat
  ret : Nat
  drain : Nat
  src : AddrSrc
  pattern : List (Nat × Int)
  gather : Option GatherCfg
  kv : Option KvCfg
deriving DecidableEq, Repr

/-- A sided region (05 R276). -/
structure Region where
  n : Nat
  a : Nat
  b : Nat
  size : Nat
deriving DecidableEq, Repr

/-- One degraded variant for a lost slot (11 R568): the host slot and the replacement configurations per task. -/
structure Variant where
  cluster : Nat
  slot : Nat
  host : Nat
  tiles : List (Nat × Nat × TileCfg)
deriving DecidableEq, Repr

/-- A migration point: window offset and length in frets, and its clusters (11 R565). -/
structure Migration where
  off : Nat
  len : Nat
  clusters : List Nat
deriving DecidableEq, Repr

/-- One task of the task table, with its tiles, stream contexts, regions and assumed allowances (03 R114, 04 R203). -/
structure TaskCfg where
  number : BitVec 32
  salt : BitVec 16
  launch : Nat
  length : Nat
  grace : Nat
  tiles : List (Nat × TileCfg)
  streams : List (Nat × Nat × List StreamUse)
  reads : List Nat
  writes : List Nat
  allow : List (Nat × Nat)
deriving DecidableEq, Repr

/-- A schedule image (03 R114); `digest` is its header's digest field (14, "Image verification"). -/
structure Image where
  version : Nat
  chipCount : Nat
  k : Nat
  digest : BitVec 256
  tasks : List TaskCfg
  regions : List Region
  migrations : List Migration
  variants : List Variant
deriving DecidableEq, Repr

end Sys2Proof
end

