-- ==== Sys2Proof/Syntax/Traffic.lean ====
section
/-! DEFINITION. What reaches the EB2 from outside, as data: worms, messages, beacons, datagrams, images and the observations an event carries (04, 07, 08, 09, 14). -/

namespace Sys2Proof

/-- The header of a worm (08 R427, R428). `wtype` is header byte 0 bits [7:4]; `hops` are the codes not yet consumed. -/
structure WormHead where
  vc : BitVec 2
  cls : Bool
  poison : Bool
  wtype : BitVec 4
  nextHop : Nat
  hops : List (BitVec 5)
  srcChip : BitVec 10
  dstChip : BitVec 10
  endpoint : Nat
  task : BitVec 32
  stamp : BitVec 24
  allow : List Nat
  fold : Nat
  port : Nat
  count : Nat
  conn : BitVec 12
  serial : BitVec 8
  memAddr : Nat
  deadline : Option (BitVec 24)
deriving DecidableEq, Repr

/-- A worm: header and payload bytes (08 R427). -/
structure Worm where
  head : WormHead
  payload : List Byte
deriving DecidableEq, Repr

/-- A router of the chip (08 R417). -/
inductive Router where
  | hub (c : Clus)
  | ring (h : Half)
deriving DecidableEq, Repr

/-- What happens at a port of a router (08 R418, R421 to R423, R430): the head of a worm enters at an input that no router of the chip
feeds, with as many of its flits as have come, and its header parity is found good or not; further flits of a worm enter; or one flit
slot of an output passes. `pick` says which head goes first of several on VC1, VC2 or VC3, which the spec does not order; `parityOk` is
what the next router finds of the header that enters it. -/
inductive RouteEv where
  | head (w : Worm) (flits : Nat) (parityOk : Bool)
  | flits (vc : BitVec 2) (n : Nat)
  | slot (pick : Nat) (parityOk : Bool)
deriving DecidableEq, Repr

/-- A release point (04 R197). -/
inductive ReleasePoint where
  | tile (lt : Lt)
  | bridge (row : Fin 8) (toEast : Bool)
  | fabric (p : FabPort)
deriving DecidableEq, Repr

/-- A beacon (04 R188): fret number, domain number, sub-fret send cycle. -/
structure Beacon where
  fret : U64
  domain : BitVec 8
  cycle : Nat
deriving DecidableEq, Repr

/-- An announcement on VC3 (04 R206, R210). -/
inductive Announce where
  | stretch (v : BitVec 6) (eff : U64)
  | clock (mhz : BitVec 16) (fc : U64)
deriving DecidableEq, Repr

/-- An abort message (04 R217). -/
structure AbortMsg where
  task : BitVec 32
  fret : Nat
  chip : BitVec 10
  status : Status
deriving DecidableEq, Repr

/-- One two-way flight exchange (04 R195). -/
structure Exchange where
  t1 : Nat
  t2 : Nat
  t3 : Nat
  t4 : Nat
deriving DecidableEq, Repr

/-- An arm message for a tile and the stream contexts that serve it (03 R166, 05 R286). -/
structure ArmMsg where
  task : BitVec 32
  salt : BitVec 16
  launch : Nat
  current : Bool
  streams : List (Nat × List StreamUse)
deriving DecidableEq, Repr

/-- What a check of the tile reports in a firing; none on a good tile: a failed residue check of the array or its
accumulators (10 R524), of the XOR and popcount path (R525), of an FP32 operation (R526), a mismatch of duplicated
logic (R527), a parity failure at a unit of a tile (R520), one or two bits in error in an SRAM word (02 R104, R106). -/
inductive TileFault where
  | macPass | hammingPass | fp32 | duplicated
  | parityUse
  | sramCorrected (word : BitVec 17)
  | sramDouble (word : BitVec 17)
deriving DecidableEq, Repr

/-- Bits in error that the check of an HBM sector finds on a read (05 R242). -/
inductive BitErr where
  | one | two
deriving DecidableEq, Repr

/-- An arriving OPEN request (07 R366). -/
structure OpenReq where
  srcChip : BitVec 10
  conn : BitVec 12
  serial : BitVec 8
  queue : QueueN
  nak : Bool
  grant : BitVec 16
  index : Nat
  poisoned : Bool
deriving DecidableEq, Repr

/-- An arriving message (07 R370, R371); `sum` marks the sum of a chord queue (R401). -/
structure Msg where
  srcChip : BitVec 10
  conn : BitVec 12
  serial : BitVec 8
  queue : QueueN
  seq : BitVec 32
  body : List Byte
  poisoned : Bool
  sum : Bool
  /-- sectors of its record whose byte parity is wrong as it is written (05 R241) -/
  wrong : List Nat := []
deriving DecidableEq, Repr

/-- An answer to an OPEN (07 R367, R398). -/
structure OpenAck where
  conn : ConnN
  serial : BitVec 8
  status : Status
  detail : BitVec 4
  grant : BitVec 16
deriving DecidableEq, Repr

/-- A NAK notice (07 R388). -/
structure NakNotice where
  conn : ConnN
  serial : BitVec 8
  seq : BitVec 32
  status : Status
  detail : BitVec 4
deriving DecidableEq, Repr

/-- A session command (06 R319). -/
structure SessCmd where
  /-- the last command of its message (06 R319) -/
  last : Bool
  reply : ConnN
  handle : BitVec 32
  pool : BitVec 8
  quota : BitVec 32
  tag : BitVec 32
deriving DecidableEq, Repr

/-- What a session command asks for, by its opcode (06 R319). -/
inductive SessOp where
  | opening | close | setQuota | query
  | reserved (op : BitVec 8)
deriving DecidableEq, Repr

/-- A schedule command to the MC (09 R498): the connection's sender, the reply connection and the fields. -/
structure McCmd where
  sender : Accessor
  reply : ConnN
  sched : BitVec 32
  launch : Nat
  addr : Nat
  size : Nat
  tag : BitVec 32
deriving DecidableEq, Repr

/-- A signed management datagram (09 R509); `good` says that the signature verifies under the slot's key. -/
structure Datagram where
  port : MgmtPort
  version : BitVec 8
  serial : BitVec 64
  seq : BitVec 64
  slot : BitVec 16
  good : Bool
  header : List Byte
  body : List Byte
deriving DecidableEq, Repr

/-- A signed image in flash or pushed by a host (14 R667). `sigOk` is the outcome of xmssmt_verify on it (R668). -/
structure SignedImage where
  kind : BitVec 8
  svn : Nat
  advance : Bool
  revoke : BitVec 4
  keyHash : BitVec 256
  oidOk : Bool
  magicOk : Bool
  digest : BitVec 256
  digestOk : Bool
  sigOk : Bool
deriving DecidableEq, Repr

/-- A record of the bring-up script (12 R613). -/
structure ScriptRec where
  op : BitVec 8
  stage : BitVec 8
  arg : BitVec 16
  off : BitVec 32
  value : BitVec 32
  mask : BitVec 32
deriving DecidableEq, Repr

/-- A replay result triple of one repetition of an arbitration (10 R533): tile result equals X, own checker flagged,
bench replay made, bench result equals X, bench equals tile, bench checker flagged. -/
structure Replay where
  tileEqX : Bool
  ownFlag : Bool
  bench : Bool
  benchEqX : Bool
  benchEqTile : Bool
  benchFlag : Bool
deriving DecidableEq, Repr

/-- The governor's measurements for one interval (13 R642, R643). -/
structure Measured where
  mean : Nat
  peak : Nat
  dieW : Nat
  dieE : Nat
  stack : Nat
  stackIdx : BitVec 3
  /-- the last sample of each domain's power, by domain -/
  domains : List (BitVec 16)
  ranTask : Bool
deriving DecidableEq, Repr

/-- A word of a multi-word BAR0 write, with whether all its byte enables are set (00 R781). -/
structure BeWord where
  v : Word
  full : Bool
deriving DecidableEq, Repr

/-- A multi-word BAR0 access (00 R781). -/
inductive MultiWord where
  | read (full : List Bool)
  | write (ws : List BeWord)
deriving DecidableEq, Repr

/-- A PCIe configuration write (09 R480, R475). -/
inductive PcieCfg where
  | resizeBar2 (log2 : Nat)
  | maxPayload (mps : BitVec 3)
deriving DecidableEq, Repr

/-- How a PCIe port is reset (09 R504). -/
inductive PortReset where
  | perst | hotReset | linkDisable | dlDown
deriving DecidableEq, Repr

/-- A peer's identity block (08 R453). -/
structure PeerId where
  serial : BitVec 64
  port : BitVec 5
  grade : BitVec 8
  revLetter : BitVec 4
  revDigit : BitVec 4
deriving DecidableEq, Repr

/-- A digest message between twins (10 R549). -/
structure DigestMsg where
  region : BitVec 8
  state : BitVec 8
  passes : BitVec 32
  d : BitVec 256
deriving DecidableEq, Repr

/-- A MIRROR message (11 R585). -/
structure MirrorMsg where
  retire : BitVec 2
  lost : Nat
  parts : BitVec 16
  task : BitVec 32
deriving DecidableEq, Repr

/-- A digest region as the ATTACH message carries it (11 R584). -/
structure AttachRegion where
  n : BitVec 8
  base : BitVec 40
  size : BitVec 18
  ref : BitVec 256
deriving DecidableEq, Repr

/-! ## Operands with what the block observes as it acts (log entry 7) -/

/-- A host's read through BAR2, and the bits in error found, by sector (05 R242). -/
structure BarRead where
  len : Nat
  errs : List (Nat × BitErr)
deriving DecidableEq, Repr

/-- A host's write through BAR2, the sectors whose byte parity is wrong at the hub, and the bits in error that the read of a partly
covered sector finds (05 R241, R242). -/
structure BarWrite where
  data : List Byte
  wrong : List Nat
  errs : List (Nat × BitErr)
deriving DecidableEq, Repr

/-- A task to arm, and whether the loader takes the NCN (08 R458). -/
structure ArmIssue where
  task : BitVec 32
  ncn : Bool
deriving DecidableEq, Repr

/-- Flits that come to a release point: the steps of their run still to make beyond it, their number, and whether their parity failed in
transit (08 R430; 10 R520). -/
structure Arrival where
  left : Nat
  flits : Nat
  bad : Bool
deriving DecidableEq, Repr

/-- A steering unit, and what the tile's checks report as it reads its group (02 R104, R106). -/
structure SteerRead where
  unit : Nat
  obs : List TileFault
deriving DecidableEq, Repr

/-- Cycles into the present frets of the two halves (04 R189). -/
structure Cycles where
  west : Nat
  east : Nat
deriving DecidableEq, Repr

/-- A stream context, and what the tile's checks report as its drawer is read (02 R104, R106). -/
structure CtxRead where
  ctx : Ctx
  obs : List TileFault
deriving DecidableEq, Repr

/-- What a controller sees of a request's sectors: wrong byte parity of a write, bits in error of a read (05 R241, R242). -/
structure SectorsSeen where
  wrong : List (Fin 8)
  errs : List (Fin 8 × BitErr)
deriving DecidableEq, Repr

/-- A digest region, and the bits in error found as a pass reads it (05 R242). -/
structure DigestRead where
  n : Fin 256
  errs : List (Nat × BitErr)
deriving DecidableEq, Repr

/-- The failed units and the faulty windows that a test finds (15 R690 to R693, R702). -/
structure TestFound where
  failed : List (Pt × BitVec 4)
  windows : List Word
deriving DecidableEq, Repr

/-- Whether the supplies are in regulation and a die sensor is above 95 °C (12 R595, R605). -/
structure PorSeen where
  inRegulation : Bool
  hot : Bool
deriving DecidableEq, Repr

end Sys2Proof
end

