-- ==== Sys2Proof/Syntax.lean ====
section
/-! DEFINITION. The commands the EB2 takes: one constructor per row of spec/opcode_table.json: first those with operands, then those without,
each in the table's order (Lean's compiled data takes at most 244 constructors with operands). -/

namespace Sys2Proof

/-- A command: a register access, an event on a pin, a message, an operation of a port, or an event of the EB2's own
engines that falls due (95, "What each step holds"). -/
inductive Instr where
  | registerWrite (acc : Accessor) (off len : Nat) (v : Word)
  | bar0MultiwordAccess (acc : Accessor) (off : Nat) (m : MultiWord)
  | counterLoRead (acc : Accessor) (off : Nat)
  | chestOldRead (acc : Accessor)
  | bar2Read (port : HostPort) (off : Nat) (r : BarRead)
  | bar2Write (port : HostPort) (off : Nat) (d : BarWrite)
  | fretStart (west east : Bool)
  | configWrite (lt : Lt) (task : BitVec 32) (cfg : TileCfg)
  | arm (lt : Lt) (m : ArmMsg)
  | armDeadline (task : BitVec 32)
  | taskArmIssue (sched : BitVec 32) (t : ArmIssue)
  | taskLaunch (task : BitVec 32)
  | foldSwitch (lt : Lt)
  | firing (lt : Lt) (obs : List TileFault)
  | sramCorrectedWriteback (pt : Pt) (word : Nat)
  | tileSramZeroed (pt : Pt)
  | edgeCreditReturn (lt : Lt) (fold port n : Nat)
  | releaseQueueArrive (rp : ReleasePoint) (w : Worm) (n : Arrival) (last : Bool)
  | wormRelease (rp : ReleasePoint) (n : Nat)
  | wormLate (rp : ReleasePoint) (w : Worm)
  | steerTokenArrive (lt : Lt) (fold unit : Nat)
  | steerEmit (lt : Lt) (fold : Nat) (u : SteerRead)
  | steerGroupLate (lt : Lt) (fold unit : Nat)
  | steerTokenTimeout (lt : Lt) (fold unit : Nat)
  | steerGroupTimeout (lt : Lt) (fold unit : Nat)
  | taskEndCheck (task : BitVec 32)
  | creditCheckFret (lt : Lt) (fold port : Nat)
  | remapApply (c : Clus) (slot : Fin 16)
  | taskStop (task : BitVec 32)
  | taskCommit (task : BitVec 32)
  | abortMessageReceive (src : FabPort) (m : AbortMsg)
  | beaconReceive (port : FabPort) (b : Beacon) (cycle : Cycles)
  | fretDomainWrite (acc : Accessor) (v : Word)
  | pllLockLost (h : Half)
  | pllRelock (west east : BitVec 16)
  | flightRemeasure (acc : Accessor) (port : FabPort)
  | flightMeasureDone (port : FabPort) (xs : List Exchange)
  | stretchRequestReceive (chip : BitVec 10) (req : BitVec 6)
  | stretchAnnounce (eff : U64)
  | stretchAnnounceReceive (a : Announce)
  | clkChangeGo (acc : Accessor) (v : Word)
  | clkHalfSet (acc : Accessor) (v : Word)
  | clkHalfRestore (acc : Accessor) (v : Word)
  | streamActivate (c : Clus) (x : Ctx)
  | drawerIssue (c : Clus) (x : Ctx)
  | writeDrawerFillCheck (c : Clus) (x : CtxRead)
  | readDrawerDue (c : Clus) (x : Ctx)
  | writeDrawerDeadline (c : Clus) (x : Ctx)
  | hbmRequestStart (p : Part) (pc : Fin 32) (cycle : Nat) (hits : List Nat) (refreshDue : Bool) (seen : SectorsSeen)
  | hbmReadComplete (p : Part) (req : Nat)
  | hbmWriteAck (p : Part) (req : Nat)
  | hbmRefresh (p : Part) (pc : Fin 32) (hot : Bool)
  | hbmScrub (p : Part) (sector : Nat)
  | streamRetire (c : Clus) (x : Ctx)
  | streamQuiesceDone (c : Clus) (x : Ctx)
  | lpHintArrive (c : Clus) (x : Ctx)
  | lpSpeculate (c : Clus) (x : Ctx)
  | lpFlush (acc : Accessor) (p : Part) (v : Word)
  | sessionOpen (m : SessCmd)
  | sessionClose (m : SessCmd)
  | sessionSetQuota (m : SessCmd)
  | sessionQuery (m : SessCmd)
  | kvpEnable (acc : Accessor) (n : Fin 16) (v : Word)
  | connOpen (acc : Accessor) (v : Word)
  | connClose (acc : Accessor) (v : Word)
  | openReceive (r : OpenReq)
  | openAckReceive (r : OpenAck)
  | openTimeout (c : ConnN)
  | messageSend (c : ConnN) (kind : BitVec 3) (endpoint : BitVec 14) (body : List Byte)
  | messageArrive (m : Msg)
  | recordConsume (q : QueueN)
  | creditReturnSend (n : Nat) (cut : Bool)
  | creditReturnResend (n : Nat) (cut : Bool)
  | msgCreditReturnReceive (c : ConnN) (serial : BitVec 8) (total : BitVec 32)
  | nakNoticeReceive (m : NakNotice)
  | staleNoticeReceive (c : ConnN) (serial : BitVec 8)
  | closeMarkerReceive (srcChip : BitVec 10) (conn : BitVec 12) (serial : BitVec 8) (q : QueueN)
  | closeAckReceive (c : ConnN) (serial : BitVec 8)
  | closeMarkerResend (c : ConnN)
  | queueBind (acc : Accessor) (v : Word)
  | queueUnbind (acc : Accessor) (v : Word)
  | chordSumRelease (q : QueueN)
  | wormRoute (r : Router) (port : Nat) (e : RouteEv) (bad : Option (Fin 18))
  | wormCut (r : Router) (port n : Nat) (atInput : Bool)
  | vcWatchdogExpire (r : Router) (outPort : Nat) (vc : BitVec 2)
  | fabPortEnable (p : FabPort)
  | fabPortDisable (acc : Accessor) (p : FabPort) (v : Word)
  | fabTrainDone (p : FabPort)
  | fabTrainFail (p : FabPort) (lanes : BitVec 8)
  | fabMeasureDone (p : FabPort) (xs : List Exchange)
  | fabIdentityReceive (p : FabPort) (id : PeerId)
  | fabLockLost (p : FabPort)
  | fabDownMarkerReceive (p : FabPort)
  | fabLocalRetry (p : FabPort)
  | fabReplay (p : FabPort)
  | fabReplayLimit (p : FabPort)
  | ncnCrcError (h : Half) (again : Bool)
  | bar4Write (port : HostPort) (off : Nat) (data : List Byte)
  | submissionTimeout (port : HostPort) (c : ConnN)
  | nqHeadWrite (acc : Accessor) (port : HostPort) (v : Word)
  | rxConsume (acc : Accessor) (port : HostPort) (v : Word)
  | attentionPulse (port : HostPort)
  | mcLoad (m : McCmd) (img : Image) (bytesDigest : BitVec 256) (formatOk : Bool)
  | mcStart (m : McCmd)
  | mcStop (m : McCmd)
  | mcUnload (m : McCmd)
  | ownerClaim (acc : Accessor)
  | ownerRelease (acc : Accessor)
  | ownerGive (acc : Accessor)
  | perst (port : HostPort) (how : PortReset)
  | perstDeassert (port : HostPort)
  | pcieLinkUp (port : HostPort) (width speed : BitVec 4) (flit : Bool) (mps : BitVec 3)
  | mgmtSystemReset (d : Datagram)
  | mgmtCoreReset (d : Datagram)
  | mgmtAssignOwner (d : Datagram)
  | mgmtSetBudget (d : Datagram)
  | mgmtChestClear (d : Datagram)
  | mgmtClearRetire (d : Datagram)
  | mgmtQuote (d : Datagram)
  | mgmtWriteReg (d : Datagram)
  | mgtNdEcho (port : MgmtPort) (dst : BitVec 128) (echo : Bool) (payload : List Byte)
  | mgtPortLinkUp (port : MgmtPort)
  | parityCountDecay (unit : Nat)
  | arbitrationStart (c : Clus)
  | arbitrationDone (c : Clus) (rs : List Replay)
  | digestRoundStart (h : Half)
  | digestPassDone (d : DigestRead)
  | digestEnable (acc : Accessor) (v : Word)
  | digestDisable (acc : Accessor) (v : Word)
  | digestVerify (acc : Accessor) (v : Word)
  | digestCfgWrite (acc : Accessor) (v : Word)
  | digestMessageReceive (m : DigestMsg)
  | retireStart (cause : BitVec 4)
  | mcLockstepFail (pc0 pc1 : Word)
  | healFence (acc : Accessor) (v : Word)
  | healFenceDeferredApply (pt : Pt)
  | healRotate (acc : Accessor) (v : Word)
  | healPartitionRecovery (acc : Accessor) (v : Word)
  | rotationApply (c : Clus)
  | infieldTestDone (pt : Pt) (failed : Option (BitVec 4))
  | variantLoad (c : Clus) (slot : Fin 16) (sched : BitVec 32)
  | taskHang (task : BitVec 32)
  | tileFenceTimeout (pt : Pt)
  | prrStart (p : Part)
  | prrResetDone (p : Part) (us : BitVec 16)
  | prrVerified (p : Part)
  | twinAttachSource (acc : Accessor) (v : Word)
  | twinAttachSink (acc : Accessor) (v : Word)
  | twinDetach (acc : Accessor) (v : Word)
  | twinCopyDone (mib : BitVec 32)
  | twinMirrorReceive (m : MirrorMsg)
  | porRelease (p : PorSeen)
  | thermalTrip (sensor temp : Word)
  | rstcReqCore (acc : Accessor) (v : Word)
  | rstcReqSystem (acc : Accessor) (v : Word)
  | blkMaintenanceReset (acc : Accessor) (v : Word)
  | blkRecoveryReset (acc : Accessor) (v : Word)
  | blkResetDone (level : BitVec 2) (target : Nat)
  | brupStartStage (acc : Accessor) (v : Word)
  | brupPause (acc : Accessor) (v : Word)
  | brupResume (acc : Accessor) (v : Word)
  | brupBootPushed (acc : Accessor) (v : Word)
  | brupProgram (acc : Accessor) (v : Word)
  | stageBu0 (flashOk : Bool)
  | stageBu1 (selfCheckOk : Bool)
  | stageBu2 (locked : Bool)
  | stageBu3 (ok : Bool)
  | stageBu4 (spineOk bridgeOk : Bool)
  | stageBu5 (trained : List (BitVec 16))
  | stageBu6 (badPart : Option Part)
  | stageBu7 (f : TestFound)
  | stageBu9 (confirmed : Bool)
  | governorInterval (m : Measured)
  | governorPark (p : Part) (idleMs : Nat)
  | pwrParkNow (acc : Accessor) (v : Word)
  | pwrWake (acc : Accessor) (byAllow : Bool) (v : Word)
  | parkDone (p : Part)
  | wakeDone (p : Part) (failed : List (Pt × BitVec 4))
  | budgetWrite (acc : Accessor) (v : Word)
  | thermalClampEngage (h : Half) (temp : BitVec 8)
  | thermalClampRelease (h : Half)
  | powerClampEngage (mean : Nat)
  | powerClampRelease (mean : Nat)
  | droopEvent (rail : Fin 18) (events : Nat) (raise critical : Bool)
  | guardBandLower (rail : Fin 18)
  | pegRetune (n : Nat) (better : Bool)
  | pegRetuneAll (acc : Accessor) (v : Word)
  | lcTransitionRequest (acc : Accessor) (v : Word)
  | idGenerate (acc : Accessor) (v : Word)
  | signRequest (msg : List Byte)
  | opkWrite (acc : Accessor) (v : Word)
  | opkErase (acc : Accessor) (v : Word)
  | quoteRequest (acc : Accessor) (v : Word)
  | jtagExtest (cells : BitVec 362)
  | jtagSamplePreload (pins cells : BitVec 362)
  | jtagExtestPulse (cells : BitVec 362)
  | jtagExtestTrain (cells : BitVec 362)
  | jtagBypass (opcode : BitVec 8)
  | hbmWindowTestStart (p : Part) (pc : Fin 32)
  | hbmWindowTestDone (p : Part) (pc : Fin 32) (repeatFailed : Bool)
  | hbmWindowTestTimeout (p : Part) (pc : Fin 32)
  | shutdownTestStart (acc : Accessor) (v : Word)
  | shutdownTestPhase (failed : List (Pt × BitVec 4)) (windows : List Word)
  | chestCopyStart (reason : BitVec 8)
  | mgmtUnknownCommand (d : Datagram) (code : BitVec 8)
  | mcReservedOpcode (m : McCmd) (op : BitVec 8)
  | sessionReservedOpcode (m : SessCmd) (op : BitVec 8)
  | twinAttachReceive (rs : List AttachRegion)
  | hbmControllerError (p : Part)
  | hbmPhyFault (p : Part)
  | idGenerateDone (secret : BitVec 512)
  | mgtPortLinkDown (port : MgmtPort)
  | pcieConfigWrite (port : HostPort) (w : PcieCfg)
  | queueSample
  | beaconSend
  | beaconTimeout
  | holdoverTimeout
  | epochFret
  | seamSplit
  | seamResync
  | stretchApply
  | clockChangeFret
  | verifyResultSend
  | twHeartbeatSend
  | twHeartbeatTimeout
  | retireComplete
  | rotationMark
  | twinMirrorSend
  | twinTakeoverReceive
  | twinDetachReceive
  | healthRecordFenceWrite
  | por
  | pwrgdRise
  | supplyMonitorTrip
  | supplyRestore
  | sysrstNAssert
  | mcWatchdogExpire
  | orderlyResetAssert
  | stageBu8
  | scriptReplayStart
  | scriptWrite
  | scriptModify
  | scriptPoll
  | scriptPollMatch
  | scriptPollTimeout
  | scriptWait
  | scriptWaitExpire
  | scriptStage
  | scriptEnd
  | lcFuseWriteDone
  | signatureDone
  | quoteDone
  | scanEn
  | eb1Unlock
  | scanClearDone
  | jtagIdcode
  | jtagClamp
  | jtagHighz
  | testAgeTick
  | shutdownRecord
  | shutdownHalt
  | chestRecordPlace
  | chestCopyDone
  | telemetryReport
  | telemetrySend
  | trefRestore
  | sysrstNRelease
  | resetRelease
  | trstNAssert
deriving DecidableEq, Repr

end Sys2Proof
end

