-- ==== Sys2Proof/Decode.lean ====
section
/-! DEFINITION. Commands by the bits of the opcode table: no row of the table has bits, so no word spells a command. -/

namespace Sys2Proof

/-- The command a word spells by the table's bits: none, for the table gives no row bits. -/
def decodeTableWord (_nbits _w : Nat) : Option Instr := none

end Sys2Proof
end

