-- ==== Sys2Proof/Config.lean ====
section
/-! DEFINITION. The values the spec leaves open: opaque constants with no body, so that no proof can see them. -/

namespace Sys2Proof.Config

/-- A byte of HBM whose contents the spec leaves undefined (05 R239): by epoch of undefined contents and address. -/
opaque freeByte : Nat → Nat → Byte

/-- The 10 SECDED check bits of a sector's 256 data bits, a code the spec does not name (05 R240; log entry 62). -/
opaque checkBits : List Byte → BitVec 10

/-- A value the spec states no result for, by a counter in State that each use advances. -/
opaque freeWord : Nat → Word

/-- The entropy a session key is drawn from at BU1 (14 R672), by the free-value counter. -/
opaque sessionKey : Nat → BitVec 256

/-- The root of the identity key that XMSSMT-SHAKE256_40/4_256 gives for the three seeds (14 R671). -/
opaque xmssRoot : BitVec 256 → BitVec 256 → BitVec 256 → BitVec 256

/-- The bytes of the XMSS^MT signature over a message with a leaf (14 R672): 9,893 bytes in the part. -/
opaque signature : BitVec 256 → BitVec 40 → List Byte → List Byte

/-- A digest over bytes whose layout the spec leaves open (14 R681): by the free-value counter. -/
opaque openDigest : Nat → BitVec 256

/-- Whether an XMSS^MT signature over a pushed image's header verifies under its key (14 R668). -/
opaque xmssVerify : List Byte → List Byte → List Byte → Bool

/-- What a configuration image's payload says, whose layout the spec leaves to its maker: the mode, the snapshot lists by
trigger, and MGT_CTL with the addresses (12 R621; 16 R718). -/
opaque configAuto : List Byte → Bool
opaque configTrigs : List Byte → List (Nat × List (BitVec 25))
opaque configMgt : List Byte → List Word

/-- What the MC or the Chest reads of a register of which each port has its own copy (09 R514): the spec names no copy for
them (log entry 42). -/
opaque mcCopy : BitVec 14 → BitVec 14 → BitVec 14

/-- What a byte of tile SRAM outside the fold's partition, or in a bank of which the requester owns no slot, reads as: no rule
gives that requester an access there (02 R103; 03 R159; log entry 49). -/
opaque unownedByte : Nat → Byte

/-- The block result of a pass of a floating-point operand against an integer operand, which 02 R58 does not provide for, by the
element codes of both (log entry 50). -/
opaque mixedPass : List Nat → List Nat → Word

/-- What a 40-bit integer sum starts at when the start value was read in a floating-point format (02 R70, R72; log entry 50). -/
opaque startInt : Word → Int

/-- Which of two candidates with equal keys of different bits and equal identifiers ranks first (02 R96, R98; log entry 47). -/
opaque smallBitsFirst : Bool

end Sys2Proof.Config
end

