-- ==== Sys2Proof/Machine/Table.lean ====
section
/-! DEFINITION. Sparse tables and byte memories: sorted association lists with no repeated key. -/

namespace Sys2Proof.Machine

/-- A sparse table: keys rise strictly; a key that is not listed has the table's default value. -/
abbrev Tab (α : Type) := List (Nat × α)

/-- The value at a key, or `d` where the key is not listed. -/
def Tab.get {α : Type} (d : α) : Tab α → Nat → α
  | [], _ => d
  | (k', v) :: t, k => if k = k' then v else Tab.get d t k

/-- The value at a key, if it is listed. -/
def Tab.find {α : Type} : Tab α → Nat → Option α
  | [], _ => none
  | (k', v) :: t, k => if k = k' then some v else Tab.find t k

/-- The table with one key set; the keys stay strictly rising. -/
def Tab.put {α : Type} : Tab α → Nat → α → Tab α
  | [], k, v => [(k, v)]
  | (k', v') :: t, k, v =>
    if k < k' then (k, v) :: (k', v') :: t
    else if k = k' then (k, v) :: t
    else (k', v') :: Tab.put t k v

/-- The table with one key no longer listed. -/
def Tab.del {α : Type} : Tab α → Nat → Tab α
  | [], _ => []
  | (k', v') :: t, k => if k = k' then Tab.del t k else (k', v') :: Tab.del t k

/-- One key changed by a function of its present value. -/
def Tab.upd {α : Type} (d : α) (t : Tab α) (k : Nat) (f : α → α) : Tab α :=
  Tab.put t k (f (Tab.get d t k))

/-- Every listed key lies above `lo` and the keys rise strictly. -/
def Tab.sortedFrom {α : Type} : Nat → Tab α → Bool
  | _, [] => true
  | lo, (k, _) :: t => decide (lo ≤ k) && Tab.sortedFrom (k + 1) t

/-- The form of a table: strictly rising keys. -/
def Tab.wf {α : Type} (t : Tab α) : Bool := Tab.sortedFrom 0 t

/-- A byte memory: listed bytes by address. -/
abbrev Mem := List Host.Cell

/-- Write bytes at consecutive addresses. -/
def Mem.write : Mem → Nat → List Byte → Mem
  | m, _, [] => m
  | m, a, b :: bs => Mem.write (Tab.put m a b) (a + 1) bs

/-- Write bytes of a memory whose unlisted bytes are zero: a zero byte is no longer listed. -/
def Mem.writeZ : Mem → Nat → List Byte → Mem
  | m, _, [] => m
  | m, a, b :: bs => Mem.writeZ (if b = 0 then Tab.del m a else Tab.put m a b) (a + 1) bs

/-- Read `n` bytes at consecutive addresses; `d` says what an unlisted address reads as. -/
def Mem.read (d : Nat → Byte) (m : Mem) (a : Nat) : Nat → List Byte
  | 0 => []
  | n + 1 => Tab.get (d a) m a :: Mem.read d m (a + 1) n

/-- Forget the bytes of an address range. -/
def Mem.forget (m : Mem) (lo n : Nat) : Mem := m.filter fun c => !(decide (lo ≤ c.1) && decide (c.1 < lo + n))

/-- The form of a memory: strictly rising addresses. -/
def Mem.wf (m : Mem) : Bool := Tab.wf m

/-- The little-endian value of bytes (00 R6). -/
def leVal : List Byte → Nat
  | [] => 0
  | b :: bs => b.toNat + 256 * leVal bs

/-- `n` little-endian bytes of a value (00 R6). -/
def leBytes : Nat → Nat → List Byte
  | 0, _ => []
  | n + 1, v => BitVec.ofNat 8 v :: leBytes n (v / 256)

/-- Bytes `off` to `off + n - 1` of a list, as a little-endian value. -/
def leAt (bs : List Byte) (off n : Nat) : Nat := leVal ((bs.drop off).take n)

/-- One element of a list changed. -/
def listUpd {α : Type} : List α → Nat → (α → α) → List α
  | [], _, _ => []
  | x :: xs, 0, f => f x :: xs
  | x :: xs, n + 1, f => x :: listUpd xs n f

/-- A list of `n` values of a function of the index. -/
def tabulate {α : Type} (n : Nat) (f : Nat → α) : List α := (List.range n).map f

end Sys2Proof.Machine
end

