-- ==== Sys2Proof/Machine/Numfmt.lean ====
section
/-! DEFINITION. Number formats: decoding, exact values, rounding and conversion of the tile (02 R50 to R55, R69, R74 to R82). -/

namespace Sys2Proof.Machine

/-- An exact value: NaN, an infinity, or ± m × 2^e. -/
inductive Num where
  | nan
  | inf (neg : Bool)
  | fin (neg : Bool) (m : Nat) (e : Int)
deriving DecidableEq, Repr

/-- Bits of an element (02 R50). -/
def fmtBits : Fmt → Nat
  | .e2m1 | .int4 => 4 | .e2m3 | .e3m2 => 6 | .e4m3 | .e5m2 | .int8 => 8 | .bf16 | .fp16 => 16 | .fp32 | .int32 => 32

/-- Integer formats. -/
def fmtInt : Fmt → Bool
  | .int4 | .int8 | .int32 => true | _ => false

/-- Exponent bits, mantissa bits and bias of a floating-point format (02 R50). -/
def fmtShape : Fmt → Nat × Nat × Nat
  | .e2m1 => (2, 1, 1) | .e2m3 => (2, 3, 1) | .e3m2 => (3, 2, 3) | .e4m3 => (4, 3, 7) | .e5m2 => (5, 2, 15)
  | .bf16 => (8, 7, 127) | .fp16 => (5, 10, 15) | .fp32 => (8, 23, 127) | _ => (0, 0, 0)

/-- Mantissa width. -/
def fmtMant (f : Fmt) : Nat := (fmtShape f).2.1

/-- Formats with IEEE 754 infinities and NaNs in the largest exponent. -/
def fmtIeee : Fmt → Bool
  | .e5m2 | .bf16 | .fp16 | .fp32 => true | _ => false

/-- Two's complement of `w` bits. -/
def signedOf (w c : Nat) : Int := if 2 ^ (w - 1) ≤ c % 2 ^ w then ((c % 2 ^ w : Nat) : Int) - 2 ^ w else ((c % 2 ^ w : Nat) : Int)

/-- The exact value of an element code; a finite floating-point element keeps the significand scaled by its mantissa
width, so that its unbiased exponent is e plus that width, the smallest normal exponent for a subnormal (02 R50, R63). -/
def decodeNum (f : Fmt) (c : Nat) : Num :=
  if fmtInt f then
    let v := signedOf (fmtBits f) c
    .fin (decide (v < 0)) v.natAbs 0
  else
    let (eb, mb, bias) := fmtShape f
    let neg := c / 2 ^ (eb + mb) % 2 = 1
    let ex := c / 2 ^ mb % 2 ^ eb
    let mt := c % 2 ^ mb
    if f = .e4m3 ∧ ex = 15 ∧ mt = 7 then .nan
    else if fmtIeee f ∧ ex = 2 ^ eb - 1 then (if mt = 0 then .inf neg else .nan)
    else if ex = 0 then .fin neg mt (1 - (bias : Int) - mb)
    else .fin neg (2 ^ mb + mt) ((ex : Int) - bias - mb)

/-- How a rounding decides: nearest-even, or stochastic with a 16-bit r (02 R75, R79). -/
inductive Rmode where
  | nearest
  | stoch (r : Nat)
deriving DecidableEq, Repr

/-- A magnitude `m × 2^-sh` cut to an integer under a rounding mode (02 R75, R79). -/
def roundShift (rm : Rmode) (m sh : Nat) : Nat :=
  let q := m / 2 ^ sh
  let rem := m % 2 ^ sh
  match rm with
  | .nearest => if 2 ^ sh < 2 * rem ∨ (2 * rem = 2 ^ sh ∧ q % 2 = 1) then q + 1 else q
  | .stoch r => if 65536 ≤ rem * 65536 / 2 ^ sh + r then q + 1 else q

/-- A magnitude rounded to `mb` mantissa bits with smallest normal exponent `emin`, as if the exponent had no upper end
(02 R76): the integer and the weight of its unit. -/
def roundMag (rm : Rmode) (mb : Nat) (emin : Int) (m : Nat) (e : Int) : Nat × Int :=
  if m = 0 then (0, emin - mb)
  else
    let lsb : Int := max ((Nat.log2 m : Int) + e) emin - mb
    if lsb ≤ e then (m * 2 ^ (e - lsb).toNat, lsb) else (roundShift rm m (lsb - e).toNat, lsb)

/-- `a × 2^x < b × 2^y`. -/
def magLt (a : Nat) (x : Int) (b : Nat) (y : Int) : Bool :=
  if x ≤ y then decide (a < b * 2 ^ (y - x).toNat) else decide (a * 2 ^ (x - y).toNat < b)

/-- The largest finite magnitude of a floating-point format (02 R50). -/
def fmtMax (f : Fmt) : Nat × Int :=
  let (eb, mb, bias) := fmtShape f
  match f with
  | .e4m3 => (14, 5)
  | .e2m1 | .e2m3 | .e3m2 => (2 ^ (mb + 1) - 1, (2 ^ eb : Int) - 1 - bias - mb)
  | _ => (2 ^ (mb + 1) - 1, (2 ^ eb : Int) - 2 - bias - mb)

/-- The code of a representable magnitude. -/
def encodeMag (f : Fmt) (neg : Bool) (q : Nat) (lsb : Int) : Nat :=
  let (eb, mb, bias) := fmtShape f
  let sign := if neg then 2 ^ (eb + mb) else 0
  if q = 0 then sign
  else
    let l : Int := (Nat.log2 q : Int) + lsb
    if l < 1 - bias then sign + q * 2 ^ (lsb - (1 - (bias : Int) - mb)).toNat
    else
      let sig := if Nat.log2 q ≤ mb then q * 2 ^ (mb - Nat.log2 q) else q / 2 ^ (Nat.log2 q - mb)
      sign + (l + bias).toNat * 2 ^ mb + (sig - 2 ^ mb)

/-- Infinity and the canonical NaN of a format that has them (02 R69, R76). The plain formats E2M1, E2M3 and E3M2, which have no NaN
code and no row in the table of R76, get code 0 without conv_sat, and an infinity saturates (log entry 57). -/
def infCode (f : Fmt) (neg : Bool) : Nat :=
  let (eb, mb, _) := fmtShape f
  (if neg then 2 ^ (eb + mb) else 0) + (2 ^ eb - 1) * 2 ^ mb

def nanCode (f : Fmt) : Nat :=
  match f with
  | .fp32 => 0x7FC00000 | .bf16 => 0x7FC0 | .fp16 => 0x7E00 | .e5m2 => 0x7E | .e4m3 => 0x7F | _ => 0

/-- A saturated integer conversion: the code and conv_sat (02 R76). -/
def toIntFmt (rm : Rmode) (w : Nat) (x : Num) : Nat × Bool :=
  let top : Int := 2 ^ (w - 1) - 1
  let bot : Int := -(2 ^ (w - 1))
  match x with
  | .nan => (0, true)
  | .inf neg => (((if neg then bot else top) % 2 ^ w).toNat, true)
  | .fin neg m e =>
    let q : Nat := if 0 ≤ e then m * 2 ^ e.toNat else roundShift rm m (-e).toNat
    let v : Int := if neg then -(q : Int) else q
    if top < v then ((top % 2 ^ w).toNat, true)
    else if v < bot then ((bot % 2 ^ w).toNat, true)
    else ((v % 2 ^ w).toNat, false)

/-- Conversion of a value to a plain format: the code and conv_sat (02 R76). -/
def convNum (f : Fmt) (rm : Rmode) (x : Num) : Nat × Bool :=
  if fmtInt f then toIntFmt rm (fmtBits f) x
  else
    let (_, mb, bias) := fmtShape f
    let big := fmtMax f
    match x with
    | .nan => (nanCode f, false)
    | .inf neg => if fmtIeee f then (infCode f neg, false) else (encodeMag f neg big.1 big.2, true)
    | .fin neg m e =>
      let (q, lsb) := roundMag rm mb (1 - (bias : Int)) m e
      if magLt big.1 big.2 q lsb then
        if fmtIeee f then (infCode f neg, false) else (encodeMag f neg big.1 big.2, true)
      else (encodeMag f neg q lsb, false)

/-- A value rounded to FP32 by nearest-even. -/
def enc32 (x : Num) : Word := BitVec.ofNat 32 (convNum .fp32 .nearest x).1

/-- The exact value of an FP32 word. -/
def dec32 (w : Word) : Num := decodeNum .fp32 w.toNat

/-- Elements of a packed byte string (02 R55). -/
def unpack (f : Fmt) (bs : List Byte) (n : Nat) : List Nat :=
  let w := fmtBits f
  match w with
  | 4 => (List.range n).map fun i => (bs.getD (i / 2) 0).toNat / 16 ^ (i % 2) % 16
  | 6 => (List.range n).map fun i => leAt bs (3 * (i / 4)) 3 / 64 ^ (i % 4) % 64
  | _ => (List.range n).map fun i => leAt bs (i * (w / 8)) (w / 8)

/-- Groups of `n` elements of a list, with a fuel of the list's length. -/
def chunks {α : Type} (n : Nat) : Nat → List α → List (List α)
  | 0, _ => []
  | _, [] => []
  | fuel + 1, xs => xs.take n :: chunks n fuel (xs.drop n)

/-- Elements packed as bytes (02 R55). -/
def pack (f : Fmt) (cs : List Nat) : List Byte :=
  let w := fmtBits f
  match w with
  | 4 => (chunks 2 cs.length cs).map fun g => BitVec.ofNat 8 (g.getD 0 0 + 16 * g.getD 1 0)
  | 6 => (chunks 4 cs.length cs).flatMap fun g =>
      leBytes 3 (g.getD 0 0 + 64 * g.getD 1 0 + 4096 * g.getD 2 0 + 262144 * g.getD 3 0)
  | _ => cs.flatMap (leBytes (w / 8))

/-- emax of an MX element format (02 R77). -/
def mxEmax : Fmt → Int
  | .e2m1 => 2 | .e2m3 => 2 | .e3m2 => 4 | .e4m3 => 8 | .e5m2 => 15 | _ => 0

/-- Conversion of a scaled value to an MX element, with saturation (02 R76, R77). -/
def mxElem (f : Fmt) (rm : Rmode) (x : Num) : Nat × Bool :=
  match x with
  | .fin neg m e =>
    let (_, mb, bias) := fmtShape f
    let big := fmtMax f
    let (q, lsb) := roundMag rm mb (1 - (bias : Int)) m e
    if magLt big.1 big.2 q lsb then (encodeMag f neg big.1 big.2, true) else (encodeMag f neg q lsb, false)
  | _ => (0, false)

/-- floor(log2) of the largest magnitude of a block, if any is non-zero. -/
def blockExp : List Num → Option Int
  | [] => none
  | x :: xs =>
    match x with
    | .fin _ m e =>
      if m = 0 then blockExp xs
      else match blockExp xs with
        | some k => some (max k ((Nat.log2 m : Int) + e))
        | none => some ((Nat.log2 m : Int) + e)
    | _ => blockExp xs

/-- A value that is not finite. -/
def notFin : Num → Bool
  | .fin _ _ _ => false | _ => true

/-- One MX block: the scale code, the element codes, and how many elements saturated (02 R76, R77). -/
def mxBlock (f : Fmt) (xs : List (Num × Rmode)) : Nat × List Nat × Nat :=
  let vs := xs.map (·.1)
  if vs.any notFin then (0xFF, vs.map fun _ => 0, 0)
  else match blockExp vs with
    | none => (0, vs.map fun _ => 0, 0)
    | some k =>
      let d : Int := max (-127) (min 127 (k - mxEmax f))
      let es := xs.map fun x => match x.1 with
        | .fin neg m e => mxElem f x.2 (.fin neg m (e - d))
        | y => mxElem f x.2 y
      ((127 + d).toNat, es.map (·.1), (es.filter (·.2)).length)

/-- The rounding generator (02 R81): r for element `i` of a site. -/
def roundGen (task fold site salt i : Nat) : Nat :=
  let m := 2 ^ 64
  let seed := task * 2 ^ 32 + fold * 2 ^ 29 + site * 2 ^ 16 + salt
  let z0 := (seed + i * 0x9E3779B97F4A7C15) % m
  let z1 := ((z0 ^^^ (z0 / 2 ^ 30)) * 0xBF58476D1CE4E5B9) % m
  let z2 := ((z1 ^^^ (z1 / 2 ^ 27)) * 0x94D049BB133111EB) % m
  let z3 := z2 ^^^ (z2 / 2 ^ 31)
  z3 / 2 ^ 48

end Sys2Proof.Machine
end

