-- ==== Sys2Proof/Machine/Fp32.lean ====
section
/-! DEFINITION. FP32 operations of the accumulators and the vector unit, correctly rounded (02 R52, R69, R88 to R93). -/

namespace Sys2Proof.Machine

/-- Signed value of a finite number at weight 2^w, where w is at most its exponent. -/
def scaled (neg : Bool) (m : Nat) (e w : Int) : Int :=
  let v : Int := m * 2 ^ (e - w).toNat
  if neg then -v else v

/-- Exact sum of two values; two negative zeros give −0, every other exact zero sum +0 (02 R52). -/
def addNum : Num → Num → Num
  | .nan, _ => .nan
  | _, .nan => .nan
  | .inf a, .inf b => if a = b then .inf a else .nan
  | .inf a, .fin _ _ _ => .inf a
  | .fin _ _ _, .inf b => .inf b
  | .fin n1 m1 e1, .fin n2 m2 e2 =>
    let w := min e1 e2
    let v := scaled n1 m1 e1 w + scaled n2 m2 e2 w
    if v = 0 then .fin (n1 && n2 && decide (m1 = 0) && decide (m2 = 0)) 0 0 else .fin (decide (v < 0)) v.natAbs w

/-- Exact product; Infinity × 0 is NaN. -/
def mulNum : Num → Num → Num
  | .nan, _ => .nan
  | _, .nan => .nan
  | .inf a, .inf b => .inf (a != b)
  | .inf a, .fin n m _ => if m = 0 then .nan else .inf (a != n)
  | .fin n m _, .inf b => if m = 0 then .nan else .inf (n != b)
  | .fin n1 m1 e1, .fin n2 m2 e2 => .fin (n1 != n2) (m1 * m2) (e1 + e2)

def negNum : Num → Num
  | .nan => .nan
  | .inf a => .inf !a
  | .fin n m e => .fin (!n) m e

def add32 (x y : Word) : Word := enc32 (addNum (dec32 x) (dec32 y))
def sub32 (x y : Word) : Word := enc32 (addNum (dec32 x) (negNum (dec32 y)))
def mul32 (x y : Word) : Word := enc32 (mulNum (dec32 x) (dec32 y))
def fma32 (x y z : Word) : Word := enc32 (addNum (mulNum (dec32 x) (dec32 y)) (dec32 z))

/-- x < y as numbers; −0 equals +0. -/
def numLt : Num → Num → Bool
  | .nan, _ => false
  | _, .nan => false
  | .inf a, .inf b => a && !b
  | .inf a, .fin _ _ _ => a
  | .fin _ _ _, .inf b => !b
  | .fin n1 m1 e1, .fin n2 m2 e2 =>
    let w := min e1 e2
    decide (scaled n1 m1 e1 w < scaled n2 m2 e2 w)

/-- x = y as numbers. -/
def numEq (x y : Num) : Bool :=
  match x, y with
  | .nan, _ => false
  | _, .nan => false
  | _, _ => !numLt x y && !numLt y x

/-- Canonical quiet NaN (02 R69). -/
def nan32 : Word := 0x7FC00000

def isNan32 (x : Word) : Bool := dec32 x = .nan

/-- Min and max (02 R92). -/
def min32 (x y : Word) : Word :=
  if isNan32 x || isNan32 y then nan32
  else if numLt (dec32 x) (dec32 y) then x
  else if numLt (dec32 y) (dec32 x) then y
  else x ||| y

def max32 (x y : Word) : Word :=
  if isNan32 x || isNan32 y then nan32
  else if numLt (dec32 x) (dec32 y) then y
  else if numLt (dec32 y) (dec32 x) then x
  else x &&& y

/-- Absolute value and negation of a word; a NaN becomes canonical (02 R69). -/
def abs32 (x : Word) : Word := if isNan32 x then nan32 else x &&& 0x7FFFFFFF
def neg32 (x : Word) : Word := if isNan32 x then nan32 else x ^^^ 0x80000000

/-- Reciprocal, correctly rounded: 40 quotient bits past the divisor and a sticky bit (02 R88, R90). -/
def recip32 (x : Word) : Word :=
  match dec32 x with
  | .nan => nan32
  | .inf n => enc32 (.fin n 0 0)
  | .fin n m e =>
    if m = 0 then enc32 (.inf n)
    else
      let k := Nat.log2 m + 40
      let q := 2 ^ k / m
      let sticky := if q * m = 2 ^ k then 0 else 1
      enc32 (.fin n (2 * q + sticky) (-(k : Int) - 1 - e))

/-- Integer square root by bits, from bit `fuel - 1` down. -/
def isqrt : Nat → Nat → Nat → Nat
  | 0, _, r => r
  | fuel + 1, x, r =>
    let c := r + 2 ^ fuel
    isqrt fuel x (if c * c ≤ x then c else r)

/-- Reciprocal square root, correctly rounded (02 R88, R90). -/
def rsqrt32 (x : Word) : Word :=
  match dec32 x with
  | .nan => nan32
  | .inf n => if n then nan32 else 0
  | .fin n m e =>
    if m = 0 then enc32 (.inf n)
    else if n then nan32
    else
      -- m × 2^e with e made even
      let odd := e % 2 ≠ 0
      let m := if odd then 2 * m else m
      let e : Int := if odd then e - 1 else e
      let k := Nat.log2 m + 40
      let t := 2 ^ (2 * k) / m
      let q := isqrt 72 t 0
      let sticky := if q * q * m = 2 ^ (2 * k) then 0 else 1
      enc32 (.fin false (2 * q + sticky) (-(k : Int) - 1 - e / 2))

/-! ## Exponential, logarithm, tanh in 256-bit fixed point

Values are integers in units of 2^-256. The worst FP32 arguments of these functions lie much further than 2^-200 from a
rounding boundary, so rounding the fixed-point value gives the correctly rounded result (log entry 21). -/

/-- One in fixed point. -/
def fxOne : Int := 2 ^ 256

def fxMul (x y : Int) : Int := x * y / fxOne

/-- Σ of 2 z^(2i+1) / (2i+1): twice the inverse hyperbolic tangent; `p` is z^(2i+1). -/
def atanhSum : Nat → Int → Int → Int → Int
  | 0, _, _, _ => 0
  | fuel + 1, i, p, z2 => 2 * p / (2 * i + 1) + atanhSum fuel (i + 1) (fxMul p z2) z2

/-- ln 2. -/
def fxLn2 : Int := let z := fxOne / 3; atanhSum 85 0 z (fxMul z z)

/-- Σ of r^i / i! from the term `t` = r^i / i!. -/
def expSum : Nat → Int → Int → Int → Int
  | 0, _, _, _ => 0
  | fuel + 1, i, t, r => t + expSum fuel (i + 1) (fxMul t r / (i + 1)) r

/-- A finite value in fixed point. -/
def toFx (n : Bool) (m : Nat) (e : Int) : Int :=
  let v : Int := if 0 ≤ e + 256 then (m : Int) * 2 ^ (e + 256).toNat else (m : Int) / 2 ^ (-(e + 256)).toNat
  if n then -v else v

/-- exp of a fixed-point value of magnitude below 2^9: the integer y and k with exp x = y × 2^(k-256). -/
def expFx (x : Int) : Int × Int :=
  let k := (2 * x + fxLn2) / (2 * fxLn2)
  (expSum 64 0 fxOne (x - k * fxLn2), k)

/-- A magnitude above 2^9, that no FP32 result of exp or tanh depends on. -/
def hugeNum (m : Nat) (e : Int) : Bool := decide (9 ≤ (Nat.log2 m : Int) + e)

def exp32 (x : Word) : Word :=
  match dec32 x with
  | .nan => nan32
  | .inf n => if n then 0 else x
  | .fin n m e =>
    if m = 0 then 0x3F800000
    else if hugeNum m e then (if n then 0 else enc32 (.inf false))
    else
      let (y, k) := expFx (toFx n m e)
      enc32 (.fin false y.natAbs (k - 256))

def log32 (x : Word) : Word :=
  match dec32 x with
  | .nan => nan32
  | .inf n => if n then nan32 else x
  | .fin n m e =>
    if m = 0 then enc32 (.inf true)
    else if n then nan32
    else
      -- m × 2^e = f × 2^k with f from 3/4 up to 3/2
      let l := Nat.log2 m
      let up := decide (3 * 2 ^ l ≤ 2 * m)
      let k : Int := (l : Int) + e + (if up then 1 else 0)
      let f : Int := (m : Int) * 2 ^ 256 / 2 ^ (l + (if up then 1 else 0))
      let z := (f - fxOne) * fxOne / (f + fxOne)
      let y := k * fxLn2 + atanhSum 64 0 z (fxMul z z)
      if y = 0 then 0 else enc32 (.fin (decide (y < 0)) y.natAbs (-256))

def tanh32 (x : Word) : Word :=
  match dec32 x with
  | .nan => nan32
  | .inf n => if n then 0xBF800000 else 0x3F800000
  | .fin n m e =>
    if m = 0 then x
    else if hugeNum m (e - 4 + 9) then (if n then 0xBF800000 else 0x3F800000)
    else
      let (y, k) := expFx (2 * toFx false m e)
      let v : Int := if 0 ≤ k then y * 2 ^ k.toNat else y / 2 ^ (-k).toNat
      let q := (v - fxOne) * fxOne / (v + fxOne)
      enc32 (.fin n q.natAbs (-256))

/-- One level of the lane tree: adjacent pairs (02 R93). -/
def pairUp (f : Word → Word → Word) : List Word → List Word
  | x :: y :: r => f x y :: pairUp f r
  | xs => xs

/-- Eight levels of the lane tree over 256 lanes (02 R93). The spec defines the tree for 256 lanes; of another number an odd last
lane passes up unchanged, lanes beyond the first 256 take no part, and of no lane the result is 0 (log entry 56). -/
def laneTree (f : Word → Word → Word) : Nat → List Word → Word
  | 0, xs => xs.headD 0
  | n + 1, xs => laneTree f n (pairUp f xs)

end Sys2Proof.Machine
end

