-- ==== Sys2Proof/Machine/StDataflow.lean ====
section
/-! DEFINITION. The state of tiles, running tasks, the fret time base and the release-time queues (02, 03, 04). -/

namespace Sys2Proof.Machine

/-- An edge word in an input queue: its 128 bytes, the fret of its release, and whether its data is poisoned. -/
structure QWord where
  bytes : List Byte
  rel : Nat
  bad : Bool
deriving DecidableEq, Repr

/-- A steering unit at run time: unpaired tokens with the fret of their release, and groups emitted so far (03 R144). -/
structure SteerRt where
  tokens : List (Word × Nat) := []
  emitted : Nat := 0
deriving DecidableEq, Repr

/-- An operand set of the stationary store (02 R59): `codes` holds the set column by column, each column's elements along the
reduction; in Hamming mode the store holds query codes (02 R83). -/
structure StatSet where
  fmt : Fmt := .e2m1
  k : Nat := 0
  n : Nat := 0
  codes : List Nat := []
  scales : List Byte := []
  queries : List (List Byte) := []
deriving DecidableEq, Repr

/-- The stationary store (02 R59): the active set, the set that loads or has loaded beside it, and whether the last pass on the
active set has finished. -/
structure StatStore where
  active : StatSet := {}
  loading : Option StatSet := none
  spent : Bool := true
deriving DecidableEq, Repr

/-- One accumulator entry (02 R61, R71): the sum, the compensation term, and the 40-bit integer accumulator. -/
structure AccEnt where
  s : BitVec 32 := 0
  c : BitVec 32 := 0
  i : Int := 0
deriving DecidableEq, Repr

/-- An accumulator bank of 64 × 64 entries, by row × 64 + column; an entry that is not listed is zero (02 R61; 03 R158). `int`
says that its passes multiply integers (02 R72). -/
structure AccSt where
  comp : Bool := false
  int : Bool := false
  ents : Tab AccEnt := []
deriving DecidableEq, Repr

/-- A top-k entry (02 R95, R96). -/
structure Cand where
  key : BitVec 32
  id : BitVec 48
  group : Nat
deriving DecidableEq, Repr

/-- Words leaving a tile at a later fret, and whether they are poisoned (03 R126; 02 R106). -/
structure Flight where
  fret : Nat
  port : Nat
  words : List (List Byte)
  bad : Bool
deriving DecidableEq, Repr

/-- One fold at run time: queues, credits, rounding counts, datapath contents (03 R155 to R160). The words of a queue are kept
here and not among the bytes of the tile's SRAM; how they lie in their area of R128 the spec does not say (log entry 51). -/
structure FoldRt where
  queues : List (List QWord) := []
  /-- words taken from each input since launch: the place in the input's stream (02 R86) -/
  used : List Nat := []
  credits : List Nat := []
  elems : List Nat := []
  fired : Nat := 0
  lastFire : Option Nat := none
  /-- credits that arrived in this fret, and the fret of each counter's last change (R131; 11 R575) -/
  fresh : List Nat := []
  changed : List Nat := []
  steers : List SteerRt := []
  stat : StatStore := {}
  /-- the bank that accumulates and the bank that drains (02 R61) -/
  acc : AccSt := {}
  drain : AccSt := {}
  cands : List Cand := []
deriving DecidableEq, Repr

/-- A configuration bank: the task it holds and its configuration (03 R164). -/
structure BankSt where
  task : BitVec 32
  cfg : TileCfg
deriving DecidableEq, Repr

/-- What a tile was armed with (03 R166, R167). -/
structure Armed where
  task : BitVec 32
  salt : BitVec 16
  launch : Nat
  current : Bool
deriving DecidableEq, Repr

/-- TILE_STATUS.state (02 R110). -/
inductive TileMode where
  | idle | config | run | fenced | test
deriving DecidableEq, Repr

def TileMode.code : TileMode → Nat
  | .idle => 0 | .config => 1 | .run => 2 | .fenced => 3 | .test => 4

/-- The fault capture of a tile (10 R531): the task, the check that failed, the abort fret, the fold, the LT served, and the fold's sets,
accumulators and queues as the failed operation found them. -/
structure Capture where
  task : BitVec 32
  kind : TileFault
  fret : Nat
  fold : Nat
  lt : Nat
  rt : FoldRt
deriving DecidableEq, Repr

/-- A physical tile. -/
structure TileSt where
  fold : BitVec 3 := 0
  folds : BitVec 3 := 0
  mode : TileMode := .idle
  nanOut : Bool := false
  convSat : Bool := false
  accSat : Bool := false
  sramCe : Bool := false
  satCnt : Word := 0
  ceCnt : Word := 0
  ueValid : Bool := false
  ueWord : BitVec 17 := 0
  armedOk : Bool := false
  cfgErr : Bool := false
  armCur : Bool := false
  errCheck : BitVec 4 := 0
  cur : Option BankSt := none
  next : Option BankSt := none
  /-- the queue-sampling exponent of the image last launched (03 R173) -/
  qexp : Nat := 6
  armed : Option Armed := none
  running : Option Armed := none
  rt : List FoldRt := []
  flight : List (Nat × Flight) := []
  sram : Mem := []
  writeBack : List (BitVec 17) := []
  qs : Tab (BitVec 13 × BitVec 13) := []
  capture : Option Capture := none
  inReset : Bool := false
deriving DecidableEq, Repr

/-- Where a task is in its life (03 R782; 04 R181, R182). -/
inductive TaskPhase where
  | waiting | armed | running | ended | committed | stopped
deriving DecidableEq, Repr

/-- An abort known for a task, and the fret of its detection or receipt (04 R182, R217 to R220). -/
structure AbortSt where
  fret : Nat
  origin : BitVec 10
  status : Status
  known : Nat
deriving DecidableEq, Repr

/-- A task of a running schedule on this chip. -/
structure TaskRt where
  sched : BitVec 32 := 0
  phase : TaskPhase := .waiting
  multi : Bool := false
  salt : BitVec 16 := 0
  launch : Nat := 0
  length : Nat := 0
  grace : Nat := 2
  attempt : Nat := 0
  earliest : Nat := 0
  causes : List (Nat × Status) := []
  aborts : List AbortSt := []
  sent : Bool := false
  recvd : Bool := false
  dead : Bool := false
  lastCommit : Option Nat := none
  /-- the side selectors latched at its earliest activation fret, by region (05 R280) -/
  sides : Option (Tab Bool) := none
  tiles : List Nat := []
  /-- statuses found while arming, of the launch fret (R168, R169, R247, R785) -/
  armFail : List Status := []
  /-- a tile or context of the task was armed too late (R168, R275) -/
  armLate : Bool := false
deriving DecidableEq, Repr

/-- FRET_STATUS.state (04 R193, R224). -/
inductive Align where
  | unlocked | free | track | aligned | member | holdover | split | change
deriving DecidableEq, Repr

def Align.code : Align → Nat
  | .unlocked => 0 | .free => 1 | .track => 2 | .aligned => 3 | .member => 4 | .holdover => 5 | .split => 6
  | .change => 7

/-- One FRET_FLIGHTn (04 R233); `measuring`: its link's exchanges are under way (R195). -/
structure FlightReg where
  remeasure : Bool := false
  measuring : Bool := false
  valid : Bool := false
  allow : BitVec 11 := 0
  flight : BitVec 16 := 0
deriving DecidableEq, Repr

/-- The FRET block (04). -/
structure FretSt where
  west : U64 := 0
  east : U64 := 0
  state : Align := .unlocked
  stretch : BitVec 6 := 0
  pending : List (BitVec 6 × U64) := []
  requests : Tab Nat := []
  waitingReq : Option (BitVec 6) := none
  changeAt : Option U64 := none
  changeMhz : BitVec 16 := 0
  sinceBeacon : Nat := 0
  good : Nat := 0
  fromChange : Bool := false
  frozen : Bool := false
  seamSplit : Bool := false
  stretchLate : Bool := false
  abortLate : Bool := false
  allowShort : Bool := false
  alignLost : Bool := false
  beaconLost : Bool := false
  root : Bool := false
  parent : BitVec 5 := 0x1F
  domain : BitVec 8 := 0
  chip : BitVec 10 := 0
  horizon : BitVec 12 := 0
  children : BitVec 17 := 0
  trim : BitVec 16 := 0
  maxErr : BitVec 8 := 0
  err : BitVec 8 := 0
  abortTask : Word := 0
  abortValid : Bool := false
  abortOrigin : BitVec 10 := 0
  abortStatus : BitVec 8 := 0
  slipKind : BitVec 4 := 0
  slipWhere : BitVec 12 := 0
  slipCount : BitVec 16 := 0
  flights : Tab FlightReg := []
  /-- after a seam split caused by the clamp: the stretch that the governor requested, and the changes announced before it; no task
  launches before it is in effect (R215) -/
  clampWait : Option (BitVec 6 × Nat) := none
  /-- changes that took effect, newest first: the effective fret and the stretch before it -/
  changes : List (U64 × BitVec 6) := []
  /-- aborts received for tasks of loaded schedules that are not armed here yet (R218, R219) -/
  early : Tab (List AbortSt) := []
  splitClock : Bool := false
deriving DecidableEq, Repr

/-- A worm held at a release point, with the flits charged and whether its last flit is in; `lost`: it was late or found no room, and
the flits still to come are discarded (04 R199 to R201). -/
structure Held where
  w : Worm
  flits : Nat
  whole : Bool
  lost : Bool := false
  /-- steps of its run still to make beyond a Bridge end (08 R430) -/
  left : Nat := 0
deriving DecidableEq, Repr

end Sys2Proof.Machine
end

