-- ==== Sys2Proof/Machine/Mac.lean ====
section
/-! DEFINITION. The MAC array: in-block sums, cross-block sums, integer accumulation, Hamming mode (02 R56, R63 to R73, R83 to R87). -/

namespace Sys2Proof.Machine

/-- The exact product of two elements and the sum e of their unbiased exponents (02 R63). -/
def elemProduct (fa fb : Fmt) (a b : Nat) : Num × Int :=
  let x := decodeNum fa a
  let y := decodeNum fb b
  let p := mulNum x y
  match p with
  | .fin _ _ e => (p, e + fmtMant fa + fmtMant fb)
  | _ => (p, 0)

/-- The largest e among the non-zero finite products (02 R63). -/
def maxE : List (Num × Int) → Option Int
  | [] => none
  | (p, e) :: ps =>
    match p with
    | .fin _ m _ => if m = 0 then maxE ps else match maxE ps with
      | some x => some (max x e)
      | none => some e
    | _ => maxE ps

/-- A product in units of 2^w, its magnitude truncated toward zero (02 R64). -/
def truncTo (w : Int) : Num → Int
  | .fin n m e =>
    let v : Nat := if w ≤ e then m * 2 ^ (e - w).toNat else m / 2 ^ (w - e).toNat
    if n then -(v : Int) else v
  | _ => 0

/-- What a block of products sums to before the scales (02 R63 to R68): NaN, Infinity, or the 40-bit sum at its weight. -/
def blockSum (n : Nat) (ps : List (Num × Int)) : Num :=
  if ps.any (fun p => p.1 = .nan) then .nan
  else
    let pos := ps.any fun p => p.1 = .inf false
    let neg := ps.any fun p => p.1 = .inf true
    if pos && neg then .nan
    else if pos then .inf false
    else if neg then .inf true
    else match maxE ps with
      | none => .fin false 0 0
      | some e =>
        let w : Int := e - 37 + Nat.log2 n
        let v : Int := (ps.map fun p => truncTo w p.1).foldl (· + ·) 0
        if v = 0 then .fin false 0 0 else .fin (decide (v < 0)) v.natAbs w

/-- The block result: the sum times 2^(sa + sb − 254), rounded once to FP32; NaN where a scale is 0xFF (02 R54, R66,
R68). A plain operand has scale code 127. -/
def blockResult (fa fb : Fmt) (n sa sb : Nat) (as bs : List Nat) : Word :=
  let ps := (as.zip bs).map fun x => elemProduct fa fb x.1 x.2
  if sa = 0xFF ∨ sb = 0xFF then nan32
  else match blockSum n ps with
    | .fin neg m e => if m = 0 then 0 else enc32 (.fin neg m (e + sa + sb - 254))
    | x => enc32 x

/-- One FP32 accumulation of a block result, plain or compensated (02 R70, R71). -/
def accAdd (comp : Bool) (a : AccEnt) (b : Word) : AccEnt :=
  if comp then
    let t := add32 a.s b
    let bb := sub32 t a.s
    let e := add32 (sub32 a.s (sub32 t bb)) (sub32 b bb)
    { a with s := t, c := add32 a.c e }
  else { a with s := add32 a.s b }

/-- The result of an entry at drain (02 R71). -/
def accDrain (comp : Bool) (a : AccEnt) : Word :=
  if comp then
    match dec32 a.s with
    | .fin _ _ _ => add32 a.s a.c
    | _ => a.s
  else a.s

/-- The bound of the integer accumulator (02 R73). -/
def accBound : Int := 2 ^ 39 - 1

/-- One integer pass: the exact sum added, and saturated with acc_sat (02 R72, R73). -/
def accInt (a : AccEnt) (v : Int) : AccEnt × Bool :=
  let t := a.i + v
  if accBound < t then ({ a with i := accBound }, true)
  else if t < -accBound then ({ a with i := -accBound }, true)
  else ({ a with i := t }, false)

/-- The integer value of an element. -/
def intElem (f : Fmt) (c : Nat) : Int := signedOf (fmtBits f) c

/-- The blocks of one pass: (A elements, A scale, B elements, B scale), 32 elements each when either operand is MX, and
one block of 64 otherwise (02 R56). -/
def passBlocks (mx : Bool) (as bs : List Nat) (sa sb : List Nat) : List (List Nat × Nat × List Nat × Nat) :=
  if mx then
    (List.range 2).filterMap fun b =>
      let x := (as.drop (32 * b)).take 32
      let y := (bs.drop (32 * b)).take 32
      if x = [] then none else some (x, sa.getD b 127, y, sb.getD b 127)
  else [(as, sa.getD 0 127, bs, sb.getD 0 127)]

/-- One pass of one row against one column of the stationary set (02 R56): two integer operands add to the 40-bit sum (R72), two
floating-point operands to the FP32 sum; for one of each, which R58 does not provide for, the sum is a free value (log entry 50). -/
def passEnt (comp : Bool) (st : StatSet) (fa : Fmt) (sa : List Nat) (aMx : Bool) (as : List Nat) (col : Nat)
    (a : AccEnt) : AccEnt × Bool :=
  let bs := (st.codes.drop (col * st.k)).take st.k
  let bMx := !st.scales.isEmpty
  let nb := ceilDiv st.k 32
  let sb := ((st.scales.drop (col * nb)).take nb).map (·.toNat)
  if fmtInt fa && fmtInt st.fmt then
    accInt a (((as.zip bs).map fun x => intElem fa x.1 * intElem st.fmt x.2).foldl (· + ·) 0)
  else if fmtInt fa || fmtInt st.fmt then ({ a with s := Config.mixedPass as bs }, false)
  else
    let mx := aMx || bMx
    let n := if mx then 32 else 64
    (((passBlocks mx as bs (if aMx then sa else []) (if bMx then sb else [])).foldl
      (fun a x => accAdd comp a (blockResult fa st.fmt n x.2.1 x.2.2.2 x.1 x.2.2.1)) a), false)

/-- A pass of `rows` rows of A: each row against each column of the set (02 R56). `as` holds the rows' codes, `sa` their scales. -/
def macPass (acc : AccSt) (st : StatSet) (fa : Fmt) (rows : Nat) (as : List Nat) (sa : List Byte) (aMx : Bool) :
    AccSt × Bool :=
  let nb := ceilDiv st.k 32
  ((List.range rows).flatMap fun r => (List.range st.n).map fun c => (r, c)).foldl (fun p x =>
    let e := passEnt acc.comp st fa (((sa.drop (x.1 * nb)).take nb).map (·.toNat)) aMx
      ((as.drop (x.1 * st.k)).take st.k) x.2 (Tab.get {} p.1.ents (x.1 * 64 + x.2))
    ({ p.1 with ents := Tab.put p.1.ents (x.1 * 64 + x.2) e.1 }, p.2 || e.2))
    ({ acc with int := fmtInt fa && fmtInt st.fmt }, false)

/-- Bits set in a byte. -/
def popByte (b : Byte) : Nat := ((List.range 8).filter fun i => b.getLsbD i).length

/-- The Hamming distance of two codes (02 R84). -/
def hammingDist (x y : List Byte) : Nat := ((x.zip y).map fun p => popByte (p.1 ^^^ p.2)).foldl (· + ·) 0

/-! ## Top-k (02 R94 to R101) -/

/-- Comparison of two keys: `some true` when the first is smaller, `none` when they are equal. -/
def keyLess (k : KeyKind) (x y : BitVec 32) : Option Bool :=
  match k with
  | .unsigned => if x = y then none else some (decide (x.toNat < y.toNat))
  | .signed => if x = y then none else some (decide (x.toInt < y.toInt))
  | .fp32 =>
    if numEq (dec32 x) (dec32 y) then none else some (numLt (dec32 x) (dec32 y))

/-- The rank of candidates of equal keys: the smaller identifier (02 R96). Where the identifiers are equal as well, keys
of different bits (−0 and +0, two NaNs) rank by their bits, so that the order of arrival does not show (02 R98; log
entry 47). -/
def idBetter (x y : Cand) : Bool :=
  if x.id = y.id then (if Config.smallBitsFirst then decide (x.key.toNat < y.key.toNat) else decide (y.key.toNat < x.key.toNat))
  else decide (x.id.toNat < y.id.toNat)

/-- The order of a group: `true` when the first candidate ranks better (02 R96). NaN ranks below every number. -/
def candBetter (g : TopkCfg) (x y : Cand) : Bool :=
  let xn := decide (g.kind = .fp32) && isNan32 x.key
  let yn := decide (g.kind = .fp32) && isNan32 y.key
  if xn && yn then idBetter x y
  else if xn then false
  else if yn then true
  else match keyLess g.kind x.key y.key with
    | none => idBetter x y
    | some l => if g.smallerBetter then l else !l

/-- A candidate put in its place, best first. -/
def candInsert (g : TopkCfg) (x : Cand) : List Cand → List Cand
  | [] => [x]
  | y :: ys => if candBetter g y x then y :: candInsert g x ys else x :: y :: ys

/-- Entries of a group, and groups, within the bounds of the unit: k at most 256, G at most 64, and G × k at most 16,384 (02
R94). -/
def topkDepth (g : TopkCfg) : Nat := min g.k 256
def topkCount (g : TopkCfg) : Nat := min g.groups (min 64 (16384 / max (topkDepth g) 1))

/-- A group keeps its k best candidates (02 R96, R97). The list holds every group's candidates, best first in each. A candidate
whose group the unit does not have is kept by none (log entry 53). -/
def topkAdd (g : TopkCfg) (cs : List Cand) (x : Cand) : List Cand :=
  if topkCount g ≤ x.group then cs
  else
    let mine := (candInsert g x (cs.filter fun c => c.group = x.group)).take (topkDepth g)
    cs.filter (fun c => c.group ≠ x.group) ++ mine

/-- The worst key of an order (02 R99). -/
def worstKey (g : TopkCfg) : BitVec 32 :=
  match g.kind with
  | .unsigned => if g.smallerBetter then 0xFFFFFFFF else 0
  | .signed => if g.smallerBetter then 0x7FFFFFFF else 0x80000000
  | .fp32 => nan32

/-- An output record (02 R100). -/
def topkRecord (key : BitVec 32) (id group : Nat) (valid : Bool) (lt : Nat) : List Byte :=
  leBytes 4 key.toNat ++ leBytes 6 id ++ [BitVec.ofNat 8 group, BitVec.ofNat 8 valid.toNat] ++ leBytes 2 lt ++ leBytes 2 0

/-- The records a group emits: exactly k, best first, padded (02 R99). -/
def topkGroup (g : TopkCfg) (lt group : Nat) (cs : List Cand) : List Byte :=
  let mine := cs.filter fun c => c.group = group
  (List.range (topkDepth g)).flatMap fun i =>
    match mine[i]? with
    | some c => topkRecord c.key c.id.toNat group true lt
    | none => topkRecord (worstKey g) 0xFFFFFFFFFFFF group false lt

/-- The candidates of records that another group emitted; a record that is not valid is ignored (02 R101). -/
def recordCands (bs : List Byte) : List Cand :=
  (chunks 16 bs.length bs).filterMap fun r =>
    if leAt r 11 1 % 2 = 1 then
      some ⟨BitVec.ofNat 32 (leAt r 0 4), BitVec.ofNat 48 (leAt r 4 6), leAt r 10 1⟩
    else none

/-! ## Vector unit operations on lists of lanes (02 R88) -/

/-- A word as the vector unit passes it on: a NaN becomes canonical (02 R69). -/
def canon32 (x : Word) : Word := if isNan32 x then nan32 else x

/-- The truth value that a comparison gives a lane and a select reads: 1.0 or +0 (log entry 22). -/
def truth32 (b : Bool) : Word := if b then 0x3F800000 else 0

def vecOp (op : VecOp) (x y z : Word) : Word :=
  match op with
  | .add => add32 x y
  | .sub => sub32 x y
  | .mul => mul32 x y
  | .fma => fma32 x y z
  | .min => min32 x y
  | .max => max32 x y
  | .cmpLt => truth32 (numLt (dec32 x) (dec32 y))
  | .cmpLe => truth32 (numLt (dec32 x) (dec32 y) || numEq (dec32 x) (dec32 y))
  | .cmpEq => truth32 (numEq (dec32 x) (dec32 y))
  | .select => canon32 (if numEq (dec32 x) (.fin false 0 0) then z else y)
  | .abs => abs32 x
  | .neg => neg32 x
  | .recip => recip32 x
  | .rsqrt => rsqrt32 x
  | .exp => exp32 x
  | .log => log32 x
  | .tanh => tanh32 x

def laneOp (op : LaneOp) (xs : List Word) : Word :=
  match op with
  | .sum => laneTree add32 8 xs
  | .min => laneTree min32 8 xs
  | .max => laneTree max32 8 xs

end Sys2Proof.Machine
end

