-- ==== Sys2Proof/Machine/Datapath.lean ====
section
/-! DEFINITION. A fold's datapath for one firing: what each step computes from inputs, SRAM and the fold's units (02; 03, "Firings and static rates"). -/

namespace Sys2Proof.Machine

/-- What fixes the rounding of a fold's ports (02 R81). -/
structure Site where
  task : Nat
  fold : Nat
  lt : Nat
  salt : Nat
deriving DecidableEq, Repr

/-- A firing in progress: inputs, the bytes of each input's stream before this firing, the words of each that a gather
zero-filled (06 R301), tile SRAM, temporaries, output bytes per port, the fold's units, the SRAM bytes written, and what the
checks of conversion and accumulation noted. -/
structure Fire where
  ins : List (List Byte)
  pos : List Nat := []
  zeros : List (List Nat) := []
  sram : Mem
  wrote : List Nat := []
  tmp : Tab (List Byte) := []
  outs : List (List Byte)
  rt : FoldRt
  sat : Nat := 0
  nan : Bool := false
  accSat : Bool := false
deriving DecidableEq, Repr

/-- Bank of an SRAM address: bits [8:6] (02 R102). -/
def sramBank (a : Nat) : Nat := a / 64 % 8

/-- A requester accesses a byte of SRAM at an offset of the fold's partition: the byte lies inside the partition and the
requester owns a slot of its bank (02 R102, R103; 03 R159). -/
def sramReach (f : FoldCfg) (u : SlotUser) (off : Nat) : Bool :=
  decide (off < f.sramSize) && decide (f.sramBase + off < 2 ^ 20)
    && f.wheel.any fun w => decide (w.bank.val = sramBank (f.sramBase + off)) && decide (w.user = u)

/-- The bytes of a buffer as a requester reads them; SRAM offsets count from the fold's partition. A byte that the requester does
not reach reads as a free value (log entry 49). -/
def Fire.get (x : Fire) (f : FoldCfg) (u : SlotUser) : Buf → List Byte
  | .inp i => x.ins.getD i []
  | .sram off len => (List.range len).map fun i =>
      let a := f.sramBase + off + i
      if sramReach f u (off + i) then Tab.get 0 x.sram a else Config.unownedByte a
  | .tmp n => Tab.get [] x.tmp n
  | .out j => x.outs.getD j []

/-- Bytes that a requester puts in a buffer: an output port's bytes follow those it already has; an input is not written, and no
byte of SRAM that the requester does not reach. -/
def Fire.put (x : Fire) (f : FoldCfg) (u : SlotUser) (b : Buf) (bs : List Byte) : Fire :=
  match b with
  | .inp _ => x
  | .sram off len =>
    let cells := ((bs.take len).zipIdx.filter fun c => sramReach f u (off + c.2)).map fun c => (f.sramBase + off + c.2, c.1)
    { x with sram := cells.foldl (fun m c => Mem.writeZ m c.1 [c.2]) x.sram, wrote := x.wrote ++ cells.map (·.1) }
  | .tmp n => { x with tmp := Tab.put x.tmp n bs }
  | .out j => { x with outs := listUpd x.outs j (· ++ bs) }

/-- A NaN or an MX scale of 0xFF written by an output port (02 R110). -/
def Fire.noteNan (x : Fire) (dst : Buf) (b : Bool) : Fire :=
  match dst with
  | .out _ => { x with nan := x.nan || b }
  | _ => x

/-- The rounding of element `i` converted at a port (02 R75, R81). -/
def portMode (s : Site) (r : Rounding) (port i : Nat) : Rmode :=
  match r with
  | .rne => .nearest
  | .sr => .stoch (roundGen s.task s.fold (s.lt * 4 + port) s.salt i)

/-- Elements converted at a port so far. -/
def Fire.elem (x : Fire) (port : Nat) : Nat := x.rt.elems.getD port 0

/-- Advance a port's element count. -/
def Fire.advance (x : Fire) (port n : Nat) : Fire :=
  { x with rt := { x.rt with elems := listUpd x.rt.elems port (· + n) } }

/-- A target in which a NaN among the values shows as a NaN (02 R76). -/
def nanIn (f : Fmt) (vs : List Num) : Bool := (fmtIeee f || decide (f = .e4m3)) && vs.any fun v => decide (v = .nan)

/-- Values converted to a plain format at a port (02 R74 to R76). -/
def Fire.convert (x : Fire) (s : Site) (r : Rounding) (port : Nat) (f : Fmt) (vs : List Num) : Fire × List Nat :=
  let cs := vs.zipIdx.map fun v => convNum f (portMode s r port (x.elem port + v.2)) v.1
  let sat := (cs.filter (·.2)).length
  ({ x.advance port vs.length with sat := x.sat + sat }, cs.map (·.1))

/-- Values converted to an MX format at a port: element codes and scale bytes (02 R77). -/
def Fire.convertMx (x : Fire) (s : Site) (r : Rounding) (port : Nat) (f : Fmt) (vs : List Num) :
    Fire × List Nat × List Byte :=
  let ms := vs.zipIdx.map fun v => (v.1, portMode s r port (x.elem port + v.2))
  let bs := (chunks 32 ms.length ms).map (mxBlock f)
  let sat := (bs.map (·.2.2)).foldl (· + ·) 0
  ({ x.advance port vs.length with sat := x.sat + sat }, bs.flatMap (·.2.1), bs.map fun b => BitVec.ofNat 8 b.1)

/-- 32-bit lanes of bytes, and back. -/
def toLanes (bs : List Byte) : List Word := (unpack .fp32 bs (bs.length / 4)).map (BitVec.ofNat 32)
def fromLanes (ws : List Word) : List Byte := ws.flatMap fun w => leBytes 4 w.toNat

/-- The FP32 value that an element widens to exactly (02 R70). -/
def widen (f : Fmt) (c : Nat) : Word := enc32 (decodeNum f c)

/-- A set that has loaded: it becomes active at once when the last pass on the active set has finished (02 R59). A set that
loads beside a loaded one takes its place (log entry 50). -/
def StatStore.load (t : StatStore) (x : StatSet) : StatStore :=
  if t.spent then { active := x, loading := none, spent := false } else { t with loading := some x }

/-- A pass on the active set has finished; after the last one a set that has loaded becomes active (02 R59). -/
def StatStore.passed (t : StatStore) (last : Bool) : StatStore :=
  if last then
    match t.loading with
    | some x => { active := x, loading := none, spent := false }
    | none => { t with spent := true }
  else t

/-- Query codes fill the whole store (02 R57, R83). -/
def StatStore.ofQueries (qs : List (List Byte)) : StatStore := { active := { queries := qs }, loading := none, spent := true }

/-- A fresh accumulator bank: every entry zero, or the values read from a stream, widened exactly to FP32 (02 R70). An integer
value also starts the 40-bit sum. -/
def accStart (comp : Bool) (fmt : Fmt) (rows cols : Nat) (codes : List Nat) : AccSt :=
  let ents := codes.zipIdx.map fun c =>
    let w := widen fmt c.1
    (c.2 / max cols 1 * 64 + c.2 % max cols 1, ({ s := w, i := if fmtInt fmt then intElem fmt c.1 else Config.startInt w } : AccEnt))
  { comp := comp, ents := (ents.take (rows * cols)).foldl (fun t e => Tab.put t e.1 e.2) [] }

/-- The results of the entries of a bank, row by row. -/
def accValues (acc : AccSt) (rows cols : Nat) : List Num :=
  (List.range (rows * cols)).map fun x =>
    let e := Tab.get {} acc.ents (x / cols * 64 + x % cols)
    if acc.int then .fin (decide (e.i < 0)) e.i.natAbs 0 else dec32 (accDrain acc.comp e)

/-- Candidates into the groups of the unit (02 R95, R96). -/
def Fire.topk (x : Fire) (g : TopkCfg) (cs : List Cand) : Fire :=
  { x with rt := { x.rt with cands := cs.foldl (topkAdd g) x.rt.cands } }

/-- Lanes written by the vector unit. -/
def Fire.putLanes (x : Fire) (f : FoldCfg) (dst : Buf) (ws : List Word) : Fire :=
  (x.put f .vector dst (fromLanes ws)).noteNan dst (ws.any isNan32)

/-- The requester that reads for a move, and the one that writes: the stream ports at either end, the vector unit between. -/
def moveReader : Buf → SlotUser
  | .out _ => .portRead
  | _ => .vector
def moveWriter : Buf → SlotUser
  | .inp _ => .portWrite
  | _ => .vector

/-- One step of the datapath. The array has 64 × 64 cells, so that a set has at most 64 × 64 elements, a pass at most 64 rows and
an output tile 64 × 64 elements (02 R48, R56, R61); the unit holds 64 query codes (02 R83). Choices of the model that the spec
leaves open: a conversion, also one of the vector unit and one into SRAM or a temporary, rounds as the output port that the step
names and advances that port's element count (02 R75, R81, R88; log entry 52); a Hamming column's candidates enter the group with
the column's number, a vector-unit candidate has the identifier base + lane and one configured group, and a record keeps its
group (02 R86, R95, R101; log entry 53); a database code that straddles the words of two firings is compared in two pieces, each
as a code of its own (02 R84; log entry 54). -/
def dpStep (s : Site) (cfg : FoldCfg) (x : Fire) (op : DpOp) : Fire :=
  let rnd := fun j => ((cfg.outputs[j]?).map (·.rounding)).getD .rne
  match op with
  | .move src dst => x.put cfg (moveWriter src) dst (x.get cfg (moveReader dst) src)
  | .slice src off len dst => x.put cfg (moveWriter src) dst (((x.get cfg (moveReader dst) src).drop off).take len)
  | .loadSet src scales fmt k n =>
    let st : StatSet :=
      { fmt := fmt, k := min k 64, n := min n 64, codes := unpack fmt (x.get cfg .array src) (min k 64 * min n 64)
        scales := match scales with | some b => x.get cfg .array b | none => [] }
    { x with rt := { x.rt with stat := x.rt.stat.load st } }
  | .initAcc src fmt rows cols comp =>
    let codes := match src with | some b => unpack fmt (x.get cfg .array b) (min rows 64 * min cols 64) | none => []
    { x with rt := { x.rt with acc := accStart comp fmt (min rows 64) (min cols 64) codes } }
  | .pass a aScales fa rows last =>
    let st := x.rt.stat.active
    let as := unpack fa (x.get cfg .array a) (min rows 64 * st.k)
    let sa := match aScales with | some b => x.get cfg .array b | none => []
    let r := macPass x.rt.acc st fa (min rows 64) as sa aScales.isSome
    { x with rt := { x.rt with acc := r.1, stat := x.rt.stat.passed last }, accSat := x.accSat || r.2 }
  | .swapBanks => { x with rt := { x.rt with acc := x.rt.drain, drain := x.rt.acc } }
  | .drain rows cols fmt mx port dst scaleDst =>
    let vs := accValues x.rt.drain (min rows 64) (min cols 64)
    if mx then
      let r := x.convertMx s (rnd port) port fmt vs
      let y := r.1.put cfg .array dst (pack fmt r.2.1)
      match scaleDst with
      | some d => (y.put cfg .array d r.2.2).noteNan d (r.2.2.contains 0xFF)
      | none => y
    else
      let r := x.convert s (rnd port) port fmt vs
      (r.1.put cfg .array dst (pack fmt r.2)).noteNan dst (nanIn fmt vs)
  | .loadQueries src bits count =>
    let n := min count 64
    { x with rt := { x.rt with
        stat := StatStore.ofQueries ((chunks (bits / 8) n (x.get cfg .array src)).take n) } }
  | .hamming input bits b =>
    let codes := chunks (bits / 8) (x.ins.getD input []).length (x.ins.getD input [])
    let j := x.pos.getD input 0 / (bits / 8)
    let void := fun i => (x.zeros.getD input []).contains (i * (bits / 8) / 128)
    x.topk cfg.topk ((codes.zipIdx).flatMap fun c => if void c.2 then [] else
      x.rt.stat.active.queries.zipIdx.map fun q =>
        (⟨BitVec.ofNat 32 (hammingDist c.1 q.1), BitVec.ofNat 48 (b + j + c.2), q.2⟩ : Cand))
  | .topkKeys keys b group =>
    x.topk cfg.topk ((toLanes (x.get cfg .topk keys)).zipIdx.map fun k => (⟨k.1, BitVec.ofNat 48 (b + k.2), group⟩ : Cand))
  | .topkRecords src => x.topk cfg.topk (recordCands (x.get cfg .topk src))
  | .topkEmit dst =>
    if (x.rt.fired + 1) % max cfg.topk.every 1 ≠ 0 then x
    else
      let bs := (List.range (topkCount cfg.topk)).flatMap fun g => topkGroup cfg.topk s.lt g x.rt.cands
      { x.put cfg .topk dst bs with rt := { x.rt with cands := [] } }
  | .vec op a b c dst =>
    let la := toLanes (x.get cfg .vector a)
    let lb := toLanes (x.get cfg .vector b)
    let lc := toLanes (x.get cfg .vector c)
    x.putLanes cfg dst (la.zipIdx.map fun v => vecOp op v.1 (lb.getD v.2 0) (lc.getD v.2 0))
  | .lane op a dst => x.putLanes cfg dst [laneOp op (toLanes (x.get cfg .vector a))]
  | .conv src fromFmt toFmt port dst =>
    let bs := x.get cfg .vector src
    let vs := (unpack fromFmt bs (bs.length * 8 / fmtBits fromFmt)).map (decodeNum fromFmt)
    let r := x.convert s (rnd port) port toFmt vs
    (r.1.put cfg .vector dst (pack toFmt r.2)).noteNan dst (nanIn toFmt vs)

/-- The whole datapath of a firing. -/
def dpRun (s : Site) (cfg : FoldCfg) (x : Fire) : Fire := cfg.path.foldl (dpStep s cfg) x

/-- Edge words of a byte string: exactly `n` words of 128 bytes, zero padded (03 R122, R124). -/
def toWords (n : Nat) (bs : List Byte) : List (List Byte) :=
  (List.range n).map fun i =>
    let w := (bs.drop (128 * i)).take 128
    w ++ List.replicate (128 - w.length) 0

/-! ## The arm checks of a tile's configuration (03 R172) -/

/-- Slice offsets o_0, o_1, … (03 R151). -/
def sliceStarts (fs : List FoldCfg) : List Nat :=
  fs.foldl (fun a f => a ++ [a.getLastD 0 + f.slice]) [0]

/-- Frets to spill or restore `n` bytes of one unit: 8 KiB a fret, a part of 8 KiB counted as a whole fret (03 R157; log entry
55). -/
def spillFrets (n : Nat) : Nat := ceilDiv n 8192

def shareSpill : Share → Nat
  | .resident _ => 0
  | .spill n _ => n

/-- Spill frets of a fold: those of its units in spill mode, one after the other, each counted in whole frets (03 R154, R157; log
entry 55). -/
def FoldCfg.spillLen (f : FoldCfg) : Nat :=
  spillFrets (shareSpill f.stationary) + spillFrets (shareSpill f.accumulator) + spillFrets (shareSpill f.topkShare)

/-- The switch interval at the start of a fold's slice (03 R153, R154). -/
def switchLen (fs : List FoldCfg) (i : Nat) : Nat :=
  if fs.length ≤ 1 then 0
  else
    let prev := if i = 0 then fs.length - 1 else i - 1
    1 + ((fs[prev]?).map FoldCfg.spillLen).getD 0 + ((fs[i]?).map FoldCfg.spillLen).getD 0

/-- Ranges that do not overlap one another. -/
def disjointRanges : List (Nat × Nat) → Bool
  | [] => true
  | r :: rs => rs.all (fun q => decide (r.1 + r.2 ≤ q.1) || decide (q.1 + q.2 ≤ r.1) || decide (r.2 = 0) || decide (q.2 = 0))
      && disjointRanges rs

/-- The input queues and spill areas of a fold, as offset and size in its partition (03 R128, R159). -/
def foldAreas (f : FoldCfg) : List (Nat × Nat) :=
  (f.inputs.filterMap fun i => match i.kind with
    | .edge e => some (e.qoff, e.depth * 128)
    | _ => none)
  ++ ([f.stationary, f.accumulator, f.topkShare].filterMap fun x => match x with
    | .spill n off => some (off, n)
    | .resident _ => none)

def shareResident : Share → Nat
  | .resident n => n
  | .spill _ _ => 0

/-- Resident shares plus the largest spilled region fit the unit (03 R156). -/
def fitsUnit (cap : Nat) (xs : List Share) : Bool :=
  decide ((xs.map shareResident).foldl (· + ·) 0 + (xs.map shareSpill).foldl max 0 ≤ cap)

/-- Firing offsets of a fold within its slice (03 R123). -/
def firingOffsets (f : FoldCfg) : List Nat := (List.range f.count).map fun i => f.first + i * f.interval

/-- Group frets of a steering unit, counted from the start of its fold's slice (03 R123, R145). -/
def groupOffsets (u : SteerCfg) : List Nat := (List.range u.count).map fun i => u.first + i * u.interval

/-- Two requesters own one slot of a wheel (02 R103). -/
def wheelClash : List WheelSlot → Bool
  | [] => false
  | w :: ws => ws.any (fun v => v.bank = w.bank && v.slot = w.slot && !decide (v.user = w.user)) || wheelClash ws

/-- The code of the first arm check that fails, in the order of R172; none when all pass. A fold with more than two steering units
(03 R139) fails the check that cites R139. -/
def armCheck (c : TileCfg) : Option Nat :=
  let fs := c.folds
  let starts := sliceStarts fs
  let idx := List.range fs.length
  let foldAt := fun i => fs[i]?
  if fs = [] ∨ 8 < fs.length ∨ c.period = 0 ∨ 65536 < c.period ∨ starts.getLastD 0 ≠ c.period then some 0x1
  else if !(fs.all fun f => f.sramBase % 16384 = 0 && f.sramSize % 16384 = 0 && decide (f.sramBase + f.sramSize ≤ 2 ^ 20))
      || !disjointRanges (fs.map fun f => (f.sramBase, f.sramSize)) then some 0x2
  else if !(fs.all fun f =>
      (f.inputs.all fun i => match i.kind with
        | .edge e => decide (2 ≤ e.depth) && decide (e.depth ≤ 4096) && decide (e.qoff % 128 = 0)
        | _ => true)
      && (foldAreas f).all (fun r => decide (r.1 + r.2 ≤ f.sramSize)) && disjointRanges (foldAreas f)) then some 0x3
  else if !(fitsUnit 32768 (fs.map (·.stationary)) && fitsUnit 65536 (fs.map (·.accumulator))
      && fitsUnit 262144 (fs.map (·.topkShare))) then some 0x4
  else if !(idx.all fun i => match foldAt i with
      | some f => (firingOffsets f).all fun o =>
          decide (switchLen fs i ≤ o) && decide (1 ≤ f.delay) && decide (f.delay ≤ 4096) && decide (o + f.delay < f.slice)
      | none => true) then some 0x5
  else if !(idx.all fun i => match foldAt i with
      | some f => decide (f.steers.length ≤ 2) && f.steers.all fun u =>
          decide (2 ≤ u.data.length) && decide (u.data.length ≤ 4)
          && (groupOffsets u).all fun d =>
            let e := (starts.getD i 0 + d + u.bound.toNat + 1) % c.period
            decide (starts.getD i 0 + switchLen fs i ≤ e) && decide (e < starts.getD i 0 + f.slice)
      | none => true) then some 0x6
  else if fs.any fun f => wheelClash f.wheel then some 0x7
  else if fs.any fun f => f.outputs.any (fun o => decide (1 < o.edges.length)) || decide (8 < f.inputs.length)
      || decide (4 < f.outputs.length) then some 0x8
  else none

end Sys2Proof.Machine
end

