-- ==== Sys2Proof/Machine/Hash.lean ====
section
/-! DEFINITION. SHAKE256 (FIPS 202), which 10 R544 and 14 name, and the CRC-32C of 16 R714. -/

namespace Sys2Proof.Machine

/-! ## Keccak-f[1600] -/

/-- The state: lane x + 5y. -/
abbrev Lanes := List (BitVec 64)

def lane (a : Lanes) (i : Nat) : BitVec 64 := a.getD i 0

/-- The parity of a column. -/
def column (a : Lanes) (x : Nat) : BitVec 64 := (List.range 5).foldl (fun p y => p ^^^ lane a (5 * y + x % 5)) 0

def theta (a : Lanes) : Lanes :=
  a.zipIdx.map fun l => l.1 ^^^ column a (l.2 + 4) ^^^ (column a (l.2 + 1)).rotateLeft 1

/-- Where pi puts the lane at (x, y): at (y, 2x + 3y). -/
def piLane (i : Nat) : Nat := i / 5 + 5 * ((2 * (i % 5) + 3 * (i / 5)) % 5)

/-- rho and pi in one walk: from (1, 0) pi visits every lane but (0, 0), and rho turns the lane of visit t by
(t + 1)(t + 2) / 2 (FIPS 202, algorithms 2 and 3). -/
def turnLanes (a : Lanes) : Nat → Nat → Nat → Lanes → Lanes
  | 0, _, _, out => out
  | n + 1, t, i, out =>
    turnLanes a n (t + 1) (piLane i) (out.set (piLane i) ((lane a i).rotateLeft ((t + 1) * (t + 2) / 2 % 64)))

/-- A row of five lanes under chi. -/
def chiRow (r : Lanes) : Lanes :=
  r.zipIdx.map fun l => l.1 ^^^ (lane r ((l.2 + 2) % 5) &&& ~~~ lane r ((l.2 + 1) % 5))

def chi (a : Lanes) : Lanes := (List.range 5).flatMap fun y => chiRow ((a.drop (5 * y)).take 5)

/-- One shift of the register that makes iota's bits: x^8 + x^6 + x^5 + x^4 + 1 (FIPS 202, algorithm 5). -/
def iotaShift (r : Byte) : Byte := if r.getLsbD 7 then (r <<< 1) ^^^ 0x71 else r <<< 1

/-- The constant of a round, whose bits at 2^j - 1 are the register's next seven, and the register after it. -/
def iotaConst (r : Byte) : BitVec 64 × Byte :=
  (List.range 7).foldl (fun c j => (if c.2.getLsbD 0 then c.1 ||| 1#64 <<< (2 ^ j - 1) else c.1, iotaShift c.2)) (0, r)

/-- Rounds, with iota's register. -/
def keccakRounds : Nat → Byte → Lanes → Lanes
  | 0, _, a => a
  | n + 1, r, a =>
    let c := iotaConst r
    let t := theta a
    let b := chi (turnLanes t 24 0 1 t)
    keccakRounds n c.2 (b.set 0 (lane b 0 ^^^ c.1))

def keccakF (a : Lanes) : Lanes := keccakRounds 24 1 a

/-! ## The sponge of SHAKE256: rate 136 bytes -/

def bytesLane (bs : List Byte) : BitVec 64 := BitVec.ofNat 64 (leVal (bs.take 8))

/-- Lanes of one block of 136 bytes. -/
def blockLanes : Nat → List Byte → Lanes
  | 0, _ => []
  | n + 1, bs => bytesLane bs :: blockLanes n (bs.drop 8)

def absorbBlock (a : Lanes) (bs : List Byte) : Lanes :=
  let b := blockLanes 17 bs
  keccakF ((List.range 25).map fun i => lane a i ^^^ lane b i)

/-- The message with SHAKE's suffix and the padding of FIPS 202. -/
def shakePad (bs : List Byte) : List Byte :=
  let n := 136 - bs.length % 136
  bs ++ (if n = 1 then [0x9F] else 0x1F :: List.replicate (n - 2) 0 ++ [0x80])

def absorbAll : Nat → Lanes → List Byte → Lanes
  | 0, a, _ => a
  | n + 1, a, bs => absorbAll n (absorbBlock a (bs.take 136)) (bs.drop 136)

/-- The first `n` bytes of SHAKE256, for n up to the rate of 136 bytes. -/
def shake256 (n : Nat) (bs : List Byte) : List Byte :=
  let p := shakePad bs
  let a := absorbAll (p.length / 136) (List.replicate 25 0) p
  ((a.take 17).flatMap fun l => leBytes 8 l.toNat).take n

/-- A SHAKE256 output of 32 bytes as a value, byte 0 lowest. -/
def shake32 (bs : List Byte) : BitVec 256 := BitVec.ofNat 256 (leVal (shake256 32 bs))

/-! ## CRC-32C -/

/-- One bit of the reflected Castagnoli CRC. -/
def crcBit (c : BitVec 32) : BitVec 32 := if c.getLsbD 0 then (c >>> 1) ^^^ 0x82F63B78 else c >>> 1

def crcByte (c : BitVec 32) (b : Byte) : BitVec 32 :=
  (List.range 8).foldl (fun c _ => crcBit c) (c ^^^ b.setWidth 32)

/-- CRC-32C with initial value and final XOR of all ones (16 R714). -/
def crc32c (bs : List Byte) : BitVec 32 := bs.foldl crcByte 0xFFFFFFFF ^^^ 0xFFFFFFFF

end Sys2Proof.Machine
end

