-- ==== Sys2Proof/Machine/StChannels.lean ====
section
/-! DEFINITION. The state of message channels: connections, queues and the inbound table (07). -/

namespace Sys2Proof.Machine

/-- MCH_CONN_CTL.state (07 R406). -/
inductive ConnState where
  | closed | opening | opened | draining | closedByPeer
deriving DecidableEq, Repr

def ConnState.code : ConnState → Nat
  | .closed => 0 | .opening => 1 | .opened => 2 | .draining => 3 | .closedByPeer => 4

/-- A message waiting at its sender (07 R378, R394). -/
structure Waiting where
  body : List Byte
  kind : Nat
  round : Nat
deriving DecidableEq, Repr

/-- One connection (07 R394, R406 to R410). -/
structure ConnSt where
  nak : Bool := false
  state : ConnState := .closed
  serial : BitVec 8 := 0
  lastStatus : BitVec 8 := 0
  detail : BitVec 4 := 0
  closeLost : Bool := false
  timeout : Bool := false
  srcKind : BitVec 3 := 0
  srcEp : BitVec 14 := 0
  index : BitVec 6 := 0
  chip : BitVec 10 := 0
  queue : BitVec 12 := 0
  grant : BitVec 16 := 0
  outst : BitVec 16 := 0
  quota : BitVec 16 := 0xFFFF
  sent : Word := 0
  stall : Word := 0
  naks : BitVec 16 := 0
  refused : BitVec 16 := 0
  seq : BitVec 32 := 0
  sentUnits : BitVec 32 := 0
  /-- units of each message sent, by sequence number, for R388 -/
  units : Tab Nat := []
  waiting : List Waiting := []
  marker : Option Nat := none
  cuts : Nat := 0
  openedAt : Nat := 0
deriving DecidableEq, Repr

/-- MCH_Q_CFG.state (07 R411). -/
inductive QueueState where
  | unbound | bound | fenced
deriving DecidableEq, Repr

def QueueState.code : QueueState → Nat
  | .unbound => 0 | .bound => 1 | .fenced => 2

/-- A placed, unread record (07 R370, R371). -/
structure RecSt where
  kind : Nat
  unit : Nat
  lap : Bool
  units : Nat
  body : List Byte
  conn : BitVec 12
  chip : BitVec 10
  seq : BitVec 32
  gap : Bool
  inb : Option (Nat × Nat × Nat)
  placed : Nat
  /-- sectors of its ring whose byte parity was wrong as it was written (05 R241) -/
  wrong : List Nat := []
deriving DecidableEq, Repr

/-- A contribution to a round of a chord queue: sender index, round, body, and the source chip, connection and serial that
sent it (07 R399 to R401). -/
structure Contrib where
  index : Nat
  round : Nat
  body : List Byte
  src : Nat × Nat × Nat
deriving DecidableEq, Repr

/-- One queue (07 R395, R411 to R416). -/
structure QueueSt where
  state : QueueState := .unbound
  sel : Bool := false
  kind : BitVec 3 := 0
  input : BitVec 3 := 0
  prio : BitVec 3 := 0
  bindErr : Bool := false
  ep : BitVec 14 := 0
  baseLo : Word := 0
  baseHi : Word := 0
  out : BitVec 12 := 0
  size : BitVec 13 := 0
  headLap : Bool := false
  head : BitVec 18 := 0
  tailLap : Bool := false
  tail : BitVec 18 := 0
  charge : BitVec 18 := 0
  bf16 : Bool := false
  rounds : BitVec 3 := 0
  senders : BitVec 6 := 0
  elems : BitVec 11 := 0
  placed : Word := 0
  dropped : BitVec 16 := 0
  stale : BitVec 16 := 0
  recs : List RecSt := []
  round : Nat := 0
  /-- contributions by sender index: rounds filled so far, and bodies not yet released -/
  filled : Tab Nat := []
  bodies : List Contrib := []
  lastPrio : BitVec 3 := 7
  armedAt : Option Nat := none
deriving DecidableEq, Repr

/-- An inbound record (07 R365). -/
structure InbSt where
  chip : BitVec 10
  conn : BitVec 12
  serial : BitVec 8
  queue : Nat
  nak : Bool
  grant : Nat
  index : Nat
  total : BitVec 32 := 0
  pend : Nat := 0
  since : Nat := 0
  gap : Bool := false
  cut : Bool := false
deriving DecidableEq, Repr

/-- An assembly slot of a message unit: the message that holds it (07 R374). -/
structure AsmSlot where
  chip : BitVec 10
  conn : BitVec 12
  serial : BitVec 8
  seq : BitVec 32
deriving DecidableEq, Repr

/-- The message channel block (07). -/
structure MchSt where
  connSel : Per (BitVec 12) := Per.all 0
  qSel : Per (BitVec 12) := Per.all 0
  conns : Tab ConnSt := []
  queues : Tab QueueSt := []
  inb : List InbSt := []
  /-- the assembly slots held at each spine's message unit, 64 at most (R374) -/
  slots : PerHalf (List AsmSlot) := ⟨[], []⟩
deriving DecidableEq, Repr

end Sys2Proof.Machine
end

