-- ==== Sys2Proof/Machine/StErrors.lean ====
section
/-! DEFINITION. The state of error detection, digests and retirement (10), and of healing and the twin (11). -/

namespace Sys2Proof.Machine

/-- REL_DIG_CTL.state (10 R548). -/
inductive DigState where
  | off | learn | good | recheck | bad | diverged
deriving DecidableEq, Repr

def DigState.code : DigState → Nat
  | .off => 0 | .learn => 1 | .good => 2 | .recheck => 3 | .bad => 4 | .diverged => 5

/-- A digest region (10 R543, R548, R556). -/
structure DigSt where
  baseLo : Word := 0
  baseHi : BitVec 8 := 0
  size : BitVec 18 := 0
  hostRef : Bool := false
  state : DigState := .off
  badCause : BitVec 2 := 0
  passes : BitVec 16 := 0
  count : BitVec 32 := 0
  ref : BitVec 256 := 0
  last : BitVec 256 := 0
  chunks : BitVec 64 := 0
  tags : List (BitVec 64) := []
  learned : Bool := false
  peer : Option (BitVec 256) := none
  due : Bool := false
deriving DecidableEq, Repr

/-- A transit unit's fault count (10 R522). -/
structure TransitSt where
  count : Nat := 0
  last : Nat := 0
deriving DecidableEq, Repr

/-- REL_RETIRE.state (10 R556). -/
inductive RetireState where
  | none | draining | retired
deriving DecidableEq, Repr

def RetireState.code : RetireState → Nat
  | .none => 0 | .draining => 1 | .retired => 2

/-- A retry that is due (10 R538, R541). -/
structure RetrySt where
  sched : BitVec 32
  task : BitVec 32
  status : Status
  attempt : Nat
  abortFret : Nat
  origin : BitVec 10
  launch : Nat
  armed : Bool
  reported : Bool
  lt : Nat
  verdict : Nat
deriving DecidableEq, Repr

/-- An arbitration in progress (10 R533 to R535). -/
structure ArbSt where
  clus : Nat
  pt : Nat
  bench : Option Nat
  repeated : Bool
deriving DecidableEq, Repr

/-- The REL block (10 R556). -/
structure RelSt where
  reportAll : Bool := false
  parThresh : BitVec 4 := 3
  retryDelay : BitVec 8 := 0x60
  retryLimit : BitVec 4 := 2
  transient : BitVec 16 := 0
  datapath : BitVec 16 := 0
  checker : BitVec 8 := 0
  bench : BitVec 8 := 0
  refDis : BitVec 8 := 0
  abandoned : BitVec 8 := 0
  residue : BitVec 16 := 0
  parity : BitVec 16 := 0
  retries : BitVec 16 := 0
  failed : BitVec 16 := 0
  sramCe : BitVec 64 := 0
  ueSram : BitVec 16 := 0
  ueHbm : BitVec 16 := 0
  trKind : BitVec 4 := 0
  trIndex : BitVec 12 := 0
  trCount : BitVec 8 := 0
  arbValid : Bool := false
  arbVerdict : BitVec 3 := 0
  arbPt : BitVec 12 := 0
  arbCheck : BitVec 4 := 0
  arbLt : BitVec 11 := 0
  arbTask : Word := 0
deriving DecidableEq, Repr

/-- Digests, retirement and pending work of the REL block (10). -/
structure RelAux where
  retFlag : Bool := false
  retState : RetireState := .none
  retCause : BitVec 4 := 0
  twinEn : Bool := false
  cfgErr : Bool := false
  twinConn : BitVec 12 := 0
  interval : BitVec 12 := 30
  digTransient : BitVec 16 := 0
  digSel : Per (BitVec 8) := Per.all 0
  digs : Tab DigSt := []
  transit : Tab TransitSt := []
  retries : List RetrySt := []
  arbs : List ArbSt := []
deriving DecidableEq, Repr

/-- The role of a physical tile (11 R558). -/
inductive Role where
  | active | bench | testing | fenced
deriving DecidableEq, Repr

/-- A physical tile's role and history (11 R558, R576; 15 R696). -/
structure RoleSt where
  role : Role := .active
  lastHang : Option Nat := none
  hangRemap : Bool := false
  age : Option Nat := none
  yieldBad : Bool := false
deriving DecidableEq, Repr

/-- HEAL_TWIN.state (11 R583, R588). -/
inductive TwinState where
  | none | attachSrc | attachSink | paired | solo
deriving DecidableEq, Repr

def TwinState.code : TwinState → Nat
  | .none => 0 | .attachSrc => 1 | .attachSink => 2 | .paired => 3 | .solo => 4

/-- HEAL_PART state of a partition (11 R588). -/
inductive PartMode where
  | run | reset | verify
deriving DecidableEq, Repr

def PartMode.code : PartMode → Nat
  | .run => 0 | .reset => 1 | .verify => 2

/-- The HEAL block's plain registers (11 R588). -/
structure HealSt where
  rotEn : Bool := true
  rotPeriod : BitVec 16 := 0x03E8
  busy : Bool := false
  result : BitVec 8 := 0
  fences : BitVec 16 := 0
  remaps : BitVec 16 := 0
  prr : BitVec 8 := 0
  hangs : BitVec 8 := 0
  absorbed : BitVec 16 := 0
  clusSel : Per (BitVec 7) := Per.all 0
  hangTask : Word := 0
  hangValid : Bool := false
  hangPart : BitVec 4 := 0
  hangTile : Bool := false
  hangLt : BitVec 11 := 0
  edgeValid : Bool := false
  edgeFold : BitVec 3 := 0
  edgePort : BitVec 3 := 0
  edgeLt : BitVec 11 := 0
  hangSess : Word := 0xFFFFFFFF
  hangFret : Word := 0
  lastPrr : BitVec 16 := 0
  lastRemap : BitVec 16 := 0
deriving DecidableEq, Repr

/-- Roles, partition recovery, the twin, and orders that wait (11). -/
structure HealAux where
  roles : Tab RoleSt := []
  parts : Tab PartMode := []
  twin : TwinState := .none
  twinFail : Bool := false
  twinConn : BitVec 12 := 0
  twinCopy : Word := 0
  peerValid : Bool := false
  peerRetire : BitVec 2 := 0
  peerLost : BitVec 2 := 0
  peerParts : BitVec 16 := 0
  peerTask : Word := 0
  lastCommitted : Word := 0
  /-- fences that wait for a free cluster (R558) and rotations asked by command -/
  fenceWait : List Nat := []
  rotateWait : List Nat := []
  hangWait : List Nat := []
  /-- clusters whose marking for rotation fell due while their partition was in RESET (R582) -/
  rotDue : List Nat := []
  attachRegions : List AttachRegion := []
  copied : Bool := false
  retireWait : Option (BitVec 4) := none
deriving DecidableEq, Repr

end Sys2Proof.Machine
end

