-- ==== Sys2Proof/Machine/StHost.lean ====
section
/-! DEFINITION. The state of the fabric, the spine registers, the PCIe and management ports, the TOP block and loaded schedules (08, 09). -/

namespace Sys2Proof.Machine

/-- FAB_STATUS.state (08 R467). -/
inductive FabState where
  | down | train | measure | discover | up
deriving DecidableEq, Repr

def FabState.code : FabState → Nat
  | .down => 0 | .train => 1 | .measure => 2 | .discover => 3 | .up => 4

/-- A fabric port (08 R466 to R469). -/
structure FabSt where
  enable : Bool := false
  pmd : BitVec 2 := 0
  wdogCut : Bool := false
  wdogExp : BitVec 4 := 8
  state : FabState := .down
  lanes : BitVec 8 := 0
  cause : BitVec 4 := 0
  /-- the fret in which the port last entered DOWN (12 R606) -/
  downAt : Nat := 0
  twinLost : Bool := false
  wdog : Bool := false
  cut : Bool := false
  down : Bool := false
  peerValid : Bool := false
  peerSerial : BitVec 64 := 0
  peerPort : BitVec 5 := 0
  peerGrade : BitVec 8 := 0
  peerLetter : BitVec 4 := 0
  peerDigit : BitVec 4 := 0
  txFlits : BitVec 64 := 0
  rxFlits : BitVec 64 := 0
  txWorms : BitVec 64 := 0
  rxWorms : BitVec 64 := 0
  stalls : List Word := [0, 0, 0, 0]
  vc0Max : BitVec 16 := 0
  replay : BitVec 16 := 0
  localRetry : BitVec 16 := 0
  cuts : BitVec 16 := 0
  routeErr : BitVec 16 := 0
  heartbeat : Bool := false
deriving DecidableEq, Repr

/-- The counters of one hub port (08 R471). -/
structure HubPort where
  flits : BitVec 64 := 0
  worms : BitVec 64 := 0
  stall : Word := 0
deriving DecidableEq, Repr

/-- One route table entry (08 R474). -/
structure RouteEnt where
  w0 : Word := 0
  w1 : Word := 0
  w2 : Word := 0
  w3 : Word := 0
deriving DecidableEq, Repr

/-- Where a worm at a router input goes: over a link into the next router, with the steps of its run still to make; into the release-time
queue of a Bridge end; out through a fabric port; to a unit of the router's own place; or nowhere, its flits discarded as they arrive (08
R430 to R432, R440, R462). -/
inductive WormDest where
  | link (r : Router) (inPort left : Nat)
  | bridge (row : Fin 8) (toEast : Bool) (left : Nat)
  | fabric (p : FabPort)
  | here
  | sink
deriving DecidableEq, Repr

/-- A worm at a router input (08 R421, R422): the class it came with, its header as it leaves, its output, the flits in the input's buffer,
the flits still to come, and the flits sent; from its first flit sent it holds its output's virtual channel. -/
structure RtWorm where
  inPort : Nat
  cls : Bool
  w : Worm
  out : Nat
  dest : WormDest
  here : Nat
  due : Nat
  sent : Nat := 0
deriving DecidableEq, Repr

/-- A router: the worms at its inputs in order of arrival, and by output the slots since the last that went to VC1 to VC3, at most 7 (08
R423). -/
structure RouterSt where
  worms : List RtWorm := []
  turns : Tab Nat := []
deriving DecidableEq, Repr

/-- The registers of one spine half (08 R470 to R473). -/
structure SpnHalf where
  selHub : Per (BitVec 6) := Per.all 0
  selPort : Per (BitVec 3) := Per.all 0
  cut : Bool := false
  exp : BitVec 4 := 8
  routeErr : BitVec 8 := 0
  events : BitVec 8 := 0
  brgDrop : Word := 0
  ncnUp : Bool := false
  retx : BitVec 16 := 0
deriving DecidableEq, Repr

/-- The spines: the two halves, hub port counters, route table, side selectors and live regions (05 R279, R297). -/
structure SpnSt where
  half : PerHalf SpnHalf := ⟨{}, {}⟩
  hubs : Tab HubPort := []
  routes : Tab RouteEnt := []
  sides : Tab Bool := []
  /-- routers: hubs 0 to 127, the West ring 128, the East ring 129 (R417) -/
  routers : Tab RouterSt := []
deriving DecidableEq, Repr

/-- A message being assembled in a channel window (09 R484). -/
structure Assembly where
  conn : Nat
  bytes : Mem
  first : Nat
  /-- the lowest offset written twice, or the body area's end -/
  twice : Nat
deriving DecidableEq, Repr

/-- A PCIe port (09 R515). -/
structure PcieSt where
  up : Bool := false
  width : BitVec 4 := 0
  speed : BitVec 4 := 0
  flit : Bool := false
  mps : BitVec 3 := 0
  winBase : BitVec 4 := 0
  bar2Log : Nat := 36
  nqLo : Word := 0
  nqHi : Word := 0
  nqEnable : Bool := false
  nqOverflow : Bool := false
  nqSize : BitVec 9 := 1
  nqHead : BitVec 16 := 0
  nqTail : BitVec 16 := 0
  nqLap : Bool := false
  nqCount : Nat := 0
  subRefused : BitVec 16 := 0
  consumeErr : Bool := false
  slots : List Assembly := []
  stalled : List (Nat × List Byte) := []
  vec512 : Bool := false
  perstN : Bool := false
deriving DecidableEq, Repr

/-- A management port (09 R516). -/
structure MgtPortSt where
  up : Bool := false
  rejected : BitVec 14 := 0
  accepted : BitVec 16 := 0
  ip : BitVec 128 := 0
  ipUsed : BitVec 128 := 0
  enUsed : Bool := false
  modeUsed : Bool := false
  udpUsed : BitVec 16 := 0xB7F0
deriving DecidableEq, Repr

/-- The management block (09 R511, R516). -/
structure MgtSt where
  udp : BitVec 16 := 0xB7F0
  mode1 : Bool := false
  mode0 : Bool := false
  en1 : Bool := false
  en0 : Bool := false
  m0 : MgtPortSt := {}
  m1 : MgtPortSt := {}
deriving DecidableEq, Repr

/-- A RDYBSY pin: whether an attention pulse is due (09 R506, R507). -/
structure PinSt where
  pulseDue : Bool := false
deriving DecidableEq, Repr

/-- The TOP block (09 R514). -/
structure TopSt where
  owner : Owner := .none
  denied : BitVec 16 := 0
  cause : PerPort (BitVec 14) := ⟨0, 0⟩
  mask : PerPort (BitVec 14) := ⟨0x3FFF, 0x3FFF⟩
  ready : Bool := false
  pin : PerPort PinSt := ⟨{}, {}⟩
deriving DecidableEq, Repr

/-- A loaded schedule (09 R498 to R500, R789). -/
structure SchedSt where
  image : Image
  started : Bool := false
  stopping : Bool := false
  reply : Nat := 0
  base : Int := 0
  shift : Int := 0
  committed : List (BitVec 32) := []
  order : Nat := 0
deriving DecidableEq, Repr

end Sys2Proof.Machine
end

