-- ==== Sys2Proof/Machine/StMemory.lean ====
section
/-! DEFINITION. The state of stream engines, HBM partitions, the list predictor and sessions (05, 06). -/

namespace Sys2Proof.Machine

/-- A drawer of a stream use (05 R253, R256): its index, the requests it needs, issued and completed, the frets of its
first issue and of its completion, bytes filled by firings (write), words taken by firings (read), poisoned words,
the pages predicted for it and the requests completed ahead (06 R307), page-table requests outstanding (06 R326), and the fret of its latest
issue (05 R258). -/
structure DrawerRt where
  k : Nat
  want : Nat := 0
  issued : Nat := 0
  sent : Nat := 0
  acked : Nat := 0
  first : Nat := 0
  full : Option Nat := none
  filled : Nat := 0
  taken : Nat := 0
  poisoned : List Nat := []
  /-- words that the engine filled with zeros (R270) -/
  zeros : List Nat := []
  pages : List Nat := []
  ahead : List Nat := []
  tables : Nat := 0
  /-- requests are being made: the drawer is not only filled ahead -/
  due : Bool := false
  kv : Option (Nat × Nat) := none
deriving DecidableEq, Repr

/-- CLUS_STRM_STATn.state (05 R286). -/
inductive CtxState where
  | idle | armed | active | quiesce
deriving DecidableEq, Repr

def CtxState.code : CtxState → Nat
  | .idle => 0 | .armed => 1 | .active => 2 | .quiesce => 3

/-- An arm held for a context (05 R286). -/
structure HeldArm where
  task : BitVec 32
  launch : Nat
  uses : List StreamUse
deriving DecidableEq, Repr

/-- A stream context (05 R286 to R289). -/
structure CtxSt where
  state : CtxState := .idle
  kind : BitVec 3 := 0
  underrun : Bool := false
  drawer : Bool := false
  slot : BitVec 4 := 0
  fold : BitVec 3 := 0
  k : BitVec 16 := 0
  maxFill : BitVec 16 := 0
  minSlack : BitVec 16 := 0xFFFF
  task : BitVec 32 := 0
  launch : Nat := 0
  uses : List StreamUse := []
  used : Nat := 0
  live : Bool := false
  next : Nat := 0
  drawers : List DrawerRt := []
  outstanding : Nat := 0
  lastRetire : Option Int := none
  held : List HeldArm := []
  /-- an underrun since it was armed (R289), and the fret of its latest acknowledged write (R258) -/
  starved : Bool := false
  lastAck : Nat := 0
  /-- the session served by the present drawers, with its latched commit pointer (06 R324) -/
  kvCur : Option (Nat × Nat) := none
  hints : List (Word × Nat) := []
  hinted : List (Nat × Word) := []
deriving DecidableEq, Repr

/-- Who waits for a memory request (05 R263). -/
inductive ReqFor where
  | drawer (ctx k j : Nat)
  | table (ctx k : Nat)
  | scrub | writeBack
  /-- of a stream whose task aborted: the data is discarded (R286) -/
  | discarded (ctx : Nat)
deriving DecidableEq, Repr

/-- The class of a request (05 R263). -/
inductive ReqClass where
  | scheduled | unscheduled | speculative
deriving DecidableEq, Repr

/-- A request of 256 bytes at a channel controller (05 R234, R261): the address of its unit, and for a write the place of its data in the
unit and the sectors whose data is poisoned already (02 R106). -/
structure HbmReq where
  id : Nat
  pc : Nat
  addr : Nat
  write : Bool
  data : List Byte
  off : Nat := 0
  wrong : List Nat := []
  cls : ReqClass
  deadline : Nat
  arrived : Nat
  who : ReqFor
  /-- poisoned sectors found when it started -/
  bad : List Nat := []
deriving DecidableEq, Repr

/-- A cluster: its remap table, stream engine status, and pending remaps (03 R120; 05 R287; 11 R588). -/
structure ClusSt where
  remap : List (BitVec 5) := (List.range 16).map (BitVec.ofNat 5)
  twinHi : Per Bool := Per.all false
  cfgErr : Bool := false
  errCheck : BitVec 4 := 0
  errCtx : BitVec 6 := 0
  outstanding : Nat := 0
  /-- requests that wait in the engine (R262) -/
  waiting : List HbmReq := []
  hosts : Tab (BitVec 4) := []
  rotMark : Option Nat := none
deriving DecidableEq, Repr

/-- PART_HBM_STATUS.state (05 R290). -/
inductive HbmState where
  | off | training | active | selfRefresh | fenced
deriving DecidableEq, Repr

def HbmState.code : HbmState → Nat
  | .off => 0 | .training => 1 | .active => 2 | .selfRefresh => 3 | .fenced => 4

/-- An entry of the list predictor (06 R304). -/
structure LpEnt where
  key : BitVec 8
  tag : BitVec 20
  conf : BitVec 3
  pages : List (BitVec 32)
deriving DecidableEq, Repr

/-- A partition's memory side (05 R290 to R296; 06 R353, R354). -/
structure PartSt where
  trained : BitVec 16 := 0
  hbm : HbmState := .off
  refresh2x : Bool := false
  trainErr : Bool := false
  tWorst : BitVec 8 := 0x0C
  scrubH : BitVec 8 := 0x18
  outMax : BitVec 12 := 0
  ce : BitVec 64 := 0
  ueAddr : BitVec 32 := 0
  ueValid : Bool := false
  ueSector : BitVec 3 := 0
  ueCause : BitVec 2 := 0
  risk : Word := 0
  lpEnable : Bool := true
  lpThreshold : BitVec 3 := 3
  lpHit : Word := 0
  lpMiss : Word := 0
  lp : Tab LpEnt := []
  queue : List HbmReq := []
  started : List HbmReq := []
  /-- unscheduled requests of the controllers that found no free entry (R261) -/
  backlog : List HbmReq := []
  /-- whether the last access of each pseudo-channel was a write (R266) -/
  lastDir : Tab Bool := []
  lastRefresh : Tab Nat := []
  lastScrub : Option Nat := none
deriving DecidableEq, Repr

/-- What a sector's check finds (05 R240, R242). -/
inductive SectorErr where
  | oneBit | twoBits | poison
deriving DecidableEq, Repr

/-- Device memory: listed bytes, sectors whose check fails, and the epoch of undefined contents (05 R239). -/
structure HbmSt where
  mem : Mem := []
  bad : Tab SectorErr := []
  epoch : Nat := 0
  nextReq : Nat := 0
deriving DecidableEq, Repr

/-- SPN_SESS_STATEn.state (06 R350). -/
inductive SessState where
  | free | opened | closing
deriving DecidableEq, Repr

def SessState.code : SessState → Nat
  | .free => 0 | .opened => 1 | .closing => 2

/-- A session context (06 R350 to R352). -/
structure SessSt where
  state : SessState := .free
  gen : BitVec 16 := 0
  overQuota : Bool := false
  truncated : Bool := false
  pool : BitVec 4 := 0
  use : BitVec 8 := 0
  commit : BitVec 18 := 0
  draft : BitVec 18 := 0
  quota : BitVec 12 := 0
  held : BitVec 12 := 0
  reclaim : Bool := false
deriving DecidableEq, Repr

/-- How a task writes a session (06 R328, R338). -/
inductive KvMode where
  | append | verify
deriving DecidableEq, Repr

/-- A session held by a task (06 R322, R328 to R342). -/
structure Hold where
  task : BitVec 32
  ctx : Nat
  latched : Nat
  written : Option (Nat × KvMode)
  failed : Bool
  heldBefore : Nat
  judge : Option (Nat × Nat × List (BitVec 32) × List (BitVec 32))
deriving DecidableEq, Repr

/-- A KV pool (06 R346 to R349). -/
structure PoolSt where
  enable : Bool := false
  cfgErr : Bool := false
  base : BitVec 24 := 0
  mask : BitVec 16 := 0
  planes : BitVec 8 := 0
  slot : BitVec 8 := 0
  count : BitVec 17 := 0
  used : List Nat := []
deriving DecidableEq, Repr

/-- The session engine (06 R344 to R352). -/
structure SessEng where
  tblBase : BitVec 13 := 0
  allocFail : BitVec 16 := 0
  drop : BitVec 16 := 0
  pools : Tab PoolSt := []
  ctxs : Tab SessSt := []
  holds : List Hold := []
  results : List (Nat × List Byte) := []
  /-- stale handles a judge popped: task, handle, result connection, t0 (R342) -/
  stale : List (BitVec 32 × BitVec 32 × Nat × BitVec 32) := []
  /-- commands placed in this fret that wait for its pops, commits and aborts, in placement order (R321) -/
  cmds : List (SessOp × SessCmd) := []
  /-- the replies made so far to a message of commands, and the connection its first command named (R319) -/
  batch : Option (Nat × List Byte) := none
deriving DecidableEq, Repr

end Sys2Proof.Machine
end

