-- ==== Sys2Proof/Machine/StService.lean ====
section
/-! DEFINITION. The state of resets and bring-up (12), of power and clocks (13), of the fuses and the configuration flash (12, 14). -/

namespace Sys2Proof.Machine

/-- Reset levels, as RSTC_CAUSE.level codes them (12 R589, R627). -/
inductive Level where
  | por | system | core
deriving DecidableEq, Repr

def Level.code : Level → Nat
  | .por => 0 | .system => 1 | .core => 2

/-- An orderly reset that waits for its abort frets (12 R593). -/
structure Orderly where
  level : Level
  src : BitVec 4
  /-- the fret in which it was accepted, and the one in which it is asserted -/
  asked : Nat
  fret : Nat
  promoted : Bool
deriving DecidableEq, Repr

/-- A block reset in progress (12 R598 to R604): 0 tile, 1 cluster, 2 partition. -/
structure BlkReset where
  level : BitVec 2
  target : Nat
  recovery : Bool
deriving DecidableEq, Repr

/-- The reset controller (12 R627). -/
structure RstcSt where
  also : BitVec 16 := 0
  porSrc : BitVec 4 := 1
  src : BitVec 4 := 1
  promoted : Bool := false
  level : BitVec 2 := 0
  sys : BitVec 16 := 0
  core : BitVec 16 := 0
  wdogEn : Bool := true
  wdogMs : BitVec 16 := 0x03E8
  wdogArmed : Bool := false
  blks : List BlkReset := []
  blkResult : BitVec 8 := 0
  gpIn : BitVec 8 := 0
  fault : Bool := false
  gpOe : BitVec 8 := 0
  gpOut : BitVec 8 := 0
  orderly : Option Orderly := none
  /-- a reset in progress, until its bring-up starts -/
  inReset : Option Level := none
  /-- the levels of PWRGD and SYSRST_N, VIN within range, and POR held until PWRGD falls (18 R763, R770) -/
  pwrgd : Bool := true
  sysrstLow : Bool := false
  vinOk : Bool := true
  lockout : Bool := false
  /-- ready was reported since the last POR or system reset (R590) -/
  everReady : Bool := false
  /-- a valid health record was found after the last POR (R617) -/
  healthOk : Bool := false
  /-- since the last POR: BU0 has restored the Chest, BU6 has applied the yield map, BU7 has marked the health record (16 R724; R617, R618) -/
  restored : Bool := false
  mapped : Bool := false
  applied : Bool := false
deriving DecidableEq, Repr

/-- BRUP_STAGES codes (12 R628). -/
inductive Stage where
  | notRun | running | passed | failed
deriving DecidableEq, Repr

def Stage.code : Stage → Nat
  | .notRun => 0 | .running => 1 | .passed => 2 | .failed => 3

/-- What the configuration sequencer waits for (12 R614). -/
inductive SeqWait where
  | none | poll | wait | stage
deriving DecidableEq, Repr

/-- The bring-up block (12 R628). -/
structure BrupSt where
  auto : Bool := false
  paused : Bool := false
  scriptErr : Bool := false
  orderErr : Bool := false
  failStage : BitVec 4 := 0
  failCode : BitVec 8 := 0
  current : BitVec 4 := 0
  stages : List Stage := List.replicate 10 Stage.notRun
  detail : Word := 0
  hdrValid : Bool := false
  hdrGen : BitVec 31 := 0
  healthValid : Bool := false
  test : BitVec 2 := 0
  running : Bool := false
  index : BitVec 20 := 0
  wait : SeqWait := .none
  /-- the next record, and that a replay has started since the last reset -/
  next : Nat := 0
  replayed : Bool := false
  pushBase : BitVec 8 := 0
  pushLen : BitVec 24 := 0
  push : Mem := []
  /-- BU1 runs on the pushed image (R620) -/
  pushed : Bool := false
  arg : BitVec 4 := 0
  /-- the bring-up after a core reset (R609) -/
  restart : Bool := false
  scriptOk : Bool := false
  /-- the stage that found a retirement cause: no later one starts (R607) -/
  blocked : Option Nat := none
deriving DecidableEq, Repr

/-- A peg as the flash holds it: kind, status, load class, hottest sensor and index; `retune` marks one for its next
boundary (13 R655, R658). -/
structure Peg where
  kind : Nat
  index : Nat
  final : Bool := false
  load : Nat := 0
  temp : BitVec 8 := 0
  retune : Bool := false
deriving DecidableEq, Repr

/-- A signed image as the flash holds it (14 R667). -/
abbrev FlashImage := Option SignedImage

/-- A health record in flash (15 R708, R709). -/
structure Health where
  complete : Bool := false
  crcOk : Bool := true
  serial : BitVec 64 := 0
  generation : BitVec 32 := 0
  applied : Bool := false
  fences : List Nat := []
  ages : Tab Nat := []
  retireFound : Bool := false
  windows : List Word := []
deriving DecidableEq, Repr

/-- A Chest copy slot in flash (16 R725, R726): `written` once a copy has begun in it, `valid` once one completed. -/
structure ChestSlot where
  valid : Bool := false
  written : Bool := false
  reason : BitVec 8 := 0
  closed : Bool := false
  serial : BitVec 64 := 0
  gen : Nat := 0
  epoch : BitVec 16 := 0
  next : BitVec 32 := 0
  old : BitVec 32 := 0
  oldPos : Nat := 0
  keepLen : Nat := 0
  keep : Mem := []
  circle : Mem := []
deriving DecidableEq, Repr

/-- The configuration flash (12 R622). -/
structure FlashSt where
  hdrOk : Bool := true
  auto : Bool := false
  generation : BitVec 32 := 1
  retFlag : Bool := false
  retCause : BitVec 4 := 0
  leafCounter : Nat := 0
  /-- the leaf counter and the command sequence numbers can be written (14 R676, R680) -/
  ctrOk : Bool := true
  seqOk : Bool := true
  yieldOk : Bool := true
  yieldMap : Tab (BitVec 18) := []
  pegs : List Peg := []
  health : List Health := []
  chest : List ChestSlot := List.replicate 4 {}
  coldEntry : Nat := 0
  coreEntry : Nat := 0
  script : List ScriptRec := []
  /-- what the configuration image holds: the mode, the snapshot lists, MGT_CTL and the addresses (12 R606, R621; 16 R718) -/
  configAuto : Bool := false
  trigLists : Tab (List (BitVec 25)) := []
  /-- MGT_CTL, then the four words of each port's address -/
  mgtWords : List Word := []
  firmware : FlashImage := none
  config : FlashImage := none
  scriptImg : FlashImage := none
  marks : Nat := 0
  opKeys : Tab (BitVec 3 × BitVec 544 × BitVec 64) := []
deriving DecidableEq, Repr

/-- Life-cycle states (14 R661). -/
inductive LifeCycle where
  | test | provision | field | ret | final
deriving DecidableEq, Repr

/-- The code of a life-cycle state: TEST, PROVISION, FIELD, RETURN, END (14 R689). -/
def LifeCycle.code : LifeCycle → Nat
  | .test => 0 | .provision => 1 | .field => 2 | .ret => 3 | .final => 4

/-- The fuses (14 R661). -/
structure FuseSt where
  grade : Grade := .g30
  letter : BitVec 4 := 0
  digit : BitVec 4 := 0
  serial : BitVec 64 := 1
  roots : List (BitVec 256) := [0, 0, 0, 0]
  revoked : BitVec 4 := 0
  svn : Nat := 0
  lc : LifeCycle := .field
  trips : Nat := 0
  eb1Off : Bool := false
  secret : Option (BitVec 512) := none
deriving DecidableEq, Repr

/-- The governor and the PWR registers (13 R659). -/
structure PwrSt where
  mgmt : BitVec 16 := 0
  host : BitVec 16 := 0
  clamped : Bool := false
  overBudget : Bool := false
  pclamp : Bool := false
  limit : BitVec 16 := 0
  peak : BitVec 16 := 0
  mean : BitVec 16 := 0
  parkIdle : BitVec 8 := 0x64
  target : BitVec 8 := 0x64
  window : BitVec 4 := 1
  margin : BitVec 4 := 2
  minStretch : BitVec 6 := 0
  reason : BitVec 4 := 0
  req : BitVec 6 := 0
  allow : BitVec 16 := 0
  waking : BitVec 16 := 0
  parked : BitVec 16 := 0
  stackTarget : BitVec 8 := 0x5F
  clampE : BitVec 8 := 0
  clampW : BitVec 8 := 0
  critical : BitVec 8 := 0
  events : BitVec 16 := 0
  pegFail : Bool := false
  guards : Tab Nat := []
  domains : BitVec 24 := 0
  watts : Tab (BitVec 16) := []
deriving DecidableEq, Repr

/-- The governor's own state, the clamps and the sensors (13 R643 to R652). -/
structure GovSt where
  /-- consecutive intervals with want below req -/
  lower : Nat := 0
  intervals : Nat := 0
  /-- the request a thermal clamp holds, and the intervals left once no half is clamped -/
  hold : Nat := 0
  holdLeft : Nat := 0
  thermW : Bool := false
  thermE : Bool := false
  powerClamp : Bool := false
  /-- intervals for which stretch 32 has been in effect -/
  stretch32 : Nat := 0
  stackIdx : BitVec 3 := 0
  stack : BitVec 8 := 0
  dieE : BitVec 8 := 0
  dieW : BitVec 8 := 0
  /-- THERMTRIP_N low -/
  thermtrip : Bool := false
  parking : BitVec 16 := 0
deriving DecidableEq, Repr

/-- The CLK block (13 R660). -/
structure ClkSt where
  lock : BitVec 8 := 0
  divE : Bool := false
  divW : Bool := false
  pending : Bool := false
  err : Bool := false
  mhz : BitVec 16 := 0
  changeAt : U64 := 0
  halfErr : Bool := false
  east : BitVec 16 := 0
  west : BitVec 16 := 0
  /-- the clock both halves run at outside CLK_HALF (R641) -/
  domainMhz : BitVec 16 := 0
deriving DecidableEq, Repr

end Sys2Proof.Machine
end

