-- ==== Sys2Proof/Machine/StSecurity.lean ====
section
/-! DEFINITION. The state of the security block (14), self-test (15), the Chest and telemetry (16) and the TAP (18). -/

namespace Sys2Proof.Machine

/-- SEC_ID_CTL.state (14 R689). -/
inductive IdState where
  | none | generating | ready | error
deriving DecidableEq, Repr

def IdState.code : IdState → Nat
  | .none => 0 | .generating => 1 | .ready => 2 | .error => 3

/-- SEC_SCAN.state (14 R689). -/
inductive ScanState where
  | closed | clearing | opened
deriving DecidableEq, Repr

def ScanState.code : ScanState → Nat
  | .closed => 0 | .clearing => 1 | .opened => 2

/-- What a signature is for (14 R672, R684): a management reply, a quote with its nonce and sequence for a datagram with
its header or for the host window, or another message. -/
inductive SignFor where
  | reply (port : MgmtPort) (msg : List Byte)
  | quote (dest : Option (MgmtPort × List Byte)) (nonce : List Byte) (seq : BitVec 32)
  | plain (msg : List Byte)
deriving DecidableEq, Repr

/-- The keys and seeds of the volatile store, the identity and its leaves (14 R670 to R677). -/
structure IdSt where
  state : IdState := .none
  pub : BitVec 544 := 0
  seeds : Option (BitVec 256 × BitVec 256 × BitVec 256) := none
  sessionKeys : Option (BitVec 256 × BitVec 256) := none
  secretRead : Bool := false
  leaf : BitVec 40 := 0
  held : Bool := false
  ctrErr : Bool := false
  /-- nothing is signed until the next BU1 (R676) -/
  ctrStop : Bool := false
  low : Bool := false
  exhausted : Bool := false
  blocks : BitVec 29 := 0
  signCnt : Word := 0
  queue : List SignFor := []
deriving DecidableEq, Repr

/-- The security block's registers (14 R689). -/
structure SecSt where
  lc : LifeCycle := .field
  trips : Nat := 0
  reqErr : Bool := false
  marks : BitVec 16 := 0
  slot : BitVec 2 := 0
  /-- the firmware image that BU1 verified (R669) -/
  firmware : Option SignedImage := none
  opkSel : Per (BitVec 4) := Per.all 0
  opkErr : Bool := false
  staged : List Word := List.replicate 17 0
  cache : Tab (BitVec 3 × BitVec 544 × BitVec 64) := []
  chain : BitVec 256 := 0
  events : BitVec 31 := 0
  overflow : Bool := false
  entries : List (List Byte) := []
  logSel : Per (BitVec 12) := Per.all 0
  quoteBusy : Bool := false
  quoteValid : Bool := false
  quoteResult : BitVec 8 := 0
  nonce : List Word := List.replicate 8 0
  quoteSeq : BitVec 32 := 0
  quote : List Byte := []
  scan : ScanState := .closed
  cleared : BitVec 3 := 0
  lcPending : Option (Nat × BitVec 4) := none
deriving DecidableEq, Repr

/-- The self-test block (15 R712). -/
structure BistSt where
  hbmEn : Bool := true
  period : BitVec 16 := 0xA
  state : BitVec 2 := 0
  refused : Bool := false
  phase : BitVec 3 := 0
  fenced : BitVec 16 := 0
  passed : BitVec 16 := 0
  failed : BitVec 16 := 0
  lastValid : Bool := false
  lastProg : BitVec 3 := 0
  lastUnit : BitVec 4 := 0
  lastPt : BitVec 12 := 0
  ageSel : Per (BitVec 12) := Per.all 0
  untested : BitVec 16 := 0
  faults : List Word := []
  fSel : Per (BitVec 12) := Per.all 0
  recKind : BitVec 8 := 0
  recGen : BitVec 24 := 0
  /-- a retirement cause was found in phase 2 (R710) -/
  causeFound : Bool := false
  /-- window tests under way, next window and sweeps done, by partition × 32 + pseudo-channel -/
  testing : List Nat := []
  next : Tab Nat := []
  sweeps : Tab Nat := []
deriving DecidableEq, Repr

/-- A Chest record in the intake buffer: trigger, fatal, source half, event data, the unit the event names, the snapshot list, and the first
entry of it that a reset or a power-off has made unreadable (16 R713 to R721). -/
structure ChestRec where
  trigger : Nat
  fatal : Bool
  east : Bool
  data : List Word
  unit : Nat
  offs : List Nat
  cut : Option Nat := none
deriving DecidableEq, Repr

/-- The Chest's areas (16 R722 to R729). -/
structure ChestSt where
  keep : Mem := []
  keepLen : Nat := 0
  closed : Bool := false
  circle : Mem := []
  /-- lengths of the whole records in the Circle, oldest first -/
  lens : List Nat := []
  next : BitVec 32 := 0
  old : BitVec 32 := 0
  oldPos : Nat := 0
  pos : Nat := 0
  epoch : BitVec 16 := 0
  intake : List ChestRec := []
  lost : BitVec 16 := 0
  clears : BitVec 8 := 0
  copying : Option (BitVec 8 × Nat) := none
  marked : Option (BitVec 8) := none
  reason : BitVec 8 := 0
  slot : BitVec 2 := 0
  count : BitVec 16 := 0
deriving DecidableEq, Repr

/-- One trigger's configuration (16 R717, R718). -/
structure TrigSt where
  enable : Bool := true
  count : BitVec 6 := 0
  snaps : Tab (BitVec 25) := []
deriving DecidableEq, Repr

/-- A cluster's LEAD values of an interval (16 R733). -/
structure LeadSt where
  slack : Nat := 0xFFFF
  fill : Nat := 0
  ctx : Nat := 0
  under : Nat := 0
deriving DecidableEq, Repr

/-- What a LINKS report counts of a port in an interval: replays, local retries, flits sent and received, VC0 stall slots, the largest VC0
release-queue occupancy (16 R732, R733). -/
structure LinkCnt where
  replays : BitVec 16 := 0
  retries : BitVec 16 := 0
  tx : BitVec 64 := 0
  rx : BitVec 64 := 0
  stall : Word := 0
  occ : Nat := 0
deriving DecidableEq, Repr

/-- What HEALTH, LEAD and LINKS reports count in an interval (16 R732, R733). -/
structure TelCount where
  committed : Word := 0
  aborted : Word := 0
  late : Word := 0
  moved : Word := 0
  slack : Nat := 0xFFFF
  underruns : Nat := 0
  risk : Nat := 0
  clus : Tab LeadSt := []
  links : Tab LinkCnt := []
deriving DecidableEq, Repr

/-- Telemetry and the Chest's registers (16 R727 to R735). -/
structure TelSt where
  win : Per (BitVec 3 × BitVec 4) := Per.all (0, 0)
  trigSel : Per (BitVec 6) := Per.all 0
  strhSel : Per (BitVec 6) := Per.all 0
  oldPos : Per Word := Per.all 0
  trigs : Tab TrigSt := []
  strCyc : BitVec 64 := 0
  /-- the same count since POR, for HEALTH reports (R733) -/
  strPor : BitVec 64 := 0
  /-- applied stretch changes, newest first: effective fret, previous, new -/
  strh : List (U64 × BitVec 6 × BitVec 6) := []
  enable : Bool := false
  exp : BitVec 5 := 0x14
  kinds : BitVec 5 := 0x1F
  conn : BitVec 12 := 0
  sent : BitVec 16 := 0
  skipped : BitVec 16 := 0
  number : BitVec 32 := 0
  unsent : Tab (List Byte) := []
  cnt : TelCount := {}
deriving DecidableEq, Repr

/-- The TAP (18 R774, R775): the opcode in force, which IEEE 1149.1 makes IDCODE in reset; the boundary register's update
stage; whether TRST_N holds it in reset; whether the boundary register drives the pins or the outputs float. -/
structure TapSt where
  ir : BitVec 8 := 2
  boundary : BitVec 362 := 0
  inReset : Bool := true
  drive : Bool := false
  highz : Bool := false
deriving DecidableEq, Repr

end Sys2Proof.Machine
end

