-- ==== Sys2Proof/Machine/State.lean ====
section
/-! DEFINITION. The machine's state, its faults and refusals, and the state right after reset. -/

namespace Sys2Proof.Machine

/-- Reasons a step may stop with a fault: none. The spec gives every command of the block an effect, if only to
discard it, so no command faults. -/
inductive Fault where
deriving DecidableEq, Repr

/-- Reasons a step may be refused. -/
inductive Refusal where
  /-- raised by Dispatch for a command that has no meaning yet; safe -/
  | notModelled (mnemonic : String)
deriving DecidableEq, Repr

/-- What the block sends or drives, recorded in `State.out` newest first. -/
inductive Out where
  | data (acc : Accessor) (ws : List Word)
  | bar2 (port : HostPort) (bytes : List Byte)
  | dma (port : HostPort) (addr : Nat) (bytes : List Byte) (poisoned : Bool)
  | msix (port : HostPort) (vector : Nat)
  | pulse (port : HostPort)
  | inject (lt : Nat) (w : Worm)
  | worm (p : FabPort) (w : Worm)
  | deliver (r : Router) (w : Worm)
  | cutWorm (r : Router) (port : Nat) (w : Worm) (tail : Bool)
  | beacon (p : FabPort) (b : Beacon)
  | downMarker (p : FabPort)
  | identity (p : FabPort) (id : PeerId)
  | heartbeat (p : FabPort)
  | exchange (p : FabPort) (n : Nat)
  | stretchReq (p : FabPort) (chip : BitVec 10) (req : BitVec 6)
  | announce (p : FabPort) (a : Announce)
  | abort (p : FabPort) (m : AbortMsg)
  /-- configuration and arming: over the NCN, or in the VC2 worm given (08 R458) -/
  | config (lt : Nat) (task : BitVec 32) (cfg : TileCfg) (via : Option Worm)
  | arm (lt : Nat) (m : ArmMsg) (via : Option Worm)
  | opening (chip : BitVec 10) (route : Bool × List (BitVec 5)) (r : OpenReq)
  | openAnswer (chip : BitVec 10) (conn : BitVec 12) (serial : BitVec 8) (status : Status) (detail : BitVec 4)
      (grant : BitVec 16) (round : Nat)
  | message (chip : BitVec 10) (route : Bool × List (BitVec 5)) (kind : Nat) (m : Msg)
  | creditReturn (chip : BitVec 10) (conn : BitVec 12) (serial : BitVec 8) (total : BitVec 32)
  | nak (chip : BitVec 10) (conn : BitVec 12) (serial : BitVec 8) (seq : BitVec 32) (status : Status)
      (detail : BitVec 4)
  | stale (chip : BitVec 10) (conn : BitVec 12) (serial : BitVec 8)
  | closeMarker (chip : BitVec 10) (route : Bool × List (BitVec 5)) (queue : BitVec 12) (conn : BitVec 12) (serial : BitVec 8)
  | closeAck (chip : BitVec 10) (conn : BitVec 12) (serial : BitVec 8)
  | datagram (port : MgmtPort) (bytes : List Byte)
  | neighbour (port : MgmtPort) (payload : List Byte)
  | replayReq (p : FabPort)
  | signed (leaf : BitVec 40) (bytes : List Byte)
  | tdo (bits : List Bool)
deriving DecidableEq, Repr
/-- The state of the EB2: every register, queue, buffer, counter, mode and pin the spec names, and the commands that
wait. -/
structure State where
  /-- fuses (14 R661) -/
  fuse : FuseSt := {}
  /-- configuration flash (12 R622) -/
  flash : FlashSt := {}
  /-- TOP block (09 R514) -/
  top : TopSt := {}
  /-- reset controller (12 R627) -/
  rstc : RstcSt := {}
  /-- bring-up (12 R628) -/
  brup : BrupSt := {}
  /-- PWR registers (13 R659) -/
  pwr : PwrSt := {}
  /-- the governor (13 R643) -/
  gov : GovSt := {}
  /-- CLK registers (13 R660) -/
  clk : ClkSt := {}
  /-- FRET block (04) -/
  fret : FretSt := {}
  /-- identity key and leaves (14 R670 to R677) -/
  ids : IdSt := {}
  /-- SEC registers (14 R689) -/
  sec : SecSt := {}
  /-- BIST (15 R712) -/
  bist : BistSt := {}
  /-- HEAL registers (11 R588) -/
  heal : HealSt := {}
  /-- roles, recovery and the twin (11) -/
  healx : HealAux := {}
  /-- REL registers (10 R556) -/
  rel : RelSt := {}
  /-- digests, retirement, retries (10) -/
  relx : RelAux := {}
  /-- the Chest (16) -/
  chest : ChestSt := {}
  /-- telemetry and Chest registers (16 R735) -/
  tel : TelSt := {}
  /-- message channels (07) -/
  mch : MchSt := {}
  /-- PCIe ports (09 R515) -/
  pcie : PerPort PcieSt := ⟨{}, {}⟩
  /-- management ports (09 R516) -/
  mgt : MgtSt := {}
  /-- spine registers, routes, sides (05, 08) -/
  spn : SpnSt := {}
  /-- the session engine (06) -/
  sess : SessEng := {}
  /-- device memory (05) -/
  hbm : HbmSt := {}
  /-- the TAP (18 R774) -/
  tap : TapSt := {}
  /-- fabric ports by number (08 R466) -/
  fabs : Tab FabSt := []
  /-- partitions by number (05 R290) -/
  parts : Tab PartSt := []
  /-- clusters by number (03 R120) -/
  cluss : Tab ClusSt := []
  /-- physical tiles by PT (02, 03) -/
  tiles : Tab TileSt := []
  /-- stream contexts by cluster × 64 + n (05 R286) -/
  ctxs : Tab CtxSt := []
  /-- tasks of started schedules by task number (04) -/
  tasks : Tab TaskRt := []
  /-- loaded schedules by number (09 R498) -/
  scheds : Tab SchedSt := []
  /-- release-time queues by release point (04 R197) -/
  held : Tab (List Held) := []
  /-- HI latches by accessor and offset (17 R754) -/
  latches : Tab Word := []
  /-- what the block has sent, newest first (the model's own record) -/
  out : List Out := []
  /-- frets elapsed since reset (the model's own) -/
  ticks : Nat := 0
  /-- uses of free values so far (the model's own) -/
  free : Nat := 0
  /-- commands that wait, first in first out -/
  pending : List Instr := []
deriving DecidableEq, Repr

/-- The state with `fuse` changed. -/
def State.modFuse (s : State) (f : FuseSt → FuseSt) : State :=
  { s with fuse := f s.fuse }

/-- The state with `flash` changed. -/
def State.modFlash (s : State) (f : FlashSt → FlashSt) : State :=
  { s with flash := f s.flash }

/-- The state with `top` changed. -/
def State.modTop (s : State) (f : TopSt → TopSt) : State :=
  { s with top := f s.top }

/-- The state with `rstc` changed. -/
def State.modRstc (s : State) (f : RstcSt → RstcSt) : State :=
  { s with rstc := f s.rstc }

/-- The state with `brup` changed. -/
def State.modBrup (s : State) (f : BrupSt → BrupSt) : State :=
  { s with brup := f s.brup }

/-- The state with `pwr` changed. -/
def State.modPwr (s : State) (f : PwrSt → PwrSt) : State :=
  { s with pwr := f s.pwr }

/-- The state with `gov` changed. -/
def State.modGov (s : State) (f : GovSt → GovSt) : State :=
  { s with gov := f s.gov }

/-- The state with `clk` changed. -/
def State.modClk (s : State) (f : ClkSt → ClkSt) : State :=
  { s with clk := f s.clk }

/-- The state with `fret` changed. -/
def State.modFret (s : State) (f : FretSt → FretSt) : State :=
  { s with fret := f s.fret }

/-- The state with `ids` changed. -/
def State.modIds (s : State) (f : IdSt → IdSt) : State :=
  { s with ids := f s.ids }

/-- The state with `sec` changed. -/
def State.modSec (s : State) (f : SecSt → SecSt) : State :=
  { s with sec := f s.sec }

/-- The state with `bist` changed. -/
def State.modBist (s : State) (f : BistSt → BistSt) : State :=
  { s with bist := f s.bist }

/-- The state with `heal` changed. -/
def State.modHeal (s : State) (f : HealSt → HealSt) : State :=
  { s with heal := f s.heal }

/-- The state with `healx` changed. -/
def State.modHealx (s : State) (f : HealAux → HealAux) : State :=
  { s with healx := f s.healx }

/-- The state with `rel` changed. -/
def State.modRel (s : State) (f : RelSt → RelSt) : State :=
  { s with rel := f s.rel }

/-- The state with `relx` changed. -/
def State.modRelx (s : State) (f : RelAux → RelAux) : State :=
  { s with relx := f s.relx }

/-- The state with `chest` changed. -/
def State.modChest (s : State) (f : ChestSt → ChestSt) : State :=
  { s with chest := f s.chest }

/-- The state with `tel` changed. -/
def State.modTel (s : State) (f : TelSt → TelSt) : State :=
  { s with tel := f s.tel }

/-- The state with `mch` changed. -/
def State.modMch (s : State) (f : MchSt → MchSt) : State :=
  { s with mch := f s.mch }

/-- The state with `pcie` changed. -/
def State.modPcie (s : State) (f : (PerPort PcieSt) → (PerPort PcieSt)) : State :=
  { s with pcie := f s.pcie }

/-- The state with `mgt` changed. -/
def State.modMgt (s : State) (f : MgtSt → MgtSt) : State :=
  { s with mgt := f s.mgt }

/-- The state with `spn` changed. -/
def State.modSpn (s : State) (f : SpnSt → SpnSt) : State :=
  { s with spn := f s.spn }

/-- The state with `sess` changed. -/
def State.modSess (s : State) (f : SessEng → SessEng) : State :=
  { s with sess := f s.sess }

/-- The state with `hbm` changed. -/
def State.modHbm (s : State) (f : HbmSt → HbmSt) : State :=
  { s with hbm := f s.hbm }

/-- The state with `tap` changed. -/
def State.modTap (s : State) (f : TapSt → TapSt) : State :=
  { s with tap := f s.tap }

/-- The state with `fabs` changed. -/
def State.modFabs (s : State) (f : (Tab FabSt) → (Tab FabSt)) : State :=
  { s with fabs := f s.fabs }

/-- The state with `parts` changed. -/
def State.modParts (s : State) (f : (Tab PartSt) → (Tab PartSt)) : State :=
  { s with parts := f s.parts }

/-- The state with `cluss` changed. -/
def State.modCluss (s : State) (f : (Tab ClusSt) → (Tab ClusSt)) : State :=
  { s with cluss := f s.cluss }

/-- The state with `tiles` changed. -/
def State.modTiles (s : State) (f : (Tab TileSt) → (Tab TileSt)) : State :=
  { s with tiles := f s.tiles }

/-- The state with `ctxs` changed. -/
def State.modCtxs (s : State) (f : (Tab CtxSt) → (Tab CtxSt)) : State :=
  { s with ctxs := f s.ctxs }

/-- The state with `tasks` changed. -/
def State.modTasks (s : State) (f : (Tab TaskRt) → (Tab TaskRt)) : State :=
  { s with tasks := f s.tasks }

/-- The state with `scheds` changed. -/
def State.modScheds (s : State) (f : (Tab SchedSt) → (Tab SchedSt)) : State :=
  { s with scheds := f s.scheds }

/-- The state with `held` changed. -/
def State.modHeld (s : State) (f : (Tab (List Held)) → (Tab (List Held))) : State :=
  { s with held := f s.held }

/-- The state with `latches` changed. -/
def State.modLatches (s : State) (f : (Tab Word) → (Tab Word)) : State :=
  { s with latches := f s.latches }

/-- The state with `out` changed. -/
def State.modOut (s : State) (f : (List Out) → (List Out)) : State :=
  { s with out := f s.out }

/-- The state with `ticks` changed. -/
def State.modTicks (s : State) (f : Nat → Nat) : State :=
  { s with ticks := f s.ticks }

/-- The state with `free` changed. -/
def State.modFree (s : State) (f : Nat → Nat) : State :=
  { s with free := f s.free }

/-- The state with `pending` changed. -/
def State.modPending (s : State) (f : (List Instr) → (List Instr)) : State :=
  { s with pending := f s.pending }

/-- The signed firmware and configuration images of the part modelled (14 R667): a DESIGN CHOICE, log entry 3. -/
def factoryImage (kind : BitVec 8) : SignedImage :=
  { kind := kind, svn := 0, advance := false, revoke := 0, keyHash := 1, oidOk := true, magicOk := true,
    digest := 0, digestOk := true, sigOk := true }

/-- The configuration flash of the part modelled: a DESIGN CHOICE, log entry 3. -/
def factoryFlash : FlashSt :=
  { firmware := some (factoryImage 1), config := some (factoryImage 2), opKeys := [(0, (1, 0, 0))] }

/-- The fuses of the part modelled, an EB2-30K-A0 in FIELD: a DESIGN CHOICE, log entry 3. -/
def factoryFuses : FuseSt := { roots := [1, 2, 3, 4], secret := some 1 }

/-- The machine right after POR is released for PWRGD (12 R589 to R605; 18 R770): BU0 runs, nothing else has started. -/
def State.reset : State :=
  { fuse := factoryFuses
    flash := factoryFlash
    brup := { stages := Stage.running :: List.replicate 9 Stage.notRun }
    pwr := { domains := 0xFF0000 } }

end Sys2Proof.Machine
end

