-- ==== Sys2Proof/Machine/Ops.lean ====
section
/-! DEFINITION. The named operations over the machine's parts: units by number, the fret, outputs, free values, tile numbers. -/

namespace Sys2Proof.Machine

/-! ## Units by number -/

def State.tile (s : State) (pt : Nat) : TileSt := Tab.get {} s.tiles pt
def State.updTile (s : State) (pt : Nat) (f : TileSt → TileSt) : State := s.modTiles fun t => Tab.upd {} t pt f
def State.clus (s : State) (c : Nat) : ClusSt := Tab.get {} s.cluss c
def State.updClus (s : State) (c : Nat) (f : ClusSt → ClusSt) : State := s.modCluss fun t => Tab.upd {} t c f
def State.part (s : State) (p : Nat) : PartSt := Tab.get {} s.parts p
def State.updPart (s : State) (p : Nat) (f : PartSt → PartSt) : State := s.modParts fun t => Tab.upd {} t p f
def State.fab (s : State) (p : Nat) : FabSt := Tab.get {} s.fabs p
def State.updFab (s : State) (p : Nat) (f : FabSt → FabSt) : State := s.modFabs fun t => Tab.upd {} t p f
def State.ctx (s : State) (n : Nat) : CtxSt := Tab.get {} s.ctxs n
def State.updCtx (s : State) (n : Nat) (f : CtxSt → CtxSt) : State := s.modCtxs fun t => Tab.upd {} t n f
def State.task (s : State) (n : BitVec 32) : TaskRt := Tab.get {} s.tasks n.toNat
def State.updTask (s : State) (n : BitVec 32) (f : TaskRt → TaskRt) : State :=
  s.modTasks fun t => Tab.upd {} t n.toNat f
def State.conn (s : State) (n : Nat) : ConnSt := Tab.get {} s.mch.conns n
def State.updConn (s : State) (n : Nat) (f : ConnSt → ConnSt) : State :=
  s.modMch fun m => { m with conns := Tab.upd {} m.conns n f }
def State.queue (s : State) (n : Nat) : QueueSt := Tab.get {} s.mch.queues n
def State.updQueue (s : State) (n : Nat) (f : QueueSt → QueueSt) : State :=
  s.modMch fun m => { m with queues := Tab.upd {} m.queues n f }
def State.setInb (s : State) (f : List InbSt → List InbSt) : State := s.modMch fun m => { m with inb := f m.inb }
def State.pcieOf (s : State) (p : HostPort) : PcieSt := s.pcie.get p
def State.updPcie (s : State) (p : HostPort) (f : PcieSt → PcieSt) : State := s.modPcie fun t => t.set p (f (t.get p))
def State.session (s : State) (n : Nat) : SessSt := Tab.get {} s.sess.ctxs n
def State.updSession (s : State) (n : Nat) (f : SessSt → SessSt) : State :=
  s.modSess fun e => { e with ctxs := Tab.upd {} e.ctxs n f }
def State.pool (s : State) (n : Nat) : PoolSt := Tab.get {} s.sess.pools n
def State.updPool (s : State) (n : Nat) (f : PoolSt → PoolSt) : State :=
  s.modSess fun e => { e with pools := Tab.upd {} e.pools n f }
def State.dig (s : State) (n : Nat) : DigSt := Tab.get {} s.relx.digs n
def State.updDig (s : State) (n : Nat) (f : DigSt → DigSt) : State :=
  s.modRelx fun r => { r with digs := Tab.upd {} r.digs n f }
/-- A tile's role record; indices 16 and 17 are bench until BU6 says otherwise (01 R25). -/
def roleDefault (pt : Nat) : RoleSt := if pt % 18 < 16 then {} else { role := .bench }
def State.role (s : State) (pt : Nat) : RoleSt := Tab.get (roleDefault pt) s.healx.roles pt
def State.updRole (s : State) (pt : Nat) (f : RoleSt → RoleSt) : State :=
  s.modHealx fun h => { h with roles := Tab.upd (roleDefault pt) h.roles pt f }
def State.partMode (s : State) (p : Nat) : PartMode := Tab.get .run s.healx.parts p
def State.setPartMode (s : State) (p : Nat) (m : PartMode) : State :=
  s.modHealx fun h => { h with parts := Tab.put h.parts p m }
def State.spnHalf (s : State) (h : Half) : SpnHalf := s.spn.half.get h
def State.updSpn (s : State) (h : Half) (f : SpnHalf → SpnHalf) : State :=
  s.modSpn fun n => { n with half := n.half.set h (f (n.half.get h)) }
def State.flightReg (s : State) (p : Nat) : FlightReg := Tab.get {} s.fret.flights p
def State.updFlight (s : State) (p : Nat) (f : FlightReg → FlightReg) : State :=
  s.modFret fun r => { r with flights := Tab.upd {} r.flights p f }
def State.mgmtPort (s : State) : MgmtPort → MgtPortSt
  | .m0 => s.mgt.m0 | .m1 => s.mgt.m1
def State.updMgmtPort (s : State) (p : MgmtPort) (f : MgtPortSt → MgtPortSt) : State :=
  s.modMgt fun m => match p with
    | .m0 => { m with m0 := f m.m0 }
    | .m1 => { m with m1 := f m.m1 }

/-! ## Frets, outputs and free values -/

/-- The current fret: the West counter (04 R179). -/
def State.now (s : State) : Nat := s.fret.west.toNat

/-- Record something sent. -/
def State.emit (s : State) (o : Out) : State := s.modOut (o :: ·)

/-- Use one free value: the value and the state with the counter advanced. -/
def State.freeVal (s : State) : Word × State := (Config.freeWord s.free, s.modFree (· + 1))

/-- A fold of a state change over a list. -/
def State.each {α : Type} (s : State) (xs : List α) (f : State → α → State) : State := xs.foldl f s

/-- Conditional change of state. -/
def State.when (s : State) (c : Bool) (f : State → State) : State := if c then f s else s

/-! ## Numbers of tiles, clusters and partitions (01 R19 to R24) -/

def ltClus (lt : Nat) : Nat := lt / 16
def ltSlot (lt : Nat) : Nat := lt % 16
def ptClus (pt : Nat) : Nat := pt / 18
def ptIdx (pt : Nat) : Nat := pt % 18
def clusPart (c : Nat) : Nat := c / 8
def ltPart (lt : Nat) : Nat := clusPart (ltClus lt)
def ptPart (pt : Nat) : Nat := clusPart (ptClus pt)
def clusHalf (c : Nat) : Half := if c < 64 then .west else .east
def partHalf (p : Nat) : Half := if p < 8 then .west else .east
def partClusters (p : Nat) : List Nat := (List.range 8).map (8 * p + ·)
def clusTiles (c : Nat) : List Nat := (List.range 18).map (18 * c + ·)
def partTiles (p : Nat) : List Nat := (List.range 144).map (144 * p + ·)
def clusCtxs (c : Nat) : List Nat := (List.range 64).map (64 * c + ·)

/-- The physical index that serves a slot (03 R120). -/
def State.remapIdx (s : State) (c slot : Nat) : Nat := ((s.clus c).remap.getD slot 0).toNat

/-- The physical tile that serves a logical tile (03 R117). -/
def State.ptOf (s : State) (lt : Nat) : Nat := 18 * ltClus lt + s.remapIdx (ltClus lt) (ltSlot lt)

/-- The lowest slot that a physical index serves, if any: of a host tile that serves two slots (11 R569), TILE_ID.lt names the lower
(02 R109; log entry 58). -/
def State.slotOf (s : State) (pt : Nat) : Option Nat :=
  (List.range 16).find? fun k => s.remapIdx (ptClus pt) k = ptIdx pt

/-- The logical tile that a physical tile serves, if any. -/
def State.ltOf (s : State) (pt : Nat) : Option Nat := (s.slotOf pt).map (16 * ptClus pt + ·)

/-- Bit `i` of a mask. -/
def bit {w : Nat} (x : BitVec w) (i : Nat) : Bool := x.getLsbD i

/-- A mask with bit `i` set or cleared. -/
def putBit {w : Nat} (x : BitVec w) (i : Nat) (b : Bool) : BitVec w :=
  if b then x ||| BitVec.ofNat w (2 ^ i) else x &&& ~~~ BitVec.ofNat w (2 ^ i)

def State.parked (s : State) (p : Nat) : Bool := bit s.pwr.parked p
def State.waking (s : State) (p : Nat) : Bool := bit s.pwr.waking p

/-- A block reset of a partition, or of a cluster or tile in it, is in progress (12 R598 to R602). -/
def State.partInReset (s : State) (p : Nat) : Bool :=
  s.partMode p = .reset || s.rstc.blks.any fun b => b.level = 2 && b.target = p

def State.clusInReset (s : State) (c : Nat) : Bool :=
  s.partInReset (clusPart c) || s.rstc.blks.any fun b => b.level = 1 && b.target = c

def State.tileInReset (s : State) (pt : Nat) : Bool :=
  s.clusInReset (ptClus pt) || (s.tile pt).inReset || s.rstc.blks.any fun b => b.level = 0 && b.target = pt

/-- Partitions that are not parked (13 R632). -/
def State.unparked (s : State) : Nat := ((List.range 16).filter fun p => !s.parked p).length

/-- The idle floor in whole watts, 170 W + 8.125 W × n (13 R632). -/
def State.floorW (s : State) : Nat := (1360 + 65 * s.unparked) / 8

/-- The least of the three budget terms (13 R646). -/
def State.budgetTerm (s : State) : Nat :=
  let m := s.pwr.mgmt.toNat
  let h := min s.pwr.host.toNat s.pwr.limit.toNat
  if m = 0 then h else min h m

/-- The effective budget (13 R646). -/
def State.budget (s : State) : Nat := max s.budgetTerm s.floorW

/-- A stage of bring-up has passed. -/
def State.passed (s : State) (n : Nat) : Bool := s.brup.stages.getD n .notRun = .passed

/-- Tasks that are armed or running (13 R631, 12 R598). -/
def TaskRt.busy (t : TaskRt) : Bool :=
  match t.phase with
  | .armed | .running | .ended => true
  | _ => false

def State.anyTask (s : State) : Bool := s.tasks.any fun t => t.2.busy

/-- An opcode loaded into the TAP as the captured 0b0000_0001 leaves at TDO, with whether the boundary register drives the pins and
whether the outputs float (18 R774). -/
def State.loadIr (s : State) (op : BitVec 8) (drive highz : Bool) : State :=
  (s.emit (.tdo ((List.range 8).map (bit (0x01 : Byte))))).modTap fun t =>
    { t with ir := op, drive := drive, highz := highz, inReset := false }

/-- The latches of a partition's register pair read 0 after a reset of its block (17 R754). -/
def State.dropLatches (s : State) (p : Nat) : State :=
  s.modLatches fun t => t.filter fun e => decide (e.1 % 2 ^ 26 ≠ 0x400214 + p * 0x10000)

/-- A region that a resident schedule declares is live (05 R279). -/
def State.liveRegion (s : State) (n : Nat) : Bool := s.scheds.any fun e => e.2.image.regions.any fun r => decide (r.n = n)

/-! ## Device memory addresses (01 R36 to R39) -/

def partOf (addr : Nat) : Nat := addr / 2 ^ 36
def partOff (addr : Nat) : Nat := addr % 2 ^ 36
/-- An address that HBM backs (01 R38, R39). -/
def populated (addr : Nat) : Bool := decide (addr < 2 ^ 40) && decide (partOff addr < 0x900000000)
/-- A range that HBM backs. -/
def populatedRange (addr len : Nat) : Bool :=
  len = 0 || (populated addr && decide (partOff addr + len ≤ 0x900000000))

end Sys2Proof.Machine
end

