-- ==== Sys2Proof/Machine/RegRead.lean ====
section
/-! DEFINITION. What a 32-bit BAR0 read returns: every register's fields at their offsets (17, and the chapters' field tables). -/

namespace Sys2Proof.Machine

/-- A register word from (value, lowest bit) pairs. -/
def pk (fs : List (Nat × Nat)) : Word := BitVec.ofNat 32 (fs.foldl (fun a f => a + f.1 * 2 ^ f.2) 0)

/-- The low and the high word of a 64-bit value. -/
def lo32 (x : Nat) : Word := BitVec.ofNat 32 x
def hi32 (x : Nat) : Word := BitVec.ofNat 32 (x / 2 ^ 32)

/-- Word `w` of a value held as little-endian bytes. -/
def wordAt (x w : Nat) : Word := BitVec.ofNat 32 (x / 2 ^ (32 * w))

/-- The selectors and latches a read goes through (17 R748, R754; 16 R719). -/
structure Sel where
  port : Option HostPort
  conn : Nat
  q : Nat
  hubW : Nat
  hubE : Nat
  clus : Nat
  dig : Nat
  age : Nat
  fent : Nat
  win : Nat × Nat
  trig : Nat
  strh : Nat
  opk : Nat
  log : Nat
  hi : Nat → Bool
  latch : Option (Nat → Word)

/-- The key of an accessor's latch of a HI register. -/
def latchKey (a : Accessor) (off : Nat) : Nat := a.idx * 2 ^ 26 + off

/-- An accessor's selectors and latches. -/
def State.selOf (s : State) (a : Accessor) : Sel :=
  { port := match a with | .portA => some .a | .portB => some .b | .mc => none
    conn := (s.mch.connSel.get a).toNat
    q := (s.mch.qSel.get a).toNat
    hubW := ((s.spnHalf .west).selHub.get a).toNat * 8 + ((s.spnHalf .west).selPort.get a).toNat
    hubE := ((s.spnHalf .east).selHub.get a).toNat * 8 + ((s.spnHalf .east).selPort.get a).toNat
    clus := (s.heal.clusSel.get a).toNat
    dig := (s.relx.digSel.get a).toNat
    age := (s.bist.ageSel.get a).toNat
    fent := (s.bist.fSel.get a).toNat
    win := ((s.tel.win.get a).1.toNat, (s.tel.win.get a).2.toNat)
    trig := (s.tel.trigSel.get a).toNat
    strh := (s.tel.strhSel.get a).toNat
    opk := (s.sec.opkSel.get a).toNat
    log := (s.sec.logSel.get a).toNat
    hi := fun c => (s.clus c).twinHi.get a
    latch := some fun off => Tab.get 0 s.latches (latchKey a off) }

/-- The Chest's private selectors, set to the unit an event names (16 R719); a HI register reads its present value
(log entry 20). -/
def chestSel (unit : Nat) : Sel :=
  { port := none, conn := unit, q := unit, hubW := unit, hubE := unit, clus := unit, dig := unit, age := unit,
    fent := 0, win := (0, 0), trig := 0, strh := 0, opk := 0, log := 0, hi := fun _ => false, latch := none }

/-- A HI register: the accessor's latch, or the present value for the Chest. -/
def Sel.hiReg (x : Sel) (off : Nat) (v : Word) : Word :=
  match x.latch with
  | some f => f off
  | none => v

/-! ## The blocks -/

def topRead (x : Sel) (s : State) (off : Nat) : Word :=
  let f := s.fuse
  let ok := s.passed 0
  match off with
  | 0x000 => pk ((0xEB02, 16) :: if ok then [(f.grade.code, 8), (f.letter.toNat, 4), (f.digit.toNat, 0)] else [])
  | 0x004 => if ok then lo32 f.serial.toNat else 0
  | 0x008 => x.hiReg 0x008 (if ok then hi32 f.serial.toNat else 0)
  | 0x010 =>
    let o := match s.top.owner with | .none => 0 | .a => 1 | .b => 2
    let you := match x.port with | some p => decide (s.top.owner = p.owner) | none => false
    pk [(o, 24), (you.toNat, 16), (s.top.denied.toNat, 0)]
  | 0x020 => match x.port with | some p => (s.top.cause.get p).setWidth 32 | none => (Config.mcCopy s.top.cause.a s.top.cause.b).setWidth 32
  | 0x024 => match x.port with | some p => (s.top.mask.get p).setWidth 32 | none => (Config.mcCopy s.top.mask.a s.top.mask.b).setWidth 32
  | _ => 0

def rstcRead (s : State) (off : Nat) : Word :=
  let r := s.rstc
  match off with
  | 0x000 => pk [(r.also.toNat, 16), (r.porSrc.toNat, 12), (r.src.toNat, 8), (r.promoted.toNat, 4), (r.level.toNat, 0)]
  | 0x004 => pk [(r.sys.toNat, 16), (r.core.toNat, 0)]
  | 0x00C => pk [(r.wdogEn.toNat, 31), (r.wdogMs.toNat, 0)]
  | 0x014 => pk [((!r.blks.isEmpty).toNat, 31), (r.blkResult.toNat, 0)]
  | 0x020 => pk [(r.gpIn.toNat, 24), (r.fault.toNat, 16), (r.gpOe.toNat, 8), (r.gpOut.toNat, 0)]
  | _ => 0

/-- The sequencer is paused: between records (12 R612). -/
def BrupSt.isPaused (r : BrupSt) : Bool := r.paused && decide (r.wait = .none)

def brupRead (s : State) (off : Nat) : Word :=
  let r := s.brup
  match off with
  | 0x004 => pk [((r.auto && !r.isPaused).toNat, 31), (r.isPaused.toNat, 30), (r.scriptErr.toNat, 29), (r.orderErr.toNat, 28),
      (r.failStage.toNat, 16), (r.failCode.toNat, 8), (r.current.toNat, 0)]
  | 0x008 => pk (r.stages.zipIdx.map fun p => (p.1.code, 2 * p.2))
  | 0x00C => r.detail
  | 0x010 => pk [(r.hdrValid.toNat, 31), (r.hdrGen.toNat, 0)]
  | 0x014 => pk [(r.healthValid.toNat, 31), (r.test.toNat, 0)]
  | 0x018 => pk [(r.running.toNat, 31), (r.index.toNat, 0)]
  | 0x020 => r.pushBase.setWidth 32
  | 0x024 => r.pushLen.setWidth 32
  | _ =>
    if 0x8000 ≤ off then
      BitVec.ofNat 32 (leVal (Mem.read (fun _ => 0) r.push (r.pushBase.toNat * 0x8000 + (off - 0x8000)) 4))
    else 0

def clkRead (x : Sel) (s : State) (off : Nat) : Word :=
  let r := s.clk
  match off with
  | 0x000 => pk [(r.lock.toNat, 24), (r.divE.toNat, 1), (r.divW.toNat, 0)]
  | 0x004 => pk [(r.pending.toNat, 30), (r.err.toNat, 29), (r.mhz.toNat, 0)]
  | 0x008 => lo32 r.changeAt.toNat
  | 0x00C => x.hiReg 0x3000C (hi32 r.changeAt.toNat)
  | 0x010 => pk [(r.halfErr.toNat, 28)]
  | 0x014 => pk [(r.east.toNat, 16), (r.west.toNat, 0)]
  | _ => 0

/-- PWR_STATUS.state (13 R631). -/
def State.powerState (s : State) : Nat :=
  if s.anyTask then 0 else if s.pwr.parked = 0xFFFF ∧ s.pwr.waking = 0 then 2 else 1

def pwrRead (s : State) (off : Nat) : Word :=
  let r := s.pwr
  match off with
  | 0x000 => pk [(r.mgmt.toNat, 16), (r.host.toNat, 0)]
  | 0x004 => pk [(s.powerState, 30), (r.clamped.toNat, 29), (r.overBudget.toNat, 28), (r.pclamp.toNat, 27),
      ((decide (1000 ≤ s.gov.intervals)).toNat, 26), (s.budget, 0)]
  | 0x008 => pk [(s.floorW, 16), (r.limit.toNat, 0)]
  | 0x00C => pk [(r.peak.toNat, 16), (r.mean.toNat, 0)]
  | 0x010 => pk [(r.parkIdle.toNat, 24), (r.target.toNat, 16), (r.window.toNat, 12), (r.margin.toNat, 8),
      (r.minStretch.toNat, 0)]
  | 0x014 => pk [(r.reason.toNat, 8), (r.req.toNat, 0)]
  | 0x024 => r.allow.setWidth 32
  | 0x028 => pk [(r.waking.toNat, 16), (r.parked.toNat, 0)]
  | 0x200 => pk [(s.gov.stackIdx.toNat, 24), (s.gov.stack.toNat, 16), (s.gov.dieE.toNat, 8), (s.gov.dieW.toNat, 0)]
  | 0x204 => pk [(r.stackTarget.toNat, 24), (r.clampE.toNat, 8), (r.clampW.toNat, 0)]
  | 0x208 => pk [(r.critical.toNat, 24), ((List.range 18).foldl (fun m n => max m (Tab.get 6 r.guards n)) 0, 16), (r.events.toNat, 0)]
  | 0x300 => pk [(r.pegFail.toNat, 29), ((s.flash.pegs.filter (·.final)).length, 12),
      ((s.flash.pegs.filter (!·.final)).length, 0)]
  | _ =>
    if 0x100 ≤ off ∧ off < 0x160 then
      let n := (off - 0x100) / 4
      pk [((bit r.domains n).toNat, 31), ((Tab.get 0 r.watts n).toNat, 0)]
    else 0

def fretRead (x : Sel) (s : State) (off : Nat) : Word :=
  let r := s.fret
  match off with
  | 0x000 => lo32 r.west.toNat
  | 0x004 => x.hiReg 0x50004 (hi32 r.west.toNat)
  | 0x008 => pk [(s.gov.thermE.toNat, 27), (s.gov.thermW.toNat, 26), (r.seamSplit.toNat, 20), (r.stretchLate.toNat, 19),
      (r.abortLate.toNat, 18), (r.allowShort.toNat, 17), (r.alignLost.toNat, 16), (r.beaconLost.toNat, 15),
      (r.state.code, 0)]
  | 0x00C => pk [(r.root.toNat, 31), (r.parent.toNat, 24), (r.domain.toNat, 16), (r.chip.toNat, 0)]
  | 0x010 => pk [(r.horizon.toNat, 17), (r.children.toNat, 0)]
  | 0x014 => pk [(r.pending.length, 20), ((r.pending.head?.map (·.1.toNat)).getD 0, 8), (r.stretch.toNat, 0)]
  | 0x018 => lo32 ((r.pending.head?.map (·.2.toNat)).getD 0)
  | 0x01C => x.hiReg 0x5001C (hi32 ((r.pending.head?.map (·.2.toNat)).getD 0))
  | 0x020 => pk [(r.trim.toNat, 16), (r.maxErr.toNat, 8), (r.err.toNat, 0)]
  | 0x024 => r.abortTask
  | 0x028 => pk [(r.abortValid.toNat, 31), (r.abortOrigin.toNat, 16), (r.abortStatus.toNat, 0)]
  | 0x02C => pk [(r.slipKind.toNat, 28), (r.slipWhere.toNat, 16), (r.slipCount.toNat, 0)]
  | _ =>
    if 0x100 ≤ off ∧ off < 0x144 then
      let g := s.flightReg ((off - 0x100) / 4)
      pk [(g.remeasure.toNat, 31), (g.valid.toNat, 30), (g.allow.toNat, 16), (g.flight.toNat, 0)]
    else 0

/-- SEC_LEAF_STAT (14 R689). -/
def leafStat (g : IdSt) : Word :=
  pk [(g.ctrErr.toNat, 31), (g.low.toNat, 30), (g.exhausted.toNat, 29), (g.blocks.toNat, 0)]

def secRead (x : Sel) (s : State) (off : Nat) : Word :=
  let r := s.sec
  let g := s.ids
  if off = 0x000 then
    pk [(r.lc.code, 29), (r.trips, 26), (s.fuse.eb1Off.toNat, 25), (r.reqErr.toNat, 24), (r.marks.toNat, 0)]
  else if off = 0x008 then pk [(s.fuse.revoked.toNat, 28), (r.slot.toNat, 24), (s.fuse.svn, 0)]
  else if !s.passed 1 then 0
  else if 0x020 ≤ off ∧ off < 0x064 then wordAt g.pub.toNat ((off - 0x020) / 4)
  else if 0x110 ≤ off ∧ off < 0x154 then r.staged.getD ((off - 0x110) / 4) 0
  else if 0x210 ≤ off ∧ off < 0x230 then wordAt r.chain.toNat ((off - 0x210) / 4)
  else if 0x240 ≤ off ∧ off < 0x280 then
    BitVec.ofNat 32 (leAt (r.entries.getD x.log []) (off - 0x240) 4)
  else if 0x310 ≤ off ∧ off < 0x330 then r.nonce.getD ((off - 0x310) / 4) 0
  else if 0x8000 ≤ off ∧ off < 0xA728 then (if r.quoteValid then BitVec.ofNat 32 (leAt r.quote (off - 0x8000) 4) else 0)
  else
    let k := Tab.find r.cache x.opk
    match off with
    | 0x010 => pk [(g.state.code, 24)]
    | 0x070 => lo32 g.leaf.toNat
    | 0x074 => x.hiReg 0x60074 (hi32 g.leaf.toNat)
    | 0x078 => leafStat g
    | 0x07C => g.signCnt
    | 0x100 => BitVec.ofNat 32 x.opk
    | 0x104 => pk [(k.isSome.toNat, 29), (r.opkErr.toNat, 28), ((k.map (·.1.toNat)).getD 0, 0)]
    | 0x160 => lo32 ((k.map (·.2.2.toNat)).getD 0)
    | 0x164 => x.hiReg 0x60164 (hi32 ((k.map (·.2.2.toNat)).getD 0))
    | 0x200 => pk [(r.overflow.toNat, 31), (r.events.toNat, 0)]
    | 0x230 => BitVec.ofNat 32 x.log
    | 0x300 => pk [(r.quoteBusy.toNat, 29), (r.quoteValid.toNat, 28), (r.quoteResult.toNat, 0)]
    | 0x400 => pk [(r.scan.code, 30), (r.cleared.toNat, 0)]
    | _ => 0

/-- A tile's test age as BIST_AGE codes it (15 R696). -/
def ageCode (a : Option Nat) : Nat := match a with | some n => min n 0xFFFFFFFE | none => 0xFFFFFFFF

/-- The ACTIVE tile with the largest test age and its age, unknown ages first, the lowest PT on a tie (15 R712). -/
def State.ageMax (s : State) : Nat × Nat :=
  (List.range 2304).foldl
    (fun m pt =>
      let r := s.role pt
      if r.role = .active ∧ (m.2.2 = false ∨ m.2.1 < ageCode r.age) then (pt, ageCode r.age, true) else m)
    (0, 0xFFFFFFFF, false) |> fun m => (m.1, m.2.1)

/-- Sweeps and progress of the slowest powered partition (15 R712). -/
def State.hbmProg (s : State) : Nat × Nat :=
  let pcs := ((List.range 512).filter fun n => !s.parked (n / 32))
  let v := fun n => (Tab.get 0 s.bist.sweeps n) * 73728 + Tab.get 0 s.bist.next n
  match pcs with
  | [] => (0, 0)
  | n :: ns =>
    let m := ns.foldl (fun m k => min m (v k)) (v n)
    (min (m / 73728) 0xFFFF, m % 73728 * 1024 / 73728)

def bistRead (x : Sel) (s : State) (off : Nat) : Word :=
  let r := s.bist
  match off with
  | 0x000 => pk [(r.hbmEn.toNat, 16), (r.period.toNat, 0)]
  | 0x004 => pk [(r.state.toNat, 30), (r.refused.toNat, 29), (r.phase.toNat, 24), (r.fenced.toNat, 0)]
  | 0x010 => pk [(r.passed.toNat, 16), (r.failed.toNat, 0)]
  | 0x014 => pk [(r.lastValid.toNat, 31), (r.lastProg.toNat, 28), (r.lastUnit.toNat, 24), (r.lastPt.toNat, 0)]
  | 0x020 => BitVec.ofNat 32 x.age
  | 0x024 => BitVec.ofNat 32 (ageCode (s.role x.age).age)
  | 0x028 => BitVec.ofNat 32 s.ageMax.1
  | 0x02C => BitVec.ofNat 32 s.ageMax.2
  | 0x040 => pk [(s.hbmProg.1, 16), (s.hbmProg.2, 0)]
  | 0x044 => pk [(r.untested.toNat, 16), (r.faults.length, 0)]
  | 0x048 => BitVec.ofNat 32 x.fent
  | 0x04C => r.faults.getD x.fent 0
  | 0x050 => pk [(r.recKind.toNat, 24), (r.recGen.toNat, 0)]
  | _ => 0

/-- Slots of a cluster that are lost (11 R567). -/
def State.lostSlots (s : State) (c : Nat) : List Nat :=
  let t := clusTiles c
  if t.any fun pt => (s.role pt).role = .bench || (s.role pt).role = .testing then []
  else (List.range 16).filter fun k =>
    (s.role (18 * c + s.remapIdx c k)).role = .fenced || (Tab.find (s.clus c).hosts k).isSome

def clusStateRead (s : State) (c : Nat) : Word :=
  let ls := s.lostSlots c
  let first := ls.headD 0
  let fixedHost := Tab.find (s.clus c).hosts first
  let benches := ((clusTiles c).filter fun pt => (s.role pt).role = .bench).length
  let testing := (clusTiles c).find? fun pt => (s.role pt).role = .testing
  pk [(min ls.length 2, 30), ((decide (ls ≠ []) && fixedHost.isSome).toNat, 29), (first, 24),
    ((fixedHost.map (·.toNat)).getD 0, 20), (min benches 2, 16), ((testing.map ptIdx).getD 0x1F, 8),
    ((s.clus c).rotMark.getD 0x1F, 0)]

def healRead (x : Sel) (s : State) (off : Nat) : Word :=
  let r := s.heal
  let a := s.healx
  match off with
  | 0x000 => pk [(r.rotEn.toNat, 31), (r.rotPeriod.toNat, 0)]
  | 0x008 => pk [(r.busy.toNat, 31), (r.result.toNat, 0)]
  | 0x010 => pk [(r.fences.toNat, 16), (r.remaps.toNat, 0)]
  | 0x014 => pk [(r.prr.toNat, 24), (r.hangs.toNat, 16), (r.absorbed.toNat, 0)]
  | 0x020 => BitVec.ofNat 32 x.clus
  | 0x024 => pk ((List.range 18).map fun i => ((decide ((s.role (18 * x.clus + i)).role = .fenced)).toNat, i))
  | 0x028 => clusStateRead s x.clus
  | 0x040 => r.hangTask
  | 0x044 => pk [(r.hangValid.toNat, 31), (r.hangPart.toNat, 24), (r.hangTile.toNat, 23), (r.hangLt.toNat, 0)]
  | 0x048 => pk [(r.edgeValid.toNat, 31), (r.edgeFold.toNat, 27), (r.edgePort.toNat, 24), (r.edgeLt.toNat, 0)]
  | 0x04C => r.hangSess
  | 0x050 => r.hangFret
  | 0x060 => pk ((List.range 16).map fun p => ((s.partMode p).code, 2 * p))
  | 0x064 => pk [(r.lastPrr.toNat, 16), (r.lastRemap.toNat, 0)]
  | 0x080 => pk [(a.twin.code, 24), (a.twinFail.toNat, 16), (a.twinConn.toNat, 0)]
  | 0x084 => a.twinCopy
  | 0x088 => pk [(a.peerValid.toNat, 31), (a.peerRetire.toNat, 24), (a.peerLost.toNat, 16), (a.peerParts.toNat, 0)]
  | 0x08C => a.peerTask
  | _ => 0

def relRead (x : Sel) (s : State) (off : Nat) : Word :=
  let r := s.rel
  let a := s.relx
  let d := s.dig x.dig
  match off with
  | 0x000 => pk [(r.reportAll.toNat, 31), (r.parThresh.toNat, 20), (r.retryDelay.toNat, 8), (r.retryLimit.toNat, 0)]
  | 0x010 => pk [(r.transient.toNat, 16), (r.datapath.toNat, 0)]
  | 0x014 => pk [(r.checker.toNat, 24), (r.bench.toNat, 16), (r.refDis.toNat, 8), (r.abandoned.toNat, 0)]
  | 0x018 => pk [(r.residue.toNat, 16), (r.parity.toNat, 0)]
  | 0x01C => pk [(r.retries.toNat, 16), (r.failed.toNat, 0)]
  | 0x020 => lo32 r.sramCe.toNat
  | 0x024 => x.hiReg 0x90024 (hi32 r.sramCe.toNat)
  | 0x028 => pk [(r.ueSram.toNat, 16), (r.ueHbm.toNat, 0)]
  | 0x02C => pk [(r.trKind.toNat, 28), (r.trIndex.toNat, 16), (r.trCount.toNat, 0)]
  | 0x030 => pk [(r.arbValid.toNat, 31), (r.arbVerdict.toNat, 28), (r.arbPt.toNat, 16), (r.arbCheck.toNat, 12),
      (r.arbLt.toNat, 0)]
  | 0x034 => r.arbTask
  | 0x040 => pk [(a.retFlag.toNat, 31), (a.retState.code, 8), (a.retCause.toNat, 0)]
  | 0x0F8 => a.digTransient.setWidth 32
  | 0x100 => pk [(a.twinEn.toNat, 31), (a.cfgErr.toNat, 30), (a.twinConn.toNat, 16), (a.interval.toNat, 0)]
  | 0x104 => BitVec.ofNat 32 x.dig
  | 0x108 => d.baseLo
  | 0x10C => d.baseHi.setWidth 32
  | 0x110 => d.size.setWidth 32
  | 0x114 => pk [(d.hostRef.toNat, 29), (d.state.code, 26), (d.badCause.toNat, 24), (d.passes.toNat, 0)]
  | 0x160 => lo32 d.chunks.toNat
  | 0x164 => x.hiReg 0x90164 (hi32 d.chunks.toNat)
  | _ =>
    if 0x120 ≤ off ∧ off < 0x140 then wordAt d.ref.toNat ((off - 0x120) / 4)
    else if 0x140 ≤ off ∧ off < 0x160 then wordAt d.last.toNat ((off - 0x140) / 4)
    else 0

/-- Triggers that no configuration disables (16 R717). -/
def alwaysOn (id : Nat) : Bool := decide (id = 1) || decide (id = 2) || (decide (0x30 ≤ id) && decide (id ≤ 0x33))

def State.trig (s : State) (id : Nat) : TrigSt := Tab.get {} s.tel.trigs id

/-- Bytes 0x00 to 0x3B of a copy slot (16 R726). -/
def ChestSlot.head (x : ChestSlot) : List Byte :=
  leBytes 4 0x43485354 ++ leBytes 2 1 ++ [x.reason, BitVec.ofNat 8 x.closed.toNat] ++ leBytes 8 x.serial.toNat
    ++ leBytes 4 x.gen ++ leBytes 2 x.epoch.toNat ++ leBytes 2 0 ++ leBytes 4 x.next.toNat ++ leBytes 4 x.old.toNat
    ++ leBytes 4 x.oldPos ++ leBytes 4 x.keepLen ++ leBytes 20 0

/-- The Keep and Circle bytes of a copy slot. -/
def ChestSlot.areas (x : ChestSlot) : List Byte :=
  Mem.read (fun _ => 0) x.keep 0 0x10000 ++ Mem.read (fun _ => 0) x.circle 0 0x40000

/-- A byte of a copy slot: erased flash reads 0xFF; the bytes of a slot whose copy did not complete are free (16 R726). -/
def ChestSlot.byte (x : ChestSlot) (a : Nat) : Byte :=
  if !x.written then 0xFF
  else if !x.valid then Config.freeByte x.gen a
  else if a < 0x3C then x.head.getD a 0
  else if a < 0x40 then (leBytes 4 (crc32c (x.head ++ x.areas)).toNat).getD (a - 0x3C) 0
  else if 0x1000 ≤ a ∧ a < 0x11000 then Tab.get 0 x.keep (a - 0x1000)
  else if 0x11000 ≤ a ∧ a < 0x51000 then Tab.get 0 x.circle (a - 0x11000)
  else if a < 0x1000 then Config.freeByte x.gen a
  else 0xFF

/-- A byte of the page that CHEST_WIN selects (16 R727). -/
def chestWinByte (s : State) (src : Nat) (a : Nat) : Byte :=
  match src with
  | 0 => if a < 0x10000 then Tab.get 0 s.chest.keep a else 0
  | 1 => if a < 0x40000 then Tab.get 0 s.chest.circle a else 0
  | 2 | 3 | 4 | 5 => (s.flash.chest.getD (src - 2) {}).byte a
  | _ => 0

def chestRead (x : Sel) (s : State) (off : Nat) : Word :=
  let r := s.chest
  let t := s.tel
  let g := s.trig x.trig
  match off with
  | 0x000 => pk [(r.closed.toNat, 31), ((r.copying.isSome || r.marked.isSome).toNat, 30), (r.clears.toNat, 16),
      (r.lost.toNat, 0)]
  | 0x004 => r.epoch.setWidth 32
  | 0x008 => r.next
  | 0x00C => r.old
  | 0x010 => match x.port, x.latch with
    | some .a, _ => t.oldPos.a
    | some .b, _ => t.oldPos.b
    | none, some _ => t.oldPos.mc
    | none, none => BitVec.ofNat 32 r.oldPos
  | 0x014 => BitVec.ofNat 32 r.keepLen
  | 0x018 => pk [(x.win.1, 16), (x.win.2, 0)]
  | 0x01C => pk [(r.reason.toNat, 24), (r.slot.toNat, 16), (r.count.toNat, 0)]
  | 0x020 => BitVec.ofNat 32 x.trig
  | 0x024 => pk [((g.enable || alwaysOn x.trig).toNat, 31), (g.count.toNat, 0)]
  | 0x100 => lo32 t.strCyc.toNat
  | 0x104 => x.hiReg 0xA0104 (hi32 t.strCyc.toNat)
  | 0x108 => BitVec.ofNat 32 x.strh
  | 0x10C => lo32 ((t.strh[x.strh]?.map (·.1.toNat)).getD 0)
  | 0x110 => x.hiReg 0xA0110 (hi32 ((t.strh[x.strh]?.map (·.1.toNat)).getD 0))
  | 0x114 => match t.strh[x.strh]? with
    | some e => pk [(e.2.1.toNat, 8), (e.2.2.toNat, 0)]
    | none => 0
  | 0x200 => pk [(t.enable.toNat, 31), (t.exp.toNat, 16), (t.kinds.toNat, 0)]
  | 0x204 => t.conn.setWidth 32
  | 0x208 => pk [(t.sent.toNat, 16), (t.skipped.toNat, 0)]
  | _ =>
    if 0x040 ≤ off ∧ off < 0x0C0 then (Tab.get 0 g.snaps ((off - 0x040) / 4)).setWidth 32
    else if 0x8000 ≤ off then
      let a := x.win.2 * 0x8000 + (off - 0x8000)
      pk ((List.range 4).map fun i => ((chestWinByte s x.win.1 (a + i)).toNat, 8 * i))
    else 0

def mchRead (x : Sel) (s : State) (off : Nat) : Word :=
  let c := s.conn x.conn
  let q := s.queue x.q
  match off with
  | 0x000 => BitVec.ofNat 32 x.conn
  | 0x004 => pk [(c.nak.toNat, 27), (c.state.code, 24), (c.serial.toNat, 16), (c.lastStatus.toNat, 8),
      (c.detail.toNat, 4), (c.closeLost.toNat, 1), (c.timeout.toNat, 0)]
  | 0x008 => pk [(c.srcKind.toNat, 16), (c.srcEp.toNat, 0)]
  | 0x00C => pk [(c.index.toNat, 26), (c.chip.toNat, 16), (c.queue.toNat, 0)]
  | 0x010 => pk [(c.grant.toNat, 16), (c.outst.toNat, 0)]
  | 0x014 => c.quota.setWidth 32
  | 0x018 => c.sent
  | 0x01C => c.stall
  | 0x020 => pk [(c.naks.toNat, 16), (c.refused.toNat, 0)]
  | 0x100 => BitVec.ofNat 32 x.q
  | 0x104 => pk [(q.state.code, 28), (q.sel.toNat, 27), (q.kind.toNat, 24), (q.input.toNat, 21), (q.prio.toNat, 18),
      (q.bindErr.toNat, 17), (q.ep.toNat, 0)]
  | 0x108 => q.baseLo
  | 0x10C => q.baseHi
  | 0x110 => pk [(q.out.toNat, 16), (q.size.toNat, 0)]
  | 0x114 => pk [(q.headLap.toNat, 31), (q.head.toNat, 0)]
  | 0x118 => pk [(q.tailLap.toNat, 31), (q.tail.toNat, 0)]
  | 0x11C => q.charge.setWidth 32
  | 0x120 => pk [(q.bf16.toNat, 31), (q.rounds.toNat, 28), (q.senders.toNat, 22), (q.elems.toNat, 11)]
  | 0x124 => q.placed
  | 0x128 => pk [(q.dropped.toNat, 16), (q.stale.toNat, 0)]
  | _ => 0

def pcieRead (s : State) (p : HostPort) (off : Nat) : Word :=
  let r := s.pcieOf p
  match off with
  | 0x000 => pk [(r.up.toNat, 31), (r.width.toNat, 24), (r.speed.toNat, 16), (r.flit.toNat, 15), (r.mps.toNat, 8)]
  | 0x004 => r.winBase.setWidth 32
  | 0x008 => r.nqLo
  | 0x00C => r.nqHi
  | 0x010 => pk [(r.nqEnable.toNat, 31), (r.nqOverflow.toNat, 30), (r.nqSize.toNat, 0)]
  | 0x014 => r.nqHead.setWidth 32
  | 0x018 => pk [(r.nqLap.toNat, 31), (r.nqTail.toNat, 0)]
  | 0x024 => pk [(r.subRefused.toNat, 16), (r.consumeErr.toNat, 0)]
  | _ => 0

def mgtRead (s : State) (off : Nat) : Word :=
  let r := s.mgt
  let st := fun (m : MgtPortSt) => pk [(m.up.toNat, 31), (m.rejected.toNat, 16), (m.accepted.toNat, 0)]
  match off with
  | 0x000 => pk [(r.udp.toNat, 16), (r.mode1.toNat, 3), (r.mode0.toNat, 2), (r.en1.toNat, 1), (r.en0.toNat, 0)]
  | 0x004 => st r.m0
  | 0x008 => st r.m1
  | _ =>
    if 0x010 ≤ off ∧ off < 0x020 then wordAt r.m0.ip.toNat ((off - 0x010) / 4)
    else if 0x020 ≤ off ∧ off < 0x030 then wordAt r.m1.ip.toNat ((off - 0x020) / 4)
    else 0

/-- The key of a release point in `State.held`. -/
def fabHeld (p : Nat) : Nat := 2064 + p

/-- Flits charged in a release-time queue (04 R201). -/
def State.occupancy (s : State) (k : Nat) : Nat := (Tab.get [] s.held k).foldl (fun n h => n + h.flits) 0

/-- Flits in the buffer of a virtual channel at an input (08 R460). -/
def RouterSt.occ (q : RouterSt) (inPort vc : Nat) : Nat :=
  (q.worms.filter fun x => decide (x.inPort = inPort) && decide (x.w.head.vc.toNat = vc)).foldl (fun n x => n + x.here) 0

/-- The number of a router, as a WATCHDOG record names it (16 R716). -/
def routerNo : Router → Nat
  | .hub c => c.val | .ring .west => 128 | .ring .east => 129

def State.router (s : State) (r : Router) : RouterSt := Tab.get {} s.spn.routers (routerNo r)
def State.updRouter (s : State) (r : Router) (f : RouterSt → RouterSt) : State :=
  s.modSpn fun n => { n with routers := Tab.upd {} n.routers (routerNo r) f }

/-- Fabric ports of a ring: F0 to F7 West; F8 to F15 and TW East (R417). -/
def portRing (p : Nat) : Half := if p < 8 then .west else .east

def fabRead (x : Sel) (s : State) (p off : Nat) : Word :=
  let r := s.fab p
  let base := 0x100000 + p * 0x1000
  match off with
  | 0x000 => pk [(r.enable.toNat, 31), (r.pmd.toNat, 29), (r.wdogCut.toNat, 28), (r.wdogExp.toNat, 16)]
  | 0x004 => pk [(r.state.code, 29), (r.lanes.toNat, 16), (r.cause.toNat, 8), (r.twinLost.toNat, 3), (r.wdog.toNat, 2),
      (r.cut.toNat, 1), (r.down.toNat, 0)]
  | 0x008 => lo32 r.peerSerial.toNat
  | 0x00C => x.hiReg (base + 0x00C) (hi32 r.peerSerial.toNat)
  | 0x010 => pk [(r.peerValid.toNat, 31), (r.peerPort.toNat, 16), (r.peerGrade.toNat, 8), (r.peerLetter.toNat, 4),
      (r.peerDigit.toNat, 0)]
  | 0x020 => lo32 r.txFlits.toNat
  | 0x024 => x.hiReg (base + 0x024) (hi32 r.txFlits.toNat)
  | 0x028 => lo32 r.rxFlits.toNat
  | 0x02C => x.hiReg (base + 0x02C) (hi32 r.rxFlits.toNat)
  | 0x030 => lo32 r.txWorms.toNat
  | 0x034 => x.hiReg (base + 0x034) (hi32 r.txWorms.toNat)
  | 0x038 => lo32 r.rxWorms.toNat
  | 0x03C => x.hiReg (base + 0x03C) (hi32 r.rxWorms.toNat)
  | 0x040 => r.stalls.getD 0 0
  | 0x044 => r.stalls.getD 1 0
  | 0x048 => r.stalls.getD 2 0
  | 0x04C => r.stalls.getD 3 0
  | 0x050 => pk [(r.vc0Max.toNat, 16), (min (s.occupancy (fabHeld p)) 512, 0)]
  | 0x054 =>
    let q := s.router (.ring (portRing p))
    pk [(min (q.occ p 3) 255, 24), (min (q.occ p 2) 255, 16), (min (q.occ p 1) 255, 8)]
  | 0x060 => pk [(r.replay.toNat, 16), (r.localRetry.toNat, 0)]
  | 0x064 => pk [(r.cuts.toNat, 16), (r.routeErr.toNat, 0)]
  | _ => 0

def State.hubPort (s : State) (h : Half) (sel : Nat) : HubPort :=
  Tab.get {} s.spn.hubs ((match h with | .west => 0 | .east => 512) + sel)

def State.route (s : State) (n : Nat) : RouteEnt := Tab.get {} s.spn.routes n

def spnRead (x : Sel) (s : State) (h : Half) (off : Nat) : Word :=
  let r := s.spnHalf h
  let sel := match h with | .west => x.hubW | .east => x.hubE
  let base := match h with | .west => 0x200000 | .east => 0x280000
  let g := s.hubPort h sel
  if 0x4000 ≤ off ∧ off < 0x4200 then
    let n := (off - 0x4000) / 4
    pk ((List.range 32).map fun j => ((s.liveRegion (32 * n + j) && Tab.get false s.spn.sides (32 * n + j)).toNat, j))
  else if 0x5100 ≤ off ∧ off < 0x5200 then
    let p := s.pool ((off - 0x5100) / 16)
    match (off - 0x5100) % 16 with
    | 0 => pk [(p.enable.toNat, 31), (p.cfgErr.toNat, 30), (p.base.toNat, 0)]
    | 4 => pk [(p.mask.toNat, 16), (p.planes.toNat, 8), (p.slot.toNat, 0)]
    | 8 => p.count.setWidth 32
    | 12 => BitVec.ofNat 32 (if p.enable then p.count.toNat - p.used.length else 0)
    | _ => 0
  else if 0x10000 ≤ off ∧ off < 0x18000 then
    let e := s.route ((off - 0x10000) / 32)
    match (off - 0x10000) % 32 with
    | 0 => e.w0 | 4 => e.w1 | 8 => e.w2 | 12 => e.w3 | _ => 0
  else if 0x40000 ≤ off ∧ off < 0x80000 then
    let e := s.session ((off - 0x40000) / 16)
    match (off - 0x40000) % 16 with
    | 0 => pk [(e.state.code, 30), (e.gen.toNat, 14), (e.overQuota.toNat, 13), (e.truncated.toNat, 12),
        (e.pool.toNat, 8), (e.use.toNat, 0)]
    | 4 => e.commit.setWidth 32
    | 8 => e.draft.setWidth 32
    | 12 => pk [(e.quota.toNat, 16), (e.held.toNat, 0)]
    | _ => 0
  else match off with
    | 0x0000 => pk [(sel / 8, 8), (sel % 8, 0)]
    | 0x0004 => lo32 g.flits.toNat
    | 0x0008 => x.hiReg (base + 0x0008) (hi32 g.flits.toNat)
    | 0x000C => lo32 g.worms.toNat
    | 0x0010 => x.hiReg (base + 0x0010) (hi32 g.worms.toNat)
    | 0x0014 => g.stall
    | 0x0018 =>
      let q := s.router (.hub (Fin.ofNat 128 ((match h with | .west => 0 | .east => 64) + sel / 8)))
      let p := sel % 8
      if 4 < p then 0 else pk [(min (q.occ p 0) 31, 16), (min (q.occ p 1) 15, 8), (min (q.occ p 2) 7, 4), (min (q.occ p 3) 3, 0)]
    | 0x0020 => pk [(r.cut.toNat, 31), (r.exp.toNat, 16), (r.routeErr.toNat, 8), (r.events.toNat, 0)]
    | 0x0044 => r.brgDrop
    | 0x0080 => pk [(r.ncnUp.toNat, 31), (r.retx.toNat, 0)]
    | 0x5000 => s.sess.tblBase.setWidth 32
    | 0x5004 => pk [(s.sess.allocFail.toNat, 16), (s.sess.drop.toNat, 0)]
    | _ => 0

/-- Requests outstanding in a partition (05 R292). -/
def PartSt.outNow (p : PartSt) : Nat := p.queue.length + p.started.length

def partRead (x : Sel) (s : State) (p off : Nat) : Word :=
  let r := s.part p
  match off with
  | 0x200 => pk [(r.trained.toNat, 16), (r.hbm.code, 8), (r.refresh2x.toNat, 1), (r.trainErr.toNat, 0)]
  | 0x204 => pk [(r.tWorst.toNat, 16), (r.scrubH.toNat, 0)]
  | 0x208 => pk [(r.outMax.toNat, 16), (min r.outNow 3072, 0)]
  | 0x210 => lo32 r.ce.toNat
  | 0x214 => x.hiReg (0x400000 + p * 0x10000 + 0x214) (hi32 r.ce.toNat)
  | 0x218 => r.ueAddr
  | 0x21C => pk [(r.ueValid.toNat, 31), (r.ueSector.toNat, 8), (r.ueCause.toNat, 0)]
  | 0x220 => r.risk
  | 0x300 => pk [(r.lpEnable.toNat, 31), (r.lpThreshold.toNat, 16), (r.lp.length, 0)]
  | 0x304 => r.lpHit
  | 0x308 => r.lpMiss
  | _ => 0

/-- An input of a fold of the current bank is an edge (03 R174). -/
def TileSt.edgeAt (t : TileSt) (fold input : Nat) : Bool :=
  ((t.cur.bind fun b => b.cfg.folds[fold]?).bind fun f => f.inputs[input]?).any fun i => match i.kind with
    | .edge _ => true
    | _ => false

def tileRead (s : State) (pt off : Nat) : Word :=
  let t := s.tile pt
  match off with
  | 0x000 => match s.ltOf pt with
    | some lt => pk [(lt, 16), (pt, 0)]
    | none => pk [(1, 31), (pt, 0)]
  | 0x004 => pk [(t.fold.toNat, 21), (t.folds.toNat, 18), (t.mode.code, 8), (t.nanOut.toNat, 3), (t.convSat.toNat, 2),
      (t.accSat.toNat, 1), (t.sramCe.toNat, 0)]
  | 0x008 => t.satCnt
  | 0x00C => t.ceCnt
  | 0x010 => pk [(t.ueValid.toNat, 31), (t.ueWord.toNat, 3)]
  | 0x020 => pk [(t.armedOk.toNat, 31), (t.cfgErr.toNat, 30), (t.armCur.toNat, 29), (t.errCheck.toNat, 20),
      (((t.cur.map (·.task.toNat)).getD 0) % 65536, 0)]
  | _ =>
    if 0x100 ≤ off ∧ off < 0x200 then
      let n := (off - 0x100) / 4
      let q := Tab.get (0, 0) t.qs n
      if t.edgeAt (n / 8) (n % 8) then pk [(q.1.toNat, 16), (q.2.toNat, 0)] else 0
    else 0

/-- The physical index that a tile window shows (17 R746). -/
def windowIdx (hi : Bool) (w : Nat) : Option Nat :=
  if hi then (if w < 2 then some (16 + w) else none) else some w

/-- A tile window answers (17 R737, R738). -/
def State.windowAnswers (s : State) (pt : Nat) : Bool :=
  s.passed 6 && !s.parked (ptPart pt) && !s.waking (ptPart pt) && !s.tileInReset pt

def clusRead (x : Sel) (s : State) (c off : Nat) : Word :=
  let r := s.clus c
  if 0x8000 ≤ off then
    match windowIdx (x.hi c) ((off - 0x8000) / 0x800) with
    | some i => if s.windowAnswers (18 * c + i) then tileRead s (18 * c + i) ((off - 0x8000) % 0x800) else 0
    | none => 0
  else if 0x1000 ≤ off ∧ off < 0x1200 then
    let t := s.ctx (64 * c + (off - 0x1000) / 8)
    if (off - 0x1000) % 8 = 0 then
      pk [(t.state.code, 29), (t.kind.toNat, 26), (t.underrun.toNat, 25), (t.drawer.toNat, 24), (t.slot.toNat, 20),
        (t.fold.toNat, 17), (t.k.toNat, 0)]
    else pk [(t.maxFill.toNat, 16), (t.minSlack.toNat, 0)]
  else match off with
    | 0x100 | 0x104 | 0x108 | 0x10C =>
      let n := (off - 0x100) / 4
      pk ((List.range 4).map fun i => (s.remapIdx c (4 * n + i), 8 * i))
    | 0x180 => BitVec.ofNat 32 (x.hi c).toNat
    | 0x200 => pk [(r.cfgErr.toNat, 31), (r.errCheck.toNat, 24), (r.errCtx.toNat, 16), (min r.outstanding 1024, 0)]
    | _ => 0

/-- The register block of a BAR0 offset (01 R45; 17 R736). -/
inductive Block where
  | top | rstc | brup | clk | pwr | fret | sec | bist | heal | rel | chest | mch
  | pcie (p : HostPort) | mgt | fab (n : Nat) | spn (h : Half) | part (p : Nat) | clus (c : Nat)
deriving DecidableEq, Repr

/-- The block that holds a BAR0 offset, and the offset in it. -/
def blockOf (off : Nat) : Option (Block × Nat) :=
  if off < 0xF0000 then
    let o := off % 0x10000
    match off / 0x10000 with
    | 0 => some (.top, o) | 1 => some (.rstc, o) | 2 => some (.brup, o) | 3 => some (.clk, o) | 4 => some (.pwr, o)
    | 5 => some (.fret, o) | 6 => some (.sec, o) | 7 => some (.bist, o) | 8 => some (.heal, o) | 9 => some (.rel, o)
    | 10 => some (.chest, o) | 11 => some (.mch, o) | 12 => some (.pcie .a, o) | 13 => some (.pcie .b, o)
    | 14 => some (.mgt, o) | _ => none
  else if 0x100000 ≤ off ∧ off < 0x111000 then some (.fab ((off - 0x100000) / 0x1000), off % 0x1000)
  else if 0x200000 ≤ off ∧ off < 0x280000 then some (.spn .west, off - 0x200000)
  else if 0x280000 ≤ off ∧ off < 0x300000 then some (.spn .east, off - 0x280000)
  else if 0x400000 ≤ off ∧ off < 0x500000 then some (.part ((off - 0x400000) / 0x10000), off % 0x10000)
  else if 0x1000000 ≤ off ∧ off < 0x1800000 then some (.clus ((off - 0x1000000) / 0x10000), off % 0x10000)
  else none

/-- The block answers BAR0 accesses (17 R736, R737; 09 R476). -/
def State.answers (s : State) : Block → Bool
  | .top | .rstc | .brup | .pcie _ => true
  | .clk | .pwr | .rel | .chest | .sec => s.passed 0
  | .fret => s.passed 2
  | .bist | .heal | .mgt | .fab _ => s.passed 1
  | .mch | .spn _ | .part _ | .clus _ => s.passed 4

/-- What a block's registers read. -/
def blockRead (x : Sel) (s : State) (b : Block) (off : Nat) : Word :=
  match b with
  | .top => topRead x s off
  | .rstc => rstcRead s off
  | .brup => brupRead s off
  | .clk => clkRead x s off
  | .pwr => pwrRead s off
  | .fret => fretRead x s off
  | .sec => secRead x s off
  | .bist => bistRead x s off
  | .heal => healRead x s off
  | .rel => relRead x s off
  | .chest => chestRead x s off
  | .mch => mchRead x s off
  | .pcie p => pcieRead s p off
  | .mgt => mgtRead s off
  | .fab n => fabRead x s n off
  | .spn h => spnRead x s h off
  | .part p => partRead x s p off
  | .clus c => clusRead x s c off

/-- What an aligned 32-bit read of BAR0 returns (00 R8; 01 R46). -/
def bar0Value (x : Sel) (s : State) (off : Nat) : Word :=
  if off % 4 ≠ 0 then 0
  else match blockOf off with
    | some (b, o) => if s.answers b then blockRead x s b o else 0
    | none => 0

/-- The LO offsets whose read latches the HI of the pair, within a block (17 R754). -/
def pairLo : Block → Nat → Bool
  | .top, o => decide (o = 0x004)
  | .clk, o => decide (o = 0x008)
  | .fret, o => decide (o = 0x000) || decide (o = 0x018)
  | .sec, o => decide (o = 0x070) || decide (o = 0x160)
  | .rel, o => decide (o = 0x020) || decide (o = 0x160)
  | .chest, o => decide (o = 0x100) || decide (o = 0x10C)
  | .fab _, o => decide (o = 0x008) || decide (o = 0x020) || decide (o = 0x028) || decide (o = 0x030) || decide (o = 0x038)
  | .spn _, o => decide (o = 0x0004) || decide (o = 0x000C)
  | .part _, o => decide (o = 0x210)
  | _, _ => false

end Sys2Proof.Machine
end

