-- ==== Sys2Proof/Machine/Record.lean ====
section
/-! DEFINITION. Writing a Chest record: triggers, event data, snapshots, and the intake buffer (16 R716 to R721). -/

namespace Sys2Proof.Machine

/-- The triggers of R716. -/
inductive Trigger where
  | powerOn | reset | stageFail | taskStop | lateCause | arbitration | fence | variant | hang | recovery | watchdog
  | fabric | digest | hbm | tileTest | thermal | domain | leafLow | retireCause | clear | mgmt
  | retired | abortLate | thermTrip | lockstep
deriving DecidableEq, Repr

/-- The identifier of a trigger (16 R716). -/
def Trigger.id : Trigger → Nat
  | .powerOn => 0x01 | .reset => 0x02 | .stageFail => 0x03 | .taskStop => 0x04 | .lateCause => 0x05
  | .arbitration => 0x06 | .fence => 0x07 | .variant => 0x08 | .hang => 0x09 | .recovery => 0x0A
  | .watchdog => 0x0B | .fabric => 0x0C | .digest => 0x0D | .hbm => 0x0E | .tileTest => 0x0F | .thermal => 0x10
  | .domain => 0x11 | .leafLow => 0x12 | .retireCause => 0x13 | .clear => 0x14 | .mgmt => 0x15
  | .retired => 0x30 | .abortLate => 0x31 | .thermTrip => 0x32 | .lockstep => 0x33

/-- Triggers 0x30 to 0x33 are fatal (16 R716). -/
def Trigger.fatal (t : Trigger) : Bool := decide (0x30 ≤ t.id)

/-- BAR0 offsets that a snapshot records as 0 (16 R719). -/
def timeOffsets : List Nat :=
  [0x50000, 0x50004, 0x50018, 0x5001C, 0x30008, 0x3000C, 0x80050, 0xA010C, 0xA0110, 0xA0100, 0xA0104]

/-- The value a snapshot holds for a BAR0 offset, seen through the Chest's private selectors (16 R719). -/
def State.snap (s : State) (unit off : Nat) : Word :=
  if timeOffsets.contains off then 0 else bar0Value (chestSel unit) s off

/-- The snapshot list of a trigger (16 R718). -/
def State.snapList (s : State) (id : Nat) : List Nat :=
  let g := s.trig id
  (List.range (min g.count.toNat 32)).map fun w => (Tab.get 0 g.snaps w).toNat

/-- A record's entries, read in list order as it is placed; the first that a reset or a power-off of its register's domain came before, and
every later one, hold all ones (16 R718, R720). -/
def State.snaps (s : State) (r : ChestRec) : List (Nat × Word) :=
  r.offs.zipIdx.map fun x =>
    (x.1, if (r.cut.map fun k => decide (k ≤ x.2)).getD false then 0xFFFFFFFF else s.snap r.unit x.1)

/-- What a reset or a power-off takes: the whole chip but the Chest's own domain, the compute core, the spines, a partition, a cluster or a
tile. -/
inductive ResetOf where
  | chip | core | spines | part (p : Nat) | clus (c : Nat) | tile (pt : Nat)

/-- The register at a BAR0 offset lies in what is taken; an offset that names no block has no domain (16 R720; log entry 66). -/
def ResetOf.has (t : ResetOf) (off : Nat) : Bool :=
  match t, blockOf off with
  | _, none => false
  | .chip, some (b, _) => decide (b ≠ .chest)
  | .core, some (.part _, _) | .core, some (.clus _, _) => true
  | .spines, some (.spn _, _) => true
  | .part p, some (.part q, _) => decide (p = q)
  | .part p, some (.clus c, _) => decide (clusPart c = p)
  | .clus c, some (.clus d, _) => decide (c = d)
  | .tile pt, some (.clus c, o) => decide (0x8000 ≤ o) && decide ((windowIdx false ((o - 0x8000) / 0x800)).map (18 * c + ·) = some pt)
  | _, _ => false

/-- A reset or a power-off comes before the waiting records have read their entries (16 R720). -/
def State.loseEntries (s : State) (t : ResetOf) : State :=
  let cutOf := fun (r : ChestRec) => match r.offs.findIdx? t.has, r.cut with
    | some i, some j => some (min i j)
    | some i, none => some i
    | none, c => c
  s.modChest fun c => { c with intake := c.intake.map fun r => { r with cut := cutOf r } }

/-- Write a record of a trigger: nothing where the trigger is disabled (R717); into the intake buffer of 64 records,
or discarded and counted where that is full (R721). `unit` is the unit the event names, `east` its half. -/
def State.recordAt (s : State) (t : Trigger) (east : Bool) (unit : Nat) (data : List Word) : State :=
  if !((s.trig t.id).enable || alwaysOn t.id) then s
  else if s.chest.intake.length < 64 then
    s.modChest fun c => { c with intake := c.intake ++ [⟨t.id, t.fatal, east, data, unit, s.snapList t.id, none⟩] }
  else s.modChest fun c => { c with lost := satAdd c.lost 1 }

/-- A record of an event of the West half that names no unit. -/
def State.record (s : State) (t : Trigger) (data : List Word) : State := s.recordAt t false 0 data

/-- A half as the source half of a record. -/
def isEast : Half → Bool
  | .west => false | .east => true

end Sys2Proof.Machine
end

