-- ==== Sys2Proof/Machine/Flags.lean ====
section
/-! DEFINITION. The flag computations: attention causes and the RDYBSY pins (09 R505 to R507), MSI-X, the sticky bits of FRET_STATUS, saturating counters. -/

namespace Sys2Proof.Machine

/-- Bits of TOP_ATTN_CAUSE (09 R514). -/
inductive Attn where
  | retire | fence | variant | digest | thermal | budget | domain | fabric | twin | fatal | owner | notice | mgmt | hbm
deriving DecidableEq, Repr

def Attn.bit : Attn → Nat
  | .retire => 0 | .fence => 1 | .variant => 2 | .digest => 3 | .thermal => 4 | .budget => 5 | .domain => 6
  | .fabric => 7 | .twin => 8 | .fatal => 9 | .owner => 10 | .notice => 11 | .mgmt => 12 | .hbm => 13

/-- The RDYBSY pins are low for busy (09 R505): not reported ready, an orderly reset accepted, the shut-down test or
HALTED, or the retire flag set. -/
def State.busyPin (s : State) : Bool :=
  !s.top.ready || s.rstc.orderly.isSome || decide (s.bist.state ≠ 0) || s.relx.retFlag

/-- Raise a cause in one port's copy; a new unmasked cause signals vector 513, and a pulse where the pin is ready
(09 R506). -/
def State.attnOn (s : State) (p : HostPort) (a : Attn) : State :=
  let fresh := !bit (s.top.cause.get p) a.bit && bit (s.top.mask.get p) a.bit
  let s := s.modTop fun t => { t with cause := t.cause.set p (putBit (t.cause.get p) a.bit true) }
  s.when fresh fun s =>
    let s := s.emit (.msix p 513)
    s.when (!s.busyPin) fun s => s.modTop fun t => { t with pin := t.pin.set p { t.pin.get p with pulseDue := true } }

/-- Raise a cause in both copies (09 R514). -/
def State.attn (s : State) (a : Attn) : State := (s.attnOn .a a).attnOn .b a

/-- The pins return to ready: where an unmasked cause bit is 1, a pulse follows (09 R507). -/
def State.readyPins (s : State) : State :=
  if s.busyPin then s
  else s.modTop fun t =>
    let f := fun p (pin : PinSt) => { pin with pulseDue := pin.pulseDue || decide (t.cause.get p &&& t.mask.get p ≠ 0) }
    { t with pin := ⟨f .a t.pin.a, f .b t.pin.b⟩ }

/-- The sticky bits of FRET_STATUS [20:15] (04 R224). -/
inductive FretFlag where
  | seamSplit | stretchLate | abortLate | allowShort | alignLost | beaconLost
deriving DecidableEq, Repr

def FretSt.flag (r : FretSt) : FretFlag → Bool
  | .seamSplit => r.seamSplit | .stretchLate => r.stretchLate | .abortLate => r.abortLate
  | .allowShort => r.allowShort | .alignLost => r.alignLost | .beaconLost => r.beaconLost

def FretSt.setFlag (r : FretSt) : FretFlag → FretSt
  | .seamSplit => { r with seamSplit := true } | .stretchLate => { r with stretchLate := true }
  | .abortLate => { r with abortLate := true } | .allowShort => { r with allowShort := true }
  | .alignLost => { r with alignLost := true } | .beaconLost => { r with beaconLost := true }

/-- Set a sticky bit of FRET_STATUS: attention cause domain for all but allow_short (09 R514), and a DOMAIN record
when the bit becomes 1 (16 R716). -/
def State.fretFlag (s : State) (f : FretFlag) : State :=
  let was := s.fret.flag f
  let s := s.modFret (·.setFlag f)
  let s := s.when (decide (f ≠ .allowShort)) (·.attn .domain)
  s.when (!was) fun s => s.record .domain [fretRead (chestSel 0) s 0x008, fretRead (chestSel 0) s 0x020]

end Sys2Proof.Machine
end

