-- ==== Sys2Proof/Machine/Cause.lean ====
section
/-! DEFINITION. Detecting an abort cause: the abort fret, the status chosen, slips, and what stops with a task (04 R217 to R222, R787). -/

namespace Sys2Proof.Machine

/-- The order among statuses of one abort: LOAD_REFUSED_VARIANT first, then the lowest code (04 R220). -/
def statusRank (x : Status) : Nat := if x = .variant then 0 else x.code + 1

/-- The better of two statuses found together (04 R217). -/
def leastStatus (x y : Status) : Status := if statusRank y < statusRank x then y else x

/-- R220: the earliest abort fret; ties to LOAD_REFUSED_VARIANT, then the lowest chip index, then the lowest code. -/
def AbortSt.before (x y : AbortSt) : Bool :=
  if x.fret ≠ y.fret then decide (x.fret < y.fret)
  else if decide (x.status = .variant) ≠ decide (y.status = .variant) then decide (x.status = .variant)
  else if x.origin ≠ y.origin then decide (x.origin.toNat < y.origin.toNat)
  else decide (x.status.code < y.status.code)

/-- The abort kept of one known before and a new one. -/
def AbortSt.merge (x : Option AbortSt) (y : AbortSt) : AbortSt :=
  match x with
  | some a => if y.before a then y else a
  | none => y

/-- The abort that a task stops at: of those detected or received, the one that R220 chooses. -/
def TaskRt.abort (t : TaskRt) : Option AbortSt := t.aborts.foldl (fun m a => some (AbortSt.merge m a)) none

/-- An abort for the task with an abort fret at or before `c` was known by the end of fret `c` − 1 (04 R182). -/
def TaskRt.abortedBy (t : TaskRt) (c : Nat) : Bool := t.aborts.any fun a => decide (a.fret ≤ c) && decide (a.known < c)

/-- Ports of the beacon tree: the parent and the children (04 R217, R186). -/
def State.childPorts (s : State) : List (Fin 17) := (List.finRange 17).filter fun p => bit s.fret.children p
def State.parentPort (s : State) : Option (Fin 17) :=
  if s.fret.root then none else (List.finRange 17).find? fun p => p.val = s.fret.parent.toNat
def State.treePorts (s : State) : List (Fin 17) := s.parentPort.toList ++ s.childPorts

/-- The abort horizon that applies to a task (04 R181, R217, R222). -/
def State.horizonOf (s : State) (t : TaskRt) : Nat := if t.multi then s.fret.horizon.toNat else 0

/-- A cause found now for a task known to the chip: the abort fret (R217, R222), the completion status (R220), a
LATE_CAUSE record where an abort fret was already set (R219), and no launch where it is not later than the launch
fret (R787). A task that committed or stopped takes no cause. -/
def State.detect (s : State) (n : BitVec 32) (st : Status) : State :=
  match Tab.find s.tasks n.toNat with
  | none => s
  | some t =>
    if t.phase = .committed ∨ t.phase = .stopped then s
    else
      let a := s.now + s.horizonOf t
      let late := match t.abort with
        | some x => decide (x.fret ≠ a) || decide (x.origin ≠ s.fret.chip)
        | none => false
      let unlaunched := decide (t.phase = .waiting ∨ t.phase = .armed) || decide (s.now ≤ t.launch)
      let s := s.updTask n fun t =>
        { t with
          aborts := t.aborts ++ [⟨a, s.fret.chip, st, s.now⟩]
          causes := if t.sent || t.recvd then t.causes else t.causes ++ [(s.now, st)]
          dead := t.dead || unlaunched }
      s.when late fun s =>
        s.record .lateCause [n, BitVec.ofNat 32 st.code, fretRead (chestSel 0) s 0x02C]

/-- FRET_SLIP: the release point of the most recent slip, and the count (04 R232). -/
def State.slipAt (s : State) (kind whr : Nat) : State :=
  s.modFret fun r =>
    { r with slipKind := BitVec.ofNat 4 kind, slipWhere := BitVec.ofNat 12 whr, slipCount := satAdd r.slipCount 1 }

/-- A slip of a task (04 R200, R232). -/
def State.slip (s : State) (n : BitVec 32) (kind whr : Nat) : State := (s.slipAt kind whr).detect n .slip

/-- Tasks that run: launched, and neither committed nor stopped. -/
def State.running (s : State) : List (BitVec 32) :=
  (s.tasks.filter fun t => t.2.phase = .running || t.2.phase = .ended).map fun t => BitVec.ofNat 32 t.1

/-- Every running task aborts. -/
def State.abortRunning (s : State) (st : Status) : State := s.each s.running fun s n => s.detect n st

/-- At the end of a fret the chip sends one abort message for each task whose cause it found in that fret, up the
beacon tree and down every branch (04 R217, R218). -/
def State.sendAborts (s : State) : State :=
  s.each s.tasks fun s e =>
    let t := e.2
    match t.causes with
    | [] => s
    | (d, st) :: more =>
      if !t.multi || t.sent then s
      else
        let status := more.foldl (fun x c => leastStatus x c.2) st
        let m : AbortMsg := ⟨BitVec.ofNat 32 e.1, d + s.fret.horizon.toNat, s.fret.chip, status⟩
        let s := s.each s.treePorts fun s p => s.emit (.abort p m)
        s.updTask (BitVec.ofNat 32 e.1) fun t => { t with sent := true }

/-! ## Flight measurement (R195, R196, R233) -/

/-- The measurement of each trained link that is up starts: 256 exchanges on each (04 R195). With no link up it is complete. -/
def State.startMeasure (s : State) : State :=
  let ports := (List.finRange 17).filter fun p => decide ((s.fab p.val).state = .up)
  let s := s.when ports.isEmpty fun s => s.modFret fun r => { r with flights := r.flights.map fun e => (e.1, { e.2 with remeasure := false }) }
  s.each ports fun s p => (s.updFlight p.val fun g => { g with measuring := true }).emit (.exchange p 256)

/-- A remeasurement is requested and none is under way. -/
def State.measureDue (s : State) : Bool :=
  s.fret.flights.any (fun e => e.2.remeasure) && !s.fret.flights.any (fun e => e.2.measuring)

/-- A requested measurement starts once no task is armed or running (04 R195, R233). -/
def State.measureFlights (s : State) : State := s.when (s.measureDue && !s.anyTask) (·.startMeasure)

/-- A requested measurement is complete once no link is being measured: the requests are cleared (04 R233). -/
def State.endMeasure (s : State) : State :=
  s.when (!s.fret.flights.any fun e => e.2.measuring) fun s =>
    s.modFret fun r => { r with flights := r.flights.map fun e => (e.1, { e.2 with remeasure := false }) }

/-- A link that goes down has no measured flight, and is measured no further (04 R233). -/
def State.flightDown (s : State) (p : Nat) : State :=
  let was := (s.flightReg p).measuring
  (s.updFlight p fun g => { g with valid := false, measuring := false }).when was (·.endMeasure)

end Sys2Proof.Machine
end

