-- ==== Sys2Proof/Machine/Memory.lean ====
section
/-! DEFINITION. Device memory: sectors, their check, reads and writes, and the outcome of an access (01 R38 to R47; 05 R240 to R246). -/

namespace Sys2Proof.Machine

/-- A byte of device memory; a byte that nothing has written since the contents were last undefined is free (05 R239). -/
def State.hbmByte (s : State) (a : Nat) : Byte := Tab.get (Config.freeByte s.hbm.epoch a) s.hbm.mem a

/-- Bytes of device memory as stored. -/
def State.hbmBytes (s : State) (a n : Nat) : List Byte := Mem.read (Config.freeByte s.hbm.epoch) s.hbm.mem a n

/-- The 32-byte sectors that a range touches (05 R240). -/
def sectorsOf (a n : Nat) : List Nat :=
  if n = 0 then [] else (List.range ((a + n - 1) / 32 - a / 32 + 1)).map (a / 32 + ·)

/-! ## Where an address lies (R236; 01 R36, R37) -/

/-- The partition channel of an address: o[12:9]. -/
def chanOf (a : Nat) : Nat := partOff a / 512 % 16
/-- The pseudo-channel of an address within its partition: 2 × channel + bit 8. -/
def pcOf (a : Nat) : Nat := chanOf a * 2 + partOff a / 256 % 2
/-- The stack of an address, S(p div 2), and its channel there: the upper 16 for an odd partition. -/
def stackOf (a : Nat) : Nat := partOf a / 2
def stackChan (a : Nat) : Nat := partOf a % 2 * 16 + chanOf a
/-- The cluster whose hub the channel of an address is attached to: C(8p + (k div 2)). -/
def memHub (a : Nat) : Nat := 8 * partOf a + chanOf a / 2
/-- The address within the pseudo-channel. -/
def pcAddr (a : Nat) : Nat := partOff a / 8192 * 256 + partOff a % 256

/-- What the check of a sector finds. -/
def State.sectorErr (s : State) (sec : Nat) : Option SectorErr := Tab.find s.hbm.bad sec

/-- The 16 metadata bits of a sector: the poison flag in bit 10, and the check bits below it (R240). -/
def State.metaWord (s : State) (sec : Nat) : BitVec 16 :=
  (if s.sectorErr sec = some .poison then 0x400 else 0) ||| (Config.checkBits (s.hbmBytes (sec * 32) 32)).setWidth 16

/-- The check of a sector with bits in error; a poisoned sector stays poisoned (R242). -/
def noteErr (t : Tab SectorErr) (e : Nat × BitErr) : Tab SectorErr :=
  if Tab.find t e.1 = some .poison then t
  else match e.2 with
    | .one => Tab.put t e.1 .oneBit
    | .two => Tab.put t e.1 .twoBits

/-- Bits in error that a read is observed to find (R242). -/
def State.noteErrs (s : State) (errs : List (Nat × BitErr)) : State :=
  s.modHbm fun h => { h with bad := errs.foldl noteErr h.bad }

/-- A partition's HBM serves requests. -/
def State.hbmUp (s : State) (p : Nat) : Bool :=
  decide ((s.part p).hbm = .active) && !s.parked p && !s.waking p && !s.partInReset p

/-- Record an uncorrectable sector: the first one while valid is 0, the count and the attention for every one (05 R241,
R242; 16 R716). -/
def State.recordUe (s : State) (sec : Nat) (cause : BitVec 2) : State :=
  let a := sec * 32
  let p := partOf a
  let first := !(s.part p).ueValid
  let s := s.when first fun s => s.updPart p fun r =>
    { r with ueValid := true, ueAddr := BitVec.ofNat 32 (a / 256), ueSector := BitVec.ofNat 3 (a / 32), ueCause := cause }
  let s := s.modRel fun r => { r with ueHbm := satAdd r.ueHbm 1 }
  let s := s.attn .hbm
  s.when first fun s =>
    s.recordAt .hbm (isEast (partHalf p)) p
      [partRead (chestSel 0) s p 0x218, partRead (chestSel 0) s p 0x21C ||| BitVec.ofNat 32 (p * 4096)]

/-- A request as it joins a partition's queue. -/
def State.enqueueReq (s : State) (p : Nat) (r : HbmReq) : State :=
  let s := s.updPart p fun q =>
    let n := q.outNow + 1
    { q with queue := q.queue ++ [{ r with id := s.hbm.nextReq }], outMax := satOfNat 12 (max q.outMax.toNat n) }
  s.modHbm fun h => { h with nextReq := h.nextReq + 1 }

/-- Requests outstanding at one channel controller (R261). -/
def PartSt.chanOut (p : PartSt) (ch : Nat) : Nat := ((p.queue ++ p.started).filter fun r => r.pc / 2 = ch).length

/-- An unscheduled request of the controllers joins its queue, or waits for a free entry behind those that wait (R261, R263). -/
def State.enqueueUn (s : State) (p : Nat) (r : HbmReq) : State :=
  let q := s.part p
  if q.chanOut (r.pc / 2) < 192 ∧ (q.backlog.all fun x => decide (x.pc / 2 ≠ r.pc / 2)) then s.enqueueReq p r
  else s.updPart p fun q => { q with backlog := q.backlog ++ [r] }

/-- Requests that wait for an entry join the queue as entries come free. -/
def State.refill (s : State) (p : Nat) : State :=
  let w := (s.part p).backlog
  s.updPart p (fun q => { q with backlog := [] }) |>.each w (·.enqueueUn p ·)

/-- The check of one sector on a read: whether the data is poisoned, and what is recorded; a correction queues its
write-back as an unscheduled request (05 R242). -/
def State.checkSector (s : State) (sec : Nat) : Bool × State :=
  match s.sectorErr sec with
  | none => (false, s)
  | some .oneBit =>
    let a := sec * 32
    let s := s.updPart (partOf a) fun r => { r with ce := satAdd r.ce 1 }
    (false, s.enqueueUn (partOf a)
      { id := 0, pc := pcOf a, addr := a / 256 * 256, write := true, data := s.hbmBytes a 32, off := a % 256, cls := .unscheduled
        deadline := 0, arrived := s.now, who := .writeBack })
  | some .twoBits => (true, s.recordUe sec 0)
  | some .poison => (true, s.recordUe sec 1)

/-- The sectors of a range checked in order: the poisoned ones. -/
def State.checkRange (s : State) (a n : Nat) : List Nat × State :=
  (sectorsOf a n).foldl
    (fun r sec => let c := r.2.checkSector sec; (if c.1 then r.1 ++ [sec] else r.1, c.2)) ([], s)

/-- Any write drops a waiting write-back of its sector (05 R243). -/
def State.dropWriteBack (s : State) (sec : Nat) : State :=
  let drop := fun (r : HbmReq) => !(decide (r.who = .writeBack) && decide ((r.addr + r.off) / 32 = sec))
  s.updPart (partOf (sec * 32)) fun q => { q with queue := q.queue.filter drop, backlog := q.backlog.filter drop }

/-- Bytes stored: the check of each sector is good, or its poison flag is set where `wrong` names it (05 R240, R241). -/
def State.hbmStore (s : State) (a : Nat) (bs : List Byte) (wrong : List Nat) : State :=
  let s := s.modHbm fun h =>
    { h with
      mem := Mem.write h.mem a bs
      bad := (sectorsOf a bs.length).foldl
        (fun t sec => if wrong.contains sec then Tab.put t sec .poison else Tab.del t sec) h.bad }
  s.each (sectorsOf a bs.length) (·.dropWriteBack ·)

/-- Bytes of one sector stored, poisoned and recorded where their byte parity is wrong (05 R241). -/
def State.sectorStore (s : State) (a : Nat) (bs : List Byte) (wrong : Bool) : State :=
  (s.hbmStore a bs (if wrong then [a / 32] else [])).when wrong (·.recordUe (a / 32) 2)

/-- A write of part of a sector: a read-modify-write, discarded where the sector is uncorrectable (05 R244). -/
def State.hbmPartWrite (s : State) (a : Nat) (bs : List Byte) (wrong : Bool) : State :=
  let c := s.checkSector (a / 32)
  if c.1 then c.2 else c.2.sectorStore a bs wrong

/-- A write by the host or a message unit, sector by sector; `wrong` names the sectors whose byte parity is wrong (05 R241, R244). -/
def State.hbmWrite (s : State) (a : Nat) (bs : List Byte) (wrong : List Nat) : State :=
  (sectorsOf a bs.length).foldl
    (fun s sec =>
      let lo := max a (sec * 32)
      let hi := min (a + bs.length) (sec * 32 + 32)
      let part := (bs.drop (lo - a)).take (hi - lo)
      let w := wrong.contains sec
      if hi - lo = 32 then s.sectorStore lo part w else s.hbmPartWrite lo part w) s

/-- The outcome of an access to device memory (05 R246; 01 R40, R41). -/
inductive Reach where
  | ok | memory | parked | fenced
deriving DecidableEq, Repr

/-- Parked and waking partitions answer PARKED; a partition in a reset NAK_FENCED (05 R246). -/
def State.reach (s : State) (a n : Nat) : Reach :=
  if !populatedRange a n then .memory
  else if s.partInReset (partOf a) then .fenced
  else if !s.hbmUp (partOf a) then .parked
  else .ok

/-- The completion status of a task whose access has an outcome (05 R246). -/
def Reach.status : Reach → Status
  | .ok => .ok | .memory => .memory | .parked => .parked | .fenced => .nakFenced

/-! ## Places and runs (01 R19 to R33; 08 R430) -/

/-- The row and column of a cluster's hub, and the hub at a column and row. -/
def hubRow (c : Nat) : Nat := c % 64 / 8
def hubCol (c : Nat) : Nat := 8 * (c / 64) + c % 8
def hubAt (col row : Nat) : Nat := 64 * (col / 8) + 8 * row + col % 8

/-- The hop codes of a straight run: eight steps a code at most (R430). -/
def runCodes (dir : Nat) : Nat → List (BitVec 5)
  | n =>
    (List.replicate (n / 8) (BitVec.ofNat 5 (dir * 8 + 7))) ++ (if n % 8 = 0 then [] else [BitVec.ofNat 5 (dir * 8 + n % 8 - 1)])

end Sys2Proof.Machine
end

