-- ==== Sys2Proof/Machine/Edge.lean ====
section
/-! DEFINITION. Tasks, folds and edges by name: image lookups, end and commit frets, the configuration a tile runs, edge words popped with their credits, the worms that carry words and credits (03 R117 to R133; 04 R181, R199). -/

namespace Sys2Proof

/-- Activation fret of a use, as an offset from the launch fret (05 R273). -/
def StreamUse.activation (u : StreamUse) : Int :=
  match u.kind with
  | .read | .gather | .kvRead => u.first - u.prologue
  | .write | .kvWrite => u.first

/-- Retirement fret of a use, as an offset from the launch fret (05 R273). -/
def StreamUse.retirement (u : StreamUse) : Int :=
  match u.kind with
  | .read | .gather | .kvRead => u.first + u.n * u.period
  | .write | .kvWrite => u.drain

/-- Regions that a task uses: those it declares and those its streams name. -/
def TaskCfg.regions (c : TaskCfg) : List Nat :=
  c.reads ++ c.writes ++ c.streams.flatMap fun e => e.2.2.filterMap fun u => match u.src with
    | .region n _ _ => some n
    | .absolute _ => none

/-- The edge that feeds an input, if it is one. -/
def InputCfg.edge (i : InputCfg) : Option EdgeIn :=
  match i.kind with | .edge e => some e | _ => none

end Sys2Proof

namespace Sys2Proof.Machine

/-! ## Tasks -/

/-- The configuration of a task in a schedule's image (03 R114). -/
def State.taskCfg (s : State) (n : BitVec 32) : Option TaskCfg :=
  (Tab.find s.scheds (s.task n).sched.toNat).bind fun x => x.image.tasks.find? fun t => t.number = n

/-- The end fret E (04 R181). -/
def TaskRt.ending (t : TaskRt) : Nat := t.launch + t.length
/-- The commit fret C (04 R181). -/
def State.commitFret (s : State) (t : TaskRt) : Nat := t.ending + t.grace + s.horizonOf t

/-- A task is known, armed or running, and neither dead nor stopped (04 R787). -/
def State.alive (s : State) (n : BitVec 32) : Bool := (s.task n).busy && !(s.task n).dead

/-- An abort cause found while arming acts at the launch fret; no context of the task issues a request (05 R247, R785;
03 R168, R169). -/
def State.failArm (s : State) (n : BitVec 32) (st : Status) : State :=
  s.updTask n fun t => { t with armFail := t.armFail ++ [st], dead := true }

/-- A live sided region by number (05 R279). -/
def State.region (s : State) (n : Nat) : Option Region :=
  s.scheds.findSome? fun e => e.2.image.regions.find? fun r => r.n = n
/-- The side selector of a region: true when side B is current (05 R297). -/
def State.side (s : State) (n : Nat) : Bool := Tab.get false s.spn.sides n
/-- The selector that a task uses: the one it latched, and before its earliest activation fret the present one (05 R280; log entry
63). -/
def State.sideFor (s : State) (n : BitVec 32) (r : Nat) : Bool :=
  match (s.task n).sides with
  | some t => Tab.get (s.side r) t r
  | none => s.side r

/-- The base of a region's current or next side, as a task uses it (05 R280). -/
def State.sideBase (s : State) (n : BitVec 32) (r : Region) (next : Bool) : Nat := if s.sideFor n r.n ^^ next then r.b else r.a

/-- A task latches the selectors of its regions, once (05 R280). -/
def State.latchSides (s : State) (n : BitVec 32) : State :=
  match s.taskCfg n, (s.task n).sides with
  | some c, none => s.updTask n fun t => { t with sides := some (c.regions.foldl (fun x r => Tab.put x r (s.side r)) []) }
  | _, _ => s

/-! ## Tiles and folds -/

/-- What a logical tile runs: its physical tile, what it was armed with, and its configuration. -/
def State.runs (s : State) (lt : Nat) : Option (Nat × Armed × TileCfg) :=
  let pt := s.ptOf lt
  match (s.tile pt).running, (s.tile pt).cur with
  | some a, some b => some (pt, a, b.cfg)
  | _, _ => none

/-- The configuration of a fold of a running logical tile. -/
def State.foldCfg (s : State) (lt fold : Nat) : Option (Nat × Armed × TileCfg × FoldCfg) :=
  (s.runs lt).bind fun r => (r.2.2.folds[fold]?).map fun f => (r.1, r.2.1, r.2.2, f)

/-- A fold's run-time state. -/
def State.foldRt (s : State) (pt fold : Nat) : FoldRt := (s.tile pt).rt.getD fold {}
def State.updRt (s : State) (pt fold : Nat) (f : FoldRt → FoldRt) : State :=
  s.updTile pt fun t => { t with rt := listUpd t.rt fold f }

/-! ## Worms of an edge -/

/-- A release stamp and allowance list for a worm sent now: R is the send fret plus the first allowance (04 R199). -/
def State.stampOf (s : State) (allow : List Nat) : BitVec 24 := BitVec.ofNat 24 (s.now + allow.headD 0)

/-- The header of a scheduled worm: type 0x0 edge words, 0x1 credit returns (08 R427, R428). -/
def State.edgeHead (s : State) (wtype : BitVec 4) (cls : Bool) (hops : List (BitVec 5)) (chip lt : Nat) (task : BitVec 32)
    (allow : List Nat) (fold port count : Nat) : WormHead :=
  { vc := 0, cls := cls, poison := false, wtype := wtype, nextHop := 0, hops := hops, srcChip := s.fret.chip
    dstChip := BitVec.ofNat 10 chip, endpoint := lt, task := task, stamp := s.stampOf allow, allow := allow
    fold := fold, port := port, count := count, conn := 0, serial := 0, memAddr := 0, deadline := none }

/-- Words leave on an edge, marked where their data is poisoned (02 R106; 03 R126; 04 R199). -/
def State.sendWords (s : State) (lt : Nat) (task : BitVec 32) (e : EdgeOut) (words : List (List Byte)) (bad : Bool) : State :=
  s.emit (.inject lt ⟨{ s.edgeHead 0 e.cls e.hops e.chip e.lt task e.allow e.fold e.input words.length with poison := bad },
    words.flatten⟩)

/-- Credits return on an edge, one per word removed (03 R130, R132). -/
def State.sendCredits (s : State) (lt : Nat) (task : BitVec 32) (e : EdgeIn) (n : Nat) : State :=
  s.when (decide (0 < n)) fun s =>
    s.emit (.inject lt ⟨s.edgeHead 1 e.cls e.hops e.chip e.lt task e.allow e.fold e.port n, []⟩)

/-! ## Edge words -/

/-- Words of a queue released by the end of the previous fret (03 R125). -/
def State.ready (s : State) (q : List QWord) : Nat := (q.takeWhile fun w => decide (w.rel < s.now)).length

/-- Remove `n` words from an input's queue, with their credits returned (03 R124, R130). -/
def State.dropWords (s : State) (lt fold input n : Nat) : State :=
  match s.foldCfg lt fold with
  | none => s
  | some (pt, a, _, f) =>
    let s := s.updRt pt fold fun r => { r with queues := listUpd r.queues input (·.drop n), used := listUpd r.used input (· + n) }
    match (f.inputs[input]?).bind InputCfg.edge with
    | some e => s.sendCredits lt a.task e n
    | none => s

/-- The queue of an input of a running fold. -/
def State.edgeQueue (s : State) (lt fold input : Nat) : List QWord :=
  match s.foldCfg lt fold with
  | none => []
  | some (pt, _, _, _) => (s.foldRt pt fold).queues.getD input []

/-- The queue of an input serves a task: the tile runs it (05 R271). -/
def State.serves (s : State) (lt : Nat) (n : BitVec 32) : Bool := (s.runs lt).any fun r => decide (r.2.1.task = n)

/-- Pop `n` words released by the end of the previous fret; none where the queue holds fewer (03 R133, 05 R271). -/
def State.popWords (s : State) (lt fold input n : Nat) : Option (List QWord × State) :=
  let q := s.edgeQueue lt fold input
  if s.ready q < n then none else some (q.take n, s.dropWords lt fold input n)

end Sys2Proof.Machine
end

