-- ==== Sys2Proof/Machine/Channels.lean ====
section
/-! DEFINITION. Message channels: sending, notices, rings, arrival checks, consumption, closing (07; 09 R490 to R497). -/

namespace Sys2Proof.Machine

/-! ## Sizes -/

/-- Units of a record: ceil((16 + body) ÷ 64) (07 R370). -/
def recUnits (len : Nat) : Nat := ceilDiv (16 + len) 64

/-- Units of a ring, and its pool P = size ÷ 64 − 64 (07 R376). -/
def QueueSt.ringUnits (q : QueueSt) : Nat := q.size.toNat * 64
def QueueSt.poolUnits (q : QueueSt) : Nat := q.ringUnits - 64
def QueueSt.base (q : QueueSt) : Nat := q.baseHi.toNat * 2 ^ 32 + q.baseLo.toNat

/-- The ring lies in host memory (07 R356). -/
def QueueSt.hostRing (q : QueueSt) : Bool := q.kind = 3 || q.kind = 4

/-- The port of a host receiver or sender kind. -/
def rxPort (k : BitVec 3) : Option HostPort := if k = 3 then some .a else if k = 4 then some .b else none
def txPort (k : BitVec 3) : Option HostPort := if k = 1 then some .a else if k = 2 then some .b else none

/-- Senders, element bytes, elements, rounds and units per contribution of a chord queue (07 R397, R398). -/
def QueueSt.chordN (q : QueueSt) : Nat := q.senders.toNat + 1
def QueueSt.chordW (q : QueueSt) : Nat := if q.bf16 then 2 else 4
def QueueSt.chordE (q : QueueSt) : Nat := q.elems.toNat + 1
def QueueSt.chordD (q : QueueSt) : Nat := q.rounds.toNat + 1
def QueueSt.chordR (q : QueueSt) : Nat := recUnits (q.chordE * q.chordW)

/-! ## Notices (09 R490 to R493) -/

/-- Entries of a port's notice ring: 4 KiB units of 16 bytes (09 R491, R515). -/
def PcieSt.nqEntries (p : PcieSt) : Nat := p.nqSize.toNat * 256
def PcieSt.nqBase (p : PcieSt) : Nat := (p.nqHi.toNat * 2 ^ 32 + p.nqLo.toNat) / 4096 * 4096

/-- The bytes of a notice (09 R491). -/
def noticeBytes (type status detail : Nat) (lap : Bool) (n : Nat) (c : ConnSt) (x : Nat) : List Byte :=
  [BitVec.ofNat 8 type, BitVec.ofNat 8 status, BitVec.ofNat 8 detail, if lap then 0x80 else 0]
    ++ leBytes 2 n ++ [c.serial, BitVec.ofNat 8 c.state.code] ++ leBytes 4 x ++ leBytes 2 c.outst.toNat ++ leBytes 2 0

/-- Write a notice to a port's ring: nothing while the ring is disabled; discarded with overflow and attention where it is
full; vector 512 once between head writes (09 R490 to R493, R496). -/
def State.noticeTo (s : State) (port : HostPort) (type : Nat) (st : Status) (detail n x : Nat) : State :=
  let p := s.pcieOf port
  if !p.nqEnable then s
  else if p.nqEntries ≤ p.nqCount then (s.updPcie port fun p => { p with nqOverflow := true }).attnOn port .notice
  else
    let bs := noticeBytes type st.code detail p.nqLap n (s.conn n) x
    let s := s.emit (.dma port (p.nqBase + 16 * p.nqTail.toNat) bs false)
    let wrap := decide (p.nqEntries ≤ p.nqTail.toNat + 1)
    let s := s.updPcie port fun p =>
      { p with
        nqTail := if wrap then 0 else p.nqTail + 1
        nqLap := if wrap then !p.nqLap else p.nqLap
        nqCount := p.nqCount + 1
        vec512 := true }
    s.when (!p.vec512) fun s => s.emit (.msix port 512)

/-- A notice about connection `n` to its sender, where that is a host port (09 R490). -/
def State.notice (s : State) (n type : Nat) (st : Status) (detail x : Nat) : State :=
  match txPort (s.conn n).srcKind with
  | some p => s.noticeTo p type st detail n x
  | none => s

/-! ## Sending -/

/-- The hop count of a route entry, and its codes: code i in bits [5i+4:5i] of words 1 to 3 (08 R474). -/
def routeHops (e : RouteEnt) : Nat := (e.w0.extractLsb' 16 5).toNat
def routeCodes (e : RouteEnt) : List (BitVec 5) :=
  let v := e.w1.toNat + e.w2.toNat * 2 ^ 32 + e.w3.toNat * 2 ^ 64
  (List.range (routeHops e)).map fun i => BitVec.ofNat 5 (v / 2 ^ (5 * i))

/-- The hub with the message unit port of a partition's row: the outer column of its half (08 R436). -/
def unitHub (p : Nat) : Nat := hubAt (match partHalf p with | .west => 0 | .east => 15) (p % 8)

/-- The sender leg: along a hub's row into the exit ring; none from the exit ring itself; from the other ring into the spine at the entry's
row and across (08 R434, R435). The session engine, whose place in its spine the spec does not give, is taken to stand beside the exit ring
(log entry 65). -/
def State.senderLeg (s : State) (kind : BitVec 3) (ep : BitVec 14) (e : RouteEnt) : List (BitVec 5) :=
  let east := bit e.w0 30
  let fromCol := fun (x : Nat) => if east then runCodes 1 (16 - x) else runCodes 3 (x + 1)
  let enter : BitVec 5 := BitVec.ofNat 5 (0x18 + (e.w0.extractLsb' 0 3).toNat)
  match kind.toNat with
  | 1 | 3 => if east then enter :: runCodes 1 16 else []
  | 2 => if east then [] else enter :: runCodes 3 16
  | 4 => fromCol (hubCol (ltClus (ep.toNat / 8)))
  | 6 => fromCol (hubCol (unitHub (partOf (s.queue ep.toNat).base)))
  | _ => runCodes (if east then 1 else 3) 1

/-- A VC1 route to a chip exists and fits 16 codes; the chip itself needs no entry (08 R435, R474). -/
def State.routeOk (s : State) (kind : BitVec 3) (ep : BitVec 14) (chip : BitVec 10) : Bool :=
  let e := s.route chip.toNat
  decide (chip = s.fret.chip) ||
    (bit e.w0 31 && decide (1 ≤ routeHops e) && decide (routeHops e ≤ 16)
      && decide ((s.senderLeg kind ep e).length + routeHops e ≤ 16))

/-- The route of a connection's worms: the class it starts with, and the hop codes of its sender leg and its entry (08 R434, R435). -/
def State.routeOf (s : State) (n : Nat) : Bool × List (BitVec 5) :=
  let c := s.conn n
  let e := s.route c.chip.toNat
  if c.chip = s.fret.chip then (false, []) else (bit e.w0 29, s.senderLeg c.srcKind c.srcEp e ++ routeCodes e)

/-- R378: a send of `r` units is allowed. -/
def ConnSt.allows (c : ConnSt) (r : Nat) : Bool :=
  c.nak || (decide (c.outst.toNat < c.quota.toNat) && decide (c.outst.toNat + r ≤ c.grant.toNat))

/-- Send one message now: the sequence number, the units and the count (07 R372, R378, R409). -/
def State.transmit (s : State) (n : Nat) (w : Waiting) : State :=
  let c := s.conn n
  let r := recUnits w.body.length
  let seq : BitVec 32 := if w.kind = 3 then BitVec.ofNat 32 w.round else c.seq
  let s := s.emit (.message c.chip (s.routeOf n) w.kind ⟨s.fret.chip, BitVec.ofNat 12 n, c.serial, Fin.ofNat 4096 c.queue.toNat, seq, w.body, false,
    decide (w.kind = 3), []⟩)
  s.updConn n fun c =>
    { c with
      seq := c.seq + 1
      sent := satAdd c.sent 1
      units := Tab.put c.units seq.toNat r
      outst := if c.nak then 0 else c.outst + BitVec.ofNat 16 r
      sentUnits := if c.nak then c.sentUnits else c.sentUnits + BitVec.ofNat 32 r }

/-- A result of the session engine waits for a connection (06 R343). -/
def State.resultFor (s : State) (n : Nat) : Bool := s.sess.results.any fun e => decide (e.1 = n)

/-- The CLOSE marker follows the last accepted message of a DRAINING connection (07 R389). -/
def State.markIfDone (s : State) (n : Nat) : State :=
  let c := s.conn n
  if c.state = .draining ∧ c.waiting = [] ∧ s.resultFor n = false ∧ c.marker = none then
    (s.emit (.closeMarker c.chip (s.routeOf n) c.queue (BitVec.ofNat 12 n) c.serial)).updConn n fun c => { c with marker := some s.now }
  else s

/-- A refusal at the sender (07 R379, R394, R406, R410). -/
def State.refuse (s : State) (n : Nat) (st : Status) (detail : BitVec 4) : State :=
  s.updConn n fun c =>
    { c with refused := satAdd c.refused 1, lastStatus := BitVec.ofNat 8 st.code, detail := detail }

/-- Send the waiting messages that R378 now allows, in order; one larger than the grant is refused (07 R379). The fuel is
the number waiting. -/
def State.flushConn : Nat → State → Nat → State
  | 0, s, n => s.markIfDone n
  | fuel + 1, s, n =>
    let c := s.conn n
    match c.waiting with
    | [] => s.markIfDone n
    | w :: ws =>
      if (c.state = .opened ∨ c.state = .draining) ∧ c.nak = false ∧ c.grant.toNat < recUnits w.body.length then
        State.flushConn fuel ((s.updConn n fun c => { c with waiting := ws }).refuse n .nakFull 1) n
      else if (c.state = .opened ∨ c.state = .draining) ∧ c.allows (recUnits w.body.length) then
        State.flushConn fuel ((s.updConn n fun c => { c with waiting := ws }).transmit n w) n
      else s

def State.flush (s : State) (n : Nat) : State := State.flushConn (s.conn n).waiting.length s n

/-- Every waiting message refused with NAK_STALE, detail 0x5 (07 R394). -/
def State.refuseWaiting (s : State) (n : Nat) : State :=
  let k := (s.conn n).waiting.length
  let s := s.updConn n fun c => { c with waiting := [] }
  s.each (List.range k) fun s _ => s.refuse n .nakStale 5

/-- The connection's sender is the one of a kind and, for a tile fold or a chord queue, an endpoint; kinds 0 and 7 are no
senders (07 R364, R407). -/
def ConnSt.sentBy (c : ConnSt) (kind : BitVec 3) (ep : BitVec 14) : Bool :=
  c.srcKind = kind && kind ≠ 0 && kind ≠ 7 && ((kind ≠ 4 && kind ≠ 6) || c.srcEp = ep)

/-- A send by a sender of the device (07 R364, R378, R379, R385, R394). -/
def State.sendOn (s : State) (n : Nat) (kind : BitVec 3) (ep : BitVec 14) (w : Waiting) : State :=
  let c := s.conn n
  let r := recUnits w.body.length
  if !c.sentBy kind ep then s.refuse n .nakStale 0xA
  else match c.state with
    | .opening => s.updConn n fun c => { c with waiting := c.waiting ++ [w] }
    | .opened =>
      if c.nak then s.transmit n w
      else if c.grant.toNat < r then s.refuse n .nakFull 1
      else if c.waiting ≠ [] ∨ !c.allows r then s.updConn n fun c => { c with waiting := c.waiting ++ [w] }
      else s.transmit n w
    | _ => s.refuse n .nakStale 5

/-- MESSAGE_SEND: a sender inside the device, the MC, a tile fold, the session engine or a chord queue, sends a message of 1
to 4,096 bytes; a host port sends through its window of BAR4 alone, and any other sender is refused (07 R364, R378, R394). -/
def execMessageSend (c : ConnN) (kind : BitVec 3) (endpoint : BitVec 14) (body : List Byte) (s : State) :
    Host.Outcome State Fault Refusal :=
  if body.length = 0 ∨ 4096 < body.length then .next s
  else if (txPort kind).isSome then .next (s.refuse c .nakStale 0xA)
  else .next (s.sendOn c kind endpoint ⟨body, 1, 0⟩)

/-- The contributions of a round in ascending sender index, when every index has contributed (07 R400). -/
def QueueSt.roundBodies (q : QueueSt) : Option (List (List Byte)) :=
  (List.range q.chordN).mapM fun i =>
    (q.bodies.find? fun b => decide (b.index = i) && decide (b.round = q.round)).map (·.body)

/-- The units of a message that its sender holds back for a connection outside its list: a result of the session engine (06
R343) or the sum of a complete round (07 R401). -/
def State.heldUnits (s : State) (n : Nat) : List Nat :=
  (if s.resultFor n then [recUnits 128] else []) ++
    (s.mch.queues.filter fun e => decide (e.2.kind = 6) && decide (e.2.state = .bound) && decide (e.2.out.toNat = n)
      && (s.conn n).sentBy 6 (BitVec.ofNat 14 e.1) && e.2.roundBodies.isSome).map fun e => e.2.chordR

/-- One fret of waiting under R378 for a connection with a message waiting; a host sender waits in the host (07 R378,
R409; 09 R488). -/
def stallTick (held : List Nat) (c : ConnSt) : ConnSt :=
  if (c.state = .opened ∨ c.state = .draining) ∧ (c.waiting ≠ [] ∨ held.any fun r => !c.allows r) then
    { c with stall := satAdd c.stall 1 }
  else c

def State.stallFret (s : State) : State :=
  s.modMch fun m => { m with conns := m.conns.map fun e => (e.1, stallTick (s.heldUnits e.1) e.2) }

/-! ## Opening and closing at the sender -/

/-- Open a CLOSED connection: serial + 1, counters cleared, OPEN sent; it fails at once where no route serves (07 R366,
R394; 08 R435, R474). -/
def State.openConn (s : State) (n : Nat) : State :=
  if (s.conn n).state ≠ .closed then s
  else
    let s := s.updConn n fun c =>
      { c with
        state := .opening, serial := c.serial + 1, seq := 0, sent := 0, stall := 0, naks := 0, refused := 0, outst := 0
        sentUnits := 0, units := [], waiting := [], marker := none, cuts := 0, openedAt := s.ticks }
    let c := s.conn n
    if s.routeOk c.srcKind c.srcEp c.chip then
      s.emit (.opening c.chip (s.routeOf n) ⟨s.fret.chip, BitVec.ofNat 12 n, c.serial, Fin.ofNat 4096 c.queue.toNat, c.nak, c.grant,
        c.index.toNat, false⟩)
    else
      let s := s.updConn n fun c =>
        { c with state := .closed, lastStatus := BitVec.ofNat 8 Status.routeCut.code, detail := 8 }
      s.notice n 4 .routeCut 8 0

/-- Close: DRAINING from OPEN, CLOSED from CLOSED_BY_PEER; another state does not allow it (07 R389, R394, R406). -/
def State.closeConn (s : State) (n : Nat) : State :=
  match (s.conn n).state with
  | .opened => (s.updConn n fun c => { c with state := .draining, cuts := 0, marker := none }).flush n
  | .closedByPeer => s.updConn n fun c => { c with state := .closed }
  | _ => s

/-- A reset of the sender: messages not yet sent are discarded and the connection drains, one that is still opening too: its
marker follows its OPEN on the same route (07 R389, R396). -/
def State.closeByReset (s : State) (n : Nat) : State :=
  let s := s.updConn n fun c => { c with waiting := [] }
  match (s.conn n).state with
  | .opening => (s.updConn n fun c => { c with state := .draining, cuts := 0, marker := none }).flush n
  | .draining => s.flush n
  | _ => s.closeConn n

/-- Connections whose sender is a fold of a tile in partition p close (07 R396). -/
def State.closeFolds (s : State) (p : Nat) : State :=
  s.each (s.mch.conns.filter fun e => decide (e.2.srcKind = 4) && decide (ltPart (e.2.srcEp.toNat / 8) = p)) fun s e =>
    s.closeByReset e.1

/-- OPEN_ACK_RECEIVE (07 R369, R394; 09 R490). -/
def execOpenAckReceive (r : OpenAck) (s : State) : Host.Outcome State Fault Refusal :=
  let n := r.conn.val
  let c := s.conn n
  let cur := decide (r.serial = c.serial)
  if c.state = .opening ∧ cur then
    if r.status = .ok then
      let s := s.updConn n fun c => { c with state := .opened, grant := r.grant, outst := 0 }
      .next ((s.notice n 4 .ok 0 r.grant.toNat).flush n)
    else
      let s := s.refuseWaiting n
      let s := s.updConn n fun c =>
        { c with state := .closed, lastStatus := BitVec.ofNat 8 r.status.code, detail := r.detail }
      .next (s.notice n 4 r.status r.detail.toNat 0)
  else if cur ∧ (c.state = .opened ∨ c.state = .draining) then .next s
  else if r.status = .ok then
    .next (s.emit (.closeMarker c.chip (s.routeOf n) c.queue (BitVec.ofNat 12 n) r.serial))
  else .next s

/-- OPEN_TIMEOUT: no answer within 2^20 frets (07 R369). -/
def execOpenTimeout (c : ConnN) (s : State) : Host.Outcome State Fault Refusal :=
  let n := c.val
  if (s.conn n).state = .opening ∧ (s.conn n).openedAt + 2 ^ 20 ≤ s.ticks then
    let s := s.refuseWaiting n
    let s := s.updConn n fun c =>
      { c with state := .closed, lastStatus := BitVec.ofNat 8 Status.routeCut.code, detail := 0, timeout := true }
    .next (s.notice n 7 .routeCut 0 0)
  else .next s

/-- MSG_CREDIT_RETURN_RECEIVE: O = sent total − returned total, modulo 2^32 (07 R381, R394). -/
def execMsgCreditReturnReceive (c : ConnN) (serial : BitVec 8) (total : BitVec 32) (s : State) :
    Host.Outcome State Fault Refusal :=
  let n := c.val
  let x := s.conn n
  if (x.state = .opened ∨ x.state = .draining) ∧ x.serial = serial ∧ x.nak = false then
    let o : BitVec 16 := (x.sentUnits - total).setWidth 16
    let s := s.updConn n fun c => { c with outst := o }
    let s := s.when (decide (o ≠ x.outst)) fun s => s.notice n 1 .ok 0 total.toNat
    .next (s.flush n)
  else .next s

/-- NAK_STALE or a STALE notice: CLOSED_BY_PEER from OPEN, CLOSED from DRAINING, the credit forfeited (07 R393). -/
def State.peerGone (s : State) (n : Nat) : State :=
  match (s.conn n).state with
  | .opened => (s.updConn n fun c => { c with state := .closedByPeer, outst := 0 }).refuseWaiting n
  | .draining => s.updConn n fun c => { c with state := .closed, outst := 0, waiting := [] }
  | _ => s

/-- NAK_NOTICE_RECEIVE (07 R388, R393, R394, R410; 09 R490). -/
def execNakNoticeReceive (m : NakNotice) (s : State) : Host.Outcome State Fault Refusal :=
  let n := m.conn.val
  let c := s.conn n
  if c.serial ≠ m.serial then .next s
  else if c.state = .opening ∧ m.status = .routeCut then
    let s := s.refuseWaiting n
    let s := s.updConn n fun c =>
      { c with state := .closed, naks := satAdd c.naks 1, lastStatus := BitVec.ofNat 8 m.status.code, detail := m.detail }
    .next (s.notice n 4 .routeCut m.detail.toNat 0)
  else
    let s := s.updConn n fun c =>
      { c with naks := satAdd c.naks 1, lastStatus := BitVec.ofNat 8 m.status.code, detail := m.detail }
    let back := decide (m.status = .nakFull ∨ m.status = .nakFenced ∨ m.status = .routeCut)
    let live := decide (c.state = .opened ∨ c.state = .draining)
    let r := Tab.get 0 c.units m.seq.toNat
    let s := s.when (back && live && !c.nak) fun s => s.updConn n fun c =>
      { c with
        outst := BitVec.ofNat 16 (c.outst.toNat - r), sentUnits := c.sentUnits - BitVec.ofNat 32 r
        units := Tab.del c.units m.seq.toNat }
    let s := s.when (decide (m.status = .nakStale)) (·.peerGone n)
    let s := s.notice n 2 m.status m.detail.toNat m.seq.toNat
    .next (s.flush n)

/-- STALE_NOTICE_RECEIVE (07 R393; 09 R490). -/
def execStaleNoticeReceive (c : ConnN) (serial : BitVec 8) (s : State) : Host.Outcome State Fault Refusal :=
  let x := s.conn c
  if x.serial = serial ∧ (x.state = .opened ∨ x.state = .draining) then
    .next ((s.peerGone c).notice c 6 .nakStale 5 0)
  else .next s

/-- CLOSE_ACK_RECEIVE (07 R391, R394). -/
def execCloseAckReceive (c : ConnN) (serial : BitVec 8) (s : State) : Host.Outcome State Fault Refusal :=
  let x := s.conn c
  if x.serial = serial ∧ x.state = .draining then
    .next ((s.updConn c fun c => { c with state := .closed }).notice c 5 .ok 0 0)
  else .next s

/-- CLOSE_MARKER_RESEND: from the second fret with bits [9:0] zero after the last sending; after 16 cuts CLOSED with
close_lost (07 R391). -/
def execCloseMarkerResend (c : ConnN) (s : State) : Host.Outcome State Fault Refusal :=
  let n := c.val
  let x := s.conn n
  match x.marker with
  | none => .next s
  | some t =>
    if x.state = .draining ∧ s.now % 1024 = 0 ∧ (t / 1024 + 2) * 1024 ≤ s.now then
      let s := s.emit (.closeMarker x.chip (s.routeOf n) x.queue (BitVec.ofNat 12 n) x.serial)
      let s := s.updConn n fun c => { c with cuts := c.cuts + 1, marker := some s.now }
      if x.cuts + 1 < 16 then .next s
      else .next ((s.updConn n fun c => { c with state := .closed, closeLost := true }).notice n 8 .routeCut 8 0)
    else .next s

/-! ## Rings -/

/-- A record header (07 R371). -/
def recHeader (r : RecSt) : List Byte :=
  [BitVec.ofNat 8 r.kind, BitVec.ofNat 8 r.units] ++ leBytes 2 (if r.kind = 2 then 0 else r.body.length - 1)
    ++ leBytes 2 r.conn.toNat ++ leBytes 2 r.chip.toNat ++ leBytes 4 r.seq.toNat
    ++ [BitVec.ofNat 8 (r.lap.toNat + 2 * r.gap.toNat), 0, 0, 0]

/-- The bytes of a record after its header: the body, zero padded to whole units; nothing follows a PAD's header. -/
def recBody (r : RecSt) : List Byte :=
  if r.kind = 2 then [] else r.body ++ List.replicate (r.units * 64 - 16 - r.body.length) 0

/-- Write a record's bytes: the body before the header, by DMA to host memory or to device memory (07 R357, R375; 09
R494). A chord queue's ring holds no records. -/
def State.storeRecord (s : State) (q : QueueSt) (r : RecSt) : State :=
  let a := q.base + r.unit * 64
  match rxPort q.kind with
  | some p =>
    let s := s.when (decide (recBody r ≠ [])) fun s => s.emit (.dma p (a + 16) (recBody r) false)
    s.emit (.dma p a (recHeader r) false)
  | none => if q.kind = 6 then s else (s.hbmWrite (a + 16) (recBody r) r.wrong).hbmWrite a (recHeader r) r.wrong

/-- One record at the tail; the lap inverts where the tail wraps to unit 0 (07 R375, R414). -/
def State.appendRec (s : State) (n : Nat) (r : RecSt) : State :=
  let q := s.queue n
  let r := { r with unit := q.tail.toNat, lap := q.tailLap }
  let t := q.tail.toNat + r.units
  let wrap := decide (q.ringUnits ≤ t)
  let s := s.storeRecord q r
  s.updQueue n fun q =>
    { q with recs := q.recs ++ [r], tail := if wrap then 0 else BitVec.ofNat 18 t
             tailLap := if wrap then !q.tailLap else q.tailLap }

/-- Place a record whole: a PAD first where it does not fit before the ring's end (07 R373, R383); the host receiver's
interrupt where it is armed (09 R496). -/
def State.placeRec (s : State) (n : Nat) (r : RecSt) : State :=
  let q := s.queue n
  let left := q.ringUnits - q.tail.toNat
  let s := s.when (decide (left < r.units)) fun s =>
    s.appendRec n { kind := 2, unit := 0, lap := false, units := left, body := [], conn := 0, chip := 0, seq := 0
                    gap := false, inb := none, placed := s.now }
  let s := s.appendRec n r
  let s := s.updQueue n fun q => { q with placed := satAdd q.placed 1 }
  match rxPort q.kind, q.armedAt with
  | some p, some _ =>
    (s.emit (.msix p (q.ep.toNat * 8 + q.prio.toNat))).updQueue n fun q => { q with armedAt := none }
  | _, _ => s

/-- The key of an inbound record (07 R365). -/
def InbSt.is (x : InbSt) (chip : BitVec 10) (conn : BitVec 12) : Bool := x.chip = chip && x.conn = conn

/-- The partition a queue's receiver lies in, for a tile fold (07 R387, R395). -/
def QueueSt.rxPart (q : QueueSt) : Option Nat := if q.kind = 1 then some (ltPart (q.ep.toNat / 8)) else none
def QueueSt.ringPart (q : QueueSt) : Option Nat := if q.hostRing then none else some (partOf q.base)

/-- The queue is FENCED, or its receiver's or ring's partition is (07 R387, check 2). -/
def State.queueFenced (s : State) (q : QueueSt) : Bool :=
  decide (q.state = .fenced) ||
    (decide (q.state = .bound) && (q.rxPart.toList ++ q.ringPart.toList).any fun p => s.partInReset p)

/-- R552, step 1: admissions of queues of tile folds stop while the chip drains or is retired. -/
def State.retiring (s : State) : Bool := decide (s.relx.retState ≠ .none)

/-- The checks of R387 that an OPEN and a message share: poison, retirement, fence, UNBOUND. -/
def State.arriveCheck (s : State) (poisoned : Bool) (q : QueueSt) : Option (Status × BitVec 4) :=
  if poisoned then some (.routeCut, 8)
  else if s.retiring ∧ q.kind = 1 ∧ q.state ≠ .unbound then some (.nakFenced, 7)
  else if s.queueFenced q then some (.nakFenced, 6)
  else if q.state = .unbound then some (.nakStale, 5)
  else none

/-- Arrivals answered NAK_STALE or NAK_FENCED are counted (07 R416). -/
def State.countStale (s : State) (n : Nat) (st : Status) : State :=
  s.when (decide (st = .nakStale ∨ st = .nakFenced)) fun s => s.updQueue n fun q => { q with stale := satAdd q.stale 1 }

/-- Units of a connection's unread records in a queue. -/
def QueueSt.unread (q : QueueSt) (chip : BitVec 10) (conn : BitVec 12) (serial : BitVec 8) : Nat :=
  (q.recs.filter fun r => decide (r.inb = some (chip.toNat, conn.toNat, serial.toNat))).foldl (fun a r => a + r.units) 0

/-- Close an inbound record: K lowered by G and raised by its unread units in credit mode, and the record deleted (07
R390). -/
def State.dropInb (s : State) (x : InbSt) : State :=
  let s := s.when (!x.nak) fun s => s.updQueue x.queue fun q =>
    { q with charge := BitVec.ofNat 18 (q.charge.toNat - x.grant + q.unread x.chip x.conn x.serial) }
  s.setInb fun l => l.filter fun y => !(y.is x.chip x.conn)

/-- The inbound record of a source chip and connection, if any. -/
def State.inbOf (s : State) (chip : BitVec 10) (conn : BitVec 12) : Option InbSt :=
  s.mch.inb.find? fun x => x.is chip conn

/-- OPEN_RECEIVE: the checks of R387, the replacement of R368, the inbound record and the answer (07 R365 to R368, R398,
R404). -/
def execOpenReceive (r : OpenReq) (s : State) : Host.Outcome State Fault Refusal :=
  let n := r.queue.val
  let answer := fun (s : State) (st : Status) (d : BitVec 4) (g : BitVec 16) (round : Nat) =>
    s.emit (.openAnswer r.srcChip r.conn r.serial st d g round)
  match s.arriveCheck r.poisoned (s.queue n) with
  | some (st, d) => .next ((answer s st d 0 0).countStale n st)
  | none =>
    let old := s.inbOf r.srcChip r.conn
    let s0 : State := match old with | some x => s.dropInb x | none => s
    let q := s0.queue n
    let chord := decide (q.kind = 6)
    let g : Nat := if r.nak then 0 else if chord then q.chordD * q.chordR else r.grant.toNat
    let heldIdx := s0.mch.inb.any fun x => decide (x.queue = n) && decide (x.index = r.index)
    if 4096 ≤ s0.mch.inb.length then .next (answer s .nakFull 2 0 0)
    else if chord ∧ (r.nak ∨ q.chordN ≤ r.index ∨ heldIdx) then .next (answer s .nakFull 3 0 0)
    else if r.nak = false ∧ q.poolUnits < q.charge.toNat + g then .next (answer s .nakFull 1 0 0)
    else
      let s := s0.setInb fun l => l ++
        [{ chip := r.srcChip, conn := r.conn, serial := r.serial, queue := n, nak := r.nak, grant := g, index := r.index }]
      let s := s.updQueue n fun q => { q with charge := q.charge + BitVec.ofNat 18 g }
      .next (answer s .ok 0 (BitVec.ofNat 16 g) (Tab.get 0 q.filled r.index))

/-- A NAK notice answers an arriving message (07 R388). -/
def State.nakMsg (s : State) (m : Msg) (st : Status) (d : BitVec 4) : State :=
  (s.emit (.nak m.srcChip m.conn m.serial m.seq st d)).countStale m.queue st

/-- A message that has come whole is checked (R387), then placed, or joined to its round (07 R386, R399). -/
def State.takeMsg (s : State) (m : Msg) : State :=
  let n := m.queue.val
  let q := s.queue n
  match s.arriveCheck m.poisoned q with
  | some (st, d) => s.nakMsg m st d
  | none =>
    match s.mch.inb.find? fun x => x.is m.srcChip m.conn && x.serial = m.serial with
    | none => s.nakMsg m .nakStale 5
    | some x =>
      let r := recUnits m.body.length
      let setX := fun (s : State) (f : InbSt → InbSt) =>
        s.setInb fun l => l.map fun y => if y.is m.srcChip m.conn then f y else y
      if q.kind = 6 then
        if m.body.length ≠ q.chordE * q.chordW then s.nakMsg m .nakFull 4
        else
          let k := Tab.get 0 q.filled x.index
          s.updQueue n fun q =>
            { q with
              filled := Tab.put q.filled x.index ((k + 1) % 2 ^ 32)
              bodies := q.bodies ++ [⟨x.index, k, m.body, m.srcChip.toNat, m.conn.toNat, m.serial.toNat⟩] }
      else if x.nak ∧ q.poolUnits < q.charge.toNat + r then
        let s := s.updQueue n fun q => { q with dropped := satAdd q.dropped 1 }
        (setX s fun y => { y with gap := true }).nakMsg m .nakFull 1
      else
        let r0 : RecSt :=
          { kind := if m.sum then 3 else 1, unit := 0, lap := false, units := r, body := m.body, conn := m.conn, chip := m.srcChip, seq := m.seq
            gap := x.gap, inb := some (m.srcChip.toNat, m.conn.toNat, m.serial.toNat), placed := s.now, wrong := m.wrong }
        let s := s.placeRec n r0
        let s := s.when x.nak fun s => s.updQueue n fun q => { q with charge := q.charge + BitVec.ofNat 18 r }
        setX s fun y => { y with gap := false }

/-- The spine half whose message unit takes a queue's messages: that of its ring's partition, or of its host port (07 R374; 08 R436). -/
def QueueSt.half (q : QueueSt) : Half :=
  match rxPort q.kind with
  | some .a => .west
  | some .b => .east
  | none => partHalf (partOf q.base)

/-- MESSAGE_ARRIVE: a message has come whole and gives its assembly slot back as it is placed; with none held for it and all 64 of its
message unit held by others, its worm waits on VC1 (07 R374, R386, R387, R399). -/
def execMessageArrive (m : Msg) (s : State) : Host.Outcome State Fault Refusal :=
  let h := (s.queue m.queue).half
  let slots := s.mch.slots.get h
  let mine : AsmSlot := ⟨m.srcChip, m.conn, m.serial, m.seq⟩
  if mine ∉ slots ∧ 64 ≤ slots.length then .next s
  else .next ((s.modMch fun x => { x with slots := x.slots.set h (slots.erase mine) }).takeMsg m)

/-! ## Consuming -/

/-- Records without a PAD at their head: a reader skips it (07 R383). -/
def skipPad : List RecSt → List RecSt
  | [] => []
  | r :: rs => if r.kind = 2 then rs else r :: rs

/-- The next record of a ring, PADs skipped. -/
def QueueSt.nextRec (q : QueueSt) : Option RecSt := (skipPad q.recs).head?

/-- The head pointer of the records left: the first of them, or the tail. -/
def QueueSt.rehead (q : QueueSt) : QueueSt :=
  match q.recs with
  | r :: _ => { q with head := BitVec.ofNat 18 r.unit, headLap := r.lap }
  | [] => { q with head := q.tail, headLap := q.tailLap }

/-- Count the consumption of a record: credit for an open credit-mode connection, else K lowered (07 R377, R381, R390). -/
def State.creditRec (s : State) (n : Nat) (r : RecSt) : State :=
  let mine := fun (y : InbSt) => !y.nak
    && decide (r.inb = some (y.chip.toNat, y.conn.toNat, y.serial.toNat))
  if s.mch.inb.any mine then
    s.setInb fun l => l.map fun y =>
      if mine y then
        { y with total := y.total + BitVec.ofNat 32 r.units, since := if y.pend = 0 then s.now else y.since
                 pend := y.pend + r.units }
      else y
  else s.updQueue n fun q => { q with charge := BitVec.ofNat 18 (q.charge.toNat - r.units) }

/-- Consume the record at the head of a queue (07 R381, R386, R395). -/
def State.consumeHead (s : State) (n : Nat) : State :=
  match (s.queue n).nextRec with
  | none => s
  | some r => (s.updQueue n fun q => QueueSt.rehead { q with recs := skipPad (skipPad q.recs).tail }).creditRec n r

/-- The n-th inbound record. -/
def State.inbAt (s : State) (n : Nat) : Option InbSt := s.mch.inb[n]?

/-- CREDIT_RETURN_SEND: consumed units reach ceil(G ÷ 4), or 256 frets have passed (07 R381). -/
def execCreditReturnSend (n : Nat) (cut : Bool) (s : State) : Host.Outcome State Fault Refusal :=
  match s.inbAt n with
  | none => .next s
  | some x =>
    if x.nak = false ∧ 0 < x.pend ∧ (ceilDiv x.grant 4 ≤ x.pend ∨ x.since + 256 ≤ s.now) then
      let s := s.emit (.creditReturn x.chip x.conn x.serial x.total)
      .next (s.setInb fun l => listUpd l n fun y => { y with pend := 0, cut := cut })
    else .next s

/-- CREDIT_RETURN_RESEND: after a cut, the current total again at a fret with bits [9:0] zero (07 R382). -/
def execCreditReturnResend (n : Nat) (cut : Bool) (s : State) : Host.Outcome State Fault Refusal :=
  match s.inbAt n with
  | none => .next s
  | some x =>
    if x.cut ∧ s.now % 1024 = 0 then
      let s := s.emit (.creditReturn x.chip x.conn x.serial x.total)
      .next (s.setInb fun l => listUpd l n fun y => { y with pend := 0, cut := cut })
    else .next s

/-- CLOSE_MARKER_RECEIVE: the inbound record of the source chip, connection and serial is dropped, whichever queue the marker
names; with none, only the answer (07 R390, R391). -/
def execCloseMarkerReceive (srcChip : BitVec 10) (conn : BitVec 12) (serial : BitVec 8) (_q : QueueN) (s : State) :
    Host.Outcome State Fault Refusal :=
  let mine := fun (x : InbSt) => x.is srcChip conn && x.serial = serial
  let s : State := match s.mch.inb.find? mine with
    | some x => s.dropInb x
    | none => s
  .next (s.emit (.closeAck srcChip conn serial))

/-! ## Binding -/

/-- The kind and endpoint exist (07 R356, R411). -/
def QueueSt.endpointOk (q : QueueSt) : Bool :=
  match q.kind.toNat with
  | 1 => true
  | 2 | 5 | 6 => decide (q.ep = 0)
  | 3 | 4 => decide (q.ep.toNat < 64)
  | _ => false

/-- Two queues serve one receiver (07 R360). -/
def sameReceiver (x y : QueueSt) : Bool := x.kind = y.kind && x.ep = y.ep && (x.kind ≠ 1 || x.input = y.input)

/-- The base and size meet R357, and R397 for a chord queue; the ring lies in populated memory of one partition. -/
def QueueSt.ringOk (q : QueueSt) : Bool :=
  let bytes := q.size.toNat * 4096
  decide (4 ≤ q.size.toNat) && decide (q.size.toNat ≤ 4096) && decide (q.base % 4096 = 0)
    && (q.hostRing || populatedRange q.base bytes)
    && (q.kind ≠ 6 || (decide (2 ≤ q.chordN) && decide (q.chordE ≤ (if q.bf16 then 2048 else 1024))
      && decide ((q.chordD * q.chordN * q.chordR + 64) * 64 ≤ bytes)))

/-- A chord queue is a receiver of its own (07 R356): its number tells it apart. -/
def State.bindMates (s : State) (n : Nat) (q : QueueSt) : List QueueSt :=
  (s.mch.queues.filter fun e => decide (e.1 ≠ n) && decide (e.2.state ≠ .unbound) && decide (q.kind ≠ 6)
    && sameReceiver q e.2).map (·.2)

/-- Every condition of R411. -/
def State.bindOk (s : State) (n : Nat) : Bool :=
  let q := s.queue n
  let mates := s.bindMates n q
  q.endpointOk && decide (mates.length < 8) && mates.all (fun m => decide (m.prio ≠ q.prio) && m.sel == q.sel)
    && q.ringOk && (match q.ringPart with | some p => !s.parked p | none => true)

/-- BIND; a queue that joins a receiver takes the receiver's place in its rotation (07 R361, R395, R411, R416; 09 R497). -/
def State.bindQueue (s : State) (n : Nat) : State :=
  if (s.queue n).state ≠ .unbound then s
  else if s.bindOk n then
    let last := ((s.bindMates n (s.queue n)).head?.map (·.lastPrio)).getD 7
    s.updQueue n fun q =>
      { q with
        state := .bound, head := 0, tail := 0, headLap := true, tailLap := true, charge := 0, round := 0, recs := []
        filled := [], bodies := [], placed := 0, dropped := 0, stale := 0, lastPrio := last, armedAt := some 0 }
  else s.updQueue n fun q => { q with bindErr := true }

/-- The queue becomes UNBOUND: unread records discarded, inbound records deleted, a STALE notice to each (07 R392). -/
def State.unbindQueue (s : State) (n : Nat) : State :=
  if (s.queue n).state = .unbound then s
  else
    let mine := s.mch.inb.filter fun x => decide (x.queue = n)
    let s := s.each mine fun s x => s.emit (.stale x.chip x.conn x.serial)
    let s := s.setInb fun l => l.filter fun x => decide (x.queue ≠ n)
    s.updQueue n fun q =>
      { q with state := .unbound, recs := [], bodies := [], filled := [], charge := 0, head := q.tail, headLap := q.tailLap }

/-- A partition is fenced: queues whose receiver or ring it holds become FENCED (07 R395). -/
def State.fenceQueues (s : State) (p : Nat) : State :=
  s.modMch fun m =>
    { m with queues := m.queues.map fun e =>
        if e.2.state = .bound ∧ (e.2.rxPart = some p ∨ e.2.ringPart = some p) then (e.1, { e.2 with state := .fenced }) else e }

/-- A partition's reset completes: queues of its folds become UNBOUND; others with rings in it BOUND, unless the receiver's
partition is fenced still (07 R395, R396). -/
def State.unfenceQueues (s : State) (p : Nat) : State :=
  let mine := s.mch.queues.filter fun e => decide (e.2.state ≠ .unbound)
  s.each mine fun s e =>
    if e.2.rxPart = some p then s.unbindQueue e.1
    else if e.2.state = .fenced ∧ e.2.ringPart = some p ∧ (e.2.rxPart.map s.partInReset).getD false = false then
      s.updQueue e.1 fun q => { q with state := .bound }
    else s

/-! ## Chord queues -/

/-- One element of a sum: FP32 additions in ascending sender index (07 R400). -/
def chordElem (bf16 : Bool) (vs : List Nat) : Nat :=
  let w := fun v => if bf16 then enc32 (decodeNum .bf16 v) else BitVec.ofNat 32 v
  match vs with
  | [] => 0
  | v :: rest =>
    let t := rest.foldl (fun a x => add32 a (w x)) (w v)
    if bf16 then (convNum .bf16 .nearest (dec32 t)).1 else t.toNat

/-- The sum of a round's contributions, given in ascending sender index (07 R400). -/
def chordSum (q : QueueSt) (bodies : List (List Byte)) : List Byte :=
  let w := q.chordW
  (List.range q.chordE).flatMap fun e => leBytes w (chordElem q.bf16 (bodies.map fun b => leAt b (e * w) w))

/-- CHORD_SUM_RELEASE: the oldest complete round's sum leaves on the output connection once R378 allows it, is refused there
where the chord queue is not its sender or the grant is too small (R364, R379), or is discarded where that connection is not
OPEN; the round is freed and its units credited to the connections that contributed (07 R400 to R402). -/
def execChordSumRelease (q : QueueN) (s : State) : Host.Outcome State Fault Refusal :=
  let n := q.val
  let x := s.queue n
  match (if x.kind = 6 ∧ x.state = .bound then x.roundBodies else none) with
  | none => .next s
  | some bs =>
    let c := s.conn x.out.toNat
    let body := chordSum x bs
    if c.state = .opened ∧ c.sentBy 6 (BitVec.ofNat 14 n) ∧ !(c.waiting.isEmpty && c.allows (recUnits body.length))
        ∧ (c.nak ∨ recUnits body.length ≤ c.grant.toNat) then
      .next s
    else
      let s := if c.state = .opened then s.sendOn x.out.toNat 6 (BitVec.ofNat 14 n) ⟨body, 3, x.round⟩
        else s.updQueue n fun q => { q with dropped := satAdd q.dropped 1 }
      let s := s.updQueue n fun q =>
        { q with round := (q.round + 1) % 2 ^ 32, placed := satAdd q.placed 1
                 bodies := q.bodies.filter fun b => decide (b.round ≠ x.round) }
      let mine := fun (y : InbSt) => x.bodies.any fun b => decide (b.round = x.round)
        && decide (b.src = (y.chip.toNat, y.conn.toNat, y.serial.toNat))
      .next (s.setInb fun l => l.map fun y =>
        if mine y ∧ y.nak = false then
          { y with total := y.total + BitVec.ofNat 32 x.chordR, since := if y.pend = 0 then s.now else y.since
                   pend := y.pend + x.chordR }
        else y)

/-! ## Taking messages at a fold (07 R360 to R362, R788) -/

/-- The queues bound to an input of a fold, as (priority, number). -/
def State.foldQueues (s : State) (lt fold input : Nat) : List (Nat × Nat) :=
  (s.mch.queues.filter fun e => decide (e.2.state ≠ .unbound) && decide (e.2.kind = 1)
    && decide (e.2.ep.toNat = lt * 8 + fold) && decide (e.2.input.toNat = input)).map fun e => (e.2.prio.toNat, e.1)

/-- A queue with a message placed by the end of the previous fret. -/
def State.hasMessage (s : State) (n : Nat) : Bool :=
  match (s.queue n).nextRec with
  | some r => decide (r.placed < s.now)
  | none => false

/-- The queue, of those that hold a message, that a receiver takes from next: the lowest priority value, or rotating after the
last taken (07 R361). -/
def State.nextOf (s : State) (ready : List (Nat × Nat)) : Option Nat :=
  match ready with
  | [] => none
  | q :: _ =>
    let x := s.queue q.2
    let order := if x.sel then (List.range 8).map fun i => (x.lastPrio.toNat + 1 + i) % 8 else List.range 8
    (order.findSome? fun p => ready.find? fun r => decide (r.1 = p)).map (·.2)

/-- The queue that a fold input takes from next: messages placed by the end of the previous fret count (07 R361, R788). -/
def State.nextQueue (s : State) (qs : List (Nat × Nat)) : Option Nat := s.nextOf (qs.filter fun q => s.hasMessage q.2)

/-- A queue's receiver may take from it now: a tile fold only while a task runs on its tile, a host receiver at will, and every
receiver of the device by its selection mode (07 R361, R362). -/
def State.mayTake (s : State) (n : Nat) : Bool :=
  let q := s.queue n
  let all := (n, q) :: (s.mch.queues.filter fun e => decide (e.1 ≠ n) && decide (e.2.state ≠ .unbound) && sameReceiver q e.2)
  let ready := (all.filter fun e => e.2.nextRec.isSome).map fun e => (e.2.prio.toNat, e.1)
  decide (q.state ≠ .unbound) && (q.hostRing || decide (s.nextOf ready = some n))
    && (q.kind ≠ 1 || (s.tile (s.ptOf (q.ep.toNat / 8))).running.isSome)

/-- RECORD_CONSUME: a reader consumes the record at the head of the bound queue that its receiver takes from next (07 R361,
R362, R381, R395). -/
def execRecordConsume (q : QueueN) (s : State) : Host.Outcome State Fault Refusal :=
  if s.mayTake q then
    let x := s.queue q
    let s := s.consumeHead q
    let mates := s.mch.queues.filter fun e => decide (e.2.state ≠ .unbound) && sameReceiver x e.2
    .next (s.each mates fun s e => s.updQueue e.1 fun y => { y with lastPrio := x.prio })
  else .next s

/-- Take the next message of an input's queues: its record, and the state with it consumed (07 R361, R788). -/
def State.takeMessage (s : State) (lt fold input : Nat) : Option (RecSt × State) :=
  let qs := s.foldQueues lt fold input
  match s.nextQueue qs with
  | none => none
  | some n =>
    match (s.queue n).nextRec with
    | none => none
    | some r =>
      let prio := (s.queue n).prio
      let s := s.consumeHead n
      some (r, s.each qs fun s q => s.updQueue q.2 fun x => { x with lastPrio := prio })

end Sys2Proof.Machine
end

