-- ==== Sys2Proof/Machine/Router.lean ====
section
/-! DEFINITION. Routers: what a worm is, the decision on its next hop, its terminal leg, route errors and cuts, and a head entering a router (08 R417, R420 to R437, R460 to R464). -/

namespace Sys2Proof.Machine

/-! ## Worms -/

/-- Flits of a worm (R427). -/
def wormFlits (w : Worm) : Nat := 1 + ceilDiv (w.payload.length - 192) 256

/-- A message or an OPEN, which a cut or an error answers (R432, R462, R521). -/
def wormAnswered (w : Worm) : Bool := w.head.vc = 1 && (w.head.wtype = 0 || w.head.wtype = 1)

/-- A worm for a queue: a message, an OPEN or a CLOSE marker (R420, R436). -/
def wormQueued (w : Worm) : Bool := w.head.vc = 1 && (w.head.wtype = 0 || w.head.wtype = 1 || w.head.wtype = 3)

/-- A scheduled worm: edge words or their credit return. -/
def wormEdge (w : Worm) : Bool := w.head.vc = 0 && decide (w.head.wtype.toNat < 2)

/-- A worm of a memory access. -/
def wormMemory (w : Worm) : Bool := w.head.vc = 0 && decide (2 ≤ w.head.wtype.toNat) && decide (w.head.wtype.toNat ≤ 5)

/-- ROUTE_CUT, detail 0x8, from a router (R432, R462). -/
def State.routeNak (s : State) (w : Worm) : State :=
  s.when (wormAnswered w) fun s => s.emit (.nak w.head.srcChip w.head.conn w.head.serial w.head.task .routeCut 8)

/-- A value of 24 bits of a fret, relative to the current fret (04 R199; 08 R424). -/
def State.rel24 (s : State) (v : BitVec 24) : Int := (((v.toNat : Int) - s.now + 2 ^ 23) % 2 ^ 24) - 2 ^ 23

/-! ## Ports (01 R19 to R33) -/

def routerHalf : Router → Half
  | .hub c => clusHalf c
  | .ring h => h

/-- The fabric port that a port number of a ring router names: 0 to 15 and 16 for TW; 24 + row is the port into the spine. -/
def ringFab (h : Half) (port : Nat) : Option (Fin 17) :=
  (List.finRange 17).find? fun p => decide (p.val = port) && decide (portRing p.val = h)

/-- The fabric port at an input of a router. -/
def fabIn (r : Router) (inPort : Nat) : Option (Fin 17) :=
  match r with
  | .ring h => ringFab h inPort
  | .hub _ => none

/-- The hub's input is the far side of its row's Bridge segment (R417). -/
def bridgeIn (r : Router) (inPort : Nat) : Bool :=
  match r with
  | .hub c => (decide (hubCol c = 7) && decide (inPort = 1)) || (decide (hubCol c = 8) && decide (inPort = 3))
  | .ring _ => false

/-- Scheduled worms enter here through a release-time queue (04 R197; R425). -/
def releaseIn (r : Router) (inPort : Nat) : Bool := bridgeIn r inPort || (fabIn r inPort).isSome

/-- The buffer of a virtual channel at an input, in flits (R420, R440): at a release point VC0 has the release-time queue, which takes no
link credits (R422). A ring's inputs other than its fabric ports have the buffers of a hub (log entry 65). -/
def inCap (r : Router) (inPort : Nat) (vc : Nat) : Option Nat :=
  if releaseIn r inPort ∧ vc = 0 then none
  else if bridgeIn r inPort then some 16
  else if (fabIn r inPort).isSome then some ([0, 64, 16, 8].getD vc 0)
  else some ([16, 8, 4, 2].getD vc 0)

/-- Two worms share an input buffer: one for each channel, and at a fabric port for each route class (R420). -/
def sameLane (r : Router) (x y : RtWorm) : Bool :=
  decide (x.inPort = y.inPort) && decide (x.w.head.vc = y.w.head.vc) && ((fabIn r x.inPort).isNone || x.cls == y.cls)

/-- The input buffer has room for `n` more flits of a worm (R422). -/
def State.roomAt (s : State) (r : Router) (inPort : Nat) (w : Worm) (n : Nat) : Bool :=
  match inCap r inPort w.head.vc.toNat with
  | none => true
  | some cap =>
    let me : RtWorm := ⟨inPort, w.head.cls, w, 0, .sink, 0, 0, 0⟩
    decide (((s.router r).worms.filter (sameLane r me)).foldl (fun a x => a + x.here) 0 + n ≤ cap)

/-! ## Counters -/

/-- A flit that a hub output sent, the first of its worm or not (R460, R471). -/
def State.countHub (s : State) (c port : Nat) (first : Bool) : State :=
  let k := (if c < 64 then 0 else 512) + c % 64 * 8 + port
  s.when (decide (port < 5)) fun s => s.modSpn fun n => { n with hubs := Tab.upd {} n.hubs k fun g =>
    { g with flits := g.flits + 1, worms := if first then g.worms + 1 else g.worms } }

/-- A port's counts of the report interval change (16 R732). -/
def State.updLink (s : State) (p : Nat) (f : LinkCnt → LinkCnt) : State :=
  s.modTel fun t => { t with cnt := { t.cnt with links := Tab.upd {} t.cnt.links p f } }

/-- Flits and worms that a fabric port sent or received (R469). -/
def State.countTx (s : State) (p : Nat) (first : Bool) : State :=
  (s.updFab p fun f => { f with txFlits := f.txFlits + 1, txWorms := if first then f.txWorms + 1 else f.txWorms }).updLink p
    fun l => { l with tx := l.tx + 1 }
def State.countRx (s : State) (p : Nat) (flits : Nat) (first : Bool) : State :=
  (s.updFab p fun f =>
    { f with rxFlits := f.rxFlits + BitVec.ofNat 64 flits, rxWorms := if first then f.rxWorms + 1 else f.rxWorms }).updLink p
    fun l => { l with rx := l.rx + BitVec.ofNat 64 flits }

/-- A cut at a fabric port (R467, R469). -/
def State.countCut (s : State) (p : Nat) : State := s.updFab p fun f => { f with cut := true, cuts := satAdd f.cuts 1 }

/-! ## Errors -/

/-- R432: discarded and counted; answered, or the task aborts. -/
def State.routeError (s : State) (r : Router) (inPort : Nat) (w : Worm) : State :=
  let s : State := match fabIn r inPort with
    | some p => s.updFab p fun f => { f with routeErr := satAdd f.routeErr 1 }
    | none => s.updSpn (routerHalf r) fun h => { h with routeErr := satAdd h.routeErr 1 }
  let s := s.routeNak w
  if wormEdge w then s.detect w.head.task .bound else s

/-- R521: a worm discarded for header parity; a memory worm is answered with a poisoned completion. -/
def State.parityDiscard (s : State) (r : Router) (inPort : Nat) (w : Worm) : State :=
  let s := s.modRel fun x => { x with parity := satAdd x.parity 1 }
  let s := s.routeNak w
  if wormEdge w then s.detect w.head.task .parity
  else if wormMemory w then s.emit (.cutWorm r inPort w true)
  else s

/-- A worm cut before its head crossed (R462 to R464). -/
def State.cutUncrossed (s : State) (w : Worm) : State :=
  let s := s.routeNak w
  if wormEdge w then s.detect w.head.task .peer else s

/-! ## Where a worm goes next -/

/-- A worm with one hop code consumed (R429). -/
def wormStep (w : Worm) : Worm := { w with head := { w.head with hops := w.head.hops.drop 1, nextHop := w.head.nextHop + 1 } }

/-- A straight run from a hub: directions 0 North, 1 East, 2 South, 3 West (R430). It leaves the mesh only to a ring, in its
last step. -/
def runOk (c dir len : Nat) : Bool :=
  match dir with
  | 0 => decide (len ≤ hubRow c)
  | 1 => decide (hubCol c + len ≤ 16)
  | 2 => decide (hubRow c + len ≤ 7)
  | _ => decide (len ≤ hubCol c + 1)

/-- The hub one step away. -/
def nextHub (c dir : Nat) : Nat :=
  match dir with
  | 0 => hubAt (hubCol c) (hubRow c - 1)
  | 1 => hubAt (hubCol c + 1) (hubRow c)
  | 2 => hubAt (hubCol c) (hubRow c + 1)
  | _ => hubAt (hubCol c - 1) (hubRow c)

/-- A decision: to an output and beyond it, with the header as it leaves; or a route error. -/
inductive Turn where
  | go (out : Nat) (dest : WormDest) (w : Worm)
  | err

/-- One step of a run (R430): to the next hub, into the ring, or, for a scheduled worm that crosses the Bridge, into its release-time
queue (04 R197). -/
def stepTo (c dir left : Nat) (w : Worm) : Turn :=
  if dir = 1 ∧ hubCol c = 15 then .go 1 (.link (.ring .east) (24 + hubRow c) 0) w
  else if dir = 3 ∧ hubCol c = 0 then .go 3 (.link (.ring .west) (24 + hubRow c) 0) w
  else if wormEdge w ∧ ((dir = 1 ∧ hubCol c = 7) ∨ (dir = 3 ∧ hubCol c = 8)) then
    .go dir (.bridge (Fin.ofNat 8 (hubRow c)) (dir = 1) left) w
  else .go dir (.link (.hub (Fin.ofNat 128 (nextHub c dir))) ((dir + 2) % 4) left) w

/-- A hub consumes a code and begins its run (R430). -/
def runFrom (c : Nat) (w : Worm) : Turn :=
  match w.head.hops with
  | [] => .err
  | code :: _ =>
    let dir := (code.extractLsb' 3 2).toNat
    let len := (code.extractLsb' 0 3).toNat + 1
    if runOk c dir len then stepTo c dir (len - 1) (wormStep w) else .err

/-- Where the queue of a VC1 worm receives: a ring, for a host receiver; or the hub with the message unit port of the queue's half, at the
outer column of the row of the ring's partition (R436). -/
def State.receiverAt (s : State) (w : Worm) : Router :=
  let q := s.queue w.head.endpoint
  match rxPort q.kind with
  | some .a => .ring .west
  | some .b => .ring .east
  | none =>
    .hub (Fin.ofNat 128 (unitHub (partOf q.base)))

/-- The row of the terminal leg (R436). -/
def State.crossingRow (s : State) (w : Worm) : Nat :=
  let q := s.queue w.head.endpoint
  if q.hostRing then w.head.endpoint % 8 else partOf q.base % 8

/-- The hop codes of the terminal leg that a chip adds for a queue's worm; none where the leg cannot be formed (R431, R436). -/
def State.terminalLeg (s : State) (r : Router) (w : Worm) : Option (List (BitVec 5)) :=
  let dst := s.receiverAt w
  let along := fun (col : Nat) => match dst with
    | .ring .west => runCodes 3 (col + 1)
    | .ring .east => runCodes 1 (16 - col)
    | .hub d => if hubCol d < col then runCodes 3 (col - hubCol d) else runCodes 1 (hubCol d - col)
  match r with
  | .ring h =>
    if dst = r then some []
    else some (BitVec.ofNat 5 (0x18 + s.crossingRow w) :: along (match h with | .west => 0 | .east => 15))
  | .hub c => if (s.queue w.head.endpoint).hostRing ∨ hubRow c = s.crossingRow w then some (along (hubCol c)) else none

/-- A worm of VC0, VC2 or VC3, or a VC1 worm that no queue takes, may end at this router (R431): a memory access at the hub of its
channel (01 R37; 05 R236), an edge worm or control at the hub that serves its tile. -/
def endsAt (r : Router) (w : Worm) : Bool :=
  if w.head.vc = 1 ∨ w.head.vc = 3 then true
  else match r with
    | .ring _ => wormMemory w && decide (w.head.wtype = 3 ∨ w.head.wtype = 5)
    | .hub c =>
      if wormMemory w then decide (w.head.wtype = 3 ∨ w.head.wtype = 5) || decide (c.val = memHub w.head.memAddr)
      else decide (c.val = ltClus w.head.endpoint)

/-- The output toward the unit that takes a worm at its last router: of a hub 4 the tile crossbar, 5 the stream engine, 6 and 7 the HBM
channels, 8 the control endpoint, 9 the message unit; of a ring 17 (R417). -/
def unitPort (r : Router) (w : Worm) : Nat :=
  match r with
  | .ring _ => 17
  | .hub _ =>
    if w.head.vc = 1 then 9
    else if w.head.vc = 2 ∨ w.head.vc = 3 then 8
    else if wormEdge w then 4
    else if w.head.wtype = 3 ∨ w.head.wtype = 5 then 5
    else 6 + chanOf w.head.memAddr % 2

/-- A worm whose hop codes are exhausted (R431, R436). -/
def State.ending (s : State) (r : Router) (w : Worm) : Turn :=
  if w.head.dstChip ≠ s.fret.chip then .err
  else if wormQueued w then
    match s.terminalLeg r w, r with
    | none, _ => .err
    | some [], _ => .go (unitPort r w) .here w
    | some codes, .hub c => runFrom c { w with head := { w.head with hops := codes } }
    | some (code :: rest), .ring h =>
      let row := code.toNat - 0x18
      match h with
      | .west => .go (24 + row) (.link (.hub (Fin.ofNat 128 (hubAt 0 row))) 3 0) { w with head := { w.head with hops := rest } }
      | .east => .go (24 + row) (.link (.hub (Fin.ofNat 128 (hubAt 15 row))) 1 0) { w with head := { w.head with hops := rest } }
  else if endsAt r w then .go (unitPort r w) .here w
  else .err

/-- A ring router's decision on the codes that are left: class switches first (R430). -/
def State.ringTurn (s : State) (h : Half) : List (BitVec 5) → Worm → Turn
  | [], w => s.ending (.ring h) w
  | code :: cs, w =>
    let n := code.toNat
    let w := { w with head := { w.head with hops := cs, nextHop := w.head.nextHop + 1 } }
    if n = 0x11 then s.ringTurn h cs { w with head := { w.head with cls := true } }
    else if 0x18 ≤ n then
      let row := n - 0x18
      match h with
      | .west => .go (24 + row) (.link (.hub (Fin.ofNat 128 (hubAt 0 row))) 3 0) w
      | .east => .go (24 + row) (.link (.hub (Fin.ofNat 128 (hubAt 15 row))) 1 0) w
    else match ringFab h n with
      | some p => .go n (.fabric p) w
      | none => .err

/-- A router's decision on a head: a hub within a run goes straight on; else the next code, or the end of the codes (R430, R431). -/
def State.turnOf (s : State) (r : Router) (inPort left : Nat) (w : Worm) : Turn :=
  match r with
  | .ring h => s.ringTurn h w.head.hops w
  | .hub c =>
    if 0 < left then stepTo c ((inPort + 2) % 4) (left - 1) w
    else match w.head.hops with
      | [] => s.ending r w
      | _ :: _ => runFrom c w

/-! ## Entering a router -/

/-- A head enters with `flits` of its worm: its parity and its route are checked; it waits for its output, or is discarded with what
follows it (R421, R430 to R432, R464, R521). -/
def State.headIn (s : State) (r : Router) (inPort left : Nat) (w : Worm) (flits : Nat) (ok : Bool) : State :=
  let due := wormFlits w - flits
  let put := fun (s : State) (x : RtWorm) => s.updRouter r fun q => { q with worms := q.worms ++ [x] }
  let gone := fun (s : State) => if due = 0 then s else put s ⟨inPort, w.head.cls, w, 0, .sink, 0, due, 0⟩
  if !ok then gone (s.parityDiscard r inPort w)
  else match s.turnOf r inPort left w with
    | .err => gone (s.routeError r inPort w)
    | .go out dest w' =>
      let x : RtWorm := ⟨inPort, w.head.cls, w', out, dest, min flits (wormFlits w), due, 0⟩
      match dest with
      | .fabric p => if (s.fab p).state = .up then put s x else gone ((s.countCut p).cutUncrossed w)
      | _ => put s x

/-- The first worm of a list for which `p` holds, changed; none left where `f` gives none. -/
def updFirst (p : RtWorm → Bool) (f : RtWorm → Option RtWorm) : List RtWorm → List RtWorm
  | [] => []
  | x :: xs => if p x then (f x).toList ++ xs else x :: updFirst p f xs

/-- Flits of the worm that is entering on a channel of an input; those of a discarded worm are discarded. -/
def RtWorm.more (x : RtWorm) (n : Nat) : Option RtWorm :=
  let k := min n x.due
  if x.dest = .sink then (if x.due = k then none else some { x with due := x.due - k })
  else some { x with here := x.here + k, due := x.due - k }

/-- A poisoned tail flit in place of the flits still to come (R462). -/
def RtWorm.poisonTail (x : RtWorm) : Option RtWorm :=
  if x.dest = .sink then none
  else some { x with here := x.here + 1, due := 0, w := { x.w with head := { x.w.head with poison := true } } }

def entering (inPort : Nat) (vc : BitVec 2) (x : RtWorm) : Bool :=
  decide (x.inPort = inPort) && decide (x.w.head.vc = vc) && decide (0 < x.due)

def State.flitsIn (s : State) (r : Router) (inPort : Nat) (vc : BitVec 2) (n : Nat) : State :=
  s.updRouter r fun q => { q with worms := updFirst (entering inPort vc) (·.more n) q.worms }

def State.poisonIn (s : State) (r : Router) (inPort : Nat) (vc : BitVec 2) : State :=
  s.updRouter r fun q => { q with worms := updFirst (entering inPort vc) (·.poisonTail) q.worms }

/-- What is left of a worm that is cut at its output: nothing, or the flits still to come, which are discarded (R462). -/
def RtWorm.cutOff (x : RtWorm) : Option RtWorm := if x.due = 0 then none else some { x with dest := .sink, here := 0 }

/-- Worms that still enter a hub at some of its inputs are cut there: what has come goes on, with a poisoned tail (R462, R463; 11 R578; 12
R602). -/
def State.cutLeaving (s : State) (c : Nat) (ports : List Nat) : State :=
  let r : Router := .hub (Fin.ofNat 128 c)
  let mine : RtWorm → Bool := fun x => ports.contains x.inPort && decide (0 < x.due)
  let s := s.each ((s.router r).worms.filter fun x => mine x && wormEdge x.w && decide (x.dest ≠ .sink)) fun s x =>
    s.detect x.w.head.task .peer
  s.updRouter r fun q => { q with worms := q.worms.filterMap fun x => if mine x then x.poisonTail else some x }

/-- A fabric port is DOWN: worms for it are cut at its output, worms still arriving from it at its input (R452, R462 to R465). -/
def State.cutPort (s : State) (p : Nat) : State :=
  let r : Router := .ring (portRing p)
  let out : RtWorm → Bool := fun x => match x.dest with | .fabric f => decide (f.val = p) | _ => false
  let cut : RtWorm → Bool := fun x => out x || (decide (x.inPort = p) && decide (0 < x.due) && decide (x.dest ≠ .sink))
  let s := s.each ((s.router r).worms.filter cut) fun (s : State) (x : RtWorm) =>
    let s : State := s.countCut p
    if out x = true ∧ x.sent = 0 then s.cutUncrossed x.w
    else if wormEdge x.w then s.detect x.w.head.task .peer
    else s
  s.updRouter r fun q =>
    { q with worms := q.worms.filterMap fun x => if out x then x.cutOff else if cut x then x.poisonTail
                                                 else if x.inPort = p ∧ 0 < x.due then none else some x }

end Sys2Proof.Machine
end

