-- ==== Sys2Proof/Machine/Retire.lean ====
section
/-! DEFINITION. Retirement of the chip, fences, lost slots, transit fault counts, and a fabric port going DOWN (08 R452; 10 R522, R551 to R554; 11 R558 to R572; 03 R782). -/

namespace Sys2Proof.Machine

/-- The MC sends a message on a connection whose sender it is (09 R498; 10 R549; 11 R583). -/
def State.mcSend (s : State) (conn : Nat) (body : List Byte) : State := s.sendOn conn 3 0 ⟨body, 1, 0⟩

/-! ## Copies of the Chest -/

/-- The flash slot that a copy uses: one with no valid copy, or the one of the lowest generation (16 R725). -/
def State.copySlot (s : State) : Nat :=
  match s.flash.chest.findIdx? fun x => !x.valid with
  | some i => i
  | none =>
    (s.flash.chest.zipIdx.foldl (fun (m : Nat × Nat) x => if x.1.gen < m.2 then (x.2, x.1.gen) else m)
      (0, (s.flash.chest.headD {}).gen)).1

/-- A copy starts: the whole Chest as it is now goes into the slot, one generation above the newest (16 R725, R726;
log entry 35). -/
def State.startCopy (s : State) (reason : BitVec 8) : State :=
  let slot := s.copySlot
  let gen := s.flash.chest.foldl (fun m x => max m x.gen) 0 + 1
  let c := s.chest
  let image : ChestSlot :=
    { valid := false, written := true, reason := reason, closed := c.closed, serial := s.fuse.serial, gen := gen
      epoch := c.epoch, next := c.next, old := c.old, oldPos := c.oldPos, keepLen := c.keepLen, keep := c.keep
      circle := c.circle }
  (s.modFlash fun f => { f with chest := f.chest.set slot image }).modChest fun c => { c with copying := some (reason, slot) }

/-- A request for a flash copy: it starts, or marks one further copy while one runs (16 R725). -/
def State.copyRequest (s : State) (reason : BitVec 8) : State :=
  if s.chest.copying.isNone then s.startCopy reason
  else s.modChest fun c => { c with marked := some (c.marked.getD reason) }

/-! ## Whole-chip retirement -/

/-- The retire flag and the cause, in the register and in flash (10 R552, step 4; R555). -/
def State.setRetireFlag (s : State) (cause : BitVec 4) : State :=
  let s := s.modRelx fun r => { r with retFlag := true, retCause := cause }
  s.modFlash fun f => { f with retFlag := true, retCause := cause }

/-- Step 5 of R552: RETIRED, the attention cause and the fatal record; RDYBSY follows the flag. -/
def State.retired (s : State) : State :=
  let s := s.modRelx fun r => { r with retState := .retired }
  let s := s.attn .retire
  s.record .retired [relRead (chestSel 0) s 0x040]

/-- A RETIRE_CAUSE record (16 R716). -/
def State.causeRecord (s : State) (cause : BitVec 4) : State :=
  s.record .retireCause [relRead (chestSel 0) s 0x040, cause.setWidth 32]

/-- A partition is in the RESET state of a recovery reset. -/
def State.recovering (s : State) : Bool := (List.range 16).any fun p => decide (s.partMode p = .reset)

/-- Draining begins (10 R552). -/
def State.drainNow (s : State) (cause : BitVec 4) : State :=
  s.modRelx fun r => { r with retState := .draining, retCause := cause }

/-- A retirement cause other than 0x5 is found (10 R551, R552, R554; 11 R582); one of the shut-down test's phase 2 goes into its record (15
R706, R710). -/
def State.retireCause (s : State) (cause : BitVec 4) : State :=
  let s := s.modBist fun b => { b with causeFound := b.causeFound || decide (b.state = 1 ∧ b.phase = 2) }
  if s.relx.retState ≠ .none ∨ s.healx.retireWait.isSome then s.causeRecord cause
  else if s.top.ready = false ∨ s.bist.state ≠ 0 then ((s.setRetireFlag cause).causeRecord cause).retired
  else if s.recovering then (s.modHealx fun h => { h with retireWait := some cause }).causeRecord cause
  else (s.drainNow cause).causeRecord cause

/-- RETIRE_START: a cause of R551 other than 0x5, which MC_LOCKSTEP_FAIL carries. -/
def execRetireStart (cause : BitVec 4) (s : State) : Host.Outcome State Fault Refusal :=
  if cause = 0 ∨ cause = 5 ∨ 7 < cause.toNat then .next s else .next (s.retireCause cause)

/-- RETIRE_COMPLETE: with no task armed or running, steps 3 to 5 of R552; TAKEOVER goes to an attached twin whose
mirrored state is NONE (11 R583). -/
def execRetireComplete (s : State) : Host.Outcome State Fault Refusal :=
  if s.relx.retState ≠ .draining ∨ s.anyTask then .next s
  else
    let s := s.when (decide (s.healx.twin = .paired) && decide (s.healx.peerRetire = 0)) fun s =>
      s.mcSend s.healx.twinConn.toNat ([0x21] ++ List.replicate 15 0)
    .next ((s.setRetireFlag s.relx.retCause).copyRequest 2).retired

/-! ## A fabric port goes DOWN -/

/-- A worm held whole at a fabric ingress stays; one still arriving is cut, and its task aborts (08 R462, R463). -/
def State.cutArriving (s : State) (p : Nat) : State :=
  let part := (Tab.get [] s.held (fabHeld p)).filter fun h => !h.whole && !h.lost
  let s := s.modHeld fun t => Tab.upd [] t (fabHeld p) fun q => q.filter (·.whole)
  s.each part fun s h =>
    (s.updFab p fun f => { f with cut := true, cuts := satAdd f.cuts 1 }).detect h.w.head.task .peer

/-- Entry of a fabric port to DOWN (08 R452, R467, R468; 09 R514; 11 R583; 16 R716). -/
def State.fabDown (s : State) (p : Nat) (cause : BitVec 4) : State :=
  if (s.fab p).state = .down then s
  else
    let s := s.updFab p fun f =>
      { f with
        state := .down, cause := cause, down := true, downAt := s.ticks, peerValid := false, peerSerial := 0, peerPort := 0, peerGrade := 0
        peerLetter := 0, peerDigit := 0, heartbeat := false }
    let s := ((s.cutArriving p).cutPort p).flightDown p
    let s := s.attn .fabric
    let s := s.recordAt .fabric (decide (8 ≤ p)) p [BitVec.ofNat 32 p, fabRead (chestSel 0) s p 0x004]
    s.when (decide (p = 16) && (decide (s.healx.twin = .attachSrc) || decide (s.healx.twin = .attachSink))) fun s =>
      s.modHealx fun h => { h with twin := .none, twinFail := true, attachRegions := [] }

/-! ## Where tasks run -/

/-- Clusters that a task uses. -/
def taskClusters (c : TaskCfg) : List Nat := c.tiles.map (fun e => ltClus e.1) ++ c.streams.map (·.1)

/-- The fret in which a task's span on a cluster begins (03 R782). -/
def spanStart (t : TaskRt) (c : TaskCfg) (cl : Nat) : Int :=
  (c.streams.filter fun e => decide (e.1 = cl)).foldl
    (fun m e => match e.2.2.head? with | some u => min m (t.launch + u.activation) | none => m) (t.launch : Int)

/-- A task runs on a cluster: to the end of fret E + g − 1, or of its abort fret (03 R782). -/
def State.clusRuns (s : State) (c : Nat) : Bool :=
  s.tasks.any fun e =>
    match s.taskCfg (BitVec.ofNat 32 e.1) with
    | none => false
    | some g =>
      let stopped := decide (e.2.phase = .stopped) && e.2.abort.any fun a => decide (a.fret = s.now)
      (e.2.busy || stopped) && (taskClusters g).contains c && decide (spanStart e.2 g c ≤ s.now)
        && decide (s.now + 1 ≤ e.2.ending + e.2.grace)

/-! ## Fences and lost slots -/

/-- A cluster has a BENCH or TESTING tile. -/
def State.hasSpare (s : State) (c : Nat) : Bool :=
  (clusTiles c).any fun pt => decide ((s.role pt).role = .bench) || decide ((s.role pt).role = .testing)

/-- Clusters that hold a fenced tile. -/
def State.fencedClusters (s : State) : List Nat :=
  ((s.healx.roles.filter fun e => decide (e.2.role = .fenced)).map fun e => ptClus e.1).eraseDups

/-- Lost slots of the chip with no fixed host (11 R572). -/
def State.unabsorbed (s : State) : Nat :=
  (s.fencedClusters.map fun c =>
    ((s.lostSlots c).filter fun k => (Tab.find (s.clus c).hosts k).isNone).length).foldl (· + ·) 0

/-- A VARIANT record (16 R716). -/
def State.variantRecord (s : State) (c : Nat) (sched : BitVec 32) : State :=
  s.recordAt .variant (isEast (clusHalf c)) c [clusStateRead s c ||| BitVec.ofNat 32 (c * 2 ^ 25), sched]

/-- Slots that a change of roles lost: a record each, and R572. -/
def State.lostCheck (s : State) (c : Nat) (before : List Nat) : State :=
  let lost := (s.lostSlots c).filter fun k => !before.contains k
  let s := s.each lost fun s _ => s.variantRecord c 0
  s.when (decide (lost ≠ []) && (decide (2 ≤ (s.lostSlots c).length) || decide (2 ≤ s.unabsorbed))) (·.retireCause 1)

/-- Clear the fault count of a transit unit (10 R522). -/
def State.clearTransit (s : State) (unit : Nat) : State := s.modRelx fun r => { r with transit := Tab.del r.transit unit }

/-- A tile becomes FENCED, with the code of its FENCE record: it stops, and a slot it served needs a remap or is lost (11
R558, R559, R567, R582; 09 R514; 16 R716). -/
def State.fenceTile (s : State) (pt : Nat) (verdict : Nat) : State :=
  let c := ptClus pt
  if (s.role pt).role = .fenced then s
  else if s.partMode (ptPart pt) = .reset then s.modHealx fun h => { h with fenceWait := h.fenceWait ++ [verdict * 4096 + pt] }
  else
    let before := s.lostSlots c
    let s := s.updRole pt fun r => { r with role := .fenced, hangRemap := false }
    let s := s.updTile pt fun t =>
      { t with mode := .fenced, running := none, armed := none, armedOk := false, rt := [], flight := [] }
    let s := (s.clearTransit pt).modHeal fun h => { h with fences := satAdd h.fences 1 }
    let s := s.attn .fence
    let s := s.recordAt .fence (isEast (clusHalf c)) c [BitVec.ofNat 32 pt, BitVec.ofNat 32 verdict]
    s.lostCheck c before

/-! ## Transit units (10 R520, R522) -/

/-- Keys of transit units: a kind of REL_TRANSIT and an index. -/
def transitKey (kind idx : Nat) : Nat := (kind - 1) * 4096 + idx

/-- What a unit's count at the threshold does (10 R522). -/
def State.transitAct (s : State) (unit : Nat) : State :=
  match unit / 4096 with
  | 0 => s.fenceTile unit 0xA
  | 1 => s.retireCause 4
  | 2 => s.retireCause 2
  | _ => s.fabDown (unit % 4096) 8

/-- A failure counted against a transit unit (10 R520, R522, R556). -/
def State.countTransit (s : State) (unit : Nat) : State :=
  let n := (Tab.get {} s.relx.transit unit).count + 1
  let s := s.modRelx fun r => { r with transit := Tab.put r.transit unit { count := n, last := s.ticks } }
  let s := s.modRel fun r =>
    { r with trKind := BitVec.ofNat 4 (unit / 4096 + 1), trIndex := BitVec.ofNat 12 (unit % 4096), trCount := satOfNat 8 n }
  s.when (decide (max 1 s.rel.parThresh.toNat ≤ n)) (·.transitAct unit)

/-- The transit unit of a Bridge row and direction (10 R520, R556). -/
def bridgeUnit (row : Fin 8) (toEast : Bool) : Nat := transitKey 3 (row.val * 2 + if toEast then 0 else 1)

/-- The transit unit that a router input charges (10 R520): a tile at a hub's crossbar, a Bridge row, a spine link, or a fabric port. -/
def transitUnit (r : Router) (inPort : Nat) (tile : Nat) : Option Nat :=
  match r with
  | .ring h => (ringFab h inPort).map fun p => transitKey 4 p
  | .hub c =>
    if inPort = 4 then some (transitKey 1 (18 * c.val + tile))
    else if bridgeIn r inPort then some (bridgeUnit (Fin.ofNat 8 (hubRow c)) (decide (inPort = 3)))
    else if inPort < 4 then some (transitKey 2 (c.val * 4 + inPort))
    else none

/-- A transit failure at a router input is counted (10 R520, R522). -/
def State.transitAt (s : State) (r : Router) (inPort : Nat) (bad : Option Nat) : State :=
  match bad.bind (transitUnit r inPort) with
  | some u => s.countTransit u
  | none => s

/-- PARITY_COUNT_DECAY: 2^32 frets without a counted failure (10 R522). -/
def execParityCountDecay (unit : Nat) (s : State) : Host.Outcome State Fault Refusal :=
  match Tab.find s.relx.transit unit with
  | none => .next s
  | some t => if t.last + 2 ^ 32 ≤ s.ticks then .next (s.clearTransit unit) else .next s

/-! ## Schedules and their reports -/

def State.sched? (s : State) (n : BitVec 32) : Option SchedSt := Tab.find s.scheds n.toNat
def State.updSched (s : State) (n : BitVec 32) (f : SchedSt → SchedSt) : State :=
  match s.sched? n with
  | none => s
  | some x => s.modScheds fun t => Tab.put t n.toNat (f x)

/-- A 32-byte task report on the reply connection of the START command. -/
def State.taskReport (s : State) (type : Nat) (st : Status) (attempt verdict : Nat) (task : BitVec 32) (fret : Nat)
    (origin : BitVec 10) (lt : Nat) (sched : BitVec 32) : State :=
  match s.sched? sched with
  | none => s
  | some x =>
    s.mcSend x.reply
      ([BitVec.ofNat 8 type, BitVec.ofNat 8 st.code, BitVec.ofNat 8 attempt, BitVec.ofNat 8 verdict] ++ leBytes 4 task.toNat
        ++ leBytes 8 fret ++ leBytes 2 origin.toNat ++ leBytes 2 lt ++ leBytes 4 sched.toNat ++ List.replicate 8 0)

/-- Physical tiles with a capture of a task. -/
def State.captures (s : State) (n : BitVec 32) : List Nat :=
  (s.tiles.filter fun e => (e.2.capture.map fun c => decide (c.task = n)).getD false).map (·.1)

/-- The LT of the first capture of a task on this chip; 0xFFFF when none. -/
def State.captureLt (s : State) (n : BitVec 32) : Nat :=
  ((s.captures n).filterMap s.ltOf).foldl min 0xFFFF

/-- The report of a retry, once it is armed and its arbitrations are complete. -/
def State.retryReport (s : State) (n : BitVec 32) : State :=
  match s.relx.retries.find? fun r => decide (r.task = n) with
  | none => s
  | some r =>
    if r.armed = false ∨ r.reported ∨ s.captures n ≠ [] then s
    else
      let s := s.modRelx fun x => { x with retries := x.retries.map fun y => if y.task = n then { y with reported := true } else y }
      s.taskReport 1 r.status r.attempt r.verdict n r.abortFret r.origin r.lt r.sched

/-! ## The end of an arbitration -/

/-- REL_ARB_LAST.check of a captured failure (10 R556). -/
def checkCode : TileFault → BitVec 4
  | .macPass => 1 | .hammingPass => 2 | .fp32 => 3 | .duplicated => 4 | _ => 0

/-- REL_ARB_LAST and REL_ARB_TASK (10 R556). -/
def State.arbLast (s : State) (pt : Nat) (verdict : BitVec 3) (valid : Bool) : State :=
  match (s.tile pt).capture with
  | none => s
  | some x => s.modRel fun r =>
    { r with
      arbValid := r.arbValid || valid, arbVerdict := verdict, arbPt := BitVec.ofNat 12 pt, arbCheck := checkCode x.kind
      arbLt := BitVec.ofNat 11 x.lt, arbTask := x.task }

/-- An arbitration ends: the capture is released, the tile leaves TEST, and a retry that waited is reported (10 R532,
R542). -/
def State.endArb (s : State) (pt : Nat) (verdict : BitVec 3) : State :=
  let task := ((s.tile pt).capture.map (·.task)).getD 0
  let s := s.modRelx fun r =>
    { r with
      arbs := r.arbs.filter fun a => decide (a.pt ≠ pt)
      retries := r.retries.map fun y => if y.task = task then { y with verdict := verdict.toNat } else y }
  let s := s.updTile pt fun t => { t with capture := none, mode := if t.mode = .test then .idle else t.mode }
  s.retryReport task

/-! ## Checks of a tile -/

/-- What a check of the tile reports at a fold's work, which began with the contents `rt` (02 R104, R106; 10 R520, R522, R528, R531, R556). -/
def State.tileFault (s : State) (pt : Nat) (task : BitVec 32) (fold : Nat) (rt : FoldRt) (f : TileFault) : State :=
  match f with
  | .macPass | .hammingPass | .fp32 | .duplicated =>
    let s := s.modRel fun r => { r with residue := satAdd r.residue 1 }
    let cap : Capture := ⟨task, f, s.now + s.horizonOf (s.task task), fold, (s.ltOf pt).getD 0, rt⟩
    let s := s.updTile pt fun t => { t with capture := some (t.capture.getD cap) }
    s.detect task .residue
  | .parityUse => (s.modRel fun r => { r with parity := satAdd r.parity 1 }).detect task .parity
  | .sramCorrected w =>
    let s := s.updTile pt fun t => { t with ceCnt := satAdd t.ceCnt 1, sramCe := true, writeBack := t.writeBack ++ [w] }
    s.modRel fun r => { r with sramCe := r.sramCe + 1 }
  | .sramDouble w =>
    let s := s.updTile pt fun t => { t with ueWord := if t.ueValid then t.ueWord else w, ueValid := true }
    let s := s.modRel fun r => { r with ueSram := satAdd r.ueSram 1 }
    (s.detect task .parity).countTransit (transitKey 1 pt)

/-- A check of the tile reports two bits in error in a word: its data is poisoned (02 R106). -/
def TileFault.poisons : TileFault → Bool
  | .sramDouble _ => true
  | _ => false

/-- What the checks of a tile report, one after the other. -/
def State.tileFaults (s : State) (pt : Nat) (task : BitVec 32) (fold : Nat) (rt : FoldRt) (fs : List TileFault) : State :=
  s.each fs fun s f => s.tileFault pt task fold rt f

/-- A word of SRAM that a requester writes loses its write-back (02 R105). -/
def writeBackLeft (wb : List (BitVec 17)) (wrote : List Nat) : List (BitVec 17) :=
  wb.filter fun w => !(wrote.any fun a => decide (a / 8 = w.toNat))

end Sys2Proof.Machine
end

