-- ==== Sys2Proof/Machine/Sessions.lean ====
section
/-! DEFINITION. The session engine: KV pools, session commands, pops, commits, aborts and results (06 R313 to R352). -/

namespace Sys2Proof.Machine

/-! ## Pools and page tables -/

/-- The set bits of a pool's partition mask (06 R316). -/
def PoolSt.partList (p : PoolSt) : List Nat := (List.range 16).filter fun i => bit p.mask i
def PoolSt.slotBytes (p : PoolSt) : Nat := (p.slot.toNat + 1) * 256
def PoolSt.planeCount (p : PoolSt) : Nat := p.planes.toNat + 1
/-- Page size M × 64 × s (06 R315). -/
def PoolSt.pageBytes (p : PoolSt) : Nat := p.planeCount * 64 * p.slotBytes

/-- The device address of a pool page (06 R316). -/
def PoolSt.pageAddr (p : PoolSt) (q : Nat) : Nat :=
  let n := p.partList.length
  p.partList.getD (q % n) 0 * 2 ^ 36 + p.base.toNat * 4096 + q / n * p.pageBytes

/-- The device address of a position's slot in a plane of a page (06 R316). -/
def PoolSt.slotAddr (p : PoolSt) (q plane t : Nat) : Nat :=
  p.pageAddr q + plane * 64 * p.slotBytes + t % 64 * p.slotBytes

/-- The page table entry of a session's page index (06 R317). -/
def State.entryAddr (s : State) (n i : Nat) : Nat := s.sess.tblBase.toNat * 2 ^ 27 + n * 8192 + i * 4

/-- The pool page number a page table entry holds (06 R317). -/
def State.pageEntry (s : State) (n i : Nat) : Nat := leVal (s.hbmBytes (s.entryAddr n i) 4)

/-- Write page table entries; nothing lies where no memory is (06 R317, R344). -/
def State.putEntries (s : State) (n i : Nat) (vs : List Nat) : State :=
  let a := s.entryAddr n i
  s.when (populatedRange a (4 * vs.length)) (·.hbmWrite a (vs.flatMap (leBytes 4)) [])

/-- The lowest page number of a pool that no session holds (06 R328). -/
def PoolSt.lowest (p : PoolSt) : Option Nat := (List.range p.count.toNat).find? fun q => !p.used.contains q

/-- Free one pool page. -/
def State.freePage (s : State) (pool q : Nat) : State := s.updPool pool fun p => { p with used := p.used.filter (· ≠ q) }

/-- Free a session's pages from the highest index down to `keep` (06 R318, R332, R336). -/
def State.shrink (s : State) (n keep : Nat) : State :=
  let x := s.session n
  let s := s.each (List.range' keep (x.held.toNat - keep)).reverse fun s i => s.freePage x.pool.toNat (s.pageEntry n i)
  let s := s.putEntries n keep (List.replicate (x.held.toNat - keep) 0xFFFFFFFF)
  s.updSession n fun x => { x with held := BitVec.ofNat 12 (min x.held.toNat keep) }

/-- Allocate a session's next page: none where the quota, page index 2,048 or the empty pool stops it (06 R328, R329). -/
def State.growPage (s : State) (n : Nat) : Option State :=
  let x := s.session n
  let i := x.held.toNat
  if x.quota.toNat ≤ i ∨ 2048 ≤ i then none
  else match (s.pool x.pool.toNat).lowest with
    | none => none
    | some q =>
      let s := s.updPool x.pool.toNat fun p => { p with used := p.used ++ [q] }
      let s := s.putEntries n i [q]
      some (s.updSession n fun x => { x with held := x.held + 1 })

/-! ## Handles and states -/

/-- The context a handle names (06 R313). -/
def handleCtx (h : BitVec 32) : Nat := h.toNat % 2 ^ 14
def handleGen (h : BitVec 32) : BitVec 16 := BitVec.ofNat 16 (h.toNat / 2 ^ 14)
/-- The handle of a context with its current generation (06 R313). -/
def State.handleOf (s : State) (n : Nat) : BitVec 32 := BitVec.ofNat 32 ((s.session n).gen.toNat * 2 ^ 14 + n)

/-- A handle names an OPEN session: current generation, bits [31:30] zero (06 R313, R322). -/
def State.handleOk (s : State) (h : BitVec 32) : Bool :=
  decide (h.toNat < 2 ^ 30) && decide ((s.session (handleCtx h)).gen = handleGen h)
    && decide ((s.session (handleCtx h)).state = .opened)

/-- A session leaves for FREE: pages freed, generation + 1 modulo 2^16 (06 R314, R322). -/
def State.freeSession (s : State) (n : Nat) : State :=
  (s.shrink n 0).updSession n fun x => { x with state := .free, gen := x.gen + 1, reclaim := false }

/-- A reclaim that is due (06 R336). -/
def State.reclaim (s : State) (n : Nat) : State :=
  let q := (s.session n).quota.toNat
  (s.shrink n q).updSession n fun x =>
    let c := min x.commit.toNat (q * 64)
    { x with
      commit := BitVec.ofNat 18 c, draft := BitVec.ofNat 18 c, overQuota := false, truncated := true, reclaim := false }

/-- A task lets go of a session: use − 1, then the reclaim or the end of a CLOSING session (06 R322). -/
def State.letGo (s : State) (n : Nat) : State :=
  let s := s.updSession n fun x => { x with use := x.use - 1 }
  let x := s.session n
  if x.use ≠ 0 then s
  else match x.state with
    | .closing => s.freeSession n
    | .opened => s.when x.reclaim (·.reclaim n)
    | .free => s

/-! ## Commands -/

/-- The 32-byte reply layout (06 R319). -/
def sessReply (op : Nat) (st : Status) (detail : Nat) (flags : Nat) (handle commit tag draft held quota : BitVec 32) :
    List Byte :=
  [BitVec.ofNat 8 op, BitVec.ofNat 8 st.code, BitVec.ofNat 8 detail, BitVec.ofNat 8 flags] ++ leBytes 4 handle.toNat
    ++ leBytes 4 commit.toNat ++ leBytes 4 tag.toNat ++ leBytes 4 draft.toNat ++ leBytes 4 held.toNat
    ++ leBytes 4 quota.toNat ++ leBytes 4 0

def SessSt.flags (x : SessSt) : Nat := x.overQuota.toNat + 2 * x.truncated.toNat

/-- A reply with a session's values. -/
def State.replyOf (s : State) (op : Nat) (st : Status) (detail n : Nat) (handle tag : BitVec 32) : List Byte :=
  let x := s.session n
  sessReply op st detail x.flags handle (x.commit.setWidth 32) tag (x.draft.setWidth 32) (x.held.setWidth 32)
    (x.quota.setWidth 32)

/-- A reply where no session is named: the spec states no pointers, held pages and quota, which are free values (log
entry 30). -/
def State.replyNone (s : State) (op : Nat) (st : Status) (detail : Nat) (handle tag : BitVec 32) : List Byte × State :=
  let a := s.freeVal
  let b := a.2.freeVal
  let c := b.2.freeVal
  let d := c.2.freeVal
  (sessReply op st detail 0 handle a.1 tag b.1 c.1 d.1, d.2)

/-- Send a session reply or result from the session engine, sender kind 5 (06 R319; 07 R364). -/
def State.sessSend (s : State) (conn : Nat) (body : List Byte) : State := s.sendOn conn 5 0 ⟨body, 1, 0⟩

/-- One reply joins the answer to its message: the answer leaves with the reply to the message's last command, of at most 64,
on the connection that the first command named (06 R319). -/
def State.sessAnswer (s : State) (m : SessCmd) (reply : List Byte) : State :=
  let b := s.sess.batch.getD (m.reply.val, [])
  let body := b.2 ++ reply
  if m.last ∨ 64 * 32 ≤ body.length then (s.modSess fun e => { e with batch := none }).sessSend b.1 body
  else s.modSess fun e => { e with batch := some (b.1, body) }

/-- A command that cannot be carried out, and names no live session, changes nothing and is answered (06 R320). -/
def State.sessRefuse (s : State) (m : SessCmd) (op : Nat) (st : Status) (detail : Nat) : State :=
  let r := s.replyNone op st detail m.handle m.tag
  r.2.sessAnswer m r.1

/-- An answer to a command about a session, with the session's values (06 R319, R320). -/
def State.sessTell (s : State) (m : SessCmd) (op : Nat) (st : Status) (detail n : Nat) (handle : BitVec 32) : State :=
  s.sessAnswer m (s.replyOf op st detail n handle m.tag)

/-- Every partition of a pool is parked (06 R320). -/
def State.poolParked (s : State) (n : Nat) : Bool :=
  decide ((s.pool n).partList ≠ []) && (s.pool n).partList.all fun p => s.parked p

/-- OPEN: the lowest FREE context (06 R320, R322). -/
def State.sessOpen (s : State) (m : SessCmd) : State :=
  let p := m.pool.toNat
  if 16 ≤ p ∨ (s.pool p).enable = false then s.sessRefuse m 1 .overQuota 2
  else if s.poolParked p then s.sessRefuse m 1 .parked 0
  else if m.quota.toNat < 1 ∨ 2048 < m.quota.toNat then s.sessRefuse m 1 .overQuota 3
  else match (List.range 16384).find? fun n => (s.session n).state = .free with
    | none => s.sessRefuse m 1 .overQuota 1
    | some n =>
      let s := s.updSession n fun x =>
        { x with
          state := .opened, pool := BitVec.ofNat 4 p, commit := 0, draft := 0, held := 0, use := 0
          quota := m.quota.setWidth 12, overQuota := false, truncated := false, reclaim := false }
      let s := s.putEntries n 0 (List.replicate 2048 0xFFFFFFFF)
      s.sessTell m 1 .ok 0 n (s.handleOf n)

/-- A command on a session: NAK_STALE for a stale handle; PARKED where its pool's partitions are all parked (06 R320). -/
def State.onSession (s : State) (m : SessCmd) (op : Nat) (f : State → Nat → Status × Nat × State) : State :=
  if s.handleOk m.handle = false then s.sessRefuse m op .nakStale 0
  else
    let n := handleCtx m.handle
    if s.poolParked (s.session n).pool.toNat then s.sessTell m op .parked 0 n m.handle
    else
      let r := f s n
      r.2.2.sessTell m op r.1 r.2.1 n m.handle

/-- CLOSE: the session goes FREE, or CLOSING while tasks hold it; truncated is cleared (06 R322, R336). -/
def State.sessClose (s : State) (m : SessCmd) : State :=
  s.onSession m 2 fun s n =>
    let s := s.updSession n fun x => { x with truncated := false }
    (.ok, 0, if (s.session n).use = 0 then s.freeSession n else s.updSession n fun x => { x with state := .closing })

/-- SET_QUOTA (06 R320, R322, R336). -/
def State.sessSetQuota (s : State) (m : SessCmd) : State :=
  s.onSession m 3 fun s n =>
    if m.quota.toNat < 1 ∨ 2048 < m.quota.toNat then (.overQuota, 3, s)
    else
      let cut := decide (m.quota.toNat < (s.session n).held.toNat)
      let s := s.updSession n fun x => { x with quota := m.quota.setWidth 12 }
      if !cut then (.ok, 0, s)
      else
        let s := s.updSession n fun x => { x with overQuota := true, reclaim := true }
        (.overQuota, 4, s.when (decide ((s.session n).use = 0)) (·.reclaim n))

/-- QUERY (06 R319). -/
def State.sessQuery (s : State) (m : SessCmd) : State := s.onSession m 4 fun s _ => (.ok, 0, s)

/-- The engine applies one command (06 R319, R320): a reserved opcode is answered OVER_QUOTA with detail 5 and changes
nothing. -/
def State.sessApply (s : State) (op : SessOp) (m : SessCmd) : State :=
  match op with
  | .opening => s.sessOpen m
  | .close => s.sessClose m
  | .setQuota => s.sessSetQuota m
  | .query => s.sessQuery m
  | .reserved o => s.sessRefuse m o.toNat .overQuota 5

/-- At the end of a fret the commands placed in it that waited for its pops, commits and aborts are applied, in placement
order (06 R321). -/
def State.sessFret (s : State) : State :=
  let cs := s.sess.cmds
  (s.modSess fun e => { e with cmds := [] }).each cs fun s c => s.sessApply c.1 c.2

/-! ## Pops by KV uses -/

/-- What a session word gives a use: the session and its latched commit pointer, none for no session, or the status
the task aborts with. -/
inductive PopRes where
  | sess (n latched : Nat)
  | none (h : BitVec 32)
  | abort (st : Status)
deriving DecidableEq, Repr

/-- The accept count: the largest a below W with t_i = y_(i+1) for every i below a (06 R339). -/
def acceptCount : Nat → List (BitVec 32) → List (BitVec 32) → Nat
  | 0, _, _ => 0
  | w + 1, t :: ts, y :: ys => if t = y then acceptCount w ts ys + 1 else 0
  | _, _, _ => 0

def State.holdOf (s : State) (t : BitVec 32) (n : Nat) : Option Hold :=
  s.sess.holds.find? fun h => decide (h.task = t) && decide (h.ctx = n)

def State.updHold (s : State) (t : BitVec 32) (n : Nat) (f : Hold → Hold) : State :=
  s.modSess fun e => { e with holds := e.holds.map fun h => if h.task = t ∧ h.ctx = n then f h else h }

/-- 32-bit values of a session word from a byte offset (06 R338). -/
def wordVals (bs : List Byte) (off n : Nat) : List (BitVec 32) :=
  (List.range n).map fun i => BitVec.ofNat 32 (leAt bs (off + 4 * i) 4)

/-- A task's first pop of a session: use + 1 and c latched (06 R322). -/
def State.takeHold (s : State) (t : BitVec 32) (n : Nat) : State :=
  match s.holdOf t n with
  | some _ => s
  | none =>
    let x := s.session n
    let s := s.updSession n fun x => { x with use := x.use + 1 }
    s.modSess fun e => { e with holds := e.holds ++ [⟨t, n, x.commit.toNat, none, false, x.held.toNat, none⟩] }

/-- Pop one session word for a KV use of a task (06 R322 to R331, R338, R339). -/
def State.popSession (s : State) (t : BitVec 32) (kv : KvCfg) (write : Bool) (bs : List Byte) : PopRes × State :=
  let h : BitVec 32 := BitVec.ofNat 32 (leAt bs 0 4)
  let n := handleCtx h
  let mode : KvMode := if kv.verify then .verify else .append
  if h = 0xFFFFFFFF then (.none h, s)
  else if s.handleOk h = false then
    let s := match write, kv.judge with
      | true, some c => s.modSess fun e =>
          { e with stale := e.stale ++ [(t, h, c, BitVec.ofNat 32 (leAt bs 4 4))] }
      | _, _ => s
    (.none h, s)
  else if (s.session n).pool.toNat ≠ kv.pool then (.abort .memory, s)
  else if s.sess.holds.any fun x => decide (x.task ≠ t) && decide (x.ctx = n) && x.written.isSome then (.abort .memory, s)
  else if (s.holdOf t n).isNone ∧ (s.session n).use = 255 then (.abort .bound, s)
  else
    let old := (s.holdOf t n).bind (·.written)
    if write && old.any (· ≠ (kv.n, mode)) then (.abort .memory, s)
    else if write ∧ old.isNone ∧ 4096 ≤ (s.sess.holds.filter fun x => x.task = t && x.written.isSome).length then
      (.abort .bound, s)
    else
      let s := s.takeHold t n
      let c := ((s.holdOf t n).map (·.latched)).getD 0
      let s := s.when write fun s =>
        let held := (s.session n).held.toNat
        let s := s.updHold t n fun x =>
          { x with heldBefore := if x.written.isNone then held else x.heldBefore, written := some (kv.n, mode) }
        s.updSession n fun x => { x with draft := BitVec.ofNat 18 (c + kv.n) }
      let s := match write, kv.judge with
        | true, some conn => s.updHold t n fun x =>
            let ts := wordVals bs 4 16
            let ys := wordVals bs 68 15
            { x with judge := some (acceptCount (kv.window - 1) ts ys, conn, ts, ys) }
        | _, _ => s
      (.sess n c, s)

/-! ## Commit, abort and results -/

/-- A result message (06 R342). -/
def resultBody (h : BitVec 32) (st : Status) (a : Nat) (c : BitVec 32) (next : BitVec 32) (ys : List (BitVec 32)) :
    List Byte :=
  leBytes 4 h.toNat ++ [BitVec.ofNat 8 st.code, BitVec.ofNat 8 a, 0, 0] ++ leBytes 4 c.toNat ++ leBytes 4 next.toNat
    ++ ((List.range 15).flatMap fun i => leBytes 4 (if i < a then (ys.getD i 0).toNat else 0)) ++ List.replicate 52 0

/-- A result enters the buffer of 4,096, or is dropped and counted (06 R343). -/
def State.putResult (s : State) (conn : Nat) (body : List Byte) : State :=
  s.modSess fun e =>
    if e.results.length < 4096 then { e with results := e.results ++ [(conn, body)] }
    else { e with drop := satAdd e.drop 1 }

/-- The pointer move of one held session at a commit fret (06 R332, R336, R340, R342). -/
def State.commitHold (s : State) (h : Hold) : State :=
  let n := h.ctx
  let x := s.session n
  let acc := ((h.judge.map (·.1)).getD 0)
  let s : State :=
    if x.state ≠ .opened then s
    else match h.written with
      | none => s
      | some (k, mode) =>
        let moved := !h.failed
        let c : Nat :=
          if h.failed then x.commit.toNat
          else match mode with
            | .append => h.latched + k
            | .verify => h.latched + acc + 1
        let s := s.updSession n fun x => { x with commit := BitVec.ofNat 18 c, draft := BitVec.ofNat 18 c }
        let s := s.shrink n (ceilDiv c 64)
        s.updSession n fun x =>
          if moved && decide (x.held.toNat ≤ x.quota.toNat) then { x with overQuota := false } else x
  let s : State := match h.judge with
    | none => s
    | some (a, conn, ts, ys) =>
      let st : Status := if x.state ≠ .opened then .nakStale else if h.failed then .overQuota else .ok
      let a := if st = .ok then a else 0
      s.putResult conn (resultBody (BitVec.ofNat 32 (x.gen.toNat * 2 ^ 14 + n)) st a ((s.session n).commit.setWidth 32)
        (ts.getD a 0) ys)
  s.letGo n

/-- One held session at an abort fret: the pointer stays, the pages the task allocated go (06 R333). -/
def State.abortHold (s : State) (h : Hold) : State :=
  let n := h.ctx
  let s : State :=
    if (s.session n).state ≠ .opened ∨ h.written.isNone then s
    else (s.shrink n h.heldBefore).updSession n fun x => { x with draft := x.commit }
  s.letGo n

/-- The sessions a task holds, in the order it took them, and the state without those holds. -/
def State.dropHolds (s : State) (t : BitVec 32) : List Hold × State :=
  (s.sess.holds.filter (·.task = t), s.modSess fun e =>
    { e with holds := e.holds.filter (·.task ≠ t), stale := e.stale.filter (·.1 ≠ t) })

/-- At a task's commit fret: results for stale handles it judged, then every held session (06 R332, R342). -/
def State.commitSessions (s : State) (t : BitVec 32) : State :=
  let old := s.sess.stale.filter (·.1 = t)
  let r := s.dropHolds t
  let s := r.2.each old fun s e =>
    let c := s.freeVal
    c.2.putResult e.2.2.1 (resultBody e.2.1 .nakStale 0 c.1 e.2.2.2 [])
  s.each r.1 fun s h => s.commitHold h

/-- At a task's abort fret (06 R333). -/
def State.abortSessions (s : State) (t : BitVec 32) : State :=
  let r := s.dropHolds t
  r.2.each r.1 fun s h => s.abortHold h

/-- R341: a session written in VERIFY mode that the judge has not popped. -/
def State.unjudged (s : State) (t : BitVec 32) : Bool :=
  s.sess.holds.any fun h =>
    decide (h.task = t) && (h.written.map fun w => decide (w.2 = .verify)).getD false && h.judge.isNone

/-- VERIFY_RESULT_SEND: the oldest result whose connection grants credit is sent; a result that was accepted before its
connection began to close is still sent, and one that its connection refuses (07 R364, R379, R389, R394) leaves the
buffer (06 R343; 07 R378). -/
def execVerifyResultSend (s : State) : Host.Outcome State Fault Refusal :=
  let ready := fun (e : Nat × List Byte) =>
    let c := s.conn e.1
    match c.state with
    | .opening => !c.sentBy 5 0
    | .opened | .draining =>
      !c.sentBy 5 0 || (!c.nak && decide (c.grant.toNat < recUnits 128))
        || (decide (c.waiting = []) && decide (c.marker = none) && c.allows (recUnits 128))
    | _ => true
  match s.sess.results.find? ready with
  | none => .next s
  | some e =>
    let s := s.modSess fun x => { x with results := x.results.erase e }
    let c := s.conn e.1
    if c.state = .draining ∧ c.sentBy 5 0 then
      if c.marker ≠ none then .next (s.refuse e.1 .nakStale 5)
      else if !c.nak ∧ c.grant.toNat < recUnits 128 then .next ((s.refuse e.1 .nakFull 1).flush e.1)
      else .next ((s.transmit e.1 ⟨e.2, 1, 0⟩).flush e.1)
    else .next (s.sessSend e.1 e.2)

/-- A core reset on the sessions (06 R322): holds end, tentative pages go, CLOSING sessions go FREE. -/
def State.coreResetSessions (s : State) : State :=
  let s := s.modSess fun e => { e with holds := [], stale := [] }
  s.each (s.sess.ctxs.map (·.1)) fun s n =>
    let x := s.session n
    match x.state with
    | .free => s
    | .closing => (s.updSession n fun x => { x with draft := x.commit, use := 0 }).freeSession n
    | .opened =>
      (s.shrink n (min x.held.toNat (ceilDiv x.commit.toNat 64))).updSession n fun x =>
        { x with draft := x.commit, use := 0 }

/-! ## Register writes -/

/-- SPN_SESS_TBL: no effect while any session is OPEN or CLOSING (06 R344). -/
def State.writeSessTbl (s : State) (v : Word) : State :=
  if s.sess.ctxs.any fun e => decide (e.2.state ≠ .free) then s
  else s.modSess fun e => { e with tblBase := v.setWidth 13 }

/-- Byte ranges of the memory a pool uses: base and length in each of its partitions (06 R315). -/
def PoolSt.ranges (p : PoolSt) : List (Nat × Nat) :=
  let n := p.partList.length
  (List.range n).map fun i =>
    (p.partList.getD i 0 * 2 ^ 36 + p.base.toNat * 4096, (p.count.toNat - i + n - 1) / n * p.pageBytes)

/-- Two byte ranges share a byte; an empty range shares none. -/
def overlaps (x y : Nat × Nat) : Bool :=
  decide (0 < x.2) && decide (0 < y.2) && decide (x.1 < y.1 + y.2) && decide (y.1 < x.1 + x.2)

/-- Byte ranges of the sided regions that are live (05 R279). -/
def State.liveRanges (s : State) : List (Nat × Nat) :=
  s.scheds.flatMap fun e => e.2.image.regions.flatMap fun r => [(r.a, r.size), (r.b, r.size)]

/-- A pool's configuration may be enabled (06 R315, R346). -/
def State.poolOk (s : State) (n : Nat) : Bool :=
  let p := s.pool n
  let k := p.partList.length
  let others := (List.range 16).flatMap fun m => if m ≠ n ∧ (s.pool m).enable then (s.pool m).ranges else []
  let taken := others ++ s.liveRanges ++ [(s.sess.tblBase.toNat * 2 ^ 27, 2 ^ 27)]
  decide (1 ≤ k) && decide (p.pageBytes ≤ 2 ^ 26) && decide (1 ≤ p.count.toNat) && decide (p.count.toNat ≤ 65536)
    && decide (p.base.toNat * 4096 + ceilDiv p.count.toNat k * p.pageBytes ≤ 0x900000000)
    && p.ranges.all fun r => !(taken.any (overlaps r))

/-- SPN_KVP_BASEn (06 R346). -/
def State.writeKvpBase (s : State) (n : Nat) (v : Word) : State :=
  let on := bit v 31
  let s := s.when (bit v 30) fun s => s.updPool n fun p => { p with cfgErr := false }
  if (s.pool n).enable then
    s.when (!on && decide ((s.pool n).used = [])) fun s => s.updPool n fun p => { p with enable := false }
  else
    let s := s.updPool n fun p => { p with base := v.setWidth 24 }
    s.when on fun s =>
      if s.poolOk n then s.updPool n fun p => { p with enable := true, used := [] }
      else s.updPool n fun p => { p with cfgErr := true }

/-- SPN_KVP_GEOMn and SPN_KVP_PAGESn, writable while the pool is disabled (06 R347, R348). -/
def State.writeKvpGeom (s : State) (n : Nat) (v : Word) : State :=
  s.when (!(s.pool n).enable) fun s => s.updPool n fun p =>
    { p with mask := v.extractLsb' 16 16, planes := v.extractLsb' 8 8, slot := v.setWidth 8 }
def State.writeKvpPages (s : State) (n : Nat) (v : Word) : State :=
  s.when (!(s.pool n).enable) fun s => s.updPool n fun p => { p with count := v.setWidth 17 }

end Sys2Proof.Machine
end

