-- ==== Sys2Proof/Machine/Streams.lean ====
section
/-! DEFINITION. Stream contexts: the arm checks, activation, and drawers filled from and drained to device memory (05 R249 to R289; 06 R300 to R331). -/

namespace Sys2Proof

def StreamUse.isWrite (u : StreamUse) : Bool := u.kind = .write || u.kind = .kvWrite

/-- The tile SRAM address of physical drawer k mod 2 (05 R253). -/
def StreamUse.base (u : StreamUse) (k : Nat) : Nat := if k % 2 = 0 then u.base0 else u.base1

/-- 256-byte requests of one drawer. -/
def StreamUse.per (u : StreamUse) : Nat := u.size / 256

end Sys2Proof

namespace Sys2Proof.Machine

/-! ## Uses and their frets -/

/-- Kind codes (05 R250). -/
def kindCode : StreamKind → BitVec 3
  | .read => 1 | .write => 2 | .gather => 3 | .kvRead => 4 | .kvWrite => 5

/-- The current use of a context. -/
def CtxSt.use? (x : CtxSt) : Option StreamUse := x.uses[x.used]?

/-- A fret given by an offset from the launch fret. -/
def CtxSt.fretOf (x : CtxSt) (o : Int) : Int := (x.launch : Int) + o

/-- F_k or G_k (05 R253, R256). -/
def CtxSt.drawerFret (x : CtxSt) (u : StreamUse) (k : Nat) : Int := x.fretOf (u.first + k * u.period)

/-- The deadline of a drawer's requests (05 R255, R256). -/
def CtxSt.deadline (x : CtxSt) (u : StreamUse) (k : Nat) : Int :=
  if u.isWrite then (if k + 3 ≤ u.n then x.drawerFret u k + 2 * u.period else x.fretOf u.drain)
  else x.drawerFret u k - u.ret

/-- Deadlines travel as 24 bits of the fret (05 R264). -/
def deadline24 (d : Int) : Nat := (d % 2 ^ 24).toNat

/-- The logical tile a use serves. -/
def useLt (key : Nat) (u : StreamUse) : Nat := 16 * (key / 64) + u.slot

/-- The address of request j of a pattern (05 R252). -/
def patAddr (pat : List (Nat × Int)) (base : Int) (j : Nat) : Int :=
  (pat.foldl (fun (r : Int × Nat) cs => (r.1 + ((r.2 % max cs.1 1 : Nat) : Int) * cs.2, r.2 / max cs.1 1)) (base, j)).1

/-- A device address at its 256-byte unit: a base that is no multiple of 256 is taken as that of its unit (R234; log entry 62). -/
def unit256 (a : Nat) : Nat := a / 256 * 256

/-- The base of a use's addresses for a task (05 R251, R280). -/
def State.useBase (s : State) (task : BitVec 32) (u : StreamUse) : Int :=
  match u.src with
  | .absolute b => (unit256 b : Nat)
  | .region n next off => match s.region n with
    | some r => (unit256 (s.sideBase task r next + off) : Nat)
    | none => 0

/-! ## Arm checks -/

/-- The configuration a task has at a logical tile, in either bank. -/
def State.bankFor (s : State) (lt : Nat) (task : BitVec 32) : Option TileCfg :=
  let t := s.tile (s.ptOf lt)
  (([t.next, t.cur].filterMap id).find? fun b => b.task = task).map (·.cfg)

def powerOfTwo (n : Nat) : Bool := (List.range 32).any fun j => decide (n = 2 ^ j)

/-- Drawer geometry, check 0x1 (05 R251, R268, R287; 06 R324). -/
def State.geometryOk (s : State) (cfg : Option TileCfg) (u : StreamUse) : Bool :=
  match cfg.bind (·.folds[u.fold]?) with
  | none => false
  | some f =>
    let drawers := [(u.base0, u.size), (u.base1, u.size)]
    let areas := (foldAreas f).map fun a => (f.sramBase + a.1, a.2)
    u.size % 256 = 0 && decide (256 ≤ u.size) && decide (u.size ≤ 2 ^ 18) && decide (1 ≤ u.n) && decide (u.n ≤ 2 ^ 24)
      && (drawers.all fun d => d.1 % 256 = 0 && decide (f.sramBase ≤ d.1) && decide (d.1 + d.2 ≤ f.sramBase + f.sramSize)
            && areas.all fun a => !overlaps d a)
      && !overlaps (u.base0, u.size) (u.base1, u.size)
      && (match u.gather with
          | some g => powerOfTwo g.pageSize && decide (256 ≤ g.pageSize) && decide (g.pageSize ≤ u.size)
              && decide (u.size % g.pageSize = 0) && decide (1 ≤ g.tableCount)
          | none => u.kind ≠ .gather)
      && (match u.kv with
          | some kv =>
            if kv.plane = 0xFF ∧ u.kind = .kvRead then u.size = 256
            else kv.n * (s.pool kv.pool).slotBytes % u.size = 0 && decide (u.size ≤ kv.n * (s.pool kv.pool).slotBytes)
          | none => u.kind ≠ .kvRead && u.kind ≠ .kvWrite)

/-- Timing, check 0x2 (05 R251). -/
def timingOk (len : Nat) (u : StreamUse) : Bool :=
  decide (1 ≤ u.period) && decide (u.period ≤ 65535) && decide (-65535 ≤ u.first) && decide (u.first ≤ 2 ^ 24)
    && decide (1 ≤ u.ret) && decide (u.ret ≤ 255)
    && (if u.isWrite then decide (u.drain ≤ len)
        else decide (1 ≤ u.prologue) && decide (u.prologue ≤ 65535) && decide (1 ≤ u.lead) && decide (u.lead ≤ u.period))

/-- Pattern count, check 0x4 (05 R252). -/
def patternOk (u : StreamUse) : Bool :=
  if u.kind = .read ∨ u.kind = .write then
    u.pattern.length = 3 && (u.pattern.map (·.1)).foldl (· * ·) 1 = u.n * u.per
      && u.pattern.all fun p => decide (p.2 % 256 = 0)
  else true

/-- The address source, check 0x5: a region must be live, and the role of a write is next, the one side that a task may write (05 R277,
R287; log entry 63). -/
def State.sourceOk (s : State) (u : StreamUse) : Bool :=
  match u.src with
  | .absolute _ => true
  | .region n next _ => (s.region n).isSome && (next || u.kind ≠ .write)

/-- The first arm check of a use that fails (05 R274, R287). -/
def State.useCheck (s : State) (key : Nat) (task : BitVec 32) (launch : Nat) (prev : Option Int) (u : StreamUse) :
    Option Nat :=
  let act : Int := launch + u.activation
  if !s.geometryOk (s.bankFor (useLt key u) task) u then some 1
  else if !timingOk (s.task task).length u then some 2
  else if prev.any fun p => decide (act ≤ p) then some 3
  else if !patternOk u then some 4
  else if !s.sourceOk u then some 5
  else none

/-- The first failing check of a context's uses in order, and the retirement fret of the last use. -/
def State.usesCheck (s : State) (key : Nat) (task : BitVec 32) (launch : Nat) (prev : Option Int) :
    List StreamUse → Option Nat
  | [] => none
  | u :: us =>
    match s.useCheck key task launch prev u with
    | some e => some e
    | none => s.usesCheck key task launch (some (launch + u.retirement)) us

/-- A byte range touches a BAD digest region (10 R550). -/
def State.inBad (s : State) (a n : Nat) : Bool :=
  s.relx.digs.any fun e =>
    decide (e.2.state = .bad)
      && overlaps (a, n) (e.2.baseHi.toNat * 2 ^ 32 + e.2.baseLo.toNat, e.2.size.toNat * 262144)

/-- The sides that a static pattern of a task must keep to, as base and size: a read, the side that its sided source names; a write, the
next sides of the regions that the task declares as written (05 R246, R277). None: a read of an absolute source. -/
def State.sidesFor (s : State) (task : BitVec 32) (u : StreamUse) : Option (List (Nat × Nat)) :=
  if u.kind = .write then
    some ((((s.taskCfg task).map (·.writes)).getD []).filterMap fun n => (s.region n).map fun r => (s.sideBase task r true, r.size))
  else match u.src with
    | .region n next _ => some ((s.region n).map fun r => (s.sideBase task r next, r.size)).toList
    | .absolute _ => none

/-- The status of one request of a static pattern (05 R246; 10 R550; 12 R599). -/
def State.addrStatus (s : State) (sides : Option (List (Nat × Nat))) (a : Int) : Status :=
  if a < 0 then .memory
  else
    let st := (s.reach a.toNat 256).status
    let inside := match sides with
      | some rs => rs.any fun r => decide (r.1 ≤ a.toNat) && decide (a.toNat + 256 ≤ r.1 + r.2)
      | none => true
    if !inside ∨ s.inBad a.toNat 256 then (if st = .ok then .memory else leastStatus st .memory) else st

/-- The completion status that a static pattern's addresses give at arming: of several, the one that R220 chooses (05 R246; 04
R220). -/
def State.staticStatus (s : State) (task : BitVec 32) (u : StreamUse) : Status :=
  if u.kind ≠ .read ∧ u.kind ≠ .write then .ok
  else
    let sides := s.sidesFor task u
    let base := s.useBase task u
    (List.range (u.n * u.per)).foldl (fun x j =>
      let st := s.addrStatus sides (patAddr u.pattern base j)
      if st = .ok then x else if x = .ok then st else leastStatus x st) .ok

/-- A use that issues before launch is armed less than 16 frets before its activation fret (05 R275). -/
def lateArm (now : Nat) (h : HeldArm) : Bool :=
  h.uses.head?.any fun u => decide (u.activation < 0) && decide ((h.launch : Int) + u.activation - 16 < now)

/-- Arm a context for a task while it is IDLE: the checks, then ARMED (05 R275, R286, R289, R785). -/
def State.armIdle (s : State) (key : Nat) (h : HeldArm) : State :=
  let x := s.ctx key
  let s : State := match s.usesCheck key h.task h.launch x.lastRetire h.uses with
    | some e =>
      let first := !(s.clus (key / 64)).cfgErr
      let s := s.updClus (key / 64) fun c =>
        { c with cfgErr := true, errCheck := if first then BitVec.ofNat 4 e else c.errCheck
                 errCtx := if first then BitVec.ofNat 6 key else c.errCtx }
      s.failArm h.task .bound
    | none =>
      (h.uses.map (s.staticStatus h.task)).foldl (fun s st => if st = .ok then s else s.failArm h.task st) s
  let s := s.when (lateArm s.now h) fun s => s.updTask h.task fun t => { t with armLate := true, dead := true }
  s.updCtx key fun x =>
    { x with
      state := .armed, task := h.task, launch := h.launch, uses := h.uses, used := 0, live := false, next := 0
      drawers := [], hints := [], hinted := [], kvCur := none, starved := false, maxFill := 0, minSlack := 0xFFFF
      lastRetire := match h.uses.getLast? with
        | some u => some (h.launch + u.retirement)
        | none => x.lastRetire }

/-- An arm message reaches a context: it is checked now, or held until the context is IDLE (05 R286). -/
def State.armCtx (s : State) (key : Nat) (h : HeldArm) : State :=
  if (s.ctx key).state = .idle then s.armIdle key h
  else s.updCtx key fun x => { x with held := x.held ++ [h] }

/-- A context becomes IDLE, and a held arm is checked (05 R286). -/
def State.ctxIdle (s : State) (key : Nat) : State :=
  let s := s.updCtx key fun x => { x with state := .idle, live := false, drawers := [], kvCur := none, hints := [], hinted := [] }
  match (s.ctx key).held with
  | [] => s
  | h :: hs => (s.updCtx key fun x => { x with held := hs }).armIdle key h

/-! ## Requests -/

/-- Change one drawer of a context. -/
def State.updDrawer (s : State) (key k : Nat) (f : DrawerRt → DrawerRt) : State :=
  s.updCtx key fun x => { x with drawers := x.drawers.map fun d => if d.k = k then f d else d }

def CtxSt.drawer? (x : CtxSt) (k : Nat) : Option DrawerRt := x.drawers.find? fun d => d.k = k

/-- Slack and fill of a drawer, and the index last completed (05 R259, R260, R288, R289). -/
def State.recordDrawer (s : State) (key k : Nat) (slack : Int) (fill : Nat) : State :=
  let slack := min slack.toNat 0xFFFF
  let s := s.updCtx key fun x =>
    { x with
      minSlack := if x.starved then x.minSlack else BitVec.ofNat 16 (min x.minSlack.toNat slack)
      maxFill := BitVec.ofNat 16 (max x.maxFill.toNat (min fill 0xFFFF)), k := BitVec.ofNat 16 k }
  s.modTel fun t =>
    let c := key / 64
    let l := Tab.get {} t.cnt.clus c
    let l := { l with slack := min l.slack slack, fill := max l.fill fill, ctx := if slack < l.slack then key % 64 else l.ctx }
    { t with cnt := { t.cnt with slack := min t.cnt.slack slack, clus := Tab.put t.cnt.clus c l } }

/-- An underrun: the bit, slack 0, and the abort cause (05 R258, R289). -/
def State.underrun (s : State) (key : Nat) : State :=
  let t := (s.ctx key).task
  let s := s.updCtx key fun x => { x with underrun := true, starved := true, minSlack := 0 }
  let s := s.modTel fun m =>
    let c := key / 64
    let l := Tab.get {} m.cnt.clus c
    { m with cnt := { m.cnt with underruns := m.cnt.underruns + 1, slack := 0
                                 clus := Tab.put m.cnt.clus c { l with under := l.under + 1, slack := 0, ctx := key % 64 } } }
  s.detect t .underrun

/-- A request leaves the engine for its controller; the last write of a drawer records its slack (05 R257 to R261). -/
def State.sendReq (s : State) (c : Nat) (r : HbmReq) : State :=
  let s := s.enqueueReq (partOf r.addr) { r with arrived := s.now }
  let s := s.updClus c fun x => { x with outstanding := x.outstanding + 1 }
  match r.who with
  | .drawer key k _ =>
    let s := s.updDrawer key k fun d =>
      { d with issued := d.issued + 1, sent := s.now, first := if d.issued = 0 then s.now else d.first }
    let x := s.ctx key
    match x.use?, x.drawer? k with
    | some u, some d =>
      if r.write ∧ d.issued = d.want then s.recordDrawer key k (x.deadline u k - 1 - s.now) (s.now - d.first) else s
    | _, _ => s
  | _ => s

/-- A free entry at the controller and a free slot at the engine (05 R249, R261, R262). -/
def State.reqFits (s : State) (c : Nat) (r : HbmReq) : Bool :=
  decide ((s.clus c).outstanding < 1024) && decide ((s.part (partOf r.addr)).chanOut (r.pc / 2) < 192)

/-- The context a request belongs to. -/
def ReqFor.ctx : ReqFor → Option Nat
  | .drawer x _ _ | .table x _ | .discarded x => some x
  | _ => none

/-- Issue a request, or hold it in the engine (05 R262). -/
def State.issue (s : State) (key : Nat) (r : HbmReq) : State :=
  let c := key / 64
  let s := s.updCtx key fun x => { x with outstanding := x.outstanding + 1 }
  if s.reqFits c r then s.sendReq c r else s.updClus c fun x => { x with waiting := x.waiting ++ [r] }

/-- The task that a request of a context serves. -/
def State.reqTask (s : State) (r : HbmReq) : Option (BitVec 32) := r.who.ctx.map fun k => (s.ctx k).task

/-- The requests an engine holds go out as entries and slots come free; none goes out for a task that a cause keeps from its launch
(R262; 04 R787). -/
def State.drain (s : State) (c : Nat) : State :=
  let w := (s.clus c).waiting
  let s := s.updClus c fun x => { x with waiting := [] }
  s.each w fun s r =>
    if s.reqFits c r && (s.reqTask r).all (s.alive ·) then s.sendReq c r else s.updClus c fun x => { x with waiting := x.waiting ++ [r] }

def State.drainAll (s : State) : State := s.each (s.cluss.map (·.1)) (·.drain ·)

/-- A stream request of 256 bytes. -/
def streamReq (who : ReqFor) (addr : Nat) (write : Bool) (data : List Byte) (cls : ReqClass) (d : Int) : HbmReq :=
  { id := 0, pc := pcOf addr, addr := addr, write := write, data := data, cls := cls, deadline := deadline24 d
    arrived := 0, who := who }

/-- A request of one drawer completes: the drawer is full when none is missing, and its slack is recorded (05 R253,
R259, R260). -/
def State.checkFull (s : State) (key k : Nat) : State :=
  let x := s.ctx key
  match x.use?, x.drawer? k with
  | some u, some d =>
    if d.due ∧ d.tables = 0 ∧ d.full.isNone ∧ d.want ≤ d.acked then
      let s := s.updDrawer key k fun d => { d with full := some s.now }
      s.recordDrawer key k (x.drawerFret u k - 1 - s.now) (s.now - d.first)
    else s
  | _, _ => s

/-- Bytes placed in a drawer: they replace what waits to be written back, and a tile in reset takes none (02 R105, R107). -/
def State.fillDrawer (s : State) (key : Nat) (u : StreamUse) (k off : Nat) (bs : List Byte) : State :=
  let pt := s.ptOf (useLt key u)
  let a := u.base k + off
  s.when (!s.tileInReset pt) fun s => s.updTile pt fun t =>
    { t with
      sram := Mem.writeZ t.sram a bs
      writeBack := t.writeBack.filter fun w => decide (8 * w.toNat + 8 ≤ a) || decide (a + bs.length ≤ 8 * w.toNat) }

/-- Zeros placed in a range of a drawer; the words are noted (05 R270). -/
def State.zeroDrawer (s : State) (key : Nat) (u : StreamUse) (k off n : Nat) : State :=
  let s := s.fillDrawer key u k off (List.replicate n 0)
  s.updDrawer key k fun d => { d with zeros := d.zeros ++ (List.range (n / 128)).map (off / 128 + ·) }

/-- A drawer's record as its requests begin to be made. -/
def State.openDrawer (s : State) (key k want : Nat) : State :=
  let s := s.updCtx key fun x =>
    let drawers := if x.drawers.any (·.k = k) then x.drawers else x.drawers ++ [{ k := k }]
    { x with drawer := decide (k % 2 = 1), drawers := drawers, next := k + 1 }
  s.updDrawer key k fun d => { d with want := want, first := s.now, due := true }

/-! ## Gather -/

/-- Gather pages per drawer. -/
def gatherPages (u : StreamUse) (g : GatherCfg) : Nat := u.size / g.pageSize

/-- The 32-bit indices of index words (05 R269). -/
def indexWords (ws : List QWord) : List Nat := ws.flatMap fun w => (List.range 32).map fun i => leAt w.bytes (4 * i) 4

/-- A list predictor's entry number, key match and confidence limit (06 R304, R307, R353). -/
def lpIndex (hash : Word) : Nat := hash.toNat % 4096
def lpTag (hash : Word) : BitVec 20 := BitVec.ofNat 20 (hash.toNat / 4096)

/-- The update of R311. -/
def lpUpdate (old : Option LpEnt) (key : BitVec 8) (tag : BitVec 20) (pages : List (BitVec 32)) : LpEnt :=
  match old with
  | none => ⟨key, tag, 1, pages⟩
  | some e =>
    if e.key = key ∧ e.tag = tag then
      if e.pages = pages then { e with conf := if e.conf = 7 then 7 else e.conf + 1 } else ⟨key, tag, 1, pages⟩
    else if e.conf = 0 then ⟨key, tag, 1, pages⟩ else { e with conf := e.conf - 1 }

/-- The hash of the hint a drawer had, used or not. -/
def CtxSt.hashFor (x : CtxSt) (k : Nat) : Option Word :=
  match x.hinted.find? fun h => h.1 = k with
  | some h => some h.2
  | none => (x.hints.find? fun h => h.2 = k).map (·.1)

/-- Requests already made ahead for one gather page of a drawer. -/
def aheadOf (key k m i : Nat) (r : HbmReq) : Bool :=
  match r.who with
  | .drawer x k' j => decide (x = key) && decide (k' = k) && decide (j / m = i)
  | _ => false

/-- A predicted page that equals the real index: its requests queued or started become scheduled ones (06 R308). -/
def State.keepAhead (s : State) (key k m i d : Nat) : State :=
  let f := fun (r : HbmReq) => if aheadOf key k m i r then { r with cls := .scheduled, deadline := d } else r
  let s := s.modParts fun ps => ps.map fun e => (e.1, { e.2 with queue := e.2.queue.map f, started := e.2.started.map f })
  s.updClus (key / 64) fun c => { c with waiting := c.waiting.map f }

/-- A predicted page that differs: cancelled where it has not started, its data discarded where it has (06 R308). -/
def State.dropAhead (s : State) (key k m i : Nat) : State :=
  let mine := aheadOf key k m i
  let inQ := (s.parts.map fun e => (e.2.queue.filter mine).length).foldl (· + ·) 0
  let inW := ((s.clus (key / 64)).waiting.filter mine).length
  let s := s.modParts fun ps => ps.map fun e =>
    (e.1, { e.2 with
      queue := e.2.queue.filter fun r => !mine r
      started := e.2.started.map fun r => if mine r then { r with who := .discarded key } else r })
  let s := s.updClus (key / 64) fun c =>
    { c with waiting := c.waiting.filter fun r => !mine r, outstanding := c.outstanding - inQ }
  let s := s.updCtx key fun x => { x with outstanding := x.outstanding - inQ - inW }
  s.updDrawer key k fun d =>
    { d with ahead := d.ahead.filter fun j => decide (j / m ≠ i)
             poisoned := d.poisoned.filter fun w => decide (w / (2 * m) ≠ i) }

/-- The requests of a drawer that wait or have started. -/
def State.madeAhead (s : State) (key k : Nat) : List Nat :=
  let all := (s.parts.flatMap fun e => e.2.queue ++ e.2.started) ++ (s.clus (key / 64)).waiting
  all.filterMap fun r => match r.who with
    | .drawer x k' j => if x = key ∧ k' = k then some j else none
    | _ => none

/-- One page of a gather drawer at its issue fret: zeros, an abort, data read ahead, or its requests (05 R246, R270,
R272; 06 R308; 10 R550). -/
def State.gatherPage (s : State) (key : Nat) (u : StreamUse) (g : GatherCfg) (k i idx : Nat) (d : Int) : State :=
  let x := s.ctx key
  let m := g.pageSize / 256
  let pages := ((x.drawer? k).map (·.pages)).getD []
  let p := clusPart (key / 64)
  let hit := decide (pages[i]? = some idx)
  let s : State := match pages[i]? with
    | none => s
    | some _ =>
      if hit then s.updPart p fun r => { r with lpHit := satAdd r.lpHit 1 }
      else (s.updPart p fun r => { r with lpMiss := satAdd r.lpMiss 1 }).dropAhead key k m i
  if idx = 0xFFFFFFFF then s.zeroDrawer key u k (i * g.pageSize) g.pageSize
  else if g.tableCount ≤ idx then s.detect x.task .memory
  else
    let a := unit256 g.tableBase + idx * g.pageSize
    let st := (s.reach a g.pageSize).status
    if st ≠ .ok then s.detect x.task st
    else if s.inBad a g.pageSize then s.detect x.task .memory
    else if hit then
      let ahead := (((s.ctx key).drawer? k).map (·.ahead)).getD []
      let done := (ahead.filter fun j => decide (j / m = i)).length
      let made := ahead ++ s.madeAhead key k
      let s := s.updDrawer key k fun dr => { dr with want := dr.want + m, acked := dr.acked + done }
      let s := s.keepAhead key k m i (deadline24 d)
      s.each ((List.range m).filter fun j => !made.contains (i * m + j)) fun s j =>
        s.issue key (streamReq (.drawer key k (i * m + j)) (a + 256 * j) false [] .scheduled d)
    else
      let s := s.updDrawer key k fun dr => { dr with want := dr.want + m }
      s.each (List.range m) fun s j =>
        s.issue key (streamReq (.drawer key k (i * m + j)) (a + 256 * j) false [] .scheduled d)

/-- A gather drawer at its issue fret: the index words, every page, and the predictor's update (05 R269 to R272; 06
R308, R311). -/
def State.issueGather (s : State) (key : Nat) (u : StreamUse) (g : GatherCfg) (k : Nat) : State :=
  let x := s.ctx key
  let n := gatherPages u g
  match (if s.serves (useLt key u) x.task then s.popWords (useLt key u) u.fold g.indexInput (ceilDiv n 32) else none) with
  | none => (s.openDrawer key k 1).detect x.task .bound
  | some (ws, s) =>
    let idx := (indexWords ws).take n
    let s := s.openDrawer key k 0
    let s := s.each idx.zipIdx fun s e => s.gatherPage key u g k e.2 e.1 (x.deadline u k)
    let s := s.checkFull key k
    match g.lpKey, (if 2 ≤ k then x.hashFor k else none) with
    | some lk, some h =>
      let pages := (idx.take 4).map (BitVec.ofNat 32)
      let s := s.updPart (clusPart (key / 64)) fun r =>
        { r with lp := Tab.put r.lp (lpIndex h) (lpUpdate (Tab.find r.lp (lpIndex h)) lk (lpTag h) pages) }
      s.updCtx key fun x =>
        { x with hints := x.hints.filter fun h => decide (k < h.2), hinted := x.hinted.filter fun h => decide (k < h.1) }
    | _, _ => s

/-! ## KV reads -/

/-- Drawers that one session occupies: n × s ÷ Z (06 R324). -/
def State.kvPer (s : State) (u : StreamUse) (kv : KvCfg) : Nat :=
  if kv.plane = 0xFF ∧ u.kind = .kvRead then 1 else max 1 (kv.n * (s.pool kv.pool).slotBytes / u.size)

/-- Pop the session word of a use at the issue fret of a session's first drawer; false where the task aborts (06 R324,
R325). -/
def State.kvPop (s : State) (key : Nat) (u : StreamUse) (kv : KvCfg) : Bool × State :=
  let x := s.ctx key
  match (if s.serves (useLt key u) x.task then s.popWords (useLt key u) u.fold kv.sessionInput 1 else none) with
  | none => (false, s.detect x.task .bound)
  | some (ws, s) =>
    let bs := (ws.head?.map (·.bytes)).getD []
    let r := s.popSession x.task kv u.isWrite bs
    match r.1 with
    | .abort st => (false, r.2.detect x.task st)
    | .sess n c => (true, r.2.updCtx key fun x => { x with kvCur := some (n, c) })
    | .none h =>
      let s := r.2.updCtx key fun x => { x with kvCur := none }
      if kv.plane = 0xFF ∧ u.kind = .kvRead then
        let st : Status := if h = 0xFFFFFFFF then .ok else .nakStale
        let b := s.replyNone 4 st 0 h 0
        (true, b.2.fillDrawer key u x.next 0 (b.1 ++ List.replicate 224 0))
      else (true, s)

/-- Positions of a session that one drawer holds: first and count. -/
def State.kvSpan (s : State) (u : StreamUse) (kv : KvCfg) (k : Nat) : Nat × Nat :=
  let b := (s.pool kv.pool).slotBytes
  let off := k % s.kvPer u kv * u.size
  (off / b, ceilDiv (off % b + u.size) b)

/-- The 256-byte pieces of a KV drawer that lie in visible, allocated slots: piece number, page index and the offset in
the slot (06 R326). -/
def State.kvPieces (s : State) (u : StreamUse) (kv : KvCfg) (k n limit first : Nat) : List (Nat × Nat × Nat) :=
  let b := (s.pool kv.pool).slotBytes
  let off := k % s.kvPer u kv * u.size
  (List.range u.per).filterMap fun j =>
    let t := first + (off + 256 * j) / b
    if t < limit ∧ t / 64 < (s.session n).held.toNat then some (j, t, (off + 256 * j) % b) else none

/-- The data requests of a KV read drawer, once its page-table entries are read (06 R316, R326, R337). -/
def State.kvRequests (s : State) (key : Nat) (u : StreamUse) (kv : KvCfg) (k n c : Nat) : State :=
  let x := s.ctx key
  let p := s.pool kv.pool
  s.each (s.kvPieces u kv k n c 0) fun s e =>
    let a := p.slotAddr (s.pageEntry n (e.2.1 / 64)) kv.plane e.2.1 + e.2.2
    let st := (s.reach a 256).status
    if st ≠ .ok then s.detect x.task st
    else s.issue key (streamReq (.drawer key k e.1) a false [] .scheduled (x.deadline u k))

/-- A KV read drawer at its issue fret (06 R324 to R327, R331). -/
def State.issueKv (s : State) (key : Nat) (u : StreamUse) (kv : KvCfg) (k : Nat) : State :=
  let x := s.ctx key
  let r := if k % s.kvPer u kv = 0 then s.kvPop key u kv else (true, s)
  let s := r.2
  if !r.1 then s.openDrawer key k 1
  else
    let cur := (s.ctx key).kvCur
    if kv.plane = 0xFF then
      let s := s.openDrawer key k 0
      let s : State := match cur with
        | none => s
        | some (n, c) =>
          let y := s.session n
          let body := sessReply 4 .ok 0 y.flags (s.handleOf n) (BitVec.ofNat 32 c) 0 (y.draft.setWidth 32)
            (y.held.setWidth 32) (y.quota.setWidth 32)
          s.fillDrawer key u k 0 (body ++ List.replicate 224 0)
      s.checkFull key k
    else
      let s := (s.openDrawer key k 0).fillDrawer key u k 0 (List.replicate u.size 0)
      match cur with
      | none => s.checkFull key k
      | some (n, c) =>
        let pieces := s.kvPieces u kv k n c 0
        let tabs := (pieces.map fun e => s.entryAddr n (e.2.1 / 64) / 256).eraseDups
        let s := s.updDrawer key k fun d => { d with want := pieces.length, tables := tabs.length, kv := some (n, c) }
        let s := s.each tabs fun s t =>
          let st := (s.reach (t * 256) 256).status
          if st ≠ .ok then s.detect x.task st
          else s.issue key (streamReq (.table key k) (t * 256) false [] .scheduled (x.deadline u k - 64))
        s.checkFull key k

/-! ## Commands of contexts -/

/-- The memory span of a task (05 R282). -/
def State.spanOf (s : State) (n : BitVec 32) : Nat × Nat := ((s.task n).earliest, s.commitFret (s.task n))

/-- R282: the span of another task that is live or has committed overlaps, one of the two writes a region both use, and this one launches
later, or in the same fret with the larger number. -/
def State.spanConflict (s : State) (n : BitVec 32) : Bool :=
  match s.taskCfg n with
  | none => false
  | some a =>
    let t := s.task n
    let sp := s.spanOf n
    s.tasks.any fun e =>
      let m := BitVec.ofNat 32 e.1
      match s.taskCfg m with
      | none => false
      | some b =>
        let sq := s.spanOf m
        let shared := (a.reads ++ a.writes).filter fun r => (b.reads ++ b.writes).contains r
        decide (m ≠ n) && (s.alive m || decide (e.2.phase = .committed)) && decide (sp.1 ≤ sq.2) && decide (sq.1 ≤ sp.2)
          && shared.any (fun r => a.writes.contains r || b.writes.contains r)
          && (decide (e.2.launch < t.launch) || (decide (e.2.launch = t.launch) && decide (m.toNat < n.toNat)))

/-- STREAM_ACTIVATE: the activation fret of a context's next use (05 R273, R275, R280, R282, R286, R288; 06 R302). A
task that armed too late for it, or that R282 stops, issues nothing. -/
def execStreamActivate (c : Clus) (x : Ctx) (s : State) : Host.Outcome State Fault Refusal :=
  let key := 64 * c.val + x.val
  let y := s.ctx key
  let late := y.held.find? fun h => h.uses.head?.any fun u => decide ((h.launch : Int) + u.activation = s.now)
  let go := fun (s : State) (u : StreamUse) =>
    s.updCtx key fun y =>
      { y with state := .active, live := true, next := 0, drawers := [], kvCur := none, kind := kindCode u.kind
               slot := BitVec.ofNat 4 u.slot, fold := BitVec.ofNat 3 u.fold }
  match y.use? with
  | some u =>
    let due := decide (y.fretOf u.activation = s.now)
    if due ∧ y.state = .armed ∧ s.alive y.task then
      if s.spanConflict y.task then .next (s.failArm y.task .memory) else .next (go (s.latchSides y.task) u)
    else if due ∧ y.state = .active ∧ y.live = false ∧ s.alive y.task then .next (go (s.latchSides y.task) u)
    else match late with
      | some h => .next (s.updTask h.task fun t => { t with armLate := true, dead := true })
      | none => .next s
  | none => .next s

/-- The fret from which a read drawer's requests are issued (05 R254). -/
def CtxSt.issueFret (x : CtxSt) (u : StreamUse) (k : Nat) : Int :=
  if k < 2 then x.fretOf u.activation else x.drawerFret u k - u.lead

/-- DRAWER_ISSUE: the next read drawer of a context is due (05 R252 to R255, R268 to R272; 06 R308, R324 to R331). -/
def execDrawerIssue (c : Clus) (x : Ctx) (s : State) : Host.Outcome State Fault Refusal :=
  let key := 64 * c.val + x.val
  let y := s.ctx key
  let k := y.next
  match y.use? with
  | none => .next s
  | some u =>
    if y.state ≠ .active ∨ y.live = false ∨ u.isWrite ∨ u.n ≤ k ∨ y.issueFret u k ≠ s.now ∨ s.alive y.task = false then
      .next s
    else match u.kind, u.gather, u.kv with
      | .gather, some g, _ => .next (s.issueGather key u g k)
      | .kvRead, _, some kv => .next (s.issueKv key u kv k)
      | _, _, _ =>
        let base := s.useBase y.task u
        let s := s.openDrawer key k u.per
        .next (s.each (List.range u.per) fun s j =>
          s.issue key (streamReq (.drawer key k j) (patAddr u.pattern base (k * u.per + j)).toNat false [] .scheduled
            (y.deadline u k)))

/-- READ_DRAWER_DUE: at F_k a drawer that is not full by the end of the fret before is an underrun; the drawer before
it is freed (05 R253, R258, R288). -/
def execReadDrawerDue (c : Clus) (x : Ctx) (s : State) : Host.Outcome State Fault Refusal :=
  let key := 64 * c.val + x.val
  let y := s.ctx key
  match y.use? with
  | none => .next s
  | some u =>
    let d : Int := (s.now : Int) - y.fretOf u.first
    let k := (d / max u.period 1).toNat
    if y.state ≠ .active ∨ y.live = false ∨ u.isWrite ∨ d < 0 ∨ d % max u.period 1 ≠ 0 ∨ u.n < k then .next s
    else
      let s := s.updCtx key fun y => { y with drawers := y.drawers.filter fun d => decide (k ≤ d.k) }
      let full := ((y.drawer? k).bind (·.full)).any fun f => decide (f < s.now)
      if k = u.n ∨ full ∨ s.alive y.task = false then .next s else .next (s.underrun key)

/-- The pages that the writes of a KV drawer reach are allocated in order; false at the first that fails (06 R328,
R329). -/
def State.kvGrow (s : State) (task : BitVec 32) (n upto : Nat) : Nat → Bool × State
  | 0 => (true, s)
  | fuel + 1 =>
    if upto < (s.session n).held.toNat then (true, s)
    else match s.growPage n with
      | some s' => s'.kvGrow task n upto fuel
      | none =>
        let s := s.updSession n fun x => { x with overQuota := true }
        let s := s.modSess fun e => { e with allocFail := satAdd e.allocFail 1 }
        (false, s.updHold task n fun h => { h with failed := true })

/-- The data of a write drawer in tile SRAM. -/
def State.drawerBytes (s : State) (key : Nat) (u : StreamUse) (k off n : Nat) : List Byte :=
  Mem.read (fun _ => 0) (s.tile (s.ptOf (useLt key u))).sram (u.base k + off) n

/-- The sectors of a request whose bytes a check of the tile found with two bits in error, as the drawer is read (02 R106). -/
def poisonedSectors (base : Nat) (obs : List TileFault) : List Nat :=
  obs.filterMap fun f => match f with
    | .sramDouble w => if base ≤ 8 * w.toNat ∧ 8 * w.toNat < base + 256 then some ((8 * w.toNat - base) / 32) else none
    | _ => none

/-- A full write drawer's requests (05 R256, R257; 06 R316, R324, R328 to R331). -/
def State.issueWrite (s : State) (key : Nat) (u : StreamUse) (k : Nat) (obs : List TileFault) : State :=
  let y := s.ctx key
  let put := fun (s : State) (j a : Nat) =>
    s.issue key
      { streamReq (.drawer key k j) a true (s.drawerBytes key u k (256 * j) 256) .scheduled (y.deadline u k) with
        wrong := poisonedSectors (u.base k + 256 * j) obs }
  match u.kv with
  | some kv =>
    let r := if k % s.kvPer u kv = 0 then s.kvPop key u kv else (true, s)
    let s := r.2.openDrawer key k 0
    if !r.1 then s
    else match (s.ctx key).kvCur with
      | none => s
      | some (n, c) =>
        if ((s.holdOf y.task n).map (·.failed)).getD false then s
        else
          let b := (s.pool kv.pool).slotBytes
          let off := k % s.kvPer u kv * u.size
          let last := (c + (off + u.size - 1) / b) / 64
          let g := s.kvGrow y.task n last (last + 1)
          let s := g.2
          if !g.1 then s
          else
            let s := s.updDrawer key k fun d => { d with want := u.per }
            s.each (List.range u.per) fun s j =>
              let t := c + (off + 256 * j) / b
              let a := (s.pool kv.pool).slotAddr (s.pageEntry n (t / 64)) kv.plane t + (off + 256 * j) % b
              let st := (s.reach a 256).status
              if st ≠ .ok then s.detect y.task st else put s j a
  | none =>
    let base := s.useBase y.task u
    let s := s.openDrawer key k u.per
    s.each (List.range u.per) fun s j => put s j (patAddr u.pattern base (k * u.per + j)).toNat

/-- WRITE_DRAWER_FILL_CHECK: at G_k + T a write drawer that is not full aborts the task and issues nothing; a full one
is issued, with what the tile's checks report as it is read (05 R256, R783; 02 R104, R106). -/
def execWriteDrawerFillCheck (c : Clus) (x : CtxRead) (s : State) : Host.Outcome State Fault Refusal :=
  let key := 64 * c.val + x.ctx.val
  let y := s.ctx key
  let k := y.next
  match y.use? with
  | none => .next s
  | some u =>
    if y.state ≠ .active ∨ y.live = false ∨ u.isWrite = false ∨ u.n ≤ k ∨ y.drawerFret u k + u.period ≠ s.now
        ∨ s.alive y.task = false then .next s
    else if ((y.drawer? k).map (·.filled)).getD 0 < u.size then
      .next ((s.updCtx key fun y => { y with next := k + 1 }).detect y.task .bound)
    else .next ((s.issueWrite key u k x.obs).tileFaults (s.ptOf (useLt key u)) y.task u.fold (s.foldRt (s.ptOf (useLt key u)) u.fold) x.obs)

/-- A write drawer whose deadline is this fret holds data that was not issued by the end of the fret before (05 R258, case 2). -/
def CtxSt.unissued (y : CtxSt) (u : StreamUse) (now : Nat) : Bool :=
  y.drawers.any fun d => decide (y.deadline u d.k = now)
    && (if d.due then decide (d.issued < d.want) || decide (now ≤ d.sent) else decide (0 < d.filled))

/-- WRITE_DRAWER_DEADLINE: data not issued by the end of the fret before its deadline (05 R258, case 2), and writes not
acknowledged by the end of fret E + g − 2 (case 3). -/
def execWriteDrawerDeadline (c : Clus) (x : Ctx) (s : State) : Host.Outcome State Fault Refusal :=
  let key := 64 * c.val + x.val
  let y := s.ctx key
  let t := s.task y.task
  match y.use? with
  | none => .next s
  | some u =>
    let unacked := decide (s.now + 1 = t.ending + t.grace)
      && ((y.drawers.any fun d => d.due && decide (d.acked < d.want)) || decide (y.lastAck = s.now))
    if u.isWrite ∧ y.state = .active ∧ s.alive y.task ∧ (y.unissued u s.now ∨ unacked) then .next (s.underrun key) else .next s

/-- STREAM_RETIRE: at a use's retirement fret with its requests complete, the next use waits or the context is IDLE (05
R273, R286). -/
def execStreamRetire (c : Clus) (x : Ctx) (s : State) : Host.Outcome State Fault Refusal :=
  let key := 64 * c.val + x.val
  let y := s.ctx key
  match y.use? with
  | none => .next s
  | some u =>
    if y.state ≠ .active ∨ y.live = false ∨ (s.now : Int) < y.fretOf u.retirement ∨ y.outstanding ≠ 0
        ∨ (u.isWrite ∧ y.underrun = false ∧ y.unissued u s.now) then .next s
    else if y.used + 1 < y.uses.length then
      .next (s.updCtx key fun y =>
        { y with used := y.used + 1, live := false, next := 0, drawers := [], kvCur := none, hints := [], hinted := [] })
    else .next (s.ctxIdle key)

/-- STREAM_QUIESCE_DONE: the last outstanding request of a quiescing context is complete (05 R286). -/
def execStreamQuiesceDone (c : Clus) (x : Ctx) (s : State) : Host.Outcome State Fault Refusal :=
  let key := 64 * c.val + x.val
  let y := s.ctx key
  if y.state = .quiesce ∧ y.outstanding = 0 then .next (s.ctxIdle key) else .next s

/-- A task's contexts at its abort fret: ARMED to IDLE, ACTIVE to QUIESCE, held arms of the task dropped (05 R286). -/
def State.stopStreams (s : State) (task : BitVec 32) : State :=
  s.each (s.ctxs.map (·.1)) fun s key =>
    let s := s.updCtx key fun x => { x with held := x.held.filter fun h => decide (h.task ≠ task) }
    let x := s.ctx key
    if x.task ≠ task then s
    else
      let cut := fun (s : State) => s.updCtx key fun x =>
        { x with lastRetire := x.lastRetire.map fun r => min r (s.now : Int) }
      match x.state with
      | .armed => (cut s).ctxIdle key
      | .active =>
        let mine := fun (r : HbmReq) => decide (r.who.ctx = some key)
        let w := ((s.clus (key / 64)).waiting.filter mine).length
        let s := s.updClus (key / 64) fun c => { c with waiting := c.waiting.filter fun r => !mine r }
        (cut s).updCtx key fun x =>
          { x with state := .quiesce, live := false, drawers := [], outstanding := x.outstanding - w }
      | _ => s

/-- A reset of a cluster, its partition or the core: contexts IDLE at their reset values, requests discarded (05 R286
to R289). -/
def State.resetEngine (s : State) (c : Nat) : State :=
  let mine := fun (r : HbmReq) => r.who.ctx.any fun k => decide (k / 64 = c)
  let s := s.modParts fun ps => ps.map fun e =>
    (e.1, { e.2 with queue := e.2.queue.filter fun r => !mine r, started := e.2.started.filter fun r => !mine r })
  let s := s.updClus c fun x =>
    { x with waiting := [], outstanding := 0, cfgErr := false, errCheck := 0, errCtx := 0, twinHi := Per.all false }
  s.modCtxs fun t => t.filter fun e => decide (e.1 / 64 ≠ c)

end Sys2Proof.Machine
end

