-- ==== Sys2Proof/Machine/Hbm.lean ====
section
/-! DEFINITION. The channel controllers: deadline arbitration, reads and writes, refresh and scrubbing; the list predictor (05 R238 to R245, R263 to R267; 06 R304 to R312). -/

namespace Sys2Proof.Machine

/-! ## Arbitration -/

/-- Frets from now to a 24-bit deadline (05 R264). -/
def State.until24 (s : State) (d : Nat) : Int := (((d : Int) - s.now + 2 ^ 23) % 2 ^ 24) - 2 ^ 23

/-- A request into a list in deadline order, after those of the same deadline. -/
def State.insertByDeadline (s : State) (r : HbmReq) : List HbmReq → List HbmReq
  | [] => [r]
  | x :: xs =>
    if s.until24 r.deadline < s.until24 x.deadline then r :: x :: xs else x :: s.insertByDeadline r xs

/-- The scheduled requests of a pseudo-channel in deadline order, ties by arrival (05 R266). -/
def State.schedOrder (s : State) (p pc : Nat) : List HbmReq :=
  (((s.part p).queue.filter fun r => decide (r.pc = pc) && decide (r.cls = .scheduled))).foldl
    (fun q r => s.insertByDeadline r q) []

/-- The service time used in the projection, in ns (05 R291). -/
def PartSt.serviceNs (p : PartSt) : Nat := max 8 p.tWorst.toNat

/-- The compute clock of a half in MHz. -/
def State.mhz (s : State) (h : Half) : Nat := match h with | .west => s.clk.west.toNat | .east => s.clk.east.toNat

/-- The j-th request served (from 1) completes after the end of its deadline fret: times are thousandths of a compute
cycle from the start of this fret (05 R265). -/
def State.lateAt (s : State) (p cycle j : Nat) (r : HbmReq) : Bool :=
  decide ((s.until24 r.deadline + 1) * ((32 + s.fret.stretch.toNat) * 1000 : Nat)
    < ((cycle * 1000 + j * (s.part p).serviceNs * s.mhz (partHalf p) : Nat) : Int))

/-- Some request of a service order is endangered; `skip` requests are served before it (05 R265). -/
def State.endangered (s : State) (p cycle skip : Nat) (q : List HbmReq) : Bool :=
  q.zipIdx.any fun e => s.lateAt p cycle (skip + e.2 + 1) e.1

/-- The request that a command slot starts, and whether a scheduled request was endangered (05 R266, R267). -/
def State.arbitrate (s : State) (p pc cycle : Nat) (hits : List Nat) : Option HbmReq × Bool :=
  let q := s.schedOrder p pc
  let un := (s.part p).queue.filter fun r => decide (r.pc = pc) && decide (r.cls = .unscheduled)
  let sp := (s.part p).queue.filter fun r => decide (r.pc = pc) && decide (r.cls = .speculative)
  match q with
  | [] => (match un with | u :: _ => some u | [] => sp.head?, false)
  | h :: _ =>
    if s.endangered p cycle 0 q then (some h, true)
    else
      let dir := Tab.find (s.part p).lastDir pc
      let loc := (q.find? fun r => hits.contains r.id && decide (dir = some r.write)).filter fun r =>
        !s.endangered p cycle 0 (r :: q.filter fun x => decide (x.id ≠ r.id))
      let old := un.head?.filter fun u => decide (u.arrived + 256 ≤ s.now) && !s.endangered p cycle 1 q
      (match loc, old with
        | some r, _ => some r
        | none, some u => some u
        | none, none => some h, false)

/-- A request starts: a write is stored, poisoned in the sectors whose byte parity is wrong; a read is checked sector by sector, with the
bits in error that it finds (05 R241 to R243). -/
def State.startReq (s : State) (p : Nat) (r : HbmReq) (wrong : List Nat) (errs : List (Nat × BitErr)) : State :=
  let s := s.updPart p fun q =>
    { q with queue := q.queue.filter (fun x => decide (x.id ≠ r.id)), lastDir := Tab.put q.lastDir r.pc r.write }
  if r.write then
    let bad := (sectorsOf (r.addr + r.off) r.data.length).filter fun sec => (wrong ++ r.wrong).contains (sec - r.addr / 32)
    let s := s.hbmStore (r.addr + r.off) r.data bad
    let s := s.when (decide (bad ≠ [])) fun s =>
      let s := s.each bad fun s sec => s.recordUe sec 2
      match s.reqTask r with
      | some t => s.detect t .parity
      | none => s
    s.updPart p fun q => { q with started := q.started ++ [r] }
  else
    let s := s.noteErrs (errs.map fun e => (r.addr / 32 + e.1, e.2))
    let data := s.hbmBytes r.addr 256
    let c := s.checkRange r.addr 256
    c.2.updPart p fun q => { q with started := q.started ++ [{ r with data := data, bad := c.1 }] }

/-- HBM_REQUEST_START: a command slot of a pseudo-channel. `cycle` is the compute cycle within the fret, `hits` the
requests that target an open row (05 R236: the bank mapping affects timing only), `wrong` the sectors of a write whose byte parity is
wrong, and `errs` the bits in error in the sectors of a read. -/
def execHbmRequestStart (p : Part) (pc : Fin 32) (cycle : Nat) (hits : List Nat) (refreshDue : Bool)
    (seen : SectorsSeen) (s : State) : Host.Outcome State Fault Refusal :=
  if s.hbmUp p = false then .next s
  else if refreshDue then .next (s.updPart p fun q => { q with lastRefresh := Tab.put q.lastRefresh pc s.ticks })
  else
    let r := s.arbitrate p pc cycle hits
    let s := s.when r.2 fun s =>
      let s := s.updPart p fun q => { q with risk := satAdd q.risk 1 }
      s.modTel fun t => { t with cnt := { t.cnt with risk := t.cnt.risk + 1 } }
    match r.1 with
    | none => .next s
    | some x => .next (s.startReq p x (seen.wrong.map (·.val)) (seen.errs.map fun e => (e.1.val, e.2)))

/-- A request leaves its controller: entries and slots come free (05 R261, R262). -/
def State.endReq (s : State) (p : Nat) (r : HbmReq) : State :=
  let s := (s.updPart p fun q => { q with started := q.started.filter fun x => decide (x.id ≠ r.id) }).refill p
  match r.who.ctx with
  | none => s
  | some key =>
    let s := s.updClus (key / 64) fun c => { c with outstanding := c.outstanding - 1 }
    s.updCtx key fun x => { x with outstanding := x.outstanding - 1 }

/-- Poisoned words of a drawer, from the poisoned sectors of one of its requests. -/
def poisonedWords (addr off : Nat) (bad : List Nat) : List Nat := bad.map fun sec => (off + (sec * 32 - addr)) / 128

/-- HBM_READ_COMPLETE: read data fills its drawer, or the page-table entries of a KV drawer are known (05 R242, R253,
R286; 06 R326). -/
def execHbmReadComplete (p : Part) (req : Nat) (s : State) : Host.Outcome State Fault Refusal :=
  match (s.part p).started.find? fun r => decide (r.id = req) && !r.write with
  | none => .next s
  | some r =>
    let s := s.endReq p r
    let s : State := match r.who with
      | .drawer key k j =>
        let x := s.ctx key
        match x.use?, x.drawer? k with
        | some u, some d =>
          if x.state ≠ .active then s
          else
            let s := s.fillDrawer key u k (256 * j) r.data
            let s := s.updDrawer key k fun d =>
              { d with
                poisoned := d.poisoned ++ poisonedWords r.addr (256 * j) r.bad
                acked := if d.due then d.acked + 1 else d.acked, ahead := if d.due then d.ahead else d.ahead ++ [j] }
            if d.due then s.checkFull key k else s
        | _, _ => s
      | .table key k =>
        let x := s.ctx key
        match x.use?, x.drawer? k with
        | some u, some d =>
          let s := s.updDrawer key k fun d => { d with tables := d.tables - 1 }
          if x.state ≠ .active ∨ s.alive x.task = false then s
          else if r.bad ≠ [] then s.detect x.task .memory
          else match u.kv, d.kv with
            | some kv, some (n, c) => if d.tables = 1 then s.kvRequests key u kv k n c else s
            | _, _ => s
        | _, _ => s
      | _ => s
    .next s.drainAll

/-- HBM_WRITE_ACK: a write is acknowledged once it is in the stack (05 R257). -/
def execHbmWriteAck (p : Part) (req : Nat) (s : State) : Host.Outcome State Fault Refusal :=
  match (s.part p).started.find? fun r => decide (r.id = req) && r.write with
  | none => .next s
  | some r =>
    let s := s.endReq p r
    let s : State := match r.who with
      | .drawer key k _ =>
        let s := s.updDrawer key k fun d => { d with acked := d.acked + 1 }
        s.updCtx key fun x =>
          { x with lastAck := s.now, drawers := x.drawers.filter fun d => !(d.due && decide (d.want ≤ d.acked)) }
      | _ => s
    .next s.drainAll

/-- HBM_REFRESH: a per-bank refresh is issued; the rate follows the stack's temperature (05 R238, R290). -/
def execHbmRefresh (p : Part) (pc : Fin 32) (hot : Bool) (s : State) : Host.Outcome State Fault Refusal :=
  if (s.part p).hbm = .active then
    .next (s.updPart p fun q => { q with lastRefresh := Tab.put q.lastRefresh pc s.ticks, refresh2x := hot })
  else .next s

/-- HBM_SCRUB: the read of a sector of a partition, with the other sectors of its request, as an unscheduled request (05 R234, R245, R263,
R291). -/
def execHbmScrub (p : Part) (sector : Nat) (s : State) : Host.Outcome State Fault Refusal :=
  let a := p.val * 2 ^ 36 + sector * 32
  if s.hbmUp p = false ∨ (s.part p).scrubH = 0 ∨ 0x900000000 ≤ sector * 32 then .next s
  else
    let s := s.updPart p fun q => { q with lastScrub := some sector }
    .next (s.enqueueUn p { id := 0, pc := pcOf a, addr := unit256 a, write := false, data := [], cls := .unscheduled, deadline := 0
                           arrived := s.now, who := .scrub })

/-! ## The list predictor -/

/-- The hints of a message body: 8 bytes each, hash then bits [23:0] of the drawer (06 R306). -/
def hintsOf (bs : List Byte) : List (Word × Nat) :=
  (List.range (bs.length / 8)).map fun i => (BitVec.ofNat 32 (leAt bs (8 * i) 4), leAt bs (8 * i + 4) 3)

/-- LP_HINT_ARRIVE: the next message of a gather use's hint input; 64 unused hints at most, and a hint after its window
is discarded; the fold takes it while the context's task runs on its tile (06 R305 to R307; 07 R362). -/
def execLpHintArrive (c : Clus) (x : Ctx) (s : State) : Host.Outcome State Fault Refusal :=
  let key := 64 * c.val + x.val
  let y := s.ctx key
  match y.use? with
  | none => .next s
  | some u => match u.gather with
    | none => .next s
    | some g =>
      if g.lpKey.isNone ∨ y.state = .idle ∨ s.serves (useLt key u) y.task = false then .next s
      else match s.takeMessage (useLt key u) u.fold g.hintInput with
        | none => .next s
        | some (r, s) =>
          .next (s.each (hintsOf r.body) fun s h =>
            s.updCtx key fun y =>
              if 64 ≤ y.hints.length ∨ h.2 < 2 ∨ h.2 < y.next ∨ y.issueFret u h.2 < s.now then y
              else { y with hints := y.hints ++ [h] })

/-- Requests for one predicted page of a drawer. -/
def State.speculatePage (s : State) (key : Nat) (g : GatherCfg) (k i idx : Nat) : State :=
  let m := g.pageSize / 256
  let a := unit256 g.tableBase + idx * g.pageSize
  if g.tableCount ≤ idx ∨ s.reach a g.pageSize ≠ .ok ∨ s.inBad a g.pageSize then s
  else s.each (List.range m) fun s j =>
    s.issue key (streamReq (.drawer key k (i * m + j)) (a + 256 * j) false [] .speculative 0)

/-- LP_SPECULATE: in the hint window of the next drawer a confident entry's pages are read ahead; a drawer uses one hint, and a
further one for it is discarded unused (06 R305, R307, R309, R353; log entry 64). -/
def execLpSpeculate (c : Clus) (x : Ctx) (s : State) : Host.Outcome State Fault Refusal :=
  let key := 64 * c.val + x.val
  let y := s.ctx key
  let k := y.next
  let p := clusPart c.val
  match y.use? with
  | none => .next s
  | some u => match u.gather, y.hints.find? fun h => h.2 = k with
    | some g, some h =>
      let inside := decide (2 ≤ k) && decide (k < u.n) && decide (y.drawerFret u (k - 1) ≤ s.now)
        && decide ((s.now : Int) ≤ y.issueFret u k)
      if y.state ≠ .active ∨ y.live = false ∨ inside = false ∨ s.alive y.task = false then .next s
      else if y.hinted.any fun e => decide (e.1 = k) then .next (s.updCtx key fun y => { y with hints := y.hints.erase h })
      else
        let s := s.updCtx key fun y => { y with hints := y.hints.erase h, hinted := y.hinted ++ [(k, h.1)] }
        let cfg := s.part p
        match g.lpKey, Tab.find cfg.lp (lpIndex h.1) with
        | some lk, some e =>
          if cfg.lpEnable ∧ e.key = lk ∧ e.tag = lpTag h.1 ∧ max 1 cfg.lpThreshold.toNat ≤ e.conf.toNat then
            let pages := (e.pages.take (min (gatherPages u g) 4)).map BitVec.toNat
            let s := s.updCtx key fun y =>
              { y with drawers := y.drawers.filter (fun d => decide (d.k ≠ k)) ++ [{ k := k, pages := pages }] }
            .next (s.each pages.zipIdx fun s e => s.speculatePage key g k e.2 e.1)
          else .next s
        | _, _ => .next s
    | _, _ => .next s

/-- Invalidate a partition's predictor; every event of R312 but the flush also clears its counters (06 R312, R354). -/
def State.lpInvalidate (s : State) (p : Nat) (counters : Bool) : State :=
  s.updPart p fun q =>
    { q with lp := [], lpHit := if counters then 0 else q.lpHit, lpMiss := if counters then 0 else q.lpMiss }

/-- PART_LP_CFG (06 R353). -/
def State.writeLpCfg (s : State) (p : Nat) (v : Word) : State :=
  let s := s.updPart p fun q => { q with lpEnable := bit v 31, lpThreshold := v.extractLsb' 16 3 }
  s.when (bit v 30) (·.lpInvalidate p false)

/-- Window tests of a partition's controllers that are under way end uncounted: each is untested and is tested again
(15 R701). -/
def State.endWindows (s : State) (p : Nat) : State :=
  s.modBist fun b =>
    let mine := b.testing.filter fun k => decide (k / 32 = p)
    { b with testing := b.testing.filter fun k => decide (k / 32 ≠ p), untested := satAdd b.untested mine.length }

end Sys2Proof.Machine
end

