-- ==== Sys2Proof/Machine/Dataflow.lean ====
section
/-! DEFINITION. Tiles and folds: configuration, arming, launch, firings, edges and credits, steering units, the checks at the end of a task (03; 02 R104 to R113; 10 R520 to R532). -/

namespace Sys2Proof.Machine

/-! ## What a tile takes -/

/-- A tile takes messages: not fenced, powered, and in no reset (11 R559; 12 R603; 13 R636). -/
def State.tileTakes (s : State) (pt : Nat) : Bool :=
  decide ((s.role pt).role ≠ .fenced) && !s.parked (ptPart pt) && !s.waking (ptPart pt) && !s.tileInReset pt

/-- Words absorbed (11 R559, R579, R588). -/
def State.absorb (s : State) (n : Nat) : State := s.modHeal fun h => { h with absorbed := satAdd h.absorbed n }

/-- Words and credits for a tile are sunk and counted: it is fenced, it or its cluster is in a recovery reset, or its partition is in a
recovery RESET (11 R559, R579; 12 R601, R602). -/
def State.sinks (s : State) (pt : Nat) : Bool :=
  decide ((s.role pt).role = .fenced) || decide (s.partMode (ptPart pt) = .reset) || s.rstc.blks.any fun b =>
    b.recovery && ((decide (b.level = 0) && decide (b.target = pt)) || (decide (b.level = 1) && decide (b.target = ptClus pt)))

/-- CONFIG_WRITE: the next bank of the tile that serves the logical tile (03 R117, R164, R165). -/
def execConfigWrite (lt : Lt) (task : BitVec 32) (cfg : TileCfg) (s : State) : Host.Outcome State Fault Refusal :=
  let pt := s.ptOf lt
  if (s.role pt).role = .fenced then .next (s.absorb 1)
  else if s.tileTakes pt = false then .next s
  else .next (s.updTile pt fun t =>
    { t with next := some ⟨task, cfg⟩, mode := if t.mode = .idle then .config else t.mode })

/-! ## Arming -/

/-- R203: a port's crossing allowance exceeds what the image assumed. -/
def State.allowShort (s : State) (n : BitVec 32) : Bool :=
  match s.taskCfg n with
  | none => false
  | some c => c.allow.any fun e => decide (e.2 < (s.flightReg e.1).allow.toNat)

/-- The arm checks of a tile, and its arm state (03 R166 to R172). -/
def State.armTile (s : State) (pt : Nat) (m : ArmMsg) : State :=
  let t := s.tile pt
  let cfg := (if m.current then t.cur else t.next).map (·.cfg)
  let a : Armed := ⟨m.task, m.salt, m.launch, m.current⟩
  match armCheck (cfg.getD ⟨0, []⟩) with
  | some e =>
    let s := s.updTile pt fun t =>
      { t with armed := some a, armedOk := false, armCur := m.current, cfgErr := true
               errCheck := if t.cfgErr then t.errCheck else BitVec.ofNat 4 e }
    s.failArm m.task .bound
  | none => s.updTile pt fun t => { t with armed := some a, armedOk := true, armCur := m.current }

/-- ARM: a late arm slips (04 R184); a tile whose arbitration is incomplete is not armed (10 R536); a bank is checked and
armed, with the contexts that serve the tile (03 R166, R167; 04 R203; 05 R286). -/
def execArm (lt : Lt) (m : ArmMsg) (s : State) : Host.Outcome State Fault Refusal :=
  let pt := s.ptOf lt
  if (s.role pt).role = .fenced then .next (s.absorb 1)
  else if s.tileTakes pt = false ∨ (s.tile pt).capture.isSome then .next s
  else if m.launch ≤ s.now then .next (s.slip m.task 4 0)
  else
    let s := s.when (s.allowShort m.task) fun s =>
      (s.fretFlag .allowShort).updTask m.task fun t => { t with armLate := true, dead := true }
    let s := s.armTile pt m
    let s := s.updTask m.task fun t => { t with phase := if t.phase = .waiting then .armed else t.phase }
    .next (s.each m.streams fun s e => s.armCtx (64 * ltClus lt + e.1) ⟨m.task, m.launch, e.2⟩)

/-! ## The tiles that run a task, with degraded variants (11 R567 to R571) -/

/-- The slot of a logical tile is lost. -/
def State.ltLost (s : State) (lt : Nat) : Bool := (s.lostSlots (ltClus lt)).contains (ltSlot lt)

/-- The variant that fits a lost logical tile: the first whose host is the fixed host, or the first (R570). -/
def State.variantFor (s : State) (img : Image) (lt : Nat) : Option Variant :=
  let c := ltClus lt
  let fixed := Tab.find (s.clus c).hosts (ltSlot lt)
  img.variants.find? fun v =>
    decide (v.cluster = c) && decide (v.slot = ltSlot lt) && fixed.all fun h => decide (v.host = h.toNat)

/-- The image that a task belongs to. -/
def State.imageOf (s : State) (n : BitVec 32) : Option Image :=
  (Tab.find s.scheds (s.task n).sched.toNat).map (·.image)

/-- The configuration of each logical tile of a task: an absorbed slot's comes from its variant. -/
def State.effTiles (s : State) (n : BitVec 32) : List (Nat × TileCfg) :=
  match s.taskCfg n, s.imageOf n with
  | some c, some img =>
    let lost := (c.tiles.map (·.1)).filter s.ltLost
    let vs := lost.filterMap fun lt => s.variantFor img lt
    (c.tiles.filter fun e => !lost.contains e.1).map fun e =>
      match (vs.flatMap (·.tiles)).find? fun r => decide (r.1 = n.toNat) && decide (r.2.1 = e.1) with
      | some r => (e.1, r.2.2)
      | none => e
  | _, _ => []

/-- R571: a lost slot of the task that no variant fits. -/
def State.unfit (s : State) (n : BitVec 32) : Option Nat :=
  match s.taskCfg n, s.imageOf n with
  | some c, some img => (c.tiles.map (·.1)).find? fun lt => s.ltLost lt && (s.variantFor img lt).isNone
  | _, _ => none

/-- A lost slot of the task has no host yet: a FENCED tile still serves it (R564). -/
def State.unhosted (s : State) (n : BitVec 32) : Bool :=
  match s.taskCfg n with
  | some c => (c.tiles.map (·.1)).any fun lt => s.ltLost lt && (Tab.find (s.clus (ltClus lt)).hosts (ltSlot lt)).isNone
  | none => false

/-- ARM_DEADLINE: 16 frets before launch, a tile of the task that is not armed, or that a FENCED tile still serves (03 R168; 11 R564). -/
def execArmDeadline (task : BitVec 32) (s : State) : Host.Outcome State Fault Refusal :=
  let t := s.task task
  let armed := fun lt => ((s.tile (s.ptOf lt)).armed.map fun a => decide (a.task = task)).getD false
  if (t.phase = .waiting ∨ t.phase = .armed) ∧ s.now + 16 = t.launch ∧ (s.unhosted task || !((s.effTiles task).all fun e => armed e.1)) then
    .next (s.updTask task fun t => { t with armLate := true, dead := true })
  else .next s

/-! ## Launch -/

/-- Some address of a task's static streams satisfies a test. -/
def State.staticAny (s : State) (n : BitVec 32) (f : Nat → Bool) : Bool :=
  match s.taskCfg n with
  | none => false
  | some c => c.streams.any fun e => e.2.2.any fun u =>
      (decide (u.kind = .read) || decide (u.kind = .write))
        && (List.range (u.n * u.per)).any fun j => f (patAddr u.pattern (s.useBase n u) j).toNat

/-- An address lies in a digest region that is on and not GOOD, of a partition in RESET or VERIFY (11 R581). -/
def State.unverified (s : State) (a : Nat) : Bool :=
  s.relx.digs.any fun e =>
    let d := e.2
    let b := d.baseHi.toNat * 2 ^ 32 + d.baseLo.toNat
    decide (d.state ≠ .off) && decide (d.state ≠ .good) && decide (s.partMode (partOf b) ≠ .run)
      && overlaps (a, 256) (b, d.size.toNat * 262144)

/-- What stops a launch: the slips of 04 R183, R211, R215 and 03 R168, and an arm that a context still holds (05 R286); then memory and fenced statuses (05 R282; 10 R550;
11 R581) and what arming found. -/
def State.launchSlips (s : State) (n : BitVec 32) : Bool :=
  let t := s.task n
  let armed := fun lt => ((s.tile (s.ptOf lt)).armed.map fun a => decide (a.task = n)).getD false
  t.armLate || s.unhosted n || !((s.effTiles n).all fun e => armed e.1)
    || !(decide (s.fret.state = .member) || decide (s.fret.state = .holdover))
    || (s.fret.changeAt.any fun f => decide (t.launch ≤ f.toNat) && decide (f.toNat ≤ s.commitFret t))
    || s.fret.clampWait.isSome || s.ctxs.any fun e => e.2.held.any fun h => decide (h.task = n)

def State.launchCauses (s : State) (n : BitVec 32) : List Status :=
  (s.task n).armFail ++ (if s.spanConflict n then [.memory] else [])
    ++ (if s.staticAny n fun a => s.inBad a 256 then [.memory] else [])
    ++ (if s.staticAny n s.unverified then [.nakFenced] else [])

/-- A fold at launch: empty queues, D credits on each edge, zeroed resident shares (03 R129, R158). -/
def foldInit (launch : Nat) (f : FoldCfg) : FoldRt :=
  { queues := f.inputs.map fun _ => [], credits := f.outputs.map fun o => ((o.edges.head?).map (·.depth)).getD 0
    used := f.inputs.map fun _ => 0, elems := f.outputs.map fun _ => 0, fresh := f.outputs.map fun _ => 0
    changed := f.outputs.map fun _ => launch
    steers := f.steers.map fun _ => {} }

/-- An armed tile launches: the armed bank becomes current (03 R167, R170, R171); `k` is its image's sampling exponent (R173). -/
def launchTile (k : Nat) (t : TileSt) : TileSt :=
  match t.armed with
  | none => t
  | some a =>
    let cur := if a.current then t.cur else t.next
    let next := if a.current then t.next else t.cur
    let fs := (cur.map (·.cfg.folds)).getD []
    { t with
      cur := cur, next := next, qexp := k, armed := none, armedOk := false, running := some a, mode := .run, fold := 0
      folds := BitVec.ofNat 3 (fs.length - 1), rt := fs.map (foldInit a.launch), flight := [] }

/-- At its launch fret a task that does not launch leaves its tiles disarmed (03 R171). -/
def State.disarm (s : State) (n : BitVec 32) : State :=
  s.modTiles fun ts => ts.map fun e =>
    (e.1, if (e.2.armed.map (·.task)) = some n then { e.2 with armed := none, armedOk := false } else e.2)

/-- TASK_LAUNCH: at the launch fret the task launches on its armed tiles, or aborts and does not launch (03 R167, R171; 04 R181,
R183, R211, R215, R787; 11 R571, R581). -/
def execTaskLaunch (task : BitVec 32) (s : State) : Host.Outcome State Fault Refusal :=
  let t := s.task task
  if !(decide (t.phase = .waiting) || decide (t.phase = .armed)) || decide (t.launch ≠ s.now) then .next s
  else
    let slips := s.launchSlips task
    let causes := s.launchCauses task
    match s.unfit task with
    | some lt =>
      let s := (s.variantRecord (ltClus lt) t.sched).attn .variant
      .next (((s.updTask task fun t => { t with dead := true }).disarm task).detect task .variant)
    | none =>
      if slips ∨ causes ≠ [] ∨ t.dead then
        let s := (s.updTask task fun t => { t with dead := true }).disarm task
        let s := s.when slips (·.slip task 4 0)
        .next (s.each causes fun s st => s.detect task st)
      else
        let k := ((s.imageOf task).map (·.k)).getD 6
        let s := s.each (s.effTiles task) fun s e => s.updTile (s.ptOf e.1) (launchTile k)
        let s := s.when (decide (0 < t.attempt)) fun s => s.modRel fun r => { r with retries := satAdd r.retries 1 }
        .next (s.updTask task fun t => { t with phase := .running })

/-! ## Folds over time -/

/-- The fold whose slice holds a fret offset within the period. -/
def foldAt (c : TileCfg) (m : Nat) : Option Nat :=
  let st := sliceStarts c.folds
  (List.range c.folds.length).find? fun i => decide (st.getD i 0 ≤ m) && decide (m < st.getD (i + 1) 0)

/-- The active fold of a running tile, and the fret's offset in its slice (03 R151, R152). -/
def State.active (s : State) (a : Armed) (c : TileCfg) : Option (Nat × Nat) :=
  let m := (s.now - a.launch) % c.period
  (foldAt c m).map fun i => (i, m - (sliceStarts c.folds).getD i 0)

/-- The task of a tile still fires and sends: launched, before its end fret. -/
def State.inTime (s : State) (a : Armed) : Bool :=
  decide (a.launch ≤ s.now) && decide (s.now < (s.task a.task).ending) && s.alive a.task

/-- The bytes of an operand set, of an accumulator bank (8 bytes an entry), and of the top-k entries (16-byte records), as a
spill saves them: a layout of the model (03 R157; log entry 59). -/
def setBytes (x : StatSet) : List Byte := pack x.fmt x.codes ++ x.scales ++ x.queries.flatten
def bankBytes (a : AccSt) : List Byte :=
  (List.range 4096).flatMap fun i =>
    let e := Tab.get {} a.ents i
    if a.int then leBytes 8 (e.i % 2 ^ 40).toNat else leBytes 4 e.s.toNat ++ leBytes 4 e.c.toNat
def candBytes (lt : Nat) (cs : List Cand) : List Byte := cs.flatMap fun c => topkRecord c.key c.id.toNat c.group true lt

/-- What a fold in spill mode saves, unit by unit, as offset in its partition and bytes (03 R157). -/
def spillAreas (lt : Nat) (f : FoldCfg) (r : FoldRt) : List (Nat × List Byte) :=
  [(f.stationary, setBytes r.stat.active ++ (r.stat.loading.map setBytes).getD []), (f.accumulator, bankBytes r.acc ++ bankBytes r.drain),
   (f.topkShare, candBytes lt r.cands)].filterMap fun e => match e.1 with
    | .spill n off => some (off, e.2.take n)
    | .resident _ => none

/-- FOLD_SWITCH: the start of a slice. The fold whose slice ends saves the units that it spills to its spill areas; what a fold
restores is what it saved, for nothing else writes there (03 R152 to R160; log entry 59). -/
def execFoldSwitch (lt : Lt) (s : State) : Host.Outcome State Fault Refusal :=
  match s.runs lt with
  | none => .next s
  | some (pt, a, c) =>
    match s.active a c with
    | some (i, 0) =>
      if s.inTime a = false then .next s
      else
        let prev := if i = 0 then c.folds.length - 1 else i - 1
        let saved : List (Nat × List Byte) := match c.folds[prev]? with
          | some f => if c.folds.length ≤ 1 ∨ s.now = a.launch then []
              else (spillAreas lt f (s.foldRt pt prev)).map fun e => (f.sramBase + e.1, e.2)
          | none => []
        .next (s.updTile pt fun t =>
          { t with fold := BitVec.ofNat 3 i, sram := saved.foldl (fun m e => Mem.writeZ m e.1 e.2) t.sram })
    | _ => .next s

/-! ## Sending -/

/-- Words leave an output port on its edge: credits are spent, or the task aborts (03 R126, R130, R133). -/
def State.sendPort (s : State) (lt pt : Nat) (task : BitVec 32) (fold port : Nat) (o : OutputCfg) (words : List (List Byte))
    (bad : Bool) : State :=
  match o.edges with
  | [] => s
  | e :: _ =>
    let w := words.length
    if w = 0 then s
    else if (s.foldRt pt fold).credits.getD port 0 < w then s.detect task .bound
    else
      let s := s.updRt pt fold fun r =>
        { r with credits := listUpd r.credits port (· - w), changed := listUpd r.changed port fun _ => s.now }
      s.sendWords lt task e words bad

/-- The words of a tile that leave in this fret (03 R126). Words whose fret falls at or after the task's end fret are never sent
(log entry 60). -/
def State.sendFlights (s : State) (lt : Nat) : State :=
  match s.runs lt with
  | none => s
  | some (pt, a, c) =>
    if s.inTime a = false then s
    else
      let due := (s.tile pt).flight.filter fun f => decide (f.2.fret ≤ s.now)
      let s := s.updTile pt fun t => { t with flight := t.flight.filter fun f => decide (s.now < f.2.fret) }
      s.each due fun s f =>
        match (c.folds[f.1]?).bind fun g => g.outputs[f.2.port]? with
        | some o => s.sendPort lt pt a.task f.1 f.2.port o f.2.words f.2.bad
        | none => s

/-- Credits that arrived in the fret before can be spent (03 R131). -/
def mergeCredits (r : FoldRt) : FoldRt :=
  { r with credits := r.credits.zipIdx.map fun c => c.1 + r.fresh.getD c.2 0, fresh := r.fresh.map fun _ => 0 }

/-- EDGE_CREDIT_RETURN: n credits reach a producer port (03 R131, R133; 11 R559). -/
def execEdgeCreditReturn (lt : Lt) (fold port n : Nat) (s : State) : Host.Outcome State Fault Refusal :=
  if s.sinks (s.ptOf lt) then .next (s.absorb n)
  else match s.foldCfg lt fold with
    | none => .next s
    | some (pt, a, _, f) =>
      match (f.outputs[port]?).bind fun o => o.edges.head? with
      | none => .next s
      | some e =>
        let s := s.updRt pt fold fun r =>
          { r with fresh := listUpd r.fresh port (· + n), changed := listUpd r.changed port fun _ => s.now }
        let r := s.foldRt pt fold
        if e.depth < r.credits.getD port 0 + r.fresh.getD port 0 then .next (s.detect a.task .bound) else .next s

/-! ## Firings -/

/-- Inputs in use by a fold's steering units, which firings do not consume. -/
def steerInputs (f : FoldCfg) : List Nat := f.steers.flatMap fun u => u.token :: u.data

/-- What a firing takes from one input: its bytes, their place in the input's stream, its zero-filled words and whether a word is
poisoned; or the status that aborts the task. -/
inductive Take where
  | got (bytes : List Byte) (pos : Nat) (zeros : List Nat) (st : State)
  | fail (x : Status)

/-- The words of a read drawer in its consumption window (05 R253, R784). -/
def State.takeDrawer (s : State) (key n : Nat) : Take :=
  let x := s.ctx key
  match x.use? with
  | none => .fail .bound
  | some u =>
    let d : Int := (s.now : Int) - x.fretOf u.first
    let k := (d / max u.period 1).toNat
    match x.drawer? k with
    | none => .fail .bound
    | some r =>
      if x.state ≠ .active ∨ x.live = false ∨ u.isWrite ∨ d < 0 ∨ u.n ≤ k ∨ u.size < (r.taken + n) * 128 then .fail .bound
      else if r.poisoned.any fun w => decide (r.taken ≤ w) && decide (w < r.taken + n) then .fail .memory
      else
        let bs := Mem.read (fun _ => 0) (s.tile (s.ptOf (useLt key u))).sram (u.base k + 128 * r.taken) (n * 128)
        let z := (r.zeros.filter fun w => decide (r.taken ≤ w) && decide (w < r.taken + n)).map (· - r.taken)
        .got bs (k * u.size + r.taken * 128) z (s.updDrawer key k fun r => { r with taken := r.taken + n })

/-- One input of a firing (03 R124; 05 R784; 07 R788). -/
def State.takeInput (s : State) (lt fold i : Nat) (c : InputCfg) : Take :=
  match c.kind with
  | .edge _ =>
    let at' := ((s.foldCfg lt fold).map fun r => (s.foldRt r.1 fold).used.getD i 0).getD 0
    match s.popWords lt fold i c.consume with
    | none => .fail .bound
    | some (ws, s) => .got (ws.flatMap (·.bytes)) (128 * at') [] s
  | .drawer ctx => s.takeDrawer (64 * ltClus lt + ctx) c.consume
  | .queue =>
    let n := c.consume * 128
    match s.takeMessage lt fold i with
    | none => .got (List.replicate n 0) 0 [] s
    | some (r, s) =>
      let bs := (recHeader r ++ r.body).take n
      .got (bs ++ List.replicate (n - bs.length) 0) 0 [] s

/-- What a firing takes: per input the bytes, their place in the stream and the zero-filled words. -/
structure Taken where
  ins : List (List Byte) := []
  pos : List Nat := []
  zeros : List (List Nat) := []

def Taken.cons (t : Taken) (bs : List Byte) (p : Nat) (z : List Nat) : Taken :=
  { ins := bs :: t.ins, pos := p :: t.pos, zeros := z :: t.zeros }

/-- All inputs of a firing in order. -/
def State.takeInputs (s : State) (lt fold : Nat) (skip : List Nat) :
    List (InputCfg × Nat) → Taken × State × Option Status
  | [] => ({}, s, none)
  | (c, i) :: cs =>
    if skip.contains i then
      let r := s.takeInputs lt fold skip cs
      (r.1.cons [] 0 [], r.2)
    else match s.takeInput lt fold i c with
      | .fail x => ({}, s, some x)
      | .got bs p z s =>
        let r := s.takeInputs lt fold skip cs
        (r.1.cons bs p z, r.2)

/-- Words produced for a write drawer: those beyond Z bytes abort the task and are not written (05 R256, R783). -/
def State.fillWrite (s : State) (task : BitVec 32) (key : Nat) (words : List (List Byte)) : State :=
  let x := s.ctx key
  match x.use? with
  | none => s.detect task .bound
  | some u =>
    let d : Int := (s.now : Int) - x.fretOf u.first
    let k := (d / max u.period 1).toNat
    if x.state ≠ .active ∨ x.live = false ∨ u.isWrite = false ∨ d < 0 ∨ u.n ≤ k then s.detect task .bound
    else
      let s := s.updCtx key fun x =>
        { x with drawers := if x.drawers.any (·.k = k) then x.drawers else x.drawers ++ [{ k := k }] }
      let at' := (((s.ctx key).drawer? k).map (·.filled)).getD 0
      let fit := words.take ((u.size - at') / 128)
      let s := s.fillDrawer key u k at' fit.flatten
      let s := s.updDrawer key k fun r => { r with filled := r.filled + fit.length * 128 }
      if fit.length < words.length then s.detect task .bound else s

/-- The outputs of a firing: words in flight to an edge, or words of a write drawer (03 R126; 05 R256); `bad` marks them poisoned. -/
def State.putOutputs (s : State) (lt pt : Nat) (task : BitVec 32) (fold : Nat) (f : FoldCfg) (outs : List (List Byte))
    (bad : Bool) : State :=
  s.each f.outputs.zipIdx fun s o =>
    let words := toWords o.1.produce (outs.getD o.2 [])
    match o.1.edges, o.1.drawer with
    | [], some ctx => s.fillWrite task (64 * ltClus lt + ctx) words
    | _, _ => s.updTile pt fun t => { t with flight := t.flight ++ [(fold, ⟨s.now + f.delay, o.2, words, bad⟩)] }

/-- A firing's datapath on the inputs it took (02; 03 R124). -/
def State.runFold (s : State) (lt pt : Nat) (a : Armed) (fold : Nat) (f : FoldCfg) (ins : Taken) (bad : Bool) : State :=
  let x : Fire :=
    { ins := ins.ins, pos := ins.pos, zeros := ins.zeros, sram := (s.tile pt).sram, outs := f.outputs.map fun _ => []
      rt := s.foldRt pt fold }
  let y := dpRun ⟨a.task.toNat, fold, lt, a.salt.toNat⟩ f x
  let s := s.updTile pt fun t =>
    { t with
      sram := y.sram, writeBack := writeBackLeft t.writeBack y.wrote, nanOut := t.nanOut || y.nan, convSat := t.convSat || decide (0 < y.sat), accSat := t.accSat || y.accSat
      satCnt := satAdd t.satCnt y.sat }
  let s := s.updRt pt fold fun _ => { y.rt with fired := y.rt.fired + 1 }
  s.putOutputs lt pt a.task fold f y.outs bad

/-- FIRING: a firing of the active fold that is due in this fret, once, with what the tile's checks report in it (02 R104, R106; 03
R123 to R126, R133, R135). A firing short of words on any input takes none and makes none (log entry 13). -/
def execFiring (lt : Lt) (obs : List TileFault) (s : State) : Host.Outcome State Fault Refusal :=
  match s.runs lt with
  | none => .next s
  | some (pt, a, c) =>
    match s.active a c with
    | none => .next s
    | some (i, o) =>
      match c.folds[i]? with
      | none => .next s
      | some f =>
        if !(firingOffsets f).contains o || !s.inTime a || decide ((s.tile pt).mode ≠ .run)
            || decide ((s.foldRt pt i).lastFire = some s.now) then .next s
        else
          let s := s.updRt pt i fun r => { r with lastFire := some s.now }
          let r := s.takeInputs lt i (steerInputs f) f.inputs.zipIdx
          let t : State := match r.2.2 with
            | some st => s.detect a.task st
            | none => r.2.1.runFold lt pt a i f r.1 (obs.any TileFault.poisons)
          .next (t.tileFaults pt a.task i (s.foldRt pt i) obs)

/-- A bank of a tile has a slot that no requester owns: the wheel is the active fold's while a task runs (02 R103, R105). -/
def State.freeSlot (s : State) (pt bank : Nat) : Bool :=
  let t := s.tile pt
  match t.running, t.cur.bind fun b => b.cfg.folds[t.fold.toNat]? with
  | some _, some f => (List.finRange 16).any fun k => !(f.wheel.any fun w => decide (w.bank.val = bank) && decide (w.slot = k))
  | _, _ => true

/-- SRAM_CORRECTED_WRITEBACK: in a slot of its bank that no requester owns (02 R105). -/
def execSramCorrectedWriteback (pt : Pt) (word : Nat) (s : State) : Host.Outcome State Fault Refusal :=
  if s.freeSlot pt (sramBank (8 * word)) then
    .next (s.updTile pt fun t => { t with writeBack := t.writeBack.erase (BitVec.ofNat 17 word) })
  else .next s

/-- A reset of a tile: registers at their reset values, both banks empty, the capture discarded and its arbitration recorded as
abandoned; the tile stays in reset until its SRAM is zeroed (02 R107, R110 to R113; 03 R171, R174; 10 R532). -/
def State.resetTile (s : State) (pt : Nat) : State :=
  let t := s.tile pt
  let s := s.when t.capture.isSome fun s =>
    let s := (s.modRel fun r => { r with abandoned := satAdd r.abandoned 1 }).arbLast pt 6 true
    let c := ptClus pt
    (s.recordAt .arbitration (isEast (clusHalf c)) c [relRead (chestSel 0) s 0x030, relRead (chestSel 0) s 0x034]).endArb pt 6
  s.updTile pt fun _ =>
    { inReset := true }

/-- TILE_SRAM_ZEROED: zeros with valid check bits in every word, and the tile leaves reset (02 R107). -/
def execTileSramZeroed (pt : Pt) (s : State) : Host.Outcome State Fault Refusal :=
  if (s.tile pt).inReset then .next (s.updTile pt fun t => { t with sram := [], inReset := false }) else .next s

/-! ## Steering units (03 R139 to R149) -/

/-- Group k of a steering unit of a fold is released at D_k, counted from the start of the fold's slice (R123, R145). -/
def groupFret (a : Armed) (c : TileCfg) (fold : Nat) (u : SteerCfg) (k : Nat) : Nat :=
  a.launch + k / max u.count 1 * c.period + (sliceStarts c.folds).getD fold 0 + u.first + k % max u.count 1 * u.interval

def State.steerRt (s : State) (pt fold unit : Nat) : SteerRt := (s.foldRt pt fold).steers.getD unit {}
def State.updSteer (s : State) (pt fold unit : Nat) (f : SteerRt → SteerRt) : State :=
  s.updRt pt fold fun r => { r with steers := listUpd r.steers unit f }

/-- Whole groups that have reached every data input. -/
def State.groupsIn (s : State) (lt fold : Nat) (u : SteerCfg) : Nat :=
  (u.data.map fun i => (s.edgeQueue lt fold i).length / max u.group 1).foldl min (2 ^ 32)

/-- Groups released into every data input by the end of the previous fret. -/
def State.groupsReady (s : State) (lt fold : Nat) (u : SteerCfg) : Nat :=
  (u.data.map fun i => s.ready (s.edgeQueue lt fold i) / max u.group 1).foldl min (2 ^ 32)

/-- Tokens paired with groups (R144). -/
def State.paired (s : State) (lt pt fold unit : Nat) (u : SteerCfg) : Nat :=
  min (s.steerRt pt fold unit).tokens.length (s.groupsIn lt fold u)

/-- The select value of a token (R141). -/
def tokenSel (w : Word) : Nat := w.toNat % 8

/-- R142 on the tokens that a change paired: those from the count before to the count now. -/
def State.pairCheck (s : State) (lt pt fold unit : Nat) (task : BitVec 32) (u : SteerCfg) (before : Nat) : State :=
  let now := s.paired lt pt fold unit u
  let new := ((s.steerRt pt fold unit).tokens.take now).drop before
  if new.any fun t => decide (u.data.length ≤ tokenSel t.1) then s.detect task .bound else s

/-- One token reaches a steering unit; 64 that are not paired with a group are the most that wait (R144, R148). -/
def State.addToken (s : State) (lt pt fold unit : Nat) (task : BitVec 32) (u : SteerCfg) (w : Word) : State :=
  if 64 ≤ (s.steerRt pt fold unit).tokens.length - s.paired lt pt fold unit u then s.detect task .skew
  else
    let before := s.paired lt pt fold unit u
    (s.updSteer pt fold unit fun r => { r with tokens := r.tokens ++ [(w, s.now)] }).pairCheck lt pt fold unit task u before

/-- A steering unit of a running fold. -/
def State.steerOf (s : State) (lt fold unit : Nat) : Option (Nat × Armed × TileCfg × FoldCfg × SteerCfg) :=
  (s.foldCfg lt fold).bind fun r => (r.2.2.2.steers[unit]?).map fun u => (r.1, r.2.1, r.2.2.1, r.2.2.2, u)

/-- STEER_TOKEN_ARRIVE: the next message of the token input's queues, a token per whole 4 bytes (R143). -/
def execSteerTokenArrive (lt : Lt) (fold unit : Nat) (s : State) : Host.Outcome State Fault Refusal :=
  match s.steerOf lt fold unit with
  | none => .next s
  | some (pt, a, _, _, u) =>
    if s.inTime a = false then .next s
    else match s.takeMessage lt fold u.token with
      | none => .next s
      | some (r, s) => .next (s.each (wordVals r.body 0 (r.body.length / 4)) fun s w => s.addToken lt pt fold unit a.task u w)

/-- STEER_EMIT: at D_k + B + 1 the selected group leaves and the others are discarded (R140, R145, R149), with what the checks report
as the group is read (02 R104, R106). -/
def execSteerEmit (lt : Lt) (fold : Nat) (x : SteerRead) (s : State) : Host.Outcome State Fault Refusal :=
  match s.steerOf lt fold x.unit with
  | none => .next s
  | some (pt, a, c, f, u) =>
    let r := s.steerRt pt fold x.unit
    match r.tokens with
    | [] => .next s
    | t :: ts =>
      if groupFret a c fold u r.emitted + u.bound.toNat + 1 ≠ s.now ∨ s.now ≤ t.2 ∨ s.groupsReady lt fold u = 0 ∨ s.inTime a = false then
        .next s
      else
        let words := ((s.edgeQueue lt fold (u.data.getD (tokenSel t.1) 0)).take u.group).map (·.bytes)
        let s := s.updSteer pt fold x.unit fun _ => { tokens := ts, emitted := r.emitted + 1 }
        let s := s.each u.data fun s i => s.dropWords lt fold i u.group
        let s := s.when (((f.inputs[u.token]?).bind InputCfg.edge).isSome) fun s => s.dropWords lt fold u.token 1
        match f.outputs[u.out]? with
        | some o =>
          .next ((s.sendPort lt pt a.task fold u.out o words (x.obs.any TileFault.poisons)).tileFaults pt a.task fold (s.foldRt pt fold) x.obs)
        | none => .next (s.tileFaults pt a.task fold (s.foldRt pt fold) x.obs)

/-- STEER_GROUP_LATE: at D_k + 1 a group not wholly in its queues (R145). -/
def execSteerGroupLate (lt : Lt) (fold unit : Nat) (s : State) : Host.Outcome State Fault Refusal :=
  match s.steerOf lt fold unit with
  | none => .next s
  | some (pt, a, c, _, u) =>
    let done := (s.steerRt pt fold unit).emitted
    let late := (List.range (s.now + 1 - groupFret a c fold u done)).any fun j =>
      decide (groupFret a c fold u (done + j) + 1 = s.now) && decide (s.groupsReady lt fold u ≤ j)
    if s.inTime a ∧ 0 < u.count ∧ late then .next (s.detect a.task .bound) else .next s

/-- STEER_TOKEN_TIMEOUT: at D_k + B + 1 no token for group k (R146). -/
def execSteerTokenTimeout (lt : Lt) (fold unit : Nat) (s : State) : Host.Outcome State Fault Refusal :=
  match s.steerOf lt fold unit with
  | none => .next s
  | some (pt, a, c, _, u) =>
    let r := s.steerRt pt fold unit
    let have' := (r.tokens.head?).any fun t => decide (t.2 < s.now)
    if s.inTime a ∧ 0 < u.count ∧ groupFret a c fold u r.emitted + u.bound.toNat + 1 = s.now ∧ have' = false then
      .next (s.detect a.task .skew)
    else .next s

/-- STEER_GROUP_TIMEOUT: at T + B + 1 a token released at T has no group (R147). -/
def execSteerGroupTimeout (lt : Lt) (fold unit : Nat) (s : State) : Host.Outcome State Fault Refusal :=
  match s.steerOf lt fold unit with
  | none => .next s
  | some (pt, a, _, _, u) =>
    let late := (s.steerRt pt fold unit).tokens.zipIdx.any fun t =>
      decide (t.1.2 + u.bound.toNat + 1 = s.now) && decide (s.groupsReady lt fold u ≤ t.2)
    if s.inTime a ∧ late then .next (s.detect a.task .skew) else .next s

/-! ## The end of a task and sampling -/

/-- Logical tiles that run a task. -/
def State.runningTiles (s : State) (n : BitVec 32) : List Nat :=
  ((s.effTiles n).map (·.1)).filter fun lt => ((s.runs lt).map fun r => decide (r.2.1.task = n)).getD false

/-- TASK_END_CHECK: at E every edge queue is empty and every session written in VERIFY is judged, or the task aborts (03
R133; 06 R341). -/
def execTaskEndCheck (task : BitVec 32) (s : State) : Host.Outcome State Fault Refusal :=
  let t := s.task task
  if t.phase ≠ .running ∨ t.ending ≠ s.now then .next s
  else
    let lts := s.runningTiles task
    let full := lts.any fun lt => (s.tile (s.ptOf lt)).rt.any fun r => r.queues.any fun q => decide (q ≠ [])
    let s := s.when (full || s.unjudged task) (·.detect task .bound)
    let s := s.each lts fun s lt => s.updTile (s.ptOf lt) fun t => { t with mode := if t.mode = .run then .idle else t.mode }
    .next (s.updTask task fun t => { t with phase := .ended })

/-- The credit-check fret of a port: the fret after the later of E − 1 and the release fret of its last credit return (03 R133). -/
def State.creditCheckFret (s : State) (a : Armed) (o : OutputCfg) : Nat :=
  max ((s.task a.task).ending - 1) (a.launch + o.lastCredit) + 1

/-- CREDIT_CHECK_FRET: a port's counter equals D (03 R133). -/
def execCreditCheckFret (lt : Lt) (fold port : Nat) (s : State) : Host.Outcome State Fault Refusal :=
  match s.foldCfg lt fold with
  | none => .next s
  | some (pt, a, _, f) =>
    match f.outputs[port]? with
    | none => .next s
    | some o =>
      match o.edges with
      | [] => .next s
      | e :: _ =>
        if s.creditCheckFret a o = s.now ∧ s.alive a.task ∧ (s.foldRt pt fold).credits.getD port 0 ≠ e.depth then
          .next (s.detect a.task .bound)
        else .next s

/-- The samples of one tile's edge queues (03 R173). -/
def sampleTile (t : TileSt) (b : BankSt) : TileSt :=
  (b.cfg.folds.zipIdx).foldl (fun t f =>
    (f.1.inputs.zipIdx).foldl (fun t i =>
      match i.1.edge with
      | none => t
      | some _ =>
        let n : BitVec 13 := satOfNat 13 (((t.rt.getD f.2 {}).queues.getD i.2 []).length)
        let old := Tab.get (0, 0) t.qs (f.2 * 8 + i.2)
        { t with qs := Tab.put t.qs (f.2 * 8 + i.2) (if old.1.toNat < n.toNat then n else old.1, n) }) t) t

/-- QUEUE_SAMPLE: the occupancy of every edge queue of a tile's configured folds, at frets whose bits [k − 1:0] are zero; after its
task a tile's queues are empty and the samples are 0 (03 R173, R174). -/
def execQueueSample (s : State) : Host.Outcome State Fault Refusal :=
  .next (s.modTiles fun ts => ts.map fun e =>
    match e.2.cur with
    | some b => if s.now % 2 ^ e.2.qexp = 0 then (e.1, sampleTile e.2 b) else e
    | none => e)

end Sys2Proof.Machine
end

