-- ==== Sys2Proof/Machine/Release.lean ====
section
/-! DEFINITION. Release points: worms held to their stamps, late worms, words and credits released; and the start of a fret (03 R125, R131; 04 R178, R197 to R203; 08 R443, R463). -/

namespace Sys2Proof.Machine

/-! ## Release points -/

/-- The key of a release point in `State.held`. -/
def rpKey : ReleasePoint → Nat
  | .tile lt => lt.val
  | .bridge row e => 2048 + row.val * 2 + e.toNat
  | .fabric p => fabHeld p.val

/-- Capacity in flits; a tile's queue is bounded by its edges' credits (04 R197). -/
def rpCap : ReleasePoint → Option Nat
  | .tile _ => none
  | .bridge _ _ => some 128
  | .fabric _ => some 512

/-- FRET_SLIP's kind and place of a release point (04 R232). -/
def rpSlip : ReleasePoint → Nat × Nat
  | .tile lt => (0, lt.val)
  | .bridge row e => (if e then 2 else 1, row.val)
  | .fabric p => (3, p.val)

/-- Frets from now to a worm's stamp (04 R199). -/
def State.toStamp (s : State) (w : Worm) : Int := s.rel24 w.head.stamp

/-- R443: the chip stopped the worm's task; or the worm ends here and the task is neither armed nor running here. -/
def State.orphan (s : State) (w : Worm) : Bool :=
  let t := s.task w.head.task
  decide (t.phase = .stopped)
    || (decide (w.head.dstChip = s.fret.chip) && (!t.busy || (t.dead && decide (t.launch ≤ s.now))))

/-- A worm discarded at a release point is counted (08 R443, R469, R473). -/
def State.countDrop (s : State) (rp : ReleasePoint) : State :=
  match rp with
  | .tile _ => s
  | .bridge _ e => s.updSpn (if e then .east else .west) fun h => { h with brgDrop := satAdd h.brgDrop 1 }
  | .fabric p => s.updFab p fun f => { f with cuts := satAdd f.cuts 1 }

/-- Change the queue of a release point. -/
def State.updHeld (s : State) (rp : ReleasePoint) (f : List Held → List Held) : State :=
  s.modHeld fun t => Tab.upd [] t (rpKey rp) f

/-- The largest occupancy of a fabric port's queue (08 R469). -/
def State.noteMax (s : State) (rp : ReleasePoint) : State :=
  match rp with
  | .fabric p =>
    let n := s.occupancy (fabHeld p.val)
    (s.updFab p fun f => { f with vc0Max := satOfNat 16 (max f.vc0Max.toNat n) }).updLink p fun l => { l with occ := max l.occ n }
  | _ => s

/-- A held worm of which flits are still to come. -/
def Held.partOf (w : Worm) (h : Held) : Bool := decide (h.w = w) && !h.whole

/-- A worm leaves the queue with its flits freed; where flits of it are still to come, it is remembered and they are discarded (R201). -/
def State.discardRest (s : State) (rp : ReleasePoint) (w : Worm) (last : Bool) : State :=
  s.updHeld rp fun q => (q.filter fun h => !h.partOf w) ++ (if last then [] else [⟨w, 0, false, true, 0⟩])

/-- Flits of a worm of type 0x0 or 0x1 arrive at a release-time queue, with `left` steps of its run to make beyond it; `last`: its last
flit is among them (04 R200, R201; 08 R443, R463). -/
def State.releaseArrive (s : State) (rp : ReleasePoint) (w : Worm) (left flits : Nat) (last : Bool) : State :=
  let old := (Tab.get [] s.held (rpKey rp)).find? (·.partOf w)
  if 2 ≤ w.head.wtype.toNat then s
  else if old.any (·.lost) then s.discardRest rp w last
  else if s.orphan w then (s.discardRest rp w true).when last (·.countDrop rp)
  else if last && w.head.poison then ((s.discardRest rp w true).countDrop rp).detect w.head.task .peer
  else if (rpCap rp).any fun cap => decide (cap < s.occupancy (rpKey rp) + flits) then
    ((s.discardRest rp w last).countDrop rp).detect w.head.task .bound
  else if s.toStamp w ≤ 0 then (s.discardRest rp w last).slip w.head.task (rpSlip rp).1 (rpSlip rp).2
  else
    let n := ((old.map (·.flits)).getD 0) + flits
    ((s.discardRest rp w true).updHeld rp fun q => q ++ [⟨w, n, last, false, left⟩]).noteMax rp

/-- RELEASE_QUEUE_ARRIVE: flits of a scheduled worm arrive at a release point; a fabric port counts them, and a parity failure found in
transit is charged to the port or the Bridge row (04 R200, R201; 08 R443, R463, R469; 10 R520). -/
def execReleaseQueueArrive (rp : ReleasePoint) (w : Worm) (n : Arrival) (last : Bool) (s : State) :
    Host.Outcome State Fault Refusal :=
  let first := ((Tab.get [] s.held (rpKey rp)).find? (·.partOf w)).isNone
  let s : State := match rp with
    | .fabric p => s.countRx p n.flits first
    | _ => s
  let s : State := match rp with
    | .fabric p => s.when n.bad (·.countTransit (transitKey 4 p))
    | .bridge row e => s.when n.bad (·.countTransit (bridgeUnit row e))
    | .tile _ => s
  .next (s.releaseArrive rp w n.left n.flits last)

/-- WORM_LATE: at fret R a worm whose last flit is not in, whether or not a flit of it is (04 R200, R232). -/
def execWormLate (rp : ReleasePoint) (w : Worm) (s : State) : Host.Outcome State Fault Refusal :=
  let q := (Tab.get [] s.held (rpKey rp)).filter fun h => decide (h.w = w)
  if 2 ≤ w.head.wtype.toNat ∨ s.toStamp w ≠ 0 ∨ q.any (fun h => h.whole || h.lost) ∨ s.orphan w then .next s
  else .next ((s.discardRest rp w false).slip w.head.task (rpSlip rp).1 (rpSlip rp).2)

/-! ## Release at a tile -/

/-- Edge words of a worm enter their queue; on a token input each carries a token (03 R125, R142 to R144). -/
def State.enterWords (s : State) (lt : Nat) (h : WormHead) (words : List (List Byte)) : State :=
  match s.foldCfg lt h.fold with
  | none => s
  | some (pt, a, _, f) =>
    let units := f.steers.zipIdx
    let before := units.map fun u => s.paired lt pt h.fold u.2 u.1
    let s := s.updRt pt h.fold fun r => { r with queues := listUpd r.queues h.port (· ++ words.map fun w => ⟨w, s.now, false⟩) }
    s.each units fun s u =>
      if u.1.token = h.port then
        s.each words fun s w => s.addToken lt pt h.fold u.2 a.task u.1 (BitVec.ofNat 32 (leAt w 0 4))
      else if u.1.data.contains h.port then s.pairCheck lt pt h.fold u.2 a.task u.1 (before.getD u.2 0)
      else s

/-- A worm released at a tile: sunk and counted, discarded where its task does not run, or taken in (03 R125, R131; 11 R559,
R579). -/
def State.tileRelease (s : State) (lt : Nat) (w : Worm) : Host.Outcome State Fault Refusal :=
  let pt := s.ptOf lt
  let mine := ((s.tile pt).running.map fun a => decide (a.task = w.head.task)).getD false
  if s.sinks pt then .next (s.absorb w.head.count)
  else if mine = false then .next s
  else if w.head.wtype = 0 then .next (s.enterWords lt w.head (chunks 128 w.head.count w.payload))
  else execEdgeCreditReturn (Fin.ofNat 2048 lt) w.head.fold w.head.port w.head.count s

/-- The stamp advanced by the next allowance, the spent one removed (04 R198; 08 R429). -/
def nextStamp (w : Worm) : Worm :=
  let allow := w.head.allow.drop 1
  { w with head := { w.head with allow := allow, stamp := w.head.stamp + BitVec.ofNat 24 (allow.headD 0) } }

/-- WORM_RELEASE: a whole worm is released during fret R: at a tile it is taken in; at a Bridge end or a fabric port it enters the router
behind it with the next allowance spent (04 R198, R199; 08 R429, R443). -/
def execWormRelease (rp : ReleasePoint) (n : Nat) (s : State) : Host.Outcome State Fault Refusal :=
  match (Tab.get [] s.held (rpKey rp))[n]? with
  | none => .next s
  | some h =>
    let gone := s.updHeld rp fun q => q.eraseIdx n
    if s.orphan h.w then .next (gone.countDrop rp)
    else if h.whole = false ∨ s.toStamp h.w ≠ 0 then .next s
    else match rp with
      | .tile lt => gone.tileRelease lt.val h.w
      | .bridge row e =>
        let c := if e then hubAt 8 row else hubAt 7 row
        .next (gone.headIn (.hub (Fin.ofNat 128 c)) (if e then 3 else 1) h.left (nextStamp h.w) (wormFlits h.w) true)
      | .fabric p => .next (gone.headIn (.ring (portRing p)) p 0 (nextStamp h.w) (wormFlits h.w) true)

/-- Worms of a stopped task are discarded wherever they are held (08 R443). -/
def State.dropHeld (s : State) (n : BitVec 32) : State :=
  let mine := fun (h : Held) => decide (h.w.head.task = n)
  let points : List ReleasePoint :=
    (List.finRange 8).flatMap (fun r => [.bridge r false, .bridge r true]) ++ (List.finRange 17).map .fabric
  let s := s.each points fun s rp => s.each ((Tab.get [] s.held (rpKey rp)).filter mine) fun s _ => s.countDrop rp
  s.modHeld fun t => t.map fun e => (e.1, e.2.filter fun h => !mine h)

/-! ## The start of a fret -/

/-- Logical tiles that run. -/
def State.liveTiles (s : State) : List Nat :=
  (s.tiles.filter fun e => e.2.running.isSome).filterMap fun e => s.ltOf e.1

/-- What the fret time base and what follows it do as the West counter enters a new fret: abort messages of the fret that
ends, credits that can now be spent, words that leave (03 R126, R131; 04 R176, R217; 07 R409; 16 R734). -/
def State.newFret (s : State) : State :=
  let s := s.stallFret.modTicks (· + 1)
  let s := s.modFret fun r => { r with sinceBeacon := r.sinceBeacon + 1 }
  let s := s.modTel fun t => 
    { t with
      strCyc := t.strCyc + BitVec.ofNat 64 s.fret.stretch.toNat, strPor := t.strPor + BitVec.ofNat 64 s.fret.stretch.toNat }
  let s := s.modTiles fun ts => ts.map fun e => (e.1, { e.2 with rt := e.2.rt.map mergeCredits })
  (s.each s.liveTiles (·.sendFlights ·)).measureFlights

/-- Each half's counter steps by its own clock: in SPLIT, and outside MEMBER and HOLDOVER where the halves' clocks differ. In MEMBER
and HOLDOVER the counters hold the same value (04 R178, R179, R214). -/
def State.apart (s : State) : Bool :=
  decide (s.fret.state = .split) || (decide (s.fret.state ≠ .member) && decide (s.fret.state ≠ .holdover)
    && (decide (s.clk.divW ≠ s.clk.divE) || decide (s.clk.west ≠ s.clk.east)))

/-- FRET_START: a fret starts in the West half, in the East half, or in both: its counter increments; halves that do not run apart start
their frets together; no counter steps while frozen or UNLOCKED (04 R178, R179, R193, R212 to R214). -/
def execFretStart (west east : Bool) (s : State) : Host.Outcome State Fault Refusal :=
  if s.fret.state = .unlocked ∨ s.fret.frozen then .next s
  else
    let w := west || !s.apart
    let e := east || !s.apart
    let s := s.when w fun s => s.sessFret.sendAborts
    let s := s.modFret fun r => { r with west := if w then r.west + 1 else r.west, east := if e then r.east + 1 else r.east }
    .next (s.when w (·.newFret))

end Sys2Proof.Machine
end

