-- ==== Sys2Proof/Machine/Recovery.lean ====
section
/-! DEFINITION. Partition recovery resets (11 R577 to R582) and what a hang that names a tile does (11 R558, R576). -/

namespace Sys2Proof.Machine

/-- A tile stops: what it ran, was armed for and held in flight is discarded; its banks stay (03 R170). -/
def stopTile (t : TileSt) : TileSt :=
  { t with
    mode := if t.mode = .run ∨ t.mode = .config then .idle else t.mode
    running := none, armed := none, armedOk := false, rt := [], flight := [] }

/-- Tasks known here with a tile or stream context in a partition. -/
def State.tasksIn (s : State) (p : Nat) : List (BitVec 32) :=
  (s.tasks.map fun e => BitVec.ofNat 32 e.1).filter fun n =>
    match s.taskCfg n with
    | none => false
    | some c => (s.task n).busy && (taskClusters c).any fun cl => decide (clusPart cl = p)

/-- Steps 1 to 3 of a recovery reset: RESET, tasks detect NAK_FENCED, tiles stop, queues FENCED, worms that leave the tiles and controllers are
cut, the list predictor is invalidated, the stacks enter self-refresh (05 R239; 11 R578, R579; 06 R312; 16 R716). -/
def State.startRecovery (s : State) (p : Nat) : State :=
  if s.partMode p ≠ .run ∨ s.parked p then s
  else
    let s := (s.setPartMode p .reset).modHeal fun h => { h with prr := satAdd h.prr 1 }
    let s := s.each (s.tasksIn p) fun s n => s.detect n .nakFenced
    let s := s.modTiles fun ts => ts.map fun e => if ptPart e.1 = p then (e.1, stopTile e.2) else e
    let s := (s.fenceQueues p).lpInvalidate p true
    let s := s.each (partClusters p) fun s c => s.cutLeaving c [4, 5, 6, 7]
    let s := (s.closeFolds p).updPart p fun q => { q with hbm := .selfRefresh }
    s.recordAt .recovery (isEast (partHalf p)) p [BitVec.ofNat 32 p, 0, healRead (chestSel 0) s 0x064]

/-- PRR_START (11 R577, R578). -/
def execPrrStart (p : Part) (s : State) : Host.Outcome State Fault Refusal := .next (s.startRecovery p)

/-- A tile that does not reach FENCED or TEST in time (11 R577). -/
def execTileFenceTimeout (pt : Pt) (s : State) : Host.Outcome State Fault Refusal := .next (s.startRecovery (ptPart pt))

/-- An internal error of an HBM controller, and a fault of its PHY slice (11 R577; 10 R551). -/
def execHbmControllerError (p : Part) (s : State) : Host.Outcome State Fault Refusal := .next (s.startRecovery p)
def execHbmPhyFault (_p : Part) (s : State) : Host.Outcome State Fault Refusal := .next (s.retireCause 3)

/-- A hang that names a tile: the first asks for a remap where the cluster has a spare, the second fences (11 R558, R576). -/
def State.tileHang (s : State) (pt : Nat) : State :=
  let again := (s.role pt).lastHang.any fun t => decide (s.ticks < t + 2 ^ 32)
  if again then s.fenceTile pt 9
  else
    let spare := s.hasSpare (ptClus pt)
    s.updRole pt fun r => { r with lastHang := some s.ticks, hangRemap := spare }

/-- A hang in a partition in RESET is held until VERIFY (11 R582): a tile as its PT, a partition as 4096 + p. -/
def State.hangNamed (s : State) (part : Nat) (tile : Option Nat) : State :=
  let code := match tile with | some pt => pt | none => 4096 + part
  if s.partMode part = .reset then s.modHealx fun h => { h with hangWait := h.hangWait ++ [code] }
  else match tile with
    | some pt => s.tileHang pt
    | none => s.startRecovery part

/-- Digest regions of a partition that are not OFF. -/
def State.digsOf (s : State) (p : Nat) : List (Nat × DigSt) :=
  s.relx.digs.filter fun e =>
    decide (e.2.state ≠ .off) && decide (partOf (e.2.baseHi.toNat * 2 ^ 32 + e.2.baseLo.toNat) = p)

/-- The verify operation on a region: a GOOD region enters RECHECK, with a DIGEST record; a pass is due at once (10 R548;
16 R716). -/
def State.digRecord (s : State) (n : Nat) : State :=
  s.recordAt .digest (isEast (partHalf (partOf ((s.dig n).baseHi.toNat * 2 ^ 32 + (s.dig n).baseLo.toNat)))) n
    [relRead (chestSel n) s 0x114 ||| BitVec.ofNat 32 (n * 2 ^ 16), lo32 (s.dig n).chunks.toNat, hi32 (s.dig n).chunks.toNat]

def State.digVerify (s : State) (n : Nat) : State :=
  if (s.dig n).state = .good then (s.updDig n fun d => { d with state := .recheck, due := true }).digRecord n else s

/-- The ACTIVE tile of the largest test age, an unknown age above every known one, the lowest index on a tie (11 R566). -/
def State.oldest (s : State) (c : Nat) : Option Nat :=
  ((clusTiles c).filter fun pt => decide ((s.role pt).role = .active)).foldl
    (fun m pt => match m with
      | none => some pt
      | some q => if ageCode (s.role q).age < ageCode (s.role pt).age then some pt else some q) none

def State.hasBench (s : State) (c : Nat) : Bool := (clusTiles c).any fun pt => decide ((s.role pt).role = .bench)

/-- Mark a cluster's oldest ACTIVE tile, where the cluster has a BENCH tile and its partition takes part; in a partition in RESET the marking
waits for VERIFY (11 R566, R582; 13 R636). -/
def State.markRotation (s : State) (c : Nat) : State :=
  let p := clusPart c
  if s.partMode p = .reset then s.modHealx fun h => { h with rotDue := (c :: h.rotDue).eraseDups }
  else if s.hasBench c = false ∨ s.parked p ∨ s.waking p then s
  else s.updClus c fun x => { x with rotMark := (s.oldest c).map ptIdx }

/-- What waited for a partition to leave RESET: fences, hangs, rotations, and a retirement (11 R582). -/
def State.heldOrders (s : State) (p : Nat) : State :=
  let fences := s.healx.fenceWait.filter fun c => decide (ptPart (c % 4096) = p)
  let hangs := s.healx.hangWait.filter fun c => decide ((if c < 4096 then ptPart c else c - 4096) = p)
  let s := s.modHealx fun h =>
    { h with fenceWait := h.fenceWait.filter fun c => !fences.contains c, hangWait := h.hangWait.filter fun c => !hangs.contains c }
  let s := s.each fences fun s c => s.fenceTile (c % 4096) (c / 4096)
  let s := s.when (fences.any fun c => decide (c / 4096 = 8)) fun s => s.modHeal fun h => { h with busy := false, result := 0 }
  let s := s.each hangs fun s c => if c < 4096 then s.tileHang c else s.startRecovery (c - 4096)
  let rots := s.healx.rotDue.filter fun c => decide (clusPart c = p)
  let s := s.modHealx fun h => { h with rotDue := h.rotDue.filter fun c => decide (clusPart c ≠ p) }
  let s := s.each rots (·.markRotation ·)
  match s.healx.retireWait with
  | some cause => if s.recovering then s else (s.modHealx fun h => { h with retireWait := none }).drainNow cause
  | none => s

/-- PRR_RESET_DONE: steps 3 to 6: contexts IDLE, requests discarded, tiles reset and zeroed, controllers back, VERIFY, queues
out of FENCED, verify operations started (11 R578, R580, R582, R588; 05 R286). -/
def execPrrResetDone (p : Part) (us : BitVec 16) (s : State) : Host.Outcome State Fault Refusal :=
  if s.partMode p ≠ .reset then .next s
  else
    let s := ((s.loseEntries (.part p)).dropLatches p).endWindows p
    let s := s.each (partClusters p) (·.resetEngine ·)
    let s := s.each ((s.tiles.map (·.1)).filter fun pt => decide (ptPart pt = p.val)) fun s pt =>
      (s.resetTile pt).updTile pt fun t => { t with inReset := false }
    let s := s.updPart p fun q => { q with queue := [], started := [], backlog := [], hbm := .active }
    let s := (s.setPartMode p .verify).unfenceQueues p
    let s := s.modRstc fun r => { r with blks := r.blks.filter fun b => !(decide (b.level = 2) && decide (b.target = p.val)) }
    let s := s.modHeal fun h => { h with lastPrr := us }
    let s := s.each (s.digsOf p) fun s e => s.digVerify e.1
    .next (s.heldOrders p)

/-- PRR_VERIFIED: every region of the partition is GOOD, and it enters RUN (11 R578, R581; 16 R716). -/
def execPrrVerified (p : Part) (s : State) : Host.Outcome State Fault Refusal :=
  if s.partMode p = .verify ∧ ((s.digsOf p).all fun e => decide (e.2.state = .good)) then
    let s := s.setPartMode p .run
    .next (s.recordAt .recovery (isEast (partHalf p)) p [BitVec.ofNat 32 p, 1, healRead (chestSel 0) s 0x064])
  else .next s

end Sys2Proof.Machine
end

