-- ==== Sys2Proof/Machine/Tasks.lean ====
section
/-! DEFINITION. Tasks of started schedules: arming by the loader, stopping, retrying, committing, hangs, reports (04 R181 to R184, R219 to R222; 09 R500; 10 R537 to R542; 11 R573 to R576). -/

namespace Sys2Proof.Machine

/-! ## Schedules -/

/-- Tasks of a schedule that are armed or running. -/
def State.busySched (s : State) (n : BitVec 32) : Bool := s.tasks.any fun e => decide (e.2.sched = n) && e.2.busy

/-- The image of a schedule's chip count exceeds 1 (04 R181). -/
def SchedSt.multi (x : SchedSt) : Bool := decide (1 < x.image.chipCount)

/-- The launch fret of a task that is not retried (09 R500; 10 R539). -/
def SchedSt.launchOf (x : SchedSt) (c : TaskCfg) : Nat := (x.base + c.launch + x.shift).toNat

/-! ## Arming -/

/-- The arm messages' stream contexts of a tile: those of its cluster, with the first tile of the cluster. -/
def streamsFor (c : TaskCfg) (tiles : List (Nat × TileCfg)) (lt : Nat) : List (Nat × List StreamUse) :=
  if ((tiles.map (·.1)).find? fun x => decide (ltClus x = ltClus lt)) = some lt then
    (c.streams.filter fun e => decide (e.1 = ltClus lt)).map (·.2)
  else []

/-- Configuration and control travel over the NCN whatever the loader chooses: during bring-up, self-test and a partition recovery reset
(08 R458). -/
def State.overNcn (s : State) : Bool := !s.top.ready || decide (s.bist.state ≠ 0) || s.recovering

/-- A VC2 worm from the MC's ring, the West ring, along the row of a tile's hub: a configuration write (0x0) or an arm (0x1) (08 R420, R427,
R430, R437). The spec gives its payload no layout: `Out.config` and `Out.arm` hold the content (log entry 65). -/
def State.vc2Worm (s : State) (wtype : BitVec 4) (lt : Nat) (task : BitVec 32) : Worm :=
  let c := ltClus lt
  { head :=
      { vc := 2, cls := false, poison := false, wtype := wtype, nextHop := 0
        hops := BitVec.ofNat 5 (0x18 + hubRow c) :: runCodes 1 (hubCol c)
        srcChip := s.fret.chip, dstChip := s.fret.chip, endpoint := lt, task := if wtype = 1 then task else 0
        stamp := 0, allow := [], fold := 0, port := 0, count := 0, conn := 0, serial := 0, memAddr := 0, deadline := none }
    payload := [] }

/-- TASK_ARM_ISSUE: the loader arms the next task of a started schedule, or a retry that is due: configuration where the
tile's current bank does not hold it, then the arm messages, on VC2, or over the NCN where R458 says so or the loader chooses it (`ncn`) (03 R167, R170; 09 R500; 10 R538, R542, R552). -/
def execTaskArmIssue (sched : BitVec 32) (a : ArmIssue) (s : State) : Host.Outcome State Fault Refusal :=
  match s.sched? sched with
  | none => .next s
  | some x =>
    match x.image.tasks.find? fun c => decide (c.number = a.task) with
    | none => .next s
    | some c =>
      let retry := s.relx.retries.find? fun r => decide (r.task = a.task) && decide (r.sched = sched) && !r.armed
      let before := x.image.tasks.takeWhile fun t => decide (t.number ≠ a.task)
      let inOrder := before.all fun t => x.committed.contains t.number || (s.task t.number).busy
      if x.started = false ∨ x.stopping ∨ s.relx.retState ≠ .none ∨ (s.task a.task).busy ∨ s.rstc.orderly.isSome
          ∨ (retry.isNone ∧ (x.committed.contains a.task ∨ inOrder = false)) then .next s
      else
        let launch := (retry.map (·.launch)).getD (x.launchOf c)
        let attempt := (retry.map fun r => r.attempt + 1).getD 0
        let early := Tab.get [] s.fret.early a.task.toNat
        let acts := c.streams.filterMap fun e => e.2.2.head?.map fun u => ((launch : Int) + u.activation).toNat
        let s := s.modTasks fun t => Tab.put t a.task.toNat
          { sched := sched, phase := .armed, multi := x.multi, salt := c.salt, launch := launch, length := c.length
            grace := c.grace, attempt := attempt, earliest := acts.foldl min launch, tiles := c.tiles.map (·.1)
            aborts := early, recvd := decide (early ≠ []) }
        let s := s.modFret fun r => { r with early := Tab.del r.early a.task.toNat }
        let tiles := s.effTiles a.task
        let s := s.each tiles fun s e =>
          let cur := (s.tile (s.ptOf e.1)).cur
          let keep := retry.isSome && (cur.map fun b => decide (b.task = a.task) && decide (b.cfg = e.2)).getD false
          let via := fun (t : BitVec 4) => if a.ncn || s.overNcn then none else some (s.vc2Worm t e.1 a.task)
          let s := s.when (!keep) fun s => s.emit (.config e.1 a.task e.2 (via 0))
          s.emit (.arm e.1 ⟨a.task, c.salt, launch, keep, streamsFor c tiles e.1⟩ (via 1))
        let s := s.modRelx fun r => { r with retries := r.retries.map fun y =>
          if y.task = a.task ∧ y.sched = sched then { y with armed := true } else y }
        .next (s.retryReport a.task)

/-! ## Stopping and retrying -/

/-- Statuses that allow a retry (10 R537). -/
def retriable : Status → Bool
  | .nakFenced | .residue | .parity | .underrun | .bound | .skew | .slip | .hang | .peer => true
  | _ => false

/-- Tasks of a schedule other than `task` that have not launched. -/
def State.unlaunched (s : State) (sched task : BitVec 32) : Nat :=
  match s.sched? sched with
  | none => 0
  | some x => (x.image.tasks.filter fun c =>
      let t := s.task c.number
      decide (c.number ≠ task) && !x.committed.contains c.number
        && (decide (t.phase = .waiting) || (decide (t.phase = .armed) && decide (s.now < t.launch)))).length

/-- R539: every task of the schedule that has not launched moves by a number of frets; HEALTH reports count them (16 R733). -/
def State.shiftSched (s : State) (sched : BitVec 32) (task : BitVec 32) (d : Nat) : State :=
  let late := s.unlaunched sched task
  let moved := (s.tasks.filter fun e => decide (e.2.sched = sched) && decide (BitVec.ofNat 32 e.1 ≠ task)
    && decide (e.2.phase = .armed) && decide (s.now < e.2.launch)).map fun e => BitVec.ofNat 32 e.1
  let s := s.updSched sched fun x => { x with shift := x.shift + d }
  let s := s.each moved fun s n =>
    let s := s.updTask n fun t => { t with launch := t.launch + d, earliest := t.earliest + d }
    let s := s.modTiles fun ts => ts.map fun e =>
      (e.1, { e.2 with armed := e.2.armed.map fun a => if a.task = n then { a with launch := a.launch + d } else a })
    s.modCtxs fun cs => cs.map fun e =>
      (e.1, { e.2 with
        launch := if e.2.task = n ∧ e.2.state = .armed then e.2.launch + d else e.2.launch
        lastRetire := if e.2.task = n ∧ e.2.state = .armed then e.2.lastRetire.map (· + (d : Int)) else e.2.lastRetire
        held := e.2.held.map fun h => if h.task = n then { h with launch := h.launch + d } else h })
  s.modTel fun t =>
    { t with cnt := { t.cnt with late := t.cnt.late + BitVec.ofNat 32 late, moved := t.cnt.moved + BitVec.ofNat 32 (late * d) } }

/-- A task fails: counted, reported, and its schedule stops (10 R541, R542). -/
def State.failTask (s : State) (n : BitVec 32) (st : Status) (attempt verdict : Nat) (fret : Nat) (origin : BitVec 10) (lt : Nat) :
    State :=
  let sched := (s.task n).sched
  let s := s.modRel fun r => { r with failed := satAdd r.failed 1 }
  let s := s.updSched sched fun x => { x with stopping := true }
  s.taskReport 3 st attempt verdict n fret origin lt sched

/-- A task's tiles stop; a tile with a capture goes to TEST for its arbitration (03 R170; 10 R533). -/
def State.stopTiles (s : State) (n : BitVec 32) : State :=
  s.modTiles fun ts => ts.map fun e =>
    let t := e.2
    let runs := (t.running.map fun a => decide (a.task = n)).getD false
    let arms := (t.armed.map fun a => decide (a.task = n)).getD false
    let t : TileSt := if runs then { stopTile t with armed := if arms then none else t.armed, armedOk := t.armedOk && !arms }
      else if arms then { t with armed := none, armedOk := false } else t
    let cap := (t.capture.map fun c => decide (c.task = n)).getD false
    (e.1, if cap ∧ t.mode ≠ .fenced then { t with mode := .test } else t)

/-- A task that runs commits in this fret: C, with no abort at or before it known by the end of fret C − 1 (04 R182). -/
def State.commits (s : State) (t : TaskRt) : Bool :=
  (decide (t.phase = .running) || decide (t.phase = .ended)) && !t.dead && !t.abortedBy (s.commitFret t)
    && decide (s.commitFret t = s.now)

/-- TASK_STOP: at its abort fret the task stops here, and is retried or fails (04 R219, R220, R230, R231; 10 R537 to R542). -/
def execTaskStop (task : BitVec 32) (s : State) : Host.Outcome State Fault Refusal :=
  let t := s.task task
  match t.abort with
  | none => .next s
  | some a =>
    if s.now < a.fret ∨ t.phase = .committed ∨ t.phase = .stopped ∨ s.commits t then .next s
    else
      let s := ((s.stopTiles task).stopStreams task).dropHeld task
      let s := s.abortSessions task
      let s := s.modFret fun r =>
        { r with abortTask := task, abortValid := true, abortOrigin := a.origin, abortStatus := BitVec.ofNat 8 a.status.code }
      let s := s.record .taskStop [task, fretRead (chestSel 0) s 0x028, BitVec.ofNat 32 t.attempt]
      let s := s.modTel fun m => { m with cnt := { m.cnt with aborted := m.cnt.aborted + 1 } }
      let s := s.updTask task fun t => { t with phase := .stopped }
      let lt := s.captureLt task
      let verdict := if s.captures task = [] then 0 else 7
      let s := s.modRelx fun r => { r with retries := r.retries.filter fun y => decide (y.task ≠ task) }
      let stopping := ((s.sched? t.sched).map (·.stopping)).getD true
      if retriable a.status ∧ t.attempt < s.rel.retryLimit.toNat ∧ s.relx.retState = .none ∧ stopping = false then
        let launch := a.fret + max 1 s.rel.retryDelay.toNat * 4096
        let s := s.modRelx fun r => { r with retries := r.retries ++
          [⟨t.sched, task, a.status, t.attempt, a.fret, a.origin, launch, false, false, lt, verdict⟩] }
        .next (s.shiftSched t.sched task (launch - t.launch))
      else .next (s.failTask task a.status t.attempt verdict a.fret a.origin lt)

/-! ## Committing -/

/-- TASK_COMMIT: at C, with no abort fret at or before it known by the end of fret C − 1, the side selectors flip and the session pointers move (04
R181, R182; 05 R281; 06 R332; 10 R542; 11 R585; 16 R733). -/
def execTaskCommit (task : BitVec 32) (s : State) : Host.Outcome State Fault Refusal :=
  let t := s.task task
  if s.commits t = false then .next s
  else
    let writes := ((s.taskCfg task).map (·.writes)).getD []
    let s := s.modSpn fun n => { n with sides := writes.eraseDups.foldl (fun x r => Tab.upd false x r (!·)) n.sides }
    let s := s.commitSessions task
    let s := s.modTiles fun ts => ts.map fun e =>
      if (e.2.running.map fun a => decide (a.task = task)).getD false then
        (e.1, { e.2 with running := none, rt := [], flight := [], mode := if e.2.mode = .run then .idle else e.2.mode })
      else e
    let s := s.updTask task fun t => { t with phase := .committed, lastCommit := some s.now }
    let s := s.updSched t.sched fun x => { x with committed := x.committed ++ [task] }
    let s := s.modHealx fun h => { h with lastCommitted := task }
    let s := s.modTel fun m => { m with cnt := { m.cnt with committed := m.cnt.committed + 1 } }
    let s := s.modRelx fun r => { r with retries := r.retries.filter fun y => decide (y.task ≠ task) }
    if 0 < t.attempt then .next (s.taskReport 2 .ok t.attempt 0 task s.now s.fret.chip 0xFFFF t.sched)
    else if s.rel.reportAll then .next (s.taskReport 4 .ok 0 0 task s.now s.fret.chip 0xFFFF t.sched)
    else .next s

/-! ## Hangs (11 R573 to R576) -/

/-- Firings of a fold that lie before the end of a task of a length. -/
def plannedFirings (c : TileCfg) (i : Nat) (len : Nat) : Nat :=
  match c.folds[i]? with
  | none => 0
  | some f =>
    let start := (sliceStarts c.folds).getD i 0
    ((firingOffsets f).map fun o => if start + o < len then (len - (start + o) + c.period - 1) / max c.period 1 else 0).foldl (· + ·) 0

/-- A tile of a task has not made its last firing, or not sent its last word (R573). -/
def State.tileIncomplete (s : State) (n : BitVec 32) (lt : Nat) (c : TileCfg) : Bool :=
  let t := s.tile (s.ptOf lt)
  !((t.running.map fun a => decide (a.task = n)).getD false) || decide (t.flight ≠ [])
    || (List.range c.folds.length).any fun i => decide ((t.rt.getD i {}).fired < plannedFirings c i (s.task n).length)

/-- Edges of a task whose producer's counter does not hold D: fret of the last change, LT, fold and port. -/
def State.stalledEdges (s : State) (n : BitVec 32) : List (Nat × Nat × Nat × Nat) :=
  (s.effTiles n).flatMap fun e =>
    let t := s.tile (s.ptOf e.1)
    (e.2.folds.zipIdx).flatMap fun f => (f.1.outputs.zipIdx).filterMap fun o =>
      match o.1.edges.head? with
      | none => none
      | some d =>
        let r := t.rt.getD f.2 {}
        if r.credits.getD o.2 d.depth + r.fresh.getD o.2 0 = d.depth then none
        else some (r.changed.getD o.2 0, e.1, f.2, o.2)

/-- The first stalled edge: earliest change, then lower LT, then lower port. -/
def firstStalled (xs : List (Nat × Nat × Nat × Nat)) : Option (Nat × Nat × Nat × Nat) :=
  xs.foldl (fun m x => match m with
    | none => some x
    | some y =>
      if x.1 < y.1 ∨ (x.1 = y.1 ∧ (x.2.1 < y.2.1 ∨ (x.2.1 = y.2.1 ∧ x.2.2.2 < y.2.2.2))) then some x else some y) none

/-- Contexts of a task that have not retired their last use. -/
def State.openCtxs (s : State) (n : BitVec 32) : List Nat :=
  (s.ctxs.filter fun e => decide (e.2.task = n) && (decide (e.2.state = .armed) || decide (e.2.state = .active))).map (·.1)

/-- Writes of a task not yet acknowledged, by address. -/
def State.openWrites (s : State) (n : BitVec 32) : List Nat :=
  let mine := fun (r : HbmReq) => r.write && ((s.reqTask r).map fun t => decide (t = n)).getD false
  s.parts.flatMap (fun e => ((e.2.queue ++ e.2.started).filter mine).map (·.addr))
    ++ s.cluss.flatMap fun e => (e.2.waiting.filter mine).map (·.addr)

/-- TASK_HANG: a task not complete by the end of E + g − 2 aborts at E + g − 1 and its context is recorded (R573 to R576,
R588; 16 R716). -/
def execTaskHang (task : BitVec 32) (s : State) : Host.Outcome State Fault Refusal :=
  let t := s.task task
  let tiles := s.effTiles task
  let lts := (tiles.filter fun e => s.tileIncomplete task e.1 e.2).map (·.1)
  let ctxs := s.openCtxs task
  let writes := s.openWrites task
  if !(decide (t.phase = .running) || decide (t.phase = .ended)) || t.dead || decide (s.now + 1 ≠ t.ending + t.grace)
      || (decide (lts = []) && decide (ctxs = []) && decide (writes = [])) then .next s
  else
    let edge := firstStalled (s.stalledEdges task)
    let low := fun (xs : List Nat) => xs.foldl (fun (m : Option Nat) x => some (min (m.getD x) x)) none
    let part := match low lts, edge, low ctxs, low writes with
      | some lt, _, _, _ => ltPart lt
      | none, some e, _, _ => ltPart e.2.1
      | none, none, some k, _ => clusPart (k / 64)
      | none, none, none, some a => partOf a
      | none, none, none, none => 0
    let tile := (low lts).map s.ptOf
    let held := low ((s.sess.holds.filter fun h => decide (h.task = task)).map (·.ctx))
    let s := s.modHeal fun h =>
      { h with
        hangs := satAdd h.hangs 1, hangTask := task, hangValid := true, hangPart := BitVec.ofNat 4 part
        hangTile := (low lts).isSome, hangLt := BitVec.ofNat 11 ((low lts).getD 0)
        edgeValid := edge.isSome, edgeFold := BitVec.ofNat 3 ((edge.map (·.2.2.1)).getD 0)
        edgePort := BitVec.ofNat 3 ((edge.map (·.2.2.2)).getD 0), edgeLt := BitVec.ofNat 11 ((edge.map (·.2.1)).getD 0)
        hangSess := (held.map s.handleOf).getD 0xFFFFFFFF, hangFret := BitVec.ofNat 32 ((edge.map (·.1)).getD 0) }
    let r := fun o => healRead (chestSel 0) s o
    let s := s.recordAt .hang (isEast (partHalf part)) part [r 0x040, r 0x044, r 0x048, r 0x04C]
    .next ((s.detect task .hang).hangNamed part tile)

end Sys2Proof.Machine
end

