-- ==== Sys2Proof/Machine/Arbitrate.lean ====
section
/-! DEFINITION. Replay arbitration of captured faults, and weight digests (10 R531 to R536, R543 to R550). -/

namespace Sys2Proof.Machine

/-! ## Arbitration -/

/-- Captures of a cluster whose task has stopped, in PT order (10 R533, R535). -/
def State.captured (s : State) (c : Nat) : List Nat :=
  (clusTiles c).filter fun pt =>
    ((s.tile pt).capture.map fun x => decide ((s.task x.task).phase = .stopped)).getD false

/-- A good bench tile: BENCH, or TESTING where none is BENCH (10 R533; 15 R695). -/
def State.benchTile (s : State) (c : Nat) : Option Nat :=
  match (clusTiles c).find? fun pt => decide ((s.role pt).role = .bench) with
  | some pt => some pt
  | none => (clusTiles c).find? fun pt => decide ((s.role pt).role = .testing)

/-- ARBITRATION_START: the hub's arbiter takes its cluster's next capture (10 R533, R535). -/
def execArbitrationStart (c : Clus) (s : State) : Host.Outcome State Fault Refusal :=
  if s.relx.arbs.any fun a => decide (a.clus = c.val) then .next s
  else match (s.captured c).head? with
    | none => .next s
    | some pt =>
      let s := s.modRelx fun r => { r with arbs := r.arbs ++ [⟨c, pt, s.benchTile c, false⟩] }
      let s := s.updTile pt fun t => { t with mode := if t.mode = .fenced then .fenced else .test }
      .next (s.arbLast pt 7 false)

/-- The first row of R534 that matches all repetitions. -/
def arbRow (rs : List Replay) : Nat :=
  if (rs.all fun r => r.bench && r.benchEqTile && !r.tileEqX && !r.benchEqX) && decide (rs ≠ []) then 1
  else if rs.any fun r => !r.tileEqX then 2
  else if rs.any (·.ownFlag) then 3
  else if rs.any fun r => r.bench && (!r.benchEqX || r.benchFlag) then 4
  else 5

/-- The verdict code of REL_ARB_LAST for a row (10 R556). -/
def arbVerdict : Nat → BitVec 3
  | 1 => 5 | 2 => 2 | 3 => 3 | 4 => 4 | _ => 1

/-- The counters of a row (10 R534). -/
def arbCount (row : Nat) (r : RelSt) : RelSt :=
  match row with
  | 1 => { r with refDis := satAdd r.refDis 1 }
  | 2 => { r with datapath := satAdd r.datapath 1 }
  | 3 => { r with checker := satAdd r.checker 1 }
  | 4 => { r with bench := satAdd r.bench 1, transient := satAdd r.transient 1 }
  | _ => { r with transient := satAdd r.transient 1 }

/-- ARBITRATION_DONE: the conclusion of R534 for the cluster's arbitration, by its replays (10 R534, R535, R551). -/
def execArbitrationDone (c : Clus) (rs : List Replay) (s : State) : Host.Outcome State Fault Refusal :=
  match s.relx.arbs.find? fun a => decide (a.clus = c.val) with
  | none => .next s
  | some a =>
    let row := arbRow rs
    let s := (s.modRel (arbCount row)).arbLast a.pt (arbVerdict row) true
    let s := s.recordAt .arbitration (isEast (clusHalf c)) c [relRead (chestSel 0) s 0x030, relRead (chestSel 0) s 0x034]
    match row with
    | 1 =>
      if a.repeated then .next ((s.retireCause 4).endArb a.pt 5)
      else .next (s.modRelx fun r => { r with arbs := r.arbs.map fun x => if x.clus = c.val then { x with repeated := true } else x })
    | 2 => .next ((s.endArb a.pt 2).fenceTile a.pt 2)
    | 3 => .next ((s.endArb a.pt 3).fenceTile a.pt 3)
    | 4 =>
      let s := s.endArb a.pt 4
      match a.bench with
      | some b => .next (s.fenceTile b 4)
      | none => .next s
    | _ => .next (s.endArb a.pt 1)

/-! ## Digest regions -/

def DigSt.base (d : DigSt) : Nat := d.baseHi.toNat * 2 ^ 32 + d.baseLo.toNat
def DigSt.bytes (d : DigSt) : Nat := d.size.toNat * 262144

/-- I in seconds (10 R545, R556). -/
def intervalSecs (i : BitVec 12) : Nat := if i.toNat = 0 ∨ 3600 < i.toNat then 30 else i.toNat

/-- Enabled bytes of a half. -/
def State.digBytes (s : State) (h : Half) : Nat :=
  ((s.relx.digs.filter fun e => decide (e.2.state ≠ .off) && decide (partHalf (partOf e.2.base) = h)).map fun e =>
    e.2.bytes).foldl (· + ·) 0

/-- R546: at most 128 GB/s for I ÷ 2. -/
def rateOk (bytes secs : Nat) : Bool := decide (bytes ≤ 128 * 10 ^ 9 * secs / 2)

/-- A region that R543 allows. -/
def DigSt.ok (d : DigSt) : Bool :=
  decide (1 ≤ d.size.toNat) && decide (d.size.toNat ≤ 147456) && decide (d.base % 4096 = 0) && populatedRange d.base d.bytes

/-- R548, enable: OFF to LEARN, within the rate of R546. -/
def State.digEnable (s : State) (n : Nat) : State :=
  let d := s.dig n
  if d.state ≠ .off ∨ d.ok = false then s
  else if !rateOk (s.digBytes (partHalf (partOf d.base)) + d.bytes) (intervalSecs s.relx.interval) then
    s.modRelx fun r => { r with cfgErr := true }
  else s.updDig n fun d =>
    { d with state := .learn, badCause := 0, passes := 0, count := 0, chunks := 0, tags := [], learned := false, peer := none }

/-- R548, disable. -/
def State.digDisable (s : State) (n : Nat) : State := s.updDig n fun d => { d with state := .off, due := false }

/-- A region becomes BAD: its cause, attention and record (10 R548; 16 R716). -/
def State.digBad (s : State) (n : Nat) (cause : BitVec 2) : State :=
  ((s.updDig n fun d => { d with state := .bad, badCause := cause, due := false }).attn .digest).digRecord n

/-- A region becomes DIVERGED: the chip retires (10 R548, R551). -/
def State.digDiverge (s : State) (n : Nat) : State :=
  ((s.updDig n fun d => { d with state := .diverged, due := false }).digRecord n).retireCause 7

/-- R549 in LEARN: the learned D against the twin's. -/
def State.digAgree (s : State) (n : Nat) : State :=
  let d := s.dig n
  if d.state ≠ .learn ∨ d.learned = false then s
  else if s.relx.twinEn = false then s.updDig n fun d => { d with state := .good }
  else match d.peer with
    | none => s
    | some x => if x = d.last then s.updDig n fun d => { d with state := .good } else s.digBad n 2

/-- The 48-byte digest message (10 R549). -/
def State.digMessage (s : State) (n : Nat) : State :=
  let d := s.dig n
  s.when s.relx.twinEn fun s =>
    s.mcSend s.relx.twinConn.toNat
      ([0x10, BitVec.ofNat 8 d.state.code, BitVec.ofNat 8 n, 0] ++ leBytes 4 d.count.toNat ++ leBytes 32 d.last.toNat
        ++ List.replicate 8 0)

end Sys2Proof.Machine
end

