-- ==== Sys2Proof/Machine/Digest.lean ====
section
/-! DEFINITION. Digest passes, rounds and messages (10 R544 to R549). -/

namespace Sys2Proof.Machine

/-- The tags of a region's 64 chunks (10 R543, R544). -/
def chunkTags (bs : List Byte) : List (BitVec 64) :=
  let n := bs.length / 64
  (List.range 64).map fun i => BitVec.ofNat 64 (leVal (shake256 8 ((bs.drop (i * n)).take n)))

/-- The chunks whose tags differ (10 R548). -/
def tagMask (xs ys : List (BitVec 64)) : BitVec 64 :=
  (List.range 64).foldl (fun m i => if xs.getD i 0 = ys.getD i 0 then m else putBit m i true) 0

/-- The state after a complete pass with digest `d` and tags `tags` (10 R548, R549). -/
def State.passState (s : State) (n : Nat) (d : BitVec 256) (tags : List (BitVec 64)) : State :=
  let x := s.dig n
  let s := s.updDig n fun x => { x with passes := x.passes + 1, count := x.count + 1, last := d, due := false }
  match x.state with
  | .learn =>
    if x.hostRef ∧ d ≠ x.ref then s.digBad n 1
    else (s.updDig n fun x => { x with learned := true, tags := tags, ref := if x.hostRef then x.ref else d }).digAgree n
  | .good =>
    if d = x.ref then s else (s.updDig n fun x => { x with state := .recheck, due := true }).digRecord n
  | .recheck =>
    if d = x.ref then
      (s.updDig n fun x => { x with state := .good }).modRelx fun r => { r with digTransient := satAdd r.digTransient 1 }
    else
      let m := tagMask x.tags tags
      if m = 0#64 then ((s.digBad n 0).retireCause 6)
      else (s.updDig n fun x => { x with chunks := m }).digBad n 3
  | _ => s

/-- DIGEST_PASS_DONE: a pass that was due reads its region, with the bits in error found, and the region's state moves (10 R544, R548,
R549; 05 R242). -/
def execDigestPassDone (d : DigestRead) (s : State) : Host.Outcome State Fault Refusal :=
  let x := s.dig d.n
  if x.due = false ∨ x.state = .off then .next s
  else
    let bs := s.hbmBytes x.base x.bytes
    let s := s.noteErrs (d.errs.filter fun e => decide (x.base ≤ e.1 * 32) && decide (e.1 * 32 < x.base + x.bytes))
    let s := (s.checkRange x.base x.bytes).2
    .next ((s.passState d.n (shake32 bs) (chunkTags bs)).digMessage d.n)

/-- DIGEST_ROUND_START: each enabled region of the half is due a pass (10 R545). -/
def execDigestRoundStart (h : Half) (s : State) : Host.Outcome State Fault Refusal :=
  let f := fun (e : Nat × DigSt) =>
    if e.2.state ≠ .off ∧ partHalf (partOf e.2.base) = h then (e.1, { e.2 with due := true }) else e
  .next (s.modRelx fun r => { r with digs := r.digs.map f })

/-- A write of REL_DIG_CFG (10 R546, R556). -/
def State.writeDigCfg (s : State) (v : Word) : State :=
  let i : BitVec 12 := v.extractLsb' 0 12
  let ok := rateOk (s.digBytes .west) (intervalSecs i) && rateOk (s.digBytes .east) (intervalSecs i)
  s.modRelx fun r =>
    { r with
      twinEn := bit v 31, twinConn := v.extractLsb' 16 12, interval := if ok then i else r.interval
      cfgErr := (r.cfgErr && !bit v 30) || !ok }

/-- A write of REL_DIG_CTL: host_ref in OFF, then the operation (10 R548, R556). -/
def State.writeDigCtl (s : State) (n : Nat) (v : Word) : State :=
  let s := s.when (decide ((s.dig n).state = .off)) fun s => s.updDig n fun d => { d with hostRef := bit v 29 }
  match (v.extractLsb' 30 2).toNat with
  | 1 => s.digEnable n
  | 2 => s.digDisable n
  | 3 => s.digVerify n
  | _ => s

/-- DIGEST_MESSAGE_RECEIVE: the twin's D against the region's own (10 R549). -/
def execDigestMessageReceive (m : DigestMsg) (s : State) : Host.Outcome State Fault Refusal :=
  let n := m.region.toNat
  let x := s.dig n
  if s.relx.twinEn = false then .next s
  else match x.state with
    | .learn =>
      if m.state = 1 ∨ m.state = 2 then .next ((s.updDig n fun d => { d with peer := some m.d }).digAgree n) else .next s
    | .good => if m.state = 2 ∧ m.d ≠ x.last then .next (s.digDiverge n) else .next s
    | _ => .next s

end Sys2Proof.Machine
end

