-- ==== Sys2Proof/Machine/Host.lean ====
section
/-! DEFINITION. The PCIe ports: the BAR2 window, channel windows, notice ring head, host receivers, the owner token, PERST# and attention pulses (09). -/

namespace Sys2Proof.Machine

/-! ## The BAR2 window -/

/-- The device address of byte `off` of a port's window: base bits below the window size are ignored (09 R480). -/
def State.bar2Addr (s : State) (p : HostPort) (off : Nat) : Nat :=
  let r := s.pcieOf p
  (r.winBase.toNat * 2 ^ 36 / 2 ^ r.bar2Log * 2 ^ r.bar2Log + off) % 2 ^ 40

/-- BAR2_READ: device memory, or all ones where a byte is unpopulated, parked, fenced or uncorrectable (05 R242, R246;
01 R47; 09 R480); `errs` are the bits in error that the check finds, by sector. The access is one whole step (95): that its requests
queue as unscheduled ones (R263) is timing. -/
def execBar2Read (port : HostPort) (off : Nat) (r : BarRead) (s : State) : Host.Outcome State Fault Refusal :=
  let a := s.bar2Addr port off
  let ones := List.replicate r.len (0xFF : Byte)
  if s.reach a r.len = .ok then
    let c := (s.noteErrs (r.errs.filter fun e => (sectorsOf a r.len).contains e.1)).checkRange a r.len
    .next (c.2.emit (.bar2 port (if c.1 = [] then c.2.hbmBytes a r.len else ones)))
  else .next (s.emit (.bar2 port ones))

/-- BAR2_WRITE: device memory, sector by sector; discarded where R47 says so (05 R241, R244, R246; 09 R480); `wrong` names the sectors
whose byte parity is wrong at the hub, `errs` the bits in error that the read of a partly covered sector finds. -/
def execBar2Write (port : HostPort) (off : Nat) (d : BarWrite) (s : State) :
    Host.Outcome State Fault Refusal :=
  let a := s.bar2Addr port off
  let secs := sectorsOf a d.data.length
  if s.reach a d.data.length = .ok then .next ((s.noteErrs (d.errs.filter fun e => secs.contains e.1)).hbmWrite a d.data d.wrong) else .next s

/-! ## Channel windows (R483 to R489) -/

/-- The end of the message: 4 + body length, once the length word is written (R483). -/
def Assembly.stop (a : Assembly) : Option Nat :=
  if (List.range 4).all fun i => (Tab.find a.bytes i).isSome then
    some (5 + leVal (Mem.read (fun _ => 0) a.bytes 0 2) % 4096)
  else none

/-- One byte written at a window offset (R484, R486). -/
def Assembly.put (a : Assembly) (i : Nat) (b : Byte) : Assembly :=
  if (Tab.find a.bytes i).isSome then { a with twice := min a.twice i } else { a with bytes := Tab.put a.bytes i b }

/-- Bytes written from a window offset on. -/
def Assembly.puts : Assembly → Nat → List Byte → Assembly
  | a, _, [] => a
  | a, i, b :: bs => (a.put i b).puts (i + 1) bs

/-- What a message's assembly has come to. -/
inductive AsmEnd where
  | waits | broken | complete (body : List Byte)
deriving DecidableEq, Repr

/-- A byte of the message written twice breaks it; every byte written once completes it (R484, R486). A byte beyond
the first body byte belongs to the message only once the length word says so (log entry 34). -/
def Assembly.result (a : Assembly) : AsmEnd :=
  match a.stop with
  | none => if a.twice < 5 then .broken else .waits
  | some e =>
    if a.twice < e then .broken
    else if (List.range e).all fun i => (Tab.find a.bytes i).isSome then
      .complete (Mem.read (fun _ => 0) a.bytes 4 (e - 4))
    else .waits

/-- A submission refused: the connection's and the port's counters, and a notice to the port that received it (R486,
R488, R490). -/
def State.refuseSubmission (s : State) (p : HostPort) (n : Nat) (st : Status) (detail : BitVec 4) : State :=
  let s := (s.refuse n st detail).updPcie p fun r => { r with subRefused := satAdd r.subRefused 1 }
  s.noticeTo p 3 st detail.toNat n (s.conn n).seq.toNat

/-- A complete submission: the checks of R488 in order, then the send of R394. -/
def State.submit (s : State) (p : HostPort) (n : Nat) (body : List Byte) : State :=
  let c := s.conn n
  let r := recUnits body.length
  if txPort c.srcKind ≠ some p then s.refuseSubmission p n .nakStale 0xA
  else if c.state ≠ .opened then s.refuseSubmission p n .nakStale 5
  else if !c.nak && decide (c.grant.toNat < r) then s.refuseSubmission p n .nakFull 1
  else if !c.nak && !c.allows r then s.refuseSubmission p n .nakFull 1
  else s.transmit n ⟨body, 1, 0⟩

/-- A write TLP to the body of a window, with a slot for it (R483, R485, R486). -/
def State.assemble (s : State) (p : HostPort) (n rel : Nat) (data : List Byte) : State :=
  let bs := data.take (0x1004 - rel)
  if bs = [] then s
  else
    let r := s.pcieOf p
    let old := (r.slots.find? fun a => decide (a.conn = n)).getD ⟨n, [], s.now, 0x1004⟩
    let a := old.puts rel bs
    let others := r.slots.filter fun a => decide (a.conn ≠ n)
    match a.result with
    | .waits => s.updPcie p fun r => { r with slots := others ++ [a] }
    | .broken => (s.updPcie p fun r => { r with slots := others }).refuseSubmission p n .nakFull 9
    | .complete body => (s.updPcie p fun r => { r with slots := others }).submit p n body

/-- A write TLP to BAR4, window by window. -/
def State.window (s : State) (p : HostPort) (off : Nat) (data : List Byte) : State :=
  let here := 0x10000 - off % 0x10000
  let s := s.assemble p (off / 0x10000 % 4096) (off % 0x10000) (data.take here)
  s.assemble p ((off / 0x10000 + 1) % 4096) 0 (data.drop here)

/-- BAR4_WRITE: the message's bytes; with all 64 slots held the write waits for credit (R485). -/
def execBar4Write (port : HostPort) (off : Nat) (data : List Byte) (s : State) : Host.Outcome State Fault Refusal :=
  let r := s.pcieOf port
  if r.stalled = [] ∧ r.slots.length < 64 then .next (s.window port off data)
  else .next (s.updPcie port fun r => { r with stalled := r.stalled ++ [(off, data)] })

/-- Writes that waited for a slot, in order, while slots are free; the fuel is the number waiting. -/
def State.drainStalled : Nat → State → HostPort → State
  | 0, s, _ => s
  | k + 1, s, p =>
    match (s.pcieOf p).stalled with
    | [] => s
    | w :: ws =>
      if (s.pcieOf p).slots.length < 64 then
        State.drainStalled k ((s.updPcie p fun r => { r with stalled := ws }).window p w.1 w.2) p
      else s

/-- SUBMISSION_TIMEOUT: 2^20 frets after its first write an incomplete message is refused (R486). -/
def execSubmissionTimeout (port : HostPort) (c : ConnN) (s : State) : Host.Outcome State Fault Refusal :=
  let r := s.pcieOf port
  if r.slots.any fun a => decide (a.conn = c.val) && decide (a.first + 2 ^ 20 ≤ s.now) then
    let s := s.updPcie port fun r => { r with slots := r.slots.filter fun a => decide (a.conn ≠ c.val) }
    let s := s.refuseSubmission port c .nakFull 9
    .next (State.drainStalled (s.pcieOf port).stalled.length s port)
  else .next s

/-- A word of a window's status area (R489). No command of the table reads BAR4. -/
def State.windowStatus (s : State) (n w : Nat) : Word :=
  let c := s.conn n
  let held := fun p => (s.pcieOf p).slots.any fun a => decide (a.conn = n)
  match w with
  | 0 => pk [(c.state.code, 29), (c.nak.toNat, 28), (c.srcKind.toNat, 24), (c.serial.toNat, 16), (c.lastStatus.toNat, 8),
      ((held .a || held .b).toNat, 0)]
  | 1 => pk [(c.grant.toNat, 16), (c.outst.toNat, 0)]
  | 2 => c.quota.setWidth 32
  | 3 => c.seq
  | _ => 0

/-! ## Notices and host receivers -/

/-- PCIE_x_NQ_CFG: enabling returns the tail to entry 0 with lap 1; base and size are writable while enable is 0
(R492, R515). -/
def State.writeNqCfg (s : State) (p : HostPort) (v : Word) : State :=
  s.updPcie p fun r =>
    let on := bit v 31 && !r.nqEnable
    { r with
      nqOverflow := r.nqOverflow && !bit v 30
      nqSize := if r.nqEnable then r.nqSize else v.extractLsb' 0 9
      nqEnable := bit v 31
      nqTail := if on then 0 else r.nqTail
      nqLap := if on then true else r.nqLap
      nqCount := if on then 0 else r.nqCount
      vec512 := if on then false else r.vec512 }

/-- PCIE_x_NQ_HEAD: entries before the new head are handed back, and vector 512 may be signalled again (R492, R496). -/
def State.writeNqHead (s : State) (p : HostPort) (v : Word) : State :=
  s.updPcie p fun r =>
    let h := (v.extractLsb' 0 16 : BitVec 16)
    let n := r.nqEntries
    { r with
      nqHead := h
      nqCount := if n = 0 then 0 else (r.nqTail.toNat + n - h.toNat % n) % n
      vec512 := false }

/-- How many leading records end at a ring position, if any do: a record boundary (R495). -/
def boundary (unit : Nat) (lap : Bool) (q : QueueSt) : List RecSt → Option Nat
  | [] => if q.tail.toNat = unit ∧ q.tailLap = lap then some 0 else none
  | r :: rs => if r.unit = unit ∧ r.lap = lap then some 0 else (boundary unit lap q rs).map (· + 1)

/-- The interrupt of a host-receiver queue armed: signalled at once where a record remains unread (R497). -/
def State.armRx (s : State) (p : HostPort) (n : Nat) : State :=
  let q := s.queue n
  if q.nextRec.isSome then
    (s.emit (.msix p (q.ep.toNat * 8 + q.prio.toNat))).updQueue n fun q => { q with armedAt := none }
  else s.updQueue n fun q => { q with armedAt := some s.now }

/-- PCIE_x_RX_CONSUME (R495, R497, R515). -/
def State.writeRxConsume (s : State) (p : HostPort) (v : Word) : State :=
  let n := (v.extractLsb' 18 12 : BitVec 12).toNat
  let q := s.queue n
  let at' := boundary (v.extractLsb' 0 18 : BitVec 18).toNat (bit v 30) q q.recs
  match (if q.state ≠ .unbound ∧ rxPort q.kind = some p then at' else none) with
  | none => s.updPcie p fun r => { r with consumeErr := true }
  | some k =>
    let s := s.each ((q.recs.take k).filter fun r => decide (r.kind ≠ 2)) fun s r => s.creditRec n r
    let s := s.updQueue n fun q => QueueSt.rehead { q with recs := q.recs.drop k }
    s.when (bit v 31) (·.armRx p n)

/-! ## Ownership and PERST# -/

/-- A change of the owner token raises attention cause owner on both ports (R501). -/
def State.setOwner (s : State) (o : Owner) : State :=
  if s.top.owner = o then s else (s.modTop fun t => { t with owner := o }).attn .owner

/-- One denied operation or write (R501, R503). -/
def State.denyWrite (s : State) : State := s.modTop fun t => { t with denied := satAdd t.denied 1 }

/-- TOP_OWNER.op from a port: claim, release, give (R501). -/
def State.ownerOp (s : State) (p : HostPort) (op : Nat) : State :=
  let mine := decide (s.top.owner = p.owner)
  let free := decide (s.top.owner = .none)
  match op with
  | 1 => if free then s.setOwner p.owner else if mine then s else s.denyWrite
  | 2 => if mine then s.setOwner .none else s
  | 3 => if mine then s.setOwner p.other.owner else if free then s else s.denyWrite
  | _ => s

/-- What a reset of port x does to the port (R396, R504). -/
def State.portReset (s : State) (p : HostPort) : State :=
  let s := s.updPcie p fun r => { ({} : PcieSt) with perstN := r.perstN }
  let s := s.modTop fun t => { t with cause := t.cause.set p 0, mask := t.mask.set p 0x3FFF }
  let s := s.each (s.mch.conns.filter fun e => decide (txPort e.2.srcKind = some p)) fun s e => s.closeByReset e.1
  let s := s.each (s.mch.queues.filter fun e => decide (rxPort e.2.kind = some p)) fun s e => s.unbindQueue e.1
  s.when (decide (s.top.owner = p.owner)) (·.setOwner .none)

/-- PERST (R504; 18 R767). -/
def execPerst (port : HostPort) (how : PortReset) (s : State) : Host.Outcome State Fault Refusal :=
  let s := if how = .perst then s.updPcie port fun r => { r with perstN := false } else s
  .next (s.portReset port)

/-- PERST_DEASSERT: the port starts to train (18 R771). -/
def execPerstDeassert (port : HostPort) (s : State) : Host.Outcome State Fault Refusal :=
  .next (s.updPcie port fun r => { r with perstN := true })

/-- PCIE_LINK_UP: the negotiated link; a port whose PERST_x_N is low does not train (09 R475, R515; 18 R771). -/
def execPcieLinkUp (port : HostPort) (width speed : BitVec 4) (flit : Bool) (mps : BitVec 3) (s : State) :
    Host.Outcome State Fault Refusal :=
  if (s.pcieOf port).perstN then
    .next (s.updPcie port fun r => { r with up := true, width := width, speed := speed, flit := flit, mps := mps })
  else .next s

/-- PCIE_CONFIG_WRITE: a BAR2 size from 64 GiB to 1 TiB, or the maximum payload size up to 4,096 B (R475, R480). -/
def execPcieConfigWrite (port : HostPort) (w : PcieCfg) (s : State) : Host.Outcome State Fault Refusal :=
  match w with
  | .resizeBar2 n => .next (s.updPcie port fun r => { r with bar2Log := if 36 ≤ n ∧ n ≤ 40 then n else r.bar2Log })
  | .maxPayload m => .next (s.updPcie port fun r => { r with mps := if m.toNat ≤ 5 then m else r.mps })

/-- ATTENTION_PULSE: the pulse that is due, where the pin is ready; vector 513 was signalled with the cause (R506,
R507). -/
def execAttentionPulse (port : HostPort) (s : State) : Host.Outcome State Fault Refusal :=
  if (s.top.pin.get port).pulseDue ∧ s.busyPin = false then
    .next ((s.emit (.pulse port)).modTop fun t => { t with pin := t.pin.set port { pulseDue := false } })
  else .next s

end Sys2Proof.Machine
end

