-- ==== Sys2Proof/Machine/Fret.lean ====
section
/-! DEFINITION. The fret time base: alignment, beacons, flights, stretch, clock changes, the seam, abort messages (04). -/

namespace Sys2Proof.Machine

/-- Compute cycles of a fret at the present stretch (04 R176). -/
def State.fretCycles (s : State) : Nat := 32 + s.fret.stretch.toNat

/-- A value of e as FRET_TRIM.err holds it (04 R229). -/
def satErr (e : Int) : BitVec 8 := BitVec.ofInt 8 (max (-128) (min 127 e))

/-- The state becomes MEMBER, with the East counter at the West's value (R179; that West's is the one kept is a DESIGN CHOICE, log
entry 61): a pending clock change ends (13 R660). -/
def State.toMember (s : State) : State :=
  let done := s.clk.pending && s.fret.changeAt.isNone
  let s := s.modFret fun r => { r with state := .member, good := 0, fromChange := false, east := r.west }
  s.when done fun s => s.modClk fun c => { c with pending := false, changeAt := 0 }

/-- The state becomes TRACK with the count of 16 restarted (04 R193). -/
def State.toTrack (s : State) : State :=
  s.modFret fun r => { r with state := .track, good := 0, fromChange := false }

/-- MEMBER or HOLDOVER is left for TRACK: align_lost, and running tasks abort (04 R193). -/
def State.loseAlign (s : State) : State :=
  ((s.toTrack).fretFlag .alignLost).abortRunning .slip

/-- Compute cycles from the start of fret `f` to the start of fret `g`, by the stretch in effect in each fret between: `st` now, and
before each change of `cs`, newest first, the stretch it names (R176, R206). -/
def cyclesTo (f : Nat) : List (U64 × BitVec 6) → Nat → Nat → Nat
  | [], g, st => (g - f) * (32 + st)
  | (eff, old) :: cs, g, st =>
    if eff.toNat ≤ f then (g - f) * (32 + st)
    else if g ≤ eff.toNat then cyclesTo f cs g old.toNat
    else (g - eff.toNat) * (32 + st) + cyclesTo f cs eff.toNat old.toNat

/-- Compute cycles between two frets, negative where `f` is the later (R189). -/
def State.cyclesFrom (s : State) (f g : Nat) : Int :=
  if f ≤ g then (cyclesTo f s.fret.changes g s.fret.stretch.toNat : Int) else -(((f - g) * s.fretCycles : Nat) : Int)

/-- The fret that `c` compute cycles after the start of fret `f` reach, by the changes oldest first, each with the stretch from it on
(R176, R206). -/
def fretAfter (f c st : Nat) : List (Nat × Nat) → Nat
  | [] => f + c / (32 + st)
  | (eff, new) :: cs =>
    if eff ≤ f then fretAfter f c new cs
    else if c < (eff - f) * (32 + st) then f + c / (32 + st)
    else fretAfter eff (c - (eff - f) * (32 + st)) new cs

/-- The changes oldest first, with the stretch that each brought, and the stretch before them all. -/
def State.stretches (s : State) : Nat × List (Nat × Nat) :=
  s.fret.changes.foldl (fun x c => (c.2.toNat, (c.1.toNat, x.1) :: x.2)) (s.fret.stretch.toNat, [])

/-- Both counters loaded so that e is 0: the parent's fret at the moment of arrival (04 R193). -/
def State.reload (s : State) (b : Beacon) (flight : Nat) : State :=
  let t := fretAfter b.fret.toNat (b.cycle + flight) s.stretches.1 s.stretches.2
  s.modFret fun r => { r with west := BitVec.ofNat 64 t, east := BitVec.ofNat 64 t }

/-- The trim moves within ±20,000 steps; the loop's law is not stated, so the value is free (04 R190, R229). -/
def State.retrim (s : State) : State :=
  let v := s.freeVal.1.toNat % 40001
  s.freeVal.2.modFret fun r => { r with trim := BitVec.ofInt 16 ((v : Int) - 20000) }

/-- The error e of a beacon in compute cycles, where it arrives `cycle` cycles into fret `at` of a half's counter (04 R189). -/
def State.beaconErr (s : State) (b : Beacon) (fret cycle flight : Nat) : Int :=
  s.cyclesFrom b.fret.toNat fret + cycle - b.cycle - flight

/-- What a judged beacon does to the alignment state: `e` by the West counter, `east` by the East's (04 R193). -/
def State.judge (s : State) (b : Beacon) (flight : Nat) (e east : Int) : State :=
  let a := e.natAbs
  let r := s.fret
  match r.state with
  | .free => (s.reload b flight).toTrack.retrim
  | .track =>
    if 16 < a then (s.reload b flight).modFret (fun r => { r with good := 0 }) |>.retrim
    else if 2 < a then (s.modFret fun r => { r with good := 0 }).retrim
    else if r.good + 1 < 16 then (s.modFret fun r => { r with good := r.good + 1 }).retrim
    else if r.fromChange then s.toMember.retrim
    else (s.modFret fun r => { r with state := .aligned, good := 0 }).retrim
  | .aligned =>
    if 2 < a then (s.toTrack.when (decide (16 < a)) (·.reload b flight)).retrim else s.retrim
  | .member =>
    if 2 < a then (s.loseAlign.when (decide (16 < a)) (·.reload b flight)).retrim else s.retrim
  | .holdover =>
    if 2 < a then (s.loseAlign.when (decide (16 < a)) (·.reload b flight)).retrim else s.toMember.retrim
  | .split =>
    if 16 < a ∧ 16 < east.natAbs then s.toTrack else s
  | .unlocked | .change => s

/-- BEACON_RECEIVE: a beacon of this domain on the parent port of a chip that is not the root, `cycle` cycles into West's present fret
and `eastCycle` into East's (04 R189 to R193). -/
def execBeaconReceive (port : FabPort) (b : Beacon) (cycle : Cycles) (s : State) : Host.Outcome State Fault Refusal :=
  if s.parentPort ≠ some port ∨ b.domain ≠ s.fret.domain then .next s
  else
    let flight := (s.flightReg port).flight.toNat
    let s := s.modFret fun r => { r with sinceBeacon := 0 }
    if s.fret.state = .unlocked ∨ s.fret.state = .change then .next s
    else
      let e := s.beaconErr b s.now cycle.west flight
      let east := s.beaconErr b s.fret.east.toNat cycle.east flight
      let s := s.modFret fun r =>
        { r with err := satErr e, maxErr := BitVec.ofNat 8 (max r.maxErr.toNat (min e.natAbs 255)) }
      .next (s.judge b flight e east)

/-- BEACON_SEND: in ALIGNED, MEMBER or HOLDOVER, at a fret whose bits [9:0] are zero, one beacon on each child port
(04 R188). -/
def execBeaconSend (s : State) : Host.Outcome State Fault Refusal :=
  let r := s.fret
  if (r.state = .aligned ∨ r.state = .member ∨ r.state = .holdover) ∧ s.now % 1024 = 0 then
    .next (s.each s.childPorts fun s p => s.emit (.beacon p ⟨r.west, r.domain, 0⟩))
  else .next s

/-- BEACON_TIMEOUT: no beacon for 8,192 frets (04 R193). The root in MEMBER follows no parent and waits for none (R189; DEDUCED, log
entry 61). -/
def execBeaconTimeout (s : State) : Host.Outcome State Fault Refusal :=
  if s.fret.sinceBeacon < 8192 then .next s
  else match s.fret.state with
    | .track | .aligned => .next ((s.fretFlag .beaconLost).modFret fun r => { r with state := .free, good := 0 })
    | .member =>
      if s.fret.root then .next s else .next ((s.fretFlag .beaconLost).modFret fun r => { r with state := .holdover })
    | _ => .next s

/-- HOLDOVER_TIMEOUT: 2^20 frets without a beacon (04 R193). -/
def execHoldoverTimeout (s : State) : Host.Outcome State Fault Refusal :=
  if s.fret.state = .holdover ∧ 2 ^ 20 ≤ s.fret.sinceBeacon then
    .next ((s.modFret fun r => { r with state := .free, good := 0 }).abortRunning .slip)
  else .next s

/-- EPOCH_FRET: at a fret whose bits [19:0] are zero an ALIGNED chip becomes MEMBER (04 R192). -/
def execEpochFret (s : State) : Host.Outcome State Fault Refusal :=
  if s.fret.state = .aligned ∧ s.now % 2 ^ 20 = 0 then .next s.toMember else .next s

/-- A write of FRET_DOMAIN: the fields, then the domain and root events of R193 and R194. -/
def State.writeFretDomain (s : State) (v : Word) : State :=
  let r := s.fret
  let root := bit v 31
  let parent : BitVec 5 := v.extractLsb' 24 5
  let domain : BitVec 8 := v.extractLsb' 16 8
  let newDomain := decide (domain ≠ r.domain) && decide (r.state ≠ .unlocked)
  let s := s.modFret fun r =>
    { r with
      root := root, parent := parent, domain := domain, chip := v.extractLsb' 0 10
      sinceBeacon := if parent = r.parent then r.sinceBeacon else 0 }
  let s := s.when newDomain fun s =>
    (s.modFret fun r => { r with state := .free, good := 0, fromChange := false, frozen := false }).abortRunning .slip
  s.when (root && decide (s.fret.state = .free)) (·.toMember)

/-- PLL_LOCK_LOST: UNLOCKED from any state, and running tasks abort (04 R193; 18 R765). -/
def execPllLockLost (h : Half) (s : State) : Host.Outcome State Fault Refusal :=
  let n := match h with | .west => 0 | .east => 1
  let s := s.modClk fun c => { c with lock := putBit c.lock n false }
  .next ((s.modFret fun r => { r with state := .unlocked, good := 0, fromChange := false }).abortRunning .slip)

/-- The clock a member relocks at: the announced value, or its grade clock where that is lower (13 R641). -/
def State.changeTarget (s : State) : Nat := min s.fret.changeMhz.toNat s.fuse.grade.mhz

/-- Both compute PLLs show locked. -/
def lockBoth (c : ClkSt) : ClkSt := { c with lock := c.lock ||| 3 }

/-- PLL_RELOCK: in CHANGE, both at the new frequency: the root returns to MEMBER, another chip goes to TRACK (04 R193);
after a loss of lock, both halves locked to TREF: FREE, counters and stretch 0. No compute clock is above the grade's (00 R2). -/
def execPllRelock (west east : BitVec 16) (s : State) : Host.Outcome State Fault Refusal :=
  match s.fret.state with
  | .change =>
    if west.toNat = s.changeTarget ∧ east.toNat = s.changeTarget then
      let s := s.modClk fun c => { lockBoth c with west := west, east := east, domainMhz := west }
      let s := s.modFret fun r => { r with frozen := false }
      if s.fret.root then .next s.toMember
      else .next (s.toTrack.modFret fun r => { r with fromChange := decide (s.changeTarget = s.fret.changeMhz.toNat) })
    else .next s
  | .unlocked =>
    if s.passed 2 ∧ west.toNat ≤ s.fuse.grade.mhz ∧ east.toNat ≤ s.fuse.grade.mhz then
      let s := s.modClk fun c => { lockBoth c with west := west, east := east }
      .next (s.modFret fun r => { r with state := .free, west := 0, east := 0, stretch := 0, frozen := false, good := 0 })
    else .next s
  | _ => .next s

/-- What R215 waits for: the stretch that the governor has requested, after the changes announced before it; nothing where that stretch
is in effect already (log entry 61). -/
def State.clampStretch (s : State) : Option (BitVec 6 × Nat) :=
  let req := s.pwr.req
  match s.fret.pending.getLast? with
  | none => if req.toNat ≤ s.fret.stretch.toNat then none else some (req, 0)
  | some last => some (req, if req.toNat ≤ last.1.toNat then s.fret.pending.length - 1 else s.fret.pending.length)

/-- SEAM_SPLIT: SPLIT, seam_split, and every running task slips with kind 0x5 (04 R213, R215). -/
def execSeamSplit (s : State) : Host.Outcome State Fault Refusal :=
  if s.fret.state = .member ∨ s.fret.state = .holdover then
    let s := s.modFret fun r => { r with state := .split, clampWait := if s.clk.divW ∨ s.clk.divE then s.clampStretch else r.clampWait }
    let s := s.fretFlag .seamSplit
    .next (s.each s.running fun s n => s.slip n 5 0)
  else .next s

/-- SEAM_RESYNC: with both halves at the domain clock, the lagging counter is loaded from the other (04 R216). -/
def execSeamResync (s : State) : Host.Outcome State Fault Refusal :=
  if s.fret.state = .split ∧ s.clk.divW = false ∧ s.clk.divE = false ∧ s.fret.splitClock = false then
    let c := if s.fret.west.toNat < s.fret.east.toNat then s.fret.east else s.fret.west
    .next (s.modFret fun r => { r with west := c, east := c }).toMember
  else .next s

/-- A write of FRET_FLIGHTn with remeasure 1 (04 R195, R233). -/
def State.writeFlight (s : State) (p : Fin 17) (v : Word) : State :=
  s.when (bit v 31) fun s => (s.updFlight p fun g => { g with remeasure := true }).measureFlights

/-- Twice the flight that one exchange yields, in compute cycles (04 R195). -/
def exchangeTwice (x : Exchange) : Nat := (x.t4 - x.t1) - (x.t3 - x.t2)

/-- The flight of a link: the largest of its results, rounded up (04 R196). -/
def flightOf (xs : List Exchange) : Nat := ceilDiv (xs.foldl (fun m x => max m (exchangeTwice x)) 0) 2

/-- A measured flight and its crossing allowance ceil(flight ÷ 32) + 2 (04 R196). -/
def State.loadFlight (s : State) (p : Nat) (xs : List Exchange) : State :=
  let f := flightOf xs
  s.updFlight p fun g =>
    { g with measuring := false, valid := true, allow := satOfNat 11 (ceilDiv f 32 + 2), flight := satOfNat 16 f }

/-- FLIGHT_MEASURE_DONE: the 256 exchanges of a link under a requested remeasurement (04 R195, R196). -/
def execFlightMeasureDone (port : FabPort) (xs : List Exchange) (s : State) : Host.Outcome State Fault Refusal :=
  if (s.flightReg port).measuring ∧ xs.length = 256 then .next ((s.loadFlight port xs).endMeasure)
  else .next s

/-- A stretch request goes up the beacon tree; the root holds each member's (04 R204, R205). -/
def State.sendRequest (s : State) (chip : BitVec 10) (req : BitVec 6) : State :=
  if s.fret.root then s.modFret fun r => { r with requests := Tab.put r.requests chip.toNat req.toNat }
  else match s.parentPort with
    | some p => s.emit (.stretchReq p chip req)
    | none => s

/-- STRETCH_REQUEST_RECEIVE (04 R204, R205). -/
def execStretchRequestReceive (chip : BitVec 10) (req : BitVec 6) (s : State) : Host.Outcome State Fault Refusal :=
  .next (s.sendRequest chip req)

/-- The domain stretch: the largest of the most recent requests (04 R204). -/
def State.wanted (s : State) : Nat := s.fret.requests.foldl (fun m e => max m e.2) 0

/-- An announcement kept until its effective fret, in order of effective frets (04 R207). -/
def insertPending (x : BitVec 6 × U64) : List (BitVec 6 × U64) → List (BitVec 6 × U64)
  | [] => [x]
  | y :: ys => if x.2.toNat < y.2.toNat then x :: y :: ys else y :: insertPending x ys

/-- Forward an announcement to every child (04 R205). -/
def State.forwardAnnounce (s : State) (a : Announce) : State := s.each s.childPorts fun s p => s.emit (.announce p a)

/-- STRETCH_ANNOUNCE: the root announces a changed domain stretch, at least 4,096 frets ahead, after every pending one;
a change that would be a fifth pending one waits (04 R204 to R207). -/
def execStretchAnnounce (eff : U64) (s : State) : Host.Outcome State Fault Refusal :=
  let r := s.fret
  let target := (r.pending.getLast?.map (·.1.toNat)).getD r.stretch.toNat
  let lastEff := (r.pending.getLast?.map (·.2.toNat)).getD 0
  if r.root = false ∨ s.wanted = target then .next s
  else if 4 ≤ r.pending.length then .next (s.modFret fun r => { r with waitingReq := some (BitVec.ofNat 6 s.wanted) })
  else if eff.toNat < s.now + 4096 ∨ (r.pending ≠ [] ∧ eff.toNat ≤ lastEff) then .next s
  else
    let v := BitVec.ofNat 6 s.wanted
    let s := s.modFret fun r => { r with pending := insertPending (v, eff) r.pending, waitingReq := none }
    .next (s.forwardAnnounce (.stretch v eff))

/-- STRETCH_ANNOUNCE_RECEIVE: forwarded; pending until its fret, or late (04 R205, R208); a clock change is carried the
same way (R210). -/
def execStretchAnnounceReceive (a : Announce) (s : State) : Host.Outcome State Fault Refusal :=
  let s := s.forwardAnnounce a
  match a with
  | .stretch v eff =>
    if s.now < eff.toNat then .next (s.modFret fun r => { r with pending := insertPending (v, eff) r.pending })
    else
      let out := decide (s.fret.state = .member ∨ s.fret.state = .holdover)
      let s := (s.fretFlag .stretchLate).when out (·.loseAlign)
      .next (s.modFret fun r => { r with pending := insertPending (v, r.west + 1) r.pending })
  | .clock mhz fc =>
    let s := s.modFret fun r => { r with changeAt := some fc, changeMhz := mhz }
    .next (s.modClk fun c => { c with pending := true, changeAt := fc })

/-- The head of a telemetry report (16 R733). -/
def State.reportHead (s : State) (kind fret : Nat) (number : BitVec 32) : List Byte :=
  [BitVec.ofNat 8 kind, 1] ++ leBytes 2 s.fret.chip.toNat ++ leBytes 8 fret ++ leBytes 4 number.toNat

/-- A report replaces an unsent one of its kind, which counts as skipped (16 R731). -/
def State.putReport (s : State) (kind : Nat) (body : List Byte) : State :=
  let s := s.when (Tab.find s.tel.unsent kind).isSome fun s => s.modTel fun t => { t with skipped := satAdd t.skipped 1 }
  s.modTel fun t => { t with unsent := Tab.put t.unsent kind body }

/-- The STRETCH report of an applied change (16 R733). -/
def State.stretchReport (s : State) (eff : U64) (old new : BitVec 6) : State :=
  s.when (s.tel.enable && bit s.tel.kinds 4) fun s =>
    s.putReport 5 (s.reportHead 5 eff.toNat s.tel.number ++ leBytes 8 eff.toNat
      ++ [old.setWidth 8, new.setWidth 8, s.pwr.req.setWidth 8, s.pwr.reason.setWidth 8] ++ leBytes 4 0)

/-- STRETCH_APPLY: at its effective fret the earliest pending change takes effect; the last 64 are kept (04 R206;
16 R733, R734). -/
def execStretchApply (s : State) : Host.Outcome State Fault Refusal :=
  match s.fret.pending with
  | [] => .next s
  | (v, eff) :: rest =>
    if s.now < eff.toNat then .next s
    else
      let old := s.fret.stretch
      let s := s.modFret fun r =>
        { r with
          stretch := v, pending := rest, changes := ((eff, old) :: r.changes).take 64
          clampWait := match r.clampWait with
            | some (q, n + 1) => some (q, n)
            | some (q, 0) => if q.toNat ≤ v.toNat then none else some (q, 0)
            | none => none }
      let s := s.modTel fun t => { t with strh := ((eff, old, v) :: t.strh).take 64 }
      .next (s.stretchReport eff old v)

/-- A compute clock of R640: 1,000 MHz to the grade clock in steps of 100 MHz. -/
def State.clockOk (s : State) (mhz : Nat) : Bool :=
  decide (1000 ≤ mhz) && decide (mhz ≤ s.fuse.grade.mhz) && decide (mhz % 100 = 0)

/-- A write of CLK_CHANGE: err is W1C; without go it sets mhz; with go the root announces a change 8,192 frets ahead, and
otherwise the write has no effect but err (13 R640, R660). -/
def State.writeClkChange (s : State) (v : Word) : State :=
  let mhz : BitVec 16 := v.extractLsb' 0 16
  let s := s.when (bit v 29) fun s => s.modClk fun c => { c with err := false }
  if !bit v 31 then s.modClk fun c => { c with mhz := mhz }
  else if s.fret.root = false ∨ s.clockOk mhz.toNat = false ∨ s.clk.pending then s.modClk fun c => { c with err := true }
  else
    let fc := s.fret.west + 8192
    let s := s.modClk fun c => { c with mhz := mhz, pending := true, changeAt := fc }
    let s := s.modFret fun r => { r with changeAt := some fc, changeMhz := mhz }
    s.forwardAnnounce (.clock mhz fc)

/-- CLOCK_CHANGE_FRET: at F_c a member enters CHANGE and freezes its counters (04 R193, R212). -/
def execClockChangeFret (s : State) : Host.Outcome State Fault Refusal :=
  match s.fret.changeAt with
  | none => .next s
  | some fc =>
    if s.fret.state = .member ∧ fc.toNat ≤ s.now then
      let s := s.modClk fun c => { c with lock := c.lock &&& 0xFC }
      .next (s.modFret fun r => { r with state := .change, frozen := true, changeAt := none })
    else .next s

/-- A write of CLK_HALF: op set changes one half's clock between tasks and enters SPLIT; op restore returns the half to
the domain clock; another write of the register's op has no effect (13 R641, R660). -/
def State.writeClkHalf (s : State) (v : Word) : State :=
  let s := s.when (bit v 28) fun s => s.modClk fun c => { c with halfErr := false }
  let east := bit v 29
  let mhz : BitVec 16 := v.extractLsb' 0 16
  let fail := s.modClk fun c => { c with halfErr := true }
  match (v.extractLsb' 30 2).toNat with
  | 1 =>
    if s.anyTask ∨ s.clockOk mhz.toNat = false ∨ s.fret.state = .unlocked ∨ s.fret.state = .change then fail
    else
      let s := s.modClk fun c => if east then { c with east := mhz } else { c with west := mhz }
      s.modFret fun r => { r with splitClock := true, state := .split }
  | 2 =>
    if s.fret.splitClock = false then fail
    else
      let s := s.modClk fun c => if east then { c with east := c.domainMhz } else { c with west := c.domainMhz }
      s.modFret fun r => { r with splitClock := decide (s.clk.west ≠ s.clk.east) }
  | _ => s

/-- A task of a loaded schedule. -/
def State.listed (s : State) (n : BitVec 32) : Bool := s.scheds.any fun e => e.2.image.tasks.any fun c => decide (c.number = n)

/-- An abort of a task that is not armed here now is kept until the task is armed (R218, R219; log entry 61). -/
def State.keepEarly (s : State) (n : BitVec 32) (a : AbortSt) : State :=
  s.when (s.listed n) fun s => s.modFret fun r => { r with early := Tab.upd [] r.early n.toNat (· ++ [a]) }

/-- ABORT_MESSAGE_RECEIVE: forwarded along the tree, kept under R220; after its abort fret it is late, and a task already
committed here writes a fatal record (04 R217 to R222). For a task that stopped, a fret later than any that its last attempt can have
is of its retry (R217, R221; 10 R538). -/
def execAbortMessageReceive (src : FabPort) (m : AbortMsg) (s : State) : Host.Outcome State Fault Refusal :=
  let s := s.each (s.treePorts.filter (· ≠ src)) fun s p => s.emit (.abort p m)
  let late := decide (m.fret < s.now)
  let a : AbortSt := ⟨m.fret, m.chip, m.status, s.now⟩
  let s := s.when late (·.fretFlag .abortLate)
  match Tab.find s.tasks m.task.toNat with
  | none => .next (s.keepEarly m.task a)
  | some t =>
    match t.phase with
    | .waiting => .next (s.keepEarly m.task a)
    | .stopped =>
      .next (s.when (t.abort.any fun x => decide (x.fret + s.fret.horizon.toNat < m.fret)) (·.keepEarly m.task a))
    | .committed =>
      .next (s.when late fun s =>
        s.record .abortLate [fretRead (chestSel 0) s 0x024, fretRead (chestSel 0) s 0x028])
    | _ => .next (s.updTask m.task fun t => { t with recvd := true, aborts := t.aborts ++ [a] })

end Sys2Proof.Machine
end

