-- ==== Sys2Proof/Machine/Chest.lean ====
section
/-! DEFINITION. Placing Chest records, flash copies, and telemetry reports (16). -/

namespace Sys2Proof.Machine

/-! ## Records -/

/-- The length of a record: a multiple of 8 bytes (16 R713). -/
def ChestRec.size (r : ChestRec) : Nat := ceilDiv (20 + 4 * r.data.length + 8 * r.offs.length) 8 * 8

/-- A record's bytes with the snapshots read (16 R713 to R715, R720). -/
def ChestRec.bytes (r : ChestRec) (snaps : List (Nat × Word)) (seq : BitVec 32) (epoch : BitVec 16) : List Byte :=
  let head := leBytes 4 seq.toNat ++ leBytes 2 epoch.toNat
    ++ [BitVec.ofNat 8 r.trigger, BitVec.ofNat 8 (r.fatal.toNat + 2 * r.cut.isSome.toNat + 4 * r.east.toNat)] ++ leBytes 2 r.size
    ++ [BitVec.ofNat 8 (4 * r.data.length), BitVec.ofNat 8 r.offs.length] ++ leBytes 4 0
  let body := r.data.flatMap (fun w => leBytes 4 w.toNat)
    ++ snaps.flatMap fun x => leBytes 4 x.1 ++ leBytes 4 x.2.toNat
  let pad := List.replicate (r.size - (20 + 4 * r.data.length + 8 * r.offs.length)) (0 : Byte)
  let all := head ++ body ++ pad
  all ++ leBytes 4 (crc32c all).toNat

/-- The Circle holds 256 KiB (16 R723). -/
def circleSize : Nat := 0x40000

/-- The oldest whole records leave until `need` bytes fit; the fuel is the number of records (16 R723). -/
def ChestSt.makeRoom : Nat → ChestSt → Nat → ChestSt
  | 0, c, _ => c
  | k + 1, c, need =>
    match c.lens with
    | [] => c
    | l :: ls =>
      if c.lens.foldl (· + ·) 0 + need ≤ circleSize then c
      else ChestSt.makeRoom k { c with lens := ls, old := c.old + 1, oldPos := (c.oldPos + l) % circleSize } need

/-- A record placed in the Keep area where it fits, and in the Circle (16 R722, R723). -/
def ChestSt.place (c : ChestSt) (r : ChestRec) (snaps : List (Nat × Word)) : ChestSt :=
  let bs := r.bytes snaps c.next c.epoch
  let fits := !c.closed && decide (c.keepLen + bs.length ≤ 0x10000)
  let c := ChestSt.makeRoom c.lens.length c bs.length
  let first := circleSize - c.pos
  { c with
    keep := if fits then Mem.writeZ c.keep c.keepLen bs else c.keep
    keepLen := if fits then c.keepLen + bs.length else c.keepLen
    closed := c.closed || !fits
    circle := Mem.writeZ (Mem.writeZ c.circle c.pos (bs.take first)) 0 (bs.drop first)
    lens := c.lens ++ [bs.length]
    pos := (c.pos + bs.length) % circleSize
    next := c.next + 1 }

/-- The oldest record of a half in the intake buffer has its entries read and is placed; a fatal one raises attention and asks for a copy
(16 R717, R718, R720, R721). -/
def State.placeOne (s : State) (east : Bool) : State :=
  match s.chest.intake.find? (·.east == east) with
  | none => s
  | some r =>
    let snaps := s.snaps r
    let s := s.modChest fun c => ({ c with intake := c.intake.eraseP (·.east == east) }).place r snaps
    s.when r.fatal fun s => (s.attn .fatal).copyRequest 2

/-- Every record of the intake buffer placed, in its order; the fuel is their number. -/
def State.placeAll : Nat → State → State
  | 0, s => s
  | k + 1, s => State.placeAll k (s.placeOne ((s.chest.intake.head?.map (·.east)).getD false))

/-- The half whose record completes next: of two halves with records a free value says which, for their records are placed in the order
in which they complete (16 R721; log entry 66). -/
def State.nextHalf (s : State) : Bool × State :=
  if s.chest.intake.any (!·.east) && s.chest.intake.any (·.east) then ((s.freeVal).1.getLsbD 0, (s.freeVal).2)
  else (s.chest.intake.any (·.east), s)

/-- CHEST_RECORD_PLACE: the next record that is complete is placed; records of one half keep the order of their events, and all wait until
BU0 has restored the Keep area (16 R721, R724). -/
def execChestRecordPlace (s : State) : Host.Outcome State Fault Refusal :=
  if s.passed 0 then .next (s.nextHalf.2.placeOne s.nextHalf.1) else .next s

/-- CHEST_COPY_START: a copy is requested for one of the four reasons of R725. -/
def execChestCopyStart (reason : BitVec 8) (s : State) : Host.Outcome State Fault Refusal :=
  if 1 ≤ reason.toNat ∧ reason.toNat ≤ 4 then .next (s.copyRequest reason) else .next s

/-- The running copy completes: its slot is valid, and a marked copy starts (16 R725, R726). -/
def State.finishCopy (s : State) : State :=
  match s.chest.copying with
  | none => s
  | some (reason, slot) =>
    let s := s.modFlash fun f => { f with chest := listUpd f.chest slot fun x => { x with valid := true } }
    let s := s.modChest fun c =>
      { c with copying := none, reason := reason, slot := BitVec.ofNat 2 slot, count := satAdd c.count 1 }
    match s.chest.marked with
    | some r => (s.modChest fun c => { c with marked := none }).startCopy r
    | none => s

/-- The newest valid copy for this part (16 R724, R726). -/
def State.newestCopy (s : State) : Option ChestSlot :=
  (s.flash.chest.filter fun x => x.valid && x.serial == s.fuse.serial).foldl
    (fun m x => match m with
      | some y => if y.gen < x.gen then some x else m
      | none => some x) none

/-- BU0 after a POR: the Keep area and the epoch from the newest valid copy, then the POWER_ON record (16 R716, R724). -/
def State.restoreChest (s : State) : State :=
  let x := s.newestCopy
  let s := s.modChest fun c => match x with
    | some y => { c with keep := y.keep, keepLen := y.keepLen, closed := y.closed, epoch := y.epoch + 1 }
    | none => { c with epoch := 0 }
  s.record .powerOn [rstcRead s 0x000, match x with | some y => BitVec.ofNat 32 y.gen | none => 0xFFFFFFFF]

/-- The areas a CHEST_CLEAR names: bit 0 Keep, bit 1 Circle (16 R729). -/
def State.clearChest (s : State) (areas : BitVec 8) (slot : Word) : State :=
  let s := s.modChest fun c =>
    let c := if bit areas 0 then { c with keep := [], keepLen := 0, closed := false } else c
    let c := if bit areas 1 then { c with old := c.next, oldPos := c.pos, lens := [] } else c
    { c with clears := c.clears + 1 }
  let s := s.record .clear [(areas &&& 3).setWidth 32, slot]
  s.when (bit areas 0) (·.copyRequest 3)

/-! ## Telemetry (R730 to R734) -/

/-- CHEST_TEL_CFG.exp in effect: values outside 16 to 30 act as 20 (16 R735). -/
def State.telExp (s : State) : Nat :=
  let e := s.tel.exp.toNat
  if 16 ≤ e ∧ e ≤ 30 then e else 20

/-- Tiles of a role on the chip. -/
def State.roleCount (s : State) (r : Role) : Nat := ((List.range 2304).filter fun pt => decide ((s.role pt).role = r)).length

/-- Bytes 16 to 127 of a HEALTH report (16 R733). -/
def State.healthBody (s : State) : List Byte :=
  let c := s.tel.cnt
  let lost := ((List.range 128).map fun k => (s.lostSlots k).length).foldl (· + ·) 0
  let notRun := (List.range 16).foldl (fun m p => if s.partMode p = .run then m else m + 2 ^ p) 0
  [s.fret.stretch.setWidth 8, s.pwr.req.setWidth 8, s.pwr.reason.setWidth 8, 0]
    ++ leBytes 8 s.tel.strPor.toNat ++ leBytes 4 c.committed.toNat ++ leBytes 4 c.aborted.toNat
    ++ leBytes 4 c.late.toNat ++ leBytes 4 c.moved.toNat ++ leBytes 2 c.slack ++ leBytes 2 c.underruns
    ++ leBytes 2 (s.roleCount .bench) ++ leBytes 2 (s.roleCount .fenced)
    ++ [BitVec.ofNat 8 (min lost 255), BitVec.ofNat 8 s.relx.retState.code]
    ++ leBytes 2 notRun ++ leBytes 2 s.pwr.parked.toNat
    ++ [BitVec.ofNat 8 s.healx.twin.code, BitVec.ofNat 8 s.fret.state.code] ++ leBytes 4 s.ageMax.2
    ++ leBytes 2 s.pwr.mean.toNat
    ++ [if s.gov.dieE.toNat < s.gov.dieW.toNat then s.gov.dieW else s.gov.dieE, s.gov.stack]
    ++ leBytes 4 c.risk ++ List.replicate 56 0

/-- The edge input of a cluster with the largest ratio of sample to declared depth: logical tile, fold × 8 + input,
sample, depth; the lowest of equals (16 R733). -/
def State.worstQueue (s : State) (c : Nat) : Option (Nat × Nat × Nat × Nat) :=
  let all := (List.range 16).flatMap fun k =>
    let lt := 16 * c + k
    let t := s.tile (s.ptOf lt)
    match t.cur with
    | none => []
    | some b => b.cfg.folds.zipIdx.flatMap fun f =>
      f.1.inputs.zipIdx.filterMap fun i => i.1.edge.map fun e =>
        (lt, f.2 * 8 + i.2, (Tab.get (0, 0) t.qs (f.2 * 8 + i.2)).2.toNat, e.depth)
  all.foldl (fun m x => match m with
    | some y => if y.2.2.1 * x.2.2.2 < x.2.2.1 * y.2.2.2 then some x else m
    | none => some x) none

/-- Bytes 16 on of a QUEUES report. -/
def State.queuesBody (s : State) : List Byte :=
  (List.range 128).flatMap fun c =>
    match s.worstQueue c with
    | some x => leBytes 2 x.1 ++ [BitVec.ofNat 8 x.2.1, 0] ++ leBytes 2 x.2.2.1 ++ leBytes 2 x.2.2.2
    | none => leBytes 2 0xFFFF ++ leBytes 6 0

/-- Bytes 16 on of a LEAD report. -/
def State.leadBody (s : State) : List Byte :=
  (List.range 128).flatMap fun c =>
    let l := Tab.get {} s.tel.cnt.clus c
    leBytes 2 l.slack ++ leBytes 2 l.fill ++ [BitVec.ofNat 8 l.ctx, BitVec.ofNat 8 (min l.under 255)] ++ leBytes 2 0

/-- Bytes 16 on of a LINKS report. -/
def State.linksBody (s : State) : List Byte :=
  (List.range 17).flatMap fun p =>
    let l := Tab.get {} s.tel.cnt.links p
    [BitVec.ofNat 8 (s.fab p).state.code, 0] ++ leBytes 2 l.replays.toNat ++ leBytes 2 l.retries.toNat ++ leBytes 2 0
      ++ leBytes 8 l.tx.toNat ++ leBytes 8 l.rx.toNat ++ leBytes 4 l.stall.toNat ++ leBytes 2 (min l.occ 0xFFFF) ++ leBytes 2 0

/-- The counts of a new interval: what a release-time queue holds is its largest occupancy so far (R732). -/
def State.newCounts (s : State) : TelCount :=
  { links := (List.range 17).filterMap fun p =>
      let n := s.occupancy (fabHeld p)
      if n = 0 then none else some (p, { occ := n }) }

/-- TELEMETRY_REPORT: at the end of a report fret, each enabled periodic kind; the interval's counts start again
(16 R730 to R733). -/
def execTelemetryReport (s : State) : Host.Outcome State Fault Refusal :=
  if !s.tel.enable ∨ s.now % 2 ^ s.telExp ≠ 0 then .next s
  else
    let put := fun (s : State) (kind : Nat) (body : List Byte) =>
      s.when (bit s.tel.kinds (kind - 1)) fun s => s.putReport kind (s.reportHead kind s.now s.tel.number ++ body)
    let s1 := put s 1 s.healthBody
    let s2 := put s1 2 s.queuesBody
    let s3 := put s2 3 s.leadBody
    let s4 := put s3 4 s.linksBody
    .next (s4.modTel fun t => { t with number := t.number + 1, cnt := s.newCounts })

/-- TELEMETRY_SEND: the unsent reports as messages of the MC on a connection open in NAK mode, else skipped (16 R730). -/
def execTelemetrySend (s : State) : Host.Outcome State Fault Refusal :=
  let n := s.tel.conn.toNat
  let c := s.conn n
  let go := decide (c.srcKind = 3) && decide (c.state = .opened) && c.nak
  let k := s.tel.unsent.length
  let s' := if go then s.each s.tel.unsent fun s r => s.mcSend n r.2 else s
  .next (s'.modTel fun t =>
    { t with
      unsent := []
      sent := if go then t.sent + BitVec.ofNat 16 k else t.sent
      skipped := if go then t.skipped else satAdd t.skipped k })

end Sys2Proof.Machine
end

