-- ==== Sys2Proof/Machine/Measure.lean ====
section
/-! DEFINITION. The measurement log (14 R681, R682). -/

namespace Sys2Proof.Machine

/-- The 64 bytes of a log entry (R681); the information bytes lie in the order the table names them (log entry 37). -/
def State.logEntry (s : State) (type : Byte) (sched : BitVec 32) (digest : BitVec 256) (info : List Byte) : List Byte :=
  [type, 0, 0, 0] ++ leBytes 4 sched.toNat ++ leBytes 32 digest.toNat ++ info.take 16
    ++ List.replicate (16 - info.length) 0 ++ leBytes 8 s.fret.west.toNat

/-- An event extends the chain; the first 4,096 entries are stored, later ones set overflow (R681, R682). -/
def State.extendLog (s : State) (type : Byte) (sched : BitVec 32) (digest : BitVec 256) (info : List Byte) : State :=
  let e := s.logEntry type sched digest info
  s.modSec fun x =>
    let full := decide (4096 ≤ x.entries.length)
    { x with
      chain := shake32 (leBytes 32 x.chain.toNat ++ e)
      events := x.events + 1
      entries := if full then x.entries else x.entries ++ [e]
      overflow := x.overflow || full }

/-- POR and system reset restart the log (R682). -/
def SecSt.restartLog (x : SecSt) : SecSt := { x with chain := 0, events := 0, entries := [], overflow := false }

/-- A digest over bytes whose layout the spec leaves open: a free value (log entry 37). -/
def State.freeDigest (s : State) : BitVec 256 × State := (Config.openDigest s.free, s.modFree (· + 1))

end Sys2Proof.Machine
end

