-- ==== Sys2Proof/Machine/Security.lean ====
section
/-! DEFINITION. Life-cycle requests, image verification, the identity key, leaves, signatures, operator keys, quotes and the scan clear (14). -/

namespace Sys2Proof.Machine

/-- Who writes a register: the accessor, and for a write the MC makes under a signed WRITE_REG command the port and the
operator key slot of the command (R503, R664, R679, R739). -/
structure Writer where
  acc : Accessor
  signed : Option (MgmtPort × Nat) := none
deriving DecidableEq, Repr

/-- The writer is a host port. -/
def Writer.host (w : Writer) : Bool := decide (w.acc ≠ .mc)

/-- The MC writes under a command signed with the key in slot 0. -/
def Writer.slot0 (w : Writer) : Bool :=
  match w.acc, w.signed with
  | .mc, some (_, 0) => true
  | _, _ => false

/-! ## Life cycle (R664) -/

/-- The reset source of a request (R665). -/
def Writer.source (w : Writer) : BitVec 4 :=
  match w.acc, w.signed with
  | .portA, _ => 9
  | .portB, _ => 10
  | .mc, some (.m1, _) => 8
  | .mc, _ => 7

/-- A root slot is not revoked. -/
def FuseSt.rootLeft (f : FuseSt) : Bool := (List.range 4).any fun i => !bit f.revoked i

/-- The transition that a request makes, if the table of R664 allows it. -/
def State.transition (s : State) (target : Nat) : Option LifeCycle :=
  match s.sec.lc, target with
  | .test, 1 => if s.flash.yieldOk ∧ s.fuse.rootLeft then some .provision else none
  | .provision, 2 => if s.ids.state = .ready ∧ (Tab.find s.sec.cache 0).isSome then some .field else none
  | .field, 3 => if s.sec.trips < 4 then some .ret else none
  | .ret, 2 => some .field
  | .final, _ => none
  | _, 4 => some .final
  | _, _ => none

/-- SEC_LC_REQ: from the owner port in TEST and PROVISION, from a command signed with slot 0 in FIELD and RETURN; a
transition whose fuses are being written refuses another (R664, R665). -/
def State.writeLcReq (s : State) (w : Writer) (v : Word) : State :=
  let allowed := match s.sec.lc with
    | .test | .provision => w.host
    | .field | .ret => w.slot0
    | .final => true
  if v.extractLsb' 16 16 ≠ (0x4C43 : BitVec 16) ∨ !allowed then s
  else
    let target := (v.extractLsb' 0 3 : BitVec 3).toNat
    match (if s.sec.lcPending.isNone then s.transition target else none) with
    | some x => s.modSec fun c => { c with lcPending := some (x.code, w.source) }
    | none => s.modSec fun c => { c with reqErr := true }

/-- The state a code names. -/
def LifeCycle.ofCode (n : Nat) : LifeCycle :=
  match n with | 0 => .test | 1 => .provision | 2 => .field | 3 => .ret | _ => .final

/-- The fuses of the accepted transition (R664): END destroys the device secret, the seeds and the operator keys. -/
def State.writeLcFuses (s : State) (target : Nat) : State :=
  let x := LifeCycle.ofCode target
  let s := s.modFuse fun f => { f with lc := x, trips := if x = .ret then f.trips + 1 else f.trips }
  s.when (decide (x = .final)) fun s =>
    let s := s.modFuse fun f => { f with secret := some (BitVec.allOnes 512) }
    let s := s.modFlash fun f => { f with opKeys := [] }
    let s := s.modSec fun c => { c with cache := [] }
    s.modIds fun g => { g with seeds := none, state := .none }

/-! ## Images (R667 to R669) -/

/-- The root slot that verifies an image, or none where the image is invalid (R668). -/
def State.verifyImage (s : State) (kind : BitVec 8) (img : FlashImage) : Option Nat :=
  match img with
  | none => none
  | some m =>
    match (List.range 4).find? fun i => decide (s.fuse.roots.getD i 0 = m.keyHash) && !bit s.fuse.revoked i with
    | none => none
    | some i =>
      if m.oidOk && m.kind == kind && decide (s.fuse.svn ≤ m.svn) && m.digestOk && m.sigOk then some i else none

/-- Byte 6 of the firmware image that BU1 verified, in FIELD and RETURN once BU9 has passed (R669). -/
def State.applyAdvance (s : State) : State :=
  match s.sec.firmware with
  | none => s
  | some m =>
    if s.sec.lc = .field ∨ s.sec.lc = .ret then
      s.modFuse fun f =>
        { f with
          svn := if m.advance then max f.svn m.svn else f.svn
          revoked := f.revoked ||| (m.revoke &&& ~~~ BitVec.ofNat 4 (2 ^ s.sec.slot.toNat)) }
    else s

/-! ## The identity key (R670 to R672) -/

/-- The bytes of a name. -/
def ascii (x : String) : List Byte := x.toList.map fun c => BitVec.ofNat 8 c.toNat

/-- SK_SEED, SK_PRF and PUB_SEED from the device secret (R671). -/
def deriveSeeds (secret : BitVec 512) : BitVec 256 × BitVec 256 × BitVec 256 :=
  let x := leBytes 64 secret.toNat
  (shake32 (ascii "EB2-SK" ++ x), shake32 (ascii "EB2-PRF" ++ x), shake32 (ascii "EB2-PUB" ++ x))

/-- The identity public key: OID, root, public seed, byte 0 lowest (R667, R689; the OID value is log entry 38). -/
def publicKey (x : BitVec 256 × BitVec 256 × BitVec 256) : BitVec 544 :=
  BitVec.ofNat 544 (leVal ([0, 0, 0, 0x2C] ++ leBytes 32 (Config.xmssRoot x.1 x.2.1 x.2.2).toNat ++ leBytes 32 x.2.2.toNat))

/-- The identity key published (R670, R671). -/
def State.publish (s : State) (x : BitVec 256 × BitVec 256 × BitVec 256) : State :=
  s.modIds fun g => { g with state := .ready, pub := publicKey x, seeds := some x }

/-- SEC_ID_CTL op generate, from the owner port in PROVISION, once (R670). -/
def State.writeIdCtl (s : State) (w : Writer) (v : Word) : State :=
  if v.extractLsb' 30 2 = (1 : BitVec 2) ∧ w.host ∧ s.sec.lc = .provision ∧ s.ids.state = .none then
    s.modIds fun g => { g with state := .generating }
  else s

/-- ID_GENERATE_DONE: the secret fuses, the key and its public part (R670). -/
def execIdGenerateDone (secret : BitVec 512) (s : State) : Host.Outcome State Fault Refusal :=
  if s.ids.state = .generating then
    .next ((s.modFuse fun f => { f with secret := some secret }).publish (deriveSeeds secret))
  else .next s

/-! ## Leaves and signatures (R672 to R677) -/

/-- The leaf status after the counter moves (R677). -/
def IdSt.leafState (g : IdSt) : IdSt :=
  { g with low := decide (2 ^ 28 - g.blocks.toNat < 2 ^ 20), exhausted := decide (g.blocks.toNat = 2 ^ 28) && !g.held }

/-- Reserve a block where none with a leaf left is held (R674, R676). -/
def State.reserve (s : State) : State :=
  if s.ids.held ∨ s.ids.ctrStop ∨ 2 ^ 28 ≤ s.ids.blocks.toNat then s
  else if s.flash.ctrOk then
    let s := s.modFlash fun f => { f with leafCounter := f.leafCounter + 1 }
    s.modIds fun g => { g with held := true, leaf := BitVec.ofNat 40 (g.blocks.toNat * 4096), blocks := g.blocks + 1 }.leafState
  else s.modIds fun g => { g with ctrErr := true, ctrStop := true }

/-- A leaf can be had: one is held, or a block can be reserved (R676, R677). -/
def State.canSign (s : State) : Bool :=
  !s.ids.ctrStop && (s.ids.held || (decide (s.ids.blocks.toNat < 2 ^ 28) && s.flash.ctrOk))

/-- A signature with the next leaf: its bytes and leaf (R672, R674). -/
def State.sign (s : State) (msg : List Byte) : List Byte × State :=
  let leaf := s.ids.leaf
  let sk := (s.ids.seeds.map (·.1)).getD 0
  let lastOne := decide (leaf.toNat % 4096 = 4095)
  (Config.signature sk leaf msg,
    s.modIds fun g => { g with leaf := leaf + 1, held := g.held && !lastOne, signCnt := satAdd g.signCnt 1 }.leafState)

/-- The signature queue is full (R672). -/
def State.signFull (s : State) : Bool := decide (16 ≤ s.ids.queue.length)

/-- A request joins the queue; the block its turn needs is reserved when its turn comes (R672, R674). -/
def State.askSign (s : State) (q : SignFor) : State :=
  let s := s.modIds fun g => { g with queue := g.queue ++ [q] }
  s.when (decide (s.ids.queue.length = 1)) (·.reserve)

/-- The head of the queue leaves; the next request's turn comes. -/
def State.nextSign (s : State) : State :=
  let s := s.modIds fun g => { g with queue := g.queue.tail }
  s.when (decide (s.ids.queue ≠ [])) (·.reserve)

/-- SIGN_REQUEST: queued, or busy with the queue full; without a leaf nothing is signed (R672, R676, R677). -/
def execSignRequest (msg : List Byte) (s : State) : Host.Outcome State Fault Refusal :=
  if s.ids.state ≠ .ready ∨ s.signFull then .next s else .next (s.askSign (.plain msg))

/-- The 128 bytes of a quote (R683). -/
def State.quoteBytes (s : State) (nonce : List Byte) (seq : BitVec 32) : List Byte :=
  let x := s.sec
  let flags := (decide (x.marks ≠ 0)).toNat + 2 * x.overflow.toNat + 4 * s.relx.retFlag.toNat
  leBytes 4 0x51425145 ++ [BitVec.ofNat 8 x.lc.code, x.slot.setWidth 8, BitVec.ofNat 8 s.fuse.svn, BitVec.ofNat 8 flags]
    ++ leBytes 8 s.fuse.serial.toNat ++ nonce ++ leBytes 32 x.chain.toNat ++ leBytes 4 x.events.toNat
    ++ leBytes 8 s.ids.leaf.toNat ++ leBytes 4 seq.toNat ++ leBytes 32 (shake32 (leBytes 68 s.ids.pub.toNat)).toNat

/-- SIGNATURE_DONE: the head of the queue, where it is not the host's quote; with no leaf to be had nothing is sent
(R672, R677, R684). -/
def execSignatureDone (s : State) : Host.Outcome State Fault Refusal :=
  match s.ids.queue with
  | [] => .next s
  | .quote none _ _ :: _ => .next s
  | q :: _ =>
    if !s.ids.held then .next s.nextSign
    else
      let leaf := s.ids.leaf
      match q with
      | .reply port msg =>
        let r := s.sign msg
        .next (r.2.emit (.datagram port (msg ++ r.1))).nextSign
      | .quote (some (port, hdr)) nonce seq =>
        let b := s.quoteBytes nonce seq
        let r := s.sign b
        .next (r.2.emit (.datagram port (hdr ++ b ++ r.1))).nextSign
      | .quote none _ _ => .next s
      | .plain msg =>
        let r := s.sign msg
        .next (r.2.emit (.signed leaf r.1)).nextSign

/-- SEC_QUOTE_CTL op quote (R684, R689); a request while a quote is being made has no effect (log entry 39). -/
def State.writeQuoteCtl (s : State) (v : Word) : State :=
  let fail := fun (c : BitVec 8) => s.modSec fun x => { x with quoteResult := c, quoteValid := false }
  if v.extractLsb' 30 2 ≠ (1 : BitVec 2) ∨ s.sec.quoteBusy then s
  else if s.ids.state ≠ .ready then fail 1
  else if s.signFull then fail 4
  else if !s.canSign then fail 2
  else
    let nonce := s.sec.nonce.flatMap fun w => leBytes 4 w.toNat
    let seq := s.sec.quoteSeq
    (s.modSec fun x => { x with quoteBusy := true, quoteValid := false, quoteSeq := seq + 1 }).askSign (.quote none nonce seq)

/-- QUOTE_DONE: the quote and its signature in the window, or result 0x02 where no leaf is left (R677, R683, R684). -/
def execQuoteDone (s : State) : Host.Outcome State Fault Refusal :=
  match s.ids.queue with
  | .quote none nonce seq :: _ =>
    if !s.ids.held then .next (s.modSec fun x => { x with quoteBusy := false, quoteResult := 2 }).nextSign
    else
      let b := s.quoteBytes nonce seq
      let r := s.sign b
      .next (r.2.modSec fun x =>
        { x with quoteBusy := false, quoteValid := true, quoteResult := 0, quote := b ++ r.1 }).nextSign
  | _ => .next s

/-! ## Operator keys (R678 to R680) -/

/-- The parameter set a key's OID names (R678; the OID values are log entry 38). -/
def opkSet (key : BitVec 544) : Option (BitVec 3) :=
  match (leBytes 4 key.toNat).map (·.toNat) with
  | [0, 0, 0, 0x29] => some 1
  | [0, 0, 0, 0x2A] => some 2
  | [0, 0, 0, 0x2B] => some 3
  | [0, 0, 0, 0x2C] => some 4
  | [0, 0, 0, 0x2E] => some 5
  | [0, 0, 0, 0x2F] => some 6
  | _ => none

/-- A writer may change operator slots (R679). -/
def State.mayWriteKeys (s : State) (w : Writer) : Bool :=
  match s.sec.lc with
  | .provision => w.host
  | .field | .ret => w.slot0
  | .test | .final => false

/-- SEC_OPK_CTL: write the staged key or erase the slot that the writer's selector names (R679, R689). -/
def State.writeOpkCtl (s : State) (w : Writer) (v : Word) : State :=
  let s := s.modSec fun x => { x with opkErr := x.opkErr && !bit v 28 }
  let slot := (s.sec.opkSel.get w.acc).toNat
  let err := s.modSec fun x => { x with opkErr := true }
  let key := BitVec.ofNat 544 (leVal (s.sec.staged.flatMap fun x => leBytes 4 x.toNat))
  match (v.extractLsb' 30 2).toNat with
  | 1 =>
    match (if s.mayWriteKeys w then opkSet key else none) with
    | none => err
    | some c =>
      let s := s.modFlash fun f => { f with opKeys := Tab.put f.opKeys slot (c, key, 0) }
      s.modSec fun x => { x with cache := Tab.put x.cache slot (c, key, 0) }
  | 2 =>
    if !s.mayWriteKeys w then err
    else
      let s := s.modFlash fun f => { f with opKeys := Tab.del f.opKeys slot }
      s.modSec fun x => { x with cache := Tab.del x.cache slot }
  | _ => s

/-! ## Scan (R685 to R688) -/

/-- SCAN_EN: in TEST scan opens; in RETURN the secrets are cleared first (R685, R686). -/
def execScanEn (s : State) : Host.Outcome State Fault Refusal :=
  let s := s.loadIr 0x40 false false
  if s.rstc.sysrstLow = false ∨ s.sec.scan ≠ .closed then .next s
  else match s.sec.lc with
    | .test => .next (s.modSec fun x => { x with scan := .opened })
    | .ret => .next (s.modSec fun x => { x with scan := .clearing })
    | _ => .next s

/-- EB1_UNLOCK: in FIELD, where the path is not fused off, a field-scan mark and then the clear (R685 to R687). -/
def execEb1Unlock (s : State) : Host.Outcome State Fault Refusal :=
  let s := s.loadIr 0x41 false false
  if s.rstc.sysrstLow = false ∨ s.sec.scan ≠ .closed ∨ s.sec.lc ≠ .field ∨ s.fuse.eb1Off then .next s
  else
    let s := s.modFlash fun f => { f with marks := min (f.marks + 1) 0xFFFF }
    .next (s.modSec fun x => { x with scan := .clearing })

/-- SCAN_CLEAR_DONE: the secrets are gone, the leaf block is abandoned, and scan opens (R675, R686). -/
def execScanClearDone (s : State) : Host.Outcome State Fault Refusal :=
  if s.sec.scan ≠ .clearing then .next s
  else
    let s := s.modIds fun g =>
      { g with seeds := none, sessionKeys := none, state := .none, held := false, leaf := BitVec.ofNat 40 (g.blocks.toNat * 4096) }
    .next (s.modSec fun x =>
      { x with
        scan := .opened, cleared := 7, cache := [], quote := [], quoteValid := false, nonce := List.replicate 8 0 })

end Sys2Proof.Machine
end

