-- ==== Sys2Proof/Machine/Sched.lean ====
section
/-! DEFINITION. Schedule commands to the MC: LOAD, START, STOP, UNLOAD (05 R276 to R279; 09 R498 to R500, R789; 11 R565, R570, R571). -/

namespace Sys2Proof.Machine

/-- The 32-byte reply (09 R498). -/
def State.mcReply (s : State) (m : McCmd) (op : Nat) (st : Status) (detail : Nat) (sched : BitVec 32) : State :=
  s.mcSend m.reply
    ([BitVec.ofNat 8 op, BitVec.ofNat 8 st.code, BitVec.ofNat 8 detail, 0] ++ leBytes 4 sched.toNat ++ List.replicate 20 0
      ++ leBytes 4 m.tag.toNat)

/-- The sender may command the MC: the MC itself, or the port that holds the owner token (09 R499). -/
def State.mayCommand (s : State) (a : Accessor) : Bool :=
  match a with
  | .mc => true
  | .portA => s.top.owner = .a
  | .portB => s.top.owner = .b

/-- What refuses both LOAD and START (09 R789; 10 R552, R555; 15 R705). -/
def State.admission (s : State) (a : Accessor) : Option Nat :=
  if !s.mayCommand a then some 1
  else if s.relx.retState ≠ .none ∨ s.relx.retFlag then some 6
  else if s.bist.state ≠ 0 then some 7
  else none

/-! ## The checks of LOAD -/

/-- Live regions: those that resident schedules declare (05 R279). -/
def State.liveRegions (s : State) : List Region := s.scheds.flatMap fun e => e.2.image.regions

/-- Whether every address of a pattern from a base lies in [lo, hi): each of its loops runs on its own, so the extremes are reached (05
R252). -/
def patWithin (pat : List (Nat × Int)) (base lo hi : Int) : Bool :=
  let ends := pat.foldl (fun (r : Int × Int) p =>
    let e := ((p.1 - 1 : Nat) : Int) * p.2
    (r.1 + min 0 e, r.2 + max 0 e)) (base, base)
  decide (lo ≤ ends.1) && decide (ends.2 + 256 ≤ hi)

/-- The two sides of a region. -/
def sidesOf (r : Region) : List (Nat × Nat) := [(r.a, r.size), (r.b, r.size)]

/-- R276 on one region. -/
def regionOk (r : Region) : Bool :=
  decide (r.n ≤ 4095) && decide (4096 ≤ r.size) && decide (r.size ≤ 36 * 2 ^ 30) && decide (r.size % 4096 = 0)
    && (sidesOf r).all (fun x => populatedRange x.1 x.2) && !overlaps (r.a, r.size) (r.b, r.size)

/-- R276 to R278: no side overlaps one of another region; a live number keeps its bases and size; every write stream lies in a
declared region. -/
def State.regionsOk (s : State) (i : Image) : Bool :=
  let others := i.regions ++ s.liveRegions
  (i.regions.all regionOk)
    && (i.regions.all fun r => others.all fun q =>
          if q.n = r.n then decide (q = r) else (sidesOf r).all fun x => (sidesOf q).all fun y => !overlaps x y)
    && i.tasks.all fun t =>
        (t.writes.all fun n => i.regions.any fun r => decide (r.n = n))
          && t.streams.all fun e => e.2.2.all fun u =>
              if u.kind ≠ .write then true
              else match u.src with
                | .region n _ off => (i.regions.any fun r => decide (r.n = n) && patWithin u.pattern (unit256 off) 0 r.size)
                    && t.writes.contains n
                | .absolute b => i.regions.any fun r => t.writes.contains r.n
                    && (sidesOf r).any fun x => patWithin u.pattern (unit256 b) x.1 (x.1 + x.2 : Nat)

/-- The span of a task on a cluster, as offsets in the schedule (03 R782). -/
def spanIn (t : TaskCfg) (c : Nat) : Int × Int :=
  let start := (t.streams.filter fun e => decide (e.1 = c)).foldl
    (fun m e => match e.2.2.head? with | some u => min m ((t.launch : Int) + u.activation) | none => m) (t.launch : Int)
  (start, (t.launch : Int) + t.length + t.grace - 1)

/-- R565: tasks that follow each other on a cluster have a window between their spans. -/
def migratesBetween (i : Image) (c : Nat) : List TaskCfg → Bool
  | a :: b :: ts =>
    (i.migrations.any fun m => m.clusters.contains c && decide (64 ≤ m.len) && decide ((spanIn a c).2 < m.off)
      && decide ((m.off : Int) + m.len ≤ (spanIn b c).1)) && migratesBetween i c (b :: ts)
  | _ => true

def migrationOk (i : Image) : Bool :=
  let on := fun c => i.tasks.filter fun t => (taskClusters t).contains c
  (i.tasks.all fun t => decide (t.length ≤ 2 ^ 24))
    && ((i.tasks.flatMap taskClusters).eraseDups.all fun c => migratesBetween i c (on c))
    && i.migrations.all fun m => m.clusters.all fun c => (on c).all fun t =>
        let p := spanIn t c
        decide ((m.off : Int) + m.len ≤ p.1) || decide (p.2 < m.off)

/-- A lost slot that the image configures and no variant fits (11 R570, R571). -/
def State.unfitImage (s : State) (i : Image) : Option Nat :=
  (i.tasks.flatMap fun t => t.tiles.map (·.1)).find? fun lt => s.ltLost lt && (s.variantFor i lt).isNone

/-- The lowest schedule number from 1 that is not in use (log entry 31). -/
def State.freeSched (s : State) : Nat :=
  ((List.range (s.scheds.length + 1)).find? fun n => (Tab.find s.scheds (n + 1)).isNone).getD 0 + 1

/-- MC_LOAD: the checks of R789 in order; then the schedule is resident, and regions that become live have side A current
(05 R279). -/
def execMcLoad (m : McCmd) (img : Image) (bytesDigest : BitVec 256) (formatOk : Bool) (s : State) :
    Host.Outcome State Fault Refusal :=
  match s.admission m.sender with
  | some d => .next (s.mcReply m 1 .nakFenced d 0)
  | none =>
    if img.digest ≠ bytesDigest ∨ formatOk = false ∨ img.tasks.any (fun t => decide (t.grace < 2)) then
      .next (s.mcReply m 1 .nakStale 2 0)
    else if s.regionsOk img = false then .next (s.mcReply m 1 .unsided 0 0)
    else if migrationOk img = false then .next (s.mcReply m 1 .migration 0 0)
    else match s.unfitImage img with
      | some lt => .next (((s.variantRecord (ltClus lt) 0).attn .variant).mcReply m 1 .variant 0 0)
      | none =>
        let n := s.freeSched
        let new := img.regions.filter fun r => !s.liveRegions.any fun q => decide (q.n = r.n)
        let s := s.modSpn fun x => { x with sides := new.foldl (fun t r => Tab.del t r.n) x.sides }
        let s := s.modScheds fun t => Tab.put t n { image := img }
        let s := s.extendLog 0x10 (BitVec.ofNat 32 n) img.digest []
        .next (s.mcReply m 1 .ok 0 (BitVec.ofNat 32 n))

/-- A schedule that is started and not through its pass. -/
def SchedSt.inPass (x : SchedSt) : Bool :=
  x.started && !x.stopping && !x.image.tasks.all fun t => x.committed.contains t.number

/-- A retry of a schedule is due (10 R538). -/
def State.retryDue (s : State) (n : BitVec 32) : Bool := s.relx.retries.any fun r => decide (r.sched = n)

/-- MC_START: the schedule's first task that has not committed in the pass launches at the given fret (09 R500). -/
def execMcStart (m : McCmd) (s : State) : Host.Outcome State Fault Refusal :=
  match s.admission m.sender with
  | some d => .next (s.mcReply m 2 .nakFenced d m.sched)
  | none => match s.sched? m.sched with
    | none => .next (s.mcReply m 2 .nakStale 3 m.sched)
    | some x =>
      if s.busySched m.sched then .next (s.mcReply m 2 .nakStale 4 m.sched)
      else
        let rest := x.image.tasks.filter fun t => !x.committed.contains t.number
        let from' := if rest = [] then x.image.tasks else rest
        let first := ((from'.head?).map (·.launch)).getD 0
        let s := s.modRelx fun r => { r with retries := r.retries.filter fun y => decide (y.sched ≠ m.sched) }
        let s := s.updSched m.sched fun x =>
          { x with started := true, stopping := false, reply := m.reply, base := (m.launch : Int) - first, shift := 0
                   committed := if rest = [] then [] else x.committed }
        .next (s.mcReply m 2 .ok 0 m.sched)

/-- MC_STOP: no further task arms; a retry that is due and not armed fails (09 R500; 10 R541). -/
def execMcStop (m : McCmd) (s : State) : Host.Outcome State Fault Refusal :=
  if !s.mayCommand m.sender then .next (s.mcReply m 3 .nakFenced 1 m.sched)
  else match s.sched? m.sched with
    | none => .next (s.mcReply m 3 .nakStale 3 m.sched)
    | some _ =>
      let s := s.updSched m.sched fun x => { x with stopping := true }
      let due := s.relx.retries.filter fun r => decide (r.sched = m.sched) && !r.armed
      let s := s.modRelx fun x => { x with retries := x.retries.filter fun r => !due.contains r }
      let s := s.each due fun s r => s.failTask r.task r.status r.attempt r.verdict r.abortFret r.origin r.lt
      .next (s.mcReply m 3 .ok 0 m.sched)

/-- MC_UNLOAD: a stopped schedule whose tasks have ended (09 R500; 05 R279). -/
def execMcUnload (m : McCmd) (s : State) : Host.Outcome State Fault Refusal :=
  if !s.mayCommand m.sender then .next (s.mcReply m 4 .nakFenced 1 m.sched)
  else match s.sched? m.sched with
    | none => .next (s.mcReply m 4 .nakStale 3 m.sched)
    | some x =>
      if s.busySched m.sched ∨ x.inPass ∨ s.retryDue m.sched then .next (s.mcReply m 4 .nakStale 4 m.sched)
      else
        let s := s.modScheds fun t => Tab.del t m.sched.toNat
        let s := s.modTasks fun t => t.filter fun e => decide (e.2.sched ≠ m.sched)
        let s := s.modSpn fun y => { y with sides := y.sides.filter fun e => s.liveRegion e.1 }
        let s := s.modFret fun r => { r with early := r.early.filter fun e => x.image.tasks.all fun t => decide (t.number.toNat ≠ e.1) }
        let s := s.extendLog 0x11 m.sched x.image.digest []
        .next (s.mcReply m 4 .ok 0 m.sched)

/-- A reserved opcode (09 R498, R499). -/
def execMcReservedOpcode (m : McCmd) (op : BitVec 8) (s : State) : Host.Outcome State Fault Refusal :=
  if !s.mayCommand m.sender then .next (s.mcReply m op.toNat .nakFenced 1 m.sched)
  else .next (s.mcReply m op.toNat .nakStale 5 m.sched)

end Sys2Proof.Machine
end

