-- ==== Sys2Proof/Machine/Heal.lean ====
section
/-! DEFINITION. Fences by command, remaps, rotation, in-field tests, degraded variants, and the health record (11 R558 to R572; 15 R693 to R696, R708 to R711). -/

namespace Sys2Proof.Machine

/-! ## Tile programs -/

/-- A tile program completes: counts, BIST_TILE_LAST, a record of a failure (15 R693, R712; 16 R716). -/
def State.tileProgram (s : State) (pt prog : Nat) (failed : Option (BitVec 4)) : State :=
  let s := s.modBist fun b =>
    { b with
      passed := if failed.isNone then satAdd b.passed 1 else b.passed
      failed := if failed.isSome then satAdd b.failed 1 else b.failed
      lastValid := true, lastProg := BitVec.ofNat 3 prog, lastUnit := failed.getD 0, lastPt := BitVec.ofNat 12 pt }
  s.when failed.isSome fun s => s.recordAt .tileTest (isEast (clusHalf (ptClus pt))) (ptClus pt) [bistRead (chestSel 0) s 0x014]

/-- The in-field test of a tile goes on: its partition is powered and in RUN, nothing that holds it is in a reset, and BU7 has passed (15
R695). -/
def State.testGoes (s : State) (pt : Nat) : Bool :=
  decide (s.partMode (ptPart pt) = .run) && !s.tileInReset pt && !s.parked (ptPart pt) && !s.waking (ptPart pt) && s.passed 7

/-- INFIELD_TEST_DONE: a tile in TESTING, not taken for a replay and whose test goes on, becomes BENCH with age 0, or FENCED (11 R558; 15
R693 to R696). -/
def execInfieldTestDone (pt : Pt) (failed : Option (BitVec 4)) (s : State) : Host.Outcome State Fault Refusal :=
  if (s.role pt).role ≠ .testing ∨ s.testGoes pt = false ∨ s.relx.arbs.any (fun a => decide (a.bench = some pt.val)) then .next s
  else
    let s := s.tileProgram pt 2 failed
    if failed.isSome then .next (s.fenceTile pt 0xB)
    else
      let s := s.updTile pt fun t => { t with mode := .idle }
      .next (s.updRole pt fun r => { r with role := .bench, age := some 0 })

/-! ## Remaps -/

/-- The tile a remap takes: the BENCH tile of the smallest test age, then the lowest index; else the TESTING tile (11 R561,
R562). -/
def State.spareTile (s : State) (c : Nat) : Option Nat :=
  let bench := (clusTiles c).filter fun pt => decide ((s.role pt).role = .bench)
  match bench with
  | [] => (clusTiles c).find? fun pt => decide ((s.role pt).role = .testing)
  | b :: bs => some (bs.foldl (fun m pt => if ageCode (s.role pt).age < ageCode (s.role m).age then pt else m) b)

/-- The configuration of the next task that uses a slot: a retry first, then the started schedules' next tasks (11 R562). -/
def State.nextConfig (s : State) (lt : Nat) : Option BankSt :=
  let retries := s.relx.retries.filterMap fun r =>
    (s.sched? r.sched).bind fun x => x.image.tasks.find? fun t => decide (t.number = r.task)
  let coming := s.scheds.flatMap fun e =>
    if e.2.started ∧ e.2.stopping = false then e.2.image.tasks.filter fun t => !e.2.committed.contains t.number else []
  (retries ++ coming).findSome? fun t => (t.tiles.find? fun e => decide (e.1 = lt)).map fun e => ⟨t.number, e.2⟩

/-- A slot moves from one tile to another: the new tile is reset and given the slot's next configuration, then the remap
table is rewritten; the time it took is not the model's (11 R558, R562, R588; 03 R119, R175; log entry 32). -/
def State.moveSlot (s : State) (c slot new : Nat) : State :=
  let old := 18 * c + s.remapIdx c slot
  let before := s.lostSlots c
  let cfg := s.nextConfig (16 * c + slot)
  let s := (s.resetTile new).updTile new fun t => { t with inReset := false, mode := .idle, next := cfg }
  let s := s.updClus c fun x => { x with remap := listUpd x.remap slot fun _ => BitVec.ofNat 5 (ptIdx new) }
  let s := s.updRole new fun r => { r with role := .active }
  let s := s.when (decide ((s.role old).role = .active)) fun s =>
    (s.updRole old fun r => { r with role := .testing, hangRemap := false }).updTile old fun t => { stopTile t with mode := .test }
  let v := s.freeVal
  let s := v.2.modHeal fun h => { h with remaps := satAdd h.remaps 1, lastRemap := v.1.setWidth 16 }
  s.lostCheck c before

/-- REMAP_APPLY: a replacement of a slot whose tile is fenced, or that a first hang named, in a fret in which no task runs on
the cluster (11 R558, R561 to R563, R567). -/
def execRemapApply (c : Clus) (slot : Fin 16) (s : State) : Host.Outcome State Fault Refusal :=
  let old := 18 * c.val + s.remapIdx c slot
  let r := s.role old
  if s.clusRuns c ∨ s.partMode (clusPart c) = .reset ∨ (Tab.find (s.clus c).hosts slot).isSome
      ∨ (r.role ≠ .fenced ∧ r.hangRemap = false) then .next s
  else match s.spareTile c with
    | some j => .next (s.moveSlot c slot j)
    | none => .next (s.updRole old fun r => { r with hangRemap := false })

/-! ## Rotation -/

/-- ROTATION_MARK: once every rot_period (11 R566). -/
def execRotationMark (s : State) : Host.Outcome State Fault Refusal :=
  if s.heal.rotEn then .next (s.each (List.range 128) (·.markRotation ·)) else .next s

/-- The first 32 frets of a migration point of a started schedule for a cluster (11 R565, R566; 10 R539). -/
def State.atMigration (s : State) (c : Nat) : Bool :=
  s.scheds.any fun e => e.2.started && e.2.image.migrations.any fun m =>
    let start : Int := e.2.base + e.2.shift + m.off
    m.clusters.contains c && decide (start ≤ s.now) && decide ((s.now : Int) < start + 32)

/-- A slot of the cluster waits for a replacement, which goes first (11, "Remaps"). -/
def State.wantsSpare (s : State) (c : Nat) : Bool :=
  (List.range 16).any fun k =>
    let r := s.role (18 * c + s.remapIdx c k)
    decide (r.role = .fenced) || r.hangRemap

/-- ROTATION_APPLY: at a migration point the marked tile's slot moves to the bench tile (11 R558, R566). -/
def execRotationApply (c : Clus) (s : State) : Host.Outcome State Fault Refusal :=
  match (s.clus c).rotMark, s.spareTile c with
  | some i, some j =>
    if s.hasBench c = false ∨ s.clusRuns c ∨ s.atMigration c = false ∨ s.wantsSpare c ∨ s.partMode (clusPart c) = .reset then .next s
    else match s.slotOf (18 * c.val + i) with
      | none => .next s
      | some k =>
        let s := s.moveSlot c k j
        let s := s.updClus c fun x => { x with rotMark := none }
        let mine := s.healx.rotateWait.contains c.val
        let s := s.modHealx fun h => { h with rotateWait := h.rotateWait.filter fun x => decide (x ≠ c.val) }
        .next (s.when mine fun s => s.modHeal fun h => { h with busy := false, result := 0 })
  | _, _ => .next s

/-! ## Commands -/

/-- The outcome of a command. -/
def State.healResult (s : State) (busy : Bool) (result : BitVec 8) : State :=
  s.modHeal fun h => { h with busy := busy, result := result }

/-- HEAL_CMD op fence (11 R558, R582, R588): an ACTIVE tile whose cluster runs a task, or any tile of a partition in RESET,
waits. -/
def State.fenceCmd (s : State) (pt : Nat) : State :=
  if 2304 ≤ pt then s.healResult false 2
  else
    let r := (s.role pt).role
    if r = .fenced then s.healResult false 0
    else if s.partMode (ptPart pt) = .reset ∨ (r = .active ∧ s.clusRuns (ptClus pt)) then
      (s.modHealx fun h => { h with fenceWait := h.fenceWait ++ [8 * 4096 + pt] }).healResult true 3
    else (s.fenceTile pt 8).healResult false 0

/-- HEAL_FENCE_DEFERRED_APPLY: the first fret in which no task runs on the cluster (11 R558). -/
def execHealFenceDeferredApply (pt : Pt) (s : State) : Host.Outcome State Fault Refusal :=
  let code := 8 * 4096 + pt.val
  if s.healx.fenceWait.contains code ∧ s.clusRuns (ptClus pt) = false ∧ s.partMode (ptPart pt) ≠ .reset then
    let s := s.modHealx fun h => { h with fenceWait := h.fenceWait.filter fun c => decide (c ≠ code) }
    .next ((s.fenceTile pt 8).healResult false 0)
  else .next s

/-- A write of HEAL_CMD (11 R558, R566, R577, R588). -/
def State.writeHealCmd (s : State) (v : Word) : State :=
  let t := (v.extractLsb' 0 12).toNat
  match (v.extractLsb' 29 3).toNat with
  | 1 => s.fenceCmd t
  | 2 =>
    if 128 ≤ t then s.healResult false 2
    else ((s.markRotation t).modHealx fun h => { h with rotateWait := h.rotateWait ++ [t] }).healResult true 3
  | 3 =>
    if 16 ≤ t then s.healResult false 2
    else if s.parked t ∨ s.partMode t ≠ .run then s.healResult false 1
    else (s.startRecovery t).healResult false 0
  | _ => s

/-! ## Degraded variants -/

/-- The next task of a schedule: a retry first, then the first that has not committed in the pass (11 R562). -/
def State.nextTask (s : State) (sched : BitVec 32) : Option (BitVec 32) :=
  match s.relx.retries.find? fun r => decide (r.sched = sched) with
  | some r => some r.task
  | none => (s.sched? sched).bind fun x =>
    (x.image.tasks.find? fun t => !x.committed.contains t.number).map (·.number)

/-- VARIANT_LOAD: the variant of a lost slot comes into use in a fret in which no task runs on the cluster: its host is fixed,
the slot's remap entry names the host's tile, and the next banks of the cluster's tiles take the variant's configurations for the schedule's next
task (11 R568 to R570; 09 R514). -/
def execVariantLoad (c : Clus) (slot : Fin 16) (sched : BitVec 32) (s : State) : Host.Outcome State Fault Refusal :=
  let lt := 16 * c.val + slot.val
  match (s.sched? sched).bind fun x => s.variantFor x.image lt with
  | none => .next s
  | some v =>
    if s.ltLost lt = false ∨ s.clusRuns c then .next s
    else
      let h := v.host % 16
      let s := s.updClus c fun x =>
        if (Tab.find x.hosts slot).isSome then x
        else { x with hosts := Tab.put x.hosts slot (BitVec.ofNat 4 h), remap := listUpd x.remap slot fun _ => x.remap.getD h 0 }
      let s := match s.nextTask sched with
        | none => s
        | some n => s.each (v.tiles.filter fun (r : Nat × Nat × TileCfg) => decide (r.1 = n.toNat) && decide (r.2.1 ≠ lt)) fun s r =>
          s.updTile (s.ptOf r.2.1) fun t => { t with next := some ⟨n, r.2.2⟩ }
      .next ((s.attn .variant).variantRecord c sched)

/-! ## The health record -/

/-- The current record: valid, of the larger generation (15 R708). -/
def State.healthNow (s : State) : Option Health :=
  (s.flash.health.filter fun h => h.crcOk && decide (h.serial = s.fuse.serial)).foldl
    (fun m h => match m with
      | none => some h
      | some x => if x.generation.toNat < h.generation.toNat then some h else some x) none

/-- A record of the fences, ages and HBM fault list as they stand goes to the slot that does not hold the current one (15
R708, R709, R712). -/
def State.writeHealth (s : State) (full : Bool) : State :=
  let cur := s.healthNow
  let gen : BitVec 32 := ((cur.map (·.generation)).getD 0) + 1
  let pts := List.range 2304
  let new : Health :=
    { complete := full, serial := s.fuse.serial, generation := gen, applied := false, retireFound := full && s.bist.causeFound
      fences := pts.filter fun pt => decide ((s.role pt).role = .fenced)
      ages := pts.filterMap fun pt => (s.role pt).age.map fun a => (pt, a)
      windows := s.bist.faults }
  let s := s.modFlash fun f => { f with health := cur.toList ++ [new] }
  s.modBist fun b => { b with recKind := if full then 1 else 2, recGen := gen.setWidth 24 }

/-- HEALTH_RECORD_FENCE_WRITE: a record of kind 0x02 after a fence in service (11 R560; 15 R709). -/
def execHealthRecordFenceWrite (s : State) : Host.Outcome State Fault Refusal := .next (s.writeHealth false)

end Sys2Proof.Machine
end

