-- ==== Sys2Proof/Machine/Power.lean ====
section
/-! DEFINITION. The governor, budgets, parking, the clamps, droop detection and pegs (13). -/

namespace Sys2Proof.Machine

/-! ## Budgets (R646 to R648) -/

/-- The governor's request changes: it goes up the beacon tree (04 R205; 13 R643). -/
def State.setReq (s : State) (req : Nat) (reason : BitVec 4) : State :=
  let changed := decide (s.pwr.req.toNat ≠ req)
  let s := s.modPwr fun p => { p with req := BitVec.ofNat 6 req, reason := reason }
  s.when changed fun s => s.sendRequest s.fret.chip s.pwr.req

/-- A THERMAL record (16 R716). -/
def State.thermalRecord (s : State) : State :=
  s.record .thermal [pwrRead s 0x200, pwrRead s 0x004, clkRead (chestSel 0) s 0x000]

/-- The effective budget recomputed after a term or the floor changed; `old` is the budget before (R646, R648). -/
def State.rebudget (s : State) (old : Nat) : State :=
  let low := decide (s.budgetTerm * 8 < 1360 + 65 * s.unparked)
  let s := s.when low fun s =>
    ((s.modPwr fun p => { p with clamped := true }).attn .budget).thermalRecord
  s.when (decide (s.budget < s.pwr.mean.toNat) && decide (s.pwr.mean.toNat ≤ old)) (·.setReq 32 5)

/-- PWR_BUDGET.host (R646, R659). -/
def State.writeBudget (s : State) (v : Word) : State :=
  (s.modPwr fun p => { p with host := v.setWidth 16 }).rebudget s.budget

/-- The management budget (R647). -/
def State.setMgmtBudget (s : State) (w : BitVec 16) : State := (s.modPwr fun p => { p with mgmt := w }).rebudget s.budget

/-! ## Parking and waking (R633 to R636) -/

/-- A stream use addresses memory of partition p (05 R248). -/
def State.useIn (s : State) (p : Nat) (task : BitVec 32) (u : StreamUse) : Bool :=
  let spans := fun a n => decide (partOf a ≤ p) && decide (p ≤ partOf (a + n - 1))
  let side := match u.src with
    | .region n _ _ => (s.region n).any fun r => spans r.a r.size || spans r.b r.size
    | .absolute _ => false
  let pages := match u.gather with
    | some g => spans g.tableBase (g.tableCount * g.pageSize)
    | none => false
  let static := (u.kind = .read || u.kind = .write)
    && (List.range (u.n * u.per)).any fun j => decide (partOf (patAddr u.pattern (s.useBase task u) j).toNat = p)
  side || pages || static

/-- A stream context or sided region of an armed or running task uses an address of the partition (05 R248). -/
def State.memoryInUse (s : State) (p : Nat) : Bool :=
  s.tasks.any fun e => e.2.busy && (match s.taskCfg (BitVec.ofNat 32 e.1) with
    | some c => (c.streams.any fun x => x.2.2.any fun u => s.useIn p (BitVec.ofNat 32 e.1) u)
        || (c.reads ++ c.writes).any fun n => (s.region n).any fun r =>
          [r.a, r.b].any fun a => decide (partOf a ≤ p) && decide (p ≤ partOf (a + r.size - 1))
    | none => false)

/-- The partition holds pages of an enabled pool, or the session table area (06 R337). -/
def State.holdsSessions (s : State) (p : Nat) : Bool :=
  s.sess.pools.any (fun e => e.2.enable && bit e.2.mask p) || decide (partOf (s.sess.tblBase.toNat * 2 ^ 27) = p)

/-- The ring of a bound queue lies in the partition (07 R359). -/
def State.holdsRing (s : State) (p : Nat) : Bool :=
  s.mch.queues.any fun e => decide (e.2.state ≠ .unbound) && decide (e.2.ringPart = some p)

/-- A partition in RUN and in no block reset, whatever part of it a reset names. -/
def State.partQuiet (s : State) (p : Nat) : Bool :=
  decide (s.partMode p = .run) && !s.rstc.blks.any fun b =>
    decide ((if b.level = 0 then ptPart b.target else if b.level = 1 then clusPart b.target else b.target) = p)

/-- The conditions of R633 but the last. -/
def State.mayPark (s : State) (p : Nat) : Bool :=
  bit s.pwr.allow p && bit s.pwr.domains p && !s.parked p && !s.waking p && !bit s.gov.parking p && !s.memoryInUse p
    && !s.holdsSessions p && !s.holdsRing p && (s.digsOf p).isEmpty && s.partQuiet p

/-- Parking begins: tiles stop, window tests end, the stacks enter self-refresh (R634; 15 R701). -/
def State.startPark (s : State) (p : Nat) : State :=
  let s := (s.endWindows p).modTiles fun ts => ts.map fun e => if ptPart e.1 = p then (e.1, stopTile e.2) else e
  let s := s.updPart p fun q => { q with hbm := .selfRefresh }
  s.modGov fun g => { g with parking := putBit g.parking p true }

/-- GOVERNOR_PARK: idle for park_idle ms, or over is set (R633, R649). -/
def execGovernorPark (p : Part) (idleMs : Nat) (s : State) : Host.Outcome State Fault Refusal :=
  if s.mayPark p ∧ s.tasksIn p = [] ∧ (max 1 s.pwr.parkIdle.toNat ≤ idleMs ∨ s.pwr.overBudget) then .next (s.startPark p)
  else .next s

/-- A partition's domain goes off: tile SRAM, banks and in-field tests are lost, HBM kept (R634; 05 R239). -/
def State.parkOff (s : State) (p : Nat) : State :=
  let s := s.loseEntries (.part p)
  let s := s.each ((s.tiles.map (·.1)).filter fun pt => decide (ptPart pt = p)) fun s pt =>
    (s.resetTile pt).updTile pt fun t => { t with inReset := false }
  let s := s.modPwr fun q => { q with domains := putBit q.domains p false, parked := putBit q.parked p true }
  s.modGov fun g => { g with parking := putBit g.parking p false }

/-- PARK_DONE (R634). -/
def execParkDone (p : Part) (s : State) : Host.Outcome State Fault Refusal :=
  if bit s.gov.parking p = false then .next s
  else .next ((s.parkOff p).rebudget s.budget)

/-- A parked partition starts to wake: its domain is powered, with the guard band at 30 mV (R635, R653). -/
def State.startWake (s : State) (p : Nat) : State :=
  if !s.parked p then s
  else
    let old := s.budget
    let s := s.modPwr fun q =>
      { q with
        domains := putBit q.domains p true, parked := putBit q.parked p false, waking := putBit q.waking p true
        guards := Tab.del q.guards p }
    s.rebudget old

/-- WAKE_DONE: the controllers from pegs, HBM out of self-refresh; tiles that failed the quick test are fenced (R635;
15 R693). -/
def execWakeDone (p : Part) (failed : List (Pt × BitVec 4)) (s : State) : Host.Outcome State Fault Refusal :=
  if !s.waking p then .next s
  else
    let bad := failed.filter fun f => decide (ptPart f.1 = p.val)
    let s := s.updPart p fun q => { q with hbm := .active }
    let s := s.modPwr fun q => { q with waking := putBit q.waking p false }
    let tested := (partTiles p).filter fun pt => decide ((s.role pt).role ≠ .fenced)
    .next (s.each tested fun s pt =>
      match bad.find? fun f => decide (f.1.val = pt) with
      | some f => (s.tileProgram pt 1 (some f.2)).fenceTile pt 0xB
      | none => s.tileProgram pt 1 none)

/-- PWR_PARK (R633, R635, R659). -/
def State.writePark (s : State) (v : Word) : State :=
  let mask := (List.range 16).filter fun p => bit v p
  match (v.extractLsb' 30 2).toNat with
  | 1 => s.each mask fun s p => s.when (s.mayPark p) (·.startPark p)
  | 2 => s.each mask (·.startWake ·)
  | _ => s

/-- PWR_PARK_ALLOW: a bit written 0 wakes its partition (R635, R659). -/
def State.writeParkAllow (s : State) (v : Word) : State :=
  let s := s.modPwr fun p => { p with allow := v.setWidth 16 }
  s.each ((List.range 16).filter fun p => !bit v p) (·.startWake ·)

/-! ## The governor (R643, R644, R648, R649) -/

/-- The averaging window in intervals. -/
def State.windowMs (s : State) : Nat := max 1 s.pwr.window.toNat

/-- floor + dyn × 32 ÷ (32 + x) ≤ budget − margin, in exact arithmetic (R632, R643). -/
def State.powerFits (s : State) (p x : Nat) : Bool :=
  let floor8 : Int := 1360 + 65 * s.unparked
  let over8 : Int := (p : Int) * 8 - floor8
  let lhs := 100 * (floor8 * (32 + (x : Int)) + over8 * (32 + s.fret.stretch.toNat))
  decide (lhs ≤ 8 * (s.budget : Int) * (100 - s.pwr.margin.toNat) * (32 + (x : Int)))

/-- s_pow: the least stretch that fits, else 32 (R643). -/
def State.powerStretch (s : State) (p : Nat) : Nat := ((List.range 33).find? fun x => s.powerFits p x).getD 32

/-- s_th (R643). -/
def State.thermalStretch (s : State) : Nat :=
  let die := max s.gov.dieW.toNat s.gov.dieE.toNat
  let target := min s.pwr.target.toNat 0x69
  let req := s.pwr.req.toNat
  if target < die ∨ s.pwr.stackTarget.toNat < s.gov.stack.toNat then min 32 (req + 4)
  else if target < die + 3 then req
  else 0

/-- The terms of want with their reasons, in the order of the reason codes; the first largest sets the request (R643,
R644, R651, R652; log entry 36). -/
def State.wantTerms (s : State) (p : Nat) : List (Nat × Nat) :=
  [(s.powerStretch p, 1), (s.thermalStretch, 2), (if s.passed 9 ∧ s.gov.intervals < 1000 then 4 else 0, 3),
    (min s.pwr.minStretch.toNat 32, 4), (if s.gov.thermW ∨ s.gov.thermE ∨ 0 < s.gov.holdLeft then s.gov.hold else 0, 6),
    (if s.gov.powerClamp then 32 else 0, 7)]

/-- The largest term and its reason; reason 0 for a want of 0. -/
def bestTerm (ts : List (Nat × Nat)) : Nat × Nat := ts.foldl (fun m t => if m.1 < t.1 then t else m) (0, 0)

/-- GOVERNOR_INTERVAL: the measurements, the request, and the over condition (R642 to R644, R649, R659). -/
def execGovernorInterval (m : Measured) (s : State) : Host.Outcome State Fault Refusal :=
  let s := s.modGov fun g =>
    { g with
      dieW := satOfNat 8 m.dieW, dieE := satOfNat 8 m.dieE, stack := satOfNat 8 m.stack, stackIdx := m.stackIdx
      intervals := if m.ranTask then g.intervals + 1 else g.intervals
      holdLeft := g.holdLeft - 1
      stretch32 := if s.fret.stretch = 32 then g.stretch32 + 1 else 0 }
  let s := s.modPwr fun p =>
    { p with mean := satOfNat 16 m.mean, peak := satOfNat 16 m.peak, watts := (m.domains.take 24).mapIdx fun i w => (i, w) }
  let w := bestTerm (s.wantTerms m.mean)
  let req := s.pwr.req.toNat
  let low := s.gov.lower + 1
  let s : State :=
    if req < w.1 then (s.modGov fun g => { g with lower := 0 }).setReq w.1 (BitVec.ofNat 4 w.2)
    else if w.1 < req then
      if low < 3 then s.modGov fun g => { g with lower := low }
      else
        let new := max w.1 (req - 2)
        (s.modGov fun g => { g with lower := 0 }).setReq new (if new = w.1 then BitVec.ofNat 4 w.2 else s.pwr.reason)
    else s.modGov fun g => { g with lower := 0 }
  let above := decide (s.budget < m.mean)
  .next (s.modPwr fun p =>
    { p with overBudget := above && (p.overBudget || decide (s.windowMs ≤ s.gov.stretch32)) })

/-! ## Clamps (R650 to R652) -/

/-- A half's clock is divided while either clamp holds it. -/
def State.divide (s : State) : State :=
  s.modClk fun c => { c with divW := s.gov.thermW || s.gov.powerClamp, divE := s.gov.thermE || s.gov.powerClamp }

/-- THERMAL_CLAMP_ENGAGE at 108 °C or above (R650, R651). -/
def execThermalClampEngage (h : Half) (temp : BitVec 8) (s : State) : Host.Outcome State Fault Refusal :=
  let held := match h with | .west => s.gov.thermW | .east => s.gov.thermE
  if temp.toNat < 108 ∨ held = true then .next s
  else
    let req := min 32 (s.pwr.req.toNat + 8)
    let s := s.modGov fun g =>
      { g with
        thermW := g.thermW || decide (h = .west), thermE := g.thermE || decide (h = .east)
        hold := max req (if g.thermW ∨ g.thermE ∨ 0 < g.holdLeft then g.hold else 0), lower := 0 }
    let s := s.modPwr fun p => match h with
      | .west => { p with clampW := satAdd p.clampW 1 }
      | .east => { p with clampE := satAdd p.clampE 1 }
    .next (((s.divide.setReq req 6).attn .thermal).thermalRecord)

/-- THERMAL_CLAMP_RELEASE: the request stays a floor for 1 s, 1,000 intervals (R650, R651). -/
def execThermalClampRelease (h : Half) (s : State) : Host.Outcome State Fault Refusal :=
  let held := match h with | .west => s.gov.thermW | .east => s.gov.thermE
  if !held then .next s
  else
    .next (s.modGov fun g =>
      { g with
        thermW := g.thermW && decide (h ≠ .west), thermE := g.thermE && decide (h ≠ .east), holdLeft := 1000 }).divide

/-- POWER_CLAMP_ENGAGE: the 100 µs mean is above 105 % of the limit (R652; 16 R716). -/
def execPowerClampEngage (mean : Nat) (s : State) : Host.Outcome State Fault Refusal :=
  if mean * 100 ≤ 105 * s.fuse.grade.limit ∨ s.gov.powerClamp then .next s
  else
    let s := s.modGov fun g => { g with powerClamp := true, lower := 0 }
    let s := s.modPwr fun p => { p with pclamp := true }
    .next (s.divide.setReq 32 7).thermalRecord

/-- POWER_CLAMP_RELEASE: the 1 ms mean is at the limit or below (R652). -/
def execPowerClampRelease (mean : Nat) (s : State) : Host.Outcome State Fault Refusal :=
  if s.fuse.grade.limit < mean ∨ s.gov.powerClamp = false then .next s
  else .next (s.modGov fun g => { g with powerClamp := false }).divide

/-! ## Droops and pegs (R653 to R658) -/

/-- A rail's guard band in steps of 5 mV: 30 mV at power-up. -/
def State.guardBand (s : State) (rail : Nat) : Nat := Tab.get 6 s.pwr.guards rail

/-- DROOP_EVENT: events counted; four within 10 µs raise the band a step, a critical event raises it to 60 mV (R653,
R654). -/
def execDroopEvent (rail : Fin 18) (events : Nat) (raise critical : Bool) (s : State) : Host.Outcome State Fault Refusal :=
  let g := s.guardBand rail
  let g' := if critical then 12 else if raise then min 12 (g + 1) else g
  .next (s.modPwr fun p =>
    { p with
      events := satAdd p.events events
      critical := if critical then satAdd p.critical 1 else p.critical
      guards := Tab.put p.guards rail g' })

/-- GUARD_BAND_LOWER: 100 ms without a droop event (R654). -/
def execGuardBandLower (rail : Fin 18) (s : State) : Host.Outcome State Fault Refusal :=
  .next (s.modPwr fun p => { p with guards := Tab.put p.guards rail (s.guardBand rail - 1) })

/-- The load class of the present mean input power (R656). -/
def State.loadClass (s : State) : Nat :=
  let w := s.pwr.mean.toNat * 100
  if w < 30 * s.fuse.grade.limit then 0 else if w ≤ 60 * s.fuse.grade.limit then 1 else 2

/-- The hottest die sensor. -/
def State.hottest (s : State) : BitVec 8 := if s.gov.dieE.toNat < s.gov.dieW.toNat then s.gov.dieW else s.gov.dieE

/-- A peg of a structure stored as provisional where none exists (R626, R657). -/
def State.addPeg (s : State) (kind index : Nat) : State :=
  if s.flash.pegs.any fun x => decide (x.kind = kind) && decide (x.index = index) then s
  else
    let g : Peg := { kind := kind, index := index, final := false, load := s.loadClass, temp := s.hottest }
    s.modFlash fun f => { f with pegs := f.pegs ++ [g] }

/-- PEG_RETUNE: at a boundary of its structure, a marked peg, or a provisional one under heavy load; better settings are final and heavy, else
fail is set (R658). -/
def execPegRetune (n : Nat) (better : Bool) (s : State) : Host.Outcome State Fault Refusal :=
  match s.flash.pegs[n]? with
  | none => .next s
  | some g =>
    let p := g.index / 16
    let free := if g.kind = 1 then (s.tasksIn p).isEmpty && !s.memoryInUse p else !s.anyTask
    if (g.retune = false ∧ (g.final ∨ s.loadClass ≠ 2)) ∨ free = false then .next s
    else
      let g' : Peg := if better then { g with final := true, load := 2, temp := s.hottest, retune := false }
        else { g with retune := false }
      let s := s.modFlash fun f => { f with pegs := f.pegs.set n g' }
      .next (s.when (!better) fun s => s.modPwr fun p => { p with pegFail := true })

/-- PWR_PEG (R658, R659). -/
def State.writePeg (s : State) (v : Word) : State :=
  let s := s.modPwr fun p => { p with pegFail := p.pegFail && !bit v 29 }
  s.when (decide (v.extractLsb' 30 2 = (1 : BitVec 2))) fun s =>
    s.modFlash fun f => { f with pegs := f.pegs.map fun g => { g with retune := true } }

end Sys2Proof.Machine
end

