-- ==== Sys2Proof/Machine/SelfTest.lean ====
section
/-! DEFINITION. Window tests of HBM, test ages, and the shut-down test (15). -/

namespace Sys2Proof.Machine

/-- The key of a pseudo-channel's window tests. -/
def pcKey (p : Part) (pc : Fin 32) : Nat := p.val * 32 + pc.val

/-- A partition's controllers may begin a window test: hbm_en, powered, in RUN, in no block reset (15 R697). -/
def State.mayTest (s : State) (p : Nat) : Bool := s.bist.hbmEn && s.hbmUp p && s.partQuiet p

/-- HBM_WINDOW_TEST_START: the next window of a pseudo-channel; the window's contents do not change (R697 to R700). -/
def execHbmWindowTestStart (p : Part) (pc : Fin 32) (s : State) : Host.Outcome State Fault Refusal :=
  let k := pcKey p pc
  if s.mayTest p ∧ s.bist.testing.contains k = false then .next (s.modBist fun b => { b with testing := b.testing ++ [k] })
  else .next s

/-- The entry of a window in the fault list: partition, channel, pseudo-channel, window (R698, R712). -/
def faultEntry (k w : Nat) : Word := pk [(k / 32, 28), (k % 32 / 2, 24), (k % 2, 23), (w, 0)]

/-- Faulty windows of a partition channel. -/
def State.channelFaults (s : State) (k : Nat) : Nat :=
  (s.bist.faults.filter fun e => decide (e.toNat / 2 ^ 24 = (faultEntry k 0).toNat / 2 ^ 24)).length

/-- A window is faulty: listed once, up to 4,096 entries, with a record; more than 64 in a channel retire the chip (R703;
16 R716). -/
def State.faultyWindow (s : State) (e : Word) : State :=
  let p := e.toNat / 2 ^ 28
  let k := p * 32 + e.toNat / 2 ^ 24 % 16 * 2
  let s := if s.bist.faults.contains e ∨ 4096 ≤ s.bist.faults.length then s
    else s.modBist fun b => { b with faults := b.faults ++ [e] }
  let s := s.recordAt .hbm (isEast (partHalf p)) p [0xFFFFFFFF, e]
  s.when (decide (64 < s.channelFaults k)) (·.retireCause 3)

/-- HBM_WINDOW_TEST_DONE: the next window follows; after the last a sweep is complete (R697, R699, R703). -/
def execHbmWindowTestDone (p : Part) (pc : Fin 32) (repeatFailed : Bool) (s : State) : Host.Outcome State Fault Refusal :=
  let k := pcKey p pc
  if s.bist.testing.contains k = false then .next s
  else
    let w := Tab.get 0 s.bist.next k
    let last := decide (73728 ≤ w + 1)
    let s := s.modBist fun b =>
      { b with
        testing := b.testing.filter (· ≠ k)
        next := Tab.put b.next k (if last then 0 else w + 1)
        sweeps := if last then Tab.upd 0 b.sweeps k (· + 1) else b.sweeps }
    .next (s.when repeatFailed (·.faultyWindow (faultEntry k w)))

/-- HBM_WINDOW_TEST_TIMEOUT: ended after 1 ms, untested, and tested again in the next period (R701). -/
def execHbmWindowTestTimeout (p : Part) (pc : Fin 32) (s : State) : Host.Outcome State Fault Refusal :=
  let k := pcKey p pc
  if s.bist.testing.contains k then
    .next (s.modBist fun b => { b with testing := b.testing.filter (· ≠ k), untested := satAdd b.untested 1 })
  else .next s

/-- TEST_AGE_TICK: a powered second of every tile whose age is known (R696). -/
def execTestAgeTick (s : State) : Host.Outcome State Fault Refusal :=
  .next (s.modHealx fun h =>
    { h with roles := h.roles.map fun e =>
        if bit s.pwr.domains (ptPart e.1) then (e.1, { e.2 with age := e.2.age.map (· + 1) }) else e })

/-- The conditions of R704. -/
def State.mayShut (s : State) : Bool :=
  !s.anyTask && !s.scheds.any (fun e => e.2.started) && s.rstc.blks.isEmpty && !s.recovering
    && decide (s.relx.retState ≠ .draining)

/-- BIST_CTL: the window-test fields, and op 0b01 the shut-down test; the test under way is left alone (R704, R705, R712;
log entry 40). -/
def State.writeBistCtl (s : State) (v : Word) : State :=
  let s := s.modBist fun b => { b with hbmEn := bit v 16, period := v.setWidth 16 }
  if v.extractLsb' 30 2 ≠ (1 : BitVec 2) ∨ s.bist.state ≠ 0 then s
  else if s.mayShut then
    let s := s.modBist fun b => { b with state := 1, phase := 1, fenced := 0, causeFound := false }
    s.each (List.range 16) (·.startWake ·)
  else s.modBist fun b => { b with refused := true }

/-- HBM contents become undefined: bytes of no partition are known (05 R239; 15 R702). -/
def State.loseHbm (s : State) : State := s.modHbm fun h => { h with mem := [], bad := [], epoch := h.epoch + 1 }

/-- The full program's result on the tiles: those that pass have age 0, those that fail are fenced (R691, R693, R696). -/
def State.fullTest (s : State) (failed : List (Pt × BitVec 4)) : State :=
  let tested := (List.range 2304).filter fun pt => decide ((s.role pt).role ≠ .fenced)
  s.each tested fun s pt =>
    match failed.find? fun f => decide (f.1.val = pt) with
    | some f => (s.tileProgram pt 3 (some f.2)).fenceTile pt 0xB
    | none => (s.tileProgram pt 3 none).updRole pt fun r => { r with age := some 0 }

/-- SHUTDOWN_TEST_PHASE: phase 2 completes once every partition is awake (R690, R702, R705). -/
def execShutdownTestPhase (failed : List (Pt × BitVec 4)) (windows : List Word) (s : State) :
    Host.Outcome State Fault Refusal :=
  if s.bist.state ≠ 1 ∨ 2 < s.bist.phase.toNat ∨ s.pwr.waking ≠ 0 then .next s
  else
    let before := s.roleCount .fenced
    let s := s.modBist fun b => { b with phase := 2 }
    let s := s.fullTest failed
    let s := (s.each windows (·.faultyWindow ·)).loseHbm
    .next (s.modBist fun b => { b with phase := 3, fenced := satOfNat 16 (s.roleCount .fenced - before) })

/-- SHUTDOWN_RECORD: phase 3, then the Chest copy of phase 4 begins (R705, R709; 16 R725). -/
def execShutdownRecord (s : State) : Host.Outcome State Fault Refusal :=
  if s.bist.state = 1 ∧ s.bist.phase = 3 then
    .next (((s.writeHealth true).modBist fun b => { b with phase := 4 }).copyRequest 1)
  else .next s

/-- SHUTDOWN_HALT: phase 5 after the copy: every partition is parked, and the chip is HALTED (R705, R706). -/
def execShutdownHalt (s : State) : Host.Outcome State Fault Refusal :=
  if s.bist.state ≠ 1 ∨ s.bist.phase ≠ 4 ∨ s.chest.copying.isSome then .next s
  else
    let old := s.budget
    let s := (s.each (List.range 16) fun s p => (s.startPark p).parkOff p).rebudget old
    .next (s.modBist fun b => { b with state := 2, phase := 5 })

end Sys2Proof.Machine
end

