-- ==== Sys2Proof/Machine/Reset.lean ====
section
/-! DEFINITION. The reset levels and sources, orderly resets, what each level clears, block resets, and the pins and supplies that reset the chip (12 R589 to R604; 18). -/

namespace Sys2Proof.Machine

/-! ## Core reset (R589) -/

/-- Tasks end without commit; one that committed stays committed. -/
def endTasks (ts : Tab TaskRt) : Tab TaskRt :=
  ts.map fun e => (e.1, if e.2.phase = .committed then e.2 else { e.2 with phase := .stopped })

/-- A powered partition's stacks enter self-refresh; requests are discarded, the list predictor is invalidated, and the
risk count is cleared (05 R239, R286, R295; 06 R312; 15 R701). -/
def State.coreMemory (s : State) (p : Nat) : State :=
  if (s.part p).hbm = .off then s
  else ((s.endWindows p).lpInvalidate p true).updPart p fun q =>
    { q with queue := [], started := [], backlog := [], risk := 0, hbm := .selfRefresh }

/-- A recovery reset under way is abandoned (11 R582). -/
def State.endRecovery (s : State) (p : Nat) : State :=
  if s.partMode p = .run then s
  else
    let waits := decide (s.partMode p = .reset)
    let s := (s.setPartMode p .run).unfenceQueues p
    s.when waits (·.heldOrders p)

/-- What a core reset clears and ends; every field the spec gives no value for keeps its value (R589, R609; 07 R396; 15
R707). -/
def State.coreEffect (s : State) : State :=
  let s := s.loseEntries .core
  let s := s.each ((s.tasks.filter fun e => e.2.busy).map fun e => BitVec.ofNat 32 e.1) (·.dropHeld ·)
  let s := (s.modTasks endTasks).modHeld fun t => t.filter fun e => decide (2048 ≤ e.1)
  let s := s.modScheds fun t => t.map fun e => (e.1, { e.2 with started := false, stopping := false })
  let s := s.modRelx fun r => { r with retries := [] }
  let s := s.each (s.tiles.map (·.1)) fun s pt => (s.resetTile pt).updTile pt fun t => { t with inReset := false }
  let engines : List Nat := s.cluss.map (·.1) ++ s.ctxs.map fun e => e.1 / 64
  let s := s.each engines.eraseDups (·.resetEngine ·)
  let s := s.each (List.range 16) fun s p => (s.coreMemory p).dropLatches p
  let s := s.coreResetSessions
  let s := s.each (s.mch.conns.filter fun e => decide (e.2.srcKind = 4)) fun s e => s.closeByReset e.1
  let s := s.each (s.mch.queues.filter fun e => decide (e.2.kind = 1)) fun s e => s.unbindQueue e.1
  let s := s.each (List.range 16) (·.endRecovery ·)
  let s := (s.modFret fun r => { r with slipCount := 0 }).modTop fun t => { t with ready := false }
  let s := s.modBist fun b => if b.state = 1 then { b with state := 0, phase := 0 } else b
  s.modBrup fun b =>
    { b with
      running := false, paused := false, wait := .none, replayed := false
      stages := b.stages.zipIdx.map fun x => if x.2 = 5 ∨ x.2 = 6 ∨ x.2 = 7 ∨ x.2 = 9 then .notRun else x.1 }

/-! ## System reset and POR (R589) -/

/-- A fabric port through a system reset or POR: DOWN with cause 0x7 (08 R452, R467). -/
def fabAfter (now : Nat) (f : FabSt) : FabSt := if f.state = .down then { downAt := now } else { cause := 7, down := true, downAt := now }

/-- Every port leaves UP with a down marker, and its entry to DOWN is recorded (08 R452; 16 R716). -/
def State.downPorts (s : State) : State :=
  s.each (s.fabs.map (·.1)) fun s p =>
    let s := s.when (decide ((s.fab p).state = .up)) fun s => s.emit (.downMarker (Fin.ofNat 17 p))
    s.fabDown p 7

/-- What each role keeps through a system reset: ages are loaded again at BU6 (11 R560; 15 R696). -/
def roleAfter (r : RoleSt) : RoleSt := { role := r.role, yieldBad := r.yieldBad }

/-- The state that a system reset leaves: what R589 and the field tables keep, and reset values for the rest. -/
def State.systemState (s : State) : State :=
  { fuse := s.fuse
    flash := s.flash
    chest := s.chest
    tap := s.tap
    tel := { s.tel with strCyc := 0, unsent := [] }
    top := { cause := if s.relx.retFlag then ⟨s.top.cause.a &&& 1, s.top.cause.b &&& 1⟩ else ⟨0, 0⟩ }
    rstc :=
      { also := s.rstc.also, porSrc := s.rstc.porSrc, src := s.rstc.src, promoted := s.rstc.promoted, level := s.rstc.level
        sys := s.rstc.sys, core := s.rstc.core, gpIn := s.rstc.gpIn, fault := s.rstc.fault, gpOe := s.rstc.gpOe
        gpOut := s.rstc.gpOut, pwrgd := s.rstc.pwrgd, sysrstLow := s.rstc.sysrstLow, vinOk := s.rstc.vinOk
        lockout := s.rstc.lockout, healthOk := s.rstc.healthOk, restored := s.rstc.restored, mapped := s.rstc.mapped
        applied := s.rstc.applied }
    brup := { pushBase := s.brup.pushBase, pushLen := s.brup.pushLen, push := s.brup.push }
    pwr := { domains := s.pwr.domains, guards := s.pwr.guards }
    gov :=
      { dieE := s.gov.dieE, dieW := s.gov.dieW, stack := s.gov.stack, stackIdx := s.gov.stackIdx, thermW := s.gov.thermW
        thermE := s.gov.thermE, powerClamp := s.gov.powerClamp, thermtrip := s.gov.thermtrip }
    clk := { divW := s.gov.thermW || s.gov.powerClamp, divE := s.gov.thermE || s.gov.powerClamp }
    ids := { seeds := s.ids.seeds, secretRead := s.ids.secretRead }
    sec := { lc := s.sec.lc, trips := s.sec.trips, scan := s.sec.scan, cleared := s.sec.cleared, lcPending := s.sec.lcPending }
    bist := { faults := s.bist.faults, next := s.bist.next, sweeps := s.bist.sweeps }
    healx := { roles := s.healx.roles.map fun e => (e.1, roleAfter e.2) }
    relx := { retFlag := s.relx.retFlag, retState := if s.relx.retFlag then .retired else .none, retCause := s.relx.retCause }
    pcie := ⟨{ perstN := s.pcie.a.perstN }, { perstN := s.pcie.b.perstN }⟩
    hbm := s.loseHbm.hbm
    fabs := s.fabs.map fun e => (e.1, fabAfter s.ticks e.2)
    cluss := s.cluss.map fun e => (e.1, { remap := e.2.remap, hosts := e.2.hosts })
    out := s.out
    ticks := s.ticks
    free := s.free
    pending := s.pending }

/-- The state that a POR leaves: fuses, flash, the TAP, and what the pins and sensors show; a copy under way ends and
its slot stays invalid (R589; 16 R724; 18 R773). -/
def State.porState (s : State) : State :=
  { fuse := s.fuse
    flash := s.flash
    tap := s.tap
    rstc :=
      { porSrc := s.rstc.porSrc, gpIn := s.rstc.gpIn, pwrgd := s.rstc.pwrgd, sysrstLow := s.rstc.sysrstLow, vinOk := s.rstc.vinOk
        lockout := s.rstc.lockout }
    pwr := { domains := s.pwr.domains &&& 0xFF0000 }
    gov := { dieE := s.gov.dieE, dieW := s.gov.dieW, stack := s.gov.stack, stackIdx := s.gov.stackIdx, thermtrip := s.gov.thermtrip }
    sec := { lc := s.fuse.lc, trips := s.fuse.trips }
    pcie := ⟨{ perstN := s.pcie.a.perstN }, { perstN := s.pcie.b.perstN }⟩
    hbm := s.loseHbm.hbm
    fabs := s.fabs.map fun e => (e.1, fabAfter s.ticks e.2)
    out := s.out
    ticks := s.ticks
    free := s.free
    pending := s.pending }

/-- A reset is asserted: its Chest record, its effects, and RSTC (R589, R592, R594, R627; 16 R716). -/
def State.assertReset (s : State) (l : Level) (src : BitVec 4) (promoted : Bool) : State :=
  match l with
  | .por =>
    s.porState.modRstc fun r => { r with src := src, level := 0, promoted := false, inReset := some .por }
  | .system =>
    let s := (s.record .reset [BitVec.ofNat 32 (1 + src.toNat * 256)]).downPorts.loseEntries .chip |>.systemState
    s.modRstc fun r =>
      { r with src := src, level := 1, promoted := promoted, sys := satAdd r.sys 1, inReset := some .system }
  | .core =>
    let s := (s.record .reset [BitVec.ofNat 32 (2 + src.toNat * 256)]).coreEffect
    s.modRstc fun r =>
      { r with
        src := src, level := 2, promoted := promoted, core := satAdd r.core 1, inReset := some .core, orderly := none, blks := [] }

/-! ## Requests (R590 to R594) -/

/-- The order of levels. -/
def Level.rank : Level → Nat
  | .core => 0 | .system => 1 | .por => 2

/-- The level of the reset in progress, the wait of an orderly one included. -/
def State.resetLevel (s : State) : Option Level :=
  match s.rstc.orderly with
  | some o => some o.level
  | none => s.rstc.inReset

/-- An absorbed request sets its bit (R594). -/
def State.absorbReset (s : State) (src : BitVec 4) : State :=
  s.modRstc fun r => { r with also := putBit r.also src.toNat true }

/-- An orderly reset is accepted: running tasks abort, and it waits for their abort frets (R593). -/
def State.startOrderly (s : State) (l : Level) (src : BitVec 4) (promoted : Bool) : State :=
  let s := s.abortRunning .peer
  let frets := s.running.filterMap fun n => (s.task n).abort.map (·.fret)
  let f := match frets with
    | [] => s.now + 1
    | x :: xs => xs.foldl max x
  s.modRstc fun r => { r with orderly := some ⟨l, src, s.now, f, promoted⟩ }

/-- A request for a reset: promoted where the chip has not been ready, absorbed where a reset of its level or a higher one is
in progress, a HALTED chip takes no core reset; of two orderly requests of one fret and level the lower source is carried
out (R590, R592 to R594; 15 R706). -/
def State.requestReset (s : State) (l : Level) (src : BitVec 4) (immediate : Bool) : State :=
  let promoted := decide (l = .core) && !s.rstc.everReady
  let l := if promoted then .system else l
  if l = .core ∧ s.bist.state = 2 then s
  else
    let go := fun (s : State) => if immediate then s.assertReset l src promoted else s.startOrderly l src promoted
    match s.resetLevel with
    | none => go s
    | some x =>
      if x.rank < l.rank then go s
      else match s.rstc.orderly with
        | some o =>
          if o.level = l ∧ o.asked = s.now ∧ src.toNat < o.src.toNat ∧ immediate = false then
            (s.absorbReset o.src).modRstc fun r => { r with orderly := some { o with src := src, promoted := promoted } }
          else s.absorbReset src
        | none => s.absorbReset src

/-- A signed reply of the command that asked for the reset is still to be sent (R593, step 3). -/
def State.replyWaits (s : State) (src : BitVec 4) : Bool :=
  (decide (src = 7) || decide (src = 8)) && s.ids.queue.any fun q =>
    match q with
    | .reply _ _ => true
    | _ => false

/-- ORDERLY_RESET_ASSERT: at the latest abort fret, or the next fret; with no fret running it does not wait (R593). -/
def execOrderlyResetAssert (s : State) : Host.Outcome State Fault Refusal :=
  match s.rstc.orderly with
  | none => .next s
  | some o =>
    if (o.fret ≤ s.now ∨ s.fret.state = .unlocked) ∧ s.replyWaits o.src = false then
      .next (s.assertReset o.level o.src o.promoted)
    else .next s

/-- RSTC_REQ: the key, and core or system (R591, R627). An MC write that no signed command makes has no source code, so
its code is a free value. -/
def State.writeRstcReq (s : State) (w : Writer) (v : Word) : State :=
  let level : Option Level := match (v.extractLsb' 0 2).toNat with
    | 1 => some .core
    | 2 => some .system
    | _ => none
  match level with
  | none => s
  | some l =>
    if v.extractLsb' 16 16 ≠ (0x5253 : BitVec 16) then s
    else if w.acc = .mc ∧ w.signed = none then
      let x := s.freeVal
      x.2.requestReset l (x.1.setWidth 4) false
    else s.requestReset l w.source false

/-! ## Bring-up starts again -/

/-- A stage starts (R605, R628). -/
def State.startStage (s : State) (n : Nat) (arg : BitVec 4) : State :=
  s.modBrup fun b =>
    { b with
      stages := b.stages.set n .running, current := BitVec.ofNat 4 n, arg := arg, pushed := b.pushed && decide (n ≠ 1) }

/-- The release of POR or of a system reset starts BU0 (R605). -/
def State.startBu0 (s : State) : State := (s.modRstc fun r => { r with inReset := none }).startStage 0 0

/-- RESET_RELEASE: a reset the device asserted is over; SYSRST_N low, or open scan, holds a system reset (R605, R609; 14
R688). -/
def execResetRelease (s : State) : Host.Outcome State Fault Refusal :=
  match s.rstc.inReset with
  | some .system => if s.rstc.sysrstLow ∨ s.sec.scan ≠ .closed then .next s else .next s.startBu0
  | some .core =>
    let s := s.modRstc fun r => { r with inReset := none }
    .next ((s.modBrup fun b => { b with restart := true }).startStage 5 0)
  | _ => .next s

/-! ## Pins and supplies (R591, R595; 18 R763, R770 to R773) -/

/-- PWRGD low: POR with source 0x1, also while another POR holds (18 R773). -/
def execPor (s : State) : Host.Outcome State Fault Refusal :=
  let s := s.modRstc fun r => { r with pwrgd := false, lockout := false }
  if s.rstc.inReset = some .por then .next (s.modRstc fun r => { r with src := 1 }) else .next (s.assertReset .por 1 false)

/-- The domains that the converters bring up before POR is released: all but the partitions, and but the spines after a
thermal trip (01 R35; R630). -/
def State.bringUpDomains (s : State) : State :=
  if s.rstc.pwrgd ∧ s.rstc.vinOk then
    s.modPwr fun p => { p with domains := if s.gov.thermtrip then 0xFC0000 else 0xFF0000 }
  else s

/-- PWRGD_RISE (R630; 18 R770). -/
def execPwrgdRise (s : State) : Host.Outcome State Fault Refusal :=
  if s.rstc.inReset = some .por ∧ s.rstc.pwrgd = false then .next (s.modRstc fun r => { r with pwrgd := true }).bringUpDomains
  else .next s

/-- POR_RELEASE: every domain in regulation, or the monitor holds POR until PWRGD falls; after a thermal trip POR holds while a die sensor is
`hot`, above 95 °C (01 R35; R595, R605, R627, R630; 18 R770). -/
def execPorRelease (p : PorSeen) (s : State) : Host.Outcome State Fault Refusal :=
  if s.rstc.inReset ≠ some .por ∨ s.rstc.pwrgd = false ∨ s.rstc.vinOk = false ∨ s.rstc.lockout then .next s
  else if s.gov.thermtrip ∧ p.hot then .next s
  else if p.inRegulation = false then .next (s.modRstc fun r => { r with lockout := true })
  else
    let s := (s.modRstc fun r => { r with porSrc := r.src }).modGov fun g => { g with thermtrip := false }
    .next (s.modPwr fun p => { p with domains := 0xFF0000 }).startBu0

/-- SUPPLY_MONITOR_TRIP: POR with source 0x2, and the converters stop (18 R763). -/
def execSupplyMonitorTrip (s : State) : Host.Outcome State Fault Refusal :=
  let s := s.modRstc fun r => { r with vinOk := false }
  let s := if s.rstc.inReset = some .por then s.absorbReset 2 else s.assertReset .por 2 false
  .next (s.modPwr fun p => { p with domains := 0 })

/-- SUPPLY_RESTORE: the converters restart (18 R763). -/
def execSupplyRestore (s : State) : Host.Outcome State Fault Refusal :=
  if s.rstc.vinOk then .next s else .next (s.modRstc fun r => { r with vinOk := true }).bringUpDomains

/-- THERMAL_TRIP at 115 °C or above: the pin, the domains, the fatal record and its copy; CHEST_COPY_DONE asserts the POR
(R595; 16 R725). -/
def execThermalTrip (sensor temp : Word) (s : State) : Host.Outcome State Fault Refusal :=
  if temp.toNat < 115 ∨ s.gov.thermtrip ∨ s.rstc.inReset = some .por then .next s
  else
    let s := s.modGov fun g => { g with thermtrip := true }
    let s := s.modPwr fun p => { p with domains := p.domains &&& 0xFC0000 }
    let s := s.record .thermTrip [sensor, temp]
    let s := (s.each (List.range 16) fun s p => s.loseEntries (.part p)).loseEntries .spines
    .next ((State.placeAll s.chest.intake.length s).copyRequest 4)

/-- CHEST_COPY_DONE: the copy is complete; the POR of a thermal trip waited for the last one (R595; 16 R725, R726). -/
def execChestCopyDone (s : State) : Host.Outcome State Fault Refusal :=
  if s.chest.copying.isNone then .next s
  else
    let s := s.finishCopy
    if s.gov.thermtrip ∧ s.chest.copying.isNone ∧ s.rstc.inReset ≠ some .por then .next (s.assertReset .por 3 false)
    else .next s

/-- SYSRST_N_ASSERT: an immediate system reset; none while POR is asserted (R591; 18 R773). -/
def execSysrstNAssert (s : State) : Host.Outcome State Fault Refusal :=
  let s := s.modRstc fun r => { r with sysrstLow := true }
  if s.rstc.inReset = some .por then .next s else .next (s.requestReset .system 4 true)

/-- SYSRST_N_RELEASE: the system reset ends, unless scan is open or its clear runs (R605; 14 R686, R688). -/
def execSysrstNRelease (s : State) : Host.Outcome State Fault Refusal :=
  let s := s.modRstc fun r => { r with sysrstLow := false }
  if s.rstc.inReset = some .system ∧ s.sec.scan = .closed then .next s.startBu0 else .next s

/-- MC_WATCHDOG_EXPIRE: armed from the pass of BU1 and enabled (R591, R596). -/
def execMcWatchdogExpire (s : State) : Host.Outcome State Fault Refusal :=
  if s.rstc.wdogArmed ∧ s.rstc.wdogEn then .next (s.requestReset .system 5 true) else .next s

/-- MC_LOCKSTEP_FAIL: the flag and cause 0x5 unless a retirement is under way, the records, the copy, and a system reset (10
R551 to R554; 16 R716). -/
def execMcLockstepFail (pc0 pc1 : Word) (s : State) : Host.Outcome State Fault Refusal :=
  if s.rstc.inReset = some .por then .next s
  else
    let s := s.record .lockstep [pc0, pc1]
    let s := s.causeRecord 5
    let s := if s.relx.retState = .none then (s.setRetireFlag 5).attn .retire else s.setRetireFlag s.relx.retCause
    let s := State.placeAll s.chest.intake.length s
    .next (s.requestReset .system 6 true)

/-- LC_FUSE_WRITE_DONE: the fuses of the accepted transition, then an orderly system reset (14 R664, R665). -/
def execLcFuseWriteDone (s : State) : Host.Outcome State Fault Refusal :=
  match s.sec.lcPending with
  | none => .next s
  | some (target, src) =>
    let s := (s.writeLcFuses target).modSec fun x => { x with lcPending := none }
    .next (s.requestReset .system src false)

/-- TREF_RESTORE: the clocks that were locked at BU2 lock again but for the compute PLLs, which PLL_RELOCK reports (18 R765). -/
def execTrefRestore (s : State) : Host.Outcome State Fault Refusal :=
  if s.passed 2 then .next (s.modClk fun c => { c with lock := c.lock ||| 0xFC }) else .next s

/-! ## Block resets (R598 to R604) -/

/-- A task is armed or running on a cluster. -/
def State.clusBusy (s : State) (c : Nat) : Bool :=
  s.tasks.any fun e => e.2.busy && (match s.taskCfg (BitVec.ofNat 32 e.1) with
    | some g => (taskClusters g).contains c
    | none => false)

/-- The idle conditions of R598. -/
def State.tileIdle (s : State) (pt : Nat) : Bool :=
  let r := (s.role pt).role
  (decide (r = .bench) || decide (r = .fenced) || (decide (r = .active) && !s.clusBusy (ptClus pt)))
    && (s.tile pt).capture.isNone

def State.clusIdle (s : State) (c : Nat) : Bool :=
  ((clusTiles c).all s.tileIdle) && ((clusCtxs c).all fun k => decide ((s.ctx k).state = .idle))
    && !(s.wantsSpare c && s.hasSpare c) && !(s.healx.fenceWait.any fun f => decide (ptClus (f % 4096) = c))
    && !s.healx.rotateWait.contains c

def State.partIdle (s : State) (p : Nat) : Bool :=
  ((partClusters p).all s.clusIdle)
    && !((s.part p).queue ++ (s.part p).started).any fun r => decide (r.cls ≠ .unscheduled)

/-- The partition that holds a target, and whether the target exists (R604). -/
def blkPart (level target : Nat) : Nat := if level = 0 then ptPart target else if level = 1 then clusPart target else target

def blkExists (level target : Nat) : Bool :=
  match level with
  | 0 => decide (target < 2304)
  | 1 => decide (target < 128)
  | 2 => decide (target < 16)
  | _ => false

/-- The target, or a block that contains it, is in a reset (R604). -/
def State.blkInReset (s : State) (level target : Nat) : Bool :=
  match level with
  | 0 => s.tileInReset target
  | 1 => s.clusInReset target
  | _ => s.partInReset target

/-- Why a request of RSTC_BLK is refused (R604), in this order where several apply. -/
def State.blkRefusal (s : State) (level target : Nat) : Option (BitVec 8) :=
  let p := blkPart level target
  if s.resetLevel.isSome then some 5
  else if !blkExists level target then some 2
  else if s.parked p ∨ s.waking p ∨ bit s.gov.parking p then some 3
  else if s.blkInReset level target ∨ s.partMode p = .reset then some 4
  else none

/-- A tile enters its reset and stays in it until the block is done (R598). -/
def State.holdTile (s : State) (pt : Nat) : State := s.resetTile pt

/-- What a block reset resets; its tiles answer again at BLK_RESET_DONE (R598, R600; 06 R312; 07 R396; 15 R701). -/
def State.blkReset (s : State) (level target : Nat) : State :=
  match level with
  | 0 => (s.loseEntries (.tile target)).holdTile target
  | 1 => ((s.loseEntries (.clus target)).each (clusTiles target) (·.holdTile ·)).resetEngine target
  | _ =>
    let s := (s.loseEntries (.part target)).dropLatches target
    let s := (s.fenceQueues target).closeFolds target
    let s := s.each (partTiles target) (·.holdTile ·)
    let s := s.each (partClusters target) (·.resetEngine ·)
    let s := (s.endWindows target).lpInvalidate target true
    let s := s.each (s.digsOf target) fun s e => s.updDig e.1 fun d => { d with due := false }
    s.updPart target fun q => { q with queue := [], started := [], backlog := [], hbm := .selfRefresh }

/-- A block reset is listed as running. -/
def State.addBlk (s : State) (level target : Nat) (recovery : Bool) : State :=
  s.modRstc fun r => { r with blkResult := 0, blks := r.blks ++ [⟨BitVec.ofNat 2 level, target, recovery⟩] }

/-- Tasks armed or running with a tile or stream context in a cluster, and those that use a logical tile. -/
def State.tasksOnClus (s : State) (c : Nat) : List (BitVec 32) :=
  (s.tasks.map fun e => BitVec.ofNat 32 e.1).filter fun n => (s.task n).busy && (match s.taskCfg n with
    | some g => (taskClusters g).contains c
    | none => false)

def State.tasksOnLt (s : State) (lt : Nat) : List (BitVec 32) :=
  (s.tasks.map fun e => BitVec.ofNat 32 e.1).filter fun n =>
    (s.task n).busy && (s.effTiles n).any fun e => decide (e.1 = lt)

/-- RSTC_BLK (R598 to R604, R627): op 0b01 maintenance, 0b10 recovery; a partition recovery is that of 11 R578. -/
def State.writeRstcBlk (s : State) (v : Word) : State :=
  let op := (v.extractLsb' 30 2 : BitVec 2).toNat
  let level := (v.extractLsb' 28 2 : BitVec 2).toNat
  let target := (v.extractLsb' 0 12 : BitVec 12).toNat
  let refuse := fun (c : BitVec 8) => s.modRstc fun r => { r with blkResult := c }
  if op ≠ 1 ∧ op ≠ 2 then s
  else match s.blkRefusal level target with
    | some c => refuse c
    | none =>
      if op = 1 then
        let idle : Bool := match level with
          | 0 => s.tileIdle target
          | 1 => s.clusIdle target
          | _ => s.partIdle target && decide (s.partMode target = .run)
        if idle then (s.addBlk level target false).blkReset level target else refuse 1
      else match level with
        | 0 =>
          let s := match s.ltOf target with
            | some lt => s.each (s.tasksOnLt lt) fun s n => s.detect n .nakFenced
            | none => s
          (s.addBlk level target true).blkReset level target
        | 1 =>
          let s := s.each (s.tasksOnClus target) fun s n => s.detect n .nakFenced
          ((s.addBlk level target true).cutLeaving target [4, 5]).blkReset level target
        | _ => if s.partMode target = .run then (s.addBlk level target true).startRecovery target else refuse 4

/-- BLK_RESET_DONE: every word of its tiles is zero, and the block returns to service (02 R107); a partition recovery ends with PRR_RESET_DONE instead (R598, R604; 07
R395). -/
def execBlkResetDone (level : BitVec 2) (target : Nat) (s : State) : Host.Outcome State Fault Refusal :=
  let mine := fun (b : BlkReset) => decide (b.level = level) && decide (b.target = target)
  if !(s.rstc.blks.any mine) ∨ (level = 2 ∧ s.partMode target = .reset) then .next s
  else
    let s := s.modRstc fun r => { r with blkResult := 0, blks := r.blks.filter fun b => !mine b }
    let wake := fun (s : State) (pts : List Nat) => s.each pts fun s pt => s.updTile pt fun t => { t with inReset := false, sram := [] }
    match level.toNat with
    | 0 => .next (wake s [target])
    | 1 => .next (wake s (clusTiles target))
    | _ => .next (((wake s (partTiles target)).updPart target fun q => { q with hbm := .active }).unfenceQueues target)

end Sys2Proof.Machine
end

