-- ==== Sys2Proof/Machine/Bringup.lean ====
section
/-! DEFINITION. The bring-up stages BU0 to BU9, the pushed image, and the BRUP commands (12 R605 to R626). -/

namespace Sys2Proof.Machine

/-! ## Starting, passing and failing (R605 to R609) -/

/-- Every stage below `n` is PASSED. -/
def State.earlierPassed (s : State) (n : Nat) : Bool := (List.range n).all s.passed

/-- BRUP_CTL op 0x1 (R605, R607): the conditions, or order_err. -/
def State.askStage (s : State) (n : Nat) (arg : BitVec 4) : State :=
  let here := s.brup.stages.getD n .passed
  let ok := decide (n ≤ 9) && s.earlierPassed n && (decide (here = .notRun) || decide (here = .failed))
    && !(s.brup.blocked.any fun b => decide (b < n))
  if ok then s.startStage n arg else s.modBrup fun b => { b with orderErr := true }

/-- The stage is under way. After a core reset the EB2 runs BU6, BU7 and BU9 itself, each once the earlier ones have
passed (R609). -/
def State.stageRuns (s : State) (n : Nat) : Bool :=
  let here := s.brup.stages.getD n .notRun
  decide (here = .running)
    || (s.brup.restart && decide (here = .notRun) && s.earlierPassed n && !(s.brup.blocked.any fun b => decide (b < n)))

/-- The stage that a STAGE record of the replay waits for (R614). -/
def State.awaited (s : State) : Option Nat :=
  if s.brup.wait = .stage then (s.flash.script[s.brup.index.toNat]?).map fun r => r.stage.toNat else none

/-- The stage is PASSED; a replay that waits for it goes on (R605, R614). -/
def State.passStage (s : State) (n : Nat) : State :=
  let done := decide (s.awaited = some n)
  s.modBrup fun b =>
    { b with
      stages := b.stages.set n .passed, current := BitVec.ofNat 4 n, wait := if done then .none else b.wait }

/-- The replay stops with an error (R614). -/
def State.stopScript (s : State) : State :=
  s.modBrup fun b => { b with running := false, wait := .none, scriptErr := true }

/-- The stage is FAILED: its code and detail, a STAGE_FAIL record, and a replay that waits for it stops (R606, R614, R628;
16 R716). -/
def State.failStage (s : State) (n code : Nat) (detail : Word) : State :=
  let done := decide (s.awaited = some n)
  let s := s.modBrup fun b =>
    { b with
      stages := b.stages.set n .failed, current := BitVec.ofNat 4 n, failStage := BitVec.ofNat 4 n
      failCode := BitVec.ofNat 8 code, detail := detail }
  let s := s.record .stageFail [brupRead s 0x004, brupRead s 0x00C]
  s.when done (·.stopScript)

/-- A retirement cause that a stage found: the flag, the failure, and no later stage (R607; 10 R554). -/
def State.causeStage (s : State) (n code : Nat) (detail : Word) (cause : BitVec 4) : State :=
  ((s.retireCause cause).failStage n code detail).modBrup fun b => { b with blocked := some n }

/-- The stage passes unless its work found a retirement cause, for which R606 names no code (R607). -/
def State.endWork (s old : State) (n : Nat) : State :=
  if old.relx.retState = .none ∧ s.relx.retState ≠ .none then
    (s.failStage n 0 0).modBrup fun b => { b with blocked := some n }
  else s.passStage n

/-! ## BU0 and BU1 -/

/-- STAGE_BU0: the header and its mode, the retire state, the fuses' items, the Chest after a POR (R555, R606, R611, R623;
13 R659, R660; 14 R661; 16 R724); in autonomous mode BU1 starts (R610). -/
def execStageBu0 (flashOk : Bool) (s : State) : Host.Outcome State Fault Refusal :=
  if s.stageRuns 0 = false then .next s
  else if flashOk = false then .next (s.failStage 0 1 0)
  else
    let f := s.flash
    let s := s.modBrup fun b =>
      { b with
        hdrValid := f.hdrOk, hdrGen := f.generation.setWidth 31, auto := f.hdrOk && f.auto, scriptErr := b.scriptErr || !f.hdrOk }
    let s := s.modRelx fun r =>
      { r with retFlag := f.retFlag, retCause := f.retCause, retState := if f.retFlag then .retired else .none }
    let w := BitVec.ofNat 16 s.fuse.grade.limit
    let s := (s.modPwr fun p => { p with host := w, limit := w }).modClk fun c => { c with mhz := BitVec.ofNat 16 s.fuse.grade.mhz }
    let s := s.modSec fun x => { x with lc := s.fuse.lc, trips := s.fuse.trips }
    let s := s.when (!s.rstc.restored) fun s => s.restoreChest.modRstc fun r => { r with restored := true }
    let s := s.passStage 0
    .next (s.when s.brup.auto fun s => s.startStage 1 0)

/-- The signed image that bytes hold (14 R667, R668). -/
def parseImage (bs : List Byte) : SignedImage :=
  let h := bs.take 256
  let key := (h.drop 16).take 68
  let payload := (bs.drop 10149).take (leAt h 8 4)
  { kind := h.getD 4 0
    svn := (h.getD 5 0).toNat
    advance := bit (h.getD 6 0) 0
    revoke := (h.getD 6 0).extractLsb' 4 4
    keyHash := shake32 key
    oidOk := decide (key.take 4 = [0, 0, 0, 0x2C])
    magicOk := decide (leAt h 0 4 = 0x5A57494D)
    digest := BitVec.ofNat 256 (leAt h 84 32)
    digestOk := decide ((shake32 payload).toNat = leAt h 84 32)
    sigOk := Config.xmssVerify key h ((bs.drop 256).take 9893) }

/-- The pushed bytes (R620). -/
def BrupSt.pushBytes (b : BrupSt) : List Byte := Mem.read (fun _ => 0) b.push 0 b.pushLen.toNat

/-- The firmware image that BU1 boots (R620). -/
def State.bootImage (s : State) : FlashImage := if s.brup.pushed then some (parseImage s.brup.pushBytes) else s.flash.firmware

/-- The identity key at BU1: from the kept seeds, or from the device secret at the first BU1 after POR (14 R662, R671). -/
def State.bootIdentity (s : State) : State :=
  match s.ids.seeds, s.fuse.secret with
  | some x, _ => s.publish x
  | none, some secret =>
    if s.ids.secretRead then s
    else (s.publish (deriveSeeds secret)).modIds fun g => { g with secretRead := true }
  | none, none => s

/-- The leaf counter, the session keys and the operator-key cache at BU1 (14 R672, R673, R676, R677, R680). -/
def State.bootKeys (s : State) : State :=
  let blocks := BitVec.ofNat 29 s.flash.leafCounter
  let s := s.modIds fun g =>
    IdSt.leafState
      { g with
        sessionKeys := some (Config.sessionKey s.free, Config.sessionKey (s.free + 1)), blocks := blocks, held := false
        leaf := BitVec.ofNat 40 (blocks.toNat * 4096), ctrStop := false, signCnt := 0 }
  let s := (s.modFree (· + 2)).modSec fun x => { x with cache := s.flash.opKeys, marks := satOfNat 16 s.flash.marks }
  s.when s.ids.low fun s => s.record .leafLow [leafStat s.ids]

/-- A log entry with the payload digest of an image, its information bytes, and no schedule (14 R681). -/
def State.logImage (s : State) (type : Byte) (img : FlashImage) (info : List Byte) : State :=
  match img with
  | some m => s.extendLog type 0 m.digest (info ++ [BitVec.ofNat 8 m.svn])
  | none => s

/-- The events that BU1 logs, in the order of the table (14 R681; log entry 37). -/
def State.bootLog (s : State) (slot : Nat) (scriptOk : Bool) : State :=
  let d := s.freeDigest
  let s := d.2.extendLog 5 0 d.1 [BitVec.ofNat 8 s.sec.lc.code, BitVec.ofNat 8 s.sec.trips]
  let s := s.when (decide (s.sec.marks ≠ 0)) fun s => s.extendLog 0x20 0 0 (leBytes 2 s.sec.marks.toNat)
  let s := s.logImage (if s.brup.pushed then 6 else 1) s.sec.firmware [BitVec.ofNat 8 slot]
  let s := s.logImage 2 s.flash.config []
  s.when scriptOk fun s => s.logImage 3 s.flash.scriptImg []

/-- Snapshot lists from the configuration image: a trigger it does not list has an empty one (16 R718). -/
def State.bootTriggers (s : State) : State :=
  s.modTel fun t =>
    { t with
      trigs := (List.range 64).foldl (fun ts id =>
        let old := Tab.get {} t.trigs id
        match Tab.find s.flash.trigLists id with
        | none => if old.count = 0 ∧ old.snaps = [] then ts else Tab.put ts id { old with count := 0, snaps := [] }
        | some l => Tab.put ts id { old with count := BitVec.ofNat 6 l.length, snaps := l.zipIdx.map fun x => (x.2, x.1) }) t.trigs }

/-- STAGE_BU1 (R596, R606, R611; 14 R666, R668). -/
def execStageBu1 (selfCheckOk : Bool) (s : State) : Host.Outcome State Fault Refusal :=
  if s.stageRuns 1 = false then .next s
  else
    let img := s.bootImage
    match (if s.sec.lc = .final then none else s.verifyImage 1 img) with
    | none => .next (s.failStage 1 2 0)
    | some slot =>
      if (s.verifyImage 2 s.flash.config).isNone then .next (s.failStage 1 3 0)
      else if selfCheckOk = false then .next (s.failStage 1 4 0)
      else
        let scriptOk := (s.verifyImage 3 s.flash.scriptImg).isSome
        let s := s.modSec fun x => { x with slot := BitVec.ofNat 2 slot, firmware := img }
        let s := ((s.bootIdentity.bootKeys).bootLog slot scriptOk).bootTriggers
        let s := s.modBrup fun b =>
          { b with scriptOk := scriptOk, auto := b.auto && scriptOk, scriptErr := b.scriptErr || !scriptOk }
        .next ((s.modRstc fun r => { r with wdogArmed := true }).passStage 1)

/-! ## BU2 to BU5 -/

/-- STAGE_BU2: the clocks lock, the counters start at 0, and the state is FREE (R606; 04 R193; 18 R765). -/
def execStageBu2 (locked : Bool) (s : State) : Host.Outcome State Fault Refusal :=
  if s.stageRuns 2 = false then .next s
  else if locked = false then .next (s.failStage 2 5 0)
  else
    let m := BitVec.ofNat 16 s.fuse.grade.mhz
    let s := s.modClk fun c => { c with lock := 0xFF, east := m, west := m, domainMhz := m }
    let s := s.modFret fun r => { r with state := .free, west := 0, east := 0, stretch := 0, good := 0, sinceBeacon := 0 }
    .next (s.passStage 2)

/-- Four words as the bytes of an address, word 0 lowest (09 R516). -/
def addrOf (ws : List Word) (k : Nat) : BitVec 128 :=
  BitVec.ofNat 128 ((List.range 4).foldl (fun n i => n + (ws.getD (k + i) 0).toNat * 2 ^ (32 * i)) 0)

/-- MGT_CTL (09 R516). -/
def mgtCtl (m : MgtSt) (v : Word) : MgtSt :=
  { m with udp := v.extractLsb' 16 16, mode1 := bit v 3, mode0 := bit v 2, en1 := bit v 1, en0 := bit v 0 }

/-- STAGE_BU3: M0 and M1 from the configuration image (R606; 09 R516). -/
def execStageBu3 (ok : Bool) (s : State) : Host.Outcome State Fault Refusal :=
  if s.stageRuns 3 = false then .next s
  else if ok = false then .next (s.failStage 3 6 0)
  else
    let ws := s.flash.mgtWords
    let s := s.when (!ws.isEmpty) fun s => s.modMgt fun m =>
      let m := mgtCtl m (ws.getD 0 0)
      { m with m0 := { m.m0 with ip := addrOf ws 1 }, m1 := { m.m1 with ip := addrOf ws 5 } }
    .next (s.passStage 3)

/-- STAGE_BU4: the spines, the NCN and the Bridge lanes (R606; 08 R473; 10 R551; 13 R657). -/
def execStageBu4 (spineOk bridgeOk : Bool) (s : State) : Host.Outcome State Fault Refusal :=
  if s.stageRuns 4 = false then .next s
  else if spineOk = false then .next (s.causeStage 4 7 0 4)
  else if bridgeOk = false then .next (s.causeStage 4 7 0 2)
  else
    let up := fun (x : SpnHalf) => { x with ncnUp := true }
    let s := (s.updSpn .west up).updSpn .east up
    let s := s.each (List.range 16) fun s i => s.addPeg 2 i
    .next (s.passStage 4)

/-- A partition's memory is in service. -/
def State.hbmOn (s : State) (p : Nat) : State := s.updPart p fun q => { q with hbm := .active }

/-- STAGE_BU5: every partition's domain, then its channels trained; in restart form the stacks leave self-refresh (01 R35;
05 R237, R290; R606, R609; 13 R657). -/
def execStageBu5 (trained : List (BitVec 16)) (s : State) : Host.Outcome State Fault Refusal :=
  if s.stageRuns 5 = false then .next s
  else if s.brup.restart then
    .next ((s.each ((List.range 16).filter fun p => !s.parked p) (·.hbmOn ·)).passStage 5)
  else
    let s := s.modPwr fun p => { p with domains := p.domains ||| 0xFFFF, parked := 0, waking := 0 }
    let good := fun p => decide (trained.getD p 0 = 0xFFFF)
    let s := s.each (List.range 16) fun s p =>
      let s := s.updPart p fun q =>
        { q with
          trained := trained.getD p 0, trainErr := q.trainErr || !good p, hbm := if good p then .active else .training }
      s.each ((List.range 16).filter fun k => bit (trained.getD p 0) k) fun s k => s.addPeg 1 (16 * p + k)
    let mask := (List.range 16).foldl (fun m p => if good p then m else m + 2 ^ p) 0
    if mask = 0 then .next (s.passStage 5) else .next (s.causeStage 5 8 (BitVec.ofNat 32 mask) 3)

/-! ## BU6 and BU7 -/

/-- Bad physical indices of a cluster: the yield map's and the fences of the current health record (R618; 15 R711). -/
def State.badIdx (s : State) (c : Nat) : List Nat :=
  let y := Tab.get 0 s.flash.yieldMap c
  let h := (s.healthNow.map (·.fences)).getD []
  (List.range 18).filter fun i => bit y i || h.contains (18 * c + i)

/-- A cluster's roles and remap table after a POR (R618). -/
def State.mapCluster (s : State) (c : Nat) : State :=
  let bad := s.badIdx c
  if bad = [] then s
  else
    let good := (List.range 18).filter fun i => !bad.contains i
    let serve := good.take 16
    let remap := serve ++ bad.take (16 - serve.length)
    let s := s.updClus c fun x => { x with remap := remap.map (BitVec.ofNat 5) }
    let s := s.each (List.range 18) fun s i =>
      s.updRole (18 * c + i) fun r =>
        { r with
          role := if bad.contains i then .fenced else if serve.contains i then .active else .bench
          yieldBad := bit (Tab.get 0 s.flash.yieldMap c) i }
    s.lostCheck c []

/-- The record that spares the full test (R617; 15 R711). -/
def Health.valid (h : Health) : Bool := h.complete && !h.applied

/-- Test ages from a valid record: the current one after a POR, and the one applied then after a system reset (R617; 15
R696, R711). -/
def State.loadAges (s : State) : State :=
  let mine := (s.flash.health.filter fun h => h.complete && h.crcOk && decide (h.serial = s.fuse.serial)).foldl
    (fun (m : Option Health) h => match m with
      | none => some h
      | some x => if x.generation.toNat < h.generation.toNat then some h else some x) none
  match (if s.rstc.healthOk then mine else none) with
  | none => s
  | some h => s.each h.ages fun s a => s.updRole a.1 fun r => { r with age := some a.2 }

/-- After a POR: whether the current record is valid, the map, the fault list (R617, R618; 15 R711, R712). -/
def State.mapChip (s : State) : State :=
  let cur := s.healthNow
  let s := s.modRstc fun r => { r with healthOk := cur.any (·.valid) }
  let s := s.modBist fun b => { b with faults := (cur.map (·.windows)).getD [] }
  s.each (List.range 128) (·.mapCluster ·)

/-- Modes of tiles by their roles, as BU6 releases them (02 R110; 11 R558). -/
def State.releaseTiles (s : State) : State :=
  s.each s.healx.roles fun s e =>
    match e.2.role with
    | .fenced => s.updTile e.1 fun t => { t with mode := .fenced }
    | .testing => s.updTile e.1 fun t => { t with mode := .test }
    | _ => s

/-- STAGE_BU6 (R606, R609, R618, R619; 13 R635; 14 R681; 15 R712). -/
def execStageBu6 (badPart : Option Part) (s : State) : Host.Outcome State Fault Refusal :=
  if s.stageRuns 6 = false then .next s
  else match badPart with
    | some p => .next (s.failStage 6 9 (BitVec.ofNat 32 p))
    | none =>
      if s.brup.restart then
        let back := (List.range 16).filter fun p => s.parked p || bit s.gov.parking p
        let old := s.budget
        let s := s.modPwr fun p =>
          { p with
            domains := p.domains ||| 0xFFFF, parked := 0, waking := 0
            guards := p.guards.filter fun g => !(back.contains g.1 && s.parked g.1) }
        let s := (s.modGov fun g => { g with parking := 0 }).rebudget old
        .next (((s.each back (·.hbmOn ·)).releaseTiles).passStage 6)
      else if s.flash.yieldOk = false then .next (s.failStage 6 0xA 0)
      else
        let old := s
        let s := s.when (!s.rstc.mapped) fun s => s.mapChip.modRstc fun r => { r with mapped := true }
        let s := s.loadAges
        let cur := s.healthNow
        let s := s.modBist fun b =>
          { b with
            recKind := (cur.map fun h => if h.complete then 1 else 2).getD 0
            recGen := (cur.map fun h => h.generation.setWidth 24).getD 0 }
        let s := s.modBrup fun b => { b with healthValid := s.rstc.healthOk }
        let d := s.freeDigest
        let s := (d.2.extendLog 4 0 d.1 []).releaseTiles
        .next (s.endWork old 6)

/-- The quick program on every tile that is not FENCED (15 R690, R693). -/
def State.quickTest (s : State) (failed : List (Pt × BitVec 4)) : State :=
  let tested := (List.range 2304).filter fun pt => decide ((s.role pt).role ≠ .fenced)
  s.each tested fun s pt =>
    match failed.find? fun f => decide (f.1.val = pt) with
    | some f => (s.tileProgram pt 1 (some f.2)).fenceTile pt 0xB
    | none => s.tileProgram pt 1 none

/-- The test that BU7 runs: 0 none, 1 quick, 2 full (R616). -/
def State.bu7Test (s : State) : Nat :=
  if s.brup.arg = 1 then 2
  else if s.rstc.level = 0 then (if s.rstc.healthOk then 1 else 2)
  else if s.rstc.level = 2 ∧ s.brup.arg = 2 then 0
  else 1

/-- A valid record is marked applied at the first BU7 after a POR (R617; 15 R711). -/
def State.applyHealth (s : State) : State :=
  if s.rstc.applied then s
  else
    let ok := s.rstc.healthOk
    let s := s.modRstc fun r => { r with applied := true }
    s.when ok fun s => s.modFlash fun f =>
      { f with health := f.health.map fun h => { h with applied := h.applied || h.complete } }

/-- STAGE_BU7: tests, fences, and the record applied; a full test but after a core reset also covers the HBM and lists its faulty windows (R606,
R616, R617; 15 R690 to R693, R702, R703). -/
def execStageBu7 (f : TestFound) (s : State) : Host.Outcome State Fault Refusal :=
  if s.stageRuns 7 = false then .next s
  else
    let old := s
    let s := s.when (decide (s.brup.stages.getD 7 .notRun = .notRun)) fun s => s.modBrup fun b => { b with arg := 0 }
    let t := s.bu7Test
    let s := match t with
      | 0 => s
      | 1 => s.quickTest f.failed
      | _ => (s.fullTest f.failed).when (decide (s.rstc.level ≠ 2)) fun s => (s.each f.windows (·.faultyWindow ·)).loseHbm
    let s := (s.modBrup fun b => { b with test := BitVec.ofNat 2 t }).applyHealth
    .next (s.endWork old 7)

/-! ## BU8 and BU9 -/

/-- STAGE_BU8: every enabled port is UP, or has been DOWN for 250 ms, 23,437,500 frets (R606; 13 R657). -/
def execStageBu8 (s : State) : Host.Outcome State Fault Refusal :=
  let open' := s.fabs.filter fun e => e.2.enable
  let done := fun (f : FabSt) => decide (f.state = .up) || (decide (f.state = .down) && decide (f.downAt + 23437500 ≤ s.ticks))
  if s.stageRuns 8 = false ∨ !(open'.all fun e => done e.2) then .next s
  else
    let s := s.each (open'.filter fun e => decide (e.2.state = .up)) fun s e => s.addPeg 3 e.1
    .next (s.passStage 8)

/-- MC queue 0 (09 R498). -/
def State.bindMc (s : State) : State :=
  if (s.queue 0).state ≠ .unbound then s
  else (s.updQueue 0 fun _ => { kind := 2, baseLo := 0xFFFF0000, baseHi := 8, size := 16 }).bindQueue 0

/-- The chip reports ready: RDYBSY follows, the governor's first request goes out, and byte 6 of the firmware image acts
(R608, R626; 09 R505, R507; 14 R669). -/
def State.reportReady (s : State) : State :=
  let s := s.modBrup fun b => { b with restart := false }
  let s := (s.modTop fun t => { t with ready := true }).modRstc fun r => { r with everReady := true }
  let s := s.when (decide (s.gov.intervals < 1000) && decide (s.pwr.req.toNat < 4)) (·.setReq 4 3)
  s.applyAdvance.readyPins

/-- STAGE_BU9: MEMBER or root, and queue 0; after a core reset the MC's confirmation alone (R606, R608, R609). -/
def execStageBu9 (confirmed : Bool) (s : State) : Host.Outcome State Fault Refusal :=
  if s.stageRuns 9 = false ∨ (s.brup.restart ∧ confirmed = false) then .next s
  else if s.brup.restart = false ∧ s.fret.state ≠ .member ∧ s.fret.root = false then .next (s.failStage 9 0xD 0)
  else .next ((s.bindMc).passStage 9).reportReady

/-! ## BRUP_CTL (R605, R612, R620, R621) -/

/-- Op 0x4: after BU1 failed with code 0x2, BU1 runs on the pushed image (R620; log entry 41). -/
def State.bootPushed (s : State) : State :=
  if s.brup.stages.getD 1 .notRun = .failed ∧ s.brup.failStage = 1 ∧ s.brup.failCode = 2 then
    (s.startStage 1 0).modBrup fun b => { b with pushed := true }
  else s

/-- A script record of 16 bytes (R613). -/
def parseRec (bs : List Byte) : ScriptRec :=
  { op := bs.getD 0 0, stage := bs.getD 1 0, arg := BitVec.ofNat 16 (leAt bs 2 2), off := BitVec.ofNat 32 (leAt bs 4 4)
    value := BitVec.ofNat 32 (leAt bs 8 4), mask := BitVec.ofNat 32 (leAt bs 12 4) }

/-- The payload of a pushed image (14 R667). -/
def payloadOf (bs : List Byte) : List Byte := (bs.drop 10149).take (leAt bs 8 4)

/-- Op 0x5: a pushed image that verifies for its area is programmed, and the header is rewritten (R621; 14 R668). -/
def State.programPushed (s : State) (area : Nat) : State :=
  let bs := s.brup.pushBytes
  let img := some (parseImage bs)
  if 3 ≤ area ∨ s.sec.lc = .final ∨ (s.verifyImage (BitVec.ofNat 8 (area + 1)) img).isNone then s
  else
    let p := payloadOf bs
    s.modFlash fun f =>
      let f : FlashSt := match area with
        | 0 => { f with firmware := img }
        | 1 =>
          let lists := (Config.configTrigs p).foldl (fun t x => Tab.put t x.1 (x.2.take 32)) ([] : Tab (List (BitVec 25)))
          { f with config := img, configAuto := Config.configAuto p, trigLists := lists, mgtWords := Config.configMgt p }
        | _ =>
          { f with
            scriptImg := img, coldEntry := leAt p 8 4, coreEntry := leAt p 12 4
            script := (List.range (min (leAt p 4 4) (p.length / 16))).map fun i => parseRec ((p.drop (16 + 16 * i)).take 16) }
      { f with hdrOk := true, generation := f.generation + 1, auto := f.configAuto }

/-- A write of BRUP_CTL (R628). -/
def State.writeBrupCtl (s : State) (v : Word) : State :=
  let arg := v.extractLsb' 8 4
  match (v.extractLsb' 28 4).toNat with
  | 1 => s.askStage (v.extractLsb' 0 4).toNat arg
  | 2 => s.when s.brup.auto fun s => s.modBrup fun b => { b with paused := true }
  | 3 => s.modBrup fun b => { b with paused := false }
  | 4 => s.bootPushed
  | 5 => s.programPushed arg.toNat
  | _ => s

end Sys2Proof.Machine
end

