-- ==== Sys2Proof/Machine/Twin.lean ====
section
/-! DEFINITION. Twins: attach, mirror, take-over and detach (11 R583 to R586). -/

namespace Sys2Proof.Machine

/-- TW is UP. -/
def State.twUp (s : State) : Bool := (s.fab 16).state = .up

/-- A control message of 16 bytes of a type (log entry 33: the spec names byte 0 and what the message carries). -/
def State.twinSend (s : State) (type : Byte) (rest : List Byte) : State :=
  s.mcSend s.healx.twinConn.toNat (type :: rest ++ List.replicate (15 - rest.length) 0)

/-- Digest regions that are on, as the ATTACH message carries them (R584). -/
def State.attachList (s : State) : List AttachRegion :=
  (s.relx.digs.filter fun e => decide (e.2.state ≠ .off)).map fun e =>
    ⟨BitVec.ofNat 8 e.1, BitVec.ofNat 40 e.2.base, e.2.size, e.2.ref⟩

/-- One region in an ATTACH message: 48 bytes (log entry 33). -/
def attachBytes (r : AttachRegion) : List Byte :=
  [r.n] ++ leBytes 5 r.base.toNat ++ leBytes 3 r.size.toNat ++ List.replicate 7 0 ++ leBytes 32 r.ref.toNat

/-- ATTACH: messages of up to 80 regions after 16 bytes (log entry 33). -/
def State.sendAttach (s : State) : State :=
  let rs := s.attachList
  s.each (List.range (max 1 (ceilDiv rs.length 80))) fun s i =>
    let part := (rs.drop (80 * i)).take 80
    s.mcSend s.healx.twinConn.toNat ([0x23, BitVec.ofNat 8 part.length] ++ List.replicate 14 0 ++ part.flatMap attachBytes)

/-- The sink's regions: the source's numbers, bases and sizes, host_ref 1 and the reference digests (R584). -/
def State.configureSink (s : State) (rs : List AttachRegion) : State :=
  s.each rs fun s r => s.updDig r.n.toNat fun d =>
    if d.state ≠ .off then d
    else { d with baseLo := r.base.setWidth 32, baseHi := r.base.extractLsb' 32 8, size := r.size, hostRef := true, ref := r.ref }

/-- An attach fails (R583). -/
def State.attachFail (s : State) : State := s.modHealx fun h => { h with twin := .none, twinFail := true, attachRegions := [] }

/-- twin_en as the twin state sets it (R583). -/
def State.setTwinEn (s : State) (b : Bool) : State := s.modRelx fun r => { r with twinEn := b }

/-- A write of HEAL_TWIN: fail is W1C, conn in NONE only, then the operation (R583, R588). -/
def State.writeTwin (s : State) (v : Word) : State :=
  let s := s.modHealx fun h =>
    { h with twinFail := h.twinFail && !bit v 16, twinConn := if h.twin = .none then v.extractLsb' 0 12 else h.twinConn }
  match (v.extractLsb' 30 2).toNat, s.healx.twin with
  | 1, .none =>
    if s.twUp then (s.modHealx fun h => { h with twin := .attachSrc, twinCopy := 0, copied := false }).sendAttach else s
  | 2, .none =>
    if s.twUp ∧ s.scheds = [] then
      (s.modHealx fun h => { h with twin := .attachSink, twinCopy := 0, copied := false }).configureSink s.healx.attachRegions
    else s
  | 3, .attachSrc | 3, .attachSink => s.attachFail
  | 3, .paired | 3, .solo =>
    let s := s.when s.twUp (·.twinSend 0x22 [])
    (s.setTwinEn false).modHealx fun h => { h with twin := .none }
  | _, _ => s

/-- TWIN_ATTACH_RECEIVE: the regions of the ATTACH message, configured at once on a chip that is ATTACH_SINK (R584). -/
def execTwinAttachReceive (rs : List AttachRegion) (s : State) : Host.Outcome State Fault Refusal :=
  let s := s.modHealx fun h => { h with attachRegions := h.attachRegions ++ rs }
  if s.healx.twin = .attachSink then .next (s.configureSink rs) else .next s

/-- A memory write over TW (08 R420, R427, R428). -/
def memWorm (s : State) (addr : Nat) (bs : List Byte) : Worm :=
  { head :=
      { vc := 0, cls := false, poison := false, wtype := 4, nextHop := 0, hops := [], srcChip := s.fret.chip, dstChip := 0
        endpoint := 0, task := 0, stamp := 0, allow := [], fold := 0, port := 0, count := 0, conn := 0, serial := 0
        memAddr := addr, deadline := none }
    payload := bs }

/-- The source's copy of a region: unscheduled memory writes of at most 16 KiB (R584; 08 R420). -/
def State.copyRegion (s : State) (r : AttachRegion) : State :=
  s.each (List.range (r.size.toNat * 16)) fun s i =>
    let a := r.base.toNat + 16384 * i
    s.emit (.worm 16 (memWorm s a (s.hbmBytes a 16384)))

/-- Paired: twin_en 1 on this chip (R583). -/
def State.pair (s : State) : State :=
  (s.setTwinEn true).modHealx fun h => { h with twin := .paired, attachRegions := [], peerValid := false }

/-- TWIN_COPY_DONE: at the source the copy is sent and the chips pair; at the sink the regions are enabled, and it pairs once
every one is GOOD and the chip is in MEMBER; a BAD one fails the attach (R583, R584). -/
def execTwinCopyDone (mib : BitVec 32) (s : State) : Host.Outcome State Fault Refusal :=
  match s.healx.twin with
  | .attachSrc => .next (((s.each s.attachList (·.copyRegion ·)).modHealx fun h => { h with twinCopy := mib, copied := true }).pair)
  | .attachSink =>
    let ns := s.healx.attachRegions.map fun r => r.n.toNat
    if s.healx.copied = false then
      .next ((s.modHealx fun h => { h with twinCopy := mib, copied := true }).each ns (·.digEnable ·))
    else if ns.any fun n => decide ((s.dig n).state = .bad) then .next s.attachFail
    else if (ns.all fun n => decide ((s.dig n).state = .good)) ∧ s.fret.state = .member then .next s.pair
    else .next s
  | _ => .next s

/-- Lost slots of the chip (R567). -/
def State.lostCount (s : State) : Nat := (s.fencedClusters.map fun c => (s.lostSlots c).length).foldl (· + ·) 0

/-- Partitions not in RUN, as a mask. -/
def State.partsDown (s : State) : BitVec 16 :=
  (List.range 16).foldl (fun m p => if s.partMode p = .run then m else putBit m p true) 0

/-- TWIN_MIRROR_SEND (R585). -/
def execTwinMirrorSend (s : State) : Host.Outcome State Fault Refusal :=
  if s.healx.twin ≠ .paired then .next s
  else .next (s.twinSend 0x20
    ([BitVec.ofNat 8 s.relx.retState.code, BitVec.ofNat 8 (min s.lostCount 255), 0] ++ leBytes 2 s.partsDown.toNat ++ [0, 0]
      ++ leBytes 4 s.healx.lastCommitted.toNat))

/-- TWIN_MIRROR_RECEIVE (R585, R588). -/
def execTwinMirrorReceive (m : MirrorMsg) (s : State) : Host.Outcome State Fault Refusal :=
  if s.healx.twin ≠ .paired then .next s
  else .next (s.modHealx fun h =>
    { h with peerValid := true, peerRetire := m.retire, peerLost := BitVec.ofNat 2 (min m.lost 3), peerParts := m.parts, peerTask := m.task })

/-- SOLO: twin_en 0, attention twin (R583). -/
def State.goSolo (s : State) : State := ((s.setTwinEn false).modHealx fun h => { h with twin := .solo }).attn .twin

/-- TWIN_TAKEOVER_RECEIVE and TWIN_DETACH_RECEIVE (R583). -/
def execTwinTakeoverReceive (s : State) : Host.Outcome State Fault Refusal :=
  if s.healx.twin = .paired then .next s.goSolo else .next s

def execTwinDetachReceive (s : State) : Host.Outcome State Fault Refusal :=
  match s.healx.twin with
  | .paired => .next ((s.setTwinEn false).modHealx fun h => { h with twin := .none })
  | .attachSrc | .attachSink => .next s.attachFail
  | _ => .next s

end Sys2Proof.Machine
end

