-- ==== Sys2Proof/Machine/Fabric.lean ====
section
/-! DEFINITION. Routers, worms, fabric ports and the NCN (08). -/

namespace Sys2Proof.Machine

/-! ## One flit slot of an output (R418, R421 to R424, R460) -/

/-- A memory access that arrives as a worm: a write is stored, poisoned where the worm is; a read is answered (05 R241, R246;
08 R420). -/
def State.memoryWorm (s : State) (r : Router) (w : Worm) : State :=
  let a := w.head.memAddr
  match w.head.wtype.toNat with
  | 4 =>
    let ok := decide (s.reach a w.payload.length = .ok)
    let s : State :=
      if !ok then s
      else if w.head.poison then
        s.hbmWrite a w.payload (sectorsOf a w.payload.length)
      else s.hbmWrite a w.payload []
    s.emit (.deliver r { w with head := { w.head with wtype := 5, poison := !ok }, payload := [] })
  | 2 =>
    if s.reach a 256 = .ok then
      let bs := s.hbmBytes a 256
      let c := s.checkRange a 256
      c.2.emit (.deliver r { w with head := { w.head with wtype := 3, poison := decide (c.1 ≠ []) }, payload := bs })
    else s.emit (.deliver r { w with head := { w.head with wtype := 3, poison := true }, payload := [] })
  | _ => s.emit (.deliver r w)

/-- The message unit that assembles a worm's message (07 R374). -/
def State.unitHalf (s : State) (w : Worm) : Half := (s.queue w.head.endpoint).half

/-- What names a message that is being assembled. -/
def asmSlot (w : Worm) : AsmSlot := ⟨w.head.srcChip, w.head.conn, w.head.serial, w.head.task⟩

/-- A message needs a free assembly slot to enter its message unit (07 R374); notices, answers and credit returns need none (R426). -/
def wormSlotted (w : Worm) : Bool := w.head.vc = 1 && w.head.wtype = 0

/-- A worm at the front of its input can send a flit: one is there and there is room for it beyond (R422; 07 R374). A peer's link
credits are not seen: a slot of a fabric port passes with one. -/
def State.canSend (s : State) (x : RtWorm) : Bool :=
  decide (0 < x.here) &&
    match x.dest with
    | .link r p _ => s.roomAt r p x.w 1
    | .bridge _ _ _ | .fabric _ => true
    | .here => decide (0 < x.sent) || !wormSlotted x.w || decide ((s.mch.slots.get (s.unitHalf x.w)).length < 64)
    | .sink => false

/-- Urgency of a VC0 head: its release stamp, or a memory worm's deadline, relative to the current fret; a memory worm without one comes
after every other (R424). -/
def State.urgency (s : State) (w : Worm) : Int :=
  if wormEdge w then s.rel24 w.head.stamp
  else match w.head.deadline with
    | some d => s.rel24 d
    | none => 2 ^ 24

/-- The head that goes first on VC0: the earliest urgency, then the lowest input port (R424). -/
def State.mostUrgent (s : State) : List RtWorm → Option RtWorm
  | [] => none
  | x :: xs =>
    match s.mostUrgent xs with
    | none => some x
    | some y =>
      if s.urgency y.w < s.urgency x.w ∨ (s.urgency y.w = s.urgency x.w ∧ y.inPort < x.inPort) then some y else some x

/-- Worms at the front of their input buffers (R422). -/
def fronts (r : Router) : List RtWorm → List RtWorm
  | [] => []
  | x :: xs => x :: (fronts r xs).filter fun y => !sameLane r x y

/-- Worms at the front of their inputs that go to an output. -/
def State.contend (s : State) (r : Router) (out : Nat) : List RtWorm :=
  (fronts r (s.router r).worms).filter fun x => decide (x.out = out) && decide (x.dest ≠ .sink)

/-- The worm of a channel that has a flit ready for an output: the one that holds the channel, or else the head that wins it (R421, R424).
The spec orders heads on VC0 only: `pick` chooses on the others. -/
def State.readyOn (s : State) (xs : List RtWorm) (pick : Nat) (vc : BitVec 2) : Option RtWorm :=
  let mine := xs.filter fun x => decide (x.w.head.vc = vc)
  match mine.find? fun x => decide (0 < x.sent) with
  | some x => if s.canSend x then some x else none
  | none =>
    let heads := mine.filter s.canSend
    if vc = 0 then s.mostUrgent heads else heads[pick % max 1 heads.length]?

/-- The flit slot: VC0, but in 8 consecutive slots one at most to VC1 to VC3 while VC0 is ready; of these VC3, then VC2, then VC1 (R423). -/
def State.slotFor (s : State) (r : Router) (out pick : Nat) : Option RtWorm :=
  let xs := s.contend r out
  let low := (s.readyOn xs pick 3).or ((s.readyOn xs pick 2).or (s.readyOn xs pick 1))
  match s.readyOn xs pick 0, low with
  | some a, some b => if Tab.get 0 (s.router r).turns out < 7 then some a else some b
  | some a, none => some a
  | none, o => o

/-- Flits that waited in a slot are counted: at a hub port a slot in which any channel's flit waited, at a fabric port one count for each
channel (R460, R469, R471). -/
def State.countStall (s : State) (r : Router) (out : Nat) (xs : List RtWorm) : State :=
  match r, fabIn r out with
  | .hub c, _ =>
    s.when (decide (xs ≠ []) && decide (out < 5)) fun s =>
      let k := (if c.val < 64 then 0 else 512) + c.val % 64 * 8 + out
      s.modSpn fun n => { n with hubs := Tab.upd {} n.hubs k fun g => { g with stall := satAdd g.stall 1 } }
  | .ring _, some p => s.each (List.range 4) fun s vc =>
      s.when (xs.any fun x => decide (x.w.head.vc.toNat = vc)) fun s =>
        (s.updFab p fun f => { f with stalls := listUpd f.stalls vc (satAdd · 1) }).when (decide (vc = 0)) fun s =>
          s.updLink p fun l => { l with stall := satAdd l.stall 1 }
  | _, _ => s

/-- A worm that has come whole to the unit that takes it (R431). -/
def State.arrived (s : State) (r : Router) (w : Worm) : State :=
  if wormMemory w then s.memoryWorm r w else s.emit (.deliver r w)

/-- The chosen worm sends one flit: its buffer empties by it, the outputs count it, and it enters what lies beyond; with its tail the output's
channel is free (R418, R421, R460; 10 R520). -/
def State.sendFlit (s : State) (r : Router) (x : RtWorm) (parityOk bad : Bool) : State :=
  let first := decide (x.sent = 0)
  let last := decide (x.here = 1) && decide (x.due = 0)
  let less := fun (y : RtWorm) => if last then none else some { y with here := y.here - 1, sent := y.sent + 1 }
  let s := s.updRouter r fun q => { q with worms := updFirst (fun y => decide (y = x)) less q.worms }
  let s : State := match r with
    | .hub c => s.countHub c x.out first
    | .ring _ => s
  match x.dest with
  | .link r' p left =>
    let s := s.transitAt r' p (if bad then some 0 else none)
    if first then s.headIn r' p left x.w 1 parityOk
    else if last && x.w.head.poison then s.poisonIn r' p x.w.head.vc
    else s.flitsIn r' p x.w.head.vc 1
  | .bridge row e left => (s.when bad (·.countTransit (bridgeUnit row e))).releaseArrive (.bridge row e) x.w left 1 last
  | .fabric p => (s.countTx p first).when first (·.emit (.worm p x.w))
  | .here =>
    if wormEdge x.w then s.releaseArrive (.tile (Fin.ofNat 2048 x.w.head.endpoint)) x.w 0 1 last
    else
      let s := s.when (first && wormSlotted x.w) fun s => s.modMch fun m =>
        { m with slots := m.slots.set (s.unitHalf x.w) (m.slots.get (s.unitHalf x.w) ++ [asmSlot x.w]) }
      s.when last (·.arrived r x.w)
  | .sink => s

/-- One flit slot of an output: what waited is counted, and the worm it is for sends a flit (R418, R423, R460). -/
def State.slotGo (s : State) (r : Router) (out pick : Nat) (parityOk bad : Bool) : State :=
  let xs := (s.contend r out).filter fun x => decide (0 < x.here)
  match s.slotFor r out pick with
  | none => s.countStall r out xs
  | some x =>
    let s := s.countStall r out (xs.filter fun y => decide (y ≠ x))
    let s := s.updRouter r fun q =>
      { q with turns := Tab.upd 0 q.turns out fun n => if x.w.head.vc = 0 then min 7 (n + 1) else 0 }
    s.sendFlit r x parityOk bad

/-- One flit slot of an output; at a fabric port that is DOWN the worms for it are cut (R418, R421 to R424, R460, R464). -/
def State.slot (s : State) (r : Router) (out pick : Nat) (parityOk bad : Bool) : State :=
  match fabIn r out with
  | some p => if (s.fab p).state = .up then s.slotGo r out pick parityOk bad else s.cutPort p
  | none => s.slotGo r out pick parityOk bad

/-- WORM_ROUTE: a router takes a head that enters from outside the chip's routers, or further flits of its worm, where its buffer has
room; or it arbitrates an output and forwards one flit. A scheduled worm enters behind a release point by its release alone (R421 to R424, R429 to
R432, R521). -/
def execWormRoute (r : Router) (port : Nat) (e : RouteEv) (bad : Option (Fin 18)) (s : State) :
    Host.Outcome State Fault Refusal :=
  let count := fun (s : State) (n : Nat) (first : Bool) => match fabIn r port with
    | some p => s.countRx p n first
    | none => s
  match e with
  | .head w n ok =>
    let n := min n (wormFlits w)
    if (wormEdge w && releaseIn r port) || !s.roomAt r port w n then .next s
    else .next (((count s n true).transitAt r port (bad.map (·.val))).headIn r port 0 w n ok)
  | .flits vc n =>
    match (s.router r).worms.find? (entering port vc) with
    | none => .next s
    | some x =>
      let n := min n x.due
      if x.dest ≠ .sink ∧ s.roomAt r port { x.w with head := { x.w.head with cls := x.cls } } n = false then .next s
      else .next (((count s n false).transitAt r port (bad.map (·.val))).flitsIn r port vc n)
  | .slot pick ok => .next (s.slot r port pick ok bad.isSome)

/-! ## Cuts (R461 to R465) -/

/-- A worm is cut at its output: before its head crossed it is answered, after that its other part is completed with a poisoned tail; its
own part is discarded as it arrives (R462, R463). -/
def State.cutAt (s : State) (r : Router) (x : RtWorm) : State :=
  let s : State := match x.dest with
    | .fabric p => s.countCut p
    | _ => s
  let s := s.updRouter r fun q => { q with worms := updFirst (fun y => decide (y = x)) (·.cutOff) q.worms }
  let w := { x.w with head := { x.w.head with poison := true } }
  if x.sent = 0 then s.cutUncrossed x.w
  else
    let s : State := match x.dest with
      | .link r' p _ => s.poisonIn r' p x.w.head.vc
      | .bridge row e left => s.releaseArrive (.bridge row e) w left 1 true
      | .here => if wormEdge w then s.releaseArrive (.tile (Fin.ofNat 2048 w.head.endpoint)) w 0 1 true else s.arrived r w
      | _ => s.emit (.cutWorm r x.out w true)
    match x.dest with
    | .link _ _ _ | .fabric _ => if wormEdge w then s.detect w.head.task .peer else s
    | _ => s

/-- A worm that is still entering is cut before this router: what has come goes on, with a poisoned tail (R462, R463). -/
def State.cutBefore (s : State) (r : Router) (x : RtWorm) : State :=
  let s : State := match fabIn r x.inPort with
    | some p => s.countCut p
    | none => s
  let s := s.updRouter r fun q => { q with worms := updFirst (fun y => decide (y = x)) (·.poisonTail) q.worms }
  if wormEdge x.w ∧ x.dest ≠ .sink then s.detect x.w.head.task .peer else s

/-- The worms of a port that can be cut: those still entering at an input, or those bound for an output. -/
def State.cuttable (s : State) (r : Router) (port : Nat) (atInput : Bool) : List RtWorm :=
  (s.router r).worms.filter fun x =>
    if atInput then decide (x.inPort = port) && decide (0 < x.due) else decide (x.out = port) && decide (x.dest ≠ .sink)

/-- WORM_CUT: a router cuts the n-th worm of a port, at its output or before its input (R462, R463). -/
def execWormCut (r : Router) (port n : Nat) (atInput : Bool) (s : State) : Host.Outcome State Fault Refusal :=
  match (s.cuttable r port atInput)[n]? with
  | none => .next s
  | some x => if atInput then .next (s.cutBefore r x) else .next (s.cutAt r x)

/-- VC_WATCHDOG_EXPIRE: a worm on VC1 to VC3 that holds an output sends nothing (R461, R467, R472). -/
def execVcWatchdogExpire (r : Router) (outPort : Nat) (vc : BitVec 2) (s : State) : Host.Outcome State Fault Refusal :=
  let held := (s.router r).worms.find? fun x =>
    decide (x.out = outPort) && decide (x.w.head.vc = vc) && decide (0 < x.sent) && decide (x.dest ≠ .sink)
  match held with
  | none => .next s
  | some x =>
    if vc = 0 then .next s
    else
      let h := routerHalf r
      let cut := match fabIn r outPort with | some p => (s.fab p).wdogCut | none => (s.spnHalf h).cut
      let s := s.updSpn h fun y => { y with events := satAdd y.events 1 }
      let s : State := match fabIn r outPort with | some p => s.updFab p fun f => { f with wdog := true } | none => s
      let s := s.recordAt .watchdog (isEast h) (routerNo r)
        [BitVec.ofNat 32 (routerNo r), BitVec.ofNat 32 outPort, vc.setWidth 32]
      .next (s.when cut (·.cutAt r x))

/-! ## Fabric ports (R451 to R455) -/

/-- FAB_PORT_ENABLE: enable is 1 and the peer transmits. -/
def execFabPortEnable (p : FabPort) (s : State) : Host.Outcome State Fault Refusal :=
  if (s.fab p).enable ∧ (s.fab p).state = .down then .next (s.updFab p fun f => { f with state := .train, lanes := 0 })
  else .next s

/-- A write of FAB_CTL (R452, R466). -/
def State.writeFabCtl (s : State) (p : Nat) (v : Word) : State :=
  let on := bit v 31
  let s := s.updFab p fun f =>
    { f with pmd := if f.enable then f.pmd else v.extractLsb' 29 2, wdogCut := bit v 28, wdogExp := v.extractLsb' 16 4 }
  if on then s.updFab p fun f => { f with enable := true }
  else
    let s := s.when (decide ((s.fab p).state = .up)) fun s => s.emit (.downMarker (Fin.ofNat 17 p))
    (s.fabDown p 1).updFab p fun f => { f with enable := false }

/-- FAB_TRAIN_DONE: all 8 lanes; the measurement of R195 begins. -/
def execFabTrainDone (p : FabPort) (s : State) : Host.Outcome State Fault Refusal :=
  if (s.fab p).state = .train then
    .next ((s.updFab p fun f => { f with state := .measure, lanes := 0xFF }).emit (.exchange p 256))
  else .next s

/-- FAB_TRAIN_FAIL (R446). -/
def execFabTrainFail (p : FabPort) (lanes : BitVec 8) (s : State) : Host.Outcome State Fault Refusal :=
  if (s.fab p).state = .train then .next ((s.updFab p fun f => { f with lanes := lanes }).fabDown p 2) else .next s

/-- This chip's identity block (R453). -/
def State.myIdentity (s : State) (p : Nat) : PeerId :=
  ⟨s.fuse.serial, BitVec.ofNat 5 p, BitVec.ofNat 8 s.fuse.grade.code, s.fuse.letter, s.fuse.digit⟩

/-- FAB_MEASURE_DONE: a flight of at most 640 ns in compute cycles of the port's half (R195, R196, R450, R452). -/
def execFabMeasureDone (p : FabPort) (xs : List Exchange) (s : State) : Host.Outcome State Fault Refusal :=
  if (s.fab p).state ≠ .measure ∨ xs.length ≠ 256 then .next s
  else if 640 * s.mhz (portRing p) < flightOf xs * 1000 then .next (s.fabDown p 6)
  else
    let s := (s.loadFlight p xs).updFab p fun f => { f with state := .discover }
    .next (s.emit (.identity p (s.myIdentity p)))

/-- FAB_IDENTITY_RECEIVE (R452, R453, R468). -/
def execFabIdentityReceive (p : FabPort) (id : PeerId) (s : State) : Host.Outcome State Fault Refusal :=
  if (s.fab p).state = .discover then
    .next (s.updFab p fun f =>
      { f with state := .up, peerValid := true, peerSerial := id.serial, peerPort := id.port, peerGrade := id.grade
               peerLetter := id.revLetter, peerDigit := id.revDigit })
  else .next s

/-- FAB_LOCK_LOST (R446, R452). -/
def execFabLockLost (p : FabPort) (s : State) : Host.Outcome State Fault Refusal :=
  match (s.fab p).state with
  | .measure | .discover | .up => .next (s.fabDown p 3)
  | _ => .next s

/-- FAB_DOWN_MARKER_RECEIVE and FAB_REPLAY_LIMIT (R452). -/
def execFabDownMarkerReceive (p : FabPort) (s : State) : Host.Outcome State Fault Refusal :=
  if (s.fab p).state = .up then .next (s.fabDown p 4) else .next s

def execFabReplayLimit (p : FabPort) (s : State) : Host.Outcome State Fault Refusal :=
  if (s.fab p).state = .up then .next (s.fabDown p 5) else .next s

/-- FAB_LOCAL_RETRY and FAB_REPLAY (R448, R449, R469). -/
def execFabLocalRetry (p : FabPort) (s : State) : Host.Outcome State Fault Refusal :=
  .next ((s.updFab p fun f => { f with localRetry := satAdd f.localRetry 1 }).updLink p fun l => { l with retries := satAdd l.retries 1 })

def execFabReplay (p : FabPort) (s : State) : Host.Outcome State Fault Refusal :=
  .next (((s.updFab p fun f => { f with replay := satAdd f.replay 1 }).updLink p fun l => { l with replays := satAdd l.replays 1 }).emit
    (.replayReq p))

/-- TW_HEARTBEAT_SEND and TW_HEARTBEAT_TIMEOUT (R455, R467; 11 R583; 09 R514; 16 R716). -/
def execTwHeartbeatSend (s : State) : Host.Outcome State Fault Refusal :=
  if s.twUp then .next (s.emit (.heartbeat 16)) else .next s

def execTwHeartbeatTimeout (s : State) : Host.Outcome State Fault Refusal :=
  if s.twUp = false then .next s
  else
    let s := (s.updFab 16 fun f => { f with twinLost := true }).attn .twin
    let s := s.recordAt .fabric true 16 [16, fabRead (chestSel 0) s 16 0x004]
    if s.healx.twin = .paired then .next s.goSolo else .next s

/-- NCN_CRC_ERROR: one retransmission, counted; a second failure of the packet retires the chip (R459, R473; 10 R551). -/
def execNcnCrcError (h : Half) (again : Bool) (s : State) : Host.Outcome State Fault Refusal :=
  if again then .next (s.retireCause 4) else .next (s.updSpn h fun x => { x with retx := satAdd x.retx 1 })

end Sys2Proof.Machine
end

