-- ==== Sys2Proof/Machine/Operands.lean ====
section
/-! DEFINITION. The operand forms of a register write: what a written word does to a field under each access code, and how a word is put together (00 R9; 17 R750). -/

namespace Sys2Proof.Machine

/-- A multi-bit W1C field: cleared only when every bit written to it is 1 (17 R750). -/
def clearOnes {w : Nat} (x v : BitVec w) : BitVec w := if v = BitVec.allOnes w then 0 else x

/-- A one-bit W1C flag (00 R9). -/
def clearBit (x : Bool) (v : Word) (i : Nat) : Bool := x && !bit v i

/-- One 32-bit word of a wider value. -/
def setWord {w : Nat} (x : BitVec w) (i : Nat) (v : Word) : BitVec w :=
  BitVec.ofNat w (x.toNat - x.toNat / 2 ^ (32 * i) % 2 ^ 32 * 2 ^ (32 * i) + v.toNat * 2 ^ (32 * i))

/-- A written word whose field `w` bits wide from bit `lo` is `op`. -/
def setField (v : Word) (lo w op : Nat) : Word :=
  BitVec.ofNat 32 (v.toNat - v.toNat / 2 ^ lo % 2 ^ w * 2 ^ lo + op * 2 ^ lo)

end Sys2Proof.Machine
end

