-- ==== Sys2Proof/Machine/RegWrite.lean ====
section
/-! DEFINITION. What a 32-bit BAR0 write does: every writable field at its offset, the access codes, the owner token (00 R8, R9; 09 R503; 17 R736 to R754). -/

namespace Sys2Proof.Machine

/-! ## Where registers stand (17 R742 to R745; the chapters' field tables) -/

/-- Tile window offsets that hold a register (17 R745). -/
def tileHas (o : Nat) : Bool := [0x000, 0x004, 0x008, 0x00C, 0x010, 0x020].contains o || (decide (0x100 ≤ o) && decide (o < 0x200))

/-- An offset of a block that holds a register. -/
def blockHas (b : Block) (o : Nat) : Bool :=
  let within := fun (lo hi : Nat) => decide (lo ≤ o) && decide (o < hi)
  match b with
  | .top => [0x000, 0x004, 0x008, 0x010, 0x020, 0x024].contains o
  | .rstc => [0x000, 0x004, 0x008, 0x00C, 0x010, 0x014, 0x020].contains o
  | .brup => within 0x000 0x01C || o = 0x020 || o = 0x024 || within 0x8000 0x10000
  | .clk => within 0x000 0x018
  | .pwr => within 0x000 0x018 || [0x020, 0x024, 0x028, 0x200, 0x204, 0x208, 0x300].contains o || within 0x100 0x160
  | .fret => within 0x000 0x030 || within 0x100 0x144
  | .sec => [0x000, 0x004, 0x008, 0x010, 0x070, 0x074, 0x078, 0x07C, 0x100, 0x104, 0x160, 0x164, 0x200, 0x230, 0x300, 0x400].contains o
      || within 0x020 0x064 || within 0x110 0x154 || within 0x210 0x230 || within 0x240 0x280 || within 0x310 0x330
      || within 0x8000 0xA728
  | .bist => [0x000, 0x004, 0x010, 0x014, 0x020, 0x024, 0x028, 0x02C, 0x040, 0x044, 0x048, 0x04C, 0x050].contains o
  | .heal => within 0x000 0x00C || [0x010, 0x014, 0x020, 0x024, 0x028, 0x060, 0x064].contains o || within 0x040 0x054
      || within 0x080 0x090
  | .rel => o = 0x000 || within 0x010 0x038 || o = 0x040 || o = 0x0F8 || within 0x100 0x118 || within 0x120 0x168
  | .chest => within 0x000 0x028 || within 0x040 0x0C0 || within 0x100 0x118 || within 0x200 0x20C || within 0x8000 0x10000
  | .mch => within 0x000 0x024 || within 0x100 0x12C
  | .pcie _ => within 0x000 0x01C || o = 0x020 || o = 0x024
  | .mgt => within 0x000 0x00C || within 0x010 0x030
  | .fab _ => within 0x000 0x014 || within 0x020 0x058 || o = 0x060 || o = 0x064
  | .spn _ => within 0x0000 0x001C || o = 0x0020 || o = 0x0044 || o = 0x0080 || within 0x4000 0x4200 || o = 0x5000 || o = 0x5004
      || within 0x5100 0x5200 || within 0x10000 0x18000 || within 0x40000 0x80000
  | .part _ => [0x200, 0x204, 0x208, 0x210, 0x214, 0x218, 0x21C, 0x220, 0x300, 0x304, 0x308].contains o
  | .clus _ => within 0x100 0x110 || o = 0x180 || o = 0x200 || within 0x1000 0x1200
      || (decide (0x8000 ≤ o) && tileHas ((o - 0x8000) % 0x800))

/-! ## The blocks -/

/-- TOP: the owner operation, and the writing port's copies; the MC has no copy of its own (R501, R514). -/
def State.writeTop (s : State) (w : Writer) (off : Nat) (v : Word) : State :=
  let port : Option HostPort := match w.acc with
    | .portA => some .a
    | .portB => some .b
    | .mc => none
  match port with
  | none => s
  | some p =>
    match off with
    | 0x010 => s.ownerOp p (v.extractLsb' 30 2).toNat
    | 0x020 => s.modTop fun t => { t with cause := t.cause.set p (t.cause.get p &&& ~~~ v.setWidth 14) }
    | 0x024 => s.modTop fun t => { t with mask := t.mask.set p (v.setWidth 14) }
    | _ => s

/-- RSTC (12 R627). -/
def State.writeRstc (s : State) (w : Writer) (off : Nat) (v : Word) : State :=
  match off with
  | 0x000 => s.modRstc fun r => { r with also := clearOnes r.also (v.extractLsb' 16 16) }
  | 0x008 => s.writeRstcReq w v
  | 0x00C => s.modRstc fun r => { r with wdogEn := bit v 31, wdogMs := v.setWidth 16 }
  | 0x010 => s.writeRstcBlk v
  | 0x020 => s.modRstc fun r => { r with fault := bit v 16, gpOe := v.extractLsb' 8 8, gpOut := v.setWidth 8 }
  | _ => s

/-- BRUP, with the aperture onto MC memory (12 R620, R628). -/
def State.writeBrup (s : State) (off : Nat) (v : Word) : State :=
  match off with
  | 0x000 => s.writeBrupCtl v
  | 0x004 => s.modBrup fun b => { b with scriptErr := clearBit b.scriptErr v 29, orderErr := clearBit b.orderErr v 28 }
  | 0x020 => s.modBrup fun b => { b with pushBase := v.setWidth 8 }
  | 0x024 => s.modBrup fun b => { b with pushLen := v.setWidth 24 }
  | _ =>
    if 0x8000 ≤ off then
      s.modBrup fun b => { b with push := Mem.writeZ b.push (b.pushBase.toNat * 0x8000 + (off - 0x8000)) (leBytes 4 v.toNat) }
    else s

/-- CLK (13 R660). -/
def State.writeClk (s : State) (off : Nat) (v : Word) : State :=
  match off with
  | 0x004 => s.writeClkChange v
  | 0x010 => s.writeClkHalf v
  | _ => s

/-- PWR (13 R659). -/
def State.writePwr (s : State) (off : Nat) (v : Word) : State :=
  match off with
  | 0x000 => s.writeBudget v
  | 0x004 => s.modPwr fun p => { p with clamped := clearBit p.clamped v 29, pclamp := clearBit p.pclamp v 27 }
  | 0x010 => s.modPwr fun p =>
      { p with
        parkIdle := v.extractLsb' 24 8, target := v.extractLsb' 16 8, window := v.extractLsb' 12 4
        margin := v.extractLsb' 8 4, minStretch := v.setWidth 6 }
  | 0x020 => s.writePark v
  | 0x024 => s.writeParkAllow v
  | 0x204 => s.modPwr fun p => { p with stackTarget := v.extractLsb' 24 8 }
  | 0x300 => s.writePeg v
  | _ => s

/-- FRET (04 R224 to R233). -/
def State.writeFret (s : State) (off : Nat) (v : Word) : State :=
  match off with
  | 0x008 => s.modFret fun r =>
      { r with
        seamSplit := clearBit r.seamSplit v 20, stretchLate := clearBit r.stretchLate v 19
        abortLate := clearBit r.abortLate v 18, allowShort := clearBit r.allowShort v 17
        alignLost := clearBit r.alignLost v 16, beaconLost := clearBit r.beaconLost v 15 }
  | 0x00C => s.writeFretDomain v
  | 0x010 => s.modFret fun r => { r with horizon := v.extractLsb' 17 12, children := v.setWidth 17 }
  | 0x020 => s.modFret fun r => { r with maxErr := clearOnes r.maxErr (v.extractLsb' 8 8) }
  | 0x028 => s.modFret fun r => { r with abortValid := clearBit r.abortValid v 31 }
  | _ => if 0x100 ≤ off ∧ off < 0x144 then s.writeFlight (Fin.ofNat 17 ((off - 0x100) / 4)) v else s

/-- SEC (14 R689). -/
def State.writeSec (s : State) (w : Writer) (off : Nat) (v : Word) : State :=
  if off = 0x000 then s.modSec fun x => { x with reqErr := clearBit x.reqErr v 24 }
  else if 0x110 ≤ off ∧ off < 0x154 then s.modSec fun x => { x with staged := x.staged.set ((off - 0x110) / 4) v }
  else if 0x310 ≤ off ∧ off < 0x330 then s.modSec fun x => { x with nonce := x.nonce.set ((off - 0x310) / 4) v }
  else match off with
    | 0x004 => s.writeLcReq w v
    | 0x010 => s.writeIdCtl w v
    | 0x078 => s.modIds fun g => { g with ctrErr := clearBit g.ctrErr v 31 }
    | 0x100 => s.modSec fun x => { x with opkSel := x.opkSel.set w.acc (v.setWidth 4) }
    | 0x104 => s.writeOpkCtl w v
    | 0x230 => s.modSec fun x => { x with logSel := x.logSel.set w.acc (v.setWidth 12) }
    | 0x300 => s.writeQuoteCtl v
    | _ => s

/-- BIST (15 R712). -/
def State.writeBist (s : State) (a : Accessor) (off : Nat) (v : Word) : State :=
  match off with
  | 0x000 => s.writeBistCtl v
  | 0x004 => s.modBist fun b => { b with refused := clearBit b.refused v 29 }
  | 0x014 => s.modBist fun b => { b with lastValid := clearBit b.lastValid v 31 }
  | 0x020 => s.modBist fun b => { b with ageSel := b.ageSel.set a (v.setWidth 12) }
  | 0x048 => s.modBist fun b => { b with fSel := b.fSel.set a (v.setWidth 12) }
  | _ => s

/-- HEAL (11 R588). -/
def State.writeHeal (s : State) (a : Accessor) (off : Nat) (v : Word) : State :=
  match off with
  | 0x000 => s.modHeal fun h => { h with rotEn := bit v 31, rotPeriod := v.setWidth 16 }
  | 0x004 => s.writeHealCmd v
  | 0x020 => s.modHeal fun h => { h with clusSel := h.clusSel.set a (v.setWidth 7) }
  | 0x044 => s.modHeal fun h => { h with hangValid := clearBit h.hangValid v 31 }
  | 0x080 => s.writeTwin v
  | _ => s

/-- A digest region's field that is writable only in OFF (10 R556). -/
def State.updDigOff (s : State) (n : Nat) (f : DigSt → DigSt) : State :=
  s.when (decide ((s.dig n).state = .off)) (·.updDig n f)

/-- REL (10 R556). -/
def State.writeRel (s : State) (a : Accessor) (off : Nat) (v : Word) : State :=
  let n := (s.relx.digSel.get a).toNat
  match off with
  | 0x000 => s.modRel fun r =>
      { r with
        reportAll := bit v 31, parThresh := v.extractLsb' 20 4, retryDelay := v.extractLsb' 8 8, retryLimit := v.setWidth 4 }
  | 0x030 => s.modRel fun r => { r with arbValid := clearBit r.arbValid v 31 }
  | 0x100 => s.writeDigCfg v
  | 0x104 => s.modRelx fun r => { r with digSel := r.digSel.set a (v.setWidth 8) }
  | 0x108 => s.updDigOff n fun d => { d with baseLo := v }
  | 0x10C => s.updDigOff n fun d => { d with baseHi := v.setWidth 8 }
  | 0x110 => s.updDigOff n fun d => { d with size := v.setWidth 18 }
  | 0x114 => s.writeDigCtl n v
  | _ =>
    if 0x120 ≤ off ∧ off < 0x140 then s.updDigOff n fun d => { d with ref := setWord d.ref ((off - 0x120) / 4) v } else s

def State.updTrig (s : State) (id : Nat) (f : TrigSt → TrigSt) : State :=
  s.modTel fun t => { t with trigs := Tab.upd {} t.trigs id f }

/-- CHEST (16 R735). -/
def State.writeChest (s : State) (a : Accessor) (off : Nat) (v : Word) : State :=
  let id := (s.tel.trigSel.get a).toNat
  match off with
  | 0x018 => s.modTel fun t => { t with win := t.win.set a (v.extractLsb' 16 3, v.setWidth 4) }
  | 0x020 => s.modTel fun t => { t with trigSel := t.trigSel.set a (v.setWidth 6) }
  | 0x024 => s.updTrig id fun g => { g with enable := bit v 31, count := v.setWidth 6 }
  | 0x108 => s.modTel fun t => { t with strhSel := t.strhSel.set a (v.setWidth 6) }
  | 0x200 => s.modTel fun t => { t with enable := bit v 31, exp := v.extractLsb' 16 5, kinds := v.setWidth 5 }
  | 0x204 => s.modTel fun t => { t with conn := v.setWidth 12 }
  | _ =>
    if 0x040 ≤ off ∧ off < 0x0C0 then
      s.updTrig id fun g => { g with snaps := Tab.put g.snaps ((off - 0x040) / 4) (v.setWidth 25) }
    else s

/-- A connection's fields that are writable only in CLOSED (07 R406 to R408). -/
def State.updClosed (s : State) (n : Nat) (f : ConnSt → ConnSt) : State :=
  s.when (decide ((s.conn n).state = .closed)) (·.updConn n f)

/-- A queue's fields that are writable only in UNBOUND (07 R411 to R415). -/
def State.updUnbound (s : State) (n : Nat) (f : QueueSt → QueueSt) : State :=
  s.when (decide ((s.queue n).state = .unbound)) (·.updQueue n f)

/-- MCH_CONN_CTL (07 R406; 17 R752). -/
def State.writeConnCtl (s : State) (n : Nat) (v : Word) : State :=
  let s := s.updClosed n fun c => { c with nak := bit v 27 }
  let s := s.updConn n fun c => { c with closeLost := clearBit c.closeLost v 1, timeout := clearBit c.timeout v 0 }
  match (v.extractLsb' 28 4).toNat with
  | 1 => s.openConn n
  | 2 => s.closeConn n
  | _ => s

/-- MCH_Q_CFG (07 R411; 17 R752). -/
def State.writeQueueCfg (s : State) (n : Nat) (v : Word) : State :=
  let s := s.updUnbound n fun q =>
    { q with
      sel := bit v 27, kind := v.extractLsb' 24 3, input := v.extractLsb' 21 3, prio := v.extractLsb' 18 3, ep := v.setWidth 14 }
  let s := s.updQueue n fun q => { q with bindErr := clearBit q.bindErr v 17 }
  match (v.extractLsb' 30 2).toNat with
  | 1 => s.bindQueue n
  | 2 => s.when (decide ((s.queue n).state = .bound)) (·.unbindQueue n)
  | _ => s

/-- MCH (07 R405 to R416). -/
def State.writeMch (s : State) (a : Accessor) (off : Nat) (v : Word) : State :=
  let n := (s.mch.connSel.get a).toNat
  let q := (s.mch.qSel.get a).toNat
  match off with
  | 0x000 => s.modMch fun m => { m with connSel := m.connSel.set a (v.setWidth 12) }
  | 0x004 => s.writeConnCtl n v
  | 0x008 => s.updClosed n fun c => { c with srcKind := v.extractLsb' 16 3, srcEp := v.setWidth 14 }
  | 0x00C => s.updClosed n fun c => { c with index := v.extractLsb' 26 6, chip := v.extractLsb' 16 10, queue := v.setWidth 12 }
  | 0x010 => s.updClosed n fun c => { c with grant := v.extractLsb' 16 16 }
  | 0x014 => (s.updConn n fun c => { c with quota := v.setWidth 16 }).flush n
  | 0x100 => s.modMch fun m => { m with qSel := m.qSel.set a (v.setWidth 12) }
  | 0x104 => s.writeQueueCfg q v
  | 0x108 => s.updUnbound q fun x => { x with baseLo := v }
  | 0x10C => s.updUnbound q fun x => { x with baseHi := v }
  | 0x110 => s.updUnbound q fun x => { x with out := v.extractLsb' 16 12, size := v.setWidth 13 }
  | 0x120 => s.updUnbound q fun x =>
      { x with bf16 := bit v 31, rounds := v.extractLsb' 28 3, senders := v.extractLsb' 22 6, elems := v.extractLsb' 11 11 }
  | _ => s

/-- PCIE_A and PCIE_B (09 R515). -/
def State.writePcie (s : State) (p : HostPort) (off : Nat) (v : Word) : State :=
  match off with
  | 0x004 => s.updPcie p fun r => { r with winBase := v.setWidth 4 }
  | 0x008 => s.updPcie p fun r => { r with nqLo := if r.nqEnable then r.nqLo else v }
  | 0x00C => s.updPcie p fun r => { r with nqHi := if r.nqEnable then r.nqHi else v }
  | 0x010 => s.writeNqCfg p v
  | 0x014 => s.writeNqHead p v
  | 0x020 => s.writeRxConsume p v
  | 0x024 => s.updPcie p fun r => { r with consumeErr := clearBit r.consumeErr v 0 }
  | _ => s

/-- MGT (09 R516). -/
def State.writeMgt (s : State) (off : Nat) (v : Word) : State :=
  match off with
  | 0x000 => s.modMgt fun m => mgtCtl m v
  | _ =>
    if 0x010 ≤ off ∧ off < 0x020 then s.updMgmtPort .m0 fun m => { m with ip := setWord m.ip ((off - 0x010) / 4) v }
    else if 0x020 ≤ off ∧ off < 0x030 then s.updMgmtPort .m1 fun m => { m with ip := setWord m.ip ((off - 0x020) / 4) v }
    else s

/-- FAB (08 R466 to R469). -/
def State.writeFab (s : State) (p : Nat) (off : Nat) (v : Word) : State :=
  match off with
  | 0x000 => s.writeFabCtl p v
  | 0x004 => s.updFab p fun f =>
      { f with
        twinLost := clearBit f.twinLost v 3, wdog := clearBit f.wdog v 2, cut := clearBit f.cut v 1, down := clearBit f.down v 0 }
  | 0x050 => s.updFab p fun f => { f with vc0Max := clearOnes f.vc0Max (v.extractLsb' 16 16) }
  | _ => s

/-- A connection to a chip is OPENING, OPEN or DRAINING: its route entry may not be written (08 R474). -/
def State.routeBusy (s : State) (chip : Nat) : Bool :=
  s.mch.conns.any fun e =>
    decide (e.2.chip.toNat = chip) && (decide (e.2.state = .opening) || decide (e.2.state = .opened) || decide (e.2.state = .draining))

/-- One word of a route entry; reserved bits stay 0 (08 R474; 00 R12). -/
def State.writeRoute (s : State) (n k : Nat) (v : Word) : State :=
  if s.routeBusy n then s
  else s.modSpn fun m => { m with routes := Tab.upd {} m.routes n fun e =>
    match k with
    | 0 => { e with w0 := v &&& 0xE01F0007 }
    | 1 => { e with w1 := v }
    | 2 => { e with w2 := v }
    | 3 => { e with w3 := v &&& 0xFFFF }
    | _ => e }

/-- SPN_W and SPN_E; pools, the session table and routes are shared (17 R742). -/
def State.writeSpn (s : State) (h : Half) (a : Accessor) (off : Nat) (v : Word) : State :=
  if 0x5100 ≤ off ∧ off < 0x5200 then
    let n := (off - 0x5100) / 16
    match (off - 0x5100) % 16 with
    | 0 => s.writeKvpBase n v
    | 4 => s.writeKvpGeom n v
    | 8 => s.writeKvpPages n v
    | _ => s
  else if 0x10000 ≤ off ∧ off < 0x18000 then s.writeRoute ((off - 0x10000) / 32) ((off - 0x10000) % 32 / 4) v
  else match off with
    | 0x0000 => s.updSpn h fun x =>
        { x with selHub := x.selHub.set a (v.extractLsb' 8 6), selPort := x.selPort.set a (v.setWidth 3) }
    | 0x0020 => s.updSpn h fun x => { x with cut := bit v 31, exp := v.extractLsb' 16 4 }
    | 0x5000 => s.writeSessTbl v
    | _ => s

/-- PART (05 R290 to R295; 06 R353). -/
def State.writePart (s : State) (p : Nat) (off : Nat) (v : Word) : State :=
  match off with
  | 0x200 => s.updPart p fun q => { q with trainErr := clearBit q.trainErr v 0 }
  | 0x204 => s.updPart p fun q => { q with tWorst := v.extractLsb' 16 8, scrubH := v.setWidth 8 }
  | 0x208 => s.updPart p fun q => { q with outMax := clearOnes q.outMax (v.extractLsb' 16 12) }
  | 0x21C => s.updPart p fun q => { q with ueValid := clearBit q.ueValid v 31 }
  | 0x300 => s.writeLpCfg p v
  | _ => s

/-- A tile window (02 R110, R113; 03 R171, R174). -/
def State.writeTile (s : State) (pt : Nat) (off : Nat) (v : Word) : State :=
  match off with
  | 0x004 => s.updTile pt fun t =>
      { t with
        nanOut := clearBit t.nanOut v 3, convSat := clearBit t.convSat v 2, accSat := clearBit t.accSat v 1
        sramCe := clearBit t.sramCe v 0 }
  | 0x010 => s.updTile pt fun t => { t with ueValid := clearBit t.ueValid v 31 }
  | 0x020 => s.updTile pt fun t => { t with cfgErr := clearBit t.cfgErr v 30 }
  | _ =>
    if 0x100 ≤ off ∧ off < 0x200 then
      s.updTile pt fun t =>
        { t with qs := Tab.upd (0, 0) t.qs ((off - 0x100) / 4) fun q => (clearOnes q.1 (v.extractLsb' 16 13), q.2) }
    else s

/-- CLUS (05 R287, R288; 17 R744 to R747). -/
def State.writeClus (s : State) (c : Nat) (a : Accessor) (off : Nat) (v : Word) : State :=
  if 0x8000 ≤ off then
    match windowIdx ((s.clus c).twinHi.get a) ((off - 0x8000) / 0x800) with
    | some i => if s.windowAnswers (18 * c + i) then s.writeTile (18 * c + i) ((off - 0x8000) % 0x800) v else s
    | none => s
  else if 0x1000 ≤ off ∧ off < 0x1200 then
    if (off - 0x1000) % 8 = 0 then s.updCtx (64 * c + (off - 0x1000) / 8) fun t => { t with underrun := clearBit t.underrun v 25 }
    else s
  else match off with
    | 0x180 => s.updClus c fun x => { x with twinHi := x.twinHi.set a (bit v 0) }
    | 0x200 => s.updClus c fun x => { x with cfgErr := clearBit x.cfgErr v 31 }
    | _ => s

/-! ## The owner token and the whole write -/

/-- A host port may write a register without the token (09 R503; 17 R736). -/
def State.freeWrite (s : State) (p : HostPort) (b : Block) (off : Nat) (v : Word) : Bool :=
  match b with
  | .top => [0x010, 0x020, 0x024].contains off
  | .pcie q => decide (p = q)
  | .mch =>
    let a := p.accessor
    let c := s.conn (s.mch.connSel.get a).toNat
    let q := s.queue (s.mch.qSel.get a).toNat
    let ours := fun (k : BitVec 3) => decide (rxPort k = some p)
    if off = 0x000 ∨ off = 0x100 then true
    else if off < 0x100 then
      decide (txPort c.srcKind = some p) && (decide (off ≠ 0x008) || decide (v.extractLsb' 16 3 = c.srcKind))
    else if off = 0x104 ∧ q.state = .unbound then ours (v.extractLsb' 24 3)
    else ours q.kind
  | _ => false

/-- A host port holds the token. -/
def State.holdsToken (s : State) (p : HostPort) : Bool := decide (s.top.owner = p.owner)

/-- What a write does to a block that answers it. -/
def State.blockWrite (s : State) (w : Writer) (b : Block) (off : Nat) (v : Word) : State :=
  match b with
  | .top => s.writeTop w off v
  | .rstc => s.writeRstc w off v
  | .brup => s.writeBrup off v
  | .clk => s.writeClk off v
  | .pwr => s.writePwr off v
  | .fret => s.writeFret off v
  | .sec => s.writeSec w off v
  | .bist => s.writeBist w.acc off v
  | .heal => s.writeHeal w.acc off v
  | .rel => s.writeRel w.acc off v
  | .chest => s.writeChest w.acc off v
  | .mch => s.writeMch w.acc off v
  | .pcie p => s.writePcie p off v
  | .mgt => s.writeMgt off v
  | .fab n => s.writeFab n off v
  | .spn h => s.writeSpn h w.acc off v
  | .part p => s.writePart p off v
  | .clus c => s.writeClus c w.acc off v

/-- The write needs the token and its port does not hold it (09 R503; 17 R739). -/
def State.writeDenied (s : State) (w : Writer) (b : Block) (off : Nat) (v : Word) : Bool :=
  match w.acc with
  | .mc => false
  | .portA => !s.holdsToken .a && !s.freeWrite .a b off v
  | .portB => !s.holdsToken .b && !s.freeWrite .b b off v

/-- A register answers (17 R736: SEC_LC and SEC_ROOT from BU0, the rest of SEC from BU1). -/
def State.regAnswers (s : State) (b : Block) (off : Nat) : Bool :=
  s.answers b && (decide (b ≠ .sec) || decide (off = 0x000) || decide (off = 0x008) || s.passed 1)

/-- A 32-bit write to BAR0 (00 R8, R11; 01 R46; 09 R476, R503): nothing happens where no register answers; a write that
wants the token counts in TOP_OWNER.denied. -/
def State.bar0Write (s : State) (w : Writer) (off : Nat) (v : Word) : State :=
  if off % 4 ≠ 0 then s
  else match blockOf off with
    | none => s
    | some (b, o) =>
      if !blockHas b o ∨ !s.regAnswers b o then s
      else if s.writeDenied w b o v then s.denyWrite
      else s.blockWrite w b o v

end Sys2Proof.Machine
end

