-- ==== Sys2Proof/Machine/Access.lean ====
section
/-! DEFINITION. BAR0 accesses as commands: a register write, multi-word accesses, latching reads, and the operations that a register's op field names (00 R8 to R16, R781; 17 R748 to R754). -/

namespace Sys2Proof.Machine

/-- A read of BAR0 by an accessor: the value, and the latch of the pair where the offset is a LO (00 R15; 17 R754) or
CHEST_OLD (16 R728). -/
def State.bar0Read (s : State) (a : Accessor) (off : Nat) : Word × State :=
  let x := s.selOf a
  let v := bar0Value x s off
  match (if off % 4 = 0 then blockOf off else none) with
  | none => (v, s)
  | some (b, o) =>
    if !s.regAnswers b o then (v, s)
    else if pairLo b o then
      (v, s.modLatches fun t => Tab.put t (latchKey a (off + 4)) (bar0Value { x with latch := none } s (off + 4)))
    else if b = .chest ∧ o = 0x00C then
      (v, s.modTel fun t => { t with oldPos := t.oldPos.set a (BitVec.ofNat 32 s.chest.oldPos) })
    else (v, s)

/-- An accessor's write of one register. -/
def State.accWrite (s : State) (a : Accessor) (off : Nat) (v : Word) : State := s.bar0Write { acc := a } off v

/-- REGISTER_WRITE: `len` bytes at `off`; a width other than 32 bits has no effect (00 R8). -/
def execRegisterWrite (acc : Accessor) (off len : Nat) (v : Word) (s : State) : Host.Outcome State Fault Refusal :=
  if len = 4 then .next (s.accWrite acc off v) else .next s

/-- One word of a multi-word read; without all its byte enables it reads 0 (00 R8, R781). -/
def readWord (acc : Accessor) (off : Nat) (r : List Word × State) (x : Bool × Nat) : List Word × State :=
  if x.1 then
    let y := r.2.bar0Read acc (off + 4 * x.2)
    (r.1 ++ [y.1], y.2)
  else (r.1 ++ [0], r.2)

/-- BAR0_MULTIWORD_ACCESS: one 32-bit access a word, in ascending order (00 R781). An access that does not start aligned
has no effect and reads 0 (00 R8). -/
def execBar0MultiwordAccess (acc : Accessor) (off : Nat) (m : MultiWord) (s : State) : Host.Outcome State Fault Refusal :=
  match m with
  | .write ws =>
    if off % 4 ≠ 0 then .next s
    else .next (s.each ws.zipIdx fun s x => if x.1.full then s.accWrite acc (off + 4 * x.2) x.1.v else s)
  | .read full =>
    if off % 4 ≠ 0 then .next (s.emit (.data acc (full.map fun _ => 0)))
    else
      let r := full.zipIdx.foldl (readWord acc off) ([], s)
      .next (r.2.emit (.data acc r.1))

/-- COUNTER_LO_READ: the LO value, and the HI latched (00 R15; 17 R754). -/
def execCounterLoRead (acc : Accessor) (off : Nat) (s : State) : Host.Outcome State Fault Refusal :=
  let r := s.bar0Read acc off
  .next (r.2.emit (.data acc [r.1]))

/-- CHEST_OLD_READ (16 R728). -/
def execChestOldRead (acc : Accessor) (s : State) : Host.Outcome State Fault Refusal :=
  let r := s.bar0Read acc 0xA000C
  .next (r.2.emit (.data acc [r.1]))

/-- FRET_DOMAIN_WRITE (04 R194, R225). -/
def execFretDomainWrite (acc : Accessor) (v : Word) (s : State) : Host.Outcome State Fault Refusal :=
  .next (s.accWrite acc 0x5000C v)

/-- CLK_CHANGE_GO: CLK_CHANGE with go 1 (13 R640). -/
def execClkChangeGo (acc : Accessor) (v : Word) (s : State) : Host.Outcome State Fault Refusal :=
  .next (s.accWrite acc 0x30004 (setField v 31 1 1))

/-- CLK_HALF_SET (13 R641). -/
def execClkHalfSet (acc : Accessor) (v : Word) (s : State) : Host.Outcome State Fault Refusal :=
  .next (s.accWrite acc 0x30010 (setField v 30 2 1))

/-- CLK_HALF_RESTORE (13 R641). -/
def execClkHalfRestore (acc : Accessor) (v : Word) (s : State) : Host.Outcome State Fault Refusal :=
  .next (s.accWrite acc 0x30010 (setField v 30 2 2))

/-- CONN_OPEN: MCH_CONN_CTL op OPEN on the connection the accessor selects (07 R366, R406). -/
def execConnOpen (acc : Accessor) (v : Word) (s : State) : Host.Outcome State Fault Refusal :=
  .next (s.accWrite acc 0xB0004 (setField v 28 4 1))

/-- CONN_CLOSE (07 R389, R406). -/
def execConnClose (acc : Accessor) (v : Word) (s : State) : Host.Outcome State Fault Refusal :=
  .next (s.accWrite acc 0xB0004 (setField v 28 4 2))

/-- QUEUE_BIND: MCH_Q_CFG op BIND on the queue the accessor selects (07 R411). -/
def execQueueBind (acc : Accessor) (v : Word) (s : State) : Host.Outcome State Fault Refusal :=
  .next (s.accWrite acc 0xB0104 (setField v 30 2 1))

/-- QUEUE_UNBIND (07 R392). -/
def execQueueUnbind (acc : Accessor) (v : Word) (s : State) : Host.Outcome State Fault Refusal :=
  .next (s.accWrite acc 0xB0104 (setField v 30 2 2))

/-- DIGEST_ENABLE: REL_DIG_CTL op enable on the region the accessor selects (10 R548). -/
def execDigestEnable (acc : Accessor) (v : Word) (s : State) : Host.Outcome State Fault Refusal :=
  .next (s.accWrite acc 0x90114 (setField v 30 2 1))

/-- DIGEST_DISABLE (10 R548). -/
def execDigestDisable (acc : Accessor) (v : Word) (s : State) : Host.Outcome State Fault Refusal :=
  .next (s.accWrite acc 0x90114 (setField v 30 2 2))

/-- DIGEST_VERIFY (10 R548). -/
def execDigestVerify (acc : Accessor) (v : Word) (s : State) : Host.Outcome State Fault Refusal :=
  .next (s.accWrite acc 0x90114 (setField v 30 2 3))

/-- DIGEST_CFG_WRITE (10 R546). -/
def execDigestCfgWrite (acc : Accessor) (v : Word) (s : State) : Host.Outcome State Fault Refusal :=
  .next (s.accWrite acc 0x90100 v)

/-- HEAL_FENCE (11 R558). -/
def execHealFence (acc : Accessor) (v : Word) (s : State) : Host.Outcome State Fault Refusal :=
  .next (s.accWrite acc 0x80004 (setField v 29 3 1))

/-- HEAL_ROTATE (11 R566). -/
def execHealRotate (acc : Accessor) (v : Word) (s : State) : Host.Outcome State Fault Refusal :=
  .next (s.accWrite acc 0x80004 (setField v 29 3 2))

/-- HEAL_PARTITION_RECOVERY (11 R577). -/
def execHealPartitionRecovery (acc : Accessor) (v : Word) (s : State) : Host.Outcome State Fault Refusal :=
  .next (s.accWrite acc 0x80004 (setField v 29 3 3))

/-- TWIN_ATTACH_SOURCE (11 R583). -/
def execTwinAttachSource (acc : Accessor) (v : Word) (s : State) : Host.Outcome State Fault Refusal :=
  .next (s.accWrite acc 0x80080 (setField v 30 2 1))

/-- TWIN_ATTACH_SINK (11 R583). -/
def execTwinAttachSink (acc : Accessor) (v : Word) (s : State) : Host.Outcome State Fault Refusal :=
  .next (s.accWrite acc 0x80080 (setField v 30 2 2))

/-- TWIN_DETACH (11 R583). -/
def execTwinDetach (acc : Accessor) (v : Word) (s : State) : Host.Outcome State Fault Refusal :=
  .next (s.accWrite acc 0x80080 (setField v 30 2 3))

/-- RSTC_REQ_CORE: the written word carries the key (12 R593, R627). -/
def execRstcReqCore (acc : Accessor) (v : Word) (s : State) : Host.Outcome State Fault Refusal :=
  .next (s.accWrite acc 0x10008 (setField v 0 2 1))

/-- RSTC_REQ_SYSTEM (12 R593, R627). -/
def execRstcReqSystem (acc : Accessor) (v : Word) (s : State) : Host.Outcome State Fault Refusal :=
  .next (s.accWrite acc 0x10008 (setField v 0 2 2))

/-- BLK_MAINTENANCE_RESET (12 R598). -/
def execBlkMaintenanceReset (acc : Accessor) (v : Word) (s : State) : Host.Outcome State Fault Refusal :=
  .next (s.accWrite acc 0x10010 (setField v 30 2 1))

/-- BLK_RECOVERY_RESET (12 R601). -/
def execBlkRecoveryReset (acc : Accessor) (v : Word) (s : State) : Host.Outcome State Fault Refusal :=
  .next (s.accWrite acc 0x10010 (setField v 30 2 2))

/-- BRUP_START_STAGE (12 R605). -/
def execBrupStartStage (acc : Accessor) (v : Word) (s : State) : Host.Outcome State Fault Refusal :=
  .next (s.accWrite acc 0x20000 (setField v 28 4 1))

/-- BRUP_PAUSE (12 R612). -/
def execBrupPause (acc : Accessor) (v : Word) (s : State) : Host.Outcome State Fault Refusal :=
  .next (s.accWrite acc 0x20000 (setField v 28 4 2))

/-- BRUP_RESUME (12 R612). -/
def execBrupResume (acc : Accessor) (v : Word) (s : State) : Host.Outcome State Fault Refusal :=
  .next (s.accWrite acc 0x20000 (setField v 28 4 3))

/-- BRUP_BOOT_PUSHED (12 R620). -/
def execBrupBootPushed (acc : Accessor) (v : Word) (s : State) : Host.Outcome State Fault Refusal :=
  .next (s.accWrite acc 0x20000 (setField v 28 4 4))

/-- BRUP_PROGRAM (12 R621). -/
def execBrupProgram (acc : Accessor) (v : Word) (s : State) : Host.Outcome State Fault Refusal :=
  .next (s.accWrite acc 0x20000 (setField v 28 4 5))

/-- PWR_PARK_NOW (13 R633). -/
def execPwrParkNow (acc : Accessor) (v : Word) (s : State) : Host.Outcome State Fault Refusal :=
  .next (s.accWrite acc 0x40020 (setField v 30 2 1))

/-- BUDGET_WRITE (13 R646). -/
def execBudgetWrite (acc : Accessor) (v : Word) (s : State) : Host.Outcome State Fault Refusal :=
  .next (s.accWrite acc 0x40000 v)

/-- PEG_RETUNE_ALL (13 R658). -/
def execPegRetuneAll (acc : Accessor) (v : Word) (s : State) : Host.Outcome State Fault Refusal :=
  .next (s.accWrite acc 0x40300 (setField v 30 2 1))

/-- LC_TRANSITION_REQUEST: the written word carries the key and the target (14 R664). -/
def execLcTransitionRequest (acc : Accessor) (v : Word) (s : State) : Host.Outcome State Fault Refusal :=
  .next (s.accWrite acc 0x60004 v)

/-- ID_GENERATE (14 R670). -/
def execIdGenerate (acc : Accessor) (v : Word) (s : State) : Host.Outcome State Fault Refusal :=
  .next (s.accWrite acc 0x60010 (setField v 30 2 1))

/-- OPK_WRITE: the slot the accessor selects (14 R679). -/
def execOpkWrite (acc : Accessor) (v : Word) (s : State) : Host.Outcome State Fault Refusal :=
  .next (s.accWrite acc 0x60104 (setField v 30 2 1))

/-- OPK_ERASE (14 R679). -/
def execOpkErase (acc : Accessor) (v : Word) (s : State) : Host.Outcome State Fault Refusal :=
  .next (s.accWrite acc 0x60104 (setField v 30 2 2))

/-- QUOTE_REQUEST (14 R684). -/
def execQuoteRequest (acc : Accessor) (v : Word) (s : State) : Host.Outcome State Fault Refusal :=
  .next (s.accWrite acc 0x60300 (setField v 30 2 1))

/-- SHUTDOWN_TEST_START (15 R704). -/
def execShutdownTestStart (acc : Accessor) (v : Word) (s : State) : Host.Outcome State Fault Refusal :=
  .next (s.accWrite acc 0x70000 (setField v 30 2 1))

/-- FLIGHT_REMEASURE: FRET_FLIGHTn.remeasure written 1 (04 R195, R233). -/
def execFlightRemeasure (acc : Accessor) (port : FabPort) (s : State) : Host.Outcome State Fault Refusal :=
  .next (s.accWrite acc (0x50100 + 4 * port.val) 0x80000000)

/-- LP_FLUSH: PART_LP_CFG with flush 1 (06 R312, R353). -/
def execLpFlush (acc : Accessor) (p : Part) (v : Word) (s : State) : Host.Outcome State Fault Refusal :=
  .next (s.accWrite acc (0x400300 + p.val * 0x10000) (setField v 30 1 1))

/-- KVP_ENABLE: SPN_KVP_BASEn with enable 1 (06 R346). -/
def execKvpEnable (acc : Accessor) (n : Fin 16) (v : Word) (s : State) : Host.Outcome State Fault Refusal :=
  .next (s.accWrite acc (0x205100 + 16 * n.val) (setField v 31 1 1))

/-- FAB_PORT_DISABLE: FAB_CTL with enable 0 (08 R452, R466). -/
def execFabPortDisable (acc : Accessor) (p : FabPort) (v : Word) (s : State) : Host.Outcome State Fault Refusal :=
  .next (s.accWrite acc (0x100000 + p.val * 0x1000) (setField v 31 1 0))

/-- The base of a PCIe port's block (17 R736). -/
def pcieBase : HostPort → Nat
  | .a => 0xC0000
  | .b => 0xD0000

/-- NQ_HEAD_WRITE (09 R492). -/
def execNqHeadWrite (acc : Accessor) (port : HostPort) (v : Word) (s : State) : Host.Outcome State Fault Refusal :=
  .next (s.accWrite acc (pcieBase port + 0x014) v)

/-- RX_CONSUME (09 R495, R497). -/
def execRxConsume (acc : Accessor) (port : HostPort) (v : Word) (s : State) : Host.Outcome State Fault Refusal :=
  .next (s.accWrite acc (pcieBase port + 0x020) v)

/-- OWNER_CLAIM (09 R501). -/
def execOwnerClaim (acc : Accessor) (s : State) : Host.Outcome State Fault Refusal := .next (s.accWrite acc 0x10 0x40000000)

/-- OWNER_RELEASE (09 R501). -/
def execOwnerRelease (acc : Accessor) (s : State) : Host.Outcome State Fault Refusal := .next (s.accWrite acc 0x10 0x80000000)

/-- OWNER_GIVE (09 R501). -/
def execOwnerGive (acc : Accessor) (s : State) : Host.Outcome State Fault Refusal := .next (s.accWrite acc 0x10 0xC0000000)

/-- PWR_WAKE: PWR_PARK op wake, or PWR_PARK_ALLOW (13 R635). -/
def execPwrWake (acc : Accessor) (byAllow : Bool) (v : Word) (s : State) : Host.Outcome State Fault Refusal :=
  if byAllow then .next (s.accWrite acc 0x40024 v) else .next (s.accWrite acc 0x40020 (setField v 30 2 2))

end Sys2Proof.Machine
end

