-- ==== Sys2Proof/Machine/Mgmt.lean ====
section
/-! DEFINITION. The management ports: links, neighbour discovery and echo, and the signed commands (09 R508 to R513; 10 R555; 13 R647; 14 R663, R680, R684; 16 R729). -/

namespace Sys2Proof.Machine

/-! ## Links (R508, R516) -/

/-- MGT_CTL's enable of a port. -/
def MgtSt.enable (m : MgtSt) : MgmtPort → Bool
  | .m0 => m.en0
  | .m1 => m.en1

/-- MGT_CTL's mode of a port. -/
def MgtSt.mode (m : MgtSt) : MgmtPort → Bool
  | .m0 => m.mode0
  | .m1 => m.mode1

/-- MGT_PORT_LINK_UP: from BU3, an enabled port links up with what MGT_CTL and its address hold now (R516; 12 R606). -/
def execMgtPortLinkUp (port : MgmtPort) (s : State) : Host.Outcome State Fault Refusal :=
  if s.passed 3 ∧ s.mgt.enable port then
    let m := s.mgt
    .next (s.updMgmtPort port fun r =>
      { r with up := true, ipUsed := r.ip, enUsed := true, modeUsed := m.mode port, udpUsed := m.udp })
  else .next s

/-- MGT_PORT_LINK_DOWN (R516). -/
def execMgtPortLinkDown (port : MgmtPort) (s : State) : Host.Outcome State Fault Refusal :=
  .next (s.updMgmtPort port fun r => { r with up := false })

/-- MGT_ND_ECHO: a port answers neighbour discovery and echo at its own address (R508). -/
def execMgtNdEcho (port : MgmtPort) (dst : BitVec 128) (echo : Bool) (payload : List Byte) (s : State) :
    Host.Outcome State Fault Refusal :=
  if (s.mgmtPort port).up ∧ dst = (s.mgmtPort port).ipUsed then
    .next (s.emit (.neighbour port (if echo then payload else leBytes 16 dst.toNat)))
  else .next s

/-! ## The checks and the reply (R509 to R511) -/

/-- The operator key a datagram names (14 R678). -/
def State.keyOf (s : State) (d : Datagram) : Option (BitVec 3 × BitVec 544 × BitVec 64) := Tab.find s.sec.cache d.slot.toNat

/-- The datagram is dropped: version, serial number, key slot or signature (R510). -/
def State.rejects (s : State) (d : Datagram) : Bool :=
  decide (d.version ≠ 1) || decide (d.serial ≠ s.fuse.serial) || (s.keyOf d).isNone || !d.good

/-- The sequence number was executed before (R511). -/
def State.isRepeat (s : State) (d : Datagram) : Bool :=
  match s.keyOf d with
  | some k => decide (d.seq.toNat ≤ k.2.2.toNat)
  | none => false

/-- The security block can answer: the identity key exists and a leaf can be had (14 R670, R677). -/
def State.mayReply (s : State) : Bool := decide (s.ids.state = .ready) && s.canSign

/-- The header of the reply: the command's own with its code | 0x80 (R510). -/
def replyHeader (d : Datagram) (code : BitVec 8) : List Byte := d.header.set 1 (code ||| 0x80)

/-- The reply is queued for its signature and counted; without a leaf none is sent (R510, R516; 14 R677). -/
def State.replyMgmt (s : State) (d : Datagram) (code result : BitVec 8) (b : List Byte) : State :=
  if s.mayReply then
    (s.updMgmtPort d.port fun r => { r with accepted := satAdd r.accepted 1 }).askSign
      (.reply d.port (replyHeader d code ++ (result :: b)))
  else s

/-- The sequence number goes to the security area of the flash and the key cache before the command executes (14 R680). -/
def State.storeSeq (s : State) (d : Datagram) : State :=
  match s.keyOf d with
  | none => s
  | some k =>
    let e := (k.1, k.2.1, d.seq)
    (s.modFlash fun f => { f with opKeys := Tab.put f.opKeys d.slot.toNat e }).modSec fun x =>
      { x with cache := Tab.put x.cache d.slot.toNat e }

/-- A command changed state: attention cause mgmt on both ports and an MGMT record with bytes 0 to 23 of the header (R514; 16
R716). -/
def State.mgmtChanged (old s : State) (d : Datagram) : State :=
  s.when (decide (s ≠ old)) fun s =>
    (s.attn .mgmt).record .mgmt ((List.range 6).map fun i => BitVec.ofNat 32 (leAt d.header (4 * i) 4))

/-- The bytes 1 to 3 of a reply that a command leaves 0. -/
def noBytes : List Byte := [0, 0, 0]

/-- What a command answers: a result other than done with no effect, or its effect and bytes 1 to 3 of the reply. -/
inductive Verdict where
  | no (result : BitVec 8)
  | done (t : State) (b : List Byte)

/-- A command datagram: dropped and counted, busy with the signature queue full or when its sequence number cannot be
written, a repeat, or executed (R508 to R511; 14
R663, R672, R680). `slots` is the number of signatures it needs; a busy answer waits behind the queue (log entry 45). -/
def State.mgmtCommand (s : State) (d : Datagram) (code : BitVec 8) (slots : Nat) (f : State → Verdict) : State :=
  if !(s.mgmtPort d.port).up ∨ s.sec.lc = .final then s
  else if s.rejects d then s.updMgmtPort d.port fun r => { r with rejected := satAdd r.rejected 1 }
  else if s.mayReply ∧ 16 < s.ids.queue.length + slots then s.replyMgmt d code 4 noBytes
  else if s.isRepeat d then s.replyMgmt d code 1 noBytes
  else match f (s.storeSeq d) with
    | .no result => s.replyMgmt d code result noBytes
    | .done t b => if s.flash.seqOk then State.replyMgmt t d code 0 b else s.replyMgmt d code 4 noBytes

/-- An executed command that changes state. -/
def State.changes (s : State) (d : Datagram) (t : State) : State := State.mgmtChanged s t d

/-! ## The commands (R512, R513) -/

/-- Reset sources of the management ports: 0x7 for M0, 0x8 for M1 (12 R591). -/
def mgmtSource : MgmtPort → BitVec 4
  | .m0 => 7
  | .m1 => 8

/-- MGMT_SYSTEM_RESET: an orderly system reset, after the reply (12 R593). -/
def execMgmtSystemReset (d : Datagram) (s : State) : Host.Outcome State Fault Refusal :=
  .next (s.mgmtCommand d 0x01 1 fun s => .done (s.changes d (s.requestReset .system (mgmtSource d.port) false)) noBytes)

/-- MGMT_CORE_RESET (12 R593). -/
def execMgmtCoreReset (d : Datagram) (s : State) : Host.Outcome State Fault Refusal :=
  .next (s.mgmtCommand d 0x02 1 fun s => .done (s.changes d (s.requestReset .core (mgmtSource d.port) false)) noBytes)

/-- MGMT_ASSIGN_OWNER: body byte 0 names none, A or B (R501, R512); another value changes nothing (log entry 46). -/
def execMgmtAssignOwner (d : Datagram) (s : State) : Host.Outcome State Fault Refusal :=
  .next (s.mgmtCommand d 0x03 1 fun s =>
    let t := match (d.body.getD 0 0).toNat with
      | 0 => s.setOwner .none
      | 1 => s.setOwner .a
      | 2 => s.setOwner .b
      | _ => s
    .done (s.changes d t) noBytes)

/-- MGMT_SET_BUDGET: the reply says whether the floor clamped it, and the effective budget (13 R647). -/
def execMgmtSetBudget (d : Datagram) (s : State) : Host.Outcome State Fault Refusal :=
  .next (s.mgmtCommand d 0x04 1 fun s =>
    let t := s.setMgmtBudget (BitVec.ofNat 16 (leAt d.body 0 2))
    let low := decide (t.budgetTerm * 8 < 1360 + 65 * t.unparked)
    .done (s.changes d t) (BitVec.ofNat 8 low.toNat :: leBytes 2 t.budget))

/-- MGMT_CHEST_CLEAR: the areas of body byte 0 (16 R729). -/
def execMgmtChestClear (d : Datagram) (s : State) : Host.Outcome State Fault Refusal :=
  .next (s.mgmtCommand d 0x05 1 fun s =>
    let areas := d.body.getD 0 0
    .done (s.changes d (s.clearChest areas (d.slot.setWidth 32))) [areas &&& 3, 0, 0])

/-- The retire flag cleared, in flash too; RDYBSY and FAULT_N follow it (10 R555; 09 R505, R507; 12 R597). -/
def State.clearRetire (s : State) : State :=
  let s := s.modRelx fun r => { r with retFlag := false, retState := .none, retCause := 0 }
  (s.modFlash fun f => { f with retFlag := false, retCause := 0 }).readyPins

/-- MGMT_CLEAR_RETIRE: only in RETURN (10 R555; 14 R663). -/
def execMgmtClearRetire (d : Datagram) (s : State) : Host.Outcome State Fault Refusal :=
  .next (s.mgmtCommand d 0x06 1 fun s => if s.sec.lc = .ret then .done (s.changes d s.clearRetire) noBytes else .no 2)

/-- MGMT_QUOTE: the reply with bits 23:0 of the quote sequence, then a datagram with code 0xC7 that carries the quote and
its signature (14 R684). -/
def execMgmtQuote (d : Datagram) (s : State) : Host.Outcome State Fault Refusal :=
  let seq := s.sec.quoteSeq
  let t := s.mgmtCommand d 0x07 2 fun s =>
    .done (s.modSec fun x => { x with quoteSeq := x.quoteSeq + 1 }) (leBytes 3 seq.toNat)
  let nonce := (List.range 32).map fun i => d.body.getD i 0
  .next (t.when (decide (t.sec.quoteSeq ≠ seq) && s.mayReply) fun t =>
    t.askSign (.quote (some (d.port, d.header.set 1 0xC7)) nonce seq))

/-- MGMT_WRITE_REG: an MC write under the datagram's key; a body that is not 8 bytes long is answered 0x03 (R503, R513; 17
R739). -/
def execMgmtWriteReg (d : Datagram) (s : State) : Host.Outcome State Fault Refusal :=
  .next (s.mgmtCommand d 0x08 1 fun s =>
    if d.body.length ≠ 8 then .no 3
    else
      let w : Writer := { acc := .mc, signed := some (d.port, d.slot.toNat) }
      .done (s.changes d (s.bar0Write w (leAt d.body 0 4) (BitVec.ofNat 32 (leAt d.body 4 4)))) noBytes)

/-- MGMT_UNKNOWN_COMMAND: a code outside the table of R512 is answered 0x03 (R510). -/
def execMgmtUnknownCommand (d : Datagram) (code : BitVec 8) (s : State) : Host.Outcome State Fault Refusal :=
  if 1 ≤ code.toNat ∧ code.toNat ≤ 8 then .next s else .next (s.mgmtCommand d code 1 fun _ => .no 3)

end Sys2Proof.Machine
end

