-- ==== Sys2Proof/Machine/Script.lean ====
section
/-! DEFINITION. The configuration sequencer: the replay of the bring-up script, record by record (12 R610 to R615). -/

namespace Sys2Proof.Machine

/-- SCRIPT_REPLAY_START: in autonomous mode, after BU1, from the cold or the core entry (R610). -/
def execScriptReplayStart (s : State) : Host.Outcome State Fault Refusal :=
  let b := s.brup
  if b.auto ∧ b.paused = false ∧ s.passed 1 ∧ b.scriptOk ∧ b.replayed = false ∧ b.running = false then
    let k := if b.restart then s.flash.coreEntry else s.flash.coldEntry
    .next (s.modBrup fun b =>
      { b with running := true, replayed := true, next := k, index := BitVec.ofNat 20 k, wait := .none })
  else .next s

/-- The replay is between records and may run one (R612, R614). -/
def BrupSt.ready (b : BrupSt) : Bool := b.running && decide (b.wait = .none) && !b.paused

/-- The replay ends without an error (R614). -/
def State.endScript (s : State) : State := s.modBrup fun b => { b with running := false, wait := .none }

/-- The next record becomes the one that ran last (R628). -/
def State.advance (s : State) : State :=
  s.modBrup fun b => { b with index := BitVec.ofNat 20 b.next, next := b.next + 1 }

/-- The sequencer takes its next record where that has the given op; a reserved op stops the replay (R613, R614); past the
last record the replay ends as at END (log entry 43). -/
def State.runRecord (s : State) (op : Nat) (f : State → ScriptRec → State) : State :=
  if !s.brup.ready then s
  else match s.flash.script[s.brup.next]? with
    | none => if op = 6 then s.endScript else s
    | some r =>
      if r.op.toNat = op then f s.advance r
      else if r.op = 0 ∨ 6 < r.op.toNat then s.advance.stopScript
      else s

/-- A write that the script may not make: to SEC, or of op 0x4 or 0x5 to BRUP_CTL (R615). -/
def scriptMayNot (off : Nat) (v : Word) : Bool :=
  (decide (0x60000 ≤ off) && decide (off < 0x70000))
    || (decide (off = 0x20000) && (decide (v.extractLsb' 28 4 = (4 : BitVec 4)) || decide (v.extractLsb' 28 4 = (5 : BitVec 4))))

/-- A write of the sequencer, an MC write (R610, R615; 17 R739). -/
def State.seqWrite (s : State) (off : Nat) (v : Word) : State :=
  if scriptMayNot off v then s.stopScript else s.accWrite .mc off v

/-- SCRIPT_WRITE. -/
def execScriptWrite (s : State) : Host.Outcome State Fault Refusal :=
  .next (s.runRecord 1 fun s r => s.seqWrite r.off.toNat r.value)

/-- SCRIPT_MODIFY: (old AND NOT mask) OR (value AND mask). -/
def execScriptModify (s : State) : Host.Outcome State Fault Refusal :=
  .next (s.runRecord 2 fun s r =>
    let x := s.bar0Read .mc r.off.toNat
    x.2.seqWrite r.off.toNat ((x.1 &&& ~~~r.mask) ||| (r.value &&& r.mask)))

/-- SCRIPT_POLL: the sequencer waits. -/
def execScriptPoll (s : State) : Host.Outcome State Fault Refusal :=
  .next (s.runRecord 3 fun s _ => s.modBrup fun b => { b with wait := .poll })

/-- SCRIPT_POLL_MATCH: (register AND mask) equals the value. -/
def execScriptPollMatch (s : State) : Host.Outcome State Fault Refusal :=
  match (if s.brup.wait = .poll then s.flash.script[s.brup.index.toNat]? else none) with
  | none => .next s
  | some r =>
    let x := s.bar0Read .mc r.off.toNat
    if x.1 &&& r.mask = r.value then .next (x.2.modBrup fun b => { b with wait := .none }) else .next x.2

/-- SCRIPT_POLL_TIMEOUT. -/
def execScriptPollTimeout (s : State) : Host.Outcome State Fault Refusal :=
  if s.brup.wait = .poll then .next s.stopScript else .next s

/-- SCRIPT_WAIT. -/
def execScriptWait (s : State) : Host.Outcome State Fault Refusal :=
  .next (s.runRecord 4 fun s _ => s.modBrup fun b => { b with wait := .wait })

/-- SCRIPT_WAIT_EXPIRE. -/
def execScriptWaitExpire (s : State) : Host.Outcome State Fault Refusal :=
  if s.brup.wait = .wait then .next (s.modBrup fun b => { b with wait := .none }) else .next s

/-- SCRIPT_STAGE: a stage that runs already is waited for, and one that has passed is not started again (log entry 43); a
stage that cannot start stops the replay. -/
def execScriptStage (s : State) : Host.Outcome State Fault Refusal :=
  .next (s.runRecord 5 fun s r =>
    let n := r.stage.toNat
    let wait := fun (s : State) => s.modBrup fun b => { b with wait := .stage }
    match s.brup.stages[n]? with
    | none => (s.askStage n (r.arg.setWidth 4)).stopScript
    | some .passed => s
    | some .running => wait s
    | some _ =>
      let s := s.askStage n (r.arg.setWidth 4)
      if s.brup.stages.getD n .notRun = .running then wait s else s.stopScript)

/-- SCRIPT_END. -/
def execScriptEnd (s : State) : Host.Outcome State Fault Refusal := .next (s.runRecord 6 fun s _ => s.endScript)

end Sys2Proof.Machine
end

