-- ==== Sys2Proof/Machine/SessCmds.lean ====
section
/-! DEFINITION. The session commands: applied after the pops, commits and aborts of their fret (06 R319 to R322). -/

namespace Sys2Proof.Machine

/-- The next drawer of a KV use is due in this fret, and pops a session word (06 R324, R325). -/
def State.popDue (s : State) (x : CtxSt) : Bool :=
  match x.use? with
  | none => false
  | some u =>
    match u.kv with
    | none => false
    | some kv =>
      let at' := if u.isWrite then x.drawerFret u x.next + u.period else x.issueFret u x.next
      decide (x.state = .active) && x.live && decide (x.next < u.n) && s.alive x.task
        && decide (x.next % s.kvPer u kv = 0) && decide (at' = s.now)

/-- A task still has its commit or its abort to make in this fret (04 R181, R219). -/
def State.endDue (s : State) (t : TaskRt) : Bool :=
  s.commits t || ((t.abort.map fun a => decide (a.fret = s.now)).getD false && t.busy)

/-- Pops, commits or aborts of this fret are still to come (06 R321). -/
def State.sessDue (s : State) : Bool := s.ctxs.any (fun e => s.popDue e.2) || s.tasks.any (fun e => s.endDue e.2)

/-- A command placed in the engine: applied at once where the fret's pops, commits and aborts have been, else after them; no
command overtakes an earlier one (06 R321). -/
def State.sessPlace (s : State) (op : SessOp) (m : SessCmd) : State :=
  if s.sess.cmds ≠ [] ∨ s.sessDue then s.modSess fun e => { e with cmds := e.cmds ++ [(op, m)] } else s.sessApply op m

/-- SESSION_OPEN (06 R319 to R322). -/
def execSessionOpen (m : SessCmd) (s : State) : Host.Outcome State Fault Refusal := .next (s.sessPlace .opening m)

/-- SESSION_CLOSE (06 R319 to R322). -/
def execSessionClose (m : SessCmd) (s : State) : Host.Outcome State Fault Refusal := .next (s.sessPlace .close m)

/-- SESSION_SET_QUOTA (06 R319 to R322, R336). -/
def execSessionSetQuota (m : SessCmd) (s : State) : Host.Outcome State Fault Refusal := .next (s.sessPlace .setQuota m)

/-- SESSION_QUERY (06 R319 to R321). -/
def execSessionQuery (m : SessCmd) (s : State) : Host.Outcome State Fault Refusal := .next (s.sessPlace .query m)

/-- SESSION_RESERVED_OPCODE: OVER_QUOTA with detail 5, nothing changes (06 R319, R320). -/
def execSessionReservedOpcode (m : SessCmd) (op : BitVec 8) (s : State) : Host.Outcome State Fault Refusal :=
  .next (s.sessPlace (.reserved op) m)

end Sys2Proof.Machine
end

