-- ==== Sys2Proof/Machine/Tap.lean ====
section
/-! DEFINITION. The TAP: the boundary-scan instructions, the identification register, and TRST_N (14 R685; 18 R767, R774, R775). -/

namespace Sys2Proof.Machine

/-- Boundary-scan instructions other than BYPASS and IDCODE are permitted (14 R685). -/
def State.scanPins (s : State) : Bool := decide (s.sec.lc ≠ .final)

/-- An instruction that the life cycle does not permit acts as BYPASS (14 R685; log entry 44). -/
def State.jtag (s : State) (op : BitVec 8) (drive highz : Bool) (f : State → State) : State :=
  if s.scanPins then f (s.loadIr op drive highz) else s.loadIr op false false

/-- What leaves at TDO: cell 361 lies nearest to it (18 R775). -/
def tdoCells (x : BitVec 362) : List Bool := (List.range 362).reverse.map (bit x)

/-- The update stage of the boundary register. -/
def State.updateCells (s : State) (cells : BitVec 362) : State := s.modTap fun t => { t with boundary := cells }

/-- JTAG_EXTEST. -/
def execJtagExtest (cells : BitVec 362) (s : State) : Host.Outcome State Fault Refusal :=
  .next (s.jtag 0x00 true false (·.updateCells cells))

/-- JTAG_SAMPLE_PRELOAD: the sampled pins leave at TDO, the preloaded cells stay. -/
def execJtagSamplePreload (pins cells : BitVec 362) (s : State) : Host.Outcome State Fault Refusal :=
  .next (s.jtag 0x01 false false fun s => (s.emit (.tdo (tdoCells pins))).updateCells cells)

/-- The device identification register (18 R774). -/
def State.idcode (s : State) : Word := pk [(s.fuse.digit.toNat, 28), (0xEB02, 12), (0x2D7, 1), (1, 0)]

/-- JTAG_IDCODE: permitted in every life-cycle state. -/
def execJtagIdcode (s : State) : Host.Outcome State Fault Refusal :=
  .next ((s.loadIr 0x02 false false).emit (.tdo ((List.range 32).map (bit s.idcode))))

/-- JTAG_CLAMP: the boundary register holds the outputs. -/
def execJtagClamp (s : State) : Host.Outcome State Fault Refusal := .next (s.jtag 0x03 true false id)

/-- JTAG_HIGHZ. -/
def execJtagHighz (s : State) : Host.Outcome State Fault Refusal := .next (s.jtag 0x04 false true id)

/-- JTAG_EXTEST_PULSE. -/
def execJtagExtestPulse (cells : BitVec 362) (s : State) : Host.Outcome State Fault Refusal :=
  .next (s.jtag 0x05 true false (·.updateCells cells))

/-- JTAG_EXTEST_TRAIN. -/
def execJtagExtestTrain (cells : BitVec 362) (s : State) : Host.Outcome State Fault Refusal :=
  .next (s.jtag 0x06 true false (·.updateCells cells))

/-- Opcodes that name another instruction (18 R774). -/
def jtagNamed (op : BitVec 8) : Bool := decide (op.toNat ≤ 6) || decide (op = 0x40) || decide (op = 0x41)

/-- JTAG_BYPASS: 0xFF, or an opcode that names no instruction. -/
def execJtagBypass (opcode : BitVec 8) (s : State) : Host.Outcome State Fault Refusal :=
  if jtagNamed opcode then .next s else .next (s.loadIr opcode false false)

/-- TRST_N_ASSERT: the TAP is in reset (18 R767). -/
def execTrstNAssert (s : State) : Host.Outcome State Fault Refusal :=
  .next (s.modTap fun t => { t with ir := 0x02, drive := false, highz := false, inReset := true })

end Sys2Proof.Machine
end

