-- ==== Sys2Proof/Machine/Dispatch.lean ====
section
/-! DEFINITION. One arm per command: the direct call of its meaning. -/

namespace Sys2Proof.Machine

def exec (i : Instr) (s : State) : Host.Outcome State Fault Refusal :=
  match i with
  | .registerWrite x0 x1 x2 x3 => Sys2Proof.Machine.execRegisterWrite x0 x1 x2 x3 s
  | .bar0MultiwordAccess x0 x1 x2 => Sys2Proof.Machine.execBar0MultiwordAccess x0 x1 x2 s
  | .counterLoRead x0 x1 => Sys2Proof.Machine.execCounterLoRead x0 x1 s
  | .chestOldRead x0 => Sys2Proof.Machine.execChestOldRead x0 s
  | .bar2Read x0 x1 x2 => Sys2Proof.Machine.execBar2Read x0 x1 x2 s
  | .bar2Write x0 x1 x2 => Sys2Proof.Machine.execBar2Write x0 x1 x2 s
  | .fretStart x0 x1 => Sys2Proof.Machine.execFretStart x0 x1 s
  | .configWrite x0 x1 x2 => Sys2Proof.Machine.execConfigWrite x0 x1 x2 s
  | .arm x0 x1 => Sys2Proof.Machine.execArm x0 x1 s
  | .armDeadline x0 => Sys2Proof.Machine.execArmDeadline x0 s
  | .taskArmIssue x0 x1 => Sys2Proof.Machine.execTaskArmIssue x0 x1 s
  | .taskLaunch x0 => Sys2Proof.Machine.execTaskLaunch x0 s
  | .foldSwitch x0 => Sys2Proof.Machine.execFoldSwitch x0 s
  | .firing x0 x1 => Sys2Proof.Machine.execFiring x0 x1 s
  | .sramCorrectedWriteback x0 x1 => Sys2Proof.Machine.execSramCorrectedWriteback x0 x1 s
  | .tileSramZeroed x0 => Sys2Proof.Machine.execTileSramZeroed x0 s
  | .edgeCreditReturn x0 x1 x2 x3 => Sys2Proof.Machine.execEdgeCreditReturn x0 x1 x2 x3 s
  | .releaseQueueArrive x0 x1 x2 x3 => Sys2Proof.Machine.execReleaseQueueArrive x0 x1 x2 x3 s
  | .wormRelease x0 x1 => Sys2Proof.Machine.execWormRelease x0 x1 s
  | .wormLate x0 x1 => Sys2Proof.Machine.execWormLate x0 x1 s
  | .steerTokenArrive x0 x1 x2 => Sys2Proof.Machine.execSteerTokenArrive x0 x1 x2 s
  | .steerEmit x0 x1 x2 => Sys2Proof.Machine.execSteerEmit x0 x1 x2 s
  | .steerGroupLate x0 x1 x2 => Sys2Proof.Machine.execSteerGroupLate x0 x1 x2 s
  | .steerTokenTimeout x0 x1 x2 => Sys2Proof.Machine.execSteerTokenTimeout x0 x1 x2 s
  | .steerGroupTimeout x0 x1 x2 => Sys2Proof.Machine.execSteerGroupTimeout x0 x1 x2 s
  | .taskEndCheck x0 => Sys2Proof.Machine.execTaskEndCheck x0 s
  | .creditCheckFret x0 x1 x2 => Sys2Proof.Machine.execCreditCheckFret x0 x1 x2 s
  | .queueSample => Sys2Proof.Machine.execQueueSample s
  | .remapApply x0 x1 => Sys2Proof.Machine.execRemapApply x0 x1 s
  | .taskStop x0 => Sys2Proof.Machine.execTaskStop x0 s
  | .taskCommit x0 => Sys2Proof.Machine.execTaskCommit x0 s
  | .abortMessageReceive x0 x1 => Sys2Proof.Machine.execAbortMessageReceive x0 x1 s
  | .beaconSend => Sys2Proof.Machine.execBeaconSend s
  | .beaconReceive x0 x1 x2 => Sys2Proof.Machine.execBeaconReceive x0 x1 x2 s
  | .beaconTimeout => Sys2Proof.Machine.execBeaconTimeout s
  | .holdoverTimeout => Sys2Proof.Machine.execHoldoverTimeout s
  | .epochFret => Sys2Proof.Machine.execEpochFret s
  | .fretDomainWrite x0 x1 => Sys2Proof.Machine.execFretDomainWrite x0 x1 s
  | .pllLockLost x0 => Sys2Proof.Machine.execPllLockLost x0 s
  | .pllRelock x0 x1 => Sys2Proof.Machine.execPllRelock x0 x1 s
  | .seamSplit => Sys2Proof.Machine.execSeamSplit s
  | .seamResync => Sys2Proof.Machine.execSeamResync s
  | .flightRemeasure x0 x1 => Sys2Proof.Machine.execFlightRemeasure x0 x1 s
  | .flightMeasureDone x0 x1 => Sys2Proof.Machine.execFlightMeasureDone x0 x1 s
  | .stretchRequestReceive x0 x1 => Sys2Proof.Machine.execStretchRequestReceive x0 x1 s
  | .stretchAnnounce x0 => Sys2Proof.Machine.execStretchAnnounce x0 s
  | .stretchAnnounceReceive x0 => Sys2Proof.Machine.execStretchAnnounceReceive x0 s
  | .stretchApply => Sys2Proof.Machine.execStretchApply s
  | .clkChangeGo x0 x1 => Sys2Proof.Machine.execClkChangeGo x0 x1 s
  | .clockChangeFret => Sys2Proof.Machine.execClockChangeFret s
  | .clkHalfSet x0 x1 => Sys2Proof.Machine.execClkHalfSet x0 x1 s
  | .clkHalfRestore x0 x1 => Sys2Proof.Machine.execClkHalfRestore x0 x1 s
  | .streamActivate x0 x1 => Sys2Proof.Machine.execStreamActivate x0 x1 s
  | .drawerIssue x0 x1 => Sys2Proof.Machine.execDrawerIssue x0 x1 s
  | .writeDrawerFillCheck x0 x1 => Sys2Proof.Machine.execWriteDrawerFillCheck x0 x1 s
  | .readDrawerDue x0 x1 => Sys2Proof.Machine.execReadDrawerDue x0 x1 s
  | .writeDrawerDeadline x0 x1 => Sys2Proof.Machine.execWriteDrawerDeadline x0 x1 s
  | .hbmRequestStart x0 x1 x2 x3 x4 x5 => Sys2Proof.Machine.execHbmRequestStart x0 x1 x2 x3 x4 x5 s
  | .hbmReadComplete x0 x1 => Sys2Proof.Machine.execHbmReadComplete x0 x1 s
  | .hbmWriteAck x0 x1 => Sys2Proof.Machine.execHbmWriteAck x0 x1 s
  | .hbmRefresh x0 x1 x2 => Sys2Proof.Machine.execHbmRefresh x0 x1 x2 s
  | .hbmScrub x0 x1 => Sys2Proof.Machine.execHbmScrub x0 x1 s
  | .streamRetire x0 x1 => Sys2Proof.Machine.execStreamRetire x0 x1 s
  | .streamQuiesceDone x0 x1 => Sys2Proof.Machine.execStreamQuiesceDone x0 x1 s
  | .lpHintArrive x0 x1 => Sys2Proof.Machine.execLpHintArrive x0 x1 s
  | .lpSpeculate x0 x1 => Sys2Proof.Machine.execLpSpeculate x0 x1 s
  | .lpFlush x0 x1 x2 => Sys2Proof.Machine.execLpFlush x0 x1 x2 s
  | .sessionOpen x0 => Sys2Proof.Machine.execSessionOpen x0 s
  | .sessionClose x0 => Sys2Proof.Machine.execSessionClose x0 s
  | .sessionSetQuota x0 => Sys2Proof.Machine.execSessionSetQuota x0 s
  | .sessionQuery x0 => Sys2Proof.Machine.execSessionQuery x0 s
  | .verifyResultSend => Sys2Proof.Machine.execVerifyResultSend s
  | .kvpEnable x0 x1 x2 => Sys2Proof.Machine.execKvpEnable x0 x1 x2 s
  | .connOpen x0 x1 => Sys2Proof.Machine.execConnOpen x0 x1 s
  | .connClose x0 x1 => Sys2Proof.Machine.execConnClose x0 x1 s
  | .openReceive x0 => Sys2Proof.Machine.execOpenReceive x0 s
  | .openAckReceive x0 => Sys2Proof.Machine.execOpenAckReceive x0 s
  | .openTimeout x0 => Sys2Proof.Machine.execOpenTimeout x0 s
  | .messageSend x0 x1 x2 x3 => Sys2Proof.Machine.execMessageSend x0 x1 x2 x3 s
  | .messageArrive x0 => Sys2Proof.Machine.execMessageArrive x0 s
  | .recordConsume x0 => Sys2Proof.Machine.execRecordConsume x0 s
  | .creditReturnSend x0 x1 => Sys2Proof.Machine.execCreditReturnSend x0 x1 s
  | .creditReturnResend x0 x1 => Sys2Proof.Machine.execCreditReturnResend x0 x1 s
  | .msgCreditReturnReceive x0 x1 x2 => Sys2Proof.Machine.execMsgCreditReturnReceive x0 x1 x2 s
  | .nakNoticeReceive x0 => Sys2Proof.Machine.execNakNoticeReceive x0 s
  | .staleNoticeReceive x0 x1 => Sys2Proof.Machine.execStaleNoticeReceive x0 x1 s
  | .closeMarkerReceive x0 x1 x2 x3 => Sys2Proof.Machine.execCloseMarkerReceive x0 x1 x2 x3 s
  | .closeAckReceive x0 x1 => Sys2Proof.Machine.execCloseAckReceive x0 x1 s
  | .closeMarkerResend x0 => Sys2Proof.Machine.execCloseMarkerResend x0 s
  | .queueBind x0 x1 => Sys2Proof.Machine.execQueueBind x0 x1 s
  | .queueUnbind x0 x1 => Sys2Proof.Machine.execQueueUnbind x0 x1 s
  | .chordSumRelease x0 => Sys2Proof.Machine.execChordSumRelease x0 s
  | .wormRoute x0 x1 x2 x3 => Sys2Proof.Machine.execWormRoute x0 x1 x2 x3 s
  | .wormCut x0 x1 x2 x3 => Sys2Proof.Machine.execWormCut x0 x1 x2 x3 s
  | .vcWatchdogExpire x0 x1 x2 => Sys2Proof.Machine.execVcWatchdogExpire x0 x1 x2 s
  | .fabPortEnable x0 => Sys2Proof.Machine.execFabPortEnable x0 s
  | .fabPortDisable x0 x1 x2 => Sys2Proof.Machine.execFabPortDisable x0 x1 x2 s
  | .fabTrainDone x0 => Sys2Proof.Machine.execFabTrainDone x0 s
  | .fabTrainFail x0 x1 => Sys2Proof.Machine.execFabTrainFail x0 x1 s
  | .fabMeasureDone x0 x1 => Sys2Proof.Machine.execFabMeasureDone x0 x1 s
  | .fabIdentityReceive x0 x1 => Sys2Proof.Machine.execFabIdentityReceive x0 x1 s
  | .fabLockLost x0 => Sys2Proof.Machine.execFabLockLost x0 s
  | .fabDownMarkerReceive x0 => Sys2Proof.Machine.execFabDownMarkerReceive x0 s
  | .fabLocalRetry x0 => Sys2Proof.Machine.execFabLocalRetry x0 s
  | .fabReplay x0 => Sys2Proof.Machine.execFabReplay x0 s
  | .fabReplayLimit x0 => Sys2Proof.Machine.execFabReplayLimit x0 s
  | .twHeartbeatSend => Sys2Proof.Machine.execTwHeartbeatSend s
  | .twHeartbeatTimeout => Sys2Proof.Machine.execTwHeartbeatTimeout s
  | .ncnCrcError x0 x1 => Sys2Proof.Machine.execNcnCrcError x0 x1 s
  | .bar4Write x0 x1 x2 => Sys2Proof.Machine.execBar4Write x0 x1 x2 s
  | .submissionTimeout x0 x1 => Sys2Proof.Machine.execSubmissionTimeout x0 x1 s
  | .nqHeadWrite x0 x1 x2 => Sys2Proof.Machine.execNqHeadWrite x0 x1 x2 s
  | .rxConsume x0 x1 x2 => Sys2Proof.Machine.execRxConsume x0 x1 x2 s
  | .attentionPulse x0 => Sys2Proof.Machine.execAttentionPulse x0 s
  | .mcLoad x0 x1 x2 x3 => Sys2Proof.Machine.execMcLoad x0 x1 x2 x3 s
  | .mcStart x0 => Sys2Proof.Machine.execMcStart x0 s
  | .mcStop x0 => Sys2Proof.Machine.execMcStop x0 s
  | .mcUnload x0 => Sys2Proof.Machine.execMcUnload x0 s
  | .ownerClaim x0 => Sys2Proof.Machine.execOwnerClaim x0 s
  | .ownerRelease x0 => Sys2Proof.Machine.execOwnerRelease x0 s
  | .ownerGive x0 => Sys2Proof.Machine.execOwnerGive x0 s
  | .perst x0 x1 => Sys2Proof.Machine.execPerst x0 x1 s
  | .perstDeassert x0 => Sys2Proof.Machine.execPerstDeassert x0 s
  | .pcieLinkUp x0 x1 x2 x3 x4 => Sys2Proof.Machine.execPcieLinkUp x0 x1 x2 x3 x4 s
  | .mgmtSystemReset x0 => Sys2Proof.Machine.execMgmtSystemReset x0 s
  | .mgmtCoreReset x0 => Sys2Proof.Machine.execMgmtCoreReset x0 s
  | .mgmtAssignOwner x0 => Sys2Proof.Machine.execMgmtAssignOwner x0 s
  | .mgmtSetBudget x0 => Sys2Proof.Machine.execMgmtSetBudget x0 s
  | .mgmtChestClear x0 => Sys2Proof.Machine.execMgmtChestClear x0 s
  | .mgmtClearRetire x0 => Sys2Proof.Machine.execMgmtClearRetire x0 s
  | .mgmtQuote x0 => Sys2Proof.Machine.execMgmtQuote x0 s
  | .mgmtWriteReg x0 => Sys2Proof.Machine.execMgmtWriteReg x0 s
  | .mgtNdEcho x0 x1 x2 x3 => Sys2Proof.Machine.execMgtNdEcho x0 x1 x2 x3 s
  | .mgtPortLinkUp x0 => Sys2Proof.Machine.execMgtPortLinkUp x0 s
  | .parityCountDecay x0 => Sys2Proof.Machine.execParityCountDecay x0 s
  | .arbitrationStart x0 => Sys2Proof.Machine.execArbitrationStart x0 s
  | .arbitrationDone x0 x1 => Sys2Proof.Machine.execArbitrationDone x0 x1 s
  | .digestRoundStart x0 => Sys2Proof.Machine.execDigestRoundStart x0 s
  | .digestPassDone x0 => Sys2Proof.Machine.execDigestPassDone x0 s
  | .digestEnable x0 x1 => Sys2Proof.Machine.execDigestEnable x0 x1 s
  | .digestDisable x0 x1 => Sys2Proof.Machine.execDigestDisable x0 x1 s
  | .digestVerify x0 x1 => Sys2Proof.Machine.execDigestVerify x0 x1 s
  | .digestCfgWrite x0 x1 => Sys2Proof.Machine.execDigestCfgWrite x0 x1 s
  | .digestMessageReceive x0 => Sys2Proof.Machine.execDigestMessageReceive x0 s
  | .retireStart x0 => Sys2Proof.Machine.execRetireStart x0 s
  | .retireComplete => Sys2Proof.Machine.execRetireComplete s
  | .mcLockstepFail x0 x1 => Sys2Proof.Machine.execMcLockstepFail x0 x1 s
  | .healFence x0 x1 => Sys2Proof.Machine.execHealFence x0 x1 s
  | .healFenceDeferredApply x0 => Sys2Proof.Machine.execHealFenceDeferredApply x0 s
  | .healRotate x0 x1 => Sys2Proof.Machine.execHealRotate x0 x1 s
  | .healPartitionRecovery x0 x1 => Sys2Proof.Machine.execHealPartitionRecovery x0 x1 s
  | .rotationMark => Sys2Proof.Machine.execRotationMark s
  | .rotationApply x0 => Sys2Proof.Machine.execRotationApply x0 s
  | .infieldTestDone x0 x1 => Sys2Proof.Machine.execInfieldTestDone x0 x1 s
  | .variantLoad x0 x1 x2 => Sys2Proof.Machine.execVariantLoad x0 x1 x2 s
  | .taskHang x0 => Sys2Proof.Machine.execTaskHang x0 s
  | .tileFenceTimeout x0 => Sys2Proof.Machine.execTileFenceTimeout x0 s
  | .prrStart x0 => Sys2Proof.Machine.execPrrStart x0 s
  | .prrResetDone x0 x1 => Sys2Proof.Machine.execPrrResetDone x0 x1 s
  | .prrVerified x0 => Sys2Proof.Machine.execPrrVerified x0 s
  | .twinAttachSource x0 x1 => Sys2Proof.Machine.execTwinAttachSource x0 x1 s
  | .twinAttachSink x0 x1 => Sys2Proof.Machine.execTwinAttachSink x0 x1 s
  | .twinDetach x0 x1 => Sys2Proof.Machine.execTwinDetach x0 x1 s
  | .twinCopyDone x0 => Sys2Proof.Machine.execTwinCopyDone x0 s
  | .twinMirrorSend => Sys2Proof.Machine.execTwinMirrorSend s
  | .twinMirrorReceive x0 => Sys2Proof.Machine.execTwinMirrorReceive x0 s
  | .twinTakeoverReceive => Sys2Proof.Machine.execTwinTakeoverReceive s
  | .twinDetachReceive => Sys2Proof.Machine.execTwinDetachReceive s
  | .healthRecordFenceWrite => Sys2Proof.Machine.execHealthRecordFenceWrite s
  | .por => Sys2Proof.Machine.execPor s
  | .pwrgdRise => Sys2Proof.Machine.execPwrgdRise s
  | .porRelease x0 => Sys2Proof.Machine.execPorRelease x0 s
  | .supplyMonitorTrip => Sys2Proof.Machine.execSupplyMonitorTrip s
  | .supplyRestore => Sys2Proof.Machine.execSupplyRestore s
  | .thermalTrip x0 x1 => Sys2Proof.Machine.execThermalTrip x0 x1 s
  | .sysrstNAssert => Sys2Proof.Machine.execSysrstNAssert s
  | .mcWatchdogExpire => Sys2Proof.Machine.execMcWatchdogExpire s
  | .rstcReqCore x0 x1 => Sys2Proof.Machine.execRstcReqCore x0 x1 s
  | .rstcReqSystem x0 x1 => Sys2Proof.Machine.execRstcReqSystem x0 x1 s
  | .orderlyResetAssert => Sys2Proof.Machine.execOrderlyResetAssert s
  | .blkMaintenanceReset x0 x1 => Sys2Proof.Machine.execBlkMaintenanceReset x0 x1 s
  | .blkRecoveryReset x0 x1 => Sys2Proof.Machine.execBlkRecoveryReset x0 x1 s
  | .blkResetDone x0 x1 => Sys2Proof.Machine.execBlkResetDone x0 x1 s
  | .brupStartStage x0 x1 => Sys2Proof.Machine.execBrupStartStage x0 x1 s
  | .brupPause x0 x1 => Sys2Proof.Machine.execBrupPause x0 x1 s
  | .brupResume x0 x1 => Sys2Proof.Machine.execBrupResume x0 x1 s
  | .brupBootPushed x0 x1 => Sys2Proof.Machine.execBrupBootPushed x0 x1 s
  | .brupProgram x0 x1 => Sys2Proof.Machine.execBrupProgram x0 x1 s
  | .stageBu0 x0 => Sys2Proof.Machine.execStageBu0 x0 s
  | .stageBu1 x0 => Sys2Proof.Machine.execStageBu1 x0 s
  | .stageBu2 x0 => Sys2Proof.Machine.execStageBu2 x0 s
  | .stageBu3 x0 => Sys2Proof.Machine.execStageBu3 x0 s
  | .stageBu4 x0 x1 => Sys2Proof.Machine.execStageBu4 x0 x1 s
  | .stageBu5 x0 => Sys2Proof.Machine.execStageBu5 x0 s
  | .stageBu6 x0 => Sys2Proof.Machine.execStageBu6 x0 s
  | .stageBu7 x0 => Sys2Proof.Machine.execStageBu7 x0 s
  | .stageBu8 => Sys2Proof.Machine.execStageBu8 s
  | .stageBu9 x0 => Sys2Proof.Machine.execStageBu9 x0 s
  | .scriptReplayStart => Sys2Proof.Machine.execScriptReplayStart s
  | .scriptWrite => Sys2Proof.Machine.execScriptWrite s
  | .scriptModify => Sys2Proof.Machine.execScriptModify s
  | .scriptPoll => Sys2Proof.Machine.execScriptPoll s
  | .scriptPollMatch => Sys2Proof.Machine.execScriptPollMatch s
  | .scriptPollTimeout => Sys2Proof.Machine.execScriptPollTimeout s
  | .scriptWait => Sys2Proof.Machine.execScriptWait s
  | .scriptWaitExpire => Sys2Proof.Machine.execScriptWaitExpire s
  | .scriptStage => Sys2Proof.Machine.execScriptStage s
  | .scriptEnd => Sys2Proof.Machine.execScriptEnd s
  | .governorInterval x0 => Sys2Proof.Machine.execGovernorInterval x0 s
  | .governorPark x0 x1 => Sys2Proof.Machine.execGovernorPark x0 x1 s
  | .pwrParkNow x0 x1 => Sys2Proof.Machine.execPwrParkNow x0 x1 s
  | .pwrWake x0 x1 x2 => Sys2Proof.Machine.execPwrWake x0 x1 x2 s
  | .parkDone x0 => Sys2Proof.Machine.execParkDone x0 s
  | .wakeDone x0 x1 => Sys2Proof.Machine.execWakeDone x0 x1 s
  | .budgetWrite x0 x1 => Sys2Proof.Machine.execBudgetWrite x0 x1 s
  | .thermalClampEngage x0 x1 => Sys2Proof.Machine.execThermalClampEngage x0 x1 s
  | .thermalClampRelease x0 => Sys2Proof.Machine.execThermalClampRelease x0 s
  | .powerClampEngage x0 => Sys2Proof.Machine.execPowerClampEngage x0 s
  | .powerClampRelease x0 => Sys2Proof.Machine.execPowerClampRelease x0 s
  | .droopEvent x0 x1 x2 x3 => Sys2Proof.Machine.execDroopEvent x0 x1 x2 x3 s
  | .guardBandLower x0 => Sys2Proof.Machine.execGuardBandLower x0 s
  | .pegRetune x0 x1 => Sys2Proof.Machine.execPegRetune x0 x1 s
  | .pegRetuneAll x0 x1 => Sys2Proof.Machine.execPegRetuneAll x0 x1 s
  | .lcTransitionRequest x0 x1 => Sys2Proof.Machine.execLcTransitionRequest x0 x1 s
  | .lcFuseWriteDone => Sys2Proof.Machine.execLcFuseWriteDone s
  | .idGenerate x0 x1 => Sys2Proof.Machine.execIdGenerate x0 x1 s
  | .signRequest x0 => Sys2Proof.Machine.execSignRequest x0 s
  | .signatureDone => Sys2Proof.Machine.execSignatureDone s
  | .opkWrite x0 x1 => Sys2Proof.Machine.execOpkWrite x0 x1 s
  | .opkErase x0 x1 => Sys2Proof.Machine.execOpkErase x0 x1 s
  | .quoteRequest x0 x1 => Sys2Proof.Machine.execQuoteRequest x0 x1 s
  | .quoteDone => Sys2Proof.Machine.execQuoteDone s
  | .scanEn => Sys2Proof.Machine.execScanEn s
  | .eb1Unlock => Sys2Proof.Machine.execEb1Unlock s
  | .scanClearDone => Sys2Proof.Machine.execScanClearDone s
  | .jtagExtest x0 => Sys2Proof.Machine.execJtagExtest x0 s
  | .jtagSamplePreload x0 x1 => Sys2Proof.Machine.execJtagSamplePreload x0 x1 s
  | .jtagIdcode => Sys2Proof.Machine.execJtagIdcode s
  | .jtagClamp => Sys2Proof.Machine.execJtagClamp s
  | .jtagHighz => Sys2Proof.Machine.execJtagHighz s
  | .jtagExtestPulse x0 => Sys2Proof.Machine.execJtagExtestPulse x0 s
  | .jtagExtestTrain x0 => Sys2Proof.Machine.execJtagExtestTrain x0 s
  | .jtagBypass x0 => Sys2Proof.Machine.execJtagBypass x0 s
  | .hbmWindowTestStart x0 x1 => Sys2Proof.Machine.execHbmWindowTestStart x0 x1 s
  | .hbmWindowTestDone x0 x1 x2 => Sys2Proof.Machine.execHbmWindowTestDone x0 x1 x2 s
  | .hbmWindowTestTimeout x0 x1 => Sys2Proof.Machine.execHbmWindowTestTimeout x0 x1 s
  | .testAgeTick => Sys2Proof.Machine.execTestAgeTick s
  | .shutdownTestStart x0 x1 => Sys2Proof.Machine.execShutdownTestStart x0 x1 s
  | .shutdownTestPhase x0 x1 => Sys2Proof.Machine.execShutdownTestPhase x0 x1 s
  | .shutdownRecord => Sys2Proof.Machine.execShutdownRecord s
  | .shutdownHalt => Sys2Proof.Machine.execShutdownHalt s
  | .chestRecordPlace => Sys2Proof.Machine.execChestRecordPlace s
  | .chestCopyStart x0 => Sys2Proof.Machine.execChestCopyStart x0 s
  | .chestCopyDone => Sys2Proof.Machine.execChestCopyDone s
  | .telemetryReport => Sys2Proof.Machine.execTelemetryReport s
  | .telemetrySend => Sys2Proof.Machine.execTelemetrySend s
  | .trefRestore => Sys2Proof.Machine.execTrefRestore s
  | .sysrstNRelease => Sys2Proof.Machine.execSysrstNRelease s
  | .resetRelease => Sys2Proof.Machine.execResetRelease s
  | .mgmtUnknownCommand x0 x1 => Sys2Proof.Machine.execMgmtUnknownCommand x0 x1 s
  | .mcReservedOpcode x0 x1 => Sys2Proof.Machine.execMcReservedOpcode x0 x1 s
  | .sessionReservedOpcode x0 x1 => Sys2Proof.Machine.execSessionReservedOpcode x0 x1 s
  | .twinAttachReceive x0 => Sys2Proof.Machine.execTwinAttachReceive x0 s
  | .hbmControllerError x0 => Sys2Proof.Machine.execHbmControllerError x0 s
  | .hbmPhyFault x0 => Sys2Proof.Machine.execHbmPhyFault x0 s
  | .idGenerateDone x0 => Sys2Proof.Machine.execIdGenerateDone x0 s
  | .mgtPortLinkDown x0 => Sys2Proof.Machine.execMgtPortLinkDown x0 s
  | .pcieConfigWrite x0 x1 => Sys2Proof.Machine.execPcieConfigWrite x0 x1 s
  | .trstNAssert => Sys2Proof.Machine.execTrstNAssert s

end Sys2Proof.Machine
end

