-- ==== Sys2Proof/Safety.lean ====
section
/-! DEFINITION. What claims about runs are stated in: the form of a state's tables, a run of several steps, and a run that neither faults nor is refused. -/

namespace Sys2Proof.Machine

/-- Device memory in its one form: listed addresses rise strictly, and so do the sectors whose check fails. -/
def State.memForm (s : State) : Bool := Mem.wf s.hbm.mem && Tab.wf s.hbm.bad

/-- `n` steps, if each answers a next state. -/
def run : Nat → State → Option State
  | 0, s => some s
  | n + 1, s =>
    match step s with
    | .next t => run n t
    | _ => none

/-- The block takes the commands that wait without a fault or a refusal. -/
def Safe (s : State) : Prop := ∀ n, (run n s).isSome = true

/-- The parts of a state, one for each field of `State`. -/
inductive Comp where
  | fuse | flash | top | rstc | brup | pwr | gov | clk | fret | ids | sec | bist | heal
  | healx | rel | relx | chest | tel | mch | pcie | mgt | spn | sess | hbm | tap | fabs | parts
  | cluss | tiles | ctxs | tasks | scheds | held | latches | out | ticks | free | pending
deriving DecidableEq, Repr

/-- Two states agree in one part. -/
def State.same (s t : State) : Comp → Prop
  | .fuse => t.fuse = s.fuse
  | .flash => t.flash = s.flash
  | .top => t.top = s.top
  | .rstc => t.rstc = s.rstc
  | .brup => t.brup = s.brup
  | .pwr => t.pwr = s.pwr
  | .gov => t.gov = s.gov
  | .clk => t.clk = s.clk
  | .fret => t.fret = s.fret
  | .ids => t.ids = s.ids
  | .sec => t.sec = s.sec
  | .bist => t.bist = s.bist
  | .heal => t.heal = s.heal
  | .healx => t.healx = s.healx
  | .rel => t.rel = s.rel
  | .relx => t.relx = s.relx
  | .chest => t.chest = s.chest
  | .tel => t.tel = s.tel
  | .mch => t.mch = s.mch
  | .pcie => t.pcie = s.pcie
  | .mgt => t.mgt = s.mgt
  | .spn => t.spn = s.spn
  | .sess => t.sess = s.sess
  | .hbm => t.hbm = s.hbm
  | .tap => t.tap = s.tap
  | .fabs => t.fabs = s.fabs
  | .parts => t.parts = s.parts
  | .cluss => t.cluss = s.cluss
  | .tiles => t.tiles = s.tiles
  | .ctxs => t.ctxs = s.ctxs
  | .tasks => t.tasks = s.tasks
  | .scheds => t.scheds = s.scheds
  | .held => t.held = s.held
  | .latches => t.latches = s.latches
  | .out => t.out = s.out
  | .ticks => t.ticks = s.ticks
  | .free => t.free = s.free
  | .pending => t.pending = s.pending

/-- The frame of a command: every part of the state but those listed is as before, and device memory keeps its form. -/
def State.Only (s t : State) (cs : List Comp) : Prop :=
  (∀ c, c ∉ cs → s.same t c) ∧ (s.memForm = true → t.memForm = true)

/-- A command answers a next state, and that state has the frame. -/
def State.NextOnly (s : State) (o : Host.Outcome State Fault Refusal) (cs : List Comp) : Prop := ∃ t, o = .next t ∧ s.Only t cs

/-- The frame of a command that touches much: these parts of the state are as before, and device memory keeps its form. -/
def State.Keeps (s t : State) (cs : List Comp) : Prop :=
  (∀ c ∈ cs, s.same t c) ∧ (s.memForm = true → t.memForm = true)

/-- Every task that ran in the first state has an abort set in the second. -/
def State.AllAborted (s t : State) : Prop :=
  ∀ n, ((s.task n).phase = .running ∨ (s.task n).phase = .ended) → (t.task n).abort.isSome = true

/-- The accessor may write protected registers: the MC, or the port that holds the owner token (09 R503). -/
def State.mayWrite (s : State) : Accessor → Bool
  | .mc => true
  | .portA => s.holdsToken .a
  | .portB => s.holdsToken .b

/-- A management command is executed: its port is up, the chip is not in FINAL, its checks pass, the signature queue has room,
its sequence number is new, and the flash takes it (09 R510, R511; 14 R663, R672, R680). -/
def State.takesCommand (s : State) (d : Datagram) (slots : Nat) : Bool :=
  (s.mgmtPort d.port).up && decide (s.sec.lc ≠ .final) && !s.rejects d && !(s.mayReply && decide (16 < s.ids.queue.length + slots))
    && !s.isRepeat d && s.flash.seqOk

end Sys2Proof.Machine
end

