-- ==== Sys2Proof/Certificates/Slice0/Obligations.lean ====
section
/-! DEFINITION. The statements for the provers: what each command does by the spec's rules, and what holds of every command. -/

open Sys2Proof Sys2Proof.Machine

/-- Beacons and the alignment state, from the table of 04 R193: a chip in ALIGNED, MEMBER or HOLDOVER sends a beacon on each
child port at a fret whose counter bits [9:0] are zero, and no other chip or fret sends one; a beacon of another domain, or on a
port that is not the parent port, changes nothing; a chip in FREE loads both counters from a beacon and enters TRACK; a judged
beacon's error moves TRACK, ALIGNED, MEMBER, HOLDOVER and SPLIT as the table says, with align_lost and an abort of the running
tasks where MEMBER or HOLDOVER is left; 8,192 frets without a beacon, and 2^20 frets without one in HOLDOVER; the epoch fret. That
the East counter takes the West's value at MEMBER, and that the root in MEMBER waits for no beacon, are the model's choices (log
entry 61). -/
def Obligations.AlignmentFollowsBeacons : Prop :=
  (∀ s : State, (s.fret.state = .aligned ∨ s.fret.state = .member ∨ s.fret.state = .holdover) →
    s.fret.west.toNat % 1024 = 0 →
    exec .beaconSend s = .next { s with out :=
      (s.childPorts.reverse.map fun p => Out.beacon p ⟨s.fret.west, s.fret.domain, 0⟩) ++ s.out }) ∧
  (∀ s : State, ((s.fret.state ≠ .aligned ∧ s.fret.state ≠ .member ∧ s.fret.state ≠ .holdover) ∨
    s.fret.west.toNat % 1024 ≠ 0) → exec .beaconSend s = .next s) ∧
  (∀ s p b cycle eastCycle, s.parentPort ≠ some p ∨ b.domain ≠ s.fret.domain →
    exec (.beaconReceive p b ⟨cycle, eastCycle⟩) s = .next s) ∧
  (∀ s p b cycle eastCycle, s.parentPort = some p → b.domain = s.fret.domain →
    s.fret.state = .unlocked ∨ s.fret.state = .change →
    exec (.beaconReceive p b ⟨cycle, eastCycle⟩) s = .next { s with fret := { s.fret with sinceBeacon := 0 } }) ∧
  (∀ s p b cycle eastCycle, s.parentPort = some p → b.domain = s.fret.domain → s.fret.state = .free →
    ∃ t, exec (.beaconReceive p b ⟨cycle, eastCycle⟩) s = .next t ∧ s.Only t [.fret, .free] ∧ t.fret.state = .track ∧
      t.fret.west = t.fret.east ∧ t.fret.sinceBeacon = 0 ∧ t.fret.good = 0 ∧
      t.fret.west = BitVec.ofNat 64
        (fretAfter b.fret.toNat (b.cycle + (s.flightReg p).flight.toNat) s.stretches.1 s.stretches.2)) ∧
  (∀ s p b cycle eastCycle, s.parentPort = some p → b.domain = s.fret.domain → s.fret.state = .track →
    (s.beaconErr b s.now cycle (s.flightReg p).flight.toNat).natAbs ≤ 2 →
    ∃ t, exec (.beaconReceive p b ⟨cycle, eastCycle⟩) s = .next t ∧ s.Only t [.fret, .clk, .free] ∧
      t.fret.west = s.fret.west ∧ t.fret.sinceBeacon = 0 ∧
      t.fret.state = (if s.fret.good + 1 < 16 then .track else if s.fret.fromChange then .member else .aligned)) ∧
  (∀ s p b cycle eastCycle, s.parentPort = some p → b.domain = s.fret.domain → s.fret.state = .track →
    2 < (s.beaconErr b s.now cycle (s.flightReg p).flight.toNat).natAbs →
    ∃ t, exec (.beaconReceive p b ⟨cycle, eastCycle⟩) s = .next t ∧ s.Only t [.fret, .free] ∧
      t.fret.state = .track ∧ t.fret.good = 0 ∧ t.fret.sinceBeacon = 0 ∧
      ((s.beaconErr b s.now cycle (s.flightReg p).flight.toNat).natAbs ≤ 16 → t.fret.west = s.fret.west)) ∧
  (∀ s p b cycle eastCycle, s.parentPort = some p → b.domain = s.fret.domain → s.fret.state = .aligned →
    ∃ t, exec (.beaconReceive p b ⟨cycle, eastCycle⟩) s = .next t ∧ s.Only t [.fret, .free] ∧ t.fret.sinceBeacon = 0 ∧
      t.fret.state = (if (s.beaconErr b s.now cycle (s.flightReg p).flight.toNat).natAbs ≤ 2 then .aligned else .track) ∧
      ((s.beaconErr b s.now cycle (s.flightReg p).flight.toNat).natAbs ≤ 16 → t.fret.west = s.fret.west)) ∧
  (∀ s p b cycle eastCycle, s.parentPort = some p → b.domain = s.fret.domain →
    s.fret.state = .member ∨ s.fret.state = .holdover →
    (s.beaconErr b s.now cycle (s.flightReg p).flight.toNat).natAbs ≤ 2 →
    ∃ t, exec (.beaconReceive p b ⟨cycle, eastCycle⟩) s = .next t ∧ s.Only t [.clk, .fret, .free] ∧
      t.fret.sinceBeacon = 0 ∧ t.fret.state = .member ∧ t.fret.west = s.fret.west) ∧
  (∀ s p b cycle eastCycle, s.parentPort = some p → b.domain = s.fret.domain →
    s.fret.state = .member ∨ s.fret.state = .holdover →
    2 < (s.beaconErr b s.now cycle (s.flightReg p).flight.toNat).natAbs →
    ∃ t, exec (.beaconReceive p b ⟨cycle, eastCycle⟩) s = .next t ∧ s.Only t [.top, .fret, .chest, .tasks, .out, .free] ∧
      t.fret.state = .track ∧ t.fret.alignLost = true ∧ t.fret.sinceBeacon = 0 ∧ s.AllAborted t ∧
      ((s.beaconErr b s.now cycle (s.flightReg p).flight.toNat).natAbs ≤ 16 → t.fret.west = s.fret.west)) ∧
  (∀ s p b cycle eastCycle, s.parentPort = some p → b.domain = s.fret.domain → s.fret.state = .split →
    ∃ t, exec (.beaconReceive p b ⟨cycle, eastCycle⟩) s = .next t ∧ s.Only t [.fret] ∧ t.fret.sinceBeacon = 0 ∧
      t.fret.west = s.fret.west ∧ t.fret.east = s.fret.east ∧
      t.fret.state = (if 16 < (s.beaconErr b s.now cycle (s.flightReg p).flight.toNat).natAbs ∧
        16 < (s.beaconErr b s.fret.east.toNat eastCycle (s.flightReg p).flight.toNat).natAbs then .track else .split)) ∧
  (∀ s, s.fret.root = false → 8192 ≤ s.fret.sinceBeacon → s.fret.state = .member →
    ∃ t, exec .beaconTimeout s = .next t ∧ s.Only t [.top, .fret, .chest, .out] ∧ t.fret.state = .holdover ∧
      t.fret.beaconLost = true ∧ t.fret.west = s.fret.west ∧ t.fret.trim = s.fret.trim) ∧
  (∀ s, 8192 ≤ s.fret.sinceBeacon → s.fret.state = .track ∨ s.fret.state = .aligned →
    ∃ t, exec .beaconTimeout s = .next t ∧ s.Only t [.top, .fret, .chest, .out] ∧ t.fret.state = .free ∧
      t.fret.beaconLost = true ∧ t.fret.west = s.fret.west ∧ t.fret.trim = s.fret.trim) ∧
  (∀ s, s.fret.sinceBeacon < 8192 ∨ (s.fret.state = .member ∧ s.fret.root = true) → exec .beaconTimeout s = .next s) ∧
  (∀ s, s.fret.state = .holdover → 2 ^ 20 ≤ s.fret.sinceBeacon →
    ∃ t, exec .holdoverTimeout s = .next t ∧ s.Only t [.fret, .chest, .tasks] ∧ t.fret.state = .free ∧ s.AllAborted t) ∧
  (∀ s, s.fret.state ≠ .holdover ∨ s.fret.sinceBeacon < 2 ^ 20 → exec .holdoverTimeout s = .next s) ∧
  (∀ s, s.fret.state = .aligned → s.fret.west.toNat % 2 ^ 20 = 0 →
    ∃ t, exec .epochFret s = .next t ∧ s.Only t [.clk, .fret] ∧
      t.fret = { s.fret with state := .member, good := 0, fromChange := false, east := s.fret.west } ∧
      (s.clk.pending = false → t.clk = s.clk)) ∧
  (∀ s, s.fret.state ≠ .aligned ∨ s.fret.west.toNat % 2 ^ 20 ≠ 0 → exec .epochFret s = .next s)

/-- The halves' clocks and the seam, from the table of 04 R193: losing a lock makes the chip UNLOCKED and aborts its running
tasks; relocking after a loss, once BU2 has passed and at clocks within the grade's, starts both counters at 0 in FREE with stretch
0, and does nothing otherwise; in CHANGE, relocking at the announced clock or the grade clock where that is lower makes the root
MEMBER and another chip TRACK, and at another clock does nothing; a seam split of a member enters SPLIT with seam_split set and
slips every running task with kind 0x5; the resync of halves at the domain clock loads the lagging counter from the other and
returns the chip to MEMBER; at a clock-change fret a member enters CHANGE with its counters frozen. -/
def Obligations.ClockAndSeamEvents : Prop :=
  (∀ s h, ∃ t, exec (.pllLockLost h) s = .next t ∧ s.Only t [.clk, .fret, .chest, .tasks] ∧ t.fret.state = .unlocked ∧
    bit t.clk.lock (match h with | .west => 0 | .east => 1) = false ∧ t.fret.west = s.fret.west ∧ s.AllAborted t) ∧
  (∀ s w e, s.fret.state = .unlocked → s.passed 2 = true → w.toNat ≤ s.fuse.grade.mhz → e.toNat ≤ s.fuse.grade.mhz →
    exec (.pllRelock w e) s = .next { s with
      clk := { s.clk with lock := s.clk.lock ||| 3, west := w, east := e }
      fret := { s.fret with state := .free, west := 0, east := 0, stretch := 0, frozen := false, good := 0 } }) ∧
  (∀ s w e, s.fret.state = .unlocked →
    (s.passed 2 = false ∨ s.fuse.grade.mhz < w.toNat ∨ s.fuse.grade.mhz < e.toNat) → exec (.pllRelock w e) s = .next s) ∧
  (∀ s w e, s.fret.state = .change → s.fret.root = false → w.toNat = s.changeTarget → e.toNat = s.changeTarget →
    ∃ t, exec (.pllRelock w e) s = .next t ∧ s.Only t [.clk, .fret] ∧ t.fret.state = .track ∧ t.fret.frozen = false ∧
      t.clk.west = w ∧ t.clk.east = e ∧ t.fret.west = s.fret.west) ∧
  (∀ s w e, s.fret.state = .change → s.fret.root = true → w.toNat = s.changeTarget → e.toNat = s.changeTarget →
    ∃ t, exec (.pllRelock w e) s = .next t ∧ s.Only t [.clk, .fret] ∧ t.fret.state = .member ∧ t.fret.frozen = false ∧
      t.clk.west = w ∧ t.clk.east = e ∧ t.fret.west = s.fret.west) ∧
  (∀ s w e, s.fret.state = .change → w.toNat ≠ s.changeTarget ∨ e.toNat ≠ s.changeTarget →
    exec (.pllRelock w e) s = .next s) ∧
  (∀ s, s.fret.state = .member ∨ s.fret.state = .holdover →
    ∃ t, exec .seamSplit s = .next t ∧ s.Only t [.top, .fret, .chest, .tasks, .out] ∧ t.fret.state = .split ∧
      t.fret.seamSplit = true ∧ t.fret.west = s.fret.west ∧ s.AllAborted t ∧ (s.running ≠ [] → t.fret.slipKind = 5)) ∧
  (∀ s, s.fret.state ≠ .member → s.fret.state ≠ .holdover → exec .seamSplit s = .next s) ∧
  (∀ s, s.fret.state = .split → s.clk.divW = false → s.clk.divE = false → s.fret.splitClock = false →
    ∃ t, exec .seamResync s = .next t ∧ s.Only t [.clk, .fret] ∧ t.fret.state = .member ∧ t.fret.west = t.fret.east ∧
      t.fret.west.toNat = max s.fret.west.toNat s.fret.east.toNat) ∧
  (∀ s, s.fret.state ≠ .split ∨ s.clk.divW = true ∨ s.clk.divE = true ∨ s.fret.splitClock = true →
    exec .seamResync s = .next s) ∧
  (∀ s fc, s.fret.state = .member → s.fret.changeAt = some fc → fc.toNat ≤ s.fret.west.toNat →
    exec .clockChangeFret s = .next { s with
      clk := { s.clk with lock := s.clk.lock &&& 0xFC }
      fret := { s.fret with state := .change, frozen := true, changeAt := none } }) ∧
  (∀ s, s.fret.state ≠ .member ∨ s.fret.changeAt = none → exec .clockChangeFret s = .next s)

/-- Flights, stretch and aborts between chips, from 04 R195, R196, R204 to R208 and R217 to R222: a link's measured flight is the
largest of its 256 results rounded up, with an allowance of ceil(flight ÷ 32) + 2 frets, and the requests are cleared once no link
is being measured; the root keeps each member's stretch request, and another chip passes it to its parent; the root announces a
changed domain stretch at least 4,096 frets ahead and after every pending one, and a fifth waits; an announcement is forwarded to
every child and pending until its fret, and one that comes late sets stretch_late and takes a member out of MEMBER; the earliest
pending change takes effect at its fret; a clock change is forwarded and kept; an abort message is forwarded to the other tree
ports and kept with a task that is armed or runs, one that comes after its abort fret sets abort_late, and one that names a task
of a loaded schedule before its arming is kept until then (log entry 61). -/
def Obligations.DomainMessagesTakeEffect : Prop :=
  (∀ s (p : FabPort) xs, (s.flightReg p).measuring = true → xs.length = 256 →
    ∃ t, exec (.flightMeasureDone p xs) s = .next t ∧ s.Only t [.fret] ∧
      (t.flightReg p).measuring = false ∧ (t.flightReg p).valid = true ∧
      (t.flightReg p).allow = satOfNat 11 ((flightOf xs + 32 - 1) / 32 + 2) ∧
      (t.flightReg p).flight = satOfNat 16 (flightOf xs) ∧
      (∀ q : FabPort, q ≠ p → (t.flightReg q).measuring = (s.flightReg q).measuring ∧
        (t.flightReg q).valid = (s.flightReg q).valid ∧ (t.flightReg q).flight = (s.flightReg q).flight) ∧
      (t.fret.flights.any (fun e => e.2.measuring) = false → ∀ q : FabPort, (t.flightReg q).remeasure = false)) ∧
  (∀ s (p : FabPort) xs, (s.flightReg p).measuring = false ∨ xs.length ≠ 256 →
    exec (.flightMeasureDone p xs) s = .next s) ∧
  (∀ s chip req, s.fret.root = true →
    exec (.stretchRequestReceive chip req) s =
      .next { s with fret := { s.fret with requests := Tab.put s.fret.requests chip.toNat req.toNat } }) ∧
  (∀ s chip req p, s.parentPort = some p →
    exec (.stretchRequestReceive chip req) s = .next { s with out := .stretchReq p chip req :: s.out }) ∧
  (∀ s eff, s.fret.root = true → s.fret.pending = [] → s.wanted ≠ s.fret.stretch.toNat →
    s.fret.west.toNat + 4096 ≤ eff.toNat →
    ∃ t, exec (.stretchAnnounce eff) s = .next t ∧ s.Only t [.fret, .out] ∧
      t.fret = { s.fret with pending := [(BitVec.ofNat 6 s.wanted, eff)], waitingReq := none } ∧
      t.out = (s.childPorts.reverse.map fun p => Out.announce p (.stretch (BitVec.ofNat 6 s.wanted) eff)) ++ s.out) ∧
  (∀ s eff last, s.fret.root = true → s.fret.pending.getLast? = some last → s.fret.pending.length < 4 →
    s.wanted ≠ last.1.toNat → s.fret.west.toNat + 4096 ≤ eff.toNat → last.2.toNat < eff.toNat →
    ∃ t, exec (.stretchAnnounce eff) s = .next t ∧ s.Only t [.fret, .out] ∧
      t.fret = { s.fret with
        pending := insertPending (BitVec.ofNat 6 s.wanted, eff) s.fret.pending, waitingReq := none } ∧
      t.out = (s.childPorts.reverse.map fun p => Out.announce p (.stretch (BitVec.ofNat 6 s.wanted) eff)) ++ s.out) ∧
  (∀ s eff last, s.fret.root = true → s.fret.pending.getLast? = some last → 4 ≤ s.fret.pending.length →
    s.wanted ≠ last.1.toNat →
    exec (.stretchAnnounce eff) s =
      .next { s with fret := { s.fret with waitingReq := some (BitVec.ofNat 6 s.wanted) } }) ∧
  (∀ s v eff, s.fret.west.toNat < eff.toNat →
    ∃ t, exec (.stretchAnnounceReceive (.stretch v eff)) s = .next t ∧ s.Only t [.fret, .out] ∧
      t.fret = { s.fret with pending := insertPending (v, eff) s.fret.pending } ∧
      t.out = (s.childPorts.reverse.map fun p => Out.announce p (.stretch v eff)) ++ s.out) ∧
  (∀ s v eff, s.fret.state = .member ∨ s.fret.state = .holdover → eff.toNat ≤ s.fret.west.toNat →
    ∃ t, exec (.stretchAnnounceReceive (.stretch v eff)) s = .next t ∧
      s.Only t [.top, .fret, .chest, .tasks, .out] ∧ t.fret.state = .track ∧ t.fret.stretchLate = true ∧
      t.fret.alignLost = true ∧ t.fret.west = s.fret.west ∧ s.AllAborted t) ∧
  (∀ s v eff, s.fret.state ≠ .member → s.fret.state ≠ .holdover → eff.toNat ≤ s.fret.west.toNat →
    ∃ t, exec (.stretchAnnounceReceive (.stretch v eff)) s = .next t ∧
      s.Only t [.top, .fret, .chest, .out] ∧ t.fret.state = s.fret.state ∧ t.fret.stretchLate = true ∧
      t.fret.west = s.fret.west) ∧
  (∀ s mhz fc, ∃ t, exec (.stretchAnnounceReceive (.clock mhz fc)) s = .next t ∧ s.Only t [.clk, .fret, .out] ∧
      t.fret = { s.fret with changeAt := some fc, changeMhz := mhz } ∧
      t.out = (s.childPorts.reverse.map fun p => Out.announce p (.clock mhz fc)) ++ s.out) ∧
  (∀ s v eff rest, s.fret.pending = (v, eff) :: rest → eff.toNat ≤ s.fret.west.toNat →
    ∃ t, exec .stretchApply s = .next t ∧ s.Only t [.fret, .tel] ∧
      t.fret.stretch = v ∧ t.fret.pending = rest ∧ t.fret.west = s.fret.west ∧ t.fret.state = s.fret.state ∧
      t.tel.strh = ((eff, s.fret.stretch, v) :: s.tel.strh).take 64) ∧
  (∀ s v eff rest, s.fret.pending = (v, eff) :: rest → s.fret.west.toNat < eff.toNat → exec .stretchApply s = .next s) ∧
  (∀ s src m x, Tab.find s.tasks m.task.toNat = some x → x.busy = true → s.fret.west.toNat ≤ m.fret →
    ∃ t, exec (.abortMessageReceive src m) s = .next t ∧ s.Only t [.tasks, .out] ∧
      (t.task m.task).recvd = true ∧
      (t.task m.task).abort = some (AbortSt.merge x.abort ⟨m.fret, m.chip, m.status, s.now⟩) ∧
      (t.task m.task).phase = x.phase ∧
      (∀ n, n ≠ m.task → t.task n = s.task n) ∧
      t.out = ((s.treePorts.filter (· ≠ src)).reverse.map fun p => Out.abort p m) ++ s.out) ∧
  (∀ s src m x, Tab.find s.tasks m.task.toNat = some x → x.busy = true → m.fret < s.fret.west.toNat →
    ∃ t, exec (.abortMessageReceive src m) s = .next t ∧ s.Only t [.top, .fret, .chest, .tasks, .out] ∧
      t.fret.abortLate = true ∧ (t.task m.task).recvd = true ∧
      (t.task m.task).abort = some (AbortSt.merge x.abort ⟨m.fret, m.chip, m.status, s.now⟩)) ∧
  (∀ s src m, Tab.find s.tasks m.task.toNat = none → s.listed m.task = true → s.fret.west.toNat ≤ m.fret →
    ∃ t, exec (.abortMessageReceive src m) s = .next t ∧ s.Only t [.fret, .out] ∧
      Tab.get [] t.fret.early m.task.toNat =
        Tab.get [] s.fret.early m.task.toNat ++ [⟨m.fret, m.chip, m.status, s.now⟩])

/-- The owner token, from the table of 09 R501: a free token is claimed by a port, its holder releases or gives it, each change
raises attention cause owner (bit 10) on both ports, and a claim or give from the other port is counted in TOP_OWNER.denied. What
R501's table has no row for (a claim by the holder, a release by a port that does not hold the token, an operation by the MC)
leaves the token as it is. -/
def Obligations.OwnerTokenMoves : Prop :=
  (∀ s (p : HostPort), s.top.owner = .none →
    ∃ t, exec (.ownerClaim p.accessor) s = .next t ∧ s.Only t [.top, .out] ∧ t.top.owner = p.owner ∧
      bit t.top.cause.a 10 = true ∧ bit t.top.cause.b 10 = true ∧ t.top.denied = s.top.denied) ∧
  (∀ s (p : HostPort), s.top.owner = p.owner → exec (.ownerClaim p.accessor) s = .next s) ∧
  (∀ s (p : HostPort), s.top.owner = p.other.owner →
    exec (.ownerClaim p.accessor) s = .next { s with top := { s.top with denied := satAdd s.top.denied 1 } } ∧
    exec (.ownerGive p.accessor) s = .next { s with top := { s.top with denied := satAdd s.top.denied 1 } }) ∧
  (∀ s (p : HostPort), s.top.owner = p.owner →
    ∃ t, exec (.ownerRelease p.accessor) s = .next t ∧ s.Only t [.top, .out] ∧ t.top.owner = .none ∧
      bit t.top.cause.a 10 = true ∧ bit t.top.cause.b 10 = true ∧ t.top.denied = s.top.denied) ∧
  (∀ s (p : HostPort), s.top.owner ≠ p.owner → exec (.ownerRelease p.accessor) s = .next s) ∧
  (∀ s (p : HostPort), s.top.owner = p.owner →
    ∃ t, exec (.ownerGive p.accessor) s = .next t ∧ s.Only t [.top, .out] ∧ t.top.owner = p.other.owner ∧
      bit t.top.cause.a 10 = true ∧ bit t.top.cause.b 10 = true ∧ t.top.denied = s.top.denied) ∧
  (∀ s (p : HostPort), s.top.owner = .none → exec (.ownerGive p.accessor) s = .next s) ∧
  (∀ s, (∃ t, exec (.ownerClaim .mc) s = .next t ∧ t.top.owner = s.top.owner ∧ t.top.cause = s.top.cause) ∧
    (∃ t, exec (.ownerRelease .mc) s = .next t ∧ t.top.owner = s.top.owner ∧ t.top.cause = s.top.cause) ∧
    ∃ t, exec (.ownerGive .mc) s = .next t ∧ t.top.owner = s.top.owner ∧ t.top.cause = s.top.cause)

/-- PCIe port events, from 09 R475, R480, R492, R495, R503, R504, R506 and 18 R771: PERST#, a hot reset, a link disable or DL_Down
resets the port's own block and its copies of the attention registers, frees a token that the port holds, and leaves the other
port's block and mask; a port whose PERST# is high can come up, with the negotiated link; a BAR2 size from 64 GiB to 1 TiB and a
maximum payload size up to 4,096 B are taken, and others are not; a write of the notice ring's head hands its entries back; a
host receiver's records are consumed up to a record boundary, and consume_err is set at any other position; a port that holds no
token writes no register of the other port's block, which is counted as denied; an attention pulse that is due is sent while
the pin is ready. -/
def Obligations.HostPortEvents : Prop :=
  (∀ s p how, ∃ t, exec (.perst p how) s = .next t ∧ s.Only t [.top, .mch, .pcie, .out] ∧
    t.pcieOf p = { ({} : PcieSt) with perstN := if how = .perst then false else (s.pcieOf p).perstN } ∧
    t.pcieOf p.other = s.pcieOf p.other ∧ t.top.mask.get p.other = s.top.mask.get p.other ∧
    (s.top.owner ≠ p.owner → t.top.owner = s.top.owner ∧ t.top.cause.get p = 0 ∧ t.top.mask.get p = 0x3FFF) ∧
    (s.top.owner = p.owner → t.top.owner = .none)) ∧
  (∀ s p, exec (.perstDeassert p) s = .next { s with pcie := s.pcie.set p { s.pcie.get p with perstN := true } }) ∧
  (∀ s p w v f m, (s.pcieOf p).perstN = true →
    exec (.pcieLinkUp p w v f m) s =
      .next { s with pcie := s.pcie.set p { s.pcie.get p with up := true, width := w, speed := v, flit := f, mps := m } }) ∧
  (∀ s p w v f m, (s.pcieOf p).perstN = false → exec (.pcieLinkUp p w v f m) s = .next s) ∧
  (∀ s p n, 36 ≤ n → n ≤ 40 →
    exec (.pcieConfigWrite p (.resizeBar2 n)) s =
      .next { s with pcie := s.pcie.set p { s.pcie.get p with bar2Log := n } }) ∧
  (∀ s p n, n < 36 ∨ 40 < n →
    ∃ t, exec (.pcieConfigWrite p (.resizeBar2 n)) s = .next t ∧ s.Only t [.pcie] ∧ t.pcieOf p = s.pcieOf p) ∧
  (∀ s p m, m.toNat ≤ 5 →
    exec (.pcieConfigWrite p (.maxPayload m)) s =
      .next { s with pcie := s.pcie.set p { s.pcie.get p with mps := m } }) ∧
  (∀ s p m, 5 < m.toNat →
    ∃ t, exec (.pcieConfigWrite p (.maxPayload m)) s = .next t ∧ s.Only t [.pcie] ∧ t.pcieOf p = s.pcieOf p) ∧
  (∀ s acc (p : HostPort) v, acc = p.accessor ∨ s.mayWrite acc = true →
    ∃ t, exec (.nqHeadWrite acc p v) s = .next t ∧ s.Only t [.pcie] ∧ t.pcieOf p.other = s.pcieOf p.other ∧
      t.pcieOf p = { s.pcieOf p with
        nqHead := v.extractLsb' 0 16
        nqCount := if (s.pcieOf p).nqEntries = 0 then 0
          else ((s.pcieOf p).nqTail.toNat + (s.pcieOf p).nqEntries
            - (v.extractLsb' 0 16 : BitVec 16).toNat % (s.pcieOf p).nqEntries) % (s.pcieOf p).nqEntries
        vec512 := false }) ∧
  (∀ s acc (p : HostPort) v k, acc = p.accessor ∨ s.mayWrite acc = true →
    (s.queue (v.extractLsb' 18 12 : BitVec 12).toNat).state ≠ .unbound →
    rxPort (s.queue (v.extractLsb' 18 12 : BitVec 12).toNat).kind = some p →
    boundary (v.extractLsb' 0 18 : BitVec 18).toNat (bit v 30) (s.queue (v.extractLsb' 18 12 : BitVec 12).toNat)
      (s.queue (v.extractLsb' 18 12 : BitVec 12).toNat).recs = some k →
    ∃ t, exec (.rxConsume acc p v) s = .next t ∧ s.Only t [.mch, .out] ∧ (bit v 31 = false → t.out = s.out) ∧
      (t.queue (v.extractLsb' 18 12 : BitVec 12).toNat).recs =
        (s.queue (v.extractLsb' 18 12 : BitVec 12).toNat).recs.drop k) ∧
  (∀ s acc (p : HostPort) v, acc = p.accessor ∨ s.mayWrite acc = true →
    (s.queue (v.extractLsb' 18 12 : BitVec 12).toNat).state = .unbound ∨
    rxPort (s.queue (v.extractLsb' 18 12 : BitVec 12).toNat).kind ≠ some p ∨
    boundary (v.extractLsb' 0 18 : BitVec 18).toNat (bit v 30) (s.queue (v.extractLsb' 18 12 : BitVec 12).toNat)
      (s.queue (v.extractLsb' 18 12 : BitVec 12).toNat).recs = none →
    exec (.rxConsume acc p v) s =
      .next { s with pcie := s.pcie.set p { s.pcie.get p with consumeErr := true } }) ∧
  (∀ s (p : HostPort) v, s.holdsToken p.other = false →
    exec (.nqHeadWrite p.other.accessor p v) s = .next { s with top := { s.top with denied := satAdd s.top.denied 1 } } ∧
    exec (.rxConsume p.other.accessor p v) s = .next { s with top := { s.top with denied := satAdd s.top.denied 1 } }) ∧
  (∀ s p, (s.top.pin.get p).pulseDue = true → s.busyPin = false →
    exec (.attentionPulse p) s = .next { s with
      out := .pulse p :: s.out, top := { s.top with pin := s.top.pin.set p { pulseDue := false } } }) ∧
  (∀ s p, (s.top.pin.get p).pulseDue = false ∨ s.busyPin = true → exec (.attentionPulse p) s = .next s)

/-- The host's windows, from 05 R242 to R246 and 09 R480, R483 to R488: a BAR2 read returns the bytes of memory that can be
reached and is not uncorrectable, and all ones otherwise; a BAR2 write of memory that can be reached stores its bytes where no
sector is uncorrectable, and changes no other byte; elsewhere it is discarded; a BAR4 write to a window's message fills its
assembly slot, a byte written twice refuses the message with NAK_FULL, detail 9, a message complete after the write is refused
with NAK_STALE, detail 0xA, where the connection's sender is not the port, and is sent where the connection is OPEN and R378 allows
it; with no free slot a BAR4 write waits; 2^20 frets after its first write an incomplete message is refused. -/
def Obligations.HostWindowAccesses : Prop :=
  (∀ s p off len errs, s.reach (s.bar2Addr p off) len ≠ .ok →
    exec (.bar2Read p off ⟨len, errs⟩) s = .next { s with out := .bar2 p (List.replicate len 0xFF) :: s.out }) ∧
  (∀ s p off len errs, s.reach (s.bar2Addr p off) len = .ok →
    ((s.noteErrs (errs.filter fun e => (sectorsOf (s.bar2Addr p off) len).contains e.1)).checkRange
      (s.bar2Addr p off) len).1 = [] →
    ∃ t, exec (.bar2Read p off ⟨len, errs⟩) s = .next t ∧ s.Only t [.top, .rel, .chest, .hbm, .parts, .out] ∧
      t.out.head? = some (.bar2 p (s.hbmBytes (s.bar2Addr p off) len)) ∧ ∀ a, t.hbmByte a = s.hbmByte a) ∧
  (∀ s p off len errs, s.reach (s.bar2Addr p off) len = .ok →
    ((s.noteErrs (errs.filter fun e => (sectorsOf (s.bar2Addr p off) len).contains e.1)).checkRange
      (s.bar2Addr p off) len).1 ≠ [] →
    ∃ t, exec (.bar2Read p off ⟨len, errs⟩) s = .next t ∧ s.Only t [.top, .rel, .chest, .hbm, .parts, .out] ∧
      t.out.head? = some (.bar2 p (List.replicate len 0xFF)) ∧ ∀ a, t.hbmByte a = s.hbmByte a) ∧
  (∀ s p off data wrong errs, s.reach (s.bar2Addr p off) data.length ≠ .ok →
    exec (.bar2Write p off ⟨data, wrong, errs⟩) s = .next s) ∧
  (∀ s p off data wrong errs, s.reach (s.bar2Addr p off) data.length = .ok →
    ∃ t, exec (.bar2Write p off ⟨data, wrong, errs⟩) s = .next t ∧ s.Only t [.top, .rel, .chest, .hbm, .parts, .out] ∧
      (∀ a, a < s.bar2Addr p off ∨ s.bar2Addr p off + data.length ≤ a → t.hbmByte a = s.hbmByte a) ∧
      ((∀ sec ∈ sectorsOf (s.bar2Addr p off) data.length,
          (s.noteErrs (errs.filter fun e => (sectorsOf (s.bar2Addr p off) data.length).contains e.1)).sectorErr sec
            ≠ some .twoBits ∧
          (s.noteErrs (errs.filter fun e => (sectorsOf (s.bar2Addr p off) data.length).contains e.1)).sectorErr sec
            ≠ some .poison) →
        ∀ (i : Nat) (b : Byte), data[i]? = some b → t.hbmByte (s.bar2Addr p off + i) = b)) ∧
  (∀ s p off data, (s.pcieOf p).stalled ≠ [] ∨ 64 ≤ (s.pcieOf p).slots.length →
    exec (.bar4Write p off data) s = .next { s with
      pcie := s.pcie.set p { s.pcie.get p with stalled := (s.pcie.get p).stalled ++ [(off, data)] } }) ∧
  (∀ s p off data a, (s.pcieOf p).stalled = [] → (s.pcieOf p).slots.length < 64 →
    off % 0x10000 + data.length ≤ 0x1004 → data ≠ [] →
    a = Assembly.puts (((s.pcieOf p).slots.find? fun a => decide (a.conn = off / 0x10000 % 4096)).getD
      ⟨off / 0x10000 % 4096, [], s.now, 0x1004⟩) (off % 0x10000) data → a.result = .waits →
    ∃ t, exec (.bar4Write p off data) s = .next t ∧ s.Only t [.pcie] ∧ t.pcieOf p.other = s.pcieOf p.other ∧
      t.pcieOf p = { s.pcieOf p with
        slots := ((s.pcieOf p).slots.filter fun a => decide (a.conn ≠ off / 0x10000 % 4096)) ++ [a] }) ∧
  (∀ s p off data a, (s.pcieOf p).stalled = [] → (s.pcieOf p).slots.length < 64 →
    off % 0x10000 + data.length ≤ 0x1004 → data ≠ [] →
    a = Assembly.puts (((s.pcieOf p).slots.find? fun a => decide (a.conn = off / 0x10000 % 4096)).getD
      ⟨off / 0x10000 % 4096, [], s.now, 0x1004⟩) (off % 0x10000) data → a.result = .broken →
    ∃ t, exec (.bar4Write p off data) s = .next t ∧ s.Only t [.top, .mch, .pcie, .out] ∧
      (t.pcieOf p).slots = ((s.pcieOf p).slots.filter fun a => decide (a.conn ≠ off / 0x10000 % 4096)) ∧
      (t.pcieOf p).subRefused = satAdd (s.pcieOf p).subRefused 1 ∧
      (t.conn (off / 0x10000 % 4096)).refused = satAdd (s.conn (off / 0x10000 % 4096)).refused 1 ∧
      (t.conn (off / 0x10000 % 4096)).lastStatus = BitVec.ofNat 8 Status.nakFull.code ∧
      (t.conn (off / 0x10000 % 4096)).detail = 9) ∧
  (∀ s p off data a body, (s.pcieOf p).stalled = [] → (s.pcieOf p).slots.length < 64 →
    off % 0x10000 + data.length ≤ 0x1004 → data ≠ [] →
    a = Assembly.puts (((s.pcieOf p).slots.find? fun a => decide (a.conn = off / 0x10000 % 4096)).getD
      ⟨off / 0x10000 % 4096, [], s.now, 0x1004⟩) (off % 0x10000) data → a.result = .complete body →
    txPort (s.conn (off / 0x10000 % 4096)).srcKind ≠ some p →
    ∃ t, exec (.bar4Write p off data) s = .next t ∧ s.Only t [.top, .mch, .pcie, .out] ∧
      (t.pcieOf p).slots = ((s.pcieOf p).slots.filter fun a => decide (a.conn ≠ off / 0x10000 % 4096)) ∧
      (t.pcieOf p).subRefused = satAdd (s.pcieOf p).subRefused 1 ∧
      (t.conn (off / 0x10000 % 4096)).refused = satAdd (s.conn (off / 0x10000 % 4096)).refused 1 ∧
      (t.conn (off / 0x10000 % 4096)).lastStatus = BitVec.ofNat 8 Status.nakStale.code ∧
      (t.conn (off / 0x10000 % 4096)).detail = 0xA) ∧
  (∀ s p off data a body, (s.pcieOf p).stalled = [] → (s.pcieOf p).slots.length < 64 →
    off % 0x10000 + data.length ≤ 0x1004 → data ≠ [] →
    a = Assembly.puts (((s.pcieOf p).slots.find? fun a => decide (a.conn = off / 0x10000 % 4096)).getD
      ⟨off / 0x10000 % 4096, [], s.now, 0x1004⟩) (off % 0x10000) data → a.result = .complete body →
    txPort (s.conn (off / 0x10000 % 4096)).srcKind = some p → (s.conn (off / 0x10000 % 4096)).state = .opened →
    (s.conn (off / 0x10000 % 4096)).nak = false → (s.conn (off / 0x10000 % 4096)).outst < (s.conn (off / 0x10000 % 4096)).quota →
    (s.conn (off / 0x10000 % 4096)).outst.toNat + recUnits body.length ≤ (s.conn (off / 0x10000 % 4096)).grant.toNat →
    ∃ t, exec (.bar4Write p off data) s = .next t ∧ s.Only t [.mch, .pcie, .out] ∧
      (t.pcieOf p).slots = ((s.pcieOf p).slots.filter fun a => decide (a.conn ≠ off / 0x10000 % 4096)) ∧
      (t.pcieOf p).subRefused = (s.pcieOf p).subRefused ∧
      (t.conn (off / 0x10000 % 4096)).seq = (s.conn (off / 0x10000 % 4096)).seq + 1 ∧
      (t.conn (off / 0x10000 % 4096)).outst =
        (s.conn (off / 0x10000 % 4096)).outst + BitVec.ofNat 16 (recUnits body.length) ∧
      t.out.length = s.out.length + 1) ∧
  (∀ s p (c : ConnN), ((s.pcieOf p).slots.any fun a => decide (a.conn = c.val) && decide (a.first + 2 ^ 20 ≤ s.now)) = true →
    (s.pcieOf p).stalled = [] →
    ∃ t, exec (.submissionTimeout p c) s = .next t ∧ s.Only t [.top, .mch, .pcie, .out] ∧
      (t.pcieOf p).slots = ((s.pcieOf p).slots.filter fun a => decide (a.conn ≠ c.val)) ∧
      (t.pcieOf p).subRefused = satAdd (s.pcieOf p).subRefused 1 ∧
      (t.conn c).refused = satAdd (s.conn c).refused 1) ∧
  (∀ s p (c : ConnN), ((s.pcieOf p).slots.any fun a => decide (a.conn = c.val) && decide (a.first + 2 ^ 20 ≤ s.now)) = true →
    ∃ t, exec (.submissionTimeout p c) s = .next t ∧ s.Only t [.top, .mch, .pcie, .out]) ∧
  (∀ s p (c : ConnN), ((s.pcieOf p).slots.any fun a => decide (a.conn = c.val) && decide (a.first + 2 ^ 20 ≤ s.now)) = false →
    exec (.submissionTimeout p c) s = .next s)

/-- An abort cause found for a task, from 04 R217, R218, R220 and R787: its abort fret is the present fret plus the horizon for a
task that spans chips and the present fret for one that does not; it is merged with the abort already set; a task not yet
launched does not launch; the cause is kept for the abort message while none was sent or received; no other task changes; a
task that committed or stopped takes no cause. -/
def Obligations.CauseSetsAbortFret : Prop :=
  (∀ (s : State) (n : BitVec 32) (st : Status) (x : TaskRt), Tab.find s.tasks n.toNat = some x →
    x.phase ≠ .committed → x.phase ≠ .stopped →
    s.Only (s.detect n st) [.tasks, .chest] ∧
    ((s.detect n st).task n).abort = some (AbortSt.merge x.abort
      ⟨s.now + (if x.multi then s.fret.horizon.toNat else 0), s.fret.chip, st, s.now⟩) ∧
    ((s.detect n st).task n).phase = x.phase ∧
    ((s.detect n st).task n).dead = (x.dead || (decide (x.phase = .waiting ∨ x.phase = .armed) || decide (s.now ≤ x.launch))) ∧
    ((s.detect n st).task n).causes = (if x.sent || x.recvd then x.causes else x.causes ++ [(s.now, st)]) ∧
    (∀ m, m ≠ n → (s.detect n st).task m = s.task m)) ∧
  (∀ (s : State) (n : BitVec 32) (st : Status) (x : TaskRt), Tab.find s.tasks n.toNat = some x →
    (x.phase = .committed ∨ x.phase = .stopped) → s.detect n st = s)

/-- Configuring, arming and launching a tile, from 03 R117, R164 to R171, 04 R183, R184, R203 and 11 R559, R571: a configuration
fills the next bank of a tile that takes messages, and a fenced tile sinks and counts it; an arm at or after its launch fret slips
with kind 0x4; an arm in time arms the tile with the bank it names where the bank passes the checks, and otherwise sets cfg_err and
fails the task's arming; 16 frets before launch a task with a tile that is not armed is stopped from launching; a task that may
launch runs from its launch fret on its armed tiles; one that is late, outside MEMBER and HOLDOVER or without a fitting variant
aborts and does not launch. -/
def Obligations.TilesArmAndLaunch : Prop :=
  (∀ s (lt : Lt) task cfg, s.tileTakes (s.ptOf lt) = true →
    exec (.configWrite lt task cfg) s = .next (s.updTile (s.ptOf lt) fun t =>
      { t with next := some ⟨task, cfg⟩, mode := if t.mode = .idle then .config else t.mode })) ∧
  (∀ s (lt : Lt) task cfg m, (s.role (s.ptOf lt)).role = .fenced →
    exec (.configWrite lt task cfg) s = .next { s with heal := { s.heal with absorbed := satAdd s.heal.absorbed 1 } } ∧
    exec (.arm lt m) s = .next { s with heal := { s.heal with absorbed := satAdd s.heal.absorbed 1 } }) ∧
  (∀ s (lt : Lt) task cfg m, (s.role (s.ptOf lt)).role ≠ .fenced → s.tileTakes (s.ptOf lt) = false →
    exec (.configWrite lt task cfg) s = .next s ∧ exec (.arm lt m) s = .next s) ∧
  (∀ s (lt : Lt) m, s.tileTakes (s.ptOf lt) = true → (s.tile (s.ptOf lt)).capture = none → m.launch ≤ s.now →
    exec (.arm lt m) s = .next (s.slip m.task 4 0)) ∧
  (∀ s (lt : Lt) m, s.tileTakes (s.ptOf lt) = true → (s.tile (s.ptOf lt)).capture ≠ none → exec (.arm lt m) s = .next s) ∧
  (∀ s (lt : Lt) m b, s.tileTakes (s.ptOf lt) = true → (s.tile (s.ptOf lt)).capture = none → s.now < m.launch →
    s.allowShort m.task = false → m.streams = [] →
    (if m.current then (s.tile (s.ptOf lt)).cur else (s.tile (s.ptOf lt)).next) = some b → armCheck b.cfg = none →
    ∃ t, exec (.arm lt m) s = .next t ∧ s.Only t [.tiles, .tasks] ∧
      t.tile (s.ptOf lt) = { s.tile (s.ptOf lt) with
        armed := some ⟨m.task, m.salt, m.launch, m.current⟩, armedOk := true, armCur := m.current } ∧
      (∀ pt, pt ≠ s.ptOf lt → t.tile pt = s.tile pt) ∧
      (t.task m.task).phase = (if (s.task m.task).phase = .waiting then .armed else (s.task m.task).phase)) ∧
  (∀ s (lt : Lt) m b, s.tileTakes (s.ptOf lt) = true → (s.tile (s.ptOf lt)).capture = none → s.now < m.launch →
    (if m.current then (s.tile (s.ptOf lt)).cur else (s.tile (s.ptOf lt)).next) = some b → armCheck b.cfg = none →
    ∃ t, exec (.arm lt m) s = .next t ∧ s.Only t [.top, .fret, .chest, .tiles, .cluss, .ctxs, .tasks, .out] ∧
      t.tile (s.ptOf lt) = { s.tile (s.ptOf lt) with
        armed := some ⟨m.task, m.salt, m.launch, m.current⟩, armedOk := true, armCur := m.current } ∧
      (∀ key, (∀ e ∈ m.streams, 64 * ltClus lt + e.1 ≠ key) → t.ctx key = s.ctx key) ∧
      (s.allowShort m.task = true → t.fret.allowShort = true ∧ (t.task m.task).dead = true)) ∧
  (∀ s (lt : Lt) m b e, s.tileTakes (s.ptOf lt) = true → (s.tile (s.ptOf lt)).capture = none → s.now < m.launch →
    s.allowShort m.task = false → m.streams = [] →
    (if m.current then (s.tile (s.ptOf lt)).cur else (s.tile (s.ptOf lt)).next) = some b → armCheck b.cfg = some e →
    ∃ t, exec (.arm lt m) s = .next t ∧ s.Only t [.tiles, .tasks] ∧ (t.tile (s.ptOf lt)).armedOk = false ∧
      (t.tile (s.ptOf lt)).cfgErr = true ∧ (t.task m.task).dead = true ∧
      (t.task m.task).armFail = (s.task m.task).armFail ++ [.bound] ∧
      ((s.tile (s.ptOf lt)).cfgErr = false → (t.tile (s.ptOf lt)).errCheck = BitVec.ofNat 4 e)) ∧
  (∀ s task lt, (s.task task).phase = .waiting ∨ (s.task task).phase = .armed → s.now + 16 = (s.task task).launch →
    lt ∈ s.effTiles task → (s.tile (s.ptOf lt.1)).armed = none →
    exec (.armDeadline task) s = .next (s.updTask task fun t => { t with armLate := true, dead := true })) ∧
  (∀ s task, s.now + 16 ≠ (s.task task).launch → exec (.armDeadline task) s = .next s) ∧
  (∀ s task, (s.task task).phase = .waiting ∨ (s.task task).phase = .armed → (s.task task).launch = s.now →
    s.launchSlips task = false → s.launchCauses task = [] → s.unfit task = none → (s.task task).dead = false →
    ∃ t, exec (.taskLaunch task) s = .next t ∧ s.Only t [.tiles, .tasks, .rel] ∧ (t.task task).phase = .running ∧
      (∀ n, n ≠ task → t.task n = s.task n) ∧
      (∀ pt, (∀ e ∈ s.effTiles task, s.ptOf e.1 ≠ pt) → t.tile pt = s.tile pt) ∧
      (∀ e, s.effTiles task = [e] →
        t.tile (s.ptOf e.1) = launchTile (((s.imageOf task).map (·.k)).getD 6) (s.tile (s.ptOf e.1))) ∧
      t.rel = (if (s.task task).attempt = 0 then s.rel else { s.rel with retries := satAdd s.rel.retries 1 })) ∧
  (∀ s task, Tab.find s.tasks task.toNat = some (s.task task) →
    (s.task task).phase = .waiting ∨ (s.task task).phase = .armed → (s.task task).launch = s.now →
    s.unfit task = none → s.fret.state ≠ .member → s.fret.state ≠ .holdover →
    ∃ t, exec (.taskLaunch task) s = .next t ∧ s.Only t [.fret, .tiles, .tasks, .chest] ∧
      (t.task task).phase = (s.task task).phase ∧
      (t.task task).dead = true ∧ (t.task task).abort.isSome = true ∧ t.fret.slipKind = 4) ∧
  (∀ s task x, Tab.find s.tasks task.toNat = some (s.task task) →
    (s.task task).phase = .waiting ∨ (s.task task).phase = .armed → (s.task task).launch = s.now →
    s.unfit task = some x →
    ∃ t, exec (.taskLaunch task) s = .next t ∧ s.Only t [.top, .tiles, .tasks, .chest, .out] ∧
      (t.task task).dead = true ∧ (t.task task).abort.isSome = true ∧ bit t.top.cause.a 2 = true) ∧
  (∀ s task, (s.task task).launch ≠ s.now ∨ ((s.task task).phase ≠ .waiting ∧ (s.task task).phase ≠ .armed) →
    exec (.taskLaunch task) s = .next s)

/-- Folds, credits and firings, from 02 R105, R107 and 03 R123 to R133, R152, R157, R173: at the start of a slice the tile's fold
changes and the fold that ends saves the units that it spills (the layout is the model's, log entry 59); returned credits are
counted for the next fret, or abort the task with BOUND where they pass the depth; a fired fold takes its inputs, runs its datapath
and sends its outputs once in the fret, with what the tile's checks report, and one short of an input takes none and aborts the
task; a corrected word is written back in a slot that no requester owns; a zeroed tile leaves reset; a credit counter that does not
hold D at its check aborts the task with BOUND; a sample records the queues of configured folds at the sampling frets and changes
nothing else. -/
def Obligations.TilesFireAndReturnCredits : Prop :=
  (∀ s (lt : Lt) pt a c i, s.runs lt = some (pt, a, c) → s.active a c = some (i, 0) → s.inTime a = true →
    ∃ t, exec (.foldSwitch lt) s = .next t ∧ s.Only t [.tiles] ∧ (∀ q, q ≠ pt → t.tile q = s.tile q) ∧
      t.tile pt = { s.tile pt with fold := BitVec.ofNat 3 i, sram := (t.tile pt).sram } ∧
      (c.folds.length ≤ 1 ∨ s.now = a.launch → (t.tile pt).sram = (s.tile pt).sram) ∧
      (∀ f, 1 < c.folds.length → s.now ≠ a.launch →
        c.folds[if i = 0 then c.folds.length - 1 else i - 1]? = some f →
        (t.tile pt).sram = (spillAreas lt f (s.foldRt pt (if i = 0 then c.folds.length - 1 else i - 1))).foldl
          (fun m e => Mem.writeZ m (f.sramBase + e.1) e.2) (s.tile pt).sram)) ∧
  (∀ s (lt : Lt) pt a c, s.runs lt = some (pt, a, c) →
    s.inTime a = false ∨ (∀ i, s.active a c ≠ some (i, 0)) → exec (.foldSwitch lt) s = .next s) ∧
  (∀ s (lt : Lt) fold port n, s.sinks (s.ptOf lt) = true →
    exec (.edgeCreditReturn lt fold port n) s = .next { s with heal := { s.heal with absorbed := satAdd s.heal.absorbed n } }) ∧
  (∀ s (lt : Lt) fold port n pt a c f o e, s.sinks (s.ptOf lt) = false → s.foldCfg lt fold = some (pt, a, c, f) →
    f.outputs[port]? = some o → o.edges.head? = some e →
    ((s.foldRt pt fold).credits.getD port 0) + (listUpd (s.foldRt pt fold).fresh port (· + n)).getD port 0 ≤ e.depth →
    fold < (s.tile pt).rt.length →
    exec (.edgeCreditReturn lt fold port n) s = .next (s.updRt pt fold fun r =>
      { r with fresh := listUpd r.fresh port (· + n), changed := listUpd r.changed port fun _ => s.now })) ∧
  (∀ s (lt : Lt) fold port n pt a c f o e, s.sinks (s.ptOf lt) = false → s.foldCfg lt fold = some (pt, a, c, f) →
    f.outputs[port]? = some o → o.edges.head? = some e →
    e.depth < ((s.foldRt pt fold).credits.getD port 0) + (listUpd (s.foldRt pt fold).fresh port (· + n)).getD port 0 →
    fold < (s.tile pt).rt.length →
    exec (.edgeCreditReturn lt fold port n) s = .next ((s.updRt pt fold fun r =>
      { r with fresh := listUpd r.fresh port (· + n), changed := listUpd r.changed port fun _ => s.now }).detect a.task .bound)) ∧
  (∀ s (lt : Lt) pt a c i o f obs ins u, s.runs lt = some (pt, a, c) → s.active a c = some (i, o) → c.folds[i]? = some f →
    (firingOffsets f).contains o = true → s.inTime a = true → (s.tile pt).mode = .run →
    (s.foldRt pt i).lastFire ≠ some s.now →
    (s.updRt pt i fun r => { r with lastFire := some s.now }).takeInputs lt i (steerInputs f) f.inputs.zipIdx = (ins, u, none) →
    exec (.firing lt obs) s = .next
      ((u.runFold lt pt a i f ins (obs.any TileFault.poisons)).tileFaults pt a.task i
        ((s.updRt pt i fun r => { r with lastFire := some s.now }).foldRt pt i) obs)) ∧
  (∀ s (lt : Lt) pt a c i o f obs ins u st, s.runs lt = some (pt, a, c) → s.active a c = some (i, o) → c.folds[i]? = some f →
    (firingOffsets f).contains o = true → s.inTime a = true → (s.tile pt).mode = .run →
    (s.foldRt pt i).lastFire ≠ some s.now →
    (s.updRt pt i fun r => { r with lastFire := some s.now }).takeInputs lt i (steerInputs f) f.inputs.zipIdx =
      (ins, u, some st) →
    exec (.firing lt obs) s = .next
      (((s.updRt pt i fun r => { r with lastFire := some s.now }).detect a.task st).tileFaults pt a.task i
        ((s.updRt pt i fun r => { r with lastFire := some s.now }).foldRt pt i) obs)) ∧
  (∀ s (lt : Lt) pt a c i o f obs, s.runs lt = some (pt, a, c) → s.active a c = some (i, o) → c.folds[i]? = some f →
    (firingOffsets f).contains o = false ∨ s.inTime a = false ∨ (s.tile pt).mode ≠ .run ∨
      (s.foldRt pt i).lastFire = some s.now → exec (.firing lt obs) s = .next s) ∧
  (∀ s (lt : Lt), s.runs lt = none → (∀ obs, exec (.firing lt obs) s = .next s) ∧ exec (.foldSwitch lt) s = .next s) ∧
  (∀ s pt w, s.freeSlot pt.val (sramBank (8 * w)) = true → exec (.sramCorrectedWriteback pt w) s =
    .next (s.updTile pt fun t => { t with writeBack := t.writeBack.erase (BitVec.ofNat 17 w) })) ∧
  (∀ s pt w, s.freeSlot pt.val (sramBank (8 * w)) = false → exec (.sramCorrectedWriteback pt w) s = .next s) ∧
  (∀ s (pt : Pt), (s.tile pt).inReset = true →
    exec (.tileSramZeroed pt) s = .next (s.updTile pt fun t => { t with sram := [], inReset := false })) ∧
  (∀ s (pt : Pt), (s.tile pt).inReset = false → exec (.tileSramZeroed pt) s = .next s) ∧
  (∀ s (lt : Lt) fold port pt a c f o e es, s.foldCfg lt fold = some (pt, a, c, f) → f.outputs[port]? = some o →
    o.edges = e :: es → max ((s.task a.task).ending - 1) (a.launch + o.lastCredit) + 1 = s.now → s.alive a.task = true →
    (s.foldRt pt fold).credits.getD port 0 ≠ e.depth →
    exec (.creditCheckFret lt fold port) s = .next (s.detect a.task .bound)) ∧
  (∀ s (lt : Lt) fold port pt a c f o e es, s.foldCfg lt fold = some (pt, a, c, f) → f.outputs[port]? = some o →
    o.edges = e :: es → (s.foldRt pt fold).credits.getD port 0 = e.depth →
    exec (.creditCheckFret lt fold port) s = .next s) ∧
  (∀ s, ∃ t, exec .queueSample s = .next t ∧ s.Only t [.tiles] ∧ t.tiles.map (·.1) = s.tiles.map (·.1) ∧
    (∀ e ∈ t.tiles, ∃ d ∈ s.tiles, d.1 = e.1 ∧ e.2 = { d.2 with qs := e.2.qs }) ∧
    ∀ e b f x k, s.tiles = [e] → e.2.cur = some b → b.cfg.folds = [f] → f.inputs = [x] → x.edge = some k →
      s.now % 2 ^ e.2.qexp = 0 →
      ∃ d, t.tiles = [d] ∧ (Tab.get (0, 0) d.2.qs 0).2 = satOfNat 13 (((e.2.rt.getD 0 {}).queues.getD 0 []).length))

/-- Steering units, from 03 R139 to R149: a token message gives the unit a token per whole 4 bytes; at D_k + B + 1 the group that the
token selects leaves, the others are discarded and the token is used up, with what the tile's checks report; a group not wholly in
its queues at D_k + 1 aborts the task with BOUND; a token or a group missing at its time-out aborts it with SKEW; outside the task's
time nothing happens. -/
def Obligations.SteeringUnitsAct : Prop :=
  (∀ s (lt : Lt) fold unit pt a c f u r v, s.steerOf lt fold unit = some (pt, a, c, f, u) → s.inTime a = true →
    s.takeMessage lt fold u.token = some (r, v) →
    exec (.steerTokenArrive lt fold unit) s =
      .next (v.each (wordVals r.body 0 (r.body.length / 4)) fun s w => s.addToken lt pt fold unit a.task u w)) ∧
  (∀ s (lt : Lt) fold unit pt a c f u, s.steerOf lt fold unit = some (pt, a, c, f, u) →
    s.inTime a = false ∨ s.takeMessage lt fold u.token = none → exec (.steerTokenArrive lt fold unit) s = .next s) ∧
  (∀ s (lt : Lt) fold unit pt a c f u t ts o obs w, s.steerOf lt fold unit = some (pt, a, c, f, u) →
    (s.steerRt pt fold unit).tokens = t :: ts →
    groupFret a c fold u (s.steerRt pt fold unit).emitted + u.bound.toNat + 1 = s.now → t.2 < s.now →
    0 < s.groupsReady lt fold u → s.inTime a = true → f.outputs[u.out]? = some o →
    w = ((s.updSteer pt fold unit fun _ => { tokens := ts, emitted := (s.steerRt pt fold unit).emitted + 1 }).each u.data
        fun s i => s.dropWords lt fold i u.group).when (((f.inputs[u.token]?).bind InputCfg.edge).isSome)
          (·.dropWords lt fold u.token 1) →
    exec (.steerEmit lt fold ⟨unit, obs⟩) s = .next
      ((w.sendPort lt pt a.task fold u.out o
        (((s.edgeQueue lt fold (u.data.getD (tokenSel t.1) 0)).take u.group).map (·.bytes))
        (obs.any TileFault.poisons)).tileFaults pt a.task fold (w.foldRt pt fold) obs)) ∧
  (∀ s (lt : Lt) fold unit pt a c f u obs, s.steerOf lt fold unit = some (pt, a, c, f, u) →
    s.inTime a = false ∨ (s.steerRt pt fold unit).tokens = [] → exec (.steerEmit lt fold ⟨unit, obs⟩) s = .next s) ∧
  (∀ s (lt : Lt) fold unit pt a c f u, s.steerOf lt fold unit = some (pt, a, c, f, u) → s.inTime a = true → 0 < u.count →
    groupFret a c fold u (s.steerRt pt fold unit).emitted + 1 = s.now → s.groupsReady lt fold u = 0 →
    exec (.steerGroupLate lt fold unit) s = .next (s.detect a.task .bound)) ∧
  (∀ s (lt : Lt) fold unit pt a c f u, s.steerOf lt fold unit = some (pt, a, c, f, u) → s.inTime a = true → 0 < u.count →
    groupFret a c fold u (s.steerRt pt fold unit).emitted + u.bound.toNat + 1 = s.now → (s.steerRt pt fold unit).tokens = [] →
    exec (.steerTokenTimeout lt fold unit) s = .next (s.detect a.task .skew)) ∧
  (∀ s (lt : Lt) fold unit pt a c f u t, s.steerOf lt fold unit = some (pt, a, c, f, u) → s.inTime a = true →
    (s.steerRt pt fold unit).tokens = [t] → t.2 + u.bound.toNat + 1 = s.now → s.groupsReady lt fold u = 0 →
    exec (.steerGroupTimeout lt fold unit) s = .next (s.detect a.task .skew)) ∧
  (∀ s (lt : Lt) fold unit pt a c f u, s.steerOf lt fold unit = some (pt, a, c, f, u) → s.inTime a = false →
    exec (.steerGroupLate lt fold unit) s = .next s ∧ exec (.steerTokenTimeout lt fold unit) s = .next s ∧
    exec (.steerGroupTimeout lt fold unit) s = .next s)

/-- Frets and release points, from 04 R178, R179, R193, R197 to R201, R212, R213 and 08 R429, R443: halves that do not run apart
count together; apart, each counts its own frets; neither counts while UNLOCKED or frozen, and each new fret of the West half
counts one fret without a beacon and one tick. Flits of a scheduled worm that arrive before its stamp are held at the release
point; a worm that finds no room aborts its task with BOUND and the rest of it is discarded; one that arrives at or after its
stamp, or whose last flit is not in at fret R, slips with the release point's kind and place; a whole worm is released at its
stamp: words enter their queue and credits their port at a tile, and at a Bridge end or a fabric port the worm enters the router
behind it with the next allowance spent; worms of a task that does not run here are discarded and counted. -/
def Obligations.FretsAndReleasePoints : Prop :=
  (∀ s w e, s.fret.state ≠ .unlocked → s.fret.frozen = false → s.apart = false →
    ∃ t, exec (.fretStart w e) s = .next t ∧
      s.Only t [.top, .fret, .rel, .chest, .tel, .mch, .sess, .hbm, .parts, .tiles, .tasks, .out, .ticks, .free] ∧
      t.fret.west = s.fret.west + 1 ∧ t.fret.east = s.fret.east + 1 ∧ t.fret.sinceBeacon = s.fret.sinceBeacon + 1 ∧
      t.fret.state = s.fret.state ∧ t.fret.stretch = s.fret.stretch ∧ t.ticks = s.ticks + 1) ∧
  (∀ s e, s.fret.state ≠ .unlocked → s.fret.frozen = false → s.apart = true →
    ∃ t, exec (.fretStart true e) s = .next t ∧
      s.Only t [.top, .fret, .rel, .chest, .tel, .mch, .sess, .hbm, .parts, .tiles, .tasks, .out, .ticks, .free] ∧
      t.fret.west = s.fret.west + 1 ∧ t.fret.east = (if e then s.fret.east + 1 else s.fret.east) ∧
      t.fret.sinceBeacon = s.fret.sinceBeacon + 1 ∧ t.fret.state = s.fret.state ∧ t.ticks = s.ticks + 1) ∧
  (∀ s e, s.fret.state ≠ .unlocked → s.fret.frozen = false → s.apart = true →
    exec (.fretStart false e) s =
      .next { s with fret := { s.fret with east := if e then s.fret.east + 1 else s.fret.east } }) ∧
  (∀ s : State, s.fret.state = .split → s.apart = true) ∧
  (∀ s : State, s.fret.state = .member ∨ s.fret.state = .holdover → s.apart = false) ∧
  (∀ s w e, (s.fret.state = .unlocked ∨ s.fret.frozen = true) → exec (.fretStart w e) s = .next s) ∧
  (∀ s rp w left flits last, w.head.wtype.toNat < 2 →
    ((Tab.get [] s.held (rpKey rp)).find? (·.partOf w)).any (·.lost) = false → s.orphan w = false →
    (last = true → w.head.poison = false) →
    (rpCap rp).any (fun cap => decide (cap < s.occupancy (rpKey rp) + flits)) = false → 0 < s.toStamp w →
    ∃ t, exec (.releaseQueueArrive rp w ⟨left, flits, false⟩ last) s = .next t ∧ s.Only t [.held, .fabs, .tel] ∧
      (⟨w, ((((Tab.get [] s.held (rpKey rp)).find? (·.partOf w)).map (·.flits)).getD 0) + flits, last, false, left⟩ : Held)
        ∈ Tab.get [] t.held (rpKey rp)) ∧
  (∀ s rp w left flits last x, w.head.wtype.toNat < 2 →
    ((Tab.get [] s.held (rpKey rp)).find? (·.partOf w)).any (·.lost) = false → s.orphan w = false →
    (last = true → w.head.poison = false) →
    (rpCap rp).any (fun cap => decide (cap < s.occupancy (rpKey rp) + flits)) = true →
    Tab.find s.tasks w.head.task.toNat = some x → x.phase ≠ .committed → x.phase ≠ .stopped →
    ∃ t, exec (.releaseQueueArrive rp w ⟨left, flits, false⟩ last) s = .next t ∧
      s.Only t [.held, .fabs, .tel, .spn, .tasks, .chest] ∧ (t.task w.head.task).abort.isSome = true ∧
      (∀ p, rp = .fabric p → (t.fab p).cuts = satAdd (s.fab p).cuts 1) ∧
      ∀ h ∈ Tab.get [] t.held (rpKey rp), h.partOf w = true → h.lost = true ∧ h.flits = 0) ∧
  (∀ s rp w left flits last, w.head.wtype.toNat < 2 →
    ((Tab.get [] s.held (rpKey rp)).find? (·.partOf w)).any (·.lost) = false → s.orphan w = false →
    (last = true → w.head.poison = false) →
    (rpCap rp).any (fun cap => decide (cap < s.occupancy (rpKey rp) + flits)) = false → s.toStamp w ≤ 0 →
    ∃ t, exec (.releaseQueueArrive rp w ⟨left, flits, false⟩ last) s = .next t ∧
      s.Only t [.fret, .held, .fabs, .tel, .tasks, .chest] ∧ t.fret.slipKind = BitVec.ofNat 4 (rpSlip rp).1 ∧
      t.fret.slipWhere = BitVec.ofNat 12 (rpSlip rp).2) ∧
  (∀ s rp w left flits last, w.head.wtype.toNat < 2 →
    ((Tab.get [] s.held (rpKey rp)).find? (·.partOf w)).any (·.lost) = false → s.orphan w = true →
    ∃ t, exec (.releaseQueueArrive rp w ⟨left, flits, false⟩ last) s = .next t ∧ s.Only t [.held, .fabs, .tel, .spn] ∧
      ∀ h ∈ Tab.get [] t.held (rpKey rp), h.partOf w = false) ∧
  (∀ s (p : FabPort) w left flits last, (Tab.get {} s.relx.transit (transitKey 4 p)).count + 1 < max 1 s.rel.parThresh.toNat →
    ∃ t, exec (.releaseQueueArrive (.fabric p) w ⟨left, flits, true⟩ last) s = .next t ∧
      s.Only t [.fret, .held, .fabs, .tel, .spn, .rel, .relx, .tasks, .chest] ∧
      (Tab.get {} t.relx.transit (transitKey 4 p)).count = (Tab.get {} s.relx.transit (transitKey 4 p)).count + 1) ∧
  (∀ s rp w, w.head.wtype.toNat < 2 → s.toStamp w = 0 → s.orphan w = false →
    (∀ h ∈ Tab.get [] s.held (rpKey rp), h.w = w → h.whole = false ∧ h.lost = false) →
    ∃ t, exec (.wormLate rp w) s = .next t ∧ s.Only t [.fret, .held, .tasks, .chest] ∧
      t.fret.slipKind = BitVec.ofNat 4 (rpSlip rp).1 ∧ t.fret.slipWhere = BitVec.ofNat 12 (rpSlip rp).2 ∧
      ∀ h ∈ Tab.get [] t.held (rpKey rp), h.partOf w = true → h.lost = true) ∧
  (∀ s rp w h, h ∈ Tab.get [] s.held (rpKey rp) → h.w = w → (h.whole = true ∨ h.lost = true) →
    exec (.wormLate rp w) s = .next s) ∧
  (∀ s (p : FabPort) n h, (Tab.get [] s.held (rpKey (.fabric p)))[n]? = some h → h.whole = true → s.toStamp h.w = 0 →
    s.orphan h.w = false →
    exec (.wormRelease (.fabric p) n) s = .next ((s.updHeld (.fabric p) fun q => q.eraseIdx n).headIn (.ring (portRing p)) p 0
      (nextStamp h.w) (wormFlits h.w) true)) ∧
  (∀ s row e n h, (Tab.get [] s.held (rpKey (.bridge row e)))[n]? = some h → h.whole = true → s.toStamp h.w = 0 →
    s.orphan h.w = false →
    exec (.wormRelease (.bridge row e) n) s = .next ((s.updHeld (.bridge row e) fun q => q.eraseIdx n).headIn
      (.hub (Fin.ofNat 128 (hubAt (if e then 8 else 7) row))) (if e then 3 else 1) h.left (nextStamp h.w) (wormFlits h.w) true)) ∧
  (∀ s (lt : Lt) n h pt a c f, (Tab.get [] s.held (rpKey (.tile lt)))[n]? = some h → h.whole = true → s.toStamp h.w = 0 →
    s.orphan h.w = false → s.sinks (s.ptOf lt) = false → h.w.head.wtype = 0 →
    s.foldCfg lt h.w.head.fold = some (pt, a, c, f) → a.task = h.w.head.task → f.steers = [] →
    exec (.wormRelease (.tile lt) n) s = .next ((s.updHeld (.tile lt) fun q => q.eraseIdx n).updRt pt h.w.head.fold fun r =>
      { r with
        queues := (listUpd r.queues h.w.head.port fun q =>
          q ++ (chunks 128 h.w.head.count h.w.payload).map fun w => ⟨w, s.now, false⟩) })) ∧
  (∀ s (lt : Lt) n h, (Tab.get [] s.held (rpKey (.tile lt)))[n]? = some h → h.whole = true → s.toStamp h.w = 0 →
    s.orphan h.w = false → s.sinks (s.ptOf lt) = false → h.w.head.wtype ≠ 0 →
    (s.tile (s.ptOf lt)).running.map (·.task) = some h.w.head.task →
    exec (.wormRelease (.tile lt) n) s =
      exec (.edgeCreditReturn lt h.w.head.fold h.w.head.port h.w.head.count) (s.updHeld (.tile lt) fun q => q.eraseIdx n)) ∧
  (∀ s rp n h, (Tab.get [] s.held (rpKey rp))[n]? = some h → s.orphan h.w = true →
    exec (.wormRelease rp n) s = .next ((s.updHeld rp fun q => q.eraseIdx n).countDrop rp)) ∧
  (∀ s rp n h, (Tab.get [] s.held (rpKey rp))[n]? = some h → s.orphan h.w = false →
    h.whole = false ∨ s.toStamp h.w ≠ 0 → exec (.wormRelease rp n) s = .next s)

/-- The loader arms tasks of started schedules, and tasks end, from 03 R133, 08 R458, 09 R500, 10 R538 and 11 R558, R562, R567: the
next task in order is armed at its planned fret, and a retry that is due at its own, with a configuration and an arm message for
each tile of the task, over the NCN where the loader chooses it or R458 says so and on VC2 otherwise; at a task's end its tiles go
idle, and a full edge queue or a session that is not judged aborts it; a slot of a fenced tile, or of one that a first hang named,
moves to the cluster's spare in a fret in which no task runs on the cluster, and with no spare it stays. -/
def Obligations.TasksArmAndEnd : Prop :=
  (∀ (s : State) (sched task : BitVec 32) (ncn : Bool) (x : SchedSt) (c : TaskCfg), s.sched? sched = some x →
    x.image.tasks.find? (fun c => decide (c.number = task)) = some c → x.started = true → x.stopping = false →
    s.relx.retState = .none →
    s.relx.retries.find? (fun r => decide (r.task = task) && decide (r.sched = sched) && !r.armed) = none →
    (s.task task).busy = false → s.rstc.orderly = none → x.committed.contains task = false →
    ((x.image.tasks.takeWhile fun t => decide (t.number ≠ task)).all fun t =>
      x.committed.contains t.number || (s.task t.number).busy) = true →
    ∃ t, exec (.taskArmIssue sched ⟨task, ncn⟩) s = .next t ∧ s.Only t [.fret, .relx, .mch, .tasks, .out] ∧
      (t.task task).phase = .armed ∧ (t.task task).sched = sched ∧ (t.task task).launch = x.launchOf c ∧
      (t.task task).attempt = 0 ∧ (t.task task).length = c.length ∧ (t.task task).grace = c.grace ∧
      (∀ m, m ≠ task → t.task m = s.task m) ∧
      (∀ e ∈ t.effTiles task,
        Out.config e.1 task e.2 (if ncn || s.overNcn then none else some (s.vc2Worm 0 e.1 task)) ∈ t.out ∧
        ∃ m : ArmMsg, Out.arm e.1 m (if ncn || s.overNcn then none else some (s.vc2Worm 1 e.1 task)) ∈ t.out ∧
          m.task = task ∧ m.launch = x.launchOf c ∧ m.salt = c.salt ∧ m.current = false)) ∧
  (∀ (s : State) (sched task : BitVec 32) (ncn : Bool) (x : SchedSt) (c : TaskCfg) (r : RetrySt), s.sched? sched = some x →
    x.image.tasks.find? (fun c => decide (c.number = task)) = some c → x.started = true → x.stopping = false →
    s.relx.retState = .none →
    s.relx.retries.find? (fun r => decide (r.task = task) && decide (r.sched = sched) && !r.armed) = some r →
    (s.task task).busy = false → s.rstc.orderly = none →
    ∃ t, exec (.taskArmIssue sched ⟨task, ncn⟩) s = .next t ∧ s.Only t [.fret, .relx, .mch, .tasks, .out] ∧
      (t.task task).phase = .armed ∧ (t.task task).sched = sched ∧ (t.task task).launch = r.launch ∧
      (t.task task).attempt = r.attempt + 1 ∧ (∀ m, m ≠ task → t.task m = s.task m)) ∧
  (∀ (s : State) (sched task : BitVec 32) (ncn : Bool) (x : SchedSt), s.sched? sched = some x →
    x.started = false ∨ x.stopping = true ∨ s.relx.retState ≠ .none ∨ (s.task task).busy = true ∨ s.rstc.orderly ≠ none →
    exec (.taskArmIssue sched ⟨task, ncn⟩) s = .next s) ∧
  (∀ (s : State) (task : BitVec 32), (s.task task).phase = .running → (s.task task).ending = s.now →
    ((s.runningTiles task).any fun lt => (s.tile (s.ptOf lt)).rt.any fun r => r.queues.any fun q => decide (q ≠ [])) = false →
    s.unjudged task = false →
    ∃ t, exec (.taskEndCheck task) s = .next t ∧ s.Only t [.tiles, .tasks] ∧ (t.task task).phase = .ended ∧
      (t.task task).abort = (s.task task).abort ∧ (∀ m, m ≠ task → t.task m = s.task m)) ∧
  (∀ (s : State) (task : BitVec 32), (s.task task).phase = .running → (s.task task).ending = s.now →
    (((s.runningTiles task).any fun lt => (s.tile (s.ptOf lt)).rt.any fun r => r.queues.any fun q => decide (q ≠ []))
      || s.unjudged task) = true →
    ∃ t, exec (.taskEndCheck task) s = .next t ∧ s.Only t [.tiles, .tasks, .chest] ∧ (t.task task).phase = .ended ∧
      (t.task task).abort.isSome = true) ∧
  (∀ (s : State) (task : BitVec 32), (s.task task).phase ≠ .running ∨ (s.task task).ending ≠ s.now →
    exec (.taskEndCheck task) s = .next s) ∧
  (∀ (s : State) (c : Clus) (slot : Fin 16) (j : Nat), s.clusRuns c = false → s.partMode (clusPart c) ≠ .reset →
    Tab.find (s.clus c).hosts slot = none →
    ((s.role (18 * c.val + s.remapIdx c slot)).role = .fenced ∨ (s.role (18 * c.val + s.remapIdx c slot)).hangRemap = true) →
    s.spareTile c = some j → j ≠ 18 * c.val + s.remapIdx c slot →
    ∃ t, exec (.remapApply c slot) s = .next t ∧
      s.Keeps t [.fuse, .rstc, .clk, .fret, .ids, .sec, .spn, .sess, .hbm, .parts, .ctxs, .tasks, .scheds] ∧
      (t.clus c).remap = listUpd (s.clus c).remap slot (fun _ => BitVec.ofNat 5 (ptIdx j)) ∧
      (t.role j).role = .active ∧ t.heal.remaps = satAdd s.heal.remaps 1 ∧
      ((s.role (18 * c.val + s.remapIdx c slot)).role = .active →
        (t.role (18 * c.val + s.remapIdx c slot)).role = .testing)) ∧
  (∀ (s : State) (c : Clus) (slot : Fin 16), s.clusRuns c = false → s.partMode (clusPart c) ≠ .reset →
    Tab.find (s.clus c).hosts slot = none →
    ((s.role (18 * c.val + s.remapIdx c slot)).role = .fenced ∨ (s.role (18 * c.val + s.remapIdx c slot)).hangRemap = true) →
    s.spareTile c = none →
    exec (.remapApply c slot) s = .next (s.updRole (18 * c.val + s.remapIdx c slot) fun r => { r with hangRemap := false })) ∧
  (∀ (s : State) (c : Clus) (slot : Fin 16), s.clusRuns c = true ∨ s.partMode (clusPart c) = .reset →
    exec (.remapApply c slot) s = .next s)

/-- Commits, stops and hangs, from 04 R181, R182, R219, R220, R230, 05 R281, 10 R537 to R541 and 11 R573, R574: a task that reaches
its commit fret with no abort known by the end of the fret before flips the sides of its write regions and is committed; at its
abort fret a task stops, and is retried at the abort fret plus the retry delay, or fails and stops its schedule; a task that is
not complete at its limit takes HANG, and one that is complete does not. -/
def Obligations.TasksCommitStopOrHang : Prop :=
  (∀ (s : State) (task : BitVec 32) (c : TaskCfg), ((s.task task).phase = .running ∨ (s.task task).phase = .ended) →
    (s.task task).dead = false → (s.task task).abortedBy (s.commitFret (s.task task)) = false →
    s.commitFret (s.task task) = s.now → s.taskCfg task = some c →
    ∃ t, exec (.taskCommit task) s = .next t ∧
      s.Keeps t [.fuse, .flash, .rstc, .clk, .fret, .bist, .heal, .pcie, .fabs, .cluss, .ctxs, .held, .ticks, .pending] ∧
      t.spn = { s.spn with sides := c.writes.eraseDups.foldl (fun x r => Tab.upd false x r (!·)) s.spn.sides } ∧
      t.healx = { s.healx with lastCommitted := task } ∧ (t.task task).phase = .committed ∧
      (t.task task).lastCommit = some s.now ∧ (∀ m, m ≠ task → t.task m = s.task m) ∧
      (∀ x, s.sched? (s.task task).sched = some x →
        t.sched? (s.task task).sched = some { x with committed := x.committed ++ [task] })) ∧
  (∀ (s : State) (task : BitVec 32), s.commits (s.task task) = false → exec (.taskCommit task) s = .next s) ∧
  (∀ (s : State) (task : BitVec 32) (a : AbortSt), (s.task task).abort = some a → a.fret ≤ s.now →
    (s.task task).phase ≠ .committed → (s.task task).phase ≠ .stopped → s.commits (s.task task) = false →
    ∃ t, exec (.taskStop task) s = .next t ∧
      s.Keeps t [.fuse, .flash, .rstc, .clk, .bist, .heal, .healx, .pcie, .mgt, .tap, .latches, .ticks, .free, .pending] ∧
      (t.task task).phase = .stopped ∧ t.fret = { s.fret with
        abortTask := task, abortValid := true, abortOrigin := a.origin, abortStatus := BitVec.ofNat 8 a.status.code }) ∧
  (∀ (s : State) (task : BitVec 32) (a : AbortSt) (x : SchedSt), (s.task task).abort = some a → a.fret ≤ s.now →
    (s.task task).phase ≠ .committed → (s.task task).phase ≠ .stopped → s.commits (s.task task) = false →
    s.sched? (s.task task).sched = some x →
    x.stopping = false → retriable a.status = true → (s.task task).attempt < s.rel.retryLimit.toNat →
    s.relx.retState = .none → s.sess.holds = [] →
    ∃ t, exec (.taskStop task) s = .next t ∧ (t.task task).phase = .stopped ∧
      ∃ r ∈ t.relx.retries, r.task = task ∧ r.status = a.status ∧ r.attempt = (s.task task).attempt ∧ r.armed = false ∧
        r.launch = a.fret + max 1 s.rel.retryDelay.toNat * 4096) ∧
  (∀ (s : State) (task : BitVec 32) (a : AbortSt), (s.task task).abort = some a → a.fret ≤ s.now →
    (s.task task).phase ≠ .committed → (s.task task).phase ≠ .stopped → s.commits (s.task task) = false →
    retriable a.status = false →
    ∃ t, exec (.taskStop task) s = .next t ∧ (t.task task).phase = .stopped ∧ (∀ r ∈ t.relx.retries, r.task ≠ task) ∧
      (∀ x, t.sched? (s.task task).sched = some x → x.stopping = true)) ∧
  (∀ (s : State) (task : BitVec 32), (s.task task).abort = none ∨ (s.task task).phase = .committed ∨
    (s.task task).phase = .stopped ∨ s.commits (s.task task) = true → exec (.taskStop task) s = .next s) ∧
  (∀ (s : State) (task : BitVec 32), ((s.task task).phase = .running ∨ (s.task task).phase = .ended) →
    (s.task task).dead = false → s.now + 1 = (s.task task).ending + (s.task task).grace →
    ((∃ e ∈ s.effTiles task, s.tileIncomplete task e.1 e.2 = true) ∨ s.openCtxs task ≠ [] ∨ s.openWrites task ≠ []) →
    ∃ t, exec (.taskHang task) s = .next t ∧
      s.Only t [.flash, .top, .bist, .heal, .healx, .relx, .chest, .mch, .spn, .parts, .tiles, .tasks, .out] ∧
      (t.task task).abort.isSome = true ∧ t.heal.hangTask = task ∧ t.heal.hangValid = true ∧
      t.heal.hangs = satAdd s.heal.hangs 1) ∧
  (∀ (s : State) (task : BitVec 32), (∀ e ∈ s.effTiles task, s.tileIncomplete task e.1 e.2 = false) → s.openCtxs task = [] →
    s.openWrites task = [] → exec (.taskHang task) s = .next s)

/-- Writes of FRET_DOMAIN, FRET_FLIGHTn, CLK_CHANGE and CLK_HALF by a writer that may write them, from 04 R193 to R195, R225, R233
and 13 R640, R641: a new domain number moves the chip to FREE and aborts its running tasks; root in FREE makes it MEMBER; other
writes of FRET_DOMAIN set its fields; a remeasurement starts 256 exchanges on each link that is up while no task is armed or
running, and waits otherwise; the root announces a clock change 8,192 frets ahead, and err is set where it may not; a half's clock
is set between tasks, in SPLIT, and restored to the domain clock, and half_err is set where it may not. -/
def Obligations.ClockRegistersTakeWrites : Prop :=
  (∀ (s : State) (acc : Accessor) (v : Word), s.mayWrite acc = true → s.passed 2 = true →
    v.extractLsb' 16 8 = s.fret.domain → bit v 31 = false ∨ s.fret.state ≠ .free →
    exec (.fretDomainWrite acc v) s = .next { s with fret := { s.fret with
      root := bit v 31, parent := v.extractLsb' 24 5, chip := v.extractLsb' 0 10
      sinceBeacon := if v.extractLsb' 24 5 = s.fret.parent then s.fret.sinceBeacon else 0 } }) ∧
  (∀ (s : State) (acc : Accessor) (v : Word), s.mayWrite acc = true → s.passed 2 = true →
    v.extractLsb' 16 8 ≠ s.fret.domain → s.fret.state ≠ .unlocked →
    ∃ t, exec (.fretDomainWrite acc v) s = .next t ∧ s.Only t [.fret, .clk, .chest, .tasks] ∧
      t.fret.state = (if bit v 31 then .member else .free) ∧
      t.fret.domain = v.extractLsb' 16 8 ∧ t.fret.root = bit v 31 ∧ t.fret.west = s.fret.west ∧ s.AllAborted t) ∧
  (∀ (s : State) (acc : Accessor) (v : Word), s.mayWrite acc = true → s.passed 2 = true →
    v.extractLsb' 16 8 ≠ s.fret.domain → s.fret.state = .unlocked →
    exec (.fretDomainWrite acc v) s = .next { s with fret := { s.fret with
      root := bit v 31, parent := v.extractLsb' 24 5, domain := v.extractLsb' 16 8, chip := v.extractLsb' 0 10
      sinceBeacon := if v.extractLsb' 24 5 = s.fret.parent then s.fret.sinceBeacon else 0 } }) ∧
  (∀ (s : State) (acc : Accessor) (v : Word), s.mayWrite acc = true → s.passed 2 = true →
    v.extractLsb' 16 8 = s.fret.domain → s.fret.state = .free → bit v 31 = true →
    ∃ t, exec (.fretDomainWrite acc v) s = .next t ∧ s.Only t [.fret, .clk] ∧ t.fret.state = .member ∧ t.fret.root = true ∧
      t.fret.parent = v.extractLsb' 24 5 ∧ t.fret.chip = v.extractLsb' 0 10 ∧ t.fret.west = s.fret.west) ∧
  (∀ (s : State) (acc : Accessor) (p : FabPort), s.mayWrite acc = true → s.passed 2 = true →
    (s.anyTask = true ∨ s.fret.flights.any (fun e => e.2.measuring) = true) →
    exec (.flightRemeasure acc p) s = .next (s.updFlight p fun g => { g with remeasure := true })) ∧
  (∀ (s : State) (acc : Accessor) (p : FabPort), s.mayWrite acc = true → s.passed 2 = true → s.anyTask = false →
    s.fret.flights.any (fun e => e.2.measuring) = false →
    ∃ t, exec (.flightRemeasure acc p) s = .next t ∧ s.Only t [.fret, .out] ∧
      t.out = (((List.finRange 17).filter fun q => decide ((s.fab q.val).state = .up)).reverse.map fun q =>
        Out.exchange q 256) ++ s.out ∧
      ∀ q : FabPort, (s.fab q.val).state = .up → (t.flightReg q).measuring = true) ∧
  (∀ (s : State) (acc : Accessor) (v : Word), s.mayWrite acc = true → s.passed 0 = true → s.fret.root = true →
    s.clockOk (v.extractLsb' 0 16).toNat = true → s.clk.pending = false →
    exec (.clkChangeGo acc v) s = .next { s with
      clk := { s.clk with
        mhz := v.extractLsb' 0 16, pending := true, changeAt := s.fret.west + 8192, err := s.clk.err && !bit v 29 }
      fret := { s.fret with changeAt := some (s.fret.west + 8192), changeMhz := v.extractLsb' 0 16 }
      out := (s.childPorts.reverse.map fun p => Out.announce p (.clock (v.extractLsb' 0 16) (s.fret.west + 8192))) ++ s.out }) ∧
  (∀ (s : State) (acc : Accessor) (v : Word), s.mayWrite acc = true → s.passed 0 = true →
    (s.fret.root = false ∨ s.clockOk (v.extractLsb' 0 16).toNat = false ∨ s.clk.pending = true) →
    exec (.clkChangeGo acc v) s = .next { s with clk := { s.clk with err := true } }) ∧
  (∀ (s : State) (acc : Accessor) (v : Word), s.mayWrite acc = true → s.passed 0 = true → s.anyTask = false →
    s.clockOk (v.extractLsb' 0 16).toNat = true → s.fret.state ≠ .unlocked → s.fret.state ≠ .change →
    ∃ t, exec (.clkHalfSet acc v) s = .next t ∧ s.Only t [.clk, .fret] ∧
      t.fret = { s.fret with splitClock := true, state := .split } ∧
      t.clk = { s.clk with
        east := if bit v 29 then v.extractLsb' 0 16 else s.clk.east
        west := if bit v 29 then s.clk.west else v.extractLsb' 0 16
        halfErr := s.clk.halfErr && !bit v 28 }) ∧
  (∀ (s : State) (acc : Accessor) (v : Word), s.mayWrite acc = true → s.passed 0 = true →
    (s.anyTask = true ∨ s.clockOk (v.extractLsb' 0 16).toNat = false ∨ s.fret.state = .unlocked ∨ s.fret.state = .change) →
    exec (.clkHalfSet acc v) s = .next { s with clk := { s.clk with halfErr := true } }) ∧
  (∀ (s : State) (acc : Accessor) (v : Word), s.mayWrite acc = true → s.passed 0 = true → s.fret.splitClock = true →
    ∃ t, exec (.clkHalfRestore acc v) s = .next t ∧ s.Only t [.clk, .fret] ∧
      t.clk = { s.clk with
        east := if bit v 29 then s.clk.domainMhz else s.clk.east
        west := if bit v 29 then s.clk.west else s.clk.domainMhz
        halfErr := s.clk.halfErr && !bit v 28 } ∧
      t.fret = { s.fret with splitClock := decide (t.clk.west ≠ t.clk.east) }) ∧
  (∀ (s : State) (acc : Accessor) (v : Word), s.mayWrite acc = true → s.passed 0 = true → s.fret.splitClock = false →
    exec (.clkHalfRestore acc v) s = .next { s with clk := { s.clk with halfErr := true } })

/-- Accesses to BAR0, from 00 R8, R15, R781, 09 R503, 16 R728 and 17 R754: a width other than 32 bits, an offset that is not
aligned, or one where no register answers has no effect; a host port's write of a register that it may not write counts in
TOP_OWNER.denied and does no more; a writer that may write has the register's effect, shown for FRET_TREE and FRET_STATUS; a
multi-word access is one access a word in ascending order, and a word without all its byte enables has no effect and reads 0; a read
of a pair's LO returns it and latches the HI for the accessor; a read of CHEST_OLD latches the position. -/
def Obligations.RegisterAccessesFollowTheRules : Prop :=
  (∀ (s : State) (acc : Accessor) (off len : Nat) (v : Word), len ≠ 4 ∨ off % 4 ≠ 0 →
    exec (.registerWrite acc off len v) s = .next s) ∧
  (∀ (s : State) (acc : Accessor) (off : Nat) (v : Word), blockOf off = none →
    exec (.registerWrite acc off 4 v) s = .next s) ∧
  (∀ (s : State) (acc : Accessor) (off o : Nat) (b : Block) (v : Word), blockOf off = some (b, o) →
    blockHas b o = false ∨ s.regAnswers b o = false → exec (.registerWrite acc off 4 v) s = .next s) ∧
  (∀ (s : State) (p : HostPort) (off o : Nat) (b : Block) (v : Word), off % 4 = 0 → blockOf off = some (b, o) → blockHas b o = true →
    s.regAnswers b o = true → s.holdsToken p = false → s.freeWrite p b o v = false →
    exec (.registerWrite p.accessor off 4 v) s = .next { s with top := { s.top with denied := satAdd s.top.denied 1 } }) ∧
  (∀ (s : State) (acc : Accessor) (off o : Nat) (b : Block) (v : Word), off % 4 = 0 → blockOf off = some (b, o) →
    blockHas b o = true → s.regAnswers b o = true → s.mayWrite acc = true →
    exec (.registerWrite acc off 4 v) s = .next (s.blockWrite { acc := acc } b o v)) ∧
  (∀ (s : State) (acc : Accessor) (v : Word), s.mayWrite acc = true → s.passed 2 = true →
    exec (.registerWrite acc 0x50010 4 v) s = .next { s with fret := { s.fret with
      horizon := v.extractLsb' 17 12, children := v.setWidth 17 } }) ∧
  (∀ (s : State) (acc : Accessor) (v : Word), s.mayWrite acc = true → s.passed 2 = true →
    exec (.registerWrite acc 0x50008 4 v) s = .next { s with fret := { s.fret with
      seamSplit := s.fret.seamSplit && !bit v 20, stretchLate := s.fret.stretchLate && !bit v 19
      abortLate := s.fret.abortLate && !bit v 18, allowShort := s.fret.allowShort && !bit v 17
      alignLost := s.fret.alignLost && !bit v 16, beaconLost := s.fret.beaconLost && !bit v 15 } }) ∧
  (∀ (s : State) (acc : Accessor) (off : Nat) (ws : List BeWord), off % 4 ≠ 0 →
    exec (.bar0MultiwordAccess acc off (.write ws)) s = .next s) ∧
  (∀ (s : State) (acc : Accessor) (off : Nat) (a b : Word), off % 4 = 0 →
    exec (.bar0MultiwordAccess acc off (.write [⟨a, true⟩, ⟨b, true⟩])) s =
      .next ((s.accWrite acc off a).accWrite acc (off + 4) b)) ∧
  (∀ (s : State) (acc : Accessor) (off : Nat) (w : BeWord) (ws : List BeWord), off % 4 = 0 →
    exec (.bar0MultiwordAccess acc off (.write (w :: ws))) s =
      exec (.bar0MultiwordAccess acc (off + 4) (.write ws)) (if w.full then s.accWrite acc off w.v else s)) ∧
  (∀ (s : State) (acc : Accessor) (off : Nat), off % 4 = 0 → exec (.bar0MultiwordAccess acc off (.write [])) s = .next s) ∧
  (∀ (s : State) (acc : Accessor) (off : Nat) (full : List Bool), off % 4 ≠ 0 →
    exec (.bar0MultiwordAccess acc off (.read full)) s = .next { s with out := .data acc (full.map fun _ => 0) :: s.out }) ∧
  (∀ (s : State) (acc : Accessor) (off : Nat) (full : List Bool), off % 4 = 0 →
    ∃ t vs, exec (.bar0MultiwordAccess acc off (.read full)) s = .next t ∧ s.Only t [.tel, .latches, .out] ∧
      t.out = .data acc vs :: s.out ∧ vs.length = full.length ∧ (∀ i : Nat, full[i]? = some false → vs[i]? = some 0) ∧
      (full[0]? = some true → vs[0]? = some (s.bar0Read acc off).1)) ∧
  (∀ (s : State) (acc : Accessor) (off : Nat), off % 4 = 0 →
    exec (.bar0MultiwordAccess acc off (.read [true, true])) s =
      .next (((s.bar0Read acc off).2.bar0Read acc (off + 4)).2.emit
        (.data acc [(s.bar0Read acc off).1, ((s.bar0Read acc off).2.bar0Read acc (off + 4)).1]))) ∧
  (∀ (s : State) (acc : Accessor) (off o : Nat) (b : Block), off % 4 = 0 → blockOf off = some (b, o) →
    s.regAnswers b o = true → pairLo b o = true →
    ∃ t, exec (.counterLoRead acc off) s = .next t ∧ s.Only t [.latches, .out] ∧
      t.out = .data acc [bar0Value (s.selOf acc) s off] :: s.out ∧
      Tab.get 0 t.latches (latchKey acc (off + 4)) = bar0Value { s.selOf acc with latch := none } s (off + 4)) ∧
  (∀ (s : State) (acc : Accessor), s.passed 2 = true →
    ∃ t, exec (.counterLoRead acc 0x50000) s = .next t ∧ s.Only t [.latches, .out] ∧
      t.out = .data acc [lo32 s.fret.west.toNat] :: s.out ∧
      ∀ u : State, u.latches = t.latches → u.passed 2 = true → (u.bar0Read acc 0x50004).1 = hi32 s.fret.west.toNat) ∧
  (∀ (s : State) (acc : Accessor), s.passed 0 = true →
    exec (.chestOldRead acc) s = .next { s with
      tel := { s.tel with oldPos := s.tel.oldPos.set acc (BitVec.ofNat 32 s.chest.oldPos) }
      out := .data acc [s.chest.old] :: s.out }) ∧
  (∀ (s : State) (acc : Accessor), s.passed 0 = false →
    exec (.chestOldRead acc) s = .next { s with out := .data acc [0] :: s.out })

/-- Stream contexts, from 05 R252 to R258, R269, R273, R280, R282, R286 and 06 R324: a use becomes active at its activation fret,
and its task latches its side selectors then; a task whose span another task's overlaps, or whose arm is still held at that fret,
does not launch; a read drawer is opened and its requests are made at its issue fret, from its pattern, its indices or its
session; a read drawer not full by the end of the fret before its own is an underrun, and the drawer before a full one is freed;
a write drawer that is not full at its end aborts its task, and a full one is issued; data not issued by the end of the fret
before its deadline, or a write not acknowledged in time, is an underrun; a use retires at its retirement fret with its requests
complete, and after its last use the context is IDLE; a quiescing context is IDLE once its requests are complete. -/
def Obligations.StreamContextsRun : Prop :=
  (∀ (s : State) (c : Clus) (x : Ctx) (u : StreamUse) (key : Nat), key = 64 * c.val + x.val → (s.ctx key).use? = some u →
    (s.ctx key).fretOf u.activation = s.now →
    ((s.ctx key).state = .armed ∧ s.spanConflict (s.ctx key).task = false ∨
      (s.ctx key).state = .active ∧ (s.ctx key).live = false) → s.alive (s.ctx key).task = true →
    ∃ t, exec (.streamActivate c x) s = .next t ∧ s.Only t [.ctxs, .tasks] ∧
      t.ctx key = { s.ctx key with
        state := .active, live := true, next := 0, drawers := [], kvCur := none, kind := kindCode u.kind
        slot := BitVec.ofNat 4 u.slot, fold := BitVec.ofNat 3 u.fold } ∧
      (∀ k, k ≠ key → t.ctx k = s.ctx k) ∧ (∀ n, n ≠ (s.ctx key).task → t.task n = s.task n) ∧
      (∀ g, s.taskCfg (s.ctx key).task = some g → (t.task (s.ctx key).task).sides.isSome = true)) ∧
  (∀ (s : State) (c : Clus) (x : Ctx) (u : StreamUse) (key : Nat), key = 64 * c.val + x.val → (s.ctx key).use? = some u →
    (s.ctx key).fretOf u.activation = s.now → (s.ctx key).state = .armed → s.alive (s.ctx key).task = true →
    s.spanConflict (s.ctx key).task = true →
    exec (.streamActivate c x) s = .next (s.updTask (s.ctx key).task fun t =>
      { t with armFail := t.armFail ++ [.memory], dead := true })) ∧
  (∀ (s : State) (c : Clus) (x : Ctx) (u : StreamUse) (key : Nat) (h : HeldArm), key = 64 * c.val + x.val →
    (s.ctx key).use? = some u → (s.ctx key).fretOf u.activation ≠ s.now →
    ((s.ctx key).held.find? fun h => h.uses.head?.any fun u => decide ((h.launch : Int) + u.activation = s.now)) = some h →
    exec (.streamActivate c x) s = .next (s.updTask h.task fun t => { t with armLate := true, dead := true })) ∧
  (∀ (s : State) (c : Clus) (x : Ctx) (u : StreamUse) (key : Nat), key = 64 * c.val + x.val → (s.ctx key).use? = some u →
    u.kind = .read → (s.ctx key).state = .active → (s.ctx key).live = true → (s.ctx key).next < u.n →
    (s.ctx key).issueFret u (s.ctx key).next = s.now → s.alive (s.ctx key).task = true →
    exec (.drawerIssue c x) s = .next
      ((s.openDrawer key (s.ctx key).next u.per).each (List.range u.per) fun r j =>
        r.issue key (streamReq (.drawer key (s.ctx key).next j)
          (patAddr u.pattern (s.useBase (s.ctx key).task u) ((s.ctx key).next * u.per + j)).toNat false [] .scheduled
          ((s.ctx key).deadline u (s.ctx key).next)))) ∧
  (∀ (s : State) (c : Clus) (x : Ctx) (u : StreamUse) (key : Nat), key = 64 * c.val + x.val → (s.ctx key).use? = some u →
    (s.ctx key).state = .active → (s.ctx key).live = true → (s.ctx key).next < u.n →
    (s.ctx key).issueFret u (s.ctx key).next = s.now → s.alive (s.ctx key).task = true →
    (∀ g, u.kind = .gather → u.gather = some g →
      exec (.drawerIssue c x) s = .next (s.issueGather key u g (s.ctx key).next)) ∧
    (∀ v, u.kind = .kvRead → u.kv = some v → exec (.drawerIssue c x) s = .next (s.issueKv key u v (s.ctx key).next))) ∧
  (∀ (s : State) (c : Clus) (x : Ctx) (u : StreamUse) (key : Nat), key = 64 * c.val + x.val → (s.ctx key).use? = some u →
    (s.ctx key).issueFret u (s.ctx key).next ≠ s.now → exec (.drawerIssue c x) s = .next s) ∧
  (∀ (s : State) (c : Clus) (x : Ctx) (u : StreamUse) (k key : Nat), key = 64 * c.val + x.val → (s.ctx key).use? = some u →
    u.isWrite = false → (s.ctx key).state = .active → (s.ctx key).live = true →
    k < u.n → 0 < u.period → (s.ctx key).fretOf u.first + (k * u.period : Nat) = s.now → s.alive (s.ctx key).task = true →
    (∀ d f, (s.ctx key).drawer? k = some d → d.full = some f → s.now ≤ f) →
    ∃ t, exec (.readDrawerDue c x) s = .next t ∧ s.Only t [.chest, .tel, .ctxs, .tasks] ∧
      (t.ctx key).underrun = true ∧ (t.ctx key).minSlack = 0 ∧ (t.task (s.ctx key).task).abort.isSome = true) ∧
  (∀ (s : State) (c : Clus) (x : Ctx) (u : StreamUse) (k f key : Nat) (d : DrawerRt), key = 64 * c.val + x.val →
    (s.ctx key).use? = some u → u.isWrite = false → (s.ctx key).state = .active → (s.ctx key).live = true →
    k < u.n → 0 < u.period → (s.ctx key).fretOf u.first + (k * u.period : Nat) = s.now →
    (s.ctx key).drawer? k = some d → d.full = some f → f < s.now →
    exec (.readDrawerDue c x) s = .next (s.updCtx key fun y => { y with drawers := y.drawers.filter fun d => decide (k ≤ d.k) })) ∧
  (∀ (s : State) (c : Clus) (x : Ctx) (obs : List TileFault) (u : StreamUse) (key : Nat), key = 64 * c.val + x.val →
    (s.ctx key).use? = some u → u.isWrite = true → (s.ctx key).state = .active → (s.ctx key).live = true →
    (s.ctx key).next < u.n → (s.ctx key).drawerFret u (s.ctx key).next + u.period = s.now →
    s.alive (s.ctx key).task = true →
    exec (.writeDrawerFillCheck c ⟨x, obs⟩) s = .next
      (if (((s.ctx key).drawer? (s.ctx key).next).map (·.filled)).getD 0 < u.size then
        (s.updCtx key fun y => { y with next := (s.ctx key).next + 1 }).detect (s.ctx key).task .bound
      else (s.issueWrite key u (s.ctx key).next obs).tileFaults (s.ptOf (useLt key u)) (s.ctx key).task u.fold
        (s.foldRt (s.ptOf (useLt key u)) u.fold) obs)) ∧
  (∀ (s : State) (c : Clus) (x : Ctx) (obs : List TileFault) (u : StreamUse) (key : Nat), key = 64 * c.val + x.val →
    (s.ctx key).use? = some u → (s.ctx key).drawerFret u (s.ctx key).next + u.period ≠ s.now →
    exec (.writeDrawerFillCheck c ⟨x, obs⟩) s = .next s) ∧
  (∀ (s : State) (c : Clus) (x : Ctx) (u : StreamUse) (key : Nat), key = 64 * c.val + x.val → (s.ctx key).use? = some u →
    u.isWrite = true → (s.ctx key).state = .active → s.alive (s.ctx key).task = true → (s.ctx key).unissued u s.now = true →
    ∃ t, exec (.writeDrawerDeadline c x) s = .next t ∧ s.Only t [.chest, .tel, .ctxs, .tasks] ∧
      (t.ctx key).underrun = true ∧ (t.ctx key).minSlack = 0 ∧ (t.task (s.ctx key).task).abort.isSome = true) ∧
  (∀ (s : State) (c : Clus) (x : Ctx) (u : StreamUse) (key : Nat) (d : DrawerRt), key = 64 * c.val + x.val →
    (s.ctx key).use? = some u → u.isWrite = true → (s.ctx key).state = .active → s.alive (s.ctx key).task = true →
    s.now + 1 = (s.task (s.ctx key).task).ending + (s.task (s.ctx key).task).grace → d ∈ (s.ctx key).drawers →
    d.due = true → d.acked < d.want →
    ∃ t, exec (.writeDrawerDeadline c x) s = .next t ∧ s.Only t [.chest, .tel, .ctxs, .tasks] ∧
      (t.ctx key).underrun = true ∧ (t.task (s.ctx key).task).abort.isSome = true) ∧
  (∀ (s : State) (c : Clus) (x : Ctx) (u : StreamUse) (key : Nat), key = 64 * c.val + x.val → (s.ctx key).use? = some u →
    (s.ctx key).unissued u s.now = false →
    s.now + 1 ≠ (s.task (s.ctx key).task).ending + (s.task (s.ctx key).task).grace →
    exec (.writeDrawerDeadline c x) s = .next s) ∧
  (∀ (s : State) (c : Clus) (x : Ctx) (u : StreamUse) (key : Nat), key = 64 * c.val + x.val → (s.ctx key).use? = some u →
    (s.ctx key).state = .active → (s.ctx key).live = true → (s.ctx key).fretOf u.retirement ≤ s.now →
    (s.ctx key).outstanding = 0 → (u.isWrite = false ∨ (s.ctx key).underrun = true ∨ (s.ctx key).unissued u s.now = false) →
    exec (.streamRetire c x) s = .next
      (if (s.ctx key).used + 1 < (s.ctx key).uses.length then s.updCtx key fun y =>
        { y with used := y.used + 1, live := false, next := 0, drawers := [], kvCur := none, hints := [], hinted := [] }
      else s.ctxIdle key)) ∧
  (∀ (s : State) (c : Clus) (x : Ctx) (u : StreamUse) (key : Nat), key = 64 * c.val + x.val → (s.ctx key).use? = some u →
    s.now < (s.ctx key).fretOf u.retirement ∨ (s.ctx key).outstanding ≠ 0 → exec (.streamRetire c x) s = .next s) ∧
  (∀ (s : State) (c : Clus) (x : Ctx) (key : Nat), key = 64 * c.val + x.val → (s.ctx key).state = .quiesce →
    (s.ctx key).outstanding = 0 → (s.ctx key).held = [] →
    exec (.streamQuiesceDone c x) s = .next (s.updCtx key fun y =>
      { y with state := .idle, live := false, drawers := [], kvCur := none, hints := [], hinted := [] })) ∧
  (∀ (s : State) (c : Clus) (x : Ctx) (key : Nat) (h : HeldArm) (hs : List HeldArm), key = 64 * c.val + x.val →
    (s.ctx key).state = .quiesce → (s.ctx key).outstanding = 0 → (s.ctx key).held = h :: hs →
    ∃ t, exec (.streamQuiesceDone c x) s = .next t ∧ s.Only t [.cluss, .ctxs, .tasks] ∧ (t.ctx key).state = .armed ∧
      (t.ctx key).task = h.task ∧ (t.ctx key).launch = h.launch ∧ (t.ctx key).uses = h.uses ∧ (t.ctx key).held = hs) ∧
  (∀ (s : State) (c : Clus) (x : Ctx), (s.ctx (64 * c.val + x.val)).state ≠ .quiesce ∨
    (s.ctx (64 * c.val + x.val)).outstanding ≠ 0 → exec (.streamQuiesceDone c x) s = .next s)

/-- The list predictor, from 06 R304 to R308, R312, R353: while its task runs on the tile a context keeps a hint where fewer than 64
are unused, its drawer is 2 or later and its window has not passed, and discards one otherwise; in its window a hint is used: with
no entry of enough confidence nothing is requested, and with one the pages that the entry predicts are requested ahead; a second
hint for a drawer is discarded (the model's choice, log entry 64); a flush empties the predictor and keeps its counters. -/
def Obligations.ListPredictorTakesHints : Prop :=
  (∀ (s r : State) (c : Clus) (x : Ctx) (u : StreamUse) (g : GatherCfg) (m : RecSt) (h : Word) (d key : Nat),
    key = 64 * c.val + x.val → (s.ctx key).use? = some u → u.gather = some g → g.lpKey.isSome = true →
    (s.ctx key).state ≠ .idle → s.serves (useLt key u) (s.ctx key).task = true →
    s.takeMessage (useLt key u) u.fold g.hintInput = some (m, r) → hintsOf m.body = [(h, d)] →
    ∃ t, exec (.lpHintArrive c x) s = .next t ∧ s.Only t [.mch, .ctxs] ∧ t.mch = r.mch ∧
      t.ctx key = { s.ctx key with
        hints := if 64 ≤ (s.ctx key).hints.length ∨ d < 2 ∨ d < (s.ctx key).next ∨ (s.ctx key).issueFret u d < s.now
          then (s.ctx key).hints else (s.ctx key).hints ++ [(h, d)] }) ∧
  (∀ (s : State) (c : Clus) (x : Ctx) (u : StreamUse) (g : GatherCfg) (key : Nat), key = 64 * c.val + x.val →
    (s.ctx key).use? = some u → u.gather = some g →
    g.lpKey = none ∨ (s.ctx key).state = .idle ∨ s.serves (useLt key u) (s.ctx key).task = false ∨
      s.takeMessage (useLt key u) u.fold g.hintInput = none → exec (.lpHintArrive c x) s = .next s) ∧
  (∀ (s : State) (c : Clus) (x : Ctx) (u : StreamUse) (g : GatherCfg) (h : Word × Nat) (key : Nat), key = 64 * c.val + x.val →
    (s.ctx key).use? = some u → u.gather = some g →
    ((s.ctx key).hints.find? fun e => e.2 = (s.ctx key).next) = some h →
    2 ≤ (s.ctx key).next → (s.ctx key).next < u.n →
    (s.ctx key).drawerFret u ((s.ctx key).next - 1) ≤ s.now → s.now ≤ (s.ctx key).issueFret u (s.ctx key).next →
    (s.ctx key).state = .active → (s.ctx key).live = true → s.alive (s.ctx key).task = true →
    ((s.ctx key).hinted.any fun e => decide (e.1 = (s.ctx key).next)) = false →
    Tab.find (s.part (clusPart c.val)).lp (lpIndex h.1) = none →
    exec (.lpSpeculate c x) s = .next (s.updCtx key fun y =>
      { y with hints := y.hints.erase h, hinted := y.hinted ++ [((s.ctx key).next, h.1)] })) ∧
  (∀ (s : State) (c : Clus) (x : Ctx) (u : StreamUse) (g : GatherCfg) (h : Word × Nat) (key : Nat) (lk : BitVec 8) (e : LpEnt),
    key = 64 * c.val + x.val → (s.ctx key).use? = some u → u.gather = some g →
    ((s.ctx key).hints.find? fun e => e.2 = (s.ctx key).next) = some h →
    2 ≤ (s.ctx key).next → (s.ctx key).next < u.n →
    (s.ctx key).drawerFret u ((s.ctx key).next - 1) ≤ s.now → s.now ≤ (s.ctx key).issueFret u (s.ctx key).next →
    (s.ctx key).state = .active → (s.ctx key).live = true → s.alive (s.ctx key).task = true →
    ((s.ctx key).hinted.any fun e => decide (e.1 = (s.ctx key).next)) = false → g.lpKey = some lk →
    Tab.find (s.part (clusPart c.val)).lp (lpIndex h.1) = some e → (s.part (clusPart c.val)).lpEnable = true →
    e.key = lk → e.tag = lpTag h.1 → max 1 (s.part (clusPart c.val)).lpThreshold.toNat ≤ e.conf.toNat →
    exec (.lpSpeculate c x) s = .next
      ((s.updCtx key fun y =>
        { y with
          hints := y.hints.erase h, hinted := y.hinted ++ [((s.ctx key).next, h.1)]
          drawers := y.drawers.filter (fun d => decide (d.k ≠ (s.ctx key).next)) ++
            [{ k := (s.ctx key).next, pages := (e.pages.take (min (gatherPages u g) 4)).map BitVec.toNat }] }).each
        ((e.pages.take (min (gatherPages u g) 4)).map BitVec.toNat).zipIdx fun v p =>
          v.speculatePage key g (s.ctx key).next p.2 p.1)) ∧
  (∀ (s : State) (c : Clus) (x : Ctx) (u : StreamUse) (g : GatherCfg) (h : Word × Nat) (key : Nat), key = 64 * c.val + x.val →
    (s.ctx key).use? = some u → u.gather = some g →
    ((s.ctx key).hints.find? fun e => e.2 = (s.ctx key).next) = some h →
    2 ≤ (s.ctx key).next → (s.ctx key).next < u.n →
    (s.ctx key).drawerFret u ((s.ctx key).next - 1) ≤ s.now → s.now ≤ (s.ctx key).issueFret u (s.ctx key).next →
    (s.ctx key).state = .active → (s.ctx key).live = true → s.alive (s.ctx key).task = true →
    ((s.ctx key).hinted.any fun e => decide (e.1 = (s.ctx key).next)) = true →
    exec (.lpSpeculate c x) s = .next (s.updCtx key fun y => { y with hints := y.hints.erase h })) ∧
  (∀ (s : State) (acc : Accessor) (p : Part) (v : Word), s.mayWrite acc = true → s.passed 4 = true →
    exec (.lpFlush acc p v) s = .next (s.updPart p fun q =>
      { q with lpEnable := bit v 31, lpThreshold := v.extractLsb' 16 3, lp := [] }))

/-- Session commands, from 06 R313, R315, R319 to R322, R336, R343, R346: a command waits while the fret still has pops, commits or
aborts to make or an earlier command waits, and the commands that wait are applied in order as the fret ends; applied, OPEN takes
the lowest free context; CLOSE frees a session that no task uses and else leaves it CLOSING; a quota is set, and one below the
pages held asks for a reclaim; QUERY is answered and changes no session; a stale handle, a pool that is not enabled, a quota out of
range and a reserved opcode are answered with their refusals; the oldest result whose connection is ready is sent or refused; a
pool is enabled where its configuration is good, and cfg_err is set otherwise. -/
def Obligations.SessionCommandsTakeEffect : Prop :=
  (∀ (s : State) (m : SessCmd) (op : BitVec 8), (s.sess.cmds ≠ [] ∨ s.sessDue = true) →
    exec (.sessionOpen m) s = .next { s with sess := { s.sess with cmds := s.sess.cmds ++ [(.opening, m)] } } ∧
    exec (.sessionClose m) s = .next { s with sess := { s.sess with cmds := s.sess.cmds ++ [(.close, m)] } } ∧
    exec (.sessionSetQuota m) s = .next { s with sess := { s.sess with cmds := s.sess.cmds ++ [(.setQuota, m)] } } ∧
    exec (.sessionQuery m) s = .next { s with sess := { s.sess with cmds := s.sess.cmds ++ [(.query, m)] } } ∧
    exec (.sessionReservedOpcode m op) s =
      .next { s with sess := { s.sess with cmds := s.sess.cmds ++ [(.reserved op, m)] } }) ∧
  (∀ (s : State) (op : SessOp) (m : SessCmd), s.sess.cmds = [(op, m)] →
    s.sessFret = { s with sess := { s.sess with cmds := [] } }.sessApply op m) ∧
  (∀ (s : State) (m : SessCmd) (n : Nat), s.sess.cmds = [] → s.sessDue = false → m.pool.toNat < 16 →
    (s.pool m.pool.toNat).enable = true → s.poolParked m.pool.toNat = false → 1 ≤ m.quota.toNat → m.quota.toNat ≤ 2048 →
    ((List.range 16384).find? fun n => (s.session n).state = .free) = some n →
    ∃ t, exec (.sessionOpen m) s = .next t ∧ s.Only t [.top, .rel, .chest, .mch, .sess, .hbm, .parts, .out] ∧
      t.session n = { s.session n with
        state := .opened, pool := BitVec.ofNat 4 m.pool.toNat, commit := 0, draft := 0, held := 0, use := 0
        quota := m.quota.setWidth 12, overQuota := false, truncated := false, reclaim := false } ∧
      (∀ k, k ≠ n → t.session k = s.session k)) ∧
  (∀ (s : State) (m : SessCmd), s.sess.cmds = [] → s.sessDue = false →
    16 ≤ m.pool.toNat ∨ (s.pool m.pool.toNat).enable = false →
    exec (.sessionOpen m) s = .next (s.sessRefuse m 1 .overQuota 2)) ∧
  (∀ (s : State) (m : SessCmd), s.sess.cmds = [] → s.sessDue = false → m.pool.toNat < 16 →
    (s.pool m.pool.toNat).enable = true → s.poolParked m.pool.toNat = false → m.quota.toNat < 1 ∨ 2048 < m.quota.toNat →
    exec (.sessionOpen m) s = .next (s.sessRefuse m 1 .overQuota 3)) ∧
  (∀ (s : State) (m : SessCmd), s.sess.cmds = [] → s.sessDue = false → s.handleOk m.handle = true →
    s.poolParked (s.session (handleCtx m.handle)).pool.toNat = false → (s.session (handleCtx m.handle)).use = 0 →
    ∃ t, exec (.sessionClose m) s = .next t ∧ s.Only t [.top, .rel, .chest, .mch, .sess, .hbm, .parts, .out] ∧
      (t.session (handleCtx m.handle)).state = .free ∧
      (t.session (handleCtx m.handle)).gen = (s.session (handleCtx m.handle)).gen + 1 ∧
      (t.session (handleCtx m.handle)).held = 0 ∧ (t.session (handleCtx m.handle)).truncated = false) ∧
  (∀ (s : State) (m : SessCmd), s.sess.cmds = [] → s.sessDue = false → s.handleOk m.handle = true →
    s.poolParked (s.session (handleCtx m.handle)).pool.toNat = false → (s.session (handleCtx m.handle)).use ≠ 0 →
    ∃ t, exec (.sessionClose m) s = .next t ∧ s.Only t [.mch, .sess, .out] ∧
      t.session (handleCtx m.handle) = { s.session (handleCtx m.handle) with state := .closing, truncated := false } ∧
      (∀ k, k ≠ handleCtx m.handle → t.session k = s.session k)) ∧
  (∀ (s : State) (m : SessCmd), s.sess.cmds = [] → s.sessDue = false → s.handleOk m.handle = true →
    s.poolParked (s.session (handleCtx m.handle)).pool.toNat = false → 1 ≤ m.quota.toNat → m.quota.toNat ≤ 2048 →
    (s.session (handleCtx m.handle)).held.toNat ≤ m.quota.toNat →
    ∃ t, exec (.sessionSetQuota m) s = .next t ∧ s.Only t [.mch, .sess, .out] ∧
      t.session (handleCtx m.handle) = { s.session (handleCtx m.handle) with quota := m.quota.setWidth 12 }) ∧
  (∀ (s : State) (m : SessCmd), s.sess.cmds = [] → s.sessDue = false → s.handleOk m.handle = true →
    s.poolParked (s.session (handleCtx m.handle)).pool.toNat = false → 1 ≤ m.quota.toNat → m.quota.toNat ≤ 2048 →
    m.quota.toNat < (s.session (handleCtx m.handle)).held.toNat → (s.session (handleCtx m.handle)).use ≠ 0 →
    ∃ t, exec (.sessionSetQuota m) s = .next t ∧ s.Only t [.mch, .sess, .out] ∧
      t.session (handleCtx m.handle) =
        { s.session (handleCtx m.handle) with quota := m.quota.setWidth 12, overQuota := true, reclaim := true }) ∧
  (∀ (s : State) (m : SessCmd), s.sess.cmds = [] → s.sessDue = false → s.handleOk m.handle = true →
    s.poolParked (s.session (handleCtx m.handle)).pool.toNat = false → 1 ≤ m.quota.toNat → m.quota.toNat ≤ 2048 →
    m.quota.toNat < (s.session (handleCtx m.handle)).held.toNat → (s.session (handleCtx m.handle)).use = 0 →
    ∃ t, exec (.sessionSetQuota m) s = .next t ∧ s.Only t [.top, .rel, .chest, .mch, .sess, .hbm, .parts, .out] ∧
      (t.session (handleCtx m.handle)).quota = m.quota.setWidth 12 ∧
      (t.session (handleCtx m.handle)).truncated = true ∧ (t.session (handleCtx m.handle)).overQuota = false) ∧
  (∀ (s : State) (m : SessCmd), s.sess.cmds = [] → s.sessDue = false → s.handleOk m.handle = true →
    s.poolParked (s.session (handleCtx m.handle)).pool.toNat = false → m.quota.toNat < 1 ∨ 2048 < m.quota.toNat →
    exec (.sessionSetQuota m) s = .next (s.sessTell m 3 .overQuota 3 (handleCtx m.handle) m.handle)) ∧
  (∀ (s : State) (m : SessCmd), s.sess.cmds = [] → s.sessDue = false → s.handleOk m.handle = true →
    s.poolParked (s.session (handleCtx m.handle)).pool.toNat = false →
    exec (.sessionQuery m) s = .next (s.sessTell m 4 .ok 0 (handleCtx m.handle) m.handle)) ∧
  (∀ (s : State) (m : SessCmd), s.sess.cmds = [] → s.sessDue = false → s.handleOk m.handle = false →
    exec (.sessionClose m) s = .next (s.sessRefuse m 2 .nakStale 0) ∧
    exec (.sessionSetQuota m) s = .next (s.sessRefuse m 3 .nakStale 0) ∧
    exec (.sessionQuery m) s = .next (s.sessRefuse m 4 .nakStale 0)) ∧
  (∀ (s : State) (m : SessCmd) (op : BitVec 8), s.sess.cmds = [] → s.sessDue = false →
    ∃ t, exec (.sessionReservedOpcode m op) s = .next t ∧ s.Only t [.mch, .sess, .out, .free] ∧
      t = s.sessRefuse m op.toNat .overQuota 5 ∧ ∀ k, t.session k = s.session k) ∧
  (∀ (s : State) (e : Nat × List Byte) (es : List (Nat × List Byte)), s.sess.results = e :: es →
    ((s.conn e.1).state = .opened ∨ (s.conn e.1).state = .draining) → (s.conn e.1).sentBy 5 0 = true →
    (s.conn e.1).waiting = [] → (s.conn e.1).marker = none → (s.conn e.1).allows (recUnits 128) = true →
    ∃ t, exec .verifyResultSend s = .next t ∧ s.Only t [.mch, .sess, .out] ∧ t.sess = { s.sess with results := es } ∧
      s.out.length < t.out.length) ∧
  (∀ (s : State) (e : Nat × List Byte) (es : List (Nat × List Byte)), s.sess.results = e :: es →
    (s.conn e.1).state = .closed →
    ∃ t, exec .verifyResultSend s = .next t ∧ s.Only t [.mch, .sess] ∧ t.sess = { s.sess with results := es } ∧
      (t.conn e.1).refused = satAdd (s.conn e.1).refused 1) ∧
  (∀ (s : State), s.sess.results = [] → exec .verifyResultSend s = .next s) ∧
  (∀ (s : State) (acc : Accessor) (n : Fin 16) (v : Word), s.mayWrite acc = true → s.passed 4 = true →
    (s.pool n).enable = false →
    (s.updPool n fun p => { p with base := v.setWidth 24, cfgErr := p.cfgErr && !bit v 30 }).poolOk n = true →
    exec (.kvpEnable acc n v) s = .next (s.updPool n fun p =>
      { p with base := v.setWidth 24, cfgErr := p.cfgErr && !bit v 30, enable := true, used := [] })) ∧
  (∀ (s : State) (acc : Accessor) (n : Fin 16) (v : Word), s.mayWrite acc = true → s.passed 4 = true →
    (s.pool n).enable = false →
    (s.updPool n fun p => { p with base := v.setWidth 24, cfgErr := p.cfgErr && !bit v 30 }).poolOk n = false →
    exec (.kvpEnable acc n v) s = .next (s.updPool n fun p => { p with base := v.setWidth 24, cfgErr := true })) ∧
  (∀ (s : State) (acc : Accessor) (n : Fin 16) (v : Word), s.mayWrite acc = true → s.passed 4 = true →
    (s.pool n).enable = true →
    ∃ t, exec (.kvpEnable acc n v) s = .next t ∧ s.Only t [.sess] ∧
      t.pool n = { s.pool n with cfgErr := (s.pool n).cfgErr && !bit v 30 })

/-- The sender of a connection, from 07 R364, R366, R369, R378, R379, R381, R388, R389, R391, R393, R394: OPEN of a CLOSED
connection takes the next serial, clears its counters and sends its request, and fails at once where no route serves; an answer
opens it or closes it with its status; 2^20 frets without an answer close it with timeout; a message is sent where R378 allows it,
waits where it does not or while OPENING, and is refused on a connection that does not take it; CLOSE drains it, and sends the
marker once nothing waits; credit returns and NAK notices set the outstanding units; a peer that is gone closes it; the marker's
acknowledgement closes it, and without one the marker is sent again, 16 times at most; an answer that matches no serial changes
nothing. -/
def Obligations.SendersOpenSendAndClose : Prop :=
  (∀ (s : State) (acc : Accessor) (v : Word), s.mayWrite acc = true → s.passed 4 = true →
    (s.conn (s.mch.connSel.get acc).toNat).state = .closed →
    s.routeOk (s.conn (s.mch.connSel.get acc).toNat).srcKind (s.conn (s.mch.connSel.get acc).toNat).srcEp
      (s.conn (s.mch.connSel.get acc).toNat).chip = true →
    ∃ t, exec (.connOpen acc v) s = .next t ∧ s.Only t [.mch, .out] ∧
      (t.conn (s.mch.connSel.get acc).toNat).state = .opening ∧
      (t.conn (s.mch.connSel.get acc).toNat).serial = (s.conn (s.mch.connSel.get acc).toNat).serial + 1 ∧
      (t.conn (s.mch.connSel.get acc).toNat).nak = bit v 27 ∧
      (t.conn (s.mch.connSel.get acc).toNat).seq = 0 ∧ (t.conn (s.mch.connSel.get acc).toNat).outst = 0 ∧
      t.out.length = s.out.length + 1 ∧
      (∀ k, k ≠ (s.mch.connSel.get acc).toNat → t.conn k = s.conn k)) ∧
  (∀ (s : State) (acc : Accessor) (v : Word), s.mayWrite acc = true → s.passed 4 = true →
    (s.conn (s.mch.connSel.get acc).toNat).state = .closed →
    s.routeOk (s.conn (s.mch.connSel.get acc).toNat).srcKind (s.conn (s.mch.connSel.get acc).toNat).srcEp
      (s.conn (s.mch.connSel.get acc).toNat).chip = false →
    ∃ t, exec (.connOpen acc v) s = .next t ∧ s.Only t [.top, .mch, .pcie, .out] ∧
      (t.conn (s.mch.connSel.get acc).toNat).state = .closed ∧
      (t.conn (s.mch.connSel.get acc).toNat).lastStatus = BitVec.ofNat 8 Status.routeCut.code ∧
      (t.conn (s.mch.connSel.get acc).toNat).detail = 8) ∧
  (∀ (s : State) (acc : Accessor) (v : Word), s.mayWrite acc = true → s.passed 4 = true →
    (s.conn (s.mch.connSel.get acc).toNat).state ≠ .closed →
    ∃ t, exec (.connOpen acc v) s = .next t ∧ s.Only t [.mch] ∧
      t.conn (s.mch.connSel.get acc).toNat = { s.conn (s.mch.connSel.get acc).toNat with
        closeLost := (s.conn (s.mch.connSel.get acc).toNat).closeLost && !bit v 1
        timeout := (s.conn (s.mch.connSel.get acc).toNat).timeout && !bit v 0 }) ∧
  (∀ (s : State) (acc : Accessor) (v : Word), s.mayWrite acc = true → s.passed 4 = true →
    (s.conn (s.mch.connSel.get acc).toNat).state = .opened → (s.conn (s.mch.connSel.get acc).toNat).waiting = [] →
    s.resultFor (s.mch.connSel.get acc).toNat = false →
    ∃ t, exec (.connClose acc v) s = .next t ∧ s.Only t [.mch, .out] ∧
      (t.conn (s.mch.connSel.get acc).toNat).state = .draining ∧
      (t.conn (s.mch.connSel.get acc).toNat).marker = some s.now ∧
      t.out = .closeMarker (s.conn (s.mch.connSel.get acc).toNat).chip (s.routeOf (s.mch.connSel.get acc).toNat)
        (s.conn (s.mch.connSel.get acc).toNat).queue (BitVec.ofNat 12 (s.mch.connSel.get acc).toNat)
        (s.conn (s.mch.connSel.get acc).toNat).serial :: s.out) ∧
  (∀ (s : State) (acc : Accessor) (v : Word), s.mayWrite acc = true → s.passed 4 = true →
    (s.conn (s.mch.connSel.get acc).toNat).state = .opened →
    ∃ t, exec (.connClose acc v) s = .next t ∧ s.Only t [.mch, .out] ∧
      (t.conn (s.mch.connSel.get acc).toNat).state = .draining) ∧
  (∀ (s : State) (acc : Accessor) (v : Word), s.mayWrite acc = true → s.passed 4 = true →
    (s.conn (s.mch.connSel.get acc).toNat).state = .closedByPeer →
    ∃ t, exec (.connClose acc v) s = .next t ∧ s.Only t [.mch] ∧ (t.conn (s.mch.connSel.get acc).toNat).state = .closed) ∧
  (∀ (s : State) (r : OpenAck), (s.conn r.conn).state = .opening → r.serial = (s.conn r.conn).serial → r.status = .ok →
    (s.conn r.conn).waiting = [] →
    ∃ t, exec (.openAckReceive r) s = .next t ∧ s.Only t [.top, .mch, .pcie, .out] ∧
      t.conn r.conn = { s.conn r.conn with state := .opened, grant := r.grant, outst := 0 }) ∧
  (∀ (s : State) (r : OpenAck), (s.conn r.conn).state = .opening → r.serial = (s.conn r.conn).serial → r.status = .ok →
    ∃ t, exec (.openAckReceive r) s = .next t ∧ s.Only t [.top, .mch, .pcie, .out] ∧ (t.conn r.conn).state = .opened ∧
      (t.conn r.conn).grant = r.grant) ∧
  (∀ (s : State) (r : OpenAck), (s.conn r.conn).state = .opening → r.serial = (s.conn r.conn).serial → r.status ≠ .ok →
    ∃ t, exec (.openAckReceive r) s = .next t ∧ s.Only t [.top, .mch, .pcie, .out] ∧ (t.conn r.conn).state = .closed ∧
      (t.conn r.conn).lastStatus = BitVec.ofNat 8 r.status.code ∧ (t.conn r.conn).detail = r.detail ∧
      (t.conn r.conn).waiting = []) ∧
  (∀ (s : State) (r : OpenAck), r.serial ≠ (s.conn r.conn).serial → r.status = .ok →
    exec (.openAckReceive r) s = .next { s with out := (.closeMarker (s.conn r.conn).chip (s.routeOf r.conn)
      (s.conn r.conn).queue (BitVec.ofNat 12 r.conn) r.serial :: s.out) }) ∧
  (∀ (s : State) (c : ConnN), (s.conn c).state = .opening → (s.conn c).openedAt + 2 ^ 20 ≤ s.ticks →
    ∃ t, exec (.openTimeout c) s = .next t ∧ s.Only t [.top, .mch, .pcie, .out] ∧ (t.conn c).state = .closed ∧
      (t.conn c).timeout = true ∧ (t.conn c).lastStatus = BitVec.ofNat 8 Status.routeCut.code) ∧
  (∀ (s : State) (c : ConnN), (s.conn c).state ≠ .opening ∨ s.ticks < (s.conn c).openedAt + 2 ^ 20 →
    exec (.openTimeout c) s = .next s) ∧
  (∀ (s : State) (c : ConnN) (kind : BitVec 3) (ep : BitVec 14) (body : List Byte), 0 < body.length → body.length ≤ 4096 →
    txPort kind = none → (s.conn c).sentBy kind ep = true → (s.conn c).state = .opened → (s.conn c).nak = false →
    recUnits body.length ≤ (s.conn c).grant.toNat → (s.conn c).waiting = [] →
    (s.conn c).allows (recUnits body.length) = true →
    ∃ t, exec (.messageSend c kind ep body) s = .next t ∧ s.Only t [.mch, .out] ∧
      (t.conn c).outst = (s.conn c).outst + BitVec.ofNat 16 (recUnits body.length) ∧
      (t.conn c).seq = (s.conn c).seq + 1 ∧ (∀ k, k ≠ c.val → t.conn k = s.conn k) ∧
      t.out = .message (s.conn c).chip (s.routeOf c) 1 ⟨s.fret.chip, BitVec.ofNat 12 c, (s.conn c).serial,
        Fin.ofNat 4096 (s.conn c).queue.toNat, (s.conn c).seq, body, false, false, []⟩ :: s.out) ∧
  (∀ (s : State) (c : ConnN) (kind : BitVec 3) (ep : BitVec 14) (body : List Byte), 0 < body.length → body.length ≤ 4096 →
    txPort kind = none → (s.conn c).sentBy kind ep = true → (s.conn c).state = .opened → (s.conn c).nak = true →
    ∃ t, exec (.messageSend c kind ep body) s = .next t ∧ s.Only t [.mch, .out] ∧ (t.conn c).outst = 0 ∧
      (t.conn c).seq = (s.conn c).seq + 1 ∧ t.out.length = s.out.length + 1) ∧
  (∀ (s : State) (c : ConnN) (kind : BitVec 3) (ep : BitVec 14) (body : List Byte), 0 < body.length → body.length ≤ 4096 →
    txPort kind = none → (s.conn c).sentBy kind ep = true →
    ((s.conn c).state = .opening ∨ (s.conn c).state = .opened ∧ (s.conn c).nak = false ∧
      recUnits body.length ≤ (s.conn c).grant.toNat ∧
      ((s.conn c).waiting ≠ [] ∨ (s.conn c).allows (recUnits body.length) = false)) →
    exec (.messageSend c kind ep body) s =
      .next (s.updConn c fun x => { x with waiting := x.waiting ++ [⟨body, 1, 0⟩] })) ∧
  (∀ (s : State) (c : ConnN) (kind : BitVec 3) (ep : BitVec 14) (body : List Byte), 0 < body.length → body.length ≤ 4096 →
    txPort kind = none → (s.conn c).sentBy kind ep = true → (s.conn c).state = .opened → (s.conn c).nak = false →
    (s.conn c).grant.toNat < recUnits body.length →
    exec (.messageSend c kind ep body) s = .next (s.refuse c .nakFull 1)) ∧
  (∀ (s : State) (c : ConnN) (kind : BitVec 3) (ep : BitVec 14) (body : List Byte), 0 < body.length → body.length ≤ 4096 →
    txPort kind = none → (s.conn c).sentBy kind ep = true →
    ((s.conn c).state = .closed ∨ (s.conn c).state = .draining ∨ (s.conn c).state = .closedByPeer) →
    exec (.messageSend c kind ep body) s = .next (s.refuse c .nakStale 5)) ∧
  (∀ (s : State) (c : ConnN) (kind : BitVec 3) (ep : BitVec 14) (body : List Byte), 0 < body.length → body.length ≤ 4096 →
    (txPort kind ≠ none ∨ (s.conn c).sentBy kind ep = false) →
    exec (.messageSend c kind ep body) s = .next (s.refuse c .nakStale 0xA)) ∧
  (∀ (s : State) (c : ConnN) (total : BitVec 32), ((s.conn c).state = .opened ∨ (s.conn c).state = .draining) →
    (s.conn c).nak = false → (s.conn c).waiting = [] →
    ∃ t, exec (.msgCreditReturnReceive c (s.conn c).serial total) s = .next t ∧ s.Only t [.top, .mch, .pcie, .out] ∧
      (t.conn c).outst = ((s.conn c).sentUnits - total).setWidth 16 ∧ (t.conn c).state = (s.conn c).state) ∧
  (∀ (s : State) (c : ConnN) (serial : BitVec 8) (total : BitVec 32), serial ≠ (s.conn c).serial →
    exec (.msgCreditReturnReceive c serial total) s = .next s ∧ exec (.staleNoticeReceive c serial) s = .next s ∧
    exec (.closeAckReceive c serial) s = .next s) ∧
  (∀ (s : State) (m : NakNotice), (s.conn m.conn).serial = m.serial → (s.conn m.conn).state = .opened →
    (s.conn m.conn).nak = false → (s.conn m.conn).waiting = [] →
    (m.status = .nakFull ∨ m.status = .nakFenced ∨ m.status = .routeCut) →
    ∃ t, exec (.nakNoticeReceive m) s = .next t ∧ s.Only t [.top, .mch, .pcie, .out] ∧
      (t.conn m.conn).state = .opened ∧ (t.conn m.conn).naks = satAdd (s.conn m.conn).naks 1 ∧
      (t.conn m.conn).lastStatus = BitVec.ofNat 8 m.status.code ∧ (t.conn m.conn).detail = m.detail ∧
      (t.conn m.conn).outst =
        BitVec.ofNat 16 ((s.conn m.conn).outst.toNat - Tab.get 0 (s.conn m.conn).units m.seq.toNat)) ∧
  (∀ (s : State) (m : NakNotice), (s.conn m.conn).serial = m.serial → (s.conn m.conn).state = .opened →
    m.status = .nakStale →
    ∃ t, exec (.nakNoticeReceive m) s = .next t ∧ s.Only t [.top, .mch, .pcie, .out] ∧
      (t.conn m.conn).state = .closedByPeer ∧ (t.conn m.conn).outst = 0 ∧
      (t.conn m.conn).naks = satAdd (s.conn m.conn).naks 1) ∧
  (∀ (s : State) (m : NakNotice), (s.conn m.conn).serial = m.serial → (s.conn m.conn).state = .opening →
    m.status = .routeCut →
    ∃ t, exec (.nakNoticeReceive m) s = .next t ∧ s.Only t [.top, .mch, .pcie, .out] ∧ (t.conn m.conn).state = .closed ∧
      (t.conn m.conn).lastStatus = BitVec.ofNat 8 Status.routeCut.code ∧ (t.conn m.conn).detail = m.detail) ∧
  (∀ (s : State) (m : NakNotice), (s.conn m.conn).serial ≠ m.serial → exec (.nakNoticeReceive m) s = .next s) ∧
  (∀ (s : State) (c : ConnN), (s.conn c).state = .opened →
    ∃ t, exec (.staleNoticeReceive c (s.conn c).serial) s = .next t ∧ s.Only t [.top, .mch, .pcie, .out] ∧
      (t.conn c).state = .closedByPeer ∧ (t.conn c).outst = 0 ∧ (t.conn c).waiting = []) ∧
  (∀ (s : State) (c : ConnN), (s.conn c).state = .draining →
    ∃ t, exec (.staleNoticeReceive c (s.conn c).serial) s = .next t ∧ s.Only t [.top, .mch, .pcie, .out] ∧
      (t.conn c).state = .closed ∧ (t.conn c).outst = 0 ∧ (t.conn c).waiting = []) ∧
  (∀ (s : State) (c : ConnN), (s.conn c).state = .draining →
    ∃ t, exec (.closeAckReceive c (s.conn c).serial) s = .next t ∧ s.Only t [.top, .mch, .pcie, .out] ∧
      t.conn c = { s.conn c with state := .closed }) ∧
  (∀ (s : State) (c : ConnN) (k : Nat), (s.conn c).state = .draining → (s.conn c).marker = some k → s.now % 1024 = 0 →
    (k / 1024 + 2) * 1024 ≤ s.now → (s.conn c).cuts + 1 < 16 →
    exec (.closeMarkerResend c) s = .next ((s.emit (.closeMarker (s.conn c).chip (s.routeOf c) (s.conn c).queue
      (BitVec.ofNat 12 c) (s.conn c).serial)).updConn c fun x => { x with cuts := x.cuts + 1, marker := some s.now })) ∧
  (∀ (s : State) (c : ConnN) (k : Nat), (s.conn c).state = .draining → (s.conn c).marker = some k → s.now % 1024 = 0 →
    (k / 1024 + 2) * 1024 ≤ s.now → 16 ≤ (s.conn c).cuts + 1 →
    ∃ t, exec (.closeMarkerResend c) s = .next t ∧ s.Only t [.top, .mch, .pcie, .out] ∧ (t.conn c).state = .closed ∧
      (t.conn c).closeLost = true) ∧
  (∀ (s : State) (c : ConnN), (s.conn c).marker = none ∨ s.now % 1024 ≠ 0 → exec (.closeMarkerResend c) s = .next s)

/-- The receiver of a connection, from 07 R365 to R368, R371, R374, R377, R381 to R383, R386 to R388, R390, R391, R398, R399: an OPEN
meets the checks, is recorded and answered with its grant, and replaces an older record of its chip and connection; a message that
has come whole gives its assembly slot back, and with no slot its worm waits; it is checked, then placed whole in the ring, joined to
its round, or answered by a NAK notice; a reader consumes the record at the head; credit is returned at a quarter of the grant or
after 256 frets, and again after a cut; a close marker deletes its record and is answered. -/
def Obligations.ReceiversPlaceAndCredit : Prop :=
  (∀ (s : State) (r : OpenReq) (st : Status) (d : BitVec 4), s.arriveCheck r.poisoned (s.queue r.queue) = some (st, d) →
    ∃ t, exec (.openReceive r) s = .next t ∧ s.Only t [.mch, .out] ∧
      t.out = .openAnswer r.srcChip r.conn r.serial st d 0 0 :: s.out ∧ t.mch.inb = s.mch.inb) ∧
  (∀ (s : State) (r : OpenReq) (g : Nat), s.arriveCheck r.poisoned (s.queue r.queue) = none →
    s.inbOf r.srcChip r.conn = none → s.mch.inb.length < 4096 →
    ((s.queue r.queue).kind ≠ 6 ∧ g = (if r.nak then 0 else r.grant.toNat) ∨
      (s.queue r.queue).kind = 6 ∧ r.nak = false ∧ r.index < (s.queue r.queue).chordN ∧
        (s.mch.inb.any fun x => decide (x.queue = r.queue.val) && decide (x.index = r.index)) = false ∧
        g = (s.queue r.queue).chordD * (s.queue r.queue).chordR) →
    (r.nak = true ∨ (s.queue r.queue).charge.toNat + g ≤ (s.queue r.queue).poolUnits) →
    ∃ t, exec (.openReceive r) s = .next t ∧ s.Only t [.mch, .out] ∧
      t.mch.inb = s.mch.inb ++ [{ chip := r.srcChip, conn := r.conn, serial := r.serial, queue := r.queue.val, nak := r.nak
                                  grant := g, index := r.index }] ∧
      (t.queue r.queue).charge = (s.queue r.queue).charge + BitVec.ofNat 18 g ∧
      t.out = .openAnswer r.srcChip r.conn r.serial .ok 0 (BitVec.ofNat 16 g)
        (Tab.get 0 (s.queue r.queue).filled r.index) :: s.out) ∧
  (∀ (s u : State) (r : OpenReq) (x : InbSt), s.arriveCheck r.poisoned (s.queue r.queue) = none →
    s.inbOf r.srcChip r.conn = some x → u = s.dropInb x → (u.queue r.queue).kind ≠ 6 → r.nak = false →
    u.mch.inb.length < 4096 → (u.queue r.queue).charge.toNat + r.grant.toNat ≤ (u.queue r.queue).poolUnits →
    ∃ t, exec (.openReceive r) s = .next t ∧ s.Only t [.mch, .out] ∧
      t.mch.inb = u.mch.inb ++ [{ chip := r.srcChip, conn := r.conn, serial := r.serial, queue := r.queue.val, nak := false
                                  grant := r.grant.toNat, index := r.index }] ∧
      ∀ y ∈ u.mch.inb, y.is r.srcChip r.conn = false) ∧
  (∀ (s : State) (r : OpenReq), s.arriveCheck r.poisoned (s.queue r.queue) = none → s.inbOf r.srcChip r.conn = none →
    (s.queue r.queue).kind ≠ 6 → r.nak = false → s.mch.inb.length < 4096 →
    (s.queue r.queue).poolUnits < (s.queue r.queue).charge.toNat + r.grant.toNat →
    exec (.openReceive r) s = .next { s with out := .openAnswer r.srcChip r.conn r.serial .nakFull 1 0 0 :: s.out }) ∧
  (∀ (s : State) (r : OpenReq), s.arriveCheck r.poisoned (s.queue r.queue) = none → s.inbOf r.srcChip r.conn = none →
    4096 ≤ s.mch.inb.length →
    exec (.openReceive r) s = .next { s with out := .openAnswer r.srcChip r.conn r.serial .nakFull 2 0 0 :: s.out }) ∧
  (∀ (s : State) (m : Msg), (⟨m.srcChip, m.conn, m.serial, m.seq⟩ : AsmSlot) ∉ s.mch.slots.get (s.queue m.queue).half →
    64 ≤ (s.mch.slots.get (s.queue m.queue).half).length → exec (.messageArrive m) s = .next s) ∧
  (∀ (s u : State) (m : Msg), u = { s with mch := { s.mch with slots := (s.mch.slots.set (s.queue m.queue).half
      ((s.mch.slots.get (s.queue m.queue).half).erase ⟨m.srcChip, m.conn, m.serial, m.seq⟩)) } } →
    ((⟨m.srcChip, m.conn, m.serial, m.seq⟩ : AsmSlot) ∈ s.mch.slots.get (s.queue m.queue).half ∨
      (s.mch.slots.get (s.queue m.queue).half).length < 64) →
    (∀ st d, s.arriveCheck m.poisoned (s.queue m.queue) = some (st, d) →
      exec (.messageArrive m) s = .next (u.nakMsg m st d)) ∧
    (s.arriveCheck m.poisoned (s.queue m.queue) = none →
      (s.mch.inb.find? fun x => x.is m.srcChip m.conn && x.serial = m.serial) = none →
      exec (.messageArrive m) s = .next (u.nakMsg m .nakStale 5)) ∧
    (∀ x, s.arriveCheck m.poisoned (s.queue m.queue) = none →
      (s.mch.inb.find? fun x => x.is m.srcChip m.conn && x.serial = m.serial) = some x → (s.queue m.queue).kind ≠ 6 →
      (x.nak = false ∨ (s.queue m.queue).charge.toNat + recUnits m.body.length ≤ (s.queue m.queue).poolUnits) →
      ∃ t, exec (.messageArrive m) s = .next t ∧ s.Only t [.top, .rel, .chest, .mch, .hbm, .parts, .out] ∧
        (t.queue m.queue).placed = satAdd (s.queue m.queue).placed 1 ∧
        (t.queue m.queue).charge = (s.queue m.queue).charge +
          (if x.nak then BitVec.ofNat 18 (recUnits m.body.length) else 0) ∧
        ∃ r ∈ (t.queue m.queue).recs, r.body = m.body ∧ r.seq = m.seq ∧ r.gap = x.gap ∧ r.units = recUnits m.body.length) ∧
    (∀ x, s.arriveCheck m.poisoned (s.queue m.queue) = none →
      (s.mch.inb.find? fun x => x.is m.srcChip m.conn && x.serial = m.serial) = some x → (s.queue m.queue).kind ≠ 6 →
      x.nak = true → (s.queue m.queue).poolUnits < (s.queue m.queue).charge.toNat + recUnits m.body.length →
      ∃ t, exec (.messageArrive m) s = .next t ∧ s.Only t [.mch, .out] ∧
        (t.queue m.queue).dropped = satAdd (s.queue m.queue).dropped 1 ∧ (t.queue m.queue).recs = (s.queue m.queue).recs ∧
        t.out = .nak m.srcChip m.conn m.serial m.seq .nakFull 1 :: s.out) ∧
    (∀ x, s.arriveCheck m.poisoned (s.queue m.queue) = none →
      (s.mch.inb.find? fun x => x.is m.srcChip m.conn && x.serial = m.serial) = some x → (s.queue m.queue).kind = 6 →
      m.body.length = (s.queue m.queue).chordE * (s.queue m.queue).chordW →
      ∃ t, exec (.messageArrive m) s = .next t ∧ s.Only t [.mch] ∧
        (t.queue m.queue).bodies = (s.queue m.queue).bodies ++
          [⟨x.index, Tab.get 0 (s.queue m.queue).filled x.index, m.body, m.srcChip.toNat, m.conn.toNat, m.serial.toNat⟩])) ∧
  (∀ (s : State) (q : QueueN) (r : RecSt), s.mayTake q = true → (s.queue q).nextRec = some r →
    ∃ t, exec (.recordConsume q) s = .next t ∧ s.Only t [.mch] ∧
      (t.queue q).recs = skipPad (skipPad (s.queue q).recs).tail) ∧
  (∀ (s : State) (q : QueueN), s.mayTake q = false → exec (.recordConsume q) s = .next s) ∧
  (∀ (s : State) (n : Nat) (cut : Bool) (x : InbSt), s.inbAt n = some x → x.nak = false → 0 < x.pend →
    (ceilDiv x.grant 4 ≤ x.pend ∨ x.since + 256 ≤ s.now) →
    ∃ t, exec (.creditReturnSend n cut) s = .next t ∧ s.Only t [.mch, .out] ∧
      t.inbAt n = some { x with pend := 0, cut := cut } ∧ (∀ k, k ≠ n → t.inbAt k = s.inbAt k) ∧
      t.out = .creditReturn x.chip x.conn x.serial x.total :: s.out) ∧
  (∀ (s : State) (n : Nat) (cut : Bool) (x : InbSt), s.inbAt n = some x →
    (x.nak = true ∨ x.pend = 0 ∨ x.pend < ceilDiv x.grant 4 ∧ s.now < x.since + 256) →
    exec (.creditReturnSend n cut) s = .next s) ∧
  (∀ (s : State) (n : Nat) (cut : Bool) (x : InbSt), s.inbAt n = some x → x.cut = true → s.now % 1024 = 0 →
    ∃ t, exec (.creditReturnResend n cut) s = .next t ∧ s.Only t [.mch, .out] ∧
      t.inbAt n = some { x with pend := 0, cut := cut } ∧ (∀ k, k ≠ n → t.inbAt k = s.inbAt k) ∧
      t.out = .creditReturn x.chip x.conn x.serial x.total :: s.out) ∧
  (∀ (s : State) (n : Nat) (cut : Bool) (x : InbSt), s.inbAt n = some x → x.cut = false ∨ s.now % 1024 ≠ 0 →
    exec (.creditReturnResend n cut) s = .next s) ∧
  (∀ (s : State) (chip : BitVec 10) (conn : BitVec 12) (serial : BitVec 8) (q : QueueN) (x : InbSt),
    (s.mch.inb.find? fun x => x.is chip conn && x.serial = serial) = some x →
    ∃ t, exec (.closeMarkerReceive chip conn serial q) s = .next t ∧ s.Only t [.mch, .out] ∧ t.inbOf chip conn = none ∧
      t.out = .closeAck chip conn serial :: s.out) ∧
  (∀ (s : State) (chip : BitVec 10) (conn : BitVec 12) (serial : BitVec 8) (q : QueueN),
    (s.mch.inb.find? fun x => x.is chip conn && x.serial = serial) = none →
    exec (.closeMarkerReceive chip conn serial q) s = .next { s with out := .closeAck chip conn serial :: s.out })

/-- Queues, from 07 R361, R364, R392, R397 to R402, R411: BIND of a good configuration empties the ring and gives the queue its
receiver's place in the rotation, and of another sets bind_err; BIND of a queue that is not UNBOUND changes no more than bind_err;
UNBIND of a BOUND queue discards what it holds and deletes its inbound records; the oldest complete round of a chord queue leaves as
one sum where its output connection allows it, is refused there where the chord queue is not its sender, waits for credit, or is
dropped where that connection is not OPEN, and its units are credited to the connections that contributed. -/
def Obligations.QueuesBindAndSum : Prop :=
  (∀ (s u : State) (acc : Accessor) (v : Word), s.mayWrite acc = true → s.passed 4 = true →
    (s.queue (s.mch.qSel.get acc).toNat).state = .unbound →
    u = s.updQueue (s.mch.qSel.get acc).toNat (fun q => { q with
      sel := bit v 27, kind := v.extractLsb' 24 3, input := v.extractLsb' 21 3, prio := v.extractLsb' 18 3,
      ep := v.setWidth 14, bindErr := q.bindErr && !bit v 17 }) →
    exec (.queueBind acc v) s = .next (u.updQueue (s.mch.qSel.get acc).toNat fun q =>
      if u.bindOk (s.mch.qSel.get acc).toNat then { q with
        state := .bound, head := 0, tail := 0, headLap := true, tailLap := true, charge := 0, round := 0, recs := []
        filled := [], bodies := [], placed := 0, dropped := 0, stale := 0, armedAt := some 0
        lastPrio := ((u.bindMates (s.mch.qSel.get acc).toNat (u.queue (s.mch.qSel.get acc).toNat)).head?.map
          (·.lastPrio)).getD 7 }
      else { q with bindErr := true })) ∧
  (∀ (s : State) (acc : Accessor) (v : Word), s.mayWrite acc = true → s.passed 4 = true →
    (s.queue (s.mch.qSel.get acc).toNat).state ≠ .unbound →
    exec (.queueBind acc v) s = .next (s.updQueue (s.mch.qSel.get acc).toNat fun q =>
      { q with bindErr := q.bindErr && !bit v 17 })) ∧
  (∀ (s : State) (acc : Accessor) (v : Word), s.mayWrite acc = true → s.passed 4 = true →
    (s.queue (s.mch.qSel.get acc).toNat).state = .bound →
    ∃ t, exec (.queueUnbind acc v) s = .next t ∧ s.Only t [.mch, .out] ∧
      (t.queue (s.mch.qSel.get acc).toNat).state = .unbound ∧ (t.queue (s.mch.qSel.get acc).toNat).recs = [] ∧
      (∀ x ∈ t.mch.inb, x.queue ≠ (s.mch.qSel.get acc).toNat) ∧
      ∀ x ∈ s.mch.inb, x.queue ≠ (s.mch.qSel.get acc).toNat → x ∈ t.mch.inb) ∧
  (∀ (s : State) (acc : Accessor) (v : Word), s.mayWrite acc = true → s.passed 4 = true →
    (s.queue (s.mch.qSel.get acc).toNat).state = .fenced →
    exec (.queueUnbind acc v) s = .next (s.updQueue (s.mch.qSel.get acc).toNat fun q =>
      { q with bindErr := q.bindErr && !bit v 17 })) ∧
  (∀ (s : State) (q : QueueN), (s.queue q).kind ≠ 6 ∨ (s.queue q).state ≠ .bound ∨ (s.queue q).roundBodies = none →
    exec (.chordSumRelease q) s = .next s) ∧
  (∀ (s : State) (q : QueueN) (bs : List (List Byte)), (s.queue q).kind = 6 → (s.queue q).state = .bound →
    (s.queue q).roundBodies = some bs →
    ((s.conn (s.queue q).out.toNat).state ≠ .opened ∨
      (s.conn (s.queue q).out.toNat).sentBy 6 (BitVec.ofNat 14 q) = false ∨
      (s.conn (s.queue q).out.toNat).waiting = [] ∧
        (s.conn (s.queue q).out.toNat).allows (recUnits (chordSum (s.queue q) bs).length) = true) →
    ∃ t, exec (.chordSumRelease q) s = .next t ∧ s.Only t [.mch, .out] ∧
      (t.queue q).round = ((s.queue q).round + 1) % 2 ^ 32 ∧
      (t.queue q).bodies = ((s.queue q).bodies.filter fun b => decide (b.round ≠ (s.queue q).round)) ∧
      (t.queue q).dropped = (if (s.conn (s.queue q).out.toNat).state = .opened then (s.queue q).dropped
        else satAdd (s.queue q).dropped 1) ∧
      (∀ i y, s.inbAt i = some y → y.nak = false →
        ((s.queue q).bodies.any fun b => decide (b.round = (s.queue q).round)
          && decide (b.src = (y.chip.toNat, y.conn.toNat, y.serial.toNat))) = true →
        ∃ z, t.inbAt i = some z ∧ z.total = y.total + BitVec.ofNat 32 (s.queue q).chordR ∧
          z.pend = y.pend + (s.queue q).chordR) ∧
      (∀ i y, s.inbAt i = some y →
        ((s.queue q).bodies.any fun b => decide (b.round = (s.queue q).round)
          && decide (b.src = (y.chip.toNat, y.conn.toNat, y.serial.toNat))) = false → t.inbAt i = some y)) ∧
  (∀ (s : State) (q : QueueN) (bs : List (List Byte)), (s.queue q).kind = 6 → (s.queue q).state = .bound →
    (s.queue q).roundBodies = some bs → (s.conn (s.queue q).out.toNat).state = .opened →
    (s.conn (s.queue q).out.toNat).sentBy 6 (BitVec.ofNat 14 q) = true → (s.conn (s.queue q).out.toNat).waiting = [] →
    (s.conn (s.queue q).out.toNat).nak = false →
    recUnits (chordSum (s.queue q) bs).length ≤ (s.conn (s.queue q).out.toNat).grant.toNat →
    (s.conn (s.queue q).out.toNat).allows (recUnits (chordSum (s.queue q) bs).length) = true →
    ∃ t, exec (.chordSumRelease q) s = .next t ∧
      ∃ m : Msg, t.out = .message (s.conn (s.queue q).out.toNat).chip (s.routeOf (s.queue q).out.toNat) 3 m :: s.out ∧
        m.body = chordSum (s.queue q) bs ∧ m.sum = true ∧ m.seq = BitVec.ofNat 32 (s.queue q).round) ∧
  (∀ (s : State) (q : QueueN) (bs : List (List Byte)), (s.queue q).kind = 6 → (s.queue q).state = .bound →
    (s.queue q).roundBodies = some bs → (s.conn (s.queue q).out.toNat).state = .opened →
    (s.conn (s.queue q).out.toNat).sentBy 6 (BitVec.ofNat 14 q) = true →
    ((s.conn (s.queue q).out.toNat).waiting ≠ [] ∨
      (s.conn (s.queue q).out.toNat).allows (recUnits (chordSum (s.queue q) bs).length) = false) →
    recUnits (chordSum (s.queue q) bs).length ≤ (s.conn (s.queue q).out.toNat).grant.toNat →
    exec (.chordSumRelease q) s = .next s)

/-- Routers, from 08 R418, R421 to R424, R429 to R432, R461 to R464, R467, and 10 R521: a head that finds room enters and waits for the
output that its next hop code names; a code that names no way is a route error, counted and answered; header parity discards the
worm; a head or flits with no room do not enter; of several VC0 heads the most urgent goes first, and VC0 goes before VC1 to VC3
until seven slots have passed; a slot sends one flit of the worm chosen; at a port that is DOWN no worm is left for it; a cut before the
head crossed answers the worm; the watchdog counts a worm that holds an output. The buffers of a ring's inputs and the order of heads
on VC1 to VC3 are the model's choices (log entry 65). -/
def Obligations.WormsAreRoutedOrCut : Prop :=
  (∀ (s : State) (c : Clus) (i n : Nat) (w : Worm) (code : BitVec 5) (cs : List (BitVec 5)), w.head.hops = code :: cs →
    runOk c (code.extractLsb' 3 2).toNat ((code.extractLsb' 0 3).toNat + 1) = true →
    (wormEdge w && releaseIn (.hub c) i) = false → s.roomAt (.hub c) i w (min n (wormFlits w)) = true →
    ∃ t, exec (.wormRoute (.hub c) i (.head w n true) none) s = .next t ∧ s.Only t [.spn] ∧
      ∃ dest, (t.router (.hub c)).worms = (s.router (.hub c)).worms ++ [⟨i, w.head.cls,
        { w with head := { w.head with hops := cs, nextHop := w.head.nextHop + 1 } },
        (code.extractLsb' 3 2).toNat, dest, min n (wormFlits w), wormFlits w - min n (wormFlits w), 0⟩]) ∧
  (∀ (s : State) (c : Clus) (i n : Nat) (w : Worm) (code : BitVec 5) (cs : List (BitVec 5)), w.head.hops = code :: cs →
    runOk c (code.extractLsb' 3 2).toNat ((code.extractLsb' 0 3).toNat + 1) = false →
    (wormEdge w && releaseIn (.hub c) i) = false → s.roomAt (.hub c) i w (min n (wormFlits w)) = true →
    ∃ t, exec (.wormRoute (.hub c) i (.head w n true) none) s = .next t ∧ s.Only t [.chest, .spn, .fabs, .tasks, .out] ∧
      (t.spnHalf (clusHalf c)).routeErr = satAdd (s.spnHalf (clusHalf c)).routeErr 1 ∧
      (wormAnswered w = true →
        t.out = .nak w.head.srcChip w.head.conn w.head.serial w.head.task .routeCut 8 :: s.out)) ∧
  (∀ (s : State) (h : Half) (i n : Nat) (w : Worm) (code : BitVec 5) (cs : List (BitVec 5)) (p : FabPort),
    ringFab h i = none → w.head.hops = code :: cs → code.toNat ≠ 0x11 → code.toNat < 0x18 →
    ringFab h code.toNat = some p → (s.fab p).state = .up → s.roomAt (.ring h) i w (min n (wormFlits w)) = true →
    ∃ t, exec (.wormRoute (.ring h) i (.head w n true) none) s = .next t ∧ s.Only t [.spn] ∧
      (t.router (.ring h)).worms = (s.router (.ring h)).worms ++ [⟨i, w.head.cls,
        { w with head := { w.head with hops := cs, nextHop := w.head.nextHop + 1 } },
        code.toNat, .fabric p, min n (wormFlits w), wormFlits w - min n (wormFlits w), 0⟩]) ∧
  (∀ (s : State) (h : Half) (i n : Nat) (w : Worm) (code : BitVec 5) (cs : List (BitVec 5)) (p : FabPort),
    ringFab h i = none → w.head.hops = code :: cs → code.toNat ≠ 0x11 → code.toNat < 0x18 →
    ringFab h code.toNat = some p → (s.fab p).state ≠ .up → s.roomAt (.ring h) i w (min n (wormFlits w)) = true →
    ∃ t, exec (.wormRoute (.ring h) i (.head w n true) none) s = .next t ∧ s.Only t [.chest, .spn, .fabs, .tasks, .out] ∧
      (t.fab p).cuts = satAdd (s.fab p).cuts 1 ∧ (t.fab p).cut = true) ∧
  (∀ (s : State) (c : Clus) (i n : Nat) (w : Worm), (wormEdge w && releaseIn (.hub c) i) = false →
    s.roomAt (.hub c) i w (min n (wormFlits w)) = true →
    ∃ t, exec (.wormRoute (.hub c) i (.head w n false) none) s = .next t ∧ s.Only t [.rel, .chest, .spn, .tasks, .out] ∧
      t.rel.parity = satAdd s.rel.parity 1) ∧
  (∀ (s : State) (r : Router) (i n : Nat) (w : Worm) (ok : Bool) (bad : Option (Fin 18)),
    (wormEdge w = true ∧ releaseIn r i = true) ∨ s.roomAt r i w (min n (wormFlits w)) = false →
    exec (.wormRoute r i (.head w n ok) bad) s = .next s) ∧
  (∀ (s : State) (r : Router) (i n : Nat) (vc : BitVec 2) (bad : Option (Fin 18)),
    (s.router r).worms.find? (entering i vc) = none → exec (.wormRoute r i (.flits vc n) bad) s = .next s) ∧
  (∀ (s : State) (c : Clus) (i n : Nat) (vc : BitVec 2) (x : RtWorm), (s.router (.hub c)).worms.find? (entering i vc) = some x →
    x.dest ≠ .sink →
    s.roomAt (.hub c) i { x.w with head := { x.w.head with cls := x.cls } } (min n x.due) = true →
    ∃ t, exec (.wormRoute (.hub c) i (.flits vc n) none) s = .next t ∧ s.Only t [.spn] ∧
      { x with here := x.here + min n x.due, due := x.due - min n x.due } ∈ (t.router (.hub c)).worms) ∧
  (∀ (s : State) (xs : List RtWorm) (x : RtWorm), s.mostUrgent xs = some x →
    x ∈ xs ∧ ∀ y ∈ xs, s.urgency x.w < s.urgency y.w ∨ (s.urgency x.w = s.urgency y.w ∧ x.inPort ≤ y.inPort)) ∧
  (∀ (s : State) (r : Router) (out pick : Nat) (x : RtWorm), s.slotFor r out pick = some x → x.w.head.vc ≠ 0 →
    s.readyOn (s.contend r out) pick 0 = none ∨ 7 ≤ Tab.get 0 (s.router r).turns out) ∧
  (∀ (s : State) (r : Router) (out pick : Nat) (ok : Bool) (bad : Option (Fin 18)), fabIn r out = none → s.contend r out = [] →
    exec (.wormRoute r out (.slot pick ok) bad) s = .next s) ∧
  (∀ (s : State) (r : Router) (out pick : Nat) (ok : Bool) (bad : Option (Fin 18)) (x : RtWorm), fabIn r out = none →
    s.slotFor r out pick = some x → x.dest = .here → wormEdge x.w = false → 0 < x.sent → 1 < x.here →
    ∃ t, exec (.wormRoute r out (.slot pick ok) bad) s = .next t ∧ s.Only t [.spn] ∧
      { x with here := x.here - 1, sent := x.sent + 1 } ∈ (t.router r).worms) ∧
  (∀ (s : State) (r : Router) (out pick : Nat) (ok : Bool) (bad : Option (Fin 18)) (x : RtWorm), fabIn r out = none →
    s.slotFor r out pick = some x → x.dest = .here → wormEdge x.w = false → wormMemory x.w = false → 0 < x.sent → x.here = 1 →
    x.due = 0 →
    ∃ t, exec (.wormRoute r out (.slot pick ok) bad) s = .next t ∧ s.Only t [.spn, .out] ∧
      t.out = .deliver r x.w :: s.out) ∧
  (∀ (s : State) (h : Half) (p : FabPort) (pick : Nat) (ok : Bool) (bad : Option (Fin 18)) (x : RtWorm), ringFab h p.val = some p →
    (s.fab p).state = .up → s.slotFor (.ring h) p.val pick = some x → x.dest = .fabric p → x.sent = 0 → 1 < x.here →
    ∃ t, exec (.wormRoute (.ring h) p.val (.slot pick ok) bad) s = .next t ∧ s.Only t [.tel, .spn, .fabs, .out] ∧
      (t.fab p).txWorms = (s.fab p).txWorms + 1 ∧ (t.fab p).txFlits = (s.fab p).txFlits + 1 ∧
      t.out = .worm p x.w :: s.out ∧ { x with here := x.here - 1, sent := 1 } ∈ (t.router (.ring h)).worms) ∧
  (∀ (s : State) (h : Half) (p : FabPort) (pick : Nat) (ok : Bool) (bad : Option (Fin 18)), ringFab h p.val = some p → (s.fab p).state ≠ .up →
    ∃ t, exec (.wormRoute (.ring h) p.val (.slot pick ok) bad) s = .next t ∧ s.Only t [.chest, .spn, .fabs, .tasks, .out] ∧
      ∀ x ∈ (t.router (.ring h)).worms, x.dest ≠ .fabric p) ∧
  (∀ (s : State) (r : Router) (port n : Nat) (atInput : Bool), (s.cuttable r port atInput).length ≤ n →
    exec (.wormCut r port n atInput) s = .next s) ∧
  (∀ (s : State) (r : Router) (port n : Nat) (x : RtWorm), (s.cuttable r port false)[n]? = some x →
    (x.dest = .here → x.sent = 0 → wormAnswered x.w = true →
      ∃ t, exec (.wormCut r port n false) s = .next t ∧ s.Only t [.spn, .out] ∧
        t.out = .nak x.w.head.srcChip x.w.head.conn x.w.head.serial x.w.head.task .routeCut 8 :: s.out) ∧
    (∀ p, x.dest = .fabric p → 0 < x.sent → wormEdge x.w = false →
      ∃ t, exec (.wormCut r port n false) s = .next t ∧ s.Only t [.spn, .fabs, .out] ∧
        t.out = .cutWorm r x.out { x.w with head := { x.w.head with poison := true } } true :: s.out ∧
        (t.fab p).cuts = satAdd (s.fab p).cuts 1)) ∧
  (∀ (s : State) (r : Router) (port n : Nat) (x : RtWorm), (s.cuttable r port true)[n]? = some x → x.dest ≠ .sink →
    wormEdge x.w = false → fabIn r x.inPort = none →
    ∃ t, exec (.wormCut r port n true) s = .next t ∧ s.Only t [.spn] ∧
      { x with here := x.here + 1, due := 0, w := { x.w with head := { x.w.head with poison := true } } } ∈ (t.router r).worms) ∧
  (∀ (s : State) (r : Router) (outPort : Nat) (vc : BitVec 2),
    vc = 0 ∨ (s.router r).worms.all (fun x => decide (x.out ≠ outPort ∨ x.w.head.vc ≠ vc ∨ x.sent = 0)) = true →
    exec (.vcWatchdogExpire r outPort vc) s = .next s) ∧
  (∀ (s : State) (c : Clus) (outPort : Nat) (vc : BitVec 2) (x : RtWorm), vc ≠ 0 → x ∈ (s.router (.hub c)).worms → x.out = outPort →
    x.w.head.vc = vc → 0 < x.sent → x.dest ≠ .sink → (s.spnHalf (clusHalf c)).cut = false →
    ∃ t, exec (.vcWatchdogExpire (.hub c) outPort vc) s = .next t ∧ s.Only t [.spn, .chest] ∧
      (t.spnHalf (clusHalf c)).events = satAdd (s.spnHalf (clusHalf c)).events 1)

/-- Fabric ports, from 08 R446 to R455, R466 to R469 and 10 R551: an enabled port that is DOWN trains, then is measured, identified and
UP; it goes DOWN with the cause of what took it down, its identity fields clear and its flight is no longer valid; each event changes
nothing in a state that the table does not name for it; retries and replays are counted; the twin port's heartbeat is sent while the
port is UP, and its loss is noted, and makes a PAIRED chip SOLO; an NCN packet that fails once is counted, and one that fails twice is a
retirement cause. -/
def Obligations.FabricPortsChangeState : Prop :=
  (∀ (s : State) (p : FabPort), (s.fab p).enable = true → (s.fab p).state = .down →
    exec (.fabPortEnable p) s = .next (s.updFab p fun f => { f with state := .train, lanes := 0 })) ∧
  (∀ (s : State) (p : FabPort), (s.fab p).enable = false ∨ (s.fab p).state ≠ .down → exec (.fabPortEnable p) s = .next s) ∧
  (∀ (s : State) (p : FabPort) (lanes : BitVec 8), (s.fab p).state ≠ .train →
    exec (.fabTrainDone p) s = .next s ∧ exec (.fabTrainFail p lanes) s = .next s) ∧
  (∀ (s : State) (p : FabPort) (xs : List Exchange), (s.fab p).state ≠ .measure ∨ xs.length ≠ 256 →
    exec (.fabMeasureDone p xs) s = .next s) ∧
  (∀ (s : State) (p : FabPort) (id : PeerId), (s.fab p).state ≠ .discover → exec (.fabIdentityReceive p id) s = .next s) ∧
  (∀ (s : State) (p : FabPort), ((s.fab p).state = .down ∨ (s.fab p).state = .train) → exec (.fabLockLost p) s = .next s) ∧
  (∀ (s : State) (p : FabPort), (s.fab p).state ≠ .up →
    exec (.fabDownMarkerReceive p) s = .next s ∧ exec (.fabReplayLimit p) s = .next s) ∧
  (∀ (s : State) (p : FabPort), (s.fab p).state = .train →
    exec (.fabTrainDone p) s =
      .next ((s.updFab p fun f => { f with state := .measure, lanes := 0xFF }).emit (.exchange p 256))) ∧
  (∀ (s : State) (p : FabPort) (lanes : BitVec 8), (s.fab p).state = .train →
    ∃ t, exec (.fabTrainFail p lanes) s = .next t ∧ s.Only t [.top, .fret, .healx, .chest, .spn, .fabs, .tasks, .held, .out] ∧
      (t.fab p).state = .down ∧ (t.fab p).cause = 2 ∧ (t.fab p).lanes = lanes) ∧
  (∀ (s : State) (p : FabPort) (xs : List Exchange), (s.fab p).state = .measure → xs.length = 256 →
    flightOf xs * 1000 ≤ 640 * s.mhz (portRing p) →
    ∃ t, exec (.fabMeasureDone p xs) s = .next t ∧ s.Only t [.fret, .fabs, .out] ∧ (t.fab p).state = .discover ∧
      (t.flightReg p).valid = true ∧ (t.flightReg p).flight = satOfNat 16 (flightOf xs) ∧
      t.out = .identity p (s.myIdentity p) :: s.out) ∧
  (∀ (s : State) (p : FabPort) (xs : List Exchange), (s.fab p).state = .measure → xs.length = 256 →
    640 * s.mhz (portRing p) < flightOf xs * 1000 →
    ∃ t, exec (.fabMeasureDone p xs) s = .next t ∧ s.Only t [.top, .fret, .healx, .chest, .spn, .fabs, .tasks, .held, .out] ∧
      (t.fab p).state = .down ∧ (t.fab p).cause = 6) ∧
  (∀ (s : State) (p : FabPort) (id : PeerId), (s.fab p).state = .discover →
    exec (.fabIdentityReceive p id) s = .next (s.updFab p fun f =>
      { f with state := .up, peerValid := true, peerSerial := id.serial, peerPort := id.port, peerGrade := id.grade
               peerLetter := id.revLetter, peerDigit := id.revDigit })) ∧
  (∀ (s : State) (p : FabPort), ((s.fab p).state = .measure ∨ (s.fab p).state = .discover ∨ (s.fab p).state = .up) →
    ∃ t, exec (.fabLockLost p) s = .next t ∧ s.Only t [.top, .fret, .healx, .chest, .spn, .fabs, .tasks, .held, .out] ∧
      (t.fab p).state = .down ∧ (t.fab p).cause = 3 ∧ (t.fab p).peerValid = false ∧ (t.fab p).peerSerial = 0 ∧
      (t.flightReg p).valid = false) ∧
  (∀ (s : State) (p : FabPort), (s.fab p).state = .up →
    ∃ t, exec (.fabDownMarkerReceive p) s = .next t ∧ s.Only t [.top, .fret, .healx, .chest, .spn, .fabs, .tasks, .held, .out] ∧
      (t.fab p).state = .down ∧ (t.fab p).cause = 4 ∧ (t.fab p).peerValid = false) ∧
  (∀ (s : State) (p : FabPort), (s.fab p).state = .up →
    ∃ t, exec (.fabReplayLimit p) s = .next t ∧ s.Only t [.top, .fret, .healx, .chest, .spn, .fabs, .tasks, .held, .out] ∧
      (t.fab p).state = .down ∧ (t.fab p).cause = 5 ∧ (t.fab p).peerValid = false) ∧
  (∀ (s : State) (acc : Accessor) (p : FabPort) (v : Word), s.mayWrite acc = true → s.passed 1 = true →
    (s.fab p).state ≠ .down →
    ∃ t, exec (.fabPortDisable acc p v) s = .next t ∧ s.Only t [.top, .fret, .healx, .chest, .spn, .fabs, .tasks, .held, .out] ∧
      (t.fab p).enable = false ∧ (t.fab p).state = .down ∧ (t.fab p).cause = 1 ∧
      ((s.fab p).state = .up → .downMarker p ∈ t.out)) ∧
  (∀ (s : State) (acc : Accessor) (p : FabPort) (v : Word), s.mayWrite acc = true → s.passed 1 = true →
    (s.fab p).state = .down →
    ∃ t, exec (.fabPortDisable acc p v) s = .next t ∧ s.Only t [.fabs] ∧ (t.fab p).enable = false ∧ (t.fab p).state = .down ∧
      (t.fab p).cause = (s.fab p).cause) ∧
  (∀ (s : State) (acc : Accessor) (p : FabPort) (v : Word), s.mayWrite acc = false → s.passed 1 = true →
    exec (.fabPortDisable acc p v) s = .next { s with top := { s.top with denied := satAdd s.top.denied 1 } }) ∧
  (∀ (s : State) (acc : Accessor) (p : FabPort) (v : Word), s.passed 1 = false →
    exec (.fabPortDisable acc p v) s = .next s) ∧
  (∀ (s : State) (p : FabPort), ∃ t, exec (.fabLocalRetry p) s = .next t ∧ s.Only t [.tel, .fabs] ∧
    (t.fab p) = { s.fab p with localRetry := satAdd (s.fab p).localRetry 1 }) ∧
  (∀ (s : State) (p : FabPort), ∃ t, exec (.fabReplay p) s = .next t ∧ s.Only t [.tel, .fabs, .out] ∧
    (t.fab p) = { s.fab p with replay := satAdd (s.fab p).replay 1 } ∧ t.out = .replayReq p :: s.out) ∧
  (∀ (s : State), s.twUp = false → exec .twHeartbeatSend s = .next s ∧ exec .twHeartbeatTimeout s = .next s) ∧
  (∀ (s : State), s.twUp = true → exec .twHeartbeatSend s = .next { s with out := .heartbeat 16 :: s.out }) ∧
  (∀ (s : State), s.twUp = true → ∃ t, exec .twHeartbeatTimeout s = .next t ∧
    s.Only t [.top, .healx, .relx, .chest, .fabs, .out] ∧ (t.fab 16).twinLost = true ∧
    t.healx.twin = (if s.healx.twin = .paired then .solo else s.healx.twin)) ∧
  (∀ (s : State) (h : Half),
    exec (.ncnCrcError h false) s = .next (s.updSpn h fun x => { x with retx := satAdd x.retx 1 })) ∧
  (∀ (s : State) (h : Half), s.relx.retState = .none → s.healx.retireWait = none → s.top.ready = true → s.bist.state = 0 →
    s.recovering = false →
    ∃ t, exec (.ncnCrcError h true) s = .next t ∧ s.Only t [.relx, .chest] ∧ t.relx.retState = .draining ∧
      t.relx.retCause = 4) ∧
  (∀ (s : State) (h : Half), s.relx.retState ≠ .none → s.NextOnly (exec (.ncnCrcError h true) s) [.bist, .chest])

/-- Schedule commands, from 05 R276 to R279, 09 R498 to R500, R789 and 10 R541, R552, and 11 R565, R570: a good image becomes resident under
the lowest free number, and its regions that were not live have side A current; an image that fails a check is refused with the
status of the first check it fails, and changes no schedule; START fixes the base of its launch frets and drops the schedule's
retries; a START or an UNLOAD of a schedule that is not there, or that is busy, is refused; STOP lets nothing more arm and fails a
retry that is not armed; UNLOAD removes the schedule and its tasks; a sender that may not command, and a reserved code, change no
schedule. That the number is the lowest free one is the model's choice (log entry 31). -/
def Obligations.ScheduleCommandsTakeEffect : Prop :=
  (∀ (s : State) (m : McCmd) (img : Image), s.admission m.sender = none → (∀ t ∈ img.tasks, 2 ≤ t.grace) →
    s.regionsOk img = true → migrationOk img = true → s.unfitImage img = none →
    ∃ t, exec (.mcLoad m img img.digest true) s = .next t ∧ s.Only t [.sec, .mch, .spn, .scheds, .out] ∧
      Tab.find t.scheds s.freeSched = some { image := img } ∧
      (∀ k, k ≠ s.freeSched → Tab.find t.scheds k = Tab.find s.scheds k) ∧
      (∀ r ∈ img.regions, (∀ q ∈ s.liveRegions, q.n ≠ r.n) → Tab.find t.spn.sides r.n = none) ∧
      (∀ q ∈ s.liveRegions, Tab.find t.spn.sides q.n = Tab.find s.spn.sides q.n)) ∧
  (∀ (s : State) (m : McCmd) (img : Image) (d : BitVec 256) (ok : Bool),
    (s.mayCommand m.sender = false → exec (.mcLoad m img d ok) s = .next (s.mcReply m 1 .nakFenced 1 0)) ∧
    (s.mayCommand m.sender = true → (s.relx.retState ≠ .none ∨ s.relx.retFlag = true) →
      exec (.mcLoad m img d ok) s = .next (s.mcReply m 1 .nakFenced 6 0)) ∧
    (s.mayCommand m.sender = true → s.relx.retState = .none → s.relx.retFlag = false → s.bist.state ≠ 0 →
      exec (.mcLoad m img d ok) s = .next (s.mcReply m 1 .nakFenced 7 0)) ∧
    (s.admission m.sender = none → (img.digest ≠ d ∨ ok = false ∨ ∃ t ∈ img.tasks, t.grace < 2) →
      exec (.mcLoad m img d ok) s = .next (s.mcReply m 1 .nakStale 2 0))) ∧
  (∀ (s : State) (m : McCmd) (img : Image), s.admission m.sender = none → (∀ t ∈ img.tasks, 2 ≤ t.grace) →
    (s.regionsOk img = false → exec (.mcLoad m img img.digest true) s = .next (s.mcReply m 1 .unsided 0 0)) ∧
    (s.regionsOk img = true → migrationOk img = false →
      exec (.mcLoad m img img.digest true) s = .next (s.mcReply m 1 .migration 0 0)) ∧
    (∀ lt, s.regionsOk img = true → migrationOk img = true → s.unfitImage img = some lt →
      ∃ t, exec (.mcLoad m img img.digest true) s = .next t ∧ s.Only t [.top, .chest, .mch, .out] ∧
        bit t.top.cause.a (Attn.variant.bit) = true)) ∧
  (∀ (s : State) (m : McCmd) (x : SchedSt) (c : TaskCfg) (cs : List TaskCfg), s.admission m.sender = none →
    s.sched? m.sched = some x → s.busySched m.sched = false →
    (x.image.tasks.filter fun t => !x.committed.contains t.number) = c :: cs →
    ∃ t, exec (.mcStart m) s = .next t ∧ s.Only t [.relx, .mch, .scheds, .out] ∧
      t.sched? m.sched = some { x with
        started := true, stopping := false, reply := m.reply, base := (m.launch : Int) - c.launch, shift := 0 } ∧
      ∀ r ∈ t.relx.retries, r.sched ≠ m.sched) ∧
  (∀ (s : State) (m : McCmd) (x : SchedSt) (c : TaskCfg) (cs : List TaskCfg), s.admission m.sender = none →
    s.sched? m.sched = some x → s.busySched m.sched = false →
    (x.image.tasks.filter fun t => !x.committed.contains t.number) = [] → x.image.tasks = c :: cs →
    ∃ t, exec (.mcStart m) s = .next t ∧ s.Only t [.relx, .mch, .scheds, .out] ∧
      t.sched? m.sched = some { x with
        started := true, stopping := false, reply := m.reply, base := (m.launch : Int) - c.launch, shift := 0, committed := [] }) ∧
  (∀ (s : State) (m : McCmd) (d : Nat), s.admission m.sender = some d →
    exec (.mcStart m) s = .next (s.mcReply m 2 .nakFenced d m.sched)) ∧
  (∀ (s : State) (m : McCmd), s.admission m.sender = none → s.sched? m.sched = none →
    exec (.mcStart m) s = .next (s.mcReply m 2 .nakStale 3 m.sched)) ∧
  (∀ (s : State) (m : McCmd) (x : SchedSt), s.admission m.sender = none → s.sched? m.sched = some x →
    s.busySched m.sched = true → exec (.mcStart m) s = .next (s.mcReply m 2 .nakStale 4 m.sched)) ∧
  (∀ (s : State) (m : McCmd) (x : SchedSt), s.mayCommand m.sender = true → s.sched? m.sched = some x → s.retryDue m.sched = false →
    ∃ t, exec (.mcStop m) s = .next t ∧ s.Only t [.relx, .mch, .scheds, .out] ∧
      t.sched? m.sched = some { x with stopping := true }) ∧
  (∀ (s : State) (m : McCmd) (x : SchedSt), s.mayCommand m.sender = true → s.sched? m.sched = some x →
    ∃ t, exec (.mcStop m) s = .next t ∧ s.Only t [.rel, .relx, .mch, .scheds, .out] ∧
      ∀ r ∈ t.relx.retries, r.sched = m.sched → r.armed = true) ∧
  (∀ (s : State) (m : McCmd) (x : SchedSt), s.mayCommand m.sender = true → s.sched? m.sched = some x →
    s.busySched m.sched = false → x.inPass = false → s.retryDue m.sched = false →
    ∃ t, exec (.mcUnload m) s = .next t ∧ s.Only t [.fret, .sec, .mch, .spn, .tasks, .scheds, .out] ∧ t.sched? m.sched = none ∧
      (∀ k, k ≠ m.sched.toNat → Tab.find t.scheds k = Tab.find s.scheds k) ∧
      t.tasks = s.tasks.filter fun e => decide (e.2.sched ≠ m.sched)) ∧
  (∀ (s : State) (m : McCmd) (x : SchedSt), s.mayCommand m.sender = true → s.sched? m.sched = some x →
    (s.busySched m.sched = true ∨ x.inPass = true ∨ s.retryDue m.sched = true) →
    exec (.mcUnload m) s = .next (s.mcReply m 4 .nakStale 4 m.sched)) ∧
  (∀ (s : State) (m : McCmd), s.mayCommand m.sender = true → s.sched? m.sched = none →
    exec (.mcStop m) s = .next (s.mcReply m 3 .nakStale 3 m.sched) ∧
    exec (.mcUnload m) s = .next (s.mcReply m 4 .nakStale 3 m.sched)) ∧
  (∀ (s : State) (m : McCmd), s.mayCommand m.sender = false →
    exec (.mcStop m) s = .next (s.mcReply m 3 .nakFenced 1 m.sched) ∧
    exec (.mcUnload m) s = .next (s.mcReply m 4 .nakFenced 1 m.sched) ∧
    ∀ op, exec (.mcReservedOpcode m op) s = .next (s.mcReply m op.toNat .nakFenced 1 m.sched)) ∧
  (∀ (s : State) (m : McCmd) (op : BitVec 8), s.mayCommand m.sender = true →
    exec (.mcReservedOpcode m op) s = .next (s.mcReply m op.toNat .nakStale 5 m.sched)) ∧
  (∀ (s : State) (m : McCmd) (op : Nat) (st : Status) (d : Nat) (n : BitVec 32), s.Only (s.mcReply m op st d n) [.mch, .out])

/-- Management commands, from 09 R508 to R513, 10 R555, 12 R590, R593, R594, 13 R647, 14 R663, R680, R684, 15 R706 and 16 R729: one that is
executed has its effect; a core reset of a chip that was never ready is a system reset, a HALTED chip takes no core reset, and a reset
while one of its level or a higher one is in progress starts none; on a port that is not up, and in FINAL, a command does nothing; a
datagram that fails its checks is counted; a repeat is answered 0x01; a command of a code outside the table, and a write of another
length, are answered 0x03; one whose sequence number cannot be written is answered 0x04; a link comes up from BU3 on a port that is
enabled, goes down, and a port answers at its own address. -/
def Obligations.ManagementCommandsTakeEffect : Prop :=
  (∀ (s : State) (d : Datagram), s.takesCommand d 1 = true → s.resetLevel = none →
    ∃ t, exec (.mgmtSystemReset d) s = .next t ∧ s.AllAborted t ∧
      s.Only t [.flash, .top, .rstc, .ids, .sec, .chest, .mgt, .tasks, .out] ∧
      ∃ o, t.rstc.orderly = some o ∧ o.level = .system ∧ o.src = mgmtSource d.port ∧ o.asked = s.now) ∧
  (∀ (s : State) (d : Datagram), s.takesCommand d 1 = true → s.resetLevel = none → s.rstc.everReady = true →
    s.bist.state ≠ 2 →
    ∃ t, exec (.mgmtCoreReset d) s = .next t ∧ s.AllAborted t ∧
      s.Only t [.flash, .top, .rstc, .ids, .sec, .chest, .mgt, .tasks, .out] ∧
      ∃ o, t.rstc.orderly = some o ∧ o.level = .core ∧ o.src = mgmtSource d.port ∧ o.asked = s.now) ∧
  (∀ (s : State) (d : Datagram), s.takesCommand d 1 = true → s.resetLevel = none → s.rstc.everReady = false →
    ∃ t, exec (.mgmtCoreReset d) s = .next t ∧ s.AllAborted t ∧
      s.Only t [.flash, .top, .rstc, .ids, .sec, .chest, .mgt, .tasks, .out] ∧
      ∃ o, t.rstc.orderly = some o ∧ o.level = .system ∧ o.promoted = true ∧ o.src = mgmtSource d.port) ∧
  (∀ (s : State) (d : Datagram), s.takesCommand d 1 = true → s.rstc.everReady = true → s.bist.state = 2 →
    s.NextOnly (exec (.mgmtCoreReset d) s) [.flash, .ids, .sec, .mgt]) ∧
  (∀ (s : State) (d : Datagram) (l : Level), s.takesCommand d 1 = true → s.resetLevel = some l → Level.system.rank ≤ l.rank →
    s.rstc.orderly = none →
    ∃ t, exec (.mgmtSystemReset d) s = .next t ∧ s.Only t [.flash, .top, .rstc, .ids, .sec, .chest, .mgt, .out] ∧
      t.rstc.inReset = s.rstc.inReset ∧ t.rstc.orderly = none) ∧
  (∀ (s : State) (d : Datagram), s.takesCommand d 1 = true → d.body.getD 0 0 = 1 →
    ∃ t, exec (.mgmtAssignOwner d) s = .next t ∧ s.Only t [.flash, .top, .ids, .sec, .chest, .mgt, .out] ∧
      t.top.owner = .a) ∧
  (∀ (s : State) (d : Datagram), s.takesCommand d 1 = true →
    ∃ t, exec (.mgmtSetBudget d) s = .next t ∧ s.Only t [.flash, .top, .pwr, .fret, .ids, .sec, .chest, .mgt, .out] ∧
      t.pwr.mgmt = BitVec.ofNat 16 (leAt d.body 0 2)) ∧
  (∀ (s : State) (d : Datagram), s.takesCommand d 1 = true →
    ∃ t, exec (.mgmtChestClear d) s = .next t ∧ s.Only t [.flash, .top, .ids, .sec, .chest, .mgt, .out] ∧
      t.chest.clears = s.chest.clears + 1 ∧ (bit (d.body.getD 0 0) 0 = true → t.chest.keep = [] ∧ t.chest.closed = false)) ∧
  (∀ (s : State) (d : Datagram), s.takesCommand d 1 = true → s.sec.lc = .ret →
    ∃ t, exec (.mgmtClearRetire d) s = .next t ∧ s.Only t [.flash, .top, .ids, .sec, .relx, .chest, .mgt, .out] ∧
      t.relx = { s.relx with retFlag := false, retState := .none, retCause := 0 }) ∧
  (∀ (s : State) (d : Datagram), s.takesCommand d 1 = true → s.sec.lc ≠ .ret →
    exec (.mgmtClearRetire d) s = .next (s.replyMgmt d 0x06 2 noBytes)) ∧
  (∀ (s : State) (d : Datagram), s.takesCommand d 2 = true →
    ∃ t, exec (.mgmtQuote d) s = .next t ∧ s.Only t [.flash, .ids, .sec, .mgt] ∧
      t.sec.quoteSeq = s.sec.quoteSeq + 1) ∧
  (∀ (s : State) (d : Datagram), s.takesCommand d 1 = true → d.body.length = 8 → leAt d.body 0 4 = 0x50010 →
    s.passed 2 = true →
    ∃ t, exec (.mgmtWriteReg d) s = .next t ∧ s.Only t [.flash, .top, .fret, .ids, .sec, .chest, .mgt, .out] ∧ t.fret = { s.fret with
      horizon := (BitVec.ofNat 32 (leAt d.body 4 4)).extractLsb' 17 12
      children := (BitVec.ofNat 32 (leAt d.body 4 4)).setWidth 17 }) ∧
  (∀ (s : State) (d : Datagram), s.takesCommand d 1 = true → d.body.length ≠ 8 →
    exec (.mgmtWriteReg d) s = .next (s.replyMgmt d 0x08 3 noBytes)) ∧
  (∀ (s : State) (d : Datagram) (code : BitVec 8), code = 0 ∨ 8 < code.toNat → s.takesCommand d 1 = true →
    ∃ t, exec (.mgmtUnknownCommand d code) s = .next t ∧ s.Only t [.flash, .ids, .mgt] ∧
      t = s.replyMgmt d code 3 noBytes) ∧
  (∀ (s : State) (d : Datagram), s.flash.seqOk = false →
    (s.mgmtPort d.port).up = true → s.sec.lc ≠ .final → s.rejects d = false → s.isRepeat d = false →
    exec (.mgmtSetBudget d) s = .next (s.replyMgmt d 0x04 4 noBytes)) ∧
  (∀ (s : State) (d : Datagram), s.takesCommand d 1 = true → d.body.getD 0 0 = 0 →
    ∃ t, exec (.mgmtAssignOwner d) s = .next t ∧ s.Only t [.flash, .top, .ids, .sec, .chest, .mgt, .out] ∧
      t.top.owner = .none) ∧
  (∀ (s : State) (d : Datagram), s.takesCommand d 1 = true → d.body.getD 0 0 = 2 →
    ∃ t, exec (.mgmtAssignOwner d) s = .next t ∧ s.Only t [.flash, .top, .ids, .sec, .chest, .mgt, .out] ∧
      t.top.owner = .b) ∧
  (∀ (s : State) (d : Datagram) (i : Instr), i ∈ [Instr.mgmtSystemReset d, .mgmtCoreReset d, .mgmtAssignOwner d,
      .mgmtSetBudget d, .mgmtChestClear d, .mgmtClearRetire d, .mgmtQuote d, .mgmtWriteReg d, .mgmtUnknownCommand d 9] →
    (((s.mgmtPort d.port).up = false ∨ s.sec.lc = .final) → exec i s = .next s) ∧
    ((s.mgmtPort d.port).up = true → s.sec.lc ≠ .final → s.rejects d = true →
      exec i s = .next (s.updMgmtPort d.port fun r => { r with rejected := satAdd r.rejected 1 }))) ∧
  (∀ (s : State) (d : Datagram) (p : Instr × BitVec 8), p ∈ [(Instr.mgmtSystemReset d, (0x01 : BitVec 8)),
      (.mgmtCoreReset d, 0x02), (.mgmtAssignOwner d, 0x03), (.mgmtSetBudget d, 0x04), (.mgmtChestClear d, 0x05),
      (.mgmtClearRetire d, 0x06), (.mgmtQuote d, 0x07), (.mgmtWriteReg d, 0x08), (.mgmtUnknownCommand d 9, 9)] →
    (s.mgmtPort d.port).up = true → s.sec.lc ≠ .final → s.rejects d = false → s.isRepeat d = true →
    s.ids.queue.length + 2 ≤ 16 → exec p.1 s = .next (s.replyMgmt d p.2 1 noBytes)) ∧
  (∀ (s : State) (d : Datagram) (code : BitVec 8), 1 ≤ code.toNat → code.toNat ≤ 8 →
    exec (.mgmtUnknownCommand d code) s = .next s) ∧
  (∀ (s : State) (p : MgmtPort), s.passed 3 = true → s.mgt.enable p = true →
    exec (.mgtPortLinkUp p) s = .next (s.updMgmtPort p fun r =>
      { r with up := true, ipUsed := r.ip, enUsed := true, modeUsed := s.mgt.mode p, udpUsed := s.mgt.udp })) ∧
  (∀ (s : State) (p : MgmtPort), exec (.mgtPortLinkDown p) s = .next (s.updMgmtPort p fun r => { r with up := false })) ∧
  (∀ (s : State) (p : MgmtPort) (body : List Byte), (s.mgmtPort p).up = true →
    exec (.mgtNdEcho p (s.mgmtPort p).ipUsed true body) s = .next { s with out := .neighbour p body :: s.out } ∧
    exec (.mgtNdEcho p (s.mgmtPort p).ipUsed false body) s =
      .next { s with out := .neighbour p (leBytes 16 (s.mgmtPort p).ipUsed.toNat) :: s.out }) ∧
  (∀ (s : State) (p : MgmtPort) (dst : BitVec 128) (echo : Bool) (body : List Byte),
    (s.mgmtPort p).up = false ∨ dst ≠ (s.mgmtPort p).ipUsed → exec (.mgtNdEcho p dst echo body) s = .next s) ∧
  (∀ (s : State) (p : MgmtPort), s.passed 3 = false ∨ s.mgt.enable p = false → exec (.mgtPortLinkUp p) s = .next s)

/-- Faults and their verdicts, from 10 R520, R522, R531 to R536, R551 to R554: a transit count that is old enough is cleared, and one
that is younger or not held is not; an arbiter that is free takes its cluster's next capture; each row of the conclusions' table counts
and ends the arbitration as it says, and fences the tile or the bench tile that it names; a reference that disagrees is tried again, and
the second time retires the chip; a retirement cause drains a chip that is ready, retires one that is not, and while a retirement is
under way is only recorded; with no task left the chip is RETIRED; a lockstep failure sets the retire flag and resets the system at
once; what a tile's checks report is counted, and an error that R520 or R531 names aborts the task. -/
def Obligations.FaultsAreJudged : Prop :=
  (∀ (s : State) (unit : Nat) (x : TransitSt), Tab.find s.relx.transit unit = some x → x.last + 2 ^ 32 ≤ s.ticks →
    exec (.parityCountDecay unit) s = .next { s with relx := { s.relx with transit := Tab.del s.relx.transit unit } }) ∧
  (∀ (s : State) (unit : Nat), (∀ x, Tab.find s.relx.transit unit = some x → s.ticks < x.last + 2 ^ 32) →
    exec (.parityCountDecay unit) s = .next s) ∧
  (∀ (s : State) (c : Clus), (s.relx.arbs.any fun a => decide (a.clus = c.val)) = true ∨ s.captured c = [] →
    exec (.arbitrationStart c) s = .next s) ∧
  (∀ (s : State) (c : Clus) (rs : List Replay), (s.relx.arbs.find? fun a => decide (a.clus = c.val)) = none →
    exec (.arbitrationDone c rs) s = .next s) ∧
  (∀ (s : State) (c : Clus) (pt : Nat) (pts : List Nat), (s.relx.arbs.any fun a => decide (a.clus = c.val)) = false →
    s.captured c = pt :: pts →
    ∃ t, exec (.arbitrationStart c) s = .next t ∧ s.Only t [.rel, .relx, .tiles] ∧
      t.relx.arbs = s.relx.arbs ++ [⟨c, pt, s.benchTile c, false⟩] ∧
      (t.tile pt).mode = (if (s.tile pt).mode = .fenced then .fenced else .test)) ∧
  (∀ (s : State) (c : Clus) (a : ArbSt) (rs : List Replay), (s.relx.arbs.find? fun a => decide (a.clus = c.val)) = some a →
    arbRow rs = 5 →
    ∃ t, exec (.arbitrationDone c rs) s = .next t ∧ s.Only t [.rel, .relx, .chest, .mch, .tiles, .out] ∧
      (t.tile a.pt).capture = none ∧ t.rel.transient = satAdd s.rel.transient 1 ∧
      t.relx.arbs = s.relx.arbs.filter fun x => decide (x.pt ≠ a.pt)) ∧
  (∀ (s : State) (c : Clus) (a : ArbSt) (rs : List Replay), (s.relx.arbs.find? fun a => decide (a.clus = c.val)) = some a →
    arbRow rs = 2 ∨ arbRow rs = 3 → (s.role a.pt).role ≠ .fenced → s.partMode (ptPart a.pt) ≠ .reset →
    ∃ t, exec (.arbitrationDone c rs) s = .next t ∧
      s.Only t [.flash, .top, .bist, .heal, .healx, .rel, .relx, .chest, .mch, .tiles, .out] ∧
      (arbRow rs = 2 → t.rel.datapath = satAdd s.rel.datapath 1 ∧ t.rel.checker = s.rel.checker) ∧
      (arbRow rs = 3 → t.rel.checker = satAdd s.rel.checker 1 ∧ t.rel.datapath = s.rel.datapath) ∧ (t.tile a.pt).mode = .fenced ∧ (t.tile a.pt).capture = none ∧
      (t.role a.pt).role = .fenced) ∧
  (∀ (s : State) (c : Clus) (a : ArbSt) (rs : List Replay), (s.relx.arbs.find? fun a => decide (a.clus = c.val)) = some a →
    arbRow rs = 1 → a.repeated = false →
    ∃ t, exec (.arbitrationDone c rs) s = .next t ∧ s.Only t [.rel, .relx, .chest] ∧
      t.rel.refDis = satAdd s.rel.refDis 1 ∧
      t.relx.arbs = s.relx.arbs.map fun x => if x.clus = c.val then { x with repeated := true } else x) ∧
  (∀ (s : State) (c : Clus) (a : ArbSt) (rs : List Replay), (s.relx.arbs.find? fun a => decide (a.clus = c.val)) = some a →
    arbRow rs = 1 → a.repeated = true → s.relx.retState = .none → s.healx.retireWait = none → s.top.ready = true →
    s.bist.state = 0 → s.recovering = false →
    ∃ t, exec (.arbitrationDone c rs) s = .next t ∧ s.Only t [.rel, .relx, .chest, .mch, .tiles, .out] ∧
      t.rel.refDis = satAdd s.rel.refDis 1 ∧ t.relx.retState = .draining ∧ t.relx.retCause = 4 ∧
      (t.tile a.pt).capture = none) ∧
  (∀ (s : State) (c : Clus) (a : ArbSt) (b : Nat) (rs : List Replay),
    (s.relx.arbs.find? fun a => decide (a.clus = c.val)) = some a → arbRow rs = 4 → a.bench = some b →
    (s.role b).role ≠ .fenced → s.partMode (ptPart b) ≠ .reset →
    ∃ t, exec (.arbitrationDone c rs) s = .next t ∧
      s.Only t [.flash, .top, .bist, .heal, .healx, .rel, .relx, .chest, .mch, .tiles, .out] ∧
      t.rel.bench = satAdd s.rel.bench 1 ∧ t.rel.transient = satAdd s.rel.transient 1 ∧ (t.role b).role = .fenced ∧
      (t.tile b).mode = .fenced ∧ (t.tile a.pt).capture = none) ∧
  (∀ (s : State) (cause : BitVec 4), cause = 0 ∨ cause = 5 ∨ 7 < cause.toNat → exec (.retireStart cause) s = .next s) ∧
  (∀ (s : State) (cause : BitVec 4), cause ≠ 0 → cause ≠ 5 → cause.toNat ≤ 7 →
    s.relx.retState ≠ .none ∨ s.healx.retireWait.isSome = true →
    s.NextOnly (exec (.retireStart cause) s) [.bist, .chest]) ∧
  (∀ (s : State), s.relx.retState ≠ .draining ∨ s.anyTask = true → exec .retireComplete s = .next s) ∧
  (∀ (s : State) (cause : BitVec 4), cause ≠ 0 → cause ≠ 5 → cause.toNat ≤ 7 → s.relx.retState = .none →
    s.healx.retireWait = none → s.top.ready = true → s.bist.state = 0 → s.recovering = false →
    ∃ t, exec (.retireStart cause) s = .next t ∧ s.Only t [.relx, .chest] ∧
      t.relx = { s.relx with retState := .draining, retCause := cause }) ∧
  (∀ (s : State) (cause : BitVec 4), cause ≠ 0 → cause ≠ 5 → cause.toNat ≤ 7 → s.relx.retState = .none →
    s.healx.retireWait = none → s.top.ready = false →
    ∃ t, exec (.retireStart cause) s = .next t ∧ s.Only t [.flash, .top, .bist, .relx, .chest, .out] ∧
      t.relx.retState = .retired ∧ t.relx.retFlag = true ∧ t.relx.retCause = cause ∧ t.flash.retFlag = true) ∧
  (∀ (s : State), s.relx.retState = .draining → s.anyTask = false →
    ∃ t, exec .retireComplete s = .next t ∧ s.Only t [.flash, .top, .relx, .chest, .mch, .out] ∧
      t.relx.retState = .retired ∧ t.relx.retFlag = true ∧ t.relx.retCause = s.relx.retCause ∧ t.flash.retFlag = true) ∧
  (∀ (s : State) (pc0 pc1 : Word), s.resetLevel = none → s.relx.retState = .none →
    ∃ t, exec (.mcLockstepFail pc0 pc1) s = .next t ∧ s.Keeps t [.fuse, .tap, .ticks, .free, .pending] ∧ t.rstc.inReset = some .system ∧ t.rstc.src = 6 ∧
      t.relx.retFlag = true ∧ t.relx.retCause = 5 ∧ t.flash.retFlag = true) ∧
  (∀ (s : State) (pc0 pc1 : Word), s.rstc.inReset = some .por → exec (.mcLockstepFail pc0 pc1) s = .next s) ∧
  (∀ (s : State) (pt : Nat) (task : BitVec 32) (fold : Nat) (rt : FoldRt) (f : TileFault) (x : TaskRt),
    Tab.find s.tasks task.toNat = some x → x.phase = .running →
    (f = .macPass ∨ f = .hammingPass ∨ f = .fp32 ∨ f = .duplicated →
      (s.tileFault pt task fold rt f).rel = { s.rel with residue := satAdd s.rel.residue 1 } ∧
      ((s.tileFault pt task fold rt f).tile pt).capture.isSome = true ∧
      ((s.tileFault pt task fold rt f).task task).abort.isSome = true) ∧
    (f = .parityUse →
      (s.tileFault pt task fold rt f).rel = { s.rel with parity := satAdd s.rel.parity 1 } ∧
      ((s.tileFault pt task fold rt f).task task).abort.isSome = true) ∧
    (∀ w, f = .sramCorrected w →
      (s.tileFault pt task fold rt f).rel = { s.rel with sramCe := s.rel.sramCe + 1 } ∧
      (s.tileFault pt task fold rt f).tasks = s.tasks) ∧
    (∀ w, f = .sramDouble w → (s.tile pt).ueValid = false →
      (s.tileFault pt task fold rt f).rel.ueSram = satAdd s.rel.ueSram 1 ∧
      ((s.tileFault pt task fold rt f).tile pt).ueWord = w ∧
      ((s.tileFault pt task fold rt f).task task).abort.isSome = true))

/-- Weight digests, from 10 R544 to R549: a round makes the enabled regions of its half due; a pass that is due reads the whole region;
in LEARN it learns the digest, and the region is GOOD with no twin, or BAD where the host's reference differs; in GOOD one that differs
rechecks; in RECHECK one that agrees is GOOD again, and one that differs is BAD; a pass that is not due, or of a region that is OFF,
does nothing; enable, disable and verify act on the region selected; the configuration takes an interval that its rate allows, and
sets cfg_err at another; the twin's digest makes a learned region GOOD or BAD and a GOOD one DIVERGED, and changes no other. -/
def Obligations.DigestRegionsAreChecked : Prop :=
  (∀ (s : State) (h : Half), exec (.digestRoundStart h) s = .next { s with relx := { s.relx with
    digs := s.relx.digs.map fun e =>
      if e.2.state ≠ .off ∧ partHalf (partOf e.2.base) = h then (e.1, { e.2 with due := true }) else e } }) ∧
  (∀ (s : State) (n : Fin 256) (errs : List (Nat × BitErr)), (s.dig n).due = true → (s.dig n).state = .learn → (s.dig n).hostRef = false →
    s.relx.twinEn = false →
    ∃ t, exec (.digestPassDone ⟨n, errs⟩) s = .next t ∧
      s.Only t [.flash, .top, .bist, .healx, .rel, .relx, .chest, .mch, .hbm, .parts, .out] ∧ (t.dig n).state = .good ∧ (t.dig n).due = false ∧
      (t.dig n).last = shake32 (s.hbmBytes (s.dig n).base (s.dig n).bytes) ∧ (t.dig n).ref = (t.dig n).last ∧
      (t.dig n).passes = (s.dig n).passes + 1) ∧
  (∀ (s : State) (n : Fin 256) (errs : List (Nat × BitErr)), (s.dig n).due = true → (s.dig n).state = .good →
    shake32 (s.hbmBytes (s.dig n).base (s.dig n).bytes) ≠ (s.dig n).ref →
    ∃ t, exec (.digestPassDone ⟨n, errs⟩) s = .next t ∧
      s.Only t [.flash, .top, .bist, .healx, .rel, .relx, .chest, .mch, .hbm, .parts, .out] ∧ (t.dig n).state = .recheck ∧ (t.dig n).due = true) ∧
  (∀ (s : State) (n : Fin 256) (errs : List (Nat × BitErr)), (s.dig n).due = true → (s.dig n).state = .recheck →
    shake32 (s.hbmBytes (s.dig n).base (s.dig n).bytes) = (s.dig n).ref →
    ∃ t, exec (.digestPassDone ⟨n, errs⟩) s = .next t ∧
      s.Only t [.flash, .top, .bist, .healx, .rel, .relx, .chest, .mch, .hbm, .parts, .out] ∧ (t.dig n).state = .good ∧ (t.dig n).due = false ∧
      t.relx.digTransient = satAdd s.relx.digTransient 1) ∧
  (∀ (s : State) (n : Fin 256) (errs : List (Nat × BitErr)), (s.dig n).due = false ∨ (s.dig n).state = .off →
    exec (.digestPassDone ⟨n, errs⟩) s = .next s) ∧
  (∀ (s : State) (n : Fin 256) (errs : List (Nat × BitErr)), (s.dig n).due = true → (s.dig n).state = .learn →
    (s.dig n).hostRef = true → shake32 (s.hbmBytes (s.dig n).base (s.dig n).bytes) ≠ (s.dig n).ref →
    ∃ t, exec (.digestPassDone ⟨n, errs⟩) s = .next t ∧ s.Only t [.flash, .top, .bist, .healx, .rel, .relx, .chest, .mch, .hbm, .parts, .out] ∧
      (t.dig n).state = .bad ∧ (t.dig n).badCause = 1 ∧ (t.dig n).due = false) ∧
  (∀ (s : State) (n : Fin 256) (errs : List (Nat × BitErr)), (s.dig n).due = true → (s.dig n).state = .good →
    shake32 (s.hbmBytes (s.dig n).base (s.dig n).bytes) = (s.dig n).ref →
    ∃ t, exec (.digestPassDone ⟨n, errs⟩) s = .next t ∧ s.Only t [.flash, .top, .bist, .healx, .rel, .relx, .chest, .mch, .hbm, .parts, .out] ∧
      (t.dig n).state = .good ∧ (t.dig n).due = false ∧ (t.dig n).passes = (s.dig n).passes + 1) ∧
  (∀ (s : State) (n : Fin 256) (errs : List (Nat × BitErr)), (s.dig n).due = true → (s.dig n).state = .recheck →
    shake32 (s.hbmBytes (s.dig n).base (s.dig n).bytes) ≠ (s.dig n).ref →
    ∃ t, exec (.digestPassDone ⟨n, errs⟩) s = .next t ∧ s.Only t [.flash, .top, .bist, .healx, .rel, .relx, .chest, .mch, .hbm, .parts, .out] ∧
      (t.dig n).state = .bad ∧ (t.dig n).due = false) ∧
  (∀ (s : State) (acc : Accessor) (v : Word), s.mayWrite acc = false → s.passed 0 = true →
    exec (.digestEnable acc v) s = .next { s with top := { s.top with denied := satAdd s.top.denied 1 } } ∧
    exec (.digestDisable acc v) s = .next { s with top := { s.top with denied := satAdd s.top.denied 1 } } ∧
    exec (.digestVerify acc v) s = .next { s with top := { s.top with denied := satAdd s.top.denied 1 } } ∧
    exec (.digestCfgWrite acc v) s = .next { s with top := { s.top with denied := satAdd s.top.denied 1 } }) ∧
  (∀ (s : State) (acc : Accessor) (v : Word), s.mayWrite acc = true → s.passed 0 = true →
    (s.dig (s.relx.digSel.get acc).toNat).state ≠ .off →
    exec (.digestEnable acc v) s = .next s ∧
    ((s.dig (s.relx.digSel.get acc).toNat).state ≠ .good → exec (.digestVerify acc v) s = .next s)) ∧
  (∀ (s : State) (acc : Accessor) (v : Word), s.mayWrite acc = true → s.passed 0 = true →
    (s.dig (s.relx.digSel.get acc).toNat).state = .off →
    exec (.digestDisable acc v) s = .next (s.updDig (s.relx.digSel.get acc).toNat fun d =>
      { d with hostRef := bit v 29, state := .off, due := false })) ∧
  (∀ (s : State) (acc : Accessor) (v : Word), s.mayWrite acc = true → s.passed 0 = true →
    (rateOk (s.digBytes .west) (intervalSecs (v.extractLsb' 0 12)) = false ∨
      rateOk (s.digBytes .east) (intervalSecs (v.extractLsb' 0 12)) = false) →
    ∃ t, exec (.digestCfgWrite acc v) s = .next t ∧ s.Only t [.relx] ∧ t.relx.cfgErr = true ∧
      t.relx.interval = s.relx.interval) ∧
  (∀ (s : State) (m : DigestMsg), s.relx.twinEn = false ∨ ((s.dig m.region.toNat).state ≠ .learn ∧
      (s.dig m.region.toNat).state ≠ .good) → exec (.digestMessageReceive m) s = .next s) ∧
  (∀ (s : State) (m : DigestMsg), s.relx.twinEn = true → (s.dig m.region.toNat).state = .good →
    (m.state ≠ 2 ∨ m.d = (s.dig m.region.toNat).last) → exec (.digestMessageReceive m) s = .next s) ∧
  (∀ (s : State) (m : DigestMsg), s.relx.twinEn = true → (s.dig m.region.toNat).state = .learn → m.state = 2 →
    (s.dig m.region.toNat).learned = true → m.d ≠ (s.dig m.region.toNat).last →
    ∃ t, exec (.digestMessageReceive m) s = .next t ∧ s.Only t [.top, .relx, .chest, .out] ∧
      (t.dig m.region.toNat).state = .bad ∧ (t.dig m.region.toNat).badCause = 2) ∧
  (∀ (s : State) (acc : Accessor) (v : Word), s.mayWrite acc = true → s.passed 0 = true →
    (s.dig (s.relx.digSel.get acc).toNat).state = .off → (s.dig (s.relx.digSel.get acc).toNat).ok = true →
    rateOk ((s.updDig (s.relx.digSel.get acc).toNat fun d => { d with hostRef := bit v 29 }).digBytes
      (partHalf (partOf (s.dig (s.relx.digSel.get acc).toNat).base)) + (s.dig (s.relx.digSel.get acc).toNat).bytes) (intervalSecs s.relx.interval) = true →
    ∃ t, exec (.digestEnable acc v) s = .next t ∧ s.Only t [.relx] ∧
      t.dig (s.relx.digSel.get acc).toNat = { s.dig (s.relx.digSel.get acc).toNat with
        hostRef := bit v 29, state := .learn, badCause := 0, passes := 0, count := 0, chunks := 0, tags := []
        learned := false, peer := none }) ∧
  (∀ (s : State) (acc : Accessor) (v : Word), s.mayWrite acc = true → s.passed 0 = true →
    (s.dig (s.relx.digSel.get acc).toNat).state ≠ .off →
    exec (.digestDisable acc v) s = .next (s.updDig (s.relx.digSel.get acc).toNat fun d =>
      { d with state := .off, due := false })) ∧
  (∀ (s : State) (acc : Accessor) (v : Word), s.mayWrite acc = true → s.passed 0 = true →
    (s.dig (s.relx.digSel.get acc).toNat).state = .good →
    ∃ t, exec (.digestVerify acc v) s = .next t ∧ s.Only t [.relx, .chest] ∧
      t.dig (s.relx.digSel.get acc).toNat =
        { s.dig (s.relx.digSel.get acc).toNat with state := .recheck, due := true }) ∧
  (∀ (s : State) (acc : Accessor) (v : Word), s.mayWrite acc = true → s.passed 0 = true →
    rateOk (s.digBytes .west) (intervalSecs (v.extractLsb' 0 12)) = true →
    rateOk (s.digBytes .east) (intervalSecs (v.extractLsb' 0 12)) = true →
    exec (.digestCfgWrite acc v) s = .next { s with relx := { s.relx with
      twinEn := bit v 31, twinConn := v.extractLsb' 16 12, interval := v.extractLsb' 0 12
      cfgErr := s.relx.cfgErr && !bit v 30 } }) ∧
  (∀ (s : State) (m : DigestMsg), s.relx.twinEn = true → (s.dig m.region.toNat).state = .good → m.state = 2 →
    m.d ≠ (s.dig m.region.toNat).last →
    ∃ t, exec (.digestMessageReceive m) s = .next t ∧ s.Only t [.flash, .top, .bist, .healx, .relx, .chest, .out] ∧
      (t.dig m.region.toNat).state = .diverged) ∧
  (∀ (s : State) (m : DigestMsg), s.relx.twinEn = true → (s.dig m.region.toNat).state = .learn → m.state = 2 →
    (s.dig m.region.toNat).learned = true → m.d = (s.dig m.region.toNat).last →
    ∃ t, exec (.digestMessageReceive m) s = .next t ∧ s.Only t [.relx] ∧ (t.dig m.region.toNat).state = .good)

/-- Fences, rotation and tests, from 11 R558, R560 to R572, R582, R588 and 15 R693 to R696, R708, R709: a fence command acts at once, waits
where the cluster runs a task, ends at once for a tile that is fenced, or names no tile; a waiting one acts in the first fret with no task;
a rotation command marks the cluster's oldest tile and waits, or names no cluster; where rotation is enabled a mark names the oldest
tile of each cluster that has a bench tile and takes part; at a migration point the marked tile's slot moves to the bench tile, and
at no other time; a tile that passes its test is a bench tile of age 0 and one that fails is fenced, and a test that does not go on, or
of a tile that is not tested, ends nothing; a variant of a lost slot fixes its host, once; a health record holds the tiles that are
fenced. -/
def Obligations.TilesFenceRotateAndTest : Prop :=
  (∀ (s : State) (acc : Accessor) (v : Word), s.mayWrite acc = true → s.passed 1 = true →
    (v.extractLsb' 0 12 : BitVec 12).toNat < 2304 → (s.role (v.extractLsb' 0 12 : BitVec 12).toNat).role ≠ .fenced →
    s.partMode (ptPart (v.extractLsb' 0 12 : BitVec 12).toNat) ≠ .reset →
    s.clusRuns (ptClus (v.extractLsb' 0 12 : BitVec 12).toNat) = false →
    ∃ t, exec (.healFence acc v) s = .next t ∧ s.Only t [.flash, .top, .bist, .heal, .healx, .relx, .chest, .tiles, .out] ∧
      (t.role (v.extractLsb' 0 12 : BitVec 12).toNat).role = .fenced ∧
      (t.tile (v.extractLsb' 0 12 : BitVec 12).toNat).mode = .fenced ∧
      t.heal.busy = false ∧ t.heal.result = 0 ∧ t.heal.fences = satAdd s.heal.fences 1) ∧
  (∀ (s : State) (acc : Accessor) (v : Word), s.mayWrite acc = true → s.passed 1 = true →
    2304 ≤ (v.extractLsb' 0 12 : BitVec 12).toNat →
    exec (.healFence acc v) s = .next { s with heal := { s.heal with busy := false, result := 2 } }) ∧
  (∀ (s : State) (acc : Accessor) (v : Word), s.mayWrite acc = true → s.passed 1 = true →
    (v.extractLsb' 0 12 : BitVec 12).toNat < 2304 → (s.role (v.extractLsb' 0 12 : BitVec 12).toNat).role = .active →
    s.clusRuns (ptClus (v.extractLsb' 0 12 : BitVec 12).toNat) = true →
    exec (.healFence acc v) s = .next { s with
      healx := { s.healx with
        fenceWait := s.healx.fenceWait ++ [8 * 4096 + (v.extractLsb' 0 12 : BitVec 12).toNat] }
      heal := { s.heal with busy := true, result := 3 } }) ∧
  (∀ (s : State) (pt : Pt), s.healx.fenceWait.contains (8 * 4096 + pt.val) = true → s.clusRuns (ptClus pt) = false →
    s.partMode (ptPart pt) ≠ .reset → (s.role pt).role ≠ .fenced →
    ∃ t, exec (.healFenceDeferredApply pt) s = .next t ∧
      s.Only t [.flash, .top, .bist, .heal, .healx, .relx, .chest, .tiles, .out] ∧ (t.role pt).role = .fenced ∧
      (t.tile pt).mode = .fenced ∧ t.heal.busy = false ∧ t.heal.result = 0) ∧
  (∀ (s : State) (acc : Accessor) (v : Word), s.mayWrite acc = true → s.passed 1 = true →
    (v.extractLsb' 0 12 : BitVec 12).toNat < 128 →
    ∃ t, exec (.healRotate acc v) s = .next t ∧ s.Only t [.heal, .healx, .cluss] ∧ t.heal.busy = true ∧ t.heal.result = 3 ∧
      t.healx.rotateWait = s.healx.rotateWait ++ [(v.extractLsb' 0 12 : BitVec 12).toNat]) ∧
  (∀ (s : State), s.heal.rotEn = true →
    ∃ t, exec .rotationMark s = .next t ∧ s.Only t [.healx, .cluss] ∧
      ∀ c < 128, s.hasBench c = true → s.partMode (clusPart c) ≠ .reset → s.parked (clusPart c) = false →
        s.waking (clusPart c) = false → (t.clus c).rotMark = (s.oldest c).map ptIdx) ∧
  (∀ (s : State) (c : Clus) (i j k : Nat), (s.clus c).rotMark = some i → s.spareTile c = some j → s.hasBench c = true →
    s.clusRuns c = false → s.atMigration c = true → s.wantsSpare c = false → s.partMode (clusPart c) ≠ .reset →
    s.slotOf (18 * c.val + i) = some k → j ≠ 18 * c.val + s.remapIdx c k →
    ∃ t, exec (.rotationApply c) s = .next t ∧
      s.Only t [.flash, .top, .bist, .heal, .healx, .rel, .relx, .chest, .mch, .cluss, .tiles, .out, .free] ∧
      (t.clus c).rotMark = none ∧ (t.clus c).remap = listUpd (s.clus c).remap k (fun _ => BitVec.ofNat 5 (ptIdx j)) ∧
      (t.role j).role = .active) ∧
  (∀ (s : State) (pt : Pt), (s.role pt).role = .testing → s.testGoes pt = true →
    (s.relx.arbs.any fun a => decide (a.bench = some pt.val)) = false →
    ∃ t, exec (.infieldTestDone pt none) s = .next t ∧ s.Only t [.bist, .tiles, .healx] ∧
      t.role pt = { s.role pt with role := .bench, age := some 0 } ∧ (t.tile pt).mode = .idle ∧
      t.bist.passed = satAdd s.bist.passed 1) ∧
  (∀ (s : State) (pt : Pt) (u : BitVec 4), (s.role pt).role = .testing →
    (s.relx.arbs.any fun a => decide (a.bench = some pt.val)) = false → s.testGoes pt = true →
    ∃ t, exec (.infieldTestDone pt (some u)) s = .next t ∧
      s.Only t [.flash, .top, .bist, .heal, .healx, .relx, .chest, .tiles, .out] ∧ (t.role pt).role = .fenced ∧
      t.bist.failed = satAdd s.bist.failed 1 ∧ t.bist.lastUnit = u) ∧
  (∀ (s : State) (c : Clus) (slot : Fin 16) (sched : BitVec 32) (x : SchedSt) (v : Variant), s.sched? sched = some x →
    s.variantFor x.image (16 * c.val + slot.val) = some v → s.ltLost (16 * c.val + slot.val) = true → s.clusRuns c = false →
    Tab.find (s.clus c).hosts slot = none →
    ∃ t, exec (.variantLoad c slot sched) s = .next t ∧ s.Only t [.top, .chest, .cluss, .tiles, .out] ∧
      Tab.find (t.clus c).hosts slot = some (BitVec.ofNat 4 (v.host % 16)) ∧
      (t.clus c).remap = listUpd (s.clus c).remap slot (fun _ => (s.clus c).remap.getD (v.host % 16) 0)) ∧
  (∀ (s : State) (c : Clus) (slot : Fin 16) (sched : BitVec 32) (x : SchedSt) (v : Variant), s.sched? sched = some x →
    s.variantFor x.image (16 * c.val + slot.val) = some v → s.ltLost (16 * c.val + slot.val) = true → s.clusRuns c = false →
    (Tab.find (s.clus c).hosts slot).isSome = true →
    ∃ t, exec (.variantLoad c slot sched) s = .next t ∧ s.Only t [.top, .chest, .cluss, .tiles, .out] ∧ t.clus c = s.clus c) ∧
  (∀ (s : State) (c : Clus) (slot : Fin 16) (sched : BitVec 32),
    (∀ x, s.sched? sched = some x → s.variantFor x.image (16 * c.val + slot.val) = none) ∨
      s.ltLost (16 * c.val + slot.val) = false ∨ s.clusRuns c = true → exec (.variantLoad c slot sched) s = .next s) ∧
  (∀ (s : State) (acc : Accessor) (v : Word), s.mayWrite acc = true → s.passed 1 = true →
    (v.extractLsb' 0 12 : BitVec 12).toNat < 2304 → (s.role (v.extractLsb' 0 12 : BitVec 12).toNat).role = .fenced →
    exec (.healFence acc v) s = .next { s with heal := { s.heal with busy := false, result := 0 } }) ∧
  (∀ (s : State) (acc : Accessor) (v : Word), s.mayWrite acc = false → s.passed 1 = true →
    exec (.healFence acc v) s = .next { s with top := { s.top with denied := satAdd s.top.denied 1 } } ∧
    exec (.healRotate acc v) s = .next { s with top := { s.top with denied := satAdd s.top.denied 1 } } ∧
    exec (.healPartitionRecovery acc v) s = .next { s with top := { s.top with denied := satAdd s.top.denied 1 } }) ∧
  (∀ (s : State) (acc : Accessor) (v : Word), s.passed 1 = false →
    exec (.healFence acc v) s = .next s ∧ exec (.healRotate acc v) s = .next s ∧
    exec (.healPartitionRecovery acc v) s = .next s) ∧
  (∀ (s : State) (pt : Pt), s.healx.fenceWait.contains (8 * 4096 + pt.val) = false ∨ s.clusRuns (ptClus pt) = true ∨
    s.partMode (ptPart pt) = .reset → exec (.healFenceDeferredApply pt) s = .next s) ∧
  (∀ (s : State) (acc : Accessor) (v : Word), s.mayWrite acc = true → s.passed 1 = true →
    128 ≤ (v.extractLsb' 0 12 : BitVec 12).toNat →
    exec (.healRotate acc v) s = .next { s with heal := { s.heal with busy := false, result := 2 } }) ∧
  (∀ (s : State), s.heal.rotEn = false → exec .rotationMark s = .next s) ∧
  (∀ (s : State) (c : Clus), (s.clus c).rotMark = none ∨ s.spareTile c = none ∨ s.hasBench c = false ∨ s.clusRuns c = true ∨
    s.atMigration c = false ∨ s.wantsSpare c = true ∨ s.partMode (clusPart c) = .reset →
    exec (.rotationApply c) s = .next s) ∧
  (∀ (s : State) (pt : Pt) (u : Option (BitVec 4)), (s.role pt).role ≠ .testing ∨ s.testGoes pt = false ∨
    (s.relx.arbs.any fun a => decide (a.bench = some pt.val)) = true → exec (.infieldTestDone pt u) s = .next s) ∧
  (∀ (s : State), ∃ t, exec .healthRecordFenceWrite s = .next t ∧ s.Only t [.flash, .bist] ∧
    ∃ h ∈ t.flash.health, h.complete = false ∧ h.serial = s.fuse.serial ∧
      h.generation = ((s.healthNow.map (·.generation)).getD 0) + 1 ∧
      h.fences = (List.range 2304).filter fun pt => decide ((s.role pt).role = .fenced))

/-- Partition recovery, from 05 R239, 10 R551 and 11 R577 to R582, R588: it takes a running partition that is powered to RESET, aborts its
tasks, forgets its predictions and puts its stacks into self-refresh; an internal error of its memory controller and a tile that does
not reach its fence in time start one; the command starts one, or is refused where the partition is parked, is not in RUN, or does not
exist; with the reset done its controllers are back with no request, and the partition verifies its regions; with all of them GOOD it
runs, and not before; a fault of the memory's interface is a retirement cause. -/
def Obligations.PartitionsRecover : Prop :=
  (∀ (s : State) (p : Part), s.partMode p = .run → s.parked p = false →
    ∃ t, exec (.prrStart p) s = .next t ∧ s.Only t [.heal, .healx, .chest, .mch, .spn, .parts, .tiles, .tasks, .out] ∧
      t.partMode p = .reset ∧ (t.part p).hbm = .selfRefresh ∧ (t.part p).lp = [] ∧ t.heal.prr = satAdd s.heal.prr 1 ∧
      ∀ n ∈ s.tasksIn p, (t.task n).abort.isSome = true) ∧
  (∀ (s : State) (p : Part), s.partMode p ≠ .run ∨ s.parked p = true → exec (.prrStart p) s = .next s) ∧
  (∀ (s : State) (pt : Pt), s.partMode (ptPart pt) = .run → s.parked (ptPart pt) = false →
    ∃ t, exec (.tileFenceTimeout pt) s = .next t ∧ s.Only t [.heal, .healx, .chest, .mch, .spn, .parts, .tiles, .tasks, .out] ∧
      t.partMode (ptPart pt) = .reset ∧ t.heal.prr = satAdd s.heal.prr 1) ∧
  (∀ (s : State) (p : Part), s.partMode p = .run → s.parked p = false →
    ∃ t, exec (.hbmControllerError p) s = .next t ∧ s.Only t [.heal, .healx, .chest, .mch, .spn, .parts, .tiles, .tasks, .out] ∧
      t.partMode p = .reset ∧ t.heal.prr = satAdd s.heal.prr 1) ∧
  (∀ (s : State) (pt : Pt) (p : Part), s.partMode p ≠ .run ∨ s.parked p = true → p.val = ptPart pt →
    exec (.tileFenceTimeout pt) s = .next s ∧ exec (.hbmControllerError p) s = .next s) ∧
  (∀ (s : State) (p : Part), s.relx.retState = .none → s.healx.retireWait = none → s.top.ready = true → s.bist.state = 0 →
    s.recovering = false →
    ∃ t, exec (.hbmPhyFault p) s = .next t ∧ s.Only t [.relx, .chest] ∧
      t.relx = { s.relx with retState := .draining, retCause := 3 }) ∧
  (∀ (s : State) (acc : Accessor) (v : Word), s.mayWrite acc = true → s.passed 1 = true →
    (v.extractLsb' 0 12 : BitVec 12).toNat < 16 → s.parked (v.extractLsb' 0 12 : BitVec 12).toNat = false →
    s.partMode (v.extractLsb' 0 12 : BitVec 12).toNat = .run →
    ∃ t, exec (.healPartitionRecovery acc v) s = .next t ∧
      s.Only t [.heal, .healx, .chest, .mch, .spn, .parts, .tiles, .tasks, .out] ∧
      t.partMode (v.extractLsb' 0 12 : BitVec 12).toNat = .reset ∧ t.heal.busy = false ∧ t.heal.result = 0 ∧
      t.heal.prr = satAdd s.heal.prr 1) ∧
  (∀ (s : State) (acc : Accessor) (v : Word), s.mayWrite acc = true → s.passed 1 = true →
    16 ≤ (v.extractLsb' 0 12 : BitVec 12).toNat →
    exec (.healPartitionRecovery acc v) s = .next { s with heal := { s.heal with busy := false, result := 2 } }) ∧
  (∀ (s : State) (acc : Accessor) (v : Word), s.mayWrite acc = true → s.passed 1 = true →
    (v.extractLsb' 0 12 : BitVec 12).toNat < 16 → (s.parked (v.extractLsb' 0 12 : BitVec 12).toNat = true ∨
      s.partMode (v.extractLsb' 0 12 : BitVec 12).toNat ≠ .run) →
    exec (.healPartitionRecovery acc v) s = .next { s with heal := { s.heal with busy := false, result := 1 } }) ∧
  (∀ (s : State) (p : Part) (us : BitVec 16), s.partMode p = .reset → s.healx.fenceWait = [] → s.healx.hangWait = [] →
    s.healx.retireWait = none → s.healx.rotDue = [] →
    ∃ t, exec (.prrResetDone p us) s = .next t ∧
      s.Keeps t [.fuse, .hbm, .pwr, .gov, .clk, .fret, .ids, .sec, .tap, .scheds, .held, .ticks, .free, .pending] ∧
      t.partMode p = .verify ∧ (t.part p).hbm = .active ∧ (t.part p).queue = [] ∧ (t.part p).started = [] ∧
      t.heal.lastPrr = us) ∧
  (∀ (s : State) (p : Part), s.partMode p = .verify → ((s.digsOf p).all fun e => decide (e.2.state = .good)) = true →
    ∃ t, exec (.prrVerified p) s = .next t ∧ s.Only t [.healx, .chest] ∧ t.partMode p = .run) ∧
  (∀ (s : State) (p : Part), s.partMode p ≠ .verify ∨ (∃ e ∈ s.digsOf p, e.2.state ≠ .good) →
    exec (.prrVerified p) s = .next s) ∧
  (∀ (s : State) (p : Part) (us : BitVec 16), s.partMode p ≠ .reset → exec (.prrResetDone p us) s = .next s)

/-- Twins, from 10 R549 and 11 R583 to R586, R588: with TW up and no twin a chip attaches as source, or as sink where no schedule is
resident, and otherwise the command only clears fail and sets the connection in NONE; the source pairs when its copy is sent; the sink
first enables the regions it was given, pairs once all of them are GOOD in MEMBER, waits while one is not, and fails where one is BAD; a
paired chip mirrors its state and takes the peer's; a take-over makes it SOLO; a detach parts a pair and fails an attach; in every other
state these messages change nothing. The bytes of the control messages are the model's choice (log entry 33). -/
def Obligations.TwinsAttachAndPart : Prop :=
  (∀ (s : State) (acc : Accessor) (v : Word), s.mayWrite acc = true → s.passed 1 = true → s.healx.twin = .none →
    s.twUp = true →
    ∃ t, exec (.twinAttachSource acc v) s = .next t ∧ s.Only t [.healx, .mch, .out] ∧ t.healx = { s.healx with
      twin := .attachSrc, twinCopy := 0, copied := false, twinConn := v.extractLsb' 0 12
      twinFail := s.healx.twinFail && !bit v 16 }) ∧
  (∀ (s : State) (acc : Accessor) (v : Word), s.mayWrite acc = true → s.passed 1 = true → s.healx.twin = .none →
    s.twUp = true → s.scheds = [] →
    ∃ t, exec (.twinAttachSink acc v) s = .next t ∧ s.Only t [.healx, .relx] ∧ t.healx = { s.healx with
      twin := .attachSink, twinCopy := 0, copied := false, twinConn := v.extractLsb' 0 12
      twinFail := s.healx.twinFail && !bit v 16 }) ∧
  (∀ (s : State) (acc : Accessor) (v : Word), s.mayWrite acc = true → s.passed 1 = true →
    (s.healx.twin = .attachSrc ∨ s.healx.twin = .attachSink) →
    exec (.twinDetach acc v) s = .next { s with healx := { s.healx with
      twin := .none, twinFail := true, attachRegions := [] } }) ∧
  (∀ (s : State) (acc : Accessor) (v : Word), s.mayWrite acc = true → s.passed 1 = true →
    (s.healx.twin = .paired ∨ s.healx.twin = .solo) →
    ∃ t, exec (.twinDetach acc v) s = .next t ∧ s.Only t [.healx, .relx, .mch, .out] ∧ t.healx.twin = .none ∧
      t.relx = { s.relx with twinEn := false }) ∧
  (∀ (s : State) (acc : Accessor) (v : Word), s.mayWrite acc = true → s.passed 1 = true →
    (s.healx.twin ≠ .none ∨ s.twUp = false) →
    exec (.twinAttachSource acc v) s = .next { s with healx := { s.healx with
      twinConn := if s.healx.twin = .none then v.extractLsb' 0 12 else s.healx.twinConn
      twinFail := s.healx.twinFail && !bit v 16 } }) ∧
  (∀ (s : State) (acc : Accessor) (v : Word), s.mayWrite acc = true → s.passed 1 = true →
    (s.healx.twin ≠ .none ∨ s.twUp = false ∨ s.scheds ≠ []) →
    exec (.twinAttachSink acc v) s = .next { s with healx := { s.healx with
      twinConn := if s.healx.twin = .none then v.extractLsb' 0 12 else s.healx.twinConn
      twinFail := s.healx.twinFail && !bit v 16 } }) ∧
  (∀ (s : State) (acc : Accessor) (v : Word), s.mayWrite acc = true → s.passed 1 = true → s.healx.twin = .none →
    exec (.twinDetach acc v) s = .next { s with healx := { s.healx with
      twinConn := v.extractLsb' 0 12, twinFail := s.healx.twinFail && !bit v 16 } }) ∧
  (∀ (s : State) (acc : Accessor) (v : Word), s.mayWrite acc = false → s.passed 1 = true →
    exec (.twinAttachSource acc v) s = .next { s with top := { s.top with denied := satAdd s.top.denied 1 } } ∧
    exec (.twinAttachSink acc v) s = .next { s with top := { s.top with denied := satAdd s.top.denied 1 } } ∧
    exec (.twinDetach acc v) s = .next { s with top := { s.top with denied := satAdd s.top.denied 1 } }) ∧
  (∀ (s : State) (mib : BitVec 32), s.healx.twin = .attachSink → s.healx.copied = false →
    ∃ t, exec (.twinCopyDone mib) s = .next t ∧ s.Only t [.healx, .relx] ∧
      t.healx = { s.healx with twinCopy := mib, copied := true }) ∧
  (∀ (s : State) (mib : BitVec 32), s.healx.twin = .attachSink → s.healx.copied = true →
    ((s.healx.attachRegions.map fun r => r.n.toNat).any fun n => decide ((s.dig n).state = .bad)) = true →
    exec (.twinCopyDone mib) s = .next { s with healx := { s.healx with
      twin := .none, twinFail := true, attachRegions := [] } }) ∧
  (∀ (s : State) (mib : BitVec 32), s.healx.twin = .attachSink → s.healx.copied = true →
    ((s.healx.attachRegions.map fun r => r.n.toNat).any fun n => decide ((s.dig n).state = .bad)) = false →
    (((s.healx.attachRegions.map fun r => r.n.toNat).all fun n => decide ((s.dig n).state = .good)) = false ∨
      s.fret.state ≠ .member) → exec (.twinCopyDone mib) s = .next s) ∧
  (∀ (s : State) (mib : BitVec 32), s.healx.twin ≠ .attachSrc → s.healx.twin ≠ .attachSink →
    exec (.twinCopyDone mib) s = .next s) ∧
  (∀ (s : State) (m : MirrorMsg), s.healx.twin ≠ .paired →
    exec .twinMirrorSend s = .next s ∧ exec (.twinMirrorReceive m) s = .next s ∧ exec .twinTakeoverReceive s = .next s) ∧
  (∀ (s : State), (s.healx.twin = .attachSrc ∨ s.healx.twin = .attachSink) →
    exec .twinDetachReceive s = .next { s with healx := { s.healx with
      twin := .none, twinFail := true, attachRegions := [] } }) ∧
  (∀ (s : State), (s.healx.twin = .none ∨ s.healx.twin = .solo) → exec .twinDetachReceive s = .next s) ∧
  (∀ (s : State) (mib : BitVec 32), s.healx.twin = .attachSrc →
    ∃ t, exec (.twinCopyDone mib) s = .next t ∧ s.Only t [.healx, .relx, .out] ∧ t.healx.twin = .paired ∧
      t.healx.twinCopy = mib ∧ t.relx = { s.relx with twinEn := true }) ∧
  (∀ (s : State) (mib : BitVec 32), s.healx.twin = .attachSink → s.healx.copied = true → s.fret.state = .member →
    ((s.healx.attachRegions.map fun r => r.n.toNat).all fun n => decide ((s.dig n).state = .good)) = true →
    ∃ t, exec (.twinCopyDone mib) s = .next t ∧ s.Only t [.healx, .relx] ∧ t.healx.twin = .paired ∧
      t.relx = { s.relx with twinEn := true }) ∧
  (∀ (s : State), s.healx.twin = .paired →
    ∃ t, exec .twinMirrorSend s = .next t ∧ s.Only t [.mch, .out] ∧ t = s.twinSend 0x20
      ([BitVec.ofNat 8 s.relx.retState.code, BitVec.ofNat 8 (min s.lostCount 255), 0] ++ leBytes 2 s.partsDown.toNat ++ [0, 0]
        ++ leBytes 4 s.healx.lastCommitted.toNat)) ∧
  (∀ (s : State) (m : MirrorMsg), s.healx.twin = .paired →
    exec (.twinMirrorReceive m) s = .next { s with healx := { s.healx with
      peerValid := true, peerRetire := m.retire, peerLost := BitVec.ofNat 2 (min m.lost 3), peerParts := m.parts
      peerTask := m.task } }) ∧
  (∀ (s : State), s.healx.twin = .paired →
    ∃ t, exec .twinTakeoverReceive s = .next t ∧ s.Only t [.top, .healx, .relx, .out] ∧
      t.healx = { s.healx with twin := .solo } ∧ t.relx = { s.relx with twinEn := false }) ∧
  (∀ (s : State), s.healx.twin = .paired →
    exec .twinDetachReceive s = .next { s with
      relx := { s.relx with twinEn := false }, healx := { s.healx with twin := .none } }) ∧
  (∀ (s : State) (rs : List AttachRegion), s.healx.twin ≠ .attachSink →
    exec (.twinAttachReceive rs) s = .next { s with healx := { s.healx with
      attachRegions := s.healx.attachRegions ++ rs } }) ∧
  (∀ (s : State) (rs : List AttachRegion), s.healx.twin = .attachSink →
    ∃ t, exec (.twinAttachReceive rs) s = .next t ∧ s.Only t [.healx, .relx] ∧
      t.healx = { s.healx with attachRegions := s.healx.attachRegions ++ rs })

/-- Resets, from 12 R589 to R595, R605, R609, R627, 15 R706 and 18 R763, R773: PWRGD low and a supply out of range assert POR, which leaves
fuses, flash and the TAP and sets the rest; a system reset by the pin or the watchdog clears the counters of frets, the tasks and the
schedules; a request with the key is an orderly one, which aborts the running tasks and is asserted at their abort frets; a core
request of a chip that was never ready is one of the system, and a HALTED chip takes none; a core reset ends the tasks and keeps the
counters of frets, the clocks, the security block and the management ports; a request without the key, or while a reset of its level or a
higher one is in progress, starts none; releases start bring-up again, but not while the pin or scan holds the reset. That a reset
source of an MC write that no signed command makes is open, and the free value that the model gives it, is the model's choice (log
entry 16), and so is the identity in the remap tables after POR until BU6 (log entry 4). -/
def Obligations.ResetsTakeTheirLevels : Prop :=
  (∀ (s : State), s.rstc.inReset ≠ some .por →
    ∃ t, exec .por s = .next t ∧ s.Keeps t [.fuse, .flash, .tap, .out, .ticks, .free, .pending] ∧
      t.rstc.inReset = some .por ∧ t.rstc.src = 1 ∧ t.rstc.level = 0 ∧ t.rstc.pwrgd = false ∧ t.chest = {} ∧ t.fret = {} ∧
      t.tiles = [] ∧ t.tasks = [] ∧ t.scheds = [] ∧ t.mch = {} ∧ t.sec.lc = s.fuse.lc ∧
      ∀ k, (t.clus k).remap = (List.range 16).map (BitVec.ofNat 5)) ∧
  (∀ (s : State), s.rstc.inReset ≠ some .por →
    ∃ t, exec .supplyMonitorTrip s = .next t ∧ s.Keeps t [.fuse, .flash, .tap, .out, .ticks, .free, .pending] ∧
      t.rstc.inReset = some .por ∧ t.rstc.src = 2 ∧ t.rstc.vinOk = false ∧ t.pwr.domains = 0) ∧
  (∀ (s : State), s.resetLevel = none →
    ∃ t, exec .sysrstNAssert s = .next t ∧ s.Keeps t [.fuse, .flash, .tap, .ticks, .free, .pending] ∧
      t.rstc.inReset = some .system ∧ t.rstc.src = 4 ∧ t.rstc.level = 1 ∧ t.rstc.sys = satAdd s.rstc.sys 1 ∧
      t.rstc.sysrstLow = true ∧ t.fret = {} ∧ t.tiles = [] ∧ t.tasks = [] ∧ t.scheds = [] ∧ t.rel = {} ∧ t.mch = {}) ∧
  (∀ (s : State), s.rstc.wdogArmed = true → s.rstc.wdogEn = true → s.resetLevel = none →
    ∃ t, exec .mcWatchdogExpire s = .next t ∧ s.Keeps t [.fuse, .flash, .tap, .ticks, .free, .pending] ∧
      t.rstc.inReset = some .system ∧ t.rstc.src = 5 ∧ t.rstc.level = 1) ∧
  (∀ (s : State) (p : HostPort) (v : Word), s.holdsToken p = true → v.extractLsb' 16 16 = (0x5253 : BitVec 16) →
    s.resetLevel = none → s.rstc.everReady = true → s.bist.state ≠ 2 →
    ∃ t, exec (.rstcReqCore p.accessor v) s = .next t ∧ s.Only t [.rstc, .tasks, .chest] ∧ s.AllAborted t ∧
      ∃ o, t.rstc.orderly = some o ∧ o.level = .core ∧ o.asked = s.now ∧ o.promoted = false ∧
        o.src = (match p with | .a => 9 | .b => 10)) ∧
  (∀ (s : State) (p : HostPort) (v : Word), s.holdsToken p = true → v.extractLsb' 16 16 = (0x5253 : BitVec 16) →
    s.resetLevel = none → s.rstc.everReady = false →
    ∃ t, exec (.rstcReqCore p.accessor v) s = .next t ∧ s.Only t [.rstc, .tasks, .chest] ∧
      ∃ o, t.rstc.orderly = some o ∧ o.level = .system ∧ o.promoted = true) ∧
  (∀ (s : State) (p : HostPort) (v : Word), s.holdsToken p = true → v.extractLsb' 16 16 = (0x5253 : BitVec 16) →
    s.resetLevel = none →
    ∃ t, exec (.rstcReqSystem p.accessor v) s = .next t ∧ s.Only t [.rstc, .tasks, .chest] ∧ s.AllAborted t ∧
      ∃ o, t.rstc.orderly = some o ∧ o.level = .system ∧ o.src = (match p with | .a => 9 | .b => 10)) ∧
  (∀ (s : State) (acc : Accessor) (v : Word), s.mayWrite acc = true → v.extractLsb' 16 16 ≠ (0x5253 : BitVec 16) →
    exec (.rstcReqSystem acc v) s = .next s ∧ exec (.rstcReqCore acc v) s = .next s) ∧
  (∀ (s : State) (o : Orderly), s.rstc.orderly = some o → o.level = .core → o.fret ≤ s.now → s.replyWaits o.src = false →
    ∃ t, exec .orderlyResetAssert s = .next t ∧
      s.Keeps t [.fuse, .pwr, .gov, .clk, .ids, .sec, .tel, .pcie, .mgt, .tap, .ticks, .free, .pending] ∧
      t.fret = { s.fret with slipCount := 0 } ∧ t.top.ready = false ∧ (∀ n, (t.task n).busy = false) ∧
      t.rstc = { s.rstc with
        src := o.src, level := 2, promoted := o.promoted, core := satAdd s.rstc.core 1, inReset := some .core
        orderly := none, blks := [] }) ∧
  (∀ (s : State) (o : Orderly), s.rstc.orderly = some o → o.level = .system → o.fret ≤ s.now →
    s.replyWaits o.src = false →
    ∃ t, exec .orderlyResetAssert s = .next t ∧ s.Keeps t [.fuse, .flash, .tap, .ticks, .free, .pending] ∧
      t.rstc.inReset = some .system ∧ t.rstc.src = o.src ∧ t.rstc.orderly = none ∧ t.fret = {} ∧ t.tasks = []) ∧
  (∀ (s : State), s.rstc.inReset = some .system → s.rstc.sysrstLow = false → s.sec.scan = .closed →
    ∃ t, exec .resetRelease s = .next t ∧ s.Only t [.rstc, .brup] ∧ t.rstc = { s.rstc with inReset := none } ∧
      t.brup.stages = s.brup.stages.set 0 .running ∧ t.brup.current = 0) ∧
  (∀ (s : State), s.rstc.inReset = some .core →
    ∃ t, exec .resetRelease s = .next t ∧ s.Only t [.rstc, .brup] ∧ t.rstc = { s.rstc with inReset := none } ∧
      t.brup.restart = true ∧ t.brup.stages = s.brup.stages.set 5 .running ∧ t.brup.current = 5) ∧
  (∀ (s : State), s.rstc.inReset = some .system → s.sec.scan = .closed →
    ∃ t, exec .sysrstNRelease s = .next t ∧ s.Only t [.rstc, .brup] ∧
      t.rstc = { s.rstc with sysrstLow := false, inReset := none } ∧
      t.brup.stages = s.brup.stages.set 0 .running) ∧
  (∀ (s : State), s.rstc.inReset ≠ some .system ∨ s.sec.scan ≠ .closed →
    exec .sysrstNRelease s = .next { s with rstc := { s.rstc with sysrstLow := false } }) ∧
  (∀ (s : State), s.rstc.inReset = none ∨ s.rstc.inReset = some .por ∨
      (s.rstc.inReset = some .system ∧ (s.rstc.sysrstLow = true ∨ s.sec.scan ≠ .closed)) →
    exec .resetRelease s = .next s) ∧
  (∀ (s : State), s.rstc.inReset = some .por →
    exec .por s = .next { s with rstc := { s.rstc with pwrgd := false, lockout := false, src := 1 } } ∧
    exec .sysrstNAssert s = .next { s with rstc := { s.rstc with sysrstLow := true } } ∧
    exec .supplyMonitorTrip s = .next { s with
      rstc := { s.rstc with vinOk := false, also := putBit s.rstc.also 2 true }, pwr := { s.pwr with domains := 0 } }) ∧
  (∀ (s : State), s.rstc.inReset = some .system → s.rstc.orderly = none →
    exec .sysrstNAssert s =
      .next { s with rstc := { s.rstc with sysrstLow := true, also := putBit s.rstc.also 4 true } }) ∧
  (∀ (s : State), s.rstc.wdogArmed = false ∨ s.rstc.wdogEn = false → exec .mcWatchdogExpire s = .next s) ∧
  (∀ (s : State) (l : Level), s.rstc.wdogArmed = true → s.rstc.wdogEn = true → s.rstc.inReset = some l → l ≠ .core →
    s.rstc.orderly = none →
    exec .mcWatchdogExpire s = .next { s with rstc := { s.rstc with also := putBit s.rstc.also 5 true } }) ∧
  (∀ (s : State) (v : Word), v.extractLsb' 16 16 = (0x5253 : BitVec 16) → s.resetLevel = none →
    ∃ t, exec (.rstcReqSystem .mc v) s = .next t ∧ s.Only t [.rstc, .tasks, .chest, .free] ∧ s.AllAborted t ∧
      ∃ o, t.rstc.orderly = some o ∧ o.level = .system ∧ o.asked = s.now) ∧
  (∀ (s : State) (p : HostPort) (v : Word), s.holdsToken p = true → s.rstc.everReady = true → s.bist.state = 2 →
    exec (.rstcReqCore p.accessor v) s = .next s) ∧
  (∀ (s : State) (acc : Accessor) (v : Word), s.mayWrite acc = false →
    exec (.rstcReqSystem acc v) s = .next { s with top := { s.top with denied := satAdd s.top.denied 1 } } ∧
    exec (.rstcReqCore acc v) s = .next { s with top := { s.top with denied := satAdd s.top.denied 1 } }) ∧
  (∀ (s : State), s.rstc.orderly = none → exec .orderlyResetAssert s = .next s) ∧
  (∀ (s : State) (o : Orderly), s.rstc.orderly = some o →
    ((s.now < o.fret ∧ s.fret.state ≠ .unlocked) ∨ s.replyWaits o.src = true) → exec .orderlyResetAssert s = .next s)

/-- Power-on and supplies, from 01 R35, 12 R595, R605, 13 R630 and 18 R763, R765, R770: PWRGD brings the domains up in POR; POR is released
into BU0 once they are in regulation, and else waits for PWRGD to fall; after a thermal trip it holds while a die sensor is hot; the
supply restores; the reference clock's return locks what it locks; at 115 °C the trip pin is set and the partitions lose power; in
every other state these events change nothing. -/
def Obligations.SuppliesBringUpAndTrip : Prop :=
  (∀ (s : State), s.rstc.inReset = some .por → s.rstc.pwrgd = false → s.rstc.vinOk = true →
    exec .pwrgdRise s = .next { s with
      rstc := { s.rstc with pwrgd := true }
      pwr := { s.pwr with domains := if s.gov.thermtrip then 0xFC0000 else 0xFF0000 } }) ∧
  (∀ (s : State) (hot : Bool), s.rstc.inReset = some .por → s.rstc.pwrgd = true → s.rstc.vinOk = true →
    s.rstc.lockout = false → (s.gov.thermtrip = true → hot = false) → ∃ t, exec (.porRelease ⟨true, hot⟩) s = .next t ∧ s.Only t [.rstc, .brup, .pwr, .gov] ∧ t.rstc.inReset = none ∧
      t.rstc.porSrc = s.rstc.src ∧ t.gov.thermtrip = false ∧ t.pwr.domains = 0xFF0000 ∧
      t.brup.stages = s.brup.stages.set 0 .running) ∧
  (∀ (s : State) (hot : Bool), s.rstc.inReset = some .por → s.rstc.pwrgd = true → s.rstc.vinOk = true →
    s.rstc.lockout = false → (s.gov.thermtrip = true → hot = false) → exec (.porRelease ⟨false, hot⟩) s = .next { s with rstc := { s.rstc with lockout := true } }) ∧
  (∀ (s : State), s.rstc.vinOk = false → s.rstc.pwrgd = true →
    exec .supplyRestore s = .next { s with
      rstc := { s.rstc with vinOk := true }
      pwr := { s.pwr with domains := if s.gov.thermtrip then 0xFC0000 else 0xFF0000 } }) ∧
  (∀ (s : State), s.passed 2 = true → exec .trefRestore s = .next { s with clk := { s.clk with lock := s.clk.lock ||| 0xFC } }) ∧
  (∀ (s : State) (sensor temp : Word), 115 ≤ temp.toNat → s.gov.thermtrip = false → s.rstc.inReset ≠ some .por →
    ∃ t, exec (.thermalTrip sensor temp) s = .next t ∧ s.Only t [.flash, .top, .pwr, .gov, .chest, .out] ∧
      t.gov = { s.gov with thermtrip := true } ∧ t.pwr = { s.pwr with domains := s.pwr.domains &&& 0xFC0000 }) ∧
  (∀ (s : State) (reg : Bool), s.gov.thermtrip = true → exec (.porRelease ⟨reg, true⟩) s = .next s) ∧
  (∀ (s : State) (reg hot : Bool), s.rstc.inReset ≠ some .por ∨ s.rstc.pwrgd = false ∨ s.rstc.vinOk = false ∨
    s.rstc.lockout = true → exec (.porRelease ⟨reg, hot⟩) s = .next s) ∧
  (∀ (s : State), s.rstc.inReset ≠ some .por ∨ s.rstc.pwrgd = true → exec .pwrgdRise s = .next s) ∧
  (∀ (s : State), s.rstc.inReset = some .por → s.rstc.pwrgd = false → s.rstc.vinOk = false →
    exec .pwrgdRise s = .next { s with rstc := { s.rstc with pwrgd := true } }) ∧
  (∀ (s : State), s.rstc.vinOk = true → exec .supplyRestore s = .next s) ∧
  (∀ (s : State), s.rstc.vinOk = false → s.rstc.pwrgd = false →
    exec .supplyRestore s = .next { s with rstc := { s.rstc with vinOk := true } }) ∧
  (∀ (s : State), s.passed 2 = false → exec .trefRestore s = .next s) ∧
  (∀ (s : State) (sensor temp : Word), temp.toNat < 115 ∨ s.gov.thermtrip = true ∨ s.rstc.inReset = some .por →
    exec (.thermalTrip sensor temp) s = .next s)

/-- Block resets, from 02 R107, 05 R239 and 12 R598 to R604, R627: a maintenance reset takes an idle tile, cluster or partition, and is refused
with code 1 on one that is not; a request that is refused says why; a recovery reset of a cluster aborts its tasks and idles its
stream contexts, and one of a partition is the recovery of 11 R578; a finished block returns to service, and every word of its tiles'
SRAM is zero; the end of a block that is not in reset changes nothing. -/
def Obligations.BlocksReset : Prop :=
  (∀ (s : State) (acc : Accessor) (v : Word), s.mayWrite acc = true → (v.extractLsb' 28 2 : BitVec 2) = 0 →
    s.blkRefusal 0 (v.extractLsb' 0 12 : BitVec 12).toNat = none → s.tileIdle (v.extractLsb' 0 12 : BitVec 12).toNat = true →
    ∃ t, exec (.blkMaintenanceReset acc v) s = .next t ∧ s.Only t [.rstc, .rel, .relx, .chest, .mch, .tiles, .out] ∧
      t.rstc = { s.rstc with
        blkResult := 0, blks := s.rstc.blks ++ [⟨0, (v.extractLsb' 0 12 : BitVec 12).toNat, false⟩] } ∧
      (t.tile (v.extractLsb' 0 12 : BitVec 12).toNat).inReset = true) ∧
  (∀ (s : State) (acc : Accessor) (v : Word), s.mayWrite acc = true → (v.extractLsb' 28 2 : BitVec 2) = 0 →
    s.blkRefusal 0 (v.extractLsb' 0 12 : BitVec 12).toNat = none → s.tileIdle (v.extractLsb' 0 12 : BitVec 12).toNat = false →
    exec (.blkMaintenanceReset acc v) s = .next { s with rstc := { s.rstc with blkResult := 1 } }) ∧
  (∀ (s : State) (acc : Accessor) (v : Word) (c : BitVec 8), s.mayWrite acc = true →
    s.blkRefusal (v.extractLsb' 28 2 : BitVec 2).toNat (v.extractLsb' 0 12 : BitVec 12).toNat = some c →
    exec (.blkMaintenanceReset acc v) s = .next { s with rstc := { s.rstc with blkResult := c } } ∧
    exec (.blkRecoveryReset acc v) s = .next { s with rstc := { s.rstc with blkResult := c } }) ∧
  (∀ (s : State) (acc : Accessor) (v : Word), s.mayWrite acc = true → (v.extractLsb' 28 2 : BitVec 2) = 1 →
    s.blkRefusal 1 (v.extractLsb' 0 12 : BitVec 12).toNat = none →
    ∃ t, exec (.blkRecoveryReset acc v) s = .next t ∧
      s.Only t [.rstc, .rel, .relx, .chest, .mch, .spn, .parts, .cluss, .tiles, .ctxs, .tasks, .out] ∧
      t.rstc = { s.rstc with
        blkResult := 0, blks := s.rstc.blks ++ [⟨1, (v.extractLsb' 0 12 : BitVec 12).toNat, true⟩] } ∧
      (∀ n ∈ s.tasksOnClus (v.extractLsb' 0 12 : BitVec 12).toNat, (t.task n).abort.isSome = true) ∧
      ∀ k, k / 64 = (v.extractLsb' 0 12 : BitVec 12).toNat → (t.ctx k).state = .idle) ∧
  (∀ (s : State) (target : Nat), (s.rstc.blks.any fun b => decide (b.level = 0) && decide (b.target = target)) = true →
    ∃ t, exec (.blkResetDone 0 target) s = .next t ∧ s.Only t [.rstc, .tiles] ∧
      t.rstc = { s.rstc with
        blkResult := 0, blks := s.rstc.blks.filter fun b => !(decide (b.level = 0) && decide (b.target = target)) } ∧
      (t.tile target).inReset = false ∧ (t.tile target).sram = []) ∧
  (∀ (s : State) (target : Nat), (s.rstc.blks.any fun b => decide (b.level = 1) && decide (b.target = target)) = true →
    ∃ t, exec (.blkResetDone 1 target) s = .next t ∧ s.Only t [.rstc, .tiles] ∧ t.rstc.blkResult = 0 ∧
      ∀ pt ∈ clusTiles target, (t.tile pt).inReset = false ∧ (t.tile pt).sram = []) ∧
  (∀ (s : State) (target : Nat), (s.rstc.blks.any fun b => decide (b.level = 2) && decide (b.target = target)) = true →
    s.partMode target ≠ .reset →
    ∃ t, exec (.blkResetDone 2 target) s = .next t ∧ s.Only t [.rstc, .mch, .parts, .tiles, .out] ∧ t.rstc.blkResult = 0 ∧
      (t.part target).hbm = .active ∧ ∀ pt ∈ partTiles target, (t.tile pt).inReset = false ∧ (t.tile pt).sram = []) ∧
  (∀ (s : State) (level : BitVec 2) (target : Nat),
    (s.rstc.blks.any fun b => decide (b.level = level) && decide (b.target = target)) = false ∨
      (level = 2 ∧ s.partMode target = .reset) → exec (.blkResetDone level target) s = .next s) ∧
  (∀ (s : State) (acc : Accessor) (v : Word), s.mayWrite acc = true → (v.extractLsb' 28 2 : BitVec 2) = 1 →
    s.blkRefusal 1 (v.extractLsb' 0 12 : BitVec 12).toNat = none →
    (s.clusIdle (v.extractLsb' 0 12 : BitVec 12).toNat = true →
      ∃ t, exec (.blkMaintenanceReset acc v) s = .next t ∧
        s.Only t [.rstc, .rel, .relx, .chest, .mch, .parts, .cluss, .tiles, .ctxs, .out] ∧
        t.rstc = { s.rstc with
          blkResult := 0, blks := s.rstc.blks ++ [⟨1, (v.extractLsb' 0 12 : BitVec 12).toNat, false⟩] } ∧
        ∀ pt ∈ clusTiles (v.extractLsb' 0 12 : BitVec 12).toNat, (t.tile pt).inReset = true) ∧
    (s.clusIdle (v.extractLsb' 0 12 : BitVec 12).toNat = false →
      exec (.blkMaintenanceReset acc v) s = .next { s with rstc := { s.rstc with blkResult := 1 } })) ∧
  (∀ (s : State) (acc : Accessor) (v : Word), s.mayWrite acc = true → (v.extractLsb' 28 2 : BitVec 2) = 2 →
    s.blkRefusal 2 (v.extractLsb' 0 12 : BitVec 12).toNat = none →
    s.partMode (v.extractLsb' 0 12 : BitVec 12).toNat = .run →
    (s.partIdle (v.extractLsb' 0 12 : BitVec 12).toNat = true →
      ∃ t, exec (.blkMaintenanceReset acc v) s = .next t ∧
        s.Only t [.rstc, .bist, .rel, .relx, .chest, .mch, .parts, .cluss, .tiles, .ctxs, .latches, .out] ∧
        (t.part (v.extractLsb' 0 12 : BitVec 12).toNat).hbm = .selfRefresh ∧
        (t.part (v.extractLsb' 0 12 : BitVec 12).toNat).queue = []) ∧
    (s.partIdle (v.extractLsb' 0 12 : BitVec 12).toNat = false →
      exec (.blkMaintenanceReset acc v) s = .next { s with rstc := { s.rstc with blkResult := 1 } }) ∧
    ∃ t, exec (.blkRecoveryReset acc v) s = .next t ∧
      s.Only t [.rstc, .heal, .healx, .chest, .mch, .spn, .parts, .tiles, .tasks, .out] ∧
      t.partMode (v.extractLsb' 0 12 : BitVec 12).toNat = .reset ∧
      (t.part (v.extractLsb' 0 12 : BitVec 12).toNat).hbm = .selfRefresh) ∧
  (∀ (s : State) (acc : Accessor) (v : Word), s.mayWrite acc = true → (v.extractLsb' 28 2 : BitVec 2) = 0 →
    s.blkRefusal 0 (v.extractLsb' 0 12 : BitVec 12).toNat = none →
    ∃ t, exec (.blkRecoveryReset acc v) s = .next t ∧ s.Only t [.rstc, .rel, .relx, .chest, .mch, .tiles, .tasks, .out] ∧
      (t.tile (v.extractLsb' 0 12 : BitVec 12).toNat).inReset = true ∧
      ∀ lt, s.ltOf (v.extractLsb' 0 12 : BitVec 12).toNat = some lt →
        ∀ n ∈ s.tasksOnLt lt, (t.task n).abort.isSome = true) ∧
  (∀ (s : State) (acc : Accessor) (v : Word), s.mayWrite acc = false →
    exec (.blkMaintenanceReset acc v) s = .next { s with top := { s.top with denied := satAdd s.top.denied 1 } } ∧
    exec (.blkRecoveryReset acc v) s = .next { s with top := { s.top with denied := satAdd s.top.denied 1 } })

/-- The bring-up commands and the script, from 12 R605, R607, R610 to R615, R620, R621, R628: a stage starts where its conditions hold and
is an order error otherwise; pause acts in autonomous mode only, and resume ends it; BU1 boots the pushed image after it failed for its
firmware, and a pushed image that verifies is programmed; the replay starts after BU1 from its entry and takes its records in order; a
record is run by the command of its own op and by no other; a write that the script may not make, a time-out, a reserved op and a stage
that cannot start stop it with an error; at END and past the last record it ends without one; a stage record waits for its stage. What
happens past the last record, and at a stage record whose stage runs or has passed, is the model's choice (log entry 43). -/
def Obligations.BringUpCommandsAndScript : Prop :=
  (∀ (s : State) (acc : Accessor) (v : Word), s.mayWrite acc = true → (v.extractLsb' 0 4).toNat ≤ 9 →
    s.earlierPassed (v.extractLsb' 0 4).toNat = true →
    (s.brup.stages.getD (v.extractLsb' 0 4).toNat .passed = .notRun ∨
      s.brup.stages.getD (v.extractLsb' 0 4).toNat .passed = .failed) → s.brup.blocked = none →
    exec (.brupStartStage acc v) s = .next { s with brup := { s.brup with
      stages := s.brup.stages.set (v.extractLsb' 0 4).toNat .running
      current := BitVec.ofNat 4 (v.extractLsb' 0 4).toNat, arg := v.extractLsb' 8 4
      pushed := s.brup.pushed && decide ((v.extractLsb' 0 4).toNat ≠ 1) } }) ∧
  (∀ (s : State) (acc : Accessor) (v : Word), s.mayWrite acc = true →
    (s.earlierPassed (v.extractLsb' 0 4).toNat = false ∨
      s.brup.stages.getD (v.extractLsb' 0 4).toNat .passed = .passed) →
    exec (.brupStartStage acc v) s = .next { s with brup := { s.brup with orderErr := true } }) ∧
  (∀ (s : State) (acc : Accessor) (v : Word), s.mayWrite acc = true → s.brup.auto = true →
    exec (.brupPause acc v) s = .next { s with brup := { s.brup with paused := true } }) ∧
  (∀ (s : State) (acc : Accessor) (v : Word), s.mayWrite acc = true →
    exec (.brupResume acc v) s = .next { s with brup := { s.brup with paused := false } }) ∧
  (∀ (s : State) (acc : Accessor) (v : Word), s.mayWrite acc = true → s.brup.stages.getD 1 .notRun = .failed →
    s.brup.failStage = 1 → s.brup.failCode = 2 →
    exec (.brupBootPushed acc v) s = .next { s with brup := { s.brup with
      stages := s.brup.stages.set 1 .running, current := 1, arg := 0, pushed := true } }) ∧
  (∀ (s : State) (acc : Accessor) (v : Word), s.mayWrite acc = true → (v.extractLsb' 8 4 : BitVec 4) = 0 →
    s.sec.lc ≠ .final →
    exec (.brupProgram acc v) s = .next (if (s.verifyImage 1 (some (parseImage s.brup.pushBytes))).isSome then
      { s with flash := { s.flash with
        firmware := some (parseImage s.brup.pushBytes), hdrOk := true, generation := s.flash.generation + 1
        auto := s.flash.configAuto } }
      else s)) ∧
  (∀ (s : State), s.brup.auto = true → s.brup.paused = false → s.passed 1 = true → s.brup.scriptOk = true →
    s.brup.replayed = false → s.brup.running = false →
    exec .scriptReplayStart s = .next { s with brup := { s.brup with
      running := true, replayed := true, wait := .none
      next := if s.brup.restart then s.flash.coreEntry else s.flash.coldEntry
      index := BitVec.ofNat 20 (if s.brup.restart then s.flash.coreEntry else s.flash.coldEntry) } }) ∧
  (∀ (s : State) (r : ScriptRec), s.brup.ready = true → s.flash.script[s.brup.next]? = some r → r.op = 1 →
    scriptMayNot r.off.toNat r.value = false → exec .scriptWrite s = .next (s.advance.accWrite .mc r.off.toNat r.value)) ∧
  (∀ (s : State) (r : ScriptRec), s.brup.ready = true → s.flash.script[s.brup.next]? = some r → r.op = 1 →
    scriptMayNot r.off.toNat r.value = true →
    ∃ t, exec .scriptWrite s = .next t ∧ s.Only t [.brup] ∧ t.brup.running = false ∧ t.brup.scriptErr = true) ∧
  (∀ (s : State) (r : ScriptRec), s.brup.ready = true → s.flash.script[s.brup.next]? = some r → r.op = 2 →
    exec .scriptModify s = .next ((s.advance.bar0Read .mc r.off.toNat).2.seqWrite r.off.toNat
      (((s.advance.bar0Read .mc r.off.toNat).1 &&& ~~~r.mask) ||| (r.value &&& r.mask)))) ∧
  (∀ (s : State) (r : ScriptRec), s.brup.ready = true → s.flash.script[s.brup.next]? = some r → r.op = 3 →
    ∃ t, exec .scriptPoll s = .next t ∧ s.Only t [.brup] ∧ t.brup.wait = .poll ∧ t.brup.next = s.brup.next + 1) ∧
  (∀ (s : State) (r : ScriptRec), s.brup.wait = .poll → s.flash.script[s.brup.index.toNat]? = some r →
    (s.bar0Read .mc r.off.toNat).1 &&& r.mask = r.value →
    ∃ t, exec .scriptPollMatch s = .next t ∧ s.Only t [.brup, .tel, .latches] ∧
      t.brup = { s.brup with wait := .none }) ∧
  (∀ (s : State), s.brup.wait = .poll → exec .scriptPollTimeout s = .next { s with brup := { s.brup with
    running := false, wait := .none, scriptErr := true } }) ∧
  (∀ (s : State) (r : ScriptRec), s.brup.ready = true → s.flash.script[s.brup.next]? = some r → r.op = 4 →
    ∃ t, exec .scriptWait s = .next t ∧ s.Only t [.brup] ∧ t.brup.wait = .wait ∧ t.brup.next = s.brup.next + 1) ∧
  (∀ (s : State), s.brup.wait = .wait → exec .scriptWaitExpire s = .next { s with brup := { s.brup with wait := .none } }) ∧
  (∀ (s : State) (r : ScriptRec), s.brup.ready = true → s.flash.script[s.brup.next]? = some r → r.op = 5 →
    r.stage.toNat ≤ 9 → s.brup.stages.length = 10 → s.earlierPassed r.stage.toNat = true →
    s.brup.stages[r.stage.toNat]? = some .notRun → s.brup.blocked = none →
    ∃ t, exec .scriptStage s = .next t ∧ s.Only t [.brup] ∧ t.brup.wait = .stage ∧
      t.brup.stages = s.brup.stages.set r.stage.toNat .running) ∧
  (∀ (s : State) (r : ScriptRec), s.brup.ready = true → s.flash.script[s.brup.next]? = some r → r.op = 6 →
    ∃ t, exec .scriptEnd s = .next t ∧ s.Only t [.brup] ∧ t.brup.running = false ∧ t.brup.scriptErr = s.brup.scriptErr) ∧
  (∀ (s : State) (acc : Accessor) (v : Word), s.mayWrite acc = true →
    (9 < (v.extractLsb' 0 4).toNat ∨ s.brup.stages.getD (v.extractLsb' 0 4).toNat .passed = .running ∨
      ∃ b, s.brup.blocked = some b ∧ b < (v.extractLsb' 0 4).toNat) →
    exec (.brupStartStage acc v) s = .next { s with brup := { s.brup with orderErr := true } }) ∧
  (∀ (s : State) (acc : Accessor) (v : Word), s.mayWrite acc = true → s.brup.auto = false →
    exec (.brupPause acc v) s = .next s) ∧
  (∀ (s : State) (acc : Accessor) (v : Word), s.mayWrite acc = true → (s.brup.stages.getD 1 .notRun ≠ .failed ∨
    s.brup.failStage ≠ 1 ∨ s.brup.failCode ≠ 2) → exec (.brupBootPushed acc v) s = .next s) ∧
  (∀ (s : State) (acc : Accessor) (v : Word), s.mayWrite acc = true → (3 ≤ (v.extractLsb' 8 4 : BitVec 4).toNat ∨
    s.sec.lc = .final ∨ s.verifyImage (BitVec.ofNat 8 ((v.extractLsb' 8 4 : BitVec 4).toNat + 1))
      (some (parseImage s.brup.pushBytes)) = none) → exec (.brupProgram acc v) s = .next s) ∧
  (∀ (s : State) (acc : Accessor) (v : Word), s.mayWrite acc = true → (v.extractLsb' 8 4 : BitVec 4) = 1 →
    s.sec.lc ≠ .final →
    ∃ t, exec (.brupProgram acc v) s = .next t ∧ s.Only t [.flash] ∧
      ((s.verifyImage 2 (some (parseImage s.brup.pushBytes))).isSome = true →
        t.flash.config = some (parseImage s.brup.pushBytes) ∧ t.flash.generation = s.flash.generation + 1 ∧
        t.flash.firmware = s.flash.firmware ∧ t.flash.script = s.flash.script)) ∧
  (∀ (s : State) (acc : Accessor) (v : Word), s.mayWrite acc = true → (v.extractLsb' 8 4 : BitVec 4) = 2 →
    s.sec.lc ≠ .final →
    ∃ t, exec (.brupProgram acc v) s = .next t ∧ s.Only t [.flash] ∧
      ((s.verifyImage 3 (some (parseImage s.brup.pushBytes))).isSome = true →
        t.flash.scriptImg = some (parseImage s.brup.pushBytes) ∧ t.flash.generation = s.flash.generation + 1 ∧
        t.flash.firmware = s.flash.firmware ∧ t.flash.config = s.flash.config)) ∧
  (∀ (s : State) (acc : Accessor) (v : Word) (i : Instr), s.mayWrite acc = false →
    i ∈ [Instr.brupStartStage acc v, .brupPause acc v, .brupResume acc v, .brupBootPushed acc v, .brupProgram acc v] →
    exec i s = .next { s with top := { s.top with denied := satAdd s.top.denied 1 } }) ∧
  (∀ (s : State), (s.brup.auto = false ∨ s.brup.paused = true ∨ s.passed 1 = false ∨ s.brup.scriptOk = false ∨
    s.brup.replayed = true ∨ s.brup.running = true) → exec .scriptReplayStart s = .next s) ∧
  (∀ (s : State) (x : Nat × Instr), x ∈ [(1, Instr.scriptWrite), (2, .scriptModify), (3, .scriptPoll), (4, .scriptWait),
      (5, .scriptStage), (6, .scriptEnd)] →
    (s.brup.ready = false → exec x.2 s = .next s) ∧
    (∀ r, s.brup.ready = true → s.flash.script[s.brup.next]? = some r → r.op.toNat ≠ x.1 → 1 ≤ r.op.toNat → r.op.toNat ≤ 6 →
      exec x.2 s = .next s) ∧
    (∀ r, s.brup.ready = true → s.flash.script[s.brup.next]? = some r → (r.op = 0 ∨ 6 < r.op.toNat) →
      exec x.2 s = .next { s with brup := { s.brup with
        index := BitVec.ofNat 20 s.brup.next, next := s.brup.next + 1, running := false, wait := .none, scriptErr := true } }) ∧
    (s.brup.ready = true → s.flash.script[s.brup.next]? = none →
      exec x.2 s = .next (if x.1 = 6 then { s with brup := { s.brup with running := false, wait := .none } } else s))) ∧
  (∀ (s : State), s.brup.wait ≠ .poll →
    exec .scriptPollMatch s = .next s ∧ exec .scriptPollTimeout s = .next s) ∧
  (∀ (s : State), s.brup.wait ≠ .wait → exec .scriptWaitExpire s = .next s) ∧
  (∀ (s : State) (r : ScriptRec), s.brup.wait = .poll → s.flash.script[s.brup.index.toNat]? = some r →
    (s.bar0Read .mc r.off.toNat).1 &&& r.mask ≠ r.value →
    ∃ t, exec .scriptPollMatch s = .next t ∧ s.Only t [.tel, .latches]) ∧
  (∀ (s : State) (r : ScriptRec), s.brup.ready = true → s.flash.script[s.brup.next]? = some r → r.op = 5 →
    (s.brup.stages[r.stage.toNat]? = some .passed → exec .scriptStage s = .next { s with brup := { s.brup with
      index := BitVec.ofNat 20 s.brup.next, next := s.brup.next + 1 } }) ∧
    (s.brup.stages[r.stage.toNat]? = some .running → exec .scriptStage s = .next { s with brup := { s.brup with
      index := BitVec.ofNat 20 s.brup.next, next := s.brup.next + 1, wait := .stage } }) ∧
    (s.brup.stages[r.stage.toNat]? = some .notRun → s.earlierPassed r.stage.toNat = false →
      ∃ t, exec .scriptStage s = .next t ∧ s.Only t [.brup] ∧ t.brup.running = false ∧ t.brup.scriptErr = true ∧
        t.brup.orderErr = true))

/-- The bring-up stages, from 12 R605 to R609, R616 to R620, 01 R35, 04 R193, 08 R473, 09 R516, 10 R551, 13 R657, 14 R663, R668 and 15 R690 to
R693, R702, R711: a stage that does not run changes nothing; one that runs passes with its effect, or fails with its code: 0x1 flash, 0x2
firmware, 0x3 configuration, 0x4 self-check, 0x5 clocks, 0x6 management, 0x7 spine, 0x8 HBM training, 0x9 partition, 0xA yield map, 0xD
alignment; a failure that is a retirement cause sets its flag and lets no later stage start; the first BU6 after a POR maps the chip, and
a later one does not; BU7 fences the tiles that fail, and a full test loses the HBM's contents; BU8 waits for the enabled ports; BU9
makes the chip ready. -/
def Obligations.BringUpStagesPassOrFail : Prop :=
  (∀ (s : State), s.stageRuns 0 = true →
    ∃ t, exec (.stageBu0 true) s = .next t ∧ s.Only t [.rstc, .brup, .pwr, .clk, .sec, .relx, .chest] ∧
      t.relx.retFlag = s.flash.retFlag ∧ t.sec.lc = s.fuse.lc ∧ t.pwr.limit = BitVec.ofNat 16 s.fuse.grade.limit ∧
      t.brup.stages = (if s.flash.hdrOk && s.flash.auto then (s.brup.stages.set 0 .passed).set 1 .running
        else s.brup.stages.set 0 .passed)) ∧
  (∀ (s : State), s.stageRuns 0 = true →
    ∃ t, exec (.stageBu0 false) s = .next t ∧ s.Only t [.brup, .chest] ∧ t.brup.stages = s.brup.stages.set 0 .failed ∧
      t.brup.failStage = 0 ∧ t.brup.failCode = 1) ∧
  (∀ (s : State) (ok : Bool), s.stageRuns 1 = true →
    (s.sec.lc = .final ∨ s.verifyImage 1 s.bootImage = none) →
    ∃ t, exec (.stageBu1 ok) s = .next t ∧ s.Only t [.brup, .chest] ∧ t.brup.stages = s.brup.stages.set 1 .failed ∧
      t.brup.failStage = 1 ∧ t.brup.failCode = 2) ∧
  (∀ (s : State) (ok : Bool), s.stageRuns 1 = true → s.sec.lc ≠ .final → (s.verifyImage 1 s.bootImage).isSome = true →
    (s.verifyImage 2 s.flash.config).isSome = false →
    ∃ t, exec (.stageBu1 ok) s = .next t ∧ s.Only t [.brup, .chest] ∧ t.brup.stages = s.brup.stages.set 1 .failed ∧
      t.brup.failCode = 3) ∧
  (∀ (s : State) (ok : Bool), s.stageRuns 1 = true → s.sec.lc ≠ .final → (s.verifyImage 1 s.bootImage).isSome = true →
    (s.verifyImage 2 s.flash.config).isSome = true →
    ∃ t, exec (.stageBu1 ok) s = .next t ∧ s.Only t [.rstc, .brup, .ids, .sec, .chest, .tel, .free] ∧
      (ok = true → t.brup.stages = s.brup.stages.set 1 .passed ∧ t.rstc = { s.rstc with wdogArmed := true } ∧
        t.sec.firmware = s.bootImage) ∧
      (ok = false → t.brup.stages = s.brup.stages.set 1 .failed ∧ t.brup.failCode = 4)) ∧
  (∀ (s : State), s.stageRuns 2 = true →
    ∃ t, exec (.stageBu2 true) s = .next t ∧ s.Only t [.brup, .clk, .fret] ∧ t.brup.stages = s.brup.stages.set 2 .passed ∧
      t.fret = { s.fret with state := .free, west := 0, east := 0, stretch := 0, good := 0, sinceBeacon := 0 } ∧
      t.clk = { s.clk with
        lock := 0xFF, east := BitVec.ofNat 16 s.fuse.grade.mhz, west := BitVec.ofNat 16 s.fuse.grade.mhz
        domainMhz := BitVec.ofNat 16 s.fuse.grade.mhz }) ∧
  (∀ (s : State), s.stageRuns 2 = true →
    ∃ t, exec (.stageBu2 false) s = .next t ∧ s.Only t [.brup, .chest] ∧ t.brup.stages = s.brup.stages.set 2 .failed ∧
      t.brup.failCode = 5) ∧
  (∀ (s : State), s.stageRuns 3 = true →
    ∃ t, exec (.stageBu3 false) s = .next t ∧ s.Only t [.brup, .chest] ∧ t.brup.stages = s.brup.stages.set 3 .failed ∧
      t.brup.failCode = 6) ∧
  (∀ (s : State), s.stageRuns 4 = true → s.relx.retState = .none → s.healx.retireWait = none → s.top.ready = false →
    ∃ t, exec (.stageBu4 false true) s = .next t ∧ s.Only t [.flash, .top, .brup, .bist, .relx, .chest, .out] ∧
      t.brup.stages = s.brup.stages.set 4 .failed ∧ t.brup.failCode = 7 ∧ t.relx.retCause = 4 ∧
      t.brup.blocked = some 4) ∧
  (∀ (s : State), s.stageRuns 3 = true →
    ∃ t, exec (.stageBu3 true) s = .next t ∧ s.Only t [.brup, .mgt] ∧ t.brup.stages = s.brup.stages.set 3 .passed) ∧
  (∀ (s : State), s.stageRuns 4 = true →
    ∃ t, exec (.stageBu4 true true) s = .next t ∧ s.Only t [.brup, .spn, .flash] ∧
      t.brup.stages = s.brup.stages.set 4 .passed ∧ (t.spnHalf .west).ncnUp = true ∧ (t.spnHalf .east).ncnUp = true) ∧
  (∀ (s : State), s.stageRuns 5 = true → s.brup.restart = false →
    ∃ t, exec (.stageBu5 (List.replicate 16 0xFFFF)) s = .next t ∧ s.Only t [.brup, .pwr, .parts, .flash] ∧
      t.brup.stages = s.brup.stages.set 5 .passed ∧ ∀ p < 16, (t.part p).hbm = .active ∧ (t.part p).trained = 0xFFFF) ∧
  (∀ (s : State) (p : Part), s.stageRuns 6 = true →
    ∃ t, exec (.stageBu6 (some p)) s = .next t ∧ s.Only t [.brup, .chest] ∧ t.brup.stages = s.brup.stages.set 6 .failed ∧
      t.brup.failCode = 9 ∧ t.brup.detail = BitVec.ofNat 32 p) ∧
  (∀ (s : State), s.stageRuns 6 = true → s.brup.restart = false → s.flash.yieldOk = false →
    ∃ t, exec (.stageBu6 none) s = .next t ∧ s.Only t [.brup, .chest] ∧ t.brup.stages = s.brup.stages.set 6 .failed ∧
      t.brup.failCode = 0xA) ∧
  (∀ (s : State), s.stageRuns 6 = true → s.brup.restart = false → s.flash.yieldOk = true → s.rstc.mapped = true →
    ∃ t, exec (.stageBu6 none) s = .next t ∧ s.Only t [.brup, .healx, .bist, .sec, .tiles, .free] ∧
      t.brup.stages = s.brup.stages.set 6 .passed ∧ t.sec.events = s.sec.events + 1) ∧
  (∀ (s : State), s.stageRuns 7 = true → s.brup.arg = 0 → s.rstc.level = 1 →
    ∃ t, exec (.stageBu7 ⟨[], []⟩) s = .next t ∧ s.Only t [.flash, .rstc, .brup, .bist] ∧
      t.brup.stages = s.brup.stages.set 7 .passed ∧ t.brup.test = 1 ∧ t.rstc = { s.rstc with applied := true }) ∧
  (∀ (s : State) (pt : Pt) (u : BitVec 4), s.stageRuns 7 = true → s.brup.arg = 0 → s.rstc.level = 1 →
    (s.role pt).role ≠ .fenced → s.partMode (ptPart pt) ≠ .reset →
    ∃ t, exec (.stageBu7 ⟨[(pt, u)], []⟩) s = .next t ∧
      s.Only t [.flash, .top, .rstc, .brup, .bist, .heal, .healx, .relx, .chest, .tiles, .out] ∧
      (t.role pt).role = .fenced ∧ (t.tile pt).mode = .fenced ∧ t.bist.failed = satAdd s.bist.failed 1) ∧
  (∀ (s : State), s.stageRuns 7 = true → s.brup.arg ≠ 1 → s.rstc.level = 0 → s.rstc.healthOk = false →
    ∃ t, exec (.stageBu7 ⟨[], []⟩) s = .next t ∧ s.Only t [.flash, .rstc, .brup, .bist, .healx, .hbm] ∧
      t.brup.stages = s.brup.stages.set 7 .passed ∧ t.brup.test = 2 ∧ t.hbm.mem = [] ∧ t.hbm.epoch = s.hbm.epoch + 1 ∧
      ∀ pt < 2304, (s.role pt).role ≠ .fenced → (t.role pt).age = some 0) ∧
  (∀ (s : State), s.stageRuns 7 = true → s.brup.arg = 2 → s.rstc.level = 2 → s.brup.stages.getD 7 .notRun ≠ .notRun →
    ∃ t, exec (.stageBu7 ⟨[], []⟩) s = .next t ∧ s.Only t [.flash, .rstc, .brup] ∧
      t.brup.stages = s.brup.stages.set 7 .passed ∧ t.brup.test = 0) ∧
  (∀ (s : State), s.stageRuns 6 = true → s.brup.restart = false → s.flash.yieldOk = true → s.rstc.mapped = false →
    ∃ t, exec (.stageBu6 none) s = .next t ∧
      s.Only t [.flash, .top, .rstc, .brup, .sec, .bist, .healx, .relx, .chest, .cluss, .tiles, .out, .free] ∧
      t.rstc.mapped = true ∧ t.bist.faults = (s.healthNow.map (·.windows)).getD [] ∧
      (t.brup.stages = s.brup.stages.set 6 .passed ∨ t.brup.stages = s.brup.stages.set 6 .failed)) ∧
  (∀ (s : State), s.stageRuns 6 = true → s.brup.restart = true →
    ∃ t, exec (.stageBu6 none) s = .next t ∧ s.Only t [.top, .brup, .pwr, .gov, .fret, .chest, .parts, .tiles, .out] ∧
      t.brup.stages = s.brup.stages.set 6 .passed ∧ t.pwr.parked = 0 ∧ t.pwr.waking = 0) ∧
  (∀ (s : State), s.stageRuns 4 = true → s.relx.retState = .none → s.healx.retireWait = none →
    s.top.ready = false →
    ∃ t, exec (.stageBu4 true false) s = .next t ∧ s.Only t [.flash, .top, .brup, .bist, .relx, .chest, .out] ∧
      t.brup.stages = s.brup.stages.set 4 .failed ∧ t.brup.failCode = 7 ∧ t.relx.retCause = 2 ∧
      t.brup.blocked = some 4) ∧
  (∀ (s : State) (trained : List (BitVec 16)) (p : Part), s.stageRuns 5 = true → s.brup.restart = false →
    trained.getD p.val 0 ≠ 0xFFFF → s.relx.retState = .none → s.healx.retireWait = none → s.top.ready = false →
    ∃ t, exec (.stageBu5 trained) s = .next t ∧ s.Only t [.flash, .top, .brup, .pwr, .bist, .relx, .chest, .parts, .out] ∧
      t.brup.stages = s.brup.stages.set 5 .failed ∧ t.brup.failCode = 8 ∧ t.relx.retCause = 3 ∧
      t.brup.blocked = some 5 ∧ (t.part p).trainErr = true) ∧
  (∀ (s : State) (trained : List (BitVec 16)), s.stageRuns 5 = true → s.brup.restart = true →
    ∃ t, exec (.stageBu5 trained) s = .next t ∧ s.Only t [.brup, .parts] ∧
      t.brup.stages = s.brup.stages.set 5 .passed ∧ ∀ p < 16, s.parked p = false → (t.part p).hbm = .active) ∧
  (∀ (s : State) (x : Nat × Instr) (a : Bool) (b : Bool) (ws : List (BitVec 16)) (op : Option Part)
    (fs : List (Pt × BitVec 4)) (es : List Word),
    x ∈ [(0, Instr.stageBu0 a), (1, .stageBu1 a), (2, .stageBu2 a), (3, .stageBu3 a), (4, .stageBu4 a b), (5, .stageBu5 ws),
      (6, .stageBu6 op), (7, .stageBu7 ⟨fs, es⟩), (8, .stageBu8), (9, .stageBu9 a)] →
    s.stageRuns x.1 = false → exec x.2 s = .next s) ∧
  (∀ (s : State), s.stageRuns 8 = true → (∀ e ∈ s.fabs, e.2.enable = true →
      e.2.state = .up ∨ (e.2.state = .down ∧ e.2.downAt + 23437500 ≤ s.ticks)) →
    ∃ t, exec .stageBu8 s = .next t ∧ s.Only t [.flash, .brup] ∧ t.brup.stages = s.brup.stages.set 8 .passed) ∧
  (∀ (s : State), s.stageRuns 9 = true → s.brup.restart = false → (s.fret.state = .member ∨ s.fret.root = true) →
    ∃ t, exec (.stageBu9 true) s = .next t ∧ s.Only t [.fuse, .top, .rstc, .brup, .pwr, .fret, .chest, .mch, .out] ∧
      t.brup.stages = s.brup.stages.set 9 .passed ∧ t.top.ready = true ∧ t.rstc.everReady = true) ∧
  (∀ (s : State), s.stageRuns 9 = true → s.brup.restart = false → s.fret.state ≠ .member → s.fret.root = false →
    ∃ t, exec (.stageBu9 true) s = .next t ∧ s.Only t [.brup, .chest] ∧ t.brup.stages = s.brup.stages.set 9 .failed ∧
      t.brup.failCode = 0xD) ∧
  (∀ (s : State), (∃ e ∈ s.fabs, e.2.enable = true ∧ e.2.state ≠ .up ∧
      (e.2.state = .down → s.ticks < e.2.downAt + 23437500)) → exec .stageBu8 s = .next s) ∧
  (∀ (s : State), s.stageRuns 9 = true → s.brup.restart = true →
    exec (.stageBu9 false) s = .next s ∧
    ∃ t, exec (.stageBu9 true) s = .next t ∧ s.Only t [.fuse, .top, .rstc, .brup, .pwr, .fret, .chest, .mch, .out] ∧
      t.brup.stages = s.brup.stages.set 9 .passed ∧ t.top.ready = true ∧ t.brup.restart = false)

/-- The governor and the clamps, from 13 R642 to R646, R648, R650 to R652, R659: an interval takes the measurements, keeps the request at
min_stretch at least, lowers it by 2 at most, and asks for 32 while the power clamp holds; a thermal clamp at 108 °C divides its half's
clock and raises the request by 8, and its release leaves the request held for 1,000 intervals; the power clamp engages above 105 % of the
limit, divides both clocks and asks for 32, and releases at the limit; each does nothing below its threshold, or where it is held or
released already; a budget below the idle floor is clamped, one below the mean power asks for 32 at once, and one from a port without the
token is denied. -/
def Obligations.GovernorAndClampsAct : Prop :=
  (∀ (s : State) (m : Measured), s.pwr.req.toNat ≤ 32 → s.gov.hold ≤ 32 →
    ∃ t, exec (.governorInterval m) s = .next t ∧ s.Only t [.pwr, .gov, .fret, .out] ∧
      t.pwr.mean = satOfNat 16 m.mean ∧ t.pwr.peak = satOfNat 16 m.peak ∧ t.gov.dieW = satOfNat 8 m.dieW ∧
      t.gov.dieE = satOfNat 8 m.dieE ∧ t.gov.stack = satOfNat 8 m.stack ∧ t.gov.stackIdx = m.stackIdx ∧
      min s.pwr.minStretch.toNat 32 ≤ t.pwr.req.toNat ∧ t.pwr.req.toNat ≤ 32 ∧ s.pwr.req.toNat ≤ t.pwr.req.toNat + 2 ∧
      (s.gov.powerClamp = true → t.pwr.req = 32) ∧ (m.mean ≤ s.budget → t.pwr.overBudget = false)) ∧
  (∀ (s : State) (temp : BitVec 8), 108 ≤ temp.toNat → s.gov.thermW = false →
    ∃ t, exec (.thermalClampEngage .west temp) s = .next t ∧ s.Only t [.top, .pwr, .gov, .clk, .fret, .chest, .out] ∧
      t.gov.thermW = true ∧ t.gov.thermE = s.gov.thermE ∧ t.gov.lower = 0 ∧ min 32 (s.pwr.req.toNat + 8) ≤ t.gov.hold ∧
      t.pwr = { s.pwr with
        clampW := satAdd s.pwr.clampW 1, req := BitVec.ofNat 6 (min 32 (s.pwr.req.toNat + 8)), reason := 6 } ∧
      t.clk = { s.clk with divW := true, divE := s.gov.thermE || s.gov.powerClamp }) ∧
  (∀ (s : State) (h : Half) (temp : BitVec 8), temp.toNat < 108 → exec (.thermalClampEngage h temp) s = .next s) ∧
  (∀ (s : State), s.gov.thermE = true →
    exec (.thermalClampRelease .east) s = .next { s with
      gov := { s.gov with thermE := false, holdLeft := 1000 }
      clk := { s.clk with divW := s.gov.thermW || s.gov.powerClamp, divE := s.gov.powerClamp } }) ∧
  (∀ (s : State) (mean : Nat), 105 * s.fuse.grade.limit < mean * 100 → s.gov.powerClamp = false →
    ∃ t, exec (.powerClampEngage mean) s = .next t ∧ s.Only t [.pwr, .gov, .clk, .fret, .chest, .out] ∧
      t.gov = { s.gov with powerClamp := true, lower := 0 } ∧ t.clk = { s.clk with divW := true, divE := true } ∧
      t.pwr = { s.pwr with pclamp := true, req := 32, reason := 7 }) ∧
  (∀ (s : State) (mean : Nat), mean ≤ s.fuse.grade.limit → s.gov.powerClamp = true →
    exec (.powerClampRelease mean) s = .next { s with
      gov := { s.gov with powerClamp := false }
      clk := { s.clk with divW := s.gov.thermW, divE := s.gov.thermE } }) ∧
  (∀ (s : State) (acc : Accessor) (v : Word), s.mayWrite acc = true → s.passed 0 = true →
    ∃ t, exec (.budgetWrite acc v) s = .next t ∧ s.Only t [.top, .pwr, .fret, .chest, .out] ∧
      t.pwr.host = v.setWidth 16 ∧
      (min (v.setWidth 16 : BitVec 16).toNat s.pwr.limit.toNat * 8 < 1360 + 65 * s.unparked → t.pwr.clamped = true) ∧
      (s.pwr.mean.toNat ≤ s.budget →
        ({ s with pwr := { s.pwr with host := v.setWidth 16 } } : State).budget < s.pwr.mean.toNat →
        t.pwr.req = 32 ∧ t.pwr.reason = 5)) ∧
  (∀ (s : State) (p : HostPort) (v : Word), s.holdsToken p = false → s.passed 0 = true →
    exec (.budgetWrite p.accessor v) s = .next { s with top := { s.top with denied := satAdd s.top.denied 1 } }) ∧
  (∀ (s : State) (temp : BitVec 8), 108 ≤ temp.toNat → s.gov.thermE = false →
    ∃ t, exec (.thermalClampEngage .east temp) s = .next t ∧ s.Only t [.top, .pwr, .gov, .clk, .fret, .chest, .out] ∧
      t.gov.thermE = true ∧ t.gov.thermW = s.gov.thermW ∧
      t.pwr = { s.pwr with
        clampE := satAdd s.pwr.clampE 1, req := BitVec.ofNat 6 (min 32 (s.pwr.req.toNat + 8)), reason := 6 } ∧
      t.clk = { s.clk with divE := true, divW := s.gov.thermW || s.gov.powerClamp }) ∧
  (∀ (s : State) (temp : BitVec 8), (s.gov.thermW = true → exec (.thermalClampEngage .west temp) s = .next s) ∧
    (s.gov.thermE = true → exec (.thermalClampEngage .east temp) s = .next s) ∧
    (s.gov.thermW = false → exec (.thermalClampRelease .west) s = .next s) ∧
    (s.gov.thermE = false → exec (.thermalClampRelease .east) s = .next s)) ∧
  (∀ (s : State), s.gov.thermW = true →
    exec (.thermalClampRelease .west) s = .next { s with
      gov := { s.gov with thermW := false, holdLeft := 1000 }
      clk := { s.clk with divW := s.gov.powerClamp, divE := s.gov.thermE || s.gov.powerClamp } }) ∧
  (∀ (s : State) (mean : Nat), mean * 100 ≤ 105 * s.fuse.grade.limit ∨ s.gov.powerClamp = true →
    exec (.powerClampEngage mean) s = .next s) ∧
  (∀ (s : State) (mean : Nat), s.fuse.grade.limit < mean ∨ s.gov.powerClamp = false →
    exec (.powerClampRelease mean) s = .next s)

/-- Parking, waking, droops and pegs, from 05 R239, 13 R633 to R635, R653, R654, R658, R659 and 15 R693: a partition that may park and is idle,
or is told to, enters self-refresh and, parked, has lost its tiles' words and banks but no memory; one that may not, or has tasks, does
not park; a wake powers its domain, and its done brings its memory back and fences the tiles that fail the test; a critical droop takes
the guard band to 60 mV, others raise it a step or leave it, and a quiet time lowers it; a peg that is marked, or provisional under heavy
load, is re-tuned while its structure is idle: better settings are final, and worse ones keep the peg and set fail. -/
def Obligations.PartitionsParkAndPegsRetune : Prop :=
  (∀ (s : State) (p : Part) (idleMs : Nat), s.mayPark p = true → s.tasksIn p = [] →
    (max 1 s.pwr.parkIdle.toNat ≤ idleMs ∨ s.pwr.overBudget = true) →
    ∃ t, exec (.governorPark p idleMs) s = .next t ∧ s.Only t [.gov, .bist, .parts, .tiles] ∧
      t.gov = { s.gov with parking := putBit s.gov.parking p true } ∧ (t.part p).hbm = .selfRefresh) ∧
  (∀ (s : State) (p : Part) (idleMs : Nat), s.mayPark p = false →
    exec (.governorPark p idleMs) s = .next s) ∧
  (∀ (s : State) (acc : Accessor) (p : Part) (v : Word), s.mayWrite acc = true → s.passed 0 = true →
    (v.setWidth 16 : BitVec 16) = BitVec.twoPow 16 p → s.mayPark p = true →
    ∃ t, exec (.pwrParkNow acc v) s = .next t ∧ s.Only t [.gov, .bist, .parts, .tiles] ∧
      t.gov = { s.gov with parking := putBit s.gov.parking p true } ∧ (t.part p).hbm = .selfRefresh) ∧
  (∀ (s : State) (p : Part), bit s.gov.parking p = true →
    ∃ t, exec (.parkDone p) s = .next t ∧ s.Only t [.top, .pwr, .gov, .fret, .rel, .relx, .chest, .mch, .tiles, .out] ∧
      t.parked p = true ∧ bit t.pwr.domains p = false ∧ t.gov = { s.gov with parking := putBit s.gov.parking p false } ∧
      ∀ pt, ptPart pt = p.val → (t.tile pt).sram = [] ∧ (t.tile pt).cur = none ∧ (t.tile pt).next = none) ∧
  (∀ (s : State) (acc : Accessor) (p : Part) (v : Word), s.mayWrite acc = true → s.passed 0 = true →
    (v.setWidth 16 : BitVec 16) = BitVec.twoPow 16 p → s.parked p = true →
    ∃ t, exec (.pwrWake acc false v) s = .next t ∧ s.Only t [.top, .pwr, .fret, .chest, .out] ∧
      t.parked p = false ∧ t.waking p = true ∧ bit t.pwr.domains p = true) ∧
  (∀ (s : State) (acc : Accessor) (v : Word), s.mayWrite acc = true → s.passed 0 = true → s.pwr.parked = 0 →
    exec (.pwrWake acc true v) s = .next { s with pwr := { s.pwr with allow := v.setWidth 16 } }) ∧
  (∀ (s : State) (p : Part) (failed : List (Pt × BitVec 4)), s.waking p = true →
    ∃ t, exec (.wakeDone p failed) s = .next t ∧
      s.Only t [.flash, .top, .pwr, .bist, .heal, .healx, .relx, .chest, .parts, .tiles, .out] ∧
      t.pwr = { s.pwr with waking := putBit s.pwr.waking p false } ∧ (t.part p).hbm = .active ∧
      (failed = [] → ∀ pt, t.role pt = s.role pt)) ∧
  (∀ (s : State) (rail : Fin 18) (events : Nat) (raise : Bool),
    exec (.droopEvent rail events raise true) s = .next { s with pwr := { s.pwr with
      events := satAdd s.pwr.events events, critical := satAdd s.pwr.critical 1
      guards := Tab.put s.pwr.guards rail 12 } }) ∧
  (∀ (s : State) (rail : Fin 18) (events : Nat),
    exec (.droopEvent rail events true false) s = .next { s with pwr := { s.pwr with
      events := satAdd s.pwr.events events, guards := Tab.put s.pwr.guards rail (min 12 (s.guardBand rail + 1)) } }) ∧
  (∀ (s : State) (rail : Fin 18),
    exec (.guardBandLower rail) s = .next { s with pwr := { s.pwr with
      guards := Tab.put s.pwr.guards rail (s.guardBand rail - 1) } }) ∧
  (∀ (s : State) (n : Nat) (g : Peg), s.flash.pegs[n]? = some g →
    (g.retune = true ∨ (g.final = false ∧ s.loadClass = 2)) → s.anyTask = false →
    g.kind ≠ 1 →
    exec (.pegRetune n true) s = .next { s with flash := { s.flash with
      pegs := s.flash.pegs.set n { g with final := true, load := 2, temp := s.hottest, retune := false } } } ∧
    exec (.pegRetune n false) s = .next { s with
      flash := { s.flash with pegs := s.flash.pegs.set n { g with retune := false } }
      pwr := { s.pwr with pegFail := true } }) ∧
  (∀ (s : State) (acc : Accessor) (v : Word), s.mayWrite acc = true → s.passed 0 = true →
    exec (.pegRetuneAll acc v) s = .next { s with
      pwr := { s.pwr with pegFail := s.pwr.pegFail && !bit v 29 }
      flash := { s.flash with pegs := s.flash.pegs.map fun g => { g with retune := true } } }) ∧
  (∀ (s : State) (p : Part) (idleMs : Nat), s.tasksIn p ≠ [] ∨
    (idleMs < max 1 s.pwr.parkIdle.toNat ∧ s.pwr.overBudget = false) → exec (.governorPark p idleMs) s = .next s) ∧
  (∀ (s : State) (acc : Accessor) (p : Part) (v : Word), s.mayWrite acc = true → s.passed 0 = true →
    (v.setWidth 16 : BitVec 16) = BitVec.twoPow 16 p → s.mayPark p = false → exec (.pwrParkNow acc v) s = .next s) ∧
  (∀ (s : State) (acc : Accessor) (v : Word), s.mayWrite acc = true → s.passed 0 = true → s.pwr.parked = 0 →
    exec (.pwrWake acc false v) s = .next s) ∧
  (∀ (s : State) (acc : Accessor) (v : Word) (b : Bool), s.mayWrite acc = false → s.passed 0 = true →
    exec (.pwrParkNow acc v) s = .next { s with top := { s.top with denied := satAdd s.top.denied 1 } } ∧
    exec (.pwrWake acc b v) s = .next { s with top := { s.top with denied := satAdd s.top.denied 1 } } ∧
    exec (.pegRetuneAll acc v) s = .next { s with top := { s.top with denied := satAdd s.top.denied 1 } }) ∧
  (∀ (s : State) (p : Part), bit s.gov.parking p = false → exec (.parkDone p) s = .next s) ∧
  (∀ (s : State) (p : Part) (failed : List (Pt × BitVec 4)), s.waking p = false → exec (.wakeDone p failed) s = .next s) ∧
  (∀ (s : State) (p : Part) (pt : Pt) (u : BitVec 4), s.waking p = true → ptPart pt = p.val → (s.role pt).role ≠ .fenced →
    s.partMode p ≠ .reset →
    ∃ t, exec (.wakeDone p [(pt, u)]) s = .next t ∧
      s.Only t [.flash, .top, .pwr, .bist, .heal, .healx, .relx, .chest, .parts, .tiles, .out] ∧
      (t.role pt).role = .fenced ∧ (t.part p).hbm = .active) ∧
  (∀ (s : State) (rail : Fin 18) (events : Nat),
    exec (.droopEvent rail events false false) s = .next { s with pwr := { s.pwr with
      events := satAdd s.pwr.events events, guards := Tab.put s.pwr.guards rail (s.guardBand rail) } }) ∧
  (∀ (s : State) (n : Nat) (better : Bool), s.flash.pegs.length ≤ n → exec (.pegRetune n better) s = .next s) ∧
  (∀ (s : State) (n : Nat) (better : Bool) (g : Peg), s.flash.pegs[n]? = some g →
    ((g.retune = false ∧ (g.final = true ∨ s.loadClass ≠ 2)) ∨ (g.kind ≠ 1 ∧ s.anyTask = true) ∨
      (g.kind = 1 ∧ (s.tasksIn (g.index / 16) ≠ [] ∨ s.memoryInUse (g.index / 16) = true))) →
    exec (.pegRetune n better) s = .next s)

/-- The order in which a channel controller starts requests (05 R266, R267): with no scheduled request queued, the oldest
unscheduled one and otherwise the oldest speculative one; an endangered head of the scheduled queue goes first; and where no
row is open and no unscheduled request has waited 256 frets, the head of the scheduled queue. -/
def Obligations.ControllersChooseByDeadline : Prop :=
  (∀ (s : State) (p pc cycle : Nat) (hits : List Nat) (u : HbmReq) (us : List HbmReq), s.schedOrder p pc = [] →
    ((s.part p).queue.filter fun r => decide (r.pc = pc) && decide (r.cls = .unscheduled)) = u :: us →
    s.arbitrate p pc cycle hits = (some u, false)) ∧
  (∀ (s : State) (p pc cycle : Nat) (hits : List Nat), s.schedOrder p pc = [] →
    ((s.part p).queue.filter fun r => decide (r.pc = pc) && decide (r.cls = .unscheduled)) = [] →
    s.arbitrate p pc cycle hits =
      (((s.part p).queue.filter fun r => decide (r.pc = pc) && decide (r.cls = .speculative)).head?, false)) ∧
  (∀ (s : State) (p pc cycle : Nat) (hits : List Nat) (h : HbmReq) (q : List HbmReq), s.schedOrder p pc = h :: q →
    s.endangered p cycle 0 (h :: q) = true → s.arbitrate p pc cycle hits = (some h, true)) ∧
  (∀ (s : State) (p pc cycle : Nat) (h : HbmReq) (q : List HbmReq), s.schedOrder p pc = h :: q →
    s.endangered p cycle 0 (h :: q) = false →
    (∀ r ∈ (s.part p).queue, r.pc = pc → r.cls = .unscheduled → s.now < r.arrived + 256) →
    s.arbitrate p pc cycle [] = (some h, false)) ∧
  (∀ (s : State) (p pc cycle : Nat) (hits : List Nat) (r : HbmReq), s.schedOrder p pc ≠ [] →
    (s.arbitrate p pc cycle hits).1 = some r → r.cls ≠ .speculative)

/-- What a channel controller does, from 05 R234, R238, R241 to R245, R257, R261 to R263, R265, R290, R291 and 02 R107: a write started is in
memory, with a good check in every sector but those whose parity was wrong, which are poisoned; a read started carries the bytes as
stored and names the sectors found uncorrectable; an endangered request counts a risk; a controller that is not in service, or has
nothing queued, starts nothing; the data of a read lands in the tile memory of its drawer; the last acknowledgement frees a write
drawer; a refresh puts off nothing but itself; a scrub queues the read of its sector's request, or waits for an entry; completions of
requests that are not under way change nothing. -/
def Obligations.ControllersServeRequests : Prop :=
  (∀ (s : State) (p : Part) (pc : Fin 32) (cycle : Nat) (hits : List Nat) (wrong : List (Fin 8)) (errs : List (Fin 8 × BitErr)),
    s.hbmUp p = false → exec (.hbmRequestStart p pc cycle hits false ⟨wrong, errs⟩) s = .next s) ∧
  (∀ (s : State) (p : Part) (pc : Fin 32) (cycle : Nat) (hits : List Nat) (wrong : List (Fin 8)) (errs : List (Fin 8 × BitErr)),
    s.arbitrate p pc cycle hits = (none, false) → exec (.hbmRequestStart p pc cycle hits false ⟨wrong, errs⟩) s = .next s) ∧
  (∀ (s : State) (p : Part) (pc : Fin 32) (cycle : Nat) (hits : List Nat) (r : HbmReq) (wrong : List (Fin 8))
    (errs : List (Fin 8 × BitErr)), s.hbmUp p = true → s.arbitrate p pc cycle hits = (some r, false) → r.write = true →
    r.wrong = [] →
    ∃ t, exec (.hbmRequestStart p pc cycle hits false ⟨wrong, errs⟩) s = .next t ∧
      s.Only t [.top, .rel, .chest, .hbm, .parts, .tasks, .out] ∧
      (∀ j, t.hbmByte j = if r.addr + r.off ≤ j ∧ j < r.addr + r.off + r.data.length then r.data.getD (j - (r.addr + r.off)) 0
        else s.hbmByte j) ∧
      (∀ sec ∈ sectorsOf (r.addr + r.off) r.data.length, t.sectorErr sec =
        if (wrong.map (·.val)).contains (sec - r.addr / 32) then some .poison else none) ∧
      r ∈ (t.part p).started ∧ (wrong = [] → s.Only t [.hbm, .parts])) ∧
  (∀ (s : State) (p : Part) (pc : Fin 32) (cycle : Nat) (hits : List Nat) (r : HbmReq) (wrong : List (Fin 8)), s.hbmUp p = true →
    s.arbitrate p pc cycle hits = (some r, false) → r.write = false →
    ∃ t, exec (.hbmRequestStart p pc cycle hits false ⟨wrong, []⟩) s = .next t ∧
      s.Only t [.top, .rel, .chest, .hbm, .parts, .out] ∧ (∀ j, t.hbmByte j = s.hbmByte j) ∧
      ∃ x ∈ (t.part p).started, x.id = r.id ∧ x.data = s.hbmBytes r.addr 256) ∧
  (∀ (s : State) (p : Part) (pc : Fin 32) (cycle : Nat) (hits : List Nat) (r : HbmReq) (wrong : List (Fin 8)) (i : Fin 8),
    s.hbmUp p = true → s.arbitrate p pc cycle hits = (some r, false) → r.write = false →
    ∃ t, exec (.hbmRequestStart p pc cycle hits false ⟨wrong, [(i, .two)]⟩) s = .next t ∧
      s.Only t [.top, .rel, .chest, .hbm, .parts, .out] ∧
      ∃ x ∈ (t.part p).started, x.id = r.id ∧ x.data = s.hbmBytes r.addr 256 ∧ (r.addr / 32 + i.val) ∈ x.bad) ∧
  (∀ (s : State) (p : Part) (pc : Fin 32) (cycle : Nat) (hits : List Nat) (r : HbmReq), s.hbmUp p = true →
    s.arbitrate p pc cycle hits = (some r, true) → r.write = true → r.wrong = [] →
    ∃ t, exec (.hbmRequestStart p pc cycle hits false ⟨[], []⟩) s = .next t ∧ s.Only t [.tel, .hbm, .parts] ∧
      (t.part p).risk = satAdd (s.part p).risk 1 ∧ t.tel.cnt.risk = s.tel.cnt.risk + 1 ∧ r ∈ (t.part p).started) ∧
  (∀ (s : State) (p : Part) (pc : Fin 32) (cycle : Nat) (hits : List Nat) (wrong : List (Fin 8)) (errs : List (Fin 8 × BitErr)),
    s.hbmUp p = true → exec (.hbmRequestStart p pc cycle hits true ⟨wrong, errs⟩) s = .next (s.updPart p fun q =>
      { q with lastRefresh := Tab.put q.lastRefresh pc s.ticks })) ∧
  (∀ (s : State) (p : Part) (req : Nat) (r : HbmReq) (key k j : Nat) (u : StreamUse) (d : DrawerRt),
    ((s.part p).started.find? fun r => decide (r.id = req) && !r.write) = some r → r.who = .drawer key k j →
    (s.ctx key).use? = some u → (s.ctx key).drawer? k = some d → (s.ctx key).state = .active →
    s.tileInReset (s.ptOf (useLt key u)) = false →
    ∃ t, exec (.hbmReadComplete p req) s = .next t ∧ s.Only t [.tel, .hbm, .parts, .cluss, .tiles, .ctxs] ∧
      (∀ a, t.hbmByte a = s.hbmByte a) ∧ (∀ x ∈ (t.part p).started, x.id ≠ req) ∧
      (t.tile (s.ptOf (useLt key u))).sram = Mem.writeZ (s.tile (s.ptOf (useLt key u))).sram (u.base k + 256 * j) r.data) ∧
  (∀ (s : State) (p : Part) (req : Nat), ((s.part p).started.find? fun r => decide (r.id = req) && !r.write) = none →
    exec (.hbmReadComplete p req) s = .next s) ∧
  (∀ (s : State) (p : Part) (req : Nat) (r : HbmReq) (key k j : Nat),
    ((s.part p).started.find? fun r => decide (r.id = req) && r.write) = some r → r.who = .drawer key k j →
    (∀ d ∈ (s.ctx key).drawers, d.k = k → d.due = true ∧ d.want ≤ d.acked + 1) →
    ∃ t, exec (.hbmWriteAck p req) s = .next t ∧ s.Only t [.tel, .hbm, .parts, .cluss, .ctxs] ∧
      (∀ a, t.hbmByte a = s.hbmByte a) ∧ (∀ x ∈ (t.part p).started, x.id ≠ req) ∧ (t.ctx key).drawer? k = none) ∧
  (∀ (s : State) (p : Part) (req : Nat), ((s.part p).started.find? fun r => decide (r.id = req) && r.write) = none →
    exec (.hbmWriteAck p req) s = .next s) ∧
  (∀ (s : State) (p : Part) (pc : Fin 32) (hot : Bool), (s.part p).hbm = .active →
    exec (.hbmRefresh p pc hot) s = .next (s.updPart p fun q =>
      { q with lastRefresh := Tab.put q.lastRefresh pc s.ticks, refresh2x := hot })) ∧
  (∀ (s : State) (p : Part) (pc : Fin 32) (hot : Bool), (s.part p).hbm ≠ .active → exec (.hbmRefresh p pc hot) s = .next s) ∧
  (∀ (s : State) (p : Part) (sector : Nat), s.hbmUp p = true → (s.part p).scrubH ≠ 0 → sector * 32 < 0x900000000 →
    (s.part p).backlog = [] →
    ∃ t, exec (.hbmScrub p sector) s = .next t ∧ s.Only t [.hbm, .parts] ∧ (t.part p).lastScrub = some sector ∧
      (∀ a, t.hbmByte a = s.hbmByte a) ∧
      ((s.part p).chanOut (pcOf (p.val * 2 ^ 36 + sector * 32) / 2) < 192 →
        (t.part p).queue = (s.part p).queue ++ [{
          id := s.hbm.nextReq, pc := pcOf (p.val * 2 ^ 36 + sector * 32), addr := unit256 (p.val * 2 ^ 36 + sector * 32)
          write := false, data := [], cls := .unscheduled, deadline := 0, arrived := s.now, who := .scrub }]) ∧
      (192 ≤ (s.part p).chanOut (pcOf (p.val * 2 ^ 36 + sector * 32) / 2) →
        (t.part p).queue = (s.part p).queue ∧ (t.part p).backlog.length = 1)) ∧
  (∀ (s : State) (p : Part) (sector : Nat), s.hbmUp p = false ∨ (s.part p).scrubH = 0 ∨ 0x900000000 ≤ sector * 32 →
    exec (.hbmScrub p sector) s = .next s)

/-- Life cycle, identity and operator keys, from 14 R662 to R665, R670, R671, R678, R679, R689: the owner port's keyed request of an allowed
transition is accepted in TEST and PROVISION, and its fuses are written before an orderly system reset; one that is not allowed, or that
follows one accepted, sets req_err, and one without the key does nothing; one generate blows the secret and publishes the key; operator
slots are written and erased in PROVISION by the owner port, with a key whose OID is known, and from a port in no other state; END
destroys the secret, the seeds and the operator keys; a port without the token is denied. The OID values are the model's choice (log
entry 38). -/
def Obligations.LifeCycleAndKeysMove : Prop :=
  (∀ (s : State) (p : HostPort) (v : Word) (x : LifeCycle), s.holdsToken p = true → s.passed 1 = true →
    v.extractLsb' 16 16 = (0x4C43 : BitVec 16) → (s.sec.lc = .test ∨ s.sec.lc = .provision) → s.sec.lcPending = none →
    s.transition (v.extractLsb' 0 3 : BitVec 3).toNat = some x →
    exec (.lcTransitionRequest p.accessor v) s = .next { s with
      sec := { s.sec with lcPending := some (x.code, match p with | .a => 9 | .b => 10) } }) ∧
  (∀ (s : State) (p : HostPort) (v : Word), s.holdsToken p = true → s.passed 1 = true →
    v.extractLsb' 16 16 = (0x4C43 : BitVec 16) → (s.sec.lc = .test ∨ s.sec.lc = .provision) →
    s.transition (v.extractLsb' 0 3 : BitVec 3).toNat = none →
    exec (.lcTransitionRequest p.accessor v) s = .next { s with sec := { s.sec with reqErr := true } }) ∧
  (∀ (s : State) (p : HostPort) (v : Word), s.holdsToken p = true → s.passed 1 = true →
    (v.extractLsb' 16 16 ≠ (0x4C43 : BitVec 16) ∨ s.sec.lc = .field ∨ s.sec.lc = .ret) →
    exec (.lcTransitionRequest p.accessor v) s = .next s) ∧
  (∀ (s : State) (src : BitVec 4) (n : Nat), s.sec.lcPending = some (n, src) → n < 4 → s.resetLevel = none →
    ∃ t, exec .lcFuseWriteDone s = .next t ∧ s.Only t [.fuse, .sec, .rstc, .chest, .tasks] ∧ s.AllAborted t ∧
      t.fuse = { s.fuse with lc := LifeCycle.ofCode n, trips := if n = 3 then s.fuse.trips + 1 else s.fuse.trips } ∧
      t.sec.lcPending = none ∧ t.flash.opKeys = s.flash.opKeys ∧ ∃ o, t.rstc.orderly = some o ∧ o.level = .system ∧ o.src = src) ∧
  (∀ (s : State) (src : BitVec 4), s.sec.lcPending = some (4, src) → s.resetLevel = none →
    ∃ t, exec .lcFuseWriteDone s = .next t ∧ s.Only t [.fuse, .flash, .ids, .sec, .rstc, .chest, .tasks] ∧
      t.fuse = { s.fuse with lc := .final, secret := some (BitVec.allOnes 512) } ∧
      t.flash.opKeys = [] ∧ t.sec.cache = [] ∧ t.ids.seeds = none) ∧
  (∀ (s : State) (p : HostPort) (v : Word), s.holdsToken p = true → s.passed 1 = true → s.sec.lc = .provision →
    s.ids.state = .none →
    exec (.idGenerate p.accessor v) s = .next { s with ids := { s.ids with state := .generating } }) ∧
  (∀ (s : State) (p : HostPort) (v : Word), s.holdsToken p = true → s.passed 1 = true →
    (s.sec.lc ≠ .provision ∨ s.ids.state ≠ .none) → exec (.idGenerate p.accessor v) s = .next s) ∧
  (∀ (s : State) (secret : BitVec 512), s.ids.state = .generating →
    exec (.idGenerateDone secret) s = .next { s with
      fuse := { s.fuse with secret := some secret }
      ids := { s.ids with state := .ready, pub := publicKey (deriveSeeds secret), seeds := some (deriveSeeds secret) } }) ∧
  (∀ (s : State) (p : HostPort) (v : Word) (c : BitVec 3), s.holdsToken p = true → s.passed 1 = true →
    s.sec.lc = .provision → opkSet (BitVec.ofNat 544 (leVal (s.sec.staged.flatMap fun x => leBytes 4 x.toNat))) = some c →
    bit v 28 = false →
    ∃ t, exec (.opkWrite p.accessor v) s = .next t ∧ s.Only t [.flash, .sec] ∧
      Tab.find t.flash.opKeys (s.sec.opkSel.get p.accessor).toNat =
        some (c, BitVec.ofNat 544 (leVal (s.sec.staged.flatMap fun x => leBytes 4 x.toNat)), 0) ∧
      Tab.find t.sec.cache (s.sec.opkSel.get p.accessor).toNat = Tab.find t.flash.opKeys (s.sec.opkSel.get p.accessor).toNat ∧
      ∀ k, k ≠ (s.sec.opkSel.get p.accessor).toNat → Tab.find t.flash.opKeys k = Tab.find s.flash.opKeys k) ∧
  (∀ (s : State) (p : HostPort) (v : Word), s.holdsToken p = true → s.passed 1 = true → s.sec.lc = .provision →
    bit v 28 = false →
    ∃ t, exec (.opkErase p.accessor v) s = .next t ∧ s.Only t [.flash, .sec] ∧
      Tab.find t.flash.opKeys (s.sec.opkSel.get p.accessor).toNat = none ∧
      Tab.find t.sec.cache (s.sec.opkSel.get p.accessor).toNat = none ∧ t.sec.opkErr = s.sec.opkErr) ∧
  (∀ (s : State) (p : HostPort) (v : Word), s.holdsToken p = true → s.passed 1 = true →
    (s.sec.lc = .test ∨ s.sec.lc = .field ∨ s.sec.lc = .ret ∨ s.sec.lc = .final) →
    exec (.opkWrite p.accessor v) s = .next { s with sec := { s.sec with opkErr := true } } ∧
    exec (.opkErase p.accessor v) s = .next { s with sec := { s.sec with opkErr := true } }) ∧
  (∀ (s : State), s.sec.lcPending = none → exec .lcFuseWriteDone s = .next s) ∧
  (∀ (s : State) (p : HostPort) (v : Word), s.holdsToken p = true → s.passed 1 = true →
    v.extractLsb' 16 16 = (0x4C43 : BitVec 16) →
    (s.sec.lc = .final ∨ ((s.sec.lc = .test ∨ s.sec.lc = .provision) ∧ s.sec.lcPending.isSome = true)) →
    exec (.lcTransitionRequest p.accessor v) s = .next { s with sec := { s.sec with reqErr := true } }) ∧
  (∀ (s : State) (secret : BitVec 512), s.ids.state ≠ .generating → exec (.idGenerateDone secret) s = .next s) ∧
  (∀ (s : State) (p : HostPort) (v : Word), s.holdsToken p = true → s.passed 1 = true →
    opkSet (BitVec.ofNat 544 (leVal (s.sec.staged.flatMap fun x => leBytes 4 x.toNat))) = none →
    exec (.opkWrite p.accessor v) s = .next { s with sec := { s.sec with opkErr := true } }) ∧
  (∀ (s : State) (p : HostPort) (v : Word), s.holdsToken p = false → s.passed 1 = true →
    exec (.lcTransitionRequest p.accessor v) s = .next { s with top := { s.top with denied := satAdd s.top.denied 1 } } ∧
    exec (.idGenerate p.accessor v) s = .next { s with top := { s.top with denied := satAdd s.top.denied 1 } } ∧
    exec (.opkWrite p.accessor v) s = .next { s with top := { s.top with denied := satAdd s.top.denied 1 } } ∧
    exec (.opkErase p.accessor v) s = .next { s with top := { s.top with denied := satAdd s.top.denied 1 } }) ∧
  (∀ (s : State) (v : Word), s.passed 1 = true → exec (.idGenerate .mc v) s = .next s)

/-- Signatures and quotes, from 14 R672 to R677, R683, R684, R689: a request joins the queue, or has no effect with the queue full or no key,
and the first reserves a leaf block where none is held, with the leaf counter moved on, or stops where the counter cannot be written; a
signature uses the next leaf in ascending order, and the last leaf of a block ends it; a reply and a quote over the management ports leave
as datagrams; with no leaf nothing is sent; a quote request says why it fails, one while a quote is made has no effect, and a quote done
is in the window with its signature. That last effect of a request while a quote is made is the model's choice (log entry 39). -/
def Obligations.SignaturesUseLeavesInOrder : Prop :=
  (∀ (s : State) (msg : List Byte), s.ids.state = .ready → s.ids.queue.length < 16 →
    ∃ t, exec (.signRequest msg) s = .next t ∧ s.Only t [.flash, .ids] ∧ t.ids.queue = s.ids.queue ++ [.plain msg] ∧
      t.ids.signCnt = s.ids.signCnt) ∧
  (∀ (s : State) (msg : List Byte), s.ids.state = .ready → s.ids.queue = [] → s.ids.held = false → s.ids.ctrStop = false →
    s.ids.blocks.toNat < 2 ^ 28 → s.flash.ctrOk = true →
    ∃ t, exec (.signRequest msg) s = .next t ∧ s.Only t [.flash, .ids] ∧ t.flash = { s.flash with leafCounter := s.flash.leafCounter + 1 } ∧
      t.ids.held = true ∧ t.ids.leaf = BitVec.ofNat 40 (s.ids.blocks.toNat * 4096) ∧ t.ids.blocks = s.ids.blocks + 1 ∧
      t.ids.low = decide (2 ^ 28 - (s.ids.blocks + 1).toNat < 2 ^ 20)) ∧
  (∀ (s : State) (msg : List Byte), s.ids.state = .ready → s.ids.queue = [] → s.ids.held = false → s.ids.ctrStop = false →
    s.ids.blocks.toNat < 2 ^ 28 → s.flash.ctrOk = false →
    ∃ t, exec (.signRequest msg) s = .next t ∧ s.Only t [.ids] ∧ t.ids.ctrErr = true ∧ t.ids.held = false) ∧
  (∀ (s : State) (msg : List Byte) (q : List SignFor) (k : BitVec 256 × BitVec 256 × BitVec 256),
    s.ids.queue = .plain msg :: q → s.ids.held = true → s.ids.seeds = some k → s.ids.leaf.toNat % 4096 ≠ 4095 →
    ∃ t, exec .signatureDone s = .next t ∧ s.Only t [.ids, .out] ∧
      t.out = .signed s.ids.leaf (Config.signature k.1 s.ids.leaf msg) :: s.out ∧ t.ids.queue = q ∧
      t.ids.leaf = s.ids.leaf + 1 ∧ t.ids.held = true ∧ t.ids.signCnt = satAdd s.ids.signCnt 1) ∧
  (∀ (s : State) (port : MgmtPort) (msg : List Byte) (q : List SignFor) (k : BitVec 256 × BitVec 256 × BitVec 256),
    s.ids.queue = .reply port msg :: q → s.ids.held = true → s.ids.seeds = some k →
    ∃ t, exec .signatureDone s = .next t ∧ s.Only t [.flash, .ids, .out] ∧
      t.out = .datagram port (msg ++ Config.signature k.1 s.ids.leaf msg) :: s.out ∧ t.ids.queue = q) ∧
  (∀ (s : State) (msg : List Byte), s.ids.queue = [.plain msg] → s.ids.held = false →
    exec .signatureDone s = .next { s with ids := { s.ids with queue := [] } }) ∧
  (∀ (s : State) (acc : Accessor) (v : Word), s.mayWrite acc = true → s.passed 1 = true → s.sec.quoteBusy = false →
    s.ids.state = .ready → s.ids.queue.length < 16 → s.canSign = true →
    ∃ t, exec (.quoteRequest acc v) s = .next t ∧ s.Only t [.flash, .ids, .sec] ∧
      t.sec = { s.sec with quoteBusy := true, quoteValid := false, quoteSeq := s.sec.quoteSeq + 1 } ∧
      t.ids.queue = s.ids.queue ++ [.quote none (s.sec.nonce.flatMap fun w => leBytes 4 w.toNat) s.sec.quoteSeq]) ∧
  (∀ (s : State) (acc : Accessor) (v : Word), s.mayWrite acc = true → s.passed 1 = true → s.sec.quoteBusy = false →
    s.ids.state ≠ .ready →
    exec (.quoteRequest acc v) s = .next { s with sec := { s.sec with quoteResult := 1, quoteValid := false } }) ∧
  (∀ (s : State) (acc : Accessor) (v : Word), s.mayWrite acc = true → s.passed 1 = true → s.sec.quoteBusy = false →
    s.ids.state = .ready → s.ids.queue.length < 16 → s.canSign = false →
    exec (.quoteRequest acc v) s = .next { s with sec := { s.sec with quoteResult := 2, quoteValid := false } }) ∧
  (∀ (s : State) (nonce : List Byte) (seq : BitVec 32) (q : List SignFor) (k : BitVec 256 × BitVec 256 × BitVec 256),
    s.ids.queue = .quote none nonce seq :: q → s.ids.held = true → s.ids.seeds = some k →
    ∃ t, exec .quoteDone s = .next t ∧ s.Only t [.flash, .ids, .sec] ∧ t.ids.queue = q ∧
      t.sec = { s.sec with
        quoteBusy := false, quoteValid := true, quoteResult := 0
        quote := s.quoteBytes nonce seq ++ Config.signature k.1 s.ids.leaf (s.quoteBytes nonce seq) }) ∧
  (∀ (s : State) (nonce : List Byte) (seq : BitVec 32), s.ids.queue = [.quote none nonce seq] → s.ids.held = false →
    exec .quoteDone s = .next { s with
      ids := { s.ids with queue := [] }, sec := { s.sec with quoteBusy := false, quoteResult := 2 } }) ∧
  (∀ (s : State) (msg : List Byte), s.ids.state ≠ .ready ∨ 16 ≤ s.ids.queue.length → exec (.signRequest msg) s = .next s) ∧
  (∀ (s : State) (msg : List Byte) (k : BitVec 256 × BitVec 256 × BitVec 256),
    s.ids.queue = [.plain msg] → s.ids.held = true → s.ids.seeds = some k → s.ids.leaf.toNat % 4096 = 4095 →
    ∃ t, exec .signatureDone s = .next t ∧ s.Only t [.ids, .out] ∧ t.ids.held = false ∧ t.ids.queue = [] ∧
      t.out = .signed s.ids.leaf (Config.signature k.1 s.ids.leaf msg) :: s.out) ∧
  (∀ (s : State) (port : MgmtPort) (hdr nonce : List Byte) (seq : BitVec 32) (q : List SignFor)
    (k : BitVec 256 × BitVec 256 × BitVec 256),
    s.ids.queue = .quote (some (port, hdr)) nonce seq :: q → s.ids.held = true → s.ids.seeds = some k →
    ∃ t, exec .signatureDone s = .next t ∧ s.Only t [.flash, .ids, .out] ∧ t.ids.queue = q ∧
      t.out = .datagram port (hdr ++ s.quoteBytes nonce seq ++
        Config.signature k.1 s.ids.leaf (s.quoteBytes nonce seq)) :: s.out) ∧
  (∀ (s : State), s.ids.queue = [] → exec .signatureDone s = .next s ∧ exec .quoteDone s = .next s) ∧
  (∀ (s : State) (nonce : List Byte) (seq : BitVec 32) (q : List SignFor), s.ids.queue = .quote none nonce seq :: q →
    exec .signatureDone s = .next s) ∧
  (∀ (s : State) (msg : List Byte) (q : List SignFor), s.ids.queue = .plain msg :: q → exec .quoteDone s = .next s) ∧
  (∀ (s : State) (acc : Accessor) (v : Word), s.mayWrite acc = true → s.passed 1 = true → s.sec.quoteBusy = true →
    exec (.quoteRequest acc v) s = .next s) ∧
  (∀ (s : State) (acc : Accessor) (v : Word), s.mayWrite acc = true → s.passed 1 = true → s.sec.quoteBusy = false →
    s.ids.state = .ready → 16 ≤ s.ids.queue.length →
    exec (.quoteRequest acc v) s = .next { s with sec := { s.sec with quoteResult := 4, quoteValid := false } }) ∧
  (∀ (s : State) (acc : Accessor) (v : Word), s.mayWrite acc = false → s.passed 1 = true →
    exec (.quoteRequest acc v) s = .next { s with top := { s.top with denied := satAdd s.top.denied 1 } })

/-- The TAP and scan, from 14 R685 to R688; 18 R767, R774, R775: a load of the instruction register sends the captured 0000 0001 at TDO,
least significant bit first; boundary instructions load and act as the life cycle permits, and as BYPASS in FINAL (the model's choice, log
entry 44); SAMPLE/PRELOAD sends the pins with cell 361 first; IDCODE always answers the register; an opcode that names another instruction
is no BYPASS; TRST_N leaves the TAP in reset with IDCODE; scan opens in TEST, and in RETURN and by the EB1 path in FIELD after the secrets
are cleared, in FIELD with a mark; elsewhere the opcode is loaded and nothing opens; the clear ends the held keys, the cache, the quote
and the nonce, abandons the leaf block, and opens scan. -/
def Obligations.TapInstructionsAndScan : Prop :=
  (∀ (s : State) (cells : BitVec 362), s.sec.lc ≠ .final →
    exec (.jtagExtest cells) s = .next { s with
      tap := { ir := 0x00, boundary := cells, inReset := false, drive := true, highz := false }
      out := .tdo (true :: List.replicate 7 false) :: s.out } ∧
    exec (.jtagExtestPulse cells) s = .next { s with
      tap := { ir := 0x05, boundary := cells, inReset := false, drive := true, highz := false }
      out := .tdo (true :: List.replicate 7 false) :: s.out } ∧
    exec (.jtagExtestTrain cells) s = .next { s with
      tap := { ir := 0x06, boundary := cells, inReset := false, drive := true, highz := false }
      out := .tdo (true :: List.replicate 7 false) :: s.out }) ∧
  (∀ (s : State) (pins cells : BitVec 362), s.sec.lc ≠ .final →
    exec (.jtagSamplePreload pins cells) s = .next { s with
      tap := { ir := 0x01, boundary := cells, inReset := false, drive := false, highz := false }
      out := .tdo ((List.range 362).map fun i => bit pins (361 - i)) :: .tdo (true :: List.replicate 7 false) :: s.out }) ∧
  (∀ (s : State), s.sec.lc ≠ .final →
    exec .jtagClamp s = .next { s with
      tap := { s.tap with ir := 0x03, inReset := false, drive := true, highz := false }
      out := .tdo (true :: List.replicate 7 false) :: s.out } ∧
    exec .jtagHighz s = .next { s with
      tap := { s.tap with ir := 0x04, inReset := false, drive := false, highz := true }
      out := .tdo (true :: List.replicate 7 false) :: s.out }) ∧
  (∀ (s : State),
    exec .jtagIdcode s = .next { s with
      tap := { s.tap with ir := 0x02, inReset := false, drive := false, highz := false }
      out := .tdo ((List.range 32).map fun i => bit ((s.fuse.digit.setWidth 4 : BitVec 4) ++ (0xEB02 : BitVec 16) ++
        (0x2D7 : BitVec 11) ++ (1 : BitVec 1)) i) :: .tdo (true :: List.replicate 7 false) :: s.out }) ∧
  (∀ (s : State) (op : BitVec 8), jtagNamed op = false →
    exec (.jtagBypass op) s = .next { s with
      tap := { s.tap with ir := op, inReset := false, drive := false, highz := false }
      out := .tdo (true :: List.replicate 7 false) :: s.out }) ∧
  (∀ (s : State) (op : BitVec 8), (op.toNat ≤ 6 ∨ op = 0x40 ∨ op = 0x41) → exec (.jtagBypass op) s = .next s) ∧
  (∀ (s : State) (pins cells : BitVec 362), s.sec.lc = .final →
    ∀ p ∈ [(Instr.jtagExtest cells, (0x00 : BitVec 8)), (.jtagSamplePreload pins cells, 0x01), (.jtagClamp, 0x03), (.jtagHighz, 0x04),
      (.jtagExtestPulse cells, 0x05), (.jtagExtestTrain cells, 0x06)],
      exec p.1 s = .next { s with
        tap := { s.tap with ir := p.2, inReset := false, drive := false, highz := false }
        out := .tdo (true :: List.replicate 7 false) :: s.out }) ∧
  (∀ (s : State), exec .trstNAssert s = .next { s with
    tap := { s.tap with ir := 0x02, drive := false, highz := false, inReset := true } }) ∧
  (∀ (s : State), s.rstc.sysrstLow = true → s.sec.scan = .closed → s.sec.lc = .test →
    exec .scanEn s = .next { s with
      sec := { s.sec with scan := .opened }
      tap := { s.tap with ir := 0x40, inReset := false, drive := false, highz := false }
      out := .tdo (true :: List.replicate 7 false) :: s.out }) ∧
  (∀ (s : State), s.rstc.sysrstLow = true → s.sec.scan = .closed → s.sec.lc = .ret →
    exec .scanEn s = .next { s with
      sec := { s.sec with scan := .clearing }
      tap := { s.tap with ir := 0x40, inReset := false, drive := false, highz := false }
      out := .tdo (true :: List.replicate 7 false) :: s.out }) ∧
  (∀ (s : State), (s.rstc.sysrstLow = false ∨ s.sec.scan ≠ .closed ∨ s.sec.lc = .field ∨ s.sec.lc = .provision ∨ s.sec.lc = .final) →
    exec .scanEn s = .next { s with
      tap := { s.tap with ir := 0x40, inReset := false, drive := false, highz := false }
      out := .tdo (true :: List.replicate 7 false) :: s.out }) ∧
  (∀ (s : State), s.rstc.sysrstLow = true → s.sec.scan = .closed → s.sec.lc = .field → s.fuse.eb1Off = false →
    exec .eb1Unlock s = .next { s with
      flash := { s.flash with marks := min (s.flash.marks + 1) 0xFFFF }
      sec := { s.sec with scan := .clearing }
      tap := { s.tap with ir := 0x41, inReset := false, drive := false, highz := false }
      out := .tdo (true :: List.replicate 7 false) :: s.out }) ∧
  (∀ (s : State), (s.rstc.sysrstLow = false ∨ s.sec.scan ≠ .closed ∨ s.fuse.eb1Off = true ∨ s.sec.lc ≠ .field) →
    exec .eb1Unlock s = .next { s with
      tap := { s.tap with ir := 0x41, inReset := false, drive := false, highz := false }
      out := .tdo (true :: List.replicate 7 false) :: s.out }) ∧
  (∀ (s : State), s.sec.scan = .clearing →
    exec .scanClearDone s = .next { s with
      ids := { s.ids with
        seeds := none, sessionKeys := none, state := .none, held := false, leaf := BitVec.ofNat 40 (s.ids.blocks.toNat * 4096) }
      sec := { s.sec with
        scan := .opened, cleared := 7, cache := [], quote := [], quoteValid := false, nonce := List.replicate 8 0 } }) ∧
  (∀ (s : State), s.sec.scan ≠ .clearing → exec .scanClearDone s = .next s)

/-- Window tests and ages, from 15 R696 to R698, R700, R701, R703: a test begins where the partition may be tested and none runs there; its end
moves to the next window, and after the last a sweep is complete; a window whose repeat failed is listed once, up to 4,096 entries, with a
Chest record, and more than 64 in a channel ask for retirement with cause 3; one that timed out is counted untested and tested again; a start
or end with no such test has no effect; a tick ages the tiles of powered partitions; no byte of memory changes. -/
def Obligations.WindowTestsSweepMemory : Prop :=
  (∀ (s : State) (p : Part) (pc : Fin 32), s.mayTest p = true → s.bist.testing.contains (pcKey p pc) = false →
    exec (.hbmWindowTestStart p pc) s = .next { s with bist := { s.bist with testing := s.bist.testing ++ [pcKey p pc] } }) ∧
  (∀ (s : State) (p : Part) (pc : Fin 32), s.mayTest p = false → exec (.hbmWindowTestStart p pc) s = .next s) ∧
  (∀ (s : State) (p : Part) (pc : Fin 32), s.bist.testing.contains (pcKey p pc) = true →
    Tab.get 0 s.bist.next (pcKey p pc) < 73727 →
    exec (.hbmWindowTestDone p pc false) s = .next { s with bist := { s.bist with
      testing := s.bist.testing.filter (· ≠ pcKey p pc)
      next := Tab.put s.bist.next (pcKey p pc) (Tab.get 0 s.bist.next (pcKey p pc) + 1) } }) ∧
  (∀ (s : State) (p : Part) (pc : Fin 32), s.bist.testing.contains (pcKey p pc) = true →
    Tab.get 0 s.bist.next (pcKey p pc) = 73727 →
    exec (.hbmWindowTestDone p pc false) s = .next { s with bist := { s.bist with
      testing := s.bist.testing.filter (· ≠ pcKey p pc), next := Tab.put s.bist.next (pcKey p pc) 0
      sweeps := Tab.upd 0 s.bist.sweeps (pcKey p pc) (· + 1) } }) ∧
  (∀ (s : State) (p : Part) (pc : Fin 32), s.bist.testing.contains (pcKey p pc) = true →
    ∃ t, exec (.hbmWindowTestDone p pc true) s = .next t ∧
      s.Only t [.flash, .top, .bist, .healx, .relx, .chest, .out] ∧
      t.bist.faults = if s.bist.faults.contains (faultEntry (pcKey p pc) (Tab.get 0 s.bist.next (pcKey p pc))) = true ∨
        4096 ≤ s.bist.faults.length then s.bist.faults
      else s.bist.faults ++ [faultEntry (pcKey p pc) (Tab.get 0 s.bist.next (pcKey p pc))]) ∧
  (∀ (s : State) (p : Part) (pc : Fin 32), s.bist.testing.contains (pcKey p pc) = true → s.chest.intake.length < 64 →
    (s.trig Trigger.hbm.id).enable = true →
    ∃ t, exec (.hbmWindowTestDone p pc true) s = .next t ∧ ∃ e ∈ t.chest.intake,
      e.trigger = Trigger.hbm.id ∧
      e.data = [0xFFFFFFFF, faultEntry (pcKey p pc) (Tab.get 0 s.bist.next (pcKey p pc))]) ∧
  (∀ (s : State) (p : Part) (pc : Fin 32), s.bist.testing.contains (pcKey p pc) = true →
    exec (.hbmWindowTestTimeout p pc) s = .next { s with bist := { s.bist with
      testing := s.bist.testing.filter (· ≠ pcKey p pc), untested := satAdd s.bist.untested 1 } }) ∧
  (∀ (s : State), ∃ t, exec .testAgeTick s = .next t ∧ s.Only t [.healx] ∧
    ∀ pt r, Tab.find s.healx.roles pt = some r →
      t.role pt = { r with age := if bit s.pwr.domains (ptPart pt) then r.age.map (· + 1) else r.age }) ∧
  (∀ (s : State) (p : Part) (pc : Fin 32), s.bist.testing.contains (pcKey p pc) = true →
    exec (.hbmWindowTestStart p pc) s = .next s) ∧
  (∀ (s : State) (p : Part) (pc : Fin 32) (f : Bool), s.bist.testing.contains (pcKey p pc) = false →
    exec (.hbmWindowTestDone p pc f) s = .next s ∧ exec (.hbmWindowTestTimeout p pc) s = .next s)

/-- The shut-down test, from 15 R690, R702, R704 to R706, R709, R712: a start sets the window-test fields, wakes parked partitions, and is refused
where R704 says; one while a test runs or after it halted changes the fields only (the model's choice, log entry 40). Phase 2 waits for
every wake, fences the tiles that fail, resets the age of those that pass and leaves memory undefined; the record is of kind 1 with the
fences and the fault list, the Chest is copied, and the chip halts with every partition parked and every tile stopped. A command out of
its phase has no effect. -/
def Obligations.ShutdownTestRunsItsPhases : Prop :=
  (∀ (s : State) (acc : Accessor) (v : Word), s.mayWrite acc = true → s.passed 1 = true → s.bist.state = 0 →
    s.mayShut = true → s.pwr.parked = 0 →
    exec (.shutdownTestStart acc v) s = .next { s with bist := { s.bist with
      hbmEn := bit v 16, period := v.setWidth 16, state := 1, phase := 1, fenced := 0, causeFound := false } }) ∧
  (∀ (s : State) (acc : Accessor) (v : Word), s.mayWrite acc = true → s.passed 1 = true → s.bist.state = 0 →
    s.mayShut = false →
    exec (.shutdownTestStart acc v) s = .next { s with bist := { s.bist with
      hbmEn := bit v 16, period := v.setWidth 16, refused := true } }) ∧
  (∀ (s : State) (failed : List (Pt × BitVec 4)) (windows : List Word), s.bist.state = 1 → s.bist.phase.toNat ≤ 2 →
    s.pwr.waking = 0 →
    ∃ t, exec (.shutdownTestPhase failed windows) s = .next t ∧
      s.Only t [.flash, .top, .bist, .heal, .healx, .relx, .chest, .hbm, .tiles, .out] ∧ t.bist.phase = 3 ∧
      t.bist.state = 1 ∧ t.hbm.mem = [] ∧ t.hbm.epoch = s.hbm.epoch + 1 ∧
      (failed = [] → ∀ pt, pt < 2304 → (s.role pt).role ≠ .fenced → (t.role pt).age = some 0)) ∧
  (∀ (s : State), s.bist.state = 1 → s.bist.phase = 3 →
    ∃ t, exec .shutdownRecord s = .next t ∧ s.Only t [.flash, .bist, .chest] ∧ t.bist.phase = 4 ∧ t.bist.recKind = 1 ∧
      t.chest.copying.isSome = true ∧
      ∃ h ∈ t.flash.health, h.complete = true ∧ h.serial = s.fuse.serial ∧ h.applied = false ∧ h.windows = s.bist.faults ∧
        ∀ pt, pt < 2304 → (pt ∈ h.fences ↔ (s.role pt).role = .fenced)) ∧
  (∀ (s : State), s.bist.state = 1 → s.bist.phase = 4 → s.chest.copying = none →
    ∃ t, exec .shutdownHalt s = .next t ∧
      s.Only t [.top, .pwr, .gov, .fret, .bist, .rel, .relx, .chest, .mch, .parts, .tiles, .out] ∧
      t.pwr.domains = s.pwr.domains &&& 0xFF0000 ∧ t.pwr.parked = 0xFFFF ∧ t.pwr.waking = s.pwr.waking ∧
      t.bist.state = 2 ∧ t.bist.phase = 5 ∧
      (∀ p, p < 16 → (t.part p).hbm = .selfRefresh) ∧
      ∀ pt v, pt < 2304 → Tab.find s.tiles pt = some v → (t.tile pt).sram = [] ∧ (t.tile pt).running = none) ∧
  (∀ (s : State), (s.bist.state ≠ 1 ∨ s.bist.phase ≠ 3) → exec .shutdownRecord s = .next s) ∧
  (∀ (s : State), (s.bist.state ≠ 1 ∨ s.bist.phase ≠ 4 ∨ s.chest.copying.isSome = true) → exec .shutdownHalt s = .next s) ∧
  (∀ (s : State) (failed : List (Pt × BitVec 4)) (windows : List Word),
    (s.bist.state ≠ 1 ∨ 2 < s.bist.phase.toNat ∨ s.pwr.waking ≠ 0) →
    exec (.shutdownTestPhase failed windows) s = .next s) ∧
  (∀ (s : State) (acc : Accessor) (v : Word), s.mayWrite acc = true → s.passed 1 = true → v.extractLsb' 30 2 = (1 : BitVec 2) →
    s.bist.state = 0 → s.mayShut = true →
    ∃ t, exec (.shutdownTestStart acc v) s = .next t ∧ s.Only t [.top, .pwr, .fret, .bist, .chest, .out] ∧
      t.bist = { s.bist with
        hbmEn := bit v 16, period := v.setWidth 16, state := 1, phase := 1, fenced := 0, causeFound := false } ∧
      ∀ p, p < 16 → s.parked p = true → t.waking p = true ∧ t.parked p = false ∧ bit t.pwr.domains p = true) ∧
  (∀ (s : State) (acc : Accessor) (v : Word), s.mayWrite acc = true → s.passed 1 = true → s.bist.state ≠ 0 →
    exec (.shutdownTestStart acc v) s = .next { s with bist := { s.bist with hbmEn := bit v 16, period := v.setWidth 16 } }) ∧
  (∀ (s : State) (acc : Accessor) (v : Word), s.mayWrite acc = false → s.passed 1 = true →
    exec (.shutdownTestStart acc v) s = .next { s with top := { s.top with denied := satAdd s.top.denied 1 } }) ∧
  (∀ (s : State) (acc : Accessor) (v : Word), s.passed 1 = false → exec (.shutdownTestStart acc v) s = .next s)

/-- The Chest, from 16 R717, R720 to R722, R724 to R726: once BU0 has passed, the oldest waiting record of the half whose record completes
next (the half that has one waiting; of two halves with one a free value says which, log entry 66) is placed with its entries read then
(all ones from the first entry whose domain a reset took before), in the Keep area while it fits and in the Circle, which keeps whole
records; a fatal one raises attention and asks for a copy; with none waiting, or before BU0 has passed, a placing has no effect; a copy of
the whole Chest runs into one slot, a further request marks one more, a done copy is valid and a marked one then starts; with
THERMTRIP_N low the POR follows the last. A copy asked for a reason outside 1 to 4, or done with none running, has no effect. -/
def Obligations.ChestPlacesAndCopies : Prop :=
  (∀ (s : State) (pre post : List ChestRec) (r : ChestRec), s.passed 0 = true → s.chest.intake = pre ++ r :: post →
    (∀ x ∈ pre, x.east ≠ s.nextHalf.1) → r.east = s.nextHalf.1 → r.fatal = false →
    ∃ t, exec .chestRecordPlace s = .next t ∧ s.Only t [.chest, .free] ∧ t.chest.intake = pre ++ post ∧
      t.chest.next = s.chest.next + 1 ∧ t.chest.epoch = s.chest.epoch ∧ t.chest.lost = s.chest.lost ∧
      t.chest.copying = s.chest.copying ∧ t.chest.marked = s.chest.marked ∧
      (s.chest.closed = false → s.chest.keepLen + (r.bytes (s.nextHalf.2.snaps r) s.chest.next s.chest.epoch).length ≤ 0x10000 →
        t.chest.keep = Mem.writeZ s.chest.keep s.chest.keepLen (r.bytes (s.nextHalf.2.snaps r) s.chest.next s.chest.epoch) ∧
        t.chest.keepLen = s.chest.keepLen + (r.bytes (s.nextHalf.2.snaps r) s.chest.next s.chest.epoch).length ∧ t.chest.closed = false) ∧
      ((s.chest.closed = true ∨ 0x10000 < s.chest.keepLen + (r.bytes (s.nextHalf.2.snaps r) s.chest.next s.chest.epoch).length) →
        t.chest.keep = s.chest.keep ∧ t.chest.keepLen = s.chest.keepLen ∧ t.chest.closed = true) ∧
      t.chest.pos = (s.chest.pos + (r.bytes (s.nextHalf.2.snaps r) s.chest.next s.chest.epoch).length) % 0x40000 ∧
      (s.chest.lens.foldl (· + ·) 0 + (r.bytes (s.nextHalf.2.snaps r) s.chest.next s.chest.epoch).length ≤ 0x40000 →
        t.chest.lens = s.chest.lens ++ [(r.bytes (s.nextHalf.2.snaps r) s.chest.next s.chest.epoch).length] ∧ t.chest.old = s.chest.old ∧ t.chest.oldPos = s.chest.oldPos) ∧
      ((r.bytes (s.nextHalf.2.snaps r) s.chest.next s.chest.epoch).length ≤ 0x40000 → t.chest.lens.foldl (· + ·) 0 ≤ 0x40000) ∧
      (s.chest.pos + (r.bytes (s.nextHalf.2.snaps r) s.chest.next s.chest.epoch).length ≤ 0x40000 →
        t.chest.circle = Mem.writeZ s.chest.circle s.chest.pos (r.bytes (s.nextHalf.2.snaps r) s.chest.next s.chest.epoch))) ∧
  (∀ (s : State) (r : ChestRec) (k i off : Nat), r.cut = some k → r.offs[i]? = some off →
    (s.snaps r)[i]? = some (off, if k ≤ i then 0xFFFFFFFF else s.snap r.unit off)) ∧
  (∀ (s : State) (r : ChestRec) (i off : Nat), r.cut = none → r.offs[i]? = some off →
    (s.snaps r)[i]? = some (off, s.snap r.unit off)) ∧
  (∀ (s : State) (pre post : List ChestRec) (r : ChestRec), s.passed 0 = true → s.chest.intake = pre ++ r :: post →
    (∀ x ∈ pre, x.east ≠ s.nextHalf.1) → r.east = s.nextHalf.1 → r.fatal = true →
    ∃ t, exec .chestRecordPlace s = .next t ∧ s.Only t [.flash, .top, .chest, .out, .free] ∧ t.chest.intake = pre ++ post ∧
      t.chest.next = s.chest.next + 1 ∧ t.chest.copying.isSome = true ∧ bit (t.top.cause.get .a) 9 = true ∧
      bit (t.top.cause.get .b) 9 = true) ∧
  (∀ (s : State) (e : Bool), s.chest.intake ≠ [] → (∀ x ∈ s.chest.intake, x.east = e) → s.nextHalf = (e, s)) ∧
  (∀ (s : State), (s.passed 0 = false ∨ s.chest.intake = []) → exec .chestRecordPlace s = .next s) ∧
  (∀ (s : State) (reason : BitVec 8), (reason.toNat = 0 ∨ 4 < reason.toNat) → exec (.chestCopyStart reason) s = .next s) ∧
  (∀ (s : State), s.chest.copying = none → exec .chestCopyDone s = .next s) ∧
  (∀ (s : State) (reason m : BitVec 8) (slot : Nat), s.chest.copying = some (reason, slot) → s.chest.marked = some m →
    ∃ t, exec .chestCopyDone s = .next t ∧ s.Only t [.flash, .chest] ∧ t.chest.marked = none ∧ t.chest.reason = reason ∧
      t.chest.slot = BitVec.ofNat 2 slot ∧ t.chest.count = satAdd s.chest.count 1 ∧ ∃ n, t.chest.copying = some (m, n)) ∧
  (∀ (s : State) (reason : BitVec 8), 1 ≤ reason.toNat → reason.toNat ≤ 4 → s.chest.copying = none →
    ∃ t, exec (.chestCopyStart reason) s = .next t ∧ s.Only t [.flash, .chest] ∧
      t.chest = { s.chest with copying := some (reason, s.copySlot) } ∧
      (s.copySlot < s.flash.chest.length → ∃ x, t.flash.chest[s.copySlot]? = some x ∧ x.valid = false ∧ x.serial = s.fuse.serial ∧
        x.keep = s.chest.keep ∧ x.circle = s.chest.circle ∧ x.next = s.chest.next ∧ ∀ y ∈ s.flash.chest, y.gen < x.gen) ∧
      ∀ i, i ≠ s.copySlot → t.flash.chest[i]? = s.flash.chest[i]?) ∧
  (∀ (s : State) (reason : BitVec 8), 1 ≤ reason.toNat → reason.toNat ≤ 4 → s.chest.copying.isSome = true →
    exec (.chestCopyStart reason) s = .next { s with
      chest := { s.chest with marked := some (s.chest.marked.getD reason) } }) ∧
  (∀ (s : State) (reason : BitVec 8) (slot : Nat), s.chest.copying = some (reason, slot) → s.chest.marked = none →
    s.gov.thermtrip = false →
    exec .chestCopyDone s = .next { s with
      flash := { s.flash with chest := listUpd s.flash.chest slot fun x => { x with valid := true } }
      chest := { s.chest with
        copying := none, reason := reason, slot := BitVec.ofNat 2 slot, count := satAdd s.chest.count 1 } }) ∧
  (∀ (s : State) (c : BitVec 8 × Nat), s.chest.copying = some c → s.chest.marked = none → s.gov.thermtrip = true →
    s.rstc.inReset ≠ some .por →
    ∃ t, exec .chestCopyDone s = .next t ∧ s.Keeps t [.fuse, .tap, .out, .ticks, .free, .pending] ∧
      t.rstc.inReset = some .por ∧ t.rstc.src = 3)

/-- Telemetry, from 16 R730 to R733: at a report fret each enabled periodic kind has its report, an unsent one of its kind is replaced and counted as
skipped, and the interval's counts start again, with the links' occupancies at what is held; at no other fret is anything built; reports
go out on the MC's connection, open in NAK mode, and are skipped without one. That a new interval's occupancy starts at what is held is the
model's choice (log entry 66). -/
def Obligations.TelemetryReportsAndSends : Prop :=
  (∀ (s : State), s.tel.enable = true → s.now % 2 ^ s.telExp = 0 →
    ∃ t, exec .telemetryReport s = .next t ∧ s.Only t [.tel] ∧ t.tel.number = s.tel.number + 1 ∧
      t.tel.cnt = s.newCounts ∧
      t.tel.sent = s.tel.sent ∧
      Tab.find t.tel.unsent 1 = (if bit s.tel.kinds 0 then some (s.reportHead 1 s.now s.tel.number ++ s.healthBody)
        else Tab.find s.tel.unsent 1) ∧
      Tab.find t.tel.unsent 2 = (if bit s.tel.kinds 1 then some (s.reportHead 2 s.now s.tel.number ++ s.queuesBody)
        else Tab.find s.tel.unsent 2) ∧
      Tab.find t.tel.unsent 3 = (if bit s.tel.kinds 2 then some (s.reportHead 3 s.now s.tel.number ++ s.leadBody)
        else Tab.find s.tel.unsent 3) ∧
      Tab.find t.tel.unsent 4 = (if bit s.tel.kinds 3 then some (s.reportHead 4 s.now s.tel.number ++ s.linksBody)
        else Tab.find s.tel.unsent 4) ∧
      Tab.find t.tel.unsent 5 = Tab.find s.tel.unsent 5 ∧
      t.tel.skipped = satAdd s.tel.skipped
        ((List.range 4).countP fun k => bit s.tel.kinds k && (Tab.find s.tel.unsent (k + 1)).isSome)) ∧
  (∀ (s : State), (s.tel.enable = false ∨ s.now % 2 ^ s.telExp ≠ 0) → exec .telemetryReport s = .next s) ∧
  (∀ (s : State), (s.conn s.tel.conn.toNat).srcKind = 3 → (s.conn s.tel.conn.toNat).state = .opened →
    (s.conn s.tel.conn.toNat).nak = true →
    ∃ t, exec .telemetrySend s = .next t ∧ s.Only t [.tel, .mch, .out] ∧
      t.tel = { s.tel with unsent := [], sent := s.tel.sent + BitVec.ofNat 16 s.tel.unsent.length }) ∧
  (∀ (s : State), ((s.conn s.tel.conn.toNat).srcKind ≠ 3 ∨ (s.conn s.tel.conn.toNat).state ≠ .opened ∨
      (s.conn s.tel.conn.toNat).nak = false) →
    exec .telemetrySend s = .next { s with
      tel := { s.tel with unsent := [], skipped := satAdd s.tel.skipped s.tel.unsent.length } })

/-- A step takes the command at the front of the queue and runs it on the state with the queue's rest; with no command waiting
the block idles (the model's choice, log entry 1). -/
def Obligations.StepRunsTheFrontCommand : Prop :=
  (∀ (s : State) (c : Instr) (rest : List Instr), step { s with pending := c :: rest } = exec c { s with pending := rest }) ∧
  (∀ (s : State), s.pending = [] → step s = .next s)

/-- After POR is released (12 R589, R605, R606; 13 R659; 14 R689; 15 R712; 16 R735; 04 R224, R227; 05 R291; 09 R514; 18 R770): BU0
runs and nothing else has started, the register fields hold the values of their Reset columns, no task, schedule, connection or
record exists, and no command waits. -/
def Obligations.ResetIsAsTheSpecSays : Prop :=
  State.reset.brup.stages = Stage.running :: List.replicate 9 Stage.notRun ∧ State.reset.fret.state = .unlocked ∧
  State.reset.fret.stretch = 0 ∧ State.reset.pwr.parkIdle = 0x64 ∧ State.reset.pwr.target = 0x64 ∧
  State.reset.pwr.window = 1 ∧ State.reset.pwr.margin = 2 ∧ State.reset.pwr.minStretch = 0 ∧
  State.reset.pwr.stackTarget = 0x5F ∧ State.reset.pwr.allow = 0 ∧ State.reset.pwr.parked = 0 ∧
  State.reset.top.owner = .none ∧ State.reset.top.ready = false ∧ State.reset.top.denied = 0 ∧
  State.reset.tel.exp = 0x14 ∧ State.reset.tel.kinds = 0x1F ∧ State.reset.tel.enable = false ∧
  State.reset.bist.hbmEn = true ∧ State.reset.bist.period = 0xA ∧ State.reset.bist.state = 0 ∧
  State.reset.sec.quoteValid = false ∧ State.reset.sec.reqErr = false ∧ State.reset.chest.intake = [] ∧
  State.reset.tasks = [] ∧ State.reset.scheds = [] ∧ State.reset.mch.conns = [] ∧ State.reset.hbm.mem = [] ∧
  State.reset.pending = []

/-- Device memory is in its one form at reset: nothing is listed. -/
def Obligations.ResetMemoryIsWellFormed : Prop := State.reset.memForm = true

/-- Every step keeps device memory in its one form (05 R239 to R244): the listed addresses rise strictly, and so do the sectors
whose check fails. -/
def Obligations.StepKeepsMemoryWellFormed : Prop :=
  ∀ (s t : State), s.memForm = true → step s = .next t → t.memForm = true

/-- Every command, in every state, answers a next state with the queue as it was given: none of them faults or is refused. So the
block takes the commands that wait in their order, one a step: as many steps as commands wait empty the queue, each command runs on
the state that the ones before it left, and no further step changes anything. -/
def Obligations.EveryCommandCompletes : Prop :=
  (∀ (c : Instr) (s : State), ∃ t, exec c s = .next t ∧ t.pending = s.pending) ∧
  (∀ (s : State), Safe s) ∧
  (∀ (s : State), ∃ t, run s.pending.length s = some t ∧ t.pending = [] ∧ ∀ n, run n t = some t) ∧
  (∀ (s : State) (c : Instr) (rest : List Instr), ∃ w, exec c { s with pending := rest } = .next w ∧ w.pending = rest ∧
    run (rest.length + 1) { s with pending := c :: rest } = run rest.length w)

/-- Only the end of a life-cycle fuse write, the identity key's generation and BU9 blow fuses, and none of them changes the grade
(00 R2; 14 R661, R665, R669, R670); and no command but the instructions at the TAP and TRST_N moves the TAP (14 R685; 18 R767,
R774). -/
def Obligations.FusesAndTapMoveByTheirOwnCommands : Prop :=
  (∀ (c : Instr) (s t : State), exec c s = .next t → t.fuse.grade = s.fuse.grade ∧ t.fuse.serial = s.fuse.serial) ∧
  (∀ (c : Instr) (s t : State), exec c s = .next t → c ≠ .lcFuseWriteDone → (∀ x, c ≠ .idGenerateDone x) →
    (∀ x, c ≠ .stageBu9 x) → t.fuse = s.fuse) ∧
  (∀ (c : Instr) (s t : State), exec c s = .next t → t.tap ≠ s.tap →
    c ∈ [Instr.scanEn, .eb1Unlock, .jtagIdcode, .jtagClamp, .jtagHighz, .trstNAssert] ∨ (∃ x, c = .jtagExtest x) ∨
      (∃ x y, c = .jtagSamplePreload x y) ∨ (∃ x, c = .jtagExtestPulse x) ∨ (∃ x, c = .jtagExtestTrain x) ∨
      ∃ x, c = .jtagBypass x)

/-- END is final (14 R663, R664): a chip that is in END, with no transition being written, stays there whatever is commanded, and
its device secret keeps every fuse blown. -/
def Obligations.EndIsFinal : Prop :=
  ∀ (c : Instr) (s t : State), s.fuse.lc = .final → s.sec.lc = .final → s.sec.lcPending = none → s.ids.state ≠ .generating →
    exec c s = .next t →
    t.fuse.lc = .final ∧ t.sec.lc = .final ∧ t.sec.lcPending = none ∧ t.ids.state ≠ .generating ∧
      t.fuse.secret = s.fuse.secret

/-- Field-scan marks (14 R687): in FIELD the EB1 path adds a mark before it enables scan, no command removes one, and from the
next BU1 on every quote reports that there are some. -/
def Obligations.FieldScanMarksStay : Prop :=
  (∀ (s t : State), s.sec.lc = .field → s.sec.scan = .closed → exec .eb1Unlock s = .next t → t.sec.scan ≠ .closed →
    t.flash.marks = min (s.flash.marks + 1) 0xFFFF ∧ t.sec.scan = .clearing) ∧
  (∀ (c : Instr) (s t : State), s.flash.marks ≤ 0xFFFF → exec c s = .next t →
    s.flash.marks ≤ t.flash.marks ∧ t.flash.marks ≤ 0xFFFF) ∧
  (∀ (s t : State), exec (.stageBu1 true) s = .next t → s.passed 1 = false → t.passed 1 = true → s.flash.marks ≤ 0xFFFF →
    t.sec.marks.toNat = s.flash.marks) ∧
  (∀ (s : State) (nonce : List Byte) (seq : BitVec 32), ∃ b, (s.quoteBytes nonce seq)[7]? = some b ∧
    bit b 0 = decide (s.sec.marks ≠ 0))

/-- An open scan session ends only at POR, and the release of SYSRST_N while scan is open leaves the chip in system reset (14
R688). -/
def Obligations.OpenScanEndsOnlyAtPor : Prop :=
  (∀ (c : Instr) (s t : State), s.sec.scan = .opened → exec c s = .next t →
    t.sec.scan = .opened ∨ t.rstc.inReset = some .por) ∧
  (∀ (s t : State), s.sec.scan = .opened → s.rstc.inReset = some .system → exec .sysrstNRelease s = .next t →
    t.rstc.inReset = some .system ∧ t.sec.scan = .opened)

/-- Leaf blocks are reserved in ascending order (14 R674, R675): no command lowers the leaf counter in flash, and a block that a
command reserves is the next one, with the counter moved on. -/
def Obligations.LeafCounterNeverFalls : Prop :=
  (∀ (c : Instr) (s t : State), exec c s = .next t → s.flash.leafCounter ≤ t.flash.leafCounter) ∧
  (∀ (c : Instr) (s t : State), s.ids.held = false → exec c s = .next t → t.ids.held = true →
    t.ids.leaf = BitVec.ofNat 40 (s.ids.blocks.toNat * 4096) ∧ t.ids.blocks = s.ids.blocks + 1 ∧
      t.flash.leafCounter = s.flash.leafCounter + 1)

/-- The remap table of a cluster keeps its value through a system reset, a core reset and a reset of the cluster or its partition, whatever asserts or
ends it; only POR returns it: after POR BU6 loads the value from the yield map, with the bad tiles left out, and no later BU6 before the
next POR loads it again (03 R121). -/
def Obligations.RemapTablesOutliveResets : Prop :=
  (∀ (s t : State) (k : Nat), s.rstc.inReset ≠ some .por → exec .sysrstNAssert s = .next t →
    (t.clus k).remap = (s.clus k).remap) ∧
  (∀ (s t : State) (k : Nat), exec .mcWatchdogExpire s = .next t → (t.clus k).remap = (s.clus k).remap) ∧
  (∀ (s t : State) (k : Nat), exec .orderlyResetAssert s = .next t → (∀ o, s.rstc.orderly = some o → o.level ≠ .por) →
    (t.clus k).remap = (s.clus k).remap) ∧
  (∀ (s t : State) (k : Nat) (acc : Accessor) (v : Word), exec (.blkMaintenanceReset acc v) s = .next t →
    (t.clus k).remap = (s.clus k).remap) ∧
  (∀ (s t : State) (k : Nat) (acc : Accessor) (v : Word), exec (.blkRecoveryReset acc v) s = .next t →
    (t.clus k).remap = (s.clus k).remap) ∧
  (∀ (s t : State) (k : Nat) (b : Option Part), s.rstc.mapped = true → exec (.stageBu6 b) s = .next t →
    (t.clus k).remap = (s.clus k).remap) ∧
  (∀ (s t : State) (k : Nat) (l : BitVec 2) (n : Nat), exec (.blkResetDone l n) s = .next t → (t.clus k).remap = (s.clus k).remap) ∧
  (∀ (s t : State) (k : Nat) (p : Part) (us : BitVec 16), exec (.prrResetDone p us) s = .next t →
    (t.clus k).remap = (s.clus k).remap) ∧
  (∀ (s t : State) (k : Nat) (x y : Word), exec (.mcLockstepFail x y) s = .next t → (t.clus k).remap = (s.clus k).remap) ∧
  (∀ (c : Instr) (s t : State), exec c s = .next t → s.rstc.mapped = true → t.rstc.mapped = true ∨ t.rstc.inReset = some .por) ∧
  (∀ (s t : State), s.rstc.inReset ≠ some .por → exec .por s = .next t → t.rstc.mapped = false) ∧
  (∀ (s : State) (k : Nat), k < 128 → s.stageRuns 6 = true → s.brup.restart = false → s.rstc.mapped = false →
    s.flash.yieldOk = true → s.badIdx k ≠ [] →
    ∃ t, exec (.stageBu6 none) s = .next t ∧ t.rstc.mapped = true ∧
      (t.clus k).remap = ((((List.range 18).filter fun i => !(s.badIdx k).contains i) ++ s.badIdx k).take 16).map
        (BitVec.ofNat 5))

/-- Reads and writes that name no register (00 R8; 01 R46): an access that is narrow or not aligned reads 0 and writes nothing, and
so does one at an offset outside every range, or at an offset in a range that is no register. -/
def Obligations.UnassignedOffsetsReadZero : Prop :=
  (∀ (s : State) (acc : Accessor) (off len : Nat) (v : Word), len ≠ 4 ∨ off % 4 ≠ 0 →
    exec (.registerWrite acc off len v) s = .next s) ∧
  (∀ (s : State) (acc : Accessor) (off : Nat), off % 4 ≠ 0 →
    exec (.bar0MultiwordAccess acc off (.read [true])) s = .next { s with out := .data acc [0] :: s.out }) ∧
  (∀ (s : State) (acc : Accessor) (off : Nat), off % 4 ≠ 0 →
    exec (.counterLoRead acc off) s = .next { s with out := .data acc [0] :: s.out }) ∧
  (∀ (s : State) (acc : Accessor) (off : Nat),
    exec (.bar0MultiwordAccess acc off (.read [false])) s = .next { s with out := .data acc [0] :: s.out }) ∧
  (∀ (s : State) (acc : Accessor) (off : Nat), off % 4 = 0 →
    (blockOf off = none ∨ ∃ b o, blockOf off = some (b, o) ∧ blockHas b o = false) →
    exec (.bar0MultiwordAccess acc off (.read [true])) s = .next { s with out := .data acc [0] :: s.out } ∧
    ∀ v, exec (.registerWrite acc off 4 v) s = .next s)

/-- A group's result depends only on the set of candidates it received, not on their order of arrival (02 R98). -/
def Obligations.TopkDependsOnlyOnTheSet : Prop :=
  ∀ (g : TopkCfg) (lt group : Nat) (xs ys : List Cand), xs.Perm ys →
    topkGroup g lt group (xs.foldl (topkAdd g) []) = topkGroup g lt group (ys.foldl (topkAdd g) [])

/-- Block results (02 R67, R68): NaN for a NaN operand, a scale of 0xFF, a product of Infinity and 0, or products of both
infinities; otherwise Infinity with the sign of an infinite product; and +0 where every product is zero. -/
def Obligations.BlockResultsFollowTheProducts : Prop :=
  (∀ (fa fb : Fmt) (n sa sb : Nat) (as bs : List Nat), sa = 0xFF ∨ sb = 0xFF → blockResult fa fb n sa sb as bs = nan32) ∧
  (∀ (fa fb : Fmt) (n sa sb : Nat) (as bs : List Nat) (x : Nat × Nat), x ∈ as.zip bs →
    (decodeNum fa x.1 = .nan ∨ decodeNum fb x.2 = .nan) → blockResult fa fb n sa sb as bs = nan32) ∧
  (∀ (fa fb : Fmt) (n sa sb : Nat) (as bs : List Nat) (x : Nat × Nat), x ∈ as.zip bs →
    (∃ p q e, (decodeNum fa x.1 = .inf p ∧ decodeNum fb x.2 = .fin q 0 e) ∨
      (decodeNum fa x.1 = .fin q 0 e ∧ decodeNum fb x.2 = .inf p)) → blockResult fa fb n sa sb as bs = nan32) ∧
  (∀ (fa fb : Fmt) (n sa sb : Nat) (as bs : List Nat) (x y : Nat × Nat), x ∈ as.zip bs → y ∈ as.zip bs →
    mulNum (decodeNum fa x.1) (decodeNum fb x.2) = .inf true → mulNum (decodeNum fa y.1) (decodeNum fb y.2) = .inf false →
    blockResult fa fb n sa sb as bs = nan32) ∧
  (∀ (fa fb : Fmt) (n sa sb : Nat) (as bs : List Nat) (x : Nat × Nat) (neg : Bool), x ∈ as.zip bs → sa ≠ 0xFF → sb ≠ 0xFF →
    mulNum (decodeNum fa x.1) (decodeNum fb x.2) = .inf neg →
    (∀ y ∈ as.zip bs, mulNum (decodeNum fa y.1) (decodeNum fb y.2) ≠ .nan ∧
      mulNum (decodeNum fa y.1) (decodeNum fb y.2) ≠ .inf (!neg)) →
    blockResult fa fb n sa sb as bs = if neg then 0xFF800000 else 0x7F800000) ∧
  (∀ (fa fb : Fmt) (n sa sb : Nat) (as bs : List Nat), sa ≠ 0xFF → sb ≠ 0xFF →
    (∀ y ∈ as.zip bs, ∃ p e, mulNum (decodeNum fa y.1) (decodeNum fb y.2) = .fin p 0 e) →
    blockResult fa fb n sa sb as bs = 0)
end

