-- ==== Sys2Proof/Laws/Memory.lean ====
section
/-! SUPPORT. Sparse tables and memories: a read after a write, and every operation keeps the canonical form. -/

namespace Sys2Proof.Machine

variable {α : Type}

theorem Tab.get_put (d : α) (t : Tab α) (k j : Nat) (v : α) : Tab.get d (Tab.put t k v) j = if j = k then v else Tab.get d t j := by
  induction t with
  | nil => simp only [Tab.put, Tab.get]
  | cons x t ih =>
    obtain ⟨a, w⟩ := x
    simp only [Tab.put]
    split
    · simp only [Tab.get]
    · split
      · subst k; simp only [Tab.get]; split <;> rfl
      · simp only [Tab.get, ih]
        by_cases h : j = a
        · subst h
          have : j ≠ k := by omega
          simp [this]
        · simp [h]

theorem Tab.get_put_self (d : α) (t : Tab α) (k : Nat) (v : α) : Tab.get d (Tab.put t k v) k = v := by
  simp [Tab.get_put]

theorem Tab.get_put_other (d : α) (t : Tab α) {k j : Nat} (v : α) (h : j ≠ k) :
    Tab.get d (Tab.put t k v) j = Tab.get d t j := by
  simp [Tab.get_put, h]

theorem Tab.get_upd (d : α) (t : Tab α) (k j : Nat) (f : α → α) :
    Tab.get d (Tab.upd d t k f) j = if j = k then f (Tab.get d t k) else Tab.get d t j := Tab.get_put ..

theorem Tab.find_put (t : Tab α) (k j : Nat) (v : α) : Tab.find (Tab.put t k v) j = if j = k then some v else Tab.find t j := by
  induction t with
  | nil => simp only [Tab.put, Tab.find]
  | cons x t ih =>
    obtain ⟨a, w⟩ := x
    simp only [Tab.put]
    split
    · simp only [Tab.find]
    · split
      · subst k; simp only [Tab.find]; split <;> rfl
      · simp only [Tab.find, ih]
        by_cases h : j = a
        · subst h
          have : j ≠ k := by omega
          simp [this]
        · simp [h]

theorem Tab.sortedFrom_mono (t : Tab α) {lo lo' : Nat} (h : lo' ≤ lo) (hs : Tab.sortedFrom lo t = true) :
    Tab.sortedFrom lo' t = true := by
  cases t with
  | nil => rfl
  | cons x t =>
    obtain ⟨k, v⟩ := x
    simp only [Tab.sortedFrom, Bool.and_eq_true, decide_eq_true_eq] at hs ⊢
    exact ⟨by omega, hs.2⟩

theorem Tab.sortedFrom_put (t : Tab α) (lo k : Nat) (v : α) (hk : lo ≤ k) (hs : Tab.sortedFrom lo t = true) :
    Tab.sortedFrom lo (Tab.put t k v) = true := by
  induction t generalizing lo with
  | nil => simp [Tab.put, Tab.sortedFrom, hk]
  | cons x t ih =>
    obtain ⟨a, w⟩ := x
    simp only [Tab.sortedFrom, Bool.and_eq_true, decide_eq_true_eq] at hs
    simp only [Tab.put]
    split
    · simp only [Tab.sortedFrom, Bool.and_eq_true, decide_eq_true_eq]; exact ⟨hk, by omega, hs.2⟩
    · split
      · subst k; simp only [Tab.sortedFrom, Bool.and_eq_true, decide_eq_true_eq]; exact hs
      · simp only [Tab.sortedFrom, Bool.and_eq_true, decide_eq_true_eq]; exact ⟨hs.1, ih _ (by omega) hs.2⟩

theorem Tab.sortedFrom_del (t : Tab α) (lo k : Nat) (hs : Tab.sortedFrom lo t = true) :
    Tab.sortedFrom lo (Tab.del t k) = true := by
  induction t generalizing lo with
  | nil => rfl
  | cons x t ih =>
    obtain ⟨a, w⟩ := x
    simp only [Tab.sortedFrom, Bool.and_eq_true, decide_eq_true_eq] at hs
    simp only [Tab.del]
    split
    · exact Tab.sortedFrom_mono _ (by omega) (ih _ hs.2)
    · simp only [Tab.sortedFrom, Bool.and_eq_true, decide_eq_true_eq]; exact ⟨hs.1, ih _ hs.2⟩

theorem Tab.find_del (t : Tab α) (k j : Nat) : Tab.find (Tab.del t k) j = if j = k then none else Tab.find t j := by
  induction t with
  | nil => simp [Tab.del, Tab.find]
  | cons x t ih =>
    obtain ⟨a, w⟩ := x
    simp only [Tab.del, Tab.find]
    by_cases hk : k = a <;> by_cases hj : j = a <;> simp_all [Tab.find]
    exact fun e => hk e.symm

theorem Tab.wf_put (t : Tab α) (k : Nat) (v : α) (h : Tab.wf t = true) : Tab.wf (Tab.put t k v) = true :=
  Tab.sortedFrom_put t 0 k v (Nat.zero_le _) h

theorem Tab.wf_del (t : Tab α) (k : Nat) (h : Tab.wf t = true) : Tab.wf (Tab.del t k) = true := Tab.sortedFrom_del t 0 k h

theorem Mem.wf_write (m : Mem) (a : Nat) (bs : List Byte) (h : Mem.wf m = true) : Mem.wf (Mem.write m a bs) = true := by
  induction bs generalizing m a with
  | nil => exact h
  | cons b bs ih => exact ih _ _ (Tab.wf_put m a b h)

theorem Mem.wf_writeZ (m : Mem) (a : Nat) (bs : List Byte) (h : Mem.wf m = true) : Mem.wf (Mem.writeZ m a bs) = true := by
  induction bs generalizing m a with
  | nil => exact h
  | cons b bs ih =>
    refine ih _ _ ?_
    split
    · exact Tab.wf_del m a h
    · exact Tab.wf_put m a b h

/-- What one byte reads as after a write: the byte written there, or what it read as before. -/
theorem Mem.get_write (d : Byte) (m : Mem) (a : Nat) (bs : List Byte) (j : Nat) :
    Tab.get d (Mem.write m a bs) j = if a ≤ j ∧ j < a + bs.length then bs.getD (j - a) 0 else Tab.get d m j := by
  induction bs generalizing m a with
  | nil => simp [Mem.write]
  | cons b bs ih =>
    have e : (b :: bs).length = bs.length + 1 := rfl
    rw [Mem.write, ih, Tab.get_put, e]
    rcases Nat.lt_trichotomy j a with h | h | h
    · have h1 : ¬ (a + 1 ≤ j ∧ j < a + 1 + bs.length) := by omega
      have h2 : ¬ (a ≤ j ∧ j < a + (bs.length + 1)) := by omega
      rw [if_neg h1, if_neg h2, if_neg (by omega)]
    · subst h
      have h2 : j ≤ j ∧ j < j + (bs.length + 1) := by omega
      rw [if_neg (by omega), if_pos h2, if_pos rfl]; simp
    · obtain ⟨n, rfl⟩ : ∃ n, j = a + 1 + n := ⟨j - (a + 1), by omega⟩
      have e1 : a + 1 + n - a = n + 1 := by omega
      have e2 : a + 1 + n - (a + 1) = n := by omega
      rw [e1, e2, if_neg (show ¬ a + 1 + n = a by omega)]
      by_cases h1 : n < bs.length
      · rw [if_pos (by omega), if_pos (by omega)]; rfl
      · rw [if_neg (by omega), if_neg (by omega)]

theorem badWf_fold (xs wrong : List Nat) (t : Tab SectorErr) (h : Tab.wf t = true) :
    Tab.wf (xs.foldl (fun t sec => if wrong.contains sec then Tab.put t sec .poison else Tab.del t sec) t) = true := by
  induction xs generalizing t with
  | nil => exact h
  | cons x xs ih =>
    refine ih _ ?_
    beta_reduce
    split
    · exact Tab.wf_put t x _ h
    · exact Tab.wf_del t x h

/-- Errors found in sectors keep the form of the table that lists them. -/
theorem noteErr_wf (errs : List (Nat × BitErr)) (t : Tab SectorErr) (h : Tab.wf t = true) :
    Tab.wf (errs.foldl noteErr t) = true := by
  induction errs generalizing t with
  | nil => exact h
  | cons e errs ih =>
    refine ih _ ?_
    unfold noteErr
    repeat' first | exact h | exact Tab.wf_put _ _ _ h | exact Tab.wf_del _ _ h | split | dsimp only

end Sys2Proof.Machine
end

