-- ==== Sys2Proof/Laws/State.lean ====
section
/-! SUPPORT. What each change of one part of the state leaves in each part: one lemma per field per update. -/

namespace Sys2Proof.Machine

@[simp] theorem State.modFuse_fuse (s : State) (f : FuseSt → FuseSt) : (s.modFuse f).fuse = f s.fuse := rfl
@[simp] theorem State.modFuse_flash (s : State) (f : FuseSt → FuseSt) : (s.modFuse f).flash = s.flash := rfl
@[simp] theorem State.modFuse_top (s : State) (f : FuseSt → FuseSt) : (s.modFuse f).top = s.top := rfl
@[simp] theorem State.modFuse_rstc (s : State) (f : FuseSt → FuseSt) : (s.modFuse f).rstc = s.rstc := rfl
@[simp] theorem State.modFuse_brup (s : State) (f : FuseSt → FuseSt) : (s.modFuse f).brup = s.brup := rfl
@[simp] theorem State.modFuse_pwr (s : State) (f : FuseSt → FuseSt) : (s.modFuse f).pwr = s.pwr := rfl
@[simp] theorem State.modFuse_gov (s : State) (f : FuseSt → FuseSt) : (s.modFuse f).gov = s.gov := rfl
@[simp] theorem State.modFuse_clk (s : State) (f : FuseSt → FuseSt) : (s.modFuse f).clk = s.clk := rfl
@[simp] theorem State.modFuse_fret (s : State) (f : FuseSt → FuseSt) : (s.modFuse f).fret = s.fret := rfl
@[simp] theorem State.modFuse_ids (s : State) (f : FuseSt → FuseSt) : (s.modFuse f).ids = s.ids := rfl
@[simp] theorem State.modFuse_sec (s : State) (f : FuseSt → FuseSt) : (s.modFuse f).sec = s.sec := rfl
@[simp] theorem State.modFuse_bist (s : State) (f : FuseSt → FuseSt) : (s.modFuse f).bist = s.bist := rfl
@[simp] theorem State.modFuse_heal (s : State) (f : FuseSt → FuseSt) : (s.modFuse f).heal = s.heal := rfl
@[simp] theorem State.modFuse_healx (s : State) (f : FuseSt → FuseSt) : (s.modFuse f).healx = s.healx := rfl
@[simp] theorem State.modFuse_rel (s : State) (f : FuseSt → FuseSt) : (s.modFuse f).rel = s.rel := rfl
@[simp] theorem State.modFuse_relx (s : State) (f : FuseSt → FuseSt) : (s.modFuse f).relx = s.relx := rfl
@[simp] theorem State.modFuse_chest (s : State) (f : FuseSt → FuseSt) : (s.modFuse f).chest = s.chest := rfl
@[simp] theorem State.modFuse_tel (s : State) (f : FuseSt → FuseSt) : (s.modFuse f).tel = s.tel := rfl
@[simp] theorem State.modFuse_mch (s : State) (f : FuseSt → FuseSt) : (s.modFuse f).mch = s.mch := rfl
@[simp] theorem State.modFuse_pcie (s : State) (f : FuseSt → FuseSt) : (s.modFuse f).pcie = s.pcie := rfl
@[simp] theorem State.modFuse_mgt (s : State) (f : FuseSt → FuseSt) : (s.modFuse f).mgt = s.mgt := rfl
@[simp] theorem State.modFuse_spn (s : State) (f : FuseSt → FuseSt) : (s.modFuse f).spn = s.spn := rfl
@[simp] theorem State.modFuse_sess (s : State) (f : FuseSt → FuseSt) : (s.modFuse f).sess = s.sess := rfl
@[simp] theorem State.modFuse_hbm (s : State) (f : FuseSt → FuseSt) : (s.modFuse f).hbm = s.hbm := rfl
@[simp] theorem State.modFuse_tap (s : State) (f : FuseSt → FuseSt) : (s.modFuse f).tap = s.tap := rfl
@[simp] theorem State.modFuse_fabs (s : State) (f : FuseSt → FuseSt) : (s.modFuse f).fabs = s.fabs := rfl
@[simp] theorem State.modFuse_parts (s : State) (f : FuseSt → FuseSt) : (s.modFuse f).parts = s.parts := rfl
@[simp] theorem State.modFuse_cluss (s : State) (f : FuseSt → FuseSt) : (s.modFuse f).cluss = s.cluss := rfl
@[simp] theorem State.modFuse_tiles (s : State) (f : FuseSt → FuseSt) : (s.modFuse f).tiles = s.tiles := rfl
@[simp] theorem State.modFuse_ctxs (s : State) (f : FuseSt → FuseSt) : (s.modFuse f).ctxs = s.ctxs := rfl
@[simp] theorem State.modFuse_tasks (s : State) (f : FuseSt → FuseSt) : (s.modFuse f).tasks = s.tasks := rfl
@[simp] theorem State.modFuse_scheds (s : State) (f : FuseSt → FuseSt) : (s.modFuse f).scheds = s.scheds := rfl
@[simp] theorem State.modFuse_held (s : State) (f : FuseSt → FuseSt) : (s.modFuse f).held = s.held := rfl
@[simp] theorem State.modFuse_latches (s : State) (f : FuseSt → FuseSt) : (s.modFuse f).latches = s.latches := rfl
@[simp] theorem State.modFuse_out (s : State) (f : FuseSt → FuseSt) : (s.modFuse f).out = s.out := rfl
@[simp] theorem State.modFuse_ticks (s : State) (f : FuseSt → FuseSt) : (s.modFuse f).ticks = s.ticks := rfl
@[simp] theorem State.modFuse_free (s : State) (f : FuseSt → FuseSt) : (s.modFuse f).free = s.free := rfl
@[simp] theorem State.modFuse_pending (s : State) (f : FuseSt → FuseSt) : (s.modFuse f).pending = s.pending := rfl

@[simp] theorem State.modFlash_fuse (s : State) (f : FlashSt → FlashSt) : (s.modFlash f).fuse = s.fuse := rfl
@[simp] theorem State.modFlash_flash (s : State) (f : FlashSt → FlashSt) : (s.modFlash f).flash = f s.flash := rfl
@[simp] theorem State.modFlash_top (s : State) (f : FlashSt → FlashSt) : (s.modFlash f).top = s.top := rfl
@[simp] theorem State.modFlash_rstc (s : State) (f : FlashSt → FlashSt) : (s.modFlash f).rstc = s.rstc := rfl
@[simp] theorem State.modFlash_brup (s : State) (f : FlashSt → FlashSt) : (s.modFlash f).brup = s.brup := rfl
@[simp] theorem State.modFlash_pwr (s : State) (f : FlashSt → FlashSt) : (s.modFlash f).pwr = s.pwr := rfl
@[simp] theorem State.modFlash_gov (s : State) (f : FlashSt → FlashSt) : (s.modFlash f).gov = s.gov := rfl
@[simp] theorem State.modFlash_clk (s : State) (f : FlashSt → FlashSt) : (s.modFlash f).clk = s.clk := rfl
@[simp] theorem State.modFlash_fret (s : State) (f : FlashSt → FlashSt) : (s.modFlash f).fret = s.fret := rfl
@[simp] theorem State.modFlash_ids (s : State) (f : FlashSt → FlashSt) : (s.modFlash f).ids = s.ids := rfl
@[simp] theorem State.modFlash_sec (s : State) (f : FlashSt → FlashSt) : (s.modFlash f).sec = s.sec := rfl
@[simp] theorem State.modFlash_bist (s : State) (f : FlashSt → FlashSt) : (s.modFlash f).bist = s.bist := rfl
@[simp] theorem State.modFlash_heal (s : State) (f : FlashSt → FlashSt) : (s.modFlash f).heal = s.heal := rfl
@[simp] theorem State.modFlash_healx (s : State) (f : FlashSt → FlashSt) : (s.modFlash f).healx = s.healx := rfl
@[simp] theorem State.modFlash_rel (s : State) (f : FlashSt → FlashSt) : (s.modFlash f).rel = s.rel := rfl
@[simp] theorem State.modFlash_relx (s : State) (f : FlashSt → FlashSt) : (s.modFlash f).relx = s.relx := rfl
@[simp] theorem State.modFlash_chest (s : State) (f : FlashSt → FlashSt) : (s.modFlash f).chest = s.chest := rfl
@[simp] theorem State.modFlash_tel (s : State) (f : FlashSt → FlashSt) : (s.modFlash f).tel = s.tel := rfl
@[simp] theorem State.modFlash_mch (s : State) (f : FlashSt → FlashSt) : (s.modFlash f).mch = s.mch := rfl
@[simp] theorem State.modFlash_pcie (s : State) (f : FlashSt → FlashSt) : (s.modFlash f).pcie = s.pcie := rfl
@[simp] theorem State.modFlash_mgt (s : State) (f : FlashSt → FlashSt) : (s.modFlash f).mgt = s.mgt := rfl
@[simp] theorem State.modFlash_spn (s : State) (f : FlashSt → FlashSt) : (s.modFlash f).spn = s.spn := rfl
@[simp] theorem State.modFlash_sess (s : State) (f : FlashSt → FlashSt) : (s.modFlash f).sess = s.sess := rfl
@[simp] theorem State.modFlash_hbm (s : State) (f : FlashSt → FlashSt) : (s.modFlash f).hbm = s.hbm := rfl
@[simp] theorem State.modFlash_tap (s : State) (f : FlashSt → FlashSt) : (s.modFlash f).tap = s.tap := rfl
@[simp] theorem State.modFlash_fabs (s : State) (f : FlashSt → FlashSt) : (s.modFlash f).fabs = s.fabs := rfl
@[simp] theorem State.modFlash_parts (s : State) (f : FlashSt → FlashSt) : (s.modFlash f).parts = s.parts := rfl
@[simp] theorem State.modFlash_cluss (s : State) (f : FlashSt → FlashSt) : (s.modFlash f).cluss = s.cluss := rfl
@[simp] theorem State.modFlash_tiles (s : State) (f : FlashSt → FlashSt) : (s.modFlash f).tiles = s.tiles := rfl
@[simp] theorem State.modFlash_ctxs (s : State) (f : FlashSt → FlashSt) : (s.modFlash f).ctxs = s.ctxs := rfl
@[simp] theorem State.modFlash_tasks (s : State) (f : FlashSt → FlashSt) : (s.modFlash f).tasks = s.tasks := rfl
@[simp] theorem State.modFlash_scheds (s : State) (f : FlashSt → FlashSt) : (s.modFlash f).scheds = s.scheds := rfl
@[simp] theorem State.modFlash_held (s : State) (f : FlashSt → FlashSt) : (s.modFlash f).held = s.held := rfl
@[simp] theorem State.modFlash_latches (s : State) (f : FlashSt → FlashSt) : (s.modFlash f).latches = s.latches := rfl
@[simp] theorem State.modFlash_out (s : State) (f : FlashSt → FlashSt) : (s.modFlash f).out = s.out := rfl
@[simp] theorem State.modFlash_ticks (s : State) (f : FlashSt → FlashSt) : (s.modFlash f).ticks = s.ticks := rfl
@[simp] theorem State.modFlash_free (s : State) (f : FlashSt → FlashSt) : (s.modFlash f).free = s.free := rfl
@[simp] theorem State.modFlash_pending (s : State) (f : FlashSt → FlashSt) : (s.modFlash f).pending = s.pending := rfl

@[simp] theorem State.modTop_fuse (s : State) (f : TopSt → TopSt) : (s.modTop f).fuse = s.fuse := rfl
@[simp] theorem State.modTop_flash (s : State) (f : TopSt → TopSt) : (s.modTop f).flash = s.flash := rfl
@[simp] theorem State.modTop_top (s : State) (f : TopSt → TopSt) : (s.modTop f).top = f s.top := rfl
@[simp] theorem State.modTop_rstc (s : State) (f : TopSt → TopSt) : (s.modTop f).rstc = s.rstc := rfl
@[simp] theorem State.modTop_brup (s : State) (f : TopSt → TopSt) : (s.modTop f).brup = s.brup := rfl
@[simp] theorem State.modTop_pwr (s : State) (f : TopSt → TopSt) : (s.modTop f).pwr = s.pwr := rfl
@[simp] theorem State.modTop_gov (s : State) (f : TopSt → TopSt) : (s.modTop f).gov = s.gov := rfl
@[simp] theorem State.modTop_clk (s : State) (f : TopSt → TopSt) : (s.modTop f).clk = s.clk := rfl
@[simp] theorem State.modTop_fret (s : State) (f : TopSt → TopSt) : (s.modTop f).fret = s.fret := rfl
@[simp] theorem State.modTop_ids (s : State) (f : TopSt → TopSt) : (s.modTop f).ids = s.ids := rfl
@[simp] theorem State.modTop_sec (s : State) (f : TopSt → TopSt) : (s.modTop f).sec = s.sec := rfl
@[simp] theorem State.modTop_bist (s : State) (f : TopSt → TopSt) : (s.modTop f).bist = s.bist := rfl
@[simp] theorem State.modTop_heal (s : State) (f : TopSt → TopSt) : (s.modTop f).heal = s.heal := rfl
@[simp] theorem State.modTop_healx (s : State) (f : TopSt → TopSt) : (s.modTop f).healx = s.healx := rfl
@[simp] theorem State.modTop_rel (s : State) (f : TopSt → TopSt) : (s.modTop f).rel = s.rel := rfl
@[simp] theorem State.modTop_relx (s : State) (f : TopSt → TopSt) : (s.modTop f).relx = s.relx := rfl
@[simp] theorem State.modTop_chest (s : State) (f : TopSt → TopSt) : (s.modTop f).chest = s.chest := rfl
@[simp] theorem State.modTop_tel (s : State) (f : TopSt → TopSt) : (s.modTop f).tel = s.tel := rfl
@[simp] theorem State.modTop_mch (s : State) (f : TopSt → TopSt) : (s.modTop f).mch = s.mch := rfl
@[simp] theorem State.modTop_pcie (s : State) (f : TopSt → TopSt) : (s.modTop f).pcie = s.pcie := rfl
@[simp] theorem State.modTop_mgt (s : State) (f : TopSt → TopSt) : (s.modTop f).mgt = s.mgt := rfl
@[simp] theorem State.modTop_spn (s : State) (f : TopSt → TopSt) : (s.modTop f).spn = s.spn := rfl
@[simp] theorem State.modTop_sess (s : State) (f : TopSt → TopSt) : (s.modTop f).sess = s.sess := rfl
@[simp] theorem State.modTop_hbm (s : State) (f : TopSt → TopSt) : (s.modTop f).hbm = s.hbm := rfl
@[simp] theorem State.modTop_tap (s : State) (f : TopSt → TopSt) : (s.modTop f).tap = s.tap := rfl
@[simp] theorem State.modTop_fabs (s : State) (f : TopSt → TopSt) : (s.modTop f).fabs = s.fabs := rfl
@[simp] theorem State.modTop_parts (s : State) (f : TopSt → TopSt) : (s.modTop f).parts = s.parts := rfl
@[simp] theorem State.modTop_cluss (s : State) (f : TopSt → TopSt) : (s.modTop f).cluss = s.cluss := rfl
@[simp] theorem State.modTop_tiles (s : State) (f : TopSt → TopSt) : (s.modTop f).tiles = s.tiles := rfl
@[simp] theorem State.modTop_ctxs (s : State) (f : TopSt → TopSt) : (s.modTop f).ctxs = s.ctxs := rfl
@[simp] theorem State.modTop_tasks (s : State) (f : TopSt → TopSt) : (s.modTop f).tasks = s.tasks := rfl
@[simp] theorem State.modTop_scheds (s : State) (f : TopSt → TopSt) : (s.modTop f).scheds = s.scheds := rfl
@[simp] theorem State.modTop_held (s : State) (f : TopSt → TopSt) : (s.modTop f).held = s.held := rfl
@[simp] theorem State.modTop_latches (s : State) (f : TopSt → TopSt) : (s.modTop f).latches = s.latches := rfl
@[simp] theorem State.modTop_out (s : State) (f : TopSt → TopSt) : (s.modTop f).out = s.out := rfl
@[simp] theorem State.modTop_ticks (s : State) (f : TopSt → TopSt) : (s.modTop f).ticks = s.ticks := rfl
@[simp] theorem State.modTop_free (s : State) (f : TopSt → TopSt) : (s.modTop f).free = s.free := rfl
@[simp] theorem State.modTop_pending (s : State) (f : TopSt → TopSt) : (s.modTop f).pending = s.pending := rfl

@[simp] theorem State.modRstc_fuse (s : State) (f : RstcSt → RstcSt) : (s.modRstc f).fuse = s.fuse := rfl
@[simp] theorem State.modRstc_flash (s : State) (f : RstcSt → RstcSt) : (s.modRstc f).flash = s.flash := rfl
@[simp] theorem State.modRstc_top (s : State) (f : RstcSt → RstcSt) : (s.modRstc f).top = s.top := rfl
@[simp] theorem State.modRstc_rstc (s : State) (f : RstcSt → RstcSt) : (s.modRstc f).rstc = f s.rstc := rfl
@[simp] theorem State.modRstc_brup (s : State) (f : RstcSt → RstcSt) : (s.modRstc f).brup = s.brup := rfl
@[simp] theorem State.modRstc_pwr (s : State) (f : RstcSt → RstcSt) : (s.modRstc f).pwr = s.pwr := rfl
@[simp] theorem State.modRstc_gov (s : State) (f : RstcSt → RstcSt) : (s.modRstc f).gov = s.gov := rfl
@[simp] theorem State.modRstc_clk (s : State) (f : RstcSt → RstcSt) : (s.modRstc f).clk = s.clk := rfl
@[simp] theorem State.modRstc_fret (s : State) (f : RstcSt → RstcSt) : (s.modRstc f).fret = s.fret := rfl
@[simp] theorem State.modRstc_ids (s : State) (f : RstcSt → RstcSt) : (s.modRstc f).ids = s.ids := rfl
@[simp] theorem State.modRstc_sec (s : State) (f : RstcSt → RstcSt) : (s.modRstc f).sec = s.sec := rfl
@[simp] theorem State.modRstc_bist (s : State) (f : RstcSt → RstcSt) : (s.modRstc f).bist = s.bist := rfl
@[simp] theorem State.modRstc_heal (s : State) (f : RstcSt → RstcSt) : (s.modRstc f).heal = s.heal := rfl
@[simp] theorem State.modRstc_healx (s : State) (f : RstcSt → RstcSt) : (s.modRstc f).healx = s.healx := rfl
@[simp] theorem State.modRstc_rel (s : State) (f : RstcSt → RstcSt) : (s.modRstc f).rel = s.rel := rfl
@[simp] theorem State.modRstc_relx (s : State) (f : RstcSt → RstcSt) : (s.modRstc f).relx = s.relx := rfl
@[simp] theorem State.modRstc_chest (s : State) (f : RstcSt → RstcSt) : (s.modRstc f).chest = s.chest := rfl
@[simp] theorem State.modRstc_tel (s : State) (f : RstcSt → RstcSt) : (s.modRstc f).tel = s.tel := rfl
@[simp] theorem State.modRstc_mch (s : State) (f : RstcSt → RstcSt) : (s.modRstc f).mch = s.mch := rfl
@[simp] theorem State.modRstc_pcie (s : State) (f : RstcSt → RstcSt) : (s.modRstc f).pcie = s.pcie := rfl
@[simp] theorem State.modRstc_mgt (s : State) (f : RstcSt → RstcSt) : (s.modRstc f).mgt = s.mgt := rfl
@[simp] theorem State.modRstc_spn (s : State) (f : RstcSt → RstcSt) : (s.modRstc f).spn = s.spn := rfl
@[simp] theorem State.modRstc_sess (s : State) (f : RstcSt → RstcSt) : (s.modRstc f).sess = s.sess := rfl
@[simp] theorem State.modRstc_hbm (s : State) (f : RstcSt → RstcSt) : (s.modRstc f).hbm = s.hbm := rfl
@[simp] theorem State.modRstc_tap (s : State) (f : RstcSt → RstcSt) : (s.modRstc f).tap = s.tap := rfl
@[simp] theorem State.modRstc_fabs (s : State) (f : RstcSt → RstcSt) : (s.modRstc f).fabs = s.fabs := rfl
@[simp] theorem State.modRstc_parts (s : State) (f : RstcSt → RstcSt) : (s.modRstc f).parts = s.parts := rfl
@[simp] theorem State.modRstc_cluss (s : State) (f : RstcSt → RstcSt) : (s.modRstc f).cluss = s.cluss := rfl
@[simp] theorem State.modRstc_tiles (s : State) (f : RstcSt → RstcSt) : (s.modRstc f).tiles = s.tiles := rfl
@[simp] theorem State.modRstc_ctxs (s : State) (f : RstcSt → RstcSt) : (s.modRstc f).ctxs = s.ctxs := rfl
@[simp] theorem State.modRstc_tasks (s : State) (f : RstcSt → RstcSt) : (s.modRstc f).tasks = s.tasks := rfl
@[simp] theorem State.modRstc_scheds (s : State) (f : RstcSt → RstcSt) : (s.modRstc f).scheds = s.scheds := rfl
@[simp] theorem State.modRstc_held (s : State) (f : RstcSt → RstcSt) : (s.modRstc f).held = s.held := rfl
@[simp] theorem State.modRstc_latches (s : State) (f : RstcSt → RstcSt) : (s.modRstc f).latches = s.latches := rfl
@[simp] theorem State.modRstc_out (s : State) (f : RstcSt → RstcSt) : (s.modRstc f).out = s.out := rfl
@[simp] theorem State.modRstc_ticks (s : State) (f : RstcSt → RstcSt) : (s.modRstc f).ticks = s.ticks := rfl
@[simp] theorem State.modRstc_free (s : State) (f : RstcSt → RstcSt) : (s.modRstc f).free = s.free := rfl
@[simp] theorem State.modRstc_pending (s : State) (f : RstcSt → RstcSt) : (s.modRstc f).pending = s.pending := rfl

@[simp] theorem State.modBrup_fuse (s : State) (f : BrupSt → BrupSt) : (s.modBrup f).fuse = s.fuse := rfl
@[simp] theorem State.modBrup_flash (s : State) (f : BrupSt → BrupSt) : (s.modBrup f).flash = s.flash := rfl
@[simp] theorem State.modBrup_top (s : State) (f : BrupSt → BrupSt) : (s.modBrup f).top = s.top := rfl
@[simp] theorem State.modBrup_rstc (s : State) (f : BrupSt → BrupSt) : (s.modBrup f).rstc = s.rstc := rfl
@[simp] theorem State.modBrup_brup (s : State) (f : BrupSt → BrupSt) : (s.modBrup f).brup = f s.brup := rfl
@[simp] theorem State.modBrup_pwr (s : State) (f : BrupSt → BrupSt) : (s.modBrup f).pwr = s.pwr := rfl
@[simp] theorem State.modBrup_gov (s : State) (f : BrupSt → BrupSt) : (s.modBrup f).gov = s.gov := rfl
@[simp] theorem State.modBrup_clk (s : State) (f : BrupSt → BrupSt) : (s.modBrup f).clk = s.clk := rfl
@[simp] theorem State.modBrup_fret (s : State) (f : BrupSt → BrupSt) : (s.modBrup f).fret = s.fret := rfl
@[simp] theorem State.modBrup_ids (s : State) (f : BrupSt → BrupSt) : (s.modBrup f).ids = s.ids := rfl
@[simp] theorem State.modBrup_sec (s : State) (f : BrupSt → BrupSt) : (s.modBrup f).sec = s.sec := rfl
@[simp] theorem State.modBrup_bist (s : State) (f : BrupSt → BrupSt) : (s.modBrup f).bist = s.bist := rfl
@[simp] theorem State.modBrup_heal (s : State) (f : BrupSt → BrupSt) : (s.modBrup f).heal = s.heal := rfl
@[simp] theorem State.modBrup_healx (s : State) (f : BrupSt → BrupSt) : (s.modBrup f).healx = s.healx := rfl
@[simp] theorem State.modBrup_rel (s : State) (f : BrupSt → BrupSt) : (s.modBrup f).rel = s.rel := rfl
@[simp] theorem State.modBrup_relx (s : State) (f : BrupSt → BrupSt) : (s.modBrup f).relx = s.relx := rfl
@[simp] theorem State.modBrup_chest (s : State) (f : BrupSt → BrupSt) : (s.modBrup f).chest = s.chest := rfl
@[simp] theorem State.modBrup_tel (s : State) (f : BrupSt → BrupSt) : (s.modBrup f).tel = s.tel := rfl
@[simp] theorem State.modBrup_mch (s : State) (f : BrupSt → BrupSt) : (s.modBrup f).mch = s.mch := rfl
@[simp] theorem State.modBrup_pcie (s : State) (f : BrupSt → BrupSt) : (s.modBrup f).pcie = s.pcie := rfl
@[simp] theorem State.modBrup_mgt (s : State) (f : BrupSt → BrupSt) : (s.modBrup f).mgt = s.mgt := rfl
@[simp] theorem State.modBrup_spn (s : State) (f : BrupSt → BrupSt) : (s.modBrup f).spn = s.spn := rfl
@[simp] theorem State.modBrup_sess (s : State) (f : BrupSt → BrupSt) : (s.modBrup f).sess = s.sess := rfl
@[simp] theorem State.modBrup_hbm (s : State) (f : BrupSt → BrupSt) : (s.modBrup f).hbm = s.hbm := rfl
@[simp] theorem State.modBrup_tap (s : State) (f : BrupSt → BrupSt) : (s.modBrup f).tap = s.tap := rfl
@[simp] theorem State.modBrup_fabs (s : State) (f : BrupSt → BrupSt) : (s.modBrup f).fabs = s.fabs := rfl
@[simp] theorem State.modBrup_parts (s : State) (f : BrupSt → BrupSt) : (s.modBrup f).parts = s.parts := rfl
@[simp] theorem State.modBrup_cluss (s : State) (f : BrupSt → BrupSt) : (s.modBrup f).cluss = s.cluss := rfl
@[simp] theorem State.modBrup_tiles (s : State) (f : BrupSt → BrupSt) : (s.modBrup f).tiles = s.tiles := rfl
@[simp] theorem State.modBrup_ctxs (s : State) (f : BrupSt → BrupSt) : (s.modBrup f).ctxs = s.ctxs := rfl
@[simp] theorem State.modBrup_tasks (s : State) (f : BrupSt → BrupSt) : (s.modBrup f).tasks = s.tasks := rfl
@[simp] theorem State.modBrup_scheds (s : State) (f : BrupSt → BrupSt) : (s.modBrup f).scheds = s.scheds := rfl
@[simp] theorem State.modBrup_held (s : State) (f : BrupSt → BrupSt) : (s.modBrup f).held = s.held := rfl
@[simp] theorem State.modBrup_latches (s : State) (f : BrupSt → BrupSt) : (s.modBrup f).latches = s.latches := rfl
@[simp] theorem State.modBrup_out (s : State) (f : BrupSt → BrupSt) : (s.modBrup f).out = s.out := rfl
@[simp] theorem State.modBrup_ticks (s : State) (f : BrupSt → BrupSt) : (s.modBrup f).ticks = s.ticks := rfl
@[simp] theorem State.modBrup_free (s : State) (f : BrupSt → BrupSt) : (s.modBrup f).free = s.free := rfl
@[simp] theorem State.modBrup_pending (s : State) (f : BrupSt → BrupSt) : (s.modBrup f).pending = s.pending := rfl

@[simp] theorem State.modPwr_fuse (s : State) (f : PwrSt → PwrSt) : (s.modPwr f).fuse = s.fuse := rfl
@[simp] theorem State.modPwr_flash (s : State) (f : PwrSt → PwrSt) : (s.modPwr f).flash = s.flash := rfl
@[simp] theorem State.modPwr_top (s : State) (f : PwrSt → PwrSt) : (s.modPwr f).top = s.top := rfl
@[simp] theorem State.modPwr_rstc (s : State) (f : PwrSt → PwrSt) : (s.modPwr f).rstc = s.rstc := rfl
@[simp] theorem State.modPwr_brup (s : State) (f : PwrSt → PwrSt) : (s.modPwr f).brup = s.brup := rfl
@[simp] theorem State.modPwr_pwr (s : State) (f : PwrSt → PwrSt) : (s.modPwr f).pwr = f s.pwr := rfl
@[simp] theorem State.modPwr_gov (s : State) (f : PwrSt → PwrSt) : (s.modPwr f).gov = s.gov := rfl
@[simp] theorem State.modPwr_clk (s : State) (f : PwrSt → PwrSt) : (s.modPwr f).clk = s.clk := rfl
@[simp] theorem State.modPwr_fret (s : State) (f : PwrSt → PwrSt) : (s.modPwr f).fret = s.fret := rfl
@[simp] theorem State.modPwr_ids (s : State) (f : PwrSt → PwrSt) : (s.modPwr f).ids = s.ids := rfl
@[simp] theorem State.modPwr_sec (s : State) (f : PwrSt → PwrSt) : (s.modPwr f).sec = s.sec := rfl
@[simp] theorem State.modPwr_bist (s : State) (f : PwrSt → PwrSt) : (s.modPwr f).bist = s.bist := rfl
@[simp] theorem State.modPwr_heal (s : State) (f : PwrSt → PwrSt) : (s.modPwr f).heal = s.heal := rfl
@[simp] theorem State.modPwr_healx (s : State) (f : PwrSt → PwrSt) : (s.modPwr f).healx = s.healx := rfl
@[simp] theorem State.modPwr_rel (s : State) (f : PwrSt → PwrSt) : (s.modPwr f).rel = s.rel := rfl
@[simp] theorem State.modPwr_relx (s : State) (f : PwrSt → PwrSt) : (s.modPwr f).relx = s.relx := rfl
@[simp] theorem State.modPwr_chest (s : State) (f : PwrSt → PwrSt) : (s.modPwr f).chest = s.chest := rfl
@[simp] theorem State.modPwr_tel (s : State) (f : PwrSt → PwrSt) : (s.modPwr f).tel = s.tel := rfl
@[simp] theorem State.modPwr_mch (s : State) (f : PwrSt → PwrSt) : (s.modPwr f).mch = s.mch := rfl
@[simp] theorem State.modPwr_pcie (s : State) (f : PwrSt → PwrSt) : (s.modPwr f).pcie = s.pcie := rfl
@[simp] theorem State.modPwr_mgt (s : State) (f : PwrSt → PwrSt) : (s.modPwr f).mgt = s.mgt := rfl
@[simp] theorem State.modPwr_spn (s : State) (f : PwrSt → PwrSt) : (s.modPwr f).spn = s.spn := rfl
@[simp] theorem State.modPwr_sess (s : State) (f : PwrSt → PwrSt) : (s.modPwr f).sess = s.sess := rfl
@[simp] theorem State.modPwr_hbm (s : State) (f : PwrSt → PwrSt) : (s.modPwr f).hbm = s.hbm := rfl
@[simp] theorem State.modPwr_tap (s : State) (f : PwrSt → PwrSt) : (s.modPwr f).tap = s.tap := rfl
@[simp] theorem State.modPwr_fabs (s : State) (f : PwrSt → PwrSt) : (s.modPwr f).fabs = s.fabs := rfl
@[simp] theorem State.modPwr_parts (s : State) (f : PwrSt → PwrSt) : (s.modPwr f).parts = s.parts := rfl
@[simp] theorem State.modPwr_cluss (s : State) (f : PwrSt → PwrSt) : (s.modPwr f).cluss = s.cluss := rfl
@[simp] theorem State.modPwr_tiles (s : State) (f : PwrSt → PwrSt) : (s.modPwr f).tiles = s.tiles := rfl
@[simp] theorem State.modPwr_ctxs (s : State) (f : PwrSt → PwrSt) : (s.modPwr f).ctxs = s.ctxs := rfl
@[simp] theorem State.modPwr_tasks (s : State) (f : PwrSt → PwrSt) : (s.modPwr f).tasks = s.tasks := rfl
@[simp] theorem State.modPwr_scheds (s : State) (f : PwrSt → PwrSt) : (s.modPwr f).scheds = s.scheds := rfl
@[simp] theorem State.modPwr_held (s : State) (f : PwrSt → PwrSt) : (s.modPwr f).held = s.held := rfl
@[simp] theorem State.modPwr_latches (s : State) (f : PwrSt → PwrSt) : (s.modPwr f).latches = s.latches := rfl
@[simp] theorem State.modPwr_out (s : State) (f : PwrSt → PwrSt) : (s.modPwr f).out = s.out := rfl
@[simp] theorem State.modPwr_ticks (s : State) (f : PwrSt → PwrSt) : (s.modPwr f).ticks = s.ticks := rfl
@[simp] theorem State.modPwr_free (s : State) (f : PwrSt → PwrSt) : (s.modPwr f).free = s.free := rfl
@[simp] theorem State.modPwr_pending (s : State) (f : PwrSt → PwrSt) : (s.modPwr f).pending = s.pending := rfl

@[simp] theorem State.modGov_fuse (s : State) (f : GovSt → GovSt) : (s.modGov f).fuse = s.fuse := rfl
@[simp] theorem State.modGov_flash (s : State) (f : GovSt → GovSt) : (s.modGov f).flash = s.flash := rfl
@[simp] theorem State.modGov_top (s : State) (f : GovSt → GovSt) : (s.modGov f).top = s.top := rfl
@[simp] theorem State.modGov_rstc (s : State) (f : GovSt → GovSt) : (s.modGov f).rstc = s.rstc := rfl
@[simp] theorem State.modGov_brup (s : State) (f : GovSt → GovSt) : (s.modGov f).brup = s.brup := rfl
@[simp] theorem State.modGov_pwr (s : State) (f : GovSt → GovSt) : (s.modGov f).pwr = s.pwr := rfl
@[simp] theorem State.modGov_gov (s : State) (f : GovSt → GovSt) : (s.modGov f).gov = f s.gov := rfl
@[simp] theorem State.modGov_clk (s : State) (f : GovSt → GovSt) : (s.modGov f).clk = s.clk := rfl
@[simp] theorem State.modGov_fret (s : State) (f : GovSt → GovSt) : (s.modGov f).fret = s.fret := rfl
@[simp] theorem State.modGov_ids (s : State) (f : GovSt → GovSt) : (s.modGov f).ids = s.ids := rfl
@[simp] theorem State.modGov_sec (s : State) (f : GovSt → GovSt) : (s.modGov f).sec = s.sec := rfl
@[simp] theorem State.modGov_bist (s : State) (f : GovSt → GovSt) : (s.modGov f).bist = s.bist := rfl
@[simp] theorem State.modGov_heal (s : State) (f : GovSt → GovSt) : (s.modGov f).heal = s.heal := rfl
@[simp] theorem State.modGov_healx (s : State) (f : GovSt → GovSt) : (s.modGov f).healx = s.healx := rfl
@[simp] theorem State.modGov_rel (s : State) (f : GovSt → GovSt) : (s.modGov f).rel = s.rel := rfl
@[simp] theorem State.modGov_relx (s : State) (f : GovSt → GovSt) : (s.modGov f).relx = s.relx := rfl
@[simp] theorem State.modGov_chest (s : State) (f : GovSt → GovSt) : (s.modGov f).chest = s.chest := rfl
@[simp] theorem State.modGov_tel (s : State) (f : GovSt → GovSt) : (s.modGov f).tel = s.tel := rfl
@[simp] theorem State.modGov_mch (s : State) (f : GovSt → GovSt) : (s.modGov f).mch = s.mch := rfl
@[simp] theorem State.modGov_pcie (s : State) (f : GovSt → GovSt) : (s.modGov f).pcie = s.pcie := rfl
@[simp] theorem State.modGov_mgt (s : State) (f : GovSt → GovSt) : (s.modGov f).mgt = s.mgt := rfl
@[simp] theorem State.modGov_spn (s : State) (f : GovSt → GovSt) : (s.modGov f).spn = s.spn := rfl
@[simp] theorem State.modGov_sess (s : State) (f : GovSt → GovSt) : (s.modGov f).sess = s.sess := rfl
@[simp] theorem State.modGov_hbm (s : State) (f : GovSt → GovSt) : (s.modGov f).hbm = s.hbm := rfl
@[simp] theorem State.modGov_tap (s : State) (f : GovSt → GovSt) : (s.modGov f).tap = s.tap := rfl
@[simp] theorem State.modGov_fabs (s : State) (f : GovSt → GovSt) : (s.modGov f).fabs = s.fabs := rfl
@[simp] theorem State.modGov_parts (s : State) (f : GovSt → GovSt) : (s.modGov f).parts = s.parts := rfl
@[simp] theorem State.modGov_cluss (s : State) (f : GovSt → GovSt) : (s.modGov f).cluss = s.cluss := rfl
@[simp] theorem State.modGov_tiles (s : State) (f : GovSt → GovSt) : (s.modGov f).tiles = s.tiles := rfl
@[simp] theorem State.modGov_ctxs (s : State) (f : GovSt → GovSt) : (s.modGov f).ctxs = s.ctxs := rfl
@[simp] theorem State.modGov_tasks (s : State) (f : GovSt → GovSt) : (s.modGov f).tasks = s.tasks := rfl
@[simp] theorem State.modGov_scheds (s : State) (f : GovSt → GovSt) : (s.modGov f).scheds = s.scheds := rfl
@[simp] theorem State.modGov_held (s : State) (f : GovSt → GovSt) : (s.modGov f).held = s.held := rfl
@[simp] theorem State.modGov_latches (s : State) (f : GovSt → GovSt) : (s.modGov f).latches = s.latches := rfl
@[simp] theorem State.modGov_out (s : State) (f : GovSt → GovSt) : (s.modGov f).out = s.out := rfl
@[simp] theorem State.modGov_ticks (s : State) (f : GovSt → GovSt) : (s.modGov f).ticks = s.ticks := rfl
@[simp] theorem State.modGov_free (s : State) (f : GovSt → GovSt) : (s.modGov f).free = s.free := rfl
@[simp] theorem State.modGov_pending (s : State) (f : GovSt → GovSt) : (s.modGov f).pending = s.pending := rfl

@[simp] theorem State.modClk_fuse (s : State) (f : ClkSt → ClkSt) : (s.modClk f).fuse = s.fuse := rfl
@[simp] theorem State.modClk_flash (s : State) (f : ClkSt → ClkSt) : (s.modClk f).flash = s.flash := rfl
@[simp] theorem State.modClk_top (s : State) (f : ClkSt → ClkSt) : (s.modClk f).top = s.top := rfl
@[simp] theorem State.modClk_rstc (s : State) (f : ClkSt → ClkSt) : (s.modClk f).rstc = s.rstc := rfl
@[simp] theorem State.modClk_brup (s : State) (f : ClkSt → ClkSt) : (s.modClk f).brup = s.brup := rfl
@[simp] theorem State.modClk_pwr (s : State) (f : ClkSt → ClkSt) : (s.modClk f).pwr = s.pwr := rfl
@[simp] theorem State.modClk_gov (s : State) (f : ClkSt → ClkSt) : (s.modClk f).gov = s.gov := rfl
@[simp] theorem State.modClk_clk (s : State) (f : ClkSt → ClkSt) : (s.modClk f).clk = f s.clk := rfl
@[simp] theorem State.modClk_fret (s : State) (f : ClkSt → ClkSt) : (s.modClk f).fret = s.fret := rfl
@[simp] theorem State.modClk_ids (s : State) (f : ClkSt → ClkSt) : (s.modClk f).ids = s.ids := rfl
@[simp] theorem State.modClk_sec (s : State) (f : ClkSt → ClkSt) : (s.modClk f).sec = s.sec := rfl
@[simp] theorem State.modClk_bist (s : State) (f : ClkSt → ClkSt) : (s.modClk f).bist = s.bist := rfl
@[simp] theorem State.modClk_heal (s : State) (f : ClkSt → ClkSt) : (s.modClk f).heal = s.heal := rfl
@[simp] theorem State.modClk_healx (s : State) (f : ClkSt → ClkSt) : (s.modClk f).healx = s.healx := rfl
@[simp] theorem State.modClk_rel (s : State) (f : ClkSt → ClkSt) : (s.modClk f).rel = s.rel := rfl
@[simp] theorem State.modClk_relx (s : State) (f : ClkSt → ClkSt) : (s.modClk f).relx = s.relx := rfl
@[simp] theorem State.modClk_chest (s : State) (f : ClkSt → ClkSt) : (s.modClk f).chest = s.chest := rfl
@[simp] theorem State.modClk_tel (s : State) (f : ClkSt → ClkSt) : (s.modClk f).tel = s.tel := rfl
@[simp] theorem State.modClk_mch (s : State) (f : ClkSt → ClkSt) : (s.modClk f).mch = s.mch := rfl
@[simp] theorem State.modClk_pcie (s : State) (f : ClkSt → ClkSt) : (s.modClk f).pcie = s.pcie := rfl
@[simp] theorem State.modClk_mgt (s : State) (f : ClkSt → ClkSt) : (s.modClk f).mgt = s.mgt := rfl
@[simp] theorem State.modClk_spn (s : State) (f : ClkSt → ClkSt) : (s.modClk f).spn = s.spn := rfl
@[simp] theorem State.modClk_sess (s : State) (f : ClkSt → ClkSt) : (s.modClk f).sess = s.sess := rfl
@[simp] theorem State.modClk_hbm (s : State) (f : ClkSt → ClkSt) : (s.modClk f).hbm = s.hbm := rfl
@[simp] theorem State.modClk_tap (s : State) (f : ClkSt → ClkSt) : (s.modClk f).tap = s.tap := rfl
@[simp] theorem State.modClk_fabs (s : State) (f : ClkSt → ClkSt) : (s.modClk f).fabs = s.fabs := rfl
@[simp] theorem State.modClk_parts (s : State) (f : ClkSt → ClkSt) : (s.modClk f).parts = s.parts := rfl
@[simp] theorem State.modClk_cluss (s : State) (f : ClkSt → ClkSt) : (s.modClk f).cluss = s.cluss := rfl
@[simp] theorem State.modClk_tiles (s : State) (f : ClkSt → ClkSt) : (s.modClk f).tiles = s.tiles := rfl
@[simp] theorem State.modClk_ctxs (s : State) (f : ClkSt → ClkSt) : (s.modClk f).ctxs = s.ctxs := rfl
@[simp] theorem State.modClk_tasks (s : State) (f : ClkSt → ClkSt) : (s.modClk f).tasks = s.tasks := rfl
@[simp] theorem State.modClk_scheds (s : State) (f : ClkSt → ClkSt) : (s.modClk f).scheds = s.scheds := rfl
@[simp] theorem State.modClk_held (s : State) (f : ClkSt → ClkSt) : (s.modClk f).held = s.held := rfl
@[simp] theorem State.modClk_latches (s : State) (f : ClkSt → ClkSt) : (s.modClk f).latches = s.latches := rfl
@[simp] theorem State.modClk_out (s : State) (f : ClkSt → ClkSt) : (s.modClk f).out = s.out := rfl
@[simp] theorem State.modClk_ticks (s : State) (f : ClkSt → ClkSt) : (s.modClk f).ticks = s.ticks := rfl
@[simp] theorem State.modClk_free (s : State) (f : ClkSt → ClkSt) : (s.modClk f).free = s.free := rfl
@[simp] theorem State.modClk_pending (s : State) (f : ClkSt → ClkSt) : (s.modClk f).pending = s.pending := rfl

@[simp] theorem State.modFret_fuse (s : State) (f : FretSt → FretSt) : (s.modFret f).fuse = s.fuse := rfl
@[simp] theorem State.modFret_flash (s : State) (f : FretSt → FretSt) : (s.modFret f).flash = s.flash := rfl
@[simp] theorem State.modFret_top (s : State) (f : FretSt → FretSt) : (s.modFret f).top = s.top := rfl
@[simp] theorem State.modFret_rstc (s : State) (f : FretSt → FretSt) : (s.modFret f).rstc = s.rstc := rfl
@[simp] theorem State.modFret_brup (s : State) (f : FretSt → FretSt) : (s.modFret f).brup = s.brup := rfl
@[simp] theorem State.modFret_pwr (s : State) (f : FretSt → FretSt) : (s.modFret f).pwr = s.pwr := rfl
@[simp] theorem State.modFret_gov (s : State) (f : FretSt → FretSt) : (s.modFret f).gov = s.gov := rfl
@[simp] theorem State.modFret_clk (s : State) (f : FretSt → FretSt) : (s.modFret f).clk = s.clk := rfl
@[simp] theorem State.modFret_fret (s : State) (f : FretSt → FretSt) : (s.modFret f).fret = f s.fret := rfl
@[simp] theorem State.modFret_ids (s : State) (f : FretSt → FretSt) : (s.modFret f).ids = s.ids := rfl
@[simp] theorem State.modFret_sec (s : State) (f : FretSt → FretSt) : (s.modFret f).sec = s.sec := rfl
@[simp] theorem State.modFret_bist (s : State) (f : FretSt → FretSt) : (s.modFret f).bist = s.bist := rfl
@[simp] theorem State.modFret_heal (s : State) (f : FretSt → FretSt) : (s.modFret f).heal = s.heal := rfl
@[simp] theorem State.modFret_healx (s : State) (f : FretSt → FretSt) : (s.modFret f).healx = s.healx := rfl
@[simp] theorem State.modFret_rel (s : State) (f : FretSt → FretSt) : (s.modFret f).rel = s.rel := rfl
@[simp] theorem State.modFret_relx (s : State) (f : FretSt → FretSt) : (s.modFret f).relx = s.relx := rfl
@[simp] theorem State.modFret_chest (s : State) (f : FretSt → FretSt) : (s.modFret f).chest = s.chest := rfl
@[simp] theorem State.modFret_tel (s : State) (f : FretSt → FretSt) : (s.modFret f).tel = s.tel := rfl
@[simp] theorem State.modFret_mch (s : State) (f : FretSt → FretSt) : (s.modFret f).mch = s.mch := rfl
@[simp] theorem State.modFret_pcie (s : State) (f : FretSt → FretSt) : (s.modFret f).pcie = s.pcie := rfl
@[simp] theorem State.modFret_mgt (s : State) (f : FretSt → FretSt) : (s.modFret f).mgt = s.mgt := rfl
@[simp] theorem State.modFret_spn (s : State) (f : FretSt → FretSt) : (s.modFret f).spn = s.spn := rfl
@[simp] theorem State.modFret_sess (s : State) (f : FretSt → FretSt) : (s.modFret f).sess = s.sess := rfl
@[simp] theorem State.modFret_hbm (s : State) (f : FretSt → FretSt) : (s.modFret f).hbm = s.hbm := rfl
@[simp] theorem State.modFret_tap (s : State) (f : FretSt → FretSt) : (s.modFret f).tap = s.tap := rfl
@[simp] theorem State.modFret_fabs (s : State) (f : FretSt → FretSt) : (s.modFret f).fabs = s.fabs := rfl
@[simp] theorem State.modFret_parts (s : State) (f : FretSt → FretSt) : (s.modFret f).parts = s.parts := rfl
@[simp] theorem State.modFret_cluss (s : State) (f : FretSt → FretSt) : (s.modFret f).cluss = s.cluss := rfl
@[simp] theorem State.modFret_tiles (s : State) (f : FretSt → FretSt) : (s.modFret f).tiles = s.tiles := rfl
@[simp] theorem State.modFret_ctxs (s : State) (f : FretSt → FretSt) : (s.modFret f).ctxs = s.ctxs := rfl
@[simp] theorem State.modFret_tasks (s : State) (f : FretSt → FretSt) : (s.modFret f).tasks = s.tasks := rfl
@[simp] theorem State.modFret_scheds (s : State) (f : FretSt → FretSt) : (s.modFret f).scheds = s.scheds := rfl
@[simp] theorem State.modFret_held (s : State) (f : FretSt → FretSt) : (s.modFret f).held = s.held := rfl
@[simp] theorem State.modFret_latches (s : State) (f : FretSt → FretSt) : (s.modFret f).latches = s.latches := rfl
@[simp] theorem State.modFret_out (s : State) (f : FretSt → FretSt) : (s.modFret f).out = s.out := rfl
@[simp] theorem State.modFret_ticks (s : State) (f : FretSt → FretSt) : (s.modFret f).ticks = s.ticks := rfl
@[simp] theorem State.modFret_free (s : State) (f : FretSt → FretSt) : (s.modFret f).free = s.free := rfl
@[simp] theorem State.modFret_pending (s : State) (f : FretSt → FretSt) : (s.modFret f).pending = s.pending := rfl

@[simp] theorem State.modIds_fuse (s : State) (f : IdSt → IdSt) : (s.modIds f).fuse = s.fuse := rfl
@[simp] theorem State.modIds_flash (s : State) (f : IdSt → IdSt) : (s.modIds f).flash = s.flash := rfl
@[simp] theorem State.modIds_top (s : State) (f : IdSt → IdSt) : (s.modIds f).top = s.top := rfl
@[simp] theorem State.modIds_rstc (s : State) (f : IdSt → IdSt) : (s.modIds f).rstc = s.rstc := rfl
@[simp] theorem State.modIds_brup (s : State) (f : IdSt → IdSt) : (s.modIds f).brup = s.brup := rfl
@[simp] theorem State.modIds_pwr (s : State) (f : IdSt → IdSt) : (s.modIds f).pwr = s.pwr := rfl
@[simp] theorem State.modIds_gov (s : State) (f : IdSt → IdSt) : (s.modIds f).gov = s.gov := rfl
@[simp] theorem State.modIds_clk (s : State) (f : IdSt → IdSt) : (s.modIds f).clk = s.clk := rfl
@[simp] theorem State.modIds_fret (s : State) (f : IdSt → IdSt) : (s.modIds f).fret = s.fret := rfl
@[simp] theorem State.modIds_ids (s : State) (f : IdSt → IdSt) : (s.modIds f).ids = f s.ids := rfl
@[simp] theorem State.modIds_sec (s : State) (f : IdSt → IdSt) : (s.modIds f).sec = s.sec := rfl
@[simp] theorem State.modIds_bist (s : State) (f : IdSt → IdSt) : (s.modIds f).bist = s.bist := rfl
@[simp] theorem State.modIds_heal (s : State) (f : IdSt → IdSt) : (s.modIds f).heal = s.heal := rfl
@[simp] theorem State.modIds_healx (s : State) (f : IdSt → IdSt) : (s.modIds f).healx = s.healx := rfl
@[simp] theorem State.modIds_rel (s : State) (f : IdSt → IdSt) : (s.modIds f).rel = s.rel := rfl
@[simp] theorem State.modIds_relx (s : State) (f : IdSt → IdSt) : (s.modIds f).relx = s.relx := rfl
@[simp] theorem State.modIds_chest (s : State) (f : IdSt → IdSt) : (s.modIds f).chest = s.chest := rfl
@[simp] theorem State.modIds_tel (s : State) (f : IdSt → IdSt) : (s.modIds f).tel = s.tel := rfl
@[simp] theorem State.modIds_mch (s : State) (f : IdSt → IdSt) : (s.modIds f).mch = s.mch := rfl
@[simp] theorem State.modIds_pcie (s : State) (f : IdSt → IdSt) : (s.modIds f).pcie = s.pcie := rfl
@[simp] theorem State.modIds_mgt (s : State) (f : IdSt → IdSt) : (s.modIds f).mgt = s.mgt := rfl
@[simp] theorem State.modIds_spn (s : State) (f : IdSt → IdSt) : (s.modIds f).spn = s.spn := rfl
@[simp] theorem State.modIds_sess (s : State) (f : IdSt → IdSt) : (s.modIds f).sess = s.sess := rfl
@[simp] theorem State.modIds_hbm (s : State) (f : IdSt → IdSt) : (s.modIds f).hbm = s.hbm := rfl
@[simp] theorem State.modIds_tap (s : State) (f : IdSt → IdSt) : (s.modIds f).tap = s.tap := rfl
@[simp] theorem State.modIds_fabs (s : State) (f : IdSt → IdSt) : (s.modIds f).fabs = s.fabs := rfl
@[simp] theorem State.modIds_parts (s : State) (f : IdSt → IdSt) : (s.modIds f).parts = s.parts := rfl
@[simp] theorem State.modIds_cluss (s : State) (f : IdSt → IdSt) : (s.modIds f).cluss = s.cluss := rfl
@[simp] theorem State.modIds_tiles (s : State) (f : IdSt → IdSt) : (s.modIds f).tiles = s.tiles := rfl
@[simp] theorem State.modIds_ctxs (s : State) (f : IdSt → IdSt) : (s.modIds f).ctxs = s.ctxs := rfl
@[simp] theorem State.modIds_tasks (s : State) (f : IdSt → IdSt) : (s.modIds f).tasks = s.tasks := rfl
@[simp] theorem State.modIds_scheds (s : State) (f : IdSt → IdSt) : (s.modIds f).scheds = s.scheds := rfl
@[simp] theorem State.modIds_held (s : State) (f : IdSt → IdSt) : (s.modIds f).held = s.held := rfl
@[simp] theorem State.modIds_latches (s : State) (f : IdSt → IdSt) : (s.modIds f).latches = s.latches := rfl
@[simp] theorem State.modIds_out (s : State) (f : IdSt → IdSt) : (s.modIds f).out = s.out := rfl
@[simp] theorem State.modIds_ticks (s : State) (f : IdSt → IdSt) : (s.modIds f).ticks = s.ticks := rfl
@[simp] theorem State.modIds_free (s : State) (f : IdSt → IdSt) : (s.modIds f).free = s.free := rfl
@[simp] theorem State.modIds_pending (s : State) (f : IdSt → IdSt) : (s.modIds f).pending = s.pending := rfl

@[simp] theorem State.modSec_fuse (s : State) (f : SecSt → SecSt) : (s.modSec f).fuse = s.fuse := rfl
@[simp] theorem State.modSec_flash (s : State) (f : SecSt → SecSt) : (s.modSec f).flash = s.flash := rfl
@[simp] theorem State.modSec_top (s : State) (f : SecSt → SecSt) : (s.modSec f).top = s.top := rfl
@[simp] theorem State.modSec_rstc (s : State) (f : SecSt → SecSt) : (s.modSec f).rstc = s.rstc := rfl
@[simp] theorem State.modSec_brup (s : State) (f : SecSt → SecSt) : (s.modSec f).brup = s.brup := rfl
@[simp] theorem State.modSec_pwr (s : State) (f : SecSt → SecSt) : (s.modSec f).pwr = s.pwr := rfl
@[simp] theorem State.modSec_gov (s : State) (f : SecSt → SecSt) : (s.modSec f).gov = s.gov := rfl
@[simp] theorem State.modSec_clk (s : State) (f : SecSt → SecSt) : (s.modSec f).clk = s.clk := rfl
@[simp] theorem State.modSec_fret (s : State) (f : SecSt → SecSt) : (s.modSec f).fret = s.fret := rfl
@[simp] theorem State.modSec_ids (s : State) (f : SecSt → SecSt) : (s.modSec f).ids = s.ids := rfl
@[simp] theorem State.modSec_sec (s : State) (f : SecSt → SecSt) : (s.modSec f).sec = f s.sec := rfl
@[simp] theorem State.modSec_bist (s : State) (f : SecSt → SecSt) : (s.modSec f).bist = s.bist := rfl
@[simp] theorem State.modSec_heal (s : State) (f : SecSt → SecSt) : (s.modSec f).heal = s.heal := rfl
@[simp] theorem State.modSec_healx (s : State) (f : SecSt → SecSt) : (s.modSec f).healx = s.healx := rfl
@[simp] theorem State.modSec_rel (s : State) (f : SecSt → SecSt) : (s.modSec f).rel = s.rel := rfl
@[simp] theorem State.modSec_relx (s : State) (f : SecSt → SecSt) : (s.modSec f).relx = s.relx := rfl
@[simp] theorem State.modSec_chest (s : State) (f : SecSt → SecSt) : (s.modSec f).chest = s.chest := rfl
@[simp] theorem State.modSec_tel (s : State) (f : SecSt → SecSt) : (s.modSec f).tel = s.tel := rfl
@[simp] theorem State.modSec_mch (s : State) (f : SecSt → SecSt) : (s.modSec f).mch = s.mch := rfl
@[simp] theorem State.modSec_pcie (s : State) (f : SecSt → SecSt) : (s.modSec f).pcie = s.pcie := rfl
@[simp] theorem State.modSec_mgt (s : State) (f : SecSt → SecSt) : (s.modSec f).mgt = s.mgt := rfl
@[simp] theorem State.modSec_spn (s : State) (f : SecSt → SecSt) : (s.modSec f).spn = s.spn := rfl
@[simp] theorem State.modSec_sess (s : State) (f : SecSt → SecSt) : (s.modSec f).sess = s.sess := rfl
@[simp] theorem State.modSec_hbm (s : State) (f : SecSt → SecSt) : (s.modSec f).hbm = s.hbm := rfl
@[simp] theorem State.modSec_tap (s : State) (f : SecSt → SecSt) : (s.modSec f).tap = s.tap := rfl
@[simp] theorem State.modSec_fabs (s : State) (f : SecSt → SecSt) : (s.modSec f).fabs = s.fabs := rfl
@[simp] theorem State.modSec_parts (s : State) (f : SecSt → SecSt) : (s.modSec f).parts = s.parts := rfl
@[simp] theorem State.modSec_cluss (s : State) (f : SecSt → SecSt) : (s.modSec f).cluss = s.cluss := rfl
@[simp] theorem State.modSec_tiles (s : State) (f : SecSt → SecSt) : (s.modSec f).tiles = s.tiles := rfl
@[simp] theorem State.modSec_ctxs (s : State) (f : SecSt → SecSt) : (s.modSec f).ctxs = s.ctxs := rfl
@[simp] theorem State.modSec_tasks (s : State) (f : SecSt → SecSt) : (s.modSec f).tasks = s.tasks := rfl
@[simp] theorem State.modSec_scheds (s : State) (f : SecSt → SecSt) : (s.modSec f).scheds = s.scheds := rfl
@[simp] theorem State.modSec_held (s : State) (f : SecSt → SecSt) : (s.modSec f).held = s.held := rfl
@[simp] theorem State.modSec_latches (s : State) (f : SecSt → SecSt) : (s.modSec f).latches = s.latches := rfl
@[simp] theorem State.modSec_out (s : State) (f : SecSt → SecSt) : (s.modSec f).out = s.out := rfl
@[simp] theorem State.modSec_ticks (s : State) (f : SecSt → SecSt) : (s.modSec f).ticks = s.ticks := rfl
@[simp] theorem State.modSec_free (s : State) (f : SecSt → SecSt) : (s.modSec f).free = s.free := rfl
@[simp] theorem State.modSec_pending (s : State) (f : SecSt → SecSt) : (s.modSec f).pending = s.pending := rfl

@[simp] theorem State.modBist_fuse (s : State) (f : BistSt → BistSt) : (s.modBist f).fuse = s.fuse := rfl
@[simp] theorem State.modBist_flash (s : State) (f : BistSt → BistSt) : (s.modBist f).flash = s.flash := rfl
@[simp] theorem State.modBist_top (s : State) (f : BistSt → BistSt) : (s.modBist f).top = s.top := rfl
@[simp] theorem State.modBist_rstc (s : State) (f : BistSt → BistSt) : (s.modBist f).rstc = s.rstc := rfl
@[simp] theorem State.modBist_brup (s : State) (f : BistSt → BistSt) : (s.modBist f).brup = s.brup := rfl
@[simp] theorem State.modBist_pwr (s : State) (f : BistSt → BistSt) : (s.modBist f).pwr = s.pwr := rfl
@[simp] theorem State.modBist_gov (s : State) (f : BistSt → BistSt) : (s.modBist f).gov = s.gov := rfl
@[simp] theorem State.modBist_clk (s : State) (f : BistSt → BistSt) : (s.modBist f).clk = s.clk := rfl
@[simp] theorem State.modBist_fret (s : State) (f : BistSt → BistSt) : (s.modBist f).fret = s.fret := rfl
@[simp] theorem State.modBist_ids (s : State) (f : BistSt → BistSt) : (s.modBist f).ids = s.ids := rfl
@[simp] theorem State.modBist_sec (s : State) (f : BistSt → BistSt) : (s.modBist f).sec = s.sec := rfl
@[simp] theorem State.modBist_bist (s : State) (f : BistSt → BistSt) : (s.modBist f).bist = f s.bist := rfl
@[simp] theorem State.modBist_heal (s : State) (f : BistSt → BistSt) : (s.modBist f).heal = s.heal := rfl
@[simp] theorem State.modBist_healx (s : State) (f : BistSt → BistSt) : (s.modBist f).healx = s.healx := rfl
@[simp] theorem State.modBist_rel (s : State) (f : BistSt → BistSt) : (s.modBist f).rel = s.rel := rfl
@[simp] theorem State.modBist_relx (s : State) (f : BistSt → BistSt) : (s.modBist f).relx = s.relx := rfl
@[simp] theorem State.modBist_chest (s : State) (f : BistSt → BistSt) : (s.modBist f).chest = s.chest := rfl
@[simp] theorem State.modBist_tel (s : State) (f : BistSt → BistSt) : (s.modBist f).tel = s.tel := rfl
@[simp] theorem State.modBist_mch (s : State) (f : BistSt → BistSt) : (s.modBist f).mch = s.mch := rfl
@[simp] theorem State.modBist_pcie (s : State) (f : BistSt → BistSt) : (s.modBist f).pcie = s.pcie := rfl
@[simp] theorem State.modBist_mgt (s : State) (f : BistSt → BistSt) : (s.modBist f).mgt = s.mgt := rfl
@[simp] theorem State.modBist_spn (s : State) (f : BistSt → BistSt) : (s.modBist f).spn = s.spn := rfl
@[simp] theorem State.modBist_sess (s : State) (f : BistSt → BistSt) : (s.modBist f).sess = s.sess := rfl
@[simp] theorem State.modBist_hbm (s : State) (f : BistSt → BistSt) : (s.modBist f).hbm = s.hbm := rfl
@[simp] theorem State.modBist_tap (s : State) (f : BistSt → BistSt) : (s.modBist f).tap = s.tap := rfl
@[simp] theorem State.modBist_fabs (s : State) (f : BistSt → BistSt) : (s.modBist f).fabs = s.fabs := rfl
@[simp] theorem State.modBist_parts (s : State) (f : BistSt → BistSt) : (s.modBist f).parts = s.parts := rfl
@[simp] theorem State.modBist_cluss (s : State) (f : BistSt → BistSt) : (s.modBist f).cluss = s.cluss := rfl
@[simp] theorem State.modBist_tiles (s : State) (f : BistSt → BistSt) : (s.modBist f).tiles = s.tiles := rfl
@[simp] theorem State.modBist_ctxs (s : State) (f : BistSt → BistSt) : (s.modBist f).ctxs = s.ctxs := rfl
@[simp] theorem State.modBist_tasks (s : State) (f : BistSt → BistSt) : (s.modBist f).tasks = s.tasks := rfl
@[simp] theorem State.modBist_scheds (s : State) (f : BistSt → BistSt) : (s.modBist f).scheds = s.scheds := rfl
@[simp] theorem State.modBist_held (s : State) (f : BistSt → BistSt) : (s.modBist f).held = s.held := rfl
@[simp] theorem State.modBist_latches (s : State) (f : BistSt → BistSt) : (s.modBist f).latches = s.latches := rfl
@[simp] theorem State.modBist_out (s : State) (f : BistSt → BistSt) : (s.modBist f).out = s.out := rfl
@[simp] theorem State.modBist_ticks (s : State) (f : BistSt → BistSt) : (s.modBist f).ticks = s.ticks := rfl
@[simp] theorem State.modBist_free (s : State) (f : BistSt → BistSt) : (s.modBist f).free = s.free := rfl
@[simp] theorem State.modBist_pending (s : State) (f : BistSt → BistSt) : (s.modBist f).pending = s.pending := rfl

@[simp] theorem State.modHeal_fuse (s : State) (f : HealSt → HealSt) : (s.modHeal f).fuse = s.fuse := rfl
@[simp] theorem State.modHeal_flash (s : State) (f : HealSt → HealSt) : (s.modHeal f).flash = s.flash := rfl
@[simp] theorem State.modHeal_top (s : State) (f : HealSt → HealSt) : (s.modHeal f).top = s.top := rfl
@[simp] theorem State.modHeal_rstc (s : State) (f : HealSt → HealSt) : (s.modHeal f).rstc = s.rstc := rfl
@[simp] theorem State.modHeal_brup (s : State) (f : HealSt → HealSt) : (s.modHeal f).brup = s.brup := rfl
@[simp] theorem State.modHeal_pwr (s : State) (f : HealSt → HealSt) : (s.modHeal f).pwr = s.pwr := rfl
@[simp] theorem State.modHeal_gov (s : State) (f : HealSt → HealSt) : (s.modHeal f).gov = s.gov := rfl
@[simp] theorem State.modHeal_clk (s : State) (f : HealSt → HealSt) : (s.modHeal f).clk = s.clk := rfl
@[simp] theorem State.modHeal_fret (s : State) (f : HealSt → HealSt) : (s.modHeal f).fret = s.fret := rfl
@[simp] theorem State.modHeal_ids (s : State) (f : HealSt → HealSt) : (s.modHeal f).ids = s.ids := rfl
@[simp] theorem State.modHeal_sec (s : State) (f : HealSt → HealSt) : (s.modHeal f).sec = s.sec := rfl
@[simp] theorem State.modHeal_bist (s : State) (f : HealSt → HealSt) : (s.modHeal f).bist = s.bist := rfl
@[simp] theorem State.modHeal_heal (s : State) (f : HealSt → HealSt) : (s.modHeal f).heal = f s.heal := rfl
@[simp] theorem State.modHeal_healx (s : State) (f : HealSt → HealSt) : (s.modHeal f).healx = s.healx := rfl
@[simp] theorem State.modHeal_rel (s : State) (f : HealSt → HealSt) : (s.modHeal f).rel = s.rel := rfl
@[simp] theorem State.modHeal_relx (s : State) (f : HealSt → HealSt) : (s.modHeal f).relx = s.relx := rfl
@[simp] theorem State.modHeal_chest (s : State) (f : HealSt → HealSt) : (s.modHeal f).chest = s.chest := rfl
@[simp] theorem State.modHeal_tel (s : State) (f : HealSt → HealSt) : (s.modHeal f).tel = s.tel := rfl
@[simp] theorem State.modHeal_mch (s : State) (f : HealSt → HealSt) : (s.modHeal f).mch = s.mch := rfl
@[simp] theorem State.modHeal_pcie (s : State) (f : HealSt → HealSt) : (s.modHeal f).pcie = s.pcie := rfl
@[simp] theorem State.modHeal_mgt (s : State) (f : HealSt → HealSt) : (s.modHeal f).mgt = s.mgt := rfl
@[simp] theorem State.modHeal_spn (s : State) (f : HealSt → HealSt) : (s.modHeal f).spn = s.spn := rfl
@[simp] theorem State.modHeal_sess (s : State) (f : HealSt → HealSt) : (s.modHeal f).sess = s.sess := rfl
@[simp] theorem State.modHeal_hbm (s : State) (f : HealSt → HealSt) : (s.modHeal f).hbm = s.hbm := rfl
@[simp] theorem State.modHeal_tap (s : State) (f : HealSt → HealSt) : (s.modHeal f).tap = s.tap := rfl
@[simp] theorem State.modHeal_fabs (s : State) (f : HealSt → HealSt) : (s.modHeal f).fabs = s.fabs := rfl
@[simp] theorem State.modHeal_parts (s : State) (f : HealSt → HealSt) : (s.modHeal f).parts = s.parts := rfl
@[simp] theorem State.modHeal_cluss (s : State) (f : HealSt → HealSt) : (s.modHeal f).cluss = s.cluss := rfl
@[simp] theorem State.modHeal_tiles (s : State) (f : HealSt → HealSt) : (s.modHeal f).tiles = s.tiles := rfl
@[simp] theorem State.modHeal_ctxs (s : State) (f : HealSt → HealSt) : (s.modHeal f).ctxs = s.ctxs := rfl
@[simp] theorem State.modHeal_tasks (s : State) (f : HealSt → HealSt) : (s.modHeal f).tasks = s.tasks := rfl
@[simp] theorem State.modHeal_scheds (s : State) (f : HealSt → HealSt) : (s.modHeal f).scheds = s.scheds := rfl
@[simp] theorem State.modHeal_held (s : State) (f : HealSt → HealSt) : (s.modHeal f).held = s.held := rfl
@[simp] theorem State.modHeal_latches (s : State) (f : HealSt → HealSt) : (s.modHeal f).latches = s.latches := rfl
@[simp] theorem State.modHeal_out (s : State) (f : HealSt → HealSt) : (s.modHeal f).out = s.out := rfl
@[simp] theorem State.modHeal_ticks (s : State) (f : HealSt → HealSt) : (s.modHeal f).ticks = s.ticks := rfl
@[simp] theorem State.modHeal_free (s : State) (f : HealSt → HealSt) : (s.modHeal f).free = s.free := rfl
@[simp] theorem State.modHeal_pending (s : State) (f : HealSt → HealSt) : (s.modHeal f).pending = s.pending := rfl

@[simp] theorem State.modHealx_fuse (s : State) (f : HealAux → HealAux) : (s.modHealx f).fuse = s.fuse := rfl
@[simp] theorem State.modHealx_flash (s : State) (f : HealAux → HealAux) : (s.modHealx f).flash = s.flash := rfl
@[simp] theorem State.modHealx_top (s : State) (f : HealAux → HealAux) : (s.modHealx f).top = s.top := rfl
@[simp] theorem State.modHealx_rstc (s : State) (f : HealAux → HealAux) : (s.modHealx f).rstc = s.rstc := rfl
@[simp] theorem State.modHealx_brup (s : State) (f : HealAux → HealAux) : (s.modHealx f).brup = s.brup := rfl
@[simp] theorem State.modHealx_pwr (s : State) (f : HealAux → HealAux) : (s.modHealx f).pwr = s.pwr := rfl
@[simp] theorem State.modHealx_gov (s : State) (f : HealAux → HealAux) : (s.modHealx f).gov = s.gov := rfl
@[simp] theorem State.modHealx_clk (s : State) (f : HealAux → HealAux) : (s.modHealx f).clk = s.clk := rfl
@[simp] theorem State.modHealx_fret (s : State) (f : HealAux → HealAux) : (s.modHealx f).fret = s.fret := rfl
@[simp] theorem State.modHealx_ids (s : State) (f : HealAux → HealAux) : (s.modHealx f).ids = s.ids := rfl
@[simp] theorem State.modHealx_sec (s : State) (f : HealAux → HealAux) : (s.modHealx f).sec = s.sec := rfl
@[simp] theorem State.modHealx_bist (s : State) (f : HealAux → HealAux) : (s.modHealx f).bist = s.bist := rfl
@[simp] theorem State.modHealx_heal (s : State) (f : HealAux → HealAux) : (s.modHealx f).heal = s.heal := rfl
@[simp] theorem State.modHealx_healx (s : State) (f : HealAux → HealAux) : (s.modHealx f).healx = f s.healx := rfl
@[simp] theorem State.modHealx_rel (s : State) (f : HealAux → HealAux) : (s.modHealx f).rel = s.rel := rfl
@[simp] theorem State.modHealx_relx (s : State) (f : HealAux → HealAux) : (s.modHealx f).relx = s.relx := rfl
@[simp] theorem State.modHealx_chest (s : State) (f : HealAux → HealAux) : (s.modHealx f).chest = s.chest := rfl
@[simp] theorem State.modHealx_tel (s : State) (f : HealAux → HealAux) : (s.modHealx f).tel = s.tel := rfl
@[simp] theorem State.modHealx_mch (s : State) (f : HealAux → HealAux) : (s.modHealx f).mch = s.mch := rfl
@[simp] theorem State.modHealx_pcie (s : State) (f : HealAux → HealAux) : (s.modHealx f).pcie = s.pcie := rfl
@[simp] theorem State.modHealx_mgt (s : State) (f : HealAux → HealAux) : (s.modHealx f).mgt = s.mgt := rfl
@[simp] theorem State.modHealx_spn (s : State) (f : HealAux → HealAux) : (s.modHealx f).spn = s.spn := rfl
@[simp] theorem State.modHealx_sess (s : State) (f : HealAux → HealAux) : (s.modHealx f).sess = s.sess := rfl
@[simp] theorem State.modHealx_hbm (s : State) (f : HealAux → HealAux) : (s.modHealx f).hbm = s.hbm := rfl
@[simp] theorem State.modHealx_tap (s : State) (f : HealAux → HealAux) : (s.modHealx f).tap = s.tap := rfl
@[simp] theorem State.modHealx_fabs (s : State) (f : HealAux → HealAux) : (s.modHealx f).fabs = s.fabs := rfl
@[simp] theorem State.modHealx_parts (s : State) (f : HealAux → HealAux) : (s.modHealx f).parts = s.parts := rfl
@[simp] theorem State.modHealx_cluss (s : State) (f : HealAux → HealAux) : (s.modHealx f).cluss = s.cluss := rfl
@[simp] theorem State.modHealx_tiles (s : State) (f : HealAux → HealAux) : (s.modHealx f).tiles = s.tiles := rfl
@[simp] theorem State.modHealx_ctxs (s : State) (f : HealAux → HealAux) : (s.modHealx f).ctxs = s.ctxs := rfl
@[simp] theorem State.modHealx_tasks (s : State) (f : HealAux → HealAux) : (s.modHealx f).tasks = s.tasks := rfl
@[simp] theorem State.modHealx_scheds (s : State) (f : HealAux → HealAux) : (s.modHealx f).scheds = s.scheds := rfl
@[simp] theorem State.modHealx_held (s : State) (f : HealAux → HealAux) : (s.modHealx f).held = s.held := rfl
@[simp] theorem State.modHealx_latches (s : State) (f : HealAux → HealAux) : (s.modHealx f).latches = s.latches := rfl
@[simp] theorem State.modHealx_out (s : State) (f : HealAux → HealAux) : (s.modHealx f).out = s.out := rfl
@[simp] theorem State.modHealx_ticks (s : State) (f : HealAux → HealAux) : (s.modHealx f).ticks = s.ticks := rfl
@[simp] theorem State.modHealx_free (s : State) (f : HealAux → HealAux) : (s.modHealx f).free = s.free := rfl
@[simp] theorem State.modHealx_pending (s : State) (f : HealAux → HealAux) : (s.modHealx f).pending = s.pending := rfl

@[simp] theorem State.modRel_fuse (s : State) (f : RelSt → RelSt) : (s.modRel f).fuse = s.fuse := rfl
@[simp] theorem State.modRel_flash (s : State) (f : RelSt → RelSt) : (s.modRel f).flash = s.flash := rfl
@[simp] theorem State.modRel_top (s : State) (f : RelSt → RelSt) : (s.modRel f).top = s.top := rfl
@[simp] theorem State.modRel_rstc (s : State) (f : RelSt → RelSt) : (s.modRel f).rstc = s.rstc := rfl
@[simp] theorem State.modRel_brup (s : State) (f : RelSt → RelSt) : (s.modRel f).brup = s.brup := rfl
@[simp] theorem State.modRel_pwr (s : State) (f : RelSt → RelSt) : (s.modRel f).pwr = s.pwr := rfl
@[simp] theorem State.modRel_gov (s : State) (f : RelSt → RelSt) : (s.modRel f).gov = s.gov := rfl
@[simp] theorem State.modRel_clk (s : State) (f : RelSt → RelSt) : (s.modRel f).clk = s.clk := rfl
@[simp] theorem State.modRel_fret (s : State) (f : RelSt → RelSt) : (s.modRel f).fret = s.fret := rfl
@[simp] theorem State.modRel_ids (s : State) (f : RelSt → RelSt) : (s.modRel f).ids = s.ids := rfl
@[simp] theorem State.modRel_sec (s : State) (f : RelSt → RelSt) : (s.modRel f).sec = s.sec := rfl
@[simp] theorem State.modRel_bist (s : State) (f : RelSt → RelSt) : (s.modRel f).bist = s.bist := rfl
@[simp] theorem State.modRel_heal (s : State) (f : RelSt → RelSt) : (s.modRel f).heal = s.heal := rfl
@[simp] theorem State.modRel_healx (s : State) (f : RelSt → RelSt) : (s.modRel f).healx = s.healx := rfl
@[simp] theorem State.modRel_rel (s : State) (f : RelSt → RelSt) : (s.modRel f).rel = f s.rel := rfl
@[simp] theorem State.modRel_relx (s : State) (f : RelSt → RelSt) : (s.modRel f).relx = s.relx := rfl
@[simp] theorem State.modRel_chest (s : State) (f : RelSt → RelSt) : (s.modRel f).chest = s.chest := rfl
@[simp] theorem State.modRel_tel (s : State) (f : RelSt → RelSt) : (s.modRel f).tel = s.tel := rfl
@[simp] theorem State.modRel_mch (s : State) (f : RelSt → RelSt) : (s.modRel f).mch = s.mch := rfl
@[simp] theorem State.modRel_pcie (s : State) (f : RelSt → RelSt) : (s.modRel f).pcie = s.pcie := rfl
@[simp] theorem State.modRel_mgt (s : State) (f : RelSt → RelSt) : (s.modRel f).mgt = s.mgt := rfl
@[simp] theorem State.modRel_spn (s : State) (f : RelSt → RelSt) : (s.modRel f).spn = s.spn := rfl
@[simp] theorem State.modRel_sess (s : State) (f : RelSt → RelSt) : (s.modRel f).sess = s.sess := rfl
@[simp] theorem State.modRel_hbm (s : State) (f : RelSt → RelSt) : (s.modRel f).hbm = s.hbm := rfl
@[simp] theorem State.modRel_tap (s : State) (f : RelSt → RelSt) : (s.modRel f).tap = s.tap := rfl
@[simp] theorem State.modRel_fabs (s : State) (f : RelSt → RelSt) : (s.modRel f).fabs = s.fabs := rfl
@[simp] theorem State.modRel_parts (s : State) (f : RelSt → RelSt) : (s.modRel f).parts = s.parts := rfl
@[simp] theorem State.modRel_cluss (s : State) (f : RelSt → RelSt) : (s.modRel f).cluss = s.cluss := rfl
@[simp] theorem State.modRel_tiles (s : State) (f : RelSt → RelSt) : (s.modRel f).tiles = s.tiles := rfl
@[simp] theorem State.modRel_ctxs (s : State) (f : RelSt → RelSt) : (s.modRel f).ctxs = s.ctxs := rfl
@[simp] theorem State.modRel_tasks (s : State) (f : RelSt → RelSt) : (s.modRel f).tasks = s.tasks := rfl
@[simp] theorem State.modRel_scheds (s : State) (f : RelSt → RelSt) : (s.modRel f).scheds = s.scheds := rfl
@[simp] theorem State.modRel_held (s : State) (f : RelSt → RelSt) : (s.modRel f).held = s.held := rfl
@[simp] theorem State.modRel_latches (s : State) (f : RelSt → RelSt) : (s.modRel f).latches = s.latches := rfl
@[simp] theorem State.modRel_out (s : State) (f : RelSt → RelSt) : (s.modRel f).out = s.out := rfl
@[simp] theorem State.modRel_ticks (s : State) (f : RelSt → RelSt) : (s.modRel f).ticks = s.ticks := rfl
@[simp] theorem State.modRel_free (s : State) (f : RelSt → RelSt) : (s.modRel f).free = s.free := rfl
@[simp] theorem State.modRel_pending (s : State) (f : RelSt → RelSt) : (s.modRel f).pending = s.pending := rfl

@[simp] theorem State.modRelx_fuse (s : State) (f : RelAux → RelAux) : (s.modRelx f).fuse = s.fuse := rfl
@[simp] theorem State.modRelx_flash (s : State) (f : RelAux → RelAux) : (s.modRelx f).flash = s.flash := rfl
@[simp] theorem State.modRelx_top (s : State) (f : RelAux → RelAux) : (s.modRelx f).top = s.top := rfl
@[simp] theorem State.modRelx_rstc (s : State) (f : RelAux → RelAux) : (s.modRelx f).rstc = s.rstc := rfl
@[simp] theorem State.modRelx_brup (s : State) (f : RelAux → RelAux) : (s.modRelx f).brup = s.brup := rfl
@[simp] theorem State.modRelx_pwr (s : State) (f : RelAux → RelAux) : (s.modRelx f).pwr = s.pwr := rfl
@[simp] theorem State.modRelx_gov (s : State) (f : RelAux → RelAux) : (s.modRelx f).gov = s.gov := rfl
@[simp] theorem State.modRelx_clk (s : State) (f : RelAux → RelAux) : (s.modRelx f).clk = s.clk := rfl
@[simp] theorem State.modRelx_fret (s : State) (f : RelAux → RelAux) : (s.modRelx f).fret = s.fret := rfl
@[simp] theorem State.modRelx_ids (s : State) (f : RelAux → RelAux) : (s.modRelx f).ids = s.ids := rfl
@[simp] theorem State.modRelx_sec (s : State) (f : RelAux → RelAux) : (s.modRelx f).sec = s.sec := rfl
@[simp] theorem State.modRelx_bist (s : State) (f : RelAux → RelAux) : (s.modRelx f).bist = s.bist := rfl
@[simp] theorem State.modRelx_heal (s : State) (f : RelAux → RelAux) : (s.modRelx f).heal = s.heal := rfl
@[simp] theorem State.modRelx_healx (s : State) (f : RelAux → RelAux) : (s.modRelx f).healx = s.healx := rfl
@[simp] theorem State.modRelx_rel (s : State) (f : RelAux → RelAux) : (s.modRelx f).rel = s.rel := rfl
@[simp] theorem State.modRelx_relx (s : State) (f : RelAux → RelAux) : (s.modRelx f).relx = f s.relx := rfl
@[simp] theorem State.modRelx_chest (s : State) (f : RelAux → RelAux) : (s.modRelx f).chest = s.chest := rfl
@[simp] theorem State.modRelx_tel (s : State) (f : RelAux → RelAux) : (s.modRelx f).tel = s.tel := rfl
@[simp] theorem State.modRelx_mch (s : State) (f : RelAux → RelAux) : (s.modRelx f).mch = s.mch := rfl
@[simp] theorem State.modRelx_pcie (s : State) (f : RelAux → RelAux) : (s.modRelx f).pcie = s.pcie := rfl
@[simp] theorem State.modRelx_mgt (s : State) (f : RelAux → RelAux) : (s.modRelx f).mgt = s.mgt := rfl
@[simp] theorem State.modRelx_spn (s : State) (f : RelAux → RelAux) : (s.modRelx f).spn = s.spn := rfl
@[simp] theorem State.modRelx_sess (s : State) (f : RelAux → RelAux) : (s.modRelx f).sess = s.sess := rfl
@[simp] theorem State.modRelx_hbm (s : State) (f : RelAux → RelAux) : (s.modRelx f).hbm = s.hbm := rfl
@[simp] theorem State.modRelx_tap (s : State) (f : RelAux → RelAux) : (s.modRelx f).tap = s.tap := rfl
@[simp] theorem State.modRelx_fabs (s : State) (f : RelAux → RelAux) : (s.modRelx f).fabs = s.fabs := rfl
@[simp] theorem State.modRelx_parts (s : State) (f : RelAux → RelAux) : (s.modRelx f).parts = s.parts := rfl
@[simp] theorem State.modRelx_cluss (s : State) (f : RelAux → RelAux) : (s.modRelx f).cluss = s.cluss := rfl
@[simp] theorem State.modRelx_tiles (s : State) (f : RelAux → RelAux) : (s.modRelx f).tiles = s.tiles := rfl
@[simp] theorem State.modRelx_ctxs (s : State) (f : RelAux → RelAux) : (s.modRelx f).ctxs = s.ctxs := rfl
@[simp] theorem State.modRelx_tasks (s : State) (f : RelAux → RelAux) : (s.modRelx f).tasks = s.tasks := rfl
@[simp] theorem State.modRelx_scheds (s : State) (f : RelAux → RelAux) : (s.modRelx f).scheds = s.scheds := rfl
@[simp] theorem State.modRelx_held (s : State) (f : RelAux → RelAux) : (s.modRelx f).held = s.held := rfl
@[simp] theorem State.modRelx_latches (s : State) (f : RelAux → RelAux) : (s.modRelx f).latches = s.latches := rfl
@[simp] theorem State.modRelx_out (s : State) (f : RelAux → RelAux) : (s.modRelx f).out = s.out := rfl
@[simp] theorem State.modRelx_ticks (s : State) (f : RelAux → RelAux) : (s.modRelx f).ticks = s.ticks := rfl
@[simp] theorem State.modRelx_free (s : State) (f : RelAux → RelAux) : (s.modRelx f).free = s.free := rfl
@[simp] theorem State.modRelx_pending (s : State) (f : RelAux → RelAux) : (s.modRelx f).pending = s.pending := rfl

@[simp] theorem State.modChest_fuse (s : State) (f : ChestSt → ChestSt) : (s.modChest f).fuse = s.fuse := rfl
@[simp] theorem State.modChest_flash (s : State) (f : ChestSt → ChestSt) : (s.modChest f).flash = s.flash := rfl
@[simp] theorem State.modChest_top (s : State) (f : ChestSt → ChestSt) : (s.modChest f).top = s.top := rfl
@[simp] theorem State.modChest_rstc (s : State) (f : ChestSt → ChestSt) : (s.modChest f).rstc = s.rstc := rfl
@[simp] theorem State.modChest_brup (s : State) (f : ChestSt → ChestSt) : (s.modChest f).brup = s.brup := rfl
@[simp] theorem State.modChest_pwr (s : State) (f : ChestSt → ChestSt) : (s.modChest f).pwr = s.pwr := rfl
@[simp] theorem State.modChest_gov (s : State) (f : ChestSt → ChestSt) : (s.modChest f).gov = s.gov := rfl
@[simp] theorem State.modChest_clk (s : State) (f : ChestSt → ChestSt) : (s.modChest f).clk = s.clk := rfl
@[simp] theorem State.modChest_fret (s : State) (f : ChestSt → ChestSt) : (s.modChest f).fret = s.fret := rfl
@[simp] theorem State.modChest_ids (s : State) (f : ChestSt → ChestSt) : (s.modChest f).ids = s.ids := rfl
@[simp] theorem State.modChest_sec (s : State) (f : ChestSt → ChestSt) : (s.modChest f).sec = s.sec := rfl
@[simp] theorem State.modChest_bist (s : State) (f : ChestSt → ChestSt) : (s.modChest f).bist = s.bist := rfl
@[simp] theorem State.modChest_heal (s : State) (f : ChestSt → ChestSt) : (s.modChest f).heal = s.heal := rfl
@[simp] theorem State.modChest_healx (s : State) (f : ChestSt → ChestSt) : (s.modChest f).healx = s.healx := rfl
@[simp] theorem State.modChest_rel (s : State) (f : ChestSt → ChestSt) : (s.modChest f).rel = s.rel := rfl
@[simp] theorem State.modChest_relx (s : State) (f : ChestSt → ChestSt) : (s.modChest f).relx = s.relx := rfl
@[simp] theorem State.modChest_chest (s : State) (f : ChestSt → ChestSt) : (s.modChest f).chest = f s.chest := rfl
@[simp] theorem State.modChest_tel (s : State) (f : ChestSt → ChestSt) : (s.modChest f).tel = s.tel := rfl
@[simp] theorem State.modChest_mch (s : State) (f : ChestSt → ChestSt) : (s.modChest f).mch = s.mch := rfl
@[simp] theorem State.modChest_pcie (s : State) (f : ChestSt → ChestSt) : (s.modChest f).pcie = s.pcie := rfl
@[simp] theorem State.modChest_mgt (s : State) (f : ChestSt → ChestSt) : (s.modChest f).mgt = s.mgt := rfl
@[simp] theorem State.modChest_spn (s : State) (f : ChestSt → ChestSt) : (s.modChest f).spn = s.spn := rfl
@[simp] theorem State.modChest_sess (s : State) (f : ChestSt → ChestSt) : (s.modChest f).sess = s.sess := rfl
@[simp] theorem State.modChest_hbm (s : State) (f : ChestSt → ChestSt) : (s.modChest f).hbm = s.hbm := rfl
@[simp] theorem State.modChest_tap (s : State) (f : ChestSt → ChestSt) : (s.modChest f).tap = s.tap := rfl
@[simp] theorem State.modChest_fabs (s : State) (f : ChestSt → ChestSt) : (s.modChest f).fabs = s.fabs := rfl
@[simp] theorem State.modChest_parts (s : State) (f : ChestSt → ChestSt) : (s.modChest f).parts = s.parts := rfl
@[simp] theorem State.modChest_cluss (s : State) (f : ChestSt → ChestSt) : (s.modChest f).cluss = s.cluss := rfl
@[simp] theorem State.modChest_tiles (s : State) (f : ChestSt → ChestSt) : (s.modChest f).tiles = s.tiles := rfl
@[simp] theorem State.modChest_ctxs (s : State) (f : ChestSt → ChestSt) : (s.modChest f).ctxs = s.ctxs := rfl
@[simp] theorem State.modChest_tasks (s : State) (f : ChestSt → ChestSt) : (s.modChest f).tasks = s.tasks := rfl
@[simp] theorem State.modChest_scheds (s : State) (f : ChestSt → ChestSt) : (s.modChest f).scheds = s.scheds := rfl
@[simp] theorem State.modChest_held (s : State) (f : ChestSt → ChestSt) : (s.modChest f).held = s.held := rfl
@[simp] theorem State.modChest_latches (s : State) (f : ChestSt → ChestSt) : (s.modChest f).latches = s.latches := rfl
@[simp] theorem State.modChest_out (s : State) (f : ChestSt → ChestSt) : (s.modChest f).out = s.out := rfl
@[simp] theorem State.modChest_ticks (s : State) (f : ChestSt → ChestSt) : (s.modChest f).ticks = s.ticks := rfl
@[simp] theorem State.modChest_free (s : State) (f : ChestSt → ChestSt) : (s.modChest f).free = s.free := rfl
@[simp] theorem State.modChest_pending (s : State) (f : ChestSt → ChestSt) : (s.modChest f).pending = s.pending := rfl

@[simp] theorem State.modTel_fuse (s : State) (f : TelSt → TelSt) : (s.modTel f).fuse = s.fuse := rfl
@[simp] theorem State.modTel_flash (s : State) (f : TelSt → TelSt) : (s.modTel f).flash = s.flash := rfl
@[simp] theorem State.modTel_top (s : State) (f : TelSt → TelSt) : (s.modTel f).top = s.top := rfl
@[simp] theorem State.modTel_rstc (s : State) (f : TelSt → TelSt) : (s.modTel f).rstc = s.rstc := rfl
@[simp] theorem State.modTel_brup (s : State) (f : TelSt → TelSt) : (s.modTel f).brup = s.brup := rfl
@[simp] theorem State.modTel_pwr (s : State) (f : TelSt → TelSt) : (s.modTel f).pwr = s.pwr := rfl
@[simp] theorem State.modTel_gov (s : State) (f : TelSt → TelSt) : (s.modTel f).gov = s.gov := rfl
@[simp] theorem State.modTel_clk (s : State) (f : TelSt → TelSt) : (s.modTel f).clk = s.clk := rfl
@[simp] theorem State.modTel_fret (s : State) (f : TelSt → TelSt) : (s.modTel f).fret = s.fret := rfl
@[simp] theorem State.modTel_ids (s : State) (f : TelSt → TelSt) : (s.modTel f).ids = s.ids := rfl
@[simp] theorem State.modTel_sec (s : State) (f : TelSt → TelSt) : (s.modTel f).sec = s.sec := rfl
@[simp] theorem State.modTel_bist (s : State) (f : TelSt → TelSt) : (s.modTel f).bist = s.bist := rfl
@[simp] theorem State.modTel_heal (s : State) (f : TelSt → TelSt) : (s.modTel f).heal = s.heal := rfl
@[simp] theorem State.modTel_healx (s : State) (f : TelSt → TelSt) : (s.modTel f).healx = s.healx := rfl
@[simp] theorem State.modTel_rel (s : State) (f : TelSt → TelSt) : (s.modTel f).rel = s.rel := rfl
@[simp] theorem State.modTel_relx (s : State) (f : TelSt → TelSt) : (s.modTel f).relx = s.relx := rfl
@[simp] theorem State.modTel_chest (s : State) (f : TelSt → TelSt) : (s.modTel f).chest = s.chest := rfl
@[simp] theorem State.modTel_tel (s : State) (f : TelSt → TelSt) : (s.modTel f).tel = f s.tel := rfl
@[simp] theorem State.modTel_mch (s : State) (f : TelSt → TelSt) : (s.modTel f).mch = s.mch := rfl
@[simp] theorem State.modTel_pcie (s : State) (f : TelSt → TelSt) : (s.modTel f).pcie = s.pcie := rfl
@[simp] theorem State.modTel_mgt (s : State) (f : TelSt → TelSt) : (s.modTel f).mgt = s.mgt := rfl
@[simp] theorem State.modTel_spn (s : State) (f : TelSt → TelSt) : (s.modTel f).spn = s.spn := rfl
@[simp] theorem State.modTel_sess (s : State) (f : TelSt → TelSt) : (s.modTel f).sess = s.sess := rfl
@[simp] theorem State.modTel_hbm (s : State) (f : TelSt → TelSt) : (s.modTel f).hbm = s.hbm := rfl
@[simp] theorem State.modTel_tap (s : State) (f : TelSt → TelSt) : (s.modTel f).tap = s.tap := rfl
@[simp] theorem State.modTel_fabs (s : State) (f : TelSt → TelSt) : (s.modTel f).fabs = s.fabs := rfl
@[simp] theorem State.modTel_parts (s : State) (f : TelSt → TelSt) : (s.modTel f).parts = s.parts := rfl
@[simp] theorem State.modTel_cluss (s : State) (f : TelSt → TelSt) : (s.modTel f).cluss = s.cluss := rfl
@[simp] theorem State.modTel_tiles (s : State) (f : TelSt → TelSt) : (s.modTel f).tiles = s.tiles := rfl
@[simp] theorem State.modTel_ctxs (s : State) (f : TelSt → TelSt) : (s.modTel f).ctxs = s.ctxs := rfl
@[simp] theorem State.modTel_tasks (s : State) (f : TelSt → TelSt) : (s.modTel f).tasks = s.tasks := rfl
@[simp] theorem State.modTel_scheds (s : State) (f : TelSt → TelSt) : (s.modTel f).scheds = s.scheds := rfl
@[simp] theorem State.modTel_held (s : State) (f : TelSt → TelSt) : (s.modTel f).held = s.held := rfl
@[simp] theorem State.modTel_latches (s : State) (f : TelSt → TelSt) : (s.modTel f).latches = s.latches := rfl
@[simp] theorem State.modTel_out (s : State) (f : TelSt → TelSt) : (s.modTel f).out = s.out := rfl
@[simp] theorem State.modTel_ticks (s : State) (f : TelSt → TelSt) : (s.modTel f).ticks = s.ticks := rfl
@[simp] theorem State.modTel_free (s : State) (f : TelSt → TelSt) : (s.modTel f).free = s.free := rfl
@[simp] theorem State.modTel_pending (s : State) (f : TelSt → TelSt) : (s.modTel f).pending = s.pending := rfl

@[simp] theorem State.modMch_fuse (s : State) (f : MchSt → MchSt) : (s.modMch f).fuse = s.fuse := rfl
@[simp] theorem State.modMch_flash (s : State) (f : MchSt → MchSt) : (s.modMch f).flash = s.flash := rfl
@[simp] theorem State.modMch_top (s : State) (f : MchSt → MchSt) : (s.modMch f).top = s.top := rfl
@[simp] theorem State.modMch_rstc (s : State) (f : MchSt → MchSt) : (s.modMch f).rstc = s.rstc := rfl
@[simp] theorem State.modMch_brup (s : State) (f : MchSt → MchSt) : (s.modMch f).brup = s.brup := rfl
@[simp] theorem State.modMch_pwr (s : State) (f : MchSt → MchSt) : (s.modMch f).pwr = s.pwr := rfl
@[simp] theorem State.modMch_gov (s : State) (f : MchSt → MchSt) : (s.modMch f).gov = s.gov := rfl
@[simp] theorem State.modMch_clk (s : State) (f : MchSt → MchSt) : (s.modMch f).clk = s.clk := rfl
@[simp] theorem State.modMch_fret (s : State) (f : MchSt → MchSt) : (s.modMch f).fret = s.fret := rfl
@[simp] theorem State.modMch_ids (s : State) (f : MchSt → MchSt) : (s.modMch f).ids = s.ids := rfl
@[simp] theorem State.modMch_sec (s : State) (f : MchSt → MchSt) : (s.modMch f).sec = s.sec := rfl
@[simp] theorem State.modMch_bist (s : State) (f : MchSt → MchSt) : (s.modMch f).bist = s.bist := rfl
@[simp] theorem State.modMch_heal (s : State) (f : MchSt → MchSt) : (s.modMch f).heal = s.heal := rfl
@[simp] theorem State.modMch_healx (s : State) (f : MchSt → MchSt) : (s.modMch f).healx = s.healx := rfl
@[simp] theorem State.modMch_rel (s : State) (f : MchSt → MchSt) : (s.modMch f).rel = s.rel := rfl
@[simp] theorem State.modMch_relx (s : State) (f : MchSt → MchSt) : (s.modMch f).relx = s.relx := rfl
@[simp] theorem State.modMch_chest (s : State) (f : MchSt → MchSt) : (s.modMch f).chest = s.chest := rfl
@[simp] theorem State.modMch_tel (s : State) (f : MchSt → MchSt) : (s.modMch f).tel = s.tel := rfl
@[simp] theorem State.modMch_mch (s : State) (f : MchSt → MchSt) : (s.modMch f).mch = f s.mch := rfl
@[simp] theorem State.modMch_pcie (s : State) (f : MchSt → MchSt) : (s.modMch f).pcie = s.pcie := rfl
@[simp] theorem State.modMch_mgt (s : State) (f : MchSt → MchSt) : (s.modMch f).mgt = s.mgt := rfl
@[simp] theorem State.modMch_spn (s : State) (f : MchSt → MchSt) : (s.modMch f).spn = s.spn := rfl
@[simp] theorem State.modMch_sess (s : State) (f : MchSt → MchSt) : (s.modMch f).sess = s.sess := rfl
@[simp] theorem State.modMch_hbm (s : State) (f : MchSt → MchSt) : (s.modMch f).hbm = s.hbm := rfl
@[simp] theorem State.modMch_tap (s : State) (f : MchSt → MchSt) : (s.modMch f).tap = s.tap := rfl
@[simp] theorem State.modMch_fabs (s : State) (f : MchSt → MchSt) : (s.modMch f).fabs = s.fabs := rfl
@[simp] theorem State.modMch_parts (s : State) (f : MchSt → MchSt) : (s.modMch f).parts = s.parts := rfl
@[simp] theorem State.modMch_cluss (s : State) (f : MchSt → MchSt) : (s.modMch f).cluss = s.cluss := rfl
@[simp] theorem State.modMch_tiles (s : State) (f : MchSt → MchSt) : (s.modMch f).tiles = s.tiles := rfl
@[simp] theorem State.modMch_ctxs (s : State) (f : MchSt → MchSt) : (s.modMch f).ctxs = s.ctxs := rfl
@[simp] theorem State.modMch_tasks (s : State) (f : MchSt → MchSt) : (s.modMch f).tasks = s.tasks := rfl
@[simp] theorem State.modMch_scheds (s : State) (f : MchSt → MchSt) : (s.modMch f).scheds = s.scheds := rfl
@[simp] theorem State.modMch_held (s : State) (f : MchSt → MchSt) : (s.modMch f).held = s.held := rfl
@[simp] theorem State.modMch_latches (s : State) (f : MchSt → MchSt) : (s.modMch f).latches = s.latches := rfl
@[simp] theorem State.modMch_out (s : State) (f : MchSt → MchSt) : (s.modMch f).out = s.out := rfl
@[simp] theorem State.modMch_ticks (s : State) (f : MchSt → MchSt) : (s.modMch f).ticks = s.ticks := rfl
@[simp] theorem State.modMch_free (s : State) (f : MchSt → MchSt) : (s.modMch f).free = s.free := rfl
@[simp] theorem State.modMch_pending (s : State) (f : MchSt → MchSt) : (s.modMch f).pending = s.pending := rfl

@[simp] theorem State.modPcie_fuse (s : State) (f : (PerPort PcieSt) → (PerPort PcieSt)) : (s.modPcie f).fuse = s.fuse := rfl
@[simp] theorem State.modPcie_flash (s : State) (f : (PerPort PcieSt) → (PerPort PcieSt)) : (s.modPcie f).flash = s.flash := rfl
@[simp] theorem State.modPcie_top (s : State) (f : (PerPort PcieSt) → (PerPort PcieSt)) : (s.modPcie f).top = s.top := rfl
@[simp] theorem State.modPcie_rstc (s : State) (f : (PerPort PcieSt) → (PerPort PcieSt)) : (s.modPcie f).rstc = s.rstc := rfl
@[simp] theorem State.modPcie_brup (s : State) (f : (PerPort PcieSt) → (PerPort PcieSt)) : (s.modPcie f).brup = s.brup := rfl
@[simp] theorem State.modPcie_pwr (s : State) (f : (PerPort PcieSt) → (PerPort PcieSt)) : (s.modPcie f).pwr = s.pwr := rfl
@[simp] theorem State.modPcie_gov (s : State) (f : (PerPort PcieSt) → (PerPort PcieSt)) : (s.modPcie f).gov = s.gov := rfl
@[simp] theorem State.modPcie_clk (s : State) (f : (PerPort PcieSt) → (PerPort PcieSt)) : (s.modPcie f).clk = s.clk := rfl
@[simp] theorem State.modPcie_fret (s : State) (f : (PerPort PcieSt) → (PerPort PcieSt)) : (s.modPcie f).fret = s.fret := rfl
@[simp] theorem State.modPcie_ids (s : State) (f : (PerPort PcieSt) → (PerPort PcieSt)) : (s.modPcie f).ids = s.ids := rfl
@[simp] theorem State.modPcie_sec (s : State) (f : (PerPort PcieSt) → (PerPort PcieSt)) : (s.modPcie f).sec = s.sec := rfl
@[simp] theorem State.modPcie_bist (s : State) (f : (PerPort PcieSt) → (PerPort PcieSt)) : (s.modPcie f).bist = s.bist := rfl
@[simp] theorem State.modPcie_heal (s : State) (f : (PerPort PcieSt) → (PerPort PcieSt)) : (s.modPcie f).heal = s.heal := rfl
@[simp] theorem State.modPcie_healx (s : State) (f : (PerPort PcieSt) → (PerPort PcieSt)) : (s.modPcie f).healx = s.healx := rfl
@[simp] theorem State.modPcie_rel (s : State) (f : (PerPort PcieSt) → (PerPort PcieSt)) : (s.modPcie f).rel = s.rel := rfl
@[simp] theorem State.modPcie_relx (s : State) (f : (PerPort PcieSt) → (PerPort PcieSt)) : (s.modPcie f).relx = s.relx := rfl
@[simp] theorem State.modPcie_chest (s : State) (f : (PerPort PcieSt) → (PerPort PcieSt)) : (s.modPcie f).chest = s.chest := rfl
@[simp] theorem State.modPcie_tel (s : State) (f : (PerPort PcieSt) → (PerPort PcieSt)) : (s.modPcie f).tel = s.tel := rfl
@[simp] theorem State.modPcie_mch (s : State) (f : (PerPort PcieSt) → (PerPort PcieSt)) : (s.modPcie f).mch = s.mch := rfl
@[simp] theorem State.modPcie_pcie (s : State) (f : (PerPort PcieSt) → (PerPort PcieSt)) : (s.modPcie f).pcie = f s.pcie := rfl
@[simp] theorem State.modPcie_mgt (s : State) (f : (PerPort PcieSt) → (PerPort PcieSt)) : (s.modPcie f).mgt = s.mgt := rfl
@[simp] theorem State.modPcie_spn (s : State) (f : (PerPort PcieSt) → (PerPort PcieSt)) : (s.modPcie f).spn = s.spn := rfl
@[simp] theorem State.modPcie_sess (s : State) (f : (PerPort PcieSt) → (PerPort PcieSt)) : (s.modPcie f).sess = s.sess := rfl
@[simp] theorem State.modPcie_hbm (s : State) (f : (PerPort PcieSt) → (PerPort PcieSt)) : (s.modPcie f).hbm = s.hbm := rfl
@[simp] theorem State.modPcie_tap (s : State) (f : (PerPort PcieSt) → (PerPort PcieSt)) : (s.modPcie f).tap = s.tap := rfl
@[simp] theorem State.modPcie_fabs (s : State) (f : (PerPort PcieSt) → (PerPort PcieSt)) : (s.modPcie f).fabs = s.fabs := rfl
@[simp] theorem State.modPcie_parts (s : State) (f : (PerPort PcieSt) → (PerPort PcieSt)) : (s.modPcie f).parts = s.parts := rfl
@[simp] theorem State.modPcie_cluss (s : State) (f : (PerPort PcieSt) → (PerPort PcieSt)) : (s.modPcie f).cluss = s.cluss := rfl
@[simp] theorem State.modPcie_tiles (s : State) (f : (PerPort PcieSt) → (PerPort PcieSt)) : (s.modPcie f).tiles = s.tiles := rfl
@[simp] theorem State.modPcie_ctxs (s : State) (f : (PerPort PcieSt) → (PerPort PcieSt)) : (s.modPcie f).ctxs = s.ctxs := rfl
@[simp] theorem State.modPcie_tasks (s : State) (f : (PerPort PcieSt) → (PerPort PcieSt)) : (s.modPcie f).tasks = s.tasks := rfl
@[simp] theorem State.modPcie_scheds (s : State) (f : (PerPort PcieSt) → (PerPort PcieSt)) : (s.modPcie f).scheds = s.scheds := rfl
@[simp] theorem State.modPcie_held (s : State) (f : (PerPort PcieSt) → (PerPort PcieSt)) : (s.modPcie f).held = s.held := rfl
@[simp] theorem State.modPcie_latches (s : State) (f : (PerPort PcieSt) → (PerPort PcieSt)) : (s.modPcie f).latches = s.latches := rfl
@[simp] theorem State.modPcie_out (s : State) (f : (PerPort PcieSt) → (PerPort PcieSt)) : (s.modPcie f).out = s.out := rfl
@[simp] theorem State.modPcie_ticks (s : State) (f : (PerPort PcieSt) → (PerPort PcieSt)) : (s.modPcie f).ticks = s.ticks := rfl
@[simp] theorem State.modPcie_free (s : State) (f : (PerPort PcieSt) → (PerPort PcieSt)) : (s.modPcie f).free = s.free := rfl
@[simp] theorem State.modPcie_pending (s : State) (f : (PerPort PcieSt) → (PerPort PcieSt)) : (s.modPcie f).pending = s.pending := rfl

@[simp] theorem State.modMgt_fuse (s : State) (f : MgtSt → MgtSt) : (s.modMgt f).fuse = s.fuse := rfl
@[simp] theorem State.modMgt_flash (s : State) (f : MgtSt → MgtSt) : (s.modMgt f).flash = s.flash := rfl
@[simp] theorem State.modMgt_top (s : State) (f : MgtSt → MgtSt) : (s.modMgt f).top = s.top := rfl
@[simp] theorem State.modMgt_rstc (s : State) (f : MgtSt → MgtSt) : (s.modMgt f).rstc = s.rstc := rfl
@[simp] theorem State.modMgt_brup (s : State) (f : MgtSt → MgtSt) : (s.modMgt f).brup = s.brup := rfl
@[simp] theorem State.modMgt_pwr (s : State) (f : MgtSt → MgtSt) : (s.modMgt f).pwr = s.pwr := rfl
@[simp] theorem State.modMgt_gov (s : State) (f : MgtSt → MgtSt) : (s.modMgt f).gov = s.gov := rfl
@[simp] theorem State.modMgt_clk (s : State) (f : MgtSt → MgtSt) : (s.modMgt f).clk = s.clk := rfl
@[simp] theorem State.modMgt_fret (s : State) (f : MgtSt → MgtSt) : (s.modMgt f).fret = s.fret := rfl
@[simp] theorem State.modMgt_ids (s : State) (f : MgtSt → MgtSt) : (s.modMgt f).ids = s.ids := rfl
@[simp] theorem State.modMgt_sec (s : State) (f : MgtSt → MgtSt) : (s.modMgt f).sec = s.sec := rfl
@[simp] theorem State.modMgt_bist (s : State) (f : MgtSt → MgtSt) : (s.modMgt f).bist = s.bist := rfl
@[simp] theorem State.modMgt_heal (s : State) (f : MgtSt → MgtSt) : (s.modMgt f).heal = s.heal := rfl
@[simp] theorem State.modMgt_healx (s : State) (f : MgtSt → MgtSt) : (s.modMgt f).healx = s.healx := rfl
@[simp] theorem State.modMgt_rel (s : State) (f : MgtSt → MgtSt) : (s.modMgt f).rel = s.rel := rfl
@[simp] theorem State.modMgt_relx (s : State) (f : MgtSt → MgtSt) : (s.modMgt f).relx = s.relx := rfl
@[simp] theorem State.modMgt_chest (s : State) (f : MgtSt → MgtSt) : (s.modMgt f).chest = s.chest := rfl
@[simp] theorem State.modMgt_tel (s : State) (f : MgtSt → MgtSt) : (s.modMgt f).tel = s.tel := rfl
@[simp] theorem State.modMgt_mch (s : State) (f : MgtSt → MgtSt) : (s.modMgt f).mch = s.mch := rfl
@[simp] theorem State.modMgt_pcie (s : State) (f : MgtSt → MgtSt) : (s.modMgt f).pcie = s.pcie := rfl
@[simp] theorem State.modMgt_mgt (s : State) (f : MgtSt → MgtSt) : (s.modMgt f).mgt = f s.mgt := rfl
@[simp] theorem State.modMgt_spn (s : State) (f : MgtSt → MgtSt) : (s.modMgt f).spn = s.spn := rfl
@[simp] theorem State.modMgt_sess (s : State) (f : MgtSt → MgtSt) : (s.modMgt f).sess = s.sess := rfl
@[simp] theorem State.modMgt_hbm (s : State) (f : MgtSt → MgtSt) : (s.modMgt f).hbm = s.hbm := rfl
@[simp] theorem State.modMgt_tap (s : State) (f : MgtSt → MgtSt) : (s.modMgt f).tap = s.tap := rfl
@[simp] theorem State.modMgt_fabs (s : State) (f : MgtSt → MgtSt) : (s.modMgt f).fabs = s.fabs := rfl
@[simp] theorem State.modMgt_parts (s : State) (f : MgtSt → MgtSt) : (s.modMgt f).parts = s.parts := rfl
@[simp] theorem State.modMgt_cluss (s : State) (f : MgtSt → MgtSt) : (s.modMgt f).cluss = s.cluss := rfl
@[simp] theorem State.modMgt_tiles (s : State) (f : MgtSt → MgtSt) : (s.modMgt f).tiles = s.tiles := rfl
@[simp] theorem State.modMgt_ctxs (s : State) (f : MgtSt → MgtSt) : (s.modMgt f).ctxs = s.ctxs := rfl
@[simp] theorem State.modMgt_tasks (s : State) (f : MgtSt → MgtSt) : (s.modMgt f).tasks = s.tasks := rfl
@[simp] theorem State.modMgt_scheds (s : State) (f : MgtSt → MgtSt) : (s.modMgt f).scheds = s.scheds := rfl
@[simp] theorem State.modMgt_held (s : State) (f : MgtSt → MgtSt) : (s.modMgt f).held = s.held := rfl
@[simp] theorem State.modMgt_latches (s : State) (f : MgtSt → MgtSt) : (s.modMgt f).latches = s.latches := rfl
@[simp] theorem State.modMgt_out (s : State) (f : MgtSt → MgtSt) : (s.modMgt f).out = s.out := rfl
@[simp] theorem State.modMgt_ticks (s : State) (f : MgtSt → MgtSt) : (s.modMgt f).ticks = s.ticks := rfl
@[simp] theorem State.modMgt_free (s : State) (f : MgtSt → MgtSt) : (s.modMgt f).free = s.free := rfl
@[simp] theorem State.modMgt_pending (s : State) (f : MgtSt → MgtSt) : (s.modMgt f).pending = s.pending := rfl

@[simp] theorem State.modSpn_fuse (s : State) (f : SpnSt → SpnSt) : (s.modSpn f).fuse = s.fuse := rfl
@[simp] theorem State.modSpn_flash (s : State) (f : SpnSt → SpnSt) : (s.modSpn f).flash = s.flash := rfl
@[simp] theorem State.modSpn_top (s : State) (f : SpnSt → SpnSt) : (s.modSpn f).top = s.top := rfl
@[simp] theorem State.modSpn_rstc (s : State) (f : SpnSt → SpnSt) : (s.modSpn f).rstc = s.rstc := rfl
@[simp] theorem State.modSpn_brup (s : State) (f : SpnSt → SpnSt) : (s.modSpn f).brup = s.brup := rfl
@[simp] theorem State.modSpn_pwr (s : State) (f : SpnSt → SpnSt) : (s.modSpn f).pwr = s.pwr := rfl
@[simp] theorem State.modSpn_gov (s : State) (f : SpnSt → SpnSt) : (s.modSpn f).gov = s.gov := rfl
@[simp] theorem State.modSpn_clk (s : State) (f : SpnSt → SpnSt) : (s.modSpn f).clk = s.clk := rfl
@[simp] theorem State.modSpn_fret (s : State) (f : SpnSt → SpnSt) : (s.modSpn f).fret = s.fret := rfl
@[simp] theorem State.modSpn_ids (s : State) (f : SpnSt → SpnSt) : (s.modSpn f).ids = s.ids := rfl
@[simp] theorem State.modSpn_sec (s : State) (f : SpnSt → SpnSt) : (s.modSpn f).sec = s.sec := rfl
@[simp] theorem State.modSpn_bist (s : State) (f : SpnSt → SpnSt) : (s.modSpn f).bist = s.bist := rfl
@[simp] theorem State.modSpn_heal (s : State) (f : SpnSt → SpnSt) : (s.modSpn f).heal = s.heal := rfl
@[simp] theorem State.modSpn_healx (s : State) (f : SpnSt → SpnSt) : (s.modSpn f).healx = s.healx := rfl
@[simp] theorem State.modSpn_rel (s : State) (f : SpnSt → SpnSt) : (s.modSpn f).rel = s.rel := rfl
@[simp] theorem State.modSpn_relx (s : State) (f : SpnSt → SpnSt) : (s.modSpn f).relx = s.relx := rfl
@[simp] theorem State.modSpn_chest (s : State) (f : SpnSt → SpnSt) : (s.modSpn f).chest = s.chest := rfl
@[simp] theorem State.modSpn_tel (s : State) (f : SpnSt → SpnSt) : (s.modSpn f).tel = s.tel := rfl
@[simp] theorem State.modSpn_mch (s : State) (f : SpnSt → SpnSt) : (s.modSpn f).mch = s.mch := rfl
@[simp] theorem State.modSpn_pcie (s : State) (f : SpnSt → SpnSt) : (s.modSpn f).pcie = s.pcie := rfl
@[simp] theorem State.modSpn_mgt (s : State) (f : SpnSt → SpnSt) : (s.modSpn f).mgt = s.mgt := rfl
@[simp] theorem State.modSpn_spn (s : State) (f : SpnSt → SpnSt) : (s.modSpn f).spn = f s.spn := rfl
@[simp] theorem State.modSpn_sess (s : State) (f : SpnSt → SpnSt) : (s.modSpn f).sess = s.sess := rfl
@[simp] theorem State.modSpn_hbm (s : State) (f : SpnSt → SpnSt) : (s.modSpn f).hbm = s.hbm := rfl
@[simp] theorem State.modSpn_tap (s : State) (f : SpnSt → SpnSt) : (s.modSpn f).tap = s.tap := rfl
@[simp] theorem State.modSpn_fabs (s : State) (f : SpnSt → SpnSt) : (s.modSpn f).fabs = s.fabs := rfl
@[simp] theorem State.modSpn_parts (s : State) (f : SpnSt → SpnSt) : (s.modSpn f).parts = s.parts := rfl
@[simp] theorem State.modSpn_cluss (s : State) (f : SpnSt → SpnSt) : (s.modSpn f).cluss = s.cluss := rfl
@[simp] theorem State.modSpn_tiles (s : State) (f : SpnSt → SpnSt) : (s.modSpn f).tiles = s.tiles := rfl
@[simp] theorem State.modSpn_ctxs (s : State) (f : SpnSt → SpnSt) : (s.modSpn f).ctxs = s.ctxs := rfl
@[simp] theorem State.modSpn_tasks (s : State) (f : SpnSt → SpnSt) : (s.modSpn f).tasks = s.tasks := rfl
@[simp] theorem State.modSpn_scheds (s : State) (f : SpnSt → SpnSt) : (s.modSpn f).scheds = s.scheds := rfl
@[simp] theorem State.modSpn_held (s : State) (f : SpnSt → SpnSt) : (s.modSpn f).held = s.held := rfl
@[simp] theorem State.modSpn_latches (s : State) (f : SpnSt → SpnSt) : (s.modSpn f).latches = s.latches := rfl
@[simp] theorem State.modSpn_out (s : State) (f : SpnSt → SpnSt) : (s.modSpn f).out = s.out := rfl
@[simp] theorem State.modSpn_ticks (s : State) (f : SpnSt → SpnSt) : (s.modSpn f).ticks = s.ticks := rfl
@[simp] theorem State.modSpn_free (s : State) (f : SpnSt → SpnSt) : (s.modSpn f).free = s.free := rfl
@[simp] theorem State.modSpn_pending (s : State) (f : SpnSt → SpnSt) : (s.modSpn f).pending = s.pending := rfl

@[simp] theorem State.modSess_fuse (s : State) (f : SessEng → SessEng) : (s.modSess f).fuse = s.fuse := rfl
@[simp] theorem State.modSess_flash (s : State) (f : SessEng → SessEng) : (s.modSess f).flash = s.flash := rfl
@[simp] theorem State.modSess_top (s : State) (f : SessEng → SessEng) : (s.modSess f).top = s.top := rfl
@[simp] theorem State.modSess_rstc (s : State) (f : SessEng → SessEng) : (s.modSess f).rstc = s.rstc := rfl
@[simp] theorem State.modSess_brup (s : State) (f : SessEng → SessEng) : (s.modSess f).brup = s.brup := rfl
@[simp] theorem State.modSess_pwr (s : State) (f : SessEng → SessEng) : (s.modSess f).pwr = s.pwr := rfl
@[simp] theorem State.modSess_gov (s : State) (f : SessEng → SessEng) : (s.modSess f).gov = s.gov := rfl
@[simp] theorem State.modSess_clk (s : State) (f : SessEng → SessEng) : (s.modSess f).clk = s.clk := rfl
@[simp] theorem State.modSess_fret (s : State) (f : SessEng → SessEng) : (s.modSess f).fret = s.fret := rfl
@[simp] theorem State.modSess_ids (s : State) (f : SessEng → SessEng) : (s.modSess f).ids = s.ids := rfl
@[simp] theorem State.modSess_sec (s : State) (f : SessEng → SessEng) : (s.modSess f).sec = s.sec := rfl
@[simp] theorem State.modSess_bist (s : State) (f : SessEng → SessEng) : (s.modSess f).bist = s.bist := rfl
@[simp] theorem State.modSess_heal (s : State) (f : SessEng → SessEng) : (s.modSess f).heal = s.heal := rfl
@[simp] theorem State.modSess_healx (s : State) (f : SessEng → SessEng) : (s.modSess f).healx = s.healx := rfl
@[simp] theorem State.modSess_rel (s : State) (f : SessEng → SessEng) : (s.modSess f).rel = s.rel := rfl
@[simp] theorem State.modSess_relx (s : State) (f : SessEng → SessEng) : (s.modSess f).relx = s.relx := rfl
@[simp] theorem State.modSess_chest (s : State) (f : SessEng → SessEng) : (s.modSess f).chest = s.chest := rfl
@[simp] theorem State.modSess_tel (s : State) (f : SessEng → SessEng) : (s.modSess f).tel = s.tel := rfl
@[simp] theorem State.modSess_mch (s : State) (f : SessEng → SessEng) : (s.modSess f).mch = s.mch := rfl
@[simp] theorem State.modSess_pcie (s : State) (f : SessEng → SessEng) : (s.modSess f).pcie = s.pcie := rfl
@[simp] theorem State.modSess_mgt (s : State) (f : SessEng → SessEng) : (s.modSess f).mgt = s.mgt := rfl
@[simp] theorem State.modSess_spn (s : State) (f : SessEng → SessEng) : (s.modSess f).spn = s.spn := rfl
@[simp] theorem State.modSess_sess (s : State) (f : SessEng → SessEng) : (s.modSess f).sess = f s.sess := rfl
@[simp] theorem State.modSess_hbm (s : State) (f : SessEng → SessEng) : (s.modSess f).hbm = s.hbm := rfl
@[simp] theorem State.modSess_tap (s : State) (f : SessEng → SessEng) : (s.modSess f).tap = s.tap := rfl
@[simp] theorem State.modSess_fabs (s : State) (f : SessEng → SessEng) : (s.modSess f).fabs = s.fabs := rfl
@[simp] theorem State.modSess_parts (s : State) (f : SessEng → SessEng) : (s.modSess f).parts = s.parts := rfl
@[simp] theorem State.modSess_cluss (s : State) (f : SessEng → SessEng) : (s.modSess f).cluss = s.cluss := rfl
@[simp] theorem State.modSess_tiles (s : State) (f : SessEng → SessEng) : (s.modSess f).tiles = s.tiles := rfl
@[simp] theorem State.modSess_ctxs (s : State) (f : SessEng → SessEng) : (s.modSess f).ctxs = s.ctxs := rfl
@[simp] theorem State.modSess_tasks (s : State) (f : SessEng → SessEng) : (s.modSess f).tasks = s.tasks := rfl
@[simp] theorem State.modSess_scheds (s : State) (f : SessEng → SessEng) : (s.modSess f).scheds = s.scheds := rfl
@[simp] theorem State.modSess_held (s : State) (f : SessEng → SessEng) : (s.modSess f).held = s.held := rfl
@[simp] theorem State.modSess_latches (s : State) (f : SessEng → SessEng) : (s.modSess f).latches = s.latches := rfl
@[simp] theorem State.modSess_out (s : State) (f : SessEng → SessEng) : (s.modSess f).out = s.out := rfl
@[simp] theorem State.modSess_ticks (s : State) (f : SessEng → SessEng) : (s.modSess f).ticks = s.ticks := rfl
@[simp] theorem State.modSess_free (s : State) (f : SessEng → SessEng) : (s.modSess f).free = s.free := rfl
@[simp] theorem State.modSess_pending (s : State) (f : SessEng → SessEng) : (s.modSess f).pending = s.pending := rfl

@[simp] theorem State.modHbm_fuse (s : State) (f : HbmSt → HbmSt) : (s.modHbm f).fuse = s.fuse := rfl
@[simp] theorem State.modHbm_flash (s : State) (f : HbmSt → HbmSt) : (s.modHbm f).flash = s.flash := rfl
@[simp] theorem State.modHbm_top (s : State) (f : HbmSt → HbmSt) : (s.modHbm f).top = s.top := rfl
@[simp] theorem State.modHbm_rstc (s : State) (f : HbmSt → HbmSt) : (s.modHbm f).rstc = s.rstc := rfl
@[simp] theorem State.modHbm_brup (s : State) (f : HbmSt → HbmSt) : (s.modHbm f).brup = s.brup := rfl
@[simp] theorem State.modHbm_pwr (s : State) (f : HbmSt → HbmSt) : (s.modHbm f).pwr = s.pwr := rfl
@[simp] theorem State.modHbm_gov (s : State) (f : HbmSt → HbmSt) : (s.modHbm f).gov = s.gov := rfl
@[simp] theorem State.modHbm_clk (s : State) (f : HbmSt → HbmSt) : (s.modHbm f).clk = s.clk := rfl
@[simp] theorem State.modHbm_fret (s : State) (f : HbmSt → HbmSt) : (s.modHbm f).fret = s.fret := rfl
@[simp] theorem State.modHbm_ids (s : State) (f : HbmSt → HbmSt) : (s.modHbm f).ids = s.ids := rfl
@[simp] theorem State.modHbm_sec (s : State) (f : HbmSt → HbmSt) : (s.modHbm f).sec = s.sec := rfl
@[simp] theorem State.modHbm_bist (s : State) (f : HbmSt → HbmSt) : (s.modHbm f).bist = s.bist := rfl
@[simp] theorem State.modHbm_heal (s : State) (f : HbmSt → HbmSt) : (s.modHbm f).heal = s.heal := rfl
@[simp] theorem State.modHbm_healx (s : State) (f : HbmSt → HbmSt) : (s.modHbm f).healx = s.healx := rfl
@[simp] theorem State.modHbm_rel (s : State) (f : HbmSt → HbmSt) : (s.modHbm f).rel = s.rel := rfl
@[simp] theorem State.modHbm_relx (s : State) (f : HbmSt → HbmSt) : (s.modHbm f).relx = s.relx := rfl
@[simp] theorem State.modHbm_chest (s : State) (f : HbmSt → HbmSt) : (s.modHbm f).chest = s.chest := rfl
@[simp] theorem State.modHbm_tel (s : State) (f : HbmSt → HbmSt) : (s.modHbm f).tel = s.tel := rfl
@[simp] theorem State.modHbm_mch (s : State) (f : HbmSt → HbmSt) : (s.modHbm f).mch = s.mch := rfl
@[simp] theorem State.modHbm_pcie (s : State) (f : HbmSt → HbmSt) : (s.modHbm f).pcie = s.pcie := rfl
@[simp] theorem State.modHbm_mgt (s : State) (f : HbmSt → HbmSt) : (s.modHbm f).mgt = s.mgt := rfl
@[simp] theorem State.modHbm_spn (s : State) (f : HbmSt → HbmSt) : (s.modHbm f).spn = s.spn := rfl
@[simp] theorem State.modHbm_sess (s : State) (f : HbmSt → HbmSt) : (s.modHbm f).sess = s.sess := rfl
@[simp] theorem State.modHbm_hbm (s : State) (f : HbmSt → HbmSt) : (s.modHbm f).hbm = f s.hbm := rfl
@[simp] theorem State.modHbm_tap (s : State) (f : HbmSt → HbmSt) : (s.modHbm f).tap = s.tap := rfl
@[simp] theorem State.modHbm_fabs (s : State) (f : HbmSt → HbmSt) : (s.modHbm f).fabs = s.fabs := rfl
@[simp] theorem State.modHbm_parts (s : State) (f : HbmSt → HbmSt) : (s.modHbm f).parts = s.parts := rfl
@[simp] theorem State.modHbm_cluss (s : State) (f : HbmSt → HbmSt) : (s.modHbm f).cluss = s.cluss := rfl
@[simp] theorem State.modHbm_tiles (s : State) (f : HbmSt → HbmSt) : (s.modHbm f).tiles = s.tiles := rfl
@[simp] theorem State.modHbm_ctxs (s : State) (f : HbmSt → HbmSt) : (s.modHbm f).ctxs = s.ctxs := rfl
@[simp] theorem State.modHbm_tasks (s : State) (f : HbmSt → HbmSt) : (s.modHbm f).tasks = s.tasks := rfl
@[simp] theorem State.modHbm_scheds (s : State) (f : HbmSt → HbmSt) : (s.modHbm f).scheds = s.scheds := rfl
@[simp] theorem State.modHbm_held (s : State) (f : HbmSt → HbmSt) : (s.modHbm f).held = s.held := rfl
@[simp] theorem State.modHbm_latches (s : State) (f : HbmSt → HbmSt) : (s.modHbm f).latches = s.latches := rfl
@[simp] theorem State.modHbm_out (s : State) (f : HbmSt → HbmSt) : (s.modHbm f).out = s.out := rfl
@[simp] theorem State.modHbm_ticks (s : State) (f : HbmSt → HbmSt) : (s.modHbm f).ticks = s.ticks := rfl
@[simp] theorem State.modHbm_free (s : State) (f : HbmSt → HbmSt) : (s.modHbm f).free = s.free := rfl
@[simp] theorem State.modHbm_pending (s : State) (f : HbmSt → HbmSt) : (s.modHbm f).pending = s.pending := rfl

@[simp] theorem State.modTap_fuse (s : State) (f : TapSt → TapSt) : (s.modTap f).fuse = s.fuse := rfl
@[simp] theorem State.modTap_flash (s : State) (f : TapSt → TapSt) : (s.modTap f).flash = s.flash := rfl
@[simp] theorem State.modTap_top (s : State) (f : TapSt → TapSt) : (s.modTap f).top = s.top := rfl
@[simp] theorem State.modTap_rstc (s : State) (f : TapSt → TapSt) : (s.modTap f).rstc = s.rstc := rfl
@[simp] theorem State.modTap_brup (s : State) (f : TapSt → TapSt) : (s.modTap f).brup = s.brup := rfl
@[simp] theorem State.modTap_pwr (s : State) (f : TapSt → TapSt) : (s.modTap f).pwr = s.pwr := rfl
@[simp] theorem State.modTap_gov (s : State) (f : TapSt → TapSt) : (s.modTap f).gov = s.gov := rfl
@[simp] theorem State.modTap_clk (s : State) (f : TapSt → TapSt) : (s.modTap f).clk = s.clk := rfl
@[simp] theorem State.modTap_fret (s : State) (f : TapSt → TapSt) : (s.modTap f).fret = s.fret := rfl
@[simp] theorem State.modTap_ids (s : State) (f : TapSt → TapSt) : (s.modTap f).ids = s.ids := rfl
@[simp] theorem State.modTap_sec (s : State) (f : TapSt → TapSt) : (s.modTap f).sec = s.sec := rfl
@[simp] theorem State.modTap_bist (s : State) (f : TapSt → TapSt) : (s.modTap f).bist = s.bist := rfl
@[simp] theorem State.modTap_heal (s : State) (f : TapSt → TapSt) : (s.modTap f).heal = s.heal := rfl
@[simp] theorem State.modTap_healx (s : State) (f : TapSt → TapSt) : (s.modTap f).healx = s.healx := rfl
@[simp] theorem State.modTap_rel (s : State) (f : TapSt → TapSt) : (s.modTap f).rel = s.rel := rfl
@[simp] theorem State.modTap_relx (s : State) (f : TapSt → TapSt) : (s.modTap f).relx = s.relx := rfl
@[simp] theorem State.modTap_chest (s : State) (f : TapSt → TapSt) : (s.modTap f).chest = s.chest := rfl
@[simp] theorem State.modTap_tel (s : State) (f : TapSt → TapSt) : (s.modTap f).tel = s.tel := rfl
@[simp] theorem State.modTap_mch (s : State) (f : TapSt → TapSt) : (s.modTap f).mch = s.mch := rfl
@[simp] theorem State.modTap_pcie (s : State) (f : TapSt → TapSt) : (s.modTap f).pcie = s.pcie := rfl
@[simp] theorem State.modTap_mgt (s : State) (f : TapSt → TapSt) : (s.modTap f).mgt = s.mgt := rfl
@[simp] theorem State.modTap_spn (s : State) (f : TapSt → TapSt) : (s.modTap f).spn = s.spn := rfl
@[simp] theorem State.modTap_sess (s : State) (f : TapSt → TapSt) : (s.modTap f).sess = s.sess := rfl
@[simp] theorem State.modTap_hbm (s : State) (f : TapSt → TapSt) : (s.modTap f).hbm = s.hbm := rfl
@[simp] theorem State.modTap_tap (s : State) (f : TapSt → TapSt) : (s.modTap f).tap = f s.tap := rfl
@[simp] theorem State.modTap_fabs (s : State) (f : TapSt → TapSt) : (s.modTap f).fabs = s.fabs := rfl
@[simp] theorem State.modTap_parts (s : State) (f : TapSt → TapSt) : (s.modTap f).parts = s.parts := rfl
@[simp] theorem State.modTap_cluss (s : State) (f : TapSt → TapSt) : (s.modTap f).cluss = s.cluss := rfl
@[simp] theorem State.modTap_tiles (s : State) (f : TapSt → TapSt) : (s.modTap f).tiles = s.tiles := rfl
@[simp] theorem State.modTap_ctxs (s : State) (f : TapSt → TapSt) : (s.modTap f).ctxs = s.ctxs := rfl
@[simp] theorem State.modTap_tasks (s : State) (f : TapSt → TapSt) : (s.modTap f).tasks = s.tasks := rfl
@[simp] theorem State.modTap_scheds (s : State) (f : TapSt → TapSt) : (s.modTap f).scheds = s.scheds := rfl
@[simp] theorem State.modTap_held (s : State) (f : TapSt → TapSt) : (s.modTap f).held = s.held := rfl
@[simp] theorem State.modTap_latches (s : State) (f : TapSt → TapSt) : (s.modTap f).latches = s.latches := rfl
@[simp] theorem State.modTap_out (s : State) (f : TapSt → TapSt) : (s.modTap f).out = s.out := rfl
@[simp] theorem State.modTap_ticks (s : State) (f : TapSt → TapSt) : (s.modTap f).ticks = s.ticks := rfl
@[simp] theorem State.modTap_free (s : State) (f : TapSt → TapSt) : (s.modTap f).free = s.free := rfl
@[simp] theorem State.modTap_pending (s : State) (f : TapSt → TapSt) : (s.modTap f).pending = s.pending := rfl

@[simp] theorem State.modFabs_fuse (s : State) (f : (Tab FabSt) → (Tab FabSt)) : (s.modFabs f).fuse = s.fuse := rfl
@[simp] theorem State.modFabs_flash (s : State) (f : (Tab FabSt) → (Tab FabSt)) : (s.modFabs f).flash = s.flash := rfl
@[simp] theorem State.modFabs_top (s : State) (f : (Tab FabSt) → (Tab FabSt)) : (s.modFabs f).top = s.top := rfl
@[simp] theorem State.modFabs_rstc (s : State) (f : (Tab FabSt) → (Tab FabSt)) : (s.modFabs f).rstc = s.rstc := rfl
@[simp] theorem State.modFabs_brup (s : State) (f : (Tab FabSt) → (Tab FabSt)) : (s.modFabs f).brup = s.brup := rfl
@[simp] theorem State.modFabs_pwr (s : State) (f : (Tab FabSt) → (Tab FabSt)) : (s.modFabs f).pwr = s.pwr := rfl
@[simp] theorem State.modFabs_gov (s : State) (f : (Tab FabSt) → (Tab FabSt)) : (s.modFabs f).gov = s.gov := rfl
@[simp] theorem State.modFabs_clk (s : State) (f : (Tab FabSt) → (Tab FabSt)) : (s.modFabs f).clk = s.clk := rfl
@[simp] theorem State.modFabs_fret (s : State) (f : (Tab FabSt) → (Tab FabSt)) : (s.modFabs f).fret = s.fret := rfl
@[simp] theorem State.modFabs_ids (s : State) (f : (Tab FabSt) → (Tab FabSt)) : (s.modFabs f).ids = s.ids := rfl
@[simp] theorem State.modFabs_sec (s : State) (f : (Tab FabSt) → (Tab FabSt)) : (s.modFabs f).sec = s.sec := rfl
@[simp] theorem State.modFabs_bist (s : State) (f : (Tab FabSt) → (Tab FabSt)) : (s.modFabs f).bist = s.bist := rfl
@[simp] theorem State.modFabs_heal (s : State) (f : (Tab FabSt) → (Tab FabSt)) : (s.modFabs f).heal = s.heal := rfl
@[simp] theorem State.modFabs_healx (s : State) (f : (Tab FabSt) → (Tab FabSt)) : (s.modFabs f).healx = s.healx := rfl
@[simp] theorem State.modFabs_rel (s : State) (f : (Tab FabSt) → (Tab FabSt)) : (s.modFabs f).rel = s.rel := rfl
@[simp] theorem State.modFabs_relx (s : State) (f : (Tab FabSt) → (Tab FabSt)) : (s.modFabs f).relx = s.relx := rfl
@[simp] theorem State.modFabs_chest (s : State) (f : (Tab FabSt) → (Tab FabSt)) : (s.modFabs f).chest = s.chest := rfl
@[simp] theorem State.modFabs_tel (s : State) (f : (Tab FabSt) → (Tab FabSt)) : (s.modFabs f).tel = s.tel := rfl
@[simp] theorem State.modFabs_mch (s : State) (f : (Tab FabSt) → (Tab FabSt)) : (s.modFabs f).mch = s.mch := rfl
@[simp] theorem State.modFabs_pcie (s : State) (f : (Tab FabSt) → (Tab FabSt)) : (s.modFabs f).pcie = s.pcie := rfl
@[simp] theorem State.modFabs_mgt (s : State) (f : (Tab FabSt) → (Tab FabSt)) : (s.modFabs f).mgt = s.mgt := rfl
@[simp] theorem State.modFabs_spn (s : State) (f : (Tab FabSt) → (Tab FabSt)) : (s.modFabs f).spn = s.spn := rfl
@[simp] theorem State.modFabs_sess (s : State) (f : (Tab FabSt) → (Tab FabSt)) : (s.modFabs f).sess = s.sess := rfl
@[simp] theorem State.modFabs_hbm (s : State) (f : (Tab FabSt) → (Tab FabSt)) : (s.modFabs f).hbm = s.hbm := rfl
@[simp] theorem State.modFabs_tap (s : State) (f : (Tab FabSt) → (Tab FabSt)) : (s.modFabs f).tap = s.tap := rfl
@[simp] theorem State.modFabs_fabs (s : State) (f : (Tab FabSt) → (Tab FabSt)) : (s.modFabs f).fabs = f s.fabs := rfl
@[simp] theorem State.modFabs_parts (s : State) (f : (Tab FabSt) → (Tab FabSt)) : (s.modFabs f).parts = s.parts := rfl
@[simp] theorem State.modFabs_cluss (s : State) (f : (Tab FabSt) → (Tab FabSt)) : (s.modFabs f).cluss = s.cluss := rfl
@[simp] theorem State.modFabs_tiles (s : State) (f : (Tab FabSt) → (Tab FabSt)) : (s.modFabs f).tiles = s.tiles := rfl
@[simp] theorem State.modFabs_ctxs (s : State) (f : (Tab FabSt) → (Tab FabSt)) : (s.modFabs f).ctxs = s.ctxs := rfl
@[simp] theorem State.modFabs_tasks (s : State) (f : (Tab FabSt) → (Tab FabSt)) : (s.modFabs f).tasks = s.tasks := rfl
@[simp] theorem State.modFabs_scheds (s : State) (f : (Tab FabSt) → (Tab FabSt)) : (s.modFabs f).scheds = s.scheds := rfl
@[simp] theorem State.modFabs_held (s : State) (f : (Tab FabSt) → (Tab FabSt)) : (s.modFabs f).held = s.held := rfl
@[simp] theorem State.modFabs_latches (s : State) (f : (Tab FabSt) → (Tab FabSt)) : (s.modFabs f).latches = s.latches := rfl
@[simp] theorem State.modFabs_out (s : State) (f : (Tab FabSt) → (Tab FabSt)) : (s.modFabs f).out = s.out := rfl
@[simp] theorem State.modFabs_ticks (s : State) (f : (Tab FabSt) → (Tab FabSt)) : (s.modFabs f).ticks = s.ticks := rfl
@[simp] theorem State.modFabs_free (s : State) (f : (Tab FabSt) → (Tab FabSt)) : (s.modFabs f).free = s.free := rfl
@[simp] theorem State.modFabs_pending (s : State) (f : (Tab FabSt) → (Tab FabSt)) : (s.modFabs f).pending = s.pending := rfl

@[simp] theorem State.modParts_fuse (s : State) (f : (Tab PartSt) → (Tab PartSt)) : (s.modParts f).fuse = s.fuse := rfl
@[simp] theorem State.modParts_flash (s : State) (f : (Tab PartSt) → (Tab PartSt)) : (s.modParts f).flash = s.flash := rfl
@[simp] theorem State.modParts_top (s : State) (f : (Tab PartSt) → (Tab PartSt)) : (s.modParts f).top = s.top := rfl
@[simp] theorem State.modParts_rstc (s : State) (f : (Tab PartSt) → (Tab PartSt)) : (s.modParts f).rstc = s.rstc := rfl
@[simp] theorem State.modParts_brup (s : State) (f : (Tab PartSt) → (Tab PartSt)) : (s.modParts f).brup = s.brup := rfl
@[simp] theorem State.modParts_pwr (s : State) (f : (Tab PartSt) → (Tab PartSt)) : (s.modParts f).pwr = s.pwr := rfl
@[simp] theorem State.modParts_gov (s : State) (f : (Tab PartSt) → (Tab PartSt)) : (s.modParts f).gov = s.gov := rfl
@[simp] theorem State.modParts_clk (s : State) (f : (Tab PartSt) → (Tab PartSt)) : (s.modParts f).clk = s.clk := rfl
@[simp] theorem State.modParts_fret (s : State) (f : (Tab PartSt) → (Tab PartSt)) : (s.modParts f).fret = s.fret := rfl
@[simp] theorem State.modParts_ids (s : State) (f : (Tab PartSt) → (Tab PartSt)) : (s.modParts f).ids = s.ids := rfl
@[simp] theorem State.modParts_sec (s : State) (f : (Tab PartSt) → (Tab PartSt)) : (s.modParts f).sec = s.sec := rfl
@[simp] theorem State.modParts_bist (s : State) (f : (Tab PartSt) → (Tab PartSt)) : (s.modParts f).bist = s.bist := rfl
@[simp] theorem State.modParts_heal (s : State) (f : (Tab PartSt) → (Tab PartSt)) : (s.modParts f).heal = s.heal := rfl
@[simp] theorem State.modParts_healx (s : State) (f : (Tab PartSt) → (Tab PartSt)) : (s.modParts f).healx = s.healx := rfl
@[simp] theorem State.modParts_rel (s : State) (f : (Tab PartSt) → (Tab PartSt)) : (s.modParts f).rel = s.rel := rfl
@[simp] theorem State.modParts_relx (s : State) (f : (Tab PartSt) → (Tab PartSt)) : (s.modParts f).relx = s.relx := rfl
@[simp] theorem State.modParts_chest (s : State) (f : (Tab PartSt) → (Tab PartSt)) : (s.modParts f).chest = s.chest := rfl
@[simp] theorem State.modParts_tel (s : State) (f : (Tab PartSt) → (Tab PartSt)) : (s.modParts f).tel = s.tel := rfl
@[simp] theorem State.modParts_mch (s : State) (f : (Tab PartSt) → (Tab PartSt)) : (s.modParts f).mch = s.mch := rfl
@[simp] theorem State.modParts_pcie (s : State) (f : (Tab PartSt) → (Tab PartSt)) : (s.modParts f).pcie = s.pcie := rfl
@[simp] theorem State.modParts_mgt (s : State) (f : (Tab PartSt) → (Tab PartSt)) : (s.modParts f).mgt = s.mgt := rfl
@[simp] theorem State.modParts_spn (s : State) (f : (Tab PartSt) → (Tab PartSt)) : (s.modParts f).spn = s.spn := rfl
@[simp] theorem State.modParts_sess (s : State) (f : (Tab PartSt) → (Tab PartSt)) : (s.modParts f).sess = s.sess := rfl
@[simp] theorem State.modParts_hbm (s : State) (f : (Tab PartSt) → (Tab PartSt)) : (s.modParts f).hbm = s.hbm := rfl
@[simp] theorem State.modParts_tap (s : State) (f : (Tab PartSt) → (Tab PartSt)) : (s.modParts f).tap = s.tap := rfl
@[simp] theorem State.modParts_fabs (s : State) (f : (Tab PartSt) → (Tab PartSt)) : (s.modParts f).fabs = s.fabs := rfl
@[simp] theorem State.modParts_parts (s : State) (f : (Tab PartSt) → (Tab PartSt)) : (s.modParts f).parts = f s.parts := rfl
@[simp] theorem State.modParts_cluss (s : State) (f : (Tab PartSt) → (Tab PartSt)) : (s.modParts f).cluss = s.cluss := rfl
@[simp] theorem State.modParts_tiles (s : State) (f : (Tab PartSt) → (Tab PartSt)) : (s.modParts f).tiles = s.tiles := rfl
@[simp] theorem State.modParts_ctxs (s : State) (f : (Tab PartSt) → (Tab PartSt)) : (s.modParts f).ctxs = s.ctxs := rfl
@[simp] theorem State.modParts_tasks (s : State) (f : (Tab PartSt) → (Tab PartSt)) : (s.modParts f).tasks = s.tasks := rfl
@[simp] theorem State.modParts_scheds (s : State) (f : (Tab PartSt) → (Tab PartSt)) : (s.modParts f).scheds = s.scheds := rfl
@[simp] theorem State.modParts_held (s : State) (f : (Tab PartSt) → (Tab PartSt)) : (s.modParts f).held = s.held := rfl
@[simp] theorem State.modParts_latches (s : State) (f : (Tab PartSt) → (Tab PartSt)) : (s.modParts f).latches = s.latches := rfl
@[simp] theorem State.modParts_out (s : State) (f : (Tab PartSt) → (Tab PartSt)) : (s.modParts f).out = s.out := rfl
@[simp] theorem State.modParts_ticks (s : State) (f : (Tab PartSt) → (Tab PartSt)) : (s.modParts f).ticks = s.ticks := rfl
@[simp] theorem State.modParts_free (s : State) (f : (Tab PartSt) → (Tab PartSt)) : (s.modParts f).free = s.free := rfl
@[simp] theorem State.modParts_pending (s : State) (f : (Tab PartSt) → (Tab PartSt)) : (s.modParts f).pending = s.pending := rfl

@[simp] theorem State.modCluss_fuse (s : State) (f : (Tab ClusSt) → (Tab ClusSt)) : (s.modCluss f).fuse = s.fuse := rfl
@[simp] theorem State.modCluss_flash (s : State) (f : (Tab ClusSt) → (Tab ClusSt)) : (s.modCluss f).flash = s.flash := rfl
@[simp] theorem State.modCluss_top (s : State) (f : (Tab ClusSt) → (Tab ClusSt)) : (s.modCluss f).top = s.top := rfl
@[simp] theorem State.modCluss_rstc (s : State) (f : (Tab ClusSt) → (Tab ClusSt)) : (s.modCluss f).rstc = s.rstc := rfl
@[simp] theorem State.modCluss_brup (s : State) (f : (Tab ClusSt) → (Tab ClusSt)) : (s.modCluss f).brup = s.brup := rfl
@[simp] theorem State.modCluss_pwr (s : State) (f : (Tab ClusSt) → (Tab ClusSt)) : (s.modCluss f).pwr = s.pwr := rfl
@[simp] theorem State.modCluss_gov (s : State) (f : (Tab ClusSt) → (Tab ClusSt)) : (s.modCluss f).gov = s.gov := rfl
@[simp] theorem State.modCluss_clk (s : State) (f : (Tab ClusSt) → (Tab ClusSt)) : (s.modCluss f).clk = s.clk := rfl
@[simp] theorem State.modCluss_fret (s : State) (f : (Tab ClusSt) → (Tab ClusSt)) : (s.modCluss f).fret = s.fret := rfl
@[simp] theorem State.modCluss_ids (s : State) (f : (Tab ClusSt) → (Tab ClusSt)) : (s.modCluss f).ids = s.ids := rfl
@[simp] theorem State.modCluss_sec (s : State) (f : (Tab ClusSt) → (Tab ClusSt)) : (s.modCluss f).sec = s.sec := rfl
@[simp] theorem State.modCluss_bist (s : State) (f : (Tab ClusSt) → (Tab ClusSt)) : (s.modCluss f).bist = s.bist := rfl
@[simp] theorem State.modCluss_heal (s : State) (f : (Tab ClusSt) → (Tab ClusSt)) : (s.modCluss f).heal = s.heal := rfl
@[simp] theorem State.modCluss_healx (s : State) (f : (Tab ClusSt) → (Tab ClusSt)) : (s.modCluss f).healx = s.healx := rfl
@[simp] theorem State.modCluss_rel (s : State) (f : (Tab ClusSt) → (Tab ClusSt)) : (s.modCluss f).rel = s.rel := rfl
@[simp] theorem State.modCluss_relx (s : State) (f : (Tab ClusSt) → (Tab ClusSt)) : (s.modCluss f).relx = s.relx := rfl
@[simp] theorem State.modCluss_chest (s : State) (f : (Tab ClusSt) → (Tab ClusSt)) : (s.modCluss f).chest = s.chest := rfl
@[simp] theorem State.modCluss_tel (s : State) (f : (Tab ClusSt) → (Tab ClusSt)) : (s.modCluss f).tel = s.tel := rfl
@[simp] theorem State.modCluss_mch (s : State) (f : (Tab ClusSt) → (Tab ClusSt)) : (s.modCluss f).mch = s.mch := rfl
@[simp] theorem State.modCluss_pcie (s : State) (f : (Tab ClusSt) → (Tab ClusSt)) : (s.modCluss f).pcie = s.pcie := rfl
@[simp] theorem State.modCluss_mgt (s : State) (f : (Tab ClusSt) → (Tab ClusSt)) : (s.modCluss f).mgt = s.mgt := rfl
@[simp] theorem State.modCluss_spn (s : State) (f : (Tab ClusSt) → (Tab ClusSt)) : (s.modCluss f).spn = s.spn := rfl
@[simp] theorem State.modCluss_sess (s : State) (f : (Tab ClusSt) → (Tab ClusSt)) : (s.modCluss f).sess = s.sess := rfl
@[simp] theorem State.modCluss_hbm (s : State) (f : (Tab ClusSt) → (Tab ClusSt)) : (s.modCluss f).hbm = s.hbm := rfl
@[simp] theorem State.modCluss_tap (s : State) (f : (Tab ClusSt) → (Tab ClusSt)) : (s.modCluss f).tap = s.tap := rfl
@[simp] theorem State.modCluss_fabs (s : State) (f : (Tab ClusSt) → (Tab ClusSt)) : (s.modCluss f).fabs = s.fabs := rfl
@[simp] theorem State.modCluss_parts (s : State) (f : (Tab ClusSt) → (Tab ClusSt)) : (s.modCluss f).parts = s.parts := rfl
@[simp] theorem State.modCluss_cluss (s : State) (f : (Tab ClusSt) → (Tab ClusSt)) : (s.modCluss f).cluss = f s.cluss := rfl
@[simp] theorem State.modCluss_tiles (s : State) (f : (Tab ClusSt) → (Tab ClusSt)) : (s.modCluss f).tiles = s.tiles := rfl
@[simp] theorem State.modCluss_ctxs (s : State) (f : (Tab ClusSt) → (Tab ClusSt)) : (s.modCluss f).ctxs = s.ctxs := rfl
@[simp] theorem State.modCluss_tasks (s : State) (f : (Tab ClusSt) → (Tab ClusSt)) : (s.modCluss f).tasks = s.tasks := rfl
@[simp] theorem State.modCluss_scheds (s : State) (f : (Tab ClusSt) → (Tab ClusSt)) : (s.modCluss f).scheds = s.scheds := rfl
@[simp] theorem State.modCluss_held (s : State) (f : (Tab ClusSt) → (Tab ClusSt)) : (s.modCluss f).held = s.held := rfl
@[simp] theorem State.modCluss_latches (s : State) (f : (Tab ClusSt) → (Tab ClusSt)) : (s.modCluss f).latches = s.latches := rfl
@[simp] theorem State.modCluss_out (s : State) (f : (Tab ClusSt) → (Tab ClusSt)) : (s.modCluss f).out = s.out := rfl
@[simp] theorem State.modCluss_ticks (s : State) (f : (Tab ClusSt) → (Tab ClusSt)) : (s.modCluss f).ticks = s.ticks := rfl
@[simp] theorem State.modCluss_free (s : State) (f : (Tab ClusSt) → (Tab ClusSt)) : (s.modCluss f).free = s.free := rfl
@[simp] theorem State.modCluss_pending (s : State) (f : (Tab ClusSt) → (Tab ClusSt)) : (s.modCluss f).pending = s.pending := rfl

@[simp] theorem State.modTiles_fuse (s : State) (f : (Tab TileSt) → (Tab TileSt)) : (s.modTiles f).fuse = s.fuse := rfl
@[simp] theorem State.modTiles_flash (s : State) (f : (Tab TileSt) → (Tab TileSt)) : (s.modTiles f).flash = s.flash := rfl
@[simp] theorem State.modTiles_top (s : State) (f : (Tab TileSt) → (Tab TileSt)) : (s.modTiles f).top = s.top := rfl
@[simp] theorem State.modTiles_rstc (s : State) (f : (Tab TileSt) → (Tab TileSt)) : (s.modTiles f).rstc = s.rstc := rfl
@[simp] theorem State.modTiles_brup (s : State) (f : (Tab TileSt) → (Tab TileSt)) : (s.modTiles f).brup = s.brup := rfl
@[simp] theorem State.modTiles_pwr (s : State) (f : (Tab TileSt) → (Tab TileSt)) : (s.modTiles f).pwr = s.pwr := rfl
@[simp] theorem State.modTiles_gov (s : State) (f : (Tab TileSt) → (Tab TileSt)) : (s.modTiles f).gov = s.gov := rfl
@[simp] theorem State.modTiles_clk (s : State) (f : (Tab TileSt) → (Tab TileSt)) : (s.modTiles f).clk = s.clk := rfl
@[simp] theorem State.modTiles_fret (s : State) (f : (Tab TileSt) → (Tab TileSt)) : (s.modTiles f).fret = s.fret := rfl
@[simp] theorem State.modTiles_ids (s : State) (f : (Tab TileSt) → (Tab TileSt)) : (s.modTiles f).ids = s.ids := rfl
@[simp] theorem State.modTiles_sec (s : State) (f : (Tab TileSt) → (Tab TileSt)) : (s.modTiles f).sec = s.sec := rfl
@[simp] theorem State.modTiles_bist (s : State) (f : (Tab TileSt) → (Tab TileSt)) : (s.modTiles f).bist = s.bist := rfl
@[simp] theorem State.modTiles_heal (s : State) (f : (Tab TileSt) → (Tab TileSt)) : (s.modTiles f).heal = s.heal := rfl
@[simp] theorem State.modTiles_healx (s : State) (f : (Tab TileSt) → (Tab TileSt)) : (s.modTiles f).healx = s.healx := rfl
@[simp] theorem State.modTiles_rel (s : State) (f : (Tab TileSt) → (Tab TileSt)) : (s.modTiles f).rel = s.rel := rfl
@[simp] theorem State.modTiles_relx (s : State) (f : (Tab TileSt) → (Tab TileSt)) : (s.modTiles f).relx = s.relx := rfl
@[simp] theorem State.modTiles_chest (s : State) (f : (Tab TileSt) → (Tab TileSt)) : (s.modTiles f).chest = s.chest := rfl
@[simp] theorem State.modTiles_tel (s : State) (f : (Tab TileSt) → (Tab TileSt)) : (s.modTiles f).tel = s.tel := rfl
@[simp] theorem State.modTiles_mch (s : State) (f : (Tab TileSt) → (Tab TileSt)) : (s.modTiles f).mch = s.mch := rfl
@[simp] theorem State.modTiles_pcie (s : State) (f : (Tab TileSt) → (Tab TileSt)) : (s.modTiles f).pcie = s.pcie := rfl
@[simp] theorem State.modTiles_mgt (s : State) (f : (Tab TileSt) → (Tab TileSt)) : (s.modTiles f).mgt = s.mgt := rfl
@[simp] theorem State.modTiles_spn (s : State) (f : (Tab TileSt) → (Tab TileSt)) : (s.modTiles f).spn = s.spn := rfl
@[simp] theorem State.modTiles_sess (s : State) (f : (Tab TileSt) → (Tab TileSt)) : (s.modTiles f).sess = s.sess := rfl
@[simp] theorem State.modTiles_hbm (s : State) (f : (Tab TileSt) → (Tab TileSt)) : (s.modTiles f).hbm = s.hbm := rfl
@[simp] theorem State.modTiles_tap (s : State) (f : (Tab TileSt) → (Tab TileSt)) : (s.modTiles f).tap = s.tap := rfl
@[simp] theorem State.modTiles_fabs (s : State) (f : (Tab TileSt) → (Tab TileSt)) : (s.modTiles f).fabs = s.fabs := rfl
@[simp] theorem State.modTiles_parts (s : State) (f : (Tab TileSt) → (Tab TileSt)) : (s.modTiles f).parts = s.parts := rfl
@[simp] theorem State.modTiles_cluss (s : State) (f : (Tab TileSt) → (Tab TileSt)) : (s.modTiles f).cluss = s.cluss := rfl
@[simp] theorem State.modTiles_tiles (s : State) (f : (Tab TileSt) → (Tab TileSt)) : (s.modTiles f).tiles = f s.tiles := rfl
@[simp] theorem State.modTiles_ctxs (s : State) (f : (Tab TileSt) → (Tab TileSt)) : (s.modTiles f).ctxs = s.ctxs := rfl
@[simp] theorem State.modTiles_tasks (s : State) (f : (Tab TileSt) → (Tab TileSt)) : (s.modTiles f).tasks = s.tasks := rfl
@[simp] theorem State.modTiles_scheds (s : State) (f : (Tab TileSt) → (Tab TileSt)) : (s.modTiles f).scheds = s.scheds := rfl
@[simp] theorem State.modTiles_held (s : State) (f : (Tab TileSt) → (Tab TileSt)) : (s.modTiles f).held = s.held := rfl
@[simp] theorem State.modTiles_latches (s : State) (f : (Tab TileSt) → (Tab TileSt)) : (s.modTiles f).latches = s.latches := rfl
@[simp] theorem State.modTiles_out (s : State) (f : (Tab TileSt) → (Tab TileSt)) : (s.modTiles f).out = s.out := rfl
@[simp] theorem State.modTiles_ticks (s : State) (f : (Tab TileSt) → (Tab TileSt)) : (s.modTiles f).ticks = s.ticks := rfl
@[simp] theorem State.modTiles_free (s : State) (f : (Tab TileSt) → (Tab TileSt)) : (s.modTiles f).free = s.free := rfl
@[simp] theorem State.modTiles_pending (s : State) (f : (Tab TileSt) → (Tab TileSt)) : (s.modTiles f).pending = s.pending := rfl

@[simp] theorem State.modCtxs_fuse (s : State) (f : (Tab CtxSt) → (Tab CtxSt)) : (s.modCtxs f).fuse = s.fuse := rfl
@[simp] theorem State.modCtxs_flash (s : State) (f : (Tab CtxSt) → (Tab CtxSt)) : (s.modCtxs f).flash = s.flash := rfl
@[simp] theorem State.modCtxs_top (s : State) (f : (Tab CtxSt) → (Tab CtxSt)) : (s.modCtxs f).top = s.top := rfl
@[simp] theorem State.modCtxs_rstc (s : State) (f : (Tab CtxSt) → (Tab CtxSt)) : (s.modCtxs f).rstc = s.rstc := rfl
@[simp] theorem State.modCtxs_brup (s : State) (f : (Tab CtxSt) → (Tab CtxSt)) : (s.modCtxs f).brup = s.brup := rfl
@[simp] theorem State.modCtxs_pwr (s : State) (f : (Tab CtxSt) → (Tab CtxSt)) : (s.modCtxs f).pwr = s.pwr := rfl
@[simp] theorem State.modCtxs_gov (s : State) (f : (Tab CtxSt) → (Tab CtxSt)) : (s.modCtxs f).gov = s.gov := rfl
@[simp] theorem State.modCtxs_clk (s : State) (f : (Tab CtxSt) → (Tab CtxSt)) : (s.modCtxs f).clk = s.clk := rfl
@[simp] theorem State.modCtxs_fret (s : State) (f : (Tab CtxSt) → (Tab CtxSt)) : (s.modCtxs f).fret = s.fret := rfl
@[simp] theorem State.modCtxs_ids (s : State) (f : (Tab CtxSt) → (Tab CtxSt)) : (s.modCtxs f).ids = s.ids := rfl
@[simp] theorem State.modCtxs_sec (s : State) (f : (Tab CtxSt) → (Tab CtxSt)) : (s.modCtxs f).sec = s.sec := rfl
@[simp] theorem State.modCtxs_bist (s : State) (f : (Tab CtxSt) → (Tab CtxSt)) : (s.modCtxs f).bist = s.bist := rfl
@[simp] theorem State.modCtxs_heal (s : State) (f : (Tab CtxSt) → (Tab CtxSt)) : (s.modCtxs f).heal = s.heal := rfl
@[simp] theorem State.modCtxs_healx (s : State) (f : (Tab CtxSt) → (Tab CtxSt)) : (s.modCtxs f).healx = s.healx := rfl
@[simp] theorem State.modCtxs_rel (s : State) (f : (Tab CtxSt) → (Tab CtxSt)) : (s.modCtxs f).rel = s.rel := rfl
@[simp] theorem State.modCtxs_relx (s : State) (f : (Tab CtxSt) → (Tab CtxSt)) : (s.modCtxs f).relx = s.relx := rfl
@[simp] theorem State.modCtxs_chest (s : State) (f : (Tab CtxSt) → (Tab CtxSt)) : (s.modCtxs f).chest = s.chest := rfl
@[simp] theorem State.modCtxs_tel (s : State) (f : (Tab CtxSt) → (Tab CtxSt)) : (s.modCtxs f).tel = s.tel := rfl
@[simp] theorem State.modCtxs_mch (s : State) (f : (Tab CtxSt) → (Tab CtxSt)) : (s.modCtxs f).mch = s.mch := rfl
@[simp] theorem State.modCtxs_pcie (s : State) (f : (Tab CtxSt) → (Tab CtxSt)) : (s.modCtxs f).pcie = s.pcie := rfl
@[simp] theorem State.modCtxs_mgt (s : State) (f : (Tab CtxSt) → (Tab CtxSt)) : (s.modCtxs f).mgt = s.mgt := rfl
@[simp] theorem State.modCtxs_spn (s : State) (f : (Tab CtxSt) → (Tab CtxSt)) : (s.modCtxs f).spn = s.spn := rfl
@[simp] theorem State.modCtxs_sess (s : State) (f : (Tab CtxSt) → (Tab CtxSt)) : (s.modCtxs f).sess = s.sess := rfl
@[simp] theorem State.modCtxs_hbm (s : State) (f : (Tab CtxSt) → (Tab CtxSt)) : (s.modCtxs f).hbm = s.hbm := rfl
@[simp] theorem State.modCtxs_tap (s : State) (f : (Tab CtxSt) → (Tab CtxSt)) : (s.modCtxs f).tap = s.tap := rfl
@[simp] theorem State.modCtxs_fabs (s : State) (f : (Tab CtxSt) → (Tab CtxSt)) : (s.modCtxs f).fabs = s.fabs := rfl
@[simp] theorem State.modCtxs_parts (s : State) (f : (Tab CtxSt) → (Tab CtxSt)) : (s.modCtxs f).parts = s.parts := rfl
@[simp] theorem State.modCtxs_cluss (s : State) (f : (Tab CtxSt) → (Tab CtxSt)) : (s.modCtxs f).cluss = s.cluss := rfl
@[simp] theorem State.modCtxs_tiles (s : State) (f : (Tab CtxSt) → (Tab CtxSt)) : (s.modCtxs f).tiles = s.tiles := rfl
@[simp] theorem State.modCtxs_ctxs (s : State) (f : (Tab CtxSt) → (Tab CtxSt)) : (s.modCtxs f).ctxs = f s.ctxs := rfl
@[simp] theorem State.modCtxs_tasks (s : State) (f : (Tab CtxSt) → (Tab CtxSt)) : (s.modCtxs f).tasks = s.tasks := rfl
@[simp] theorem State.modCtxs_scheds (s : State) (f : (Tab CtxSt) → (Tab CtxSt)) : (s.modCtxs f).scheds = s.scheds := rfl
@[simp] theorem State.modCtxs_held (s : State) (f : (Tab CtxSt) → (Tab CtxSt)) : (s.modCtxs f).held = s.held := rfl
@[simp] theorem State.modCtxs_latches (s : State) (f : (Tab CtxSt) → (Tab CtxSt)) : (s.modCtxs f).latches = s.latches := rfl
@[simp] theorem State.modCtxs_out (s : State) (f : (Tab CtxSt) → (Tab CtxSt)) : (s.modCtxs f).out = s.out := rfl
@[simp] theorem State.modCtxs_ticks (s : State) (f : (Tab CtxSt) → (Tab CtxSt)) : (s.modCtxs f).ticks = s.ticks := rfl
@[simp] theorem State.modCtxs_free (s : State) (f : (Tab CtxSt) → (Tab CtxSt)) : (s.modCtxs f).free = s.free := rfl
@[simp] theorem State.modCtxs_pending (s : State) (f : (Tab CtxSt) → (Tab CtxSt)) : (s.modCtxs f).pending = s.pending := rfl

@[simp] theorem State.modTasks_fuse (s : State) (f : (Tab TaskRt) → (Tab TaskRt)) : (s.modTasks f).fuse = s.fuse := rfl
@[simp] theorem State.modTasks_flash (s : State) (f : (Tab TaskRt) → (Tab TaskRt)) : (s.modTasks f).flash = s.flash := rfl
@[simp] theorem State.modTasks_top (s : State) (f : (Tab TaskRt) → (Tab TaskRt)) : (s.modTasks f).top = s.top := rfl
@[simp] theorem State.modTasks_rstc (s : State) (f : (Tab TaskRt) → (Tab TaskRt)) : (s.modTasks f).rstc = s.rstc := rfl
@[simp] theorem State.modTasks_brup (s : State) (f : (Tab TaskRt) → (Tab TaskRt)) : (s.modTasks f).brup = s.brup := rfl
@[simp] theorem State.modTasks_pwr (s : State) (f : (Tab TaskRt) → (Tab TaskRt)) : (s.modTasks f).pwr = s.pwr := rfl
@[simp] theorem State.modTasks_gov (s : State) (f : (Tab TaskRt) → (Tab TaskRt)) : (s.modTasks f).gov = s.gov := rfl
@[simp] theorem State.modTasks_clk (s : State) (f : (Tab TaskRt) → (Tab TaskRt)) : (s.modTasks f).clk = s.clk := rfl
@[simp] theorem State.modTasks_fret (s : State) (f : (Tab TaskRt) → (Tab TaskRt)) : (s.modTasks f).fret = s.fret := rfl
@[simp] theorem State.modTasks_ids (s : State) (f : (Tab TaskRt) → (Tab TaskRt)) : (s.modTasks f).ids = s.ids := rfl
@[simp] theorem State.modTasks_sec (s : State) (f : (Tab TaskRt) → (Tab TaskRt)) : (s.modTasks f).sec = s.sec := rfl
@[simp] theorem State.modTasks_bist (s : State) (f : (Tab TaskRt) → (Tab TaskRt)) : (s.modTasks f).bist = s.bist := rfl
@[simp] theorem State.modTasks_heal (s : State) (f : (Tab TaskRt) → (Tab TaskRt)) : (s.modTasks f).heal = s.heal := rfl
@[simp] theorem State.modTasks_healx (s : State) (f : (Tab TaskRt) → (Tab TaskRt)) : (s.modTasks f).healx = s.healx := rfl
@[simp] theorem State.modTasks_rel (s : State) (f : (Tab TaskRt) → (Tab TaskRt)) : (s.modTasks f).rel = s.rel := rfl
@[simp] theorem State.modTasks_relx (s : State) (f : (Tab TaskRt) → (Tab TaskRt)) : (s.modTasks f).relx = s.relx := rfl
@[simp] theorem State.modTasks_chest (s : State) (f : (Tab TaskRt) → (Tab TaskRt)) : (s.modTasks f).chest = s.chest := rfl
@[simp] theorem State.modTasks_tel (s : State) (f : (Tab TaskRt) → (Tab TaskRt)) : (s.modTasks f).tel = s.tel := rfl
@[simp] theorem State.modTasks_mch (s : State) (f : (Tab TaskRt) → (Tab TaskRt)) : (s.modTasks f).mch = s.mch := rfl
@[simp] theorem State.modTasks_pcie (s : State) (f : (Tab TaskRt) → (Tab TaskRt)) : (s.modTasks f).pcie = s.pcie := rfl
@[simp] theorem State.modTasks_mgt (s : State) (f : (Tab TaskRt) → (Tab TaskRt)) : (s.modTasks f).mgt = s.mgt := rfl
@[simp] theorem State.modTasks_spn (s : State) (f : (Tab TaskRt) → (Tab TaskRt)) : (s.modTasks f).spn = s.spn := rfl
@[simp] theorem State.modTasks_sess (s : State) (f : (Tab TaskRt) → (Tab TaskRt)) : (s.modTasks f).sess = s.sess := rfl
@[simp] theorem State.modTasks_hbm (s : State) (f : (Tab TaskRt) → (Tab TaskRt)) : (s.modTasks f).hbm = s.hbm := rfl
@[simp] theorem State.modTasks_tap (s : State) (f : (Tab TaskRt) → (Tab TaskRt)) : (s.modTasks f).tap = s.tap := rfl
@[simp] theorem State.modTasks_fabs (s : State) (f : (Tab TaskRt) → (Tab TaskRt)) : (s.modTasks f).fabs = s.fabs := rfl
@[simp] theorem State.modTasks_parts (s : State) (f : (Tab TaskRt) → (Tab TaskRt)) : (s.modTasks f).parts = s.parts := rfl
@[simp] theorem State.modTasks_cluss (s : State) (f : (Tab TaskRt) → (Tab TaskRt)) : (s.modTasks f).cluss = s.cluss := rfl
@[simp] theorem State.modTasks_tiles (s : State) (f : (Tab TaskRt) → (Tab TaskRt)) : (s.modTasks f).tiles = s.tiles := rfl
@[simp] theorem State.modTasks_ctxs (s : State) (f : (Tab TaskRt) → (Tab TaskRt)) : (s.modTasks f).ctxs = s.ctxs := rfl
@[simp] theorem State.modTasks_tasks (s : State) (f : (Tab TaskRt) → (Tab TaskRt)) : (s.modTasks f).tasks = f s.tasks := rfl
@[simp] theorem State.modTasks_scheds (s : State) (f : (Tab TaskRt) → (Tab TaskRt)) : (s.modTasks f).scheds = s.scheds := rfl
@[simp] theorem State.modTasks_held (s : State) (f : (Tab TaskRt) → (Tab TaskRt)) : (s.modTasks f).held = s.held := rfl
@[simp] theorem State.modTasks_latches (s : State) (f : (Tab TaskRt) → (Tab TaskRt)) : (s.modTasks f).latches = s.latches := rfl
@[simp] theorem State.modTasks_out (s : State) (f : (Tab TaskRt) → (Tab TaskRt)) : (s.modTasks f).out = s.out := rfl
@[simp] theorem State.modTasks_ticks (s : State) (f : (Tab TaskRt) → (Tab TaskRt)) : (s.modTasks f).ticks = s.ticks := rfl
@[simp] theorem State.modTasks_free (s : State) (f : (Tab TaskRt) → (Tab TaskRt)) : (s.modTasks f).free = s.free := rfl
@[simp] theorem State.modTasks_pending (s : State) (f : (Tab TaskRt) → (Tab TaskRt)) : (s.modTasks f).pending = s.pending := rfl

@[simp] theorem State.modScheds_fuse (s : State) (f : (Tab SchedSt) → (Tab SchedSt)) : (s.modScheds f).fuse = s.fuse := rfl
@[simp] theorem State.modScheds_flash (s : State) (f : (Tab SchedSt) → (Tab SchedSt)) : (s.modScheds f).flash = s.flash := rfl
@[simp] theorem State.modScheds_top (s : State) (f : (Tab SchedSt) → (Tab SchedSt)) : (s.modScheds f).top = s.top := rfl
@[simp] theorem State.modScheds_rstc (s : State) (f : (Tab SchedSt) → (Tab SchedSt)) : (s.modScheds f).rstc = s.rstc := rfl
@[simp] theorem State.modScheds_brup (s : State) (f : (Tab SchedSt) → (Tab SchedSt)) : (s.modScheds f).brup = s.brup := rfl
@[simp] theorem State.modScheds_pwr (s : State) (f : (Tab SchedSt) → (Tab SchedSt)) : (s.modScheds f).pwr = s.pwr := rfl
@[simp] theorem State.modScheds_gov (s : State) (f : (Tab SchedSt) → (Tab SchedSt)) : (s.modScheds f).gov = s.gov := rfl
@[simp] theorem State.modScheds_clk (s : State) (f : (Tab SchedSt) → (Tab SchedSt)) : (s.modScheds f).clk = s.clk := rfl
@[simp] theorem State.modScheds_fret (s : State) (f : (Tab SchedSt) → (Tab SchedSt)) : (s.modScheds f).fret = s.fret := rfl
@[simp] theorem State.modScheds_ids (s : State) (f : (Tab SchedSt) → (Tab SchedSt)) : (s.modScheds f).ids = s.ids := rfl
@[simp] theorem State.modScheds_sec (s : State) (f : (Tab SchedSt) → (Tab SchedSt)) : (s.modScheds f).sec = s.sec := rfl
@[simp] theorem State.modScheds_bist (s : State) (f : (Tab SchedSt) → (Tab SchedSt)) : (s.modScheds f).bist = s.bist := rfl
@[simp] theorem State.modScheds_heal (s : State) (f : (Tab SchedSt) → (Tab SchedSt)) : (s.modScheds f).heal = s.heal := rfl
@[simp] theorem State.modScheds_healx (s : State) (f : (Tab SchedSt) → (Tab SchedSt)) : (s.modScheds f).healx = s.healx := rfl
@[simp] theorem State.modScheds_rel (s : State) (f : (Tab SchedSt) → (Tab SchedSt)) : (s.modScheds f).rel = s.rel := rfl
@[simp] theorem State.modScheds_relx (s : State) (f : (Tab SchedSt) → (Tab SchedSt)) : (s.modScheds f).relx = s.relx := rfl
@[simp] theorem State.modScheds_chest (s : State) (f : (Tab SchedSt) → (Tab SchedSt)) : (s.modScheds f).chest = s.chest := rfl
@[simp] theorem State.modScheds_tel (s : State) (f : (Tab SchedSt) → (Tab SchedSt)) : (s.modScheds f).tel = s.tel := rfl
@[simp] theorem State.modScheds_mch (s : State) (f : (Tab SchedSt) → (Tab SchedSt)) : (s.modScheds f).mch = s.mch := rfl
@[simp] theorem State.modScheds_pcie (s : State) (f : (Tab SchedSt) → (Tab SchedSt)) : (s.modScheds f).pcie = s.pcie := rfl
@[simp] theorem State.modScheds_mgt (s : State) (f : (Tab SchedSt) → (Tab SchedSt)) : (s.modScheds f).mgt = s.mgt := rfl
@[simp] theorem State.modScheds_spn (s : State) (f : (Tab SchedSt) → (Tab SchedSt)) : (s.modScheds f).spn = s.spn := rfl
@[simp] theorem State.modScheds_sess (s : State) (f : (Tab SchedSt) → (Tab SchedSt)) : (s.modScheds f).sess = s.sess := rfl
@[simp] theorem State.modScheds_hbm (s : State) (f : (Tab SchedSt) → (Tab SchedSt)) : (s.modScheds f).hbm = s.hbm := rfl
@[simp] theorem State.modScheds_tap (s : State) (f : (Tab SchedSt) → (Tab SchedSt)) : (s.modScheds f).tap = s.tap := rfl
@[simp] theorem State.modScheds_fabs (s : State) (f : (Tab SchedSt) → (Tab SchedSt)) : (s.modScheds f).fabs = s.fabs := rfl
@[simp] theorem State.modScheds_parts (s : State) (f : (Tab SchedSt) → (Tab SchedSt)) : (s.modScheds f).parts = s.parts := rfl
@[simp] theorem State.modScheds_cluss (s : State) (f : (Tab SchedSt) → (Tab SchedSt)) : (s.modScheds f).cluss = s.cluss := rfl
@[simp] theorem State.modScheds_tiles (s : State) (f : (Tab SchedSt) → (Tab SchedSt)) : (s.modScheds f).tiles = s.tiles := rfl
@[simp] theorem State.modScheds_ctxs (s : State) (f : (Tab SchedSt) → (Tab SchedSt)) : (s.modScheds f).ctxs = s.ctxs := rfl
@[simp] theorem State.modScheds_tasks (s : State) (f : (Tab SchedSt) → (Tab SchedSt)) : (s.modScheds f).tasks = s.tasks := rfl
@[simp] theorem State.modScheds_scheds (s : State) (f : (Tab SchedSt) → (Tab SchedSt)) : (s.modScheds f).scheds = f s.scheds := rfl
@[simp] theorem State.modScheds_held (s : State) (f : (Tab SchedSt) → (Tab SchedSt)) : (s.modScheds f).held = s.held := rfl
@[simp] theorem State.modScheds_latches (s : State) (f : (Tab SchedSt) → (Tab SchedSt)) : (s.modScheds f).latches = s.latches := rfl
@[simp] theorem State.modScheds_out (s : State) (f : (Tab SchedSt) → (Tab SchedSt)) : (s.modScheds f).out = s.out := rfl
@[simp] theorem State.modScheds_ticks (s : State) (f : (Tab SchedSt) → (Tab SchedSt)) : (s.modScheds f).ticks = s.ticks := rfl
@[simp] theorem State.modScheds_free (s : State) (f : (Tab SchedSt) → (Tab SchedSt)) : (s.modScheds f).free = s.free := rfl
@[simp] theorem State.modScheds_pending (s : State) (f : (Tab SchedSt) → (Tab SchedSt)) : (s.modScheds f).pending = s.pending := rfl

@[simp] theorem State.modHeld_fuse (s : State) (f : (Tab (List Held)) → (Tab (List Held))) : (s.modHeld f).fuse = s.fuse := rfl
@[simp] theorem State.modHeld_flash (s : State) (f : (Tab (List Held)) → (Tab (List Held))) : (s.modHeld f).flash = s.flash := rfl
@[simp] theorem State.modHeld_top (s : State) (f : (Tab (List Held)) → (Tab (List Held))) : (s.modHeld f).top = s.top := rfl
@[simp] theorem State.modHeld_rstc (s : State) (f : (Tab (List Held)) → (Tab (List Held))) : (s.modHeld f).rstc = s.rstc := rfl
@[simp] theorem State.modHeld_brup (s : State) (f : (Tab (List Held)) → (Tab (List Held))) : (s.modHeld f).brup = s.brup := rfl
@[simp] theorem State.modHeld_pwr (s : State) (f : (Tab (List Held)) → (Tab (List Held))) : (s.modHeld f).pwr = s.pwr := rfl
@[simp] theorem State.modHeld_gov (s : State) (f : (Tab (List Held)) → (Tab (List Held))) : (s.modHeld f).gov = s.gov := rfl
@[simp] theorem State.modHeld_clk (s : State) (f : (Tab (List Held)) → (Tab (List Held))) : (s.modHeld f).clk = s.clk := rfl
@[simp] theorem State.modHeld_fret (s : State) (f : (Tab (List Held)) → (Tab (List Held))) : (s.modHeld f).fret = s.fret := rfl
@[simp] theorem State.modHeld_ids (s : State) (f : (Tab (List Held)) → (Tab (List Held))) : (s.modHeld f).ids = s.ids := rfl
@[simp] theorem State.modHeld_sec (s : State) (f : (Tab (List Held)) → (Tab (List Held))) : (s.modHeld f).sec = s.sec := rfl
@[simp] theorem State.modHeld_bist (s : State) (f : (Tab (List Held)) → (Tab (List Held))) : (s.modHeld f).bist = s.bist := rfl
@[simp] theorem State.modHeld_heal (s : State) (f : (Tab (List Held)) → (Tab (List Held))) : (s.modHeld f).heal = s.heal := rfl
@[simp] theorem State.modHeld_healx (s : State) (f : (Tab (List Held)) → (Tab (List Held))) : (s.modHeld f).healx = s.healx := rfl
@[simp] theorem State.modHeld_rel (s : State) (f : (Tab (List Held)) → (Tab (List Held))) : (s.modHeld f).rel = s.rel := rfl
@[simp] theorem State.modHeld_relx (s : State) (f : (Tab (List Held)) → (Tab (List Held))) : (s.modHeld f).relx = s.relx := rfl
@[simp] theorem State.modHeld_chest (s : State) (f : (Tab (List Held)) → (Tab (List Held))) : (s.modHeld f).chest = s.chest := rfl
@[simp] theorem State.modHeld_tel (s : State) (f : (Tab (List Held)) → (Tab (List Held))) : (s.modHeld f).tel = s.tel := rfl
@[simp] theorem State.modHeld_mch (s : State) (f : (Tab (List Held)) → (Tab (List Held))) : (s.modHeld f).mch = s.mch := rfl
@[simp] theorem State.modHeld_pcie (s : State) (f : (Tab (List Held)) → (Tab (List Held))) : (s.modHeld f).pcie = s.pcie := rfl
@[simp] theorem State.modHeld_mgt (s : State) (f : (Tab (List Held)) → (Tab (List Held))) : (s.modHeld f).mgt = s.mgt := rfl
@[simp] theorem State.modHeld_spn (s : State) (f : (Tab (List Held)) → (Tab (List Held))) : (s.modHeld f).spn = s.spn := rfl
@[simp] theorem State.modHeld_sess (s : State) (f : (Tab (List Held)) → (Tab (List Held))) : (s.modHeld f).sess = s.sess := rfl
@[simp] theorem State.modHeld_hbm (s : State) (f : (Tab (List Held)) → (Tab (List Held))) : (s.modHeld f).hbm = s.hbm := rfl
@[simp] theorem State.modHeld_tap (s : State) (f : (Tab (List Held)) → (Tab (List Held))) : (s.modHeld f).tap = s.tap := rfl
@[simp] theorem State.modHeld_fabs (s : State) (f : (Tab (List Held)) → (Tab (List Held))) : (s.modHeld f).fabs = s.fabs := rfl
@[simp] theorem State.modHeld_parts (s : State) (f : (Tab (List Held)) → (Tab (List Held))) : (s.modHeld f).parts = s.parts := rfl
@[simp] theorem State.modHeld_cluss (s : State) (f : (Tab (List Held)) → (Tab (List Held))) : (s.modHeld f).cluss = s.cluss := rfl
@[simp] theorem State.modHeld_tiles (s : State) (f : (Tab (List Held)) → (Tab (List Held))) : (s.modHeld f).tiles = s.tiles := rfl
@[simp] theorem State.modHeld_ctxs (s : State) (f : (Tab (List Held)) → (Tab (List Held))) : (s.modHeld f).ctxs = s.ctxs := rfl
@[simp] theorem State.modHeld_tasks (s : State) (f : (Tab (List Held)) → (Tab (List Held))) : (s.modHeld f).tasks = s.tasks := rfl
@[simp] theorem State.modHeld_scheds (s : State) (f : (Tab (List Held)) → (Tab (List Held))) : (s.modHeld f).scheds = s.scheds := rfl
@[simp] theorem State.modHeld_held (s : State) (f : (Tab (List Held)) → (Tab (List Held))) : (s.modHeld f).held = f s.held := rfl
@[simp] theorem State.modHeld_latches (s : State) (f : (Tab (List Held)) → (Tab (List Held))) : (s.modHeld f).latches = s.latches := rfl
@[simp] theorem State.modHeld_out (s : State) (f : (Tab (List Held)) → (Tab (List Held))) : (s.modHeld f).out = s.out := rfl
@[simp] theorem State.modHeld_ticks (s : State) (f : (Tab (List Held)) → (Tab (List Held))) : (s.modHeld f).ticks = s.ticks := rfl
@[simp] theorem State.modHeld_free (s : State) (f : (Tab (List Held)) → (Tab (List Held))) : (s.modHeld f).free = s.free := rfl
@[simp] theorem State.modHeld_pending (s : State) (f : (Tab (List Held)) → (Tab (List Held))) : (s.modHeld f).pending = s.pending := rfl

@[simp] theorem State.modLatches_fuse (s : State) (f : (Tab Word) → (Tab Word)) : (s.modLatches f).fuse = s.fuse := rfl
@[simp] theorem State.modLatches_flash (s : State) (f : (Tab Word) → (Tab Word)) : (s.modLatches f).flash = s.flash := rfl
@[simp] theorem State.modLatches_top (s : State) (f : (Tab Word) → (Tab Word)) : (s.modLatches f).top = s.top := rfl
@[simp] theorem State.modLatches_rstc (s : State) (f : (Tab Word) → (Tab Word)) : (s.modLatches f).rstc = s.rstc := rfl
@[simp] theorem State.modLatches_brup (s : State) (f : (Tab Word) → (Tab Word)) : (s.modLatches f).brup = s.brup := rfl
@[simp] theorem State.modLatches_pwr (s : State) (f : (Tab Word) → (Tab Word)) : (s.modLatches f).pwr = s.pwr := rfl
@[simp] theorem State.modLatches_gov (s : State) (f : (Tab Word) → (Tab Word)) : (s.modLatches f).gov = s.gov := rfl
@[simp] theorem State.modLatches_clk (s : State) (f : (Tab Word) → (Tab Word)) : (s.modLatches f).clk = s.clk := rfl
@[simp] theorem State.modLatches_fret (s : State) (f : (Tab Word) → (Tab Word)) : (s.modLatches f).fret = s.fret := rfl
@[simp] theorem State.modLatches_ids (s : State) (f : (Tab Word) → (Tab Word)) : (s.modLatches f).ids = s.ids := rfl
@[simp] theorem State.modLatches_sec (s : State) (f : (Tab Word) → (Tab Word)) : (s.modLatches f).sec = s.sec := rfl
@[simp] theorem State.modLatches_bist (s : State) (f : (Tab Word) → (Tab Word)) : (s.modLatches f).bist = s.bist := rfl
@[simp] theorem State.modLatches_heal (s : State) (f : (Tab Word) → (Tab Word)) : (s.modLatches f).heal = s.heal := rfl
@[simp] theorem State.modLatches_healx (s : State) (f : (Tab Word) → (Tab Word)) : (s.modLatches f).healx = s.healx := rfl
@[simp] theorem State.modLatches_rel (s : State) (f : (Tab Word) → (Tab Word)) : (s.modLatches f).rel = s.rel := rfl
@[simp] theorem State.modLatches_relx (s : State) (f : (Tab Word) → (Tab Word)) : (s.modLatches f).relx = s.relx := rfl
@[simp] theorem State.modLatches_chest (s : State) (f : (Tab Word) → (Tab Word)) : (s.modLatches f).chest = s.chest := rfl
@[simp] theorem State.modLatches_tel (s : State) (f : (Tab Word) → (Tab Word)) : (s.modLatches f).tel = s.tel := rfl
@[simp] theorem State.modLatches_mch (s : State) (f : (Tab Word) → (Tab Word)) : (s.modLatches f).mch = s.mch := rfl
@[simp] theorem State.modLatches_pcie (s : State) (f : (Tab Word) → (Tab Word)) : (s.modLatches f).pcie = s.pcie := rfl
@[simp] theorem State.modLatches_mgt (s : State) (f : (Tab Word) → (Tab Word)) : (s.modLatches f).mgt = s.mgt := rfl
@[simp] theorem State.modLatches_spn (s : State) (f : (Tab Word) → (Tab Word)) : (s.modLatches f).spn = s.spn := rfl
@[simp] theorem State.modLatches_sess (s : State) (f : (Tab Word) → (Tab Word)) : (s.modLatches f).sess = s.sess := rfl
@[simp] theorem State.modLatches_hbm (s : State) (f : (Tab Word) → (Tab Word)) : (s.modLatches f).hbm = s.hbm := rfl
@[simp] theorem State.modLatches_tap (s : State) (f : (Tab Word) → (Tab Word)) : (s.modLatches f).tap = s.tap := rfl
@[simp] theorem State.modLatches_fabs (s : State) (f : (Tab Word) → (Tab Word)) : (s.modLatches f).fabs = s.fabs := rfl
@[simp] theorem State.modLatches_parts (s : State) (f : (Tab Word) → (Tab Word)) : (s.modLatches f).parts = s.parts := rfl
@[simp] theorem State.modLatches_cluss (s : State) (f : (Tab Word) → (Tab Word)) : (s.modLatches f).cluss = s.cluss := rfl
@[simp] theorem State.modLatches_tiles (s : State) (f : (Tab Word) → (Tab Word)) : (s.modLatches f).tiles = s.tiles := rfl
@[simp] theorem State.modLatches_ctxs (s : State) (f : (Tab Word) → (Tab Word)) : (s.modLatches f).ctxs = s.ctxs := rfl
@[simp] theorem State.modLatches_tasks (s : State) (f : (Tab Word) → (Tab Word)) : (s.modLatches f).tasks = s.tasks := rfl
@[simp] theorem State.modLatches_scheds (s : State) (f : (Tab Word) → (Tab Word)) : (s.modLatches f).scheds = s.scheds := rfl
@[simp] theorem State.modLatches_held (s : State) (f : (Tab Word) → (Tab Word)) : (s.modLatches f).held = s.held := rfl
@[simp] theorem State.modLatches_latches (s : State) (f : (Tab Word) → (Tab Word)) : (s.modLatches f).latches = f s.latches := rfl
@[simp] theorem State.modLatches_out (s : State) (f : (Tab Word) → (Tab Word)) : (s.modLatches f).out = s.out := rfl
@[simp] theorem State.modLatches_ticks (s : State) (f : (Tab Word) → (Tab Word)) : (s.modLatches f).ticks = s.ticks := rfl
@[simp] theorem State.modLatches_free (s : State) (f : (Tab Word) → (Tab Word)) : (s.modLatches f).free = s.free := rfl
@[simp] theorem State.modLatches_pending (s : State) (f : (Tab Word) → (Tab Word)) : (s.modLatches f).pending = s.pending := rfl

@[simp] theorem State.modOut_fuse (s : State) (f : (List Out) → (List Out)) : (s.modOut f).fuse = s.fuse := rfl
@[simp] theorem State.modOut_flash (s : State) (f : (List Out) → (List Out)) : (s.modOut f).flash = s.flash := rfl
@[simp] theorem State.modOut_top (s : State) (f : (List Out) → (List Out)) : (s.modOut f).top = s.top := rfl
@[simp] theorem State.modOut_rstc (s : State) (f : (List Out) → (List Out)) : (s.modOut f).rstc = s.rstc := rfl
@[simp] theorem State.modOut_brup (s : State) (f : (List Out) → (List Out)) : (s.modOut f).brup = s.brup := rfl
@[simp] theorem State.modOut_pwr (s : State) (f : (List Out) → (List Out)) : (s.modOut f).pwr = s.pwr := rfl
@[simp] theorem State.modOut_gov (s : State) (f : (List Out) → (List Out)) : (s.modOut f).gov = s.gov := rfl
@[simp] theorem State.modOut_clk (s : State) (f : (List Out) → (List Out)) : (s.modOut f).clk = s.clk := rfl
@[simp] theorem State.modOut_fret (s : State) (f : (List Out) → (List Out)) : (s.modOut f).fret = s.fret := rfl
@[simp] theorem State.modOut_ids (s : State) (f : (List Out) → (List Out)) : (s.modOut f).ids = s.ids := rfl
@[simp] theorem State.modOut_sec (s : State) (f : (List Out) → (List Out)) : (s.modOut f).sec = s.sec := rfl
@[simp] theorem State.modOut_bist (s : State) (f : (List Out) → (List Out)) : (s.modOut f).bist = s.bist := rfl
@[simp] theorem State.modOut_heal (s : State) (f : (List Out) → (List Out)) : (s.modOut f).heal = s.heal := rfl
@[simp] theorem State.modOut_healx (s : State) (f : (List Out) → (List Out)) : (s.modOut f).healx = s.healx := rfl
@[simp] theorem State.modOut_rel (s : State) (f : (List Out) → (List Out)) : (s.modOut f).rel = s.rel := rfl
@[simp] theorem State.modOut_relx (s : State) (f : (List Out) → (List Out)) : (s.modOut f).relx = s.relx := rfl
@[simp] theorem State.modOut_chest (s : State) (f : (List Out) → (List Out)) : (s.modOut f).chest = s.chest := rfl
@[simp] theorem State.modOut_tel (s : State) (f : (List Out) → (List Out)) : (s.modOut f).tel = s.tel := rfl
@[simp] theorem State.modOut_mch (s : State) (f : (List Out) → (List Out)) : (s.modOut f).mch = s.mch := rfl
@[simp] theorem State.modOut_pcie (s : State) (f : (List Out) → (List Out)) : (s.modOut f).pcie = s.pcie := rfl
@[simp] theorem State.modOut_mgt (s : State) (f : (List Out) → (List Out)) : (s.modOut f).mgt = s.mgt := rfl
@[simp] theorem State.modOut_spn (s : State) (f : (List Out) → (List Out)) : (s.modOut f).spn = s.spn := rfl
@[simp] theorem State.modOut_sess (s : State) (f : (List Out) → (List Out)) : (s.modOut f).sess = s.sess := rfl
@[simp] theorem State.modOut_hbm (s : State) (f : (List Out) → (List Out)) : (s.modOut f).hbm = s.hbm := rfl
@[simp] theorem State.modOut_tap (s : State) (f : (List Out) → (List Out)) : (s.modOut f).tap = s.tap := rfl
@[simp] theorem State.modOut_fabs (s : State) (f : (List Out) → (List Out)) : (s.modOut f).fabs = s.fabs := rfl
@[simp] theorem State.modOut_parts (s : State) (f : (List Out) → (List Out)) : (s.modOut f).parts = s.parts := rfl
@[simp] theorem State.modOut_cluss (s : State) (f : (List Out) → (List Out)) : (s.modOut f).cluss = s.cluss := rfl
@[simp] theorem State.modOut_tiles (s : State) (f : (List Out) → (List Out)) : (s.modOut f).tiles = s.tiles := rfl
@[simp] theorem State.modOut_ctxs (s : State) (f : (List Out) → (List Out)) : (s.modOut f).ctxs = s.ctxs := rfl
@[simp] theorem State.modOut_tasks (s : State) (f : (List Out) → (List Out)) : (s.modOut f).tasks = s.tasks := rfl
@[simp] theorem State.modOut_scheds (s : State) (f : (List Out) → (List Out)) : (s.modOut f).scheds = s.scheds := rfl
@[simp] theorem State.modOut_held (s : State) (f : (List Out) → (List Out)) : (s.modOut f).held = s.held := rfl
@[simp] theorem State.modOut_latches (s : State) (f : (List Out) → (List Out)) : (s.modOut f).latches = s.latches := rfl
@[simp] theorem State.modOut_out (s : State) (f : (List Out) → (List Out)) : (s.modOut f).out = f s.out := rfl
@[simp] theorem State.modOut_ticks (s : State) (f : (List Out) → (List Out)) : (s.modOut f).ticks = s.ticks := rfl
@[simp] theorem State.modOut_free (s : State) (f : (List Out) → (List Out)) : (s.modOut f).free = s.free := rfl
@[simp] theorem State.modOut_pending (s : State) (f : (List Out) → (List Out)) : (s.modOut f).pending = s.pending := rfl

@[simp] theorem State.modTicks_fuse (s : State) (f : Nat → Nat) : (s.modTicks f).fuse = s.fuse := rfl
@[simp] theorem State.modTicks_flash (s : State) (f : Nat → Nat) : (s.modTicks f).flash = s.flash := rfl
@[simp] theorem State.modTicks_top (s : State) (f : Nat → Nat) : (s.modTicks f).top = s.top := rfl
@[simp] theorem State.modTicks_rstc (s : State) (f : Nat → Nat) : (s.modTicks f).rstc = s.rstc := rfl
@[simp] theorem State.modTicks_brup (s : State) (f : Nat → Nat) : (s.modTicks f).brup = s.brup := rfl
@[simp] theorem State.modTicks_pwr (s : State) (f : Nat → Nat) : (s.modTicks f).pwr = s.pwr := rfl
@[simp] theorem State.modTicks_gov (s : State) (f : Nat → Nat) : (s.modTicks f).gov = s.gov := rfl
@[simp] theorem State.modTicks_clk (s : State) (f : Nat → Nat) : (s.modTicks f).clk = s.clk := rfl
@[simp] theorem State.modTicks_fret (s : State) (f : Nat → Nat) : (s.modTicks f).fret = s.fret := rfl
@[simp] theorem State.modTicks_ids (s : State) (f : Nat → Nat) : (s.modTicks f).ids = s.ids := rfl
@[simp] theorem State.modTicks_sec (s : State) (f : Nat → Nat) : (s.modTicks f).sec = s.sec := rfl
@[simp] theorem State.modTicks_bist (s : State) (f : Nat → Nat) : (s.modTicks f).bist = s.bist := rfl
@[simp] theorem State.modTicks_heal (s : State) (f : Nat → Nat) : (s.modTicks f).heal = s.heal := rfl
@[simp] theorem State.modTicks_healx (s : State) (f : Nat → Nat) : (s.modTicks f).healx = s.healx := rfl
@[simp] theorem State.modTicks_rel (s : State) (f : Nat → Nat) : (s.modTicks f).rel = s.rel := rfl
@[simp] theorem State.modTicks_relx (s : State) (f : Nat → Nat) : (s.modTicks f).relx = s.relx := rfl
@[simp] theorem State.modTicks_chest (s : State) (f : Nat → Nat) : (s.modTicks f).chest = s.chest := rfl
@[simp] theorem State.modTicks_tel (s : State) (f : Nat → Nat) : (s.modTicks f).tel = s.tel := rfl
@[simp] theorem State.modTicks_mch (s : State) (f : Nat → Nat) : (s.modTicks f).mch = s.mch := rfl
@[simp] theorem State.modTicks_pcie (s : State) (f : Nat → Nat) : (s.modTicks f).pcie = s.pcie := rfl
@[simp] theorem State.modTicks_mgt (s : State) (f : Nat → Nat) : (s.modTicks f).mgt = s.mgt := rfl
@[simp] theorem State.modTicks_spn (s : State) (f : Nat → Nat) : (s.modTicks f).spn = s.spn := rfl
@[simp] theorem State.modTicks_sess (s : State) (f : Nat → Nat) : (s.modTicks f).sess = s.sess := rfl
@[simp] theorem State.modTicks_hbm (s : State) (f : Nat → Nat) : (s.modTicks f).hbm = s.hbm := rfl
@[simp] theorem State.modTicks_tap (s : State) (f : Nat → Nat) : (s.modTicks f).tap = s.tap := rfl
@[simp] theorem State.modTicks_fabs (s : State) (f : Nat → Nat) : (s.modTicks f).fabs = s.fabs := rfl
@[simp] theorem State.modTicks_parts (s : State) (f : Nat → Nat) : (s.modTicks f).parts = s.parts := rfl
@[simp] theorem State.modTicks_cluss (s : State) (f : Nat → Nat) : (s.modTicks f).cluss = s.cluss := rfl
@[simp] theorem State.modTicks_tiles (s : State) (f : Nat → Nat) : (s.modTicks f).tiles = s.tiles := rfl
@[simp] theorem State.modTicks_ctxs (s : State) (f : Nat → Nat) : (s.modTicks f).ctxs = s.ctxs := rfl
@[simp] theorem State.modTicks_tasks (s : State) (f : Nat → Nat) : (s.modTicks f).tasks = s.tasks := rfl
@[simp] theorem State.modTicks_scheds (s : State) (f : Nat → Nat) : (s.modTicks f).scheds = s.scheds := rfl
@[simp] theorem State.modTicks_held (s : State) (f : Nat → Nat) : (s.modTicks f).held = s.held := rfl
@[simp] theorem State.modTicks_latches (s : State) (f : Nat → Nat) : (s.modTicks f).latches = s.latches := rfl
@[simp] theorem State.modTicks_out (s : State) (f : Nat → Nat) : (s.modTicks f).out = s.out := rfl
@[simp] theorem State.modTicks_ticks (s : State) (f : Nat → Nat) : (s.modTicks f).ticks = f s.ticks := rfl
@[simp] theorem State.modTicks_free (s : State) (f : Nat → Nat) : (s.modTicks f).free = s.free := rfl
@[simp] theorem State.modTicks_pending (s : State) (f : Nat → Nat) : (s.modTicks f).pending = s.pending := rfl

@[simp] theorem State.modFree_fuse (s : State) (f : Nat → Nat) : (s.modFree f).fuse = s.fuse := rfl
@[simp] theorem State.modFree_flash (s : State) (f : Nat → Nat) : (s.modFree f).flash = s.flash := rfl
@[simp] theorem State.modFree_top (s : State) (f : Nat → Nat) : (s.modFree f).top = s.top := rfl
@[simp] theorem State.modFree_rstc (s : State) (f : Nat → Nat) : (s.modFree f).rstc = s.rstc := rfl
@[simp] theorem State.modFree_brup (s : State) (f : Nat → Nat) : (s.modFree f).brup = s.brup := rfl
@[simp] theorem State.modFree_pwr (s : State) (f : Nat → Nat) : (s.modFree f).pwr = s.pwr := rfl
@[simp] theorem State.modFree_gov (s : State) (f : Nat → Nat) : (s.modFree f).gov = s.gov := rfl
@[simp] theorem State.modFree_clk (s : State) (f : Nat → Nat) : (s.modFree f).clk = s.clk := rfl
@[simp] theorem State.modFree_fret (s : State) (f : Nat → Nat) : (s.modFree f).fret = s.fret := rfl
@[simp] theorem State.modFree_ids (s : State) (f : Nat → Nat) : (s.modFree f).ids = s.ids := rfl
@[simp] theorem State.modFree_sec (s : State) (f : Nat → Nat) : (s.modFree f).sec = s.sec := rfl
@[simp] theorem State.modFree_bist (s : State) (f : Nat → Nat) : (s.modFree f).bist = s.bist := rfl
@[simp] theorem State.modFree_heal (s : State) (f : Nat → Nat) : (s.modFree f).heal = s.heal := rfl
@[simp] theorem State.modFree_healx (s : State) (f : Nat → Nat) : (s.modFree f).healx = s.healx := rfl
@[simp] theorem State.modFree_rel (s : State) (f : Nat → Nat) : (s.modFree f).rel = s.rel := rfl
@[simp] theorem State.modFree_relx (s : State) (f : Nat → Nat) : (s.modFree f).relx = s.relx := rfl
@[simp] theorem State.modFree_chest (s : State) (f : Nat → Nat) : (s.modFree f).chest = s.chest := rfl
@[simp] theorem State.modFree_tel (s : State) (f : Nat → Nat) : (s.modFree f).tel = s.tel := rfl
@[simp] theorem State.modFree_mch (s : State) (f : Nat → Nat) : (s.modFree f).mch = s.mch := rfl
@[simp] theorem State.modFree_pcie (s : State) (f : Nat → Nat) : (s.modFree f).pcie = s.pcie := rfl
@[simp] theorem State.modFree_mgt (s : State) (f : Nat → Nat) : (s.modFree f).mgt = s.mgt := rfl
@[simp] theorem State.modFree_spn (s : State) (f : Nat → Nat) : (s.modFree f).spn = s.spn := rfl
@[simp] theorem State.modFree_sess (s : State) (f : Nat → Nat) : (s.modFree f).sess = s.sess := rfl
@[simp] theorem State.modFree_hbm (s : State) (f : Nat → Nat) : (s.modFree f).hbm = s.hbm := rfl
@[simp] theorem State.modFree_tap (s : State) (f : Nat → Nat) : (s.modFree f).tap = s.tap := rfl
@[simp] theorem State.modFree_fabs (s : State) (f : Nat → Nat) : (s.modFree f).fabs = s.fabs := rfl
@[simp] theorem State.modFree_parts (s : State) (f : Nat → Nat) : (s.modFree f).parts = s.parts := rfl
@[simp] theorem State.modFree_cluss (s : State) (f : Nat → Nat) : (s.modFree f).cluss = s.cluss := rfl
@[simp] theorem State.modFree_tiles (s : State) (f : Nat → Nat) : (s.modFree f).tiles = s.tiles := rfl
@[simp] theorem State.modFree_ctxs (s : State) (f : Nat → Nat) : (s.modFree f).ctxs = s.ctxs := rfl
@[simp] theorem State.modFree_tasks (s : State) (f : Nat → Nat) : (s.modFree f).tasks = s.tasks := rfl
@[simp] theorem State.modFree_scheds (s : State) (f : Nat → Nat) : (s.modFree f).scheds = s.scheds := rfl
@[simp] theorem State.modFree_held (s : State) (f : Nat → Nat) : (s.modFree f).held = s.held := rfl
@[simp] theorem State.modFree_latches (s : State) (f : Nat → Nat) : (s.modFree f).latches = s.latches := rfl
@[simp] theorem State.modFree_out (s : State) (f : Nat → Nat) : (s.modFree f).out = s.out := rfl
@[simp] theorem State.modFree_ticks (s : State) (f : Nat → Nat) : (s.modFree f).ticks = s.ticks := rfl
@[simp] theorem State.modFree_free (s : State) (f : Nat → Nat) : (s.modFree f).free = f s.free := rfl
@[simp] theorem State.modFree_pending (s : State) (f : Nat → Nat) : (s.modFree f).pending = s.pending := rfl

@[simp] theorem State.modPending_fuse (s : State) (f : (List Instr) → (List Instr)) : (s.modPending f).fuse = s.fuse := rfl
@[simp] theorem State.modPending_flash (s : State) (f : (List Instr) → (List Instr)) : (s.modPending f).flash = s.flash := rfl
@[simp] theorem State.modPending_top (s : State) (f : (List Instr) → (List Instr)) : (s.modPending f).top = s.top := rfl
@[simp] theorem State.modPending_rstc (s : State) (f : (List Instr) → (List Instr)) : (s.modPending f).rstc = s.rstc := rfl
@[simp] theorem State.modPending_brup (s : State) (f : (List Instr) → (List Instr)) : (s.modPending f).brup = s.brup := rfl
@[simp] theorem State.modPending_pwr (s : State) (f : (List Instr) → (List Instr)) : (s.modPending f).pwr = s.pwr := rfl
@[simp] theorem State.modPending_gov (s : State) (f : (List Instr) → (List Instr)) : (s.modPending f).gov = s.gov := rfl
@[simp] theorem State.modPending_clk (s : State) (f : (List Instr) → (List Instr)) : (s.modPending f).clk = s.clk := rfl
@[simp] theorem State.modPending_fret (s : State) (f : (List Instr) → (List Instr)) : (s.modPending f).fret = s.fret := rfl
@[simp] theorem State.modPending_ids (s : State) (f : (List Instr) → (List Instr)) : (s.modPending f).ids = s.ids := rfl
@[simp] theorem State.modPending_sec (s : State) (f : (List Instr) → (List Instr)) : (s.modPending f).sec = s.sec := rfl
@[simp] theorem State.modPending_bist (s : State) (f : (List Instr) → (List Instr)) : (s.modPending f).bist = s.bist := rfl
@[simp] theorem State.modPending_heal (s : State) (f : (List Instr) → (List Instr)) : (s.modPending f).heal = s.heal := rfl
@[simp] theorem State.modPending_healx (s : State) (f : (List Instr) → (List Instr)) : (s.modPending f).healx = s.healx := rfl
@[simp] theorem State.modPending_rel (s : State) (f : (List Instr) → (List Instr)) : (s.modPending f).rel = s.rel := rfl
@[simp] theorem State.modPending_relx (s : State) (f : (List Instr) → (List Instr)) : (s.modPending f).relx = s.relx := rfl
@[simp] theorem State.modPending_chest (s : State) (f : (List Instr) → (List Instr)) : (s.modPending f).chest = s.chest := rfl
@[simp] theorem State.modPending_tel (s : State) (f : (List Instr) → (List Instr)) : (s.modPending f).tel = s.tel := rfl
@[simp] theorem State.modPending_mch (s : State) (f : (List Instr) → (List Instr)) : (s.modPending f).mch = s.mch := rfl
@[simp] theorem State.modPending_pcie (s : State) (f : (List Instr) → (List Instr)) : (s.modPending f).pcie = s.pcie := rfl
@[simp] theorem State.modPending_mgt (s : State) (f : (List Instr) → (List Instr)) : (s.modPending f).mgt = s.mgt := rfl
@[simp] theorem State.modPending_spn (s : State) (f : (List Instr) → (List Instr)) : (s.modPending f).spn = s.spn := rfl
@[simp] theorem State.modPending_sess (s : State) (f : (List Instr) → (List Instr)) : (s.modPending f).sess = s.sess := rfl
@[simp] theorem State.modPending_hbm (s : State) (f : (List Instr) → (List Instr)) : (s.modPending f).hbm = s.hbm := rfl
@[simp] theorem State.modPending_tap (s : State) (f : (List Instr) → (List Instr)) : (s.modPending f).tap = s.tap := rfl
@[simp] theorem State.modPending_fabs (s : State) (f : (List Instr) → (List Instr)) : (s.modPending f).fabs = s.fabs := rfl
@[simp] theorem State.modPending_parts (s : State) (f : (List Instr) → (List Instr)) : (s.modPending f).parts = s.parts := rfl
@[simp] theorem State.modPending_cluss (s : State) (f : (List Instr) → (List Instr)) : (s.modPending f).cluss = s.cluss := rfl
@[simp] theorem State.modPending_tiles (s : State) (f : (List Instr) → (List Instr)) : (s.modPending f).tiles = s.tiles := rfl
@[simp] theorem State.modPending_ctxs (s : State) (f : (List Instr) → (List Instr)) : (s.modPending f).ctxs = s.ctxs := rfl
@[simp] theorem State.modPending_tasks (s : State) (f : (List Instr) → (List Instr)) : (s.modPending f).tasks = s.tasks := rfl
@[simp] theorem State.modPending_scheds (s : State) (f : (List Instr) → (List Instr)) : (s.modPending f).scheds = s.scheds := rfl
@[simp] theorem State.modPending_held (s : State) (f : (List Instr) → (List Instr)) : (s.modPending f).held = s.held := rfl
@[simp] theorem State.modPending_latches (s : State) (f : (List Instr) → (List Instr)) : (s.modPending f).latches = s.latches := rfl
@[simp] theorem State.modPending_out (s : State) (f : (List Instr) → (List Instr)) : (s.modPending f).out = s.out := rfl
@[simp] theorem State.modPending_ticks (s : State) (f : (List Instr) → (List Instr)) : (s.modPending f).ticks = s.ticks := rfl
@[simp] theorem State.modPending_free (s : State) (f : (List Instr) → (List Instr)) : (s.modPending f).free = s.free := rfl
@[simp] theorem State.modPending_pending (s : State) (f : (List Instr) → (List Instr)) : (s.modPending f).pending = f s.pending := rfl

end Sys2Proof.Machine
end

