-- ==== Sys2Proof/Laws/Only.lean ====
section
/-! SUPPORT. Frames: composing them, and the frame of each elementary change of a state. -/

namespace Sys2Proof.Machine

variable {s t u : State} {cs ds : List Comp}

theorem State.Only.refl (s : State) (cs : List Comp) : s.Only s cs :=
  ⟨fun c _ => by cases c <;> rfl, id⟩

theorem State.Only.trans (h : s.Only t cs) (k : t.Only u cs) : s.Only u cs := by
  refine ⟨fun c hc => ?_, fun m => k.2 (h.2 m)⟩
  have h := h.1 c hc
  have k := k.1 c hc
  cases c <;> exact Eq.trans k h

theorem State.Only.mono (h : s.Only t cs) (hc : ∀ c ∈ cs, c ∈ ds) : s.Only t ds :=
  ⟨fun c hd => h.1 c fun k => hd (hc c k), h.2⟩

/-- A frame gives what it keeps. -/
theorem State.Only.keeps (h : s.Only t cs) (hc : ∀ c ∈ ds, c ∉ cs) : s.Keeps t ds := ⟨fun c k => h.1 c (hc c k), h.2⟩

theorem only_when {r u : State} {c : Bool} {f : State → State} {cs : List Comp} (h : r.Only u cs)
    (hf : r.Only (f u) cs) : r.Only (u.when c f) cs := by
  unfold State.when; split <;> assumption

theorem only_each {r u : State} {α : Type} {f : State → α → State} {xs : List α} {cs : List Comp} (h : r.Only u cs)
    (hf : ∀ v x, r.Only v cs → r.Only (f v x) cs) : r.Only (u.each xs f) cs := by
  unfold State.each
  induction xs generalizing u with
  | nil => exact h
  | cons x xs ih => exact ih (hf u x h)

theorem only_foldl {r u : State} {α : Type} {f : State → α → State} {xs : List α} {cs : List Comp} (h : r.Only u cs)
    (hf : ∀ v x, r.Only v cs → r.Only (f v x) cs) : r.Only (xs.foldl f u) cs := only_each h hf

theorem only_foldl2 {r : State} {α β : Type} {f : β × State → α → β × State} {p : β × State} {xs : List α}
    {cs : List Comp} (h : r.Only p.2 cs) (hf : ∀ q x, r.Only q.2 cs → r.Only (f q x).2 cs) :
    r.Only (xs.foldl f p).2 cs := by
  induction xs generalizing p with
  | nil => exact h
  | cons x xs ih => exact ih (hf p x h)

theorem only_ite {r a b : State} {c : Prop} [Decidable c] {cs : List Comp} (h : r.Only a cs) (k : r.Only b cs) :
    r.Only (if c then a else b) cs := by split <;> assumption

theorem nextOnly_next {r t : State} {cs : List Comp} (h : r.Only t cs) : r.NextOnly (.next t) cs := ⟨t, rfl, h⟩

theorem nextOnly_ite {r : State} {a b : Host.Outcome State Fault Refusal} {c : Prop} [Decidable c] {cs : List Comp}
    (h : r.NextOnly a cs) (k : r.NextOnly b cs) : r.NextOnly (if c then a else b) cs := by split <;> assumption

theorem State.NextOnly.mono {r : State} {o : Host.Outcome State Fault Refusal} {cs ds : List Comp} (h : r.NextOnly o cs)
    (hc : ∀ c ∈ cs, c ∈ ds) : r.NextOnly o ds := h.elim fun t k => ⟨t, k.1, k.2.mono hc⟩

theorem nextOnly_trans {r u : State} {o : Host.Outcome State Fault Refusal} {cs ds : List Comp} (h : r.Only u cs)
    (k : u.NextOnly o ds) (hc : ∀ c ∈ ds, c ∈ cs) : r.NextOnly o cs :=
  k.elim fun t k => ⟨t, k.1, h.trans (k.2.mono hc)⟩

theorem modFuse_only (s : State) (f) : s.Only (s.modFuse f) [.fuse] :=
  ⟨fun c hc => by cases c <;> first | rfl | simp at hc, id⟩

theorem only_modFuse {r u : State} {f} {cs : List Comp} (h : r.Only u cs) (hc : .fuse ∈ cs) :
    r.Only (u.modFuse f) cs := h.trans ((modFuse_only u f).mono (by simpa using hc))

theorem modFlash_only (s : State) (f) : s.Only (s.modFlash f) [.flash] :=
  ⟨fun c hc => by cases c <;> first | rfl | simp at hc, id⟩

theorem only_modFlash {r u : State} {f} {cs : List Comp} (h : r.Only u cs) (hc : .flash ∈ cs) :
    r.Only (u.modFlash f) cs := h.trans ((modFlash_only u f).mono (by simpa using hc))

theorem modTop_only (s : State) (f) : s.Only (s.modTop f) [.top] :=
  ⟨fun c hc => by cases c <;> first | rfl | simp at hc, id⟩

theorem only_modTop {r u : State} {f} {cs : List Comp} (h : r.Only u cs) (hc : .top ∈ cs) :
    r.Only (u.modTop f) cs := h.trans ((modTop_only u f).mono (by simpa using hc))

theorem modRstc_only (s : State) (f) : s.Only (s.modRstc f) [.rstc] :=
  ⟨fun c hc => by cases c <;> first | rfl | simp at hc, id⟩

theorem only_modRstc {r u : State} {f} {cs : List Comp} (h : r.Only u cs) (hc : .rstc ∈ cs) :
    r.Only (u.modRstc f) cs := h.trans ((modRstc_only u f).mono (by simpa using hc))

theorem modBrup_only (s : State) (f) : s.Only (s.modBrup f) [.brup] :=
  ⟨fun c hc => by cases c <;> first | rfl | simp at hc, id⟩

theorem only_modBrup {r u : State} {f} {cs : List Comp} (h : r.Only u cs) (hc : .brup ∈ cs) :
    r.Only (u.modBrup f) cs := h.trans ((modBrup_only u f).mono (by simpa using hc))

theorem modPwr_only (s : State) (f) : s.Only (s.modPwr f) [.pwr] :=
  ⟨fun c hc => by cases c <;> first | rfl | simp at hc, id⟩

theorem only_modPwr {r u : State} {f} {cs : List Comp} (h : r.Only u cs) (hc : .pwr ∈ cs) :
    r.Only (u.modPwr f) cs := h.trans ((modPwr_only u f).mono (by simpa using hc))

theorem modGov_only (s : State) (f) : s.Only (s.modGov f) [.gov] :=
  ⟨fun c hc => by cases c <;> first | rfl | simp at hc, id⟩

theorem only_modGov {r u : State} {f} {cs : List Comp} (h : r.Only u cs) (hc : .gov ∈ cs) :
    r.Only (u.modGov f) cs := h.trans ((modGov_only u f).mono (by simpa using hc))

theorem modClk_only (s : State) (f) : s.Only (s.modClk f) [.clk] :=
  ⟨fun c hc => by cases c <;> first | rfl | simp at hc, id⟩

theorem only_modClk {r u : State} {f} {cs : List Comp} (h : r.Only u cs) (hc : .clk ∈ cs) :
    r.Only (u.modClk f) cs := h.trans ((modClk_only u f).mono (by simpa using hc))

theorem modFret_only (s : State) (f) : s.Only (s.modFret f) [.fret] :=
  ⟨fun c hc => by cases c <;> first | rfl | simp at hc, id⟩

theorem only_modFret {r u : State} {f} {cs : List Comp} (h : r.Only u cs) (hc : .fret ∈ cs) :
    r.Only (u.modFret f) cs := h.trans ((modFret_only u f).mono (by simpa using hc))

theorem modIds_only (s : State) (f) : s.Only (s.modIds f) [.ids] :=
  ⟨fun c hc => by cases c <;> first | rfl | simp at hc, id⟩

theorem only_modIds {r u : State} {f} {cs : List Comp} (h : r.Only u cs) (hc : .ids ∈ cs) :
    r.Only (u.modIds f) cs := h.trans ((modIds_only u f).mono (by simpa using hc))

theorem modSec_only (s : State) (f) : s.Only (s.modSec f) [.sec] :=
  ⟨fun c hc => by cases c <;> first | rfl | simp at hc, id⟩

theorem only_modSec {r u : State} {f} {cs : List Comp} (h : r.Only u cs) (hc : .sec ∈ cs) :
    r.Only (u.modSec f) cs := h.trans ((modSec_only u f).mono (by simpa using hc))

theorem modBist_only (s : State) (f) : s.Only (s.modBist f) [.bist] :=
  ⟨fun c hc => by cases c <;> first | rfl | simp at hc, id⟩

theorem only_modBist {r u : State} {f} {cs : List Comp} (h : r.Only u cs) (hc : .bist ∈ cs) :
    r.Only (u.modBist f) cs := h.trans ((modBist_only u f).mono (by simpa using hc))

theorem modHeal_only (s : State) (f) : s.Only (s.modHeal f) [.heal] :=
  ⟨fun c hc => by cases c <;> first | rfl | simp at hc, id⟩

theorem only_modHeal {r u : State} {f} {cs : List Comp} (h : r.Only u cs) (hc : .heal ∈ cs) :
    r.Only (u.modHeal f) cs := h.trans ((modHeal_only u f).mono (by simpa using hc))

theorem modHealx_only (s : State) (f) : s.Only (s.modHealx f) [.healx] :=
  ⟨fun c hc => by cases c <;> first | rfl | simp at hc, id⟩

theorem only_modHealx {r u : State} {f} {cs : List Comp} (h : r.Only u cs) (hc : .healx ∈ cs) :
    r.Only (u.modHealx f) cs := h.trans ((modHealx_only u f).mono (by simpa using hc))

theorem modRel_only (s : State) (f) : s.Only (s.modRel f) [.rel] :=
  ⟨fun c hc => by cases c <;> first | rfl | simp at hc, id⟩

theorem only_modRel {r u : State} {f} {cs : List Comp} (h : r.Only u cs) (hc : .rel ∈ cs) :
    r.Only (u.modRel f) cs := h.trans ((modRel_only u f).mono (by simpa using hc))

theorem modRelx_only (s : State) (f) : s.Only (s.modRelx f) [.relx] :=
  ⟨fun c hc => by cases c <;> first | rfl | simp at hc, id⟩

theorem only_modRelx {r u : State} {f} {cs : List Comp} (h : r.Only u cs) (hc : .relx ∈ cs) :
    r.Only (u.modRelx f) cs := h.trans ((modRelx_only u f).mono (by simpa using hc))

theorem modChest_only (s : State) (f) : s.Only (s.modChest f) [.chest] :=
  ⟨fun c hc => by cases c <;> first | rfl | simp at hc, id⟩

theorem only_modChest {r u : State} {f} {cs : List Comp} (h : r.Only u cs) (hc : .chest ∈ cs) :
    r.Only (u.modChest f) cs := h.trans ((modChest_only u f).mono (by simpa using hc))

theorem modTel_only (s : State) (f) : s.Only (s.modTel f) [.tel] :=
  ⟨fun c hc => by cases c <;> first | rfl | simp at hc, id⟩

theorem only_modTel {r u : State} {f} {cs : List Comp} (h : r.Only u cs) (hc : .tel ∈ cs) :
    r.Only (u.modTel f) cs := h.trans ((modTel_only u f).mono (by simpa using hc))

theorem modMch_only (s : State) (f) : s.Only (s.modMch f) [.mch] :=
  ⟨fun c hc => by cases c <;> first | rfl | simp at hc, id⟩

theorem only_modMch {r u : State} {f} {cs : List Comp} (h : r.Only u cs) (hc : .mch ∈ cs) :
    r.Only (u.modMch f) cs := h.trans ((modMch_only u f).mono (by simpa using hc))

theorem modPcie_only (s : State) (f) : s.Only (s.modPcie f) [.pcie] :=
  ⟨fun c hc => by cases c <;> first | rfl | simp at hc, id⟩

theorem only_modPcie {r u : State} {f} {cs : List Comp} (h : r.Only u cs) (hc : .pcie ∈ cs) :
    r.Only (u.modPcie f) cs := h.trans ((modPcie_only u f).mono (by simpa using hc))

theorem modMgt_only (s : State) (f) : s.Only (s.modMgt f) [.mgt] :=
  ⟨fun c hc => by cases c <;> first | rfl | simp at hc, id⟩

theorem only_modMgt {r u : State} {f} {cs : List Comp} (h : r.Only u cs) (hc : .mgt ∈ cs) :
    r.Only (u.modMgt f) cs := h.trans ((modMgt_only u f).mono (by simpa using hc))

theorem modSpn_only (s : State) (f) : s.Only (s.modSpn f) [.spn] :=
  ⟨fun c hc => by cases c <;> first | rfl | simp at hc, id⟩

theorem only_modSpn {r u : State} {f} {cs : List Comp} (h : r.Only u cs) (hc : .spn ∈ cs) :
    r.Only (u.modSpn f) cs := h.trans ((modSpn_only u f).mono (by simpa using hc))

theorem modSess_only (s : State) (f) : s.Only (s.modSess f) [.sess] :=
  ⟨fun c hc => by cases c <;> first | rfl | simp at hc, id⟩

theorem only_modSess {r u : State} {f} {cs : List Comp} (h : r.Only u cs) (hc : .sess ∈ cs) :
    r.Only (u.modSess f) cs := h.trans ((modSess_only u f).mono (by simpa using hc))

theorem modHbm_only (s : State) (f) (hf : s.memForm = true → (s.modHbm f).memForm = true) : s.Only (s.modHbm f) [.hbm] :=
  ⟨fun c hc => by cases c <;> first | rfl | simp at hc, hf⟩

theorem only_modHbm {r u : State} {f} {cs : List Comp} (h : r.Only u cs) (hc : .hbm ∈ cs)
    (hf : u.memForm = true → (u.modHbm f).memForm = true) :
    r.Only (u.modHbm f) cs := h.trans ((modHbm_only u f hf).mono (by simpa using hc))

theorem modTap_only (s : State) (f) : s.Only (s.modTap f) [.tap] :=
  ⟨fun c hc => by cases c <;> first | rfl | simp at hc, id⟩

theorem only_modTap {r u : State} {f} {cs : List Comp} (h : r.Only u cs) (hc : .tap ∈ cs) :
    r.Only (u.modTap f) cs := h.trans ((modTap_only u f).mono (by simpa using hc))

theorem modFabs_only (s : State) (f) : s.Only (s.modFabs f) [.fabs] :=
  ⟨fun c hc => by cases c <;> first | rfl | simp at hc, id⟩

theorem only_modFabs {r u : State} {f} {cs : List Comp} (h : r.Only u cs) (hc : .fabs ∈ cs) :
    r.Only (u.modFabs f) cs := h.trans ((modFabs_only u f).mono (by simpa using hc))

theorem modParts_only (s : State) (f) : s.Only (s.modParts f) [.parts] :=
  ⟨fun c hc => by cases c <;> first | rfl | simp at hc, id⟩

theorem only_modParts {r u : State} {f} {cs : List Comp} (h : r.Only u cs) (hc : .parts ∈ cs) :
    r.Only (u.modParts f) cs := h.trans ((modParts_only u f).mono (by simpa using hc))

theorem modCluss_only (s : State) (f) : s.Only (s.modCluss f) [.cluss] :=
  ⟨fun c hc => by cases c <;> first | rfl | simp at hc, id⟩

theorem only_modCluss {r u : State} {f} {cs : List Comp} (h : r.Only u cs) (hc : .cluss ∈ cs) :
    r.Only (u.modCluss f) cs := h.trans ((modCluss_only u f).mono (by simpa using hc))

theorem modTiles_only (s : State) (f) : s.Only (s.modTiles f) [.tiles] :=
  ⟨fun c hc => by cases c <;> first | rfl | simp at hc, id⟩

theorem only_modTiles {r u : State} {f} {cs : List Comp} (h : r.Only u cs) (hc : .tiles ∈ cs) :
    r.Only (u.modTiles f) cs := h.trans ((modTiles_only u f).mono (by simpa using hc))

theorem modCtxs_only (s : State) (f) : s.Only (s.modCtxs f) [.ctxs] :=
  ⟨fun c hc => by cases c <;> first | rfl | simp at hc, id⟩

theorem only_modCtxs {r u : State} {f} {cs : List Comp} (h : r.Only u cs) (hc : .ctxs ∈ cs) :
    r.Only (u.modCtxs f) cs := h.trans ((modCtxs_only u f).mono (by simpa using hc))

theorem modTasks_only (s : State) (f) : s.Only (s.modTasks f) [.tasks] :=
  ⟨fun c hc => by cases c <;> first | rfl | simp at hc, id⟩

theorem only_modTasks {r u : State} {f} {cs : List Comp} (h : r.Only u cs) (hc : .tasks ∈ cs) :
    r.Only (u.modTasks f) cs := h.trans ((modTasks_only u f).mono (by simpa using hc))

theorem modScheds_only (s : State) (f) : s.Only (s.modScheds f) [.scheds] :=
  ⟨fun c hc => by cases c <;> first | rfl | simp at hc, id⟩

theorem only_modScheds {r u : State} {f} {cs : List Comp} (h : r.Only u cs) (hc : .scheds ∈ cs) :
    r.Only (u.modScheds f) cs := h.trans ((modScheds_only u f).mono (by simpa using hc))

theorem modHeld_only (s : State) (f) : s.Only (s.modHeld f) [.held] :=
  ⟨fun c hc => by cases c <;> first | rfl | simp at hc, id⟩

theorem only_modHeld {r u : State} {f} {cs : List Comp} (h : r.Only u cs) (hc : .held ∈ cs) :
    r.Only (u.modHeld f) cs := h.trans ((modHeld_only u f).mono (by simpa using hc))

theorem modLatches_only (s : State) (f) : s.Only (s.modLatches f) [.latches] :=
  ⟨fun c hc => by cases c <;> first | rfl | simp at hc, id⟩

theorem only_modLatches {r u : State} {f} {cs : List Comp} (h : r.Only u cs) (hc : .latches ∈ cs) :
    r.Only (u.modLatches f) cs := h.trans ((modLatches_only u f).mono (by simpa using hc))

theorem modOut_only (s : State) (f) : s.Only (s.modOut f) [.out] :=
  ⟨fun c hc => by cases c <;> first | rfl | simp at hc, id⟩

theorem only_modOut {r u : State} {f} {cs : List Comp} (h : r.Only u cs) (hc : .out ∈ cs) :
    r.Only (u.modOut f) cs := h.trans ((modOut_only u f).mono (by simpa using hc))

theorem modTicks_only (s : State) (f) : s.Only (s.modTicks f) [.ticks] :=
  ⟨fun c hc => by cases c <;> first | rfl | simp at hc, id⟩

theorem only_modTicks {r u : State} {f} {cs : List Comp} (h : r.Only u cs) (hc : .ticks ∈ cs) :
    r.Only (u.modTicks f) cs := h.trans ((modTicks_only u f).mono (by simpa using hc))

theorem modFree_only (s : State) (f) : s.Only (s.modFree f) [.free] :=
  ⟨fun c hc => by cases c <;> first | rfl | simp at hc, id⟩

theorem only_modFree {r u : State} {f} {cs : List Comp} (h : r.Only u cs) (hc : .free ∈ cs) :
    r.Only (u.modFree f) cs := h.trans ((modFree_only u f).mono (by simpa using hc))

theorem modPending_only (s : State) (f) : s.Only (s.modPending f) [.pending] :=
  ⟨fun c hc => by cases c <;> first | rfl | simp at hc, id⟩

theorem only_modPending {r u : State} {f} {cs : List Comp} (h : r.Only u cs) (hc : .pending ∈ cs) :
    r.Only (u.modPending f) cs := h.trans ((modPending_only u f).mono (by simpa using hc))

theorem only_freeVal {r s : State} {fr : List Comp} (h : r.Only s fr) (hc : Comp.free ∈ fr) : r.Only s.freeVal.2 fr :=
  only_modFree h hc

theorem only_freeDigest {r s : State} {fr : List Comp} (h : r.Only s fr) (hc : Comp.free ∈ fr) :
    r.Only s.freeDigest.2 fr := only_modFree h hc

theorem State.Only.fuse {s t : State} {cs : List Comp} (h : s.Only t cs) (hc : .fuse ∉ cs := by decide) :
    t.fuse = s.fuse := h.1 .fuse hc
theorem State.Only.flash {s t : State} {cs : List Comp} (h : s.Only t cs) (hc : .flash ∉ cs := by decide) :
    t.flash = s.flash := h.1 .flash hc
theorem State.Only.top {s t : State} {cs : List Comp} (h : s.Only t cs) (hc : .top ∉ cs := by decide) :
    t.top = s.top := h.1 .top hc
theorem State.Only.rstc {s t : State} {cs : List Comp} (h : s.Only t cs) (hc : .rstc ∉ cs := by decide) :
    t.rstc = s.rstc := h.1 .rstc hc
theorem State.Only.brup {s t : State} {cs : List Comp} (h : s.Only t cs) (hc : .brup ∉ cs := by decide) :
    t.brup = s.brup := h.1 .brup hc
theorem State.Only.pwr {s t : State} {cs : List Comp} (h : s.Only t cs) (hc : .pwr ∉ cs := by decide) :
    t.pwr = s.pwr := h.1 .pwr hc
theorem State.Only.gov {s t : State} {cs : List Comp} (h : s.Only t cs) (hc : .gov ∉ cs := by decide) :
    t.gov = s.gov := h.1 .gov hc
theorem State.Only.clk {s t : State} {cs : List Comp} (h : s.Only t cs) (hc : .clk ∉ cs := by decide) :
    t.clk = s.clk := h.1 .clk hc
theorem State.Only.fret {s t : State} {cs : List Comp} (h : s.Only t cs) (hc : .fret ∉ cs := by decide) :
    t.fret = s.fret := h.1 .fret hc
theorem State.Only.ids {s t : State} {cs : List Comp} (h : s.Only t cs) (hc : .ids ∉ cs := by decide) :
    t.ids = s.ids := h.1 .ids hc
theorem State.Only.sec {s t : State} {cs : List Comp} (h : s.Only t cs) (hc : .sec ∉ cs := by decide) :
    t.sec = s.sec := h.1 .sec hc
theorem State.Only.bist {s t : State} {cs : List Comp} (h : s.Only t cs) (hc : .bist ∉ cs := by decide) :
    t.bist = s.bist := h.1 .bist hc
theorem State.Only.heal {s t : State} {cs : List Comp} (h : s.Only t cs) (hc : .heal ∉ cs := by decide) :
    t.heal = s.heal := h.1 .heal hc
theorem State.Only.healx {s t : State} {cs : List Comp} (h : s.Only t cs) (hc : .healx ∉ cs := by decide) :
    t.healx = s.healx := h.1 .healx hc
theorem State.Only.rel {s t : State} {cs : List Comp} (h : s.Only t cs) (hc : .rel ∉ cs := by decide) :
    t.rel = s.rel := h.1 .rel hc
theorem State.Only.relx {s t : State} {cs : List Comp} (h : s.Only t cs) (hc : .relx ∉ cs := by decide) :
    t.relx = s.relx := h.1 .relx hc
theorem State.Only.chest {s t : State} {cs : List Comp} (h : s.Only t cs) (hc : .chest ∉ cs := by decide) :
    t.chest = s.chest := h.1 .chest hc
theorem State.Only.tel {s t : State} {cs : List Comp} (h : s.Only t cs) (hc : .tel ∉ cs := by decide) :
    t.tel = s.tel := h.1 .tel hc
theorem State.Only.mch {s t : State} {cs : List Comp} (h : s.Only t cs) (hc : .mch ∉ cs := by decide) :
    t.mch = s.mch := h.1 .mch hc
theorem State.Only.pcie {s t : State} {cs : List Comp} (h : s.Only t cs) (hc : .pcie ∉ cs := by decide) :
    t.pcie = s.pcie := h.1 .pcie hc
theorem State.Only.mgt {s t : State} {cs : List Comp} (h : s.Only t cs) (hc : .mgt ∉ cs := by decide) :
    t.mgt = s.mgt := h.1 .mgt hc
theorem State.Only.spn {s t : State} {cs : List Comp} (h : s.Only t cs) (hc : .spn ∉ cs := by decide) :
    t.spn = s.spn := h.1 .spn hc
theorem State.Only.sess {s t : State} {cs : List Comp} (h : s.Only t cs) (hc : .sess ∉ cs := by decide) :
    t.sess = s.sess := h.1 .sess hc
theorem State.Only.hbm {s t : State} {cs : List Comp} (h : s.Only t cs) (hc : .hbm ∉ cs := by decide) :
    t.hbm = s.hbm := h.1 .hbm hc
theorem State.Only.tap {s t : State} {cs : List Comp} (h : s.Only t cs) (hc : .tap ∉ cs := by decide) :
    t.tap = s.tap := h.1 .tap hc
theorem State.Only.fabs {s t : State} {cs : List Comp} (h : s.Only t cs) (hc : .fabs ∉ cs := by decide) :
    t.fabs = s.fabs := h.1 .fabs hc
theorem State.Only.parts {s t : State} {cs : List Comp} (h : s.Only t cs) (hc : .parts ∉ cs := by decide) :
    t.parts = s.parts := h.1 .parts hc
theorem State.Only.cluss {s t : State} {cs : List Comp} (h : s.Only t cs) (hc : .cluss ∉ cs := by decide) :
    t.cluss = s.cluss := h.1 .cluss hc
theorem State.Only.tiles {s t : State} {cs : List Comp} (h : s.Only t cs) (hc : .tiles ∉ cs := by decide) :
    t.tiles = s.tiles := h.1 .tiles hc
theorem State.Only.ctxs {s t : State} {cs : List Comp} (h : s.Only t cs) (hc : .ctxs ∉ cs := by decide) :
    t.ctxs = s.ctxs := h.1 .ctxs hc
theorem State.Only.tasks {s t : State} {cs : List Comp} (h : s.Only t cs) (hc : .tasks ∉ cs := by decide) :
    t.tasks = s.tasks := h.1 .tasks hc
theorem State.Only.scheds {s t : State} {cs : List Comp} (h : s.Only t cs) (hc : .scheds ∉ cs := by decide) :
    t.scheds = s.scheds := h.1 .scheds hc
theorem State.Only.held {s t : State} {cs : List Comp} (h : s.Only t cs) (hc : .held ∉ cs := by decide) :
    t.held = s.held := h.1 .held hc
theorem State.Only.latches {s t : State} {cs : List Comp} (h : s.Only t cs) (hc : .latches ∉ cs := by decide) :
    t.latches = s.latches := h.1 .latches hc
theorem State.Only.out {s t : State} {cs : List Comp} (h : s.Only t cs) (hc : .out ∉ cs := by decide) :
    t.out = s.out := h.1 .out hc
theorem State.Only.ticks {s t : State} {cs : List Comp} (h : s.Only t cs) (hc : .ticks ∉ cs := by decide) :
    t.ticks = s.ticks := h.1 .ticks hc
theorem State.Only.free {s t : State} {cs : List Comp} (h : s.Only t cs) (hc : .free ∉ cs := by decide) :
    t.free = s.free := h.1 .free hc
theorem State.Only.pending {s t : State} {cs : List Comp} (h : s.Only t cs) (hc : .pending ∉ cs := by decide) :
    t.pending = s.pending := h.1 .pending hc

end Sys2Proof.Machine
end

