-- ==== Sys2Proof/Laws/FrameOps.lean ====
section
/-! SUPPORT. The frame of every shared operation: the parts of the state it may change, and that it keeps the form of device
memory. For each operation `f`, `f_only` is its frame and `only_f` carries a frame across it. -/

set_option linter.unusedTactic false
set_option linter.unreachableTactic false
set_option linter.unusedVariables false

namespace Sys2Proof.Machine

/-- 22 parts of the state, for the frames of operations that may change so many. -/
def parts1 : List Comp :=
  [.flash, .top, .fret, .bist, .heal, .healx, .rel, .relx, .chest, .tel, .spn, .sess, .hbm, .fabs, .parts,
   .cluss, .tiles, .ctxs, .tasks, .held, .out, .free]

/-- 17 parts of the state, for the frames of operations that may change so many. -/
def parts2 : List Comp :=
  [.flash, .top, .fret, .bist, .heal, .healx, .rel, .relx, .chest, .mch, .spn, .fabs, .tiles, .ctxs, .tasks,
   .held, .out]

/-- 16 parts of the state, for the frames of operations that may change so many. -/
def parts3 : List Comp :=
  [.flash, .top, .fret, .bist, .heal, .healx, .rel, .relx, .chest, .tel, .spn, .fabs, .tiles, .tasks, .held,
   .out]

/-- 18 parts of the state, for the frames of operations that may change so many. -/
def parts4 : List Comp :=
  [.flash, .top, .rstc, .bist, .heal, .healx, .rel, .relx, .chest, .mch, .spn, .parts, .cluss, .tiles, .ctxs,
   .tasks, .latches, .out]

/-- 19 parts of the state, for the frames of operations that may change so many. -/
def parts5 : List Comp :=
  [.top, .fret, .rel, .relx, .chest, .tel, .mch, .spn, .sess, .hbm, .fabs, .parts, .cluss, .tiles, .ctxs,
   .tasks, .scheds, .held, .out]

/-- 16 parts of the state, for the frames of operations that may change so many. -/
def parts6 : List Comp :=
  [.top, .healx, .rel, .relx, .chest, .tel, .mch, .spn, .sess, .hbm, .parts, .tiles, .tasks, .scheds, .out,
   .free]

/-- 24 parts of the state, for the frames of operations that may change so many. -/
def parts7 : List Comp :=
  [.flash, .top, .brup, .fret, .bist, .heal, .healx, .rel, .relx, .chest, .mch, .spn, .sess, .hbm, .fabs,
   .parts, .cluss, .tiles, .ctxs, .tasks, .scheds, .held, .latches, .out]

/-- 33 parts of the state, for the frames of operations that may change so many. -/
def parts8 : List Comp :=
  [.flash, .top, .rstc, .brup, .pwr, .gov, .clk, .fret, .ids, .sec, .bist, .heal, .healx, .rel, .relx,
   .chest, .tel, .mch, .pcie, .mgt, .spn, .sess, .hbm, .fabs, .parts, .cluss, .tiles, .ctxs, .tasks, .scheds,
   .held, .latches, .out]

/-- 34 parts of the state, for the frames of operations that may change so many. -/
def parts9 : List Comp :=
  [.flash, .top, .rstc, .brup, .pwr, .gov, .clk, .fret, .ids, .sec, .bist, .heal, .healx, .rel, .relx,
   .chest, .tel, .mch, .pcie, .mgt, .spn, .sess, .hbm, .fabs, .parts, .cluss, .tiles, .ctxs, .tasks, .scheds,
   .held, .latches, .out, .free]

/-- 34 parts of the state, for the frames of operations that may change so many. -/
def parts10 : List Comp :=
  [.fuse, .flash, .top, .rstc, .brup, .pwr, .gov, .clk, .fret, .ids, .sec, .bist, .heal, .healx, .rel, .relx,
   .chest, .tel, .mch, .pcie, .mgt, .spn, .sess, .hbm, .fabs, .parts, .cluss, .tiles, .ctxs, .tasks, .scheds,
   .held, .latches, .out]

/-- 16 parts of the state, for the frames of operations that may change so many. -/
def parts11 : List Comp :=
  [.rstc, .bist, .heal, .healx, .rel, .relx, .chest, .mch, .spn, .parts, .cluss, .tiles, .ctxs, .tasks,
   .latches, .out]

/-- 17 parts of the state, for the frames of operations that may change so many. -/
def parts12 : List Comp :=
  [.flash, .top, .rstc, .brup, .pwr, .gov, .fret, .sec, .bist, .healx, .relx, .chest, .parts, .cluss, .tiles,
   .out, .free]

/-- 19 parts of the state, for the frames of operations that may change so many. -/
def parts13 : List Comp :=
  [.flash, .top, .fret, .bist, .heal, .healx, .rel, .relx, .chest, .tel, .mch, .spn, .hbm, .fabs, .parts,
   .tiles, .tasks, .held, .out]

/-- 30 parts of the state, for the frames of operations that may change so many. -/
def parts14 : List Comp :=
  [.top, .rstc, .brup, .pwr, .gov, .clk, .fret, .ids, .sec, .bist, .heal, .healx, .rel, .relx, .tel, .mch,
   .pcie, .mgt, .spn, .sess, .hbm, .fabs, .parts, .cluss, .tiles, .ctxs, .tasks, .scheds, .held, .latches]

/-- 31 parts of the state, for the frames of operations that may change so many. -/
def parts15 : List Comp :=
  [.top, .rstc, .brup, .pwr, .gov, .clk, .fret, .ids, .sec, .bist, .heal, .healx, .rel, .relx, .chest, .tel,
   .mch, .pcie, .mgt, .spn, .sess, .hbm, .fabs, .parts, .cluss, .tiles, .ctxs, .tasks, .scheds, .held,
   .latches]

theorem updTile_only (s : State) (pt : Nat) (f : TileSt → TileSt) : State.Only s (State.updTile s pt f) [.tiles] := by
  unfold State.updTile
  repeat' first | with_reducible assumption | with_reducible exact .refl _ _ | with_reducible refine only_ite ?_ ?_ | with_reducible refine only_modTiles ?_ (by decide) | split | dsimp only

theorem only_updTile {z : State} {fr : List Comp} {s : State} {pt : Nat} {f : TileSt → TileSt} (zh : State.Only z s fr) (zc : ∀ c ∈ ([.tiles] : List Comp), c ∈ fr) :
    State.Only z (State.updTile s pt f) fr := zh.trans ((updTile_only s pt f).mono zc)

theorem updClus_only (s : State) (c : Nat) (f : ClusSt → ClusSt) : State.Only s (State.updClus s c f) [.cluss] := by
  unfold State.updClus
  repeat' first | with_reducible assumption | with_reducible exact .refl _ _ | with_reducible refine only_ite ?_ ?_ | with_reducible refine only_modCluss ?_ (by decide) | split | dsimp only

theorem only_updClus {z : State} {fr : List Comp} {s : State} {c : Nat} {f : ClusSt → ClusSt} (zh : State.Only z s fr) (zc : ∀ c ∈ ([.cluss] : List Comp), c ∈ fr) :
    State.Only z (State.updClus s c f) fr := zh.trans ((updClus_only s c f).mono zc)

theorem updPart_only (s : State) (p : Nat) (f : PartSt → PartSt) : State.Only s (State.updPart s p f) [.parts] := by
  unfold State.updPart
  repeat' first | with_reducible assumption | with_reducible exact .refl _ _ | with_reducible refine only_ite ?_ ?_ | with_reducible refine only_modParts ?_ (by decide) | split | dsimp only

theorem only_updPart {z : State} {fr : List Comp} {s : State} {p : Nat} {f : PartSt → PartSt} (zh : State.Only z s fr) (zc : ∀ c ∈ ([.parts] : List Comp), c ∈ fr) :
    State.Only z (State.updPart s p f) fr := zh.trans ((updPart_only s p f).mono zc)

theorem updFab_only (s : State) (p : Nat) (f : FabSt → FabSt) : State.Only s (State.updFab s p f) [.fabs] := by
  unfold State.updFab
  repeat' first | with_reducible assumption | with_reducible exact .refl _ _ | with_reducible refine only_ite ?_ ?_ | with_reducible refine only_modFabs ?_ (by decide) | split | dsimp only

theorem only_updFab {z : State} {fr : List Comp} {s : State} {p : Nat} {f : FabSt → FabSt} (zh : State.Only z s fr) (zc : ∀ c ∈ ([.fabs] : List Comp), c ∈ fr) :
    State.Only z (State.updFab s p f) fr := zh.trans ((updFab_only s p f).mono zc)

theorem updCtx_only (s : State) (n : Nat) (f : CtxSt → CtxSt) : State.Only s (State.updCtx s n f) [.ctxs] := by
  unfold State.updCtx
  repeat' first | with_reducible assumption | with_reducible exact .refl _ _ | with_reducible refine only_ite ?_ ?_ | with_reducible refine only_modCtxs ?_ (by decide) | split | dsimp only

theorem only_updCtx {z : State} {fr : List Comp} {s : State} {n : Nat} {f : CtxSt → CtxSt} (zh : State.Only z s fr) (zc : ∀ c ∈ ([.ctxs] : List Comp), c ∈ fr) :
    State.Only z (State.updCtx s n f) fr := zh.trans ((updCtx_only s n f).mono zc)

theorem updTask_only (s : State) (n : BitVec 32) (f : TaskRt → TaskRt) : State.Only s (State.updTask s n f) [.tasks] := by
  unfold State.updTask
  repeat' first | with_reducible assumption | with_reducible exact .refl _ _ | with_reducible refine only_ite ?_ ?_ | with_reducible refine only_modTasks ?_ (by decide) | split | dsimp only

theorem only_updTask {z : State} {fr : List Comp} {s : State} {n : BitVec 32} {f : TaskRt → TaskRt} (zh : State.Only z s fr) (zc : ∀ c ∈ ([.tasks] : List Comp), c ∈ fr) :
    State.Only z (State.updTask s n f) fr := zh.trans ((updTask_only s n f).mono zc)

theorem updConn_only (s : State) (n : Nat) (f : ConnSt → ConnSt) : State.Only s (State.updConn s n f) [.mch] := by
  unfold State.updConn
  repeat' first | with_reducible assumption | with_reducible exact .refl _ _ | with_reducible refine only_ite ?_ ?_ | with_reducible refine only_modMch ?_ (by decide) | split | dsimp only

theorem only_updConn {z : State} {fr : List Comp} {s : State} {n : Nat} {f : ConnSt → ConnSt} (zh : State.Only z s fr) (zc : ∀ c ∈ ([.mch] : List Comp), c ∈ fr) :
    State.Only z (State.updConn s n f) fr := zh.trans ((updConn_only s n f).mono zc)

theorem updQueue_only (s : State) (n : Nat) (f : QueueSt → QueueSt) : State.Only s (State.updQueue s n f) [.mch] := by
  unfold State.updQueue
  repeat' first | with_reducible assumption | with_reducible exact .refl _ _ | with_reducible refine only_ite ?_ ?_ | with_reducible refine only_modMch ?_ (by decide) | split | dsimp only

theorem only_updQueue {z : State} {fr : List Comp} {s : State} {n : Nat} {f : QueueSt → QueueSt} (zh : State.Only z s fr) (zc : ∀ c ∈ ([.mch] : List Comp), c ∈ fr) :
    State.Only z (State.updQueue s n f) fr := zh.trans ((updQueue_only s n f).mono zc)

theorem setInb_only (s : State) (f : List InbSt → List InbSt) : State.Only s (State.setInb s f) [.mch] := by
  unfold State.setInb
  repeat' first | with_reducible assumption | with_reducible exact .refl _ _ | with_reducible refine only_ite ?_ ?_ | with_reducible refine only_modMch ?_ (by decide) | split | dsimp only

theorem only_setInb {z : State} {fr : List Comp} {s : State} {f : List InbSt → List InbSt} (zh : State.Only z s fr) (zc : ∀ c ∈ ([.mch] : List Comp), c ∈ fr) :
    State.Only z (State.setInb s f) fr := zh.trans ((setInb_only s f).mono zc)

theorem updPcie_only (s : State) (p : HostPort) (f : PcieSt → PcieSt) : State.Only s (State.updPcie s p f) [.pcie] := by
  unfold State.updPcie
  repeat' first | with_reducible assumption | with_reducible exact .refl _ _ | with_reducible refine only_ite ?_ ?_ | with_reducible refine only_modPcie ?_ (by decide) | split | dsimp only

theorem only_updPcie {z : State} {fr : List Comp} {s : State} {p : HostPort} {f : PcieSt → PcieSt} (zh : State.Only z s fr) (zc : ∀ c ∈ ([.pcie] : List Comp), c ∈ fr) :
    State.Only z (State.updPcie s p f) fr := zh.trans ((updPcie_only s p f).mono zc)

theorem updSession_only (s : State) (n : Nat) (f : SessSt → SessSt) : State.Only s (State.updSession s n f) [.sess] := by
  unfold State.updSession
  repeat' first | with_reducible assumption | with_reducible exact .refl _ _ | with_reducible refine only_ite ?_ ?_ | with_reducible refine only_modSess ?_ (by decide) | split | dsimp only

theorem only_updSession {z : State} {fr : List Comp} {s : State} {n : Nat} {f : SessSt → SessSt} (zh : State.Only z s fr) (zc : ∀ c ∈ ([.sess] : List Comp), c ∈ fr) :
    State.Only z (State.updSession s n f) fr := zh.trans ((updSession_only s n f).mono zc)

theorem updPool_only (s : State) (n : Nat) (f : PoolSt → PoolSt) : State.Only s (State.updPool s n f) [.sess] := by
  unfold State.updPool
  repeat' first | with_reducible assumption | with_reducible exact .refl _ _ | with_reducible refine only_ite ?_ ?_ | with_reducible refine only_modSess ?_ (by decide) | split | dsimp only

theorem only_updPool {z : State} {fr : List Comp} {s : State} {n : Nat} {f : PoolSt → PoolSt} (zh : State.Only z s fr) (zc : ∀ c ∈ ([.sess] : List Comp), c ∈ fr) :
    State.Only z (State.updPool s n f) fr := zh.trans ((updPool_only s n f).mono zc)

theorem updDig_only (s : State) (n : Nat) (f : DigSt → DigSt) : State.Only s (State.updDig s n f) [.relx] := by
  unfold State.updDig
  repeat' first | with_reducible assumption | with_reducible exact .refl _ _ | with_reducible refine only_ite ?_ ?_ | with_reducible refine only_modRelx ?_ (by decide) | split | dsimp only

theorem only_updDig {z : State} {fr : List Comp} {s : State} {n : Nat} {f : DigSt → DigSt} (zh : State.Only z s fr) (zc : ∀ c ∈ ([.relx] : List Comp), c ∈ fr) :
    State.Only z (State.updDig s n f) fr := zh.trans ((updDig_only s n f).mono zc)

theorem updRole_only (s : State) (pt : Nat) (f : RoleSt → RoleSt) : State.Only s (State.updRole s pt f) [.healx] := by
  unfold State.updRole
  repeat' first | with_reducible assumption | with_reducible exact .refl _ _ | with_reducible refine only_ite ?_ ?_ | with_reducible refine only_modHealx ?_ (by decide) | split | dsimp only

theorem only_updRole {z : State} {fr : List Comp} {s : State} {pt : Nat} {f : RoleSt → RoleSt} (zh : State.Only z s fr) (zc : ∀ c ∈ ([.healx] : List Comp), c ∈ fr) :
    State.Only z (State.updRole s pt f) fr := zh.trans ((updRole_only s pt f).mono zc)

theorem setPartMode_only (s : State) (p : Nat) (m : PartMode) : State.Only s (State.setPartMode s p m) [.healx] := by
  unfold State.setPartMode
  repeat' first | with_reducible assumption | with_reducible exact .refl _ _ | with_reducible refine only_ite ?_ ?_ | with_reducible refine only_modHealx ?_ (by decide) | split | dsimp only

theorem only_setPartMode {z : State} {fr : List Comp} {s : State} {p : Nat} {m : PartMode} (zh : State.Only z s fr) (zc : ∀ c ∈ ([.healx] : List Comp), c ∈ fr) :
    State.Only z (State.setPartMode s p m) fr := zh.trans ((setPartMode_only s p m).mono zc)

theorem updSpn_only (s : State) (h : Half) (f : SpnHalf → SpnHalf) : State.Only s (State.updSpn s h f) [.spn] := by
  unfold State.updSpn
  repeat' first | with_reducible assumption | with_reducible exact .refl _ _ | with_reducible refine only_ite ?_ ?_ | with_reducible refine only_modSpn ?_ (by decide) | split | dsimp only

theorem only_updSpn {z : State} {fr : List Comp} {s : State} {h : Half} {f : SpnHalf → SpnHalf} (zh : State.Only z s fr) (zc : ∀ c ∈ ([.spn] : List Comp), c ∈ fr) :
    State.Only z (State.updSpn s h f) fr := zh.trans ((updSpn_only s h f).mono zc)

theorem updFlight_only (s : State) (p : Nat) (f : FlightReg → FlightReg) : State.Only s (State.updFlight s p f) [.fret] := by
  unfold State.updFlight
  repeat' first | with_reducible assumption | with_reducible exact .refl _ _ | with_reducible refine only_ite ?_ ?_ | with_reducible refine only_modFret ?_ (by decide) | split | dsimp only

theorem only_updFlight {z : State} {fr : List Comp} {s : State} {p : Nat} {f : FlightReg → FlightReg} (zh : State.Only z s fr) (zc : ∀ c ∈ ([.fret] : List Comp), c ∈ fr) :
    State.Only z (State.updFlight s p f) fr := zh.trans ((updFlight_only s p f).mono zc)

theorem updMgmtPort_only (s : State) (p : MgmtPort) (f : MgtPortSt → MgtPortSt) : State.Only s (State.updMgmtPort s p f) [.mgt] := by
  unfold State.updMgmtPort
  repeat' first | with_reducible assumption | with_reducible exact .refl _ _ | with_reducible refine only_ite ?_ ?_ | with_reducible refine only_modMgt ?_ (by decide) | split | dsimp only

theorem only_updMgmtPort {z : State} {fr : List Comp} {s : State} {p : MgmtPort} {f : MgtPortSt → MgtPortSt} (zh : State.Only z s fr) (zc : ∀ c ∈ ([.mgt] : List Comp), c ∈ fr) :
    State.Only z (State.updMgmtPort s p f) fr := zh.trans ((updMgmtPort_only s p f).mono zc)

theorem emit_only (s : State) (o : Out) : State.Only s (State.emit s o) [.out] := by
  unfold State.emit
  repeat' first | with_reducible assumption | with_reducible exact .refl _ _ | with_reducible refine only_ite ?_ ?_ | with_reducible refine only_modOut ?_ (by decide) | split | dsimp only

theorem only_emit {z : State} {fr : List Comp} {s : State} {o : Out} (zh : State.Only z s fr) (zc : ∀ c ∈ ([.out] : List Comp), c ∈ fr) :
    State.Only z (State.emit s o) fr := zh.trans ((emit_only s o).mono zc)

theorem loadIr_only (s : State) (op : BitVec 8) (drive : Bool) (highz : Bool) : State.Only s (State.loadIr s op drive highz) [.tap, .out] := by
  unfold State.loadIr
  repeat' first | with_reducible assumption | with_reducible exact .refl _ _ | with_reducible refine only_ite ?_ ?_ | with_reducible refine only_modTap ?_ (by decide) | with_reducible refine only_emit ?_ (by decide) | split | dsimp only

theorem only_loadIr {z : State} {fr : List Comp} {s : State} {op : BitVec 8} {drive : Bool} {highz : Bool} (zh : State.Only z s fr) (zc : ∀ c ∈ ([.tap, .out] : List Comp), c ∈ fr) :
    State.Only z (State.loadIr s op drive highz) fr := zh.trans ((loadIr_only s op drive highz).mono zc)

theorem dropLatches_only (s : State) (p : Nat) : State.Only s (State.dropLatches s p) [.latches] := by
  unfold State.dropLatches
  repeat' first | with_reducible assumption | with_reducible exact .refl _ _ | with_reducible refine only_ite ?_ ?_ | with_reducible refine only_modLatches ?_ (by decide) | split | dsimp only

theorem only_dropLatches {z : State} {fr : List Comp} {s : State} {p : Nat} (zh : State.Only z s fr) (zc : ∀ c ∈ ([.latches] : List Comp), c ∈ fr) :
    State.Only z (State.dropLatches s p) fr := zh.trans ((dropLatches_only s p).mono zc)

theorem extendLog_only (s : State) (type : Byte) (sched : BitVec 32) (digest : BitVec 256) (info : List Byte) : State.Only s (State.extendLog s type sched digest info) [.sec] := by
  unfold State.extendLog
  repeat' first | with_reducible assumption | with_reducible exact .refl _ _ | with_reducible refine only_ite ?_ ?_ | with_reducible refine only_modSec ?_ (by decide) | split | dsimp only

theorem only_extendLog {z : State} {fr : List Comp} {s : State} {type : Byte} {sched : BitVec 32} {digest : BitVec 256} {info : List Byte} (zh : State.Only z s fr) (zc : ∀ c ∈ ([.sec] : List Comp), c ∈ fr) :
    State.Only z (State.extendLog s type sched digest info) fr := zh.trans ((extendLog_only s type sched digest info).mono zc)

theorem updRouter_only (s : State) (r : Router) (f : RouterSt → RouterSt) : State.Only s (State.updRouter s r f) [.spn] := by
  unfold State.updRouter
  repeat' first | with_reducible assumption | with_reducible exact .refl _ _ | with_reducible refine only_ite ?_ ?_ | with_reducible refine only_modSpn ?_ (by decide) | split | dsimp only

theorem only_updRouter {z : State} {fr : List Comp} {s : State} {r : Router} {f : RouterSt → RouterSt} (zh : State.Only z s fr) (zc : ∀ c ∈ ([.spn] : List Comp), c ∈ fr) :
    State.Only z (State.updRouter s r f) fr := zh.trans ((updRouter_only s r f).mono zc)

theorem loseEntries_only (s : State) (t : ResetOf) : State.Only s (State.loseEntries s t) [.chest] := by
  unfold State.loseEntries
  repeat' first | with_reducible assumption | with_reducible exact .refl _ _ | with_reducible refine only_ite ?_ ?_ | with_reducible refine only_modChest ?_ (by decide) | split | dsimp only

theorem only_loseEntries {z : State} {fr : List Comp} {s : State} {t : ResetOf} (zh : State.Only z s fr) (zc : ∀ c ∈ ([.chest] : List Comp), c ∈ fr) :
    State.Only z (State.loseEntries s t) fr := zh.trans ((loseEntries_only s t).mono zc)

theorem recordAt_only (s : State) (t : Trigger) (east : Bool) (unit : Nat) (data : List Word) : State.Only s (State.recordAt s t east unit data) [.chest] := by
  unfold State.recordAt
  repeat' first | with_reducible assumption | with_reducible exact .refl _ _ | with_reducible refine only_ite ?_ ?_ | with_reducible refine only_modChest ?_ (by decide) | split | dsimp only

theorem only_recordAt {z : State} {fr : List Comp} {s : State} {t : Trigger} {east : Bool} {unit : Nat} {data : List Word} (zh : State.Only z s fr) (zc : ∀ c ∈ ([.chest] : List Comp), c ∈ fr) :
    State.Only z (State.recordAt s t east unit data) fr := zh.trans ((recordAt_only s t east unit data).mono zc)

theorem record_only (s : State) (t : Trigger) (data : List Word) : State.Only s (State.record s t data) [.chest] := by
  unfold State.record
  repeat' first | with_reducible assumption | with_reducible exact .refl _ _ | with_reducible refine only_ite ?_ ?_ | with_reducible refine only_recordAt ?_ (by decide) | split | dsimp only

theorem only_record {z : State} {fr : List Comp} {s : State} {t : Trigger} {data : List Word} (zh : State.Only z s fr) (zc : ∀ c ∈ ([.chest] : List Comp), c ∈ fr) :
    State.Only z (State.record s t data) fr := zh.trans ((record_only s t data).mono zc)

theorem attnOn_only (s : State) (p : HostPort) (a : Attn) : State.Only s (State.attnOn s p a) [.top, .out] := by
  unfold State.attnOn
  repeat' first | with_reducible assumption | with_reducible exact .refl _ _ | with_reducible refine only_ite ?_ ?_ | with_reducible refine only_when ?_ ?_ | with_reducible refine only_modTop ?_ (by decide) | with_reducible refine only_emit ?_ (by decide) | split | dsimp only

theorem only_attnOn {z : State} {fr : List Comp} {s : State} {p : HostPort} {a : Attn} (zh : State.Only z s fr) (zc : ∀ c ∈ ([.top, .out] : List Comp), c ∈ fr) :
    State.Only z (State.attnOn s p a) fr := zh.trans ((attnOn_only s p a).mono zc)

theorem attn_only (s : State) (a : Attn) : State.Only s (State.attn s a) [.top, .out] := by
  unfold State.attn
  repeat' first | with_reducible assumption | with_reducible exact .refl _ _ | with_reducible refine only_ite ?_ ?_ | with_reducible refine only_attnOn ?_ (by decide) | split | dsimp only

theorem only_attn {z : State} {fr : List Comp} {s : State} {a : Attn} (zh : State.Only z s fr) (zc : ∀ c ∈ ([.top, .out] : List Comp), c ∈ fr) :
    State.Only z (State.attn s a) fr := zh.trans ((attn_only s a).mono zc)

theorem readyPins_only (s : State) : State.Only s (State.readyPins s) [.top] := by
  unfold State.readyPins
  repeat' first | with_reducible assumption | with_reducible exact .refl _ _ | with_reducible refine only_ite ?_ ?_ | with_reducible refine only_modTop ?_ (by decide) | split | dsimp only

theorem only_readyPins {z : State} {fr : List Comp} {s : State} (zh : State.Only z s fr) (zc : ∀ c ∈ ([.top] : List Comp), c ∈ fr) :
    State.Only z (State.readyPins s) fr := zh.trans ((readyPins_only s).mono zc)

theorem fretFlag_only (s : State) (f : FretFlag) : State.Only s (State.fretFlag s f) [.top, .fret, .chest, .out] := by
  unfold State.fretFlag
  repeat' first | with_reducible assumption | with_reducible exact .refl _ _ | with_reducible refine only_ite ?_ ?_ | with_reducible refine only_when ?_ ?_ | with_reducible refine only_modFret ?_ (by decide) | with_reducible refine only_record ?_ (by decide) | with_reducible refine only_attn ?_ (by decide) | split | dsimp only

theorem only_fretFlag {z : State} {fr : List Comp} {s : State} {f : FretFlag} (zh : State.Only z s fr) (zc : ∀ c ∈ ([.top, .fret, .chest, .out] : List Comp), c ∈ fr) :
    State.Only z (State.fretFlag s f) fr := zh.trans ((fretFlag_only s f).mono zc)

theorem detect_only (s : State) (n : BitVec 32) (st : Status) : State.Only s (State.detect s n st) [.chest, .tasks] := by
  unfold State.detect
  repeat' first | with_reducible assumption | with_reducible exact .refl _ _ | with_reducible refine only_ite ?_ ?_ | with_reducible refine only_when ?_ ?_ | with_reducible refine only_updTask ?_ (by decide) | with_reducible refine only_record ?_ (by decide) | split | dsimp only

theorem only_detect {z : State} {fr : List Comp} {s : State} {n : BitVec 32} {st : Status} (zh : State.Only z s fr) (zc : ∀ c ∈ ([.chest, .tasks] : List Comp), c ∈ fr) :
    State.Only z (State.detect s n st) fr := zh.trans ((detect_only s n st).mono zc)

theorem slipAt_only (s : State) (kind : Nat) (whr : Nat) : State.Only s (State.slipAt s kind whr) [.fret] := by
  unfold State.slipAt
  repeat' first | with_reducible assumption | with_reducible exact .refl _ _ | with_reducible refine only_ite ?_ ?_ | with_reducible refine only_modFret ?_ (by decide) | split | dsimp only

theorem only_slipAt {z : State} {fr : List Comp} {s : State} {kind : Nat} {whr : Nat} (zh : State.Only z s fr) (zc : ∀ c ∈ ([.fret] : List Comp), c ∈ fr) :
    State.Only z (State.slipAt s kind whr) fr := zh.trans ((slipAt_only s kind whr).mono zc)

theorem slip_only (s : State) (n : BitVec 32) (kind : Nat) (whr : Nat) : State.Only s (State.slip s n kind whr) [.fret, .chest, .tasks] := by
  unfold State.slip
  repeat' first | with_reducible assumption | with_reducible exact .refl _ _ | with_reducible refine only_ite ?_ ?_ | with_reducible refine only_detect ?_ (by decide) | with_reducible refine only_slipAt ?_ (by decide) | split | dsimp only

theorem only_slip {z : State} {fr : List Comp} {s : State} {n : BitVec 32} {kind : Nat} {whr : Nat} (zh : State.Only z s fr) (zc : ∀ c ∈ ([.fret, .chest, .tasks] : List Comp), c ∈ fr) :
    State.Only z (State.slip s n kind whr) fr := zh.trans ((slip_only s n kind whr).mono zc)

theorem abortRunning_only (s : State) (st : Status) : State.Only s (State.abortRunning s st) [.chest, .tasks] := by
  unfold State.abortRunning
  repeat' first | with_reducible assumption | with_reducible exact .refl _ _ | with_reducible refine only_ite ?_ ?_ | with_reducible refine only_each ?_ (fun _ _ _ => ?_) | with_reducible refine only_detect ?_ (by decide) | split | dsimp only

theorem only_abortRunning {z : State} {fr : List Comp} {s : State} {st : Status} (zh : State.Only z s fr) (zc : ∀ c ∈ ([.chest, .tasks] : List Comp), c ∈ fr) :
    State.Only z (State.abortRunning s st) fr := zh.trans ((abortRunning_only s st).mono zc)

theorem sendAborts_only (s : State) : State.Only s (State.sendAborts s) [.tasks, .out] := by
  unfold State.sendAborts
  repeat' first | with_reducible assumption | with_reducible exact .refl _ _ | with_reducible refine only_ite ?_ ?_ | with_reducible refine only_each ?_ (fun _ _ _ => ?_) | with_reducible refine only_foldl ?_ (fun _ _ _ => ?_) | with_reducible refine only_foldl2 ?_ (fun _ _ _ => ?_) | with_reducible refine only_updTask ?_ (by decide) | with_reducible refine only_emit ?_ (by decide) | split | dsimp only

theorem only_sendAborts {z : State} {fr : List Comp} {s : State} (zh : State.Only z s fr) (zc : ∀ c ∈ ([.tasks, .out] : List Comp), c ∈ fr) :
    State.Only z (State.sendAborts s) fr := zh.trans ((sendAborts_only s).mono zc)

theorem startMeasure_only (s : State) : State.Only s (State.startMeasure s) [.fret, .out] := by
  unfold State.startMeasure
  repeat' first | with_reducible assumption | with_reducible exact .refl _ _ | with_reducible refine only_ite ?_ ?_ | with_reducible refine only_when ?_ ?_ | with_reducible refine only_each ?_ (fun _ _ _ => ?_) | with_reducible refine only_modFret ?_ (by decide) | with_reducible refine only_updFlight ?_ (by decide) | with_reducible refine only_emit ?_ (by decide) | split | dsimp only

theorem only_startMeasure {z : State} {fr : List Comp} {s : State} (zh : State.Only z s fr) (zc : ∀ c ∈ ([.fret, .out] : List Comp), c ∈ fr) :
    State.Only z (State.startMeasure s) fr := zh.trans ((startMeasure_only s).mono zc)

theorem measureFlights_only (s : State) : State.Only s (State.measureFlights s) [.fret, .out] := by
  unfold State.measureFlights
  repeat' first | with_reducible assumption | with_reducible exact .refl _ _ | with_reducible refine only_ite ?_ ?_ | with_reducible refine only_when ?_ ?_ | with_reducible refine only_startMeasure ?_ (by decide) | split | dsimp only

theorem only_measureFlights {z : State} {fr : List Comp} {s : State} (zh : State.Only z s fr) (zc : ∀ c ∈ ([.fret, .out] : List Comp), c ∈ fr) :
    State.Only z (State.measureFlights s) fr := zh.trans ((measureFlights_only s).mono zc)

theorem endMeasure_only (s : State) : State.Only s (State.endMeasure s) [.fret] := by
  unfold State.endMeasure
  repeat' first | with_reducible assumption | with_reducible exact .refl _ _ | with_reducible refine only_ite ?_ ?_ | with_reducible refine only_when ?_ ?_ | with_reducible refine only_modFret ?_ (by decide) | split | dsimp only

theorem only_endMeasure {z : State} {fr : List Comp} {s : State} (zh : State.Only z s fr) (zc : ∀ c ∈ ([.fret] : List Comp), c ∈ fr) :
    State.Only z (State.endMeasure s) fr := zh.trans ((endMeasure_only s).mono zc)

theorem flightDown_only (s : State) (p : Nat) : State.Only s (State.flightDown s p) [.fret] := by
  unfold State.flightDown
  repeat' first | with_reducible assumption | with_reducible exact .refl _ _ | with_reducible refine only_ite ?_ ?_ | with_reducible refine only_when ?_ ?_ | with_reducible refine only_updFlight ?_ (by decide) | with_reducible refine only_endMeasure ?_ (by decide) | split | dsimp only

theorem only_flightDown {z : State} {fr : List Comp} {s : State} {p : Nat} (zh : State.Only z s fr) (zc : ∀ c ∈ ([.fret] : List Comp), c ∈ fr) :
    State.Only z (State.flightDown s p) fr := zh.trans ((flightDown_only s p).mono zc)

theorem toMember_only (s : State) : State.Only s (State.toMember s) [.clk, .fret] := by
  unfold State.toMember
  repeat' first | with_reducible assumption | with_reducible exact .refl _ _ | with_reducible refine only_ite ?_ ?_ | with_reducible refine only_when ?_ ?_ | with_reducible refine only_modClk ?_ (by decide) | with_reducible refine only_modFret ?_ (by decide) | split | dsimp only

theorem only_toMember {z : State} {fr : List Comp} {s : State} (zh : State.Only z s fr) (zc : ∀ c ∈ ([.clk, .fret] : List Comp), c ∈ fr) :
    State.Only z (State.toMember s) fr := zh.trans ((toMember_only s).mono zc)

theorem toTrack_only (s : State) : State.Only s (State.toTrack s) [.fret] := by
  unfold State.toTrack
  repeat' first | with_reducible assumption | with_reducible exact .refl _ _ | with_reducible refine only_ite ?_ ?_ | with_reducible refine only_modFret ?_ (by decide) | split | dsimp only

theorem only_toTrack {z : State} {fr : List Comp} {s : State} (zh : State.Only z s fr) (zc : ∀ c ∈ ([.fret] : List Comp), c ∈ fr) :
    State.Only z (State.toTrack s) fr := zh.trans ((toTrack_only s).mono zc)

theorem loseAlign_only (s : State) : State.Only s (State.loseAlign s) [.top, .fret, .chest, .tasks, .out] := by
  unfold State.loseAlign
  repeat' first | with_reducible assumption | with_reducible exact .refl _ _ | with_reducible refine only_ite ?_ ?_ | with_reducible refine only_fretFlag ?_ (by decide) | with_reducible refine only_abortRunning ?_ (by decide) | with_reducible refine only_toTrack ?_ (by decide) | split | dsimp only

theorem only_loseAlign {z : State} {fr : List Comp} {s : State} (zh : State.Only z s fr) (zc : ∀ c ∈ ([.top, .fret, .chest, .tasks, .out] : List Comp), c ∈ fr) :
    State.Only z (State.loseAlign s) fr := zh.trans ((loseAlign_only s).mono zc)

theorem reload_only (s : State) (b : Beacon) (flight : Nat) : State.Only s (State.reload s b flight) [.fret] := by
  unfold State.reload
  repeat' first | with_reducible assumption | with_reducible exact .refl _ _ | with_reducible refine only_ite ?_ ?_ | with_reducible refine only_modFret ?_ (by decide) | split | dsimp only

theorem only_reload {z : State} {fr : List Comp} {s : State} {b : Beacon} {flight : Nat} (zh : State.Only z s fr) (zc : ∀ c ∈ ([.fret] : List Comp), c ∈ fr) :
    State.Only z (State.reload s b flight) fr := zh.trans ((reload_only s b flight).mono zc)

theorem retrim_only (s : State) : State.Only s (State.retrim s) [.fret, .free] := by
  unfold State.retrim
  repeat' first | with_reducible assumption | with_reducible exact .refl _ _ | with_reducible refine only_ite ?_ ?_ | with_reducible refine only_modFret ?_ (by decide) | with_reducible refine only_freeVal ?_ (by decide) | split | dsimp only

theorem only_retrim {z : State} {fr : List Comp} {s : State} (zh : State.Only z s fr) (zc : ∀ c ∈ ([.fret, .free] : List Comp), c ∈ fr) :
    State.Only z (State.retrim s) fr := zh.trans ((retrim_only s).mono zc)

theorem judge_only (s : State) (b : Beacon) (flight : Nat) (e : Int) (east : Int) : State.Only s (State.judge s b flight e east) [.top, .clk, .fret, .chest, .tasks, .out, .free] := by
  unfold State.judge
  repeat' first | with_reducible assumption | with_reducible exact .refl _ _ | with_reducible refine only_ite ?_ ?_ | with_reducible refine only_when ?_ ?_ | with_reducible refine only_modFret ?_ (by decide) | with_reducible refine only_toMember ?_ (by decide) | with_reducible refine only_toTrack ?_ (by decide) | with_reducible refine only_loseAlign ?_ (by decide) | with_reducible refine only_reload ?_ (by decide) | with_reducible refine only_retrim ?_ (by decide) | split | dsimp only

theorem only_judge {z : State} {fr : List Comp} {s : State} {b : Beacon} {flight : Nat} {e : Int} {east : Int} (zh : State.Only z s fr) (zc : ∀ c ∈ ([.top, .clk, .fret, .chest, .tasks, .out, .free] : List Comp), c ∈ fr) :
    State.Only z (State.judge s b flight e east) fr := zh.trans ((judge_only s b flight e east).mono zc)

theorem writeFretDomain_only (s : State) (v : Word) : State.Only s (State.writeFretDomain s v) [.clk, .fret, .chest, .tasks] := by
  unfold State.writeFretDomain
  repeat' first | with_reducible assumption | with_reducible exact .refl _ _ | with_reducible refine only_ite ?_ ?_ | with_reducible refine only_when ?_ ?_ | with_reducible refine only_modFret ?_ (by decide) | with_reducible refine only_abortRunning ?_ (by decide) | with_reducible refine only_toMember ?_ (by decide) | split | dsimp only

theorem only_writeFretDomain {z : State} {fr : List Comp} {s : State} {v : Word} (zh : State.Only z s fr) (zc : ∀ c ∈ ([.clk, .fret, .chest, .tasks] : List Comp), c ∈ fr) :
    State.Only z (State.writeFretDomain s v) fr := zh.trans ((writeFretDomain_only s v).mono zc)

theorem writeFlight_only (s : State) (p : Fin 17) (v : Word) : State.Only s (State.writeFlight s p v) [.fret, .out] := by
  unfold State.writeFlight
  repeat' first | with_reducible assumption | with_reducible exact .refl _ _ | with_reducible refine only_ite ?_ ?_ | with_reducible refine only_when ?_ ?_ | with_reducible refine only_updFlight ?_ (by decide) | with_reducible refine only_measureFlights ?_ (by decide) | split | dsimp only

theorem only_writeFlight {z : State} {fr : List Comp} {s : State} {p : Fin 17} {v : Word} (zh : State.Only z s fr) (zc : ∀ c ∈ ([.fret, .out] : List Comp), c ∈ fr) :
    State.Only z (State.writeFlight s p v) fr := zh.trans ((writeFlight_only s p v).mono zc)

theorem loadFlight_only (s : State) (p : Nat) (xs : List Exchange) : State.Only s (State.loadFlight s p xs) [.fret] := by
  unfold State.loadFlight
  repeat' first | with_reducible assumption | with_reducible exact .refl _ _ | with_reducible refine only_ite ?_ ?_ | with_reducible refine only_updFlight ?_ (by decide) | split | dsimp only

theorem only_loadFlight {z : State} {fr : List Comp} {s : State} {p : Nat} {xs : List Exchange} (zh : State.Only z s fr) (zc : ∀ c ∈ ([.fret] : List Comp), c ∈ fr) :
    State.Only z (State.loadFlight s p xs) fr := zh.trans ((loadFlight_only s p xs).mono zc)

theorem sendRequest_only (s : State) (chip : BitVec 10) (req : BitVec 6) : State.Only s (State.sendRequest s chip req) [.fret, .out] := by
  unfold State.sendRequest
  repeat' first | with_reducible assumption | with_reducible exact .refl _ _ | with_reducible refine only_ite ?_ ?_ | with_reducible refine only_modFret ?_ (by decide) | with_reducible refine only_emit ?_ (by decide) | split | dsimp only

theorem only_sendRequest {z : State} {fr : List Comp} {s : State} {chip : BitVec 10} {req : BitVec 6} (zh : State.Only z s fr) (zc : ∀ c ∈ ([.fret, .out] : List Comp), c ∈ fr) :
    State.Only z (State.sendRequest s chip req) fr := zh.trans ((sendRequest_only s chip req).mono zc)

theorem forwardAnnounce_only (s : State) (a : Announce) : State.Only s (State.forwardAnnounce s a) [.out] := by
  unfold State.forwardAnnounce
  repeat' first | with_reducible assumption | with_reducible exact .refl _ _ | with_reducible refine only_ite ?_ ?_ | with_reducible refine only_each ?_ (fun _ _ _ => ?_) | with_reducible refine only_emit ?_ (by decide) | split | dsimp only

theorem only_forwardAnnounce {z : State} {fr : List Comp} {s : State} {a : Announce} (zh : State.Only z s fr) (zc : ∀ c ∈ ([.out] : List Comp), c ∈ fr) :
    State.Only z (State.forwardAnnounce s a) fr := zh.trans ((forwardAnnounce_only s a).mono zc)

theorem putReport_only (s : State) (kind : Nat) (body : List Byte) : State.Only s (State.putReport s kind body) [.tel] := by
  unfold State.putReport
  repeat' first | with_reducible assumption | with_reducible exact .refl _ _ | with_reducible refine only_ite ?_ ?_ | with_reducible refine only_when ?_ ?_ | with_reducible refine only_modTel ?_ (by decide) | split | dsimp only

theorem only_putReport {z : State} {fr : List Comp} {s : State} {kind : Nat} {body : List Byte} (zh : State.Only z s fr) (zc : ∀ c ∈ ([.tel] : List Comp), c ∈ fr) :
    State.Only z (State.putReport s kind body) fr := zh.trans ((putReport_only s kind body).mono zc)

theorem stretchReport_only (s : State) (eff : U64) (old : BitVec 6) (new : BitVec 6) : State.Only s (State.stretchReport s eff old new) [.tel] := by
  unfold State.stretchReport
  repeat' first | with_reducible assumption | with_reducible exact .refl _ _ | with_reducible refine only_ite ?_ ?_ | with_reducible refine only_when ?_ ?_ | with_reducible refine only_putReport ?_ (by decide) | split | dsimp only

theorem only_stretchReport {z : State} {fr : List Comp} {s : State} {eff : U64} {old : BitVec 6} {new : BitVec 6} (zh : State.Only z s fr) (zc : ∀ c ∈ ([.tel] : List Comp), c ∈ fr) :
    State.Only z (State.stretchReport s eff old new) fr := zh.trans ((stretchReport_only s eff old new).mono zc)

theorem writeClkChange_only (s : State) (v : Word) : State.Only s (State.writeClkChange s v) [.clk, .fret, .out] := by
  unfold State.writeClkChange
  repeat' first | with_reducible assumption | with_reducible exact .refl _ _ | with_reducible refine only_ite ?_ ?_ | with_reducible refine only_when ?_ ?_ | with_reducible refine only_modClk ?_ (by decide) | with_reducible refine only_modFret ?_ (by decide) | with_reducible refine only_forwardAnnounce ?_ (by decide) | split | dsimp only

theorem only_writeClkChange {z : State} {fr : List Comp} {s : State} {v : Word} (zh : State.Only z s fr) (zc : ∀ c ∈ ([.clk, .fret, .out] : List Comp), c ∈ fr) :
    State.Only z (State.writeClkChange s v) fr := zh.trans ((writeClkChange_only s v).mono zc)

theorem writeClkHalf_only (s : State) (v : Word) : State.Only s (State.writeClkHalf s v) [.clk, .fret] := by
  unfold State.writeClkHalf
  repeat' first | with_reducible assumption | with_reducible exact .refl _ _ | with_reducible refine only_ite ?_ ?_ | with_reducible refine only_when ?_ ?_ | with_reducible refine only_modClk ?_ (by decide) | with_reducible refine only_modFret ?_ (by decide) | split | dsimp only

theorem only_writeClkHalf {z : State} {fr : List Comp} {s : State} {v : Word} (zh : State.Only z s fr) (zc : ∀ c ∈ ([.clk, .fret] : List Comp), c ∈ fr) :
    State.Only z (State.writeClkHalf s v) fr := zh.trans ((writeClkHalf_only s v).mono zc)

theorem keepEarly_only (s : State) (n : BitVec 32) (a : AbortSt) : State.Only s (State.keepEarly s n a) [.fret] := by
  unfold State.keepEarly
  repeat' first | with_reducible assumption | with_reducible exact .refl _ _ | with_reducible refine only_ite ?_ ?_ | with_reducible refine only_when ?_ ?_ | with_reducible refine only_modFret ?_ (by decide) | split | dsimp only

theorem only_keepEarly {z : State} {fr : List Comp} {s : State} {n : BitVec 32} {a : AbortSt} (zh : State.Only z s fr) (zc : ∀ c ∈ ([.fret] : List Comp), c ∈ fr) :
    State.Only z (State.keepEarly s n a) fr := zh.trans ((keepEarly_only s n a).mono zc)

theorem noteErrs_only (s : State) (errs : List (Nat × BitErr)) : State.Only s (State.noteErrs s errs) [.hbm] := by
  unfold State.noteErrs
  refine only_modHbm (.refl _ _) (by decide) fun h => ?_
  simp only [State.memForm, Bool.and_eq_true] at h ⊢
  exact ⟨h.1, noteErr_wf _ _ h.2⟩

theorem only_noteErrs {z : State} {fr : List Comp} {s : State} {errs : List (Nat × BitErr)}
    (zh : State.Only z s fr) (zc : ∀ c ∈ ([.hbm] : List Comp), c ∈ fr) :
    State.Only z (State.noteErrs s errs) fr := zh.trans ((noteErrs_only s errs).mono zc)

theorem recordUe_only (s : State) (sec : Nat) (cause : BitVec 2) : State.Only s (State.recordUe s sec cause) [.top, .rel, .chest, .parts, .out] := by
  unfold State.recordUe
  repeat' first | with_reducible assumption | with_reducible exact .refl _ _ | with_reducible refine only_ite ?_ ?_ | with_reducible refine only_when ?_ ?_ | with_reducible refine only_modRel ?_ (by decide) | with_reducible refine only_updPart ?_ (by decide) | with_reducible refine only_recordAt ?_ (by decide) | with_reducible refine only_attn ?_ (by decide) | split | dsimp only

theorem only_recordUe {z : State} {fr : List Comp} {s : State} {sec : Nat} {cause : BitVec 2} (zh : State.Only z s fr) (zc : ∀ c ∈ ([.top, .rel, .chest, .parts, .out] : List Comp), c ∈ fr) :
    State.Only z (State.recordUe s sec cause) fr := zh.trans ((recordUe_only s sec cause).mono zc)

theorem enqueueReq_only (s : State) (p : Nat) (r : HbmReq) : State.Only s (State.enqueueReq s p r) [.hbm, .parts] := by
  unfold State.enqueueReq
  exact only_modHbm (only_updPart (.refl _ _) (by decide)) (by decide) id

theorem only_enqueueReq {z : State} {fr : List Comp} {s : State} {p : Nat} {r : HbmReq} (zh : State.Only z s fr)
    (zc : ∀ c ∈ ([.hbm, .parts] : List Comp), c ∈ fr) : State.Only z (State.enqueueReq s p r) fr :=
  zh.trans ((enqueueReq_only s p r).mono zc)

theorem enqueueUn_only (s : State) (p : Nat) (r : HbmReq) : State.Only s (State.enqueueUn s p r) [.hbm, .parts] := by
  unfold State.enqueueUn
  repeat' first | with_reducible assumption | with_reducible exact .refl _ _ | with_reducible refine only_ite ?_ ?_ | with_reducible refine only_updPart ?_ (by decide) | with_reducible refine only_enqueueReq ?_ (by decide) | split | dsimp only

theorem only_enqueueUn {z : State} {fr : List Comp} {s : State} {p : Nat} {r : HbmReq} (zh : State.Only z s fr) (zc : ∀ c ∈ ([.hbm, .parts] : List Comp), c ∈ fr) :
    State.Only z (State.enqueueUn s p r) fr := zh.trans ((enqueueUn_only s p r).mono zc)

theorem refill_only (s : State) (p : Nat) : State.Only s (State.refill s p) [.hbm, .parts] := by
  unfold State.refill
  repeat' first | with_reducible assumption | with_reducible exact .refl _ _ | with_reducible refine only_ite ?_ ?_ | with_reducible refine only_each ?_ (fun _ _ _ => ?_) | with_reducible refine only_updPart ?_ (by decide) | with_reducible refine only_enqueueUn ?_ (by decide) | split | dsimp only

theorem only_refill {z : State} {fr : List Comp} {s : State} {p : Nat} (zh : State.Only z s fr) (zc : ∀ c ∈ ([.hbm, .parts] : List Comp), c ∈ fr) :
    State.Only z (State.refill s p) fr := zh.trans ((refill_only s p).mono zc)

theorem checkSector_only (s : State) (sec : Nat) : State.Only s (State.checkSector s sec).2 [.top, .rel, .chest, .hbm, .parts, .out] := by
  unfold State.checkSector
  repeat' first | with_reducible assumption | with_reducible exact .refl _ _ | with_reducible refine only_ite ?_ ?_ | with_reducible refine only_updPart ?_ (by decide) | with_reducible refine only_recordUe ?_ (by decide) | with_reducible refine only_enqueueUn ?_ (by decide) | split | dsimp only

theorem only_checkSector {z : State} {fr : List Comp} {s : State} {sec : Nat} (zh : State.Only z s fr) (zc : ∀ c ∈ ([.top, .rel, .chest, .hbm, .parts, .out] : List Comp), c ∈ fr) :
    State.Only z (State.checkSector s sec).2 fr := zh.trans ((checkSector_only s sec).mono zc)

theorem checkRange_only (s : State) (a : Nat) (n : Nat) : State.Only s (State.checkRange s a n).2 [.top, .rel, .chest, .hbm, .parts, .out] := by
  unfold State.checkRange
  repeat' first | with_reducible assumption | with_reducible exact .refl _ _ | with_reducible refine only_ite ?_ ?_ | with_reducible refine only_foldl ?_ (fun _ _ _ => ?_) | with_reducible refine only_foldl2 ?_ (fun _ _ _ => ?_) | with_reducible refine only_checkSector ?_ (by decide) | split | dsimp only

theorem only_checkRange {z : State} {fr : List Comp} {s : State} {a : Nat} {n : Nat} (zh : State.Only z s fr) (zc : ∀ c ∈ ([.top, .rel, .chest, .hbm, .parts, .out] : List Comp), c ∈ fr) :
    State.Only z (State.checkRange s a n).2 fr := zh.trans ((checkRange_only s a n).mono zc)

theorem dropWriteBack_only (s : State) (sec : Nat) : State.Only s (State.dropWriteBack s sec) [.parts] := by
  unfold State.dropWriteBack
  repeat' first | with_reducible assumption | with_reducible exact .refl _ _ | with_reducible refine only_ite ?_ ?_ | with_reducible refine only_updPart ?_ (by decide) | split | dsimp only

theorem only_dropWriteBack {z : State} {fr : List Comp} {s : State} {sec : Nat} (zh : State.Only z s fr) (zc : ∀ c ∈ ([.parts] : List Comp), c ∈ fr) :
    State.Only z (State.dropWriteBack s sec) fr := zh.trans ((dropWriteBack_only s sec).mono zc)

theorem hbmStore_only (s : State) (a : Nat) (bs : List Byte) (wrong : List Nat) :
    State.Only s (State.hbmStore s a bs wrong) [.hbm, .parts] := by
  unfold State.hbmStore
  refine only_each (only_modHbm (.refl _ _) (by decide) fun h => ?_) fun _ _ h => only_dropWriteBack h (by decide)
  simp only [State.memForm, Bool.and_eq_true] at h ⊢
  exact ⟨Mem.wf_write _ _ _ h.1, badWf_fold _ _ _ h.2⟩

theorem only_hbmStore {z : State} {fr : List Comp} {s : State} {a : Nat} {bs : List Byte} {wrong : List Nat}
    (zh : State.Only z s fr) (zc : ∀ c ∈ ([.hbm, .parts] : List Comp), c ∈ fr) :
    State.Only z (State.hbmStore s a bs wrong) fr := zh.trans ((hbmStore_only s a bs wrong).mono zc)

theorem sectorStore_only (s : State) (a : Nat) (bs : List Byte) (wrong : Bool) : State.Only s (State.sectorStore s a bs wrong) [.top, .rel, .chest, .hbm, .parts, .out] := by
  unfold State.sectorStore
  repeat' first | with_reducible assumption | with_reducible exact .refl _ _ | with_reducible refine only_ite ?_ ?_ | with_reducible refine only_when ?_ ?_ | with_reducible refine only_recordUe ?_ (by decide) | with_reducible refine only_hbmStore ?_ (by decide) | split | dsimp only

theorem only_sectorStore {z : State} {fr : List Comp} {s : State} {a : Nat} {bs : List Byte} {wrong : Bool} (zh : State.Only z s fr) (zc : ∀ c ∈ ([.top, .rel, .chest, .hbm, .parts, .out] : List Comp), c ∈ fr) :
    State.Only z (State.sectorStore s a bs wrong) fr := zh.trans ((sectorStore_only s a bs wrong).mono zc)

theorem hbmPartWrite_only (s : State) (a : Nat) (bs : List Byte) (wrong : Bool) : State.Only s (State.hbmPartWrite s a bs wrong) [.top, .rel, .chest, .hbm, .parts, .out] := by
  unfold State.hbmPartWrite
  repeat' first | with_reducible assumption | with_reducible exact .refl _ _ | with_reducible refine only_ite ?_ ?_ | with_reducible refine only_checkSector ?_ (by decide) | with_reducible refine only_sectorStore ?_ (by decide) | split | dsimp only

theorem only_hbmPartWrite {z : State} {fr : List Comp} {s : State} {a : Nat} {bs : List Byte} {wrong : Bool} (zh : State.Only z s fr) (zc : ∀ c ∈ ([.top, .rel, .chest, .hbm, .parts, .out] : List Comp), c ∈ fr) :
    State.Only z (State.hbmPartWrite s a bs wrong) fr := zh.trans ((hbmPartWrite_only s a bs wrong).mono zc)

theorem hbmWrite_only (s : State) (a : Nat) (bs : List Byte) (wrong : List Nat) : State.Only s (State.hbmWrite s a bs wrong) [.top, .rel, .chest, .hbm, .parts, .out] := by
  unfold State.hbmWrite
  repeat' first | with_reducible assumption | with_reducible exact .refl _ _ | with_reducible refine only_ite ?_ ?_ | with_reducible refine only_foldl ?_ (fun _ _ _ => ?_) | with_reducible refine only_foldl2 ?_ (fun _ _ _ => ?_) | with_reducible refine only_sectorStore ?_ (by decide) | with_reducible refine only_hbmPartWrite ?_ (by decide) | split | dsimp only

theorem only_hbmWrite {z : State} {fr : List Comp} {s : State} {a : Nat} {bs : List Byte} {wrong : List Nat} (zh : State.Only z s fr) (zc : ∀ c ∈ ([.top, .rel, .chest, .hbm, .parts, .out] : List Comp), c ∈ fr) :
    State.Only z (State.hbmWrite s a bs wrong) fr := zh.trans ((hbmWrite_only s a bs wrong).mono zc)

theorem failArm_only (s : State) (n : BitVec 32) (st : Status) : State.Only s (State.failArm s n st) [.tasks] := by
  unfold State.failArm
  repeat' first | with_reducible assumption | with_reducible exact .refl _ _ | with_reducible refine only_ite ?_ ?_ | with_reducible refine only_updTask ?_ (by decide) | split | dsimp only

theorem only_failArm {z : State} {fr : List Comp} {s : State} {n : BitVec 32} {st : Status} (zh : State.Only z s fr) (zc : ∀ c ∈ ([.tasks] : List Comp), c ∈ fr) :
    State.Only z (State.failArm s n st) fr := zh.trans ((failArm_only s n st).mono zc)

theorem latchSides_only (s : State) (n : BitVec 32) : State.Only s (State.latchSides s n) [.tasks] := by
  unfold State.latchSides
  repeat' first | with_reducible assumption | with_reducible exact .refl _ _ | with_reducible refine only_ite ?_ ?_ | with_reducible refine only_foldl ?_ (fun _ _ _ => ?_) | with_reducible refine only_foldl2 ?_ (fun _ _ _ => ?_) | with_reducible refine only_updTask ?_ (by decide) | split | dsimp only

theorem only_latchSides {z : State} {fr : List Comp} {s : State} {n : BitVec 32} (zh : State.Only z s fr) (zc : ∀ c ∈ ([.tasks] : List Comp), c ∈ fr) :
    State.Only z (State.latchSides s n) fr := zh.trans ((latchSides_only s n).mono zc)

theorem updRt_only (s : State) (pt : Nat) (fold : Nat) (f : FoldRt → FoldRt) : State.Only s (State.updRt s pt fold f) [.tiles] := by
  unfold State.updRt
  repeat' first | with_reducible assumption | with_reducible exact .refl _ _ | with_reducible refine only_ite ?_ ?_ | with_reducible refine only_updTile ?_ (by decide) | split | dsimp only

theorem only_updRt {z : State} {fr : List Comp} {s : State} {pt : Nat} {fold : Nat} {f : FoldRt → FoldRt} (zh : State.Only z s fr) (zc : ∀ c ∈ ([.tiles] : List Comp), c ∈ fr) :
    State.Only z (State.updRt s pt fold f) fr := zh.trans ((updRt_only s pt fold f).mono zc)

theorem sendWords_only (s : State) (lt : Nat) (task : BitVec 32) (e : EdgeOut) (words : List (List Byte)) (bad : Bool) : State.Only s (State.sendWords s lt task e words bad) [.out] := by
  unfold State.sendWords
  repeat' first | with_reducible assumption | with_reducible exact .refl _ _ | with_reducible refine only_ite ?_ ?_ | with_reducible refine only_emit ?_ (by decide) | split | dsimp only

theorem only_sendWords {z : State} {fr : List Comp} {s : State} {lt : Nat} {task : BitVec 32} {e : EdgeOut} {words : List (List Byte)} {bad : Bool} (zh : State.Only z s fr) (zc : ∀ c ∈ ([.out] : List Comp), c ∈ fr) :
    State.Only z (State.sendWords s lt task e words bad) fr := zh.trans ((sendWords_only s lt task e words bad).mono zc)

theorem sendCredits_only (s : State) (lt : Nat) (task : BitVec 32) (e : EdgeIn) (n : Nat) : State.Only s (State.sendCredits s lt task e n) [.out] := by
  unfold State.sendCredits
  repeat' first | with_reducible assumption | with_reducible exact .refl _ _ | with_reducible refine only_ite ?_ ?_ | with_reducible refine only_when ?_ ?_ | with_reducible refine only_emit ?_ (by decide) | split | dsimp only

theorem only_sendCredits {z : State} {fr : List Comp} {s : State} {lt : Nat} {task : BitVec 32} {e : EdgeIn} {n : Nat} (zh : State.Only z s fr) (zc : ∀ c ∈ ([.out] : List Comp), c ∈ fr) :
    State.Only z (State.sendCredits s lt task e n) fr := zh.trans ((sendCredits_only s lt task e n).mono zc)

theorem dropWords_only (s : State) (lt : Nat) (fold : Nat) (input : Nat) (n : Nat) : State.Only s (State.dropWords s lt fold input n) [.tiles, .out] := by
  unfold State.dropWords
  repeat' first | with_reducible assumption | with_reducible exact .refl _ _ | with_reducible refine only_ite ?_ ?_ | with_reducible refine only_updRt ?_ (by decide) | with_reducible refine only_sendCredits ?_ (by decide) | split | dsimp only

theorem only_dropWords {z : State} {fr : List Comp} {s : State} {lt : Nat} {fold : Nat} {input : Nat} {n : Nat} (zh : State.Only z s fr) (zc : ∀ c ∈ ([.tiles, .out] : List Comp), c ∈ fr) :
    State.Only z (State.dropWords s lt fold input n) fr := zh.trans ((dropWords_only s lt fold input n).mono zc)

theorem popWords_only {s t : State} {lt fold input n : Nat} {ws : List QWord} (h : s.popWords lt fold input n = some (ws, t)) :
    s.Only t [.tiles, .out] := by
  unfold State.popWords at h
  dsimp only at h
  split at h
  · simp at h
  · obtain ⟨-, rfl⟩ := Prod.mk.inj (Option.some.inj h); exact dropWords_only s lt fold input n

theorem only_popWords {z s t : State} {fr : List Comp} {lt fold input n : Nat} {ws : List QWord}
    (h : s.popWords lt fold input n = some (ws, t)) (zh : z.Only s fr) (zc : ∀ c ∈ ([.tiles, .out] : List Comp), c ∈ fr) :
    z.Only t fr := zh.trans ((popWords_only h).mono zc)

theorem only_popWords_if {z s t : State} {fr : List Comp} {lt fold input n : Nat} {ws : List QWord} {c : Bool}
    (h : (if c = true then s.popWords lt fold input n else none) = some (ws, t)) (zh : z.Only s fr)
    (zc : ∀ c ∈ ([.tiles, .out] : List Comp), c ∈ fr) : z.Only t fr := by
  split at h
  · exact only_popWords h zh zc
  · simp at h

theorem noticeTo_only (s : State) (port : HostPort) (type : Nat) (st : Status) (detail : Nat) (n : Nat) (x : Nat) : State.Only s (State.noticeTo s port type st detail n x) [.top, .pcie, .out] := by
  unfold State.noticeTo
  repeat' first | with_reducible assumption | with_reducible exact .refl _ _ | with_reducible refine only_ite ?_ ?_ | with_reducible refine only_when ?_ ?_ | with_reducible refine only_updPcie ?_ (by decide) | with_reducible refine only_emit ?_ (by decide) | with_reducible refine only_attnOn ?_ (by decide) | split | dsimp only

theorem only_noticeTo {z : State} {fr : List Comp} {s : State} {port : HostPort} {type : Nat} {st : Status} {detail : Nat} {n : Nat} {x : Nat} (zh : State.Only z s fr) (zc : ∀ c ∈ ([.top, .pcie, .out] : List Comp), c ∈ fr) :
    State.Only z (State.noticeTo s port type st detail n x) fr := zh.trans ((noticeTo_only s port type st detail n x).mono zc)

theorem notice_only (s : State) (n : Nat) (type : Nat) (st : Status) (detail : Nat) (x : Nat) : State.Only s (State.notice s n type st detail x) [.top, .pcie, .out] := by
  unfold State.notice
  repeat' first | with_reducible assumption | with_reducible exact .refl _ _ | with_reducible refine only_ite ?_ ?_ | with_reducible refine only_noticeTo ?_ (by decide) | split | dsimp only

theorem only_notice {z : State} {fr : List Comp} {s : State} {n : Nat} {type : Nat} {st : Status} {detail : Nat} {x : Nat} (zh : State.Only z s fr) (zc : ∀ c ∈ ([.top, .pcie, .out] : List Comp), c ∈ fr) :
    State.Only z (State.notice s n type st detail x) fr := zh.trans ((notice_only s n type st detail x).mono zc)

theorem transmit_only (s : State) (n : Nat) (w : Waiting) : State.Only s (State.transmit s n w) [.mch, .out] := by
  unfold State.transmit
  repeat' first | with_reducible assumption | with_reducible exact .refl _ _ | with_reducible refine only_ite ?_ ?_ | with_reducible refine only_updConn ?_ (by decide) | with_reducible refine only_emit ?_ (by decide) | split | dsimp only

theorem only_transmit {z : State} {fr : List Comp} {s : State} {n : Nat} {w : Waiting} (zh : State.Only z s fr) (zc : ∀ c ∈ ([.mch, .out] : List Comp), c ∈ fr) :
    State.Only z (State.transmit s n w) fr := zh.trans ((transmit_only s n w).mono zc)

theorem markIfDone_only (s : State) (n : Nat) : State.Only s (State.markIfDone s n) [.mch, .out] := by
  unfold State.markIfDone
  repeat' first | with_reducible assumption | with_reducible exact .refl _ _ | with_reducible refine only_ite ?_ ?_ | with_reducible refine only_updConn ?_ (by decide) | with_reducible refine only_emit ?_ (by decide) | split | dsimp only

theorem only_markIfDone {z : State} {fr : List Comp} {s : State} {n : Nat} (zh : State.Only z s fr) (zc : ∀ c ∈ ([.mch, .out] : List Comp), c ∈ fr) :
    State.Only z (State.markIfDone s n) fr := zh.trans ((markIfDone_only s n).mono zc)

theorem refuse_only (s : State) (n : Nat) (st : Status) (detail : BitVec 4) : State.Only s (State.refuse s n st detail) [.mch] := by
  unfold State.refuse
  repeat' first | with_reducible assumption | with_reducible exact .refl _ _ | with_reducible refine only_ite ?_ ?_ | with_reducible refine only_updConn ?_ (by decide) | split | dsimp only

theorem only_refuse {z : State} {fr : List Comp} {s : State} {n : Nat} {st : Status} {detail : BitVec 4} (zh : State.Only z s fr) (zc : ∀ c ∈ ([.mch] : List Comp), c ∈ fr) :
    State.Only z (State.refuse s n st detail) fr := zh.trans ((refuse_only s n st detail).mono zc)

theorem flushConn_only (k : Nat) (s : State) (n : Nat) : s.Only (State.flushConn k s n) [.mch, .out] := by
  induction k generalizing s with
  | zero => exact only_markIfDone (.refl _ _) (by decide)
  | succ k ih =>
    unfold State.flushConn
    dsimp only
    split
    · exact only_markIfDone (.refl _ _) (by decide)
    · refine only_ite ?_ (only_ite ?_ (.refl _ _))
      · exact .trans (only_refuse (only_updConn (.refl _ _) (by decide)) (by decide)) (ih _)
      · exact .trans (only_transmit (only_updConn (.refl _ _) (by decide)) (by decide)) (ih _)

theorem only_flushConn {z s : State} {fr : List Comp} {k n : Nat} (zh : z.Only s fr)
    (zc : ∀ c ∈ ([.mch, .out] : List Comp), c ∈ fr) : z.Only (State.flushConn k s n) fr :=
  zh.trans ((flushConn_only k s n).mono zc)

theorem flush_only (s : State) (n : Nat) : State.Only s (State.flush s n) [.mch, .out] := by
  unfold State.flush
  repeat' first | with_reducible assumption | with_reducible exact .refl _ _ | with_reducible refine only_ite ?_ ?_ | with_reducible refine only_flushConn ?_ (by decide) | split | dsimp only

theorem only_flush {z : State} {fr : List Comp} {s : State} {n : Nat} (zh : State.Only z s fr) (zc : ∀ c ∈ ([.mch, .out] : List Comp), c ∈ fr) :
    State.Only z (State.flush s n) fr := zh.trans ((flush_only s n).mono zc)

theorem refuseWaiting_only (s : State) (n : Nat) : State.Only s (State.refuseWaiting s n) [.mch] := by
  unfold State.refuseWaiting
  repeat' first | with_reducible assumption | with_reducible exact .refl _ _ | with_reducible refine only_ite ?_ ?_ | with_reducible refine only_each ?_ (fun _ _ _ => ?_) | with_reducible refine only_updConn ?_ (by decide) | with_reducible refine only_refuse ?_ (by decide) | split | dsimp only

theorem only_refuseWaiting {z : State} {fr : List Comp} {s : State} {n : Nat} (zh : State.Only z s fr) (zc : ∀ c ∈ ([.mch] : List Comp), c ∈ fr) :
    State.Only z (State.refuseWaiting s n) fr := zh.trans ((refuseWaiting_only s n).mono zc)

theorem sendOn_only (s : State) (n : Nat) (kind : BitVec 3) (ep : BitVec 14) (w : Waiting) : State.Only s (State.sendOn s n kind ep w) [.mch, .out] := by
  unfold State.sendOn
  repeat' first | with_reducible assumption | with_reducible exact .refl _ _ | with_reducible refine only_ite ?_ ?_ | with_reducible refine only_updConn ?_ (by decide) | with_reducible refine only_transmit ?_ (by decide) | with_reducible refine only_refuse ?_ (by decide) | split | dsimp only

theorem only_sendOn {z : State} {fr : List Comp} {s : State} {n : Nat} {kind : BitVec 3} {ep : BitVec 14} {w : Waiting} (zh : State.Only z s fr) (zc : ∀ c ∈ ([.mch, .out] : List Comp), c ∈ fr) :
    State.Only z (State.sendOn s n kind ep w) fr := zh.trans ((sendOn_only s n kind ep w).mono zc)

theorem stallFret_only (s : State) : State.Only s (State.stallFret s) [.mch] := by
  unfold State.stallFret
  repeat' first | with_reducible assumption | with_reducible exact .refl _ _ | with_reducible refine only_ite ?_ ?_ | with_reducible refine only_modMch ?_ (by decide) | split | dsimp only

theorem only_stallFret {z : State} {fr : List Comp} {s : State} (zh : State.Only z s fr) (zc : ∀ c ∈ ([.mch] : List Comp), c ∈ fr) :
    State.Only z (State.stallFret s) fr := zh.trans ((stallFret_only s).mono zc)

theorem openConn_only (s : State) (n : Nat) : State.Only s (State.openConn s n) [.top, .mch, .pcie, .out] := by
  unfold State.openConn
  repeat' first | with_reducible assumption | with_reducible exact .refl _ _ | with_reducible refine only_ite ?_ ?_ | with_reducible refine only_updConn ?_ (by decide) | with_reducible refine only_emit ?_ (by decide) | with_reducible refine only_notice ?_ (by decide) | split | dsimp only

theorem only_openConn {z : State} {fr : List Comp} {s : State} {n : Nat} (zh : State.Only z s fr) (zc : ∀ c ∈ ([.top, .mch, .pcie, .out] : List Comp), c ∈ fr) :
    State.Only z (State.openConn s n) fr := zh.trans ((openConn_only s n).mono zc)

theorem closeConn_only (s : State) (n : Nat) : State.Only s (State.closeConn s n) [.mch, .out] := by
  unfold State.closeConn
  repeat' first | with_reducible assumption | with_reducible exact .refl _ _ | with_reducible refine only_ite ?_ ?_ | with_reducible refine only_updConn ?_ (by decide) | with_reducible refine only_flush ?_ (by decide) | split | dsimp only

theorem only_closeConn {z : State} {fr : List Comp} {s : State} {n : Nat} (zh : State.Only z s fr) (zc : ∀ c ∈ ([.mch, .out] : List Comp), c ∈ fr) :
    State.Only z (State.closeConn s n) fr := zh.trans ((closeConn_only s n).mono zc)

theorem closeByReset_only (s : State) (n : Nat) : State.Only s (State.closeByReset s n) [.mch, .out] := by
  unfold State.closeByReset
  repeat' first | with_reducible assumption | with_reducible exact .refl _ _ | with_reducible refine only_ite ?_ ?_ | with_reducible refine only_updConn ?_ (by decide) | with_reducible refine only_flush ?_ (by decide) | with_reducible refine only_closeConn ?_ (by decide) | split | dsimp only

theorem only_closeByReset {z : State} {fr : List Comp} {s : State} {n : Nat} (zh : State.Only z s fr) (zc : ∀ c ∈ ([.mch, .out] : List Comp), c ∈ fr) :
    State.Only z (State.closeByReset s n) fr := zh.trans ((closeByReset_only s n).mono zc)

theorem closeFolds_only (s : State) (p : Nat) : State.Only s (State.closeFolds s p) [.mch, .out] := by
  unfold State.closeFolds
  repeat' first | with_reducible assumption | with_reducible exact .refl _ _ | with_reducible refine only_ite ?_ ?_ | with_reducible refine only_each ?_ (fun _ _ _ => ?_) | with_reducible refine only_closeByReset ?_ (by decide) | split | dsimp only

theorem only_closeFolds {z : State} {fr : List Comp} {s : State} {p : Nat} (zh : State.Only z s fr) (zc : ∀ c ∈ ([.mch, .out] : List Comp), c ∈ fr) :
    State.Only z (State.closeFolds s p) fr := zh.trans ((closeFolds_only s p).mono zc)

theorem peerGone_only (s : State) (n : Nat) : State.Only s (State.peerGone s n) [.mch] := by
  unfold State.peerGone
  repeat' first | with_reducible assumption | with_reducible exact .refl _ _ | with_reducible refine only_ite ?_ ?_ | with_reducible refine only_updConn ?_ (by decide) | with_reducible refine only_refuseWaiting ?_ (by decide) | split | dsimp only

theorem only_peerGone {z : State} {fr : List Comp} {s : State} {n : Nat} (zh : State.Only z s fr) (zc : ∀ c ∈ ([.mch] : List Comp), c ∈ fr) :
    State.Only z (State.peerGone s n) fr := zh.trans ((peerGone_only s n).mono zc)

theorem storeRecord_only (s : State) (q : QueueSt) (r : RecSt) : State.Only s (State.storeRecord s q r) [.top, .rel, .chest, .hbm, .parts, .out] := by
  unfold State.storeRecord
  repeat' first | with_reducible assumption | with_reducible exact .refl _ _ | with_reducible refine only_ite ?_ ?_ | with_reducible refine only_when ?_ ?_ | with_reducible refine only_emit ?_ (by decide) | with_reducible refine only_hbmWrite ?_ (by decide) | split | dsimp only

theorem only_storeRecord {z : State} {fr : List Comp} {s : State} {q : QueueSt} {r : RecSt} (zh : State.Only z s fr) (zc : ∀ c ∈ ([.top, .rel, .chest, .hbm, .parts, .out] : List Comp), c ∈ fr) :
    State.Only z (State.storeRecord s q r) fr := zh.trans ((storeRecord_only s q r).mono zc)

theorem appendRec_only (s : State) (n : Nat) (r : RecSt) : State.Only s (State.appendRec s n r) [.top, .rel, .chest, .mch, .hbm, .parts, .out] := by
  unfold State.appendRec
  repeat' first | with_reducible assumption | with_reducible exact .refl _ _ | with_reducible refine only_ite ?_ ?_ | with_reducible refine only_updQueue ?_ (by decide) | with_reducible refine only_storeRecord ?_ (by decide) | split | dsimp only

theorem only_appendRec {z : State} {fr : List Comp} {s : State} {n : Nat} {r : RecSt} (zh : State.Only z s fr) (zc : ∀ c ∈ ([.top, .rel, .chest, .mch, .hbm, .parts, .out] : List Comp), c ∈ fr) :
    State.Only z (State.appendRec s n r) fr := zh.trans ((appendRec_only s n r).mono zc)

theorem placeRec_only (s : State) (n : Nat) (r : RecSt) : State.Only s (State.placeRec s n r) [.top, .rel, .chest, .mch, .hbm, .parts, .out] := by
  unfold State.placeRec
  repeat' first | with_reducible assumption | with_reducible exact .refl _ _ | with_reducible refine only_ite ?_ ?_ | with_reducible refine only_when ?_ ?_ | with_reducible refine only_updQueue ?_ (by decide) | with_reducible refine only_emit ?_ (by decide) | with_reducible refine only_appendRec ?_ (by decide) | split | dsimp only

theorem only_placeRec {z : State} {fr : List Comp} {s : State} {n : Nat} {r : RecSt} (zh : State.Only z s fr) (zc : ∀ c ∈ ([.top, .rel, .chest, .mch, .hbm, .parts, .out] : List Comp), c ∈ fr) :
    State.Only z (State.placeRec s n r) fr := zh.trans ((placeRec_only s n r).mono zc)

theorem countStale_only (s : State) (n : Nat) (st : Status) : State.Only s (State.countStale s n st) [.mch] := by
  unfold State.countStale
  repeat' first | with_reducible assumption | with_reducible exact .refl _ _ | with_reducible refine only_ite ?_ ?_ | with_reducible refine only_when ?_ ?_ | with_reducible refine only_updQueue ?_ (by decide) | split | dsimp only

theorem only_countStale {z : State} {fr : List Comp} {s : State} {n : Nat} {st : Status} (zh : State.Only z s fr) (zc : ∀ c ∈ ([.mch] : List Comp), c ∈ fr) :
    State.Only z (State.countStale s n st) fr := zh.trans ((countStale_only s n st).mono zc)

theorem dropInb_only (s : State) (x : InbSt) : State.Only s (State.dropInb s x) [.mch] := by
  unfold State.dropInb
  repeat' first | with_reducible assumption | with_reducible exact .refl _ _ | with_reducible refine only_ite ?_ ?_ | with_reducible refine only_when ?_ ?_ | with_reducible refine only_updQueue ?_ (by decide) | with_reducible refine only_setInb ?_ (by decide) | split | dsimp only

theorem only_dropInb {z : State} {fr : List Comp} {s : State} {x : InbSt} (zh : State.Only z s fr) (zc : ∀ c ∈ ([.mch] : List Comp), c ∈ fr) :
    State.Only z (State.dropInb s x) fr := zh.trans ((dropInb_only s x).mono zc)

theorem nakMsg_only (s : State) (m : Msg) (st : Status) (d : BitVec 4) : State.Only s (State.nakMsg s m st d) [.mch, .out] := by
  unfold State.nakMsg
  repeat' first | with_reducible assumption | with_reducible exact .refl _ _ | with_reducible refine only_ite ?_ ?_ | with_reducible refine only_emit ?_ (by decide) | with_reducible refine only_countStale ?_ (by decide) | split | dsimp only

theorem only_nakMsg {z : State} {fr : List Comp} {s : State} {m : Msg} {st : Status} {d : BitVec 4} (zh : State.Only z s fr) (zc : ∀ c ∈ ([.mch, .out] : List Comp), c ∈ fr) :
    State.Only z (State.nakMsg s m st d) fr := zh.trans ((nakMsg_only s m st d).mono zc)

theorem takeMsg_only (s : State) (m : Msg) : State.Only s (State.takeMsg s m) [.top, .rel, .chest, .mch, .hbm, .parts, .out] := by
  unfold State.takeMsg
  repeat' first | with_reducible assumption | with_reducible exact .refl _ _ | with_reducible refine only_ite ?_ ?_ | with_reducible refine only_when ?_ ?_ | with_reducible refine only_updQueue ?_ (by decide) | with_reducible refine only_setInb ?_ (by decide) | with_reducible refine only_placeRec ?_ (by decide) | with_reducible refine only_nakMsg ?_ (by decide) | split | dsimp only

theorem only_takeMsg {z : State} {fr : List Comp} {s : State} {m : Msg} (zh : State.Only z s fr) (zc : ∀ c ∈ ([.top, .rel, .chest, .mch, .hbm, .parts, .out] : List Comp), c ∈ fr) :
    State.Only z (State.takeMsg s m) fr := zh.trans ((takeMsg_only s m).mono zc)

theorem creditRec_only (s : State) (n : Nat) (r : RecSt) : State.Only s (State.creditRec s n r) [.mch] := by
  unfold State.creditRec
  repeat' first | with_reducible assumption | with_reducible exact .refl _ _ | with_reducible refine only_ite ?_ ?_ | with_reducible refine only_updQueue ?_ (by decide) | with_reducible refine only_setInb ?_ (by decide) | split | dsimp only

theorem only_creditRec {z : State} {fr : List Comp} {s : State} {n : Nat} {r : RecSt} (zh : State.Only z s fr) (zc : ∀ c ∈ ([.mch] : List Comp), c ∈ fr) :
    State.Only z (State.creditRec s n r) fr := zh.trans ((creditRec_only s n r).mono zc)

theorem consumeHead_only (s : State) (n : Nat) : State.Only s (State.consumeHead s n) [.mch] := by
  unfold State.consumeHead
  repeat' first | with_reducible assumption | with_reducible exact .refl _ _ | with_reducible refine only_ite ?_ ?_ | with_reducible refine only_updQueue ?_ (by decide) | with_reducible refine only_creditRec ?_ (by decide) | split | dsimp only

theorem only_consumeHead {z : State} {fr : List Comp} {s : State} {n : Nat} (zh : State.Only z s fr) (zc : ∀ c ∈ ([.mch] : List Comp), c ∈ fr) :
    State.Only z (State.consumeHead s n) fr := zh.trans ((consumeHead_only s n).mono zc)

theorem bindQueue_only (s : State) (n : Nat) : State.Only s (State.bindQueue s n) [.mch] := by
  unfold State.bindQueue
  repeat' first | with_reducible assumption | with_reducible exact .refl _ _ | with_reducible refine only_ite ?_ ?_ | with_reducible refine only_updQueue ?_ (by decide) | split | dsimp only

theorem only_bindQueue {z : State} {fr : List Comp} {s : State} {n : Nat} (zh : State.Only z s fr) (zc : ∀ c ∈ ([.mch] : List Comp), c ∈ fr) :
    State.Only z (State.bindQueue s n) fr := zh.trans ((bindQueue_only s n).mono zc)

theorem unbindQueue_only (s : State) (n : Nat) : State.Only s (State.unbindQueue s n) [.mch, .out] := by
  unfold State.unbindQueue
  repeat' first | with_reducible assumption | with_reducible exact .refl _ _ | with_reducible refine only_ite ?_ ?_ | with_reducible refine only_each ?_ (fun _ _ _ => ?_) | with_reducible refine only_updQueue ?_ (by decide) | with_reducible refine only_setInb ?_ (by decide) | with_reducible refine only_emit ?_ (by decide) | split | dsimp only

theorem only_unbindQueue {z : State} {fr : List Comp} {s : State} {n : Nat} (zh : State.Only z s fr) (zc : ∀ c ∈ ([.mch, .out] : List Comp), c ∈ fr) :
    State.Only z (State.unbindQueue s n) fr := zh.trans ((unbindQueue_only s n).mono zc)

theorem fenceQueues_only (s : State) (p : Nat) : State.Only s (State.fenceQueues s p) [.mch] := by
  unfold State.fenceQueues
  repeat' first | with_reducible assumption | with_reducible exact .refl _ _ | with_reducible refine only_ite ?_ ?_ | with_reducible refine only_modMch ?_ (by decide) | split | dsimp only

theorem only_fenceQueues {z : State} {fr : List Comp} {s : State} {p : Nat} (zh : State.Only z s fr) (zc : ∀ c ∈ ([.mch] : List Comp), c ∈ fr) :
    State.Only z (State.fenceQueues s p) fr := zh.trans ((fenceQueues_only s p).mono zc)

theorem unfenceQueues_only (s : State) (p : Nat) : State.Only s (State.unfenceQueues s p) [.mch, .out] := by
  unfold State.unfenceQueues
  repeat' first | with_reducible assumption | with_reducible exact .refl _ _ | with_reducible refine only_ite ?_ ?_ | with_reducible refine only_each ?_ (fun _ _ _ => ?_) | with_reducible refine only_updQueue ?_ (by decide) | with_reducible refine only_unbindQueue ?_ (by decide) | split | dsimp only

theorem only_unfenceQueues {z : State} {fr : List Comp} {s : State} {p : Nat} (zh : State.Only z s fr) (zc : ∀ c ∈ ([.mch, .out] : List Comp), c ∈ fr) :
    State.Only z (State.unfenceQueues s p) fr := zh.trans ((unfenceQueues_only s p).mono zc)

theorem takeMessage_only {s t : State} {lt fold input : Nat} {r : RecSt} (h : s.takeMessage lt fold input = some (r, t)) :
    s.Only t [.mch] := by
  unfold State.takeMessage at h
  dsimp only at h
  split at h
  · simp at h
  · split at h
    · simp at h
    · obtain ⟨-, rfl⟩ := Prod.mk.inj (Option.some.inj h)
      exact only_each (only_consumeHead (.refl _ _) (by decide)) fun _ _ h => only_updQueue h (by decide)

theorem only_takeMessage {z s t : State} {fr : List Comp} {lt fold input : Nat} {r : RecSt}
    (h : s.takeMessage lt fold input = some (r, t)) (zh : z.Only s fr) (zc : ∀ c ∈ ([.mch] : List Comp), c ∈ fr) :
    z.Only t fr := zh.trans ((takeMessage_only h).mono zc)

theorem putEntries_only (s : State) (n : Nat) (i : Nat) (vs : List Nat) : State.Only s (State.putEntries s n i vs) [.top, .rel, .chest, .hbm, .parts, .out] := by
  unfold State.putEntries
  repeat' first | with_reducible assumption | with_reducible exact .refl _ _ | with_reducible refine only_ite ?_ ?_ | with_reducible refine only_when ?_ ?_ | with_reducible refine only_hbmWrite ?_ (by decide) | split | dsimp only

theorem only_putEntries {z : State} {fr : List Comp} {s : State} {n : Nat} {i : Nat} {vs : List Nat} (zh : State.Only z s fr) (zc : ∀ c ∈ ([.top, .rel, .chest, .hbm, .parts, .out] : List Comp), c ∈ fr) :
    State.Only z (State.putEntries s n i vs) fr := zh.trans ((putEntries_only s n i vs).mono zc)

theorem freePage_only (s : State) (pool : Nat) (q : Nat) : State.Only s (State.freePage s pool q) [.sess] := by
  unfold State.freePage
  repeat' first | with_reducible assumption | with_reducible exact .refl _ _ | with_reducible refine only_ite ?_ ?_ | with_reducible refine only_updPool ?_ (by decide) | split | dsimp only

theorem only_freePage {z : State} {fr : List Comp} {s : State} {pool : Nat} {q : Nat} (zh : State.Only z s fr) (zc : ∀ c ∈ ([.sess] : List Comp), c ∈ fr) :
    State.Only z (State.freePage s pool q) fr := zh.trans ((freePage_only s pool q).mono zc)

theorem shrink_only (s : State) (n : Nat) (keep : Nat) : State.Only s (State.shrink s n keep) [.top, .rel, .chest, .sess, .hbm, .parts, .out] := by
  unfold State.shrink
  repeat' first | with_reducible assumption | with_reducible exact .refl _ _ | with_reducible refine only_ite ?_ ?_ | with_reducible refine only_each ?_ (fun _ _ _ => ?_) | with_reducible refine only_updSession ?_ (by decide) | with_reducible refine only_putEntries ?_ (by decide) | with_reducible refine only_freePage ?_ (by decide) | split | dsimp only

theorem only_shrink {z : State} {fr : List Comp} {s : State} {n : Nat} {keep : Nat} (zh : State.Only z s fr) (zc : ∀ c ∈ ([.top, .rel, .chest, .sess, .hbm, .parts, .out] : List Comp), c ∈ fr) :
    State.Only z (State.shrink s n keep) fr := zh.trans ((shrink_only s n keep).mono zc)

theorem growPage_only {s t : State} {n : Nat} (h : s.growPage n = some t) : s.Only t [.top, .rel, .chest, .sess, .hbm, .parts, .out] := by
  unfold State.growPage at h
  dsimp only at h
  split at h
  · simp at h
  · split at h
    · simp at h
    · obtain rfl := Option.some.inj h
      exact only_updSession (only_putEntries (only_updPool (.refl _ _) (by decide)) (by decide)) (by decide)

theorem only_growPage {z s t : State} {fr : List Comp} {n : Nat} (h : s.growPage n = some t) (zh : z.Only s fr)
    (zc : ∀ c ∈ ([.top, .rel, .chest, .sess, .hbm, .parts, .out] : List Comp), c ∈ fr) : z.Only t fr := zh.trans ((growPage_only h).mono zc)

theorem freeSession_only (s : State) (n : Nat) : State.Only s (State.freeSession s n) [.top, .rel, .chest, .sess, .hbm, .parts, .out] := by
  unfold State.freeSession
  repeat' first | with_reducible assumption | with_reducible exact .refl _ _ | with_reducible refine only_ite ?_ ?_ | with_reducible refine only_updSession ?_ (by decide) | with_reducible refine only_shrink ?_ (by decide) | split | dsimp only

theorem only_freeSession {z : State} {fr : List Comp} {s : State} {n : Nat} (zh : State.Only z s fr) (zc : ∀ c ∈ ([.top, .rel, .chest, .sess, .hbm, .parts, .out] : List Comp), c ∈ fr) :
    State.Only z (State.freeSession s n) fr := zh.trans ((freeSession_only s n).mono zc)

theorem reclaim_only (s : State) (n : Nat) : State.Only s (State.reclaim s n) [.top, .rel, .chest, .sess, .hbm, .parts, .out] := by
  unfold State.reclaim
  repeat' first | with_reducible assumption | with_reducible exact .refl _ _ | with_reducible refine only_ite ?_ ?_ | with_reducible refine only_updSession ?_ (by decide) | with_reducible refine only_shrink ?_ (by decide) | split | dsimp only

theorem only_reclaim {z : State} {fr : List Comp} {s : State} {n : Nat} (zh : State.Only z s fr) (zc : ∀ c ∈ ([.top, .rel, .chest, .sess, .hbm, .parts, .out] : List Comp), c ∈ fr) :
    State.Only z (State.reclaim s n) fr := zh.trans ((reclaim_only s n).mono zc)

theorem letGo_only (s : State) (n : Nat) : State.Only s (State.letGo s n) [.top, .rel, .chest, .sess, .hbm, .parts, .out] := by
  unfold State.letGo
  repeat' first | with_reducible assumption | with_reducible exact .refl _ _ | with_reducible refine only_ite ?_ ?_ | with_reducible refine only_when ?_ ?_ | with_reducible refine only_updSession ?_ (by decide) | with_reducible refine only_freeSession ?_ (by decide) | with_reducible refine only_reclaim ?_ (by decide) | split | dsimp only

theorem only_letGo {z : State} {fr : List Comp} {s : State} {n : Nat} (zh : State.Only z s fr) (zc : ∀ c ∈ ([.top, .rel, .chest, .sess, .hbm, .parts, .out] : List Comp), c ∈ fr) :
    State.Only z (State.letGo s n) fr := zh.trans ((letGo_only s n).mono zc)

theorem replyNone_only (s : State) (op : Nat) (st : Status) (detail : Nat) (handle : BitVec 32) (tag : BitVec 32) : State.Only s (State.replyNone s op st detail handle tag).2 [.free] := by
  unfold State.replyNone
  repeat' first | with_reducible assumption | with_reducible exact .refl _ _ | with_reducible refine only_ite ?_ ?_ | with_reducible refine only_freeVal ?_ (by decide) | split | dsimp only

theorem only_replyNone {z : State} {fr : List Comp} {s : State} {op : Nat} {st : Status} {detail : Nat} {handle : BitVec 32} {tag : BitVec 32} (zh : State.Only z s fr) (zc : ∀ c ∈ ([.free] : List Comp), c ∈ fr) :
    State.Only z (State.replyNone s op st detail handle tag).2 fr := zh.trans ((replyNone_only s op st detail handle tag).mono zc)

theorem sessSend_only (s : State) (conn : Nat) (body : List Byte) : State.Only s (State.sessSend s conn body) [.mch, .out] := by
  unfold State.sessSend
  repeat' first | with_reducible assumption | with_reducible exact .refl _ _ | with_reducible refine only_ite ?_ ?_ | with_reducible refine only_sendOn ?_ (by decide) | split | dsimp only

theorem only_sessSend {z : State} {fr : List Comp} {s : State} {conn : Nat} {body : List Byte} (zh : State.Only z s fr) (zc : ∀ c ∈ ([.mch, .out] : List Comp), c ∈ fr) :
    State.Only z (State.sessSend s conn body) fr := zh.trans ((sessSend_only s conn body).mono zc)

theorem sessAnswer_only (s : State) (m : SessCmd) (reply : List Byte) : State.Only s (State.sessAnswer s m reply) [.mch, .sess, .out] := by
  unfold State.sessAnswer
  repeat' first | with_reducible assumption | with_reducible exact .refl _ _ | with_reducible refine only_ite ?_ ?_ | with_reducible refine only_modSess ?_ (by decide) | with_reducible refine only_sessSend ?_ (by decide) | split | dsimp only

theorem only_sessAnswer {z : State} {fr : List Comp} {s : State} {m : SessCmd} {reply : List Byte} (zh : State.Only z s fr) (zc : ∀ c ∈ ([.mch, .sess, .out] : List Comp), c ∈ fr) :
    State.Only z (State.sessAnswer s m reply) fr := zh.trans ((sessAnswer_only s m reply).mono zc)

theorem sessRefuse_only (s : State) (m : SessCmd) (op : Nat) (st : Status) (detail : Nat) : State.Only s (State.sessRefuse s m op st detail) [.mch, .sess, .out, .free] := by
  unfold State.sessRefuse
  repeat' first | with_reducible assumption | with_reducible exact .refl _ _ | with_reducible refine only_ite ?_ ?_ | with_reducible refine only_replyNone ?_ (by decide) | with_reducible refine only_sessAnswer ?_ (by decide) | split | dsimp only

theorem only_sessRefuse {z : State} {fr : List Comp} {s : State} {m : SessCmd} {op : Nat} {st : Status} {detail : Nat} (zh : State.Only z s fr) (zc : ∀ c ∈ ([.mch, .sess, .out, .free] : List Comp), c ∈ fr) :
    State.Only z (State.sessRefuse s m op st detail) fr := zh.trans ((sessRefuse_only s m op st detail).mono zc)

theorem sessTell_only (s : State) (m : SessCmd) (op : Nat) (st : Status) (detail : Nat) (n : Nat) (handle : BitVec 32) : State.Only s (State.sessTell s m op st detail n handle) [.mch, .sess, .out] := by
  unfold State.sessTell
  repeat' first | with_reducible assumption | with_reducible exact .refl _ _ | with_reducible refine only_ite ?_ ?_ | with_reducible refine only_sessAnswer ?_ (by decide) | split | dsimp only

theorem only_sessTell {z : State} {fr : List Comp} {s : State} {m : SessCmd} {op : Nat} {st : Status} {detail : Nat} {n : Nat} {handle : BitVec 32} (zh : State.Only z s fr) (zc : ∀ c ∈ ([.mch, .sess, .out] : List Comp), c ∈ fr) :
    State.Only z (State.sessTell s m op st detail n handle) fr := zh.trans ((sessTell_only s m op st detail n handle).mono zc)

theorem sessOpen_only (s : State) (m : SessCmd) : State.Only s (State.sessOpen s m) [.top, .rel, .chest, .mch, .sess, .hbm, .parts, .out, .free] := by
  unfold State.sessOpen
  repeat' first | with_reducible assumption | with_reducible exact .refl _ _ | with_reducible refine only_ite ?_ ?_ | with_reducible refine only_updSession ?_ (by decide) | with_reducible refine only_putEntries ?_ (by decide) | with_reducible refine only_sessRefuse ?_ (by decide) | with_reducible refine only_sessTell ?_ (by decide) | split | dsimp only

theorem only_sessOpen {z : State} {fr : List Comp} {s : State} {m : SessCmd} (zh : State.Only z s fr) (zc : ∀ c ∈ ([.top, .rel, .chest, .mch, .sess, .hbm, .parts, .out, .free] : List Comp), c ∈ fr) :
    State.Only z (State.sessOpen s m) fr := zh.trans ((sessOpen_only s m).mono zc)

theorem only_onSession {z s : State} {fr : List Comp} {m : SessCmd} {op : Nat} {f : State → Nat → Status × Nat × State}
    (zh : z.Only s fr) (zf : ∀ u n, z.Only u fr → z.Only (f u n).2.2 fr) (zc : ∀ c ∈ ([.mch, .sess, .out, .free] : List Comp), c ∈ fr) :
    z.Only (s.onSession m op f) fr := by
  have h1 : ∀ c ∈ ([.mch, .sess, .out, .free] : List Comp), c ∈ fr := fun c hc => zc c (by revert c; decide)
  have h2 : ∀ c ∈ ([.mch, .sess, .out] : List Comp), c ∈ fr := fun c hc => zc c (by revert c; decide)
  unfold State.onSession
  exact only_ite (only_sessRefuse zh h1) (only_ite (only_sessTell zh h2) (only_sessTell (zf _ _ zh) h2))

theorem sessClose_only (s : State) (m : SessCmd) : State.Only s (State.sessClose s m) [.top, .rel, .chest, .mch, .sess, .hbm, .parts, .out, .free] := by
  unfold State.sessClose
  repeat' first | with_reducible assumption | with_reducible exact .refl _ _ | with_reducible refine only_ite ?_ ?_ | with_reducible refine only_updSession ?_ (by decide) | with_reducible refine only_freeSession ?_ (by decide) | with_reducible refine only_onSession ?_ (fun _ _ _ => ?_) (by decide) | split | dsimp only

theorem only_sessClose {z : State} {fr : List Comp} {s : State} {m : SessCmd} (zh : State.Only z s fr) (zc : ∀ c ∈ ([.top, .rel, .chest, .mch, .sess, .hbm, .parts, .out, .free] : List Comp), c ∈ fr) :
    State.Only z (State.sessClose s m) fr := zh.trans ((sessClose_only s m).mono zc)

theorem sessSetQuota_only (s : State) (m : SessCmd) : State.Only s (State.sessSetQuota s m) [.top, .rel, .chest, .mch, .sess, .hbm, .parts, .out, .free] := by
  unfold State.sessSetQuota
  repeat' first | with_reducible assumption | with_reducible exact .refl _ _ | with_reducible refine only_ite ?_ ?_ | with_reducible refine only_when ?_ ?_ | with_reducible refine only_updSession ?_ (by decide) | with_reducible refine only_reclaim ?_ (by decide) | with_reducible refine only_onSession ?_ (fun _ _ _ => ?_) (by decide) | split | dsimp only

theorem only_sessSetQuota {z : State} {fr : List Comp} {s : State} {m : SessCmd} (zh : State.Only z s fr) (zc : ∀ c ∈ ([.top, .rel, .chest, .mch, .sess, .hbm, .parts, .out, .free] : List Comp), c ∈ fr) :
    State.Only z (State.sessSetQuota s m) fr := zh.trans ((sessSetQuota_only s m).mono zc)

theorem sessQuery_only (s : State) (m : SessCmd) : State.Only s (State.sessQuery s m) [.mch, .sess, .out, .free] := by
  unfold State.sessQuery
  repeat' first | with_reducible assumption | with_reducible exact .refl _ _ | with_reducible refine only_ite ?_ ?_ | with_reducible refine only_onSession ?_ (fun _ _ _ => ?_) (by decide) | split | dsimp only

theorem only_sessQuery {z : State} {fr : List Comp} {s : State} {m : SessCmd} (zh : State.Only z s fr) (zc : ∀ c ∈ ([.mch, .sess, .out, .free] : List Comp), c ∈ fr) :
    State.Only z (State.sessQuery s m) fr := zh.trans ((sessQuery_only s m).mono zc)

theorem sessApply_only (s : State) (op : SessOp) (m : SessCmd) : State.Only s (State.sessApply s op m) [.top, .rel, .chest, .mch, .sess, .hbm, .parts, .out, .free] := by
  unfold State.sessApply
  repeat' first | with_reducible assumption | with_reducible exact .refl _ _ | with_reducible refine only_ite ?_ ?_ | with_reducible refine only_sessRefuse ?_ (by decide) | with_reducible refine only_sessOpen ?_ (by decide) | with_reducible refine only_sessClose ?_ (by decide) | with_reducible refine only_sessSetQuota ?_ (by decide) | with_reducible refine only_sessQuery ?_ (by decide) | split | dsimp only

theorem only_sessApply {z : State} {fr : List Comp} {s : State} {op : SessOp} {m : SessCmd} (zh : State.Only z s fr) (zc : ∀ c ∈ ([.top, .rel, .chest, .mch, .sess, .hbm, .parts, .out, .free] : List Comp), c ∈ fr) :
    State.Only z (State.sessApply s op m) fr := zh.trans ((sessApply_only s op m).mono zc)

theorem sessFret_only (s : State) : State.Only s (State.sessFret s) [.top, .rel, .chest, .mch, .sess, .hbm, .parts, .out, .free] := by
  unfold State.sessFret
  repeat' first | with_reducible assumption | with_reducible exact .refl _ _ | with_reducible refine only_ite ?_ ?_ | with_reducible refine only_each ?_ (fun _ _ _ => ?_) | with_reducible refine only_modSess ?_ (by decide) | with_reducible refine only_sessApply ?_ (by decide) | split | dsimp only

theorem only_sessFret {z : State} {fr : List Comp} {s : State} (zh : State.Only z s fr) (zc : ∀ c ∈ ([.top, .rel, .chest, .mch, .sess, .hbm, .parts, .out, .free] : List Comp), c ∈ fr) :
    State.Only z (State.sessFret s) fr := zh.trans ((sessFret_only s).mono zc)

theorem updHold_only (s : State) (t : BitVec 32) (n : Nat) (f : Hold → Hold) : State.Only s (State.updHold s t n f) [.sess] := by
  unfold State.updHold
  repeat' first | with_reducible assumption | with_reducible exact .refl _ _ | with_reducible refine only_ite ?_ ?_ | with_reducible refine only_modSess ?_ (by decide) | split | dsimp only

theorem only_updHold {z : State} {fr : List Comp} {s : State} {t : BitVec 32} {n : Nat} {f : Hold → Hold} (zh : State.Only z s fr) (zc : ∀ c ∈ ([.sess] : List Comp), c ∈ fr) :
    State.Only z (State.updHold s t n f) fr := zh.trans ((updHold_only s t n f).mono zc)

theorem takeHold_only (s : State) (t : BitVec 32) (n : Nat) : State.Only s (State.takeHold s t n) [.sess] := by
  unfold State.takeHold
  repeat' first | with_reducible assumption | with_reducible exact .refl _ _ | with_reducible refine only_ite ?_ ?_ | with_reducible refine only_modSess ?_ (by decide) | with_reducible refine only_updSession ?_ (by decide) | split | dsimp only

theorem only_takeHold {z : State} {fr : List Comp} {s : State} {t : BitVec 32} {n : Nat} (zh : State.Only z s fr) (zc : ∀ c ∈ ([.sess] : List Comp), c ∈ fr) :
    State.Only z (State.takeHold s t n) fr := zh.trans ((takeHold_only s t n).mono zc)

theorem popSession_only (s : State) (t : BitVec 32) (kv : KvCfg) (write : Bool) (bs : List Byte) : State.Only s (State.popSession s t kv write bs).2 [.sess] := by
  unfold State.popSession
  repeat' first | with_reducible assumption | with_reducible exact .refl _ _ | with_reducible refine only_ite ?_ ?_ | with_reducible refine only_when ?_ ?_ | with_reducible refine only_modSess ?_ (by decide) | with_reducible refine only_updSession ?_ (by decide) | with_reducible refine only_updHold ?_ (by decide) | with_reducible refine only_takeHold ?_ (by decide) | split | dsimp only

theorem only_popSession {z : State} {fr : List Comp} {s : State} {t : BitVec 32} {kv : KvCfg} {write : Bool} {bs : List Byte} (zh : State.Only z s fr) (zc : ∀ c ∈ ([.sess] : List Comp), c ∈ fr) :
    State.Only z (State.popSession s t kv write bs).2 fr := zh.trans ((popSession_only s t kv write bs).mono zc)

theorem putResult_only (s : State) (conn : Nat) (body : List Byte) : State.Only s (State.putResult s conn body) [.sess] := by
  unfold State.putResult
  repeat' first | with_reducible assumption | with_reducible exact .refl _ _ | with_reducible refine only_ite ?_ ?_ | with_reducible refine only_modSess ?_ (by decide) | split | dsimp only

theorem only_putResult {z : State} {fr : List Comp} {s : State} {conn : Nat} {body : List Byte} (zh : State.Only z s fr) (zc : ∀ c ∈ ([.sess] : List Comp), c ∈ fr) :
    State.Only z (State.putResult s conn body) fr := zh.trans ((putResult_only s conn body).mono zc)

theorem commitHold_only (s : State) (h : Hold) : State.Only s (State.commitHold s h) [.top, .rel, .chest, .sess, .hbm, .parts, .out] := by
  unfold State.commitHold
  repeat' first | with_reducible assumption | with_reducible exact .refl _ _ | with_reducible refine only_ite ?_ ?_ | with_reducible refine only_updSession ?_ (by decide) | with_reducible refine only_shrink ?_ (by decide) | with_reducible refine only_letGo ?_ (by decide) | with_reducible refine only_putResult ?_ (by decide) | split | dsimp only

theorem only_commitHold {z : State} {fr : List Comp} {s : State} {h : Hold} (zh : State.Only z s fr) (zc : ∀ c ∈ ([.top, .rel, .chest, .sess, .hbm, .parts, .out] : List Comp), c ∈ fr) :
    State.Only z (State.commitHold s h) fr := zh.trans ((commitHold_only s h).mono zc)

theorem abortHold_only (s : State) (h : Hold) : State.Only s (State.abortHold s h) [.top, .rel, .chest, .sess, .hbm, .parts, .out] := by
  unfold State.abortHold
  repeat' first | with_reducible assumption | with_reducible exact .refl _ _ | with_reducible refine only_ite ?_ ?_ | with_reducible refine only_updSession ?_ (by decide) | with_reducible refine only_shrink ?_ (by decide) | with_reducible refine only_letGo ?_ (by decide) | split | dsimp only

theorem only_abortHold {z : State} {fr : List Comp} {s : State} {h : Hold} (zh : State.Only z s fr) (zc : ∀ c ∈ ([.top, .rel, .chest, .sess, .hbm, .parts, .out] : List Comp), c ∈ fr) :
    State.Only z (State.abortHold s h) fr := zh.trans ((abortHold_only s h).mono zc)

theorem dropHolds_only (s : State) (t : BitVec 32) : State.Only s (State.dropHolds s t).2 [.sess] := by
  unfold State.dropHolds
  repeat' first | with_reducible assumption | with_reducible exact .refl _ _ | with_reducible refine only_ite ?_ ?_ | with_reducible refine only_modSess ?_ (by decide) | split | dsimp only

theorem only_dropHolds {z : State} {fr : List Comp} {s : State} {t : BitVec 32} (zh : State.Only z s fr) (zc : ∀ c ∈ ([.sess] : List Comp), c ∈ fr) :
    State.Only z (State.dropHolds s t).2 fr := zh.trans ((dropHolds_only s t).mono zc)

theorem commitSessions_only (s : State) (t : BitVec 32) : State.Only s (State.commitSessions s t) [.top, .rel, .chest, .sess, .hbm, .parts, .out, .free] := by
  unfold State.commitSessions
  repeat' first | with_reducible assumption | with_reducible exact .refl _ _ | with_reducible refine only_ite ?_ ?_ | with_reducible refine only_each ?_ (fun _ _ _ => ?_) | with_reducible refine only_freeVal ?_ (by decide) | with_reducible refine only_putResult ?_ (by decide) | with_reducible refine only_commitHold ?_ (by decide) | with_reducible refine only_dropHolds ?_ (by decide) | split | dsimp only

theorem only_commitSessions {z : State} {fr : List Comp} {s : State} {t : BitVec 32} (zh : State.Only z s fr) (zc : ∀ c ∈ ([.top, .rel, .chest, .sess, .hbm, .parts, .out, .free] : List Comp), c ∈ fr) :
    State.Only z (State.commitSessions s t) fr := zh.trans ((commitSessions_only s t).mono zc)

theorem abortSessions_only (s : State) (t : BitVec 32) : State.Only s (State.abortSessions s t) [.top, .rel, .chest, .sess, .hbm, .parts, .out] := by
  unfold State.abortSessions
  repeat' first | with_reducible assumption | with_reducible exact .refl _ _ | with_reducible refine only_ite ?_ ?_ | with_reducible refine only_each ?_ (fun _ _ _ => ?_) | with_reducible refine only_abortHold ?_ (by decide) | with_reducible refine only_dropHolds ?_ (by decide) | split | dsimp only

theorem only_abortSessions {z : State} {fr : List Comp} {s : State} {t : BitVec 32} (zh : State.Only z s fr) (zc : ∀ c ∈ ([.top, .rel, .chest, .sess, .hbm, .parts, .out] : List Comp), c ∈ fr) :
    State.Only z (State.abortSessions s t) fr := zh.trans ((abortSessions_only s t).mono zc)

theorem coreResetSessions_only (s : State) : State.Only s (State.coreResetSessions s) [.top, .rel, .chest, .sess, .hbm, .parts, .out] := by
  unfold State.coreResetSessions
  repeat' first | with_reducible assumption | with_reducible exact .refl _ _ | with_reducible refine only_ite ?_ ?_ | with_reducible refine only_each ?_ (fun _ _ _ => ?_) | with_reducible refine only_modSess ?_ (by decide) | with_reducible refine only_updSession ?_ (by decide) | with_reducible refine only_shrink ?_ (by decide) | with_reducible refine only_freeSession ?_ (by decide) | split | dsimp only

theorem only_coreResetSessions {z : State} {fr : List Comp} {s : State} (zh : State.Only z s fr) (zc : ∀ c ∈ ([.top, .rel, .chest, .sess, .hbm, .parts, .out] : List Comp), c ∈ fr) :
    State.Only z (State.coreResetSessions s) fr := zh.trans ((coreResetSessions_only s).mono zc)

theorem writeSessTbl_only (s : State) (v : Word) : State.Only s (State.writeSessTbl s v) [.sess] := by
  unfold State.writeSessTbl
  repeat' first | with_reducible assumption | with_reducible exact .refl _ _ | with_reducible refine only_ite ?_ ?_ | with_reducible refine only_modSess ?_ (by decide) | split | dsimp only

theorem only_writeSessTbl {z : State} {fr : List Comp} {s : State} {v : Word} (zh : State.Only z s fr) (zc : ∀ c ∈ ([.sess] : List Comp), c ∈ fr) :
    State.Only z (State.writeSessTbl s v) fr := zh.trans ((writeSessTbl_only s v).mono zc)

theorem writeKvpBase_only (s : State) (n : Nat) (v : Word) : State.Only s (State.writeKvpBase s n v) [.sess] := by
  unfold State.writeKvpBase
  repeat' first | with_reducible assumption | with_reducible exact .refl _ _ | with_reducible refine only_ite ?_ ?_ | with_reducible refine only_when ?_ ?_ | with_reducible refine only_updPool ?_ (by decide) | split | dsimp only

theorem only_writeKvpBase {z : State} {fr : List Comp} {s : State} {n : Nat} {v : Word} (zh : State.Only z s fr) (zc : ∀ c ∈ ([.sess] : List Comp), c ∈ fr) :
    State.Only z (State.writeKvpBase s n v) fr := zh.trans ((writeKvpBase_only s n v).mono zc)

theorem writeKvpGeom_only (s : State) (n : Nat) (v : Word) : State.Only s (State.writeKvpGeom s n v) [.sess] := by
  unfold State.writeKvpGeom
  repeat' first | with_reducible assumption | with_reducible exact .refl _ _ | with_reducible refine only_ite ?_ ?_ | with_reducible refine only_when ?_ ?_ | with_reducible refine only_updPool ?_ (by decide) | split | dsimp only

theorem only_writeKvpGeom {z : State} {fr : List Comp} {s : State} {n : Nat} {v : Word} (zh : State.Only z s fr) (zc : ∀ c ∈ ([.sess] : List Comp), c ∈ fr) :
    State.Only z (State.writeKvpGeom s n v) fr := zh.trans ((writeKvpGeom_only s n v).mono zc)

theorem writeKvpPages_only (s : State) (n : Nat) (v : Word) : State.Only s (State.writeKvpPages s n v) [.sess] := by
  unfold State.writeKvpPages
  repeat' first | with_reducible assumption | with_reducible exact .refl _ _ | with_reducible refine only_ite ?_ ?_ | with_reducible refine only_when ?_ ?_ | with_reducible refine only_updPool ?_ (by decide) | split | dsimp only

theorem only_writeKvpPages {z : State} {fr : List Comp} {s : State} {n : Nat} {v : Word} (zh : State.Only z s fr) (zc : ∀ c ∈ ([.sess] : List Comp), c ∈ fr) :
    State.Only z (State.writeKvpPages s n v) fr := zh.trans ((writeKvpPages_only s n v).mono zc)

theorem routeNak_only (s : State) (w : Worm) : State.Only s (State.routeNak s w) [.out] := by
  unfold State.routeNak
  repeat' first | with_reducible assumption | with_reducible exact .refl _ _ | with_reducible refine only_ite ?_ ?_ | with_reducible refine only_when ?_ ?_ | with_reducible refine only_emit ?_ (by decide) | split | dsimp only

theorem only_routeNak {z : State} {fr : List Comp} {s : State} {w : Worm} (zh : State.Only z s fr) (zc : ∀ c ∈ ([.out] : List Comp), c ∈ fr) :
    State.Only z (State.routeNak s w) fr := zh.trans ((routeNak_only s w).mono zc)

theorem countHub_only (s : State) (c : Nat) (port : Nat) (first : Bool) : State.Only s (State.countHub s c port first) [.spn] := by
  unfold State.countHub
  repeat' first | with_reducible assumption | with_reducible exact .refl _ _ | with_reducible refine only_ite ?_ ?_ | with_reducible refine only_when ?_ ?_ | with_reducible refine only_modSpn ?_ (by decide) | split | dsimp only

theorem only_countHub {z : State} {fr : List Comp} {s : State} {c : Nat} {port : Nat} {first : Bool} (zh : State.Only z s fr) (zc : ∀ c ∈ ([.spn] : List Comp), c ∈ fr) :
    State.Only z (State.countHub s c port first) fr := zh.trans ((countHub_only s c port first).mono zc)

theorem updLink_only (s : State) (p : Nat) (f : LinkCnt → LinkCnt) : State.Only s (State.updLink s p f) [.tel] := by
  unfold State.updLink
  repeat' first | with_reducible assumption | with_reducible exact .refl _ _ | with_reducible refine only_ite ?_ ?_ | with_reducible refine only_modTel ?_ (by decide) | split | dsimp only

theorem only_updLink {z : State} {fr : List Comp} {s : State} {p : Nat} {f : LinkCnt → LinkCnt} (zh : State.Only z s fr) (zc : ∀ c ∈ ([.tel] : List Comp), c ∈ fr) :
    State.Only z (State.updLink s p f) fr := zh.trans ((updLink_only s p f).mono zc)

theorem countTx_only (s : State) (p : Nat) (first : Bool) : State.Only s (State.countTx s p first) [.tel, .fabs] := by
  unfold State.countTx
  repeat' first | with_reducible assumption | with_reducible exact .refl _ _ | with_reducible refine only_ite ?_ ?_ | with_reducible refine only_updFab ?_ (by decide) | with_reducible refine only_updLink ?_ (by decide) | split | dsimp only

theorem only_countTx {z : State} {fr : List Comp} {s : State} {p : Nat} {first : Bool} (zh : State.Only z s fr) (zc : ∀ c ∈ ([.tel, .fabs] : List Comp), c ∈ fr) :
    State.Only z (State.countTx s p first) fr := zh.trans ((countTx_only s p first).mono zc)

theorem countRx_only (s : State) (p : Nat) (flits : Nat) (first : Bool) : State.Only s (State.countRx s p flits first) [.tel, .fabs] := by
  unfold State.countRx
  repeat' first | with_reducible assumption | with_reducible exact .refl _ _ | with_reducible refine only_ite ?_ ?_ | with_reducible refine only_updFab ?_ (by decide) | with_reducible refine only_updLink ?_ (by decide) | split | dsimp only

theorem only_countRx {z : State} {fr : List Comp} {s : State} {p : Nat} {flits : Nat} {first : Bool} (zh : State.Only z s fr) (zc : ∀ c ∈ ([.tel, .fabs] : List Comp), c ∈ fr) :
    State.Only z (State.countRx s p flits first) fr := zh.trans ((countRx_only s p flits first).mono zc)

theorem countCut_only (s : State) (p : Nat) : State.Only s (State.countCut s p) [.fabs] := by
  unfold State.countCut
  repeat' first | with_reducible assumption | with_reducible exact .refl _ _ | with_reducible refine only_ite ?_ ?_ | with_reducible refine only_updFab ?_ (by decide) | split | dsimp only

theorem only_countCut {z : State} {fr : List Comp} {s : State} {p : Nat} (zh : State.Only z s fr) (zc : ∀ c ∈ ([.fabs] : List Comp), c ∈ fr) :
    State.Only z (State.countCut s p) fr := zh.trans ((countCut_only s p).mono zc)

theorem routeError_only (s : State) (r : Router) (inPort : Nat) (w : Worm) : State.Only s (State.routeError s r inPort w) [.chest, .spn, .fabs, .tasks, .out] := by
  unfold State.routeError
  repeat' first | with_reducible assumption | with_reducible exact .refl _ _ | with_reducible refine only_ite ?_ ?_ | with_reducible refine only_updFab ?_ (by decide) | with_reducible refine only_updSpn ?_ (by decide) | with_reducible refine only_detect ?_ (by decide) | with_reducible refine only_routeNak ?_ (by decide) | split | dsimp only

theorem only_routeError {z : State} {fr : List Comp} {s : State} {r : Router} {inPort : Nat} {w : Worm} (zh : State.Only z s fr) (zc : ∀ c ∈ ([.chest, .spn, .fabs, .tasks, .out] : List Comp), c ∈ fr) :
    State.Only z (State.routeError s r inPort w) fr := zh.trans ((routeError_only s r inPort w).mono zc)

theorem parityDiscard_only (s : State) (r : Router) (inPort : Nat) (w : Worm) : State.Only s (State.parityDiscard s r inPort w) [.rel, .chest, .tasks, .out] := by
  unfold State.parityDiscard
  repeat' first | with_reducible assumption | with_reducible exact .refl _ _ | with_reducible refine only_ite ?_ ?_ | with_reducible refine only_modRel ?_ (by decide) | with_reducible refine only_emit ?_ (by decide) | with_reducible refine only_detect ?_ (by decide) | with_reducible refine only_routeNak ?_ (by decide) | split | dsimp only

theorem only_parityDiscard {z : State} {fr : List Comp} {s : State} {r : Router} {inPort : Nat} {w : Worm} (zh : State.Only z s fr) (zc : ∀ c ∈ ([.rel, .chest, .tasks, .out] : List Comp), c ∈ fr) :
    State.Only z (State.parityDiscard s r inPort w) fr := zh.trans ((parityDiscard_only s r inPort w).mono zc)

theorem cutUncrossed_only (s : State) (w : Worm) : State.Only s (State.cutUncrossed s w) [.chest, .tasks, .out] := by
  unfold State.cutUncrossed
  repeat' first | with_reducible assumption | with_reducible exact .refl _ _ | with_reducible refine only_ite ?_ ?_ | with_reducible refine only_detect ?_ (by decide) | with_reducible refine only_routeNak ?_ (by decide) | split | dsimp only

theorem only_cutUncrossed {z : State} {fr : List Comp} {s : State} {w : Worm} (zh : State.Only z s fr) (zc : ∀ c ∈ ([.chest, .tasks, .out] : List Comp), c ∈ fr) :
    State.Only z (State.cutUncrossed s w) fr := zh.trans ((cutUncrossed_only s w).mono zc)

theorem headIn_only (s : State) (r : Router) (inPort : Nat) (left : Nat) (w : Worm) (flits : Nat) (ok : Bool) : State.Only s (State.headIn s r inPort left w flits ok) [.rel, .chest, .spn, .fabs, .tasks, .out] := by
  unfold State.headIn
  repeat' first | with_reducible assumption | with_reducible exact .refl _ _ | with_reducible refine only_ite ?_ ?_ | with_reducible refine only_updRouter ?_ (by decide) | with_reducible refine only_countCut ?_ (by decide) | with_reducible refine only_routeError ?_ (by decide) | with_reducible refine only_parityDiscard ?_ (by decide) | with_reducible refine only_cutUncrossed ?_ (by decide) | split | dsimp only

theorem only_headIn {z : State} {fr : List Comp} {s : State} {r : Router} {inPort : Nat} {left : Nat} {w : Worm} {flits : Nat} {ok : Bool} (zh : State.Only z s fr) (zc : ∀ c ∈ ([.rel, .chest, .spn, .fabs, .tasks, .out] : List Comp), c ∈ fr) :
    State.Only z (State.headIn s r inPort left w flits ok) fr := zh.trans ((headIn_only s r inPort left w flits ok).mono zc)

theorem flitsIn_only (s : State) (r : Router) (inPort : Nat) (vc : BitVec 2) (n : Nat) : State.Only s (State.flitsIn s r inPort vc n) [.spn] := by
  unfold State.flitsIn
  repeat' first | with_reducible assumption | with_reducible exact .refl _ _ | with_reducible refine only_ite ?_ ?_ | with_reducible refine only_updRouter ?_ (by decide) | split | dsimp only

theorem only_flitsIn {z : State} {fr : List Comp} {s : State} {r : Router} {inPort : Nat} {vc : BitVec 2} {n : Nat} (zh : State.Only z s fr) (zc : ∀ c ∈ ([.spn] : List Comp), c ∈ fr) :
    State.Only z (State.flitsIn s r inPort vc n) fr := zh.trans ((flitsIn_only s r inPort vc n).mono zc)

theorem poisonIn_only (s : State) (r : Router) (inPort : Nat) (vc : BitVec 2) : State.Only s (State.poisonIn s r inPort vc) [.spn] := by
  unfold State.poisonIn
  repeat' first | with_reducible assumption | with_reducible exact .refl _ _ | with_reducible refine only_ite ?_ ?_ | with_reducible refine only_updRouter ?_ (by decide) | split | dsimp only

theorem only_poisonIn {z : State} {fr : List Comp} {s : State} {r : Router} {inPort : Nat} {vc : BitVec 2} (zh : State.Only z s fr) (zc : ∀ c ∈ ([.spn] : List Comp), c ∈ fr) :
    State.Only z (State.poisonIn s r inPort vc) fr := zh.trans ((poisonIn_only s r inPort vc).mono zc)

theorem cutLeaving_only (s : State) (c : Nat) (ports : List Nat) : State.Only s (State.cutLeaving s c ports) [.chest, .spn, .tasks] := by
  unfold State.cutLeaving
  repeat' first | with_reducible assumption | with_reducible exact .refl _ _ | with_reducible refine only_ite ?_ ?_ | with_reducible refine only_each ?_ (fun _ _ _ => ?_) | with_reducible refine only_updRouter ?_ (by decide) | with_reducible refine only_detect ?_ (by decide) | split | dsimp only

theorem only_cutLeaving {z : State} {fr : List Comp} {s : State} {c : Nat} {ports : List Nat} (zh : State.Only z s fr) (zc : ∀ c ∈ ([.chest, .spn, .tasks] : List Comp), c ∈ fr) :
    State.Only z (State.cutLeaving s c ports) fr := zh.trans ((cutLeaving_only s c ports).mono zc)

theorem cutPort_only (s : State) (p : Nat) : State.Only s (State.cutPort s p) [.chest, .spn, .fabs, .tasks, .out] := by
  unfold State.cutPort
  repeat' first | with_reducible assumption | with_reducible exact .refl _ _ | with_reducible refine only_ite ?_ ?_ | with_reducible refine only_each ?_ (fun _ _ _ => ?_) | with_reducible refine only_updRouter ?_ (by decide) | with_reducible refine only_detect ?_ (by decide) | with_reducible refine only_countCut ?_ (by decide) | with_reducible refine only_cutUncrossed ?_ (by decide) | split | dsimp only

theorem only_cutPort {z : State} {fr : List Comp} {s : State} {p : Nat} (zh : State.Only z s fr) (zc : ∀ c ∈ ([.chest, .spn, .fabs, .tasks, .out] : List Comp), c ∈ fr) :
    State.Only z (State.cutPort s p) fr := zh.trans ((cutPort_only s p).mono zc)

theorem mcSend_only (s : State) (conn : Nat) (body : List Byte) : State.Only s (State.mcSend s conn body) [.mch, .out] := by
  unfold State.mcSend
  repeat' first | with_reducible assumption | with_reducible exact .refl _ _ | with_reducible refine only_ite ?_ ?_ | with_reducible refine only_sendOn ?_ (by decide) | split | dsimp only

theorem only_mcSend {z : State} {fr : List Comp} {s : State} {conn : Nat} {body : List Byte} (zh : State.Only z s fr) (zc : ∀ c ∈ ([.mch, .out] : List Comp), c ∈ fr) :
    State.Only z (State.mcSend s conn body) fr := zh.trans ((mcSend_only s conn body).mono zc)

theorem startCopy_only (s : State) (reason : BitVec 8) : State.Only s (State.startCopy s reason) [.flash, .chest] := by
  unfold State.startCopy
  repeat' first | with_reducible assumption | with_reducible exact .refl _ _ | with_reducible refine only_ite ?_ ?_ | with_reducible refine only_foldl ?_ (fun _ _ _ => ?_) | with_reducible refine only_foldl2 ?_ (fun _ _ _ => ?_) | with_reducible refine only_modFlash ?_ (by decide) | with_reducible refine only_modChest ?_ (by decide) | split | dsimp only

theorem only_startCopy {z : State} {fr : List Comp} {s : State} {reason : BitVec 8} (zh : State.Only z s fr) (zc : ∀ c ∈ ([.flash, .chest] : List Comp), c ∈ fr) :
    State.Only z (State.startCopy s reason) fr := zh.trans ((startCopy_only s reason).mono zc)

theorem copyRequest_only (s : State) (reason : BitVec 8) : State.Only s (State.copyRequest s reason) [.flash, .chest] := by
  unfold State.copyRequest
  repeat' first | with_reducible assumption | with_reducible exact .refl _ _ | with_reducible refine only_ite ?_ ?_ | with_reducible refine only_modChest ?_ (by decide) | with_reducible refine only_startCopy ?_ (by decide) | split | dsimp only

theorem only_copyRequest {z : State} {fr : List Comp} {s : State} {reason : BitVec 8} (zh : State.Only z s fr) (zc : ∀ c ∈ ([.flash, .chest] : List Comp), c ∈ fr) :
    State.Only z (State.copyRequest s reason) fr := zh.trans ((copyRequest_only s reason).mono zc)

theorem setRetireFlag_only (s : State) (cause : BitVec 4) : State.Only s (State.setRetireFlag s cause) [.flash, .relx] := by
  unfold State.setRetireFlag
  repeat' first | with_reducible assumption | with_reducible exact .refl _ _ | with_reducible refine only_ite ?_ ?_ | with_reducible refine only_modFlash ?_ (by decide) | with_reducible refine only_modRelx ?_ (by decide) | split | dsimp only

theorem only_setRetireFlag {z : State} {fr : List Comp} {s : State} {cause : BitVec 4} (zh : State.Only z s fr) (zc : ∀ c ∈ ([.flash, .relx] : List Comp), c ∈ fr) :
    State.Only z (State.setRetireFlag s cause) fr := zh.trans ((setRetireFlag_only s cause).mono zc)

theorem retired_only (s : State) : State.Only s (State.retired s) [.top, .relx, .chest, .out] := by
  unfold State.retired
  repeat' first | with_reducible assumption | with_reducible exact .refl _ _ | with_reducible refine only_ite ?_ ?_ | with_reducible refine only_modRelx ?_ (by decide) | with_reducible refine only_record ?_ (by decide) | with_reducible refine only_attn ?_ (by decide) | split | dsimp only

theorem only_retired {z : State} {fr : List Comp} {s : State} (zh : State.Only z s fr) (zc : ∀ c ∈ ([.top, .relx, .chest, .out] : List Comp), c ∈ fr) :
    State.Only z (State.retired s) fr := zh.trans ((retired_only s).mono zc)

theorem causeRecord_only (s : State) (cause : BitVec 4) : State.Only s (State.causeRecord s cause) [.chest] := by
  unfold State.causeRecord
  repeat' first | with_reducible assumption | with_reducible exact .refl _ _ | with_reducible refine only_ite ?_ ?_ | with_reducible refine only_record ?_ (by decide) | split | dsimp only

theorem only_causeRecord {z : State} {fr : List Comp} {s : State} {cause : BitVec 4} (zh : State.Only z s fr) (zc : ∀ c ∈ ([.chest] : List Comp), c ∈ fr) :
    State.Only z (State.causeRecord s cause) fr := zh.trans ((causeRecord_only s cause).mono zc)

theorem drainNow_only (s : State) (cause : BitVec 4) : State.Only s (State.drainNow s cause) [.relx] := by
  unfold State.drainNow
  repeat' first | with_reducible assumption | with_reducible exact .refl _ _ | with_reducible refine only_ite ?_ ?_ | with_reducible refine only_modRelx ?_ (by decide) | split | dsimp only

theorem only_drainNow {z : State} {fr : List Comp} {s : State} {cause : BitVec 4} (zh : State.Only z s fr) (zc : ∀ c ∈ ([.relx] : List Comp), c ∈ fr) :
    State.Only z (State.drainNow s cause) fr := zh.trans ((drainNow_only s cause).mono zc)

theorem retireCause_only (s : State) (cause : BitVec 4) : State.Only s (State.retireCause s cause) [.flash, .top, .bist, .healx, .relx, .chest, .out] := by
  unfold State.retireCause
  repeat' first | with_reducible assumption | with_reducible exact .refl _ _ | with_reducible refine only_ite ?_ ?_ | with_reducible refine only_modBist ?_ (by decide) | with_reducible refine only_modHealx ?_ (by decide) | with_reducible refine only_setRetireFlag ?_ (by decide) | with_reducible refine only_retired ?_ (by decide) | with_reducible refine only_causeRecord ?_ (by decide) | with_reducible refine only_drainNow ?_ (by decide) | split | dsimp only

theorem only_retireCause {z : State} {fr : List Comp} {s : State} {cause : BitVec 4} (zh : State.Only z s fr) (zc : ∀ c ∈ ([.flash, .top, .bist, .healx, .relx, .chest, .out] : List Comp), c ∈ fr) :
    State.Only z (State.retireCause s cause) fr := zh.trans ((retireCause_only s cause).mono zc)

theorem cutArriving_only (s : State) (p : Nat) : State.Only s (State.cutArriving s p) [.chest, .fabs, .tasks, .held] := by
  unfold State.cutArriving
  repeat' first | with_reducible assumption | with_reducible exact .refl _ _ | with_reducible refine only_ite ?_ ?_ | with_reducible refine only_each ?_ (fun _ _ _ => ?_) | with_reducible refine only_modHeld ?_ (by decide) | with_reducible refine only_updFab ?_ (by decide) | with_reducible refine only_detect ?_ (by decide) | split | dsimp only

theorem only_cutArriving {z : State} {fr : List Comp} {s : State} {p : Nat} (zh : State.Only z s fr) (zc : ∀ c ∈ ([.chest, .fabs, .tasks, .held] : List Comp), c ∈ fr) :
    State.Only z (State.cutArriving s p) fr := zh.trans ((cutArriving_only s p).mono zc)

theorem fabDown_only (s : State) (p : Nat) (cause : BitVec 4) : State.Only s (State.fabDown s p cause) [.top, .fret, .healx, .chest, .spn, .fabs, .tasks, .held, .out] := by
  unfold State.fabDown
  repeat' first | with_reducible assumption | with_reducible exact .refl _ _ | with_reducible refine only_ite ?_ ?_ | with_reducible refine only_when ?_ ?_ | with_reducible refine only_modHealx ?_ (by decide) | with_reducible refine only_updFab ?_ (by decide) | with_reducible refine only_recordAt ?_ (by decide) | with_reducible refine only_attn ?_ (by decide) | with_reducible refine only_flightDown ?_ (by decide) | with_reducible refine only_cutPort ?_ (by decide) | with_reducible refine only_cutArriving ?_ (by decide) | split | dsimp only

theorem only_fabDown {z : State} {fr : List Comp} {s : State} {p : Nat} {cause : BitVec 4} (zh : State.Only z s fr) (zc : ∀ c ∈ ([.top, .fret, .healx, .chest, .spn, .fabs, .tasks, .held, .out] : List Comp), c ∈ fr) :
    State.Only z (State.fabDown s p cause) fr := zh.trans ((fabDown_only s p cause).mono zc)

theorem variantRecord_only (s : State) (c : Nat) (sched : BitVec 32) : State.Only s (State.variantRecord s c sched) [.chest] := by
  unfold State.variantRecord
  repeat' first | with_reducible assumption | with_reducible exact .refl _ _ | with_reducible refine only_ite ?_ ?_ | with_reducible refine only_recordAt ?_ (by decide) | split | dsimp only

theorem only_variantRecord {z : State} {fr : List Comp} {s : State} {c : Nat} {sched : BitVec 32} (zh : State.Only z s fr) (zc : ∀ c ∈ ([.chest] : List Comp), c ∈ fr) :
    State.Only z (State.variantRecord s c sched) fr := zh.trans ((variantRecord_only s c sched).mono zc)

theorem lostCheck_only (s : State) (c : Nat) (before : List Nat) : State.Only s (State.lostCheck s c before) [.flash, .top, .bist, .healx, .relx, .chest, .out] := by
  unfold State.lostCheck
  repeat' first | with_reducible assumption | with_reducible exact .refl _ _ | with_reducible refine only_ite ?_ ?_ | with_reducible refine only_when ?_ ?_ | with_reducible refine only_each ?_ (fun _ _ _ => ?_) | with_reducible refine only_retireCause ?_ (by decide) | with_reducible refine only_variantRecord ?_ (by decide) | split | dsimp only

theorem only_lostCheck {z : State} {fr : List Comp} {s : State} {c : Nat} {before : List Nat} (zh : State.Only z s fr) (zc : ∀ c ∈ ([.flash, .top, .bist, .healx, .relx, .chest, .out] : List Comp), c ∈ fr) :
    State.Only z (State.lostCheck s c before) fr := zh.trans ((lostCheck_only s c before).mono zc)

theorem clearTransit_only (s : State) (unit : Nat) : State.Only s (State.clearTransit s unit) [.relx] := by
  unfold State.clearTransit
  repeat' first | with_reducible assumption | with_reducible exact .refl _ _ | with_reducible refine only_ite ?_ ?_ | with_reducible refine only_modRelx ?_ (by decide) | split | dsimp only

theorem only_clearTransit {z : State} {fr : List Comp} {s : State} {unit : Nat} (zh : State.Only z s fr) (zc : ∀ c ∈ ([.relx] : List Comp), c ∈ fr) :
    State.Only z (State.clearTransit s unit) fr := zh.trans ((clearTransit_only s unit).mono zc)

theorem fenceTile_only (s : State) (pt : Nat) (verdict : Nat) : State.Only s (State.fenceTile s pt verdict) [.flash, .top, .bist, .heal, .healx, .relx, .chest, .tiles, .out] := by
  unfold State.fenceTile
  repeat' first | with_reducible assumption | with_reducible exact .refl _ _ | with_reducible refine only_ite ?_ ?_ | with_reducible refine only_modHeal ?_ (by decide) | with_reducible refine only_modHealx ?_ (by decide) | with_reducible refine only_updTile ?_ (by decide) | with_reducible refine only_updRole ?_ (by decide) | with_reducible refine only_recordAt ?_ (by decide) | with_reducible refine only_attn ?_ (by decide) | with_reducible refine only_lostCheck ?_ (by decide) | with_reducible refine only_clearTransit ?_ (by decide) | split | dsimp only

theorem only_fenceTile {z : State} {fr : List Comp} {s : State} {pt : Nat} {verdict : Nat} (zh : State.Only z s fr) (zc : ∀ c ∈ ([.flash, .top, .bist, .heal, .healx, .relx, .chest, .tiles, .out] : List Comp), c ∈ fr) :
    State.Only z (State.fenceTile s pt verdict) fr := zh.trans ((fenceTile_only s pt verdict).mono zc)

theorem transitAct_only (s : State) (unit : Nat) : State.Only s (State.transitAct s unit) [.flash, .top, .fret, .bist, .heal, .healx, .relx, .chest, .spn, .fabs, .tiles, .tasks, .held, .out] := by
  unfold State.transitAct
  repeat' first | with_reducible assumption | with_reducible exact .refl _ _ | with_reducible refine only_ite ?_ ?_ | with_reducible refine only_retireCause ?_ (by decide) | with_reducible refine only_fabDown ?_ (by decide) | with_reducible refine only_fenceTile ?_ (by decide) | split | dsimp only

theorem only_transitAct {z : State} {fr : List Comp} {s : State} {unit : Nat} (zh : State.Only z s fr) (zc : ∀ c ∈ ([.flash, .top, .fret, .bist, .heal, .healx, .relx, .chest, .spn, .fabs, .tiles, .tasks, .held, .out] : List Comp), c ∈ fr) :
    State.Only z (State.transitAct s unit) fr := zh.trans ((transitAct_only s unit).mono zc)

theorem countTransit_only (s : State) (unit : Nat) : State.Only s (State.countTransit s unit) [.flash, .top, .fret, .bist, .heal, .healx, .rel, .relx, .chest, .spn, .fabs, .tiles, .tasks, .held, .out] := by
  unfold State.countTransit
  repeat' first | with_reducible assumption | with_reducible exact .refl _ _ | with_reducible refine only_ite ?_ ?_ | with_reducible refine only_when ?_ ?_ | with_reducible refine only_modRel ?_ (by decide) | with_reducible refine only_modRelx ?_ (by decide) | with_reducible refine only_transitAct ?_ (by decide) | split | dsimp only

theorem only_countTransit {z : State} {fr : List Comp} {s : State} {unit : Nat} (zh : State.Only z s fr) (zc : ∀ c ∈ ([.flash, .top, .fret, .bist, .heal, .healx, .rel, .relx, .chest, .spn, .fabs, .tiles, .tasks, .held, .out] : List Comp), c ∈ fr) :
    State.Only z (State.countTransit s unit) fr := zh.trans ((countTransit_only s unit).mono zc)

theorem transitAt_only (s : State) (r : Router) (inPort : Nat) (bad : Option Nat) : State.Only s (State.transitAt s r inPort bad) [.flash, .top, .fret, .bist, .heal, .healx, .rel, .relx, .chest, .spn, .fabs, .tiles, .tasks, .held, .out] := by
  unfold State.transitAt
  repeat' first | with_reducible assumption | with_reducible exact .refl _ _ | with_reducible refine only_ite ?_ ?_ | with_reducible refine only_countTransit ?_ (by decide) | split | dsimp only

theorem only_transitAt {z : State} {fr : List Comp} {s : State} {r : Router} {inPort : Nat} {bad : Option Nat} (zh : State.Only z s fr) (zc : ∀ c ∈ ([.flash, .top, .fret, .bist, .heal, .healx, .rel, .relx, .chest, .spn, .fabs, .tiles, .tasks, .held, .out] : List Comp), c ∈ fr) :
    State.Only z (State.transitAt s r inPort bad) fr := zh.trans ((transitAt_only s r inPort bad).mono zc)

theorem updSched_only (s : State) (n : BitVec 32) (f : SchedSt → SchedSt) : State.Only s (State.updSched s n f) [.scheds] := by
  unfold State.updSched
  repeat' first | with_reducible assumption | with_reducible exact .refl _ _ | with_reducible refine only_ite ?_ ?_ | with_reducible refine only_modScheds ?_ (by decide) | split | dsimp only

theorem only_updSched {z : State} {fr : List Comp} {s : State} {n : BitVec 32} {f : SchedSt → SchedSt} (zh : State.Only z s fr) (zc : ∀ c ∈ ([.scheds] : List Comp), c ∈ fr) :
    State.Only z (State.updSched s n f) fr := zh.trans ((updSched_only s n f).mono zc)

theorem taskReport_only (s : State) (type : Nat) (st : Status) (attempt : Nat) (verdict : Nat) (task : BitVec 32) (fret : Nat) (origin : BitVec 10) (lt : Nat) (sched : BitVec 32) : State.Only s (State.taskReport s type st attempt verdict task fret origin lt sched) [.mch, .out] := by
  unfold State.taskReport
  repeat' first | with_reducible assumption | with_reducible exact .refl _ _ | with_reducible refine only_ite ?_ ?_ | with_reducible refine only_mcSend ?_ (by decide) | split | dsimp only

theorem only_taskReport {z : State} {fr : List Comp} {s : State} {type : Nat} {st : Status} {attempt : Nat} {verdict : Nat} {task : BitVec 32} {fret : Nat} {origin : BitVec 10} {lt : Nat} {sched : BitVec 32} (zh : State.Only z s fr) (zc : ∀ c ∈ ([.mch, .out] : List Comp), c ∈ fr) :
    State.Only z (State.taskReport s type st attempt verdict task fret origin lt sched) fr := zh.trans ((taskReport_only s type st attempt verdict task fret origin lt sched).mono zc)

theorem retryReport_only (s : State) (n : BitVec 32) : State.Only s (State.retryReport s n) [.relx, .mch, .out] := by
  unfold State.retryReport
  repeat' first | with_reducible assumption | with_reducible exact .refl _ _ | with_reducible refine only_ite ?_ ?_ | with_reducible refine only_modRelx ?_ (by decide) | with_reducible refine only_taskReport ?_ (by decide) | split | dsimp only

theorem only_retryReport {z : State} {fr : List Comp} {s : State} {n : BitVec 32} (zh : State.Only z s fr) (zc : ∀ c ∈ ([.relx, .mch, .out] : List Comp), c ∈ fr) :
    State.Only z (State.retryReport s n) fr := zh.trans ((retryReport_only s n).mono zc)

theorem arbLast_only (s : State) (pt : Nat) (verdict : BitVec 3) (valid : Bool) : State.Only s (State.arbLast s pt verdict valid) [.rel] := by
  unfold State.arbLast
  repeat' first | with_reducible assumption | with_reducible exact .refl _ _ | with_reducible refine only_ite ?_ ?_ | with_reducible refine only_modRel ?_ (by decide) | split | dsimp only

theorem only_arbLast {z : State} {fr : List Comp} {s : State} {pt : Nat} {verdict : BitVec 3} {valid : Bool} (zh : State.Only z s fr) (zc : ∀ c ∈ ([.rel] : List Comp), c ∈ fr) :
    State.Only z (State.arbLast s pt verdict valid) fr := zh.trans ((arbLast_only s pt verdict valid).mono zc)

theorem endArb_only (s : State) (pt : Nat) (verdict : BitVec 3) : State.Only s (State.endArb s pt verdict) [.relx, .mch, .tiles, .out] := by
  unfold State.endArb
  repeat' first | with_reducible assumption | with_reducible exact .refl _ _ | with_reducible refine only_ite ?_ ?_ | with_reducible refine only_modRelx ?_ (by decide) | with_reducible refine only_updTile ?_ (by decide) | with_reducible refine only_retryReport ?_ (by decide) | split | dsimp only

theorem only_endArb {z : State} {fr : List Comp} {s : State} {pt : Nat} {verdict : BitVec 3} (zh : State.Only z s fr) (zc : ∀ c ∈ ([.relx, .mch, .tiles, .out] : List Comp), c ∈ fr) :
    State.Only z (State.endArb s pt verdict) fr := zh.trans ((endArb_only s pt verdict).mono zc)

theorem tileFault_only (s : State) (pt : Nat) (task : BitVec 32) (fold : Nat) (rt : FoldRt) (f : TileFault) : State.Only s (State.tileFault s pt task fold rt f) [.flash, .top, .fret, .bist, .heal, .healx, .rel, .relx, .chest, .spn, .fabs, .tiles, .tasks, .held, .out] := by
  unfold State.tileFault
  repeat' first | with_reducible assumption | with_reducible exact .refl _ _ | with_reducible refine only_ite ?_ ?_ | with_reducible refine only_modRel ?_ (by decide) | with_reducible refine only_updTile ?_ (by decide) | with_reducible refine only_detect ?_ (by decide) | with_reducible refine only_countTransit ?_ (by decide) | split | dsimp only

theorem only_tileFault {z : State} {fr : List Comp} {s : State} {pt : Nat} {task : BitVec 32} {fold : Nat} {rt : FoldRt} {f : TileFault} (zh : State.Only z s fr) (zc : ∀ c ∈ ([.flash, .top, .fret, .bist, .heal, .healx, .rel, .relx, .chest, .spn, .fabs, .tiles, .tasks, .held, .out] : List Comp), c ∈ fr) :
    State.Only z (State.tileFault s pt task fold rt f) fr := zh.trans ((tileFault_only s pt task fold rt f).mono zc)

theorem tileFaults_only (s : State) (pt : Nat) (task : BitVec 32) (fold : Nat) (rt : FoldRt) (fs : List TileFault) : State.Only s (State.tileFaults s pt task fold rt fs) [.flash, .top, .fret, .bist, .heal, .healx, .rel, .relx, .chest, .spn, .fabs, .tiles, .tasks, .held, .out] := by
  unfold State.tileFaults
  repeat' first | with_reducible assumption | with_reducible exact .refl _ _ | with_reducible refine only_ite ?_ ?_ | with_reducible refine only_each ?_ (fun _ _ _ => ?_) | with_reducible refine only_tileFault ?_ (by decide) | split | dsimp only

theorem only_tileFaults {z : State} {fr : List Comp} {s : State} {pt : Nat} {task : BitVec 32} {fold : Nat} {rt : FoldRt} {fs : List TileFault} (zh : State.Only z s fr) (zc : ∀ c ∈ ([.flash, .top, .fret, .bist, .heal, .healx, .rel, .relx, .chest, .spn, .fabs, .tiles, .tasks, .held, .out] : List Comp), c ∈ fr) :
    State.Only z (State.tileFaults s pt task fold rt fs) fr := zh.trans ((tileFaults_only s pt task fold rt fs).mono zc)

theorem armIdle_only (s : State) (key : Nat) (h : HeldArm) : State.Only s (State.armIdle s key h) [.cluss, .ctxs, .tasks] := by
  unfold State.armIdle
  repeat' first | with_reducible assumption | with_reducible exact .refl _ _ | with_reducible refine only_ite ?_ ?_ | with_reducible refine only_when ?_ ?_ | with_reducible refine only_foldl ?_ (fun _ _ _ => ?_) | with_reducible refine only_foldl2 ?_ (fun _ _ _ => ?_) | with_reducible refine only_updClus ?_ (by decide) | with_reducible refine only_updCtx ?_ (by decide) | with_reducible refine only_updTask ?_ (by decide) | with_reducible refine only_failArm ?_ (by decide) | split | dsimp only

theorem only_armIdle {z : State} {fr : List Comp} {s : State} {key : Nat} {h : HeldArm} (zh : State.Only z s fr) (zc : ∀ c ∈ ([.cluss, .ctxs, .tasks] : List Comp), c ∈ fr) :
    State.Only z (State.armIdle s key h) fr := zh.trans ((armIdle_only s key h).mono zc)

theorem armCtx_only (s : State) (key : Nat) (h : HeldArm) : State.Only s (State.armCtx s key h) [.cluss, .ctxs, .tasks] := by
  unfold State.armCtx
  repeat' first | with_reducible assumption | with_reducible exact .refl _ _ | with_reducible refine only_ite ?_ ?_ | with_reducible refine only_updCtx ?_ (by decide) | with_reducible refine only_armIdle ?_ (by decide) | split | dsimp only

theorem only_armCtx {z : State} {fr : List Comp} {s : State} {key : Nat} {h : HeldArm} (zh : State.Only z s fr) (zc : ∀ c ∈ ([.cluss, .ctxs, .tasks] : List Comp), c ∈ fr) :
    State.Only z (State.armCtx s key h) fr := zh.trans ((armCtx_only s key h).mono zc)

theorem ctxIdle_only (s : State) (key : Nat) : State.Only s (State.ctxIdle s key) [.cluss, .ctxs, .tasks] := by
  unfold State.ctxIdle
  repeat' first | with_reducible assumption | with_reducible exact .refl _ _ | with_reducible refine only_ite ?_ ?_ | with_reducible refine only_updCtx ?_ (by decide) | with_reducible refine only_armIdle ?_ (by decide) | split | dsimp only

theorem only_ctxIdle {z : State} {fr : List Comp} {s : State} {key : Nat} (zh : State.Only z s fr) (zc : ∀ c ∈ ([.cluss, .ctxs, .tasks] : List Comp), c ∈ fr) :
    State.Only z (State.ctxIdle s key) fr := zh.trans ((ctxIdle_only s key).mono zc)

theorem updDrawer_only (s : State) (key : Nat) (k : Nat) (f : DrawerRt → DrawerRt) : State.Only s (State.updDrawer s key k f) [.ctxs] := by
  unfold State.updDrawer
  repeat' first | with_reducible assumption | with_reducible exact .refl _ _ | with_reducible refine only_ite ?_ ?_ | with_reducible refine only_updCtx ?_ (by decide) | split | dsimp only

theorem only_updDrawer {z : State} {fr : List Comp} {s : State} {key : Nat} {k : Nat} {f : DrawerRt → DrawerRt} (zh : State.Only z s fr) (zc : ∀ c ∈ ([.ctxs] : List Comp), c ∈ fr) :
    State.Only z (State.updDrawer s key k f) fr := zh.trans ((updDrawer_only s key k f).mono zc)

theorem recordDrawer_only (s : State) (key : Nat) (k : Nat) (slack : Int) (fill : Nat) : State.Only s (State.recordDrawer s key k slack fill) [.tel, .ctxs] := by
  unfold State.recordDrawer
  repeat' first | with_reducible assumption | with_reducible exact .refl _ _ | with_reducible refine only_ite ?_ ?_ | with_reducible refine only_modTel ?_ (by decide) | with_reducible refine only_updCtx ?_ (by decide) | split | dsimp only

theorem only_recordDrawer {z : State} {fr : List Comp} {s : State} {key : Nat} {k : Nat} {slack : Int} {fill : Nat} (zh : State.Only z s fr) (zc : ∀ c ∈ ([.tel, .ctxs] : List Comp), c ∈ fr) :
    State.Only z (State.recordDrawer s key k slack fill) fr := zh.trans ((recordDrawer_only s key k slack fill).mono zc)

theorem underrun_only (s : State) (key : Nat) : State.Only s (State.underrun s key) [.chest, .tel, .ctxs, .tasks] := by
  unfold State.underrun
  repeat' first | with_reducible assumption | with_reducible exact .refl _ _ | with_reducible refine only_ite ?_ ?_ | with_reducible refine only_modTel ?_ (by decide) | with_reducible refine only_updCtx ?_ (by decide) | with_reducible refine only_detect ?_ (by decide) | split | dsimp only

theorem only_underrun {z : State} {fr : List Comp} {s : State} {key : Nat} (zh : State.Only z s fr) (zc : ∀ c ∈ ([.chest, .tel, .ctxs, .tasks] : List Comp), c ∈ fr) :
    State.Only z (State.underrun s key) fr := zh.trans ((underrun_only s key).mono zc)

theorem sendReq_only (s : State) (c : Nat) (r : HbmReq) : State.Only s (State.sendReq s c r) [.tel, .hbm, .parts, .cluss, .ctxs] := by
  unfold State.sendReq
  repeat' first | with_reducible assumption | with_reducible exact .refl _ _ | with_reducible refine only_ite ?_ ?_ | with_reducible refine only_updClus ?_ (by decide) | with_reducible refine only_enqueueReq ?_ (by decide) | with_reducible refine only_updDrawer ?_ (by decide) | with_reducible refine only_recordDrawer ?_ (by decide) | split | dsimp only

theorem only_sendReq {z : State} {fr : List Comp} {s : State} {c : Nat} {r : HbmReq} (zh : State.Only z s fr) (zc : ∀ c ∈ ([.tel, .hbm, .parts, .cluss, .ctxs] : List Comp), c ∈ fr) :
    State.Only z (State.sendReq s c r) fr := zh.trans ((sendReq_only s c r).mono zc)

theorem issue_only (s : State) (key : Nat) (r : HbmReq) : State.Only s (State.issue s key r) [.tel, .hbm, .parts, .cluss, .ctxs] := by
  unfold State.issue
  repeat' first | with_reducible assumption | with_reducible exact .refl _ _ | with_reducible refine only_ite ?_ ?_ | with_reducible refine only_updClus ?_ (by decide) | with_reducible refine only_updCtx ?_ (by decide) | with_reducible refine only_sendReq ?_ (by decide) | split | dsimp only

theorem only_issue {z : State} {fr : List Comp} {s : State} {key : Nat} {r : HbmReq} (zh : State.Only z s fr) (zc : ∀ c ∈ ([.tel, .hbm, .parts, .cluss, .ctxs] : List Comp), c ∈ fr) :
    State.Only z (State.issue s key r) fr := zh.trans ((issue_only s key r).mono zc)

theorem drain_only (s : State) (c : Nat) : State.Only s (State.drain s c) [.tel, .hbm, .parts, .cluss, .ctxs] := by
  unfold State.drain
  repeat' first | with_reducible assumption | with_reducible exact .refl _ _ | with_reducible refine only_ite ?_ ?_ | with_reducible refine only_each ?_ (fun _ _ _ => ?_) | with_reducible refine only_updClus ?_ (by decide) | with_reducible refine only_sendReq ?_ (by decide) | split | dsimp only

theorem only_drain {z : State} {fr : List Comp} {s : State} {c : Nat} (zh : State.Only z s fr) (zc : ∀ c ∈ ([.tel, .hbm, .parts, .cluss, .ctxs] : List Comp), c ∈ fr) :
    State.Only z (State.drain s c) fr := zh.trans ((drain_only s c).mono zc)

theorem drainAll_only (s : State) : State.Only s (State.drainAll s) [.tel, .hbm, .parts, .cluss, .ctxs] := by
  unfold State.drainAll
  repeat' first | with_reducible assumption | with_reducible exact .refl _ _ | with_reducible refine only_ite ?_ ?_ | with_reducible refine only_each ?_ (fun _ _ _ => ?_) | with_reducible refine only_drain ?_ (by decide) | split | dsimp only

theorem only_drainAll {z : State} {fr : List Comp} {s : State} (zh : State.Only z s fr) (zc : ∀ c ∈ ([.tel, .hbm, .parts, .cluss, .ctxs] : List Comp), c ∈ fr) :
    State.Only z (State.drainAll s) fr := zh.trans ((drainAll_only s).mono zc)

theorem checkFull_only (s : State) (key : Nat) (k : Nat) : State.Only s (State.checkFull s key k) [.tel, .ctxs] := by
  unfold State.checkFull
  repeat' first | with_reducible assumption | with_reducible exact .refl _ _ | with_reducible refine only_ite ?_ ?_ | with_reducible refine only_updDrawer ?_ (by decide) | with_reducible refine only_recordDrawer ?_ (by decide) | split | dsimp only

theorem only_checkFull {z : State} {fr : List Comp} {s : State} {key : Nat} {k : Nat} (zh : State.Only z s fr) (zc : ∀ c ∈ ([.tel, .ctxs] : List Comp), c ∈ fr) :
    State.Only z (State.checkFull s key k) fr := zh.trans ((checkFull_only s key k).mono zc)

theorem fillDrawer_only (s : State) (key : Nat) (u : StreamUse) (k : Nat) (off : Nat) (bs : List Byte) : State.Only s (State.fillDrawer s key u k off bs) [.tiles] := by
  unfold State.fillDrawer
  repeat' first | with_reducible assumption | with_reducible exact .refl _ _ | with_reducible refine only_ite ?_ ?_ | with_reducible refine only_when ?_ ?_ | with_reducible refine only_updTile ?_ (by decide) | split | dsimp only

theorem only_fillDrawer {z : State} {fr : List Comp} {s : State} {key : Nat} {u : StreamUse} {k : Nat} {off : Nat} {bs : List Byte} (zh : State.Only z s fr) (zc : ∀ c ∈ ([.tiles] : List Comp), c ∈ fr) :
    State.Only z (State.fillDrawer s key u k off bs) fr := zh.trans ((fillDrawer_only s key u k off bs).mono zc)

theorem zeroDrawer_only (s : State) (key : Nat) (u : StreamUse) (k : Nat) (off : Nat) (n : Nat) : State.Only s (State.zeroDrawer s key u k off n) [.tiles, .ctxs] := by
  unfold State.zeroDrawer
  repeat' first | with_reducible assumption | with_reducible exact .refl _ _ | with_reducible refine only_ite ?_ ?_ | with_reducible refine only_updDrawer ?_ (by decide) | with_reducible refine only_fillDrawer ?_ (by decide) | split | dsimp only

theorem only_zeroDrawer {z : State} {fr : List Comp} {s : State} {key : Nat} {u : StreamUse} {k : Nat} {off : Nat} {n : Nat} (zh : State.Only z s fr) (zc : ∀ c ∈ ([.tiles, .ctxs] : List Comp), c ∈ fr) :
    State.Only z (State.zeroDrawer s key u k off n) fr := zh.trans ((zeroDrawer_only s key u k off n).mono zc)

theorem openDrawer_only (s : State) (key : Nat) (k : Nat) (want : Nat) : State.Only s (State.openDrawer s key k want) [.ctxs] := by
  unfold State.openDrawer
  repeat' first | with_reducible assumption | with_reducible exact .refl _ _ | with_reducible refine only_ite ?_ ?_ | with_reducible refine only_updCtx ?_ (by decide) | with_reducible refine only_updDrawer ?_ (by decide) | split | dsimp only

theorem only_openDrawer {z : State} {fr : List Comp} {s : State} {key : Nat} {k : Nat} {want : Nat} (zh : State.Only z s fr) (zc : ∀ c ∈ ([.ctxs] : List Comp), c ∈ fr) :
    State.Only z (State.openDrawer s key k want) fr := zh.trans ((openDrawer_only s key k want).mono zc)

theorem keepAhead_only (s : State) (key : Nat) (k : Nat) (m : Nat) (i : Nat) (d : Nat) : State.Only s (State.keepAhead s key k m i d) [.parts, .cluss] := by
  unfold State.keepAhead
  repeat' first | with_reducible assumption | with_reducible exact .refl _ _ | with_reducible refine only_ite ?_ ?_ | with_reducible refine only_modParts ?_ (by decide) | with_reducible refine only_updClus ?_ (by decide) | split | dsimp only

theorem only_keepAhead {z : State} {fr : List Comp} {s : State} {key : Nat} {k : Nat} {m : Nat} {i : Nat} {d : Nat} (zh : State.Only z s fr) (zc : ∀ c ∈ ([.parts, .cluss] : List Comp), c ∈ fr) :
    State.Only z (State.keepAhead s key k m i d) fr := zh.trans ((keepAhead_only s key k m i d).mono zc)

theorem dropAhead_only (s : State) (key : Nat) (k : Nat) (m : Nat) (i : Nat) : State.Only s (State.dropAhead s key k m i) [.parts, .cluss, .ctxs] := by
  unfold State.dropAhead
  repeat' first | with_reducible assumption | with_reducible exact .refl _ _ | with_reducible refine only_ite ?_ ?_ | with_reducible refine only_foldl ?_ (fun _ _ _ => ?_) | with_reducible refine only_foldl2 ?_ (fun _ _ _ => ?_) | with_reducible refine only_modParts ?_ (by decide) | with_reducible refine only_updClus ?_ (by decide) | with_reducible refine only_updCtx ?_ (by decide) | with_reducible refine only_updDrawer ?_ (by decide) | split | dsimp only

theorem only_dropAhead {z : State} {fr : List Comp} {s : State} {key : Nat} {k : Nat} {m : Nat} {i : Nat} (zh : State.Only z s fr) (zc : ∀ c ∈ ([.parts, .cluss, .ctxs] : List Comp), c ∈ fr) :
    State.Only z (State.dropAhead s key k m i) fr := zh.trans ((dropAhead_only s key k m i).mono zc)

theorem gatherPage_only (s : State) (key : Nat) (u : StreamUse) (g : GatherCfg) (k : Nat) (i : Nat) (idx : Nat) (d : Int) : State.Only s (State.gatherPage s key u g k i idx d) [.chest, .tel, .hbm, .parts, .cluss, .tiles, .ctxs, .tasks] := by
  unfold State.gatherPage
  repeat' first | with_reducible assumption | with_reducible exact .refl _ _ | with_reducible refine only_ite ?_ ?_ | with_reducible refine only_each ?_ (fun _ _ _ => ?_) | with_reducible refine only_updPart ?_ (by decide) | with_reducible refine only_detect ?_ (by decide) | with_reducible refine only_updDrawer ?_ (by decide) | with_reducible refine only_issue ?_ (by decide) | with_reducible refine only_zeroDrawer ?_ (by decide) | with_reducible refine only_keepAhead ?_ (by decide) | with_reducible refine only_dropAhead ?_ (by decide) | split | dsimp only

theorem only_gatherPage {z : State} {fr : List Comp} {s : State} {key : Nat} {u : StreamUse} {g : GatherCfg} {k : Nat} {i : Nat} {idx : Nat} {d : Int} (zh : State.Only z s fr) (zc : ∀ c ∈ ([.chest, .tel, .hbm, .parts, .cluss, .tiles, .ctxs, .tasks] : List Comp), c ∈ fr) :
    State.Only z (State.gatherPage s key u g k i idx d) fr := zh.trans ((gatherPage_only s key u g k i idx d).mono zc)

theorem issueGather_only (s : State) (key : Nat) (u : StreamUse) (g : GatherCfg) (k : Nat) : State.Only s (State.issueGather s key u g k) [.chest, .tel, .hbm, .parts, .cluss, .tiles, .ctxs, .tasks, .out] := by
  unfold State.issueGather
  repeat' first | with_reducible assumption | with_reducible exact .refl _ _ | with_reducible refine only_ite ?_ ?_ | with_reducible refine only_each ?_ (fun _ _ _ => ?_) | with_reducible refine only_updPart ?_ (by decide) | with_reducible refine only_updCtx ?_ (by decide) | with_reducible refine only_detect ?_ (by decide) | with_reducible refine only_popWords (by assumption) ?_ (by decide) | with_reducible refine only_popWords_if (by assumption) ?_ (by decide) | with_reducible refine only_checkFull ?_ (by decide) | with_reducible refine only_openDrawer ?_ (by decide) | with_reducible refine only_gatherPage ?_ (by decide) | split | dsimp only

theorem only_issueGather {z : State} {fr : List Comp} {s : State} {key : Nat} {u : StreamUse} {g : GatherCfg} {k : Nat} (zh : State.Only z s fr) (zc : ∀ c ∈ ([.chest, .tel, .hbm, .parts, .cluss, .tiles, .ctxs, .tasks, .out] : List Comp), c ∈ fr) :
    State.Only z (State.issueGather s key u g k) fr := zh.trans ((issueGather_only s key u g k).mono zc)

theorem kvPop_only (s : State) (key : Nat) (u : StreamUse) (kv : KvCfg) : State.Only s (State.kvPop s key u kv).2 [.chest, .sess, .tiles, .ctxs, .tasks, .out, .free] := by
  unfold State.kvPop
  repeat' first | with_reducible assumption | with_reducible exact .refl _ _ | with_reducible refine only_ite ?_ ?_ | with_reducible refine only_updCtx ?_ (by decide) | with_reducible refine only_detect ?_ (by decide) | with_reducible refine only_popWords (by assumption) ?_ (by decide) | with_reducible refine only_popWords_if (by assumption) ?_ (by decide) | with_reducible refine only_replyNone ?_ (by decide) | with_reducible refine only_popSession ?_ (by decide) | with_reducible refine only_fillDrawer ?_ (by decide) | split | dsimp only

theorem only_kvPop {z : State} {fr : List Comp} {s : State} {key : Nat} {u : StreamUse} {kv : KvCfg} (zh : State.Only z s fr) (zc : ∀ c ∈ ([.chest, .sess, .tiles, .ctxs, .tasks, .out, .free] : List Comp), c ∈ fr) :
    State.Only z (State.kvPop s key u kv).2 fr := zh.trans ((kvPop_only s key u kv).mono zc)

theorem kvRequests_only (s : State) (key : Nat) (u : StreamUse) (kv : KvCfg) (k : Nat) (n : Nat) (c : Nat) : State.Only s (State.kvRequests s key u kv k n c) [.chest, .tel, .hbm, .parts, .cluss, .ctxs, .tasks] := by
  unfold State.kvRequests
  repeat' first | with_reducible assumption | with_reducible exact .refl _ _ | with_reducible refine only_ite ?_ ?_ | with_reducible refine only_each ?_ (fun _ _ _ => ?_) | with_reducible refine only_detect ?_ (by decide) | with_reducible refine only_issue ?_ (by decide) | split | dsimp only

theorem only_kvRequests {z : State} {fr : List Comp} {s : State} {key : Nat} {u : StreamUse} {kv : KvCfg} {k : Nat} {n : Nat} {c : Nat} (zh : State.Only z s fr) (zc : ∀ c ∈ ([.chest, .tel, .hbm, .parts, .cluss, .ctxs, .tasks] : List Comp), c ∈ fr) :
    State.Only z (State.kvRequests s key u kv k n c) fr := zh.trans ((kvRequests_only s key u kv k n c).mono zc)

theorem issueKv_only (s : State) (key : Nat) (u : StreamUse) (kv : KvCfg) (k : Nat) : State.Only s (State.issueKv s key u kv k) [.chest, .tel, .sess, .hbm, .parts, .cluss, .tiles, .ctxs, .tasks, .out, .free] := by
  unfold State.issueKv
  repeat' first | with_reducible assumption | with_reducible exact .refl _ _ | with_reducible refine only_ite ?_ ?_ | with_reducible refine only_each ?_ (fun _ _ _ => ?_) | with_reducible refine only_detect ?_ (by decide) | with_reducible refine only_updDrawer ?_ (by decide) | with_reducible refine only_issue ?_ (by decide) | with_reducible refine only_checkFull ?_ (by decide) | with_reducible refine only_fillDrawer ?_ (by decide) | with_reducible refine only_openDrawer ?_ (by decide) | with_reducible refine only_kvPop ?_ (by decide) | split | dsimp only

theorem only_issueKv {z : State} {fr : List Comp} {s : State} {key : Nat} {u : StreamUse} {kv : KvCfg} {k : Nat} (zh : State.Only z s fr) (zc : ∀ c ∈ ([.chest, .tel, .sess, .hbm, .parts, .cluss, .tiles, .ctxs, .tasks, .out, .free] : List Comp), c ∈ fr) :
    State.Only z (State.issueKv s key u kv k) fr := zh.trans ((issueKv_only s key u kv k).mono zc)

theorem kvGrow_only (k : Nat) (s : State) (task : BitVec 32) (n upto : Nat) :
    s.Only (s.kvGrow task n upto k).2 [.top, .rel, .chest, .sess, .hbm, .parts, .out] := by
  induction k generalizing s with
  | zero => exact .refl _ _
  | succ k ih =>
    unfold State.kvGrow
    split
    · exact .refl _ _
    · split
      · rename_i h; exact ((growPage_only h).mono (by decide)).trans (ih _)
      · exact only_updHold (only_modSess (only_updSession (.refl _ _) (by decide)) (by decide)) (by decide)

theorem only_kvGrow {z s : State} {fr : List Comp} {k n upto : Nat} {task : BitVec 32} (zh : z.Only s fr)
    (zc : ∀ c ∈ ([.top, .rel, .chest, .sess, .hbm, .parts, .out] : List Comp), c ∈ fr) : z.Only (s.kvGrow task n upto k).2 fr :=
  zh.trans ((kvGrow_only k s task n upto).mono zc)

theorem issueWrite_only (s : State) (key : Nat) (u : StreamUse) (k : Nat) (obs : List TileFault) : State.Only s (State.issueWrite s key u k obs) [.top, .rel, .chest, .tel, .sess, .hbm, .parts, .cluss, .tiles, .ctxs, .tasks, .out, .free] := by
  unfold State.issueWrite
  repeat' first | with_reducible assumption | with_reducible exact .refl _ _ | with_reducible refine only_ite ?_ ?_ | with_reducible refine only_each ?_ (fun _ _ _ => ?_) | with_reducible refine only_detect ?_ (by decide) | with_reducible refine only_updDrawer ?_ (by decide) | with_reducible refine only_issue ?_ (by decide) | with_reducible refine only_openDrawer ?_ (by decide) | with_reducible refine only_kvPop ?_ (by decide) | with_reducible refine only_kvGrow ?_ (by decide) | split | dsimp only

theorem only_issueWrite {z : State} {fr : List Comp} {s : State} {key : Nat} {u : StreamUse} {k : Nat} {obs : List TileFault} (zh : State.Only z s fr) (zc : ∀ c ∈ ([.top, .rel, .chest, .tel, .sess, .hbm, .parts, .cluss, .tiles, .ctxs, .tasks, .out, .free] : List Comp), c ∈ fr) :
    State.Only z (State.issueWrite s key u k obs) fr := zh.trans ((issueWrite_only s key u k obs).mono zc)

theorem stopStreams_only (s : State) (task : BitVec 32) : s.Only (s.stopStreams task) [.cluss, .ctxs, .tasks] := by
  unfold State.stopStreams
  refine only_each (.refl _ _) fun v x hv => ?_
  extract_lets u y cut
  have hu : s.Only u [.cluss, .ctxs, .tasks] := only_updCtx hv (by decide)
  have hcut : ∀ w : State, s.Only w [.cluss, .ctxs, .tasks] → s.Only (cut w) [.cluss, .ctxs, .tasks] := fun w hw => only_updCtx hw (by decide)
  refine only_ite hu ?_
  split
  · exact only_ctxIdle (hcut _ hu) (by decide)
  · exact only_updCtx (hcut _ (only_updClus hu (by decide))) (by decide)
  · exact hu

theorem only_stopStreams {z s : State} {fr : List Comp} {task : BitVec 32} (zh : z.Only s fr)
    (zc : ∀ c ∈ ([.cluss, .ctxs, .tasks] : List Comp), c ∈ fr) : z.Only (s.stopStreams task) fr :=
  zh.trans ((stopStreams_only s task).mono zc)

theorem resetEngine_only (s : State) (c : Nat) : State.Only s (State.resetEngine s c) [.parts, .cluss, .ctxs] := by
  unfold State.resetEngine
  repeat' first | with_reducible assumption | with_reducible exact .refl _ _ | with_reducible refine only_ite ?_ ?_ | with_reducible refine only_modParts ?_ (by decide) | with_reducible refine only_modCtxs ?_ (by decide) | with_reducible refine only_updClus ?_ (by decide) | split | dsimp only

theorem only_resetEngine {z : State} {fr : List Comp} {s : State} {c : Nat} (zh : State.Only z s fr) (zc : ∀ c ∈ ([.parts, .cluss, .ctxs] : List Comp), c ∈ fr) :
    State.Only z (State.resetEngine s c) fr := zh.trans ((resetEngine_only s c).mono zc)

theorem absorb_only (s : State) (n : Nat) : State.Only s (State.absorb s n) [.heal] := by
  unfold State.absorb
  repeat' first | with_reducible assumption | with_reducible exact .refl _ _ | with_reducible refine only_ite ?_ ?_ | with_reducible refine only_modHeal ?_ (by decide) | split | dsimp only

theorem only_absorb {z : State} {fr : List Comp} {s : State} {n : Nat} (zh : State.Only z s fr) (zc : ∀ c ∈ ([.heal] : List Comp), c ∈ fr) :
    State.Only z (State.absorb s n) fr := zh.trans ((absorb_only s n).mono zc)

theorem armTile_only (s : State) (pt : Nat) (m : ArmMsg) : State.Only s (State.armTile s pt m) [.tiles, .tasks] := by
  unfold State.armTile
  repeat' first | with_reducible assumption | with_reducible exact .refl _ _ | with_reducible refine only_ite ?_ ?_ | with_reducible refine only_updTile ?_ (by decide) | with_reducible refine only_failArm ?_ (by decide) | split | dsimp only

theorem only_armTile {z : State} {fr : List Comp} {s : State} {pt : Nat} {m : ArmMsg} (zh : State.Only z s fr) (zc : ∀ c ∈ ([.tiles, .tasks] : List Comp), c ∈ fr) :
    State.Only z (State.armTile s pt m) fr := zh.trans ((armTile_only s pt m).mono zc)

theorem disarm_only (s : State) (n : BitVec 32) : State.Only s (State.disarm s n) [.tiles] := by
  unfold State.disarm
  repeat' first | with_reducible assumption | with_reducible exact .refl _ _ | with_reducible refine only_ite ?_ ?_ | with_reducible refine only_modTiles ?_ (by decide) | split | dsimp only

theorem only_disarm {z : State} {fr : List Comp} {s : State} {n : BitVec 32} (zh : State.Only z s fr) (zc : ∀ c ∈ ([.tiles] : List Comp), c ∈ fr) :
    State.Only z (State.disarm s n) fr := zh.trans ((disarm_only s n).mono zc)

theorem sendPort_only (s : State) (lt : Nat) (pt : Nat) (task : BitVec 32) (fold : Nat) (port : Nat) (o : OutputCfg) (words : List (List Byte)) (bad : Bool) : State.Only s (State.sendPort s lt pt task fold port o words bad) [.chest, .tiles, .tasks, .out] := by
  unfold State.sendPort
  repeat' first | with_reducible assumption | with_reducible exact .refl _ _ | with_reducible refine only_ite ?_ ?_ | with_reducible refine only_detect ?_ (by decide) | with_reducible refine only_updRt ?_ (by decide) | with_reducible refine only_sendWords ?_ (by decide) | split | dsimp only

theorem only_sendPort {z : State} {fr : List Comp} {s : State} {lt : Nat} {pt : Nat} {task : BitVec 32} {fold : Nat} {port : Nat} {o : OutputCfg} {words : List (List Byte)} {bad : Bool} (zh : State.Only z s fr) (zc : ∀ c ∈ ([.chest, .tiles, .tasks, .out] : List Comp), c ∈ fr) :
    State.Only z (State.sendPort s lt pt task fold port o words bad) fr := zh.trans ((sendPort_only s lt pt task fold port o words bad).mono zc)

theorem sendFlights_only (s : State) (lt : Nat) : State.Only s (State.sendFlights s lt) [.chest, .tiles, .tasks, .out] := by
  unfold State.sendFlights
  repeat' first | with_reducible assumption | with_reducible exact .refl _ _ | with_reducible refine only_ite ?_ ?_ | with_reducible refine only_each ?_ (fun _ _ _ => ?_) | with_reducible refine only_updTile ?_ (by decide) | with_reducible refine only_sendPort ?_ (by decide) | split | dsimp only

theorem only_sendFlights {z : State} {fr : List Comp} {s : State} {lt : Nat} (zh : State.Only z s fr) (zc : ∀ c ∈ ([.chest, .tiles, .tasks, .out] : List Comp), c ∈ fr) :
    State.Only z (State.sendFlights s lt) fr := zh.trans ((sendFlights_only s lt).mono zc)

theorem takeDrawer_only {s t : State} {key n i : Nat} {bs : List Byte} {z : List Nat}
    (h : s.takeDrawer key n = .got bs i z t) : s.Only t [.ctxs] := by
  unfold State.takeDrawer at h
  dsimp only at h
  split at h
  · simp at h
  · split at h
    · simp at h
    · split at h
      · simp at h
      · split at h
        · simp at h
        · obtain ⟨-, -, -, rfl⟩ := Take.got.inj h; exact only_updDrawer (.refl _ _) (by decide)

theorem takeInput_only {s t : State} {lt fold i p : Nat} {c : InputCfg} {bs : List Byte} {z : List Nat}
    (h : s.takeInput lt fold i c = .got bs p z t) : s.Only t [.mch, .tiles, .ctxs, .out] := by
  unfold State.takeInput at h
  dsimp only at h
  split at h
  · split at h
    · simp at h
    · rename_i k; obtain ⟨-, -, -, rfl⟩ := Take.got.inj h; exact only_popWords k (.refl _ _) (by decide)
  · exact (takeDrawer_only h).mono (by decide)
  · split at h
    · obtain ⟨-, -, -, rfl⟩ := Take.got.inj h; exact .refl _ _
    · rename_i k; obtain ⟨-, -, -, rfl⟩ := Take.got.inj h; exact only_takeMessage k (.refl _ _) (by decide)

theorem takeInputs_only (cs : List (InputCfg × Nat)) (s : State) (lt fold : Nat) (skip : List Nat) :
    s.Only (s.takeInputs lt fold skip cs).2.1 [.mch, .tiles, .ctxs, .out] := by
  induction cs generalizing s with
  | nil => exact .refl _ _
  | cons x cs ih =>
    obtain ⟨c, i⟩ := x
    unfold State.takeInputs
    split
    · exact ih s
    · split
      · exact .refl _ _
      · rename_i h; exact (takeInput_only h).trans (ih _)

theorem only_takeInputs {z s : State} {fr : List Comp} {lt fold : Nat} {skip : List Nat} {cs : List (InputCfg × Nat)}
    (zh : z.Only s fr) (zc : ∀ c ∈ ([.mch, .tiles, .ctxs, .out] : List Comp), c ∈ fr) :
    z.Only (s.takeInputs lt fold skip cs).2.1 fr := zh.trans ((takeInputs_only cs s lt fold skip).mono zc)

theorem fillWrite_only (s : State) (task : BitVec 32) (key : Nat) (words : List (List Byte)) : State.Only s (State.fillWrite s task key words) [.chest, .tiles, .ctxs, .tasks] := by
  unfold State.fillWrite
  repeat' first | with_reducible assumption | with_reducible exact .refl _ _ | with_reducible refine only_ite ?_ ?_ | with_reducible refine only_updCtx ?_ (by decide) | with_reducible refine only_detect ?_ (by decide) | with_reducible refine only_updDrawer ?_ (by decide) | with_reducible refine only_fillDrawer ?_ (by decide) | split | dsimp only

theorem only_fillWrite {z : State} {fr : List Comp} {s : State} {task : BitVec 32} {key : Nat} {words : List (List Byte)} (zh : State.Only z s fr) (zc : ∀ c ∈ ([.chest, .tiles, .ctxs, .tasks] : List Comp), c ∈ fr) :
    State.Only z (State.fillWrite s task key words) fr := zh.trans ((fillWrite_only s task key words).mono zc)

theorem putOutputs_only (s : State) (lt : Nat) (pt : Nat) (task : BitVec 32) (fold : Nat) (f : FoldCfg) (outs : List (List Byte)) (bad : Bool) : State.Only s (State.putOutputs s lt pt task fold f outs bad) [.chest, .tiles, .ctxs, .tasks] := by
  unfold State.putOutputs
  repeat' first | with_reducible assumption | with_reducible exact .refl _ _ | with_reducible refine only_ite ?_ ?_ | with_reducible refine only_each ?_ (fun _ _ _ => ?_) | with_reducible refine only_updTile ?_ (by decide) | with_reducible refine only_fillWrite ?_ (by decide) | split | dsimp only

theorem only_putOutputs {z : State} {fr : List Comp} {s : State} {lt : Nat} {pt : Nat} {task : BitVec 32} {fold : Nat} {f : FoldCfg} {outs : List (List Byte)} {bad : Bool} (zh : State.Only z s fr) (zc : ∀ c ∈ ([.chest, .tiles, .ctxs, .tasks] : List Comp), c ∈ fr) :
    State.Only z (State.putOutputs s lt pt task fold f outs bad) fr := zh.trans ((putOutputs_only s lt pt task fold f outs bad).mono zc)

theorem runFold_only (s : State) (lt : Nat) (pt : Nat) (a : Armed) (fold : Nat) (f : FoldCfg) (ins : Taken) (bad : Bool) : State.Only s (State.runFold s lt pt a fold f ins bad) [.chest, .tiles, .ctxs, .tasks] := by
  unfold State.runFold
  repeat' first | with_reducible assumption | with_reducible exact .refl _ _ | with_reducible refine only_ite ?_ ?_ | with_reducible refine only_updTile ?_ (by decide) | with_reducible refine only_updRt ?_ (by decide) | with_reducible refine only_putOutputs ?_ (by decide) | split | dsimp only

theorem only_runFold {z : State} {fr : List Comp} {s : State} {lt : Nat} {pt : Nat} {a : Armed} {fold : Nat} {f : FoldCfg} {ins : Taken} {bad : Bool} (zh : State.Only z s fr) (zc : ∀ c ∈ ([.chest, .tiles, .ctxs, .tasks] : List Comp), c ∈ fr) :
    State.Only z (State.runFold s lt pt a fold f ins bad) fr := zh.trans ((runFold_only s lt pt a fold f ins bad).mono zc)

theorem resetTile_only (s : State) (pt : Nat) : State.Only s (State.resetTile s pt) [.rel, .relx, .chest, .mch, .tiles, .out] := by
  unfold State.resetTile
  repeat' first | with_reducible assumption | with_reducible exact .refl _ _ | with_reducible refine only_ite ?_ ?_ | with_reducible refine only_when ?_ ?_ | with_reducible refine only_modRel ?_ (by decide) | with_reducible refine only_updTile ?_ (by decide) | with_reducible refine only_recordAt ?_ (by decide) | with_reducible refine only_arbLast ?_ (by decide) | with_reducible refine only_endArb ?_ (by decide) | split | dsimp only

theorem only_resetTile {z : State} {fr : List Comp} {s : State} {pt : Nat} (zh : State.Only z s fr) (zc : ∀ c ∈ ([.rel, .relx, .chest, .mch, .tiles, .out] : List Comp), c ∈ fr) :
    State.Only z (State.resetTile s pt) fr := zh.trans ((resetTile_only s pt).mono zc)

theorem updSteer_only (s : State) (pt : Nat) (fold : Nat) (unit : Nat) (f : SteerRt → SteerRt) : State.Only s (State.updSteer s pt fold unit f) [.tiles] := by
  unfold State.updSteer
  repeat' first | with_reducible assumption | with_reducible exact .refl _ _ | with_reducible refine only_ite ?_ ?_ | with_reducible refine only_updRt ?_ (by decide) | split | dsimp only

theorem only_updSteer {z : State} {fr : List Comp} {s : State} {pt : Nat} {fold : Nat} {unit : Nat} {f : SteerRt → SteerRt} (zh : State.Only z s fr) (zc : ∀ c ∈ ([.tiles] : List Comp), c ∈ fr) :
    State.Only z (State.updSteer s pt fold unit f) fr := zh.trans ((updSteer_only s pt fold unit f).mono zc)

theorem pairCheck_only (s : State) (lt : Nat) (pt : Nat) (fold : Nat) (unit : Nat) (task : BitVec 32) (u : SteerCfg) (before : Nat) : State.Only s (State.pairCheck s lt pt fold unit task u before) [.chest, .tasks] := by
  unfold State.pairCheck
  repeat' first | with_reducible assumption | with_reducible exact .refl _ _ | with_reducible refine only_ite ?_ ?_ | with_reducible refine only_detect ?_ (by decide) | split | dsimp only

theorem only_pairCheck {z : State} {fr : List Comp} {s : State} {lt : Nat} {pt : Nat} {fold : Nat} {unit : Nat} {task : BitVec 32} {u : SteerCfg} {before : Nat} (zh : State.Only z s fr) (zc : ∀ c ∈ ([.chest, .tasks] : List Comp), c ∈ fr) :
    State.Only z (State.pairCheck s lt pt fold unit task u before) fr := zh.trans ((pairCheck_only s lt pt fold unit task u before).mono zc)

theorem addToken_only (s : State) (lt : Nat) (pt : Nat) (fold : Nat) (unit : Nat) (task : BitVec 32) (u : SteerCfg) (w : Word) : State.Only s (State.addToken s lt pt fold unit task u w) [.chest, .tiles, .tasks] := by
  unfold State.addToken
  repeat' first | with_reducible assumption | with_reducible exact .refl _ _ | with_reducible refine only_ite ?_ ?_ | with_reducible refine only_detect ?_ (by decide) | with_reducible refine only_updSteer ?_ (by decide) | with_reducible refine only_pairCheck ?_ (by decide) | split | dsimp only

theorem only_addToken {z : State} {fr : List Comp} {s : State} {lt : Nat} {pt : Nat} {fold : Nat} {unit : Nat} {task : BitVec 32} {u : SteerCfg} {w : Word} (zh : State.Only z s fr) (zc : ∀ c ∈ ([.chest, .tiles, .tasks] : List Comp), c ∈ fr) :
    State.Only z (State.addToken s lt pt fold unit task u w) fr := zh.trans ((addToken_only s lt pt fold unit task u w).mono zc)

theorem countDrop_only (s : State) (rp : ReleasePoint) : State.Only s (State.countDrop s rp) [.spn, .fabs] := by
  unfold State.countDrop
  repeat' first | with_reducible assumption | with_reducible exact .refl _ _ | with_reducible refine only_ite ?_ ?_ | with_reducible refine only_updFab ?_ (by decide) | with_reducible refine only_updSpn ?_ (by decide) | split | dsimp only

theorem only_countDrop {z : State} {fr : List Comp} {s : State} {rp : ReleasePoint} (zh : State.Only z s fr) (zc : ∀ c ∈ ([.spn, .fabs] : List Comp), c ∈ fr) :
    State.Only z (State.countDrop s rp) fr := zh.trans ((countDrop_only s rp).mono zc)

theorem updHeld_only (s : State) (rp : ReleasePoint) (f : List Held → List Held) : State.Only s (State.updHeld s rp f) [.held] := by
  unfold State.updHeld
  repeat' first | with_reducible assumption | with_reducible exact .refl _ _ | with_reducible refine only_ite ?_ ?_ | with_reducible refine only_modHeld ?_ (by decide) | split | dsimp only

theorem only_updHeld {z : State} {fr : List Comp} {s : State} {rp : ReleasePoint} {f : List Held → List Held} (zh : State.Only z s fr) (zc : ∀ c ∈ ([.held] : List Comp), c ∈ fr) :
    State.Only z (State.updHeld s rp f) fr := zh.trans ((updHeld_only s rp f).mono zc)

theorem noteMax_only (s : State) (rp : ReleasePoint) : State.Only s (State.noteMax s rp) [.tel, .fabs] := by
  unfold State.noteMax
  repeat' first | with_reducible assumption | with_reducible exact .refl _ _ | with_reducible refine only_ite ?_ ?_ | with_reducible refine only_updFab ?_ (by decide) | with_reducible refine only_updLink ?_ (by decide) | split | dsimp only

theorem only_noteMax {z : State} {fr : List Comp} {s : State} {rp : ReleasePoint} (zh : State.Only z s fr) (zc : ∀ c ∈ ([.tel, .fabs] : List Comp), c ∈ fr) :
    State.Only z (State.noteMax s rp) fr := zh.trans ((noteMax_only s rp).mono zc)

theorem discardRest_only (s : State) (rp : ReleasePoint) (w : Worm) (last : Bool) : State.Only s (State.discardRest s rp w last) [.held] := by
  unfold State.discardRest
  repeat' first | with_reducible assumption | with_reducible exact .refl _ _ | with_reducible refine only_ite ?_ ?_ | with_reducible refine only_updHeld ?_ (by decide) | split | dsimp only

theorem only_discardRest {z : State} {fr : List Comp} {s : State} {rp : ReleasePoint} {w : Worm} {last : Bool} (zh : State.Only z s fr) (zc : ∀ c ∈ ([.held] : List Comp), c ∈ fr) :
    State.Only z (State.discardRest s rp w last) fr := zh.trans ((discardRest_only s rp w last).mono zc)

theorem releaseArrive_only (s : State) (rp : ReleasePoint) (w : Worm) (left : Nat) (flits : Nat) (last : Bool) : State.Only s (State.releaseArrive s rp w left flits last) [.fret, .chest, .tel, .spn, .fabs, .tasks, .held] := by
  unfold State.releaseArrive
  repeat' first | with_reducible assumption | with_reducible exact .refl _ _ | with_reducible refine only_ite ?_ ?_ | with_reducible refine only_when ?_ ?_ | with_reducible refine only_detect ?_ (by decide) | with_reducible refine only_slip ?_ (by decide) | with_reducible refine only_countDrop ?_ (by decide) | with_reducible refine only_updHeld ?_ (by decide) | with_reducible refine only_noteMax ?_ (by decide) | with_reducible refine only_discardRest ?_ (by decide) | split | dsimp only

theorem only_releaseArrive {z : State} {fr : List Comp} {s : State} {rp : ReleasePoint} {w : Worm} {left : Nat} {flits : Nat} {last : Bool} (zh : State.Only z s fr) (zc : ∀ c ∈ ([.fret, .chest, .tel, .spn, .fabs, .tasks, .held] : List Comp), c ∈ fr) :
    State.Only z (State.releaseArrive s rp w left flits last) fr := zh.trans ((releaseArrive_only s rp w left flits last).mono zc)

theorem enterWords_only (s : State) (lt : Nat) (h : WormHead) (words : List (List Byte)) : State.Only s (State.enterWords s lt h words) [.chest, .tiles, .tasks] := by
  unfold State.enterWords
  repeat' first | with_reducible assumption | with_reducible exact .refl _ _ | with_reducible refine only_ite ?_ ?_ | with_reducible refine only_each ?_ (fun _ _ _ => ?_) | with_reducible refine only_updRt ?_ (by decide) | with_reducible refine only_pairCheck ?_ (by decide) | with_reducible refine only_addToken ?_ (by decide) | split | dsimp only

theorem only_enterWords {z : State} {fr : List Comp} {s : State} {lt : Nat} {h : WormHead} {words : List (List Byte)} (zh : State.Only z s fr) (zc : ∀ c ∈ ([.chest, .tiles, .tasks] : List Comp), c ∈ fr) :
    State.Only z (State.enterWords s lt h words) fr := zh.trans ((enterWords_only s lt h words).mono zc)

theorem dropHeld_only (s : State) (n : BitVec 32) : State.Only s (State.dropHeld s n) [.spn, .fabs, .held] := by
  unfold State.dropHeld
  repeat' first | with_reducible assumption | with_reducible exact .refl _ _ | with_reducible refine only_ite ?_ ?_ | with_reducible refine only_each ?_ (fun _ _ _ => ?_) | with_reducible refine only_modHeld ?_ (by decide) | with_reducible refine only_countDrop ?_ (by decide) | split | dsimp only

theorem only_dropHeld {z : State} {fr : List Comp} {s : State} {n : BitVec 32} (zh : State.Only z s fr) (zc : ∀ c ∈ ([.spn, .fabs, .held] : List Comp), c ∈ fr) :
    State.Only z (State.dropHeld s n) fr := zh.trans ((dropHeld_only s n).mono zc)

theorem newFret_only (s : State) : State.Only s (State.newFret s) [.fret, .chest, .tel, .mch, .tiles, .tasks, .out, .ticks] := by
  unfold State.newFret
  repeat' first | with_reducible assumption | with_reducible exact .refl _ _ | with_reducible refine only_ite ?_ ?_ | with_reducible refine only_each ?_ (fun _ _ _ => ?_) | with_reducible refine only_modFret ?_ (by decide) | with_reducible refine only_modTel ?_ (by decide) | with_reducible refine only_modTiles ?_ (by decide) | with_reducible refine only_modTicks ?_ (by decide) | with_reducible refine only_measureFlights ?_ (by decide) | with_reducible refine only_stallFret ?_ (by decide) | with_reducible refine only_sendFlights ?_ (by decide) | split | dsimp only

theorem only_newFret {z : State} {fr : List Comp} {s : State} (zh : State.Only z s fr) (zc : ∀ c ∈ ([.fret, .chest, .tel, .mch, .tiles, .tasks, .out, .ticks] : List Comp), c ∈ fr) :
    State.Only z (State.newFret s) fr := zh.trans ((newFret_only s).mono zc)

theorem startReq_only (s : State) (p : Nat) (r : HbmReq) (wrong : List Nat) (errs : List (Nat × BitErr)) : State.Only s (State.startReq s p r wrong errs) [.top, .rel, .chest, .hbm, .parts, .tasks, .out] := by
  unfold State.startReq
  repeat' first | with_reducible assumption | with_reducible exact .refl _ _ | with_reducible refine only_ite ?_ ?_ | with_reducible refine only_when ?_ ?_ | with_reducible refine only_each ?_ (fun _ _ _ => ?_) | with_reducible refine only_updPart ?_ (by decide) | with_reducible refine only_detect ?_ (by decide) | with_reducible refine only_noteErrs ?_ (by decide) | with_reducible refine only_recordUe ?_ (by decide) | with_reducible refine only_checkRange ?_ (by decide) | with_reducible refine only_hbmStore ?_ (by decide) | split | dsimp only

theorem only_startReq {z : State} {fr : List Comp} {s : State} {p : Nat} {r : HbmReq} {wrong : List Nat} {errs : List (Nat × BitErr)} (zh : State.Only z s fr) (zc : ∀ c ∈ ([.top, .rel, .chest, .hbm, .parts, .tasks, .out] : List Comp), c ∈ fr) :
    State.Only z (State.startReq s p r wrong errs) fr := zh.trans ((startReq_only s p r wrong errs).mono zc)

theorem endReq_only (s : State) (p : Nat) (r : HbmReq) : State.Only s (State.endReq s p r) [.hbm, .parts, .cluss, .ctxs] := by
  unfold State.endReq
  repeat' first | with_reducible assumption | with_reducible exact .refl _ _ | with_reducible refine only_ite ?_ ?_ | with_reducible refine only_updClus ?_ (by decide) | with_reducible refine only_updPart ?_ (by decide) | with_reducible refine only_updCtx ?_ (by decide) | with_reducible refine only_refill ?_ (by decide) | split | dsimp only

theorem only_endReq {z : State} {fr : List Comp} {s : State} {p : Nat} {r : HbmReq} (zh : State.Only z s fr) (zc : ∀ c ∈ ([.hbm, .parts, .cluss, .ctxs] : List Comp), c ∈ fr) :
    State.Only z (State.endReq s p r) fr := zh.trans ((endReq_only s p r).mono zc)

theorem speculatePage_only (s : State) (key : Nat) (g : GatherCfg) (k : Nat) (i : Nat) (idx : Nat) : State.Only s (State.speculatePage s key g k i idx) [.tel, .hbm, .parts, .cluss, .ctxs] := by
  unfold State.speculatePage
  repeat' first | with_reducible assumption | with_reducible exact .refl _ _ | with_reducible refine only_ite ?_ ?_ | with_reducible refine only_each ?_ (fun _ _ _ => ?_) | with_reducible refine only_issue ?_ (by decide) | split | dsimp only

theorem only_speculatePage {z : State} {fr : List Comp} {s : State} {key : Nat} {g : GatherCfg} {k : Nat} {i : Nat} {idx : Nat} (zh : State.Only z s fr) (zc : ∀ c ∈ ([.tel, .hbm, .parts, .cluss, .ctxs] : List Comp), c ∈ fr) :
    State.Only z (State.speculatePage s key g k i idx) fr := zh.trans ((speculatePage_only s key g k i idx).mono zc)

theorem lpInvalidate_only (s : State) (p : Nat) (counters : Bool) : State.Only s (State.lpInvalidate s p counters) [.parts] := by
  unfold State.lpInvalidate
  repeat' first | with_reducible assumption | with_reducible exact .refl _ _ | with_reducible refine only_ite ?_ ?_ | with_reducible refine only_updPart ?_ (by decide) | split | dsimp only

theorem only_lpInvalidate {z : State} {fr : List Comp} {s : State} {p : Nat} {counters : Bool} (zh : State.Only z s fr) (zc : ∀ c ∈ ([.parts] : List Comp), c ∈ fr) :
    State.Only z (State.lpInvalidate s p counters) fr := zh.trans ((lpInvalidate_only s p counters).mono zc)

theorem writeLpCfg_only (s : State) (p : Nat) (v : Word) : State.Only s (State.writeLpCfg s p v) [.parts] := by
  unfold State.writeLpCfg
  repeat' first | with_reducible assumption | with_reducible exact .refl _ _ | with_reducible refine only_ite ?_ ?_ | with_reducible refine only_when ?_ ?_ | with_reducible refine only_updPart ?_ (by decide) | with_reducible refine only_lpInvalidate ?_ (by decide) | split | dsimp only

theorem only_writeLpCfg {z : State} {fr : List Comp} {s : State} {p : Nat} {v : Word} (zh : State.Only z s fr) (zc : ∀ c ∈ ([.parts] : List Comp), c ∈ fr) :
    State.Only z (State.writeLpCfg s p v) fr := zh.trans ((writeLpCfg_only s p v).mono zc)

theorem endWindows_only (s : State) (p : Nat) : State.Only s (State.endWindows s p) [.bist] := by
  unfold State.endWindows
  repeat' first | with_reducible assumption | with_reducible exact .refl _ _ | with_reducible refine only_ite ?_ ?_ | with_reducible refine only_modBist ?_ (by decide) | split | dsimp only

theorem only_endWindows {z : State} {fr : List Comp} {s : State} {p : Nat} (zh : State.Only z s fr) (zc : ∀ c ∈ ([.bist] : List Comp), c ∈ fr) :
    State.Only z (State.endWindows s p) fr := zh.trans ((endWindows_only s p).mono zc)

theorem startRecovery_only (s : State) (p : Nat) : State.Only s (State.startRecovery s p) [.heal, .healx, .chest, .mch, .spn, .parts, .tiles, .tasks, .out] := by
  unfold State.startRecovery
  repeat' first | with_reducible assumption | with_reducible exact .refl _ _ | with_reducible refine only_ite ?_ ?_ | with_reducible refine only_each ?_ (fun _ _ _ => ?_) | with_reducible refine only_modHeal ?_ (by decide) | with_reducible refine only_modTiles ?_ (by decide) | with_reducible refine only_updPart ?_ (by decide) | with_reducible refine only_setPartMode ?_ (by decide) | with_reducible refine only_recordAt ?_ (by decide) | with_reducible refine only_detect ?_ (by decide) | with_reducible refine only_closeFolds ?_ (by decide) | with_reducible refine only_fenceQueues ?_ (by decide) | with_reducible refine only_cutLeaving ?_ (by decide) | with_reducible refine only_lpInvalidate ?_ (by decide) | split | dsimp only

theorem only_startRecovery {z : State} {fr : List Comp} {s : State} {p : Nat} (zh : State.Only z s fr) (zc : ∀ c ∈ ([.heal, .healx, .chest, .mch, .spn, .parts, .tiles, .tasks, .out] : List Comp), c ∈ fr) :
    State.Only z (State.startRecovery s p) fr := zh.trans ((startRecovery_only s p).mono zc)

theorem tileHang_only (s : State) (pt : Nat) : State.Only s (State.tileHang s pt) [.flash, .top, .bist, .heal, .healx, .relx, .chest, .tiles, .out] := by
  unfold State.tileHang
  repeat' first | with_reducible assumption | with_reducible exact .refl _ _ | with_reducible refine only_ite ?_ ?_ | with_reducible refine only_updRole ?_ (by decide) | with_reducible refine only_fenceTile ?_ (by decide) | split | dsimp only

theorem only_tileHang {z : State} {fr : List Comp} {s : State} {pt : Nat} (zh : State.Only z s fr) (zc : ∀ c ∈ ([.flash, .top, .bist, .heal, .healx, .relx, .chest, .tiles, .out] : List Comp), c ∈ fr) :
    State.Only z (State.tileHang s pt) fr := zh.trans ((tileHang_only s pt).mono zc)

theorem hangNamed_only (s : State) (part : Nat) (tile : Option Nat) : State.Only s (State.hangNamed s part tile) [.flash, .top, .bist, .heal, .healx, .relx, .chest, .mch, .spn, .parts, .tiles, .tasks, .out] := by
  unfold State.hangNamed
  repeat' first | with_reducible assumption | with_reducible exact .refl _ _ | with_reducible refine only_ite ?_ ?_ | with_reducible refine only_modHealx ?_ (by decide) | with_reducible refine only_startRecovery ?_ (by decide) | with_reducible refine only_tileHang ?_ (by decide) | split | dsimp only

theorem only_hangNamed {z : State} {fr : List Comp} {s : State} {part : Nat} {tile : Option Nat} (zh : State.Only z s fr) (zc : ∀ c ∈ ([.flash, .top, .bist, .heal, .healx, .relx, .chest, .mch, .spn, .parts, .tiles, .tasks, .out] : List Comp), c ∈ fr) :
    State.Only z (State.hangNamed s part tile) fr := zh.trans ((hangNamed_only s part tile).mono zc)

theorem digRecord_only (s : State) (n : Nat) : State.Only s (State.digRecord s n) [.chest] := by
  unfold State.digRecord
  repeat' first | with_reducible assumption | with_reducible exact .refl _ _ | with_reducible refine only_ite ?_ ?_ | with_reducible refine only_recordAt ?_ (by decide) | split | dsimp only

theorem only_digRecord {z : State} {fr : List Comp} {s : State} {n : Nat} (zh : State.Only z s fr) (zc : ∀ c ∈ ([.chest] : List Comp), c ∈ fr) :
    State.Only z (State.digRecord s n) fr := zh.trans ((digRecord_only s n).mono zc)

theorem digVerify_only (s : State) (n : Nat) : State.Only s (State.digVerify s n) [.relx, .chest] := by
  unfold State.digVerify
  repeat' first | with_reducible assumption | with_reducible exact .refl _ _ | with_reducible refine only_ite ?_ ?_ | with_reducible refine only_updDig ?_ (by decide) | with_reducible refine only_digRecord ?_ (by decide) | split | dsimp only

theorem only_digVerify {z : State} {fr : List Comp} {s : State} {n : Nat} (zh : State.Only z s fr) (zc : ∀ c ∈ ([.relx, .chest] : List Comp), c ∈ fr) :
    State.Only z (State.digVerify s n) fr := zh.trans ((digVerify_only s n).mono zc)

theorem markRotation_only (s : State) (c : Nat) : State.Only s (State.markRotation s c) [.healx, .cluss] := by
  unfold State.markRotation
  repeat' first | with_reducible assumption | with_reducible exact .refl _ _ | with_reducible refine only_ite ?_ ?_ | with_reducible refine only_modHealx ?_ (by decide) | with_reducible refine only_updClus ?_ (by decide) | split | dsimp only

theorem only_markRotation {z : State} {fr : List Comp} {s : State} {c : Nat} (zh : State.Only z s fr) (zc : ∀ c ∈ ([.healx, .cluss] : List Comp), c ∈ fr) :
    State.Only z (State.markRotation s c) fr := zh.trans ((markRotation_only s c).mono zc)

theorem heldOrders_only (s : State) (p : Nat) : State.Only s (State.heldOrders s p) [.flash, .top, .bist, .heal, .healx, .relx, .chest, .mch, .spn, .parts, .cluss, .tiles, .tasks, .out] := by
  unfold State.heldOrders
  repeat' first | with_reducible assumption | with_reducible exact .refl _ _ | with_reducible refine only_ite ?_ ?_ | with_reducible refine only_when ?_ ?_ | with_reducible refine only_each ?_ (fun _ _ _ => ?_) | with_reducible refine only_modHeal ?_ (by decide) | with_reducible refine only_modHealx ?_ (by decide) | with_reducible refine only_drainNow ?_ (by decide) | with_reducible refine only_fenceTile ?_ (by decide) | with_reducible refine only_startRecovery ?_ (by decide) | with_reducible refine only_tileHang ?_ (by decide) | with_reducible refine only_markRotation ?_ (by decide) | split | dsimp only

theorem only_heldOrders {z : State} {fr : List Comp} {s : State} {p : Nat} (zh : State.Only z s fr) (zc : ∀ c ∈ ([.flash, .top, .bist, .heal, .healx, .relx, .chest, .mch, .spn, .parts, .cluss, .tiles, .tasks, .out] : List Comp), c ∈ fr) :
    State.Only z (State.heldOrders s p) fr := zh.trans ((heldOrders_only s p).mono zc)

theorem shiftSched_only (s : State) (sched : BitVec 32) (task : BitVec 32) (d : Nat) : State.Only s (State.shiftSched s sched task d) [.tel, .tiles, .ctxs, .tasks, .scheds] := by
  unfold State.shiftSched
  repeat' first | with_reducible assumption | with_reducible exact .refl _ _ | with_reducible refine only_ite ?_ ?_ | with_reducible refine only_each ?_ (fun _ _ _ => ?_) | with_reducible refine only_modTel ?_ (by decide) | with_reducible refine only_modTiles ?_ (by decide) | with_reducible refine only_modCtxs ?_ (by decide) | with_reducible refine only_updTask ?_ (by decide) | with_reducible refine only_updSched ?_ (by decide) | split | dsimp only

theorem only_shiftSched {z : State} {fr : List Comp} {s : State} {sched : BitVec 32} {task : BitVec 32} {d : Nat} (zh : State.Only z s fr) (zc : ∀ c ∈ ([.tel, .tiles, .ctxs, .tasks, .scheds] : List Comp), c ∈ fr) :
    State.Only z (State.shiftSched s sched task d) fr := zh.trans ((shiftSched_only s sched task d).mono zc)

theorem failTask_only (s : State) (n : BitVec 32) (st : Status) (attempt : Nat) (verdict : Nat) (fret : Nat) (origin : BitVec 10) (lt : Nat) : State.Only s (State.failTask s n st attempt verdict fret origin lt) [.rel, .mch, .scheds, .out] := by
  unfold State.failTask
  repeat' first | with_reducible assumption | with_reducible exact .refl _ _ | with_reducible refine only_ite ?_ ?_ | with_reducible refine only_modRel ?_ (by decide) | with_reducible refine only_updSched ?_ (by decide) | with_reducible refine only_taskReport ?_ (by decide) | split | dsimp only

theorem only_failTask {z : State} {fr : List Comp} {s : State} {n : BitVec 32} {st : Status} {attempt : Nat} {verdict : Nat} {fret : Nat} {origin : BitVec 10} {lt : Nat} (zh : State.Only z s fr) (zc : ∀ c ∈ ([.rel, .mch, .scheds, .out] : List Comp), c ∈ fr) :
    State.Only z (State.failTask s n st attempt verdict fret origin lt) fr := zh.trans ((failTask_only s n st attempt verdict fret origin lt).mono zc)

theorem stopTiles_only (s : State) (n : BitVec 32) : State.Only s (State.stopTiles s n) [.tiles] := by
  unfold State.stopTiles
  repeat' first | with_reducible assumption | with_reducible exact .refl _ _ | with_reducible refine only_ite ?_ ?_ | with_reducible refine only_modTiles ?_ (by decide) | split | dsimp only

theorem only_stopTiles {z : State} {fr : List Comp} {s : State} {n : BitVec 32} (zh : State.Only z s fr) (zc : ∀ c ∈ ([.tiles] : List Comp), c ∈ fr) :
    State.Only z (State.stopTiles s n) fr := zh.trans ((stopTiles_only s n).mono zc)

theorem placeOne_only (s : State) (east : Bool) : State.Only s (State.placeOne s east) [.flash, .top, .chest, .out] := by
  unfold State.placeOne
  repeat' first | with_reducible assumption | with_reducible exact .refl _ _ | with_reducible refine only_ite ?_ ?_ | with_reducible refine only_when ?_ ?_ | with_reducible refine only_modChest ?_ (by decide) | with_reducible refine only_attn ?_ (by decide) | with_reducible refine only_copyRequest ?_ (by decide) | split | dsimp only

theorem only_placeOne {z : State} {fr : List Comp} {s : State} {east : Bool} (zh : State.Only z s fr) (zc : ∀ c ∈ ([.flash, .top, .chest, .out] : List Comp), c ∈ fr) :
    State.Only z (State.placeOne s east) fr := zh.trans ((placeOne_only s east).mono zc)

theorem placeAll_only (k : Nat) (s : State) : s.Only (State.placeAll k s) [.flash, .top, .chest, .out] := by
  induction k generalizing s with
  | zero => exact .refl _ _
  | succ k ih => unfold State.placeAll; exact .trans (only_placeOne (.refl _ _) (by decide)) (ih _)

theorem only_placeAll {z s : State} {fr : List Comp} {k : Nat} (zh : z.Only s fr)
    (zc : ∀ c ∈ ([.flash, .top, .chest, .out] : List Comp), c ∈ fr) : z.Only (State.placeAll k s) fr := zh.trans ((placeAll_only k s).mono zc)

theorem nextHalf_only (s : State) : State.Only s (State.nextHalf s).2 [.free] := by
  unfold State.nextHalf
  repeat' first | with_reducible assumption | with_reducible exact .refl _ _ | with_reducible refine only_ite ?_ ?_ | with_reducible refine only_freeVal ?_ (by decide) | split | dsimp only

theorem only_nextHalf {z : State} {fr : List Comp} {s : State} (zh : State.Only z s fr) (zc : ∀ c ∈ ([.free] : List Comp), c ∈ fr) :
    State.Only z (State.nextHalf s).2 fr := zh.trans ((nextHalf_only s).mono zc)

theorem finishCopy_only (s : State) : State.Only s (State.finishCopy s) [.flash, .chest] := by
  unfold State.finishCopy
  repeat' first | with_reducible assumption | with_reducible exact .refl _ _ | with_reducible refine only_ite ?_ ?_ | with_reducible refine only_modFlash ?_ (by decide) | with_reducible refine only_modChest ?_ (by decide) | with_reducible refine only_startCopy ?_ (by decide) | split | dsimp only

theorem only_finishCopy {z : State} {fr : List Comp} {s : State} (zh : State.Only z s fr) (zc : ∀ c ∈ ([.flash, .chest] : List Comp), c ∈ fr) :
    State.Only z (State.finishCopy s) fr := zh.trans ((finishCopy_only s).mono zc)

theorem restoreChest_only (s : State) : State.Only s (State.restoreChest s) [.chest] := by
  unfold State.restoreChest
  repeat' first | with_reducible assumption | with_reducible exact .refl _ _ | with_reducible refine only_ite ?_ ?_ | with_reducible refine only_modChest ?_ (by decide) | with_reducible refine only_record ?_ (by decide) | split | dsimp only

theorem only_restoreChest {z : State} {fr : List Comp} {s : State} (zh : State.Only z s fr) (zc : ∀ c ∈ ([.chest] : List Comp), c ∈ fr) :
    State.Only z (State.restoreChest s) fr := zh.trans ((restoreChest_only s).mono zc)

theorem clearChest_only (s : State) (areas : BitVec 8) (slot : Word) : State.Only s (State.clearChest s areas slot) [.flash, .chest] := by
  unfold State.clearChest
  repeat' first | with_reducible assumption | with_reducible exact .refl _ _ | with_reducible refine only_ite ?_ ?_ | with_reducible refine only_when ?_ ?_ | with_reducible refine only_modChest ?_ (by decide) | with_reducible refine only_record ?_ (by decide) | with_reducible refine only_copyRequest ?_ (by decide) | split | dsimp only

theorem only_clearChest {z : State} {fr : List Comp} {s : State} {areas : BitVec 8} {slot : Word} (zh : State.Only z s fr) (zc : ∀ c ∈ ([.flash, .chest] : List Comp), c ∈ fr) :
    State.Only z (State.clearChest s areas slot) fr := zh.trans ((clearChest_only s areas slot).mono zc)

theorem writeLcReq_only (s : State) (w : Writer) (v : Word) : State.Only s (State.writeLcReq s w v) [.sec] := by
  unfold State.writeLcReq
  repeat' first | with_reducible assumption | with_reducible exact .refl _ _ | with_reducible refine only_ite ?_ ?_ | with_reducible refine only_modSec ?_ (by decide) | split | dsimp only

theorem only_writeLcReq {z : State} {fr : List Comp} {s : State} {w : Writer} {v : Word} (zh : State.Only z s fr) (zc : ∀ c ∈ ([.sec] : List Comp), c ∈ fr) :
    State.Only z (State.writeLcReq s w v) fr := zh.trans ((writeLcReq_only s w v).mono zc)

theorem writeLcFuses_only (s : State) (target : Nat) : State.Only s (State.writeLcFuses s target) [.fuse, .flash, .ids, .sec] := by
  unfold State.writeLcFuses
  repeat' first | with_reducible assumption | with_reducible exact .refl _ _ | with_reducible refine only_ite ?_ ?_ | with_reducible refine only_when ?_ ?_ | with_reducible refine only_modFuse ?_ (by decide) | with_reducible refine only_modFlash ?_ (by decide) | with_reducible refine only_modIds ?_ (by decide) | with_reducible refine only_modSec ?_ (by decide) | split | dsimp only

theorem only_writeLcFuses {z : State} {fr : List Comp} {s : State} {target : Nat} (zh : State.Only z s fr) (zc : ∀ c ∈ ([.fuse, .flash, .ids, .sec] : List Comp), c ∈ fr) :
    State.Only z (State.writeLcFuses s target) fr := zh.trans ((writeLcFuses_only s target).mono zc)

theorem applyAdvance_only (s : State) : State.Only s (State.applyAdvance s) [.fuse] := by
  unfold State.applyAdvance
  repeat' first | with_reducible assumption | with_reducible exact .refl _ _ | with_reducible refine only_ite ?_ ?_ | with_reducible refine only_modFuse ?_ (by decide) | split | dsimp only

theorem only_applyAdvance {z : State} {fr : List Comp} {s : State} (zh : State.Only z s fr) (zc : ∀ c ∈ ([.fuse] : List Comp), c ∈ fr) :
    State.Only z (State.applyAdvance s) fr := zh.trans ((applyAdvance_only s).mono zc)

theorem publish_only (s : State) (x : BitVec 256 × BitVec 256 × BitVec 256) : State.Only s (State.publish s x) [.ids] := by
  unfold State.publish
  repeat' first | with_reducible assumption | with_reducible exact .refl _ _ | with_reducible refine only_ite ?_ ?_ | with_reducible refine only_modIds ?_ (by decide) | split | dsimp only

theorem only_publish {z : State} {fr : List Comp} {s : State} {x : BitVec 256 × BitVec 256 × BitVec 256} (zh : State.Only z s fr) (zc : ∀ c ∈ ([.ids] : List Comp), c ∈ fr) :
    State.Only z (State.publish s x) fr := zh.trans ((publish_only s x).mono zc)

theorem writeIdCtl_only (s : State) (w : Writer) (v : Word) : State.Only s (State.writeIdCtl s w v) [.ids] := by
  unfold State.writeIdCtl
  repeat' first | with_reducible assumption | with_reducible exact .refl _ _ | with_reducible refine only_ite ?_ ?_ | with_reducible refine only_modIds ?_ (by decide) | split | dsimp only

theorem only_writeIdCtl {z : State} {fr : List Comp} {s : State} {w : Writer} {v : Word} (zh : State.Only z s fr) (zc : ∀ c ∈ ([.ids] : List Comp), c ∈ fr) :
    State.Only z (State.writeIdCtl s w v) fr := zh.trans ((writeIdCtl_only s w v).mono zc)

theorem reserve_only (s : State) : State.Only s (State.reserve s) [.flash, .ids] := by
  unfold State.reserve
  repeat' first | with_reducible assumption | with_reducible exact .refl _ _ | with_reducible refine only_ite ?_ ?_ | with_reducible refine only_modFlash ?_ (by decide) | with_reducible refine only_modIds ?_ (by decide) | split | dsimp only

theorem only_reserve {z : State} {fr : List Comp} {s : State} (zh : State.Only z s fr) (zc : ∀ c ∈ ([.flash, .ids] : List Comp), c ∈ fr) :
    State.Only z (State.reserve s) fr := zh.trans ((reserve_only s).mono zc)

theorem sign_only (s : State) (msg : List Byte) : State.Only s (State.sign s msg).2 [.ids] := by
  unfold State.sign
  repeat' first | with_reducible assumption | with_reducible exact .refl _ _ | with_reducible refine only_ite ?_ ?_ | with_reducible refine only_modIds ?_ (by decide) | split | dsimp only

theorem only_sign {z : State} {fr : List Comp} {s : State} {msg : List Byte} (zh : State.Only z s fr) (zc : ∀ c ∈ ([.ids] : List Comp), c ∈ fr) :
    State.Only z (State.sign s msg).2 fr := zh.trans ((sign_only s msg).mono zc)

theorem askSign_only (s : State) (q : SignFor) : State.Only s (State.askSign s q) [.flash, .ids] := by
  unfold State.askSign
  repeat' first | with_reducible assumption | with_reducible exact .refl _ _ | with_reducible refine only_ite ?_ ?_ | with_reducible refine only_when ?_ ?_ | with_reducible refine only_modIds ?_ (by decide) | with_reducible refine only_reserve ?_ (by decide) | split | dsimp only

theorem only_askSign {z : State} {fr : List Comp} {s : State} {q : SignFor} (zh : State.Only z s fr) (zc : ∀ c ∈ ([.flash, .ids] : List Comp), c ∈ fr) :
    State.Only z (State.askSign s q) fr := zh.trans ((askSign_only s q).mono zc)

theorem nextSign_only (s : State) : State.Only s (State.nextSign s) [.flash, .ids] := by
  unfold State.nextSign
  repeat' first | with_reducible assumption | with_reducible exact .refl _ _ | with_reducible refine only_ite ?_ ?_ | with_reducible refine only_when ?_ ?_ | with_reducible refine only_modIds ?_ (by decide) | with_reducible refine only_reserve ?_ (by decide) | split | dsimp only

theorem only_nextSign {z : State} {fr : List Comp} {s : State} (zh : State.Only z s fr) (zc : ∀ c ∈ ([.flash, .ids] : List Comp), c ∈ fr) :
    State.Only z (State.nextSign s) fr := zh.trans ((nextSign_only s).mono zc)

theorem writeQuoteCtl_only (s : State) (v : Word) : State.Only s (State.writeQuoteCtl s v) [.flash, .ids, .sec] := by
  unfold State.writeQuoteCtl
  repeat' first | with_reducible assumption | with_reducible exact .refl _ _ | with_reducible refine only_ite ?_ ?_ | with_reducible refine only_modSec ?_ (by decide) | with_reducible refine only_askSign ?_ (by decide) | split | dsimp only

theorem only_writeQuoteCtl {z : State} {fr : List Comp} {s : State} {v : Word} (zh : State.Only z s fr) (zc : ∀ c ∈ ([.flash, .ids, .sec] : List Comp), c ∈ fr) :
    State.Only z (State.writeQuoteCtl s v) fr := zh.trans ((writeQuoteCtl_only s v).mono zc)

theorem writeOpkCtl_only (s : State) (w : Writer) (v : Word) : State.Only s (State.writeOpkCtl s w v) [.flash, .sec] := by
  unfold State.writeOpkCtl
  repeat' first | with_reducible assumption | with_reducible exact .refl _ _ | with_reducible refine only_ite ?_ ?_ | with_reducible refine only_modFlash ?_ (by decide) | with_reducible refine only_modSec ?_ (by decide) | split | dsimp only

theorem only_writeOpkCtl {z : State} {fr : List Comp} {s : State} {w : Writer} {v : Word} (zh : State.Only z s fr) (zc : ∀ c ∈ ([.flash, .sec] : List Comp), c ∈ fr) :
    State.Only z (State.writeOpkCtl s w v) fr := zh.trans ((writeOpkCtl_only s w v).mono zc)

theorem mcReply_only (s : State) (m : McCmd) (op : Nat) (st : Status) (detail : Nat) (sched : BitVec 32) : State.Only s (State.mcReply s m op st detail sched) [.mch, .out] := by
  unfold State.mcReply
  repeat' first | with_reducible assumption | with_reducible exact .refl _ _ | with_reducible refine only_ite ?_ ?_ | with_reducible refine only_mcSend ?_ (by decide) | split | dsimp only

theorem only_mcReply {z : State} {fr : List Comp} {s : State} {m : McCmd} {op : Nat} {st : Status} {detail : Nat} {sched : BitVec 32} (zh : State.Only z s fr) (zc : ∀ c ∈ ([.mch, .out] : List Comp), c ∈ fr) :
    State.Only z (State.mcReply s m op st detail sched) fr := zh.trans ((mcReply_only s m op st detail sched).mono zc)

theorem tileProgram_only (s : State) (pt : Nat) (prog : Nat) (failed : Option (BitVec 4)) : State.Only s (State.tileProgram s pt prog failed) [.bist, .chest] := by
  unfold State.tileProgram
  repeat' first | with_reducible assumption | with_reducible exact .refl _ _ | with_reducible refine only_ite ?_ ?_ | with_reducible refine only_when ?_ ?_ | with_reducible refine only_modBist ?_ (by decide) | with_reducible refine only_recordAt ?_ (by decide) | split | dsimp only

theorem only_tileProgram {z : State} {fr : List Comp} {s : State} {pt : Nat} {prog : Nat} {failed : Option (BitVec 4)} (zh : State.Only z s fr) (zc : ∀ c ∈ ([.bist, .chest] : List Comp), c ∈ fr) :
    State.Only z (State.tileProgram s pt prog failed) fr := zh.trans ((tileProgram_only s pt prog failed).mono zc)

theorem moveSlot_only (s : State) (c : Nat) (slot : Nat) (new : Nat) : State.Only s (State.moveSlot s c slot new) [.flash, .top, .bist, .heal, .healx, .rel, .relx, .chest, .mch, .cluss, .tiles, .out, .free] := by
  unfold State.moveSlot
  repeat' first | with_reducible assumption | with_reducible exact .refl _ _ | with_reducible refine only_ite ?_ ?_ | with_reducible refine only_when ?_ ?_ | with_reducible refine only_modHeal ?_ (by decide) | with_reducible refine only_updTile ?_ (by decide) | with_reducible refine only_updClus ?_ (by decide) | with_reducible refine only_updRole ?_ (by decide) | with_reducible refine only_freeVal ?_ (by decide) | with_reducible refine only_lostCheck ?_ (by decide) | with_reducible refine only_resetTile ?_ (by decide) | split | dsimp only

theorem only_moveSlot {z : State} {fr : List Comp} {s : State} {c : Nat} {slot : Nat} {new : Nat} (zh : State.Only z s fr) (zc : ∀ c ∈ ([.flash, .top, .bist, .heal, .healx, .rel, .relx, .chest, .mch, .cluss, .tiles, .out, .free] : List Comp), c ∈ fr) :
    State.Only z (State.moveSlot s c slot new) fr := zh.trans ((moveSlot_only s c slot new).mono zc)

theorem healResult_only (s : State) (busy : Bool) (result : BitVec 8) : State.Only s (State.healResult s busy result) [.heal] := by
  unfold State.healResult
  repeat' first | with_reducible assumption | with_reducible exact .refl _ _ | with_reducible refine only_ite ?_ ?_ | with_reducible refine only_modHeal ?_ (by decide) | split | dsimp only

theorem only_healResult {z : State} {fr : List Comp} {s : State} {busy : Bool} {result : BitVec 8} (zh : State.Only z s fr) (zc : ∀ c ∈ ([.heal] : List Comp), c ∈ fr) :
    State.Only z (State.healResult s busy result) fr := zh.trans ((healResult_only s busy result).mono zc)

theorem fenceCmd_only (s : State) (pt : Nat) : State.Only s (State.fenceCmd s pt) [.flash, .top, .bist, .heal, .healx, .relx, .chest, .tiles, .out] := by
  unfold State.fenceCmd
  repeat' first | with_reducible assumption | with_reducible exact .refl _ _ | with_reducible refine only_ite ?_ ?_ | with_reducible refine only_modHealx ?_ (by decide) | with_reducible refine only_fenceTile ?_ (by decide) | with_reducible refine only_healResult ?_ (by decide) | split | dsimp only

theorem only_fenceCmd {z : State} {fr : List Comp} {s : State} {pt : Nat} (zh : State.Only z s fr) (zc : ∀ c ∈ ([.flash, .top, .bist, .heal, .healx, .relx, .chest, .tiles, .out] : List Comp), c ∈ fr) :
    State.Only z (State.fenceCmd s pt) fr := zh.trans ((fenceCmd_only s pt).mono zc)

theorem writeHealCmd_only (s : State) (v : Word) : State.Only s (State.writeHealCmd s v) [.flash, .top, .bist, .heal, .healx, .relx, .chest, .mch, .spn, .parts, .cluss, .tiles, .tasks, .out] := by
  unfold State.writeHealCmd
  repeat' first | with_reducible assumption | with_reducible exact .refl _ _ | with_reducible refine only_ite ?_ ?_ | with_reducible refine only_modHealx ?_ (by decide) | with_reducible refine only_startRecovery ?_ (by decide) | with_reducible refine only_markRotation ?_ (by decide) | with_reducible refine only_healResult ?_ (by decide) | with_reducible refine only_fenceCmd ?_ (by decide) | split | dsimp only

theorem only_writeHealCmd {z : State} {fr : List Comp} {s : State} {v : Word} (zh : State.Only z s fr) (zc : ∀ c ∈ ([.flash, .top, .bist, .heal, .healx, .relx, .chest, .mch, .spn, .parts, .cluss, .tiles, .tasks, .out] : List Comp), c ∈ fr) :
    State.Only z (State.writeHealCmd s v) fr := zh.trans ((writeHealCmd_only s v).mono zc)

theorem writeHealth_only (s : State) (full : Bool) : State.Only s (State.writeHealth s full) [.flash, .bist] := by
  unfold State.writeHealth
  repeat' first | with_reducible assumption | with_reducible exact .refl _ _ | with_reducible refine only_ite ?_ ?_ | with_reducible refine only_modFlash ?_ (by decide) | with_reducible refine only_modBist ?_ (by decide) | split | dsimp only

theorem only_writeHealth {z : State} {fr : List Comp} {s : State} {full : Bool} (zh : State.Only z s fr) (zc : ∀ c ∈ ([.flash, .bist] : List Comp), c ∈ fr) :
    State.Only z (State.writeHealth s full) fr := zh.trans ((writeHealth_only s full).mono zc)

theorem setReq_only (s : State) (req : Nat) (reason : BitVec 4) : State.Only s (State.setReq s req reason) [.pwr, .fret, .out] := by
  unfold State.setReq
  repeat' first | with_reducible assumption | with_reducible exact .refl _ _ | with_reducible refine only_ite ?_ ?_ | with_reducible refine only_when ?_ ?_ | with_reducible refine only_modPwr ?_ (by decide) | with_reducible refine only_sendRequest ?_ (by decide) | split | dsimp only

theorem only_setReq {z : State} {fr : List Comp} {s : State} {req : Nat} {reason : BitVec 4} (zh : State.Only z s fr) (zc : ∀ c ∈ ([.pwr, .fret, .out] : List Comp), c ∈ fr) :
    State.Only z (State.setReq s req reason) fr := zh.trans ((setReq_only s req reason).mono zc)

theorem thermalRecord_only (s : State) : State.Only s (State.thermalRecord s) [.chest] := by
  unfold State.thermalRecord
  repeat' first | with_reducible assumption | with_reducible exact .refl _ _ | with_reducible refine only_ite ?_ ?_ | with_reducible refine only_record ?_ (by decide) | split | dsimp only

theorem only_thermalRecord {z : State} {fr : List Comp} {s : State} (zh : State.Only z s fr) (zc : ∀ c ∈ ([.chest] : List Comp), c ∈ fr) :
    State.Only z (State.thermalRecord s) fr := zh.trans ((thermalRecord_only s).mono zc)

theorem rebudget_only (s : State) (old : Nat) : State.Only s (State.rebudget s old) [.top, .pwr, .fret, .chest, .out] := by
  unfold State.rebudget
  repeat' first | with_reducible assumption | with_reducible exact .refl _ _ | with_reducible refine only_ite ?_ ?_ | with_reducible refine only_when ?_ ?_ | with_reducible refine only_modPwr ?_ (by decide) | with_reducible refine only_attn ?_ (by decide) | with_reducible refine only_setReq ?_ (by decide) | with_reducible refine only_thermalRecord ?_ (by decide) | split | dsimp only

theorem only_rebudget {z : State} {fr : List Comp} {s : State} {old : Nat} (zh : State.Only z s fr) (zc : ∀ c ∈ ([.top, .pwr, .fret, .chest, .out] : List Comp), c ∈ fr) :
    State.Only z (State.rebudget s old) fr := zh.trans ((rebudget_only s old).mono zc)

theorem writeBudget_only (s : State) (v : Word) : State.Only s (State.writeBudget s v) [.top, .pwr, .fret, .chest, .out] := by
  unfold State.writeBudget
  repeat' first | with_reducible assumption | with_reducible exact .refl _ _ | with_reducible refine only_ite ?_ ?_ | with_reducible refine only_modPwr ?_ (by decide) | with_reducible refine only_rebudget ?_ (by decide) | split | dsimp only

theorem only_writeBudget {z : State} {fr : List Comp} {s : State} {v : Word} (zh : State.Only z s fr) (zc : ∀ c ∈ ([.top, .pwr, .fret, .chest, .out] : List Comp), c ∈ fr) :
    State.Only z (State.writeBudget s v) fr := zh.trans ((writeBudget_only s v).mono zc)

theorem setMgmtBudget_only (s : State) (w : BitVec 16) : State.Only s (State.setMgmtBudget s w) [.top, .pwr, .fret, .chest, .out] := by
  unfold State.setMgmtBudget
  repeat' first | with_reducible assumption | with_reducible exact .refl _ _ | with_reducible refine only_ite ?_ ?_ | with_reducible refine only_modPwr ?_ (by decide) | with_reducible refine only_rebudget ?_ (by decide) | split | dsimp only

theorem only_setMgmtBudget {z : State} {fr : List Comp} {s : State} {w : BitVec 16} (zh : State.Only z s fr) (zc : ∀ c ∈ ([.top, .pwr, .fret, .chest, .out] : List Comp), c ∈ fr) :
    State.Only z (State.setMgmtBudget s w) fr := zh.trans ((setMgmtBudget_only s w).mono zc)

theorem startPark_only (s : State) (p : Nat) : State.Only s (State.startPark s p) [.gov, .bist, .parts, .tiles] := by
  unfold State.startPark
  repeat' first | with_reducible assumption | with_reducible exact .refl _ _ | with_reducible refine only_ite ?_ ?_ | with_reducible refine only_modGov ?_ (by decide) | with_reducible refine only_modTiles ?_ (by decide) | with_reducible refine only_updPart ?_ (by decide) | with_reducible refine only_endWindows ?_ (by decide) | split | dsimp only

theorem only_startPark {z : State} {fr : List Comp} {s : State} {p : Nat} (zh : State.Only z s fr) (zc : ∀ c ∈ ([.gov, .bist, .parts, .tiles] : List Comp), c ∈ fr) :
    State.Only z (State.startPark s p) fr := zh.trans ((startPark_only s p).mono zc)

theorem parkOff_only (s : State) (p : Nat) : State.Only s (State.parkOff s p) [.pwr, .gov, .rel, .relx, .chest, .mch, .tiles, .out] := by
  unfold State.parkOff
  repeat' first | with_reducible assumption | with_reducible exact .refl _ _ | with_reducible refine only_ite ?_ ?_ | with_reducible refine only_each ?_ (fun _ _ _ => ?_) | with_reducible refine only_modPwr ?_ (by decide) | with_reducible refine only_modGov ?_ (by decide) | with_reducible refine only_updTile ?_ (by decide) | with_reducible refine only_loseEntries ?_ (by decide) | with_reducible refine only_resetTile ?_ (by decide) | split | dsimp only

theorem only_parkOff {z : State} {fr : List Comp} {s : State} {p : Nat} (zh : State.Only z s fr) (zc : ∀ c ∈ ([.pwr, .gov, .rel, .relx, .chest, .mch, .tiles, .out] : List Comp), c ∈ fr) :
    State.Only z (State.parkOff s p) fr := zh.trans ((parkOff_only s p).mono zc)

theorem startWake_only (s : State) (p : Nat) : State.Only s (State.startWake s p) [.top, .pwr, .fret, .chest, .out] := by
  unfold State.startWake
  repeat' first | with_reducible assumption | with_reducible exact .refl _ _ | with_reducible refine only_ite ?_ ?_ | with_reducible refine only_modPwr ?_ (by decide) | with_reducible refine only_rebudget ?_ (by decide) | split | dsimp only

theorem only_startWake {z : State} {fr : List Comp} {s : State} {p : Nat} (zh : State.Only z s fr) (zc : ∀ c ∈ ([.top, .pwr, .fret, .chest, .out] : List Comp), c ∈ fr) :
    State.Only z (State.startWake s p) fr := zh.trans ((startWake_only s p).mono zc)

theorem writePark_only (s : State) (v : Word) : State.Only s (State.writePark s v) [.top, .pwr, .gov, .fret, .bist, .chest, .parts, .tiles, .out] := by
  unfold State.writePark
  repeat' first | with_reducible assumption | with_reducible exact .refl _ _ | with_reducible refine only_ite ?_ ?_ | with_reducible refine only_when ?_ ?_ | with_reducible refine only_each ?_ (fun _ _ _ => ?_) | with_reducible refine only_startPark ?_ (by decide) | with_reducible refine only_startWake ?_ (by decide) | split | dsimp only

theorem only_writePark {z : State} {fr : List Comp} {s : State} {v : Word} (zh : State.Only z s fr) (zc : ∀ c ∈ ([.top, .pwr, .gov, .fret, .bist, .chest, .parts, .tiles, .out] : List Comp), c ∈ fr) :
    State.Only z (State.writePark s v) fr := zh.trans ((writePark_only s v).mono zc)

theorem writeParkAllow_only (s : State) (v : Word) : State.Only s (State.writeParkAllow s v) [.top, .pwr, .fret, .chest, .out] := by
  unfold State.writeParkAllow
  repeat' first | with_reducible assumption | with_reducible exact .refl _ _ | with_reducible refine only_ite ?_ ?_ | with_reducible refine only_each ?_ (fun _ _ _ => ?_) | with_reducible refine only_modPwr ?_ (by decide) | with_reducible refine only_startWake ?_ (by decide) | split | dsimp only

theorem only_writeParkAllow {z : State} {fr : List Comp} {s : State} {v : Word} (zh : State.Only z s fr) (zc : ∀ c ∈ ([.top, .pwr, .fret, .chest, .out] : List Comp), c ∈ fr) :
    State.Only z (State.writeParkAllow s v) fr := zh.trans ((writeParkAllow_only s v).mono zc)

theorem divide_only (s : State) : State.Only s (State.divide s) [.clk] := by
  unfold State.divide
  repeat' first | with_reducible assumption | with_reducible exact .refl _ _ | with_reducible refine only_ite ?_ ?_ | with_reducible refine only_modClk ?_ (by decide) | split | dsimp only

theorem only_divide {z : State} {fr : List Comp} {s : State} (zh : State.Only z s fr) (zc : ∀ c ∈ ([.clk] : List Comp), c ∈ fr) :
    State.Only z (State.divide s) fr := zh.trans ((divide_only s).mono zc)

theorem addPeg_only (s : State) (kind : Nat) (index : Nat) : State.Only s (State.addPeg s kind index) [.flash] := by
  unfold State.addPeg
  repeat' first | with_reducible assumption | with_reducible exact .refl _ _ | with_reducible refine only_ite ?_ ?_ | with_reducible refine only_modFlash ?_ (by decide) | split | dsimp only

theorem only_addPeg {z : State} {fr : List Comp} {s : State} {kind : Nat} {index : Nat} (zh : State.Only z s fr) (zc : ∀ c ∈ ([.flash] : List Comp), c ∈ fr) :
    State.Only z (State.addPeg s kind index) fr := zh.trans ((addPeg_only s kind index).mono zc)

theorem writePeg_only (s : State) (v : Word) : State.Only s (State.writePeg s v) [.flash, .pwr] := by
  unfold State.writePeg
  repeat' first | with_reducible assumption | with_reducible exact .refl _ _ | with_reducible refine only_ite ?_ ?_ | with_reducible refine only_when ?_ ?_ | with_reducible refine only_modFlash ?_ (by decide) | with_reducible refine only_modPwr ?_ (by decide) | split | dsimp only

theorem only_writePeg {z : State} {fr : List Comp} {s : State} {v : Word} (zh : State.Only z s fr) (zc : ∀ c ∈ ([.flash, .pwr] : List Comp), c ∈ fr) :
    State.Only z (State.writePeg s v) fr := zh.trans ((writePeg_only s v).mono zc)

theorem faultyWindow_only (s : State) (e : Word) : State.Only s (State.faultyWindow s e) [.flash, .top, .bist, .healx, .relx, .chest, .out] := by
  unfold State.faultyWindow
  repeat' first | with_reducible assumption | with_reducible exact .refl _ _ | with_reducible refine only_ite ?_ ?_ | with_reducible refine only_when ?_ ?_ | with_reducible refine only_modBist ?_ (by decide) | with_reducible refine only_recordAt ?_ (by decide) | with_reducible refine only_retireCause ?_ (by decide) | split | dsimp only

theorem only_faultyWindow {z : State} {fr : List Comp} {s : State} {e : Word} (zh : State.Only z s fr) (zc : ∀ c ∈ ([.flash, .top, .bist, .healx, .relx, .chest, .out] : List Comp), c ∈ fr) :
    State.Only z (State.faultyWindow s e) fr := zh.trans ((faultyWindow_only s e).mono zc)

theorem writeBistCtl_only (s : State) (v : Word) : State.Only s (State.writeBistCtl s v) [.top, .pwr, .fret, .bist, .chest, .out] := by
  unfold State.writeBistCtl
  repeat' first | with_reducible assumption | with_reducible exact .refl _ _ | with_reducible refine only_ite ?_ ?_ | with_reducible refine only_each ?_ (fun _ _ _ => ?_) | with_reducible refine only_modBist ?_ (by decide) | with_reducible refine only_startWake ?_ (by decide) | split | dsimp only

theorem only_writeBistCtl {z : State} {fr : List Comp} {s : State} {v : Word} (zh : State.Only z s fr) (zc : ∀ c ∈ ([.top, .pwr, .fret, .bist, .chest, .out] : List Comp), c ∈ fr) :
    State.Only z (State.writeBistCtl s v) fr := zh.trans ((writeBistCtl_only s v).mono zc)

theorem loseHbm_only (s : State) : State.Only s (State.loseHbm s) [.hbm] := by
  unfold State.loseHbm
  exact only_modHbm (.refl _ _) (by decide) fun _ => rfl

theorem only_loseHbm {z s : State} {fr : List Comp} (zh : State.Only z s fr) (zc : ∀ c ∈ ([.hbm] : List Comp), c ∈ fr) :
    State.Only z (State.loseHbm s) fr := zh.trans ((loseHbm_only s).mono zc)

theorem fullTest_only (s : State) (failed : List (Pt × BitVec 4)) : State.Only s (State.fullTest s failed) [.flash, .top, .bist, .heal, .healx, .relx, .chest, .tiles, .out] := by
  unfold State.fullTest
  repeat' first | with_reducible assumption | with_reducible exact .refl _ _ | with_reducible refine only_ite ?_ ?_ | with_reducible refine only_each ?_ (fun _ _ _ => ?_) | with_reducible refine only_updRole ?_ (by decide) | with_reducible refine only_fenceTile ?_ (by decide) | with_reducible refine only_tileProgram ?_ (by decide) | split | dsimp only

theorem only_fullTest {z : State} {fr : List Comp} {s : State} {failed : List (Pt × BitVec 4)} (zh : State.Only z s fr) (zc : ∀ c ∈ ([.flash, .top, .bist, .heal, .healx, .relx, .chest, .tiles, .out] : List Comp), c ∈ fr) :
    State.Only z (State.fullTest s failed) fr := zh.trans ((fullTest_only s failed).mono zc)

theorem refuseSubmission_only (s : State) (p : HostPort) (n : Nat) (st : Status) (detail : BitVec 4) : State.Only s (State.refuseSubmission s p n st detail) [.top, .mch, .pcie, .out] := by
  unfold State.refuseSubmission
  repeat' first | with_reducible assumption | with_reducible exact .refl _ _ | with_reducible refine only_ite ?_ ?_ | with_reducible refine only_updPcie ?_ (by decide) | with_reducible refine only_noticeTo ?_ (by decide) | with_reducible refine only_refuse ?_ (by decide) | split | dsimp only

theorem only_refuseSubmission {z : State} {fr : List Comp} {s : State} {p : HostPort} {n : Nat} {st : Status} {detail : BitVec 4} (zh : State.Only z s fr) (zc : ∀ c ∈ ([.top, .mch, .pcie, .out] : List Comp), c ∈ fr) :
    State.Only z (State.refuseSubmission s p n st detail) fr := zh.trans ((refuseSubmission_only s p n st detail).mono zc)

theorem submit_only (s : State) (p : HostPort) (n : Nat) (body : List Byte) : State.Only s (State.submit s p n body) [.top, .mch, .pcie, .out] := by
  unfold State.submit
  repeat' first | with_reducible assumption | with_reducible exact .refl _ _ | with_reducible refine only_ite ?_ ?_ | with_reducible refine only_transmit ?_ (by decide) | with_reducible refine only_refuseSubmission ?_ (by decide) | split | dsimp only

theorem only_submit {z : State} {fr : List Comp} {s : State} {p : HostPort} {n : Nat} {body : List Byte} (zh : State.Only z s fr) (zc : ∀ c ∈ ([.top, .mch, .pcie, .out] : List Comp), c ∈ fr) :
    State.Only z (State.submit s p n body) fr := zh.trans ((submit_only s p n body).mono zc)

theorem assemble_only (s : State) (p : HostPort) (n : Nat) (rel : Nat) (data : List Byte) : State.Only s (State.assemble s p n rel data) [.top, .mch, .pcie, .out] := by
  unfold State.assemble
  repeat' first | with_reducible assumption | with_reducible exact .refl _ _ | with_reducible refine only_ite ?_ ?_ | with_reducible refine only_updPcie ?_ (by decide) | with_reducible refine only_refuseSubmission ?_ (by decide) | with_reducible refine only_submit ?_ (by decide) | split | dsimp only

theorem only_assemble {z : State} {fr : List Comp} {s : State} {p : HostPort} {n : Nat} {rel : Nat} {data : List Byte} (zh : State.Only z s fr) (zc : ∀ c ∈ ([.top, .mch, .pcie, .out] : List Comp), c ∈ fr) :
    State.Only z (State.assemble s p n rel data) fr := zh.trans ((assemble_only s p n rel data).mono zc)

theorem window_only (s : State) (p : HostPort) (off : Nat) (data : List Byte) : State.Only s (State.window s p off data) [.top, .mch, .pcie, .out] := by
  unfold State.window
  repeat' first | with_reducible assumption | with_reducible exact .refl _ _ | with_reducible refine only_ite ?_ ?_ | with_reducible refine only_assemble ?_ (by decide) | split | dsimp only

theorem only_window {z : State} {fr : List Comp} {s : State} {p : HostPort} {off : Nat} {data : List Byte} (zh : State.Only z s fr) (zc : ∀ c ∈ ([.top, .mch, .pcie, .out] : List Comp), c ∈ fr) :
    State.Only z (State.window s p off data) fr := zh.trans ((window_only s p off data).mono zc)

theorem drainStalled_only (k : Nat) (s : State) (p : HostPort) : s.Only (State.drainStalled k s p) [.top, .mch, .pcie, .out] := by
  induction k generalizing s with
  | zero => exact .refl _ _
  | succ k ih =>
    unfold State.drainStalled
    split
    · exact .refl _ _
    · split
      · exact (only_window (only_updPcie (.refl _ _) (by decide)) (by decide)).trans (ih _)
      · exact .refl _ _

theorem only_drainStalled {z s : State} {fr : List Comp} {k : Nat} {p : HostPort} (zh : z.Only s fr)
    (zc : ∀ c ∈ ([.top, .mch, .pcie, .out] : List Comp), c ∈ fr) : z.Only (State.drainStalled k s p) fr :=
  zh.trans ((drainStalled_only k s p).mono zc)

theorem writeNqCfg_only (s : State) (p : HostPort) (v : Word) : State.Only s (State.writeNqCfg s p v) [.pcie] := by
  unfold State.writeNqCfg
  repeat' first | with_reducible assumption | with_reducible exact .refl _ _ | with_reducible refine only_ite ?_ ?_ | with_reducible refine only_updPcie ?_ (by decide) | split | dsimp only

theorem only_writeNqCfg {z : State} {fr : List Comp} {s : State} {p : HostPort} {v : Word} (zh : State.Only z s fr) (zc : ∀ c ∈ ([.pcie] : List Comp), c ∈ fr) :
    State.Only z (State.writeNqCfg s p v) fr := zh.trans ((writeNqCfg_only s p v).mono zc)

theorem writeNqHead_only (s : State) (p : HostPort) (v : Word) : State.Only s (State.writeNqHead s p v) [.pcie] := by
  unfold State.writeNqHead
  repeat' first | with_reducible assumption | with_reducible exact .refl _ _ | with_reducible refine only_ite ?_ ?_ | with_reducible refine only_updPcie ?_ (by decide) | split | dsimp only

theorem only_writeNqHead {z : State} {fr : List Comp} {s : State} {p : HostPort} {v : Word} (zh : State.Only z s fr) (zc : ∀ c ∈ ([.pcie] : List Comp), c ∈ fr) :
    State.Only z (State.writeNqHead s p v) fr := zh.trans ((writeNqHead_only s p v).mono zc)

theorem armRx_only (s : State) (p : HostPort) (n : Nat) : State.Only s (State.armRx s p n) [.mch, .out] := by
  unfold State.armRx
  repeat' first | with_reducible assumption | with_reducible exact .refl _ _ | with_reducible refine only_ite ?_ ?_ | with_reducible refine only_updQueue ?_ (by decide) | with_reducible refine only_emit ?_ (by decide) | split | dsimp only

theorem only_armRx {z : State} {fr : List Comp} {s : State} {p : HostPort} {n : Nat} (zh : State.Only z s fr) (zc : ∀ c ∈ ([.mch, .out] : List Comp), c ∈ fr) :
    State.Only z (State.armRx s p n) fr := zh.trans ((armRx_only s p n).mono zc)

theorem writeRxConsume_only (s : State) (p : HostPort) (v : Word) : State.Only s (State.writeRxConsume s p v) [.mch, .pcie, .out] := by
  unfold State.writeRxConsume
  repeat' first | with_reducible assumption | with_reducible exact .refl _ _ | with_reducible refine only_ite ?_ ?_ | with_reducible refine only_when ?_ ?_ | with_reducible refine only_each ?_ (fun _ _ _ => ?_) | with_reducible refine only_updQueue ?_ (by decide) | with_reducible refine only_updPcie ?_ (by decide) | with_reducible refine only_creditRec ?_ (by decide) | with_reducible refine only_armRx ?_ (by decide) | split | dsimp only

theorem only_writeRxConsume {z : State} {fr : List Comp} {s : State} {p : HostPort} {v : Word} (zh : State.Only z s fr) (zc : ∀ c ∈ ([.mch, .pcie, .out] : List Comp), c ∈ fr) :
    State.Only z (State.writeRxConsume s p v) fr := zh.trans ((writeRxConsume_only s p v).mono zc)

theorem setOwner_only (s : State) (o : Owner) : State.Only s (State.setOwner s o) [.top, .out] := by
  unfold State.setOwner
  repeat' first | with_reducible assumption | with_reducible exact .refl _ _ | with_reducible refine only_ite ?_ ?_ | with_reducible refine only_modTop ?_ (by decide) | with_reducible refine only_attn ?_ (by decide) | split | dsimp only

theorem only_setOwner {z : State} {fr : List Comp} {s : State} {o : Owner} (zh : State.Only z s fr) (zc : ∀ c ∈ ([.top, .out] : List Comp), c ∈ fr) :
    State.Only z (State.setOwner s o) fr := zh.trans ((setOwner_only s o).mono zc)

theorem denyWrite_only (s : State) : State.Only s (State.denyWrite s) [.top] := by
  unfold State.denyWrite
  repeat' first | with_reducible assumption | with_reducible exact .refl _ _ | with_reducible refine only_ite ?_ ?_ | with_reducible refine only_modTop ?_ (by decide) | split | dsimp only

theorem only_denyWrite {z : State} {fr : List Comp} {s : State} (zh : State.Only z s fr) (zc : ∀ c ∈ ([.top] : List Comp), c ∈ fr) :
    State.Only z (State.denyWrite s) fr := zh.trans ((denyWrite_only s).mono zc)

theorem ownerOp_only (s : State) (p : HostPort) (op : Nat) : State.Only s (State.ownerOp s p op) [.top, .out] := by
  unfold State.ownerOp
  repeat' first | with_reducible assumption | with_reducible exact .refl _ _ | with_reducible refine only_ite ?_ ?_ | with_reducible refine only_setOwner ?_ (by decide) | with_reducible refine only_denyWrite ?_ (by decide) | split | dsimp only

theorem only_ownerOp {z : State} {fr : List Comp} {s : State} {p : HostPort} {op : Nat} (zh : State.Only z s fr) (zc : ∀ c ∈ ([.top, .out] : List Comp), c ∈ fr) :
    State.Only z (State.ownerOp s p op) fr := zh.trans ((ownerOp_only s p op).mono zc)

theorem portReset_only (s : State) (p : HostPort) : State.Only s (State.portReset s p) [.top, .mch, .pcie, .out] := by
  unfold State.portReset
  repeat' first | with_reducible assumption | with_reducible exact .refl _ _ | with_reducible refine only_ite ?_ ?_ | with_reducible refine only_when ?_ ?_ | with_reducible refine only_each ?_ (fun _ _ _ => ?_) | with_reducible refine only_modTop ?_ (by decide) | with_reducible refine only_updPcie ?_ (by decide) | with_reducible refine only_closeByReset ?_ (by decide) | with_reducible refine only_unbindQueue ?_ (by decide) | with_reducible refine only_setOwner ?_ (by decide) | split | dsimp only

theorem only_portReset {z : State} {fr : List Comp} {s : State} {p : HostPort} (zh : State.Only z s fr) (zc : ∀ c ∈ ([.top, .mch, .pcie, .out] : List Comp), c ∈ fr) :
    State.Only z (State.portReset s p) fr := zh.trans ((portReset_only s p).mono zc)

theorem digEnable_only (s : State) (n : Nat) : State.Only s (State.digEnable s n) [.relx] := by
  unfold State.digEnable
  repeat' first | with_reducible assumption | with_reducible exact .refl _ _ | with_reducible refine only_ite ?_ ?_ | with_reducible refine only_modRelx ?_ (by decide) | with_reducible refine only_updDig ?_ (by decide) | split | dsimp only

theorem only_digEnable {z : State} {fr : List Comp} {s : State} {n : Nat} (zh : State.Only z s fr) (zc : ∀ c ∈ ([.relx] : List Comp), c ∈ fr) :
    State.Only z (State.digEnable s n) fr := zh.trans ((digEnable_only s n).mono zc)

theorem digDisable_only (s : State) (n : Nat) : State.Only s (State.digDisable s n) [.relx] := by
  unfold State.digDisable
  repeat' first | with_reducible assumption | with_reducible exact .refl _ _ | with_reducible refine only_ite ?_ ?_ | with_reducible refine only_updDig ?_ (by decide) | split | dsimp only

theorem only_digDisable {z : State} {fr : List Comp} {s : State} {n : Nat} (zh : State.Only z s fr) (zc : ∀ c ∈ ([.relx] : List Comp), c ∈ fr) :
    State.Only z (State.digDisable s n) fr := zh.trans ((digDisable_only s n).mono zc)

theorem digBad_only (s : State) (n : Nat) (cause : BitVec 2) : State.Only s (State.digBad s n cause) [.top, .relx, .chest, .out] := by
  unfold State.digBad
  repeat' first | with_reducible assumption | with_reducible exact .refl _ _ | with_reducible refine only_ite ?_ ?_ | with_reducible refine only_updDig ?_ (by decide) | with_reducible refine only_attn ?_ (by decide) | with_reducible refine only_digRecord ?_ (by decide) | split | dsimp only

theorem only_digBad {z : State} {fr : List Comp} {s : State} {n : Nat} {cause : BitVec 2} (zh : State.Only z s fr) (zc : ∀ c ∈ ([.top, .relx, .chest, .out] : List Comp), c ∈ fr) :
    State.Only z (State.digBad s n cause) fr := zh.trans ((digBad_only s n cause).mono zc)

theorem digDiverge_only (s : State) (n : Nat) : State.Only s (State.digDiverge s n) [.flash, .top, .bist, .healx, .relx, .chest, .out] := by
  unfold State.digDiverge
  repeat' first | with_reducible assumption | with_reducible exact .refl _ _ | with_reducible refine only_ite ?_ ?_ | with_reducible refine only_updDig ?_ (by decide) | with_reducible refine only_retireCause ?_ (by decide) | with_reducible refine only_digRecord ?_ (by decide) | split | dsimp only

theorem only_digDiverge {z : State} {fr : List Comp} {s : State} {n : Nat} (zh : State.Only z s fr) (zc : ∀ c ∈ ([.flash, .top, .bist, .healx, .relx, .chest, .out] : List Comp), c ∈ fr) :
    State.Only z (State.digDiverge s n) fr := zh.trans ((digDiverge_only s n).mono zc)

theorem digAgree_only (s : State) (n : Nat) : State.Only s (State.digAgree s n) [.top, .relx, .chest, .out] := by
  unfold State.digAgree
  repeat' first | with_reducible assumption | with_reducible exact .refl _ _ | with_reducible refine only_ite ?_ ?_ | with_reducible refine only_updDig ?_ (by decide) | with_reducible refine only_digBad ?_ (by decide) | split | dsimp only

theorem only_digAgree {z : State} {fr : List Comp} {s : State} {n : Nat} (zh : State.Only z s fr) (zc : ∀ c ∈ ([.top, .relx, .chest, .out] : List Comp), c ∈ fr) :
    State.Only z (State.digAgree s n) fr := zh.trans ((digAgree_only s n).mono zc)

theorem digMessage_only (s : State) (n : Nat) : State.Only s (State.digMessage s n) [.mch, .out] := by
  unfold State.digMessage
  repeat' first | with_reducible assumption | with_reducible exact .refl _ _ | with_reducible refine only_ite ?_ ?_ | with_reducible refine only_when ?_ ?_ | with_reducible refine only_mcSend ?_ (by decide) | split | dsimp only

theorem only_digMessage {z : State} {fr : List Comp} {s : State} {n : Nat} (zh : State.Only z s fr) (zc : ∀ c ∈ ([.mch, .out] : List Comp), c ∈ fr) :
    State.Only z (State.digMessage s n) fr := zh.trans ((digMessage_only s n).mono zc)

theorem passState_only (s : State) (n : Nat) (d : BitVec 256) (tags : List (BitVec 64)) : State.Only s (State.passState s n d tags) [.flash, .top, .bist, .healx, .relx, .chest, .out] := by
  unfold State.passState
  repeat' first | with_reducible assumption | with_reducible exact .refl _ _ | with_reducible refine only_ite ?_ ?_ | with_reducible refine only_modRelx ?_ (by decide) | with_reducible refine only_updDig ?_ (by decide) | with_reducible refine only_retireCause ?_ (by decide) | with_reducible refine only_digRecord ?_ (by decide) | with_reducible refine only_digBad ?_ (by decide) | with_reducible refine only_digAgree ?_ (by decide) | split | dsimp only

theorem only_passState {z : State} {fr : List Comp} {s : State} {n : Nat} {d : BitVec 256} {tags : List (BitVec 64)} (zh : State.Only z s fr) (zc : ∀ c ∈ ([.flash, .top, .bist, .healx, .relx, .chest, .out] : List Comp), c ∈ fr) :
    State.Only z (State.passState s n d tags) fr := zh.trans ((passState_only s n d tags).mono zc)

theorem writeDigCfg_only (s : State) (v : Word) : State.Only s (State.writeDigCfg s v) [.relx] := by
  unfold State.writeDigCfg
  repeat' first | with_reducible assumption | with_reducible exact .refl _ _ | with_reducible refine only_ite ?_ ?_ | with_reducible refine only_modRelx ?_ (by decide) | split | dsimp only

theorem only_writeDigCfg {z : State} {fr : List Comp} {s : State} {v : Word} (zh : State.Only z s fr) (zc : ∀ c ∈ ([.relx] : List Comp), c ∈ fr) :
    State.Only z (State.writeDigCfg s v) fr := zh.trans ((writeDigCfg_only s v).mono zc)

theorem writeDigCtl_only (s : State) (n : Nat) (v : Word) : State.Only s (State.writeDigCtl s n v) [.relx, .chest] := by
  unfold State.writeDigCtl
  repeat' first | with_reducible assumption | with_reducible exact .refl _ _ | with_reducible refine only_ite ?_ ?_ | with_reducible refine only_when ?_ ?_ | with_reducible refine only_updDig ?_ (by decide) | with_reducible refine only_digVerify ?_ (by decide) | with_reducible refine only_digEnable ?_ (by decide) | with_reducible refine only_digDisable ?_ (by decide) | split | dsimp only

theorem only_writeDigCtl {z : State} {fr : List Comp} {s : State} {n : Nat} {v : Word} (zh : State.Only z s fr) (zc : ∀ c ∈ ([.relx, .chest] : List Comp), c ∈ fr) :
    State.Only z (State.writeDigCtl s n v) fr := zh.trans ((writeDigCtl_only s n v).mono zc)

theorem coreMemory_only (s : State) (p : Nat) : State.Only s (State.coreMemory s p) [.bist, .parts] := by
  unfold State.coreMemory
  repeat' first | with_reducible assumption | with_reducible exact .refl _ _ | with_reducible refine only_ite ?_ ?_ | with_reducible refine only_updPart ?_ (by decide) | with_reducible refine only_lpInvalidate ?_ (by decide) | with_reducible refine only_endWindows ?_ (by decide) | split | dsimp only

theorem only_coreMemory {z : State} {fr : List Comp} {s : State} {p : Nat} (zh : State.Only z s fr) (zc : ∀ c ∈ ([.bist, .parts] : List Comp), c ∈ fr) :
    State.Only z (State.coreMemory s p) fr := zh.trans ((coreMemory_only s p).mono zc)

theorem endRecovery_only (s : State) (p : Nat) : State.Only s (State.endRecovery s p) [.flash, .top, .bist, .heal, .healx, .relx, .chest, .mch, .spn, .parts, .cluss, .tiles, .tasks, .out] := by
  unfold State.endRecovery
  repeat' first | with_reducible assumption | with_reducible exact .refl _ _ | with_reducible refine only_ite ?_ ?_ | with_reducible refine only_when ?_ ?_ | with_reducible refine only_setPartMode ?_ (by decide) | with_reducible refine only_unfenceQueues ?_ (by decide) | with_reducible refine only_heldOrders ?_ (by decide) | split | dsimp only

theorem only_endRecovery {z : State} {fr : List Comp} {s : State} {p : Nat} (zh : State.Only z s fr) (zc : ∀ c ∈ ([.flash, .top, .bist, .heal, .healx, .relx, .chest, .mch, .spn, .parts, .cluss, .tiles, .tasks, .out] : List Comp), c ∈ fr) :
    State.Only z (State.endRecovery s p) fr := zh.trans ((endRecovery_only s p).mono zc)

theorem coreEffect_only (s : State) : State.Only s (State.coreEffect s) parts7 := by
  unfold State.coreEffect
  repeat' first | with_reducible assumption | with_reducible exact .refl _ _ | with_reducible refine only_ite ?_ ?_ | with_reducible refine only_each ?_ (fun _ _ _ => ?_) | with_reducible refine only_modTop ?_ (by decide) | with_reducible refine only_modBrup ?_ (by decide) | with_reducible refine only_modFret ?_ (by decide) | with_reducible refine only_modBist ?_ (by decide) | with_reducible refine only_modRelx ?_ (by decide) | with_reducible refine only_modTasks ?_ (by decide) | with_reducible refine only_modScheds ?_ (by decide) | with_reducible refine only_modHeld ?_ (by decide) | with_reducible refine only_updTile ?_ (by decide) | with_reducible refine only_dropLatches ?_ (by decide) | with_reducible refine only_loseEntries ?_ (by decide) | with_reducible refine only_closeByReset ?_ (by decide) | with_reducible refine only_unbindQueue ?_ (by decide) | with_reducible refine only_coreResetSessions ?_ (by decide) | with_reducible refine only_resetEngine ?_ (by decide) | with_reducible refine only_resetTile ?_ (by decide) | with_reducible refine only_dropHeld ?_ (by decide) | with_reducible refine only_coreMemory ?_ (by decide) | with_reducible refine only_endRecovery ?_ (by decide) | split | dsimp only

theorem only_coreEffect {z : State} {fr : List Comp} {s : State} (zh : State.Only z s fr) (zc : ∀ c ∈ (parts7 : List Comp), c ∈ fr) :
    State.Only z (State.coreEffect s) fr := zh.trans ((coreEffect_only s).mono zc)

theorem downPorts_only (s : State) : State.Only s (State.downPorts s) [.top, .fret, .healx, .chest, .spn, .fabs, .tasks, .held, .out] := by
  unfold State.downPorts
  repeat' first | with_reducible assumption | with_reducible exact .refl _ _ | with_reducible refine only_ite ?_ ?_ | with_reducible refine only_when ?_ ?_ | with_reducible refine only_each ?_ (fun _ _ _ => ?_) | with_reducible refine only_emit ?_ (by decide) | with_reducible refine only_fabDown ?_ (by decide) | split | dsimp only

theorem only_downPorts {z : State} {fr : List Comp} {s : State} (zh : State.Only z s fr) (zc : ∀ c ∈ ([.top, .fret, .healx, .chest, .spn, .fabs, .tasks, .held, .out] : List Comp), c ∈ fr) :
    State.Only z (State.downPorts s) fr := zh.trans ((downPorts_only s).mono zc)

theorem systemState_only (s : State) : s.Only s.systemState parts14 :=
  ⟨fun c hc => by cases c <;> first | rfl | (exact absurd (by decide) hc), fun _ => rfl⟩

theorem only_systemState {z s : State} {fr : List Comp} (zh : z.Only s fr) (zc : ∀ c ∈ (parts14 : List Comp), c ∈ fr) :
    z.Only s.systemState fr := zh.trans ((systemState_only s).mono zc)

theorem porState_only (s : State) : s.Only s.porState parts15 :=
  ⟨fun c hc => by cases c <;> first | rfl | (exact absurd (by decide) hc), fun _ => rfl⟩

theorem only_porState {z s : State} {fr : List Comp} (zh : z.Only s fr) (zc : ∀ c ∈ (parts15 : List Comp), c ∈ fr) :
    z.Only s.porState fr := zh.trans ((porState_only s).mono zc)

theorem assertReset_only (s : State) (l : Level) (src : BitVec 4) (promoted : Bool) : State.Only s (State.assertReset s l src promoted) parts8 := by
  unfold State.assertReset
  repeat' first | with_reducible assumption | with_reducible exact .refl _ _ | with_reducible refine only_ite ?_ ?_ | with_reducible refine only_modRstc ?_ (by decide) | with_reducible refine only_loseEntries ?_ (by decide) | with_reducible refine only_record ?_ (by decide) | with_reducible refine only_coreEffect ?_ (by decide) | with_reducible refine only_downPorts ?_ (by decide) | with_reducible refine only_systemState ?_ (by decide) | with_reducible refine only_porState ?_ (by decide) | split | dsimp only

theorem only_assertReset {z : State} {fr : List Comp} {s : State} {l : Level} {src : BitVec 4} {promoted : Bool} (zh : State.Only z s fr) (zc : ∀ c ∈ (parts8 : List Comp), c ∈ fr) :
    State.Only z (State.assertReset s l src promoted) fr := zh.trans ((assertReset_only s l src promoted).mono zc)

theorem absorbReset_only (s : State) (src : BitVec 4) : State.Only s (State.absorbReset s src) [.rstc] := by
  unfold State.absorbReset
  repeat' first | with_reducible assumption | with_reducible exact .refl _ _ | with_reducible refine only_ite ?_ ?_ | with_reducible refine only_modRstc ?_ (by decide) | split | dsimp only

theorem only_absorbReset {z : State} {fr : List Comp} {s : State} {src : BitVec 4} (zh : State.Only z s fr) (zc : ∀ c ∈ ([.rstc] : List Comp), c ∈ fr) :
    State.Only z (State.absorbReset s src) fr := zh.trans ((absorbReset_only s src).mono zc)

theorem startOrderly_only (s : State) (l : Level) (src : BitVec 4) (promoted : Bool) : State.Only s (State.startOrderly s l src promoted) [.rstc, .chest, .tasks] := by
  unfold State.startOrderly
  repeat' first | with_reducible assumption | with_reducible exact .refl _ _ | with_reducible refine only_ite ?_ ?_ | with_reducible refine only_foldl ?_ (fun _ _ _ => ?_) | with_reducible refine only_foldl2 ?_ (fun _ _ _ => ?_) | with_reducible refine only_modRstc ?_ (by decide) | with_reducible refine only_abortRunning ?_ (by decide) | split | dsimp only

theorem only_startOrderly {z : State} {fr : List Comp} {s : State} {l : Level} {src : BitVec 4} {promoted : Bool} (zh : State.Only z s fr) (zc : ∀ c ∈ ([.rstc, .chest, .tasks] : List Comp), c ∈ fr) :
    State.Only z (State.startOrderly s l src promoted) fr := zh.trans ((startOrderly_only s l src promoted).mono zc)

theorem requestReset_only (s : State) (l : Level) (src : BitVec 4) (immediate : Bool) : State.Only s (State.requestReset s l src immediate) parts8 := by
  unfold State.requestReset
  repeat' first | with_reducible assumption | with_reducible exact .refl _ _ | with_reducible refine only_ite ?_ ?_ | with_reducible refine only_modRstc ?_ (by decide) | with_reducible refine only_assertReset ?_ (by decide) | with_reducible refine only_absorbReset ?_ (by decide) | with_reducible refine only_startOrderly ?_ (by decide) | split | dsimp only

theorem only_requestReset {z : State} {fr : List Comp} {s : State} {l : Level} {src : BitVec 4} {immediate : Bool} (zh : State.Only z s fr) (zc : ∀ c ∈ (parts8 : List Comp), c ∈ fr) :
    State.Only z (State.requestReset s l src immediate) fr := zh.trans ((requestReset_only s l src immediate).mono zc)

theorem writeRstcReq_only (s : State) (w : Writer) (v : Word) : State.Only s (State.writeRstcReq s w v) parts9 := by
  unfold State.writeRstcReq
  repeat' first | with_reducible assumption | with_reducible exact .refl _ _ | with_reducible refine only_ite ?_ ?_ | with_reducible refine only_freeVal ?_ (by decide) | with_reducible refine only_requestReset ?_ (by decide) | split | dsimp only

theorem only_writeRstcReq {z : State} {fr : List Comp} {s : State} {w : Writer} {v : Word} (zh : State.Only z s fr) (zc : ∀ c ∈ (parts9 : List Comp), c ∈ fr) :
    State.Only z (State.writeRstcReq s w v) fr := zh.trans ((writeRstcReq_only s w v).mono zc)

theorem startStage_only (s : State) (n : Nat) (arg : BitVec 4) : State.Only s (State.startStage s n arg) [.brup] := by
  unfold State.startStage
  repeat' first | with_reducible assumption | with_reducible exact .refl _ _ | with_reducible refine only_ite ?_ ?_ | with_reducible refine only_modBrup ?_ (by decide) | split | dsimp only

theorem only_startStage {z : State} {fr : List Comp} {s : State} {n : Nat} {arg : BitVec 4} (zh : State.Only z s fr) (zc : ∀ c ∈ ([.brup] : List Comp), c ∈ fr) :
    State.Only z (State.startStage s n arg) fr := zh.trans ((startStage_only s n arg).mono zc)

theorem startBu0_only (s : State) : State.Only s (State.startBu0 s) [.rstc, .brup] := by
  unfold State.startBu0
  repeat' first | with_reducible assumption | with_reducible exact .refl _ _ | with_reducible refine only_ite ?_ ?_ | with_reducible refine only_modRstc ?_ (by decide) | with_reducible refine only_startStage ?_ (by decide) | split | dsimp only

theorem only_startBu0 {z : State} {fr : List Comp} {s : State} (zh : State.Only z s fr) (zc : ∀ c ∈ ([.rstc, .brup] : List Comp), c ∈ fr) :
    State.Only z (State.startBu0 s) fr := zh.trans ((startBu0_only s).mono zc)

theorem bringUpDomains_only (s : State) : State.Only s (State.bringUpDomains s) [.pwr] := by
  unfold State.bringUpDomains
  repeat' first | with_reducible assumption | with_reducible exact .refl _ _ | with_reducible refine only_ite ?_ ?_ | with_reducible refine only_modPwr ?_ (by decide) | split | dsimp only

theorem only_bringUpDomains {z : State} {fr : List Comp} {s : State} (zh : State.Only z s fr) (zc : ∀ c ∈ ([.pwr] : List Comp), c ∈ fr) :
    State.Only z (State.bringUpDomains s) fr := zh.trans ((bringUpDomains_only s).mono zc)

theorem holdTile_only (s : State) (pt : Nat) : State.Only s (State.holdTile s pt) [.rel, .relx, .chest, .mch, .tiles, .out] := by
  unfold State.holdTile
  repeat' first | with_reducible assumption | with_reducible exact .refl _ _ | with_reducible refine only_ite ?_ ?_ | with_reducible refine only_resetTile ?_ (by decide) | split | dsimp only

theorem only_holdTile {z : State} {fr : List Comp} {s : State} {pt : Nat} (zh : State.Only z s fr) (zc : ∀ c ∈ ([.rel, .relx, .chest, .mch, .tiles, .out] : List Comp), c ∈ fr) :
    State.Only z (State.holdTile s pt) fr := zh.trans ((holdTile_only s pt).mono zc)

theorem blkReset_only (s : State) (level : Nat) (target : Nat) : State.Only s (State.blkReset s level target) [.bist, .rel, .relx, .chest, .mch, .parts, .cluss, .tiles, .ctxs, .latches, .out] := by
  unfold State.blkReset
  repeat' first | with_reducible assumption | with_reducible exact .refl _ _ | with_reducible refine only_ite ?_ ?_ | with_reducible refine only_each ?_ (fun _ _ _ => ?_) | with_reducible refine only_updPart ?_ (by decide) | with_reducible refine only_updDig ?_ (by decide) | with_reducible refine only_dropLatches ?_ (by decide) | with_reducible refine only_loseEntries ?_ (by decide) | with_reducible refine only_closeFolds ?_ (by decide) | with_reducible refine only_fenceQueues ?_ (by decide) | with_reducible refine only_resetEngine ?_ (by decide) | with_reducible refine only_lpInvalidate ?_ (by decide) | with_reducible refine only_endWindows ?_ (by decide) | with_reducible refine only_holdTile ?_ (by decide) | split | dsimp only

theorem only_blkReset {z : State} {fr : List Comp} {s : State} {level : Nat} {target : Nat} (zh : State.Only z s fr) (zc : ∀ c ∈ ([.bist, .rel, .relx, .chest, .mch, .parts, .cluss, .tiles, .ctxs, .latches, .out] : List Comp), c ∈ fr) :
    State.Only z (State.blkReset s level target) fr := zh.trans ((blkReset_only s level target).mono zc)

theorem addBlk_only (s : State) (level : Nat) (target : Nat) (recovery : Bool) : State.Only s (State.addBlk s level target recovery) [.rstc] := by
  unfold State.addBlk
  repeat' first | with_reducible assumption | with_reducible exact .refl _ _ | with_reducible refine only_ite ?_ ?_ | with_reducible refine only_modRstc ?_ (by decide) | split | dsimp only

theorem only_addBlk {z : State} {fr : List Comp} {s : State} {level : Nat} {target : Nat} {recovery : Bool} (zh : State.Only z s fr) (zc : ∀ c ∈ ([.rstc] : List Comp), c ∈ fr) :
    State.Only z (State.addBlk s level target recovery) fr := zh.trans ((addBlk_only s level target recovery).mono zc)

theorem writeRstcBlk_only (s : State) (v : Word) : State.Only s (State.writeRstcBlk s v) parts11 := by
  unfold State.writeRstcBlk
  repeat' first | with_reducible assumption | with_reducible exact .refl _ _ | with_reducible refine only_ite ?_ ?_ | with_reducible refine only_each ?_ (fun _ _ _ => ?_) | with_reducible refine only_modRstc ?_ (by decide) | with_reducible refine only_detect ?_ (by decide) | with_reducible refine only_cutLeaving ?_ (by decide) | with_reducible refine only_startRecovery ?_ (by decide) | with_reducible refine only_blkReset ?_ (by decide) | with_reducible refine only_addBlk ?_ (by decide) | split | dsimp only

theorem only_writeRstcBlk {z : State} {fr : List Comp} {s : State} {v : Word} (zh : State.Only z s fr) (zc : ∀ c ∈ (parts11 : List Comp), c ∈ fr) :
    State.Only z (State.writeRstcBlk s v) fr := zh.trans ((writeRstcBlk_only s v).mono zc)

theorem askStage_only (s : State) (n : Nat) (arg : BitVec 4) : State.Only s (State.askStage s n arg) [.brup] := by
  unfold State.askStage
  repeat' first | with_reducible assumption | with_reducible exact .refl _ _ | with_reducible refine only_ite ?_ ?_ | with_reducible refine only_modBrup ?_ (by decide) | with_reducible refine only_startStage ?_ (by decide) | split | dsimp only

theorem only_askStage {z : State} {fr : List Comp} {s : State} {n : Nat} {arg : BitVec 4} (zh : State.Only z s fr) (zc : ∀ c ∈ ([.brup] : List Comp), c ∈ fr) :
    State.Only z (State.askStage s n arg) fr := zh.trans ((askStage_only s n arg).mono zc)

theorem passStage_only (s : State) (n : Nat) : State.Only s (State.passStage s n) [.brup] := by
  unfold State.passStage
  repeat' first | with_reducible assumption | with_reducible exact .refl _ _ | with_reducible refine only_ite ?_ ?_ | with_reducible refine only_modBrup ?_ (by decide) | split | dsimp only

theorem only_passStage {z : State} {fr : List Comp} {s : State} {n : Nat} (zh : State.Only z s fr) (zc : ∀ c ∈ ([.brup] : List Comp), c ∈ fr) :
    State.Only z (State.passStage s n) fr := zh.trans ((passStage_only s n).mono zc)

theorem stopScript_only (s : State) : State.Only s (State.stopScript s) [.brup] := by
  unfold State.stopScript
  repeat' first | with_reducible assumption | with_reducible exact .refl _ _ | with_reducible refine only_ite ?_ ?_ | with_reducible refine only_modBrup ?_ (by decide) | split | dsimp only

theorem only_stopScript {z : State} {fr : List Comp} {s : State} (zh : State.Only z s fr) (zc : ∀ c ∈ ([.brup] : List Comp), c ∈ fr) :
    State.Only z (State.stopScript s) fr := zh.trans ((stopScript_only s).mono zc)

theorem failStage_only (s : State) (n : Nat) (code : Nat) (detail : Word) : State.Only s (State.failStage s n code detail) [.brup, .chest] := by
  unfold State.failStage
  repeat' first | with_reducible assumption | with_reducible exact .refl _ _ | with_reducible refine only_ite ?_ ?_ | with_reducible refine only_when ?_ ?_ | with_reducible refine only_modBrup ?_ (by decide) | with_reducible refine only_record ?_ (by decide) | with_reducible refine only_stopScript ?_ (by decide) | split | dsimp only

theorem only_failStage {z : State} {fr : List Comp} {s : State} {n : Nat} {code : Nat} {detail : Word} (zh : State.Only z s fr) (zc : ∀ c ∈ ([.brup, .chest] : List Comp), c ∈ fr) :
    State.Only z (State.failStage s n code detail) fr := zh.trans ((failStage_only s n code detail).mono zc)

theorem causeStage_only (s : State) (n : Nat) (code : Nat) (detail : Word) (cause : BitVec 4) : State.Only s (State.causeStage s n code detail cause) [.flash, .top, .brup, .bist, .healx, .relx, .chest, .out] := by
  unfold State.causeStage
  repeat' first | with_reducible assumption | with_reducible exact .refl _ _ | with_reducible refine only_ite ?_ ?_ | with_reducible refine only_modBrup ?_ (by decide) | with_reducible refine only_retireCause ?_ (by decide) | with_reducible refine only_failStage ?_ (by decide) | split | dsimp only

theorem only_causeStage {z : State} {fr : List Comp} {s : State} {n : Nat} {code : Nat} {detail : Word} {cause : BitVec 4} (zh : State.Only z s fr) (zc : ∀ c ∈ ([.flash, .top, .brup, .bist, .healx, .relx, .chest, .out] : List Comp), c ∈ fr) :
    State.Only z (State.causeStage s n code detail cause) fr := zh.trans ((causeStage_only s n code detail cause).mono zc)

theorem only_endWork {z s old : State} {fr : List Comp} {n : Nat} (zh : z.Only s fr)
    (zc : ∀ c ∈ ([.brup, .chest] : List Comp), c ∈ fr) : z.Only (State.endWork s old n) fr := by
  refine zh.trans (State.Only.mono ?_ zc)
  unfold State.endWork
  exact only_ite (only_modBrup (only_failStage (.refl _ _) (by decide)) (by decide)) (only_passStage (.refl _ _) (by decide))

theorem bootIdentity_only (s : State) : State.Only s (State.bootIdentity s) [.ids] := by
  unfold State.bootIdentity
  repeat' first | with_reducible assumption | with_reducible exact .refl _ _ | with_reducible refine only_ite ?_ ?_ | with_reducible refine only_modIds ?_ (by decide) | with_reducible refine only_publish ?_ (by decide) | split | dsimp only

theorem only_bootIdentity {z : State} {fr : List Comp} {s : State} (zh : State.Only z s fr) (zc : ∀ c ∈ ([.ids] : List Comp), c ∈ fr) :
    State.Only z (State.bootIdentity s) fr := zh.trans ((bootIdentity_only s).mono zc)

theorem bootKeys_only (s : State) : State.Only s (State.bootKeys s) [.ids, .sec, .chest, .free] := by
  unfold State.bootKeys
  repeat' first | with_reducible assumption | with_reducible exact .refl _ _ | with_reducible refine only_ite ?_ ?_ | with_reducible refine only_when ?_ ?_ | with_reducible refine only_modIds ?_ (by decide) | with_reducible refine only_modSec ?_ (by decide) | with_reducible refine only_modFree ?_ (by decide) | with_reducible refine only_record ?_ (by decide) | split | dsimp only

theorem only_bootKeys {z : State} {fr : List Comp} {s : State} (zh : State.Only z s fr) (zc : ∀ c ∈ ([.ids, .sec, .chest, .free] : List Comp), c ∈ fr) :
    State.Only z (State.bootKeys s) fr := zh.trans ((bootKeys_only s).mono zc)

theorem logImage_only (s : State) (type : Byte) (img : FlashImage) (info : List Byte) : State.Only s (State.logImage s type img info) [.sec] := by
  unfold State.logImage
  repeat' first | with_reducible assumption | with_reducible exact .refl _ _ | with_reducible refine only_ite ?_ ?_ | with_reducible refine only_extendLog ?_ (by decide) | split | dsimp only

theorem only_logImage {z : State} {fr : List Comp} {s : State} {type : Byte} {img : FlashImage} {info : List Byte} (zh : State.Only z s fr) (zc : ∀ c ∈ ([.sec] : List Comp), c ∈ fr) :
    State.Only z (State.logImage s type img info) fr := zh.trans ((logImage_only s type img info).mono zc)

theorem bootLog_only (s : State) (slot : Nat) (scriptOk : Bool) : State.Only s (State.bootLog s slot scriptOk) [.sec, .free] := by
  unfold State.bootLog
  repeat' first | with_reducible assumption | with_reducible exact .refl _ _ | with_reducible refine only_ite ?_ ?_ | with_reducible refine only_when ?_ ?_ | with_reducible refine only_extendLog ?_ (by decide) | with_reducible refine only_freeDigest ?_ (by decide) | with_reducible refine only_logImage ?_ (by decide) | split | dsimp only

theorem only_bootLog {z : State} {fr : List Comp} {s : State} {slot : Nat} {scriptOk : Bool} (zh : State.Only z s fr) (zc : ∀ c ∈ ([.sec, .free] : List Comp), c ∈ fr) :
    State.Only z (State.bootLog s slot scriptOk) fr := zh.trans ((bootLog_only s slot scriptOk).mono zc)

theorem bootTriggers_only (s : State) : State.Only s (State.bootTriggers s) [.tel] := by
  unfold State.bootTriggers
  repeat' first | with_reducible assumption | with_reducible exact .refl _ _ | with_reducible refine only_ite ?_ ?_ | with_reducible refine only_foldl ?_ (fun _ _ _ => ?_) | with_reducible refine only_foldl2 ?_ (fun _ _ _ => ?_) | with_reducible refine only_modTel ?_ (by decide) | split | dsimp only

theorem only_bootTriggers {z : State} {fr : List Comp} {s : State} (zh : State.Only z s fr) (zc : ∀ c ∈ ([.tel] : List Comp), c ∈ fr) :
    State.Only z (State.bootTriggers s) fr := zh.trans ((bootTriggers_only s).mono zc)

theorem hbmOn_only (s : State) (p : Nat) : State.Only s (State.hbmOn s p) [.parts] := by
  unfold State.hbmOn
  repeat' first | with_reducible assumption | with_reducible exact .refl _ _ | with_reducible refine only_ite ?_ ?_ | with_reducible refine only_updPart ?_ (by decide) | split | dsimp only

theorem only_hbmOn {z : State} {fr : List Comp} {s : State} {p : Nat} (zh : State.Only z s fr) (zc : ∀ c ∈ ([.parts] : List Comp), c ∈ fr) :
    State.Only z (State.hbmOn s p) fr := zh.trans ((hbmOn_only s p).mono zc)

theorem mapCluster_only (s : State) (c : Nat) : State.Only s (State.mapCluster s c) [.flash, .top, .bist, .healx, .relx, .chest, .cluss, .out] := by
  unfold State.mapCluster
  repeat' first | with_reducible assumption | with_reducible exact .refl _ _ | with_reducible refine only_ite ?_ ?_ | with_reducible refine only_each ?_ (fun _ _ _ => ?_) | with_reducible refine only_updClus ?_ (by decide) | with_reducible refine only_updRole ?_ (by decide) | with_reducible refine only_lostCheck ?_ (by decide) | split | dsimp only

theorem only_mapCluster {z : State} {fr : List Comp} {s : State} {c : Nat} (zh : State.Only z s fr) (zc : ∀ c ∈ ([.flash, .top, .bist, .healx, .relx, .chest, .cluss, .out] : List Comp), c ∈ fr) :
    State.Only z (State.mapCluster s c) fr := zh.trans ((mapCluster_only s c).mono zc)

theorem loadAges_only (s : State) : State.Only s (State.loadAges s) [.healx] := by
  unfold State.loadAges
  repeat' first | with_reducible assumption | with_reducible exact .refl _ _ | with_reducible refine only_ite ?_ ?_ | with_reducible refine only_each ?_ (fun _ _ _ => ?_) | with_reducible refine only_foldl ?_ (fun _ _ _ => ?_) | with_reducible refine only_foldl2 ?_ (fun _ _ _ => ?_) | with_reducible refine only_updRole ?_ (by decide) | split | dsimp only

theorem only_loadAges {z : State} {fr : List Comp} {s : State} (zh : State.Only z s fr) (zc : ∀ c ∈ ([.healx] : List Comp), c ∈ fr) :
    State.Only z (State.loadAges s) fr := zh.trans ((loadAges_only s).mono zc)

theorem mapChip_only (s : State) : State.Only s (State.mapChip s) [.flash, .top, .rstc, .bist, .healx, .relx, .chest, .cluss, .out] := by
  unfold State.mapChip
  repeat' first | with_reducible assumption | with_reducible exact .refl _ _ | with_reducible refine only_ite ?_ ?_ | with_reducible refine only_each ?_ (fun _ _ _ => ?_) | with_reducible refine only_modRstc ?_ (by decide) | with_reducible refine only_modBist ?_ (by decide) | with_reducible refine only_mapCluster ?_ (by decide) | split | dsimp only

theorem only_mapChip {z : State} {fr : List Comp} {s : State} (zh : State.Only z s fr) (zc : ∀ c ∈ ([.flash, .top, .rstc, .bist, .healx, .relx, .chest, .cluss, .out] : List Comp), c ∈ fr) :
    State.Only z (State.mapChip s) fr := zh.trans ((mapChip_only s).mono zc)

theorem releaseTiles_only (s : State) : State.Only s (State.releaseTiles s) [.tiles] := by
  unfold State.releaseTiles
  repeat' first | with_reducible assumption | with_reducible exact .refl _ _ | with_reducible refine only_ite ?_ ?_ | with_reducible refine only_each ?_ (fun _ _ _ => ?_) | with_reducible refine only_updTile ?_ (by decide) | split | dsimp only

theorem only_releaseTiles {z : State} {fr : List Comp} {s : State} (zh : State.Only z s fr) (zc : ∀ c ∈ ([.tiles] : List Comp), c ∈ fr) :
    State.Only z (State.releaseTiles s) fr := zh.trans ((releaseTiles_only s).mono zc)

theorem quickTest_only (s : State) (failed : List (Pt × BitVec 4)) : State.Only s (State.quickTest s failed) [.flash, .top, .bist, .heal, .healx, .relx, .chest, .tiles, .out] := by
  unfold State.quickTest
  repeat' first | with_reducible assumption | with_reducible exact .refl _ _ | with_reducible refine only_ite ?_ ?_ | with_reducible refine only_each ?_ (fun _ _ _ => ?_) | with_reducible refine only_fenceTile ?_ (by decide) | with_reducible refine only_tileProgram ?_ (by decide) | split | dsimp only

theorem only_quickTest {z : State} {fr : List Comp} {s : State} {failed : List (Pt × BitVec 4)} (zh : State.Only z s fr) (zc : ∀ c ∈ ([.flash, .top, .bist, .heal, .healx, .relx, .chest, .tiles, .out] : List Comp), c ∈ fr) :
    State.Only z (State.quickTest s failed) fr := zh.trans ((quickTest_only s failed).mono zc)

theorem applyHealth_only (s : State) : State.Only s (State.applyHealth s) [.flash, .rstc] := by
  unfold State.applyHealth
  repeat' first | with_reducible assumption | with_reducible exact .refl _ _ | with_reducible refine only_ite ?_ ?_ | with_reducible refine only_when ?_ ?_ | with_reducible refine only_modFlash ?_ (by decide) | with_reducible refine only_modRstc ?_ (by decide) | split | dsimp only

theorem only_applyHealth {z : State} {fr : List Comp} {s : State} (zh : State.Only z s fr) (zc : ∀ c ∈ ([.flash, .rstc] : List Comp), c ∈ fr) :
    State.Only z (State.applyHealth s) fr := zh.trans ((applyHealth_only s).mono zc)

theorem bindMc_only (s : State) : State.Only s (State.bindMc s) [.mch] := by
  unfold State.bindMc
  repeat' first | with_reducible assumption | with_reducible exact .refl _ _ | with_reducible refine only_ite ?_ ?_ | with_reducible refine only_updQueue ?_ (by decide) | with_reducible refine only_bindQueue ?_ (by decide) | split | dsimp only

theorem only_bindMc {z : State} {fr : List Comp} {s : State} (zh : State.Only z s fr) (zc : ∀ c ∈ ([.mch] : List Comp), c ∈ fr) :
    State.Only z (State.bindMc s) fr := zh.trans ((bindMc_only s).mono zc)

theorem reportReady_only (s : State) : State.Only s (State.reportReady s) [.fuse, .top, .rstc, .brup, .pwr, .fret, .out] := by
  unfold State.reportReady
  repeat' first | with_reducible assumption | with_reducible exact .refl _ _ | with_reducible refine only_ite ?_ ?_ | with_reducible refine only_when ?_ ?_ | with_reducible refine only_modTop ?_ (by decide) | with_reducible refine only_modRstc ?_ (by decide) | with_reducible refine only_modBrup ?_ (by decide) | with_reducible refine only_readyPins ?_ (by decide) | with_reducible refine only_applyAdvance ?_ (by decide) | with_reducible refine only_setReq ?_ (by decide) | split | dsimp only

theorem only_reportReady {z : State} {fr : List Comp} {s : State} (zh : State.Only z s fr) (zc : ∀ c ∈ ([.fuse, .top, .rstc, .brup, .pwr, .fret, .out] : List Comp), c ∈ fr) :
    State.Only z (State.reportReady s) fr := zh.trans ((reportReady_only s).mono zc)

theorem bootPushed_only (s : State) : State.Only s (State.bootPushed s) [.brup] := by
  unfold State.bootPushed
  repeat' first | with_reducible assumption | with_reducible exact .refl _ _ | with_reducible refine only_ite ?_ ?_ | with_reducible refine only_modBrup ?_ (by decide) | with_reducible refine only_startStage ?_ (by decide) | split | dsimp only

theorem only_bootPushed {z : State} {fr : List Comp} {s : State} (zh : State.Only z s fr) (zc : ∀ c ∈ ([.brup] : List Comp), c ∈ fr) :
    State.Only z (State.bootPushed s) fr := zh.trans ((bootPushed_only s).mono zc)

theorem programPushed_only (s : State) (area : Nat) : State.Only s (State.programPushed s area) [.flash] := by
  unfold State.programPushed
  repeat' first | with_reducible assumption | with_reducible exact .refl _ _ | with_reducible refine only_ite ?_ ?_ | with_reducible refine only_foldl ?_ (fun _ _ _ => ?_) | with_reducible refine only_foldl2 ?_ (fun _ _ _ => ?_) | with_reducible refine only_modFlash ?_ (by decide) | split | dsimp only

theorem only_programPushed {z : State} {fr : List Comp} {s : State} {area : Nat} (zh : State.Only z s fr) (zc : ∀ c ∈ ([.flash] : List Comp), c ∈ fr) :
    State.Only z (State.programPushed s area) fr := zh.trans ((programPushed_only s area).mono zc)

theorem writeBrupCtl_only (s : State) (v : Word) : State.Only s (State.writeBrupCtl s v) [.flash, .brup] := by
  unfold State.writeBrupCtl
  repeat' first | with_reducible assumption | with_reducible exact .refl _ _ | with_reducible refine only_ite ?_ ?_ | with_reducible refine only_when ?_ ?_ | with_reducible refine only_modBrup ?_ (by decide) | with_reducible refine only_askStage ?_ (by decide) | with_reducible refine only_bootPushed ?_ (by decide) | with_reducible refine only_programPushed ?_ (by decide) | split | dsimp only

theorem only_writeBrupCtl {z : State} {fr : List Comp} {s : State} {v : Word} (zh : State.Only z s fr) (zc : ∀ c ∈ ([.flash, .brup] : List Comp), c ∈ fr) :
    State.Only z (State.writeBrupCtl s v) fr := zh.trans ((writeBrupCtl_only s v).mono zc)

theorem twinSend_only (s : State) (type : Byte) (rest : List Byte) : State.Only s (State.twinSend s type rest) [.mch, .out] := by
  unfold State.twinSend
  repeat' first | with_reducible assumption | with_reducible exact .refl _ _ | with_reducible refine only_ite ?_ ?_ | with_reducible refine only_mcSend ?_ (by decide) | split | dsimp only

theorem only_twinSend {z : State} {fr : List Comp} {s : State} {type : Byte} {rest : List Byte} (zh : State.Only z s fr) (zc : ∀ c ∈ ([.mch, .out] : List Comp), c ∈ fr) :
    State.Only z (State.twinSend s type rest) fr := zh.trans ((twinSend_only s type rest).mono zc)

theorem sendAttach_only (s : State) : State.Only s (State.sendAttach s) [.mch, .out] := by
  unfold State.sendAttach
  repeat' first | with_reducible assumption | with_reducible exact .refl _ _ | with_reducible refine only_ite ?_ ?_ | with_reducible refine only_each ?_ (fun _ _ _ => ?_) | with_reducible refine only_mcSend ?_ (by decide) | split | dsimp only

theorem only_sendAttach {z : State} {fr : List Comp} {s : State} (zh : State.Only z s fr) (zc : ∀ c ∈ ([.mch, .out] : List Comp), c ∈ fr) :
    State.Only z (State.sendAttach s) fr := zh.trans ((sendAttach_only s).mono zc)

theorem configureSink_only (s : State) (rs : List AttachRegion) : State.Only s (State.configureSink s rs) [.relx] := by
  unfold State.configureSink
  repeat' first | with_reducible assumption | with_reducible exact .refl _ _ | with_reducible refine only_ite ?_ ?_ | with_reducible refine only_each ?_ (fun _ _ _ => ?_) | with_reducible refine only_updDig ?_ (by decide) | split | dsimp only

theorem only_configureSink {z : State} {fr : List Comp} {s : State} {rs : List AttachRegion} (zh : State.Only z s fr) (zc : ∀ c ∈ ([.relx] : List Comp), c ∈ fr) :
    State.Only z (State.configureSink s rs) fr := zh.trans ((configureSink_only s rs).mono zc)

theorem attachFail_only (s : State) : State.Only s (State.attachFail s) [.healx] := by
  unfold State.attachFail
  repeat' first | with_reducible assumption | with_reducible exact .refl _ _ | with_reducible refine only_ite ?_ ?_ | with_reducible refine only_modHealx ?_ (by decide) | split | dsimp only

theorem only_attachFail {z : State} {fr : List Comp} {s : State} (zh : State.Only z s fr) (zc : ∀ c ∈ ([.healx] : List Comp), c ∈ fr) :
    State.Only z (State.attachFail s) fr := zh.trans ((attachFail_only s).mono zc)

theorem setTwinEn_only (s : State) (b : Bool) : State.Only s (State.setTwinEn s b) [.relx] := by
  unfold State.setTwinEn
  repeat' first | with_reducible assumption | with_reducible exact .refl _ _ | with_reducible refine only_ite ?_ ?_ | with_reducible refine only_modRelx ?_ (by decide) | split | dsimp only

theorem only_setTwinEn {z : State} {fr : List Comp} {s : State} {b : Bool} (zh : State.Only z s fr) (zc : ∀ c ∈ ([.relx] : List Comp), c ∈ fr) :
    State.Only z (State.setTwinEn s b) fr := zh.trans ((setTwinEn_only s b).mono zc)

theorem writeTwin_only (s : State) (v : Word) : State.Only s (State.writeTwin s v) [.healx, .relx, .mch, .out] := by
  unfold State.writeTwin
  repeat' first | with_reducible assumption | with_reducible exact .refl _ _ | with_reducible refine only_ite ?_ ?_ | with_reducible refine only_when ?_ ?_ | with_reducible refine only_modHealx ?_ (by decide) | with_reducible refine only_twinSend ?_ (by decide) | with_reducible refine only_sendAttach ?_ (by decide) | with_reducible refine only_configureSink ?_ (by decide) | with_reducible refine only_attachFail ?_ (by decide) | with_reducible refine only_setTwinEn ?_ (by decide) | split | dsimp only

theorem only_writeTwin {z : State} {fr : List Comp} {s : State} {v : Word} (zh : State.Only z s fr) (zc : ∀ c ∈ ([.healx, .relx, .mch, .out] : List Comp), c ∈ fr) :
    State.Only z (State.writeTwin s v) fr := zh.trans ((writeTwin_only s v).mono zc)

theorem copyRegion_only (s : State) (r : AttachRegion) : State.Only s (State.copyRegion s r) [.out] := by
  unfold State.copyRegion
  repeat' first | with_reducible assumption | with_reducible exact .refl _ _ | with_reducible refine only_ite ?_ ?_ | with_reducible refine only_each ?_ (fun _ _ _ => ?_) | with_reducible refine only_emit ?_ (by decide) | split | dsimp only

theorem only_copyRegion {z : State} {fr : List Comp} {s : State} {r : AttachRegion} (zh : State.Only z s fr) (zc : ∀ c ∈ ([.out] : List Comp), c ∈ fr) :
    State.Only z (State.copyRegion s r) fr := zh.trans ((copyRegion_only s r).mono zc)

theorem pair_only (s : State) : State.Only s (State.pair s) [.healx, .relx] := by
  unfold State.pair
  repeat' first | with_reducible assumption | with_reducible exact .refl _ _ | with_reducible refine only_ite ?_ ?_ | with_reducible refine only_modHealx ?_ (by decide) | with_reducible refine only_setTwinEn ?_ (by decide) | split | dsimp only

theorem only_pair {z : State} {fr : List Comp} {s : State} (zh : State.Only z s fr) (zc : ∀ c ∈ ([.healx, .relx] : List Comp), c ∈ fr) :
    State.Only z (State.pair s) fr := zh.trans ((pair_only s).mono zc)

theorem goSolo_only (s : State) : State.Only s (State.goSolo s) [.top, .healx, .relx, .out] := by
  unfold State.goSolo
  repeat' first | with_reducible assumption | with_reducible exact .refl _ _ | with_reducible refine only_ite ?_ ?_ | with_reducible refine only_modHealx ?_ (by decide) | with_reducible refine only_attn ?_ (by decide) | with_reducible refine only_setTwinEn ?_ (by decide) | split | dsimp only

theorem only_goSolo {z : State} {fr : List Comp} {s : State} (zh : State.Only z s fr) (zc : ∀ c ∈ ([.top, .healx, .relx, .out] : List Comp), c ∈ fr) :
    State.Only z (State.goSolo s) fr := zh.trans ((goSolo_only s).mono zc)

theorem memoryWorm_only (s : State) (r : Router) (w : Worm) : State.Only s (State.memoryWorm s r w) [.top, .rel, .chest, .hbm, .parts, .out] := by
  unfold State.memoryWorm
  repeat' first | with_reducible assumption | with_reducible exact .refl _ _ | with_reducible refine only_ite ?_ ?_ | with_reducible refine only_emit ?_ (by decide) | with_reducible refine only_checkRange ?_ (by decide) | with_reducible refine only_hbmWrite ?_ (by decide) | split | dsimp only

theorem only_memoryWorm {z : State} {fr : List Comp} {s : State} {r : Router} {w : Worm} (zh : State.Only z s fr) (zc : ∀ c ∈ ([.top, .rel, .chest, .hbm, .parts, .out] : List Comp), c ∈ fr) :
    State.Only z (State.memoryWorm s r w) fr := zh.trans ((memoryWorm_only s r w).mono zc)

theorem countStall_only (s : State) (r : Router) (out : Nat) (xs : List RtWorm) : State.Only s (State.countStall s r out xs) [.tel, .spn, .fabs] := by
  unfold State.countStall
  repeat' first | with_reducible assumption | with_reducible exact .refl _ _ | with_reducible refine only_ite ?_ ?_ | with_reducible refine only_when ?_ ?_ | with_reducible refine only_each ?_ (fun _ _ _ => ?_) | with_reducible refine only_modSpn ?_ (by decide) | with_reducible refine only_updFab ?_ (by decide) | with_reducible refine only_updLink ?_ (by decide) | split | dsimp only

theorem only_countStall {z : State} {fr : List Comp} {s : State} {r : Router} {out : Nat} {xs : List RtWorm} (zh : State.Only z s fr) (zc : ∀ c ∈ ([.tel, .spn, .fabs] : List Comp), c ∈ fr) :
    State.Only z (State.countStall s r out xs) fr := zh.trans ((countStall_only s r out xs).mono zc)

theorem arrived_only (s : State) (r : Router) (w : Worm) : State.Only s (State.arrived s r w) [.top, .rel, .chest, .hbm, .parts, .out] := by
  unfold State.arrived
  repeat' first | with_reducible assumption | with_reducible exact .refl _ _ | with_reducible refine only_ite ?_ ?_ | with_reducible refine only_emit ?_ (by decide) | with_reducible refine only_memoryWorm ?_ (by decide) | split | dsimp only

theorem only_arrived {z : State} {fr : List Comp} {s : State} {r : Router} {w : Worm} (zh : State.Only z s fr) (zc : ∀ c ∈ ([.top, .rel, .chest, .hbm, .parts, .out] : List Comp), c ∈ fr) :
    State.Only z (State.arrived s r w) fr := zh.trans ((arrived_only s r w).mono zc)

theorem sendFlit_only (s : State) (r : Router) (x : RtWorm) (parityOk : Bool) (bad : Bool) : State.Only s (State.sendFlit s r x parityOk bad) parts13 := by
  unfold State.sendFlit
  repeat' first | with_reducible assumption | with_reducible exact .refl _ _ | with_reducible refine only_ite ?_ ?_ | with_reducible refine only_when ?_ ?_ | with_reducible refine only_modMch ?_ (by decide) | with_reducible refine only_emit ?_ (by decide) | with_reducible refine only_updRouter ?_ (by decide) | with_reducible refine only_countHub ?_ (by decide) | with_reducible refine only_countTx ?_ (by decide) | with_reducible refine only_headIn ?_ (by decide) | with_reducible refine only_flitsIn ?_ (by decide) | with_reducible refine only_poisonIn ?_ (by decide) | with_reducible refine only_countTransit ?_ (by decide) | with_reducible refine only_transitAt ?_ (by decide) | with_reducible refine only_releaseArrive ?_ (by decide) | with_reducible refine only_arrived ?_ (by decide) | split | dsimp only

theorem only_sendFlit {z : State} {fr : List Comp} {s : State} {r : Router} {x : RtWorm} {parityOk : Bool} {bad : Bool} (zh : State.Only z s fr) (zc : ∀ c ∈ (parts13 : List Comp), c ∈ fr) :
    State.Only z (State.sendFlit s r x parityOk bad) fr := zh.trans ((sendFlit_only s r x parityOk bad).mono zc)

theorem slotGo_only (s : State) (r : Router) (out : Nat) (pick : Nat) (parityOk : Bool) (bad : Bool) : State.Only s (State.slotGo s r out pick parityOk bad) parts13 := by
  unfold State.slotGo
  repeat' first | with_reducible assumption | with_reducible exact .refl _ _ | with_reducible refine only_ite ?_ ?_ | with_reducible refine only_updRouter ?_ (by decide) | with_reducible refine only_countStall ?_ (by decide) | with_reducible refine only_sendFlit ?_ (by decide) | split | dsimp only

theorem only_slotGo {z : State} {fr : List Comp} {s : State} {r : Router} {out : Nat} {pick : Nat} {parityOk : Bool} {bad : Bool} (zh : State.Only z s fr) (zc : ∀ c ∈ (parts13 : List Comp), c ∈ fr) :
    State.Only z (State.slotGo s r out pick parityOk bad) fr := zh.trans ((slotGo_only s r out pick parityOk bad).mono zc)

theorem slot_only (s : State) (r : Router) (out : Nat) (pick : Nat) (parityOk : Bool) (bad : Bool) : State.Only s (State.slot s r out pick parityOk bad) parts13 := by
  unfold State.slot
  repeat' first | with_reducible assumption | with_reducible exact .refl _ _ | with_reducible refine only_ite ?_ ?_ | with_reducible refine only_cutPort ?_ (by decide) | with_reducible refine only_slotGo ?_ (by decide) | split | dsimp only

theorem only_slot {z : State} {fr : List Comp} {s : State} {r : Router} {out : Nat} {pick : Nat} {parityOk : Bool} {bad : Bool} (zh : State.Only z s fr) (zc : ∀ c ∈ (parts13 : List Comp), c ∈ fr) :
    State.Only z (State.slot s r out pick parityOk bad) fr := zh.trans ((slot_only s r out pick parityOk bad).mono zc)

theorem cutAt_only (s : State) (r : Router) (x : RtWorm) : State.Only s (State.cutAt s r x) [.top, .fret, .rel, .chest, .tel, .spn, .hbm, .fabs, .parts, .tasks, .held, .out] := by
  unfold State.cutAt
  repeat' first | with_reducible assumption | with_reducible exact .refl _ _ | with_reducible refine only_ite ?_ ?_ | with_reducible refine only_emit ?_ (by decide) | with_reducible refine only_updRouter ?_ (by decide) | with_reducible refine only_detect ?_ (by decide) | with_reducible refine only_countCut ?_ (by decide) | with_reducible refine only_cutUncrossed ?_ (by decide) | with_reducible refine only_poisonIn ?_ (by decide) | with_reducible refine only_releaseArrive ?_ (by decide) | with_reducible refine only_arrived ?_ (by decide) | split | dsimp only

theorem only_cutAt {z : State} {fr : List Comp} {s : State} {r : Router} {x : RtWorm} (zh : State.Only z s fr) (zc : ∀ c ∈ ([.top, .fret, .rel, .chest, .tel, .spn, .hbm, .fabs, .parts, .tasks, .held, .out] : List Comp), c ∈ fr) :
    State.Only z (State.cutAt s r x) fr := zh.trans ((cutAt_only s r x).mono zc)

theorem cutBefore_only (s : State) (r : Router) (x : RtWorm) : State.Only s (State.cutBefore s r x) [.chest, .spn, .fabs, .tasks] := by
  unfold State.cutBefore
  repeat' first | with_reducible assumption | with_reducible exact .refl _ _ | with_reducible refine only_ite ?_ ?_ | with_reducible refine only_updRouter ?_ (by decide) | with_reducible refine only_detect ?_ (by decide) | with_reducible refine only_countCut ?_ (by decide) | split | dsimp only

theorem only_cutBefore {z : State} {fr : List Comp} {s : State} {r : Router} {x : RtWorm} (zh : State.Only z s fr) (zc : ∀ c ∈ ([.chest, .spn, .fabs, .tasks] : List Comp), c ∈ fr) :
    State.Only z (State.cutBefore s r x) fr := zh.trans ((cutBefore_only s r x).mono zc)

theorem writeFabCtl_only (s : State) (p : Nat) (v : Word) : State.Only s (State.writeFabCtl s p v) [.top, .fret, .healx, .chest, .spn, .fabs, .tasks, .held, .out] := by
  unfold State.writeFabCtl
  repeat' first | with_reducible assumption | with_reducible exact .refl _ _ | with_reducible refine only_ite ?_ ?_ | with_reducible refine only_when ?_ ?_ | with_reducible refine only_updFab ?_ (by decide) | with_reducible refine only_emit ?_ (by decide) | with_reducible refine only_fabDown ?_ (by decide) | split | dsimp only

theorem only_writeFabCtl {z : State} {fr : List Comp} {s : State} {p : Nat} {v : Word} (zh : State.Only z s fr) (zc : ∀ c ∈ ([.top, .fret, .healx, .chest, .spn, .fabs, .tasks, .held, .out] : List Comp), c ∈ fr) :
    State.Only z (State.writeFabCtl s p v) fr := zh.trans ((writeFabCtl_only s p v).mono zc)

theorem writeTop_only (s : State) (w : Writer) (off : Nat) (v : Word) : State.Only s (State.writeTop s w off v) [.top, .out] := by
  unfold State.writeTop
  repeat' first | with_reducible assumption | with_reducible exact .refl _ _ | with_reducible refine only_ite ?_ ?_ | with_reducible refine only_modTop ?_ (by decide) | with_reducible refine only_ownerOp ?_ (by decide) | split | dsimp only

theorem only_writeTop {z : State} {fr : List Comp} {s : State} {w : Writer} {off : Nat} {v : Word} (zh : State.Only z s fr) (zc : ∀ c ∈ ([.top, .out] : List Comp), c ∈ fr) :
    State.Only z (State.writeTop s w off v) fr := zh.trans ((writeTop_only s w off v).mono zc)

theorem writeRstc_only (s : State) (w : Writer) (off : Nat) (v : Word) : State.Only s (State.writeRstc s w off v) parts9 := by
  unfold State.writeRstc
  repeat' first | with_reducible assumption | with_reducible exact .refl _ _ | with_reducible refine only_ite ?_ ?_ | with_reducible refine only_modRstc ?_ (by decide) | with_reducible refine only_writeRstcReq ?_ (by decide) | with_reducible refine only_writeRstcBlk ?_ (by decide) | split | dsimp only

theorem only_writeRstc {z : State} {fr : List Comp} {s : State} {w : Writer} {off : Nat} {v : Word} (zh : State.Only z s fr) (zc : ∀ c ∈ (parts9 : List Comp), c ∈ fr) :
    State.Only z (State.writeRstc s w off v) fr := zh.trans ((writeRstc_only s w off v).mono zc)

theorem writeBrup_only (s : State) (off : Nat) (v : Word) : State.Only s (State.writeBrup s off v) [.flash, .brup] := by
  unfold State.writeBrup
  repeat' first | with_reducible assumption | with_reducible exact .refl _ _ | with_reducible refine only_ite ?_ ?_ | with_reducible refine only_modBrup ?_ (by decide) | with_reducible refine only_writeBrupCtl ?_ (by decide) | split | dsimp only

theorem only_writeBrup {z : State} {fr : List Comp} {s : State} {off : Nat} {v : Word} (zh : State.Only z s fr) (zc : ∀ c ∈ ([.flash, .brup] : List Comp), c ∈ fr) :
    State.Only z (State.writeBrup s off v) fr := zh.trans ((writeBrup_only s off v).mono zc)

theorem writeClk_only (s : State) (off : Nat) (v : Word) : State.Only s (State.writeClk s off v) [.clk, .fret, .out] := by
  unfold State.writeClk
  repeat' first | with_reducible assumption | with_reducible exact .refl _ _ | with_reducible refine only_ite ?_ ?_ | with_reducible refine only_writeClkChange ?_ (by decide) | with_reducible refine only_writeClkHalf ?_ (by decide) | split | dsimp only

theorem only_writeClk {z : State} {fr : List Comp} {s : State} {off : Nat} {v : Word} (zh : State.Only z s fr) (zc : ∀ c ∈ ([.clk, .fret, .out] : List Comp), c ∈ fr) :
    State.Only z (State.writeClk s off v) fr := zh.trans ((writeClk_only s off v).mono zc)

theorem writePwr_only (s : State) (off : Nat) (v : Word) : State.Only s (State.writePwr s off v) [.flash, .top, .pwr, .gov, .fret, .bist, .chest, .parts, .tiles, .out] := by
  unfold State.writePwr
  repeat' first | with_reducible assumption | with_reducible exact .refl _ _ | with_reducible refine only_ite ?_ ?_ | with_reducible refine only_modPwr ?_ (by decide) | with_reducible refine only_writeBudget ?_ (by decide) | with_reducible refine only_writePark ?_ (by decide) | with_reducible refine only_writeParkAllow ?_ (by decide) | with_reducible refine only_writePeg ?_ (by decide) | split | dsimp only

theorem only_writePwr {z : State} {fr : List Comp} {s : State} {off : Nat} {v : Word} (zh : State.Only z s fr) (zc : ∀ c ∈ ([.flash, .top, .pwr, .gov, .fret, .bist, .chest, .parts, .tiles, .out] : List Comp), c ∈ fr) :
    State.Only z (State.writePwr s off v) fr := zh.trans ((writePwr_only s off v).mono zc)

theorem writeFret_only (s : State) (off : Nat) (v : Word) : State.Only s (State.writeFret s off v) [.clk, .fret, .chest, .tasks, .out] := by
  unfold State.writeFret
  repeat' first | with_reducible assumption | with_reducible exact .refl _ _ | with_reducible refine only_ite ?_ ?_ | with_reducible refine only_modFret ?_ (by decide) | with_reducible refine only_writeFretDomain ?_ (by decide) | with_reducible refine only_writeFlight ?_ (by decide) | split | dsimp only

theorem only_writeFret {z : State} {fr : List Comp} {s : State} {off : Nat} {v : Word} (zh : State.Only z s fr) (zc : ∀ c ∈ ([.clk, .fret, .chest, .tasks, .out] : List Comp), c ∈ fr) :
    State.Only z (State.writeFret s off v) fr := zh.trans ((writeFret_only s off v).mono zc)

theorem writeSec_only (s : State) (w : Writer) (off : Nat) (v : Word) : State.Only s (State.writeSec s w off v) [.flash, .ids, .sec] := by
  unfold State.writeSec
  repeat' first | with_reducible assumption | with_reducible exact .refl _ _ | with_reducible refine only_ite ?_ ?_ | with_reducible refine only_modIds ?_ (by decide) | with_reducible refine only_modSec ?_ (by decide) | with_reducible refine only_writeLcReq ?_ (by decide) | with_reducible refine only_writeIdCtl ?_ (by decide) | with_reducible refine only_writeQuoteCtl ?_ (by decide) | with_reducible refine only_writeOpkCtl ?_ (by decide) | split | dsimp only

theorem only_writeSec {z : State} {fr : List Comp} {s : State} {w : Writer} {off : Nat} {v : Word} (zh : State.Only z s fr) (zc : ∀ c ∈ ([.flash, .ids, .sec] : List Comp), c ∈ fr) :
    State.Only z (State.writeSec s w off v) fr := zh.trans ((writeSec_only s w off v).mono zc)

theorem writeBist_only (s : State) (a : Accessor) (off : Nat) (v : Word) : State.Only s (State.writeBist s a off v) [.top, .pwr, .fret, .bist, .chest, .out] := by
  unfold State.writeBist
  repeat' first | with_reducible assumption | with_reducible exact .refl _ _ | with_reducible refine only_ite ?_ ?_ | with_reducible refine only_modBist ?_ (by decide) | with_reducible refine only_writeBistCtl ?_ (by decide) | split | dsimp only

theorem only_writeBist {z : State} {fr : List Comp} {s : State} {a : Accessor} {off : Nat} {v : Word} (zh : State.Only z s fr) (zc : ∀ c ∈ ([.top, .pwr, .fret, .bist, .chest, .out] : List Comp), c ∈ fr) :
    State.Only z (State.writeBist s a off v) fr := zh.trans ((writeBist_only s a off v).mono zc)

theorem writeHeal_only (s : State) (a : Accessor) (off : Nat) (v : Word) : State.Only s (State.writeHeal s a off v) [.flash, .top, .bist, .heal, .healx, .relx, .chest, .mch, .spn, .parts, .cluss, .tiles, .tasks, .out] := by
  unfold State.writeHeal
  repeat' first | with_reducible assumption | with_reducible exact .refl _ _ | with_reducible refine only_ite ?_ ?_ | with_reducible refine only_modHeal ?_ (by decide) | with_reducible refine only_writeHealCmd ?_ (by decide) | with_reducible refine only_writeTwin ?_ (by decide) | split | dsimp only

theorem only_writeHeal {z : State} {fr : List Comp} {s : State} {a : Accessor} {off : Nat} {v : Word} (zh : State.Only z s fr) (zc : ∀ c ∈ ([.flash, .top, .bist, .heal, .healx, .relx, .chest, .mch, .spn, .parts, .cluss, .tiles, .tasks, .out] : List Comp), c ∈ fr) :
    State.Only z (State.writeHeal s a off v) fr := zh.trans ((writeHeal_only s a off v).mono zc)

theorem updDigOff_only (s : State) (n : Nat) (f : DigSt → DigSt) : State.Only s (State.updDigOff s n f) [.relx] := by
  unfold State.updDigOff
  repeat' first | with_reducible assumption | with_reducible exact .refl _ _ | with_reducible refine only_ite ?_ ?_ | with_reducible refine only_when ?_ ?_ | with_reducible refine only_updDig ?_ (by decide) | split | dsimp only

theorem only_updDigOff {z : State} {fr : List Comp} {s : State} {n : Nat} {f : DigSt → DigSt} (zh : State.Only z s fr) (zc : ∀ c ∈ ([.relx] : List Comp), c ∈ fr) :
    State.Only z (State.updDigOff s n f) fr := zh.trans ((updDigOff_only s n f).mono zc)

theorem writeRel_only (s : State) (a : Accessor) (off : Nat) (v : Word) : State.Only s (State.writeRel s a off v) [.rel, .relx, .chest] := by
  unfold State.writeRel
  repeat' first | with_reducible assumption | with_reducible exact .refl _ _ | with_reducible refine only_ite ?_ ?_ | with_reducible refine only_modRel ?_ (by decide) | with_reducible refine only_modRelx ?_ (by decide) | with_reducible refine only_writeDigCfg ?_ (by decide) | with_reducible refine only_writeDigCtl ?_ (by decide) | with_reducible refine only_updDigOff ?_ (by decide) | split | dsimp only

theorem only_writeRel {z : State} {fr : List Comp} {s : State} {a : Accessor} {off : Nat} {v : Word} (zh : State.Only z s fr) (zc : ∀ c ∈ ([.rel, .relx, .chest] : List Comp), c ∈ fr) :
    State.Only z (State.writeRel s a off v) fr := zh.trans ((writeRel_only s a off v).mono zc)

theorem updTrig_only (s : State) (id : Nat) (f : TrigSt → TrigSt) : State.Only s (State.updTrig s id f) [.tel] := by
  unfold State.updTrig
  repeat' first | with_reducible assumption | with_reducible exact .refl _ _ | with_reducible refine only_ite ?_ ?_ | with_reducible refine only_modTel ?_ (by decide) | split | dsimp only

theorem only_updTrig {z : State} {fr : List Comp} {s : State} {id : Nat} {f : TrigSt → TrigSt} (zh : State.Only z s fr) (zc : ∀ c ∈ ([.tel] : List Comp), c ∈ fr) :
    State.Only z (State.updTrig s id f) fr := zh.trans ((updTrig_only s id f).mono zc)

theorem writeChest_only (s : State) (a : Accessor) (off : Nat) (v : Word) : State.Only s (State.writeChest s a off v) [.tel] := by
  unfold State.writeChest
  repeat' first | with_reducible assumption | with_reducible exact .refl _ _ | with_reducible refine only_ite ?_ ?_ | with_reducible refine only_modTel ?_ (by decide) | with_reducible refine only_updTrig ?_ (by decide) | split | dsimp only

theorem only_writeChest {z : State} {fr : List Comp} {s : State} {a : Accessor} {off : Nat} {v : Word} (zh : State.Only z s fr) (zc : ∀ c ∈ ([.tel] : List Comp), c ∈ fr) :
    State.Only z (State.writeChest s a off v) fr := zh.trans ((writeChest_only s a off v).mono zc)

theorem updClosed_only (s : State) (n : Nat) (f : ConnSt → ConnSt) : State.Only s (State.updClosed s n f) [.mch] := by
  unfold State.updClosed
  repeat' first | with_reducible assumption | with_reducible exact .refl _ _ | with_reducible refine only_ite ?_ ?_ | with_reducible refine only_when ?_ ?_ | with_reducible refine only_updConn ?_ (by decide) | split | dsimp only

theorem only_updClosed {z : State} {fr : List Comp} {s : State} {n : Nat} {f : ConnSt → ConnSt} (zh : State.Only z s fr) (zc : ∀ c ∈ ([.mch] : List Comp), c ∈ fr) :
    State.Only z (State.updClosed s n f) fr := zh.trans ((updClosed_only s n f).mono zc)

theorem updUnbound_only (s : State) (n : Nat) (f : QueueSt → QueueSt) : State.Only s (State.updUnbound s n f) [.mch] := by
  unfold State.updUnbound
  repeat' first | with_reducible assumption | with_reducible exact .refl _ _ | with_reducible refine only_ite ?_ ?_ | with_reducible refine only_when ?_ ?_ | with_reducible refine only_updQueue ?_ (by decide) | split | dsimp only

theorem only_updUnbound {z : State} {fr : List Comp} {s : State} {n : Nat} {f : QueueSt → QueueSt} (zh : State.Only z s fr) (zc : ∀ c ∈ ([.mch] : List Comp), c ∈ fr) :
    State.Only z (State.updUnbound s n f) fr := zh.trans ((updUnbound_only s n f).mono zc)

theorem writeConnCtl_only (s : State) (n : Nat) (v : Word) : State.Only s (State.writeConnCtl s n v) [.top, .mch, .pcie, .out] := by
  unfold State.writeConnCtl
  repeat' first | with_reducible assumption | with_reducible exact .refl _ _ | with_reducible refine only_ite ?_ ?_ | with_reducible refine only_updConn ?_ (by decide) | with_reducible refine only_openConn ?_ (by decide) | with_reducible refine only_closeConn ?_ (by decide) | with_reducible refine only_updClosed ?_ (by decide) | split | dsimp only

theorem only_writeConnCtl {z : State} {fr : List Comp} {s : State} {n : Nat} {v : Word} (zh : State.Only z s fr) (zc : ∀ c ∈ ([.top, .mch, .pcie, .out] : List Comp), c ∈ fr) :
    State.Only z (State.writeConnCtl s n v) fr := zh.trans ((writeConnCtl_only s n v).mono zc)

theorem writeQueueCfg_only (s : State) (n : Nat) (v : Word) : State.Only s (State.writeQueueCfg s n v) [.mch, .out] := by
  unfold State.writeQueueCfg
  repeat' first | with_reducible assumption | with_reducible exact .refl _ _ | with_reducible refine only_ite ?_ ?_ | with_reducible refine only_when ?_ ?_ | with_reducible refine only_updQueue ?_ (by decide) | with_reducible refine only_bindQueue ?_ (by decide) | with_reducible refine only_unbindQueue ?_ (by decide) | with_reducible refine only_updUnbound ?_ (by decide) | split | dsimp only

theorem only_writeQueueCfg {z : State} {fr : List Comp} {s : State} {n : Nat} {v : Word} (zh : State.Only z s fr) (zc : ∀ c ∈ ([.mch, .out] : List Comp), c ∈ fr) :
    State.Only z (State.writeQueueCfg s n v) fr := zh.trans ((writeQueueCfg_only s n v).mono zc)

theorem writeMch_only (s : State) (a : Accessor) (off : Nat) (v : Word) : State.Only s (State.writeMch s a off v) [.top, .mch, .pcie, .out] := by
  unfold State.writeMch
  repeat' first | with_reducible assumption | with_reducible exact .refl _ _ | with_reducible refine only_ite ?_ ?_ | with_reducible refine only_modMch ?_ (by decide) | with_reducible refine only_updConn ?_ (by decide) | with_reducible refine only_flush ?_ (by decide) | with_reducible refine only_updClosed ?_ (by decide) | with_reducible refine only_updUnbound ?_ (by decide) | with_reducible refine only_writeConnCtl ?_ (by decide) | with_reducible refine only_writeQueueCfg ?_ (by decide) | split | dsimp only

theorem only_writeMch {z : State} {fr : List Comp} {s : State} {a : Accessor} {off : Nat} {v : Word} (zh : State.Only z s fr) (zc : ∀ c ∈ ([.top, .mch, .pcie, .out] : List Comp), c ∈ fr) :
    State.Only z (State.writeMch s a off v) fr := zh.trans ((writeMch_only s a off v).mono zc)

theorem writePcie_only (s : State) (p : HostPort) (off : Nat) (v : Word) : State.Only s (State.writePcie s p off v) [.mch, .pcie, .out] := by
  unfold State.writePcie
  repeat' first | with_reducible assumption | with_reducible exact .refl _ _ | with_reducible refine only_ite ?_ ?_ | with_reducible refine only_updPcie ?_ (by decide) | with_reducible refine only_writeNqCfg ?_ (by decide) | with_reducible refine only_writeNqHead ?_ (by decide) | with_reducible refine only_writeRxConsume ?_ (by decide) | split | dsimp only

theorem only_writePcie {z : State} {fr : List Comp} {s : State} {p : HostPort} {off : Nat} {v : Word} (zh : State.Only z s fr) (zc : ∀ c ∈ ([.mch, .pcie, .out] : List Comp), c ∈ fr) :
    State.Only z (State.writePcie s p off v) fr := zh.trans ((writePcie_only s p off v).mono zc)

theorem writeMgt_only (s : State) (off : Nat) (v : Word) : State.Only s (State.writeMgt s off v) [.mgt] := by
  unfold State.writeMgt
  repeat' first | with_reducible assumption | with_reducible exact .refl _ _ | with_reducible refine only_ite ?_ ?_ | with_reducible refine only_modMgt ?_ (by decide) | with_reducible refine only_updMgmtPort ?_ (by decide) | split | dsimp only

theorem only_writeMgt {z : State} {fr : List Comp} {s : State} {off : Nat} {v : Word} (zh : State.Only z s fr) (zc : ∀ c ∈ ([.mgt] : List Comp), c ∈ fr) :
    State.Only z (State.writeMgt s off v) fr := zh.trans ((writeMgt_only s off v).mono zc)

theorem writeFab_only (s : State) (p : Nat) (off : Nat) (v : Word) : State.Only s (State.writeFab s p off v) [.top, .fret, .healx, .chest, .spn, .fabs, .tasks, .held, .out] := by
  unfold State.writeFab
  repeat' first | with_reducible assumption | with_reducible exact .refl _ _ | with_reducible refine only_ite ?_ ?_ | with_reducible refine only_updFab ?_ (by decide) | with_reducible refine only_writeFabCtl ?_ (by decide) | split | dsimp only

theorem only_writeFab {z : State} {fr : List Comp} {s : State} {p : Nat} {off : Nat} {v : Word} (zh : State.Only z s fr) (zc : ∀ c ∈ ([.top, .fret, .healx, .chest, .spn, .fabs, .tasks, .held, .out] : List Comp), c ∈ fr) :
    State.Only z (State.writeFab s p off v) fr := zh.trans ((writeFab_only s p off v).mono zc)

theorem writeRoute_only (s : State) (n : Nat) (k : Nat) (v : Word) : State.Only s (State.writeRoute s n k v) [.spn] := by
  unfold State.writeRoute
  repeat' first | with_reducible assumption | with_reducible exact .refl _ _ | with_reducible refine only_ite ?_ ?_ | with_reducible refine only_modSpn ?_ (by decide) | split | dsimp only

theorem only_writeRoute {z : State} {fr : List Comp} {s : State} {n : Nat} {k : Nat} {v : Word} (zh : State.Only z s fr) (zc : ∀ c ∈ ([.spn] : List Comp), c ∈ fr) :
    State.Only z (State.writeRoute s n k v) fr := zh.trans ((writeRoute_only s n k v).mono zc)

theorem writeSpn_only (s : State) (h : Half) (a : Accessor) (off : Nat) (v : Word) : State.Only s (State.writeSpn s h a off v) [.spn, .sess] := by
  unfold State.writeSpn
  repeat' first | with_reducible assumption | with_reducible exact .refl _ _ | with_reducible refine only_ite ?_ ?_ | with_reducible refine only_updSpn ?_ (by decide) | with_reducible refine only_writeSessTbl ?_ (by decide) | with_reducible refine only_writeKvpBase ?_ (by decide) | with_reducible refine only_writeKvpGeom ?_ (by decide) | with_reducible refine only_writeKvpPages ?_ (by decide) | with_reducible refine only_writeRoute ?_ (by decide) | split | dsimp only

theorem only_writeSpn {z : State} {fr : List Comp} {s : State} {h : Half} {a : Accessor} {off : Nat} {v : Word} (zh : State.Only z s fr) (zc : ∀ c ∈ ([.spn, .sess] : List Comp), c ∈ fr) :
    State.Only z (State.writeSpn s h a off v) fr := zh.trans ((writeSpn_only s h a off v).mono zc)

theorem writePart_only (s : State) (p : Nat) (off : Nat) (v : Word) : State.Only s (State.writePart s p off v) [.parts] := by
  unfold State.writePart
  repeat' first | with_reducible assumption | with_reducible exact .refl _ _ | with_reducible refine only_ite ?_ ?_ | with_reducible refine only_updPart ?_ (by decide) | with_reducible refine only_writeLpCfg ?_ (by decide) | split | dsimp only

theorem only_writePart {z : State} {fr : List Comp} {s : State} {p : Nat} {off : Nat} {v : Word} (zh : State.Only z s fr) (zc : ∀ c ∈ ([.parts] : List Comp), c ∈ fr) :
    State.Only z (State.writePart s p off v) fr := zh.trans ((writePart_only s p off v).mono zc)

theorem writeTile_only (s : State) (pt : Nat) (off : Nat) (v : Word) : State.Only s (State.writeTile s pt off v) [.tiles] := by
  unfold State.writeTile
  repeat' first | with_reducible assumption | with_reducible exact .refl _ _ | with_reducible refine only_ite ?_ ?_ | with_reducible refine only_updTile ?_ (by decide) | split | dsimp only

theorem only_writeTile {z : State} {fr : List Comp} {s : State} {pt : Nat} {off : Nat} {v : Word} (zh : State.Only z s fr) (zc : ∀ c ∈ ([.tiles] : List Comp), c ∈ fr) :
    State.Only z (State.writeTile s pt off v) fr := zh.trans ((writeTile_only s pt off v).mono zc)

theorem writeClus_only (s : State) (c : Nat) (a : Accessor) (off : Nat) (v : Word) : State.Only s (State.writeClus s c a off v) [.cluss, .tiles, .ctxs] := by
  unfold State.writeClus
  repeat' first | with_reducible assumption | with_reducible exact .refl _ _ | with_reducible refine only_ite ?_ ?_ | with_reducible refine only_updClus ?_ (by decide) | with_reducible refine only_updCtx ?_ (by decide) | with_reducible refine only_writeTile ?_ (by decide) | split | dsimp only

theorem only_writeClus {z : State} {fr : List Comp} {s : State} {c : Nat} {a : Accessor} {off : Nat} {v : Word} (zh : State.Only z s fr) (zc : ∀ c ∈ ([.cluss, .tiles, .ctxs] : List Comp), c ∈ fr) :
    State.Only z (State.writeClus s c a off v) fr := zh.trans ((writeClus_only s c a off v).mono zc)

theorem blockWrite_only (s : State) (w : Writer) (b : Block) (off : Nat) (v : Word) : State.Only s (State.blockWrite s w b off v) parts9 := by
  unfold State.blockWrite
  repeat' first | with_reducible assumption | with_reducible exact .refl _ _ | with_reducible refine only_ite ?_ ?_ | with_reducible refine only_writeTop ?_ (by decide) | with_reducible refine only_writeRstc ?_ (by decide) | with_reducible refine only_writeBrup ?_ (by decide) | with_reducible refine only_writeClk ?_ (by decide) | with_reducible refine only_writePwr ?_ (by decide) | with_reducible refine only_writeFret ?_ (by decide) | with_reducible refine only_writeSec ?_ (by decide) | with_reducible refine only_writeBist ?_ (by decide) | with_reducible refine only_writeHeal ?_ (by decide) | with_reducible refine only_writeRel ?_ (by decide) | with_reducible refine only_writeChest ?_ (by decide) | with_reducible refine only_writeMch ?_ (by decide) | with_reducible refine only_writePcie ?_ (by decide) | with_reducible refine only_writeMgt ?_ (by decide) | with_reducible refine only_writeFab ?_ (by decide) | with_reducible refine only_writeSpn ?_ (by decide) | with_reducible refine only_writePart ?_ (by decide) | with_reducible refine only_writeClus ?_ (by decide) | split | dsimp only

theorem only_blockWrite {z : State} {fr : List Comp} {s : State} {w : Writer} {b : Block} {off : Nat} {v : Word} (zh : State.Only z s fr) (zc : ∀ c ∈ (parts9 : List Comp), c ∈ fr) :
    State.Only z (State.blockWrite s w b off v) fr := zh.trans ((blockWrite_only s w b off v).mono zc)

theorem bar0Write_only (s : State) (w : Writer) (off : Nat) (v : Word) : State.Only s (State.bar0Write s w off v) parts9 := by
  unfold State.bar0Write
  repeat' first | with_reducible assumption | with_reducible exact .refl _ _ | with_reducible refine only_ite ?_ ?_ | with_reducible refine only_denyWrite ?_ (by decide) | with_reducible refine only_blockWrite ?_ (by decide) | split | dsimp only

theorem only_bar0Write {z : State} {fr : List Comp} {s : State} {w : Writer} {off : Nat} {v : Word} (zh : State.Only z s fr) (zc : ∀ c ∈ (parts9 : List Comp), c ∈ fr) :
    State.Only z (State.bar0Write s w off v) fr := zh.trans ((bar0Write_only s w off v).mono zc)

theorem bar0Read_only (s : State) (a : Accessor) (off : Nat) : State.Only s (State.bar0Read s a off).2 [.tel, .latches] := by
  unfold State.bar0Read
  repeat' first | with_reducible assumption | with_reducible exact .refl _ _ | with_reducible refine only_ite ?_ ?_ | with_reducible refine only_modTel ?_ (by decide) | with_reducible refine only_modLatches ?_ (by decide) | split | dsimp only

theorem only_bar0Read {z : State} {fr : List Comp} {s : State} {a : Accessor} {off : Nat} (zh : State.Only z s fr) (zc : ∀ c ∈ ([.tel, .latches] : List Comp), c ∈ fr) :
    State.Only z (State.bar0Read s a off).2 fr := zh.trans ((bar0Read_only s a off).mono zc)

theorem accWrite_only (s : State) (a : Accessor) (off : Nat) (v : Word) : State.Only s (State.accWrite s a off v) parts9 := by
  unfold State.accWrite
  repeat' first | with_reducible assumption | with_reducible exact .refl _ _ | with_reducible refine only_ite ?_ ?_ | with_reducible refine only_bar0Write ?_ (by decide) | split | dsimp only

theorem only_accWrite {z : State} {fr : List Comp} {s : State} {a : Accessor} {off : Nat} {v : Word} (zh : State.Only z s fr) (zc : ∀ c ∈ (parts9 : List Comp), c ∈ fr) :
    State.Only z (State.accWrite s a off v) fr := zh.trans ((accWrite_only s a off v).mono zc)

theorem only_readWord {z : State} {fr : List Comp} {acc : Accessor} {off : Nat} {r : List Word × State} {x : Bool × Nat}
    (zh : z.Only r.2 fr) (zc : ∀ c ∈ ([.tel, .latches] : List Comp), c ∈ fr) : z.Only (readWord acc off r x).2 fr := by
  unfold readWord
  split
  · exact only_bar0Read zh zc
  · exact zh

theorem replyMgmt_only (s : State) (d : Datagram) (code : BitVec 8) (result : BitVec 8) (b : List Byte) : State.Only s (State.replyMgmt s d code result b) [.flash, .ids, .mgt] := by
  unfold State.replyMgmt
  repeat' first | with_reducible assumption | with_reducible exact .refl _ _ | with_reducible refine only_ite ?_ ?_ | with_reducible refine only_updMgmtPort ?_ (by decide) | with_reducible refine only_askSign ?_ (by decide) | split | dsimp only

theorem only_replyMgmt {z : State} {fr : List Comp} {s : State} {d : Datagram} {code : BitVec 8} {result : BitVec 8} {b : List Byte} (zh : State.Only z s fr) (zc : ∀ c ∈ ([.flash, .ids, .mgt] : List Comp), c ∈ fr) :
    State.Only z (State.replyMgmt s d code result b) fr := zh.trans ((replyMgmt_only s d code result b).mono zc)

theorem storeSeq_only (s : State) (d : Datagram) : State.Only s (State.storeSeq s d) [.flash, .sec] := by
  unfold State.storeSeq
  repeat' first | with_reducible assumption | with_reducible exact .refl _ _ | with_reducible refine only_ite ?_ ?_ | with_reducible refine only_modFlash ?_ (by decide) | with_reducible refine only_modSec ?_ (by decide) | split | dsimp only

theorem only_storeSeq {z : State} {fr : List Comp} {s : State} {d : Datagram} (zh : State.Only z s fr) (zc : ∀ c ∈ ([.flash, .sec] : List Comp), c ∈ fr) :
    State.Only z (State.storeSeq s d) fr := zh.trans ((storeSeq_only s d).mono zc)

theorem only_mgmtChanged {z old s : State} {fr : List Comp} {d : Datagram} (zh : z.Only s fr)
    (zc : ∀ c ∈ ([.top, .chest, .out] : List Comp), c ∈ fr) : z.Only (State.mgmtChanged old s d) fr := by
  refine zh.trans (State.Only.mono ?_ zc)
  unfold State.mgmtChanged
  exact only_when (.refl _ _) (only_record (only_attn (.refl _ _) (by decide)) (by decide))

theorem only_mgmtCommand {z s : State} {fr : List Comp} {d : Datagram} {code : BitVec 8} {slots : Nat} {f : State → Verdict}
    (zh : z.Only s fr) (zf : ∀ u, z.Only u fr → match f u with | .no _ => True | .done t _ => z.Only t fr)
    (zc : ∀ c ∈ ([.flash, .ids, .sec, .mgt] : List Comp), c ∈ fr) : z.Only (s.mgmtCommand d code slots f) fr := by
  have hr : ∀ (u : State) r b, z.Only u fr → z.Only (u.replyMgmt d code r b) fr := fun u r b hu =>
    only_replyMgmt hu fun c hc => zc c (by revert c; decide)
  unfold State.mgmtCommand
  refine only_ite zh (only_ite ?_ (only_ite (hr _ _ _ zh) (only_ite (hr _ _ _ zh) ?_)))
  · exact only_updMgmtPort zh fun c hc => zc c (by revert c; decide)
  · have hu : z.Only (s.storeSeq d) fr := only_storeSeq zh fun c hc => zc c (by revert c; decide)
    have hv := zf _ hu
    split
    · exact hr _ _ _ zh
    · rename_i h; rw [h] at hv; exact only_ite (hr _ _ _ hv) (hr _ _ _ zh)

theorem only_changes {z s t : State} {fr : List Comp} {d : Datagram} (zh : z.Only t fr)
    (zc : ∀ c ∈ ([.top, .chest, .out] : List Comp), c ∈ fr) : z.Only (s.changes d t) fr := only_mgmtChanged zh zc

theorem clearRetire_only (s : State) : State.Only s (State.clearRetire s) [.flash, .top, .relx] := by
  unfold State.clearRetire
  repeat' first | with_reducible assumption | with_reducible exact .refl _ _ | with_reducible refine only_ite ?_ ?_ | with_reducible refine only_modFlash ?_ (by decide) | with_reducible refine only_modRelx ?_ (by decide) | with_reducible refine only_readyPins ?_ (by decide) | split | dsimp only

theorem only_clearRetire {z : State} {fr : List Comp} {s : State} (zh : State.Only z s fr) (zc : ∀ c ∈ ([.flash, .top, .relx] : List Comp), c ∈ fr) :
    State.Only z (State.clearRetire s) fr := zh.trans ((clearRetire_only s).mono zc)

theorem endScript_only (s : State) : State.Only s (State.endScript s) [.brup] := by
  unfold State.endScript
  repeat' first | with_reducible assumption | with_reducible exact .refl _ _ | with_reducible refine only_ite ?_ ?_ | with_reducible refine only_modBrup ?_ (by decide) | split | dsimp only

theorem only_endScript {z : State} {fr : List Comp} {s : State} (zh : State.Only z s fr) (zc : ∀ c ∈ ([.brup] : List Comp), c ∈ fr) :
    State.Only z (State.endScript s) fr := zh.trans ((endScript_only s).mono zc)

theorem advance_only (s : State) : State.Only s (State.advance s) [.brup] := by
  unfold State.advance
  repeat' first | with_reducible assumption | with_reducible exact .refl _ _ | with_reducible refine only_ite ?_ ?_ | with_reducible refine only_modBrup ?_ (by decide) | split | dsimp only

theorem only_advance {z : State} {fr : List Comp} {s : State} (zh : State.Only z s fr) (zc : ∀ c ∈ ([.brup] : List Comp), c ∈ fr) :
    State.Only z (State.advance s) fr := zh.trans ((advance_only s).mono zc)

theorem only_runRecord {z s : State} {fr : List Comp} {op : Nat} {f : State → ScriptRec → State} (zh : z.Only s fr)
    (zf : ∀ u r, z.Only u fr → z.Only (f u r) fr) (zc : .brup ∈ fr) : z.Only (s.runRecord op f) fr := by
  have ha : z.Only s.advance fr := only_advance zh (by simpa using zc)
  unfold State.runRecord
  refine only_ite zh ?_
  split
  · exact only_ite (only_endScript zh (by simpa using zc)) zh
  · exact only_ite (zf _ _ ha) (only_ite (only_stopScript ha (by simpa using zc)) zh)

theorem seqWrite_only (s : State) (off : Nat) (v : Word) : State.Only s (State.seqWrite s off v) parts9 := by
  unfold State.seqWrite
  repeat' first | with_reducible assumption | with_reducible exact .refl _ _ | with_reducible refine only_ite ?_ ?_ | with_reducible refine only_stopScript ?_ (by decide) | with_reducible refine only_accWrite ?_ (by decide) | split | dsimp only

theorem only_seqWrite {z : State} {fr : List Comp} {s : State} {off : Nat} {v : Word} (zh : State.Only z s fr) (zc : ∀ c ∈ (parts9 : List Comp), c ∈ fr) :
    State.Only z (State.seqWrite s off v) fr := zh.trans ((seqWrite_only s off v).mono zc)

theorem sessPlace_only (s : State) (op : SessOp) (m : SessCmd) : State.Only s (State.sessPlace s op m) [.top, .rel, .chest, .mch, .sess, .hbm, .parts, .out, .free] := by
  unfold State.sessPlace
  repeat' first | with_reducible assumption | with_reducible exact .refl _ _ | with_reducible refine only_ite ?_ ?_ | with_reducible refine only_modSess ?_ (by decide) | with_reducible refine only_sessApply ?_ (by decide) | split | dsimp only

theorem only_sessPlace {z : State} {fr : List Comp} {s : State} {op : SessOp} {m : SessCmd} (zh : State.Only z s fr) (zc : ∀ c ∈ ([.top, .rel, .chest, .mch, .sess, .hbm, .parts, .out, .free] : List Comp), c ∈ fr) :
    State.Only z (State.sessPlace s op m) fr := zh.trans ((sessPlace_only s op m).mono zc)

theorem only_jtag {z s : State} {fr : List Comp} {op : BitVec 8} {drive highz : Bool} {f : State → State} (zh : z.Only s fr)
    (zf : ∀ u, z.Only u fr → z.Only (f u) fr) (zc : ∀ c ∈ ([.tap, .out] : List Comp), c ∈ fr) : z.Only (s.jtag op drive highz f) fr := by
  unfold State.jtag
  exact only_ite (zf _ (only_loadIr zh zc)) (only_loadIr zh zc)

theorem updateCells_only (s : State) (cells : BitVec 362) : State.Only s (State.updateCells s cells) [.tap] := by
  unfold State.updateCells
  repeat' first | with_reducible assumption | with_reducible exact .refl _ _ | with_reducible refine only_ite ?_ ?_ | with_reducible refine only_modTap ?_ (by decide) | split | dsimp only

theorem only_updateCells {z : State} {fr : List Comp} {s : State} {cells : BitVec 362} (zh : State.Only z s fr) (zc : ∀ c ∈ ([.tap] : List Comp), c ∈ fr) :
    State.Only z (State.updateCells s cells) fr := zh.trans ((updateCells_only s cells).mono zc)

end Sys2Proof.Machine
end

