-- ==== Sys2Proof/Laws/Access.lean ====
section
/-! SUPPORT. A BAR0 write that reaches a register: it is its block's write (00 R8; 09 R503; 17 R736). -/

namespace Sys2Proof.Machine

/-- The MC and the holder of the owner token are never denied (09 R503). -/
theorem writeDenied_of_mayWrite {s : State} {acc : Accessor} (h : s.mayWrite acc = true) (b : Block) (o : Nat) (v : Word) :
    s.writeDenied { acc := acc } b o v = false := by
  cases acc <;> simp_all [State.writeDenied, State.mayWrite]

/-- A write that is aligned, finds a register that answers and is not denied is its block's write. -/
theorem accWrite_eq {s : State} {acc : Accessor} {off o : Nat} {b : Block} {v : Word} (h4 : off % 4 = 0)
    (hb : blockOf off = some (b, o)) (hh : blockHas b o = true) (ha : s.regAnswers b o = true)
    (hd : s.writeDenied { acc := acc } b o v = false) :
    s.accWrite acc off v = s.blockWrite { acc := acc } b o v := by
  unfold State.accWrite State.bar0Write
  rw [if_neg (by simpa using h4), hb]
  simp [hh, ha, hd]

/-- The same for a writer that may write protected registers. -/
theorem accWrite_may {s : State} {acc : Accessor} {off o : Nat} {b : Block} {v : Word} (h4 : off % 4 = 0)
    (hb : blockOf off = some (b, o)) (hh : blockHas b o = true) (ha : s.regAnswers b o = true) (hm : s.mayWrite acc = true) :
    s.accWrite acc off v = s.blockWrite { acc := acc } b o v :=
  accWrite_eq h4 hb hh ha (writeDenied_of_mayWrite hm b o v)

end Sys2Proof.Machine
end

