-- ==== Sys2Proof/Laws/Cause.lean ====
section
/-! SUPPORT. What detecting an abort cause does to the tasks (04 R217 to R220). -/

namespace Sys2Proof.Machine

theorem Tab.get_of_find {α : Type} (d : α) {t : Tab α} {k : Nat} {v : α} (h : Tab.find t k = some v) : Tab.get d t k = v := by
  induction t with
  | nil => simp [Tab.find] at h
  | cons x t ih =>
    obtain ⟨a, w⟩ := x
    simp only [Tab.find, Tab.get] at h ⊢
    split at h
    · rename_i e; rw [if_pos e]; exact Option.some.inj h
    · rename_i e; rw [if_neg e]; exact ih h

theorem Tab.get_of_find_none {α : Type} (d : α) {t : Tab α} {k : Nat} (h : Tab.find t k = none) : Tab.get d t k = d := by
  induction t with
  | nil => rfl
  | cons x t ih =>
    obtain ⟨a, w⟩ := x
    simp only [Tab.find, Tab.get] at h ⊢
    split at h
    · simp at h
    · rename_i e; rw [if_neg e]; exact ih h

theorem Tab.find_mem {α : Type} {t : Tab α} {k : Nat} {v : α} (h : Tab.find t k = some v) : (k, v) ∈ t := by
  induction t with
  | nil => simp [Tab.find] at h
  | cons x t ih =>
    obtain ⟨a, w⟩ := x
    simp only [Tab.find] at h
    split at h
    · rename_i e; subst e; obtain rfl := Option.some.inj h; exact List.mem_cons_self
    · exact List.mem_cons_of_mem _ (ih h)

theorem updTask_task (s : State) (n m : BitVec 32) (f : TaskRt → TaskRt) :
    (s.updTask n f).task m = if m = n then f (s.task n) else s.task m := by
  unfold State.updTask State.task
  simp only [State.modTasks, Tab.get_upd]
  by_cases h : m = n
  · subst h; simp
  · have : m.toNat ≠ n.toNat := fun e => h (BitVec.eq_of_toNat_eq e)
    simp [h, this]

/-- A task with one more abort known stops at the better of it and the one before. -/
theorem abort_concat (t u : TaskRt) (a : AbortSt) (h : u.aborts = t.aborts ++ [a]) :
    u.abort = some (AbortSt.merge t.abort a) := by
  unfold TaskRt.abort
  rw [h, List.foldl_append]; rfl

/-- The tasks after a cause is found: only the task named changes, and only where it is known and neither committed nor
stopped. -/
theorem detect_task (s : State) (n m : BitVec 32) (st : Status) :
    (s.detect n st).task m =
      if m = n ∧ (Tab.find s.tasks n.toNat).isSome ∧ (s.task n).phase ≠ .committed ∧ (s.task n).phase ≠ .stopped then
        { s.task n with
          aborts := (s.task n).aborts ++ [⟨s.now + s.horizonOf (s.task n), s.fret.chip, st, s.now⟩]
          causes := if (s.task n).sent || (s.task n).recvd then (s.task n).causes else (s.task n).causes ++ [(s.now, st)]
          dead := (s.task n).dead ||
            (decide ((s.task n).phase = .waiting ∨ (s.task n).phase = .armed) || decide (s.now ≤ (s.task n).launch)) }
      else s.task m := by
  unfold State.detect
  cases h : Tab.find s.tasks n.toNat with
  | none => simp
  | some t =>
    have ht : s.task n = t := Tab.get_of_find ({} : TaskRt) h
    simp only [ht]
    by_cases hp : t.phase = .committed ∨ t.phase = .stopped
    · rw [if_pos hp, if_neg]; intro k; rcases hp with e | e
      · exact k.2.2.1 e
      · exact k.2.2.2 e
    · rw [if_neg hp]
      have hq : ∀ (u : State) (c : Bool) (d : State → List Word), (u.when c fun s => s.record .lateCause (d s)).task m = u.task m := by
        intro u c d
        have := (only_when (cs := [.chest]) (c := c) (f := fun s => s.record .lateCause (d s)) (.refl u _)
          (only_record (.refl u _) (by decide))).tasks
        simp only [State.task, this]
      rw [hq _ _ fun s => _, updTask_task]
      have h1 : t.phase ≠ .committed := fun e => hp (.inl e)
      have h2 : t.phase ≠ .stopped := fun e => hp (.inr e)
      by_cases e : m = n
      · simp [e, h1, h2, ht]
      · simp [e]

theorem detect_phase (s : State) (n m : BitVec 32) (st : Status) : ((s.detect n st).task m).phase = (s.task m).phase := by
  rw [detect_task]; split
  · rename_i h; rw [h.1]
  · rfl

theorem detect_abort_some (s : State) (n m : BitVec 32) (st : Status) (h : (s.task m).abort.isSome = true) :
    ((s.detect n st).task m).abort.isSome = true := by
  rw [detect_task]; split
  · rw [abort_concat (s.task n) _ _ rfl]; rfl
  · exact h

theorem detect_abort_self (s : State) (n : BitVec 32) (st : Status)
    (h : (s.task n).phase = .running ∨ (s.task n).phase = .ended) : ((s.detect n st).task n).abort.isSome = true := by
  have hf : (Tab.find s.tasks n.toNat).isSome = true := by
    cases e : Tab.find s.tasks n.toNat with
    | some _ => rfl
    | none =>
      have : s.task n = {} := Tab.get_of_find_none ({} : TaskRt) e
      rw [this] at h; rcases h with h | h <;> exact absurd h (by decide)
  have h1 : (s.task n).phase ≠ .committed := by rcases h with h | h <;> rw [h] <;> decide
  have h2 : (s.task n).phase ≠ .stopped := by rcases h with h | h <;> rw [h] <;> decide
  rw [detect_task, if_pos ⟨rfl, hf, h1, h2⟩, abort_concat (s.task n) _ _ rfl]
  rfl

theorem mem_running (s : State) (n : BitVec 32) (h : (s.task n).phase = .running ∨ (s.task n).phase = .ended) :
    n ∈ s.running := by
  cases e : Tab.find s.tasks n.toNat with
  | none =>
    have : s.task n = {} := Tab.get_of_find_none ({} : TaskRt) e
    rw [this] at h; rcases h with h | h <;> exact absurd h (by decide)
  | some t =>
    have ht : s.task n = t := Tab.get_of_find ({} : TaskRt) e
    rw [ht] at h
    unfold State.running
    rw [List.mem_map]
    exact ⟨(n.toNat, t), List.mem_filter.mpr ⟨Tab.find_mem e, by simpa using h⟩, by simp⟩

/-- A fold whose steps keep phases and aborts, and set an abort for the task each names. -/
theorem allAborted_each (f : State → BitVec 32 → State) (hp : ∀ u n m, ((f u n).task m).phase = (u.task m).phase)
    (ha : ∀ u n m, (u.task m).abort.isSome = true → ((f u n).task m).abort.isSome = true)
    (hs : ∀ u n, ((u.task n).phase = .running ∨ (u.task n).phase = .ended) → ((f u n).task n).abort.isSome = true)
    (xs : List (BitVec 32)) (u : State) :
    (∀ m, ((u.each xs f).task m).phase = (u.task m).phase) ∧
    (∀ m, (u.task m).abort.isSome = true → ((u.each xs f).task m).abort.isSome = true) ∧
    (∀ m ∈ xs, ((u.task m).phase = .running ∨ (u.task m).phase = .ended) →
      ((u.each xs f).task m).abort.isSome = true) := by
  unfold State.each
  induction xs generalizing u with
  | nil => exact ⟨fun _ => rfl, fun _ h => h, fun _ h => absurd h List.not_mem_nil⟩
  | cons x xs ih =>
    obtain ⟨i1, i2, i3⟩ := ih (f u x)
    refine ⟨fun m => (i1 m).trans (hp u x m), fun m h => i2 m (ha u x m h), fun m hm h => ?_⟩
    rcases List.mem_cons.mp hm with e | hm
    · subst e; exact i2 m (hs u m h)
    · exact i3 m hm (by rw [hp]; exact h)

theorem abortRunning_allAborted (s : State) (st : Status) : s.AllAborted (s.abortRunning st) := fun n h =>
  (allAborted_each (fun s n => s.detect n st) (fun u n m => detect_phase u n m st) (fun u n m => detect_abort_some u n m st)
    (fun u n => detect_abort_self u n st) s.running s).2.2 n (mem_running s n h) h

/-- Tasks are read from their table alone. -/
theorem task_congr {s t : State} (h : t.tasks = s.tasks) (n : BitVec 32) : t.task n = s.task n := by
  unfold State.task; rw [h]

theorem AllAborted_of {s u t : State} (h : u.tasks = s.tasks) (k : u.AllAborted t) : s.AllAborted t := fun n hn =>
  k n (by rw [task_congr h]; exact hn)

theorem slip_allAborted (s u : State) (hu : u.tasks = s.tasks) (k w : Nat) :
    s.AllAborted (u.each s.running fun s n => s.slip n k w) := by
  have ht : ∀ (u : State) n m, ((u.slip n k w).task m) = ((u.slipAt k w).detect n .slip).task m := fun _ _ _ => rfl
  have hs : ∀ (u : State) m, (u.slipAt k w).task m = u.task m := fun _ _ => rfl
  intro n hn
  refine (allAborted_each (fun s n => s.slip n k w) ?_ ?_ ?_ s.running u).2.2 n (mem_running s n hn) ?_
  · intro u n m; rw [ht, detect_phase, hs]
  · intro u n m h; rw [ht]; exact detect_abort_some _ _ _ _ (by rw [hs]; exact h)
  · intro u n h; rw [ht]; exact detect_abort_self _ _ _ (by rw [hs]; exact h)
  · rw [task_congr hu]; exact hn

end Sys2Proof.Machine
end

