-- ==== Sys2Proof/Laws/FrameExec.lean ====
section
/-! SUPPORT. Every command answers a next state, with its frame: the parts of the state it may change. -/

set_option linter.unusedTactic false
set_option linter.unreachableTactic false
set_option linter.unusedVariables false

namespace Sys2Proof.Machine

theorem execBeaconReceive_next (port : FabPort) (b : Beacon) (cycle : Cycles) (s : State) : State.NextOnly s (execBeaconReceive port b cycle s) [.top, .clk, .fret, .chest, .tasks, .out, .free] := by
  unfold execBeaconReceive
  repeat' first | with_reducible assumption | with_reducible exact .refl _ _ | with_reducible refine nextOnly_next ?_ | with_reducible refine nextOnly_ite ?_ ?_ | with_reducible refine only_ite ?_ ?_ | with_reducible refine only_modFret ?_ (by decide) | with_reducible refine only_judge ?_ (by decide) | split | dsimp only

theorem execBeaconSend_next (s : State) : State.NextOnly s (execBeaconSend s) [.out] := by
  unfold execBeaconSend
  repeat' first | with_reducible assumption | with_reducible exact .refl _ _ | with_reducible refine nextOnly_next ?_ | with_reducible refine nextOnly_ite ?_ ?_ | with_reducible refine only_ite ?_ ?_ | with_reducible refine only_each ?_ (fun _ _ _ => ?_) | with_reducible refine only_emit ?_ (by decide) | split | dsimp only

theorem execBeaconTimeout_next (s : State) : State.NextOnly s (execBeaconTimeout s) [.top, .fret, .chest, .out] := by
  unfold execBeaconTimeout
  repeat' first | with_reducible assumption | with_reducible exact .refl _ _ | with_reducible refine nextOnly_next ?_ | with_reducible refine nextOnly_ite ?_ ?_ | with_reducible refine only_ite ?_ ?_ | with_reducible refine only_modFret ?_ (by decide) | with_reducible refine only_fretFlag ?_ (by decide) | split | dsimp only

theorem execHoldoverTimeout_next (s : State) : State.NextOnly s (execHoldoverTimeout s) [.fret, .chest, .tasks] := by
  unfold execHoldoverTimeout
  repeat' first | with_reducible assumption | with_reducible exact .refl _ _ | with_reducible refine nextOnly_next ?_ | with_reducible refine nextOnly_ite ?_ ?_ | with_reducible refine only_ite ?_ ?_ | with_reducible refine only_modFret ?_ (by decide) | with_reducible refine only_abortRunning ?_ (by decide) | split | dsimp only

theorem execEpochFret_next (s : State) : State.NextOnly s (execEpochFret s) [.clk, .fret] := by
  unfold execEpochFret
  repeat' first | with_reducible assumption | with_reducible exact .refl _ _ | with_reducible refine nextOnly_next ?_ | with_reducible refine nextOnly_ite ?_ ?_ | with_reducible refine only_ite ?_ ?_ | with_reducible refine only_toMember ?_ (by decide) | split | dsimp only

theorem execPllLockLost_next (h : Half) (s : State) : State.NextOnly s (execPllLockLost h s) [.clk, .fret, .chest, .tasks] := by
  unfold execPllLockLost
  repeat' first | with_reducible assumption | with_reducible exact .refl _ _ | with_reducible refine nextOnly_next ?_ | with_reducible refine nextOnly_ite ?_ ?_ | with_reducible refine only_ite ?_ ?_ | with_reducible refine only_modClk ?_ (by decide) | with_reducible refine only_modFret ?_ (by decide) | with_reducible refine only_abortRunning ?_ (by decide) | split | dsimp only

theorem execPllRelock_next (west : BitVec 16) (east : BitVec 16) (s : State) : State.NextOnly s (execPllRelock west east s) [.clk, .fret] := by
  unfold execPllRelock
  repeat' first | with_reducible assumption | with_reducible exact .refl _ _ | with_reducible refine nextOnly_next ?_ | with_reducible refine nextOnly_ite ?_ ?_ | with_reducible refine only_ite ?_ ?_ | with_reducible refine only_modClk ?_ (by decide) | with_reducible refine only_modFret ?_ (by decide) | with_reducible refine only_toMember ?_ (by decide) | with_reducible refine only_toTrack ?_ (by decide) | split | dsimp only

theorem execSeamSplit_next (s : State) : State.NextOnly s (execSeamSplit s) [.top, .fret, .chest, .tasks, .out] := by
  unfold execSeamSplit
  repeat' first | with_reducible assumption | with_reducible exact .refl _ _ | with_reducible refine nextOnly_next ?_ | with_reducible refine nextOnly_ite ?_ ?_ | with_reducible refine only_ite ?_ ?_ | with_reducible refine only_each ?_ (fun _ _ _ => ?_) | with_reducible refine only_modFret ?_ (by decide) | with_reducible refine only_fretFlag ?_ (by decide) | with_reducible refine only_slip ?_ (by decide) | split | dsimp only

theorem execSeamResync_next (s : State) : State.NextOnly s (execSeamResync s) [.clk, .fret] := by
  unfold execSeamResync
  repeat' first | with_reducible assumption | with_reducible exact .refl _ _ | with_reducible refine nextOnly_next ?_ | with_reducible refine nextOnly_ite ?_ ?_ | with_reducible refine only_ite ?_ ?_ | with_reducible refine only_modFret ?_ (by decide) | with_reducible refine only_toMember ?_ (by decide) | split | dsimp only

theorem execFlightMeasureDone_next (port : FabPort) (xs : List Exchange) (s : State) : State.NextOnly s (execFlightMeasureDone port xs s) [.fret] := by
  unfold execFlightMeasureDone
  repeat' first | with_reducible assumption | with_reducible exact .refl _ _ | with_reducible refine nextOnly_next ?_ | with_reducible refine nextOnly_ite ?_ ?_ | with_reducible refine only_ite ?_ ?_ | with_reducible refine only_endMeasure ?_ (by decide) | with_reducible refine only_loadFlight ?_ (by decide) | split | dsimp only

theorem execStretchRequestReceive_next (chip : BitVec 10) (req : BitVec 6) (s : State) : State.NextOnly s (execStretchRequestReceive chip req s) [.fret, .out] := by
  unfold execStretchRequestReceive
  repeat' first | with_reducible assumption | with_reducible exact .refl _ _ | with_reducible refine nextOnly_next ?_ | with_reducible refine nextOnly_ite ?_ ?_ | with_reducible refine only_ite ?_ ?_ | with_reducible refine only_sendRequest ?_ (by decide) | split | dsimp only

theorem execStretchAnnounce_next (eff : U64) (s : State) : State.NextOnly s (execStretchAnnounce eff s) [.fret, .out] := by
  unfold execStretchAnnounce
  repeat' first | with_reducible assumption | with_reducible exact .refl _ _ | with_reducible refine nextOnly_next ?_ | with_reducible refine nextOnly_ite ?_ ?_ | with_reducible refine only_ite ?_ ?_ | with_reducible refine only_modFret ?_ (by decide) | with_reducible refine only_forwardAnnounce ?_ (by decide) | split | dsimp only

theorem execStretchAnnounceReceive_next (a : Announce) (s : State) : State.NextOnly s (execStretchAnnounceReceive a s) [.top, .clk, .fret, .chest, .tasks, .out] := by
  unfold execStretchAnnounceReceive
  repeat' first | with_reducible assumption | with_reducible exact .refl _ _ | with_reducible refine nextOnly_next ?_ | with_reducible refine nextOnly_ite ?_ ?_ | with_reducible refine only_ite ?_ ?_ | with_reducible refine only_when ?_ ?_ | with_reducible refine only_modClk ?_ (by decide) | with_reducible refine only_modFret ?_ (by decide) | with_reducible refine only_fretFlag ?_ (by decide) | with_reducible refine only_loseAlign ?_ (by decide) | with_reducible refine only_forwardAnnounce ?_ (by decide) | split | dsimp only

theorem execStretchApply_next (s : State) : State.NextOnly s (execStretchApply s) [.fret, .tel] := by
  unfold execStretchApply
  repeat' first | with_reducible assumption | with_reducible exact .refl _ _ | with_reducible refine nextOnly_next ?_ | with_reducible refine nextOnly_ite ?_ ?_ | with_reducible refine only_ite ?_ ?_ | with_reducible refine only_modFret ?_ (by decide) | with_reducible refine only_modTel ?_ (by decide) | with_reducible refine only_stretchReport ?_ (by decide) | split | dsimp only

theorem execClockChangeFret_next (s : State) : State.NextOnly s (execClockChangeFret s) [.clk, .fret] := by
  unfold execClockChangeFret
  repeat' first | with_reducible assumption | with_reducible exact .refl _ _ | with_reducible refine nextOnly_next ?_ | with_reducible refine nextOnly_ite ?_ ?_ | with_reducible refine only_ite ?_ ?_ | with_reducible refine only_modClk ?_ (by decide) | with_reducible refine only_modFret ?_ (by decide) | split | dsimp only

theorem execAbortMessageReceive_next (src : FabPort) (m : AbortMsg) (s : State) : State.NextOnly s (execAbortMessageReceive src m s) [.top, .fret, .chest, .tasks, .out] := by
  unfold execAbortMessageReceive
  repeat' first | with_reducible assumption | with_reducible exact .refl _ _ | with_reducible refine nextOnly_next ?_ | with_reducible refine nextOnly_ite ?_ ?_ | with_reducible refine only_ite ?_ ?_ | with_reducible refine only_when ?_ ?_ | with_reducible refine only_each ?_ (fun _ _ _ => ?_) | with_reducible refine only_updTask ?_ (by decide) | with_reducible refine only_emit ?_ (by decide) | with_reducible refine only_record ?_ (by decide) | with_reducible refine only_fretFlag ?_ (by decide) | with_reducible refine only_keepEarly ?_ (by decide) | split | dsimp only

theorem execMessageSend_next (c : ConnN) (kind : BitVec 3) (endpoint : BitVec 14) (body : List Byte) (s : State) : State.NextOnly s (execMessageSend c kind endpoint body s) [.mch, .out] := by
  unfold execMessageSend
  repeat' first | with_reducible assumption | with_reducible exact .refl _ _ | with_reducible refine nextOnly_next ?_ | with_reducible refine nextOnly_ite ?_ ?_ | with_reducible refine only_ite ?_ ?_ | with_reducible refine only_refuse ?_ (by decide) | with_reducible refine only_sendOn ?_ (by decide) | split | dsimp only

theorem execOpenAckReceive_next (r : OpenAck) (s : State) : State.NextOnly s (execOpenAckReceive r s) [.top, .mch, .pcie, .out] := by
  unfold execOpenAckReceive
  repeat' first | with_reducible assumption | with_reducible exact .refl _ _ | with_reducible refine nextOnly_next ?_ | with_reducible refine nextOnly_ite ?_ ?_ | with_reducible refine only_ite ?_ ?_ | with_reducible refine only_updConn ?_ (by decide) | with_reducible refine only_emit ?_ (by decide) | with_reducible refine only_notice ?_ (by decide) | with_reducible refine only_flush ?_ (by decide) | with_reducible refine only_refuseWaiting ?_ (by decide) | split | dsimp only

theorem execOpenTimeout_next (c : ConnN) (s : State) : State.NextOnly s (execOpenTimeout c s) [.top, .mch, .pcie, .out] := by
  unfold execOpenTimeout
  repeat' first | with_reducible assumption | with_reducible exact .refl _ _ | with_reducible refine nextOnly_next ?_ | with_reducible refine nextOnly_ite ?_ ?_ | with_reducible refine only_ite ?_ ?_ | with_reducible refine only_updConn ?_ (by decide) | with_reducible refine only_notice ?_ (by decide) | with_reducible refine only_refuseWaiting ?_ (by decide) | split | dsimp only

theorem execMsgCreditReturnReceive_next (c : ConnN) (serial : BitVec 8) (total : BitVec 32) (s : State) : State.NextOnly s (execMsgCreditReturnReceive c serial total s) [.top, .mch, .pcie, .out] := by
  unfold execMsgCreditReturnReceive
  repeat' first | with_reducible assumption | with_reducible exact .refl _ _ | with_reducible refine nextOnly_next ?_ | with_reducible refine nextOnly_ite ?_ ?_ | with_reducible refine only_ite ?_ ?_ | with_reducible refine only_when ?_ ?_ | with_reducible refine only_updConn ?_ (by decide) | with_reducible refine only_notice ?_ (by decide) | with_reducible refine only_flush ?_ (by decide) | split | dsimp only

theorem execNakNoticeReceive_next (m : NakNotice) (s : State) : State.NextOnly s (execNakNoticeReceive m s) [.top, .mch, .pcie, .out] := by
  unfold execNakNoticeReceive
  repeat' first | with_reducible assumption | with_reducible exact .refl _ _ | with_reducible refine nextOnly_next ?_ | with_reducible refine nextOnly_ite ?_ ?_ | with_reducible refine only_ite ?_ ?_ | with_reducible refine only_when ?_ ?_ | with_reducible refine only_updConn ?_ (by decide) | with_reducible refine only_notice ?_ (by decide) | with_reducible refine only_flush ?_ (by decide) | with_reducible refine only_refuseWaiting ?_ (by decide) | with_reducible refine only_peerGone ?_ (by decide) | split | dsimp only

theorem execStaleNoticeReceive_next (c : ConnN) (serial : BitVec 8) (s : State) : State.NextOnly s (execStaleNoticeReceive c serial s) [.top, .mch, .pcie, .out] := by
  unfold execStaleNoticeReceive
  repeat' first | with_reducible assumption | with_reducible exact .refl _ _ | with_reducible refine nextOnly_next ?_ | with_reducible refine nextOnly_ite ?_ ?_ | with_reducible refine only_ite ?_ ?_ | with_reducible refine only_notice ?_ (by decide) | with_reducible refine only_peerGone ?_ (by decide) | split | dsimp only

theorem execCloseAckReceive_next (c : ConnN) (serial : BitVec 8) (s : State) : State.NextOnly s (execCloseAckReceive c serial s) [.top, .mch, .pcie, .out] := by
  unfold execCloseAckReceive
  repeat' first | with_reducible assumption | with_reducible exact .refl _ _ | with_reducible refine nextOnly_next ?_ | with_reducible refine nextOnly_ite ?_ ?_ | with_reducible refine only_ite ?_ ?_ | with_reducible refine only_updConn ?_ (by decide) | with_reducible refine only_notice ?_ (by decide) | split | dsimp only

theorem execCloseMarkerResend_next (c : ConnN) (s : State) : State.NextOnly s (execCloseMarkerResend c s) [.top, .mch, .pcie, .out] := by
  unfold execCloseMarkerResend
  repeat' first | with_reducible assumption | with_reducible exact .refl _ _ | with_reducible refine nextOnly_next ?_ | with_reducible refine nextOnly_ite ?_ ?_ | with_reducible refine only_ite ?_ ?_ | with_reducible refine only_updConn ?_ (by decide) | with_reducible refine only_emit ?_ (by decide) | with_reducible refine only_notice ?_ (by decide) | split | dsimp only

theorem execOpenReceive_next (r : OpenReq) (s : State) : State.NextOnly s (execOpenReceive r s) [.mch, .out] := by
  unfold execOpenReceive
  repeat' first | with_reducible assumption | with_reducible exact .refl _ _ | with_reducible refine nextOnly_next ?_ | with_reducible refine nextOnly_ite ?_ ?_ | with_reducible refine only_ite ?_ ?_ | with_reducible refine only_updQueue ?_ (by decide) | with_reducible refine only_setInb ?_ (by decide) | with_reducible refine only_emit ?_ (by decide) | with_reducible refine only_countStale ?_ (by decide) | with_reducible refine only_dropInb ?_ (by decide) | split | dsimp only

theorem execMessageArrive_next (m : Msg) (s : State) : State.NextOnly s (execMessageArrive m s) [.top, .rel, .chest, .mch, .hbm, .parts, .out] := by
  unfold execMessageArrive
  repeat' first | with_reducible assumption | with_reducible exact .refl _ _ | with_reducible refine nextOnly_next ?_ | with_reducible refine nextOnly_ite ?_ ?_ | with_reducible refine only_ite ?_ ?_ | with_reducible refine only_modMch ?_ (by decide) | with_reducible refine only_takeMsg ?_ (by decide) | split | dsimp only

theorem execCreditReturnSend_next (n : Nat) (cut : Bool) (s : State) : State.NextOnly s (execCreditReturnSend n cut s) [.mch, .out] := by
  unfold execCreditReturnSend
  repeat' first | with_reducible assumption | with_reducible exact .refl _ _ | with_reducible refine nextOnly_next ?_ | with_reducible refine nextOnly_ite ?_ ?_ | with_reducible refine only_ite ?_ ?_ | with_reducible refine only_setInb ?_ (by decide) | with_reducible refine only_emit ?_ (by decide) | split | dsimp only

theorem execCreditReturnResend_next (n : Nat) (cut : Bool) (s : State) : State.NextOnly s (execCreditReturnResend n cut s) [.mch, .out] := by
  unfold execCreditReturnResend
  repeat' first | with_reducible assumption | with_reducible exact .refl _ _ | with_reducible refine nextOnly_next ?_ | with_reducible refine nextOnly_ite ?_ ?_ | with_reducible refine only_ite ?_ ?_ | with_reducible refine only_setInb ?_ (by decide) | with_reducible refine only_emit ?_ (by decide) | split | dsimp only

theorem execCloseMarkerReceive_next (srcChip : BitVec 10) (conn : BitVec 12) (serial : BitVec 8) (_q : QueueN) (s : State) : State.NextOnly s (execCloseMarkerReceive srcChip conn serial _q s) [.mch, .out] := by
  unfold execCloseMarkerReceive
  repeat' first | with_reducible assumption | with_reducible exact .refl _ _ | with_reducible refine nextOnly_next ?_ | with_reducible refine nextOnly_ite ?_ ?_ | with_reducible refine only_ite ?_ ?_ | with_reducible refine only_emit ?_ (by decide) | with_reducible refine only_dropInb ?_ (by decide) | split | dsimp only

theorem execChordSumRelease_next (q : QueueN) (s : State) : State.NextOnly s (execChordSumRelease q s) [.mch, .out] := by
  unfold execChordSumRelease
  repeat' first | with_reducible assumption | with_reducible exact .refl _ _ | with_reducible refine nextOnly_next ?_ | with_reducible refine nextOnly_ite ?_ ?_ | with_reducible refine only_ite ?_ ?_ | with_reducible refine only_updQueue ?_ (by decide) | with_reducible refine only_setInb ?_ (by decide) | with_reducible refine only_sendOn ?_ (by decide) | split | dsimp only

theorem execRecordConsume_next (q : QueueN) (s : State) : State.NextOnly s (execRecordConsume q s) [.mch] := by
  unfold execRecordConsume
  repeat' first | with_reducible assumption | with_reducible exact .refl _ _ | with_reducible refine nextOnly_next ?_ | with_reducible refine nextOnly_ite ?_ ?_ | with_reducible refine only_ite ?_ ?_ | with_reducible refine only_each ?_ (fun _ _ _ => ?_) | with_reducible refine only_updQueue ?_ (by decide) | with_reducible refine only_consumeHead ?_ (by decide) | split | dsimp only

theorem execVerifyResultSend_next (s : State) : State.NextOnly s (execVerifyResultSend s) [.mch, .sess, .out] := by
  unfold execVerifyResultSend
  repeat' first | with_reducible assumption | with_reducible exact .refl _ _ | with_reducible refine nextOnly_next ?_ | with_reducible refine nextOnly_ite ?_ ?_ | with_reducible refine only_ite ?_ ?_ | with_reducible refine only_modSess ?_ (by decide) | with_reducible refine only_transmit ?_ (by decide) | with_reducible refine only_refuse ?_ (by decide) | with_reducible refine only_flush ?_ (by decide) | with_reducible refine only_sessSend ?_ (by decide) | split | dsimp only

theorem execRetireStart_next (cause : BitVec 4) (s : State) : State.NextOnly s (execRetireStart cause s) [.flash, .top, .bist, .healx, .relx, .chest, .out] := by
  unfold execRetireStart
  repeat' first | with_reducible assumption | with_reducible exact .refl _ _ | with_reducible refine nextOnly_next ?_ | with_reducible refine nextOnly_ite ?_ ?_ | with_reducible refine only_ite ?_ ?_ | with_reducible refine only_retireCause ?_ (by decide) | split | dsimp only

theorem execRetireComplete_next (s : State) : State.NextOnly s (execRetireComplete s) [.flash, .top, .relx, .chest, .mch, .out] := by
  unfold execRetireComplete
  repeat' first | with_reducible assumption | with_reducible exact .refl _ _ | with_reducible refine nextOnly_next ?_ | with_reducible refine nextOnly_ite ?_ ?_ | with_reducible refine only_ite ?_ ?_ | with_reducible refine only_when ?_ ?_ | with_reducible refine only_mcSend ?_ (by decide) | with_reducible refine only_copyRequest ?_ (by decide) | with_reducible refine only_setRetireFlag ?_ (by decide) | with_reducible refine only_retired ?_ (by decide) | split | dsimp only

theorem execParityCountDecay_next (unit : Nat) (s : State) : State.NextOnly s (execParityCountDecay unit s) [.relx] := by
  unfold execParityCountDecay
  repeat' first | with_reducible assumption | with_reducible exact .refl _ _ | with_reducible refine nextOnly_next ?_ | with_reducible refine nextOnly_ite ?_ ?_ | with_reducible refine only_ite ?_ ?_ | with_reducible refine only_clearTransit ?_ (by decide) | split | dsimp only

theorem execStreamActivate_next (c : Clus) (x : Ctx) (s : State) : State.NextOnly s (execStreamActivate c x s) [.ctxs, .tasks] := by
  unfold execStreamActivate
  repeat' first | with_reducible assumption | with_reducible exact .refl _ _ | with_reducible refine nextOnly_next ?_ | with_reducible refine nextOnly_ite ?_ ?_ | with_reducible refine only_ite ?_ ?_ | with_reducible refine only_updCtx ?_ (by decide) | with_reducible refine only_updTask ?_ (by decide) | with_reducible refine only_failArm ?_ (by decide) | with_reducible refine only_latchSides ?_ (by decide) | split | dsimp only

theorem execDrawerIssue_next (c : Clus) (x : Ctx) (s : State) : State.NextOnly s (execDrawerIssue c x s) [.chest, .tel, .sess, .hbm, .parts, .cluss, .tiles, .ctxs, .tasks, .out, .free] := by
  unfold execDrawerIssue
  repeat' first | with_reducible assumption | with_reducible exact .refl _ _ | with_reducible refine nextOnly_next ?_ | with_reducible refine nextOnly_ite ?_ ?_ | with_reducible refine only_ite ?_ ?_ | with_reducible refine only_each ?_ (fun _ _ _ => ?_) | with_reducible refine only_issue ?_ (by decide) | with_reducible refine only_openDrawer ?_ (by decide) | with_reducible refine only_issueGather ?_ (by decide) | with_reducible refine only_issueKv ?_ (by decide) | split | dsimp only

theorem execReadDrawerDue_next (c : Clus) (x : Ctx) (s : State) : State.NextOnly s (execReadDrawerDue c x s) [.chest, .tel, .ctxs, .tasks] := by
  unfold execReadDrawerDue
  repeat' first | with_reducible assumption | with_reducible exact .refl _ _ | with_reducible refine nextOnly_next ?_ | with_reducible refine nextOnly_ite ?_ ?_ | with_reducible refine only_ite ?_ ?_ | with_reducible refine only_updCtx ?_ (by decide) | with_reducible refine only_underrun ?_ (by decide) | split | dsimp only

theorem execWriteDrawerFillCheck_next (c : Clus) (x : CtxRead) (s : State) : State.NextOnly s (execWriteDrawerFillCheck c x s) parts1 := by
  unfold execWriteDrawerFillCheck
  repeat' first | with_reducible assumption | with_reducible exact .refl _ _ | with_reducible refine nextOnly_next ?_ | with_reducible refine nextOnly_ite ?_ ?_ | with_reducible refine only_ite ?_ ?_ | with_reducible refine only_updCtx ?_ (by decide) | with_reducible refine only_detect ?_ (by decide) | with_reducible refine only_tileFaults ?_ (by decide) | with_reducible refine only_issueWrite ?_ (by decide) | split | dsimp only

theorem execWriteDrawerDeadline_next (c : Clus) (x : Ctx) (s : State) : State.NextOnly s (execWriteDrawerDeadline c x s) [.chest, .tel, .ctxs, .tasks] := by
  unfold execWriteDrawerDeadline
  repeat' first | with_reducible assumption | with_reducible exact .refl _ _ | with_reducible refine nextOnly_next ?_ | with_reducible refine nextOnly_ite ?_ ?_ | with_reducible refine only_ite ?_ ?_ | with_reducible refine only_underrun ?_ (by decide) | split | dsimp only

theorem execStreamRetire_next (c : Clus) (x : Ctx) (s : State) : State.NextOnly s (execStreamRetire c x s) [.cluss, .ctxs, .tasks] := by
  unfold execStreamRetire
  repeat' first | with_reducible assumption | with_reducible exact .refl _ _ | with_reducible refine nextOnly_next ?_ | with_reducible refine nextOnly_ite ?_ ?_ | with_reducible refine only_ite ?_ ?_ | with_reducible refine only_updCtx ?_ (by decide) | with_reducible refine only_ctxIdle ?_ (by decide) | split | dsimp only

theorem execStreamQuiesceDone_next (c : Clus) (x : Ctx) (s : State) : State.NextOnly s (execStreamQuiesceDone c x s) [.cluss, .ctxs, .tasks] := by
  unfold execStreamQuiesceDone
  repeat' first | with_reducible assumption | with_reducible exact .refl _ _ | with_reducible refine nextOnly_next ?_ | with_reducible refine nextOnly_ite ?_ ?_ | with_reducible refine only_ite ?_ ?_ | with_reducible refine only_ctxIdle ?_ (by decide) | split | dsimp only

theorem execConfigWrite_next (lt : Lt) (task : BitVec 32) (cfg : TileCfg) (s : State) : State.NextOnly s (execConfigWrite lt task cfg s) [.heal, .tiles] := by
  unfold execConfigWrite
  repeat' first | with_reducible assumption | with_reducible exact .refl _ _ | with_reducible refine nextOnly_next ?_ | with_reducible refine nextOnly_ite ?_ ?_ | with_reducible refine only_ite ?_ ?_ | with_reducible refine only_updTile ?_ (by decide) | with_reducible refine only_absorb ?_ (by decide) | split | dsimp only

theorem execArm_next (lt : Lt) (m : ArmMsg) (s : State) : State.NextOnly s (execArm lt m s) [.top, .fret, .heal, .chest, .cluss, .tiles, .ctxs, .tasks, .out] := by
  unfold execArm
  repeat' first | with_reducible assumption | with_reducible exact .refl _ _ | with_reducible refine nextOnly_next ?_ | with_reducible refine nextOnly_ite ?_ ?_ | with_reducible refine only_ite ?_ ?_ | with_reducible refine only_when ?_ ?_ | with_reducible refine only_each ?_ (fun _ _ _ => ?_) | with_reducible refine only_updTask ?_ (by decide) | with_reducible refine only_fretFlag ?_ (by decide) | with_reducible refine only_slip ?_ (by decide) | with_reducible refine only_armCtx ?_ (by decide) | with_reducible refine only_absorb ?_ (by decide) | with_reducible refine only_armTile ?_ (by decide) | split | dsimp only

theorem execArmDeadline_next (task : BitVec 32) (s : State) : State.NextOnly s (execArmDeadline task s) [.tasks] := by
  unfold execArmDeadline
  repeat' first | with_reducible assumption | with_reducible exact .refl _ _ | with_reducible refine nextOnly_next ?_ | with_reducible refine nextOnly_ite ?_ ?_ | with_reducible refine only_ite ?_ ?_ | with_reducible refine only_updTask ?_ (by decide) | split | dsimp only

theorem execTaskLaunch_next (task : BitVec 32) (s : State) : State.NextOnly s (execTaskLaunch task s) [.top, .fret, .rel, .chest, .tiles, .tasks, .out] := by
  unfold execTaskLaunch
  repeat' first | with_reducible assumption | with_reducible exact .refl _ _ | with_reducible refine nextOnly_next ?_ | with_reducible refine nextOnly_ite ?_ ?_ | with_reducible refine only_ite ?_ ?_ | with_reducible refine only_when ?_ ?_ | with_reducible refine only_each ?_ (fun _ _ _ => ?_) | with_reducible refine only_modRel ?_ (by decide) | with_reducible refine only_updTile ?_ (by decide) | with_reducible refine only_updTask ?_ (by decide) | with_reducible refine only_attn ?_ (by decide) | with_reducible refine only_detect ?_ (by decide) | with_reducible refine only_slip ?_ (by decide) | with_reducible refine only_variantRecord ?_ (by decide) | with_reducible refine only_disarm ?_ (by decide) | split | dsimp only

theorem execFoldSwitch_next (lt : Lt) (s : State) : State.NextOnly s (execFoldSwitch lt s) [.tiles] := by
  unfold execFoldSwitch
  repeat' first | with_reducible assumption | with_reducible exact .refl _ _ | with_reducible refine nextOnly_next ?_ | with_reducible refine nextOnly_ite ?_ ?_ | with_reducible refine only_ite ?_ ?_ | with_reducible refine only_foldl ?_ (fun _ _ _ => ?_) | with_reducible refine only_foldl2 ?_ (fun _ _ _ => ?_) | with_reducible refine only_updTile ?_ (by decide) | split | dsimp only

theorem execEdgeCreditReturn_next (lt : Lt) (fold : Nat) (port : Nat) (n : Nat) (s : State) : State.NextOnly s (execEdgeCreditReturn lt fold port n s) [.heal, .chest, .tiles, .tasks] := by
  unfold execEdgeCreditReturn
  repeat' first | with_reducible assumption | with_reducible exact .refl _ _ | with_reducible refine nextOnly_next ?_ | with_reducible refine nextOnly_ite ?_ ?_ | with_reducible refine only_ite ?_ ?_ | with_reducible refine only_detect ?_ (by decide) | with_reducible refine only_updRt ?_ (by decide) | with_reducible refine only_absorb ?_ (by decide) | split | dsimp only

theorem execFiring_next (lt : Lt) (obs : List TileFault) (s : State) : State.NextOnly s (execFiring lt obs s) parts2 := by
  unfold execFiring
  repeat' first | with_reducible assumption | with_reducible exact .refl _ _ | with_reducible refine nextOnly_next ?_ | with_reducible refine nextOnly_ite ?_ ?_ | with_reducible refine only_ite ?_ ?_ | with_reducible refine only_detect ?_ (by decide) | with_reducible refine only_updRt ?_ (by decide) | with_reducible refine only_tileFaults ?_ (by decide) | with_reducible refine only_takeInputs ?_ (by decide) | with_reducible refine only_runFold ?_ (by decide) | split | dsimp only

theorem execSramCorrectedWriteback_next (pt : Pt) (word : Nat) (s : State) : State.NextOnly s (execSramCorrectedWriteback pt word s) [.tiles] := by
  unfold execSramCorrectedWriteback
  repeat' first | with_reducible assumption | with_reducible exact .refl _ _ | with_reducible refine nextOnly_next ?_ | with_reducible refine nextOnly_ite ?_ ?_ | with_reducible refine only_ite ?_ ?_ | with_reducible refine only_updTile ?_ (by decide) | split | dsimp only

theorem execTileSramZeroed_next (pt : Pt) (s : State) : State.NextOnly s (execTileSramZeroed pt s) [.tiles] := by
  unfold execTileSramZeroed
  repeat' first | with_reducible assumption | with_reducible exact .refl _ _ | with_reducible refine nextOnly_next ?_ | with_reducible refine nextOnly_ite ?_ ?_ | with_reducible refine only_ite ?_ ?_ | with_reducible refine only_updTile ?_ (by decide) | split | dsimp only

theorem execSteerTokenArrive_next (lt : Lt) (fold : Nat) (unit : Nat) (s : State) : State.NextOnly s (execSteerTokenArrive lt fold unit s) [.chest, .mch, .tiles, .tasks] := by
  unfold execSteerTokenArrive
  repeat' first | with_reducible assumption | with_reducible exact .refl _ _ | with_reducible refine nextOnly_next ?_ | with_reducible refine nextOnly_ite ?_ ?_ | with_reducible refine only_ite ?_ ?_ | with_reducible refine only_each ?_ (fun _ _ _ => ?_) | with_reducible refine only_takeMessage (by assumption) ?_ (by decide) | with_reducible refine only_addToken ?_ (by decide) | split | dsimp only

theorem execSteerEmit_next (lt : Lt) (fold : Nat) (x : SteerRead) (s : State) : State.NextOnly s (execSteerEmit lt fold x s) [.flash, .top, .fret, .bist, .heal, .healx, .rel, .relx, .chest, .spn, .fabs, .tiles, .tasks, .held, .out] := by
  unfold execSteerEmit
  repeat' first | with_reducible assumption | with_reducible exact .refl _ _ | with_reducible refine nextOnly_next ?_ | with_reducible refine nextOnly_ite ?_ ?_ | with_reducible refine only_ite ?_ ?_ | with_reducible refine only_when ?_ ?_ | with_reducible refine only_each ?_ (fun _ _ _ => ?_) | with_reducible refine only_dropWords ?_ (by decide) | with_reducible refine only_tileFaults ?_ (by decide) | with_reducible refine only_sendPort ?_ (by decide) | with_reducible refine only_updSteer ?_ (by decide) | split | dsimp only

theorem execSteerGroupLate_next (lt : Lt) (fold : Nat) (unit : Nat) (s : State) : State.NextOnly s (execSteerGroupLate lt fold unit s) [.chest, .tasks] := by
  unfold execSteerGroupLate
  repeat' first | with_reducible assumption | with_reducible exact .refl _ _ | with_reducible refine nextOnly_next ?_ | with_reducible refine nextOnly_ite ?_ ?_ | with_reducible refine only_ite ?_ ?_ | with_reducible refine only_detect ?_ (by decide) | split | dsimp only

theorem execSteerTokenTimeout_next (lt : Lt) (fold : Nat) (unit : Nat) (s : State) : State.NextOnly s (execSteerTokenTimeout lt fold unit s) [.chest, .tasks] := by
  unfold execSteerTokenTimeout
  repeat' first | with_reducible assumption | with_reducible exact .refl _ _ | with_reducible refine nextOnly_next ?_ | with_reducible refine nextOnly_ite ?_ ?_ | with_reducible refine only_ite ?_ ?_ | with_reducible refine only_detect ?_ (by decide) | split | dsimp only

theorem execSteerGroupTimeout_next (lt : Lt) (fold : Nat) (unit : Nat) (s : State) : State.NextOnly s (execSteerGroupTimeout lt fold unit s) [.chest, .tasks] := by
  unfold execSteerGroupTimeout
  repeat' first | with_reducible assumption | with_reducible exact .refl _ _ | with_reducible refine nextOnly_next ?_ | with_reducible refine nextOnly_ite ?_ ?_ | with_reducible refine only_ite ?_ ?_ | with_reducible refine only_detect ?_ (by decide) | split | dsimp only

theorem execTaskEndCheck_next (task : BitVec 32) (s : State) : State.NextOnly s (execTaskEndCheck task s) [.chest, .tiles, .tasks] := by
  unfold execTaskEndCheck
  repeat' first | with_reducible assumption | with_reducible exact .refl _ _ | with_reducible refine nextOnly_next ?_ | with_reducible refine nextOnly_ite ?_ ?_ | with_reducible refine only_ite ?_ ?_ | with_reducible refine only_when ?_ ?_ | with_reducible refine only_each ?_ (fun _ _ _ => ?_) | with_reducible refine only_updTile ?_ (by decide) | with_reducible refine only_updTask ?_ (by decide) | with_reducible refine only_detect ?_ (by decide) | split | dsimp only

theorem execCreditCheckFret_next (lt : Lt) (fold : Nat) (port : Nat) (s : State) : State.NextOnly s (execCreditCheckFret lt fold port s) [.chest, .tasks] := by
  unfold execCreditCheckFret
  repeat' first | with_reducible assumption | with_reducible exact .refl _ _ | with_reducible refine nextOnly_next ?_ | with_reducible refine nextOnly_ite ?_ ?_ | with_reducible refine only_ite ?_ ?_ | with_reducible refine only_detect ?_ (by decide) | split | dsimp only

theorem execQueueSample_next (s : State) : State.NextOnly s (execQueueSample s) [.tiles] := by
  unfold execQueueSample
  repeat' first | with_reducible assumption | with_reducible exact .refl _ _ | with_reducible refine nextOnly_next ?_ | with_reducible refine nextOnly_ite ?_ ?_ | with_reducible refine only_ite ?_ ?_ | with_reducible refine only_modTiles ?_ (by decide) | split | dsimp only

theorem execReleaseQueueArrive_next (rp : ReleasePoint) (w : Worm) (n : Arrival) (last : Bool) (s : State) : State.NextOnly s (execReleaseQueueArrive rp w n last s) parts3 := by
  unfold execReleaseQueueArrive
  repeat' first | with_reducible assumption | with_reducible exact .refl _ _ | with_reducible refine nextOnly_next ?_ | with_reducible refine nextOnly_ite ?_ ?_ | with_reducible refine only_ite ?_ ?_ | with_reducible refine only_when ?_ ?_ | with_reducible refine only_countRx ?_ (by decide) | with_reducible refine only_countTransit ?_ (by decide) | with_reducible refine only_releaseArrive ?_ (by decide) | split | dsimp only

theorem execWormLate_next (rp : ReleasePoint) (w : Worm) (s : State) : State.NextOnly s (execWormLate rp w s) [.fret, .chest, .tasks, .held] := by
  unfold execWormLate
  repeat' first | with_reducible assumption | with_reducible exact .refl _ _ | with_reducible refine nextOnly_next ?_ | with_reducible refine nextOnly_ite ?_ ?_ | with_reducible refine only_ite ?_ ?_ | with_reducible refine only_slip ?_ (by decide) | with_reducible refine only_discardRest ?_ (by decide) | split | dsimp only

theorem tileRelease_next (s : State) (lt : Nat) (w : Worm) : State.NextOnly s (State.tileRelease s lt w) [.heal, .chest, .tiles, .tasks] := by
  unfold State.tileRelease
  repeat' first | with_reducible assumption | with_reducible exact .refl _ _ | with_reducible refine nextOnly_next ?_ | with_reducible refine nextOnly_ite ?_ ?_ | with_reducible refine only_ite ?_ ?_ | with_reducible refine only_absorb ?_ (by decide) | with_reducible refine nextOnly_trans ?_ (execEdgeCreditReturn_next _ _ _ _ _) (by decide) | with_reducible refine only_enterWords ?_ (by decide) | split | dsimp only

theorem execWormRelease_next (rp : ReleasePoint) (n : Nat) (s : State) : State.NextOnly s (execWormRelease rp n s) [.heal, .rel, .chest, .spn, .fabs, .tiles, .tasks, .held, .out] := by
  unfold execWormRelease
  repeat' first | with_reducible assumption | with_reducible exact .refl _ _ | with_reducible refine nextOnly_next ?_ | with_reducible refine nextOnly_ite ?_ ?_ | with_reducible refine only_ite ?_ ?_ | with_reducible refine only_headIn ?_ (by decide) | with_reducible refine only_countDrop ?_ (by decide) | with_reducible refine only_updHeld ?_ (by decide) | with_reducible refine nextOnly_trans ?_ (tileRelease_next _ _ _) (by decide) | split | dsimp only

theorem execFretStart_next (west : Bool) (east : Bool) (s : State) : State.NextOnly s (execFretStart west east s) [.top, .fret, .rel, .chest, .tel, .mch, .sess, .hbm, .parts, .tiles, .tasks, .out, .ticks, .free] := by
  unfold execFretStart
  repeat' first | with_reducible assumption | with_reducible exact .refl _ _ | with_reducible refine nextOnly_next ?_ | with_reducible refine nextOnly_ite ?_ ?_ | with_reducible refine only_ite ?_ ?_ | with_reducible refine only_when ?_ ?_ | with_reducible refine only_modFret ?_ (by decide) | with_reducible refine only_sendAborts ?_ (by decide) | with_reducible refine only_sessFret ?_ (by decide) | with_reducible refine only_newFret ?_ (by decide) | split | dsimp only

theorem execHbmRequestStart_next (p : Part) (pc : Fin 32) (cycle : Nat) (hits : List Nat) (refreshDue : Bool) (seen : SectorsSeen) (s : State) : State.NextOnly s (execHbmRequestStart p pc cycle hits refreshDue seen s) [.top, .rel, .chest, .tel, .hbm, .parts, .tasks, .out] := by
  unfold execHbmRequestStart
  repeat' first | with_reducible assumption | with_reducible exact .refl _ _ | with_reducible refine nextOnly_next ?_ | with_reducible refine nextOnly_ite ?_ ?_ | with_reducible refine only_ite ?_ ?_ | with_reducible refine only_when ?_ ?_ | with_reducible refine only_modTel ?_ (by decide) | with_reducible refine only_updPart ?_ (by decide) | with_reducible refine only_startReq ?_ (by decide) | split | dsimp only

theorem execHbmReadComplete_next (p : Part) (req : Nat) (s : State) : State.NextOnly s (execHbmReadComplete p req s) [.chest, .tel, .hbm, .parts, .cluss, .tiles, .ctxs, .tasks] := by
  unfold execHbmReadComplete
  repeat' first | with_reducible assumption | with_reducible exact .refl _ _ | with_reducible refine nextOnly_next ?_ | with_reducible refine nextOnly_ite ?_ ?_ | with_reducible refine only_ite ?_ ?_ | with_reducible refine only_detect ?_ (by decide) | with_reducible refine only_updDrawer ?_ (by decide) | with_reducible refine only_drainAll ?_ (by decide) | with_reducible refine only_checkFull ?_ (by decide) | with_reducible refine only_fillDrawer ?_ (by decide) | with_reducible refine only_kvRequests ?_ (by decide) | with_reducible refine only_endReq ?_ (by decide) | split | dsimp only

theorem execHbmWriteAck_next (p : Part) (req : Nat) (s : State) : State.NextOnly s (execHbmWriteAck p req s) [.tel, .hbm, .parts, .cluss, .ctxs] := by
  unfold execHbmWriteAck
  repeat' first | with_reducible assumption | with_reducible exact .refl _ _ | with_reducible refine nextOnly_next ?_ | with_reducible refine nextOnly_ite ?_ ?_ | with_reducible refine only_ite ?_ ?_ | with_reducible refine only_updCtx ?_ (by decide) | with_reducible refine only_updDrawer ?_ (by decide) | with_reducible refine only_drainAll ?_ (by decide) | with_reducible refine only_endReq ?_ (by decide) | split | dsimp only

theorem execHbmRefresh_next (p : Part) (pc : Fin 32) (hot : Bool) (s : State) : State.NextOnly s (execHbmRefresh p pc hot s) [.parts] := by
  unfold execHbmRefresh
  repeat' first | with_reducible assumption | with_reducible exact .refl _ _ | with_reducible refine nextOnly_next ?_ | with_reducible refine nextOnly_ite ?_ ?_ | with_reducible refine only_ite ?_ ?_ | with_reducible refine only_updPart ?_ (by decide) | split | dsimp only

theorem execHbmScrub_next (p : Part) (sector : Nat) (s : State) : State.NextOnly s (execHbmScrub p sector s) [.hbm, .parts] := by
  unfold execHbmScrub
  repeat' first | with_reducible assumption | with_reducible exact .refl _ _ | with_reducible refine nextOnly_next ?_ | with_reducible refine nextOnly_ite ?_ ?_ | with_reducible refine only_ite ?_ ?_ | with_reducible refine only_updPart ?_ (by decide) | with_reducible refine only_enqueueUn ?_ (by decide) | split | dsimp only

theorem execLpHintArrive_next (c : Clus) (x : Ctx) (s : State) : State.NextOnly s (execLpHintArrive c x s) [.mch, .ctxs] := by
  unfold execLpHintArrive
  repeat' first | with_reducible assumption | with_reducible exact .refl _ _ | with_reducible refine nextOnly_next ?_ | with_reducible refine nextOnly_ite ?_ ?_ | with_reducible refine only_ite ?_ ?_ | with_reducible refine only_each ?_ (fun _ _ _ => ?_) | with_reducible refine only_updCtx ?_ (by decide) | with_reducible refine only_takeMessage (by assumption) ?_ (by decide) | split | dsimp only

theorem execLpSpeculate_next (c : Clus) (x : Ctx) (s : State) : State.NextOnly s (execLpSpeculate c x s) [.tel, .hbm, .parts, .cluss, .ctxs] := by
  unfold execLpSpeculate
  repeat' first | with_reducible assumption | with_reducible exact .refl _ _ | with_reducible refine nextOnly_next ?_ | with_reducible refine nextOnly_ite ?_ ?_ | with_reducible refine only_ite ?_ ?_ | with_reducible refine only_each ?_ (fun _ _ _ => ?_) | with_reducible refine only_updCtx ?_ (by decide) | with_reducible refine only_speculatePage ?_ (by decide) | split | dsimp only

theorem execPrrStart_next (p : Part) (s : State) : State.NextOnly s (execPrrStart p s) [.heal, .healx, .chest, .mch, .spn, .parts, .tiles, .tasks, .out] := by
  unfold execPrrStart
  repeat' first | with_reducible assumption | with_reducible exact .refl _ _ | with_reducible refine nextOnly_next ?_ | with_reducible refine nextOnly_ite ?_ ?_ | with_reducible refine only_ite ?_ ?_ | with_reducible refine only_startRecovery ?_ (by decide) | split | dsimp only

theorem execTileFenceTimeout_next (pt : Pt) (s : State) : State.NextOnly s (execTileFenceTimeout pt s) [.heal, .healx, .chest, .mch, .spn, .parts, .tiles, .tasks, .out] := by
  unfold execTileFenceTimeout
  repeat' first | with_reducible assumption | with_reducible exact .refl _ _ | with_reducible refine nextOnly_next ?_ | with_reducible refine nextOnly_ite ?_ ?_ | with_reducible refine only_ite ?_ ?_ | with_reducible refine only_startRecovery ?_ (by decide) | split | dsimp only

theorem execHbmControllerError_next (p : Part) (s : State) : State.NextOnly s (execHbmControllerError p s) [.heal, .healx, .chest, .mch, .spn, .parts, .tiles, .tasks, .out] := by
  unfold execHbmControllerError
  repeat' first | with_reducible assumption | with_reducible exact .refl _ _ | with_reducible refine nextOnly_next ?_ | with_reducible refine nextOnly_ite ?_ ?_ | with_reducible refine only_ite ?_ ?_ | with_reducible refine only_startRecovery ?_ (by decide) | split | dsimp only

theorem execHbmPhyFault_next (_p : Part) (s : State) : State.NextOnly s (execHbmPhyFault _p s) [.flash, .top, .bist, .healx, .relx, .chest, .out] := by
  unfold execHbmPhyFault
  repeat' first | with_reducible assumption | with_reducible exact .refl _ _ | with_reducible refine nextOnly_next ?_ | with_reducible refine nextOnly_ite ?_ ?_ | with_reducible refine only_ite ?_ ?_ | with_reducible refine only_retireCause ?_ (by decide) | split | dsimp only

theorem execPrrResetDone_next (p : Part) (us : BitVec 16) (s : State) : State.NextOnly s (execPrrResetDone p us s) parts4 := by
  unfold execPrrResetDone
  repeat' first | with_reducible assumption | with_reducible exact .refl _ _ | with_reducible refine nextOnly_next ?_ | with_reducible refine nextOnly_ite ?_ ?_ | with_reducible refine only_ite ?_ ?_ | with_reducible refine only_each ?_ (fun _ _ _ => ?_) | with_reducible refine only_modRstc ?_ (by decide) | with_reducible refine only_modHeal ?_ (by decide) | with_reducible refine only_updTile ?_ (by decide) | with_reducible refine only_updPart ?_ (by decide) | with_reducible refine only_setPartMode ?_ (by decide) | with_reducible refine only_dropLatches ?_ (by decide) | with_reducible refine only_loseEntries ?_ (by decide) | with_reducible refine only_unfenceQueues ?_ (by decide) | with_reducible refine only_resetEngine ?_ (by decide) | with_reducible refine only_resetTile ?_ (by decide) | with_reducible refine only_endWindows ?_ (by decide) | with_reducible refine only_digVerify ?_ (by decide) | with_reducible refine only_heldOrders ?_ (by decide) | split | dsimp only

theorem execPrrVerified_next (p : Part) (s : State) : State.NextOnly s (execPrrVerified p s) [.healx, .chest] := by
  unfold execPrrVerified
  repeat' first | with_reducible assumption | with_reducible exact .refl _ _ | with_reducible refine nextOnly_next ?_ | with_reducible refine nextOnly_ite ?_ ?_ | with_reducible refine only_ite ?_ ?_ | with_reducible refine only_setPartMode ?_ (by decide) | with_reducible refine only_recordAt ?_ (by decide) | split | dsimp only

theorem execTaskArmIssue_next (sched : BitVec 32) (a : ArmIssue) (s : State) : State.NextOnly s (execTaskArmIssue sched a s) [.fret, .relx, .mch, .tasks, .out] := by
  unfold execTaskArmIssue
  repeat' first | with_reducible assumption | with_reducible exact .refl _ _ | with_reducible refine nextOnly_next ?_ | with_reducible refine nextOnly_ite ?_ ?_ | with_reducible refine only_ite ?_ ?_ | with_reducible refine only_when ?_ ?_ | with_reducible refine only_each ?_ (fun _ _ _ => ?_) | with_reducible refine only_foldl ?_ (fun _ _ _ => ?_) | with_reducible refine only_foldl2 ?_ (fun _ _ _ => ?_) | with_reducible refine only_modFret ?_ (by decide) | with_reducible refine only_modRelx ?_ (by decide) | with_reducible refine only_modTasks ?_ (by decide) | with_reducible refine only_emit ?_ (by decide) | with_reducible refine only_retryReport ?_ (by decide) | split | dsimp only

theorem execTaskStop_next (task : BitVec 32) (s : State) : State.NextOnly s (execTaskStop task s) parts5 := by
  unfold execTaskStop
  repeat' first | with_reducible assumption | with_reducible exact .refl _ _ | with_reducible refine nextOnly_next ?_ | with_reducible refine nextOnly_ite ?_ ?_ | with_reducible refine only_ite ?_ ?_ | with_reducible refine only_modFret ?_ (by decide) | with_reducible refine only_modRelx ?_ (by decide) | with_reducible refine only_modTel ?_ (by decide) | with_reducible refine only_updTask ?_ (by decide) | with_reducible refine only_record ?_ (by decide) | with_reducible refine only_abortSessions ?_ (by decide) | with_reducible refine only_stopStreams ?_ (by decide) | with_reducible refine only_dropHeld ?_ (by decide) | with_reducible refine only_shiftSched ?_ (by decide) | with_reducible refine only_failTask ?_ (by decide) | with_reducible refine only_stopTiles ?_ (by decide) | split | dsimp only

theorem execTaskCommit_next (task : BitVec 32) (s : State) : State.NextOnly s (execTaskCommit task s) parts6 := by
  unfold execTaskCommit
  repeat' first | with_reducible assumption | with_reducible exact .refl _ _ | with_reducible refine nextOnly_next ?_ | with_reducible refine nextOnly_ite ?_ ?_ | with_reducible refine only_ite ?_ ?_ | with_reducible refine only_foldl ?_ (fun _ _ _ => ?_) | with_reducible refine only_foldl2 ?_ (fun _ _ _ => ?_) | with_reducible refine only_modHealx ?_ (by decide) | with_reducible refine only_modRelx ?_ (by decide) | with_reducible refine only_modTel ?_ (by decide) | with_reducible refine only_modSpn ?_ (by decide) | with_reducible refine only_modTiles ?_ (by decide) | with_reducible refine only_updTask ?_ (by decide) | with_reducible refine only_commitSessions ?_ (by decide) | with_reducible refine only_updSched ?_ (by decide) | with_reducible refine only_taskReport ?_ (by decide) | split | dsimp only

theorem execTaskHang_next (task : BitVec 32) (s : State) : State.NextOnly s (execTaskHang task s) [.flash, .top, .bist, .heal, .healx, .relx, .chest, .mch, .spn, .parts, .tiles, .tasks, .out] := by
  unfold execTaskHang
  repeat' first | with_reducible assumption | with_reducible exact .refl _ _ | with_reducible refine nextOnly_next ?_ | with_reducible refine nextOnly_ite ?_ ?_ | with_reducible refine only_ite ?_ ?_ | with_reducible refine only_foldl ?_ (fun _ _ _ => ?_) | with_reducible refine only_foldl2 ?_ (fun _ _ _ => ?_) | with_reducible refine only_modHeal ?_ (by decide) | with_reducible refine only_recordAt ?_ (by decide) | with_reducible refine only_detect ?_ (by decide) | with_reducible refine only_hangNamed ?_ (by decide) | split | dsimp only

theorem execChestRecordPlace_next (s : State) : State.NextOnly s (execChestRecordPlace s) [.flash, .top, .chest, .out, .free] := by
  unfold execChestRecordPlace
  repeat' first | with_reducible assumption | with_reducible exact .refl _ _ | with_reducible refine nextOnly_next ?_ | with_reducible refine nextOnly_ite ?_ ?_ | with_reducible refine only_ite ?_ ?_ | with_reducible refine only_placeOne ?_ (by decide) | with_reducible refine only_nextHalf ?_ (by decide) | split | dsimp only

theorem execChestCopyStart_next (reason : BitVec 8) (s : State) : State.NextOnly s (execChestCopyStart reason s) [.flash, .chest] := by
  unfold execChestCopyStart
  repeat' first | with_reducible assumption | with_reducible exact .refl _ _ | with_reducible refine nextOnly_next ?_ | with_reducible refine nextOnly_ite ?_ ?_ | with_reducible refine only_ite ?_ ?_ | with_reducible refine only_copyRequest ?_ (by decide) | split | dsimp only

theorem execTelemetryReport_next (s : State) : State.NextOnly s (execTelemetryReport s) [.tel] := by
  unfold execTelemetryReport
  repeat' first | with_reducible assumption | with_reducible exact .refl _ _ | with_reducible refine nextOnly_next ?_ | with_reducible refine nextOnly_ite ?_ ?_ | with_reducible refine only_ite ?_ ?_ | with_reducible refine only_when ?_ ?_ | with_reducible refine only_modTel ?_ (by decide) | with_reducible refine only_putReport ?_ (by decide) | split | dsimp only

theorem execTelemetrySend_next (s : State) : State.NextOnly s (execTelemetrySend s) [.tel, .mch, .out] := by
  unfold execTelemetrySend
  repeat' first | with_reducible assumption | with_reducible exact .refl _ _ | with_reducible refine nextOnly_next ?_ | with_reducible refine nextOnly_ite ?_ ?_ | with_reducible refine only_ite ?_ ?_ | with_reducible refine only_each ?_ (fun _ _ _ => ?_) | with_reducible refine only_modTel ?_ (by decide) | with_reducible refine only_mcSend ?_ (by decide) | split | dsimp only

theorem execIdGenerateDone_next (secret : BitVec 512) (s : State) : State.NextOnly s (execIdGenerateDone secret s) [.fuse, .ids] := by
  unfold execIdGenerateDone
  repeat' first | with_reducible assumption | with_reducible exact .refl _ _ | with_reducible refine nextOnly_next ?_ | with_reducible refine nextOnly_ite ?_ ?_ | with_reducible refine only_ite ?_ ?_ | with_reducible refine only_modFuse ?_ (by decide) | with_reducible refine only_publish ?_ (by decide) | split | dsimp only

theorem execSignRequest_next (msg : List Byte) (s : State) : State.NextOnly s (execSignRequest msg s) [.flash, .ids] := by
  unfold execSignRequest
  repeat' first | with_reducible assumption | with_reducible exact .refl _ _ | with_reducible refine nextOnly_next ?_ | with_reducible refine nextOnly_ite ?_ ?_ | with_reducible refine only_ite ?_ ?_ | with_reducible refine only_askSign ?_ (by decide) | split | dsimp only

theorem execSignatureDone_next (s : State) : State.NextOnly s (execSignatureDone s) [.flash, .ids, .out] := by
  unfold execSignatureDone
  repeat' first | with_reducible assumption | with_reducible exact .refl _ _ | with_reducible refine nextOnly_next ?_ | with_reducible refine nextOnly_ite ?_ ?_ | with_reducible refine only_ite ?_ ?_ | with_reducible refine only_emit ?_ (by decide) | with_reducible refine only_sign ?_ (by decide) | with_reducible refine only_nextSign ?_ (by decide) | split | dsimp only

theorem execQuoteDone_next (s : State) : State.NextOnly s (execQuoteDone s) [.flash, .ids, .sec] := by
  unfold execQuoteDone
  repeat' first | with_reducible assumption | with_reducible exact .refl _ _ | with_reducible refine nextOnly_next ?_ | with_reducible refine nextOnly_ite ?_ ?_ | with_reducible refine only_ite ?_ ?_ | with_reducible refine only_modSec ?_ (by decide) | with_reducible refine only_sign ?_ (by decide) | with_reducible refine only_nextSign ?_ (by decide) | split | dsimp only

theorem execScanEn_next (s : State) : State.NextOnly s (execScanEn s) [.sec, .tap, .out] := by
  unfold execScanEn
  repeat' first | with_reducible assumption | with_reducible exact .refl _ _ | with_reducible refine nextOnly_next ?_ | with_reducible refine nextOnly_ite ?_ ?_ | with_reducible refine only_ite ?_ ?_ | with_reducible refine only_modSec ?_ (by decide) | with_reducible refine only_loadIr ?_ (by decide) | split | dsimp only

theorem execEb1Unlock_next (s : State) : State.NextOnly s (execEb1Unlock s) [.flash, .sec, .tap, .out] := by
  unfold execEb1Unlock
  repeat' first | with_reducible assumption | with_reducible exact .refl _ _ | with_reducible refine nextOnly_next ?_ | with_reducible refine nextOnly_ite ?_ ?_ | with_reducible refine only_ite ?_ ?_ | with_reducible refine only_modFlash ?_ (by decide) | with_reducible refine only_modSec ?_ (by decide) | with_reducible refine only_loadIr ?_ (by decide) | split | dsimp only

theorem execScanClearDone_next (s : State) : State.NextOnly s (execScanClearDone s) [.ids, .sec] := by
  unfold execScanClearDone
  repeat' first | with_reducible assumption | with_reducible exact .refl _ _ | with_reducible refine nextOnly_next ?_ | with_reducible refine nextOnly_ite ?_ ?_ | with_reducible refine only_ite ?_ ?_ | with_reducible refine only_modIds ?_ (by decide) | with_reducible refine only_modSec ?_ (by decide) | split | dsimp only

theorem execMcLoad_next (m : McCmd) (img : Image) (bytesDigest : BitVec 256) (formatOk : Bool) (s : State) : State.NextOnly s (execMcLoad m img bytesDigest formatOk s) [.top, .sec, .chest, .mch, .spn, .scheds, .out] := by
  unfold execMcLoad
  repeat' first | with_reducible assumption | with_reducible exact .refl _ _ | with_reducible refine nextOnly_next ?_ | with_reducible refine nextOnly_ite ?_ ?_ | with_reducible refine only_ite ?_ ?_ | with_reducible refine only_foldl ?_ (fun _ _ _ => ?_) | with_reducible refine only_foldl2 ?_ (fun _ _ _ => ?_) | with_reducible refine only_modSpn ?_ (by decide) | with_reducible refine only_modScheds ?_ (by decide) | with_reducible refine only_extendLog ?_ (by decide) | with_reducible refine only_attn ?_ (by decide) | with_reducible refine only_variantRecord ?_ (by decide) | with_reducible refine only_mcReply ?_ (by decide) | split | dsimp only

theorem execMcStart_next (m : McCmd) (s : State) : State.NextOnly s (execMcStart m s) [.relx, .mch, .scheds, .out] := by
  unfold execMcStart
  repeat' first | with_reducible assumption | with_reducible exact .refl _ _ | with_reducible refine nextOnly_next ?_ | with_reducible refine nextOnly_ite ?_ ?_ | with_reducible refine only_ite ?_ ?_ | with_reducible refine only_modRelx ?_ (by decide) | with_reducible refine only_updSched ?_ (by decide) | with_reducible refine only_mcReply ?_ (by decide) | split | dsimp only

theorem execMcStop_next (m : McCmd) (s : State) : State.NextOnly s (execMcStop m s) [.rel, .relx, .mch, .scheds, .out] := by
  unfold execMcStop
  repeat' first | with_reducible assumption | with_reducible exact .refl _ _ | with_reducible refine nextOnly_next ?_ | with_reducible refine nextOnly_ite ?_ ?_ | with_reducible refine only_ite ?_ ?_ | with_reducible refine only_each ?_ (fun _ _ _ => ?_) | with_reducible refine only_modRelx ?_ (by decide) | with_reducible refine only_updSched ?_ (by decide) | with_reducible refine only_failTask ?_ (by decide) | with_reducible refine only_mcReply ?_ (by decide) | split | dsimp only

theorem execMcUnload_next (m : McCmd) (s : State) : State.NextOnly s (execMcUnload m s) [.fret, .sec, .mch, .spn, .tasks, .scheds, .out] := by
  unfold execMcUnload
  repeat' first | with_reducible assumption | with_reducible exact .refl _ _ | with_reducible refine nextOnly_next ?_ | with_reducible refine nextOnly_ite ?_ ?_ | with_reducible refine only_ite ?_ ?_ | with_reducible refine only_modFret ?_ (by decide) | with_reducible refine only_modSpn ?_ (by decide) | with_reducible refine only_modTasks ?_ (by decide) | with_reducible refine only_modScheds ?_ (by decide) | with_reducible refine only_extendLog ?_ (by decide) | with_reducible refine only_mcReply ?_ (by decide) | split | dsimp only

theorem execMcReservedOpcode_next (m : McCmd) (op : BitVec 8) (s : State) : State.NextOnly s (execMcReservedOpcode m op s) [.mch, .out] := by
  unfold execMcReservedOpcode
  repeat' first | with_reducible assumption | with_reducible exact .refl _ _ | with_reducible refine nextOnly_next ?_ | with_reducible refine nextOnly_ite ?_ ?_ | with_reducible refine only_ite ?_ ?_ | with_reducible refine only_mcReply ?_ (by decide) | split | dsimp only

theorem execInfieldTestDone_next (pt : Pt) (failed : Option (BitVec 4)) (s : State) : State.NextOnly s (execInfieldTestDone pt failed s) [.flash, .top, .bist, .heal, .healx, .relx, .chest, .tiles, .out] := by
  unfold execInfieldTestDone
  repeat' first | with_reducible assumption | with_reducible exact .refl _ _ | with_reducible refine nextOnly_next ?_ | with_reducible refine nextOnly_ite ?_ ?_ | with_reducible refine only_ite ?_ ?_ | with_reducible refine only_updTile ?_ (by decide) | with_reducible refine only_updRole ?_ (by decide) | with_reducible refine only_fenceTile ?_ (by decide) | with_reducible refine only_tileProgram ?_ (by decide) | split | dsimp only

theorem execRemapApply_next (c : Clus) (slot : Fin 16) (s : State) : State.NextOnly s (execRemapApply c slot s) [.flash, .top, .bist, .heal, .healx, .rel, .relx, .chest, .mch, .cluss, .tiles, .out, .free] := by
  unfold execRemapApply
  repeat' first | with_reducible assumption | with_reducible exact .refl _ _ | with_reducible refine nextOnly_next ?_ | with_reducible refine nextOnly_ite ?_ ?_ | with_reducible refine only_ite ?_ ?_ | with_reducible refine only_updRole ?_ (by decide) | with_reducible refine only_moveSlot ?_ (by decide) | split | dsimp only

theorem execRotationMark_next (s : State) : State.NextOnly s (execRotationMark s) [.healx, .cluss] := by
  unfold execRotationMark
  repeat' first | with_reducible assumption | with_reducible exact .refl _ _ | with_reducible refine nextOnly_next ?_ | with_reducible refine nextOnly_ite ?_ ?_ | with_reducible refine only_ite ?_ ?_ | with_reducible refine only_each ?_ (fun _ _ _ => ?_) | with_reducible refine only_markRotation ?_ (by decide) | split | dsimp only

theorem execRotationApply_next (c : Clus) (s : State) : State.NextOnly s (execRotationApply c s) [.flash, .top, .bist, .heal, .healx, .rel, .relx, .chest, .mch, .cluss, .tiles, .out, .free] := by
  unfold execRotationApply
  repeat' first | with_reducible assumption | with_reducible exact .refl _ _ | with_reducible refine nextOnly_next ?_ | with_reducible refine nextOnly_ite ?_ ?_ | with_reducible refine only_ite ?_ ?_ | with_reducible refine only_when ?_ ?_ | with_reducible refine only_modHeal ?_ (by decide) | with_reducible refine only_modHealx ?_ (by decide) | with_reducible refine only_updClus ?_ (by decide) | with_reducible refine only_moveSlot ?_ (by decide) | split | dsimp only

theorem execHealFenceDeferredApply_next (pt : Pt) (s : State) : State.NextOnly s (execHealFenceDeferredApply pt s) [.flash, .top, .bist, .heal, .healx, .relx, .chest, .tiles, .out] := by
  unfold execHealFenceDeferredApply
  repeat' first | with_reducible assumption | with_reducible exact .refl _ _ | with_reducible refine nextOnly_next ?_ | with_reducible refine nextOnly_ite ?_ ?_ | with_reducible refine only_ite ?_ ?_ | with_reducible refine only_modHealx ?_ (by decide) | with_reducible refine only_fenceTile ?_ (by decide) | with_reducible refine only_healResult ?_ (by decide) | split | dsimp only

theorem execVariantLoad_next (c : Clus) (slot : Fin 16) (sched : BitVec 32) (s : State) : State.NextOnly s (execVariantLoad c slot sched s) [.top, .chest, .cluss, .tiles, .out] := by
  unfold execVariantLoad
  repeat' first | with_reducible assumption | with_reducible exact .refl _ _ | with_reducible refine nextOnly_next ?_ | with_reducible refine nextOnly_ite ?_ ?_ | with_reducible refine only_ite ?_ ?_ | with_reducible refine only_each ?_ (fun _ _ _ => ?_) | with_reducible refine only_updTile ?_ (by decide) | with_reducible refine only_updClus ?_ (by decide) | with_reducible refine only_attn ?_ (by decide) | with_reducible refine only_variantRecord ?_ (by decide) | split | dsimp only

theorem execHealthRecordFenceWrite_next (s : State) : State.NextOnly s (execHealthRecordFenceWrite s) [.flash, .bist] := by
  unfold execHealthRecordFenceWrite
  repeat' first | with_reducible assumption | with_reducible exact .refl _ _ | with_reducible refine nextOnly_next ?_ | with_reducible refine nextOnly_ite ?_ ?_ | with_reducible refine only_ite ?_ ?_ | with_reducible refine only_writeHealth ?_ (by decide) | split | dsimp only

theorem execGovernorPark_next (p : Part) (idleMs : Nat) (s : State) : State.NextOnly s (execGovernorPark p idleMs s) [.gov, .bist, .parts, .tiles] := by
  unfold execGovernorPark
  repeat' first | with_reducible assumption | with_reducible exact .refl _ _ | with_reducible refine nextOnly_next ?_ | with_reducible refine nextOnly_ite ?_ ?_ | with_reducible refine only_ite ?_ ?_ | with_reducible refine only_startPark ?_ (by decide) | split | dsimp only

theorem execParkDone_next (p : Part) (s : State) : State.NextOnly s (execParkDone p s) [.top, .pwr, .gov, .fret, .rel, .relx, .chest, .mch, .tiles, .out] := by
  unfold execParkDone
  repeat' first | with_reducible assumption | with_reducible exact .refl _ _ | with_reducible refine nextOnly_next ?_ | with_reducible refine nextOnly_ite ?_ ?_ | with_reducible refine only_ite ?_ ?_ | with_reducible refine only_rebudget ?_ (by decide) | with_reducible refine only_parkOff ?_ (by decide) | split | dsimp only

theorem execWakeDone_next (p : Part) (failed : List (Pt × BitVec 4)) (s : State) : State.NextOnly s (execWakeDone p failed s) [.flash, .top, .pwr, .bist, .heal, .healx, .relx, .chest, .parts, .tiles, .out] := by
  unfold execWakeDone
  repeat' first | with_reducible assumption | with_reducible exact .refl _ _ | with_reducible refine nextOnly_next ?_ | with_reducible refine nextOnly_ite ?_ ?_ | with_reducible refine only_ite ?_ ?_ | with_reducible refine only_each ?_ (fun _ _ _ => ?_) | with_reducible refine only_modPwr ?_ (by decide) | with_reducible refine only_updPart ?_ (by decide) | with_reducible refine only_fenceTile ?_ (by decide) | with_reducible refine only_tileProgram ?_ (by decide) | split | dsimp only

theorem execGovernorInterval_next (m : Measured) (s : State) : State.NextOnly s (execGovernorInterval m s) [.pwr, .gov, .fret, .out] := by
  unfold execGovernorInterval
  repeat' first | with_reducible assumption | with_reducible exact .refl _ _ | with_reducible refine nextOnly_next ?_ | with_reducible refine nextOnly_ite ?_ ?_ | with_reducible refine only_ite ?_ ?_ | with_reducible refine only_modPwr ?_ (by decide) | with_reducible refine only_modGov ?_ (by decide) | with_reducible refine only_setReq ?_ (by decide) | split | dsimp only

theorem execThermalClampEngage_next (h : Half) (temp : BitVec 8) (s : State) : State.NextOnly s (execThermalClampEngage h temp s) [.top, .pwr, .gov, .clk, .fret, .chest, .out] := by
  unfold execThermalClampEngage
  repeat' first | with_reducible assumption | with_reducible exact .refl _ _ | with_reducible refine nextOnly_next ?_ | with_reducible refine nextOnly_ite ?_ ?_ | with_reducible refine only_ite ?_ ?_ | with_reducible refine only_modPwr ?_ (by decide) | with_reducible refine only_modGov ?_ (by decide) | with_reducible refine only_attn ?_ (by decide) | with_reducible refine only_setReq ?_ (by decide) | with_reducible refine only_thermalRecord ?_ (by decide) | with_reducible refine only_divide ?_ (by decide) | split | dsimp only

theorem execThermalClampRelease_next (h : Half) (s : State) : State.NextOnly s (execThermalClampRelease h s) [.gov, .clk] := by
  unfold execThermalClampRelease
  repeat' first | with_reducible assumption | with_reducible exact .refl _ _ | with_reducible refine nextOnly_next ?_ | with_reducible refine nextOnly_ite ?_ ?_ | with_reducible refine only_ite ?_ ?_ | with_reducible refine only_modGov ?_ (by decide) | with_reducible refine only_divide ?_ (by decide) | split | dsimp only

theorem execPowerClampEngage_next (mean : Nat) (s : State) : State.NextOnly s (execPowerClampEngage mean s) [.pwr, .gov, .clk, .fret, .chest, .out] := by
  unfold execPowerClampEngage
  repeat' first | with_reducible assumption | with_reducible exact .refl _ _ | with_reducible refine nextOnly_next ?_ | with_reducible refine nextOnly_ite ?_ ?_ | with_reducible refine only_ite ?_ ?_ | with_reducible refine only_modPwr ?_ (by decide) | with_reducible refine only_modGov ?_ (by decide) | with_reducible refine only_setReq ?_ (by decide) | with_reducible refine only_thermalRecord ?_ (by decide) | with_reducible refine only_divide ?_ (by decide) | split | dsimp only

theorem execPowerClampRelease_next (mean : Nat) (s : State) : State.NextOnly s (execPowerClampRelease mean s) [.gov, .clk] := by
  unfold execPowerClampRelease
  repeat' first | with_reducible assumption | with_reducible exact .refl _ _ | with_reducible refine nextOnly_next ?_ | with_reducible refine nextOnly_ite ?_ ?_ | with_reducible refine only_ite ?_ ?_ | with_reducible refine only_modGov ?_ (by decide) | with_reducible refine only_divide ?_ (by decide) | split | dsimp only

theorem execDroopEvent_next (rail : Fin 18) (events : Nat) (raise : Bool) (critical : Bool) (s : State) : State.NextOnly s (execDroopEvent rail events raise critical s) [.pwr] := by
  unfold execDroopEvent
  repeat' first | with_reducible assumption | with_reducible exact .refl _ _ | with_reducible refine nextOnly_next ?_ | with_reducible refine nextOnly_ite ?_ ?_ | with_reducible refine only_ite ?_ ?_ | with_reducible refine only_modPwr ?_ (by decide) | split | dsimp only

theorem execGuardBandLower_next (rail : Fin 18) (s : State) : State.NextOnly s (execGuardBandLower rail s) [.pwr] := by
  unfold execGuardBandLower
  repeat' first | with_reducible assumption | with_reducible exact .refl _ _ | with_reducible refine nextOnly_next ?_ | with_reducible refine nextOnly_ite ?_ ?_ | with_reducible refine only_ite ?_ ?_ | with_reducible refine only_modPwr ?_ (by decide) | split | dsimp only

theorem execPegRetune_next (n : Nat) (better : Bool) (s : State) : State.NextOnly s (execPegRetune n better s) [.flash, .pwr] := by
  unfold execPegRetune
  repeat' first | with_reducible assumption | with_reducible exact .refl _ _ | with_reducible refine nextOnly_next ?_ | with_reducible refine nextOnly_ite ?_ ?_ | with_reducible refine only_ite ?_ ?_ | with_reducible refine only_when ?_ ?_ | with_reducible refine only_modFlash ?_ (by decide) | with_reducible refine only_modPwr ?_ (by decide) | split | dsimp only

theorem execHbmWindowTestStart_next (p : Part) (pc : Fin 32) (s : State) : State.NextOnly s (execHbmWindowTestStart p pc s) [.bist] := by
  unfold execHbmWindowTestStart
  repeat' first | with_reducible assumption | with_reducible exact .refl _ _ | with_reducible refine nextOnly_next ?_ | with_reducible refine nextOnly_ite ?_ ?_ | with_reducible refine only_ite ?_ ?_ | with_reducible refine only_modBist ?_ (by decide) | split | dsimp only

theorem execHbmWindowTestDone_next (p : Part) (pc : Fin 32) (repeatFailed : Bool) (s : State) : State.NextOnly s (execHbmWindowTestDone p pc repeatFailed s) [.flash, .top, .bist, .healx, .relx, .chest, .out] := by
  unfold execHbmWindowTestDone
  repeat' first | with_reducible assumption | with_reducible exact .refl _ _ | with_reducible refine nextOnly_next ?_ | with_reducible refine nextOnly_ite ?_ ?_ | with_reducible refine only_ite ?_ ?_ | with_reducible refine only_when ?_ ?_ | with_reducible refine only_modBist ?_ (by decide) | with_reducible refine only_faultyWindow ?_ (by decide) | split | dsimp only

theorem execHbmWindowTestTimeout_next (p : Part) (pc : Fin 32) (s : State) : State.NextOnly s (execHbmWindowTestTimeout p pc s) [.bist] := by
  unfold execHbmWindowTestTimeout
  repeat' first | with_reducible assumption | with_reducible exact .refl _ _ | with_reducible refine nextOnly_next ?_ | with_reducible refine nextOnly_ite ?_ ?_ | with_reducible refine only_ite ?_ ?_ | with_reducible refine only_modBist ?_ (by decide) | split | dsimp only

theorem execTestAgeTick_next (s : State) : State.NextOnly s (execTestAgeTick s) [.healx] := by
  unfold execTestAgeTick
  repeat' first | with_reducible assumption | with_reducible exact .refl _ _ | with_reducible refine nextOnly_next ?_ | with_reducible refine nextOnly_ite ?_ ?_ | with_reducible refine only_ite ?_ ?_ | with_reducible refine only_modHealx ?_ (by decide) | split | dsimp only

theorem execShutdownTestPhase_next (failed : List (Pt × BitVec 4)) (windows : List Word) (s : State) : State.NextOnly s (execShutdownTestPhase failed windows s) [.flash, .top, .bist, .heal, .healx, .relx, .chest, .hbm, .tiles, .out] := by
  unfold execShutdownTestPhase
  repeat' first | with_reducible assumption | with_reducible exact .refl _ _ | with_reducible refine nextOnly_next ?_ | with_reducible refine nextOnly_ite ?_ ?_ | with_reducible refine only_ite ?_ ?_ | with_reducible refine only_each ?_ (fun _ _ _ => ?_) | with_reducible refine only_modBist ?_ (by decide) | with_reducible refine only_faultyWindow ?_ (by decide) | with_reducible refine only_loseHbm ?_ (by decide) | with_reducible refine only_fullTest ?_ (by decide) | split | dsimp only

theorem execShutdownRecord_next (s : State) : State.NextOnly s (execShutdownRecord s) [.flash, .bist, .chest] := by
  unfold execShutdownRecord
  repeat' first | with_reducible assumption | with_reducible exact .refl _ _ | with_reducible refine nextOnly_next ?_ | with_reducible refine nextOnly_ite ?_ ?_ | with_reducible refine only_ite ?_ ?_ | with_reducible refine only_modBist ?_ (by decide) | with_reducible refine only_copyRequest ?_ (by decide) | with_reducible refine only_writeHealth ?_ (by decide) | split | dsimp only

theorem execShutdownHalt_next (s : State) : State.NextOnly s (execShutdownHalt s) [.top, .pwr, .gov, .fret, .bist, .rel, .relx, .chest, .mch, .parts, .tiles, .out] := by
  unfold execShutdownHalt
  repeat' first | with_reducible assumption | with_reducible exact .refl _ _ | with_reducible refine nextOnly_next ?_ | with_reducible refine nextOnly_ite ?_ ?_ | with_reducible refine only_ite ?_ ?_ | with_reducible refine only_each ?_ (fun _ _ _ => ?_) | with_reducible refine only_modBist ?_ (by decide) | with_reducible refine only_rebudget ?_ (by decide) | with_reducible refine only_startPark ?_ (by decide) | with_reducible refine only_parkOff ?_ (by decide) | split | dsimp only

theorem execBar2Read_next (port : HostPort) (off : Nat) (r : BarRead) (s : State) : State.NextOnly s (execBar2Read port off r s) [.top, .rel, .chest, .hbm, .parts, .out] := by
  unfold execBar2Read
  repeat' first | with_reducible assumption | with_reducible exact .refl _ _ | with_reducible refine nextOnly_next ?_ | with_reducible refine nextOnly_ite ?_ ?_ | with_reducible refine only_ite ?_ ?_ | with_reducible refine only_emit ?_ (by decide) | with_reducible refine only_noteErrs ?_ (by decide) | with_reducible refine only_checkRange ?_ (by decide) | split | dsimp only

theorem execBar2Write_next (port : HostPort) (off : Nat) (d : BarWrite) (s : State) : State.NextOnly s (execBar2Write port off d s) [.top, .rel, .chest, .hbm, .parts, .out] := by
  unfold execBar2Write
  repeat' first | with_reducible assumption | with_reducible exact .refl _ _ | with_reducible refine nextOnly_next ?_ | with_reducible refine nextOnly_ite ?_ ?_ | with_reducible refine only_ite ?_ ?_ | with_reducible refine only_noteErrs ?_ (by decide) | with_reducible refine only_hbmWrite ?_ (by decide) | split | dsimp only

theorem execBar4Write_next (port : HostPort) (off : Nat) (data : List Byte) (s : State) : State.NextOnly s (execBar4Write port off data s) [.top, .mch, .pcie, .out] := by
  unfold execBar4Write
  repeat' first | with_reducible assumption | with_reducible exact .refl _ _ | with_reducible refine nextOnly_next ?_ | with_reducible refine nextOnly_ite ?_ ?_ | with_reducible refine only_ite ?_ ?_ | with_reducible refine only_updPcie ?_ (by decide) | with_reducible refine only_window ?_ (by decide) | split | dsimp only

theorem execSubmissionTimeout_next (port : HostPort) (c : ConnN) (s : State) : State.NextOnly s (execSubmissionTimeout port c s) [.top, .mch, .pcie, .out] := by
  unfold execSubmissionTimeout
  repeat' first | with_reducible assumption | with_reducible exact .refl _ _ | with_reducible refine nextOnly_next ?_ | with_reducible refine nextOnly_ite ?_ ?_ | with_reducible refine only_ite ?_ ?_ | with_reducible refine only_updPcie ?_ (by decide) | with_reducible refine only_refuseSubmission ?_ (by decide) | with_reducible refine only_drainStalled ?_ (by decide) | split | dsimp only

theorem execPerst_next (port : HostPort) (how : PortReset) (s : State) : State.NextOnly s (execPerst port how s) [.top, .mch, .pcie, .out] := by
  unfold execPerst
  repeat' first | with_reducible assumption | with_reducible exact .refl _ _ | with_reducible refine nextOnly_next ?_ | with_reducible refine nextOnly_ite ?_ ?_ | with_reducible refine only_ite ?_ ?_ | with_reducible refine only_updPcie ?_ (by decide) | with_reducible refine only_portReset ?_ (by decide) | split | dsimp only

theorem execPerstDeassert_next (port : HostPort) (s : State) : State.NextOnly s (execPerstDeassert port s) [.pcie] := by
  unfold execPerstDeassert
  repeat' first | with_reducible assumption | with_reducible exact .refl _ _ | with_reducible refine nextOnly_next ?_ | with_reducible refine nextOnly_ite ?_ ?_ | with_reducible refine only_ite ?_ ?_ | with_reducible refine only_updPcie ?_ (by decide) | split | dsimp only

theorem execPcieLinkUp_next (port : HostPort) (width : BitVec 4) (speed : BitVec 4) (flit : Bool) (mps : BitVec 3) (s : State) : State.NextOnly s (execPcieLinkUp port width speed flit mps s) [.pcie] := by
  unfold execPcieLinkUp
  repeat' first | with_reducible assumption | with_reducible exact .refl _ _ | with_reducible refine nextOnly_next ?_ | with_reducible refine nextOnly_ite ?_ ?_ | with_reducible refine only_ite ?_ ?_ | with_reducible refine only_updPcie ?_ (by decide) | split | dsimp only

theorem execPcieConfigWrite_next (port : HostPort) (w : PcieCfg) (s : State) : State.NextOnly s (execPcieConfigWrite port w s) [.pcie] := by
  unfold execPcieConfigWrite
  repeat' first | with_reducible assumption | with_reducible exact .refl _ _ | with_reducible refine nextOnly_next ?_ | with_reducible refine nextOnly_ite ?_ ?_ | with_reducible refine only_ite ?_ ?_ | with_reducible refine only_updPcie ?_ (by decide) | split | dsimp only

theorem execAttentionPulse_next (port : HostPort) (s : State) : State.NextOnly s (execAttentionPulse port s) [.top, .out] := by
  unfold execAttentionPulse
  repeat' first | with_reducible assumption | with_reducible exact .refl _ _ | with_reducible refine nextOnly_next ?_ | with_reducible refine nextOnly_ite ?_ ?_ | with_reducible refine only_ite ?_ ?_ | with_reducible refine only_modTop ?_ (by decide) | with_reducible refine only_emit ?_ (by decide) | split | dsimp only

theorem execArbitrationStart_next (c : Clus) (s : State) : State.NextOnly s (execArbitrationStart c s) [.rel, .relx, .tiles] := by
  unfold execArbitrationStart
  repeat' first | with_reducible assumption | with_reducible exact .refl _ _ | with_reducible refine nextOnly_next ?_ | with_reducible refine nextOnly_ite ?_ ?_ | with_reducible refine only_ite ?_ ?_ | with_reducible refine only_modRelx ?_ (by decide) | with_reducible refine only_updTile ?_ (by decide) | with_reducible refine only_arbLast ?_ (by decide) | split | dsimp only

theorem execArbitrationDone_next (c : Clus) (rs : List Replay) (s : State) : State.NextOnly s (execArbitrationDone c rs s) [.flash, .top, .bist, .heal, .healx, .rel, .relx, .chest, .mch, .tiles, .out] := by
  unfold execArbitrationDone
  repeat' first | with_reducible assumption | with_reducible exact .refl _ _ | with_reducible refine nextOnly_next ?_ | with_reducible refine nextOnly_ite ?_ ?_ | with_reducible refine only_ite ?_ ?_ | with_reducible refine only_modRel ?_ (by decide) | with_reducible refine only_modRelx ?_ (by decide) | with_reducible refine only_recordAt ?_ (by decide) | with_reducible refine only_retireCause ?_ (by decide) | with_reducible refine only_fenceTile ?_ (by decide) | with_reducible refine only_arbLast ?_ (by decide) | with_reducible refine only_endArb ?_ (by decide) | split | dsimp only

theorem execDigestPassDone_next (d : DigestRead) (s : State) : State.NextOnly s (execDigestPassDone d s) [.flash, .top, .bist, .healx, .rel, .relx, .chest, .mch, .hbm, .parts, .out] := by
  unfold execDigestPassDone
  repeat' first | with_reducible assumption | with_reducible exact .refl _ _ | with_reducible refine nextOnly_next ?_ | with_reducible refine nextOnly_ite ?_ ?_ | with_reducible refine only_ite ?_ ?_ | with_reducible refine only_noteErrs ?_ (by decide) | with_reducible refine only_checkRange ?_ (by decide) | with_reducible refine only_digMessage ?_ (by decide) | with_reducible refine only_passState ?_ (by decide) | split | dsimp only

theorem execDigestRoundStart_next (h : Half) (s : State) : State.NextOnly s (execDigestRoundStart h s) [.relx] := by
  unfold execDigestRoundStart
  repeat' first | with_reducible assumption | with_reducible exact .refl _ _ | with_reducible refine nextOnly_next ?_ | with_reducible refine nextOnly_ite ?_ ?_ | with_reducible refine only_ite ?_ ?_ | with_reducible refine only_modRelx ?_ (by decide) | split | dsimp only

theorem execDigestMessageReceive_next (m : DigestMsg) (s : State) : State.NextOnly s (execDigestMessageReceive m s) [.flash, .top, .bist, .healx, .relx, .chest, .out] := by
  unfold execDigestMessageReceive
  repeat' first | with_reducible assumption | with_reducible exact .refl _ _ | with_reducible refine nextOnly_next ?_ | with_reducible refine nextOnly_ite ?_ ?_ | with_reducible refine only_ite ?_ ?_ | with_reducible refine only_updDig ?_ (by decide) | with_reducible refine only_digDiverge ?_ (by decide) | with_reducible refine only_digAgree ?_ (by decide) | split | dsimp only

theorem execOrderlyResetAssert_next (s : State) : State.NextOnly s (execOrderlyResetAssert s) parts8 := by
  unfold execOrderlyResetAssert
  repeat' first | with_reducible assumption | with_reducible exact .refl _ _ | with_reducible refine nextOnly_next ?_ | with_reducible refine nextOnly_ite ?_ ?_ | with_reducible refine only_ite ?_ ?_ | with_reducible refine only_assertReset ?_ (by decide) | split | dsimp only

theorem execResetRelease_next (s : State) : State.NextOnly s (execResetRelease s) [.rstc, .brup] := by
  unfold execResetRelease
  repeat' first | with_reducible assumption | with_reducible exact .refl _ _ | with_reducible refine nextOnly_next ?_ | with_reducible refine nextOnly_ite ?_ ?_ | with_reducible refine only_ite ?_ ?_ | with_reducible refine only_modRstc ?_ (by decide) | with_reducible refine only_modBrup ?_ (by decide) | with_reducible refine only_startStage ?_ (by decide) | with_reducible refine only_startBu0 ?_ (by decide) | split | dsimp only

theorem execPor_next (s : State) : State.NextOnly s (execPor s) parts8 := by
  unfold execPor
  repeat' first | with_reducible assumption | with_reducible exact .refl _ _ | with_reducible refine nextOnly_next ?_ | with_reducible refine nextOnly_ite ?_ ?_ | with_reducible refine only_ite ?_ ?_ | with_reducible refine only_modRstc ?_ (by decide) | with_reducible refine only_assertReset ?_ (by decide) | split | dsimp only

theorem execPwrgdRise_next (s : State) : State.NextOnly s (execPwrgdRise s) [.rstc, .pwr] := by
  unfold execPwrgdRise
  repeat' first | with_reducible assumption | with_reducible exact .refl _ _ | with_reducible refine nextOnly_next ?_ | with_reducible refine nextOnly_ite ?_ ?_ | with_reducible refine only_ite ?_ ?_ | with_reducible refine only_modRstc ?_ (by decide) | with_reducible refine only_bringUpDomains ?_ (by decide) | split | dsimp only

theorem execPorRelease_next (p : PorSeen) (s : State) : State.NextOnly s (execPorRelease p s) [.rstc, .brup, .pwr, .gov] := by
  unfold execPorRelease
  repeat' first | with_reducible assumption | with_reducible exact .refl _ _ | with_reducible refine nextOnly_next ?_ | with_reducible refine nextOnly_ite ?_ ?_ | with_reducible refine only_ite ?_ ?_ | with_reducible refine only_modRstc ?_ (by decide) | with_reducible refine only_modPwr ?_ (by decide) | with_reducible refine only_modGov ?_ (by decide) | with_reducible refine only_startBu0 ?_ (by decide) | split | dsimp only

theorem execSupplyMonitorTrip_next (s : State) : State.NextOnly s (execSupplyMonitorTrip s) parts8 := by
  unfold execSupplyMonitorTrip
  repeat' first | with_reducible assumption | with_reducible exact .refl _ _ | with_reducible refine nextOnly_next ?_ | with_reducible refine nextOnly_ite ?_ ?_ | with_reducible refine only_ite ?_ ?_ | with_reducible refine only_modRstc ?_ (by decide) | with_reducible refine only_modPwr ?_ (by decide) | with_reducible refine only_assertReset ?_ (by decide) | with_reducible refine only_absorbReset ?_ (by decide) | split | dsimp only

theorem execSupplyRestore_next (s : State) : State.NextOnly s (execSupplyRestore s) [.rstc, .pwr] := by
  unfold execSupplyRestore
  repeat' first | with_reducible assumption | with_reducible exact .refl _ _ | with_reducible refine nextOnly_next ?_ | with_reducible refine nextOnly_ite ?_ ?_ | with_reducible refine only_ite ?_ ?_ | with_reducible refine only_modRstc ?_ (by decide) | with_reducible refine only_bringUpDomains ?_ (by decide) | split | dsimp only

theorem execThermalTrip_next (sensor : Word) (temp : Word) (s : State) : State.NextOnly s (execThermalTrip sensor temp s) [.flash, .top, .pwr, .gov, .chest, .out] := by
  unfold execThermalTrip
  repeat' first | with_reducible assumption | with_reducible exact .refl _ _ | with_reducible refine nextOnly_next ?_ | with_reducible refine nextOnly_ite ?_ ?_ | with_reducible refine only_ite ?_ ?_ | with_reducible refine only_each ?_ (fun _ _ _ => ?_) | with_reducible refine only_modPwr ?_ (by decide) | with_reducible refine only_modGov ?_ (by decide) | with_reducible refine only_loseEntries ?_ (by decide) | with_reducible refine only_record ?_ (by decide) | with_reducible refine only_copyRequest ?_ (by decide) | with_reducible refine only_placeAll ?_ (by decide) | split | dsimp only

theorem execChestCopyDone_next (s : State) : State.NextOnly s (execChestCopyDone s) parts8 := by
  unfold execChestCopyDone
  repeat' first | with_reducible assumption | with_reducible exact .refl _ _ | with_reducible refine nextOnly_next ?_ | with_reducible refine nextOnly_ite ?_ ?_ | with_reducible refine only_ite ?_ ?_ | with_reducible refine only_finishCopy ?_ (by decide) | with_reducible refine only_assertReset ?_ (by decide) | split | dsimp only

theorem execSysrstNAssert_next (s : State) : State.NextOnly s (execSysrstNAssert s) parts8 := by
  unfold execSysrstNAssert
  repeat' first | with_reducible assumption | with_reducible exact .refl _ _ | with_reducible refine nextOnly_next ?_ | with_reducible refine nextOnly_ite ?_ ?_ | with_reducible refine only_ite ?_ ?_ | with_reducible refine only_modRstc ?_ (by decide) | with_reducible refine only_requestReset ?_ (by decide) | split | dsimp only

theorem execSysrstNRelease_next (s : State) : State.NextOnly s (execSysrstNRelease s) [.rstc, .brup] := by
  unfold execSysrstNRelease
  repeat' first | with_reducible assumption | with_reducible exact .refl _ _ | with_reducible refine nextOnly_next ?_ | with_reducible refine nextOnly_ite ?_ ?_ | with_reducible refine only_ite ?_ ?_ | with_reducible refine only_modRstc ?_ (by decide) | with_reducible refine only_startBu0 ?_ (by decide) | split | dsimp only

theorem execMcWatchdogExpire_next (s : State) : State.NextOnly s (execMcWatchdogExpire s) parts8 := by
  unfold execMcWatchdogExpire
  repeat' first | with_reducible assumption | with_reducible exact .refl _ _ | with_reducible refine nextOnly_next ?_ | with_reducible refine nextOnly_ite ?_ ?_ | with_reducible refine only_ite ?_ ?_ | with_reducible refine only_requestReset ?_ (by decide) | split | dsimp only

theorem execMcLockstepFail_next (pc0 : Word) (pc1 : Word) (s : State) : State.NextOnly s (execMcLockstepFail pc0 pc1 s) parts8 := by
  unfold execMcLockstepFail
  repeat' first | with_reducible assumption | with_reducible exact .refl _ _ | with_reducible refine nextOnly_next ?_ | with_reducible refine nextOnly_ite ?_ ?_ | with_reducible refine only_ite ?_ ?_ | with_reducible refine only_record ?_ (by decide) | with_reducible refine only_attn ?_ (by decide) | with_reducible refine only_setRetireFlag ?_ (by decide) | with_reducible refine only_causeRecord ?_ (by decide) | with_reducible refine only_placeAll ?_ (by decide) | with_reducible refine only_requestReset ?_ (by decide) | split | dsimp only

theorem execLcFuseWriteDone_next (s : State) : State.NextOnly s (execLcFuseWriteDone s) parts10 := by
  unfold execLcFuseWriteDone
  repeat' first | with_reducible assumption | with_reducible exact .refl _ _ | with_reducible refine nextOnly_next ?_ | with_reducible refine nextOnly_ite ?_ ?_ | with_reducible refine only_ite ?_ ?_ | with_reducible refine only_modSec ?_ (by decide) | with_reducible refine only_writeLcFuses ?_ (by decide) | with_reducible refine only_requestReset ?_ (by decide) | split | dsimp only

theorem execTrefRestore_next (s : State) : State.NextOnly s (execTrefRestore s) [.clk] := by
  unfold execTrefRestore
  repeat' first | with_reducible assumption | with_reducible exact .refl _ _ | with_reducible refine nextOnly_next ?_ | with_reducible refine nextOnly_ite ?_ ?_ | with_reducible refine only_ite ?_ ?_ | with_reducible refine only_modClk ?_ (by decide) | split | dsimp only

theorem execBlkResetDone_next (level : BitVec 2) (target : Nat) (s : State) : State.NextOnly s (execBlkResetDone level target s) [.rstc, .mch, .parts, .tiles, .out] := by
  unfold execBlkResetDone
  repeat' first | with_reducible assumption | with_reducible exact .refl _ _ | with_reducible refine nextOnly_next ?_ | with_reducible refine nextOnly_ite ?_ ?_ | with_reducible refine only_ite ?_ ?_ | with_reducible refine only_each ?_ (fun _ _ _ => ?_) | with_reducible refine only_modRstc ?_ (by decide) | with_reducible refine only_updTile ?_ (by decide) | with_reducible refine only_updPart ?_ (by decide) | with_reducible refine only_unfenceQueues ?_ (by decide) | split | dsimp only

theorem execStageBu0_next (flashOk : Bool) (s : State) : State.NextOnly s (execStageBu0 flashOk s) [.rstc, .brup, .pwr, .clk, .sec, .relx, .chest] := by
  unfold execStageBu0
  repeat' first | with_reducible assumption | with_reducible exact .refl _ _ | with_reducible refine nextOnly_next ?_ | with_reducible refine nextOnly_ite ?_ ?_ | with_reducible refine only_ite ?_ ?_ | with_reducible refine only_when ?_ ?_ | with_reducible refine only_modRstc ?_ (by decide) | with_reducible refine only_modBrup ?_ (by decide) | with_reducible refine only_modPwr ?_ (by decide) | with_reducible refine only_modClk ?_ (by decide) | with_reducible refine only_modSec ?_ (by decide) | with_reducible refine only_modRelx ?_ (by decide) | with_reducible refine only_restoreChest ?_ (by decide) | with_reducible refine only_startStage ?_ (by decide) | with_reducible refine only_passStage ?_ (by decide) | with_reducible refine only_failStage ?_ (by decide) | split | dsimp only

theorem execStageBu1_next (selfCheckOk : Bool) (s : State) : State.NextOnly s (execStageBu1 selfCheckOk s) [.rstc, .brup, .ids, .sec, .chest, .tel, .free] := by
  unfold execStageBu1
  repeat' first | with_reducible assumption | with_reducible exact .refl _ _ | with_reducible refine nextOnly_next ?_ | with_reducible refine nextOnly_ite ?_ ?_ | with_reducible refine only_ite ?_ ?_ | with_reducible refine only_modRstc ?_ (by decide) | with_reducible refine only_modBrup ?_ (by decide) | with_reducible refine only_modSec ?_ (by decide) | with_reducible refine only_passStage ?_ (by decide) | with_reducible refine only_failStage ?_ (by decide) | with_reducible refine only_bootIdentity ?_ (by decide) | with_reducible refine only_bootKeys ?_ (by decide) | with_reducible refine only_bootLog ?_ (by decide) | with_reducible refine only_bootTriggers ?_ (by decide) | split | dsimp only

theorem execStageBu2_next (locked : Bool) (s : State) : State.NextOnly s (execStageBu2 locked s) [.brup, .clk, .fret, .chest] := by
  unfold execStageBu2
  repeat' first | with_reducible assumption | with_reducible exact .refl _ _ | with_reducible refine nextOnly_next ?_ | with_reducible refine nextOnly_ite ?_ ?_ | with_reducible refine only_ite ?_ ?_ | with_reducible refine only_modClk ?_ (by decide) | with_reducible refine only_modFret ?_ (by decide) | with_reducible refine only_passStage ?_ (by decide) | with_reducible refine only_failStage ?_ (by decide) | split | dsimp only

theorem execStageBu3_next (ok : Bool) (s : State) : State.NextOnly s (execStageBu3 ok s) [.brup, .chest, .mgt] := by
  unfold execStageBu3
  repeat' first | with_reducible assumption | with_reducible exact .refl _ _ | with_reducible refine nextOnly_next ?_ | with_reducible refine nextOnly_ite ?_ ?_ | with_reducible refine only_ite ?_ ?_ | with_reducible refine only_when ?_ ?_ | with_reducible refine only_modMgt ?_ (by decide) | with_reducible refine only_passStage ?_ (by decide) | with_reducible refine only_failStage ?_ (by decide) | split | dsimp only

theorem execStageBu4_next (spineOk : Bool) (bridgeOk : Bool) (s : State) : State.NextOnly s (execStageBu4 spineOk bridgeOk s) [.flash, .top, .brup, .bist, .healx, .relx, .chest, .spn, .out] := by
  unfold execStageBu4
  repeat' first | with_reducible assumption | with_reducible exact .refl _ _ | with_reducible refine nextOnly_next ?_ | with_reducible refine nextOnly_ite ?_ ?_ | with_reducible refine only_ite ?_ ?_ | with_reducible refine only_each ?_ (fun _ _ _ => ?_) | with_reducible refine only_updSpn ?_ (by decide) | with_reducible refine only_addPeg ?_ (by decide) | with_reducible refine only_passStage ?_ (by decide) | with_reducible refine only_causeStage ?_ (by decide) | split | dsimp only

theorem execStageBu5_next (trained : List (BitVec 16)) (s : State) : State.NextOnly s (execStageBu5 trained s) [.flash, .top, .brup, .pwr, .bist, .healx, .relx, .chest, .parts, .out] := by
  unfold execStageBu5
  repeat' first | with_reducible assumption | with_reducible exact .refl _ _ | with_reducible refine nextOnly_next ?_ | with_reducible refine nextOnly_ite ?_ ?_ | with_reducible refine only_ite ?_ ?_ | with_reducible refine only_each ?_ (fun _ _ _ => ?_) | with_reducible refine only_foldl ?_ (fun _ _ _ => ?_) | with_reducible refine only_foldl2 ?_ (fun _ _ _ => ?_) | with_reducible refine only_modPwr ?_ (by decide) | with_reducible refine only_updPart ?_ (by decide) | with_reducible refine only_addPeg ?_ (by decide) | with_reducible refine only_passStage ?_ (by decide) | with_reducible refine only_causeStage ?_ (by decide) | with_reducible refine only_hbmOn ?_ (by decide) | split | dsimp only

theorem execStageBu6_next (badPart : Option Part) (s : State) : State.NextOnly s (execStageBu6 badPart s) parts12 := by
  unfold execStageBu6
  repeat' first | with_reducible assumption | with_reducible exact .refl _ _ | with_reducible refine nextOnly_next ?_ | with_reducible refine nextOnly_ite ?_ ?_ | with_reducible refine only_ite ?_ ?_ | with_reducible refine only_when ?_ ?_ | with_reducible refine only_each ?_ (fun _ _ _ => ?_) | with_reducible refine only_modRstc ?_ (by decide) | with_reducible refine only_modBrup ?_ (by decide) | with_reducible refine only_modPwr ?_ (by decide) | with_reducible refine only_modGov ?_ (by decide) | with_reducible refine only_modBist ?_ (by decide) | with_reducible refine only_extendLog ?_ (by decide) | with_reducible refine only_freeDigest ?_ (by decide) | with_reducible refine only_rebudget ?_ (by decide) | with_reducible refine only_passStage ?_ (by decide) | with_reducible refine only_failStage ?_ (by decide) | with_reducible refine only_endWork ?_ (by decide) | with_reducible refine only_hbmOn ?_ (by decide) | with_reducible refine only_loadAges ?_ (by decide) | with_reducible refine only_mapChip ?_ (by decide) | with_reducible refine only_releaseTiles ?_ (by decide) | split | dsimp only

theorem execStageBu7_next (f : TestFound) (s : State) : State.NextOnly s (execStageBu7 f s) [.flash, .top, .rstc, .brup, .bist, .heal, .healx, .relx, .chest, .hbm, .tiles, .out] := by
  unfold execStageBu7
  repeat' first | with_reducible assumption | with_reducible exact .refl _ _ | with_reducible refine nextOnly_next ?_ | with_reducible refine nextOnly_ite ?_ ?_ | with_reducible refine only_ite ?_ ?_ | with_reducible refine only_when ?_ ?_ | with_reducible refine only_each ?_ (fun _ _ _ => ?_) | with_reducible refine only_modBrup ?_ (by decide) | with_reducible refine only_faultyWindow ?_ (by decide) | with_reducible refine only_loseHbm ?_ (by decide) | with_reducible refine only_fullTest ?_ (by decide) | with_reducible refine only_endWork ?_ (by decide) | with_reducible refine only_quickTest ?_ (by decide) | with_reducible refine only_applyHealth ?_ (by decide) | split | dsimp only

theorem execStageBu8_next (s : State) : State.NextOnly s (execStageBu8 s) [.flash, .brup] := by
  unfold execStageBu8
  repeat' first | with_reducible assumption | with_reducible exact .refl _ _ | with_reducible refine nextOnly_next ?_ | with_reducible refine nextOnly_ite ?_ ?_ | with_reducible refine only_ite ?_ ?_ | with_reducible refine only_each ?_ (fun _ _ _ => ?_) | with_reducible refine only_addPeg ?_ (by decide) | with_reducible refine only_passStage ?_ (by decide) | split | dsimp only

theorem execStageBu9_next (confirmed : Bool) (s : State) : State.NextOnly s (execStageBu9 confirmed s) [.fuse, .top, .rstc, .brup, .pwr, .fret, .chest, .mch, .out] := by
  unfold execStageBu9
  repeat' first | with_reducible assumption | with_reducible exact .refl _ _ | with_reducible refine nextOnly_next ?_ | with_reducible refine nextOnly_ite ?_ ?_ | with_reducible refine only_ite ?_ ?_ | with_reducible refine only_passStage ?_ (by decide) | with_reducible refine only_failStage ?_ (by decide) | with_reducible refine only_bindMc ?_ (by decide) | with_reducible refine only_reportReady ?_ (by decide) | split | dsimp only

theorem execTwinAttachReceive_next (rs : List AttachRegion) (s : State) : State.NextOnly s (execTwinAttachReceive rs s) [.healx, .relx] := by
  unfold execTwinAttachReceive
  repeat' first | with_reducible assumption | with_reducible exact .refl _ _ | with_reducible refine nextOnly_next ?_ | with_reducible refine nextOnly_ite ?_ ?_ | with_reducible refine only_ite ?_ ?_ | with_reducible refine only_modHealx ?_ (by decide) | with_reducible refine only_configureSink ?_ (by decide) | split | dsimp only

theorem execTwinCopyDone_next (mib : BitVec 32) (s : State) : State.NextOnly s (execTwinCopyDone mib s) [.healx, .relx, .out] := by
  unfold execTwinCopyDone
  repeat' first | with_reducible assumption | with_reducible exact .refl _ _ | with_reducible refine nextOnly_next ?_ | with_reducible refine nextOnly_ite ?_ ?_ | with_reducible refine only_ite ?_ ?_ | with_reducible refine only_each ?_ (fun _ _ _ => ?_) | with_reducible refine only_modHealx ?_ (by decide) | with_reducible refine only_digEnable ?_ (by decide) | with_reducible refine only_attachFail ?_ (by decide) | with_reducible refine only_copyRegion ?_ (by decide) | with_reducible refine only_pair ?_ (by decide) | split | dsimp only

theorem execTwinMirrorSend_next (s : State) : State.NextOnly s (execTwinMirrorSend s) [.mch, .out] := by
  unfold execTwinMirrorSend
  repeat' first | with_reducible assumption | with_reducible exact .refl _ _ | with_reducible refine nextOnly_next ?_ | with_reducible refine nextOnly_ite ?_ ?_ | with_reducible refine only_ite ?_ ?_ | with_reducible refine only_twinSend ?_ (by decide) | split | dsimp only

theorem execTwinMirrorReceive_next (m : MirrorMsg) (s : State) : State.NextOnly s (execTwinMirrorReceive m s) [.healx] := by
  unfold execTwinMirrorReceive
  repeat' first | with_reducible assumption | with_reducible exact .refl _ _ | with_reducible refine nextOnly_next ?_ | with_reducible refine nextOnly_ite ?_ ?_ | with_reducible refine only_ite ?_ ?_ | with_reducible refine only_modHealx ?_ (by decide) | split | dsimp only

theorem execTwinTakeoverReceive_next (s : State) : State.NextOnly s (execTwinTakeoverReceive s) [.top, .healx, .relx, .out] := by
  unfold execTwinTakeoverReceive
  repeat' first | with_reducible assumption | with_reducible exact .refl _ _ | with_reducible refine nextOnly_next ?_ | with_reducible refine nextOnly_ite ?_ ?_ | with_reducible refine only_ite ?_ ?_ | with_reducible refine only_goSolo ?_ (by decide) | split | dsimp only

theorem execTwinDetachReceive_next (s : State) : State.NextOnly s (execTwinDetachReceive s) [.healx, .relx] := by
  unfold execTwinDetachReceive
  repeat' first | with_reducible assumption | with_reducible exact .refl _ _ | with_reducible refine nextOnly_next ?_ | with_reducible refine nextOnly_ite ?_ ?_ | with_reducible refine only_ite ?_ ?_ | with_reducible refine only_modHealx ?_ (by decide) | with_reducible refine only_attachFail ?_ (by decide) | with_reducible refine only_setTwinEn ?_ (by decide) | split | dsimp only

theorem execWormRoute_next (r : Router) (port : Nat) (e : RouteEv) (bad : Option (Fin 18)) (s : State) : State.NextOnly s (execWormRoute r port e bad s) parts13 := by
  unfold execWormRoute
  repeat' first | with_reducible assumption | with_reducible exact .refl _ _ | with_reducible refine nextOnly_next ?_ | with_reducible refine nextOnly_ite ?_ ?_ | with_reducible refine only_ite ?_ ?_ | with_reducible refine only_countRx ?_ (by decide) | with_reducible refine only_headIn ?_ (by decide) | with_reducible refine only_flitsIn ?_ (by decide) | with_reducible refine only_transitAt ?_ (by decide) | with_reducible refine only_slot ?_ (by decide) | split | dsimp only

theorem execWormCut_next (r : Router) (port : Nat) (n : Nat) (atInput : Bool) (s : State) : State.NextOnly s (execWormCut r port n atInput s) [.top, .fret, .rel, .chest, .tel, .spn, .hbm, .fabs, .parts, .tasks, .held, .out] := by
  unfold execWormCut
  repeat' first | with_reducible assumption | with_reducible exact .refl _ _ | with_reducible refine nextOnly_next ?_ | with_reducible refine nextOnly_ite ?_ ?_ | with_reducible refine only_ite ?_ ?_ | with_reducible refine only_cutAt ?_ (by decide) | with_reducible refine only_cutBefore ?_ (by decide) | split | dsimp only

theorem execVcWatchdogExpire_next (r : Router) (outPort : Nat) (vc : BitVec 2) (s : State) : State.NextOnly s (execVcWatchdogExpire r outPort vc s) [.top, .fret, .rel, .chest, .tel, .spn, .hbm, .fabs, .parts, .tasks, .held, .out] := by
  unfold execVcWatchdogExpire
  repeat' first | with_reducible assumption | with_reducible exact .refl _ _ | with_reducible refine nextOnly_next ?_ | with_reducible refine nextOnly_ite ?_ ?_ | with_reducible refine only_ite ?_ ?_ | with_reducible refine only_when ?_ ?_ | with_reducible refine only_updFab ?_ (by decide) | with_reducible refine only_updSpn ?_ (by decide) | with_reducible refine only_recordAt ?_ (by decide) | with_reducible refine only_cutAt ?_ (by decide) | split | dsimp only

theorem execFabPortEnable_next (p : FabPort) (s : State) : State.NextOnly s (execFabPortEnable p s) [.fabs] := by
  unfold execFabPortEnable
  repeat' first | with_reducible assumption | with_reducible exact .refl _ _ | with_reducible refine nextOnly_next ?_ | with_reducible refine nextOnly_ite ?_ ?_ | with_reducible refine only_ite ?_ ?_ | with_reducible refine only_updFab ?_ (by decide) | split | dsimp only

theorem execFabTrainDone_next (p : FabPort) (s : State) : State.NextOnly s (execFabTrainDone p s) [.fabs, .out] := by
  unfold execFabTrainDone
  repeat' first | with_reducible assumption | with_reducible exact .refl _ _ | with_reducible refine nextOnly_next ?_ | with_reducible refine nextOnly_ite ?_ ?_ | with_reducible refine only_ite ?_ ?_ | with_reducible refine only_updFab ?_ (by decide) | with_reducible refine only_emit ?_ (by decide) | split | dsimp only

theorem execFabTrainFail_next (p : FabPort) (lanes : BitVec 8) (s : State) : State.NextOnly s (execFabTrainFail p lanes s) [.top, .fret, .healx, .chest, .spn, .fabs, .tasks, .held, .out] := by
  unfold execFabTrainFail
  repeat' first | with_reducible assumption | with_reducible exact .refl _ _ | with_reducible refine nextOnly_next ?_ | with_reducible refine nextOnly_ite ?_ ?_ | with_reducible refine only_ite ?_ ?_ | with_reducible refine only_updFab ?_ (by decide) | with_reducible refine only_fabDown ?_ (by decide) | split | dsimp only

theorem execFabMeasureDone_next (p : FabPort) (xs : List Exchange) (s : State) : State.NextOnly s (execFabMeasureDone p xs s) [.top, .fret, .healx, .chest, .spn, .fabs, .tasks, .held, .out] := by
  unfold execFabMeasureDone
  repeat' first | with_reducible assumption | with_reducible exact .refl _ _ | with_reducible refine nextOnly_next ?_ | with_reducible refine nextOnly_ite ?_ ?_ | with_reducible refine only_ite ?_ ?_ | with_reducible refine only_updFab ?_ (by decide) | with_reducible refine only_emit ?_ (by decide) | with_reducible refine only_loadFlight ?_ (by decide) | with_reducible refine only_fabDown ?_ (by decide) | split | dsimp only

theorem execFabIdentityReceive_next (p : FabPort) (id : PeerId) (s : State) : State.NextOnly s (execFabIdentityReceive p id s) [.fabs] := by
  unfold execFabIdentityReceive
  repeat' first | with_reducible assumption | with_reducible exact .refl _ _ | with_reducible refine nextOnly_next ?_ | with_reducible refine nextOnly_ite ?_ ?_ | with_reducible refine only_ite ?_ ?_ | with_reducible refine only_updFab ?_ (by decide) | split | dsimp only

theorem execFabLockLost_next (p : FabPort) (s : State) : State.NextOnly s (execFabLockLost p s) [.top, .fret, .healx, .chest, .spn, .fabs, .tasks, .held, .out] := by
  unfold execFabLockLost
  repeat' first | with_reducible assumption | with_reducible exact .refl _ _ | with_reducible refine nextOnly_next ?_ | with_reducible refine nextOnly_ite ?_ ?_ | with_reducible refine only_ite ?_ ?_ | with_reducible refine only_fabDown ?_ (by decide) | split | dsimp only

theorem execFabDownMarkerReceive_next (p : FabPort) (s : State) : State.NextOnly s (execFabDownMarkerReceive p s) [.top, .fret, .healx, .chest, .spn, .fabs, .tasks, .held, .out] := by
  unfold execFabDownMarkerReceive
  repeat' first | with_reducible assumption | with_reducible exact .refl _ _ | with_reducible refine nextOnly_next ?_ | with_reducible refine nextOnly_ite ?_ ?_ | with_reducible refine only_ite ?_ ?_ | with_reducible refine only_fabDown ?_ (by decide) | split | dsimp only

theorem execFabReplayLimit_next (p : FabPort) (s : State) : State.NextOnly s (execFabReplayLimit p s) [.top, .fret, .healx, .chest, .spn, .fabs, .tasks, .held, .out] := by
  unfold execFabReplayLimit
  repeat' first | with_reducible assumption | with_reducible exact .refl _ _ | with_reducible refine nextOnly_next ?_ | with_reducible refine nextOnly_ite ?_ ?_ | with_reducible refine only_ite ?_ ?_ | with_reducible refine only_fabDown ?_ (by decide) | split | dsimp only

theorem execFabLocalRetry_next (p : FabPort) (s : State) : State.NextOnly s (execFabLocalRetry p s) [.tel, .fabs] := by
  unfold execFabLocalRetry
  repeat' first | with_reducible assumption | with_reducible exact .refl _ _ | with_reducible refine nextOnly_next ?_ | with_reducible refine nextOnly_ite ?_ ?_ | with_reducible refine only_ite ?_ ?_ | with_reducible refine only_updFab ?_ (by decide) | with_reducible refine only_updLink ?_ (by decide) | split | dsimp only

theorem execFabReplay_next (p : FabPort) (s : State) : State.NextOnly s (execFabReplay p s) [.tel, .fabs, .out] := by
  unfold execFabReplay
  repeat' first | with_reducible assumption | with_reducible exact .refl _ _ | with_reducible refine nextOnly_next ?_ | with_reducible refine nextOnly_ite ?_ ?_ | with_reducible refine only_ite ?_ ?_ | with_reducible refine only_updFab ?_ (by decide) | with_reducible refine only_emit ?_ (by decide) | with_reducible refine only_updLink ?_ (by decide) | split | dsimp only

theorem execTwHeartbeatSend_next (s : State) : State.NextOnly s (execTwHeartbeatSend s) [.out] := by
  unfold execTwHeartbeatSend
  repeat' first | with_reducible assumption | with_reducible exact .refl _ _ | with_reducible refine nextOnly_next ?_ | with_reducible refine nextOnly_ite ?_ ?_ | with_reducible refine only_ite ?_ ?_ | with_reducible refine only_emit ?_ (by decide) | split | dsimp only

theorem execTwHeartbeatTimeout_next (s : State) : State.NextOnly s (execTwHeartbeatTimeout s) [.top, .healx, .relx, .chest, .fabs, .out] := by
  unfold execTwHeartbeatTimeout
  repeat' first | with_reducible assumption | with_reducible exact .refl _ _ | with_reducible refine nextOnly_next ?_ | with_reducible refine nextOnly_ite ?_ ?_ | with_reducible refine only_ite ?_ ?_ | with_reducible refine only_updFab ?_ (by decide) | with_reducible refine only_recordAt ?_ (by decide) | with_reducible refine only_attn ?_ (by decide) | with_reducible refine only_goSolo ?_ (by decide) | split | dsimp only

theorem execNcnCrcError_next (h : Half) (again : Bool) (s : State) : State.NextOnly s (execNcnCrcError h again s) [.flash, .top, .bist, .healx, .relx, .chest, .spn, .out] := by
  unfold execNcnCrcError
  repeat' first | with_reducible assumption | with_reducible exact .refl _ _ | with_reducible refine nextOnly_next ?_ | with_reducible refine nextOnly_ite ?_ ?_ | with_reducible refine only_ite ?_ ?_ | with_reducible refine only_updSpn ?_ (by decide) | with_reducible refine only_retireCause ?_ (by decide) | split | dsimp only

theorem execRegisterWrite_next (acc : Accessor) (off : Nat) (len : Nat) (v : Word) (s : State) : State.NextOnly s (execRegisterWrite acc off len v s) parts9 := by
  unfold execRegisterWrite
  repeat' first | with_reducible assumption | with_reducible exact .refl _ _ | with_reducible refine nextOnly_next ?_ | with_reducible refine nextOnly_ite ?_ ?_ | with_reducible refine only_ite ?_ ?_ | with_reducible refine only_accWrite ?_ (by decide) | split | dsimp only

theorem execBar0MultiwordAccess_next (acc : Accessor) (off : Nat) (m : MultiWord) (s : State) : State.NextOnly s (execBar0MultiwordAccess acc off m s) parts9 := by
  unfold execBar0MultiwordAccess
  repeat' first | with_reducible assumption | with_reducible exact .refl _ _ | with_reducible refine nextOnly_next ?_ | with_reducible refine nextOnly_ite ?_ ?_ | with_reducible refine only_ite ?_ ?_ | with_reducible refine only_each ?_ (fun _ _ _ => ?_) | with_reducible refine only_foldl ?_ (fun _ _ _ => ?_) | with_reducible refine only_foldl2 ?_ (fun _ _ _ => ?_) | with_reducible refine only_emit ?_ (by decide) | with_reducible refine only_accWrite ?_ (by decide) | with_reducible refine only_readWord ?_ (by decide) | split | dsimp only

theorem execCounterLoRead_next (acc : Accessor) (off : Nat) (s : State) : State.NextOnly s (execCounterLoRead acc off s) [.tel, .latches, .out] := by
  unfold execCounterLoRead
  repeat' first | with_reducible assumption | with_reducible exact .refl _ _ | with_reducible refine nextOnly_next ?_ | with_reducible refine nextOnly_ite ?_ ?_ | with_reducible refine only_ite ?_ ?_ | with_reducible refine only_emit ?_ (by decide) | with_reducible refine only_bar0Read ?_ (by decide) | split | dsimp only

theorem execChestOldRead_next (acc : Accessor) (s : State) : State.NextOnly s (execChestOldRead acc s) [.tel, .latches, .out] := by
  unfold execChestOldRead
  repeat' first | with_reducible assumption | with_reducible exact .refl _ _ | with_reducible refine nextOnly_next ?_ | with_reducible refine nextOnly_ite ?_ ?_ | with_reducible refine only_ite ?_ ?_ | with_reducible refine only_emit ?_ (by decide) | with_reducible refine only_bar0Read ?_ (by decide) | split | dsimp only

theorem execFretDomainWrite_next (acc : Accessor) (v : Word) (s : State) : State.NextOnly s (execFretDomainWrite acc v s) parts9 := by
  unfold execFretDomainWrite
  repeat' first | with_reducible assumption | with_reducible exact .refl _ _ | with_reducible refine nextOnly_next ?_ | with_reducible refine nextOnly_ite ?_ ?_ | with_reducible refine only_ite ?_ ?_ | with_reducible refine only_accWrite ?_ (by decide) | split | dsimp only

theorem execClkChangeGo_next (acc : Accessor) (v : Word) (s : State) : State.NextOnly s (execClkChangeGo acc v s) parts9 := by
  unfold execClkChangeGo
  repeat' first | with_reducible assumption | with_reducible exact .refl _ _ | with_reducible refine nextOnly_next ?_ | with_reducible refine nextOnly_ite ?_ ?_ | with_reducible refine only_ite ?_ ?_ | with_reducible refine only_accWrite ?_ (by decide) | split | dsimp only

theorem execClkHalfSet_next (acc : Accessor) (v : Word) (s : State) : State.NextOnly s (execClkHalfSet acc v s) parts9 := by
  unfold execClkHalfSet
  repeat' first | with_reducible assumption | with_reducible exact .refl _ _ | with_reducible refine nextOnly_next ?_ | with_reducible refine nextOnly_ite ?_ ?_ | with_reducible refine only_ite ?_ ?_ | with_reducible refine only_accWrite ?_ (by decide) | split | dsimp only

theorem execClkHalfRestore_next (acc : Accessor) (v : Word) (s : State) : State.NextOnly s (execClkHalfRestore acc v s) parts9 := by
  unfold execClkHalfRestore
  repeat' first | with_reducible assumption | with_reducible exact .refl _ _ | with_reducible refine nextOnly_next ?_ | with_reducible refine nextOnly_ite ?_ ?_ | with_reducible refine only_ite ?_ ?_ | with_reducible refine only_accWrite ?_ (by decide) | split | dsimp only

theorem execConnOpen_next (acc : Accessor) (v : Word) (s : State) : State.NextOnly s (execConnOpen acc v s) parts9 := by
  unfold execConnOpen
  repeat' first | with_reducible assumption | with_reducible exact .refl _ _ | with_reducible refine nextOnly_next ?_ | with_reducible refine nextOnly_ite ?_ ?_ | with_reducible refine only_ite ?_ ?_ | with_reducible refine only_accWrite ?_ (by decide) | split | dsimp only

theorem execConnClose_next (acc : Accessor) (v : Word) (s : State) : State.NextOnly s (execConnClose acc v s) parts9 := by
  unfold execConnClose
  repeat' first | with_reducible assumption | with_reducible exact .refl _ _ | with_reducible refine nextOnly_next ?_ | with_reducible refine nextOnly_ite ?_ ?_ | with_reducible refine only_ite ?_ ?_ | with_reducible refine only_accWrite ?_ (by decide) | split | dsimp only

theorem execQueueBind_next (acc : Accessor) (v : Word) (s : State) : State.NextOnly s (execQueueBind acc v s) parts9 := by
  unfold execQueueBind
  repeat' first | with_reducible assumption | with_reducible exact .refl _ _ | with_reducible refine nextOnly_next ?_ | with_reducible refine nextOnly_ite ?_ ?_ | with_reducible refine only_ite ?_ ?_ | with_reducible refine only_accWrite ?_ (by decide) | split | dsimp only

theorem execQueueUnbind_next (acc : Accessor) (v : Word) (s : State) : State.NextOnly s (execQueueUnbind acc v s) parts9 := by
  unfold execQueueUnbind
  repeat' first | with_reducible assumption | with_reducible exact .refl _ _ | with_reducible refine nextOnly_next ?_ | with_reducible refine nextOnly_ite ?_ ?_ | with_reducible refine only_ite ?_ ?_ | with_reducible refine only_accWrite ?_ (by decide) | split | dsimp only

theorem execDigestEnable_next (acc : Accessor) (v : Word) (s : State) : State.NextOnly s (execDigestEnable acc v s) parts9 := by
  unfold execDigestEnable
  repeat' first | with_reducible assumption | with_reducible exact .refl _ _ | with_reducible refine nextOnly_next ?_ | with_reducible refine nextOnly_ite ?_ ?_ | with_reducible refine only_ite ?_ ?_ | with_reducible refine only_accWrite ?_ (by decide) | split | dsimp only

theorem execDigestDisable_next (acc : Accessor) (v : Word) (s : State) : State.NextOnly s (execDigestDisable acc v s) parts9 := by
  unfold execDigestDisable
  repeat' first | with_reducible assumption | with_reducible exact .refl _ _ | with_reducible refine nextOnly_next ?_ | with_reducible refine nextOnly_ite ?_ ?_ | with_reducible refine only_ite ?_ ?_ | with_reducible refine only_accWrite ?_ (by decide) | split | dsimp only

theorem execDigestVerify_next (acc : Accessor) (v : Word) (s : State) : State.NextOnly s (execDigestVerify acc v s) parts9 := by
  unfold execDigestVerify
  repeat' first | with_reducible assumption | with_reducible exact .refl _ _ | with_reducible refine nextOnly_next ?_ | with_reducible refine nextOnly_ite ?_ ?_ | with_reducible refine only_ite ?_ ?_ | with_reducible refine only_accWrite ?_ (by decide) | split | dsimp only

theorem execDigestCfgWrite_next (acc : Accessor) (v : Word) (s : State) : State.NextOnly s (execDigestCfgWrite acc v s) parts9 := by
  unfold execDigestCfgWrite
  repeat' first | with_reducible assumption | with_reducible exact .refl _ _ | with_reducible refine nextOnly_next ?_ | with_reducible refine nextOnly_ite ?_ ?_ | with_reducible refine only_ite ?_ ?_ | with_reducible refine only_accWrite ?_ (by decide) | split | dsimp only

theorem execHealFence_next (acc : Accessor) (v : Word) (s : State) : State.NextOnly s (execHealFence acc v s) parts9 := by
  unfold execHealFence
  repeat' first | with_reducible assumption | with_reducible exact .refl _ _ | with_reducible refine nextOnly_next ?_ | with_reducible refine nextOnly_ite ?_ ?_ | with_reducible refine only_ite ?_ ?_ | with_reducible refine only_accWrite ?_ (by decide) | split | dsimp only

theorem execHealRotate_next (acc : Accessor) (v : Word) (s : State) : State.NextOnly s (execHealRotate acc v s) parts9 := by
  unfold execHealRotate
  repeat' first | with_reducible assumption | with_reducible exact .refl _ _ | with_reducible refine nextOnly_next ?_ | with_reducible refine nextOnly_ite ?_ ?_ | with_reducible refine only_ite ?_ ?_ | with_reducible refine only_accWrite ?_ (by decide) | split | dsimp only

theorem execHealPartitionRecovery_next (acc : Accessor) (v : Word) (s : State) : State.NextOnly s (execHealPartitionRecovery acc v s) parts9 := by
  unfold execHealPartitionRecovery
  repeat' first | with_reducible assumption | with_reducible exact .refl _ _ | with_reducible refine nextOnly_next ?_ | with_reducible refine nextOnly_ite ?_ ?_ | with_reducible refine only_ite ?_ ?_ | with_reducible refine only_accWrite ?_ (by decide) | split | dsimp only

theorem execTwinAttachSource_next (acc : Accessor) (v : Word) (s : State) : State.NextOnly s (execTwinAttachSource acc v s) parts9 := by
  unfold execTwinAttachSource
  repeat' first | with_reducible assumption | with_reducible exact .refl _ _ | with_reducible refine nextOnly_next ?_ | with_reducible refine nextOnly_ite ?_ ?_ | with_reducible refine only_ite ?_ ?_ | with_reducible refine only_accWrite ?_ (by decide) | split | dsimp only

theorem execTwinAttachSink_next (acc : Accessor) (v : Word) (s : State) : State.NextOnly s (execTwinAttachSink acc v s) parts9 := by
  unfold execTwinAttachSink
  repeat' first | with_reducible assumption | with_reducible exact .refl _ _ | with_reducible refine nextOnly_next ?_ | with_reducible refine nextOnly_ite ?_ ?_ | with_reducible refine only_ite ?_ ?_ | with_reducible refine only_accWrite ?_ (by decide) | split | dsimp only

theorem execTwinDetach_next (acc : Accessor) (v : Word) (s : State) : State.NextOnly s (execTwinDetach acc v s) parts9 := by
  unfold execTwinDetach
  repeat' first | with_reducible assumption | with_reducible exact .refl _ _ | with_reducible refine nextOnly_next ?_ | with_reducible refine nextOnly_ite ?_ ?_ | with_reducible refine only_ite ?_ ?_ | with_reducible refine only_accWrite ?_ (by decide) | split | dsimp only

theorem execRstcReqCore_next (acc : Accessor) (v : Word) (s : State) : State.NextOnly s (execRstcReqCore acc v s) parts9 := by
  unfold execRstcReqCore
  repeat' first | with_reducible assumption | with_reducible exact .refl _ _ | with_reducible refine nextOnly_next ?_ | with_reducible refine nextOnly_ite ?_ ?_ | with_reducible refine only_ite ?_ ?_ | with_reducible refine only_accWrite ?_ (by decide) | split | dsimp only

theorem execRstcReqSystem_next (acc : Accessor) (v : Word) (s : State) : State.NextOnly s (execRstcReqSystem acc v s) parts9 := by
  unfold execRstcReqSystem
  repeat' first | with_reducible assumption | with_reducible exact .refl _ _ | with_reducible refine nextOnly_next ?_ | with_reducible refine nextOnly_ite ?_ ?_ | with_reducible refine only_ite ?_ ?_ | with_reducible refine only_accWrite ?_ (by decide) | split | dsimp only

theorem execBlkMaintenanceReset_next (acc : Accessor) (v : Word) (s : State) : State.NextOnly s (execBlkMaintenanceReset acc v s) parts9 := by
  unfold execBlkMaintenanceReset
  repeat' first | with_reducible assumption | with_reducible exact .refl _ _ | with_reducible refine nextOnly_next ?_ | with_reducible refine nextOnly_ite ?_ ?_ | with_reducible refine only_ite ?_ ?_ | with_reducible refine only_accWrite ?_ (by decide) | split | dsimp only

theorem execBlkRecoveryReset_next (acc : Accessor) (v : Word) (s : State) : State.NextOnly s (execBlkRecoveryReset acc v s) parts9 := by
  unfold execBlkRecoveryReset
  repeat' first | with_reducible assumption | with_reducible exact .refl _ _ | with_reducible refine nextOnly_next ?_ | with_reducible refine nextOnly_ite ?_ ?_ | with_reducible refine only_ite ?_ ?_ | with_reducible refine only_accWrite ?_ (by decide) | split | dsimp only

theorem execBrupStartStage_next (acc : Accessor) (v : Word) (s : State) : State.NextOnly s (execBrupStartStage acc v s) parts9 := by
  unfold execBrupStartStage
  repeat' first | with_reducible assumption | with_reducible exact .refl _ _ | with_reducible refine nextOnly_next ?_ | with_reducible refine nextOnly_ite ?_ ?_ | with_reducible refine only_ite ?_ ?_ | with_reducible refine only_accWrite ?_ (by decide) | split | dsimp only

theorem execBrupPause_next (acc : Accessor) (v : Word) (s : State) : State.NextOnly s (execBrupPause acc v s) parts9 := by
  unfold execBrupPause
  repeat' first | with_reducible assumption | with_reducible exact .refl _ _ | with_reducible refine nextOnly_next ?_ | with_reducible refine nextOnly_ite ?_ ?_ | with_reducible refine only_ite ?_ ?_ | with_reducible refine only_accWrite ?_ (by decide) | split | dsimp only

theorem execBrupResume_next (acc : Accessor) (v : Word) (s : State) : State.NextOnly s (execBrupResume acc v s) parts9 := by
  unfold execBrupResume
  repeat' first | with_reducible assumption | with_reducible exact .refl _ _ | with_reducible refine nextOnly_next ?_ | with_reducible refine nextOnly_ite ?_ ?_ | with_reducible refine only_ite ?_ ?_ | with_reducible refine only_accWrite ?_ (by decide) | split | dsimp only

theorem execBrupBootPushed_next (acc : Accessor) (v : Word) (s : State) : State.NextOnly s (execBrupBootPushed acc v s) parts9 := by
  unfold execBrupBootPushed
  repeat' first | with_reducible assumption | with_reducible exact .refl _ _ | with_reducible refine nextOnly_next ?_ | with_reducible refine nextOnly_ite ?_ ?_ | with_reducible refine only_ite ?_ ?_ | with_reducible refine only_accWrite ?_ (by decide) | split | dsimp only

theorem execBrupProgram_next (acc : Accessor) (v : Word) (s : State) : State.NextOnly s (execBrupProgram acc v s) parts9 := by
  unfold execBrupProgram
  repeat' first | with_reducible assumption | with_reducible exact .refl _ _ | with_reducible refine nextOnly_next ?_ | with_reducible refine nextOnly_ite ?_ ?_ | with_reducible refine only_ite ?_ ?_ | with_reducible refine only_accWrite ?_ (by decide) | split | dsimp only

theorem execPwrParkNow_next (acc : Accessor) (v : Word) (s : State) : State.NextOnly s (execPwrParkNow acc v s) parts9 := by
  unfold execPwrParkNow
  repeat' first | with_reducible assumption | with_reducible exact .refl _ _ | with_reducible refine nextOnly_next ?_ | with_reducible refine nextOnly_ite ?_ ?_ | with_reducible refine only_ite ?_ ?_ | with_reducible refine only_accWrite ?_ (by decide) | split | dsimp only

theorem execBudgetWrite_next (acc : Accessor) (v : Word) (s : State) : State.NextOnly s (execBudgetWrite acc v s) parts9 := by
  unfold execBudgetWrite
  repeat' first | with_reducible assumption | with_reducible exact .refl _ _ | with_reducible refine nextOnly_next ?_ | with_reducible refine nextOnly_ite ?_ ?_ | with_reducible refine only_ite ?_ ?_ | with_reducible refine only_accWrite ?_ (by decide) | split | dsimp only

theorem execPegRetuneAll_next (acc : Accessor) (v : Word) (s : State) : State.NextOnly s (execPegRetuneAll acc v s) parts9 := by
  unfold execPegRetuneAll
  repeat' first | with_reducible assumption | with_reducible exact .refl _ _ | with_reducible refine nextOnly_next ?_ | with_reducible refine nextOnly_ite ?_ ?_ | with_reducible refine only_ite ?_ ?_ | with_reducible refine only_accWrite ?_ (by decide) | split | dsimp only

theorem execLcTransitionRequest_next (acc : Accessor) (v : Word) (s : State) : State.NextOnly s (execLcTransitionRequest acc v s) parts9 := by
  unfold execLcTransitionRequest
  repeat' first | with_reducible assumption | with_reducible exact .refl _ _ | with_reducible refine nextOnly_next ?_ | with_reducible refine nextOnly_ite ?_ ?_ | with_reducible refine only_ite ?_ ?_ | with_reducible refine only_accWrite ?_ (by decide) | split | dsimp only

theorem execIdGenerate_next (acc : Accessor) (v : Word) (s : State) : State.NextOnly s (execIdGenerate acc v s) parts9 := by
  unfold execIdGenerate
  repeat' first | with_reducible assumption | with_reducible exact .refl _ _ | with_reducible refine nextOnly_next ?_ | with_reducible refine nextOnly_ite ?_ ?_ | with_reducible refine only_ite ?_ ?_ | with_reducible refine only_accWrite ?_ (by decide) | split | dsimp only

theorem execOpkWrite_next (acc : Accessor) (v : Word) (s : State) : State.NextOnly s (execOpkWrite acc v s) parts9 := by
  unfold execOpkWrite
  repeat' first | with_reducible assumption | with_reducible exact .refl _ _ | with_reducible refine nextOnly_next ?_ | with_reducible refine nextOnly_ite ?_ ?_ | with_reducible refine only_ite ?_ ?_ | with_reducible refine only_accWrite ?_ (by decide) | split | dsimp only

theorem execOpkErase_next (acc : Accessor) (v : Word) (s : State) : State.NextOnly s (execOpkErase acc v s) parts9 := by
  unfold execOpkErase
  repeat' first | with_reducible assumption | with_reducible exact .refl _ _ | with_reducible refine nextOnly_next ?_ | with_reducible refine nextOnly_ite ?_ ?_ | with_reducible refine only_ite ?_ ?_ | with_reducible refine only_accWrite ?_ (by decide) | split | dsimp only

theorem execQuoteRequest_next (acc : Accessor) (v : Word) (s : State) : State.NextOnly s (execQuoteRequest acc v s) parts9 := by
  unfold execQuoteRequest
  repeat' first | with_reducible assumption | with_reducible exact .refl _ _ | with_reducible refine nextOnly_next ?_ | with_reducible refine nextOnly_ite ?_ ?_ | with_reducible refine only_ite ?_ ?_ | with_reducible refine only_accWrite ?_ (by decide) | split | dsimp only

theorem execShutdownTestStart_next (acc : Accessor) (v : Word) (s : State) : State.NextOnly s (execShutdownTestStart acc v s) parts9 := by
  unfold execShutdownTestStart
  repeat' first | with_reducible assumption | with_reducible exact .refl _ _ | with_reducible refine nextOnly_next ?_ | with_reducible refine nextOnly_ite ?_ ?_ | with_reducible refine only_ite ?_ ?_ | with_reducible refine only_accWrite ?_ (by decide) | split | dsimp only

theorem execFlightRemeasure_next (acc : Accessor) (port : FabPort) (s : State) : State.NextOnly s (execFlightRemeasure acc port s) parts9 := by
  unfold execFlightRemeasure
  repeat' first | with_reducible assumption | with_reducible exact .refl _ _ | with_reducible refine nextOnly_next ?_ | with_reducible refine nextOnly_ite ?_ ?_ | with_reducible refine only_ite ?_ ?_ | with_reducible refine only_accWrite ?_ (by decide) | split | dsimp only

theorem execLpFlush_next (acc : Accessor) (p : Part) (v : Word) (s : State) : State.NextOnly s (execLpFlush acc p v s) parts9 := by
  unfold execLpFlush
  repeat' first | with_reducible assumption | with_reducible exact .refl _ _ | with_reducible refine nextOnly_next ?_ | with_reducible refine nextOnly_ite ?_ ?_ | with_reducible refine only_ite ?_ ?_ | with_reducible refine only_accWrite ?_ (by decide) | split | dsimp only

theorem execKvpEnable_next (acc : Accessor) (n : Fin 16) (v : Word) (s : State) : State.NextOnly s (execKvpEnable acc n v s) parts9 := by
  unfold execKvpEnable
  repeat' first | with_reducible assumption | with_reducible exact .refl _ _ | with_reducible refine nextOnly_next ?_ | with_reducible refine nextOnly_ite ?_ ?_ | with_reducible refine only_ite ?_ ?_ | with_reducible refine only_accWrite ?_ (by decide) | split | dsimp only

theorem execFabPortDisable_next (acc : Accessor) (p : FabPort) (v : Word) (s : State) : State.NextOnly s (execFabPortDisable acc p v s) parts9 := by
  unfold execFabPortDisable
  repeat' first | with_reducible assumption | with_reducible exact .refl _ _ | with_reducible refine nextOnly_next ?_ | with_reducible refine nextOnly_ite ?_ ?_ | with_reducible refine only_ite ?_ ?_ | with_reducible refine only_accWrite ?_ (by decide) | split | dsimp only

theorem execNqHeadWrite_next (acc : Accessor) (port : HostPort) (v : Word) (s : State) : State.NextOnly s (execNqHeadWrite acc port v s) parts9 := by
  unfold execNqHeadWrite
  repeat' first | with_reducible assumption | with_reducible exact .refl _ _ | with_reducible refine nextOnly_next ?_ | with_reducible refine nextOnly_ite ?_ ?_ | with_reducible refine only_ite ?_ ?_ | with_reducible refine only_accWrite ?_ (by decide) | split | dsimp only

theorem execRxConsume_next (acc : Accessor) (port : HostPort) (v : Word) (s : State) : State.NextOnly s (execRxConsume acc port v s) parts9 := by
  unfold execRxConsume
  repeat' first | with_reducible assumption | with_reducible exact .refl _ _ | with_reducible refine nextOnly_next ?_ | with_reducible refine nextOnly_ite ?_ ?_ | with_reducible refine only_ite ?_ ?_ | with_reducible refine only_accWrite ?_ (by decide) | split | dsimp only

theorem execOwnerClaim_next (acc : Accessor) (s : State) : State.NextOnly s (execOwnerClaim acc s) parts9 := by
  unfold execOwnerClaim
  repeat' first | with_reducible assumption | with_reducible exact .refl _ _ | with_reducible refine nextOnly_next ?_ | with_reducible refine nextOnly_ite ?_ ?_ | with_reducible refine only_ite ?_ ?_ | with_reducible refine only_accWrite ?_ (by decide) | split | dsimp only

theorem execOwnerRelease_next (acc : Accessor) (s : State) : State.NextOnly s (execOwnerRelease acc s) parts9 := by
  unfold execOwnerRelease
  repeat' first | with_reducible assumption | with_reducible exact .refl _ _ | with_reducible refine nextOnly_next ?_ | with_reducible refine nextOnly_ite ?_ ?_ | with_reducible refine only_ite ?_ ?_ | with_reducible refine only_accWrite ?_ (by decide) | split | dsimp only

theorem execOwnerGive_next (acc : Accessor) (s : State) : State.NextOnly s (execOwnerGive acc s) parts9 := by
  unfold execOwnerGive
  repeat' first | with_reducible assumption | with_reducible exact .refl _ _ | with_reducible refine nextOnly_next ?_ | with_reducible refine nextOnly_ite ?_ ?_ | with_reducible refine only_ite ?_ ?_ | with_reducible refine only_accWrite ?_ (by decide) | split | dsimp only

theorem execPwrWake_next (acc : Accessor) (byAllow : Bool) (v : Word) (s : State) : State.NextOnly s (execPwrWake acc byAllow v s) parts9 := by
  unfold execPwrWake
  repeat' first | with_reducible assumption | with_reducible exact .refl _ _ | with_reducible refine nextOnly_next ?_ | with_reducible refine nextOnly_ite ?_ ?_ | with_reducible refine only_ite ?_ ?_ | with_reducible refine only_accWrite ?_ (by decide) | split | dsimp only

theorem execMgtPortLinkUp_next (port : MgmtPort) (s : State) : State.NextOnly s (execMgtPortLinkUp port s) [.mgt] := by
  unfold execMgtPortLinkUp
  repeat' first | with_reducible assumption | with_reducible exact .refl _ _ | with_reducible refine nextOnly_next ?_ | with_reducible refine nextOnly_ite ?_ ?_ | with_reducible refine only_ite ?_ ?_ | with_reducible refine only_updMgmtPort ?_ (by decide) | split | dsimp only

theorem execMgtPortLinkDown_next (port : MgmtPort) (s : State) : State.NextOnly s (execMgtPortLinkDown port s) [.mgt] := by
  unfold execMgtPortLinkDown
  repeat' first | with_reducible assumption | with_reducible exact .refl _ _ | with_reducible refine nextOnly_next ?_ | with_reducible refine nextOnly_ite ?_ ?_ | with_reducible refine only_ite ?_ ?_ | with_reducible refine only_updMgmtPort ?_ (by decide) | split | dsimp only

theorem execMgtNdEcho_next (port : MgmtPort) (dst : BitVec 128) (echo : Bool) (payload : List Byte) (s : State) : State.NextOnly s (execMgtNdEcho port dst echo payload s) [.out] := by
  unfold execMgtNdEcho
  repeat' first | with_reducible assumption | with_reducible exact .refl _ _ | with_reducible refine nextOnly_next ?_ | with_reducible refine nextOnly_ite ?_ ?_ | with_reducible refine only_ite ?_ ?_ | with_reducible refine only_emit ?_ (by decide) | split | dsimp only

theorem execMgmtSystemReset_next (d : Datagram) (s : State) : State.NextOnly s (execMgmtSystemReset d s) parts8 := by
  unfold execMgmtSystemReset
  repeat' first | with_reducible assumption | with_reducible exact .refl _ _ | with_reducible refine nextOnly_next ?_ | with_reducible refine nextOnly_ite ?_ ?_ | with_reducible refine only_ite ?_ ?_ | with_reducible refine only_requestReset ?_ (by decide) | with_reducible refine only_mgmtCommand ?_ (fun _ _ => ?_) (by decide) | with_reducible refine only_changes ?_ (by decide) | split | dsimp only

theorem execMgmtCoreReset_next (d : Datagram) (s : State) : State.NextOnly s (execMgmtCoreReset d s) parts8 := by
  unfold execMgmtCoreReset
  repeat' first | with_reducible assumption | with_reducible exact .refl _ _ | with_reducible refine nextOnly_next ?_ | with_reducible refine nextOnly_ite ?_ ?_ | with_reducible refine only_ite ?_ ?_ | with_reducible refine only_requestReset ?_ (by decide) | with_reducible refine only_mgmtCommand ?_ (fun _ _ => ?_) (by decide) | with_reducible refine only_changes ?_ (by decide) | split | dsimp only

theorem execMgmtAssignOwner_next (d : Datagram) (s : State) : State.NextOnly s (execMgmtAssignOwner d s) [.flash, .top, .ids, .sec, .chest, .mgt, .out] := by
  unfold execMgmtAssignOwner
  repeat' first | with_reducible assumption | with_reducible exact .refl _ _ | with_reducible refine nextOnly_next ?_ | with_reducible refine nextOnly_ite ?_ ?_ | with_reducible refine only_ite ?_ ?_ | with_reducible refine only_setOwner ?_ (by decide) | with_reducible refine only_mgmtCommand ?_ (fun _ _ => ?_) (by decide) | with_reducible refine only_changes ?_ (by decide) | split | dsimp only

theorem execMgmtSetBudget_next (d : Datagram) (s : State) : State.NextOnly s (execMgmtSetBudget d s) [.flash, .top, .pwr, .fret, .ids, .sec, .chest, .mgt, .out] := by
  unfold execMgmtSetBudget
  repeat' first | with_reducible assumption | with_reducible exact .refl _ _ | with_reducible refine nextOnly_next ?_ | with_reducible refine nextOnly_ite ?_ ?_ | with_reducible refine only_ite ?_ ?_ | with_reducible refine only_setMgmtBudget ?_ (by decide) | with_reducible refine only_mgmtCommand ?_ (fun _ _ => ?_) (by decide) | with_reducible refine only_changes ?_ (by decide) | split | dsimp only

theorem execMgmtChestClear_next (d : Datagram) (s : State) : State.NextOnly s (execMgmtChestClear d s) [.flash, .top, .ids, .sec, .chest, .mgt, .out] := by
  unfold execMgmtChestClear
  repeat' first | with_reducible assumption | with_reducible exact .refl _ _ | with_reducible refine nextOnly_next ?_ | with_reducible refine nextOnly_ite ?_ ?_ | with_reducible refine only_ite ?_ ?_ | with_reducible refine only_clearChest ?_ (by decide) | with_reducible refine only_mgmtCommand ?_ (fun _ _ => ?_) (by decide) | with_reducible refine only_changes ?_ (by decide) | split | dsimp only

theorem execMgmtClearRetire_next (d : Datagram) (s : State) : s.NextOnly (execMgmtClearRetire d s) [.flash, .top, .ids, .sec, .relx, .chest, .mgt, .out] := by
  refine nextOnly_next (only_mgmtCommand (.refl _ _) (fun u hu => ?_) (by decide))
  by_cases h : u.sec.lc = .ret
  · simp only [h, if_true]; exact only_changes (only_clearRetire hu (by decide)) (by decide)
  · simp only [h, if_false]

theorem execMgmtQuote_next (d : Datagram) (s : State) : State.NextOnly s (execMgmtQuote d s) [.flash, .ids, .sec, .mgt] := by
  unfold execMgmtQuote
  repeat' first | with_reducible assumption | with_reducible exact .refl _ _ | with_reducible refine nextOnly_next ?_ | with_reducible refine nextOnly_ite ?_ ?_ | with_reducible refine only_ite ?_ ?_ | with_reducible refine only_when ?_ ?_ | with_reducible refine only_modSec ?_ (by decide) | with_reducible refine only_askSign ?_ (by decide) | with_reducible refine only_mgmtCommand ?_ (fun _ _ => ?_) (by decide) | split | dsimp only

theorem execMgmtWriteReg_next (d : Datagram) (s : State) : s.NextOnly (execMgmtWriteReg d s) parts9 := by
  refine nextOnly_next (only_mgmtCommand (.refl _ _) (fun u hu => ?_) (by decide))
  by_cases h : d.body.length = 8
  · simp only [ne_eq, h, not_true, if_false]; exact only_changes (only_bar0Write hu (by decide)) (by decide)
  · simp only [ne_eq, h, not_false_eq_true, if_true]

theorem execMgmtUnknownCommand_next (d : Datagram) (code : BitVec 8) (s : State) :
    s.NextOnly (execMgmtUnknownCommand d code s) [.flash, .ids, .sec, .mgt] := by
  unfold execMgmtUnknownCommand
  exact nextOnly_ite (nextOnly_next (.refl _ _)) (nextOnly_next (only_mgmtCommand (.refl _ _) (fun _ _ => trivial) (by decide)))

theorem execScriptReplayStart_next (s : State) : State.NextOnly s (execScriptReplayStart s) [.brup] := by
  unfold execScriptReplayStart
  repeat' first | with_reducible assumption | with_reducible exact .refl _ _ | with_reducible refine nextOnly_next ?_ | with_reducible refine nextOnly_ite ?_ ?_ | with_reducible refine only_ite ?_ ?_ | with_reducible refine only_modBrup ?_ (by decide) | split | dsimp only

theorem execScriptWrite_next (s : State) : State.NextOnly s (execScriptWrite s) parts9 := by
  unfold execScriptWrite
  repeat' first | with_reducible assumption | with_reducible exact .refl _ _ | with_reducible refine nextOnly_next ?_ | with_reducible refine nextOnly_ite ?_ ?_ | with_reducible refine only_ite ?_ ?_ | with_reducible refine only_runRecord ?_ (fun _ _ _ => ?_) (by decide) | with_reducible refine only_seqWrite ?_ (by decide) | split | dsimp only

theorem execScriptModify_next (s : State) : State.NextOnly s (execScriptModify s) parts9 := by
  unfold execScriptModify
  repeat' first | with_reducible assumption | with_reducible exact .refl _ _ | with_reducible refine nextOnly_next ?_ | with_reducible refine nextOnly_ite ?_ ?_ | with_reducible refine only_ite ?_ ?_ | with_reducible refine only_bar0Read ?_ (by decide) | with_reducible refine only_runRecord ?_ (fun _ _ _ => ?_) (by decide) | with_reducible refine only_seqWrite ?_ (by decide) | split | dsimp only

theorem execScriptPoll_next (s : State) : State.NextOnly s (execScriptPoll s) [.brup] := by
  unfold execScriptPoll
  repeat' first | with_reducible assumption | with_reducible exact .refl _ _ | with_reducible refine nextOnly_next ?_ | with_reducible refine nextOnly_ite ?_ ?_ | with_reducible refine only_ite ?_ ?_ | with_reducible refine only_modBrup ?_ (by decide) | with_reducible refine only_runRecord ?_ (fun _ _ _ => ?_) (by decide) | split | dsimp only

theorem execScriptPollMatch_next (s : State) : State.NextOnly s (execScriptPollMatch s) [.brup, .tel, .latches] := by
  unfold execScriptPollMatch
  repeat' first | with_reducible assumption | with_reducible exact .refl _ _ | with_reducible refine nextOnly_next ?_ | with_reducible refine nextOnly_ite ?_ ?_ | with_reducible refine only_ite ?_ ?_ | with_reducible refine only_modBrup ?_ (by decide) | with_reducible refine only_bar0Read ?_ (by decide) | split | dsimp only

theorem execScriptPollTimeout_next (s : State) : State.NextOnly s (execScriptPollTimeout s) [.brup] := by
  unfold execScriptPollTimeout
  repeat' first | with_reducible assumption | with_reducible exact .refl _ _ | with_reducible refine nextOnly_next ?_ | with_reducible refine nextOnly_ite ?_ ?_ | with_reducible refine only_ite ?_ ?_ | with_reducible refine only_stopScript ?_ (by decide) | split | dsimp only

theorem execScriptWait_next (s : State) : State.NextOnly s (execScriptWait s) [.brup] := by
  unfold execScriptWait
  repeat' first | with_reducible assumption | with_reducible exact .refl _ _ | with_reducible refine nextOnly_next ?_ | with_reducible refine nextOnly_ite ?_ ?_ | with_reducible refine only_ite ?_ ?_ | with_reducible refine only_modBrup ?_ (by decide) | with_reducible refine only_runRecord ?_ (fun _ _ _ => ?_) (by decide) | split | dsimp only

theorem execScriptWaitExpire_next (s : State) : State.NextOnly s (execScriptWaitExpire s) [.brup] := by
  unfold execScriptWaitExpire
  repeat' first | with_reducible assumption | with_reducible exact .refl _ _ | with_reducible refine nextOnly_next ?_ | with_reducible refine nextOnly_ite ?_ ?_ | with_reducible refine only_ite ?_ ?_ | with_reducible refine only_modBrup ?_ (by decide) | split | dsimp only

theorem execScriptStage_next (s : State) : State.NextOnly s (execScriptStage s) [.brup] := by
  unfold execScriptStage
  repeat' first | with_reducible assumption | with_reducible exact .refl _ _ | with_reducible refine nextOnly_next ?_ | with_reducible refine nextOnly_ite ?_ ?_ | with_reducible refine only_ite ?_ ?_ | with_reducible refine only_modBrup ?_ (by decide) | with_reducible refine only_askStage ?_ (by decide) | with_reducible refine only_stopScript ?_ (by decide) | with_reducible refine only_runRecord ?_ (fun _ _ _ => ?_) (by decide) | split | dsimp only

theorem execScriptEnd_next (s : State) : State.NextOnly s (execScriptEnd s) [.brup] := by
  unfold execScriptEnd
  repeat' first | with_reducible assumption | with_reducible exact .refl _ _ | with_reducible refine nextOnly_next ?_ | with_reducible refine nextOnly_ite ?_ ?_ | with_reducible refine only_ite ?_ ?_ | with_reducible refine only_endScript ?_ (by decide) | with_reducible refine only_runRecord ?_ (fun _ _ _ => ?_) (by decide) | split | dsimp only

theorem execSessionOpen_next (m : SessCmd) (s : State) : State.NextOnly s (execSessionOpen m s) [.top, .rel, .chest, .mch, .sess, .hbm, .parts, .out, .free] := by
  unfold execSessionOpen
  repeat' first | with_reducible assumption | with_reducible exact .refl _ _ | with_reducible refine nextOnly_next ?_ | with_reducible refine nextOnly_ite ?_ ?_ | with_reducible refine only_ite ?_ ?_ | with_reducible refine only_sessPlace ?_ (by decide) | split | dsimp only

theorem execSessionClose_next (m : SessCmd) (s : State) : State.NextOnly s (execSessionClose m s) [.top, .rel, .chest, .mch, .sess, .hbm, .parts, .out, .free] := by
  unfold execSessionClose
  repeat' first | with_reducible assumption | with_reducible exact .refl _ _ | with_reducible refine nextOnly_next ?_ | with_reducible refine nextOnly_ite ?_ ?_ | with_reducible refine only_ite ?_ ?_ | with_reducible refine only_sessPlace ?_ (by decide) | split | dsimp only

theorem execSessionSetQuota_next (m : SessCmd) (s : State) : State.NextOnly s (execSessionSetQuota m s) [.top, .rel, .chest, .mch, .sess, .hbm, .parts, .out, .free] := by
  unfold execSessionSetQuota
  repeat' first | with_reducible assumption | with_reducible exact .refl _ _ | with_reducible refine nextOnly_next ?_ | with_reducible refine nextOnly_ite ?_ ?_ | with_reducible refine only_ite ?_ ?_ | with_reducible refine only_sessPlace ?_ (by decide) | split | dsimp only

theorem execSessionQuery_next (m : SessCmd) (s : State) : State.NextOnly s (execSessionQuery m s) [.top, .rel, .chest, .mch, .sess, .hbm, .parts, .out, .free] := by
  unfold execSessionQuery
  repeat' first | with_reducible assumption | with_reducible exact .refl _ _ | with_reducible refine nextOnly_next ?_ | with_reducible refine nextOnly_ite ?_ ?_ | with_reducible refine only_ite ?_ ?_ | with_reducible refine only_sessPlace ?_ (by decide) | split | dsimp only

theorem execSessionReservedOpcode_next (m : SessCmd) (op : BitVec 8) (s : State) : State.NextOnly s (execSessionReservedOpcode m op s) [.top, .rel, .chest, .mch, .sess, .hbm, .parts, .out, .free] := by
  unfold execSessionReservedOpcode
  repeat' first | with_reducible assumption | with_reducible exact .refl _ _ | with_reducible refine nextOnly_next ?_ | with_reducible refine nextOnly_ite ?_ ?_ | with_reducible refine only_ite ?_ ?_ | with_reducible refine only_sessPlace ?_ (by decide) | split | dsimp only

theorem execJtagExtest_next (cells : BitVec 362) (s : State) : State.NextOnly s (execJtagExtest cells s) [.tap, .out] := by
  unfold execJtagExtest
  repeat' first | with_reducible assumption | with_reducible exact .refl _ _ | with_reducible refine nextOnly_next ?_ | with_reducible refine nextOnly_ite ?_ ?_ | with_reducible refine only_ite ?_ ?_ | with_reducible refine only_jtag ?_ (fun _ _ => ?_) (by decide) | (show State.Only _ _ _; assumption) | with_reducible refine only_updateCells ?_ (by decide) | split | dsimp only

theorem execJtagSamplePreload_next (pins : BitVec 362) (cells : BitVec 362) (s : State) : State.NextOnly s (execJtagSamplePreload pins cells s) [.tap, .out] := by
  unfold execJtagSamplePreload
  repeat' first | with_reducible assumption | with_reducible exact .refl _ _ | with_reducible refine nextOnly_next ?_ | with_reducible refine nextOnly_ite ?_ ?_ | with_reducible refine only_ite ?_ ?_ | with_reducible refine only_emit ?_ (by decide) | with_reducible refine only_jtag ?_ (fun _ _ => ?_) (by decide) | (show State.Only _ _ _; assumption) | with_reducible refine only_updateCells ?_ (by decide) | split | dsimp only

theorem execJtagIdcode_next (s : State) : State.NextOnly s (execJtagIdcode s) [.tap, .out] := by
  unfold execJtagIdcode
  repeat' first | with_reducible assumption | with_reducible exact .refl _ _ | with_reducible refine nextOnly_next ?_ | with_reducible refine nextOnly_ite ?_ ?_ | with_reducible refine only_ite ?_ ?_ | with_reducible refine only_emit ?_ (by decide) | with_reducible refine only_loadIr ?_ (by decide) | split | dsimp only

theorem execJtagClamp_next (s : State) : State.NextOnly s (execJtagClamp s) [.tap, .out] := by
  unfold execJtagClamp
  repeat' first | with_reducible assumption | with_reducible exact .refl _ _ | with_reducible refine nextOnly_next ?_ | with_reducible refine nextOnly_ite ?_ ?_ | with_reducible refine only_ite ?_ ?_ | with_reducible refine only_jtag ?_ (fun _ _ => ?_) (by decide) | (show State.Only _ _ _; assumption) | split | dsimp only

theorem execJtagHighz_next (s : State) : State.NextOnly s (execJtagHighz s) [.tap, .out] := by
  unfold execJtagHighz
  repeat' first | with_reducible assumption | with_reducible exact .refl _ _ | with_reducible refine nextOnly_next ?_ | with_reducible refine nextOnly_ite ?_ ?_ | with_reducible refine only_ite ?_ ?_ | with_reducible refine only_jtag ?_ (fun _ _ => ?_) (by decide) | (show State.Only _ _ _; assumption) | split | dsimp only

theorem execJtagExtestPulse_next (cells : BitVec 362) (s : State) : State.NextOnly s (execJtagExtestPulse cells s) [.tap, .out] := by
  unfold execJtagExtestPulse
  repeat' first | with_reducible assumption | with_reducible exact .refl _ _ | with_reducible refine nextOnly_next ?_ | with_reducible refine nextOnly_ite ?_ ?_ | with_reducible refine only_ite ?_ ?_ | with_reducible refine only_jtag ?_ (fun _ _ => ?_) (by decide) | (show State.Only _ _ _; assumption) | with_reducible refine only_updateCells ?_ (by decide) | split | dsimp only

theorem execJtagExtestTrain_next (cells : BitVec 362) (s : State) : State.NextOnly s (execJtagExtestTrain cells s) [.tap, .out] := by
  unfold execJtagExtestTrain
  repeat' first | with_reducible assumption | with_reducible exact .refl _ _ | with_reducible refine nextOnly_next ?_ | with_reducible refine nextOnly_ite ?_ ?_ | with_reducible refine only_ite ?_ ?_ | with_reducible refine only_jtag ?_ (fun _ _ => ?_) (by decide) | (show State.Only _ _ _; assumption) | with_reducible refine only_updateCells ?_ (by decide) | split | dsimp only

theorem execJtagBypass_next (opcode : BitVec 8) (s : State) : State.NextOnly s (execJtagBypass opcode s) [.tap, .out] := by
  unfold execJtagBypass
  repeat' first | with_reducible assumption | with_reducible exact .refl _ _ | with_reducible refine nextOnly_next ?_ | with_reducible refine nextOnly_ite ?_ ?_ | with_reducible refine only_ite ?_ ?_ | with_reducible refine only_loadIr ?_ (by decide) | split | dsimp only

theorem execTrstNAssert_next (s : State) : State.NextOnly s (execTrstNAssert s) [.tap] := by
  unfold execTrstNAssert
  repeat' first | with_reducible assumption | with_reducible exact .refl _ _ | with_reducible refine nextOnly_next ?_ | with_reducible refine nextOnly_ite ?_ ?_ | with_reducible refine only_ite ?_ ?_ | with_reducible refine only_modTap ?_ (by decide) | split | dsimp only

end Sys2Proof.Machine
end

