-- ==== Sys2Proof/Laws/Hbm.lean ====
section
/-! SUPPORT. What writes of device memory change: the bytes written, and no other (05 R240 to R244). -/

namespace Sys2Proof.Machine

theorem hbmByte_congr {s t : State} (h : t.hbm = s.hbm) (a : Nat) : t.hbmByte a = s.hbmByte a := by
  unfold State.hbmByte; rw [h]

theorem hbmByte_congr' {s t : State} (hm : t.hbm.mem = s.hbm.mem) (he : t.hbm.epoch = s.hbm.epoch) (a : Nat) :
    t.hbmByte a = s.hbmByte a := by
  unfold State.hbmByte; rw [hm, he]

/-- The bytes after a store. -/
theorem hbmStore_byte (s : State) (a : Nat) (bs : List Byte) (wrong : List Nat) (j : Nat) :
    (s.hbmStore a bs wrong).hbmByte j = if a ≤ j ∧ j < a + bs.length then bs.getD (j - a) 0 else s.hbmByte j := by
  have h : (s.hbmStore a bs wrong).hbm = { s.hbm with
      mem := Mem.write s.hbm.mem a bs
      bad := (sectorsOf a bs.length).foldl
        (fun t sec => if wrong.contains sec then Tab.put t sec .poison else Tab.del t sec) s.hbm.bad } := by
    unfold State.hbmStore
    exact (only_each (cs := [.parts]) (.refl _ _) fun _ _ h => only_dropWriteBack h (by decide)).hbm
  unfold State.hbmByte
  rw [h]
  exact Mem.get_write ..

/-- A store with parity observed stores the bytes given. -/
theorem sectorStore_byte (s : State) (a : Nat) (bs : List Byte) (wrong : Bool) (j : Nat) :
    (s.sectorStore a bs wrong).hbmByte j = if a ≤ j ∧ j < a + bs.length then bs.getD (j - a) 0 else s.hbmByte j := by
  rw [← hbmStore_byte s a bs (if wrong then [a / 32] else [])]
  unfold State.sectorStore
  generalize s.hbmStore a bs (if wrong then [a / 32] else []) = u
  have h := only_recordUe (s := u) (sec := a / 32) (cause := 2) (.refl _ _) (fun _ h => h)
  exact hbmByte_congr (only_when (c := wrong) (f := (·.recordUe (a / 32) 2)) (.refl u _) h).hbm j

theorem enqueueUn_byte (s : State) (p : Nat) (r : HbmReq) (j : Nat) : (s.enqueueUn p r).hbmByte j = s.hbmByte j := by
  unfold State.enqueueUn
  dsimp only
  split
  · exact hbmByte_congr' rfl rfl j
  · rfl

theorem checkSector_byte (s : State) (sec j : Nat) : (s.checkSector sec).2.hbmByte j = s.hbmByte j := by
  unfold State.checkSector
  split
  · rfl
  · exact (enqueueUn_byte _ _ _ j).trans (hbmByte_congr' rfl rfl j)
  · exact hbmByte_congr (recordUe_only s sec 0).hbm j
  · exact hbmByte_congr (recordUe_only s sec 1).hbm j

theorem hbmPartWrite_byte (s : State) (a : Nat) (bs : List Byte) (wrong : Bool) (j : Nat)
    (h : j < a ∨ a + bs.length ≤ j) : (s.hbmPartWrite a bs wrong).hbmByte j = s.hbmByte j := by
  unfold State.hbmPartWrite
  dsimp only
  split
  · exact checkSector_byte ..
  · rw [sectorStore_byte, if_neg (by omega)]; exact checkSector_byte ..

/-- A write changes no byte outside it. -/
theorem hbmWrite_byte (s : State) (a : Nat) (bs : List Byte) (wrong : List Nat) (j : Nat)
    (h : j < a ∨ a + bs.length ≤ j) : (s.hbmWrite a bs wrong).hbmByte j = s.hbmByte j := by
  unfold State.hbmWrite
  generalize sectorsOf a bs.length = xs
  induction xs generalizing s with
  | nil => rfl
  | cons x xs ih =>
    rw [List.foldl_cons, ih]
    have hl : ((bs.drop (max a (x * 32) - a)).take (min (a + bs.length) (x * 32 + 32) - max a (x * 32))).length
        ≤ min (a + bs.length) (x * 32 + 32) - max a (x * 32) := by
      rw [List.length_take]; exact Nat.min_le_left ..
    have hl2 : ((bs.drop (max a (x * 32) - a)).take (min (a + bs.length) (x * 32 + 32) - max a (x * 32))).length
        ≤ bs.length - (max a (x * 32) - a) := by
      rw [List.length_take, List.length_drop]; exact Nat.min_le_right ..
    dsimp only
    split
    · rw [sectorStore_byte, if_neg (by omega)]
    · exact hbmPartWrite_byte _ _ _ _ _ (by omega)

end Sys2Proof.Machine
end

