-- ==== Sys2Proof/WellFormed.lean ====
section
/-! DEFINITION. Well-formed commands: the bounds the spec gives an operand that its type does not say already. -/

namespace Sys2Proof

/-- BAR0 is 64 MiB (09 R477; 17 R736). -/
def barSize : Nat := 0x4000000

/-- A multi-word access spans two words or more (00 R781). -/
def MultiWord.wf : MultiWord → Bool
  | .read full => decide (2 ≤ full.length)
  | .write ws => decide (2 ≤ ws.length)

/-- The answer of an exchange leaves after its request came, and comes after it was sent (04 R195). -/
def Exchange.wf (x : Exchange) : Bool := decide (x.t2 ≤ x.t3) && decide (x.t1 ≤ x.t4) && decide (x.t3 - x.t2 ≤ x.t4 - x.t1)

/-- The payload limit of a virtual channel (08 R420). -/
def vcLimit (vc : BitVec 2) : Nat := if vc = 0 then 16384 else if vc = 3 then 192 else 4096

/-- At most 16 hop codes and allowances, and a payload within its channel's limit (08 R420, R427). -/
def Worm.wf (w : Worm) : Bool :=
  decide (w.head.hops.length ≤ 16) && decide (w.head.allow.length ≤ 16) && decide (w.payload.length ≤ vcLimit w.head.vc)

/-- Ports of a router: a hub has four directions, its crossbar, stream engine, two HBM channels, control endpoint and message unit; a
ring has its stops (08 R417, R436). -/
def routerPorts : Router → Nat
  | .hub _ => 10
  | .ring _ => 32

/-- A head that enters comes with a flit at least. -/
def RouteEv.wf : RouteEv → Bool
  | .head w n _ => w.wf && decide (1 ≤ n)
  | .flits _ _ => true
  | .slot _ _ => true

/-- A BAR2 of 64 GiB to 1 TiB; a payload size of 128 to 4,096 bytes (09 R475, R480). -/
def PcieCfg.wf : PcieCfg → Bool
  | .resizeBar2 n => decide (36 ≤ n) && decide (n ≤ 40)
  | .maxPayload m => decide (m.toNat ≤ 5)

/-- A datagram has a header of 24 bytes (09 R509). -/
def Datagram.wf (d : Datagram) : Bool := decide (d.header.length = 24)

/-- At most 64 groups, 256 entries a group and 16,384 entries (02 R48, R94). -/
def TopkCfg.wf (t : TopkCfg) : Bool := decide (t.groups ≤ 64) && decide (t.k ≤ 256) && decide (t.groups * t.k ≤ 16384)

/-- A tile's configuration keeps the bounds of the top-k unit. -/
def TileCfg.wf (c : TileCfg) : Bool := c.folds.all fun f => f.topk.wf

/-- A use serves a slot of its cluster and a fold of its tile (05 R249, R251). -/
def StreamUse.wf (u : StreamUse) : Bool := decide (u.slot < 16) && decide (u.fold < 8)

/-- The stream contexts of an arm message are the engine's 64 (05 R249). -/
def ArmMsg.wf (m : ArmMsg) : Bool :=
  decide (m.streams.length ≤ 64) && m.streams.all fun e => decide (e.1 < 64) && e.2.all StreamUse.wf

/-- An image names tiles, clusters and contexts that exist (01 R19 to R24; 05 R249). -/
def Image.wf (i : Image) : Bool :=
  i.tasks.all fun t => (t.tiles.all fun e => decide (e.1 < 2048) && e.2.wf)
    && t.streams.all fun e => decide (e.1 < 128) && decide (e.2.1 < 64) && e.2.2.all StreamUse.wf

/-- BAR0 offsets of LO registers (00 R15). -/
def isLo (off : Nat) : Bool :=
  [0x4, 0x30008, 0x50000, 0x50018, 0x60070, 0x60160, 0x90020, 0x90160, 0xA0100, 0xA010C].contains off
    || (decide (0x100000 ≤ off) && decide (off < 0x111000) && [0x008, 0x020, 0x028, 0x030, 0x038].contains (off % 0x1000))
    || [0x200004, 0x20000C, 0x280004, 0x28000C].contains off
    || (decide (0x400000 ≤ off) && decide (off < 0x500000) && decide (off % 0x10000 = 0x210))

/-- A unit that a tile program can find faulty (15 R712). -/
def unitOk (u : BitVec 4) : Bool := decide (1 ≤ u.toNat) && decide (u.toNat ≤ 6)

/-- A window as BIST_HBM_FENT names it (15 R698, R712). -/
def windowOk (w : Word) : Bool := decide (w.toNat % 2 ^ 23 < 73728)

/-- A well-formed command. -/
def Instr.wf (i : Instr) : Bool :=
  match i with
  | .registerWrite _ off len _ => decide (off < barSize) && decide (1 ≤ len) && decide (len ≤ 4)
  | .bar0MultiwordAccess _ off m => decide (off < barSize) && m.wf
  | .counterLoRead _ off => isLo off
  | .chestOldRead _ => true
  | .bar2Read _ _ r => decide (1 ≤ r.len)
  | .bar2Write _ _ d => decide (d.data ≠ [])
  | .fretStart _ _ => true
  | .configWrite _ _ cfg => cfg.wf
  | .arm _ m => m.wf
  | .armDeadline _ => true
  | .taskArmIssue _ _ => true
  | .taskLaunch _ => true
  | .foldSwitch _ => true
  | .firing _ _ => true
  | .sramCorrectedWriteback _ word => decide (word < 131072)
  | .tileSramZeroed _ => true
  | .edgeCreditReturn _ fold port n => decide (fold < 8) && decide (port < 8) && decide (1 ≤ n)
  | .releaseQueueArrive _ w n _ => w.wf && decide (n.left < 8) && decide (1 ≤ n.flits)
  | .wormRelease _ _ => true
  | .wormLate _ w => w.wf
  | .steerTokenArrive _ fold _ => decide (fold < 8)
  | .steerEmit _ fold _ => decide (fold < 8)
  | .steerGroupLate _ fold _ => decide (fold < 8)
  | .steerTokenTimeout _ fold _ => decide (fold < 8)
  | .steerGroupTimeout _ fold _ => decide (fold < 8)
  | .taskEndCheck _ => true
  | .creditCheckFret _ fold port => decide (fold < 8) && decide (port < 8)
  | .queueSample => true
  | .remapApply _ _ => true
  | .taskStop _ => true
  | .taskCommit _ => true
  | .abortMessageReceive _ _ => true
  | .beaconSend => true
  | .beaconReceive _ _ _ => true
  | .beaconTimeout => true
  | .holdoverTimeout => true
  | .epochFret => true
  | .fretDomainWrite _ _ => true
  | .pllLockLost _ => true
  | .pllRelock _ _ => true
  | .seamSplit => true
  | .seamResync => true
  | .flightRemeasure _ _ => true
  | .flightMeasureDone _ xs => decide (xs.length = 256) && xs.all Exchange.wf
  | .stretchRequestReceive _ _ => true
  | .stretchAnnounce _ => true
  | .stretchAnnounceReceive _ => true
  | .stretchApply => true
  | .clkChangeGo _ _ => true
  | .clockChangeFret => true
  | .clkHalfSet _ _ => true
  | .clkHalfRestore _ _ => true
  | .streamActivate _ _ => true
  | .drawerIssue _ _ => true
  | .writeDrawerFillCheck _ _ => true
  | .readDrawerDue _ _ => true
  | .writeDrawerDeadline _ _ => true
  | .hbmRequestStart _ _ _ _ _ _ => true
  | .hbmReadComplete _ _ => true
  | .hbmWriteAck _ _ => true
  | .hbmRefresh _ _ _ => true
  | .hbmScrub _ sector => decide (sector < 0x48000000)
  | .streamRetire _ _ => true
  | .streamQuiesceDone _ _ => true
  | .lpHintArrive _ _ => true
  | .lpSpeculate _ _ => true
  | .lpFlush _ _ _ => true
  | .sessionOpen _ => true
  | .sessionClose _ => true
  | .sessionSetQuota _ => true
  | .sessionQuery _ => true
  | .verifyResultSend => true
  | .kvpEnable _ _ _ => true
  | .connOpen _ _ => true
  | .connClose _ _ => true
  | .openReceive r => decide (r.index < 64)
  | .openAckReceive _ => true
  | .openTimeout _ => true
  | .messageSend _ _ _ body => decide (1 ≤ body.length) && decide (body.length ≤ 65536)
  | .messageArrive m => decide (m.body.length ≤ 65536)
  | .recordConsume _ => true
  | .creditReturnSend _ _ => true
  | .creditReturnResend _ _ => true
  | .msgCreditReturnReceive _ _ _ => true
  | .nakNoticeReceive _ => true
  | .staleNoticeReceive _ _ => true
  | .closeMarkerReceive _ _ _ _ => true
  | .closeAckReceive _ _ => true
  | .closeMarkerResend _ => true
  | .queueBind _ _ => true
  | .queueUnbind _ _ => true
  | .chordSumRelease _ => true
  | .wormRoute r port e _ => decide (port < routerPorts r) && e.wf
  | .wormCut r port _ _ => decide (port < routerPorts r)
  | .vcWatchdogExpire r outPort _ => decide (outPort < routerPorts r)
  | .fabPortEnable _ => true
  | .fabPortDisable _ _ _ => true
  | .fabTrainDone _ => true
  | .fabTrainFail _ lanes => decide (lanes ≠ 0xFF)
  | .fabMeasureDone _ xs => decide (xs.length = 256) && xs.all Exchange.wf
  | .fabIdentityReceive _ _ => true
  | .fabLockLost _ => true
  | .fabDownMarkerReceive _ => true
  | .fabLocalRetry _ => true
  | .fabReplay _ => true
  | .fabReplayLimit _ => true
  | .twHeartbeatSend => true
  | .twHeartbeatTimeout => true
  | .ncnCrcError _ _ => true
  | .bar4Write _ _ data => decide (data ≠ [])
  | .submissionTimeout _ _ => true
  | .nqHeadWrite _ _ _ => true
  | .rxConsume _ _ _ => true
  | .attentionPulse _ => true
  | .mcLoad m img _ _ => decide (m.size ≤ 2 ^ 36) && img.wf
  | .mcStart _ => true
  | .mcStop _ => true
  | .mcUnload _ => true
  | .ownerClaim _ => true
  | .ownerRelease _ => true
  | .ownerGive _ => true
  | .perst _ _ => true
  | .perstDeassert _ => true
  | .pcieLinkUp _ width speed _ _ => [1, 2, 4, 8].contains width.toNat && decide (1 ≤ speed.toNat) && decide (speed.toNat ≤ 6)
  | .mgmtSystemReset d => d.wf
  | .mgmtCoreReset d => d.wf
  | .mgmtAssignOwner d => d.wf
  | .mgmtSetBudget d => d.wf
  | .mgmtChestClear d => d.wf
  | .mgmtClearRetire d => d.wf
  | .mgmtQuote d => d.wf
  | .mgmtWriteReg d => d.wf
  | .mgtNdEcho _ _ _ _ => true
  | .mgtPortLinkUp _ => true
  | .parityCountDecay _ => true
  | .arbitrationStart _ => true
  | .arbitrationDone _ rs => decide (1 ≤ rs.length)
  | .digestRoundStart _ => true
  | .digestPassDone _ => true
  | .digestEnable _ _ => true
  | .digestDisable _ _ => true
  | .digestVerify _ _ => true
  | .digestCfgWrite _ _ => true
  | .digestMessageReceive _ => true
  | .retireStart cause => decide (1 ≤ cause.toNat) && decide (cause.toNat ≤ 7) && decide (cause ≠ 5)
  | .retireComplete => true
  | .mcLockstepFail _ _ => true
  | .healFence _ _ => true
  | .healFenceDeferredApply _ => true
  | .healRotate _ _ => true
  | .healPartitionRecovery _ _ => true
  | .rotationMark => true
  | .rotationApply _ => true
  | .infieldTestDone _ failed => failed.all unitOk
  | .variantLoad _ _ _ => true
  | .taskHang _ => true
  | .tileFenceTimeout _ => true
  | .prrStart _ => true
  | .prrResetDone _ _ => true
  | .prrVerified _ => true
  | .twinAttachSource _ _ => true
  | .twinAttachSink _ _ => true
  | .twinDetach _ _ => true
  | .twinCopyDone _ => true
  | .twinMirrorSend => true
  | .twinMirrorReceive _ => true
  | .twinTakeoverReceive => true
  | .twinDetachReceive => true
  | .healthRecordFenceWrite => true
  | .por => true
  | .pwrgdRise => true
  | .porRelease _ => true
  | .supplyMonitorTrip => true
  | .supplyRestore => true
  | .thermalTrip _ temp => decide (115 ≤ temp.toNat)
  | .sysrstNAssert => true
  | .mcWatchdogExpire => true
  | .rstcReqCore _ _ => true
  | .rstcReqSystem _ _ => true
  | .orderlyResetAssert => true
  | .blkMaintenanceReset _ _ => true
  | .blkRecoveryReset _ _ => true
  | .blkResetDone level target => decide (level.toNat ≤ 2) && decide (target < [2304, 128, 16].getD level.toNat 0)
  | .brupStartStage _ _ => true
  | .brupPause _ _ => true
  | .brupResume _ _ => true
  | .brupBootPushed _ _ => true
  | .brupProgram _ _ => true
  | .stageBu0 _ => true
  | .stageBu1 _ => true
  | .stageBu2 _ => true
  | .stageBu3 _ => true
  | .stageBu4 _ _ => true
  | .stageBu5 trained => decide (trained.length = 16)
  | .stageBu6 _ => true
  | .stageBu7 f => (f.failed.all fun e => unitOk e.2) && f.windows.all windowOk
  | .stageBu8 => true
  | .stageBu9 _ => true
  | .scriptReplayStart => true
  | .scriptWrite => true
  | .scriptModify => true
  | .scriptPoll => true
  | .scriptPollMatch => true
  | .scriptPollTimeout => true
  | .scriptWait => true
  | .scriptWaitExpire => true
  | .scriptStage => true
  | .scriptEnd => true
  | .governorInterval _ => true
  | .governorPark _ _ => true
  | .pwrParkNow _ _ => true
  | .pwrWake _ _ _ => true
  | .parkDone _ => true
  | .wakeDone _ failed => failed.all fun f => unitOk f.2
  | .budgetWrite _ _ => true
  | .thermalClampEngage _ _ => true
  | .thermalClampRelease _ => true
  | .powerClampEngage _ => true
  | .powerClampRelease _ => true
  | .droopEvent _ _ _ _ => true
  | .guardBandLower _ => true
  | .pegRetune _ _ => true
  | .pegRetuneAll _ _ => true
  | .lcTransitionRequest _ _ => true
  | .lcFuseWriteDone => true
  | .idGenerate _ _ => true
  | .signRequest _ => true
  | .signatureDone => true
  | .opkWrite _ _ => true
  | .opkErase _ _ => true
  | .quoteRequest _ _ => true
  | .quoteDone => true
  | .scanEn => true
  | .eb1Unlock => true
  | .scanClearDone => true
  | .jtagExtest _ => true
  | .jtagSamplePreload _ _ => true
  | .jtagIdcode => true
  | .jtagClamp => true
  | .jtagHighz => true
  | .jtagExtestPulse _ => true
  | .jtagExtestTrain _ => true
  | .jtagBypass opcode => decide (7 ≤ opcode.toNat) && decide (opcode ≠ 0x40) && decide (opcode ≠ 0x41)
  | .hbmWindowTestStart _ _ => true
  | .hbmWindowTestDone _ _ _ => true
  | .hbmWindowTestTimeout _ _ => true
  | .testAgeTick => true
  | .shutdownTestStart _ _ => true
  | .shutdownTestPhase failed windows => (failed.all fun f => unitOk f.2) && windows.all windowOk
  | .shutdownRecord => true
  | .shutdownHalt => true
  | .chestRecordPlace => true
  | .chestCopyStart reason => decide (1 ≤ reason.toNat) && decide (reason.toNat ≤ 4)
  | .chestCopyDone => true
  | .telemetryReport => true
  | .telemetrySend => true
  | .trefRestore => true
  | .sysrstNRelease => true
  | .resetRelease => true
  | .mgmtUnknownCommand d code => d.wf && (decide (code = 0) || decide (8 < code.toNat))
  | .mcReservedOpcode _ op => decide (op.toNat = 0) || decide (4 < op.toNat)
  | .sessionReservedOpcode _ op => decide (op.toNat = 0) || decide (4 < op.toNat)
  | .twinAttachReceive _ => true
  | .hbmControllerError _ => true
  | .hbmPhyFault _ => true
  | .idGenerateDone _ => true
  | .mgtPortLinkDown _ => true
  | .pcieConfigWrite _ w => w.wf
  | .trstNAssert => true

end Sys2Proof
end

