-- ==== Sys2Proof/Tests/Slice0.lean ====
section
/-! SUPPORT. Tests: ill-formed terms, single steps, and the witnesses of the statements' hypotheses. -/

set_option Elab.async false

namespace Sys2Proof.Tests

open Sys2Proof.Machine

/-! ## States of the tests -/

/-- Whether an outcome is a next state. -/
def isNext : Host.Outcome State Fault Refusal → Bool
  | .next _ => true
  | _ => false

/-- The next state of an outcome. -/
def nextOf : Host.Outcome State Fault Refusal → State
  | .next t => t
  | _ => State.reset

theorem eq_next {o : Host.Outcome State Fault Refusal} (h : isNext o = true) : o = .next (nextOf o) := by
  cases o <;> first | rfl | cases h

theorem exec_next {c : Instr} {s : State} (h : isNext (exec c s) = true) : exec c s = .next (nextOf (exec c s)) := eq_next h

theorem step_next {s : State} (h : isNext (step s) = true) : step s = .next (nextOf (step s)) := eq_next h

/-- A value and the value with bit 0 inverted differ. -/
theorem ne_flip (x : BitVec 256) : x ≠ x ^^^ 1 := by
  intro h
  have := congrArg (fun y => y.getLsbD 0) h
  simp at this

/-- A chip that has been brought up. -/
def up : State :=
  (State.reset.modBrup fun b => { b with stages := List.replicate 10 .passed }).modFret fun f => { f with state := .member }

/-- The same with a state of the fret time base. -/
def fr (f : FretSt → FretSt) : State := up.modFret f

/-- A fold that fires once in its slice of eight frets, with inputs, outputs and steering units. -/
def fold (i : List InputCfg) (o : List OutputCfg) (u : List SteerCfg) : FoldCfg :=
  ⟨8, 2, 1, 1, 1, 0, 16384, i, o, u, .resident 0, .resident 0, .resident 0, [], ⟨0, 1, 0, .unsigned, true⟩, []⟩

/-- Task 5 on logical tile 0 with one fold, launched at fret 10 for 16 frets. -/
def tcfg (f : FoldCfg) : TaskCfg := ⟨5, 0, 10, 16, 2, [(0, ⟨8, [f]⟩)], [], [], [], []⟩

/-- A chip with schedule 1 loaded and started that holds one task. -/
def loaded (t : TaskCfg) (f : FretSt → FretSt) : State :=
  (fr f).modScheds fun _ => [(1, { image := ⟨1, 1, 0, 0, [t], [], [], []⟩, started := true })]

/-- That chip at a fret, with the task running on physical tile 0 and the fold as given. -/
def running (f : FoldCfg) (r : FoldRt) (now : U64) : State :=
  ((loaded (tcfg f) fun x => { x with west := now }).modTasks fun _ =>
    [(5, { sched := 1, phase := .running, launch := 10, length := 16, tiles := [0] })]).modTiles fun _ =>
    [(0, { mode := .run, folds := 1, cur := some ⟨5, ⟨8, [f]⟩⟩, running := some ⟨5, 0, 10, true⟩, rt := [r] })]

/-- An edge of depth 4 to or from logical tile 1. -/
def edgeIn : EdgeIn := ⟨4, 0, 0, 1, 0, 0, [0, 4], [1], true⟩

def edgeOut : EdgeOut := ⟨0, 1, 0, 0, 4, [0, 4], [1], true⟩

/-- An output port with that edge. -/
def outp (n : Nat) : OutputCfg := ⟨n, [edgeOut], none, .rne, 20⟩

/-- A word of equal bytes. -/
def word (b : Byte) : QWord := ⟨List.replicate 128 b, 10, false⟩

/-- A worm of task 5 with edge words for logical tile 0, in the West half, stamped for a fret. -/
def worm (stamp : BitVec 24) : Worm :=
  ⟨⟨0, true, false, 0, 0, [0, 4], 0, 0, 0, 5, stamp, [1], 0, 0, 1, 0, 0, 0, none⟩, List.replicate 128 7⟩

/-- A read use of two requests a drawer from fret 4 of its task, a write use, and context 0 with a use of task 5. -/
def rd : StreamUse := ⟨.read, 0, 0, 0, 512, 0, 512, 4, 8, 4, 6, 2, 2, 60, .absolute 0, [(2, 256)], none, none⟩

def wr : StreamUse := { rd with kind := .write, first := 8 }

def cs (u : StreamUse) (f : CtxSt → CtxSt) (now : U64) : State :=
  (running (fold [] [] []) {} now).modCtxs fun _ =>
    [(0, f { state := .active, live := true, task := 5, launch := 10, uses := [u] })]

/-- Both element pairs have the product zero. -/
theorem zeros60 : ∀ y ∈ ([0, 0x80] : List Nat).zip [0x38, 0x38], ∃ p e,
    mulNum (decodeNum .e4m3 y.1) (decodeNum .e4m3 y.2) = .fin p 0 e := by
  intro y h
  simp only [List.zip_cons_cons, List.zip_nil_right, List.mem_cons, List.not_mem_nil, or_false] at h
  rcases h with rfl | rfl <;> exact ⟨_, _, rfl⟩

/-! ## Ill-formed commands are refused -/

theorem test_illformed_bar0 :
    (Instr.registerWrite .portA 0x4000000 4 0).wf = false ∧ (Instr.registerWrite .portA 0 0 0).wf = false ∧
    (Instr.registerWrite .portA 0 5 0).wf = false ∧ (Instr.registerWrite .portA 0x3FFFFFC 4 0).wf = true ∧
    (Instr.bar0MultiwordAccess .portA 0x4000000 (.read [true, true])).wf = false ∧
    (Instr.bar0MultiwordAccess .portA 0 (.read [true])).wf = false ∧ (Instr.bar0MultiwordAccess .portA 0 (.write [])).wf = false ∧
    (Instr.counterLoRead .portA 0x50004).wf = false ∧ (Instr.counterLoRead .portA 0x50000).wf = true := by decide

theorem test_illformed_bar2_bar4 :
    (Instr.bar2Read .a 0 ⟨0, []⟩).wf = false ∧ (Instr.bar2Write .a 0 ⟨[], [], []⟩).wf = false ∧ (Instr.bar4Write .a 0 []).wf = false := by
  decide

/-- 65 groups; 257 entries a group; 64 groups of 257 entries a group (02 R48, R94). -/
theorem test_illformed_topk :
    let cfg (g k : Nat) : TileCfg := ⟨8, [{ fold [] [] [] with topk := { (fold [] [] []).topk with groups := g, k := k } }]⟩
    (Instr.configWrite 0 5 (cfg 64 256)).wf = true ∧ (Instr.configWrite 0 5 (cfg 65 1)).wf = false ∧
    (Instr.configWrite 0 5 (cfg 1 257)).wf = false := by decide +kernel

/-- Context 64 and slot 16 do not exist (05 R249). -/
theorem test_illformed_arm :
    let m (x : Nat) (u : StreamUse) : ArmMsg := ⟨5, 0, 10, true, [(x, [u])]⟩
    (Instr.arm 0 (m 63 rd)).wf = true ∧ (Instr.arm 0 (m 64 rd)).wf = false ∧ (Instr.arm 0 (m 0 { rd with slot := 16 })).wf = false ∧
    (Instr.arm 0 (m 0 { rd with fold := 8 })).wf = false := by decide +kernel

/-- An SRAM word from 131,072 on; ports, folds and units past the last; a return of no credit. -/
theorem test_illformed_tile :
    (Instr.sramCorrectedWriteback 0 131072).wf = false ∧ (Instr.edgeCreditReturn 0 8 0 1).wf = false ∧
    (Instr.edgeCreditReturn 0 0 8 1).wf = false ∧ (Instr.edgeCreditReturn 0 0 0 0).wf = false ∧
    (Instr.steerTokenArrive 0 8 0).wf = false ∧ (Instr.steerEmit 0 8 ⟨0, []⟩).wf = false ∧ (Instr.steerGroupLate 0 8 0).wf = false ∧
    (Instr.steerTokenTimeout 0 8 0).wf = false ∧ (Instr.steerGroupTimeout 0 8 0).wf = false ∧
    (Instr.creditCheckFret 0 8 0).wf = false ∧ (Instr.creditCheckFret 0 0 8).wf = false ∧
    (Instr.infieldTestDone 0 (some 7)).wf = false ∧ (Instr.infieldTestDone 0 (some 0)).wf = false := by decide +kernel

/-- A worm with 17 hop codes, 17 allowances or a payload over its channel's limit (08 R420, R427), and ports a router lacks. -/
theorem test_illformed_worm :
    let w (f : WormHead → WormHead) (n : Nat) : Worm := ⟨f (worm 0).head, List.replicate n 0⟩
    (w id 64).wf = true ∧ (w (fun h => { h with hops := List.replicate 17 0 }) 0).wf = false ∧
    (w (fun h => { h with allow := List.replicate 17 0 }) 0).wf = false ∧ (w (fun h => { h with vc := 3 }) 193).wf = false ∧
    (Instr.releaseQueueArrive (.fabric 2) (w id 64) ⟨0, 0, false⟩ true).wf = false ∧
    (Instr.releaseQueueArrive (.fabric 2) (w id 64) ⟨8, 1, false⟩ true).wf = false ∧
    (Instr.wormRoute (.hub 0) 10 (.slot 0 true) none).wf = false ∧
    (Instr.wormRoute (.hub 0) 10 (.flits 0 1) none).wf = false ∧
    (Instr.wormRoute (.hub 0) 0 (.head (w id 64) 0 true) none).wf = false ∧
    (Instr.wormCut (.ring .east) 32 0 true).wf = false ∧ (Instr.vcWatchdogExpire (.ring .west) 32 1).wf = false := by decide +kernel

/-- An answer sent before its request came; 255 exchanges where R195 asks for 256. -/
theorem test_illformed_exchanges :
    Exchange.wf ⟨0, 10, 9, 50⟩ = false ∧ Exchange.wf ⟨0, 10, 100, 50⟩ = false ∧
    (Instr.flightMeasureDone 2 (List.replicate 255 ⟨0, 10, 10, 50⟩)).wf = false ∧
    (Instr.fabMeasureDone 2 (List.replicate 255 ⟨0, 10, 10, 50⟩)).wf = false ∧
    (Instr.fabMeasureDone 2 (List.replicate 256 ⟨0, 10, 10, 50⟩)).wf = true ∧ (Instr.fabTrainFail 2 0xFF).wf = false := by
  decide +kernel

theorem test_illformed_messages :
    (Instr.openReceive ⟨4, 9, 7, 2, false, 50, 64, false⟩).wf = false ∧ (Instr.messageSend 0 1 0 []).wf = false ∧
    (Instr.messageSend 0 1 0 (List.replicate 1 0)).wf = true ∧ (Instr.sessionReservedOpcode ⟨true, 3, 5, 0, 2, 77⟩ 4).wf = false ∧
    (Instr.mcReservedOpcode ⟨.mc, 3, 1, 40, 0, 0, 77⟩ 1).wf = false := by decide +kernel

/-- A body of 65,537 bytes, in a message and as one arriving (07 R356). -/
theorem test_illformed_long_bodies (c : ConnN) (k : BitVec 3) (e : BitVec 14) (m : Msg) (b : List Byte) (h : 65536 < b.length) :
    (Instr.messageSend c k e b).wf = false ∧ (Instr.messageArrive { m with body := b }).wf = false := by
  have n : decide (b.length ≤ 65536) = false := decide_eq_false (by omega)
  exact ⟨Bool.and_eq_false_iff.mpr (.inr n), n⟩

theorem test_illformed_host :
    (Instr.mcLoad ⟨.mc, 3, 1, 40, 0, 2 ^ 36 + 1, 77⟩ ⟨1, 1, 0, 0, [], [], [], []⟩ 0 true).wf = false ∧
    (Instr.mcLoad ⟨.mc, 3, 1, 40, 0, 0, 77⟩ ⟨1, 1, 0, 0, [{ tcfg (fold [] [] []) with tiles := [(2048, ⟨8, []⟩)] }], [], [], []⟩ 0
      true).wf = false ∧
    (Instr.mcLoad ⟨.mc, 3, 1, 40, 0, 0, 77⟩ ⟨1, 1, 0, 0, [{ tcfg (fold [] [] []) with streams := [(128, 0, [])] }], [], [], []⟩ 0
      true).wf = false ∧
    (Instr.pcieLinkUp .a 3 1 false 0).wf = false ∧ (Instr.pcieLinkUp .a 8 7 false 0).wf = false ∧
    (Instr.pcieConfigWrite .a (.resizeBar2 35)).wf = false ∧ (Instr.pcieConfigWrite .a (.resizeBar2 41)).wf = false ∧
    (Instr.pcieConfigWrite .a (.maxPayload 6)).wf = false := by decide +kernel

theorem test_illformed_management :
    let d (n : Nat) : Datagram := ⟨.m0, 1, 1, 5, 0, true, List.replicate 32 0, List.replicate n 0⟩
    Datagram.wf { d 8 with header := List.replicate 23 0 } = false := by decide +kernel

theorem test_illformed_units :
    (Instr.hbmScrub 0 0x48000000).wf = false ∧ (Instr.arbitrationDone 0 []).wf = false ∧ (Instr.retireStart 0).wf = false ∧
    (Instr.retireStart 5).wf = false ∧ (Instr.retireStart 8).wf = false ∧ (Instr.thermalTrip 0 114).wf = false ∧
    (Instr.blkResetDone 0 2304).wf = false ∧ (Instr.blkResetDone 1 128).wf = false ∧ (Instr.blkResetDone 2 16).wf = false ∧
    (Instr.blkResetDone 3 0).wf = false ∧ (Instr.stageBu5 []).wf = false ∧ (Instr.stageBu7 ⟨[(0, 7)], []⟩).wf = false ∧
    (Instr.stageBu7 ⟨[], [73728]⟩).wf = false ∧ (Instr.wakeDone 0 [(0, 0)]).wf = false ∧
    (Instr.shutdownTestPhase [] [73728]).wf = false ∧ (Instr.jtagBypass 6).wf = false ∧ (Instr.jtagBypass 0x40).wf = false ∧
    (Instr.jtagBypass 0xFF).wf = true ∧ (Instr.chestCopyStart 0).wf = false ∧ (Instr.chestCopyStart 5).wf = false := by decide +kernel

/-! ## The spec's worked examples -/

/-- Device memory of P9: its range, stack S4, and channels 10 and 11 at the hub of C77 (01, "locating LT1234"). -/
theorem test_memory_of_P9 :
    partOf 0x9000000000 = 9 ∧ partOf 0x98FFFFFFFF = 9 ∧ stackOf 0x9000000000 = 4 ∧ memHub (0x9000000000 + 10 * 512) = 77 ∧
    memHub (0x9000000000 + 11 * 512) = 77 ∧ memHub (0x9000000000 + 12 * 512) = 78 := by decide +kernel

/-- The addresses of that example name the blocks it says (17, "addresses of one tile and its session"). -/
theorem test_addresses_of_C77 :
    blockOf 0x14D0100 = some (.clus 77, 0x100) ∧ blockOf 0x490210 = some (.part 9, 0x210) ∧
    blockOf 0x2CA2B0 = some (.spn .east, 0x4A2B0) ∧ blockOf 0x210280 = some (.spn .west, 0x10280) ∧
    blockOf 0x110004 = some (.fab 16, 4) := by decide +kernel

/-- C77 as that example has it: slot 2 at index 16, PT1388 fenced, and the windows of port A (not of port B)
showing indices 16 and 17. -/
def c77 : State :=
  ((((up.modTop fun t => { t with owner := .a }).updClus 77 fun c => { c with remap := [0, 1, 16] }).updRole 1388
    fun r => { r with role := .fenced }).accWrite .portA 0x14D0180 1)

/-- TILE_ID at 0x014D_8000 has bench 0, lt 1,234 and pt 1,402; at 0x014D_9000 it has pt 1,388 and bench 1. -/
theorem test_tile_id_of_C77 :
    bar0Value (c77.selOf .portA) c77 0x14D8000 = BitVec.ofNat 32 (1234 * 65536 + 1402) ∧
    bar0Value (c77.selOf .portB) c77 0x14D9000 = BitVec.ofNat 32 (2 ^ 31 + 1388) := by decide +kernel

/-- Two elements of the block-scaled dot product: 6 × 1.5 = 9 and −1.5 × 4 = −6 in E2M1, as block 0 of the example gives 3.75 and
blocks 1 and 2 give 2^-23 (02, "a block-scaled dot product"). -/
theorem test_block_results :
    blockResult .e2m1 .e2m1 32 0x7C 0x81 [7, 0xB, 1, 5, 4, 0xE, 2, 3] [3, 6, 0xF, 1, 4, 2, 0xD, 7] = 0x40700000 ∧
    blockResult .e2m1 .e2m1 32 0x6A 0x7F [0, 0, 0, 1] [0, 0, 0, 1] = 0x34000000 ∧
    blockResult .e2m1 .e2m1 32 0x7F 0x7F [0, 0] [0, 0] = 0 := by decide +kernel

/-- The same blocks accumulated: 0x4070_0000 plain, 0x4070_0001 compensated. -/
theorem test_block_accumulation :
    let bs : List Word := [0x40700000, 0x34000000, 0x34000000, 0]
    accDrain false (bs.foldl (accAdd false) {}) = 0x40700000 ∧ accDrain true (bs.foldl (accAdd true) {}) = 0x40700001 := by
  decide +kernel

/-- 64 KiB of accumulator take 8 frets to spill (03, "a fold cycle"). -/
theorem test_spill_frets : spillFrets 65536 = 8 := by decide

/-- Of the aborts of the worked example every chip takes the one of chip 5 (04, "aborts that fall together"). -/
theorem test_aborts_that_fall_together :
    let a : List AbortSt := [⟨90312, 2, .parity, 90012⟩, ⟨90310, 9, .slip, 90010⟩, ⟨90310, 5, .bound, 90010⟩]
    ({ aborts := a } : TaskRt).abort = some ⟨90310, 5, .bound, 90010⟩ ∧
    ({ aborts := a.reverse } : TaskRt).abort = some ⟨90310, 5, .bound, 90010⟩ := by decide +kernel

/-- A flight of 1,412 cycles gives an allowance of 47 frets (04, "a word crossing two chips"). -/
theorem test_flight_allowance :
    flightOf [⟨0, 1412, 1500, 2912⟩] = 1412 ∧ ((up.loadFlight 10 [⟨0, 1412, 1500, 2912⟩]).flightReg 10).allow = 47 := by decide +kernel

/-- Queue 41 of the worked example, with its tail at unit 230 in lap 1. -/
def q41 : State := up.updQueue 41 fun q => { q with state := .bound, kind := 1, size := 4, head := 86, tail := 230, tailLap := true }

/-- A PAD of 26 units with lap 1 fills the ring to its end, Y's record of 48 units takes units 0 to 47 with lap 0, and the tail is
at 48 (07, "a wrap with padding"). -/
theorem test_wrap_with_padding :
    let r : RecSt := ⟨1, 0, false, 48, [], 4, 9, 0, false, none, 0, []⟩
    let q := (q41.placeRec 41 r).queue 41
    q.ringUnits = 256 ∧ q.recs.map (fun r => (r.kind, r.unit, r.lap, r.units)) = [(2, 230, true, 26), (1, 0, false, 48)] ∧
    q.tail = 48 ∧ q.tailLap = false := by decide +kernel

/-- SHAKE256 of the empty string, as FIPS 202 (14 R668 takes it) gives its first bytes. -/
theorem test_shake256_of_nothing : shake256 4 [] = [0x46, 0xB9, 0xDD, 0x2B] := by decide +kernel

/-- CRC-32C of "123456789", the polynomial's usual check value. -/
theorem test_crc32c : crc32c [0x31, 0x32, 0x33, 0x34, 0x35, 0x36, 0x37, 0x38, 0x39] = 0xE3069283 := by decide +kernel

/-! ## Witnesses of the statements' hypotheses -/

/-- The hypotheses of the clauses of `Obligations.AlignmentFollowsBeacons` can be met. -/
theorem test_witness_AlignmentFollowsBeacons :
    (∃ (s : State), (s.fret.state = .aligned ∨ s.fret.state = .member ∨ s.fret.state = .holdover) ∧ s.fret.west.toNat % 1024 = 0) ∧
    (∃ (s : State), ((s.fret.state ≠ .aligned ∧ s.fret.state ≠ .member ∧ s.fret.state ≠ .holdover) ∨ s.fret.west.toNat % 1024 ≠ 0)) ∧
    (∃ (s : State) (p : FabPort) (b : Beacon), (s.parentPort ≠ some p ∨ b.domain ≠ s.fret.domain)) ∧
    (∃ (s : State) (p : FabPort) (b : Beacon), s.parentPort = some p ∧ b.domain = s.fret.domain ∧ (s.fret.state = .unlocked ∨
      s.fret.state = .change)) ∧
    (∃ (s : State) (p : FabPort) (b : Beacon), s.parentPort = some p ∧ b.domain = s.fret.domain ∧ s.fret.state = .free) ∧
    (∃ (s : State) (p : FabPort) (b : Beacon) (cycle : Nat), s.parentPort = some p ∧ b.domain = s.fret.domain ∧ s.fret.state =
      .track ∧ (s.beaconErr b s.now cycle (s.flightReg p).flight.toNat).natAbs ≤ 2) ∧
    (∃ (s : State) (p : FabPort) (b : Beacon) (cycle : Nat), s.parentPort = some p ∧ b.domain = s.fret.domain ∧ s.fret.state =
      .track ∧ 2 < (s.beaconErr b s.now cycle (s.flightReg p).flight.toNat).natAbs) ∧
    (∃ (s : State) (p : FabPort) (b : Beacon), s.parentPort = some p ∧ b.domain = s.fret.domain ∧ s.fret.state = .aligned) ∧
    (∃ (s : State) (p : FabPort) (b : Beacon) (cycle : Nat), s.parentPort = some p ∧ b.domain = s.fret.domain ∧ (s.fret.state =
      .member ∨ s.fret.state = .holdover) ∧ (s.beaconErr b s.now cycle (s.flightReg p).flight.toNat).natAbs ≤ 2) ∧
    (∃ (s : State) (p : FabPort) (b : Beacon) (cycle : Nat), s.parentPort = some p ∧ b.domain = s.fret.domain ∧ (s.fret.state =
      .member ∨ s.fret.state = .holdover) ∧ 2 < (s.beaconErr b s.now cycle (s.flightReg p).flight.toNat).natAbs) ∧
    (∃ (s : State) (p : FabPort) (b : Beacon), s.parentPort = some p ∧ b.domain = s.fret.domain ∧ s.fret.state = .split) ∧
    (∃ (s : State), s.fret.root = false ∧ 8192 ≤ s.fret.sinceBeacon ∧ s.fret.state = .member) ∧
    (∃ (s : State), 8192 ≤ s.fret.sinceBeacon ∧ (s.fret.state = .track ∨ s.fret.state = .aligned)) ∧
    (∃ (s : State), (s.fret.sinceBeacon < 8192 ∨ (s.fret.state = .member ∧ s.fret.root = true))) ∧
    (∃ (s : State), s.fret.state = .holdover ∧ 2 ^ 20 ≤ s.fret.sinceBeacon) ∧
    (∃ (s : State), (s.fret.state ≠ .holdover ∨ s.fret.sinceBeacon < 2 ^ 20)) ∧
    (∃ (s : State), s.fret.state = .aligned ∧ s.fret.west.toNat % 2 ^ 20 = 0) ∧
    (∃ (s : State), (s.fret.state ≠ .aligned ∨ s.fret.west.toNat % 2 ^ 20 ≠ 0)) :=
  ⟨⟨fr fun f => { f with state := .member, children := 3, west := 1024 }, by decide +kernel⟩,
    ⟨fr fun f => { f with west := 1 }, by decide +kernel⟩,
    ⟨up, 0, ⟨0, 0, 0⟩, by decide +kernel⟩,
    ⟨fr fun f => { f with parent := 0, state := .unlocked, sinceBeacon := 4 }, 0, ⟨0, 0, 0⟩, by decide +kernel⟩,
    ⟨fr fun f => { f with parent := 16, state := .free }, 16, ⟨4096, 0, 0⟩, by decide +kernel⟩,
    ⟨fr fun f => { f with parent := 0, state := .track, good := 15, west := 8 }, 0, ⟨8, 0, 0⟩, 2, by decide +kernel⟩,
    ⟨fr fun f => { f with parent := 0, state := .track, good := 15, west := 8 }, 0, ⟨8, 0, 0⟩, 3, by decide +kernel⟩,
    ⟨fr fun f => { f with parent := 0, state := .aligned, west := 8 }, 0, ⟨8, 0, 0⟩, by decide +kernel⟩,
    ⟨fr fun f => { f with parent := 0, state := .holdover, west := 8 }, 0, ⟨8, 0, 0⟩, 2, by decide +kernel⟩,
    ⟨(fr fun f => { f with parent := 0, west := 8 }).updTask 7 fun t => { t with phase := .running }, 0, ⟨8, 0, 0⟩, 3,
      by decide +kernel⟩,
    ⟨fr fun f => { f with parent := 0, state := .split, west := 8, east := 9 }, 0, ⟨8, 0, 0⟩, by decide +kernel⟩,
    ⟨fr fun f => { f with sinceBeacon := 8192 }, by decide +kernel⟩,
    ⟨fr fun f => { f with state := .track, sinceBeacon := 8192 }, by decide +kernel⟩,
    ⟨fr fun f => { f with sinceBeacon := 8191 }, by decide +kernel⟩,
    ⟨fr fun f => { f with state := .holdover, sinceBeacon := 2 ^ 20 }, by decide +kernel⟩,
    ⟨fr fun f => { f with state := .holdover, sinceBeacon := 2 ^ 20 - 1 }, by decide +kernel⟩,
    ⟨fr fun f => { f with state := .aligned, west := 0x100000, east := 4 }, by decide +kernel⟩,
    ⟨fr fun f => { f with state := .aligned, west := 0x100001 }, by decide +kernel⟩⟩

/-- The hypotheses of the clauses of `Obligations.ClockAndSeamEvents` can be met. -/
theorem test_witness_ClockAndSeamEvents :
    (∃ (s : State) (w e : BitVec 16), s.fret.state = .unlocked ∧ s.passed 2 = true ∧ w.toNat ≤ s.fuse.grade.mhz ∧ e.toNat ≤
      s.fuse.grade.mhz) ∧
    (∃ (s : State) (w e : BitVec 16), s.fret.state = .unlocked ∧ (s.passed 2 = false ∨ s.fuse.grade.mhz < w.toNat ∨ s.fuse.grade.mhz
      < e.toNat)) ∧
    (∃ (s : State) (w e : BitVec 16), s.fret.state = .change ∧ s.fret.root = false ∧ w.toNat = s.changeTarget ∧ e.toNat =
      s.changeTarget) ∧
    (∃ (s : State) (w e : BitVec 16), s.fret.state = .change ∧ s.fret.root = true ∧ w.toNat = s.changeTarget ∧ e.toNat =
      s.changeTarget) ∧
    (∃ (s : State) (w e : BitVec 16), s.fret.state = .change ∧ (w.toNat ≠ s.changeTarget ∨ e.toNat ≠ s.changeTarget)) ∧
    (∃ (s : State), (s.fret.state = .member ∨ s.fret.state = .holdover)) ∧
    (∃ (s : State), s.fret.state ≠ .member ∧ s.fret.state ≠ .holdover) ∧
    (∃ (s : State), s.fret.state = .split ∧ s.clk.divW = false ∧ s.clk.divE = false ∧ s.fret.splitClock = false) ∧
    (∃ (s : State), (s.fret.state ≠ .split ∨ s.clk.divW = true ∨ s.clk.divE = true ∨ s.fret.splitClock = true)) ∧
    (∃ (s : State) (fc : U64), s.fret.state = .member ∧ s.fret.changeAt = some fc ∧ fc.toNat ≤ s.fret.west.toNat) ∧
    (∃ (s : State), (s.fret.state ≠ .member ∨ s.fret.changeAt = none)) :=
  ⟨⟨fr fun f => { f with state := .unlocked, west := 9, good := 2 }, 3000, 2999, by decide +kernel⟩,
    ⟨fr fun f => { f with state := .unlocked }, 3001, 100, by decide +kernel⟩,
    ⟨fr fun f => { f with state := .change, changeMhz := 2000, frozen := true }, 2000, 2000, by decide +kernel⟩,
    ⟨fr fun f => { f with state := .change, root := true, changeMhz := 2000, frozen := true }, 2000, 2000, by decide +kernel⟩,
    ⟨fr fun f => { f with state := .change, changeMhz := 2000 }, 2000, 1999, by decide +kernel⟩,
    ⟨up.updTask 7 fun t => { t with phase := .running }, by decide +kernel⟩,
    ⟨fr fun f => { f with state := .track }, by decide +kernel⟩,
    ⟨fr fun f => { f with state := .split, west := 9, east := 11 }, by decide +kernel⟩,
    ⟨fr fun f => { f with state := .split, splitClock := true }, by decide +kernel⟩,
    ⟨fr fun f => { f with changeAt := some 8, west := 8 }, 8, by decide +kernel⟩,
    ⟨up, by decide +kernel⟩⟩

/-- The hypotheses of the clauses of `Obligations.DomainMessagesTakeEffect` can be met. -/
theorem test_witness_DomainMessagesTakeEffect :
    (∃ (s : State) (p : FabPort) (xs : List Exchange), (s.flightReg p).measuring = true ∧ xs.length = 256) ∧
    (∃ (s : State) (p : FabPort) (xs : List Exchange), ((s.flightReg p).measuring = false ∨ xs.length ≠ 256)) ∧
    (∃ (s : State), s.fret.root = true) ∧
    (∃ (s : State) (p : FabPort), s.parentPort = some p) ∧
    (∃ (s : State) (eff : U64), s.fret.root = true ∧ s.fret.pending = [] ∧ s.wanted ≠ s.fret.stretch.toNat ∧ s.fret.west.toNat +
      4096 ≤ eff.toNat) ∧
    (∃ (s : State) (eff : U64) (last : BitVec 6 × U64), s.fret.root = true ∧ s.fret.pending.getLast? = some last ∧
      s.fret.pending.length < 4 ∧ s.wanted ≠ last.1.toNat ∧ s.fret.west.toNat + 4096 ≤ eff.toNat ∧ last.2.toNat < eff.toNat) ∧
    (∃ (s : State) (last : BitVec 6 × U64), s.fret.root = true ∧ s.fret.pending.getLast? = some last ∧ 4 ≤ s.fret.pending.length ∧
      s.wanted ≠ last.1.toNat) ∧
    (∃ (s : State) (eff : U64), s.fret.west.toNat < eff.toNat) ∧
    (∃ (s : State) (eff : U64), (s.fret.state = .member ∨ s.fret.state = .holdover) ∧ eff.toNat ≤ s.fret.west.toNat) ∧
    (∃ (s : State) (eff : U64), s.fret.state ≠ .member ∧ s.fret.state ≠ .holdover ∧ eff.toNat ≤ s.fret.west.toNat) ∧
    (∃ (s : State) (v : BitVec 6) (eff : U64) (rest : List (BitVec 6 × U64)), s.fret.pending = (v, eff) :: rest ∧ eff.toNat ≤
      s.fret.west.toNat) ∧
    (∃ (s : State) (v : BitVec 6) (eff : U64) (rest : List (BitVec 6 × U64)), s.fret.pending = (v, eff) :: rest ∧ s.fret.west.toNat
      < eff.toNat) ∧
    (∃ (s : State) (m : AbortMsg) (x : TaskRt), Tab.find s.tasks m.task.toNat = some x ∧ x.busy = true ∧ s.fret.west.toNat ≤ m.fret) ∧
    (∃ (s : State) (m : AbortMsg) (x : TaskRt), Tab.find s.tasks m.task.toNat = some x ∧ x.busy = true ∧ m.fret < s.fret.west.toNat) ∧
    (∃ (s : State) (m : AbortMsg), Tab.find s.tasks m.task.toNat = none ∧ s.listed m.task = true ∧ s.fret.west.toNat ≤ m.fret) :=
  ⟨⟨fr fun f => { f with flights := [(3, { measuring := true })] }, 3, List.replicate 256 ⟨0, 4, 5, 9⟩, by decide +kernel⟩,
    ⟨fr fun f => { f with flights := [(3, { measuring := true })] }, 3, [], by decide +kernel⟩,
    ⟨fr fun f => { f with root := true }, by decide +kernel⟩,
    ⟨fr fun f => { f with parent := 16 }, 16, by decide +kernel⟩,
    ⟨fr fun f => { f with root := true, requests := [(4, 7)], children := 5 }, 4096, by decide +kernel⟩,
    ⟨fr fun f => { f with root := true, requests := [(4, 7)], pending := [(1, 4095), (2, 4096), (3, 4097)], children := 5 }, 4098,
      (3, 4097), by decide +kernel⟩,
    ⟨fr fun f => { f with root := true, requests := [(4, 7)], pending := [(1, 4095), (2, 4096), (3, 4097), (4, 5000)] }, (4, 5000),
      by decide +kernel⟩,
    ⟨fr fun f => { f with children := 5, west := 8 }, 9, by decide +kernel⟩,
    ⟨(fr fun f => { f with west := 9 }).updTask 7 (fun t => { t with phase := .running }), 9, by decide +kernel⟩,
    ⟨fr fun f => { f with west := 9, state := .track }, 9, by decide +kernel⟩,
    ⟨fr fun f => { f with west := 9, pending := [(3, 9), (4, 10)] }, 3, 9, [(4, 10)], by decide +kernel⟩,
    ⟨fr fun f => { f with west := 9, pending := [(3, 10)] }, 3, 10, [], by decide +kernel⟩,
    ⟨(fr fun f => { f with west := 9, children := 3, parent := 5 }).updTask 7 (fun t => { t with phase := .armed, launch := 20 }),
      ⟨7, 9, 3, .parity⟩, { phase := .armed, launch := 20 }, by decide +kernel⟩,
    ⟨(fr fun f => { f with west := 9, children := 3, parent := 5 }).updTask 7 (fun t =>
      { t with phase := .running, launch := 5, length := 20 }), ⟨7, 8, 3, .parity⟩,
      { phase := .running, launch := 5, length := 20 }, by decide +kernel⟩,
    ⟨loaded (tcfg (fold [] [] [])) fun f => { f with west := 9, children := 3 }, ⟨5, 9, 3, .parity⟩, by decide +kernel⟩⟩

/-- The hypotheses of the clauses of `Obligations.OwnerTokenMoves` can be met. -/
theorem test_witness_OwnerTokenMoves :
    (∃ (s : State), s.top.owner = .none) ∧
    (∃ (s : State) (p : HostPort), s.top.owner = p.owner) ∧
    (∃ (s : State) (p : HostPort), s.top.owner = p.other.owner) ∧
    (∃ (s : State) (p : HostPort), s.top.owner ≠ p.owner) :=
  ⟨⟨up, by decide +kernel⟩,
    ⟨up.modTop fun t => { t with owner := .a }, .a, by decide +kernel⟩,
    ⟨up.modTop fun t => { t with owner := .b }, .a, by decide +kernel⟩,
    ⟨up.modTop fun t => { t with owner := .b }, .a, by decide +kernel⟩⟩

/-- The hypotheses of the clauses of `Obligations.HostPortEvents` can be met. -/
theorem test_witness_HostPortEvents :
    (∃ (s : State) (p : HostPort), (s.pcieOf p).perstN = true) ∧
    (∃ (s : State) (p : HostPort), (s.pcieOf p).perstN = false) ∧
    (∃ (n : Nat), 36 ≤ n ∧ n ≤ 40) ∧
    (∃ (n : Nat), (n < 36 ∨ 40 < n)) ∧
    (∃ (m : BitVec 3), m.toNat ≤ 5) ∧
    (∃ (m : BitVec 3), 5 < m.toNat) ∧
    (∃ (s : State) (acc : Accessor) (p : HostPort), (acc = p.accessor ∨ s.mayWrite acc = true)) ∧
    (∃ (s : State) (acc : Accessor) (p : HostPort) (v : BitVec 32) (k : Nat), (acc = p.accessor ∨ s.mayWrite acc = true) ∧ (s.queue
      (v.extractLsb' 18 12 : BitVec 12).toNat).state ≠ .unbound ∧ rxPort (s.queue (v.extractLsb' 18 12 : BitVec 12).toNat).kind =
      some p ∧ boundary (v.extractLsb' 0 18 : BitVec 18).toNat (bit v 30) (s.queue (v.extractLsb' 18 12 : BitVec 12).toNat) (s.queue
      (v.extractLsb' 18 12 : BitVec 12).toNat).recs = some k) ∧
    (∃ (s : State) (acc : Accessor) (p : HostPort) (v : BitVec 32), (acc = p.accessor ∨ s.mayWrite acc = true) ∧ ((s.queue
      (v.extractLsb' 18 12 : BitVec 12).toNat).state = .unbound ∨ rxPort (s.queue (v.extractLsb' 18 12 : BitVec 12).toNat).kind ≠
      some p ∨ boundary (v.extractLsb' 0 18 : BitVec 18).toNat (bit v 30) (s.queue (v.extractLsb' 18 12 : BitVec 12).toNat) (s.queue
      (v.extractLsb' 18 12 : BitVec 12).toNat).recs = none)) ∧
    (∃ (s : State) (p : HostPort), s.holdsToken p.other = false) ∧
    (∃ (s : State) (p : HostPort), (s.top.pin.get p).pulseDue = true ∧ s.busyPin = false) ∧
    (∃ (s : State) (p : HostPort), ((s.top.pin.get p).pulseDue = false ∨ s.busyPin = true)) :=
  ⟨⟨up.updPcie .a fun r => { r with perstN := true }, .a, by decide +kernel⟩,
    ⟨up, .a, by decide +kernel⟩,
    ⟨40, by decide +kernel⟩,
    ⟨41, by decide +kernel⟩,
    ⟨5, by decide +kernel⟩,
    ⟨6, by decide +kernel⟩,
    ⟨up, .mc, .a, by decide +kernel⟩,
    ⟨up.updQueue 7 (fun q =>
      { q with state := .bound, kind := 3, size := 1, tail := 1, recs := [⟨0, 0, false, 1, [1], 0, 0, 0, false, none, 0, []⟩] }),
      .portA, .a, 0x001C0001, 1, by decide +kernel⟩,
    ⟨up, .portB, .b, 0, by decide +kernel⟩,
    ⟨up, .a, by decide +kernel⟩,
    ⟨up.modTop fun t => { t with pin := ⟨{ pulseDue := true }, {}⟩, ready := true }, .a, by decide +kernel⟩,
    ⟨up, .a, by decide +kernel⟩⟩

/-- The hypotheses of the clauses of `Obligations.HostWindowAccesses` can be met. -/
theorem test_witness_HostWindowAccesses :
    (∃ (s : State) (p : HostPort) (off len : Nat), s.reach (s.bar2Addr p off) len ≠ .ok) ∧
    (∃ (s : State) (p : HostPort) (off len : Nat) (errs : List (Nat × BitErr)), s.reach (s.bar2Addr p off) len = .ok ∧ (((s.noteErrs
      (errs.filter fun e => (sectorsOf (s.bar2Addr p off) len).contains e.1)).checkRange (s.bar2Addr p off) len).1 = [])) ∧
    (∃ (s : State) (p : HostPort) (off len : Nat) (errs : List (Nat × BitErr)), s.reach (s.bar2Addr p off) len = .ok ∧ (((s.noteErrs
      (errs.filter fun e => (sectorsOf (s.bar2Addr p off) len).contains e.1)).checkRange (s.bar2Addr p off) len).1 ≠ [])) ∧
    (∃ (s : State) (p : HostPort) (off : Nat) (data : List Byte), s.reach (s.bar2Addr p off) data.length ≠ .ok) ∧
    (∃ (s : State) (p : HostPort) (off : Nat) (data : List Byte), s.reach (s.bar2Addr p off) data.length = .ok) ∧
    (∃ (s : State) (p : HostPort), ((s.pcieOf p).stalled ≠ [] ∨ 64 ≤ (s.pcieOf p).slots.length)) ∧
    (∃ (s : State) (p : HostPort) (off : Nat) (data : List Byte) (a : Assembly), (s.pcieOf p).stalled = [] ∧ (s.pcieOf
      p).slots.length < 64 ∧ off % 0x10000 + data.length ≤ 0x1004 ∧ data ≠ [] ∧ (a = Assembly.puts (((s.pcieOf p).slots.find? fun a
      => decide (a.conn = off / 0x10000 % 4096)).getD ⟨off / 0x10000 % 4096, [], s.now, 0x1004⟩) (off % 0x10000) data) ∧ a.result =
      .waits) ∧
    (∃ (s : State) (p : HostPort) (off : Nat) (data : List Byte) (a : Assembly), (s.pcieOf p).stalled = [] ∧ (s.pcieOf
      p).slots.length < 64 ∧ off % 0x10000 + data.length ≤ 0x1004 ∧ data ≠ [] ∧ (a = Assembly.puts (((s.pcieOf p).slots.find? fun a
      => decide (a.conn = off / 0x10000 % 4096)).getD ⟨off / 0x10000 % 4096, [], s.now, 0x1004⟩) (off % 0x10000) data) ∧ a.result =
      .broken) ∧
    (∃ (s : State) (p : HostPort) (off : Nat) (data : List Byte) (a : Assembly) (body : List Byte), (s.pcieOf p).stalled = [] ∧
      (s.pcieOf p).slots.length < 64 ∧ off % 0x10000 + data.length ≤ 0x1004 ∧ data ≠ [] ∧ (a = Assembly.puts (((s.pcieOf
      p).slots.find? fun a => decide (a.conn = off / 0x10000 % 4096)).getD ⟨off / 0x10000 % 4096, [], s.now, 0x1004⟩) (off %
      0x10000) data) ∧ a.result = .complete body ∧ txPort (s.conn (off / 0x10000 % 4096)).srcKind ≠ some p) ∧
    (∃ (s : State) (p : HostPort) (off : Nat) (data : List Byte) (a : Assembly) (body : List Byte), (s.pcieOf p).stalled = [] ∧
      (s.pcieOf p).slots.length < 64 ∧ off % 0x10000 + data.length ≤ 0x1004 ∧ data ≠ [] ∧ (a = Assembly.puts (((s.pcieOf
      p).slots.find? fun a => decide (a.conn = off / 0x10000 % 4096)).getD ⟨off / 0x10000 % 4096, [], s.now, 0x1004⟩) (off %
      0x10000) data) ∧ a.result = .complete body ∧ txPort (s.conn (off / 0x10000 % 4096)).srcKind = some p ∧ (s.conn (off / 0x10000
      % 4096)).state = .opened ∧ (s.conn (off / 0x10000 % 4096)).nak = false ∧ (s.conn (off / 0x10000 % 4096)).outst < (s.conn (off
      / 0x10000 % 4096)).quota ∧ (s.conn (off / 0x10000 % 4096)).outst.toNat + recUnits body.length ≤ (s.conn (off / 0x10000 %
      4096)).grant.toNat) ∧
    (∃ (s : State) (p : HostPort) (c : ConnN), (((s.pcieOf p).slots.any fun a => decide (a.conn = c.val) && decide (a.first + 2 ^ 20
      ≤ s.now)) = true) ∧ (s.pcieOf p).stalled = []) ∧
    (∃ (s : State) (p : HostPort) (c : ConnN), (((s.pcieOf p).slots.any fun a => decide (a.conn = c.val) && decide (a.first + 2 ^ 20
      ≤ s.now)) = true)) ∧
    (∃ (s : State) (p : HostPort) (c : ConnN), (((s.pcieOf p).slots.any fun a => decide (a.conn = c.val) && decide (a.first + 2 ^ 20
      ≤ s.now)) = false)) :=
  ⟨⟨up, .a, 0, 4, by decide +kernel⟩,
    ⟨up.updPart 0 (fun p => { p with hbm := .active, trained := 0xFFFF }), .a, 0, 4, [], by decide +kernel⟩,
    ⟨up.updPart 0 (fun p => { p with hbm := .active, trained := 0xFFFF }), .a, 0, 4, [(0, .two)], by decide +kernel⟩,
    ⟨up, .a, 0, [1], by decide +kernel⟩,
    ⟨up.updPart 0 (fun p => { p with hbm := .active, trained := 0xFFFF }), .a, 8, [1, 2, 3], by decide +kernel⟩,
    ⟨up.updPcie .a (fun r => { r with slots := (List.range 64).map fun i => ⟨i, [], 0, 0x1004⟩ }), .a, by decide +kernel⟩,
    ⟨up, .a, 0x30000, [1], (⟨3, [(0, 1)], 0, 0x1004⟩), by decide +kernel⟩,
    ⟨up.updPcie .a (fun r => { r with slots := [⟨3, [(0, 1)], 0, 0x1004⟩] }), .a, 0x30000, [1], ⟨3, [(0, 1)], 0, 0⟩,
      by decide +kernel⟩,
    ⟨up, .a, 0x30000, [0, 0, 0, 0, 9], ⟨3, [(0, 0), (1, 0), (2, 0), (3, 0), (4, 9)], 0, 0x1004⟩, [9], by decide +kernel⟩,
    ⟨up.updConn 3 (fun c => { c with srcKind := 1, state := .opened, grant := 1, quota := 1 }), .a, 0x30000, [0, 0, 0, 0, 9], ⟨3,
      [(0, 0), (1, 0), (2, 0), (3, 0), (4, 9)], 0, 0x1004⟩, [9], by decide +kernel⟩,
    ⟨(fr fun f => { f with west := 0x100000 }).updPcie .a (fun r => { r with slots := [⟨3, [(0, 1)], 0, 0x1004⟩] }), .a, 3,
      by decide +kernel⟩,
    ⟨(fr fun f => { f with west := 0x100000 }).updPcie .a (fun r =>
      { r with slots := [⟨3, [(0, 1)], 0, 0x1004⟩], stalled := [(0, [1])] }), .a, 3, by decide +kernel⟩,
    ⟨(fr fun f => { f with west := 0xFFFFF }).updPcie .a (fun r => { r with slots := [⟨3, [(0, 1)], 0, 0x1004⟩] }), .a, 3,
      by decide +kernel⟩⟩

/-- The hypotheses of the clauses of `Obligations.CauseSetsAbortFret` can be met. -/
theorem test_witness_CauseSetsAbortFret :
    (∃ (s : State) (n : BitVec 32) (x : TaskRt), Tab.find s.tasks n.toNat = some x ∧ x.phase ≠ .committed ∧ x.phase ≠ .stopped) ∧
    (∃ (s : State) (n : BitVec 32) (x : TaskRt), Tab.find s.tasks n.toNat = some x ∧ (x.phase = .committed ∨ x.phase = .stopped)) :=
  ⟨⟨(fr fun f => { f with west := 9, horizon := 40 }).updTask 7 (fun t =>
      { t with phase := .armed, launch := 50, length := 20, multi := true, aborts := [⟨60, 1, .bound, 3⟩] }), 7,
      { phase := .armed, launch := 50, length := 20, multi := true, aborts := [⟨60, 1, .bound, 3⟩] }, by decide +kernel⟩,
    ⟨up.updTask 7 (fun t => { t with phase := .stopped }), 7, { phase := .stopped }, by decide +kernel⟩⟩

/-- The hypotheses of the clauses of `Obligations.TilesArmAndLaunch` can be met. -/
theorem test_witness_TilesArmAndLaunch :
    (∃ (s : State) (lt : Lt), s.tileTakes (s.ptOf lt) = true) ∧
    (∃ (s : State) (lt : Lt), (s.role (s.ptOf lt)).role = .fenced) ∧
    (∃ (s : State) (lt : Lt), (s.role (s.ptOf lt)).role ≠ .fenced ∧ s.tileTakes (s.ptOf lt) = false) ∧
    (∃ (s : State) (lt : Lt) (m : ArmMsg), s.tileTakes (s.ptOf lt) = true ∧ (s.tile (s.ptOf lt)).capture = none ∧ m.launch ≤ s.now) ∧
    (∃ (s : State) (lt : Lt), s.tileTakes (s.ptOf lt) = true ∧ (s.tile (s.ptOf lt)).capture ≠ none) ∧
    (∃ (s : State) (lt : Lt) (m : ArmMsg) (b : BankSt), s.tileTakes (s.ptOf lt) = true ∧ (s.tile (s.ptOf lt)).capture = none ∧ s.now
      < m.launch ∧ s.allowShort m.task = false ∧ m.streams = [] ∧ (if m.current then (s.tile (s.ptOf lt)).cur else (s.tile (s.ptOf
      lt)).next) = some b ∧ armCheck b.cfg = none) ∧
    (∃ (s : State) (lt : Lt) (m : ArmMsg) (b : BankSt), s.tileTakes (s.ptOf lt) = true ∧ (s.tile (s.ptOf lt)).capture = none ∧ s.now
      < m.launch ∧ (if m.current then (s.tile (s.ptOf lt)).cur else (s.tile (s.ptOf lt)).next) = some b ∧ armCheck b.cfg = none) ∧
    (∃ (s : State) (lt : Lt) (m : ArmMsg) (b : BankSt) (e : Nat), s.tileTakes (s.ptOf lt) = true ∧ (s.tile (s.ptOf lt)).capture =
      none ∧ s.now < m.launch ∧ s.allowShort m.task = false ∧ m.streams = [] ∧ (if m.current then (s.tile (s.ptOf lt)).cur else
      (s.tile (s.ptOf lt)).next) = some b ∧ armCheck b.cfg = some e) ∧
    (∃ (s : State) (task : BitVec 32) (lt : Nat × TileCfg), ((s.task task).phase = .waiting ∨ (s.task task).phase = .armed) ∧ s.now
      + 16 = (s.task task).launch ∧ lt ∈ s.effTiles task ∧ (s.tile (s.ptOf lt.1)).armed = none) ∧
    (∃ (s : State) (task : BitVec 32), s.now + 16 ≠ (s.task task).launch) ∧
    (∃ (s : State) (task : BitVec 32), ((s.task task).phase = .waiting ∨ (s.task task).phase = .armed) ∧ (s.task task).launch =
      s.now ∧ s.launchSlips task = false ∧ s.launchCauses task = [] ∧ s.unfit task = none ∧ (s.task task).dead = false) ∧
    (∃ (s : State) (task : BitVec 32), Tab.find s.tasks task.toNat = some (s.task task) ∧ ((s.task task).phase = .waiting ∨ (s.task
      task).phase = .armed) ∧ (s.task task).launch = s.now ∧ s.unfit task = none ∧ s.fret.state ≠ .member ∧ s.fret.state ≠
      .holdover) ∧
    (∃ (s : State) (task : BitVec 32) (x : Nat), Tab.find s.tasks task.toNat = some (s.task task) ∧ ((s.task task).phase = .waiting
      ∨ (s.task task).phase = .armed) ∧ (s.task task).launch = s.now ∧ s.unfit task = some x) ∧
    (∃ (s : State) (task : BitVec 32), ((s.task task).launch ≠ s.now ∨ ((s.task task).phase ≠ .waiting ∧ (s.task task).phase ≠
      .armed))) :=
  ⟨⟨up, 0, by decide +kernel⟩,
    ⟨up.updRole 0 (fun r => { r with role := .fenced }), 0, by decide +kernel⟩,
    ⟨up.updTile 0 (fun t => { t with inReset := true }), 0, by decide +kernel⟩,
    ⟨(fr fun f => { f with west := 10 }).updTask 5 (fun t => { t with phase := .armed, launch := 30, length := 8 }), 0, ⟨5, 0, 10,
      false, []⟩, by decide +kernel⟩,
    ⟨up.updTile 0 (fun t => { t with capture := some ⟨5, .macPass, 0, 0, 0, {}⟩ }), 0, by decide +kernel⟩,
    ⟨up.updTile 0 (fun t => { t with next := some ⟨5, ⟨8, [fold [] [] []]⟩⟩, cfgErr := true }), 0, ⟨5, 0, 10, false, []⟩, ⟨5, ⟨8,
      [fold [] [] []]⟩⟩, by decide +kernel⟩,
    ⟨(loaded { tcfg (fold [] [] []) with allow := [(2, 3)] } fun f => { f with flights := [(2, { allow := 4 })] }).modTiles (fun _
      => [(0, { cur := some ⟨5, ⟨8, [fold [] [] []]⟩⟩ })]) |>.updTask 5 (fun t => { t with sched := 1 }), 0, ⟨5, 0, 10, true, []⟩,
      ⟨5, ⟨8, [fold [] [] []]⟩⟩, by decide +kernel⟩,
    ⟨up.updTile 0 (fun t => { t with next := some ⟨5, ⟨9, [fold [] [] []]⟩⟩, armedOk := true }), 0, ⟨5, 0, 10, false, []⟩, ⟨5, ⟨9,
      [fold [] [] []]⟩⟩, 1, by decide +kernel⟩,
    ⟨(loaded (tcfg (fold [] [] [])) fun f => { f with west := 4 }).updTask 5 (fun t => { t with sched := 1, launch := 20 }), 5, (0,
      ⟨8, [fold [] [] []]⟩), by decide +kernel⟩,
    ⟨(fr fun f => { f with west := 5 }).updTask 5 (fun t => { t with launch := 20 }), 5, by decide +kernel⟩,
    ⟨((loaded (tcfg (fold [] [] [])) fun f => { f with west := 10 }).updTask 5 fun t =>
      { t with sched := 1, launch := 10, length := 16 }).modTiles (fun _ => [(0,
      { next := some ⟨5, ⟨8, [fold [] [] []]⟩⟩, armed := some ⟨5, 0, 10, false⟩, armedOk := true })]), 5, by decide +kernel⟩,
    ⟨((loaded (tcfg (fold [] [] [])) fun f => { f with west := 10, state := .track }).updTask 5 fun t =>
      { t with sched := 1, launch := 10, length := 16 }).modTiles (fun _ => [(0,
      { next := some ⟨5, ⟨8, [fold [] [] []]⟩⟩, armed := some ⟨5, 0, 10, false⟩, armedOk := true })]), 5, by decide +kernel⟩,
    ⟨((loaded (tcfg (fold [] [] [])) fun f => { f with west := 10 }).updTask 5 fun t =>
      { t with sched := 1, launch := 10, length := 16 }).modHealx (fun h =>
      { h with roles := [(0, { role := .fenced }), (16, { role := .fenced }), (17, { role := .fenced })] }), 5, 0,
      by decide +kernel⟩,
    ⟨up.updTask 5 (fun t => { t with launch := 1 }), 5, by decide +kernel⟩⟩

/-- The hypotheses of the clauses of `Obligations.TilesFireAndReturnCredits` can be met. -/
theorem test_witness_TilesFireAndReturnCredits :
    (∃ (s : State) (lt : Lt) (pt : Nat) (a : Armed) (c : TileCfg) (i : Nat), s.runs lt = some (pt, a, c) ∧ s.active a c = some (i,
      0) ∧ s.inTime a = true) ∧
    (∃ (s : State) (lt : Lt) (pt : Nat) (a : Armed) (c : TileCfg), s.runs lt = some (pt, a, c) ∧ (s.inTime a = false ∨ (∀ i,
      s.active a c ≠ some (i, 0)))) ∧
    (∃ (s : State) (lt : Lt), s.sinks (s.ptOf lt) = true) ∧
    (∃ (s : State) (lt : Lt) (fold port n pt : Nat) (a : Armed) (c : TileCfg) (f : FoldCfg) (o : OutputCfg) (e : EdgeOut), s.sinks
      (s.ptOf lt) = false ∧ s.foldCfg lt fold = some (pt, a, c, f) ∧ f.outputs[port]? = some o ∧ o.edges.head? = some e ∧ ((s.foldRt
      pt fold).credits.getD port 0) + (listUpd (s.foldRt pt fold).fresh port (· + n)).getD port 0 ≤ e.depth ∧ fold < (s.tile
      pt).rt.length) ∧
    (∃ (s : State) (lt : Lt) (fold port n pt : Nat) (a : Armed) (c : TileCfg) (f : FoldCfg) (o : OutputCfg) (e : EdgeOut), s.sinks
      (s.ptOf lt) = false ∧ s.foldCfg lt fold = some (pt, a, c, f) ∧ f.outputs[port]? = some o ∧ o.edges.head? = some e ∧ e.depth <
      ((s.foldRt pt fold).credits.getD port 0) + (listUpd (s.foldRt pt fold).fresh port (· + n)).getD port 0 ∧ fold < (s.tile
      pt).rt.length) ∧
    (∃ (s : State) (lt : Lt) (pt : Nat) (a : Armed) (c : TileCfg) (i o : Nat) (f : FoldCfg) (ins : Taken) (u : State), s.runs lt =
      some (pt, a, c) ∧ s.active a c = some (i, o) ∧ c.folds[i]? = some f ∧ (firingOffsets f).contains o = true ∧ s.inTime a = true
      ∧ (s.tile pt).mode = .run ∧ (s.foldRt pt i).lastFire ≠ some s.now ∧ ((s.updRt pt i fun r =>
      { r with lastFire := some s.now }).takeInputs lt i (steerInputs f) f.inputs.zipIdx = (ins, u, none))) ∧
    (∃ (s : State) (lt : Lt) (pt : Nat) (a : Armed) (c : TileCfg) (i o : Nat) (f : FoldCfg) (ins : Taken) (u : State) (st : Status),
      s.runs lt = some (pt, a, c) ∧ s.active a c = some (i, o) ∧ c.folds[i]? = some f ∧ (firingOffsets f).contains o = true ∧
      s.inTime a = true ∧ (s.tile pt).mode = .run ∧ (s.foldRt pt i).lastFire ≠ some s.now ∧ ((s.updRt pt i fun r =>
      { r with lastFire := some s.now }).takeInputs lt i (steerInputs f) f.inputs.zipIdx = (ins, u, some st))) ∧
    (∃ (s : State) (lt : Lt) (pt : Nat) (a : Armed) (c : TileCfg) (i o : Nat) (f : FoldCfg), s.runs lt = some (pt, a, c) ∧ s.active
      a c = some (i, o) ∧ c.folds[i]? = some f ∧ ((firingOffsets f).contains o = false ∨ s.inTime a = false ∨ (s.tile pt).mode ≠
      .run ∨ (s.foldRt pt i).lastFire = some s.now)) ∧
    (∃ (s : State) (lt : Lt), s.runs lt = none) ∧
    (∃ (s : State) (pt : Pt) (w : Nat), s.freeSlot pt.val (sramBank (8 * w)) = true) ∧
    (∃ (s : State) (pt : Pt) (w : Nat), s.freeSlot pt.val (sramBank (8 * w)) = false) ∧
    (∃ (s : State) (pt : Pt), (s.tile pt).inReset = true) ∧
    (∃ (s : State) (pt : Pt), (s.tile pt).inReset = false) ∧
    (∃ (s : State) (lt : Lt) (fold port pt : Nat) (a : Armed) (c : TileCfg) (f : FoldCfg) (o : OutputCfg) (e : EdgeOut) (es : List
      EdgeOut), s.foldCfg lt fold = some (pt, a, c, f) ∧ f.outputs[port]? = some o ∧ o.edges = e :: es ∧ max ((s.task a.task).ending
      - 1) (a.launch + o.lastCredit) + 1 = s.now ∧ s.alive a.task = true ∧ (s.foldRt pt fold).credits.getD port 0 ≠ e.depth) ∧
    (∃ (s : State) (lt : Lt) (fold port pt : Nat) (a : Armed) (c : TileCfg) (f : FoldCfg) (o : OutputCfg) (e : EdgeOut) (es : List
      EdgeOut), s.foldCfg lt fold = some (pt, a, c, f) ∧ f.outputs[port]? = some o ∧ o.edges = e :: es ∧ (s.foldRt pt
      fold).credits.getD port 0 = e.depth) :=
  ⟨⟨running (fold [] [] []) {} 18, 0, 0, ⟨5, 0, 10, true⟩, ⟨8, [fold [] [] []]⟩, 0, by decide +kernel⟩,
    ⟨running (fold [] [] []) {} 26, 0, 0, ⟨5, 0, 10, true⟩, ⟨8, [fold [] [] []]⟩, by decide +kernel, .inl (by decide +kernel)⟩,
    ⟨up.updRole 0 (fun r => { r with role := .fenced }), 0, by decide +kernel⟩,
    ⟨running (fold [] [outp 1] []) { credits := [3], fresh := [0] } 12, 0, 0, 0, 1, 0, ⟨5, 0, 10, true⟩, ⟨8, [fold [] [outp 1] []]⟩,
      fold [] [outp 1] [], outp 1, edgeOut, by decide +kernel⟩,
    ⟨running (fold [] [outp 1] []) { credits := [3], fresh := [0] } 12, 0, 0, 0, 2, 0, ⟨5, 0, 10, true⟩, ⟨8, [fold [] [outp 1] []]⟩,
      fold [] [outp 1] [], outp 1, edgeOut, by decide +kernel⟩,
    ⟨running (fold [⟨.edge edgeIn, 1⟩] [] []) { queues := [[word 7]], used := [0] } 12, 0, 0, ⟨5, 0, 10, true⟩, ⟨8, [fold [⟨.edge
      edgeIn, 1⟩] [] []]⟩, 0, 2, fold [⟨.edge edgeIn, 1⟩] [] [], ⟨[List.replicate 128 7], [0], [[]]⟩, ((((running (fold [⟨.edge
      edgeIn, 1⟩] [] []) { queues := [[word 7]], used := [0] } 12).updRt 0 0 fun r => { r with lastFire := some 12 }).takeInputs 0 0
      (steerInputs (fold [⟨.edge edgeIn, 1⟩] [] [])) (fold [⟨.edge edgeIn, 1⟩] [] []).inputs.zipIdx).2.1), by decide +kernel,
      by decide +kernel, by decide +kernel, by decide +kernel, by decide +kernel, by decide +kernel, by decide +kernel, rfl⟩,
    ⟨running (fold [⟨.edge edgeIn, 1⟩] [] []) { queues := [[]], used := [0] } 12, 0, 0, ⟨5, 0, 10, true⟩, ⟨8, [fold [⟨.edge edgeIn,
      1⟩] [] []]⟩, 0, 2, fold [⟨.edge edgeIn, 1⟩] [] [], (((((running (fold [⟨.edge edgeIn, 1⟩] [] [])
      { queues := [[]], used := [0] } 12).updRt 0 0 fun r => { r with lastFire := some 12 }).takeInputs 0 0 (steerInputs (fold
      [⟨.edge edgeIn, 1⟩] [] [])) (fold [⟨.edge edgeIn, 1⟩] [] []).inputs.zipIdx)).1), ((((running (fold [⟨.edge edgeIn, 1⟩] [] [])
      { queues := [[]], used := [0] } 12).updRt 0 0 fun r => { r with lastFire := some 12 }).takeInputs 0 0 (steerInputs (fold
      [⟨.edge edgeIn, 1⟩] [] [])) (fold [⟨.edge edgeIn, 1⟩] [] []).inputs.zipIdx).2.1), .bound, by decide +kernel,
      by decide +kernel, by decide +kernel, by decide +kernel, by decide +kernel, by decide +kernel, by decide +kernel, rfl⟩,
    ⟨running (fold [] [] []) {} 13, 0, 0, ⟨5, 0, 10, true⟩, ⟨8, [fold [] [] []]⟩, 0, 3, fold [] [] [], by decide +kernel⟩,
    ⟨up, 0, by decide +kernel⟩,
    ⟨up, 0, 131071, by decide +kernel⟩,
    ⟨running { fold [] [] [] with wheel := (List.finRange 16).map fun k => ⟨0, k, .array⟩ } {} 12, 0, 0, by decide +kernel⟩,
    ⟨up.updTile 0 (fun t => { t with inReset := true, sram := [(4, 4)] }), 0, by decide +kernel⟩,
    ⟨up, 2303, by decide +kernel⟩,
    ⟨running (fold [] [outp 1] []) { credits := [3], fresh := [0] } 31, 0, 0, 0, 0, ⟨5, 0, 10, true⟩, ⟨8, [fold [] [outp 1] []]⟩,
      fold [] [outp 1] [], outp 1, edgeOut, [], by decide +kernel⟩,
    ⟨running (fold [] [outp 1] []) { credits := [4], fresh := [0] } 31, 0, 0, 0, 0, ⟨5, 0, 10, true⟩, ⟨8, [fold [] [outp 1] []]⟩,
      fold [] [outp 1] [], outp 1, edgeOut, [], by decide +kernel⟩⟩

def w10u : SteerCfg := ⟨[0], 1, 1, 4, 0, 1, 1, 1⟩

def w10f : FoldCfg := fold [⟨.edge edgeIn, 1⟩, ⟨.queue, 1⟩] [outp 1] [w10u]

def w10r : RecSt := ⟨0, 0, false, 1, [3, 0, 0, 0], 0, 0, 0, false, none, 0, []⟩

def w10 (q : List QWord) (ts : List (Word × Nat)) (now : U64) : State := running w10f
  { queues := [q, []], credits := [4], used := [0, 0], steers := [{ tokens := ts }] } now

def w10q : State := (w10 [] [] 12).updQueue 7 fun q =>
  { q with state := .bound, kind := 1, input := 1, size := 1, tail := 1, recs := [w10r] }

/-- The hypotheses of the clauses of `Obligations.SteeringUnitsAct` can be met. -/
theorem test_witness_SteeringUnitsAct :
    (∃ (s : State) (lt : Lt) (fold unit pt : Nat) (a : Armed) (c : TileCfg) (f : FoldCfg) (u : SteerCfg) (r : RecSt) (v : State),
      s.steerOf lt fold unit = some (pt, a, c, f, u) ∧ s.inTime a = true ∧ s.takeMessage lt fold u.token = some (r, v)) ∧
    (∃ (s : State) (lt : Lt) (fold unit pt : Nat) (a : Armed) (c : TileCfg) (f : FoldCfg) (u : SteerCfg), s.steerOf lt fold unit =
      some (pt, a, c, f, u) ∧ (s.inTime a = false ∨ s.takeMessage lt fold u.token = none)) ∧
    (∃ (s : State) (lt : Lt) (fold unit pt : Nat) (a : Armed) (c : TileCfg) (f : FoldCfg) (u : SteerCfg) (t : Word × Nat) (ts : List
      (Word × Nat)) (o : OutputCfg) (w : State), s.steerOf lt fold unit = some (pt, a, c, f, u) ∧ (s.steerRt pt fold unit).tokens =
      t :: ts ∧ groupFret a c fold u (s.steerRt pt fold unit).emitted + u.bound.toNat + 1 = s.now ∧ t.2 < s.now ∧ 0 < s.groupsReady
      lt fold u ∧ s.inTime a = true ∧ f.outputs[u.out]? = some o ∧ (w = ((s.updSteer pt fold unit fun _ =>
      { tokens := ts, emitted := (s.steerRt pt fold unit).emitted + 1 }).each u.data fun s i => s.dropWords lt fold i u.group).when
      (((f.inputs[u.token]?).bind InputCfg.edge).isSome) (·.dropWords lt fold u.token 1))) ∧
    (∃ (s : State) (lt : Lt) (fold unit pt : Nat) (a : Armed) (c : TileCfg) (f : FoldCfg) (u : SteerCfg), s.steerOf lt fold unit =
      some (pt, a, c, f, u) ∧ (s.inTime a = false ∨ (s.steerRt pt fold unit).tokens = [])) ∧
    (∃ (s : State) (lt : Lt) (fold unit pt : Nat) (a : Armed) (c : TileCfg) (f : FoldCfg) (u : SteerCfg), s.steerOf lt fold unit =
      some (pt, a, c, f, u) ∧ s.inTime a = true ∧ 0 < u.count ∧ groupFret a c fold u (s.steerRt pt fold unit).emitted + 1 = s.now ∧
      s.groupsReady lt fold u = 0) ∧
    (∃ (s : State) (lt : Lt) (fold unit pt : Nat) (a : Armed) (c : TileCfg) (f : FoldCfg) (u : SteerCfg), s.steerOf lt fold unit =
      some (pt, a, c, f, u) ∧ s.inTime a = true ∧ 0 < u.count ∧ groupFret a c fold u (s.steerRt pt fold unit).emitted +
      u.bound.toNat + 1 = s.now ∧ (s.steerRt pt fold unit).tokens = []) ∧
    (∃ (s : State) (lt : Lt) (fold unit pt : Nat) (a : Armed) (c : TileCfg) (f : FoldCfg) (u : SteerCfg) (t : Word × Nat), s.steerOf
      lt fold unit = some (pt, a, c, f, u) ∧ s.inTime a = true ∧ (s.steerRt pt fold unit).tokens = [t] ∧ t.2 + u.bound.toNat + 1 =
      s.now ∧ s.groupsReady lt fold u = 0) ∧
    (∃ (s : State) (lt : Lt) (fold unit pt : Nat) (a : Armed) (c : TileCfg) (f : FoldCfg) (u : SteerCfg), s.steerOf lt fold unit =
      some (pt, a, c, f, u) ∧ s.inTime a = false) :=
  ⟨⟨w10q, 0, 0, 0, 0, ⟨5, 0, 10, true⟩, ⟨8, [w10f]⟩, w10f, w10u, w10r, ((w10q.takeMessage 0 0 1).map (·.2)).getD up,
      by decide +kernel⟩,
    ⟨w10 [] [] 12, 0, 0, 0, 0, ⟨5, 0, 10, true⟩, ⟨8, [w10f]⟩, w10f, w10u, by decide +kernel⟩,
    ⟨w10 [word 7] [(8, 13)] 16, 0, 0, 0, 0, ⟨5, 0, 10, true⟩, ⟨8, [w10f]⟩, w10f, w10u, (8, 13), [], outp 1, ((w10 [word 7] [(8, 13)]
      16).updSteer 0 0 0 fun _ => { tokens := [], emitted := 1 }).dropWords 0 0 0 1, by decide +kernel⟩,
    ⟨w10 [] [] 12, 0, 0, 0, 0, ⟨5, 0, 10, true⟩, ⟨8, [w10f]⟩, w10f, w10u, by decide +kernel⟩,
    ⟨w10 [] [] 12, 0, 0, 0, 0, ⟨5, 0, 10, true⟩, ⟨8, [w10f]⟩, w10f, w10u, by decide +kernel⟩,
    ⟨w10 [] [] 16, 0, 0, 0, 0, ⟨5, 0, 10, true⟩, ⟨8, [w10f]⟩, w10f, w10u, by decide +kernel⟩,
    ⟨w10 [] [(3, 13)] 18, 0, 0, 0, 0, ⟨5, 0, 10, true⟩, ⟨8, [w10f]⟩, w10f, w10u, (3, 13), by decide +kernel⟩,
    ⟨w10 [] [] 26, 0, 0, 0, 0, ⟨5, 0, 10, true⟩, ⟨8, [w10f]⟩, w10f, w10u, by decide +kernel⟩⟩

def w11 (q : List Held) (now : U64) : State := (running (fold [⟨.edge edgeIn, 1⟩] [outp 1] [])
  { queues := [[]], used := [0], credits := [3], fresh := [0] } now).modHeld fun _ => [(rpKey (.fabric 3), q), (rpKey (.bridge 2
  true), q), (rpKey (.tile 0), q)]

def w11c : Worm := { worm 12 with head := { (worm 12).head with wtype := 1, fold := 0, port := 0, count := 1 }, payload := [] }

/-- The hypotheses of the clauses of `Obligations.FretsAndReleasePoints` can be met. -/
theorem test_witness_FretsAndReleasePoints :
    (∃ (s : State), s.fret.state ≠ .unlocked ∧ s.fret.frozen = false ∧ s.apart = false) ∧
    (∃ (s : State), s.fret.state ≠ .unlocked ∧ s.fret.frozen = false ∧ s.apart = true) ∧
    (∃ (s : State), s.fret.state = .split) ∧
    (∃ (s : State), (s.fret.state = .member ∨ s.fret.state = .holdover)) ∧
    (∃ (s : State), (s.fret.state = .unlocked ∨ s.fret.frozen = true)) ∧
    (∃ (s : State) (rp : ReleasePoint) (w : Worm) (flits : Nat) (last : Bool), w.head.wtype.toNat < 2 ∧ ((Tab.get [] s.held (rpKey
      rp)).find? (·.partOf w)).any (·.lost) = false ∧ s.orphan w = false ∧ (last = true → w.head.poison = false) ∧ ((rpCap rp).any
      (fun cap => decide (cap < s.occupancy (rpKey rp) + flits)) = false) ∧ 0 < s.toStamp w) ∧
    (∃ (s : State) (rp : ReleasePoint) (w : Worm) (flits : Nat) (last : Bool) (x : TaskRt), w.head.wtype.toNat < 2 ∧ ((Tab.get []
      s.held (rpKey rp)).find? (·.partOf w)).any (·.lost) = false ∧ s.orphan w = false ∧ (last = true → w.head.poison = false) ∧
      ((rpCap rp).any (fun cap => decide (cap < s.occupancy (rpKey rp) + flits)) = true) ∧ Tab.find s.tasks w.head.task.toNat = some
      x ∧ x.phase ≠ .committed ∧ x.phase ≠ .stopped) ∧
    (∃ (s : State) (rp : ReleasePoint) (w : Worm) (flits : Nat) (last : Bool), w.head.wtype.toNat < 2 ∧ ((Tab.get [] s.held (rpKey
      rp)).find? (·.partOf w)).any (·.lost) = false ∧ s.orphan w = false ∧ (last = true → w.head.poison = false) ∧ ((rpCap rp).any
      (fun cap => decide (cap < s.occupancy (rpKey rp) + flits)) = false) ∧ s.toStamp w ≤ 0) ∧
    (∃ (s : State) (rp : ReleasePoint) (w : Worm), w.head.wtype.toNat < 2 ∧ ((Tab.get [] s.held (rpKey rp)).find? (·.partOf w)).any
      (·.lost) = false ∧ s.orphan w = true) ∧
    (∃ (s : State) (p : FabPort), (Tab.get {} s.relx.transit (transitKey 4 p)).count + 1 < max 1 s.rel.parThresh.toNat) ∧
    (∃ (s : State) (rp : ReleasePoint) (w : Worm), w.head.wtype.toNat < 2 ∧ s.toStamp w = 0 ∧ s.orphan w = false ∧ (∀ h ∈ Tab.get []
      s.held (rpKey rp), h.w = w → h.whole = false ∧ h.lost = false)) ∧
    (∃ (s : State) (rp : ReleasePoint) (w : Worm) (h : Held), h ∈ Tab.get [] s.held (rpKey rp) ∧ h.w = w ∧ (h.whole = true ∨ h.lost
      = true)) ∧
    (∃ (s : State) (p : FabPort) (n : Nat) (h : Held), (Tab.get [] s.held (rpKey (.fabric p)))[n]? = some h ∧ h.whole = true ∧
      s.toStamp h.w = 0 ∧ s.orphan h.w = false) ∧
    (∃ (s : State) (row : Fin 8) (e : Bool) (n : Nat) (h : Held), (Tab.get [] s.held (rpKey (.bridge row e)))[n]? = some h ∧ h.whole
      = true ∧ s.toStamp h.w = 0 ∧ s.orphan h.w = false) ∧
    (∃ (s : State) (lt : Lt) (n : Nat) (h : Held) (pt : Nat) (a : Armed) (c : TileCfg) (f : FoldCfg), (Tab.get [] s.held (rpKey
      (.tile lt)))[n]? = some h ∧ h.whole = true ∧ s.toStamp h.w = 0 ∧ s.orphan h.w = false ∧ s.sinks (s.ptOf lt) = false ∧
      h.w.head.wtype = 0 ∧ s.foldCfg lt h.w.head.fold = some (pt, a, c, f) ∧ a.task = h.w.head.task ∧ f.steers = []) ∧
    (∃ (s : State) (lt : Lt) (n : Nat) (h : Held), (Tab.get [] s.held (rpKey (.tile lt)))[n]? = some h ∧ h.whole = true ∧ s.toStamp
      h.w = 0 ∧ s.orphan h.w = false ∧ s.sinks (s.ptOf lt) = false ∧ h.w.head.wtype ≠ 0 ∧ (s.tile (s.ptOf lt)).running.map (·.task)
      = some h.w.head.task) ∧
    (∃ (s : State) (rp : ReleasePoint) (n : Nat) (h : Held), (Tab.get [] s.held (rpKey rp))[n]? = some h ∧ s.orphan h.w = true) ∧
    (∃ (s : State) (rp : ReleasePoint) (n : Nat) (h : Held), (Tab.get [] s.held (rpKey rp))[n]? = some h ∧ s.orphan h.w = false ∧
      (h.whole = false ∨ s.toStamp h.w ≠ 0)) :=
  ⟨⟨fr fun f => { f with state := .aligned, west := 8, east := 9 }, by decide +kernel⟩,
    ⟨fr fun f => { f with state := .split, west := 8, east := 9 }, by decide +kernel⟩,
    ⟨fr fun f => { f with state := .split }, by decide +kernel⟩,
    ⟨fr fun f => { f with state := .holdover }, by decide +kernel⟩,
    ⟨fr fun f => { f with frozen := true }, by decide +kernel⟩,
    ⟨w11 [⟨worm 13, 511, false, false, 0⟩] 12, .fabric 3, worm 13, 1, true, by decide +kernel⟩,
    ⟨w11 [⟨worm 13, 512, false, false, 0⟩] 12, .fabric 3, worm 13, 1, true, ((w11 [] 12).task 5), by decide +kernel⟩,
    ⟨w11 [] 12, .bridge 2 true, worm 12, 1, false, by decide +kernel⟩,
    ⟨(w11 [⟨worm 13, 1, false, false, 0⟩] 12).updTask 5 (fun t => { t with phase := .stopped }), .fabric 3, worm 13,
      by decide +kernel⟩,
    ⟨w11 [] 12, 3, by decide +kernel⟩,
    ⟨w11 [] 12, .fabric 3, worm 12, by decide +kernel⟩,
    ⟨w11 [⟨worm 12, 1, true, false, 0⟩] 12, .fabric 3, worm 12, ⟨worm 12, 1, true, false, 0⟩, by decide +kernel⟩,
    ⟨w11 [⟨worm 12, 1, true, false, 0⟩] 12, 3, 0, ⟨worm 12, 1, true, false, 0⟩, by decide +kernel⟩,
    ⟨w11 [⟨worm 12, 1, true, false, 0⟩] 12, 2, true, 0, ⟨worm 12, 1, true, false, 0⟩, by decide +kernel⟩,
    ⟨w11 [⟨worm 12, 1, true, false, 0⟩] 12, 0, 0, ⟨worm 12, 1, true, false, 0⟩, 0, ⟨5, 0, 10, true⟩, ⟨8, [fold [⟨.edge edgeIn, 1⟩]
      [outp 1] []]⟩, fold [⟨.edge edgeIn, 1⟩] [outp 1] [], by decide +kernel⟩,
    ⟨w11 [⟨w11c, 1, true, false, 0⟩] 12, 0, 0, ⟨w11c, 1, true, false, 0⟩, by decide +kernel⟩,
    ⟨(w11 [⟨worm 12, 1, true, false, 0⟩] 12).updTask 5 (fun t => { t with phase := .stopped }), .fabric 3, 0, ⟨worm 12, 1, true,
      false, 0⟩, by decide +kernel⟩,
    ⟨w11 [⟨worm 13, 1, true, false, 0⟩] 12, .fabric 3, 0, ⟨worm 13, 1, true, false, 0⟩, by decide +kernel⟩⟩

def w12 (now : U64) (t : TaskRt) : State := (loaded (tcfg (fold [⟨.edge edgeIn, 1⟩] [] [])) fun f =>
  { f with west := now }).modTasks fun _ => [(5, t)]

def w12f (q : List QWord) : State := running (fold [⟨.edge edgeIn, 1⟩] [] []) { queues := [q], used := [0] } 26

def w12s (r : List (Nat × RoleSt)) : State := up.modHealx fun h => { h with roles := r }

/-- The hypotheses of the clauses of `Obligations.TasksArmAndEnd` can be met. -/
theorem test_witness_TasksArmAndEnd :
    (∃ (s : State) (sched task : BitVec 32) (x : SchedSt) (c : TaskCfg), s.sched? sched = some x ∧ (x.image.tasks.find? (fun c =>
      decide (c.number = task)) = some c) ∧ x.started = true ∧ x.stopping = false ∧ s.relx.retState = .none ∧ (s.relx.retries.find?
      (fun r => decide (r.task = task) && decide (r.sched = sched) && !r.armed) = none) ∧ (s.task task).busy = false ∧
      s.rstc.orderly = none ∧ x.committed.contains task = false ∧ (((x.image.tasks.takeWhile fun t => decide (t.number ≠ task)).all
      fun t => x.committed.contains t.number || (s.task t.number).busy) = true)) ∧
    (∃ (s : State) (sched task : BitVec 32) (x : SchedSt) (c : TaskCfg) (r : RetrySt), s.sched? sched = some x ∧
      (x.image.tasks.find? (fun c => decide (c.number = task)) = some c) ∧ x.started = true ∧ x.stopping = false ∧ s.relx.retState =
      .none ∧ (s.relx.retries.find? (fun r => decide (r.task = task) && decide (r.sched = sched) && !r.armed) = some r) ∧ (s.task
      task).busy = false ∧ s.rstc.orderly = none) ∧
    (∃ (s : State) (sched task : BitVec 32) (x : SchedSt), s.sched? sched = some x ∧ (x.started = false ∨ x.stopping = true ∨
      s.relx.retState ≠ .none ∨ (s.task task).busy = true ∨ s.rstc.orderly ≠ none)) ∧
    (∃ (s : State) (task : BitVec 32), (s.task task).phase = .running ∧ (s.task task).ending = s.now ∧ (((s.runningTiles task).any
      fun lt => (s.tile (s.ptOf lt)).rt.any fun r => r.queues.any fun q => decide (q ≠ [])) = false) ∧ s.unjudged task = false) ∧
    (∃ (s : State) (task : BitVec 32), (s.task task).phase = .running ∧ (s.task task).ending = s.now ∧ ((((s.runningTiles task).any
      fun lt => (s.tile (s.ptOf lt)).rt.any fun r => r.queues.any fun q => decide (q ≠ [])) || s.unjudged task) = true)) ∧
    (∃ (s : State) (task : BitVec 32), ((s.task task).phase ≠ .running ∨ (s.task task).ending ≠ s.now)) ∧
    (∃ (s : State) (c : Clus) (slot : Fin 16) (j : Nat), s.clusRuns c = false ∧ s.partMode (clusPart c) ≠ .reset ∧ Tab.find (s.clus
      c).hosts slot = none ∧ ((s.role (18 * c.val + s.remapIdx c slot)).role = .fenced ∨ (s.role (18 * c.val + s.remapIdx c
      slot)).hangRemap = true) ∧ s.spareTile c = some j ∧ j ≠ 18 * c.val + s.remapIdx c slot) ∧
    (∃ (s : State) (c : Clus) (slot : Fin 16), s.clusRuns c = false ∧ s.partMode (clusPart c) ≠ .reset ∧ Tab.find (s.clus c).hosts
      slot = none ∧ ((s.role (18 * c.val + s.remapIdx c slot)).role = .fenced ∨ (s.role (18 * c.val + s.remapIdx c slot)).hangRemap
      = true) ∧ s.spareTile c = none) ∧
    (∃ (s : State) (c : Clus), (s.clusRuns c = true ∨ s.partMode (clusPart c) = .reset)) :=
  ⟨⟨loaded (tcfg (fold [] [] [])) id, 1, 5, { image := ⟨1, 1, 0, 0, [tcfg (fold [] [] [])], [], [], []⟩, started := true }, tcfg
      (fold [] [] []), by decide +kernel⟩,
    ⟨(loaded (tcfg (fold [] [] [])) id).modRelx fun r => { r with retries := [⟨1, 5, .slip, 0, 30, 0, 60, false, false, 0, 0⟩] }, 1,
      5, { image := ⟨1, 1, 0, 0, [tcfg (fold [] [] [])], [], [], []⟩, started := true }, tcfg (fold [] [] []), ⟨1, 5, .slip, 0, 30,
      0, 60, false, false, 0, 0⟩, by decide +kernel⟩,
    ⟨(loaded (tcfg (fold [] [] [])) id).modRelx fun r => { r with retState := .draining }, 1, 5,
      { image := ⟨1, 1, 0, 0, [tcfg (fold [] [] [])], [], [], []⟩, started := true }, by decide +kernel⟩,
    ⟨w12f [], 5, by decide +kernel⟩,
    ⟨w12f [word 7], 5, by decide +kernel⟩,
    ⟨running (fold [] [] []) {} 25, 5, by decide +kernel⟩,
    ⟨w12s [(0, { role := .fenced })], 0, 0, 16, by decide +kernel⟩,
    ⟨w12s [(0, { role := .fenced }), (16, { role := .fenced }), (17, { role := .fenced })], 0, 0, by decide +kernel⟩,
    ⟨running (fold [] [] []) {} 12, 0, by decide +kernel⟩⟩

def w13 (now : U64) (t : TaskRt) : State := (loaded (tcfg (fold [] [] [])) fun f => { f with west := now }).modTasks fun _ => [(5,
  { t with sched := 1, launch := 10, length := 16 })]

/-- The hypotheses of the clauses of `Obligations.TasksCommitStopOrHang` can be met. -/
theorem test_witness_TasksCommitStopOrHang :
    (∃ (s : State) (task : BitVec 32) (c : TaskCfg), ((s.task task).phase = .running ∨ (s.task task).phase = .ended) ∧ (s.task
      task).dead = false ∧ (s.task task).abortedBy (s.commitFret (s.task task)) = false ∧ s.commitFret (s.task task) = s.now ∧
      s.taskCfg task = some c) ∧
    (∃ (s : State) (task : BitVec 32), s.commits (s.task task) = false) ∧
    (∃ (s : State) (task : BitVec 32) (a : AbortSt), (s.task task).abort = some a ∧ a.fret ≤ s.now ∧ (s.task task).phase ≠
      .committed ∧ (s.task task).phase ≠ .stopped ∧ s.commits (s.task task) = false) ∧
    (∃ (s : State) (task : BitVec 32) (a : AbortSt) (x : SchedSt), (s.task task).abort = some a ∧ a.fret ≤ s.now ∧ (s.task
      task).phase ≠ .committed ∧ (s.task task).phase ≠ .stopped ∧ s.commits (s.task task) = false ∧ s.sched? (s.task task).sched =
      some x ∧ x.stopping = false ∧ retriable a.status = true ∧ (s.task task).attempt < s.rel.retryLimit.toNat ∧ s.relx.retState =
      .none ∧ s.sess.holds = []) ∧
    (∃ (s : State) (task : BitVec 32) (a : AbortSt), (s.task task).abort = some a ∧ a.fret ≤ s.now ∧ (s.task task).phase ≠
      .committed ∧ (s.task task).phase ≠ .stopped ∧ s.commits (s.task task) = false ∧ retriable a.status = false) ∧
    (∃ (s : State) (task : BitVec 32), ((s.task task).abort = none ∨ (s.task task).phase = .committed ∨ (s.task task).phase =
      .stopped ∨ s.commits (s.task task) = true)) ∧
    (∃ (s : State) (task : BitVec 32), ((s.task task).phase = .running ∨ (s.task task).phase = .ended) ∧ (s.task task).dead = false
      ∧ s.now + 1 = (s.task task).ending + (s.task task).grace ∧ ((∃ e ∈ s.effTiles task, s.tileIncomplete task e.1 e.2 = true) ∨
      s.openCtxs task ≠ [] ∨ s.openWrites task ≠ [])) ∧
    (∃ (s : State) (task : BitVec 32), (∀ e ∈ s.effTiles task, s.tileIncomplete task e.1 e.2 = false) ∧ s.openCtxs task = [] ∧
      s.openWrites task = []) :=
  ⟨⟨running (fold [] [] []) { fired := 2 } 28, 5, tcfg (fold [] [] []), by decide +kernel⟩,
    ⟨running (fold [] [] []) {} 27, 5, by decide +kernel⟩,
    ⟨w13 20 { phase := .running, aborts := [⟨20, 0, .bound, 12⟩] }, 5, ⟨20, 0, .bound, 12⟩, by decide +kernel⟩,
    ⟨w13 20 { phase := .running, attempt := 1, aborts := [⟨20, 0, .bound, 12⟩] }, 5, ⟨20, 0, .bound, 12⟩,
      { image := ⟨1, 1, 0, 0, [tcfg (fold [] [] [])], [], [], []⟩, started := true }, by decide +kernel⟩,
    ⟨w13 20 { phase := .running, aborts := [⟨20, 0, .memory, 12⟩] }, 5, ⟨20, 0, .memory, 12⟩, by decide +kernel⟩,
    ⟨w13 20 { phase := .running }, 5, by decide +kernel⟩,
    ⟨running (fold [] [] []) { fired := 1 } 27, 5, by decide +kernel⟩,
    ⟨running (fold [] [] []) { fired := 2 } 27, 5, by decide +kernel⟩⟩

/-- The hypotheses of the clauses of `Obligations.ClockRegistersTakeWrites` can be met. -/
theorem test_witness_ClockRegistersTakeWrites :
    (∃ (s : State) (acc : Accessor) (v : Word), s.mayWrite acc = true ∧ s.passed 2 = true ∧ v.extractLsb' 16 8 = s.fret.domain ∧
      (bit v 31 = false ∨ s.fret.state ≠ .free)) ∧
    (∃ (s : State) (acc : Accessor) (v : Word), s.mayWrite acc = true ∧ s.passed 2 = true ∧ v.extractLsb' 16 8 ≠ s.fret.domain ∧
      s.fret.state ≠ .unlocked) ∧
    (∃ (s : State) (acc : Accessor) (v : Word), s.mayWrite acc = true ∧ s.passed 2 = true ∧ v.extractLsb' 16 8 ≠ s.fret.domain ∧
      s.fret.state = .unlocked) ∧
    (∃ (s : State) (acc : Accessor) (v : Word), s.mayWrite acc = true ∧ s.passed 2 = true ∧ v.extractLsb' 16 8 = s.fret.domain ∧
      s.fret.state = .free ∧ bit v 31 = true) ∧
    (∃ (s : State) (acc : Accessor), s.mayWrite acc = true ∧ s.passed 2 = true ∧ (s.anyTask = true ∨ s.fret.flights.any (fun e =>
      e.2.measuring) = true)) ∧
    (∃ (s : State) (acc : Accessor), s.mayWrite acc = true ∧ s.passed 2 = true ∧ s.anyTask = false ∧ (s.fret.flights.any (fun e =>
      e.2.measuring) = false)) ∧
    (∃ (s : State) (acc : Accessor) (v : Word), s.mayWrite acc = true ∧ s.passed 0 = true ∧ s.fret.root = true ∧ s.clockOk
      (v.extractLsb' 0 16).toNat = true ∧ s.clk.pending = false) ∧
    (∃ (s : State) (acc : Accessor) (v : Word), s.mayWrite acc = true ∧ s.passed 0 = true ∧ (s.fret.root = false ∨ s.clockOk
      (v.extractLsb' 0 16).toNat = false ∨ s.clk.pending = true)) ∧
    (∃ (s : State) (acc : Accessor) (v : Word), s.mayWrite acc = true ∧ s.passed 0 = true ∧ s.anyTask = false ∧ s.clockOk
      (v.extractLsb' 0 16).toNat = true ∧ s.fret.state ≠ .unlocked ∧ s.fret.state ≠ .change) ∧
    (∃ (s : State) (acc : Accessor) (v : Word), s.mayWrite acc = true ∧ s.passed 0 = true ∧ (s.anyTask = true ∨ s.clockOk
      (v.extractLsb' 0 16).toNat = false ∨ s.fret.state = .unlocked ∨ s.fret.state = .change)) ∧
    (∃ (s : State) (acc : Accessor), s.mayWrite acc = true ∧ s.passed 0 = true ∧ s.fret.splitClock = true) ∧
    (∃ (s : State) (acc : Accessor), s.mayWrite acc = true ∧ s.passed 0 = true ∧ s.fret.splitClock = false) :=
  ⟨⟨fr fun f => { f with state := .member, sinceBeacon := 5 }, .mc, 0x83000007, by decide +kernel⟩,
    ⟨(fr fun f => { f with state := .member, west := 4, east := 4 }).updTask 7 (fun t => { t with phase := .running }), .mc,
      0x83050007, by decide +kernel⟩,
    ⟨fr fun f => { f with state := .unlocked }, .mc, 0x83050007, by decide +kernel⟩,
    ⟨fr fun f => { f with state := .free, west := 4, east := 6 }, .mc, 0x83000007, by decide +kernel⟩,
    ⟨up.updTask 7 (fun t => { t with phase := .running }), .mc, by decide +kernel⟩,
    ⟨(up.updFab 16 fun f => { f with state := .up }).updFab 2 (fun f => { f with state := .up }), .mc, by decide +kernel⟩,
    ⟨fr fun f => { f with root := true, west := 5 }, .mc, 3000, by decide +kernel⟩,
    ⟨fr fun f => { f with root := true, west := 5 }, .mc, 3001, by decide +kernel⟩,
    ⟨fr fun f => { f with root := true, west := 5 }, .mc, 0x20000000 + 2000, by decide +kernel⟩,
    ⟨up, .mc, 0x20000000 + 3001, by decide +kernel⟩,
    ⟨(fr fun f => { f with splitClock := true, state := .split }).modClk fun c =>
      { c with domainMhz := 2000, west := 1000, east := 2000 }, .mc, by decide +kernel⟩,
    ⟨up, .mc, by decide +kernel⟩⟩

/-- The hypotheses of the clauses of `Obligations.RegisterAccessesFollowTheRules` can be met. -/
theorem test_witness_RegisterAccessesFollowTheRules :
    (∃ (off len : Nat), (len ≠ 4 ∨ off % 4 ≠ 0)) ∧
    (∃ (off : Nat), blockOf off = none) ∧
    (∃ (s : State) (off o : Nat) (b : Block), blockOf off = some (b, o) ∧ (blockHas b o = false ∨ s.regAnswers b o = false)) ∧
    (∃ (s : State) (p : HostPort) (off o : Nat) (b : Block) (v : Word), off % 4 = 0 ∧ blockOf off = some (b, o) ∧ blockHas b o =
      true ∧ s.regAnswers b o = true ∧ s.holdsToken p = false ∧ s.freeWrite p b o v = false) ∧
    (∃ (s : State) (acc : Accessor) (off o : Nat) (b : Block), off % 4 = 0 ∧ blockOf off = some (b, o) ∧ blockHas b o = true ∧
      s.regAnswers b o = true ∧ s.mayWrite acc = true) ∧
    (∃ (s : State) (acc : Accessor), s.mayWrite acc = true ∧ s.passed 2 = true) ∧
    (∃ (off : Nat), off % 4 ≠ 0) ∧
    (∃ (off : Nat), off % 4 = 0) ∧
    (∃ (off : Nat), off % 4 = 0) ∧
    (∃ (off : Nat), off % 4 = 0) ∧
    (∃ (off : Nat), off % 4 ≠ 0) ∧
    (∃ (off : Nat), off % 4 = 0) ∧
    (∃ (s : State) (off o : Nat) (b : Block), off % 4 = 0 ∧ blockOf off = some (b, o) ∧ s.regAnswers b o = true ∧ pairLo b o = true) ∧
    (∃ (s : State), s.passed 2 = true) ∧
    (∃ (s : State), s.passed 0 = true) ∧
    (∃ (s : State), s.passed 0 = false) :=
  ⟨⟨0x50012, 4, by decide +kernel⟩,
    ⟨0x3FFFFFC, by decide +kernel⟩,
    ⟨up, 0x50080, 0x80, .fret, by decide +kernel⟩,
    ⟨up, .a, 0x50010, 0x10, .fret, 7, by decide +kernel⟩,
    ⟨up, .mc, 0x50010, 0x10, .fret, by decide +kernel⟩,
    ⟨up, .mc, by decide +kernel⟩,
    ⟨0x50012, by decide +kernel⟩,
    ⟨0x5000C, by decide +kernel⟩,
    ⟨0x50010, by decide +kernel⟩,
    ⟨0x50010, by decide +kernel⟩,
    ⟨0x50011, by decide +kernel⟩,
    ⟨0x50000, by decide +kernel⟩,
    ⟨fr fun f => { f with west := 0x100000005 }, 0x50000, 0, .fret, by decide +kernel⟩,
    ⟨fr fun f => { f with west := 0x100000005 }, by decide +kernel⟩,
    ⟨up.modChest fun c => { c with old := 6, oldPos := 9 }, by decide +kernel⟩,
    ⟨up.modBrup fun b => { b with stages := List.replicate 10 .notRun }, by decide +kernel⟩⟩

def two (f : CtxSt → CtxSt) (now : U64) : State := (((cs rd f now).modScheds fun _ => [(1,
  { image := ⟨1, 1, 0, 0, [{ tcfg (fold [] [] []) with writes := [3] }, { tcfg (fold [] [] []) with number := 6, tiles := [], reads := [3] }], [], [], []⟩, started := true })]).updTask
  6 fun t => { t with sched := 1, phase := .running, launch := 9, length := 16 })

/-- The hypotheses of the clauses of `Obligations.StreamContextsRun` can be met. -/
theorem test_witness_StreamContextsRun :
    (∃ (s : State) (c : Clus) (x : Ctx) (u : StreamUse) (key : Nat), key = 64 * c.val + x.val ∧ (s.ctx key).use? = some u ∧ (s.ctx
      key).fretOf u.activation = s.now ∧ ((s.ctx key).state = .armed ∧ s.spanConflict (s.ctx key).task = false ∨ (s.ctx key).state =
      .active ∧ (s.ctx key).live = false) ∧ s.alive (s.ctx key).task = true) ∧
    (∃ (s : State) (c : Clus) (x : Ctx) (u : StreamUse) (key : Nat), key = 64 * c.val + x.val ∧ (s.ctx key).use? = some u ∧ (s.ctx
      key).fretOf u.activation = s.now ∧ (s.ctx key).state = .armed ∧ s.alive (s.ctx key).task = true ∧ s.spanConflict (s.ctx
      key).task = true) ∧
    (∃ (s : State) (c : Clus) (x : Ctx) (u : StreamUse) (key : Nat) (h : HeldArm), key = 64 * c.val + x.val ∧ (s.ctx key).use? =
      some u ∧ (s.ctx key).fretOf u.activation ≠ s.now ∧ (((s.ctx key).held.find? fun h => h.uses.head?.any fun u => decide
      ((h.launch : Int) + u.activation = s.now)) = some h)) ∧
    (∃ (s : State) (c : Clus) (x : Ctx) (u : StreamUse) (key : Nat), key = 64 * c.val + x.val ∧ (s.ctx key).use? = some u ∧ u.kind =
      .read ∧ (s.ctx key).state = .active ∧ (s.ctx key).live = true ∧ (s.ctx key).next < u.n ∧ (s.ctx key).issueFret u (s.ctx
      key).next = s.now ∧ s.alive (s.ctx key).task = true) ∧
    (∃ (s : State) (c : Clus) (x : Ctx) (u : StreamUse) (key : Nat), key = 64 * c.val + x.val ∧ (s.ctx key).use? = some u ∧ (s.ctx
      key).state = .active ∧ (s.ctx key).live = true ∧ (s.ctx key).next < u.n ∧ (s.ctx key).issueFret u (s.ctx key).next = s.now ∧
      s.alive (s.ctx key).task = true) ∧
    (∃ (s : State) (c : Clus) (x : Ctx) (u : StreamUse) (key : Nat), key = 64 * c.val + x.val ∧ (s.ctx key).use? = some u ∧ (s.ctx
      key).issueFret u (s.ctx key).next ≠ s.now) ∧
    (∃ (s : State) (c : Clus) (x : Ctx) (u : StreamUse) (k key : Nat), key = 64 * c.val + x.val ∧ (s.ctx key).use? = some u ∧
      u.isWrite = false ∧ (s.ctx key).state = .active ∧ (s.ctx key).live = true ∧ k < u.n ∧ 0 < u.period ∧ (s.ctx key).fretOf
      u.first + (k * u.period : Nat) = s.now ∧ s.alive (s.ctx key).task = true ∧ (∀ d f, (s.ctx key).drawer? k = some d → d.full =
      some f → s.now ≤ f)) ∧
    (∃ (s : State) (c : Clus) (x : Ctx) (u : StreamUse) (k f key : Nat) (d : DrawerRt), key = 64 * c.val + x.val ∧ (s.ctx key).use?
      = some u ∧ u.isWrite = false ∧ (s.ctx key).state = .active ∧ (s.ctx key).live = true ∧ k < u.n ∧ 0 < u.period ∧ (s.ctx
      key).fretOf u.first + (k * u.period : Nat) = s.now ∧ (s.ctx key).drawer? k = some d ∧ d.full = some f ∧ f < s.now) ∧
    (∃ (s : State) (c : Clus) (x : Ctx) (u : StreamUse) (key : Nat), key = 64 * c.val + x.val ∧ (s.ctx key).use? = some u ∧
      u.isWrite = true ∧ (s.ctx key).state = .active ∧ (s.ctx key).live = true ∧ (s.ctx key).next < u.n ∧ (s.ctx key).drawerFret u
      (s.ctx key).next + u.period = s.now ∧ s.alive (s.ctx key).task = true) ∧
    (∃ (s : State) (c : Clus) (x : Ctx) (u : StreamUse) (key : Nat), key = 64 * c.val + x.val ∧ (s.ctx key).use? = some u ∧ (s.ctx
      key).drawerFret u (s.ctx key).next + u.period ≠ s.now) ∧
    (∃ (s : State) (c : Clus) (x : Ctx) (u : StreamUse) (key : Nat), key = 64 * c.val + x.val ∧ (s.ctx key).use? = some u ∧
      u.isWrite = true ∧ (s.ctx key).state = .active ∧ s.alive (s.ctx key).task = true ∧ (s.ctx key).unissued u s.now = true) ∧
    (∃ (s : State) (c : Clus) (x : Ctx) (u : StreamUse) (key : Nat) (d : DrawerRt), key = 64 * c.val + x.val ∧ (s.ctx key).use? =
      some u ∧ u.isWrite = true ∧ (s.ctx key).state = .active ∧ s.alive (s.ctx key).task = true ∧ s.now + 1 = (s.task (s.ctx
      key).task).ending + (s.task (s.ctx key).task).grace ∧ d ∈ (s.ctx key).drawers ∧ d.due = true ∧ d.acked < d.want) ∧
    (∃ (s : State) (c : Clus) (x : Ctx) (u : StreamUse) (key : Nat), key = 64 * c.val + x.val ∧ (s.ctx key).use? = some u ∧ (s.ctx
      key).unissued u s.now = false ∧ s.now + 1 ≠ (s.task (s.ctx key).task).ending + (s.task (s.ctx key).task).grace) ∧
    (∃ (s : State) (c : Clus) (x : Ctx) (u : StreamUse) (key : Nat), key = 64 * c.val + x.val ∧ (s.ctx key).use? = some u ∧ (s.ctx
      key).state = .active ∧ (s.ctx key).live = true ∧ (s.ctx key).fretOf u.retirement ≤ s.now ∧ (s.ctx key).outstanding = 0 ∧
      (u.isWrite = false ∨ (s.ctx key).underrun = true ∨ (s.ctx key).unissued u s.now = false)) ∧
    (∃ (s : State) (c : Clus) (x : Ctx) (u : StreamUse) (key : Nat), key = 64 * c.val + x.val ∧ (s.ctx key).use? = some u ∧ (s.now <
      (s.ctx key).fretOf u.retirement ∨ (s.ctx key).outstanding ≠ 0)) ∧
    (∃ (s : State) (c : Clus) (x : Ctx) (key : Nat), key = 64 * c.val + x.val ∧ (s.ctx key).state = .quiesce ∧ (s.ctx
      key).outstanding = 0 ∧ (s.ctx key).held = []) ∧
    (∃ (s : State) (c : Clus) (x : Ctx) (key : Nat) (h : HeldArm) (hs : List HeldArm), key = 64 * c.val + x.val ∧ (s.ctx key).state
      = .quiesce ∧ (s.ctx key).outstanding = 0 ∧ (s.ctx key).held = h :: hs) ∧
    (∃ (s : State) (c : Clus) (x : Ctx), ((s.ctx (64 * c.val + x.val)).state ≠ .quiesce ∨ (s.ctx (64 * c.val + x.val)).outstanding ≠
      0)) :=
  ⟨⟨cs rd (fun y => { y with live := false }) 8, 0, 0, rd, 0, by decide +kernel⟩,
    ⟨two (fun y => { y with state := .armed, live := false }) 8, 0, 0, rd, 0, by decide +kernel⟩,
    ⟨cs rd (fun y => { y with held := [⟨6, 20, [rd]⟩] }) 18, 0, 0, rd, 0, ⟨6, 20, [rd]⟩, by decide +kernel⟩,
    ⟨cs rd (fun y => { y with next := 3 }) 36, 0, 0, rd, 0, by decide +kernel⟩,
    ⟨cs rd id 8, 0, 0, rd, 0, by decide +kernel⟩,
    ⟨cs rd id 9, 0, 0, rd, 0, by decide +kernel⟩,
    ⟨cs rd (fun y => { y with drawers := [{ k := 1, want := 2, full := some 22 }] }) 22, 0, 0, rd, 1, 0, by decide +kernel,
      by decide +kernel, by decide +kernel, by decide +kernel, by decide +kernel, by decide +kernel, by decide +kernel,
      by decide +kernel, by decide +kernel, fun d f h g => by cases h; cases g; decide⟩,
    ⟨cs rd (fun y => { y with drawers := [{ k := 0, want := 2 }, { k := 1, want := 2, full := some 21 }] }) 22, 0, 0, rd, 1, 21, 0,
      { k := 1, want := 2, full := some 21 }, by decide +kernel⟩,
    ⟨cs wr (fun y => { y with drawers := [{ k := 0, want := 2, filled := 256 }] }) 26, 0, 0, wr, 0, by decide +kernel⟩,
    ⟨cs wr id 27, 0, 0, wr, 0, by decide +kernel⟩,
    ⟨cs wr (fun y => { y with drawers := [{ k := 0, want := 2, issued := 1, due := true }] }) 34, 0, 0, wr, 0, by decide +kernel⟩,
    ⟨cs wr (fun y => { y with drawers := [{ k := 3, want := 2, issued := 2, acked := 1, due := true }] }) 27, 0, 0, wr, 0,
      { k := 3, want := 2, issued := 2, acked := 1, due := true }, by decide +kernel⟩,
    ⟨cs wr id 28, 0, 0, wr, 0, by decide +kernel⟩,
    ⟨cs wr id 70, 0, 0, wr, 0, by decide +kernel⟩,
    ⟨cs rd (fun y => { y with outstanding := 1 }) 46, 0, 0, rd, 0, by decide +kernel⟩,
    ⟨cs rd (fun y => { y with state := .quiesce }) 30, 0, 0, 0, by decide +kernel⟩,
    ⟨cs rd (fun y => { y with state := .quiesce, held := [⟨6, 90, [rd]⟩] }) 30, 0, 0, 0, ⟨6, 90, [rd]⟩, [], by decide +kernel⟩,
    ⟨cs rd id 30, 0, 0, by decide +kernel⟩⟩

def gc : GatherCfg := ⟨0, 4, 256, 1, some 9, 2⟩

def ga : StreamUse := { rd with kind := .gather, gather := some gc }

def hrec : RecSt := ⟨1, 0, false, 1, [1, 0, 0, 0, 3, 0, 0, 0], 1, 0, 0, false, none, 3, []⟩

def h0 : State := (cs ga id 20).updQueue 7 fun q =>
  { q with state := .bound, kind := 1, ep := 0, input := 2, size := 8, recs := [hrec], tail := 1 }

def h1 : State := cs ga (fun y => { y with next := 2, hints := [(5, 2)] }) 24

def h2 (e : LpEnt) : State := h1.updPart 0 fun p => { p with lp := [(5, e)] }

/-- The hypotheses of the clauses of `Obligations.ListPredictorTakesHints` can be met. -/
theorem test_witness_ListPredictorTakesHints :
    (∃ (s r : State) (c : Clus) (x : Ctx) (u : StreamUse) (g : GatherCfg) (m : RecSt) (h : Word) (d key : Nat), key = 64 * c.val +
      x.val ∧ (s.ctx key).use? = some u ∧ u.gather = some g ∧ g.lpKey.isSome = true ∧ (s.ctx key).state ≠ .idle ∧ s.serves (useLt
      key u) (s.ctx key).task = true ∧ s.takeMessage (useLt key u) u.fold g.hintInput = some (m, r) ∧ hintsOf m.body = [(h, d)]) ∧
    (∃ (s : State) (c : Clus) (x : Ctx) (u : StreamUse) (g : GatherCfg) (key : Nat), key = 64 * c.val + x.val ∧ (s.ctx key).use? =
      some u ∧ u.gather = some g ∧ (g.lpKey = none ∨ (s.ctx key).state = .idle ∨ s.serves (useLt key u) (s.ctx key).task = false ∨
      s.takeMessage (useLt key u) u.fold g.hintInput = none)) ∧
    (∃ (s : State) (c : Clus) (x : Ctx) (u : StreamUse) (g : GatherCfg) (h : Word × Nat) (key : Nat), key = 64 * c.val + x.val ∧
      (s.ctx key).use? = some u ∧ u.gather = some g ∧ (((s.ctx key).hints.find? fun e => e.2 = (s.ctx key).next) = some h) ∧ 2 ≤
      (s.ctx key).next ∧ (s.ctx key).next < u.n ∧ (s.ctx key).drawerFret u ((s.ctx key).next - 1) ≤ s.now ∧ s.now ≤ (s.ctx
      key).issueFret u (s.ctx key).next ∧ (s.ctx key).state = .active ∧ (s.ctx key).live = true ∧ s.alive (s.ctx key).task = true ∧
      (((s.ctx key).hinted.any fun e => decide (e.1 = (s.ctx key).next)) = false) ∧ Tab.find (s.part (clusPart c.val)).lp (lpIndex
      h.1) = none) ∧
    (∃ (s : State) (c : Clus) (x : Ctx) (u : StreamUse) (g : GatherCfg) (h : Word × Nat) (key : Nat) (lk : BitVec 8) (e : LpEnt),
      key = 64 * c.val + x.val ∧ (s.ctx key).use? = some u ∧ u.gather = some g ∧ (((s.ctx key).hints.find? fun e => e.2 = (s.ctx
      key).next) = some h) ∧ 2 ≤ (s.ctx key).next ∧ (s.ctx key).next < u.n ∧ (s.ctx key).drawerFret u ((s.ctx key).next - 1) ≤ s.now
      ∧ s.now ≤ (s.ctx key).issueFret u (s.ctx key).next ∧ (s.ctx key).state = .active ∧ (s.ctx key).live = true ∧ s.alive (s.ctx
      key).task = true ∧ (((s.ctx key).hinted.any fun e => decide (e.1 = (s.ctx key).next)) = false) ∧ g.lpKey = some lk ∧ Tab.find
      (s.part (clusPart c.val)).lp (lpIndex h.1) = some e ∧ (s.part (clusPart c.val)).lpEnable = true ∧ e.key = lk ∧ e.tag = lpTag
      h.1 ∧ max 1 (s.part (clusPart c.val)).lpThreshold.toNat ≤ e.conf.toNat) ∧
    (∃ (s : State) (c : Clus) (x : Ctx) (u : StreamUse) (g : GatherCfg) (h : Word × Nat) (key : Nat), key = 64 * c.val + x.val ∧
      (s.ctx key).use? = some u ∧ u.gather = some g ∧ (((s.ctx key).hints.find? fun e => e.2 = (s.ctx key).next) = some h) ∧ 2 ≤
      (s.ctx key).next ∧ (s.ctx key).next < u.n ∧ (s.ctx key).drawerFret u ((s.ctx key).next - 1) ≤ s.now ∧ s.now ≤ (s.ctx
      key).issueFret u (s.ctx key).next ∧ (s.ctx key).state = .active ∧ (s.ctx key).live = true ∧ s.alive (s.ctx key).task = true ∧
      (((s.ctx key).hinted.any fun e => decide (e.1 = (s.ctx key).next)) = true)) ∧
    (∃ (s : State) (acc : Accessor), s.mayWrite acc = true ∧ s.passed 4 = true) :=
  ⟨⟨h0, (h0.takeMessage 0 0 2).elim h0 Prod.snd, 0, 0, ga, gc, hrec, 1, 3, 0, by decide +kernel⟩,
    ⟨cs ga id 20, 0, 0, ga, gc, 0, by decide +kernel⟩,
    ⟨h1, 0, 0, ga, gc, (5, 2), 0, by decide +kernel⟩,
    ⟨h2 ⟨9, 0, 3, [1, 2]⟩, 0, 0, ga, gc, (5, 2), 0, 9, ⟨9, 0, 3, [1, 2]⟩, by decide +kernel⟩,
    ⟨h1.updCtx 0 fun y => { y with hinted := [(2, 5)] }, 0, 0, ga, gc, (5, 2), 0, by decide +kernel⟩,
    ⟨up, .mc, by decide +kernel⟩⟩

def sm : SessCmd := ⟨true, 3, 5, 0, 2, 77⟩

def sp : State := (up.updPool 0 fun p => { p with enable := true, mask := 1, planes := 1, count := 64 }).updSession 5 fun x =>
  { x with state := .opened, quota := 4 }

def sb : State := { sp with sess := { sp.sess with cmds := [(.query, sm)] } }

def rs : State :=
  { (up.updConn 3 fun c => { c with state := .draining, srcKind := 5, grant := 100, quota := 100 }) with sess := { ({} : SessEng) with results := [(3, List.replicate 128 0)] } }

/-- The hypotheses of the clauses of `Obligations.SessionCommandsTakeEffect` can be met. -/
theorem test_witness_SessionCommandsTakeEffect :
    (∃ (s : State), (s.sess.cmds ≠ [] ∨ s.sessDue = true)) ∧
    (∃ (s : State) (op : SessOp) (m : SessCmd), s.sess.cmds = [(op, m)]) ∧
    (∃ (s : State) (m : SessCmd) (n : Nat), s.sess.cmds = [] ∧ s.sessDue = false ∧ m.pool.toNat < 16 ∧ (s.pool m.pool.toNat).enable
      = true ∧ s.poolParked m.pool.toNat = false ∧ 1 ≤ m.quota.toNat ∧ m.quota.toNat ≤ 2048 ∧ (((List.range 16384).find? fun n =>
      (s.session n).state = .free) = some n)) ∧
    (∃ (s : State) (m : SessCmd), s.sess.cmds = [] ∧ s.sessDue = false ∧ (16 ≤ m.pool.toNat ∨ (s.pool m.pool.toNat).enable = false)) ∧
    (∃ (s : State) (m : SessCmd), s.sess.cmds = [] ∧ s.sessDue = false ∧ m.pool.toNat < 16 ∧ (s.pool m.pool.toNat).enable = true ∧
      s.poolParked m.pool.toNat = false ∧ (m.quota.toNat < 1 ∨ 2048 < m.quota.toNat)) ∧
    (∃ (s : State) (m : SessCmd), s.sess.cmds = [] ∧ s.sessDue = false ∧ s.handleOk m.handle = true ∧ s.poolParked (s.session
      (handleCtx m.handle)).pool.toNat = false ∧ (s.session (handleCtx m.handle)).use = 0) ∧
    (∃ (s : State) (m : SessCmd), s.sess.cmds = [] ∧ s.sessDue = false ∧ s.handleOk m.handle = true ∧ s.poolParked (s.session
      (handleCtx m.handle)).pool.toNat = false ∧ (s.session (handleCtx m.handle)).use ≠ 0) ∧
    (∃ (s : State) (m : SessCmd), s.sess.cmds = [] ∧ s.sessDue = false ∧ s.handleOk m.handle = true ∧ s.poolParked (s.session
      (handleCtx m.handle)).pool.toNat = false ∧ 1 ≤ m.quota.toNat ∧ m.quota.toNat ≤ 2048 ∧ (s.session (handleCtx
      m.handle)).held.toNat ≤ m.quota.toNat) ∧
    (∃ (s : State) (m : SessCmd), s.sess.cmds = [] ∧ s.sessDue = false ∧ s.handleOk m.handle = true ∧ s.poolParked (s.session
      (handleCtx m.handle)).pool.toNat = false ∧ 1 ≤ m.quota.toNat ∧ m.quota.toNat ≤ 2048 ∧ m.quota.toNat < (s.session (handleCtx
      m.handle)).held.toNat ∧ (s.session (handleCtx m.handle)).use ≠ 0) ∧
    (∃ (s : State) (m : SessCmd), s.sess.cmds = [] ∧ s.sessDue = false ∧ s.handleOk m.handle = true ∧ s.poolParked (s.session
      (handleCtx m.handle)).pool.toNat = false ∧ 1 ≤ m.quota.toNat ∧ m.quota.toNat ≤ 2048 ∧ m.quota.toNat < (s.session (handleCtx
      m.handle)).held.toNat ∧ (s.session (handleCtx m.handle)).use = 0) ∧
    (∃ (s : State) (m : SessCmd), s.sess.cmds = [] ∧ s.sessDue = false ∧ s.handleOk m.handle = true ∧ s.poolParked (s.session
      (handleCtx m.handle)).pool.toNat = false ∧ (m.quota.toNat < 1 ∨ 2048 < m.quota.toNat)) ∧
    (∃ (s : State) (m : SessCmd), s.sess.cmds = [] ∧ s.sessDue = false ∧ s.handleOk m.handle = true ∧ s.poolParked (s.session
      (handleCtx m.handle)).pool.toNat = false) ∧
    (∃ (s : State) (m : SessCmd), s.sess.cmds = [] ∧ s.sessDue = false ∧ s.handleOk m.handle = false) ∧
    (∃ (s : State), s.sess.cmds = [] ∧ s.sessDue = false) ∧
    (∃ (s : State) (e : Nat × List Byte) (es : List (Nat × List Byte)), s.sess.results = e :: es ∧ ((s.conn e.1).state = .opened ∨
      (s.conn e.1).state = .draining) ∧ (s.conn e.1).sentBy 5 0 = true ∧ (s.conn e.1).waiting = [] ∧ (s.conn e.1).marker = none ∧
      (s.conn e.1).allows (recUnits 128) = true) ∧
    (∃ (s : State) (e : Nat × List Byte) (es : List (Nat × List Byte)), s.sess.results = e :: es ∧ (s.conn e.1).state = .closed) ∧
    (∃ (s : State), s.sess.results = []) ∧
    (∃ (s : State) (acc : Accessor) (n : Fin 16) (v : Word), s.mayWrite acc = true ∧ s.passed 4 = true ∧ (s.pool n).enable = false ∧
      ((s.updPool n fun p => { p with base := v.setWidth 24, cfgErr := p.cfgErr && !bit v 30 }).poolOk n = true)) ∧
    (∃ (s : State) (acc : Accessor) (n : Fin 16) (v : Word), s.mayWrite acc = true ∧ s.passed 4 = true ∧ (s.pool n).enable = false ∧
      ((s.updPool n fun p => { p with base := v.setWidth 24, cfgErr := p.cfgErr && !bit v 30 }).poolOk n = false)) ∧
    (∃ (s : State) (acc : Accessor) (n : Fin 16), s.mayWrite acc = true ∧ s.passed 4 = true ∧ (s.pool n).enable = true) :=
  ⟨⟨sb, by decide +kernel⟩,
    ⟨sb, .query, sm, by decide +kernel⟩,
    ⟨sp, sm, 0, by decide +kernel⟩,
    ⟨up, { sm with pool := 16 }, by decide +kernel⟩,
    ⟨sp, { sm with quota := 2049 }, by decide +kernel⟩,
    ⟨sp, sm, by decide +kernel⟩,
    ⟨sp.updSession 5 (fun x => { x with use := 1 }), sm, by decide +kernel⟩,
    ⟨sp.updSession 5 (fun x => { x with held := 2 }), sm, by decide +kernel⟩,
    ⟨sp.updSession 5 (fun x => { x with held := 3, use := 1 }), sm, by decide +kernel⟩,
    ⟨sp.updSession 5 (fun x => { x with held := 3 }), sm, by decide +kernel⟩,
    ⟨sp, { sm with quota := 2049 }, by decide +kernel⟩,
    ⟨sp, sm, by decide +kernel⟩,
    ⟨sp, { sm with handle := 0x40000005 }, by decide +kernel⟩,
    ⟨sp, by decide +kernel⟩,
    ⟨rs, (3, List.replicate 128 0), [], by decide +kernel⟩,
    ⟨{ (rs.updConn 3 fun c => { c with state := .closed }) with out := [] }, (3, List.replicate 128 0), [], by decide +kernel⟩,
    ⟨up, by decide +kernel⟩,
    ⟨up.updPool 2 (fun p => { p with mask := 1, planes := 1, count := 64 }), .mc, 2, 0x80040000, by decide +kernel⟩,
    ⟨up, .mc, 2, 0xC0040000, by decide +kernel⟩,
    ⟨sp, .mc, 0, by decide +kernel⟩⟩

def cn (f : ConnSt → ConnSt) : State := up.updConn 0 fun c => f
  { c with srcKind := 3, srcEp := 1, chip := 0, queue := 2, serial := 7, grant := 100, quota := 50 }

def oa : OpenAck := ⟨0, 7, .ok, 0, 33⟩

def nn : NakNotice := ⟨0, 7, 0, .nakFull, 2⟩

/-- The hypotheses of the clauses of `Obligations.SendersOpenSendAndClose` can be met. -/
theorem test_witness_SendersOpenSendAndClose :
    (∃ (s : State) (acc : Accessor), s.mayWrite acc = true ∧ s.passed 4 = true ∧ (s.conn (s.mch.connSel.get acc).toNat).state =
      .closed ∧ s.routeOk (s.conn (s.mch.connSel.get acc).toNat).srcKind (s.conn (s.mch.connSel.get acc).toNat).srcEp (s.conn
      (s.mch.connSel.get acc).toNat).chip = true) ∧
    (∃ (s : State) (acc : Accessor), s.mayWrite acc = true ∧ s.passed 4 = true ∧ (s.conn (s.mch.connSel.get acc).toNat).state =
      .closed ∧ s.routeOk (s.conn (s.mch.connSel.get acc).toNat).srcKind (s.conn (s.mch.connSel.get acc).toNat).srcEp (s.conn
      (s.mch.connSel.get acc).toNat).chip = false) ∧
    (∃ (s : State) (acc : Accessor), s.mayWrite acc = true ∧ s.passed 4 = true ∧ (s.conn (s.mch.connSel.get acc).toNat).state ≠
      .closed) ∧
    (∃ (s : State) (acc : Accessor), s.mayWrite acc = true ∧ s.passed 4 = true ∧ (s.conn (s.mch.connSel.get acc).toNat).state =
      .opened ∧ (s.conn (s.mch.connSel.get acc).toNat).waiting = [] ∧ s.resultFor (s.mch.connSel.get acc).toNat = false) ∧
    (∃ (s : State) (acc : Accessor), s.mayWrite acc = true ∧ s.passed 4 = true ∧ (s.conn (s.mch.connSel.get acc).toNat).state =
      .opened) ∧
    (∃ (s : State) (acc : Accessor), s.mayWrite acc = true ∧ s.passed 4 = true ∧ (s.conn (s.mch.connSel.get acc).toNat).state =
      .closedByPeer) ∧
    (∃ (s : State) (r : OpenAck), (s.conn r.conn).state = .opening ∧ r.serial = (s.conn r.conn).serial ∧ r.status = .ok ∧ (s.conn
      r.conn).waiting = []) ∧
    (∃ (s : State) (r : OpenAck), (s.conn r.conn).state = .opening ∧ r.serial = (s.conn r.conn).serial ∧ r.status = .ok) ∧
    (∃ (s : State) (r : OpenAck), (s.conn r.conn).state = .opening ∧ r.serial = (s.conn r.conn).serial ∧ r.status ≠ .ok) ∧
    (∃ (s : State) (r : OpenAck), r.serial ≠ (s.conn r.conn).serial ∧ r.status = .ok) ∧
    (∃ (s : State) (c : ConnN), (s.conn c).state = .opening ∧ (s.conn c).openedAt + 2 ^ 20 ≤ s.ticks) ∧
    (∃ (s : State) (c : ConnN), ((s.conn c).state ≠ .opening ∨ s.ticks < (s.conn c).openedAt + 2 ^ 20)) ∧
    (∃ (s : State) (c : ConnN) (kind : BitVec 3) (ep : BitVec 14) (body : List Byte), 0 < body.length ∧ body.length ≤ 4096 ∧ txPort
      kind = none ∧ (s.conn c).sentBy kind ep = true ∧ (s.conn c).state = .opened ∧ (s.conn c).nak = false ∧ recUnits body.length ≤
      (s.conn c).grant.toNat ∧ (s.conn c).waiting = [] ∧ (s.conn c).allows (recUnits body.length) = true) ∧
    (∃ (s : State) (c : ConnN) (kind : BitVec 3) (ep : BitVec 14) (body : List Byte), 0 < body.length ∧ body.length ≤ 4096 ∧ txPort
      kind = none ∧ (s.conn c).sentBy kind ep = true ∧ (s.conn c).state = .opened ∧ (s.conn c).nak = true) ∧
    (∃ (s : State) (c : ConnN) (kind : BitVec 3) (ep : BitVec 14) (body : List Byte), 0 < body.length ∧ body.length ≤ 4096 ∧ txPort
      kind = none ∧ (s.conn c).sentBy kind ep = true ∧ ((s.conn c).state = .opening ∨ (s.conn c).state = .opened ∧ (s.conn c).nak =
      false ∧ recUnits body.length ≤ (s.conn c).grant.toNat ∧ ((s.conn c).waiting ≠ [] ∨ (s.conn c).allows (recUnits body.length) =
      false))) ∧
    (∃ (s : State) (c : ConnN) (kind : BitVec 3) (ep : BitVec 14) (body : List Byte), 0 < body.length ∧ body.length ≤ 4096 ∧ txPort
      kind = none ∧ (s.conn c).sentBy kind ep = true ∧ (s.conn c).state = .opened ∧ (s.conn c).nak = false ∧ (s.conn c).grant.toNat
      < recUnits body.length) ∧
    (∃ (s : State) (c : ConnN) (kind : BitVec 3) (ep : BitVec 14) (body : List Byte), 0 < body.length ∧ body.length ≤ 4096 ∧ txPort
      kind = none ∧ (s.conn c).sentBy kind ep = true ∧ ((s.conn c).state = .closed ∨ (s.conn c).state = .draining ∨ (s.conn c).state
      = .closedByPeer)) ∧
    (∃ (s : State) (c : ConnN) (kind : BitVec 3) (ep : BitVec 14) (body : List Byte), 0 < body.length ∧ body.length ≤ 4096 ∧ (txPort
      kind ≠ none ∨ (s.conn c).sentBy kind ep = false)) ∧
    (∃ (s : State) (c : ConnN), ((s.conn c).state = .opened ∨ (s.conn c).state = .draining) ∧ (s.conn c).nak = false ∧ (s.conn
      c).waiting = []) ∧
    (∃ (s : State) (c : ConnN) (serial : BitVec 8), serial ≠ (s.conn c).serial) ∧
    (∃ (s : State) (m : NakNotice), (s.conn m.conn).serial = m.serial ∧ (s.conn m.conn).state = .opened ∧ (s.conn m.conn).nak =
      false ∧ (s.conn m.conn).waiting = [] ∧ (m.status = .nakFull ∨ m.status = .nakFenced ∨ m.status = .routeCut)) ∧
    (∃ (s : State) (m : NakNotice), (s.conn m.conn).serial = m.serial ∧ (s.conn m.conn).state = .opened ∧ m.status = .nakStale) ∧
    (∃ (s : State) (m : NakNotice), (s.conn m.conn).serial = m.serial ∧ (s.conn m.conn).state = .opening ∧ m.status = .routeCut) ∧
    (∃ (s : State) (m : NakNotice), (s.conn m.conn).serial ≠ m.serial) ∧
    (∃ (s : State) (c : ConnN), (s.conn c).state = .opened) ∧
    (∃ (s : State) (c : ConnN), (s.conn c).state = .draining) ∧
    (∃ (s : State) (c : ConnN) (k : Nat), (s.conn c).state = .draining ∧ (s.conn c).marker = some k ∧ s.now % 1024 = 0 ∧ (k / 1024 +
      2) * 1024 ≤ s.now ∧ (s.conn c).cuts + 1 < 16) ∧
    (∃ (s : State) (c : ConnN) (k : Nat), (s.conn c).state = .draining ∧ (s.conn c).marker = some k ∧ s.now % 1024 = 0 ∧ (k / 1024 +
      2) * 1024 ≤ s.now ∧ 16 ≤ (s.conn c).cuts + 1) ∧
    (∃ (s : State) (c : ConnN), ((s.conn c).marker = none ∨ s.now % 1024 ≠ 0)) :=
  ⟨⟨cn id, .mc, by decide +kernel⟩,
    ⟨cn fun c => { c with chip := 4 }, .mc, by decide +kernel⟩,
    ⟨cn fun c => { c with state := .opened, closeLost := true, timeout := true }, .mc, by decide +kernel⟩,
    ⟨cn fun c => { c with state := .opened }, .mc, by decide +kernel⟩,
    ⟨cn fun c => { c with state := .opened, waiting := [⟨[1], 1, 0⟩] }, .mc, by decide +kernel⟩,
    ⟨cn fun c => { c with state := .closedByPeer }, .mc, by decide +kernel⟩,
    ⟨cn fun c => { c with state := .opening }, oa, by decide +kernel⟩,
    ⟨cn fun c => { c with state := .opening, waiting := [⟨[1], 1, 0⟩] }, oa, by decide +kernel⟩,
    ⟨cn fun c => { c with state := .opening }, { oa with status := .nakFull, detail := 3 }, by decide +kernel⟩,
    ⟨cn id, { oa with serial := 6 }, by decide +kernel⟩,
    ⟨{ (cn fun c => { c with state := .opening, openedAt := 5 }) with ticks := 5 + 2 ^ 20 }, 0, by decide +kernel⟩,
    ⟨{ (cn fun c => { c with state := .opening, openedAt := 5 }) with ticks := 4 + 2 ^ 20 }, 0, by decide +kernel⟩,
    ⟨cn fun c => { c with state := .opened }, 0, 3, 1, [1], by decide +kernel⟩,
    ⟨cn fun c => { c with state := .opened, nak := true }, 0, 3, 1, [1], by decide +kernel⟩,
    ⟨cn fun c => { c with state := .opened, outst := 50 }, 0, 3, 1, [1], by decide +kernel⟩,
    ⟨cn fun c => { c with state := .opened, grant := 1 }, 0, 3, 1, List.replicate 49 0, by decide +kernel⟩,
    ⟨cn id, 0, 3, 1, [1], by decide +kernel⟩,
    ⟨cn fun c => { c with state := .opened, srcKind := 1 }, 0, 1, 1, [1], by decide +kernel⟩,
    ⟨cn fun c => { c with state := .opened, outst := 5, sentUnits := 9 }, 0, by decide +kernel⟩,
    ⟨cn id, 0, 6, by decide +kernel⟩,
    ⟨cn fun c => { c with state := .opened, outst := 5, units := [(0, 2)] }, nn, by decide +kernel⟩,
    ⟨cn fun c => { c with state := .opened, outst := 5 }, { nn with status := .nakStale }, by decide +kernel⟩,
    ⟨cn fun c => { c with state := .opening }, { nn with status := .routeCut }, by decide +kernel⟩,
    ⟨cn fun c => { c with state := .opened, outst := 5 }, { nn with serial := 8 }, by decide +kernel⟩,
    ⟨cn fun c => { c with state := .opened, outst := 5 }, 0, by decide +kernel⟩,
    ⟨cn fun c => { c with state := .draining, outst := 5 }, 0, by decide +kernel⟩,
    ⟨(cn fun c => { c with state := .draining, marker := some 5, cuts := 14 }).modFret (fun f => { f with west := 2048 }), 0, 5,
      by decide +kernel⟩,
    ⟨(cn fun c => { c with state := .draining, marker := some 5, cuts := 15 }).modFret (fun f => { f with west := 2048 }), 0, 5,
      by decide +kernel⟩,
    ⟨cn fun c => { c with state := .draining }, 0, by decide +kernel⟩⟩

def oq : OpenReq := ⟨4, 9, 7, 2, false, 50, 0, false⟩

def ms : Msg := ⟨4, 9, 7, 2, 0, [1, 2], false, false, []⟩

def ib : InbSt := { chip := 4, conn := 9, serial := 7, queue := 2, nak := false, grant := 50, index := 0 }

def qs (f : QueueSt → QueueSt) (i : List InbSt) : State := (up.updQueue 2 fun q => f
  { q with state := .bound, kind := 3, ep := 1, size := 8 }).modMch fun m => { m with inb := i }

def qrec : RecSt := ⟨1, 0, false, 1, [1, 2], 9, 4, 0, false, some (4, 9, 7), 3, []⟩

def held64 : State := (qs id [ib]).modMch fun m =>
  { m with slots := m.slots.set ((qs id [ib]).queue 2).half ((List.range 64).map fun n => ⟨3, BitVec.ofNat 12 n, 0, 0⟩) }

def idle1 : State := qs id [ib]

/-- The hypotheses of the clauses of `Obligations.ReceiversPlaceAndCredit` can be met. -/
theorem test_witness_ReceiversPlaceAndCredit :
    (∃ (s : State) (r : OpenReq) (st : Status) (d : BitVec 4), s.arriveCheck r.poisoned (s.queue r.queue) = some (st, d)) ∧
    (∃ (s : State) (r : OpenReq) (g : Nat), s.arriveCheck r.poisoned (s.queue r.queue) = none ∧ s.inbOf r.srcChip r.conn = none ∧
      s.mch.inb.length < 4096 ∧ ((s.queue r.queue).kind ≠ 6 ∧ g = (if r.nak then 0 else r.grant.toNat) ∨ (s.queue r.queue).kind = 6
      ∧ r.nak = false ∧ r.index < (s.queue r.queue).chordN ∧ (s.mch.inb.any fun x => decide (x.queue = r.queue.val) && decide
      (x.index = r.index)) = false ∧ g = (s.queue r.queue).chordD * (s.queue r.queue).chordR) ∧ (r.nak = true ∨ (s.queue
      r.queue).charge.toNat + g ≤ (s.queue r.queue).poolUnits)) ∧
    (∃ (s u : State) (r : OpenReq) (x : InbSt), s.arriveCheck r.poisoned (s.queue r.queue) = none ∧ s.inbOf r.srcChip r.conn = some
      x ∧ u = s.dropInb x ∧ (u.queue r.queue).kind ≠ 6 ∧ r.nak = false ∧ u.mch.inb.length < 4096 ∧ (u.queue r.queue).charge.toNat +
      r.grant.toNat ≤ (u.queue r.queue).poolUnits) ∧
    (∃ (s : State) (r : OpenReq), s.arriveCheck r.poisoned (s.queue r.queue) = none ∧ s.inbOf r.srcChip r.conn = none ∧ (s.queue
      r.queue).kind ≠ 6 ∧ r.nak = false ∧ s.mch.inb.length < 4096 ∧ (s.queue r.queue).poolUnits < (s.queue r.queue).charge.toNat +
      r.grant.toNat) ∧
    (∃ (s : State) (r : OpenReq), s.arriveCheck r.poisoned (s.queue r.queue) = none ∧ s.inbOf r.srcChip r.conn = none ∧ 4096 ≤
      s.mch.inb.length) ∧
    (∃ (s : State) (m : Msg), (⟨m.srcChip, m.conn, m.serial, m.seq⟩ : AsmSlot) ∉ s.mch.slots.get (s.queue m.queue).half ∧ 64 ≤
      (s.mch.slots.get (s.queue m.queue).half).length) ∧
    (∃ (s u : State) (m : Msg), u =
      { s with mch := { s.mch with slots := (s.mch.slots.set (s.queue m.queue).half ((s.mch.slots.get (s.queue m.queue).half).erase ⟨m.srcChip, m.conn, m.serial, m.seq⟩)) } }
      ∧ ((⟨m.srcChip, m.conn, m.serial, m.seq⟩ : AsmSlot) ∈ s.mch.slots.get (s.queue m.queue).half ∨ (s.mch.slots.get (s.queue
      m.queue).half).length < 64)) ∧
    (∃ (s : State) (q : QueueN) (r : RecSt), s.mayTake q = true ∧ (s.queue q).nextRec = some r) ∧
    (∃ (s : State) (q : QueueN), s.mayTake q = false) ∧
    (∃ (s : State) (n : Nat) (x : InbSt), s.inbAt n = some x ∧ x.nak = false ∧ 0 < x.pend ∧ (ceilDiv x.grant 4 ≤ x.pend ∨ x.since +
      256 ≤ s.now)) ∧
    (∃ (s : State) (n : Nat) (x : InbSt), s.inbAt n = some x ∧ (x.nak = true ∨ x.pend = 0 ∨ x.pend < ceilDiv x.grant 4 ∧ s.now <
      x.since + 256)) ∧
    (∃ (s : State) (n : Nat) (x : InbSt), s.inbAt n = some x ∧ x.cut = true ∧ s.now % 1024 = 0) ∧
    (∃ (s : State) (n : Nat) (x : InbSt), s.inbAt n = some x ∧ (x.cut = false ∨ s.now % 1024 ≠ 0)) ∧
    (∃ (s : State) (chip : BitVec 10) (conn : BitVec 12) (serial : BitVec 8) (x : InbSt), ((s.mch.inb.find? fun x => x.is chip conn
      && x.serial = serial) = some x)) ∧
    (∃ (s : State) (chip : BitVec 10) (conn : BitVec 12) (serial : BitVec 8), ((s.mch.inb.find? fun x => x.is chip conn && x.serial
      = serial) = none)) :=
  ⟨⟨qs id [], { oq with poisoned := true }, .routeCut, 8, by decide +kernel⟩,
    ⟨qs (fun q => { q with kind := 6, senders := 1, elems := 0, rounds := 1 }) [], { oq with index := 1 }, 2, by decide +kernel⟩,
    ⟨qs (fun q => { q with charge := 50 }) [ib], (qs (fun q => { q with charge := 50 }) [ib]).dropInb ib, oq, ib, by decide +kernel⟩,
    ⟨qs (fun q => { q with charge := 410 }) [], oq, by decide +kernel⟩,
    ⟨qs id (List.replicate 4096 { ib with chip := 5 }), oq, by decide +kernel⟩,
    ⟨held64, ms, by decide +kernel⟩,
    ⟨idle1,
      { idle1 with mch := { idle1.mch with slots := (idle1.mch.slots.set (idle1.queue ms.queue).half ((idle1.mch.slots.get (idle1.queue ms.queue).half).erase ⟨ms.srcChip, ms.conn, ms.serial, ms.seq⟩)) } },
      ms, by decide +kernel⟩,
    ⟨qs (fun q => { q with recs := [qrec], tail := 1, charge := 1 }) [ib], 2, qrec, by decide +kernel⟩,
    ⟨qs (fun q => { q with state := .unbound }) [], 2, by decide +kernel⟩,
    ⟨(qs id [{ ib with pend := 1, since := 4 }]).modFret (fun f => { f with west := 260 }), 0, { ib with pend := 1, since := 4 },
      by decide +kernel⟩,
    ⟨qs id [{ ib with pend := 12, since := 4 }], 0, { ib with pend := 12, since := 4 }, by decide +kernel⟩,
    ⟨(qs id [{ ib with cut := true, pend := 1 }]).modFret (fun f => { f with west := 1024 }), 0, { ib with cut := true, pend := 1 },
      by decide +kernel⟩,
    ⟨(qs id [{ ib with cut := true, pend := 1 }]).modFret (fun f => { f with west := 1023 }), 0, { ib with cut := true, pend := 1 },
      by decide +kernel⟩,
    ⟨qs id [ib], 4, 9, 7, ib, by decide +kernel⟩,
    ⟨qs id [ib], 4, 9, 6, by decide +kernel⟩⟩

def qb (f : QueueSt → QueueSt) : State := up.updQueue 0 fun q => f { q with size := 8 }

def v21 : Word := 0x03000001

def sqe (f : QueueSt → QueueSt) (g : ConnSt → ConnSt) : State := (up.updQueue 2 fun q => f
  { q with state := .bound, kind := 6, size := 8, out := 1, bodies := [(⟨0, 0, [0, 0, 0x80, 0x3F], (4, 9, 7)⟩ : Contrib)], filled := [(0, 1)] }).updConn
  1 fun c => g { c with state := .opened, srcKind := 6, srcEp := 2, grant := 100, quota := 50 }

/-- The hypotheses of the clauses of `Obligations.QueuesBindAndSum` can be met. -/
theorem test_witness_QueuesBindAndSum :
    (∃ (s u : State) (acc : Accessor) (v : Word), s.mayWrite acc = true ∧ s.passed 4 = true ∧ (s.queue (s.mch.qSel.get
      acc).toNat).state = .unbound ∧ (u = s.updQueue (s.mch.qSel.get acc).toNat (fun q =>
      { q with sel := bit v 27, kind := v.extractLsb' 24 3, input := v.extractLsb' 21 3, prio := v.extractLsb' 18 3, ep := v.setWidth 14, bindErr := q.bindErr && !bit v 17 }))) ∧
    (∃ (s : State) (acc : Accessor), s.mayWrite acc = true ∧ s.passed 4 = true ∧ (s.queue (s.mch.qSel.get acc).toNat).state ≠
      .unbound) ∧
    (∃ (s : State) (acc : Accessor), s.mayWrite acc = true ∧ s.passed 4 = true ∧ (s.queue (s.mch.qSel.get acc).toNat).state =
      .bound) ∧
    (∃ (s : State) (acc : Accessor), s.mayWrite acc = true ∧ s.passed 4 = true ∧ (s.queue (s.mch.qSel.get acc).toNat).state =
      .fenced) ∧
    (∃ (s : State) (q : QueueN), ((s.queue q).kind ≠ 6 ∨ (s.queue q).state ≠ .bound ∨ (s.queue q).roundBodies = none)) ∧
    (∃ (s : State) (q : QueueN) (bs : List (List Byte)), (s.queue q).kind = 6 ∧ (s.queue q).state = .bound ∧ (s.queue q).roundBodies
      = some bs ∧ ((s.conn (s.queue q).out.toNat).state ≠ .opened ∨ (s.conn (s.queue q).out.toNat).sentBy 6 (BitVec.ofNat 14 q) =
      false ∨ (s.conn (s.queue q).out.toNat).waiting = [] ∧ (s.conn (s.queue q).out.toNat).allows (recUnits (chordSum (s.queue q)
      bs).length) = true)) ∧
    (∃ (s : State) (q : QueueN) (bs : List (List Byte)), (s.queue q).kind = 6 ∧ (s.queue q).state = .bound ∧ (s.queue q).roundBodies
      = some bs ∧ (s.conn (s.queue q).out.toNat).state = .opened ∧ (s.conn (s.queue q).out.toNat).sentBy 6 (BitVec.ofNat 14 q) =
      true ∧ (s.conn (s.queue q).out.toNat).waiting = [] ∧ (s.conn (s.queue q).out.toNat).nak = false ∧ recUnits (chordSum (s.queue
      q) bs).length ≤ (s.conn (s.queue q).out.toNat).grant.toNat ∧ (s.conn (s.queue q).out.toNat).allows (recUnits (chordSum
      (s.queue q) bs).length) = true) ∧
    (∃ (s : State) (q : QueueN) (bs : List (List Byte)), (s.queue q).kind = 6 ∧ (s.queue q).state = .bound ∧ (s.queue q).roundBodies
      = some bs ∧ (s.conn (s.queue q).out.toNat).state = .opened ∧ (s.conn (s.queue q).out.toNat).sentBy 6 (BitVec.ofNat 14 q) =
      true ∧ ((s.conn (s.queue q).out.toNat).waiting ≠ [] ∨ (s.conn (s.queue q).out.toNat).allows (recUnits (chordSum (s.queue q)
      bs).length) = false) ∧ recUnits (chordSum (s.queue q) bs).length ≤ (s.conn (s.queue q).out.toNat).grant.toNat) :=
  ⟨⟨qb id, (qb id).updQueue 0 (fun q =>
      { q with sel := bit v21 27, kind := v21.extractLsb' 24 3, input := v21.extractLsb' 21 3, prio := v21.extractLsb' 18 3, ep := v21.setWidth 14, bindErr := q.bindErr && !bit v21 17 }),
      .mc, v21, by decide +kernel⟩,
    ⟨qb fun q => { q with state := .bound, bindErr := true }, .mc, by decide +kernel⟩,
    ⟨qb fun q => { q with state := .bound, kind := 3 }, .mc, by decide +kernel⟩,
    ⟨qb fun q => { q with state := .fenced, bindErr := true }, .mc, by decide +kernel⟩,
    ⟨sqe (fun q => { q with senders := 1 }) id, 2, by decide +kernel⟩,
    ⟨sqe id (fun c => { c with srcEp := 3 }), 2, [[0, 0, 0x80, 0x3F]], by decide +kernel⟩,
    ⟨sqe id id, 2, [[0, 0, 0x80, 0x3F]], by decide +kernel⟩,
    ⟨sqe id (fun c => { c with outst := 50 }), 2, [[0, 0, 0x80, 0x3F]], by decide +kernel⟩⟩

def wh (f : WormHead → WormHead) : Worm := ⟨f { (worm 20).head with vc := 1, wtype := 0, hops := [] }, List.replicate 192 7⟩

def rt (l : List RtWorm) : State := up.updRouter (.hub 0) fun q => { q with worms := l }

def rg (l : List RtWorm) (st : FabState) : State := (up.updRouter (.ring .west) fun q => { q with worms := l }).updFab 2 fun f =>
  { f with state := st }

def rw : RtWorm := ⟨4, false, wh id, 9, .here, 2, 1, 1⟩

def rf : RtWorm := ⟨24, false, wh id, 2, .fabric 2, 2, 1, 0⟩

/-- The hypotheses of the clauses of `Obligations.WormsAreRoutedOrCut` can be met. -/
theorem test_witness_WormsAreRoutedOrCut :
    (∃ (s : State) (c : Clus) (i n : Nat) (w : Worm) (code : BitVec 5) (cs : List (BitVec 5)), w.head.hops = code :: cs ∧ runOk c
      (code.extractLsb' 3 2).toNat ((code.extractLsb' 0 3).toNat + 1) = true ∧ (wormEdge w && releaseIn (.hub c) i) = false ∧
      s.roomAt (.hub c) i w (min n (wormFlits w)) = true) ∧
    (∃ (s : State) (c : Clus) (i n : Nat) (w : Worm) (code : BitVec 5) (cs : List (BitVec 5)), w.head.hops = code :: cs ∧ runOk c
      (code.extractLsb' 3 2).toNat ((code.extractLsb' 0 3).toNat + 1) = false ∧ (wormEdge w && releaseIn (.hub c) i) = false ∧
      s.roomAt (.hub c) i w (min n (wormFlits w)) = true) ∧
    (∃ (s : State) (h : Half) (i n : Nat) (w : Worm) (code : BitVec 5) (cs : List (BitVec 5)) (p : FabPort), ringFab h i = none ∧
      w.head.hops = code :: cs ∧ code.toNat ≠ 0x11 ∧ code.toNat < 0x18 ∧ ringFab h code.toNat = some p ∧ (s.fab p).state = .up ∧
      s.roomAt (.ring h) i w (min n (wormFlits w)) = true) ∧
    (∃ (s : State) (h : Half) (i n : Nat) (w : Worm) (code : BitVec 5) (cs : List (BitVec 5)) (p : FabPort), ringFab h i = none ∧
      w.head.hops = code :: cs ∧ code.toNat ≠ 0x11 ∧ code.toNat < 0x18 ∧ ringFab h code.toNat = some p ∧ (s.fab p).state ≠ .up ∧
      s.roomAt (.ring h) i w (min n (wormFlits w)) = true) ∧
    (∃ (s : State) (c : Clus) (i n : Nat) (w : Worm), (wormEdge w && releaseIn (.hub c) i) = false ∧ s.roomAt (.hub c) i w (min n
      (wormFlits w)) = true) ∧
    (∃ (s : State) (r : Router) (i n : Nat) (w : Worm), ((wormEdge w = true ∧ releaseIn r i = true) ∨ s.roomAt r i w (min n
      (wormFlits w)) = false)) ∧
    (∃ (s : State) (r : Router) (i : Nat) (vc : BitVec 2), (s.router r).worms.find? (entering i vc) = none) ∧
    (∃ (s : State) (c : Clus) (i n : Nat) (vc : BitVec 2) (x : RtWorm), (s.router (.hub c)).worms.find? (entering i vc) = some x ∧
      x.dest ≠ .sink ∧ s.roomAt (.hub c) i { x.w with head := { x.w.head with cls := x.cls } } (min n x.due) = true) ∧
    (∃ (s : State) (xs : List RtWorm) (x : RtWorm), s.mostUrgent xs = some x) ∧
    (∃ (s : State) (r : Router) (out pick : Nat) (x : RtWorm), s.slotFor r out pick = some x ∧ x.w.head.vc ≠ 0) ∧
    (∃ (s : State) (r : Router) (out : Nat), fabIn r out = none ∧ s.contend r out = []) ∧
    (∃ (s : State) (r : Router) (out pick : Nat) (x : RtWorm), fabIn r out = none ∧ s.slotFor r out pick = some x ∧ x.dest = .here ∧
      wormEdge x.w = false ∧ 0 < x.sent ∧ 1 < x.here) ∧
    (∃ (s : State) (r : Router) (out pick : Nat) (x : RtWorm), fabIn r out = none ∧ s.slotFor r out pick = some x ∧ x.dest = .here ∧
      wormEdge x.w = false ∧ wormMemory x.w = false ∧ 0 < x.sent ∧ x.here = 1 ∧ x.due = 0) ∧
    (∃ (s : State) (h : Half) (p : FabPort) (pick : Nat) (x : RtWorm), ringFab h p.val = some p ∧ (s.fab p).state = .up ∧ s.slotFor
      (.ring h) p.val pick = some x ∧ x.dest = .fabric p ∧ x.sent = 0 ∧ 1 < x.here) ∧
    (∃ (s : State) (h : Half) (p : FabPort), ringFab h p.val = some p ∧ (s.fab p).state ≠ .up) ∧
    (∃ (s : State) (r : Router) (port n : Nat) (atInput : Bool), (s.cuttable r port atInput).length ≤ n) ∧
    (∃ (s : State) (r : Router) (port n : Nat) (x : RtWorm), (s.cuttable r port false)[n]? = some x) ∧
    (∃ (s : State) (r : Router) (port n : Nat) (x : RtWorm), (s.cuttable r port true)[n]? = some x ∧ x.dest ≠ .sink ∧ wormEdge x.w =
      false ∧ fabIn r x.inPort = none) ∧
    (∃ (s : State) (r : Router) (outPort : Nat) (vc : BitVec 2), (vc = 0 ∨ (s.router r).worms.all (fun x => decide (x.out ≠ outPort
      ∨ x.w.head.vc ≠ vc ∨ x.sent = 0)) = true)) ∧
    (∃ (s : State) (c : Clus) (outPort : Nat) (vc : BitVec 2) (x : RtWorm), vc ≠ 0 ∧ x ∈ (s.router (.hub c)).worms ∧ x.out = outPort
      ∧ x.w.head.vc = vc ∧ 0 < x.sent ∧ x.dest ≠ .sink ∧ (s.spnHalf (clusHalf c)).cut = false) :=
  ⟨⟨up, 0, 4, 1, wh fun h => { h with hops := [0x08, 0x10] }, 0x08, [0x10], by decide +kernel⟩,
    ⟨up, 0, 4, 1, wh fun h => { h with hops := [0x00] }, 0x00, [], by decide +kernel⟩,
    ⟨rg [] .up, .west, 24, 1, wh fun h => { h with hops := [2] }, 2, [], 2, by decide +kernel⟩,
    ⟨rg [] .down, .west, 24, 1, wh fun h => { h with hops := [2] }, 2, [], 2, by decide +kernel⟩,
    ⟨up, 0, 4, 1, wh fun h => { h with hops := [0x08] }, by decide +kernel⟩,
    ⟨rt [{ rw with inPort := 4, here := 8 }], .hub 0, 4, 1, wh id, by decide +kernel⟩,
    ⟨up, .hub 0, 4, 1, by decide +kernel⟩,
    ⟨rt [rw], 0, 4, 1, 1, rw, by decide +kernel⟩,
    ⟨rt [rw, { rw with inPort := 3 }], [rw, { rw with inPort := 3 }], { rw with inPort := 3 }, by decide +kernel⟩,
    ⟨rt [rw], .hub 0, 9, 0, rw, by decide +kernel⟩,
    ⟨up, .hub 0, 9, by decide +kernel⟩,
    ⟨rt [rw], .hub 0, 9, 0, rw, by decide +kernel⟩,
    ⟨rt [{ rw with here := 1, due := 0, sent := 2 }], .hub 0, 9, 0, { rw with here := 1, due := 0, sent := 2 }, by decide +kernel⟩,
    ⟨rg [rf] .up, .west, 2, 0, rf, by decide +kernel⟩,
    ⟨rg [rf] .down, .west, 2, by decide +kernel⟩,
    ⟨rt [rw], .hub 0, 9, 1, true, by decide +kernel⟩,
    ⟨rt [{ rw with due := 0, sent := 0 }], .hub 0, 9, 0, { rw with due := 0, sent := 0 }, by decide +kernel⟩,
    ⟨rt [rw], .hub 0, 4, 0, rw, by decide +kernel⟩,
    ⟨rt [{ rw with sent := 0 }], .hub 0, 9, 1, by decide +kernel⟩,
    ⟨rt [rw], 0, 9, 1, rw, by decide +kernel⟩⟩

def fp (st : FabState) : State := up.updFab 2 fun f => { f with state := st, enable := true }

def tw (st : TwinState) : State := (up.updFab 16 fun f => { f with state := .up }).modHealx fun h => { h with twin := st }

def xs256 (t2 t4 : Nat) : List Exchange := List.replicate 256 ⟨0, t2, t2, t4⟩

/-- The hypotheses of the clauses of `Obligations.FabricPortsChangeState` can be met. -/
theorem test_witness_FabricPortsChangeState :
    (∃ (s : State) (p : FabPort), (s.fab p).enable = true ∧ (s.fab p).state = .down) ∧
    (∃ (s : State) (p : FabPort), ((s.fab p).enable = false ∨ (s.fab p).state ≠ .down)) ∧
    (∃ (s : State) (p : FabPort), (s.fab p).state ≠ .train) ∧
    (∃ (s : State) (p : FabPort) (xs : List Exchange), ((s.fab p).state ≠ .measure ∨ xs.length ≠ 256)) ∧
    (∃ (s : State) (p : FabPort), (s.fab p).state ≠ .discover) ∧
    (∃ (s : State) (p : FabPort), ((s.fab p).state = .down ∨ (s.fab p).state = .train)) ∧
    (∃ (s : State) (p : FabPort), (s.fab p).state ≠ .up) ∧
    (∃ (s : State) (p : FabPort), (s.fab p).state = .train) ∧
    (∃ (s : State) (p : FabPort), (s.fab p).state = .train) ∧
    (∃ (s : State) (p : FabPort) (xs : List Exchange), (s.fab p).state = .measure ∧ xs.length = 256 ∧ flightOf xs * 1000 ≤ 640 *
      s.mhz (portRing p)) ∧
    (∃ (s : State) (p : FabPort) (xs : List Exchange), (s.fab p).state = .measure ∧ xs.length = 256 ∧ 640 * s.mhz (portRing p) <
      flightOf xs * 1000) ∧
    (∃ (s : State) (p : FabPort), (s.fab p).state = .discover) ∧
    (∃ (s : State) (p : FabPort), ((s.fab p).state = .measure ∨ (s.fab p).state = .discover ∨ (s.fab p).state = .up)) ∧
    (∃ (s : State) (p : FabPort), (s.fab p).state = .up) ∧
    (∃ (s : State) (acc : Accessor) (p : FabPort), s.mayWrite acc = true ∧ s.passed 1 = true ∧ (s.fab p).state ≠ .down) ∧
    (∃ (s : State) (acc : Accessor) (p : FabPort), s.mayWrite acc = true ∧ s.passed 1 = true ∧ (s.fab p).state = .down) ∧
    (∃ (s : State) (acc : Accessor), s.mayWrite acc = false ∧ s.passed 1 = true) ∧
    (∃ (s : State), s.passed 1 = false) ∧
    (∃ (s : State), s.twUp = false) ∧
    (∃ (s : State), s.twUp = true) ∧
    (∃ (s : State), s.relx.retState = .none ∧ s.healx.retireWait = none ∧ s.top.ready = true ∧ s.bist.state = 0 ∧ s.recovering =
      false) ∧
    (∃ (s : State), s.relx.retState ≠ .none) :=
  ⟨⟨fp .down, 2, by decide +kernel⟩,
    ⟨fp .up, 2, by decide +kernel⟩,
    ⟨fp .up, 2, by decide +kernel⟩,
    ⟨fp .measure, 2, [], by decide +kernel⟩,
    ⟨fp .up, 2, by decide +kernel⟩,
    ⟨fp .down, 2, by decide +kernel⟩,
    ⟨fp .train, 2, by decide +kernel⟩,
    ⟨fp .train, 2, by decide +kernel⟩,
    ⟨fp .train, 2, by decide +kernel⟩,
    ⟨(fp .measure).modClk (fun c => { c with mhz := 1500, west := 1500, east := 1500 }), 2, xs256 100 200, by decide +kernel⟩,
    ⟨(fp .measure).modClk (fun c => { c with mhz := 1500, west := 1500, east := 1500 }), 2, xs256 100000 200000, by decide +kernel⟩,
    ⟨fp .discover, 2, by decide +kernel⟩,
    ⟨fp .measure, 2, by decide +kernel⟩,
    ⟨fp .up, 2, by decide +kernel⟩,
    ⟨fp .up, .mc, 2, by decide +kernel⟩,
    ⟨fp .down, .mc, 2, by decide +kernel⟩,
    ⟨fp .up, .portA, by decide +kernel⟩,
    ⟨State.reset, by decide +kernel⟩,
    ⟨up, by decide +kernel⟩,
    ⟨tw .none, by decide +kernel⟩,
    ⟨up.modTop (fun t => { t with ready := true }), by decide +kernel⟩,
    ⟨up.modRelx (fun x => { x with retState := .draining }), by decide +kernel⟩⟩

def mcm : McCmd := ⟨.mc, 3, 1, 40, 0, 0, 77⟩

def im : Image := ⟨1, 1, 0, 0, [{ tcfg (fold [] [] []) with length := 16 }], [], [], []⟩

def ld (f : SchedSt → SchedSt) : State := up.modScheds fun _ => [(1, f { image := im })]

/-- The hypotheses of the clauses of `Obligations.ScheduleCommandsTakeEffect` can be met. -/
theorem test_witness_ScheduleCommandsTakeEffect :
    (∃ (s : State) (m : McCmd) (img : Image), s.admission m.sender = none ∧ (∀ t ∈ img.tasks, 2 ≤ t.grace) ∧ s.regionsOk img = true
      ∧ migrationOk img = true ∧ s.unfitImage img = none) ∧
    (∃ (s : State) (m : McCmd) (img : Image), s.admission m.sender = none ∧ (∀ t ∈ img.tasks, 2 ≤ t.grace)) ∧
    (∃ (s : State) (m : McCmd) (x : SchedSt) (c : TaskCfg) (cs : List TaskCfg), s.admission m.sender = none ∧ s.sched? m.sched =
      some x ∧ s.busySched m.sched = false ∧ ((x.image.tasks.filter fun t => !x.committed.contains t.number) = c :: cs)) ∧
    (∃ (s : State) (m : McCmd) (x : SchedSt) (c : TaskCfg) (cs : List TaskCfg), s.admission m.sender = none ∧ s.sched? m.sched =
      some x ∧ s.busySched m.sched = false ∧ ((x.image.tasks.filter fun t => !x.committed.contains t.number) = []) ∧ x.image.tasks =
      c :: cs) ∧
    (∃ (s : State) (m : McCmd) (d : Nat), s.admission m.sender = some d) ∧
    (∃ (s : State) (m : McCmd), s.admission m.sender = none ∧ s.sched? m.sched = none) ∧
    (∃ (s : State) (m : McCmd) (x : SchedSt), s.admission m.sender = none ∧ s.sched? m.sched = some x ∧ s.busySched m.sched = true) ∧
    (∃ (s : State) (m : McCmd) (x : SchedSt), s.mayCommand m.sender = true ∧ s.sched? m.sched = some x ∧ s.retryDue m.sched = false) ∧
    (∃ (s : State) (m : McCmd) (x : SchedSt), s.mayCommand m.sender = true ∧ s.sched? m.sched = some x) ∧
    (∃ (s : State) (m : McCmd) (x : SchedSt), s.mayCommand m.sender = true ∧ s.sched? m.sched = some x ∧ s.busySched m.sched = false
      ∧ x.inPass = false ∧ s.retryDue m.sched = false) ∧
    (∃ (s : State) (m : McCmd) (x : SchedSt), s.mayCommand m.sender = true ∧ s.sched? m.sched = some x ∧ (s.busySched m.sched = true
      ∨ x.inPass = true ∨ s.retryDue m.sched = true)) ∧
    (∃ (s : State) (m : McCmd), s.mayCommand m.sender = true ∧ s.sched? m.sched = none) ∧
    (∃ (s : State) (m : McCmd), s.mayCommand m.sender = false) ∧
    (∃ (s : State) (m : McCmd), s.mayCommand m.sender = true) :=
  ⟨⟨up, mcm, im, by decide +kernel⟩,
    ⟨up, mcm, im, by decide +kernel⟩,
    ⟨ld id, mcm, { image := im }, { tcfg (fold [] [] []) with length := 16 }, [], by decide +kernel⟩,
    ⟨ld fun x => { x with committed := [5] }, mcm, { image := im, committed := [5] }, { tcfg (fold [] [] []) with length := 16 },
      [], by decide +kernel⟩,
    ⟨up, { mcm with sender := .portA }, 1, by decide +kernel⟩,
    ⟨up, mcm, by decide +kernel⟩,
    ⟨(ld id).updTask 5 (fun t => { t with sched := 1, phase := .armed }), mcm, { image := im }, by decide +kernel⟩,
    ⟨ld id, mcm, { image := im }, by decide +kernel⟩,
    ⟨(ld id).modRelx (fun r => { r with retries := [⟨1, 5, .slip, 1, 12, 0, 100, false, false, 0, 0⟩] }), mcm, { image := im },
      by decide +kernel⟩,
    ⟨ld id, mcm, { image := im }, by decide +kernel⟩,
    ⟨ld fun x => { x with started := true }, mcm, { image := im, started := true }, by decide +kernel⟩,
    ⟨up, mcm, by decide +kernel⟩,
    ⟨up, { mcm with sender := .portB }, by decide +kernel⟩,
    ⟨up, mcm, by decide +kernel⟩⟩

def dg : Datagram := ⟨.m0, 1, 1, 5, 0, true, List.replicate 32 0, [1, 0, 0, 0, 0, 0, 0, 0]⟩

def mg (f : State → State) : State := f (((up.updMgmtPort .m0 fun r => { r with up := true, ipUsed := 9 }).modIds fun i =>
  { i with state := .ready, blocks := 5, held := true }).modSec fun x => { x with cache := [(0, (7, 0, 0))] })

/-- The hypotheses of the clauses of `Obligations.ManagementCommandsTakeEffect` can be met. -/
theorem test_witness_ManagementCommandsTakeEffect :
    (∃ (s : State) (d : Datagram), s.takesCommand d 1 = true ∧ s.resetLevel = none) ∧
    (∃ (s : State) (d : Datagram), s.takesCommand d 1 = true ∧ s.resetLevel = none ∧ s.rstc.everReady = true ∧ s.bist.state ≠ 2) ∧
    (∃ (s : State) (d : Datagram), s.takesCommand d 1 = true ∧ s.resetLevel = none ∧ s.rstc.everReady = false) ∧
    (∃ (s : State) (d : Datagram), s.takesCommand d 1 = true ∧ s.rstc.everReady = true ∧ s.bist.state = 2) ∧
    (∃ (s : State) (d : Datagram) (l : Level), s.takesCommand d 1 = true ∧ s.resetLevel = some l ∧ Level.system.rank ≤ l.rank ∧
      s.rstc.orderly = none) ∧
    (∃ (s : State) (d : Datagram), s.takesCommand d 1 = true ∧ d.body.getD 0 0 = 1) ∧
    (∃ (s : State) (d : Datagram), s.takesCommand d 1 = true) ∧
    (∃ (s : State) (d : Datagram), s.takesCommand d 1 = true ∧ s.sec.lc = .ret) ∧
    (∃ (s : State) (d : Datagram), s.takesCommand d 1 = true ∧ s.sec.lc ≠ .ret) ∧
    (∃ (s : State) (d : Datagram), s.takesCommand d 2 = true) ∧
    (∃ (s : State) (d : Datagram), s.takesCommand d 1 = true ∧ d.body.length = 8 ∧ leAt d.body 0 4 = 0x50010 ∧ s.passed 2 = true) ∧
    (∃ (s : State) (d : Datagram), s.takesCommand d 1 = true ∧ d.body.length ≠ 8) ∧
    (∃ (s : State) (d : Datagram) (code : BitVec 8), (code = 0 ∨ 8 < code.toNat) ∧ s.takesCommand d 1 = true) ∧
    (∃ (s : State) (d : Datagram), s.flash.seqOk = false ∧ (s.mgmtPort d.port).up = true ∧ s.sec.lc ≠ .final ∧ s.rejects d = false ∧
      s.isRepeat d = false) ∧
    (∃ (s : State) (d : Datagram), s.takesCommand d 1 = true ∧ d.body.getD 0 0 = 0) ∧
    (∃ (s : State) (d : Datagram), s.takesCommand d 1 = true ∧ d.body.getD 0 0 = 2) ∧
    (∃ (d : Datagram) (i : Instr), i ∈ [Instr.mgmtSystemReset d, .mgmtCoreReset d, .mgmtAssignOwner d, .mgmtSetBudget d,
      .mgmtChestClear d, .mgmtClearRetire d, .mgmtQuote d, .mgmtWriteReg d, .mgmtUnknownCommand d 9]) ∧
    (∃ (s : State) (d : Datagram) (p : Instr × BitVec 8), p ∈ [(Instr.mgmtSystemReset d, (0x01 : BitVec 8)), (.mgmtCoreReset d,
      0x02), (.mgmtAssignOwner d, 0x03), (.mgmtSetBudget d, 0x04), (.mgmtChestClear d, 0x05), (.mgmtClearRetire d, 0x06),
      (.mgmtQuote d, 0x07), (.mgmtWriteReg d, 0x08), (.mgmtUnknownCommand d 9, 9)] ∧ (s.mgmtPort d.port).up = true ∧ s.sec.lc ≠
      .final ∧ s.rejects d = false ∧ s.isRepeat d = true ∧ s.ids.queue.length + 2 ≤ 16) ∧
    (∃ (code : BitVec 8), 1 ≤ code.toNat ∧ code.toNat ≤ 8) ∧
    (∃ (s : State) (p : MgmtPort), s.passed 3 = true ∧ s.mgt.enable p = true) ∧
    (∃ (s : State) (p : MgmtPort), (s.mgmtPort p).up = true) ∧
    (∃ (s : State) (p : MgmtPort) (dst : BitVec 128), ((s.mgmtPort p).up = false ∨ dst ≠ (s.mgmtPort p).ipUsed)) ∧
    (∃ (s : State) (p : MgmtPort), (s.passed 3 = false ∨ s.mgt.enable p = false)) :=
  ⟨⟨mg id, dg, by decide +kernel⟩,
    ⟨mg (fun s => s.modRstc fun r => { r with everReady := true }), dg, by decide +kernel⟩,
    ⟨mg id, dg, by decide +kernel⟩,
    ⟨mg (fun s => (s.modRstc fun r => { r with everReady := true }).modBist fun b => { b with state := 2 }), dg, by decide +kernel⟩,
    ⟨mg (fun s => s.modRstc fun r => { r with inReset := some .system }), dg, .system, by decide +kernel⟩,
    ⟨mg id, dg, by decide +kernel⟩,
    ⟨mg id, { dg with body := [0x2C, 1] }, by decide +kernel⟩,
    ⟨mg (fun s => s.modSec fun x => { x with lc := .ret }), dg, by decide +kernel⟩,
    ⟨mg id, dg, by decide +kernel⟩,
    ⟨mg id, dg, by decide +kernel⟩,
    ⟨mg id, { dg with body := [0x10, 0, 5, 0, 3, 0, 0, 0] }, by decide +kernel⟩,
    ⟨mg id, { dg with body := [1] }, by decide +kernel⟩,
    ⟨mg id, dg, 9, by decide +kernel⟩,
    ⟨mg (fun s => s.modFlash fun f => { f with seqOk := false }), dg, by decide +kernel⟩,
    ⟨mg id, { dg with body := [0] }, by decide +kernel⟩,
    ⟨mg id, { dg with body := [2] }, by decide +kernel⟩,
    ⟨{ dg with good := false }, .mgmtQuote { dg with good := false }, by decide +kernel⟩,
    ⟨mg id, { dg with seq := 0 }, (.mgmtQuote { dg with seq := 0 }, 0x07), by decide +kernel⟩,
    ⟨8, by decide +kernel⟩,
    ⟨up.modMgt (fun m => { m with en0 := true }), .m0, by decide +kernel⟩,
    ⟨mg id, .m0, by decide +kernel⟩,
    ⟨up, .m0, 9, by decide +kernel⟩,
    ⟨up, .m0, by decide +kernel⟩⟩

def a26 : ArbSt := ⟨0, 3, some 16, false⟩

def ar (a : ArbSt) : State := (up.modTop fun t => { t with ready := true }).modRelx fun x => { x with arbs := [a] }

def row1 : List Replay := [⟨false, false, true, false, true, false⟩]

def row2 : List Replay := [⟨false, false, true, true, false, false⟩]

def row3 : List Replay := [⟨true, true, false, true, true, false⟩]

def row4 : List Replay := [⟨true, false, true, false, false, false⟩]

def row5 : List Replay := [⟨true, false, true, true, true, false⟩]

def cap : State := (up.updTask 5 fun t => { t with phase := .stopped }).updTile 3 fun t =>
  { t with capture := some ⟨5, .macPass, 0, 0, 0, {}⟩ }

/-- The hypotheses of the clauses of `Obligations.FaultsAreJudged` can be met. -/
theorem test_witness_FaultsAreJudged :
    (∃ (s : State) (unit : Nat) (x : TransitSt), Tab.find s.relx.transit unit = some x ∧ x.last + 2 ^ 32 ≤ s.ticks) ∧
    (∃ (s : State) (unit : Nat), (∀ x, Tab.find s.relx.transit unit = some x → s.ticks < x.last + 2 ^ 32)) ∧
    (∃ (s : State) (c : Clus), ((s.relx.arbs.any fun a => decide (a.clus = c.val)) = true ∨ s.captured c = [])) ∧
    (∃ (s : State) (c : Clus), ((s.relx.arbs.find? fun a => decide (a.clus = c.val)) = none)) ∧
    (∃ (s : State) (c : Clus) (pt : Nat) (pts : List Nat), ((s.relx.arbs.any fun a => decide (a.clus = c.val)) = false) ∧ s.captured
      c = pt :: pts) ∧
    (∃ (s : State) (c : Clus) (a : ArbSt) (rs : List Replay), ((s.relx.arbs.find? fun a => decide (a.clus = c.val)) = some a) ∧
      arbRow rs = 5) ∧
    (∃ (s : State) (c : Clus) (a : ArbSt) (rs : List Replay), ((s.relx.arbs.find? fun a => decide (a.clus = c.val)) = some a) ∧
      (arbRow rs = 2 ∨ arbRow rs = 3) ∧ (s.role a.pt).role ≠ .fenced ∧ s.partMode (ptPart a.pt) ≠ .reset) ∧
    (∃ (s : State) (c : Clus) (a : ArbSt) (rs : List Replay), ((s.relx.arbs.find? fun a => decide (a.clus = c.val)) = some a) ∧
      arbRow rs = 1 ∧ a.repeated = false) ∧
    (∃ (s : State) (c : Clus) (a : ArbSt) (rs : List Replay), ((s.relx.arbs.find? fun a => decide (a.clus = c.val)) = some a) ∧
      arbRow rs = 1 ∧ a.repeated = true ∧ s.relx.retState = .none ∧ s.healx.retireWait = none ∧ s.top.ready = true ∧ s.bist.state =
      0 ∧ s.recovering = false) ∧
    (∃ (s : State) (c : Clus) (a : ArbSt) (b : Nat) (rs : List Replay), ((s.relx.arbs.find? fun a => decide (a.clus = c.val)) = some
      a) ∧ arbRow rs = 4 ∧ a.bench = some b ∧ (s.role b).role ≠ .fenced ∧ s.partMode (ptPart b) ≠ .reset) ∧
    (∃ (cause : BitVec 4), (cause = 0 ∨ cause = 5 ∨ 7 < cause.toNat)) ∧
    (∃ (s : State) (cause : BitVec 4), cause ≠ 0 ∧ cause ≠ 5 ∧ cause.toNat ≤ 7 ∧ (s.relx.retState ≠ .none ∨
      s.healx.retireWait.isSome = true)) ∧
    (∃ (s : State), (s.relx.retState ≠ .draining ∨ s.anyTask = true)) ∧
    (∃ (s : State) (cause : BitVec 4), cause ≠ 0 ∧ cause ≠ 5 ∧ cause.toNat ≤ 7 ∧ s.relx.retState = .none ∧ s.healx.retireWait = none
      ∧ s.top.ready = true ∧ s.bist.state = 0 ∧ s.recovering = false) ∧
    (∃ (s : State) (cause : BitVec 4), cause ≠ 0 ∧ cause ≠ 5 ∧ cause.toNat ≤ 7 ∧ s.relx.retState = .none ∧ s.healx.retireWait = none
      ∧ s.top.ready = false) ∧
    (∃ (s : State), s.relx.retState = .draining ∧ s.anyTask = false) ∧
    (∃ (s : State), s.resetLevel = none ∧ s.relx.retState = .none) ∧
    (∃ (s : State), s.rstc.inReset = some .por) ∧
    (∃ (s : State) (task : BitVec 32) (x : TaskRt), Tab.find s.tasks task.toNat = some x ∧ x.phase = .running) :=
  ⟨⟨{ (up.modRelx fun x => { x with transit := [(7, ⟨2, 5⟩)] }) with ticks := 5 + 2 ^ 32 }, 7, ⟨2, 5⟩, by decide +kernel⟩,
    ⟨{ (up.modRelx fun x => { x with transit := [(7, ⟨2, 5⟩)] }) with ticks := 4 + 2 ^ 32 }, 7, by decide +kernel⟩,
    ⟨ar a26, 0, by decide +kernel⟩,
    ⟨up, 0, by decide +kernel⟩,
    ⟨cap, 0, 3, [], by decide +kernel⟩,
    ⟨ar a26, 0, a26, row5, by decide +kernel⟩,
    ⟨ar a26, 0, a26, row3, by decide +kernel⟩,
    ⟨ar a26, 0, a26, row1, by decide +kernel⟩,
    ⟨ar { a26 with repeated := true }, 0, { a26 with repeated := true }, row1, by decide +kernel⟩,
    ⟨ar a26, 0, a26, 16, row4, by decide +kernel⟩,
    ⟨8, by decide +kernel⟩,
    ⟨up.modRelx (fun x => { x with retState := .draining }), 7, by decide +kernel⟩,
    ⟨up, by decide +kernel⟩,
    ⟨up.modTop (fun t => { t with ready := true }), 1, by decide +kernel⟩,
    ⟨up, 4, by decide +kernel⟩,
    ⟨up.modRelx fun x => { x with retState := .draining, retCause := 2 }, by decide +kernel⟩,
    ⟨up, by decide +kernel⟩,
    ⟨up.modRstc (fun r => { r with inReset := some .por }), by decide +kernel⟩,
    ⟨running (fold [] [] []) {} 20, 5, { sched := 1, phase := .running, launch := 10, length := 16, tiles := [0] },
      by decide +kernel⟩⟩

def dz (f : DigSt → DigSt) (e : Bool) : State := (up.updDig 0 f).modRelx fun x => { x with twinEn := e }

def h27 : BitVec 256 := shake32 []

def dm : DigestMsg := ⟨0, 2, 4, 9⟩

/-- The hypotheses of the clauses of `Obligations.DigestRegionsAreChecked` can be met. -/
theorem test_witness_DigestRegionsAreChecked :
    (∃ (s : State) (n : Fin 256), (s.dig n).due = true ∧ (s.dig n).state = .learn ∧ (s.dig n).hostRef = false ∧ s.relx.twinEn =
      false) ∧
    (∃ (s : State) (n : Fin 256), (s.dig n).due = true ∧ (s.dig n).state = .good ∧ shake32 (s.hbmBytes (s.dig n).base (s.dig
      n).bytes) ≠ (s.dig n).ref) ∧
    (∃ (s : State) (n : Fin 256), (s.dig n).due = true ∧ (s.dig n).state = .recheck ∧ shake32 (s.hbmBytes (s.dig n).base (s.dig
      n).bytes) = (s.dig n).ref) ∧
    (∃ (s : State) (n : Fin 256), ((s.dig n).due = false ∨ (s.dig n).state = .off)) ∧
    (∃ (s : State) (n : Fin 256), (s.dig n).due = true ∧ (s.dig n).state = .learn ∧ (s.dig n).hostRef = true ∧ shake32 (s.hbmBytes
      (s.dig n).base (s.dig n).bytes) ≠ (s.dig n).ref) ∧
    (∃ (s : State) (n : Fin 256), (s.dig n).due = true ∧ (s.dig n).state = .good ∧ shake32 (s.hbmBytes (s.dig n).base (s.dig
      n).bytes) = (s.dig n).ref) ∧
    (∃ (s : State) (n : Fin 256), (s.dig n).due = true ∧ (s.dig n).state = .recheck ∧ shake32 (s.hbmBytes (s.dig n).base (s.dig
      n).bytes) ≠ (s.dig n).ref) ∧
    (∃ (s : State) (acc : Accessor), s.mayWrite acc = false ∧ s.passed 0 = true) ∧
    (∃ (s : State) (acc : Accessor), s.mayWrite acc = true ∧ s.passed 0 = true ∧ (s.dig (s.relx.digSel.get acc).toNat).state ≠ .off) ∧
    (∃ (s : State) (acc : Accessor), s.mayWrite acc = true ∧ s.passed 0 = true ∧ (s.dig (s.relx.digSel.get acc).toNat).state = .off) ∧
    (∃ (s : State) (acc : Accessor) (v : Word), s.mayWrite acc = true ∧ s.passed 0 = true ∧ (rateOk (s.digBytes .west) (intervalSecs
      (v.extractLsb' 0 12)) = false ∨ rateOk (s.digBytes .east) (intervalSecs (v.extractLsb' 0 12)) = false)) ∧
    (∃ (s : State) (m : DigestMsg), (s.relx.twinEn = false ∨ ((s.dig m.region.toNat).state ≠ .learn ∧ (s.dig m.region.toNat).state ≠
      .good))) ∧
    (∃ (s : State) (m : DigestMsg), s.relx.twinEn = true ∧ (s.dig m.region.toNat).state = .good ∧ (m.state ≠ 2 ∨ m.d = (s.dig
      m.region.toNat).last)) ∧
    (∃ (s : State) (m : DigestMsg), s.relx.twinEn = true ∧ (s.dig m.region.toNat).state = .learn ∧ m.state = 2 ∧ (s.dig
      m.region.toNat).learned = true ∧ m.d ≠ (s.dig m.region.toNat).last) ∧
    (∃ (s : State) (acc : Accessor) (v : Word), s.mayWrite acc = true ∧ s.passed 0 = true ∧ (s.dig (s.relx.digSel.get
      acc).toNat).state = .off ∧ (s.dig (s.relx.digSel.get acc).toNat).ok = true ∧ (rateOk ((s.updDig (s.relx.digSel.get acc).toNat
      fun d => { d with hostRef := bit v 29 }).digBytes (partHalf (partOf (s.dig (s.relx.digSel.get acc).toNat).base)) + (s.dig
      (s.relx.digSel.get acc).toNat).bytes) (intervalSecs s.relx.interval) = true)) ∧
    (∃ (s : State) (acc : Accessor), s.mayWrite acc = true ∧ s.passed 0 = true ∧ (s.dig (s.relx.digSel.get acc).toNat).state =
      .good) ∧
    (∃ (s : State) (acc : Accessor) (v : Word), s.mayWrite acc = true ∧ s.passed 0 = true ∧ rateOk (s.digBytes .west) (intervalSecs
      (v.extractLsb' 0 12)) = true ∧ rateOk (s.digBytes .east) (intervalSecs (v.extractLsb' 0 12)) = true) ∧
    (∃ (s : State) (m : DigestMsg), s.relx.twinEn = true ∧ (s.dig m.region.toNat).state = .good ∧ m.state = 2 ∧ m.d ≠ (s.dig
      m.region.toNat).last) ∧
    (∃ (s : State) (m : DigestMsg), s.relx.twinEn = true ∧ (s.dig m.region.toNat).state = .learn ∧ m.state = 2 ∧ (s.dig
      m.region.toNat).learned = true ∧ m.d = (s.dig m.region.toNat).last) :=
  ⟨⟨dz (fun d => { d with state := .learn, due := true }) false, 0, by decide +kernel⟩,
    ⟨dz (fun d => { d with state := .good, due := true, ref := h27 ^^^ 1 }) false, 0, by decide +kernel, by decide +kernel, ne_flip
      _⟩,
    ⟨dz (fun d => { d with state := .recheck, due := true, ref := h27 }) false, 0, by decide +kernel, by decide +kernel, rfl⟩,
    ⟨up, 0, by decide +kernel⟩,
    ⟨dz (fun d => { d with state := .learn, due := true, hostRef := true, ref := h27 ^^^ 1 }) false, 0, by decide +kernel,
      by decide +kernel, by decide +kernel, ne_flip _⟩,
    ⟨dz (fun d => { d with state := .good, due := true, ref := h27 }) false, 0, by decide +kernel, by decide +kernel, rfl⟩,
    ⟨dz (fun d => { d with state := .recheck, due := true, ref := h27 ^^^ 1 }) false, 0, by decide +kernel, by decide +kernel,
      ne_flip _⟩,
    ⟨up, .portA, by decide +kernel⟩,
    ⟨dz (fun d => { d with state := .good }) false, .mc, by decide +kernel⟩,
    ⟨up, .mc, by decide +kernel⟩,
    ⟨(dz (fun d => { d with state := .good, size := 147456 }) false).updDig 1 (fun d => { d with state := .good, size := 147456 }),
      .mc, 0x80030001, by decide +kernel⟩,
    ⟨up, dm, by decide +kernel⟩,
    ⟨dz (fun d => { d with state := .good, last := 9 }) true, dm, by decide +kernel⟩,
    ⟨dz (fun d => { d with state := .learn, learned := true, last := 8 }) true, dm, by decide +kernel⟩,
    ⟨dz (fun d => { d with size := 1 }) false, .mc, 0xA0000000, by decide +kernel⟩,
    ⟨dz (fun d => { d with state := .good, size := 1 }) false, .mc, by decide +kernel⟩,
    ⟨up, .mc, 0x8003000A, by decide +kernel⟩,
    ⟨dz (fun d => { d with state := .good, last := 8 }) true, dm, by decide +kernel⟩,
    ⟨dz (fun d => { d with state := .learn, learned := true, last := 9 }) true, dm, by decide +kernel⟩⟩

def busy28 : State := running (fold [] [] []) {} 20

def img28 (v : List Variant) (m : List Migration) : Image := ⟨1, 1, 0, 0, [tcfg (fold [] [] [])], [], m, v⟩

def va : Variant := ⟨0, 0, 1, [(5, 1, ⟨8, [fold [] [] []]⟩)]⟩

def lost (h : Tab (BitVec 4)) : State := (((up.modScheds fun _ => [(1, { image := img28 [va] [] })]).updRole 0 fun r =>
  { r with role := .fenced }).updRole 16 fun r => { r with role := .fenced }).updRole 17 (fun r => { r with role := .fenced })
  |>.updClus 0 fun c => { c with hosts := h }

def rot : State := (up.modScheds fun _ => [(1, { image := img28 [] [⟨0, 32, [0]⟩], started := true, stopping := true })]).updClus 0
  fun c => { c with rotMark := some 3 }

def tst : State := (up.updRole 16 fun r => { r with role := .testing }).updTile 16 fun t => { t with mode := .test }

/-- The hypotheses of the clauses of `Obligations.TilesFenceRotateAndTest` can be met. -/
theorem test_witness_TilesFenceRotateAndTest :
    (∃ (s : State) (acc : Accessor) (v : Word), s.mayWrite acc = true ∧ s.passed 1 = true ∧ (v.extractLsb' 0 12 : BitVec 12).toNat <
      2304 ∧ (s.role (v.extractLsb' 0 12 : BitVec 12).toNat).role ≠ .fenced ∧ s.partMode (ptPart (v.extractLsb' 0 12 : BitVec
      12).toNat) ≠ .reset ∧ s.clusRuns (ptClus (v.extractLsb' 0 12 : BitVec 12).toNat) = false) ∧
    (∃ (s : State) (acc : Accessor) (v : Word), s.mayWrite acc = true ∧ s.passed 1 = true ∧ 2304 ≤ (v.extractLsb' 0 12 : BitVec
      12).toNat) ∧
    (∃ (s : State) (acc : Accessor) (v : Word), s.mayWrite acc = true ∧ s.passed 1 = true ∧ (v.extractLsb' 0 12 : BitVec 12).toNat <
      2304 ∧ (s.role (v.extractLsb' 0 12 : BitVec 12).toNat).role = .active ∧ s.clusRuns (ptClus (v.extractLsb' 0 12 : BitVec
      12).toNat) = true) ∧
    (∃ (s : State) (pt : Pt), s.healx.fenceWait.contains (8 * 4096 + pt.val) = true ∧ s.clusRuns (ptClus pt) = false ∧ s.partMode
      (ptPart pt) ≠ .reset ∧ (s.role pt).role ≠ .fenced) ∧
    (∃ (s : State) (acc : Accessor) (v : Word), s.mayWrite acc = true ∧ s.passed 1 = true ∧ (v.extractLsb' 0 12 : BitVec 12).toNat <
      128) ∧
    (∃ (s : State), s.heal.rotEn = true) ∧
    (∃ (s : State) (c : Clus) (i j k : Nat), (s.clus c).rotMark = some i ∧ s.spareTile c = some j ∧ s.hasBench c = true ∧ s.clusRuns
      c = false ∧ s.atMigration c = true ∧ s.wantsSpare c = false ∧ s.partMode (clusPart c) ≠ .reset ∧ s.slotOf (18 * c.val + i) =
      some k ∧ j ≠ 18 * c.val + s.remapIdx c k) ∧
    (∃ (s : State) (pt : Pt), (s.role pt).role = .testing ∧ s.testGoes pt = true ∧ ((s.relx.arbs.any fun a => decide (a.bench = some
      pt.val)) = false)) ∧
    (∃ (s : State) (pt : Pt), (s.role pt).role = .testing ∧ ((s.relx.arbs.any fun a => decide (a.bench = some pt.val)) = false) ∧
      s.testGoes pt = true) ∧
    (∃ (s : State) (c : Clus) (slot : Fin 16) (sched : BitVec 32) (x : SchedSt) (v : Variant), s.sched? sched = some x ∧
      s.variantFor x.image (16 * c.val + slot.val) = some v ∧ s.ltLost (16 * c.val + slot.val) = true ∧ s.clusRuns c = false ∧
      Tab.find (s.clus c).hosts slot = none) ∧
    (∃ (s : State) (c : Clus) (slot : Fin 16) (sched : BitVec 32) (x : SchedSt) (v : Variant), s.sched? sched = some x ∧
      s.variantFor x.image (16 * c.val + slot.val) = some v ∧ s.ltLost (16 * c.val + slot.val) = true ∧ s.clusRuns c = false ∧
      (Tab.find (s.clus c).hosts slot).isSome = true) ∧
    (∃ (s : State) (c : Clus) (slot : Fin 16) (sched : BitVec 32), ((∀ x, s.sched? sched = some x → s.variantFor x.image (16 * c.val
      + slot.val) = none) ∨ s.ltLost (16 * c.val + slot.val) = false ∨ s.clusRuns c = true)) ∧
    (∃ (s : State) (acc : Accessor) (v : Word), s.mayWrite acc = true ∧ s.passed 1 = true ∧ (v.extractLsb' 0 12 : BitVec 12).toNat <
      2304 ∧ (s.role (v.extractLsb' 0 12 : BitVec 12).toNat).role = .fenced) ∧
    (∃ (s : State) (acc : Accessor), s.mayWrite acc = false ∧ s.passed 1 = true) ∧
    (∃ (s : State), s.passed 1 = false) ∧
    (∃ (s : State) (pt : Pt), (s.healx.fenceWait.contains (8 * 4096 + pt.val) = false ∨ s.clusRuns (ptClus pt) = true ∨ s.partMode
      (ptPart pt) = .reset)) ∧
    (∃ (s : State) (acc : Accessor) (v : Word), s.mayWrite acc = true ∧ s.passed 1 = true ∧ 128 ≤ (v.extractLsb' 0 12 : BitVec
      12).toNat) ∧
    (∃ (s : State), s.heal.rotEn = false) ∧
    (∃ (s : State) (c : Clus), ((s.clus c).rotMark = none ∨ s.spareTile c = none ∨ s.hasBench c = false ∨ s.clusRuns c = true ∨
      s.atMigration c = false ∨ s.wantsSpare c = true ∨ s.partMode (clusPart c) = .reset)) ∧
    (∃ (s : State) (pt : Pt), ((s.role pt).role ≠ .testing ∨ s.testGoes pt = false ∨ (s.relx.arbs.any fun a => decide (a.bench =
      some pt.val)) = true)) :=
  ⟨⟨up, .mc, 2303, by decide +kernel⟩,
    ⟨up, .mc, 2304, by decide +kernel⟩,
    ⟨busy28, .mc, 7, by decide +kernel⟩,
    ⟨up.modHealx (fun h => { h with fenceWait := [8 * 4096 + 7] }), 7, by decide +kernel⟩,
    ⟨up, .mc, 127, by decide +kernel⟩,
    ⟨up, by decide +kernel⟩,
    ⟨rot, 0, 3, 16, 3, by decide +kernel⟩,
    ⟨tst, 16, by decide +kernel⟩,
    ⟨tst, 16, by decide +kernel⟩,
    ⟨lost [], 0, 0, 1, { image := img28 [va] [] }, va, by decide +kernel⟩,
    ⟨lost [(0, 1)], 0, 0, 1, { image := img28 [va] [] }, va, by decide +kernel⟩,
    ⟨up, 0, 0, 1, by decide +kernel⟩,
    ⟨up.updRole 7 (fun r => { r with role := .fenced }), .mc, 7, by decide +kernel⟩,
    ⟨up, .portA, by decide +kernel⟩,
    ⟨State.reset, by decide +kernel⟩,
    ⟨up, 7, by decide +kernel⟩,
    ⟨up, .mc, 128, by decide +kernel⟩,
    ⟨up.modHeal fun h => { h with rotEn := false }, by decide +kernel⟩,
    ⟨up, 0, by decide +kernel⟩,
    ⟨up, 16, by decide +kernel⟩⟩

def pm (m : PartMode) : State := up.setPartMode 2 m

/-- The hypotheses of the clauses of `Obligations.PartitionsRecover` can be met. -/
theorem test_witness_PartitionsRecover :
    (∃ (s : State) (p : Part), s.partMode p = .run ∧ s.parked p = false) ∧
    (∃ (s : State) (p : Part), (s.partMode p ≠ .run ∨ s.parked p = true)) ∧
    (∃ (s : State) (pt : Pt), s.partMode (ptPart pt) = .run ∧ s.parked (ptPart pt) = false) ∧
    (∃ (s : State) (pt : Pt) (p : Part), (s.partMode p ≠ .run ∨ s.parked p = true) ∧ p.val = ptPart pt) ∧
    (∃ (s : State), s.relx.retState = .none ∧ s.healx.retireWait = none ∧ s.top.ready = true ∧ s.bist.state = 0 ∧ s.recovering =
      false) ∧
    (∃ (s : State) (acc : Accessor) (v : Word), s.mayWrite acc = true ∧ s.passed 1 = true ∧ (v.extractLsb' 0 12 : BitVec 12).toNat <
      16 ∧ s.parked (v.extractLsb' 0 12 : BitVec 12).toNat = false ∧ s.partMode (v.extractLsb' 0 12 : BitVec 12).toNat = .run) ∧
    (∃ (s : State) (acc : Accessor) (v : Word), s.mayWrite acc = true ∧ s.passed 1 = true ∧ 16 ≤ (v.extractLsb' 0 12 : BitVec
      12).toNat) ∧
    (∃ (s : State) (acc : Accessor) (v : Word), s.mayWrite acc = true ∧ s.passed 1 = true ∧ (v.extractLsb' 0 12 : BitVec 12).toNat <
      16 ∧ (s.parked (v.extractLsb' 0 12 : BitVec 12).toNat = true ∨ s.partMode (v.extractLsb' 0 12 : BitVec 12).toNat ≠ .run)) ∧
    (∃ (s : State) (p : Part), s.partMode p = .reset ∧ s.healx.fenceWait = [] ∧ s.healx.hangWait = [] ∧ s.healx.retireWait = none ∧
      s.healx.rotDue = []) ∧
    (∃ (s : State) (p : Part), s.partMode p = .verify ∧ (((s.digsOf p).all fun e => decide (e.2.state = .good)) = true)) ∧
    (∃ (s : State) (p : Part), (s.partMode p ≠ .verify ∨ (∃ e ∈ s.digsOf p, e.2.state ≠ .good))) ∧
    (∃ (s : State) (p : Part), s.partMode p ≠ .reset) :=
  ⟨⟨up, 2, by decide +kernel⟩,
    ⟨pm .reset, 2, by decide +kernel⟩,
    ⟨up, 300, by decide +kernel⟩,
    ⟨pm .verify, 300, 2, by decide +kernel⟩,
    ⟨up.modTop (fun t => { t with ready := true }), by decide +kernel⟩,
    ⟨up, .mc, 15, by decide +kernel⟩,
    ⟨up, .mc, 16, by decide +kernel⟩,
    ⟨pm .reset, .mc, 2, by decide +kernel⟩,
    ⟨pm .reset, 2, by decide +kernel⟩,
    ⟨pm .verify, 2, by decide +kernel⟩,
    ⟨up, 2, by decide +kernel⟩,
    ⟨up, 2, by decide +kernel⟩⟩

def tx (f : HealAux → HealAux) : State := (up.updFab 16 fun f => { f with state := .up }).modHealx f

def ax : AttachRegion := ⟨0, 0, 1, 9⟩

/-- The hypotheses of the clauses of `Obligations.TwinsAttachAndPart` can be met. -/
theorem test_witness_TwinsAttachAndPart :
    (∃ (s : State) (acc : Accessor), s.mayWrite acc = true ∧ s.passed 1 = true ∧ s.healx.twin = .none ∧ s.twUp = true) ∧
    (∃ (s : State) (acc : Accessor), s.mayWrite acc = true ∧ s.passed 1 = true ∧ s.healx.twin = .none ∧ s.twUp = true ∧ s.scheds =
      []) ∧
    (∃ (s : State) (acc : Accessor), s.mayWrite acc = true ∧ s.passed 1 = true ∧ (s.healx.twin = .attachSrc ∨ s.healx.twin =
      .attachSink)) ∧
    (∃ (s : State) (acc : Accessor), s.mayWrite acc = true ∧ s.passed 1 = true ∧ (s.healx.twin = .paired ∨ s.healx.twin = .solo)) ∧
    (∃ (s : State) (acc : Accessor), s.mayWrite acc = true ∧ s.passed 1 = true ∧ (s.healx.twin ≠ .none ∨ s.twUp = false)) ∧
    (∃ (s : State) (acc : Accessor), s.mayWrite acc = true ∧ s.passed 1 = true ∧ (s.healx.twin ≠ .none ∨ s.twUp = false ∨ s.scheds ≠
      [])) ∧
    (∃ (s : State) (acc : Accessor), s.mayWrite acc = true ∧ s.passed 1 = true ∧ s.healx.twin = .none) ∧
    (∃ (s : State) (acc : Accessor), s.mayWrite acc = false ∧ s.passed 1 = true) ∧
    (∃ (s : State), s.healx.twin = .attachSink ∧ s.healx.copied = false) ∧
    (∃ (s : State), s.healx.twin = .attachSink ∧ s.healx.copied = true ∧ (((s.healx.attachRegions.map fun r => r.n.toNat).any fun n
      => decide ((s.dig n).state = .bad)) = true)) ∧
    (∃ (s : State), s.healx.twin = .attachSink ∧ s.healx.copied = true ∧ (((s.healx.attachRegions.map fun r => r.n.toNat).any fun n
      => decide ((s.dig n).state = .bad)) = false) ∧ (((s.healx.attachRegions.map fun r => r.n.toNat).all fun n => decide ((s.dig
      n).state = .good)) = false ∨ s.fret.state ≠ .member)) ∧
    (∃ (s : State), s.healx.twin ≠ .attachSrc ∧ s.healx.twin ≠ .attachSink) ∧
    (∃ (s : State), s.healx.twin ≠ .paired) ∧
    (∃ (s : State), (s.healx.twin = .attachSrc ∨ s.healx.twin = .attachSink)) ∧
    (∃ (s : State), (s.healx.twin = .none ∨ s.healx.twin = .solo)) ∧
    (∃ (s : State), s.healx.twin = .attachSrc) ∧
    (∃ (s : State), s.healx.twin = .attachSink ∧ s.healx.copied = true ∧ s.fret.state = .member ∧ (((s.healx.attachRegions.map fun r
      => r.n.toNat).all fun n => decide ((s.dig n).state = .good)) = true)) ∧
    (∃ (s : State), s.healx.twin = .paired) ∧
    (∃ (s : State), s.healx.twin = .paired) ∧
    (∃ (s : State), s.healx.twin ≠ .attachSink) ∧
    (∃ (s : State), s.healx.twin = .attachSink) :=
  ⟨⟨tx id, .mc, by decide +kernel⟩,
    ⟨tx id, .mc, by decide +kernel⟩,
    ⟨tx (fun h => { h with twin := .attachSink }), .mc, by decide +kernel⟩,
    ⟨tx (fun h => { h with twin := .solo }), .mc, by decide +kernel⟩,
    ⟨up, .mc, by decide +kernel⟩,
    ⟨tx (fun h => { h with twin := .paired }), .mc, by decide +kernel⟩,
    ⟨up, .mc, by decide +kernel⟩,
    ⟨up, .portA, by decide +kernel⟩,
    ⟨tx (fun h => { h with twin := .attachSink }), by decide +kernel⟩,
    ⟨(tx fun h => { h with twin := .attachSink, copied := true, attachRegions := [ax] }).updDig 0 (fun d =>
      { d with state := .bad }), by decide +kernel⟩,
    ⟨tx (fun h => { h with twin := .attachSink, copied := true, attachRegions := [ax] }), by decide +kernel⟩,
    ⟨up, by decide +kernel⟩,
    ⟨up, by decide +kernel⟩,
    ⟨tx fun h => { h with twin := .attachSrc }, by decide +kernel⟩,
    ⟨up, by decide +kernel⟩,
    ⟨tx (fun h => { h with twin := .attachSrc }), by decide +kernel⟩,
    ⟨(tx fun h => { h with twin := .attachSink, copied := true, attachRegions := [ax] }).updDig 0 (fun d =>
      { d with state := .good }), by decide +kernel⟩,
    ⟨tx fun h => { h with twin := .paired }, by decide +kernel⟩,
    ⟨tx (fun h => { h with twin := .paired }), by decide +kernel⟩,
    ⟨up, by decide +kernel⟩,
    ⟨tx (fun h => { h with twin := .attachSink }), by decide +kernel⟩⟩

def rs31 (l : Option Level) : State := up.modRstc fun r => { r with inReset := l }

def own31 (f : State → State) : State := f (up.modTop fun t => { t with owner := .a })

def or31 (l : Level) (fr : Nat) : State := (running (fold [] [] []) {} 20).modRstc fun r =>
  { r with orderly := some ⟨l, 3, 5, fr, false⟩ }

/-- The hypotheses of the clauses of `Obligations.ResetsTakeTheirLevels` can be met. -/
theorem test_witness_ResetsTakeTheirLevels :
    (∃ (s : State), s.rstc.inReset ≠ some .por) ∧
    (∃ (s : State), s.resetLevel = none) ∧
    (∃ (s : State), s.rstc.wdogArmed = true ∧ s.rstc.wdogEn = true ∧ s.resetLevel = none) ∧
    (∃ (s : State) (p : HostPort) (v : Word), s.holdsToken p = true ∧ v.extractLsb' 16 16 = (0x5253 : BitVec 16) ∧ s.resetLevel =
      none ∧ s.rstc.everReady = true ∧ s.bist.state ≠ 2) ∧
    (∃ (s : State) (p : HostPort) (v : Word), s.holdsToken p = true ∧ v.extractLsb' 16 16 = (0x5253 : BitVec 16) ∧ s.resetLevel =
      none ∧ s.rstc.everReady = false) ∧
    (∃ (s : State) (p : HostPort) (v : Word), s.holdsToken p = true ∧ v.extractLsb' 16 16 = (0x5253 : BitVec 16) ∧ s.resetLevel =
      none) ∧
    (∃ (s : State) (acc : Accessor) (v : Word), s.mayWrite acc = true ∧ v.extractLsb' 16 16 ≠ (0x5253 : BitVec 16)) ∧
    (∃ (s : State) (o : Orderly), s.rstc.orderly = some o ∧ o.level = .core ∧ o.fret ≤ s.now ∧ s.replyWaits o.src = false) ∧
    (∃ (s : State) (o : Orderly), s.rstc.orderly = some o ∧ o.level = .system ∧ o.fret ≤ s.now ∧ s.replyWaits o.src = false) ∧
    (∃ (s : State), s.rstc.inReset = some .system ∧ s.rstc.sysrstLow = false ∧ s.sec.scan = .closed) ∧
    (∃ (s : State), s.rstc.inReset = some .core) ∧
    (∃ (s : State), s.rstc.inReset = some .system ∧ s.sec.scan = .closed) ∧
    (∃ (s : State), (s.rstc.inReset ≠ some .system ∨ s.sec.scan ≠ .closed)) ∧
    (∃ (s : State), (s.rstc.inReset = none ∨ s.rstc.inReset = some .por ∨ (s.rstc.inReset = some .system ∧ (s.rstc.sysrstLow = true
      ∨ s.sec.scan ≠ .closed)))) ∧
    (∃ (s : State), s.rstc.inReset = some .por) ∧
    (∃ (s : State), s.rstc.inReset = some .system ∧ s.rstc.orderly = none) ∧
    (∃ (s : State), (s.rstc.wdogArmed = false ∨ s.rstc.wdogEn = false)) ∧
    (∃ (s : State) (l : Level), s.rstc.wdogArmed = true ∧ s.rstc.wdogEn = true ∧ s.rstc.inReset = some l ∧ l ≠ .core ∧
      s.rstc.orderly = none) ∧
    (∃ (s : State) (v : Word), v.extractLsb' 16 16 = (0x5253 : BitVec 16) ∧ s.resetLevel = none) ∧
    (∃ (s : State) (p : HostPort), s.holdsToken p = true ∧ s.rstc.everReady = true ∧ s.bist.state = 2) ∧
    (∃ (s : State) (acc : Accessor), s.mayWrite acc = false) ∧
    (∃ (s : State), s.rstc.orderly = none) ∧
    (∃ (s : State) (o : Orderly), s.rstc.orderly = some o ∧ ((s.now < o.fret ∧ s.fret.state ≠ .unlocked) ∨ s.replyWaits o.src =
      true)) :=
  ⟨⟨rs31 (some .system), by decide +kernel⟩,
    ⟨running (fold [] [] []) {} 20, by decide +kernel⟩,
    ⟨up.modRstc fun r => { r with wdogArmed := true }, by decide +kernel⟩,
    ⟨own31 fun s => (s.modRstc fun r => { r with everReady := true }).updTask 5 fun t =>
      { t with phase := .running, launch := 3, length := 9 }, .a, 0x52530000, by decide +kernel⟩,
    ⟨own31 id, .a, 0x52530001, by decide +kernel⟩,
    ⟨own31 fun s => s.updTask 5 fun t => { t with phase := .running, launch := 3, length := 9 }, .a, 0x52530001, by decide +kernel⟩,
    ⟨up, .mc, 0x52520001, by decide +kernel⟩,
    ⟨or31 .core 20, ⟨.core, 3, 5, 20, false⟩, by decide +kernel⟩,
    ⟨or31 .system 20, ⟨.system, 3, 5, 20, false⟩, by decide +kernel⟩,
    ⟨rs31 (some .system), by decide +kernel⟩,
    ⟨rs31 (some .core), by decide +kernel⟩,
    ⟨(rs31 (some .system)).modRstc fun r => { r with sysrstLow := true }, by decide +kernel⟩,
    ⟨up.modRstc fun r => { r with sysrstLow := true }, by decide +kernel⟩,
    ⟨(rs31 (some .system)).modRstc fun r => { r with sysrstLow := true }, by decide +kernel⟩,
    ⟨rs31 (some .por), by decide +kernel⟩,
    ⟨rs31 (some .system), by decide +kernel⟩,
    ⟨up, by decide +kernel⟩,
    ⟨(rs31 (some .por)).modRstc (fun r => { r with wdogArmed := true }), .por, by decide +kernel⟩,
    ⟨running (fold [] [] []) {} 20, 0x52530000, by decide +kernel⟩,
    ⟨own31 (fun s => (s.modRstc fun r => { r with everReady := true }).modBist fun b => { b with state := 2 }), .a,
      by decide +kernel⟩,
    ⟨up, .portA, by decide +kernel⟩,
    ⟨up, by decide +kernel⟩,
    ⟨or31 .system 21, ⟨.system, 3, 5, 21, false⟩, by decide +kernel⟩⟩

def pr32 (f : RstcSt → RstcSt) (t : Bool) : State := (up.modRstc fun r => f { r with inReset := some .por }).modGov fun g =>
  { g with thermtrip := t }

/-- The hypotheses of the clauses of `Obligations.SuppliesBringUpAndTrip` can be met. -/
theorem test_witness_SuppliesBringUpAndTrip :
    (∃ (s : State), s.rstc.inReset = some .por ∧ s.rstc.pwrgd = false ∧ s.rstc.vinOk = true) ∧
    (∃ (s : State) (hot : Bool), s.rstc.inReset = some .por ∧ s.rstc.pwrgd = true ∧ s.rstc.vinOk = true ∧ s.rstc.lockout = false ∧
      (s.gov.thermtrip = true → hot = false)) ∧
    (∃ (s : State), s.rstc.vinOk = false ∧ s.rstc.pwrgd = true) ∧
    (∃ (s : State), s.passed 2 = true) ∧
    (∃ (s : State) (temp : Word), 115 ≤ temp.toNat ∧ s.gov.thermtrip = false ∧ s.rstc.inReset ≠ some .por) ∧
    (∃ (s : State), s.gov.thermtrip = true) ∧
    (∃ (s : State), (s.rstc.inReset ≠ some .por ∨ s.rstc.pwrgd = false ∨ s.rstc.vinOk = false ∨ s.rstc.lockout = true)) ∧
    (∃ (s : State), (s.rstc.inReset ≠ some .por ∨ s.rstc.pwrgd = true)) ∧
    (∃ (s : State), s.rstc.inReset = some .por ∧ s.rstc.pwrgd = false ∧ s.rstc.vinOk = false) ∧
    (∃ (s : State), s.rstc.vinOk = true) ∧
    (∃ (s : State), s.rstc.vinOk = false ∧ s.rstc.pwrgd = false) ∧
    (∃ (s : State), s.passed 2 = false) ∧
    (∃ (s : State) (temp : Word), (temp.toNat < 115 ∨ s.gov.thermtrip = true ∨ s.rstc.inReset = some .por)) :=
  ⟨⟨pr32 (fun r => { r with pwrgd := false }) false, by decide +kernel⟩,
    ⟨pr32 id false, true, by decide +kernel⟩,
    ⟨up.modRstc fun r => { r with vinOk := false }, by decide +kernel⟩,
    ⟨up, by decide +kernel⟩,
    ⟨up, 115, by decide +kernel⟩,
    ⟨pr32 id true, by decide +kernel⟩,
    ⟨pr32 (fun r => { r with lockout := true }) false, by decide +kernel⟩,
    ⟨up, by decide +kernel⟩,
    ⟨pr32 (fun r => { r with pwrgd := false, vinOk := false }) false, by decide +kernel⟩,
    ⟨up, by decide +kernel⟩,
    ⟨up.modRstc fun r => { r with vinOk := false, pwrgd := false }, by decide +kernel⟩,
    ⟨State.reset, by decide +kernel⟩,
    ⟨up, 114, by decide +kernel⟩⟩

def bk (l : BitVec 2) (n : Nat) : State := ((up.modRstc fun r => { r with blks := [⟨l, n, true⟩] }).updTile 0 fun t =>
  { t with inReset := true }).updPart 0 fun p => { p with hbm := .fenced }

/-- The hypotheses of the clauses of `Obligations.BlocksReset` can be met. -/
theorem test_witness_BlocksReset :
    (∃ (s : State) (acc : Accessor) (v : Word), s.mayWrite acc = true ∧ (v.extractLsb' 28 2 : BitVec 2) = 0 ∧ s.blkRefusal 0
      (v.extractLsb' 0 12 : BitVec 12).toNat = none ∧ s.tileIdle (v.extractLsb' 0 12 : BitVec 12).toNat = true) ∧
    (∃ (s : State) (acc : Accessor) (v : Word), s.mayWrite acc = true ∧ (v.extractLsb' 28 2 : BitVec 2) = 0 ∧ s.blkRefusal 0
      (v.extractLsb' 0 12 : BitVec 12).toNat = none ∧ s.tileIdle (v.extractLsb' 0 12 : BitVec 12).toNat = false) ∧
    (∃ (s : State) (acc : Accessor) (v : Word) (c : BitVec 8), s.mayWrite acc = true ∧ s.blkRefusal (v.extractLsb' 28 2 : BitVec
      2).toNat (v.extractLsb' 0 12 : BitVec 12).toNat = some c) ∧
    (∃ (s : State) (acc : Accessor) (v : Word), s.mayWrite acc = true ∧ (v.extractLsb' 28 2 : BitVec 2) = 1 ∧ s.blkRefusal 1
      (v.extractLsb' 0 12 : BitVec 12).toNat = none) ∧
    (∃ (s : State) (target : Nat), ((s.rstc.blks.any fun b => decide (b.level = 0) && decide (b.target = target)) = true)) ∧
    (∃ (s : State) (target : Nat), ((s.rstc.blks.any fun b => decide (b.level = 1) && decide (b.target = target)) = true)) ∧
    (∃ (s : State) (target : Nat), ((s.rstc.blks.any fun b => decide (b.level = 2) && decide (b.target = target)) = true) ∧
      s.partMode target ≠ .reset) ∧
    (∃ (s : State) (level : BitVec 2) (target : Nat), ((s.rstc.blks.any fun b => decide (b.level = level) && decide (b.target =
      target)) = false ∨ (level = 2 ∧ s.partMode target = .reset))) ∧
    (∃ (s : State) (acc : Accessor) (v : Word), s.mayWrite acc = true ∧ (v.extractLsb' 28 2 : BitVec 2) = 2 ∧ s.blkRefusal 2
      (v.extractLsb' 0 12 : BitVec 12).toNat = none ∧ s.partMode (v.extractLsb' 0 12 : BitVec 12).toNat = .run) ∧
    (∃ (s : State) (acc : Accessor) (v : Word), s.mayWrite acc = true ∧ (v.extractLsb' 28 2 : BitVec 2) = 0 ∧ s.blkRefusal 0
      (v.extractLsb' 0 12 : BitVec 12).toNat = none) ∧
    (∃ (s : State) (acc : Accessor), s.mayWrite acc = false) :=
  ⟨⟨up, .mc, 0x40000000, by decide +kernel⟩,
    ⟨running (fold [] [] []) {} 20, .mc, 0x40000000, by decide +kernel⟩,
    ⟨up.setPartMode 0 .reset, .mc, 0x40000000, 4, by decide +kernel⟩,
    ⟨running (fold [] [] []) {} 20, .mc, 0x90000000, by decide +kernel⟩,
    ⟨bk 0 0, 0, by decide +kernel⟩,
    ⟨bk 1 0, 0, by decide +kernel⟩,
    ⟨bk 2 0, 0, by decide +kernel⟩,
    ⟨(bk 2 0).setPartMode 0 .reset, 2, 0, by decide +kernel⟩,
    ⟨running (fold [] [] []) {} 20, .mc, 0x60000000, by decide +kernel⟩,
    ⟨running (fold [] [] []) {} 20, .mc, 0x80000000, by decide +kernel⟩,
    ⟨up, .portB, by decide +kernel⟩⟩

def bb (f : BrupSt → BrupSt) : State := up.modBrup f

def br : ScriptRec := ⟨1, 0, 0, 0x50010, 7, 0xFF⟩

def sc (r : ScriptRec) (f : BrupSt → BrupSt) : State := (up.modBrup fun b => f { b with running := true }).modFlash fun x =>
  { x with script := [r] }

def st34 (k : Nat) (x : Stage) : List Stage := (List.replicate k Stage.passed ++ List.replicate (10 - k) Stage.notRun).set k x

/-- The hypotheses of the clauses of `Obligations.BringUpCommandsAndScript` can be met. -/
theorem test_witness_BringUpCommandsAndScript :
    (∃ (s : State) (acc : Accessor) (v : Word), s.mayWrite acc = true ∧ (v.extractLsb' 0 4).toNat ≤ 9 ∧ s.earlierPassed
      (v.extractLsb' 0 4).toNat = true ∧ (s.brup.stages.getD (v.extractLsb' 0 4).toNat .passed = .notRun ∨ s.brup.stages.getD
      (v.extractLsb' 0 4).toNat .passed = .failed) ∧ s.brup.blocked = none) ∧
    (∃ (s : State) (acc : Accessor) (v : Word), s.mayWrite acc = true ∧ (s.earlierPassed (v.extractLsb' 0 4).toNat = false ∨
      s.brup.stages.getD (v.extractLsb' 0 4).toNat .passed = .passed)) ∧
    (∃ (s : State) (acc : Accessor), s.mayWrite acc = true ∧ s.brup.auto = true) ∧
    (∃ (s : State) (acc : Accessor), s.mayWrite acc = true) ∧
    (∃ (s : State) (acc : Accessor), s.mayWrite acc = true ∧ s.brup.stages.getD 1 .notRun = .failed ∧ s.brup.failStage = 1 ∧
      s.brup.failCode = 2) ∧
    (∃ (s : State) (acc : Accessor) (v : Word), s.mayWrite acc = true ∧ (v.extractLsb' 8 4 : BitVec 4) = 0 ∧ s.sec.lc ≠ .final) ∧
    (∃ (s : State), s.brup.auto = true ∧ s.brup.paused = false ∧ s.passed 1 = true ∧ s.brup.scriptOk = true ∧ s.brup.replayed =
      false ∧ s.brup.running = false) ∧
    (∃ (s : State) (r : ScriptRec), s.brup.ready = true ∧ s.flash.script[s.brup.next]? = some r ∧ r.op = 1 ∧ scriptMayNot
      r.off.toNat r.value = false) ∧
    (∃ (s : State) (r : ScriptRec), s.brup.ready = true ∧ s.flash.script[s.brup.next]? = some r ∧ r.op = 1 ∧ scriptMayNot
      r.off.toNat r.value = true) ∧
    (∃ (s : State) (r : ScriptRec), s.brup.ready = true ∧ s.flash.script[s.brup.next]? = some r ∧ r.op = 2) ∧
    (∃ (s : State) (r : ScriptRec), s.brup.ready = true ∧ s.flash.script[s.brup.next]? = some r ∧ r.op = 3) ∧
    (∃ (s : State) (r : ScriptRec), s.brup.wait = .poll ∧ s.flash.script[s.brup.index.toNat]? = some r ∧ (s.bar0Read .mc
      r.off.toNat).1 &&& r.mask = r.value) ∧
    (∃ (s : State), s.brup.wait = .poll) ∧
    (∃ (s : State) (r : ScriptRec), s.brup.ready = true ∧ s.flash.script[s.brup.next]? = some r ∧ r.op = 4) ∧
    (∃ (s : State), s.brup.wait = .wait) ∧
    (∃ (s : State) (r : ScriptRec), s.brup.ready = true ∧ s.flash.script[s.brup.next]? = some r ∧ r.op = 5 ∧ r.stage.toNat ≤ 9 ∧
      s.brup.stages.length = 10 ∧ s.earlierPassed r.stage.toNat = true ∧ s.brup.stages[r.stage.toNat]? = some .notRun ∧
      s.brup.blocked = none) ∧
    (∃ (s : State) (r : ScriptRec), s.brup.ready = true ∧ s.flash.script[s.brup.next]? = some r ∧ r.op = 6) ∧
    (∃ (s : State) (acc : Accessor) (v : Word), s.mayWrite acc = true ∧ (9 < (v.extractLsb' 0 4).toNat ∨ s.brup.stages.getD
      (v.extractLsb' 0 4).toNat .passed = .running ∨ ∃ b, s.brup.blocked = some b ∧ b < (v.extractLsb' 0 4).toNat)) ∧
    (∃ (s : State) (acc : Accessor), s.mayWrite acc = true ∧ s.brup.auto = false) ∧
    (∃ (s : State) (acc : Accessor), s.mayWrite acc = true ∧ (s.brup.stages.getD 1 .notRun ≠ .failed ∨ s.brup.failStage ≠ 1 ∨
      s.brup.failCode ≠ 2)) ∧
    (∃ (s : State) (acc : Accessor) (v : Word), s.mayWrite acc = true ∧ (3 ≤ (v.extractLsb' 8 4 : BitVec 4).toNat ∨ s.sec.lc =
      .final ∨ s.verifyImage (BitVec.ofNat 8 ((v.extractLsb' 8 4 : BitVec 4).toNat + 1)) (some (parseImage s.brup.pushBytes)) =
      none)) ∧
    (∃ (s : State) (acc : Accessor) (v : Word), s.mayWrite acc = true ∧ (v.extractLsb' 8 4 : BitVec 4) = 1 ∧ s.sec.lc ≠ .final) ∧
    (∃ (s : State) (acc : Accessor) (v : Word), s.mayWrite acc = true ∧ (v.extractLsb' 8 4 : BitVec 4) = 2 ∧ s.sec.lc ≠ .final) ∧
    (∃ (s : State) (acc : Accessor) (v : Word) (i : Instr), s.mayWrite acc = false ∧ i ∈ [Instr.brupStartStage acc v, .brupPause acc
      v, .brupResume acc v, .brupBootPushed acc v, .brupProgram acc v]) ∧
    (∃ (s : State), (s.brup.auto = false ∨ s.brup.paused = true ∨ s.passed 1 = false ∨ s.brup.scriptOk = false ∨ s.brup.replayed =
      true ∨ s.brup.running = true)) ∧
    (∃ (x : Nat × Instr), x ∈ [(1, Instr.scriptWrite), (2, .scriptModify), (3, .scriptPoll), (4, .scriptWait), (5, .scriptStage),
      (6, .scriptEnd)]) ∧
    (∃ (s : State), s.brup.wait ≠ .poll) ∧
    (∃ (s : State), s.brup.wait ≠ .wait) ∧
    (∃ (s : State) (r : ScriptRec), s.brup.wait = .poll ∧ s.flash.script[s.brup.index.toNat]? = some r ∧ (s.bar0Read .mc
      r.off.toNat).1 &&& r.mask ≠ r.value) ∧
    (∃ (s : State) (r : ScriptRec), s.brup.ready = true ∧ s.flash.script[s.brup.next]? = some r ∧ r.op = 5) :=
  ⟨⟨bb (fun b => { b with stages := st34 9 .failed }), .mc, 0x10000009, by decide +kernel⟩,
    ⟨up, .mc, 0x10000009, by decide +kernel⟩,
    ⟨bb (fun b => { b with auto := true }), .mc, by decide +kernel⟩,
    ⟨bb (fun b => { b with paused := true }), .mc, by decide +kernel⟩,
    ⟨bb (fun b => { b with stages := st34 1 .failed, failStage := 1, failCode := 2 }), .mc, by decide +kernel⟩,
    ⟨up, .mc, 0x50000000, by decide +kernel⟩,
    ⟨bb fun b => { b with auto := true, scriptOk := true }, by decide +kernel⟩,
    ⟨sc br id, br, by decide +kernel⟩,
    ⟨sc { br with off := 0x60000 } id, { br with off := 0x60000 }, by decide +kernel⟩,
    ⟨sc { br with op := 2 } id, { br with op := 2 }, by decide +kernel⟩,
    ⟨sc { br with op := 3 } id, { br with op := 3 }, by decide +kernel⟩,
    ⟨sc { br with op := 3, value := 0 } (fun b => { b with wait := .poll }), { br with op := 3, value := 0 }, by decide +kernel⟩,
    ⟨bb fun b => { b with wait := .poll, running := true }, by decide +kernel⟩,
    ⟨sc { br with op := 4 } id, { br with op := 4 }, by decide +kernel⟩,
    ⟨bb fun b => { b with wait := .wait, running := true }, by decide +kernel⟩,
    ⟨sc { br with op := 5, stage := 4 } (fun b => { b with stages := st34 4 .notRun }), { br with op := 5, stage := 4 },
      by decide +kernel⟩,
    ⟨sc { br with op := 6 } id, { br with op := 6 }, by decide +kernel⟩,
    ⟨bb (fun b => { b with stages := st34 5 .notRun, blocked := some 4 }), .mc, 0x10000005, by decide +kernel⟩,
    ⟨up, .mc, by decide +kernel⟩,
    ⟨up, .mc, by decide +kernel⟩,
    ⟨up.modSec (fun x => { x with lc := .final }), .mc, 0x50000000, by decide +kernel⟩,
    ⟨up, .mc, 0x50000100, by decide +kernel⟩,
    ⟨up, .mc, 0x50000200, by decide +kernel⟩,
    ⟨up, .portA, 0x10000004, .brupProgram .portA 0x10000004, by decide +kernel⟩,
    ⟨up, by decide +kernel⟩,
    ⟨(6, .scriptEnd), by decide +kernel⟩,
    ⟨up, by decide +kernel⟩,
    ⟨up, by decide +kernel⟩,
    ⟨sc { br with op := 3, value := 1 } (fun b => { b with wait := .poll }), { br with op := 3, value := 1 }, by decide +kernel⟩,
    ⟨sc { br with op := 5, stage := 5 } (fun b => { b with stages := st34 4 .notRun }), { br with op := 5, stage := 5 },
      by decide +kernel⟩⟩

def st35 (k : Nat) (x : Stage) : List Stage := (List.replicate k Stage.passed ++ List.replicate (10 - k) Stage.notRun).set k x

def sg (k : Nat) (f : BrupSt → BrupSt) : State := up.modBrup fun b => f { b with stages := st35 k .running }

/-- The hypotheses of the clauses of `Obligations.BringUpStagesPassOrFail` can be met. -/
theorem test_witness_BringUpStagesPassOrFail :
    (∃ (s : State), s.stageRuns 0 = true) ∧
    (∃ (s : State), s.stageRuns 1 = true ∧ (s.sec.lc = .final ∨ s.verifyImage 1 s.bootImage = none)) ∧
    (∃ (s : State), s.stageRuns 1 = true ∧ s.sec.lc ≠ .final ∧ (s.verifyImage 1 s.bootImage).isSome = true ∧ (s.verifyImage 2
      s.flash.config).isSome = false) ∧
    (∃ (s : State), s.stageRuns 1 = true ∧ s.sec.lc ≠ .final ∧ (s.verifyImage 1 s.bootImage).isSome = true ∧ (s.verifyImage 2
      s.flash.config).isSome = true) ∧
    (∃ (s : State), s.stageRuns 2 = true) ∧
    (∃ (s : State), s.stageRuns 3 = true) ∧
    (∃ (s : State), s.stageRuns 4 = true ∧ s.relx.retState = .none ∧ s.healx.retireWait = none ∧ s.top.ready = false) ∧
    (∃ (s : State), s.stageRuns 4 = true) ∧
    (∃ (s : State), s.stageRuns 5 = true ∧ s.brup.restart = false) ∧
    (∃ (s : State), s.stageRuns 6 = true) ∧
    (∃ (s : State), s.stageRuns 6 = true ∧ s.brup.restart = false ∧ s.flash.yieldOk = false) ∧
    (∃ (s : State), s.stageRuns 6 = true ∧ s.brup.restart = false ∧ s.flash.yieldOk = true ∧ s.rstc.mapped = true) ∧
    (∃ (s : State), s.stageRuns 7 = true ∧ s.brup.arg = 0 ∧ s.rstc.level = 1) ∧
    (∃ (s : State) (pt : Pt), s.stageRuns 7 = true ∧ s.brup.arg = 0 ∧ s.rstc.level = 1 ∧ (s.role pt).role ≠ .fenced ∧ s.partMode
      (ptPart pt) ≠ .reset) ∧
    (∃ (s : State), s.stageRuns 7 = true ∧ s.brup.arg ≠ 1 ∧ s.rstc.level = 0 ∧ s.rstc.healthOk = false) ∧
    (∃ (s : State), s.stageRuns 7 = true ∧ s.brup.arg = 2 ∧ s.rstc.level = 2 ∧ s.brup.stages.getD 7 .notRun ≠ .notRun) ∧
    (∃ (s : State), s.stageRuns 6 = true ∧ s.brup.restart = false ∧ s.flash.yieldOk = true ∧ s.rstc.mapped = false) ∧
    (∃ (s : State), s.stageRuns 6 = true ∧ s.brup.restart = true) ∧
    (∃ (s : State) (trained : List (BitVec 16)) (p : Part), s.stageRuns 5 = true ∧ s.brup.restart = false ∧ trained.getD p.val 0 ≠
      0xFFFF ∧ s.relx.retState = .none ∧ s.healx.retireWait = none ∧ s.top.ready = false) ∧
    (∃ (s : State), s.stageRuns 5 = true ∧ s.brup.restart = true) ∧
    (∃ (s : State) (x : Nat × Instr) (a b : Bool) (ws : List (BitVec 16)) (op : Option Part) (fs : List (Pt × BitVec 4)) (es : List
      Word), x ∈ [(0, Instr.stageBu0 a), (1, .stageBu1 a), (2, .stageBu2 a), (3, .stageBu3 a), (4, .stageBu4 a b), (5, .stageBu5
      ws), (6, .stageBu6 op), (7, .stageBu7 ⟨fs, es⟩), (8, .stageBu8), (9, .stageBu9 a)] ∧ s.stageRuns x.1 = false) ∧
    (∃ (s : State), s.stageRuns 8 = true ∧ (∀ e ∈ s.fabs, e.2.enable = true → e.2.state = .up ∨ (e.2.state = .down ∧ e.2.downAt +
      23437500 ≤ s.ticks))) ∧
    (∃ (s : State), s.stageRuns 9 = true ∧ s.brup.restart = false ∧ (s.fret.state = .member ∨ s.fret.root = true)) ∧
    (∃ (s : State), s.stageRuns 9 = true ∧ s.brup.restart = false ∧ s.fret.state ≠ .member ∧ s.fret.root = false) ∧
    (∃ (s : State), (∃ e ∈ s.fabs, e.2.enable = true ∧ e.2.state ≠ .up ∧ (e.2.state = .down → s.ticks < e.2.downAt + 23437500))) ∧
    (∃ (s : State), s.stageRuns 9 = true ∧ s.brup.restart = true) :=
  ⟨⟨State.reset, by decide +kernel⟩,
    ⟨(sg 1 id).modSec (fun x => { x with lc := .final }), by decide +kernel⟩,
    ⟨(sg 1 id).modFlash (fun f => { f with config := none }), by decide +kernel⟩,
    ⟨sg 1 id, by decide +kernel⟩,
    ⟨sg 2 id, by decide +kernel⟩,
    ⟨sg 3 id, by decide +kernel⟩,
    ⟨sg 4 id, by decide +kernel⟩,
    ⟨sg 4 id, by decide +kernel⟩,
    ⟨sg 5 id, by decide +kernel⟩,
    ⟨sg 6 id, by decide +kernel⟩,
    ⟨(sg 6 id).modFlash fun f => { f with yieldOk := false }, by decide +kernel⟩,
    ⟨(sg 6 id).modRstc fun r => { r with mapped := true }, by decide +kernel⟩,
    ⟨(sg 7 id).modRstc fun r => { r with level := 1 }, by decide +kernel⟩,
    ⟨(sg 7 id).modRstc (fun r => { r with level := 1 }), 7, by decide +kernel⟩,
    ⟨(sg 7 id), by decide +kernel⟩,
    ⟨(sg 7 fun b => { b with arg := 2 }).modRstc fun r => { r with level := 2 }, by decide +kernel⟩,
    ⟨sg 6 id, by decide +kernel⟩,
    ⟨sg 6 fun b => { b with restart := true }, by decide +kernel⟩,
    ⟨sg 5 id, [], 15, by decide +kernel⟩,
    ⟨sg 5 (fun b => { b with restart := true }), by decide +kernel⟩,
    ⟨up, (3, .stageBu3 true), true, true, [], none, [], [], by decide +kernel⟩,
    ⟨sg 8 id, by decide +kernel⟩,
    ⟨sg 9 id, by decide +kernel⟩,
    ⟨(sg 9 id).modFret fun f => { f with state := .free }, by decide +kernel⟩,
    ⟨{ ((sg 8 id).updFab 2 fun f => { f with enable := true, downAt := 7 }) with ticks := 23437506 }, by decide +kernel⟩,
    ⟨sg 9 fun b => { b with restart := true }, by decide +kernel⟩⟩

def gv (f : GovSt → GovSt) : State := up.modGov f

def mm (n : Nat) : Measured := ⟨n, n + 5, 70, 71, 60, 3, [1, 2], true⟩

/-- The hypotheses of the clauses of `Obligations.GovernorAndClampsAct` can be met. -/
theorem test_witness_GovernorAndClampsAct :
    (∃ (s : State), s.pwr.req.toNat ≤ 32 ∧ s.gov.hold ≤ 32) ∧
    (∃ (s : State) (temp : BitVec 8), 108 ≤ temp.toNat ∧ s.gov.thermW = false) ∧
    (∃ (temp : BitVec 8), temp.toNat < 108) ∧
    (∃ (s : State), s.gov.thermE = true) ∧
    (∃ (s : State) (mean : Nat), 105 * s.fuse.grade.limit < mean * 100 ∧ s.gov.powerClamp = false) ∧
    (∃ (s : State) (mean : Nat), mean ≤ s.fuse.grade.limit ∧ s.gov.powerClamp = true) ∧
    (∃ (s : State) (acc : Accessor), s.mayWrite acc = true ∧ s.passed 0 = true) ∧
    (∃ (s : State) (p : HostPort), s.holdsToken p = false ∧ s.passed 0 = true) ∧
    (∃ (s : State) (temp : BitVec 8), 108 ≤ temp.toNat ∧ s.gov.thermE = false) ∧
    (∃ (s : State), s.gov.thermW = true) ∧
    (∃ (s : State) (mean : Nat), (mean * 100 ≤ 105 * s.fuse.grade.limit ∨ s.gov.powerClamp = true)) ∧
    (∃ (s : State) (mean : Nat), (s.fuse.grade.limit < mean ∨ s.gov.powerClamp = false)) :=
  ⟨⟨(gv fun g => { g with thermW := true, hold := 32 }).modPwr (fun p => { p with req := 32 }), by decide +kernel⟩,
    ⟨up, 108, by decide +kernel⟩,
    ⟨107, by decide +kernel⟩,
    ⟨gv fun g => { g with thermE := true, thermW := true }, by decide +kernel⟩,
    ⟨up, 100000, by decide +kernel⟩,
    ⟨gv (fun g => { g with powerClamp := true, thermW := true }), 0, by decide +kernel⟩,
    ⟨up, .mc, by decide +kernel⟩,
    ⟨up, .a, by decide +kernel⟩,
    ⟨up, 108, by decide +kernel⟩,
    ⟨gv fun g => { g with thermE := true, thermW := true }, by decide +kernel⟩,
    ⟨gv (fun g => { g with powerClamp := true }), 100000, by decide +kernel⟩,
    ⟨gv (fun g => { g with powerClamp := true }), 100000, by decide +kernel⟩⟩

def pk37 (f : PwrSt → PwrSt) : State := (up.modPwr fun p => f { p with allow := 0xFFFF, domains := 0xFFFFFF }).updPart 1 fun q =>
  { q with hbm := .active, trained := 0xFFFF }

def pg (g : Peg) : State := (up.modFlash fun f => { f with pegs := [g] }).modPwr fun p => { p with mean := 60000 }

/-- The hypotheses of the clauses of `Obligations.PartitionsParkAndPegsRetune` can be met. -/
theorem test_witness_PartitionsParkAndPegsRetune :
    (∃ (s : State) (p : Part) (idleMs : Nat), s.mayPark p = true ∧ s.tasksIn p = [] ∧ (max 1 s.pwr.parkIdle.toNat ≤ idleMs ∨
      s.pwr.overBudget = true)) ∧
    (∃ (s : State) (p : Part), s.mayPark p = false) ∧
    (∃ (s : State) (acc : Accessor) (p : Part) (v : Word), s.mayWrite acc = true ∧ s.passed 0 = true ∧ (v.setWidth 16 : BitVec 16) =
      BitVec.twoPow 16 p ∧ s.mayPark p = true) ∧
    (∃ (s : State) (p : Part), bit s.gov.parking p = true) ∧
    (∃ (s : State) (acc : Accessor) (p : Part) (v : Word), s.mayWrite acc = true ∧ s.passed 0 = true ∧ (v.setWidth 16 : BitVec 16) =
      BitVec.twoPow 16 p ∧ s.parked p = true) ∧
    (∃ (s : State) (acc : Accessor), s.mayWrite acc = true ∧ s.passed 0 = true ∧ s.pwr.parked = 0) ∧
    (∃ (s : State) (p : Part), s.waking p = true) ∧
    (∃ (s : State) (n : Nat) (g : Peg), s.flash.pegs[n]? = some g ∧ (g.retune = true ∨ (g.final = false ∧ s.loadClass = 2)) ∧
      s.anyTask = false ∧ g.kind ≠ 1) ∧
    (∃ (s : State) (acc : Accessor), s.mayWrite acc = true ∧ s.passed 0 = true) ∧
    (∃ (s : State) (p : Part) (idleMs : Nat), (s.tasksIn p ≠ [] ∨ (idleMs < max 1 s.pwr.parkIdle.toNat ∧ s.pwr.overBudget = false))) ∧
    (∃ (s : State) (acc : Accessor) (p : Part) (v : Word), s.mayWrite acc = true ∧ s.passed 0 = true ∧ (v.setWidth 16 : BitVec 16) =
      BitVec.twoPow 16 p ∧ s.mayPark p = false) ∧
    (∃ (s : State) (acc : Accessor), s.mayWrite acc = false ∧ s.passed 0 = true) ∧
    (∃ (s : State) (p : Part), bit s.gov.parking p = false) ∧
    (∃ (s : State) (p : Part), s.waking p = false) ∧
    (∃ (s : State) (p : Part) (pt : Pt), s.waking p = true ∧ ptPart pt = p.val ∧ (s.role pt).role ≠ .fenced ∧ s.partMode p ≠ .reset) ∧
    (∃ (s : State) (n : Nat), s.flash.pegs.length ≤ n) ∧
    (∃ (s : State) (n : Nat) (g : Peg), s.flash.pegs[n]? = some g ∧ ((g.retune = false ∧ (g.final = true ∨ s.loadClass ≠ 2)) ∨
      (g.kind ≠ 1 ∧ s.anyTask = true) ∨ (g.kind = 1 ∧ (s.tasksIn (g.index / 16) ≠ [] ∨ s.memoryInUse (g.index / 16) = true)))) :=
  ⟨⟨pk37 (fun p => { p with overBudget := true }), 1, 0, by decide +kernel⟩,
    ⟨up, 1, by decide +kernel⟩,
    ⟨pk37 id, .mc, 1, 2, by decide +kernel⟩,
    ⟨(pk37 id).modGov (fun g => { g with parking := 2 }), 1, by decide +kernel⟩,
    ⟨pk37 (fun p => { p with parked := 2, domains := 0xFF000D }), .mc, 1, 2, by decide +kernel⟩,
    ⟨up, .mc, by decide +kernel⟩,
    ⟨pk37 (fun p => { p with waking := 2 }), 1, by decide +kernel⟩,
    ⟨pg { kind := 0, index := 4, final := true, retune := true }, 0, { kind := 0, index := 4, final := true, retune := true },
      by decide +kernel⟩,
    ⟨pg { kind := 0, index := 4 }, .mc, by decide +kernel⟩,
    ⟨pk37 id, 1, 99, by decide +kernel⟩,
    ⟨up, .mc, 1, 2, by decide +kernel⟩,
    ⟨up, .portA, by decide +kernel⟩,
    ⟨up, 1, by decide +kernel⟩,
    ⟨up, 1, by decide +kernel⟩,
    ⟨pk37 (fun p => { p with waking := 2 }), 1, 150, by decide +kernel⟩,
    ⟨up, 0, by decide +kernel⟩,
    ⟨(pg { kind := 0, index := 4 }).updTask 5 (fun t => { t with phase := .armed }), 0, { kind := 0, index := 4 },
      by decide +kernel⟩⟩

def rq (id : Nat) (c : ReqClass) (w : Bool) (d : Nat) : HbmReq :=
  { id := id, pc := 4, addr := 1024, write := w, data := List.replicate 256 5, cls := c, deadline := d, arrived := 0, who := .scrub }

def hp (l : List HbmReq) : State := ((up.updPart 0 fun p => { p with hbm := .active, trained := 0xFFFF, queue := l }).modFret fun f
  => { f with west := 300 }).modClk fun c => { c with mhz := 1500, west := 1500, east := 1500 }

/-- The hypotheses of the clauses of `Obligations.ControllersChooseByDeadline` can be met. -/
theorem test_witness_ControllersChooseByDeadline :
    (∃ (s : State) (p pc : Nat) (u : HbmReq) (us : List HbmReq), s.schedOrder p pc = [] ∧ (((s.part p).queue.filter fun r => decide
      (r.pc = pc) && decide (r.cls = .unscheduled)) = u :: us)) ∧
    (∃ (s : State) (p pc : Nat), s.schedOrder p pc = [] ∧ (((s.part p).queue.filter fun r => decide (r.pc = pc) && decide (r.cls =
      .unscheduled)) = [])) ∧
    (∃ (s : State) (p pc cycle : Nat) (h : HbmReq) (q : List HbmReq), s.schedOrder p pc = h :: q ∧ s.endangered p cycle 0 (h :: q) =
      true) ∧
    (∃ (s : State) (p pc cycle : Nat) (h : HbmReq) (q : List HbmReq), s.schedOrder p pc = h :: q ∧ s.endangered p cycle 0 (h :: q) =
      false ∧ (∀ r ∈ (s.part p).queue, r.pc = pc → r.cls = .unscheduled → s.now < r.arrived + 256)) ∧
    (∃ (s : State) (p pc cycle : Nat) (hits : List Nat) (r : HbmReq), s.schedOrder p pc ≠ [] ∧ (s.arbitrate p pc cycle hits).1 =
      some r) :=
  ⟨⟨hp [rq 1 .unscheduled false 0, rq 2 .speculative false 0], 0, 4, rq 1 .unscheduled false 0, [], by decide +kernel⟩,
    ⟨hp [], 0, 4, by decide +kernel⟩,
    ⟨hp [rq 1 .scheduled false 300, rq 2 .unscheduled false 0], 0, 4, 31, rq 1 .scheduled false 300, [], by decide +kernel⟩,
    ⟨hp [rq 1 .scheduled false 2000, { rq 2 .unscheduled false 0 with arrived := 45 }], 0, 4, 3, rq 1 .scheduled false 2000, [],
      by decide +kernel⟩,
    ⟨hp [rq 1 .scheduled false 2000, rq 2 .unscheduled false 0, rq 3 .speculative false 0], 0, 4, 3, [3], rq 2 .unscheduled false 0,
      by decide +kernel⟩⟩

def rs39 (w : Bool) : HbmReq := { rq 9 .scheduled w 0 with who := .drawer 0 1 0 }

def fly39 (w : Bool) (f : CtxSt → CtxSt) : State := (cs rd f 20).updPart 0 fun p => { p with hbm := .active, started := [rs39 w] }

/-- The hypotheses of the clauses of `Obligations.ControllersServeRequests` can be met. -/
theorem test_witness_ControllersServeRequests :
    (∃ (s : State) (p : Part), s.hbmUp p = false) ∧
    (∃ (s : State) (p : Part) (pc : Fin 32) (cycle : Nat) (hits : List Nat), s.arbitrate p pc cycle hits = (none, false)) ∧
    (∃ (s : State) (p : Part) (pc : Fin 32) (cycle : Nat) (hits : List Nat) (r : HbmReq), s.hbmUp p = true ∧ s.arbitrate p pc cycle
      hits = (some r, false) ∧ r.write = true ∧ r.wrong = []) ∧
    (∃ (s : State) (p : Part) (pc : Fin 32) (cycle : Nat) (hits : List Nat) (r : HbmReq), s.hbmUp p = true ∧ s.arbitrate p pc cycle
      hits = (some r, false) ∧ r.write = false) ∧
    (∃ (s : State) (p : Part) (pc : Fin 32) (cycle : Nat) (hits : List Nat) (r : HbmReq), s.hbmUp p = true ∧ s.arbitrate p pc cycle
      hits = (some r, false) ∧ r.write = false) ∧
    (∃ (s : State) (p : Part) (pc : Fin 32) (cycle : Nat) (hits : List Nat) (r : HbmReq), s.hbmUp p = true ∧ s.arbitrate p pc cycle
      hits = (some r, true) ∧ r.write = true ∧ r.wrong = []) ∧
    (∃ (s : State) (p : Part), s.hbmUp p = true) ∧
    (∃ (s : State) (p : Part) (req : Nat) (r : HbmReq) (key k j : Nat) (u : StreamUse) (d : DrawerRt), (((s.part p).started.find?
      fun r => decide (r.id = req) && !r.write) = some r) ∧ r.who = .drawer key k j ∧ (s.ctx key).use? = some u ∧ (s.ctx
      key).drawer? k = some d ∧ (s.ctx key).state = .active ∧ s.tileInReset (s.ptOf (useLt key u)) = false) ∧
    (∃ (s : State) (p : Part) (req : Nat), (((s.part p).started.find? fun r => decide (r.id = req) && !r.write) = none)) ∧
    (∃ (s : State) (p : Part) (req : Nat) (r : HbmReq) (key k j : Nat), (((s.part p).started.find? fun r => decide (r.id = req) &&
      r.write) = some r) ∧ r.who = .drawer key k j ∧ (∀ d ∈ (s.ctx key).drawers, d.k = k → d.due = true ∧ d.want ≤ d.acked + 1)) ∧
    (∃ (s : State) (p : Part) (req : Nat), (((s.part p).started.find? fun r => decide (r.id = req) && r.write) = none)) ∧
    (∃ (s : State) (p : Part), (s.part p).hbm = .active) ∧
    (∃ (s : State) (p : Part), (s.part p).hbm ≠ .active) ∧
    (∃ (s : State) (p : Part) (sector : Nat), s.hbmUp p = true ∧ (s.part p).scrubH ≠ 0 ∧ sector * 32 < 0x900000000 ∧ (s.part
      p).backlog = []) ∧
    (∃ (s : State) (p : Part) (sector : Nat), (s.hbmUp p = false ∨ (s.part p).scrubH = 0 ∨ 0x900000000 ≤ sector * 32)) :=
  ⟨⟨up.setPartMode 0 .reset, 0, by decide +kernel⟩,
    ⟨hp [], 0, 4, 3, [], by decide +kernel⟩,
    ⟨hp [{ rq 1 .unscheduled true 0 with off := 32, data := [1, 2] }], 0, 4, 3, [],
      { rq 1 .unscheduled true 0 with off := 32, data := [1, 2] }, by decide +kernel⟩,
    ⟨hp [rq 1 .unscheduled false 0], 0, 4, 3, [], rq 1 .unscheduled false 0, by decide +kernel⟩,
    ⟨hp [rq 1 .unscheduled false 0], 0, 4, 3, [], rq 1 .unscheduled false 0, by decide +kernel⟩,
    ⟨hp [rq 1 .scheduled true 300], 0, 4, 31, [], rq 1 .scheduled true 300, by decide +kernel⟩,
    ⟨hp [], 0, by decide +kernel⟩,
    ⟨fly39 false fun y => { y with outstanding := 1, drawers := [{ k := 1, want := 2, issued := 2, due := true }] }, 0, 9, rs39
      false, 0, 1, 0, rd, { k := 1, want := 2, issued := 2, due := true }, by decide +kernel⟩,
    ⟨up, 0, 9, by decide +kernel⟩,
    ⟨fly39 true fun y => { y with outstanding := 1, drawers := [{ k := 1, want := 2, issued := 2, acked := 1, due := true }] }, 0,
      9, rs39 true, 0, 1, 0, by decide +kernel⟩,
    ⟨up, 0, 9, by decide +kernel⟩,
    ⟨hp [], 0, by decide +kernel⟩,
    ⟨up, 0, by decide +kernel⟩,
    ⟨hp [], 0, 0x900000000 / 32 - 1, by decide +kernel⟩,
    ⟨hp [], 0, 0x900000000 / 32, by decide +kernel⟩⟩

def lcs (l : LifeCycle) (f : SecSt → SecSt) : State := (up.modTop fun t => { t with owner := .a }).modSec fun x => f
  { x with lc := l }

def key40 : List Word := 0x29000000 :: List.replicate 16 7

/-- The hypotheses of the clauses of `Obligations.LifeCycleAndKeysMove` can be met. -/
theorem test_witness_LifeCycleAndKeysMove :
    (∃ (s : State) (p : HostPort) (v : Word) (x : LifeCycle), s.holdsToken p = true ∧ s.passed 1 = true ∧ v.extractLsb' 16 16 =
      (0x4C43 : BitVec 16) ∧ (s.sec.lc = .test ∨ s.sec.lc = .provision) ∧ s.sec.lcPending = none ∧ s.transition (v.extractLsb' 0 3 :
      BitVec 3).toNat = some x) ∧
    (∃ (s : State) (p : HostPort) (v : Word), s.holdsToken p = true ∧ s.passed 1 = true ∧ v.extractLsb' 16 16 = (0x4C43 : BitVec 16)
      ∧ (s.sec.lc = .test ∨ s.sec.lc = .provision) ∧ s.transition (v.extractLsb' 0 3 : BitVec 3).toNat = none) ∧
    (∃ (s : State) (p : HostPort) (v : Word), s.holdsToken p = true ∧ s.passed 1 = true ∧ (v.extractLsb' 16 16 ≠ (0x4C43 : BitVec
      16) ∨ s.sec.lc = .field ∨ s.sec.lc = .ret)) ∧
    (∃ (s : State) (src : BitVec 4) (n : Nat), s.sec.lcPending = some (n, src) ∧ n < 4 ∧ s.resetLevel = none) ∧
    (∃ (s : State) (src : BitVec 4), s.sec.lcPending = some (4, src) ∧ s.resetLevel = none) ∧
    (∃ (s : State) (p : HostPort), s.holdsToken p = true ∧ s.passed 1 = true ∧ s.sec.lc = .provision ∧ s.ids.state = .none) ∧
    (∃ (s : State) (p : HostPort), s.holdsToken p = true ∧ s.passed 1 = true ∧ (s.sec.lc ≠ .provision ∨ s.ids.state ≠ .none)) ∧
    (∃ (s : State), s.ids.state = .generating) ∧
    (∃ (s : State) (p : HostPort) (v : Word) (c : BitVec 3), s.holdsToken p = true ∧ s.passed 1 = true ∧ s.sec.lc = .provision ∧
      (opkSet (BitVec.ofNat 544 (leVal (s.sec.staged.flatMap fun x => leBytes 4 x.toNat))) = some c) ∧ bit v 28 = false) ∧
    (∃ (s : State) (p : HostPort) (v : Word), s.holdsToken p = true ∧ s.passed 1 = true ∧ s.sec.lc = .provision ∧ bit v 28 = false) ∧
    (∃ (s : State) (p : HostPort), s.holdsToken p = true ∧ s.passed 1 = true ∧ (s.sec.lc = .test ∨ s.sec.lc = .field ∨ s.sec.lc =
      .ret ∨ s.sec.lc = .final)) ∧
    (∃ (s : State), s.sec.lcPending = none) ∧
    (∃ (s : State) (p : HostPort) (v : Word), s.holdsToken p = true ∧ s.passed 1 = true ∧ v.extractLsb' 16 16 = (0x4C43 : BitVec 16)
      ∧ (s.sec.lc = .final ∨ ((s.sec.lc = .test ∨ s.sec.lc = .provision) ∧ s.sec.lcPending.isSome = true))) ∧
    (∃ (s : State), s.ids.state ≠ .generating) ∧
    (∃ (s : State) (p : HostPort), s.holdsToken p = true ∧ s.passed 1 = true ∧ (opkSet (BitVec.ofNat 544 (leVal
      (s.sec.staged.flatMap fun x => leBytes 4 x.toNat))) = none)) ∧
    (∃ (s : State) (p : HostPort), s.holdsToken p = false ∧ s.passed 1 = true) ∧
    (∃ (s : State), s.passed 1 = true) :=
  ⟨⟨lcs .provision id, .a, 0x4C430004, .final, by decide +kernel⟩,
    ⟨lcs .provision id, .a, 0x4C430002, by decide +kernel⟩,
    ⟨lcs .field id, .a, 0x4C430003, by decide +kernel⟩,
    ⟨lcs .field fun x => { x with lcPending := some (3, 7) }, 7, 3, by decide +kernel⟩,
    ⟨lcs .ret fun x => { x with lcPending := some (4, 9) }, 9, by decide +kernel⟩,
    ⟨lcs .provision id, .a, by decide +kernel⟩,
    ⟨lcs .field id, .a, by decide +kernel⟩,
    ⟨(lcs .provision id).modIds (fun i => { i with state := .generating }), by decide +kernel⟩,
    ⟨lcs .provision fun x => { x with staged := key40 }, .a, 0x40000000, 1, by decide +kernel⟩,
    ⟨lcs .provision fun x => { x with cache := [(0, (1, 0, 0))] }, .a, 0x80000000, by decide +kernel⟩,
    ⟨lcs .final id, .a, by decide +kernel⟩,
    ⟨up, by decide +kernel⟩,
    ⟨lcs .test fun x => { x with lcPending := some (1, 9) }, .a, 0x4C430001, by decide +kernel⟩,
    ⟨up, by decide +kernel⟩,
    ⟨lcs .provision id, .a, by decide +kernel⟩,
    ⟨up, .b, by decide +kernel⟩,
    ⟨up, by decide +kernel⟩⟩

def kk : BitVec 256 × BitVec 256 × BitVec 256 := (1, 2, 3)

def si (f : IdSt → IdSt) : State := up.modIds fun i => f { i with state := .ready, seeds := some kk, blocks := 5 }

/-- The hypotheses of the clauses of `Obligations.SignaturesUseLeavesInOrder` can be met. -/
theorem test_witness_SignaturesUseLeavesInOrder :
    (∃ (s : State), s.ids.state = .ready ∧ s.ids.queue.length < 16) ∧
    (∃ (s : State), s.ids.state = .ready ∧ s.ids.queue = [] ∧ s.ids.held = false ∧ s.ids.ctrStop = false ∧ s.ids.blocks.toNat < 2 ^
      28 ∧ s.flash.ctrOk = true) ∧
    (∃ (s : State), s.ids.state = .ready ∧ s.ids.queue = [] ∧ s.ids.held = false ∧ s.ids.ctrStop = false ∧ s.ids.blocks.toNat < 2 ^
      28 ∧ s.flash.ctrOk = false) ∧
    (∃ (s : State) (msg : List Byte) (q : List SignFor) (k : BitVec 256 × BitVec 256 × BitVec 256), s.ids.queue = .plain msg :: q ∧
      s.ids.held = true ∧ s.ids.seeds = some k ∧ s.ids.leaf.toNat % 4096 ≠ 4095) ∧
    (∃ (s : State) (port : MgmtPort) (msg : List Byte) (q : List SignFor) (k : BitVec 256 × BitVec 256 × BitVec 256), s.ids.queue =
      .reply port msg :: q ∧ s.ids.held = true ∧ s.ids.seeds = some k) ∧
    (∃ (s : State) (msg : List Byte), s.ids.queue = [.plain msg] ∧ s.ids.held = false) ∧
    (∃ (s : State) (acc : Accessor), s.mayWrite acc = true ∧ s.passed 1 = true ∧ s.sec.quoteBusy = false ∧ s.ids.state = .ready ∧
      s.ids.queue.length < 16 ∧ s.canSign = true) ∧
    (∃ (s : State) (acc : Accessor), s.mayWrite acc = true ∧ s.passed 1 = true ∧ s.sec.quoteBusy = false ∧ s.ids.state ≠ .ready) ∧
    (∃ (s : State) (acc : Accessor), s.mayWrite acc = true ∧ s.passed 1 = true ∧ s.sec.quoteBusy = false ∧ s.ids.state = .ready ∧
      s.ids.queue.length < 16 ∧ s.canSign = false) ∧
    (∃ (s : State) (nonce : List Byte) (seq : BitVec 32) (q : List SignFor) (k : BitVec 256 × BitVec 256 × BitVec 256), s.ids.queue
      = .quote none nonce seq :: q ∧ s.ids.held = true ∧ s.ids.seeds = some k) ∧
    (∃ (s : State) (nonce : List Byte) (seq : BitVec 32), s.ids.queue = [.quote none nonce seq] ∧ s.ids.held = false) ∧
    (∃ (s : State), (s.ids.state ≠ .ready ∨ 16 ≤ s.ids.queue.length)) ∧
    (∃ (s : State) (msg : List Byte) (k : BitVec 256 × BitVec 256 × BitVec 256), s.ids.queue = [.plain msg] ∧ s.ids.held = true ∧
      s.ids.seeds = some k ∧ s.ids.leaf.toNat % 4096 = 4095) ∧
    (∃ (s : State) (port : MgmtPort) (hdr nonce : List Byte) (seq : BitVec 32) (q : List SignFor) (k : BitVec 256 × BitVec 256 ×
      BitVec 256), s.ids.queue = .quote (some (port, hdr)) nonce seq :: q ∧ s.ids.held = true ∧ s.ids.seeds = some k) ∧
    (∃ (s : State), s.ids.queue = []) ∧
    (∃ (s : State) (nonce : List Byte) (seq : BitVec 32) (q : List SignFor), s.ids.queue = .quote none nonce seq :: q) ∧
    (∃ (s : State) (msg : List Byte) (q : List SignFor), s.ids.queue = .plain msg :: q) ∧
    (∃ (s : State) (acc : Accessor), s.mayWrite acc = true ∧ s.passed 1 = true ∧ s.sec.quoteBusy = true) ∧
    (∃ (s : State) (acc : Accessor), s.mayWrite acc = true ∧ s.passed 1 = true ∧ s.sec.quoteBusy = false ∧ s.ids.state = .ready ∧ 16
      ≤ s.ids.queue.length) ∧
    (∃ (s : State) (acc : Accessor), s.mayWrite acc = false ∧ s.passed 1 = true) :=
  ⟨⟨si fun i => { i with queue := List.replicate 15 (.plain [9]), held := true }, by decide +kernel⟩,
    ⟨si id, by decide +kernel⟩,
    ⟨(si id).modFlash (fun f => { f with ctrOk := false }), by decide +kernel⟩,
    ⟨si (fun i => { i with queue := [.plain [4]], held := true, leaf := 4094 }), [4], [], kk, by decide +kernel⟩,
    ⟨si (fun i => { i with queue := [.reply .m1 [4], .plain [5]], held := true, leaf := 4095 }), .m1, [4], [.plain [5]], kk,
      by decide +kernel⟩,
    ⟨si (fun i => { i with queue := [.plain [4]] }), [4], by decide +kernel⟩,
    ⟨si id, .mc, by decide +kernel⟩,
    ⟨up, .mc, by decide +kernel⟩,
    ⟨si (fun i => { i with ctrStop := true }), .mc, by decide +kernel⟩,
    ⟨si (fun i => { i with queue := [.quote none [1] 4, .plain [2]], held := true, leaf := 4095 }), [1], 4, [.plain [2]], kk,
      by decide +kernel⟩,
    ⟨(si fun i => { i with queue := [.quote none [1] 4] }).modSec (fun x => { x with quoteBusy := true }), [1], 4,
      by decide +kernel⟩,
    ⟨si (fun i => { i with queue := List.replicate 16 (.plain [9]) }), by decide +kernel⟩,
    ⟨si (fun i => { i with queue := [.plain [4]], held := true, leaf := 8191 }), [4], kk, by decide +kernel⟩,
    ⟨si (fun i => { i with queue := [.quote (some (.m0, [9])) [1] 4], held := true }), .m0, [9], [1], 4, [], kk, by decide +kernel⟩,
    ⟨up, by decide +kernel⟩,
    ⟨si (fun i => { i with queue := [.quote none [1] 4], held := true }), [1], 4, [], by decide +kernel⟩,
    ⟨si (fun i => { i with queue := [.plain [1]], held := true }), [1], [], by decide +kernel⟩,
    ⟨up.modSec (fun x => { x with quoteBusy := true }), .mc, by decide +kernel⟩,
    ⟨si (fun i => { i with queue := List.replicate 16 (.plain [9]) }), .mc, by decide +kernel⟩,
    ⟨up, .portA, by decide +kernel⟩⟩

def sn (l : LifeCycle) (c : ScanState) : State := (up.modRstc fun r => { r with sysrstLow := true }).modSec fun x =>
  { x with lc := l, scan := c }

/-- The hypotheses of the clauses of `Obligations.TapInstructionsAndScan` can be met. -/
theorem test_witness_TapInstructionsAndScan :
    (∃ (s : State), s.sec.lc ≠ .final) ∧
    (∃ (s : State), s.sec.lc ≠ .final) ∧
    (∃ (s : State), s.sec.lc ≠ .final) ∧
    (∃ (op : BitVec 8), jtagNamed op = false) ∧
    (∃ (op : BitVec 8), (op.toNat ≤ 6 ∨ op = 0x40 ∨ op = 0x41)) ∧
    (∃ (s : State), s.sec.lc = .final) ∧
    (∃ (s : State), s.rstc.sysrstLow = true ∧ s.sec.scan = .closed ∧ s.sec.lc = .test) ∧
    (∃ (s : State), s.rstc.sysrstLow = true ∧ s.sec.scan = .closed ∧ s.sec.lc = .ret) ∧
    (∃ (s : State), (s.rstc.sysrstLow = false ∨ s.sec.scan ≠ .closed ∨ s.sec.lc = .field ∨ s.sec.lc = .provision ∨ s.sec.lc =
      .final)) ∧
    (∃ (s : State), s.rstc.sysrstLow = true ∧ s.sec.scan = .closed ∧ s.sec.lc = .field ∧ s.fuse.eb1Off = false) ∧
    (∃ (s : State), (s.rstc.sysrstLow = false ∨ s.sec.scan ≠ .closed ∨ s.fuse.eb1Off = true ∨ s.sec.lc ≠ .field)) ∧
    (∃ (s : State), s.sec.scan = .clearing) ∧
    (∃ (s : State), s.sec.scan ≠ .clearing) :=
  ⟨⟨up, by decide +kernel⟩,
    ⟨up, by decide +kernel⟩,
    ⟨up, by decide +kernel⟩,
    ⟨0x07, by decide +kernel⟩,
    ⟨0x41, by decide +kernel⟩,
    ⟨sn .final .closed, by decide +kernel⟩,
    ⟨sn .test .closed, by decide +kernel⟩,
    ⟨sn .ret .closed, by decide +kernel⟩,
    ⟨up, by decide +kernel⟩,
    ⟨sn .field .closed, by decide +kernel⟩,
    ⟨sn .test .closed, by decide +kernel⟩,
    ⟨sn .field .clearing, by decide +kernel⟩,
    ⟨up, by decide +kernel⟩⟩

def wt (f : BistSt → BistSt) : State := (up.modBist f).updPart 0 fun p => { p with hbm := .active }

def rl : State := (up.updRole 5 fun r => { r with age := some 3 }).updRole 300 fun r => { r with age := some 3 }

/-- The hypotheses of the clauses of `Obligations.WindowTestsSweepMemory` can be met. -/
theorem test_witness_WindowTestsSweepMemory :
    (∃ (s : State) (p : Part) (pc : Fin 32), s.mayTest p = true ∧ s.bist.testing.contains (pcKey p pc) = false) ∧
    (∃ (s : State) (p : Part), s.mayTest p = false) ∧
    (∃ (s : State) (p : Part) (pc : Fin 32), s.bist.testing.contains (pcKey p pc) = true ∧ Tab.get 0 s.bist.next (pcKey p pc) <
      73727) ∧
    (∃ (s : State) (p : Part) (pc : Fin 32), s.bist.testing.contains (pcKey p pc) = true ∧ Tab.get 0 s.bist.next (pcKey p pc) =
      73727) ∧
    (∃ (s : State) (p : Part) (pc : Fin 32), s.bist.testing.contains (pcKey p pc) = true) ∧
    (∃ (s : State) (p : Part) (pc : Fin 32), s.bist.testing.contains (pcKey p pc) = true ∧ s.chest.intake.length < 64 ∧ (s.trig
      Trigger.hbm.id).enable = true) ∧
    (∃ (s : State) (p : Part) (pc : Fin 32), s.bist.testing.contains (pcKey p pc) = false) :=
  ⟨⟨wt id, 0, 31, by decide +kernel⟩,
    ⟨up, 0, by decide +kernel⟩,
    ⟨wt (fun b => { b with testing := [31], next := [(31, 73726)] }), 0, 31, by decide +kernel⟩,
    ⟨wt (fun b => { b with testing := [31], next := [(31, 73727)] }), 0, 31, by decide +kernel⟩,
    ⟨wt (fun b => { b with testing := [31], next := [(31, 73727)] }), 0, 31, by decide +kernel⟩,
    ⟨wt (fun b => { b with testing := [31] }), 0, 31, by decide +kernel⟩,
    ⟨wt id, 0, 31, by decide +kernel⟩⟩

def sd (n : BitVec 3) : State := up.modBist fun b => { b with state := 1, phase := n }

/-- The hypotheses of the clauses of `Obligations.ShutdownTestRunsItsPhases` can be met. -/
theorem test_witness_ShutdownTestRunsItsPhases :
    (∃ (s : State) (acc : Accessor), s.mayWrite acc = true ∧ s.passed 1 = true ∧ s.bist.state = 0 ∧ s.mayShut = true ∧ s.pwr.parked
      = 0) ∧
    (∃ (s : State) (acc : Accessor), s.mayWrite acc = true ∧ s.passed 1 = true ∧ s.bist.state = 0 ∧ s.mayShut = false) ∧
    (∃ (s : State), s.bist.state = 1 ∧ s.bist.phase.toNat ≤ 2 ∧ s.pwr.waking = 0) ∧
    (∃ (s : State), s.bist.state = 1 ∧ s.bist.phase = 3) ∧
    (∃ (s : State), s.bist.state = 1 ∧ s.bist.phase = 4 ∧ s.chest.copying = none) ∧
    (∃ (s : State), (s.bist.state ≠ 1 ∨ s.bist.phase ≠ 3)) ∧
    (∃ (s : State), (s.bist.state ≠ 1 ∨ s.bist.phase ≠ 4 ∨ s.chest.copying.isSome = true)) ∧
    (∃ (s : State), (s.bist.state ≠ 1 ∨ 2 < s.bist.phase.toNat ∨ s.pwr.waking ≠ 0)) ∧
    (∃ (s : State) (acc : Accessor) (v : Word), s.mayWrite acc = true ∧ s.passed 1 = true ∧ v.extractLsb' 30 2 = (1 : BitVec 2) ∧
      s.bist.state = 0 ∧ s.mayShut = true) ∧
    (∃ (s : State) (acc : Accessor), s.mayWrite acc = true ∧ s.passed 1 = true ∧ s.bist.state ≠ 0) ∧
    (∃ (s : State) (acc : Accessor), s.mayWrite acc = false ∧ s.passed 1 = true) ∧
    (∃ (s : State), s.passed 1 = false) :=
  ⟨⟨up, .mc, by decide +kernel⟩,
    ⟨up.modRelx (fun x => { x with retState := .draining }), .mc, by decide +kernel⟩,
    ⟨sd 2, by decide +kernel⟩,
    ⟨sd 3, by decide +kernel⟩,
    ⟨sd 4, by decide +kernel⟩,
    ⟨sd 4, by decide +kernel⟩,
    ⟨(sd 4).modChest fun c => { c with copying := some (3, 1) }, by decide +kernel⟩,
    ⟨(sd 1).modPwr (fun p => { p with waking := 2 }), by decide +kernel⟩,
    ⟨up.modPwr (fun p => { p with parked := 2 }), .mc, 0x40010005, by decide +kernel⟩,
    ⟨sd 1, .mc, by decide +kernel⟩,
    ⟨up, .portA, by decide +kernel⟩,
    ⟨State.reset, by decide +kernel⟩⟩

def cr (e f : Bool) : ChestRec := ⟨9, f, e, [1, 2], 0, [0x50004], none⟩

def ch (f : ChestSt → ChestSt) : State := up.modChest f

/-- The hypotheses of the clauses of `Obligations.ChestPlacesAndCopies` can be met. -/
theorem test_witness_ChestPlacesAndCopies :
    (∃ (s : State) (pre post : List ChestRec) (r : ChestRec), s.passed 0 = true ∧ s.chest.intake = pre ++ r :: post ∧ (∀ x ∈ pre,
      x.east ≠ s.nextHalf.1) ∧ r.east = s.nextHalf.1 ∧ r.fatal = false) ∧
    (∃ (r : ChestRec) (k i off : Nat), r.cut = some k ∧ r.offs[i]? = some off) ∧
    (∃ (r : ChestRec) (i off : Nat), r.cut = none ∧ r.offs[i]? = some off) ∧
    (∃ (s : State) (pre post : List ChestRec) (r : ChestRec), s.passed 0 = true ∧ s.chest.intake = pre ++ r :: post ∧ (∀ x ∈ pre,
      x.east ≠ s.nextHalf.1) ∧ r.east = s.nextHalf.1 ∧ r.fatal = true) ∧
    (∃ (s : State) (e : Bool), s.chest.intake ≠ [] ∧ (∀ x ∈ s.chest.intake, x.east = e)) ∧
    (∃ (s : State), (s.passed 0 = false ∨ s.chest.intake = [])) ∧
    (∃ (reason : BitVec 8), (reason.toNat = 0 ∨ 4 < reason.toNat)) ∧
    (∃ (s : State), s.chest.copying = none) ∧
    (∃ (s : State) (reason m : BitVec 8) (slot : Nat), s.chest.copying = some (reason, slot) ∧ s.chest.marked = some m) ∧
    (∃ (s : State) (reason : BitVec 8), 1 ≤ reason.toNat ∧ reason.toNat ≤ 4 ∧ s.chest.copying = none) ∧
    (∃ (s : State) (reason : BitVec 8), 1 ≤ reason.toNat ∧ reason.toNat ≤ 4 ∧ s.chest.copying.isSome = true) ∧
    (∃ (s : State) (reason : BitVec 8) (slot : Nat), s.chest.copying = some (reason, slot) ∧ s.chest.marked = none ∧ s.gov.thermtrip
      = false) ∧
    (∃ (s : State) (c : BitVec 8 × Nat), s.chest.copying = some c ∧ s.chest.marked = none ∧ s.gov.thermtrip = true ∧ s.rstc.inReset
      ≠ some .por) :=
  ⟨⟨ch (fun c => { c with intake := [cr false false, cr false true], closed := true }), [], [cr false true], cr false false,
      by decide +kernel⟩,
    ⟨{ cr false false with offs := [0x50004, 0x50008], cut := some 1 }, 1, 0, 0x50004, by decide +kernel⟩,
    ⟨cr false false, 0, 0x50004, by decide +kernel⟩,
    ⟨ch (fun c => { c with intake := [cr true true, cr true false] }), [], [cr true false], cr true true, by decide +kernel⟩,
    ⟨ch (fun c => { c with intake := [cr true true, cr true true] }), true, by decide +kernel⟩,
    ⟨up, by decide +kernel⟩,
    ⟨5, by decide +kernel⟩,
    ⟨up, by decide +kernel⟩,
    ⟨ch (fun c => { c with copying := some (3, 1), marked := some 2 }), 3, 2, 1, by decide +kernel⟩,
    ⟨up, 4, by decide +kernel⟩,
    ⟨ch (fun c => { c with copying := some (3, 1), marked := some 4 }), 2, by decide +kernel⟩,
    ⟨ch (fun c => { c with copying := some (3, 1) }), 3, 1, by decide +kernel⟩,
    ⟨(ch fun c => { c with copying := some (3, 1) }).modGov (fun g => { g with thermtrip := true }), (3, 1), by decide +kernel⟩⟩

def tl (f : TelSt → TelSt) : State := (up.modTel fun t => f { t with enable := true, exp := 16, conn := 3 }).updConn 3 fun c =>
  { c with srcKind := 3, srcEp := 1, state := .opened, nak := true }

/-- The hypotheses of the clauses of `Obligations.TelemetryReportsAndSends` can be met. -/
theorem test_witness_TelemetryReportsAndSends :
    (∃ (s : State), s.tel.enable = true ∧ s.now % 2 ^ s.telExp = 0) ∧
    (∃ (s : State), (s.tel.enable = false ∨ s.now % 2 ^ s.telExp ≠ 0)) ∧
    (∃ (s : State), (s.conn s.tel.conn.toNat).srcKind = 3 ∧ (s.conn s.tel.conn.toNat).state = .opened ∧ (s.conn
      s.tel.conn.toNat).nak = true) ∧
    (∃ (s : State), ((s.conn s.tel.conn.toNat).srcKind ≠ 3 ∨ (s.conn s.tel.conn.toNat).state ≠ .opened ∨ (s.conn
      s.tel.conn.toNat).nak = false)) :=
  ⟨⟨(tl id).modFret fun f => { f with west := 0x30000 }, by decide +kernel⟩,
    ⟨up, by decide +kernel⟩,
    ⟨tl fun t => { t with unsent := [(0, [1]), (1, [2])] }, by decide +kernel⟩,
    ⟨(tl fun t => { t with unsent := [(0, [1]), (1, [2])] }).updConn 3 fun c => { c with state := .closed }, by decide +kernel⟩⟩

/-- The hypotheses of the clauses of `Obligations.StepRunsTheFrontCommand` can be met. -/
theorem test_witness_StepRunsTheFrontCommand :
    ∃ (s : State), s.pending = [] :=
  ⟨up, by decide +kernel⟩

def wr50 : State := { up with pending := [.hbmScrub 0 8] }

/-- The hypotheses of the clauses of `Obligations.StepKeepsMemoryWellFormed` can be met. -/
theorem test_witness_StepKeepsMemoryWellFormed :
    ∃ (s t : State), s.memForm = true ∧ step s = .next t :=
  ⟨wr50, nextOf (step wr50), by decide +kernel, step_next (by decide +kernel)⟩

def lc52 : State := up.modSec fun x => { x with lcPending := some (1, 9) }

/-- The hypotheses of the clauses of `Obligations.FusesAndTapMoveByTheirOwnCommands` can be met. -/
theorem test_witness_FusesAndTapMoveByTheirOwnCommands :
    (∃ (c : Instr) (s t : State), exec c s = .next t) ∧
    (∃ (c : Instr) (s t : State), exec c s = .next t ∧ c ≠ .lcFuseWriteDone ∧ (∀ x, c ≠ .idGenerateDone x) ∧ (∀ x, c ≠ .stageBu9 x)) ∧
    (∃ (c : Instr) (s t : State), exec c s = .next t ∧ t.tap ≠ s.tap) :=
  ⟨⟨.lcFuseWriteDone, lc52, nextOf (exec .lcFuseWriteDone lc52), exec_next (by decide +kernel)⟩,
    ⟨.stageBu0 true, up, nextOf (exec (.stageBu0 true) up), exec_next (by decide +kernel), by decide +kernel, (fun _ h => nomatch
      h), (fun _ h => nomatch h)⟩,
    ⟨.jtagClamp, up, nextOf (exec .jtagClamp up), exec_next (by decide +kernel), by decide +kernel⟩⟩

def fin53 : State := (up.modSec fun x => { x with lc := .final }).modFuse fun f => { f with lc := .final, secret := some 5 }

/-- The hypotheses of the clauses of `Obligations.EndIsFinal` can be met. -/
theorem test_witness_EndIsFinal :
    ∃ (c : Instr) (s t : State), s.fuse.lc = .final ∧ s.sec.lc = .final ∧ s.sec.lcPending = none ∧ s.ids.state ≠ .generating ∧ exec
      c s = .next t :=
  ⟨.por, fin53, nextOf (exec .por fin53), by decide +kernel, by decide +kernel, by decide +kernel, by decide +kernel, exec_next
    (by decide +kernel)⟩

def eb54 : State := (up.modRstc fun r => { r with sysrstLow := true }).modFlash fun f => { f with marks := 7 }

def bu54 : State := (up.modBrup fun b => { b with stages := [Stage.passed, .running] ++ List.replicate 8 .notRun }).modFlash fun f
  => { f with marks := 7 }

/-- The hypotheses of the clauses of `Obligations.FieldScanMarksStay` can be met. -/
theorem test_witness_FieldScanMarksStay :
    (∃ (s t : State), s.sec.lc = .field ∧ s.sec.scan = .closed ∧ exec .eb1Unlock s = .next t ∧ t.sec.scan ≠ .closed) ∧
    (∃ (c : Instr) (s t : State), s.flash.marks ≤ 0xFFFF ∧ exec c s = .next t) ∧
    (∃ (s t : State), exec (.stageBu1 true) s = .next t ∧ s.passed 1 = false ∧ t.passed 1 = true ∧ s.flash.marks ≤ 0xFFFF) :=
  ⟨⟨eb54, nextOf (exec .eb1Unlock eb54), by decide +kernel, by decide +kernel, exec_next (by decide +kernel), by decide +kernel⟩,
    ⟨.eb1Unlock, eb54, nextOf (exec .eb1Unlock eb54), by decide +kernel, exec_next (by decide +kernel)⟩,
    ⟨bu54, nextOf (exec (.stageBu1 true) bu54), exec_next (by decide +kernel), by decide +kernel, by decide +kernel,
      by decide +kernel⟩⟩

def sc55 : State := (up.modRstc fun r => { r with sysrstLow := true, inReset := some .system }).modSec fun x =>
  { x with scan := .opened }

/-- The hypotheses of the clauses of `Obligations.OpenScanEndsOnlyAtPor` can be met. -/
theorem test_witness_OpenScanEndsOnlyAtPor :
    (∃ (c : Instr) (s t : State), s.sec.scan = .opened ∧ exec c s = .next t) ∧
    (∃ (s t : State), s.sec.scan = .opened ∧ s.rstc.inReset = some .system ∧ exec .sysrstNRelease s = .next t) :=
  ⟨⟨.resetRelease, sc55, nextOf (exec .resetRelease sc55), by decide +kernel, exec_next (by decide +kernel)⟩,
    ⟨sc55, nextOf (exec .sysrstNRelease sc55), by decide +kernel, by decide +kernel, exec_next (by decide +kernel)⟩⟩

def lf56 : State := up.modIds fun i => { i with state := .ready, blocks := 5 }

/-- The hypotheses of the clauses of `Obligations.LeafCounterNeverFalls` can be met. -/
theorem test_witness_LeafCounterNeverFalls :
    (∃ (c : Instr) (s t : State), exec c s = .next t) ∧
    (∃ (c : Instr) (s t : State), s.ids.held = false ∧ exec c s = .next t ∧ t.ids.held = true) :=
  ⟨⟨.signRequest [1], lf56, nextOf (exec (.signRequest [1]) lf56), exec_next (by decide +kernel)⟩,
    ⟨.signRequest [1], lf56, nextOf (exec (.signRequest [1]) lf56), by decide +kernel, exec_next (by decide +kernel),
      by decide +kernel⟩⟩

def mp57 (f : RstcSt → RstcSt) : State := (up.modRstc fun r => f { r with mapped := true, wdogArmed := true }).updClus 3 fun c =>
  { c with remap := [17] }

def b6 (f : RstcSt → RstcSt) : State := (mp57 f).modBrup fun b =>
  { b with stages := List.replicate 6 Stage.passed ++ [.running, .notRun, .notRun, .notRun] }

def or57 : State := mp57 fun r => { r with orderly := some ⟨.system, 3, 5, 0, false⟩ }

def y57 : State := (b6 fun r => { r with mapped := false }).modFlash fun f => { f with yieldMap := [(3, 2)] }

/-- The hypotheses of the clauses of `Obligations.RemapTablesOutliveResets` can be met. -/
theorem test_witness_RemapTablesOutliveResets :
    (∃ (s t : State), s.rstc.inReset ≠ some .por ∧ exec .sysrstNAssert s = .next t) ∧
    (∃ (s t : State), exec .mcWatchdogExpire s = .next t) ∧
    (∃ (s t : State), exec .orderlyResetAssert s = .next t ∧ (∀ o, s.rstc.orderly = some o → o.level ≠ .por)) ∧
    (∃ (s t : State) (acc : Accessor) (v : Word), exec (.blkMaintenanceReset acc v) s = .next t) ∧
    (∃ (s t : State) (acc : Accessor) (v : Word), exec (.blkRecoveryReset acc v) s = .next t) ∧
    (∃ (s t : State) (b : Option Part), s.rstc.mapped = true ∧ exec (.stageBu6 b) s = .next t) ∧
    (∃ (s t : State) (l : BitVec 2) (n : Nat), exec (.blkResetDone l n) s = .next t) ∧
    (∃ (s t : State) (p : Part) (us : BitVec 16), exec (.prrResetDone p us) s = .next t) ∧
    (∃ (s t : State) (x y : Word), exec (.mcLockstepFail x y) s = .next t) ∧
    (∃ (c : Instr) (s t : State), exec c s = .next t ∧ s.rstc.mapped = true) ∧
    (∃ (s t : State), s.rstc.inReset ≠ some .por ∧ exec .por s = .next t) ∧
    (∃ (s : State) (k : Nat), k < 128 ∧ s.stageRuns 6 = true ∧ s.brup.restart = false ∧ s.rstc.mapped = false ∧ s.flash.yieldOk =
      true ∧ s.badIdx k ≠ []) :=
  ⟨⟨mp57 id, nextOf (exec .sysrstNAssert (mp57 id)), by decide +kernel, exec_next (by decide +kernel)⟩,
    ⟨mp57 id, nextOf (exec .mcWatchdogExpire (mp57 id)), exec_next (by decide +kernel)⟩,
    ⟨or57, nextOf (exec .orderlyResetAssert or57), exec_next (by decide +kernel), by decide +kernel⟩,
    ⟨mp57 id, nextOf (exec (.blkMaintenanceReset .mc 0x50000003) (mp57 id)), .mc, 0x50000003, exec_next (by decide +kernel)⟩,
    ⟨mp57 id, nextOf (exec (.blkRecoveryReset .mc 0x90000003) (mp57 id)), .mc, 0x90000003, exec_next (by decide +kernel)⟩,
    ⟨b6 id, nextOf (exec (.stageBu6 none) (b6 id)), none, by decide +kernel, exec_next (by decide +kernel)⟩,
    ⟨mp57 id, nextOf (exec (.blkResetDone 1 3) (mp57 id)), 1, 3, exec_next (by decide +kernel)⟩,
    ⟨(mp57 id).setPartMode 0 .reset, nextOf (exec (.prrResetDone 0 4) ((mp57 id).setPartMode 0 .reset)), 0, 4, exec_next
      (by decide +kernel)⟩,
    ⟨mp57 id, nextOf (exec (.mcLockstepFail 1 2) (mp57 id)), 1, 2, exec_next (by decide +kernel)⟩,
    ⟨.sysrstNAssert, mp57 id, nextOf (exec .sysrstNAssert (mp57 id)), exec_next (by decide +kernel), by decide +kernel⟩,
    ⟨mp57 id, nextOf (exec .por (mp57 id)), by decide +kernel, exec_next (by decide +kernel)⟩,
    ⟨y57, 3, by decide +kernel⟩⟩

/-- The hypotheses of the clauses of `Obligations.UnassignedOffsetsReadZero` can be met. -/
theorem test_witness_UnassignedOffsetsReadZero :
    (∃ (off len : Nat), (len ≠ 4 ∨ off % 4 ≠ 0)) ∧
    (∃ (off : Nat), off % 4 ≠ 0) ∧
    (∃ (off : Nat), off % 4 = 0 ∧ (blockOf off = none ∨ ∃ b o, blockOf off = some (b, o) ∧ blockHas b o = false)) :=
  ⟨⟨0x50011, 4, by decide +kernel⟩,
    ⟨0x50011, by decide +kernel⟩,
    ⟨0x5FFFC, by decide +kernel, by first | exact .inl (by decide +kernel) | exact .inr ⟨_, _, rfl, by decide +kernel⟩⟩⟩

def tg : TopkCfg := ⟨0, 1, 0, .unsigned, true⟩

/-- The hypotheses of the clauses of `Obligations.TopkDependsOnlyOnTheSet` can be met. -/
theorem test_witness_TopkDependsOnlyOnTheSet :
    ∃ (xs ys : List Cand), xs.Perm ys :=
  ⟨[⟨5, 1, 0⟩, ⟨3, 2, 0⟩, ⟨5, 0, 0⟩], [⟨3, 2, 0⟩, ⟨5, 0, 0⟩, ⟨5, 1, 0⟩], by decide +kernel⟩

/-- The hypotheses of the clauses of `Obligations.BlockResultsFollowTheProducts` can be met. -/
theorem test_witness_BlockResultsFollowTheProducts :
    (∃ (sa sb : Nat), (sa = 0xFF ∨ sb = 0xFF)) ∧
    (∃ (fa fb : Fmt) (as bs : List Nat) (x : Nat × Nat), x ∈ as.zip bs ∧ (decodeNum fa x.1 = .nan ∨ decodeNum fb x.2 = .nan)) ∧
    (∃ (fa fb : Fmt) (as bs : List Nat) (x : Nat × Nat), x ∈ as.zip bs ∧ (∃ p q e, (decodeNum fa x.1 = .inf p ∧ decodeNum fb x.2 =
      .fin q 0 e) ∨ (decodeNum fa x.1 = .fin q 0 e ∧ decodeNum fb x.2 = .inf p))) ∧
    (∃ (fa fb : Fmt) (as bs : List Nat) (x y : Nat × Nat), x ∈ as.zip bs ∧ y ∈ as.zip bs ∧ mulNum (decodeNum fa x.1) (decodeNum fb
      x.2) = .inf true ∧ mulNum (decodeNum fa y.1) (decodeNum fb y.2) = .inf false) ∧
    (∃ (fa fb : Fmt) (sa sb : Nat) (as bs : List Nat) (x : Nat × Nat) (neg : Bool), x ∈ as.zip bs ∧ sa ≠ 0xFF ∧ sb ≠ 0xFF ∧ mulNum
      (decodeNum fa x.1) (decodeNum fb x.2) = .inf neg ∧ (∀ y ∈ as.zip bs, mulNum (decodeNum fa y.1) (decodeNum fb y.2) ≠ .nan ∧
      mulNum (decodeNum fa y.1) (decodeNum fb y.2) ≠ .inf (!neg))) ∧
    (∃ (fa fb : Fmt) (sa sb : Nat) (as bs : List Nat), sa ≠ 0xFF ∧ sb ≠ 0xFF ∧ (∀ y ∈ as.zip bs, ∃ p e, mulNum (decodeNum fa y.1)
      (decodeNum fb y.2) = .fin p 0 e)) :=
  ⟨⟨0xFF, 0, by decide +kernel⟩,
    ⟨.e4m3, .e4m3, [0x7F], [0], (0x7F, 0), by decide +kernel⟩,
    ⟨.e5m2, .e5m2, [0x7C], [0], (0x7C, 0), by decide +kernel, ⟨false, false, _, .inl ⟨by decide +kernel, rfl⟩⟩⟩,
    ⟨.e5m2, .e5m2, [0x7C, 0xFC], [0x3C, 0x3C], (0xFC, 0x3C), (0x7C, 0x3C), by decide +kernel⟩,
    ⟨.e5m2, .e5m2, 5, 6, [0xFC, 0], [0x3C, 0x3C], (0xFC, 0x3C), true, by decide +kernel⟩,
    ⟨.e4m3, .e4m3, 5, 6, [0, 0x80], [0x38, 0x38], by decide +kernel, by decide +kernel, zeros60⟩⟩

end Sys2Proof.Tests
end

section
/-!
PROOFS. BAR0 accesses that name no register (00 R8; 01 R46). A block reads 0 at every offset where `blockHas` places no register,
and no such offset is the LO of a pair or CHEST_OLD; so an access that finds no register returns 0, latches nothing and writes nothing.
-/

namespace Sys2Proof.Machine

/-! ## A block reads 0 where it has no register -/

section Blocks

variable {x : Sel} {s : State} {off o : Nat} {b : Block}

/-- SEC: the spans of R689 are left one by one, then the listed offsets. -/
theorem secRead_unassigned (h : blockHas .sec o = false) : secRead x s o = 0 := by
  simp [blockHas] at h
  simp only [secRead]
  rw [if_neg (by omega), if_neg (by omega)]
  split
  · rfl
  · iterate 6 rw [if_neg (by omega)]
    split <;> simp at h ⊢

theorem spnRead_unassigned {half : Half} (h : blockHas (.spn half) o = false) : spnRead x s half o = 0 := by
  simp [blockHas] at h
  simp only [spnRead]
  iterate 4 rw [if_neg (by omega)]
  split <;> simp at h ⊢

theorem tileRead_unassigned {pt : Nat} (h : tileHas o = false) : tileRead s pt o = 0 := by
  simp only [tileRead]
  split <;> simp [tileHas] at h ⊢
  intros; omega

/-- CLUS: in the upper half the offset lies in a tile window (17 R745), and below it at none of the cluster's own registers. -/
theorem clusRead_unassigned {c : Nat} (h : blockHas (.clus c) o = false) : clusRead x s c o = 0 := by
  simp only [blockHas, Bool.or_eq_false_iff] at h
  obtain ⟨hown, htile⟩ := h
  simp only [clusRead]
  by_cases hw : 0x8000 ≤ o
  · have ht : tileHas ((o - 0x8000) % 0x800) = false := by simpa [hw] using htile
    rw [if_pos hw]
    split
    · rw [tileRead_unassigned ht, ite_self]
    · rfl
  · simp at hown
    rw [if_neg hw, if_neg (by omega)]
    split <;> simp at hown ⊢

/-- BRUP and CHEST end at 64 KiB with an aperture (12 R620; 16 R727); every other block's registers are bounded by themselves. -/
theorem blockRead_unassigned (hlt : b = .brup ∨ b = .chest → o < 0x10000) (h : blockHas b o = false) : blockRead x s b o = 0 := by
  cases b
  case sec => rw [blockRead, secRead_unassigned h]
  case spn => rw [blockRead, spnRead_unassigned h]
  case clus => rw [blockRead, clusRead_unassigned h]
  -- the remaining blocks answer at listed offsets,
  case top | rstc | clk | bist | heal | mch | pcie | fab | part =>
    simp only [blockRead, topRead, rstcRead, clkRead, bistRead, healRead, mchRead, pcieRead, fabRead, partRead]
    split <;> simp [blockHas] at h ⊢
  -- at listed offsets and in one span,
  case brup | pwr | fret =>
    simp only [blockRead, brupRead, pwrRead, fretRead]
    split <;> simp [blockHas] at h hlt ⊢
    intros; omega
  -- or at listed offsets and in two spans
  case rel | chest | mgt =>
    simp only [blockRead, relRead, chestRead, mgtRead]
    split <;> simp [blockHas] at h hlt ⊢
    rw [if_neg (by omega), if_neg (by omega)]

/-- The LO registers of R754 are registers. -/
theorem pairLo_unassigned (h : blockHas b o = false) : pairLo b o = false := by
  cases b <;> simp [blockHas, pairLo] at h ⊢ <;> omega

/-- CHEST_OLD (16 R728) is a register. -/
theorem not_chestOld_of_unassigned (h : blockHas b o = false) : ¬ (b = .chest ∧ o = 0x00C) := by
  rintro ⟨rfl, rfl⟩
  cases h

/-- BRUP and CHEST take 64 KiB of BAR0 each (01 R45). -/
theorem blockOf_lt (h : blockOf off = some (b, o)) (hb : b = .brup ∨ b = .chest) : o < 0x10000 := by
  unfold blockOf at h
  split at h
  · dsimp only at h
    split at h <;> cases h <;> omega
  · split_ifs at h <;> cases h <;> simp at hb

end Blocks

/-! ## An access that finds no register -/

/-- No register is at a BAR0 offset: it is not aligned, in no block, or where its block has none (00 R8; 01 R46). -/
def Unassigned (off : Nat) : Prop :=
  off % 4 ≠ 0 ∨ blockOf off = none ∨ ∃ b o, blockOf off = some (b, o) ∧ blockHas b o = false

section Accesses

variable {s : State} {acc : Accessor} {off : Nat}

theorem bar0Value_unassigned {x : Sel} (h : Unassigned off) : bar0Value x s off = 0 := by
  unfold bar0Value
  split
  · rfl
  · obtain hmis | hnone | ⟨b, o, hb, hh⟩ := h
    · contradiction
    · rw [hnone]
    · rw [hb]
      simp only [blockRead_unassigned (blockOf_lt hb) hh, ite_self]

theorem bar0Read_unassigned (h : Unassigned off) : s.bar0Read acc off = (0, s) := by
  have hv := bar0Value_unassigned (s := s) (x := s.selOf acc) h
  unfold State.bar0Read
  obtain hmis | hnone | ⟨b, o, hb, hh⟩ := h
  · simp [hmis, hv]
  · simp [hnone, hv]
  · by_cases h4 : off % 4 = 0
    · simp [h4, hb, hv, pairLo_unassigned hh, not_chestOld_of_unassigned hh]
    · simp [h4, hv]

theorem accWrite_unassigned (h : Unassigned off) (v : Word) : s.accWrite acc off v = s := by
  unfold State.accWrite State.bar0Write
  split
  · rfl
  · obtain hmis | hnone | ⟨b, o, hb, hh⟩ := h
    · contradiction
    · rw [hnone]
    · rw [hb]
      simp [hh]

/-! ## The commands -/

theorem exec_registerWrite_narrow {len : Nat} (h : len ≠ 4) (v : Word) : exec (.registerWrite acc off len v) s = .next s :=
  if_neg h

theorem exec_registerWrite_unassigned (h : Unassigned off) (len : Nat) (v : Word) :
    exec (.registerWrite acc off len v) s = .next s := by
  show execRegisterWrite acc off len v s = _
  rw [execRegisterWrite, accWrite_unassigned h, ite_self]

theorem exec_counterLoRead_unassigned (h : Unassigned off) :
    exec (.counterLoRead acc off) s = .next { s with out := .data acc [0] :: s.out } := by
  show execCounterLoRead acc off s = _
  rw [execCounterLoRead, bar0Read_unassigned h]
  rfl

/-- A multi-word read of one word, with all its byte enables: one 32-bit read. -/
theorem exec_readOneWord_unassigned (h : Unassigned off) :
    exec (.bar0MultiwordAccess acc off (.read [true])) s = .next { s with out := .data acc [0] :: s.out } := by
  show execBar0MultiwordAccess acc off (.read [true]) s = _
  simp only [execBar0MultiwordAccess]
  split
  · rfl
  · simp only [List.zipIdx_cons, List.zipIdx_nil, List.foldl_cons, List.foldl_nil, readWord, if_true, Nat.mul_zero, Nat.add_zero,
      bar0Read_unassigned h]
    rfl

/-- A multi-word read of one word that lacks a byte enable reads 0, at whatever offset (00 R8, R781). -/
theorem exec_readNarrowWord :
    exec (.bar0MultiwordAccess acc off (.read [false])) s = .next { s with out := .data acc [0] :: s.out } := by
  show execBar0MultiwordAccess acc off (.read [false]) s = _
  simp only [execBar0MultiwordAccess]
  split <;> rfl

end Accesses

/-- Settles O58: an access that is narrow or finds no register reads 0 and changes nothing but the output. -/
theorem unassignedOffsetsReadZero : Obligations.UnassignedOffsetsReadZero := by
  refine ⟨?_, ?_, ?_, ?_, ?_⟩
  · rintro s acc off len v (hlen | hmis)
    · exact exec_registerWrite_narrow hlen v
    · exact exec_registerWrite_unassigned (.inl hmis) len v
  · exact fun s acc off hmis => exec_readOneWord_unassigned (.inl hmis)
  · exact fun s acc off hmis => exec_counterLoRead_unassigned (.inl hmis)
  · exact fun s acc off => exec_readNarrowWord
  · exact fun s acc off _ hnone =>
      ⟨exec_readOneWord_unassigned (.inr hnone), exec_registerWrite_unassigned (.inr hnone) 4⟩

end Sys2Proof.Machine
end

section
/-!
PROOFS. The streaming top-k unit (02 R94 to R98). `candBetter` is the strict order of a rank that two candidates of one group share
only when they are the same candidate. So insertions into a group commute, and a group's list does not depend on the order of arrival.
-/

namespace Sys2Proof.Machine

/-! ## Keys as extended reals -/

/-- The extended real an exact value stands for; NaN, which no order places, is put at 0. -/
noncomputable def Num.toEReal : Num → EReal
  | .nan => 0
  | .inf neg => if neg then ⊥ else ⊤
  | .fin neg m e => (((if neg then -(m : ℝ) else m) * 2 ^ e : ℝ) : EReal)

/-- A significand rescaled to a smaller weight stands for the same real. -/
theorem scaled_mul_zpow {e w : Int} (h : w ≤ e) (neg : Bool) (m : Nat) :
    (scaled neg m e w : ℝ) * 2 ^ w = (if neg then -(m : ℝ) else m) * 2 ^ e := by
  have hpow : (2 : ℝ) ^ e = 2 ^ (e - w).toNat * 2 ^ w := by
    rw [← zpow_natCast, ← zpow_add₀ two_ne_zero]
    congr 1
    omega
  rw [hpow, ← mul_assoc]
  cases neg <;> simp [scaled]

/-- `numLt` is the order of the extended reals. -/
theorem numLt_iff {x y : Num} (hx : x ≠ .nan) (hy : y ≠ .nan) : numLt x y = true ↔ x.toEReal < y.toEReal := by
  cases x with
  | nan => contradiction
  | inf a =>
    cases y with
    | nan => contradiction
    | inf b => cases a <;> cases b <;> simp [numLt, Num.toEReal]
    | fin n m e => cases a <;> simp [numLt, Num.toEReal, EReal.bot_lt_coe]
  | fin n₁ m₁ e₁ =>
    cases y with
    | nan => contradiction
    | inf b => cases b <;> simp [numLt, Num.toEReal, EReal.coe_lt_top]
    | fin n₂ m₂ e₂ =>
      have hpos : (0 : ℝ) < 2 ^ min e₁ e₂ := by positivity
      rw [Num.toEReal, Num.toEReal, EReal.coe_lt_coe_iff, ← scaled_mul_zpow (min_le_left e₁ e₂),
        ← scaled_mul_zpow (min_le_right e₁ e₂), mul_lt_mul_iff_left₀ hpos, Int.cast_lt]
      exact decide_eq_true_iff

/-- `numEq` is equality of the extended reals. -/
theorem numEq_iff {x y : Num} (hx : x ≠ .nan) (hy : y ≠ .nan) : numEq x y = true ↔ x.toEReal = y.toEReal := by
  have hnum : numEq x y = (!numLt x y && !numLt y x) := by
    unfold numEq
    split
    · contradiction
    · contradiction
    · rfl
  rw [hnum, Bool.and_eq_true, Bool.not_eq_true', Bool.not_eq_true', ← Bool.not_eq_true, ← Bool.not_eq_true, numLt_iff hx hy,
    numLt_iff hy hx, not_lt, not_lt, and_comm, ← le_antisymm_iff]

/-- The value a key is compared by (02 R96). -/
noncomputable def keyValue (k : KeyKind) (x : BitVec 32) : EReal :=
  match k with
  | .unsigned => ((x.toNat : ℝ) : EReal)
  | .signed => ((x.toInt : ℝ) : EReal)
  | .fp32 => (dec32 x).toEReal

/-- A key that is an FP32 NaN: it ranks below every number (02 R96). -/
def keyNan (k : KeyKind) (x : BitVec 32) : Bool := decide (k = .fp32) && isNan32 x

/-- Keys of one value compare equal. -/
theorem keyLess_eq_none {k : KeyKind} {x y : BitVec 32} (hx : keyNan k x = false) (hy : keyNan k y = false)
    (h : keyValue k x = keyValue k y) : keyLess k x y = none := by
  cases k with
  | unsigned => simpa [keyLess, keyValue, BitVec.toNat_inj] using h
  | signed => simpa [keyLess, keyValue, BitVec.toInt_inj] using h
  | fp32 =>
    simp only [keyNan, isNan32, decide_true, Bool.true_and, decide_eq_false_iff_not] at hx hy
    exact if_pos ((numEq_iff hx hy).2 h)

/-- Keys of different values compare as their values do. -/
theorem keyLess_eq_some {k : KeyKind} {x y : BitVec 32} (hx : keyNan k x = false) (hy : keyNan k y = false)
    (h : keyValue k x ≠ keyValue k y) : keyLess k x y = some (decide (keyValue k x < keyValue k y)) := by
  cases k with
  | unsigned => simpa [keyLess, keyValue, BitVec.toNat_inj] using h
  | signed => simpa [keyLess, keyValue, BitVec.toInt_inj] using h
  | fp32 =>
    simp only [keyNan, isNan32, decide_true, Bool.true_and, decide_eq_false_iff_not] at hx hy
    rw [keyLess, if_neg (mt (numEq_iff hx hy).1 h), keyValue, keyValue, Option.some_inj, Bool.eq_iff_iff, numLt_iff hx hy,
      decide_eq_true_iff]

/-! ## The rank of a candidate -/

/-- The key's place in the order of a group: its value, negated where the larger key is better. -/
noncomputable def keyRank (g : TopkCfg) (x : BitVec 32) : EReal :=
  if g.smallerBetter then keyValue g.kind x else -keyValue g.kind x

/-- The last place of the order: the key's bits, in the direction of log entry 47. -/
def bitsRank (x : BitVec 32) : Int := if Config.smallBitsFirst then x.toNat else -x.toNat

/-- The rank after the key: the identifier, then the bits (02 R96, R98). -/
def idRank (x : Cand) : ℕ ×ₗ ℤ := toLex (x.id.toNat, bitsRank x.key)

/-- The rank of a candidate, smallest best: numbers before NaNs, then the key, the identifier and the bits (02 R96, R98). A NaN has
no value to be placed by, so the key of every NaN counts as 0. -/
noncomputable def candRank (g : TopkCfg) (x : Cand) : Bool ×ₗ EReal ×ₗ ℕ ×ₗ ℤ :=
  toLex (keyNan g.kind x.key, toLex (if keyNan g.kind x.key then 0 else keyRank g x.key, idRank x))

theorem idBetter_iff (x y : Cand) : idBetter x y = true ↔ idRank x < idRank y := by
  simp only [idBetter, idRank, Prod.Lex.toLex_lt_toLex, BitVec.toNat_inj]
  by_cases hid : x.id = y.id
  · cases hbits : Config.smallBitsFirst <;> simp [hid, bitsRank, hbits]
  · simp [hid]

/-- Of two numbers with different values, the key that the direction of the group prefers ranks better. -/
theorem keyRank_lt_iff {g : TopkCfg} {x y : BitVec 32} (h : keyValue g.kind x ≠ keyValue g.kind y) :
    keyRank g x < keyRank g y ↔
      (if g.smallerBetter then decide (keyValue g.kind x < keyValue g.kind y)
        else !decide (keyValue g.kind x < keyValue g.kind y)) = true := by
  unfold keyRank
  cases g.smallerBetter
  · simp [EReal.neg_lt_neg_iff, h.symm.le_iff_lt]
  · simp

theorem keyRank_eq_iff {g : TopkCfg} {x y : BitVec 32} :
    keyRank g x = keyRank g y ↔ keyValue g.kind x = keyValue g.kind y := by
  unfold keyRank
  split <;> simp

/-- The group's order is the order of the ranks. -/
theorem candBetter_iff (g : TopkCfg) (x y : Cand) : candBetter g x y = true ↔ candRank g x < candRank g y := by
  have hdef : candBetter g x y =
      if keyNan g.kind x.key && keyNan g.kind y.key then idBetter x y
      else if keyNan g.kind x.key then false
      else if keyNan g.kind y.key then true
      else match keyLess g.kind x.key y.key with
        | none => idBetter x y
        | some l => if g.smallerBetter then l else !l := rfl
  rw [hdef, candRank, candRank, Prod.Lex.toLex_lt_toLex, Prod.Lex.toLex_lt_toLex]
  cases hx : keyNan g.kind x.key <;> cases hy : keyNan g.kind y.key
  case false.false =>
    by_cases hv : keyValue g.kind x.key = keyValue g.kind y.key
    · simp [keyLess_eq_none hx hy hv, keyRank_eq_iff.2 hv, idBetter_iff]
    · simp [keyLess_eq_some hx hy hv, keyRank_eq_iff, hv, keyRank_lt_iff hv]
  case true.true => simp [idBetter_iff]
  all_goals simp

/-- Two candidates of one group with one rank are the same candidate. -/
theorem eq_of_candRank_eq {g : TopkCfg} {x y : Cand} (hg : x.group = y.group) (h : candRank g x = candRank g y) : x = y := by
  obtain ⟨hid, hbits⟩ : x.id.toNat = y.id.toNat ∧ bitsRank x.key = bitsRank y.key := by
    simpa [candRank, idRank] using congrArg (fun r => (ofLex (ofLex r).2).2) h
  have hkey : x.key.toNat = y.key.toNat := by
    unfold bitsRank at hbits
    split at hbits <;> omega
  obtain ⟨kx, ix, gx⟩ := x
  obtain ⟨ky, iy, gy⟩ := y
  simp only [Cand.mk.injEq]
  exact ⟨BitVec.eq_of_toNat_eq hkey, BitVec.eq_of_toNat_eq hid, hg⟩

/-! ## Insertions commute -/

/-- A group's list after an arrival. -/
def groupAdd (g : TopkCfg) (l : List Cand) (x : Cand) : List Cand := (candInsert g x l).take (topkDepth g)

/-- A candidate beyond the first k does not come back into them (02 R96). -/
theorem take_candInsert_take (g : TopkCfg) (x : Cand) (l : List Cand) (k : Nat) :
    (candInsert g x (l.take k)).take k = (candInsert g x l).take k := by
  induction l generalizing k with
  | nil => simp
  | cons y l ih =>
    cases k with
    | zero => simp
    | succ k =>
      simp only [List.take_succ_cons, candInsert]
      split
      · simp [ih]
      · cases k <;> simp [List.take_take]

/-- The better of two candidates stands before the other, whichever is inserted first. -/
theorem candInsert_comm_of_lt {g : TopkCfg} {x y : Cand} (h : candRank g x < candRank g y) (l : List Cand) :
    candInsert g x (candInsert g y l) = candInsert g y (candInsert g x l) := by
  have hxy : candBetter g x y = true := (candBetter_iff g x y).2 h
  have hyx : candBetter g y x = false := by
    rw [← Bool.not_eq_true, candBetter_iff]
    exact h.asymm
  induction l with
  | nil => simp [candInsert, hxy, hyx]
  | cons z l ih =>
    cases hzx : candBetter g z x with
    | true =>
      have hzy : candBetter g z y = true := (candBetter_iff g z y).2 (((candBetter_iff g z x).1 hzx).trans h)
      simp [candInsert, hzx, hzy, ih]
    | false => cases hzy : candBetter g z y <;> simp [candInsert, hzx, hzy, hxy, hyx]

/-- The order in which two candidates of one group are inserted does not show. -/
theorem candInsert_comm (g : TopkCfg) {x y : Cand} (hg : x.group = y.group) (l : List Cand) :
    candInsert g x (candInsert g y l) = candInsert g y (candInsert g x l) := by
  rcases lt_trichotomy (candRank g x) (candRank g y) with h | h | h
  · exact candInsert_comm_of_lt h l
  · rw [eq_of_candRank_eq hg h]
  · exact (candInsert_comm_of_lt h l).symm

theorem groupAdd_comm (g : TopkCfg) {x y : Cand} (hg : x.group = y.group) (l : List Cand) :
    groupAdd g (groupAdd g l x) y = groupAdd g (groupAdd g l y) x := by
  simp only [groupAdd, take_candInsert_take, candInsert_comm g hg]

/-! ## Each group sees its own arrivals -/

/-- The candidates of one group, in the order in which the unit holds them. -/
def ofGroup (group : Nat) (cs : List Cand) : List Cand := cs.filter fun c => c.group = group

theorem ofGroup_append (group : Nat) (cs ds : List Cand) : ofGroup group (cs ++ ds) = ofGroup group cs ++ ofGroup group ds :=
  List.filter_append ..

/-- The arrivals that a group keeps: it is one of the unit's groups and they name it (log entry 53). -/
def arrives (g : TopkCfg) (group : Nat) (x : Cand) : Bool := decide (x.group = group) && decide (x.group < topkCount g)

theorem group_of_mem_arrivals {g : TopkCfg} {group : Nat} {xs : List Cand} {x : Cand} (h : x ∈ xs.filter (arrives g group)) :
    x.group = group := by
  obtain ⟨hgroup, -⟩ : x.group = group ∧ x.group < topkCount g := by simpa [arrives] using (List.mem_filter.1 h).2
  exact hgroup

theorem mem_candInsert {g : TopkCfg} {x c : Cand} {l : List Cand} (h : c ∈ candInsert g x l) : c = x ∨ c ∈ l := by
  induction l with
  | nil => simpa [candInsert] using h
  | cons y l ih =>
    rw [candInsert] at h
    split at h
    · rcases List.mem_cons.1 h with rfl | hc
      · simp
      · rcases ih hc with hx | hl <;> simp [*]
    · simpa using h

/-- What a group holds after an arrival is all of the group. -/
theorem group_of_mem_groupAdd {g : TopkCfg} {cs : List Cand} {x c : Cand} (h : c ∈ groupAdd g (ofGroup x.group cs) x) :
    c.group = x.group := by
  rcases mem_candInsert (List.mem_of_mem_take h) with rfl | hc
  · rfl
  · simpa using (List.mem_filter.1 hc).2

theorem ofGroup_groupAdd_self (g : TopkCfg) (cs : List Cand) (x : Cand) :
    ofGroup x.group (groupAdd g (ofGroup x.group cs) x) = groupAdd g (ofGroup x.group cs) x :=
  List.filter_eq_self.2 fun _ hc => decide_eq_true (group_of_mem_groupAdd hc)

theorem ofGroup_groupAdd_of_ne (g : TopkCfg) {group : Nat} (cs : List Cand) {x : Cand} (hx : x.group ≠ group) :
    ofGroup group (groupAdd g (ofGroup x.group cs) x) = [] :=
  List.filter_eq_nil_iff.2 fun _ hc => by simpa [group_of_mem_groupAdd hc] using hx

/-- The candidates of the other groups hold all of another group's and none of the arrival's. -/
theorem ofGroup_others (group : Nat) (cs : List Cand) (x : Cand) :
    ofGroup group (cs.filter fun c => c.group ≠ x.group) = if x.group = group then [] else ofGroup group cs := by
  rw [ofGroup, List.filter_filter]
  split
  · next hx => subst hx; simp
  · next hx =>
    refine List.filter_congr fun c _ => ?_
    by_cases hc : c.group = group <;> simp [hc, Ne.symm hx]

theorem topkAdd_of_lt {g : TopkCfg} {x : Cand} (h : x.group < topkCount g) (cs : List Cand) :
    topkAdd g cs x = cs.filter (fun c => c.group ≠ x.group) ++ groupAdd g (ofGroup x.group cs) x :=
  if_neg (Nat.not_le.2 h)

/-- An arrival changes the list of the group that keeps it and no other. -/
theorem ofGroup_topkAdd (g : TopkCfg) (group : Nat) (cs : List Cand) (x : Cand) :
    ofGroup group (topkAdd g cs x) = if arrives g group x then groupAdd g (ofGroup group cs) x else ofGroup group cs := by
  by_cases hlt : x.group < topkCount g
  case neg => simp [topkAdd, arrives, hlt, Nat.le_of_not_lt hlt]
  rw [topkAdd_of_lt hlt, ofGroup_append, ofGroup_others]
  by_cases hx : x.group = group
  · subst hx
    simp [arrives, hlt, ofGroup_groupAdd_self]
  · simp [arrives, hx, ofGroup_groupAdd_of_ne]

theorem ofGroup_foldl_topkAdd (g : TopkCfg) (group : Nat) (xs cs : List Cand) :
    ofGroup group (xs.foldl (topkAdd g) cs) = (xs.filter (arrives g group)).foldl (groupAdd g) (ofGroup group cs) := by
  rw [List.foldl_filter, ← List.foldl_hom (ofGroup group) (g₁ := topkAdd g)]
  exact fun cs x => (ofGroup_topkAdd g group cs x).symm

/-- What a group emits is read from its own candidates. -/
theorem topkGroup_congr {g : TopkCfg} {group : Nat} {cs ds : List Cand} (h : ofGroup group cs = ofGroup group ds) (lt : Nat) :
    topkGroup g lt group cs = topkGroup g lt group ds := by
  unfold ofGroup at h
  simp only [topkGroup, h]

/-- Settles O59: arrivals of one group commute, so a permutation of the arrivals leaves every group's list as it is. -/
theorem topkDependsOnlyOnTheSet : Obligations.TopkDependsOnlyOnTheSet := by
  intro g lt group xs ys hperm
  apply topkGroup_congr
  rw [ofGroup_foldl_topkAdd, ofGroup_foldl_topkAdd]
  refine (hperm.filter _).foldl_eq' (fun x hx y hy l => groupAdd_comm g ?_ l) _
  rw [group_of_mem_arrivals hx, group_of_mem_arrivals hy]

end Sys2Proof.Machine
end

section
/-!
PROOFS. Block results of the MAC array (02 R67, R68): what a block sums to is read from the products that occur in it.
-/

namespace Sys2Proof.Machine

@[simp] theorem elemProduct_fst (fa fb : Fmt) (a b : Nat) :
    (elemProduct fa fb a b).1 = mulNum (decodeNum fa a) (decodeNum fb b) := by
  simp only [elemProduct]
  split <;> rfl

/-! ## Sums by the products that occur -/

section Sums

variable {n : Nat} {ps : List (Num × Int)} {p q : Num × Int}

theorem blockSum_of_nan (hp : p ∈ ps) (h : p.1 = .nan) : blockSum n ps = .nan :=
  if_pos (List.any_eq_true.2 ⟨p, hp, by simpa using h⟩)

theorem blockSum_of_opposite_infs (hp : p ∈ ps) (hq : q ∈ ps) (hneg : p.1 = .inf true) (hpos : q.1 = .inf false) :
    blockSum n ps = .nan := by
  have hp' : (ps.any fun r => r.1 = .inf true) = true := List.any_eq_true.2 ⟨p, hp, by simpa using hneg⟩
  have hq' : (ps.any fun r => r.1 = .inf false) = true := List.any_eq_true.2 ⟨q, hq, by simpa using hpos⟩
  rw [blockSum, hp', hq']
  simp

theorem blockSum_of_inf {neg : Bool} (hp : p ∈ ps) (hinf : p.1 = .inf neg) (h : ∀ r ∈ ps, r.1 ≠ .nan ∧ r.1 ≠ .inf (!neg)) :
    blockSum n ps = .inf neg := by
  have hnan : (ps.any fun r => r.1 = .nan) = false := List.any_eq_false.2 fun r hr => by simpa using (h r hr).1
  have hsame : (ps.any fun r => r.1 = .inf neg) = true := List.any_eq_true.2 ⟨p, hp, by simpa using hinf⟩
  have hother : (ps.any fun r => r.1 = .inf !neg) = false := List.any_eq_false.2 fun r hr => by simpa using (h r hr).2
  cases neg <;> simp only [Bool.not_true, Bool.not_false] at hother <;> simp [blockSum, hnan, hsame, hother]

/-- No zero product has an exponent that counts (02 R63). -/
theorem maxE_of_zeros (h : ∀ r ∈ ps, ∃ neg e, r.1 = .fin neg 0 e) : maxE ps = none := by
  induction ps with
  | nil => rfl
  | cons r ps ih =>
    obtain ⟨⟨neg, e, hr⟩, hps⟩ := List.forall_mem_cons.1 h
    obtain ⟨x, w⟩ := r
    subst hr
    simp [maxE, ih hps]

theorem blockSum_of_zeros (h : ∀ r ∈ ps, ∃ neg e, r.1 = .fin neg 0 e) : blockSum n ps = .fin false 0 0 := by
  have hany : ∀ y, (∀ neg e, y ≠ Num.fin neg 0 e) → (ps.any fun r => r.1 = y) = false := by
    intro y hy
    refine List.any_eq_false.2 fun r hr => ?_
    obtain ⟨neg, e, hr⟩ := h r hr
    simpa [hr] using (hy neg e).symm
  simp [blockSum, hany, maxE_of_zeros h]

end Sums

/-! ## Results by the sums -/

section Results

variable {fa fb : Fmt} {n sa sb : Nat} {as bs : List Nat}

/-- The exact products of a block (02 R63). -/
def blockProducts (fa fb : Fmt) (as bs : List Nat) : List (Num × Int) := (as.zip bs).map fun x => elemProduct fa fb x.1 x.2

theorem mem_blockProducts {x : Nat × Nat} (hx : x ∈ as.zip bs) : elemProduct fa fb x.1 x.2 ∈ blockProducts fa fb as bs :=
  List.mem_map_of_mem hx

/-- What holds of the product of every pair of elements holds of every product of the block. -/
theorem forall_mem_blockProducts {P : Num → Prop} (h : ∀ y ∈ as.zip bs, P (mulNum (decodeNum fa y.1) (decodeNum fb y.2))) :
    ∀ r ∈ blockProducts fa fb as bs, P r.1 := by
  simpa only [blockProducts, List.forall_mem_map, elemProduct_fst] using h

theorem blockResult_of_scale (h : sa = 0xFF ∨ sb = 0xFF) : blockResult fa fb n sa sb as bs = nan32 :=
  if_pos h

/-- A block's sum scaled and rounded once (02 R66). -/
def scaledSum (sa sb : Nat) : Num → Word
  | .fin neg m e => if m = 0 then 0 else enc32 (.fin neg m (e + sa + sb - 254))
  | x => enc32 x

theorem blockResult_eq (ha : sa ≠ 0xFF) (hb : sb ≠ 0xFF) :
    blockResult fa fb n sa sb as bs = scaledSum sa sb (blockSum n (blockProducts fa fb as bs)) :=
  if_neg (by simp [ha, hb])

theorem scaledSum_nan (sa sb : Nat) : scaledSum sa sb .nan = nan32 := by
  rw [scaledSum]
  · decide
  · simp

theorem scaledSum_inf (sa sb : Nat) (neg : Bool) : scaledSum sa sb (.inf neg) = if neg then 0xFF800000 else 0x7F800000 := by
  rw [scaledSum]
  · cases neg <;> decide
  · simp

theorem scaledSum_zero (sa sb : Nat) (neg : Bool) (e : Int) : scaledSum sa sb (.fin neg 0 e) = 0 := rfl

theorem blockResult_of_sum_nan (h : blockSum n (blockProducts fa fb as bs) = .nan) :
    blockResult fa fb n sa sb as bs = nan32 := by
  by_cases hs : sa = 0xFF ∨ sb = 0xFF
  · exact blockResult_of_scale hs
  · obtain ⟨ha, hb⟩ := not_or.1 hs
    rw [blockResult_eq ha hb, h, scaledSum_nan]

theorem blockResult_of_product_nan {x : Nat × Nat} (hx : x ∈ as.zip bs)
    (h : mulNum (decodeNum fa x.1) (decodeNum fb x.2) = .nan) : blockResult fa fb n sa sb as bs = nan32 :=
  blockResult_of_sum_nan (blockSum_of_nan (mem_blockProducts hx) (by rw [elemProduct_fst, h]))

end Results

@[simp] theorem mulNum_nan_left (y : Num) : mulNum .nan y = .nan := by cases y <;> rfl
@[simp] theorem mulNum_nan_right (x : Num) : mulNum x .nan = .nan := by cases x <;> rfl

/-- Settles O60: each clause says which products occur, and so what the block sums to. -/
theorem blockResultsFollowTheProducts : Obligations.BlockResultsFollowTheProducts := by
  refine ⟨?_, ?_, ?_, ?_, ?_, ?_⟩
  · exact fun fa fb n sa sb as bs hs => blockResult_of_scale hs
  · rintro fa fb n sa sb as bs x hx (hnan | hnan)
    · exact blockResult_of_product_nan hx (by rw [hnan, mulNum_nan_left])
    · exact blockResult_of_product_nan hx (by rw [hnan, mulNum_nan_right])
  · rintro fa fb n sa sb as bs x hx ⟨p, q, e, ⟨ha, hb⟩ | ⟨ha, hb⟩⟩
    · exact blockResult_of_product_nan hx (by rw [ha, hb]; rfl)
    · exact blockResult_of_product_nan hx (by rw [ha, hb]; rfl)
  · intro fa fb n sa sb as bs x y hx hy hneg hpos
    exact blockResult_of_sum_nan <| blockSum_of_opposite_infs (mem_blockProducts hx) (mem_blockProducts hy)
      (by rw [elemProduct_fst, hneg]) (by rw [elemProduct_fst, hpos])
  · intro fa fb n sa sb as bs x neg hx ha hb hinf hothers
    have hsum : blockSum n (blockProducts fa fb as bs) = .inf neg :=
      blockSum_of_inf (mem_blockProducts hx) (by rw [elemProduct_fst, hinf])
        (forall_mem_blockProducts (P := fun r => r ≠ .nan ∧ r ≠ .inf (!neg)) hothers)
    rw [blockResult_eq ha hb, hsum, scaledSum_inf]
  · intro fa fb n sa sb as bs ha hb hzero
    have hsum : blockSum n (blockProducts fa fb as bs) = .fin false 0 0 :=
      blockSum_of_zeros (forall_mem_blockProducts (P := fun r => ∃ neg e, r = .fin neg 0 e) hzero)
    rw [blockResult_eq ha hb, hsum, scaledSum_zero]

end Sys2Proof.Machine
end

section
/-!
PROOFS. The frame of every command: the frames of `Laws/FrameExec.lean`, gathered over the constructors of `Instr`.
-/

namespace Sys2Proof.Machine

/-- The parts of the state that a command may change. -/
def frameOf : Instr → List Comp
  | .registerWrite .. | .bar0MultiwordAccess .. | .fretDomainWrite .. | .flightRemeasure .. | .clkChangeGo .. | .clkHalfSet ..
    | .clkHalfRestore .. | .lpFlush .. | .kvpEnable .. | .connOpen .. | .connClose .. | .queueBind .. | .queueUnbind ..
    | .fabPortDisable .. | .nqHeadWrite .. | .rxConsume .. | .ownerClaim .. | .ownerRelease .. | .ownerGive ..
    | .mgmtWriteReg .. | .digestEnable .. | .digestDisable .. | .digestVerify .. | .digestCfgWrite .. | .healFence ..
    | .healRotate .. | .healPartitionRecovery .. | .twinAttachSource .. | .twinAttachSink .. | .twinDetach ..
    | .rstcReqCore .. | .rstcReqSystem .. | .blkMaintenanceReset .. | .blkRecoveryReset .. | .brupStartStage ..
    | .brupPause .. | .brupResume .. | .brupBootPushed .. | .brupProgram .. | .scriptWrite | .scriptModify | .pwrParkNow ..
    | .pwrWake .. | .budgetWrite .. | .pegRetuneAll .. | .lcTransitionRequest .. | .idGenerate .. | .opkWrite ..
    | .opkErase .. | .quoteRequest .. | .shutdownTestStart .. => parts9
  | .counterLoRead .. | .chestOldRead .. => [.tel, .latches, .out]
  | .bar2Read .. | .bar2Write .. => [.top, .rel, .chest, .hbm, .parts, .out]
  | .fretStart .. => [.top, .fret, .rel, .chest, .tel, .mch, .sess, .hbm, .parts, .tiles, .tasks, .out, .ticks, .free]
  | .configWrite .. => [.heal, .tiles]
  | .arm .. => [.top, .fret, .heal, .chest, .cluss, .tiles, .ctxs, .tasks, .out]
  | .armDeadline .. => [.tasks]
  | .taskArmIssue .. => [.fret, .relx, .mch, .tasks, .out]
  | .taskLaunch .. => [.top, .fret, .rel, .chest, .tiles, .tasks, .out]
  | .foldSwitch .. | .sramCorrectedWriteback .. | .tileSramZeroed .. | .queueSample => [.tiles]
  | .firing .. => parts2
  | .edgeCreditReturn .. => [.heal, .chest, .tiles, .tasks]
  | .releaseQueueArrive .. => parts3
  | .wormRelease .. => [.heal, .rel, .chest, .spn, .fabs, .tiles, .tasks, .held, .out]
  | .wormLate .. => [.fret, .chest, .tasks, .held]
  | .steerTokenArrive .. => [.chest, .mch, .tiles, .tasks]
  | .steerEmit .. => [.flash, .top, .fret, .bist, .heal, .healx, .rel, .relx, .chest, .spn, .fabs, .tiles, .tasks, .held, .out]
  | .steerGroupLate .. | .steerTokenTimeout .. | .steerGroupTimeout .. | .creditCheckFret .. => [.chest, .tasks]
  | .taskEndCheck .. => [.chest, .tiles, .tasks]
  | .remapApply .. | .rotationApply .. =>
      [.flash, .top, .bist, .heal, .healx, .rel, .relx, .chest, .mch, .cluss, .tiles, .out, .free]
  | .taskStop .. => parts5
  | .taskCommit .. => parts6
  | .abortMessageReceive .. | .seamSplit => [.top, .fret, .chest, .tasks, .out]
  | .beaconSend | .twHeartbeatSend | .mgtNdEcho .. => [.out]
  | .beaconReceive .. => [.top, .clk, .fret, .chest, .tasks, .out, .free]
  | .beaconTimeout => [.top, .fret, .chest, .out]
  | .holdoverTimeout => [.fret, .chest, .tasks]
  | .epochFret | .pllRelock .. | .seamResync | .clockChangeFret => [.clk, .fret]
  | .pllLockLost .. => [.clk, .fret, .chest, .tasks]
  | .flightMeasureDone .. => [.fret]
  | .stretchRequestReceive .. | .stretchAnnounce .. => [.fret, .out]
  | .stretchAnnounceReceive .. => [.top, .clk, .fret, .chest, .tasks, .out]
  | .stretchApply => [.fret, .tel]
  | .streamActivate .. => [.ctxs, .tasks]
  | .drawerIssue .. => [.chest, .tel, .sess, .hbm, .parts, .cluss, .tiles, .ctxs, .tasks, .out, .free]
  | .writeDrawerFillCheck .. => parts1
  | .readDrawerDue .. | .writeDrawerDeadline .. => [.chest, .tel, .ctxs, .tasks]
  | .hbmRequestStart .. => [.top, .rel, .chest, .tel, .hbm, .parts, .tasks, .out]
  | .hbmReadComplete .. => [.chest, .tel, .hbm, .parts, .cluss, .tiles, .ctxs, .tasks]
  | .hbmWriteAck .. | .lpSpeculate .. => [.tel, .hbm, .parts, .cluss, .ctxs]
  | .hbmRefresh .. => [.parts]
  | .hbmScrub .. => [.hbm, .parts]
  | .streamRetire .. | .streamQuiesceDone .. => [.cluss, .ctxs, .tasks]
  | .lpHintArrive .. => [.mch, .ctxs]
  | .sessionOpen .. | .sessionClose .. | .sessionSetQuota .. | .sessionQuery .. | .sessionReservedOpcode .. =>
      [.top, .rel, .chest, .mch, .sess, .hbm, .parts, .out, .free]
  | .verifyResultSend => [.mch, .sess, .out]
  | .openReceive .. | .messageSend .. | .creditReturnSend .. | .creditReturnResend .. | .closeMarkerReceive ..
    | .chordSumRelease .. | .twinMirrorSend | .mcReservedOpcode .. => [.mch, .out]
  | .openAckReceive .. | .openTimeout .. | .msgCreditReturnReceive .. | .nakNoticeReceive .. | .staleNoticeReceive ..
    | .closeAckReceive .. | .closeMarkerResend .. | .bar4Write .. | .submissionTimeout .. | .perst .. => [.top, .mch, .pcie, .out]
  | .messageArrive .. => [.top, .rel, .chest, .mch, .hbm, .parts, .out]
  | .recordConsume .. => [.mch]
  | .wormRoute .. => parts13
  | .wormCut .. | .vcWatchdogExpire .. => [.top, .fret, .rel, .chest, .tel, .spn, .hbm, .fabs, .parts, .tasks, .held, .out]
  | .fabPortEnable .. | .fabIdentityReceive .. => [.fabs]
  | .fabTrainDone .. => [.fabs, .out]
  | .fabTrainFail .. | .fabMeasureDone .. | .fabLockLost .. | .fabDownMarkerReceive .. | .fabReplayLimit .. =>
      [.top, .fret, .healx, .chest, .spn, .fabs, .tasks, .held, .out]
  | .fabLocalRetry .. => [.tel, .fabs]
  | .fabReplay .. => [.tel, .fabs, .out]
  | .twHeartbeatTimeout => [.top, .healx, .relx, .chest, .fabs, .out]
  | .ncnCrcError .. => [.flash, .top, .bist, .healx, .relx, .chest, .spn, .out]
  | .attentionPulse .. => [.top, .out]
  | .mcLoad .. => [.top, .sec, .chest, .mch, .spn, .scheds, .out]
  | .mcStart .. => [.relx, .mch, .scheds, .out]
  | .mcStop .. => [.rel, .relx, .mch, .scheds, .out]
  | .mcUnload .. => [.fret, .sec, .mch, .spn, .tasks, .scheds, .out]
  | .perstDeassert .. | .pcieLinkUp .. | .pcieConfigWrite .. => [.pcie]
  | .mgmtSystemReset .. | .mgmtCoreReset .. | .mcLockstepFail .. | .por | .supplyMonitorTrip | .sysrstNAssert
    | .mcWatchdogExpire | .orderlyResetAssert | .chestCopyDone => parts8
  | .mgmtAssignOwner .. | .mgmtChestClear .. => [.flash, .top, .ids, .sec, .chest, .mgt, .out]
  | .mgmtSetBudget .. => [.flash, .top, .pwr, .fret, .ids, .sec, .chest, .mgt, .out]
  | .mgmtClearRetire .. => [.flash, .top, .ids, .sec, .relx, .chest, .mgt, .out]
  | .mgmtQuote .. | .mgmtUnknownCommand .. => [.flash, .ids, .sec, .mgt]
  | .mgtPortLinkUp .. | .mgtPortLinkDown .. => [.mgt]
  | .parityCountDecay .. | .digestRoundStart .. => [.relx]
  | .arbitrationStart .. => [.rel, .relx, .tiles]
  | .arbitrationDone .. => [.flash, .top, .bist, .heal, .healx, .rel, .relx, .chest, .mch, .tiles, .out]
  | .digestPassDone .. => [.flash, .top, .bist, .healx, .rel, .relx, .chest, .mch, .hbm, .parts, .out]
  | .digestMessageReceive .. | .retireStart .. | .hbmWindowTestDone .. | .hbmPhyFault .. =>
      [.flash, .top, .bist, .healx, .relx, .chest, .out]
  | .retireComplete => [.flash, .top, .relx, .chest, .mch, .out]
  | .healFenceDeferredApply .. | .infieldTestDone .. => [.flash, .top, .bist, .heal, .healx, .relx, .chest, .tiles, .out]
  | .rotationMark => [.healx, .cluss]
  | .variantLoad .. => [.top, .chest, .cluss, .tiles, .out]
  | .taskHang .. => [.flash, .top, .bist, .heal, .healx, .relx, .chest, .mch, .spn, .parts, .tiles, .tasks, .out]
  | .tileFenceTimeout .. | .prrStart .. | .hbmControllerError .. =>
      [.heal, .healx, .chest, .mch, .spn, .parts, .tiles, .tasks, .out]
  | .prrResetDone .. => parts4
  | .prrVerified .. => [.healx, .chest]
  | .twinCopyDone .. => [.healx, .relx, .out]
  | .twinMirrorReceive .. | .testAgeTick => [.healx]
  | .twinTakeoverReceive => [.top, .healx, .relx, .out]
  | .twinDetachReceive | .twinAttachReceive .. => [.healx, .relx]
  | .healthRecordFenceWrite => [.flash, .bist]
  | .pwrgdRise | .supplyRestore => [.rstc, .pwr]
  | .porRelease .. => [.rstc, .brup, .pwr, .gov]
  | .thermalTrip .. => [.flash, .top, .pwr, .gov, .chest, .out]
  | .blkResetDone .. => [.rstc, .mch, .parts, .tiles, .out]
  | .stageBu0 .. => [.rstc, .brup, .pwr, .clk, .sec, .relx, .chest]
  | .stageBu1 .. => [.rstc, .brup, .ids, .sec, .chest, .tel, .free]
  | .stageBu2 .. => [.brup, .clk, .fret, .chest]
  | .stageBu3 .. => [.brup, .chest, .mgt]
  | .stageBu4 .. => [.flash, .top, .brup, .bist, .healx, .relx, .chest, .spn, .out]
  | .stageBu5 .. => [.flash, .top, .brup, .pwr, .bist, .healx, .relx, .chest, .parts, .out]
  | .stageBu6 .. => parts12
  | .stageBu7 .. => [.flash, .top, .rstc, .brup, .bist, .heal, .healx, .relx, .chest, .hbm, .tiles, .out]
  | .stageBu8 => [.flash, .brup]
  | .stageBu9 .. => [.fuse, .top, .rstc, .brup, .pwr, .fret, .chest, .mch, .out]
  | .scriptReplayStart | .scriptPoll | .scriptPollTimeout | .scriptWait | .scriptWaitExpire | .scriptStage | .scriptEnd => [.brup]
  | .scriptPollMatch => [.brup, .tel, .latches]
  | .governorInterval .. => [.pwr, .gov, .fret, .out]
  | .governorPark .. => [.gov, .bist, .parts, .tiles]
  | .parkDone .. => [.top, .pwr, .gov, .fret, .rel, .relx, .chest, .mch, .tiles, .out]
  | .wakeDone .. => [.flash, .top, .pwr, .bist, .heal, .healx, .relx, .chest, .parts, .tiles, .out]
  | .thermalClampEngage .. => [.top, .pwr, .gov, .clk, .fret, .chest, .out]
  | .thermalClampRelease .. | .powerClampRelease .. => [.gov, .clk]
  | .powerClampEngage .. => [.pwr, .gov, .clk, .fret, .chest, .out]
  | .droopEvent .. | .guardBandLower .. => [.pwr]
  | .pegRetune .. => [.flash, .pwr]
  | .lcFuseWriteDone => parts10
  | .signRequest .. => [.flash, .ids]
  | .signatureDone => [.flash, .ids, .out]
  | .quoteDone => [.flash, .ids, .sec]
  | .scanEn => [.sec, .tap, .out]
  | .eb1Unlock => [.flash, .sec, .tap, .out]
  | .scanClearDone => [.ids, .sec]
  | .jtagExtest .. | .jtagSamplePreload .. | .jtagIdcode | .jtagClamp | .jtagHighz | .jtagExtestPulse .. | .jtagExtestTrain ..
    | .jtagBypass .. => [.tap, .out]
  | .hbmWindowTestStart .. | .hbmWindowTestTimeout .. => [.bist]
  | .shutdownTestPhase .. => [.flash, .top, .bist, .heal, .healx, .relx, .chest, .hbm, .tiles, .out]
  | .shutdownRecord => [.flash, .bist, .chest]
  | .shutdownHalt => [.top, .pwr, .gov, .fret, .bist, .rel, .relx, .chest, .mch, .parts, .tiles, .out]
  | .chestRecordPlace => [.flash, .top, .chest, .out, .free]
  | .chestCopyStart .. => [.flash, .chest]
  | .telemetryReport => [.tel]
  | .telemetrySend => [.tel, .mch, .out]
  | .trefRestore => [.clk]
  | .sysrstNRelease | .resetRelease => [.rstc, .brup]
  | .idGenerateDone .. => [.fuse, .ids]
  | .trstNAssert => [.tap]

/-- Every command answers a next state and changes no part outside its frame. -/
theorem exec_frame (c : Instr) (s : State) : s.NextOnly (exec c s) (frameOf c) := by
  cases c with
  | registerWrite => exact execRegisterWrite_next ..
  | bar0MultiwordAccess => exact execBar0MultiwordAccess_next ..
  | counterLoRead => exact execCounterLoRead_next ..
  | chestOldRead => exact execChestOldRead_next ..
  | bar2Read => exact execBar2Read_next ..
  | bar2Write => exact execBar2Write_next ..
  | fretStart => exact execFretStart_next ..
  | configWrite => exact execConfigWrite_next ..
  | arm => exact execArm_next ..
  | armDeadline => exact execArmDeadline_next ..
  | taskArmIssue => exact execTaskArmIssue_next ..
  | taskLaunch => exact execTaskLaunch_next ..
  | foldSwitch => exact execFoldSwitch_next ..
  | firing => exact execFiring_next ..
  | sramCorrectedWriteback => exact execSramCorrectedWriteback_next ..
  | tileSramZeroed => exact execTileSramZeroed_next ..
  | edgeCreditReturn => exact execEdgeCreditReturn_next ..
  | releaseQueueArrive => exact execReleaseQueueArrive_next ..
  | wormRelease => exact execWormRelease_next ..
  | wormLate => exact execWormLate_next ..
  | steerTokenArrive => exact execSteerTokenArrive_next ..
  | steerEmit => exact execSteerEmit_next ..
  | steerGroupLate => exact execSteerGroupLate_next ..
  | steerTokenTimeout => exact execSteerTokenTimeout_next ..
  | steerGroupTimeout => exact execSteerGroupTimeout_next ..
  | taskEndCheck => exact execTaskEndCheck_next ..
  | creditCheckFret => exact execCreditCheckFret_next ..
  | queueSample => exact execQueueSample_next ..
  | remapApply => exact execRemapApply_next ..
  | taskStop => exact execTaskStop_next ..
  | taskCommit => exact execTaskCommit_next ..
  | abortMessageReceive => exact execAbortMessageReceive_next ..
  | beaconSend => exact execBeaconSend_next ..
  | beaconReceive => exact execBeaconReceive_next ..
  | beaconTimeout => exact execBeaconTimeout_next ..
  | holdoverTimeout => exact execHoldoverTimeout_next ..
  | epochFret => exact execEpochFret_next ..
  | fretDomainWrite => exact execFretDomainWrite_next ..
  | pllLockLost => exact execPllLockLost_next ..
  | pllRelock => exact execPllRelock_next ..
  | seamSplit => exact execSeamSplit_next ..
  | seamResync => exact execSeamResync_next ..
  | flightRemeasure => exact execFlightRemeasure_next ..
  | flightMeasureDone => exact execFlightMeasureDone_next ..
  | stretchRequestReceive => exact execStretchRequestReceive_next ..
  | stretchAnnounce => exact execStretchAnnounce_next ..
  | stretchAnnounceReceive => exact execStretchAnnounceReceive_next ..
  | stretchApply => exact execStretchApply_next ..
  | clkChangeGo => exact execClkChangeGo_next ..
  | clockChangeFret => exact execClockChangeFret_next ..
  | clkHalfSet => exact execClkHalfSet_next ..
  | clkHalfRestore => exact execClkHalfRestore_next ..
  | streamActivate => exact execStreamActivate_next ..
  | drawerIssue => exact execDrawerIssue_next ..
  | writeDrawerFillCheck => exact execWriteDrawerFillCheck_next ..
  | readDrawerDue => exact execReadDrawerDue_next ..
  | writeDrawerDeadline => exact execWriteDrawerDeadline_next ..
  | hbmRequestStart => exact execHbmRequestStart_next ..
  | hbmReadComplete => exact execHbmReadComplete_next ..
  | hbmWriteAck => exact execHbmWriteAck_next ..
  | hbmRefresh => exact execHbmRefresh_next ..
  | hbmScrub => exact execHbmScrub_next ..
  | streamRetire => exact execStreamRetire_next ..
  | streamQuiesceDone => exact execStreamQuiesceDone_next ..
  | lpHintArrive => exact execLpHintArrive_next ..
  | lpSpeculate => exact execLpSpeculate_next ..
  | lpFlush => exact execLpFlush_next ..
  | sessionOpen => exact execSessionOpen_next ..
  | sessionClose => exact execSessionClose_next ..
  | sessionSetQuota => exact execSessionSetQuota_next ..
  | sessionQuery => exact execSessionQuery_next ..
  | verifyResultSend => exact execVerifyResultSend_next ..
  | kvpEnable => exact execKvpEnable_next ..
  | connOpen => exact execConnOpen_next ..
  | connClose => exact execConnClose_next ..
  | openReceive => exact execOpenReceive_next ..
  | openAckReceive => exact execOpenAckReceive_next ..
  | openTimeout => exact execOpenTimeout_next ..
  | messageSend => exact execMessageSend_next ..
  | messageArrive => exact execMessageArrive_next ..
  | recordConsume => exact execRecordConsume_next ..
  | creditReturnSend => exact execCreditReturnSend_next ..
  | creditReturnResend => exact execCreditReturnResend_next ..
  | msgCreditReturnReceive => exact execMsgCreditReturnReceive_next ..
  | nakNoticeReceive => exact execNakNoticeReceive_next ..
  | staleNoticeReceive => exact execStaleNoticeReceive_next ..
  | closeMarkerReceive _ _ _ q => exact execCloseMarkerReceive_next _ _ _ q _
  | closeAckReceive => exact execCloseAckReceive_next ..
  | closeMarkerResend => exact execCloseMarkerResend_next ..
  | queueBind => exact execQueueBind_next ..
  | queueUnbind => exact execQueueUnbind_next ..
  | chordSumRelease => exact execChordSumRelease_next ..
  | wormRoute => exact execWormRoute_next ..
  | wormCut => exact execWormCut_next ..
  | vcWatchdogExpire => exact execVcWatchdogExpire_next ..
  | fabPortEnable => exact execFabPortEnable_next ..
  | fabPortDisable => exact execFabPortDisable_next ..
  | fabTrainDone => exact execFabTrainDone_next ..
  | fabTrainFail => exact execFabTrainFail_next ..
  | fabMeasureDone => exact execFabMeasureDone_next ..
  | fabIdentityReceive => exact execFabIdentityReceive_next ..
  | fabLockLost => exact execFabLockLost_next ..
  | fabDownMarkerReceive => exact execFabDownMarkerReceive_next ..
  | fabLocalRetry => exact execFabLocalRetry_next ..
  | fabReplay => exact execFabReplay_next ..
  | fabReplayLimit => exact execFabReplayLimit_next ..
  | twHeartbeatSend => exact execTwHeartbeatSend_next ..
  | twHeartbeatTimeout => exact execTwHeartbeatTimeout_next ..
  | ncnCrcError => exact execNcnCrcError_next ..
  | bar4Write => exact execBar4Write_next ..
  | submissionTimeout => exact execSubmissionTimeout_next ..
  | nqHeadWrite => exact execNqHeadWrite_next ..
  | rxConsume => exact execRxConsume_next ..
  | attentionPulse => exact execAttentionPulse_next ..
  | mcLoad => exact execMcLoad_next ..
  | mcStart => exact execMcStart_next ..
  | mcStop => exact execMcStop_next ..
  | mcUnload => exact execMcUnload_next ..
  | ownerClaim => exact execOwnerClaim_next ..
  | ownerRelease => exact execOwnerRelease_next ..
  | ownerGive => exact execOwnerGive_next ..
  | perst => exact execPerst_next ..
  | perstDeassert => exact execPerstDeassert_next ..
  | pcieLinkUp => exact execPcieLinkUp_next ..
  | mgmtSystemReset => exact execMgmtSystemReset_next ..
  | mgmtCoreReset => exact execMgmtCoreReset_next ..
  | mgmtAssignOwner => exact execMgmtAssignOwner_next ..
  | mgmtSetBudget => exact execMgmtSetBudget_next ..
  | mgmtChestClear => exact execMgmtChestClear_next ..
  | mgmtClearRetire => exact execMgmtClearRetire_next ..
  | mgmtQuote => exact execMgmtQuote_next ..
  | mgmtWriteReg => exact execMgmtWriteReg_next ..
  | mgtNdEcho => exact execMgtNdEcho_next ..
  | mgtPortLinkUp => exact execMgtPortLinkUp_next ..
  | parityCountDecay => exact execParityCountDecay_next ..
  | arbitrationStart => exact execArbitrationStart_next ..
  | arbitrationDone => exact execArbitrationDone_next ..
  | digestRoundStart => exact execDigestRoundStart_next ..
  | digestPassDone => exact execDigestPassDone_next ..
  | digestEnable => exact execDigestEnable_next ..
  | digestDisable => exact execDigestDisable_next ..
  | digestVerify => exact execDigestVerify_next ..
  | digestCfgWrite => exact execDigestCfgWrite_next ..
  | digestMessageReceive => exact execDigestMessageReceive_next ..
  | retireStart => exact execRetireStart_next ..
  | retireComplete => exact execRetireComplete_next ..
  | mcLockstepFail => exact execMcLockstepFail_next ..
  | healFence => exact execHealFence_next ..
  | healFenceDeferredApply => exact execHealFenceDeferredApply_next ..
  | healRotate => exact execHealRotate_next ..
  | healPartitionRecovery => exact execHealPartitionRecovery_next ..
  | rotationMark => exact execRotationMark_next ..
  | rotationApply => exact execRotationApply_next ..
  | infieldTestDone => exact execInfieldTestDone_next ..
  | variantLoad => exact execVariantLoad_next ..
  | taskHang => exact execTaskHang_next ..
  | tileFenceTimeout => exact execTileFenceTimeout_next ..
  | prrStart => exact execPrrStart_next ..
  | prrResetDone => exact execPrrResetDone_next ..
  | prrVerified => exact execPrrVerified_next ..
  | twinAttachSource => exact execTwinAttachSource_next ..
  | twinAttachSink => exact execTwinAttachSink_next ..
  | twinDetach => exact execTwinDetach_next ..
  | twinCopyDone => exact execTwinCopyDone_next ..
  | twinMirrorSend => exact execTwinMirrorSend_next ..
  | twinMirrorReceive => exact execTwinMirrorReceive_next ..
  | twinTakeoverReceive => exact execTwinTakeoverReceive_next ..
  | twinDetachReceive => exact execTwinDetachReceive_next ..
  | healthRecordFenceWrite => exact execHealthRecordFenceWrite_next ..
  | por => exact execPor_next ..
  | pwrgdRise => exact execPwrgdRise_next ..
  | porRelease => exact execPorRelease_next ..
  | supplyMonitorTrip => exact execSupplyMonitorTrip_next ..
  | supplyRestore => exact execSupplyRestore_next ..
  | thermalTrip => exact execThermalTrip_next ..
  | sysrstNAssert => exact execSysrstNAssert_next ..
  | mcWatchdogExpire => exact execMcWatchdogExpire_next ..
  | rstcReqCore => exact execRstcReqCore_next ..
  | rstcReqSystem => exact execRstcReqSystem_next ..
  | orderlyResetAssert => exact execOrderlyResetAssert_next ..
  | blkMaintenanceReset => exact execBlkMaintenanceReset_next ..
  | blkRecoveryReset => exact execBlkRecoveryReset_next ..
  | blkResetDone => exact execBlkResetDone_next ..
  | brupStartStage => exact execBrupStartStage_next ..
  | brupPause => exact execBrupPause_next ..
  | brupResume => exact execBrupResume_next ..
  | brupBootPushed => exact execBrupBootPushed_next ..
  | brupProgram => exact execBrupProgram_next ..
  | stageBu0 => exact execStageBu0_next ..
  | stageBu1 => exact execStageBu1_next ..
  | stageBu2 => exact execStageBu2_next ..
  | stageBu3 => exact execStageBu3_next ..
  | stageBu4 => exact execStageBu4_next ..
  | stageBu5 => exact execStageBu5_next ..
  | stageBu6 => exact execStageBu6_next ..
  | stageBu7 => exact execStageBu7_next ..
  | stageBu8 => exact execStageBu8_next ..
  | stageBu9 => exact execStageBu9_next ..
  | scriptReplayStart => exact execScriptReplayStart_next ..
  | scriptWrite => exact execScriptWrite_next ..
  | scriptModify => exact execScriptModify_next ..
  | scriptPoll => exact execScriptPoll_next ..
  | scriptPollMatch => exact execScriptPollMatch_next ..
  | scriptPollTimeout => exact execScriptPollTimeout_next ..
  | scriptWait => exact execScriptWait_next ..
  | scriptWaitExpire => exact execScriptWaitExpire_next ..
  | scriptStage => exact execScriptStage_next ..
  | scriptEnd => exact execScriptEnd_next ..
  | governorInterval => exact execGovernorInterval_next ..
  | governorPark => exact execGovernorPark_next ..
  | pwrParkNow => exact execPwrParkNow_next ..
  | pwrWake => exact execPwrWake_next ..
  | parkDone => exact execParkDone_next ..
  | wakeDone => exact execWakeDone_next ..
  | budgetWrite => exact execBudgetWrite_next ..
  | thermalClampEngage => exact execThermalClampEngage_next ..
  | thermalClampRelease => exact execThermalClampRelease_next ..
  | powerClampEngage => exact execPowerClampEngage_next ..
  | powerClampRelease => exact execPowerClampRelease_next ..
  | droopEvent => exact execDroopEvent_next ..
  | guardBandLower => exact execGuardBandLower_next ..
  | pegRetune => exact execPegRetune_next ..
  | pegRetuneAll => exact execPegRetuneAll_next ..
  | lcTransitionRequest => exact execLcTransitionRequest_next ..
  | lcFuseWriteDone => exact execLcFuseWriteDone_next ..
  | idGenerate => exact execIdGenerate_next ..
  | signRequest => exact execSignRequest_next ..
  | signatureDone => exact execSignatureDone_next ..
  | opkWrite => exact execOpkWrite_next ..
  | opkErase => exact execOpkErase_next ..
  | quoteRequest => exact execQuoteRequest_next ..
  | quoteDone => exact execQuoteDone_next ..
  | scanEn => exact execScanEn_next ..
  | eb1Unlock => exact execEb1Unlock_next ..
  | scanClearDone => exact execScanClearDone_next ..
  | jtagExtest => exact execJtagExtest_next ..
  | jtagSamplePreload => exact execJtagSamplePreload_next ..
  | jtagIdcode => exact execJtagIdcode_next ..
  | jtagClamp => exact execJtagClamp_next ..
  | jtagHighz => exact execJtagHighz_next ..
  | jtagExtestPulse => exact execJtagExtestPulse_next ..
  | jtagExtestTrain => exact execJtagExtestTrain_next ..
  | jtagBypass => exact execJtagBypass_next ..
  | hbmWindowTestStart => exact execHbmWindowTestStart_next ..
  | hbmWindowTestDone => exact execHbmWindowTestDone_next ..
  | hbmWindowTestTimeout => exact execHbmWindowTestTimeout_next ..
  | testAgeTick => exact execTestAgeTick_next ..
  | shutdownTestStart => exact execShutdownTestStart_next ..
  | shutdownTestPhase => exact execShutdownTestPhase_next ..
  | shutdownRecord => exact execShutdownRecord_next ..
  | shutdownHalt => exact execShutdownHalt_next ..
  | chestRecordPlace => exact execChestRecordPlace_next ..
  | chestCopyStart => exact execChestCopyStart_next ..
  | chestCopyDone => exact execChestCopyDone_next ..
  | telemetryReport => exact execTelemetryReport_next ..
  | telemetrySend => exact execTelemetrySend_next ..
  | trefRestore => exact execTrefRestore_next ..
  | sysrstNRelease => exact execSysrstNRelease_next ..
  | resetRelease => exact execResetRelease_next ..
  | mgmtUnknownCommand => exact execMgmtUnknownCommand_next ..
  | mcReservedOpcode => exact execMcReservedOpcode_next ..
  | sessionReservedOpcode => exact execSessionReservedOpcode_next ..
  | twinAttachReceive => exact execTwinAttachReceive_next ..
  | hbmControllerError => exact execHbmControllerError_next ..
  | hbmPhyFault p => exact execHbmPhyFault_next p _
  | idGenerateDone => exact execIdGenerateDone_next ..
  | mgtPortLinkDown => exact execMgtPortLinkDown_next ..
  | pcieConfigWrite => exact execPcieConfigWrite_next ..
  | trstNAssert => exact execTrstNAssert_next ..

end Sys2Proof.Machine
end

section
/-!
PROOFS. What keeps the remap tables and the mark that BU6 has loaded them (03 R121): every reset short of POR, and every register
write. An operation whose frame holds neither `rstc` nor `cluss` keeps them by its frame; the others are taken apart here.
-/

namespace Sys2Proof.Machine

/-- Two states agree in the remap table of every cluster and in the mark that BU6 has loaded the tables (03 R121; 11 R618). -/
structure State.SameMap (s t : State) : Prop where
  mapped : t.rstc.mapped = s.rstc.mapped
  remap (k : Nat) : (t.clus k).remap = (s.clus k).remap

/-- A frame that leaves out the parts that hold the tables and the mark. -/
def offMap (cs : List Comp) : Bool := !cs.contains .rstc && !cs.contains .cluss

section SameMap

variable {s t u : State} {cs : List Comp}

theorem State.SameMap.refl (s : State) : s.SameMap s := ⟨rfl, fun _ => rfl⟩

theorem State.SameMap.trans (h : s.SameMap t) (k : t.SameMap u) : s.SameMap u :=
  ⟨k.mapped.trans h.mapped, fun c => (k.remap c).trans (h.remap c)⟩

theorem State.Only.sameMap (h : s.Only t cs) (hcs : offMap cs = true) : s.SameMap t := by
  obtain ⟨hr, hc⟩ : .rstc ∉ cs ∧ .cluss ∉ cs := by simpa [offMap] using hcs
  exact ⟨by rw [h.rstc hr], fun k => by rw [State.clus, h.cluss hc, State.clus]⟩

/-- A change of parts of the state that hold neither the tables nor the mark. -/
theorem State.SameMap.step (h : s.SameMap t) (k : t.Only u cs) (hcs : offMap cs = true) : s.SameMap u := h.trans (k.sameMap hcs)

theorem State.SameMap.each {α : Type} {f : State → α → State} {xs : List α} (h : s.SameMap t)
    (hf : ∀ (v : State) x, v.SameMap (f v x)) : s.SameMap (t.each xs f) := by
  unfold State.each
  induction xs generalizing t with
  | nil => exact h
  | cons x xs ih => exact ih (h.trans (hf t x))

theorem State.SameMap.when {c : Bool} {f : State → State} (h : s.SameMap t) (hf : ∀ v : State, v.SameMap (f v)) :
    s.SameMap (t.when c f) := by
  unfold State.when
  split
  · exact h.trans (hf t)
  · exact h

theorem State.SameMap.modRstc {f : RstcSt → RstcSt} (h : s.SameMap t) (hf : ∀ r, (f r).mapped = r.mapped) :
    s.SameMap (t.modRstc f) := h.trans ⟨hf t.rstc, fun _ => rfl⟩

theorem updClus_clus (s : State) (c k : Nat) (f : ClusSt → ClusSt) :
    (s.updClus c f).clus k = if k = c then f (s.clus c) else s.clus k := Tab.get_upd ..

theorem State.SameMap.updClus {c : Nat} {f : ClusSt → ClusSt} (h : s.SameMap t) (hf : ∀ x, (f x).remap = x.remap) :
    s.SameMap (t.updClus c f) := by
  refine h.trans ⟨rfl, fun k => ?_⟩
  rw [updClus_clus]
  split
  · next e => rw [hf, e]
  · rfl

end SameMap

/-! ## Resets (R589 to R594) -/

section Resets

variable (s : State)

theorem resetEngine_sameMap (c : Nat) : s.SameMap (s.resetEngine c) := by
  unfold State.resetEngine
  refine .step ?_ (modCtxs_only ..) rfl
  refine .updClus ?_ fun _ => rfl
  exact (modParts_only ..).sameMap rfl

theorem markRotation_sameMap (c : Nat) : s.SameMap (s.markRotation c) := by
  unfold State.markRotation
  dsimp only
  split
  · exact (modHealx_only ..).sameMap rfl
  · split
    · exact .refl s
    · exact .updClus (.refl s) fun _ => rfl

theorem heldOrders_sameMap (p : Nat) : s.SameMap (s.heldOrders p) := by
  have hfence (v : State) (c : Nat) : v.SameMap (v.fenceTile (c % 4096) (c / 4096)) := (fenceTile_only ..).sameMap rfl
  have hhang (v : State) (c : Nat) : v.SameMap (if c < 4096 then v.tileHang c else v.startRecovery (c - 4096)) := by
    split
    · exact (tileHang_only ..).sameMap rfl
    · exact (startRecovery_only ..).sameMap rfl
  have horders (v : State) : v.SameMap (match v.healx.retireWait with
      | some cause => if v.recovering then v else (v.modHealx fun h => { h with retireWait := none }).drainNow cause
      | none => v) := by
    split
    · split
      · exact .refl v
      · exact ((modHealx_only ..).sameMap rfl).step (drainNow_only ..) rfl
    · exact .refl v
  unfold State.heldOrders
  refine .trans ?_ (horders _)
  refine .each ?_ markRotation_sameMap
  refine .step ?_ (modHealx_only ..) rfl
  refine .each ?_ hhang
  refine .when ?_ fun v => (modHeal_only ..).sameMap rfl
  refine .each ?_ hfence
  exact (modHealx_only ..).sameMap rfl

theorem endRecovery_sameMap (p : Nat) : s.SameMap (s.endRecovery p) := by
  unfold State.endRecovery
  split
  · exact .refl s
  · refine .when ?_ fun v => heldOrders_sameMap v p
    exact ((setPartMode_only ..).sameMap rfl).step (unfenceQueues_only ..) rfl

theorem coreEffect_sameMap : s.SameMap s.coreEffect := by
  unfold State.coreEffect
  refine .step ?_ (modBrup_only ..) rfl
  refine .step ?_ (modBist_only ..) rfl
  refine .step ?_ (modTop_only ..) rfl
  refine .step ?_ (modFret_only ..) rfl
  refine .each ?_ endRecovery_sameMap
  refine .each ?_ fun v e => (unbindQueue_only ..).sameMap rfl
  refine .each ?_ fun v e => (closeByReset_only ..).sameMap rfl
  refine .step ?_ (coreResetSessions_only ..) rfl
  refine .each ?_ fun v p => ((coreMemory_only ..).sameMap rfl).step (dropLatches_only ..) rfl
  refine .each ?_ resetEngine_sameMap
  refine .each ?_ fun v pt => ((resetTile_only ..).sameMap rfl).step (updTile_only ..) rfl
  refine .step ?_ (modRelx_only ..) rfl
  refine .step ?_ (modScheds_only ..) rfl
  refine .step ?_ (modHeld_only ..) rfl
  refine .step ?_ (modTasks_only ..) rfl
  refine .each ?_ fun v n => (dropHeld_only ..).sameMap rfl
  exact (loseEntries_only ..).sameMap rfl


/-- A read of a table whose values are mapped by a function that keeps the default. -/
theorem Tab.get_map_value {α : Type} (d : α) (f : α → α) (hd : f d = d) (t : Tab α) (k : Nat) :
    Tab.get d (t.map fun e => (e.1, f e.2)) k = f (Tab.get d t k) := by
  induction t with
  | nil => exact hd.symm
  | cons x t ih =>
    simp only [List.map_cons, Tab.get, ih]
    split <;> rfl

/-- What a system reset leaves of a cluster. -/
def clusAfter (x : ClusSt) : ClusSt := { remap := x.remap, hosts := x.hosts }

theorem systemState_sameMap : s.SameMap s.systemState := by
  refine ⟨rfl, fun k => ?_⟩
  have hget : s.systemState.clus k = clusAfter (s.clus k) :=
    (Tab.get_map_value ({} : ClusSt) clusAfter rfl s.cluss k :)
  rw [hget, clusAfter]

theorem assertReset_sameMap {l : Level} (hl : l ≠ .por) (src : BitVec 4) (promoted : Bool) :
    s.SameMap (s.assertReset l src promoted) := by
  unfold State.assertReset
  cases l with
  | por => contradiction
  | system =>
    refine .modRstc ?_ fun _ => rfl
    refine .trans ?_ (systemState_sameMap _)
    refine .step ?_ (loseEntries_only ..) rfl
    refine .step ?_ (downPorts_only ..) rfl
    exact (record_only ..).sameMap rfl
  | core =>
    refine .modRstc ?_ fun _ => rfl
    exact ((record_only ..).sameMap rfl).trans (coreEffect_sameMap _)

theorem absorbReset_sameMap (src : BitVec 4) : s.SameMap (s.absorbReset src) := .modRstc (.refl s) fun _ => rfl

theorem startOrderly_sameMap (l : Level) (src : BitVec 4) (promoted : Bool) : s.SameMap (s.startOrderly l src promoted) := by
  unfold State.startOrderly
  refine .modRstc ?_ fun _ => rfl
  exact (abortRunning_only ..).sameMap rfl

theorem requestReset_sameMap {l : Level} (hl : l ≠ .por) (src : BitVec 4) (immediate : Bool) :
    s.SameMap (s.requestReset l src immediate) := by
  unfold State.requestReset
  extract_lets promoted l' go
  have hl' : l' ≠ .por := by
    unfold l'
    split
    · decide
    · exact hl
  have hgo (v : State) : v.SameMap (go v) := by
    unfold go
    split
    · exact assertReset_sameMap v hl' ..
    · exact startOrderly_sameMap v ..
  split
  · exact .refl s
  · split
    · exact hgo s
    · split
      · exact hgo s
      · split
        · split
          · exact .modRstc (absorbReset_sameMap ..) fun _ => rfl
          · exact absorbReset_sameMap ..
        · exact absorbReset_sameMap ..

theorem startBu0_sameMap : s.SameMap s.startBu0 := by
  unfold State.startBu0
  refine .step ?_ (startStage_only ..) rfl
  exact .modRstc (.refl s) fun _ => rfl

end Resets

/-! ## Register writes, script records and signed commands -/

section Writes

variable (s : State)

theorem writeRstcReq_sameMap (w : Writer) (v : Word) : s.SameMap (s.writeRstcReq w v) := by
  unfold State.writeRstcReq
  extract_lets level freed
  have hlevel (l : Level) (h : level = some l) : l ≠ .por := by
    revert h
    unfold level
    split <;> simp +contextual [eq_comm]
  clear_value level
  cases level with
  | none => exact .refl s
  | some l =>
    have hl : l ≠ .por := hlevel l rfl
    dsimp only
    split
    · exact .refl s
    · split
      · exact ((modFree_only ..).sameMap rfl).trans (requestReset_sameMap _ hl ..)
      · exact requestReset_sameMap s hl ..

theorem addBlk_sameMap (level target : Nat) (recovery : Bool) : s.SameMap (s.addBlk level target recovery) :=
  .modRstc (.refl s) fun _ => rfl

theorem blkReset_sameMap (level target : Nat) : s.SameMap (s.blkReset level target) := by
  unfold State.blkReset State.holdTile
  split
  · exact ((loseEntries_only ..).sameMap rfl).step (resetTile_only ..) rfl
  · refine .trans ?_ (resetEngine_sameMap ..)
    exact .each ((loseEntries_only ..).sameMap rfl) fun v pt => (resetTile_only ..).sameMap rfl
  · refine .step ?_ (updPart_only ..) rfl
    refine .each ?_ fun v e => (updDig_only ..).sameMap rfl
    refine .step ?_ (lpInvalidate_only ..) rfl
    refine .step ?_ (endWindows_only ..) rfl
    refine .each ?_ resetEngine_sameMap
    refine .each ?_ fun v pt => (resetTile_only ..).sameMap rfl
    refine .step ?_ (closeFolds_only ..) rfl
    refine .step ?_ (fenceQueues_only ..) rfl
    exact ((loseEntries_only ..).sameMap rfl).step (dropLatches_only ..) rfl

theorem writeRstcBlk_sameMap (v : Word) : s.SameMap (s.writeRstcBlk v) := by
  unfold State.writeRstcBlk
  extract_lets op level target refuse idle onLt onClus
  have hrefuse (c : BitVec 8) : s.SameMap (refuse c) := .modRstc (.refl s) fun _ => rfl
  have hdetect (v : State) (n : BitVec 32) : v.SameMap (v.detect n .nakFenced) := (detect_only ..).sameMap rfl
  have honLt : s.SameMap onLt := by
    unfold onLt
    split
    · exact .each (.refl s) hdetect
    · exact .refl s
  have honClus : s.SameMap onClus := .each (.refl s) hdetect
  clear_value idle level refuse onLt onClus
  split
  · exact .refl s
  · split
    · exact hrefuse _
    · split
      · split
        · exact (addBlk_sameMap ..).trans (blkReset_sameMap ..)
        · exact hrefuse _
      · split
        · exact (honLt.trans (addBlk_sameMap ..)).trans (blkReset_sameMap ..)
        · exact ((honClus.trans (addBlk_sameMap ..)).step (cutLeaving_only ..) rfl).trans (blkReset_sameMap ..)
        · split
          · exact (addBlk_sameMap ..).step (startRecovery_only ..) rfl
          · exact hrefuse _

theorem writeRstc_sameMap (w : Writer) (off : Nat) (v : Word) : s.SameMap (s.writeRstc w off v) := by
  unfold State.writeRstc
  split
  · exact .modRstc (.refl s) fun _ => rfl
  · exact writeRstcReq_sameMap ..
  · exact .modRstc (.refl s) fun _ => rfl
  · exact writeRstcBlk_sameMap ..
  · exact .modRstc (.refl s) fun _ => rfl
  · exact .refl s

theorem writeHealCmd_sameMap (v : Word) : s.SameMap (s.writeHealCmd v) := by
  unfold State.writeHealCmd
  extract_lets t
  split
  · exact (fenceCmd_only ..).sameMap rfl
  · split
    · exact (healResult_only ..).sameMap rfl
    · exact ((markRotation_sameMap ..).step (modHealx_only ..) rfl).step (healResult_only ..) rfl
  · split
    · exact (healResult_only ..).sameMap rfl
    · split
      · exact (healResult_only ..).sameMap rfl
      · exact ((startRecovery_only ..).sameMap rfl).step (healResult_only ..) rfl
  · exact .refl s

theorem writeHeal_sameMap (a : Accessor) (off : Nat) (v : Word) : s.SameMap (s.writeHeal a off v) := by
  unfold State.writeHeal
  split
  · exact (modHeal_only ..).sameMap rfl
  · exact writeHealCmd_sameMap ..
  · exact (modHeal_only ..).sameMap rfl
  · exact (modHeal_only ..).sameMap rfl
  · exact (writeTwin_only ..).sameMap rfl
  · exact .refl s

theorem writeClus_sameMap (c : Nat) (a : Accessor) (off : Nat) (v : Word) : s.SameMap (s.writeClus c a off v) := by
  unfold State.writeClus
  split
  · split
    · split
      · exact (writeTile_only ..).sameMap rfl
      · exact .refl s
    · exact .refl s
  · split
    · split
      · exact (updCtx_only ..).sameMap rfl
      · exact .refl s
    · split
      · exact .updClus (.refl s) fun _ => rfl
      · exact .updClus (.refl s) fun _ => rfl
      · exact .refl s

theorem blockWrite_sameMap (w : Writer) (b : Block) (off : Nat) (v : Word) : s.SameMap (s.blockWrite w b off v) := by
  unfold State.blockWrite
  cases b with
  | top => exact (writeTop_only ..).sameMap rfl
  | rstc => exact writeRstc_sameMap ..
  | brup => exact (writeBrup_only ..).sameMap rfl
  | clk => exact (writeClk_only ..).sameMap rfl
  | pwr => exact (writePwr_only ..).sameMap rfl
  | fret => exact (writeFret_only ..).sameMap rfl
  | sec => exact (writeSec_only ..).sameMap rfl
  | bist => exact (writeBist_only ..).sameMap rfl
  | heal => exact writeHeal_sameMap ..
  | rel => exact (writeRel_only ..).sameMap rfl
  | chest => exact (writeChest_only ..).sameMap rfl
  | mch => exact (writeMch_only ..).sameMap rfl
  | pcie => exact (writePcie_only ..).sameMap rfl
  | mgt => exact (writeMgt_only ..).sameMap rfl
  | fab => exact (writeFab_only ..).sameMap rfl
  | spn => exact (writeSpn_only ..).sameMap rfl
  | part => exact (writePart_only ..).sameMap rfl
  | clus => exact writeClus_sameMap ..

theorem bar0Write_sameMap (w : Writer) (off : Nat) (v : Word) : s.SameMap (s.bar0Write w off v) := by
  unfold State.bar0Write
  split
  · exact .refl s
  · split
    · exact .refl s
    · split
      · exact .refl s
      · split
        · exact (denyWrite_only ..).sameMap rfl
        · exact blockWrite_sameMap ..

theorem accWrite_sameMap (a : Accessor) (off : Nat) (v : Word) : s.SameMap (s.accWrite a off v) := bar0Write_sameMap ..

theorem seqWrite_sameMap (off : Nat) (v : Word) : s.SameMap (s.seqWrite off v) := by
  unfold State.seqWrite
  split
  · exact (stopScript_only ..).sameMap rfl
  · exact accWrite_sameMap ..

theorem runRecord_sameMap (op : Nat) {f : State → ScriptRec → State} (hf : ∀ (v : State) r, v.SameMap (f v r)) :
    s.SameMap (s.runRecord op f) := by
  have hnext : s.SameMap s.advance := (advance_only s).sameMap rfl
  unfold State.runRecord
  split
  · exact .refl s
  · split
    · split
      · exact (endScript_only ..).sameMap rfl
      · exact .refl s
    · split
      · exact hnext.trans (hf ..)
      · split
        · exact hnext.step (stopScript_only ..) rfl
        · exact .refl s

theorem mgmtCommand_sameMap (d : Datagram) (code : BitVec 8) (slots : Nat) {f : State → Verdict}
    (hf : ∀ (u t : State) b, f u = .done t b → u.SameMap t) : s.SameMap (s.mgmtCommand d code slots f) := by
  have hreply (result : BitVec 8) (b : List Byte) : s.SameMap (s.replyMgmt d code result b) := (replyMgmt_only ..).sameMap rfl
  unfold State.mgmtCommand
  split
  · exact .refl s
  · split
    · exact (updMgmtPort_only ..).sameMap rfl
    · split
      · exact hreply ..
      · split
        · exact hreply ..
        · split
          · exact hreply ..
          · next t b h =>
            split
            · exact (((storeSeq_only s d).sameMap rfl).trans (hf _ t b h)).step (replyMgmt_only ..) rfl
            · exact hreply ..

theorem changes_sameMap {t : State} (d : Datagram) (h : s.SameMap t) : s.SameMap (s.changes d t) :=
  h.step (only_changes (fr := [.top, .chest, .out]) (.refl ..) fun _ hc => hc) rfl

end Writes

end Sys2Proof.Machine
end

section
/-!
PROOFS. The commands that change RSTC or the clusters but keep the remap tables and their mark.
-/

namespace Sys2Proof.Machine

/-- A command answers a next state with the same tables and mark. -/
def State.NextSameMap (s : State) (o : Host.Outcome State Fault Refusal) : Prop := ∃ t, o = .next t ∧ s.SameMap t

section Commands

variable {s : State}

theorem State.SameMap.next {t : State} (h : s.SameMap t) : s.NextSameMap (.next t) := ⟨t, rfl, h⟩

theorem State.NextSameMap.of_eq {t : State} {o : Host.Outcome State Fault Refusal} (h : s.NextSameMap o) (ht : o = .next t) :
    s.SameMap t := by
  obtain ⟨u, rfl, hsame⟩ := h
  cases ht
  exact hsame

variable (s)

theorem execPrrResetDone_sameMap (p : Part) (us : BitVec 16) : s.NextSameMap (execPrrResetDone p us s) := by
  unfold execPrrResetDone
  split
  · exact (State.SameMap.refl s).next
  · refine State.SameMap.next ?_
    refine .trans ?_ (heldOrders_sameMap ..)
    refine .each ?_ fun v e => (digVerify_only ..).sameMap rfl
    refine .step ?_ (modHeal_only ..) rfl
    refine .modRstc ?_ fun _ => rfl
    refine .step ?_ (unfenceQueues_only ..) rfl
    refine .step ?_ (setPartMode_only ..) rfl
    refine .step ?_ (updPart_only ..) rfl
    refine .each ?_ fun v pt => ((resetTile_only ..).sameMap rfl).step (updTile_only ..) rfl
    refine .each ?_ resetEngine_sameMap
    refine .step ?_ (endWindows_only ..) rfl
    exact ((loseEntries_only ..).sameMap rfl).step (dropLatches_only ..) rfl

theorem execOrderlyResetAssert_sameMap (h : ∀ o, s.rstc.orderly = some o → o.level ≠ .por) :
    s.NextSameMap (execOrderlyResetAssert s) := by
  unfold execOrderlyResetAssert
  split
  · exact (State.SameMap.refl s).next
  · next o ho =>
    split
    · exact (assertReset_sameMap s (h o ho) ..).next
    · exact (State.SameMap.refl s).next

theorem execResetRelease_sameMap : s.NextSameMap (execResetRelease s) := by
  unfold execResetRelease
  split
  · split
    · exact (State.SameMap.refl s).next
    · exact (startBu0_sameMap s).next
  · refine State.SameMap.next ?_
    refine .step ?_ (startStage_only ..) rfl
    refine .step ?_ (modBrup_only ..) rfl
    exact .modRstc (.refl s) fun _ => rfl
  · exact (State.SameMap.refl s).next

theorem execPwrgdRise_sameMap : s.NextSameMap (execPwrgdRise s) := by
  unfold execPwrgdRise
  split
  · refine State.SameMap.next ?_
    refine .step ?_ (bringUpDomains_only ..) rfl
    exact .modRstc (.refl s) fun _ => rfl
  · exact (State.SameMap.refl s).next

theorem execPorRelease_sameMap (p : PorSeen) : s.NextSameMap (execPorRelease p s) := by
  unfold execPorRelease
  split
  · exact (State.SameMap.refl s).next
  · split
    · exact (State.SameMap.refl s).next
    · split
      · refine State.SameMap.next ?_
        exact .modRstc (.refl s) fun _ => rfl
      · refine State.SameMap.next ?_
        refine .trans ?_ (startBu0_sameMap _)
        refine .step ?_ (modPwr_only ..) rfl
        refine .step ?_ (modGov_only ..) rfl
        exact .modRstc (.refl s) fun _ => rfl

theorem execSupplyRestore_sameMap : s.NextSameMap (execSupplyRestore s) := by
  unfold execSupplyRestore
  split
  · exact (State.SameMap.refl s).next
  · refine State.SameMap.next ?_
    refine .step ?_ (bringUpDomains_only ..) rfl
    exact .modRstc (.refl s) fun _ => rfl

theorem execSysrstNAssert_sameMap : s.NextSameMap (execSysrstNAssert s) := by
  have hpin : s.SameMap (s.modRstc fun r => { r with sysrstLow := true }) := .modRstc (.refl s) fun _ => rfl
  unfold execSysrstNAssert
  extract_lets u
  split
  · exact hpin.next
  · exact (hpin.trans (requestReset_sameMap _ (by decide) ..)).next

theorem execSysrstNRelease_sameMap : s.NextSameMap (execSysrstNRelease s) := by
  have hpin : s.SameMap (s.modRstc fun r => { r with sysrstLow := false }) := .modRstc (.refl s) fun _ => rfl
  unfold execSysrstNRelease
  extract_lets u
  split
  · exact (hpin.trans (startBu0_sameMap _)).next
  · exact hpin.next

theorem execMcWatchdogExpire_sameMap : s.NextSameMap (execMcWatchdogExpire s) := by
  unfold execMcWatchdogExpire
  split
  · exact (requestReset_sameMap s (by decide) ..).next
  · exact (State.SameMap.refl s).next

theorem execMcLockstepFail_sameMap (x y : Word) : s.NextSameMap (execMcLockstepFail x y s) := by
  have hflag (v : State) : v.SameMap (if v.relx.retState = .none then (v.setRetireFlag 5).attn .retire
      else v.setRetireFlag v.relx.retCause) := by
    split
    · exact ((setRetireFlag_only ..).sameMap rfl).step (attn_only ..) rfl
    · exact (setRetireFlag_only ..).sameMap rfl
  unfold execMcLockstepFail
  split
  · exact (State.SameMap.refl s).next
  · refine State.SameMap.next ?_
    refine .trans ?_ (requestReset_sameMap _ (by decide) ..)
    refine .step ?_ (placeAll_only ..) rfl
    refine .trans ?_ (hflag _)
    exact ((record_only ..).sameMap rfl).step (causeRecord_only ..) rfl

theorem execLcFuseWriteDone_sameMap : s.NextSameMap (execLcFuseWriteDone s) := by
  unfold execLcFuseWriteDone
  split
  · exact (State.SameMap.refl s).next
  · refine State.SameMap.next ?_
    refine .trans ?_ (requestReset_sameMap _ (by decide) ..)
    exact ((writeLcFuses_only ..).sameMap rfl).step (modSec_only ..) rfl

theorem execBlkResetDone_sameMap (l : BitVec 2) (n : Nat) : s.NextSameMap (execBlkResetDone l n s) := by
  unfold execBlkResetDone
  extract_lets mine u wake
  have hu : s.SameMap u := .modRstc (.refl s) fun _ => rfl
  have hwake (v : State) (pts : List Nat) : v.SameMap (wake v pts) := .each (.refl v) fun _ _ => (updTile_only ..).sameMap rfl
  split
  · exact (State.SameMap.refl s).next
  · split
    · exact (hu.trans (hwake ..)).next
    · exact (hu.trans (hwake ..)).next
    · exact (((hu.trans (hwake ..)).step (updPart_only ..) rfl).step (unfenceQueues_only ..) rfl).next

theorem execStageBu0_sameMap (b : Bool) : s.NextSameMap (execStageBu0 b s) := by
  unfold execStageBu0
  split
  · exact (State.SameMap.refl s).next
  · split
    · exact ((failStage_only ..).sameMap rfl).next
    · refine State.SameMap.next ?_
      refine .when ?_ fun v => (startStage_only ..).sameMap rfl
      refine .step ?_ (passStage_only ..) rfl
      refine .when ?_ fun v => .modRstc ((restoreChest_only ..).sameMap rfl) fun _ => rfl
      refine .step ?_ (modSec_only ..) rfl
      refine .step ?_ (modClk_only ..) rfl
      refine .step ?_ (modPwr_only ..) rfl
      refine .step ?_ (modRelx_only ..) rfl
      exact (modBrup_only ..).sameMap rfl

theorem execStageBu1_sameMap (b : Bool) : s.NextSameMap (execStageBu1 b s) := by
  unfold execStageBu1
  split
  · exact (State.SameMap.refl s).next
  · extract_lets img
    split
    · exact ((failStage_only ..).sameMap rfl).next
    · split
      · exact ((failStage_only ..).sameMap rfl).next
      · split
        · exact ((failStage_only ..).sameMap rfl).next
        · refine State.SameMap.next ?_
          refine .step ?_ (passStage_only ..) rfl
          refine .modRstc ?_ fun _ => rfl
          refine .step ?_ (modBrup_only ..) rfl
          refine .step ?_ (bootTriggers_only ..) rfl
          refine .step ?_ (bootLog_only ..) rfl
          refine .step ?_ (bootKeys_only ..) rfl
          refine .step ?_ (bootIdentity_only ..) rfl
          exact (modSec_only ..).sameMap rfl

theorem endWork_sameMap (old : State) (n : Nat) : s.SameMap (s.endWork old n) :=
  (only_endWork (fr := [.brup, .chest]) (.refl s _) fun _ h => h).sameMap rfl

theorem applyHealth_sameMap : s.SameMap s.applyHealth := by
  unfold State.applyHealth
  split
  · exact .refl s
  · refine .when ?_ fun v => (modFlash_only ..).sameMap rfl
    exact .modRstc (.refl s) fun _ => rfl

theorem execStageBu7_sameMap (f : TestFound) : s.NextSameMap (execStageBu7 f s) := by
  have hwindows (v : State) : v.SameMap ((v.each f.windows (·.faultyWindow ·)).loseHbm) :=
    .step (.each (.refl v) fun _ _ => (faultyWindow_only ..).sameMap rfl) (loseHbm_only ..) rfl
  unfold execStageBu7
  split
  · exact (State.SameMap.refl s).next
  · extract_lets old u n w
    have hu : s.SameMap u := .when (.refl s) fun v => (modBrup_only ..).sameMap rfl
    have hw : u.SameMap w := by
      unfold w
      clear_value n
      split
      · exact .refl u
      · exact (quickTest_only ..).sameMap rfl
      · exact .when ((fullTest_only ..).sameMap rfl) hwindows
    refine State.SameMap.next ?_
    refine .trans ?_ (endWork_sameMap ..)
    exact ((hu.trans hw).step (modBrup_only ..) rfl).trans (applyHealth_sameMap _)

theorem reportReady_sameMap : s.SameMap s.reportReady := by
  unfold State.reportReady
  refine .step ?_ (readyPins_only ..) rfl
  refine .step ?_ (applyAdvance_only ..) rfl
  refine .when ?_ fun v => (setReq_only ..).sameMap rfl
  refine .modRstc ?_ fun _ => rfl
  exact ((modBrup_only ..).sameMap rfl).step (modTop_only ..) rfl

theorem execStageBu9_sameMap (b : Bool) : s.NextSameMap (execStageBu9 b s) := by
  unfold execStageBu9
  split
  · exact (State.SameMap.refl s).next
  · split
    · exact ((failStage_only ..).sameMap rfl).next
    · refine State.SameMap.next ?_
      refine .trans ?_ (reportReady_sameMap _)
      exact ((bindMc_only ..).sameMap rfl).step (passStage_only ..) rfl

theorem execRegisterWrite_sameMap (acc : Accessor) (off len : Nat) (v : Word) :
    s.NextSameMap (execRegisterWrite acc off len v s) := by
  unfold execRegisterWrite
  split
  · exact (accWrite_sameMap ..).next
  · exact (State.SameMap.refl s).next

theorem execBar0MultiwordAccess_sameMap (acc : Accessor) (off : Nat) (m : MultiWord) :
    s.NextSameMap (execBar0MultiwordAccess acc off m s) := by
  cases m with
  | write ws =>
    unfold execBar0MultiwordAccess
    dsimp only
    split
    · exact (State.SameMap.refl s).next
    · refine State.SameMap.next (.each (.refl s) fun v x => ?_)
      split
      · exact accWrite_sameMap ..
      · exact .refl v
  | read full =>
    have hread : s.Only (full.zipIdx.foldl (readWord acc off) ([], s)).2 [.tel, .latches] :=
      only_foldl2 (.refl s _) fun _ _ h => only_readWord h fun _ hc => hc
    unfold execBar0MultiwordAccess
    dsimp only
    split
    · exact ((emit_only ..).sameMap rfl).next
    · exact ((hread.sameMap rfl).step (emit_only ..) rfl).next

theorem execPwrWake_sameMap (acc : Accessor) (byAllow : Bool) (v : Word) : s.NextSameMap (execPwrWake acc byAllow v s) := by
  unfold execPwrWake
  split <;> exact (accWrite_sameMap ..).next

/-- The signed commands for a system and a core reset. -/
theorem requestReset_done_sameMap {l : Level} (hl : l ≠ .por) (d : Datagram) (code : BitVec 8) :
    s.SameMap (s.mgmtCommand d code 1 fun v =>
      .done (v.changes d (v.requestReset l (mgmtSource d.port) false)) noBytes) := by
  refine mgmtCommand_sameMap s d code 1 ?_
  rintro u t b ⟨⟩
  exact changes_sameMap _ _ (requestReset_sameMap _ hl ..)

theorem execMgmtWriteReg_sameMap (d : Datagram) : s.NextSameMap (execMgmtWriteReg d s) := by
  refine State.SameMap.next (mgmtCommand_sameMap s d _ _ fun u t b hdone => ?_)
  split at hdone
  · contradiction
  · cases hdone
    exact changes_sameMap _ _ (bar0Write_sameMap ..)

theorem execScriptWrite_sameMap : s.NextSameMap (execScriptWrite s) :=
  (runRecord_sameMap s 1 fun _ _ => seqWrite_sameMap ..).next

theorem execScriptModify_sameMap : s.NextSameMap (execScriptModify s) :=
  (runRecord_sameMap s 2 fun _ _ => ((bar0Read_only ..).sameMap rfl).trans (seqWrite_sameMap ..)).next

end Commands

end Sys2Proof.Machine
end

section
/-!
PROOFS. The remap tables from one POR to the next (03 R121; 11 R618): BU6 loads them once, and only POR takes the mark away.
-/

namespace Sys2Proof.Machine

/-! ## BU6 -/

/-- The remap table that a list of bad tiles gives: the 16 slots go to the good tiles in order, then to the bad ones. -/
def tableWithout (bad : List Nat) : List (BitVec 5) :=
  ((((List.range 18).filter fun i => !bad.contains i) ++ bad).take 16).map (BitVec.ofNat 5)

/-- The tables of all clusters are loaded, and marked as loaded. -/
def State.loadTables (s : State) : State := s.mapChip.modRstc fun r => { r with mapped := true }

/-- A frame that leaves out the parts that the bad tiles are read from. -/
def offYield (cs : List Comp) : Bool := !cs.contains .flash && !cs.contains .fuse

section YieldMap

variable {s t : State} {cs : List Comp}

theorem State.Only.badIdx (h : s.Only t cs) (k : Nat) (hcs : offYield cs = true) : t.badIdx k = s.badIdx k := by
  obtain ⟨hflash, hfuse⟩ : .flash ∉ cs ∧ .fuse ∉ cs := by simpa [offYield] using hcs
  unfold State.badIdx State.healthNow
  rw [h.flash hflash, h.fuse hfuse]

theorem each_badIdx {α : Type} {f : State → α → State} {k : Nat} (hf : ∀ v x, (f v x).badIdx k = v.badIdx k) (xs : List α)
    (s : State) : (s.each xs f).badIdx k = s.badIdx k := by
  unfold State.each
  induction xs generalizing s with
  | nil => rfl
  | cons x xs ih => exact (ih (f s x)).trans (hf s x)

variable (s) (c k : Nat)

theorem setRetireFlag_badIdx (cause : BitVec 4) : (s.setRetireFlag cause).badIdx k = s.badIdx k := rfl

theorem retireCause_badIdx (cause : BitVec 4) : (s.retireCause cause).badIdx k = s.badIdx k := by
  unfold State.retireCause
  extract_lets u
  have hu : u.badIdx k = s.badIdx k := (modBist_only ..).badIdx k rfl
  rw [← hu]
  split
  · exact (causeRecord_only ..).badIdx k rfl
  · split
    · rw [(retired_only ..).badIdx k rfl, (causeRecord_only ..).badIdx k rfl, setRetireFlag_badIdx]
    · split
      · rw [(causeRecord_only ..).badIdx k rfl, (modHealx_only ..).badIdx k rfl]
      · rw [(causeRecord_only ..).badIdx k rfl, (drainNow_only ..).badIdx k rfl]

theorem lostCheck_badIdx (before : List Nat) : (s.lostCheck c before).badIdx k = s.badIdx k := by
  have hrecords (xs : List Nat) : (s.each xs fun v _ => v.variantRecord c 0).badIdx k = s.badIdx k :=
    each_badIdx (fun _ _ => (variantRecord_only ..).badIdx k rfl) ..
  unfold State.lostCheck State.when
  extract_lets lost
  dsimp only
  split
  · exact (retireCause_badIdx ..).trans (hrecords _)
  · exact hrecords _

theorem mapCluster_badIdx : (s.mapCluster c).badIdx k = s.badIdx k := by
  unfold State.mapCluster
  extract_lets bad good serve remap u v
  split
  · rfl
  · have hroles : v.badIdx k = u.badIdx k := each_badIdx (fun _ _ => (updRole_only ..).badIdx k rfl) ..
    rw [lostCheck_badIdx, hroles, (updClus_only ..).badIdx k rfl]

/-- A cluster with bad tiles gets its table, and no other cluster's table changes. -/
theorem mapCluster_remap :
    ((s.mapCluster c).clus k).remap = if k = c ∧ s.badIdx c ≠ [] then tableWithout (s.badIdx c) else (s.clus k).remap := by
  unfold State.mapCluster
  extract_lets bad good serve remap u v
  split
  · next h => rw [if_neg fun hk => hk.2 h]
  · next h =>
    have hremap : remap.map (BitVec.ofNat 5) = tableWithout bad := by
      unfold remap serve good tableWithout
      rw [List.take_append, List.length_take]
      congr 3
      omega
    have hv : u.SameMap v := .each (.refl u) fun _ _ => (updRole_only ..).sameMap rfl
    rw [((lostCheck_only ..).sameMap rfl).remap k, hv.remap k, updClus_clus]
    by_cases hk : k = c
    · rw [if_pos hk, if_pos ⟨hk, h⟩]
      exact hremap
    · rw [if_neg hk, if_neg fun hkc => hk hkc.1]

theorem each_mapCluster_remap {k : Nat} (hbad : s.badIdx k ≠ []) (xs : List Nat) :
    ((s.each xs (·.mapCluster ·)).clus k).remap = if k ∈ xs then tableWithout (s.badIdx k) else (s.clus k).remap := by
  unfold State.each
  induction xs generalizing s with
  | nil => rfl
  | cons x xs ih =>
    have hx := mapCluster_badIdx s x k
    rw [List.foldl_cons, ih _ (by rwa [hx]), hx, mapCluster_remap]
    by_cases hk : k = x
    · subst hk
      simp [hbad]
    · simp [hk]

theorem loadTables_remap {k : Nat} (hk : k < 128) (hbad : s.badIdx k ≠ []) :
    (s.loadTables.clus k).remap = tableWithout (s.badIdx k) := by
  unfold State.loadTables State.mapChip
  extract_lets cur u v
  have hv : v.badIdx k = s.badIdx k :=
    ((modBist_only ..).badIdx k rfl).trans ((modRstc_only ..).badIdx k rfl)
  exact (each_mapCluster_remap v (by rwa [hv]) _).trans (by rw [if_pos (List.mem_range.mpr hk), hv])

end YieldMap

section Bu6

variable (s : State)

/-- A BU6 that has the yield map loads the tables unless they are loaded, and then leaves them. -/
theorem execStageBu6_tables (hrun : s.stageRuns 6 = true) (hcold : s.brup.restart = false) (hyield : s.flash.yieldOk = true) :
    ∃ t, execStageBu6 none s = .next t ∧ (s.when (!s.rstc.mapped) (·.loadTables)).SameMap t := by
  unfold execStageBu6
  rw [if_neg (by simp [hrun])]
  simp only [hcold, hyield, Bool.false_eq_true, if_false, Bool.true_eq_false]
  refine ⟨_, rfl, ?_⟩
  refine .trans ?_ (endWork_sameMap ..)
  refine .step ?_ (releaseTiles_only ..) rfl
  refine .step ?_ (extendLog_only ..) rfl
  refine .step ?_ (modFree_only ..) rfl
  refine .step ?_ (modBrup_only ..) rfl
  refine .step ?_ (modBist_only ..) rfl
  exact (loadAges_only ..).sameMap rfl

/-- Once the tables are loaded, BU6 leaves them. -/
theorem execStageBu6_sameMap (b : Option Part) (h : s.rstc.mapped = true) : s.NextSameMap (execStageBu6 b s) := by
  by_cases htables : s.stageRuns 6 = true ∧ b = none ∧ s.brup.restart = false ∧ s.flash.yieldOk = true
  · obtain ⟨hrun, rfl, hcold, hyield⟩ := htables
    obtain ⟨t, ht, hsame⟩ := execStageBu6_tables s hrun hcold hyield
    rw [ht]
    simp only [h] at hsame
    exact hsame.next
  unfold execStageBu6
  split
  · exact (State.SameMap.refl s).next
  · next hrun =>
    split
    · exact ((failStage_only ..).sameMap rfl).next
    · split
      · extract_lets back old u v
        refine State.SameMap.next ?_
        refine .step ?_ (passStage_only ..) rfl
        refine .step ?_ (releaseTiles_only ..) rfl
        refine .each ?_ fun v p => (hbmOn_only ..).sameMap rfl
        refine .step ?_ (rebudget_only ..) rfl
        exact ((modPwr_only ..).sameMap rfl).step (modGov_only ..) rfl
      · next hcold =>
        split
        · exact ((failStage_only ..).sameMap rfl).next
        · next hyield =>
          exact absurd ⟨by simpa using hrun, rfl, by simpa using hcold, by simpa using hyield⟩ htables

end Bu6

/-! ## The mark and POR -/

/-- A command keeps the mark that the tables are loaded, or leaves the chip in POR. -/
def State.KeepsMapped (s : State) (o : Host.Outcome State Fault Refusal) : Prop :=
  ∀ t, o = .next t → s.rstc.mapped = true → t.rstc.mapped = true ∨ t.rstc.inReset = some .por

section Por

variable {s : State} {o : Host.Outcome State Fault Refusal} {cs : List Comp}

theorem State.NextSameMap.keepsMapped (h : s.NextSameMap o) : s.KeepsMapped o := fun _ ht hm => .inl ((h.of_eq ht).mapped.trans hm)

theorem State.NextOnly.keepsMapped (h : s.NextOnly o cs) (hr : cs.contains .rstc = false) : s.KeepsMapped o := by
  obtain ⟨u, rfl, honly⟩ := h
  rintro t ⟨⟩ hm
  left
  rw [honly.rstc (by simpa using hr), hm]

theorem keepsMapped_of_por {t : State} (h : t.rstc.inReset = some .por) : s.KeepsMapped (.next t) := by
  rintro u ⟨⟩ -
  exact .inr h

variable (s)

theorem assertReset_por_inReset (src : BitVec 4) (promoted : Bool) :
    (s.assertReset .por src promoted).rstc.inReset = some .por := rfl

theorem assertReset_por_mapped (src : BitVec 4) (promoted : Bool) :
    (s.assertReset .por src promoted).rstc.mapped = false := rfl

theorem execPor_keepsMapped : s.KeepsMapped (execPor s) := by
  unfold execPor
  extract_lets u
  split
  · next h => exact keepsMapped_of_por h
  · exact keepsMapped_of_por (assertReset_por_inReset ..)

theorem execSupplyMonitorTrip_keepsMapped : s.KeepsMapped (execSupplyMonitorTrip s) := by
  unfold execSupplyMonitorTrip
  extract_lets u v
  refine keepsMapped_of_por (t := v.modPwr _) ?_
  unfold v
  split
  · next h => exact h
  · exact assertReset_por_inReset u 2 false

theorem execChestCopyDone_keepsMapped : s.KeepsMapped (execChestCopyDone s) := by
  unfold execChestCopyDone
  split
  · exact (State.SameMap.refl s).next.keepsMapped
  · extract_lets u
    split
    · exact keepsMapped_of_por (assertReset_por_inReset ..)
    · exact ((finishCopy_only ..).sameMap rfl).next.keepsMapped

theorem execOrderlyResetAssert_keepsMapped : s.KeepsMapped (execOrderlyResetAssert s) := by
  by_cases h : ∀ o, s.rstc.orderly = some o → o.level ≠ .por
  · exact (execOrderlyResetAssert_sameMap s h).keepsMapped
  · push Not at h
    obtain ⟨o, ho, hpor⟩ := h
    unfold execOrderlyResetAssert
    rw [ho]
    dsimp only
    split
    · exact keepsMapped_of_por (by rw [hpor, assertReset_por_inReset])
    · exact (State.SameMap.refl s).next.keepsMapped

theorem execStageBu6_keepsMapped (b : Option Part) : s.KeepsMapped (execStageBu6 b s) :=
  fun t ht hm => (execStageBu6_sameMap s b hm).keepsMapped t ht hm

theorem execPor_mapped {t : State} (h : s.rstc.inReset ≠ some .por) (ht : execPor s = .next t) : t.rstc.mapped = false := by
  unfold execPor at ht
  extract_lets u at ht
  rw [if_neg (show u.rstc.inReset ≠ some .por from h)] at ht
  cases ht
  exact assertReset_por_mapped ..

/-- Every command keeps the mark that the tables are loaded, or leaves the chip in POR: a frame without RSTC keeps it, and each
command that changes RSTC is one of those above. -/
theorem exec_keepsMapped (c : Instr) : s.KeepsMapped (exec c s) := by
  cases c with
  | registerWrite => exact (execRegisterWrite_sameMap ..).keepsMapped
  | bar0MultiwordAccess => exact (execBar0MultiwordAccess_sameMap ..).keepsMapped
  | pwrWake => exact (execPwrWake_sameMap ..).keepsMapped
  | fretDomainWrite | flightRemeasure | clkChangeGo | clkHalfSet | clkHalfRestore | lpFlush | kvpEnable | connOpen | connClose
  | queueBind | queueUnbind | fabPortDisable | nqHeadWrite | rxConsume | ownerClaim | ownerRelease | ownerGive | digestEnable
  | digestDisable | digestVerify | digestCfgWrite | healFence | healRotate | healPartitionRecovery | twinAttachSource
  | twinAttachSink | twinDetach | rstcReqCore | rstcReqSystem | blkMaintenanceReset | blkRecoveryReset | brupStartStage
  | brupPause | brupResume | brupBootPushed | brupProgram | pwrParkNow | budgetWrite | pegRetuneAll | lcTransitionRequest
  | idGenerate | opkWrite | opkErase | quoteRequest | shutdownTestStart =>
    exact (accWrite_sameMap ..).next.keepsMapped
  | mgmtSystemReset => exact (requestReset_done_sameMap s (by decide) ..).next.keepsMapped
  | mgmtCoreReset => exact (requestReset_done_sameMap s (by decide) ..).next.keepsMapped
  | mgmtWriteReg => exact (execMgmtWriteReg_sameMap ..).keepsMapped
  | scriptWrite => exact (execScriptWrite_sameMap ..).keepsMapped
  | scriptModify => exact (execScriptModify_sameMap ..).keepsMapped
  | prrResetDone => exact (execPrrResetDone_sameMap ..).keepsMapped
  | resetRelease => exact (execResetRelease_sameMap ..).keepsMapped
  | pwrgdRise => exact (execPwrgdRise_sameMap ..).keepsMapped
  | porRelease => exact (execPorRelease_sameMap ..).keepsMapped
  | supplyRestore => exact (execSupplyRestore_sameMap ..).keepsMapped
  | sysrstNAssert => exact (execSysrstNAssert_sameMap ..).keepsMapped
  | sysrstNRelease => exact (execSysrstNRelease_sameMap ..).keepsMapped
  | mcWatchdogExpire => exact (execMcWatchdogExpire_sameMap ..).keepsMapped
  | mcLockstepFail => exact (execMcLockstepFail_sameMap ..).keepsMapped
  | lcFuseWriteDone => exact (execLcFuseWriteDone_sameMap ..).keepsMapped
  | blkResetDone => exact (execBlkResetDone_sameMap ..).keepsMapped
  | stageBu0 => exact (execStageBu0_sameMap ..).keepsMapped
  | stageBu1 => exact (execStageBu1_sameMap ..).keepsMapped
  | stageBu6 b => exact execStageBu6_keepsMapped s b
  | stageBu7 => exact (execStageBu7_sameMap ..).keepsMapped
  | stageBu9 => exact (execStageBu9_sameMap ..).keepsMapped
  | orderlyResetAssert => exact execOrderlyResetAssert_keepsMapped s
  | por => exact execPor_keepsMapped s
  | supplyMonitorTrip => exact execSupplyMonitorTrip_keepsMapped s
  | chestCopyDone => exact execChestCopyDone_keepsMapped s
  | _ => exact (exec_frame _ s).keepsMapped rfl

end Por

/-- Settles O57: a reset short of POR, and BU6 once the tables are loaded, leaves every table and the mark that they are loaded; POR
takes the mark away, and the BU6 after it writes the table of each cluster with bad tiles. -/
theorem remapTablesOutliveResets : Obligations.RemapTablesOutliveResets := by
  refine ⟨?_, ?_, ?_, ?_, ?_, ?_, ?_, ?_, ?_, ?_, ?_, ?_⟩
  · exact fun s t k _ h => ((execSysrstNAssert_sameMap s).of_eq h).remap k
  · exact fun s t k h => ((execMcWatchdogExpire_sameMap s).of_eq h).remap k
  · exact fun s t k h hl => ((execOrderlyResetAssert_sameMap s hl).of_eq h).remap k
  · exact fun s t k acc v h => ((accWrite_sameMap ..).next.of_eq h).remap k
  · exact fun s t k acc v h => ((accWrite_sameMap ..).next.of_eq h).remap k
  · exact fun s t k b hm h => ((execStageBu6_sameMap s b hm).of_eq h).remap k
  · exact fun s t k l n h => ((execBlkResetDone_sameMap s l n).of_eq h).remap k
  · exact fun s t k p us h => ((execPrrResetDone_sameMap s p us).of_eq h).remap k
  · exact fun s t k x y h => ((execMcLockstepFail_sameMap s x y).of_eq h).remap k
  · exact fun c s t h hm => exec_keepsMapped s c t h hm
  · exact fun s t h ht => execPor_mapped s h ht
  · intro s k hk hrun hcold hm hyield hbad
    obtain ⟨t, ht, hsame⟩ := execStageBu6_tables s hrun hcold hyield
    rw [hm] at hsame
    exact ⟨t, ht, hsame.mapped, (hsame.remap k).trans (loadTables_remap s hk hbad)⟩

end Sys2Proof.Machine
end

section
/-!
The order in which a channel controller starts requests (05 R266, R267): one equation of `State.arbitrate` for each row of the rule's
table, what a request chosen over a scheduled one can be, and O38.
-/

namespace Sys2Proof.Machine

/-! ## What the scheduled order holds -/

theorem mem_insertByDeadline (s : State) (r x : HbmReq) (q : List HbmReq) :
    x ∈ s.insertByDeadline r q ↔ x = r ∨ x ∈ q := by
  induction q with
  | nil => simp [State.insertByDeadline]
  | cons y ys ih =>
    unfold State.insertByDeadline
    split
    · simp
    · simp [ih, or_left_comm]

theorem mem_foldl_insertByDeadline (s : State) (x : HbmReq) (rs q : List HbmReq) :
    x ∈ rs.foldl (fun q r => s.insertByDeadline r q) q ↔ x ∈ q ∨ x ∈ rs := by
  induction rs generalizing q with
  | nil => simp
  | cons r rs ih => rw [List.foldl_cons, ih, mem_insertByDeadline, List.mem_cons, or_comm (a := x = r), or_assoc]

/-- The deadline order arranges the scheduled requests of the pseudo-channel, and holds no other. -/
theorem mem_schedOrder (s : State) (p pc : Nat) (x : HbmReq) :
    x ∈ s.schedOrder p pc ↔ x ∈ (s.part p).queue ∧ x.pc = pc ∧ x.cls = .scheduled := by
  simp [State.schedOrder, mem_foldl_insertByDeadline]

/-! ## The rows of R266 -/

/-- The queued requests of a class at a pseudo-channel, in arrival order (05 R263). -/
def State.queued (s : State) (p pc : Nat) (c : ReqClass) : List HbmReq :=
  (s.part p).queue.filter fun r => decide (r.pc = pc) && decide (r.cls = c)

theorem mem_queued (s : State) (p pc : Nat) (c : ReqClass) (x : HbmReq) :
    x ∈ s.queued p pc c ↔ x ∈ (s.part p).queue ∧ x.pc = pc ∧ x.cls = c := by
  simp [State.queued]

/-- The locality candidate with the earliest deadline in `q`, where moving it to the front endangers no request (05 R266). -/
def State.localPick (s : State) (p pc cycle : Nat) (hits : List Nat) (q : List HbmReq) : Option HbmReq :=
  (q.find? fun r => hits.contains r.id && decide (Tab.find (s.part p).lastDir pc = some r.write)).filter fun r =>
    !s.endangered p cycle 0 (r :: q.filter fun x => decide (x.id ≠ r.id))

/-- The oldest unscheduled request once it has waited 256 frets, where serving it before `q` endangers no request (05 R266). -/
def State.overduePick (s : State) (p pc cycle : Nat) (q : List HbmReq) : Option HbmReq :=
  (s.queued p pc .unscheduled).head?.filter fun u => decide (u.arrived + 256 ≤ s.now) && !s.endangered p cycle 1 q

section Rows
variable {s : State} {p pc cycle : Nat} {hits : List Nat}

theorem arbitrate_of_nil (hq : s.schedOrder p pc = []) :
    s.arbitrate p pc cycle hits =
      ((s.queued p pc .unscheduled).head?.or (s.queued p pc .speculative).head?, false) := by
  simp only [State.arbitrate, hq, State.queued]
  split
  next hu => simp [hu]
  next hu => simp [hu]

variable {h : HbmReq} {q : List HbmReq}

theorem arbitrate_of_endangered (hq : s.schedOrder p pc = h :: q) (he : s.endangered p cycle 0 (h :: q) = true) :
    s.arbitrate p pc cycle hits = (some h, true) := by
  simp only [State.arbitrate, hq, he, if_true]

theorem arbitrate_of_safe (hq : s.schedOrder p pc = h :: q) (he : s.endangered p cycle 0 (h :: q) = false) :
    s.arbitrate p pc cycle hits =
      (some (((s.localPick p pc cycle hits (h :: q)).or (s.overduePick p pc cycle (h :: q))).getD h), false) := by
  simp only [State.arbitrate, hq, he, Bool.false_eq_true, if_false, State.localPick, State.overduePick, State.queued]
  split
  next hl => rw [hl, Option.some_or, Option.getD_some]
  next hl ho => rw [hl, ho, Option.none_or, Option.getD_some]
  next hl ho => rw [hl, ho, Option.none_or, Option.getD_none]

/-! ## What the picks can be -/

/-- With no row open there is no locality candidate. -/
theorem localPick_no_hits : s.localPick p pc cycle [] q = none := by
  rw [State.localPick, List.find?_eq_none.2 (by simp), Option.filter_none]

theorem overduePick_eq_none (hw : ∀ u ∈ s.queued p pc .unscheduled, s.now < u.arrived + 256) :
    s.overduePick p pc cycle q = none := by
  rw [State.overduePick, Option.filter_eq_none_iff]
  intro u hu
  have := hw u (List.mem_of_head? hu)
  simp [this]

theorem mem_of_localPick {r : HbmReq} (hr : s.localPick p pc cycle hits q = some r) : r ∈ q :=
  List.mem_of_find?_eq_some (Option.filter_eq_some_iff.1 hr).1

theorem mem_of_overduePick {r : HbmReq} (hr : s.overduePick p pc cycle q = some r) : r ∈ s.queued p pc .unscheduled :=
  List.mem_of_head? (Option.filter_eq_some_iff.1 hr).1

/-- Over a queued scheduled request only another scheduled request or an unscheduled one is chosen. -/
theorem arbitrate_mem_of_cons (hq : s.schedOrder p pc = h :: q) {r : HbmReq}
    (hr : (s.arbitrate p pc cycle hits).1 = some r) :
    r ∈ s.schedOrder p pc ∨ r ∈ s.queued p pc .unscheduled := by
  rw [hq]
  cases he : s.endangered p cycle 0 (h :: q) with
  | true =>
    rw [arbitrate_of_endangered hq he] at hr
    obtain rfl := Option.some.inj hr
    exact .inl List.mem_cons_self
  | false =>
    rw [arbitrate_of_safe hq he] at hr
    obtain rfl := Option.some.inj hr
    cases hl : s.localPick p pc cycle hits (h :: q) with
    | some x => exact .inl (mem_of_localPick hl)
    | none =>
      cases ho : s.overduePick p pc cycle (h :: q) with
      | some u => exact .inr (mem_of_overduePick ho)
      | none => exact .inl List.mem_cons_self

end Rows

/-- R267: with a scheduled request queued, no speculative one starts. -/
theorem arbitrate_not_speculative {s : State} {p pc cycle : Nat} {hits : List Nat} {r : HbmReq}
    (hq : s.schedOrder p pc ≠ []) (hr : (s.arbitrate p pc cycle hits).1 = some r) : r.cls ≠ .speculative := by
  obtain ⟨h, q, hcons⟩ := List.exists_cons_of_ne_nil hq
  obtain hs | hu := arbitrate_mem_of_cons hcons hr
  · obtain ⟨-, -, hc⟩ := (mem_schedOrder s p pc r).1 hs
    simp [hc]
  · obtain ⟨-, -, hc⟩ := (mem_queued s p pc .unscheduled r).1 hu
    simp [hc]

/-- Settles O38: the rows of R266, with neither pick of the middle rows possible in the fourth clause, and R267. -/
theorem controllersChooseByDeadline : Obligations.ControllersChooseByDeadline := by
  refine ⟨?unscheduled, ?speculative, fun s p pc cycle hits h q => arbitrate_of_endangered, ?head,
    fun s p pc cycle hits r => arbitrate_not_speculative⟩
  case unscheduled =>
    intro s p pc cycle hits u us hq hu
    have hu : s.queued p pc .unscheduled = u :: us := hu
    simp [arbitrate_of_nil hq, hu]
  case speculative =>
    intro s p pc cycle hits hq hu
    have hu : s.queued p pc .unscheduled = [] := hu
    rw [arbitrate_of_nil hq, hu]
    rfl
  case head =>
    intro s p pc cycle h q hq he hw
    have hnone : s.overduePick p pc cycle (h :: q) = none := overduePick_eq_none fun u hu => by
      obtain ⟨hm, hpc, hc⟩ := (mem_queued s p pc .unscheduled u).1 hu
      exact hw u hm hpc hc
    simp [arbitrate_of_safe hq he, localPick_no_hits, hnone]

end Sys2Proof.Machine
end

section
/-!
PROOFS. What keeps the field-scan marks in flash and the state of the scan session (14 R685 to R688). An operation whose frame holds
neither `flash` nor `sec` keeps both by its frame; the others are taken apart here, and below the commands that reach them.
-/

namespace Sys2Proof.Machine

/-- Two states agree in the number of field-scan marks in flash and in the state of the scan session (14 R685 to R688). -/
structure State.SameScan (s t : State) : Prop where
  marks : t.flash.marks = s.flash.marks
  scan : t.sec.scan = s.sec.scan

/-- A frame that leaves out the parts that hold the marks and the scan session. -/
def offScan (cs : List Comp) : Bool := !cs.contains .flash && !cs.contains .sec

section SameScan

variable {s t u : State} {cs : List Comp}

theorem State.SameScan.refl (s : State) : s.SameScan s := ⟨rfl, rfl⟩

theorem State.SameScan.trans (h : s.SameScan t) (k : t.SameScan u) : s.SameScan u :=
  ⟨k.marks.trans h.marks, k.scan.trans h.scan⟩

theorem State.Only.sameScan (h : s.Only t cs) (hcs : offScan cs = true) : s.SameScan t := by
  obtain ⟨hflash, hsec⟩ : .flash ∉ cs ∧ .sec ∉ cs := by simpa [offScan] using hcs
  exact ⟨by rw [h.flash hflash], by rw [h.sec hsec]⟩

/-- A change of parts of the state that hold neither the marks nor the scan session. -/
theorem State.SameScan.step (h : s.SameScan t) (k : t.Only u cs) (hcs : offScan cs = true) : s.SameScan u :=
  h.trans (k.sameScan hcs)

theorem State.SameScan.each {α : Type} {f : State → α → State} {xs : List α} (h : s.SameScan t)
    (hf : ∀ (v : State) x, v.SameScan (f v x)) : s.SameScan (t.each xs f) := by
  unfold State.each
  induction xs generalizing t with
  | nil => exact h
  | cons x xs ih => exact ih (h.trans (hf t x))

theorem State.SameScan.when {c : Bool} {f : State → State} (h : s.SameScan t) (hf : ∀ v : State, v.SameScan (f v)) :
    s.SameScan (t.when c f) := by
  unfold State.when
  split
  · exact h.trans (hf t)
  · exact h

theorem State.SameScan.modFlash {f : FlashSt → FlashSt} (h : s.SameScan t) (hf : ∀ x, (f x).marks = x.marks) :
    s.SameScan (t.modFlash f) := h.trans ⟨hf t.flash, rfl⟩

theorem State.SameScan.modSec {f : SecSt → SecSt} (h : s.SameScan t) (hf : ∀ x, (f x).scan = x.scan) :
    s.SameScan (t.modSec f) := h.trans ⟨rfl, hf t.sec⟩

end SameScan

/-! ## Copies of the Chest, retirement and fences -/

section Retirement

variable (s : State)

theorem startCopy_sameScan (reason : BitVec 8) : s.SameScan (s.startCopy reason) := by
  unfold State.startCopy
  refine .step ?_ (modChest_only ..) rfl
  exact .modFlash (.refl s) fun _ => rfl

theorem copyRequest_sameScan (reason : BitVec 8) : s.SameScan (s.copyRequest reason) := by
  unfold State.copyRequest
  split
  · exact startCopy_sameScan ..
  · exact (modChest_only ..).sameScan rfl

theorem finishCopy_sameScan : s.SameScan s.finishCopy := by
  unfold State.finishCopy
  split
  · exact .refl s
  · extract_lets u v
    have hu : s.SameScan u := .modFlash (.refl s) fun _ => rfl
    have hv : s.SameScan v := hu.step (modChest_only ..) rfl
    split
    · exact (hv.step (modChest_only ..) rfl).trans (startCopy_sameScan ..)
    · exact hv

theorem placeOne_sameScan (east : Bool) : s.SameScan (s.placeOne east) := by
  unfold State.placeOne
  split
  · exact .refl s
  · exact .when ((modChest_only ..).sameScan rfl) fun v => ((attn_only ..).sameScan rfl).trans (copyRequest_sameScan ..)

theorem placeAll_sameScan (k : Nat) : s.SameScan (State.placeAll k s) := by
  induction k generalizing s with
  | zero => exact .refl s
  | succ k ih => exact (placeOne_sameScan ..).trans (ih _)

theorem setRetireFlag_sameScan (cause : BitVec 4) : s.SameScan (s.setRetireFlag cause) := by
  unfold State.setRetireFlag
  exact .modFlash ((modRelx_only ..).sameScan rfl) fun _ => rfl

theorem retireCause_sameScan (cause : BitVec 4) : s.SameScan (s.retireCause cause) := by
  unfold State.retireCause
  extract_lets u
  have hu : s.SameScan u := (modBist_only ..).sameScan rfl
  split
  · exact hu.step (causeRecord_only ..) rfl
  · split
    · exact ((hu.trans (setRetireFlag_sameScan ..)).step (causeRecord_only ..) rfl).step (retired_only ..) rfl
    · split
      · exact (hu.step (modHealx_only ..) rfl).step (causeRecord_only ..) rfl
      · exact (hu.step (drainNow_only ..) rfl).step (causeRecord_only ..) rfl

theorem lostCheck_sameScan (c : Nat) (before : List Nat) : s.SameScan (s.lostCheck c before) := by
  unfold State.lostCheck
  refine .when ?_ fun v => retireCause_sameScan ..
  exact .each (.refl s) fun v _ => (variantRecord_only ..).sameScan rfl

theorem fenceTile_sameScan (pt verdict : Nat) : s.SameScan (s.fenceTile pt verdict) := by
  unfold State.fenceTile
  extract_lets c before
  split
  · exact .refl s
  · split
    · exact (modHealx_only ..).sameScan rfl
    · refine .trans ?_ (lostCheck_sameScan ..)
      refine .step ?_ (recordAt_only ..) rfl
      refine .step ?_ (attn_only ..) rfl
      refine .step ?_ (modHeal_only ..) rfl
      refine .step ?_ (clearTransit_only ..) rfl
      exact ((updRole_only ..).sameScan rfl).step (updTile_only ..) rfl

theorem tileHang_sameScan (pt : Nat) : s.SameScan (s.tileHang pt) := by
  unfold State.tileHang
  extract_lets again spare
  split
  · exact fenceTile_sameScan ..
  · exact (updRole_only ..).sameScan rfl

theorem hangNamed_sameScan (part : Nat) (tile : Option Nat) : s.SameScan (s.hangNamed part tile) := by
  unfold State.hangNamed
  extract_lets code
  split
  · exact (modHealx_only ..).sameScan rfl
  · split
    · exact tileHang_sameScan ..
    · exact (startRecovery_only ..).sameScan rfl

theorem heldOrders_sameScan (p : Nat) : s.SameScan (s.heldOrders p) := by
  have hhang (v : State) (c : Nat) : v.SameScan (if c < 4096 then v.tileHang c else v.startRecovery (c - 4096)) := by
    split
    · exact tileHang_sameScan ..
    · exact (startRecovery_only ..).sameScan rfl
  unfold State.heldOrders
  extract_lets fences hangs u₁ u₂ u₃ u₄ rots u₅ u
  have hu : s.SameScan u := by
    refine .each ?_ fun v c => (markRotation_only ..).sameScan rfl
    refine .step ?_ (modHealx_only ..) rfl
    refine .each ?_ hhang
    refine .when ?_ fun v => (modHeal_only ..).sameScan rfl
    exact .each ((modHealx_only ..).sameScan rfl) fun v c => fenceTile_sameScan ..
  split
  · split
    · exact hu
    · exact (hu.step (modHealx_only ..) rfl).step (drainNow_only ..) rfl
  · exact hu

theorem endRecovery_sameScan (p : Nat) : s.SameScan (s.endRecovery p) := by
  unfold State.endRecovery
  split
  · exact .refl s
  · refine .when ?_ fun v => heldOrders_sameScan ..
    exact ((setPartMode_only ..).sameScan rfl).step (unfenceQueues_only ..) rfl

theorem moveSlot_sameScan (c slot new : Nat) : s.SameScan (s.moveSlot c slot new) := by
  unfold State.moveSlot
  refine .trans ?_ (lostCheck_sameScan ..)
  refine .step ?_ (modHeal_only ..) rfl
  refine .step ?_ (modFree_only ..) rfl
  refine .when ?_ fun v => ((updRole_only ..).sameScan rfl).step (updTile_only ..) rfl
  refine .step ?_ (updRole_only ..) rfl
  refine .step ?_ (updClus_only ..) rfl
  exact ((resetTile_only ..).sameScan rfl).step (updTile_only ..) rfl

theorem mapCluster_sameScan (c : Nat) : s.SameScan (s.mapCluster c) := by
  unfold State.mapCluster
  dsimp only
  split
  · exact .refl s
  · refine .trans ?_ (lostCheck_sameScan ..)
    exact .each ((updClus_only ..).sameScan rfl) fun v i => (updRole_only ..).sameScan rfl

theorem mapChip_sameScan : s.SameScan s.mapChip := by
  unfold State.mapChip
  exact .each (((modRstc_only ..).sameScan rfl).step (modBist_only ..) rfl) fun v c => mapCluster_sameScan ..

end Retirement

/-! ## Faults and tests -/

section Faults

variable (s : State)

theorem transitAct_sameScan (unit : Nat) : s.SameScan (s.transitAct unit) := by
  unfold State.transitAct
  split
  · exact fenceTile_sameScan ..
  · exact retireCause_sameScan ..
  · exact retireCause_sameScan ..
  · exact (fabDown_only ..).sameScan rfl

theorem countTransit_sameScan (unit : Nat) : s.SameScan (s.countTransit unit) := by
  unfold State.countTransit
  exact .when (((modRelx_only ..).sameScan rfl).step (modRel_only ..) rfl) fun v => transitAct_sameScan ..

theorem transitAt_sameScan (r : Router) (inPort : Nat) (bad : Option Nat) : s.SameScan (s.transitAt r inPort bad) := by
  unfold State.transitAt
  split
  · exact countTransit_sameScan ..
  · exact .refl s

theorem tileFault_sameScan (pt : Nat) (task : BitVec 32) (fold : Nat) (rt : FoldRt) (f : TileFault) :
    s.SameScan (s.tileFault pt task fold rt f) := by
  unfold State.tileFault
  cases f with
  | macPass | hammingPass | fp32 | duplicated =>
    exact (((modRel_only ..).sameScan rfl).step (updTile_only ..) rfl).step (detect_only ..) rfl
  | parityUse => exact ((modRel_only ..).sameScan rfl).step (detect_only ..) rfl
  | sramCorrected w => exact ((updTile_only ..).sameScan rfl).step (modRel_only ..) rfl
  | sramDouble w =>
    refine .trans ?_ (countTransit_sameScan ..)
    exact (((updTile_only ..).sameScan rfl).step (modRel_only ..) rfl).step (detect_only ..) rfl

theorem tileFaults_sameScan (pt : Nat) (task : BitVec 32) (fold : Nat) (rt : FoldRt) (fs : List TileFault) :
    s.SameScan (s.tileFaults pt task fold rt fs) := .each (.refl s) fun _ _ => tileFault_sameScan ..

theorem sendFlit_sameScan (r : Router) (x : RtWorm) (parityOk bad : Bool) : s.SameScan (s.sendFlit r x parityOk bad) := by
  unfold State.sendFlit
  extract_lets first last less u v
  have hv : s.SameScan v := by
    have hu : s.SameScan u := (updRouter_only ..).sameScan rfl
    unfold v
    split
    · exact hu.step (countHub_only ..) rfl
    · exact hu
  split
  · extract_lets w
    have hw : s.SameScan w := hv.trans (transitAt_sameScan ..)
    split
    · exact hw.step (headIn_only ..) rfl
    · split
      · exact hw.step (poisonIn_only ..) rfl
      · exact hw.step (flitsIn_only ..) rfl
  · exact (hv.when fun w => countTransit_sameScan ..).step (releaseArrive_only ..) rfl
  · exact (hv.step (countTx_only ..) rfl).when fun w => (emit_only ..).sameScan rfl
  · split
    · exact hv.step (releaseArrive_only ..) rfl
    · exact (hv.when fun w => (modMch_only ..).sameScan rfl).when fun w => (arrived_only ..).sameScan rfl
  · exact hv

theorem slotGo_sameScan (r : Router) (out pick : Nat) (parityOk bad : Bool) : s.SameScan (s.slotGo r out pick parityOk bad) := by
  unfold State.slotGo
  extract_lets xs
  split
  · exact (countStall_only ..).sameScan rfl
  · exact (((countStall_only ..).sameScan rfl).step (updRouter_only ..) rfl).trans (sendFlit_sameScan ..)

theorem slot_sameScan (r : Router) (out pick : Nat) (parityOk bad : Bool) : s.SameScan (s.slot r out pick parityOk bad) := by
  unfold State.slot
  split
  · split
    · exact slotGo_sameScan ..
    · exact (cutPort_only ..).sameScan rfl
  · exact slotGo_sameScan ..

theorem digDiverge_sameScan (n : Nat) : s.SameScan (s.digDiverge n) := by
  unfold State.digDiverge
  exact (((updDig_only ..).sameScan rfl).step (digRecord_only ..) rfl).trans (retireCause_sameScan ..)

theorem passState_sameScan (n : Nat) (d : BitVec 256) (tags : List (BitVec 64)) : s.SameScan (s.passState n d tags) := by
  unfold State.passState
  extract_lets x u m
  have hu : s.SameScan u := (updDig_only ..).sameScan rfl
  split
  · split
    · exact hu.step (digBad_only ..) rfl
    · exact (hu.step (updDig_only ..) rfl).step (digAgree_only ..) rfl
  · split
    · exact hu
    · exact (hu.step (updDig_only ..) rfl).step (digRecord_only ..) rfl
  · split
    · exact (hu.step (updDig_only ..) rfl).step (modRelx_only ..) rfl
    · split
      · exact (hu.step (digBad_only ..) rfl).trans (retireCause_sameScan ..)
      · exact (hu.step (updDig_only ..) rfl).step (digBad_only ..) rfl
  · exact hu

theorem faultyWindow_sameScan (e : Word) : s.SameScan (s.faultyWindow e) := by
  unfold State.faultyWindow
  extract_lets p k u
  have hu : s.SameScan u := by
    unfold u
    split
    · exact .refl s
    · exact (modBist_only ..).sameScan rfl
  exact (hu.step (recordAt_only ..) rfl).when fun v => retireCause_sameScan ..

/-- A test program that found a tile faulty, and the tile's fence. -/
theorem tileProgram_fenceTile_sameScan (pt n : Nat) (f : Option (BitVec 4)) (verdict : Nat) :
    s.SameScan ((s.tileProgram pt n f).fenceTile pt verdict) := ((tileProgram_only ..).sameScan rfl).trans (fenceTile_sameScan ..)

theorem quickTest_sameScan (failed : List (Pt × BitVec 4)) : s.SameScan (s.quickTest failed) := by
  unfold State.quickTest
  refine .each (.refl s) fun v pt => ?_
  split
  · exact tileProgram_fenceTile_sameScan ..
  · exact (tileProgram_only ..).sameScan rfl

theorem fullTest_sameScan (failed : List (Pt × BitVec 4)) : s.SameScan (s.fullTest failed) := by
  unfold State.fullTest
  refine .each (.refl s) fun v pt => ?_
  split
  · exact tileProgram_fenceTile_sameScan ..
  · exact ((tileProgram_only ..).sameScan rfl).step (updRole_only ..) rfl

theorem writeHealth_sameScan (full : Bool) : s.SameScan (s.writeHealth full) := by
  unfold State.writeHealth
  refine .step ?_ (modBist_only ..) rfl
  exact .modFlash (.refl s) fun _ => rfl

theorem applyHealth_sameScan : s.SameScan s.applyHealth := by
  unfold State.applyHealth
  split
  · exact .refl s
  · exact .when ((modRstc_only ..).sameScan rfl) fun v => .modFlash (.refl v) fun _ => rfl

theorem addPeg_sameScan (kind index : Nat) : s.SameScan (s.addPeg kind index) := by
  unfold State.addPeg
  split
  · exact .refl s
  · exact .modFlash (.refl s) fun _ => rfl

theorem causeStage_sameScan (n code : Nat) (detail : Word) (cause : BitVec 4) : s.SameScan (s.causeStage n code detail cause) := by
  unfold State.causeStage
  exact ((retireCause_sameScan ..).step (failStage_only ..) rfl).step (modBrup_only ..) rfl

theorem endWork_sameScan (old : State) (n : Nat) : s.SameScan (s.endWork old n) :=
  (only_endWork (fr := [.brup, .chest]) (.refl s _) fun _ h => h).sameScan rfl

end Faults

/-! ## The security block -/

section Security

variable (s : State)

theorem extendLog_sameScan (type : Byte) (sched : BitVec 32) (digest : BitVec 256) (info : List Byte) :
    s.SameScan (s.extendLog type sched digest info) := by
  unfold State.extendLog
  exact .modSec (.refl s) fun _ => rfl

theorem writeLcReq_sameScan (w : Writer) (v : Word) : s.SameScan (s.writeLcReq w v) := by
  unfold State.writeLcReq
  extract_lets allowed target
  split
  · exact .refl s
  · split
    · exact .modSec (.refl s) fun _ => rfl
    · exact .modSec (.refl s) fun _ => rfl

theorem writeLcFuses_sameScan (target : Nat) : s.SameScan (s.writeLcFuses target) := by
  have hend (v : State) : v.SameScan ((v.modFlash fun f => { f with opKeys := [] }).modSec fun c => { c with cache := [] }) :=
    .modSec (.modFlash (.refl v) fun _ => rfl) fun _ => rfl
  unfold State.writeLcFuses
  refine .when ((modFuse_only ..).sameScan rfl) fun v => ?_
  exact (((modFuse_only ..).sameScan rfl).trans (hend _)).step (modIds_only ..) rfl

theorem reserve_sameScan : s.SameScan s.reserve := by
  unfold State.reserve
  split
  · exact .refl s
  · split
    · refine .step ?_ (modIds_only ..) rfl
      exact .modFlash (.refl s) fun _ => rfl
    · exact (modIds_only ..).sameScan rfl

theorem askSign_sameScan (q : SignFor) : s.SameScan (s.askSign q) := by
  unfold State.askSign
  exact .when ((modIds_only ..).sameScan rfl) reserve_sameScan

theorem nextSign_sameScan : s.SameScan s.nextSign := by
  unfold State.nextSign
  exact .when ((modIds_only ..).sameScan rfl) reserve_sameScan

theorem writeQuoteCtl_sameScan (v : Word) : s.SameScan (s.writeQuoteCtl v) := by
  unfold State.writeQuoteCtl
  extract_lets fail nonce seq
  have hfail (c : BitVec 8) : s.SameScan (fail c) := .modSec (.refl s) fun _ => rfl
  split
  · exact .refl s
  · split
    · exact hfail _
    · split
      · exact hfail _
      · split
        · exact hfail _
        · refine .trans ?_ (askSign_sameScan ..)
          exact .modSec (.refl s) fun _ => rfl

theorem writeOpkCtl_sameScan (w : Writer) (v : Word) : s.SameScan (s.writeOpkCtl w v) := by
  unfold State.writeOpkCtl
  extract_lets u slot err key
  have hu : s.SameScan u := .modSec (.refl s) fun _ => rfl
  have herr : s.SameScan err := .modSec hu fun _ => rfl
  split
  · split
    · exact herr
    · exact .modSec (.modFlash hu fun _ => rfl) fun _ => rfl
  · split
    · exact herr
    · exact .modSec (.modFlash hu fun _ => rfl) fun _ => rfl
  · exact hu

theorem logImage_sameScan (type : Byte) (img : FlashImage) (info : List Byte) : s.SameScan (s.logImage type img info) := by
  unfold State.logImage
  split
  · exact extendLog_sameScan ..
  · exact .refl s

theorem bootLog_sameScan (slot : Nat) (scriptOk : Bool) : s.SameScan (s.bootLog slot scriptOk) := by
  unfold State.bootLog
  refine .when ?_ fun v => logImage_sameScan ..
  refine .trans ?_ (logImage_sameScan ..)
  refine .trans ?_ (logImage_sameScan ..)
  refine .when ?_ fun v => extendLog_sameScan ..
  exact ((modFree_only ..).sameScan rfl).trans (extendLog_sameScan ..)

theorem bootKeys_sameScan : s.SameScan s.bootKeys := by
  unfold State.bootKeys
  refine .when ?_ fun v => (record_only ..).sameScan rfl
  refine .modSec ?_ fun _ => rfl
  exact ((modIds_only ..).sameScan rfl).step (modFree_only ..) rfl

theorem programPushed_sameScan (area : Nat) : s.SameScan (s.programPushed area) := by
  unfold State.programPushed
  extract_lets bs img p
  split
  · exact .refl s
  · refine .modFlash (.refl s) fun f => ?_
    dsimp only
    split <;> rfl

end Security

end Sys2Proof.Machine
end

section
/-!
PROOFS. Every reset short of POR and every register write keeps the field-scan marks and the scan session (14 R687, R688): a system
reset carries both over, and no register field changes either.
-/

namespace Sys2Proof.Machine

/-! ## Resets -/

section Resets

variable (s : State)

theorem coreEffect_sameScan : s.SameScan s.coreEffect := by
  unfold State.coreEffect
  refine .step ?_ (modBrup_only ..) rfl
  refine .step ?_ (modBist_only ..) rfl
  refine .step ?_ (modTop_only ..) rfl
  refine .step ?_ (modFret_only ..) rfl
  refine .each ?_ endRecovery_sameScan
  refine .each ?_ fun v e => (unbindQueue_only ..).sameScan rfl
  refine .each ?_ fun v e => (closeByReset_only ..).sameScan rfl
  refine .step ?_ (coreResetSessions_only ..) rfl
  refine .each ?_ fun v p => ((coreMemory_only ..).sameScan rfl).step (dropLatches_only ..) rfl
  refine .each ?_ fun v c => (resetEngine_only ..).sameScan rfl
  refine .each ?_ fun v pt => ((resetTile_only ..).sameScan rfl).step (updTile_only ..) rfl
  refine .step ?_ (modRelx_only ..) rfl
  refine .step ?_ (modScheds_only ..) rfl
  refine .step ?_ (modHeld_only ..) rfl
  refine .step ?_ (modTasks_only ..) rfl
  refine .each ?_ fun v n => (dropHeld_only ..).sameScan rfl
  exact (loseEntries_only ..).sameScan rfl

/-- R688: a system reset ends no scan session. -/
theorem systemState_sameScan : s.SameScan s.systemState := ⟨rfl, rfl⟩

theorem assertReset_sameScan {l : Level} (hl : l ≠ .por) (src : BitVec 4) (promoted : Bool) :
    s.SameScan (s.assertReset l src promoted) := by
  unfold State.assertReset
  cases l with
  | por => contradiction
  | system =>
    refine .step ?_ (modRstc_only ..) rfl
    refine .trans ?_ (systemState_sameScan _)
    refine .step ?_ (loseEntries_only ..) rfl
    exact ((record_only ..).sameScan rfl).step (downPorts_only ..) rfl
  | core =>
    refine .step ?_ (modRstc_only ..) rfl
    exact ((record_only ..).sameScan rfl).trans (coreEffect_sameScan _)

theorem requestReset_sameScan {l : Level} (hl : l ≠ .por) (src : BitVec 4) (immediate : Bool) :
    s.SameScan (s.requestReset l src immediate) := by
  unfold State.requestReset
  extract_lets promoted l' go
  have hl' : l' ≠ .por := by
    unfold l'
    split
    · decide
    · exact hl
  have hgo : s.SameScan (go s) := by
    unfold go
    split
    · exact assertReset_sameScan s hl' ..
    · exact (startOrderly_only ..).sameScan rfl
  split
  · exact .refl s
  · split
    · exact hgo
    · split
      · exact hgo
      · split
        · split
          · exact ((absorbReset_only ..).sameScan rfl).step (modRstc_only ..) rfl
          · exact (absorbReset_only ..).sameScan rfl
        · exact (absorbReset_only ..).sameScan rfl

end Resets

/-! ## Register writes and script records -/

section Writes

variable (s : State)

theorem writeRstcReq_sameScan (w : Writer) (v : Word) : s.SameScan (s.writeRstcReq w v) := by
  unfold State.writeRstcReq
  extract_lets level freed
  have hlevel (l : Level) (h : level = some l) : l ≠ .por := by
    revert h
    unfold level
    split <;> simp +contextual [eq_comm]
  clear_value level
  cases level with
  | none => exact .refl s
  | some l =>
    dsimp only
    split
    · exact .refl s
    · split
      · exact ((modFree_only ..).sameScan rfl).trans (requestReset_sameScan _ (hlevel l rfl) ..)
      · exact requestReset_sameScan s (hlevel l rfl) ..

theorem writeRstc_sameScan (w : Writer) (off : Nat) (v : Word) : s.SameScan (s.writeRstc w off v) := by
  unfold State.writeRstc
  split
  · exact (modRstc_only ..).sameScan rfl
  · exact writeRstcReq_sameScan ..
  · exact (modRstc_only ..).sameScan rfl
  · exact (writeRstcBlk_only ..).sameScan rfl
  · exact (modRstc_only ..).sameScan rfl
  · exact .refl s

theorem writeBrupCtl_sameScan (v : Word) : s.SameScan (s.writeBrupCtl v) := by
  unfold State.writeBrupCtl
  extract_lets arg
  split
  · exact (askStage_only ..).sameScan rfl
  · exact .when (.refl s) fun v => (modBrup_only ..).sameScan rfl
  · exact (modBrup_only ..).sameScan rfl
  · exact (bootPushed_only ..).sameScan rfl
  · exact programPushed_sameScan ..
  · exact .refl s

theorem writeBrup_sameScan (off : Nat) (v : Word) : s.SameScan (s.writeBrup off v) := by
  unfold State.writeBrup
  split
  · exact writeBrupCtl_sameScan ..
  · exact (modBrup_only ..).sameScan rfl
  · exact (modBrup_only ..).sameScan rfl
  · exact (modBrup_only ..).sameScan rfl
  · split
    · exact (modBrup_only ..).sameScan rfl
    · exact .refl s

theorem writePeg_sameScan (v : Word) : s.SameScan (s.writePeg v) := by
  unfold State.writePeg
  exact .when ((modPwr_only ..).sameScan rfl) fun u => .modFlash (.refl u) fun _ => rfl

theorem writePwr_sameScan (off : Nat) (v : Word) : s.SameScan (s.writePwr off v) := by
  unfold State.writePwr
  split
  · exact (writeBudget_only ..).sameScan rfl
  · exact (modPwr_only ..).sameScan rfl
  · exact (modPwr_only ..).sameScan rfl
  · exact (writePark_only ..).sameScan rfl
  · exact (writeParkAllow_only ..).sameScan rfl
  · exact (modPwr_only ..).sameScan rfl
  · exact writePeg_sameScan ..
  · exact .refl s

theorem writeSec_sameScan (w : Writer) (off : Nat) (v : Word) : s.SameScan (s.writeSec w off v) := by
  unfold State.writeSec
  split
  · exact .modSec (.refl s) fun _ => rfl
  · split
    · exact .modSec (.refl s) fun _ => rfl
    · split
      · exact .modSec (.refl s) fun _ => rfl
      · split
        · exact writeLcReq_sameScan ..
        · exact (writeIdCtl_only ..).sameScan rfl
        · exact (modIds_only ..).sameScan rfl
        · exact .modSec (.refl s) fun _ => rfl
        · exact writeOpkCtl_sameScan ..
        · exact .modSec (.refl s) fun _ => rfl
        · exact writeQuoteCtl_sameScan ..
        · exact .refl s

theorem fenceCmd_sameScan (pt : Nat) : s.SameScan (s.fenceCmd pt) := by
  unfold State.fenceCmd
  extract_lets r
  split
  · exact (healResult_only ..).sameScan rfl
  · split
    · exact (healResult_only ..).sameScan rfl
    · split
      · exact ((modHealx_only ..).sameScan rfl).step (healResult_only ..) rfl
      · exact (fenceTile_sameScan ..).step (healResult_only ..) rfl

theorem writeHealCmd_sameScan (v : Word) : s.SameScan (s.writeHealCmd v) := by
  unfold State.writeHealCmd
  extract_lets t
  split
  · exact fenceCmd_sameScan ..
  · split
    · exact (healResult_only ..).sameScan rfl
    · exact (((markRotation_only ..).sameScan rfl).step (modHealx_only ..) rfl).step (healResult_only ..) rfl
  · split
    · exact (healResult_only ..).sameScan rfl
    · split
      · exact (healResult_only ..).sameScan rfl
      · exact ((startRecovery_only ..).sameScan rfl).step (healResult_only ..) rfl
  · exact .refl s

theorem writeHeal_sameScan (a : Accessor) (off : Nat) (v : Word) : s.SameScan (s.writeHeal a off v) := by
  unfold State.writeHeal
  split
  · exact (modHeal_only ..).sameScan rfl
  · exact writeHealCmd_sameScan ..
  · exact (modHeal_only ..).sameScan rfl
  · exact (modHeal_only ..).sameScan rfl
  · exact (writeTwin_only ..).sameScan rfl
  · exact .refl s

theorem blockWrite_sameScan (w : Writer) (b : Block) (off : Nat) (v : Word) : s.SameScan (s.blockWrite w b off v) := by
  unfold State.blockWrite
  cases b with
  | top => exact (writeTop_only ..).sameScan rfl
  | rstc => exact writeRstc_sameScan ..
  | brup => exact writeBrup_sameScan ..
  | clk => exact (writeClk_only ..).sameScan rfl
  | pwr => exact writePwr_sameScan ..
  | fret => exact (writeFret_only ..).sameScan rfl
  | sec => exact writeSec_sameScan ..
  | bist => exact (writeBist_only ..).sameScan rfl
  | heal => exact writeHeal_sameScan ..
  | rel => exact (writeRel_only ..).sameScan rfl
  | chest => exact (writeChest_only ..).sameScan rfl
  | mch => exact (writeMch_only ..).sameScan rfl
  | pcie => exact (writePcie_only ..).sameScan rfl
  | mgt => exact (writeMgt_only ..).sameScan rfl
  | fab => exact (writeFab_only ..).sameScan rfl
  | spn => exact (writeSpn_only ..).sameScan rfl
  | part => exact (writePart_only ..).sameScan rfl
  | clus => exact (writeClus_only ..).sameScan rfl

theorem bar0Write_sameScan (w : Writer) (off : Nat) (v : Word) : s.SameScan (s.bar0Write w off v) := by
  unfold State.bar0Write
  split
  · exact .refl s
  · split
    · exact .refl s
    · split
      · exact .refl s
      · split
        · exact (denyWrite_only ..).sameScan rfl
        · exact blockWrite_sameScan ..

theorem accWrite_sameScan (a : Accessor) (off : Nat) (v : Word) : s.SameScan (s.accWrite a off v) := bar0Write_sameScan ..

theorem seqWrite_sameScan (off : Nat) (v : Word) : s.SameScan (s.seqWrite off v) := by
  unfold State.seqWrite
  split
  · exact (stopScript_only ..).sameScan rfl
  · exact accWrite_sameScan ..

theorem runRecord_sameScan (op : Nat) {f : State → ScriptRec → State} (hf : ∀ (v : State) r, v.SameScan (f v r)) :
    s.SameScan (s.runRecord op f) := by
  have hnext : s.SameScan s.advance := (advance_only s).sameScan rfl
  unfold State.runRecord
  split
  · exact .refl s
  · split
    · split
      · exact (endScript_only ..).sameScan rfl
      · exact .refl s
    · split
      · exact hnext.trans (hf ..)
      · split
        · exact hnext.step (stopScript_only ..) rfl
        · exact .refl s

end Writes

/-! ## Signed commands -/

section SignedCommands

variable (s : State)

theorem storeSeq_sameScan (d : Datagram) : s.SameScan (s.storeSeq d) := by
  unfold State.storeSeq
  split
  · exact .refl s
  · refine .modSec ?_ fun _ => rfl
    exact .modFlash (.refl s) fun _ => rfl

theorem replyMgmt_sameScan (d : Datagram) (code result : BitVec 8) (b : List Byte) :
    s.SameScan (s.replyMgmt d code result b) := by
  unfold State.replyMgmt
  split
  · exact ((updMgmtPort_only ..).sameScan rfl).trans (askSign_sameScan ..)
  · exact .refl s

theorem mgmtCommand_sameScan (d : Datagram) (code : BitVec 8) (slots : Nat) {f : State → Verdict}
    (hf : ∀ (u t : State) b, f u = .done t b → u.SameScan t) : s.SameScan (s.mgmtCommand d code slots f) := by
  unfold State.mgmtCommand
  split
  · exact .refl s
  · split
    · exact (updMgmtPort_only ..).sameScan rfl
    · split
      · exact replyMgmt_sameScan ..
      · split
        · exact replyMgmt_sameScan ..
        · split
          · exact replyMgmt_sameScan ..
          · next t b h =>
            split
            · exact ((storeSeq_sameScan s d).trans (hf _ t b h)).trans (replyMgmt_sameScan ..)
            · exact replyMgmt_sameScan ..

/-- A signed command that changes the state and answers. -/
theorem mgmtCommand_changes_sameScan (d : Datagram) (code : BitVec 8) (slots : Nat) {g : State → State} {b : State → List Byte}
    (hg : ∀ u : State, u.SameScan (g u)) :
    s.SameScan (s.mgmtCommand d code slots fun u => .done (u.changes d (g u)) (b u)) := by
  refine mgmtCommand_sameScan s d code slots ?_
  rintro u t b ⟨⟩
  exact (hg u).step (only_changes (fr := [.top, .chest, .out]) (.refl ..) fun _ hc => hc) rfl

theorem clearChest_sameScan (areas : BitVec 8) (slot : Word) : s.SameScan (s.clearChest areas slot) := by
  unfold State.clearChest
  exact .when (((modChest_only ..).sameScan rfl).step (record_only ..) rfl) fun v => copyRequest_sameScan ..

theorem clearRetire_sameScan : s.SameScan s.clearRetire := by
  unfold State.clearRetire
  refine .step ?_ (readyPins_only ..) rfl
  exact .modFlash ((modRelx_only ..).sameScan rfl) fun _ => rfl

end SignedCommands

end Sys2Proof.Machine
end

section
/-!
PROOFS. What a command does to the field-scan marks and the scan session (14 R685 to R688), command by command, and O54 and O55.
-/

namespace Sys2Proof.Machine

/-- A command answers a next state with the same marks and scan session. -/
def State.NextSameScan (s : State) (o : Host.Outcome State Fault Refusal) : Prop := ∃ t, o = .next t ∧ s.SameScan t

theorem State.SameScan.next {s t : State} (h : s.SameScan t) : s.NextSameScan (.next t) := ⟨t, rfl, h⟩

/-! ## Faults, tests and copies of the Chest -/

section Faults

variable (s : State)

theorem execRetireStart_sameScan (cause : BitVec 4) : s.NextSameScan (execRetireStart cause s) := by
  unfold execRetireStart
  split
  · exact (State.SameScan.refl s).next
  · exact (retireCause_sameScan ..).next

theorem execRetireComplete_sameScan : s.NextSameScan (execRetireComplete s) := by
  unfold execRetireComplete
  split
  · exact (State.SameScan.refl s).next
  · refine State.SameScan.next ?_
    refine .step ?_ (retired_only ..) rfl
    refine .trans ?_ (copyRequest_sameScan ..)
    refine .trans ?_ (setRetireFlag_sameScan ..)
    exact .when (.refl s) fun v => (mcSend_only ..).sameScan rfl

theorem execFiring_sameScan (lt : Lt) (obs : List TileFault) : s.NextSameScan (execFiring lt obs s) := by
  unfold execFiring
  split
  · exact (State.SameScan.refl s).next
  · split
    · exact (State.SameScan.refl s).next
    · split
      · exact (State.SameScan.refl s).next
      · split
        · exact (State.SameScan.refl s).next
        · extract_lets u r t
          have hr : s.SameScan r.2.1 := ((updRt_only ..).sameScan rfl).step (takeInputs_only ..) rfl
          have ht : s.SameScan t := by
            unfold t
            clear_value r
            split
            · exact ((updRt_only ..).sameScan rfl).step (detect_only ..) rfl
            · exact hr.step (runFold_only ..) rfl
          exact (ht.trans (tileFaults_sameScan ..)).next

theorem execSteerEmit_sameScan (lt : Lt) (fold : Nat) (x : SteerRead) : s.NextSameScan (execSteerEmit lt fold x s) := by
  unfold execSteerEmit
  split
  · exact (State.SameScan.refl s).next
  · extract_lets r
    split
    · exact (State.SameScan.refl s).next
    · split
      · exact (State.SameScan.refl s).next
      · extract_lets words u v w
        have hw : s.SameScan w := by
          refine .when ?_ fun _ => (dropWords_only ..).sameScan rfl
          exact .each ((updSteer_only ..).sameScan rfl) fun _ _ => (dropWords_only ..).sameScan rfl
        split
        · exact ((hw.step (sendPort_only ..) rfl).trans (tileFaults_sameScan ..)).next
        · exact (hw.trans (tileFaults_sameScan ..)).next

theorem execWriteDrawerFillCheck_sameScan (c : Clus) (x : CtxRead) : s.NextSameScan (execWriteDrawerFillCheck c x s) := by
  unfold execWriteDrawerFillCheck
  extract_lets key y k
  split
  · exact (State.SameScan.refl s).next
  · split
    · exact (State.SameScan.refl s).next
    · split
      · exact (((updCtx_only ..).sameScan rfl).step (detect_only ..) rfl).next
      · exact (((issueWrite_only ..).sameScan rfl).trans (tileFaults_sameScan ..)).next

theorem execWormRoute_sameScan (r : Router) (port : Nat) (e : RouteEv) (bad : Option (Fin 18)) :
    s.NextSameScan (execWormRoute r port e bad s) := by
  unfold execWormRoute
  extract_lets count
  have hcount (v : State) (n : Nat) (first : Bool) : v.SameScan (count v n first) := by
    unfold count
    split
    · exact (countRx_only ..).sameScan rfl
    · exact .refl v
  clear_value count
  cases e with
  | head w n ok =>
    dsimp only
    split
    · exact (State.SameScan.refl s).next
    · exact (((hcount ..).trans (transitAt_sameScan ..)).step (headIn_only ..) rfl).next
  | flits vc n =>
    dsimp only
    split
    · exact (State.SameScan.refl s).next
    · split
      · exact (State.SameScan.refl s).next
      · exact (((hcount ..).trans (transitAt_sameScan ..)).step (flitsIn_only ..) rfl).next
  | slot pick ok => exact (slot_sameScan ..).next

theorem execReleaseQueueArrive_sameScan (rp : ReleasePoint) (w : Worm) (n : Arrival) (last : Bool) :
    s.NextSameScan (execReleaseQueueArrive rp w n last s) := by
  unfold execReleaseQueueArrive
  extract_lets first
  refine State.SameScan.next ?_
  refine .step ?_ (releaseArrive_only ..) rfl
  cases rp with
  | fabric p => exact ((countRx_only ..).sameScan rfl).when fun v => countTransit_sameScan ..
  | bridge row e => exact (State.SameScan.refl s).when fun v => countTransit_sameScan ..
  | tile t => exact .refl s

theorem execNcnCrcError_sameScan (h : Half) (again : Bool) : s.NextSameScan (execNcnCrcError h again s) := by
  unfold execNcnCrcError
  split
  · exact (retireCause_sameScan ..).next
  · exact ((updSpn_only ..).sameScan rfl).next

theorem execTaskHang_sameScan (task : BitVec 32) : s.NextSameScan (execTaskHang task s) := by
  unfold execTaskHang
  dsimp only
  split
  · exact (State.SameScan.refl s).next
  · refine State.SameScan.next ?_
    refine .trans ?_ (hangNamed_sameScan ..)
    refine .step ?_ (detect_only ..) rfl
    exact ((modHeal_only ..).sameScan rfl).step (recordAt_only ..) rfl

theorem execArbitrationDone_sameScan (c : Clus) (rs : List Replay) : s.NextSameScan (execArbitrationDone c rs s) := by
  unfold execArbitrationDone
  split
  · exact (State.SameScan.refl s).next
  · next a _ =>
    extract_lets row u v w
    have hv : s.SameScan v := (((modRel_only ..).sameScan rfl).step (arbLast_only ..) rfl).step (recordAt_only ..) rfl
    have hw : s.SameScan w := hv.step (endArb_only ..) rfl
    clear_value row v w
    split
    · split
      · exact ((hv.trans (retireCause_sameScan ..)).step (endArb_only ..) rfl).next
      · exact (hv.step (modRelx_only ..) rfl).next
    · exact ((hv.step (endArb_only ..) rfl).trans (fenceTile_sameScan ..)).next
    · exact ((hv.step (endArb_only ..) rfl).trans (fenceTile_sameScan ..)).next
    · split
      · exact (hw.trans (fenceTile_sameScan ..)).next
      · exact hw.next
    · exact (hv.step (endArb_only ..) rfl).next

theorem execDigestPassDone_sameScan (d : DigestRead) : s.NextSameScan (execDigestPassDone d s) := by
  unfold execDigestPassDone
  extract_lets x
  split
  · exact (State.SameScan.refl s).next
  · refine State.SameScan.next ?_
    refine .step ?_ (digMessage_only ..) rfl
    refine .trans ?_ (passState_sameScan ..)
    exact ((noteErrs_only ..).sameScan rfl).step (checkRange_only ..) rfl

theorem execDigestMessageReceive_sameScan (m : DigestMsg) : s.NextSameScan (execDigestMessageReceive m s) := by
  unfold execDigestMessageReceive
  extract_lets n x
  split
  · exact (State.SameScan.refl s).next
  · split
    · split
      · exact (((updDig_only ..).sameScan rfl).step (digAgree_only ..) rfl).next
      · exact (State.SameScan.refl s).next
    · split
      · exact (digDiverge_sameScan ..).next
      · exact (State.SameScan.refl s).next
    · exact (State.SameScan.refl s).next

theorem execHbmWindowTestDone_sameScan (p : Part) (pc : Fin 32) (repeatFailed : Bool) :
    s.NextSameScan (execHbmWindowTestDone p pc repeatFailed s) := by
  unfold execHbmWindowTestDone
  dsimp only
  split
  · exact (State.SameScan.refl s).next
  · exact (((modBist_only ..).sameScan rfl).when fun v => faultyWindow_sameScan ..).next

theorem execInfieldTestDone_sameScan (pt : Pt) (failed : Option (BitVec 4)) : s.NextSameScan (execInfieldTestDone pt failed s) := by
  unfold execInfieldTestDone
  dsimp only
  split
  · exact (State.SameScan.refl s).next
  · split
    · exact (tileProgram_fenceTile_sameScan ..).next
    · exact ((((tileProgram_only ..).sameScan rfl).step (updTile_only ..) rfl).step (updRole_only ..) rfl).next

theorem execWakeDone_sameScan (p : Part) (failed : List (Pt × BitVec 4)) : s.NextSameScan (execWakeDone p failed s) := by
  unfold execWakeDone
  dsimp only
  split
  · exact (State.SameScan.refl s).next
  · refine State.SameScan.next (.each ?_ fun v pt => ?_)
    · exact ((updPart_only ..).sameScan rfl).step (modPwr_only ..) rfl
    · split
      · exact tileProgram_fenceTile_sameScan ..
      · exact (tileProgram_only ..).sameScan rfl

theorem execShutdownTestPhase_sameScan (failed : List (Pt × BitVec 4)) (windows : List Word) :
    s.NextSameScan (execShutdownTestPhase failed windows s) := by
  unfold execShutdownTestPhase
  dsimp only
  split
  · exact (State.SameScan.refl s).next
  · refine State.SameScan.next ?_
    refine .step ?_ (modBist_only ..) rfl
    refine .step ?_ (loseHbm_only ..) rfl
    refine .each ?_ fun v e => faultyWindow_sameScan ..
    exact ((modBist_only ..).sameScan rfl).trans (fullTest_sameScan ..)

theorem execShutdownRecord_sameScan : s.NextSameScan (execShutdownRecord s) := by
  unfold execShutdownRecord
  split
  · exact (((writeHealth_sameScan ..).step (modBist_only ..) rfl).trans (copyRequest_sameScan ..)).next
  · exact (State.SameScan.refl s).next

theorem execRemapApply_sameScan (c : Clus) (slot : Fin 16) : s.NextSameScan (execRemapApply c slot s) := by
  unfold execRemapApply
  dsimp only
  split
  · exact (State.SameScan.refl s).next
  · split
    · exact (moveSlot_sameScan ..).next
    · exact ((updRole_only ..).sameScan rfl).next

theorem execRotationApply_sameScan (c : Clus) : s.NextSameScan (execRotationApply c s) := by
  unfold execRotationApply
  split
  · split
    · exact (State.SameScan.refl s).next
    · split
      · exact (State.SameScan.refl s).next
      · refine State.SameScan.next (.when ?_ fun v => (modHeal_only ..).sameScan rfl)
        exact ((moveSlot_sameScan ..).step (updClus_only ..) rfl).step (modHealx_only ..) rfl
  · exact (State.SameScan.refl s).next

theorem execHealFenceDeferredApply_sameScan (pt : Pt) : s.NextSameScan (execHealFenceDeferredApply pt s) := by
  unfold execHealFenceDeferredApply
  dsimp only
  split
  · exact ((((modHealx_only ..).sameScan rfl).trans (fenceTile_sameScan ..)).step (healResult_only ..) rfl).next
  · exact (State.SameScan.refl s).next

theorem execPrrResetDone_sameScan (p : Part) (us : BitVec 16) : s.NextSameScan (execPrrResetDone p us s) := by
  unfold execPrrResetDone
  split
  · exact (State.SameScan.refl s).next
  · refine State.SameScan.next ?_
    refine .trans ?_ (heldOrders_sameScan ..)
    refine .each ?_ fun v e => (digVerify_only ..).sameScan rfl
    refine .step ?_ (modHeal_only ..) rfl
    refine .step ?_ (modRstc_only ..) rfl
    refine .step ?_ (unfenceQueues_only ..) rfl
    refine .step ?_ (setPartMode_only ..) rfl
    refine .step ?_ (updPart_only ..) rfl
    refine .each ?_ fun v pt => ((resetTile_only ..).sameScan rfl).step (updTile_only ..) rfl
    refine .each ?_ fun v c => (resetEngine_only ..).sameScan rfl
    exact (((loseEntries_only ..).sameScan rfl).step (dropLatches_only ..) rfl).step (endWindows_only ..) rfl

theorem execPegRetune_sameScan (n : Nat) (better : Bool) : s.NextSameScan (execPegRetune n better s) := by
  unfold execPegRetune
  split
  · exact (State.SameScan.refl s).next
  · extract_lets p free g
    split
    · exact (State.SameScan.refl s).next
    · refine State.SameScan.next (.when ?_ fun v => (modPwr_only ..).sameScan rfl)
      exact .modFlash (.refl s) fun _ => rfl

theorem execChestRecordPlace_sameScan : s.NextSameScan (execChestRecordPlace s) := by
  unfold execChestRecordPlace
  split
  · exact (((nextHalf_only s).sameScan rfl).trans (placeOne_sameScan ..)).next
  · exact (State.SameScan.refl s).next

theorem execChestCopyStart_sameScan (reason : BitVec 8) : s.NextSameScan (execChestCopyStart reason s) := by
  unfold execChestCopyStart
  split
  · exact (copyRequest_sameScan ..).next
  · exact (State.SameScan.refl s).next

end Faults

/-! ## Resets and bring-up -/

section Resets

variable (s : State)

theorem execThermalTrip_sameScan (sensor temp : Word) : s.NextSameScan (execThermalTrip sensor temp s) := by
  unfold execThermalTrip
  split
  · exact (State.SameScan.refl s).next
  · refine State.SameScan.next ?_
    refine .trans ?_ (copyRequest_sameScan ..)
    refine .trans ?_ (placeAll_sameScan ..)
    refine .step ?_ (loseEntries_only ..) rfl
    refine .each ?_ fun v p => (loseEntries_only ..).sameScan rfl
    exact (((modGov_only ..).sameScan rfl).step (modPwr_only ..) rfl).step (record_only ..) rfl

theorem execSysrstNAssert_sameScan : s.NextSameScan (execSysrstNAssert s) := by
  unfold execSysrstNAssert
  extract_lets u
  have hu : s.SameScan u := (modRstc_only ..).sameScan rfl
  split
  · exact hu.next
  · exact (hu.trans (requestReset_sameScan _ (by decide) ..)).next

theorem execMcWatchdogExpire_sameScan : s.NextSameScan (execMcWatchdogExpire s) := by
  unfold execMcWatchdogExpire
  split
  · exact (requestReset_sameScan s (by decide) ..).next
  · exact (State.SameScan.refl s).next

theorem execMcLockstepFail_sameScan (x y : Word) : s.NextSameScan (execMcLockstepFail x y s) := by
  have hflag (v : State) : v.SameScan (if v.relx.retState = .none then (v.setRetireFlag 5).attn .retire
      else v.setRetireFlag v.relx.retCause) := by
    split
    · exact (setRetireFlag_sameScan ..).step (attn_only ..) rfl
    · exact setRetireFlag_sameScan ..
  unfold execMcLockstepFail
  split
  · exact (State.SameScan.refl s).next
  · refine State.SameScan.next ?_
    refine .trans ?_ (requestReset_sameScan _ (by decide) ..)
    refine .trans ?_ (placeAll_sameScan ..)
    refine .trans ?_ (hflag _)
    exact ((record_only ..).sameScan rfl).step (causeRecord_only ..) rfl

theorem execLcFuseWriteDone_sameScan : s.NextSameScan (execLcFuseWriteDone s) := by
  unfold execLcFuseWriteDone
  split
  · exact (State.SameScan.refl s).next
  · refine State.SameScan.next ?_
    refine .trans ?_ (requestReset_sameScan _ (by decide) ..)
    exact .modSec (writeLcFuses_sameScan ..) fun _ => rfl

theorem execStageBu0_sameScan (b : Bool) : s.NextSameScan (execStageBu0 b s) := by
  unfold execStageBu0
  split
  · exact (State.SameScan.refl s).next
  · split
    · exact ((failStage_only ..).sameScan rfl).next
    · refine State.SameScan.next ?_
      refine .when ?_ fun v => (startStage_only ..).sameScan rfl
      refine .step ?_ (passStage_only ..) rfl
      refine .when ?_ fun v => ((restoreChest_only ..).sameScan rfl).step (modRstc_only ..) rfl
      refine .modSec ?_ fun _ => rfl
      refine .step ?_ (modClk_only ..) rfl
      refine .step ?_ (modPwr_only ..) rfl
      exact ((modBrup_only ..).sameScan rfl).step (modRelx_only ..) rfl

theorem execStageBu1_sameScan (b : Bool) : s.NextSameScan (execStageBu1 b s) := by
  unfold execStageBu1
  split
  · exact (State.SameScan.refl s).next
  · extract_lets img
    split
    · exact ((failStage_only ..).sameScan rfl).next
    · split
      · exact ((failStage_only ..).sameScan rfl).next
      · split
        · exact ((failStage_only ..).sameScan rfl).next
        · refine State.SameScan.next ?_
          refine .step ?_ (passStage_only ..) rfl
          refine .step ?_ (modRstc_only ..) rfl
          refine .step ?_ (modBrup_only ..) rfl
          refine .step ?_ (bootTriggers_only ..) rfl
          refine .trans ?_ (bootLog_sameScan ..)
          refine .trans ?_ (bootKeys_sameScan ..)
          refine .step ?_ (bootIdentity_only ..) rfl
          exact .modSec (.refl s) fun _ => rfl

theorem execStageBu4_sameScan (spineOk bridgeOk : Bool) : s.NextSameScan (execStageBu4 spineOk bridgeOk s) := by
  unfold execStageBu4
  split
  · exact (State.SameScan.refl s).next
  · split
    · exact (causeStage_sameScan ..).next
    · split
      · exact (causeStage_sameScan ..).next
      · refine State.SameScan.next ?_
        refine .step ?_ (passStage_only ..) rfl
        refine .each ?_ fun v i => addPeg_sameScan ..
        exact ((updSpn_only ..).sameScan rfl).step (updSpn_only ..) rfl

theorem execStageBu5_sameScan (trained : List (BitVec 16)) : s.NextSameScan (execStageBu5 trained s) := by
  unfold execStageBu5
  split
  · exact (State.SameScan.refl s).next
  · split
    · refine State.SameScan.next (.step ?_ (passStage_only ..) rfl)
      exact .each (.refl s) fun v p => (hbmOn_only ..).sameScan rfl
    · extract_lets u good v mask
      have hv : s.SameScan v := by
        refine .each ((modPwr_only ..).sameScan rfl) fun w p => ?_
        exact .each ((updPart_only ..).sameScan rfl) fun x k => addPeg_sameScan ..
      split
      · exact (hv.step (passStage_only ..) rfl).next
      · exact (hv.trans (causeStage_sameScan ..)).next

theorem execStageBu6_sameScan (b : Option Part) : s.NextSameScan (execStageBu6 b s) := by
  unfold execStageBu6
  split
  · exact (State.SameScan.refl s).next
  · split
    · exact ((failStage_only ..).sameScan rfl).next
    · split
      · refine State.SameScan.next ?_
        refine .step ?_ (passStage_only ..) rfl
        refine .step ?_ (releaseTiles_only ..) rfl
        refine .each ?_ fun v p => (hbmOn_only ..).sameScan rfl
        refine .step ?_ (rebudget_only ..) rfl
        exact ((modPwr_only ..).sameScan rfl).step (modGov_only ..) rfl
      · split
        · exact ((failStage_only ..).sameScan rfl).next
        · refine State.SameScan.next ?_
          refine .trans ?_ (endWork_sameScan ..)
          refine .step ?_ (releaseTiles_only ..) rfl
          refine .trans ?_ (extendLog_sameScan ..)
          refine .step ?_ (modFree_only ..) rfl
          refine .step ?_ (modBrup_only ..) rfl
          refine .step ?_ (modBist_only ..) rfl
          refine .step ?_ (loadAges_only ..) rfl
          exact .when (.refl s) fun v => (mapChip_sameScan v).step (modRstc_only ..) rfl

theorem execStageBu7_sameScan (f : TestFound) : s.NextSameScan (execStageBu7 f s) := by
  have hwindows (v : State) : v.SameScan ((v.each f.windows (·.faultyWindow ·)).loseHbm) :=
    .step (.each (.refl v) fun _ _ => faultyWindow_sameScan ..) (loseHbm_only ..) rfl
  unfold execStageBu7
  split
  · exact (State.SameScan.refl s).next
  · extract_lets old u n w
    have hu : s.SameScan u := .when (.refl s) fun v => (modBrup_only ..).sameScan rfl
    have hw : u.SameScan w := by
      unfold w
      clear_value n
      split
      · exact .refl u
      · exact quickTest_sameScan ..
      · exact .when (fullTest_sameScan ..) hwindows
    refine State.SameScan.next ?_
    refine .trans ?_ (endWork_sameScan ..)
    exact ((hu.trans hw).step (modBrup_only ..) rfl).trans (applyHealth_sameScan _)

theorem execStageBu8_sameScan : s.NextSameScan (execStageBu8 s) := by
  unfold execStageBu8
  dsimp only
  split
  · exact (State.SameScan.refl s).next
  · refine State.SameScan.next (.step ?_ (passStage_only ..) rfl)
    exact .each (.refl s) fun v e => addPeg_sameScan ..

end Resets

/-! ## The MC, signatures, registers and signed commands -/

section Registers

variable (s : State)

theorem execMcLoad_sameScan (m : McCmd) (img : Image) (bytesDigest : BitVec 256) (formatOk : Bool) :
    s.NextSameScan (execMcLoad m img bytesDigest formatOk s) := by
  unfold execMcLoad
  split
  · exact ((mcReply_only ..).sameScan rfl).next
  · split
    · exact ((mcReply_only ..).sameScan rfl).next
    · split
      · exact ((mcReply_only ..).sameScan rfl).next
      · split
        · exact ((mcReply_only ..).sameScan rfl).next
        · split
          · exact ((((variantRecord_only ..).sameScan rfl).step (attn_only ..) rfl).step (mcReply_only ..) rfl).next
          · refine State.SameScan.next ?_
            refine .step ?_ (mcReply_only ..) rfl
            refine .trans ?_ (extendLog_sameScan ..)
            exact ((modSpn_only ..).sameScan rfl).step (modScheds_only ..) rfl

theorem execMcUnload_sameScan (m : McCmd) : s.NextSameScan (execMcUnload m s) := by
  unfold execMcUnload
  split
  · exact ((mcReply_only ..).sameScan rfl).next
  · split
    · exact ((mcReply_only ..).sameScan rfl).next
    · split
      · exact ((mcReply_only ..).sameScan rfl).next
      · refine State.SameScan.next ?_
        refine .step ?_ (mcReply_only ..) rfl
        refine .trans ?_ (extendLog_sameScan ..)
        refine .step ?_ (modFret_only ..) rfl
        refine .step ?_ (modSpn_only ..) rfl
        exact ((modScheds_only ..).sameScan rfl).step (modTasks_only ..) rfl

theorem execSignRequest_sameScan (msg : List Byte) : s.NextSameScan (execSignRequest msg s) := by
  unfold execSignRequest
  split
  · exact (State.SameScan.refl s).next
  · exact (askSign_sameScan ..).next

theorem execSignatureDone_sameScan : s.NextSameScan (execSignatureDone s) := by
  unfold execSignatureDone
  split
  · exact (State.SameScan.refl s).next
  · exact (State.SameScan.refl s).next
  · split
    · exact (nextSign_sameScan s).next
    · dsimp only
      split
      · exact ((((sign_only ..).sameScan rfl).step (emit_only ..) rfl).trans (nextSign_sameScan _)).next
      · exact ((((sign_only ..).sameScan rfl).step (emit_only ..) rfl).trans (nextSign_sameScan _)).next
      · exact (State.SameScan.refl s).next
      · exact ((((sign_only ..).sameScan rfl).step (emit_only ..) rfl).trans (nextSign_sameScan _)).next

theorem execQuoteDone_sameScan : s.NextSameScan (execQuoteDone s) := by
  unfold execQuoteDone
  split
  · split
    · refine State.SameScan.next (.trans ?_ (nextSign_sameScan _))
      exact .modSec (.refl s) fun _ => rfl
    · refine State.SameScan.next (.trans ?_ (nextSign_sameScan _))
      exact .modSec ((sign_only ..).sameScan rfl) fun _ => rfl
  · exact (State.SameScan.refl s).next

theorem execRegisterWrite_sameScan (acc : Accessor) (off len : Nat) (v : Word) :
    s.NextSameScan (execRegisterWrite acc off len v s) := by
  unfold execRegisterWrite
  split
  · exact (accWrite_sameScan ..).next
  · exact (State.SameScan.refl s).next

theorem execBar0MultiwordAccess_sameScan (acc : Accessor) (off : Nat) (m : MultiWord) :
    s.NextSameScan (execBar0MultiwordAccess acc off m s) := by
  cases m with
  | write ws =>
    unfold execBar0MultiwordAccess
    dsimp only
    split
    · exact (State.SameScan.refl s).next
    · refine State.SameScan.next (.each (.refl s) fun v x => ?_)
      split
      · exact accWrite_sameScan ..
      · exact .refl v
  | read full =>
    have hread : s.Only (full.zipIdx.foldl (readWord acc off) ([], s)).2 [.tel, .latches] :=
      only_foldl2 (.refl s _) fun _ _ h => only_readWord h fun _ hc => hc
    unfold execBar0MultiwordAccess
    dsimp only
    split
    · exact ((emit_only ..).sameScan rfl).next
    · exact ((hread.sameScan rfl).step (emit_only ..) rfl).next

theorem execPwrWake_sameScan (acc : Accessor) (byAllow : Bool) (v : Word) : s.NextSameScan (execPwrWake acc byAllow v s) := by
  unfold execPwrWake
  split <;> exact (accWrite_sameScan ..).next

theorem execScriptWrite_sameScan : s.NextSameScan (execScriptWrite s) :=
  (runRecord_sameScan s 1 fun _ _ => seqWrite_sameScan ..).next

theorem execScriptModify_sameScan : s.NextSameScan (execScriptModify s) :=
  (runRecord_sameScan s 2 fun _ _ => ((bar0Read_only ..).sameScan rfl).trans (seqWrite_sameScan ..)).next

theorem execMgmtAssignOwner_sameScan (d : Datagram) : s.NextSameScan (execMgmtAssignOwner d s) := by
  refine State.SameScan.next (mgmtCommand_changes_sameScan s d _ _ fun u => ?_)
  split
  · exact (setOwner_only ..).sameScan rfl
  · exact (setOwner_only ..).sameScan rfl
  · exact (setOwner_only ..).sameScan rfl
  · exact .refl u

theorem execMgmtClearRetire_sameScan (d : Datagram) : s.NextSameScan (execMgmtClearRetire d s) := by
  refine State.SameScan.next (mgmtCommand_sameScan s d _ _ fun u t b hdone => ?_)
  split at hdone
  · cases hdone
    exact (clearRetire_sameScan u).step (only_changes (fr := [.top, .chest, .out]) (.refl ..) fun _ hc => hc) rfl
  · contradiction

theorem execMgmtQuote_sameScan (d : Datagram) : s.NextSameScan (execMgmtQuote d s) := by
  unfold execMgmtQuote
  refine State.SameScan.next (.when ?_ fun v => askSign_sameScan ..)
  refine mgmtCommand_sameScan s d _ _ ?_
  rintro u t b ⟨⟩
  exact .modSec (.refl u) fun _ => rfl

theorem execMgmtWriteReg_sameScan (d : Datagram) : s.NextSameScan (execMgmtWriteReg d s) := by
  refine State.SameScan.next (mgmtCommand_sameScan s d _ _ fun u t b hdone => ?_)
  split at hdone
  · contradiction
  · cases hdone
    exact (bar0Write_sameScan ..).step (only_changes (fr := [.top, .chest, .out]) (.refl ..) fun _ hc => hc) rfl

theorem execMgmtUnknownCommand_sameScan (d : Datagram) (code : BitVec 8) : s.NextSameScan (execMgmtUnknownCommand d code s) := by
  unfold execMgmtUnknownCommand
  split
  · exact (State.SameScan.refl s).next
  · exact (mgmtCommand_sameScan s d _ _ fun u t b hdone => by contradiction).next

end Registers

end Sys2Proof.Machine
end

section
/-!
PROOFS. O54 and O55: what every command keeps of the field-scan marks and of an open scan session (14 R687, R688), and what BU1 and
a quote make of the marks.
-/

namespace Sys2Proof.Machine

/-! ## Every command keeps the marks, and an open session up to POR -/

/-- What holds from one state to the next (R687, R688): no mark is removed and their number stays in 16 bits, and an open scan
session stays open or the chip is in POR. -/
structure State.ScanKept (s t : State) : Prop where
  marks : s.flash.marks ≤ 0xFFFF → s.flash.marks ≤ t.flash.marks ∧ t.flash.marks ≤ 0xFFFF
  opened : s.sec.scan = .opened → t.sec.scan = .opened ∨ t.rstc.inReset = some .por

/-- A command answers a next state that keeps the marks, and an open session up to POR. -/
def State.NextScanKept (s : State) (o : Host.Outcome State Fault Refusal) : Prop := ∃ t, o = .next t ∧ s.ScanKept t

section ScanKept

variable {s t : State} {o : Host.Outcome State Fault Refusal} {cs : List Comp}

theorem State.SameScan.scanKept (h : s.SameScan t) : s.ScanKept t :=
  ⟨fun hm => by rw [h.marks]; exact ⟨le_rfl, hm⟩, fun ho => .inl (h.scan.trans ho)⟩

theorem State.ScanKept.of_por (hm : t.flash.marks = s.flash.marks) (hp : t.rstc.inReset = some .por) : s.ScanKept t :=
  ⟨fun h => by rw [hm]; exact ⟨le_rfl, h⟩, fun _ => .inr hp⟩

theorem State.ScanKept.next (h : s.ScanKept t) : s.NextScanKept (.next t) := ⟨t, rfl, h⟩

theorem State.NextSameScan.scanKept (h : s.NextSameScan o) : s.NextScanKept o := by
  obtain ⟨t, rfl, hsame⟩ := h
  exact hsame.scanKept.next

theorem State.NextOnly.scanKept (h : s.NextOnly o cs) (hcs : offScan cs = true) : s.NextScanKept o := by
  obtain ⟨t, rfl, honly⟩ := h
  exact (honly.sameScan hcs).scanKept.next

theorem State.NextScanKept.of_eq (h : s.NextScanKept o) (ht : o = .next t) : s.ScanKept t := by
  obtain ⟨u, rfl, hkept⟩ := h
  cases ht
  exact hkept

end ScanKept

section Commands

variable (s : State)

/-- The EB1 path adds its mark and starts the clear, from FIELD with scan closed, or changes neither marks nor scan. -/
theorem execEb1Unlock_cases :
    s.NextSameScan (execEb1Unlock s) ∨
      s.sec.scan = .closed ∧
        ∃ t, execEb1Unlock s = .next t ∧ t.flash.marks = min (s.flash.marks + 1) 0xFFFF ∧ t.sec.scan = .clearing := by
  unfold execEb1Unlock
  extract_lets u v
  have hu : s.SameScan u := (loadIr_only ..).sameScan rfl
  split
  · exact .inl hu.next
  · next h =>
    push Not at h
    obtain ⟨-, hclosed, -⟩ := h
    refine .inr ⟨hu.scan.symm.trans hclosed, _, rfl, ?_, rfl⟩
    rw [← hu.marks]
    rfl

theorem execEb1Unlock_scanKept : s.NextScanKept (execEb1Unlock s) := by
  obtain hsame | ⟨hclosed, t, ht, hmarks, -⟩ := execEb1Unlock_cases s
  · exact hsame.scanKept
  · rw [ht]
    refine State.ScanKept.next ⟨fun hm => ?_, fun ho => ?_⟩
    · omega
    · simp [hclosed] at ho

theorem execScanEn_scanKept : s.NextScanKept (execScanEn s) := by
  unfold execScanEn
  extract_lets u
  have hu : s.SameScan u := (loadIr_only ..).sameScan rfl
  have hclosed (f : SecSt → SecSt) (h : u.sec.scan = .closed) : s.ScanKept (u.modSec f) :=
    ⟨fun hle => ⟨hu.marks.ge, hu.marks.trans_le hle⟩, fun ho => by simp [← hu.scan, h] at ho⟩
  split
  · exact hu.scanKept.next
  · next h =>
    push Not at h
    split
    · exact (hclosed _ h.2).next
    · exact (hclosed _ h.2).next
    · exact hu.scanKept.next

theorem execScanClearDone_scanKept : s.NextScanKept (execScanClearDone s) := by
  unfold execScanClearDone
  split
  · exact (State.SameScan.refl s).scanKept.next
  · exact State.ScanKept.next ⟨fun hm => ⟨le_rfl, hm⟩, fun _ => .inl rfl⟩

/-- R688: POR ends an open session, and removes no mark. -/
theorem assertReset_por_scanKept {u : State} (hu : s.SameScan u) (src : BitVec 4) (promoted : Bool) :
    s.ScanKept (u.assertReset .por src promoted) := .of_por hu.marks (assertReset_por_inReset ..)

theorem execPor_scanKept : s.NextScanKept (execPor s) := by
  unfold execPor
  extract_lets u
  have hu : s.SameScan u := (modRstc_only ..).sameScan rfl
  split
  · exact (hu.step (modRstc_only ..) rfl).scanKept.next
  · exact (assertReset_por_scanKept s hu ..).next

theorem execSupplyMonitorTrip_scanKept : s.NextScanKept (execSupplyMonitorTrip s) := by
  unfold execSupplyMonitorTrip
  extract_lets u v
  have hu : s.SameScan u := (modRstc_only ..).sameScan rfl
  refine State.ScanKept.next ?_
  unfold v
  split
  · exact ((hu.step (absorbReset_only ..) rfl).step (modPwr_only ..) rfl).scanKept
  · exact .of_por hu.marks (assertReset_por_inReset u 2 false)

theorem execChestCopyDone_scanKept : s.NextScanKept (execChestCopyDone s) := by
  unfold execChestCopyDone
  split
  · exact (State.SameScan.refl s).scanKept.next
  · extract_lets u
    have hu : s.SameScan u := finishCopy_sameScan s
    split
    · exact (assertReset_por_scanKept s hu ..).next
    · exact hu.scanKept.next

theorem execOrderlyResetAssert_scanKept : s.NextScanKept (execOrderlyResetAssert s) := by
  unfold execOrderlyResetAssert
  split
  · exact (State.SameScan.refl s).scanKept.next
  · next o _ =>
    split
    · by_cases hl : o.level = .por
      · rw [hl]
        exact (assertReset_por_scanKept s (.refl s) ..).next
      · exact (assertReset_sameScan s hl ..).scanKept.next
    · exact (State.SameScan.refl s).scanKept.next

/-- Every command keeps the marks, and an open session up to POR: by its frame where that leaves out `flash` and `sec`, and else by
one of the lemmas above. -/
theorem exec_scanKept (c : Instr) : s.NextScanKept (exec c s) := by
  cases c with
  | eb1Unlock => exact execEb1Unlock_scanKept s
  | scanEn => exact execScanEn_scanKept s
  | scanClearDone => exact execScanClearDone_scanKept s
  | por => exact execPor_scanKept s
  | supplyMonitorTrip => exact execSupplyMonitorTrip_scanKept s
  | chestCopyDone => exact execChestCopyDone_scanKept s
  | orderlyResetAssert => exact execOrderlyResetAssert_scanKept s
  | registerWrite => exact (execRegisterWrite_sameScan ..).scanKept
  | bar0MultiwordAccess => exact (execBar0MultiwordAccess_sameScan ..).scanKept
  | pwrWake => exact (execPwrWake_sameScan ..).scanKept
  | fretDomainWrite | flightRemeasure | clkChangeGo | clkHalfSet | clkHalfRestore | lpFlush | kvpEnable | connOpen | connClose
  | queueBind | queueUnbind | fabPortDisable | nqHeadWrite | rxConsume | ownerClaim | ownerRelease | ownerGive | digestEnable
  | digestDisable | digestVerify | digestCfgWrite | healFence | healRotate | healPartitionRecovery | twinAttachSource
  | twinAttachSink | twinDetach | rstcReqCore | rstcReqSystem | blkMaintenanceReset | blkRecoveryReset | brupStartStage
  | brupPause | brupResume | brupBootPushed | brupProgram | pwrParkNow | budgetWrite | pegRetuneAll | lcTransitionRequest
  | idGenerate | opkWrite | opkErase | quoteRequest | shutdownTestStart =>
    exact (accWrite_sameScan ..).next.scanKept
  | scriptWrite => exact (execScriptWrite_sameScan ..).scanKept
  | scriptModify => exact (execScriptModify_sameScan ..).scanKept
  | mgmtSystemReset =>
    exact (mgmtCommand_changes_sameScan s _ _ _ fun u => requestReset_sameScan u (by decide) ..).next.scanKept
  | mgmtCoreReset =>
    exact (mgmtCommand_changes_sameScan s _ _ _ fun u => requestReset_sameScan u (by decide) ..).next.scanKept
  | mgmtAssignOwner => exact (execMgmtAssignOwner_sameScan ..).scanKept
  | mgmtSetBudget => exact (mgmtCommand_changes_sameScan s _ _ _ fun u => (setMgmtBudget_only ..).sameScan rfl).next.scanKept
  | mgmtChestClear => exact (mgmtCommand_changes_sameScan s _ _ _ fun u => clearChest_sameScan ..).next.scanKept
  | mgmtClearRetire => exact (execMgmtClearRetire_sameScan ..).scanKept
  | mgmtQuote => exact (execMgmtQuote_sameScan ..).scanKept
  | mgmtWriteReg => exact (execMgmtWriteReg_sameScan ..).scanKept
  | mgmtUnknownCommand => exact (execMgmtUnknownCommand_sameScan ..).scanKept
  | retireStart => exact (execRetireStart_sameScan ..).scanKept
  | retireComplete => exact (execRetireComplete_sameScan ..).scanKept
  | firing => exact (execFiring_sameScan ..).scanKept
  | steerEmit => exact (execSteerEmit_sameScan ..).scanKept
  | writeDrawerFillCheck => exact (execWriteDrawerFillCheck_sameScan ..).scanKept
  | wormRoute => exact (execWormRoute_sameScan ..).scanKept
  | releaseQueueArrive => exact (execReleaseQueueArrive_sameScan ..).scanKept
  | ncnCrcError => exact (execNcnCrcError_sameScan ..).scanKept
  | hbmPhyFault => exact (retireCause_sameScan ..).next.scanKept
  | taskHang => exact (execTaskHang_sameScan ..).scanKept
  | arbitrationDone => exact (execArbitrationDone_sameScan ..).scanKept
  | digestPassDone => exact (execDigestPassDone_sameScan ..).scanKept
  | digestMessageReceive => exact (execDigestMessageReceive_sameScan ..).scanKept
  | hbmWindowTestDone => exact (execHbmWindowTestDone_sameScan ..).scanKept
  | infieldTestDone => exact (execInfieldTestDone_sameScan ..).scanKept
  | wakeDone => exact (execWakeDone_sameScan ..).scanKept
  | shutdownTestPhase => exact (execShutdownTestPhase_sameScan ..).scanKept
  | shutdownRecord => exact (execShutdownRecord_sameScan ..).scanKept
  | healthRecordFenceWrite => exact (writeHealth_sameScan ..).next.scanKept
  | remapApply => exact (execRemapApply_sameScan ..).scanKept
  | rotationApply => exact (execRotationApply_sameScan ..).scanKept
  | healFenceDeferredApply => exact (execHealFenceDeferredApply_sameScan ..).scanKept
  | prrResetDone => exact (execPrrResetDone_sameScan ..).scanKept
  | pegRetune => exact (execPegRetune_sameScan ..).scanKept
  | chestRecordPlace => exact (execChestRecordPlace_sameScan ..).scanKept
  | chestCopyStart => exact (execChestCopyStart_sameScan ..).scanKept
  | thermalTrip => exact (execThermalTrip_sameScan ..).scanKept
  | sysrstNAssert => exact (execSysrstNAssert_sameScan ..).scanKept
  | mcWatchdogExpire => exact (execMcWatchdogExpire_sameScan ..).scanKept
  | mcLockstepFail => exact (execMcLockstepFail_sameScan ..).scanKept
  | lcFuseWriteDone => exact (execLcFuseWriteDone_sameScan ..).scanKept
  | stageBu0 => exact (execStageBu0_sameScan ..).scanKept
  | stageBu1 => exact (execStageBu1_sameScan ..).scanKept
  | stageBu4 => exact (execStageBu4_sameScan ..).scanKept
  | stageBu5 => exact (execStageBu5_sameScan ..).scanKept
  | stageBu6 => exact (execStageBu6_sameScan ..).scanKept
  | stageBu7 => exact (execStageBu7_sameScan ..).scanKept
  | stageBu8 => exact (execStageBu8_sameScan ..).scanKept
  | mcLoad => exact (execMcLoad_sameScan ..).scanKept
  | mcUnload => exact (execMcUnload_sameScan ..).scanKept
  | signRequest => exact (execSignRequest_sameScan ..).scanKept
  | signatureDone => exact (execSignatureDone_sameScan ..).scanKept
  | quoteDone => exact (execQuoteDone_sameScan ..).scanKept
  | _ => exact (exec_frame _ s).scanKept rfl

end Commands

/-! ## BU1 reads the marks, and a quote reports them -/

section Report

variable (s : State)

/-- A stage that fails is not PASSED. -/
theorem failStage_passed (n code : Nat) (detail : Word) : (s.failStage n code detail).passed n = false := by
  unfold State.failStage State.when
  extract_lets done u v
  have hu : u.passed n = false := by
    have hset : (s.brup.stages.set n .failed).getD n .notRun ≠ .passed := by
      rw [List.getD_eq_getElem?_getD, List.getElem?_set_self']
      cases s.brup.stages[n]? <;> simp
    exact decide_eq_false hset
  have hv : v.passed n = false := by
    rw [State.passed, (record_only ..).brup]
    exact hu
  split
  · exact hv
  · exact hv

theorem logImage_marks (type : Byte) (img : FlashImage) (info : List Byte) :
    (s.logImage type img info).sec.marks = s.sec.marks := by
  unfold State.logImage
  split <;> rfl

theorem bootLog_marks (slot : Nat) (scriptOk : Bool) : (s.bootLog slot scriptOk).sec.marks = s.sec.marks := by
  unfold State.bootLog State.when
  extract_lets d u v w x
  have hv : v.sec.marks = s.sec.marks := by
    unfold v
    split <;> rfl
  have hx : x.sec.marks = s.sec.marks := by rw [logImage_marks, logImage_marks, hv]
  split
  · rw [logImage_marks, hx]
  · exact hx

theorem bootKeys_marks : s.bootKeys.sec.marks = satOfNat 16 s.flash.marks := by
  unfold State.bootKeys State.when
  extract_lets blocks u v
  split
  · rw [(record_only ..).sec]
    rfl
  · rfl

/-- BU1 passes only where it has read the number of marks from flash. -/
theorem execStageBu1_marks {t : State} {b : Bool} (ht : execStageBu1 b s = .next t) (hs : s.passed 1 = false)
    (hp : t.passed 1 = true) : t.sec.marks = satOfNat 16 s.flash.marks := by
  have hfail (code : Nat) (h : (.next (s.failStage 1 code 0) : Host.Outcome State Fault Refusal) = .next t) : False := by
    cases h
    simp [failStage_passed] at hp
  unfold execStageBu1 at ht
  split at ht
  · cases ht
    simp [hs] at hp
  · extract_lets img at ht
    split at ht
    · exact (hfail _ ht).elim
    · split at ht
      · exact (hfail _ ht).elim
      · split at ht
        · exact (hfail _ ht).elim
        · extract_lets scriptOk u v at ht
          cases ht
          rw [(passStage_only ..).sec, (modRstc_only ..).sec, (modBrup_only ..).sec, (bootTriggers_only ..).sec, bootLog_marks,
            bootKeys_marks, (bootIdentity_only ..).flash]
          rfl

theorem toNat_satOfNat {w n : Nat} (h : n ≤ 2 ^ w - 1) : (satOfNat w n).toNat = n := by
  have := Nat.two_pow_pos w
  rw [satOfNat, BitVec.toNat_ofNat, Nat.min_eq_left h, Nat.mod_eq_of_lt (by omega)]

/-- The lowest of three flags that stand side by side. -/
theorem flags_mod_two (p q r : Bool) : decide ((p.toNat + 2 * q.toNat + 4 * r.toNat) % 2 = 1) = p := by
  revert p q r
  decide

/-- R683: bit 0 of byte 7 of a quote says whether there are marks. -/
theorem quoteBytes_marks (nonce : List Byte) (seq : BitVec 32) :
    ∃ b, (s.quoteBytes nonce seq)[7]? = some b ∧ bit b 0 = decide (s.sec.marks ≠ 0) := by
  refine ⟨_, rfl, ?_⟩
  simp only [bit, BitVec.getLsbD_ofNat, Nat.testBit_zero, flags_mod_two, Nat.ofNat_pos, decide_true, Bool.true_and]

end Report

/-- Settles O54: only the EB1 path changes the number of marks, and adds one; BU1 reads that number before it passes, and a quote
reports whether it is 0. -/
theorem fieldScanMarksStay : Obligations.FieldScanMarksStay := by
  refine ⟨?added, fun c s t hm h => ((exec_scanKept s c).of_eq h).marks hm, ?read, fun s => quoteBytes_marks s⟩
  case added =>
    intro s t hlc hclosed ht hopen
    obtain ⟨u, hu, hsame⟩ | ⟨-, u, hu, hmarks, hscan⟩ := execEb1Unlock_cases s
    · cases hu.symm.trans ht
      exact absurd (hsame.scan.trans hclosed) hopen
    · cases hu.symm.trans ht
      exact ⟨hmarks, hscan⟩
  case read =>
    intro s t ht hs hp hm
    rw [execStageBu1_marks s ht hs hp, toNat_satOfNat hm]

/-- Settles O55: every command leaves an open session open or the chip in POR, and SYSRST_N going high ends a system reset only with
scan closed. -/
theorem openScanEndsOnlyAtPor : Obligations.OpenScanEndsOnlyAtPor := by
  refine ⟨fun c s t ho h => ((exec_scanKept s c).of_eq h).opened ho, fun s t ho hr ht => ?_⟩
  have ht : execSysrstNRelease s = .next t := ht
  unfold execSysrstNRelease at ht
  extract_lets u at ht
  have hopen : u.sec.scan ≠ .closed := by
    rw [show u.sec.scan = .opened from ho]
    decide
  rw [if_neg fun h => hopen h.2] at ht
  rw [← Host.Outcome.next.inj ht]
  exact ⟨hr, ho⟩

end Sys2Proof.Machine
end

section
/-!
PROOFS. O47 to O52: what holds of every command by its frame, of the queue, and of the state at reset.
-/

set_option Elab.async false

namespace Sys2Proof.Machine

/-! ## The queue -/

theorem frameOf_pending (c : Instr) : .pending ∉ frameOf c := by
  have h : (frameOf c).contains .pending = false := by cases c <;> rfl
  simpa using h

/-- What a command answers lies in its frame. -/
theorem exec_only {c : Instr} {s t : State} (h : exec c s = .next t) : s.Only t (frameOf c) := by
  obtain ⟨u, hu, honly⟩ := exec_frame c s
  cases hu.symm.trans h
  exact honly

theorem exec_completes (c : Instr) (s : State) : ∃ t, exec c s = .next t ∧ t.pending = s.pending := by
  obtain ⟨t, ht, honly⟩ := exec_frame c s
  exact ⟨t, ht, honly.pending (frameOf_pending c)⟩

theorem step_nil {s : State} (h : s.pending = []) : step s = .next s := by
  unfold step
  rw [h]

theorem step_cons (s : State) (c : Instr) (rest : List Instr) :
    step { s with pending := c :: rest } = exec c { s with pending := rest } := rfl

theorem run_idle {s : State} (h : s.pending = []) (n : Nat) : run n s = some s := by
  induction n with
  | zero => rfl
  | succ n ih => rw [run, step_nil h]; exact ih

/-- A run of one step more takes the front command, which completes. -/
theorem run_cons (s : State) (c : Instr) (rest : List Instr) :
    ∃ w, exec c { s with pending := rest } = .next w ∧ w.pending = rest ∧
      ∀ n, run (n + 1) { s with pending := c :: rest } = run n w := by
  obtain ⟨w, hw, hpending⟩ := exec_completes c { s with pending := rest }
  exact ⟨w, hw, hpending, fun n => by rw [run, step_cons, hw]⟩

/-- As many steps as commands wait empty the queue. -/
theorem run_drains (q : List Instr) : ∀ s : State, s.pending = q → ∃ t, run q.length s = some t ∧ t.pending = [] := by
  induction q with
  | nil => exact fun s h => ⟨s, rfl, h⟩
  | cons c rest ih =>
    intro s h
    obtain ⟨w, -, hw, hrun⟩ := run_cons s c rest
    obtain ⟨t, ht, hempty⟩ := ih w hw
    exact ⟨t, by rw [List.length_cons, ← ht, ← hrun, ← h], hempty⟩

theorem safe_of_pending (q : List Instr) : ∀ s : State, s.pending = q → Safe s := by
  induction q with
  | nil => exact fun s h n => by rw [run_idle h]; rfl
  | cons c rest ih =>
    intro s h n
    obtain ⟨w, -, hw, hrun⟩ := run_cons s c rest
    cases n with
    | zero => rfl
    | succ n =>
      have hs := hrun n
      rw [← h] at hs
      rw [hs]
      exact ih w hw n

/-- Settles O47. -/
theorem stepRunsTheFrontCommand : Obligations.StepRunsTheFrontCommand := ⟨step_cons, fun _ => step_nil⟩

/-- Settles O51: every command answers a next state by its frame, which leaves out the queue; the runs are inductions on the queue. -/
theorem everyCommandCompletes : Obligations.EveryCommandCompletes := by
  refine ⟨exec_completes, fun s => safe_of_pending _ s rfl, fun s => ?_, fun s c rest => ?_⟩
  · obtain ⟨t, ht, hempty⟩ := run_drains s.pending s rfl
    exact ⟨t, ht, hempty, run_idle hempty⟩
  · obtain ⟨w, hw, hrest, hrun⟩ := run_cons s c rest
    exact ⟨w, hw, hrest, hrun _⟩

/-! ## Reset and device memory -/

/-- Settles O48. -/
theorem resetIsAsTheSpecSays : Obligations.ResetIsAsTheSpecSays := by
  unfold Obligations.ResetIsAsTheSpecSays
  repeat' constructor

/-- Settles O49: the tables of device memory are empty. -/
theorem resetMemoryIsWellFormed : Obligations.ResetMemoryIsWellFormed := rfl

/-- Settles O50: a step is an idle one or a command's, and a command's frame keeps the form of memory. -/
theorem stepKeepsMemoryWellFormed : Obligations.StepKeepsMemoryWellFormed := by
  intro s t hform ht
  unfold step at ht
  split at ht
  · cases ht
    exact hform
  · exact (exec_only ht).2 hform

/-! ## Fuses and the TAP -/

/-- A command that blows fuses (14 R665, R669, R670). -/
def blowsFuses : Instr → Bool
  | .lcFuseWriteDone | .idGenerateDone _ | .stageBu9 _ => true
  | _ => false

theorem frameOf_fuse {c : Instr} (h : blowsFuses c = false) : .fuse ∉ frameOf c := by
  have h : (frameOf c).contains .fuse = false := by
    cases c with
    | lcFuseWriteDone | idGenerateDone | stageBu9 => contradiction
    | _ => rfl
  simpa using h

/-- An instruction at the TAP, or TRST_N (14 R685; 18 R774). -/
def atTap : Instr → Bool
  | .scanEn | .eb1Unlock | .jtagIdcode | .jtagClamp | .jtagHighz | .trstNAssert | .jtagExtest _ | .jtagSamplePreload _ _
  | .jtagExtestPulse _ | .jtagExtestTrain _ | .jtagBypass _ => true
  | _ => false

theorem frameOf_tap {c : Instr} (h : atTap c = false) : .tap ∉ frameOf c := by
  have h : (frameOf c).contains .tap = false := by
    cases c with
    | scanEn | eb1Unlock | jtagIdcode | jtagClamp | jtagHighz | trstNAssert | jtagExtest | jtagSamplePreload
    | jtagExtestPulse | jtagExtestTrain | jtagBypass => contradiction
    | _ => rfl
  simpa using h

/-- Two states of one part: the fuses that say which part it is agree. -/
def State.SamePart (s t : State) : Prop := t.fuse.grade = s.fuse.grade ∧ t.fuse.serial = s.fuse.serial

theorem State.Only.samePart {s t : State} {cs : List Comp} (h : s.Only t cs) (hcs : .fuse ∉ cs := by decide) : s.SamePart t := by
  unfold State.SamePart
  rw [h.fuse hcs]
  exact ⟨rfl, rfl⟩

theorem State.SamePart.trans {s t u : State} (h : s.SamePart t) (k : t.SamePart u) : s.SamePart u :=
  ⟨k.1.trans h.1, k.2.trans h.2⟩

theorem writeLcFuses_samePart (s : State) (target : Nat) : s.SamePart (s.writeLcFuses target) := by
  unfold State.writeLcFuses State.when
  dsimp only
  split <;> exact ⟨rfl, rfl⟩

theorem execLcFuseWriteDone_samePart {s t : State} (h : execLcFuseWriteDone s = .next t) : s.SamePart t := by
  unfold execLcFuseWriteDone at h
  split at h
  · cases h
    exact ⟨rfl, rfl⟩
  · cases h
    exact ((writeLcFuses_samePart s _).trans (modSec_only ..).samePart).trans (requestReset_only ..).samePart

theorem execIdGenerateDone_samePart {s t : State} {x : BitVec 512} (h : execIdGenerateDone x s = .next t) : s.SamePart t := by
  unfold execIdGenerateDone at h
  split at h <;> cases h <;> exact ⟨rfl, rfl⟩

theorem applyAdvance_samePart (s : State) : s.SamePart s.applyAdvance := by
  unfold State.applyAdvance
  split
  · exact ⟨rfl, rfl⟩
  · split <;> exact ⟨rfl, rfl⟩

theorem reportReady_samePart (s : State) : s.SamePart s.reportReady := by
  unfold State.reportReady
  refine .trans (.trans ?_ (applyAdvance_samePart _)) (readyPins_only ..).samePart
  refine State.Only.samePart (cs := [.brup, .top, .rstc, .pwr, .fret, .out]) ?_
  refine only_when ?_ (only_setReq ?_ (by decide)) <;>
    exact only_modRstc (only_modTop (only_modBrup (.refl s _) (by decide)) (by decide)) (by decide)

theorem execStageBu9_samePart {s t : State} {x : Bool} (h : execStageBu9 x s = .next t) : s.SamePart t := by
  unfold execStageBu9 at h
  split at h
  · cases h
    exact ⟨rfl, rfl⟩
  · split at h
    · cases h
      exact (failStage_only ..).samePart
    · cases h
      exact (((bindMc_only _).samePart).trans (passStage_only ..).samePart).trans (reportReady_samePart _)

theorem exec_samePart {c : Instr} {s t : State} (h : exec c s = .next t) : s.SamePart t := by
  cases hc : blowsFuses c with
  | false => exact (exec_only h).samePart (frameOf_fuse hc)
  | true =>
    cases c with
    | lcFuseWriteDone => exact execLcFuseWriteDone_samePart h
    | idGenerateDone => exact execIdGenerateDone_samePart h
    | stageBu9 => exact execStageBu9_samePart h
    | _ => contradiction

/-- Settles O52: by the frames, and by what the three commands that blow fuses leave. -/
theorem fusesAndTapMoveByTheirOwnCommands : Obligations.FusesAndTapMoveByTheirOwnCommands := by
  refine ⟨fun c s t h => exec_samePart h, fun c s t h hlc hid hbu9 => ?_, fun c s t h htap => ?_⟩
  · refine (exec_only h).fuse (frameOf_fuse ?_)
    cases c with
    | lcFuseWriteDone => exact absurd rfl hlc
    | idGenerateDone x => exact absurd rfl (hid x)
    | stageBu9 x => exact absurd rfl (hbu9 x)
    | _ => rfl
  · cases hc : atTap c with
    | false => exact absurd ((exec_only h).tap (frameOf_tap hc)) htap
    | true =>
      cases c with
      | scanEn | eb1Unlock | jtagIdcode | jtagClamp | jtagHighz | trstNAssert | jtagExtest | jtagSamplePreload
      | jtagExtestPulse | jtagExtestTrain | jtagBypass => simp
      | _ => contradiction

end Sys2Proof.Machine
end

section
/-!
PROOFS. What keeps the identity key's leaves and the sealed chip (14 R663, R664, R674, R675). An operation whose frame holds none of
`fuse`, `flash`, `ids` and `sec` keeps both by its frame; the others are taken apart here, and below the commands that reach them.
-/

set_option Elab.async false

namespace Sys2Proof.Machine

/-- Two states agree in the leaf counter and in the leaf block held. -/
structure State.SameLeaf (s t : State) : Prop where
  counter : t.flash.leafCounter = s.flash.leafCounter
  held : t.ids.held = s.ids.held
  leaf : t.ids.leaf = s.ids.leaf
  blocks : t.ids.blocks = s.ids.blocks

/-- The second state holds the leaf block that follows the last, where the first held none (R674). -/
structure State.TookBlock (s t : State) : Prop where
  unheld : s.ids.held = false
  held : t.ids.held = true
  leaf : t.ids.leaf = BitVec.ofNat 40 (s.ids.blocks.toNat * 4096)
  blocks : t.ids.blocks = s.ids.blocks + 1
  counter : t.flash.leafCounter = s.flash.leafCounter + 1

/-- The chip is in END for good: no transition is being written, and no identity key is being made (R663, R664). -/
structure State.Sealed (s : State) : Prop where
  fuse : s.fuse.lc = .final
  sec : s.sec.lc = .final
  pending : s.sec.lcPending = none
  ids : s.ids.state ≠ .generating

/-- What a sealed chip keeps: it stays sealed, and the device secret stays. -/
def State.KeepsSeal (s t : State) : Prop := s.Sealed → t.Sealed ∧ t.fuse.secret = s.fuse.secret

/-- Leaves are kept or one block is taken, and a sealed chip stays sealed. -/
structure State.KeysKept (s t : State) : Prop where
  leaves : s.SameLeaf t ∨ s.TookBlock t
  sealed : s.KeepsSeal t

/-- A frame that leaves out the parts that hold the leaves and the seal. -/
def offKeys (cs : List Comp) : Bool := !cs.contains .fuse && !cs.contains .flash && !cs.contains .ids && !cs.contains .sec

section KeysKept

variable {s t u : State} {cs : List Comp}

theorem State.SameLeaf.refl (s : State) : s.SameLeaf s := ⟨rfl, rfl, rfl, rfl⟩

theorem State.SameLeaf.trans (h : s.SameLeaf t) (k : t.SameLeaf u) : s.SameLeaf u :=
  ⟨k.counter.trans h.counter, k.held.trans h.held, k.leaf.trans h.leaf, k.blocks.trans h.blocks⟩

theorem State.KeepsSeal.refl (s : State) : s.KeepsSeal s := fun h => ⟨h, rfl⟩

theorem State.KeepsSeal.trans (h : s.KeepsSeal t) (k : t.KeepsSeal u) : s.KeepsSeal u := fun hs =>
  have ⟨ht, hst⟩ := h hs
  have ⟨hu, htu⟩ := k ht
  ⟨hu, htu.trans hst⟩

/-- Two states with the same fuses and the same parts of the seal. -/
theorem State.KeepsSeal.of_eq (hfuse : t.fuse = s.fuse) (hlc : t.sec.lc = s.sec.lc) (hp : t.sec.lcPending = s.sec.lcPending)
    (hids : t.ids.state = s.ids.state) : s.KeepsSeal t := fun h =>
  ⟨⟨by rw [hfuse]; exact h.fuse, hlc.trans h.sec, hp.trans h.pending, by rw [hids]; exact h.ids⟩, by rw [hfuse]⟩

theorem State.KeysKept.refl (s : State) : s.KeysKept s := ⟨.inl (.refl s), .refl s⟩

/-- A block that was taken is held, so a second is not taken after it. -/
theorem State.KeysKept.trans (h : s.KeysKept t) (k : t.KeysKept u) : s.KeysKept u := by
  refine ⟨?_, h.sealed.trans k.sealed⟩
  obtain hst | hst := h.leaves <;> obtain htu | htu := k.leaves
  · exact .inl (hst.trans htu)
  · refine .inr ⟨hst.held ▸ htu.unheld, htu.held, ?_, ?_, ?_⟩
    · rw [htu.leaf, hst.blocks]
    · rw [htu.blocks, hst.blocks]
    · rw [htu.counter, hst.counter]
  · exact .inr ⟨hst.unheld, htu.held.trans hst.held, htu.leaf.trans hst.leaf, htu.blocks.trans hst.blocks,
      htu.counter.trans hst.counter⟩
  · exact absurd (hst.held.symm.trans htu.unheld) (by decide)

theorem State.Only.keysKept (h : s.Only t cs) (hcs : offKeys cs = true) : s.KeysKept t := by
  obtain ⟨⟨⟨hfuse, hflash⟩, hids⟩, hsec⟩ : ((.fuse ∉ cs ∧ .flash ∉ cs) ∧ .ids ∉ cs) ∧ .sec ∉ cs := by simpa [offKeys] using hcs
  have hids := h.ids hids
  have hsec := h.sec hsec
  exact ⟨.inl ⟨by rw [h.flash hflash], by rw [hids], by rw [hids], by rw [hids]⟩,
    .of_eq (h.fuse hfuse) (by rw [hsec]) (by rw [hsec]) (by rw [hids])⟩

/-- A change of parts of the state that hold neither the leaves nor the seal. -/
theorem State.KeysKept.step (h : s.KeysKept t) (k : t.Only u cs) (hcs : offKeys cs = true) : s.KeysKept u :=
  h.trans (k.keysKept hcs)

theorem State.KeysKept.each {α : Type} {f : State → α → State} {xs : List α} (h : s.KeysKept t)
    (hf : ∀ (v : State) x, v.KeysKept (f v x)) : s.KeysKept (t.each xs f) := by
  unfold State.each
  induction xs generalizing t with
  | nil => exact h
  | cons x xs ih => exact ih (h.trans (hf t x))

theorem State.KeysKept.when {c : Bool} {f : State → State} (h : s.KeysKept t) (hf : ∀ v : State, v.KeysKept (f v)) :
    s.KeysKept (t.when c f) := by
  unfold State.when
  split
  · exact h.trans (hf t)
  · exact h

theorem State.KeysKept.modFlash {f : FlashSt → FlashSt} (h : s.KeysKept t) (hf : ∀ x, (f x).leafCounter = x.leafCounter) :
    s.KeysKept (t.modFlash f) := h.trans ⟨.inl ⟨hf t.flash, rfl, rfl, rfl⟩, .of_eq rfl rfl rfl rfl⟩

theorem State.KeysKept.modSec {f : SecSt → SecSt} (h : s.KeysKept t)
    (hf : ∀ x, (f x).lc = x.lc ∧ (f x).lcPending = x.lcPending) : s.KeysKept (t.modSec f) :=
  h.trans ⟨.inl ⟨rfl, rfl, rfl, rfl⟩, .of_eq rfl (hf t.sec).1 (hf t.sec).2 rfl⟩

theorem State.KeysKept.modIds {f : IdSt → IdSt} (h : s.KeysKept t)
    (hf : ∀ x, (f x).held = x.held ∧ (f x).leaf = x.leaf ∧ (f x).blocks = x.blocks ∧ (f x).state = x.state) :
    s.KeysKept (t.modIds f) := by
  obtain ⟨hheld, hleaf, hblocks, hstate⟩ := hf t.ids
  exact h.trans ⟨.inl ⟨rfl, hheld, hleaf, hblocks⟩, .of_eq rfl rfl rfl hstate⟩

end KeysKept

/-! ## Copies of the Chest, retirement and fences -/

section Retirement

variable (s : State)

theorem startCopy_keysKept (reason : BitVec 8) : s.KeysKept (s.startCopy reason) := by
  unfold State.startCopy
  refine .step ?_ (modChest_only ..) rfl
  exact .modFlash (.refl s) fun _ => rfl

theorem copyRequest_keysKept (reason : BitVec 8) : s.KeysKept (s.copyRequest reason) := by
  unfold State.copyRequest
  split
  · exact startCopy_keysKept ..
  · exact (modChest_only ..).keysKept rfl

theorem finishCopy_keysKept : s.KeysKept s.finishCopy := by
  unfold State.finishCopy
  split
  · exact .refl s
  · extract_lets u v
    have hu : s.KeysKept u := .modFlash (.refl s) fun _ => rfl
    have hv : s.KeysKept v := hu.step (modChest_only ..) rfl
    split
    · exact (hv.step (modChest_only ..) rfl).trans (startCopy_keysKept ..)
    · exact hv

theorem placeOne_keysKept (east : Bool) : s.KeysKept (s.placeOne east) := by
  unfold State.placeOne
  split
  · exact .refl s
  · exact .when ((modChest_only ..).keysKept rfl) fun v => ((attn_only ..).keysKept rfl).trans (copyRequest_keysKept ..)

theorem placeAll_keysKept (k : Nat) : s.KeysKept (State.placeAll k s) := by
  induction k generalizing s with
  | zero => exact .refl s
  | succ k ih => exact (placeOne_keysKept ..).trans (ih _)

theorem setRetireFlag_keysKept (cause : BitVec 4) : s.KeysKept (s.setRetireFlag cause) := by
  unfold State.setRetireFlag
  exact .modFlash ((modRelx_only ..).keysKept rfl) fun _ => rfl

theorem retireCause_keysKept (cause : BitVec 4) : s.KeysKept (s.retireCause cause) := by
  unfold State.retireCause
  extract_lets u
  have hu : s.KeysKept u := (modBist_only ..).keysKept rfl
  split
  · exact hu.step (causeRecord_only ..) rfl
  · split
    · exact ((hu.trans (setRetireFlag_keysKept ..)).step (causeRecord_only ..) rfl).step (retired_only ..) rfl
    · split
      · exact (hu.step (modHealx_only ..) rfl).step (causeRecord_only ..) rfl
      · exact (hu.step (drainNow_only ..) rfl).step (causeRecord_only ..) rfl

theorem lostCheck_keysKept (c : Nat) (before : List Nat) : s.KeysKept (s.lostCheck c before) := by
  unfold State.lostCheck
  refine .when ?_ fun v => retireCause_keysKept ..
  exact .each (.refl s) fun v _ => (variantRecord_only ..).keysKept rfl

theorem fenceTile_keysKept (pt verdict : Nat) : s.KeysKept (s.fenceTile pt verdict) := by
  unfold State.fenceTile
  extract_lets c before
  split
  · exact .refl s
  · split
    · exact (modHealx_only ..).keysKept rfl
    · refine .trans ?_ (lostCheck_keysKept ..)
      refine .step ?_ (recordAt_only ..) rfl
      refine .step ?_ (attn_only ..) rfl
      refine .step ?_ (modHeal_only ..) rfl
      refine .step ?_ (clearTransit_only ..) rfl
      exact ((updRole_only ..).keysKept rfl).step (updTile_only ..) rfl

theorem tileHang_keysKept (pt : Nat) : s.KeysKept (s.tileHang pt) := by
  unfold State.tileHang
  extract_lets again spare
  split
  · exact fenceTile_keysKept ..
  · exact (updRole_only ..).keysKept rfl

theorem hangNamed_keysKept (part : Nat) (tile : Option Nat) : s.KeysKept (s.hangNamed part tile) := by
  unfold State.hangNamed
  extract_lets code
  split
  · exact (modHealx_only ..).keysKept rfl
  · split
    · exact tileHang_keysKept ..
    · exact (startRecovery_only ..).keysKept rfl

theorem heldOrders_keysKept (p : Nat) : s.KeysKept (s.heldOrders p) := by
  have hhang (v : State) (c : Nat) : v.KeysKept (if c < 4096 then v.tileHang c else v.startRecovery (c - 4096)) := by
    split
    · exact tileHang_keysKept ..
    · exact (startRecovery_only ..).keysKept rfl
  unfold State.heldOrders
  extract_lets fences hangs u₁ u₂ u₃ u₄ rots u₅ u
  have hu : s.KeysKept u := by
    refine .each ?_ fun v c => (markRotation_only ..).keysKept rfl
    refine .step ?_ (modHealx_only ..) rfl
    refine .each ?_ hhang
    refine .when ?_ fun v => (modHeal_only ..).keysKept rfl
    exact .each ((modHealx_only ..).keysKept rfl) fun v c => fenceTile_keysKept ..
  split
  · split
    · exact hu
    · exact (hu.step (modHealx_only ..) rfl).step (drainNow_only ..) rfl
  · exact hu

theorem endRecovery_keysKept (p : Nat) : s.KeysKept (s.endRecovery p) := by
  unfold State.endRecovery
  split
  · exact .refl s
  · refine .when ?_ fun v => heldOrders_keysKept ..
    exact ((setPartMode_only ..).keysKept rfl).step (unfenceQueues_only ..) rfl

theorem moveSlot_keysKept (c slot new : Nat) : s.KeysKept (s.moveSlot c slot new) := by
  unfold State.moveSlot
  refine .trans ?_ (lostCheck_keysKept ..)
  refine .step ?_ (modHeal_only ..) rfl
  refine .step ?_ (modFree_only ..) rfl
  refine .when ?_ fun v => ((updRole_only ..).keysKept rfl).step (updTile_only ..) rfl
  refine .step ?_ (updRole_only ..) rfl
  refine .step ?_ (updClus_only ..) rfl
  exact ((resetTile_only ..).keysKept rfl).step (updTile_only ..) rfl

theorem mapCluster_keysKept (c : Nat) : s.KeysKept (s.mapCluster c) := by
  unfold State.mapCluster
  dsimp only
  split
  · exact .refl s
  · refine .trans ?_ (lostCheck_keysKept ..)
    exact .each ((updClus_only ..).keysKept rfl) fun v i => (updRole_only ..).keysKept rfl

theorem mapChip_keysKept : s.KeysKept s.mapChip := by
  unfold State.mapChip
  exact .each (((modRstc_only ..).keysKept rfl).step (modBist_only ..) rfl) fun v c => mapCluster_keysKept ..

end Retirement

/-! ## Faults and tests -/

section Faults

variable (s : State)

theorem transitAct_keysKept (unit : Nat) : s.KeysKept (s.transitAct unit) := by
  unfold State.transitAct
  split
  · exact fenceTile_keysKept ..
  · exact retireCause_keysKept ..
  · exact retireCause_keysKept ..
  · exact (fabDown_only ..).keysKept rfl

theorem countTransit_keysKept (unit : Nat) : s.KeysKept (s.countTransit unit) := by
  unfold State.countTransit
  exact .when (((modRelx_only ..).keysKept rfl).step (modRel_only ..) rfl) fun v => transitAct_keysKept ..

theorem transitAt_keysKept (r : Router) (inPort : Nat) (bad : Option Nat) : s.KeysKept (s.transitAt r inPort bad) := by
  unfold State.transitAt
  split
  · exact countTransit_keysKept ..
  · exact .refl s

theorem tileFault_keysKept (pt : Nat) (task : BitVec 32) (fold : Nat) (rt : FoldRt) (f : TileFault) :
    s.KeysKept (s.tileFault pt task fold rt f) := by
  unfold State.tileFault
  cases f with
  | macPass | hammingPass | fp32 | duplicated =>
    exact (((modRel_only ..).keysKept rfl).step (updTile_only ..) rfl).step (detect_only ..) rfl
  | parityUse => exact ((modRel_only ..).keysKept rfl).step (detect_only ..) rfl
  | sramCorrected w => exact ((updTile_only ..).keysKept rfl).step (modRel_only ..) rfl
  | sramDouble w =>
    refine .trans ?_ (countTransit_keysKept ..)
    exact (((updTile_only ..).keysKept rfl).step (modRel_only ..) rfl).step (detect_only ..) rfl

theorem tileFaults_keysKept (pt : Nat) (task : BitVec 32) (fold : Nat) (rt : FoldRt) (fs : List TileFault) :
    s.KeysKept (s.tileFaults pt task fold rt fs) := .each (.refl s) fun _ _ => tileFault_keysKept ..

theorem sendFlit_keysKept (r : Router) (x : RtWorm) (parityOk bad : Bool) : s.KeysKept (s.sendFlit r x parityOk bad) := by
  unfold State.sendFlit
  extract_lets first last less u v
  have hv : s.KeysKept v := by
    have hu : s.KeysKept u := (updRouter_only ..).keysKept rfl
    unfold v
    split
    · exact hu.step (countHub_only ..) rfl
    · exact hu
  split
  · extract_lets w
    have hw : s.KeysKept w := hv.trans (transitAt_keysKept ..)
    split
    · exact hw.step (headIn_only ..) rfl
    · split
      · exact hw.step (poisonIn_only ..) rfl
      · exact hw.step (flitsIn_only ..) rfl
  · exact (hv.when fun w => countTransit_keysKept ..).step (releaseArrive_only ..) rfl
  · exact (hv.step (countTx_only ..) rfl).when fun w => (emit_only ..).keysKept rfl
  · split
    · exact hv.step (releaseArrive_only ..) rfl
    · exact (hv.when fun w => (modMch_only ..).keysKept rfl).when fun w => (arrived_only ..).keysKept rfl
  · exact hv

theorem slotGo_keysKept (r : Router) (out pick : Nat) (parityOk bad : Bool) : s.KeysKept (s.slotGo r out pick parityOk bad) := by
  unfold State.slotGo
  extract_lets xs
  split
  · exact (countStall_only ..).keysKept rfl
  · exact (((countStall_only ..).keysKept rfl).step (updRouter_only ..) rfl).trans (sendFlit_keysKept ..)

theorem slot_keysKept (r : Router) (out pick : Nat) (parityOk bad : Bool) : s.KeysKept (s.slot r out pick parityOk bad) := by
  unfold State.slot
  split
  · split
    · exact slotGo_keysKept ..
    · exact (cutPort_only ..).keysKept rfl
  · exact slotGo_keysKept ..

theorem digDiverge_keysKept (n : Nat) : s.KeysKept (s.digDiverge n) := by
  unfold State.digDiverge
  exact (((updDig_only ..).keysKept rfl).step (digRecord_only ..) rfl).trans (retireCause_keysKept ..)

theorem passState_keysKept (n : Nat) (d : BitVec 256) (tags : List (BitVec 64)) : s.KeysKept (s.passState n d tags) := by
  unfold State.passState
  extract_lets x u m
  have hu : s.KeysKept u := (updDig_only ..).keysKept rfl
  split
  · split
    · exact hu.step (digBad_only ..) rfl
    · exact (hu.step (updDig_only ..) rfl).step (digAgree_only ..) rfl
  · split
    · exact hu
    · exact (hu.step (updDig_only ..) rfl).step (digRecord_only ..) rfl
  · split
    · exact (hu.step (updDig_only ..) rfl).step (modRelx_only ..) rfl
    · split
      · exact (hu.step (digBad_only ..) rfl).trans (retireCause_keysKept ..)
      · exact (hu.step (updDig_only ..) rfl).step (digBad_only ..) rfl
  · exact hu

theorem faultyWindow_keysKept (e : Word) : s.KeysKept (s.faultyWindow e) := by
  unfold State.faultyWindow
  extract_lets p k u
  have hu : s.KeysKept u := by
    unfold u
    split
    · exact .refl s
    · exact (modBist_only ..).keysKept rfl
  exact (hu.step (recordAt_only ..) rfl).when fun v => retireCause_keysKept ..

/-- A test program that found a tile faulty, and the tile's fence. -/
theorem tileProgram_fenceTile_keysKept (pt n : Nat) (f : Option (BitVec 4)) (verdict : Nat) :
    s.KeysKept ((s.tileProgram pt n f).fenceTile pt verdict) := ((tileProgram_only ..).keysKept rfl).trans (fenceTile_keysKept ..)

theorem quickTest_keysKept (failed : List (Pt × BitVec 4)) : s.KeysKept (s.quickTest failed) := by
  unfold State.quickTest
  refine .each (.refl s) fun v pt => ?_
  split
  · exact tileProgram_fenceTile_keysKept ..
  · exact (tileProgram_only ..).keysKept rfl

theorem fullTest_keysKept (failed : List (Pt × BitVec 4)) : s.KeysKept (s.fullTest failed) := by
  unfold State.fullTest
  refine .each (.refl s) fun v pt => ?_
  split
  · exact tileProgram_fenceTile_keysKept ..
  · exact ((tileProgram_only ..).keysKept rfl).step (updRole_only ..) rfl

theorem writeHealth_keysKept (full : Bool) : s.KeysKept (s.writeHealth full) := by
  unfold State.writeHealth
  refine .step ?_ (modBist_only ..) rfl
  exact .modFlash (.refl s) fun _ => rfl

theorem applyHealth_keysKept : s.KeysKept s.applyHealth := by
  unfold State.applyHealth
  split
  · exact .refl s
  · exact .when ((modRstc_only ..).keysKept rfl) fun v => .modFlash (.refl v) fun _ => rfl

theorem addPeg_keysKept (kind index : Nat) : s.KeysKept (s.addPeg kind index) := by
  unfold State.addPeg
  split
  · exact .refl s
  · exact .modFlash (.refl s) fun _ => rfl

theorem causeStage_keysKept (n code : Nat) (detail : Word) (cause : BitVec 4) : s.KeysKept (s.causeStage n code detail cause) := by
  unfold State.causeStage
  exact ((retireCause_keysKept ..).step (failStage_only ..) rfl).step (modBrup_only ..) rfl

theorem endWork_keysKept (old : State) (n : Nat) : s.KeysKept (s.endWork old n) :=
  (only_endWork (fr := [.brup, .chest]) (.refl s _) fun _ h => h).keysKept rfl

end Faults

/-! ## The security block -/

section Security

variable (s : State)

theorem extendLog_keysKept (type : Byte) (sched : BitVec 32) (digest : BitVec 256) (info : List Byte) :
    s.KeysKept (s.extendLog type sched digest info) := by
  unfold State.extendLog
  exact .modSec (.refl s) fun _ => ⟨rfl, rfl⟩

/-- A change of the security block's registers of an unsealed chip. -/
theorem State.KeysKept.modSec_unsealed {f : SecSt → SecSt} (h : ¬ s.Sealed) : s.KeysKept (s.modSec f) :=
  ⟨.inl ⟨rfl, rfl, rfl, rfl⟩, fun hs => absurd hs h⟩

theorem writeLcReq_keysKept (w : Writer) (v : Word) : s.KeysKept (s.writeLcReq w v) := by
  unfold State.writeLcReq
  extract_lets allowed target
  split
  · exact .refl s
  · split
    · next x hx =>
      refine .modSec_unsealed s fun hs => ?_
      simp [hs.pending, State.transition, hs.sec] at hx
    · exact .modSec (.refl s) fun _ => ⟨rfl, rfl⟩

theorem writeIdCtl_keysKept (w : Writer) (v : Word) : s.KeysKept (s.writeIdCtl w v) := by
  unfold State.writeIdCtl
  split
  · next h =>
    obtain ⟨-, -, hlc, -⟩ := h
    exact ⟨.inl ⟨rfl, rfl, rfl, rfl⟩, fun hs => by simp [hs.sec] at hlc⟩
  · exact .refl s

theorem reserve_keysKept : s.KeysKept s.reserve := by
  unfold State.reserve
  split
  · exact .refl s
  · next h =>
    push Not at h
    obtain ⟨hheld, -, -⟩ := h
    split
    · exact ⟨.inr ⟨by simpa using hheld, rfl, rfl, rfl, rfl⟩, .of_eq rfl rfl rfl rfl⟩
    · exact .modIds (.refl s) fun _ => ⟨rfl, rfl, rfl, rfl⟩

theorem askSign_keysKept (q : SignFor) : s.KeysKept (s.askSign q) := by
  unfold State.askSign
  exact .when (.modIds (.refl s) fun _ => ⟨rfl, rfl, rfl, rfl⟩) reserve_keysKept

theorem nextSign_keysKept : s.KeysKept s.nextSign := by
  unfold State.nextSign
  exact .when (.modIds (.refl s) fun _ => ⟨rfl, rfl, rfl, rfl⟩) reserve_keysKept

theorem writeQuoteCtl_keysKept (v : Word) : s.KeysKept (s.writeQuoteCtl v) := by
  unfold State.writeQuoteCtl
  extract_lets fail nonce seq
  have hfail (c : BitVec 8) : s.KeysKept (fail c) := .modSec (.refl s) fun _ => ⟨rfl, rfl⟩
  split
  · exact .refl s
  · split
    · exact hfail _
    · split
      · exact hfail _
      · split
        · exact hfail _
        · refine .trans ?_ (askSign_keysKept ..)
          exact .modSec (.refl s) fun _ => ⟨rfl, rfl⟩

theorem writeOpkCtl_keysKept (w : Writer) (v : Word) : s.KeysKept (s.writeOpkCtl w v) := by
  unfold State.writeOpkCtl
  extract_lets u slot err key
  have hu : s.KeysKept u := .modSec (.refl s) fun _ => ⟨rfl, rfl⟩
  have herr : s.KeysKept err := .modSec hu fun _ => ⟨rfl, rfl⟩
  split
  · split
    · exact herr
    · exact .modSec (.modFlash hu fun _ => rfl) fun _ => ⟨rfl, rfl⟩
  · split
    · exact herr
    · exact .modSec (.modFlash hu fun _ => rfl) fun _ => ⟨rfl, rfl⟩
  · exact hu

theorem logImage_keysKept (type : Byte) (img : FlashImage) (info : List Byte) : s.KeysKept (s.logImage type img info) := by
  unfold State.logImage
  split
  · exact extendLog_keysKept ..
  · exact .refl s

theorem bootLog_keysKept (slot : Nat) (scriptOk : Bool) : s.KeysKept (s.bootLog slot scriptOk) := by
  unfold State.bootLog
  refine .when ?_ fun v => logImage_keysKept ..
  refine .trans ?_ (logImage_keysKept ..)
  refine .trans ?_ (logImage_keysKept ..)
  refine .when ?_ fun v => extendLog_keysKept ..
  exact ((modFree_only ..).keysKept rfl).trans (extendLog_keysKept ..)

theorem programPushed_keysKept (area : Nat) : s.KeysKept (s.programPushed area) := by
  unfold State.programPushed
  extract_lets bs img p
  split
  · exact .refl s
  · refine .modFlash (.refl s) fun f => ?_
    dsimp only
    split <;> rfl

end Security

end Sys2Proof.Machine
end

section
/-!
PROOFS. Every reset short of POR and every register write keeps the field-scan marks and the scan session (14 R687, R688): a system
reset carries both over, and no register field changes either.
-/

namespace Sys2Proof.Machine

/-! ## Resets -/

section Resets

variable (s : State)

theorem coreEffect_keysKept : s.KeysKept s.coreEffect := by
  unfold State.coreEffect
  refine .step ?_ (modBrup_only ..) rfl
  refine .step ?_ (modBist_only ..) rfl
  refine .step ?_ (modTop_only ..) rfl
  refine .step ?_ (modFret_only ..) rfl
  refine .each ?_ endRecovery_keysKept
  refine .each ?_ fun v e => (unbindQueue_only ..).keysKept rfl
  refine .each ?_ fun v e => (closeByReset_only ..).keysKept rfl
  refine .step ?_ (coreResetSessions_only ..) rfl
  refine .each ?_ fun v p => ((coreMemory_only ..).keysKept rfl).step (dropLatches_only ..) rfl
  refine .each ?_ fun v c => (resetEngine_only ..).keysKept rfl
  refine .each ?_ fun v pt => ((resetTile_only ..).keysKept rfl).step (updTile_only ..) rfl
  refine .step ?_ (modRelx_only ..) rfl
  refine .step ?_ (modScheds_only ..) rfl
  refine .step ?_ (modHeld_only ..) rfl
  refine .step ?_ (modTasks_only ..) rfl
  refine .each ?_ fun v n => (dropHeld_only ..).keysKept rfl
  exact (loseEntries_only ..).keysKept rfl

theorem assertReset_core_keysKept (src : BitVec 4) (promoted : Bool) : s.KeysKept (s.assertReset .core src promoted) := by
  unfold State.assertReset
  refine .step ?_ (modRstc_only ..) rfl
  exact ((record_only ..).keysKept rfl).trans (coreEffect_keysKept _)

/-- The level at which a request is carried out: a core reset of a chip that was never ready is one of the system (R592). -/
def State.levelAsked (s : State) (l : Level) : Level := if decide (l = .core) && !s.rstc.everReady then .system else l

/-- What a request for a reset does: it is noted in the reset controller at most, or it is carried out at once or in order. -/
theorem requestReset_cases (l : Level) (src : BitVec 4) (immediate : Bool) :
    s.Only (s.requestReset l src immediate) [.rstc] ∨
      s.requestReset l src immediate =
        let promoted := decide (l = .core) && !s.rstc.everReady
        if immediate then s.assertReset (s.levelAsked l) src promoted else s.startOrderly (s.levelAsked l) src promoted := by
  unfold State.requestReset
  extract_lets promoted l' go
  have habsorb (x : BitVec 4) : s.Only (s.absorbReset x) [.rstc] := absorbReset_only ..
  split
  · exact .inl (.refl s _)
  · split
    · exact .inr rfl
    · split
      · exact .inr rfl
      · split
        · split
          · exact .inl ((habsorb _).trans (modRstc_only ..))
          · exact .inl (habsorb _)
        · exact .inl (habsorb _)

theorem requestReset_keysKept (l : Level) (src : BitVec 4) : s.KeysKept (s.requestReset l src false) := by
  obtain h | h := requestReset_cases s l src false
  · exact h.keysKept rfl
  · rw [h]
    exact (startOrderly_only ..).keysKept rfl

end Resets

/-! ## Register writes and script records -/

section Writes

variable (s : State)

theorem writeRstcReq_keysKept (w : Writer) (v : Word) : s.KeysKept (s.writeRstcReq w v) := by
  unfold State.writeRstcReq
  extract_lets level freed
  clear_value level
  cases level with
  | none => exact .refl s
  | some l =>
    dsimp only
    split
    · exact .refl s
    · split
      · exact ((modFree_only ..).keysKept rfl).trans (requestReset_keysKept ..)
      · exact requestReset_keysKept ..

theorem writeRstc_keysKept (w : Writer) (off : Nat) (v : Word) : s.KeysKept (s.writeRstc w off v) := by
  unfold State.writeRstc
  split
  · exact (modRstc_only ..).keysKept rfl
  · exact writeRstcReq_keysKept ..
  · exact (modRstc_only ..).keysKept rfl
  · exact (writeRstcBlk_only ..).keysKept rfl
  · exact (modRstc_only ..).keysKept rfl
  · exact .refl s

theorem writeBrupCtl_keysKept (v : Word) : s.KeysKept (s.writeBrupCtl v) := by
  unfold State.writeBrupCtl
  extract_lets arg
  split
  · exact (askStage_only ..).keysKept rfl
  · exact .when (.refl s) fun v => (modBrup_only ..).keysKept rfl
  · exact (modBrup_only ..).keysKept rfl
  · exact (bootPushed_only ..).keysKept rfl
  · exact programPushed_keysKept ..
  · exact .refl s

theorem writeBrup_keysKept (off : Nat) (v : Word) : s.KeysKept (s.writeBrup off v) := by
  unfold State.writeBrup
  split
  · exact writeBrupCtl_keysKept ..
  · exact (modBrup_only ..).keysKept rfl
  · exact (modBrup_only ..).keysKept rfl
  · exact (modBrup_only ..).keysKept rfl
  · split
    · exact (modBrup_only ..).keysKept rfl
    · exact .refl s

theorem writePeg_keysKept (v : Word) : s.KeysKept (s.writePeg v) := by
  unfold State.writePeg
  exact .when ((modPwr_only ..).keysKept rfl) fun u => .modFlash (.refl u) fun _ => rfl

theorem writePwr_keysKept (off : Nat) (v : Word) : s.KeysKept (s.writePwr off v) := by
  unfold State.writePwr
  split
  · exact (writeBudget_only ..).keysKept rfl
  · exact (modPwr_only ..).keysKept rfl
  · exact (modPwr_only ..).keysKept rfl
  · exact (writePark_only ..).keysKept rfl
  · exact (writeParkAllow_only ..).keysKept rfl
  · exact (modPwr_only ..).keysKept rfl
  · exact writePeg_keysKept ..
  · exact .refl s

theorem writeSec_keysKept (w : Writer) (off : Nat) (v : Word) : s.KeysKept (s.writeSec w off v) := by
  unfold State.writeSec
  split
  · exact .modSec (.refl s) fun _ => ⟨rfl, rfl⟩
  · split
    · exact .modSec (.refl s) fun _ => ⟨rfl, rfl⟩
    · split
      · exact .modSec (.refl s) fun _ => ⟨rfl, rfl⟩
      · split
        · exact writeLcReq_keysKept ..
        · exact writeIdCtl_keysKept ..
        · exact .modIds (.refl s) fun _ => ⟨rfl, rfl, rfl, rfl⟩
        · exact .modSec (.refl s) fun _ => ⟨rfl, rfl⟩
        · exact writeOpkCtl_keysKept ..
        · exact .modSec (.refl s) fun _ => ⟨rfl, rfl⟩
        · exact writeQuoteCtl_keysKept ..
        · exact .refl s

theorem fenceCmd_keysKept (pt : Nat) : s.KeysKept (s.fenceCmd pt) := by
  unfold State.fenceCmd
  extract_lets r
  split
  · exact (healResult_only ..).keysKept rfl
  · split
    · exact (healResult_only ..).keysKept rfl
    · split
      · exact ((modHealx_only ..).keysKept rfl).step (healResult_only ..) rfl
      · exact (fenceTile_keysKept ..).step (healResult_only ..) rfl

theorem writeHealCmd_keysKept (v : Word) : s.KeysKept (s.writeHealCmd v) := by
  unfold State.writeHealCmd
  extract_lets t
  split
  · exact fenceCmd_keysKept ..
  · split
    · exact (healResult_only ..).keysKept rfl
    · exact (((markRotation_only ..).keysKept rfl).step (modHealx_only ..) rfl).step (healResult_only ..) rfl
  · split
    · exact (healResult_only ..).keysKept rfl
    · split
      · exact (healResult_only ..).keysKept rfl
      · exact ((startRecovery_only ..).keysKept rfl).step (healResult_only ..) rfl
  · exact .refl s

theorem writeHeal_keysKept (a : Accessor) (off : Nat) (v : Word) : s.KeysKept (s.writeHeal a off v) := by
  unfold State.writeHeal
  split
  · exact (modHeal_only ..).keysKept rfl
  · exact writeHealCmd_keysKept ..
  · exact (modHeal_only ..).keysKept rfl
  · exact (modHeal_only ..).keysKept rfl
  · exact (writeTwin_only ..).keysKept rfl
  · exact .refl s

theorem blockWrite_keysKept (w : Writer) (b : Block) (off : Nat) (v : Word) : s.KeysKept (s.blockWrite w b off v) := by
  unfold State.blockWrite
  cases b with
  | top => exact (writeTop_only ..).keysKept rfl
  | rstc => exact writeRstc_keysKept ..
  | brup => exact writeBrup_keysKept ..
  | clk => exact (writeClk_only ..).keysKept rfl
  | pwr => exact writePwr_keysKept ..
  | fret => exact (writeFret_only ..).keysKept rfl
  | sec => exact writeSec_keysKept ..
  | bist => exact (writeBist_only ..).keysKept rfl
  | heal => exact writeHeal_keysKept ..
  | rel => exact (writeRel_only ..).keysKept rfl
  | chest => exact (writeChest_only ..).keysKept rfl
  | mch => exact (writeMch_only ..).keysKept rfl
  | pcie => exact (writePcie_only ..).keysKept rfl
  | mgt => exact (writeMgt_only ..).keysKept rfl
  | fab => exact (writeFab_only ..).keysKept rfl
  | spn => exact (writeSpn_only ..).keysKept rfl
  | part => exact (writePart_only ..).keysKept rfl
  | clus => exact (writeClus_only ..).keysKept rfl

theorem bar0Write_keysKept (w : Writer) (off : Nat) (v : Word) : s.KeysKept (s.bar0Write w off v) := by
  unfold State.bar0Write
  split
  · exact .refl s
  · split
    · exact .refl s
    · split
      · exact .refl s
      · split
        · exact (denyWrite_only ..).keysKept rfl
        · exact blockWrite_keysKept ..

theorem accWrite_keysKept (a : Accessor) (off : Nat) (v : Word) : s.KeysKept (s.accWrite a off v) := bar0Write_keysKept ..

theorem seqWrite_keysKept (off : Nat) (v : Word) : s.KeysKept (s.seqWrite off v) := by
  unfold State.seqWrite
  split
  · exact (stopScript_only ..).keysKept rfl
  · exact accWrite_keysKept ..

theorem runRecord_keysKept (op : Nat) {f : State → ScriptRec → State} (hf : ∀ (v : State) r, v.KeysKept (f v r)) :
    s.KeysKept (s.runRecord op f) := by
  have hnext : s.KeysKept s.advance := (advance_only s).keysKept rfl
  unfold State.runRecord
  split
  · exact .refl s
  · split
    · split
      · exact (endScript_only ..).keysKept rfl
      · exact .refl s
    · split
      · exact hnext.trans (hf ..)
      · split
        · exact hnext.step (stopScript_only ..) rfl
        · exact .refl s

end Writes

/-! ## Signed commands -/

section SignedCommands

variable (s : State)

theorem storeSeq_keysKept (d : Datagram) : s.KeysKept (s.storeSeq d) := by
  unfold State.storeSeq
  split
  · exact .refl s
  · refine .modSec ?_ fun _ => ⟨rfl, rfl⟩
    exact .modFlash (.refl s) fun _ => rfl

theorem replyMgmt_keysKept (d : Datagram) (code result : BitVec 8) (b : List Byte) :
    s.KeysKept (s.replyMgmt d code result b) := by
  unfold State.replyMgmt
  split
  · exact ((updMgmtPort_only ..).keysKept rfl).trans (askSign_keysKept ..)
  · exact .refl s

theorem mgmtCommand_keysKept (d : Datagram) (code : BitVec 8) (slots : Nat) {f : State → Verdict}
    (hf : ∀ (u t : State) b, f u = .done t b → u.KeysKept t) : s.KeysKept (s.mgmtCommand d code slots f) := by
  unfold State.mgmtCommand
  split
  · exact .refl s
  · split
    · exact (updMgmtPort_only ..).keysKept rfl
    · split
      · exact replyMgmt_keysKept ..
      · split
        · exact replyMgmt_keysKept ..
        · split
          · exact replyMgmt_keysKept ..
          · next t b h =>
            split
            · exact ((storeSeq_keysKept s d).trans (hf _ t b h)).trans (replyMgmt_keysKept ..)
            · exact replyMgmt_keysKept ..

/-- A signed command that changes the state and answers. -/
theorem mgmtCommand_changes_keysKept (d : Datagram) (code : BitVec 8) (slots : Nat) {g : State → State} {b : State → List Byte}
    (hg : ∀ u : State, u.KeysKept (g u)) :
    s.KeysKept (s.mgmtCommand d code slots fun u => .done (u.changes d (g u)) (b u)) := by
  refine mgmtCommand_keysKept s d code slots ?_
  rintro u t b ⟨⟩
  exact (hg u).step (only_changes (fr := [.top, .chest, .out]) (.refl ..) fun _ hc => hc) rfl

theorem clearChest_keysKept (areas : BitVec 8) (slot : Word) : s.KeysKept (s.clearChest areas slot) := by
  unfold State.clearChest
  exact .when (((modChest_only ..).keysKept rfl).step (record_only ..) rfl) fun v => copyRequest_keysKept ..

theorem clearRetire_keysKept : s.KeysKept s.clearRetire := by
  unfold State.clearRetire
  refine .step ?_ (readyPins_only ..) rfl
  exact .modFlash ((modRelx_only ..).keysKept rfl) fun _ => rfl

end SignedCommands

end Sys2Proof.Machine
end

section
/-!
PROOFS. What a command does to the field-scan marks and the scan session (14 R685 to R688), command by command, and O54 and O55.
-/

namespace Sys2Proof.Machine

/-- A command answers a next state with the same marks and scan session. -/
def State.NextKeysKept (s : State) (o : Host.Outcome State Fault Refusal) : Prop := ∃ t, o = .next t ∧ s.KeysKept t

theorem State.KeysKept.next {s t : State} (h : s.KeysKept t) : s.NextKeysKept (.next t) := ⟨t, rfl, h⟩

/-! ## Faults, tests and copies of the Chest -/

section Faults

variable (s : State)

theorem execRetireStart_keysKept (cause : BitVec 4) : s.NextKeysKept (execRetireStart cause s) := by
  unfold execRetireStart
  split
  · exact (State.KeysKept.refl s).next
  · exact (retireCause_keysKept ..).next

theorem execRetireComplete_keysKept : s.NextKeysKept (execRetireComplete s) := by
  unfold execRetireComplete
  split
  · exact (State.KeysKept.refl s).next
  · refine State.KeysKept.next ?_
    refine .step ?_ (retired_only ..) rfl
    refine .trans ?_ (copyRequest_keysKept ..)
    refine .trans ?_ (setRetireFlag_keysKept ..)
    exact .when (.refl s) fun v => (mcSend_only ..).keysKept rfl

theorem execFiring_keysKept (lt : Lt) (obs : List TileFault) : s.NextKeysKept (execFiring lt obs s) := by
  unfold execFiring
  split
  · exact (State.KeysKept.refl s).next
  · split
    · exact (State.KeysKept.refl s).next
    · split
      · exact (State.KeysKept.refl s).next
      · split
        · exact (State.KeysKept.refl s).next
        · extract_lets u r t
          have hr : s.KeysKept r.2.1 := ((updRt_only ..).keysKept rfl).step (takeInputs_only ..) rfl
          have ht : s.KeysKept t := by
            unfold t
            clear_value r
            split
            · exact ((updRt_only ..).keysKept rfl).step (detect_only ..) rfl
            · exact hr.step (runFold_only ..) rfl
          exact (ht.trans (tileFaults_keysKept ..)).next

theorem execSteerEmit_keysKept (lt : Lt) (fold : Nat) (x : SteerRead) : s.NextKeysKept (execSteerEmit lt fold x s) := by
  unfold execSteerEmit
  split
  · exact (State.KeysKept.refl s).next
  · extract_lets r
    split
    · exact (State.KeysKept.refl s).next
    · split
      · exact (State.KeysKept.refl s).next
      · extract_lets words u v w
        have hw : s.KeysKept w := by
          refine .when ?_ fun _ => (dropWords_only ..).keysKept rfl
          exact .each ((updSteer_only ..).keysKept rfl) fun _ _ => (dropWords_only ..).keysKept rfl
        split
        · exact ((hw.step (sendPort_only ..) rfl).trans (tileFaults_keysKept ..)).next
        · exact (hw.trans (tileFaults_keysKept ..)).next

theorem execWriteDrawerFillCheck_keysKept (c : Clus) (x : CtxRead) : s.NextKeysKept (execWriteDrawerFillCheck c x s) := by
  unfold execWriteDrawerFillCheck
  extract_lets key y k
  split
  · exact (State.KeysKept.refl s).next
  · split
    · exact (State.KeysKept.refl s).next
    · split
      · exact (((updCtx_only ..).keysKept rfl).step (detect_only ..) rfl).next
      · exact (((issueWrite_only ..).keysKept rfl).trans (tileFaults_keysKept ..)).next

theorem execWormRoute_keysKept (r : Router) (port : Nat) (e : RouteEv) (bad : Option (Fin 18)) :
    s.NextKeysKept (execWormRoute r port e bad s) := by
  unfold execWormRoute
  extract_lets count
  have hcount (v : State) (n : Nat) (first : Bool) : v.KeysKept (count v n first) := by
    unfold count
    split
    · exact (countRx_only ..).keysKept rfl
    · exact .refl v
  clear_value count
  cases e with
  | head w n ok =>
    dsimp only
    split
    · exact (State.KeysKept.refl s).next
    · exact (((hcount ..).trans (transitAt_keysKept ..)).step (headIn_only ..) rfl).next
  | flits vc n =>
    dsimp only
    split
    · exact (State.KeysKept.refl s).next
    · split
      · exact (State.KeysKept.refl s).next
      · exact (((hcount ..).trans (transitAt_keysKept ..)).step (flitsIn_only ..) rfl).next
  | slot pick ok => exact (slot_keysKept ..).next

theorem execReleaseQueueArrive_keysKept (rp : ReleasePoint) (w : Worm) (n : Arrival) (last : Bool) :
    s.NextKeysKept (execReleaseQueueArrive rp w n last s) := by
  unfold execReleaseQueueArrive
  extract_lets first
  refine State.KeysKept.next ?_
  refine .step ?_ (releaseArrive_only ..) rfl
  cases rp with
  | fabric p => exact ((countRx_only ..).keysKept rfl).when fun v => countTransit_keysKept ..
  | bridge row e => exact (State.KeysKept.refl s).when fun v => countTransit_keysKept ..
  | tile t => exact .refl s

theorem execNcnCrcError_keysKept (h : Half) (again : Bool) : s.NextKeysKept (execNcnCrcError h again s) := by
  unfold execNcnCrcError
  split
  · exact (retireCause_keysKept ..).next
  · exact ((updSpn_only ..).keysKept rfl).next

theorem execTaskHang_keysKept (task : BitVec 32) : s.NextKeysKept (execTaskHang task s) := by
  unfold execTaskHang
  dsimp only
  split
  · exact (State.KeysKept.refl s).next
  · refine State.KeysKept.next ?_
    refine .trans ?_ (hangNamed_keysKept ..)
    refine .step ?_ (detect_only ..) rfl
    exact ((modHeal_only ..).keysKept rfl).step (recordAt_only ..) rfl

theorem execArbitrationDone_keysKept (c : Clus) (rs : List Replay) : s.NextKeysKept (execArbitrationDone c rs s) := by
  unfold execArbitrationDone
  split
  · exact (State.KeysKept.refl s).next
  · next a _ =>
    extract_lets row u v w
    have hv : s.KeysKept v := (((modRel_only ..).keysKept rfl).step (arbLast_only ..) rfl).step (recordAt_only ..) rfl
    have hw : s.KeysKept w := hv.step (endArb_only ..) rfl
    clear_value row v w
    split
    · split
      · exact ((hv.trans (retireCause_keysKept ..)).step (endArb_only ..) rfl).next
      · exact (hv.step (modRelx_only ..) rfl).next
    · exact ((hv.step (endArb_only ..) rfl).trans (fenceTile_keysKept ..)).next
    · exact ((hv.step (endArb_only ..) rfl).trans (fenceTile_keysKept ..)).next
    · split
      · exact (hw.trans (fenceTile_keysKept ..)).next
      · exact hw.next
    · exact (hv.step (endArb_only ..) rfl).next

theorem execDigestPassDone_keysKept (d : DigestRead) : s.NextKeysKept (execDigestPassDone d s) := by
  unfold execDigestPassDone
  extract_lets x
  split
  · exact (State.KeysKept.refl s).next
  · refine State.KeysKept.next ?_
    refine .step ?_ (digMessage_only ..) rfl
    refine .trans ?_ (passState_keysKept ..)
    exact ((noteErrs_only ..).keysKept rfl).step (checkRange_only ..) rfl

theorem execDigestMessageReceive_keysKept (m : DigestMsg) : s.NextKeysKept (execDigestMessageReceive m s) := by
  unfold execDigestMessageReceive
  extract_lets n x
  split
  · exact (State.KeysKept.refl s).next
  · split
    · split
      · exact (((updDig_only ..).keysKept rfl).step (digAgree_only ..) rfl).next
      · exact (State.KeysKept.refl s).next
    · split
      · exact (digDiverge_keysKept ..).next
      · exact (State.KeysKept.refl s).next
    · exact (State.KeysKept.refl s).next

theorem execHbmWindowTestDone_keysKept (p : Part) (pc : Fin 32) (repeatFailed : Bool) :
    s.NextKeysKept (execHbmWindowTestDone p pc repeatFailed s) := by
  unfold execHbmWindowTestDone
  dsimp only
  split
  · exact (State.KeysKept.refl s).next
  · exact (((modBist_only ..).keysKept rfl).when fun v => faultyWindow_keysKept ..).next

theorem execInfieldTestDone_keysKept (pt : Pt) (failed : Option (BitVec 4)) : s.NextKeysKept (execInfieldTestDone pt failed s) := by
  unfold execInfieldTestDone
  dsimp only
  split
  · exact (State.KeysKept.refl s).next
  · split
    · exact (tileProgram_fenceTile_keysKept ..).next
    · exact ((((tileProgram_only ..).keysKept rfl).step (updTile_only ..) rfl).step (updRole_only ..) rfl).next

theorem execWakeDone_keysKept (p : Part) (failed : List (Pt × BitVec 4)) : s.NextKeysKept (execWakeDone p failed s) := by
  unfold execWakeDone
  dsimp only
  split
  · exact (State.KeysKept.refl s).next
  · refine State.KeysKept.next (.each ?_ fun v pt => ?_)
    · exact ((updPart_only ..).keysKept rfl).step (modPwr_only ..) rfl
    · split
      · exact tileProgram_fenceTile_keysKept ..
      · exact (tileProgram_only ..).keysKept rfl

theorem execShutdownTestPhase_keysKept (failed : List (Pt × BitVec 4)) (windows : List Word) :
    s.NextKeysKept (execShutdownTestPhase failed windows s) := by
  unfold execShutdownTestPhase
  dsimp only
  split
  · exact (State.KeysKept.refl s).next
  · refine State.KeysKept.next ?_
    refine .step ?_ (modBist_only ..) rfl
    refine .step ?_ (loseHbm_only ..) rfl
    refine .each ?_ fun v e => faultyWindow_keysKept ..
    exact ((modBist_only ..).keysKept rfl).trans (fullTest_keysKept ..)

theorem execShutdownRecord_keysKept : s.NextKeysKept (execShutdownRecord s) := by
  unfold execShutdownRecord
  split
  · exact (((writeHealth_keysKept ..).step (modBist_only ..) rfl).trans (copyRequest_keysKept ..)).next
  · exact (State.KeysKept.refl s).next

theorem execRemapApply_keysKept (c : Clus) (slot : Fin 16) : s.NextKeysKept (execRemapApply c slot s) := by
  unfold execRemapApply
  dsimp only
  split
  · exact (State.KeysKept.refl s).next
  · split
    · exact (moveSlot_keysKept ..).next
    · exact ((updRole_only ..).keysKept rfl).next

theorem execRotationApply_keysKept (c : Clus) : s.NextKeysKept (execRotationApply c s) := by
  unfold execRotationApply
  split
  · split
    · exact (State.KeysKept.refl s).next
    · split
      · exact (State.KeysKept.refl s).next
      · refine State.KeysKept.next (.when ?_ fun v => (modHeal_only ..).keysKept rfl)
        exact ((moveSlot_keysKept ..).step (updClus_only ..) rfl).step (modHealx_only ..) rfl
  · exact (State.KeysKept.refl s).next

theorem execHealFenceDeferredApply_keysKept (pt : Pt) : s.NextKeysKept (execHealFenceDeferredApply pt s) := by
  unfold execHealFenceDeferredApply
  dsimp only
  split
  · exact ((((modHealx_only ..).keysKept rfl).trans (fenceTile_keysKept ..)).step (healResult_only ..) rfl).next
  · exact (State.KeysKept.refl s).next

theorem execPrrResetDone_keysKept (p : Part) (us : BitVec 16) : s.NextKeysKept (execPrrResetDone p us s) := by
  unfold execPrrResetDone
  split
  · exact (State.KeysKept.refl s).next
  · refine State.KeysKept.next ?_
    refine .trans ?_ (heldOrders_keysKept ..)
    refine .each ?_ fun v e => (digVerify_only ..).keysKept rfl
    refine .step ?_ (modHeal_only ..) rfl
    refine .step ?_ (modRstc_only ..) rfl
    refine .step ?_ (unfenceQueues_only ..) rfl
    refine .step ?_ (setPartMode_only ..) rfl
    refine .step ?_ (updPart_only ..) rfl
    refine .each ?_ fun v pt => ((resetTile_only ..).keysKept rfl).step (updTile_only ..) rfl
    refine .each ?_ fun v c => (resetEngine_only ..).keysKept rfl
    exact (((loseEntries_only ..).keysKept rfl).step (dropLatches_only ..) rfl).step (endWindows_only ..) rfl

theorem execPegRetune_keysKept (n : Nat) (better : Bool) : s.NextKeysKept (execPegRetune n better s) := by
  unfold execPegRetune
  split
  · exact (State.KeysKept.refl s).next
  · extract_lets p free g
    split
    · exact (State.KeysKept.refl s).next
    · refine State.KeysKept.next (.when ?_ fun v => (modPwr_only ..).keysKept rfl)
      exact .modFlash (.refl s) fun _ => rfl

theorem execChestRecordPlace_keysKept : s.NextKeysKept (execChestRecordPlace s) := by
  unfold execChestRecordPlace
  split
  · exact (((nextHalf_only s).keysKept rfl).trans (placeOne_keysKept ..)).next
  · exact (State.KeysKept.refl s).next

theorem execChestCopyStart_keysKept (reason : BitVec 8) : s.NextKeysKept (execChestCopyStart reason s) := by
  unfold execChestCopyStart
  split
  · exact (copyRequest_keysKept ..).next
  · exact (State.KeysKept.refl s).next

end Faults

/-! ## Resets and bring-up -/

section Resets

variable (s : State)

theorem execThermalTrip_keysKept (sensor temp : Word) : s.NextKeysKept (execThermalTrip sensor temp s) := by
  unfold execThermalTrip
  split
  · exact (State.KeysKept.refl s).next
  · refine State.KeysKept.next ?_
    refine .trans ?_ (copyRequest_keysKept ..)
    refine .trans ?_ (placeAll_keysKept ..)
    refine .step ?_ (loseEntries_only ..) rfl
    refine .each ?_ fun v p => (loseEntries_only ..).keysKept rfl
    exact (((modGov_only ..).keysKept rfl).step (modPwr_only ..) rfl).step (record_only ..) rfl

/-- BU0 reads the life-cycle state from the fuses, which hold END in a sealed chip. -/
theorem loadLifeCycle_keysKept : s.KeysKept (s.modSec fun x => { x with lc := s.fuse.lc, trips := s.fuse.trips }) :=
  ⟨.inl ⟨rfl, rfl, rfl, rfl⟩, fun h => ⟨⟨h.fuse, h.fuse, h.pending, h.ids⟩, rfl⟩⟩

theorem execStageBu0_keysKept (b : Bool) : s.NextKeysKept (execStageBu0 b s) := by
  unfold execStageBu0
  split
  · exact (State.KeysKept.refl s).next
  · split
    · exact ((failStage_only ..).keysKept rfl).next
    · refine State.KeysKept.next ?_
      refine .when ?_ fun v => (startStage_only ..).keysKept rfl
      refine .step ?_ (passStage_only ..) rfl
      refine .when ?_ fun v => ((restoreChest_only ..).keysKept rfl).step (modRstc_only ..) rfl
      refine .trans ?_ (loadLifeCycle_keysKept _)
      refine .step ?_ (modClk_only ..) rfl
      refine .step ?_ (modPwr_only ..) rfl
      exact ((modBrup_only ..).keysKept rfl).step (modRelx_only ..) rfl

theorem execStageBu4_keysKept (spineOk bridgeOk : Bool) : s.NextKeysKept (execStageBu4 spineOk bridgeOk s) := by
  unfold execStageBu4
  split
  · exact (State.KeysKept.refl s).next
  · split
    · exact (causeStage_keysKept ..).next
    · split
      · exact (causeStage_keysKept ..).next
      · refine State.KeysKept.next ?_
        refine .step ?_ (passStage_only ..) rfl
        refine .each ?_ fun v i => addPeg_keysKept ..
        exact ((updSpn_only ..).keysKept rfl).step (updSpn_only ..) rfl

theorem execStageBu5_keysKept (trained : List (BitVec 16)) : s.NextKeysKept (execStageBu5 trained s) := by
  unfold execStageBu5
  split
  · exact (State.KeysKept.refl s).next
  · split
    · refine State.KeysKept.next (.step ?_ (passStage_only ..) rfl)
      exact .each (.refl s) fun v p => (hbmOn_only ..).keysKept rfl
    · extract_lets u good v mask
      have hv : s.KeysKept v := by
        refine .each ((modPwr_only ..).keysKept rfl) fun w p => ?_
        exact .each ((updPart_only ..).keysKept rfl) fun x k => addPeg_keysKept ..
      split
      · exact (hv.step (passStage_only ..) rfl).next
      · exact (hv.trans (causeStage_keysKept ..)).next

theorem execStageBu6_keysKept (b : Option Part) : s.NextKeysKept (execStageBu6 b s) := by
  unfold execStageBu6
  split
  · exact (State.KeysKept.refl s).next
  · split
    · exact ((failStage_only ..).keysKept rfl).next
    · split
      · refine State.KeysKept.next ?_
        refine .step ?_ (passStage_only ..) rfl
        refine .step ?_ (releaseTiles_only ..) rfl
        refine .each ?_ fun v p => (hbmOn_only ..).keysKept rfl
        refine .step ?_ (rebudget_only ..) rfl
        exact ((modPwr_only ..).keysKept rfl).step (modGov_only ..) rfl
      · split
        · exact ((failStage_only ..).keysKept rfl).next
        · refine State.KeysKept.next ?_
          refine .trans ?_ (endWork_keysKept ..)
          refine .step ?_ (releaseTiles_only ..) rfl
          refine .trans ?_ (extendLog_keysKept ..)
          refine .step ?_ (modFree_only ..) rfl
          refine .step ?_ (modBrup_only ..) rfl
          refine .step ?_ (modBist_only ..) rfl
          refine .step ?_ (loadAges_only ..) rfl
          exact .when (.refl s) fun v => (mapChip_keysKept v).step (modRstc_only ..) rfl

theorem execStageBu7_keysKept (f : TestFound) : s.NextKeysKept (execStageBu7 f s) := by
  have hwindows (v : State) : v.KeysKept ((v.each f.windows (·.faultyWindow ·)).loseHbm) :=
    .step (.each (.refl v) fun _ _ => faultyWindow_keysKept ..) (loseHbm_only ..) rfl
  unfold execStageBu7
  split
  · exact (State.KeysKept.refl s).next
  · extract_lets old u n w
    have hu : s.KeysKept u := .when (.refl s) fun v => (modBrup_only ..).keysKept rfl
    have hw : u.KeysKept w := by
      unfold w
      clear_value n
      split
      · exact .refl u
      · exact quickTest_keysKept ..
      · exact .when (fullTest_keysKept ..) hwindows
    refine State.KeysKept.next ?_
    refine .trans ?_ (endWork_keysKept ..)
    exact ((hu.trans hw).step (modBrup_only ..) rfl).trans (applyHealth_keysKept _)

theorem execStageBu8_keysKept : s.NextKeysKept (execStageBu8 s) := by
  unfold execStageBu8
  dsimp only
  split
  · exact (State.KeysKept.refl s).next
  · refine State.KeysKept.next (.step ?_ (passStage_only ..) rfl)
    exact .each (.refl s) fun v e => addPeg_keysKept ..

end Resets

/-! ## The MC, signatures, registers and signed commands -/

section Registers

variable (s : State)

theorem execMcLoad_keysKept (m : McCmd) (img : Image) (bytesDigest : BitVec 256) (formatOk : Bool) :
    s.NextKeysKept (execMcLoad m img bytesDigest formatOk s) := by
  unfold execMcLoad
  split
  · exact ((mcReply_only ..).keysKept rfl).next
  · split
    · exact ((mcReply_only ..).keysKept rfl).next
    · split
      · exact ((mcReply_only ..).keysKept rfl).next
      · split
        · exact ((mcReply_only ..).keysKept rfl).next
        · split
          · exact ((((variantRecord_only ..).keysKept rfl).step (attn_only ..) rfl).step (mcReply_only ..) rfl).next
          · refine State.KeysKept.next ?_
            refine .step ?_ (mcReply_only ..) rfl
            refine .trans ?_ (extendLog_keysKept ..)
            exact ((modSpn_only ..).keysKept rfl).step (modScheds_only ..) rfl

theorem execMcUnload_keysKept (m : McCmd) : s.NextKeysKept (execMcUnload m s) := by
  unfold execMcUnload
  split
  · exact ((mcReply_only ..).keysKept rfl).next
  · split
    · exact ((mcReply_only ..).keysKept rfl).next
    · split
      · exact ((mcReply_only ..).keysKept rfl).next
      · refine State.KeysKept.next ?_
        refine .step ?_ (mcReply_only ..) rfl
        refine .trans ?_ (extendLog_keysKept ..)
        refine .step ?_ (modFret_only ..) rfl
        refine .step ?_ (modSpn_only ..) rfl
        exact ((modScheds_only ..).keysKept rfl).step (modTasks_only ..) rfl

theorem execSignRequest_keysKept (msg : List Byte) : s.NextKeysKept (execSignRequest msg s) := by
  unfold execSignRequest
  split
  · exact (State.KeysKept.refl s).next
  · exact (askSign_keysKept ..).next

theorem execRegisterWrite_keysKept (acc : Accessor) (off len : Nat) (v : Word) :
    s.NextKeysKept (execRegisterWrite acc off len v s) := by
  unfold execRegisterWrite
  split
  · exact (accWrite_keysKept ..).next
  · exact (State.KeysKept.refl s).next

theorem execBar0MultiwordAccess_keysKept (acc : Accessor) (off : Nat) (m : MultiWord) :
    s.NextKeysKept (execBar0MultiwordAccess acc off m s) := by
  cases m with
  | write ws =>
    unfold execBar0MultiwordAccess
    dsimp only
    split
    · exact (State.KeysKept.refl s).next
    · refine State.KeysKept.next (.each (.refl s) fun v x => ?_)
      split
      · exact accWrite_keysKept ..
      · exact .refl v
  | read full =>
    have hread : s.Only (full.zipIdx.foldl (readWord acc off) ([], s)).2 [.tel, .latches] :=
      only_foldl2 (.refl s _) fun _ _ h => only_readWord h fun _ hc => hc
    unfold execBar0MultiwordAccess
    dsimp only
    split
    · exact ((emit_only ..).keysKept rfl).next
    · exact ((hread.keysKept rfl).step (emit_only ..) rfl).next

theorem execPwrWake_keysKept (acc : Accessor) (byAllow : Bool) (v : Word) : s.NextKeysKept (execPwrWake acc byAllow v s) := by
  unfold execPwrWake
  split <;> exact (accWrite_keysKept ..).next

theorem execScriptWrite_keysKept : s.NextKeysKept (execScriptWrite s) :=
  (runRecord_keysKept s 1 fun _ _ => seqWrite_keysKept ..).next

theorem execScriptModify_keysKept : s.NextKeysKept (execScriptModify s) :=
  (runRecord_keysKept s 2 fun _ _ => ((bar0Read_only ..).keysKept rfl).trans (seqWrite_keysKept ..)).next

theorem execMgmtAssignOwner_keysKept (d : Datagram) : s.NextKeysKept (execMgmtAssignOwner d s) := by
  refine State.KeysKept.next (mgmtCommand_changes_keysKept s d _ _ fun u => ?_)
  split
  · exact (setOwner_only ..).keysKept rfl
  · exact (setOwner_only ..).keysKept rfl
  · exact (setOwner_only ..).keysKept rfl
  · exact .refl u

theorem execMgmtClearRetire_keysKept (d : Datagram) : s.NextKeysKept (execMgmtClearRetire d s) := by
  refine State.KeysKept.next (mgmtCommand_keysKept s d _ _ fun u t b hdone => ?_)
  split at hdone
  · cases hdone
    exact (clearRetire_keysKept u).step (only_changes (fr := [.top, .chest, .out]) (.refl ..) fun _ hc => hc) rfl
  · contradiction

theorem execMgmtQuote_keysKept (d : Datagram) : s.NextKeysKept (execMgmtQuote d s) := by
  unfold execMgmtQuote
  refine State.KeysKept.next (.when ?_ fun v => askSign_keysKept ..)
  refine mgmtCommand_keysKept s d _ _ ?_
  rintro u t b ⟨⟩
  exact .modSec (.refl u) fun _ => ⟨rfl, rfl⟩

theorem execMgmtWriteReg_keysKept (d : Datagram) : s.NextKeysKept (execMgmtWriteReg d s) := by
  refine State.KeysKept.next (mgmtCommand_keysKept s d _ _ fun u t b hdone => ?_)
  split at hdone
  · contradiction
  · cases hdone
    exact (bar0Write_keysKept ..).step (only_changes (fr := [.top, .chest, .out]) (.refl ..) fun _ hc => hc) rfl

theorem execMgmtUnknownCommand_keysKept (d : Datagram) (code : BitVec 8) : s.NextKeysKept (execMgmtUnknownCommand d code s) := by
  unfold execMgmtUnknownCommand
  split
  · exact (State.KeysKept.refl s).next
  · exact (mgmtCommand_keysKept s d _ _ fun u t b hdone => by contradiction).next

/-! ## The scan path -/

theorem execEb1Unlock_keysKept : s.NextKeysKept (execEb1Unlock s) := by
  unfold execEb1Unlock
  extract_lets u v
  have hu : s.KeysKept u := (loadIr_only ..).keysKept rfl
  split
  · exact hu.next
  · refine State.KeysKept.next (.modSec ?_ fun _ => ⟨rfl, rfl⟩)
    exact .modFlash hu fun _ => rfl

theorem execScanEn_keysKept : s.NextKeysKept (execScanEn s) := by
  unfold execScanEn
  extract_lets u
  have hu : s.KeysKept u := (loadIr_only ..).keysKept rfl
  split
  · exact hu.next
  · split
    · exact State.KeysKept.next (.modSec hu fun _ => ⟨rfl, rfl⟩)
    · exact State.KeysKept.next (.modSec hu fun _ => ⟨rfl, rfl⟩)
    · exact hu.next

end Registers

end Sys2Proof.Machine
end

section
/-!
PROOFS. O53 and O56: a chip in END stays there, and leaf blocks are reserved in ascending order (14 R663, R664, R674, R675). Resets,
BU1 and the scan clear drop the leaf block held; a signature uses a leaf of it.
-/

namespace Sys2Proof.Machine

/-- No leaf block is held, the leaf counter did not fall, and a sealed chip stays sealed. -/
structure State.DropsBlock (s t : State) : Prop where
  counter : s.flash.leafCounter ≤ t.flash.leafCounter
  held : t.ids.held = false
  sealed : s.KeepsSeal t

/-- What every command keeps of the leaves and of the seal. -/
structure State.KeyStep (s t : State) : Prop where
  counter : s.flash.leafCounter ≤ t.flash.leafCounter
  taken : s.ids.held = false → t.ids.held = true → s.TookBlock t
  sealed : s.KeepsSeal t

/-- A command answers a next state that keeps the leaves and the seal. -/
def State.NextKeyStep (s : State) (o : Host.Outcome State Fault Refusal) : Prop := ∃ t, o = .next t ∧ s.KeyStep t

section Steps

variable {s t u : State} {o : Host.Outcome State Fault Refusal} {cs : List Comp}

theorem State.KeysKept.counter_le (h : s.KeysKept t) : s.flash.leafCounter ≤ t.flash.leafCounter := by
  obtain h | h := h.leaves
  · exact h.counter.ge
  · rw [h.counter]
    exact Nat.le_succ _

theorem State.KeysKept.keyStep (h : s.KeysKept t) : s.KeyStep t := by
  refine ⟨h.counter_le, fun hs ht => ?_, h.sealed⟩
  obtain h | h := h.leaves
  · rw [h.held, hs] at ht
    exact absurd ht (by decide)
  · exact h

theorem State.KeysKept.drops (h : s.KeysKept t) (k : t.DropsBlock u) : s.DropsBlock u :=
  ⟨h.counter_le.trans k.counter, k.held, h.sealed.trans k.sealed⟩

theorem State.DropsBlock.step (h : s.DropsBlock t) (k : t.Only u cs) (hcs : offKeys cs = true) : s.DropsBlock u := by
  have hk := k.keysKept hcs
  obtain ⟨⟨-, hids⟩, -⟩ : ((.fuse ∉ cs ∧ .flash ∉ cs) ∧ .ids ∉ cs) ∧ .sec ∉ cs := by simpa [offKeys] using hcs
  exact ⟨h.counter.trans hk.counter_le, by rw [k.ids hids]; exact h.held, h.sealed.trans hk.sealed⟩

theorem State.DropsBlock.keyStep (h : s.DropsBlock t) : s.KeyStep t :=
  ⟨h.counter, fun _ ht => absurd (h.held.symm.trans ht) (by decide), h.sealed⟩

theorem State.KeyStep.next (h : s.KeyStep t) : s.NextKeyStep (.next t) := ⟨t, rfl, h⟩

theorem State.NextKeysKept.keyStep (h : s.NextKeysKept o) : s.NextKeyStep o := by
  obtain ⟨t, rfl, h⟩ := h
  exact h.keyStep.next

theorem State.NextOnly.keyStep (h : s.NextOnly o cs) (hcs : offKeys cs = true) : s.NextKeyStep o := by
  obtain ⟨t, rfl, honly⟩ := h
  exact (honly.keysKept hcs).keyStep.next

theorem State.NextKeyStep.of_eq (h : s.NextKeyStep o) (ht : o = .next t) : s.KeyStep t := by
  obtain ⟨u, rfl, hkept⟩ := h
  cases ht
  exact hkept

end Steps

/-! ## Resets drop the block held -/

section Resets

variable (s : State)

theorem systemState_drops : s.DropsBlock s.systemState :=
  ⟨le_rfl, rfl, fun h => ⟨⟨h.fuse, h.sec, h.pending, IdState.noConfusion⟩, rfl⟩⟩

theorem porState_drops : s.DropsBlock s.porState := ⟨le_rfl, rfl, fun h => ⟨⟨h.fuse, h.fuse, rfl, IdState.noConfusion⟩, rfl⟩⟩

theorem assertReset_drops {l : Level} (hl : l ≠ .core) (src : BitVec 4) (promoted : Bool) :
    s.DropsBlock (s.assertReset l src promoted) := by
  unfold State.assertReset
  cases l with
  | core => contradiction
  | por => exact (porState_drops s).step (modRstc_only ..) rfl
  | system =>
    refine .step ?_ (modRstc_only ..) rfl
    refine State.KeysKept.drops ?_ (systemState_drops _)
    refine .step ?_ (loseEntries_only ..) rfl
    exact ((record_only ..).keysKept rfl).step (downPorts_only ..) rfl

theorem assertReset_keyStep (l : Level) (src : BitVec 4) (promoted : Bool) : s.KeyStep (s.assertReset l src promoted) := by
  by_cases hl : l = .core
  · rw [hl]
    exact (assertReset_core_keysKept ..).keyStep
  · exact (assertReset_drops s hl ..).keyStep

/-- A request for an immediate system reset after a change that keeps the keys. -/
theorem requestReset_system_keyStep {t : State} (h : s.KeysKept t) (src : BitVec 4) : s.KeyStep (t.requestReset .system src true) := by
  obtain h' | h' := requestReset_cases t .system src true
  · exact (h.step h' rfl).keyStep
  · rw [h']
    exact (h.drops (assertReset_drops t (l := .system) (by decide) ..)).keyStep

theorem execPor_keyStep : s.NextKeyStep (execPor s) := by
  unfold execPor
  extract_lets u
  have hu : s.KeysKept u := (modRstc_only ..).keysKept rfl
  split
  · exact (hu.step (modRstc_only ..) rfl).keyStep.next
  · exact (hu.drops (assertReset_drops u (by decide) ..)).keyStep.next

theorem execSupplyMonitorTrip_keyStep : s.NextKeyStep (execSupplyMonitorTrip s) := by
  unfold execSupplyMonitorTrip
  extract_lets u v
  have hu : s.KeysKept u := (modRstc_only ..).keysKept rfl
  refine State.KeyStep.next ?_
  unfold v
  split
  · exact ((hu.step (absorbReset_only ..) rfl).step (modPwr_only ..) rfl).keyStep
  · exact ((hu.drops (assertReset_drops u (by decide) ..)).step (modPwr_only ..) rfl).keyStep

theorem execChestCopyDone_keyStep : s.NextKeyStep (execChestCopyDone s) := by
  unfold execChestCopyDone
  split
  · exact (State.KeysKept.refl s).keyStep.next
  · extract_lets u
    have hu : s.KeysKept u := finishCopy_keysKept s
    split
    · exact (hu.drops (assertReset_drops u (by decide) ..)).keyStep.next
    · exact hu.keyStep.next

theorem execOrderlyResetAssert_keyStep : s.NextKeyStep (execOrderlyResetAssert s) := by
  unfold execOrderlyResetAssert
  split
  · exact (State.KeysKept.refl s).keyStep.next
  · split
    · exact (assertReset_keyStep ..).next
    · exact (State.KeysKept.refl s).keyStep.next

theorem execSysrstNAssert_keyStep : s.NextKeyStep (execSysrstNAssert s) := by
  unfold execSysrstNAssert
  extract_lets u
  have hu : s.KeysKept u := (modRstc_only ..).keysKept rfl
  split
  · exact hu.keyStep.next
  · exact (requestReset_system_keyStep s hu ..).next

theorem execMcWatchdogExpire_keyStep : s.NextKeyStep (execMcWatchdogExpire s) := by
  unfold execMcWatchdogExpire
  split
  · exact (requestReset_system_keyStep s (.refl s) ..).next
  · exact (State.KeysKept.refl s).keyStep.next

theorem execMcLockstepFail_keyStep (x y : Word) : s.NextKeyStep (execMcLockstepFail x y s) := by
  have hflag (v : State) : v.KeysKept (if v.relx.retState = .none then (v.setRetireFlag 5).attn .retire
      else v.setRetireFlag v.relx.retCause) := by
    split
    · exact (setRetireFlag_keysKept ..).step (attn_only ..) rfl
    · exact setRetireFlag_keysKept ..
  unfold execMcLockstepFail
  split
  · exact (State.KeysKept.refl s).keyStep.next
  · refine (requestReset_system_keyStep s ?_ 6).next
    refine .trans ?_ (placeAll_keysKept ..)
    refine .trans ?_ (hflag _)
    exact ((record_only ..).keysKept rfl).step (causeRecord_only ..) rfl

end Resets

/-! ## Fuses, BU1 and the scan clear -/

section Secrets

variable (s : State)

/-- The fuses of a transition and the request that follows it leave the leaves. -/
theorem execLcFuseWriteDone_keyStep : s.NextKeyStep (execLcFuseWriteDone s) := by
  unfold execLcFuseWriteDone
  split
  · exact (State.KeysKept.refl s).keyStep.next
  · next target src hp =>
    have hfuses : s.SameLeaf (s.writeLcFuses target) := by
      unfold State.writeLcFuses State.when
      dsimp only
      split <;> exact ⟨rfl, rfl, rfl, rfl⟩
    refine State.KeyStep.next (State.KeysKept.keyStep (.trans ⟨.inl ?_, fun h => ?_⟩ (requestReset_keysKept ..)))
    · exact hfuses.trans ⟨rfl, rfl, rfl, rfl⟩
    · exact absurd (h.pending.symm.trans hp) (by simp)

theorem execIdGenerateDone_keyStep (secret : BitVec 512) : s.NextKeyStep (execIdGenerateDone secret s) := by
  unfold execIdGenerateDone
  split
  · next h =>
    refine State.KeyStep.next (State.KeysKept.keyStep ⟨.inl ⟨rfl, rfl, rfl, rfl⟩, fun hs => ?_⟩)
    exact absurd h hs.ids
  · exact (State.KeysKept.refl s).keyStep.next

/-- BU9 moves the firmware's security version and the revoked roots in the fuses, and no other fuse (R669). -/
theorem applyAdvance_keysKept : s.KeysKept s.applyAdvance := by
  unfold State.applyAdvance
  split
  · exact .refl s
  · split
    · exact ⟨.inl ⟨rfl, rfl, rfl, rfl⟩, fun h => ⟨⟨h.fuse, h.sec, h.pending, h.ids⟩, rfl⟩⟩
    · exact .refl s

theorem execStageBu9_keyStep (confirmed : Bool) : s.NextKeyStep (execStageBu9 confirmed s) := by
  unfold execStageBu9
  split
  · exact (State.KeysKept.refl s).keyStep.next
  · split
    · exact ((failStage_only ..).keysKept rfl).keyStep.next
    · refine State.KeyStep.next (State.KeysKept.keyStep ?_)
      unfold State.reportReady
      refine .step (.trans ?_ (applyAdvance_keysKept _)) (readyPins_only ..) rfl
      refine .when ?_ fun v => (setReq_only ..).keysKept rfl
      refine .step (.step ?_ (modTop_only ..) rfl) (modRstc_only ..) rfl
      exact (((bindMc_only ..).keysKept rfl).step (passStage_only ..) rfl).step (modBrup_only ..) rfl

theorem bootKeys_drops : s.bootKeys.ids.held = false ∧ s.bootKeys.flash = s.flash := by
  refine ⟨?_, (bootKeys_only ..).flash⟩
  unfold State.bootKeys State.when
  dsimp only
  split
  · rw [(record_only ..).ids]
    rfl
  · rfl

/-- In END BU1 verifies no firmware, and elsewhere it takes the leaf counter and no block (R666, R673). -/
theorem execStageBu1_keyStep (b : Bool) : s.NextKeyStep (execStageBu1 b s) := by
  unfold execStageBu1
  split
  · exact (State.KeysKept.refl s).keyStep.next
  · extract_lets img
    split
    · exact ((failStage_only ..).keysKept rfl).keyStep.next
    · next slot hslot =>
      split
      · exact ((failStage_only ..).keysKept rfl).keyStep.next
      · split
        · exact ((failStage_only ..).keysKept rfl).keyStep.next
        · refine State.KeyStep.next (State.DropsBlock.keyStep ?_)
          refine .step ?_ (passStage_only ..) rfl
          refine .step ?_ (modRstc_only ..) rfl
          refine .step ?_ (modBrup_only ..) rfl
          refine .step ?_ (bootTriggers_only ..) rfl
          refine ⟨?_, ?_, fun h => ?_⟩
          · rw [(bootLog_only ..).flash, (bootKeys_drops _).2, (bootIdentity_only ..).flash]
            exact le_rfl
          · rw [(bootLog_only ..).ids]
            exact (bootKeys_drops _).1
          · simp [h.sec] at hslot

theorem execScanClearDone_keyStep : s.NextKeyStep (execScanClearDone s) := by
  unfold execScanClearDone
  split
  · exact (State.KeysKept.refl s).keyStep.next
  · refine State.KeyStep.next (State.DropsBlock.keyStep ⟨le_rfl, rfl, fun h => ?_⟩)
    exact ⟨⟨h.fuse, h.sec, h.pending, IdState.noConfusion⟩, rfl⟩

end Secrets

/-! ## Signatures -/

section Signatures

variable {s t : State}

/-- A change of a state that holds a block keeps the leaves by the counter alone. -/
theorem State.KeyStep.of_held (hs : s.ids.held = true) (hcounter : s.flash.leafCounter ≤ t.flash.leafCounter)
    (hsealed : s.KeepsSeal t) : s.KeyStep t :=
  ⟨hcounter, fun h => absurd (hs.symm.trans h) (by decide), hsealed⟩

/-- A signature with a leaf of the block held, and what follows it. -/
theorem sign_keyStep (hs : s.ids.held = true) (msg : List Byte) (h : (s.sign msg).2.KeysKept t) : s.KeyStep t :=
  have hsign : s.KeepsSeal (s.sign msg).2 := .of_eq rfl rfl rfl rfl
  .of_held hs h.counter_le (hsign.trans h.sealed)

variable (s)

theorem execSignatureDone_keyStep : s.NextKeyStep (execSignatureDone s) := by
  unfold execSignatureDone
  split
  · exact (State.KeysKept.refl s).keyStep.next
  · exact (State.KeysKept.refl s).keyStep.next
  · split
    · exact (nextSign_keysKept s).keyStep.next
    · next hheld =>
      have hheld : s.ids.held = true := by simpa using hheld
      have hsend (msg : List Byte) (o : Out) : s.KeyStep ((s.sign msg).2.emit o).nextSign :=
        sign_keyStep hheld msg (((emit_only ..).keysKept rfl).trans (nextSign_keysKept _))
      dsimp only
      split
      · exact (hsend ..).next
      · exact (hsend ..).next
      · exact (State.KeysKept.refl s).keyStep.next
      · exact (hsend ..).next

theorem execQuoteDone_keyStep : s.NextKeyStep (execQuoteDone s) := by
  unfold execQuoteDone
  split
  · next nonce seq _ _ =>
    split
    · refine State.KeyStep.next (State.KeysKept.keyStep (.trans ?_ (nextSign_keysKept _)))
      exact .modSec (.refl s) fun _ => ⟨rfl, rfl⟩
    · next hheld =>
      refine State.KeyStep.next (sign_keyStep (by simpa using hheld) (s.quoteBytes nonce seq) (.trans ?_ (nextSign_keysKept _)))
      exact .modSec (.refl _) fun _ => ⟨rfl, rfl⟩
  · exact (State.KeysKept.refl s).keyStep.next

end Signatures

/-- Every command keeps the leaves and the seal: by its frame where that leaves out the parts that hold them, and else by one of the
lemmas above. -/
theorem exec_keyStep (s : State) (c : Instr) : s.NextKeyStep (exec c s) := by
  cases c with
  | eb1Unlock => exact (execEb1Unlock_keysKept s).keyStep
  | scanEn => exact (execScanEn_keysKept s).keyStep
  | scanClearDone => exact execScanClearDone_keyStep s
  | por => exact execPor_keyStep s
  | supplyMonitorTrip => exact execSupplyMonitorTrip_keyStep s
  | chestCopyDone => exact execChestCopyDone_keyStep s
  | orderlyResetAssert => exact execOrderlyResetAssert_keyStep s
  | registerWrite => exact (execRegisterWrite_keysKept ..).keyStep
  | bar0MultiwordAccess => exact (execBar0MultiwordAccess_keysKept ..).keyStep
  | pwrWake => exact (execPwrWake_keysKept ..).keyStep
  | fretDomainWrite | flightRemeasure | clkChangeGo | clkHalfSet | clkHalfRestore | lpFlush | kvpEnable | connOpen | connClose
  | queueBind | queueUnbind | fabPortDisable | nqHeadWrite | rxConsume | ownerClaim | ownerRelease | ownerGive | digestEnable
  | digestDisable | digestVerify | digestCfgWrite | healFence | healRotate | healPartitionRecovery | twinAttachSource
  | twinAttachSink | twinDetach | rstcReqCore | rstcReqSystem | blkMaintenanceReset | blkRecoveryReset | brupStartStage
  | brupPause | brupResume | brupBootPushed | brupProgram | pwrParkNow | budgetWrite | pegRetuneAll | lcTransitionRequest
  | idGenerate | opkWrite | opkErase | quoteRequest | shutdownTestStart =>
    exact (accWrite_keysKept ..).next.keyStep
  | scriptWrite => exact (execScriptWrite_keysKept ..).keyStep
  | scriptModify => exact (execScriptModify_keysKept ..).keyStep
  | mgmtSystemReset =>
    exact (mgmtCommand_changes_keysKept s _ _ _ fun u => requestReset_keysKept ..).next.keyStep
  | mgmtCoreReset =>
    exact (mgmtCommand_changes_keysKept s _ _ _ fun u => requestReset_keysKept ..).next.keyStep
  | mgmtAssignOwner => exact (execMgmtAssignOwner_keysKept ..).keyStep
  | mgmtSetBudget => exact (mgmtCommand_changes_keysKept s _ _ _ fun u => (setMgmtBudget_only ..).keysKept rfl).next.keyStep
  | mgmtChestClear => exact (mgmtCommand_changes_keysKept s _ _ _ fun u => clearChest_keysKept ..).next.keyStep
  | mgmtClearRetire => exact (execMgmtClearRetire_keysKept ..).keyStep
  | mgmtQuote => exact (execMgmtQuote_keysKept ..).keyStep
  | mgmtWriteReg => exact (execMgmtWriteReg_keysKept ..).keyStep
  | mgmtUnknownCommand => exact (execMgmtUnknownCommand_keysKept ..).keyStep
  | retireStart => exact (execRetireStart_keysKept ..).keyStep
  | retireComplete => exact (execRetireComplete_keysKept ..).keyStep
  | firing => exact (execFiring_keysKept ..).keyStep
  | steerEmit => exact (execSteerEmit_keysKept ..).keyStep
  | writeDrawerFillCheck => exact (execWriteDrawerFillCheck_keysKept ..).keyStep
  | wormRoute => exact (execWormRoute_keysKept ..).keyStep
  | releaseQueueArrive => exact (execReleaseQueueArrive_keysKept ..).keyStep
  | ncnCrcError => exact (execNcnCrcError_keysKept ..).keyStep
  | hbmPhyFault => exact (retireCause_keysKept ..).next.keyStep
  | taskHang => exact (execTaskHang_keysKept ..).keyStep
  | arbitrationDone => exact (execArbitrationDone_keysKept ..).keyStep
  | digestPassDone => exact (execDigestPassDone_keysKept ..).keyStep
  | digestMessageReceive => exact (execDigestMessageReceive_keysKept ..).keyStep
  | hbmWindowTestDone => exact (execHbmWindowTestDone_keysKept ..).keyStep
  | infieldTestDone => exact (execInfieldTestDone_keysKept ..).keyStep
  | wakeDone => exact (execWakeDone_keysKept ..).keyStep
  | shutdownTestPhase => exact (execShutdownTestPhase_keysKept ..).keyStep
  | shutdownRecord => exact (execShutdownRecord_keysKept ..).keyStep
  | healthRecordFenceWrite => exact (writeHealth_keysKept ..).next.keyStep
  | remapApply => exact (execRemapApply_keysKept ..).keyStep
  | rotationApply => exact (execRotationApply_keysKept ..).keyStep
  | healFenceDeferredApply => exact (execHealFenceDeferredApply_keysKept ..).keyStep
  | prrResetDone => exact (execPrrResetDone_keysKept ..).keyStep
  | pegRetune => exact (execPegRetune_keysKept ..).keyStep
  | chestRecordPlace => exact (execChestRecordPlace_keysKept ..).keyStep
  | chestCopyStart => exact (execChestCopyStart_keysKept ..).keyStep
  | thermalTrip => exact (execThermalTrip_keysKept ..).keyStep
  | sysrstNAssert => exact execSysrstNAssert_keyStep ..
  | mcWatchdogExpire => exact execMcWatchdogExpire_keyStep ..
  | mcLockstepFail => exact execMcLockstepFail_keyStep ..
  | lcFuseWriteDone => exact execLcFuseWriteDone_keyStep ..
  | stageBu0 => exact (execStageBu0_keysKept ..).keyStep
  | stageBu1 => exact execStageBu1_keyStep ..
  | stageBu4 => exact (execStageBu4_keysKept ..).keyStep
  | stageBu5 => exact (execStageBu5_keysKept ..).keyStep
  | stageBu6 => exact (execStageBu6_keysKept ..).keyStep
  | stageBu7 => exact (execStageBu7_keysKept ..).keyStep
  | stageBu8 => exact (execStageBu8_keysKept ..).keyStep
  | mcLoad => exact (execMcLoad_keysKept ..).keyStep
  | mcUnload => exact (execMcUnload_keysKept ..).keyStep
  | signRequest => exact (execSignRequest_keysKept ..).keyStep
  | signatureDone => exact execSignatureDone_keyStep ..
  | quoteDone => exact execQuoteDone_keyStep ..
  | idGenerateDone => exact execIdGenerateDone_keyStep ..
  | stageBu9 => exact execStageBu9_keyStep ..
  | _ => exact (exec_frame _ s).keyStep rfl

/-- Settles O53: every command keeps the seal. -/
theorem endIsFinal : Obligations.EndIsFinal := by
  intro c s t hfuse hsec hpending hids ht
  obtain ⟨hsealed, hsecret⟩ := ((exec_keyStep s c).of_eq ht).sealed ⟨hfuse, hsec, hpending, hids⟩
  exact ⟨hsealed.fuse, hsealed.sec, hsealed.pending, hsealed.ids, hsecret⟩

/-- Settles O56: every command keeps the counter, and one that comes to hold a block took it. -/
theorem leafCounterNeverFalls : Obligations.LeafCounterNeverFalls := by
  refine ⟨fun c s t ht => ((exec_keyStep s c).of_eq ht).counter, fun c s t hs ht hheld => ?_⟩
  have h := ((exec_keyStep s c).of_eq ht).taken hs hheld
  exact ⟨h.leaf, h.blocks, h.counter⟩

end Sys2Proof.Machine
end

section
/-!
PROOFS. Reading rules for the shared operations of the state: conditional changes, folds, outputs and the tables of units.
-/

set_option Elab.async false

namespace Sys2Proof.Machine

variable {s : State}

@[simp] theorem State.when_true (s : State) (f : State → State) : s.when true f = f s := rfl

@[simp] theorem State.when_false (s : State) (f : State → State) : s.when false f = s := rfl

/-- What is read of a state after a conditional change. -/
theorem State.when_read {α : Type} (g : State → α) (s : State) (c : Bool) (f : State → State) :
    g (s.when c f) = if c then g (f s) else g s := by
  cases c <;> rfl

@[simp] theorem State.each_nil {α : Type} (s : State) (f : State → α → State) : s.each [] f = s := rfl

@[simp] theorem State.each_cons {α : Type} (s : State) (x : α) (xs : List α) (f : State → α → State) :
    s.each (x :: xs) f = (f s x).each xs f := rfl

/-- What a fold leaves that each of its steps leaves. -/
theorem State.each_read {α β : Type} (g : State → β) {f : State → α → State} (hf : ∀ u x, g (f u x) = g u) (xs : List α) (s : State) :
    g (s.each xs f) = g s := by
  induction xs generalizing s with
  | nil => rfl
  | cons x xs ih => exact (ih _).trans (hf s x)

/-- Outputs sent one after the other stand newest first. -/
theorem State.each_emit {α : Type} (s : State) (xs : List α) (g : α → Out) :
    s.each xs (fun s x => s.emit (g x)) = { s with out := xs.reverse.map g ++ s.out } := by
  induction xs generalizing s with
  | nil => rfl
  | cons x xs ih =>
    rw [State.each_cons, ih]
    simp [State.emit, State.modOut]

/-- A bit of a mask after one bit is set or cleared. -/
theorem bit_putBit {w : Nat} (x : BitVec w) (i j : Nat) (b : Bool) :
    bit (putBit x i b) j = if j = i ∧ i < w then b else bit x j := by
  have hone : (BitVec.ofNat w (2 ^ i)).getLsbD j = (decide (j < w) && decide (i = j)) := by
    rw [BitVec.getLsbD_ofNat, Nat.testBit_two_pow]
  unfold bit putBit
  cases b
  · rw [if_neg (by decide), BitVec.getLsbD_and, BitVec.getLsbD_not, hone]
    grind [BitVec.getLsbD_of_ge]
  · rw [if_pos rfl, BitVec.getLsbD_or, hone]
    grind [BitVec.getLsbD_of_ge]

/-- A frame in a larger list of parts. -/
theorem State.Only.in {s t : State} {cs ds : List Comp} (h : s.Only t cs) (hc : ∀ c ∈ cs, c ∈ ds := by decide) : s.Only t ds :=
  h.mono hc

end Sys2Proof.Machine
end

section
/-!
PROOFS. O1: beacons and the alignment state (04 R188 to R193).
-/

set_option Elab.async false

namespace Sys2Proof.Machine

section Flags

variable (s : State)

@[simp] theorem fretFlag_fret (f : FretFlag) : (s.fretFlag f).fret = s.fret.setFlag f := by
  have hattn (u : State) (c : Bool) (a : Attn) : (u.when c (·.attn a)).fret = u.fret :=
    (only_when (.refl u [.top, .out]) (attn_only u a)).fret
  have hrecord (u : State) (c : Bool) (d : State → List Word) : (u.when c fun v => v.record .domain (d v)).fret = u.fret :=
    (only_when (.refl u [.chest]) (record_only u _ _)).fret
  rw [State.fretFlag, hrecord _ _ fun v => [fretRead (chestSel 0) v 0x008, fretRead (chestSel 0) v 0x020], hattn]
  rfl

@[simp] theorem fretFlag_tasks (f : FretFlag) : (s.fretFlag f).tasks = s.tasks := (fretFlag_only s f).tasks

@[simp] theorem abortRunning_fret (st : Status) : (s.abortRunning st).fret = s.fret := (abortRunning_only s st).fret

@[simp] theorem toMember_fret :
    s.toMember.fret = { s.fret with state := .member, good := 0, fromChange := false, east := s.fret.west } :=
  (only_when (cs := [.clk]) (.refl _ _) (only_modClk (.refl _ _) (by decide))).fret

@[simp] theorem loseAlign_fret : s.loseAlign.fret = s.toTrack.fret.setFlag .alignLost := by
  rw [State.loseAlign, abortRunning_fret, fretFlag_fret]

@[simp] theorem retrim_fret :
    s.retrim.fret = { s.fret with trim := BitVec.ofInt 16 (((s.freeVal.1.toNat % 40001 : Nat) : Int) - 20000) } := rfl

@[simp] theorem retrim_tasks : s.retrim.tasks = s.tasks := rfl

theorem AllAborted_congr {s t u : State} (h : u.tasks = t.tasks) (k : s.AllAborted t) : s.AllAborted u := fun n hn => by
  rw [task_congr h]
  exact k n hn

theorem loseAlign_allAborted : s.AllAborted s.loseAlign := 
  AllAborted_of (u := s.toTrack.fretFlag .alignLost) (fretFlag_tasks s.toTrack _) (abortRunning_allAborted _ _)

/-- Alignment lost to a beacon that is far off: the counters are loaded again, and the tasks stay aborted. -/
theorem lostBy_allAborted (c : Bool) (b : Beacon) (flight : Nat) :
    s.AllAborted (s.loseAlign.when c (·.reload b flight)).retrim := by
  refine AllAborted_congr (t := s.loseAlign) ?_ (loseAlign_allAborted s)
  cases c <;> rfl

theorem lostBy_fret (c : Bool) (b : Beacon) (flight : Nat) :
    (s.loseAlign.when c (·.reload b flight)).retrim.fret.state = .track ∧
      (s.loseAlign.when c (·.reload b flight)).retrim.fret.alignLost = true ∧
      (s.loseAlign.when c (·.reload b flight)).retrim.fret.sinceBeacon = s.fret.sinceBeacon ∧
      (c = false → (s.loseAlign.when c (·.reload b flight)).retrim.fret.west = s.fret.west) := by
  cases c <;> simp [State.reload, State.toTrack, FretSt.setFlag]

end Flags

/-! ## Judging a beacon -/

section Judge

variable {s : State}

/-- A beacon's error is noted, and the count of frets without a beacon starts again (R189, R193). -/
def State.hear (s : State) (e : Int) : State :=
  s.modFret fun r =>
    { r with sinceBeacon := 0, err := satErr e, maxErr := BitVec.ofNat 8 (max r.maxErr.toNat (min e.natAbs 255)) }

theorem hear_only (s : State) (e : Int) : s.Only (s.hear e) [.fret] := modFret_only ..

/-- A beacon of this domain on the parent port is judged in each state but UNLOCKED and CHANGE. -/
theorem execBeaconReceive_judges {p : FabPort} {b : Beacon} {c e : Nat} {t : State} (hp : s.parentPort = some p)
    (hd : b.domain = s.fret.domain) (hu : s.fret.state ≠ .unlocked) (hc : s.fret.state ≠ .change)
    (ht : (s.hear (s.beaconErr b s.now c (s.flightReg p).flight.toNat)).judge b (s.flightReg p).flight.toNat
      (s.beaconErr b s.now c (s.flightReg p).flight.toNat) (s.beaconErr b s.fret.east.toNat e (s.flightReg p).flight.toNat) = t) :
    exec (.beaconReceive p b ⟨c, e⟩) s = .next t := by
  refine (if_neg (by simp [hp, hd])).trans ?_
  dsimp only
  rw [if_neg (by simpa using ⟨hu, hc⟩), ← ht]
  rfl

variable {b : Beacon} {flight : Nat} {e east : Int}

theorem judge_free (h : s.fret.state = .free) : s.judge b flight e east = (s.reload b flight).toTrack.retrim := by
  simp [State.judge, h]

theorem judge_track_good (h : s.fret.state = .track) (he : e.natAbs ≤ 2) :
    s.judge b flight e east = (if s.fret.good + 1 < 16 then s.modFret fun r => { r with good := r.good + 1 }
      else if s.fret.fromChange then s.toMember else s.modFret fun r => { r with state := .aligned, good := 0 }).retrim := by
  simp only [State.judge, h]
  rw [if_neg (by omega), if_neg (by omega)]
  split
  · rfl
  · split <;> rfl

theorem judge_track_bad (h : s.fret.state = .track) (he : 2 < e.natAbs) :
    s.judge b flight e east =
      ((if 16 < e.natAbs then s.reload b flight else s).modFret fun r => { r with good := 0 }).retrim := by
  simp only [State.judge, h]
  rw [if_pos he]
  split <;> rfl

theorem judge_aligned (h : s.fret.state = .aligned) :
    s.judge b flight e east =
      (if 2 < e.natAbs then s.toTrack.when (decide (16 < e.natAbs)) (·.reload b flight) else s).retrim := by
  simp only [State.judge, h]
  split <;> rfl

theorem judge_member_good (h : s.fret.state = .member ∨ s.fret.state = .holdover) (he : e.natAbs ≤ 2) :
    s.judge b flight e east = (if s.fret.state = .member then s else s.toMember).retrim := by
  obtain h | h := h <;> simp [State.judge, h, he]

theorem judge_member_bad (h : s.fret.state = .member ∨ s.fret.state = .holdover) (he : 2 < e.natAbs) :
    s.judge b flight e east = (s.loseAlign.when (decide (16 < e.natAbs)) (·.reload b flight)).retrim := by
  obtain h | h := h <;> simp [State.judge, h, he]

theorem judge_split (h : s.fret.state = .split) :
    s.judge b flight e east = if 16 < e.natAbs ∧ 16 < east.natAbs then s.toTrack else s := by
  simp only [State.judge, h]

end Judge

/-- Settles O1: each clause is a row of the table of R193. -/
theorem alignmentFollowsBeacons : Obligations.AlignmentFollowsBeacons := by
  refine ⟨?_, ?_, ?_, ?_, ?_, ?_, ?_, ?_, ?_, ?_, ?_, ?_, ?_, ?_, ?_, ?_, ?_, ?_⟩
  · intro s hst h0
    refine (if_pos ⟨hst, h0⟩).trans ?_
    rw [State.each_emit, List.map_reverse]
  · intro s h
    refine if_neg fun hsend => ?_
    obtain ⟨hst, h0⟩ := hsend
    obtain ⟨ha, hm, hh⟩ | h := h
    · obtain h | h | h := hst <;> contradiction
    · exact h h0
  · exact fun s p b c e h => if_pos h
  · intro s p b c e hp hd hst
    refine (if_neg (by simp [hp, hd])).trans (if_pos hst)
  · intro s p b c e hp hd hst
    refine ⟨_, (execBeaconReceive_judges hp hd (by simp [hst]) (by simp [hst]))
      (judge_free (s := s.hear _) hst), ?_, rfl, rfl, rfl, rfl, rfl⟩
    exact only_retrim (only_toTrack (only_reload (hear_only ..).in (by decide)) (by decide)) (by decide)
  · intro s p b c e hp hd hst he
    refine ⟨_, (execBeaconReceive_judges hp hd (by simp [hst]) (by simp [hst]))
      (judge_track_good (s := s.hear _) hst he), ?_, ?_⟩
    · refine only_retrim (only_ite ?_ (only_ite ?_ ?_)) (by decide)
      · exact only_modFret (hear_only ..).in (by decide)
      · exact only_toMember (hear_only ..).in (by decide)
      · exact only_modFret (hear_only ..).in (by decide)
    · simp only [retrim_fret, show (s.hear _).fret.good = s.fret.good from rfl,
        show (s.hear _).fret.fromChange = s.fret.fromChange from rfl]
      split
      · exact ⟨rfl, rfl, hst⟩
      · split
        · rw [toMember_fret]
          exact ⟨rfl, rfl, rfl⟩
        · exact ⟨rfl, rfl, rfl⟩
  · intro s p b c e hp hd hst he
    refine ⟨_, (execBeaconReceive_judges hp hd (by simp [hst]) (by simp [hst]))
      (judge_track_bad (s := s.hear _) hst he), ?_, ?_⟩
    · refine only_retrim (only_modFret (only_ite ?_ ?_) (by decide)) (by decide)
      · exact only_reload (hear_only ..).in (by decide)
      · exact (hear_only ..).in
    · split
      · exact ⟨hst, rfl, rfl, fun h => by omega⟩
      · exact ⟨hst, rfl, rfl, fun _ => rfl⟩
  · intro s p b c e hp hd hst
    refine ⟨_, (execBeaconReceive_judges hp hd (by simp [hst]) (by simp [hst]))
      (judge_aligned (s := s.hear _) hst), ?_, ?_⟩
    · refine only_retrim (only_ite (only_when ?_ (only_reload ?_ (by decide))) (hear_only ..).in) (by decide) <;>
        exact only_toTrack (hear_only ..).in (by decide)
    · split
      · next h2 =>
        rw [if_neg (by omega), retrim_fret, State.when_read (·.fret)]
        split
        · next h16 => exact ⟨rfl, rfl, fun h => absurd (of_decide_eq_true h16) (by omega)⟩
        · exact ⟨rfl, rfl, fun _ => rfl⟩
      · next h2 =>
        rw [if_pos (by omega)]
        exact ⟨rfl, hst, fun _ => rfl⟩
  · intro s p b c e hp hd hst he
    refine ⟨_, (execBeaconReceive_judges hp hd (by aesop) (by aesop))
      (judge_member_good (s := s.hear _) hst he), ?_, ?_⟩
    · exact only_retrim (only_ite (hear_only ..).in (only_toMember (hear_only ..).in (by decide))) (by decide)
    · split
      · next h => exact ⟨rfl, h, rfl⟩
      · rw [retrim_fret, toMember_fret]
        exact ⟨rfl, rfl, rfl⟩
  · intro s p b c e hp hd hst he
    refine ⟨_, (execBeaconReceive_judges hp hd (by aesop) (by aesop))
      (judge_member_bad (s := s.hear _) hst he), ?_, ?_⟩
    · refine only_retrim (only_when ?_ (only_reload ?_ (by decide))) (by decide) <;>
        exact only_loseAlign (hear_only ..).in (by decide)
    · obtain ⟨hstate, hlost, hsince, hwest⟩ := lostBy_fret (s.hear _) _ b (s.flightReg p).flight.toNat
      exact ⟨hstate, hlost, hsince, AllAborted_of (u := s.hear _) rfl (lostBy_allAborted _ _ _ _),
        fun h => hwest (decide_eq_false (by omega))⟩
  · intro s p b c e hp hd hst
    refine ⟨_, execBeaconReceive_judges hp hd (by simp [hst]) (by simp [hst]) (judge_split (s := s.hear _) hst), ?_, ?_⟩
    · exact only_ite (only_toTrack (hear_only ..) (by decide)) (hear_only ..)
    · split
      · exact ⟨rfl, rfl, rfl, rfl⟩
      · exact ⟨rfl, rfl, rfl, hst⟩
  · intro s hroot hlost hst
    refine ⟨_, (if_neg (by omega)).trans (by simp only [hst]; exact if_neg (by simp [hroot])), ?_, rfl, ?_, ?_, ?_⟩
    · exact only_modFret (fretFlag_only ..) (by decide)
    all_goals simp only [State.modFret_fret, fretFlag_fret]; rfl
  · intro s hlost hst
    refine ⟨((s.fretFlag .beaconLost).modFret fun r => { r with state := .free, good := 0 }), (if_neg (by omega)).trans ?_, ?_, rfl,
      ?_, ?_, ?_⟩
    · obtain h | h := hst <;> simp only [h]
    · exact only_modFret (fretFlag_only ..) (by decide)
    all_goals simp only [State.modFret_fret, fretFlag_fret]; rfl
  · intro s h
    obtain h | ⟨hst, hroot⟩ := h
    · exact if_pos h
    · by_cases hs : s.fret.sinceBeacon < 8192
      · exact if_pos hs
      · refine (if_neg hs).trans ?_
        simp only [hst]
        exact if_pos hroot
  · intro s hst hlost
    refine ⟨_, if_pos ⟨hst, hlost⟩, ?_, ?_, ?_⟩
    · exact only_abortRunning (modFret_only ..).in (by decide)
    · rw [abortRunning_fret]
      rfl
    · exact AllAborted_of (u := s.modFret _) rfl (abortRunning_allAborted _ _)
  · intro s h
    exact if_neg fun hk => h.elim (fun h => h hk.1) fun h => by omega
  · intro s hst h0
    refine ⟨_, if_pos ⟨hst, h0⟩, toMember_only s, toMember_fret s, fun hp => ?_⟩
    unfold State.toMember
    rw [hp]
    rfl
  · intro s h
    exact if_neg fun hk => h.elim (fun h => h hk.1) fun h => h hk.2

end Sys2Proof.Machine
end

section
/-!
PROOFS. O2: the halves' clocks and the seam (04 R193, R212 to R216).
-/

set_option Elab.async false

namespace Sys2Proof.Machine

variable (s : State)

theorem toMember_clocks : s.toMember.clk.west = s.clk.west ∧ s.toMember.clk.east = s.clk.east := by
  unfold State.toMember State.when
  dsimp only
  split <;> exact ⟨rfl, rfl⟩

theorem detect_fret (n : BitVec 32) (st : Status) : (s.detect n st).fret = s.fret := (detect_only s n st).fret

/-- A slip leaves all of the FRET block but FRET_SLIP. -/
theorem slip_fret (n : BitVec 32) (k w : Nat) :
    (s.slip n k w).fret = { s.fret with
      slipKind := BitVec.ofNat 4 k, slipWhere := BitVec.ofNat 12 w, slipCount := satAdd s.fret.slipCount 1 } := detect_fret ..

/-- What a slip of every task of a list leaves of the FRET block. -/
theorem each_slip_read {α : Type} (g : FretSt → α) (hg : ∀ (r : FretSt) k w c, g { r with slipKind := k, slipWhere := w, slipCount := c } = g r)
    (xs : List (BitVec 32)) (k w : Nat) : g (s.each xs fun s n => s.slip n k w).fret = g s.fret := by
  refine State.each_read (fun u => g u.fret) (fun u n => ?_) xs s
  rw [slip_fret, hg]

theorem each_slip_kind {xs : List (BitVec 32)} (h : xs ≠ []) (k w : Nat) :
    (s.each xs fun s n => s.slip n k w).fret.slipKind = BitVec.ofNat 4 k := by
  induction xs generalizing s with
  | nil => contradiction
  | cons x xs ih =>
    rw [State.each_cons]
    by_cases hx : xs = []
    · rw [hx, State.each_nil, slip_fret]
    · exact ih _ hx

theorem running_congr {s t : State} (h : t.tasks = s.tasks) : t.running = s.running := by
  unfold State.running
  rw [h]

/-- A seam split enters SPLIT with its flag, and then slips the tasks that run (R213). -/
theorem execSeamSplit_slips (h : s.fret.state = .member ∨ s.fret.state = .holdover) :
    ∃ u, execSeamSplit s = .next (u.each s.running fun s n => s.slip n 5 0) ∧ s.Only u [.top, .fret, .chest, .out] ∧
      u.tasks = s.tasks ∧ u.fret.state = .split ∧ u.fret.seamSplit = true ∧ u.fret.west = s.fret.west := by
  unfold execSeamSplit
  rw [if_pos h]
  extract_lets u v
  have htasks : v.tasks = s.tasks := fretFlag_tasks u _
  have hv : v.fret = u.fret.setFlag .seamSplit := fretFlag_fret u _
  refine ⟨v, by rw [running_congr htasks], only_fretFlag (modFret_only ..).in (by decide), htasks, ?_, ?_, ?_⟩ <;> rw [hv] <;> rfl

/-- Settles O2: each clause is a row of the table of R193. -/
theorem clockAndSeamEvents : Obligations.ClockAndSeamEvents := by
  refine ⟨?_, ?_, ?_, ?_, ?_, ?_, ?_, ?_, ?_, ?_, ?_, ?_⟩
  · intro s h
    refine ⟨_, rfl, only_abortRunning (only_modFret (modClk_only ..).in (by decide)) (by decide), ?_, ?_, ?_, ?_⟩
    · rw [abortRunning_fret]
      rfl
    · rw [(abortRunning_only ..).clk]
      cases h <;> exact (bit_putBit ..).trans (by simp)
    · rw [abortRunning_fret]
      rfl
    · exact AllAborted_of (u := (s.modClk _).modFret _) rfl (abortRunning_allAborted _ _)
  · intro s w e hst h2 hw he
    simp [exec, execPllRelock, hst, h2, hw, he, State.modClk, State.modFret, lockBoth]
  · intro s w e hst h
    have h : ¬ (s.passed 2 = true ∧ w.toNat ≤ s.fuse.grade.mhz ∧ e.toNat ≤ s.fuse.grade.mhz) := by
      rintro ⟨h2, hw, he⟩
      obtain h | h | h := h
      · exact absurd (h2.symm.trans h) (by decide)
      · omega
      · omega
    simp [exec, execPllRelock, hst, h]
  · intro s w e hst hroot hw he
    simp only [exec, execPllRelock, hst]
    rw [if_pos ⟨hw, he⟩, if_neg (by simp [State.modClk, State.modFret, hroot])]
    refine ⟨_, rfl, ?_, ?_⟩
    · exact only_modFret (only_toTrack (only_modFret (modClk_only ..).in (by decide)) (by decide)) (by decide)
    · exact ⟨rfl, rfl, rfl, rfl, rfl⟩
  · intro s w e hst hroot hw he
    simp only [exec, execPllRelock, hst]
    rw [if_pos ⟨hw, he⟩, if_pos (by simp [State.modClk, State.modFret, hroot])]
    refine ⟨_, rfl, ?_, ?_⟩
    · exact only_toMember (only_modFret (modClk_only ..).in (by decide)) (by decide)
    · rw [toMember_fret, (toMember_clocks _).1, (toMember_clocks _).2]
      exact ⟨rfl, rfl, rfl, rfl, rfl⟩
  · intro s w e hst h
    simp only [exec, execPllRelock, hst]
    exact if_neg fun hk => h.elim (absurd hk.1) (absurd hk.2)
  · intro s hst
    obtain ⟨u, hu, hframe, htasks, hstate, hflag, hwest⟩ := execSeamSplit_slips s hst
    refine ⟨_, hu, only_each hframe.in fun _ _ h => only_slip h (by decide), ?_, ?_, ?_, slip_allAborted s u htasks 5 0,
      fun h => each_slip_kind u h 5 0⟩
    · rw [each_slip_read _ (·.state) fun _ _ _ _ => rfl, hstate]
    · rw [each_slip_read _ (·.seamSplit) fun _ _ _ _ => rfl, hflag]
    · rw [each_slip_read _ (·.west) fun _ _ _ _ => rfl, hwest]
  · exact fun s hm hh => if_neg fun h => h.elim hm hh
  · intro s hst hw he hc
    refine ⟨_, if_pos ⟨hst, hw, he, hc⟩, only_toMember (modFret_only ..).in (by decide), ?_⟩
    rw [toMember_fret]
    refine ⟨rfl, rfl, ?_⟩
    dsimp only [State.modFret_fret]
    split <;> omega
  · intro s h
    refine if_neg ?_
    rintro ⟨hst, hw, he, hc⟩
    simp [hst, hw, he, hc] at h
  · intro s fc hst hat hfc
    simp only [exec, execClockChangeFret, hat]
    exact if_pos ⟨hst, hfc⟩
  · intro s h
    simp only [exec, execClockChangeFret]
    cases hat : s.fret.changeAt with
    | none => rfl
    | some fc => exact if_neg fun hk => h.elim (absurd hk.1) (by simp [hat])

end Sys2Proof.Machine
end

section
/-!
PROOFS. O3: flights, stretch and aborts between chips (04 R195, R196, R204 to R208, R217 to R222).
-/

set_option Elab.async false

namespace Sys2Proof.Machine

variable (s : State)

/-! ## Measured flights -/

theorem updFlight_flightReg (p q : Nat) (f : FlightReg → FlightReg) :
    (s.updFlight p f).flightReg q = if q = p then f (s.flightReg p) else s.flightReg q := Tab.get_upd ..

theorem endMeasure_flightReg (q : Nat) :
    s.endMeasure.flightReg q =
      if s.fret.flights.any (fun e => e.2.measuring) then s.flightReg q else { s.flightReg q with remeasure := false } := by
  unfold State.endMeasure State.flightReg
  cases s.fret.flights.any (fun e => e.2.measuring) with
  | true => rfl
  | false => exact Tab.get_map_value {} (fun g : FlightReg => { g with remeasure := false }) rfl ..

/-- While a link is being measured, the end of another link's measurement leaves the registers. -/
theorem endMeasure_measuring (h : s.fret.flights.any (fun e => e.2.measuring) = true) : s.endMeasure = s := by
  unfold State.endMeasure
  rw [h]
  rfl

/-! ## Messages along the beacon tree -/

theorem forwardAnnounce_eq (a : Announce) :
    s.forwardAnnounce a = s.modOut ((s.childPorts.reverse.map fun p => Out.announce p a) ++ ·) :=
  State.each_emit ..

theorem stretchReport_strh (eff : U64) (old new : BitVec 6) : (s.stretchReport eff old new).tel.strh = s.tel.strh := by
  unfold State.stretchReport State.putReport State.when
  dsimp only
  split
  · split <;> rfl
  · rfl

/-- An abort message received for a task that is armed or runs is forwarded, noted where it is late, and kept with the task (R217 to
R219). -/
theorem execAbortMessageReceive_busy {s : State} {src : FabPort} {m : AbortMsg} {x : TaskRt}
    (hx : Tab.find s.tasks m.task.toNat = some x) (hbusy : x.busy = true) :
    exec (.abortMessageReceive src m) s = .next
      (((s.modOut (((s.treePorts.filter (· ≠ src)).reverse.map fun p => Out.abort p m) ++ ·)).when (decide (m.fret < s.now))
        (·.fretFlag .abortLate)).updTask m.task fun t =>
          { t with recvd := true, aborts := t.aborts ++ [⟨m.fret, m.chip, m.status, s.now⟩] }) := by
  simp only [exec, execAbortMessageReceive]
  rw [State.each_emit]
  have htasks (u : State) (c : Bool) : (u.when c (·.fretFlag .abortLate)).tasks = u.tasks := by
    rw [State.when_read (·.tasks), fretFlag_tasks, ite_self]
  rw [htasks, hx]
  unfold TaskRt.busy at hbusy
  cases hp : x.phase <;> simp [hp] at hbusy ⊢ <;> rfl

theorem root_of_parentPort {s : State} {p : FabPort} (h : s.parentPort = some p) : s.fret.root = false := by
  unfold State.parentPort at h
  cases hr : s.fret.root with
  | false => rfl
  | true => simp [hr] at h

/-- The root announces the stretch it wants, with the announcement pending (R204 to R207). -/
theorem execStretchAnnounce_sends {s : State} {eff : U64} (hroot : s.fret.root = true)
    (hw : s.wanted ≠ (s.fret.pending.getLast?.map (·.1.toNat)).getD s.fret.stretch.toNat) (hlen : s.fret.pending.length < 4)
    (hnow : s.fret.west.toNat + 4096 ≤ eff.toNat)
    (hafter : s.fret.pending ≠ [] → (s.fret.pending.getLast?.map (·.2.toNat)).getD 0 < eff.toNat) :
    ∃ t, exec (.stretchAnnounce eff) s = .next t ∧ s.Only t [.fret, .out] ∧
      t.fret = { s.fret with pending := insertPending (BitVec.ofNat 6 s.wanted, eff) s.fret.pending, waitingReq := none } ∧
      t.out = (s.childPorts.reverse.map fun p => Out.announce p (.stretch (BitVec.ofNat 6 s.wanted) eff)) ++ s.out := by
  simp only [exec, execStretchAnnounce]
  rw [if_neg (by simp [hroot, hw]), if_neg (by omega), if_neg (by
    rintro (h | ⟨h, h'⟩)
    · exact absurd h (by unfold State.now; omega)
    · exact absurd (hafter h) (by omega))]
  refine ⟨_, rfl, only_forwardAnnounce (modFret_only ..).in (by decide), ?_, ?_⟩ <;> rw [forwardAnnounce_eq] <;> rfl

/-- Settles O3. -/
theorem domainMessagesTakeEffect : Obligations.DomainMessagesTakeEffect := by
  refine ⟨?_, ?_, ?_, ?_, ?_, ?_, ?_, ?_, ?_, ?_, ?_, ?_, ?_, ?_, ?_, ?_⟩
  · intro s p xs hm hlen
    refine ⟨_, if_pos ⟨hm, hlen⟩, only_endMeasure (loadFlight_only ..) (by decide), ?_⟩
    have hreg (q : Nat) : (s.loadFlight p xs).flightReg q = if q = p.val then
        { s.flightReg p with
          measuring := false, valid := true, allow := satOfNat 11 (ceilDiv (flightOf xs) 32 + 2), flight := satOfNat 16 (flightOf xs) }
        else s.flightReg q := updFlight_flightReg ..
    have hp := hreg p
    rw [if_pos rfl] at hp
    refine ⟨?_, ?_, ?_, ?_, fun q hq => ?_, fun hnone q => ?_⟩
    · rw [endMeasure_flightReg, hp]
      split <;> rfl
    · rw [endMeasure_flightReg, hp]
      split <;> rfl
    · rw [endMeasure_flightReg, hp]
      split <;> rfl
    · rw [endMeasure_flightReg, hp]
      split <;> rfl
    · rw [endMeasure_flightReg, hreg q, if_neg fun h => hq (Fin.ext h)]
      split <;> exact ⟨rfl, rfl, rfl⟩
    · rw [endMeasure_flightReg]
      split
      · next h =>
        rw [endMeasure_measuring _ h, h] at hnone
        exact absurd hnone (by decide)
      · rfl
  · intro s p xs h
    refine if_neg fun hk => ?_
    obtain ⟨hm, hlen⟩ := hk
    exact h.elim (fun h => absurd (hm.symm.trans h) (by decide)) fun h => h hlen
  · intro s chip req hroot
    simp [exec, execStretchRequestReceive, State.sendRequest, hroot, State.modFret]
  · intro s chip req p hp
    simp [exec, execStretchRequestReceive, State.sendRequest, hp, root_of_parentPort hp, State.emit, State.modOut]
  · intro s eff hroot hpend hw heff
    have h := execStretchAnnounce_sends (eff := eff) hroot (by simpa [hpend] using hw) (by simp [hpend]) heff (by simp [hpend])
    rwa [hpend] at h
  · intro s eff last hroot hlast hlen hw heff hle
    exact execStretchAnnounce_sends hroot (by simpa [hlast] using hw) hlen heff fun _ => by simpa [hlast] using hle
  · intro s eff last hroot hlast hlen hw
    simp [exec, execStretchAnnounce, hroot, hlast, hlen, hw, State.modFret]
  · intro s v eff hlt
    simp only [exec, execStretchAnnounceReceive]
    rw [forwardAnnounce_eq, if_pos (by exact hlt)]
    exact ⟨_, rfl, only_modFret (modOut_only ..).in (by decide), rfl, rfl⟩
  · intro s v eff hst hle
    simp only [exec, execStretchAnnounceReceive]
    rw [forwardAnnounce_eq, if_neg (by exact Nat.not_lt.mpr hle), decide_eq_true (by exact hst), State.when_true]
    refine ⟨_, rfl, ?_, ?_, ?_, ?_, ?_, ?_⟩
    · exact only_modFret (only_loseAlign (only_fretFlag (modOut_only ..).in (by decide)) (by decide)) (by decide)
    all_goals try rw [State.modFret_fret, loseAlign_fret, State.toTrack, State.modFret_fret, fretFlag_fret]; rfl
    · refine AllAborted_congr (t := ((s.modOut _).fretFlag .stretchLate).loseAlign) rfl ?_
      exact AllAborted_of (fretFlag_tasks (s.modOut _) _) (loseAlign_allAborted _)
  · intro s v eff hm hh hle
    simp only [exec, execStretchAnnounceReceive]
    rw [forwardAnnounce_eq, if_neg (by exact Nat.not_lt.mpr hle), decide_eq_false (by exact not_or.mpr ⟨hm, hh⟩), State.when_false]
    refine ⟨_, rfl, only_modFret (only_fretFlag (modOut_only ..).in (by decide)) (by decide), ?_, ?_, ?_⟩ <;>
      rw [State.modFret_fret, fretFlag_fret] <;> rfl
  · intro s mhz fc
    simp only [exec, execStretchAnnounceReceive]
    rw [forwardAnnounce_eq]
    refine ⟨_, rfl, ?_, rfl, rfl⟩
    exact only_modClk (only_modFret (modOut_only s _).in (by decide)) (by decide)
  · intro s v eff rest hp hle
    simp only [exec, execStretchApply, hp]
    rw [if_neg (by unfold State.now; omega)]
    have hreport (u : State) (o n : BitVec 6) : u.Only (u.stretchReport eff o n) [.tel] := stretchReport_only ..
    refine ⟨_, rfl, only_stretchReport (only_modTel (modFret_only ..).in (by decide)) (by decide), ?_, ?_, ?_, ?_, ?_⟩
    · rw [(hreport ..).fret]
      rfl
    · rw [(hreport ..).fret]
      rfl
    · rw [(hreport ..).fret]
      rfl
    · rw [(hreport ..).fret]
      rfl
    · rw [stretchReport_strh]
      rfl
  · intro s v eff rest hp hlt
    simp only [exec, execStretchApply, hp]
    exact if_pos hlt
  · intro s src m x hx hbusy hle
    have hlate : decide (m.fret < s.now) = false := decide_eq_false (by unfold State.now; omega)
    refine ⟨_, (execAbortMessageReceive_busy hx hbusy).trans (by rw [hlate, State.when_false]), ?_, ?_⟩
    · exact only_updTask (modOut_only ..).in (by decide)
    · have hget : s.task m.task = x := Tab.get_of_find _ hx
      simp only [updTask_task, ↓reduceIte]
      refine ⟨trivial, ?_, ?_, fun n hn => if_neg hn, rfl⟩
      · rw [abort_concat _ _ _ rfl]
        exact congrArg (fun y : TaskRt => some (AbortSt.merge y.abort _)) hget
      · exact congrArg TaskRt.phase hget
  · intro s src m x hx hbusy hlt
    have hlate : decide (m.fret < s.now) = true := decide_eq_true hlt
    refine ⟨_, (execAbortMessageReceive_busy hx hbusy).trans (by rw [hlate, State.when_true]), ?_, ?_⟩
    · exact only_updTask (only_fretFlag (modOut_only ..).in (by decide)) (by decide)
    · simp only [updTask_task, ↓reduceIte]
      have hget (u : State) (hu : u.tasks = s.tasks) : (u.fretFlag .abortLate).task m.task = x :=
        (task_congr ((fretFlag_tasks ..).trans hu) _).trans (Tab.get_of_find _ hx)
      refine ⟨?_, trivial, ?_⟩
      · rw [(updTask_only ..).fret, fretFlag_fret]
        rfl
      · rw [abort_concat _ _ _ rfl]
        exact congrArg (fun y : TaskRt => some (AbortSt.merge y.abort _)) (hget _ rfl)
  · intro s src m hx hlisted hle
    have hlate : decide (m.fret < s.fret.west.toNat) = false := decide_eq_false (by omega)
    simp only [exec, execAbortMessageReceive, State.each_emit, State.now]
    rw [hlate, State.when_false]
    simp only [hx]
    refine ⟨_, rfl, only_keepEarly (modOut_only s _).in (by decide), ?_⟩
    unfold State.keepEarly State.when
    rw [if_pos (by exact hlisted)]
    dsimp only
    rw [State.modFret_fret, Tab.get_upd, if_pos rfl]

end Sys2Proof.Machine
end

section
/-!
PROOFS. The owner token and the PCIe ports (09 R475 to R506): O4 and O5.
-/

set_option Elab.async false

namespace Sys2Proof.Machine

variable {s : State}

/-! ### Register accesses by a port -/

/-- A port's own registers and the MC's writes need no token. -/
theorem freeWrite_denied {p : HostPort} {b : Block} {o : Nat} {v : Word} (h : s.freeWrite p b o v = true) :
    s.writeDenied { acc := p.accessor } b o v = false := by
  cases p <;> simp [State.writeDenied, HostPort.accessor, h]

/-- A port without the token is denied what is not free. -/
theorem writeDenied_of_noToken {p : HostPort} {b : Block} {o : Nat} {v : Word} (ht : s.holdsToken p = false)
    (h : s.freeWrite p b o v = false) : s.writeDenied { acc := p.accessor } b o v = true := by
  cases p <;> simp [State.writeDenied, HostPort.accessor, h, ht]

/-- A write that is aligned, finds a register that answers and is denied is counted. -/
theorem accWrite_denied {acc : Accessor} {off o : Nat} {b : Block} {v : Word} (h4 : off % 4 = 0)
    (hb : blockOf off = some (b, o)) (hh : blockHas b o = true) (ha : s.regAnswers b o = true)
    (hd : s.writeDenied { acc := acc } b o v = true) : s.accWrite acc off v = s.denyWrite := by
  unfold State.accWrite State.bar0Write
  rw [if_neg (by simpa using h4), hb]
  simp [hh, ha, hd]

/-! ### The owner token -/

/-- TOP_OWNER written by a port is the operation in its top bits. -/
theorem accWrite_owner (s : State) (p : HostPort) (v : Word) :
    s.accWrite p.accessor 0x10 v = s.ownerOp p (v.extractLsb' 30 2).toNat := by
  rw [accWrite_eq (b := .top) (o := 0x010) rfl rfl rfl rfl (freeWrite_denied rfl)]
  cases p <;> rfl

/-- The MC's write of TOP_OWNER has no effect. -/
theorem accWrite_owner_mc (s : State) (v : Word) : s.accWrite .mc 0x10 v = s :=
  accWrite_may (b := .top) (o := 0x010) rfl rfl rfl rfl rfl

theorem execOwnerClaim_port (s : State) (p : HostPort) : exec (.ownerClaim p.accessor) s = .next (s.ownerOp p 1) :=
  congrArg _ (accWrite_owner s p _)

theorem execOwnerRelease_port (s : State) (p : HostPort) : exec (.ownerRelease p.accessor) s = .next (s.ownerOp p 2) :=
  congrArg _ (accWrite_owner s p _)

theorem execOwnerGive_port (s : State) (p : HostPort) : exec (.ownerGive p.accessor) s = .next (s.ownerOp p 3) :=
  congrArg _ (accWrite_owner s p _)

/-- What raising a cause in one port's copy leaves of TOP: all but that port's causes and pin. -/
theorem attnOn_top (s : State) (p : HostPort) (a : Attn) :
    (s.attnOn p a).top.owner = s.top.owner ∧ (s.attnOn p a).top.denied = s.top.denied ∧ (s.attnOn p a).top.mask = s.top.mask ∧
      (s.attnOn p a).top.cause = s.top.cause.set p (putBit (s.top.cause.get p) a.bit true) := by
  unfold State.attnOn
  simp only [State.when]
  split
  · split <;> exact ⟨rfl, rfl, rfl, rfl⟩
  · exact ⟨rfl, rfl, rfl, rfl⟩

/-- A cause raised in both copies. -/
theorem attn_top (s : State) (a : Attn) :
    (s.attn a).top.owner = s.top.owner ∧ (s.attn a).top.denied = s.top.denied ∧ (s.attn a).top.mask = s.top.mask ∧
      (s.attn a).top.cause = ⟨putBit s.top.cause.a a.bit true, putBit s.top.cause.b a.bit true⟩ := by
  obtain ⟨ao, ad, am, ac⟩ := attnOn_top s .a a
  obtain ⟨bo, bd, bm, bc⟩ := attnOn_top (s.attnOn .a a) .b a
  exact ⟨bo.trans ao, bd.trans ad, bm.trans am, by unfold State.attn; rw [bc, ac]; rfl⟩

theorem Attn.bit_lt (a : Attn) : a.bit < 14 := by cases a <;> decide

/-- The cause raised stands in both copies. -/
theorem attn_cause (s : State) (a : Attn) : bit (s.attn a).top.cause.a a.bit = true ∧ bit (s.attn a).top.cause.b a.bit = true := by
  rw [(attn_top s a).2.2.2]
  simp only [bit_putBit, a.bit_lt, and_self, if_true]

/-- A new holder of the token: the cause owner stands in both copies. -/
theorem setOwner_changes {o : Owner} (h : s.top.owner ≠ o) :
    s.Only (s.setOwner o) [.top, .out] ∧ (s.setOwner o).top.owner = o ∧ bit (s.setOwner o).top.cause.a 10 = true ∧
      bit (s.setOwner o).top.cause.b 10 = true ∧ (s.setOwner o).top.denied = s.top.denied := by
  refine ⟨setOwner_only s o, ?_⟩
  unfold State.setOwner
  rw [if_neg h]
  obtain ⟨ho, hd, -, -⟩ := attn_top (s.modTop fun t => { t with owner := o }) .owner
  obtain ⟨ha, hb⟩ := attn_cause (s.modTop fun t => { t with owner := o }) .owner
  exact ⟨ho, ha, hb, hd⟩

theorem port_owner_ne_none (p : HostPort) : p.owner ≠ .none := by cases p <;> decide

theorem other_owner_ne (p : HostPort) : p.other.owner ≠ p.owner := by cases p <;> decide

/-- Settles O4: each row of R501's table is one branch of the operation in TOP_OWNER. -/
theorem ownerTokenMoves : Obligations.OwnerTokenMoves := by
  unfold Obligations.OwnerTokenMoves
  refine ⟨fun s p h => ?_, fun s p h => ?_, fun s p h => ?_, fun s p h => ?_, fun s p h => ?_, fun s p h => ?_, fun s p h => ?_,
    fun s => ?_⟩
  · refine ⟨_, (execOwnerClaim_port s p).trans (congrArg _ ?_), setOwner_changes (o := p.owner) ?_⟩
    · simp [State.ownerOp, h]
    · rw [h]; exact (port_owner_ne_none p).symm
  · rw [execOwnerClaim_port]
    simp [State.ownerOp, h, port_owner_ne_none p]
  · rw [execOwnerClaim_port, execOwnerGive_port]
    simp [State.ownerOp, h, port_owner_ne_none p.other, other_owner_ne p, State.denyWrite, State.modTop]
  · refine ⟨_, (execOwnerRelease_port s p).trans (congrArg _ ?_), setOwner_changes (o := .none) ?_⟩
    · simp [State.ownerOp, h]
    · rw [h]; exact port_owner_ne_none p
  · rw [execOwnerRelease_port]
    simp [State.ownerOp, h]
  · refine ⟨_, (execOwnerGive_port s p).trans (congrArg _ ?_), setOwner_changes (o := p.other.owner) ?_⟩
    · simp [State.ownerOp, h]
    · rw [h]; exact (other_owner_ne p).symm
  · rw [execOwnerGive_port]
    simp [State.ownerOp, h, (port_owner_ne_none p).symm]
  · exact ⟨⟨_, rfl, by rw [accWrite_owner_mc], by rw [accWrite_owner_mc]⟩,
      ⟨_, rfl, by rw [accWrite_owner_mc], by rw [accWrite_owner_mc]⟩,
      ⟨_, rfl, by rw [accWrite_owner_mc], by rw [accWrite_owner_mc]⟩⟩

/-! ### The ports -/

theorem PerPort.get_set {α : Type} (x : PerPort α) (p q : HostPort) (v : α) :
    (x.set p v).get q = if q = p then v else x.get q := by
  cases p <;> cases q <;> rfl

theorem other_port_ne (p : HostPort) : p.other ≠ p := by cases p <;> decide

@[simp] theorem PerPort.get_set_self {α : Type} (x : PerPort α) (p : HostPort) (v : α) : (x.set p v).get p = v := by
  rw [PerPort.get_set, if_pos rfl]

@[simp] theorem PerPort.get_set_other {α : Type} (x : PerPort α) (p : HostPort) (v : α) : (x.set p v).get p.other = x.get p.other := by
  rw [PerPort.get_set, if_neg (other_port_ne p)]

theorem PerPort.set_get {α : Type} (x : PerPort α) (p : HostPort) : x.set p (x.get p) = x := by
  cases p <;> rfl

/-- What a reset of a port leaves of the port blocks, the masks, the causes and the token. -/
theorem portReset_port (s : State) (p : HostPort) :
    (s.portReset p).pcie = s.pcie.set p { ({} : PcieSt) with perstN := (s.pcieOf p).perstN } ∧
    (s.portReset p).top.mask = s.top.mask.set p 0x3FFF ∧
    (s.top.owner ≠ p.owner → (s.portReset p).top.owner = s.top.owner ∧ (s.portReset p).top.cause = s.top.cause.set p 0) ∧
    (s.top.owner = p.owner → (s.portReset p).top.owner = .none) := by
  unfold State.portReset
  extract_lets _ u v w x
  have hw : v.Only w [.mch, .out] :=
    only_each (.refl _ _) fun _ _ h => only_closeByReset h (by decide)
  have hx : v.Only x [.mch, .out] :=
    only_each hw fun _ _ h => only_unbindQueue h (by decide)
  have hv : v.top.owner = s.top.owner := rfl
  have ho : x.top.owner = s.top.owner := by rw [hx.top, hv]
  by_cases h : s.top.owner = p.owner
  · have hn : x.top.owner ≠ .none := by rw [ho, h]; exact port_owner_ne_none p
    have hset : x.setOwner .none = (x.modTop fun t => { t with owner := .none }).attn .owner := by
      unfold State.setOwner; rw [if_neg hn]
    rw [show decide (x.top.owner = p.owner) = true by rw [ho]; simpa using h, State.when_true]
    refine ⟨?_, ?_, fun k => absurd h k, fun _ => (setOwner_changes hn).2.1⟩
    · rw [(setOwner_only x .none).pcie, hx.pcie]; rfl
    · rw [hset, (attn_top _ _).2.2.1]
      show x.top.mask = _
      rw [hx.top]; rfl
  · rw [show decide (x.top.owner = p.owner) = false by rw [ho]; simpa using h, State.when_false]
    exact ⟨by rw [hx.pcie]; rfl, by rw [hx.top]; rfl, fun _ => ⟨ho, by rw [hx.top]; rfl⟩, fun k => absurd k h⟩

theorem blockOf_nqHead (p : HostPort) : blockOf (pcieBase p + 0x014) = some (.pcie p, 0x014) := by cases p <;> rfl

theorem blockOf_rxConsume (p : HostPort) : blockOf (pcieBase p + 0x020) = some (.pcie p, 0x020) := by cases p <;> rfl

theorem pcieBase_aligned (p : HostPort) (o : Nat) (h : o % 4 = 0) : (pcieBase p + o) % 4 = 0 := by
  cases p <;> simp only [pcieBase] <;> omega

/-- A port's own block is written by the port, the MC and the holder of the token. -/
theorem pcie_notDenied {acc : Accessor} {p : HostPort} (h : acc = p.accessor ∨ s.mayWrite acc = true) (o : Nat) (v : Word) :
    s.writeDenied { acc := acc } (.pcie p) o v = false := by
  rcases h with rfl | h
  · exact freeWrite_denied (by simp [State.freeWrite])
  · exact writeDenied_of_mayWrite h ..

theorem execNqHeadWrite_eq {acc : Accessor} {p : HostPort} (h : acc = p.accessor ∨ s.mayWrite acc = true) (v : Word) :
    exec (.nqHeadWrite acc p v) s = .next (s.writeNqHead p v) :=
  congrArg _ (accWrite_eq (pcieBase_aligned p _ rfl) (blockOf_nqHead p) rfl rfl (pcie_notDenied h _ _))

theorem execRxConsume_eq {acc : Accessor} {p : HostPort} (h : acc = p.accessor ∨ s.mayWrite acc = true) (v : Word) :
    exec (.rxConsume acc p v) s = .next (s.writeRxConsume p v) :=
  congrArg _ (accWrite_eq (pcieBase_aligned p _ rfl) (blockOf_rxConsume p) rfl rfl (pcie_notDenied h _ _))

/-- The other port's block is not free. -/
theorem pcie_denied {p : HostPort} (h : s.holdsToken p.other = false) (o : Nat) (v : Word) :
    s.writeDenied { acc := p.other.accessor } (.pcie p) o v = true :=
  writeDenied_of_noToken h (by simp [State.freeWrite, (other_port_ne p)])

theorem updQueue_queue (s : State) (n m : Nat) (f : QueueSt → QueueSt) :
    (s.updQueue n f).queue m = if m = n then f (s.queue n) else s.queue m := by
  unfold State.updQueue State.queue
  simp only [State.modMch, Tab.get_upd]

@[simp] theorem updQueue_queue_self (s : State) (n : Nat) (f : QueueSt → QueueSt) : (s.updQueue n f).queue n = f (s.queue n) := by
  rw [updQueue_queue, if_pos rfl]

theorem QueueSt.rehead_recs (q : QueueSt) : q.rehead.recs = q.recs := by
  unfold QueueSt.rehead
  split <;> simp_all

/-- Credit for a record leaves every ring's records. -/
theorem creditRec_recs (s : State) (n m : Nat) (r : RecSt) : ((s.creditRec n r).queue m).recs = (s.queue m).recs := by
  unfold State.creditRec
  dsimp only
  split
  · rfl
  · rw [updQueue_queue]
    split
    · next h => rw [h]
    · rfl

theorem armRx_recs (s : State) (p : HostPort) (n : Nat) : ((s.armRx p n).queue n).recs = (s.queue n).recs := by
  unfold State.armRx
  dsimp only
  split <;> exact (congrArg QueueSt.recs (updQueue_queue_self _ n _)).trans rfl

/-- A consumption at a record boundary takes the records before it. -/
theorem writeRxConsume_takes {p : HostPort} {v : Word} {n k : Nat} (hn : (v.extractLsb' 18 12 : BitVec 12).toNat = n)
    (hs : (s.queue n).state ≠ .unbound) (hk : rxPort (s.queue n).kind = some p)
    (hb : boundary (v.extractLsb' 0 18 : BitVec 18).toNat (bit v 30) (s.queue n) (s.queue n).recs = some k) :
    s.Only (s.writeRxConsume p v) [.mch, .out] ∧ (bit v 31 = false → (s.writeRxConsume p v).out = s.out) ∧
      ((s.writeRxConsume p v).queue n).recs = (s.queue n).recs.drop k := by
  simp only [State.writeRxConsume, hn, hs, hk, hb, ne_eq, not_false_eq_true, and_self, if_true]
  have hcredit : ∀ rs : List RecSt, s.Only (s.each rs fun s r => s.creditRec n r) [.mch] := fun rs =>
    only_each (.refl _ _) fun _ _ h => only_creditRec h (by decide)
  have hrecs : ∀ rs : List RecSt, ((s.each rs fun s r => s.creditRec n r).queue n).recs = (s.queue n).recs := fun rs =>
    State.each_read (fun s => (s.queue n).recs) (fun u r => creditRec_recs u n n r) rs s
  refine ⟨only_when (only_updQueue ((hcredit _).in) (by decide)) (only_armRx (only_updQueue ((hcredit _).in) (by decide)) (by decide)),
    fun hv => ?_, ?_⟩
  · rw [hv, State.when_false]
    exact (hcredit _).out
  · rw [State.when_read (fun s => (s.queue n).recs), armRx_recs, ite_self, updQueue_queue_self, QueueSt.rehead_recs]
    simp only [hrecs]

/-- A consumption at any other position is an error. -/
theorem writeRxConsume_error {p : HostPort} {v : Word} {n : Nat} (hn : (v.extractLsb' 18 12 : BitVec 12).toNat = n)
    (h : (s.queue n).state = .unbound ∨ rxPort (s.queue n).kind ≠ some p ∨
      boundary (v.extractLsb' 0 18 : BitVec 18).toNat (bit v 30) (s.queue n) (s.queue n).recs = none) :
    s.writeRxConsume p v = s.updPcie p fun r => { r with consumeErr := true } := by
  unfold State.writeRxConsume
  have hnone : (if (s.queue n).state ≠ .unbound ∧ rxPort (s.queue n).kind = some p then
      boundary (v.extractLsb' 0 18 : BitVec 18).toNat (bit v 30) (s.queue n) (s.queue n).recs else none) = none := by
    split
    · next k => exact (h.resolve_left k.1).resolve_left (not_not_intro k.2)
    · rfl
  simp only [hn, hnone]

/-- Settles O5: the port's own commands write its block; the registers of a port are free for it and for who may write. -/
theorem hostPortEvents : Obligations.HostPortEvents := by
  unfold Obligations.HostPortEvents
  refine ⟨fun s p how => ?_, fun s p => rfl, fun s p w v f m h => if_pos h, fun s p w v f m h => if_neg (by simp [h]),
    fun s p n h1 h2 => ?_, fun s p n h => ?_, fun s p m h => ?_, fun s p m h => ?_, fun s acc p v h => ?_,
    fun s acc p v k h hs hk hb => ?_, fun s acc p v h hb => ?_, fun s p v h => ?_, fun s p h1 h2 => if_pos ⟨h1, h2⟩,
    fun s p h => if_neg (by rcases h with h | h <;> simp [h])⟩
  · have hperst : ∀ u : State, s.Only u [.pcie] → u.pcieOf p.other = s.pcieOf p.other →
        (u.pcieOf p).perstN = (if how = .perst then false else (s.pcieOf p).perstN) →
        s.Only (u.portReset p) [.top, .mch, .pcie, .out] ∧
        (u.portReset p).pcieOf p = { ({} : PcieSt) with perstN := if how = .perst then false else (s.pcieOf p).perstN } ∧
        (u.portReset p).pcieOf p.other = s.pcieOf p.other ∧ (u.portReset p).top.mask.get p.other = s.top.mask.get p.other ∧
        (s.top.owner ≠ p.owner → (u.portReset p).top.owner = s.top.owner ∧ (u.portReset p).top.cause.get p = 0 ∧
          (u.portReset p).top.mask.get p = 0x3FFF) ∧
        (s.top.owner = p.owner → (u.portReset p).top.owner = .none) := by
      intro u hu ho hp
      obtain ⟨hpcie, hmask, hother, hmine⟩ := portReset_port u p
      rw [hp] at hpcie
      rw [hu.top] at hmask hother hmine
      refine ⟨only_portReset (hu.in) (by decide), ?_, ?_, ?_, fun k => ?_, hmine⟩
      · exact (congrArg (PerPort.get · p) hpcie).trans (PerPort.get_set_self ..)
      · rw [← ho]; unfold State.pcieOf; rw [hpcie, PerPort.get_set_other]
      · rw [hmask, PerPort.get_set_other]
      · obtain ⟨h1, h2⟩ := hother k
        exact ⟨h1, by rw [h2, PerPort.get_set_self], by rw [hmask, PerPort.get_set_self]⟩
    by_cases hh : how = .perst
    · refine ⟨_, congrArg (fun u : State => Host.Outcome.next (u.portReset p)) (if_pos hh), hperst _ (updPcie_only ..) ?_ ?_⟩
      · exact PerPort.get_set_other ..
      · rw [if_pos hh]; unfold State.pcieOf State.updPcie; rw [State.modPcie_pcie, PerPort.get_set_self]
    · exact ⟨_, congrArg (fun u : State => Host.Outcome.next (u.portReset p)) (if_neg hh), hperst _ (.refl _ _) rfl (if_neg hh).symm⟩
  · simp [exec, execPcieConfigWrite, h1, h2, State.updPcie, State.modPcie]
  · refine ⟨_, rfl, updPcie_only .., ?_⟩
    unfold State.updPcie State.pcieOf
    rw [State.modPcie_pcie, PerPort.get_set_self]
    dsimp only
    rw [if_neg (by omega)]
  · simp [exec, execPcieConfigWrite, h, State.updPcie, State.modPcie]
  · refine ⟨_, rfl, updPcie_only .., ?_⟩
    unfold State.updPcie State.pcieOf
    rw [State.modPcie_pcie, PerPort.get_set_self]
    dsimp only
    rw [if_neg (by omega)]
  · refine ⟨_, execNqHeadWrite_eq h v, updPcie_only .., PerPort.get_set_other .., PerPort.get_set_self ..⟩
  · exact ⟨_, execRxConsume_eq h v, writeRxConsume_takes rfl hs hk hb⟩
  · rw [execRxConsume_eq h, writeRxConsume_error rfl hb]
    rfl
  · exact ⟨congrArg _ (accWrite_denied (pcieBase_aligned p _ rfl) (blockOf_nqHead p) rfl rfl (pcie_denied h _ _)),
      congrArg _ (accWrite_denied (pcieBase_aligned p _ rfl) (blockOf_rxConsume p) rfl rfl (pcie_denied h _ _))⟩

end Sys2Proof.Machine
end

section
/-!
PROOFS. Accesses to BAR0, the clock registers, and what an abort cause sets (00 R8 to R15; 04 R194 to R233; 13 R640, R641): O7, O14
and O15.
-/

set_option Elab.async false

namespace Sys2Proof.Machine

variable {s : State}

/-! ### Abort causes -/

/-- Settles O7: a cause found adds one abort to its task, and R220 chooses among them. -/
theorem causeSetsAbortFret : Obligations.CauseSetsAbortFret := by
  unfold Obligations.CauseSetsAbortFret
  refine ⟨fun s n st x h hc hs => ?_, fun s n st x h hx => ?_⟩
  · obtain rfl := Tab.get_of_find ({} : TaskRt) h
    have hself : (s.detect n st).task n = _ := detect_task s n n st
    rw [if_pos ⟨rfl, by rw [h]; rfl, hc, hs⟩] at hself
    refine ⟨(detect_only s n st).in, ?_, ?_, ?_, ?_, fun m hm => ?_⟩
    · rw [abort_concat (s.task n) _ _ (congrArg TaskRt.aborts hself)]
      rfl
    · rw [hself]; rfl
    · rw [hself]; rfl
    · rw [hself]; rfl
    · rw [detect_task, if_neg fun k => hm k.1]
  · unfold State.detect
    simp only [h, hx, if_true]

/-! ### Fields of a written word -/

/-- A field put into a word: its bits are the operation's, the others the word's. -/
theorem getLsbD_setField (v : Word) {lo w op i : Nat} (hop : op < 2 ^ w) (hi : i < 32) :
    (setField v lo w op).getLsbD i = if lo ≤ i ∧ i < lo + w then op.testBit (i - lo) else v.getLsbD i := by
  have hlow : v.toNat % 2 ^ lo < 2 ^ lo := Nat.mod_lt _ (by positivity)
  have hval : v.toNat - v.toNat / 2 ^ lo % 2 ^ w * 2 ^ lo + op * 2 ^ lo =
      2 ^ lo * (2 ^ w * (v.toNat / 2 ^ lo / 2 ^ w) + op) + v.toNat % 2 ^ lo := by
    have h1 := Nat.div_add_mod v.toNat (2 ^ lo)
    have h2 := congrArg (2 ^ lo * ·) (Nat.div_add_mod (v.toNat / 2 ^ lo) (2 ^ w))
    simp only [Nat.mul_add] at h2 ⊢
    rw [Nat.mul_comm (_ % 2 ^ w), Nat.mul_comm op]
    omega
  unfold setField
  rw [hval, BitVec.getLsbD_ofNat, Nat.testBit_two_pow_mul_add _ hlow, Nat.testBit_two_pow_mul_add _ hop, BitVec.getLsbD,
    Nat.testBit_mod_two_pow, Nat.testBit_div_two_pow, Nat.testBit_div_two_pow, decide_eq_true hi, Bool.true_and]
  by_cases h1 : i < lo
  · rw [if_pos h1, if_neg (by omega), decide_eq_true h1, Bool.true_and]
  · rw [if_neg h1]
    by_cases h2 : i - lo < w
    · rw [if_pos h2, if_pos (by omega)]
    · rw [if_neg h2, if_neg (by omega)]
      congr 1
      omega

/-- A bit outside the field is the word's. -/
theorem bit_setField (v : Word) {lo w op i : Nat} (hop : op < 2 ^ w) (hi : i < 32) (h : i < lo ∨ lo + w ≤ i) :
    bit (setField v lo w op) i = bit v i := by
  unfold bit
  rw [getLsbD_setField v hop hi, if_neg (by omega)]

/-- Another field is the word's. -/
theorem extract_setField (v : Word) {lo w op i n : Nat} (hop : op < 2 ^ w) (hi : i + n ≤ 32)
    (h : i + n ≤ lo ∨ lo + w ≤ i) : (setField v lo w op).extractLsb' i n = v.extractLsb' i n := by
  refine BitVec.eq_of_getLsbD_eq fun j hj => ?_
  rw [BitVec.getLsbD_extractLsb', BitVec.getLsbD_extractLsb', getLsbD_setField v hop (by omega), if_neg (by omega)]

/-- The field itself is the operation. -/
theorem extract_setField_self (v : Word) {lo w op : Nat} (hw : lo + w ≤ 32) (hop : op < 2 ^ w) :
    ((setField v lo w op).extractLsb' lo w).toNat = op := by
  have h : (setField v lo w op).extractLsb' lo w = BitVec.ofNat w op := by
    refine BitVec.eq_of_getLsbD_eq fun j hj => ?_
    rw [BitVec.getLsbD_extractLsb', getLsbD_setField v hop (by omega), if_pos (by omega), BitVec.getLsbD_ofNat]
    simp [hj]
  rw [h, BitVec.toNat_ofNat, Nat.mod_eq_of_lt hop]

/-! ### FRET_DOMAIN and FRET_FLIGHTn -/

theorem regAnswers_fret (h : s.passed 2 = true) (o : Nat) : s.regAnswers .fret o = true := by
  simp [State.regAnswers, State.answers, h]

theorem execFretDomainWrite_eq {acc : Accessor} (hm : s.mayWrite acc = true) (hp : s.passed 2 = true) (v : Word) :
    exec (.fretDomainWrite acc v) s = .next (s.writeFretDomain v) :=
  congrArg _ (accWrite_may (b := .fret) (o := 0x00C) rfl rfl rfl (regAnswers_fret hp _) hm)

/-- The fields of FRET_DOMAIN as a write sets them. -/
def FretSt.domainFields (r : FretSt) (v : Word) : FretSt :=
  { r with
    root := bit v 31, parent := v.extractLsb' 24 5, domain := v.extractLsb' 16 8, chip := v.extractLsb' 0 10
    sinceBeacon := if v.extractLsb' 24 5 = r.parent then r.sinceBeacon else 0 }

/-- A write that changes no domain, or comes while UNLOCKED, sets the fields; root in FREE makes the chip MEMBER. -/
theorem writeFretDomain_sameDomain {v : Word} (h : v.extractLsb' 16 8 = s.fret.domain ∨ s.fret.state = .unlocked) :
    s.writeFretDomain v = (s.modFret (·.domainFields v)).when (bit v 31 && decide (s.fret.state = .free)) (·.toMember) := by
  have hd : (decide ((v.extractLsb' 16 8 : BitVec 8) ≠ s.fret.domain) && decide (s.fret.state ≠ .unlocked)) = false := by
    rcases h with h | h <;> simp [h]
  unfold State.writeFretDomain
  simp only [hd, State.when_false]
  rfl

/-- The state with a new domain number: in FREE, its tasks still running. -/
def State.newDomain (s : State) (v : Word) : State :=
  s.modFret fun r => { r.domainFields v with state := .free, good := 0, fromChange := false, frozen := false }

/-- A new domain number sets the fields, moves the chip to FREE and aborts its tasks. -/
theorem writeFretDomain_newDomain {v : Word} (h : v.extractLsb' 16 8 ≠ s.fret.domain) (hu : s.fret.state ≠ .unlocked) :
    s.writeFretDomain v = ((s.newDomain v).abortRunning .slip).when (bit v 31) (·.toMember) := by
  have hd : (decide ((v.extractLsb' 16 8 : BitVec 8) ≠ s.fret.domain) && decide (s.fret.state ≠ .unlocked)) = true := by
    simp [h, hu]
  unfold State.writeFretDomain
  simp only [hd, State.when_true, abortRunning_fret, State.modFret_fret, decide_true, Bool.and_true]
  rfl

/-- Every listed value of a table with one key changed is a value listed before or the changed one. -/
theorem Tab.mem_put {α : Type} {t : Tab α} {k : Nat} {v : α} {e : Nat × α} (h : e ∈ Tab.put t k v) : e ∈ t ∨ e = (k, v) := by
  induction t with
  | nil => simpa [Tab.put] using h
  | cons x t ih =>
    unfold Tab.put at h
    split at h
    · simpa [or_comm, or_assoc] using h
    split at h
    · rcases List.mem_cons.mp h with h | h
      · exact .inr h
      · exact .inl (List.mem_cons_of_mem _ h)
    · rcases List.mem_cons.mp h with h | h
      · exact .inl (h ▸ List.mem_cons_self)
      · exact (ih h).imp (List.mem_cons_of_mem _) id

/-- The changed value is listed. -/
theorem Tab.put_mem {α : Type} (t : Tab α) (k : Nat) (v : α) : (k, v) ∈ Tab.put t k v := by
  induction t with
  | nil => exact List.mem_cons_self
  | cons x t ih =>
    unfold Tab.put
    split
    · exact List.mem_cons_self
    split
    · exact List.mem_cons_self
    · exact List.mem_cons_of_mem _ ih

/-- A value that has a property keeps one listed that has it where the change keeps the property. -/
theorem Tab.any_upd {α : Type} (d : α) (t : Tab α) (k : Nat) (f : α → α) (P : α → Bool) (hf : ∀ x, P (f x) = P x) (hd : P d = false) :
    (Tab.upd d t k f).any (fun e => P e.2) = t.any (fun e => P e.2) := by
  have hget : ∀ t : Tab α, P (Tab.get d t k) = true → t.any (fun e => P e.2) = true := by
    intro t h
    induction t with
    | nil => rw [Tab.get, hd] at h; exact absurd h (by decide)
    | cons x t ih =>
      rw [Tab.get] at h
      rw [List.any_cons]
      split at h
      · rw [h]; rfl
      · rw [ih h, Bool.or_true]
  unfold Tab.upd
  have hput : ∀ t : Tab α, ∀ v, P v = P (Tab.get d t k) → (Tab.put t k v).any (fun e => P e.2) = t.any (fun e => P e.2) := by
    intro t
    induction t with
    | nil => intro v hv; simp [Tab.put, hv, Tab.get, hd]
    | cons x t ih =>
      intro v hv
      have hx := hget (x :: t)
      rw [Tab.get] at hv hx
      unfold Tab.put
      split
      · rw [List.any_cons]
        cases hP : P v with
        | false => rfl
        | true => rw [hx (hv.symm.trans hP)]; rfl
      split
      · next h => rw [if_pos h] at hv; rw [List.any_cons, List.any_cons, hv]
      · next h => rw [if_neg h] at hv; rw [List.any_cons, List.any_cons, ih v hv]
  exact hput t _ (hf _)

theorem execFlightRemeasure_eq {acc : Accessor} (hm : s.mayWrite acc = true) (hp : s.passed 2 = true) (p : FabPort) :
    exec (.flightRemeasure acc p) s = .next ((s.updFlight p fun g => { g with remeasure := true }).measureFlights) := by
  have hport : ∀ p : Fin 17, (0x50100 + 4 * p.val) % 4 = 0 ∧ blockOf (0x50100 + 4 * p.val) = some (.fret, 0x100 + 4 * p.val) ∧
      blockHas .fret (0x100 + 4 * p.val) = true := by decide
  obtain ⟨h4, hb, hh⟩ := hport p
  refine congrArg _ ((accWrite_may h4 hb hh (regAnswers_fret hp _) hm).trans ?_)
  fin_cases p <;> rfl

/-- A port's measurement runs, in the state. -/
def State.measures (s : State) (p : Nat) : Bool := (s.flightReg p).measuring

theorem updFlight_measures (s : State) (p q : Nat) (f : FlightReg → FlightReg) (hf : ∀ g, (f g).measuring = true) :
    (s.updFlight p f).measures q = (decide (q = p) || s.measures q) := by
  unfold State.measures
  rw [updFlight_flightReg]
  split
  · next h => simp [h, hf]
  · next h => simp [h]

/-- The measurement of every link that is up starts, 256 exchanges on each. -/
theorem startMeasure_starts (s : State) :
    s.Only s.startMeasure [.fret, .out] ∧
    s.startMeasure.out = (((List.finRange 17).filter fun q => decide ((s.fab q.val).state = .up)).reverse.map fun q =>
        Out.exchange q 256) ++ s.out ∧
    ∀ q : FabPort, (s.fab q.val).state = .up → (s.startMeasure.flightReg q).measuring = true := by
  refine ⟨startMeasure_only s, ?_, fun q hq => ?_⟩
  · have hout : ∀ (ps : List (Fin 17)) (u : State),
        (u.each ps fun s p => (s.updFlight p.val fun g => { g with measuring := true }).emit (.exchange p 256)).out =
          (ps.reverse.map fun q => Out.exchange q 256) ++ u.out := by
      intro ps
      induction ps with
      | nil => exact fun _ => rfl
      | cons p ps ih => intro u; rw [State.each_cons, ih]; simp [State.emit, State.updFlight]
    refine (hout _ _).trans (congrArg _ ?_)
    exact (State.when_read State.out ..).trans (ite_self _)
  · have hall : ∀ (ps : List (Fin 17)) (u : State),
        (u.each ps fun s p => (s.updFlight p.val fun g => { g with measuring := true }).emit (.exchange p 256)).measures q =
          (decide (q ∈ ps) || u.measures q) := by
      intro ps
      induction ps with
      | nil => exact fun _ => by simp
      | cons p ps ih =>
        intro u
        rw [State.each_cons, ih]
        refine (congrArg (_ || ·) (updFlight_measures u p q _ fun _ => rfl)).trans ?_
        rw [← Bool.or_assoc, ← Bool.decide_or]
        simp only [List.mem_cons, or_comm, Fin.val_inj]
    refine (hall _ _).trans ?_
    rw [decide_eq_true (List.mem_filter.mpr ⟨List.mem_finRange q, by simpa using hq⟩)]
    rfl

/-! ### CLK_CHANGE and CLK_HALF -/

theorem regAnswers_clk (h : s.passed 0 = true) (o : Nat) : s.regAnswers .clk o = true := by
  simp [State.regAnswers, State.answers, h]

theorem accWrite_clkChange {acc : Accessor} (hm : s.mayWrite acc = true) (hp : s.passed 0 = true) (v : Word) :
    s.accWrite acc 0x30004 v = s.writeClkChange v :=
  accWrite_may (b := .clk) (o := 0x004) rfl rfl rfl (regAnswers_clk hp _) hm

theorem accWrite_clkHalf {acc : Accessor} (hm : s.mayWrite acc = true) (hp : s.passed 0 = true) (v : Word) :
    s.accWrite acc 0x30010 v = s.writeClkHalf v :=
  accWrite_may (b := .clk) (o := 0x010) rfl rfl rfl (regAnswers_clk hp _) hm

theorem execClkChangeGo_eq {acc : Accessor} (hm : s.mayWrite acc = true) (hp : s.passed 0 = true) (v : Word) :
    exec (.clkChangeGo acc v) s = .next (s.writeClkChange (setField v 31 1 1)) :=
  congrArg _ (accWrite_clkChange hm hp _)

theorem execClkHalfSet_eq {acc : Accessor} (hm : s.mayWrite acc = true) (hp : s.passed 0 = true) (v : Word) :
    exec (.clkHalfSet acc v) s = .next (s.writeClkHalf (setField v 30 2 1)) :=
  congrArg _ (accWrite_clkHalf hm hp _)

theorem execClkHalfRestore_eq {acc : Accessor} (hm : s.mayWrite acc = true) (hp : s.passed 0 = true) (v : Word) :
    exec (.clkHalfRestore acc v) s = .next (s.writeClkHalf (setField v 30 2 2)) :=
  congrArg _ (accWrite_clkHalf hm hp _)

theorem bit_setField_go (v : Word) : bit (setField v 31 1 1) 31 = true := by
  unfold bit
  rw [getLsbD_setField v (by decide) (by decide)]
  rfl

/-- CLK_CHANGE.err as a write leaves it: cleared by its W1C bit. -/
def State.clearClkErr (s : State) (c : Bool) : State := s.modClk fun k => { k with err := k.err && !c }

def State.clearHalfErr (s : State) (c : Bool) : State := s.modClk fun k => { k with halfErr := k.halfErr && !c }

theorem when_clkErr (s : State) (c : Bool) : (s.when c fun s => s.modClk fun k => { k with err := false }) = s.clearClkErr c := by
  cases c <;> simp [State.clearClkErr, State.modClk]

theorem when_halfErr (s : State) (c : Bool) :
    (s.when c fun s => s.modClk fun k => { k with halfErr := false }) = s.clearHalfErr c := by
  cases c <;> simp [State.clearHalfErr, State.modClk]

/-- CLK_CHANGE written with go 1. -/
theorem writeClkChange_go (s : State) (v : Word) :
    s.writeClkChange (setField v 31 1 1) =
      if s.fret.root = false ∨ s.clockOk (v.extractLsb' 0 16 : BitVec 16).toNat = false ∨ s.clk.pending then
        s.modClk fun c => { c with err := true }
      else
        ({ s with
          clk := { s.clk with
            mhz := v.extractLsb' 0 16, pending := true, changeAt := s.fret.west + 8192, err := s.clk.err && !bit v 29 }
          fret := { s.fret with changeAt := some (s.fret.west + 8192), changeMhz := v.extractLsb' 0 16 } } : State).forwardAnnounce
            (.clock (v.extractLsb' 0 16) (s.fret.west + 8192)) := by
  unfold State.writeClkChange
  simp only [bit_setField_go, bit_setField v (lo := 31) (w := 1) (op := 1) (i := 29) (by decide) (by decide) (by decide),
    extract_setField v (lo := 31) (w := 1) (op := 1) (i := 0) (n := 16) (by decide) (by decide) (by decide), when_clkErr,
    Bool.not_true, Bool.false_eq_true, if_false]
  rfl

/-- CLK_HALF written with op set. -/
theorem writeClkHalf_set (s : State) (v : Word) :
    s.writeClkHalf (setField v 30 2 1) =
      if s.anyTask ∨ s.clockOk (v.extractLsb' 0 16 : BitVec 16).toNat = false ∨ s.fret.state = .unlocked ∨ s.fret.state = .change then
        s.modClk fun c => { c with halfErr := true }
      else ((s.clearHalfErr (bit v 28)).modClk fun c =>
        if bit v 29 then { c with east := v.extractLsb' 0 16 } else { c with west := v.extractLsb' 0 16 }).modFret fun r =>
          { r with splitClock := true, state := .split } := by
  unfold State.writeClkHalf
  simp only [extract_setField_self v (lo := 30) (w := 2) (op := 1) (by decide) (by decide),
    bit_setField v (lo := 30) (w := 2) (op := 1) (i := 28) (by decide) (by decide) (by decide),
    bit_setField v (lo := 30) (w := 2) (op := 1) (i := 29) (by decide) (by decide) (by decide),
    extract_setField v (lo := 30) (w := 2) (op := 1) (i := 0) (n := 16) (by decide) (by decide) (by decide), when_halfErr]
  rfl

/-- CLK_HALF written with op restore. -/
theorem writeClkHalf_restore (s : State) (v : Word) :
    s.writeClkHalf (setField v 30 2 2) =
      if s.fret.splitClock = false then s.modClk fun c => { c with halfErr := true }
      else
        let u := (s.clearHalfErr (bit v 28)).modClk fun c =>
          if bit v 29 then { c with east := c.domainMhz } else { c with west := c.domainMhz }
        u.modFret fun r => { r with splitClock := decide (u.clk.west ≠ u.clk.east) } := by
  unfold State.writeClkHalf
  simp only [extract_setField_self v (lo := 30) (w := 2) (op := 2) (by decide) (by decide),
    bit_setField v (lo := 30) (w := 2) (op := 2) (i := 28) (by decide) (by decide) (by decide),
    bit_setField v (lo := 30) (w := 2) (op := 2) (i := 29) (by decide) (by decide) (by decide), when_halfErr]
  rfl

/-- Settles O14: each register's write by a writer that may write it. -/
theorem clockRegistersTakeWrites : Obligations.ClockRegistersTakeWrites := by
  unfold Obligations.ClockRegistersTakeWrites
  refine ⟨fun s acc v hm hp hd hr => ?_, fun s acc v hm hp hd hu => ?_, fun s acc v hm hp hd hu => ?_,
    fun s acc v hm hp hd hf hb => ?_, fun s acc p hm hp h => ?_, fun s acc p hm hp ht hn => ?_, fun s acc v hm hp hr hc hn => ?_,
    fun s acc v hm hp h => ?_, fun s acc v hm hp ht hc hu hch => ?_, fun s acc v hm hp h => ?_, fun s acc v hm hp h => ?_,
    fun s acc v hm hp h => ?_⟩
  · have hstay : (bit v 31 && decide (s.fret.state = .free)) = false := by rcases hr with h | h <;> simp [h]
    rw [execFretDomainWrite_eq hm hp, writeFretDomain_sameDomain (.inl hd), hstay, State.when_false]
    simp only [State.modFret, FretSt.domainFields, hd]
  · refine ⟨_, (execFretDomainWrite_eq hm hp v).trans (congrArg _ (writeFretDomain_newDomain hd hu)), ?_, ?_, ?_, ?_, ?_, ?_⟩
    · exact only_when (only_abortRunning ((modFret_only ..).in) (by decide))
        (only_toMember (only_abortRunning ((modFret_only ..).in) (by decide)) (by decide))
    · rw [State.when_read (fun s => s.fret.state), toMember_fret, abortRunning_fret]; rfl
    · rw [State.when_read (fun s => s.fret.domain), toMember_fret, abortRunning_fret]; exact ite_self _
    · rw [State.when_read (fun s => s.fret.root), toMember_fret, abortRunning_fret]; exact ite_self _
    · rw [State.when_read (fun s => s.fret.west), toMember_fret, abortRunning_fret]; exact ite_self _
    · have hab : s.AllAborted ((s.newDomain v).abortRunning .slip) :=
        AllAborted_of (u := s.newDomain v) rfl (abortRunning_allAborted (s.newDomain v) .slip)
      refine AllAborted_congr ?_ hab
      rw [State.when_read State.tasks, (toMember_only _).tasks, ite_self]
  · have hstay : (bit v 31 && decide (s.fret.state = .free)) = false := by simp [hu]
    rw [execFretDomainWrite_eq hm hp, writeFretDomain_sameDomain (.inr hu), hstay, State.when_false]
    rfl
  · have hgo : (bit v 31 && decide (s.fret.state = .free)) = true := by simp [hb, hf]
    refine ⟨_, (execFretDomainWrite_eq hm hp v).trans (congrArg _ ((writeFretDomain_sameDomain (.inl hd)).trans
      (by rw [hgo, State.when_true]))), only_toMember ((modFret_only ..).in) (by decide), ?_⟩
    rw [toMember_fret]
    exact ⟨rfl, hb, rfl, rfl, rfl⟩
  · rw [execFlightRemeasure_eq hm hp]
    refine congrArg _ ?_
    unfold State.measureFlights
    have hstay : ((s.updFlight p fun g => { g with remeasure := true }).measureDue &&
        !(s.updFlight p fun g => { g with remeasure := true }).anyTask) = false := by
      rcases h with h | h
      · exact Bool.and_eq_false_iff.mpr (.inr (congrArg (!·) h))
      · have hk := Tab.any_upd ({} : FlightReg) s.fret.flights p (fun g => { g with remeasure := true }) (·.measuring)
          (fun _ => rfl) rfl
        exact Bool.and_eq_false_iff.mpr (.inl (Bool.and_eq_false_iff.mpr (.inr (congrArg (!·) (hk.trans h)))))
    rw [hstay, State.when_false]
  · have hgo : ((s.updFlight p fun g => { g with remeasure := true }).measureDue &&
        !(s.updFlight p fun g => { g with remeasure := true }).anyTask) = true := by
      have hk := Tab.any_upd ({} : FlightReg) s.fret.flights p (fun g => { g with remeasure := true }) (·.measuring)
        (fun _ => rfl) rfl
      have hr : (s.updFlight p fun g => { g with remeasure := true }).fret.flights.any (fun e => e.2.remeasure) = true :=
        List.any_eq_true.mpr ⟨_, Tab.put_mem _ _ _, rfl⟩
      exact Bool.and_eq_true_iff.mpr ⟨Bool.and_eq_true_iff.mpr ⟨hr, congrArg (!·) (hk.trans hn)⟩, congrArg (!·) ht⟩
    obtain ⟨honly, hout, hmeas⟩ := startMeasure_starts (s.updFlight p fun g => { g with remeasure := true })
    refine ⟨_, (execFlightRemeasure_eq hm hp p).trans (congrArg _ ?_), ((updFlight_only ..).in).trans honly, hout, hmeas⟩
    unfold State.measureFlights
    rw [hgo, State.when_true]
  · rw [execClkChangeGo_eq hm hp, writeClkChange_go, if_neg (by rw [hr, hc, hn]; decide), forwardAnnounce_eq]
    rfl
  · rw [execClkChangeGo_eq hm hp, writeClkChange_go, if_pos h]
    rfl
  · refine ⟨_, (execClkHalfSet_eq hm hp v).trans (congrArg _ ((writeClkHalf_set s v).trans
      (if_neg (by rw [ht, hc]; simp [hu, hch])))), only_modFret (only_modClk ((modClk_only ..).in) (by decide)) (by decide), rfl, ?_⟩
    cases hb : bit v 29 <;> simp [State.clearHalfErr]
  · rw [execClkHalfSet_eq hm hp, writeClkHalf_set s v]
    exact congrArg _ (if_pos h)
  · refine ⟨_, (execClkHalfRestore_eq hm hp v).trans (congrArg _ ((writeClkHalf_restore s v).trans
      (if_neg (by simp [h])))), only_modFret (only_modClk ((modClk_only ..).in) (by decide)) (by decide), ?_, rfl⟩
    cases hb : bit v 29 <;> simp [State.clearHalfErr]
  · rw [execClkHalfRestore_eq hm hp, writeClkHalf_restore s v]
    exact congrArg _ (if_pos h)

/-! ### Accesses -/

theorem registerWrite_eq (s : State) (acc : Accessor) (off : Nat) (v : Word) :
    exec (.registerWrite acc off 4 v) s = .next (s.accWrite acc off v) := rfl

/-- A write at an offset that is not aligned, or where no register answers, has no effect. -/
theorem accWrite_none {acc : Accessor} {off : Nat} {v : Word}
    (h : off % 4 ≠ 0 ∨ ∀ b o, blockOf off = some (b, o) → blockHas b o = false ∨ s.regAnswers b o = false) :
    s.accWrite acc off v = s := by
  unfold State.accWrite State.bar0Write
  by_cases h4 : off % 4 ≠ 0
  · rw [if_pos h4]
  · rw [if_neg h4]
    split
    · rfl
    · next b o hb => rw [if_pos ((h.resolve_left h4 b o hb).imp (by simp [·]) (by simp [·]))]

/-- The words of a multi-word read: one for each word asked for, 0 where a word has not all its byte enables. -/
theorem readWords (acc : Accessor) (off : Nat) (full : List Bool) (k : Nat) (r : List Word × State) :
    r.2.Only ((full.zipIdx k).foldl (readWord acc off) r).2 [.tel, .latches] ∧
    ∃ vs, ((full.zipIdx k).foldl (readWord acc off) r).1 = r.1 ++ vs ∧ vs.length = full.length ∧
      (∀ i : Nat, full[i]? = some false → vs[i]? = some 0) ∧
      (full[0]? = some true → vs[0]? = some (r.2.bar0Read acc (off + 4 * k)).1) := by
  induction full generalizing k r with
  | nil => exact ⟨.refl _ _, [], by simp⟩
  | cons b full ih =>
    rw [List.zipIdx_cons, List.foldl_cons]
    obtain ⟨honly, vs, hvs, hlen, hfalse, -⟩ := ih (k + 1) (readWord acc off r (b, k))
    cases b with
    | false =>
      refine ⟨honly, 0 :: vs, ?_, by simp [hlen], fun i hi => ?_, by simp⟩
      · rw [hvs]; simp [readWord]
      · cases i with
        | zero => rfl
        | succ i => exact hfalse i hi
    | true =>
      refine ⟨(bar0Read_only ..).trans honly, (r.2.bar0Read acc (off + 4 * k)).1 :: vs, ?_, by simp [hlen], fun i hi => ?_, by simp⟩
      · rw [hvs]; simp [readWord]
      · cases i with
        | zero => simp at hi
        | succ i => exact hfalse i hi

/-- A read of a pair's LO: the value, and the HI latched. -/
theorem bar0Read_lo {acc : Accessor} {off o : Nat} {b : Block} (h4 : off % 4 = 0) (hb : blockOf off = some (b, o))
    (ha : s.regAnswers b o = true) (hl : pairLo b o = true) :
    s.bar0Read acc off = (bar0Value (s.selOf acc) s off,
      s.modLatches fun t => Tab.put t (latchKey acc (off + 4)) (bar0Value { s.selOf acc with latch := none } s (off + 4))) := by
  unfold State.bar0Read
  simp [h4, hb, ha, hl]

theorem bar0Value_of {x : Sel} {off o : Nat} {b : Block} (h4 : off % 4 = 0) (hb : blockOf off = some (b, o))
    (ha : s.answers b = true) : bar0Value x s off = blockRead x s b o := by
  unfold bar0Value
  simp [h4, hb, ha]

/-- A read of no pair and no latched position leaves the state. -/
theorem bar0Read_value (s : State) (acc : Accessor) (off : Nat) : (s.bar0Read acc off).1 = bar0Value (s.selOf acc) s off := by
  unfold State.bar0Read
  dsimp only
  split
  · rfl
  · split
    · rfl
    · split
      · rfl
      · split <;> rfl

/-- CHEST_OLD is read, and its position latched, once BU0 has passed. -/
theorem bar0Read_chestOld (s : State) (acc : Accessor) :
    s.bar0Read acc 0xA000C = if s.passed 0 = true then
      (s.chest.old, s.modTel fun t => { t with oldPos := t.oldPos.set acc (BitVec.ofNat 32 s.chest.oldPos) }) else (0, s) := by
  have hb : blockOf 0xA000C = some (.chest, 0x00C) := rfl
  have ha : s.regAnswers .chest 0x00C = s.passed 0 := by simp [State.regAnswers, State.answers]
  unfold State.bar0Read bar0Value
  rw [hb]
  cases hp : s.passed 0
  · simp [State.answers, hp, ha]
  · simp [State.answers, hp, ha, pairLo, blockRead, chestRead]

/-- FRET_NOW's halves as an accessor reads them. -/
theorem bar0Value_nowLo (x : Sel) (hp : s.passed 2 = true) : bar0Value x s 0x50000 = lo32 s.fret.west.toNat :=
  bar0Value_of (b := .fret) (o := 0) rfl rfl hp

theorem bar0Value_nowHi (x : Sel) (hp : s.passed 2 = true) : bar0Value x s 0x50004 = x.hiReg 0x50004 (hi32 s.fret.west.toNat) :=
  bar0Value_of (b := .fret) (o := 4) rfl rfl hp

theorem hiReg_selOf (s : State) (acc : Accessor) (off : Nat) (v : Word) :
    (s.selOf acc).hiReg off v = Tab.get 0 s.latches (latchKey acc off) := rfl

theorem emit_latches (s : State) (o : Out) : (s.emit o).latches = s.latches := rfl

/-- With no latch a HI register reads its present value. -/
theorem hiReg_none {x : Sel} (h : x.latch = none) (off : Nat) (v : Word) : x.hiReg off v = v := by
  unfold Sel.hiReg
  rw [h]

/-- FRET_NOW's LO read latches the HI of the fret read. -/
theorem counterLoRead_fret (acc : Accessor) (hp : s.passed 2 = true) :
    ∃ t, exec (.counterLoRead acc 0x50000) s = .next t ∧ s.Only t [.latches, .out] ∧
      t.out = .data acc [lo32 s.fret.west.toNat] :: s.out ∧
      ∀ u : State, u.latches = t.latches → u.passed 2 = true → (u.bar0Read acc 0x50004).1 = hi32 s.fret.west.toNat := by
  have hlo : s.bar0Read acc 0x50000 = _ := bar0Read_lo (b := .fret) (o := 0) rfl rfl (regAnswers_fret hp _) rfl
  rw [show 0x50000 + 4 = 0x50004 from rfl, bar0Value_nowLo _ hp, bar0Value_nowHi _ hp] at hlo
  refine ⟨_, congrArg (fun r : Word × State => Host.Outcome.next (r.2.emit (.data acc [r.1]))) hlo,
    only_emit ((modLatches_only ..).in) (by decide), rfl, fun u hu hpu => ?_⟩
  rw [bar0Read_value, bar0Value_nowHi _ hpu, hiReg_selOf, hu, emit_latches, State.modLatches_latches, Tab.get_put_self,
    hiReg_none rfl]

theorem accWrite_fretTree {acc : Accessor} (hm : s.mayWrite acc = true) (hp : s.passed 2 = true) (v : Word) :
    s.accWrite acc 0x50010 v = s.modFret fun r => { r with horizon := v.extractLsb' 17 12, children := v.setWidth 17 } :=
  accWrite_may (b := .fret) (o := 0x010) rfl rfl rfl (regAnswers_fret hp _) hm

theorem accWrite_fretStatus {acc : Accessor} (hm : s.mayWrite acc = true) (hp : s.passed 2 = true) (v : Word) :
    s.accWrite acc 0x50008 v = s.modFret fun r =>
      { r with
        seamSplit := r.seamSplit && !bit v 20, stretchLate := r.stretchLate && !bit v 19
        abortLate := r.abortLate && !bit v 18, allowShort := r.allowShort && !bit v 17
        alignLost := r.alignLost && !bit v 16, beaconLost := r.beaconLost && !bit v 15 } :=
  accWrite_may (b := .fret) (o := 0x008) rfl rfl rfl (regAnswers_fret hp _) hm

theorem execChestOldRead_eq (s : State) (acc : Accessor) :
    exec (.chestOldRead acc) s = .next (if s.passed 0 = true then
      (s.modTel fun t => { t with oldPos := t.oldPos.set acc (BitVec.ofNat 32 s.chest.oldPos) }).emit (.data acc [s.chest.old])
      else s.emit (.data acc [0])) := by
  have h : exec (.chestOldRead acc) s = .next ((s.bar0Read acc 0xA000C).2.emit (.data acc [(s.bar0Read acc 0xA000C).1])) := rfl
  rw [h, bar0Read_chestOld]
  split <;> rfl

/-- One word of a multi-word write. -/
def writeWord (acc : Accessor) (off : Nat) (s : State) (x : BeWord × Nat) : State :=
  if x.1.full then s.accWrite acc (off + 4 * x.2) x.1.v else s

theorem multiwordWrite_eq {off : Nat} (h : off % 4 = 0) {acc : Accessor} {ws : List BeWord} :
    exec (.bar0MultiwordAccess acc off (.write ws)) s = .next (s.each ws.zipIdx (writeWord acc off)) :=
  if_neg (by omega)

theorem writeWord_zero (s : State) (acc : Accessor) (off : Nat) (w : BeWord) :
    writeWord acc off s (w, 0) = if w.full then s.accWrite acc off w.v else s := by
  simp only [writeWord, Nat.mul_zero, Nat.add_zero]

/-- The words after the first are those of the access that starts four bytes on. -/
theorem multiwordWrite_shift (s : State) (acc : Accessor) (off : Nat) (ws : List BeWord) (k : Nat) :
    s.each (ws.zipIdx (k + 1)) (writeWord acc off) = s.each (ws.zipIdx k) (writeWord acc (off + 4)) := by
  induction ws generalizing k s with
  | nil => rw [List.zipIdx_nil, List.zipIdx_nil, State.each_nil, State.each_nil]
  | cons w ws ih =>
    have hword : ∀ s : State, writeWord acc off s (w, k + 1) = writeWord acc (off + 4) s (w, k) := fun s => by
      simp only [writeWord]
      rw [show off + 4 * (k + 1) = off + 4 + 4 * k by omega]
    rw [List.zipIdx_cons, List.zipIdx_cons, State.each_cons, State.each_cons, ih, hword]

theorem multiwordRead_eq {off : Nat} (h : off % 4 = 0) {acc : Accessor} {full : List Bool} :
    exec (.bar0MultiwordAccess acc off (.read full)) s =
      .next ((full.zipIdx.foldl (readWord acc off) ([], s)).2.emit
        (.data acc (full.zipIdx.foldl (readWord acc off) ([], s)).1)) :=
  if_neg (by omega)

theorem readWord_true (acc : Accessor) (off k : Nat) (r : List Word × State) :
    readWord acc off r (true, k) =
      (r.1 ++ [(r.2.bar0Read acc (off + 4 * k)).1], (r.2.bar0Read acc (off + 4 * k)).2) := rfl

/-- Settles O15: an access is the register's own effect where R8 and R503 let it through, and nothing or one count otherwise. -/
theorem registerAccessesFollowTheRules : Obligations.RegisterAccessesFollowTheRules := by
  unfold Obligations.RegisterAccessesFollowTheRules
  refine ⟨fun s acc off len v h => ?_, fun s acc off v h => ?_, fun s acc off o b v hb h => ?_,
    fun s p off o b v h4 hb hh ha ht hf => ?_, fun s acc off o b v h4 hb hh ha hm => ?_, fun s acc v hm hp => ?_,
    fun s acc v hm hp => ?_, fun s acc off ws h => ?_, fun s acc off a b h => ?_, fun s acc off w ws h => ?_,
    fun s acc off h => ?_, fun s acc off full h => ?_, fun s acc off full h => ?_, fun s acc off h => ?_,
    fun s acc off o b h4 hb ha hl => ?_, fun s acc hp => ?_, fun s acc hp => ?_, fun s acc hp => ?_⟩
  · by_cases hl : len = 4
    · subst hl
      rw [registerWrite_eq, accWrite_none (.inl (h.resolve_left fun k => k rfl))]
    · exact if_neg hl
  · rw [registerWrite_eq, accWrite_none (.inr fun b o hb => by rw [h] at hb; cases hb)]
  · rw [registerWrite_eq, accWrite_none (.inr fun b' o' hb' => by rw [hb] at hb'; cases hb'; exact h)]
  · exact congrArg _ (accWrite_denied h4 hb hh ha (writeDenied_of_noToken ht hf))
  · exact congrArg _ (accWrite_may h4 hb hh ha hm)
  · exact congrArg _ (accWrite_fretTree hm hp v)
  · exact congrArg _ (accWrite_fretStatus hm hp v)
  · exact if_pos h
  · rw [multiwordWrite_eq h, List.zipIdx_cons, State.each_cons, writeWord_zero, multiwordWrite_shift, List.zipIdx_cons,
      State.each_cons, writeWord_zero]
    rfl
  · rw [multiwordWrite_eq h, multiwordWrite_eq (by omega), List.zipIdx_cons, State.each_cons, multiwordWrite_shift, writeWord_zero]
  · exact multiwordWrite_eq h
  · exact if_pos h
  · obtain ⟨honly, vs, hvs, hlen, hfalse, htrue⟩ := readWords acc off full 0 ([], s)
    rw [Nat.mul_zero, Nat.add_zero] at htrue
    refine ⟨_, vs, multiwordRead_eq h, only_emit (honly.in) (by decide), ?_, hlen, hfalse, htrue⟩
    exact congrArg₂ (fun vs o => Out.data acc vs :: o) hvs honly.out
  · rw [multiwordRead_eq h, List.zipIdx_cons, List.foldl_cons, List.zipIdx_cons, List.foldl_cons, readWord_true, readWord_true, Nat.mul_zero,
      Nat.add_zero]
    rfl
  · refine ⟨_, congrArg (fun r : Word × State => Host.Outcome.next (r.2.emit (.data acc [r.1]))) (bar0Read_lo h4 hb ha hl),
      only_emit ((modLatches_only ..).in) (by decide), rfl, ?_⟩
    exact Tab.get_put_self ..
  · exact counterLoRead_fret acc hp
  · rw [execChestOldRead_eq, if_pos hp]
    rfl
  · rw [execChestOldRead_eq, if_neg (by simp [hp])]
    rfl

end Sys2Proof.Machine
end

section
/-!
PROOFS. The SEC registers answer once BU0 and BU1 have passed (17 R736): a state in which BU1 alone is marked as passed takes no write of
them, so O40 and O41, which ask for BU1 alone, fail.
-/

set_option Elab.async false

namespace Sys2Proof.Machine

/-- A chip whose bring-up table marks BU1, and no other stage, as passed. -/
def onlyBu1 : State := { State.reset with brup := { stages := [.notRun, .passed] } }

/-- No register of SEC answers there. -/
theorem onlyBu1_silent (acc : Accessor) {off o : Nat} (hb : blockOf off = some (.sec, o)) (v : Word) : onlyBu1.accWrite acc off v = onlyBu1 := by
  refine accWrite_none (.inr fun b o' hb' => .inr ?_)
  rw [hb] at hb'
  cases hb'
  rfl

/-- A write that has no effect is not counted as denied. -/
theorem onlyBu1_notDenied : onlyBu1 ≠ { onlyBu1 with top := { onlyBu1.top with denied := satAdd onlyBu1.top.denied 1 } } := fun h =>
  absurd (congrArg (fun s : State => s.top.denied) h) (by decide)

/-- Refutes O40: with BU1 marked as passed and BU0 not, no register of SEC answers, and a write without the token is not counted in
TOP_OWNER.denied. -/
theorem not_lifeCycleAndKeysMove : ¬ Obligations.LifeCycleAndKeysMove := by
  unfold Obligations.LifeCycleAndKeysMove
  rintro ⟨-, -, -, -, -, -, -, -, -, -, -, -, -, -, -, hdenied, -⟩
  obtain ⟨hreq, -⟩ := hdenied onlyBu1 .a 0 rfl rfl
  have hsilent : exec (.lcTransitionRequest .portA 0) onlyBu1 = .next onlyBu1 :=
    congrArg _ (onlyBu1_silent .portA (off := 0x60004) rfl 0)
  exact onlyBu1_notDenied (Host.Outcome.next.inj (hsilent.symm.trans hreq))

/-- Refutes O41: in the same state a quote request without the token is not counted in TOP_OWNER.denied. -/
theorem not_signaturesUseLeavesInOrder : ¬ Obligations.SignaturesUseLeavesInOrder := by
  unfold Obligations.SignaturesUseLeavesInOrder
  rintro ⟨-, -, -, -, -, -, -, -, -, -, -, -, -, -, -, -, -, -, -, hdenied⟩
  have hsilent : exec (.quoteRequest .portA 0) onlyBu1 = .next onlyBu1 :=
    congrArg _ (onlyBu1_silent .portA (off := 0x60300) rfl (setField 0 30 2 1))
  exact onlyBu1_notDenied (Host.Outcome.next.inj (hsilent.symm.trans (hdenied onlyBu1 .portA 0 rfl rfl)))

end Sys2Proof.Machine
end

section
/-!
PROOFS. The TAP and scan (14 R685 to R688; 18 R767, R774, R775): O42.
-/

set_option Elab.async false

namespace Sys2Proof.Machine

variable {s : State}

/-- What leaves at TDO as an opcode is loaded: the captured 0000 0001, least significant bit first. -/
theorem tdo_captured : (List.range 8).map (bit (0x01 : Byte)) = true :: List.replicate 7 false := by decide

/-- A load of the instruction register. -/
theorem loadIr_eq (s : State) (op : BitVec 8) (drive highz : Bool) :
    s.loadIr op drive highz = { s with
      tap := { s.tap with ir := op, inReset := false, drive := drive, highz := highz }
      out := .tdo (true :: List.replicate 7 false) :: s.out } :=
  congrArg (fun bs => ({ s with
    tap := { s.tap with ir := op, inReset := false, drive := drive, highz := highz }, out := .tdo bs :: s.out } : State)) tdo_captured

/-- An instruction that the life cycle permits acts. -/
theorem jtag_permitted (h : s.sec.lc ≠ .final) (op : BitVec 8) (drive highz : Bool) (f : State → State) :
    s.jtag op drive highz f = f (s.loadIr op drive highz) :=
  if_pos (decide_eq_true h)

/-- In FINAL it acts as BYPASS. -/
theorem jtag_final (h : s.sec.lc = .final) (op : BitVec 8) (drive highz : Bool) (f : State → State) :
    s.jtag op drive highz f = s.loadIr op false false :=
  if_neg (by simp [State.scanPins, h])

theorem tdoCells_eq (x : BitVec 362) : tdoCells x = (List.range 362).map fun i => bit x (361 - i) := by
  unfold tdoCells
  refine List.ext_getElem (by simp) fun i h1 h2 => ?_
  simp

theorem idcode_of_digit : ∀ d : BitVec 4, pk [(d.toNat, 28), (0xEB02, 12), (0x2D7, 1), (1, 0)] =
    ((d.setWidth 4 : BitVec 4) ++ (0xEB02 : BitVec 16) ++ (0x2D7 : BitVec 11) ++ (1 : BitVec 1)) := by decide

/-- Settles O42: an instruction loads its opcode, and what it does more hangs on the life cycle and the state of scan. -/
theorem tapInstructionsAndScan : Obligations.TapInstructionsAndScan := by
  unfold Obligations.TapInstructionsAndScan
  refine ⟨fun s cells h => ?_, fun s pins cells h => ?_, fun s h => ?_, fun s => ?_, fun s op h => ?_, fun s op h => ?_,
    fun s pins cells h => ?_, fun s => rfl, fun s hs hc hl => ?_, fun s hs hc hl => ?_, fun s h => ?_, fun s hs hc hl he => ?_,
    fun s h => ?_, fun s h => if_neg (not_not_intro h), fun s h => if_pos h⟩
  · simp only [exec, execJtagExtest, execJtagExtestPulse, execJtagExtestTrain, jtag_permitted h, loadIr_eq]
    exact ⟨rfl, rfl, rfl⟩
  · simp only [exec, execJtagSamplePreload, jtag_permitted h, loadIr_eq, tdoCells_eq]
    rfl
  · simp only [exec, execJtagClamp, execJtagHighz, jtag_permitted h, loadIr_eq]
    exact ⟨rfl, rfl⟩
  · simp only [exec, execJtagIdcode, loadIr_eq, State.idcode, idcode_of_digit]
    rfl
  · exact (if_neg (by simp [h])).trans (congrArg _ (loadIr_eq ..))
  · exact if_pos (by simpa [jtagNamed, or_assoc] using h)
  · have hbypass : ∀ op drive highz f, (Host.Outcome.next (s.jtag op drive highz f) : Host.Outcome State Fault Refusal) = _ :=
      fun op drive highz f => congrArg _ ((jtag_final h op drive highz f).trans (loadIr_eq s op false false))
    intro p hp
    simp only [List.mem_cons, List.not_mem_nil, or_false] at hp
    rcases hp with rfl | rfl | rfl | rfl | rfl | rfl <;> exact hbypass ..
  · simp only [exec, execScanEn, loadIr_eq]
    rw [if_neg (by rw [hs, hc]; decide)]
    split
    · rfl
    · next hret => rw [hl] at hret; cases hret
    · next htest _ => exact absurd hl htest
  · simp only [exec, execScanEn, loadIr_eq]
    rw [if_neg (by rw [hs, hc]; decide)]
    split
    · next htest => rw [hl] at htest; cases htest
    · rfl
    · next hret => exact absurd hl hret
  · simp only [exec, execScanEn, loadIr_eq]
    by_cases hopen : s.rstc.sysrstLow = false ∨ s.sec.scan ≠ .closed
    · rw [if_pos hopen]
    · rw [if_neg hopen]
      rcases h with h | h | h | h | h
      · exact absurd (.inl h) hopen
      · exact absurd (.inr h) hopen
      all_goals rw [h]
  · simp only [exec, execEb1Unlock, loadIr_eq]
    rw [if_neg (by rw [hs, hc, hl, he]; decide)]
    rfl
  · simp only [exec, execEb1Unlock, loadIr_eq]
    rw [if_pos (by tauto)]

end Sys2Proof.Machine
end

section
/-!
PROOFS. The reset levels, their sources and their releases, and the supplies (12 R589 to R609; 13 R630; 18 R763 to R773): O31 and O32.
-/

set_option Elab.async false

namespace Sys2Proof.Machine

variable {s : State}

/-! ### Changes of tasks that only add aborts -/

/-- Between two states every task keeps its phase, and an abort that is set. -/
structure State.MoreAborts (s t : State) : Prop where
  phase (m : BitVec 32) : (t.task m).phase = (s.task m).phase
  abort (m : BitVec 32) : (s.task m).abort.isSome = true → (t.task m).abort.isSome = true

theorem State.MoreAborts.refl (s : State) : s.MoreAborts s := ⟨fun _ => rfl, fun _ => id⟩

theorem State.MoreAborts.trans {t u : State} (h : s.MoreAborts t) (k : t.MoreAborts u) : s.MoreAborts u :=
  ⟨fun m => (k.phase m).trans (h.phase m), fun m a => k.abort m (h.abort m a)⟩

theorem State.MoreAborts.of_tasks {t : State} (h : t.tasks = s.tasks) : s.MoreAborts t :=
  ⟨fun m => by rw [task_congr h], fun m a => by rwa [task_congr h]⟩

/-- A change that leaves the tasks. -/
theorem State.Only.moreAborts {t : State} {cs : List Comp} (h : s.Only t cs) (hc : Comp.tasks ∉ cs := by decide) : s.MoreAborts t :=
  .of_tasks (h.1 .tasks hc)

theorem detect_moreAborts (s : State) (n : BitVec 32) (st : Status) : s.MoreAborts (s.detect n st) :=
  ⟨fun m => detect_phase s n m st, fun m => detect_abort_some s n m st⟩

theorem State.MoreAborts.each {α : Type} {f : State → α → State} {u : State} (h : s.MoreAborts u) (xs : List α)
    (hf : ∀ v x, State.MoreAborts v (f v x)) : s.MoreAborts (u.each xs f) := by
  induction xs generalizing u with
  | nil => exact h
  | cons x xs ih => exact ih (h.trans (hf u x))

theorem cutLeaving_moreAborts (s : State) (c : Nat) (ports : List Nat) : s.MoreAborts (s.cutLeaving c ports) := by
  unfold State.cutLeaving
  extract_lets r mine u
  have hu : s.MoreAborts u := .each (.refl s) _ fun v x => detect_moreAborts v ..
  exact hu.trans (updRouter_only ..).moreAborts

theorem startRecovery_moreAborts (s : State) (p : Nat) : s.MoreAborts (s.startRecovery p) := by
  unfold State.startRecovery
  split
  · exact .refl s
  · extract_lets a b c d e f
    have ha : s.Only a [.healx, .heal] := only_modHeal ((setPartMode_only ..).in) (by decide)
    have hb : a.MoreAborts b := .each (.refl a) _ fun v n => detect_moreAborts v ..
    have hd : b.Only d [.tiles, .mch, .parts] :=
      only_lpInvalidate (only_fenceQueues ((modTiles_only ..).in) (by decide)) (by decide)
    have he : d.MoreAborts e := .each (.refl d) _ fun v c => cutLeaving_moreAborts v ..
    have hf : e.Only f [.mch, .out, .parts] := only_updPart ((closeFolds_only ..).in) (by decide)
    exact ha.moreAborts.trans (hb.trans (hd.moreAborts.trans (he.trans (hf.moreAborts.trans (recordAt_only ..).moreAborts))))

theorem heldOrders_moreAborts (s : State) (p : Nat) : s.MoreAborts (s.heldOrders p) := by
  unfold State.heldOrders
  extract_lets fences hangs a b c d rots e f
  have ha : s.Only a [.healx] := modHealx_only ..
  have hb : a.MoreAborts b := .each (.refl a) _ fun v x => (fenceTile_only ..).moreAborts
  have hc : b.Only c [.heal] := only_when (.refl b _) (modHeal_only ..)
  have hd : c.MoreAborts d := .each (.refl c) _ fun v x => by
    split
    · exact (tileHang_only ..).moreAborts
    · exact startRecovery_moreAborts ..
  have he : d.Only e [.healx] := modHealx_only ..
  have hf : e.MoreAborts f := .each (.refl e) _ fun v x => (markRotation_only ..).moreAborts
  refine ha.moreAborts.trans (hb.trans (hc.moreAborts.trans (hd.trans (he.moreAborts.trans (hf.trans ?_)))))
  split
  · split
    · exact .refl _
    · exact (only_drainNow ((modHealx_only ..).in) (by decide) : f.Only _ [.healx, .relx]).moreAborts
  · exact .refl _

theorem endRecovery_moreAborts (s : State) (p : Nat) : s.MoreAborts (s.endRecovery p) := by
  unfold State.endRecovery
  split
  · exact .refl s
  · extract_lets waits u
    have hu : s.Only u [.healx, .mch, .out] := only_unfenceQueues ((setPartMode_only ..).in) (by decide)
    refine hu.moreAborts.trans ?_
    cases waits
    · exact .refl u
    · exact heldOrders_moreAborts ..

/-! ### What each level resets -/

/-- The parts of the state that a system reset may change. -/
def systemParts : List Comp :=
  [.top, .rstc, .brup, .pwr, .gov, .clk, .fret, .ids, .sec, .bist, .heal, .healx, .rel, .relx, .chest, .tel, .mch, .pcie, .mgt,
   .spn, .sess, .hbm, .fabs, .parts, .cluss, .tiles, .ctxs, .tasks, .scheds, .held, .latches, .out]

/-- The state whose system reset is about to be written: the record, the ports DOWN, the entries of the intake. -/
def State.beforeSystem (s : State) (src : BitVec 4) : State :=
  (s.record .reset [BitVec.ofNat 32 (1 + src.toNat * 256)]).downPorts.loseEntries .chip

theorem beforeSystem_only (s : State) (src : BitVec 4) :
    s.Only (s.beforeSystem src) [.top, .fret, .healx, .chest, .spn, .fabs, .tasks, .held, .out] :=
  only_loseEntries (only_downPorts ((record_only ..).in) (by decide)) (by decide)

theorem assertReset_system (s : State) (src : BitVec 4) (promoted : Bool) :
    s.assertReset .system src promoted = (s.beforeSystem src).systemState.modRstc fun r =>
      { r with src := src, level := 1, promoted := promoted, sys := satAdd r.sys 1, inReset := some .system } := rfl

theorem assertReset_system_only (s : State) (src : BitVec 4) (promoted : Bool) :
    s.Only (s.assertReset .system src promoted) systemParts :=
  only_modRstc (only_systemState ((beforeSystem_only ..).in) (by decide)) (by decide)

/-- A system reset clears the counters of frets, the tiles, the tasks, the schedules and the channels. -/
theorem assertReset_system_clears (s : State) (src : BitVec 4) (promoted : Bool) :
    let t := s.assertReset .system src promoted
    t.rstc.inReset = some .system ∧ t.rstc.src = src ∧ t.rstc.level = 1 ∧ t.rstc.sys = satAdd s.rstc.sys 1 ∧
      t.rstc.sysrstLow = s.rstc.sysrstLow ∧ t.rstc.orderly = none ∧ t.fret = {} ∧ t.tiles = [] ∧ t.tasks = [] ∧ t.scheds = [] ∧
      t.rel = {} ∧ t.mch = {} := by
  have hrstc : (s.beforeSystem src).rstc = s.rstc := (beforeSystem_only s src).rstc
  refine ⟨rfl, rfl, rfl, ?_, ?_, rfl, rfl, rfl, rfl, rfl, rfl, rfl⟩
  · show satAdd (s.beforeSystem src).rstc.sys 1 = _
    rw [hrstc]
  · show (s.beforeSystem src).rstc.sysrstLow = _
    rw [hrstc]

/-- What a core reset changes before the counters, the stages and the self-test. -/
def coreParts : List Comp :=
  [.flash, .top, .bist, .heal, .healx, .rel, .relx, .chest, .mch, .spn, .sess, .hbm, .fabs, .parts, .cluss, .tiles, .ctxs, .tasks,
   .scheds, .held, .latches, .out]

theorem endTasks_busy (t : TaskRt) : (if t.phase = .committed then t else { t with phase := .stopped } : TaskRt).busy = false := by
  split
  · next h => unfold TaskRt.busy; rw [h]
  · rfl

/-- No task that has ended is armed or running. -/
theorem endTasks_task (ts : Tab TaskRt) (k : Nat) : (Tab.get ({} : TaskRt) (endTasks ts) k).busy = false := by
  unfold endTasks
  induction ts with
  | nil => rfl
  | cons x ts ih =>
    simp only [List.map_cons, Tab.get]
    split
    · exact endTasks_busy x.2
    · exact ih

theorem TaskRt.busy_congr {t u : TaskRt} (h : u.phase = t.phase) : u.busy = t.busy := by
  unfold TaskRt.busy; rw [h]

/-- A core reset leaves the reset controller as it is, and of the time base clears the slip count alone; no task runs after it. -/
theorem coreEffect_leaves (s : State) :
    s.coreEffect.rstc = s.rstc ∧ s.coreEffect.fret = { s.fret with slipCount := 0 } ∧ s.coreEffect.top.ready = false ∧
      ∀ n, (s.coreEffect.task n).busy = false := by
  unfold State.coreEffect
  extract_lets s1 s2 s3 s4 s5 s6 engines s7 s8 s9 s10 s11 s12 s13 s14
  have h3 : s.Only s3 coreParts := only_modHeld (only_modTasks (only_each ((loseEntries_only ..).in) fun _ _ h =>
    only_dropHeld h (by decide)) (by decide)) (by decide)
  have h6 : s3.Only s6 [.scheds, .rel, .relx, .chest, .mch, .tiles, .out] :=
    only_each (only_modRelx ((modScheds_only ..).in) (by decide)) fun _ _ h =>
      only_updTile (only_resetTile h (by decide)) (by decide)
  have h8 : s6.Only s8 [.bist, .parts, .cluss, .ctxs, .latches] :=
    only_each (only_each (.refl _ _) fun _ _ h => only_resetEngine h (by decide)) fun _ _ h =>
      only_dropLatches (only_coreMemory h (by decide)) (by decide)
  have h11 : s8.Only s11 [.top, .rel, .chest, .sess, .hbm, .parts, .mch, .out] :=
    only_each (only_each (only_coreResetSessions (.refl _ _) (by decide)) fun _ _ h => only_closeByReset h (by decide)) fun _ _ h =>
      only_unbindQueue h (by decide)
  have h12 : s11.Only s12 coreParts := only_each (.refl _ _) fun _ _ h => only_endRecovery h (by decide)
  have hall : s.Only s12 coreParts := h3.trans ((h6.in).trans ((h8.in).trans ((h11.in).trans h12)))
  have hm : s3.MoreAborts s12 :=
    h6.moreAborts.trans (h8.moreAborts.trans (h11.moreAborts.trans (.each (.refl s11) _ fun v p => endRecovery_moreAborts v p)))
  have hbusy : ∀ n, (s12.task n).busy = false := fun n => (TaskRt.busy_congr (hm.phase n)).trans (endTasks_task s2.tasks _)
  have hrstc := hall.rstc
  have hfret := hall.fret
  clear_value s12
  exact ⟨hrstc, congrArg (fun r : FretSt => { r with slipCount := 0 }) hfret, rfl, hbusy⟩

/-- The parts of the state that a core reset may change. -/
def coreResetParts : List Comp :=
  [.flash, .top, .rstc, .brup, .fret, .bist, .heal, .healx, .rel, .relx, .chest, .mch, .spn, .sess, .hbm, .fabs,
   .parts, .cluss, .tiles, .ctxs, .tasks, .scheds, .held, .latches, .out]

theorem assertReset_core (s : State) (src : BitVec 4) (promoted : Bool) :
    s.assertReset .core src promoted = (s.record .reset [BitVec.ofNat 32 (2 + src.toNat * 256)]).coreEffect.modRstc fun r =>
      { r with
        src := src, level := 2, promoted := promoted, core := satAdd r.core 1, inReset := some .core, orderly := none, blks := [] } := rfl

theorem assertReset_core_only (s : State) (src : BitVec 4) (promoted : Bool) :
    s.Only (s.assertReset .core src promoted) coreResetParts := by
  rw [assertReset_core]
  have hrec : s.Only (s.record .reset [BitVec.ofNat 32 (2 + src.toNat * 256)]) coreResetParts := (record_only ..).in
  exact only_modRstc (only_coreEffect hrec (by decide)) (by decide)

/-! ### Requests -/

/-- With no reset in progress a request is carried out. -/
theorem requestReset_idle {l : Level} (h : s.resetLevel = none) (hh : ¬ (s.levelAsked l = .core ∧ s.bist.state = 2)) (src : BitVec 4)
    (immediate : Bool) :
    s.requestReset l src immediate =
      if immediate then s.assertReset (s.levelAsked l) src (decide (l = .core) && !s.rstc.everReady)
      else s.startOrderly (s.levelAsked l) src (decide (l = .core) && !s.rstc.everReady) := by
  unfold State.requestReset
  extract_lets promoted l' go
  rw [show l' = s.levelAsked l from rfl, if_neg hh, h]
  rfl

/-- While a reset of the level or of a higher one is in progress a request is noted alone. -/
theorem requestReset_system_absorbed {x : Level} (h : s.rstc.inReset = some x) (hx : x ≠ .core) (ho : s.rstc.orderly = none)
    (src : BitVec 4) (immediate : Bool) : s.requestReset .system src immediate = s.absorbReset src := by
  have hl : s.resetLevel = some x := by unfold State.resetLevel; rw [ho, h]
  unfold State.requestReset
  simp only [hl, ho]
  cases x with
  | core => exact absurd rfl hx
  | system => rfl
  | por => rfl

/-- An orderly reset aborts the tasks that run and waits. -/
theorem startOrderly_waits (s : State) (l : Level) (src : BitVec 4) (promoted : Bool) :
    s.Only (s.startOrderly l src promoted) [.rstc, .tasks, .chest] ∧ s.AllAborted (s.startOrderly l src promoted) ∧
      ∃ o, (s.startOrderly l src promoted).rstc.orderly = some o ∧ o.level = l ∧ o.src = src ∧ o.asked = s.now ∧
        o.promoted = promoted := by
  refine ⟨(startOrderly_only ..).in, ?_, _, rfl, rfl, rfl, ?_, rfl⟩
  · exact AllAborted_congr (t := s.abortRunning .peer) rfl (abortRunning_allAborted s .peer)
  · unfold State.now
    rw [abortRunning_fret]

theorem accWrite_rstcReq {acc : Accessor} (h : s.mayWrite acc = true) (v : Word) :
    s.accWrite acc 0x10008 v = s.writeRstcReq { acc := acc } v :=
  accWrite_may (b := .rstc) (o := 0x008) rfl rfl rfl rfl h

theorem accWrite_rstcReq_denied {acc : Accessor} (h : s.mayWrite acc = false) (v : Word) : s.accWrite acc 0x10008 v = s.denyWrite := by
  refine accWrite_denied (b := .rstc) (o := 0x008) rfl rfl rfl rfl ?_
  cases acc with
  | mc => exact absurd h (by simp [State.mayWrite])
  | portA => exact writeDenied_of_noToken (p := .a) h rfl
  | portB => exact writeDenied_of_noToken (p := .b) h rfl

theorem mayWrite_accessor {p : HostPort} (h : s.holdsToken p = true) : s.mayWrite p.accessor = true := by
  cases p <;> exact h

/-- The source code of a port's request. -/
def portSource : HostPort → BitVec 4
  | .a => 9
  | .b => 10

/-- The level an op field names. -/
def opLevel : Nat → Option Level
  | 1 => some .core
  | 2 => some .system
  | _ => none

theorem writeRstcReq_eq (s : State) (w : Writer) (v : Word) (op : Nat) (hop : op < 4) {l : Level} (hl : opLevel op = some l) :
    s.writeRstcReq w (setField v 0 2 op) =
      if v.extractLsb' 16 16 ≠ (0x5253 : BitVec 16) then s
      else if w.acc = .mc ∧ w.signed = none then (s.freeVal.2).requestReset l (s.freeVal.1.setWidth 4) false
      else s.requestReset l w.source false := by
  unfold State.writeRstcReq
  simp only [extract_setField_self v (lo := 0) (w := 2) (by decide) hop,
    extract_setField v (lo := 0) (w := 2) (op := op) (i := 16) (n := 16) hop (by decide) (by decide)]
  match op, hl with
  | 1, hl => cases hl; rfl
  | 2, hl => cases hl; rfl

theorem writeRstcReq_port (s : State) (p : HostPort) (v : Word) (op : Nat) (hop : op < 4) {l : Level} (hl : opLevel op = some l)
    (hk : v.extractLsb' 16 16 = (0x5253 : BitVec 16)) :
    s.writeRstcReq { acc := p.accessor } (setField v 0 2 op) = s.requestReset l (portSource p) false := by
  rw [writeRstcReq_eq s _ v op hop hl, if_neg (not_not_intro hk), if_neg (by cases p <;> simp [HostPort.accessor])]
  cases p <;> rfl

theorem portSource_eq (p : HostPort) : portSource p = match p with | .a => 9 | .b => 10 := rfl

theorem levelAsked_system (s : State) : s.levelAsked .system = .system := rfl

/-! ### Starting again -/

theorem startBu0_starts (s : State) : s.Only s.startBu0 [.rstc, .brup] ∧ s.startBu0.rstc = { s.rstc with inReset := none } ∧
    s.startBu0.brup.stages = s.brup.stages.set 0 .running ∧ s.startBu0.brup.current = 0 :=
  ⟨startBu0_only s, rfl, rfl, rfl⟩

theorem execResetRelease_core (h : s.rstc.inReset = some .core) :
    exec .resetRelease s =
      .next (((s.modRstc fun r => { r with inReset := none }).modBrup fun b => { b with restart := true }).startStage 5 0) := by
  simp only [exec, execResetRelease, h]

/-- What POR leaves of a clear state: the reset values. -/
theorem assertReset_por_clears (s : State) (src : BitVec 4) :
    let t := s.assertReset .por src false
    s.Only t parts15 ∧ t.rstc.inReset = some .por ∧ t.rstc.src = src ∧ t.rstc.level = 0 ∧ t.rstc.pwrgd = s.rstc.pwrgd ∧
      t.rstc.vinOk = s.rstc.vinOk ∧ t.chest = {} ∧ t.fret = {} ∧ t.tiles = [] ∧ t.tasks = [] ∧ t.scheds = [] ∧ t.mch = {} ∧
      t.sec.lc = s.fuse.lc ∧ ∀ k, (t.clus k).remap = (List.range 16).map (BitVec.ofNat 5) :=
  ⟨only_modRstc (porState_only s) (by decide), rfl, rfl, rfl, rfl, rfl, rfl, rfl, rfl, rfl, rfl, rfl, rfl, fun _ => rfl⟩

theorem keys_of_rstcReq {acc : Accessor} (h : s.mayWrite acc = true) {v : Word} (hk : v.extractLsb' 16 16 ≠ (0x5253 : BitVec 16)) (op : Nat)
    (hop : op < 4) {l : Level} (hl : opLevel op = some l) : s.accWrite acc 0x10008 (setField v 0 2 op) = s := by
  rw [accWrite_rstcReq h, writeRstcReq_eq s _ v op hop hl, if_pos hk]

/-- An orderly reset asked for by the port that holds the token, with the key. -/
theorem accWrite_rstcReq_port {p : HostPort} (ht : s.holdsToken p = true) {v : Word} (hk : v.extractLsb' 16 16 = (0x5253 : BitVec 16))
    (op : Nat) (hop : op < 4) {l : Level} (hl : opLevel op = some l) :
    s.accWrite p.accessor 0x10008 (setField v 0 2 op) = s.requestReset l (portSource p) false := by
  rw [accWrite_rstcReq (mayWrite_accessor ht), writeRstcReq_port s p v op hop hl hk]

/-- Settles O31: each source asks for its level, and each level is one rule of what it clears. -/
theorem resetsTakeTheirLevels : Obligations.ResetsTakeTheirLevels := by
  unfold Obligations.ResetsTakeTheirLevels
  refine ⟨fun s h => ?_, fun s h => ?_, fun s h => ?_, fun s ha he h => ?_, fun s p v ht hk h hr hb => ?_, fun s p v ht hk h hr => ?_,
    fun s p v ht hk h => ?_, fun s acc v hm hk => ?_, fun s o ho hl hf hw => ?_, fun s o ho hl hf hw => ?_, fun s h hs hc => ?_,
    fun s h => ?_, fun s h hc => ?_, fun s h => ?_, fun s h => ?_, fun s h => ?_, fun s h ho => ?_, fun s h => ?_,
    fun s l ha he h hl ho => ?_, fun s v hk h => ?_, fun s p v ht hr hb => ?_, fun s acc v hm => ?_, fun s h => ?_, fun s o ho h => ?_⟩
  · obtain ⟨honly, hin, hsrc, hlev, hpwr, -, hchest, hfret, htiles, htasks, hscheds, hmch, hlc, hremap⟩ :=
      assertReset_por_clears (s.modRstc fun r => { r with pwrgd := false, lockout := false }) 1
    exact ⟨_, if_neg h, (((modRstc_only ..).in (ds := parts15)).trans honly).keeps (by decide), hin, hsrc, hlev, hpwr, hchest, hfret,
      htiles, htasks, hscheds, hmch, hlc, hremap⟩
  · obtain ⟨honly, hin, hsrc, -, -, hvin, -⟩ := assertReset_por_clears (s.modRstc fun r => { r with vinOk := false }) 2
    refine ⟨_, congrArg (fun u : State => Host.Outcome.next (u.modPwr fun p => { p with domains := 0 })) (if_neg h),
      (only_modPwr (((modRstc_only ..).in (ds := parts15)).trans honly) (by decide)).keeps (by decide), hin, hsrc, hvin, rfl⟩
  · have hpor : (s.modRstc fun r => { r with sysrstLow := true }).rstc.inReset ≠ some .por := by
      intro k
      unfold State.resetLevel at h
      split at h
      · cases h
      · exact absurd (h.symm.trans k) (by decide)
    have hreq := requestReset_idle (s := s.modRstc fun r => { r with sysrstLow := true }) (l := .system) h (by simp [levelAsked_system]) 4 true
    obtain ⟨hin, hsrc, hlev, hsys, hlow, -, hfret, htiles, htasks, hscheds, hrel, hmch⟩ :=
      assertReset_system_clears (s.modRstc fun r => { r with sysrstLow := true }) 4 false
    exact ⟨_, (if_neg hpor).trans (congrArg _ hreq),
      (((modRstc_only ..).in (ds := systemParts)).trans (assertReset_system_only ..)).keeps (by decide), hin, hsrc, hlev, hsys, hlow,
      hfret, htiles, htasks, hscheds, hrel, hmch⟩
  · have hreq := requestReset_idle (s := s) (l := .system) h (by simp [levelAsked_system]) 5 true
    obtain ⟨hin, hsrc, hlev, -⟩ := assertReset_system_clears s 5 false
    exact ⟨_, (if_pos ⟨ha, he⟩).trans (congrArg _ hreq), (assertReset_system_only ..).keeps (by decide), hin, hsrc, hlev⟩
  · have hlevel : s.levelAsked .core = .core := by simp [State.levelAsked, hr]
    have hreq := requestReset_idle h (l := .core) (fun k => hb k.2) (portSource p) false
    rw [hlevel, if_neg (by decide), hr] at hreq
    obtain ⟨honly, hab, o, ho, hl, hsrc, hask, hprom⟩ := startOrderly_waits s .core (portSource p) false
    exact ⟨_, congrArg Host.Outcome.next ((accWrite_rstcReq_port ht hk 1 (by decide) rfl).trans hreq), honly, hab, o, ho, hl, hask, hprom, hsrc⟩
  · have hlevel : s.levelAsked .core = .system := by simp [State.levelAsked, hr]
    have hreq := requestReset_idle h (l := .core) (by simp [hlevel]) (portSource p) false
    rw [hlevel, if_neg (by decide), hr] at hreq
    obtain ⟨honly, -, o, ho, hl, -, -, hprom⟩ := startOrderly_waits s .system (portSource p) true
    exact ⟨_, congrArg Host.Outcome.next ((accWrite_rstcReq_port ht hk 1 (by decide) rfl).trans hreq), honly, o, ho, hl, hprom⟩
  · have hreq := requestReset_idle h (l := .system) (by simp [levelAsked_system]) (portSource p) false
    obtain ⟨honly, hab, o, ho, hl, hsrc, -⟩ := startOrderly_waits s .system (portSource p) false
    exact ⟨_, congrArg Host.Outcome.next ((accWrite_rstcReq_port ht hk 2 (by decide) rfl).trans hreq), honly, hab, o, ho, hl, hsrc⟩
  · exact ⟨congrArg Host.Outcome.next (keys_of_rstcReq hm hk 2 (by decide) rfl), congrArg Host.Outcome.next (keys_of_rstcReq hm hk 1 (by decide) rfl)⟩
  · have hexec : exec .orderlyResetAssert s = .next (s.assertReset .core o.src o.promoted) := by
      simp only [exec, execOrderlyResetAssert, ho]
      rw [if_pos ⟨.inl hf, hw⟩, hl]
    obtain ⟨hrstc, hfret, hready, hbusy⟩ := coreEffect_leaves (s.record .reset [BitVec.ofNat 32 (2 + o.src.toNat * 256)])
    have hrec := record_only s .reset [BitVec.ofNat 32 (2 + o.src.toNat * 256)]
    rw [hrec.rstc] at hrstc
    rw [hrec.fret] at hfret
    have honly := assertReset_core_only s o.src o.promoted
    rw [assertReset_core] at hexec honly
    refine ⟨_, hexec, honly.keeps (by decide), hfret, hready, fun n => ?_, ?_⟩
    · rw [task_congr (State.modRstc_tasks ..)]
      exact hbusy n
    · exact congrArg (fun r : RstcSt => { r with
        src := o.src, level := 2, promoted := o.promoted, core := satAdd r.core 1, inReset := some .core
        orderly := none, blks := [] }) hrstc
  · have hexec : exec .orderlyResetAssert s = .next (s.assertReset .system o.src o.promoted) := by
      simp only [exec, execOrderlyResetAssert, ho]
      rw [if_pos ⟨.inl hf, hw⟩, hl]
    obtain ⟨hin, hsrc, -, -, -, hord, hfret, -, htasks, -⟩ := assertReset_system_clears s o.src o.promoted
    exact ⟨_, hexec, (assertReset_system_only ..).keeps (by decide), hin, hsrc, hord, hfret, htasks⟩
  · obtain ⟨honly, hrstc, hst, hcur⟩ := startBu0_starts s
    refine ⟨_, ?_, honly, hrstc, hst, hcur⟩
    simp only [exec, execResetRelease, h]
    rw [if_neg (by simp [hs, hc])]
  · exact ⟨_, execResetRelease_core h, only_startStage (only_modBrup ((modRstc_only ..).in) (by decide)) (by decide), rfl, rfl, rfl, rfl⟩
  · obtain ⟨honly, hrstc, hst, -⟩ := startBu0_starts (s.modRstc fun r => { r with sysrstLow := false })
    exact ⟨_, if_pos ⟨h, hc⟩, ((modRstc_only ..).in).trans honly, hrstc, hst⟩
  · exact if_neg fun k => h.elim (fun g => g k.1) (fun g => g k.2)
  · simp only [exec, execResetRelease]
    rcases h with h | h | ⟨h, hh⟩ <;> rw [h]
    exact if_pos hh
  · exact ⟨if_pos h, if_pos h, congrArg (fun u : State => Host.Outcome.next (u.modPwr fun p => { p with domains := 0 })) (if_pos h)⟩
  · have hsys : (s.modRstc fun r => { r with sysrstLow := true }).rstc.inReset = some .system := h
    refine (if_neg (by rw [hsys]; decide)).trans (congrArg _ ?_)
    exact requestReset_system_absorbed hsys (by decide) ho 4 true
  · exact if_neg (by rcases h with h | h <;> simp [h])
  · exact (if_pos ⟨ha, he⟩).trans (congrArg _ (requestReset_system_absorbed h hl ho 5 true))
  · have hw : s.accWrite .mc 0x10008 (setField v 0 2 2) = s.freeVal.2.requestReset .system (s.freeVal.1.setWidth 4) false := by
      rw [accWrite_rstcReq rfl, writeRstcReq_eq s _ v 2 (by decide) rfl, if_neg (not_not_intro hk), if_pos ⟨rfl, rfl⟩]
    have hreq := requestReset_idle (s := s.freeVal.2) (l := .system) h (by simp [levelAsked_system]) (s.freeVal.1.setWidth 4) false
    obtain ⟨honly, hab, o, ho, hl, -, hask, -⟩ := startOrderly_waits s.freeVal.2 .system (s.freeVal.1.setWidth 4) false
    exact ⟨_, congrArg Host.Outcome.next (hw.trans hreq), (only_freeVal (.refl s _) (by decide)).trans (honly.in), AllAborted_of (u := s.freeVal.2) rfl hab, o, ho, hl, hask⟩
  · refine congrArg Host.Outcome.next ?_
    rw [accWrite_rstcReq (mayWrite_accessor ht), writeRstcReq_eq s _ v 1 (by decide) rfl]
    split
    · rfl
    · rw [if_neg (by cases p <;> simp [HostPort.accessor])]
      unfold State.requestReset
      simp [hr, hb]
  · exact ⟨congrArg Host.Outcome.next (accWrite_rstcReq_denied hm _), congrArg Host.Outcome.next (accWrite_rstcReq_denied hm _)⟩
  · simp only [exec, execOrderlyResetAssert, h]
  · simp only [exec, execOrderlyResetAssert, ho]
    refine if_neg fun k => ?_
    rcases h with ⟨hlt, hst⟩ | hw
    · exact k.1.elim (fun g => by omega) hst
    · rw [hw] at k; exact absurd k.2 (by decide)

/-! ### Supplies -/

theorem bringUpDomains_on (h : s.rstc.pwrgd = true) (hv : s.rstc.vinOk = true) :
    s.bringUpDomains = s.modPwr fun p => { p with domains := if s.gov.thermtrip then 0xFC0000 else 0xFF0000 } :=
  if_pos ⟨h, hv⟩

theorem bringUpDomains_off (h : s.rstc.pwrgd = false ∨ s.rstc.vinOk = false) : s.bringUpDomains = s :=
  if_neg (by rcases h with h | h <;> simp [h])

/-- The pin is set, and the partitions lose power. -/
def State.tripped (s : State) : State :=
  (s.modGov fun g => { g with thermtrip := true }).modPwr fun p => { p with domains := p.domains &&& 0xFC0000 }

/-- The fatal record, and the entries whose domains are gone. -/
def State.tripRecord (s : State) (sensor temp : Word) : State :=
  ((s.record .thermTrip [sensor, temp]).each (List.range 16) fun s p => s.loseEntries (.part p)).loseEntries .spines

/-- THERMAL_TRIP acts at 115 °C, once, outside POR: the copies of the Chest it starts reach no supply. -/
theorem execThermalTrip_trips {sensor temp : Word} (ht : 115 ≤ temp.toNat) (hg : s.gov.thermtrip = false)
    (hp : s.rstc.inReset ≠ some .por) :
    ∃ t, exec (.thermalTrip sensor temp) s = .next t ∧ s.Only t [.flash, .top, .pwr, .gov, .chest, .out] ∧
      t.gov = { s.gov with thermtrip := true } ∧ t.pwr = { s.pwr with domains := s.pwr.domains &&& 0xFC0000 } := by
  have hcond : ¬ (temp.toNat < 115 ∨ s.gov.thermtrip = true ∨ s.rstc.inReset = some .por) := by
    rw [hg]
    rintro (h | h | h)
    · omega
    · exact absurd h (by decide)
    · exact hp h
  have hb : s.Only s.tripped [.gov, .pwr] := only_modPwr ((modGov_only ..).in) (by decide)
  have hd : s.tripped.Only (s.tripped.tripRecord sensor temp) [.chest] :=
    only_loseEntries (only_each (only_record (.refl _ _) (by decide)) fun _ _ h => only_loseEntries h (by decide)) (by decide)
  have ht : s.tripped.Only (State.copyRequest (State.placeAll (s.tripped.tripRecord sensor temp).chest.intake.length
      (s.tripped.tripRecord sensor temp)) 4) [.flash, .top, .chest, .out] :=
    only_copyRequest (only_placeAll (hd.in) (by decide)) (by decide)
  exact ⟨_, if_neg hcond, (hb.in).trans (ht.in), ht.gov, ht.pwr⟩

/-- Settles O32: each event acts in the state that the spec names for it and in no other. -/
theorem suppliesBringUpAndTrip : Obligations.SuppliesBringUpAndTrip := by
  unfold Obligations.SuppliesBringUpAndTrip
  refine ⟨fun s hr hp hv => ?_, fun s hot hr hp hv hl hh => ?_, fun s hot hr hp hv hl hh => ?_, fun s hv hp => ?_,
    fun s h => if_pos h, fun s sensor temp ht hg hp => execThermalTrip_trips ht hg hp, fun s reg h => ?_, fun s reg hot h => ?_,
    fun s h => ?_, fun s hr hp hv => ?_, fun s h => if_pos h, fun s hv hp => ?_, fun s h => if_neg (by simp [h]),
    fun s sensor temp h => if_pos h⟩
  · refine (if_pos ⟨hr, hp⟩).trans (congrArg Host.Outcome.next
      (bringUpDomains_on (s := s.modRstc fun r => { r with pwrgd := true }) rfl hv))
  · have hhold : ¬ (s.gov.thermtrip = true ∧ hot = true) := fun k => by rw [hh k.1] at k; exact absurd k.2 (by decide)
    have hexec : exec (.porRelease ⟨true, hot⟩) s = _ :=
      (if_neg (by simp [hr, hp, hv, hl])).trans ((if_neg hhold).trans (if_neg Bool.noConfusion))
    exact ⟨_, hexec, only_startBu0 (only_modPwr (only_modGov ((modRstc_only ..).in) (by decide)) (by decide)) (by decide),
      rfl, rfl, rfl, rfl, rfl⟩
  · have hhold : ¬ (s.gov.thermtrip = true ∧ hot = true) := fun k => by rw [hh k.1] at k; exact absurd k.2 (by decide)
    exact (if_neg (by simp [hr, hp, hv, hl])).trans ((if_neg hhold).trans (if_pos rfl))
  · exact (if_neg (by simp [hv])).trans (congrArg Host.Outcome.next
      (bringUpDomains_on (s := s.modRstc fun r => { r with vinOk := true }) hp rfl))
  · show execPorRelease ⟨reg, true⟩ s = .next s
    unfold execPorRelease
    split
    · rfl
    · exact if_pos ⟨h, rfl⟩
  · exact if_pos h
  · exact if_neg (by rcases h with h | h <;> simp [h])
  · exact (if_pos ⟨hr, hp⟩).trans (congrArg Host.Outcome.next
      (bringUpDomains_off (s := s.modRstc fun r => { r with pwrgd := true }) (.inr hv)))
  · exact (if_neg (by simp [hv])).trans (congrArg Host.Outcome.next
      (bringUpDomains_off (s := s.modRstc fun r => { r with vinOk := true }) (.inl hp)))

end Sys2Proof.Machine
end

section
/-!
PROOFS. Reading rules for the tables of units: what a change of one unit leaves of each, and what a fold that visits units sets.
-/

set_option Elab.async false

namespace Sys2Proof.Machine

theorem updTile_tile (s : State) (n m : Nat) (f : TileSt → TileSt) :
    (s.updTile n f).tile m = if m = n then f (s.tile n) else s.tile m := Tab.get_upd ..

theorem updPart_part (s : State) (n m : Nat) (f : PartSt → PartSt) :
    (s.updPart n f).part m = if m = n then f (s.part n) else s.part m := Tab.get_upd ..

theorem updFab_fab (s : State) (n m : Nat) (f : FabSt → FabSt) :
    (s.updFab n f).fab m = if m = n then f (s.fab n) else s.fab m := Tab.get_upd ..

theorem updCtx_ctx (s : State) (n m : Nat) (f : CtxSt → CtxSt) :
    (s.updCtx n f).ctx m = if m = n then f (s.ctx n) else s.ctx m := Tab.get_upd ..

theorem updConn_conn (s : State) (n m : Nat) (f : ConnSt → ConnSt) :
    (s.updConn n f).conn m = if m = n then f (s.conn n) else s.conn m := Tab.get_upd ..

theorem updSession_session (s : State) (n m : Nat) (f : SessSt → SessSt) :
    (s.updSession n f).session m = if m = n then f (s.session n) else s.session m := Tab.get_upd ..

theorem updPool_pool (s : State) (n m : Nat) (f : PoolSt → PoolSt) :
    (s.updPool n f).pool m = if m = n then f (s.pool n) else s.pool m := Tab.get_upd ..

theorem updDig_dig (s : State) (n m : Nat) (f : DigSt → DigSt) :
    (s.updDig n f).dig m = if m = n then f (s.dig n) else s.dig m := Tab.get_upd ..

theorem setPartMode_partMode (s : State) (n m : Nat) (x : PartMode) :
    (s.setPartMode n x).partMode m = if m = n then x else s.partMode m := Tab.get_put ..

@[simp] theorem updTile_tile_self (s : State) (n : Nat) (f : TileSt → TileSt) : (s.updTile n f).tile n = f (s.tile n) := by
  rw [updTile_tile, if_pos rfl]

@[simp] theorem updPart_part_self (s : State) (n : Nat) (f : PartSt → PartSt) : (s.updPart n f).part n = f (s.part n) := by
  rw [updPart_part, if_pos rfl]

@[simp] theorem updFab_fab_self (s : State) (n : Nat) (f : FabSt → FabSt) : (s.updFab n f).fab n = f (s.fab n) := by
  rw [updFab_fab, if_pos rfl]

@[simp] theorem updCtx_ctx_self (s : State) (n : Nat) (f : CtxSt → CtxSt) : (s.updCtx n f).ctx n = f (s.ctx n) := by
  rw [updCtx_ctx, if_pos rfl]

@[simp] theorem updConn_conn_self (s : State) (n : Nat) (f : ConnSt → ConnSt) : (s.updConn n f).conn n = f (s.conn n) := by
  rw [updConn_conn, if_pos rfl]

@[simp] theorem updSession_session_self (s : State) (n : Nat) (f : SessSt → SessSt) :
    (s.updSession n f).session n = f (s.session n) := by
  rw [updSession_session, if_pos rfl]

@[simp] theorem updPool_pool_self (s : State) (n : Nat) (f : PoolSt → PoolSt) : (s.updPool n f).pool n = f (s.pool n) := by
  rw [updPool_pool, if_pos rfl]

@[simp] theorem updDig_dig_self (s : State) (n : Nat) (f : DigSt → DigSt) : (s.updDig n f).dig n = f (s.dig n) := by
  rw [updDig_dig, if_pos rfl]

@[simp] theorem setPartMode_partMode_self (s : State) (n : Nat) (x : PartMode) : (s.setPartMode n x).partMode n = x := by
  rw [setPartMode_partMode, if_pos rfl]

/-! ### Units are read from their tables alone -/

theorem tile_congr {s t : State} (h : t.tiles = s.tiles) (n : Nat) : t.tile n = s.tile n := by unfold State.tile; rw [h]

theorem part_congr {s t : State} (h : t.parts = s.parts) (n : Nat) : t.part n = s.part n := by unfold State.part; rw [h]

theorem fab_congr {s t : State} (h : t.fabs = s.fabs) (n : Nat) : t.fab n = s.fab n := by unfold State.fab; rw [h]

theorem ctx_congr {s t : State} (h : t.ctxs = s.ctxs) (n : Nat) : t.ctx n = s.ctx n := by unfold State.ctx; rw [h]

theorem conn_congr {s t : State} (h : t.mch = s.mch) (n : Nat) : t.conn n = s.conn n := by unfold State.conn; rw [h]

theorem queue_congr {s t : State} (h : t.mch = s.mch) (n : Nat) : t.queue n = s.queue n := by unfold State.queue; rw [h]

theorem dig_congr {s t : State} (h : t.relx = s.relx) (n : Nat) : t.dig n = s.dig n := by unfold State.dig; rw [h]

theorem partMode_congr {s t : State} (h : t.healx = s.healx) (n : Nat) : t.partMode n = s.partMode n := by
  unfold State.partMode; rw [h]

theorem role_congr {s t : State} (h : t.healx = s.healx) (n : Nat) : t.role n = s.role n := by unfold State.role; rw [h]

/-- A property that every step keeps stands after a fold. -/
theorem State.each_keeps {α : Type} {f : State → α → State} {P : State → Prop} (hkeep : ∀ u x, P u → P (f u x)) (xs : List α) {s : State}
    (h : P s) : P (s.each xs f) := by
  induction xs generalizing s with
  | nil => exact h
  | cons x xs ih => exact ih (hkeep s x h)

/-- A fold whose every step sets a property of the unit it visits, and keeps it of the others, sets it of all of them. -/
theorem State.each_sets {α : Type} {f : State → α → State} {P : State → α → Prop} (hset : ∀ u x, P (f u x) x)
    (hkeep : ∀ u x y, P u y → P (f u x) y) (xs : List α) (s : State) : ∀ x ∈ xs, P (s.each xs f) x := by
  induction xs generalizing s with
  | nil => exact fun _ h => absurd h List.not_mem_nil
  | cons y ys ih =>
    intro x hx
    rcases List.mem_cons.mp hx with rfl | hx
    · exact State.each_keeps (P := (P · x)) (fun u y => hkeep u y x) ys (hset s x)
    · exact ih _ x hx

end Sys2Proof.Machine
end

section
/-!
PROOFS. Block resets (12 R598 to R604): O33.
-/

set_option Elab.async false

namespace Sys2Proof.Machine

variable {s : State}

/-! ### What a block's reset does to its tiles and contexts -/

/-- The end of an arbitration is the release of its tile. -/
theorem endArb_tile (s : State) (pt k : Nat) (verdict : BitVec 3) :
    (s.endArb pt verdict).tile k =
      if k = pt then { s.tile pt with capture := none, mode := if (s.tile pt).mode = .test then .idle else (s.tile pt).mode }
      else s.tile k := by
  unfold State.endArb
  extract_lets task a b
  rw [tile_congr (retryReport_only ..).tiles]
  exact updTile_tile ..

theorem holdTile_inReset (s : State) (pt k : Nat) : ((s.holdTile pt).tile k).inReset = true ↔ k = pt ∨ (s.tile k).inReset = true := by
  unfold State.holdTile State.resetTile
  rw [updTile_tile]
  split
  · next h => simp [h]
  · next h =>
    rw [State.when_read (fun s => s.tile k), endArb_tile, if_neg h]
    have hrec : s.Only ((s.modRel fun r => { r with abandoned := satAdd r.abandoned 1 }).arbLast pt 6 true) [.rel] :=
      only_arbLast ((modRel_only ..).in) (by decide)
    rw [tile_congr (recordAt_only ..).tiles, tile_congr hrec.tiles, ite_self]
    simp [h]

/-- A fold that holds tiles holds each of them. -/
theorem each_holdTile (pts : List Nat) (s : State) : ∀ pt ∈ pts, ((s.each pts (·.holdTile ·)).tile pt).inReset = true :=
  State.each_sets (P := fun u pt => (u.tile pt).inReset = true) (fun u pt => (holdTile_inReset u pt pt).mpr (.inl rfl))
    (fun u pt k h => (holdTile_inReset u pt k).mpr (.inr h)) pts s

/-- An engine that is reset has idle contexts alone. -/
theorem resetEngine_idle (s : State) (c k : Nat) (h : k / 64 = c) : ((s.resetEngine c).ctx k).state = .idle := by
  have hnone : ∀ t : Tab CtxSt, Tab.get ({} : CtxSt) (t.filter fun e => decide (e.1 / 64 ≠ c)) k = {} := by
    intro t
    induction t with
    | nil => rfl
    | cons x t ih =>
      rw [List.filter_cons]
      split
      · next hx =>
        rw [Tab.get, if_neg (fun e => by subst e; simp [h] at hx)]
        exact ih
      · exact ih
  exact congrArg CtxSt.state (hnone _)

/-- A task that is armed or runs is known. -/
theorem find_of_busy {n : BitVec 32} (h : (s.task n).busy = true) : (Tab.find s.tasks n.toNat).isSome = true := by
  cases e : Tab.find s.tasks n.toNat with
  | some _ => rfl
  | none =>
    have hdef : s.task n = {} := Tab.get_of_find_none ({} : TaskRt) e
    rw [hdef] at h
    exact absurd h (by decide)

/-- A cause found for a task that is armed or runs aborts it. -/
theorem detect_busy {n : BitVec 32} (h : (s.task n).busy = true) (st : Status) : ((s.detect n st).task n).abort.isSome = true := by
  have hc : (s.task n).phase ≠ .committed := fun e => by unfold TaskRt.busy at h; rw [e] at h; exact absurd h (by decide)
  have hs : (s.task n).phase ≠ .stopped := fun e => by unfold TaskRt.busy at h; rw [e] at h; exact absurd h (by decide)
  rw [detect_task, if_pos ⟨rfl, find_of_busy h, hc, hs⟩, abort_concat (s.task n) _ _ rfl]
  rfl

/-- A cause found for each of a list of tasks aborts those that are armed or run. -/
theorem each_detect_busy (st : Status) (ns : List (BitVec 32)) (s : State) :
    ∀ n ∈ ns, (s.task n).busy = true → ((s.each ns fun s n => s.detect n st).task n).abort.isSome = true := by
  induction ns generalizing s with
  | nil => exact fun _ h => absurd h List.not_mem_nil
  | cons m ns ih =>
    intro n hn hb
    rcases List.mem_cons.mp hn with rfl | hn
    · exact ((State.MoreAborts.refl _).each ns fun v x => detect_moreAborts v x st).abort n (detect_busy hb st)
    · exact ih _ n hn ((TaskRt.busy_congr (detect_phase s m n st)).trans hb)

theorem busy_of_tasksOnClus {c : Nat} {n : BitVec 32} (h : n ∈ s.tasksOnClus c) : (s.task n).busy = true := by
  have := (List.mem_filter.mp h).2
  simp only [Bool.and_eq_true] at this
  exact this.1

theorem busy_of_tasksOnLt {lt : Nat} {n : BitVec 32} (h : n ∈ s.tasksOnLt lt) : (s.task n).busy = true := by
  have := (List.mem_filter.mp h).2
  simp only [Bool.and_eq_true] at this
  exact this.1

/-- A block reset of level 0 resets its tile. -/
theorem blkReset_tile (s : State) (target : Nat) :
    s.Only (s.blkReset 0 target) [.rel, .relx, .chest, .mch, .tiles, .out] ∧ ((s.blkReset 0 target).tile target).inReset = true :=
  ⟨only_holdTile ((loseEntries_only ..).in) (by decide), (holdTile_inReset _ target target).mpr (.inl rfl)⟩

/-- One of level 1 resets the tiles and the stream engine of its cluster. -/
theorem blkReset_clus (s : State) (target : Nat) :
    s.Only (s.blkReset 1 target) [.rel, .relx, .chest, .mch, .parts, .cluss, .tiles, .ctxs, .out] ∧
      (∀ pt ∈ clusTiles target, ((s.blkReset 1 target).tile pt).inReset = true) ∧
      ∀ k, k / 64 = target → ((s.blkReset 1 target).ctx k).state = .idle := by
  refine ⟨only_resetEngine (only_each ((loseEntries_only ..).in) fun _ _ h => only_holdTile h (by decide)) (by decide), fun pt hpt => ?_,
    fun k hk => resetEngine_idle _ target k hk⟩
  show ((State.resetEngine _ target).tile pt).inReset = true
  rw [tile_congr (resetEngine_only ..).tiles]
  exact each_holdTile _ _ pt hpt

/-- One of level 2 discards the requests of its partition, and puts its stacks into self-refresh. -/
theorem blkReset_part (s : State) (target : Nat) :
    s.Only (s.blkReset 2 target) [.bist, .rel, .relx, .chest, .mch, .parts, .cluss, .tiles, .ctxs, .latches, .out] ∧
      ((s.blkReset 2 target).part target).hbm = .selfRefresh ∧ ((s.blkReset 2 target).part target).queue = [] := by
  refine ⟨blkReset_only s 2 target, ?_, ?_⟩
  · exact (congrArg PartSt.hbm (updPart_part_self ..)).trans rfl
  · exact (congrArg PartSt.queue (updPart_part_self ..)).trans rfl

/-- The recovery of a partition that runs and is powered: RESET, with its stacks in self-refresh. -/
theorem startRecovery_starts {p : Nat} (hm : s.partMode p = .run) (hp : s.parked p = false) :
    (s.startRecovery p).partMode p = .reset ∧ ((s.startRecovery p).part p).hbm = .selfRefresh := by
  unfold State.startRecovery
  rw [if_neg (by rw [hm, hp]; decide)]
  extract_lets a b c d e f
  have hb : a.Only b [.tasks, .chest] := only_each (.refl _ _) fun _ _ h => only_detect h (by decide)
  have hd : b.Only d [.tiles, .mch, .parts] :=
    only_lpInvalidate (only_fenceQueues ((modTiles_only ..).in) (by decide)) (by decide)
  have he : d.Only e [.chest, .spn, .tasks] := only_each (.refl _ _) fun _ _ h => only_cutLeaving h (by decide)
  have hf : e.Only f [.mch, .out, .parts] := only_updPart ((closeFolds_only ..).in) (by decide)
  have hhealx : f.healx = a.healx := hf.healx.trans (he.healx.trans (hd.healx.trans hb.healx))
  constructor
  · rw [partMode_congr (recordAt_only ..).healx, partMode_congr hhealx]
    exact setPartMode_partMode_self s p .reset
  · rw [part_congr (recordAt_only ..).parts]
    exact (congrArg PartSt.hbm (updPart_part_self ..)).trans rfl

/-! ### RSTC_BLK -/

/-- The level and the target that a word of RSTC_BLK names. -/
def blkLevel (v : Word) : Nat := (v.extractLsb' 28 2 : BitVec 2).toNat
def blkTarget (v : Word) : Nat := (v.extractLsb' 0 12 : BitVec 12).toNat

theorem accWrite_rstcBlk {acc : Accessor} (h : s.mayWrite acc = true) (v : Word) : s.accWrite acc 0x10010 v = s.writeRstcBlk v :=
  accWrite_may (b := .rstc) (o := 0x010) rfl rfl rfl rfl h

theorem accWrite_rstcBlk_denied {acc : Accessor} (h : s.mayWrite acc = false) (v : Word) : s.accWrite acc 0x10010 v = s.denyWrite := by
  refine accWrite_denied (b := .rstc) (o := 0x010) rfl rfl rfl rfl ?_
  cases acc with
  | mc => exact absurd h (by simp [State.mayWrite])
  | portA => exact writeDenied_of_noToken (p := .a) h rfl
  | portB => exact writeDenied_of_noToken (p := .b) h rfl

/-- What RSTC_BLK reports of a request that it refuses. -/
def State.blkRefused (s : State) (c : BitVec 8) : State := s.modRstc fun r => { r with blkResult := c }

/-- A block of a level is idle enough for maintenance. -/
def State.blkIdle (s : State) : Nat → Nat → Bool
  | 0, target => s.tileIdle target
  | 1, target => s.clusIdle target
  | _, target => s.partIdle target && decide (s.partMode target = .run)

/-- A maintenance request, and a recovery request, of RSTC_BLK. -/
theorem writeRstcBlk_maintenance (s : State) (v : Word) :
    s.writeRstcBlk (setField v 30 2 1) = match s.blkRefusal (blkLevel v) (blkTarget v) with
      | some c => s.blkRefused c
      | none =>
        if s.blkIdle (blkLevel v) (blkTarget v) then (s.addBlk (blkLevel v) (blkTarget v) false).blkReset (blkLevel v) (blkTarget v)
        else s.blkRefused 1 := by
  unfold State.writeRstcBlk
  simp only [extract_setField_self v (lo := 30) (w := 2) (op := 1) (by decide) (by decide),
    extract_setField v (lo := 30) (w := 2) (op := 1) (i := 28) (n := 2) (by decide) (by decide) (by decide),
    extract_setField v (lo := 30) (w := 2) (op := 1) (i := 0) (n := 12) (by decide) (by decide) (by decide)]
  unfold blkLevel blkTarget
  rw [if_neg (by decide)]
  cases s.blkRefusal (v.extractLsb' 28 2 : BitVec 2).toNat (v.extractLsb' 0 12 : BitVec 12).toNat with
  | some c => rfl
  | none =>
    generalize (v.extractLsb' 28 2 : BitVec 2).toNat = l
    match l with
    | 0 | 1 | _ + 2 => rfl

theorem writeRstcBlk_recovery (s : State) (v : Word) :
    s.writeRstcBlk (setField v 30 2 2) = match s.blkRefusal (blkLevel v) (blkTarget v) with
      | some c => s.blkRefused c
      | none => match blkLevel v with
        | 0 =>
          let s := match s.ltOf (blkTarget v) with
            | some lt => s.each (s.tasksOnLt lt) fun s n => s.detect n .nakFenced
            | none => s
          (s.addBlk 0 (blkTarget v) true).blkReset 0 (blkTarget v)
        | 1 =>
          let s := s.each (s.tasksOnClus (blkTarget v)) fun s n => s.detect n .nakFenced
          ((s.addBlk 1 (blkTarget v) true).cutLeaving (blkTarget v) [4, 5]).blkReset 1 (blkTarget v)
        | l => if s.partMode (blkTarget v) = .run then (s.addBlk l (blkTarget v) true).startRecovery (blkTarget v) else s.blkRefused 4 := by
  unfold State.writeRstcBlk
  simp only [extract_setField_self v (lo := 30) (w := 2) (op := 2) (by decide) (by decide),
    extract_setField v (lo := 30) (w := 2) (op := 2) (i := 28) (n := 2) (by decide) (by decide) (by decide),
    extract_setField v (lo := 30) (w := 2) (op := 2) (i := 0) (n := 12) (by decide) (by decide) (by decide)]
  unfold blkLevel blkTarget
  rw [if_neg (by decide)]
  cases s.blkRefusal (v.extractLsb' 28 2 : BitVec 2).toNat (v.extractLsb' 0 12 : BitVec 12).toNat with
  | some c => rfl
  | none =>
    generalize (v.extractLsb' 28 2 : BitVec 2).toNat = l
    match l with
    | 0 | 1 | _ + 2 => rfl

theorem execBlkMaintenanceReset_eq {acc : Accessor} (h : s.mayWrite acc = true) (v : Word) :
    exec (.blkMaintenanceReset acc v) s = .next (s.writeRstcBlk (setField v 30 2 1)) :=
  congrArg Host.Outcome.next (accWrite_rstcBlk h _)

theorem execBlkRecoveryReset_eq {acc : Accessor} (h : s.mayWrite acc = true) (v : Word) :
    exec (.blkRecoveryReset acc v) s = .next (s.writeRstcBlk (setField v 30 2 2)) :=
  congrArg Host.Outcome.next (accWrite_rstcBlk h _)

/-- A maintenance request of a block that is idle, and of one that is not. -/
theorem execBlkMaintenanceReset_idle {acc : Accessor} (h : s.mayWrite acc = true) {v : Word} {l : Nat} (hl : blkLevel v = l)
    (hr : s.blkRefusal l (blkTarget v) = none) (hi : s.blkIdle l (blkTarget v) = true) :
    exec (.blkMaintenanceReset acc v) s = .next ((s.addBlk l (blkTarget v) false).blkReset l (blkTarget v)) := by
  subst hl
  rw [execBlkMaintenanceReset_eq h, writeRstcBlk_maintenance, hr]
  exact congrArg Host.Outcome.next (if_pos hi)

theorem execBlkMaintenanceReset_busy {acc : Accessor} (h : s.mayWrite acc = true) {v : Word} {l : Nat} (hl : blkLevel v = l)
    (hr : s.blkRefusal l (blkTarget v) = none) (hi : s.blkIdle l (blkTarget v) = false) :
    exec (.blkMaintenanceReset acc v) s = .next (s.blkRefused 1) := by
  subst hl
  rw [execBlkMaintenanceReset_eq h, writeRstcBlk_maintenance, hr]
  exact congrArg Host.Outcome.next (if_neg (by simp [hi]))

/-- A request that is taken names a partition that is not parked. -/
theorem parked_of_blkRefusal {target : Nat} (h : s.blkRefusal 2 target = none) : s.parked target = false := by
  cases hp : s.parked target with
  | false => rfl
  | true =>
    have hsome : ∀ (a b c : Prop) [Decidable a] [Decidable b] [Decidable c] (y : Option (BitVec 8)), c →
        (if a then some 5 else if b then some 2 else if c then some 3 else y) ≠ none := by
      intro a b c _ _ _ y hc
      rw [if_pos hc]
      split
      · exact nofun
      · split <;> exact nofun
    exact absurd h (hsome _ _ _ _ (Or.inl hp))

/-- A recovery request that is taken, at each level. -/
theorem execBlkRecoveryReset_tile {acc : Accessor} (h : s.mayWrite acc = true) {v : Word} (hl : blkLevel v = 0)
    (hr : s.blkRefusal 0 (blkTarget v) = none) :
    exec (.blkRecoveryReset acc v) s = .next (((match s.ltOf (blkTarget v) with
      | some lt => s.each (s.tasksOnLt lt) fun s n => s.detect n .nakFenced
      | none => s).addBlk 0 (blkTarget v) true).blkReset 0 (blkTarget v)) := by
  rw [execBlkRecoveryReset_eq h, writeRstcBlk_recovery, hl, hr]
  rfl

theorem execBlkRecoveryReset_clus {acc : Accessor} (h : s.mayWrite acc = true) {v : Word} (hl : blkLevel v = 1)
    (hr : s.blkRefusal 1 (blkTarget v) = none) :
    exec (.blkRecoveryReset acc v) s = .next ((((s.each (s.tasksOnClus (blkTarget v)) fun s n => s.detect n .nakFenced).addBlk 1
      (blkTarget v) true).cutLeaving (blkTarget v) [4, 5]).blkReset 1 (blkTarget v)) := by
  rw [execBlkRecoveryReset_eq h, writeRstcBlk_recovery, hl, hr]
  rfl

theorem execBlkRecoveryReset_part {acc : Accessor} (h : s.mayWrite acc = true) {v : Word} (hl : blkLevel v = 2)
    (hr : s.blkRefusal 2 (blkTarget v) = none) (hrun : s.partMode (blkTarget v) = .run) :
    exec (.blkRecoveryReset acc v) s = .next ((s.addBlk 2 (blkTarget v) true).startRecovery (blkTarget v)) := by
  rw [execBlkRecoveryReset_eq h, writeRstcBlk_recovery, hl, hr]
  exact congrArg Host.Outcome.next (if_pos hrun)

/-! ### The end of a block reset -/

/-- Tiles that return to service: every word of their SRAM is zero. -/
def State.serve (s : State) (pts : List Nat) : State := s.each pts fun s pt => s.updTile pt fun t => { t with inReset := false, sram := [] }

theorem serve_tiles (s : State) (pts : List Nat) :
    s.Only (s.serve pts) [.tiles] ∧ ∀ pt ∈ pts, ((s.serve pts).tile pt).inReset = false ∧ ((s.serve pts).tile pt).sram = [] := by
  refine ⟨only_each (.refl _ _) fun _ _ h => only_updTile h (by decide), ?_⟩
  refine State.each_sets (P := fun u pt => (u.tile pt).inReset = false ∧ (u.tile pt).sram = []) (fun u pt => ?_) (fun u pt k h => ?_) pts s
  · rw [updTile_tile_self]; exact ⟨rfl, rfl⟩
  · rw [updTile_tile]
    split
    · exact ⟨rfl, rfl⟩
    · exact h

/-- The block is no longer listed. -/
def State.dropBlk (s : State) (level : BitVec 2) (target : Nat) : State :=
  s.modRstc fun r =>
    { r with blkResult := 0, blks := r.blks.filter fun b => !(decide (b.level = level) && decide (b.target = target)) }

theorem execBlkResetDone_eq {level : BitVec 2} {target : Nat}
    (h : (s.rstc.blks.any fun b => decide (b.level = level) && decide (b.target = target)) = true)
    (hp : level = 2 → s.partMode target ≠ .reset) :
    exec (.blkResetDone level target) s = match level.toNat with
      | 0 => .next ((s.dropBlk level target).serve [target])
      | 1 => .next ((s.dropBlk level target).serve (clusTiles target))
      | _ => .next ((((s.dropBlk level target).serve (partTiles target)).updPart target fun q => { q with hbm := .active }).unfenceQueues
          target) :=
  if_neg (by
    rw [h]
    rintro (k | ⟨k, m⟩)
    · exact absurd k (by decide)
    · exact hp k m)

/-- Settles O33: a request is refused, or one rule per level says what it resets; the end of a reset is the tiles' return. -/
theorem blocksReset : Obligations.BlocksReset := by
  unfold Obligations.BlocksReset
  have hlevel : ∀ {v : Word} {l : Nat} {x : BitVec 2}, (v.extractLsb' 28 2 : BitVec 2) = x → x.toNat = l → blkLevel v = l :=
    fun h hl => (congrArg BitVec.toNat h).trans hl
  refine ⟨fun s acc v hm hl hr hi => ?_, fun s acc v hm hl hr hi => ?_, fun s acc v c hm hr => ?_, fun s acc v hm hl hr => ?_,
    fun s target h => ?_, fun s target h => ?_, fun s target h hp => ?_, fun s level target h => ?_, fun s acc v hm hl hr => ?_,
    fun s acc v hm hl hr hrun => ?_, fun s acc v hm hl hr => ?_, fun s acc v hm => ?_⟩
  · obtain ⟨honly, hin⟩ := blkReset_tile (s.addBlk 0 (blkTarget v) false) (blkTarget v)
    exact ⟨_, execBlkMaintenanceReset_idle hm (hlevel hl rfl) hr hi, ((modRstc_only ..).in).trans (honly.in), honly.rstc, hin⟩
  · exact execBlkMaintenanceReset_busy hm (hlevel hl rfl) hr hi
  · rw [execBlkMaintenanceReset_eq hm, execBlkRecoveryReset_eq hm, writeRstcBlk_maintenance, writeRstcBlk_recovery]
    change s.blkRefusal (blkLevel v) (blkTarget v) = some c at hr
    rw [hr]
    exact ⟨rfl, rfl⟩
  · change s.blkRefusal 1 (blkTarget v) = none at hr
    have hexec := execBlkRecoveryReset_clus hm (hlevel hl rfl) hr
    have hd : s.Only (s.each (s.tasksOnClus (blkTarget v)) fun s n => s.detect n .nakFenced) [.chest, .tasks] :=
      only_each (.refl _ _) fun _ _ h => only_detect h (by decide)
    have hc : s.Only (((s.each (s.tasksOnClus (blkTarget v)) fun s n => s.detect n .nakFenced).addBlk 1 (blkTarget v) true).cutLeaving
        (blkTarget v) [4, 5]) [.rstc, .chest, .spn, .tasks] :=
      only_cutLeaving (((hd.in).trans ((modRstc_only ..).in))) (by decide)
    obtain ⟨honly, -, hidle⟩ := blkReset_clus (((s.each (s.tasksOnClus (blkTarget v)) fun s n => s.detect n .nakFenced).addBlk 1
      (blkTarget v) true).cutLeaving (blkTarget v) [4, 5]) (blkTarget v)
    refine ⟨_, hexec, (hc.in).trans (honly.in), ?_, fun n hn => ?_, hidle⟩
    · refine honly.rstc.trans ((cutLeaving_only ..).rstc.trans ?_)
      exact congrArg (fun r : RstcSt => { r with blkResult := 0, blks := r.blks ++ [(⟨1, blkTarget v, true⟩ : BlkReset)] }) hd.rstc
    · rw [task_congr honly.tasks]
      exact (cutLeaving_moreAborts _ _ _).abort n (each_detect_busy .nakFenced _ s n hn (busy_of_tasksOnClus hn))
  · obtain ⟨honly, hserve⟩ := serve_tiles (s.dropBlk 0 target) [target]
    exact ⟨_, execBlkResetDone_eq h (fun k => absurd k (by decide)), ((modRstc_only ..).in).trans (honly.in), honly.rstc,
      hserve target List.mem_cons_self⟩
  · obtain ⟨honly, hserve⟩ := serve_tiles (s.dropBlk 1 target) (clusTiles target)
    exact ⟨_, execBlkResetDone_eq h (fun k => absurd k (by decide)), ((modRstc_only ..).in).trans (honly.in),
      congrArg RstcSt.blkResult honly.rstc, hserve⟩
  · obtain ⟨honly, hserve⟩ := serve_tiles (s.dropBlk 2 target) (partTiles target)
    have hu := unfenceQueues_only (((s.dropBlk 2 target).serve (partTiles target)).updPart target fun q => { q with hbm := .active }) target
    refine ⟨_, execBlkResetDone_eq h fun _ => hp, only_unfenceQueues (only_updPart (((modRstc_only ..).in).trans (honly.in)) (by decide))
      (by decide), congrArg RstcSt.blkResult (hu.rstc.trans ((updPart_only ..).rstc.trans honly.rstc)), ?_, fun pt hpt => ?_⟩
    · rw [part_congr hu.parts, updPart_part_self]
    · rw [tile_congr hu.tiles, tile_congr (updPart_only ..).tiles]
      exact hserve pt hpt
  · refine if_pos (h.imp (fun k => ?_) id)
    rw [k]; rfl
  · change s.blkRefusal 1 (blkTarget v) = none at hr
    refine ⟨fun hi => ?_, fun hi => execBlkMaintenanceReset_busy hm (hlevel hl rfl) hr hi⟩
    obtain ⟨honly, hin, -⟩ := blkReset_clus (s.addBlk 1 (blkTarget v) false) (blkTarget v)
    exact ⟨_, execBlkMaintenanceReset_idle hm (hlevel hl rfl) hr hi, ((modRstc_only ..).in).trans (honly.in), honly.rstc, hin⟩
  · change s.blkRefusal 2 (blkTarget v) = none at hr
    change s.partMode (blkTarget v) = .run at hrun
    refine ⟨fun hi => ?_, fun hi => ?_, ?_⟩
    · obtain ⟨honly, hhbm, hq⟩ := blkReset_part (s.addBlk 2 (blkTarget v) false) (blkTarget v)
      have hidle : s.blkIdle 2 (blkTarget v) = true := by
        show (s.partIdle (blkTarget v) && decide (s.partMode (blkTarget v) = .run)) = true
        rw [decide_eq_true hrun, Bool.and_true]; exact hi
      exact ⟨_, execBlkMaintenanceReset_idle hm (hlevel hl rfl) hr hidle, ((modRstc_only ..).in).trans (honly.in), hhbm, hq⟩
    · have hbusy : s.blkIdle 2 (blkTarget v) = false := by
        show (s.partIdle (blkTarget v) && decide (s.partMode (blkTarget v) = .run)) = false
        rw [show s.partIdle (blkTarget v) = false from hi]; rfl
      exact execBlkMaintenanceReset_busy hm (hlevel hl rfl) hr hbusy
    · have hparked : (s.addBlk 2 (blkTarget v) true).parked (blkTarget v) = false := parked_of_blkRefusal (s := s) hr
      obtain ⟨hmode, hhbm⟩ := startRecovery_starts (s := s.addBlk 2 (blkTarget v) true) (p := blkTarget v) hrun hparked
      exact ⟨_, execBlkRecoveryReset_part hm (hlevel hl rfl) hr hrun, only_startRecovery ((modRstc_only ..).in) (by decide), hmode, hhbm⟩
  · change s.blkRefusal 0 (blkTarget v) = none at hr
    refine ⟨_, execBlkRecoveryReset_tile hm (hlevel hl rfl) hr, ?_, ?_, fun lt hlt n hn => ?_⟩
    · refine only_holdTile (only_loseEntries (only_modRstc ?_ (by decide)) (by decide)) (by decide)
      split
      · exact only_each (.refl _ _) fun _ _ h => only_detect h (by decide)
      · exact .refl _ _
    · exact (blkReset_tile _ (blkTarget v)).2
    · rw [task_congr (blkReset_tile _ (blkTarget v)).1.tasks]
      change s.ltOf (blkTarget v) = some lt at hlt
      rw [hlt]
      exact each_detect_busy .nakFenced _ s n hn (busy_of_tasksOnLt hn)
  · exact ⟨congrArg Host.Outcome.next (accWrite_rstcBlk_denied hm _), congrArg Host.Outcome.next (accWrite_rstcBlk_denied hm _)⟩

end Sys2Proof.Machine
end

section
/-!
PROOFS. Records, retirement causes and fences: what each leaves of the roles, the modes and the self-test's state.
-/

set_option Elab.async false

namespace Sys2Proof.Machine

variable {s : State}

/-! ### Records -/

/-- A record that finds a place stands at the end of the intake buffer. -/
theorem recordAt_intake (t : Trigger) (east : Bool) (unit : Nat) (data : List Word)
    (hon : ((s.trig t.id).enable || alwaysOn t.id) = true) (hroom : s.chest.intake.length < 64) :
    (s.recordAt t east unit data).chest.intake = s.chest.intake ++ [⟨t.id, t.fatal, east, data, unit, s.snapList t.id, none⟩] := by
  unfold State.recordAt
  rw [if_neg (by rw [hon]; decide), if_pos hroom]
  rfl

/-- No record takes the place of one that waits. -/
theorem recordAt_prefix (s : State) (t : Trigger) (east : Bool) (unit : Nat) (data : List Word) :
    s.chest.intake <+: (s.recordAt t east unit data).chest.intake := by
  unfold State.recordAt
  split
  · exact List.prefix_rfl
  · split
    · exact List.prefix_append ..
    · exact List.prefix_rfl

/-! ### Retirement causes -/

/-- A retirement cause found in the shut-down test's second phase goes into its record; nothing else of the test changes. -/
theorem retireCause_bist (s : State) (c : BitVec 4) :
    (s.retireCause c).bist =
      { s.bist with causeFound := s.bist.causeFound || decide (s.bist.state = 1 ∧ s.bist.phase = 2) } := by
  unfold State.retireCause
  extract_lets a
  have h : ∀ u : State, u.bist = a.bist → (u.causeRecord c).bist = a.bist := fun u hu => (record_only ..).bist.trans hu
  split
  · exact h a rfl
  split
  · exact (record_only ..).bist.trans ((attn_only ..).bist.trans (h (a.setRetireFlag c) rfl))
  split
  · exact h _ rfl
  · exact h _ rfl

/-- It waits for a recovery to end, and otherwise leaves the roles, the modes and the twin. -/
theorem retireCause_healx (s : State) (c : BitVec 4) :
    (s.retireCause c).healx = { s.healx with retireWait := (s.retireCause c).healx.retireWait } := by
  have h : ∀ (u : State) (w : Option (BitVec 4)), u.healx = { s.healx with retireWait := w } →
      u.healx = { s.healx with retireWait := u.healx.retireWait } := fun u w hu => by rw [hu]
  unfold State.retireCause
  extract_lets a
  split
  · exact h _ s.healx.retireWait (record_only ..).healx
  split
  · exact h _ s.healx.retireWait ((record_only ..).healx.trans ((attn_only ..).healx.trans (record_only ..).healx))
  split
  · exact h _ (some c) (record_only ..).healx
  · exact h _ s.healx.retireWait (record_only ..).healx

/-- On a chip in service, in no test and no recovery, it starts the draining. -/
theorem retireCause_drains (hr : s.relx.retState = .none) (hw : s.healx.retireWait = none) (hready : s.top.ready = true)
    (hb : s.bist.state = 0) (hrec : s.recovering = false) (c : BitVec 4) : s.retireCause c = (s.drainNow c).causeRecord c := by
  have hbist : (s.modBist fun b => { b with causeFound := b.causeFound || decide (b.state = 1 ∧ b.phase = 2) }) = s := by
    unfold State.modBist
    have hno : decide (s.bist.state = 1 ∧ s.bist.phase = 2) = false := decide_eq_false fun k => absurd (hb.symm.trans k.1) (by decide)
    dsimp only
    rw [hno, Bool.or_false]
  unfold State.retireCause
  rw [hbist]
  dsimp only
  rw [if_neg (by rw [hr, hw]; decide), if_neg (by rw [hready, hb]; decide), if_neg (by rw [hrec]; decide)]

theorem retireCause_prefix (s : State) (c : BitVec 4) : s.chest.intake <+: (s.retireCause c).chest.intake := by
  unfold State.retireCause
  extract_lets a
  have h : ∀ u : State, u.chest = s.chest → s.chest.intake <+: (u.causeRecord c).chest.intake := fun u hu => by
    rw [← hu]; exact recordAt_prefix ..
  split
  · exact h a rfl
  split
  · refine (h (a.setRetireFlag c) rfl).trans ?_
    have hat : ((((a.setRetireFlag c).causeRecord c).modRelx fun r => { r with retState := .retired }).attn .retire).chest =
      ((a.setRetireFlag c).causeRecord c).chest := (attn_only ..).chest
    rw [← hat]
    exact recordAt_prefix ..
  split
  · exact h _ rfl
  · exact h _ rfl

/-! ### Fences -/

/-- The slots that a change of roles lost may retire the chip; the roles and the modes stand. -/
theorem lostCheck_healx (s : State) (c : Nat) (before : List Nat) :
    (s.lostCheck c before).healx = { s.healx with retireWait := (s.lostCheck c before).healx.retireWait } := by
  unfold State.lostCheck
  extract_lets lost a
  have hrec : s.Only a [.chest] := only_each (.refl _ _) fun _ _ h => only_variantRecord h (by decide)
  have ha : a.healx = s.healx := hrec.healx
  generalize (decide (lost ≠ []) && (decide (2 ≤ (a.lostSlots c).length) || decide (2 ≤ a.unabsorbed))) = go
  cases go with
  | true => rw [State.when_true, retireCause_healx, ha]
  | false => rw [State.when_false, ha]

theorem updRole_role (s : State) (n m : Nat) (f : RoleSt → RoleSt) :
    (s.updRole n f).role m = if m = n then f (s.role n) else s.role m := by
  by_cases h : m = n
  · subst h; rw [if_pos rfl]; exact (Tab.get_upd ..).trans (if_pos rfl)
  · rw [if_neg h]
    show Tab.get (roleDefault m) (Tab.put _ n _) m = Tab.get (roleDefault m) _ m
    rw [Tab.get_put, if_neg h]

/-- The fence of a tile in service: its role changes, and the slots that it lost are judged. -/
theorem fenceTile_healx {pt : Nat} (hf : (s.role pt).role ≠ .fenced) (h : s.partMode (ptPart pt) ≠ .reset) (v : Nat) :
    (s.fenceTile pt v).healx = { (s.updRole pt fun r => { r with role := .fenced, hangRemap := false }).healx with
      retireWait := (s.fenceTile pt v).healx.retireWait } := by
  unfold State.fenceTile
  extract_lets c before a b d e f
  rw [if_neg hf, if_neg h, lostCheck_healx]
  have hfe : f.healx = e.healx := (recordAt_only ..).healx
  have hed : e.healx = d.healx := (attn_only ..).healx
  rw [hfe, hed]
  rfl

/-- A fence of a tile whose partition is in no recovery fences it, and leaves every other role. -/
theorem fenceTile_role {pt : Nat} (h : s.partMode (ptPart pt) ≠ .reset) (v : Nat) :
    ((s.fenceTile pt v).role pt).role = .fenced ∧ ∀ k, k ≠ pt → (s.fenceTile pt v).role k = s.role k := by
  by_cases hf : (s.role pt).role = .fenced
  · rw [State.fenceTile, if_pos hf]; exact ⟨hf, fun _ _ => rfl⟩
  · have hrole : ∀ k, (s.fenceTile pt v).role k = (s.updRole pt fun r => { r with role := .fenced, hangRemap := false }).role k :=
      fun k => (congrArg (fun x : HealAux => Tab.get (roleDefault k) x.roles k) (fenceTile_healx hf h v)).trans rfl
    refine ⟨?_, fun k hk => ?_⟩
    · rw [hrole, updRole_role, if_pos rfl]
    · rw [hrole, updRole_role, if_neg hk]

/-- No fence changes the mode of a partition. -/
theorem fenceTile_parts (s : State) (pt v : Nat) : (s.fenceTile pt v).healx.parts = s.healx.parts := by
  by_cases hf : (s.role pt).role = .fenced
  · rw [State.fenceTile, if_pos hf]
  · by_cases h : s.partMode (ptPart pt) = .reset
    · unfold State.fenceTile
      rw [if_neg hf, if_pos h]
      rfl
    · exact (congrArg (fun x : HealAux => x.parts) (fenceTile_healx hf h v)).trans rfl

end Sys2Proof.Machine
end

section
/-!
PROOFS. The governor, budgets and clamps (13 R642 to R652): O36.
-/

set_option Elab.async false

namespace Sys2Proof.Machine

variable {s : State}

/-- A register of a block that answers does, outside the security block. -/
theorem regAnswers_of_answers {b : Block} {o : Nat} (hb : b ≠ .sec) (h : s.answers b = true) : s.regAnswers b o = true := by
  unfold State.regAnswers
  rw [h, decide_eq_true hb]
  rfl

/-! ### Requests and budgets -/

/-- The governor's request: its value and its reason; the rest of the power state stands. -/
theorem setReq_pwr (s : State) (req : Nat) (reason : BitVec 4) :
    (s.setReq req reason).pwr = { s.pwr with req := BitVec.ofNat 6 req, reason := reason } := by
  unfold State.setReq
  extract_lets changed a
  rw [State.when_read (fun s => s.pwr), (sendRequest_only ..).pwr, ite_self]
  rfl

theorem budget_congr {t : State} (hhost : t.pwr.host = s.pwr.host) (hlimit : t.pwr.limit = s.pwr.limit) (hmgmt : t.pwr.mgmt = s.pwr.mgmt)
    (hparked : t.pwr.parked = s.pwr.parked) : t.budget = s.budget := by
  unfold State.budget State.budgetTerm State.floorW State.unparked State.parked
  rw [hhost, hlimit, hmgmt, hparked]

/-- The power state with a budget below the idle floor noted. -/
def State.judged (s : State) : PwrSt := if s.budgetTerm * 8 < 1360 + 65 * s.unparked then { s.pwr with clamped := true } else s.pwr

theorem judged_field {β : Type} (f : PwrSt → β) (hf : ∀ q : PwrSt, f { q with clamped := true } = f q) : f s.judged = f s.pwr := by
  unfold State.judged
  split
  · exact hf _
  · rfl

/-- A budget judged anew: where the terms are below the floor it is clamped, and where it fell below the mean power the governor asks for 32. -/
theorem rebudget_pwr (s : State) (old : Nat) :
    (s.rebudget old).pwr =
      if s.budget < s.pwr.mean.toNat ∧ s.pwr.mean.toNat ≤ old then { s.judged with req := 32, reason := 5 } else s.judged := by
  unfold State.rebudget
  extract_lets low a
  have ha : a.pwr = s.judged := by
    show (s.when low _).pwr = _
    rw [State.when_read (fun s => s.pwr), (thermalRecord_only ..).pwr, (attn_only ..).pwr]
    unfold State.judged
    by_cases h : s.budgetTerm * 8 < 1360 + 65 * s.unparked
    · rw [if_pos h, show low = true from decide_eq_true h]; rfl
    · rw [if_neg h, show low = false from decide_eq_false h]; rfl
  have hmean : a.pwr.mean = s.pwr.mean := by rw [ha]; exact judged_field (·.mean) fun _ => rfl
  have hbudget : a.budget = s.budget := by
    apply budget_congr <;> rw [ha]
    · exact judged_field (·.host) fun _ => rfl
    · exact judged_field (·.limit) fun _ => rfl
    · exact judged_field (·.mgmt) fun _ => rfl
    · exact judged_field (·.parked) fun _ => rfl
  rw [State.when_read (fun s => s.pwr), setReq_pwr, hmean, hbudget, ha]
  simp only [Bool.and_eq_true, decide_eq_true_eq]
  split
  · rfl
  · rfl

/-- No rule of a budget is about parking. -/
theorem rebudget_field {β : Type} (f : PwrSt → β)
    (hf : ∀ (q : PwrSt) (c : Bool) (r : BitVec 6) (x : BitVec 4), f { q with clamped := c, req := r, reason := x } = f q) (s : State)
    (old : Nat) : f (s.rebudget old).pwr = f s.pwr := by
  have hj : f s.judged = f s.pwr := judged_field f fun q => hf q true q.req q.reason
  rw [rebudget_pwr]
  split
  · exact (hf s.judged s.judged.clamped 32 5).trans hj
  · exact hj

/-! ### The governor's interval -/

/-- The measurements of an interval. -/
def State.measured (s : State) (m : Measured) : State :=
  (s.modGov fun g =>
    { g with
      dieW := satOfNat 8 m.dieW, dieE := satOfNat 8 m.dieE, stack := satOfNat 8 m.stack, stackIdx := m.stackIdx
      intervals := if m.ranTask then g.intervals + 1 else g.intervals
      holdLeft := g.holdLeft - 1
      stretch32 := if s.fret.stretch = 32 then g.stretch32 + 1 else 0 }).modPwr fun p =>
    { p with mean := satOfNat 16 m.mean, peak := satOfNat 16 m.peak, watts := (m.domains.take 24).mapIdx fun i w => (i, w) }

/-- The request that follows what is wanted: it rises at once, and falls by 2 in every third interval. -/
def State.govern (s : State) (w : Nat × Nat) : State :=
  if s.pwr.req.toNat < w.1 then (s.modGov fun g => { g with lower := 0 }).setReq w.1 (BitVec.ofNat 4 w.2)
  else if w.1 < s.pwr.req.toNat then
    if s.gov.lower + 1 < 3 then s.modGov fun g => { g with lower := s.gov.lower + 1 }
    else
      (s.modGov fun g => { g with lower := 0 }).setReq (max w.1 (s.pwr.req.toNat - 2))
        (if max w.1 (s.pwr.req.toNat - 2) = w.1 then BitVec.ofNat 4 w.2 else s.pwr.reason)
  else s.modGov fun g => { g with lower := 0 }

/-- The request of an interval. -/
def State.interval (s : State) (m : Measured) : State :=
  (s.measured m).govern (bestTerm ((s.measured m).wantTerms m.mean))

theorem execGovernorInterval_eq (s : State) (m : Measured) :
    exec (.governorInterval m) s = .next ((s.interval m).modPwr fun p =>
      { p with overBudget := decide ((s.interval m).budget < m.mean) &&
          (p.overBudget || decide ((s.interval m).windowMs ≤ (s.interval m).gov.stretch32)) }) := rfl

theorem foldl_bestTerm_le (ts : List (Nat × Nat)) (m : Nat × Nat) :
    m.1 ≤ (ts.foldl (fun m t => if m.1 < t.1 then t else m) m).1 ∧
      (∀ t ∈ ts, t.1 ≤ (ts.foldl (fun m t => if m.1 < t.1 then t else m) m).1) ∧
      ∀ n, m.1 ≤ n → (∀ t ∈ ts, t.1 ≤ n) → (ts.foldl (fun m t => if m.1 < t.1 then t else m) m).1 ≤ n := by
  induction ts generalizing m with
  | nil => exact ⟨Nat.le_refl _, fun _ h => absurd h List.not_mem_nil, fun _ h _ => h⟩
  | cons t ts ih =>
    rw [List.foldl_cons]
    obtain ⟨hm, hts, hle⟩ := ih (if m.1 < t.1 then t else m)
    have hpick : m.1 ≤ (if m.1 < t.1 then t else m).1 ∧ t.1 ≤ (if m.1 < t.1 then t else m).1 := by split <;> omega
    refine ⟨hpick.1.trans hm, fun x hx => ?_, fun n hn hall => hle n ?_ fun x hx => hall x (List.mem_cons_of_mem _ hx)⟩
    · rcases List.mem_cons.mp hx with rfl | hx
      · exact hpick.2.trans hm
      · exact hts x hx
    · split
      · exact hall t List.mem_cons_self
      · exact hn

/-- What is wanted is the largest of the terms. -/
theorem le_bestTerm {ts : List (Nat × Nat)} {t : Nat × Nat} (h : t ∈ ts) : t.1 ≤ (bestTerm ts).1 := (foldl_bestTerm_le ts (0, 0)).2.1 t h

theorem bestTerm_le {ts : List (Nat × Nat)} {n : Nat} (h : ∀ t ∈ ts, t.1 ≤ n) : (bestTerm ts).1 ≤ n :=
  (foldl_bestTerm_le ts (0, 0)).2.2 n (Nat.zero_le n) h

theorem powerStretch_le (s : State) (p : Nat) : s.powerStretch p ≤ 32 := by
  unfold State.powerStretch
  cases h : (List.range 33).find? fun x => s.powerFits p x with
  | none => exact Nat.le_refl _
  | some x => exact Nat.le_of_lt_succ (List.mem_range.mp (List.mem_of_find?_eq_some h))

theorem wantTerms_le {p : Nat} (hreq : s.pwr.req.toNat ≤ 32) (hhold : s.gov.hold ≤ 32) : ∀ t ∈ s.wantTerms p, t.1 ≤ 32 := by
  unfold State.wantTerms
  simp only [List.forall_mem_cons, List.not_mem_nil, false_implies, implies_true, and_true]
  refine ⟨powerStretch_le s p, ?_, ?_, Nat.min_le_right .., ?_, ?_⟩
  · unfold State.thermalStretch
    dsimp only
    split
    · exact Nat.min_le_left ..
    · split
      · exact hreq
      · exact Nat.zero_le _
  · split <;> decide
  · split
    · exact hhold
    · exact Nat.zero_le _
  · split <;> decide

/-- What an interval's request keeps: the measurements, the clamps and the terms of the budget. -/
theorem govern_keeps (s : State) (w : Nat × Nat) :
    (s.govern w).pwr = { s.pwr with req := (s.govern w).pwr.req, reason := (s.govern w).pwr.reason } ∧
      (s.govern w).gov = { s.gov with lower := (s.govern w).gov.lower } := by
  have hset : ∀ (u : State) (n : Nat) (x : BitVec 4), u.pwr = s.pwr → u.gov = { s.gov with lower := u.gov.lower } →
      (u.setReq n x).pwr = { s.pwr with req := (u.setReq n x).pwr.req, reason := (u.setReq n x).pwr.reason } ∧
        (u.setReq n x).gov = { s.gov with lower := (u.setReq n x).gov.lower } := fun u n x hp hg =>
    ⟨by rw [setReq_pwr, hp], by rw [(setReq_only ..).gov]; exact hg⟩
  unfold State.govern
  split
  · exact hset _ _ _ rfl rfl
  split
  · split
    · exact ⟨rfl, rfl⟩
    · exact hset _ _ _ rfl rfl
  · exact ⟨rfl, rfl⟩

theorem govern_only (s : State) (w : Nat × Nat) : s.Only (s.govern w) [.gov, .pwr, .fret, .out] := by
  unfold State.govern
  split
  · exact only_setReq ((modGov_only ..).in) (by decide)
  split
  · split
    · exact (modGov_only ..).in
    · exact only_setReq ((modGov_only ..).in) (by decide)
  · exact (modGov_only ..).in

/-- The request is what is wanted at least, and falls by 2 at most. -/
theorem govern_req {w : Nat × Nat} (hw : w.1 ≤ 32) (hreq : s.pwr.req.toNat ≤ 32) :
    w.1 ≤ (s.govern w).pwr.req.toNat ∧ (s.govern w).pwr.req.toNat ≤ 32 ∧ s.pwr.req.toNat ≤ (s.govern w).pwr.req.toNat + 2 := by
  have hset : ∀ (u : State) (n : Nat) (x : BitVec 4), n ≤ 32 → (u.setReq n x).pwr.req.toNat = n := fun u n x hn => by
    rw [setReq_pwr]
    exact (BitVec.toNat_ofNat ..).trans (Nat.mod_eq_of_lt (by omega))
  unfold State.govern
  split
  · rw [hset _ _ _ hw]; omega
  split
  · split
    · rw [State.modGov_pwr]; omega
    · rw [hset _ _ _ (by omega)]; omega
  · rw [State.modGov_pwr]; omega

/-! ### The clamps -/

/-- The clamp of a half engages. -/
def State.clampHalf (s : State) (h : Half) (n : Nat) : State :=
  (s.modGov fun g =>
    { g with
      thermW := g.thermW || decide (h = .west), thermE := g.thermE || decide (h = .east)
      hold := max n (if g.thermW ∨ g.thermE ∨ 0 < g.holdLeft then g.hold else 0), lower := 0 }).modPwr fun p => match h with
      | .west => { p with clampW := satAdd p.clampW 1 }
      | .east => { p with clampE := satAdd p.clampE 1 }

/-- A half is under its thermal clamp. -/
def State.clamped (s : State) : Half → Bool
  | .west => s.gov.thermW
  | .east => s.gov.thermE

theorem execThermalClampEngage_eq {h : Half} {temp : BitVec 8} (hot : 108 ≤ temp.toNat) (hc : s.clamped h = false) :
    exec (.thermalClampEngage h temp) s = .next
      ((((s.clampHalf h (min 32 (s.pwr.req.toNat + 8))).divide.setReq (min 32 (s.pwr.req.toNat + 8)) 6).attn .thermal).thermalRecord) := by
  cases h <;> exact if_neg (by
    rintro (k | k)
    · omega
    · exact Bool.noConfusion (hc.symm.trans k))

theorem execThermalClampEngage_idle {h : Half} {temp : BitVec 8} (hc : temp.toNat < 108 ∨ s.clamped h = true) :
    exec (.thermalClampEngage h temp) s = .next s := by
  cases h <;> exact if_pos hc

theorem execThermalClampRelease_idle {h : Half} (hc : s.clamped h = false) : exec (.thermalClampRelease h) s = .next s := by
  cases h <;> exact if_pos (congrArg (! ·) hc)

/-- A request and its notices leave the clamps and the clocks. -/
theorem clampNotice_reads (u : State) (n : Nat) (x : BitVec 4) :
    u.Only (((u.setReq n x).attn .thermal).thermalRecord) [.top, .pwr, .fret, .chest, .out] ∧
      (((u.setReq n x).attn .thermal).thermalRecord).pwr = { u.pwr with req := BitVec.ofNat 6 n, reason := x } :=
  ⟨only_thermalRecord (only_attn (only_setReq (.refl _ _) (by decide)) (by decide)) (by decide),
    (thermalRecord_only ..).pwr.trans ((attn_only ..).pwr.trans (setReq_pwr ..))⟩

/-- A budget write by a writer that may write, and by one that may not. -/
theorem execBudgetWrite_eq {acc : Accessor} (h : s.mayWrite acc = true) (hp : s.passed 0 = true) (v : Word) :
    exec (.budgetWrite acc v) s = .next (s.writeBudget v) :=
  congrArg Host.Outcome.next (accWrite_may (b := .pwr) (o := 0x000) rfl rfl rfl (regAnswers_of_answers (by decide) hp) h)

/-- Settles O36: what is wanted is the largest term, and the request moves from where it stood; a clamp that engages divides a clock. -/
theorem governorAndClampsAct : Obligations.GovernorAndClampsAct := by
  unfold Obligations.GovernorAndClampsAct
  have heast : ∀ (s : State) (temp : BitVec 8) (h : Half), 108 ≤ temp.toNat → s.clamped h = false →
      ∃ t, exec (.thermalClampEngage h temp) s = .next t ∧ s.Only t [.top, .pwr, .gov, .clk, .fret, .chest, .out] ∧
        t.gov = (s.clampHalf h (min 32 (s.pwr.req.toNat + 8))).gov ∧
        t.pwr = { (s.clampHalf h (min 32 (s.pwr.req.toNat + 8))).pwr with req := BitVec.ofNat 6 (min 32 (s.pwr.req.toNat + 8)), reason := 6 } ∧
        t.clk = (s.clampHalf h (min 32 (s.pwr.req.toNat + 8))).divide.clk := fun s temp h hot hc => by
    obtain ⟨honly, hpwr⟩ := clampNotice_reads (s.clampHalf h (min 32 (s.pwr.req.toNat + 8))).divide (min 32 (s.pwr.req.toNat + 8)) 6
    have hclamp : s.Only (s.clampHalf h (min 32 (s.pwr.req.toNat + 8))).divide [.gov, .pwr, .clk] :=
      only_modClk (only_modPwr ((modGov_only ..).in) (by decide)) (by decide)
    exact ⟨_, execThermalClampEngage_eq hot hc, (hclamp.in).trans (honly.in), honly.gov, hpwr, honly.clk⟩
  refine ⟨fun s m hreq hhold => ?_, fun s temp hot hc => ?_, fun s h temp hcold => execThermalClampEngage_idle (.inl hcold),
    fun s hc => ?_, fun s mean hmean hc => ?_, fun s mean hmean hc => ?_, fun s acc v hm hp => ?_, fun s p v hp hp0 => ?_,
    fun s temp hot hc => ?_, fun s temp => ?_, fun s hc => ?_, fun s mean h => ?_, fun s mean h => ?_⟩
  · have hw : (bestTerm ((s.measured m).wantTerms m.mean)).1 ≤ 32 := bestTerm_le (wantTerms_le (s := s.measured m) hreq hhold)
    obtain ⟨hge, hle, hdown⟩ := govern_req (s := s.measured m) hw hreq
    obtain ⟨hpwr, hgov⟩ := govern_keeps (s.measured m) (bestTerm ((s.measured m).wantTerms m.mean))
    have honly : s.Only (s.interval m) [.pwr, .gov, .fret, .out] :=
      (only_modPwr ((modGov_only ..).in) (by decide)).trans ((govern_only ..).in)
    have hterm : ∀ t ∈ (s.measured m).wantTerms m.mean, t.1 ≤ (s.interval m).pwr.req.toNat := fun t ht => (le_bestTerm ht).trans hge
    refine ⟨_, execGovernorInterval_eq s m, only_modPwr honly (by decide), (congrArg PwrSt.mean hpwr).trans rfl, (congrArg PwrSt.peak hpwr).trans rfl,
      (congrArg GovSt.dieW hgov).trans rfl, (congrArg GovSt.dieE hgov).trans rfl, (congrArg GovSt.stack hgov).trans rfl, (congrArg GovSt.stackIdx hgov).trans rfl,
      hterm (min s.pwr.minStretch.toNat 32, 4) (by simp [State.wantTerms, State.measured]), hle, hdown, fun hclamp => ?_, fun hfit => ?_⟩
    · have h32 : 32 ≤ (s.interval m).pwr.req.toNat :=
        hterm (32, 7) (by simp [State.wantTerms, State.measured, hclamp])
      exact BitVec.eq_of_toNat_eq (Nat.le_antisymm hle h32)
    · have hbudget : (s.interval m).budget = s.budget :=
        budget_congr ((congrArg PwrSt.host hpwr).trans rfl) ((congrArg PwrSt.limit hpwr).trans rfl) ((congrArg PwrSt.mgmt hpwr).trans rfl) ((congrArg PwrSt.parked hpwr).trans rfl)
      show (decide ((s.interval m).budget < m.mean) && _) = false
      rw [hbudget, decide_eq_false (by omega)]
      rfl
  · obtain ⟨t, hexec, honly, hgov, hpwr, hclk⟩ := heast s temp .west hot hc
    refine ⟨t, hexec, honly, ?_, ?_, ?_, ?_, hpwr, ?_⟩
    · rw [hgov]; exact Bool.or_true _
    · rw [hgov]; exact Bool.or_false _
    · rw [hgov]; rfl
    · rw [hgov]; exact Nat.le_max_left ..
    · rw [hclk]
      show ({ s.clk with divW := (s.gov.thermW || true) || s.gov.powerClamp, divE := (s.gov.thermE || false) || s.gov.powerClamp } : ClkSt) = _
      rw [Bool.or_true, Bool.true_or, Bool.or_false]
  · refine (if_neg (show ¬ (!s.gov.thermE) = true by rw [hc]; decide)).trans (congrArg Host.Outcome.next ?_)
    have hd : State.divide { s with gov := { s.gov with thermW := s.gov.thermW && true, thermE := s.gov.thermE && false, holdLeft := 1000 } } =
      { s with
        gov := { s.gov with thermE := false, holdLeft := 1000 }
        clk := { s.clk with divW := s.gov.thermW || s.gov.powerClamp, divE := s.gov.powerClamp } } := by
      rw [Bool.and_true, Bool.and_false]
      rfl
    exact hd
  · have hclamp : s.Only (((s.modGov fun g => { g with powerClamp := true, lower := 0 }).modPwr fun p => { p with pclamp := true }).divide)
        [.gov, .pwr, .clk] := only_modClk (only_modPwr ((modGov_only ..).in) (by decide)) (by decide)
    refine ⟨_, if_neg fun k => k.elim (by omega) (by rw [hc]; exact Bool.false_ne_true),
      only_thermalRecord (only_setReq (hclamp.in) (by decide)) (by decide), (thermalRecord_only ..).gov.trans (setReq_only ..).gov, ?_, ?_⟩
    · rw [(thermalRecord_only ..).clk, (setReq_only ..).clk]
      show ({ s.clk with divW := s.gov.thermW || true, divE := s.gov.thermE || true } : ClkSt) = _
      rw [Bool.or_true, Bool.or_true]
    · rw [(thermalRecord_only ..).pwr, setReq_pwr]; rfl
  · refine (if_neg fun k => k.elim (by omega) (by rw [hc]; decide)).trans (congrArg Host.Outcome.next ?_)
    have hd : State.divide { s with gov := { s.gov with powerClamp := false } } =
        { s with
          gov := { s.gov with powerClamp := false }
          clk := { s.clk with divW := s.gov.thermW || false, divE := s.gov.thermE || false } } := rfl
    rw [Bool.or_false, Bool.or_false] at hd
    exact hd
  · have hw : s.Only (s.writeBudget v) [.top, .pwr, .fret, .chest, .out] := only_rebudget ((modPwr_only ..).in) (by decide)
    refine ⟨_, execBudgetWrite_eq hm hp v, hw, rebudget_field (·.host) (fun _ _ _ _ => rfl) _ _, fun hlow => ?_, fun hfit hover => ?_⟩
    · have hj : State.judged { s with pwr := { s.pwr with host := v.setWidth 16 } } =
          { s.pwr with host := v.setWidth 16, clamped := true } := by
        refine if_pos ?_
        refine Nat.lt_of_le_of_lt (Nat.mul_le_mul_right 8 ?_) hlow
        show (if s.pwr.mgmt.toNat = 0 then min (v.setWidth 16 : BitVec 16).toNat s.pwr.limit.toNat
          else min (min (v.setWidth 16 : BitVec 16).toNat s.pwr.limit.toNat) s.pwr.mgmt.toNat) ≤ _
        split
        · exact Nat.le_refl _
        · exact Nat.min_le_left ..
      show (State.rebudget _ s.budget).pwr.clamped = true
      rw [rebudget_pwr]
      split <;> exact congrArg PwrSt.clamped hj
    · show (State.rebudget _ s.budget).pwr.req = 32 ∧ (State.rebudget _ s.budget).pwr.reason = 5
      rw [rebudget_pwr, if_pos ⟨hover, hfit⟩]
      exact ⟨rfl, rfl⟩
  · exact congrArg Host.Outcome.next (accWrite_denied (b := .pwr) (o := 0x000) rfl rfl rfl (regAnswers_of_answers (by decide) hp0) (writeDenied_of_noToken hp rfl))
  · obtain ⟨t, hexec, honly, hgov, hpwr, hclk⟩ := heast s temp .east hot hc
    refine ⟨t, hexec, honly, ?_, ?_, hpwr, ?_⟩
    · rw [hgov]; exact Bool.or_true _
    · rw [hgov]; exact Bool.or_false _
    · rw [hclk]
      show ({ s.clk with divW := (s.gov.thermW || false) || s.gov.powerClamp, divE := (s.gov.thermE || true) || s.gov.powerClamp } : ClkSt) = _
      rw [Bool.or_true, Bool.true_or, Bool.or_false]
  · exact ⟨fun h => execThermalClampEngage_idle (h := .west) (.inr h), fun h => execThermalClampEngage_idle (h := .east) (.inr h),
      fun h => execThermalClampRelease_idle (h := .west) h, fun h => execThermalClampRelease_idle (h := .east) h⟩
  · refine (if_neg (show ¬ (!s.gov.thermW) = true by rw [hc]; decide)).trans (congrArg Host.Outcome.next ?_)
    have hd : State.divide { s with gov := { s.gov with thermW := s.gov.thermW && false, thermE := s.gov.thermE && true, holdLeft := 1000 } } =
      { s with
        gov := { s.gov with thermW := false, holdLeft := 1000 }
        clk := { s.clk with divW := s.gov.powerClamp, divE := s.gov.thermE || s.gov.powerClamp } } := by
      rw [Bool.and_true, Bool.and_false]
      rfl
    exact hd
  · exact if_pos h
  · exact if_pos h

end Sys2Proof.Machine
end

section
/-!
PROOFS. Parking, waking, droops and pegs (13 R633 to R658): O37.
-/

set_option Elab.async false

namespace Sys2Proof.Machine

variable {s : State}

/-! ### Parking -/

theorem resetTile_tile (s : State) (pt k : Nat) : (s.resetTile pt).tile k = if k = pt then { inReset := true } else s.tile k := by
  unfold State.resetTile
  rw [updTile_tile]
  split
  · rfl
  · next h =>
    rw [State.when_read (fun s => s.tile k), endArb_tile, if_neg h]
    have hrec : s.Only ((s.modRel fun r => { r with abandoned := satAdd r.abandoned 1 }).arbLast pt 6 true) [.rel] :=
      only_arbLast ((modRel_only ..).in) (by decide)
    rw [tile_congr (recordAt_only ..).tiles, tile_congr hrec.tiles, ite_self]

/-- A partition that parks: its tiles stop, and its stacks enter self-refresh. -/
theorem startPark_parks (s : State) (p : Nat) :
    (s.startPark p).gov = { s.gov with parking := putBit s.gov.parking p true } ∧ ((s.startPark p).part p).hbm = .selfRefresh := by
  refine ⟨?_, ?_⟩
  · rfl
  · have h : (s.startPark p).parts = (((s.endWindows p).modTiles fun ts => ts.map fun e =>
        if ptPart e.1 = p then (e.1, stopTile e.2) else e).updPart p fun q => { q with hbm := .selfRefresh }).parts := rfl
    rw [part_congr h, updPart_part_self]

/-- The tiles of a partition that is off. -/
def State.dropTiles (s : State) (p : Nat) : State :=
  s.each ((s.tiles.map (·.1)).filter fun pt => decide (ptPart pt = p)) fun s pt => (s.resetTile pt).updTile pt fun t => { t with inReset := false }

theorem dropTile_tile (s : State) (pt k : Nat) :
    ((s.resetTile pt).updTile pt fun t => { t with inReset := false }).tile k = if k = pt then {} else s.tile k := by
  rw [updTile_tile, resetTile_tile, resetTile_tile, if_pos rfl]
  split <;> rfl

/-- Each of them has lost its words and its banks, known or not. -/
theorem dropTiles_tile {p pt : Nat} (h : ptPart pt = p) : (s.dropTiles p).tile pt = {} := by
  have hkeep : ∀ (u : State) (x k : Nat), u.tile k = {} →
      ((u.resetTile x).updTile x fun t => { t with inReset := false }).tile k = {} := fun u x k hu => by
    rw [dropTile_tile]
    split
    · rfl
    · exact hu
  cases hf : Tab.find s.tiles pt with
  | none => exact State.each_keeps (P := fun u => u.tile pt = {}) (fun u x => hkeep u x pt) _ (Tab.get_of_find_none ({} : TileSt) hf)
  | some v =>
    refine State.each_sets (P := fun u k => u.tile k = {}) (fun u x => ?_) hkeep _ s pt ?_
    · rw [dropTile_tile, if_pos rfl]
    · exact List.mem_filter.mpr ⟨List.mem_map.mpr ⟨(pt, v), Tab.find_mem hf, rfl⟩, decide_eq_true h⟩

theorem dropTiles_only (s : State) (p : Nat) : s.Only (s.dropTiles p) [.rel, .relx, .chest, .mch, .tiles, .out] :=
  only_each (.refl _ _) fun _ _ h => only_updTile (only_resetTile h (by decide)) (by decide)

/-- A partition whose domain goes off. -/
theorem parkOff_reads (s : State) (p : Nat) :
    (s.parkOff p).pwr = { s.pwr with domains := putBit s.pwr.domains p false, parked := putBit s.pwr.parked p true } ∧
      (s.parkOff p).gov = { s.gov with parking := putBit s.gov.parking p false } ∧
      ∀ pt, ptPart pt = p → (s.parkOff p).tile pt = {} := by
  have hd : (s.loseEntries (.part p)).Only ((s.loseEntries (.part p)).dropTiles p) [.rel, .relx, .chest, .mch, .tiles, .out] :=
    dropTiles_only ..
  refine ⟨?_, ?_, fun pt hpt => dropTiles_tile hpt⟩
  · exact congrArg (fun q : PwrSt => { q with domains := putBit q.domains p false, parked := putBit q.parked p true }) hd.pwr
  · exact congrArg (fun g : GovSt => { g with parking := putBit g.parking p false }) hd.gov

/-! ### Waking -/

theorem startWake_idle {p : Nat} (h : s.parked p = false) : s.startWake p = s := if_pos (by rw [h]; rfl)

/-- A partition that is parked wakes: its domain is powered. -/
theorem startWake_wakes {p : Nat} (h : s.parked p = true) (hp : p < 16) :
    (s.startWake p).parked p = false ∧ (s.startWake p).waking p = true ∧ bit (s.startWake p).pwr.domains p = true := by
  have hparked := rebudget_field (·.parked) (fun _ _ _ _ => rfl)
  have hwaking := rebudget_field (·.waking) (fun _ _ _ _ => rfl)
  have hdomains := rebudget_field (·.domains) (fun _ _ _ _ => rfl)
  unfold State.startWake State.parked State.waking
  rw [if_neg (show ¬ (!bit s.pwr.parked p) = true by rw [show bit s.pwr.parked p = true from h]; decide)]
  refine ⟨?_, ?_, ?_⟩
  · rw [hparked]; exact (bit_putBit ..).trans (if_pos ⟨rfl, hp⟩)
  · rw [hwaking]; exact (bit_putBit ..).trans (if_pos ⟨rfl, hp⟩)
  · rw [hdomains]; exact (bit_putBit ..).trans (if_pos ⟨rfl, by omega⟩)

/-- A wake of one partition leaves the state of another. -/
theorem startWake_other {p q : Nat} (h : q ≠ p) :
    (s.startWake p).parked q = s.parked q ∧ (s.startWake p).waking q = s.waking q ∧
      bit (s.startWake p).pwr.domains q = bit s.pwr.domains q := by
  have hparked := rebudget_field (·.parked) (fun _ _ _ _ => rfl)
  have hwaking := rebudget_field (·.waking) (fun _ _ _ _ => rfl)
  have hdomains := rebudget_field (·.domains) (fun _ _ _ _ => rfl)
  unfold State.startWake State.parked State.waking
  split
  · exact ⟨rfl, rfl, rfl⟩
  · refine ⟨?_, ?_, ?_⟩
    · rw [hparked]; exact (bit_putBit ..).trans (if_neg fun k => h k.1)
    · rw [hwaking]; exact (bit_putBit ..).trans (if_neg fun k => h k.1)
    · rw [hdomains]; exact (bit_putBit ..).trans (if_neg fun k => h k.1)

/-- With nothing parked, no wake changes anything. -/
theorem each_startWake_idle (ps : List Nat) (h : s.pwr.parked = 0) : s.each ps (·.startWake ·) = s := by
  induction ps with
  | nil => rfl
  | cons p ps ih =>
    show (s.startWake p).each ps (·.startWake ·) = s
    rw [startWake_idle (by unfold State.parked; rw [h]; exact BitVec.getLsbD_zero), ih]

/-! ### PWR_PARK -/

/-- The partitions that a mask of one bit names. -/
theorem parkMask {v : Word} {p : Part} (h : (v.setWidth 16 : BitVec 16) = BitVec.twoPow 16 p) {op : Nat} (hop : op < 2 ^ 2) :
    ((List.range 16).filter fun k => bit (setField v 30 2 op) k) = [p.val] := by
  have hbit : ∀ k ∈ List.range 16, bit (setField v 30 2 op) k = decide (p.val = k) := fun k hk => by
    have hk : k < 16 := List.mem_range.mp hk
    rw [bit_setField v hop (by omega) (by omega)]
    have hw := congrArg (·.getLsbD k) h
    simp only [BitVec.getLsbD_setWidth, BitVec.getLsbD_twoPow, decide_eq_true hk, Bool.true_and] at hw
    exact hw.trans (by rw [decide_eq_true (show p.val < 16 from p.isLt), Bool.true_and])
  rw [List.filter_congr hbit]
  exact (by decide : ∀ p : Part, ((List.range 16).filter fun k => decide (p.val = k)) = [p.val]) p

theorem accWrite_pwrPark {acc : Accessor} (h : s.mayWrite acc = true) (hp : s.passed 0 = true) (v : Word) :
    s.accWrite acc 0x40020 v = s.writePark v :=
  accWrite_may (b := .pwr) (o := 0x020) rfl rfl rfl (regAnswers_of_answers (by decide) hp) h

theorem execPwrParkNow_eq {acc : Accessor} (h : s.mayWrite acc = true) (h0 : s.passed 0 = true) {v : Word} {p : Part}
    (hv : (v.setWidth 16 : BitVec 16) = BitVec.twoPow 16 p) :
    exec (.pwrParkNow acc v) s = .next (s.when (s.mayPark p) (·.startPark p)) := by
  refine congrArg Host.Outcome.next ((accWrite_pwrPark h h0 _).trans ?_)
  unfold State.writePark
  dsimp only
  rw [extract_setField_self v (by decide) (by decide), parkMask hv (by decide)]
  rfl

theorem execPwrWake_eq {acc : Accessor} (h : s.mayWrite acc = true) (h0 : s.passed 0 = true) (v : Word) :
    exec (.pwrWake acc false v) s = .next (s.each ((List.range 16).filter fun k => bit (setField v 30 2 2) k) (·.startWake ·)) := by
  refine congrArg Host.Outcome.next ((accWrite_pwrPark h h0 _).trans ?_)
  unfold State.writePark
  dsimp only
  rw [extract_setField_self v (by decide) (by decide)]
  rfl

/-! ### The end of a wake -/

/-- The quick test of a tile of a partition that woke. -/
def State.wakeTest (s : State) (bad : List (Pt × BitVec 4)) (pt : Nat) : State :=
  match bad.find? fun f => decide (f.1.val = pt) with
  | some f => (s.tileProgram pt 1 (some f.2)).fenceTile pt 0xB
  | none => s.tileProgram pt 1 none

/-- A partition whose memory is back. -/
def State.woken (s : State) (p : Nat) : State :=
  (s.updPart p fun q => { q with hbm := .active }).modPwr fun q => { q with waking := putBit q.waking p false }

theorem execWakeDone_eq {p : Part} (h : s.waking p = true) (failed : List (Pt × BitVec 4)) :
    exec (.wakeDone p failed) s = .next ((s.woken p).each ((partTiles p).filter fun pt => decide ((s.role pt).role ≠ .fenced)) fun s pt =>
      s.wakeTest (failed.filter fun f => decide (ptPart f.1 = p.val)) pt) :=
  if_neg (by rw [h]; decide)

theorem wakeTest_only (bad : List (Pt × BitVec 4)) (pt : Nat) :
    s.Only (s.wakeTest bad pt) [.flash, .top, .bist, .heal, .healx, .relx, .chest, .tiles, .out] := by
  unfold State.wakeTest
  split
  · exact only_fenceTile ((tileProgram_only ..).in) (by decide)
  · exact (tileProgram_only ..).in

theorem wakeDone_only (s : State) (p : Nat) (bad : List (Pt × BitVec 4)) (pts : List Nat) :
    s.Only ((s.woken p).each pts fun s pt => s.wakeTest bad pt)
        [.flash, .top, .pwr, .bist, .heal, .healx, .relx, .chest, .parts, .tiles, .out] ∧
      ((s.woken p).each pts fun s pt => s.wakeTest bad pt).pwr = { s.pwr with waking := putBit s.pwr.waking p false } ∧
      (((s.woken p).each pts fun s pt => s.wakeTest bad pt).part p).hbm = .active := by
  have htest : (s.woken p).Only ((s.woken p).each pts fun s pt => s.wakeTest bad pt)
      [.flash, .top, .bist, .heal, .healx, .relx, .chest, .tiles, .out] :=
    only_each (.refl _ _) fun _ _ h => h.trans (wakeTest_only ..)
  have hw : s.Only (s.woken p) [.parts, .pwr] := only_modPwr ((updPart_only ..).in) (by decide)
  refine ⟨(hw.in).trans (htest.in), htest.pwr, ?_⟩
  rw [part_congr htest.parts]
  exact (congrArg PartSt.hbm (updPart_part_self s p fun q => { q with hbm := .active }))

/-- A test that fails fences its tile, and one that passes leaves every role. -/
theorem wakeTest_passes (pt : Nat) : (s.wakeTest [] pt).healx = s.healx := (tileProgram_only ..).healx

theorem wakeTest_single {pt : Pt} (u : BitVec 4) {x : Nat} (hm : s.partMode (ptPart pt) ≠ .reset) :
    (s.wakeTest [(pt, u)] x).partMode (ptPart pt) ≠ .reset ∧ (((s.role pt).role = .fenced ∨ x = pt) →
      ((s.wakeTest [(pt, u)] x).role pt).role = .fenced) := by
  unfold State.wakeTest
  by_cases hx : x = pt.val
  · subst hx
    have hfind : ([(pt, u)].find? fun f => decide (f.1.val = pt.val)) = some (pt, u) := List.find?_cons_of_pos (decide_eq_true rfl)
    rw [hfind]
    have hmode : (s.tileProgram pt 1 (some u)).partMode (ptPart pt) ≠ .reset := by rwa [partMode_congr (tileProgram_only ..).healx]
    refine ⟨?_, fun _ => (fenceTile_role hmode _).1⟩
    show Tab.get PartMode.run (State.fenceTile _ _ _).healx.parts _ ≠ _
    rw [fenceTile_parts]
    exact hmode
  · have hfind : ([(pt, u)].find? fun f => decide (f.1.val = x)) = none :=
      List.find?_cons_of_neg (by rw [decide_eq_false fun e => hx e.symm]; decide)
    rw [hfind]
    have hh : (s.tileProgram x 1 none).healx = s.healx := (tileProgram_only ..).healx
    exact ⟨by rwa [partMode_congr hh], fun h => by rw [role_congr hh]; exact h.resolve_right hx⟩

theorem each_wakeTest_single {pt : Pt} (u : BitVec 4) (xs : List Nat) (s : State) (hm : s.partMode (ptPart pt) ≠ .reset)
    (h : (s.role pt).role = .fenced ∨ pt.val ∈ xs) : ((s.each xs fun s x => s.wakeTest [(pt, u)] x).role pt).role = .fenced := by
  induction xs generalizing s with
  | nil => exact h.resolve_right List.not_mem_nil
  | cons x xs ih =>
    obtain ⟨hmode, hfence⟩ := wakeTest_single (s := s) u (x := x) hm
    refine ih _ hmode ?_
    rcases h with h | h
    · exact .inl (hfence (.inl h))
    · rcases List.mem_cons.mp h with h | h
      · exact .inl (hfence (.inr h.symm))
      · exact .inr h

theorem mem_partTiles {pt p : Nat} : pt ∈ partTiles p ↔ ptPart pt = p := by
  unfold partTiles ptPart clusPart ptClus
  constructor
  · intro h
    obtain ⟨k, hk, rfl⟩ := List.mem_map.mp h
    have := List.mem_range.mp hk
    omega
  · intro h
    exact List.mem_map.mpr ⟨pt - 144 * p, List.mem_range.mpr (by omega), by omega⟩

/-! ### Pegs -/

/-- A peg is re-tuned where it is marked, or provisional under heavy load, and its structure is idle. -/
def State.pegFree (s : State) (g : Peg) : Bool :=
  if g.kind = 1 then (s.tasksIn (g.index / 16)).isEmpty && !s.memoryInUse (g.index / 16) else !s.anyTask

theorem execPegRetune_eq {n : Nat} {g : Peg} (h : s.flash.pegs[n]? = some g) (better : Bool) :
    exec (.pegRetune n better) s =
      if (g.retune = false ∧ (g.final = true ∨ s.loadClass ≠ 2)) ∨ s.pegFree g = false then .next s
      else
        let g' : Peg := if better then { g with final := true, load := 2, temp := s.hottest, retune := false } else { g with retune := false }
        .next ((s.modFlash fun f => { f with pegs := f.pegs.set n g' }).when (!better) fun s => s.modPwr fun p => { p with pegFail := true }) := by
  show execPegRetune n better s = _
  unfold execPegRetune
  rw [h]
  rfl

theorem accWrite_pwrPeg {acc : Accessor} (h : s.mayWrite acc = true) (hp : s.passed 0 = true) (v : Word) :
    s.accWrite acc 0x40300 v = s.writePeg v :=
  accWrite_may (b := .pwr) (o := 0x300) rfl rfl rfl (regAnswers_of_answers (by decide) hp) h

theorem accWrite_pwr_denied {acc : Accessor} (h : s.mayWrite acc = false) (hp : s.passed 0 = true) {off o : Nat} (h4 : off % 4 = 0)
    (hb : blockOf off = some (.pwr, o)) (hh : blockHas .pwr o = true)
    (hw : ∀ (p : HostPort) (v : Word), s.holdsToken p = false → s.writeDenied { acc := p.accessor } .pwr o v = true) (v : Word) :
    s.accWrite acc off v = s.denyWrite := by
  refine accWrite_denied (b := .pwr) (o := o) h4 hb hh (regAnswers_of_answers (by decide) hp) ?_
  cases acc with
  | mc => exact absurd h (by simp [State.mayWrite])
  | portA => exact hw .a v h
  | portB => exact hw .b v h

/-- Settles O37: what a park drops, what a wake restores, and what a peg's re-tuning needs. -/
theorem partitionsParkAndPegsRetune : Obligations.PartitionsParkAndPegsRetune := by
  unfold Obligations.PartitionsParkAndPegsRetune
  refine ⟨fun s p ms hm hn hi => ?_, fun s p ms hm => ?_, fun s acc p v hm h0 hv hp => ?_, fun s p hp => ?_, fun s acc p v hm h0 hv hp => ?_,
    fun s acc v hm h0 hp => ?_, fun s p failed hw => ?_, fun s rail events raise => rfl, fun s rail events => rfl, fun s rail => rfl,
    fun s n g hg hr ht hk => ?_, fun s acc v hm h0 => ?_, fun s p ms h => ?_, fun s acc p v hm h0 hv hp => ?_, fun s acc v hm h0 hp => ?_,
    fun s acc v b hm h0 => ?_, fun s p hp => ?_, fun s p failed hw => ?_, fun s p pt u hw hpt hr hmode => ?_, fun s rail events => rfl,
    fun s n better hn => ?_, fun s n better g hg h => ?_⟩
  · exact ⟨_, if_pos ⟨hm, hn, hi⟩, startPark_only s p, startPark_parks s p⟩
  · exact if_neg fun h => Bool.noConfusion (hm.symm.trans h.1)
  · refine ⟨_, (execPwrParkNow_eq hm h0 hv).trans ?_, startPark_only s p, startPark_parks s p⟩
    rw [hp, State.when_true]
  · obtain ⟨hpwr, hgov, htile⟩ := parkOff_reads s p
    have hb := rebudget_only (s.parkOff p) s.budget
    refine ⟨_, if_neg (by rw [hp]; decide), only_rebudget (only_parkOff (.refl _ _) (by decide)) (by decide), ?_, ?_, hb.gov.trans hgov,
      fun pt hpt => ?_⟩
    · show bit (State.rebudget _ _).pwr.parked p = true
      rw [rebudget_field (·.parked) fun _ _ _ _ => rfl, hpwr]
      exact (bit_putBit ..).trans (if_pos ⟨rfl, p.isLt⟩)
    · rw [rebudget_field (·.domains) fun _ _ _ _ => rfl, hpwr]
      exact (bit_putBit ..).trans (if_pos ⟨rfl, by omega⟩)
    · rw [tile_congr hb.tiles, htile pt hpt]
      exact ⟨rfl, rfl, rfl⟩
  · have hexec := execPwrWake_eq hm h0 v
    rw [parkMask hv (by decide)] at hexec
    exact ⟨_, hexec, startWake_only s p, startWake_wakes hp p.isLt⟩
  · refine congrArg Host.Outcome.next ((accWrite_may (b := .pwr) (o := 0x024) rfl rfl rfl (regAnswers_of_answers (by decide) h0) hm).trans ?_)
    exact each_startWake_idle (s := { s with pwr := { s.pwr with allow := v.setWidth 16 } }) _ hp
  · obtain ⟨honly, hpwr, hhbm⟩ := wakeDone_only s p (failed.filter fun f => decide (ptPart f.1 = p.val))
      ((partTiles p).filter fun pt => decide ((s.role pt).role ≠ .fenced))
    refine ⟨_, execWakeDone_eq hw failed, honly, hpwr, hhbm, fun hnil pt => ?_⟩
    subst hnil
    exact State.each_keeps (P := fun u => u.role pt = s.role pt) (fun u x hu => (role_congr (wakeTest_passes x) pt).trans hu) _ rfl
  · have hfree : s.pegFree g = true := by unfold State.pegFree; rw [if_neg hk, ht]; rfl
    have hgo : ¬ ((g.retune = false ∧ (g.final = true ∨ s.loadClass ≠ 2)) ∨ s.pegFree g = false) := by
      rintro (⟨h1, h2⟩ | h)
      · rcases hr with hr | ⟨hf, hl⟩
        · exact Bool.noConfusion (h1.symm.trans hr)
        · exact h2.elim (fun h => Bool.noConfusion (hf.symm.trans h)) fun h => h hl
      · exact Bool.noConfusion (hfree.symm.trans h)
    exact ⟨(execPegRetune_eq hg true).trans (if_neg hgo), (execPegRetune_eq hg false).trans (if_neg hgo)⟩
  · refine congrArg Host.Outcome.next ((accWrite_pwrPeg hm h0 _).trans ?_)
    unfold State.writePeg
    rw [bit_setField v (by decide) (by decide) (by decide), BitVec.eq_of_toNat_eq
      ((extract_setField_self v (lo := 30) (w := 2) (op := 1) (by decide) (by decide)).trans (by decide : 1 = (1 : BitVec 2).toNat))]
    rfl
  · refine if_neg ?_
    rintro ⟨-, hn, hi⟩
    rcases h with h | ⟨hms, hover⟩
    · exact h hn
    · exact hi.elim (fun k => absurd k (by omega)) fun k => Bool.noConfusion (hover.symm.trans k)
  · rw [execPwrParkNow_eq hm h0 hv, hp, State.when_false]
  · rw [execPwrWake_eq hm h0, each_startWake_idle _ hp]
  · have hdeny : ∀ (off o : Nat) (v : Word), off % 4 = 0 → blockOf off = some (.pwr, o) → blockHas .pwr o = true →
        (∀ (p : HostPort) (v : Word), s.freeWrite p .pwr o v = false) → s.accWrite acc off v = s.denyWrite := fun off o v h4 hb hh hf =>
      accWrite_pwr_denied hm h0 h4 hb hh (fun p v ht => writeDenied_of_noToken ht (hf p v)) v
    refine ⟨congrArg Host.Outcome.next (hdeny 0x40020 0x020 _ rfl rfl rfl fun _ _ => rfl), ?_,
      congrArg Host.Outcome.next (hdeny 0x40300 0x300 _ rfl rfl rfl fun _ _ => rfl)⟩
    cases b with
    | true => exact congrArg Host.Outcome.next (hdeny 0x40024 0x024 _ rfl rfl rfl fun _ _ => rfl)
    | false => exact congrArg Host.Outcome.next (hdeny 0x40020 0x020 _ rfl rfl rfl fun _ _ => rfl)
  · exact if_pos hp
  · exact if_pos (by rw [hw]; rfl)
  · obtain ⟨honly, -, hhbm⟩ := wakeDone_only s p ([(pt, u)].filter fun f => decide (ptPart f.1 = p.val))
      ((partTiles p).filter fun pt => decide ((s.role pt).role ≠ .fenced))
    refine ⟨_, execWakeDone_eq hw _, honly, ?_, hhbm⟩
    rw [show ([(pt, u)].filter fun f => decide (ptPart f.1 = p.val)) = [(pt, u)] from List.filter_cons_of_pos (decide_eq_true hpt)]
    refine each_wakeTest_single u _ (s.woken p) ?_ (.inr (List.mem_filter.mpr ⟨mem_partTiles.mpr hpt, decide_eq_true hr⟩))
    rw [hpt]
    exact hmode
  · show execPegRetune n better s = _
    unfold execPegRetune
    rw [List.getElem?_eq_none hn]
  · refine (execPegRetune_eq hg better).trans (if_pos ?_)
    refine h.imp id fun h => ?_
    unfold State.pegFree
    rcases h with ⟨hk, ht⟩ | ⟨hk, ht⟩
    · rw [if_neg hk, ht]; rfl
    · rw [if_pos hk]
      rcases ht with ht | ht
      · rw [List.isEmpty_eq_false_iff.mpr ht, Bool.false_and]
      · rw [ht, Bool.not_true, Bool.and_false]

end Sys2Proof.Machine
end

section
/-!
PROOFS. Window tests, test ages and the shut-down test (15): O43 and O44.
-/

set_option Elab.async false

namespace Sys2Proof.Machine

variable {s : State}

/-! ### Faulty windows -/

/-- A fence changes nothing of the self-test's state but that a retirement cause was found. -/
theorem fenceTile_bist (s : State) (pt v : Nat) :
    (s.fenceTile pt v).bist = { s.bist with causeFound := (s.fenceTile pt v).bist.causeFound } := by
  unfold State.fenceTile
  extract_lets c before a b d e f
  split
  · rfl
  split
  · rfl
  · have hf : f.bist = s.bist := (recordAt_only ..).bist.trans (attn_only ..).bist
    unfold State.lostCheck
    extract_lets lost g
    have hrec : f.Only g [.chest] := only_each (.refl _ _) fun _ _ h => only_variantRecord h (by decide)
    have hg : g.bist = s.bist := hrec.bist.trans hf
    generalize (decide (lost ≠ []) && (decide (2 ≤ (g.lostSlots c).length) || decide (2 ≤ g.unabsorbed))) = go
    cases go with
    | true => rw [State.when_true, retireCause_bist, hg]
    | false => rw [State.when_false, hg]

/-- A faulty window listed. -/
def State.listWindow (s : State) (e : Word) : State :=
  if s.bist.faults.contains e = true ∨ 4096 ≤ s.bist.faults.length then s else s.modBist fun b => { b with faults := b.faults ++ [e] }

theorem listWindow_bist (s : State) (e : Word) :
    (s.listWindow e).bist = { s.bist with faults := if s.bist.faults.contains e = true ∨ 4096 ≤ s.bist.faults.length then s.bist.faults
      else s.bist.faults ++ [e] } := by
  unfold State.listWindow
  split <;> rfl

theorem listWindow_only (s : State) (e : Word) : s.Only (s.listWindow e) [.bist] := by
  unfold State.listWindow
  split
  · exact .refl _ _
  · exact modBist_only ..

/-- The partition of an entry of the fault list. -/
def entryPart (e : Word) : Nat := e.toNat / 2 ^ 28

theorem faultyWindow_eq (s : State) (e : Word) :
    s.faultyWindow e = ((s.listWindow e).recordAt .hbm (isEast (partHalf (entryPart e))) (entryPart e) [0xFFFFFFFF, e]).when
      (decide (64 < ((s.listWindow e).recordAt .hbm (isEast (partHalf (entryPart e))) (entryPart e) [0xFFFFFFFF, e]).channelFaults
        (entryPart e * 32 + e.toNat / 2 ^ 24 % 16 * 2))) (·.retireCause 3) := rfl

/-- A faulty window is listed, and nothing else of the self-test's state changes but that a retirement cause was found. -/
theorem faultyWindow_bist (s : State) (e : Word) :
    (s.faultyWindow e).bist = { (s.listWindow e).bist with causeFound := (s.faultyWindow e).bist.causeFound } := by
  have h : ((s.listWindow e).recordAt .hbm (isEast (partHalf (entryPart e))) (entryPart e) [0xFFFFFFFF, e]).bist = (s.listWindow e).bist :=
    (recordAt_only ..).bist
  rw [faultyWindow_eq]
  generalize decide (64 < State.channelFaults _ _) = go
  cases go with
  | true => rw [State.when_true, retireCause_bist, h]
  | false => rw [State.when_false, h]

theorem retireCause_roles (s : State) (c : BitVec 4) : (s.retireCause c).healx.roles = s.healx.roles := by rw [retireCause_healx]

theorem faultyWindow_roles (s : State) (e : Word) : (s.faultyWindow e).healx.roles = s.healx.roles := by
  have h : ((s.listWindow e).recordAt .hbm (isEast (partHalf (entryPart e))) (entryPart e) [0xFFFFFFFF, e]).healx = s.healx :=
    (recordAt_only ..).healx.trans (listWindow_only ..).healx
  rw [faultyWindow_eq]
  generalize decide (64 < State.channelFaults _ _) = go
  cases go with
  | true => exact (retireCause_roles ..).trans (congrArg (fun x : HealAux => x.roles) h)
  | false => rw [State.when_false, h]

/-- Its record waits to be placed. -/
theorem faultyWindow_intake {e : Word} (hroom : s.chest.intake.length < 64) (hon : (s.trig Trigger.hbm.id).enable = true) :
    ∃ r ∈ (s.faultyWindow e).chest.intake, r.trigger = Trigger.hbm.id ∧ r.data = [0xFFFFFFFF, e] := by
  have hl := listWindow_only s e
  have hrec := recordAt_intake (s := s.listWindow e) .hbm (isEast (partHalf (entryPart e))) (entryPart e) [0xFFFFFFFF, e]
    (by rw [State.trig, hl.tel]; exact Bool.or_eq_true_iff.mpr (.inl hon)) (by rw [hl.chest]; exact hroom)
  refine ⟨⟨Trigger.hbm.id, Trigger.hbm.fatal, isEast (partHalf (entryPart e)), [0xFFFFFFFF, e], entryPart e,
    (s.listWindow e).snapList Trigger.hbm.id, none⟩, ?_, rfl, rfl⟩
  have hmem : (⟨Trigger.hbm.id, Trigger.hbm.fatal, isEast (partHalf (entryPart e)), [0xFFFFFFFF, e], entryPart e,
      (s.listWindow e).snapList Trigger.hbm.id, none⟩ : ChestRec) ∈
      ((s.listWindow e).recordAt .hbm (isEast (partHalf (entryPart e))) (entryPart e) [0xFFFFFFFF, e]).chest.intake := by
    rw [hrec]
    exact List.mem_append_right _ List.mem_cons_self
  rw [faultyWindow_eq]
  generalize decide (64 < State.channelFaults _ _) = go
  cases go with
  | true => exact (retireCause_prefix _ 3).subset hmem
  | false => rw [State.when_false]; exact hmem

/-! ### Window tests -/

/-- A table whose every value changes by a rule that keeps the keys. -/
theorem Tab.find_map_key {α : Type} {g : Nat × α → Nat × α} (hg : ∀ e, (g e).1 = e.1) (t : Tab α) (k : Nat) :
    Tab.find (t.map g) k = (Tab.find t k).map fun v => (g (k, v)).2 := by
  induction t with
  | nil => rfl
  | cons x t ih =>
    obtain ⟨j, v⟩ := x
    have hj : g (j, v) = (j, (g (j, v)).2) := Prod.ext (hg (j, v)) rfl
    rw [List.map_cons, hj, Tab.find, Tab.find, ih]
    split
    · next h => rw [h]; rfl
    · rfl

/-- The window test of a pseudo-channel ends: the next window follows, and after the last a sweep is complete. -/
def State.windowEnds (s : State) (k : Nat) : State :=
  s.modBist fun b =>
    { b with
      testing := b.testing.filter (· ≠ k)
      next := Tab.put b.next k (if decide (73728 ≤ Tab.get 0 s.bist.next k + 1) then 0 else Tab.get 0 s.bist.next k + 1)
      sweeps := if decide (73728 ≤ Tab.get 0 s.bist.next k + 1) then Tab.upd 0 b.sweeps k (· + 1) else b.sweeps }

theorem execHbmWindowTestDone_eq {p : Part} {pc : Fin 32} (h : s.bist.testing.contains (pcKey p pc) = true) (failed : Bool) :
    exec (.hbmWindowTestDone p pc failed) s = .next ((s.windowEnds (pcKey p pc)).when failed
      (·.faultyWindow (faultEntry (pcKey p pc) (Tab.get 0 s.bist.next (pcKey p pc))))) :=
  if_neg (by rw [h]; decide)

/-- Settles O43: a window's end moves to the next, and a faulty window is listed and recorded. -/
theorem windowTestsSweepMemory : Obligations.WindowTestsSweepMemory := by
  unfold Obligations.WindowTestsSweepMemory
  refine ⟨fun s p pc hm ht => if_pos ⟨hm, ht⟩, fun s p pc hm => if_neg fun h => Bool.noConfusion (hm.symm.trans h.1), fun s p pc h hw => ?_,
    fun s p pc h hw => ?_, fun s p pc h => ?_, fun s p pc h hroom hon => ?_, fun s p pc h => if_pos h, fun s => ?_,
    fun s p pc h => if_neg fun k => Bool.noConfusion (h.symm.trans k.2), fun s p pc f h => ⟨if_pos h, if_neg (by rw [h]; decide)⟩⟩
  · rw [execHbmWindowTestDone_eq h, State.when_false, State.windowEnds, decide_eq_false (by omega)]
    rfl
  · rw [execHbmWindowTestDone_eq h, State.when_false, State.windowEnds, decide_eq_true (by omega)]
    rfl
  · refine ⟨_, execHbmWindowTestDone_eq h true, only_faultyWindow ((modBist_only ..).in) (by decide), ?_⟩
    rw [State.when_true, faultyWindow_bist, listWindow_bist]
    rfl
  · rw [execHbmWindowTestDone_eq h]
    exact ⟨_, rfl, faultyWindow_intake (s := s.windowEnds (pcKey p pc)) hroom hon⟩
  · refine ⟨_, rfl, modHealx_only .., fun pt r hr => ?_⟩
    show Tab.get (roleDefault pt) (s.healx.roles.map _) pt = _
    have hkey : ∀ e : Nat × RoleSt, (if bit s.pwr.domains (ptPart e.1) then (e.1, { e.2 with age := e.2.age.map (· + 1) }) else e).1 = e.1 :=
      fun e => by split <;> rfl
    rw [Tab.get_of_find _ ((Tab.find_map_key hkey s.healx.roles pt).trans (congrArg _ hr))]
    dsimp only
    split <;> rfl

/-! ### BIST_CTL -/

theorem setWidth_setField (v : Word) {lo w op n : Nat} (hop : op < 2 ^ w) (hn : n ≤ lo) (hn' : n ≤ 32) :
    ((setField v lo w op).setWidth n : BitVec n) = v.setWidth n := by
  refine BitVec.eq_of_getLsbD_eq fun i hi => ?_
  rw [BitVec.getLsbD_setWidth, BitVec.getLsbD_setWidth, getLsbD_setField v hop (by omega), if_neg (by omega)]

/-- The window-test fields of BIST_CTL, and the start of the shut-down test. -/
def State.windowFields (s : State) (v : Word) : State := s.modBist fun b => { b with hbmEn := bit v 16, period := v.setWidth 16 }

def State.testBegins (s : State) (v : Word) : State :=
  (s.windowFields v).modBist fun b => { b with state := 1, phase := 1, fenced := 0, causeFound := false }

theorem writeBistCtl_eq (s : State) {v : Word} (h : v.extractLsb' 30 2 = (1 : BitVec 2)) :
    s.writeBistCtl v = if s.bist.state ≠ 0 then s.windowFields v
      else if s.mayShut then (s.testBegins v).each (List.range 16) (·.startWake ·)
      else (s.windowFields v).modBist fun b => { b with refused := true } := by
  unfold State.writeBistCtl
  extract_lets a b
  by_cases hs : s.bist.state = 0
  · rw [if_neg (show ¬ (v.extractLsb' 30 2 ≠ (1 : BitVec 2) ∨ a.bist.state ≠ 0) from not_or_intro (fun k => k h) fun k => k hs),
      if_neg (show ¬ s.bist.state ≠ 0 from fun k => k hs)]
    have hmay : a.mayShut = s.mayShut := by
      unfold State.mayShut State.anyTask State.recovering State.partMode
      rfl
    rw [hmay]
    refine if_congr Iff.rfl ?_ ?_
    · exact congrArg (fun u : State => u.each (List.range 16) (·.startWake ·)) (show _ = s.testBegins v from rfl)
    · rfl
  · rw [if_pos (show v.extractLsb' 30 2 ≠ (1 : BitVec 2) ∨ a.bist.state ≠ 0 from .inr hs), if_pos hs]
    rfl

theorem windowFields_setField (s : State) (v : Word) : s.windowFields (setField v 30 2 1) = s.windowFields v := by
  unfold State.windowFields
  rw [bit_setField v (by decide) (by decide) (by decide), setWidth_setField v (by decide) (by decide) (by decide)]

theorem op_setField (v : Word) : (setField v 30 2 1).extractLsb' 30 2 = (1 : BitVec 2) :=
  BitVec.eq_of_toNat_eq (extract_setField_self v (by decide) (by decide))

theorem testBegins_setField (s : State) (v : Word) : s.testBegins (setField v 30 2 1) = s.testBegins v := by
  unfold State.testBegins
  rw [windowFields_setField]

theorem accWrite_bistCtl {acc : Accessor} (h : s.mayWrite acc = true) (h1 : s.passed 1 = true) (v : Word) :
    s.accWrite acc 0x70000 v = s.writeBistCtl v :=
  accWrite_may (b := .bist) (o := 0x000) rfl rfl rfl (regAnswers_of_answers (by decide) h1) h

theorem execShutdownTestStart_eq {acc : Accessor} (h : s.mayWrite acc = true) (h1 : s.passed 1 = true) (v : Word) :
    exec (.shutdownTestStart acc v) s = .next (
      if s.bist.state ≠ 0 then s.windowFields v
      else if s.mayShut then (s.testBegins v).each (List.range 16) (·.startWake ·)
      else (s.windowFields v).modBist fun b => { b with refused := true }) := by
  have hw := (accWrite_bistCtl h h1 (setField v 30 2 1)).trans (writeBistCtl_eq s (op_setField v))
  rw [testBegins_setField, windowFields_setField] at hw
  exact congrArg Host.Outcome.next hw

/-- A wake of each of a list of partitions wakes those that are parked. -/
def State.awake (s : State) (p : Nat) : Prop := s.parked p = false ∧ s.waking p = true ∧ bit s.pwr.domains p = true

theorem each_startWake_wakes {p : Nat} (hp : p < 16) (ps : List Nat) (s : State) (h : s.awake p ∨ s.parked p = true)
    (hm : s.awake p ∨ p ∈ ps) : (s.each ps (·.startWake ·)).awake p := by
  induction ps generalizing s with
  | nil => exact hm.resolve_right List.not_mem_nil
  | cons q ps ih =>
    show ((s.startWake q).each ps (·.startWake ·)).awake p
    by_cases hq : p = q
    · subst hq
      have hdone : (s.startWake p).awake p := by
        rcases h with h | h
        · rw [startWake_idle h.1]; exact h
        · exact startWake_wakes h hp
      exact ih _ (.inl hdone) (.inl hdone)
    · obtain ⟨hparked, hwaking, hdomain⟩ := startWake_other (s := s) hq
      have hkeep : (s.startWake q).awake p ↔ s.awake p := by unfold State.awake; rw [hparked, hwaking, hdomain]
      refine ih _ (h.imp hkeep.mpr fun h => hparked.trans h) (hm.imp hkeep.mpr fun h => ?_)
      exact (List.mem_cons.mp h).resolve_left hq

/-! ### The phases -/

/-- The test of a tile by the full program. -/
def State.fullTestTile (s : State) (failed : List (Pt × BitVec 4)) (pt : Nat) : State :=
  match failed.find? fun f => decide (f.1.val = pt) with
  | some f => (s.tileProgram pt 3 (some f.2)).fenceTile pt 0xB
  | none => (s.tileProgram pt 3 none).updRole pt fun r => { r with age := some 0 }

theorem fullTest_eq (s : State) (failed : List (Pt × BitVec 4)) :
    s.fullTest failed = s.each ((List.range 2304).filter fun pt => decide ((s.role pt).role ≠ .fenced)) fun s pt =>
      s.fullTestTile failed pt := rfl

theorem fullTest_state (s : State) (failed : List (Pt × BitVec 4)) : (s.fullTest failed).bist.state = s.bist.state := by
  have htile : ∀ (u : State) (pt prog : Nat) (f : Option (BitVec 4)), (u.tileProgram pt prog f).bist.state = u.bist.state := by
    intro u pt prog f
    unfold State.tileProgram
    extract_lets a
    cases f with
    | none => rfl
    | some x =>
      rw [Option.isSome_some, State.when_true]
      exact (congrArg BistSt.state (recordAt_only ..).bist).trans rfl
  rw [fullTest_eq]
  refine State.each_keeps (P := fun u => u.bist.state = s.bist.state) (fun u x hu => ?_) _ rfl
  unfold State.fullTestTile
  split
  · exact ((congrArg BistSt.state (fenceTile_bist ..)).trans rfl).trans ((htile ..).trans hu)
  · exact (htile u x 3 none).trans hu

/-- With no failure, every tile that was tested has age 0. -/
theorem fullTest_ages {pt : Nat} (hpt : pt < 2304) (hr : (s.role pt).role ≠ .fenced) : ((s.fullTest []).role pt).age = some 0 := by
  have hrole : ∀ (u : State) (x k : Nat), (u.fullTestTile [] x).role k = if k = x then { u.role x with age := some 0 } else u.role k := by
    intro u x k
    show ((u.tileProgram x 3 none).updRole x _).role k = _
    rw [updRole_role, role_congr (tileProgram_only ..).healx, role_congr (tileProgram_only ..).healx]
  rw [fullTest_eq]
  refine State.each_sets (P := fun u k => (u.role k).age = some 0) (fun u x => ?_) (fun u x k hk => ?_) _ s pt
    (List.mem_filter.mpr ⟨List.mem_range.mpr hpt, decide_eq_true hr⟩)
  · rw [hrole, if_pos rfl]
  · rw [hrole]
    split
    · rfl
    · exact hk

theorem faultyWindow_state (s : State) (e : Word) : (s.faultyWindow e).bist.state = s.bist.state := by
  rw [faultyWindow_bist, listWindow_bist]

theorem each_faultyWindow_state (ws : List Word) (s : State) : (s.each ws (·.faultyWindow ·)).bist.state = s.bist.state :=
  State.each_keeps (P := fun u => u.bist.state = s.bist.state)
    (fun u e hu => (faultyWindow_state u e).trans hu) _ rfl

theorem each_faultyWindow_role (ws : List Word) (s : State) (pt : Nat) : (s.each ws (·.faultyWindow ·)).role pt = s.role pt :=
  State.each_keeps (P := fun u => u.role pt = s.role pt)
    (fun u e hu => (congrArg (fun x => Tab.get (roleDefault pt) x pt) (faultyWindow_roles u e)).trans hu) _ rfl

/-- The second phase: every tile and every window that the host named. -/
def State.phaseTwo (s : State) (failed : List (Pt × BitVec 4)) (windows : List Word) : State :=
  (((s.modBist fun b => { b with phase := 2 }).fullTest failed).each windows (·.faultyWindow ·)).loseHbm

theorem execShutdownTestPhase_eq {failed : List (Pt × BitVec 4)} {windows : List Word} (hs : s.bist.state = 1) (hp : s.bist.phase.toNat ≤ 2)
    (hw : s.pwr.waking = 0) :
    exec (.shutdownTestPhase failed windows) s = .next ((s.phaseTwo failed windows).modBist fun b =>
      { b with phase := 3, fenced := satOfNat 16 ((s.phaseTwo failed windows).roleCount .fenced - s.roleCount .fenced) }) :=
  if_neg (by rintro (h | h | h); exacts [h hs, absurd h (by omega), h hw])

/-! ### The halt -/

/-- A partition that parks as the chip halts. -/
def State.haltPart (s : State) (p : Nat) : State := (s.startPark p).parkOff p

def State.halted (s : State) : State :=
  ((s.each (List.range 16) (·.haltPart ·)).rebudget s.budget).modBist fun b => { b with state := 2, phase := 5 }

theorem execShutdownHalt_eq (hs : s.bist.state = 1) (hp : s.bist.phase = 4) (hc : s.chest.copying = none) :
    exec .shutdownHalt s = .next s.halted :=
  if_neg (by rintro (h | h | h); exacts [h hs, h hp, absurd h (by rw [hc]; decide)])

theorem haltPart_pwr (s : State) (p : Nat) :
    (s.haltPart p).pwr = { s.pwr with domains := putBit s.pwr.domains p false, parked := putBit s.pwr.parked p true } :=
  (parkOff_reads (s.startPark p) p).1

theorem haltPart_part (s : State) (p k : Nat) (h : k = p ∨ (s.part k).hbm = .selfRefresh) : ((s.haltPart p).part k).hbm = .selfRefresh := by
  have hoff : ((s.haltPart p).part k) = (s.startPark p).part k := part_congr (parkOff_only ..).parts k
  have hpark : (s.startPark p).parts = (s.updPart p fun q => { q with hbm := .selfRefresh }).parts := rfl
  rw [hoff, part_congr hpark, updPart_part]
  split
  · rfl
  · next hk => exact h.resolve_left hk

/-- A tile that has lost its words and banks has lost them still after another partition parks. -/
theorem haltPart_tile (s : State) (p k : Nat) (h : ptPart k = p ∨ s.tile k = {}) : (s.haltPart p).tile k = {} := by
  by_cases hk : ptPart k = p
  · exact (parkOff_reads (s.startPark p) p).2.2 k hk
  · have hstop : (s.startPark p).tile k = {} := by
      show Tab.get ({} : TileSt) (s.tiles.map fun e => if ptPart e.1 = p then (e.1, stopTile e.2) else e) k = {}
      have hkey : ∀ e : Nat × TileSt, (if ptPart e.1 = p then (e.1, stopTile e.2) else e).1 = e.1 := fun e => by split <;> rfl
      have hs : Tab.get ({} : TileSt) s.tiles k = {} := h.resolve_left hk
      cases hf : Tab.find s.tiles k with
      | none => exact Tab.get_of_find_none _ ((Tab.find_map_key hkey s.tiles k).trans (by rw [hf]; rfl))
      | some v =>
        rw [Tab.get_of_find _ hf] at hs
        rw [Tab.get_of_find _ ((Tab.find_map_key hkey s.tiles k).trans (congrArg _ hf))]
        dsimp only
        rw [if_neg hk]
        exact hs
    have hdrop : ((s.startPark p).loseEntries (.part p)).tile k = {} := hstop
    exact State.each_keeps (P := fun u => u.tile k = {}) (fun u x hu => by
      rw [dropTile_tile]
      split
      · rfl
      · exact hu) _ hdrop

/-- After every partition of a list has parked: their bits, and nothing else of the power state. -/
theorem each_haltPart_pwr (ps : List Nat) (s : State) (hps : ∀ p ∈ ps, p < 16) :
    (s.each ps (·.haltPart ·)).pwr.waking = s.pwr.waking ∧
      (∀ i, bit (s.each ps (·.haltPart ·)).pwr.domains i = (bit s.pwr.domains i && !decide (i ∈ ps))) ∧
      ∀ i, bit (s.each ps (·.haltPart ·)).pwr.parked i = (bit s.pwr.parked i || decide (i ∈ ps)) := by
  induction ps generalizing s with
  | nil => exact ⟨rfl, fun i => by simp [State.each_nil], fun i => by simp [State.each_nil]⟩
  | cons p ps ih =>
    obtain ⟨hw, hd, hk⟩ := ih (s.haltPart p) fun q hq => hps q (List.mem_cons_of_mem _ hq)
    have hp : p < 16 := hps p List.mem_cons_self
    refine ⟨hw.trans (by rw [haltPart_pwr]), fun i => (hd i).trans ?_, fun i => (hk i).trans ?_⟩
    · rw [haltPart_pwr]
      dsimp only
      rw [bit_putBit]
      by_cases hi : i = p
      · subst hi; rw [if_pos ⟨rfl, by omega⟩]; simp
      · rw [if_neg fun k => hi k.1]; simp [hi]
    · rw [haltPart_pwr]
      dsimp only
      rw [bit_putBit]
      by_cases hi : i = p
      · subst hi; rw [if_pos ⟨rfl, by omega⟩]; simp
      · rw [if_neg fun k => hi k.1]; simp [hi]

theorem each_haltPart_only (s : State) (ps : List Nat) :
    s.Only (s.each ps (·.haltPart ·)) [.pwr, .gov, .bist, .rel, .relx, .chest, .mch, .parts, .tiles, .out] :=
  only_each (.refl _ _) fun _ _ h => only_parkOff (only_startPark h (by decide)) (by decide)

theorem each_haltPart_tile {pt : Nat} (ps : List Nat) (s : State) (h : ptPart pt ∈ ps) : (s.each ps (·.haltPart ·)).tile pt = {} := by
  induction ps generalizing s with
  | nil => exact absurd h List.not_mem_nil
  | cons p ps ih =>
    rw [State.each_cons]
    rcases List.mem_cons.mp h with h | h
    · exact State.each_keeps (P := fun u => u.tile pt = {}) (fun u x hu => haltPart_tile u x pt (.inr hu)) ps (haltPart_tile s p pt (.inl h))
    · exact ih _ h

theorem ptPart_lt {pt : Nat} (h : pt < 2304) : ptPart pt < 16 := by unfold ptPart clusPart ptClus; omega

theorem halted_tile {pt : Nat} (h : pt < 2304) : s.halted.tile pt = {} := by
  have heach := each_haltPart_tile (pt := pt) (List.range 16) s (List.mem_range.mpr (ptPart_lt h))
  unfold State.halted
  rw [tile_congr (modBist_only ..).tiles, tile_congr (rebudget_only ..).tiles]
  exact heach

/-- A health record of the whole test. -/
theorem writeHealth_full (s : State) :
    ∃ h ∈ (s.writeHealth true).flash.health, h.complete = true ∧ h.serial = s.fuse.serial ∧ h.applied = false ∧ h.windows = s.bist.faults ∧
      ∀ pt, pt < 2304 → (pt ∈ h.fences ↔ (s.role pt).role = .fenced) := by
  refine ⟨_, List.mem_append_right _ List.mem_cons_self, rfl, rfl, rfl, rfl, fun pt hpt => ?_⟩
  rw [List.mem_filter]
  exact ⟨fun h => of_decide_eq_true h.2, fun h => ⟨List.mem_range.mpr hpt, decide_eq_true h⟩⟩

/-- A copy that is asked for runs, or one runs already. -/
theorem copyRequest_copying (s : State) (reason : BitVec 8) : (s.copyRequest reason).chest.copying.isSome = true := by
  unfold State.copyRequest
  split
  · rfl
  · next h =>
    show s.chest.copying.isSome = true
    cases hc : s.chest.copying with
    | none => rw [hc] at h; exact absurd rfl h
    | some _ => rfl

theorem copyRequest_health (s : State) (reason : BitVec 8) : (s.copyRequest reason).flash.health = s.flash.health := by
  unfold State.copyRequest
  split <;> rfl

/-- Settles O44: each phase has the effect of its parts, and a command out of its phase is none. -/
theorem shutdownTestRunsItsPhases : Obligations.ShutdownTestRunsItsPhases := by
  unfold Obligations.ShutdownTestRunsItsPhases
  refine ⟨fun s acc v hm h1 hs hmay hp => ?_, fun s acc v hm h1 hs hmay => ?_, fun s failed windows hs hp hw => ?_, fun s hs hp => ?_,
    fun s hs hp hc => ?_, fun s h => if_neg fun k => h.elim (fun h => h k.1) fun h => h k.2, fun s h => if_pos h,
    fun s failed windows h => if_pos h, fun s acc v hm h1 _ hs hmay => ?_, fun s acc v hm h1 hs => ?_, fun s acc v hm h1 => ?_,
    fun s acc v h1 => ?_⟩
  · have hidle := each_startWake_idle (s := s.testBegins v) (List.range 16) hp
    rw [execShutdownTestStart_eq hm h1, if_neg fun h => h hs, if_pos hmay, hidle]
    rfl
  · rw [execShutdownTestStart_eq hm h1, if_neg fun h => h hs, if_neg (by rw [hmay]; decide)]
    rfl
  · have htest := fullTest_only (s.modBist fun b => { b with phase := 2 }) failed
    have hfaulty : ((s.modBist fun b => { b with phase := 2 }).fullTest failed).Only (((s.modBist fun b => { b with phase := 2 }).fullTest
        failed).each windows (·.faultyWindow ·)) [.flash, .top, .bist, .healx, .relx, .chest, .out] :=
      only_each (.refl _ _) fun _ _ h => only_faultyWindow h (by decide)
    have honly : s.Only (s.phaseTwo failed windows) [.flash, .top, .bist, .heal, .healx, .relx, .chest, .hbm, .tiles, .out] :=
      only_loseHbm ((((modBist_only ..).in).trans (htest.in)).trans (hfaulty.in)) (by decide)
    refine ⟨_, execShutdownTestPhase_eq hs hp hw, only_modBist honly (by decide), rfl, ?_, rfl, ?_, fun hnil pt hpt hr => ?_⟩
    · exact (each_faultyWindow_state _ _).trans ((fullTest_state _ _).trans hs)
    · exact congrArg (fun h : HbmSt => h.epoch + 1) (hfaulty.hbm.trans htest.hbm)
    · subst hnil
      exact (congrArg RoleSt.age (each_faultyWindow_role _ _ pt)).trans
        (fullTest_ages (s := s.modBist fun b => { b with phase := 2 }) hpt hr)
  · obtain ⟨h, hmem, hfields⟩ := writeHealth_full s
    refine ⟨_, if_pos ⟨hs, hp⟩, only_copyRequest (only_modBist (only_writeHealth (.refl _ _) (by decide)) (by decide)) (by decide),
      congrArg BistSt.phase (copyRequest_only ..).bist, congrArg BistSt.recKind (copyRequest_only ..).bist, copyRequest_copying .., h, ?_,
      hfields⟩
    rw [copyRequest_health]
    exact hmem
  · have heach := each_haltPart_only s (List.range 16)
    have hb := rebudget_only (s.each (List.range 16) (·.haltPart ·)) s.budget
    obtain ⟨hw, hd, hk⟩ := each_haltPart_pwr (List.range 16) s fun p => List.mem_range.mp
    refine ⟨_, execShutdownHalt_eq hs hp hc, only_modBist (only_rebudget (heach.in) (by decide)) (by decide), ?_, ?_, ?_, rfl, rfl,
      fun p hp => ?_, fun pt v hpt _ => ?_⟩
    · refine (rebudget_field (·.domains) (fun _ _ _ _ => rfl) ..).trans (BitVec.eq_of_getLsbD_eq fun i hi => (hd i).trans ?_)
      rw [BitVec.getLsbD_and]
      refine congrArg (bit s.pwr.domains i && ·) ?_
      exact (by decide : ∀ i < 24, (!decide (i ∈ List.range 16)) = (0xFF0000 : BitVec 24).getLsbD i) i hi
    · refine (rebudget_field (·.parked) (fun _ _ _ _ => rfl) ..).trans (BitVec.eq_of_getLsbD_eq fun i hi => (hk i).trans ?_)
      rw [decide_eq_true (List.mem_range.mpr hi), Bool.or_true]
      exact (by decide : ∀ i < 16, true = (0xFFFF : BitVec 16).getLsbD i) i hi
    · exact (rebudget_field (·.waking) (fun _ _ _ _ => rfl) ..).trans hw
    · refine (congrArg PartSt.hbm (part_congr hb.parts p)).trans ?_
      exact State.each_sets (P := fun u k => (u.part k).hbm = .selfRefresh) (fun u x => haltPart_part u x x (.inl rfl))
        (fun u x k h => haltPart_part u x k (.inr h)) _ s p (List.mem_range.mpr hp)
    · rw [halted_tile hpt]
      exact ⟨rfl, rfl⟩
  · have hstart := execShutdownTestStart_eq hm h1 v
    rw [if_neg fun h => h hs, if_pos hmay] at hstart
    have honly : (s.testBegins v).Only ((s.testBegins v).each (List.range 16) (·.startWake ·)) [.top, .pwr, .fret, .chest, .out] :=
      only_each (.refl _ _) fun _ _ h => only_startWake h (by decide)
    have hbegins : s.Only (s.testBegins v) [.bist] := only_modBist (modBist_only ..) (by decide)
    refine ⟨_, hstart, (hbegins.in).trans (honly.in), honly.bist, fun p hp hparked => ?_⟩
    have hbegin : (s.testBegins v).parked p = true := hparked
    obtain ⟨hk, hw, hd⟩ := each_startWake_wakes hp (List.range 16) (s.testBegins v) (.inr hbegin) (.inr (List.mem_range.mpr hp))
    exact ⟨hw, hk, hd⟩
  · rw [execShutdownTestStart_eq hm h1, if_pos hs]
    rfl
  · refine congrArg Host.Outcome.next (accWrite_denied (b := .bist) (o := 0x000) rfl rfl rfl (regAnswers_of_answers (by decide) h1) ?_)
    cases acc with
    | mc => exact absurd hm (by simp [State.mayWrite])
    | portA => exact writeDenied_of_noToken (p := .a) hm rfl
    | portB => exact writeDenied_of_noToken (p := .b) hm rfl
  · refine congrArg Host.Outcome.next (accWrite_none (.inr fun b o hb => .inr ?_))
    obtain ⟨rfl, rfl⟩ := Prod.mk.inj (Option.some.inj ((show blockOf 0x70000 = some (.bist, 0x000) from rfl).symm.trans hb))
    simp [State.regAnswers, State.answers, h1]

end Sys2Proof.Machine
end

section
/-!
PROOFS. Placing Chest records, copies, and telemetry (16): O45 and O46.
-/

set_option Elab.async false

namespace Sys2Proof.Machine

variable {s : State}

/-! ### The Circle -/

/-- Room is made only where the bytes do not fit, and nothing but the oldest records leaves. -/
theorem makeRoom_fits {c : ChestSt} {need : Nat} (h : c.lens.foldl (· + ·) 0 + need ≤ circleSize) (k : Nat) : c.makeRoom k need = c := by
  cases k with
  | zero => rfl
  | succ k =>
    unfold ChestSt.makeRoom
    split
    · rfl
    · rw [if_pos h]

theorem makeRoom_keeps (k : Nat) (c : ChestSt) (need : Nat) :
    c.makeRoom k need = { c with lens := (c.makeRoom k need).lens, old := (c.makeRoom k need).old, oldPos := (c.makeRoom k need).oldPos } := by
  induction k generalizing c with
  | zero => rfl
  | succ k ih =>
    unfold ChestSt.makeRoom
    split
    · rfl
    · split
      · rfl
      · next l ls hl hno => exact (ih { c with lens := ls, old := c.old + 1, oldPos := (c.oldPos + l) % circleSize }).trans rfl

/-- With a record's fuel for each that may leave, the room is there or the Circle is empty. -/
theorem makeRoom_room (k : Nat) (c : ChestSt) {need : Nat} (hk : c.lens.length ≤ k) (hn : need ≤ circleSize) :
    (c.makeRoom k need).lens.foldl (· + ·) 0 + need ≤ circleSize := by
  induction k generalizing c with
  | zero =>
    have hnil : c.lens = [] := List.length_eq_zero_iff.mp (Nat.le_zero.mp hk)
    unfold ChestSt.makeRoom
    rw [hnil]
    exact (Nat.zero_add need).le.trans hn
  | succ k ih =>
    unfold ChestSt.makeRoom
    split
    · next hl => rw [hl]; exact (Nat.zero_add need).le.trans hn
    · next l ls hl =>
      split
      · next hfit => exact hfit
      · refine ih _ ?_
        rw [hl] at hk
        exact Nat.le_of_succ_le_succ hk

theorem foldl_add_snoc (xs : List Nat) (n : Nat) : (xs ++ [n]).foldl (· + ·) 0 = xs.foldl (· + ·) 0 + n := by
  rw [List.foldl_append]
  rfl

/-! ### A record placed -/

/-- What a placed record does to the Chest. -/
theorem place_reads (c : ChestSt) (r : ChestRec) (snaps : List (Nat × Word)) :
    let bs := r.bytes snaps c.next c.epoch
    let d := c.place r snaps
    d.intake = c.intake ∧ d.next = c.next + 1 ∧ d.epoch = c.epoch ∧ d.lost = c.lost ∧ d.copying = c.copying ∧ d.marked = c.marked ∧
      (c.closed = false → c.keepLen + bs.length ≤ 0x10000 →
        d.keep = Mem.writeZ c.keep c.keepLen bs ∧ d.keepLen = c.keepLen + bs.length ∧ d.closed = false) ∧
      ((c.closed = true ∨ 0x10000 < c.keepLen + bs.length) → d.keep = c.keep ∧ d.keepLen = c.keepLen ∧ d.closed = true) ∧
      d.pos = (c.pos + bs.length) % 0x40000 ∧
      (c.lens.foldl (· + ·) 0 + bs.length ≤ 0x40000 → d.lens = c.lens ++ [bs.length] ∧ d.old = c.old ∧ d.oldPos = c.oldPos) ∧
      (bs.length ≤ 0x40000 → d.lens.foldl (· + ·) 0 ≤ 0x40000) ∧
      (c.pos + bs.length ≤ 0x40000 → d.circle = Mem.writeZ c.circle c.pos bs) := by
  intro bs d
  have hkeep := makeRoom_keeps c.lens.length c bs.length
  have hfield : ∀ {β : Type} (f : ChestSt → β), (∀ (x : ChestSt) (l : List Nat) (o : BitVec 32) (p : Nat),
      f { x with lens := l, old := o, oldPos := p } = f x) → f (c.makeRoom c.lens.length bs.length) = f c := fun f hf => by
    rw [hkeep]
    exact hf ..
  have hclosed := hfield (·.closed) fun _ _ _ _ => rfl
  have hkeepLen := hfield (·.keepLen) fun _ _ _ _ => rfl
  have hpos := hfield (·.pos) fun _ _ _ _ => rfl
  have hcircle := hfield (·.circle) fun _ _ _ _ => rfl
  have hkeepMem := hfield (·.keep) fun _ _ _ _ => rfl
  refine ⟨hfield (·.intake) fun _ _ _ _ => rfl, congrArg (· + 1) (hfield (·.next) fun _ _ _ _ => rfl), hfield (·.epoch) fun _ _ _ _ => rfl,
    hfield (·.lost) fun _ _ _ _ => rfl, hfield (·.copying) fun _ _ _ _ => rfl, hfield (·.marked) fun _ _ _ _ => rfl, fun hc hl => ?_,
    fun h => ?_, congrArg (fun p => (p + bs.length) % circleSize) hpos, fun h => ?_, fun h => ?_, fun h => ?_⟩
  · have hfits : (!c.closed && decide (c.keepLen + bs.length ≤ 0x10000)) = true := by rw [hc, decide_eq_true hl]; rfl
    refine ⟨?_, ?_, ?_⟩
    · exact (if_pos hfits).trans (by rw [hkeepMem, hkeepLen])
    · exact (if_pos hfits).trans (by rw [hkeepLen])
    · show ((c.makeRoom c.lens.length bs.length).closed || !(!c.closed && decide (c.keepLen + bs.length ≤ 0x10000))) = false
      rw [hfits, hclosed, hc]; rfl
  · have hfits : (!c.closed && decide (c.keepLen + bs.length ≤ 0x10000)) = false := by
      rcases h with h | h
      · rw [h]; rfl
      · rw [decide_eq_false (by omega), Bool.and_false]
    have hno : ¬ (!c.closed && decide (c.keepLen + bs.length ≤ 0x10000)) = true := by rw [hfits]; decide
    refine ⟨(if_neg hno).trans hkeepMem, (if_neg hno).trans hkeepLen, ?_⟩
    show ((c.makeRoom c.lens.length bs.length).closed || !(!c.closed && decide (c.keepLen + bs.length ≤ 0x10000))) = true
    rw [hfits, Bool.not_false, Bool.or_true]
  · have hroom : c.makeRoom c.lens.length bs.length = c := makeRoom_fits h _
    have hold := congrArg (fun x : ChestSt => x.old) hroom
    have holdPos := congrArg (fun x : ChestSt => x.oldPos) hroom
    exact ⟨congrArg (fun x : ChestSt => x.lens ++ [bs.length]) hroom, hold, holdPos⟩
  · show ((c.makeRoom c.lens.length bs.length).lens ++ [bs.length]).foldl (· + ·) 0 ≤ 0x40000
    rw [foldl_add_snoc]
    exact makeRoom_room _ c (Nat.le_refl _) h
  · show Mem.writeZ (Mem.writeZ (c.makeRoom c.lens.length bs.length).circle (c.makeRoom c.lens.length bs.length).pos
      (bs.take (circleSize - (c.makeRoom c.lens.length bs.length).pos))) 0 (bs.drop (circleSize - (c.makeRoom c.lens.length bs.length).pos)) = _
    rw [hpos, hcircle, List.take_of_length_le (by unfold circleSize; omega), List.drop_of_length_le (by unfold circleSize; omega)]
    rfl

/-! ### The next record -/

theorem nextHalf_single {e : Bool} (hne : s.chest.intake ≠ []) (h : ∀ x ∈ s.chest.intake, x.east = e) : s.nextHalf = (e, s) := by
  have hany : ∀ f : Bool → Bool, s.chest.intake.any (fun x => f x.east) = f e := by
    intro f
    cases hf : f e with
    | true =>
      obtain ⟨x, hx⟩ := List.exists_mem_of_ne_nil _ hne
      exact List.any_eq_true.mpr ⟨x, hx, by rw [h x hx]; exact hf⟩
    | false => exact List.any_eq_false.mpr fun x hx => by rw [h x hx, hf]; decide
  have hwest : s.chest.intake.any (!·.east) = !e := hany (!·)
  have heast : s.chest.intake.any (·.east) = e := hany id
  unfold State.nextHalf
  rw [hwest, heast, Bool.not_and_self]
  rfl

/-- The oldest record of a half leaves the buffer. -/
theorem find_half {pre post : List ChestRec} {r : ChestRec} {e : Bool} (hpre : ∀ x ∈ pre, x.east ≠ e) (hr : r.east = e) :
    (pre ++ r :: post).find? (·.east == e) = some r ∧ (pre ++ r :: post).eraseP (·.east == e) = pre ++ post := by
  have hr' : (r.east == e) = true := beq_iff_eq.mpr hr
  have hno : ∀ x ∈ pre, ¬ (x.east == e) = true := fun x hx h => hpre x hx (beq_iff_eq.mp h)
  constructor
  · rw [List.find?_append, List.find?_eq_none.mpr hno, List.find?_cons_of_pos (p := fun x : ChestRec => x.east == e) hr']
    rfl
  · rw [List.eraseP_append_right _ hno, List.eraseP_cons_of_pos (p := fun x : ChestRec => x.east == e) hr']

/-- A record taken from the buffer and placed. -/
def State.placed (s : State) (r : ChestRec) (rest : List ChestRec) : State :=
  s.modChest fun c => ({ c with intake := rest } : ChestSt).place r (s.snaps r)

theorem placeOne_eq {pre post : List ChestRec} {r : ChestRec} {e : Bool} (hi : s.chest.intake = pre ++ r :: post)
    (hpre : ∀ x ∈ pre, x.east ≠ e) (hr : r.east = e) :
    s.placeOne e = (s.placed r (pre ++ post)).when r.fatal fun s => (s.attn .fatal).copyRequest 2 := by
  obtain ⟨hfind, herase⟩ := find_half (post := post) hpre hr
  unfold State.placeOne
  rw [hi, hfind]
  dsimp only
  have hplace : s.modChest (fun c => ({ c with intake := c.intake.eraseP (·.east == e) } : ChestSt).place r (s.snaps r)) =
      s.placed r (pre ++ post) := by
    have h := congrArg (fun l => s.modChest fun c => ({ c with intake := l } : ChestSt).place r (s.snaps r)) ((congrArg _ hi).trans herase)
    exact h
  rw [hplace]

/-- The commands that place a record of the half that comes next. -/
theorem execChestRecordPlace_eq {pre post : List ChestRec} {r : ChestRec} (h0 : s.passed 0 = true) (hi : s.chest.intake = pre ++ r :: post)
    (hpre : ∀ x ∈ pre, x.east ≠ s.nextHalf.1) (hr : r.east = s.nextHalf.1) :
    exec .chestRecordPlace s =
      .next ((s.nextHalf.2.placed r (pre ++ post)).when r.fatal fun s => (s.attn .fatal).copyRequest 2) := by
  have hchest : s.nextHalf.2.chest = s.chest := (nextHalf_only s).chest
  refine (if_pos h0).trans (congrArg Host.Outcome.next ?_)
  exact placeOne_eq (s := s.nextHalf.2) (by rw [hchest]; exact hi) hpre hr

/-! ### Copies -/

theorem copyRequest_chest (s : State) (reason : BitVec 8) :
    (s.copyRequest reason).chest = { s.chest with copying := (s.copyRequest reason).chest.copying, marked := (s.copyRequest reason).chest.marked } := by
  unfold State.copyRequest
  split <;> rfl

/-- The generation of a new copy is above every one. -/
theorem foldl_max_gen (xs : List ChestSlot) (m : Nat) :
    m ≤ xs.foldl (fun m x => max m x.gen) m ∧ ∀ y ∈ xs, y.gen ≤ xs.foldl (fun m x => max m x.gen) m := by
  induction xs generalizing m with
  | nil => exact ⟨Nat.le_refl m, fun _ h => absurd h List.not_mem_nil⟩
  | cons x xs ih =>
    obtain ⟨hm, hxs⟩ := ih (max m x.gen)
    refine ⟨(Nat.le_max_left ..).trans hm, fun y hy => ?_⟩
    rcases List.mem_cons.mp hy with rfl | hy
    · exact (Nat.le_max_right ..).trans hm
    · exact hxs y hy

/-- The end of the copy that runs. -/
def State.copied (s : State) (reason : BitVec 8) (slot : Nat) : State :=
  (s.modFlash fun f => { f with chest := listUpd f.chest slot fun x => { x with valid := true } }).modChest fun c =>
    { c with copying := none, reason := reason, slot := BitVec.ofNat 2 slot, count := satAdd c.count 1 }

theorem finishCopy_eq {reason : BitVec 8} {slot : Nat} (h : s.chest.copying = some (reason, slot)) :
    s.finishCopy = match s.chest.marked with
      | some r => ((s.copied reason slot).modChest fun c => { c with marked := none }).startCopy r
      | none => s.copied reason slot := by
  unfold State.finishCopy
  rw [h]
  rfl

theorem execChestCopyDone_eq {c : BitVec 8 × Nat} (h : s.chest.copying = some c) :
    exec .chestCopyDone s =
      if s.finishCopy.gov.thermtrip = true ∧ s.finishCopy.chest.copying.isNone = true ∧ s.finishCopy.rstc.inReset ≠ some .por then
        .next (s.finishCopy.assertReset .por 3 false)
      else .next s.finishCopy := by
  refine (if_neg (by rw [h]; exact Bool.false_ne_true)).trans ?_
  rfl

theorem snaps_at (s : State) (r : ChestRec) {i off : Nat} (h : r.offs[i]? = some off) :
    (s.snaps r)[i]? = some (off, if (r.cut.map fun k => decide (k ≤ i)).getD false = true then 0xFFFFFFFF else s.snap r.unit off) := by
  unfold State.snaps
  rw [List.getElem?_map, List.getElem?_zipIdx, h]
  simp

/-- Settles O45: the record of the next half is placed by `place_reads`, and a copy starts, marks another, or ends. -/
theorem chestPlacesAndCopies : Obligations.ChestPlacesAndCopies := by
  unfold Obligations.ChestPlacesAndCopies
  refine ⟨fun s pre post r h0 hi hpre hr hf => ?_, fun s r k i off hc ho => ?_, fun s r i off hc ho => ?_,
    fun s pre post r h0 hi hpre hr hf => ?_, fun s e hne h => nextHalf_single hne h, fun s h => ?_, fun s reason h => ?_,
    fun s h => if_pos (by rw [h]; rfl), fun s reason m slot hc hm => ?_, fun s reason hlo hhi hc => ?_, fun s reason hlo hhi hc => ?_,
    fun s reason slot hc hm ht => ?_, fun s c hc hm ht hp => ?_⟩
  · have hchest : s.nextHalf.2.chest = s.chest := (nextHalf_only s).chest
    have hreads := place_reads ({ s.nextHalf.2.chest with intake := pre ++ post } : ChestSt) r (s.nextHalf.2.snaps r)
    obtain ⟨hin, hnext, hepoch, hlost, hcopy, hmark, hkeep, hfull, hpos, hlens, hsum, hcircle⟩ := hreads
    rw [hchest] at hin hnext hepoch hlost hcopy hmark hkeep hfull hpos hlens hsum hcircle
    have hexec := execChestRecordPlace_eq h0 hi hpre hr
    rw [hf, State.when_false] at hexec
    refine ⟨_, hexec,
      only_modChest ((nextHalf_only s).in) (by decide), ?_⟩
    have ht : (s.nextHalf.2.placed r (pre ++ post)).chest = ({ s.chest with intake := pre ++ post } : ChestSt).place r (s.nextHalf.2.snaps r) := by
      show ChestSt.place { s.nextHalf.2.chest with intake := pre ++ post } _ _ = _
      rw [hchest]
    rw [ht]
    exact ⟨hin, hnext, hepoch, hlost, hcopy, hmark, hkeep, hfull, hpos, hlens, hsum, hcircle⟩
  · rw [snaps_at s r ho, hc]
    simp
  · rw [snaps_at s r ho, hc]
    rfl
  · have hchest : s.nextHalf.2.chest = s.chest := (nextHalf_only s).chest
    obtain ⟨hin, hnext, -⟩ := place_reads ({ s.nextHalf.2.chest with intake := pre ++ post } : ChestSt) r (s.nextHalf.2.snaps r)
    have hp : s.Only (s.nextHalf.2.placed r (pre ++ post)) [.chest, .free] := only_modChest ((nextHalf_only s).in) (by decide)
    have hcr := copyRequest_chest ((s.nextHalf.2.placed r (pre ++ post)).attn .fatal) 2
    have hat : ((s.nextHalf.2.placed r (pre ++ post)).attn .fatal).chest = (s.nextHalf.2.placed r (pre ++ post)).chest :=
      (attn_only ..).chest
    have htop : (((s.nextHalf.2.placed r (pre ++ post)).attn .fatal).copyRequest 2).top =
      ((s.nextHalf.2.placed r (pre ++ post)).attn .fatal).top := (copyRequest_only ..).top
    obtain ⟨ha, hb⟩ := attn_cause (s.nextHalf.2.placed r (pre ++ post)) .fatal
    have hexec := execChestRecordPlace_eq h0 hi hpre hr
    rw [hf, State.when_true] at hexec
    refine ⟨_, hexec,
      only_copyRequest (only_attn (hp.in) (by decide)) (by decide), ?_, ?_, copyRequest_copying .., ?_, ?_⟩
    · rw [hcr]; exact (congrArg ChestSt.intake hat).trans hin
    · rw [hcr]; exact (congrArg ChestSt.next hat).trans (hnext.trans (by rw [hchest]))
    · rw [htop]; exact ha
    · rw [htop]; exact hb
  · by_cases h0 : s.passed 0 = true
    · have hnil := h.resolve_left (by rw [h0]; decide)
      have hnone : s.nextHalf = (false, s) := by unfold State.nextHalf; rw [hnil]; rfl
      refine (if_pos h0).trans (congrArg Host.Outcome.next ?_)
      rw [hnone]
      unfold State.placeOne
      rw [hnil]
      rfl
    · exact if_neg h0
  · exact if_neg (by omega)
  · have hfin : s.finishCopy = ((s.copied reason slot).modChest fun c => { c with marked := none }).startCopy m := by
      rw [finishCopy_eq hc, hm]
    have hcopying : s.finishCopy.chest.copying.isNone = false := by rw [hfin]; rfl
    refine ⟨_, (execChestCopyDone_eq hc).trans (if_neg fun k => Bool.noConfusion (hcopying.symm.trans k.2.1)), ?_⟩
    rw [hfin]
    exact ⟨only_startCopy (only_modChest (only_modChest (only_modFlash (.refl _ _) (by decide)) (by decide)) (by decide)) (by decide), rfl, rfl,
      rfl, rfl, _, rfl⟩
  · have hstart : s.copyRequest reason = s.startCopy reason := if_pos (by rw [hc]; rfl)
    refine ⟨_, (if_pos ⟨hlo, hhi⟩).trans (congrArg Host.Outcome.next hstart), only_startCopy (.refl _ _) (by decide), rfl, fun hlen => ?_,
      fun i hi => List.getElem?_set_ne (Ne.symm hi)⟩
    refine ⟨_, List.getElem?_set_self hlen, rfl, rfl, rfl, rfl, rfl, fun y hy => ?_⟩
    exact Nat.lt_succ_of_le ((foldl_max_gen s.flash.chest 0).2 y hy)
  · refine (if_pos ⟨hlo, hhi⟩).trans (congrArg Host.Outcome.next (if_neg ?_))
    intro k
    rw [Option.isNone_iff_eq_none] at k
    rw [k] at hc
    exact Bool.noConfusion hc
  · have hfin : s.finishCopy = s.copied reason slot := by rw [finishCopy_eq hc, hm]
    refine (execChestCopyDone_eq hc).trans ?_
    rw [hfin]
    exact if_neg fun k => Bool.noConfusion (ht.symm.trans k.1)
  · obtain ⟨reason, slot⟩ := c
    have hfin : s.finishCopy = s.copied reason slot := by rw [finishCopy_eq hc, hm]
    obtain ⟨honly, hin, hsrc, -⟩ := assertReset_por_clears (s.copied reason slot) 3
    have hcopied : s.Only (s.copied reason slot) [.flash, .chest] := only_modChest ((modFlash_only ..).in) (by decide)
    refine ⟨_, (execChestCopyDone_eq hc).trans ?_, ((hcopied.in (ds := .flash :: parts15)).trans (honly.in)).keeps (by decide), hin, hsrc⟩
    rw [hfin]
    exact if_pos ⟨ht, rfl, hp⟩

end Sys2Proof.Machine
end

section
/-!
PROOFS. Telemetry reports (16 R730 to R733): O46.
-/

set_option Elab.async false

namespace Sys2Proof.Machine

variable {s t u : State}

theorem satAdd_add {w : Nat} (x : BitVec w) (a b : Nat) : satAdd (satAdd x a) b = satAdd x (a + b) := by
  have hw := Nat.two_pow_pos w
  refine BitVec.eq_of_toNat_eq ?_
  unfold satAdd
  rw [BitVec.toNat_ofNat, BitVec.toNat_ofNat, BitVec.toNat_ofNat]
  rw [Nat.mod_eq_of_lt (a := min (x.toNat + a) (2 ^ w - 1)) (by omega), Nat.mod_eq_of_lt (by omega), Nat.mod_eq_of_lt (by omega)]
  omega

/-- A periodic kind's report, put where the kind is enabled. -/
def State.putKind (s : State) (kind : Nat) (body : List Byte) : State :=
  s.when (bit s.tel.kinds (kind - 1)) fun s => s.putReport kind (s.reportHead kind s.now s.tel.number ++ body)

/-- One kind's report is in place, and no other's changed. -/
structure State.Reported (s t : State) (kind : Nat) (body : List Byte) : Prop where
  only : s.Only t [.tel]
  tel : t.tel = { s.tel with unsent := t.tel.unsent, skipped := t.tel.skipped }
  unsent : ∀ k, Tab.find t.tel.unsent k =
    if k = kind ∧ bit s.tel.kinds (kind - 1) = true then some (s.reportHead kind s.now s.tel.number ++ body) else Tab.find s.tel.unsent k
  skipped : t.tel.skipped = satAdd s.tel.skipped (if bit s.tel.kinds (kind - 1) && (Tab.find s.tel.unsent kind).isSome then 1 else 0)

theorem satAdd_zero {w : Nat} (x : BitVec w) : satAdd x 0 = x := by
  have := x.isLt
  refine BitVec.eq_of_toNat_eq ?_
  unfold satAdd
  rw [BitVec.toNat_ofNat, Nat.mod_eq_of_lt (by omega)]
  omega

theorem putKind_reported (s : State) (kind : Nat) (body : List Byte) : s.Reported (s.putKind kind body) kind body := by
  unfold State.putKind
  cases hk : bit s.tel.kinds (kind - 1) with
  | false =>
    rw [State.when_false]
    exact ⟨.refl _ _, rfl, fun k => (if_neg (by rw [hk]; exact fun h => Bool.false_ne_true h.2)).symm,
      by rw [hk, Bool.false_and]; exact (satAdd_zero _).symm⟩
  | true =>
    rw [State.when_true]
    cases hf : (Tab.find s.tel.unsent kind).isSome with
    | false =>
      have hput : ∀ x, s.putReport kind x = s.modTel fun t => { t with unsent := Tab.put t.unsent kind x } := fun x => by
        unfold State.putReport
        rw [hf]
        rfl
      rw [hput]
      refine ⟨modTel_only .., rfl, fun k => (Tab.find_put ..).trans ?_, ?_⟩
      · by_cases h : k = kind
        · rw [if_pos h, if_pos ⟨h, hk⟩]
        · rw [if_neg h, if_neg fun x => h x.1]
      · rw [hk, hf]; exact (satAdd_zero _).symm
    | true =>
      have hput : ∀ x, s.putReport kind x = (s.modTel fun t => { t with skipped := satAdd t.skipped 1 }).modTel fun t =>
          { t with unsent := Tab.put t.unsent kind x } := fun x => by
        unfold State.putReport
        rw [hf]
        rfl
      rw [hput]
      refine ⟨only_modTel (modTel_only ..) (by decide), rfl, fun k => (Tab.find_put ..).trans ?_, ?_⟩
      · by_cases h : k = kind
        · rw [if_pos h, if_pos ⟨h, hk⟩]
        · rw [if_neg h, if_neg fun x => h x.1]; rfl
      · rw [hk, hf]
        rfl

/-- The heads of a fret's reports are the same after each of them. -/
theorem State.Reported.head {kind : Nat} {body : List Byte} (h : s.Reported t kind body) (k : Nat) :
    t.reportHead k t.now t.tel.number = s.reportHead k s.now s.tel.number := by
  have hfret : t.fret = s.fret := h.only.fret
  have hnumber : t.tel.number = s.tel.number := by rw [h.tel]
  unfold State.reportHead State.now
  rw [hfret, hnumber]

theorem State.Reported.kinds {kind : Nat} {body : List Byte} (h : s.Reported t kind body) : t.tel.kinds = s.tel.kinds := by rw [h.tel]

/-- The reports of a report fret, kind by kind. -/
def State.reports (s : State) : State :=
  (((s.putKind 1 s.healthBody).putKind 2 s.queuesBody).putKind 3 s.leadBody).putKind 4 s.linksBody

theorem execTelemetryReport_eq (he : s.tel.enable = true) (hn : s.now % 2 ^ s.telExp = 0) :
    exec .telemetryReport s = .next (s.reports.modTel fun t => { t with number := t.number + 1, cnt := s.newCounts }) :=
  if_neg (by rw [he]; rintro (h | h); exacts [absurd h (by decide), h hn])

/-- What a fret's four reports leave: each enabled kind's own, and the count of those that they replaced. -/
theorem reports_reads (s : State) :
    s.Only s.reports [.tel] ∧ s.reports.tel = { s.tel with unsent := s.reports.tel.unsent, skipped := s.reports.tel.skipped } ∧
      Tab.find s.reports.tel.unsent 1 = (if bit s.tel.kinds 0 then some (s.reportHead 1 s.now s.tel.number ++ s.healthBody)
        else Tab.find s.tel.unsent 1) ∧
      Tab.find s.reports.tel.unsent 2 = (if bit s.tel.kinds 1 then some (s.reportHead 2 s.now s.tel.number ++ s.queuesBody)
        else Tab.find s.tel.unsent 2) ∧
      Tab.find s.reports.tel.unsent 3 = (if bit s.tel.kinds 2 then some (s.reportHead 3 s.now s.tel.number ++ s.leadBody)
        else Tab.find s.tel.unsent 3) ∧
      Tab.find s.reports.tel.unsent 4 = (if bit s.tel.kinds 3 then some (s.reportHead 4 s.now s.tel.number ++ s.linksBody)
        else Tab.find s.tel.unsent 4) ∧
      Tab.find s.reports.tel.unsent 5 = Tab.find s.tel.unsent 5 ∧
      s.reports.tel.skipped = satAdd s.tel.skipped
        ((List.range 4).countP fun k => bit s.tel.kinds k && (Tab.find s.tel.unsent (k + 1)).isSome) := by
  have h1 := putKind_reported s 1 s.healthBody
  have h2 := putKind_reported (s.putKind 1 s.healthBody) 2 s.queuesBody
  have h3 := putKind_reported ((s.putKind 1 s.healthBody).putKind 2 s.queuesBody) 3 s.leadBody
  have h4 := putKind_reported (((s.putKind 1 s.healthBody).putKind 2 s.queuesBody).putKind 3 s.leadBody) 4 s.linksBody
  have hk2 := h2.kinds.trans h1.kinds
  have hk3 := h3.kinds.trans hk2
  have hh2 := fun k => (h2.head k).trans (h1.head k)
  have hh3 := fun k => (h3.head k).trans (hh2 k)
  have hunsent : ∀ k, Tab.find s.reports.tel.unsent k =
      if k = 4 ∧ bit s.tel.kinds 3 = true then some (s.reportHead 4 s.now s.tel.number ++ s.linksBody)
      else if k = 3 ∧ bit s.tel.kinds 2 = true then some (s.reportHead 3 s.now s.tel.number ++ s.leadBody)
      else if k = 2 ∧ bit s.tel.kinds 1 = true then some (s.reportHead 2 s.now s.tel.number ++ s.queuesBody)
      else if k = 1 ∧ bit s.tel.kinds 0 = true then some (s.reportHead 1 s.now s.tel.number ++ s.healthBody)
      else Tab.find s.tel.unsent k := by
    intro k
    refine (h4.unsent k).trans ?_
    rw [h3.unsent, h2.unsent, h1.unsent, hk3, hk2, h1.kinds, hh3, hh2, h1.head]
  refine ⟨((h1.only.trans h2.only).trans h3.only).trans h4.only, ?_, (hunsent 1).trans (by simp), (hunsent 2).trans (by simp),
    (hunsent 3).trans (by simp), (hunsent 4).trans (by simp), (hunsent 5).trans (by simp), ?_⟩
  · refine h4.tel.trans ?_
    rw [h3.tel, h2.tel, h1.tel]
    rfl
  · refine h4.skipped.trans ?_
    rw [h3.skipped, h2.skipped, h1.skipped, satAdd_add, satAdd_add, satAdd_add, h3.unsent, h2.unsent, h1.unsent, h2.unsent, h1.unsent,
      h1.unsent, hk3, hk2, h1.kinds]
    refine congrArg (satAdd s.tel.skipped) ?_
    simp [List.range_succ, List.countP_cons]
    ac_rfl

/-- Whether the MC's connection takes reports. -/
def State.telGoes (s : State) : Bool :=
  decide ((s.conn s.tel.conn.toNat).srcKind = 3) && decide ((s.conn s.tel.conn.toNat).state = .opened) && (s.conn s.tel.conn.toNat).nak

theorem execTelemetrySend_go (h : s.telGoes = true) :
    exec .telemetrySend s = .next ((s.each s.tel.unsent fun u r => u.mcSend s.tel.conn.toNat r.2).modTel fun t =>
      { t with unsent := [], sent := t.sent + BitVec.ofNat 16 s.tel.unsent.length }) := by
  show execTelemetrySend s = _
  unfold execTelemetrySend
  extract_lets n c go k s'
  have hgo : go = true := h
  have hs' : s' = s.each s.tel.unsent fun u r => u.mcSend s.tel.conn.toNat r.2 := if_pos hgo
  rw [hgo, hs']
  rfl

theorem execTelemetrySend_skip (h : s.telGoes = false) :
    exec .telemetrySend s = .next { s with tel := { s.tel with unsent := [], skipped := satAdd s.tel.skipped s.tel.unsent.length } } := by
  show execTelemetrySend s = _
  unfold execTelemetrySend
  extract_lets n c go k s'
  have hgo : go = false := h
  have hs' : s' = s := if_neg (by rw [hgo]; decide)
  rw [hgo, hs']
  rfl

/-- Settles O46: the reports of a fret by their kinds, and a send on a connection in NAK mode. -/
theorem telemetryReportsAndSends : Obligations.TelemetryReportsAndSends := by
  unfold Obligations.TelemetryReportsAndSends
  refine ⟨fun s he hn => ?_, fun s h => ?_, fun s hk ho hn => ?_, fun s h => ?_⟩
  · obtain ⟨honly, htel, hunsent⟩ := reports_reads s
    refine ⟨_, execTelemetryReport_eq he hn, only_modTel honly (by decide), ?_, rfl, ?_, hunsent⟩
    · show s.reports.tel.number + 1 = _
      rw [htel]
    · show s.reports.tel.sent = _
      rw [htel]
  · refine if_pos (h.imp (fun h => ?_) id)
    rw [h]; rfl
  · have hgo : (decide ((s.conn s.tel.conn.toNat).srcKind = 3) && decide ((s.conn s.tel.conn.toNat).state = .opened) &&
        (s.conn s.tel.conn.toNat).nak) = true := by rw [hk, ho, hn]; rfl
    have heach : s.Only (s.each s.tel.unsent fun u r => u.mcSend s.tel.conn.toNat r.2) [.mch, .out] :=
      only_each (.refl _ _) fun _ _ h => only_mcSend h (by decide)
    refine ⟨_, execTelemetrySend_go hgo, only_modTel (heach.in) (by decide), ?_⟩
    exact congrArg (fun t : TelSt => { t with unsent := [], sent := t.sent + BitVec.ofNat 16 s.tel.unsent.length }) heach.tel
  · have hgo : (decide ((s.conn s.tel.conn.toNat).srcKind = 3) && decide ((s.conn s.tel.conn.toNat).state = .opened) &&
        (s.conn s.tel.conn.toNat).nak) = false := by
      rcases h with h | h | h
      · rw [decide_eq_false h]; rfl
      · rw [decide_eq_false h, Bool.and_false, Bool.false_and]
      · rw [h, Bool.and_false]
    exact execTelemetrySend_skip hgo

end Sys2Proof.Machine
end

section
/-!
PROOFS. Weight digests (10 R544 to R549): O27.
-/

set_option Elab.async false

namespace Sys2Proof.Machine

variable {s : State}

/-! ### Regions -/

/-- A key set twice holds the second value. -/
theorem Tab.put_put {α : Type} (t : Tab α) (k : Nat) (v w : α) : Tab.put (Tab.put t k v) k w = Tab.put t k w := by
  induction t with
  | nil => simp [Tab.put]
  | cons x t ih =>
    obtain ⟨j, y⟩ := x
    by_cases hlt : k < j
    · simp [Tab.put, hlt]
    · by_cases heq : k = j
      · subst heq; simp [Tab.put]
      · simp [Tab.put, hlt, heq, ih]

theorem updDig_updDig (s : State) (n : Nat) (f g : DigSt → DigSt) : (s.updDig n f).updDig n g = s.updDig n fun d => g (f d) := by
  have h : Tab.upd ({} : DigSt) (Tab.upd {} s.relx.digs n f) n g = Tab.upd {} s.relx.digs n fun d => g (f d) := by
    unfold Tab.upd
    rw [Tab.get_put_self, Tab.put_put]
  exact congrArg (fun ds => s.modRelx fun r => { r with digs := ds }) h

/-- A retirement cause leaves every region. -/
theorem retireCause_dig (s : State) (c : BitVec 4) (n : Nat) : (s.retireCause c).dig n = s.dig n := by
  unfold State.retireCause
  extract_lets a
  have hrec : ∀ u : State, u.relx.digs = s.relx.digs → (u.causeRecord c).dig n = s.dig n := fun u hu =>
    (dig_congr (record_only ..).relx n).trans (congrArg (fun ds => Tab.get ({} : DigSt) ds n) hu)
  have hretired : ∀ u : State, u.retired.dig n = u.dig n := fun u =>
    (dig_congr (record_only ..).relx n).trans (dig_congr (attn_only ..).relx n)
  split
  · exact hrec a rfl
  split
  · exact (hretired _).trans (hrec (a.setRetireFlag c) rfl)
  split
  · exact hrec _ rfl
  · exact hrec _ rfl

/-- A record, a message and an attention cause leave every region. -/
theorem digRecord_dig (s : State) (n k : Nat) : (s.digRecord n).dig k = s.dig k := dig_congr (digRecord_only s n).relx k

/-- A region that becomes BAD. -/
theorem digBad_dig (s : State) (n : Nat) (c : BitVec 2) : (s.digBad n c).dig n = { s.dig n with state := .bad, badCause := c, due := false } := by
  unfold State.digBad
  rw [digRecord_dig, dig_congr (attn_only ..).relx, updDig_dig_self]

/-- A region that becomes DIVERGED. -/
theorem digDiverge_dig (s : State) (n : Nat) : ((s.digDiverge n).dig n).state = .diverged := by
  unfold State.digDiverge
  rw [retireCause_dig, digRecord_dig, updDig_dig_self]

/-- Agreement in LEARN, with the twin's digest known. -/
theorem digAgree_peer {n : Nat} {x : BitVec 256} (hs : (s.dig n).state = .learn) (hl : (s.dig n).learned = true) (ht : s.relx.twinEn = true)
    (hp : (s.dig n).peer = some x) :
    s.digAgree n = if x = (s.dig n).last then s.updDig n fun d => { d with state := .good } else s.digBad n 2 := by
  unfold State.digAgree
  dsimp only
  rw [if_neg (by rw [hs, hl]; decide), if_neg (by rw [ht]; decide), hp]

theorem digAgree_noTwin {n : Nat} (hs : (s.dig n).state = .learn) (hl : (s.dig n).learned = true) (ht : s.relx.twinEn = false) :
    s.digAgree n = s.updDig n fun d => { d with state := .good } := by
  unfold State.digAgree
  dsimp only
  rw [if_neg (by rw [hs, hl]; decide), if_pos ht]

/-! ### Passes -/

/-- A pass that completed is counted, with its digest. -/
def State.counted (s : State) (n : Nat) (d : BitVec 256) : State :=
  s.updDig n fun x => { x with passes := x.passes + 1, count := x.count + 1, last := d, due := false }

theorem counted_dig (s : State) (n : Nat) (d : BitVec 256) :
    (s.counted n d).dig n = { s.dig n with passes := (s.dig n).passes + 1, count := (s.dig n).count + 1, last := d, due := false } :=
  updDig_dig_self ..

/-- A region whose first digest is learned. -/
def State.learnt (s : State) (n : Nat) (d : BitVec 256) (tags : List (BitVec 64)) : State :=
  (s.counted n d).updDig n fun x => { x with learned := true, tags := tags, ref := if x.hostRef then x.ref else d }

theorem learnt_dig (s : State) (n : Nat) (d : BitVec 256) (tags : List (BitVec 64)) : (s.learnt n d tags).dig n =
    { (s.counted n d).dig n with
      learned := true, tags := tags, ref := if ((s.counted n d).dig n).hostRef then ((s.counted n d).dig n).ref else d } :=
  updDig_dig_self ..

/-- What a pass does to a region in each state that has one. -/
theorem passState_learn {n : Nat} {d : BitVec 256} {tags : List (BitVec 64)} (h : (s.dig n).state = .learn) :
    s.passState n d tags = if (s.dig n).hostRef = true ∧ d ≠ (s.dig n).ref then (s.counted n d).digBad n 1
      else (s.learnt n d tags).digAgree n := by
  unfold State.passState
  dsimp only
  rw [h]
  rfl

theorem passState_good {n : Nat} {d : BitVec 256} {tags : List (BitVec 64)} (h : (s.dig n).state = .good) :
    s.passState n d tags = if d = (s.dig n).ref then s.counted n d
      else ((s.counted n d).updDig n fun x => { x with state := .recheck, due := true }).digRecord n := by
  unfold State.passState
  dsimp only
  rw [h]
  rfl

theorem passState_recheck {n : Nat} {d : BitVec 256} {tags : List (BitVec 64)} (h : (s.dig n).state = .recheck) :
    s.passState n d tags = if d = (s.dig n).ref then
        ((s.counted n d).updDig n fun x => { x with state := .good }).modRelx fun r => { r with digTransient := satAdd r.digTransient 1 }
      else if tagMask (s.dig n).tags tags = 0#64 then ((s.counted n d).digBad n 0).retireCause 6
      else ((s.counted n d).updDig n fun x => { x with chunks := tagMask (s.dig n).tags tags }).digBad n 3 := by
  unfold State.passState
  dsimp only
  rw [h]
  rfl

/-- The region after a pass: a first digest with no twin, an agreement, and a difference of each kind. -/
theorem passState_learns {n : Nat} {d : BitVec 256} {tags : List (BitVec 64)} (h : (s.dig n).state = .learn)
    (hr : (s.dig n).hostRef = false) (ht : s.relx.twinEn = false) :
    (s.passState n d tags).dig n = { (s.counted n d).dig n with learned := true, tags := tags, ref := d, state := .good } := by
  have hu := learnt_dig s n d tags
  rw [passState_learn h, if_neg (by rw [hr]; exact fun k => Bool.false_ne_true k.1),
    digAgree_noTwin (s := s.learnt n d tags) (by rw [hu, counted_dig]; exact h) (by rw [hu]) ht, updDig_dig_self, hu, counted_dig]
  dsimp only
  rw [hr]
  rfl

theorem passState_refuted {n : Nat} {d : BitVec 256} {tags : List (BitVec 64)} (h : (s.dig n).state = .learn)
    (hr : (s.dig n).hostRef = true) (hd : d ≠ (s.dig n).ref) :
    (s.passState n d tags).dig n = { (s.counted n d).dig n with state := .bad, badCause := 1, due := false } := by
  rw [passState_learn h, if_pos ⟨hr, hd⟩, digBad_dig]

theorem passState_rechecks {n : Nat} {d : BitVec 256} {tags : List (BitVec 64)} (h : (s.dig n).state = .good) (hd : d ≠ (s.dig n).ref) :
    (s.passState n d tags).dig n = { (s.counted n d).dig n with state := .recheck, due := true } := by
  rw [passState_good h, if_neg hd, digRecord_dig, updDig_dig_self]

theorem passState_agrees {n : Nat} {d : BitVec 256} {tags : List (BitVec 64)} (h : (s.dig n).state = .good) (hd : d = (s.dig n).ref) :
    (s.passState n d tags).dig n = (s.counted n d).dig n := by
  rw [passState_good h, if_pos hd]

theorem passState_recovers {n : Nat} {d : BitVec 256} {tags : List (BitVec 64)} (h : (s.dig n).state = .recheck) (hd : d = (s.dig n).ref) :
    (s.passState n d tags).dig n = { (s.counted n d).dig n with state := .good } ∧
      (s.passState n d tags).relx.digTransient = satAdd s.relx.digTransient 1 := by
  rw [passState_recheck h, if_pos hd]
  have hgood := updDig_dig_self (s.counted n d) n fun x => { x with state := .good }
  exact ⟨hgood, rfl⟩

theorem passState_fails {n : Nat} {d : BitVec 256} {tags : List (BitVec 64)} (h : (s.dig n).state = .recheck) (hd : d ≠ (s.dig n).ref) :
    ((s.passState n d tags).dig n).state = .bad ∧ ((s.passState n d tags).dig n).due = false := by
  rw [passState_recheck h, if_neg hd]
  split
  · rw [retireCause_dig, digBad_dig]; exact ⟨rfl, rfl⟩
  · rw [digBad_dig]; exact ⟨rfl, rfl⟩

/-- The digest of a region as stored. -/
def State.digNow (s : State) (n : Nat) : BitVec 256 := shake32 (s.hbmBytes (s.dig n).base (s.dig n).bytes)

/-- The bits in error of a region that a read of it finds. -/
def State.errsIn (s : State) (n : Nat) (errs : List (Nat × BitErr)) : List (Nat × BitErr) :=
  errs.filter fun e => decide ((s.dig n).base ≤ e.1 * 32) && decide (e.1 * 32 < (s.dig n).base + (s.dig n).bytes)

theorem noteCheck_only (s : State) (es : List (Nat × BitErr)) (a n : Nat) :
    s.Only ((s.noteErrs es).checkRange a n).2 [.top, .rel, .chest, .hbm, .parts, .out] :=
  only_checkRange (noteErrs_only ..).in (by decide)

/-- The parts that a pass changes. -/
def passParts : List Comp := [.flash, .top, .bist, .healx, .rel, .relx, .chest, .mch, .hbm, .parts, .out]

theorem passed_only {u : State} (hu : s.Only u [.top, .rel, .chest, .hbm, .parts, .out]) (n : Nat) (d : BitVec 256)
    (tags : List (BitVec 64)) : s.Only ((u.passState n d tags).digMessage n) passParts :=
  only_digMessage (only_passState (hu.in) (by decide)) (by decide)

/-- A pass that is due: the region is read, and its state moves. -/
theorem execDigestPassDone_eq {n : Fin 256} (errs : List (Nat × BitErr)) (hd : (s.dig n).due = true) (hs : (s.dig n).state ≠ .off) :
    exec (.digestPassDone ⟨n, errs⟩) s = .next (((((s.noteErrs (s.errsIn n errs)).checkRange (s.dig n).base (s.dig n).bytes).2).passState n
      (s.digNow n) (chunkTags (s.hbmBytes (s.dig n).base (s.dig n).bytes))).digMessage n) := by
  refine if_neg ?_
  rintro (h | h)
  · exact Bool.noConfusion (hd.symm.trans h)
  · exact hs h

/-- The state that a pass that is due works on has the regions as they were; the pass's outcome holds the regions that it leaves. -/
theorem execDigestPassDone_reads {n : Fin 256} (errs : List (Nat × BitErr)) (hd : (s.dig n).due = true) (hs : (s.dig n).state ≠ .off) :
    ∃ u t : State, u.relx = s.relx ∧ exec (.digestPassDone ⟨n, errs⟩) s = .next t ∧ s.Only t passParts ∧
      t.relx = (u.passState n (s.digNow n) (chunkTags (s.hbmBytes (s.dig n).base (s.dig n).bytes))).relx :=
  ⟨_, _, (noteCheck_only s (s.errsIn n errs) (s.dig n).base (s.dig n).bytes).relx, execDigestPassDone_eq errs hd hs,
    passed_only (noteCheck_only ..) .., (digMessage_only ..).relx⟩

/-! ### REL_DIG_CTL and REL_DIG_CFG -/

theorem accWrite_digCtl {acc : Accessor} (h : s.mayWrite acc = true) (h0 : s.passed 0 = true) (v : Word) :
    s.accWrite acc 0x90114 v = s.writeDigCtl (s.relx.digSel.get acc).toNat v :=
  accWrite_may (b := .rel) (o := 0x114) rfl rfl rfl (regAnswers_of_answers (by decide) h0) h

theorem accWrite_digCfg {acc : Accessor} (h : s.mayWrite acc = true) (h0 : s.passed 0 = true) (v : Word) :
    s.accWrite acc 0x90100 v = s.writeDigCfg v :=
  accWrite_may (b := .rel) (o := 0x100) rfl rfl rfl (regAnswers_of_answers (by decide) h0) h

theorem accWrite_dig_denied {acc : Accessor} (h : s.mayWrite acc = false) (h0 : s.passed 0 = true) {off o : Nat} (h4 : off % 4 = 0)
    (hb : blockOf off = some (.rel, o)) (hh : blockHas .rel o = true)
    (hf : ∀ (p : HostPort) (v : Word), s.freeWrite p .rel o v = false) (v : Word) : s.accWrite acc off v = s.denyWrite := by
  refine accWrite_denied (b := .rel) (o := o) h4 hb hh (regAnswers_of_answers (by decide) h0) ?_
  cases acc with
  | mc => exact absurd h (by simp [State.mayWrite])
  | portA => exact writeDenied_of_noToken (p := .a) h (hf .a v)
  | portB => exact writeDenied_of_noToken (p := .b) h (hf .b v)

/-- In OFF a write of REL_DIG_CTL sets host_ref first. -/
def State.hostRefSet (s : State) (n : Nat) (v : Word) : State :=
  s.when (decide ((s.dig n).state = .off)) fun s => s.updDig n fun d => { d with hostRef := bit v 29 }

theorem hostRefSet_setField (s : State) (n : Nat) (v : Word) {op : Nat} (hop : op < 2 ^ 2) :
    s.hostRefSet n (setField v 30 2 op) = s.hostRefSet n v := by
  unfold State.hostRefSet
  rw [bit_setField v hop (by decide) (by decide)]

theorem writeDigCtl_enable (s : State) (n : Nat) (v : Word) : s.writeDigCtl n (setField v 30 2 1) = (s.hostRefSet n v).digEnable n := by
  rw [← hostRefSet_setField s n v (op := 1) (by decide)]
  unfold State.writeDigCtl
  dsimp only
  rw [extract_setField_self v (by decide) (by decide)]
  rfl

theorem writeDigCtl_disable (s : State) (n : Nat) (v : Word) : s.writeDigCtl n (setField v 30 2 2) = (s.hostRefSet n v).digDisable n := by
  rw [← hostRefSet_setField s n v (op := 2) (by decide)]
  unfold State.writeDigCtl
  dsimp only
  rw [extract_setField_self v (by decide) (by decide)]
  rfl

theorem writeDigCtl_verify (s : State) (n : Nat) (v : Word) : s.writeDigCtl n (setField v 30 2 3) = (s.hostRefSet n v).digVerify n := by
  rw [← hostRefSet_setField s n v (op := 3) (by decide)]
  unfold State.writeDigCtl
  dsimp only
  rw [extract_setField_self v (by decide) (by decide)]
  rfl

theorem hostRefSet_on {n : Nat} (h : (s.dig n).state ≠ .off) (v : Word) : s.hostRefSet n v = s := by
  unfold State.hostRefSet
  rw [decide_eq_false h, State.when_false]

theorem hostRefSet_off {n : Nat} (h : (s.dig n).state = .off) (v : Word) :
    s.hostRefSet n v = s.updDig n fun d => { d with hostRef := bit v 29 } := by
  unfold State.hostRefSet
  rw [decide_eq_true h, State.when_true]

theorem execDigestEnable_eq {acc : Accessor} (h : s.mayWrite acc = true) (h0 : s.passed 0 = true) (v : Word) :
    exec (.digestEnable acc v) s = .next ((s.hostRefSet (s.relx.digSel.get acc).toNat v).digEnable (s.relx.digSel.get acc).toNat) :=
  congrArg Host.Outcome.next ((accWrite_digCtl h h0 _).trans (writeDigCtl_enable ..))

theorem execDigestDisable_eq {acc : Accessor} (h : s.mayWrite acc = true) (h0 : s.passed 0 = true) (v : Word) :
    exec (.digestDisable acc v) s = .next ((s.hostRefSet (s.relx.digSel.get acc).toNat v).digDisable (s.relx.digSel.get acc).toNat) :=
  congrArg Host.Outcome.next ((accWrite_digCtl h h0 _).trans (writeDigCtl_disable ..))

theorem execDigestVerify_eq {acc : Accessor} (h : s.mayWrite acc = true) (h0 : s.passed 0 = true) (v : Word) :
    exec (.digestVerify acc v) s = .next ((s.hostRefSet (s.relx.digSel.get acc).toNat v).digVerify (s.relx.digSel.get acc).toNat) :=
  congrArg Host.Outcome.next ((accWrite_digCtl h h0 _).trans (writeDigCtl_verify ..))

/-! ### The twin's digests -/

theorem execDigestMessageReceive_learn {m : DigestMsg} (ht : s.relx.twinEn = true) (hs : (s.dig m.region.toNat).state = .learn)
    (hm : m.state = 2) :
    exec (.digestMessageReceive m) s = .next ((s.updDig m.region.toNat fun d => { d with peer := some m.d }).digAgree m.region.toNat) := by
  show execDigestMessageReceive m s = _
  unfold execDigestMessageReceive
  dsimp only
  rw [if_neg (by rw [ht]; decide), hs]
  exact if_pos (.inr hm)

theorem execDigestMessageReceive_good {m : DigestMsg} (ht : s.relx.twinEn = true) (hs : (s.dig m.region.toNat).state = .good) :
    exec (.digestMessageReceive m) s =
      if m.state = 2 ∧ m.d ≠ (s.dig m.region.toNat).last then .next (s.digDiverge m.region.toNat) else .next s := by
  show execDigestMessageReceive m s = _
  unfold execDigestMessageReceive
  dsimp only
  rw [if_neg (by rw [ht]; decide), hs]

/-- A message that agrees or differs, for a learned region of a twin. -/
theorem peerNoted_dig (s : State) (n : Nat) (x : BitVec 256) :
    (s.updDig n fun d => { d with peer := some x }).dig n = { s.dig n with peer := some x } := updDig_dig_self ..

/-- Settles O27: a pass moves its region by the state it is in, and a write or a message acts on the region it names. -/
theorem digestRegionsAreChecked : Obligations.DigestRegionsAreChecked := by
  unfold Obligations.DigestRegionsAreChecked
  have hcounted : ∀ {s u : State} {n : Fin 256} {d : BitVec 256}, u.relx = s.relx → (u.counted n d).dig n =
      { s.dig n with passes := (s.dig n).passes + 1, count := (s.dig n).count + 1, last := d, due := false } := fun hu => by
    rw [counted_dig, dig_congr hu]
  refine ⟨fun s h => rfl, fun s n errs hd hs hr ht => ?_, fun s n errs hd hs hne => ?_, fun s n errs hd hs heq => ?_,
    fun s n errs h => if_pos h, fun s n errs hd hs hr hne => ?_, fun s n errs hd hs heq => ?_, fun s n errs hd hs hne => ?_,
    fun s acc v hm h0 => ?_, fun s acc v hm h0 hs => ?_, fun s acc v hm h0 hs => ?_, fun s acc v hm h0 hrate => ?_, fun s m h => ?_,
    fun s m ht hs h => ?_, fun s m ht hs hm hl hne => ?_, fun s acc v hm h0 hs hok hrate => ?_, fun s acc v hm h0 hs => ?_,
    fun s acc v hm h0 hs => ?_, fun s acc v hm h0 hw he => ?_, fun s m ht hs hm hne => ?_, fun s m ht hs hm hl heq => ?_⟩
  · obtain ⟨u, t, hu, hexec, honly, ht'⟩ := execDigestPassDone_reads errs hd (by rw [hs]; decide)
    have hdig := passState_learns (s := u) (n := n) (d := s.digNow n) (tags := chunkTags (s.hbmBytes (s.dig n).base (s.dig n).bytes))
      (by rw [dig_congr hu]; exact hs) (by rw [dig_congr hu]; exact hr) (by rw [hu]; exact ht)
    rw [hcounted hu] at hdig
    refine ⟨t, hexec, honly, ?_⟩
    rw [dig_congr ht', hdig]
    exact ⟨rfl, rfl, rfl, rfl, rfl⟩
  · obtain ⟨u, t, hu, hexec, honly, ht'⟩ := execDigestPassDone_reads errs hd (by rw [hs]; decide)
    have hdig := passState_rechecks (s := u) (n := n) (d := s.digNow n) (tags := chunkTags (s.hbmBytes (s.dig n).base (s.dig n).bytes))
      (by rw [dig_congr hu]; exact hs) (by rw [dig_congr hu]; exact hne)
    refine ⟨t, hexec, honly, ?_⟩
    rw [dig_congr ht', hdig]
    exact ⟨rfl, rfl⟩
  · obtain ⟨u, t, hu, hexec, honly, ht'⟩ := execDigestPassDone_reads errs hd (by rw [hs]; decide)
    obtain ⟨hdig, hcount⟩ := passState_recovers (s := u) (n := n) (d := s.digNow n)
      (tags := chunkTags (s.hbmBytes (s.dig n).base (s.dig n).bytes)) (by rw [dig_congr hu]; exact hs) (by rw [dig_congr hu]; exact heq)
    rw [hcounted hu] at hdig
    refine ⟨t, hexec, honly, ?_, ?_, ?_⟩
    · rw [dig_congr ht', hdig]
    · rw [dig_congr ht', hdig]
    · rw [ht', hcount, hu]
  · obtain ⟨u, t, hu, hexec, honly, ht'⟩ := execDigestPassDone_reads errs hd (by rw [hs]; decide)
    have hdig := passState_refuted (s := u) (n := n) (d := s.digNow n) (tags := chunkTags (s.hbmBytes (s.dig n).base (s.dig n).bytes))
      (by rw [dig_congr hu]; exact hs) (by rw [dig_congr hu]; exact hr) (by rw [dig_congr hu]; exact hne)
    refine ⟨t, hexec, honly, ?_⟩
    rw [dig_congr ht', hdig]
    exact ⟨rfl, rfl, rfl⟩
  · obtain ⟨u, t, hu, hexec, honly, ht'⟩ := execDigestPassDone_reads errs hd (by rw [hs]; decide)
    have hdig := passState_agrees (s := u) (n := n) (d := s.digNow n) (tags := chunkTags (s.hbmBytes (s.dig n).base (s.dig n).bytes))
      (by rw [dig_congr hu]; exact hs) (by rw [dig_congr hu]; exact heq)
    rw [hcounted hu] at hdig
    refine ⟨t, hexec, honly, ?_⟩
    rw [dig_congr ht', hdig]
    exact ⟨hs, rfl, rfl⟩
  · obtain ⟨u, t, hu, hexec, honly, ht'⟩ := execDigestPassDone_reads errs hd (by rw [hs]; decide)
    have hdig := passState_fails (s := u) (n := n) (d := s.digNow n) (tags := chunkTags (s.hbmBytes (s.dig n).base (s.dig n).bytes))
      (by rw [dig_congr hu]; exact hs) (by rw [dig_congr hu]; exact hne)
    refine ⟨t, hexec, honly, ?_⟩
    rw [dig_congr ht']
    exact hdig
  · have hdeny : ∀ v, s.accWrite acc 0x90114 v = s.denyWrite :=
      accWrite_dig_denied hm h0 (o := 0x114) rfl rfl rfl fun _ _ => rfl
    exact ⟨congrArg Host.Outcome.next (hdeny _), congrArg Host.Outcome.next (hdeny _), congrArg Host.Outcome.next (hdeny _),
      congrArg Host.Outcome.next (accWrite_dig_denied hm h0 (o := 0x100) rfl rfl rfl (fun _ _ => rfl) _)⟩
  · refine ⟨?_, fun hg => ?_⟩
    · rw [execDigestEnable_eq hm h0, hostRefSet_on hs]
      exact congrArg Host.Outcome.next (if_pos (.inl hs))
    · rw [execDigestVerify_eq hm h0, hostRefSet_on hs]
      exact congrArg Host.Outcome.next (if_neg hg)
  · rw [execDigestDisable_eq hm h0, hostRefSet_off hs]
    exact congrArg Host.Outcome.next (updDig_updDig ..)
  · have hok : (rateOk (s.digBytes .west) (intervalSecs (v.extractLsb' 0 12)) && rateOk (s.digBytes .east) (intervalSecs (v.extractLsb' 0 12))) =
        false := by
      rcases hrate with h | h
      · rw [h, Bool.false_and]
      · rw [h, Bool.and_false]
    refine ⟨_, congrArg Host.Outcome.next (accWrite_digCfg hm h0 v), modRelx_only .., ?_, ?_⟩
    · show ((s.relx.cfgErr && !bit v 30) || !(_ && _)) = true
      rw [hok, Bool.not_false, Bool.or_true]
    · exact if_neg (by rw [hok]; decide)
  · show execDigestMessageReceive m s = .next s
    unfold execDigestMessageReceive
    dsimp only
    rcases h with h | ⟨hl, hg⟩
    · exact if_pos h
    · split
      · rfl
      · split
        · next h => exact absurd h hl
        · next h => exact absurd h hg
        · rfl
  · refine (execDigestMessageReceive_good ht hs).trans (if_neg ?_)
    rintro ⟨h2, hne⟩
    exact h.elim (fun k => k h2) fun k => hne k
  · have hp := peerNoted_dig s m.region.toNat m.d
    have hag := digAgree_peer (s := s.updDig m.region.toNat fun d => { d with peer := some m.d }) (n := m.region.toNat) (x := m.d)
      (by rw [hp]; exact hs) (by rw [hp]; exact hl) ht (by rw [hp])
    rw [hp, if_neg hne] at hag
    refine ⟨_, execDigestMessageReceive_learn ht hs hm, only_digAgree ((modRelx_only ..).in) (by decide), ?_⟩
    rw [hag, digBad_dig]
    exact ⟨rfl, rfl⟩
  · have href := hostRefSet_off hs v
    have hdig : (s.hostRefSet (s.relx.digSel.get acc).toNat v).dig (s.relx.digSel.get acc).toNat =
        { s.dig (s.relx.digSel.get acc).toNat with hostRef := bit v 29 } := by rw [href, updDig_dig_self]
    have henable : (s.hostRefSet (s.relx.digSel.get acc).toNat v).digEnable (s.relx.digSel.get acc).toNat =
        (s.hostRefSet (s.relx.digSel.get acc).toNat v).updDig (s.relx.digSel.get acc).toNat fun d =>
          { d with state := .learn, badCause := 0, passes := 0, count := 0, chunks := 0, tags := [], learned := false, peer := none } := by
      unfold State.digEnable
      rw [hdig]
      dsimp only
      refine (if_neg (not_or_intro (fun k => k hs) fun k => Bool.noConfusion (hok.symm.trans k))).trans (if_neg ?_)
      rw [href]
      exact Bool.eq_false_iff.mp (congrArg (! ·) hrate)
    refine ⟨_, execDigestEnable_eq hm h0 v, ?_, ?_⟩
    · rw [henable, href]
      exact only_modRelx (modRelx_only ..) (by decide)
    · rw [henable, updDig_dig_self, hdig]
  · rw [execDigestDisable_eq hm h0, hostRefSet_on hs]
    rfl
  · have hs' : (s.dig (s.relx.digSel.get acc).toNat).state ≠ .off := by rw [hs]; decide
    have hexec := execDigestVerify_eq hm h0 v
    rw [hostRefSet_on hs', show s.digVerify (s.relx.digSel.get acc).toNat = _ from if_pos hs] at hexec
    refine ⟨_, hexec, only_digRecord ((modRelx_only ..).in) (by decide), ?_⟩
    rw [digRecord_dig, updDig_dig_self]
  · refine congrArg Host.Outcome.next ((accWrite_digCfg hm h0 v).trans ?_)
    unfold State.writeDigCfg
    dsimp only
    rw [hw, he]
    simp only [Bool.and_self, Bool.not_true, Bool.or_false, if_true]
    rfl
  · exact ⟨_, (execDigestMessageReceive_good ht hs).trans (if_pos ⟨hm, hne⟩),
      only_retireCause (only_digRecord ((modRelx_only ..).in) (by decide)) (by decide), digDiverge_dig ..⟩
  · have hp := peerNoted_dig s m.region.toNat m.d
    have hag := digAgree_peer (s := s.updDig m.region.toNat fun d => { d with peer := some m.d }) (n := m.region.toNat) (x := m.d)
      (by rw [hp]; exact hs) (by rw [hp]; exact hl) ht (by rw [hp])
    rw [hp, if_pos heq] at hag
    refine ⟨_, execDigestMessageReceive_learn ht hs hm, ?_, ?_⟩
    · rw [hag]
      exact only_modRelx (modRelx_only ..) (by decide)
    · rw [hag, updDig_dig_self]

end Sys2Proof.Machine
end

section
/-!
PROOFS. Twins (11 R583 to R586): O30.
-/

set_option Elab.async false

namespace Sys2Proof.Machine

variable {s : State}

/-! ### HEAL_TWIN -/

/-- The fields of HEAL_TWIN that every write sets. -/
def State.twinFields (s : State) (v : Word) : State :=
  s.modHealx fun h => { h with twinFail := h.twinFail && !bit v 16, twinConn := if h.twin = .none then v.extractLsb' 0 12 else h.twinConn }

/-- A chip that starts to attach. -/
def State.attaches (s : State) (x : TwinState) : State := s.modHealx fun h => { h with twin := x, twinCopy := 0, copied := false }

/-- What the operation of a write does, after its fields. -/
def State.twinOp (s : State) (op : Nat) : State :=
  match op, s.healx.twin with
  | 1, .none => if s.twUp then (s.attaches .attachSrc).sendAttach else s
  | 2, .none => if s.twUp ∧ s.scheds = [] then (s.attaches .attachSink).configureSink s.healx.attachRegions else s
  | 3, .attachSrc | 3, .attachSink => s.attachFail
  | 3, .paired | 3, .solo => ((s.when s.twUp (·.twinSend 0x22 [])).setTwinEn false).modHealx fun h => { h with twin := .none }
  | _, _ => s

theorem writeTwin_eq (s : State) (v : Word) : s.writeTwin v = (s.twinFields v).twinOp (v.extractLsb' 30 2).toNat := by
  unfold State.writeTwin
  extract_lets u
  have hu : u = s.twinFields v := rfl
  rw [← hu]
  clear_value u
  generalize (v.extractLsb' 30 2).toNat = op
  unfold State.twinOp
  cases u.healx.twin <;> rcases op with _ | _ | _ | _ | op <;> rfl

theorem writeTwin_setField (s : State) (v : Word) {op : Nat} (hop : op < 2 ^ 2) :
    s.writeTwin (setField v 30 2 op) = (s.twinFields v).twinOp op := by
  have hfields : s.twinFields (setField v 30 2 op) = s.twinFields v := by
    unfold State.twinFields
    rw [bit_setField v hop (by decide) (by decide), extract_setField v hop (by decide) (by decide)]
  rw [writeTwin_eq, extract_setField_self v (by decide) hop, hfields]

theorem accWrite_twin {acc : Accessor} (h : s.mayWrite acc = true) (h1 : s.passed 1 = true) (v : Word) :
    s.accWrite acc 0x80080 v = s.writeTwin v :=
  accWrite_may (b := .heal) (o := 0x080) rfl rfl rfl (regAnswers_of_answers (by decide) h1) h

theorem accWrite_twin_denied {acc : Accessor} (h : s.mayWrite acc = false) (h1 : s.passed 1 = true) (v : Word) :
    s.accWrite acc 0x80080 v = s.denyWrite := by
  refine accWrite_denied (b := .heal) (o := 0x080) rfl rfl rfl (regAnswers_of_answers (by decide) h1) ?_
  cases acc with
  | mc => exact absurd h (by simp [State.mayWrite])
  | portA => exact writeDenied_of_noToken (p := .a) h rfl
  | portB => exact writeDenied_of_noToken (p := .b) h rfl

section Ops

variable {acc : Accessor} (h : s.mayWrite acc = true) (h1 : s.passed 1 = true) (v : Word)
include h h1

theorem execTwinAttachSource_eq : exec (.twinAttachSource acc v) s = .next ((s.twinFields v).twinOp 1) :=
  congrArg Host.Outcome.next ((accWrite_twin h h1 _).trans (writeTwin_setField s v (by decide)))

theorem execTwinAttachSink_eq : exec (.twinAttachSink acc v) s = .next ((s.twinFields v).twinOp 2) :=
  congrArg Host.Outcome.next ((accWrite_twin h h1 _).trans (writeTwin_setField s v (by decide)))

theorem execTwinDetach_eq : exec (.twinDetach acc v) s = .next ((s.twinFields v).twinOp 3) :=
  congrArg Host.Outcome.next ((accWrite_twin h h1 _).trans (writeTwin_setField s v (by decide)))

end Ops

/-- The operations by the state of the twin. -/
theorem twinOp_source (ht : s.healx.twin = .none) (hu : s.twUp = true) : s.twinOp 1 = (s.attaches .attachSrc).sendAttach := by
  unfold State.twinOp
  rw [ht]
  exact if_pos hu

theorem twinOp_source_idle (h : s.healx.twin ≠ .none ∨ s.twUp = false) : s.twinOp 1 = s := by
  unfold State.twinOp
  cases ht : s.healx.twin with
  | none => exact if_neg (by rw [h.resolve_left (fun k => k ht)]; decide)
  | _ => rfl

theorem twinOp_sink (ht : s.healx.twin = .none) (hu : s.twUp = true) (hs : s.scheds = []) :
    s.twinOp 2 = (s.attaches .attachSink).configureSink s.healx.attachRegions := by
  unfold State.twinOp
  rw [ht]
  exact if_pos ⟨hu, hs⟩

theorem twinOp_sink_idle (h : s.healx.twin ≠ .none ∨ s.twUp = false ∨ s.scheds ≠ []) : s.twinOp 2 = s := by
  unfold State.twinOp
  cases ht : s.healx.twin with
  | none =>
    refine if_neg fun k => ?_
    rcases h.resolve_left (fun k => k ht) with h | h
    · exact Bool.noConfusion (h.symm.trans k.1)
    · exact h k.2
  | _ => rfl

theorem twinOp_detach_attaching (h : s.healx.twin = .attachSrc ∨ s.healx.twin = .attachSink) : s.twinOp 3 = s.attachFail := by
  unfold State.twinOp
  rcases h with h | h <;> rw [h] <;> rfl

theorem twinOp_detach_paired (h : s.healx.twin = .paired ∨ s.healx.twin = .solo) :
    s.twinOp 3 = ((s.when s.twUp (·.twinSend 0x22 [])).setTwinEn false).modHealx fun h => { h with twin := .none } := by
  unfold State.twinOp
  rcases h with h | h <;> rw [h] <;> rfl

theorem twinOp_detach_none (h : s.healx.twin = .none) : s.twinOp 3 = s := by
  unfold State.twinOp
  rw [h]
  rfl

/-! ### The copy -/

theorem execTwinCopyDone_source (h : s.healx.twin = .attachSrc) (mib : BitVec 32) :
    exec (.twinCopyDone mib) s =
      .next (((s.each s.attachList (·.copyRegion ·)).modHealx fun h => { h with twinCopy := mib, copied := true }).pair) := by
  show execTwinCopyDone mib s = _
  unfold execTwinCopyDone
  rw [h]

theorem execTwinCopyDone_sink (h : s.healx.twin = .attachSink) (mib : BitVec 32) :
    exec (.twinCopyDone mib) s =
      if s.healx.copied = false then
        .next ((s.modHealx fun h => { h with twinCopy := mib, copied := true }).each (s.healx.attachRegions.map fun r => r.n.toNat)
          (·.digEnable ·))
      else if (s.healx.attachRegions.map fun r => r.n.toNat).any fun n => decide ((s.dig n).state = .bad) then .next s.attachFail
      else if ((s.healx.attachRegions.map fun r => r.n.toNat).all fun n => decide ((s.dig n).state = .good)) ∧ s.fret.state = .member then
        .next s.pair
      else .next s := by
  show execTwinCopyDone mib s = _
  unfold execTwinCopyDone
  rw [h]

/-- Settles O30: each operation and message by the state of the twin that it meets. -/
theorem twinsAttachAndPart : Obligations.TwinsAttachAndPart := by
  unfold Obligations.TwinsAttachAndPart
  refine ⟨fun s acc v hm h1 ht hu => ?_, fun s acc v hm h1 ht hu hs => ?_, fun s acc v hm h1 ht => ?_, fun s acc v hm h1 ht => ?_,
    fun s acc v hm h1 h => ?_, fun s acc v hm h1 h => ?_, fun s acc v hm h1 ht => ?_, fun s acc v hm h1 => ?_, fun s mib ht hc => ?_,
    fun s mib ht hc hb => ?_, fun s mib ht hc hb h => ?_, fun s mib hsrc hsink => ?_, fun s m h => ⟨if_pos h, if_pos h, if_neg h⟩,
    fun s h => ?_, fun s h => ?_, fun s mib ht => ?_, fun s mib ht hc hmem hall => ?_, fun s ht => ?_, fun s m ht => if_neg fun k => k ht,
    fun s ht => ?_, fun s ht => ?_, fun s rs ht => if_neg ht, fun s rs ht => ?_⟩
  · have hop := twinOp_source (s := s.twinFields v) ht hu
    have honly : s.Only ((s.twinFields v).attaches .attachSrc) [.healx] := only_modHealx (modHealx_only ..) (by decide)
    have hsend := sendAttach_only ((s.twinFields v).attaches .attachSrc)
    refine ⟨_, (execTwinAttachSource_eq hm h1 v).trans (congrArg Host.Outcome.next hop), only_sendAttach (honly.in) (by decide),
      hsend.healx.trans ?_⟩
    show ({ s.healx with
      twin := .attachSrc, twinCopy := 0, copied := false, twinConn := if s.healx.twin = .none then v.extractLsb' 0 12 else s.healx.twinConn
      twinFail := s.healx.twinFail && !bit v 16 } : HealAux) = _
    rw [if_pos ht]
  · have hop := twinOp_sink (s := s.twinFields v) ht hu hs
    have honly : s.Only ((s.twinFields v).attaches .attachSink) [.healx] := only_modHealx (modHealx_only ..) (by decide)
    have hconf := configureSink_only ((s.twinFields v).attaches .attachSink) (s.twinFields v).healx.attachRegions
    refine ⟨_, (execTwinAttachSink_eq hm h1 v).trans (congrArg Host.Outcome.next hop), only_configureSink (honly.in) (by decide),
      hconf.healx.trans ?_⟩
    show ({ s.healx with
      twin := .attachSink, twinCopy := 0, copied := false, twinConn := if s.healx.twin = .none then v.extractLsb' 0 12 else s.healx.twinConn
      twinFail := s.healx.twinFail && !bit v 16 } : HealAux) = _
    rw [if_pos ht]
  · have hop := twinOp_detach_attaching (s := s.twinFields v) ht
    have hne : s.healx.twin ≠ .none := by rcases ht with ht | ht <;> rw [ht] <;> decide
    refine (execTwinDetach_eq hm h1 v).trans (congrArg Host.Outcome.next (hop.trans ?_))
    unfold State.attachFail State.twinFields
    rw [State.modHealx, State.modHealx]
    dsimp only
    rw [if_neg hne]
  · have hop := twinOp_detach_paired (s := s.twinFields v) ht
    have hsend : (s.twinFields v).Only ((s.twinFields v).when (s.twinFields v).twUp (·.twinSend 0x22 [])) [.mch, .out] :=
      only_when (.refl _ _) (twinSend_only ..)
    refine ⟨_, (execTwinDetach_eq hm h1 v).trans (congrArg Host.Outcome.next hop),
      only_modHealx (only_setTwinEn (((modHealx_only ..).in).trans (hsend.in)) (by decide)) (by decide), rfl, ?_⟩
    exact congrArg (fun r : RelAux => { r with twinEn := false }) hsend.relx
  · have hop := twinOp_source_idle (s := s.twinFields v) h
    exact (execTwinAttachSource_eq hm h1 v).trans (congrArg Host.Outcome.next hop)
  · have hop := twinOp_sink_idle (s := s.twinFields v) h
    exact (execTwinAttachSink_eq hm h1 v).trans (congrArg Host.Outcome.next hop)
  · have hop := twinOp_detach_none (s := s.twinFields v) ht
    refine (execTwinDetach_eq hm h1 v).trans (congrArg Host.Outcome.next (hop.trans ?_))
    unfold State.twinFields
    rw [State.modHealx]
    dsimp only
    rw [if_pos ht]
  · exact ⟨congrArg Host.Outcome.next (accWrite_twin_denied hm h1 _), congrArg Host.Outcome.next (accWrite_twin_denied hm h1 _),
      congrArg Host.Outcome.next (accWrite_twin_denied hm h1 _)⟩
  · have henable : (s.modHealx fun h => { h with twinCopy := mib, copied := true }).Only ((s.modHealx fun h =>
        { h with twinCopy := mib, copied := true }).each (s.healx.attachRegions.map fun r => r.n.toNat) (·.digEnable ·)) [.relx] :=
      only_each (.refl _ _) fun _ _ h => only_digEnable h (by decide)
    exact ⟨_, (execTwinCopyDone_sink ht mib).trans (if_pos hc), ((modHealx_only ..).in).trans (henable.in), henable.healx⟩
  · exact (execTwinCopyDone_sink ht mib).trans ((if_neg (by rw [hc]; decide)).trans (if_pos hb))
  · refine (execTwinCopyDone_sink ht mib).trans ((if_neg (by rw [hc]; decide)).trans ((if_neg (by rw [hb]; decide)).trans (if_neg fun k => ?_)))
    exact h.elim (fun h => Bool.noConfusion (h.symm.trans k.1)) fun h => h k.2
  · show execTwinCopyDone mib s = .next s
    unfold execTwinCopyDone
    split
    · next h => exact absurd h hsrc
    · next h => exact absurd h hsink
    · rfl
  · show execTwinDetachReceive s = _
    unfold execTwinDetachReceive
    rcases h with h | h <;> rw [h] <;> rfl
  · show execTwinDetachReceive s = _
    unfold execTwinDetachReceive
    rcases h with h | h <;> rw [h]
  · have hcopy : s.Only (s.each s.attachList (·.copyRegion ·)) [.out] := only_each (.refl _ _) fun _ _ h => only_copyRegion h (by decide)
    refine ⟨_, execTwinCopyDone_source ht mib, only_pair (only_modHealx (hcopy.in) (by decide)) (by decide), rfl, rfl, ?_⟩
    exact congrArg (fun r : RelAux => { r with twinEn := true }) hcopy.relx
  · refine ⟨_, (execTwinCopyDone_sink ht mib).trans ((if_neg (by rw [hc]; decide)).trans ((if_neg ?_).trans (if_pos ⟨hall, hmem⟩))),
      (pair_only s).in, rfl, rfl⟩
    intro hany
    obtain ⟨n, hn, hbad⟩ := List.any_eq_true.mp hany
    have hgood := List.all_eq_true.mp hall n hn
    rw [of_decide_eq_true hbad] at hgood
    exact absurd hgood (by decide)
  · exact ⟨_, if_neg fun k => k ht, twinSend_only .., rfl⟩
  · have hattn := attn_only ((s.setTwinEn false).modHealx fun h => { h with twin := .solo }) .twin
    exact ⟨_, if_pos ht, goSolo_only s, hattn.healx, hattn.relx⟩
  · show execTwinDetachReceive s = _
    unfold execTwinDetachReceive
    rw [ht]
    rfl
  · have hconf := configureSink_only (s.modHealx fun h => { h with attachRegions := h.attachRegions ++ rs }) rs
    exact ⟨_, if_pos ht, ((modHealx_only ..).in).trans (hconf.in), hconf.healx⟩

end Sys2Proof.Machine
end

section
/-!
PROOFS. Partition recovery (11 R577 to R582): O29.
-/

set_option Elab.async false

namespace Sys2Proof.Machine

variable {s : State}

/-! ### The start of a recovery -/

theorem busy_of_tasksIn {p : Nat} {n : BitVec 32} (h : n ∈ s.tasksIn p) : (s.task n).busy = true := by
  have hn := (List.mem_filter.mp h).2
  split at hn
  · exact absurd hn (by decide)
  · exact (Bool.and_eq_true_iff.mp hn).1

/-- The recovery of a partition that runs and is powered is counted, aborts its tasks and forgets its predictions. -/
theorem startRecovery_aborts {p : Nat} (hm : s.partMode p = .run) (hp : s.parked p = false) :
    (s.startRecovery p).heal.prr = satAdd s.heal.prr 1 ∧ ((s.startRecovery p).part p).lp = [] ∧
      ∀ n ∈ s.tasksIn p, ((s.startRecovery p).task n).abort.isSome = true := by
  unfold State.startRecovery
  rw [if_neg (by rw [hm, hp]; decide)]
  extract_lets a b c d e f
  have hb : a.Only b [.tasks, .chest] := only_each (.refl _ _) fun _ _ h => only_detect h (by decide)
  have hd : b.Only d [.tiles, .mch, .parts] :=
    only_lpInvalidate (only_fenceQueues ((modTiles_only ..).in) (by decide)) (by decide)
  have he : d.Only e [.chest, .spn, .tasks] := only_each (.refl _ _) fun _ _ h => only_cutLeaving h (by decide)
  have hf : e.Only f [.mch, .out, .parts] := only_updPart ((closeFolds_only ..).in) (by decide)
  refine ⟨?_, ?_, fun n hn => ?_⟩
  · rw [(recordAt_only ..).heal, hf.heal, he.heal, hd.heal, hb.heal]
    rfl
  · have hlp : (d.part p).lp = [] := (congrArg PartSt.lp (updPart_part_self ..)).trans rfl
    rw [part_congr (recordAt_only ..).parts]
    refine (congrArg PartSt.lp (updPart_part_self ..)).trans ?_
    rw [part_congr (closeFolds_only ..).parts, part_congr he.parts]
    exact hlp
  · have hcut : d.MoreAborts e := .each (.refl d) _ fun v c => cutLeaving_moreAborts v ..
    rw [task_congr (recordAt_only ..).tasks, task_congr hf.tasks]
    refine hcut.abort n ?_
    rw [task_congr hd.tasks]
    exact each_detect_busy .nakFenced (a.tasksIn p) a n hn (busy_of_tasksIn hn)

theorem startRecovery_idle {p : Nat} (h : s.partMode p ≠ .run ∨ s.parked p = true) : s.startRecovery p = s := if_pos h

/-! ### The recovery command -/

theorem accWrite_healCmd {acc : Accessor} (h : s.mayWrite acc = true) (h1 : s.passed 1 = true) (v : Word) :
    s.accWrite acc 0x80004 v = s.writeHealCmd v :=
  accWrite_may (b := .heal) (o := 0x004) rfl rfl rfl (regAnswers_of_answers (by decide) h1) h

/-- The number that a word of HEAL_CMD names. -/
def healTarget (v : Word) : Nat := (v.extractLsb' 0 12 : BitVec 12).toNat

theorem writeHealCmd_recovery (s : State) (v : Word) :
    s.writeHealCmd (setField v 29 3 3) =
      if 16 ≤ healTarget v then s.healResult false 2
      else if s.parked (healTarget v) ∨ s.partMode (healTarget v) ≠ .run then s.healResult false 1
      else (s.startRecovery (healTarget v)).healResult false 0 := by
  unfold State.writeHealCmd
  rw [extract_setField_self v (by decide) (by decide), extract_setField v (by decide) (by decide) (by decide)]
  rfl

theorem execHealPartitionRecovery_eq {acc : Accessor} (h : s.mayWrite acc = true) (h1 : s.passed 1 = true) (v : Word) :
    exec (.healPartitionRecovery acc v) s = .next (
      if 16 ≤ healTarget v then s.healResult false 2
      else if s.parked (healTarget v) ∨ s.partMode (healTarget v) ≠ .run then s.healResult false 1
      else (s.startRecovery (healTarget v)).healResult false 0) :=
  congrArg Host.Outcome.next ((accWrite_healCmd h h1 _).trans (writeHealCmd_recovery s v))

/-! ### The end of the reset -/

theorem modHealx_self {f : HealAux → HealAux} (h : f s.healx = s.healx) : s.modHealx f = s := by
  unfold State.modHealx
  rw [h]

theorem keepLists_nil {x : HealAux} {p q : Nat → Bool} (hf : x.fenceWait = []) (hh : x.hangWait = []) :
    { x with fenceWait := x.fenceWait.filter p, hangWait := x.hangWait.filter q } = x := by
  cases x
  subst hf hh
  rfl

theorem keepRots_nil {x : HealAux} {p : Nat → Bool} (hd : x.rotDue = []) : { x with rotDue := x.rotDue.filter p } = x := by
  cases x
  subst hd
  rfl

/-- With nothing held back, a partition that leaves RESET has no orders to carry out. -/
theorem heldOrders_none {p : Nat} (hf : s.healx.fenceWait = []) (hh : s.healx.hangWait = []) (hr : s.healx.retireWait = none)
    (hd : s.healx.rotDue = []) : s.heldOrders p = s := by
  unfold State.heldOrders
  extract_lets fences hangs a b c d rots e f
  have hfences : fences = [] := by show s.healx.fenceWait.filter _ = []; rw [hf]; rfl
  have hhangs : hangs = [] := by show s.healx.hangWait.filter _ = []; rw [hh]; rfl
  have ha : a = s := modHealx_self (keepLists_nil hf hh)
  have hb : b = s := by show a.each fences _ = s; rw [hfences, ha]; rfl
  have hc : c = s := by show b.when (fences.any _) _ = s; rw [hfences, hb]; rfl
  have hdd : d = s := by show c.each hangs _ = s; rw [hhangs, hc]; rfl
  have hrots : rots = [] := by show d.healx.rotDue.filter _ = []; rw [hdd, hd]; rfl
  have he : e = s := by
    show d.modHealx _ = s
    rw [hdd]
    exact modHealx_self (keepRots_nil hd)
  have hff : f = s := by show e.each rots _ = s; rw [hrots, he]; rfl
  rw [hff, hr]

/-- The controllers of a partition whose reset is done, and the verify operations of its regions. -/
def State.controllersBack (s : State) (p : Nat) : State :=
  ((((((s.loseEntries (.part p)).dropLatches p).endWindows p).each (partClusters p) (·.resetEngine ·)).dropTiles p).updPart p fun q =>
    { q with queue := [], started := [], backlog := [], hbm := .active })

def State.verifies (s : State) (p : Nat) (us : BitVec 16) : State :=
  (((s.setPartMode p .verify).unfenceQueues p).modRstc fun r =>
    { r with blks := r.blks.filter fun b => !(decide (b.level = 2) && decide (b.target = p)) }).modHeal fun h => { h with lastPrr := us }

theorem execPrrResetDone_eq {p : Part} (h : s.partMode p = .reset) (us : BitVec 16) :
    exec (.prrResetDone p us) s = .next ((((s.controllersBack p).verifies p us).each (((s.controllersBack p).verifies p us).digsOf p)
      fun u e => u.digVerify e.1).heldOrders p) :=
  if_neg fun k => k h

theorem controllersBack_reads (s : State) (p : Nat) :
    (s.controllersBack p).healx = s.healx ∧ ((s.controllersBack p).part p).hbm = .active ∧ ((s.controllersBack p).part p).queue = [] ∧
      ((s.controllersBack p).part p).started = [] := by
  unfold State.controllersBack
  have hbefore : s.Only (((s.loseEntries (.part p)).dropLatches p).endWindows p) [.bist, .chest, .latches] :=
    only_endWindows (only_dropLatches ((loseEntries_only ..).in) (by decide)) (by decide)
  have hengines : s.Only ((((s.loseEntries (.part p)).dropLatches p).endWindows p).each (partClusters p) (·.resetEngine ·))
      [.bist, .chest, .latches, .parts, .cluss, .ctxs] :=
    only_each (hbefore.in) fun _ _ h => only_resetEngine h (by decide)
  rw [updPart_part_self]
  exact ⟨((updPart_only ..).healx.trans (dropTiles_only ..).healx).trans hengines.healx, rfl, rfl, rfl⟩

theorem verifies_reads (s : State) (p : Nat) (us : BitVec 16) :
    (s.verifies p us).healx = (s.setPartMode p .verify).healx ∧ (s.verifies p us).parts = s.parts ∧ (s.verifies p us).heal.lastPrr = us :=
  ⟨(unfenceQueues_only ..).healx, (unfenceQueues_only ..).parts, rfl⟩

theorem execPrrResetDone_reads {p : Part} {us : BitVec 16} (h : s.partMode p = .reset) (hf : s.healx.fenceWait = [])
    (hh : s.healx.hangWait = []) (hr : s.healx.retireWait = none) (hd : s.healx.rotDue = []) :
    ∃ t, exec (.prrResetDone p us) s = .next t ∧ t.partMode p = .verify ∧ (t.part p).hbm = .active ∧ (t.part p).queue = [] ∧
      (t.part p).started = [] ∧ t.heal.lastPrr = us := by
  obtain ⟨hback, hhbm, hqueue, hstarted⟩ := controllersBack_reads s p
  obtain ⟨hhealx, hparts, hlast⟩ := verifies_reads (s.controllersBack p) p us
  have hverify : ((s.controllersBack p).verifies p us).Only (((s.controllersBack p).verifies p us).each
      (((s.controllersBack p).verifies p us).digsOf p) fun u e => u.digVerify e.1) [.relx, .chest] :=
    only_each (.refl _ _) fun _ _ h => only_digVerify h (by decide)
  have hx := hverify.healx.trans hhealx
  have hfield : ∀ {β : Type} (f : HealAux → β), (∀ (x : HealAux) (ps : Tab PartMode), f { x with parts := ps } = f x) →
      f ((s.controllersBack p).setPartMode p .verify).healx = f s.healx := fun f hf' => (hf' ..).trans (congrArg f hback)
  have hheld := heldOrders_none (s := ((s.controllersBack p).verifies p us).each (((s.controllersBack p).verifies p us).digsOf p)
      fun u e => u.digVerify e.1) (p := p.val)
    (by rw [hx]; exact (hfield (·.fenceWait) fun _ _ => rfl).trans hf) (by rw [hx]; exact (hfield (·.hangWait) fun _ _ => rfl).trans hh)
    (by rw [hx]; exact (hfield (·.retireWait) fun _ _ => rfl).trans hr) (by rw [hx]; exact (hfield (·.rotDue) fun _ _ => rfl).trans hd)
  have hexec := execPrrResetDone_eq h us
  rw [hheld] at hexec
  have hpart := part_congr (hverify.parts.trans hparts) p
  refine ⟨_, hexec, ?_, ?_, ?_, ?_, ?_⟩
  · rw [partMode_congr hx]
    exact setPartMode_partMode_self ..
  · rw [hpart]; exact hhbm
  · rw [hpart]; exact hqueue
  · rw [hpart]; exact hstarted
  · exact (congrArg HealSt.lastPrr hverify.heal).trans hlast

/-- Settles O29: what starts a recovery, and what its end leaves where nothing was held back. -/
theorem partitionsRecover : Obligations.PartitionsRecover := by
  unfold Obligations.PartitionsRecover
  refine ⟨fun s p hm hp => ?_, fun s p h => congrArg Host.Outcome.next (startRecovery_idle h), fun s pt hm hp => ?_, fun s p hm hp => ?_,
    fun s pt p h hpt => ?_, fun s p hr hw hready hb hrec => ?_, fun s acc v hm h1 hlt hp hrun => ?_, fun s acc v hm h1 hge => ?_,
    fun s acc v hm h1 hlt h => ?_, fun s p us h hf hh hr hd => ?_, fun s p hv hall => ?_, fun s p h => ?_, fun s p us h => if_pos h⟩
  · obtain ⟨hmode, hhbm⟩ := startRecovery_starts hm hp
    obtain ⟨hprr, hlp, habort⟩ := startRecovery_aborts hm hp
    exact ⟨_, rfl, startRecovery_only s p, hmode, hhbm, hlp, hprr, habort⟩
  · exact ⟨_, rfl, startRecovery_only .., (startRecovery_starts hm hp).1, (startRecovery_aborts hm hp).1⟩
  · exact ⟨_, rfl, startRecovery_only .., (startRecovery_starts hm hp).1, (startRecovery_aborts hm hp).1⟩
  · refine ⟨congrArg Host.Outcome.next (startRecovery_idle ?_), congrArg Host.Outcome.next (startRecovery_idle h)⟩
    rw [← hpt]
    exact h
  · have hcause := retireCause_drains hr hw hready hb hrec 3
    refine ⟨_, congrArg Host.Outcome.next hcause, ?_, (record_only ..).relx⟩
    exact only_record ((modRelx_only ..).in) (by decide)
  · have hexec := execHealPartitionRecovery_eq hm h1 v
    rw [if_neg (show ¬ 16 ≤ healTarget v from by unfold healTarget; omega),
      if_neg (show ¬ (s.parked (healTarget v) = true ∨ s.partMode (healTarget v) ≠ .run) from
        fun k => k.elim (fun k => Bool.noConfusion (hp.symm.trans k)) fun k => k hrun)] at hexec
    exact ⟨_, hexec, only_modHeal (startRecovery_only ..) (by decide), (startRecovery_starts hrun hp).1, rfl, rfl,
      (startRecovery_aborts hrun hp).1⟩
  · exact (execHealPartitionRecovery_eq hm h1 v).trans (congrArg Host.Outcome.next (if_pos hge))
  · exact (execHealPartitionRecovery_eq hm h1 v).trans (congrArg Host.Outcome.next ((if_neg (Nat.not_le.mpr hlt)).trans (if_pos h)))
  · obtain ⟨t, hexec, hreads⟩ := execPrrResetDone_reads (us := us) h hf hh hr hd
    have honly : s.Only t parts4 := exec_only hexec
    exact ⟨t, hexec, honly.keeps (by decide), hreads⟩
  · refine ⟨_, if_pos ⟨hv, hall⟩, only_recordAt ((setPartMode_only ..).in) (by decide), ?_⟩
    rw [partMode_congr (recordAt_only ..).healx]
    exact setPartMode_partMode_self ..
  · refine if_neg fun k => h.elim (fun h => h k.1) ?_
    rintro ⟨e, he, hne⟩
    exact hne (of_decide_eq_true (List.all_eq_true.mp k.2 e he))

end Sys2Proof.Machine
end

section
/-!
PROOFS. Fences by command, rotation, in-field tests, variants and the health record (11 R558 to R572): O28.
-/

set_option Elab.async false

namespace Sys2Proof.Machine

variable {s : State}

/-! ### Clusters, and what their tables are read from -/

theorem clus_congr {s t : State} (h : t.cluss = s.cluss) (n : Nat) : t.clus n = s.clus n := by unfold State.clus; rw [h]

@[simp] theorem updClus_clus_self (s : State) (n : Nat) (f : ClusSt → ClusSt) : (s.updClus n f).clus n = f (s.clus n) := by
  rw [updClus_clus, if_pos rfl]

/-- A fence of a tile in service takes it out of use and is counted. -/
theorem fenceTile_tile {pt : Nat} (hf : (s.role pt).role ≠ .fenced) (h : s.partMode (ptPart pt) ≠ .reset) (v : Nat) :
    ((s.fenceTile pt v).tile pt).mode = .fenced ∧ (s.fenceTile pt v).heal.fences = satAdd s.heal.fences 1 := by
  unfold State.fenceTile
  extract_lets c before a b d e f
  rw [if_neg hf, if_neg h]
  refine ⟨?_, ?_⟩
  · rw [tile_congr (lostCheck_only ..).tiles, tile_congr (recordAt_only ..).tiles, tile_congr (attn_only ..).tiles]
    refine (congrArg TileSt.mode (tile_congr (t := d) (s := b) rfl pt)).trans ?_
    rw [updTile_tile_self]
  · rw [(lostCheck_only ..).heal, (recordAt_only ..).heal, (attn_only ..).heal]
    rfl

/-- Slots that a fence lost may be a retirement cause of the shut-down test; its results stand. -/
theorem lostCheck_test (s : State) (c : Nat) (before : List Nat) :
    (s.lostCheck c before).bist.failed = s.bist.failed ∧ (s.lostCheck c before).bist.lastUnit = s.bist.lastUnit := by
  unfold State.lostCheck
  extract_lets lost a
  have hrec : s.Only a [.chest] := only_each (.refl _ _) fun _ _ h => only_variantRecord h (by decide)
  generalize (decide (lost ≠ []) && (decide (2 ≤ (a.lostSlots c).length) || decide (2 ≤ a.unabsorbed))) = go
  cases go with
  | true => rw [State.when_true, retireCause_bist, hrec.bist]; exact ⟨rfl, rfl⟩
  | false => rw [State.when_false, hrec.bist]; exact ⟨rfl, rfl⟩

theorem fenceTile_test (s : State) (pt v : Nat) :
    (s.fenceTile pt v).bist.failed = s.bist.failed ∧ (s.fenceTile pt v).bist.lastUnit = s.bist.lastUnit := by
  unfold State.fenceTile
  extract_lets c before a b d e f
  have hbist : f.bist = s.bist := (recordAt_only ..).bist.trans (attn_only ..).bist
  split
  · exact ⟨rfl, rfl⟩
  split
  · exact ⟨rfl, rfl⟩
  · obtain ⟨hf, hu⟩ := lostCheck_test f c before
    exact ⟨hf.trans (congrArg BistSt.failed hbist), hu.trans (congrArg BistSt.lastUnit hbist)⟩

/-! ### HEAL_CMD -/

/-- A write that no port may make here, by an accessor without the token, is denied. -/
theorem accWrite_unowned {acc : Accessor} {off o : Nat} {b : Block} (h : s.mayWrite acc = false) (h4 : off % 4 = 0)
    (hb : blockOf off = some (b, o)) (hh : blockHas b o = true) (ha : s.regAnswers b o = true)
    (hf : ∀ (p : HostPort) (v : Word), s.freeWrite p b o v = false) (v : Word) : s.accWrite acc off v = s.denyWrite := by
  refine accWrite_denied h4 hb hh ha ?_
  cases acc with
  | mc => exact absurd h (by simp [State.mayWrite])
  | portA => exact writeDenied_of_noToken (p := .a) h (hf .a v)
  | portB => exact writeDenied_of_noToken (p := .b) h (hf .b v)

theorem accWrite_healCmd_denied {acc : Accessor} (h : s.mayWrite acc = false) (h1 : s.passed 1 = true) (v : Word) :
    s.accWrite acc 0x80004 v = s.denyWrite :=
  accWrite_unowned (b := .heal) (o := 0x004) h rfl rfl rfl (regAnswers_of_answers (by decide) h1) (fun _ _ => rfl) v

theorem accWrite_healCmd_none (acc : Accessor) (h1 : s.passed 1 = false) (v : Word) : s.accWrite acc 0x80004 v = s := by
  refine accWrite_none (.inr fun b o hb => .inr ?_)
  obtain ⟨rfl, rfl⟩ : Block.heal = b ∧ 4 = o := Prod.mk.inj (Option.some.inj (rfl.trans hb))
  simpa [State.regAnswers, State.answers] using h1

theorem writeHealCmd_fence (s : State) (v : Word) : s.writeHealCmd (setField v 29 3 1) = s.fenceCmd (healTarget v) := by
  unfold State.writeHealCmd
  rw [extract_setField_self v (by decide) (by decide), extract_setField v (by decide) (by decide) (by decide)]
  rfl

/-- The rotation command marks the cluster and waits. -/
def State.rotateCmd (s : State) (c : Nat) : State :=
  ((s.markRotation c).modHealx fun h => { h with rotateWait := h.rotateWait ++ [c] }).healResult true 3

theorem writeHealCmd_rotate (s : State) (v : Word) :
    s.writeHealCmd (setField v 29 3 2) =
      if 128 ≤ healTarget v then s.healResult false 2 else s.rotateCmd (healTarget v) := by
  unfold State.writeHealCmd
  rw [extract_setField_self v (by decide) (by decide), extract_setField v (by decide) (by decide) (by decide)]
  rfl

theorem execHealFence_eq {acc : Accessor} (h : s.mayWrite acc = true) (h1 : s.passed 1 = true) (v : Word) :
    exec (.healFence acc v) s = .next (s.fenceCmd (healTarget v)) :=
  congrArg Host.Outcome.next ((accWrite_healCmd h h1 _).trans (writeHealCmd_fence s v))

theorem execHealRotate_eq {acc : Accessor} (h : s.mayWrite acc = true) (h1 : s.passed 1 = true) (v : Word) :
    exec (.healRotate acc v) s = .next (if 128 ≤ healTarget v then s.healResult false 2 else s.rotateCmd (healTarget v)) :=
  congrArg Host.Outcome.next ((accWrite_healCmd h h1 _).trans (writeHealCmd_rotate s v))

/-- The tile that a fence command names: fenced at once, fenced already, to be fenced later, or none. -/
theorem fenceCmd_cases {pt : Nat} (h : pt < 2304) :
    s.fenceCmd pt = if (s.role pt).role = .fenced then s.healResult false 0
      else if s.partMode (ptPart pt) = .reset ∨ ((s.role pt).role = .active ∧ s.clusRuns (ptClus pt)) then
        (s.modHealx fun h => { h with fenceWait := h.fenceWait ++ [8 * 4096 + pt] }).healResult true 3
      else (s.fenceTile pt 8).healResult false 0 := by
  unfold State.fenceCmd
  rw [if_neg (Nat.not_le.mpr h)]

/-- The order to fence a tile waits no longer. -/
def State.orderTaken (s : State) (pt : Nat) : State :=
  s.modHealx fun h => { h with fenceWait := h.fenceWait.filter fun c => decide (c ≠ 8 * 4096 + pt) }

/-! ### Rotation -/

/-- A mark leaves the commands that wait, the roles and the modes as they are. -/
theorem markRotation_healx (s : State) (c : Nat) :
    (s.markRotation c).healx = { s.healx with rotDue := (s.markRotation c).healx.rotDue } := by
  unfold State.markRotation
  dsimp only
  split
  · rfl
  · split
    · rfl
    · rfl

theorem markRotation_role (s : State) (c n : Nat) : (s.markRotation c).role n = s.role n :=
  (congrArg (fun x : HealAux => Tab.get (roleDefault n) x.roles n) (markRotation_healx s c)).trans rfl

theorem markRotation_partMode (s : State) (c p : Nat) : (s.markRotation c).partMode p = s.partMode p :=
  (congrArg (fun x : HealAux => Tab.get PartMode.run x.parts p) (markRotation_healx s c)).trans rfl

/-- A cluster with a bench tile, in a partition that takes part in the rotation. -/
structure State.Rotates (s : State) (c : Nat) : Prop where
  bench : s.hasBench c = true
  mode : s.partMode (clusPart c) ≠ .reset
  parked : s.parked (clusPart c) = false
  waking : s.waking (clusPart c) = false

/-- Two states that agree on what the rotation reads. -/
structure State.SameRoles (s t : State) : Prop where
  role : ∀ n, t.role n = s.role n
  mode : ∀ p, t.partMode p = s.partMode p
  parts : t.parts = s.parts
  pwr : t.pwr = s.pwr

theorem markRotation_sameRoles (s : State) (c : Nat) : s.SameRoles (s.markRotation c) :=
  ⟨markRotation_role s c, markRotation_partMode s c, (markRotation_only ..).parts, (markRotation_only ..).pwr⟩

theorem State.SameRoles.trans {s t u : State} (h : s.SameRoles t) (k : t.SameRoles u) : s.SameRoles u :=
  ⟨fun n => (k.role n).trans (h.role n), fun p => (k.mode p).trans (h.mode p), k.parts.trans h.parts, k.pwr.trans h.pwr⟩

theorem State.SameRoles.oldest {s t : State} (h : s.SameRoles t) (c : Nat) : t.oldest c = s.oldest c := by
  unfold State.oldest
  simp only [h.role]

theorem State.SameRoles.rotates {s t : State} (h : s.SameRoles t) {c : Nat} (k : s.Rotates c) : t.Rotates c := by
  refine ⟨?_, ?_, ?_, ?_⟩
  · have := k.bench
    unfold State.hasBench at *
    simpa only [h.role] using this
  · rw [h.mode]; exact k.mode
  · have := k.parked
    unfold State.parked at *
    simpa only [h.pwr, State.part, h.parts] using this
  · have := k.waking
    unfold State.waking at *
    simpa only [h.pwr, State.part, h.parts] using this

theorem markRotation_clus {c : Nat} (h : s.Rotates c) (k : Nat) :
    (s.markRotation c).clus k = if k = c then { s.clus c with rotMark := (s.oldest c).map ptIdx } else s.clus k := by
  unfold State.markRotation
  dsimp only
  rw [if_neg h.mode, if_neg (by rw [h.bench, h.parked, h.waking]; decide), updClus_clus]

theorem markRotation_clus_ne (s : State) {c k : Nat} (h : k ≠ c) : (s.markRotation c).clus k = s.clus k := by
  unfold State.markRotation
  dsimp only
  split
  · rfl
  · split
    · rfl
    · rw [updClus_clus, if_neg h]

theorem each_markRotation_sameRoles (s : State) (cs : List Nat) : s.SameRoles (s.each cs (·.markRotation ·)) :=
  State.each_keeps (P := fun u => s.SameRoles u) (fun u c h => h.trans (markRotation_sameRoles u c)) cs
    ⟨fun _ => rfl, fun _ => rfl, rfl, rfl⟩

/-- Marks of several clusters give each one that takes part its oldest tile. -/
theorem each_markRotation_clus {c : Nat} (cs : List Nat) (hc : c ∈ cs) (h : s.Rotates c) :
    ((s.each cs (·.markRotation ·)).clus c).rotMark = (s.oldest c).map ptIdx := by
  have hmark : ∀ u : State, s.SameRoles u → ((u.markRotation c).clus c).rotMark = (s.oldest c).map ptIdx := fun u hu => by
    rw [markRotation_clus (hu.rotates h), if_pos rfl, hu.oldest]
  obtain ⟨before, after, rfl⟩ := List.append_of_mem hc
  have hsplit : s.each (before ++ c :: after) (·.markRotation ·) =
      ((s.each before (·.markRotation ·)).markRotation c).each after (·.markRotation ·) := List.foldl_append ..
  have hbefore := each_markRotation_sameRoles s before
  rw [hsplit]
  refine (State.each_keeps (P := fun u => s.SameRoles u ∧ (u.clus c).rotMark = (s.oldest c).map ptIdx) (fun u k hu => ?_) after
    ⟨hbefore.trans (markRotation_sameRoles ..), hmark _ hbefore⟩).2
  refine ⟨hu.1.trans (markRotation_sameRoles ..), ?_⟩
  by_cases hk : c = k
  · subst hk; exact hmark u hu.1
  · rw [markRotation_clus_ne u hk]; exact hu.2

/-! ### Moved slots -/

/-- The slot's new tile is made ready, named in the remap table and active. -/
def State.slotTaken (s : State) (c k j : Nat) : State :=
  ((((s.resetTile j).updTile j fun t => { t with inReset := false, mode := .idle, next := s.nextConfig (16 * c + k) }).updClus c fun x =>
    { x with remap := listUpd x.remap k fun _ => BitVec.ofNat 5 (ptIdx j) }).updRole j fun r => { r with role := .active })

/-- Its old tile, if it was in service, is tested. -/
def State.slotLeft (s : State) (old : Nat) : State :=
  s.when (decide ((s.role old).role = .active)) fun s =>
    (s.updRole old fun r => { r with role := .testing, hangRemap := false }).updTile old fun t => { stopTile t with mode := .test }

theorem slotTaken_reads (c k j : Nat) :
    (s.slotTaken c k j).clus c = { s.clus c with remap := listUpd (s.clus c).remap k fun _ => BitVec.ofNat 5 (ptIdx j) } ∧
      ((s.slotTaken c k j).role j).role = .active := by
  refine ⟨?_, ?_⟩
  · refine (clus_congr (updRole_only ..).cluss c).trans ?_
    rw [updClus_clus_self, clus_congr (updTile_only ..).cluss, clus_congr (resetTile_only ..).cluss]
  · exact (congrArg RoleSt.role ((updRole_role ..).trans (if_pos rfl))).trans rfl

theorem slotLeft_reads (old : Nat) : (∀ c, (s.slotLeft old).clus c = s.clus c) ∧ ∀ j, j ≠ old → (s.slotLeft old).role j = s.role j := by
  unfold State.slotLeft
  cases decide ((s.role old).role = .active) with
  | false => exact ⟨fun _ => rfl, fun _ _ => rfl⟩
  | true =>
    rw [State.when_true]
    refine ⟨fun c => (clus_congr (updTile_only ..).cluss c).trans (clus_congr (updRole_only ..).cluss c), fun j hj => ?_⟩
    rw [role_congr (updTile_only ..).healx, updRole_role, if_neg hj]

theorem moveSlot_eq (s : State) (c k j : Nat) : ∃ u : State, u.Only (s.moveSlot c k j) [.flash, .top, .bist, .healx, .relx, .chest, .out] ∧
    ((s.slotTaken c k j).slotLeft (18 * c + s.remapIdx c k)).Only u [.free, .heal] ∧
    ∃ before, s.moveSlot c k j = u.lostCheck c before :=
  ⟨_, lostCheck_only .., only_modHeal (only_freeVal (.refl _ _) (by decide)) (by decide), _, rfl⟩

/-- A slot that moves: the remap table names its new tile, which is active. -/
theorem moveSlot_reads (c k j : Nat) (hj : j ≠ 18 * c + s.remapIdx c k) :
    (s.moveSlot c k j).clus c = { s.clus c with remap := listUpd (s.clus c).remap k fun _ => BitVec.ofNat 5 (ptIdx j) } ∧
      ((s.moveSlot c k j).role j).role = .active := by
  obtain ⟨u, honly, hu, before, hmove⟩ := moveSlot_eq s c k j
  obtain ⟨hclus, hrole⟩ := slotTaken_reads (s := s) c k j
  obtain ⟨hleft, hleftRole⟩ := slotLeft_reads (s := s.slotTaken c k j) (18 * c + s.remapIdx c k)
  refine ⟨?_, ?_⟩
  · rw [clus_congr honly.cluss, clus_congr hu.cluss, hleft, hclus]
  · have hlost : (u.lostCheck c before).role j = u.role j :=
      (congrArg (fun x : HealAux => Tab.get (roleDefault j) x.roles j) (lostCheck_healx u c before)).trans rfl
    rw [hmove, hlost, role_congr hu.healx, hleftRole j hj, hrole]

/-- The mark of a cluster is used up, and with it the command that asked for it. -/
def State.markUsed (s : State) (c : Nat) : State :=
  ((s.updClus c fun x => { x with rotMark := none }).modHealx fun h =>
    { h with rotateWait := h.rotateWait.filter fun x => decide (x ≠ c) }).when (s.healx.rotateWait.contains c) fun s =>
      s.modHeal fun h => { h with busy := false, result := 0 }

theorem markUsed_reads (s : State) (c : Nat) :
    (s.markUsed c).clus c = { s.clus c with rotMark := none } ∧ ∀ j, (s.markUsed c).role j = s.role j := by
  have hclus : (s.updClus c fun x => { x with rotMark := none }).clus c = { s.clus c with rotMark := none } := by rw [updClus_clus_self]
  unfold State.markUsed
  cases s.healx.rotateWait.contains c with
  | true => exact ⟨hclus, fun _ => rfl⟩
  | false => exact ⟨hclus, fun _ => rfl⟩

/-- A rotation's conditions: what it takes for the marked tile's slot to move. -/
theorem execRotationApply_eq {c : Clus} {i j k : Nat} (hmark : (s.clus c).rotMark = some i) (hspare : s.spareTile c = some j)
    (hb : s.hasBench c = true) (hr : s.clusRuns c = false) (hmig : s.atMigration c = true) (hw : s.wantsSpare c = false)
    (hp : s.partMode (clusPart c) ≠ .reset) (hs : s.slotOf (18 * c.val + i) = some k) :
    exec (.rotationApply c) s = .next ((s.moveSlot c k j).markUsed c) := by
  change execRotationApply c s = _
  unfold execRotationApply
  rw [hmark, hspare]
  dsimp only
  rw [if_neg (by rw [hb, hr, hmig, hw]; exact fun k => by simp [hp] at k), hs]
  rfl

theorem execRotationApply_idle {c : Clus} (h : (s.clus c).rotMark = none ∨ s.spareTile c = none ∨ s.hasBench c = false ∨
    s.clusRuns c = true ∨ s.atMigration c = false ∨ s.wantsSpare c = true ∨ s.partMode (clusPart c) = .reset) :
    exec (.rotationApply c) s = .next s := by
  change execRotationApply c s = _
  unfold execRotationApply
  split
  · next i j hmark hspare =>
    refine if_pos ?_
    rcases h with h | h | h
    · exact absurd (hmark.symm.trans h) (by simp)
    · exact absurd (hspare.symm.trans h) (by simp)
    · exact h
  · rfl

/-! ### In-field tests -/

/-- A tile that fails its test is fenced, and the failure is counted with its unit. -/
theorem failedTest_reads {pt : Nat} (hmode : s.partMode (ptPart pt) ≠ .reset) (prog : Nat) (u : BitVec 4) (v : Nat) :
    (((s.tileProgram pt prog (some u)).fenceTile pt v).role pt).role = .fenced ∧
      ((s.tileProgram pt prog (some u)).fenceTile pt v).bist.failed = satAdd s.bist.failed 1 ∧
      ((s.tileProgram pt prog (some u)).fenceTile pt v).bist.lastUnit = u := by
  have honly := tileProgram_only s pt prog (some u)
  have hm : (s.tileProgram pt prog (some u)).partMode (ptPart pt) ≠ .reset := by rw [partMode_congr honly.healx]; exact hmode
  have hbist : (s.tileProgram pt prog (some u)).bist.failed = satAdd s.bist.failed 1 ∧
      (s.tileProgram pt prog (some u)).bist.lastUnit = u := by
    unfold State.tileProgram
    extract_lets a
    rw [show (some u).isSome = true from rfl, State.when_true, (recordAt_only ..).bist]
    exact ⟨rfl, rfl⟩
  obtain ⟨hfailed, hunit⟩ := hbist
  obtain ⟨hf, hu⟩ := fenceTile_test (s.tileProgram pt prog (some u)) pt v
  exact ⟨(fenceTile_role hm v).1, hf.trans hfailed, hu.trans hunit⟩

/-! ### Variants -/

/-- The host of a lost slot is fixed, once. -/
def State.hostFixed (s : State) (c : Nat) (slot : Fin 16) (h : Nat) : State :=
  s.updClus c fun x =>
    if (Tab.find x.hosts slot).isSome then x
    else { x with hosts := Tab.put x.hosts slot (BitVec.ofNat 4 h), remap := listUpd x.remap slot fun _ => x.remap.getD h 0 }

theorem hostFixed_clus (s : State) (c : Nat) (slot : Fin 16) (h : Nat) :
    (s.hostFixed c slot h).clus c = if (Tab.find (s.clus c).hosts slot).isSome then s.clus c
      else { s.clus c with
        hosts := Tab.put (s.clus c).hosts slot (BitVec.ofNat 4 h)
        remap := listUpd (s.clus c).remap slot fun _ => (s.clus c).remap.getD h 0 } := by
  unfold State.hostFixed
  rw [updClus_clus_self]

theorem execVariantLoad_clus {c : Clus} {slot : Fin 16} {sched : BitVec 32} {x : SchedSt} {v : Variant} (hx : s.sched? sched = some x)
    (hv : s.variantFor x.image (16 * c.val + slot.val) = some v) (hl : s.ltLost (16 * c.val + slot.val) = true)
    (hr : s.clusRuns c = false) :
    ∃ t, exec (.variantLoad c slot sched) s = .next t ∧ s.Only t [.top, .chest, .cluss, .tiles, .out] ∧
      t.clus c = if (Tab.find (s.clus c).hosts slot).isSome then s.clus c
        else { s.clus c with
          hosts := Tab.put (s.clus c).hosts slot (BitVec.ofNat 4 (v.host % 16))
          remap := listUpd (s.clus c).remap slot fun _ => (s.clus c).remap.getD (v.host % 16) 0 } := by
  have hexec : exec (.variantLoad c slot sched) s = execVariantLoad c slot sched s := rfl
  have hfind : ((s.sched? sched).bind fun x => s.variantFor x.image (16 * c.val + slot.val)) = some v := by rw [hx]; exact hv
  unfold execVariantLoad at hexec
  dsimp only at hexec
  rw [hfind] at hexec
  dsimp only at hexec
  rw [if_neg (by rw [hl, hr]; decide)] at hexec
  have honly := exec_only hexec
  refine ⟨_, hexec, honly, ?_⟩
  rw [clus_congr (variantRecord_only ..).cluss, clus_congr (attn_only ..).cluss]
  refine (clus_congr ?_ c).trans (hostFixed_clus s c slot (v.host % 16))
  split
  · rfl
  · exact (only_each (cs := [.tiles]) (.refl _ _) fun _ _ h => only_updTile h (by decide)).cluss

/-! ### The health record -/

/-- The record of the fences as they stand. -/
def State.fenceRecord (s : State) : Health :=
  { complete := false, serial := s.fuse.serial, generation := ((s.healthNow.map (·.generation)).getD 0) + 1, applied := false
    retireFound := false && s.bist.causeFound
    fences := (List.range 2304).filter fun pt => decide ((s.role pt).role = .fenced)
    ages := (List.range 2304).filterMap fun pt => (s.role pt).age.map fun a => (pt, a)
    windows := s.bist.faults }

theorem fenceRecord_fences (s : State) :
    s.fenceRecord.fences = (List.range 2304).filter fun pt => decide ((s.role pt).role = .fenced) := by
  simp only [State.fenceRecord]

theorem writeHealth_fences (s : State) : s.fenceRecord ∈ (s.writeHealth false).flash.health :=
  List.mem_append_right _ List.mem_cons_self

/-- Settles O28: what each command, mark, migration and test leaves of the tiles, and when nothing happens. -/
theorem tilesFenceRotateAndTest : Obligations.TilesFenceRotateAndTest := by
  unfold Obligations.TilesFenceRotateAndTest
  refine ⟨fun s acc v hm h1 hlt hf hp hr => ?_, fun s acc v hm h1 hge => ?_, fun s acc v hm h1 hlt ha hr => ?_,
    fun s pt hw hr hp hf => ?_, fun s acc v hm h1 hlt => ?_, fun s hrot => ?_, fun s c i j k hmark hspare hb hr hmig hw hp hs hj => ?_,
    fun s pt hrole hgoes harb => ?_, fun s pt u hrole harb hgoes => ?_, fun s c slot sched x v hx hv hl hr hh => ?_,
    fun s c slot sched x v hx hv hl hr hh => ?_, fun s c slot sched h => ?_, fun s acc v hm h1 hlt hf => ?_, fun s acc v hm h1 => ?_,
    fun s acc v h1 => ?_, fun s pt h => ?_, fun s acc v hm h1 hge => ?_, fun s h => ?_, fun s c h => ?_, fun s pt u h => ?_, fun s => ?_⟩
  · have hexec := execHealFence_eq hm h1 v
    have hrun : s.clusRuns (ptClus (healTarget v)) = false := hr
    rw [fenceCmd_cases (pt := healTarget v) hlt, if_neg (show ¬ (s.role (healTarget v)).role = .fenced from hf), if_neg (by rw [hrun]; exact fun k => k.elim hp fun k => Bool.noConfusion k.2)] at hexec
    obtain ⟨hmode, hcount⟩ := fenceTile_tile hf hp 8
    exact ⟨_, hexec, only_healResult ((fenceTile_only ..).in) (by decide), (fenceTile_role hp 8).1, hmode, rfl, rfl, hcount⟩
  · exact (execHealFence_eq hm h1 v).trans (congrArg Host.Outcome.next (if_pos hge))
  · have hrole : (s.role (healTarget v)).role ≠ .fenced := fun k => absurd (ha.symm.trans k) (by decide)
    rw [execHealFence_eq hm h1, fenceCmd_cases (pt := healTarget v) hlt, if_neg hrole, if_pos (.inr ⟨ha, hr⟩)]
    rfl
  · have hexec : exec (.healFenceDeferredApply pt) s = _ := if_pos ⟨hw, hr, hp⟩
    exact ⟨_, hexec, exec_only hexec, (fenceTile_role (s := s.orderTaken pt) (pt := pt) hp 8).1,
      (fenceTile_tile (s := s.orderTaken pt) (pt := pt) hf hp 8).1, rfl, rfl⟩
  · have hexec := execHealRotate_eq hm h1 v
    rw [if_neg (show ¬ 128 ≤ healTarget v from Nat.not_le.mpr hlt)] at hexec
    refine ⟨_, hexec, only_modHeal (only_modHealx ((markRotation_only ..).in) (by decide)) (by decide), rfl, rfl, ?_⟩
    exact congrArg (· ++ [healTarget v]) ((congrArg HealAux.rotateWait (markRotation_healx s (healTarget v))).trans rfl)
  · have hexec : exec .rotationMark s = _ := if_pos hrot
    exact ⟨_, hexec, exec_only hexec, fun c hc hb hp hk hwk => each_markRotation_clus _ (List.mem_range.mpr hc) ⟨hb, hp, hk, hwk⟩⟩
  · have hexec := execRotationApply_eq hmark hspare hb hr hmig hw hp hs
    obtain ⟨hclus, hrole⟩ := moveSlot_reads (s := s) c k j hj
    obtain ⟨hused, hroles⟩ := markUsed_reads (s.moveSlot c k j) c
    refine ⟨_, hexec, exec_only hexec, ?_, ?_, ?_⟩
    · rw [hused]
    · rw [hused, hclus]
    · rw [hroles, hrole]
  · have hexec : exec (.infieldTestDone pt none) s = _ := if_neg (by rw [hrole, hgoes, harb]; decide)
    refine ⟨_, hexec, ?_, ?_, ?_, rfl⟩
    · exact only_updRole (only_updTile (only_modBist (.refl _ _) (by decide)) (by decide)) (by decide)
    · exact (updRole_role ..).trans (if_pos rfl)
    · rw [tile_congr (updRole_only ..).tiles, updTile_tile_self]
  · have hexec : exec (.infieldTestDone pt (some u)) s = _ := if_neg (by rw [hrole, hgoes, harb]; decide)
    have hmode : s.partMode (ptPart pt) ≠ .reset := fun k => by simp [State.testGoes, k] at hgoes
    exact ⟨_, hexec, exec_only hexec, failedTest_reads hmode 2 u 0xB⟩
  · obtain ⟨t, hexec, honly, hclus⟩ := execVariantLoad_clus hx hv hl hr
    rw [if_neg (by rw [hh]; decide)] at hclus
    refine ⟨t, hexec, honly, ?_, ?_⟩
    · rw [hclus]
      exact (Tab.find_put ..).trans (if_pos rfl)
    · rw [hclus]
  · obtain ⟨t, hexec, honly, hclus⟩ := execVariantLoad_clus hx hv hl hr
    exact ⟨t, hexec, honly, hclus.trans (if_pos hh)⟩
  · change execVariantLoad c slot sched s = _
    unfold execVariantLoad
    dsimp only
    split
    · rfl
    · next v hv =>
      refine if_pos ?_
      rcases h with h | h | h
      · obtain ⟨x, hx, hxv⟩ := Option.bind_eq_some_iff.mp hv
        exact absurd (hxv.symm.trans (h x hx)) (by simp)
      · exact .inl h
      · exact .inr h
  · exact (execHealFence_eq hm h1 v).trans (congrArg Host.Outcome.next ((fenceCmd_cases hlt).trans (if_pos hf)))
  · exact ⟨congrArg Host.Outcome.next (accWrite_healCmd_denied hm h1 _), congrArg Host.Outcome.next (accWrite_healCmd_denied hm h1 _),
      congrArg Host.Outcome.next (accWrite_healCmd_denied hm h1 _)⟩
  · exact ⟨congrArg Host.Outcome.next (accWrite_healCmd_none acc h1 _), congrArg Host.Outcome.next (accWrite_healCmd_none acc h1 _),
      congrArg Host.Outcome.next (accWrite_healCmd_none acc h1 _)⟩
  · refine if_neg fun k => ?_
    obtain ⟨hw, hr, hp⟩ := k
    rcases h with h | h | h
    · exact Bool.noConfusion (h.symm.trans hw)
    · exact Bool.noConfusion (h.symm.trans hr)
    · exact hp h
  · exact (execHealRotate_eq hm h1 v).trans (congrArg Host.Outcome.next (if_pos hge))
  · exact if_neg (by rw [h]; decide)
  · exact execRotationApply_idle h
  · refine if_pos ?_
    rcases h with h | h | h
    · exact .inl h
    · exact .inr (.inl h)
    · exact .inr (.inr h)
  · exact ⟨_, rfl, writeHealth_only s false, s.fenceRecord, writeHealth_fences s, rfl, rfl, rfl, fenceRecord_fences s⟩

end Sys2Proof.Machine
end

section
/-!
PROOFS. Transit counts, arbitration, retirement and the checks of a tile (10 R520 to R536, R551 to R554): O26.
-/

set_option Elab.async false

namespace Sys2Proof.Machine

variable {s : State}

/-! ### Aborts that a fabric port's fall finds -/

theorem cutArriving_moreAborts (s : State) (p : Nat) : s.MoreAborts (s.cutArriving p) := by
  unfold State.cutArriving
  extract_lets part a
  exact .each (modHeld_only ..).moreAborts part fun v h => ((updFab_only ..).moreAborts (s := v)).trans (detect_moreAborts ..)

theorem cutUncrossed_moreAborts (s : State) (w : Worm) : s.MoreAborts (s.cutUncrossed w) := by
  unfold State.cutUncrossed
  extract_lets a
  have ha : s.MoreAborts a := (routeNak_only ..).moreAborts
  split
  · exact ha.trans (detect_moreAborts ..)
  · exact ha

theorem cutPort_moreAborts (s : State) (p : Nat) : s.MoreAborts (s.cutPort p) := by
  unfold State.cutPort
  extract_lets r out cut a
  refine State.MoreAborts.trans (t := a) (.each (.refl s) _ fun v x => ?_) (updRouter_only ..).moreAborts
  have hv : v.MoreAborts (v.countCut p) := (countCut_only ..).moreAborts
  dsimp only
  split
  · exact hv.trans (cutUncrossed_moreAborts ..)
  split
  · exact hv.trans (detect_moreAborts ..)
  · exact hv

theorem fabDown_moreAborts (s : State) (p : Nat) (cause : BitVec 4) : s.MoreAborts (s.fabDown p cause) := by
  unfold State.fabDown
  split
  · exact .refl s
  · extract_lets a b c d
    have hb : a.MoreAborts b :=
      ((cutArriving_moreAborts a p).trans (cutPort_moreAborts ..)).trans (flightDown_only ..).moreAborts
    have hd : b.Only d [.top, .chest, .out] := only_recordAt ((attn_only ..).in) (by decide)
    have ha : s.MoreAborts a := (updFab_only ..).moreAborts
    refine (ha.trans (hb.trans hd.moreAborts)).trans ?_
    generalize (decide (p = 16) && (decide (d.healx.twin = .attachSrc) || decide (d.healx.twin = .attachSink))) = go
    cases go with
    | true =>
      rw [State.when_true]
      exact (modHealx_only d _).moreAborts
    | false => exact .refl d

theorem transitAct_moreAborts (s : State) (unit : Nat) : s.MoreAborts (s.transitAct unit) := by
  unfold State.transitAct
  split
  · exact (fenceTile_only ..).moreAborts
  · exact (retireCause_only ..).moreAborts
  · exact (retireCause_only ..).moreAborts
  · exact fabDown_moreAborts ..

/-- A fence does not touch the words that the SRAM check keeps. -/
theorem fenceTile_check (s : State) (pt v k : Nat) :
    ((s.fenceTile pt v).tile k).ueWord = (s.tile k).ueWord ∧ ((s.fenceTile pt v).tile k).capture = (s.tile k).capture := by
  unfold State.fenceTile
  extract_lets c before a b d e f
  split
  · exact ⟨rfl, rfl⟩
  split
  · exact ⟨rfl, rfl⟩
  · have hb : f.tile k = b.tile k :=
      (tile_congr (recordAt_only ..).tiles k).trans ((tile_congr (attn_only ..).tiles k).trans (tile_congr (t := d) (s := b) rfl k))
    rw [tile_congr (lostCheck_only ..).tiles, hb, updTile_tile]
    by_cases hk : k = pt
    · subst hk; rw [if_pos rfl]; exact ⟨rfl, rfl⟩
    · rw [if_neg hk]; exact ⟨rfl, rfl⟩

theorem transitAct_ueWord (s : State) (unit k : Nat) : ((s.transitAct unit).tile k).ueWord = (s.tile k).ueWord := by
  unfold State.transitAct
  split
  · exact (fenceTile_check ..).1
  · rw [tile_congr (retireCause_only ..).tiles]
  · rw [tile_congr (retireCause_only ..).tiles]
  · rw [tile_congr (fabDown_only ..).tiles]

/-- What a counted transit failure leaves: the counts of other checks, the word in error, and the aborts already found. -/
theorem countTransit_reads (s : State) (unit k : Nat) :
    (s.countTransit unit).rel.ueSram = s.rel.ueSram ∧ ((s.countTransit unit).tile k).ueWord = (s.tile k).ueWord ∧
      s.MoreAborts (s.countTransit unit) := by
  unfold State.countTransit
  extract_lets n a b
  have hb : s.Only b [.relx, .rel] := only_modRel ((modRelx_only ..).in) (by decide)
  cases decide (max 1 b.rel.parThresh.toNat ≤ n) with
  | false => exact ⟨rfl, rfl, hb.moreAborts⟩
  | true =>
    rw [State.when_true]
    refine ⟨?_, ?_, hb.moreAborts.trans (transitAct_moreAborts ..)⟩
    · rw [(transitAct_only ..).rel]; rfl
    · rw [transitAct_ueWord, tile_congr hb.tiles]

/-! ### The checks of a tile -/

/-- A check that makes a capture is counted, holds the fold's inputs, and aborts the task. -/
theorem tileFault_captures {pt : Nat} {task : BitVec 32} {fold : Nat} {rt : FoldRt} {f : TileFault}
    (hf : f = .macPass ∨ f = .hammingPass ∨ f = .fp32 ∨ f = .duplicated) (hbusy : (s.task task).busy = true) :
    (s.tileFault pt task fold rt f).rel = { s.rel with residue := satAdd s.rel.residue 1 } ∧
      ((s.tileFault pt task fold rt f).tile pt).capture.isSome = true ∧
      ((s.tileFault pt task fold rt f).task task).abort.isSome = true := by
  obtain ⟨u, hu, hrel, hcap, htask⟩ : ∃ u : State, s.tileFault pt task fold rt f = u.detect task .residue ∧
      u.rel = { s.rel with residue := satAdd s.rel.residue 1 } ∧ (u.tile pt).capture.isSome = true ∧ u.tasks = s.tasks := by
    rcases hf with rfl | rfl | rfl | rfl <;>
      exact ⟨_, rfl, rfl, (congrArg (fun x : TileSt => x.capture.isSome) (updTile_tile_self ..)).trans rfl, rfl⟩
  rw [hu, (detect_only ..).rel, tile_congr (detect_only ..).tiles]
  refine ⟨hrel, hcap, detect_busy ?_ _⟩
  rw [task_congr htask]
  exact hbusy

theorem tileFault_parity {pt : Nat} {task : BitVec 32} {fold : Nat} {rt : FoldRt} (hbusy : (s.task task).busy = true) :
    (s.tileFault pt task fold rt .parityUse).rel = { s.rel with parity := satAdd s.rel.parity 1 } ∧
      ((s.tileFault pt task fold rt .parityUse).task task).abort.isSome = true :=
  ⟨(detect_only ..).rel, detect_busy (s := s.modRel fun r => { r with parity := satAdd r.parity 1 }) hbusy _⟩

/-- A word with two bits in error is noted, unless one is already, and counted. -/
def State.doubleSeen (s : State) (pt : Nat) (w : BitVec 17) : State :=
  (s.updTile pt fun t => { t with ueWord := if t.ueValid then t.ueWord else w, ueValid := true }).modRel fun r =>
    { r with ueSram := satAdd r.ueSram 1 }

theorem doubleSeen_ueWord {pt : Nat} (w : BitVec 17) (hv : (s.tile pt).ueValid = false) : ((s.doubleSeen pt w).tile pt).ueWord = w := by
  have hnoted : (s.updTile pt fun t => { t with ueWord := if t.ueValid then t.ueWord else w, ueValid := true }).tile pt =
    { s.tile pt with ueWord := if (s.tile pt).ueValid then (s.tile pt).ueWord else w, ueValid := true } := updTile_tile_self ..
  refine (congrArg TileSt.ueWord hnoted).trans ?_
  dsimp only
  rw [hv]
  rfl

/-- The first double error of a tile keeps its word, is counted, and aborts the task. -/
theorem tileFault_double {pt : Nat} {task : BitVec 32} {fold : Nat} {rt : FoldRt} (w : BitVec 17) (hbusy : (s.task task).busy = true)
    (hv : (s.tile pt).ueValid = false) :
    (s.tileFault pt task fold rt (.sramDouble w)).rel.ueSram = satAdd s.rel.ueSram 1 ∧
      ((s.tileFault pt task fold rt (.sramDouble w)).tile pt).ueWord = w ∧
      ((s.tileFault pt task fold rt (.sramDouble w)).task task).abort.isSome = true := by
  have heq : s.tileFault pt task fold rt (.sramDouble w) = ((s.doubleSeen pt w).detect task .parity).countTransit (transitKey 1 pt) := rfl
  have honly : s.Only (s.doubleSeen pt w) [.tiles, .rel] := only_modRel ((updTile_only ..).in) (by decide)
  obtain ⟨hue, hword, haborts⟩ := countTransit_reads ((s.doubleSeen pt w).detect task .parity) (transitKey 1 pt) pt
  rw [heq]
  refine ⟨?_, ?_, haborts.abort task (detect_busy ?_ _)⟩
  · rw [hue, (detect_only ..).rel]
    rfl
  · rw [hword, tile_congr (detect_only ..).tiles]
    exact doubleSeen_ueWord w hv
  · rw [task_congr honly.tasks]
    exact hbusy

/-! ### Retirement -/

theorem retired_reads (s : State) : s.retired.relx = { s.relx with retState := .retired } ∧ s.retired.flash = s.flash :=
  ⟨(record_only ..).relx.trans (attn_only ..).relx, (record_only ..).flash.trans (attn_only ..).flash⟩

theorem copyRequest_flash (s : State) (reason : BitVec 8) :
    (s.copyRequest reason).flash = { s.flash with chest := (s.copyRequest reason).flash.chest } := by
  unfold State.copyRequest
  split
  · rfl
  · rfl

theorem placeOne_retFlag (s : State) (east : Bool) : (s.placeOne east).flash.retFlag = s.flash.retFlag := by
  unfold State.placeOne
  split
  · rfl
  · next r _ =>
    extract_lets snaps a
    cases r.fatal with
    | false => rfl
    | true =>
      rw [State.when_true, copyRequest_flash]
      exact (congrArg FlashSt.retFlag (attn_only a .fatal).flash).trans rfl

theorem placeAll_retFlag (k : Nat) (s : State) : (State.placeAll k s).flash.retFlag = s.flash.retFlag := by
  induction k generalizing s with
  | zero => rfl
  | succ k ih => exact (ih _).trans (placeOne_retFlag ..)

theorem execRetireStart_eq {cause : BitVec 4} (h0 : cause ≠ 0) (h5 : cause ≠ 5) (h7 : cause.toNat ≤ 7) :
    exec (.retireStart cause) s = .next (s.retireCause cause) := by
  refine if_neg ?_
  rintro (h | h | h)
  · exact h0 h
  · exact h5 h
  · omega

/-- A chip that is not in service is retired at once. -/
theorem retireCause_retires (hr : s.relx.retState = .none) (hw : s.healx.retireWait = none) (hready : s.top.ready = false) (c : BitVec 4) :
    s.Only (s.retireCause c) [.flash, .top, .bist, .relx, .chest, .out] ∧ (s.retireCause c).relx.retState = .retired ∧
      (s.retireCause c).relx.retFlag = true ∧ (s.retireCause c).relx.retCause = c ∧ (s.retireCause c).flash.retFlag = true := by
  unfold State.retireCause
  extract_lets a
  rw [if_neg (show ¬ (a.relx.retState ≠ .none ∨ a.healx.retireWait.isSome) from by
      rintro (h | h)
      · exact h hr
      · exact absurd ((congrArg Option.isSome hw).symm.trans h) (by decide)),
    if_pos (show a.top.ready = false ∨ a.bist.state ≠ 0 from .inl hready)]
  refine ⟨only_retired (only_causeRecord (only_setRetireFlag ((modBist_only ..).in) (by decide)) (by decide)) (by decide), ?_⟩
  obtain ⟨hrelx, hflash⟩ := retired_reads ((a.setRetireFlag c).causeRecord c)
  have hflag : ((a.setRetireFlag c).causeRecord c).relx = { s.relx with retFlag := true, retCause := c } := (causeRecord_only ..).relx
  rw [hrelx, hflash, hflag, (causeRecord_only ..).flash]
  exact ⟨rfl, rfl, rfl, rfl⟩

/-- The flag set and a copy asked for, the chip is retired with the cause it drained for. -/
theorem execRetireComplete_retires (hd : s.relx.retState = .draining) (hany : s.anyTask = false) :
    ∃ t, exec .retireComplete s = .next t ∧ s.Only t [.flash, .top, .relx, .chest, .mch, .out] ∧ t.relx.retState = .retired ∧
      t.relx.retFlag = true ∧ t.relx.retCause = s.relx.retCause ∧ t.flash.retFlag = true := by
  have hexec : exec .retireComplete s = execRetireComplete s := rfl
  unfold execRetireComplete at hexec
  rw [if_neg (by rw [hd, hany]; decide)] at hexec
  extract_lets u at hexec
  have hu : s.Only u [.mch, .out] := only_when (.refl _ _) ((mcSend_only ..).in)
  clear_value u
  obtain ⟨hrelx, hflash⟩ := retired_reads ((u.setRetireFlag u.relx.retCause).copyRequest 2)
  have hcopy : ((u.setRetireFlag u.relx.retCause).copyRequest 2).relx = { u.relx with retFlag := true } := (copyRequest_only ..).relx
  refine ⟨_, hexec, only_retired (only_copyRequest (only_setRetireFlag (hu.in) (by decide)) (by decide)) (by decide), ?_⟩
  rw [hrelx, hflash, hcopy, copyRequest_flash]
  refine ⟨rfl, rfl, ?_, rfl⟩
  show u.relx.retCause = _
  rw [hu.relx]

/-- What a lockstep failure records before its reset. -/
def State.lockstepNoted (s : State) (pc0 pc1 : Word) : State :=
  (((s.record .lockstep [pc0, pc1]).causeRecord 5).setRetireFlag 5).attn .retire

theorem execMcLockstepFail_resets (hl : s.resetLevel = none) (hr : s.relx.retState = .none) {pc0 pc1 : Word} :
    ∃ t, exec (.mcLockstepFail pc0 pc1) s = .next t ∧ s.Keeps t [.fuse, .tap, .ticks, .free, .pending] ∧ t.rstc.inReset = some .system ∧
      t.rstc.src = 6 ∧ t.relx.retFlag = true ∧ t.relx.retCause = 5 ∧ t.flash.retFlag = true := by
  have hin : s.rstc.inReset ≠ some .por := by
    intro k
    unfold State.resetLevel at hl
    split at hl
    · exact absurd hl (by simp)
    · exact absurd (k.symm.trans hl) (by simp)
  have hexec : exec (.mcLockstepFail pc0 pc1) s = execMcLockstepFail pc0 pc1 s := rfl
  have hrecords : s.Only ((s.record .lockstep [pc0, pc1]).causeRecord 5) [.chest] := only_causeRecord ((record_only ..).in) (by decide)
  unfold execMcLockstepFail at hexec
  rw [if_neg hin] at hexec
  dsimp only at hexec
  rw [if_pos ((congrArg RelAux.retState hrecords.relx).trans hr)] at hexec
  change _ = Host.Outcome.next ((State.placeAll (s.lockstepNoted pc0 pc1).chest.intake.length (s.lockstepNoted pc0 pc1)).requestReset .system 6 true)
    at hexec
  have hnoted : s.Only (s.lockstepNoted pc0 pc1) [.flash, .top, .relx, .chest, .out] :=
    only_attn (only_setRetireFlag (hrecords.in) (by decide)) (by decide)
  have hflags : (s.lockstepNoted pc0 pc1).relx.retFlag = true ∧ (s.lockstepNoted pc0 pc1).relx.retCause = 5 ∧
      (s.lockstepNoted pc0 pc1).flash.retFlag = true := by
    unfold State.lockstepNoted
    rw [(attn_only ..).relx, (attn_only ..).flash]
    exact ⟨rfl, rfl, rfl⟩
  obtain ⟨hflag, hcause, hflash⟩ := hflags
  generalize hu : State.placeAll (s.lockstepNoted pc0 pc1).chest.intake.length (s.lockstepNoted pc0 pc1) = u at hexec
  have hplaced : (s.lockstepNoted pc0 pc1).Only u [.flash, .top, .chest, .out] := by rw [← hu]; exact placeAll_only ..
  have hretFlag : u.flash.retFlag = true := by rw [← hu, placeAll_retFlag]; exact hflash
  have hidle : u.resetLevel = none := by
    unfold State.resetLevel
    rw [hplaced.rstc, hnoted.rstc]
    exact hl
  rw [requestReset_idle hidle (by rw [levelAsked_system]; exact fun k => absurd k.1 (by decide)), if_pos rfl, levelAsked_system] at hexec
  obtain ⟨hin', hsrc, -⟩ := assertReset_system_clears u 6 (decide (Level.system = .core) && !u.rstc.everReady)
  have hbefore := beforeSystem_only u 6
  have honly : s.Only _ parts8 := exec_only hexec
  refine ⟨_, hexec, honly.keeps (by decide), hin', hsrc, ?_, ?_, ?_⟩
  · exact (congrArg RelAux.retFlag (hbefore.relx.trans hplaced.relx)).trans hflag
  · exact (congrArg RelAux.retCause (hbefore.relx.trans hplaced.relx)).trans hcause
  · exact (congrArg FlashSt.retFlag hbefore.flash).trans hretFlag

/-! ### Arbitration -/

/-- What a conclusion counts and records before it acts. -/
def State.concluded (s : State) (c : Clus) (pt row : Nat) : State :=
  ((s.modRel (arbCount row)).arbLast pt (arbVerdict row) true).recordAt .arbitration (isEast (clusHalf c)) c
    [relRead (chestSel 0) ((s.modRel (arbCount row)).arbLast pt (arbVerdict row) true) 0x030,
      relRead (chestSel 0) ((s.modRel (arbCount row)).arbLast pt (arbVerdict row) true) 0x034]

theorem execArbitrationDone_eq {c : Clus} {a : ArbSt} (h : (s.relx.arbs.find? fun a => decide (a.clus = c.val)) = some a)
    (rs : List Replay) :
    exec (.arbitrationDone c rs) s =
      let u := s.concluded c a.pt (arbRow rs)
      match arbRow rs with
      | 1 =>
        if a.repeated then .next ((u.retireCause 4).endArb a.pt 5)
        else .next (u.modRelx fun r => { r with arbs := r.arbs.map fun x => if x.clus = c.val then { x with repeated := true } else x })
      | 2 => .next ((u.endArb a.pt 2).fenceTile a.pt 2)
      | 3 => .next ((u.endArb a.pt 3).fenceTile a.pt 3)
      | 4 =>
        match a.bench with
        | some b => .next ((u.endArb a.pt 4).fenceTile b 4)
        | none => .next (u.endArb a.pt 4)
      | _ => .next (u.endArb a.pt 1) := by
  change execArbitrationDone c rs s = _
  unfold execArbitrationDone
  rw [h]
  rfl

theorem concluded_only (s : State) (c : Clus) (pt row : Nat) : s.Only (s.concluded c pt row) [.rel, .chest] :=
  only_recordAt (only_arbLast ((modRel_only ..).in) (by decide)) (by decide)

theorem arbLast_counts (s : State) (pt : Nat) (v : BitVec 3) (b : Bool) :
    (s.arbLast pt v b).rel = { s.rel with
      arbValid := (s.arbLast pt v b).rel.arbValid, arbVerdict := (s.arbLast pt v b).rel.arbVerdict, arbPt := (s.arbLast pt v b).rel.arbPt
      arbCheck := (s.arbLast pt v b).rel.arbCheck, arbLt := (s.arbLast pt v b).rel.arbLt, arbTask := (s.arbLast pt v b).rel.arbTask } := by
  unfold State.arbLast
  split
  · rfl
  · rfl

/-- The counters of the conclusion are those of its row. -/
theorem concluded_counts (s : State) (c : Clus) (pt row : Nat) {β : Type} (f : RelSt → β)
    (hf : ∀ (r : RelSt) (a : Bool) (b : BitVec 3) (d : BitVec 12) (e : BitVec 4) (g : BitVec 11) (k : BitVec 32),
      f { r with arbValid := a, arbVerdict := b, arbPt := d, arbCheck := e, arbLt := g, arbTask := k } = f r) :
    f (s.concluded c pt row).rel = f (arbCount row s.rel) := by
  have hrel : (s.concluded c pt row).rel = ((s.modRel (arbCount row)).arbLast pt (arbVerdict row) true).rel := (recordAt_only ..).rel
  rw [hrel, arbLast_counts, hf]
  rfl

theorem endArb_arbs (s : State) (pt : Nat) (v : BitVec 3) :
    (s.endArb pt v).relx.arbs = s.relx.arbs.filter (fun x => decide (x.pt ≠ pt)) ∧ (s.endArb pt v).relx.retState = s.relx.retState ∧
      (s.endArb pt v).relx.retCause = s.relx.retCause := by
  have hreport : ∀ (u : State) (n : BitVec 32), (u.retryReport n).relx.arbs = u.relx.arbs ∧
      (u.retryReport n).relx.retState = u.relx.retState ∧ (u.retryReport n).relx.retCause = u.relx.retCause := by
    intro u n
    unfold State.retryReport
    split
    · exact ⟨rfl, rfl, rfl⟩
    · split
      · exact ⟨rfl, rfl, rfl⟩
      · rw [(taskReport_only ..).relx]
        exact ⟨rfl, rfl, rfl⟩
  unfold State.endArb
  extract_lets task a b
  obtain ⟨harbs, hstate, hcause⟩ := hreport b task
  exact ⟨harbs, hstate, hcause⟩

theorem endArb_capture (s : State) (pt : Nat) (v : BitVec 3) : ((s.endArb pt v).tile pt).capture = none := by
  rw [endArb_tile, if_pos rfl]

/-- The fence that follows an arbitration's end. -/
theorem endArb_fence {pt b : Nat} (hf : (s.role b).role ≠ .fenced) (hp : s.partMode (ptPart b) ≠ .reset) (v : BitVec 3) (w : Nat) :
    (((s.endArb pt v).fenceTile b w).role b).role = .fenced ∧ (((s.endArb pt v).fenceTile b w).tile b).mode = .fenced ∧
      (((s.endArb pt v).fenceTile b w).tile pt).capture = none ∧ ((s.endArb pt v).fenceTile b w).rel = s.rel := by
  have honly := endArb_only s pt v
  have hf' : ((s.endArb pt v).role b).role ≠ .fenced := by rw [role_congr honly.healx]; exact hf
  have hp' : (s.endArb pt v).partMode (ptPart b) ≠ .reset := by rw [partMode_congr honly.healx]; exact hp
  refine ⟨(fenceTile_role hp' w).1, (fenceTile_tile hf' hp' w).1, ?_, (fenceTile_only ..).rel.trans honly.rel⟩
  rw [(fenceTile_check ..).2, endArb_capture]

/-- Settles O26: what a transit count, an arbitration, a retirement cause and a tile's check do. -/
theorem faultsAreJudged : Obligations.FaultsAreJudged := by
  unfold Obligations.FaultsAreJudged
  refine ⟨fun s unit x hx hle => ?_, fun s unit h => ?_, fun s c h => ?_, fun s c rs h => ?_, fun s c pt pts ha hpts => ?_,
    fun s c a rs ha hrow => ?_, fun s c a rs ha hrow hf hp => ?_, fun s c a rs ha hrow hrep => ?_,
    fun s c a rs ha hrow hrep hr hw hready hb hrec => ?_, fun s c a b rs ha hrow hbench hf hp => ?_, fun s cause h => if_pos h,
    fun s cause h0 h5 h7 h => ?_, fun s h => if_pos h, fun s cause h0 h5 h7 hr hw hready hb hrec => ?_,
    fun s cause h0 h5 h7 hr hw hready => ?_, fun s hd hany => ?_, fun s pc0 pc1 hl hr => ?_, fun s pc0 pc1 h => if_pos h,
    fun s pt task fold rt f x hx hrun => ?_⟩
  · change execParityCountDecay unit s = _
    unfold execParityCountDecay
    rw [hx]
    exact if_pos hle
  · change execParityCountDecay unit s = _
    unfold execParityCountDecay
    split
    · rfl
    · next x hx => exact if_neg (Nat.not_le.mpr (h x hx))
  · change execArbitrationStart c s = _
    unfold execArbitrationStart
    rcases h with h | h
    · exact if_pos h
    · rw [h]
      exact ite_self _
  · change execArbitrationDone c rs s = _
    unfold execArbitrationDone
    rw [h]
  · have hexec : exec (.arbitrationStart c) s = execArbitrationStart c s := rfl
    unfold execArbitrationStart at hexec
    rw [if_neg (by rw [ha]; decide), hpts] at hexec
    dsimp only [List.head?_cons] at hexec
    refine ⟨_, hexec, only_arbLast (only_updTile ((modRelx_only ..).in) (by decide)) (by decide), ?_, ?_⟩
    · rw [(arbLast_only ..).relx]
      rfl
    · rw [tile_congr (arbLast_only ..).tiles, updTile_tile_self]
      rfl
  · have hexec := execArbitrationDone_eq ha rs
    rw [hrow] at hexec
    refine ⟨_, hexec, only_endArb ((concluded_only ..).in) (by decide), endArb_capture .., ?_, ?_⟩
    · rw [(endArb_only ..).rel]
      exact concluded_counts s c a.pt 5 (·.transient) fun _ _ _ _ _ _ _ => rfl
    · rw [(endArb_arbs ..).1, (concluded_only ..).relx]
  · have hu := concluded_only s c a.pt (arbRow rs)
    have hf' : ((s.concluded c a.pt (arbRow rs)).role a.pt).role ≠ .fenced := by rw [role_congr hu.healx]; exact hf
    have hp' : (s.concluded c a.pt (arbRow rs)).partMode (ptPart a.pt) ≠ .reset := by rw [partMode_congr hu.healx]; exact hp
    have hcount : ∀ {β : Type} (g : RelSt → β), _ → g (s.concluded c a.pt (arbRow rs)).rel = g (arbCount (arbRow rs) s.rel) :=
      fun g hg => concluded_counts s c a.pt (arbRow rs) g hg
    have hdata := hcount (·.datapath) fun _ _ _ _ _ _ _ => rfl
    have hcheck := hcount (·.checker) fun _ _ _ _ _ _ _ => rfl
    have hexec := execArbitrationDone_eq ha rs
    rcases hrow with hrow | hrow
    · rw [hrow] at hexec hu hf' hp' hdata hcheck
      obtain ⟨hrole, hmode, hcap, hrel⟩ := endArb_fence (pt := a.pt) hf' hp' 2 2
      refine ⟨_, hexec, only_fenceTile (only_endArb (hu.in) (by decide)) (by decide), fun _ => ?_, fun k => ?_, hmode, hcap, hrole⟩
      · rw [hrel]; exact ⟨hdata, hcheck⟩
      · exact absurd (hrow.symm.trans k) (by decide)
    · rw [hrow] at hexec hu hf' hp' hdata hcheck
      obtain ⟨hrole, hmode, hcap, hrel⟩ := endArb_fence (pt := a.pt) hf' hp' 3 3
      refine ⟨_, hexec, only_fenceTile (only_endArb (hu.in) (by decide)) (by decide), fun k => ?_, fun _ => ?_, hmode, hcap, hrole⟩
      · exact absurd (hrow.symm.trans k) (by decide)
      · rw [hrel]; exact ⟨hcheck, hdata⟩
  · have hexec := execArbitrationDone_eq ha rs
    rw [hrow] at hexec
    dsimp only at hexec
    rw [if_neg (by rw [hrep]; decide)] at hexec
    refine ⟨_, hexec, only_modRelx ((concluded_only ..).in) (by decide), ?_, ?_⟩
    · exact concluded_counts s c a.pt 1 (·.refDis) fun _ _ _ _ _ _ _ => rfl
    · exact congrArg (fun x : RelAux => x.arbs.map fun x => if x.clus = c.val then { x with repeated := true } else x) (concluded_only ..).relx
  · have hexec := execArbitrationDone_eq ha rs
    have hu := concluded_only s c a.pt 1
    rw [hrow] at hexec
    dsimp only at hexec
    rw [if_pos hrep, retireCause_drains ((congrArg RelAux.retState hu.relx).trans hr) ((congrArg HealAux.retireWait hu.healx).trans hw)
      ((congrArg TopSt.ready hu.top).trans hready) ((congrArg BistSt.state hu.bist).trans hb)
      (by unfold State.recovering; simp only [partMode_congr hu.healx]; exact hrec)] at hexec
    obtain ⟨-, hstate, hcause⟩ := endArb_arbs (((s.concluded c a.pt 1).drainNow 4).causeRecord 4) a.pt 5
    have hdrain : (((s.concluded c a.pt 1).drainNow 4).causeRecord 4).relx = { (s.concluded c a.pt 1).relx with retState := .draining, retCause := 4 } :=
      (causeRecord_only ..).relx
    refine ⟨_, hexec, only_endArb (only_causeRecord (only_drainNow (hu.in) (by decide)) (by decide)) (by decide), ?_, ?_, ?_,
      endArb_capture ..⟩
    · rw [(endArb_only ..).rel, (causeRecord_only ..).rel]
      exact concluded_counts s c a.pt 1 (·.refDis) fun _ _ _ _ _ _ _ => rfl
    · rw [hstate, hdrain]
    · rw [hcause, hdrain]
  · have hu := concluded_only s c a.pt 4
    have hf' : ((s.concluded c a.pt 4).role b).role ≠ .fenced := by rw [role_congr hu.healx]; exact hf
    have hp' : (s.concluded c a.pt 4).partMode (ptPart b) ≠ .reset := by rw [partMode_congr hu.healx]; exact hp
    have hexec := execArbitrationDone_eq ha rs
    rw [hrow, hbench] at hexec
    obtain ⟨hrole, hmode, hcap, hrel⟩ := endArb_fence (pt := a.pt) hf' hp' 4 4
    refine ⟨_, hexec, only_fenceTile (only_endArb (hu.in) (by decide)) (by decide), ?_, ?_, hrole, hmode, hcap⟩
    · rw [hrel]; exact concluded_counts s c a.pt 4 (·.bench) fun _ _ _ _ _ _ _ => rfl
    · rw [hrel]; exact concluded_counts s c a.pt 4 (·.transient) fun _ _ _ _ _ _ _ => rfl
  · refine ⟨_, execRetireStart_eq h0 h5 h7, ?_⟩
    unfold State.retireCause
    extract_lets a
    rw [if_pos (show a.relx.retState ≠ .none ∨ a.healx.retireWait.isSome from h)]
    exact only_causeRecord ((modBist_only ..).in) (by decide)
  · refine ⟨_, (execRetireStart_eq h0 h5 h7).trans (congrArg Host.Outcome.next (retireCause_drains hr hw hready hb hrec cause)), ?_,
      (causeRecord_only ..).relx⟩
    exact only_causeRecord ((drainNow_only ..).in) (by decide)
  · exact ⟨_, execRetireStart_eq h0 h5 h7, retireCause_retires hr hw hready cause⟩
  · exact execRetireComplete_retires hd hany
  · exact execMcLockstepFail_resets hl hr
  · have hbusy : (s.task task).busy = true := by
      have htask : s.task task = x := Tab.get_of_find ({} : TaskRt) hx
      rw [htask]
      unfold TaskRt.busy
      rw [hrun]
    refine ⟨fun hf => tileFault_captures hf hbusy, ?_, ?_, ?_⟩
    · rintro rfl; exact tileFault_parity hbusy
    · rintro w rfl; exact ⟨rfl, rfl⟩
    · rintro w rfl hv; exact tileFault_double w hbusy hv

end Sys2Proof.Machine
end

section
/-!
PROOFS. Schedule commands (09 R498 to R500, R789): O24.
-/

set_option Elab.async false

namespace Sys2Proof.Machine

variable {s : State}

/-! ### Tables of schedules and sides -/

theorem sched_congr {s t : State} (h : t.scheds = s.scheds) (n : BitVec 32) : t.sched? n = s.sched? n := by
  unfold State.sched?
  rw [h]

/-- A schedule that is there takes a change. -/
theorem updSched_sched {n : BitVec 32} {x : SchedSt} (h : s.sched? n = some x) (f : SchedSt → SchedSt) :
    (s.updSched n f).sched? n = some (f x) := by
  unfold State.updSched
  rw [h]
  exact (Tab.find_put ..).trans (if_pos rfl)

theorem find_dels {α β : Type} (key : β → Nat) (xs : List β) (t : Tab α) (k : Nat) :
    Tab.find (xs.foldl (fun t x => Tab.del t (key x)) t) k = if k ∈ xs.map key then none else Tab.find t k := by
  induction xs generalizing t with
  | nil => rfl
  | cons x xs ih =>
    rw [List.foldl_cons, ih, Tab.find_del]
    by_cases hx : k = key x
    · subst hx; simp
    · simp [hx]

/-! ### The sender -/

theorem admission_mayCommand {a : Accessor} (h : s.admission a = none) : s.mayCommand a = true := by
  unfold State.admission at h
  cases hm : s.mayCommand a with
  | true => rfl
  | false => rw [hm] at h; exact absurd h (by simp)

theorem admission_notOwner {a : Accessor} (h : s.mayCommand a = false) : s.admission a = some 1 := by
  unfold State.admission
  rw [h]
  rfl

theorem admission_retired {a : Accessor} (h : s.mayCommand a = true) (hr : s.relx.retState ≠ .none ∨ s.relx.retFlag = true) :
    s.admission a = some 6 := by
  unfold State.admission
  rw [h]
  exact if_pos hr

theorem admission_tested {a : Accessor} (h : s.mayCommand a = true) (hr : s.relx.retState = .none) (hf : s.relx.retFlag = false)
    (hb : s.bist.state ≠ 0) : s.admission a = some 7 := by
  unfold State.admission
  rw [h, hr, hf]
  exact if_pos hb

/-! ### LOAD -/

/-- A load passes every check before the last: its bytes and graces, its regions, and its migration windows. -/
structure State.Loads (s : State) (m : McCmd) (img : Image) : Prop where
  admitted : s.admission m.sender = none
  graces : ∀ t ∈ img.tasks, 2 ≤ t.grace

theorem State.Loads.good {m : McCmd} {img : Image} (h : s.Loads m img) :
    ¬ (img.digest ≠ img.digest ∨ true = false ∨ img.tasks.any (fun t => decide (t.grace < 2)) = true) := by
  rintro (hd | hd | hd)
  · exact hd rfl
  · exact Bool.noConfusion hd
  · obtain ⟨t, ht, hlt⟩ := List.any_eq_true.mp hd
    have := h.graces t ht
    have := of_decide_eq_true hlt
    omega

theorem execMcLoad_eq {m : McCmd} {img : Image} (h : s.Loads m img) :
    exec (.mcLoad m img img.digest true) s =
      if s.regionsOk img = false then .next (s.mcReply m 1 .unsided 0 0)
      else if migrationOk img = false then .next (s.mcReply m 1 .migration 0 0)
      else match s.unfitImage img with
        | some lt => .next (((s.variantRecord (ltClus lt) 0).attn .variant).mcReply m 1 .variant 0 0)
        | none => .next (((((s.modSpn fun x => { x with
            sides := (img.regions.filter fun r => !s.liveRegions.any fun q => decide (q.n = r.n)).foldl (fun t r => Tab.del t r.n) x.sides }).modScheds
              fun t => Tab.put t s.freeSched { image := img }).extendLog 0x10 (BitVec.ofNat 32 s.freeSched) img.digest []).mcReply m 1 .ok 0
                (BitVec.ofNat 32 s.freeSched))) := by
  change execMcLoad m img img.digest true s = _
  unfold execMcLoad
  rw [h.admitted]
  exact if_neg h.good

theorem execMcLoad_bad {m : McCmd} {img : Image} {d : BitVec 256} {ok : Bool} (h : s.admission m.sender = none)
    (hbad : img.digest ≠ d ∨ ok = false ∨ ∃ t ∈ img.tasks, t.grace < 2) :
    exec (.mcLoad m img d ok) s = .next (s.mcReply m 1 .nakStale 2 0) := by
  change execMcLoad m img d ok s = _
  unfold execMcLoad
  rw [h]
  refine if_pos (hbad.imp id (.imp id ?_))
  rintro ⟨t, ht, hlt⟩
  exact List.any_eq_true.mpr ⟨t, ht, decide_eq_true hlt⟩

theorem execMcLoad_refused {m : McCmd} {img : Image} {d : BitVec 256} {ok : Bool} {n : Nat} (h : s.admission m.sender = some n) :
    exec (.mcLoad m img d ok) s = .next (s.mcReply m 1 .nakFenced n 0) := by
  change execMcLoad m img d ok s = _
  unfold execMcLoad
  rw [h]

/-! ### START -/

/-- A schedule that starts drops its retries. -/
def State.retriesDropped (s : State) (n : BitVec 32) : State :=
  s.modRelx fun r => { r with retries := r.retries.filter fun y => decide (y.sched ≠ n) }

theorem retriesDropped_only (s : State) (n : BitVec 32) : s.Only (s.retriesDropped n) [.relx] := modRelx_only ..

theorem execMcStart_eq {m : McCmd} {x : SchedSt} (ha : s.admission m.sender = none) (hx : s.sched? m.sched = some x)
    (hb : s.busySched m.sched = false) {rest : List TaskCfg}
    (hrest : (x.image.tasks.filter fun t => !x.committed.contains t.number) = rest) :
    exec (.mcStart m) s = .next (((s.retriesDropped m.sched).updSched m.sched fun y => { y with
        started := true, stopping := false, reply := m.reply
        base := (m.launch : Int) - (((if rest = [] then x.image.tasks else rest).head?).map fun t => (t.launch : Int)).getD 0, shift := 0
        committed := if rest = [] then [] else y.committed }).mcReply m 2 .ok 0 m.sched) := by
  change execMcStart m s = _
  unfold execMcStart
  rw [ha, hx]
  dsimp only
  rw [if_neg (by rw [hb]; decide), hrest]
  rfl

/-! ### STOP -/

/-- The retries of a schedule that are not armed. -/
def State.dueRetries (s : State) (n : BitVec 32) : List RetrySt := s.relx.retries.filter fun r => decide (r.sched = n) && !r.armed

/-- A schedule stops: nothing more arms. -/
def State.stopSched (s : State) (n : BitVec 32) : State :=
  (s.updSched n fun x => { x with stopping := true }).modRelx fun x =>
    { x with retries := x.retries.filter fun r => !(s.dueRetries n).contains r }

theorem stopSched_only (s : State) (n : BitVec 32) : s.Only (s.stopSched n) [.relx, .scheds] :=
  only_modRelx ((updSched_only ..).in) (by decide)

theorem execMcStop_eq {m : McCmd} {x : SchedSt} (ha : s.mayCommand m.sender = true) (hx : s.sched? m.sched = some x) :
    exec (.mcStop m) s = .next (((s.stopSched m.sched).each (s.dueRetries m.sched) fun s r =>
      s.failTask r.task r.status r.attempt r.verdict r.abortFret r.origin r.lt).mcReply m 3 .ok 0 m.sched) := by
  have hrelx : (s.updSched m.sched fun x => { x with stopping := true }).relx = s.relx := (updSched_only ..).relx
  change execMcStop m s = _
  unfold execMcStop
  rw [if_neg (by rw [ha]; decide), hx]
  dsimp only
  rw [hrelx]
  rfl

/-! ### UNLOAD -/

/-- The sides of regions that no schedule declares any more are forgotten. -/
def State.unsided (s : State) : State := s.modSpn fun y => { y with sides := y.sides.filter fun e => s.liveRegion e.1 }

/-- A schedule leaves the chip, with its tasks, its regions' sides and its early aborts. -/
def State.unloaded (s : State) (n : BitVec 32) (x : SchedSt) : State :=
  ((((s.modScheds fun t => Tab.del t n.toNat).modTasks fun t => t.filter fun e => decide (e.2.sched ≠ n)).unsided).modFret fun r =>
    { r with early := r.early.filter fun e => x.image.tasks.all fun t => decide (t.number.toNat ≠ e.1) }).extendLog 0x11 n x.image.digest []

theorem execMcUnload_eq {m : McCmd} {x : SchedSt} (ha : s.mayCommand m.sender = true) (hx : s.sched? m.sched = some x) :
    exec (.mcUnload m) s = if s.busySched m.sched ∨ x.inPass ∨ s.retryDue m.sched then .next (s.mcReply m 4 .nakStale 4 m.sched)
      else .next ((s.unloaded m.sched x).mcReply m 4 .ok 0 m.sched) := by
  change execMcUnload m s = _
  unfold execMcUnload
  rw [if_neg (by rw [ha]; decide), hx]
  rfl

theorem unloaded_reads (s : State) (n : BitVec 32) (x : SchedSt) :
    (s.unloaded n x).scheds = Tab.del s.scheds n.toNat ∧ (s.unloaded n x).tasks = s.tasks.filter fun e => decide (e.2.sched ≠ n) := by
  unfold State.unloaded
  rw [(extendLog_only ..).scheds, (extendLog_only ..).tasks]
  exact ⟨rfl, rfl⟩

/-- Settles O24: what each schedule command changes, and what refuses it. -/
theorem scheduleCommandsTakeEffect : Obligations.ScheduleCommandsTakeEffect := by
  unfold Obligations.ScheduleCommandsTakeEffect
  refine ⟨fun s m img ha hg hr hmig hfit => ?_, fun s m img d ok => ⟨fun h => ?_, fun h hr => ?_, fun h hr hf hb => ?_, fun h hbad => ?_⟩,
    fun s m img ha hg => ⟨fun hr => ?_, fun hr hmig => ?_, fun lt hr hmig hfit => ?_⟩, fun s m x c cs ha hx hb hrest => ?_,
    fun s m x c cs ha hx hb hrest hall => ?_, fun s m d h => ?_, fun s m ha hx => ?_, fun s m x ha hx hb => ?_, fun s m x ha hx hd => ?_,
    fun s m x ha hx => ?_, fun s m x ha hx hb hp hd => ?_, fun s m x ha hx h => ?_, fun s m ha hx => ⟨?_, ?_⟩,
    fun s m h => ⟨?_, ?_, fun op => ?_⟩, fun s m op h => ?_, fun s m op st d n => mcReply_only ..⟩
  · have hexec := execMcLoad_eq (s := s) ⟨ha, hg⟩
    rw [if_neg (by rw [hr]; decide), if_neg (by rw [hmig]; decide), hfit] at hexec
    refine ⟨_, hexec, only_mcReply (only_extendLog (only_modScheds ((modSpn_only ..).in) (by decide)) (by decide)) (by decide), ?_,
      fun k hk => ?_, fun r hr' hnew => ?_, fun q hq => ?_⟩
    · rw [(mcReply_only ..).scheds, (extendLog_only ..).scheds]
      exact (Tab.find_put ..).trans (if_pos rfl)
    · rw [(mcReply_only ..).scheds, (extendLog_only ..).scheds]
      exact (Tab.find_put ..).trans (if_neg hk)
    · rw [(mcReply_only ..).spn, (extendLog_only ..).spn]
      refine (find_dels (fun r : Region => r.n) ..).trans (if_pos (List.mem_map.mpr ⟨r, List.mem_filter.mpr ⟨hr', ?_⟩, rfl⟩))
      simp only [Bool.not_eq_true', List.any_eq_false, decide_eq_true_eq]
      exact hnew
    · rw [(mcReply_only ..).spn, (extendLog_only ..).spn]
      refine (find_dels (fun r : Region => r.n) ..).trans (if_neg fun h => ?_)
      obtain ⟨r, hr', hn⟩ := List.mem_map.mp h
      have hnew := (List.mem_filter.mp hr').2
      simp only [Bool.not_eq_true', List.any_eq_false, decide_eq_true_eq] at hnew
      exact hnew q hq hn.symm
  · exact execMcLoad_refused (admission_notOwner h)
  · exact execMcLoad_refused (admission_retired h hr)
  · exact execMcLoad_refused (admission_tested h hr hf hb)
  · exact execMcLoad_bad h hbad
  · rw [execMcLoad_eq ⟨ha, hg⟩, if_pos hr]
  · rw [execMcLoad_eq ⟨ha, hg⟩, if_neg (by rw [hr]; decide), if_pos hmig]
  · have hexec := execMcLoad_eq (s := s) ⟨ha, hg⟩
    rw [if_neg (by rw [hr]; decide), if_neg (by rw [hmig]; decide), hfit] at hexec
    refine ⟨_, hexec, only_mcReply (only_attn ((variantRecord_only ..).in) (by decide)) (by decide), ?_⟩
    rw [(mcReply_only ..).top]
    exact (attn_cause ..).1
  · have hexec := execMcStart_eq ha hx hb hrest
    refine ⟨_, hexec, only_mcReply (only_updSched ((retriesDropped_only ..).in) (by decide)) (by decide), ?_, ?_⟩
    · rw [sched_congr (mcReply_only ..).scheds]
      exact updSched_sched (s := s.retriesDropped m.sched) hx _
    · rw [(mcReply_only ..).relx, (updSched_only ..).relx]
      exact fun r hr => of_decide_eq_true (List.mem_filter.mp hr).2
  · have hexec := execMcStart_eq ha hx hb hrest
    refine ⟨_, hexec, only_mcReply (only_updSched ((retriesDropped_only ..).in) (by decide)) (by decide), ?_⟩
    rw [sched_congr (mcReply_only ..).scheds]
    refine (updSched_sched (s := s.retriesDropped m.sched) hx _).trans ?_
    rw [if_pos rfl, if_pos rfl, hall]
    rfl
  · change execMcStart m s = _
    unfold execMcStart
    rw [h]
  · change execMcStart m s = _
    unfold execMcStart
    rw [ha, hx]
  · change execMcStart m s = _
    unfold execMcStart
    rw [ha, hx]
    exact if_pos hb
  · have hexec := execMcStop_eq ha hx
    have hdue : s.dueRetries m.sched = [] := by
      refine List.filter_eq_nil_iff.mpr fun r hr k => ?_
      have hno := List.any_eq_false.mp hd r hr
      exact hno (Bool.and_eq_true_iff.mp k).1
    rw [hdue] at hexec
    refine ⟨_, hexec, only_mcReply ((stopSched_only s m.sched).in) (by decide), ?_⟩
    rw [sched_congr (mcReply_only ..).scheds]
    exact updSched_sched hx _
  · have hexec := execMcStop_eq ha hx
    have honly : (s.stopSched m.sched).Only _ [.rel, .mch, .scheds, .out] :=
      only_each (xs := s.dueRetries m.sched) (f := fun s r => s.failTask r.task r.status r.attempt r.verdict r.abortFret r.origin r.lt)
        (.refl _ _) fun _ _ h => only_failTask h (by decide)
    refine ⟨_, hexec, only_mcReply (((stopSched_only s m.sched).in).trans (honly.in)) (by decide), fun r hr hn => ?_⟩
    rw [(mcReply_only ..).relx, honly.relx] at hr
    have hr' : r ∈ (s.updSched m.sched fun x => { x with stopping := true }).relx.retries.filter fun r => !(s.dueRetries m.sched).contains r := hr
    rw [(updSched_only ..).relx] at hr'
    obtain ⟨hmem, hdue⟩ := List.mem_filter.mp hr'
    by_contra harm
    have hin : r ∈ s.dueRetries m.sched :=
      List.mem_filter.mpr ⟨hmem, Bool.and_eq_true_iff.mpr ⟨decide_eq_true hn, by rw [Bool.eq_false_iff.mpr harm]; rfl⟩⟩
    rw [List.contains_iff_mem.mpr hin] at hdue
    exact Bool.noConfusion hdue
  · have hexec := execMcUnload_eq ha hx
    obtain ⟨hscheds, htasks⟩ := unloaded_reads s m.sched x
    rw [if_neg (by rw [hb, hp, hd]; decide)] at hexec
    refine ⟨_, hexec, exec_only hexec, ?_, fun k hk => ?_, ?_⟩
    · show Tab.find _ _ = _
      rw [(mcReply_only ..).scheds, hscheds]
      exact (Tab.find_del ..).trans (if_pos rfl)
    · rw [(mcReply_only ..).scheds, hscheds]
      exact (Tab.find_del ..).trans (if_neg hk)
    · rw [(mcReply_only ..).tasks, htasks]
  · exact (execMcUnload_eq ha hx).trans (if_pos h)
  · change execMcStop m s = _
    unfold execMcStop
    rw [if_neg (by rw [ha]; decide), hx]
  · change execMcUnload m s = _
    unfold execMcUnload
    rw [if_neg (by rw [ha]; decide), hx]
  · exact if_pos (by rw [h]; rfl)
  · exact if_pos (by rw [h]; rfl)
  · exact if_pos (by rw [h]; rfl)
  · exact if_neg (by rw [h]; decide)

end Sys2Proof.Machine
end

section
/-!
PROOFS. Management commands (09 R508 to R513): O25.
-/

set_option Elab.async false

namespace Sys2Proof.Machine

variable {s : State}

/-! ### A command that is executed -/

/-- What it takes for a command to be executed, one by one. -/
structure State.Accepts (s : State) (d : Datagram) (slots : Nat) : Prop where
  up : (s.mgmtPort d.port).up = true
  lc : s.sec.lc ≠ .final
  good : s.rejects d = false
  room : ¬ (s.mayReply = true ∧ 16 < s.ids.queue.length + slots)
  new : s.isRepeat d = false
  flash : s.flash.seqOk = true

theorem accepts_of_takesCommand {d : Datagram} {slots : Nat} (h : s.takesCommand d slots = true) : s.Accepts d slots := by
  unfold State.takesCommand at h
  simp only [Bool.and_eq_true, Bool.not_eq_true', decide_eq_true_eq, Bool.and_eq_false_iff, decide_eq_false_iff_not] at h
  obtain ⟨⟨⟨⟨⟨hup, hlc⟩, hgood⟩, hroom⟩, hnew⟩, hflash⟩ := h
  refine ⟨hup, hlc, hgood, ?_, hnew, hflash⟩
  rintro ⟨hr, hq⟩
  rcases hroom with h | h
  · exact Bool.noConfusion (h.symm.trans hr)
  · exact h hq

/-- A datagram whose port is up, in a chip that takes commands, that passes its checks, finds room and is new. -/
theorem mgmtCommand_new {d : Datagram} {slots : Nat} (hup : (s.mgmtPort d.port).up = true) (hlc : s.sec.lc ≠ .final)
    (hgood : s.rejects d = false) (hroom : ¬ (s.mayReply = true ∧ 16 < s.ids.queue.length + slots)) (hnew : s.isRepeat d = false)
    (code : BitVec 8) (f : State → Verdict) :
    s.mgmtCommand d code slots f = match f (s.storeSeq d) with
      | .no result => s.replyMgmt d code result noBytes
      | .done t b => if s.flash.seqOk then State.replyMgmt t d code 0 b else s.replyMgmt d code 4 noBytes := by
  unfold State.mgmtCommand
  rw [if_neg (by rw [hup]; exact fun k => k.elim (fun k => Bool.noConfusion k) hlc), if_neg (by rw [hgood]; decide), if_neg hroom,
    if_neg (by rw [hnew]; decide)] <;> rfl

theorem mgmtCommand_done {d : Datagram} {slots : Nat} (h : s.Accepts d slots) {code : BitVec 8} {f : State → Verdict} {t : State}
    {b : List Byte} (hf : f (s.storeSeq d) = .done t b) : s.mgmtCommand d code slots f = t.replyMgmt d code 0 b := by
  rw [mgmtCommand_new h.up h.lc h.good h.room h.new, hf]
  exact if_pos h.flash

theorem mgmtCommand_no {d : Datagram} {slots : Nat} (h : s.Accepts d slots) {code : BitVec 8} {f : State → Verdict} {r : BitVec 8}
    (hf : f (s.storeSeq d) = .no r) : s.mgmtCommand d code slots f = s.replyMgmt d code r noBytes := by
  rw [mgmtCommand_new h.up h.lc h.good h.room h.new, hf]

/-- A datagram at a port that is down, or in FINAL, is not seen. -/
theorem mgmtCommand_unseen {d : Datagram} (h : (s.mgmtPort d.port).up = false ∨ s.sec.lc = .final) (code : BitVec 8) (slots : Nat)
    (f : State → Verdict) : s.mgmtCommand d code slots f = s :=
  if_pos (h.imp (fun k => by rw [k]; rfl) id)

/-- One that fails its checks is counted. -/
def State.rejected (s : State) (d : Datagram) : State := s.updMgmtPort d.port fun r => { r with rejected := satAdd r.rejected 1 }

theorem mgmtCommand_rejected {d : Datagram} (hup : (s.mgmtPort d.port).up = true) (hlc : s.sec.lc ≠ .final) (h : s.rejects d = true)
    (code : BitVec 8) (slots : Nat) (f : State → Verdict) : s.mgmtCommand d code slots f = s.rejected d := by
  unfold State.mgmtCommand
  rw [if_neg (by rw [hup]; exact fun k => k.elim (fun k => Bool.noConfusion k) hlc), if_pos h]
  rfl

theorem mgmtCommand_repeat {d : Datagram} {slots : Nat} (hup : (s.mgmtPort d.port).up = true) (hlc : s.sec.lc ≠ .final)
    (h : s.rejects d = false) (hr : s.isRepeat d = true) (hq : s.ids.queue.length + slots ≤ 16) (code : BitVec 8) (f : State → Verdict) :
    s.mgmtCommand d code slots f = s.replyMgmt d code 1 noBytes := by
  unfold State.mgmtCommand
  rw [if_neg (by rw [hup]; exact fun k => k.elim (fun k => Bool.noConfusion k) hlc), if_neg (by rw [h]; decide),
    if_neg (fun k => absurd k.2 (by omega)), if_pos hr]

/-! ### What the reply and the record of a change leave -/

theorem changes_owner (s t : State) (d : Datagram) : (s.changes d t).top.owner = t.top.owner := by
  unfold State.changes State.mgmtChanged
  rw [State.when_read (fun u => u.top.owner), (record_only ..).top, (attn_top ..).1, ite_self]

theorem recordAt_chest (s : State) (t : Trigger) (east : Bool) (unit : Nat) (data : List Word) :
    (s.recordAt t east unit data).chest =
      { s.chest with intake := (s.recordAt t east unit data).chest.intake, lost := (s.recordAt t east unit data).chest.lost } := by
  unfold State.recordAt
  split
  · rfl
  · split
    · rfl
    · rfl

/-- The record of a change leaves the stored records as they are. -/
theorem changes_chest (s t : State) (d : Datagram) {β : Type} (f : ChestSt → β)
    (hf : ∀ (c : ChestSt) (i : List ChestRec) (n : BitVec 16), f { c with intake := i, lost := n } = f c) :
    f (s.changes d t).chest = f t.chest := by
  have hrec : ∀ u : State, u.chest = t.chest → ∀ data, f (u.record .mgmt data).chest = f t.chest := fun u hu data => by
    unfold State.record
    rw [recordAt_chest, hf, hu]
  unfold State.changes State.mgmtChanged
  rw [State.when_read (fun u => f u.chest), hrec _ (attn_only ..).chest, ite_self]

theorem storeSeq_flash (s : State) (d : Datagram) : (s.storeSeq d).sec.lc = s.sec.lc ∧ (s.storeSeq d).sec.quoteSeq = s.sec.quoteSeq := by
  unfold State.storeSeq
  split
  · exact ⟨rfl, rfl⟩
  · exact ⟨rfl, rfl⟩

theorem changes_only (s t : State) (d : Datagram) : t.Only (s.changes d t) [.top, .chest, .out] := only_changes (.refl _ _) (by decide)

/-- A command that asks for a reset. -/
theorem resetCommand {d : Datagram} (h : s.Accepts d 1) (hl : s.resetLevel = none) {l : Level}
    (hh : ¬ (s.levelAsked l = .core ∧ s.bist.state = 2)) (code : BitVec 8) :
    ∃ t, s.mgmtCommand d code 1 (fun s => .done (s.changes d (s.requestReset l (mgmtSource d.port) false)) noBytes) = t ∧ s.AllAborted t ∧
      s.Only t [.flash, .top, .rstc, .ids, .sec, .chest, .mgt, .tasks, .out] ∧
      ∃ o, t.rstc.orderly = some o ∧ o.level = s.levelAsked l ∧ o.src = mgmtSource d.port ∧ o.asked = s.now ∧
        o.promoted = (decide (l = .core) && !s.rstc.everReady) := by
  have hstore := storeSeq_only s d
  have hl' : (s.storeSeq d).resetLevel = none := by unfold State.resetLevel; rw [hstore.rstc]; exact hl
  have hasked : (s.storeSeq d).levelAsked l = s.levelAsked l := by unfold State.levelAsked; rw [hstore.rstc]
  have hreset := requestReset_idle hl' (l := l) (by rw [hasked, hstore.bist]; exact hh) (mgmtSource d.port) false
  rw [if_neg (by decide), hasked, hstore.rstc] at hreset
  obtain ⟨honly, haborts, o, ho, hlevel, hsrc, hat, hprom⟩ := startOrderly_waits (s.storeSeq d) (s.levelAsked l) (mgmtSource d.port)
    (decide (l = .core) && !s.rstc.everReady)
  rw [← hreset] at honly haborts ho
  have hafter : State.Only ((s.storeSeq d).requestReset l (mgmtSource d.port) false)
      (((s.storeSeq d).changes d ((s.storeSeq d).requestReset l (mgmtSource d.port) false)).replyMgmt d code 0 noBytes)
      [.top, .chest, .out, .flash, .ids, .mgt] :=
    only_replyMgmt (only_changes (.refl _ _) (by decide)) (by decide)
  refine ⟨_, mgmtCommand_done h rfl, ?_, ?_, o, ?_, hlevel, hsrc, ?_, hprom⟩
  · exact AllAborted_of hstore.tasks (AllAborted_congr hafter.tasks haborts)
  · exact ((hstore.in).trans (honly.in)).trans (hafter.in)
  · rw [hafter.rstc]; exact ho
  · rw [hat]; unfold State.now; rw [hstore.fret]

/-! ### The other commands -/

theorem setOwner_owner (s : State) (o : Owner) : (s.setOwner o).top.owner = o := by
  unfold State.setOwner
  split
  · next h => exact h
  · rw [(attn_top ..).1]
    rfl

/-- The command that assigns the token: what the state becomes for each value. -/
theorem ownerCommand {d : Datagram} (h : s.Accepts d 1) {o : Owner} (ho : (match (d.body.getD 0 0).toNat with
      | 0 => (s.storeSeq d).setOwner .none
      | 1 => (s.storeSeq d).setOwner .a
      | 2 => (s.storeSeq d).setOwner .b
      | _ => s.storeSeq d) = (s.storeSeq d).setOwner o) :
    ∃ t, exec (.mgmtAssignOwner d) s = .next t ∧ s.Only t [.flash, .top, .ids, .sec, .chest, .mgt, .out] ∧ t.top.owner = o := by
  have hexec : exec (.mgmtAssignOwner d) s =
      .next (((s.storeSeq d).changes d ((s.storeSeq d).setOwner o)).replyMgmt d 0x03 0 noBytes) :=
    congrArg Host.Outcome.next (mgmtCommand_done h (by rw [← ho] <;> rfl))
  refine ⟨_, hexec, ?_, ?_⟩
  · exact only_replyMgmt (only_changes (only_setOwner ((storeSeq_only ..).in) (by decide)) (by decide)) (by decide)
  · rw [(replyMgmt_only ..).top, changes_owner, setOwner_owner]

theorem clearRetire_relx (s : State) : s.clearRetire.relx = { s.relx with retFlag := false, retState := .none, retCause := 0 } := by
  unfold State.clearRetire State.readyPins
  dsimp only
  split
  · rfl
  · rfl

theorem clearChest_chest (s : State) (areas : BitVec 8) (slot : Word) :
    (s.clearChest areas slot).chest.clears = s.chest.clears + 1 ∧
      (bit areas 0 = true → (s.clearChest areas slot).chest.keep = [] ∧ (s.clearChest areas slot).chest.closed = false) := by
  have hfield : ∀ {β : Type} (f : ChestSt → β), (∀ (c : ChestSt) (i : List ChestRec) (n : BitVec 16), f { c with intake := i, lost := n } = f c) →
      (∀ (c : ChestSt) x y, f { c with copying := x, marked := y } = f c) → f (s.clearChest areas slot).chest =
        f (let c := s.chest
           let c := if bit areas 0 then { c with keep := [], keepLen := 0, closed := false } else c
           let c := if bit areas 1 then { c with old := c.next, oldPos := c.pos, lens := [] } else c
           { c with clears := c.clears + 1 }) := by
    intro β f hf hg
    unfold State.clearChest
    extract_lets a b
    have hb : f b.chest = f a.chest := by
      show f (a.recordAt .clear false 0 _).chest = _
      rw [recordAt_chest, hf]
    rw [State.when_read (fun u => f u.chest), copyRequest_chest, hg, ite_self, hb]
    rfl
  refine ⟨?_, fun h => ⟨?_, ?_⟩⟩
  · rw [hfield (·.clears) (fun _ _ _ => rfl) fun _ _ _ => rfl]
    cases bit areas 0 <;> cases bit areas 1 <;> rfl
  · rw [hfield (·.keep) (fun _ _ _ => rfl) fun _ _ _ => rfl, h]
    cases bit areas 1 <;> rfl
  · rw [hfield (·.closed) (fun _ _ _ => rfl) fun _ _ _ => rfl, h]
    cases bit areas 1 <;> rfl

/-- The commands of R512 with their codes, and one that it does not name. -/
def mgmtCommands (d : Datagram) : List (Instr × BitVec 8) :=
  [(.mgmtSystemReset d, 0x01), (.mgmtCoreReset d, 0x02), (.mgmtAssignOwner d, 0x03), (.mgmtSetBudget d, 0x04), (.mgmtChestClear d, 0x05),
    (.mgmtClearRetire d, 0x06), (.mgmtQuote d, 0x07), (.mgmtWriteReg d, 0x08), (.mgmtUnknownCommand d 9, 9)]

/-- A quote follows the reply only where the command moved the quote sequence on. -/
theorem execMgmtQuote_eq (s : State) (d : Datagram) :
    exec (.mgmtQuote d) s =
      let t := s.mgmtCommand d 0x07 2 fun u => .done (u.modSec fun x => { x with quoteSeq := x.quoteSeq + 1 }) (leBytes 3 s.sec.quoteSeq.toNat)
      .next (t.when (decide (t.sec.quoteSeq ≠ s.sec.quoteSeq) && s.mayReply) fun t =>
        t.askSign (.quote (some (d.port, d.header.set 1 0xC7)) ((List.range 32).map fun i => d.body.getD i 0) s.sec.quoteSeq)) := rfl

/-- Where a datagram is answered alike whatever it commands, that answer is all that any command gives. -/
theorem exec_of_answer {d : Datagram} {p : Instr × BitVec 8} (hp : p ∈ mgmtCommands d) {t : State}
    (ht : ∀ slots f, slots ≤ 2 → s.mgmtCommand d p.2 slots f = t) (hseq : t.sec.quoteSeq = s.sec.quoteSeq) : exec p.1 s = .next t := by
  simp only [mgmtCommands, List.mem_cons, List.not_mem_nil, or_false] at hp
  rcases hp with rfl | rfl | rfl | rfl | rfl | rfl | rfl | rfl | rfl
  · exact congrArg Host.Outcome.next (ht 1 _ (by decide))
  · exact congrArg Host.Outcome.next (ht 1 _ (by decide))
  · exact congrArg Host.Outcome.next (ht 1 _ (by decide))
  · exact congrArg Host.Outcome.next (ht 1 _ (by decide))
  · exact congrArg Host.Outcome.next (ht 1 _ (by decide))
  · exact congrArg Host.Outcome.next (ht 1 _ (by decide))
  · rw [execMgmtQuote_eq, ht 2 _ (by decide)]
    dsimp only
    rw [hseq, decide_eq_false (by simp), Bool.false_and, State.when_false]
  · exact congrArg Host.Outcome.next (ht 1 _ (by decide))
  · have hexec : exec (.mgmtUnknownCommand d 9) s = .next (s.mgmtCommand d 9 1 fun _ => .no 3) := by
      change execMgmtUnknownCommand d 9 s = _
      unfold execMgmtUnknownCommand
      exact if_neg (by decide)
    exact hexec.trans (congrArg Host.Outcome.next (ht 1 _ (by decide)))

/-- A write of FRET_TREE by a signed command. -/
theorem bar0Write_fretTree {w : Writer} (hw : w.acc = .mc) (hp : s.passed 2 = true) (v : Word) :
    s.bar0Write w 0x50010 v = s.modFret fun r => { r with horizon := v.extractLsb' 17 12, children := v.setWidth 17 } := by
  have hd : s.writeDenied w .fret 0x010 v = false := by unfold State.writeDenied; rw [hw]
  unfold State.bar0Write
  rw [if_neg (by decide), show blockOf 0x50010 = some (.fret, 0x010) from rfl]
  dsimp only
  rw [regAnswers_fret hp, hd]
  rfl

/-- Settles O25: what each command does where it is taken, and how it is answered where it is not. -/
theorem managementCommandsTakeEffect : Obligations.ManagementCommandsTakeEffect := by
  unfold Obligations.ManagementCommandsTakeEffect
  refine ⟨fun s d h hl => ?_, fun s d h hl he hb => ?_, fun s d h hl he => ?_, fun s d h he hb => ?_, fun s d l h hl hrank ho => ?_,
    fun s d h hbody => ?_, fun s d h => ?_, fun s d h => ?_, fun s d h hlc => ?_, fun s d h hlc => ?_, fun s d h => ?_,
    fun s d h hlen hoff hp => ?_, fun s d h hlen => ?_, fun s d code hc h => ?_, fun s d hf hup hlc hgood hnew => ?_,
    fun s d h hbody => ?_, fun s d h hbody => ?_, fun s d i hi => ⟨fun h => ?_, fun hup hlc h => ?_⟩,
    fun s d p hp hup hlc hgood hrep hq => ?_, fun s d code h1 h8 => if_pos ⟨h1, h8⟩, fun s p hp he => if_pos ⟨hp, he⟩, fun s p => rfl,
    fun s p body hup => ⟨if_pos ⟨hup, rfl⟩, if_pos ⟨hup, rfl⟩⟩, fun s p dst echo body h => if_neg ?_, fun s p h => if_neg ?_⟩
  · obtain ⟨t, ht, haborts, honly, o, ho, hlevel, hsrc, hat, -⟩ := resetCommand (accepts_of_takesCommand h) hl (l := .system)
      (by rw [levelAsked_system]; exact fun k => absurd k.1 (by decide)) 0x01
    exact ⟨t, congrArg Host.Outcome.next ht, haborts, honly, o, ho, hlevel, hsrc, hat⟩
  · obtain ⟨t, ht, haborts, honly, o, ho, hlevel, hsrc, hat, -⟩ := resetCommand (accepts_of_takesCommand h) hl (l := .core)
      (fun k => hb k.2) 0x02
    refine ⟨t, congrArg Host.Outcome.next ht, haborts, honly, o, ho, hlevel.trans ?_, hsrc, hat⟩
    unfold State.levelAsked
    rw [he]
    rfl
  · have hasked : s.levelAsked .core = .system := by unfold State.levelAsked; rw [he]; rfl
    obtain ⟨t, ht, haborts, honly, o, ho, hlevel, hsrc, -, hprom⟩ := resetCommand (accepts_of_takesCommand h) hl (l := .core)
      (by rw [hasked]; exact fun k => absurd k.1 (by decide)) 0x02
    refine ⟨t, congrArg Host.Outcome.next ht, haborts, honly, o, ho, hlevel.trans hasked, hprom.trans ?_, hsrc⟩
    rw [he]
    rfl
  · have hstore := storeSeq_only s d
    have hreset : (s.storeSeq d).requestReset .core (mgmtSource d.port) false = s.storeSeq d := by
      unfold State.requestReset
      rw [hstore.rstc, he, hstore.bist]
      exact if_pos ⟨rfl, hb⟩
    have hsame : (s.storeSeq d).changes d (s.storeSeq d) = s.storeSeq d := by
      unfold State.changes State.mgmtChanged
      rw [decide_eq_false (by simp), State.when_false]
    refine ⟨_, congrArg Host.Outcome.next (mgmtCommand_done (accepts_of_takesCommand h) rfl), ?_⟩
    rw [hreset, hsame]
    exact only_replyMgmt (hstore.in) (by decide)
  · have hstore := storeSeq_only s d
    have hin : s.rstc.inReset = some l := by unfold State.resetLevel at hl; rw [ho] at hl; exact hl
    have hreset := requestReset_system_absorbed (s := s.storeSeq d) (x := l) (by rw [hstore.rstc]; exact hin)
      (by rintro rfl; exact absurd hrank (by decide)) (by rw [hstore.rstc]; exact ho) (mgmtSource d.port) false
    refine ⟨_, congrArg Host.Outcome.next (mgmtCommand_done (accepts_of_takesCommand h) rfl), ?_, ?_, ?_⟩
    · rw [hreset]
      exact only_replyMgmt (only_changes (only_absorbReset (hstore.in) (by decide)) (by decide)) (by decide)
    · rw [hreset, (replyMgmt_only ..).rstc, (changes_only ..).rstc]
      exact (congrArg RstcSt.inReset hstore.rstc :)
    · rw [hreset, (replyMgmt_only ..).rstc, (changes_only ..).rstc]
      exact (congrArg RstcSt.orderly hstore.rstc :).trans ho
  · exact ownerCommand (accepts_of_takesCommand h) (by rw [hbody]; rfl)
  · refine ⟨_, congrArg Host.Outcome.next (mgmtCommand_done (accepts_of_takesCommand h) rfl), ?_, ?_⟩
    · exact only_replyMgmt (only_changes (only_setMgmtBudget ((storeSeq_only ..).in) (by decide)) (by decide)) (by decide)
    · rw [(replyMgmt_only ..).pwr, (changes_only ..).pwr]
      exact rebudget_field (·.mgmt) (fun _ _ _ _ => rfl) _ _
  · refine ⟨_, congrArg Host.Outcome.next (mgmtCommand_done (accepts_of_takesCommand h) rfl), ?_, ?_⟩
    · exact only_replyMgmt (only_changes (only_clearChest ((storeSeq_only ..).in) (by decide)) (by decide)) (by decide)
    · obtain ⟨hclears, hkeep⟩ := clearChest_chest (s.storeSeq d) (d.body.getD 0 0) (d.slot.setWidth 32)
      have hfield : ∀ {β : Type} (f : ChestSt → β), _ → _ := fun f hf => changes_chest (s.storeSeq d)
        ((s.storeSeq d).clearChest (d.body.getD 0 0) (d.slot.setWidth 32)) d f hf
      rw [(replyMgmt_only ..).chest]
      refine ⟨?_, fun hbit => ⟨?_, ?_⟩⟩
      · refine (hfield (·.clears) fun _ _ _ => rfl).trans ?_
        exact hclears.trans (congrArg (fun c : ChestSt => c.clears + 1) (storeSeq_only s d).chest)
      · refine (hfield (·.keep) fun _ _ _ => rfl).trans ?_
        exact (hkeep hbit).1
      · refine (hfield (·.closed) fun _ _ _ => rfl).trans ?_
        exact (hkeep hbit).2
  · have hlc' : (s.storeSeq d).sec.lc = .ret := (storeSeq_flash s d).1.trans hlc
    refine ⟨_, congrArg Host.Outcome.next (mgmtCommand_done (accepts_of_takesCommand h) (if_pos hlc')), ?_, ?_⟩
    · exact only_replyMgmt (only_changes (only_clearRetire ((storeSeq_only ..).in) (by decide)) (by decide)) (by decide)
    · rw [(replyMgmt_only ..).relx, (changes_only ..).relx, clearRetire_relx, (storeSeq_only ..).relx]
  · have hlc' : (s.storeSeq d).sec.lc ≠ .ret := by rw [(storeSeq_flash s d).1]; exact hlc
    exact congrArg Host.Outcome.next (mgmtCommand_no (accepts_of_takesCommand h) (if_neg hlc'))
  · have hacc := accepts_of_takesCommand h
    have hdone := mgmtCommand_done (code := 0x07) hacc (f := fun u =>
      .done (u.modSec fun x => { x with quoteSeq := x.quoteSeq + 1 }) (leBytes 3 s.sec.quoteSeq.toNat)) rfl
    have hexec := execMgmtQuote_eq s d
    rw [hdone] at hexec
    refine ⟨_, hexec, ?_, ?_⟩
    · exact only_when (only_replyMgmt (only_modSec ((storeSeq_only ..).in) (by decide)) (by decide))
        (only_askSign (only_replyMgmt (only_modSec ((storeSeq_only ..).in) (by decide)) (by decide)) (by decide))
    · rw [State.when_read (fun u => u.sec.quoteSeq), (askSign_only ..).sec, ite_self, (replyMgmt_only ..).sec]
      exact congrArg (· + 1) (storeSeq_flash s d).2
  · have hp' : (s.storeSeq d).passed 2 = true := by unfold State.passed; rw [(storeSeq_only ..).brup]; exact hp
    have hwrite := bar0Write_fretTree (s := s.storeSeq d) (w := { acc := .mc, signed := some (d.port, d.slot.toNat) }) rfl hp'
      (BitVec.ofNat 32 (leAt d.body 4 4))
    have hexec : exec (.mgmtWriteReg d) s = .next (((s.storeSeq d).changes d ((s.storeSeq d).modFret fun r => { r with
        horizon := (BitVec.ofNat 32 (leAt d.body 4 4)).extractLsb' 17 12
        children := (BitVec.ofNat 32 (leAt d.body 4 4)).setWidth 17 })).replyMgmt d 0x08 0 noBytes) := by
      refine congrArg Host.Outcome.next (mgmtCommand_done (accepts_of_takesCommand h) ((if_neg (by rw [hlen]; decide)).trans ?_))
      dsimp only
      rw [hoff, hwrite]
    refine ⟨_, hexec, ?_, ?_⟩
    · exact only_replyMgmt (only_changes (only_modFret ((storeSeq_only ..).in) (by decide)) (by decide)) (by decide)
    · rw [(replyMgmt_only ..).fret, (changes_only ..).fret]
      exact congrArg (fun r : FretSt => { r with
        horizon := (BitVec.ofNat 32 (leAt d.body 4 4)).extractLsb' 17 12
        children := (BitVec.ofNat 32 (leAt d.body 4 4)).setWidth 17 }) (storeSeq_only s d).fret
  · exact congrArg Host.Outcome.next (mgmtCommand_no (accepts_of_takesCommand h) (if_pos hlen))
  · have hcode : ¬ (1 ≤ code.toNat ∧ code.toNat ≤ 8) := by
      rcases hc with rfl | hc
      · decide
      · omega
    refine ⟨_, (if_neg hcode).trans (congrArg Host.Outcome.next (mgmtCommand_no (accepts_of_takesCommand h) rfl)), ?_, rfl⟩
    exact only_replyMgmt (.refl _ _) (by decide)
  · refine congrArg Host.Outcome.next ?_
    by_cases hroom : s.mayReply = true ∧ 16 < s.ids.queue.length + 1
    · unfold State.mgmtCommand
      rw [if_neg (by rw [hup]; exact fun k => k.elim (fun k => Bool.noConfusion k) hlc), if_neg (by rw [hgood]; decide), if_pos hroom]
    · rw [mgmtCommand_new hup hlc hgood hroom hnew]
      exact if_neg (by rw [hf]; decide)
  · exact ownerCommand (accepts_of_takesCommand h) (by rw [hbody]; rfl)
  · exact ownerCommand (accepts_of_takesCommand h) (by rw [hbody]; rfl)
  · obtain ⟨p, hp, rfl⟩ := List.mem_map.mp (show i ∈ (mgmtCommands d).map Prod.fst from hi)
    exact exec_of_answer hp (fun slots f _ => mgmtCommand_unseen h ..) rfl
  · obtain ⟨p, hp, rfl⟩ := List.mem_map.mp (show i ∈ (mgmtCommands d).map Prod.fst from hi)
    exact exec_of_answer hp (fun slots f _ => mgmtCommand_rejected hup hlc h ..) rfl
  · refine exec_of_answer hp (fun slots f hs => mgmtCommand_repeat hup hlc hgood hrep (by omega) ..) ?_
    rw [(replyMgmt_only ..).sec]
  · rintro ⟨hup, hdst⟩
    rcases h with h | h
    · exact Bool.noConfusion (h.symm.trans hup)
    · exact h hdst
  · rintro ⟨hp, he⟩
    rcases h with h | h
    · exact Bool.noConfusion (h.symm.trans hp)
    · exact Bool.noConfusion (h.symm.trans he)

end Sys2Proof.Machine
end

section
/-!
PROOFS. The bring-up commands and the script (12 R605 to R615, R620, R621): O34.
-/

set_option Elab.async false

namespace Sys2Proof.Machine

variable {s : State}

/-! ### BRUP_CTL -/

theorem accWrite_brupCtl {acc : Accessor} (h : s.mayWrite acc = true) (v : Word) : s.accWrite acc 0x20000 v = s.writeBrupCtl v :=
  accWrite_may (b := .brup) (o := 0x000) rfl rfl rfl rfl h

theorem accWrite_brupCtl_denied {acc : Accessor} (h : s.mayWrite acc = false) (v : Word) : s.accWrite acc 0x20000 v = s.denyWrite :=
  accWrite_unowned (b := .brup) (o := 0x000) h rfl rfl rfl rfl (fun _ _ => rfl) v

/-- The stage and the argument that a word of BRUP_CTL names. -/
def brupStage (v : Word) : Nat := (v.extractLsb' 0 4 : BitVec 4).toNat
def brupArg (v : Word) : BitVec 4 := v.extractLsb' 8 4

/-- The operations of BRUP_CTL. -/
def State.brupOp (s : State) (n : Nat) (arg : BitVec 4) (op : Nat) : State :=
  match op with
  | 1 => s.askStage n arg
  | 2 => s.when s.brup.auto fun s => s.modBrup fun b => { b with paused := true }
  | 3 => s.modBrup fun b => { b with paused := false }
  | 4 => s.bootPushed
  | 5 => s.programPushed arg.toNat
  | _ => s

theorem writeBrupCtl_eq (s : State) (v : Word) {op : Nat} (hop : op < 2 ^ 4) :
    s.writeBrupCtl (setField v 28 4 op) = s.brupOp (brupStage v) (brupArg v) op := by
  unfold State.writeBrupCtl
  rw [extract_setField_self v (by decide) hop, extract_setField v hop (by decide) (by decide),
    extract_setField v hop (by decide) (by decide)]
  rfl

theorem brupCommand {acc : Accessor} (h : s.mayWrite acc = true) (v : Word) {op : Nat} (hop : op < 2 ^ 4) :
    s.accWrite acc 0x20000 (setField v 28 4 op) = s.brupOp (brupStage v) (brupArg v) op :=
  (accWrite_brupCtl h _).trans (writeBrupCtl_eq s v hop)

/-! ### Asking for a stage -/

/-- The conditions for a stage to start (R605, R607). -/
structure State.StageMayStart (s : State) (n : Nat) : Prop where
  num : n ≤ 9
  earlier : s.earlierPassed n = true
  here : s.brup.stages.getD n .passed = .notRun ∨ s.brup.stages.getD n .passed = .failed
  blocked : ∀ b, s.brup.blocked = some b → ¬ b < n

theorem askStage_starts {n : Nat} (h : s.StageMayStart n) (arg : BitVec 4) : s.askStage n arg = s.startStage n arg := by
  have hb : (s.brup.blocked.any fun b => decide (b < n)) = false := by
    cases hx : s.brup.blocked with
    | none => rfl
    | some b => exact decide_eq_false (h.blocked b hx)
  have hh : (decide (s.brup.stages.getD n .passed = .notRun) || decide (s.brup.stages.getD n .passed = .failed)) = true := by
    rcases h.here with h | h
    · rw [decide_eq_true h]; rfl
    · rw [decide_eq_true h, Bool.or_true]
  unfold State.askStage
  dsimp only
  rw [decide_eq_true h.num, h.earlier, hh, hb]
  rfl

theorem askStage_refused {n : Nat} (h : ¬ s.StageMayStart n) (arg : BitVec 4) :
    s.askStage n arg = s.modBrup fun b => { b with orderErr := true } := by
  refine if_neg fun k => h ?_
  simp only [Bool.and_eq_true, Bool.or_eq_true, decide_eq_true_eq, Bool.not_eq_true'] at k
  obtain ⟨⟨⟨hn, he⟩, hh⟩, hb⟩ := k
  refine ⟨hn, he, hh, fun b hx hlt => ?_⟩
  rw [hx] at hb
  exact of_decide_eq_false hb hlt

/-! ### Programming a pushed image -/

theorem programPushed_idle {area : Nat} (h : 3 ≤ area ∨ s.sec.lc = .final ∨
    s.verifyImage (BitVec.ofNat 8 (area + 1)) (some (parseImage s.brup.pushBytes)) = none) : s.programPushed area = s :=
  if_pos (h.imp id (.imp id fun h => by rw [h]; rfl))

theorem programPushed_takes {area : Nat} (ha : area < 3) (hl : s.sec.lc ≠ .final)
    (hv : (s.verifyImage (BitVec.ofNat 8 (area + 1)) (some (parseImage s.brup.pushBytes))).isSome = true) :
    (s.programPushed area).flash.generation = s.flash.generation + 1 ∧
      (area = 0 → s.programPushed area = { s with flash := { s.flash with
        firmware := some (parseImage s.brup.pushBytes), hdrOk := true, generation := s.flash.generation + 1
        auto := s.flash.configAuto } }) ∧
      (area = 1 → (s.programPushed area).flash.config = some (parseImage s.brup.pushBytes) ∧
        (s.programPushed area).flash.firmware = s.flash.firmware ∧ (s.programPushed area).flash.script = s.flash.script) ∧
      (area = 2 → (s.programPushed area).flash.scriptImg = some (parseImage s.brup.pushBytes) ∧
        (s.programPushed area).flash.firmware = s.flash.firmware ∧ (s.programPushed area).flash.config = s.flash.config) := by
  have hgo : ¬ (3 ≤ area ∨ s.sec.lc = .final ∨
      (s.verifyImage (BitVec.ofNat 8 (area + 1)) (some (parseImage s.brup.pushBytes))).isNone = true) := by
    rintro (h | h | h)
    · omega
    · exact hl h
    · exact absurd (Option.isNone_iff_eq_none.mp h) (Option.isSome_iff_ne_none.mp hv)
  unfold State.programPushed
  dsimp only
  rw [if_neg hgo]
  match area, ha with
  | 0, _ => exact ⟨rfl, fun _ => rfl, fun h => absurd h (by decide), fun h => absurd h (by decide)⟩
  | 1, _ => exact ⟨rfl, fun h => absurd h (by decide), fun _ => ⟨rfl, rfl, rfl⟩, fun h => absurd h (by decide)⟩
  | 2, _ => exact ⟨rfl, fun h => absurd h (by decide), fun h => absurd h (by decide), fun _ => ⟨rfl, rfl, rfl⟩⟩

/-! ### The sequencer's records -/

/-- A record of the command's own op is run. -/
theorem runRecord_runs {r : ScriptRec} (hr : s.brup.ready = true) (hs : s.flash.script[s.brup.next]? = some r) {op : Nat}
    (hop : r.op.toNat = op) (f : State → ScriptRec → State) : s.runRecord op f = f s.advance r := by
  unfold State.runRecord
  rw [hr, hs]
  exact if_pos hop

theorem runRecord_notReady (hr : s.brup.ready = false) (op : Nat) (f : State → ScriptRec → State) : s.runRecord op f = s :=
  if_pos (by rw [hr]; rfl)

/-- A record of another command's op is left to it, and a reserved one stops the replay. -/
theorem runRecord_other {r : ScriptRec} (hr : s.brup.ready = true) (hs : s.flash.script[s.brup.next]? = some r) {op : Nat}
    (hop : r.op.toNat ≠ op) (f : State → ScriptRec → State) :
    s.runRecord op f = if r.op = 0 ∨ 6 < r.op.toNat then s.advance.stopScript else s := by
  unfold State.runRecord
  rw [hr, hs]
  exact if_neg hop

theorem runRecord_past (hr : s.brup.ready = true) (hs : s.flash.script[s.brup.next]? = none) (op : Nat) (f : State → ScriptRec → State) :
    s.runRecord op f = if op = 6 then s.endScript else s := by
  unfold State.runRecord
  rw [hr, hs]
  rfl

/-- The commands that run records, with their ops. -/
def scriptCommands : List (Nat × Instr) :=
  [(1, .scriptWrite), (2, .scriptModify), (3, .scriptPoll), (4, .scriptWait), (5, .scriptStage), (6, .scriptEnd)]

theorem exec_scriptCommand {x : Nat × Instr} (hx : x ∈ scriptCommands) :
    1 ≤ x.1 ∧ x.1 ≤ 6 ∧ ∃ f, ∀ s : State, exec x.2 s = .next (s.runRecord x.1 f) := by
  simp only [scriptCommands, List.mem_cons, List.not_mem_nil, or_false] at hx
  rcases hx with rfl | rfl | rfl | rfl | rfl | rfl
  · exact ⟨by decide, by decide, _, fun _ => rfl⟩
  · exact ⟨by decide, by decide, _, fun _ => rfl⟩
  · exact ⟨by decide, by decide, _, fun _ => rfl⟩
  · exact ⟨by decide, by decide, _, fun _ => rfl⟩
  · exact ⟨by decide, by decide, _, fun _ => rfl⟩
  · exact ⟨by decide, by decide, _, fun _ => rfl⟩

/-- What a STAGE record does. -/
def State.stageRecord (s : State) (r : ScriptRec) : State :=
  match s.brup.stages[r.stage.toNat]? with
  | none => (s.askStage r.stage.toNat (r.arg.setWidth 4)).stopScript
  | some .passed => s
  | some .running => s.modBrup fun b => { b with wait := .stage }
  | some _ =>
    if (s.askStage r.stage.toNat (r.arg.setWidth 4)).brup.stages.getD r.stage.toNat .notRun = .running then
      (s.askStage r.stage.toNat (r.arg.setWidth 4)).modBrup fun b => { b with wait := .stage }
    else (s.askStage r.stage.toNat (r.arg.setWidth 4)).stopScript

theorem execScriptStage_eq {r : ScriptRec} (hr : s.brup.ready = true) (hs : s.flash.script[s.brup.next]? = some r) (hop : r.op = 5) :
    exec .scriptStage s = .next (s.advance.stageRecord r) :=
  congrArg Host.Outcome.next (runRecord_runs hr hs (by rw [hop]; rfl) _)

/-- Settles O34: what each command and record does, and when it does nothing. -/
theorem bringUpCommandsAndScript : Obligations.BringUpCommandsAndScript := by
  unfold Obligations.BringUpCommandsAndScript
  refine ⟨fun s acc v hm hn he hh hb => ?_, fun s acc v hm h => ?_, fun s acc v hm ha => ?_, fun s acc v hm => ?_,
    fun s acc v hm hf hs hc => ?_, fun s acc v hm ha hl => ?_, fun s ha hp h1 hok hrep hrun => if_pos ⟨ha, hp, h1, hok, hrep, hrun⟩,
    fun s r hr hs hop hmay => ?_, fun s r hr hs hop hmay => ?_, fun s r hr hs hop => ?_, fun s r hr hs hop => ?_,
    fun s r hw hs hv => ?_, fun s hw => if_pos hw, fun s r hr hs hop => ?_, fun s hw => if_pos hw,
    fun s r hr hs hop hn hlen he hnr hb => ?_, fun s r hr hs hop => ?_, fun s acc v hm h => ?_, fun s acc v hm ha => ?_,
    fun s acc v hm h => ?_, fun s acc v hm h => ?_, fun s acc v hm ha hl => ?_, fun s acc v hm ha hl => ?_, fun s acc v i hm hi => ?_,
    fun s h => if_neg ?_, fun s x hx => ⟨fun hr => ?_, fun r hr hs hop h1 h6 => ?_, fun r hr hs hop => ?_, fun hr hs => ?_⟩,
    fun s hw => ⟨?_, if_neg hw⟩, fun s hw => if_neg hw, fun s r hw hs hv => ?_, fun s r hr hs hop => ⟨fun hst => ?_, fun hst => ?_, fun hst he => ?_⟩⟩
  · have hmay : s.StageMayStart (brupStage v) := ⟨hn, he, hh, fun b hx => absurd (hb.symm.trans hx) (by simp)⟩
    exact congrArg Host.Outcome.next ((brupCommand hm v (op := 1) (by decide)).trans (askStage_starts hmay _))
  · have hnot : ¬ s.StageMayStart (brupStage v) := fun k => by
      rcases h with h | h
      · exact Bool.noConfusion (h.symm.trans k.earlier)
      · rcases k.here with k | k
        · exact absurd (h.symm.trans k) (by decide)
        · exact absurd (h.symm.trans k) (by decide)
    exact congrArg Host.Outcome.next ((brupCommand hm v (op := 1) (by decide)).trans (askStage_refused hnot _))
  · exact congrArg Host.Outcome.next ((brupCommand hm v (op := 2) (by decide)).trans (if_pos ha))
  · exact congrArg Host.Outcome.next (brupCommand hm v (op := 3) (by decide))
  · have hpushed : s.bootPushed = (s.startStage 1 0).modBrup fun b => { b with pushed := true } := if_pos ⟨hf, hs, hc⟩
    exact congrArg Host.Outcome.next ((brupCommand hm v (op := 4) (by decide)).trans hpushed)
  · refine congrArg Host.Outcome.next ((brupCommand hm v (op := 5) (by decide)).trans ?_)
    show s.programPushed (brupArg v).toNat = _
    rw [show (brupArg v).toNat = 0 from congrArg BitVec.toNat ha]
    by_cases hv : (s.verifyImage 1 (some (parseImage s.brup.pushBytes))).isSome = true
    · rw [if_pos hv]
      exact (programPushed_takes (by decide) hl hv).2.1 rfl
    · rw [if_neg hv]
      exact programPushed_idle (.inr (.inr (Option.not_isSome_iff_eq_none.mp hv)))
  · refine congrArg Host.Outcome.next ((runRecord_runs hr hs (by rw [hop]; rfl) _).trans (if_neg ?_))
    rw [hmay]
    decide
  · have hexec : exec .scriptWrite s = .next s.advance.stopScript :=
      congrArg Host.Outcome.next ((runRecord_runs hr hs (by rw [hop]; rfl) _).trans (if_pos hmay))
    exact ⟨_, hexec, only_stopScript ((advance_only ..).in) (by decide), rfl, rfl⟩
  · exact congrArg Host.Outcome.next (runRecord_runs hr hs (by rw [hop]; rfl) _)
  · exact ⟨_, congrArg Host.Outcome.next (runRecord_runs hr hs (by rw [hop]; rfl) _), only_modBrup ((advance_only ..).in) (by decide), rfl, rfl⟩
  · have hexec : exec .scriptPollMatch s = execScriptPollMatch s := rfl
    unfold execScriptPollMatch at hexec
    rw [if_pos hw, hs] at hexec
    dsimp only at hexec
    rw [if_pos hv] at hexec
    refine ⟨_, hexec, only_modBrup ((bar0Read_only ..).in) (by decide), ?_⟩
    exact congrArg (fun b : BrupSt => { b with wait := .none }) (bar0Read_only s .mc r.off.toNat).brup
  · exact ⟨_, congrArg Host.Outcome.next (runRecord_runs hr hs (by rw [hop]; rfl) _), only_modBrup ((advance_only ..).in) (by decide), rfl, rfl⟩
  · have hget : s.brup.stages.getD r.stage.toNat .passed = .notRun := by rw [List.getD_eq_getElem?_getD, hnr]; rfl
    have hmay : s.advance.StageMayStart r.stage.toNat := ⟨hn, he, .inl hget, fun b hx => absurd (hb.symm.trans hx) (by simp)⟩
    have hset : ((s.advance.startStage r.stage.toNat (r.arg.setWidth 4)).brup.stages.getD r.stage.toNat .notRun) = .running := by
      show (s.brup.stages.set r.stage.toNat .running).getD r.stage.toNat .notRun = _
      rw [List.getD_eq_getElem?_getD, List.getElem?_set_self (by omega)]
      rfl
    have hrec : s.advance.stageRecord r =
        (s.advance.startStage r.stage.toNat (r.arg.setWidth 4)).modBrup fun b => { b with wait := .stage } := by
      unfold State.stageRecord
      rw [show s.advance.brup.stages[r.stage.toNat]? = some .notRun from hnr]
      dsimp only
      rw [askStage_starts hmay, if_pos hset]
    refine ⟨_, (execScriptStage_eq hr hs hop).trans (congrArg Host.Outcome.next hrec), ?_, rfl, rfl⟩
    exact only_modBrup (only_startStage ((advance_only ..).in) (by decide)) (by decide)
  · exact ⟨_, congrArg Host.Outcome.next (runRecord_runs hr hs (by rw [hop]; rfl) _), only_endScript ((advance_only ..).in) (by decide), rfl, rfl⟩
  · have hnot : ¬ s.StageMayStart (brupStage v) := fun k => by
      rcases h with h | h | ⟨b, hb, hlt⟩
      · exact absurd k.num (Nat.not_le.mpr h)
      · rcases k.here with k | k
        · exact absurd (h.symm.trans k) (by decide)
        · exact absurd (h.symm.trans k) (by decide)
      · exact k.blocked b hb hlt
    exact congrArg Host.Outcome.next ((brupCommand hm v (op := 1) (by decide)).trans (askStage_refused hnot _))
  · exact congrArg Host.Outcome.next ((brupCommand hm v (op := 2) (by decide)).trans (if_neg (by rw [ha]; decide)))
  · have hidle : s.bootPushed = s := if_neg fun k => by
      obtain ⟨k1, k2, k3⟩ := k
      rcases h with h | h | h
      · exact h k1
      · exact h k2
      · exact h k3
    exact congrArg Host.Outcome.next ((brupCommand hm v (op := 4) (by decide)).trans hidle)
  · exact congrArg Host.Outcome.next ((brupCommand hm v (op := 5) (by decide)).trans (programPushed_idle h))
  · have harea : (brupArg v).toNat = 1 := congrArg BitVec.toNat ha
    have hdo : s.brupOp (brupStage v) (brupArg v) 5 = s.programPushed 1 := congrArg s.programPushed harea
    refine ⟨_, congrArg Host.Outcome.next ((brupCommand hm v (op := 5) (by decide)).trans hdo), programPushed_only .., fun hv => ?_⟩
    obtain ⟨hgen, -, hcfg, -⟩ := programPushed_takes (area := 1) (by decide) hl hv
    obtain ⟨hc, hf, hs⟩ := hcfg rfl
    exact ⟨hc, hgen, hf, hs⟩
  · have harea : (brupArg v).toNat = 2 := congrArg BitVec.toNat ha
    have hdo : s.brupOp (brupStage v) (brupArg v) 5 = s.programPushed 2 := congrArg s.programPushed harea
    refine ⟨_, congrArg Host.Outcome.next ((brupCommand hm v (op := 5) (by decide)).trans hdo), programPushed_only .., fun hv => ?_⟩
    obtain ⟨hgen, -, -, hscript⟩ := programPushed_takes (area := 2) (by decide) hl hv
    obtain ⟨hi, hf, hc⟩ := hscript rfl
    exact ⟨hi, hgen, hf, hc⟩
  · simp only [List.mem_cons, List.not_mem_nil, or_false] at hi
    rcases hi with rfl | rfl | rfl | rfl | rfl
    · exact congrArg Host.Outcome.next (accWrite_brupCtl_denied hm _)
    · exact congrArg Host.Outcome.next (accWrite_brupCtl_denied hm _)
    · exact congrArg Host.Outcome.next (accWrite_brupCtl_denied hm _)
    · exact congrArg Host.Outcome.next (accWrite_brupCtl_denied hm _)
    · exact congrArg Host.Outcome.next (accWrite_brupCtl_denied hm _)
  · rintro ⟨ha, hp, h1, hok, hrep, hrun⟩
    rcases h with h | h | h | h | h | h
    · exact Bool.noConfusion (h.symm.trans ha)
    · exact Bool.noConfusion (h.symm.trans hp)
    · exact Bool.noConfusion (h.symm.trans h1)
    · exact Bool.noConfusion (h.symm.trans hok)
    · exact Bool.noConfusion (h.symm.trans hrep)
    · exact Bool.noConfusion (h.symm.trans hrun)
  · obtain ⟨-, -, f, hf⟩ := exec_scriptCommand hx
    exact (hf s).trans (congrArg Host.Outcome.next (runRecord_notReady hr _ f))
  · obtain ⟨-, -, f, hf⟩ := exec_scriptCommand hx
    refine (hf s).trans (congrArg Host.Outcome.next ((runRecord_other hr hs hop f).trans (if_neg ?_)))
    rintro (h | h)
    · rw [h] at h1; exact absurd h1 (by decide)
    · omega
  · obtain ⟨h1, h6, f, hf⟩ := exec_scriptCommand hx
    have hne : r.op.toNat ≠ x.1 := by
      rcases hop with h | h
      · rw [h]; exact fun k => absurd (k.symm ▸ h1) (by decide)
      · omega
    exact (hf s).trans (congrArg Host.Outcome.next ((runRecord_other hr hs hne f).trans (if_pos hop)))
  · obtain ⟨-, -, f, hf⟩ := exec_scriptCommand hx
    refine (hf s).trans (congrArg Host.Outcome.next ((runRecord_past hr hs _ f).trans ?_))
    split
    · rfl
    · rfl
  · change execScriptPollMatch s = _
    unfold execScriptPollMatch
    rw [if_neg hw]
  · have hexec : exec .scriptPollMatch s = execScriptPollMatch s := rfl
    unfold execScriptPollMatch at hexec
    rw [if_pos hw, hs] at hexec
    dsimp only at hexec
    rw [if_neg hv] at hexec
    exact ⟨_, hexec, bar0Read_only ..⟩
  · refine (execScriptStage_eq hr hs hop).trans (congrArg Host.Outcome.next ?_)
    unfold State.stageRecord
    rw [show s.advance.brup.stages[r.stage.toNat]? = some .passed from hst]
    rfl
  · refine (execScriptStage_eq hr hs hop).trans (congrArg Host.Outcome.next ?_)
    unfold State.stageRecord
    rw [show s.advance.brup.stages[r.stage.toNat]? = some .running from hst]
    rfl
  · have hnot : ¬ s.advance.StageMayStart r.stage.toNat := fun k => Bool.noConfusion (he.symm.trans k.earlier)
    have hget : (s.advance.modBrup fun b => { b with orderErr := true }).brup.stages.getD r.stage.toNat .notRun = .notRun := by
      show s.brup.stages.getD r.stage.toNat .notRun = _
      rw [List.getD_eq_getElem?_getD, hst]
      rfl
    have hrec : s.advance.stageRecord r = (s.advance.modBrup fun b => { b with orderErr := true }).stopScript := by
      unfold State.stageRecord
      rw [show s.advance.brup.stages[r.stage.toNat]? = some .notRun from hst]
      dsimp only
      rw [askStage_refused hnot, hget]
      rfl
    refine ⟨_, (execScriptStage_eq hr hs hop).trans (congrArg Host.Outcome.next hrec), ?_, rfl, rfl, rfl⟩
    exact only_stopScript (only_modBrup ((advance_only ..).in) (by decide)) (by decide)

end Sys2Proof.Machine
end

section
/-!
PROOFS. The bring-up stages BU0 to BU5, BU8 and BU9 (12 R605 to R609): what each passes with, and what each fails with.
-/

set_option Elab.async false

namespace Sys2Proof.Machine

variable {s : State}

/-! ### Passing and failing -/

theorem passStage_stages (s : State) (n : Nat) : (s.passStage n).brup.stages = s.brup.stages.set n .passed := rfl

/-- What a failed stage writes of BRUP. -/
theorem failStage_brup (s : State) (n code : Nat) (detail : Word) {β : Type} (f : BrupSt → β)
    (hf : ∀ (b : BrupSt) (r : Bool) (w : SeqWait) (e : Bool), f { b with running := r, wait := w, scriptErr := e } = f b) :
    f (s.failStage n code detail).brup = f { s.brup with
      stages := s.brup.stages.set n .failed, current := BitVec.ofNat 4 n, failStage := BitVec.ofNat 4 n
      failCode := BitVec.ofNat 8 code, detail := detail } := by
  unfold State.failStage
  extract_lets done a b
  have hb : b.brup = a.brup := (record_only ..).brup
  cases done with
  | false => exact congrArg f hb
  | true => exact (hf b.brup false .none true).trans (congrArg f hb)

theorem failStage_reads (s : State) (n code : Nat) (detail : Word) :
    (s.failStage n code detail).brup.stages = s.brup.stages.set n .failed ∧
      (s.failStage n code detail).brup.failStage = BitVec.ofNat 4 n ∧
      (s.failStage n code detail).brup.failCode = BitVec.ofNat 8 code ∧ (s.failStage n code detail).brup.detail = detail :=
  ⟨failStage_brup s n code detail (·.stages) fun _ _ _ _ => rfl, failStage_brup s n code detail (·.failStage) fun _ _ _ _ => rfl,
    failStage_brup s n code detail (·.failCode) fun _ _ _ _ => rfl, failStage_brup s n code detail (·.detail) fun _ _ _ _ => rfl⟩

/-- A stage that fails: only BRUP and the Chest change, and its code is in BRUP. -/
theorem failed_next {o : Host.Outcome State Fault Refusal} {n code : Nat} {detail : Word} (h : o = .next (s.failStage n code detail)) :
    ∃ t, o = .next t ∧ s.Only t [.brup, .chest] ∧ t.brup.stages = s.brup.stages.set n .failed ∧ t.brup.failStage = BitVec.ofNat 4 n ∧
      t.brup.failCode = BitVec.ofNat 8 code ∧ t.brup.detail = detail :=
  ⟨_, h, failStage_only .., failStage_reads ..⟩

/-- A retirement cause found before the chip was ever in service: the cause is set, the stage fails, and no later one starts. -/
theorem causeStage_reads (hr : s.relx.retState = .none) (hw : s.healx.retireWait = none) (hready : s.top.ready = false) (n code : Nat)
    (detail : Word) (cause : BitVec 4) :
    s.Only (s.causeStage n code detail cause) [.flash, .top, .brup, .bist, .relx, .chest, .out] ∧
      (s.causeStage n code detail cause).brup.stages = s.brup.stages.set n .failed ∧
      (s.causeStage n code detail cause).brup.failCode = BitVec.ofNat 8 code ∧ (s.causeStage n code detail cause).relx.retCause = cause ∧
      (s.causeStage n code detail cause).brup.blocked = some n := by
  obtain ⟨honly, -, -, hcause, -⟩ := retireCause_retires hr hw hready cause
  obtain ⟨hstages, -, hcode, -⟩ := failStage_reads (s.retireCause cause) n code detail
  refine ⟨only_modBrup (only_failStage (honly.in) (by decide)) (by decide), ?_, hcode, ?_, rfl⟩
  · exact hstages.trans (by rw [honly.brup])
  · exact (congrArg RelAux.retCause (failStage_only (s.retireCause cause) n code detail).relx).trans hcause

/-! ### BU0 and BU1 -/

/-- What BU0 reads from the flash header and the fuses. -/
def State.headerRead (s : State) : State :=
  ((((s.modBrup fun b => { b with
      hdrValid := s.flash.hdrOk, hdrGen := s.flash.generation.setWidth 31, auto := s.flash.hdrOk && s.flash.auto
      scriptErr := b.scriptErr || !s.flash.hdrOk }).modRelx fun r =>
    { r with retFlag := s.flash.retFlag, retCause := s.flash.retCause, retState := if s.flash.retFlag then .retired else .none }).modPwr fun p =>
    { p with host := BitVec.ofNat 16 s.fuse.grade.limit, limit := BitVec.ofNat 16 s.fuse.grade.limit }).modClk fun c =>
    { c with mhz := BitVec.ofNat 16 s.fuse.grade.mhz }).modSec fun x => { x with lc := s.fuse.lc, trips := s.fuse.trips }

/-- The Chest is restored, once. -/
def State.chestRead (s : State) : State :=
  s.when (!s.rstc.restored) fun s => s.restoreChest.modRstc fun r => { r with restored := true }

theorem execStageBu0_eq (h : s.stageRuns 0 = true) :
    exec (.stageBu0 true) s = .next ((s.headerRead.chestRead.passStage 0).when (s.headerRead.chestRead.passStage 0).brup.auto fun s =>
      s.startStage 1 0) := by
  change execStageBu0 true s = _
  unfold execStageBu0
  rw [if_neg (by rw [h]; decide), if_neg (by decide)]
  rfl

theorem chestRead_only (s : State) : s.Only s.chestRead [.chest, .rstc] :=
  only_when (.refl _ _) (only_modRstc ((restoreChest_only ..).in) (by decide))

theorem stageBu0_passes (h : s.stageRuns 0 = true) :
    ∃ t, exec (.stageBu0 true) s = .next t ∧ s.Only t [.rstc, .brup, .pwr, .clk, .sec, .relx, .chest] ∧
      t.relx.retFlag = s.flash.retFlag ∧ t.sec.lc = s.fuse.lc ∧ t.pwr.limit = BitVec.ofNat 16 s.fuse.grade.limit ∧
      t.brup.stages = (if s.flash.hdrOk && s.flash.auto then (s.brup.stages.set 0 .passed).set 1 .running
        else s.brup.stages.set 0 .passed) := by
  have hc := chestRead_only s.headerRead
  have hauto : (s.headerRead.chestRead.passStage 0).brup.auto = (s.flash.hdrOk && s.flash.auto) :=
    (congrArg BrupSt.auto hc.brup).trans rfl
  have hstages : (s.headerRead.chestRead.passStage 0).brup.stages = s.brup.stages.set 0 .passed :=
    (congrArg (fun b : BrupSt => b.stages.set 0 .passed) hc.brup).trans rfl
  have hexec := execStageBu0_eq h
  rw [hauto] at hexec
  have honly : s.Only _ [.rstc, .brup, .pwr, .clk, .sec, .relx, .chest] := exec_only hexec
  refine ⟨_, hexec, honly, ?_, ?_, ?_, ?_⟩
  · rw [State.when_read (fun u => u.relx.retFlag)]
    exact (ite_self _).trans ((congrArg RelAux.retFlag hc.relx).trans rfl)
  · rw [State.when_read (fun u => u.sec.lc)]
    exact (ite_self _).trans ((congrArg SecSt.lc hc.sec).trans rfl)
  · rw [State.when_read (fun u => u.pwr.limit)]
    exact (ite_self _).trans ((congrArg PwrSt.limit hc.pwr).trans rfl)
  · rw [State.when_read (fun u => u.brup.stages), hstages]
    exact if_congr Iff.rfl (congrArg (fun l : List Stage => l.set 1 .running) hstages) rfl

/-- BU1 on an image and a configuration that verify. -/
theorem execStageBu1_eq (h : s.stageRuns 1 = true) (hl : s.sec.lc ≠ .final) {slot : Nat} (hv : s.verifyImage 1 s.bootImage = some slot)
    (ok : Bool) :
    exec (.stageBu1 ok) s =
      if (s.verifyImage 2 s.flash.config).isNone then .next (s.failStage 1 3 0)
      else if ok = false then .next (s.failStage 1 4 0)
      else .next (((((((s.modSec fun x => { x with slot := BitVec.ofNat 2 slot, firmware := s.bootImage }).bootIdentity.bootKeys).bootLog slot
        (s.verifyImage 3 s.flash.scriptImg).isSome).bootTriggers).modBrup fun b =>
          { b with
            scriptOk := (s.verifyImage 3 s.flash.scriptImg).isSome, auto := b.auto && (s.verifyImage 3 s.flash.scriptImg).isSome
            scriptErr := b.scriptErr || !(s.verifyImage 3 s.flash.scriptImg).isSome }).modRstc fun r => { r with wdogArmed := true }).passStage 1) := by
  change execStageBu1 ok s = _
  unfold execStageBu1
  rw [if_neg (by rw [h]; decide)]
  dsimp only
  rw [if_neg hl, hv]

theorem extendLog_firmware (s : State) (type : Byte) (sched : BitVec 32) (digest : BitVec 256) (info : List Byte) :
    (s.extendLog type sched digest info).sec.firmware = s.sec.firmware := rfl

theorem logImage_firmware (s : State) (type : Byte) (img : FlashImage) (info : List Byte) :
    (s.logImage type img info).sec.firmware = s.sec.firmware := by
  unfold State.logImage
  split
  · rfl
  · rfl

/-- The identity, the keys and the log of BU1 leave the image that boots. -/
theorem boot_firmware (s : State) (slot : Nat) (ok : Bool) :
    ((s.bootIdentity.bootKeys).bootLog slot ok).sec.firmware = s.sec.firmware := by
  have hkeys : (s.bootIdentity.bootKeys).sec.firmware = s.sec.firmware := by
    unfold State.bootKeys
    extract_lets blocks a b
    rw [State.when_read (fun u => u.sec.firmware), (record_only ..).sec, ite_self]
    exact (congrArg SecSt.firmware (bootIdentity_only s).sec).trans rfl
  unfold State.bootLog
  extract_lets d a b c e
  rw [State.when_read (fun u => u.sec.firmware), logImage_firmware, ite_self]
  have hb : b.sec.firmware = a.sec.firmware := by
    show (State.when a _ _).sec.firmware = _
    rw [State.when_read (fun u => u.sec.firmware), extendLog_firmware, ite_self]
  exact ((logImage_firmware ..).trans ((logImage_firmware ..).trans hb)).trans hkeys

theorem stageBu1_checks (h : s.stageRuns 1 = true) (hl : s.sec.lc ≠ .final) (h1 : (s.verifyImage 1 s.bootImage).isSome = true)
    (h2 : (s.verifyImage 2 s.flash.config).isSome = true) (ok : Bool) :
    ∃ t, exec (.stageBu1 ok) s = .next t ∧ s.Only t [.rstc, .brup, .ids, .sec, .chest, .tel, .free] ∧
      (ok = true → t.brup.stages = s.brup.stages.set 1 .passed ∧ t.rstc = { s.rstc with wdogArmed := true } ∧
        t.sec.firmware = s.bootImage) ∧
      (ok = false → t.brup.stages = s.brup.stages.set 1 .failed ∧ t.brup.failCode = 4) := by
  obtain ⟨slot, hslot⟩ := Option.isSome_iff_exists.mp h1
  have hexec := execStageBu1_eq h hl hslot ok
  rw [if_neg (fun k => absurd (Option.isNone_iff_eq_none.mp k) (Option.isSome_iff_ne_none.mp h2))] at hexec
  cases ok with
  | false =>
    obtain ⟨hstages, -, hcode, -⟩ := failStage_reads s 1 4 0
    exact ⟨_, hexec, (failStage_only ..).in, fun k => Bool.noConfusion k, fun _ => ⟨hstages, hcode⟩⟩
  | true =>
    rw [if_neg (by decide)] at hexec
    have honly : (s.modSec fun x => { x with slot := BitVec.ofNat 2 slot, firmware := s.bootImage }).Only
        ((((s.modSec fun x => { x with slot := BitVec.ofNat 2 slot, firmware := s.bootImage }).bootIdentity.bootKeys).bootLog slot
          (s.verifyImage 3 s.flash.scriptImg).isSome).bootTriggers) [.ids, .sec, .chest, .free, .tel] :=
      only_bootTriggers (only_bootLog (only_bootKeys ((bootIdentity_only ..).in) (by decide)) (by decide)) (by decide)
    refine ⟨_, hexec, exec_only hexec, fun _ => ⟨?_, ?_, ?_⟩, fun k => Bool.noConfusion k⟩
    · exact (congrArg (fun b : BrupSt => b.stages.set 1 .passed) honly.brup).trans rfl
    · exact (congrArg (fun r : RstcSt => { r with wdogArmed := true }) honly.rstc).trans rfl
    · exact (congrArg SecSt.firmware (bootTriggers_only ..).sec).trans (boot_firmware ..)

/-! ### BU4 and BU5 -/

theorem each_addPeg_only {α : Type} (s : State) (xs : List α) (kind : Nat) (f : α → Nat) :
    s.Only (s.each xs fun s x => s.addPeg kind (f x)) [.flash] :=
  only_each (.refl _ _) fun _ _ h => only_addPeg h (by decide)

/-- What BU5 writes of a partition: its channels as trained, its memory in service where all of them are. -/
def PartSt.withTraining (q : PartSt) (x : BitVec 16) : PartSt :=
  { q with trained := x, trainErr := q.trainErr || !decide (x = 0xFFFF), hbm := if x = 0xFFFF then .active else .training }

/-- BU5 on one partition. -/
def State.trainPart (s : State) (trained : List (BitVec 16)) (p : Nat) : State :=
  (s.updPart p fun q => q.withTraining (trained.getD p 0)).each
    ((List.range 16).filter fun k => bit (trained.getD p 0) k) fun s k => s.addPeg 1 (16 * p + k)

theorem trainPart_only (s : State) (trained : List (BitVec 16)) (p : Nat) : s.Only (s.trainPart trained p) [.parts, .flash] :=
  (updPart_only ..).in.trans ((each_addPeg_only ..).in)

theorem trainPart_part (s : State) (trained : List (BitVec 16)) (p k : Nat) :
    (s.trainPart trained p).part k = if k = p then (s.part p).withTraining (trained.getD p 0) else s.part k := by
  unfold State.trainPart
  rw [part_congr (each_addPeg_only ..).parts, updPart_part]

/-- The partitions that BU5 could not train. -/
def untrained (trained : List (BitVec 16)) : Nat :=
  (List.range 16).foldl (fun m p => if decide (trained.getD p 0 = 0xFFFF) then m else m + 2 ^ p) 0

/-- Every partition's domain is on. -/
def State.domainsOn (s : State) : State := s.modPwr fun p => { p with domains := p.domains ||| 0xFFFF, parked := 0, waking := 0 }

theorem execStageBu5_eq (h : s.stageRuns 5 = true) (hr : s.brup.restart = false) (trained : List (BitVec 16)) :
    exec (.stageBu5 trained) s =
      if untrained trained = 0 then .next ((s.domainsOn.each (List.range 16) fun s p => s.trainPart trained p).passStage 5)
      else .next ((s.domainsOn.each (List.range 16) fun s p => s.trainPart trained p).causeStage 5 8 (BitVec.ofNat 32 (untrained trained)) 3) := by
  have htrain : ∀ (u : State) (p : Nat), (u.updPart p fun q => { q with
      trained := trained.getD p 0, trainErr := q.trainErr || !decide (trained.getD p 0 = 0xFFFF)
      hbm := if decide (trained.getD p 0 = 0xFFFF) then .active else .training }) =
        u.updPart p fun q => q.withTraining (trained.getD p 0) := by
    intro u p
    unfold PartSt.withTraining
    simp only [decide_eq_true_eq]
  change execStageBu5 trained s = _
  unfold execStageBu5
  rw [if_neg (by rw [h]; decide), if_neg (by rw [hr]; decide)]
  simp only [htrain]
  rfl

theorem each_trainPart (trained : List (BitVec 16)) (s : State) :
    s.Only (s.each (List.range 16) fun s p => s.trainPart trained p) [.parts, .flash] ∧
      ∀ p < 16, ∃ q, (s.each (List.range 16) fun s p => s.trainPart trained p).part p = PartSt.withTraining q (trained.getD p 0) := by
  refine ⟨only_each (.refl _ _) fun _ _ h => h.trans ((trainPart_only ..).in), fun p hp => ?_⟩
  refine State.each_sets (f := fun s p => s.trainPart trained p) (P := fun u k => ∃ q, u.part k = PartSt.withTraining q (trained.getD k 0))
    (fun u x => ⟨u.part x, ?_⟩) (fun u x k hk => ?_) _ s p (List.mem_range.mpr hp)
  · rw [trainPart_part, if_pos rfl]
  · rw [trainPart_part]
    by_cases hkx : k = x
    · subst hkx; rw [if_pos rfl]; exact ⟨_, rfl⟩
    · rw [if_neg hkx]; exact hk

theorem untrained_ne_zero {trained : List (BitVec 16)} {p : Nat} (hp : p < 16) (h : trained.getD p 0 ≠ 0xFFFF) : untrained trained ≠ 0 := by
  have hmono : ∀ (xs : List Nat) (m : Nat), m ≤ xs.foldl (fun m p => if decide (trained.getD p 0 = 0xFFFF) then m else m + 2 ^ p) m := by
    intro xs
    induction xs with
    | nil => exact fun m => Nat.le_refl m
    | cons x xs ih =>
      intro m
      refine Nat.le_trans ?_ (ih _)
      dsimp only
      split
      · exact Nat.le_refl m
      · exact Nat.le_add_right m _
  have hpos : ∀ (xs : List Nat) (m : Nat), p ∈ xs → 0 < xs.foldl (fun m p => if decide (trained.getD p 0 = 0xFFFF) then m else m + 2 ^ p) m := by
    intro xs
    induction xs with
    | nil => exact fun _ h => absurd h List.not_mem_nil
    | cons x xs ih =>
      intro m hx
      rcases List.mem_cons.mp hx with rfl | hx
      · refine Nat.lt_of_lt_of_le ?_ (hmono xs _)
        dsimp only
        rw [if_neg (fun k => h (of_decide_eq_true k))]
        have := Nat.two_pow_pos p
        omega
      · exact ih _ hx
  exact Nat.pos_iff_ne_zero.mp (hpos _ _ (List.mem_range.mpr hp))

theorem untrained_replicate : untrained (List.replicate 16 0xFFFF) = 0 := by decide

/-! ### BU9 -/

theorem reportReady_reads (s : State) :
    s.reportReady.brup = { s.brup with restart := false } ∧ s.reportReady.top.ready = true ∧ s.reportReady.rstc.everReady = true := by
  unfold State.reportReady
  extract_lets a b c
  have hc : b.Only c [.pwr, .fret, .out] := only_when (.refl _ _) ((setReq_only ..).in)
  have hd : c.Only c.applyAdvance [.fuse] := applyAdvance_only c
  refine ⟨(readyPins_only ..).brup.trans (hd.brup.trans hc.brup), ?_, ?_⟩
  · have hpins : ∀ u : State, u.readyPins.top.ready = u.top.ready := fun u => by
      unfold State.readyPins
      split
      · rfl
      · rfl
    rw [hpins, hd.top, hc.top]
    rfl
  · rw [(readyPins_only ..).rstc, hd.rstc, hc.rstc]
    rfl

theorem execStageBu9_passes (h : s.stageRuns 9 = true) (hm : s.brup.restart = false → s.fret.state = .member ∨ s.fret.root = true) :
    ∃ t, exec (.stageBu9 true) s = .next t ∧ s.Only t [.fuse, .top, .rstc, .brup, .pwr, .fret, .chest, .mch, .out] ∧
      t.brup.stages = s.brup.stages.set 9 .passed ∧ t.top.ready = true ∧ t.rstc.everReady = true ∧ t.brup.restart = false := by
  have hexec : exec (.stageBu9 true) s = .next ((s.bindMc).passStage 9).reportReady := by
    change execStageBu9 true s = _
    unfold execStageBu9
    rw [if_neg (by rw [h]; rintro (k | ⟨-, k⟩) <;> exact Bool.noConfusion k), if_neg]
    rintro ⟨hr, hs, hroot⟩
    rcases hm hr with k | k
    · exact hs k
    · exact Bool.noConfusion (hroot.symm.trans k)
  obtain ⟨hbrup, hready, hever⟩ := reportReady_reads ((s.bindMc).passStage 9)
  refine ⟨_, hexec, exec_only hexec, ?_, hready, hever, ?_⟩
  · rw [hbrup]
    exact congrArg (fun b : BrupSt => b.stages.set 9 .passed) (bindMc_only s).brup
  · rw [hbrup]

/-! ### BU8 -/

/-- The enabled ports, and whether BU8 need not wait for one. -/
def State.enabledFabs (s : State) : Tab FabSt := s.fabs.filter fun e => e.2.enable
def FabSt.settled (f : FabSt) (now : Nat) : Bool :=
  decide (f.state = .up) || (decide (f.state = .down) && decide (f.downAt + 23437500 ≤ now))

theorem execStageBu8_eq (s : State) :
    exec .stageBu8 s = if s.stageRuns 8 = false ∨ !(s.enabledFabs.all fun e => e.2.settled s.ticks) then .next s
      else .next ((s.each (s.enabledFabs.filter fun e => decide (e.2.state = .up)) fun s e => s.addPeg 3 e.1).passStage 8) := rfl

theorem stageBu8_passes (h : s.stageRuns 8 = true) (hall : ∀ e ∈ s.fabs, e.2.enable = true →
      e.2.state = .up ∨ (e.2.state = .down ∧ e.2.downAt + 23437500 ≤ s.ticks)) :
    ∃ t, exec .stageBu8 s = .next t ∧ s.Only t [.flash, .brup] ∧ t.brup.stages = s.brup.stages.set 8 .passed := by
  have hset : (s.enabledFabs.all fun e => e.2.settled s.ticks) = true := by
    refine List.all_eq_true.mpr fun e he => ?_
    obtain ⟨hmem, hen⟩ := List.mem_filter.mp he
    unfold FabSt.settled
    rcases hall e hmem hen with k | ⟨k, hle⟩
    · rw [decide_eq_true k]; rfl
    · rw [decide_eq_true k, decide_eq_true hle, Bool.and_self, Bool.or_true]
  have hexec := execStageBu8_eq s
  rw [if_neg (by rw [h, hset]; decide)] at hexec
  have hpegs := each_addPeg_only s (s.enabledFabs.filter fun e => decide (e.2.state = .up)) 3 fun e => e.1
  exact ⟨_, hexec, only_passStage (hpegs.in) (by decide), by rw [passStage_stages, hpegs.brup]⟩

theorem stageBu8_waits (h : ∃ e ∈ s.fabs, e.2.enable = true ∧ e.2.state ≠ .up ∧ (e.2.state = .down → s.ticks < e.2.downAt + 23437500)) :
    exec .stageBu8 s = .next s := by
  obtain ⟨e, he, hen, hup, hlate⟩ := h
  refine (execStageBu8_eq s).trans (if_pos (.inr ?_))
  rw [Bool.not_eq_true', List.all_eq_false]
  refine ⟨e, List.mem_filter.mpr ⟨he, hen⟩, fun k => ?_⟩
  unfold FabSt.settled at k
  rcases Bool.or_eq_true_iff.mp k with k | k
  · exact hup (of_decide_eq_true k)
  · obtain ⟨k1, k2⟩ := Bool.and_eq_true_iff.mp k
    have := hlate (of_decide_eq_true k1)
    have := of_decide_eq_true k2
    omega

/-! ### Stages that pass with little -/

theorem stageBu2_passes (h : s.stageRuns 2 = true) :
    ∃ t, exec (.stageBu2 true) s = .next t ∧ s.Only t [.brup, .clk, .fret] ∧ t.brup.stages = s.brup.stages.set 2 .passed ∧
      t.fret = { s.fret with state := .free, west := 0, east := 0, stretch := 0, good := 0, sinceBeacon := 0 } ∧
      t.clk = { s.clk with
        lock := 0xFF, east := BitVec.ofNat 16 s.fuse.grade.mhz, west := BitVec.ofNat 16 s.fuse.grade.mhz
        domainMhz := BitVec.ofNat 16 s.fuse.grade.mhz } := by
  have hexec : exec (.stageBu2 true) s = execStageBu2 true s := rfl
  unfold execStageBu2 at hexec
  rw [if_neg (by rw [h]; decide), if_neg (by decide)] at hexec
  exact ⟨_, hexec, only_passStage (only_modFret ((modClk_only ..).in) (by decide)) (by decide), rfl, rfl, rfl⟩

theorem stageBu3_passes (h : s.stageRuns 3 = true) :
    ∃ t, exec (.stageBu3 true) s = .next t ∧ s.Only t [.brup, .mgt] ∧ t.brup.stages = s.brup.stages.set 3 .passed := by
  have hexec : exec (.stageBu3 true) s = execStageBu3 true s := rfl
  unfold execStageBu3 at hexec
  rw [if_neg (by rw [h]; decide), if_neg (by decide)] at hexec
  extract_lets ws u at hexec
  have hu : s.Only u [.mgt] := only_when (.refl _ _) ((modMgt_only ..).in)
  exact ⟨_, hexec, only_passStage (hu.in) (by decide), congrArg (fun b : BrupSt => b.stages.set 3 .passed) hu.brup⟩

/-- The spines' NCN comes up. -/
def State.ncnsUp (s : State) : State := (s.updSpn .west fun x => { x with ncnUp := true }).updSpn .east fun x => { x with ncnUp := true }

theorem stageBu4_passes (h : s.stageRuns 4 = true) :
    ∃ t, exec (.stageBu4 true true) s = .next t ∧ s.Only t [.brup, .spn, .flash] ∧
      t.brup.stages = s.brup.stages.set 4 .passed ∧ (t.spnHalf .west).ncnUp = true ∧ (t.spnHalf .east).ncnUp = true := by
  have hexec : exec (.stageBu4 true true) s = .next ((s.ncnsUp.each (List.range 16) fun s i => s.addPeg 2 i).passStage 4) := by
    change execStageBu4 true true s = _
    unfold execStageBu4
    rw [if_neg (by rw [h]; decide), if_neg (by decide), if_neg (by decide)]
    rfl
  have hu : s.Only s.ncnsUp [.spn] := only_updSpn ((updSpn_only ..).in) (by decide)
  have hpegs : s.ncnsUp.Only (s.ncnsUp.each (List.range 16) fun s i => s.addPeg 2 i) [.flash] := each_addPeg_only ..
  have hspn : ∀ x : Half, (((s.ncnsUp.each (List.range 16) fun s i => s.addPeg 2 i).passStage 4).spnHalf x) = s.ncnsUp.spnHalf x := fun x => by
    unfold State.spnHalf
    rw [(passStage_only ..).spn, hpegs.spn]
  refine ⟨_, hexec, only_passStage ((hu.in).trans (hpegs.in)) (by decide), ?_, ?_, ?_⟩
  · rw [passStage_stages, hpegs.brup, hu.brup]
  · rw [hspn]; rfl
  · rw [hspn]; rfl

theorem stageBu5_passes (h : s.stageRuns 5 = true) (hr : s.brup.restart = false) :
    ∃ t, exec (.stageBu5 (List.replicate 16 0xFFFF)) s = .next t ∧ s.Only t [.brup, .pwr, .parts, .flash] ∧
      t.brup.stages = s.brup.stages.set 5 .passed ∧ ∀ p < 16, (t.part p).hbm = .active ∧ (t.part p).trained = 0xFFFF := by
  have hexec := execStageBu5_eq h hr (List.replicate 16 0xFFFF)
  rw [if_pos untrained_replicate] at hexec
  obtain ⟨honly, hparts⟩ := each_trainPart (List.replicate 16 0xFFFF) s.domainsOn
  have hdom : s.Only s.domainsOn [.pwr] := modPwr_only ..
  refine ⟨_, hexec, only_passStage ((hdom.in).trans (honly.in)) (by decide), ?_, fun p hp => ?_⟩
  · rw [passStage_stages, honly.brup, hdom.brup]
  · obtain ⟨q, hq⟩ := hparts p hp
    have hget : (List.replicate 16 (0xFFFF : BitVec 16)).getD p 0 = 0xFFFF := by
      rw [List.getD_eq_getElem?_getD, List.getElem?_replicate_of_lt hp]
      rfl
    rw [hget] at hq
    rw [part_congr (passStage_only ..).parts, hq]
    exact ⟨rfl, rfl⟩

theorem stageBu5_untrained {trained : List (BitVec 16)} {p : Part} (h : s.stageRuns 5 = true) (hrs : s.brup.restart = false)
    (hbad : trained.getD p.val 0 ≠ 0xFFFF) (hr : s.relx.retState = .none) (hw : s.healx.retireWait = none) (hready : s.top.ready = false) :
    ∃ t, exec (.stageBu5 trained) s = .next t ∧ s.Only t [.flash, .top, .brup, .pwr, .bist, .relx, .chest, .parts, .out] ∧
      t.brup.stages = s.brup.stages.set 5 .failed ∧ t.brup.failCode = 8 ∧ t.relx.retCause = 3 ∧
      t.brup.blocked = some 5 ∧ (t.part p).trainErr = true := by
  have hexec := (execStageBu5_eq h hrs trained).trans (if_neg (untrained_ne_zero p.isLt hbad))
  obtain ⟨honly, hparts⟩ := each_trainPart trained s.domainsOn
  have hdom : s.Only s.domainsOn [.pwr] := modPwr_only ..
  have hall := (hdom.in (ds := [.pwr, .parts, .flash])).trans (honly.in)
  obtain ⟨hcauses, hst, hcode, hcause, hblocked⟩ := causeStage_reads (s := s.domainsOn.each (List.range 16) fun s p => s.trainPart trained p)
    ((congrArg RelAux.retState hall.relx).trans hr) ((congrArg HealAux.retireWait hall.healx).trans hw)
    ((congrArg TopSt.ready hall.top).trans hready) 5 8 (BitVec.ofNat 32 (untrained trained)) 3
  refine ⟨_, hexec, (hall.in).trans (hcauses.in), ?_, hcode, hcause, hblocked, ?_⟩
  · rw [hst, hall.brup]
  · obtain ⟨q, hq⟩ := hparts p p.isLt
    rw [part_congr hcauses.parts, hq]
    show (q.trainErr || !decide _) = true
    rw [decide_eq_false hbad]
    exact Bool.or_true _

theorem stageBu5_restart (h : s.stageRuns 5 = true) (hr : s.brup.restart = true) (trained : List (BitVec 16)) :
    ∃ t, exec (.stageBu5 trained) s = .next t ∧ s.Only t [.brup, .parts] ∧
      t.brup.stages = s.brup.stages.set 5 .passed ∧ ∀ p < 16, s.parked p = false → (t.part p).hbm = .active := by
  have hexec : exec (.stageBu5 trained) s = .next ((s.each ((List.range 16).filter fun p => !s.parked p) (·.hbmOn ·)).passStage 5) := by
    change execStageBu5 trained s = _
    unfold execStageBu5
    rw [if_neg (by rw [h]; decide), if_pos hr]
  have honly : s.Only (s.each ((List.range 16).filter fun p => !s.parked p) (·.hbmOn ·)) [.parts] :=
    only_each (.refl _ _) fun _ _ h => only_hbmOn h (by decide)
  refine ⟨_, hexec, only_passStage (honly.in) (by decide), by rw [passStage_stages, honly.brup], fun p hp hk => ?_⟩
  rw [part_congr (passStage_only ..).parts]
  refine State.each_sets (f := fun s p => s.hbmOn p) (P := fun u k => (u.part k).hbm = .active) (fun u x => ?_) (fun u x k hk => ?_) _ s p
    (List.mem_filter.mpr ⟨List.mem_range.mpr hp, by rw [hk]; rfl⟩)
  · exact (congrArg PartSt.hbm (updPart_part_self ..)).trans rfl
  · refine (congrArg PartSt.hbm (updPart_part ..)).trans ?_
    split
    · rfl
    · exact hk

/-! ### Stages that fail -/

theorem stageBu0_fails (h : s.stageRuns 0 = true) : exec (.stageBu0 false) s = .next (s.failStage 0 1 0) := by
  change execStageBu0 false s = _
  unfold execStageBu0
  rw [if_neg (by rw [h]; decide), if_pos rfl]

theorem stageBu1_unverified (h : s.stageRuns 1 = true) (hbad : s.sec.lc = .final ∨ s.verifyImage 1 s.bootImage = none) (ok : Bool) :
    exec (.stageBu1 ok) s = .next (s.failStage 1 2 0) := by
  change execStageBu1 ok s = _
  unfold execStageBu1
  rw [if_neg (by rw [h]; decide)]
  dsimp only
  rcases hbad with hl | hv
  · rw [if_pos hl]
  · rw [hv, ite_self]

theorem stageBu2_fails (h : s.stageRuns 2 = true) : exec (.stageBu2 false) s = .next (s.failStage 2 5 0) := by
  change execStageBu2 false s = _
  unfold execStageBu2
  rw [if_neg (by rw [h]; decide), if_pos rfl]

theorem stageBu3_fails (h : s.stageRuns 3 = true) : exec (.stageBu3 false) s = .next (s.failStage 3 6 0) := by
  change execStageBu3 false s = _
  unfold execStageBu3
  rw [if_neg (by rw [h]; decide), if_pos rfl]

theorem stageBu4_spine (h : s.stageRuns 4 = true) : exec (.stageBu4 false true) s = .next (s.causeStage 4 7 0 4) := by
  change execStageBu4 false true s = _
  unfold execStageBu4
  rw [if_neg (by rw [h]; decide), if_pos rfl]

theorem stageBu4_bridge (h : s.stageRuns 4 = true) : exec (.stageBu4 true false) s = .next (s.causeStage 4 7 0 2) := by
  change execStageBu4 true false s = _
  unfold execStageBu4
  rw [if_neg (by rw [h]; decide), if_neg (by decide), if_pos rfl]

theorem stageBu6_badPart (h : s.stageRuns 6 = true) (p : Part) :
    exec (.stageBu6 (some p)) s = .next (s.failStage 6 9 (BitVec.ofNat 32 p)) := by
  change execStageBu6 (some p) s = _
  unfold execStageBu6
  rw [if_neg (by rw [h]; decide)]

theorem stageBu6_badMap (h : s.stageRuns 6 = true) (hr : s.brup.restart = false) (hy : s.flash.yieldOk = false) :
    exec (.stageBu6 none) s = .next (s.failStage 6 0xA 0) := by
  change execStageBu6 none s = _
  unfold execStageBu6
  rw [if_neg (by rw [h]; decide)]
  dsimp only
  rw [if_neg (by rw [hr]; decide), if_pos hy]

theorem stageBu9_unaligned (h : s.stageRuns 9 = true) (hr : s.brup.restart = false) (hm : s.fret.state ≠ .member) (hroot : s.fret.root = false) :
    exec (.stageBu9 true) s = .next (s.failStage 9 0xD 0) := by
  change execStageBu9 true s = _
  unfold execStageBu9
  rw [if_neg (by rw [h]; rintro (k | ⟨-, k⟩) <;> exact Bool.noConfusion k), if_pos ⟨hr, hm, hroot⟩]

end Sys2Proof.Machine
end

section
/-!
PROOFS. The bring-up stages BU6 and BU7, and every stage's outcome (12 R606, R616 to R619): O35.
-/

set_option Elab.async false

namespace Sys2Proof.Machine

variable {s : State}

/-! ### The end of a stage's work -/

/-- A stage's work ends in PASSED, or in FAILED where it found a retirement cause. -/
theorem endWork_cases (s old : State) (n : Nat) :
    s.Only (s.endWork old n) [.brup, .chest] ∧
      ((s.endWork old n).brup.stages = s.brup.stages.set n .passed ∨ (s.endWork old n).brup.stages = s.brup.stages.set n .failed) := by
  unfold State.endWork
  split
  · exact ⟨only_modBrup ((failStage_only ..).in) (by decide), .inr (failStage_reads ..).1⟩
  · exact ⟨(passStage_only ..).in, .inl rfl⟩

/-- A stage whose work found none passes. -/
theorem endWork_passes {old : State} (h : s.relx.retState = old.relx.retState) (n : Nat) : s.endWork old n = s.passStage n :=
  if_neg fun k => k.2 (h.trans k.1)

/-! ### BU6 -/

/-- Slots lost at a change of roles may be a retirement cause; the self-test's other results stand. -/
theorem lostCheck_bist (s : State) (c : Nat) (before : List Nat) {β : Type} (f : BistSt → β)
    (hf : ∀ (b : BistSt) (x : Bool), f { b with causeFound := x } = f b) : f (s.lostCheck c before).bist = f s.bist := by
  unfold State.lostCheck
  extract_lets lost a
  have hrec : s.Only a [.chest] := only_each (.refl _ _) fun _ _ h => only_variantRecord h (by decide)
  generalize (decide (lost ≠ []) && (decide (2 ≤ (a.lostSlots c).length) || decide (2 ≤ a.unabsorbed))) = go
  cases go with
  | true => rw [State.when_true, retireCause_bist, hf, hrec.bist]
  | false => rw [State.when_false, hrec.bist]

theorem mapCluster_faults (s : State) (c : Nat) : (s.mapCluster c).bist.faults = s.bist.faults := by
  unfold State.mapCluster
  extract_lets bad good serve remap a b
  split
  · rfl
  · have hb : s.Only b [.cluss, .healx] := (updClus_only ..).in.trans (only_each (.refl _ _) fun _ _ h => only_updRole h (by decide))
    refine (lostCheck_bist b c [] (·.faults) fun _ _ => rfl).trans ?_
    exact congrArg BistSt.faults hb.bist

/-- The chip is mapped: the fault list is that of the current record. -/
theorem mapChip_faults (s : State) : s.mapChip.bist.faults = (s.healthNow.map (·.windows)).getD [] := by
  unfold State.mapChip
  extract_lets cur a b
  exact State.each_keeps (P := fun u => u.bist.faults = (s.healthNow.map (·.windows)).getD [])
    (fun u c hu => (mapCluster_faults u c).trans hu) _ rfl

/-- The map, after a POR. -/
def State.bu6Map (s : State) : State := s.when (!s.rstc.mapped) fun s => s.mapChip.modRstc fun r => { r with mapped := true }

/-- The rest of BU6: the ages, the record, the log and the tiles' modes. -/
def State.bu6Rest (s : State) : State :=
  let u := (s.loadAges.modBist fun b =>
    { b with
      recKind := (s.loadAges.healthNow.map fun h => if h.complete then 1 else 2).getD 0
      recGen := (s.loadAges.healthNow.map fun h => h.generation.setWidth 24).getD 0 }).modBrup fun b =>
    { b with healthValid := s.loadAges.rstc.healthOk }
  (((u.modFree (· + 1)).extendLog 4 0 (Config.openDigest u.free) []).releaseTiles)

theorem execStageBu6_eq (h : s.stageRuns 6 = true) (hr : s.brup.restart = false) (hy : s.flash.yieldOk = true) :
    exec (.stageBu6 none) s = .next ((s.bu6Map.bu6Rest).endWork s 6) := by
  change execStageBu6 none s = _
  unfold execStageBu6
  rw [if_neg (by rw [h]; decide)]
  dsimp only
  rw [if_neg (by rw [hr]; decide), if_neg (by rw [hy]; decide)]
  rfl

theorem bu6Rest_only (s : State) : s.Only s.bu6Rest [.brup, .healx, .bist, .sec, .tiles, .free] := by
  unfold State.bu6Rest
  exact only_releaseTiles (only_extendLog (only_modFree (only_modBrup (only_modBist ((loadAges_only ..).in) (by decide)) (by decide))
    (by decide)) (by decide)) (by decide)

theorem bu6Rest_reads (s : State) :
    s.bu6Rest.brup.stages = s.brup.stages ∧ s.bu6Rest.sec.events = s.sec.events + 1 ∧ s.bu6Rest.bist.faults = s.bist.faults := by
  have hl := loadAges_only s
  unfold State.bu6Rest
  extract_lets u
  rw [(releaseTiles_only ..).brup, (releaseTiles_only ..).sec, (releaseTiles_only ..).bist]
  refine ⟨?_, ?_, ?_⟩
  · exact (congrArg BrupSt.stages hl.brup :)
  · exact (congrArg (fun x : SecSt => x.events + 1) hl.sec :)
  · exact (congrArg BistSt.faults hl.bist :)

/-! ### BU7 -/

/-- The argument of BU7: 0 where no command gave one. -/
def State.bu7Arg (s : State) : State :=
  s.when (decide (s.brup.stages.getD 7 .notRun = .notRun)) fun s => s.modBrup fun b => { b with arg := 0 }

/-- The test of BU7. -/
def State.bu7Run (s : State) (f : TestFound) : Nat → State
  | 0 => s
  | 1 => s.quickTest f.failed
  | _ => (s.fullTest f.failed).when (decide (s.rstc.level ≠ 2)) fun s => (s.each f.windows (·.faultyWindow ·)).loseHbm

theorem bu7Run_full (s : State) (f : TestFound) :
    s.bu7Run f 2 = (s.fullTest f.failed).when (decide (s.rstc.level ≠ 2)) fun s => (s.each f.windows (·.faultyWindow ·)).loseHbm := rfl

theorem execStageBu7_eq (h : s.stageRuns 7 = true) (f : TestFound) :
    exec (.stageBu7 f) s = .next ((((s.bu7Arg.bu7Run f s.bu7Arg.bu7Test).modBrup fun b =>
      { b with test := BitVec.ofNat 2 s.bu7Arg.bu7Test }).applyHealth).endWork s 7) := by
  change execStageBu7 f s = _
  unfold execStageBu7
  rw [if_neg (by rw [h]; decide)]
  rfl

theorem bu7Arg_only (s : State) : s.Only s.bu7Arg [.brup] := only_when (.refl _ _) ((modBrup_only ..).in)

theorem bu7Arg_reads (s : State) : s.bu7Arg.brup.stages = s.brup.stages ∧ (s.bu7Arg.brup.arg = 0 ∨ s.bu7Arg.brup.arg = s.brup.arg) := by
  unfold State.bu7Arg
  cases decide (s.brup.stages.getD 7 .notRun = .notRun) with
  | true => exact ⟨rfl, .inl rfl⟩
  | false => exact ⟨rfl, .inr rfl⟩

/-- The record, marked as applied. -/
theorem applyHealth_rstc (s : State) : s.applyHealth.rstc = { s.rstc with applied := true } := by
  unfold State.applyHealth
  by_cases h : s.rstc.applied = true
  · rw [if_pos h, ← h]
  · rw [if_neg h]
    exact (State.when_read (fun u : State => u.rstc) ..).trans (ite_self _)

/-- The test of a tile by the quick program. -/
def State.quickTile (s : State) (failed : List (Pt × BitVec 4)) (pt : Nat) : State :=
  match failed.find? fun f => decide (f.1.val = pt) with
  | some f => (s.tileProgram pt 1 (some f.2)).fenceTile pt 0xB
  | none => s.tileProgram pt 1 none

theorem quickTest_eq (s : State) (failed : List (Pt × BitVec 4)) :
    s.quickTest failed = s.each ((List.range 2304).filter fun pt => decide ((s.role pt).role ≠ .fenced)) fun s pt =>
      s.quickTile failed pt := rfl

theorem quickTile_passes {failed : List (Pt × BitVec 4)} {pt : Nat} (h : (failed.find? fun f => decide (f.1.val = pt)) = none) :
    s.quickTile failed pt = s.tileProgram pt 1 none := by
  unfold State.quickTile
  rw [h]

theorem tileProgram_passed (s : State) (pt prog : Nat) :
    s.Only (s.tileProgram pt prog none) [.bist] ∧ (s.tileProgram pt prog none).bist.failed = s.bist.failed := by
  unfold State.tileProgram
  exact ⟨modBist_only .., rfl⟩

theorem quickTest_passes (s : State) : s.Only (s.quickTest []) [.bist] := by
  rw [quickTest_eq]
  refine only_each (.refl _ _) fun u pt h => h.trans ?_
  rw [quickTile_passes rfl]
  exact (tileProgram_passed u pt 1).1

/-- What the quick test of one bad tile comes to: the tile is fenced, and one failure is counted. -/
structure State.OneFailed (s t : State) (pt : Nat) : Prop where
  role : (t.role pt).role = .fenced
  mode : (t.tile pt).mode = .fenced
  failed : t.bist.failed = satAdd s.bist.failed 1

/-- What stands before the bad tile is tested. -/
structure State.NoneFailed (s t : State) (pt : Nat) : Prop where
  role : t.role pt = s.role pt
  mode : t.partMode (ptPart pt) = s.partMode (ptPart pt)
  failed : t.bist.failed = s.bist.failed

theorem quickTest_oneFailed {pt : Pt} {u : BitVec 4} (hf : (s.role pt).role ≠ .fenced) (hp : s.partMode (ptPart pt) ≠ .reset) :
    s.OneFailed (s.quickTest [(pt, u)]) pt := by
  have hother : ∀ (v : State) (x : Nat), x ≠ pt.val → v.quickTile [(pt, u)] x = v.tileProgram x 1 none := fun v x hx =>
    quickTile_passes (by rw [List.find?_cons_of_neg (by simpa using fun k => hx k.symm)]; rfl)
  have hself : ∀ v : State, v.quickTile [(pt, u)] pt = (v.tileProgram pt 1 (some u)).fenceTile pt 0xB := fun v => by
    unfold State.quickTile
    rw [List.find?_cons_of_pos (by simp)]
  have hmem : pt.val ∈ (List.range 2304).filter fun pt => decide ((s.role pt).role ≠ .fenced) :=
    List.mem_filter.mpr ⟨List.mem_range.mpr pt.isLt, decide_eq_true hf⟩
  have hnodup : ((List.range 2304).filter fun pt => decide ((s.role pt).role ≠ .fenced)).Nodup := List.nodup_range.filter _
  obtain ⟨before, after, hsplit⟩ := List.append_of_mem hmem
  rw [hsplit, List.nodup_append, List.nodup_cons] at hnodup
  obtain ⟨-, ⟨hafter, -⟩, hdisj⟩ := hnodup
  have hbefore : ∀ x ∈ before, x ≠ pt.val := fun x hx => hdisj x hx pt.val List.mem_cons_self
  have hnone : ∀ (xs : List Nat) (v : State), (∀ x ∈ xs, x ≠ pt.val) → s.NoneFailed v pt →
      s.NoneFailed (v.each xs fun s pt' => s.quickTile [(pt, u)] pt') pt := by
    intro xs
    induction xs with
    | nil => exact fun v _ hv => hv
    | cons x xs ih =>
      intro v hx hv
      obtain ⟨honly, hfailed⟩ := tileProgram_passed v x 1
      refine ih _ (fun y hy => hx y (List.mem_cons_of_mem _ hy)) ?_
      dsimp only
      rw [hother v x (hx x List.mem_cons_self)]
      exact ⟨(role_congr honly.healx _).trans hv.role, (partMode_congr honly.healx _).trans hv.mode, hfailed.trans hv.failed⟩
  have hone : ∀ (xs : List Nat) (v : State), (∀ x ∈ xs, x ≠ pt.val) → s.OneFailed v pt →
      s.OneFailed (v.each xs fun s pt' => s.quickTile [(pt, u)] pt') pt := by
    intro xs
    induction xs with
    | nil => exact fun v _ hv => hv
    | cons x xs ih =>
      intro v hx hv
      obtain ⟨honly, hfailed⟩ := tileProgram_passed v x 1
      refine ih _ (fun y hy => hx y (List.mem_cons_of_mem _ hy)) ?_
      dsimp only
      rw [hother v x (hx x List.mem_cons_self)]
      exact ⟨(congrArg RoleSt.role (role_congr honly.healx _)).trans hv.role, (congrArg TileSt.mode (tile_congr honly.tiles _)).trans hv.mode,
        hfailed.trans hv.failed⟩
  have hbad : ∀ v : State, s.NoneFailed v pt → s.OneFailed (v.quickTile [(pt, u)] pt) pt := by
    intro v hv
    have honly := tileProgram_only v pt 1 (some u)
    have hmode : v.partMode (ptPart pt) ≠ .reset := by rw [hv.mode]; exact hp
    obtain ⟨hrole, hfailed, -⟩ := failedTest_reads hmode 1 u 0xB
    rw [hself]
    refine ⟨hrole, (fenceTile_tile ?_ ?_ _).1, hfailed.trans (by rw [hv.failed])⟩
    · rw [role_congr honly.healx, hv.role]; exact hf
    · rw [partMode_congr honly.healx]; exact hmode
  rw [quickTest_eq, hsplit]
  have hfold : s.each (before ++ pt.val :: after) (fun s pt' => s.quickTile [(pt, u)] pt') =
      (((s.each before fun s pt' => s.quickTile [(pt, u)] pt').quickTile [(pt, u)] pt).each after fun s pt' => s.quickTile [(pt, u)] pt') :=
    List.foldl_append ..
  rw [hfold]
  exact hone after _ (fun x hx k => hafter (k ▸ hx)) (hbad _ (hnone before s hbefore ⟨rfl, rfl, rfl⟩))

theorem fullTest_passes (s : State) : s.Only (s.fullTest []) [.bist, .healx] := by
  rw [fullTest_eq]
  refine only_each (.refl _ _) fun u pt h => h.trans ?_
  show u.Only ((u.tileProgram pt 3 none).updRole pt _) _
  exact only_updRole ((tileProgram_passed u pt 3).1.in) (by decide)

theorem bu7Test_quick {s : State} (ha : s.brup.arg = 0) (hl : s.rstc.level = 1) : s.bu7Test = 1 := by
  unfold State.bu7Test
  rw [ha, hl]
  rfl

theorem bu7Test_full {s : State} (ha : s.brup.arg ≠ 1) (hl : s.rstc.level = 0) (hh : s.rstc.healthOk = false) : s.bu7Test = 2 := by
  unfold State.bu7Test
  rw [if_neg ha, hl, hh]
  rfl

theorem bu7Test_none {s : State} (ha : s.brup.arg = 2) (hl : s.rstc.level = 2) : s.bu7Test = 0 := by
  unfold State.bu7Test
  rw [ha, hl]
  rfl

/-- A stage 7 whose test found no cause for retirement passes. -/
theorem stageBu7_passes (h : s.stageRuns 7 = true) {f : TestFound} {k : Nat} (hk : s.bu7Arg.bu7Test = k) {cs : List Comp}
    (honly : s.bu7Arg.Only (s.bu7Arg.bu7Run f k) cs) (hb : Comp.brup ∉ cs := by decide) (hr : Comp.relx ∉ cs := by decide)
    (hrs : Comp.rstc ∉ cs := by decide) :
    ∃ t, exec (.stageBu7 f) s = .next t ∧ (s.bu7Arg.bu7Run f k).Only t [.brup, .flash, .rstc] ∧
      t.brup.stages = s.brup.stages.set 7 .passed ∧ t.brup.test = BitVec.ofNat 2 k ∧ t.rstc = { s.rstc with applied := true } := by
  have hexec := execStageBu7_eq h f
  rw [hk] at hexec
  have harg := bu7Arg_only s
  have happ := applyHealth_only ((s.bu7Arg.bu7Run f k).modBrup fun b => { b with test := BitVec.ofNat 2 k })
  have hpass := endWork_passes (s := ((s.bu7Arg.bu7Run f k).modBrup fun b => { b with test := BitVec.ofNat 2 k }).applyHealth) (old := s)
    (congrArg RelAux.retState (happ.relx.trans ((honly.1 .relx hr).trans harg.relx))) 7
  rw [hpass] at hexec
  have hbrup : ((s.bu7Arg.bu7Run f k).modBrup fun b => { b with test := BitVec.ofNat 2 k }).applyHealth.brup =
      { (s.bu7Arg.bu7Run f k).brup with test := BitVec.ofNat 2 k } := happ.brup
  refine ⟨_, hexec, only_passStage (only_applyHealth ((modBrup_only ..).in) (by decide)) (by decide), ?_, ?_, ?_⟩
  · refine (congrArg (fun b : BrupSt => b.stages.set 7 .passed) hbrup).trans ?_
    exact (congrArg (fun b : BrupSt => b.stages.set 7 .passed) (honly.1 .brup hb)).trans
      (congrArg (fun l : List Stage => l.set 7 .passed) (bu7Arg_reads s).1)
  · exact (congrArg BrupSt.test hbrup).trans rfl
  · rw [(passStage_only ..).rstc, applyHealth_rstc]
    exact congrArg (fun r : RstcSt => { r with applied := true }) ((honly.1 .rstc hrs).trans harg.rstc)

/-- BU6 on a chip that is mapped already. -/
theorem stageBu6_again (h : s.stageRuns 6 = true) (hr : s.brup.restart = false) (hy : s.flash.yieldOk = true) (hm : s.rstc.mapped = true) :
    ∃ t, exec (.stageBu6 none) s = .next t ∧ s.Only t [.brup, .healx, .bist, .sec, .tiles, .free] ∧
      t.brup.stages = s.brup.stages.set 6 .passed ∧ t.sec.events = s.sec.events + 1 := by
  have hmap : s.bu6Map = s := by unfold State.bu6Map; rw [hm]; rfl
  have honly := bu6Rest_only s
  obtain ⟨hst, hev, -⟩ := bu6Rest_reads s
  have hexec := execStageBu6_eq h hr hy
  rw [hmap, endWork_passes (congrArg RelAux.retState honly.relx)] at hexec
  refine ⟨_, hexec, only_passStage (honly.in) (by decide), ?_, hev⟩
  exact congrArg (fun l : List Stage => l.set 6 .passed) hst

/-- The first BU6 after a POR. -/
theorem stageBu6_first (h : s.stageRuns 6 = true) (hr : s.brup.restart = false) (hy : s.flash.yieldOk = true) (hm : s.rstc.mapped = false) :
    ∃ t, exec (.stageBu6 none) s = .next t ∧
      s.Only t [.flash, .top, .rstc, .brup, .sec, .bist, .healx, .relx, .chest, .cluss, .tiles, .out, .free] ∧
      t.rstc.mapped = true ∧ t.bist.faults = (s.healthNow.map (·.windows)).getD [] ∧
      (t.brup.stages = s.brup.stages.set 6 .passed ∨ t.brup.stages = s.brup.stages.set 6 .failed) := by
  have hmap : s.bu6Map = s.mapChip.modRstc fun r => { r with mapped := true } := by unfold State.bu6Map; rw [hm]; rfl
  have hchip := mapChip_only s
  have hrest := bu6Rest_only s.bu6Map
  obtain ⟨hst, -, hfaults⟩ := bu6Rest_reads s.bu6Map
  obtain ⟨hend, hstages⟩ := endWork_cases s.bu6Map.bu6Rest s 6
  have hstages0 : s.bu6Map.bu6Rest.brup.stages = s.brup.stages := hst.trans (by rw [hmap]; exact congrArg BrupSt.stages hchip.brup)
  rw [hstages0] at hstages
  have honly : s.Only s.bu6Map [.flash, .top, .rstc, .bist, .healx, .relx, .chest, .cluss, .out] := by
    rw [hmap]; exact only_modRstc (hchip.in) (by decide)
  refine ⟨_, execStageBu6_eq h hr hy, ((honly.in).trans (hrest.in)).trans (hend.in), ?_, ?_, hstages⟩
  · rw [hend.rstc, hrest.rstc, hmap]
    rfl
  · rw [hend.bist, hfaults, hmap]
    exact mapChip_faults s

/-- BU6 after a core reset: the parked partitions come back. -/
def State.bu6Back (s : State) : State :=
  let back := (List.range 16).filter fun p => s.parked p || bit s.gov.parking p
  (((((s.modPwr fun p =>
    { p with
      domains := p.domains ||| 0xFFFF, parked := 0, waking := 0
      guards := p.guards.filter fun g => !(back.contains g.1 && s.parked g.1) }).modGov fun g => { g with parking := 0 }).rebudget s.budget).each
        back (·.hbmOn ·)).releaseTiles)

theorem stageBu6_restart (h : s.stageRuns 6 = true) (hr : s.brup.restart = true) :
    ∃ t, exec (.stageBu6 none) s = .next t ∧ s.Only t [.top, .brup, .pwr, .gov, .fret, .chest, .parts, .tiles, .out] ∧
      t.brup.stages = s.brup.stages.set 6 .passed ∧ t.pwr.parked = 0 ∧ t.pwr.waking = 0 := by
  have hexec : exec (.stageBu6 none) s = .next (s.bu6Back.passStage 6) := by
    change execStageBu6 none s = _
    unfold execStageBu6
    rw [if_neg (by rw [h]; decide)]
    dsimp only
    rw [if_pos hr]
    rfl
  unfold State.bu6Back at hexec
  extract_lets back at hexec
  generalize hv : (s.modPwr fun p =>
    { p with
      domains := p.domains ||| 0xFFFF, parked := 0, waking := 0
      guards := p.guards.filter fun g => !(back.contains g.1 && s.parked g.1) }).modGov (fun g => { g with parking := 0 }) = v at hexec
  have honly : s.Only v [.pwr, .gov] := by rw [← hv]; exact only_modGov ((modPwr_only ..).in) (by decide)
  have hpwr : v.pwr.parked = 0 ∧ v.pwr.waking = 0 := by rw [← hv]; exact ⟨rfl, rfl⟩
  have hrel : (v.rebudget s.budget).Only (((v.rebudget s.budget).each back (·.hbmOn ·)).releaseTiles) [.parts, .tiles] :=
    only_releaseTiles (only_each (.refl _ _) fun _ _ h => only_hbmOn h (by decide)) (by decide)
  have hbud := rebudget_only v s.budget
  refine ⟨_, hexec, only_passStage (((honly.in).trans (hbud.in)).trans (hrel.in)) (by decide), ?_, ?_, ?_⟩
  · exact congrArg (fun b : BrupSt => b.stages.set 6 .passed) (hrel.brup.trans (hbud.brup.trans honly.brup))
  · exact (congrArg PwrSt.parked hrel.pwr).trans ((rebudget_field (·.parked) (fun _ _ _ _ => rfl) v s.budget).trans hpwr.1)
  · exact (congrArg PwrSt.waking hrel.pwr).trans ((rebudget_field (·.waking) (fun _ _ _ _ => rfl) v s.budget).trans hpwr.2)

/-- BU7 after a system reset: the quick test. -/
theorem stageBu7_quick (h : s.stageRuns 7 = true) (ha : s.brup.arg = 0) (hl : s.rstc.level = 1) :
    ∃ t, exec (.stageBu7 ⟨[], []⟩) s = .next t ∧ s.Only t [.flash, .rstc, .brup, .bist] ∧
      t.brup.stages = s.brup.stages.set 7 .passed ∧ t.brup.test = 1 ∧ t.rstc = { s.rstc with applied := true } := by
  have harg := bu7Arg_only s
  have ha' : s.bu7Arg.brup.arg = 0 := (bu7Arg_reads s).2.elim id fun k => k.trans ha
  have hl' : s.bu7Arg.rstc.level = 1 := (congrArg RstcSt.level harg.rstc).trans hl
  have hquick : s.bu7Arg.Only (s.bu7Arg.bu7Run ⟨[], []⟩ 1) [.bist] := quickTest_passes _
  obtain ⟨t, ht, honly, hst, htest, hrstc⟩ := stageBu7_passes h (bu7Test_quick ha' hl') hquick
  exact ⟨t, ht, ((harg.in).trans (hquick.in)).trans (honly.in), hst, htest, hrstc⟩

/-- One tile that fails it is fenced. -/
theorem stageBu7_oneFailed {pt : Pt} {u : BitVec 4} (h : s.stageRuns 7 = true) (ha : s.brup.arg = 0) (hl : s.rstc.level = 1)
    (hf : (s.role pt).role ≠ .fenced) (hp : s.partMode (ptPart pt) ≠ .reset) :
    ∃ t, exec (.stageBu7 ⟨[(pt, u)], []⟩) s = .next t ∧
      s.Only t [.flash, .top, .rstc, .brup, .bist, .heal, .healx, .relx, .chest, .tiles, .out] ∧
      (t.role pt).role = .fenced ∧ (t.tile pt).mode = .fenced ∧ t.bist.failed = satAdd s.bist.failed 1 := by
  have harg := bu7Arg_only s
  have ha' : s.bu7Arg.brup.arg = 0 := (bu7Arg_reads s).2.elim id fun k => k.trans ha
  have hl' : s.bu7Arg.rstc.level = 1 := (congrArg RstcSt.level harg.rstc).trans hl
  have hone := quickTest_oneFailed (s := s.bu7Arg) (pt := pt) (u := u) (by rw [role_congr harg.healx]; exact hf)
    (by rw [partMode_congr harg.healx]; exact hp)
  have hexec := execStageBu7_eq h ⟨[(pt, u)], []⟩
  rw [bu7Test_quick ha' hl'] at hexec
  have hafter : (s.bu7Arg.quickTest [(pt, u)]).Only ((((s.bu7Arg.quickTest [(pt, u)]).modBrup fun b =>
      { b with test := BitVec.ofNat 2 1 }).applyHealth).endWork s 7) [.brup, .flash, .rstc, .chest] :=
    (only_applyHealth ((modBrup_only ..).in) (by decide)).trans ((endWork_cases ..).1.in)
  refine ⟨_, hexec, ((harg.in).trans ((quickTest_only ..).in)).trans (hafter.in), ?_, ?_, ?_⟩
  · exact (congrArg RoleSt.role (role_congr hafter.healx pt)).trans hone.role
  · exact (congrArg TileSt.mode (tile_congr hafter.tiles pt)).trans hone.mode
  · exact (congrArg BistSt.failed hafter.bist).trans (hone.failed.trans (by rw [harg.bist]))

theorem loseHbm_hbm (s : State) : s.loseHbm.hbm = { s.hbm with mem := [], bad := [], epoch := s.hbm.epoch + 1 } := rfl

/-- BU7 after a POR with no valid record: the full test. -/
theorem stageBu7_full (h : s.stageRuns 7 = true) (ha : s.brup.arg ≠ 1) (hl : s.rstc.level = 0) (hh : s.rstc.healthOk = false) :
    ∃ t, exec (.stageBu7 ⟨[], []⟩) s = .next t ∧ s.Only t [.flash, .rstc, .brup, .bist, .healx, .hbm] ∧
      t.brup.stages = s.brup.stages.set 7 .passed ∧ t.brup.test = 2 ∧ t.hbm.mem = [] ∧ t.hbm.epoch = s.hbm.epoch + 1 ∧
      ∀ pt < 2304, (s.role pt).role ≠ .fenced → (t.role pt).age = some 0 := by
  have harg := bu7Arg_only s
  have ha' : s.bu7Arg.brup.arg ≠ 1 := (bu7Arg_reads s).2.elim (fun k => by rw [k]; decide) fun k => by rw [k]; exact ha
  have hl' : s.bu7Arg.rstc.level = 0 := (congrArg RstcSt.level harg.rstc).trans hl
  have hh' : s.bu7Arg.rstc.healthOk = false := (congrArg RstcSt.healthOk harg.rstc).trans hh
  have hrun : s.bu7Arg.bu7Run ⟨[], []⟩ 2 = (s.bu7Arg.fullTest []).loseHbm := by
    rw [bu7Run_full, hl', show decide ((0 : BitVec 2) ≠ 2) = true from rfl, State.when_true, State.each_nil]
  have hfull := fullTest_passes s.bu7Arg
  have hloses : s.bu7Arg.Only (s.bu7Arg.bu7Run ⟨[], []⟩ 2) [.bist, .healx, .hbm] := by
    rw [hrun]
    exact only_loseHbm (hfull.in) (by decide)
  obtain ⟨t, ht, honly, hst, htest, -⟩ := stageBu7_passes h (bu7Test_full ha' hl' hh') hloses
  have hhbm : t.hbm = (s.bu7Arg.fullTest []).loseHbm.hbm := honly.hbm.trans (congrArg State.hbm hrun)
  refine ⟨t, ht, ((harg.in).trans (hloses.in)).trans (honly.in), hst, htest, ?_, ?_, fun pt hpt hf => ?_⟩
  · rw [hhbm, loseHbm_hbm]
  · rw [hhbm, loseHbm_hbm, hfull.hbm, harg.hbm]
  · have hhealx : t.healx = (s.bu7Arg.fullTest []).healx :=
      (honly.healx.trans (congrArg State.healx hrun)).trans (loseHbm_only ..).healx
    rw [role_congr hhealx]
    exact fullTest_ages hpt (by rw [role_congr harg.healx]; exact hf)

/-- BU7 of a core reset whose command asks for no test. -/
theorem stageBu7_untested (h : s.stageRuns 7 = true) (ha : s.brup.arg = 2) (hl : s.rstc.level = 2)
    (hn : s.brup.stages.getD 7 .notRun ≠ .notRun) :
    ∃ t, exec (.stageBu7 ⟨[], []⟩) s = .next t ∧ s.Only t [.flash, .rstc, .brup] ∧
      t.brup.stages = s.brup.stages.set 7 .passed ∧ t.brup.test = 0 := by
  have harg : s.bu7Arg = s := by
    unfold State.bu7Arg
    rw [decide_eq_false hn, State.when_false]
  have hsame : s.bu7Arg.Only (s.bu7Arg.bu7Run ⟨[], []⟩ 0) [] := .refl _ _
  obtain ⟨t, ht, honly, hst, htest, -⟩ := stageBu7_passes h (by rw [harg]; exact bu7Test_none ha hl) hsame
  refine ⟨t, ht, ?_, hst, htest⟩
  rw [harg] at honly
  exact honly.in

/-- The stages by their numbers. -/
def stageCommands (a b : Bool) (ws : List (BitVec 16)) (op : Option Part) (f : TestFound) : List (Nat × Instr) :=
  [(0, .stageBu0 a), (1, .stageBu1 a), (2, .stageBu2 a), (3, .stageBu3 a), (4, .stageBu4 a b), (5, .stageBu5 ws), (6, .stageBu6 op),
    (7, .stageBu7 f), (8, .stageBu8), (9, .stageBu9 a)]

theorem exec_stage_idle {a b : Bool} {ws : List (BitVec 16)} {op : Option Part} {f : TestFound} {x : Nat × Instr}
    (hx : x ∈ stageCommands a b ws op f) (h : s.stageRuns x.1 = false) : exec x.2 s = .next s := by
  simp only [stageCommands, List.mem_cons, List.not_mem_nil, or_false] at hx
  rcases hx with rfl | rfl | rfl | rfl | rfl | rfl | rfl | rfl | rfl | rfl
  · exact if_pos h
  · exact if_pos h
  · exact if_pos h
  · exact if_pos h
  · exact if_pos h
  · exact if_pos h
  · exact if_pos h
  · exact if_pos h
  · exact if_pos (.inl h)
  · exact if_pos (.inl h)

/-- Settles O35: what each stage passes with, what it fails with, and that one that does not run changes nothing. -/
theorem bringUpStagesPassOrFail : Obligations.BringUpStagesPassOrFail := by
  unfold Obligations.BringUpStagesPassOrFail
  refine ⟨fun s h => stageBu0_passes h, fun s h => ?_, fun s ok h hbad => ?_, fun s ok h hl h1 h2 => ?_,
    fun s ok h hl h1 h2 => stageBu1_checks h hl h1 h2 ok, fun s h => stageBu2_passes h, fun s h => ?_, fun s h => ?_,
    fun s h hr hw hready => ⟨_, stageBu4_spine h, causeStage_reads hr hw hready ..⟩,
    fun s h => stageBu3_passes h, fun s h => stageBu4_passes h, fun s h hr => stageBu5_passes h hr, fun s p h => ?_, fun s h hr hy => ?_,
    fun s h hr hy hm => stageBu6_again h hr hy hm, fun s h ha hl => stageBu7_quick h ha hl,
    fun s pt u h ha hl hf hp => stageBu7_oneFailed h ha hl hf hp, fun s h ha hl hh => stageBu7_full h ha hl hh,
    fun s h ha hl hn => stageBu7_untested h ha hl hn, fun s h hr hy hm => stageBu6_first h hr hy hm, fun s h hr => stageBu6_restart h hr,
    fun s h hr hw hready => ⟨_, stageBu4_bridge h, causeStage_reads hr hw hready ..⟩,
    fun s trained p h hrs hbad hr hw hready => stageBu5_untrained h hrs hbad hr hw hready, fun s trained h hr => stageBu5_restart h hr trained,
    fun s x a b ws op fs es hx h => exec_stage_idle (f := ⟨fs, es⟩) hx h, fun s h hall => stageBu8_passes h hall, fun s h hr hm => ?_,
    fun s h hr hm hroot => ?_, fun s hbad => stageBu8_waits hbad, fun s h hr => ⟨if_pos (.inr ⟨hr, rfl⟩), ?_⟩⟩
  · obtain ⟨t, ht, honly, hst, hfs, hcode, -⟩ := failed_next (stageBu0_fails h)
    exact ⟨t, ht, honly, hst, hfs, hcode⟩
  · obtain ⟨t, ht, honly, hst, hfs, hcode, -⟩ := failed_next (stageBu1_unverified h hbad ok)
    exact ⟨t, ht, honly, hst, hfs, hcode⟩
  · obtain ⟨slot, hslot⟩ := Option.isSome_iff_exists.mp h1
    have hnone : (s.verifyImage 2 s.flash.config).isNone = true :=
      Option.isNone_iff_eq_none.mpr (Option.not_isSome_iff_eq_none.mp (by rw [h2]; decide))
    obtain ⟨t, ht, honly, hst, -, hcode, -⟩ := failed_next ((execStageBu1_eq h hl hslot ok).trans (if_pos hnone))
    exact ⟨t, ht, honly, hst, hcode⟩
  · obtain ⟨t, ht, honly, hst, -, hcode, -⟩ := failed_next (stageBu2_fails h)
    exact ⟨t, ht, honly, hst, hcode⟩
  · obtain ⟨t, ht, honly, hst, -, hcode, -⟩ := failed_next (stageBu3_fails h)
    exact ⟨t, ht, honly, hst, hcode⟩
  · obtain ⟨t, ht, honly, hst, -, hcode, hdetail⟩ := failed_next (stageBu6_badPart h p)
    exact ⟨t, ht, honly, hst, hcode, hdetail⟩
  · obtain ⟨t, ht, honly, hst, -, hcode, -⟩ := failed_next (stageBu6_badMap h hr hy)
    exact ⟨t, ht, honly, hst, hcode⟩
  · obtain ⟨t, ht, honly, hst, hrdy, hever, -⟩ := execStageBu9_passes h fun _ => hm
    exact ⟨t, ht, honly, hst, hrdy, hever⟩
  · obtain ⟨t, ht, honly, hst, -, hcode, -⟩ := failed_next (stageBu9_unaligned h hr hm hroot)
    exact ⟨t, ht, honly, hst, hcode⟩
  · obtain ⟨t, ht, honly, hst, hrdy, -, hrst⟩ := execStageBu9_passes h fun k => Bool.noConfusion (k.symm.trans hr)
    exact ⟨t, ht, honly, hst, hrdy, hrst⟩

end Sys2Proof.Machine
end

section
/-!
PROOFS. Fabric ports and the NCN (08 R446 to R455, R466 to R469): O23.
-/

set_option Elab.async false

namespace Sys2Proof.Machine

variable {s : State}

/-! ### What was sent stays sent -/

/-- Everything that was sent before is still in the list of what was sent. -/
def State.Sends (s t : State) : Prop := s.out <:+ t.out

theorem State.Sends.refl (s : State) : s.Sends s := List.suffix_refl _

theorem State.Sends.trans {s t u : State} (h : s.Sends t) (k : t.Sends u) : s.Sends u := List.IsSuffix.trans h k

theorem State.Sends.of_out {s t : State} (h : t.out = s.out) : s.Sends t := by unfold State.Sends; rw [h]

theorem emit_sends (s : State) (o : Out) : s.Sends (s.emit o) := List.suffix_cons _ _

theorem State.Only.sends {s t : State} {cs : List Comp} (h : s.Only t cs) (hc : Comp.out ∉ cs := by decide) : s.Sends t :=
  .of_out (h.1 .out hc)

theorem when_sends {c : Bool} {f : State → State} (h : s.Sends (f s)) : s.Sends (s.when c f) := by
  cases c with
  | true => exact h
  | false => exact .refl s

theorem State.Sends.each {α : Type} {f : State → α → State} (h : ∀ u x, State.Sends u (f u x)) (xs : List α) (s : State) :
    s.Sends (s.each xs f) :=
  State.each_keeps (P := fun u => s.Sends u) (fun u x hu => hu.trans (h u x)) xs (.refl s)

theorem attnOn_sends (s : State) (p : HostPort) (a : Attn) : s.Sends (s.attnOn p a) := by
  unfold State.attnOn
  extract_lets fresh u
  have hu : s.Sends u := (modTop_only s _).sends
  exact hu.trans (when_sends ((emit_sends ..).trans (when_sends ((modTop_only ..).sends))))

theorem attn_sends (s : State) (a : Attn) : s.Sends (s.attn a) := (attnOn_sends s .a a).trans (attnOn_sends _ .b a)

theorem cutUncrossed_sends (s : State) (w : Worm) : s.Sends (s.cutUncrossed w) := by
  unfold State.cutUncrossed
  extract_lets u
  have hu : s.Sends u := when_sends (emit_sends ..)
  split
  · exact hu.trans (detect_only ..).sends
  · exact hu

theorem cutPort_sends (s : State) (p : Nat) : s.Sends (s.cutPort p) := by
  unfold State.cutPort
  extract_lets r out cut u
  refine State.Sends.trans (t := u) (.each (fun v x => ?_) _ s) (updRouter_only ..).sends
  have hv : v.Sends (v.countCut p) := (countCut_only ..).sends
  dsimp only
  split
  · exact hv.trans (cutUncrossed_sends ..)
  split
  · exact hv.trans (detect_only ..).sends
  · exact hv

/-! ### A port that goes down -/

/-- A worm cut at a port is counted there; what the port is stays. -/
structure FabSt.SamePort (f g : FabSt) : Prop where
  state : g.state = f.state
  cause : g.cause = f.cause
  lanes : g.lanes = f.lanes
  peerValid : g.peerValid = f.peerValid
  peerSerial : g.peerSerial = f.peerSerial

theorem FabSt.SamePort.refl (f : FabSt) : f.SamePort f := ⟨rfl, rfl, rfl, rfl, rfl⟩

theorem FabSt.SamePort.trans {f g h : FabSt} (a : f.SamePort g) (b : g.SamePort h) : f.SamePort h :=
  ⟨b.state.trans a.state, b.cause.trans a.cause, b.lanes.trans a.lanes, b.peerValid.trans a.peerValid, b.peerSerial.trans a.peerSerial⟩

theorem countCut_port (s : State) (p q : Nat) : (s.fab q).SamePort ((s.countCut p).fab q) := by
  unfold State.countCut
  rw [updFab_fab]
  split
  · next h => subst h; exact ⟨rfl, rfl, rfl, rfl, rfl⟩
  · exact .refl _

theorem cutArriving_port (s : State) (p q : Nat) : (s.fab q).SamePort ((s.cutArriving p).fab q) := by
  unfold State.cutArriving
  extract_lets part a
  refine State.each_keeps (P := fun u : State => (s.fab q).SamePort (u.fab q)) (fun u h hu => ?_) part (.refl _)
  rw [fab_congr (detect_only ..).fabs]
  exact hu.trans (countCut_port u p q)

theorem cutPort_port (s : State) (p q : Nat) : (s.fab q).SamePort ((s.cutPort p).fab q) := by
  unfold State.cutPort
  extract_lets r out cut a
  rw [fab_congr (updRouter_only ..).fabs]
  refine State.each_keeps (P := fun u : State => (s.fab q).SamePort (u.fab q)) (fun u x hu => ?_) _ (.refl _)
  have hu' := hu.trans (countCut_port u p q)
  dsimp only
  split
  · rw [fab_congr (cutUncrossed_only ..).fabs]; exact hu'
  split
  · rw [fab_congr (detect_only ..).fabs]; exact hu'
  · exact hu'

theorem flightDown_reg (s : State) (p : Nat) : ((s.flightDown p).flightReg p).valid = false := by
  unfold State.flightDown
  extract_lets was
  have h : ((s.updFlight p fun g => { g with valid := false, measuring := false }).flightReg p).valid = false := by
    rw [updFlight_flightReg, if_pos rfl]
  cases was with
  | false => exact h
  | true =>
    rw [State.when_true, endMeasure_flightReg]
    split
    · exact h
    · exact h

/-- The identity of a port that is DOWN. -/
def FabSt.fallen (f : FabSt) (cause : BitVec 4) (now : Nat) : FabSt :=
  { f with
    state := .down, cause := cause, down := true, downAt := now, peerValid := false, peerSerial := 0, peerPort := 0, peerGrade := 0
    peerLetter := 0, peerDigit := 0, heartbeat := false }

/-- What the fall of a port leaves of it, of its flight, and of what was sent. -/
theorem fabDown_reads {p : Nat} (h : (s.fab p).state ≠ .down) (cause : BitVec 4) :
    ((s.fab p).fallen cause s.ticks).SamePort ((s.fabDown p cause).fab p) ∧ ((s.fabDown p cause).flightReg p).valid = false ∧
      s.Sends (s.fabDown p cause) := by
  unfold State.fabDown
  rw [if_neg h]
  extract_lets a b c d
  have hd : b.Only d [.top, .chest, .out] := only_recordAt ((attn_only ..).in) (by decide)
  have hends : ∀ go : Bool, d.Only (d.when go fun s => s.modHealx fun h => { h with twin := .none, twinFail := true, attachRegions := [] }) [.healx] :=
    fun go => only_when (.refl _ _) ((modHealx_only ..).in)
  have ha : a.fab p = (s.fab p).fallen cause s.ticks := updFab_fab_self ..
  refine ⟨?_, ?_, ?_⟩
  · rw [fab_congr (hends _).fabs, fab_congr hd.fabs, fab_congr (flightDown_only ..).fabs, ← ha]
    exact (cutArriving_port a p p).trans (cutPort_port _ p p)
  · have hreg : ∀ u v : State, v.fret = u.fret → v.flightReg p = u.flightReg p := fun u v h => by unfold State.flightReg; rw [h]
    rw [hreg _ _ (hends _).fret, hreg _ _ hd.fret]
    exact flightDown_reg _ p
  · have ha : s.Sends a := (updFab_only ..).sends
    have hb : a.Sends b := ((cutArriving_only a p).sends.trans (cutPort_sends _ p)).trans (flightDown_only _ p).sends
    have hcd : b.Sends d := (attn_sends b .fabric).trans (recordAt_only ..).sends
    exact ((ha.trans hb).trans hcd).trans (hends _).sends

/-- What a port that was not DOWN shows after its fall. -/
theorem fabDown_port {p : Nat} (h : (s.fab p).state ≠ .down) (cause : BitVec 4) :
    ((s.fabDown p cause).fab p).state = .down ∧ ((s.fabDown p cause).fab p).cause = cause ∧
      ((s.fabDown p cause).fab p).lanes = (s.fab p).lanes ∧ ((s.fabDown p cause).fab p).peerValid = false ∧
      ((s.fabDown p cause).fab p).peerSerial = 0 := by
  obtain ⟨⟨hstate, hcause, hlanes, hvalid, hserial⟩, _, _⟩ := fabDown_reads h cause
  exact ⟨hstate, hcause, hlanes, hvalid, hserial⟩

theorem fabDown_down {p : Nat} (h : (s.fab p).state = .down) (cause : BitVec 4) : s.fabDown p cause = s := by
  unfold State.fabDown
  exact if_pos h

/-! ### Training, measurement and identity -/

theorem exec_fabTrainFail {p : FabPort} (h : (s.fab p).state = .train) (lanes : BitVec 8) :
    ∃ t, exec (.fabTrainFail p lanes) s = .next t ∧ s.Only t [.top, .fret, .healx, .chest, .spn, .fabs, .tasks, .held, .out] ∧
      (t.fab p).state = .down ∧ (t.fab p).cause = 2 ∧ (t.fab p).lanes = lanes := by
  have hf : (s.updFab p fun f => { f with lanes := lanes }).fab p = { s.fab p with lanes := lanes } := updFab_fab_self ..
  obtain ⟨hstate, hcause, hlanes, _⟩ :=
    fabDown_port (s := s.updFab p fun f => { f with lanes := lanes }) (p := p) (by rw [hf]; exact fun k => nomatch h.symm.trans k) 2
  refine ⟨_, if_pos h, only_fabDown ((updFab_only ..).in) (by decide), hstate, hcause, hlanes.trans ?_⟩
  rw [hf]

theorem exec_fabMeasureDone_within {p : FabPort} {xs : List Exchange} (h : (s.fab p).state = .measure) (hl : xs.length = 256)
    (hw : flightOf xs * 1000 ≤ 640 * s.mhz (portRing p)) :
    ∃ t, exec (.fabMeasureDone p xs) s = .next t ∧ s.Only t [.fret, .fabs, .out] ∧ (t.fab p).state = .discover ∧
      (t.flightReg p).valid = true ∧ (t.flightReg p).flight = satOfNat 16 (flightOf xs) ∧
      t.out = .identity p (s.myIdentity p) :: s.out := by
  have hexec : exec (.fabMeasureDone p xs) s = .next (((s.loadFlight p xs).updFab p fun f => { f with state := .discover }).emit
      (.identity p (((s.loadFlight p xs).updFab p fun f => { f with state := .discover }).myIdentity p))) := by
    change execFabMeasureDone p xs s = _
    unfold execFabMeasureDone
    rw [if_neg (not_or.2 ⟨not_not_intro h, not_not_intro hl⟩), if_neg (Nat.not_lt.2 hw)]
  have hfab : ((s.loadFlight p xs).updFab p fun f => { f with state := .discover }).fab p =
      { (s.loadFlight p xs).fab p with state := .discover } := updFab_fab_self ..
  have hreg : (s.loadFlight p xs).flightReg p =
      { s.flightReg p with measuring := false, valid := true, allow := satOfNat 11 (ceilDiv (flightOf xs) 32 + 2),
                           flight := satOfNat 16 (flightOf xs) } := by
    unfold State.loadFlight
    rw [updFlight_flightReg, if_pos rfl]
  refine ⟨_, hexec, only_emit (only_updFab ((updFlight_only ..).in) (by decide)) (by decide), congrArg FabSt.state hfab,
    ?_, ?_, rfl⟩
  · exact (congrArg FlightReg.valid hreg :)
  · exact (congrArg FlightReg.flight hreg :)

theorem exec_fabMeasureDone_beyond {p : FabPort} {xs : List Exchange} (h : (s.fab p).state = .measure) (hl : xs.length = 256)
    (hw : 640 * s.mhz (portRing p) < flightOf xs * 1000) :
    exec (.fabMeasureDone p xs) s = .next (s.fabDown p 6) := by
  change execFabMeasureDone p xs s = _
  unfold execFabMeasureDone
  rw [if_neg (not_or.2 ⟨not_not_intro h, not_not_intro hl⟩), if_pos hw]

theorem exec_fabLockLost {p : FabPort} (h : (s.fab p).state = .measure ∨ (s.fab p).state = .discover ∨ (s.fab p).state = .up) :
    exec (.fabLockLost p) s = .next (s.fabDown p 3) := by
  change execFabLockLost p s = _
  unfold execFabLockLost
  obtain h | h | h := h <;> rw [h]

/-! ### FAB_CTL with enable 0 -/

/-- The control register of a port is the first of its block. -/
theorem fabCtl_block (p : FabPort) :
    blockOf (0x100000 + p.val * 0x1000) = some (.fab p.val, 0) ∧ (0x100000 + p.val * 0x1000) % 4 = 0 := by
  unfold blockOf
  refine ⟨?_, by omega⟩
  rw [if_neg (by omega), if_pos (by omega)]
  have hport : (0x100000 + p.val * 0x1000 - 0x100000) / 0x1000 = p.val := by omega
  have hoff : (0x100000 + p.val * 0x1000) % 0x1000 = 0 := by omega
  rw [hport, hoff]

theorem fabCtl_has (p : Nat) : blockHas (.fab p) 0 = true := rfl

theorem fabCtl_write (x : Writer) (p : Nat) (v : Word) : s.blockWrite x (.fab p) 0 v = s.writeFabCtl p v := rfl

theorem fab_answers (h : s.passed 1 = true) (p : Nat) : s.regAnswers (.fab p) 0 = true :=
  regAnswers_of_answers (fun k => nomatch k) h

theorem bit_setField_disable (v : Word) : bit (setField v 31 1 0) 31 = false := by
  unfold bit
  rw [getLsbD_setField v (by decide) (by decide)]
  rfl

theorem exec_fabPortDisable {acc : Accessor} (p : FabPort) (v : Word) (hm : s.mayWrite acc = true) (h1 : s.passed 1 = true) :
    exec (.fabPortDisable acc p v) s = .next (s.writeFabCtl p (setField v 31 1 0)) := by
  change execFabPortDisable acc p v s = _
  unfold execFabPortDisable
  rw [accWrite_may (fabCtl_block p).2 (fabCtl_block p).1 (fabCtl_has p) (fab_answers h1 p) hm, fabCtl_write]

theorem exec_fabPortDisable_unowned {acc : Accessor} (p : FabPort) (v : Word) (hm : s.mayWrite acc = false) (h1 : s.passed 1 = true) :
    exec (.fabPortDisable acc p v) s = .next { s with top := { s.top with denied := satAdd s.top.denied 1 } } :=
  congrArg Host.Outcome.next
    ((accWrite_unowned hm (fabCtl_block p).2 (fabCtl_block p).1 rfl (fab_answers h1 p) (fun _ _ => rfl) _).trans rfl)

theorem exec_fabPortDisable_off {acc : Accessor} (p : FabPort) (v : Word) (h1 : s.passed 1 = false) :
    exec (.fabPortDisable acc p v) s = .next s := by
  refine congrArg Host.Outcome.next (accWrite_none (.inr fun b o hb => .inr ?_))
  obtain ⟨rfl, rfl⟩ := Prod.mk.inj (Option.some.inj ((fabCtl_block p).1.symm.trans hb))
  unfold State.regAnswers
  rw [show s.answers (.fab p.val) = false from h1, Bool.false_and]

/-- A port that is disabled goes DOWN with cause 1, and tells its peer where it was UP. -/
theorem writeFabCtl_off (p : FabPort) {v : Word} (hv : bit v 31 = false) :
    ∃ u, s.Only u [.fabs, .out] ∧ (u.fab p).state = (s.fab p).state ∧ (u.fab p).cause = (s.fab p).cause ∧
      ((s.fab p).state = .up → Out.downMarker p ∈ u.out) ∧ ((s.fab p).state ≠ .up → s.Only u [.fabs]) ∧
      s.writeFabCtl p v = (u.fabDown p 1).updFab p fun f => { f with enable := false } := by
  have hport : Fin.ofNat 17 p.val = p := Fin.ext (Nat.mod_eq_of_lt p.isLt)
  unfold State.writeFabCtl
  rw [hv]
  extract_lets on a
  have ha : a.fab p = { s.fab p with
      pmd := if (s.fab p).enable then (s.fab p).pmd else v.extractLsb' 29 2, wdogCut := bit v 28, wdogExp := v.extractLsb' 16 4 } :=
    updFab_fab_self ..
  have hstate : (a.fab p).state = (s.fab p).state := by rw [ha]
  have honly : s.Only a [.fabs] := updFab_only ..
  refine ⟨_, only_when (honly.in) (only_emit (honly.in) (by decide)), ?_, ?_, fun hup => ?_, fun hup => ?_, rfl⟩
  · rw [State.when_read (fun u => (u.fab p).state), show ((a.emit (.downMarker (Fin.ofNat 17 p.val))).fab p).state = (a.fab p).state from rfl,
      ite_self, hstate]
  · rw [State.when_read (fun u => (u.fab p).cause), show ((a.emit (.downMarker (Fin.ofNat 17 p.val))).fab p).cause = (a.fab p).cause from rfl,
      ite_self, ha]
  · rw [hstate, decide_eq_true hup, State.when_true, hport]
    exact List.mem_cons_self
  · rw [hstate, decide_eq_false hup]
    exact honly

theorem exec_fabPortDisable_falls {acc : Accessor} {p : FabPort} (v : Word) (hm : s.mayWrite acc = true) (h1 : s.passed 1 = true)
    (h : (s.fab p).state ≠ .down) :
    ∃ t, exec (.fabPortDisable acc p v) s = .next t ∧ s.Only t [.top, .fret, .healx, .chest, .spn, .fabs, .tasks, .held, .out] ∧
      (t.fab p).enable = false ∧ (t.fab p).state = .down ∧ (t.fab p).cause = 1 ∧ ((s.fab p).state = .up → .downMarker p ∈ t.out) := by
  obtain ⟨u, honly, hstate, _, hmark, _, hw⟩ := writeFabCtl_off (s := s) p (v := setField v 31 1 0) (bit_setField_disable v)
  have hne : (u.fab p).state ≠ .down := by rw [hstate]; exact h
  obtain ⟨hdown, hcause, _⟩ := fabDown_port hne 1
  have hfab : ((u.fabDown p 1).updFab p fun f => { f with enable := false }).fab p = { (u.fabDown p 1).fab p with enable := false } :=
    updFab_fab_self ..
  refine ⟨_, (exec_fabPortDisable p v hm h1).trans (congrArg _ hw), only_updFab (only_fabDown (honly.in) (by decide)) (by decide), ?_⟩
  rw [hfab]
  exact ⟨rfl, hdown, hcause, fun hup => (fabDown_reads hne 1).2.2.subset (hmark hup)⟩

theorem exec_fabPortDisable_down {acc : Accessor} {p : FabPort} (v : Word) (hm : s.mayWrite acc = true) (h1 : s.passed 1 = true)
    (h : (s.fab p).state = .down) :
    ∃ t, exec (.fabPortDisable acc p v) s = .next t ∧ s.Only t [.fabs] ∧ (t.fab p).enable = false ∧ (t.fab p).state = .down ∧
      (t.fab p).cause = (s.fab p).cause := by
  obtain ⟨u, _, hstate, hcause, _, honly, hw⟩ := writeFabCtl_off (s := s) p (v := setField v 31 1 0) (bit_setField_disable v)
  rw [fabDown_down (hstate.trans h)] at hw
  have hfab : (u.updFab p fun f => { f with enable := false }).fab p = { u.fab p with enable := false } := updFab_fab_self ..
  refine ⟨_, (exec_fabPortDisable p v hm h1).trans (congrArg _ hw),
    only_updFab ((honly fun k => nomatch h.symm.trans k).in) (by decide), ?_⟩
  rw [hfab]
  exact ⟨rfl, hstate.trans h, hcause⟩

/-! ### The twin's heartbeat and the NCN -/

theorem exec_twHeartbeatTimeout (h : s.twUp = true) : ∃ t, exec .twHeartbeatTimeout s = .next t ∧
    s.Only t [.top, .healx, .relx, .chest, .fabs, .out] ∧ (t.fab 16).twinLost = true ∧
    t.healx.twin = (if s.healx.twin = .paired then .solo else s.healx.twin) := by
  change ∃ t, execTwHeartbeatTimeout s = .next t ∧ _
  unfold execTwHeartbeatTimeout
  rw [if_neg (fun k => Bool.noConfusion (h.symm.trans k))]
  extract_lets a b
  have hb : (a.Only b [.chest]) := recordAt_only ..
  have ha : s.Only a [.fabs, .top, .out] := only_attn ((updFab_only ..).in) (by decide)
  have hlost : (b.fab 16).twinLost = true := by
    rw [fab_congr hb.fabs, fab_congr (attn_only ..).fabs, updFab_fab_self]
  have htwin : b.healx.twin = s.healx.twin := by rw [hb.healx, ha.healx]
  rw [htwin]
  split
  · refine ⟨_, rfl, only_goSolo ((ha.in).trans (hb.in)) (by decide), ?_, ?_⟩
    · rw [fab_congr (goSolo_only b).fabs]; exact hlost
    · unfold State.goSolo
      rw [(attn_only ..).healx]
      rfl
  · exact ⟨_, rfl, (ha.in).trans (hb.in), hlost, htwin⟩

theorem exec_ncnCrcError_drains (h : Half) (hr : s.relx.retState = .none) (hw : s.healx.retireWait = none) (hready : s.top.ready = true)
    (hb : s.bist.state = 0) (hrec : s.recovering = false) :
    ∃ t, exec (.ncnCrcError h true) s = .next t ∧ s.Only t [.relx, .chest] ∧ t.relx.retState = .draining ∧ t.relx.retCause = 4 := by
  refine ⟨_, congrArg Host.Outcome.next (retireCause_drains hr hw hready hb hrec 4),
    only_causeRecord ((drainNow_only ..).in) (by decide), ?_, ?_⟩
  · rw [(causeRecord_only ..).relx]; rfl
  · rw [(causeRecord_only ..).relx]; rfl

theorem exec_ncnCrcError_retiring (h : Half) (hr : s.relx.retState ≠ .none) : s.NextOnly (exec (.ncnCrcError h true) s) [.bist, .chest] := by
  refine ⟨s.retireCause 4, rfl, ?_⟩
  unfold State.retireCause
  extract_lets a
  have ha : s.Only a [.bist] := modBist_only ..
  rw [if_pos (.inl hr)]
  exact only_causeRecord (ha.in) (by decide)

/-- Settles O23: each event acts in the states that the table names, and a port that falls keeps its cause. -/
theorem fabricPortsChangeState : Obligations.FabricPortsChangeState := by
  unfold Obligations.FabricPortsChangeState
  refine ⟨fun s p he hd => if_pos ⟨he, hd⟩, fun s p h => if_neg fun k => h.elim (fun he => Bool.noConfusion (k.1.symm.trans he)) fun hd => hd k.2, fun s p lanes h => ⟨if_neg h, if_neg h⟩,
    fun s p xs h => if_pos h, fun s p id h => if_neg h, fun s p h => ?_, fun s p h => ⟨if_neg h, if_neg h⟩, fun s p h => if_pos h,
    fun s p lanes h => exec_fabTrainFail h lanes, fun s p xs h hl hw => exec_fabMeasureDone_within h hl hw, fun s p xs h hl hw => ?_,
    fun s p id h => if_pos h, fun s p h => ?_, fun s p h => ?_, fun s p h => ?_,
    fun s acc p v hm h1 h => exec_fabPortDisable_falls v hm h1 h, fun s acc p v hm h1 h => exec_fabPortDisable_down v hm h1 h,
    fun s acc p v hm h1 => exec_fabPortDisable_unowned p v hm h1, fun s acc p v h1 => exec_fabPortDisable_off p v h1,
    fun s p => ?_, fun s p => ?_, fun s h => ⟨if_neg fun k => Bool.noConfusion (h.symm.trans k), if_pos h⟩, fun s h => if_pos h,
    fun s h => exec_twHeartbeatTimeout h, fun s h => rfl, fun s h hr hw hready hb hrec => exec_ncnCrcError_drains h hr hw hready hb hrec,
    fun s h hr => exec_ncnCrcError_retiring h hr⟩
  · change execFabLockLost p s = _
    unfold execFabLockLost
    obtain h | h := h <;> rw [h]
  · obtain ⟨hstate, hcause, _⟩ := fabDown_port (s := s) (p := p) (fun k => nomatch h.symm.trans k) 6
    exact ⟨_, exec_fabMeasureDone_beyond h hl hw, fabDown_only .., hstate, hcause⟩
  · have hne : (s.fab p).state ≠ .down := by obtain h | h | h := h <;> rw [h] <;> exact FabState.noConfusion
    obtain ⟨hstate, hcause, _, hvalid, hserial⟩ := fabDown_port hne 3
    exact ⟨_, exec_fabLockLost h, fabDown_only .., hstate, hcause, hvalid, hserial, (fabDown_reads hne 3).2.1⟩
  · obtain ⟨hstate, hcause, _, hvalid, _⟩ := fabDown_port (s := s) (p := p) (fun k => nomatch h.symm.trans k) 4
    exact ⟨_, if_pos h, fabDown_only .., hstate, hcause, hvalid⟩
  · obtain ⟨hstate, hcause, _, hvalid, _⟩ := fabDown_port (s := s) (p := p) (fun k => nomatch h.symm.trans k) 5
    exact ⟨_, if_pos h, fabDown_only .., hstate, hcause, hvalid⟩
  · exact ⟨_, rfl, only_updLink ((updFab_only ..).in) (by decide), (fab_congr (updLink_only ..).fabs _).trans (updFab_fab_self ..)⟩
  · exact ⟨_, rfl, only_emit (only_updLink ((updFab_only ..).in) (by decide)) (by decide),
      (fab_congr (emit_only ..).fabs _).trans ((fab_congr (updLink_only ..).fabs _).trans (updFab_fab_self ..)), rfl⟩

end Sys2Proof.Machine
end

section
/-!
PROOFS. A verify result longer than the 128 bytes of 06 R342: O18.
-/

set_option Elab.async false

namespace Sys2Proof.Machine

/-- The oldest result, on an OPEN connection that allows the units of a result of 128 bytes, is refused where its own units pass the
grant. -/
theorem exec_verifyResultSend_refused {s : State} {e : Nat × List Byte} {es : List (Nat × List Byte)} (hr : s.sess.results = e :: es)
    (ho : (s.conn e.1).state = .opened) (hs : (s.conn e.1).sentBy 5 0 = true) (hw : (s.conn e.1).waiting = [])
    (hm : (s.conn e.1).marker = none) (ha : (s.conn e.1).allows (recUnits 128) = true) (hn : (s.conn e.1).nak = false)
    (hg : (s.conn e.1).grant.toNat < recUnits e.2.length) :
    exec .verifyResultSend s = .next ((s.modSess fun x => { x with results := x.results.erase e }).refuse e.1 .nakFull 1) := by
  have hready : (!(s.conn e.1).sentBy 5 0 || (!(s.conn e.1).nak && decide ((s.conn e.1).grant.toNat < recUnits 128)) ||
      (decide ((s.conn e.1).waiting = []) && decide ((s.conn e.1).marker = none) && (s.conn e.1).allows (recUnits 128))) = true := by
    rw [hw, hm, ha]
    simp
  have hconn : (s.modSess fun x => { x with results := x.results.erase e }).conn e.1 = s.conn e.1 := rfl
  change execVerifyResultSend s = _
  unfold execVerifyResultSend
  extract_lets ready
  have hfind : s.sess.results.find? ready = some e := by
    rw [hr]
    refine List.find?_cons_of_pos ?_
    simp only [ready, ho]
    exact hready
  rw [hfind]
  dsimp only
  rw [hconn, if_neg fun k => ConnState.noConfusion (ho.symm.trans k.1)]
  refine congrArg Host.Outcome.next ?_
  unfold State.sessSend State.sendOn
  dsimp only
  rw [hconn, hs, ho, hn]
  exact if_pos hg

/-- A result of 200 bytes. -/
def longBody : List Byte := List.replicate 200 0

theorem longBody_units : recUnits longBody.length = 4 := by
  unfold longBody
  rw [List.length_replicate]
  decide

/-- A connection of the session engine that has a grant of the 3 units that a result of 128 bytes takes. -/
def resultConn : ConnSt := { state := .opened, srcKind := 5, grant := 3 }

/-- A chip whose session engine holds one result, of 200 bytes. -/
def longResult : State :=
  { State.reset with
    mch := { State.reset.mch with conns := [(0, resultConn)] }
    sess := { State.reset.sess with results := [(0, longBody)] } }

/-- Refutes O18: nothing says that a result that waits has the 128 bytes of R342, and one of 200 bytes, which takes 4 units, is refused on a
connection that allows the 3 units of 128. -/
theorem not_sessionCommandsTakeEffect : ¬ Obligations.SessionCommandsTakeEffect := by
  unfold Obligations.SessionCommandsTakeEffect
  rintro ⟨-, -, -, -, -, -, -, -, -, -, -, -, -, -, hsend, -⟩
  have hgrant : (longResult.conn 0).grant.toNat < recUnits longBody.length := by
    rw [longBody_units]
    decide
  obtain ⟨t, hexec, -, -, hout⟩ := hsend longResult (0, longBody) [] rfl (.inl rfl) rfl rfl rfl rfl
  obtain rfl := Host.Outcome.next.inj ((exec_verifyResultSend_refused (e := (0, longBody)) rfl rfl rfl rfl rfl rfl rfl hgrant).symm.trans hexec)
  exact absurd hout (Nat.lt_irrefl _)

end Sys2Proof.Machine
end

section
/-!
PROOFS. Stream contexts: activation, drawers, deadlines, retirement (05 R252 to R258, R273, R280, R282, R286): O16.
-/

set_option Elab.async false

namespace Sys2Proof.Machine

variable {s : State}

/-! ### What context operations leave -/

/-- A context as a use starts on it. -/
def CtxSt.started (y : CtxSt) (u : StreamUse) : CtxSt :=
  { y with
    state := .active, live := true, next := 0, drawers := [], kvCur := none, kind := kindCode u.kind
    slot := BitVec.ofNat 4 u.slot, fold := BitVec.ofNat 3 u.fold }

theorem latchSides_sides {n : BitVec 32} {g : TaskCfg} (h : s.taskCfg n = some g) : ((s.latchSides n).task n).sides.isSome = true := by
  unfold State.latchSides
  rw [h]
  cases hs : (s.task n).sides with
  | none =>
    dsimp only
    rw [updTask_task, if_pos rfl]
    rfl
  | some t =>
    dsimp only
    rw [hs]
    rfl

theorem latchSides_other {n m : BitVec 32} (h : m ≠ n) : (s.latchSides n).task m = s.task m := by
  unfold State.latchSides
  split
  · rw [updTask_task, if_neg h]
  · rfl

/-- A task that is alive is busy. -/
theorem busy_of_alive {n : BitVec 32} (h : s.alive n = true) : (s.task n).busy = true := by
  unfold State.alive at h
  exact (Bool.and_eq_true_iff.1 h).1

/-- What an underrun of a busy task's context sets. -/
theorem underrun_reads {key : Nat} (h : (s.task (s.ctx key).task).busy = true) :
    ((s.underrun key).ctx key).underrun = true ∧ ((s.underrun key).ctx key).minSlack = 0 ∧
      ((s.underrun key).task (s.ctx key).task).abort.isSome = true := by
  unfold State.underrun
  extract_lets n a c b
  have hb : (b.detect n .underrun).ctx key = { s.ctx key with underrun := true, starved := true, minSlack := 0 } := by
    rw [ctx_congr (detect_only ..).ctxs]
    exact updCtx_ctx_self s key fun x => { x with underrun := true, starved := true, minSlack := 0 }
  rw [hb]
  exact ⟨rfl, rfl, detect_busy (s := b) h .underrun⟩

/-- A context that is armed holds the arm's task and uses. -/
theorem armIdle_ctx (key : Nat) (h : HeldArm) :
    ((s.armIdle key h).ctx key).state = .armed ∧ ((s.armIdle key h).ctx key).task = h.task ∧
      ((s.armIdle key h).ctx key).launch = h.launch ∧ ((s.armIdle key h).ctx key).uses = h.uses ∧
      ((s.armIdle key h).ctx key).held = (s.ctx key).held := by
  unfold State.armIdle
  extract_lets x first a b
  have ha : s.Only a [.cluss, .tasks] := by
    dsimp only [a]
    split
    · exact only_failArm ((updClus_only ..).in) (by decide)
    · exact State.each_keeps (P := fun u => s.Only u [.cluss, .tasks])
        (fun u st hu => only_ite hu (only_failArm hu (by decide))) (h.uses.map (s.staticStatus h.task)) (.refl s _)
  have hb : s.Only b [.cluss, .tasks] := only_when ha (only_updTask ha (by decide))
  rw [updCtx_ctx_self, ctx_congr hb.ctxs]
  exact ⟨rfl, rfl, rfl, rfl, rfl⟩

/-- A context that becomes IDLE. -/
def CtxSt.idled (y : CtxSt) : CtxSt := { y with state := .idle, live := false, drawers := [], kvCur := none, hints := [], hinted := [] }

theorem ctxIdle_noArm {key : Nat} (h : (s.ctx key).held = []) : s.ctxIdle key = s.updCtx key CtxSt.idled := by
  have hheld : ((s.updCtx key CtxSt.idled).ctx key).held = [] := by rw [updCtx_ctx_self]; exact h
  unfold State.ctxIdle
  change (match ((s.updCtx key CtxSt.idled).ctx key).held with | [] => _ | h :: hs => _) = _
  rw [hheld] <;> rfl

theorem ctxIdle_arm {key : Nat} {h : HeldArm} {hs : List HeldArm} (hh : (s.ctx key).held = h :: hs) :
    s.ctxIdle key = ((s.updCtx key CtxSt.idled).updCtx key fun x => { x with held := hs }).armIdle key h := by
  have hheld : ((s.updCtx key CtxSt.idled).ctx key).held = h :: hs := by rw [updCtx_ctx_self]; exact hh
  unfold State.ctxIdle
  change (match ((s.updCtx key CtxSt.idled).ctx key).held with | [] => _ | h :: hs => _) = _
  rw [hheld] <;> rfl

/-! ### Activation -/

theorem exec_streamActivate_starts {c : Clus} {x : Ctx} {u : StreamUse} (hu : (s.ctx (64 * c.val + x.val)).use? = some u)
    (hf : (s.ctx (64 * c.val + x.val)).fretOf u.activation = s.now)
    (hs : (s.ctx (64 * c.val + x.val)).state = .armed ∧ s.spanConflict (s.ctx (64 * c.val + x.val)).task = false ∨
      (s.ctx (64 * c.val + x.val)).state = .active ∧ (s.ctx (64 * c.val + x.val)).live = false)
    (ha : s.alive (s.ctx (64 * c.val + x.val)).task = true) :
    exec (.streamActivate c x) s =
      .next ((s.latchSides (s.ctx (64 * c.val + x.val)).task).updCtx (64 * c.val + x.val) fun y => y.started u) := by
  change execStreamActivate c x s = _
  unfold execStreamActivate
  dsimp only
  rw [hu]
  dsimp only
  rw [decide_eq_true hf]
  obtain ⟨harmed, hspan⟩ | ⟨hactive, hlive⟩ := hs
  · rw [if_pos ⟨rfl, harmed, ha⟩, if_neg (by rw [hspan]; exact Bool.false_ne_true)]
    rfl
  · rw [if_neg fun k => CtxState.noConfusion (hactive.symm.trans k.2.1), if_pos ⟨rfl, hactive, hlive, ha⟩]
    rfl

theorem streamActivate_starts {c : Clus} {x : Ctx} {u : StreamUse} (hu : (s.ctx (64 * c.val + x.val)).use? = some u)
    (hf : (s.ctx (64 * c.val + x.val)).fretOf u.activation = s.now)
    (hs : (s.ctx (64 * c.val + x.val)).state = .armed ∧ s.spanConflict (s.ctx (64 * c.val + x.val)).task = false ∨
      (s.ctx (64 * c.val + x.val)).state = .active ∧ (s.ctx (64 * c.val + x.val)).live = false)
    (ha : s.alive (s.ctx (64 * c.val + x.val)).task = true) :
    ∃ t, exec (.streamActivate c x) s = .next t ∧ s.Only t [.ctxs, .tasks] ∧
      t.ctx (64 * c.val + x.val) = (s.ctx (64 * c.val + x.val)).started u ∧
      (∀ k, k ≠ 64 * c.val + x.val → t.ctx k = s.ctx k) ∧
      (∀ n, n ≠ (s.ctx (64 * c.val + x.val)).task → t.task n = s.task n) ∧
      (∀ g, s.taskCfg (s.ctx (64 * c.val + x.val)).task = some g → (t.task (s.ctx (64 * c.val + x.val)).task).sides.isSome = true) := by
  have hctx : ∀ k, (s.latchSides (s.ctx (64 * c.val + x.val)).task).ctx k = s.ctx k := ctx_congr (latchSides_only ..).ctxs
  refine ⟨_, exec_streamActivate_starts hu hf hs ha, only_updCtx ((latchSides_only ..).in) (by decide), ?_, fun k hk => ?_,
    fun n hn => latchSides_other hn, fun g hg => latchSides_sides hg⟩
  · rw [updCtx_ctx_self, hctx]
  · rw [updCtx_ctx, if_neg hk, hctx]

theorem exec_streamActivate_conflict {c : Clus} {x : Ctx} {u : StreamUse} (hu : (s.ctx (64 * c.val + x.val)).use? = some u)
    (hf : (s.ctx (64 * c.val + x.val)).fretOf u.activation = s.now) (hs : (s.ctx (64 * c.val + x.val)).state = .armed)
    (ha : s.alive (s.ctx (64 * c.val + x.val)).task = true) (hc : s.spanConflict (s.ctx (64 * c.val + x.val)).task = true) :
    exec (.streamActivate c x) s = .next (s.failArm (s.ctx (64 * c.val + x.val)).task .memory) := by
  change execStreamActivate c x s = _
  unfold execStreamActivate
  dsimp only
  rw [hu]
  dsimp only
  rw [decide_eq_true hf, if_pos ⟨rfl, hs, ha⟩, if_pos hc]

theorem exec_streamActivate_late {c : Clus} {x : Ctx} {u : StreamUse} {h : HeldArm} (hu : (s.ctx (64 * c.val + x.val)).use? = some u)
    (hf : (s.ctx (64 * c.val + x.val)).fretOf u.activation ≠ s.now)
    (hh : ((s.ctx (64 * c.val + x.val)).held.find? fun h => h.uses.head?.any fun u => decide ((h.launch : Int) + u.activation = s.now)) = some h) :
    exec (.streamActivate c x) s = .next (s.updTask h.task fun t => { t with armLate := true, dead := true }) := by
  change execStreamActivate c x s = _
  unfold execStreamActivate
  dsimp only
  rw [hu]
  dsimp only
  rw [decide_eq_false hf, if_neg fun k => Bool.false_ne_true k.1, if_neg fun k => Bool.false_ne_true k.1, hh]

/-! ### Read drawers -/

/-- A read drawer that is due is issued in the way of its use's kind. -/
theorem execDrawerIssue_due {c : Clus} {x : Ctx} {u : StreamUse}
    (hw : u.isWrite = false) (hs : (s.ctx (64 * c.val + x.val)).state = .active) (hl : (s.ctx (64 * c.val + x.val)).live = true)
    (hn : (s.ctx (64 * c.val + x.val)).next < u.n)
    (hf : (s.ctx (64 * c.val + x.val)).issueFret u (s.ctx (64 * c.val + x.val)).next = s.now)
    (ha : s.alive (s.ctx (64 * c.val + x.val)).task = true) :
    ¬ ((s.ctx (64 * c.val + x.val)).state ≠ .active ∨ (s.ctx (64 * c.val + x.val)).live = false ∨ u.isWrite ∨
      u.n ≤ (s.ctx (64 * c.val + x.val)).next ∨ (s.ctx (64 * c.val + x.val)).issueFret u (s.ctx (64 * c.val + x.val)).next ≠ s.now ∨
      s.alive (s.ctx (64 * c.val + x.val)).task = false) := by
  rw [hw, hl, ha]
  rintro (k | k | k | k | k | k)
  · exact k hs
  · exact Bool.noConfusion k
  · exact Bool.noConfusion k
  · exact absurd hn (Nat.not_lt.2 k)
  · exact k hf
  · exact Bool.noConfusion k

theorem exec_drawerIssue_read {c : Clus} {x : Ctx} {u : StreamUse} (hu : (s.ctx (64 * c.val + x.val)).use? = some u)
    (hk : u.kind = .read) (hs : (s.ctx (64 * c.val + x.val)).state = .active) (hl : (s.ctx (64 * c.val + x.val)).live = true)
    (hn : (s.ctx (64 * c.val + x.val)).next < u.n)
    (hf : (s.ctx (64 * c.val + x.val)).issueFret u (s.ctx (64 * c.val + x.val)).next = s.now)
    (ha : s.alive (s.ctx (64 * c.val + x.val)).task = true) :
    exec (.drawerIssue c x) s = .next
      ((s.openDrawer (64 * c.val + x.val) (s.ctx (64 * c.val + x.val)).next u.per).each (List.range u.per) fun r j =>
        r.issue (64 * c.val + x.val) (streamReq (.drawer (64 * c.val + x.val) (s.ctx (64 * c.val + x.val)).next j)
          (patAddr u.pattern (s.useBase (s.ctx (64 * c.val + x.val)).task u) ((s.ctx (64 * c.val + x.val)).next * u.per + j)).toNat
          false [] .scheduled ((s.ctx (64 * c.val + x.val)).deadline u (s.ctx (64 * c.val + x.val)).next))) := by
  have hw : u.isWrite = false := by unfold StreamUse.isWrite; rw [hk]; rfl
  change execDrawerIssue c x s = _
  unfold execDrawerIssue
  dsimp only
  rw [hu]
  dsimp only
  rw [if_neg (execDrawerIssue_due hw hs hl hn hf ha), hk]

theorem exec_drawerIssue_gather {c : Clus} {x : Ctx} {u : StreamUse} {g : GatherCfg} (hu : (s.ctx (64 * c.val + x.val)).use? = some u)
    (hk : u.kind = .gather) (hg : u.gather = some g) (hs : (s.ctx (64 * c.val + x.val)).state = .active)
    (hl : (s.ctx (64 * c.val + x.val)).live = true) (hn : (s.ctx (64 * c.val + x.val)).next < u.n)
    (hf : (s.ctx (64 * c.val + x.val)).issueFret u (s.ctx (64 * c.val + x.val)).next = s.now)
    (ha : s.alive (s.ctx (64 * c.val + x.val)).task = true) :
    exec (.drawerIssue c x) s = .next (s.issueGather (64 * c.val + x.val) u g (s.ctx (64 * c.val + x.val)).next) := by
  have hw : u.isWrite = false := by unfold StreamUse.isWrite; rw [hk]; rfl
  change execDrawerIssue c x s = _
  unfold execDrawerIssue
  dsimp only
  rw [hu]
  dsimp only
  rw [if_neg (execDrawerIssue_due hw hs hl hn hf ha), hk, hg]

theorem exec_drawerIssue_kv {c : Clus} {x : Ctx} {u : StreamUse} {v : KvCfg} (hu : (s.ctx (64 * c.val + x.val)).use? = some u)
    (hk : u.kind = .kvRead) (hv : u.kv = some v) (hs : (s.ctx (64 * c.val + x.val)).state = .active)
    (hl : (s.ctx (64 * c.val + x.val)).live = true) (hn : (s.ctx (64 * c.val + x.val)).next < u.n)
    (hf : (s.ctx (64 * c.val + x.val)).issueFret u (s.ctx (64 * c.val + x.val)).next = s.now)
    (ha : s.alive (s.ctx (64 * c.val + x.val)).task = true) :
    exec (.drawerIssue c x) s = .next (s.issueKv (64 * c.val + x.val) u v (s.ctx (64 * c.val + x.val)).next) := by
  have hw : u.isWrite = false := by unfold StreamUse.isWrite; rw [hk]; rfl
  change execDrawerIssue c x s = _
  unfold execDrawerIssue
  dsimp only
  rw [hu]
  dsimp only
  rw [if_neg (execDrawerIssue_due hw hs hl hn hf ha), hk, hv]

theorem exec_drawerIssue_early {c : Clus} {x : Ctx} {u : StreamUse} (hu : (s.ctx (64 * c.val + x.val)).use? = some u)
    (hf : (s.ctx (64 * c.val + x.val)).issueFret u (s.ctx (64 * c.val + x.val)).next ≠ s.now) :
    exec (.drawerIssue c x) s = .next s := by
  change execDrawerIssue c x s = _
  unfold execDrawerIssue
  dsimp only
  rw [hu]
  dsimp only
  rw [if_pos (.inr (.inr (.inr (.inr (.inl hf)))))]

/-- The drawers that a context keeps once drawer k is due. -/
def State.keepDrawers (s : State) (key k : Nat) : State :=
  s.updCtx key fun y => { y with drawers := y.drawers.filter fun d => decide (k ≤ d.k) }

/-- A read drawer that is due frees those before it, and is an underrun unless it is full. -/
theorem exec_readDrawerDue {c : Clus} {x : Ctx} {u : StreamUse} {k : Nat} (hu : (s.ctx (64 * c.val + x.val)).use? = some u)
    (hw : u.isWrite = false) (hs : (s.ctx (64 * c.val + x.val)).state = .active) (hl : (s.ctx (64 * c.val + x.val)).live = true)
    (hk : k < u.n) (hp : 0 < u.period) (hf : (s.ctx (64 * c.val + x.val)).fretOf u.first + (k * u.period : Nat) = s.now) :
    exec (.readDrawerDue c x) s =
      if (((s.ctx (64 * c.val + x.val)).drawer? k).bind (·.full)).any (fun f => decide (f < s.now)) = true ∨
          s.alive (s.ctx (64 * c.val + x.val)).task = false
      then .next (s.keepDrawers (64 * c.val + x.val) k) else .next ((s.keepDrawers (64 * c.val + x.val) k).underrun (64 * c.val + x.val)) := by
  have hd : (s.now : Int) - (s.ctx (64 * c.val + x.val)).fretOf u.first = ((k * u.period : Nat) : Int) := by omega
  have hmax : max u.period 1 = u.period := Nat.max_eq_left hp
  have hdiv : (((k * u.period : Nat) : Int) / (u.period : Int)).toNat = k := by
    rw [← Int.natCast_ediv, Nat.mul_div_cancel _ hp, Int.toNat_natCast]
  change execReadDrawerDue c x s = _
  unfold execReadDrawerDue
  dsimp only
  rw [hu]
  dsimp only
  rw [hd, hmax, hdiv, hs, hl, hw]
  have hno : ¬ (CtxState.active ≠ .active ∨ true = false ∨ false = true ∨ ((k * u.period : Nat) : Int) < 0 ∨
      ((k * u.period : Nat) : Int) % (u.period : Int) ≠ 0 ∨ u.n < k) := by
    rintro (h | h | h | h | h | h)
    · exact h rfl
    · exact Bool.noConfusion h
    · exact Bool.noConfusion h
    · omega
    · rw [← Int.natCast_emod, Nat.mul_mod_left] at h
      exact h rfl
    · omega
  rw [if_neg hno]
  have hne : ¬ k = u.n := Nat.ne_of_lt hk
  simp only [hne, false_or]
  rfl

theorem exec_readDrawerDue_underrun {c : Clus} {x : Ctx} {u : StreamUse} {k : Nat} (hu : (s.ctx (64 * c.val + x.val)).use? = some u)
    (hw : u.isWrite = false) (hs : (s.ctx (64 * c.val + x.val)).state = .active) (hl : (s.ctx (64 * c.val + x.val)).live = true)
    (hk : k < u.n) (hp : 0 < u.period) (hf : (s.ctx (64 * c.val + x.val)).fretOf u.first + (k * u.period : Nat) = s.now)
    (ha : s.alive (s.ctx (64 * c.val + x.val)).task = true)
    (hd : ∀ d f, (s.ctx (64 * c.val + x.val)).drawer? k = some d → d.full = some f → s.now ≤ f) :
    ∃ t, exec (.readDrawerDue c x) s = .next t ∧ s.Only t [.chest, .tel, .ctxs, .tasks] ∧
      (t.ctx (64 * c.val + x.val)).underrun = true ∧ (t.ctx (64 * c.val + x.val)).minSlack = 0 ∧
      (t.task (s.ctx (64 * c.val + x.val)).task).abort.isSome = true := by
  have hfull : ¬ ((((s.ctx (64 * c.val + x.val)).drawer? k).bind (·.full)).any (fun f => decide (f < s.now)) = true ∨
      s.alive (s.ctx (64 * c.val + x.val)).task = false) := by
    rw [ha]
    rintro (h | h)
    · obtain ⟨f, hbind, hlt⟩ := (Option.any_eq_true _ _).1 h
      obtain ⟨d, hdr, hfd⟩ := Option.bind_eq_some_iff.1 hbind
      exact absurd (of_decide_eq_true hlt) (Nat.not_lt.2 (hd d f hdr hfd))
    · exact Bool.noConfusion h
  have htask : ((s.keepDrawers (64 * c.val + x.val) k).ctx (64 * c.val + x.val)).task = (s.ctx (64 * c.val + x.val)).task := by
    unfold State.keepDrawers
    rw [updCtx_ctx_self]
  have hbusy : ((s.keepDrawers (64 * c.val + x.val) k).task ((s.keepDrawers (64 * c.val + x.val) k).ctx (64 * c.val + x.val)).task).busy
      = true := by rw [htask]; exact busy_of_alive ha
  obtain ⟨hunder, hslack, habort⟩ := underrun_reads hbusy
  rw [htask] at habort
  exact ⟨_, (exec_readDrawerDue hu hw hs hl hk hp hf).trans (if_neg hfull), only_underrun ((updCtx_only ..).in) (by decide), hunder,
    hslack, habort⟩

theorem exec_readDrawerDue_full {c : Clus} {x : Ctx} {u : StreamUse} {k f : Nat} {d : DrawerRt}
    (hu : (s.ctx (64 * c.val + x.val)).use? = some u)
    (hw : u.isWrite = false) (hs : (s.ctx (64 * c.val + x.val)).state = .active) (hl : (s.ctx (64 * c.val + x.val)).live = true)
    (hk : k < u.n) (hp : 0 < u.period) (hf : (s.ctx (64 * c.val + x.val)).fretOf u.first + (k * u.period : Nat) = s.now)
    (hd : (s.ctx (64 * c.val + x.val)).drawer? k = some d) (hfull : d.full = some f) (hlt : f < s.now) :
    exec (.readDrawerDue c x) s = .next (s.keepDrawers (64 * c.val + x.val) k) := by
  refine (exec_readDrawerDue hu hw hs hl hk hp hf).trans (if_pos (.inl ?_))
  rw [hd, Option.bind_some, hfull]
  exact decide_eq_true hlt

/-! ### Write drawers -/

theorem exec_writeDrawerFillCheck_due {c : Clus} {x : Ctx} {obs : List TileFault} {u : StreamUse}
    (hu : (s.ctx (64 * c.val + x.val)).use? = some u) (hw : u.isWrite = true) (hs : (s.ctx (64 * c.val + x.val)).state = .active)
    (hl : (s.ctx (64 * c.val + x.val)).live = true) (hn : (s.ctx (64 * c.val + x.val)).next < u.n)
    (hf : (s.ctx (64 * c.val + x.val)).drawerFret u (s.ctx (64 * c.val + x.val)).next + u.period = s.now)
    (ha : s.alive (s.ctx (64 * c.val + x.val)).task = true) :
    exec (.writeDrawerFillCheck c ⟨x, obs⟩) s = .next
      (if (((s.ctx (64 * c.val + x.val)).drawer? (s.ctx (64 * c.val + x.val)).next).map (·.filled)).getD 0 < u.size then
        (s.updCtx (64 * c.val + x.val) fun y => { y with next := (s.ctx (64 * c.val + x.val)).next + 1 }).detect
          (s.ctx (64 * c.val + x.val)).task .bound
      else (s.issueWrite (64 * c.val + x.val) u (s.ctx (64 * c.val + x.val)).next obs).tileFaults
        (s.ptOf (useLt (64 * c.val + x.val) u)) (s.ctx (64 * c.val + x.val)).task u.fold
        (s.foldRt (s.ptOf (useLt (64 * c.val + x.val) u)) u.fold) obs) := by
  have hno : ¬ ((s.ctx (64 * c.val + x.val)).state ≠ .active ∨ (s.ctx (64 * c.val + x.val)).live = false ∨ u.isWrite = false ∨
      u.n ≤ (s.ctx (64 * c.val + x.val)).next ∨
      (s.ctx (64 * c.val + x.val)).drawerFret u (s.ctx (64 * c.val + x.val)).next + u.period ≠ s.now ∨
      s.alive (s.ctx (64 * c.val + x.val)).task = false) := by
    rw [hl, hw, ha]
    rintro (k | k | k | k | k | k)
    · exact k hs
    · exact Bool.noConfusion k
    · exact Bool.noConfusion k
    · exact absurd hn (Nat.not_lt.2 k)
    · exact k hf
    · exact Bool.noConfusion k
  change execWriteDrawerFillCheck c ⟨x, obs⟩ s = _
  unfold execWriteDrawerFillCheck
  dsimp only
  rw [hu]
  dsimp only
  rw [if_neg hno]
  split <;> rfl

theorem exec_writeDrawerFillCheck_early {c : Clus} {x : Ctx} {obs : List TileFault} {u : StreamUse}
    (hu : (s.ctx (64 * c.val + x.val)).use? = some u)
    (hf : (s.ctx (64 * c.val + x.val)).drawerFret u (s.ctx (64 * c.val + x.val)).next + u.period ≠ s.now) :
    exec (.writeDrawerFillCheck c ⟨x, obs⟩) s = .next s := by
  change execWriteDrawerFillCheck c ⟨x, obs⟩ s = _
  unfold execWriteDrawerFillCheck
  dsimp only
  rw [hu]
  dsimp only
  rw [if_pos (.inr (.inr (.inr (.inr (.inl hf)))))]

/-- A write drawer's deadline passes with data missing, or with a write not acknowledged. -/
theorem exec_writeDrawerDeadline {c : Clus} {x : Ctx} {u : StreamUse} (hu : (s.ctx (64 * c.val + x.val)).use? = some u)
    (hw : u.isWrite = true) (hs : (s.ctx (64 * c.val + x.val)).state = .active) (ha : s.alive (s.ctx (64 * c.val + x.val)).task = true)
    (h : (s.ctx (64 * c.val + x.val)).unissued u s.now = true ∨
      (decide (s.now + 1 = (s.task (s.ctx (64 * c.val + x.val)).task).ending + (s.task (s.ctx (64 * c.val + x.val)).task).grace) &&
        (((s.ctx (64 * c.val + x.val)).drawers.any fun d => d.due && decide (d.acked < d.want)) ||
          decide ((s.ctx (64 * c.val + x.val)).lastAck = s.now))) = true) :
    exec (.writeDrawerDeadline c x) s = .next (s.underrun (64 * c.val + x.val)) := by
  change execWriteDrawerDeadline c x s = _
  unfold execWriteDrawerDeadline
  dsimp only
  rw [hu]
  dsimp only
  exact if_pos ⟨hw, hs, ha, h⟩

theorem exec_writeDrawerDeadline_none {c : Clus} {x : Ctx} {u : StreamUse} (hu : (s.ctx (64 * c.val + x.val)).use? = some u)
    (hun : (s.ctx (64 * c.val + x.val)).unissued u s.now = false)
    (he : s.now + 1 ≠ (s.task (s.ctx (64 * c.val + x.val)).task).ending + (s.task (s.ctx (64 * c.val + x.val)).task).grace) :
    exec (.writeDrawerDeadline c x) s = .next s := by
  change execWriteDrawerDeadline c x s = _
  unfold execWriteDrawerDeadline
  dsimp only
  rw [hu]
  dsimp only
  rw [hun, decide_eq_false he, if_neg]
  rintro ⟨-, -, -, k | k⟩
  · exact Bool.noConfusion k
  · exact Bool.noConfusion k

/-! ### Retirement -/

theorem exec_streamRetire_due {c : Clus} {x : Ctx} {u : StreamUse} (hu : (s.ctx (64 * c.val + x.val)).use? = some u)
    (hs : (s.ctx (64 * c.val + x.val)).state = .active) (hl : (s.ctx (64 * c.val + x.val)).live = true)
    (hf : (s.ctx (64 * c.val + x.val)).fretOf u.retirement ≤ s.now) (ho : (s.ctx (64 * c.val + x.val)).outstanding = 0)
    (hw : u.isWrite = false ∨ (s.ctx (64 * c.val + x.val)).underrun = true ∨ (s.ctx (64 * c.val + x.val)).unissued u s.now = false) :
    exec (.streamRetire c x) s = .next
      (if (s.ctx (64 * c.val + x.val)).used + 1 < (s.ctx (64 * c.val + x.val)).uses.length then s.updCtx (64 * c.val + x.val) fun y =>
        { y with used := y.used + 1, live := false, next := 0, drawers := [], kvCur := none, hints := [], hinted := [] }
      else s.ctxIdle (64 * c.val + x.val)) := by
  have hno : ¬ ((s.ctx (64 * c.val + x.val)).state ≠ .active ∨ (s.ctx (64 * c.val + x.val)).live = false ∨
      (s.now : Int) < (s.ctx (64 * c.val + x.val)).fretOf u.retirement ∨ (s.ctx (64 * c.val + x.val)).outstanding ≠ 0 ∨
      (u.isWrite = true ∧ (s.ctx (64 * c.val + x.val)).underrun = false ∧ (s.ctx (64 * c.val + x.val)).unissued u s.now = true)) := by
    rintro (k | k | k | k | ⟨k1, k2, k3⟩)
    · exact k hs
    · exact Bool.noConfusion (hl.symm.trans k)
    · exact absurd k (Int.not_lt.2 hf)
    · exact k ho
    · obtain h | h | h := hw
      · exact Bool.noConfusion (h.symm.trans k1)
      · exact Bool.noConfusion (h.symm.trans k2)
      · exact Bool.noConfusion (h.symm.trans k3)
  change execStreamRetire c x s = _
  unfold execStreamRetire
  dsimp only
  rw [hu]
  dsimp only
  rw [if_neg hno]
  split <;> rfl

theorem exec_streamRetire_early {c : Clus} {x : Ctx} {u : StreamUse} (hu : (s.ctx (64 * c.val + x.val)).use? = some u)
    (h : s.now < (s.ctx (64 * c.val + x.val)).fretOf u.retirement ∨ (s.ctx (64 * c.val + x.val)).outstanding ≠ 0) :
    exec (.streamRetire c x) s = .next s := by
  change execStreamRetire c x s = _
  unfold execStreamRetire
  dsimp only
  rw [hu]
  dsimp only
  rw [if_pos (.inr (.inr (h.elim .inl fun k => .inr (.inl k))))]

theorem exec_streamQuiesceDone_armed {c : Clus} {x : Ctx} {h : HeldArm} {hs : List HeldArm}
    (hq : (s.ctx (64 * c.val + x.val)).state = .quiesce) (ho : (s.ctx (64 * c.val + x.val)).outstanding = 0)
    (hh : (s.ctx (64 * c.val + x.val)).held = h :: hs) :
    ∃ t, exec (.streamQuiesceDone c x) s = .next t ∧ s.Only t [.cluss, .ctxs, .tasks] ∧
      (t.ctx (64 * c.val + x.val)).state = .armed ∧ (t.ctx (64 * c.val + x.val)).task = h.task ∧
      (t.ctx (64 * c.val + x.val)).launch = h.launch ∧ (t.ctx (64 * c.val + x.val)).uses = h.uses ∧
      (t.ctx (64 * c.val + x.val)).held = hs := by
  refine ⟨_, if_pos ⟨hq, ho⟩, ctxIdle_only .., ?_⟩
  rw [ctxIdle_arm hh]
  obtain ⟨hstate, htask, hlaunch, huses, hheld⟩ :=
    armIdle_ctx (s := (s.updCtx (64 * c.val + x.val) CtxSt.idled).updCtx (64 * c.val + x.val) fun x => { x with held := hs })
      (64 * c.val + x.val) h
  rw [updCtx_ctx_self] at hheld
  exact ⟨hstate, htask, hlaunch, huses, hheld⟩

/-- Settles O16: each event acts in its fret on the context's use, and in no other. -/
theorem streamContextsRun : Obligations.StreamContextsRun := by
  unfold Obligations.StreamContextsRun
  refine ⟨?_, ?_, ?_, ?_, ?_, ?_, ?_, ?_, ?_, ?_, ?_, ?_, ?_, ?_, ?_, ?_, ?_, ?_⟩
  · rintro s c x u _ rfl hu hf hs ha
    exact streamActivate_starts hu hf hs ha
  · rintro s c x u _ rfl hu hf hs ha hc
    exact exec_streamActivate_conflict hu hf hs ha hc
  · rintro s c x u _ h rfl hu hf hh
    exact exec_streamActivate_late hu hf hh
  · rintro s c x u _ rfl hu hk hs hl hn hf ha
    exact exec_drawerIssue_read hu hk hs hl hn hf ha
  · rintro s c x u _ rfl hu hs hl hn hf ha
    exact ⟨fun g hk hg => exec_drawerIssue_gather hu hk hg hs hl hn hf ha, fun v hk hv => exec_drawerIssue_kv hu hk hv hs hl hn hf ha⟩
  · rintro s c x u _ rfl hu hf
    exact exec_drawerIssue_early hu hf
  · rintro s c x u k _ rfl hu hw hs hl hk hp hf ha hd
    exact exec_readDrawerDue_underrun hu hw hs hl hk hp hf ha hd
  · rintro s c x u k f _ d rfl hu hw hs hl hk hp hf hd hfull hlt
    exact exec_readDrawerDue_full hu hw hs hl hk hp hf hd hfull hlt
  · rintro s c x obs u _ rfl hu hw hs hl hn hf ha
    exact exec_writeDrawerFillCheck_due hu hw hs hl hn hf ha
  · rintro s c x obs u _ rfl hu hf
    exact exec_writeDrawerFillCheck_early hu hf
  · rintro s c x u _ rfl hu hw hs ha hun
    obtain ⟨hunder, hslack, habort⟩ := underrun_reads (busy_of_alive ha)
    exact ⟨_, exec_writeDrawerDeadline hu hw hs ha (.inl hun), underrun_only .., hunder, hslack, habort⟩
  · rintro s c x u _ d rfl hu hw hs ha he hd hdue hack
    obtain ⟨hunder, -, habort⟩ := underrun_reads (busy_of_alive ha)
    have hany : ((s.ctx (64 * c.val + x.val)).drawers.any fun d => d.due && decide (d.acked < d.want)) = true :=
      List.any_eq_true.2 ⟨d, hd, by rw [hdue, decide_eq_true hack]; rfl⟩
    refine ⟨_, exec_writeDrawerDeadline hu hw hs ha (.inr ?_), underrun_only .., hunder, habort⟩
    rw [decide_eq_true he, hany]
    rfl
  · rintro s c x u _ rfl hu hun he
    exact exec_writeDrawerDeadline_none hu hun he
  · rintro s c x u _ rfl hu hs hl hf ho hw
    exact exec_streamRetire_due hu hs hl hf ho hw
  · rintro s c x u _ rfl hu h
    exact exec_streamRetire_early hu h
  · rintro s c x _ rfl hq ho hh
    have hdone : exec (.streamQuiesceDone c x) s = .next (s.ctxIdle (64 * c.val + x.val)) := if_pos ⟨hq, ho⟩
    exact hdone.trans (congrArg Host.Outcome.next (ctxIdle_noArm hh))
  · rintro s c x _ h hs rfl hq ho hh
    exact exec_streamQuiesceDone_armed hq ho hh
  · intro s c x h
    exact if_neg fun k => h.elim (fun q => q k.1) fun q => q k.2

end Sys2Proof.Machine
end

section
/-!
PROOFS. The list predictor: hints and the pages read ahead (06 R304 to R308, R312, R353): O17.
-/

set_option Elab.async false

namespace Sys2Proof.Machine

variable {s : State}

/-! ### Two changes of one unit -/

theorem Tab.upd_upd {α : Type} (d : α) (t : Tab α) (k : Nat) (f g : α → α) :
    Tab.upd d (Tab.upd d t k f) k g = Tab.upd d t k fun x => g (f x) := by
  unfold Tab.upd
  rw [Tab.get_put_self, Tab.put_put]

theorem updCtx_updCtx (s : State) (n : Nat) (f g : CtxSt → CtxSt) : (s.updCtx n f).updCtx n g = s.updCtx n fun x => g (f x) :=
  congrArg (fun t => { s with ctxs := t }) (Tab.upd_upd {} s.ctxs n f g)

theorem updPart_updPart (s : State) (n : Nat) (f g : PartSt → PartSt) : (s.updPart n f).updPart n g = s.updPart n fun x => g (f x) :=
  congrArg (fun t => { s with parts := t }) (Tab.upd_upd {} s.parts n f g)

/-! ### Hints that arrive -/

/-- A hint is kept where there is room for it and its window has not passed. -/
def CtxSt.takeHint (now : Nat) (h : Word × Nat) (y : CtxSt) (u : StreamUse) : CtxSt :=
  if 64 ≤ y.hints.length ∨ h.2 < 2 ∨ h.2 < y.next ∨ y.issueFret u h.2 < now then y else { y with hints := y.hints ++ [h] }

theorem takeHint_hints (now : Nat) (h : Word × Nat) (y : CtxSt) (u : StreamUse) :
    y.takeHint now h u =
      { y with hints := if 64 ≤ y.hints.length ∨ h.2 < 2 ∨ h.2 < y.next ∨ y.issueFret u h.2 < now then y.hints else y.hints ++ [h] } := by
  unfold CtxSt.takeHint
  split <;> rfl

theorem exec_lpHintArrive {r : State} {c : Clus} {x : Ctx} {u : StreamUse} {g : GatherCfg} {m : RecSt} {h : Word × Nat}
    (hu : (s.ctx (64 * c.val + x.val)).use? = some u) (hg : u.gather = some g) (hk : g.lpKey.isSome = true)
    (hs : (s.ctx (64 * c.val + x.val)).state ≠ .idle)
    (hserve : s.serves (useLt (64 * c.val + x.val) u) (s.ctx (64 * c.val + x.val)).task = true)
    (htake : s.takeMessage (useLt (64 * c.val + x.val) u) u.fold g.hintInput = some (m, r)) (hh : hintsOf m.body = [h]) :
    exec (.lpHintArrive c x) s = .next (r.updCtx (64 * c.val + x.val) fun y => y.takeHint r.now h u) := by
  have hno : ¬ (g.lpKey.isNone = true ∨ (s.ctx (64 * c.val + x.val)).state = .idle ∨
      s.serves (useLt (64 * c.val + x.val) u) (s.ctx (64 * c.val + x.val)).task = false) := by
    rw [hserve, Option.isNone_eq_false_iff.2 hk]
    exact fun k => k.elim Bool.noConfusion fun k => k.elim hs Bool.noConfusion
  change execLpHintArrive c x s = _
  unfold execLpHintArrive
  dsimp only
  rw [hu]
  dsimp only
  rw [hg]
  dsimp only
  rw [if_neg hno, htake]
  dsimp only
  rw [hh]
  rfl

theorem exec_lpHintArrive_none {c : Clus} {x : Ctx} {u : StreamUse} {g : GatherCfg}
    (hu : (s.ctx (64 * c.val + x.val)).use? = some u) (hg : u.gather = some g)
    (h : g.lpKey = none ∨ (s.ctx (64 * c.val + x.val)).state = .idle ∨
      s.serves (useLt (64 * c.val + x.val) u) (s.ctx (64 * c.val + x.val)).task = false ∨
      s.takeMessage (useLt (64 * c.val + x.val) u) u.fold g.hintInput = none) :
    exec (.lpHintArrive c x) s = .next s := by
  change execLpHintArrive c x s = _
  unfold execLpHintArrive
  dsimp only
  rw [hu]
  dsimp only
  rw [hg]
  dsimp only
  split
  · rfl
  · next hno =>
    obtain h | h | h | h := h
    · exact absurd (.inl (by rw [h]; rfl)) hno
    · exact absurd (.inr (.inl h)) hno
    · exact absurd (.inr (.inr h)) hno
    · rw [h]

/-! ### Hints that are used -/

/-- The hint window of a context's next drawer is open, and a hint for it is held. -/
structure State.Hinted (s : State) (key : Nat) (u : StreamUse) (g : GatherCfg) (h : Word × Nat) : Prop where
  use : (s.ctx key).use? = some u
  gather : u.gather = some g
  hint : ((s.ctx key).hints.find? fun e => e.2 = (s.ctx key).next) = some h
  second : 2 ≤ (s.ctx key).next
  last : (s.ctx key).next < u.n
  from_ : (s.ctx key).drawerFret u ((s.ctx key).next - 1) ≤ s.now
  upto : s.now ≤ (s.ctx key).issueFret u (s.ctx key).next
  active : (s.ctx key).state = .active
  live : (s.ctx key).live = true
  alive : s.alive (s.ctx key).task = true

/-- What a hint in its window does: a drawer's second is discarded, and its first is used. -/
theorem exec_lpSpeculate {c : Clus} {x : Ctx} {u : StreamUse} {g : GatherCfg} {h : Word × Nat}
    (H : s.Hinted (64 * c.val + x.val) u g h) :
    exec (.lpSpeculate c x) s =
      (if (s.ctx (64 * c.val + x.val)).hinted.any (fun e => decide (e.1 = (s.ctx (64 * c.val + x.val)).next)) = true then
        .next (s.updCtx (64 * c.val + x.val) fun y => { y with hints := y.hints.erase h })
      else
        let v := s.updCtx (64 * c.val + x.val) fun y =>
          { y with hints := y.hints.erase h, hinted := y.hinted ++ [((s.ctx (64 * c.val + x.val)).next, h.1)] }
        match g.lpKey, Tab.find (s.part (clusPart c.val)).lp (lpIndex h.1) with
        | some lk, some e =>
          if (s.part (clusPart c.val)).lpEnable ∧ e.key = lk ∧ e.tag = lpTag h.1 ∧
              max 1 (s.part (clusPart c.val)).lpThreshold.toNat ≤ e.conf.toNat then
            .next ((v.updCtx (64 * c.val + x.val) fun y =>
              { y with
                drawers := y.drawers.filter (fun d => decide (d.k ≠ (s.ctx (64 * c.val + x.val)).next)) ++
                  [{ k := (s.ctx (64 * c.val + x.val)).next, pages := (e.pages.take (min (gatherPages u g) 4)).map BitVec.toNat }] }).each
              ((e.pages.take (min (gatherPages u g) 4)).map BitVec.toNat).zipIdx fun w p =>
                w.speculatePage (64 * c.val + x.val) g (s.ctx (64 * c.val + x.val)).next p.2 p.1)
          else .next v
        | _, _ => .next v) := by
  obtain ⟨hu, hg, hh, h2, hn, hfrom, hupto, hs, hl, ha⟩ := H
  have hinside : (decide (2 ≤ (s.ctx (64 * c.val + x.val)).next) && decide ((s.ctx (64 * c.val + x.val)).next < u.n) &&
      decide ((s.ctx (64 * c.val + x.val)).drawerFret u ((s.ctx (64 * c.val + x.val)).next - 1) ≤ s.now) &&
      decide ((s.now : Int) ≤ (s.ctx (64 * c.val + x.val)).issueFret u (s.ctx (64 * c.val + x.val)).next)) = true := by
    rw [decide_eq_true h2, decide_eq_true hn, decide_eq_true hfrom, decide_eq_true hupto]
    rfl
  have hno : ¬ ((s.ctx (64 * c.val + x.val)).state ≠ .active ∨ (s.ctx (64 * c.val + x.val)).live = false ∨ true = false ∨
      s.alive (s.ctx (64 * c.val + x.val)).task = false) := by
    rw [hl, ha]
    exact fun k => k.elim (fun k => k hs) fun k => k.elim Bool.noConfusion fun k => k.elim Bool.noConfusion Bool.noConfusion
  change execLpSpeculate c x s = _
  unfold execLpSpeculate
  dsimp only
  rw [hu]
  dsimp only
  rw [hg, hh]
  dsimp only
  rw [hinside, if_neg hno]
  rfl

theorem exec_lpSpeculate_unlisted {c : Clus} {x : Ctx} {u : StreamUse} {g : GatherCfg} {h : Word × Nat}
    (H : s.Hinted (64 * c.val + x.val) u g h)
    (hd : ((s.ctx (64 * c.val + x.val)).hinted.any fun e => decide (e.1 = (s.ctx (64 * c.val + x.val)).next)) = false)
    (he : Tab.find (s.part (clusPart c.val)).lp (lpIndex h.1) = none) :
    exec (.lpSpeculate c x) s = .next (s.updCtx (64 * c.val + x.val) fun y =>
      { y with hints := y.hints.erase h, hinted := y.hinted ++ [((s.ctx (64 * c.val + x.val)).next, h.1)] }) := by
  rw [exec_lpSpeculate H, hd, if_neg Bool.false_ne_true, he]
  cases g.lpKey <;> rfl

theorem exec_lpSpeculate_listed {c : Clus} {x : Ctx} {u : StreamUse} {g : GatherCfg} {h : Word × Nat} {lk : BitVec 8} {e : LpEnt}
    (H : s.Hinted (64 * c.val + x.val) u g h)
    (hd : ((s.ctx (64 * c.val + x.val)).hinted.any fun e => decide (e.1 = (s.ctx (64 * c.val + x.val)).next)) = false)
    (hk : g.lpKey = some lk) (he : Tab.find (s.part (clusPart c.val)).lp (lpIndex h.1) = some e)
    (hon : (s.part (clusPart c.val)).lpEnable = true) (hkey : e.key = lk) (htag : e.tag = lpTag h.1)
    (hconf : max 1 (s.part (clusPart c.val)).lpThreshold.toNat ≤ e.conf.toNat) :
    exec (.lpSpeculate c x) s = .next
      ((s.updCtx (64 * c.val + x.val) fun y =>
        { y with
          hints := y.hints.erase h, hinted := y.hinted ++ [((s.ctx (64 * c.val + x.val)).next, h.1)]
          drawers := y.drawers.filter (fun d => decide (d.k ≠ (s.ctx (64 * c.val + x.val)).next)) ++
            [{ k := (s.ctx (64 * c.val + x.val)).next, pages := (e.pages.take (min (gatherPages u g) 4)).map BitVec.toNat }] }).each
        ((e.pages.take (min (gatherPages u g) 4)).map BitVec.toNat).zipIdx fun v p =>
          v.speculatePage (64 * c.val + x.val) g (s.ctx (64 * c.val + x.val)).next p.2 p.1) := by
  rw [exec_lpSpeculate H, hd, if_neg Bool.false_ne_true, he, hk]
  dsimp only
  rw [if_pos ⟨hon, hkey, htag, hconf⟩, updCtx_updCtx]

/-! ### The flush -/

theorem lpCfg_block (p : Part) :
    blockOf (0x400300 + p.val * 0x10000) = some (.part p.val, 0x300) ∧ (0x400300 + p.val * 0x10000) % 4 = 0 := by
  unfold blockOf
  refine ⟨?_, by omega⟩
  rw [if_neg (by omega), if_neg (by omega), if_neg (by omega), if_neg (by omega), if_pos (by omega)]
  have hpart : (0x400300 + p.val * 0x10000 - 0x400000) / 0x10000 = p.val := by omega
  have hoff : (0x400300 + p.val * 0x10000) % 0x10000 = 0x300 := by omega
  rw [hpart, hoff]

theorem lpCfg_has (p : Nat) : blockHas (.part p) 0x300 = true := rfl

theorem lpCfg_write (w : Writer) (p : Nat) (v : Word) : s.blockWrite w (.part p) 0x300 v = s.writeLpCfg p v := rfl

theorem bit_setField_flush (v : Word) : bit (setField v 30 1 1) 30 = true := by
  unfold bit
  rw [getLsbD_setField v (by decide) (by decide)]
  rfl

theorem exec_lpFlush {acc : Accessor} (p : Part) (v : Word) (hm : s.mayWrite acc = true) (h4 : s.passed 4 = true) :
    exec (.lpFlush acc p v) s = .next (s.updPart p fun q => { q with lpEnable := bit v 31, lpThreshold := v.extractLsb' 16 3, lp := [] }) := by
  change execLpFlush acc p v s = _
  unfold execLpFlush
  rw [accWrite_may (lpCfg_block p).2 (lpCfg_block p).1 (lpCfg_has p) (regAnswers_of_answers (fun k => nomatch k) h4) hm, lpCfg_write]
  unfold State.writeLpCfg
  rw [bit_setField_flush, bit_setField v (by decide) (by decide) (by decide),
    extract_setField v (by decide) (by decide) (by decide)]
  exact congrArg Host.Outcome.next (updPart_updPart ..)

/-- Settles O17: a hint is kept or discarded as it arrives, and in its window a drawer's first hint is used. -/
theorem listPredictorTakesHints : Obligations.ListPredictorTakesHints := by
  unfold Obligations.ListPredictorTakesHints
  refine ⟨?_, ?_, ?_, ?_, ?_, fun s acc p v hm h4 => exec_lpFlush p v hm h4⟩
  · rintro s r c x u g m h d _ rfl hu hg hk hs hserve htake hh
    have honly : s.Only r [.mch] := takeMessage_only htake
    have hnow : r.now = s.now := by unfold State.now; rw [honly.fret]
    refine ⟨_, exec_lpHintArrive hu hg hk hs hserve htake hh, only_updCtx (honly.in) (by decide), rfl, ?_⟩
    rw [updCtx_ctx_self, ctx_congr honly.ctxs, takeHint_hints, hnow]
  · rintro s c x u g _ rfl hu hg h
    exact exec_lpHintArrive_none hu hg h
  · rintro s c x u g h _ rfl hu hg hh h2 hn hfrom hupto hs hl ha hd he
    exact exec_lpSpeculate_unlisted ⟨hu, hg, hh, h2, hn, hfrom, hupto, hs, hl, ha⟩ hd he
  · rintro s c x u g h _ lk e rfl hu hg hh h2 hn hfrom hupto hs hl ha hd hk he hon hkey htag hconf
    exact exec_lpSpeculate_listed ⟨hu, hg, hh, h2, hn, hfrom, hupto, hs, hl, ha⟩ hd hk he hon hkey htag hconf
  · rintro s c x u g h _ rfl hu hg hh h2 hn hfrom hupto hs hl ha hd
    rw [exec_lpSpeculate ⟨hu, hg, hh, h2, hn, hfrom, hupto, hs, hl, ha⟩, if_pos hd]

end Sys2Proof.Machine
end

section
/-!
PROOFS. The sender of a connection (07 R364 to R369, R378 to R394): O19.
-/

set_option Elab.async false

namespace Sys2Proof.Machine

variable {s : State}

/-! ### What the operations of a sender leave of its connection -/

theorem notice_conn (n type : Nat) (st : Status) (d x m : Nat) : (s.notice n type st d x).conn m = s.conn m :=
  conn_congr (notice_only ..).mch m

theorem routeOf_updConn {n : Nat} {f : ConnSt → ConnSt} (hchip : (f (s.conn n)).chip = (s.conn n).chip)
    (hkind : (f (s.conn n)).srcKind = (s.conn n).srcKind) (hep : (f (s.conn n)).srcEp = (s.conn n).srcEp) :
    (s.updConn n f).routeOf n = s.routeOf n := by
  unfold State.routeOf
  dsimp only
  rw [updConn_conn_self, hchip, hkind, hep]
  rfl

/-- A connection that is asked for: the next serial, and its counters at 0. -/
def ConnSt.asked (c : ConnSt) (now : Nat) : ConnSt :=
  { c with
    state := .opening, serial := c.serial + 1, seq := 0, sent := 0, stall := 0, naks := 0, refused := 0, outst := 0
    sentUnits := 0, units := [], waiting := [], marker := none, cuts := 0, openedAt := now }

theorem openConn_open {n : Nat} (h : (s.conn n).state ≠ .closed) : s.openConn n = s := by
  unfold State.openConn
  exact if_pos h

theorem openConn_routed {n : Nat} (h : (s.conn n).state = .closed)
    (hr : s.routeOk (s.conn n).srcKind (s.conn n).srcEp (s.conn n).chip = true) :
    ∃ x, s.openConn n = (s.updConn n fun c => c.asked s.ticks).emit x := by
  unfold State.openConn
  rw [if_neg (not_not_intro h)]
  extract_lets a c
  have hc : c = (s.conn n).asked s.ticks := updConn_conn_self ..
  have hroute : a.routeOk c.srcKind c.srcEp c.chip = true := by rw [hc]; exact hr
  rw [if_pos hroute]
  exact ⟨_, rfl⟩

theorem openConn_unrouted {n : Nat} (h : (s.conn n).state = .closed)
    (hr : s.routeOk (s.conn n).srcKind (s.conn n).srcEp (s.conn n).chip = false) :
    (s.openConn n).conn n =
      { (s.conn n).asked s.ticks with state := .closed, lastStatus := BitVec.ofNat 8 Status.routeCut.code, detail := 8 } := by
  unfold State.openConn
  rw [if_neg (not_not_intro h)]
  extract_lets a c b
  have hc : c = (s.conn n).asked s.ticks := updConn_conn_self ..
  have hroute : a.routeOk c.srcKind c.srcEp c.chip = false := by rw [hc]; exact hr
  have hb : b.conn n = { c with state := .closed, lastStatus := BitVec.ofNat 8 Status.routeCut.code, detail := 8 } := updConn_conn_self ..
  rw [if_neg (fun k => Bool.noConfusion (hroute.symm.trans k)), notice_conn, hb, hc]

/-- A connection as its sender sends one message of `r` units. -/
def ConnSt.sends (c : ConnSt) (seq : BitVec 32) (r : Nat) : ConnSt :=
  { c with
    seq := c.seq + 1
    sent := satAdd c.sent 1
    units := Tab.put c.units seq.toNat r
    outst := if c.nak then 0 else c.outst + BitVec.ofNat 16 r
    sentUnits := if c.nak then c.sentUnits else c.sentUnits + BitVec.ofNat 32 r }

theorem transmit_conn (n m : Nat) (w : Waiting) :
    (s.transmit n w).conn m =
      if m = n then (s.conn n).sends (if w.kind = 3 then BitVec.ofNat 32 w.round else (s.conn n).seq) (recUnits w.body.length)
      else s.conn m := by
  unfold State.transmit
  rw [updConn_conn]
  rfl

/-- The marker goes out on a connection that is DRAINING alone. -/
theorem markIfDone_live {n : Nat} (h : (s.conn n).state ≠ .draining) : s.markIfDone n = s := by
  unfold State.markIfDone
  exact if_neg fun k => h k.1

/-- Only the marker changes as it goes out. -/
theorem markIfDone_conn (n : Nat) : ∃ m, (s.markIfDone n).conn n = { s.conn n with marker := m } := by
  unfold State.markIfDone
  extract_lets c
  split
  · exact ⟨some s.now, updConn_conn_self ..⟩
  · exact ⟨(s.conn n).marker, rfl⟩

theorem markIfDone_marks {n : Nat} (hs : (s.conn n).state = .draining) (hw : (s.conn n).waiting = []) (hr : s.resultFor n = false)
    (hm : (s.conn n).marker = none) :
    s.markIfDone n =
      (s.emit (.closeMarker (s.conn n).chip (s.routeOf n) (s.conn n).queue (BitVec.ofNat 12 n) (s.conn n).serial)).updConn n
        fun c => { c with marker := some s.now } := by
  unfold State.markIfDone
  exact if_pos ⟨hs, hw, hr, hm⟩

theorem flush_idle {n : Nat} (h : (s.conn n).waiting = []) : s.flush n = s.markIfDone n := by
  unfold State.flush
  rw [h]
  rfl

/-- A message that leaves changes neither the state of its connection nor the grant. -/
structure ConnSt.SameLink (c d : ConnSt) : Prop where
  state : d.state = c.state
  grant : d.grant = c.grant

theorem ConnSt.SameLink.trans {c d e : ConnSt} (h : c.SameLink d) (k : d.SameLink e) : c.SameLink e :=
  ⟨k.state.trans h.state, k.grant.trans h.grant⟩

theorem markIfDone_sameLink (s : State) (n : Nat) : (s.conn n).SameLink ((s.markIfDone n).conn n) := by
  obtain ⟨m, h⟩ := markIfDone_conn (s := s) n
  rw [h]
  exact ⟨rfl, rfl⟩

theorem flushConn_sameLink (k : Nat) (s : State) (n : Nat) : (s.conn n).SameLink ((State.flushConn k s n).conn n) := by
  induction k generalizing s with
  | zero => exact markIfDone_sameLink s n
  | succ k ih =>
    unfold State.flushConn
    extract_lets c
    split
    · exact markIfDone_sameLink s n
    next w ws hw =>
    have hdrop : (s.updConn n fun c => { c with waiting := ws }).conn n = { s.conn n with waiting := ws } := updConn_conn_self ..
    split
    · refine ConnSt.SameLink.trans ?_ (ih _)
      unfold State.refuse
      rw [updConn_conn_self, hdrop]
      exact ⟨rfl, rfl⟩
    split
    · refine ConnSt.SameLink.trans ?_ (ih _)
      rw [transmit_conn, if_pos rfl, hdrop]
      exact ⟨rfl, rfl⟩
    · exact ⟨rfl, rfl⟩

theorem flush_sameLink (s : State) (n : Nat) : (s.conn n).SameLink ((s.flush n).conn n) := flushConn_sameLink _ s n

/-- Messages that are refused leave their connection but for what it counts and shows of them. -/
theorem refuseWaiting_conn (s : State) (n : Nat) :
    ∃ r l d, (s.refuseWaiting n).conn n = { s.conn n with waiting := [], refused := r, lastStatus := l, detail := d } := by
  unfold State.refuseWaiting
  extract_lets k a
  have ha : a.conn n = { s.conn n with waiting := [] } := updConn_conn_self ..
  refine State.each_keeps (P := fun u : State =>
    ∃ r l d, u.conn n = { s.conn n with waiting := [], refused := r, lastStatus := l, detail := d }) (fun u i hu => ?_) (List.range k)
    ⟨(s.conn n).refused, (s.conn n).lastStatus, (s.conn n).detail, ha⟩
  obtain ⟨r, l, d, h⟩ := hu
  refine ⟨satAdd r 1, BitVec.ofNat 8 Status.nakStale.code, 5, ?_⟩
  unfold State.refuse
  rw [updConn_conn_self, h]

/-! ### The control register -/

/-- The fields of MCH_CONN_CTL but for its operation. -/
def ConnSt.setCtl (c : ConnSt) (v : Word) : ConnSt :=
  { c with nak := if c.state = .closed then bit v 27 else c.nak, closeLost := c.closeLost && !bit v 1, timeout := c.timeout && !bit v 0 }

def State.setConnCtl (s : State) (n : Nat) (v : Word) : State :=
  (s.updClosed n fun c => { c with nak := bit v 27 }).updConn n fun c =>
    { c with closeLost := clearBit c.closeLost v 1, timeout := clearBit c.timeout v 0 }

theorem updClosed_conn (n m : Nat) (f : ConnSt → ConnSt) :
    (s.updClosed n f).conn m = if m = n ∧ (s.conn n).state = .closed then f (s.conn n) else s.conn m := by
  unfold State.updClosed
  by_cases h : (s.conn n).state = .closed
  · rw [decide_eq_true h, State.when_true, updConn_conn]
    simp only [h, and_true]
  · rw [decide_eq_false h, State.when_false, if_neg fun k => h k.2]

theorem setConnCtl_conn (n : Nat) (v : Word) : (s.setConnCtl n v).conn n = (s.conn n).setCtl v := by
  unfold State.setConnCtl
  rw [updConn_conn_self, updClosed_conn]
  unfold ConnSt.setCtl
  by_cases h : (s.conn n).state = .closed
  · rw [if_pos ⟨rfl, h⟩, if_pos h]
    rfl
  · rw [if_neg fun k => h k.2, if_neg h]
    rfl

theorem setConnCtl_other {n m : Nat} (h : m ≠ n) (v : Word) : (s.setConnCtl n v).conn m = s.conn m := by
  unfold State.setConnCtl
  rw [updConn_conn, if_neg h, updClosed_conn, if_neg fun k => h k.1]

theorem setConnCtl_only (s : State) (n : Nat) (v : Word) : s.Only (s.setConnCtl n v) [.mch] :=
  only_updConn (updClosed_only ..) (by decide)

theorem setConnCtl_setField (n : Nat) (v : Word) {op : Nat} (h : op < 2 ^ 4) : s.setConnCtl n (setField v 28 4 op) = s.setConnCtl n v := by
  unfold State.setConnCtl clearBit
  rw [bit_setField v h (by decide) (by decide), bit_setField v h (by decide) (by decide), bit_setField v h (by decide) (by decide)]

theorem accWrite_connCtl {acc : Accessor} (hm : s.mayWrite acc = true) (h4 : s.passed 4 = true) (v : Word) :
    s.accWrite acc 0xB0004 v = s.writeConnCtl (s.mch.connSel.get acc).toNat v :=
  accWrite_may (b := .mch) (o := 0x004) rfl rfl rfl (regAnswers_of_answers (by decide) h4) hm

theorem exec_connOpen {acc : Accessor} (hm : s.mayWrite acc = true) (h4 : s.passed 4 = true) (v : Word) :
    exec (.connOpen acc v) s =
      .next ((s.setConnCtl (s.mch.connSel.get acc).toNat v).openConn (s.mch.connSel.get acc).toNat) := by
  refine congrArg Host.Outcome.next ((accWrite_connCtl hm h4 _).trans ?_)
  rw [← setConnCtl_setField (op := 1) _ v (by decide)]
  unfold State.writeConnCtl
  rw [extract_setField_self v (by decide) (by decide)]
  rfl

theorem exec_connClose {acc : Accessor} (hm : s.mayWrite acc = true) (h4 : s.passed 4 = true) (v : Word) :
    exec (.connClose acc v) s =
      .next ((s.setConnCtl (s.mch.connSel.get acc).toNat v).closeConn (s.mch.connSel.get acc).toNat) := by
  refine congrArg Host.Outcome.next ((accWrite_connCtl hm h4 _).trans ?_)
  rw [← setConnCtl_setField (op := 2) _ v (by decide)]
  unfold State.writeConnCtl
  rw [extract_setField_self v (by decide) (by decide)]
  rfl

theorem setCtl_closed {c : ConnSt} (h : c.state = .closed) (v : Word) :
    c.setCtl v = { c with nak := bit v 27, closeLost := c.closeLost && !bit v 1, timeout := c.timeout && !bit v 0 } := by
  unfold ConnSt.setCtl
  rw [if_pos h]

theorem setCtl_open {c : ConnSt} (h : c.state ≠ .closed) (v : Word) :
    c.setCtl v = { c with closeLost := c.closeLost && !bit v 1, timeout := c.timeout && !bit v 0 } := by
  unfold ConnSt.setCtl
  rw [if_neg h]

/-- The fields of the control register change no route. -/
theorem setConnCtl_routeOk (n : Nat) (v : Word) (k : BitVec 3) (ep : BitVec 14) (chip : BitVec 10) :
    (s.setConnCtl n v).routeOk k ep chip = s.routeOk k ep chip := by
  have honly : s.Only (s.setConnCtl n v) [.mch] := setConnCtl_only ..
  have hq : (s.setConnCtl n v).mch.queues = s.mch.queues := by
    unfold State.setConnCtl State.updClosed
    cases decide ((s.conn n).state = .closed) <;> rfl
  unfold State.routeOk State.senderLeg State.route State.queue
  rw [honly.fret, honly.spn, hq]

theorem connOpen_unrouted {n : Nat} (v : Word) (h : (s.conn n).state = .closed)
    (hr : s.routeOk (s.conn n).srcKind (s.conn n).srcEp (s.conn n).chip = false) :
    (((s.setConnCtl n v).openConn n).conn n).state = .closed ∧
      (((s.setConnCtl n v).openConn n).conn n).lastStatus = BitVec.ofNat 8 Status.routeCut.code ∧
      (((s.setConnCtl n v).openConn n).conn n).detail = 8 := by
  have hc : (s.setConnCtl n v).conn n = (s.conn n).setCtl v := setConnCtl_conn n v
  rw [openConn_unrouted (by rw [hc]; exact h) (by rw [setConnCtl_routeOk, hc]; exact hr)]
  exact ⟨rfl, rfl, rfl⟩

theorem connOpen_routed {n : Nat} (v : Word) (h : (s.conn n).state = .closed)
    (hr : s.routeOk (s.conn n).srcKind (s.conn n).srcEp (s.conn n).chip = true) :
    ∃ t, (s.setConnCtl n v).openConn n = t ∧ s.Only t [.mch, .out] ∧ (t.conn n).state = .opening ∧
      (t.conn n).serial = (s.conn n).serial + 1 ∧ (t.conn n).nak = bit v 27 ∧ (t.conn n).seq = 0 ∧ (t.conn n).outst = 0 ∧
      t.out.length = s.out.length + 1 ∧ ∀ k, k ≠ n → t.conn k = s.conn k := by
  have hc : (s.setConnCtl n v).conn n =
      { s.conn n with nak := bit v 27, closeLost := (s.conn n).closeLost && !bit v 1, timeout := (s.conn n).timeout && !bit v 0 } :=
    (setConnCtl_conn n v).trans (setCtl_closed h v)
  have honly : s.Only (s.setConnCtl n v) [.mch] := setConnCtl_only ..
  obtain ⟨x, ht⟩ := openConn_routed (s := s.setConnCtl n v) (n := n) (by rw [hc]; exact h) (by rw [setConnCtl_routeOk, hc]; exact hr)
  have hconn : ((s.setConnCtl n v).updConn n fun c => c.asked (s.setConnCtl n v).ticks).conn n =
      ((s.setConnCtl n v).conn n).asked (s.setConnCtl n v).ticks := updConn_conn_self ..
  refine ⟨_, ht, only_emit (only_updConn (honly.in) (by decide)) (by decide), ?_, ?_, ?_, ?_, ?_, ?_, fun k hk => ?_⟩
  · exact (congrArg ConnSt.state hconn :)
  · refine (congrArg ConnSt.serial hconn :).trans ?_
    rw [hc]
    rfl
  · refine (congrArg ConnSt.nak hconn :).trans ?_
    rw [hc]
    rfl
  · exact (congrArg ConnSt.seq hconn :)
  · exact (congrArg ConnSt.outst hconn :)
  · rw [show (((s.setConnCtl n v).updConn n fun c => c.asked (s.setConnCtl n v).ticks).emit x).out = x :: (s.setConnCtl n v).out from rfl,
      honly.out, List.length_cons]
  · refine Eq.trans (b := ((s.setConnCtl n v).updConn n fun c => c.asked (s.setConnCtl n v).ticks).conn k) rfl ?_
    rw [updConn_conn, if_neg hk, setConnCtl_other hk]

theorem setConnCtl_resultFor (n : Nat) (v : Word) : (s.setConnCtl n v).resultFor n = s.resultFor n := by
  unfold State.resultFor
  rw [(setConnCtl_only s n v).sess]

theorem setConnCtl_routeOf (n : Nat) (v : Word) (h : (s.conn n).state ≠ .closed) : (s.setConnCtl n v).routeOf n = s.routeOf n := by
  have hclosed : s.updClosed n (fun c => { c with nak := bit v 27 }) = s := by
    unfold State.updClosed
    rw [decide_eq_false h, State.when_false]
  unfold State.setConnCtl
  rw [hclosed]
  exact routeOf_updConn rfl rfl rfl

/-! ### CLOSE -/

theorem closeConn_drains {n : Nat} (h : (s.conn n).state = .opened) :
    s.closeConn n = (s.updConn n fun c => { c with state := .draining, cuts := 0, marker := none }).flush n := by
  unfold State.closeConn
  rw [h]

/-- A connection with nothing waiting sends its marker as it is closed. -/
theorem closeConn_marks {n : Nat} (h : (s.conn n).state = .opened) (hw : (s.conn n).waiting = []) (hr : s.resultFor n = false) :
    ∃ u : State, u.conn n = { s.conn n with state := .draining, cuts := 0, marker := none } ∧ u.out = s.out ∧ u.fret = s.fret ∧
      s.closeConn n = (u.emit (.closeMarker (s.conn n).chip (s.routeOf n) (s.conn n).queue (BitVec.ofNat 12 n) (s.conn n).serial)).updConn n
        fun c => { c with marker := some s.now } := by
  have hc : (s.updConn n fun c => { c with state := .draining, cuts := 0, marker := none }).conn n =
      { s.conn n with state := .draining, cuts := 0, marker := none } := updConn_conn_self ..
  have hroute : (s.updConn n fun c => { c with state := .draining, cuts := 0, marker := none }).routeOf n = s.routeOf n :=
    routeOf_updConn rfl rfl rfl
  have hmark := markIfDone_marks (s := s.updConn n fun c => { c with state := .draining, cuts := 0, marker := none }) (n := n)
    (by rw [hc]) (by rw [hc]; exact hw) hr (by rw [hc])
  refine ⟨_, hc, rfl, rfl, ?_⟩
  rw [closeConn_drains h, flush_idle (by rw [hc]; exact hw), hmark, hc, hroute]
  rfl

theorem exec_connClose_marks {acc : Accessor} (v : Word) (hm : s.mayWrite acc = true) (h4 : s.passed 4 = true)
    (h : (s.conn (s.mch.connSel.get acc).toNat).state = .opened) (hw : (s.conn (s.mch.connSel.get acc).toNat).waiting = [])
    (hr : s.resultFor (s.mch.connSel.get acc).toNat = false) :
    ∃ t, exec (.connClose acc v) s = .next t ∧ s.Only t [.mch, .out] ∧
      (t.conn (s.mch.connSel.get acc).toNat).state = .draining ∧
      (t.conn (s.mch.connSel.get acc).toNat).marker = some s.now ∧
      t.out = .closeMarker (s.conn (s.mch.connSel.get acc).toNat).chip (s.routeOf (s.mch.connSel.get acc).toNat)
        (s.conn (s.mch.connSel.get acc).toNat).queue (BitVec.ofNat 12 (s.mch.connSel.get acc).toNat)
        (s.conn (s.mch.connSel.get acc).toNat).serial :: s.out := by
  have hexec := exec_connClose hm h4 v
  revert h hw hr hexec
  generalize (s.mch.connSel.get acc).toNat = n
  intro h hw hr hexec
  have honly : s.Only (s.setConnCtl n v) [.mch] := setConnCtl_only ..
  have hne : (s.conn n).state ≠ .closed := by rw [h]; decide
  have hc : (s.setConnCtl n v).conn n = { s.conn n with closeLost := (s.conn n).closeLost && !bit v 1, timeout := (s.conn n).timeout && !bit v 0 } :=
    (setConnCtl_conn n v).trans (setCtl_open hne v)
  obtain ⟨u, hu, hout, -, hclose⟩ := closeConn_marks (s := s.setConnCtl n v) (n := n) (by rw [hc]; exact h) (by rw [hc]; exact hw)
    ((setConnCtl_resultFor n v).trans hr)
  have hcons : s.Only ((s.setConnCtl n v).closeConn n) [.mch, .out] := only_closeConn (honly.in) (by decide)
  have hnow : (s.setConnCtl n v).now = s.now := by unfold State.now; rw [honly.fret]
  rw [hc, setConnCtl_routeOf n v hne, hnow] at hclose
  have hend : ((u.emit (.closeMarker (s.conn n).chip (s.routeOf n) (s.conn n).queue (BitVec.ofNat 12 n) (s.conn n).serial)).updConn n
      fun c => { c with marker := some s.now }).conn n = { u.conn n with marker := some s.now } := updConn_conn_self ..
  refine ⟨_, hexec, hcons, ?_, ?_, ?_⟩
  · rw [hclose, hend, hu]
  · rw [hclose, hend]
  · rw [hclose]
    exact congrArg (_ :: ·) (hout.trans honly.out)

theorem exec_connClose_drains {acc : Accessor} (v : Word) (hm : s.mayWrite acc = true) (h4 : s.passed 4 = true)
    (h : (s.conn (s.mch.connSel.get acc).toNat).state = .opened) :
    ∃ t, exec (.connClose acc v) s = .next t ∧ s.Only t [.mch, .out] ∧ (t.conn (s.mch.connSel.get acc).toNat).state = .draining := by
  have hexec := exec_connClose hm h4 v
  revert h hexec
  generalize (s.mch.connSel.get acc).toNat = n
  intro h hexec
  have hc : ((s.setConnCtl n v).conn n).state = .opened := by
    rw [setConnCtl_conn]
    exact h
  refine ⟨_, hexec, only_closeConn ((setConnCtl_only ..).in) (by decide), ?_⟩
  rw [closeConn_drains hc, (flush_sameLink ..).state, updConn_conn_self]

theorem exec_connClose_gone {acc : Accessor} (v : Word) (hm : s.mayWrite acc = true) (h4 : s.passed 4 = true)
    (h : (s.conn (s.mch.connSel.get acc).toNat).state = .closedByPeer) :
    ∃ t, exec (.connClose acc v) s = .next t ∧ s.Only t [.mch] ∧ (t.conn (s.mch.connSel.get acc).toNat).state = .closed := by
  have hexec := exec_connClose hm h4 v
  revert h hexec
  generalize (s.mch.connSel.get acc).toNat = n
  intro h hexec
  have hc : ((s.setConnCtl n v).conn n).state = .closedByPeer := by
    rw [setConnCtl_conn]
    exact h
  have hclose : (s.setConnCtl n v).closeConn n = (s.setConnCtl n v).updConn n fun c => { c with state := .closed } := by
    unfold State.closeConn
    rw [hc]
  rw [hclose] at hexec
  refine ⟨_, hexec, only_updConn ((setConnCtl_only ..).in) (by decide), ?_⟩
  rw [updConn_conn_self]

/-! ### Answers to an OPEN -/

theorem exec_openAckReceive_ok {r : OpenAck} (h : (s.conn r.conn).state = .opening) (hserial : r.serial = (s.conn r.conn).serial)
    (hok : r.status = .ok) :
    ∃ u, s.Only u [.top, .mch, .pcie, .out] ∧ u.conn r.conn = { s.conn r.conn with state := .opened, grant := r.grant, outst := 0 } ∧
      exec (.openAckReceive r) s = .next (u.flush r.conn) := by
  refine ⟨(s.updConn r.conn fun c => { c with state := .opened, grant := r.grant, outst := 0 }).notice r.conn 4 .ok 0 r.grant.toNat,
    only_notice ((updConn_only ..).in) (by decide), ?_, ?_⟩
  · rw [notice_conn, updConn_conn_self]
  · change execOpenAckReceive r s = _
    unfold execOpenAckReceive
    dsimp only
    rw [if_pos ⟨h, decide_eq_true hserial⟩, if_pos hok]

theorem exec_openAckReceive_refused {r : OpenAck} (h : (s.conn r.conn).state = .opening) (hserial : r.serial = (s.conn r.conn).serial)
    (hok : r.status ≠ .ok) :
    exec (.openAckReceive r) s = .next (((s.refuseWaiting r.conn).updConn r.conn fun c =>
      { c with state := .closed, lastStatus := BitVec.ofNat 8 r.status.code, detail := r.detail }).notice r.conn 4 r.status r.detail.toNat 0) := by
  change execOpenAckReceive r s = _
  unfold execOpenAckReceive
  dsimp only
  rw [if_pos ⟨h, decide_eq_true hserial⟩, if_neg hok]

theorem exec_openAckReceive_other {r : OpenAck} (hserial : r.serial ≠ (s.conn r.conn).serial) (hok : r.status = .ok) :
    exec (.openAckReceive r) s = .next { s with out := (.closeMarker (s.conn r.conn).chip (s.routeOf r.conn)
      (s.conn r.conn).queue (BitVec.ofNat 12 r.conn) r.serial :: s.out) } := by
  change execOpenAckReceive r s = _
  unfold execOpenAckReceive
  dsimp only
  rw [decide_eq_false hserial, if_neg fun k => Bool.false_ne_true k.2, if_neg fun k => Bool.false_ne_true k.1, if_pos hok]
  rfl

/-- A connection that is refused what waits and then set closed. -/
theorem refuseWaiting_closed (n : Nat) (f : ConnSt → ConnSt) (k : Nat) (st : Status) (d x : Nat) :
    ∃ r l e, (((s.refuseWaiting n).updConn n f).notice n k st d x).conn n =
      f { s.conn n with waiting := [], refused := r, lastStatus := l, detail := e } := by
  obtain ⟨r, l, e, h⟩ := refuseWaiting_conn s n
  exact ⟨r, l, e, by rw [notice_conn, updConn_conn_self, h]⟩

theorem exec_openTimeout {c : ConnN} (h : (s.conn c).state = .opening) (ht : (s.conn c).openedAt + 2 ^ 20 ≤ s.ticks) :
    ∃ t, exec (.openTimeout c) s = .next t ∧ s.Only t [.top, .mch, .pcie, .out] ∧ (t.conn c).state = .closed ∧
      (t.conn c).timeout = true ∧ (t.conn c).lastStatus = BitVec.ofNat 8 Status.routeCut.code := by
  obtain ⟨r, l, e, hc⟩ := refuseWaiting_closed (s := s) c
    (fun c => { c with state := .closed, lastStatus := BitVec.ofNat 8 Status.routeCut.code, detail := 0, timeout := true }) 7 .routeCut 0 0
  refine ⟨_, if_pos ⟨h, ht⟩, only_notice (only_updConn ((refuseWaiting_only ..).in) (by decide)) (by decide), ?_⟩
  rw [hc]
  exact ⟨rfl, rfl, rfl⟩

/-! ### Messages sent -/

theorem exec_messageSend {c : ConnN} {kind : BitVec 3} {body : List Byte} (h0 : 0 < body.length) (h1 : body.length ≤ 4096)
    (hp : txPort kind = none) (ep : BitVec 14) : exec (.messageSend c kind ep body) s = .next (s.sendOn c kind ep ⟨body, 1, 0⟩) := by
  change execMessageSend c kind ep body s = _
  unfold execMessageSend
  rw [if_neg (by omega), hp]
  rfl

/-- A message on an OPEN connection of its sender that allows it is sent. -/
theorem sendOn_allowed {n : Nat} {kind : BitVec 3} {ep : BitVec 14} {w : Waiting} (hs : (s.conn n).sentBy kind ep = true)
    (ho : (s.conn n).state = .opened) (hn : (s.conn n).nak = false) (hg : recUnits w.body.length ≤ (s.conn n).grant.toNat)
    (hw : (s.conn n).waiting = []) (ha : (s.conn n).allows (recUnits w.body.length) = true) :
    s.sendOn n kind ep w = s.transmit n w := by
  unfold State.sendOn
  dsimp only
  rw [hs, ho, hn, hw, ha]
  exact if_neg (Nat.not_lt.2 hg)

theorem sendOn_nak {n : Nat} {kind : BitVec 3} {ep : BitVec 14} {w : Waiting} (hs : (s.conn n).sentBy kind ep = true)
    (ho : (s.conn n).state = .opened) (hn : (s.conn n).nak = true) : s.sendOn n kind ep w = s.transmit n w := by
  unfold State.sendOn
  dsimp only
  rw [hs, ho, hn]
  rfl

/-- A message waits while its connection opens, and while R378 does not allow it. -/
theorem sendOn_waits {n : Nat} {kind : BitVec 3} {ep : BitVec 14} {w : Waiting} (hs : (s.conn n).sentBy kind ep = true)
    (h : (s.conn n).state = .opening ∨ (s.conn n).state = .opened ∧ (s.conn n).nak = false ∧
      recUnits w.body.length ≤ (s.conn n).grant.toNat ∧
      ((s.conn n).waiting ≠ [] ∨ (s.conn n).allows (recUnits w.body.length) = false)) :
    s.sendOn n kind ep w = s.updConn n fun c => { c with waiting := c.waiting ++ [w] } := by
  unfold State.sendOn
  dsimp only
  obtain ho | ⟨ho, hn, hg, hw⟩ := h
  · rw [hs, ho]
    rfl
  · have hwait : (s.conn n).waiting ≠ [] ∨ (!(s.conn n).allows (recUnits w.body.length)) = true :=
      hw.imp_right fun k => by rw [k]; rfl
    rw [hs, ho, hn]
    exact (if_neg (Nat.not_lt.2 hg)).trans (if_pos hwait)

/-- A message larger than the grant is refused. -/
theorem sendOn_large {n : Nat} {kind : BitVec 3} {ep : BitVec 14} {w : Waiting} (hs : (s.conn n).sentBy kind ep = true)
    (ho : (s.conn n).state = .opened) (hn : (s.conn n).nak = false) (hg : (s.conn n).grant.toNat < recUnits w.body.length) :
    s.sendOn n kind ep w = s.refuse n .nakFull 1 := by
  unfold State.sendOn
  dsimp only
  rw [hs, ho, hn]
  exact if_pos hg

/-- A connection that closes or is closed takes no message. -/
theorem sendOn_closed {n : Nat} {kind : BitVec 3} {ep : BitVec 14} {w : Waiting} (hs : (s.conn n).sentBy kind ep = true)
    (h : (s.conn n).state = .closed ∨ (s.conn n).state = .draining ∨ (s.conn n).state = .closedByPeer) :
    s.sendOn n kind ep w = s.refuse n .nakStale 5 := by
  unfold State.sendOn
  dsimp only
  obtain h | h | h := h <;> rw [hs, h] <;> rfl

theorem sendOn_other {n : Nat} {kind : BitVec 3} {ep : BitVec 14} {w : Waiting} (hs : (s.conn n).sentBy kind ep = false) :
    s.sendOn n kind ep w = s.refuse n .nakStale 0xA := by
  unfold State.sendOn
  dsimp only
  rw [hs]
  rfl

/-- A message of a sender's own, as it leaves. -/
theorem transmit_out (n : Nat) (w : Waiting) :
    (s.transmit n w).out = .message (s.conn n).chip (s.routeOf n) w.kind ⟨s.fret.chip, BitVec.ofNat 12 n, (s.conn n).serial,
      Fin.ofNat 4096 (s.conn n).queue.toNat, if w.kind = 3 then BitVec.ofNat 32 w.round else (s.conn n).seq, w.body, false,
      decide (w.kind = 3), []⟩ :: s.out := rfl

theorem exec_messageSend_allowed {c : ConnN} {kind : BitVec 3} {ep : BitVec 14} {body : List Byte} (h0 : 0 < body.length)
    (h1 : body.length ≤ 4096) (hp : txPort kind = none) (hs : (s.conn c).sentBy kind ep = true) (ho : (s.conn c).state = .opened)
    (hn : (s.conn c).nak = false) (hg : recUnits body.length ≤ (s.conn c).grant.toNat) (hw : (s.conn c).waiting = [])
    (ha : (s.conn c).allows (recUnits body.length) = true) :
    ∃ t, exec (.messageSend c kind ep body) s = .next t ∧ s.Only t [.mch, .out] ∧
      (t.conn c).outst = (s.conn c).outst + BitVec.ofNat 16 (recUnits body.length) ∧
      (t.conn c).seq = (s.conn c).seq + 1 ∧ (∀ k, k ≠ c.val → t.conn k = s.conn k) ∧
      t.out = .message (s.conn c).chip (s.routeOf c) 1 ⟨s.fret.chip, BitVec.ofNat 12 c, (s.conn c).serial,
        Fin.ofNat 4096 (s.conn c).queue.toNat, (s.conn c).seq, body, false, false, []⟩ :: s.out := by
  have hsend := sendOn_allowed (w := ⟨body, 1, 0⟩) hs ho hn hg hw ha
  have hconn : (s.transmit c ⟨body, 1, 0⟩).conn c = (s.conn c).sends (s.conn c).seq (recUnits body.length) := by
    rw [transmit_conn, if_pos rfl]
    rfl
  refine ⟨_, (exec_messageSend h0 h1 hp ep).trans (congrArg _ hsend), transmit_only .., ?_, ?_, fun k hk => ?_, transmit_out ..⟩
  · rw [hconn]
    unfold ConnSt.sends
    rw [hn]
    rfl
  · rw [hconn]
    rfl
  · rw [transmit_conn, if_neg hk]

theorem exec_messageSend_nak {c : ConnN} {kind : BitVec 3} {ep : BitVec 14} {body : List Byte} (h0 : 0 < body.length)
    (h1 : body.length ≤ 4096) (hp : txPort kind = none) (hs : (s.conn c).sentBy kind ep = true) (ho : (s.conn c).state = .opened)
    (hn : (s.conn c).nak = true) :
    ∃ t, exec (.messageSend c kind ep body) s = .next t ∧ s.Only t [.mch, .out] ∧ (t.conn c).outst = 0 ∧
      (t.conn c).seq = (s.conn c).seq + 1 ∧ t.out.length = s.out.length + 1 := by
  have hconn : (s.transmit c ⟨body, 1, 0⟩).conn c = (s.conn c).sends (s.conn c).seq (recUnits body.length) := by
    rw [transmit_conn, if_pos rfl]
    rfl
  refine ⟨_, (exec_messageSend h0 h1 hp ep).trans (congrArg _ (sendOn_nak hs ho hn)), transmit_only .., ?_, ?_, ?_⟩
  · rw [hconn]
    unfold ConnSt.sends
    rw [hn]
    rfl
  · rw [hconn]
    rfl
  · rw [transmit_out, List.length_cons]

theorem exec_messageSend_other {c : ConnN} {kind : BitVec 3} {ep : BitVec 14} {body : List Byte} (h0 : 0 < body.length)
    (h1 : body.length ≤ 4096) (h : txPort kind ≠ none ∨ (s.conn c).sentBy kind ep = false) :
    exec (.messageSend c kind ep body) s = .next (s.refuse c .nakStale 0xA) := by
  by_cases hp : txPort kind = none
  · obtain h | h := h
    · exact absurd hp h
    · exact (exec_messageSend h0 h1 hp ep).trans (congrArg _ (sendOn_other h))
  · change execMessageSend c kind ep body s = _
    unfold execMessageSend
    rw [if_neg (by omega), if_pos (Option.isSome_iff_ne_none.2 hp)]

/-! ### Credit and NAK notices -/

/-- With nothing waiting, a connection's marker alone can change as it is flushed. -/
theorem flush_idle_conn {n : Nat} (h : (s.conn n).waiting = []) : ∃ m, (s.flush n).conn n = { s.conn n with marker := m } := by
  rw [flush_idle h]
  exact markIfDone_conn n

theorem when_notice_conn (c : Bool) (n type : Nat) (st : Status) (d x m : Nat) :
    (s.when c fun s => s.notice n type st d x).conn m = s.conn m := by
  cases c with
  | true => exact notice_conn ..
  | false => rfl

theorem exec_msgCreditReturnReceive {c : ConnN} (total : BitVec 32) (hs : (s.conn c).state = .opened ∨ (s.conn c).state = .draining)
    (hn : (s.conn c).nak = false) (hw : (s.conn c).waiting = []) :
    ∃ t, exec (.msgCreditReturnReceive c (s.conn c).serial total) s = .next t ∧ s.Only t [.top, .mch, .pcie, .out] ∧
      (t.conn c).outst = ((s.conn c).sentUnits - total).setWidth 16 ∧ (t.conn c).state = (s.conn c).state := by
  have hb := (when_notice_conn (s := s.updConn c fun x => { x with outst := ((s.conn c).sentUnits - total).setWidth 16 })
    (decide (((s.conn c).sentUnits - total).setWidth 16 ≠ (s.conn c).outst)) c 1 .ok 0 total.toNat c).trans
    (updConn_conn_self s c fun x => { x with outst := ((s.conn c).sentUnits - total).setWidth 16 })
  obtain ⟨m, h⟩ := flush_idle_conn (s := (s.updConn c fun x => { x with outst := ((s.conn c).sentUnits - total).setWidth 16 }).when
    (decide (((s.conn c).sentUnits - total).setWidth 16 ≠ (s.conn c).outst)) fun s => s.notice c 1 .ok 0 total.toNat)
    (n := c) (by rw [hb]; exact hw)
  refine ⟨_, if_pos ⟨hs, rfl, hn⟩,
    only_flush (only_when ((updConn_only ..).in) (only_notice ((updConn_only ..).in) (by decide))) (by decide), ?_, ?_⟩
  · refine (congrArg ConnSt.outst h :).trans ?_
    rw [hb]
  · refine (congrArg ConnSt.state h :).trans ?_
    rw [hb]

/-- A connection that a NAK notice names: it is counted, with its status and detail. -/
def ConnSt.nakked (c : ConnSt) (m : NakNotice) : ConnSt :=
  { c with naks := satAdd c.naks 1, lastStatus := BitVec.ofNat 8 m.status.code, detail := m.detail }

/-- The units of a message that is not placed come back. -/
def ConnSt.regain (c : ConnSt) (seq : BitVec 32) (r : Nat) : ConnSt :=
  { c with
    outst := BitVec.ofNat 16 (c.outst.toNat - r), sentUnits := c.sentUnits - BitVec.ofNat 32 r
    units := Tab.del c.units seq.toNat }

/-- What a NAK notice on a connection that is not opening does. -/
theorem exec_nakNoticeReceive {m : NakNotice} (hserial : (s.conn m.conn).serial = m.serial) (hs : (s.conn m.conn).state ≠ .opening) :
    exec (.nakNoticeReceive m) s = .next
      ((((((s.updConn m.conn fun c => c.nakked m).when
        (decide (m.status = .nakFull ∨ m.status = .nakFenced ∨ m.status = .routeCut) &&
          decide ((s.conn m.conn).state = .opened ∨ (s.conn m.conn).state = .draining) && !(s.conn m.conn).nak) fun u =>
        u.updConn m.conn fun c => c.regain m.seq (Tab.get 0 (s.conn m.conn).units m.seq.toNat)).when
        (decide (m.status = .nakStale)) (·.peerGone m.conn)).notice m.conn 2 m.status m.detail.toNat m.seq.toNat)).flush m.conn) := by
  change execNakNoticeReceive m s = _
  unfold execNakNoticeReceive
  dsimp only
  rw [if_neg (not_not_intro hserial), if_neg fun k => hs k.1]
  rfl

theorem exec_nakNoticeReceive_back {m : NakNotice} (hserial : (s.conn m.conn).serial = m.serial) (hs : (s.conn m.conn).state = .opened)
    (hn : (s.conn m.conn).nak = false) (hw : (s.conn m.conn).waiting = [])
    (hst : m.status = .nakFull ∨ m.status = .nakFenced ∨ m.status = .routeCut) :
    ∃ t, exec (.nakNoticeReceive m) s = .next t ∧ s.Only t [.top, .mch, .pcie, .out] ∧
      (t.conn m.conn).state = .opened ∧ (t.conn m.conn).naks = satAdd (s.conn m.conn).naks 1 ∧
      (t.conn m.conn).lastStatus = BitVec.ofNat 8 m.status.code ∧ (t.conn m.conn).detail = m.detail ∧
      (t.conn m.conn).outst = BitVec.ofNat 16 ((s.conn m.conn).outst.toNat - Tab.get 0 (s.conn m.conn).units m.seq.toNat) := by
  have hlive : (s.conn m.conn).state = .opened ∨ (s.conn m.conn).state = .draining := .inl hs
  have hstale : m.status ≠ .nakStale := fun k => by rw [k] at hst; exact absurd hst (by decide)
  have hexec := exec_nakNoticeReceive hserial (fun k => ConnState.noConfusion (hs.symm.trans k))
  rw [decide_eq_true hst, decide_eq_true hlive, hn, decide_eq_false hstale] at hexec
  refine ⟨_, hexec, ?_, ?_⟩
  · exact only_flush (only_notice (only_updConn ((updConn_only ..).in) (by decide)) (by decide)) (by decide)
  · simp only [Bool.and_true, Bool.not_false, State.when_true, State.when_false]
    generalize hu : ((s.updConn m.conn fun c => c.nakked m).updConn m.conn fun c =>
      c.regain m.seq (Tab.get 0 (s.conn m.conn).units m.seq.toNat)).notice
      m.conn 2 m.status m.detail.toNat m.seq.toNat = u
    have hconn : u.conn m.conn = ((s.conn m.conn).nakked m).regain m.seq (Tab.get 0 (s.conn m.conn).units m.seq.toNat) := by
      rw [← hu, notice_conn, updConn_conn_self, updConn_conn_self]
    obtain ⟨k, hk⟩ := flush_idle_conn (s := u) (n := m.conn) (by rw [hconn]; exact hw)
    rw [hk, hconn]
    exact ⟨hs, rfl, rfl, rfl, rfl⟩

/-- The peer of an OPEN connection is gone. -/
theorem peerGone_opened {n : Nat} (h : (s.conn n).state = .opened) :
    ∃ r l d, (s.peerGone n).conn n =
      { s.conn n with state := .closedByPeer, outst := 0, waiting := [], refused := r, lastStatus := l, detail := d } := by
  unfold State.peerGone
  rw [h]
  obtain ⟨r, l, d, hr⟩ := refuseWaiting_conn (s.updConn n fun c => { c with state := .closedByPeer, outst := 0 }) n
  rw [updConn_conn_self] at hr
  exact ⟨r, l, d, hr⟩

theorem peerGone_draining {n : Nat} (h : (s.conn n).state = .draining) :
    (s.peerGone n).conn n = { s.conn n with state := .closed, outst := 0, waiting := [] } := by
  unfold State.peerGone
  rw [h]
  exact updConn_conn_self ..

theorem exec_nakNoticeReceive_stale {m : NakNotice} (hserial : (s.conn m.conn).serial = m.serial) (hs : (s.conn m.conn).state = .opened)
    (hst : m.status = .nakStale) :
    ∃ t, exec (.nakNoticeReceive m) s = .next t ∧ s.Only t [.top, .mch, .pcie, .out] ∧
      (t.conn m.conn).state = .closedByPeer ∧ (t.conn m.conn).outst = 0 ∧
      (t.conn m.conn).naks = satAdd (s.conn m.conn).naks 1 := by
  have hexec := exec_nakNoticeReceive hserial (fun k => ConnState.noConfusion (hs.symm.trans k))
  have hback : ¬ (m.status = .nakFull ∨ m.status = .nakFenced ∨ m.status = .routeCut) := by rw [hst]; decide
  rw [decide_eq_false hback, decide_eq_true hst] at hexec
  refine ⟨_, hexec, ?_, ?_⟩
  · exact only_flush (only_notice (only_peerGone ((updConn_only ..).in) (by decide)) (by decide)) (by decide)
  · have hconn : ((s.updConn m.conn fun c => c.nakked m).conn m.conn) = (s.conn m.conn).nakked m := updConn_conn_self ..
    obtain ⟨r, l, d, hr⟩ := peerGone_opened (s := s.updConn m.conn fun c => c.nakked m) (n := m.conn) (by rw [hconn]; exact hs)
    simp only [Bool.false_and, State.when_true, State.when_false]
    generalize hu : (((s.updConn m.conn fun c => c.nakked m).peerGone m.conn).notice m.conn 2 m.status m.detail.toNat m.seq.toNat) = u
    have huc : u.conn m.conn = { (s.conn m.conn).nakked m with
        state := .closedByPeer, outst := 0, waiting := [], refused := r, lastStatus := l, detail := d } := by
      rw [← hu, notice_conn, hr, hconn]
    obtain ⟨k, hk⟩ := flush_idle_conn (s := u) (n := m.conn) (by rw [huc])
    rw [hk, huc]
    exact ⟨rfl, rfl, rfl⟩

theorem exec_nakNoticeReceive_opening {m : NakNotice} (hserial : (s.conn m.conn).serial = m.serial)
    (hs : (s.conn m.conn).state = .opening) (hst : m.status = .routeCut) :
    ∃ t, exec (.nakNoticeReceive m) s = .next t ∧ s.Only t [.top, .mch, .pcie, .out] ∧ (t.conn m.conn).state = .closed ∧
      (t.conn m.conn).lastStatus = BitVec.ofNat 8 Status.routeCut.code ∧ (t.conn m.conn).detail = m.detail := by
  have hexec : exec (.nakNoticeReceive m) s = .next (((s.refuseWaiting m.conn).updConn m.conn fun c =>
      { c with state := .closed, naks := satAdd c.naks 1, lastStatus := BitVec.ofNat 8 m.status.code, detail := m.detail }).notice
        m.conn 4 .routeCut m.detail.toNat 0) := by
    change execNakNoticeReceive m s = _
    unfold execNakNoticeReceive
    dsimp only
    rw [if_neg (not_not_intro hserial), if_pos ⟨hs, hst⟩]
  obtain ⟨r, l, d, hc⟩ := refuseWaiting_closed (s := s) m.conn (fun c =>
    { c with state := .closed, naks := satAdd c.naks 1, lastStatus := BitVec.ofNat 8 m.status.code, detail := m.detail })
    4 .routeCut m.detail.toNat 0
  refine ⟨_, hexec, only_notice (only_updConn ((refuseWaiting_only ..).in) (by decide)) (by decide), ?_⟩
  rw [hc, hst]
  exact ⟨rfl, rfl, rfl⟩

/-! ### The end of a connection -/

theorem exec_staleNoticeReceive {c : ConnN} (h : (s.conn c).state = .opened ∨ (s.conn c).state = .draining) :
    exec (.staleNoticeReceive c (s.conn c).serial) s = .next ((s.peerGone c).notice c 6 .nakStale 5 0) := if_pos ⟨rfl, h⟩

theorem exec_closeMarkerResend {c : ConnN} {k : Nat} (hs : (s.conn c).state = .draining) (hm : (s.conn c).marker = some k)
    (hnow : s.now % 1024 = 0) (hk : (k / 1024 + 2) * 1024 ≤ s.now) :
    exec (.closeMarkerResend c) s =
      (if (s.conn c).cuts + 1 < 16 then
        .next ((s.emit (.closeMarker (s.conn c).chip (s.routeOf c) (s.conn c).queue (BitVec.ofNat 12 c) (s.conn c).serial)).updConn c
          fun x => { x with cuts := x.cuts + 1, marker := some s.now })
      else .next ((((s.emit (.closeMarker (s.conn c).chip (s.routeOf c) (s.conn c).queue (BitVec.ofNat 12 c) (s.conn c).serial)).updConn c
          fun x => { x with cuts := x.cuts + 1, marker := some s.now }).updConn c
            fun x => { x with state := .closed, closeLost := true }).notice c 8 .routeCut 8 0)) := by
  change execCloseMarkerResend c s = _
  unfold execCloseMarkerResend
  dsimp only
  rw [hm]
  exact if_pos ⟨hs, hnow, hk⟩

theorem exec_closeMarkerResend_lost {c : ConnN} {k : Nat} (hs : (s.conn c).state = .draining) (hm : (s.conn c).marker = some k)
    (hnow : s.now % 1024 = 0) (hk : (k / 1024 + 2) * 1024 ≤ s.now) (hc : 16 ≤ (s.conn c).cuts + 1) :
    ∃ t, exec (.closeMarkerResend c) s = .next t ∧ s.Only t [.top, .mch, .pcie, .out] ∧ (t.conn c).state = .closed ∧
      (t.conn c).closeLost = true := by
  refine ⟨_, (exec_closeMarkerResend hs hm hnow hk).trans (if_neg (Nat.not_lt.2 hc)),
    only_notice (only_updConn (only_updConn ((emit_only ..).in) (by decide)) (by decide)) (by decide), ?_⟩
  rw [notice_conn, updConn_conn_self]
  exact ⟨rfl, rfl⟩

theorem exec_closeMarkerResend_early {c : ConnN} (h : (s.conn c).marker = none ∨ s.now % 1024 ≠ 0) :
    exec (.closeMarkerResend c) s = .next s := by
  change execCloseMarkerResend c s = _
  unfold execCloseMarkerResend
  dsimp only
  cases hm : (s.conn c).marker with
  | none => rfl
  | some k => exact if_neg fun q => h.elim (fun n => nomatch hm.symm.trans n) fun n => n q.2.1

/-- Settles O19: OPEN, the answers, sends, credit, notices and the marker each leave the sender's connection as the clauses say. -/
theorem sendersOpenSendAndClose : Obligations.SendersOpenSendAndClose := by
  unfold Obligations.SendersOpenSendAndClose
  refine ⟨?_, ?_, ?_, ?_, ?_, ?_, ?_, ?_, ?_, ?_, ?_, ?_, ?_, ?_, ?_, ?_, ?_, ?_, ?_, ?_, ?_, ?_, ?_, ?_, ?_, ?_, ?_, ?_, ?_, ?_⟩
  · intro s acc v hm h4 h hr
    obtain ⟨t, rfl, ht⟩ := connOpen_routed v h hr
    exact ⟨_, exec_connOpen hm h4 v, ht⟩
  · intro s acc v hm h4 h hr
    exact ⟨_, exec_connOpen hm h4 v, only_openConn ((setConnCtl_only ..).in) (by decide), connOpen_unrouted v h hr⟩
  · intro s acc v hm h4 h
    refine ⟨_, (exec_connOpen hm h4 v).trans (congrArg _ (openConn_open ?_)), setConnCtl_only .., ?_⟩
    · rw [setConnCtl_conn]
      exact h
    · exact (setConnCtl_conn ..).trans (setCtl_open h v)
  · exact fun s acc v hm h4 h hw hr => exec_connClose_marks v hm h4 h hw hr
  · exact fun s acc v hm h4 h => exec_connClose_drains v hm h4 h
  · exact fun s acc v hm h4 h => exec_connClose_gone v hm h4 h
  · intro s r h hserial hok hw
    obtain ⟨u, honly, hu, hexec⟩ := exec_openAckReceive_ok h hserial hok
    have hflush : u.flush r.conn = u :=
      (flush_idle (by rw [hu]; exact hw)).trans (markIfDone_live (by rw [hu]; exact ConnState.noConfusion))
    exact ⟨u, hexec.trans (congrArg _ hflush), honly, hu⟩
  · intro s r h hserial hok
    obtain ⟨u, honly, hu, hexec⟩ := exec_openAckReceive_ok h hserial hok
    obtain ⟨hstate, hgrant⟩ := flush_sameLink u r.conn
    refine ⟨_, hexec, only_flush honly (by decide), hstate.trans ?_, hgrant.trans ?_⟩ <;> rw [hu]
  · intro s r h hserial hok
    obtain ⟨a, l, d, hc⟩ := refuseWaiting_closed (s := s) r.conn (fun c =>
      { c with state := .closed, lastStatus := BitVec.ofNat 8 r.status.code, detail := r.detail }) 4 r.status r.detail.toNat 0
    refine ⟨_, exec_openAckReceive_refused h hserial hok,
      only_notice (only_updConn ((refuseWaiting_only ..).in) (by decide)) (by decide), ?_⟩
    rw [hc]
    exact ⟨rfl, rfl, rfl, rfl⟩
  · exact fun s r hserial hok => exec_openAckReceive_other hserial hok
  · exact fun s c h ht => exec_openTimeout h ht
  · exact fun s c h => if_neg fun k => h.elim (fun n => n k.1) fun n => absurd k.2 (Nat.not_le.2 n)
  · exact fun s c kind ep body h0 h1 hp hs ho hn hg hw ha => exec_messageSend_allowed h0 h1 hp hs ho hn hg hw ha
  · exact fun s c kind ep body h0 h1 hp hs ho hn => exec_messageSend_nak h0 h1 hp hs ho hn
  · exact fun s c kind ep body h0 h1 hp hs h => (exec_messageSend h0 h1 hp ep).trans (congrArg _ (sendOn_waits hs h))
  · exact fun s c kind ep body h0 h1 hp hs ho hn hg => (exec_messageSend h0 h1 hp ep).trans (congrArg _ (sendOn_large hs ho hn hg))
  · exact fun s c kind ep body h0 h1 hp hs h => (exec_messageSend h0 h1 hp ep).trans (congrArg _ (sendOn_closed hs h))
  · exact fun s c kind ep body h0 h1 h => exec_messageSend_other h0 h1 h
  · exact fun s c total hs hn hw => exec_msgCreditReturnReceive total hs hn hw
  · exact fun s c serial total h => ⟨if_neg fun k => h k.2.1.symm, if_neg fun k => h k.1.symm, if_neg fun k => h k.1.symm⟩
  · exact fun s m hserial hs hn hw hst => exec_nakNoticeReceive_back hserial hs hn hw hst
  · exact fun s m hserial hs hst => exec_nakNoticeReceive_stale hserial hs hst
  · exact fun s m hserial hs hst => exec_nakNoticeReceive_opening hserial hs hst
  · exact fun s m h => if_pos h
  · intro s c h
    obtain ⟨r, l, d, hc⟩ := peerGone_opened h
    refine ⟨_, exec_staleNoticeReceive (.inl h), only_notice ((peerGone_only ..).in) (by decide), ?_⟩
    rw [notice_conn, hc]
    exact ⟨rfl, rfl, rfl⟩
  · intro s c h
    refine ⟨_, exec_staleNoticeReceive (.inr h), only_notice ((peerGone_only ..).in) (by decide), ?_⟩
    rw [notice_conn, peerGone_draining h]
    exact ⟨rfl, rfl, rfl⟩
  · intro s c h
    refine ⟨_, if_pos ⟨rfl, h⟩, only_notice ((updConn_only ..).in) (by decide), ?_⟩
    rw [notice_conn, updConn_conn_self]
  · exact fun s c k hs hm hnow hk hc => (exec_closeMarkerResend hs hm hnow hk).trans (if_pos hc)
  · exact fun s c k hs hm hnow hk hc => exec_closeMarkerResend_lost hs hm hnow hk hc
  · exact fun s c h => exec_closeMarkerResend_early h

end Sys2Proof.Machine
end

section
/-!
PROOFS. Binding and unbinding queues, and the sums of chord queues (07 R361, R392, R397 to R402, R411): O21.
-/

set_option Elab.async false

namespace Sys2Proof.Machine

variable {s : State}

theorem updQueue_updQueue (s : State) (n : Nat) (f g : QueueSt → QueueSt) : (s.updQueue n f).updQueue n g = s.updQueue n fun x => g (f x) :=
  congrArg (fun t => { s with mch := { s.mch with queues := t } }) (Tab.upd_upd {} s.mch.queues n f g)

/-! ### The configuration register -/

theorem accWrite_queueCfg {acc : Accessor} (hm : s.mayWrite acc = true) (h4 : s.passed 4 = true) (v : Word) :
    s.accWrite acc 0xB0104 v = s.writeQueueCfg (s.mch.qSel.get acc).toNat v :=
  accWrite_may (b := .mch) (o := 0x104) rfl rfl rfl (regAnswers_of_answers (by decide) h4) hm

/-- An UNBOUND queue takes the fields of MCH_Q_CFG. -/
def QueueSt.setCfg (q : QueueSt) (v : Word) : QueueSt :=
  { q with
    sel := bit v 27, kind := v.extractLsb' 24 3, input := v.extractLsb' 21 3, prio := v.extractLsb' 18 3, ep := v.setWidth 14,
    bindErr := q.bindErr && !bit v 17 }

theorem updUnbound_unbound {n : Nat} (h : (s.queue n).state = .unbound) (f : QueueSt → QueueSt) : s.updUnbound n f = s.updQueue n f := by
  unfold State.updUnbound
  rw [decide_eq_true h, State.when_true]

theorem updUnbound_other {n : Nat} (h : (s.queue n).state ≠ .unbound) (f : QueueSt → QueueSt) : s.updUnbound n f = s := by
  unfold State.updUnbound
  rw [decide_eq_false h, State.when_false]

theorem writeQueueCfg_unbound {n : Nat} (h : (s.queue n).state = .unbound) (v : Word) :
    s.writeQueueCfg n (setField v 30 2 1) = (s.updQueue n fun q => q.setCfg v).bindQueue n := by
  unfold State.writeQueueCfg
  rw [updUnbound_unbound h, extract_setField_self v (by decide) (by decide)]
  dsimp only
  rw [updQueue_updQueue, setWidth_setField v (by decide) (by decide) (by decide), bit_setField v (by decide) (by decide) (by decide),
    extract_setField v (by decide) (by decide) (by decide), extract_setField v (by decide) (by decide) (by decide),
    extract_setField v (by decide) (by decide) (by decide)]
  unfold clearBit
  rw [bit_setField v (by decide) (by decide) (by decide)]
  rfl

/-- The error bit's clearing, which a queue takes in every state. -/
def State.clearBindErr (s : State) (n : Nat) (v : Word) : State := s.updQueue n fun q => { q with bindErr := q.bindErr && !bit v 17 }

theorem clearBindErr_queue (n : Nat) (v : Word) : (s.clearBindErr n v).queue n = { s.queue n with bindErr := (s.queue n).bindErr && !bit v 17 } :=
  updQueue_queue_self ..

theorem writeQueueCfg_bind {n : Nat} (h : (s.queue n).state ≠ .unbound) (v : Word) :
    s.writeQueueCfg n (setField v 30 2 1) = (s.clearBindErr n v).bindQueue n := by
  unfold State.writeQueueCfg
  rw [updUnbound_other h, extract_setField_self v (by decide) (by decide)]
  unfold clearBit
  rw [bit_setField v (by decide) (by decide) (by decide)]
  rfl

theorem writeQueueCfg_unbind {n : Nat} (h : (s.queue n).state ≠ .unbound) (v : Word) :
    s.writeQueueCfg n (setField v 30 2 2) = (s.clearBindErr n v).when (decide ((s.queue n).state = .bound)) (·.unbindQueue n) := by
  have hstate : ((s.clearBindErr n v).queue n).state = (s.queue n).state := (congrArg QueueSt.state (clearBindErr_queue n v) :)
  unfold State.writeQueueCfg
  rw [updUnbound_other h, extract_setField_self v (by decide) (by decide)]
  unfold clearBit
  rw [bit_setField v (by decide) (by decide) (by decide), ← hstate]
  rfl

/-! ### BIND and UNBIND -/

/-- A queue as it is bound, with the last priority that its receiver took from. -/
def QueueSt.boundAt (q : QueueSt) (last : BitVec 3) : QueueSt :=
  { q with
    state := .bound, head := 0, tail := 0, headLap := true, tailLap := true, charge := 0, round := 0, recs := []
    filled := [], bodies := [], placed := 0, dropped := 0, stale := 0, armedAt := some 0, lastPrio := last }

theorem bindQueue_unbound {n : Nat} (h : (s.queue n).state = .unbound) :
    s.bindQueue n = s.updQueue n fun q =>
      if s.bindOk n then q.boundAt (((s.bindMates n (s.queue n)).head?.map (·.lastPrio)).getD 7) else { q with bindErr := true } := by
  unfold State.bindQueue
  rw [if_neg (not_not_intro h)]
  split <;> rfl

theorem bindQueue_other {n : Nat} (h : (s.queue n).state ≠ .unbound) : s.bindQueue n = s := by
  unfold State.bindQueue
  exact if_pos h

/-- UNBIND discards the records of the queue, and deletes the inbound records that name it. -/
theorem unbindQueue_reads {n : Nat} (h : (s.queue n).state ≠ .unbound) :
    ((s.unbindQueue n).queue n).state = .unbound ∧ ((s.unbindQueue n).queue n).recs = [] ∧
      (s.unbindQueue n).mch.inb = s.mch.inb.filter fun x => decide (x.queue ≠ n) := by
  unfold State.unbindQueue
  rw [if_neg h]
  extract_lets mine a b
  have ha : s.Only a [.out] := only_each (.refl s _) fun _ _ hu => only_emit hu (by decide)
  refine ⟨?_, ?_, ?_⟩
  · rw [updQueue_queue_self]
  · rw [updQueue_queue_self]
  · change a.mch.inb.filter _ = _
    rw [ha.mch]

theorem exec_queueBind_unbound {acc : Accessor} (hm : s.mayWrite acc = true) (h4 : s.passed 4 = true) (v : Word)
    (h : (s.queue (s.mch.qSel.get acc).toNat).state = .unbound) :
    exec (.queueBind acc v) s =
      .next ((s.updQueue (s.mch.qSel.get acc).toNat fun q => q.setCfg v).bindQueue (s.mch.qSel.get acc).toNat) :=
  congrArg Host.Outcome.next ((accWrite_queueCfg hm h4 _).trans (writeQueueCfg_unbound h v))

theorem exec_queueBind_other {acc : Accessor} (hm : s.mayWrite acc = true) (h4 : s.passed 4 = true) (v : Word)
    (h : (s.queue (s.mch.qSel.get acc).toNat).state ≠ .unbound) :
    exec (.queueBind acc v) s = .next (s.clearBindErr (s.mch.qSel.get acc).toNat v) := by
  refine congrArg Host.Outcome.next ((accWrite_queueCfg hm h4 _).trans ((writeQueueCfg_bind h v).trans (bindQueue_other ?_)))
  rw [clearBindErr_queue]
  exact h

theorem exec_queueUnbind {acc : Accessor} (hm : s.mayWrite acc = true) (h4 : s.passed 4 = true) (v : Word)
    (h : (s.queue (s.mch.qSel.get acc).toNat).state ≠ .unbound) :
    exec (.queueUnbind acc v) s = .next ((s.clearBindErr (s.mch.qSel.get acc).toNat v).when
      (decide ((s.queue (s.mch.qSel.get acc).toNat).state = .bound)) (·.unbindQueue (s.mch.qSel.get acc).toNat)) :=
  congrArg Host.Outcome.next ((accWrite_queueCfg hm h4 _).trans (writeQueueCfg_unbind h v))

theorem exec_queueUnbind_bound {acc : Accessor} (hm : s.mayWrite acc = true) (h4 : s.passed 4 = true) (v : Word)
    (h : (s.queue (s.mch.qSel.get acc).toNat).state = .bound) :
    ∃ t, exec (.queueUnbind acc v) s = .next t ∧ s.Only t [.mch, .out] ∧
      (t.queue (s.mch.qSel.get acc).toNat).state = .unbound ∧ (t.queue (s.mch.qSel.get acc).toNat).recs = [] ∧
      (∀ x ∈ t.mch.inb, x.queue ≠ (s.mch.qSel.get acc).toNat) ∧
      ∀ x ∈ s.mch.inb, x.queue ≠ (s.mch.qSel.get acc).toNat → x ∈ t.mch.inb := by
  have hexec := exec_queueUnbind hm h4 v (fun k => QueueState.noConfusion (h.symm.trans k))
  rw [decide_eq_true h, State.when_true] at hexec
  revert h hexec
  generalize (s.mch.qSel.get acc).toNat = n
  intro h hexec
  obtain ⟨hstate, hrecs, hinb⟩ := unbindQueue_reads (s := s.clearBindErr n v) (n := n) (by
    rw [clearBindErr_queue]
    exact fun k => QueueState.noConfusion (h.symm.trans k))
  refine ⟨_, hexec, only_unbindQueue ((updQueue_only ..).in) (by decide), hstate, hrecs, fun x hx => ?_, fun x hx hne => ?_⟩
  · rw [hinb] at hx
    exact of_decide_eq_true (List.mem_filter.1 hx).2
  · rw [hinb]
    exact List.mem_filter.2 ⟨hx, decide_eq_true hne⟩

/-! ### Sums -/

/-- A send changes connections alone. -/
theorem sendOn_mch (n : Nat) (kind : BitVec 3) (ep : BitVec 14) (w : Waiting) :
    ∃ cs, (s.sendOn n kind ep w).mch = { s.mch with conns := cs } := by
  unfold State.sendOn
  extract_lets c r
  split
  · exact ⟨_, rfl⟩
  split
  · exact ⟨_, rfl⟩
  · split
    · exact ⟨_, rfl⟩
    split
    · exact ⟨_, rfl⟩
    split
    · exact ⟨_, rfl⟩
    · exact ⟨_, rfl⟩
  · exact ⟨_, rfl⟩

/-- The sum leaves on its connection, or is dropped where that is not OPEN. -/
def State.chordSend (s : State) (n : Nat) (bs : List (List Byte)) : State :=
  if (s.conn (s.queue n).out.toNat).state = .opened then
    s.sendOn (s.queue n).out.toNat 6 (BitVec.ofNat 14 n) ⟨chordSum (s.queue n) bs, 3, (s.queue n).round⟩
  else s.updQueue n fun q => { q with dropped := satAdd q.dropped 1 }

/-- A connection that contributed to a round of a chord queue. -/
def QueueSt.gave (x : QueueSt) (y : InbSt) : Bool :=
  x.bodies.any fun b => decide (b.round = x.round) && decide (b.src = (y.chip.toNat, y.conn.toNat, y.serial.toNat))

/-- The credit that a round of a chord queue gives a connection. -/
def InbSt.credit (y : InbSt) (x : QueueSt) (now : Nat) : InbSt :=
  if x.gave y ∧ y.nak = false then
    { y with total := y.total + BitVec.ofNat 32 x.chordR, since := if y.pend = 0 then now else y.since, pend := y.pend + x.chordR }
  else y

/-- A round of a chord queue is freed, and its units are credited. -/
def State.chordFree (s : State) (n : Nat) (x : QueueSt) : State :=
  (s.updQueue n fun q =>
    { q with round := (q.round + 1) % 2 ^ 32, placed := satAdd q.placed 1
             bodies := q.bodies.filter fun b => decide (b.round ≠ x.round) }).setInb fun l => l.map fun y => y.credit x s.now

theorem exec_chordSumRelease {q : QueueN} {bs : List (List Byte)} (hk : (s.queue q).kind = 6) (hb : (s.queue q).state = .bound)
    (hr : (s.queue q).roundBodies = some bs) :
    exec (.chordSumRelease q) s =
      if (s.conn (s.queue q).out.toNat).state = .opened ∧ (s.conn (s.queue q).out.toNat).sentBy 6 (BitVec.ofNat 14 q) ∧
          !((s.conn (s.queue q).out.toNat).waiting.isEmpty && (s.conn (s.queue q).out.toNat).allows (recUnits (chordSum (s.queue q) bs).length))
          ∧ ((s.conn (s.queue q).out.toNat).nak ∨ recUnits (chordSum (s.queue q) bs).length ≤ (s.conn (s.queue q).out.toNat).grant.toNat)
      then .next s else .next ((s.chordSend q bs).chordFree q (s.queue q)) := by
  change execChordSumRelease q s = _
  unfold execChordSumRelease
  dsimp only
  rw [if_pos ⟨hk, hb⟩, hr]
  rfl

/-- What the queue and the inbound records are as the sum has left. -/
theorem chordSend_reads (n : Nat) (bs : List (List Byte)) :
    ((s.chordSend n bs).queue n = { s.queue n with
      dropped := if (s.conn (s.queue n).out.toNat).state = .opened then (s.queue n).dropped else satAdd (s.queue n).dropped 1 }) ∧
      (s.chordSend n bs).mch.inb = s.mch.inb ∧ s.Only (s.chordSend n bs) [.mch, .out] := by
  unfold State.chordSend
  split
  · next h =>
    obtain ⟨cs, hcs⟩ := sendOn_mch (s := s) (s.queue n).out.toNat 6 (BitVec.ofNat 14 n) ⟨chordSum (s.queue n) bs, 3, (s.queue n).round⟩
    refine ⟨?_, ?_, sendOn_only ..⟩
    · exact (congrArg (fun m : MchSt => Tab.get ({} : QueueSt) m.queues n) hcs).trans rfl
    · rw [hcs]
  · next h => exact ⟨updQueue_queue_self .., rfl, (updQueue_only ..).in⟩

theorem exec_chordSumRelease_leaves {q : QueueN} {bs : List (List Byte)} (hk : (s.queue q).kind = 6) (hb : (s.queue q).state = .bound)
    (hr : (s.queue q).roundBodies = some bs)
    (h : (s.conn (s.queue q).out.toNat).state ≠ .opened ∨ (s.conn (s.queue q).out.toNat).sentBy 6 (BitVec.ofNat 14 q) = false ∨
      (s.conn (s.queue q).out.toNat).waiting = [] ∧
        (s.conn (s.queue q).out.toNat).allows (recUnits (chordSum (s.queue q) bs).length) = true) :
    exec (.chordSumRelease q) s = .next ((s.chordSend q bs).chordFree q (s.queue q)) := by
  rw [exec_chordSumRelease hk hb hr, if_neg]
  rintro ⟨ho, hs, hw, -⟩
  obtain h | h | ⟨hempty, hallow⟩ := h
  · exact h ho
  · exact Bool.noConfusion (h.symm.trans hs)
  · rw [hempty, hallow] at hw
    exact Bool.noConfusion hw

/-- What a round leaves of its queue, and of the connections that gave and did not give to it. -/
theorem chordFree_reads (q : QueueN) (bs : List (List Byte)) :
    s.Only ((s.chordSend q bs).chordFree q (s.queue q)) [.mch, .out] ∧
      (((s.chordSend q bs).chordFree q (s.queue q)).queue q).round = ((s.queue q).round + 1) % 2 ^ 32 ∧
      (((s.chordSend q bs).chordFree q (s.queue q)).queue q).bodies =
        ((s.queue q).bodies.filter fun b => decide (b.round ≠ (s.queue q).round)) ∧
      (((s.chordSend q bs).chordFree q (s.queue q)).queue q).dropped =
        (if (s.conn (s.queue q).out.toNat).state = .opened then (s.queue q).dropped else satAdd (s.queue q).dropped 1) ∧
      ∀ i, ((s.chordSend q bs).chordFree q (s.queue q)).inbAt i =
        (s.inbAt i).map fun y => y.credit (s.queue q) (s.chordSend q bs).now := by
  obtain ⟨hqueue, hinb, honly⟩ := chordSend_reads (s := s) q bs
  have hfree : ((s.chordSend q bs).chordFree q (s.queue q)).queue q =
      { (s.chordSend q bs).queue q with
        round := (((s.chordSend q bs).queue q).round + 1) % 2 ^ 32, placed := satAdd ((s.chordSend q bs).queue q).placed 1
        bodies := ((s.chordSend q bs).queue q).bodies.filter fun b => decide (b.round ≠ (s.queue q).round) } :=
    updQueue_queue_self (s.chordSend q bs) q fun x =>
      { x with round := (x.round + 1) % 2 ^ 32, placed := satAdd x.placed 1
               bodies := x.bodies.filter fun b => decide (b.round ≠ (s.queue q).round) }
  refine ⟨only_setInb (only_updQueue honly (by decide)) (by decide), ?_, ?_, ?_, fun i => ?_⟩
  · rw [hfree, hqueue]
  · rw [hfree, hqueue]
  · rw [hfree, hqueue]
  · change ((s.chordSend q bs).mch.inb.map _)[i]? = _
    rw [List.getElem?_map, hinb]
    rfl

theorem exec_chordSumRelease_sum {q : QueueN} {bs : List (List Byte)} (hk : (s.queue q).kind = 6) (hb : (s.queue q).state = .bound)
    (hr : (s.queue q).roundBodies = some bs) (ho : (s.conn (s.queue q).out.toNat).state = .opened)
    (hs : (s.conn (s.queue q).out.toNat).sentBy 6 (BitVec.ofNat 14 q) = true) (hw : (s.conn (s.queue q).out.toNat).waiting = [])
    (hn : (s.conn (s.queue q).out.toNat).nak = false)
    (hg : recUnits (chordSum (s.queue q) bs).length ≤ (s.conn (s.queue q).out.toNat).grant.toNat)
    (ha : (s.conn (s.queue q).out.toNat).allows (recUnits (chordSum (s.queue q) bs).length) = true) :
    ∃ t, exec (.chordSumRelease q) s = .next t ∧
      ∃ m : Msg, t.out = .message (s.conn (s.queue q).out.toNat).chip (s.routeOf (s.queue q).out.toNat) 3 m :: s.out ∧
        m.body = chordSum (s.queue q) bs ∧ m.sum = true ∧ m.seq = BitVec.ofNat 32 (s.queue q).round := by
  have hsend : s.chordSend q bs = s.transmit (s.queue q).out.toNat ⟨chordSum (s.queue q) bs, 3, (s.queue q).round⟩ := by
    unfold State.chordSend
    rw [if_pos ho]
    exact sendOn_allowed hs ho hn hg hw ha
  have hout : ((s.chordSend q bs).chordFree q (s.queue q)).out = (s.chordSend q bs).out := rfl
  have hmsg := hout.trans ((congrArg State.out hsend).trans (transmit_out ..))
  exact ⟨_, exec_chordSumRelease_leaves hk hb hr (.inr (.inr ⟨hw, ha⟩)), _, hmsg, rfl, rfl, rfl⟩

/-- Settles O21: BIND and UNBIND write the queue they name, and a complete round leaves, waits or is dropped. -/
theorem queuesBindAndSum : Obligations.QueuesBindAndSum := by
  unfold Obligations.QueuesBindAndSum
  refine ⟨?_, fun s acc v hm h4 h => exec_queueBind_other hm h4 v h, fun s acc v hm h4 h => exec_queueUnbind_bound hm h4 v h, ?_, ?_, ?_,
    fun s q bs hk hb hr ho hs hw hn hg ha => exec_chordSumRelease_sum hk hb hr ho hs hw hn hg ha, ?_⟩
  · rintro s u acc v hm h4 h rfl
    exact (exec_queueBind_unbound hm h4 v h).trans (congrArg _ (bindQueue_unbound (by rw [updQueue_queue_self]; exact h)))
  · intro s acc v hm h4 h
    have hexec := exec_queueUnbind hm h4 v (fun k => QueueState.noConfusion (h.symm.trans k))
    rw [h] at hexec
    exact hexec
  · intro s q h
    change execChordSumRelease q s = _
    unfold execChordSumRelease
    dsimp only
    split
    · rfl
    · next bs hbs =>
      split at hbs
      · next hk => exact absurd hk fun k => h.elim (fun n => n k.1) fun h => h.elim (fun n => n k.2) fun n => nomatch n.symm.trans hbs
      · exact nomatch hbs
  · intro s q bs hk hb hr h
    obtain ⟨honly, hround, hbodies, hdropped, hinb⟩ := chordFree_reads (s := s) q bs
    refine ⟨_, exec_chordSumRelease_leaves hk hb hr h, honly, hround, hbodies, hdropped, fun i y hy hnak hgave => ?_,
      fun i y hy hgave => ?_⟩
    · have hcredit : y.credit (s.queue q) (s.chordSend q bs).now =
          { y with total := y.total + BitVec.ofNat 32 (s.queue q).chordR
                   since := if y.pend = 0 then (s.chordSend q bs).now else y.since, pend := y.pend + (s.queue q).chordR } := by
        unfold InbSt.credit
        exact if_pos ⟨hgave, hnak⟩
      exact ⟨_, (hinb i).trans ((congrArg (Option.map _) hy).trans (congrArg some hcredit)), rfl, rfl⟩
    · refine ((hinb i).trans (congrArg (Option.map _) hy)).trans (congrArg some ?_)
      unfold InbSt.credit
      exact if_neg fun k => Bool.noConfusion (hgave.symm.trans k.1)
  · intro s q bs hk hb hr ho hs h hg
    rw [exec_chordSumRelease hk hb hr, if_pos]
    refine ⟨ho, hs, ?_, .inr hg⟩
    obtain h | h := h
    · rw [List.isEmpty_eq_false_iff.2 h]
      rfl
    · rw [h, Bool.and_false]
      rfl

end Sys2Proof.Machine
end

section
/-!
PROOFS. The receiver of a connection (07 R365 to R399): O20.
-/

set_option Elab.async false

namespace Sys2Proof.Machine

variable {s : State}

/-! ### OPEN -/

/-- The answer to an OPEN. -/
def State.answerOpen (s : State) (r : OpenReq) (st : Status) (d : BitVec 4) (g : BitVec 16) (round : Nat) : State :=
  s.emit (.openAnswer r.srcChip r.conn r.serial st d g round)

/-- The grant that an OPEN asks of a queue. -/
def QueueSt.grantFor (q : QueueSt) (r : OpenReq) : Nat :=
  if r.nak then 0 else if decide (q.kind = 6) then q.chordD * q.chordR else r.grant.toNat

/-- An OPEN that R387 lets in, in the state `u` in which the record that it replaces is gone; a refusal leaves that record. -/
def State.letIn (s u : State) (r : OpenReq) : State :=
  if 4096 ≤ u.mch.inb.length then s.answerOpen r .nakFull 2 0 0
  else if decide ((u.queue r.queue).kind = 6) ∧ (r.nak ∨ (u.queue r.queue).chordN ≤ r.index ∨
      (u.mch.inb.any fun x => decide (x.queue = r.queue.val) && decide (x.index = r.index))) then s.answerOpen r .nakFull 3 0 0
  else if r.nak = false ∧ (u.queue r.queue).poolUnits < (u.queue r.queue).charge.toNat + (u.queue r.queue).grantFor r then
    s.answerOpen r .nakFull 1 0 0
  else
    ((u.setInb fun l => l ++
      [{ chip := r.srcChip, conn := r.conn, serial := r.serial, queue := r.queue.val, nak := r.nak
         grant := (u.queue r.queue).grantFor r, index := r.index }]).updQueue r.queue
      fun q => { q with charge := q.charge + BitVec.ofNat 18 ((u.queue r.queue).grantFor r) }).answerOpen r .ok 0
        (BitVec.ofNat 16 ((u.queue r.queue).grantFor r)) (Tab.get 0 (u.queue r.queue).filled r.index)

theorem exec_openReceive_refused {r : OpenReq} {st : Status} {d : BitVec 4}
    (h : s.arriveCheck r.poisoned (s.queue r.queue) = some (st, d)) :
    exec (.openReceive r) s = .next ((s.answerOpen r st d 0 0).countStale r.queue st) := by
  change execOpenReceive r s = _
  unfold execOpenReceive
  dsimp only
  rw [h]
  rfl

theorem exec_openReceive_new {r : OpenReq} (h : s.arriveCheck r.poisoned (s.queue r.queue) = none) (hi : s.inbOf r.srcChip r.conn = none) :
    exec (.openReceive r) s = .next (s.letIn s r) := by
  change execOpenReceive r s = _
  unfold execOpenReceive State.letIn
  dsimp only
  rw [h, hi]
  rw [apply_ite Host.Outcome.next, apply_ite Host.Outcome.next, apply_ite Host.Outcome.next]
  rfl

theorem exec_openReceive_again {r : OpenReq} {x : InbSt} (h : s.arriveCheck r.poisoned (s.queue r.queue) = none)
    (hi : s.inbOf r.srcChip r.conn = some x) : exec (.openReceive r) s = .next (s.letIn (s.dropInb x) r) := by
  change execOpenReceive r s = _
  unfold execOpenReceive State.letIn
  dsimp only
  rw [h, hi]
  rw [apply_ite Host.Outcome.next, apply_ite Host.Outcome.next, apply_ite Host.Outcome.next]
  rfl

theorem grantFor_plain {q : QueueSt} {r : OpenReq} (h : q.kind ≠ 6) : q.grantFor r = if r.nak then 0 else r.grant.toNat := by
  unfold QueueSt.grantFor
  rw [decide_eq_false h]
  rfl

theorem grantFor_chord {q : QueueSt} {r : OpenReq} (h : q.kind = 6) (hn : r.nak = false) : q.grantFor r = q.chordD * q.chordR := by
  unfold QueueSt.grantFor
  rw [decide_eq_true h, hn]
  rfl

/-- An OPEN that finds room is recorded, and answered with its grant. -/
theorem letIn_room {u : State} {r : OpenReq} (hl : u.mch.inb.length < 4096)
    (hk : (u.queue r.queue).kind ≠ 6 ∨ r.nak = false ∧ r.index < (u.queue r.queue).chordN ∧
      (u.mch.inb.any fun x => decide (x.queue = r.queue.val) && decide (x.index = r.index)) = false)
    (hp : r.nak = true ∨ (u.queue r.queue).charge.toNat + (u.queue r.queue).grantFor r ≤ (u.queue r.queue).poolUnits) :
    s.letIn u r = ((u.setInb fun l => l ++
      [{ chip := r.srcChip, conn := r.conn, serial := r.serial, queue := r.queue.val, nak := r.nak
         grant := (u.queue r.queue).grantFor r, index := r.index }]).updQueue r.queue
      fun q => { q with charge := q.charge + BitVec.ofNat 18 ((u.queue r.queue).grantFor r) }).answerOpen r .ok 0
        (BitVec.ofNat 16 ((u.queue r.queue).grantFor r)) (Tab.get 0 (u.queue r.queue).filled r.index) := by
  unfold State.letIn
  rw [if_neg (Nat.not_le.2 hl), if_neg, if_neg]
  · rintro ⟨hn, hlt⟩
    obtain hp | hp := hp
    · exact Bool.noConfusion (hp.symm.trans hn)
    · exact absurd hlt (Nat.not_lt.2 hp)
  · rintro ⟨hkind, hbad⟩
    obtain hk | ⟨hn, hindex, hfree⟩ := hk
    · exact hk (of_decide_eq_true hkind)
    · obtain h | h | h := hbad
      · exact Bool.noConfusion (hn.symm.trans h)
      · exact absurd hindex (Nat.not_lt.2 h)
      · exact Bool.noConfusion (hfree.symm.trans h)

/-- A record that is dropped leaves none of its chip and connection. -/
theorem dropInb_inb (x : InbSt) : (s.dropInb x).mch.inb = s.mch.inb.filter fun y => !(y.is x.chip x.conn) := by
  unfold State.dropInb
  cases x.nak <;> rfl

theorem is_of_find {chip : BitVec 10} {conn : BitVec 12} {x : InbSt} (h : x.is chip conn = true) : x.chip = chip ∧ x.conn = conn := by
  unfold InbSt.is at h
  obtain ⟨hchip, hconn⟩ := Bool.and_eq_true_iff.1 h
  exact ⟨of_decide_eq_true hchip, of_decide_eq_true hconn⟩

theorem dropInb_none {chip : BitVec 10} {conn : BitVec 12} {x : InbSt} (h : x.is chip conn = true) :
    ∀ y ∈ (s.dropInb x).mch.inb, y.is chip conn = false := by
  obtain ⟨rfl, rfl⟩ := is_of_find h
  intro y hy
  rw [dropInb_inb] at hy
  exact Bool.eq_false_iff.2 fun k => Bool.noConfusion ((congrArg (!·) k).symm.trans (List.mem_filter.1 hy).2)

theorem exec_openReceive_enters {r : OpenReq} {g : Nat} (h : s.arriveCheck r.poisoned (s.queue r.queue) = none)
    (hi : s.inbOf r.srcChip r.conn = none) (hl : s.mch.inb.length < 4096)
    (hk : (s.queue r.queue).kind ≠ 6 ∧ g = (if r.nak then 0 else r.grant.toNat) ∨
      (s.queue r.queue).kind = 6 ∧ r.nak = false ∧ r.index < (s.queue r.queue).chordN ∧
        (s.mch.inb.any fun x => decide (x.queue = r.queue.val) && decide (x.index = r.index)) = false ∧
        g = (s.queue r.queue).chordD * (s.queue r.queue).chordR)
    (hp : r.nak = true ∨ (s.queue r.queue).charge.toNat + g ≤ (s.queue r.queue).poolUnits) :
    ∃ t, exec (.openReceive r) s = .next t ∧ s.Only t [.mch, .out] ∧
      t.mch.inb = s.mch.inb ++ [{ chip := r.srcChip, conn := r.conn, serial := r.serial, queue := r.queue.val, nak := r.nak
                                  grant := g, index := r.index }] ∧
      (t.queue r.queue).charge = (s.queue r.queue).charge + BitVec.ofNat 18 g ∧
      t.out = .openAnswer r.srcChip r.conn r.serial .ok 0 (BitVec.ofNat 16 g)
        (Tab.get 0 (s.queue r.queue).filled r.index) :: s.out := by
  have hg : (s.queue r.queue).grantFor r = g := by
    obtain ⟨hne, rfl⟩ | ⟨he, hn, -, -, rfl⟩ := hk
    · exact grantFor_plain hne
    · exact grantFor_chord he hn
  have hroom := letIn_room (s := s) (u := s) (r := r) hl
    (hk.imp (fun k => k.1) fun k => ⟨k.2.1, k.2.2.1, k.2.2.2.1⟩) (by rw [hg]; exact hp)
  rw [hg] at hroom
  refine ⟨_, (exec_openReceive_new h hi).trans (congrArg _ hroom),
    only_emit (only_updQueue ((setInb_only ..).in) (by decide)) (by decide), rfl, ?_, rfl⟩
  exact (congrArg QueueSt.charge (updQueue_queue_self _ r.queue.val
    fun q => { q with charge := q.charge + BitVec.ofNat 18 g }) :)

theorem exec_openReceive_replaces {r : OpenReq} {x : InbSt} (h : s.arriveCheck r.poisoned (s.queue r.queue) = none)
    (hi : s.inbOf r.srcChip r.conn = some x) (hk : ((s.dropInb x).queue r.queue).kind ≠ 6) (hn : r.nak = false)
    (hl : (s.dropInb x).mch.inb.length < 4096)
    (hp : ((s.dropInb x).queue r.queue).charge.toNat + r.grant.toNat ≤ ((s.dropInb x).queue r.queue).poolUnits) :
    ∃ t, exec (.openReceive r) s = .next t ∧ s.Only t [.mch, .out] ∧
      t.mch.inb = (s.dropInb x).mch.inb ++ [{ chip := r.srcChip, conn := r.conn, serial := r.serial, queue := r.queue.val, nak := false
                                              grant := r.grant.toNat, index := r.index }] ∧
      ∀ y ∈ (s.dropInb x).mch.inb, y.is r.srcChip r.conn = false := by
  have hg : ((s.dropInb x).queue r.queue).grantFor r = r.grant.toNat := by
    rw [grantFor_plain hk, hn]
    rfl
  have hroom := letIn_room (s := s) (u := s.dropInb x) (r := r) hl (.inl hk) (by rw [hg]; exact .inr hp)
  rw [hg, hn] at hroom
  exact ⟨_, (exec_openReceive_again h hi).trans (congrArg _ hroom),
    only_emit (only_updQueue (only_setInb ((dropInb_only ..).in) (by decide)) (by decide)) (by decide), rfl,
    dropInb_none (List.find?_some hi :)⟩

theorem letIn_noUnits {r : OpenReq} (hl : s.mch.inb.length < 4096) (hk : (s.queue r.queue).kind ≠ 6) (hn : r.nak = false)
    (hp : (s.queue r.queue).poolUnits < (s.queue r.queue).charge.toNat + r.grant.toNat) : s.letIn s r = s.answerOpen r .nakFull 1 0 0 := by
  have hg : (s.queue r.queue).grantFor r = r.grant.toNat := by
    rw [grantFor_plain hk, hn]
    rfl
  unfold State.letIn
  rw [hg, if_neg (Nat.not_le.2 hl), if_neg fun k => hk (of_decide_eq_true k.1), if_pos ⟨hn, hp⟩]

theorem letIn_noRecord {r : OpenReq} (hl : 4096 ≤ s.mch.inb.length) : s.letIn s r = s.answerOpen r .nakFull 2 0 0 := by
  unfold State.letIn
  exact if_pos hl

/-! ### Messages that arrive -/

/-- A record at the tail: its bytes are stored, and the ring's list ends with it. -/
theorem appendRec_queue (n : Nat) (r : RecSt) :
    ∃ t l, (s.appendRec n r).queue n =
      { s.queue n with
        recs := (s.queue n).recs ++ [{ r with unit := (s.queue n).tail.toNat, lap := (s.queue n).tailLap }], tail := t, tailLap := l } := by
  unfold State.appendRec
  extract_lets q r' t wrap u
  have hu : u.queue n = s.queue n := queue_congr (storeRecord_only ..).mch n
  rw [updQueue_queue_self, hu]
  exact ⟨_, _, rfl⟩

/-- A message placed whole is the last record of its ring, and is counted. -/
theorem placeRec_queue (n : Nat) (r : RecSt) :
    ∃ rs u l t tl a, (s.placeRec n r).queue n =
      { s.queue n with recs := rs ++ [{ r with unit := u, lap := l }], tail := t, tailLap := tl
                       placed := satAdd (s.queue n).placed 1, armedAt := a } := by
  unfold State.placeRec
  extract_lets q left a b c
  have ha : ∃ rs t tl, a.queue n = { s.queue n with recs := rs, tail := t, tailLap := tl } := by
    dsimp only [a]
    cases decide (left < r.units) with
    | true =>
      obtain ⟨t, l, h⟩ := appendRec_queue (s := s) n { kind := 2, unit := 0, lap := false, units := left, body := [], conn := 0, chip := 0,
                                                       seq := 0, gap := false, inb := none, placed := s.now }
      exact ⟨_, t, l, h⟩
    | false => exact ⟨_, _, _, rfl⟩
  obtain ⟨rs, t, tl, ha⟩ := ha
  obtain ⟨t', tl', hb⟩ := appendRec_queue (s := a) n r
  have hc : c.queue n = { b.queue n with placed := satAdd (b.queue n).placed 1 } := updQueue_queue_self ..
  rw [hb, ha] at hc
  split
  · have harm := congrArg (fun q : QueueSt => { q with armedAt := none }) hc
    exact ⟨_, _, _, _, _, none, (updQueue_queue_self ..).trans harm⟩
  · exact ⟨_, _, _, _, _, _, hc⟩

/-- A message that finds a slot gives it back, and is taken. -/
theorem exec_messageArrive {m : Msg}
    (h : (⟨m.srcChip, m.conn, m.serial, m.seq⟩ : AsmSlot) ∈ s.mch.slots.get (s.queue m.queue).half ∨
      (s.mch.slots.get (s.queue m.queue).half).length < 64) :
    exec (.messageArrive m) s = .next (State.takeMsg { s with mch := { s.mch with slots := (s.mch.slots.set (s.queue m.queue).half
      ((s.mch.slots.get (s.queue m.queue).half).erase ⟨m.srcChip, m.conn, m.serial, m.seq⟩)) } } m) :=
  if_neg fun k => h.elim (fun q => k.1 q) fun q => absurd k.2 (Nat.not_le.2 q)

theorem takeMsg_refused {m : Msg} {st : Status} {d : BitVec 4} (h : s.arriveCheck m.poisoned (s.queue m.queue) = some (st, d)) :
    s.takeMsg m = s.nakMsg m st d := by
  unfold State.takeMsg
  dsimp only
  rw [h]

theorem takeMsg_unknown {m : Msg} (h : s.arriveCheck m.poisoned (s.queue m.queue) = none)
    (hx : (s.mch.inb.find? fun x => x.is m.srcChip m.conn && x.serial = m.serial) = none) : s.takeMsg m = s.nakMsg m .nakStale 5 := by
  unfold State.takeMsg
  dsimp only
  rw [h, hx]

/-- The record that a message becomes. -/
def recordOf (m : Msg) (x : InbSt) (now : Nat) : RecSt :=
  { kind := if m.sum then 3 else 1, unit := 0, lap := false, units := recUnits m.body.length, body := m.body, conn := m.conn
    chip := m.srcChip, seq := m.seq, gap := x.gap, inb := some (m.srcChip.toNat, m.conn.toNat, m.serial.toNat), placed := now
    wrong := m.wrong }

/-- A change of the inbound records of a message's connection. -/
def State.updInb (s : State) (m : Msg) (f : InbSt → InbSt) : State :=
  s.setInb fun l => l.map fun y => if y.is m.srcChip m.conn then f y else y

theorem takeMsg_placed {m : Msg} {x : InbSt} (h : s.arriveCheck m.poisoned (s.queue m.queue) = none)
    (hx : (s.mch.inb.find? fun x => x.is m.srcChip m.conn && x.serial = m.serial) = some x) (hk : (s.queue m.queue).kind ≠ 6)
    (hp : x.nak = false ∨ (s.queue m.queue).charge.toNat + recUnits m.body.length ≤ (s.queue m.queue).poolUnits) :
    s.takeMsg m = ((s.placeRec m.queue (recordOf m x s.now)).when x.nak fun s =>
      s.updQueue m.queue fun q => { q with charge := q.charge + BitVec.ofNat 18 (recUnits m.body.length) }).updInb m
        fun y => { y with gap := false } := by
  unfold State.takeMsg
  dsimp only
  rw [h]
  dsimp only
  rw [hx]
  dsimp only
  rw [if_neg hk, if_neg]
  · rfl
  · rintro ⟨hn, hlt⟩
    obtain hp | hp := hp
    · exact Bool.noConfusion (hp.symm.trans hn)
    · exact absurd hlt (Nat.not_lt.2 hp)

theorem takeMsg_full {m : Msg} {x : InbSt} (h : s.arriveCheck m.poisoned (s.queue m.queue) = none)
    (hx : (s.mch.inb.find? fun x => x.is m.srcChip m.conn && x.serial = m.serial) = some x) (hk : (s.queue m.queue).kind ≠ 6)
    (hn : x.nak = true) (hp : (s.queue m.queue).poolUnits < (s.queue m.queue).charge.toNat + recUnits m.body.length) :
    s.takeMsg m = ((s.updQueue m.queue fun q => { q with dropped := satAdd q.dropped 1 }).updInb m
      fun y => { y with gap := true }).nakMsg m .nakFull 1 := by
  unfold State.takeMsg
  dsimp only
  rw [h]
  dsimp only
  rw [hx]
  dsimp only
  rw [if_neg hk, if_pos ⟨hn, hp⟩]
  rfl

theorem takeMsg_chord {m : Msg} {x : InbSt} (h : s.arriveCheck m.poisoned (s.queue m.queue) = none)
    (hx : (s.mch.inb.find? fun x => x.is m.srcChip m.conn && x.serial = m.serial) = some x) (hk : (s.queue m.queue).kind = 6)
    (hl : m.body.length = (s.queue m.queue).chordE * (s.queue m.queue).chordW) :
    s.takeMsg m = s.updQueue m.queue fun q =>
      { q with
        filled := Tab.put q.filled x.index ((Tab.get 0 (s.queue m.queue).filled x.index + 1) % 2 ^ 32)
        bodies := q.bodies ++ [⟨x.index, Tab.get 0 (s.queue m.queue).filled x.index, m.body, m.srcChip.toNat, m.conn.toNat,
          m.serial.toNat⟩] } := by
  unfold State.takeMsg
  dsimp only
  rw [h]
  dsimp only
  rw [hx]
  dsimp only
  rw [if_pos hk, if_neg (not_not_intro hl)]

theorem takeMsg_placed_reads {m : Msg} {x : InbSt} (h : s.arriveCheck m.poisoned (s.queue m.queue) = none)
    (hx : (s.mch.inb.find? fun x => x.is m.srcChip m.conn && x.serial = m.serial) = some x) (hk : (s.queue m.queue).kind ≠ 6)
    (hp : x.nak = false ∨ (s.queue m.queue).charge.toNat + recUnits m.body.length ≤ (s.queue m.queue).poolUnits) :
    ((s.takeMsg m).queue m.queue).placed = satAdd (s.queue m.queue).placed 1 ∧
      ((s.takeMsg m).queue m.queue).charge = (s.queue m.queue).charge +
        (if x.nak then BitVec.ofNat 18 (recUnits m.body.length) else 0) ∧
      ∃ r ∈ ((s.takeMsg m).queue m.queue).recs, r.body = m.body ∧ r.seq = m.seq ∧ r.gap = x.gap ∧ r.units = recUnits m.body.length := by
  obtain ⟨rs, u, l, t, tl, a, hq⟩ := placeRec_queue (s := s) m.queue (recordOf m x s.now)
  rw [takeMsg_placed h hx hk hp]
  change (((s.placeRec m.queue (recordOf m x s.now)).when x.nak fun s =>
      s.updQueue m.queue fun q => { q with charge := q.charge + BitVec.ofNat 18 (recUnits m.body.length) }).queue m.queue).placed = _ ∧
    (((s.placeRec m.queue (recordOf m x s.now)).when x.nak fun s =>
      s.updQueue m.queue fun q => { q with charge := q.charge + BitVec.ofNat 18 (recUnits m.body.length) }).queue m.queue).charge = _ ∧
    ∃ r ∈ (((s.placeRec m.queue (recordOf m x s.now)).when x.nak fun s =>
      s.updQueue m.queue fun q => { q with charge := q.charge + BitVec.ofNat 18 (recUnits m.body.length) }).queue m.queue).recs, _
  have hlast : ∀ r : RecSt, r ∈ rs ++ [r] := fun r => List.mem_append_right _ List.mem_cons_self
  cases x.nak with
  | true =>
    rw [State.when_true, updQueue_queue_self, hq]
    exact ⟨rfl, rfl, _, hlast _, rfl, rfl, rfl, rfl⟩
  | false =>
    rw [State.when_false, hq]
    exact ⟨rfl, (BitVec.add_zero _).symm, _, hlast _, rfl, rfl, rfl, rfl⟩

/-! ### Records consumed -/

/-- The record at the head is consumed. -/
theorem consumeHead_recs {n : Nat} {r : RecSt} (h : (s.queue n).nextRec = some r) :
    ((s.consumeHead n).queue n).recs = skipPad (skipPad (s.queue n).recs).tail := by
  unfold State.consumeHead
  rw [h]
  dsimp only
  rw [creditRec_recs, updQueue_queue_self, QueueSt.rehead_recs]

theorem exec_recordConsume {q : QueueN} {r : RecSt} (hm : s.mayTake q = true) (hr : (s.queue q).nextRec = some r) :
    ∃ t, exec (.recordConsume q) s = .next t ∧ s.Only t [.mch] ∧ (t.queue q).recs = skipPad (skipPad (s.queue q).recs).tail := by
  refine ⟨_, if_pos hm, only_each ((consumeHead_only ..).in) fun _ _ h => only_updQueue h (by decide), ?_⟩
  refine (State.each_read (fun u => (u.queue q).recs) (fun u e => ?_) _ _).trans (consumeHead_recs hr)
  rw [updQueue_queue]
  split
  · next h => rw [h]
  · rfl

/-! ### Credit returns -/

theorem listUpd_getElem? {α : Type} (l : List α) (n k : Nat) (f : α → α) : (listUpd l n f)[k]? = if k = n then l[k]?.map f else l[k]? := by
  induction l generalizing n k with
  | nil => cases n <;> cases k <;> simp [listUpd]
  | cons x xs ih => cases n <;> cases k <;> simp [listUpd, ih]

/-- A credit return leaves with the record's total, and starts its count again. -/
def State.returnCredit (s : State) (n : Nat) (cut : Bool) (x : InbSt) : State :=
  (s.emit (.creditReturn x.chip x.conn x.serial x.total)).setInb fun l => listUpd l n fun y => { y with pend := 0, cut := cut }

theorem returnCredit_reads {n : Nat} {x : InbSt} (h : s.inbAt n = some x) (cut : Bool) :
    s.Only (s.returnCredit n cut x) [.mch, .out] ∧ (s.returnCredit n cut x).inbAt n = some { x with pend := 0, cut := cut } ∧
      (∀ k, k ≠ n → (s.returnCredit n cut x).inbAt k = s.inbAt k) ∧
      (s.returnCredit n cut x).out = .creditReturn x.chip x.conn x.serial x.total :: s.out := by
  have hat : ∀ k, (s.returnCredit n cut x).inbAt k = if k = n then (s.inbAt k).map fun y => { y with pend := 0, cut := cut } else s.inbAt k :=
    fun k => listUpd_getElem? s.mch.inb n k _
  refine ⟨only_setInb ((emit_only ..).in) (by decide), ?_, fun k hk => ?_, rfl⟩
  · rw [hat, if_pos rfl, h]
    rfl
  · rw [hat, if_neg hk]

theorem exec_creditReturnSend {n : Nat} {x : InbSt} (h : s.inbAt n = some x) (cut : Bool) :
    exec (.creditReturnSend n cut) s =
      if x.nak = false ∧ 0 < x.pend ∧ (ceilDiv x.grant 4 ≤ x.pend ∨ x.since + 256 ≤ s.now) then .next (s.returnCredit n cut x)
      else .next s := by
  change execCreditReturnSend n cut s = _
  unfold execCreditReturnSend
  rw [h]
  rfl

theorem exec_creditReturnResend {n : Nat} {x : InbSt} (h : s.inbAt n = some x) (cut : Bool) :
    exec (.creditReturnResend n cut) s = if x.cut ∧ s.now % 1024 = 0 then .next (s.returnCredit n cut x) else .next s := by
  change execCreditReturnResend n cut s = _
  unfold execCreditReturnResend
  rw [h]
  rfl

/-! ### Close markers -/

theorem exec_closeMarkerReceive_known {chip : BitVec 10} {conn : BitVec 12} {serial : BitVec 8} {q : QueueN} {x : InbSt}
    (h : (s.mch.inb.find? fun x => x.is chip conn && x.serial = serial) = some x) :
    ∃ t, exec (.closeMarkerReceive chip conn serial q) s = .next t ∧ s.Only t [.mch, .out] ∧ t.inbOf chip conn = none ∧
      t.out = .closeAck chip conn serial :: s.out := by
  have hexec : exec (.closeMarkerReceive chip conn serial q) s = .next ((s.dropInb x).emit (.closeAck chip conn serial)) := by
    change execCloseMarkerReceive chip conn serial q s = _
    unfold execCloseMarkerReceive
    dsimp only
    rw [h]
  have hx : x.is chip conn = true := (Bool.and_eq_true_iff.1 (List.find?_some h :)).1
  refine ⟨_, hexec, only_emit ((dropInb_only ..).in) (by decide), ?_, congrArg (_ :: ·) (dropInb_only s x).out⟩
  exact List.find?_eq_none.2 fun y hy => by
    rw [dropInb_none hx y hy]
    exact Bool.false_ne_true

theorem exec_closeMarkerReceive_unknown {chip : BitVec 10} {conn : BitVec 12} {serial : BitVec 8} {q : QueueN}
    (h : (s.mch.inb.find? fun x => x.is chip conn && x.serial = serial) = none) :
    exec (.closeMarkerReceive chip conn serial q) s = .next { s with out := .closeAck chip conn serial :: s.out } := by
  change execCloseMarkerReceive chip conn serial q s = _
  unfold execCloseMarkerReceive
  dsimp only
  rw [h]
  rfl

/-- Settles O20: an OPEN, a message, a reader, a credit return and a close marker each change the records that they name. -/
theorem receiversPlaceAndCredit : Obligations.ReceiversPlaceAndCredit := by
  unfold Obligations.ReceiversPlaceAndCredit
  refine ⟨?_, ?_, ?_, ?_, ?_, ?_, ?_, ?_, ?_, ?_, ?_, ?_, ?_, ?_, ?_⟩
  · intro s r st d h
    have hcount : (s.answerOpen r st d 0 0).Only ((s.answerOpen r st d 0 0).countStale r.queue st) [.mch] := countStale_only ..
    refine ⟨_, exec_openReceive_refused h, only_countStale ((emit_only ..).in) (by decide), hcount.out, ?_⟩
    unfold State.countStale
    rw [State.when_read (fun u => u.mch.inb)]
    exact ite_self _
  · exact fun s r g h hi hl hk hp => exec_openReceive_enters h hi hl hk hp
  · rintro s u r x h hi rfl hk hn hl hp
    exact exec_openReceive_replaces h hi hk hn hl hp
  · exact fun s r h hi hk hn hl hp => (exec_openReceive_new h hi).trans (congrArg _ (letIn_noUnits hl hk hn hp))
  · exact fun s r h hi hl => (exec_openReceive_new h hi).trans (congrArg _ (letIn_noRecord hl))
  · exact fun s m hn hl => if_pos ⟨hn, hl⟩
  · rintro s u m rfl hslot
    have hexec := exec_messageArrive hslot
    refine ⟨fun st d h => hexec.trans (congrArg _ (takeMsg_refused h)), fun h hx => hexec.trans (congrArg _ (takeMsg_unknown h hx)),
      fun x h hx hk hp => ?_, fun x h hx hk hn hp => ?_, fun x h hx hk hl => ?_⟩
    · exact ⟨_, hexec, only_takeMsg ((modMch_only s fun y => { y with slots := _ }).in) (by decide), takeMsg_placed_reads h hx hk hp⟩
    · refine ⟨_, hexec.trans (congrArg _ (takeMsg_full h hx hk hn hp)),
        only_nakMsg (only_setInb (only_updQueue ((modMch_only s fun y => { y with slots := _ }).in) (by decide)) (by decide)) (by decide),
        ?_, ?_, rfl⟩
      · exact (congrArg QueueSt.dropped (updQueue_queue_self _ m.queue.val fun q => { q with dropped := satAdd q.dropped 1 }) :)
      · exact (congrArg QueueSt.recs (updQueue_queue_self _ m.queue.val fun q => { q with dropped := satAdd q.dropped 1 }) :)
    · refine ⟨_, hexec.trans (congrArg _ (takeMsg_chord h hx hk hl)),
        only_updQueue ((modMch_only s fun y => { y with slots := _ }).in) (by decide), ?_⟩
      rw [updQueue_queue_self]
      rfl
  · exact fun s q r hm hr => exec_recordConsume hm hr
  · exact fun s q hm => if_neg fun k => Bool.noConfusion (hm.symm.trans k)
  · intro s n cut x h hn hp hd
    exact ⟨_, (exec_creditReturnSend h cut).trans (if_pos ⟨hn, hp, hd⟩), returnCredit_reads h cut⟩
  · intro s n cut x h hd
    refine (exec_creditReturnSend h cut).trans (if_neg ?_)
    rintro ⟨hn, hp, hdue⟩
    obtain hd | hd | ⟨hlt, hsince⟩ := hd
    · exact Bool.noConfusion (hd.symm.trans hn)
    · omega
    · omega
  · intro s n cut x h hc hnow
    exact ⟨_, (exec_creditReturnResend h cut).trans (if_pos ⟨hc, hnow⟩), returnCredit_reads h cut⟩
  · intro s n cut x h hd
    exact (exec_creditReturnResend h cut).trans
      (if_neg fun k => hd.elim (fun q => Bool.noConfusion (q.symm.trans k.1)) fun q => q k.2)
  · exact fun s chip conn serial q x h => exec_closeMarkerReceive_known h
  · exact fun s chip conn serial q h => exec_closeMarkerReceive_unknown h

end Sys2Proof.Machine
end

section
/-!
PROOFS. The channel controllers: what a request that starts stores, carries and counts, and what its completion leaves (05 R241 to R265): O39.
-/

set_option Elab.async false

namespace Sys2Proof.Machine

variable {s : State}

/-! ### What operations of a controller leave -/

/-- The requests that have started are as they were, and so is every byte of memory. -/
structure State.SameStarted (s t : State) : Prop where
  started : ∀ p, (t.part p).started = (s.part p).started
  bytes : ∀ a, t.hbmByte a = s.hbmByte a

theorem State.SameStarted.refl (s : State) : s.SameStarted s := ⟨fun _ => rfl, fun _ => rfl⟩

theorem State.SameStarted.trans {s t u : State} (h : s.SameStarted t) (k : t.SameStarted u) : s.SameStarted u :=
  ⟨fun p => (k.started p).trans (h.started p), fun a => (k.bytes a).trans (h.bytes a)⟩

theorem State.Only.sameStarted {s t : State} {cs : List Comp} (h : s.Only t cs) (hp : Comp.parts ∉ cs := by decide)
    (hb : Comp.hbm ∉ cs := by decide) : s.SameStarted t :=
  ⟨fun p => by rw [part_congr (h.1 .parts hp)], fun a => hbmByte_congr (h.1 .hbm hb) a⟩

theorem updPart_sameStarted (p : Nat) {f : PartSt → PartSt} (hf : ∀ q, (f q).started = q.started) : s.SameStarted (s.updPart p f) := by
  refine ⟨fun q => ?_, fun a => hbmByte_congr (updPart_only ..).hbm a⟩
  rw [updPart_part]
  split
  · next h => subst h; exact hf _
  · rfl

theorem enqueueReq_sameStarted (p : Nat) (r : HbmReq) : s.SameStarted (s.enqueueReq p r) := by
  have hq : s.SameStarted (s.updPart p fun q =>
      { q with queue := q.queue ++ [{ r with id := s.hbm.nextReq }], outMax := satOfNat 12 (max q.outMax.toNat (q.outNow + 1)) }) :=
    updPart_sameStarted p fun q => rfl
  exact ⟨hq.started, fun a => hbmByte_congr' rfl rfl a⟩

theorem enqueueUn_sameStarted (p : Nat) (r : HbmReq) : s.SameStarted (s.enqueueUn p r) := by
  unfold State.enqueueUn
  extract_lets q
  split
  · exact enqueueReq_sameStarted ..
  · exact updPart_sameStarted p fun q => rfl

theorem refill_sameStarted (p : Nat) : s.SameStarted (s.refill p) := by
  unfold State.refill
  extract_lets w
  exact State.each_keeps (P := fun u => s.SameStarted u) (fun u r hu => hu.trans (enqueueUn_sameStarted ..)) w
    (updPart_sameStarted p fun q => rfl)

/-! ### Sectors checked -/

theorem enqueueUn_bad (p : Nat) (r : HbmReq) : (s.enqueueUn p r).hbm.bad = s.hbm.bad := by
  unfold State.enqueueUn
  extract_lets q
  split <;> rfl

theorem checkSector_bad (sec : Nat) : (s.checkSector sec).2.hbm.bad = s.hbm.bad := by
  unfold State.checkSector
  split
  · rfl
  · exact enqueueUn_bad ..
  · rw [(recordUe_only s sec 0).hbm]
  · rw [(recordUe_only s sec 1).hbm]

/-- A sector with two bits in error is found uncorrectable. -/
theorem checkSector_uncorrectable {sec : Nat} (h : s.sectorErr sec = some .twoBits ∨ s.sectorErr sec = some .poison) :
    (s.checkSector sec).1 = true := by
  unfold State.checkSector
  obtain h | h := h <;> rw [h]

/-- One step of a range's check: the sectors found so far, and the state. -/
def checkStep (r : List Nat × State) (sec : Nat) : List Nat × State :=
  (if (r.2.checkSector sec).1 then r.1 ++ [sec] else r.1, (r.2.checkSector sec).2)

theorem checkRange_fold (a n : Nat) : s.checkRange a n = (sectorsOf a n).foldl checkStep ([], s) := rfl

theorem checkStep_keeps (r : List Nat × State) (sec x : Nat) (h : x ∈ r.1) : x ∈ (checkStep r sec).1 := by
  unfold checkStep
  dsimp only
  split
  · exact List.mem_append_left _ h
  · exact h

theorem checkFold_keeps (xs : List Nat) (r : List Nat × State) {x : Nat} (h : x ∈ r.1) : x ∈ (xs.foldl checkStep r).1 := by
  induction xs generalizing r with
  | nil => exact h
  | cons y ys ih => exact ih _ (checkStep_keeps r y x h)

theorem checkFold_finds (xs : List Nat) (r : List Nat × State) {x : Nat} (hx : x ∈ xs)
    (h : Tab.find r.2.hbm.bad x = some .twoBits ∨ Tab.find r.2.hbm.bad x = some .poison) : x ∈ (xs.foldl checkStep r).1 := by
  induction xs generalizing r with
  | nil => exact absurd hx List.not_mem_nil
  | cons y ys ih =>
    have hbad : (checkStep r y).2.hbm.bad = r.2.hbm.bad := checkSector_bad y
    obtain rfl | hx := List.mem_cons.1 hx
    · refine checkFold_keeps ys _ ?_
      unfold checkStep
      rw [if_pos (checkSector_uncorrectable h)]
      exact List.mem_append_right _ List.mem_cons_self
    · exact ih _ hx (by rw [hbad]; exact h)

theorem checkRange_finds {a n sec : Nat} (hs : sec ∈ sectorsOf a n)
    (h : s.sectorErr sec = some .twoBits ∨ s.sectorErr sec = some .poison) : sec ∈ (s.checkRange a n).1 := by
  rw [checkRange_fold]
  exact checkFold_finds _ _ hs h

theorem checkRange_byte (a n j : Nat) : (s.checkRange a n).2.hbmByte j = s.hbmByte j := by
  rw [checkRange_fold]
  have h : ∀ (xs : List Nat) (r : List Nat × State), (xs.foldl checkStep r).2.hbmByte j = r.2.hbmByte j := by
    intro xs
    induction xs with
    | nil => exact fun r => rfl
    | cons x xs ih => exact fun r => (ih _).trans (checkSector_byte r.2 x j)
  exact h _ _

/-- The sectors of a request of 256 bytes. -/
theorem mem_sectorsOf_request (a : Nat) (i : Fin 8) : a / 32 + i.val ∈ sectorsOf a 256 := by
  unfold sectorsOf
  rw [if_neg (by decide)]
  exact List.mem_map.2 ⟨i.val, List.mem_range.2 (by omega), rfl⟩

/-! ### Stores -/

/-- The check of sectors after a store. -/
def storeChecks (xs bad : List Nat) (t : Tab SectorErr) : Tab SectorErr :=
  xs.foldl (fun t sec => if bad.contains sec then Tab.put t sec .poison else Tab.del t sec) t

theorem find_storeChecks (xs bad : List Nat) (t : Tab SectorErr) (sec : Nat) :
    Tab.find (storeChecks xs bad t) sec =
      if sec ∈ xs then (if bad.contains sec then some .poison else none) else Tab.find t sec := by
  unfold storeChecks
  induction xs generalizing t with
  | nil => rw [List.foldl_nil, if_neg List.not_mem_nil]
  | cons x xs ih =>
    rw [List.foldl_cons, ih]
    have hstep : Tab.find (if bad.contains x then Tab.put t x .poison else Tab.del t x) sec =
        if sec = x then (if bad.contains sec then some .poison else none) else Tab.find t sec := by
      by_cases hb : bad.contains x
      · rw [if_pos hb, Tab.find_put]
        by_cases hx : sec = x
        · subst hx; rw [if_pos rfl, if_pos rfl, if_pos hb]
        · rw [if_neg hx, if_neg hx]
      · rw [if_neg hb, Tab.find_del]
        by_cases hx : sec = x
        · subst hx; rw [if_pos rfl, if_pos rfl, if_neg hb]
        · rw [if_neg hx, if_neg hx]
    rw [hstep]
    by_cases hm : sec ∈ xs
    · rw [if_pos hm, if_pos (List.mem_cons_of_mem _ hm)]
    · rw [if_neg hm]
      by_cases hx : sec = x
      · subst hx; rw [if_pos rfl, if_pos List.mem_cons_self]
      · rw [if_neg hx, if_neg fun k => (List.mem_cons.1 k).elim hx hm]

theorem hbmStore_bad (a : Nat) (bs : List Byte) (bad : List Nat) :
    (s.hbmStore a bs bad).hbm.bad = storeChecks (sectorsOf a bs.length) bad s.hbm.bad := by
  unfold State.hbmStore
  extract_lets u
  have hu : u.Only (u.each (sectorsOf a bs.length) (·.dropWriteBack ·)) [.parts] :=
    only_each (.refl _ _) fun _ _ h => only_dropWriteBack h (by decide)
  rw [hu.hbm]
  rfl

theorem hbmStore_sectorErr (a : Nat) (bs : List Byte) (bad : List Nat) {sec : Nat} (h : sec ∈ sectorsOf a bs.length) :
    (s.hbmStore a bs bad).sectorErr sec = if bad.contains sec then some .poison else none := by
  unfold State.sectorErr
  rw [hbmStore_bad, find_storeChecks, if_pos h]

theorem hbmStore_sectorErr_other (a : Nat) (bs : List Byte) (bad : List Nat) {sec : Nat}
    (h : sec ∉ sectorsOf a bs.length) : (s.hbmStore a bs bad).sectorErr sec = s.sectorErr sec := by
  unfold State.sectorErr
  rw [hbmStore_bad, find_storeChecks, if_neg h]

/-! ### A request that starts -/

/-- A write leaves the queue, and its bytes are stored; `bad` are the sectors that it poisons. -/
def State.storeReq (s : State) (p : Nat) (r : HbmReq) (bad : List Nat) : State :=
  (s.updPart p fun q =>
    { q with queue := q.queue.filter (fun x => decide (x.id ≠ r.id)), lastDir := Tab.put q.lastDir r.pc r.write }).hbmStore
    (r.addr + r.off) r.data bad

/-- The sectors that a write poisons: those whose parity is wrong. -/
def HbmReq.poisons (r : HbmReq) (wrong : List Nat) : List Nat :=
  (sectorsOf (r.addr + r.off) r.data.length).filter fun sec => (wrong ++ r.wrong).contains (sec - r.addr / 32)

/-- What is recorded of poisoned sectors leaves memory and their checks. -/
theorem poisonRecord_only (r : HbmReq) (bad : List Nat) (u : State) :
    u.Only (u.when (decide (bad ≠ [])) fun s =>
      let s := s.each bad fun s sec => s.recordUe sec 2
      match s.reqTask r with
      | some t => s.detect t .parity
      | none => s) [.top, .rel, .chest, .parts, .tasks, .out] := by
  refine only_when (.refl u _) ?_
  dsimp only
  have heach : u.Only (u.each bad fun s sec => s.recordUe sec 2) [.top, .rel, .chest, .parts, .tasks, .out] :=
    only_each (.refl _ _) fun _ _ h => only_recordUe h (by decide)
  split
  · exact only_detect heach (by decide)
  · exact heach

theorem startReq_write {p : Nat} {r : HbmReq} {wrong : List Nat} {errs : List (Nat × BitErr)} (hw : r.write = true) :
    ∃ u, (s.storeReq p r (r.poisons wrong)).Only u [.top, .rel, .chest, .parts, .tasks, .out] ∧
      (r.poisons wrong = [] → u = s.storeReq p r []) ∧
      s.startReq p r wrong errs = u.updPart p fun q => { q with started := q.started ++ [r] } := by
  unfold State.startReq
  extract_lets a bad b c
  rw [if_pos hw]
  refine ⟨c, poisonRecord_only r bad b, fun hbad => ?_, rfl⟩
  have hb : bad = [] := hbad
  dsimp only [c, b]
  rw [hb, decide_eq_false (not_not_intro rfl), State.when_false]
  rfl

theorem storeReq_only (s : State) (p : Nat) (r : HbmReq) (bad : List Nat) : s.Only (s.storeReq p r bad) [.hbm, .parts] :=
  only_hbmStore ((updPart_only ..).in) (by decide)

theorem startReq_read {p : Nat} {r : HbmReq} {wrong : List Nat} {errs : List (Nat × BitErr)} (hw : r.write = false) :
    ∃ u : State, u.hbm.mem = s.hbm.mem ∧ u.hbm.epoch = s.hbm.epoch ∧ s.Only u [.hbm, .parts] ∧
      u.hbm.bad = (errs.map fun e => (r.addr / 32 + e.1, e.2)).foldl noteErr s.hbm.bad ∧
      s.startReq p r wrong errs = (u.checkRange r.addr 256).2.updPart p fun q =>
        { q with started := q.started ++ [{ r with data := s.hbmBytes r.addr 256, bad := (u.checkRange r.addr 256).1 }] } := by
  refine ⟨(s.updPart p fun q =>
    { q with queue := q.queue.filter (fun x => decide (x.id ≠ r.id)), lastDir := Tab.put q.lastDir r.pc r.write }).noteErrs
      (errs.map fun e => (r.addr / 32 + e.1, e.2)), rfl, rfl, only_noteErrs ((updPart_only ..).in) (by decide), rfl, ?_⟩
  unfold State.startReq
  dsimp only
  rw [if_neg fun k => Bool.noConfusion (hw.symm.trans k)]
  rfl

theorem exec_hbmRequestStart {p : Part} {pc : Fin 32} {cycle : Nat} {hits : List Nat} {r : HbmReq} {wrong : List (Fin 8)}
    {errs : List (Fin 8 × BitErr)} (hup : s.hbmUp p = true) (ha : s.arbitrate p pc cycle hits = (some r, false)) :
    exec (.hbmRequestStart p pc cycle hits false ⟨wrong, errs⟩) s =
      .next (s.startReq p r (wrong.map (·.val)) (errs.map fun e => (e.1.val, e.2))) := by
  change execHbmRequestStart p pc cycle hits false ⟨wrong, errs⟩ s = _
  unfold execHbmRequestStart
  rw [if_neg fun k => Bool.noConfusion (hup.symm.trans k), if_neg Bool.false_ne_true, ha]
  rfl

/-- The counters of an endangered request. -/
def State.countRisk (s : State) (p : Nat) : State :=
  (s.updPart p fun q => { q with risk := satAdd q.risk 1 }).modTel fun t => { t with cnt := { t.cnt with risk := t.cnt.risk + 1 } }

theorem exec_hbmRequestStart_risk {p : Part} {pc : Fin 32} {cycle : Nat} {hits : List Nat} {r : HbmReq} (hup : s.hbmUp p = true)
    (ha : s.arbitrate p pc cycle hits = (some r, true)) :
    exec (.hbmRequestStart p pc cycle hits false ⟨[], []⟩) s = .next ((s.countRisk p).startReq p r [] []) := by
  change execHbmRequestStart p pc cycle hits false ⟨[], []⟩ s = _
  unfold execHbmRequestStart
  rw [if_neg fun k => Bool.noConfusion (hup.symm.trans k), if_neg Bool.false_ne_true, ha]
  rfl

theorem exec_hbmRequestStart_write {p : Part} {pc : Fin 32} {cycle : Nat} {hits : List Nat} {r : HbmReq} {wrong : List (Fin 8)}
    {errs : List (Fin 8 × BitErr)} (hup : s.hbmUp p = true) (ha : s.arbitrate p pc cycle hits = (some r, false)) (hw : r.write = true)
    (hr : r.wrong = []) :
    ∃ t, exec (.hbmRequestStart p pc cycle hits false ⟨wrong, errs⟩) s = .next t ∧
      s.Only t [.top, .rel, .chest, .hbm, .parts, .tasks, .out] ∧
      (∀ j, t.hbmByte j = if r.addr + r.off ≤ j ∧ j < r.addr + r.off + r.data.length then r.data.getD (j - (r.addr + r.off)) 0
        else s.hbmByte j) ∧
      (∀ sec ∈ sectorsOf (r.addr + r.off) r.data.length, t.sectorErr sec =
        if (wrong.map (·.val)).contains (sec - r.addr / 32) then some .poison else none) ∧
      r ∈ (t.part p).started ∧ (wrong = [] → s.Only t [.hbm, .parts]) := by
  obtain ⟨u, hu, hnone, ht⟩ := startReq_write (s := s) (p := p) (r := r) (wrong := wrong.map (·.val))
    (errs := errs.map fun e => (e.1.val, e.2)) hw
  have hstore := storeReq_only s p r (r.poisons (wrong.map (·.val)))
  refine ⟨_, (exec_hbmRequestStart hup ha).trans (congrArg _ ht), only_updPart ((hstore.in).trans (hu.in)) (by decide), fun j => ?_,
    fun sec hsec => ?_, ?_, fun hwrong => ?_⟩
  · rw [hbmByte_congr (updPart_only ..).hbm, hbmByte_congr hu.hbm]
    exact hbmStore_byte ..
  · have herr : ∀ v : State, v.hbm = (s.storeReq p r (r.poisons (wrong.map (·.val)))).hbm →
        v.sectorErr sec = (s.storeReq p r (r.poisons (wrong.map (·.val)))).sectorErr sec := fun v h => by
      unfold State.sectorErr; rw [h]
    have hmem : (r.poisons (wrong.map (·.val))).contains sec = (wrong.map (·.val)).contains (sec - r.addr / 32) := by
      unfold HbmReq.poisons
      rw [hr, List.append_nil, Bool.eq_iff_iff, List.contains_iff_mem, List.mem_filter]
      exact ⟨fun k => k.2, fun k => ⟨hsec, k⟩⟩
    rw [herr _ ((updPart_only ..).hbm.trans hu.hbm)]
    refine (hbmStore_sectorErr _ _ _ hsec).trans ?_
    rw [hmem]
  · rw [updPart_part_self]
    exact List.mem_append_right _ List.mem_cons_self
  · have hbad : r.poisons (wrong.map (·.val)) = [] := by
      unfold HbmReq.poisons
      rw [hr, hwrong]
      exact List.filter_eq_nil_iff.2 fun _ _ k => Bool.noConfusion k
    rw [hnone hbad]
    exact only_updPart ((storeReq_only ..).in) (by decide)

/-- A read that starts carries the bytes as stored. -/
theorem exec_hbmRequestStart_read {p : Part} {pc : Fin 32} {cycle : Nat} {hits : List Nat} {r : HbmReq} (wrong : List (Fin 8))
    (errs : List (Fin 8 × BitErr)) (hup : s.hbmUp p = true) (ha : s.arbitrate p pc cycle hits = (some r, false))
    (hw : r.write = false) :
    ∃ t, exec (.hbmRequestStart p pc cycle hits false ⟨wrong, errs⟩) s = .next t ∧
      s.Only t [.top, .rel, .chest, .hbm, .parts, .out] ∧ (∀ j, t.hbmByte j = s.hbmByte j) ∧
      ∃ x ∈ (t.part p).started, x.id = r.id ∧ x.data = s.hbmBytes r.addr 256 ∧
        ∀ i : Fin 8, errs = [(i, .two)] → r.addr / 32 + i.val ∈ x.bad := by
  obtain ⟨u, hmem, hepoch, honly, hbad, ht⟩ := startReq_read (s := s) (p := p) (r := r) (wrong := wrong.map (·.val))
    (errs := errs.map fun e => (e.1.val, e.2)) hw
  refine ⟨_, (exec_hbmRequestStart hup ha).trans (congrArg _ ht),
    only_updPart (only_checkRange (honly.in) (by decide)) (by decide), fun j => ?_, ?_⟩
  · rw [hbmByte_congr (updPart_only ..).hbm, checkRange_byte]
    exact hbmByte_congr' hmem hepoch j
  · refine ⟨{ r with data := s.hbmBytes r.addr 256, bad := (u.checkRange r.addr 256).1 }, ?_, rfl, rfl, fun i hi => ?_⟩
    · rw [updPart_part_self]
      exact List.mem_append_right _ List.mem_cons_self
    · refine checkRange_finds (mem_sectorsOf_request r.addr i) ?_
      unfold State.sectorErr
      rw [hbad, hi]
      change Tab.find (noteErr s.hbm.bad (r.addr / 32 + i.val, .two)) _ = _ ∨ Tab.find (noteErr s.hbm.bad (r.addr / 32 + i.val, .two)) _ = _
      unfold noteErr
      by_cases hp : Tab.find s.hbm.bad (r.addr / 32 + i.val) = some .poison
      · exact .inr (by rw [if_pos hp]; exact hp)
      · exact .inl (by rw [if_neg hp]; exact (Tab.find_put ..).trans (if_pos rfl))

/-- A store touches no other part of a partition than its queues. -/
theorem storeReq_risk (p q : Nat) (r : HbmReq) (bad : List Nat) : ((s.storeReq p r bad).part q).risk = (s.part q).risk := by
  have hdrop : ∀ (u : State) (sec : Nat), ((u.dropWriteBack sec).part q).risk = (u.part q).risk := fun u sec => by
    unfold State.dropWriteBack
    rw [updPart_part]
    split
    · next h => rw [h]
    · rfl
  have hqueue : ((s.updPart p fun q =>
      { q with queue := q.queue.filter (fun x => decide (x.id ≠ r.id)), lastDir := Tab.put q.lastDir r.pc r.write }).part q).risk =
      (s.part q).risk := by
    rw [updPart_part]
    split
    · next h => rw [h]
    · rfl
  unfold State.storeReq State.hbmStore
  exact (State.each_read (fun u => (u.part q).risk) (fun u sec => hdrop u sec) _ _).trans hqueue

theorem exec_hbmRequestStart_endangered {p : Part} {pc : Fin 32} {cycle : Nat} {hits : List Nat} {r : HbmReq} (hup : s.hbmUp p = true)
    (ha : s.arbitrate p pc cycle hits = (some r, true)) (hw : r.write = true) (hr : r.wrong = []) :
    ∃ t, exec (.hbmRequestStart p pc cycle hits false ⟨[], []⟩) s = .next t ∧ s.Only t [.tel, .hbm, .parts] ∧
      (t.part p).risk = satAdd (s.part p).risk 1 ∧ t.tel.cnt.risk = s.tel.cnt.risk + 1 ∧ r ∈ (t.part p).started := by
  obtain ⟨u, -, hnone, ht⟩ := startReq_write (s := s.countRisk p) (p := p) (r := r) (wrong := []) (errs := []) hw
  have hbad : r.poisons [] = [] := by
    unfold HbmReq.poisons
    rw [hr]
    exact List.filter_eq_nil_iff.2 fun _ _ k => Bool.noConfusion k
  rw [hnone hbad] at ht
  have hrisk : ((s.countRisk p).part p).risk = satAdd (s.part p).risk 1 :=
    (congrArg PartSt.risk (updPart_part_self s p fun q => { q with risk := satAdd q.risk 1 }) :)
  have hcount : s.Only (s.countRisk p) [.tel, .hbm, .parts] := only_modTel ((updPart_only ..).in) (by decide)
  have hstore := storeReq_only (s.countRisk p) p r []
  refine ⟨_, (exec_hbmRequestStart_risk hup ha).trans (congrArg _ ht),
    only_updPart (hcount.trans (hstore.in)) (by decide), ?_, ?_, ?_⟩
  · rw [updPart_part_self]
    exact (storeReq_risk ..).trans hrisk
  · rw [(updPart_only ..).tel, hstore.tel]
    rfl
  · rw [updPart_part_self]
    exact List.mem_append_right _ List.mem_cons_self

end Sys2Proof.Machine
end

section
/-!
PROOFS. Requests that complete: read data, acknowledgements, refreshes and scrubs (05 R238, R242, R245, R253, R257, R290): O39.
-/

set_option Elab.async false

namespace Sys2Proof.Machine

variable {s : State}

/-! ### Requests that an engine held go out -/

/-- What a request's way to its controller leaves: the started requests, memory, and which drawers each context has. -/
structure State.Drains (s t : State) : Prop extends s.SameStarted t where
  drawers : ∀ key, (t.ctx key).drawers.map (·.k) = (s.ctx key).drawers.map (·.k)

theorem State.Drains.refl (s : State) : s.Drains s := ⟨.refl s, fun _ => rfl⟩

theorem State.Drains.trans {s t u : State} (h : s.Drains t) (k : t.Drains u) : s.Drains u :=
  ⟨h.toSameStarted.trans k.toSameStarted, fun key => (k.drawers key).trans (h.drawers key)⟩

theorem State.Only.drains {s t : State} {cs : List Comp} (h : s.Only t cs) (hp : Comp.parts ∉ cs := by decide)
    (hb : Comp.hbm ∉ cs := by decide) (hc : Comp.ctxs ∉ cs := by decide) : s.Drains t :=
  ⟨h.sameStarted hp hb, fun key => by rw [ctx_congr (h.1 .ctxs hc)]⟩

theorem updCtx_drains (key : Nat) {f : CtxSt → CtxSt} (hf : ∀ x, (f x).drawers.map (·.k) = x.drawers.map (·.k)) :
    s.Drains (s.updCtx key f) := by
  refine ⟨(updCtx_only ..).sameStarted, fun n => ?_⟩
  rw [updCtx_ctx]
  split
  · next h => subst h; exact hf _
  · rfl

theorem updDrawer_drains (key k : Nat) {f : DrawerRt → DrawerRt} (hf : ∀ d, (f d).k = d.k) : s.Drains (s.updDrawer key k f) := by
  refine updCtx_drains key fun x => ?_
  rw [List.map_map]
  refine List.map_congr_left fun d _ => ?_
  dsimp only [Function.comp]
  split
  · exact hf d
  · rfl

theorem recordDrawer_drains (key k : Nat) (slack : Int) (fill : Nat) : s.Drains (s.recordDrawer key k slack fill) := by
  unfold State.recordDrawer
  extract_lets sl a
  exact State.Drains.trans (t := a) (updCtx_drains key fun x => rfl) (modTel_only ..).drains

theorem enqueueReq_drains (p : Nat) (r : HbmReq) : s.Drains (s.enqueueReq p r) :=
  ⟨enqueueReq_sameStarted p r, fun _ => rfl⟩

theorem sendReq_drains (c : Nat) (r : HbmReq) : s.Drains (s.sendReq c r) := by
  unfold State.sendReq
  extract_lets a b
  have hb : s.Drains b := (enqueueReq_drains ..).trans (updClus_only ..).drains
  split
  · next key k j hwho =>
    extract_lets d x
    have hd : s.Drains d := hb.trans (updDrawer_drains key k fun d => rfl)
    split
    · split
      · exact hd.trans (recordDrawer_drains ..)
      · exact hd
    · exact hd
  · exact hb

theorem drain_drains (c : Nat) : s.Drains (s.drain c) := by
  unfold State.drain
  extract_lets w a
  refine State.each_keeps (P := fun u => s.Drains u) (fun u r hu => ?_) w (updClus_only ..).drains
  split
  · exact hu.trans (sendReq_drains ..)
  · exact hu.trans (updClus_only ..).drains

theorem drainAll_drains : s.Drains s.drainAll :=
  State.each_keeps (P := fun u => s.Drains u) (fun _ c hu => hu.trans (drain_drains c)) _ (.refl s)

/-- A context has no drawer of a number that none of its drawers bears. -/
theorem drawer?_none {x : CtxSt} {k : Nat} (h : k ∉ x.drawers.map (·.k)) : x.drawer? k = none :=
  List.find?_eq_none.2 fun d hd hk => h (List.mem_map.2 ⟨d, hd, of_decide_eq_true hk⟩)

/-! ### A request leaves its controller -/

/-- What is left as a request of a drawer leaves its controller. -/
structure State.Ended (s t : State) (p : Nat) (r : HbmReq) (key : Nat) : Prop where
  only : s.Only t [.hbm, .parts, .cluss, .ctxs]
  bytes : ∀ a, t.hbmByte a = s.hbmByte a
  gone : ∀ x ∈ (t.part p).started, x.id ≠ r.id
  ctx : t.ctx key = { s.ctx key with outstanding := (s.ctx key).outstanding - 1 }
  ptOf : ∀ lt, t.ptOf lt = s.ptOf lt

theorem ptOf_updClus {c : Nat} {f : ClusSt → ClusSt} (hf : ∀ x, (f x).remap = x.remap) (lt : Nat) :
    (s.updClus c f).ptOf lt = s.ptOf lt := by
  unfold State.ptOf State.remapIdx
  rw [updClus_clus]
  split
  · next h => rw [hf, h]
  · rfl

theorem ptOf_congr {s t : State} (h : t.cluss = s.cluss) (lt : Nat) : t.ptOf lt = s.ptOf lt := by
  unfold State.ptOf State.remapIdx State.clus
  rw [h]

theorem endReq_ended {p : Nat} {r : HbmReq} {key k j : Nat} (h : r.who = .drawer key k j) : s.Ended (s.endReq p r) p r key := by
  have hfree : s.Only ((s.updPart p fun q => { q with started := q.started.filter fun x => decide (x.id ≠ r.id) }).refill p)
      [.hbm, .parts] := only_refill ((updPart_only ..).in) (by decide)
  have hstart := refill_sameStarted (s := s.updPart p fun q => { q with started := q.started.filter fun x => decide (x.id ≠ r.id) }) p
  have hend : s.endReq p r = (((s.updPart p fun q => { q with started := q.started.filter fun x => decide (x.id ≠ r.id) }).refill p).updClus
      (key / 64) fun c => { c with outstanding := c.outstanding - 1 }).updCtx key fun x => { x with outstanding := x.outstanding - 1 } := by
    unfold State.endReq
    rw [h]
    rfl
  rw [hend]
  generalize ((s.updPart p fun q => { q with started := q.started.filter fun x => decide (x.id ≠ r.id) }).refill p) = u at hfree hstart
  have hlast : u.Only ((u.updClus (key / 64) fun c => { c with outstanding := c.outstanding - 1 }).updCtx key
      fun x => { x with outstanding := x.outstanding - 1 }) [.cluss, .ctxs] := only_updCtx ((updClus_only ..).in) (by decide)
  refine ⟨(hfree.in).trans (hlast.in), fun a => ?_, fun x hx => ?_, ?_, fun lt => ?_⟩
  · rw [hbmByte_congr hlast.hbm]
    exact (hstart.bytes a).trans (hbmByte_congr (updPart_only ..).hbm a)
  · rw [part_congr hlast.parts, hstart.started, updPart_part_self] at hx
    exact of_decide_eq_true (List.mem_filter.1 hx).2
  · rw [updCtx_ctx_self, ctx_congr (updClus_only ..).ctxs, ctx_congr hfree.ctxs]
  · rw [ptOf_congr (updCtx_only ..).cluss, ptOf_updClus (f := fun c => { c with outstanding := c.outstanding - 1 }) (fun _ => rfl), ptOf_congr hfree.cluss]

/-! ### Reads -/

/-- Data of a read placed in its drawer. -/
def State.landRead (s : State) (key k j : Nat) (u : StreamUse) (d : DrawerRt) (r : HbmReq) : State :=
  ((s.fillDrawer key u k (256 * j) r.data).updDrawer key k fun d =>
    { d with
      poisoned := d.poisoned ++ poisonedWords r.addr (256 * j) r.bad
      acked := if d.due then d.acked + 1 else d.acked, ahead := if d.due then d.ahead else d.ahead ++ [j] }).when d.due (·.checkFull key k)

theorem exec_hbmReadComplete_drawer {p : Part} {req : Nat} {r : HbmReq} {key k j : Nat} {u : StreamUse} {d : DrawerRt}
    (hr : ((s.part p).started.find? fun r => decide (r.id = req) && !r.write) = some r) (hwho : r.who = .drawer key k j)
    (hu : (s.ctx key).use? = some u) (hd : (s.ctx key).drawer? k = some d) (ha : (s.ctx key).state = .active) :
    exec (.hbmReadComplete p req) s = .next ((s.endReq p r).landRead key k j u d r).drainAll := by
  have hend := endReq_ended (s := s) (p := p) hwho
  change execHbmReadComplete p req s = _
  unfold execHbmReadComplete
  rw [hr]
  dsimp only
  rw [hwho]
  dsimp only
  rw [hend.ctx]
  have hu' : CtxSt.use? { s.ctx key with outstanding := (s.ctx key).outstanding - 1 } = some u := hu
  have hd' : CtxSt.drawer? { s.ctx key with outstanding := (s.ctx key).outstanding - 1 } k = some d := hd
  rw [hu', hd']
  dsimp only
  rw [if_neg (not_not_intro ha)]
  unfold State.landRead State.when
  rfl

theorem landRead_only (key k j : Nat) (u : StreamUse) (d : DrawerRt) (r : HbmReq) :
    s.Only (s.landRead key k j u d r) [.tel, .tiles, .ctxs] := by
  have hfill : s.Only (s.fillDrawer key u k (256 * j) r.data) [.tel, .tiles, .ctxs] := (fillDrawer_only ..).in
  exact only_when (only_updDrawer hfill (by decide)) (only_checkFull (only_updDrawer hfill (by decide)) (by decide))

theorem landRead_sram {key k j : Nat} {u : StreamUse} (d : DrawerRt) (r : HbmReq)
    (h : s.tileInReset (s.ptOf (useLt key u)) = false) :
    ((s.landRead key k j u d r).tile (s.ptOf (useLt key u))).sram =
      Mem.writeZ (s.tile (s.ptOf (useLt key u))).sram (u.base k + 256 * j) r.data := by
  have hfill : ((s.fillDrawer key u k (256 * j) r.data).tile (s.ptOf (useLt key u))).sram =
      Mem.writeZ (s.tile (s.ptOf (useLt key u))).sram (u.base k + 256 * j) r.data := by
    unfold State.fillDrawer
    dsimp only
    rw [h, Bool.not_false, State.when_true, updTile_tile_self]
  have hrest : (s.fillDrawer key u k (256 * j) r.data).Only (s.landRead key k j u d r) [.tel, .ctxs] :=
    only_when ((updDrawer_only ..).in) (only_checkFull ((updDrawer_only ..).in) (by decide))
  rw [tile_congr hrest.tiles]
  exact hfill

theorem tileInReset_congr {s t : State} (hh : t.healx = s.healx) (hr : t.rstc = s.rstc) (ht : t.tiles = s.tiles) (pt : Nat) :
    t.tileInReset pt = s.tileInReset pt := by
  unfold State.tileInReset State.clusInReset State.partInReset State.partMode State.tile
  rw [hh, hr, ht]

theorem exec_hbmReadComplete_lands {p : Part} {req : Nat} {r : HbmReq} {key k j : Nat} {u : StreamUse} {d : DrawerRt}
    (hr : ((s.part p).started.find? fun r => decide (r.id = req) && !r.write) = some r) (hwho : r.who = .drawer key k j)
    (hu : (s.ctx key).use? = some u) (hd : (s.ctx key).drawer? k = some d) (ha : (s.ctx key).state = .active)
    (ht : s.tileInReset (s.ptOf (useLt key u)) = false) :
    ∃ t, exec (.hbmReadComplete p req) s = .next t ∧ s.Only t [.tel, .hbm, .parts, .cluss, .tiles, .ctxs] ∧
      (∀ a, t.hbmByte a = s.hbmByte a) ∧ (∀ x ∈ (t.part p).started, x.id ≠ req) ∧
      (t.tile (s.ptOf (useLt key u))).sram = Mem.writeZ (s.tile (s.ptOf (useLt key u))).sram (u.base k + 256 * j) r.data := by
  have hid : r.id = req := of_decide_eq_true (Bool.and_eq_true_iff.1 (List.find?_some hr :)).1
  have hend := endReq_ended (s := s) (p := p) hwho
  have hland := landRead_only (s := s.endReq p r) key k j u d r
  have hdrain := drainAll_drains (s := (s.endReq p r).landRead key k j u d r)
  have hsram := landRead_sram (s := s.endReq p r) (key := key) (k := k) (j := j) (u := u) d r
    (by rw [hend.ptOf, tileInReset_congr hend.only.healx hend.only.rstc hend.only.tiles]; exact ht)
  rw [hend.ptOf, tile_congr hend.only.tiles] at hsram
  refine ⟨_, exec_hbmReadComplete_drawer hr hwho hu hd ha, only_drainAll ((hend.only.in).trans (hland.in)) (by decide), fun a => ?_,
    fun x hx => ?_, ?_⟩
  · rw [hdrain.bytes, hbmByte_congr hland.hbm, hend.bytes]
  · rw [hdrain.started, part_congr hland.parts] at hx
    rw [← hid]
    exact hend.gone x hx
  · rw [tile_congr (drainAll_only ..).tiles]
    exact hsram

/-! ### Writes acknowledged -/

/-- An acknowledgement counts for its drawer, and the drawers that have all of theirs are freed. -/
def State.ackWrite (s : State) (key k : Nat) : State :=
  (s.updDrawer key k fun d => { d with acked := d.acked + 1 }).updCtx key fun x =>
    { x with lastAck := s.now, drawers := x.drawers.filter fun d => !(d.due && decide (d.want ≤ d.acked)) }

theorem exec_hbmWriteAck_drawer {p : Part} {req : Nat} {r : HbmReq} {key k j : Nat}
    (hr : ((s.part p).started.find? fun r => decide (r.id = req) && r.write) = some r) (hwho : r.who = .drawer key k j) :
    exec (.hbmWriteAck p req) s = .next ((s.endReq p r).ackWrite key k).drainAll := by
  change execHbmWriteAck p req s = _
  unfold execHbmWriteAck
  rw [hr]
  dsimp only
  rw [hwho]
  rfl

/-- The last acknowledgement of a write drawer frees it. -/
theorem ackWrite_frees {key k : Nat} (h : ∀ d ∈ (s.ctx key).drawers, d.k = k → d.due = true ∧ d.want ≤ d.acked + 1) :
    k ∉ ((s.ackWrite key k).ctx key).drawers.map (·.k) := by
  unfold State.ackWrite State.updDrawer
  rw [updCtx_ctx_self, updCtx_ctx_self]
  intro hk
  obtain ⟨d, hd, rfl⟩ := List.mem_map.1 hk
  obtain ⟨hmem, hkeep⟩ := List.mem_filter.1 hd
  obtain ⟨e, he, heq⟩ := List.mem_map.1 hmem
  by_cases hke : e.k = d.k
  · obtain ⟨hdue, hwant⟩ := h e he hke
    rw [if_pos hke] at heq
    subst heq
    rw [show ({ e with acked := e.acked + 1 } : DrawerRt).due = true from hdue, decide_eq_true hwant] at hkeep
    exact Bool.noConfusion hkeep
  · rw [if_neg hke] at heq
    exact hke (congrArg DrawerRt.k heq)

theorem exec_hbmWriteAck_last {p : Part} {req : Nat} {r : HbmReq} {key k j : Nat}
    (hr : ((s.part p).started.find? fun r => decide (r.id = req) && r.write) = some r) (hwho : r.who = .drawer key k j)
    (hall : ∀ d ∈ (s.ctx key).drawers, d.k = k → d.due = true ∧ d.want ≤ d.acked + 1) :
    ∃ t, exec (.hbmWriteAck p req) s = .next t ∧ s.Only t [.tel, .hbm, .parts, .cluss, .ctxs] ∧
      (∀ a, t.hbmByte a = s.hbmByte a) ∧ (∀ x ∈ (t.part p).started, x.id ≠ req) ∧ (t.ctx key).drawer? k = none := by
  have hid : r.id = req := of_decide_eq_true (Bool.and_eq_true_iff.1 (List.find?_some hr :)).1
  have hend := endReq_ended (s := s) (p := p) hwho
  have hack : (s.endReq p r).Only ((s.endReq p r).ackWrite key k) [.ctxs] := only_updCtx ((updDrawer_only ..).in) (by decide)
  have hdrain := drainAll_drains (s := (s.endReq p r).ackWrite key k)
  have hfree := ackWrite_frees (s := s.endReq p r) (key := key) (k := k) (by rw [hend.ctx]; exact hall)
  refine ⟨_, exec_hbmWriteAck_drawer hr hwho, only_drainAll ((hend.only.in).trans (hack.in)) (by decide), fun a => ?_, fun x hx => ?_, ?_⟩
  · rw [hdrain.bytes, hbmByte_congr hack.hbm, hend.bytes]
  · rw [hdrain.started, part_congr hack.parts] at hx
    rw [← hid]
    exact hend.gone x hx
  · exact drawer?_none (by rw [hdrain.drawers]; exact hfree)

/-! ### Scrubs -/

/-- The read that a scrub of a sector makes. -/
def scrubReq (a now : Nat) : HbmReq :=
  { id := 0, pc := pcOf a, addr := unit256 a, write := false, data := [], cls := .unscheduled, deadline := 0, arrived := now, who := .scrub }

theorem exec_hbmScrub {p : Part} {sector : Nat} (hup : s.hbmUp p = true) (hh : (s.part p).scrubH ≠ 0) (hs : sector * 32 < 0x900000000) :
    exec (.hbmScrub p sector) s =
      .next ((s.updPart p fun q => { q with lastScrub := some sector }).enqueueUn p (scrubReq (p.val * 2 ^ 36 + sector * 32) s.now)) :=
  if_neg fun k => k.elim (fun k => Bool.noConfusion (hup.symm.trans k)) fun k => k.elim hh fun k => absurd hs (Nat.not_lt.2 k)

theorem enqueueUn_room {p : Nat} {r : HbmReq} (h : (s.part p).chanOut (r.pc / 2) < 192) (hb : (s.part p).backlog = []) :
    s.enqueueUn p r = s.enqueueReq p r := by
  unfold State.enqueueUn
  dsimp only
  rw [hb]
  exact if_pos ⟨h, rfl⟩

theorem enqueueUn_full {p : Nat} {r : HbmReq} (h : 192 ≤ (s.part p).chanOut (r.pc / 2)) :
    s.enqueueUn p r = s.updPart p fun q => { q with backlog := q.backlog ++ [r] } := by
  unfold State.enqueueUn
  exact if_neg fun k => absurd k.1 (Nat.not_lt.2 h)

theorem enqueueReq_part (p : Nat) (r : HbmReq) : (s.enqueueReq p r).part p =
    { s.part p with
      queue := (s.part p).queue ++ [{ r with id := s.hbm.nextReq }]
      outMax := satOfNat 12 (max (s.part p).outMax.toNat ((s.part p).outNow + 1)) } :=
  updPart_part_self s p fun q =>
    { q with queue := q.queue ++ [{ r with id := s.hbm.nextReq }], outMax := satOfNat 12 (max q.outMax.toNat (q.outNow + 1)) }

theorem exec_hbmScrub_queues {p : Part} {sector : Nat} (hup : s.hbmUp p = true) (hh : (s.part p).scrubH ≠ 0)
    (hs : sector * 32 < 0x900000000) (hb : (s.part p).backlog = []) :
    ∃ t, exec (.hbmScrub p sector) s = .next t ∧ s.Only t [.hbm, .parts] ∧ (t.part p).lastScrub = some sector ∧
      (∀ a, t.hbmByte a = s.hbmByte a) ∧
      ((s.part p).chanOut (pcOf (p.val * 2 ^ 36 + sector * 32) / 2) < 192 →
        (t.part p).queue = (s.part p).queue ++ [{
          id := s.hbm.nextReq, pc := pcOf (p.val * 2 ^ 36 + sector * 32), addr := unit256 (p.val * 2 ^ 36 + sector * 32)
          write := false, data := [], cls := .unscheduled, deadline := 0, arrived := s.now, who := .scrub }]) ∧
      (192 ≤ (s.part p).chanOut (pcOf (p.val * 2 ^ 36 + sector * 32) / 2) →
        (t.part p).queue = (s.part p).queue ∧ (t.part p).backlog.length = 1) := by
  have hpart : (s.updPart p fun q => { q with lastScrub := some sector }).part p = { s.part p with lastScrub := some sector } :=
    updPart_part_self ..
  refine ⟨_, exec_hbmScrub hup hh hs, only_enqueueUn ((updPart_only ..).in) (by decide), ?_, fun a => ?_, fun hroom => ?_, fun hfull => ?_⟩
  · by_cases hc : (s.part p).chanOut (pcOf (p.val * 2 ^ 36 + sector * 32) / 2) < 192
    · rw [enqueueUn_room (by rw [hpart]; exact hc) (by rw [hpart]; exact hb), enqueueReq_part, hpart]
    · rw [enqueueUn_full (by rw [hpart]; exact Nat.not_lt.1 hc), updPart_part_self, hpart]
  · rw [enqueueUn_byte]
    exact hbmByte_congr (updPart_only ..).hbm a
  · rw [enqueueUn_room (by rw [hpart]; exact hroom) (by rw [hpart]; exact hb), enqueueReq_part, hpart]
    rfl
  · rw [enqueueUn_full (by rw [hpart]; exact hfull), updPart_part_self, hpart]
    exact ⟨rfl, by rw [hb]; rfl⟩

/-- Settles O39: what starts, completes, is refreshed and is scrubbed changes memory and the queues as the clauses say. -/
theorem controllersServeRequests : Obligations.ControllersServeRequests := by
  unfold Obligations.ControllersServeRequests
  refine ⟨fun s p pc cycle hits wrong errs hup => if_pos hup, ?_,
    fun s p pc cycle hits r wrong errs hup ha hw hr => exec_hbmRequestStart_write hup ha hw hr, ?_, ?_,
    fun s p pc cycle hits r hup ha hw hr => exec_hbmRequestStart_endangered hup ha hw hr, ?_,
    fun s p req r key k j u d hr hwho hu hd ha ht => exec_hbmReadComplete_lands hr hwho hu hd ha ht, ?_,
    fun s p req r key k j hr hwho hall => exec_hbmWriteAck_last hr hwho hall, ?_, fun s p pc hot h => if_pos h,
    fun s p pc hot h => if_neg h, fun s p sector hup hh hs hb => exec_hbmScrub_queues hup hh hs hb, fun s p sector h => if_pos h⟩
  · intro s p pc cycle hits wrong errs ha
    change execHbmRequestStart p pc cycle hits false ⟨wrong, errs⟩ s = _
    unfold execHbmRequestStart
    rw [if_neg Bool.false_ne_true, ha]
    split <;> rfl
  · intro s p pc cycle hits r wrong hup ha hw
    obtain ⟨t, ht, honly, hbytes, x, hx, hid, hdata, -⟩ := exec_hbmRequestStart_read wrong [] hup ha hw
    exact ⟨t, ht, honly, hbytes, x, hx, hid, hdata⟩
  · intro s p pc cycle hits r wrong i hup ha hw
    obtain ⟨t, ht, honly, -, x, hx, hid, hdata, hbad⟩ := exec_hbmRequestStart_read wrong [(i, .two)] hup ha hw
    exact ⟨t, ht, honly, x, hx, hid, hdata, hbad i rfl⟩
  · intro s p pc cycle hits wrong errs hup
    exact (if_neg fun k => Bool.noConfusion (hup.symm.trans k)).trans (if_pos rfl)
  · intro s p req h
    change execHbmReadComplete p req s = _
    unfold execHbmReadComplete
    rw [h]
  · intro s p req h
    change execHbmWriteAck p req s = _
    unfold execHbmWriteAck
    rw [h]

end Sys2Proof.Machine
end

section
/-!
PROOFS. Routers and worms (08 R421 to R432, R460 to R464, R467; 10 R521): O22.
-/

set_option Elab.async false

namespace Sys2Proof.Machine

variable {s : State}

/-! ### Routers -/

theorem updRouter_router (s : State) (r : Router) (f : RouterSt → RouterSt) : (s.updRouter r f).router r = f (s.router r) :=
  (Tab.get_upd ..).trans (if_pos rfl)

theorem router_congr {s t : State} (h : t.spn.routers = s.spn.routers) (r : Router) : t.router r = s.router r := by
  unfold State.router
  rw [h]

theorem State.Only.router {s t : State} {cs : List Comp} (h : s.Only t cs) (r : Router) (hc : Comp.spn ∉ cs := by decide) :
    t.router r = s.router r := router_congr (congrArg SpnSt.routers (h.1 .spn hc)) r

theorem updSpn_spnHalf (s : State) (h : Half) (f : SpnHalf → SpnHalf) : (s.updSpn h f).spnHalf h = f (s.spnHalf h) := by
  cases h <;> rfl

/-- The halves' counters of the spine are the same. -/
theorem updRouter_spnHalf (s : State) (r : Router) (f : RouterSt → RouterSt) (h : Half) : (s.updRouter r f).spnHalf h = s.spnHalf h := rfl

theorem countHub_routers (s : State) (c port : Nat) (first : Bool) : (s.countHub c port first).spn.routers = s.spn.routers := by
  unfold State.countHub
  extract_lets k
  cases decide (port < 5) <;> rfl

theorem countStall_routers (s : State) (r : Router) (out : Nat) (xs : List RtWorm) :
    (s.countStall r out xs).spn.routers = s.spn.routers := by
  unfold State.countStall
  split
  · cases (decide (xs ≠ []) && decide (out < 5)) <;> rfl
  · next p _ =>
    refine State.each_keeps (P := fun u : State => u.spn.routers = s.spn.routers) (fun u vc hu => ?_) _ rfl
    cases xs.any fun x => decide (x.w.head.vc.toNat = vc) with
    | false => exact hu
    | true =>
      rw [State.when_true]
      cases decide (vc = 0) with
      | false => exact hu
      | true => exact hu
  · rfl

/-! ### Lists of worms -/

/-- The first worm for which a test holds is there as changed. -/
theorem mem_updFirst {p : RtWorm → Bool} {f : RtWorm → Option RtWorm} {x y : RtWorm} {xs : List RtWorm} (h : xs.find? p = some x)
    (hf : f x = some y) : y ∈ updFirst p f xs := by
  induction xs with
  | nil => exact nomatch h
  | cons z zs ih =>
    unfold updFirst
    cases hz : p z with
    | true =>
      obtain rfl : z = x := Option.some.inj ((List.find?_cons_of_pos hz).symm.trans h)
      rw [if_pos rfl, hf]
      exact List.mem_cons_self
    | false =>
      rw [if_neg Bool.false_ne_true]
      exact List.mem_cons_of_mem _ (ih ((List.find?_cons_of_neg (by rw [hz]; exact Bool.false_ne_true)).symm.trans h))

theorem find_self {x : RtWorm} {xs : List RtWorm} (h : x ∈ xs) : (xs.find? fun y => decide (y = x)) = some x := by
  induction xs with
  | nil => exact nomatch h
  | cons z zs ih =>
    by_cases hz : z = x
    · exact (List.find?_cons_of_pos (p := fun y => decide (y = x)) (decide_eq_true hz)).trans (congrArg some hz)
    · refine (List.find?_cons_of_neg (p := fun y => decide (y = x)) fun k => hz (of_decide_eq_true k)).trans (ih ?_)
      exact (List.mem_cons.1 h).resolve_left fun k => hz k.symm

theorem fronts_mem {r : Router} {x : RtWorm} : ∀ {xs : List RtWorm}, x ∈ fronts r xs → x ∈ xs
  | [], h => nomatch h
  | y :: ys, h => by
    unfold fronts at h
    rcases List.mem_cons.1 h with rfl | h
    · exact List.mem_cons_self
    · exact List.mem_cons_of_mem _ (fronts_mem (List.mem_filter.1 h).1)

/-! ### A head enters -/

theorem exec_wormRoute_head {r : Router} {i n : Nat} {w : Worm} {ok : Bool} (hf : fabIn r i = none)
    (hrel : (wormEdge w && releaseIn r i) = false) (hroom : s.roomAt r i w (min n (wormFlits w)) = true) :
    exec (.wormRoute r i (.head w n ok) none) s = .next (s.headIn r i 0 w (min n (wormFlits w)) ok) := by
  change execWormRoute r i (.head w n ok) none s = _
  unfold execWormRoute
  dsimp only
  rw [hrel, hroom, hf]
  rfl

/-- What a discarded worm leaves in its router: the flits still to come, if any. -/
theorem headIn_parity (s : State) (r : Router) (i left : Nat) (w : Worm) (n : Nat) :
    ∃ f, s.headIn r i left w n false = s.parityDiscard r i w ∨
      s.headIn r i left w n false = (s.parityDiscard r i w).updRouter r f := by
  unfold State.headIn
  by_cases h : wormFlits w - n = 0
  · exact ⟨id, .inl (if_pos h)⟩
  · exact ⟨_, .inr (if_neg h)⟩

theorem headIn_err {r : Router} {i left : Nat} {w : Worm} (n : Nat) (h : s.turnOf r i left w = .err) :
    ∃ f, s.headIn r i left w n true = s.routeError r i w ∨ s.headIn r i left w n true = (s.routeError r i w).updRouter r f := by
  unfold State.headIn
  rw [h]
  by_cases h : wormFlits w - n = 0
  · exact ⟨id, .inl (if_pos h)⟩
  · exact ⟨_, .inr (if_neg h)⟩

theorem headIn_down {r : Router} {i left out : Nat} {w w' : Worm} {p : FabPort} (n : Nat)
    (h : s.turnOf r i left w = .go out (.fabric p) w') (hp : (s.fab p).state ≠ .up) :
    ∃ f, s.headIn r i left w n true = (s.countCut p).cutUncrossed w ∨
      s.headIn r i left w n true = ((s.countCut p).cutUncrossed w).updRouter r f := by
  unfold State.headIn
  rw [h]
  dsimp only
  rw [if_neg hp]
  by_cases h : wormFlits w - n = 0
  · exact ⟨id, .inl (if_pos h)⟩
  · exact ⟨_, .inr (if_neg h)⟩

theorem headIn_go {r : Router} {i left out : Nat} {w w' : Worm} {dest : WormDest} (n : Nat) (h : s.turnOf r i left w = .go out dest w')
    (hup : ∀ p, dest = .fabric p → (s.fab p).state = .up) :
    s.headIn r i left w n true = s.updRouter r fun q =>
      { q with worms := q.worms ++ [⟨i, w.head.cls, w', out, dest, min n (wormFlits w), wormFlits w - n, 0⟩] } := by
  unfold State.headIn
  rw [h]
  cases dest with
  | fabric p => exact if_pos (hup p rfl)
  | link r p left => rfl
  | bridge row e left => rfl
  | here => rfl
  | sink => rfl

/-- A step of a run leaves by the output of its direction, to no fabric port. -/
theorem stepTo_go (c dir left : Nat) (w : Worm) : ∃ dest, stepTo c dir left w = .go dir dest w ∧ ∀ p, dest ≠ .fabric p := by
  unfold stepTo
  split
  · next h => exact ⟨_, by rw [h.1], fun p => WormDest.noConfusion⟩
  split
  · next h => exact ⟨_, by rw [h.1], fun p => WormDest.noConfusion⟩
  split
  · exact ⟨_, rfl, fun p => WormDest.noConfusion⟩
  · exact ⟨_, rfl, fun p => WormDest.noConfusion⟩

/-- A head with a code left. -/
theorem turnOf_hub {c : Clus} {i : Nat} {w : Worm} {code : BitVec 5} {cs : List (BitVec 5)} (h : w.head.hops = code :: cs) :
    s.turnOf (.hub c) i 0 w =
      if runOk c (code.extractLsb' 3 2).toNat ((code.extractLsb' 0 3).toNat + 1) = true then
        stepTo c (code.extractLsb' 3 2).toNat (code.extractLsb' 0 3).toNat
          { w with head := { w.head with hops := cs, nextHop := w.head.nextHop + 1 } }
      else .err := by
  unfold State.turnOf
  dsimp only
  rw [if_neg (Nat.lt_irrefl 0), h]
  dsimp only
  unfold runFrom wormStep
  rw [h]
  rfl

theorem turnOf_ring {h : Half} {i : Nat} {w : Worm} {code : BitVec 5} {cs : List (BitVec 5)} {p : FabPort} (hw : w.head.hops = code :: cs)
    (h11 : code.toNat ≠ 0x11) (h18 : code.toNat < 0x18) (hp : ringFab h code.toNat = some p) :
    s.turnOf (.ring h) i 0 w =
      .go code.toNat (.fabric p) { w with head := { w.head with hops := cs, nextHop := w.head.nextHop + 1 } } := by
  unfold State.turnOf
  dsimp only
  rw [hw]
  unfold State.ringTurn
  dsimp only
  rw [if_neg h11, if_neg (Nat.not_le.2 h18), hp]

theorem exec_head_hub {c : Clus} {i n : Nat} {w : Worm} {code : BitVec 5} {cs : List (BitVec 5)} (hw : w.head.hops = code :: cs)
    (hrun : runOk c (code.extractLsb' 3 2).toNat ((code.extractLsb' 0 3).toNat + 1) = true)
    (hrel : (wormEdge w && releaseIn (.hub c) i) = false) (hroom : s.roomAt (.hub c) i w (min n (wormFlits w)) = true) :
    ∃ t, exec (.wormRoute (.hub c) i (.head w n true) none) s = .next t ∧ s.Only t [.spn] ∧
      ∃ dest, (t.router (.hub c)).worms = (s.router (.hub c)).worms ++ [⟨i, w.head.cls,
        { w with head := { w.head with hops := cs, nextHop := w.head.nextHop + 1 } },
        (code.extractLsb' 3 2).toNat, dest, min n (wormFlits w), wormFlits w - min n (wormFlits w), 0⟩] := by
  obtain ⟨dest, hstep, hfab⟩ := stepTo_go c (code.extractLsb' 3 2).toNat (code.extractLsb' 0 3).toNat
    { w with head := { w.head with hops := cs, nextHop := w.head.nextHop + 1 } }
  have hturn := (turnOf_hub (s := s) (c := c) (i := i) hw).trans ((if_pos hrun).trans hstep)
  refine ⟨_, exec_wormRoute_head rfl hrel hroom, ?_, dest, ?_⟩
  · rw [headIn_go _ hturn fun p k => absurd k (hfab p)]
    exact updRouter_only ..
  · rw [headIn_go _ hturn fun p k => absurd k (hfab p), updRouter_router, Nat.min_eq_left (Nat.min_le_right n (wormFlits w))]

theorem exec_head_ring {h : Half} {i n : Nat} {w : Worm} {code : BitVec 5} {cs : List (BitVec 5)} {p : FabPort}
    (hi : ringFab h i = none) (hw : w.head.hops = code :: cs) (h11 : code.toNat ≠ 0x11) (h18 : code.toNat < 0x18)
    (hp : ringFab h code.toNat = some p) (hup : (s.fab p).state = .up) (hroom : s.roomAt (.ring h) i w (min n (wormFlits w)) = true) :
    ∃ t, exec (.wormRoute (.ring h) i (.head w n true) none) s = .next t ∧ s.Only t [.spn] ∧
      (t.router (.ring h)).worms = (s.router (.ring h)).worms ++ [⟨i, w.head.cls,
        { w with head := { w.head with hops := cs, nextHop := w.head.nextHop + 1 } },
        code.toNat, .fabric p, min n (wormFlits w), wormFlits w - min n (wormFlits w), 0⟩] := by
  have hturn := turnOf_ring (s := s) (i := i) hw h11 h18 hp
  have hgo := headIn_go (min n (wormFlits w)) hturn fun q k => by rw [← WormDest.fabric.inj k]; exact hup
  refine ⟨_, exec_wormRoute_head hi (by rw [show releaseIn (.ring h) i = false from congrArg Option.isSome hi, Bool.and_false]) hroom, ?_, ?_⟩
  · rw [hgo]
    exact updRouter_only ..
  · rw [hgo, updRouter_router, Nat.min_eq_left (Nat.min_le_right n (wormFlits w))]

/-! ### A head that is discarded -/

/-- A worm that is answered is on VC1, so it is no scheduled worm. -/
theorem answered_not_edge {w : Worm} (h : wormAnswered w = true) : wormEdge w = false := by
  unfold wormAnswered at h
  unfold wormEdge
  rw [of_decide_eq_true (Bool.and_eq_true_iff.1 h).1]
  rfl

theorem routeError_hub (c : Clus) (i : Nat) (w : Worm) :
    ((s.routeError (.hub c) i w).spnHalf (clusHalf c)).routeErr = satAdd (s.spnHalf (clusHalf c)).routeErr 1 ∧
      (wormAnswered w = true →
        (s.routeError (.hub c) i w).out = .nak w.head.srcChip w.head.conn w.head.serial w.head.task .routeCut 8 :: s.out) := by
  have hu : (s.updSpn (clusHalf c) fun h => { h with routeErr := satAdd h.routeErr 1 }).Only (s.routeError (.hub c) i w) [.chest, .tasks, .out] := by
    unfold State.routeError
    dsimp only [fabIn, routerHalf]
    split
    · exact only_detect ((routeNak_only ..).in) (by decide)
    · exact (routeNak_only ..).in
  refine ⟨?_, fun ha => ?_⟩
  · unfold State.spnHalf
    rw [hu.spn]
    exact congrArg SpnHalf.routeErr (updSpn_spnHalf ..)
  · unfold State.routeError
    dsimp only [fabIn]
    rw [answered_not_edge ha, if_neg Bool.false_ne_true]
    unfold State.routeNak
    rw [ha]
    rfl

theorem exec_head_err {c : Clus} {i n : Nat} {w : Worm} {code : BitVec 5} {cs : List (BitVec 5)} (hw : w.head.hops = code :: cs)
    (hrun : runOk c (code.extractLsb' 3 2).toNat ((code.extractLsb' 0 3).toNat + 1) = false)
    (hrel : (wormEdge w && releaseIn (.hub c) i) = false) (hroom : s.roomAt (.hub c) i w (min n (wormFlits w)) = true) :
    ∃ t, exec (.wormRoute (.hub c) i (.head w n true) none) s = .next t ∧ s.Only t [.chest, .spn, .fabs, .tasks, .out] ∧
      (t.spnHalf (clusHalf c)).routeErr = satAdd (s.spnHalf (clusHalf c)).routeErr 1 ∧
      (wormAnswered w = true →
        t.out = .nak w.head.srcChip w.head.conn w.head.serial w.head.task .routeCut 8 :: s.out) := by
  have hturn := (turnOf_hub (s := s) (c := c) (i := i) hw).trans (if_neg (by rw [hrun]; exact Bool.false_ne_true))
  obtain ⟨f, hin | hin⟩ := headIn_err (min n (wormFlits w)) hturn
  · exact ⟨_, (exec_wormRoute_head rfl hrel hroom).trans (congrArg _ hin), routeError_only .., routeError_hub c i w⟩
  · exact ⟨_, (exec_wormRoute_head rfl hrel hroom).trans (congrArg _ hin), only_updRouter (routeError_only ..) (by decide), routeError_hub c i w⟩

theorem exec_head_down {h : Half} {i n : Nat} {w : Worm} {code : BitVec 5} {cs : List (BitVec 5)} {p : FabPort}
    (hi : ringFab h i = none) (hw : w.head.hops = code :: cs) (h11 : code.toNat ≠ 0x11) (h18 : code.toNat < 0x18)
    (hp : ringFab h code.toNat = some p) (hup : (s.fab p).state ≠ .up) (hroom : s.roomAt (.ring h) i w (min n (wormFlits w)) = true) :
    ∃ t, exec (.wormRoute (.ring h) i (.head w n true) none) s = .next t ∧ s.Only t [.chest, .spn, .fabs, .tasks, .out] ∧
      (t.fab p).cuts = satAdd (s.fab p).cuts 1 ∧ (t.fab p).cut = true := by
  have hrel : (wormEdge w && releaseIn (.ring h) i) = false := by
    rw [show releaseIn (.ring h) i = false from congrArg Option.isSome hi, Bool.and_false]
  have hcut : ((s.countCut p).cutUncrossed w).fab p = { s.fab p with cut := true, cuts := satAdd (s.fab p).cuts 1 } :=
    (fab_congr (cutUncrossed_only ..).fabs p).trans (updFab_fab_self ..)
  have honly : s.Only ((s.countCut p).cutUncrossed w) [.chest, .spn, .fabs, .tasks, .out] := only_cutUncrossed ((countCut_only ..).in) (by decide)
  obtain ⟨f, hin | hin⟩ := headIn_down (min n (wormFlits w)) (turnOf_ring (s := s) (i := i) hw h11 h18 hp) hup
  · exact ⟨_, (exec_wormRoute_head (r := .ring h) hi hrel hroom).trans (congrArg _ hin), honly, by rw [hcut], by rw [hcut]⟩
  · refine ⟨_, (exec_wormRoute_head (r := .ring h) hi hrel hroom).trans (congrArg _ hin), only_updRouter honly (by decide), ?_, ?_⟩
    · rw [fab_congr (updRouter_only ..).fabs, hcut]
    · rw [fab_congr (updRouter_only ..).fabs, hcut]

theorem parityDiscard_counts (r : Router) (i : Nat) (w : Worm) : (s.parityDiscard r i w).rel.parity = satAdd s.rel.parity 1 := by
  have hu : (s.modRel fun x => { x with parity := satAdd x.parity 1 }).Only (s.parityDiscard r i w) [.chest, .tasks, .out] := by
    unfold State.parityDiscard
    dsimp only
    split
    · exact only_detect ((routeNak_only ..).in) (by decide)
    split
    · exact only_emit ((routeNak_only ..).in) (by decide)
    · exact (routeNak_only ..).in
  rw [hu.rel]
  rfl

theorem exec_head_parity {c : Clus} {i n : Nat} {w : Worm} (hrel : (wormEdge w && releaseIn (.hub c) i) = false)
    (hroom : s.roomAt (.hub c) i w (min n (wormFlits w)) = true) :
    ∃ t, exec (.wormRoute (.hub c) i (.head w n false) none) s = .next t ∧ s.Only t [.rel, .chest, .spn, .tasks, .out] ∧
      t.rel.parity = satAdd s.rel.parity 1 := by
  obtain ⟨f, hin | hin⟩ := headIn_parity s (.hub c) i 0 w (min n (wormFlits w))
  · exact ⟨_, (exec_wormRoute_head rfl hrel hroom).trans (congrArg _ hin), (parityDiscard_only ..).in, parityDiscard_counts ..⟩
  · exact ⟨_, (exec_wormRoute_head rfl hrel hroom).trans (congrArg _ hin), only_updRouter ((parityDiscard_only ..).in) (by decide),
      parityDiscard_counts (.hub c) i w⟩

/-! ### Flits that follow -/

theorem more_some {x : RtWorm} (n : Nat) (h : x.dest ≠ .sink) :
    x.more n = some { x with here := x.here + min n x.due, due := x.due - min n x.due } := if_neg h

theorem exec_wormRoute_flits {c : Clus} {i n : Nat} {vc : BitVec 2} {x : RtWorm}
    (hx : (s.router (.hub c)).worms.find? (entering i vc) = some x)
    (hroom : s.roomAt (.hub c) i { x.w with head := { x.w.head with cls := x.cls } } (min n x.due) = true) :
    exec (.wormRoute (.hub c) i (.flits vc n) none) s = .next (s.flitsIn (.hub c) i vc (min n x.due)) := by
  change execWormRoute (.hub c) i (.flits vc n) none s = _
  unfold execWormRoute
  dsimp only
  rw [hx]
  exact if_neg fun k => Bool.noConfusion (hroom.symm.trans k.2)

theorem exec_flits_enter {c : Clus} {i n : Nat} {vc : BitVec 2} {x : RtWorm}
    (hx : (s.router (.hub c)).worms.find? (entering i vc) = some x) (hd : x.dest ≠ .sink)
    (hroom : s.roomAt (.hub c) i { x.w with head := { x.w.head with cls := x.cls } } (min n x.due) = true) :
    ∃ t, exec (.wormRoute (.hub c) i (.flits vc n) none) s = .next t ∧ s.Only t [.spn] ∧
      { x with here := x.here + min n x.due, due := x.due - min n x.due } ∈ (t.router (.hub c)).worms := by
  refine ⟨_, exec_wormRoute_flits hx hroom, flitsIn_only .., ?_⟩
  unfold State.flitsIn
  rw [updRouter_router]
  exact mem_updFirst hx ((more_some _ hd).trans (by rw [Nat.min_assoc, Nat.min_self]))

/-! ### The worm that is chosen -/

theorem mostUrgent_first {xs : List RtWorm} {x : RtWorm} (h : s.mostUrgent xs = some x) :
    x ∈ xs ∧ ∀ y ∈ xs, s.urgency x.w < s.urgency y.w ∨ (s.urgency x.w = s.urgency y.w ∧ x.inPort ≤ y.inPort) := by
  induction xs generalizing x with
  | nil => exact nomatch h
  | cons z zs ih =>
    unfold State.mostUrgent at h
    cases hm : s.mostUrgent zs with
    | none =>
      rw [hm] at h
      obtain rfl := Option.some.inj h
      have hnil : zs = [] := by
        cases zs with
        | nil => rfl
        | cons a as =>
          unfold State.mostUrgent at hm
          split at hm
          · exact nomatch hm
          · split at hm <;> exact nomatch hm
      subst hnil
      exact ⟨List.mem_cons_self, fun y hy => .inr (by rw [List.mem_singleton.1 hy]; exact ⟨rfl, Nat.le_refl _⟩)⟩
    | some y =>
      obtain ⟨hy, hall⟩ := ih hm
      rw [hm] at h
      dsimp only at h
      split at h
      · next hlt =>
        obtain rfl := Option.some.inj h
        refine ⟨List.mem_cons_of_mem _ hy, fun v hv => ?_⟩
        rcases List.mem_cons.1 hv with rfl | hv
        · exact hlt.imp_right fun k => ⟨k.1, Nat.le_of_lt k.2⟩
        · exact hall v hv
      · next hlt =>
        obtain rfl := Option.some.inj h
        refine ⟨List.mem_cons_self, fun v hv => ?_⟩
        rcases List.mem_cons.1 hv with rfl | hv
        · exact .inr ⟨rfl, Nat.le_refl _⟩
        · have := hall v hv
          omega

theorem readyOn_mem {xs : List RtWorm} {pick : Nat} {vc : BitVec 2} {x : RtWorm} (h : s.readyOn xs pick vc = some x) :
    x ∈ xs ∧ x.w.head.vc = vc := by
  unfold State.readyOn at h
  extract_lets mine heads at h
  have hmine : ∀ y ∈ mine, y ∈ xs ∧ y.w.head.vc = vc := fun y hy =>
    ⟨(List.mem_filter.1 hy).1, of_decide_eq_true (List.mem_filter.1 hy).2⟩
  split at h
  · next y hy =>
    split at h
    · obtain rfl := Option.some.inj h
      exact hmine _ (List.mem_of_find?_eq_some hy)
    · exact nomatch h
  · split at h
    · exact hmine x (List.mem_filter.1 (mostUrgent_first h).1).1
    · exact hmine x (List.mem_filter.1 (List.mem_of_getElem? h)).1

theorem slotFor_mem {r : Router} {out pick : Nat} {x : RtWorm} (h : s.slotFor r out pick = some x) : x ∈ s.contend r out := by
  have hlow : ∀ {o : Option RtWorm}, (s.readyOn (s.contend r out) pick 3).or ((s.readyOn (s.contend r out) pick 2).or
      (s.readyOn (s.contend r out) pick 1)) = o → o = some x → x ∈ s.contend r out := fun ho hx => by
    rcases Option.or_eq_some_iff.1 (ho.trans hx) with h | ⟨-, h⟩
    · exact (readyOn_mem h).1
    · rcases Option.or_eq_some_iff.1 h with h | ⟨-, h⟩
      · exact (readyOn_mem h).1
      · exact (readyOn_mem h).1
  unfold State.slotFor at h
  dsimp only at h
  split at h
  · next a b ha hb =>
    split at h
    · exact (readyOn_mem (ha.trans h)).1
    · exact hlow hb h
  · next a ha _ => exact (readyOn_mem (ha.trans h)).1
  · exact hlow rfl h

theorem slotFor_low {r : Router} {out pick : Nat} {x : RtWorm} (h : s.slotFor r out pick = some x) (hvc : x.w.head.vc ≠ 0) :
    s.readyOn (s.contend r out) pick 0 = none ∨ 7 ≤ Tab.get 0 (s.router r).turns out := by
  unfold State.slotFor at h
  dsimp only at h
  split at h
  · next a b ha hb =>
    split at h
    · exact absurd (readyOn_mem (ha.trans h)).2 hvc
    · next hlt => exact .inr (Nat.not_lt.1 hlt)
  · next a ha _ => exact absurd (readyOn_mem (ha.trans h)).2 hvc
  · next h0 => exact .inl h0

theorem slotFor_router {r : Router} {out pick : Nat} {x : RtWorm} (h : s.slotFor r out pick = some x) :
    x ∈ (s.router r).worms ∧ x.out = out :=
  have hc := List.mem_filter.1 (slotFor_mem h)
  ⟨fronts_mem hc.1, of_decide_eq_true (Bool.and_eq_true_iff.1 hc.2).1⟩

end Sys2Proof.Machine
end

section
/-!
PROOFS. Flit slots, cuts and the watchdog of a router (08 R418, R421 to R424, R460 to R464, R467): O22.
-/

set_option Elab.async false

namespace Sys2Proof.Machine

variable {s : State}

/-! ### One flit leaves -/

/-- What is left of a worm at its input after one flit. -/
def RtWorm.less (x y : RtWorm) : Option RtWorm :=
  if (decide (x.here = 1) && decide (x.due = 0)) = true then none else some { y with here := y.here - 1, sent := y.sent + 1 }

/-- A worm's flit has left its input and is counted at the output. -/
def State.sentFrom (s : State) (r : Router) (x : RtWorm) : State :=
  match r with
  | .hub c => (s.updRouter r fun q => { q with worms := updFirst (fun y => decide (y = x)) x.less q.worms }).countHub c x.out (decide (x.sent = 0))
  | .ring _ => s.updRouter r fun q => { q with worms := updFirst (fun y => decide (y = x)) x.less q.worms }

theorem sentFrom_only (s : State) (r : Router) (x : RtWorm) : s.Only (s.sentFrom r x) [.spn] := by
  cases r with
  | hub c => exact only_countHub (updRouter_only ..) (by decide)
  | ring h => exact updRouter_only ..

theorem sentFrom_worms (s : State) (r : Router) (x : RtWorm) :
    ((s.sentFrom r x).router r).worms = updFirst (fun y => decide (y = x)) x.less (s.router r).worms := by
  cases r with
  | hub c =>
    unfold State.sentFrom
    dsimp only
    rw [router_congr (countHub_routers ..), updRouter_router]
  | ring h =>
    unfold State.sentFrom
    dsimp only
    rw [updRouter_router]

/-- A worm with more to send stays at its input. -/
theorem sentFrom_stays {r : Router} {x : RtWorm} (hx : x ∈ (s.router r).worms) (h : 1 < x.here) :
    { x with here := x.here - 1, sent := x.sent + 1 } ∈ ((s.sentFrom r x).router r).worms := by
  rw [sentFrom_worms]
  refine mem_updFirst (find_self hx) (if_neg ?_)
  rw [decide_eq_false (Nat.ne_of_gt h)]
  exact Bool.false_ne_true

theorem sendFlit_here {r : Router} {x : RtWorm} (ok bad : Bool) (hd : x.dest = .here) (he : wormEdge x.w = false) (hs : 0 < x.sent) :
    s.sendFlit r x ok bad = (s.sentFrom r x).when (decide (x.here = 1) && decide (x.due = 0)) (·.arrived r x.w) := by
  unfold State.sendFlit
  dsimp only
  rw [hd]
  dsimp only
  rw [he, if_neg Bool.false_ne_true, decide_eq_false (Nat.ne_of_gt hs), Bool.false_and, State.when_false]
  cases r with
  | hub c => unfold State.sentFrom; rw [decide_eq_false (Nat.ne_of_gt hs)]; rfl
  | ring h => rfl

theorem sendFlit_fabric {r : Router} {x : RtWorm} {p : FabPort} (ok bad : Bool) (hd : x.dest = .fabric p) (hs : x.sent = 0) :
    s.sendFlit r x ok bad = ((s.sentFrom r x).countTx p true).emit (.worm p x.w) := by
  unfold State.sendFlit
  dsimp only
  rw [hd]
  dsimp only
  rw [decide_eq_true hs, State.when_true]
  cases r with
  | hub c => unfold State.sentFrom; rw [decide_eq_true hs]; rfl
  | ring h => rfl

/-! ### A slot -/

theorem countStall_only_of_unported {r : Router} {out : Nat} (h : fabIn r out = none) (xs : List RtWorm) :
    s.Only (s.countStall r out xs) [.spn] := by
  cases r with
  | hub c =>
    unfold State.countStall
    dsimp only
    exact only_when (.refl _ _) (modSpn_only ..)
  | ring g =>
    unfold State.countStall
    rw [h]
    exact .refl _ _

/-- The state in which the chosen worm sends: what waited is counted, and the turn is noted. -/
def State.chosen (s : State) (r : Router) (out : Nat) (x : RtWorm) : State :=
  (s.countStall r out (((s.contend r out).filter fun y => decide (0 < y.here)).filter fun y => decide (y ≠ x))).updRouter r fun q =>
    { q with turns := Tab.upd 0 q.turns out fun n => if x.w.head.vc = 0 then min 7 (n + 1) else 0 }

theorem slotGo_some {r : Router} {out pick : Nat} {x : RtWorm} (ok bad : Bool) (h : s.slotFor r out pick = some x) :
    s.slotGo r out pick ok bad = (s.chosen r out x).sendFlit r x ok bad := by
  unfold State.slotGo
  dsimp only
  rw [h]
  rfl

theorem chosen_worms (r : Router) (out : Nat) (x : RtWorm) : ((s.chosen r out x).router r).worms = (s.router r).worms := by
  unfold State.chosen
  rw [updRouter_router, router_congr (countStall_routers ..)]

theorem chosen_only (s : State) (r : Router) (out : Nat) (x : RtWorm) : s.Only (s.chosen r out x) [.tel, .spn, .fabs] :=
  only_updRouter (countStall_only ..) (by decide)

theorem chosen_only_of_unported {r : Router} {out : Nat} (h : fabIn r out = none) (x : RtWorm) : s.Only (s.chosen r out x) [.spn] :=
  only_updRouter (countStall_only_of_unported h _) (by decide)

/-- Stalls are counted apart from what a port sends. -/
theorem countStall_sent (r : Router) (out : Nat) (xs : List RtWorm) (p : Nat) :
    ((s.countStall r out xs).fab p).txWorms = (s.fab p).txWorms ∧ ((s.countStall r out xs).fab p).txFlits = (s.fab p).txFlits := by
  unfold State.countStall
  split
  · rw [fab_congr (only_when (.refl _ _) (modSpn_only ..) : s.Only _ [.spn]).fabs]
    exact ⟨rfl, rfl⟩
  · next q _ =>
    refine State.each_keeps (P := fun u : State => (u.fab p).txWorms = (s.fab p).txWorms ∧ (u.fab p).txFlits = (s.fab p).txFlits)
      (fun u vc hu => ?_) _ ⟨rfl, rfl⟩
    cases xs.any fun x => decide (x.w.head.vc.toNat = vc) with
    | false => exact hu
    | true =>
      rw [State.when_true, fab_congr (only_when (.refl _ _) (updLink_only ..) : State.Only _ _ [.tel]).fabs, updFab_fab]
      split
      · next h => subst h; exact hu
      · exact hu
  · exact ⟨rfl, rfl⟩

theorem exec_slot {r : Router} {out pick : Nat} {x : RtWorm} (ok : Bool) (bad : Option (Fin 18)) (hf : fabIn r out = none)
    (h : s.slotFor r out pick = some x) :
    exec (.wormRoute r out (.slot pick ok) bad) s = .next ((s.chosen r out x).sendFlit r x ok bad.isSome) := by
  change Host.Outcome.next (s.slot r out pick ok bad.isSome) = _
  unfold State.slot
  rw [hf]
  exact congrArg _ (slotGo_some ok bad.isSome h)

theorem exec_slot_idle {r : Router} {out : Nat} (pick : Nat) (ok : Bool) (bad : Option (Fin 18)) (hf : fabIn r out = none)
    (h : s.contend r out = []) : exec (.wormRoute r out (.slot pick ok) bad) s = .next s := by
  change Host.Outcome.next (s.slot r out pick ok bad.isSome) = _
  have hnone : s.slotFor r out pick = none := by
    cases hx : s.slotFor r out pick with
    | none => rfl
    | some x => exact absurd (slotFor_mem hx) (by rw [h]; exact List.not_mem_nil)
  unfold State.slot
  rw [hf]
  dsimp only
  unfold State.slotGo
  dsimp only
  rw [hnone, h]
  dsimp only
  cases r with
  | hub c => rfl
  | ring g =>
    unfold State.countStall
    rw [hf]

theorem exec_slot_on {r : Router} {out pick : Nat} {x : RtWorm} (ok : Bool) (bad : Option (Fin 18)) (hf : fabIn r out = none)
    (h : s.slotFor r out pick = some x) (hd : x.dest = .here) (he : wormEdge x.w = false) (hs : 0 < x.sent) (hh : 1 < x.here) :
    ∃ t, exec (.wormRoute r out (.slot pick ok) bad) s = .next t ∧ s.Only t [.spn] ∧
      { x with here := x.here - 1, sent := x.sent + 1 } ∈ (t.router r).worms := by
  have hsend := sendFlit_here (s := s.chosen r out x) (r := r) ok bad.isSome hd he hs
  rw [decide_eq_false (Nat.ne_of_gt hh), Bool.false_and, State.when_false] at hsend
  refine ⟨_, (exec_slot ok bad hf h).trans (congrArg _ hsend), (chosen_only_of_unported hf x).trans (sentFrom_only ..), ?_⟩
  exact sentFrom_stays (by rw [chosen_worms]; exact (slotFor_router h).1) hh

theorem exec_slot_last {r : Router} {out pick : Nat} {x : RtWorm} (ok : Bool) (bad : Option (Fin 18)) (hf : fabIn r out = none)
    (h : s.slotFor r out pick = some x) (hd : x.dest = .here) (he : wormEdge x.w = false) (hm : wormMemory x.w = false) (hs : 0 < x.sent)
    (hh : x.here = 1) (hdue : x.due = 0) :
    ∃ t, exec (.wormRoute r out (.slot pick ok) bad) s = .next t ∧ s.Only t [.spn, .out] ∧ t.out = .deliver r x.w :: s.out := by
  have hsend := sendFlit_here (s := s.chosen r out x) (r := r) ok bad.isSome hd he hs
  rw [decide_eq_true hh, decide_eq_true hdue, Bool.and_true, State.when_true] at hsend
  unfold State.arrived at hsend
  rw [hm, if_neg Bool.false_ne_true] at hsend
  have honly : s.Only ((s.chosen r out x).sentFrom r x) [.spn] := (chosen_only_of_unported hf x).trans (sentFrom_only ..)
  refine ⟨_, (exec_slot ok bad hf h).trans (congrArg _ hsend), only_emit honly.in (by decide), ?_⟩
  exact congrArg (List.cons _) honly.out

/-! ### A slot of a fabric port -/

theorem portRing_of_ringFab {h : Half} {n : Nat} {p : FabPort} (k : ringFab h n = some p) : p.val = n ∧ portRing p.val = h :=
  have hp := Bool.and_eq_true_iff.1 (List.find?_some k :)
  ⟨of_decide_eq_true hp.1, of_decide_eq_true hp.2⟩

theorem exec_slot_fabric {h : Half} {p : FabPort} {pick : Nat} {x : RtWorm} (ok : Bool) (bad : Option (Fin 18))
    (hp : ringFab h p.val = some p) (hup : (s.fab p).state = .up) (hx : s.slotFor (.ring h) p.val pick = some x)
    (hd : x.dest = .fabric p) (hs : x.sent = 0) (hh : 1 < x.here) :
    ∃ t, exec (.wormRoute (.ring h) p.val (.slot pick ok) bad) s = .next t ∧ s.Only t [.tel, .spn, .fabs, .out] ∧
      (t.fab p).txWorms = (s.fab p).txWorms + 1 ∧ (t.fab p).txFlits = (s.fab p).txFlits + 1 ∧
      t.out = .worm p x.w :: s.out ∧ { x with here := x.here - 1, sent := 1 } ∈ (t.router (.ring h)).worms := by
  have hexec : exec (.wormRoute (.ring h) p.val (.slot pick ok) bad) s =
      .next ((((s.chosen (.ring h) p.val x).sentFrom (.ring h) x).countTx p true).emit (.worm p x.w)) := by
    change Host.Outcome.next (s.slot (.ring h) p.val pick ok bad.isSome) = _
    unfold State.slot
    rw [show fabIn (.ring h) p.val = some p from hp]
    exact congrArg _ ((if_pos hup).trans ((slotGo_some ok bad.isSome hx).trans (sendFlit_fabric ok bad.isSome hd hs)))
  have hu : s.Only ((s.chosen (.ring h) p.val x).sentFrom (.ring h) x) [.tel, .spn, .fabs] := (chosen_only ..).trans ((sentFrom_only ..).in)
  have hsent := countStall_sent (s := s) (.ring h) p.val
    (((s.contend (.ring h) p.val).filter fun y => decide (0 < y.here)).filter fun y => decide (y ≠ x)) p
  have hport : (((s.chosen (.ring h) p.val x).sentFrom (.ring h) x).countTx p true).fab p =
      { s.chosen (.ring h) p.val x |>.fab p with
        txFlits := ((s.chosen (.ring h) p.val x).fab p).txFlits + 1, txWorms := ((s.chosen (.ring h) p.val x).fab p).txWorms + 1 } := by
    unfold State.countTx
    rw [fab_congr (updLink_only ..).fabs, updFab_fab_self, fab_congr (sentFrom_only ..).fabs]
    rfl
  have hmem := sentFrom_stays (s := s.chosen (.ring h) p.val x) (r := .ring h) (by rw [chosen_worms]; exact (slotFor_router hx).1) hh
  rw [hs] at hmem
  refine ⟨_, hexec, only_emit (only_countTx hu.in (by decide)) (by decide), ?_, ?_, ?_, ?_⟩
  · rw [fab_congr (emit_only ..).fabs, hport]
    exact congrArg (· + 1) hsent.1
  · rw [fab_congr (emit_only ..).fabs, hport]
    exact congrArg (· + 1) hsent.2
  · exact congrArg (List.cons _) ((countTx_only ..).out.trans hu.out)
  · rw [(emit_only ..).router, (countTx_only ..).router]
    exact hmem

theorem cutPort_leaves {h : Half} {p : FabPort} (hp : portRing p.val = h) :
    ∀ x ∈ ((s.cutPort p).router (.ring h)).worms, x.dest ≠ .fabric p := by
  unfold State.cutPort
  extract_lets r out cut u
  rw [← hp, updRouter_router]
  intro x hx hd
  obtain ⟨y, -, hy⟩ := List.mem_filterMap.1 hx
  by_cases ho : out y = true
  · rw [if_pos ho] at hy
    unfold RtWorm.cutOff at hy
    split at hy
    · exact nomatch hy
    · rw [← Option.some.inj hy] at hd
      exact WormDest.noConfusion hd
  · rw [if_neg ho] at hy
    have hyd : y.dest = .fabric p := by
      split at hy
      · unfold RtWorm.poisonTail at hy
        split at hy
        · exact nomatch hy
        · rw [← Option.some.inj hy] at hd
          exact hd
      · split at hy
        · exact nomatch hy
        · rw [Option.some.inj hy]
          exact hd
    exact ho (by dsimp only [out]; rw [hyd]; exact decide_eq_true rfl)

theorem exec_slot_down {h : Half} {p : FabPort} (pick : Nat) (ok : Bool) (bad : Option (Fin 18)) (hp : ringFab h p.val = some p)
    (hup : (s.fab p).state ≠ .up) :
    ∃ t, exec (.wormRoute (.ring h) p.val (.slot pick ok) bad) s = .next t ∧ s.Only t [.chest, .spn, .fabs, .tasks, .out] ∧
      ∀ x ∈ (t.router (.ring h)).worms, x.dest ≠ .fabric p := by
  refine ⟨s.cutPort p, ?_, (cutPort_only ..).in, cutPort_leaves (portRing_of_ringFab hp).2⟩
  change Host.Outcome.next (s.slot (.ring h) p.val pick ok bad.isSome) = _
  unfold State.slot
  rw [show fabIn (.ring h) p.val = some p from hp]
  exact congrArg _ (if_neg hup)

/-! ### Cuts -/

theorem exec_wormCut {r : Router} {port n : Nat} {x : RtWorm} (hx : (s.cuttable r port false)[n]? = some x) :
    exec (.wormCut r port n false) s = .next (s.cutAt r x) := by
  change execWormCut r port n false s = _
  unfold execWormCut
  rw [hx]
  rfl

theorem exec_wormCut_before {r : Router} {port n : Nat} {x : RtWorm} (hx : (s.cuttable r port true)[n]? = some x) :
    exec (.wormCut r port n true) s = .next (s.cutBefore r x) := by
  change execWormCut r port n true s = _
  unfold execWormCut
  rw [hx]
  rfl

theorem exec_wormCut_answers {r : Router} {port n : Nat} {x : RtWorm} (hx : (s.cuttable r port false)[n]? = some x) (hd : x.dest = .here)
    (hs : x.sent = 0) (ha : wormAnswered x.w = true) :
    ∃ t, exec (.wormCut r port n false) s = .next t ∧ s.Only t [.spn, .out] ∧
      t.out = .nak x.w.head.srcChip x.w.head.conn x.w.head.serial x.w.head.task .routeCut 8 :: s.out := by
  have hcut : s.cutAt r x = (s.updRouter r fun q => { q with worms := updFirst (fun y => decide (y = x)) (·.cutOff) q.worms }).emit
      (.nak x.w.head.srcChip x.w.head.conn x.w.head.serial x.w.head.task .routeCut 8) := by
    unfold State.cutAt
    rw [hd]
    dsimp only
    rw [if_pos hs]
    unfold State.cutUncrossed State.routeNak
    dsimp only
    rw [answered_not_edge ha, ha]
    rfl
  exact ⟨_, (exec_wormCut hx).trans (congrArg _ hcut), only_emit ((updRouter_only ..).in) (by decide), rfl⟩

theorem exec_wormCut_completes {r : Router} {port n : Nat} {x : RtWorm} {p : FabPort} (hx : (s.cuttable r port false)[n]? = some x)
    (hd : x.dest = .fabric p) (hs : 0 < x.sent) (he : wormEdge x.w = false) :
    ∃ t, exec (.wormCut r port n false) s = .next t ∧ s.Only t [.spn, .fabs, .out] ∧
      t.out = .cutWorm r x.out { x.w with head := { x.w.head with poison := true } } true :: s.out ∧
      (t.fab p).cuts = satAdd (s.fab p).cuts 1 := by
  have hcut : s.cutAt r x =
      ((s.countCut p).updRouter r fun q => { q with worms := updFirst (fun y => decide (y = x)) (·.cutOff) q.worms }).emit
        (.cutWorm r x.out { x.w with head := { x.w.head with poison := true } } true) := by
    unfold State.cutAt
    rw [hd]
    dsimp only
    rw [if_neg (Nat.ne_of_gt hs)]
    exact if_neg fun k => Bool.noConfusion (he.symm.trans k)
  refine ⟨_, (exec_wormCut hx).trans (congrArg _ hcut), only_emit (only_updRouter ((countCut_only ..).in) (by decide)) (by decide), rfl, ?_⟩
  rw [fab_congr (emit_only ..).fabs, fab_congr (updRouter_only ..).fabs]
  exact congrArg FabSt.cuts (updFab_fab_self ..)

theorem exec_wormCut_poisons {r : Router} {port n : Nat} {x : RtWorm} (hx : (s.cuttable r port true)[n]? = some x) (hd : x.dest ≠ .sink)
    (he : wormEdge x.w = false) (hf : fabIn r x.inPort = none) :
    ∃ t, exec (.wormCut r port n true) s = .next t ∧ s.Only t [.spn] ∧
      { x with here := x.here + 1, due := 0, w := { x.w with head := { x.w.head with poison := true } } } ∈ (t.router r).worms := by
  have hcut : s.cutBefore r x = s.updRouter r fun q => { q with worms := updFirst (fun y => decide (y = x)) (·.poisonTail) q.worms } := by
    unfold State.cutBefore
    rw [hf]
    exact if_neg fun k => Bool.noConfusion (he.symm.trans k.1)
  have hmem : x ∈ (s.router r).worms := (List.mem_filter.1 (List.mem_of_getElem? hx)).1
  refine ⟨_, (exec_wormCut_before hx).trans (congrArg _ hcut), updRouter_only .., ?_⟩
  rw [updRouter_router]
  exact mem_updFirst (find_self hmem) (if_neg hd)

/-! ### The watchdog -/

theorem exec_vcWatchdogExpire_idle {r : Router} {outPort : Nat} {vc : BitVec 2}
    (h : vc = 0 ∨ (s.router r).worms.all (fun x => decide (x.out ≠ outPort ∨ x.w.head.vc ≠ vc ∨ x.sent = 0)) = true) :
    exec (.vcWatchdogExpire r outPort vc) s = .next s := by
  change execVcWatchdogExpire r outPort vc s = _
  unfold execVcWatchdogExpire
  dsimp only
  split
  · rfl
  · next x hx =>
    refine if_pos (h.resolve_right fun hall => ?_)
    obtain ⟨⟨⟨hout, hvc⟩, hs⟩, -⟩ := by simpa only [Bool.and_eq_true, decide_eq_true_eq] using List.find?_some hx
    have hno := of_decide_eq_true (List.all_eq_true.1 hall x (List.mem_of_find?_eq_some hx))
    exact hno.elim (· hout) fun k => k.elim (· hvc) fun k => Nat.ne_of_gt hs k

theorem exec_vcWatchdogExpire_hub {c : Clus} {outPort : Nat} {vc : BitVec 2} {x : RtWorm} (hvc : vc ≠ 0)
    (hx : x ∈ (s.router (.hub c)).worms) (ho : x.out = outPort) (hv : x.w.head.vc = vc) (hs : 0 < x.sent) (hd : x.dest ≠ .sink)
    (hcut : (s.spnHalf (clusHalf c)).cut = false) :
    ∃ t, exec (.vcWatchdogExpire (.hub c) outPort vc) s = .next t ∧ s.Only t [.spn, .chest] ∧
      (t.spnHalf (clusHalf c)).events = satAdd (s.spnHalf (clusHalf c)).events 1 := by
  obtain ⟨y, hy⟩ := Option.isSome_iff_exists.1 (List.find?_isSome.2 ⟨x, hx, by
    simp only [ho, hv, hs, hd, ne_eq, not_false_eq_true, decide_true, Bool.and_self]⟩ :
      ((s.router (.hub c)).worms.find? fun x =>
        decide (x.out = outPort) && decide (x.w.head.vc = vc) && decide (0 < x.sent) && decide (x.dest ≠ .sink)).isSome = true)
  have hexec : exec (.vcWatchdogExpire (.hub c) outPort vc) s =
      .next ((s.updSpn (clusHalf c) fun y => { y with events := satAdd y.events 1 }).recordAt .watchdog (isEast (clusHalf c))
        (routerNo (.hub c)) [BitVec.ofNat 32 (routerNo (.hub c)), BitVec.ofNat 32 outPort, vc.setWidth 32]) := by
    change execVcWatchdogExpire (.hub c) outPort vc s = _
    unfold execVcWatchdogExpire
    dsimp only
    rw [hy]
    dsimp only [fabIn, routerHalf]
    rw [if_neg hvc, hcut, State.when_false]
  refine ⟨_, hexec, only_recordAt ((updSpn_only ..).in) (by decide), ?_⟩
  unfold State.spnHalf
  rw [(recordAt_only ..).spn]
  exact congrArg SpnHalf.events (updSpn_spnHalf ..)

/-! ### The obligation -/

/-- Settles O22: each clause is one case of a router's decision, its slot, its cuts or its watchdog. -/
theorem wormsAreRoutedOrCut : Obligations.WormsAreRoutedOrCut := by
  unfold Obligations.WormsAreRoutedOrCut
  refine ⟨fun s c i n w code cs hw hrun hrel hroom => exec_head_hub hw hrun hrel hroom,
    fun s c i n w code cs hw hrun hrel hroom => exec_head_err hw hrun hrel hroom,
    fun s h i n w code cs p hi hw h11 h18 hp hup hroom => exec_head_ring hi hw h11 h18 hp hup hroom,
    fun s h i n w code cs p hi hw h11 h18 hp hup hroom => exec_head_down hi hw h11 h18 hp hup hroom,
    fun s c i n w hrel hroom => exec_head_parity hrel hroom, fun s r i n w ok bad h => if_pos ?_, ?_,
    fun s c i n vc x hx hd hroom => exec_flits_enter hx hd hroom, fun s xs x h => mostUrgent_first h,
    fun s r out pick x h hvc => slotFor_low h hvc, fun s r out pick ok bad hf h => exec_slot_idle pick ok bad hf h,
    fun s r out pick ok bad x hf h hd he hs hh => exec_slot_on ok bad hf h hd he hs hh,
    fun s r out pick ok bad x hf h hd he hm hs hh hdue => exec_slot_last ok bad hf h hd he hm hs hh hdue,
    fun s h p pick ok bad x hp hup hx hd hs hh => exec_slot_fabric ok bad hp hup hx hd hs hh,
    fun s h p pick ok bad hp hup => exec_slot_down pick ok bad hp hup, ?_,
    fun s r port n x hx => ⟨fun hd hs ha => exec_wormCut_answers hx hd hs ha, fun p hd hs he => exec_wormCut_completes hx hd hs he⟩,
    fun s r port n x hx hd he hf => exec_wormCut_poisons hx hd he hf, fun s r outPort vc h => exec_vcWatchdogExpire_idle h,
    fun s c outPort vc x hvc hx ho hv hs hd hcut => exec_vcWatchdogExpire_hub hvc hx ho hv hs hd hcut⟩
  · rcases h with ⟨he, hr⟩ | hroom
    · rw [he, hr]
      rfl
    · rw [hroom]
      exact Bool.or_true _
  · intro s r i n vc bad h
    change execWormRoute r i (.flits vc n) bad s = _
    unfold execWormRoute
    dsimp only
    rw [h]
  · intro s r port n atInput h
    change execWormCut r port n atInput s = _
    unfold execWormCut
    rw [List.getElem?_eq_none h]

end Sys2Proof.Machine
end

section
/-!
PROOFS. Tasks commit, stop or hang (04 R181, R182, R219, R220, R230; 05 R281; 10 R537 to R541; 11 R573, R574): O13.
-/

set_option Elab.async false

namespace Sys2Proof.Machine

variable {s : State}

/-! ### Commits -/

/-- What a commit does apart from the task's own entry: sides flip, session pointers move, tiles end. -/
def State.paidOut (s : State) (task : BitVec 32) (writes : List Nat) : State :=
  ((s.modSpn fun n => { n with sides := writes.eraseDups.foldl (fun x r => Tab.upd false x r (!·)) n.sides }).commitSessions task).modTiles fun ts =>
    ts.map fun e =>
      if (e.2.running.map fun a => decide (a.task = task)).getD false then
        (e.1, { e.2 with running := none, rt := [], flight := [], mode := if e.2.mode = .run then .idle else e.2.mode })
      else e

/-- A commit is noted: by the task, its schedule, the twin, the counts and the retries. -/
def State.noteCommit (s : State) (task sched : BitVec 32) : State :=
  ((((s.updTask task fun t => { t with phase := .committed, lastCommit := some s.now }).updSched sched fun x =>
    { x with committed := x.committed ++ [task] }).modHealx fun h => { h with lastCommitted := task }).modTel fun m =>
      { m with cnt := { m.cnt with committed := m.cnt.committed + 1 } }).modRelx fun r =>
        { r with retries := r.retries.filter fun y => decide (y.task ≠ task) }

/-- The report of a commit, of a retry or where all are reported. -/
def State.commitReport (s : State) (task : BitVec 32) (t : TaskRt) : State :=
  if 0 < t.attempt then s.taskReport 2 .ok t.attempt 0 task s.now s.fret.chip 0xFFFF t.sched
  else if s.rel.reportAll then s.taskReport 4 .ok 0 0 task s.now s.fret.chip 0xFFFF t.sched
  else s

theorem exec_taskCommit {task : BitVec 32} {c : TaskCfg} (h : s.commits (s.task task) = true) (hc : s.taskCfg task = some c) :
    exec (.taskCommit task) s =
      .next (((s.paidOut task c.writes).noteCommit task (s.task task).sched).commitReport task (s.task task)) := by
  change execTaskCommit task s = _
  unfold execTaskCommit
  dsimp only
  rw [if_neg (by rw [h]; exact Bool.noConfusion), hc]
  unfold State.commitReport
  rw [apply_ite Host.Outcome.next, apply_ite Host.Outcome.next]
  rfl

theorem paidOut_only (s : State) (task : BitVec 32) (writes : List Nat) :
    s.Only (s.paidOut task writes) [.top, .rel, .chest, .spn, .sess, .hbm, .parts, .tiles, .out, .free] :=
  only_modTiles (only_commitSessions ((modSpn_only ..).in) (by decide)) (by decide)

theorem paidOut_sides (task : BitVec 32) (writes : List Nat) : (s.paidOut task writes).spn =
    { s.spn with sides := writes.eraseDups.foldl (fun x r => Tab.upd false x r (!·)) s.spn.sides } :=
  ((modTiles_only ..).spn).trans ((commitSessions_only ..).spn)

theorem noteCommit_only (s : State) (task sched : BitVec 32) : s.Only (s.noteCommit task sched) [.tasks, .scheds, .healx, .tel, .relx] :=
  only_modRelx (only_modTel (only_modHealx (only_updSched ((updTask_only ..).in) (by decide)) (by decide)) (by decide)) (by decide)

theorem noteCommit_task (task sched m : BitVec 32) : (s.noteCommit task sched).task m =
    if m = task then { s.task task with phase := .committed, lastCommit := some s.now } else s.task m := by
  have hu : (s.updTask task fun t => { t with phase := .committed, lastCommit := some s.now }).Only (s.noteCommit task sched)
      [.scheds, .healx, .tel, .relx] :=
    only_modRelx (only_modTel (only_modHealx ((updSched_only ..).in) (by decide)) (by decide)) (by decide)
  rw [task_congr hu.tasks, updTask_task]

theorem noteCommit_healx (task sched : BitVec 32) :
    (s.noteCommit task sched).healx = { s.healx with lastCommitted := task } :=
  congrArg (fun h : HealAux => { h with lastCommitted := task }) ((updSched_only ..).healx.trans (updTask_only ..).healx)

theorem noteCommit_sched {task sched : BitVec 32} {x : SchedSt} (h : s.sched? sched = some x) :
    (s.noteCommit task sched).sched? sched = some { x with committed := x.committed ++ [task] } :=
  updSched_sched (s := s.updTask task fun t => { t with phase := .committed, lastCommit := some s.now })
    ((sched_congr (updTask_only ..).scheds sched).trans h) _

theorem commitReport_only (s : State) (task : BitVec 32) (t : TaskRt) : s.Only (s.commitReport task t) [.mch, .out] :=
  only_ite (taskReport_only ..) (only_ite (taskReport_only ..) (.refl _ _))

theorem commits_of {t : TaskRt} (hp : t.phase = .running ∨ t.phase = .ended) (hd : t.dead = false)
    (ha : t.abortedBy (s.commitFret t) = false) (hc : s.commitFret t = s.now) : s.commits t = true := by
  unfold State.commits
  rw [hd, ha, decide_eq_true hc]
  rcases hp with h | h <;> rw [h] <;> rfl

theorem exec_taskCommit_commits {task : BitVec 32} {c : TaskCfg} (h : s.commits (s.task task) = true) (hc : s.taskCfg task = some c) :
    ∃ t, exec (.taskCommit task) s = .next t ∧
      s.Keeps t [.fuse, .flash, .rstc, .clk, .fret, .bist, .heal, .pcie, .fabs, .cluss, .ctxs, .held, .ticks, .pending] ∧
      t.spn = { s.spn with sides := c.writes.eraseDups.foldl (fun x r => Tab.upd false x r (!·)) s.spn.sides } ∧
      t.healx = { s.healx with lastCommitted := task } ∧ (t.task task).phase = .committed ∧
      (t.task task).lastCommit = some s.now ∧ (∀ m, m ≠ task → t.task m = s.task m) ∧
      (∀ x, s.sched? (s.task task).sched = some x →
        t.sched? (s.task task).sched = some { x with committed := x.committed ++ [task] }) := by
  have hpaid := paidOut_only s task c.writes
  have hnote := noteCommit_only (s.paidOut task c.writes) task (s.task task).sched
  have hrep := commitReport_only ((s.paidOut task c.writes).noteCommit task (s.task task).sched) task (s.task task)
  have htask := fun m => (task_congr hrep.tasks m).trans (noteCommit_task (s := s.paidOut task c.writes) task (s.task task).sched m)
  have hnow : (s.paidOut task c.writes).now = s.now := by unfold State.now; rw [hpaid.fret]
  refine ⟨_, exec_taskCommit h hc, (hpaid.in.trans (hnote.in.trans hrep.in) : s.Only _ [.top, .rel, .chest, .spn, .sess, .hbm, .parts, .tiles,
      .out, .free, .tasks, .scheds, .healx, .tel, .relx, .mch]).keeps (by decide), ?_, ?_, ?_, ?_, fun m hm => ?_, fun x hx => ?_⟩
  · rw [hrep.spn, hnote.spn]
    exact paidOut_sides ..
  · rw [hrep.healx, noteCommit_healx, hpaid.healx]
  · rw [htask, if_pos rfl]
  · rw [htask, if_pos rfl, hnow]
  · rw [htask, if_neg hm, task_congr hpaid.tasks]
  · rw [sched_congr hrep.scheds]
    exact noteCommit_sched ((sched_congr hpaid.scheds _).trans hx)

/-! ### Stops -/

/-- No task changes its schedule. -/
def State.SameHomes (s t : State) : Prop := ∀ m, (t.task m).sched = (s.task m).sched

theorem State.SameHomes.trans {t u : State} (h : s.SameHomes t) (k : t.SameHomes u) : s.SameHomes u := fun m => (k m).trans (h m)

theorem State.SameHomes.refl (s : State) : s.SameHomes s := fun _ => rfl

theorem State.Only.sameHomes {t : State} {cs : List Comp} (h : s.Only t cs) (hc : Comp.tasks ∉ cs := by decide) : s.SameHomes t :=
  fun m => by rw [task_congr (h.1 .tasks hc)]

theorem when_sameHomes {c : Bool} {f : State → State} (h : s.SameHomes (f s)) : s.SameHomes (s.when c f) := by
  cases c with
  | true => exact h
  | false => exact .refl s

theorem updTask_sameHomes (n : BitVec 32) {f : TaskRt → TaskRt} (hf : ∀ t, (f t).sched = t.sched) : s.SameHomes (s.updTask n f) := by
  intro m
  rw [updTask_task]
  split
  · next h => rw [hf, h]
  · rfl

theorem failArm_sameHomes (n : BitVec 32) (st : Status) : s.SameHomes (s.failArm n st) := updTask_sameHomes n fun _ => rfl

theorem armIdle_sameHomes (key : Nat) (h : HeldArm) : s.SameHomes (s.armIdle key h) := by
  unfold State.armIdle
  extract_lets x first a b
  have ha : s.SameHomes a := by
    dsimp only [a]
    split
    · exact State.SameHomes.trans (updClus_only ..).sameHomes (failArm_sameHomes _ _)
    · refine State.each_keeps (P := fun u => s.SameHomes u) (fun u st hu => ?_) (h.uses.map (s.staticStatus h.task)) (.refl s)
      split
      · exact hu
      · exact hu.trans (failArm_sameHomes _ _)
  have hb : a.SameHomes b := when_sameHomes (updTask_sameHomes h.task fun _ => rfl)
  exact ha.trans (hb.trans (updCtx_only ..).sameHomes)

theorem ctxIdle_sameHomes (key : Nat) : s.SameHomes (s.ctxIdle key) := by
  unfold State.ctxIdle
  extract_lets a
  have ha : s.SameHomes a := (updCtx_only ..).sameHomes
  split
  · exact ha
  · exact ha.trans (State.SameHomes.trans (updCtx_only ..).sameHomes (armIdle_sameHomes _ _))

theorem stopStreams_sameHomes (task : BitVec 32) : s.SameHomes (s.stopStreams task) := by
  unfold State.stopStreams
  refine State.each_keeps (P := fun u => s.SameHomes u) (fun u key hu => ?_) _ (.refl s)
  extract_lets a x cut
  have ha : s.SameHomes a := hu.trans (updCtx_only ..).sameHomes
  have hcut : ∀ w, s.SameHomes w → s.SameHomes (cut w) := fun w hw => hw.trans (updCtx_only ..).sameHomes
  split
  · exact ha
  split
  · exact (hcut _ ha).trans (ctxIdle_sameHomes _)
  · exact (hcut _ (ha.trans (updClus_only ..).sameHomes)).trans (updCtx_only ..).sameHomes
  · exact ha

/-- A stopped task's tiles, contexts, worms and sessions. -/
def State.unwound (s : State) (task : BitVec 32) : State := (((s.stopTiles task).stopStreams task).dropHeld task).abortSessions task

/-- The abort is noted in FRET_ABORT. -/
def State.abortShown (s : State) (task : BitVec 32) (a : AbortSt) : State :=
  s.modFret fun r =>
    { r with abortTask := task, abortValid := true, abortOrigin := a.origin, abortStatus := BitVec.ofNat 8 a.status.code }

theorem abortShown_fret (task : BitVec 32) (a : AbortSt) : (s.abortShown task a).fret = { s.fret with
    abortTask := task, abortValid := true, abortOrigin := a.origin, abortStatus := BitVec.ofNat 8 a.status.code } := rfl

/-- The stop is recorded, counted, and noted by the task. -/
def State.stopNoted (s : State) (task : BitVec 32) (attempt : Nat) : State :=
  ((s.record .taskStop [task, fretRead (chestSel 0) s 0x028, BitVec.ofNat 32 attempt]).modTel fun m =>
    { m with cnt := { m.cnt with aborted := m.cnt.aborted + 1 } }).updTask task fun t => { t with phase := .stopped }

/-- The task is to be retried. -/
abbrev State.retries (s : State) (t : TaskRt) (a : AbortSt) : Prop :=
  retriable a.status = true ∧ t.attempt < s.rel.retryLimit.toNat ∧ s.relx.retState = .none ∧
    ((s.sched? t.sched).map (·.stopping)).getD true = false

/-- What a stop does before the task is retried or fails. -/
def State.stopJudged (s : State) (task : BitVec 32) (a : AbortSt) : State :=
  ((s.unwound task).abortShown task a).stopNoted task (s.task task).attempt

/-- The verdict of a stop: 7 while captures wait for their arbitration. -/
def State.stopVerdict (s : State) (task : BitVec 32) : Nat := if s.captures task = [] then 0 else 7

/-- A task's retries of before are dropped. -/
def State.retryCleared (s : State) (task : BitVec 32) : State :=
  s.modRelx fun r => { r with retries := r.retries.filter fun y => decide (y.task ≠ task) }

theorem retryCleared_only (s : State) (task : BitVec 32) : s.Only (s.retryCleared task) [.relx] := modRelx_only ..

theorem retryCleared_retState (task : BitVec 32) : (s.retryCleared task).relx.retState = s.relx.retState := rfl

theorem retryCleared_retries {task : BitVec 32} {r : RetrySt} (h : r ∈ (s.retryCleared task).relx.retries) : r.task ≠ task :=
  of_decide_eq_true (List.mem_filter.1 (h : r ∈ s.relx.retries.filter fun y => decide (y.task ≠ task))).2

/-- What follows a stop: the task is retried after its delay, or fails. -/
def State.afterStop (s : State) (task : BitVec 32) (t : TaskRt) (a : AbortSt) : State :=
  let u := s.retryCleared task
  if u.retries t a then
    (u.modRelx fun r => { r with retries := r.retries ++ [⟨t.sched, task, a.status, t.attempt, a.fret, a.origin,
      a.fret + max 1 u.rel.retryDelay.toNat * 4096, false, false, s.captureLt task, s.stopVerdict task⟩] }).shiftSched t.sched task
        (a.fret + max 1 u.rel.retryDelay.toNat * 4096 - t.launch)
  else u.failTask task a.status t.attempt (s.stopVerdict task) a.fret a.origin (s.captureLt task)

theorem exec_taskStop {task : BitVec 32} {a : AbortSt} (ha : (s.task task).abort = some a) (hf : a.fret ≤ s.now)
    (hc : (s.task task).phase ≠ .committed) (hs : (s.task task).phase ≠ .stopped) (hn : s.commits (s.task task) = false) :
    exec (.taskStop task) s = .next ((s.stopJudged task a).afterStop task (s.task task) a) := by
  change execTaskStop task s = _
  unfold execTaskStop
  extract_lets t
  rw [show t.abort = some a from ha]
  refine (if_neg fun k => k.elim (Nat.not_lt.2 hf) fun k => k.elim hc fun k => k.elim hs fun k => Bool.noConfusion (hn.symm.trans k)).trans ?_
  extract_lets u1 u2 u3 u4
  have h4 : u4 = s.stopJudged task a := rfl
  clear_value u4
  subst h4
  unfold State.afterStop
  rw [apply_ite Host.Outcome.next]
  rfl

theorem unwound_only (s : State) (task : BitVec 32) : s.Only (s.unwound task)
    [.tiles, .cluss, .ctxs, .tasks, .spn, .fabs, .held, .top, .rel, .chest, .sess, .hbm, .parts, .out] :=
  only_abortSessions (only_dropHeld (only_stopStreams ((stopTiles_only ..).in) (by decide)) (by decide)) (by decide)

theorem unwound_sameHomes (task : BitVec 32) : s.SameHomes (s.unwound task) :=
  ((stopTiles_only s task).sameHomes.trans (stopStreams_sameHomes task)).trans
    ((dropHeld_only ..).sameHomes.trans (abortSessions_only ..).sameHomes)

/-- A task that holds no session gives up no page. -/
theorem unwound_rel {task : BitVec 32} (h : s.sess.holds = []) : (s.unwound task).rel = s.rel := by
  have hu : s.Only (((s.stopTiles task).stopStreams task).dropHeld task) [.tiles, .cluss, .ctxs, .tasks, .spn, .fabs, .held] :=
    only_dropHeld (only_stopStreams ((stopTiles_only ..).in) (by decide)) (by decide)
  unfold State.unwound State.abortSessions State.dropHolds
  dsimp only
  rw [hu.sess, h, List.filter_nil, State.each_nil, (modSess_only ..).rel, hu.rel]

theorem stopNoted_only (s : State) (task : BitVec 32) (attempt : Nat) : s.Only (s.stopNoted task attempt) [.chest, .tel, .tasks] :=
  only_updTask (only_modTel ((record_only ..).in) (by decide)) (by decide)

theorem stopNoted_task (task : BitVec 32) (attempt : Nat) :
    (s.stopNoted task attempt).task task = { s.task task with phase := .stopped } := by
  have hu : s.Only ((s.record .taskStop [task, fretRead (chestSel 0) s 0x028, BitVec.ofNat 32 attempt]).modTel fun m =>
      { m with cnt := { m.cnt with aborted := m.cnt.aborted + 1 } }) [.chest, .tel] := only_modTel ((record_only ..).in) (by decide)
  unfold State.stopNoted
  rw [updTask_task, if_pos rfl, task_congr hu.tasks]

/-- What a stop leaves before the task is retried or fails. -/
structure State.StoppedAs (s u : State) (task : BitVec 32) (a : AbortSt) : Prop where
  only : s.Only u [.fret, .tiles, .cluss, .ctxs, .tasks, .spn, .fabs, .held, .top, .rel, .chest, .sess, .hbm, .parts, .out, .tel]
  phase : (u.task task).phase = .stopped
  sched : (u.task task).sched = (s.task task).sched
  fret : u.fret = { s.fret with
    abortTask := task, abortValid := true, abortOrigin := a.origin, abortStatus := BitVec.ofNat 8 a.status.code }
  rel : s.sess.holds = [] → u.rel = s.rel

theorem stopJudged_as (s : State) (task : BitVec 32) (a : AbortSt) : s.StoppedAs (s.stopJudged task a) task a := by
  have hu := unwound_only s task
  have hhome := unwound_sameHomes (s := s) task task
  have hhold := unwound_rel (s := s) (task := task)
  unfold State.stopJudged
  generalize s.unwound task = u at hu hhome hhold
  have hshow : u.Only (u.abortShown task a) [.fret] := modFret_only ..
  have hfret := abortShown_fret (s := u) task a
  rw [hu.fret] at hfret
  generalize u.abortShown task a = v at hshow hfret
  have hnote := stopNoted_only v task (s.task task).attempt
  have htask := stopNoted_task (s := v) task (s.task task).attempt
  refine ⟨hu.in.trans (hshow.in.trans hnote.in), by rw [htask], ?_, by rw [hnote.fret, hfret], fun h => ?_⟩
  · rw [htask, task_congr hshow.tasks]
    exact hhome
  · rw [hnote.rel, hshow.rel]
    exact hhold h

theorem shiftSched_phase (sched task m : BitVec 32) (d : Nat) : ((s.shiftSched sched task d).task m).phase = (s.task m).phase := by
  unfold State.shiftSched
  extract_lets late moved a b
  have ha : (a.task m).phase = (s.task m).phase := by rw [task_congr (updSched_only ..).tasks]
  rw [show State.task _ m = b.task m from task_congr (modTel_only ..).tasks m]
  refine State.each_keeps (P := fun u : State => (u.task m).phase = (s.task m).phase) (fun u n hu => ?_) moved ha
  extract_lets c d
  have hc : (c.task m).phase = (u.task m).phase := by
    dsimp only [c]
    rw [updTask_task]
    split
    · next h => rw [h]
    · rfl
  rw [task_congr (only_modCtxs (modTiles_only ..).in (by decide) : c.Only _ [.tiles, .ctxs]).tasks, hc, hu]

theorem afterStop_only (s : State) (task : BitVec 32) (t : TaskRt) (a : AbortSt) :
    s.Only (s.afterStop task t a) [.rel, .relx, .mch, .scheds, .out, .tel, .tiles, .ctxs, .tasks] := by
  unfold State.afterStop
  extract_lets u
  have hu : s.Only u [.rel, .relx, .mch, .scheds, .out, .tel, .tiles, .ctxs, .tasks] := (retryCleared_only ..).in
  exact only_ite (only_shiftSched (only_modRelx hu (by decide)) (by decide)) (only_failTask hu (by decide))

theorem afterStop_phase (task m : BitVec 32) (t : TaskRt) (a : AbortSt) : ((s.afterStop task t a).task m).phase = (s.task m).phase := by
  unfold State.afterStop
  extract_lets u
  have hu : u.task m = s.task m := task_congr (retryCleared_only ..).tasks m
  split
  · rw [shiftSched_phase, task_congr (modRelx_only ..).tasks, hu]
  · rw [task_congr (failTask_only ..).tasks, hu]

theorem exec_taskStop_stops {task : BitVec 32} {a : AbortSt} (ha : (s.task task).abort = some a) (hf : a.fret ≤ s.now)
    (hc : (s.task task).phase ≠ .committed) (hs : (s.task task).phase ≠ .stopped) (hn : s.commits (s.task task) = false) :
    ∃ t, exec (.taskStop task) s = .next t ∧
      s.Keeps t [.fuse, .flash, .rstc, .clk, .bist, .heal, .healx, .pcie, .mgt, .tap, .latches, .ticks, .free, .pending] ∧
      (t.task task).phase = .stopped ∧ t.fret = { s.fret with
        abortTask := task, abortValid := true, abortOrigin := a.origin, abortStatus := BitVec.ofNat 8 a.status.code } := by
  have hj := stopJudged_as s task a
  have hafter := afterStop_only (s.stopJudged task a) task (s.task task) a
  refine ⟨_, exec_taskStop ha hf hc hs hn, (hj.only.in.trans hafter.in : s.Only _ [.fret, .tiles, .cluss, .ctxs, .tasks, .spn, .fabs, .held,
    .top, .rel, .chest, .sess, .hbm, .parts, .out, .tel, .relx, .mch, .scheds]).keeps (by decide), ?_, ?_⟩
  · rw [afterStop_phase]
    exact hj.phase
  · rw [hafter.fret]
    exact hj.fret

theorem exec_taskStop_retries {task : BitVec 32} {a : AbortSt} {x : SchedSt} (ha : (s.task task).abort = some a) (hf : a.fret ≤ s.now)
    (hc : (s.task task).phase ≠ .committed) (hs : (s.task task).phase ≠ .stopped) (hn : s.commits (s.task task) = false)
    (hx : s.sched? (s.task task).sched = some x) (hstop : x.stopping = false) (hr : retriable a.status = true)
    (hatt : (s.task task).attempt < s.rel.retryLimit.toNat) (hret : s.relx.retState = .none) (hhold : s.sess.holds = []) :
    ∃ t, exec (.taskStop task) s = .next t ∧ (t.task task).phase = .stopped ∧
      ∃ r ∈ t.relx.retries, r.task = task ∧ r.status = a.status ∧ r.attempt = (s.task task).attempt ∧ r.armed = false ∧
        r.launch = a.fret + max 1 s.rel.retryDelay.toNat * 4096 := by
  have hj := stopJudged_as s task a
  refine ⟨_, exec_taskStop ha hf hc hs hn, by rw [afterStop_phase]; exact hj.phase, ?_⟩
  unfold State.afterStop
  extract_lets u
  have hu : (s.stopJudged task a).Only u [.relx] := retryCleared_only ..
  have hrel : u.rel = s.rel := hu.rel.trans (hj.rel hhold)
  have hgo : u.retries (s.task task) a :=
    ⟨hr, by rw [hrel]; exact hatt, by rw [retryCleared_retState, hj.only.relx]; exact hret,
      by rw [sched_congr hu.scheds, sched_congr hj.only.scheds, hx]; exact hstop⟩
  rw [if_pos hgo, (shiftSched_only ..).relx, hrel]
  exact ⟨_, List.mem_append_right _ List.mem_cons_self, rfl, rfl, rfl, rfl, rfl⟩

theorem updSched_stopping (n : BitVec 32) {x : SchedSt} (h : (s.updSched n fun x => { x with stopping := true }).sched? n = some x) :
    x.stopping = true := by
  cases hn : s.sched? n with
  | none =>
    unfold State.updSched at h
    rw [hn] at h
    exact nomatch hn.symm.trans h
  | some y =>
    rw [updSched_sched hn] at h
    rw [← Option.some.inj h]

theorem exec_taskStop_fails {task : BitVec 32} {a : AbortSt} (ha : (s.task task).abort = some a) (hf : a.fret ≤ s.now)
    (hc : (s.task task).phase ≠ .committed) (hs : (s.task task).phase ≠ .stopped) (hn : s.commits (s.task task) = false)
    (hr : retriable a.status = false) :
    ∃ t, exec (.taskStop task) s = .next t ∧ (t.task task).phase = .stopped ∧ (∀ r ∈ t.relx.retries, r.task ≠ task) ∧
      (∀ x, t.sched? (s.task task).sched = some x → x.stopping = true) := by
  have hj := stopJudged_as s task a
  refine ⟨_, exec_taskStop ha hf hc hs hn, by rw [afterStop_phase]; exact hj.phase, ?_⟩
  unfold State.afterStop
  extract_lets u
  have hsched : (u.task task).sched = (s.task task).sched := by rw [task_congr (retryCleared_only ..).tasks]; exact hj.sched
  rw [if_neg fun k => Bool.noConfusion (hr.symm.trans k.1)]
  refine ⟨fun r h => ?_, fun x hx => ?_⟩
  · rw [(failTask_only ..).relx] at h
    exact retryCleared_retries h
  · unfold State.failTask at hx
    dsimp only at hx
    rw [sched_congr (taskReport_only ..).scheds, hsched] at hx
    exact updSched_stopping _ hx

theorem exec_taskStop_idle {task : BitVec 32} (h : (s.task task).abort = none ∨ (s.task task).phase = .committed ∨
    (s.task task).phase = .stopped ∨ s.commits (s.task task) = true) : exec (.taskStop task) s = .next s := by
  change execTaskStop task s = _
  unfold execTaskStop
  extract_lets t
  split
  · rfl
  · next a ha => exact if_pos (.inr (h.resolve_left fun k => nomatch ha.symm.trans k))

/-! ### Hangs -/

/-- The hang that was found last is the same. -/
def State.SameHang (s t : State) : Prop :=
  t.heal.hangTask = s.heal.hangTask ∧ t.heal.hangValid = s.heal.hangValid ∧ t.heal.hangs = s.heal.hangs

theorem State.SameHang.of_heal {t : State} (h : t.heal = s.heal) : s.SameHang t := by
  unfold State.SameHang
  rw [h]
  exact ⟨rfl, rfl, rfl⟩

theorem State.SameHang.trans {t u : State} (h : s.SameHang t) (k : t.SameHang u) : s.SameHang u :=
  ⟨k.1.trans h.1, k.2.1.trans h.2.1, k.2.2.trans h.2.2⟩

theorem fenceTile_sameHang (pt v : Nat) : s.SameHang (s.fenceTile pt v) := by
  unfold State.fenceTile
  extract_lets c before a b d e f
  split
  · exact .of_heal rfl
  split
  · exact .of_heal (modHealx_only ..).heal
  · have hb : s.SameHang (b.clearTransit pt) :=
      .of_heal ((only_clearTransit (only_updTile ((updRole_only ..).in) (by decide)) (by decide) : s.Only _ [.healx, .tiles, .relx]).heal)
    have hd : (b.clearTransit pt).SameHang d := ⟨rfl, rfl, rfl⟩
    have hlast : d.SameHang (f.lostCheck c before) := .of_heal ((only_lostCheck (only_recordAt ((attn_only ..).in) (by decide)) (by decide)
      : d.Only _ [.flash, .top, .bist, .healx, .relx, .chest, .out]).heal)
    exact hb.trans (hd.trans hlast)

theorem tileHang_sameHang (pt : Nat) : s.SameHang (s.tileHang pt) := by
  unfold State.tileHang
  extract_lets again spare
  split
  · exact fenceTile_sameHang ..
  · exact .of_heal (updRole_only ..).heal

theorem startRecovery_sameHang (p : Nat) : s.SameHang (s.startRecovery p) := by
  unfold State.startRecovery
  extract_lets a b c d e f
  split
  · exact .of_heal rfl
  · have ha : s.SameHang a := (State.SameHang.of_heal (setPartMode_only s p .reset).heal).trans ⟨rfl, rfl, rfl⟩
    have hb : a.Only b [.tasks, .chest] := only_each (.refl _ _) fun _ _ h => only_detect h (by decide)
    have hd : b.Only d [.tiles, .mch, .parts] :=
      only_lpInvalidate (only_fenceQueues ((modTiles_only ..).in) (by decide)) (by decide)
    have he : d.Only e [.chest, .spn, .tasks] := only_each (.refl _ _) fun _ _ h => only_cutLeaving h (by decide)
    have hf : e.Only f [.mch, .out, .parts] := only_updPart ((closeFolds_only ..).in) (by decide)
    exact ha.trans (.of_heal ((recordAt_only ..).heal.trans (hf.heal.trans (he.heal.trans (hd.heal.trans hb.heal)))))

theorem hangNamed_sameHang (part : Nat) (tile : Option Nat) : s.SameHang (s.hangNamed part tile) := by
  unfold State.hangNamed
  extract_lets code
  split
  · exact .of_heal (modHealx_only ..).heal
  split
  · exact tileHang_sameHang _
  · exact startRecovery_sameHang _

theorem hangNamed_moreAborts (part : Nat) (tile : Option Nat) : s.MoreAborts (s.hangNamed part tile) := by
  unfold State.hangNamed
  extract_lets code
  split
  · exact (modHealx_only ..).moreAborts
  split
  · exact (tileHang_only ..).moreAborts
  · exact startRecovery_moreAborts ..

/-- What a hang records before its cause is taken. -/
structure State.HangShown (s u : State) (task : BitVec 32) : Prop where
  only : s.Only u [.heal, .chest]
  task : u.heal.hangTask = task
  valid : u.heal.hangValid = true
  count : u.heal.hangs = satAdd s.heal.hangs 1

theorem exec_taskHang {task : BitVec 32} (hp : (s.task task).phase = .running ∨ (s.task task).phase = .ended) (hd : (s.task task).dead = false)
    (hn : s.now + 1 = (s.task task).ending + (s.task task).grace)
    (h : (∃ e ∈ s.effTiles task, s.tileIncomplete task e.1 e.2 = true) ∨ s.openCtxs task ≠ [] ∨ s.openWrites task ≠ []) :
    ∃ u part tile, exec (.taskHang task) s = .next ((u.detect task .hang).hangNamed part tile) ∧ s.HangShown u task := by
  change ∃ u part tile, execTaskHang task s = _ ∧ _
  unfold execTaskHang
  extract_lets t tiles lts ctxs writes edge low part tile held u r v
  have hopen : (decide (lts = []) && decide (ctxs = []) && decide (writes = [])) = false := by
    rcases h with ⟨e, he, hi⟩ | h | h
    · rw [decide_eq_false (p := lts = []) fun k =>
        List.not_mem_nil (k ▸ List.mem_map_of_mem (List.mem_filter.2 ⟨he, hi⟩) : e.1 ∈ ([] : List Nat))]
      rfl
    · rw [decide_eq_false (p := ctxs = []) h, Bool.and_false, Bool.false_and]
    · rw [decide_eq_false (p := writes = []) h, Bool.and_false]
  have hrun : (decide (t.phase = .running) || decide (t.phase = .ended)) = true := by
    rcases hp with hp | hp
    · rw [decide_eq_true (p := t.phase = .running) hp, Bool.true_or]
    · rw [decide_eq_true (p := t.phase = .ended) hp, Bool.or_true]
  have hgo : (!(decide (t.phase = .running) || decide (t.phase = .ended)) || t.dead || decide (s.now + 1 ≠ t.ending + t.grace) ||
      (decide (lts = []) && decide (ctxs = []) && decide (writes = []))) = false := by
    rw [hrun, show t.dead = false from hd, decide_eq_false (not_not_intro hn), hopen]
    rfl
  rw [hgo, if_neg Bool.false_ne_true]
  exact ⟨v, part, tile, rfl, only_recordAt ((modHeal_only ..).in) (by decide), congrArg HealSt.hangTask (recordAt_only ..).heal,
    congrArg HealSt.hangValid (recordAt_only ..).heal, congrArg HealSt.hangs (recordAt_only ..).heal⟩

theorem exec_taskHang_aborts {task : BitVec 32} (hp : (s.task task).phase = .running ∨ (s.task task).phase = .ended)
    (hd : (s.task task).dead = false) (hn : s.now + 1 = (s.task task).ending + (s.task task).grace)
    (h : (∃ e ∈ s.effTiles task, s.tileIncomplete task e.1 e.2 = true) ∨ s.openCtxs task ≠ [] ∨ s.openWrites task ≠ []) :
    ∃ t, exec (.taskHang task) s = .next t ∧
      s.Only t [.flash, .top, .bist, .heal, .healx, .relx, .chest, .mch, .spn, .parts, .tiles, .tasks, .out] ∧
      (t.task task).abort.isSome = true ∧ t.heal.hangTask = task ∧ t.heal.hangValid = true ∧
      t.heal.hangs = satAdd s.heal.hangs 1 := by
  obtain ⟨u, part, tile, hexec, hu⟩ := exec_taskHang hp hd hn h
  have hdet := detect_only u task .hang
  have hsame := hangNamed_sameHang (s := u.detect task .hang) part tile
  refine ⟨_, hexec, only_hangNamed (only_detect hu.only.in (by decide)) (by decide), ?_, ?_, ?_, ?_⟩
  · exact (hangNamed_moreAborts part tile).abort task (detect_abort_self u task .hang (by rw [task_congr hu.only.tasks]; exact hp))
  · rw [hsame.1, hdet.heal, hu.task]
  · rw [hsame.2.1, hdet.heal, hu.valid]
  · rw [hsame.2.2, hdet.heal, hu.count]

theorem exec_taskHang_complete {task : BitVec 32} (h : ∀ e ∈ s.effTiles task, s.tileIncomplete task e.1 e.2 = false)
    (hc : s.openCtxs task = []) (hw : s.openWrites task = []) : exec (.taskHang task) s = .next s := by
  change execTaskHang task s = _
  unfold execTaskHang
  extract_lets t tiles lts ctxs writes
  have hlts : lts = [] := by
    dsimp only [lts]
    rw [List.filter_eq_nil_iff.2 fun e he => by rw [h e he]; exact Bool.false_ne_true]
    rfl
  refine if_pos ?_
  rw [decide_eq_true hlts, decide_eq_true (p := ctxs = []) hc, decide_eq_true (p := writes = []) hw]
  exact Bool.or_true _

/-! ### The obligation -/

/-- Settles O13: a commit, a stop and a hang each act at their fret, and nothing happens where they do not apply. -/
theorem tasksCommitStopOrHang : Obligations.TasksCommitStopOrHang := by
  unfold Obligations.TasksCommitStopOrHang
  exact ⟨fun s task c hp hd ha hc hcfg => exec_taskCommit_commits (commits_of hp hd ha hc) hcfg, fun s task h => if_pos h,
    fun s task a ha hf hc hs hn => exec_taskStop_stops ha hf hc hs hn,
    fun s task a x ha hf hc hs hn hx hstop hr hatt hret hhold => exec_taskStop_retries ha hf hc hs hn hx hstop hr hatt hret hhold,
    fun s task a ha hf hc hs hn hr => exec_taskStop_fails ha hf hc hs hn hr, fun s task h => exec_taskStop_idle h,
    fun s task hp hd hn h => exec_taskHang_aborts hp hd hn h, fun s task h hc hw => exec_taskHang_complete h hc hw⟩

end Sys2Proof.Machine
end

section
/-!
PROOFS. Tasks are armed and end, and slots are remapped (03 R133; 08 R458; 09 R500; 10 R538; 11 R558, R562, R567): O12.
-/

set_option Elab.async false

namespace Sys2Proof.Machine

variable {s : State}

/-! ### What is sent -/

theorem updConn_sends (s : State) (n : Nat) (f : ConnSt → ConnSt) : s.Sends (s.updConn n f) := (updConn_only ..).sends

theorem transmit_sends (s : State) (n : Nat) (w : Waiting) : s.Sends (s.transmit n w) := by
  unfold State.transmit
  extract_lets c r seq u
  exact State.Sends.trans (emit_sends ..) (updConn_only ..).sends

theorem sendOn_sends (s : State) (n : Nat) (kind : BitVec 3) (ep : BitVec 14) (w : Waiting) : s.Sends (s.sendOn n kind ep w) := by
  have hrefuse : ∀ st d, s.Sends (s.refuse n st d) := fun st d => (updConn_only ..).sends
  unfold State.sendOn
  extract_lets c r
  split
  · exact hrefuse ..
  split
  · exact updConn_sends ..
  · split
    · exact transmit_sends ..
    split
    · exact hrefuse ..
    split
    · exact updConn_sends ..
    · exact transmit_sends ..
  · exact hrefuse ..

theorem taskReport_sends (s : State) (type : Nat) (st : Status) (attempt verdict : Nat) (task : BitVec 32) (fret : Nat) (origin : BitVec 10)
    (lt : Nat) (sched : BitVec 32) : s.Sends (s.taskReport type st attempt verdict task fret origin lt sched) := by
  unfold State.taskReport
  split
  · exact .refl s
  · exact sendOn_sends ..

theorem retryReport_sends (s : State) (n : BitVec 32) : s.Sends (s.retryReport n) := by
  unfold State.retryReport
  split
  · exact .refl s
  split
  · exact .refl s
  · exact State.Sends.trans (modRelx_only ..).sends (taskReport_sends ..)

/-- What each step of a fold sends has been sent at its end, where the steps keep what the sending reads. -/
theorem State.each_sent {α : Type} {f : State → α → State} {I : State → Prop} {g : α → List Out} (hI : ∀ u x, I u → I (f u x))
    (hs : ∀ (u : State) x, u.Sends (f u x)) (hg : ∀ u x, I u → ∀ o ∈ g x, o ∈ (f u x).out) (xs : List α) {s : State} (h : I s) :
    ∀ x ∈ xs, ∀ o ∈ g x, o ∈ (s.each xs f).out := by
  induction xs generalizing s with
  | nil => exact fun _ hx => nomatch hx
  | cons y ys ih =>
    intro x hx o ho
    rcases List.mem_cons.1 hx with rfl | hx
    · exact (State.Sends.each hs ys (f s x)).subset (hg s x h o ho)
    · exact ih (hI s y h) x hx o ho

/-! ### Arming -/

/-- A task's entry when it is armed. -/
def armEntry (sched : BitVec 32) (x : SchedSt) (c : TaskCfg) (launch attempt : Nat) (early : List AbortSt) : TaskRt :=
  { sched := sched, phase := .armed, multi := x.multi, salt := c.salt, launch := launch, length := c.length
    grace := c.grace, attempt := attempt
    earliest := (c.streams.filterMap fun e => e.2.2.head?.map fun u => ((launch : Int) + u.activation).toNat).foldl min launch
    tiles := c.tiles.map (·.1), aborts := early, recvd := decide (early ≠ []) }

/-- A task is entered as armed, with the aborts that came early. -/
def State.armEntered (s : State) (task sched : BitVec 32) (x : SchedSt) (c : TaskCfg) (launch attempt : Nat) : State :=
  (s.modTasks fun t => Tab.put t task.toNat (armEntry sched x c launch attempt (Tab.get [] s.fret.early task.toNat))).modFret fun r =>
    { r with early := Tab.del r.early task.toNat }

/-- One tile's configuration, where its bank does not hold it, and its arm message. -/
def State.issueTile (s : State) (task : BitVec 32) (ncn again : Bool) (c : TaskCfg) (launch : Nat) (tiles : List (Nat × TileCfg))
    (e : Nat × TileCfg) : State :=
  let keep := again && (((s.tile (s.ptOf e.1)).cur).map fun b => decide (b.task = task) && decide (b.cfg = e.2)).getD false
  let via := fun (t : BitVec 4) => if ncn || s.overNcn then none else some (s.vc2Worm t e.1 task)
  (s.when (!keep) fun s => s.emit (.config e.1 task e.2 (via 0))).emit
    (.arm e.1 ⟨task, c.salt, launch, keep, streamsFor c tiles e.1⟩ (via 1))

/-- The tiles of an armed task get their messages, and its retry is noted as armed. -/
def State.armIssued (s : State) (task sched : BitVec 32) (ncn again : Bool) (c : TaskCfg) (launch : Nat) : State :=
  ((s.each (s.effTiles task) fun u e => u.issueTile task ncn again c launch (s.effTiles task) e).modRelx fun r =>
    { r with retries := r.retries.map fun y => if y.task = task ∧ y.sched = sched then { y with armed := true } else y }).retryReport task

theorem exec_taskArmIssue {sched task : BitVec 32} (ncn : Bool) {x : SchedSt} {c : TaskCfg} {retry : Option RetrySt} (hx : s.sched? sched = some x)
    (hc : x.image.tasks.find? (fun c => decide (c.number = task)) = some c) (hst : x.started = true) (hstop : x.stopping = false)
    (hret : s.relx.retState = .none)
    (hretry : s.relx.retries.find? (fun r => decide (r.task = task) && decide (r.sched = sched) && !r.armed) = retry)
    (hbusy : (s.task task).busy = false) (hord : s.rstc.orderly = none)
    (hnext : retry = none → x.committed.contains task = false ∧
      ((x.image.tasks.takeWhile fun t => decide (t.number ≠ task)).all fun t =>
        x.committed.contains t.number || (s.task t.number).busy) = true) :
    exec (.taskArmIssue sched ⟨task, ncn⟩) s =
      .next ((s.armEntered task sched x c ((retry.map (·.launch)).getD (x.launchOf c)) ((retry.map fun r => r.attempt + 1).getD 0)).armIssued
        task sched ncn retry.isSome c ((retry.map (·.launch)).getD (x.launchOf c))) := by
  change execTaskArmIssue sched ⟨task, ncn⟩ s = _
  unfold execTaskArmIssue
  rw [hx]
  dsimp only
  rw [hc]
  dsimp only
  rw [hretry]
  refine (if_neg ?_).trans rfl
  rw [hst, hstop, hbusy, hord]
  rintro (k | k | k | k | k | ⟨hnone, k⟩)
  · exact Bool.noConfusion k
  · exact Bool.noConfusion k
  · exact k hret
  · exact Bool.noConfusion k
  · exact Bool.noConfusion k
  · obtain ⟨hcomm, horder⟩ := hnext (Option.isNone_iff_eq_none.1 hnone)
    exact k.elim (fun k => Bool.noConfusion (hcomm.symm.trans k)) fun k => Bool.noConfusion (horder.symm.trans k)

theorem armEntered_only (s : State) (task sched : BitVec 32) (x : SchedSt) (c : TaskCfg) (launch attempt : Nat) :
    s.Only (s.armEntered task sched x c launch attempt) [.fret, .tasks] := only_modFret ((modTasks_only ..).in) (by decide)

theorem armEntered_task (task sched m : BitVec 32) (x : SchedSt) (c : TaskCfg) (launch attempt : Nat) :
    (s.armEntered task sched x c launch attempt).task m =
      if m = task then armEntry sched x c launch attempt (Tab.get [] s.fret.early task.toNat) else s.task m := by
  refine (Tab.get_put ..).trans ?_
  by_cases h : m = task
  · rw [if_pos h, if_pos (congrArg _ h)]
  · rw [if_neg h, if_neg fun k => h (BitVec.eq_of_toNat_eq k)]
    rfl

theorem issueTile_only (s : State) (task : BitVec 32) (ncn again : Bool) (c : TaskCfg) (launch : Nat) (tiles : List (Nat × TileCfg))
    (e : Nat × TileCfg) : s.Only (s.issueTile task ncn again c launch tiles e) [.out] :=
  only_emit (only_when (.refl _ _) (emit_only ..)) (by decide)

theorem issueTile_sends (task : BitVec 32) (ncn again : Bool) (c : TaskCfg) (launch : Nat) (tiles : List (Nat × TileCfg))
    (e : Nat × TileCfg) : s.Sends (s.issueTile task ncn again c launch tiles e) :=
  (when_sends (emit_sends ..)).trans (emit_sends ..)

/-- The messages of a task that is armed for the first time. -/
theorem issueTile_first (task : BitVec 32) (ncn : Bool) (c : TaskCfg) (launch : Nat) (tiles : List (Nat × TileCfg)) (e : Nat × TileCfg) :
    (s.issueTile task ncn false c launch tiles e).out =
      .arm e.1 ⟨task, c.salt, launch, false, streamsFor c tiles e.1⟩ (if ncn || s.overNcn then none else some (s.vc2Worm 1 e.1 task)) ::
      .config e.1 task e.2 (if ncn || s.overNcn then none else some (s.vc2Worm 0 e.1 task)) :: s.out := rfl

theorem armIssued_only (s : State) (task sched : BitVec 32) (ncn again : Bool) (c : TaskCfg) (launch : Nat) :
    s.Only (s.armIssued task sched ncn again c launch) [.relx, .mch, .out] :=
  only_retryReport (only_modRelx (only_each (.refl _ _) fun _ _ h => h.trans (issueTile_only ..).in) (by decide)) (by decide)

theorem overNcn_congr {t : State} (ht : t.top = s.top) (hb : t.bist = s.bist) (hh : t.healx = s.healx) : t.overNcn = s.overNcn := by
  unfold State.overNcn State.recovering State.partMode
  rw [ht, hb, hh]

theorem vc2Worm_congr {t : State} (h : t.fret.chip = s.fret.chip) (wtype : BitVec 4) (lt : Nat) (task : BitVec 32) :
    t.vc2Worm wtype lt task = s.vc2Worm wtype lt task := by
  unfold State.vc2Worm
  rw [h]

theorem effTiles_congr {t : State} (ht : t.tasks = s.tasks) (hs : t.scheds = s.scheds) (hc : t.cluss = s.cluss) (hh : t.healx = s.healx)
    (n : BitVec 32) : t.effTiles n = s.effTiles n := by
  have hlost : t.ltLost = s.ltLost := by
    funext lt
    unfold State.ltLost State.lostSlots State.remapIdx State.role State.clus
    rw [hc, hh]
  have hvar : ∀ img lt, t.variantFor img lt = s.variantFor img lt := fun img lt => by
    unfold State.variantFor State.clus
    rw [hc]
  unfold State.effTiles State.taskCfg State.imageOf State.task
  rw [ht, hs, hlost]
  simp only [hvar]

/-- Every tile of an armed task is sent its configuration and its arm message. -/
theorem armIssued_sends {task sched : BitVec 32} {ncn : Bool} {c : TaskCfg} {launch : Nat} :
    ∀ e ∈ (s.armIssued task sched ncn false c launch).effTiles task,
      Out.config e.1 task e.2 (if ncn || s.overNcn then none else some (s.vc2Worm 0 e.1 task)) ∈ (s.armIssued task sched ncn false c launch).out ∧
      Out.arm e.1 ⟨task, c.salt, launch, false, streamsFor c (s.effTiles task) e.1⟩
        (if ncn || s.overNcn then none else some (s.vc2Worm 1 e.1 task)) ∈ (s.armIssued task sched ncn false c launch).out := by
  have hall := armIssued_only s task sched ncn false c launch
  rw [effTiles_congr hall.tasks hall.scheds hall.cluss hall.healx]
  intro e he
  have hsent := State.each_sent (I := fun u => s.Only u [.out]) (f := fun u e => u.issueTile task ncn false c launch (s.effTiles task) e)
    (g := fun e => [.config e.1 task e.2 (if ncn || s.overNcn then none else some (s.vc2Worm 0 e.1 task)),
      .arm e.1 ⟨task, c.salt, launch, false, streamsFor c (s.effTiles task) e.1⟩
        (if ncn || s.overNcn then none else some (s.vc2Worm 1 e.1 task))])
    (fun u x hu => hu.trans (issueTile_only ..)) (fun u x => issueTile_sends ..)
    (fun u x hu o ho => by
      rw [issueTile_first, overNcn_congr hu.top hu.bist hu.healx, vc2Worm_congr (congrArg FretSt.chip hu.fret),
        vc2Worm_congr (congrArg FretSt.chip hu.fret)]
      rcases List.mem_cons.1 ho with rfl | ho
      · exact List.mem_cons_of_mem _ List.mem_cons_self
      · rw [List.mem_singleton.1 ho]
        exact List.mem_cons_self) (s.effTiles task) (.refl s _) e he
  have hrest : ∀ o, o ∈ (s.each (s.effTiles task) fun u e => u.issueTile task ncn false c launch (s.effTiles task) e).out →
      o ∈ (s.armIssued task sched ncn false c launch).out := fun o ho =>
    (State.Sends.trans (modRelx_only ..).sends (retryReport_sends ..)).subset ho
  exact ⟨hrest _ (hsent _ List.mem_cons_self), hrest _ (hsent _ (List.mem_cons_of_mem _ List.mem_cons_self))⟩

theorem exec_taskArmIssue_first {sched task : BitVec 32} {ncn : Bool} {x : SchedSt} {c : TaskCfg} (hx : s.sched? sched = some x)
    (hc : x.image.tasks.find? (fun c => decide (c.number = task)) = some c) (hst : x.started = true) (hstop : x.stopping = false)
    (hret : s.relx.retState = .none)
    (hretry : s.relx.retries.find? (fun r => decide (r.task = task) && decide (r.sched = sched) && !r.armed) = none)
    (hbusy : (s.task task).busy = false) (hord : s.rstc.orderly = none) (hcomm : x.committed.contains task = false)
    (horder : ((x.image.tasks.takeWhile fun t => decide (t.number ≠ task)).all fun t =>
        x.committed.contains t.number || (s.task t.number).busy) = true) :
    ∃ t, exec (.taskArmIssue sched ⟨task, ncn⟩) s = .next t ∧ s.Only t [.fret, .relx, .mch, .tasks, .out] ∧
      (t.task task).phase = .armed ∧ (t.task task).sched = sched ∧ (t.task task).launch = x.launchOf c ∧
      (t.task task).attempt = 0 ∧ (t.task task).length = c.length ∧ (t.task task).grace = c.grace ∧
      (∀ m, m ≠ task → t.task m = s.task m) ∧
      (∀ e ∈ t.effTiles task,
        Out.config e.1 task e.2 (if ncn || s.overNcn then none else some (s.vc2Worm 0 e.1 task)) ∈ t.out ∧
        ∃ m : ArmMsg, Out.arm e.1 m (if ncn || s.overNcn then none else some (s.vc2Worm 1 e.1 task)) ∈ t.out ∧
          m.task = task ∧ m.launch = x.launchOf c ∧ m.salt = c.salt ∧ m.current = false) := by
  have hexec : exec (.taskArmIssue sched ⟨task, ncn⟩) s =
      .next ((s.armEntered task sched x c (x.launchOf c) 0).armIssued task sched ncn false c (x.launchOf c)) :=
    exec_taskArmIssue (retry := none) ncn hx hc hst hstop hret hretry hbusy hord fun _ => ⟨hcomm, horder⟩
  have hent := armEntered_only s task sched x c (x.launchOf c) 0
  have htask := armEntered_task (s := s) task sched task x c (x.launchOf c) 0
  have hother := fun m => armEntered_task (s := s) task sched m x c (x.launchOf c) 0
  have hiss := armIssued_only (s.armEntered task sched x c (x.launchOf c) 0) task sched ncn false c (x.launchOf c)
  have hsent := armIssued_sends (s := s.armEntered task sched x c (x.launchOf c) 0) (task := task) (sched := sched) (ncn := ncn) (c := c)
    (launch := x.launchOf c)
  rw [if_pos rfl] at htask
  have hend := (task_congr hiss.tasks task).trans htask
  refine ⟨_, hexec, hent.in.trans hiss.in, congrArg TaskRt.phase hend, congrArg TaskRt.sched hend, congrArg TaskRt.launch hend,
    congrArg TaskRt.attempt hend, congrArg TaskRt.length hend, congrArg TaskRt.grace hend, fun m hm => ?_, fun e he => ?_⟩
  · rw [task_congr hiss.tasks]
    exact (hother m).trans (if_neg hm)
  · obtain ⟨hconf, harm⟩ := hsent e he
    rw [overNcn_congr hent.top hent.bist hent.healx, vc2Worm_congr rfl] at hconf harm
    exact ⟨hconf, _, harm, rfl, rfl, rfl, rfl⟩

theorem exec_taskArmIssue_retry {sched task : BitVec 32} {ncn : Bool} {x : SchedSt} {c : TaskCfg} {r : RetrySt} (hx : s.sched? sched = some x)
    (hc : x.image.tasks.find? (fun c => decide (c.number = task)) = some c) (hst : x.started = true) (hstop : x.stopping = false)
    (hret : s.relx.retState = .none)
    (hretry : s.relx.retries.find? (fun r => decide (r.task = task) && decide (r.sched = sched) && !r.armed) = some r)
    (hbusy : (s.task task).busy = false) (hord : s.rstc.orderly = none) :
    ∃ t, exec (.taskArmIssue sched ⟨task, ncn⟩) s = .next t ∧ s.Only t [.fret, .relx, .mch, .tasks, .out] ∧
      (t.task task).phase = .armed ∧ (t.task task).sched = sched ∧ (t.task task).launch = r.launch ∧
      (t.task task).attempt = r.attempt + 1 ∧ (∀ m, m ≠ task → t.task m = s.task m) := by
  have hexec : exec (.taskArmIssue sched ⟨task, ncn⟩) s =
      .next ((s.armEntered task sched x c r.launch (r.attempt + 1)).armIssued task sched ncn true c r.launch) :=
    exec_taskArmIssue (retry := some r) ncn hx hc hst hstop hret hretry hbusy hord nofun
  have hent := armEntered_only s task sched x c r.launch (r.attempt + 1)
  have hother := fun m => armEntered_task (s := s) task sched m x c r.launch (r.attempt + 1)
  have hiss := armIssued_only (s.armEntered task sched x c r.launch (r.attempt + 1)) task sched ncn true c r.launch
  have hend := (task_congr hiss.tasks task).trans ((hother task).trans (if_pos rfl))
  exact ⟨_, hexec, hent.in.trans hiss.in, congrArg TaskRt.phase hend, congrArg TaskRt.sched hend, congrArg TaskRt.launch hend,
    congrArg TaskRt.attempt hend, fun m hm => (task_congr hiss.tasks m).trans ((hother m).trans (if_neg hm))⟩

theorem exec_taskArmIssue_idle {sched task : BitVec 32} {ncn : Bool} {x : SchedSt} (hx : s.sched? sched = some x)
    (h : x.started = false ∨ x.stopping = true ∨ s.relx.retState ≠ .none ∨ (s.task task).busy = true ∨ s.rstc.orderly ≠ none) :
    exec (.taskArmIssue sched ⟨task, ncn⟩) s = .next s := by
  change execTaskArmIssue sched ⟨task, ncn⟩ s = _
  unfold execTaskArmIssue
  rw [hx]
  dsimp only
  split
  · rfl
  · refine if_pos (h.imp_right fun h => h.imp_right fun h => h.imp_right fun h => h.imp_right fun h => .inl ?_)
    exact Option.isSome_iff_ne_none.2 h

/-! ### The end of a task -/

/-- A task's tiles go idle at its end. -/
def State.tilesIdle (s : State) (lts : List Nat) : State :=
  s.each lts fun u lt => u.updTile (u.ptOf lt) fun t => { t with mode := if t.mode = .run then .idle else t.mode }

theorem exec_taskEndCheck {task : BitVec 32} (hp : (s.task task).phase = .running) (he : (s.task task).ending = s.now) :
    exec (.taskEndCheck task) s = .next (((s.when
      (((s.runningTiles task).any fun lt => (s.tile (s.ptOf lt)).rt.any fun r => r.queues.any fun q => decide (q ≠ [])) || s.unjudged task)
        (·.detect task .bound)).tilesIdle (s.runningTiles task)).updTask task fun t => { t with phase := .ended }) :=
  if_neg fun k => k.elim (· hp) (· he)

theorem tilesIdle_only (s : State) (lts : List Nat) : s.Only (s.tilesIdle lts) [.tiles] :=
  only_each (.refl _ _) fun _ _ h => only_updTile h (by decide)

theorem ended_task (task m : BitVec 32) (lts : List Nat) : ((s.tilesIdle lts).updTask task fun t => { t with phase := .ended }).task m =
    if m = task then { s.task task with phase := .ended } else s.task m := by
  rw [updTask_task, task_congr (tilesIdle_only ..).tasks, task_congr (tilesIdle_only ..).tasks]

theorem exec_taskEndCheck_clean {task : BitVec 32} (hp : (s.task task).phase = .running) (he : (s.task task).ending = s.now)
    (hq : ((s.runningTiles task).any fun lt => (s.tile (s.ptOf lt)).rt.any fun r => r.queues.any fun q => decide (q ≠ [])) = false)
    (hu : s.unjudged task = false) :
    ∃ t, exec (.taskEndCheck task) s = .next t ∧ s.Only t [.tiles, .tasks] ∧ (t.task task).phase = .ended ∧
      (t.task task).abort = (s.task task).abort ∧ (∀ m, m ≠ task → t.task m = s.task m) := by
  have hexec := exec_taskEndCheck hp he
  rw [hq, hu, Bool.or_false, State.when_false] at hexec
  have htask := fun m => ended_task (s := s) task m (s.runningTiles task)
  refine ⟨_, hexec, only_updTask ((tilesIdle_only ..).in) (by decide), ?_, ?_, fun m hm => (htask m).trans (if_neg hm)⟩
  · rw [htask, if_pos rfl]
  · rw [htask, if_pos rfl]
    rfl

theorem exec_taskEndCheck_bound {task : BitVec 32} (hp : (s.task task).phase = .running) (he : (s.task task).ending = s.now)
    (h : (((s.runningTiles task).any fun lt => (s.tile (s.ptOf lt)).rt.any fun r => r.queues.any fun q => decide (q ≠ [])) ||
      s.unjudged task) = true) :
    ∃ t, exec (.taskEndCheck task) s = .next t ∧ s.Only t [.tiles, .tasks, .chest] ∧ (t.task task).phase = .ended ∧
      (t.task task).abort.isSome = true := by
  have hexec := exec_taskEndCheck hp he
  rw [h, State.when_true] at hexec
  have htask := ended_task (s := s.detect task .bound) task task (s.runningTiles task)
  rw [if_pos rfl] at htask
  refine ⟨_, hexec, only_updTask ((detect_only ..).in.trans (tilesIdle_only ..).in) (by decide), ?_, ?_⟩
  · rw [htask]
  · rw [htask]
    exact detect_abort_self s task .bound (.inl hp)

/-! ### Remaps -/

/-- A slot that moves is counted, and its old tile, if it was active, is tested. -/
theorem moveSlot_counts (c k j : Nat) (hj : j ≠ 18 * c + s.remapIdx c k) :
    (s.moveSlot c k j).heal.remaps = satAdd s.heal.remaps 1 ∧ ((s.role (18 * c + s.remapIdx c k)).role = .active →
      ((s.moveSlot c k j).role (18 * c + s.remapIdx c k)).role = .testing) := by
  have htaken : s.Only (s.slotTaken c k j) [.rel, .relx, .chest, .mch, .tiles, .out, .cluss, .healx] :=
    only_updRole (only_updClus (only_updTile ((resetTile_only ..).in) (by decide)) (by decide)) (by decide)
  have hleft : (s.slotTaken c k j).Only ((s.slotTaken c k j).slotLeft (18 * c + s.remapIdx c k)) [.healx, .tiles] :=
    only_when (.refl _ _) (only_updTile ((updRole_only ..).in) (by decide))
  have hrole : (s.slotTaken c k j).role (18 * c + s.remapIdx c k) = s.role (18 * c + s.remapIdx c k) := by
    unfold State.slotTaken
    rw [updRole_role, if_neg hj.symm, role_congr (updClus_only ..).healx, role_congr (updTile_only ..).healx, role_congr (resetTile_only ..).healx]
  have hheal : s.heal = ((s.slotTaken c k j).slotLeft (18 * c + s.remapIdx c k)).heal := (hleft.heal.trans htaken.heal).symm
  refine ⟨?_, fun hact => ?_⟩
  · rw [hheal]
    exact (congrArg HealSt.remaps (lostCheck_only ..).heal).trans rfl
  · obtain ⟨u, honly, hu, before, hmove⟩ := moveSlot_eq s c k j
    have hlost : (u.lostCheck c before).role (18 * c + s.remapIdx c k) = u.role (18 * c + s.remapIdx c k) :=
      (congrArg (fun x : HealAux => Tab.get (roleDefault _) x.roles _) (lostCheck_healx u c before)).trans rfl
    rw [hmove, hlost, role_congr hu.healx]
    unfold State.slotLeft
    rw [hrole, decide_eq_true hact, State.when_true, role_congr (updTile_only ..).healx, updRole_role, if_pos rfl]

theorem exec_remapApply {c : Clus} {slot : Fin 16} (hrun : s.clusRuns c = false) (hm : s.partMode (clusPart c) ≠ .reset)
    (hh : Tab.find (s.clus c).hosts slot = none)
    (hr : (s.role (18 * c.val + s.remapIdx c slot)).role = .fenced ∨ (s.role (18 * c.val + s.remapIdx c slot)).hangRemap = true) :
    exec (.remapApply c slot) s = match s.spareTile c with
      | some j => .next (s.moveSlot c slot j)
      | none => .next (s.updRole (18 * c.val + s.remapIdx c slot) fun r => { r with hangRemap := false }) := by
  refine (if_neg ?_).trans rfl
  rw [hrun, hh]
  rintro (k | k | k | ⟨hf, hn⟩)
  · exact Bool.noConfusion k
  · exact hm k
  · exact Bool.noConfusion k
  · exact hr.elim hf fun k => Bool.noConfusion (hn.symm.trans k)

theorem exec_remapApply_moves {c : Clus} {slot : Fin 16} {j : Nat} (hrun : s.clusRuns c = false) (hm : s.partMode (clusPart c) ≠ .reset)
    (hh : Tab.find (s.clus c).hosts slot = none)
    (hr : (s.role (18 * c.val + s.remapIdx c slot)).role = .fenced ∨ (s.role (18 * c.val + s.remapIdx c slot)).hangRemap = true)
    (hsp : s.spareTile c = some j) (hj : j ≠ 18 * c.val + s.remapIdx c slot) :
    ∃ t, exec (.remapApply c slot) s = .next t ∧
      s.Keeps t [.fuse, .rstc, .clk, .fret, .ids, .sec, .spn, .sess, .hbm, .parts, .ctxs, .tasks, .scheds] ∧
      (t.clus c).remap = listUpd (s.clus c).remap slot (fun _ => BitVec.ofNat 5 (ptIdx j)) ∧
      (t.role j).role = .active ∧ t.heal.remaps = satAdd s.heal.remaps 1 ∧
      ((s.role (18 * c.val + s.remapIdx c slot)).role = .active →
        (t.role (18 * c.val + s.remapIdx c slot)).role = .testing) := by
  obtain ⟨hclus, hact⟩ := moveSlot_reads (s := s) c.val slot j hj
  obtain ⟨hcount, hold⟩ := moveSlot_counts (s := s) c.val slot j hj
  exact ⟨_, (exec_remapApply hrun hm hh hr).trans (by rw [hsp]), (moveSlot_only ..).keeps (by decide), congrArg ClusSt.remap hclus, hact,
    hcount, hold⟩

/-! ### The obligation -/

/-- Settles O12: arming, the end of a task and the remap of a slot, each with what stops it. -/
theorem tasksArmAndEnd : Obligations.TasksArmAndEnd := by
  unfold Obligations.TasksArmAndEnd
  refine ⟨fun s sched task ncn x c hx hc hst hstop hret hretry hbusy hord hcomm horder =>
      exec_taskArmIssue_first hx hc hst hstop hret hretry hbusy hord hcomm horder,
    fun s sched task ncn x c r hx hc hst hstop hret hretry hbusy hord =>
      exec_taskArmIssue_retry hx hc hst hstop hret hretry hbusy hord,
    fun s sched task ncn x hx h => exec_taskArmIssue_idle hx h, fun s task hp he hq hu => exec_taskEndCheck_clean hp he hq hu,
    fun s task hp he h => exec_taskEndCheck_bound hp he h, fun s task h => if_pos h,
    fun s c slot j hrun hm hh hr hsp hj => exec_remapApply_moves hrun hm hh hr hsp hj,
    fun s c slot hrun hm hh hr hsp => (exec_remapApply hrun hm hh hr).trans (by rw [hsp]), fun s c slot h => if_pos ?_⟩
  exact h.imp_right .inl

end Sys2Proof.Machine
end

section
/-!
PROOFS. Steering units (03 R139 to R149): O10.
-/

set_option Elab.async false

namespace Sys2Proof.Machine

variable {s : State} {lt : Lt} {fold unit : Nat} {pt : Nat} {a : Armed} {c : TileCfg} {f : FoldCfg} {u : SteerCfg}

theorem exec_steerTokenArrive (h : s.steerOf lt fold unit = some (pt, a, c, f, u)) :
    exec (.steerTokenArrive lt fold unit) s =
      if s.inTime a = false then .next s
      else match s.takeMessage lt fold u.token with
        | none => .next s
        | some (r, v) => .next (v.each (wordVals r.body 0 (r.body.length / 4)) fun s w => s.addToken lt pt fold unit a.task u w) := by
  change execSteerTokenArrive lt fold unit s = _
  unfold execSteerTokenArrive
  rw [h] <;> rfl

theorem exec_steerTokenArrive_idle (h : s.steerOf lt fold unit = some (pt, a, c, f, u))
    (hi : s.inTime a = false ∨ s.takeMessage lt fold u.token = none) : exec (.steerTokenArrive lt fold unit) s = .next s := by
  rw [exec_steerTokenArrive h]
  rcases hi with hi | hi
  · exact if_pos hi
  · rw [hi]
    exact ite_self _

theorem exec_steerEmit {t : Word × Nat} {ts : List (Word × Nat)} {o : OutputCfg} (obs : List TileFault)
    (h : s.steerOf lt fold unit = some (pt, a, c, f, u)) (ht : (s.steerRt pt fold unit).tokens = t :: ts)
    (hg : groupFret a c fold u (s.steerRt pt fold unit).emitted + u.bound.toNat + 1 = s.now) (hold : t.2 < s.now)
    (hr : 0 < s.groupsReady lt fold u) (hi : s.inTime a = true) (ho : f.outputs[u.out]? = some o) {w : State}
    (hw : w = ((s.updSteer pt fold unit fun _ => { tokens := ts, emitted := (s.steerRt pt fold unit).emitted + 1 }).each u.data
        fun s i => s.dropWords lt fold i u.group).when (((f.inputs[u.token]?).bind InputCfg.edge).isSome)
          (·.dropWords lt fold u.token 1)) :
    exec (.steerEmit lt fold ⟨unit, obs⟩) s = .next
      ((w.sendPort lt pt a.task fold u.out o
        (((s.edgeQueue lt fold (u.data.getD (tokenSel t.1) 0)).take u.group).map (·.bytes))
        (obs.any TileFault.poisons)).tileFaults pt a.task fold (w.foldRt pt fold) obs) := by
  change execSteerEmit lt fold ⟨unit, obs⟩ s = _
  unfold execSteerEmit
  dsimp only
  rw [h]
  dsimp only
  rw [ht]
  dsimp only
  rw [if_neg fun k => k.elim (absurd hg) fun k => k.elim (Nat.not_le.2 hold) fun k => k.elim (Nat.ne_of_gt hr) fun k =>
    Bool.noConfusion (hi.symm.trans k), ho, hw]

theorem exec_steerEmit_idle (obs : List TileFault) (h : s.steerOf lt fold unit = some (pt, a, c, f, u))
    (hi : s.inTime a = false ∨ (s.steerRt pt fold unit).tokens = []) : exec (.steerEmit lt fold ⟨unit, obs⟩) s = .next s := by
  change execSteerEmit lt fold ⟨unit, obs⟩ s = _
  unfold execSteerEmit
  dsimp only
  rw [h]
  dsimp only
  split
  · rfl
  · next t ts ht => exact if_pos (.inr (.inr (.inr (hi.resolve_right fun k => nomatch k.symm.trans ht))))

/-- The group that is due is not there: of the frets that remain to be judged, this one is its. -/
theorem exec_steerGroupLate (h : s.steerOf lt fold unit = some (pt, a, c, f, u)) (hi : s.inTime a = true) (hc : 0 < u.count)
    (hg : groupFret a c fold u (s.steerRt pt fold unit).emitted + 1 = s.now) (hr : s.groupsReady lt fold u = 0) :
    exec (.steerGroupLate lt fold unit) s = .next (s.detect a.task .bound) := by
  change execSteerGroupLate lt fold unit s = _
  unfold execSteerGroupLate
  rw [h]
  refine if_pos ⟨hi, hc, List.any_eq_true.2 ⟨0, List.mem_range.2 ?_, ?_⟩⟩
  · omega
  · rw [hr]
    exact Bool.and_eq_true_iff.2 ⟨decide_eq_true hg, rfl⟩

theorem exec_steerTokenTimeout (h : s.steerOf lt fold unit = some (pt, a, c, f, u)) (hi : s.inTime a = true) (hc : 0 < u.count)
    (hg : groupFret a c fold u (s.steerRt pt fold unit).emitted + u.bound.toNat + 1 = s.now) (ht : (s.steerRt pt fold unit).tokens = []) :
    exec (.steerTokenTimeout lt fold unit) s = .next (s.detect a.task .skew) := by
  change execSteerTokenTimeout lt fold unit s = _
  unfold execSteerTokenTimeout
  rw [h]
  refine if_pos ⟨hi, hc, hg, ?_⟩
  rw [ht]
  rfl

theorem exec_steerGroupTimeout {t : Word × Nat} (h : s.steerOf lt fold unit = some (pt, a, c, f, u)) (hi : s.inTime a = true)
    (ht : (s.steerRt pt fold unit).tokens = [t]) (hb : t.2 + u.bound.toNat + 1 = s.now) (hr : s.groupsReady lt fold u = 0) :
    exec (.steerGroupTimeout lt fold unit) s = .next (s.detect a.task .skew) := by
  change execSteerGroupTimeout lt fold unit s = _
  unfold execSteerGroupTimeout
  rw [h]
  refine if_pos ⟨hi, ?_⟩
  rw [ht, hr]
  exact List.any_eq_true.2 ⟨(t, 0), List.mem_cons_self, Bool.and_eq_true_iff.2 ⟨decide_eq_true hb, rfl⟩⟩

/-- Outside the task's time no check of a unit finds anything. -/
theorem exec_steer_outOfTime (h : s.steerOf lt fold unit = some (pt, a, c, f, u)) (hi : s.inTime a = false) :
    exec (.steerGroupLate lt fold unit) s = .next s ∧ exec (.steerTokenTimeout lt fold unit) s = .next s ∧
      exec (.steerGroupTimeout lt fold unit) s = .next s := by
  have hno : ∀ {p : Prop}, ¬(s.inTime a = true ∧ p) := fun k => Bool.noConfusion (hi.symm.trans k.1)
  refine ⟨?_, ?_, ?_⟩
  · change execSteerGroupLate lt fold unit s = _
    unfold execSteerGroupLate
    rw [h]
    exact if_neg hno
  · change execSteerTokenTimeout lt fold unit s = _
    unfold execSteerTokenTimeout
    rw [h]
    exact if_neg hno
  · change execSteerGroupTimeout lt fold unit s = _
    unfold execSteerGroupTimeout
    rw [h]
    exact if_neg hno

/-- Settles O10: tokens, groups and their time-outs, within the task's time and outside it. -/
theorem steeringUnitsAct : Obligations.SteeringUnitsAct := by
  unfold Obligations.SteeringUnitsAct
  refine ⟨fun s lt fold unit pt a c f u r v h hi hm => ?_, fun s lt fold unit pt a c f u h hi => exec_steerTokenArrive_idle h hi,
    fun s lt fold unit pt a c f u t ts o obs w h ht hg hold hr hi ho hw => exec_steerEmit obs h ht hg hold hr hi ho hw,
    fun s lt fold unit pt a c f u obs h hi => exec_steerEmit_idle obs h hi,
    fun s lt fold unit pt a c f u h hi hc hg hr => exec_steerGroupLate h hi hc hg hr,
    fun s lt fold unit pt a c f u h hi hc hg ht => exec_steerTokenTimeout h hi hc hg ht,
    fun s lt fold unit pt a c f u t h hi ht hb hr => exec_steerGroupTimeout h hi ht hb hr,
    fun s lt fold unit pt a c f u h hi => exec_steer_outOfTime h hi⟩
  rw [exec_steerTokenArrive h, if_neg (by rw [hi]; exact Bool.noConfusion), hm]

end Sys2Proof.Machine
end

section
/-!
PROOFS. Folds, credits, firings and samples (02 R105, R107; 03 R123 to R133, R152, R157, R173): O9.
-/

set_option Elab.async false

namespace Sys2Proof.Machine

variable {s : State}

/-! ### Fold switches -/

/-- What the fold that ends saves to its spill areas. -/
def State.saved (s : State) (lt pt : Nat) (a : Armed) (c : TileCfg) (i : Nat) : List (Nat × List Byte) :=
  match c.folds[if i = 0 then c.folds.length - 1 else i - 1]? with
  | some f => if c.folds.length ≤ 1 ∨ s.now = a.launch then []
      else (spillAreas lt f (s.foldRt pt (if i = 0 then c.folds.length - 1 else i - 1))).map fun e => (f.sramBase + e.1, e.2)
  | none => []

theorem exec_foldSwitch {lt : Lt} {pt : Nat} {a : Armed} {c : TileCfg} {i : Nat} (hr : s.runs lt = some (pt, a, c))
    (ha : s.active a c = some (i, 0)) (hi : s.inTime a = true) :
    exec (.foldSwitch lt) s = .next (s.updTile pt fun t =>
      { t with fold := BitVec.ofNat 3 i, sram := (s.saved lt pt a c i).foldl (fun m e => Mem.writeZ m e.1 e.2) t.sram }) := by
  change execFoldSwitch lt s = _
  unfold execFoldSwitch
  rw [hr]
  dsimp only
  rw [ha]
  exact if_neg fun k => Bool.noConfusion (hi.symm.trans k)

theorem saved_none {lt pt : Nat} {a : Armed} {c : TileCfg} {i : Nat} (h : c.folds.length ≤ 1 ∨ s.now = a.launch) :
    s.saved lt pt a c i = [] := by
  unfold State.saved
  split
  · exact if_pos h
  · rfl

theorem exec_foldSwitch_starts {lt : Lt} {pt : Nat} {a : Armed} {c : TileCfg} {i : Nat} (hr : s.runs lt = some (pt, a, c))
    (ha : s.active a c = some (i, 0)) (hi : s.inTime a = true) :
    ∃ t, exec (.foldSwitch lt) s = .next t ∧ s.Only t [.tiles] ∧ (∀ q, q ≠ pt → t.tile q = s.tile q) ∧
      t.tile pt = { s.tile pt with fold := BitVec.ofNat 3 i, sram := (t.tile pt).sram } ∧
      (c.folds.length ≤ 1 ∨ s.now = a.launch → (t.tile pt).sram = (s.tile pt).sram) ∧
      (∀ f, 1 < c.folds.length → s.now ≠ a.launch →
        c.folds[if i = 0 then c.folds.length - 1 else i - 1]? = some f →
        (t.tile pt).sram = (spillAreas lt f (s.foldRt pt (if i = 0 then c.folds.length - 1 else i - 1))).foldl
          (fun m e => Mem.writeZ m (f.sramBase + e.1) e.2) (s.tile pt).sram) := by
  refine ⟨_, exec_foldSwitch hr ha hi, updTile_only .., fun q hq => (updTile_tile ..).trans (if_neg hq), ?_, fun h => ?_, fun f h1 hl hf => ?_⟩
  · rw [updTile_tile_self]
  · rw [updTile_tile_self, saved_none h]
    rfl
  · rw [updTile_tile_self]
    unfold State.saved
    rw [hf]
    dsimp only
    rw [if_neg fun k => k.elim (Nat.not_le.2 h1) hl, List.foldl_map]

theorem exec_foldSwitch_idle {lt : Lt} {pt : Nat} {a : Armed} {c : TileCfg} (hr : s.runs lt = some (pt, a, c))
    (h : s.inTime a = false ∨ ∀ i, s.active a c ≠ some (i, 0)) : exec (.foldSwitch lt) s = .next s := by
  change execFoldSwitch lt s = _
  unfold execFoldSwitch
  rw [hr]
  dsimp only
  split
  · next i ha => exact if_pos (h.resolve_right fun k => k i ha)
  · rfl

/-! ### Credits -/

theorem listUpd_length {α : Type} (l : List α) (n : Nat) (f : α → α) : (listUpd l n f).length = l.length := by
  induction l generalizing n with
  | nil => rfl
  | cons x xs ih =>
    cases n with
    | zero => rfl
    | succ n => exact congrArg (· + 1) (ih n)

/-- The run-time state of a fold that the tile has, changed. -/
theorem updRt_foldRt {pt fold : Nat} (h : fold < (s.tile pt).rt.length) (f : FoldRt → FoldRt) :
    (s.updRt pt fold f).foldRt pt fold = f (s.foldRt pt fold) := by
  unfold State.foldRt State.updRt
  rw [updTile_tile_self]
  dsimp only
  rw [List.getD_eq_getElem?_getD, listUpd_getElem?, if_pos rfl, List.getD_eq_getElem?_getD, List.getElem?_eq_getElem h]
  rfl

/-- Returned credits, counted for the next fret. -/
def State.credited (s : State) (pt fold port n : Nat) : State :=
  s.updRt pt fold fun r => { r with fresh := listUpd r.fresh port (· + n), changed := listUpd r.changed port fun _ => s.now }

theorem exec_edgeCreditReturn {lt : Lt} {fold port n pt : Nat} {a : Armed} {c : TileCfg} {f : FoldCfg} {o : OutputCfg} {e : EdgeOut}
    (hs : s.sinks (s.ptOf lt) = false) (hf : s.foldCfg lt fold = some (pt, a, c, f)) (ho : f.outputs[port]? = some o)
    (he : o.edges.head? = some e) (hl : fold < (s.tile pt).rt.length) :
    exec (.edgeCreditReturn lt fold port n) s =
      if e.depth < ((s.foldRt pt fold).credits.getD port 0) + (listUpd (s.foldRt pt fold).fresh port (· + n)).getD port 0 then
        .next ((s.credited pt fold port n).detect a.task .bound)
      else .next (s.credited pt fold port n) := by
  change execEdgeCreditReturn lt fold port n s = _
  unfold execEdgeCreditReturn
  rw [if_neg fun k => Bool.noConfusion (hs.symm.trans k), hf]
  dsimp only
  rw [ho, Option.bind_some, he]
  dsimp only
  rw [updRt_foldRt hl] <;> rfl

/-! ### Firings -/

/-- A firing's inputs, taken or not: the datapath runs on them, or the task takes the status. -/
def State.fired (s : State) (lt pt : Nat) (a : Armed) (i : Nat) (f : FoldCfg) (obs : List TileFault) (r : Taken × State × Option Status) : State :=
  match r.2.2 with
  | some st => s.detect a.task st
  | none => r.2.1.runFold lt pt a i f r.1 (obs.any TileFault.poisons)

section Firing

variable {lt : Lt} {pt : Nat} {a : Armed} {c : TileCfg} {i o : Nat} {f : FoldCfg} (obs : List TileFault)

theorem exec_firing_due (hr : s.runs lt = some (pt, a, c)) (ha : s.active a c = some (i, o)) (hf : c.folds[i]? = some f)
    (ho : (firingOffsets f).contains o = true) (hi : s.inTime a = true) (hm : (s.tile pt).mode = .run)
    (hl : (s.foldRt pt i).lastFire ≠ some s.now) :
    exec (.firing lt obs) s = .next (((s.updRt pt i fun r => { r with lastFire := some s.now }).fired lt pt a i f obs
      ((s.updRt pt i fun r => { r with lastFire := some s.now }).takeInputs lt i (steerInputs f) f.inputs.zipIdx)).tileFaults pt a.task i
        ((s.updRt pt i fun r => { r with lastFire := some s.now }).foldRt pt i) obs) := by
  change execFiring lt obs s = _
  unfold execFiring
  rw [hr]
  dsimp only
  rw [ha]
  dsimp only
  rw [hf]
  refine (if_neg ?_).trans rfl
  rw [ho, hi, decide_eq_false (not_not_intro hm), decide_eq_false hl]
  exact Bool.false_ne_true

theorem exec_firing_idle (hr : s.runs lt = some (pt, a, c)) (ha : s.active a c = some (i, o)) (hf : c.folds[i]? = some f)
    (h : (firingOffsets f).contains o = false ∨ s.inTime a = false ∨ (s.tile pt).mode ≠ .run ∨ (s.foldRt pt i).lastFire = some s.now) :
    exec (.firing lt obs) s = .next s := by
  change execFiring lt obs s = _
  unfold execFiring
  rw [hr]
  dsimp only
  rw [ha]
  dsimp only
  rw [hf]
  refine if_pos ?_
  rcases h with h | h | h | h
  · rw [h]
    rfl
  · rw [h, Bool.not_false, Bool.or_true]
    rfl
  · rw [decide_eq_true h, Bool.or_true]
    rfl
  · rw [decide_eq_true h, Bool.or_true]

end Firing

theorem exec_tile_idle {lt : Lt} (h : s.runs lt = none) :
    (∀ obs, exec (.firing lt obs) s = .next s) ∧ exec (.foldSwitch lt) s = .next s := by
  refine ⟨fun obs => ?_, ?_⟩
  · change execFiring lt obs s = _
    unfold execFiring
    rw [h]
  · change execFoldSwitch lt s = _
    unfold execFoldSwitch
    rw [h]

/-! ### Credit checks -/

theorem exec_creditCheckFret {lt : Lt} {fold port pt : Nat} {a : Armed} {c : TileCfg} {f : FoldCfg} {o : OutputCfg} {e : EdgeOut}
    {es : List EdgeOut} (hf : s.foldCfg lt fold = some (pt, a, c, f)) (ho : f.outputs[port]? = some o) (he : o.edges = e :: es) :
    exec (.creditCheckFret lt fold port) s =
      if s.creditCheckFret a o = s.now ∧ s.alive a.task = true ∧ (s.foldRt pt fold).credits.getD port 0 ≠ e.depth then
        .next (s.detect a.task .bound)
      else .next s := by
  change execCreditCheckFret lt fold port s = _
  unfold execCreditCheckFret
  rw [hf]
  dsimp only
  rw [ho]
  dsimp only
  rw [he]

/-! ### Samples -/

/-- One input's sample. -/
def sampleInput (k : Nat) (t : TileSt) (i : InputCfg × Nat) : TileSt :=
  match i.1.edge with
  | none => t
  | some _ =>
    let n : BitVec 13 := satOfNat 13 (((t.rt.getD k {}).queues.getD i.2 []).length)
    let old := Tab.get (0, 0) t.qs (k * 8 + i.2)
    { t with qs := Tab.put t.qs (k * 8 + i.2) (if old.1.toNat < n.toNat then n else old.1, n) }

theorem sampleTile_eq (t : TileSt) (b : BankSt) :
    sampleTile t b = (b.cfg.folds.zipIdx).foldl (fun t f => (f.1.inputs.zipIdx).foldl (sampleInput f.2) t) t := rfl

/-- Two states of a tile that differ in their queue samples alone. -/
def TileSt.SameButQs (t u : TileSt) : Prop := u = { t with qs := u.qs }

theorem TileSt.SameButQs.trans {t u v : TileSt} (h : t.SameButQs u) (k : u.SameButQs v) : t.SameButQs v := by
  unfold TileSt.SameButQs at *
  rw [k, h]

theorem sampleInput_same (k : Nat) (t : TileSt) (i : InputCfg × Nat) : t.SameButQs (sampleInput k t i) := by
  unfold sampleInput
  split
  · rfl
  · rfl

theorem foldl_same {α : Type} {g : TileSt → α → TileSt} (hg : ∀ (t : TileSt) x, t.SameButQs (g t x)) (xs : List α) (t : TileSt) :
    t.SameButQs (xs.foldl g t) := by
  induction xs generalizing t with
  | nil => rfl
  | cons x xs ih => exact (hg t x).trans (ih (g t x))

theorem sampleTile_same (t : TileSt) (b : BankSt) : t.SameButQs (sampleTile t b) := by
  rw [sampleTile_eq]
  exact foldl_same (fun t (f : FoldCfg × Nat) => foldl_same (sampleInput_same f.2) f.1.inputs.zipIdx t) _ t

/-- A tile's entry after a sampling fret. -/
def sampled (now : Nat) (e : Nat × TileSt) : Nat × TileSt :=
  match e.2.cur with
  | some b => if now % 2 ^ e.2.qexp = 0 then (e.1, sampleTile e.2 b) else e
  | none => e

theorem sampled_same (now : Nat) (e : Nat × TileSt) : (sampled now e).1 = e.1 ∧ e.2.SameButQs (sampled now e).2 := by
  unfold sampled
  split
  · split
    · exact ⟨rfl, sampleTile_same ..⟩
    · exact ⟨rfl, rfl⟩
  · exact ⟨rfl, rfl⟩

/-- The sample of a tile with one fold of one edge input. -/
theorem sampled_single {now : Nat} {e : Nat × TileSt} {b : BankSt} {f : FoldCfg} {x : InputCfg} {k : EdgeIn} (hb : e.2.cur = some b)
    (hf : b.cfg.folds = [f]) (hi : f.inputs = [x]) (hx : x.edge = some k) (hn : now % 2 ^ e.2.qexp = 0) :
    (Tab.get (0, 0) (sampled now e).2.qs 0).2 = satOfNat 13 (((e.2.rt.getD 0 {}).queues.getD 0 []).length) := by
  have htile : sampleTile e.2 b = sampleInput 0 e.2 (x, 0) := by
    rw [sampleTile_eq, hf]
    change (f.inputs.zipIdx).foldl (sampleInput 0) e.2 = _
    rw [hi]
    rfl
  unfold sampled
  rw [hb]
  dsimp only
  rw [if_pos hn, htile]
  unfold sampleInput
  rw [hx]
  exact congrArg Prod.snd (Tab.get_put_self ..)

theorem exec_queueSample : ∃ t, exec .queueSample s = .next t ∧ s.Only t [.tiles] ∧ t.tiles = s.tiles.map (sampled s.now) :=
  ⟨_, rfl, modTiles_only .., rfl⟩

theorem exec_queueSample_samples (s : State) : ∃ t, exec .queueSample s = .next t ∧ s.Only t [.tiles] ∧ t.tiles.map (·.1) = s.tiles.map (·.1) ∧
    (∀ e ∈ t.tiles, ∃ d ∈ s.tiles, d.1 = e.1 ∧ e.2 = { d.2 with qs := e.2.qs }) ∧
    ∀ e b f x k, s.tiles = [e] → e.2.cur = some b → b.cfg.folds = [f] → f.inputs = [x] → x.edge = some k →
      s.now % 2 ^ e.2.qexp = 0 →
      ∃ d, t.tiles = [d] ∧ (Tab.get (0, 0) d.2.qs 0).2 = satOfNat 13 (((e.2.rt.getD 0 {}).queues.getD 0 []).length) := by
  obtain ⟨t, ht, honly, htiles⟩ := exec_queueSample (s := s)
  refine ⟨t, ht, honly, ?_, fun e he => ?_, fun e b f x k hs hb hf hi hx hn => ⟨sampled s.now e, ?_, sampled_single hb hf hi hx hn⟩⟩
  · rw [htiles, List.map_map]
    exact List.map_congr_left fun e _ => (sampled_same s.now e).1
  · rw [htiles] at he
    obtain ⟨d, hd, rfl⟩ := List.mem_map.1 he
    exact ⟨d, hd, (sampled_same s.now d).1.symm, (sampled_same s.now d).2⟩
  · rw [htiles, hs]
    rfl

/-! ### The obligation -/

/-- Settles O9: folds, credits, firings, write-backs, checks and samples. -/
theorem tilesFireAndReturnCredits : Obligations.TilesFireAndReturnCredits := by
  unfold Obligations.TilesFireAndReturnCredits
  refine ⟨fun s lt pt a c i hr ha hi => exec_foldSwitch_starts hr ha hi, fun s lt pt a c hr h => exec_foldSwitch_idle hr h,
    fun s lt fold port n h => if_pos h,
    fun s lt fold port n pt a c f o e hs hf ho he hd hl => (exec_edgeCreditReturn hs hf ho he hl).trans (if_neg (Nat.not_lt.2 hd)),
    fun s lt fold port n pt a c f o e hs hf ho he hd hl => (exec_edgeCreditReturn hs hf ho he hl).trans (if_pos hd),
    fun s lt pt a c i o f obs ins u hr ha hf ho hi hm hl ht => ?_, fun s lt pt a c i o f obs ins u st hr ha hf ho hi hm hl ht => ?_,
    fun s lt pt a c i o f obs hr ha hf h => exec_firing_idle obs hr ha hf h, fun s lt h => exec_tile_idle h, fun s pt w h => if_pos h,
    fun s pt w h => if_neg fun k => Bool.noConfusion (h.symm.trans k), fun s pt h => if_pos h,
    fun s pt h => if_neg fun k => Bool.noConfusion (h.symm.trans k),
    fun s lt fold port pt a c f o e es hf ho he hn ha hd => (exec_creditCheckFret hf ho he).trans (if_pos ⟨hn, ha, hd⟩),
    fun s lt fold port pt a c f o e es hf ho he hd => (exec_creditCheckFret hf ho he).trans (if_neg fun k => k.2.2 hd),
    exec_queueSample_samples⟩
  · rw [exec_firing_due obs hr ha hf ho hi hm hl, ht]
    rfl
  · rw [exec_firing_due obs hr ha hf ho hi hm hl, ht]
    rfl

end Sys2Proof.Machine
end

section
/-!
PROOFS. Tiles are configured, armed and launched (03 R117, R164 to R171; 04 R183, R184, R203; 11 R559, R571): O8.
-/

set_option Elab.async false

namespace Sys2Proof.Machine

variable {s : State}

/-! ### Tasks that will not launch -/

/-- A task that does not launch in the first state does not in the second. -/
def State.MoreDead (s t : State) : Prop := ∀ m, (s.task m).dead = true → (t.task m).dead = true

theorem State.MoreDead.refl (s : State) : s.MoreDead s := fun _ h => h

theorem State.MoreDead.trans {t u : State} (h : s.MoreDead t) (k : t.MoreDead u) : s.MoreDead u := fun m d => k m (h m d)

theorem State.Only.moreDead {t : State} {cs : List Comp} (h : s.Only t cs) (hc : Comp.tasks ∉ cs := by decide) : s.MoreDead t :=
  fun m d => by rw [task_congr (h.1 .tasks hc)]; exact d

theorem updTask_moreDead (n : BitVec 32) {f : TaskRt → TaskRt} (hf : ∀ t, t.dead = true → (f t).dead = true) : s.MoreDead (s.updTask n f) := by
  intro m d
  rw [updTask_task]
  split
  · next h => exact hf _ (h ▸ d)
  · exact d

theorem when_moreDead {c : Bool} {f : State → State} (h : s.MoreDead (f s)) : s.MoreDead (s.when c f) := by
  cases c with
  | true => exact h
  | false => exact .refl s

theorem failArm_moreDead (n : BitVec 32) (st : Status) : s.MoreDead (s.failArm n st) := updTask_moreDead n fun _ _ => rfl

theorem detect_moreDead (n : BitVec 32) (st : Status) : s.MoreDead (s.detect n st) := by
  intro m d
  rw [detect_task]
  split
  · next h =>
    rw [← h.1, d]
    rfl
  · exact d

theorem armIdle_moreDead (key : Nat) (h : HeldArm) : s.MoreDead (s.armIdle key h) := by
  unfold State.armIdle
  extract_lets x first a b
  have ha : s.MoreDead a := by
    dsimp only [a]
    split
    · exact State.MoreDead.trans (updClus_only ..).moreDead (failArm_moreDead _ _)
    · refine State.each_keeps (P := fun u => s.MoreDead u) (fun u st hu => ?_) (h.uses.map (s.staticStatus h.task)) (.refl s)
      split
      · exact hu
      · exact hu.trans (failArm_moreDead _ _)
  have hb : a.MoreDead b := when_moreDead (updTask_moreDead h.task fun _ _ => rfl)
  exact ha.trans (hb.trans (updCtx_only ..).moreDead)

theorem armCtx_moreDead (key : Nat) (h : HeldArm) : s.MoreDead (s.armCtx key h) := by
  unfold State.armCtx
  split
  · exact armIdle_moreDead _ _
  · exact (updCtx_only ..).moreDead

/-! ### Contexts that no arm names -/

theorem armIdle_ctx_ne {key k : Nat} (hk : key ≠ k) (h : HeldArm) : (s.armIdle key h).ctx k = s.ctx k := by
  unfold State.armIdle
  extract_lets x first a b
  have ha : s.Only a [.cluss, .tasks] := by
    dsimp only [a]
    split
    · exact only_failArm ((updClus_only ..).in) (by decide)
    · exact State.each_keeps (P := fun u => s.Only u [.cluss, .tasks])
        (fun u st hu => only_ite hu (only_failArm hu (by decide))) (h.uses.map (s.staticStatus h.task)) (.refl s _)
  have hb : s.Only b [.cluss, .tasks] := only_when ha (only_updTask ha (by decide))
  rw [updCtx_ctx, if_neg hk.symm, ctx_congr hb.ctxs]

theorem armCtx_ctx_ne {key k : Nat} (hk : key ≠ k) (h : HeldArm) : (s.armCtx key h).ctx k = s.ctx k := by
  unfold State.armCtx
  split
  · exact armIdle_ctx_ne hk h
  · rw [updCtx_ctx, if_neg hk.symm]

/-! ### Arming a tile -/

/-- A task whose allowance is too short will not launch. -/
def State.allowChecked (s : State) (task : BitVec 32) : State :=
  s.when (s.allowShort task) fun s => (s.fretFlag .allowShort).updTask task fun t => { t with armLate := true, dead := true }

/-- An arm message's stream contexts are armed. -/
def State.armCtxs (s : State) (lt : Nat) (m : ArmMsg) : State :=
  s.each m.streams fun u e => u.armCtx (64 * ltClus lt + e.1) ⟨m.task, m.launch, e.2⟩

/-- The task of an arm message is armed. -/
def State.taskArmed (s : State) (task : BitVec 32) : State :=
  s.updTask task fun t => { t with phase := if t.phase = .waiting then .armed else t.phase }

theorem taskArmed_only (s : State) (task : BitVec 32) : s.Only (s.taskArmed task) [.tasks] := updTask_only ..

theorem takes_unfenced {pt : Nat} (h : s.tileTakes pt = true) : (s.role pt).role ≠ .fenced := by
  unfold State.tileTakes at h
  simp only [Bool.and_eq_true, decide_eq_true_eq] at h
  exact h.1.1.1

theorem exec_configWrite {lt : Lt} (task : BitVec 32) (cfg : TileCfg) (ht : s.tileTakes (s.ptOf lt) = true) :
    exec (.configWrite lt task cfg) s = .next (s.updTile (s.ptOf lt) fun t =>
      { t with next := some ⟨task, cfg⟩, mode := if t.mode = .idle then .config else t.mode }) :=
  (if_neg (takes_unfenced ht)).trans (if_neg fun k => Bool.noConfusion (ht.symm.trans k))

theorem exec_arm_notTaken {lt : Lt} (m : ArmMsg) (hf : (s.role (s.ptOf lt)).role ≠ .fenced)
    (h : s.tileTakes (s.ptOf lt) = false ∨ (s.tile (s.ptOf lt)).capture.isSome = true) : exec (.arm lt m) s = .next s :=
  (if_neg hf).trans (if_pos h)

theorem exec_arm {lt : Lt} {m : ArmMsg} (ht : s.tileTakes (s.ptOf lt) = true) (hc : (s.tile (s.ptOf lt)).capture = none) :
    exec (.arm lt m) s = if m.launch ≤ s.now then .next (s.slip m.task 4 0)
      else .next ((((s.allowChecked m.task).armTile (s.ptOf lt) m).taskArmed m.task).armCtxs lt m) :=
  (if_neg (takes_unfenced ht)).trans (if_neg fun k => k.elim (fun k => Bool.noConfusion (ht.symm.trans k)) fun k => by rw [hc] at k; exact Bool.noConfusion k)

theorem armTile_good {pt : Nat} {m : ArmMsg} {b : BankSt} (hb : (if m.current then (s.tile pt).cur else (s.tile pt).next) = some b)
    (hk : armCheck b.cfg = none) : s.armTile pt m = s.updTile pt fun t =>
      { t with armed := some ⟨m.task, m.salt, m.launch, m.current⟩, armedOk := true, armCur := m.current } := by
  unfold State.armTile
  dsimp only
  rw [hb, Option.map_some, Option.getD_some, hk]

theorem armTile_bad {pt : Nat} {m : ArmMsg} {b : BankSt} {e : Nat} (hb : (if m.current then (s.tile pt).cur else (s.tile pt).next) = some b)
    (hk : armCheck b.cfg = some e) : s.armTile pt m = (s.updTile pt fun t =>
      { t with armed := some ⟨m.task, m.salt, m.launch, m.current⟩, armedOk := false, armCur := m.current, cfgErr := true
               errCheck := if t.cfgErr then t.errCheck else BitVec.ofNat 4 e }).failArm m.task .bound := by
  unfold State.armTile
  dsimp only
  rw [hb, Option.map_some, Option.getD_some, hk]

theorem allowChecked_only (s : State) (task : BitVec 32) : s.Only (s.allowChecked task) [.top, .fret, .chest, .tasks, .out] :=
  only_when (.refl _ _) (only_updTask ((fretFlag_only ..).in) (by decide))

theorem allowChecked_fine {task : BitVec 32} (h : s.allowShort task = false) : s.allowChecked task = s := by
  unfold State.allowChecked
  rw [h, State.when_false]

theorem allowChecked_short {task : BitVec 32} (h : s.allowShort task = true) :
    (s.allowChecked task).fret.allowShort = true ∧ ((s.allowChecked task).task task).dead = true := by
  unfold State.allowChecked
  rw [h, State.when_true]
  refine ⟨?_, ?_⟩
  · rw [(updTask_only ..).fret, fretFlag_fret]
    rfl
  · rw [updTask_task, if_pos rfl]

theorem armCtxs_only (s : State) (lt : Nat) (m : ArmMsg) : s.Only (s.armCtxs lt m) [.cluss, .ctxs, .tasks] :=
  only_each (.refl _ _) fun _ _ h => only_armCtx h (by decide)

theorem exec_arm_arms {lt : Lt} {m : ArmMsg} {b : BankSt} (ht : s.tileTakes (s.ptOf lt) = true) (hc : (s.tile (s.ptOf lt)).capture = none)
    (hn : s.now < m.launch) (ha : s.allowShort m.task = false) (hs : m.streams = [])
    (hb : (if m.current then (s.tile (s.ptOf lt)).cur else (s.tile (s.ptOf lt)).next) = some b) (hk : armCheck b.cfg = none) :
    ∃ t, exec (.arm lt m) s = .next t ∧ s.Only t [.tiles, .tasks] ∧
      t.tile (s.ptOf lt) = { s.tile (s.ptOf lt) with
        armed := some ⟨m.task, m.salt, m.launch, m.current⟩, armedOk := true, armCur := m.current } ∧
      (∀ pt, pt ≠ s.ptOf lt → t.tile pt = s.tile pt) ∧
      (t.task m.task).phase = (if (s.task m.task).phase = .waiting then .armed else (s.task m.task).phase) := by
  have hexec := (exec_arm ht hc).trans (if_neg (Nat.not_le.2 hn))
  rw [allowChecked_fine ha, armTile_good hb hk, show ∀ u : State, u.armCtxs lt m = u from fun u => by unfold State.armCtxs; rw [hs]; rfl] at hexec
  refine ⟨_, hexec, only_updTask ((updTile_only ..).in) (by decide), ?_, fun pt hpt => ?_, ?_⟩
  · rw [tile_congr (taskArmed_only ..).tiles, updTile_tile_self]
  · rw [tile_congr (taskArmed_only ..).tiles, updTile_tile, if_neg hpt]
  · unfold State.taskArmed
    rw [updTask_task, if_pos rfl, task_congr (updTile_only ..).tasks]

theorem exec_arm_contexts {lt : Lt} {m : ArmMsg} {b : BankSt} (ht : s.tileTakes (s.ptOf lt) = true)
    (hc : (s.tile (s.ptOf lt)).capture = none) (hn : s.now < m.launch)
    (hb : (if m.current then (s.tile (s.ptOf lt)).cur else (s.tile (s.ptOf lt)).next) = some b) (hk : armCheck b.cfg = none) :
    ∃ t, exec (.arm lt m) s = .next t ∧ s.Only t [.top, .fret, .chest, .tiles, .cluss, .ctxs, .tasks, .out] ∧
      t.tile (s.ptOf lt) = { s.tile (s.ptOf lt) with
        armed := some ⟨m.task, m.salt, m.launch, m.current⟩, armedOk := true, armCur := m.current } ∧
      (∀ key, (∀ e ∈ m.streams, 64 * ltClus lt + e.1 ≠ key) → t.ctx key = s.ctx key) ∧
      (s.allowShort m.task = true → t.fret.allowShort = true ∧ (t.task m.task).dead = true) := by
  have hallow := allowChecked_only s m.task
  have htile : (s.allowChecked m.task).tile (s.ptOf lt) = s.tile (s.ptOf lt) := tile_congr hallow.tiles _
  have hexec := (exec_arm (m := m) ht hc).trans (if_neg (Nat.not_le.2 hn))
  rw [armTile_good (by rw [htile]; exact hb) hk] at hexec
  have hset : (s.allowChecked m.task).Only (((s.allowChecked m.task).updTile (s.ptOf lt) fun t =>
      { t with armed := some ⟨m.task, m.salt, m.launch, m.current⟩, armedOk := true, armCur := m.current }).taskArmed m.task)
      [.tiles, .tasks] := only_updTask ((updTile_only ..).in) (by decide)
  have hdead : (s.allowChecked m.task).MoreDead (((s.allowChecked m.task).updTile (s.ptOf lt) fun t =>
      { t with armed := some ⟨m.task, m.salt, m.launch, m.current⟩, armedOk := true, armCur := m.current }).taskArmed m.task) :=
    State.MoreDead.trans (updTile_only ..).moreDead (updTask_moreDead m.task fun _ h => h)
  have hset' : (((s.allowChecked m.task).updTile (s.ptOf lt) fun t =>
      { t with armed := some ⟨m.task, m.salt, m.launch, m.current⟩, armedOk := true, armCur := m.current }).taskArmed m.task).tile (s.ptOf lt) =
      { s.tile (s.ptOf lt) with armed := some ⟨m.task, m.salt, m.launch, m.current⟩, armedOk := true, armCur := m.current } := by
    rw [tile_congr (taskArmed_only ..).tiles, updTile_tile_self, htile]
  generalize ((s.allowChecked m.task).updTile (s.ptOf lt) fun t =>
      { t with armed := some ⟨m.task, m.salt, m.launch, m.current⟩, armedOk := true, armCur := m.current }).taskArmed m.task = u at *
  have hctx := armCtxs_only u lt m
  refine ⟨_, hexec, (hallow.in.trans hset.in).trans hctx.in, by rw [tile_congr hctx.tiles, hset'], fun key hkey => ?_, fun hshort => ?_⟩
  · have hkeep : ∀ xs : List (Nat × List StreamUse), (∀ e ∈ xs, 64 * ltClus lt + e.1 ≠ key) → ∀ v : State,
        (v.each xs fun w e => w.armCtx (64 * ltClus lt + e.1) ⟨m.task, m.launch, e.2⟩).ctx key = v.ctx key := by
      intro xs
      induction xs with
      | nil => exact fun _ v => rfl
      | cons x xs ih =>
        intro hx v
        exact (ih (fun e he => hx e (List.mem_cons_of_mem _ he)) _).trans (armCtx_ctx_ne (hx x List.mem_cons_self) _)
    exact (hkeep m.streams hkey u).trans ((ctx_congr hset.ctxs key).trans (ctx_congr hallow.ctxs key))
  · obtain ⟨hflag, hd⟩ := allowChecked_short hshort
    refine ⟨by rw [hctx.fret, hset.fret]; exact hflag, ?_⟩
    exact State.each_keeps (P := fun v : State => (v.task m.task).dead = true) (fun v e hv => armCtx_moreDead _ _ m.task hv) _ (hdead m.task hd)

theorem exec_arm_fails {lt : Lt} {m : ArmMsg} {b : BankSt} {e : Nat} (ht : s.tileTakes (s.ptOf lt) = true)
    (hc : (s.tile (s.ptOf lt)).capture = none) (hn : s.now < m.launch) (ha : s.allowShort m.task = false) (hs : m.streams = [])
    (hb : (if m.current then (s.tile (s.ptOf lt)).cur else (s.tile (s.ptOf lt)).next) = some b) (hk : armCheck b.cfg = some e) :
    ∃ t, exec (.arm lt m) s = .next t ∧ s.Only t [.tiles, .tasks] ∧ (t.tile (s.ptOf lt)).armedOk = false ∧
      (t.tile (s.ptOf lt)).cfgErr = true ∧ (t.task m.task).dead = true ∧
      (t.task m.task).armFail = (s.task m.task).armFail ++ [.bound] ∧
      ((s.tile (s.ptOf lt)).cfgErr = false → (t.tile (s.ptOf lt)).errCheck = BitVec.ofNat 4 e) := by
  have hexec := (exec_arm ht hc).trans (if_neg (Nat.not_le.2 hn))
  rw [allowChecked_fine ha, armTile_bad hb hk, show ∀ u : State, u.armCtxs lt m = u from fun u => by unfold State.armCtxs; rw [hs]; rfl] at hexec
  have htile : ∀ u : State, ((u.failArm m.task .bound).taskArmed m.task).tile (s.ptOf lt) = u.tile (s.ptOf lt) := fun u => by
    rw [tile_congr (taskArmed_only ..).tiles, tile_congr (failArm_only ..).tiles]
  have htask : ∀ u : State, u.tasks = s.tasks → ((u.failArm m.task .bound).taskArmed m.task).task m.task =
      { s.task m.task with
        armFail := (s.task m.task).armFail ++ [.bound], dead := true
        phase := if (s.task m.task).phase = .waiting then .armed else (s.task m.task).phase } := fun u hu => by
    unfold State.taskArmed State.failArm
    rw [updTask_task, if_pos rfl, updTask_task, if_pos rfl, task_congr hu]
  refine ⟨_, hexec, only_updTask (only_failArm ((updTile_only ..).in) (by decide)) (by decide), ?_, ?_, ?_, ?_, fun he => ?_⟩
  · rw [htile, updTile_tile_self]
  · rw [htile, updTile_tile_self]
  · rw [htask _ (updTile_only ..).tasks]
  · rw [htask _ (updTile_only ..).tasks]
  · rw [htile, updTile_tile_self]
    exact if_neg (by rw [he]; exact Bool.false_ne_true)

/-! ### The deadline of arming -/

theorem exec_armDeadline {task : BitVec 32} {e : Nat × TileCfg} (hp : (s.task task).phase = .waiting ∨ (s.task task).phase = .armed)
    (hn : s.now + 16 = (s.task task).launch) (he : e ∈ s.effTiles task) (ha : (s.tile (s.ptOf e.1)).armed = none) :
    exec (.armDeadline task) s = .next (s.updTask task fun t => { t with armLate := true, dead := true }) := by
  refine if_pos ⟨hp, hn, Bool.or_eq_true_iff.2 (.inr ?_)⟩
  rw [Bool.not_eq_true', List.all_eq_false]
  exact ⟨e, he, by dsimp only; rw [ha]; exact Bool.false_ne_true⟩

/-! ### Launches -/

/-- A task's tiles launch. -/
def State.launchTiles (s : State) (k : Nat) (es : List (Nat × TileCfg)) : State :=
  s.each es fun u e => u.updTile (u.ptOf e.1) (launchTile k)

theorem launchTiles_only (s : State) (k : Nat) (es : List (Nat × TileCfg)) : s.Only (s.launchTiles k es) [.tiles] :=
  only_each (.refl _ _) fun _ _ h => only_updTile h (by decide)

theorem launchTiles_other {k : Nat} {es : List (Nat × TileCfg)} {pt : Nat} (h : ∀ e ∈ es, s.ptOf e.1 ≠ pt) :
    (s.launchTiles k es).tile pt = s.tile pt := by
  unfold State.launchTiles
  induction es generalizing s with
  | nil => rfl
  | cons e es ih =>
    refine (ih fun d hd => ?_).trans ((updTile_tile ..).trans (if_neg (h e List.mem_cons_self).symm))
    rw [ptOf_congr (updTile_only ..).cluss]
    exact h d (List.mem_cons_of_mem _ hd)

/-- The task comes to its launch fret. -/
theorem launchDue {task : BitVec 32} (hp : (s.task task).phase = .waiting ∨ (s.task task).phase = .armed) (hn : (s.task task).launch = s.now) :
    (!(decide ((s.task task).phase = .waiting) || decide ((s.task task).phase = .armed)) || decide ((s.task task).launch ≠ s.now)) = false := by
  rw [decide_eq_false (not_not_intro hn), Bool.or_false]
  rcases hp with hp | hp
  · rw [decide_eq_true hp]
    rfl
  · rw [decide_eq_true hp, Bool.or_true]
    rfl

theorem exec_taskLaunch {task : BitVec 32} (hp : (s.task task).phase = .waiting ∨ (s.task task).phase = .armed)
    (hn : (s.task task).launch = s.now) (hu : s.unfit task = none) :
    exec (.taskLaunch task) s =
      if s.launchSlips task = true ∨ s.launchCauses task ≠ [] ∨ (s.task task).dead = true then
        .next ((((s.updTask task fun t => { t with dead := true }).disarm task).when (s.launchSlips task) (·.slip task 4 0)).each
          (s.launchCauses task) fun s st => s.detect task st)
      else .next ((((s.launchTiles (((s.imageOf task).map (·.k)).getD 6) (s.effTiles task)).when (decide (0 < (s.task task).attempt)) fun s =>
        s.modRel fun r => { r with retries := satAdd r.retries 1 })).updTask task fun t => { t with phase := .running }) := by
  refine (if_neg (by rw [launchDue hp hn]; exact Bool.false_ne_true)).trans ?_
  dsimp only
  rw [hu] <;> rfl

theorem exec_taskLaunch_runs {task : BitVec 32} (hp : (s.task task).phase = .waiting ∨ (s.task task).phase = .armed)
    (hn : (s.task task).launch = s.now) (hs : s.launchSlips task = false) (hc : s.launchCauses task = []) (hu : s.unfit task = none)
    (hd : (s.task task).dead = false) :
    ∃ t, exec (.taskLaunch task) s = .next t ∧ s.Only t [.tiles, .tasks, .rel] ∧ (t.task task).phase = .running ∧
      (∀ n, n ≠ task → t.task n = s.task n) ∧
      (∀ pt, (∀ e ∈ s.effTiles task, s.ptOf e.1 ≠ pt) → t.tile pt = s.tile pt) ∧
      (∀ e, s.effTiles task = [e] →
        t.tile (s.ptOf e.1) = launchTile (((s.imageOf task).map (·.k)).getD 6) (s.tile (s.ptOf e.1))) ∧
      t.rel = (if (s.task task).attempt = 0 then s.rel else { s.rel with retries := satAdd s.rel.retries 1 }) := by
  have hexec := (exec_taskLaunch hp hn hu).trans (if_neg fun k => k.elim (fun k => Bool.noConfusion (hs.symm.trans k)) fun k => k.elim (· hc) fun k =>
    Bool.noConfusion (hd.symm.trans k))
  have htiles := launchTiles_only s (((s.imageOf task).map (·.k)).getD 6) (s.effTiles task)
  have hcount : ∀ u : State, u.Only (u.when (decide (0 < (s.task task).attempt)) fun s =>
      s.modRel fun r => { r with retries := satAdd r.retries 1 }) [.rel] := fun u => only_when (.refl _ _) (modRel_only ..)
  refine ⟨_, hexec, only_updTask (htiles.in.trans (hcount _).in) (by decide), ?_, fun n hne => ?_, fun pt hpt => ?_, fun e he => ?_, ?_⟩
  · rw [updTask_task, if_pos rfl]
  · rw [updTask_task, if_neg hne, task_congr (hcount _).tasks, task_congr htiles.tasks]
  · rw [tile_congr (updTask_only ..).tiles, tile_congr (hcount _).tiles, launchTiles_other hpt]
  · rw [tile_congr (updTask_only ..).tiles, tile_congr (hcount _).tiles, he]
    exact (updTile_tile ..).trans (if_pos rfl)
  · rw [(updTask_only ..).rel]
    by_cases h0 : (s.task task).attempt = 0
    · rw [if_pos h0, h0]
      exact htiles.rel
    · rw [if_neg h0, decide_eq_true (Nat.pos_of_ne_zero h0), State.when_true]
      exact congrArg (fun r : RelSt => { r with retries := satAdd r.retries 1 }) htiles.rel

/-- A task that does not launch is marked so, and its tiles are disarmed. -/
theorem unlaunched_task (task m : BitVec 32) : ((s.updTask task fun t => { t with dead := true }).disarm task).task m =
    if m = task then { s.task task with dead := true } else s.task m := by
  rw [task_congr (disarm_only ..).tasks, updTask_task]

theorem find_updTask {task : BitVec 32} (h : Tab.find s.tasks task.toNat = some (s.task task)) (f : TaskRt → TaskRt) :
    (Tab.find (s.updTask task f).tasks task.toNat).isSome = true := by
  show (Tab.find (Tab.put s.tasks task.toNat _) task.toNat).isSome = true
  rw [Tab.find_put, if_pos rfl]
  rfl

/-- A cause of a task that is known and waits or is armed aborts it. -/
theorem unlaunched_detect {task : BitVec 32} (hf : Tab.find s.tasks task.toNat = some (s.task task))
    (hp : (s.task task).phase = .waiting ∨ (s.task task).phase = .armed) (st : Status) {u : State}
    (hu : u.tasks = ((s.updTask task fun t => { t with dead := true }).disarm task).tasks) :
    ((u.detect task st).task task).phase = (s.task task).phase ∧ ((u.detect task st).task task).dead = true ∧
      ((u.detect task st).task task).abort.isSome = true := by
  have htask : u.task task = { s.task task with dead := true } := by rw [task_congr hu, unlaunched_task, if_pos rfl]
  have hfind : (Tab.find u.tasks task.toNat).isSome = true := by
    rw [hu, (disarm_only ..).tasks]
    exact find_updTask hf _
  have hphase : (u.task task).phase = .waiting ∨ (u.task task).phase = .armed := by rw [htask]; exact hp
  have hc : (u.task task).phase ≠ .committed := fun k => hphase.elim (fun h => TaskPhase.noConfusion (h.symm.trans k)) fun h =>
    TaskPhase.noConfusion (h.symm.trans k)
  have hs : (u.task task).phase ≠ .stopped := fun k => hphase.elim (fun h => TaskPhase.noConfusion (h.symm.trans k)) fun h =>
    TaskPhase.noConfusion (h.symm.trans k)
  refine ⟨?_, ?_, ?_⟩
  · rw [detect_phase, htask]
  · exact detect_moreDead task st task (by rw [htask])
  · rw [detect_task, if_pos ⟨rfl, hfind, hc, hs⟩, abort_concat (u.task task) _ _ rfl]
    rfl

theorem exec_taskLaunch_slips {task : BitVec 32} (hf : Tab.find s.tasks task.toNat = some (s.task task))
    (hp : (s.task task).phase = .waiting ∨ (s.task task).phase = .armed) (hn : (s.task task).launch = s.now) (hu : s.unfit task = none)
    (hm : s.fret.state ≠ .member) (hh : s.fret.state ≠ .holdover) :
    ∃ t, exec (.taskLaunch task) s = .next t ∧ s.Only t [.fret, .tiles, .tasks, .chest] ∧
      (t.task task).phase = (s.task task).phase ∧
      (t.task task).dead = true ∧ (t.task task).abort.isSome = true ∧ t.fret.slipKind = 4 := by
  have hslips : s.launchSlips task = true := by
    unfold State.launchSlips
    dsimp only
    rw [decide_eq_false hm, decide_eq_false hh]
    simp only [Bool.or_self, Bool.not_false, Bool.or_true, Bool.true_or]
  have hexec := (exec_taskLaunch hp hn hu).trans (if_pos (.inl hslips))
  rw [hslips, State.when_true] at hexec
  have hdis : s.Only ((s.updTask task fun t => { t with dead := true }).disarm task) [.tiles, .tasks] := only_disarm ((updTask_only ..).in) (by decide)
  obtain ⟨hphase, hdead, habort⟩ := unlaunched_detect hf hp .slip
    (u := ((s.updTask task fun t => { t with dead := true }).disarm task).slipAt 4 0) (slipAt_only ..).tasks
  have hmore : ∀ u : State, u.MoreAborts (u.each (s.launchCauses task) fun s st => s.detect task st) := fun u =>
    .each (.refl u) _ fun v x => detect_moreAborts v ..
  refine ⟨_, hexec, only_each (only_slip hdis.in (by decide)) fun _ _ h => only_detect h (by decide), ((hmore _).phase task).trans hphase, ?_,
    (hmore _).abort task habort, ?_⟩
  · exact State.each_keeps (P := fun v : State => (v.task task).dead = true) (fun v st hv => detect_moreDead task st task hv) _ hdead
  · rw [(only_each (.refl _ _) fun _ _ h => only_detect h (by decide) : State.Only _ (State.each _ _ _) [.chest, .tasks]).fret, slip_fret]
    rfl

theorem exec_taskLaunch_unfit {task : BitVec 32} {x : Nat} (hf : Tab.find s.tasks task.toNat = some (s.task task))
    (hp : (s.task task).phase = .waiting ∨ (s.task task).phase = .armed) (hn : (s.task task).launch = s.now) (hu : s.unfit task = some x) :
    ∃ t, exec (.taskLaunch task) s = .next t ∧ s.Only t [.top, .tiles, .tasks, .chest, .out] ∧
      (t.task task).dead = true ∧ (t.task task).abort.isSome = true ∧ bit t.top.cause.a 2 = true := by
  have hexec : exec (.taskLaunch task) s = .next (((((s.variantRecord (ltClus x) (s.task task).sched).attn .variant).updTask task
      fun t => { t with dead := true }).disarm task).detect task .variant) := by
    refine (if_neg (by rw [launchDue hp hn]; exact Bool.false_ne_true)).trans ?_
    dsimp only
    rw [hu]
  have hpre : s.Only ((s.variantRecord (ltClus x) (s.task task).sched).attn .variant) [.top, .chest, .out] :=
    only_attn ((variantRecord_only ..).in) (by decide)
  have hcause := (attn_cause (s.variantRecord (ltClus x) (s.task task).sched) .variant).1
  generalize (s.variantRecord (ltClus x) (s.task task).sched).attn .variant = v at hexec hpre hcause
  have htask := task_congr hpre.tasks task
  obtain ⟨-, hdead, habort⟩ := unlaunched_detect (s := v) (task := task) (by rw [hpre.tasks, htask]; exact hf) (by rw [htask]; exact hp) .variant rfl
  refine ⟨_, hexec, only_detect (only_disarm (only_updTask hpre.in (by decide)) (by decide)) (by decide), hdead, habort, ?_⟩
  rw [(detect_only ..).top, (disarm_only ..).top, (updTask_only ..).top]
  exact hcause

theorem exec_taskLaunch_idle {task : BitVec 32} (h : (s.task task).launch ≠ s.now ∨
    ((s.task task).phase ≠ .waiting ∧ (s.task task).phase ≠ .armed)) : exec (.taskLaunch task) s = .next s := by
  refine if_pos ?_
  rcases h with h | ⟨hw, ha⟩
  · rw [decide_eq_true h, Bool.or_true]
  · rw [decide_eq_false hw, decide_eq_false ha]
    rfl

/-! ### The obligation -/

/-- Settles O8: configuration, arm, deadline and launch, each with what stops it. -/
theorem tilesArmAndLaunch : Obligations.TilesArmAndLaunch := by
  unfold Obligations.TilesArmAndLaunch
  refine ⟨fun s lt task cfg ht => exec_configWrite task cfg ht, fun s lt task cfg m hf => ⟨if_pos hf, if_pos hf⟩,
    fun s lt task cfg m hf ht => ⟨(if_neg hf).trans (if_pos ht), exec_arm_notTaken m hf (.inl ht)⟩,
    fun s lt m ht hc hn => (exec_arm ht hc).trans (if_pos hn),
    fun s lt m ht hc => exec_arm_notTaken m (takes_unfenced ht) (.inr (Option.isSome_iff_ne_none.2 hc)),
    fun s lt m b ht hc hn ha hs hb hk => exec_arm_arms ht hc hn ha hs hb hk,
    fun s lt m b ht hc hn hb hk => exec_arm_contexts ht hc hn hb hk,
    fun s lt m b e ht hc hn ha hs hb hk => exec_arm_fails ht hc hn ha hs hb hk,
    fun s task lt hp hn he ha => exec_armDeadline hp hn he ha, fun s task h => if_neg fun k => h k.2.1,
    fun s task hp hn hs hc hu hd => exec_taskLaunch_runs hp hn hs hc hu hd,
    fun s task hf hp hn hu hm hh => exec_taskLaunch_slips hf hp hn hu hm hh,
    fun s task x hf hp hn hu => exec_taskLaunch_unfit hf hp hn hu, fun s task h => exec_taskLaunch_idle h⟩

end Sys2Proof.Machine
end

section
/-!
PROOFS. Frets and release points (04 R178, R179, R193, R197 to R201, R212, R213; 08 R429, R443): O11.
-/

set_option Elab.async false

namespace Sys2Proof.Machine

variable {s : State}

/-! ### Frets -/

/-- The counters of a state and its alignment, as another has them. -/
structure FretSt.SameCount (r q : FretSt) : Prop where
  west : q.west = r.west
  east : q.east = r.east
  beacon : q.sinceBeacon = r.sinceBeacon
  state : q.state = r.state
  stretch : q.stretch = r.stretch

theorem FretSt.SameCount.refl (r : FretSt) : r.SameCount r := ⟨rfl, rfl, rfl, rfl, rfl⟩

theorem FretSt.SameCount.trans {r q p : FretSt} (h : r.SameCount q) (k : q.SameCount p) : r.SameCount p :=
  ⟨k.west.trans h.west, k.east.trans h.east, k.beacon.trans h.beacon, k.state.trans h.state, k.stretch.trans h.stretch⟩

theorem startMeasure_count (s : State) : s.fret.SameCount s.startMeasure.fret := by
  unfold State.startMeasure
  extract_lets ports u
  have hu : s.fret.SameCount u.fret := by
    dsimp only [u]
    cases ports.isEmpty with
    | true => exact ⟨rfl, rfl, rfl, rfl, rfl⟩
    | false => exact .refl _
  refine State.each_keeps (P := fun v : State => s.fret.SameCount v.fret) (fun v p hv => ?_) ports hu
  exact hv.trans ⟨rfl, rfl, rfl, rfl, rfl⟩

theorem measureFlights_count (s : State) : s.fret.SameCount s.measureFlights.fret := by
  unfold State.measureFlights
  cases s.measureDue && !s.anyTask with
  | true => exact startMeasure_count s
  | false => exact .refl _

/-- A new fret of the West half counts one fret without a beacon and one tick. -/
theorem newFret_counts (s : State) : { s.fret with sinceBeacon := s.fret.sinceBeacon + 1 }.SameCount s.newFret.fret ∧ s.newFret.ticks = s.ticks + 1 := by
  unfold State.newFret
  extract_lets r a b c d
  have ha : a.fret = s.fret ∧ a.ticks = s.ticks + 1 :=
    ⟨((modTicks_only ..).fret).trans (stallFret_only s).fret, congrArg (· + 1) (stallFret_only s).ticks⟩
  have hd : b.Only (d.each d.liveTiles (·.sendFlights ·)) [.tel, .tiles, .chest, .tasks, .out] :=
    only_each (only_modTiles ((modTel_only ..).in) (by decide)) fun _ _ h => only_sendFlights h (by decide)
  have hb : b.fret = { s.fret with sinceBeacon := s.fret.sinceBeacon + 1 } :=
    congrArg (fun r : FretSt => { r with sinceBeacon := r.sinceBeacon + 1 }) ha.1
  refine ⟨?_, ?_⟩
  · rw [← hb, ← hd.fret]
    exact measureFlights_count _
  · rw [(measureFlights_only ..).ticks, hd.ticks]
    exact ha.2

theorem exec_fretStart (w e : Bool) (hu : s.fret.state ≠ .unlocked) (hf : s.fret.frozen = false) :
    exec (.fretStart w e) s = .next (((s.when (w || !s.apart) fun s => s.sessFret.sendAborts).modFret fun r =>
      { r with
        west := if (w || !s.apart) = true then r.west + 1 else r.west
        east := if (e || !s.apart) = true then r.east + 1 else r.east }).when (w || !s.apart) (·.newFret)) :=
  if_neg fun k => k.elim hu fun k => Bool.noConfusion (hf.symm.trans k)

/-- A fret of the West half: the East half's counter steps with it or by its own clock. -/
theorem exec_fretStart_west {w e : Bool} (hu : s.fret.state ≠ .unlocked) (hf : s.fret.frozen = false) (hw : (w || !s.apart) = true) :
    ∃ t, exec (.fretStart w e) s = .next t ∧
      s.Only t [.top, .fret, .rel, .chest, .tel, .mch, .sess, .hbm, .parts, .tiles, .tasks, .out, .ticks, .free] ∧
      t.fret.west = s.fret.west + 1 ∧ t.fret.east = (if (e || !s.apart) = true then s.fret.east + 1 else s.fret.east) ∧
      t.fret.sinceBeacon = s.fret.sinceBeacon + 1 ∧ t.fret.state = s.fret.state ∧ t.fret.stretch = s.fret.stretch ∧ t.ticks = s.ticks + 1 := by
  have hexec := exec_fretStart w e hu hf
  rw [hw, State.when_true, State.when_true] at hexec
  have hpre : s.Only s.sessFret.sendAborts [.top, .rel, .chest, .mch, .sess, .hbm, .parts, .out, .free, .tasks] :=
    only_sendAborts ((sessFret_only s).in) (by decide)
  generalize s.sessFret.sendAborts = u at hexec hpre
  have hcount : u.Only (u.modFret fun r => { r with
      west := if true = true then r.west + 1 else r.west, east := if (e || !s.apart) = true then r.east + 1 else r.east }) [.fret] :=
    modFret_only ..
  have hfret : (u.modFret fun r => { r with
      west := if true = true then r.west + 1 else r.west, east := if (e || !s.apart) = true then r.east + 1 else r.east }).fret =
      { s.fret with west := s.fret.west + 1, east := if (e || !s.apart) = true then s.fret.east + 1 else s.fret.east } :=
    congrArg (fun r : FretSt => { r with west := r.west + 1, east := if (e || !s.apart) = true then r.east + 1 else r.east }) hpre.fret
  generalize (u.modFret fun r => { r with
      west := if true = true then r.west + 1 else r.west, east := if (e || !s.apart) = true then r.east + 1 else r.east }) = v at hexec hcount hfret
  obtain ⟨hsame, hticks⟩ := newFret_counts v
  rw [hfret] at hsame
  exact ⟨_, hexec, only_newFret (hpre.in.trans hcount.in) (by decide), hsame.west, hsame.east, hsame.beacon, hsame.state, hsame.stretch,
    by rw [hticks, hcount.ticks, hpre.ticks]⟩

theorem exec_fretStart_together (w e : Bool) (hu : s.fret.state ≠ .unlocked) (hf : s.fret.frozen = false) (ha : s.apart = false) :
    ∃ t, exec (.fretStart w e) s = .next t ∧
      s.Only t [.top, .fret, .rel, .chest, .tel, .mch, .sess, .hbm, .parts, .tiles, .tasks, .out, .ticks, .free] ∧
      t.fret.west = s.fret.west + 1 ∧ t.fret.east = s.fret.east + 1 ∧ t.fret.sinceBeacon = s.fret.sinceBeacon + 1 ∧
      t.fret.state = s.fret.state ∧ t.fret.stretch = s.fret.stretch ∧ t.ticks = s.ticks + 1 := by
  obtain ⟨t, ht, honly, hw, he, hrest⟩ := exec_fretStart_west (w := w) (e := e) hu hf (by rw [ha]; exact Bool.or_true w)
  rw [ha, Bool.not_false, if_pos (Bool.or_true e)] at he
  exact ⟨t, ht, honly, hw, he, hrest⟩

theorem exec_fretStart_apart (e : Bool) (hu : s.fret.state ≠ .unlocked) (hf : s.fret.frozen = false) (ha : s.apart = true) :
    ∃ t, exec (.fretStart true e) s = .next t ∧
      s.Only t [.top, .fret, .rel, .chest, .tel, .mch, .sess, .hbm, .parts, .tiles, .tasks, .out, .ticks, .free] ∧
      t.fret.west = s.fret.west + 1 ∧ t.fret.east = (if e then s.fret.east + 1 else s.fret.east) ∧
      t.fret.sinceBeacon = s.fret.sinceBeacon + 1 ∧ t.fret.state = s.fret.state ∧ t.ticks = s.ticks + 1 := by
  obtain ⟨t, ht, honly, hw, he, hb, hs, -, htick⟩ := exec_fretStart_west (w := true) (e := e) hu hf rfl
  rw [ha, Bool.not_true, Bool.or_false] at he
  exact ⟨t, ht, honly, hw, he, hb, hs, htick⟩

theorem exec_fretStart_east (e : Bool) (hu : s.fret.state ≠ .unlocked) (hf : s.fret.frozen = false) (ha : s.apart = true) :
    exec (.fretStart false e) s =
      .next { s with fret := { s.fret with east := if e then s.fret.east + 1 else s.fret.east } } := by
  rw [exec_fretStart false e hu hf, ha, Bool.not_true, Bool.or_false, Bool.or_false, State.when_false, State.when_false]
  rfl

theorem apart_split (h : s.fret.state = .split) : s.apart = true := by
  unfold State.apart
  rw [decide_eq_true h, Bool.true_or]

theorem apart_member (h : s.fret.state = .member ∨ s.fret.state = .holdover) : s.apart = false := by
  unfold State.apart
  rcases h with h | h <;> rw [h] <;> rfl

/-! ### A release point's queue -/

theorem updHeld_held (rp : ReleasePoint) (f : List Held → List Held) :
    Tab.get [] (s.updHeld rp f).held (rpKey rp) = f (Tab.get [] s.held (rpKey rp)) := (Tab.get_upd ..).trans (if_pos rfl)

theorem discardRest_held (rp : ReleasePoint) (w : Worm) (last : Bool) : Tab.get [] (s.discardRest rp w last).held (rpKey rp) =
    (Tab.get [] s.held (rpKey rp)).filter (fun h => !h.partOf w) ++ (if last then [] else [⟨w, 0, false, true, 0⟩]) := updHeld_held ..

/-- What is left of a worm whose rest is discarded is lost. -/
theorem discardRest_lost {rp : ReleasePoint} {w : Worm} {last : Bool} {h : Held} (hm : h ∈ Tab.get [] (s.discardRest rp w last).held (rpKey rp))
    (hp : h.partOf w = true) : h.lost = true ∧ h.flits = 0 ∧ last = false := by
  rw [discardRest_held] at hm
  rcases List.mem_append.1 hm with hm | hm
  · have := (List.mem_filter.1 hm).2
    rw [hp] at this
    exact Bool.noConfusion this
  · cases last with
    | true => exact nomatch hm
    | false =>
      obtain rfl := List.mem_singleton.1 hm
      exact ⟨rfl, rfl, rfl⟩

/-- A fabric port's queue counts what arrives; the state that the arrival is judged in. -/
def State.arriving (s : State) (rp : ReleasePoint) (w : Worm) (flits : Nat) : State :=
  match rp with
  | .fabric p => s.countRx p flits ((Tab.get [] s.held (rpKey (.fabric p))).find? (·.partOf w)).isNone
  | _ => s

theorem arriving_only (s : State) (rp : ReleasePoint) (w : Worm) (flits : Nat) : s.Only (s.arriving rp w flits) [.tel, .fabs] := by
  cases rp with
  | fabric p => exact countRx_only ..
  | tile lt => exact .refl _ _
  | bridge row e => exact .refl _ _

theorem exec_releaseQueueArrive (rp : ReleasePoint) (w : Worm) (left flits : Nat) (last : Bool) :
    exec (.releaseQueueArrive rp w ⟨left, flits, false⟩ last) s = .next ((s.arriving rp w flits).releaseArrive rp w left flits last) := by
  cases rp <;> rfl

/-- What an arrival reads is the same in the state that it is judged in. -/
structure State.SameQueues (s u : State) : Prop where
  held : u.held = s.held
  orphan : ∀ w, u.orphan w = s.orphan w
  stamp : ∀ w, u.toStamp w = s.toStamp w
  occ : ∀ k, u.occupancy k = s.occupancy k

theorem State.Only.sameQueues {u : State} {cs : List Comp} (h : s.Only u cs) (hh : Comp.held ∉ cs := by decide)
    (hf : Comp.fret ∉ cs := by decide) (ht : Comp.tasks ∉ cs := by decide) : s.SameQueues u := by
  have held := h.1 .held hh
  have fret := h.1 .fret hf
  have tasks := h.1 .tasks ht
  refine ⟨held, fun w => ?_, fun w => ?_, fun k => ?_⟩
  · unfold State.orphan State.task State.now
    rw [show u.fret = s.fret from fret, show u.tasks = s.tasks from tasks]
  · unfold State.toStamp State.rel24 State.now
    rw [show u.fret = s.fret from fret]
  · unfold State.occupancy
    rw [show u.held = s.held from held]

section Arrive

variable {rp : ReleasePoint} {w : Worm} {left flits : Nat} {last : Bool}

theorem releaseArrive_orphan (ht : w.head.wtype.toNat < 2) (hl : ((Tab.get [] s.held (rpKey rp)).find? (·.partOf w)).any (·.lost) = false)
    (ho : s.orphan w = true) : s.releaseArrive rp w left flits last = (s.discardRest rp w true).when last (·.countDrop rp) :=
  (if_neg (Nat.not_le.2 ht)).trans ((if_neg (by rw [hl]; exact Bool.false_ne_true)).trans (if_pos ho))

theorem releaseArrive_judged (ht : w.head.wtype.toNat < 2) (hl : ((Tab.get [] s.held (rpKey rp)).find? (·.partOf w)).any (·.lost) = false)
    (ho : s.orphan w = false) (hp : last = true → w.head.poison = false) :
    s.releaseArrive rp w left flits last =
      if (rpCap rp).any (fun cap => decide (cap < s.occupancy (rpKey rp) + flits)) = true then
        ((s.discardRest rp w last).countDrop rp).detect w.head.task .bound
      else if s.toStamp w ≤ 0 then (s.discardRest rp w last).slip w.head.task (rpSlip rp).1 (rpSlip rp).2
      else ((s.discardRest rp w true).updHeld rp fun q =>
        q ++ [⟨w, ((((Tab.get [] s.held (rpKey rp)).find? (·.partOf w)).map (·.flits)).getD 0) + flits, last, false, left⟩]).noteMax rp := by
  refine (if_neg (Nat.not_le.2 ht)).trans ((if_neg (by rw [hl]; exact Bool.false_ne_true)).trans
    ((if_neg (by rw [ho]; exact Bool.false_ne_true)).trans (if_neg fun k => ?_)))
  obtain ⟨h1, h2⟩ := Bool.and_eq_true_iff.1 k
  exact Bool.noConfusion ((hp h1).symm.trans h2)

theorem arrive_holds (ht : w.head.wtype.toNat < 2) (hl : ((Tab.get [] s.held (rpKey rp)).find? (·.partOf w)).any (·.lost) = false)
    (ho : s.orphan w = false) (hp : last = true → w.head.poison = false)
    (hc : (rpCap rp).any (fun cap => decide (cap < s.occupancy (rpKey rp) + flits)) = false) (hs : 0 < s.toStamp w) :
    ∃ t, exec (.releaseQueueArrive rp w ⟨left, flits, false⟩ last) s = .next t ∧ s.Only t [.held, .fabs, .tel] ∧
      (⟨w, ((((Tab.get [] s.held (rpKey rp)).find? (·.partOf w)).map (·.flits)).getD 0) + flits, last, false, left⟩ : Held)
        ∈ Tab.get [] t.held (rpKey rp) := by
  have harr := arriving_only s rp w flits
  have hq := harr.sameQueues
  have hgo := releaseArrive_judged (s := s.arriving rp w flits) (rp := rp) (left := left) (flits := flits) ht (by rw [hq.held]; exact hl)
    ((hq.orphan w).trans ho) hp
  rw [hq.occ, hq.stamp, hq.held, if_neg (by rw [hc]; exact Bool.false_ne_true), if_neg (Int.not_le.2 hs)] at hgo
  refine ⟨_, (exec_releaseQueueArrive rp w left flits last).trans (congrArg _ hgo),
    only_noteMax (harr.in.trans (only_updHeld ((discardRest_only ..).in) (by decide))) (by decide), ?_⟩
  rw [(noteMax_only ..).held, updHeld_held]
  exact List.mem_append_right _ List.mem_cons_self

theorem arrive_full {x : TaskRt} (ht : w.head.wtype.toNat < 2)
    (hl : ((Tab.get [] s.held (rpKey rp)).find? (·.partOf w)).any (·.lost) = false)
    (ho : s.orphan w = false) (hp : last = true → w.head.poison = false)
    (hc : (rpCap rp).any (fun cap => decide (cap < s.occupancy (rpKey rp) + flits)) = true)
    (hx : Tab.find s.tasks w.head.task.toNat = some x) (hxc : x.phase ≠ .committed) (hxs : x.phase ≠ .stopped) :
    ∃ t, exec (.releaseQueueArrive rp w ⟨left, flits, false⟩ last) s = .next t ∧
      s.Only t [.held, .fabs, .tel, .spn, .tasks, .chest] ∧ (t.task w.head.task).abort.isSome = true ∧
      (∀ p, rp = .fabric p → (t.fab p).cuts = satAdd (s.fab p).cuts 1) ∧
      ∀ h ∈ Tab.get [] t.held (rpKey rp), h.partOf w = true → h.lost = true ∧ h.flits = 0 := by
  have harr := arriving_only s rp w flits
  have hq := harr.sameQueues
  have hgo := releaseArrive_judged (s := s.arriving rp w flits) (rp := rp) (left := left) (flits := flits) ht (by rw [hq.held]; exact hl)
    ((hq.orphan w).trans ho) hp
  rw [hq.occ, if_pos hc] at hgo
  have hdrop : (s.arriving rp w flits).Only (((s.arriving rp w flits).discardRest rp w last).countDrop rp) [.held, .spn, .fabs] :=
    only_countDrop ((discardRest_only ..).in) (by decide)
  have htasks : (((s.arriving rp w flits).discardRest rp w last).countDrop rp).tasks = s.tasks := hdrop.tasks.trans harr.tasks
  refine ⟨_, (exec_releaseQueueArrive rp w left flits last).trans (congrArg _ hgo), only_detect (harr.in.trans hdrop.in) (by decide), ?_,
    fun p hrp => ?_, fun h hm hpart => ?_⟩
  · have htask : (((s.arriving rp w flits).discardRest rp w last).countDrop rp).task w.head.task = x := by
      rw [task_congr htasks]
      exact Tab.get_of_find _ hx
    rw [detect_task, if_pos ⟨rfl, by rw [htasks, hx]; rfl, by rw [htask]; exact hxc, by rw [htask]; exact hxs⟩, abort_concat _ _ _ rfl]
    rfl
  · subst hrp
    rw [fab_congr (detect_only ..).fabs]
    refine (congrArg FabSt.cuts (updFab_fab_self ..)).trans ?_
    dsimp only
    rw [fab_congr (discardRest_only ..).fabs]
    unfold State.arriving State.countRx
    dsimp only
    rw [fab_congr (updLink_only ..).fabs, updFab_fab_self]
  · rw [(detect_only ..).held, (countDrop_only ..).held] at hm
    obtain ⟨hlost, hflits, -⟩ := discardRest_lost hm hpart
    exact ⟨hlost, hflits⟩

theorem arrive_late (ht : w.head.wtype.toNat < 2) (hl : ((Tab.get [] s.held (rpKey rp)).find? (·.partOf w)).any (·.lost) = false)
    (ho : s.orphan w = false) (hp : last = true → w.head.poison = false)
    (hc : (rpCap rp).any (fun cap => decide (cap < s.occupancy (rpKey rp) + flits)) = false) (hs : s.toStamp w ≤ 0) :
    ∃ t, exec (.releaseQueueArrive rp w ⟨left, flits, false⟩ last) s = .next t ∧
      s.Only t [.fret, .held, .fabs, .tel, .tasks, .chest] ∧ t.fret.slipKind = BitVec.ofNat 4 (rpSlip rp).1 ∧
      t.fret.slipWhere = BitVec.ofNat 12 (rpSlip rp).2 := by
  have harr := arriving_only s rp w flits
  have hq := harr.sameQueues
  have hgo := releaseArrive_judged (s := s.arriving rp w flits) (rp := rp) (left := left) (flits := flits) ht (by rw [hq.held]; exact hl)
    ((hq.orphan w).trans ho) hp
  rw [hq.occ, hq.stamp, if_neg (by rw [hc]; exact Bool.false_ne_true), if_pos hs] at hgo
  refine ⟨_, (exec_releaseQueueArrive rp w left flits last).trans (congrArg _ hgo),
    only_slip (harr.in.trans (discardRest_only ..).in) (by decide), ?_, ?_⟩
  · rw [slip_fret]
  · rw [slip_fret]

theorem arrive_orphan (ht : w.head.wtype.toNat < 2) (hl : ((Tab.get [] s.held (rpKey rp)).find? (·.partOf w)).any (·.lost) = false)
    (ho : s.orphan w = true) :
    ∃ t, exec (.releaseQueueArrive rp w ⟨left, flits, false⟩ last) s = .next t ∧ s.Only t [.held, .fabs, .tel, .spn] ∧
      ∀ h ∈ Tab.get [] t.held (rpKey rp), h.partOf w = false := by
  have harr := arriving_only s rp w flits
  have hq := harr.sameQueues
  have hgo := releaseArrive_orphan (s := s.arriving rp w flits) (rp := rp) (left := left) (flits := flits) (last := last) ht
    (by rw [hq.held]; exact hl) ((hq.orphan w).trans ho)
  have hdrop : ∀ u : State, u.Only (u.when last (·.countDrop rp)) [.spn, .fabs] := fun u => only_when (.refl _ _) (countDrop_only ..)
  refine ⟨_, (exec_releaseQueueArrive rp w left flits last).trans (congrArg _ hgo),
    (harr.in.trans (discardRest_only ..).in).trans (hdrop _).in, fun h hm => ?_⟩
  rw [(hdrop _).held] at hm
  cases hpart : h.partOf w with
  | false => rfl
  | true => exact nomatch (discardRest_lost hm hpart).2.2

end Arrive

/-! ### Parity failures in transit -/

/-- A failure below the threshold is counted, and no more. -/
theorem countTransit_below {unit : Nat} (h : (Tab.get {} s.relx.transit unit).count + 1 < max 1 s.rel.parThresh.toNat) :
    s.Only (s.countTransit unit) [.rel, .relx] ∧
      (Tab.get {} (s.countTransit unit).relx.transit unit).count = (Tab.get {} s.relx.transit unit).count + 1 := by
  unfold State.countTransit
  extract_lets n a b
  have hb : s.Only b [.rel, .relx] := only_modRel ((modRelx_only ..).in) (by decide)
  have hno : decide (max 1 b.rel.parThresh.toNat ≤ n) = false := decide_eq_false (Nat.not_le.2 h)
  rw [hno, State.when_false]
  exact ⟨hb, congrArg TransitSt.count (Tab.get_put_self ..)⟩

theorem arrive_parity {p : FabPort} {w : Worm} {left flits : Nat} {last : Bool}
    (h : (Tab.get {} s.relx.transit (transitKey 4 p)).count + 1 < max 1 s.rel.parThresh.toNat) :
    ∃ t, exec (.releaseQueueArrive (.fabric p) w ⟨left, flits, true⟩ last) s = .next t ∧
      s.Only t [.fret, .held, .fabs, .tel, .spn, .rel, .relx, .tasks, .chest] ∧
      (Tab.get {} t.relx.transit (transitKey 4 p)).count = (Tab.get {} s.relx.transit (transitKey 4 p)).count + 1 := by
  have harr := arriving_only s (.fabric p) w flits
  obtain ⟨honly, hcount⟩ := countTransit_below (s := s.arriving (.fabric p) w flits) (unit := transitKey 4 p) (by rw [harr.relx, harr.rel]; exact h)
  rw [harr.relx] at hcount
  refine ⟨((s.arriving (.fabric p) w flits).countTransit (transitKey 4 p)).releaseArrive (.fabric p) w left flits last, rfl,
    only_releaseArrive (harr.in.trans honly.in) (by decide), ?_⟩
  rw [(releaseArrive_only ..).relx]
  exact hcount

/-! ### Late worms -/

theorem exec_wormLate {rp : ReleasePoint} {w : Worm} (ht : w.head.wtype.toNat < 2) (hs : s.toStamp w = 0) (ho : s.orphan w = false)
    (hq : ∀ h ∈ Tab.get [] s.held (rpKey rp), h.w = w → h.whole = false ∧ h.lost = false) :
    ∃ t, exec (.wormLate rp w) s = .next t ∧ s.Only t [.fret, .held, .tasks, .chest] ∧
      t.fret.slipKind = BitVec.ofNat 4 (rpSlip rp).1 ∧ t.fret.slipWhere = BitVec.ofNat 12 (rpSlip rp).2 ∧
      ∀ h ∈ Tab.get [] t.held (rpKey rp), h.partOf w = true → h.lost = true := by
  have hexec : exec (.wormLate rp w) s = .next ((s.discardRest rp w false).slip w.head.task (rpSlip rp).1 (rpSlip rp).2) := by
    refine if_neg ?_
    rintro (k | k | k | k)
    · exact Nat.not_le.2 ht k
    · exact k hs
    · obtain ⟨h, hm, hk⟩ := List.any_eq_true.1 k
      obtain ⟨hm, hw⟩ := List.mem_filter.1 hm
      obtain ⟨hwhole, hlost⟩ := hq h hm (of_decide_eq_true hw)
      rw [hwhole, hlost] at hk
      exact Bool.noConfusion hk
    · exact Bool.noConfusion (ho.symm.trans k)
  refine ⟨_, hexec, only_slip ((discardRest_only ..).in) (by decide), by rw [slip_fret], by rw [slip_fret], fun h hm hpart => ?_⟩
  rw [(slip_only ..).held] at hm
  exact (discardRest_lost hm hpart).1

theorem exec_wormLate_idle {rp : ReleasePoint} {w : Worm} {h : Held} (hm : h ∈ Tab.get [] s.held (rpKey rp)) (hw : h.w = w)
    (hh : h.whole = true ∨ h.lost = true) : exec (.wormLate rp w) s = .next s := by
  refine if_pos (.inr (.inr (.inl (List.any_eq_true.2 ⟨h, List.mem_filter.2 ⟨hm, decide_eq_true hw⟩, ?_⟩))))
  exact Bool.or_eq_true_iff.2 hh

/-! ### Releases -/

theorem exec_wormRelease {rp : ReleasePoint} {n : Nat} {h : Held} (hn : (Tab.get [] s.held (rpKey rp))[n]? = some h) :
    exec (.wormRelease rp n) s =
      if s.orphan h.w = true then .next ((s.updHeld rp fun q => q.eraseIdx n).countDrop rp)
      else if h.whole = false ∨ s.toStamp h.w ≠ 0 then .next s
      else match rp with
        | .tile lt => (s.updHeld rp fun q => q.eraseIdx n).tileRelease lt.val h.w
        | .bridge row e => .next ((s.updHeld rp fun q => q.eraseIdx n).headIn
            (.hub (Fin.ofNat 128 (if e then hubAt 8 row else hubAt 7 row))) (if e then 3 else 1) h.left (nextStamp h.w) (wormFlits h.w) true)
        | .fabric p => .next ((s.updHeld rp fun q => q.eraseIdx n).headIn (.ring (portRing p)) p 0 (nextStamp h.w) (wormFlits h.w) true) := by
  change execWormRelease rp n s = _
  unfold execWormRelease
  rw [hn]
  cases rp <;> rfl

section Release

variable {n : Nat} {h : Held}

/-- A whole worm of a task that runs leaves its release point at its stamp. -/
theorem release_goes (hw : h.whole = true) (hs : s.toStamp h.w = 0) : ¬(h.whole = false ∨ s.toStamp h.w ≠ 0) :=
  fun k => k.elim (fun k => Bool.noConfusion (hw.symm.trans k)) fun k => k hs

theorem exec_wormRelease_fabric {p : FabPort} (hn : (Tab.get [] s.held (rpKey (.fabric p)))[n]? = some h) (hw : h.whole = true)
    (hs : s.toStamp h.w = 0) (ho : s.orphan h.w = false) :
    exec (.wormRelease (.fabric p) n) s = .next ((s.updHeld (.fabric p) fun q => q.eraseIdx n).headIn (.ring (portRing p)) p 0
      (nextStamp h.w) (wormFlits h.w) true) :=
  (exec_wormRelease hn).trans ((if_neg (by rw [ho]; exact Bool.false_ne_true)).trans (if_neg (release_goes hw hs)))

theorem exec_wormRelease_bridge {row : Fin 8} {e : Bool} (hn : (Tab.get [] s.held (rpKey (.bridge row e)))[n]? = some h) (hw : h.whole = true)
    (hs : s.toStamp h.w = 0) (ho : s.orphan h.w = false) :
    exec (.wormRelease (.bridge row e) n) s = .next ((s.updHeld (.bridge row e) fun q => q.eraseIdx n).headIn
      (.hub (Fin.ofNat 128 (hubAt (if e then 8 else 7) row))) (if e then 3 else 1) h.left (nextStamp h.w) (wormFlits h.w) true) := by
  refine (exec_wormRelease hn).trans ((if_neg (by rw [ho]; exact Bool.false_ne_true)).trans ((if_neg (release_goes hw hs)).trans ?_))
  cases e <;> rfl

theorem exec_wormRelease_tile {lt : Lt} (hn : (Tab.get [] s.held (rpKey (.tile lt)))[n]? = some h) (hw : h.whole = true)
    (hs : s.toStamp h.w = 0) (ho : s.orphan h.w = false) :
    exec (.wormRelease (.tile lt) n) s = (s.updHeld (.tile lt) fun q => q.eraseIdx n).tileRelease lt.val h.w :=
  (exec_wormRelease hn).trans ((if_neg (by rw [ho]; exact Bool.false_ne_true)).trans (if_neg (release_goes hw hs)))

/-- A fold of a running tile: the tile that serves it runs the task. -/
theorem runs_of_foldCfg {lt fold pt : Nat} {a : Armed} {c : TileCfg} {f : FoldCfg} (hf : s.foldCfg lt fold = some (pt, a, c, f)) :
    (s.tile (s.ptOf lt)).running = some a := by
  unfold State.foldCfg at hf
  obtain ⟨r, hr, hm⟩ := Option.bind_eq_some_iff.1 hf
  obtain ⟨g, -, heq⟩ := Option.map_eq_some_iff.1 hm
  unfold State.runs at hr
  dsimp only at hr
  split at hr
  · next x b hx _ =>
    have hra : r.2.1 = x := congrArg (fun r => r.2.1) (Option.some.inj hr).symm
    have hga : r.2.1 = a := congrArg (fun r => r.2.1) heq
    rw [hx, ← hra, hga]
  · exact nomatch hr

theorem enterWords_plain {lt pt : Nat} {wh : WormHead} {a : Armed} {c : TileCfg} {f : FoldCfg} (words : List (List Byte))
    (hf : s.foldCfg lt wh.fold = some (pt, a, c, f)) (hs : f.steers = []) :
    s.enterWords lt wh words = s.updRt pt wh.fold fun r =>
      { r with queues := listUpd r.queues wh.port (· ++ words.map fun w => ⟨w, s.now, false⟩) } := by
  unfold State.enterWords
  rw [hf]
  dsimp only
  rw [hs]
  rfl

theorem tileRelease_mine {lt : Nat} {w : Worm} (hs : s.sinks (s.ptOf lt) = false)
    (hr : (s.tile (s.ptOf lt)).running.map (·.task) = some w.head.task) :
    s.tileRelease lt w = if w.head.wtype = 0 then .next (s.enterWords lt w.head (chunks 128 w.head.count w.payload))
      else execEdgeCreditReturn (Fin.ofNat 2048 lt) w.head.fold w.head.port w.head.count s := by
  obtain ⟨a, ha, hat⟩ := Option.map_eq_some_iff.1 hr
  unfold State.tileRelease
  dsimp only
  rw [hs, if_neg Bool.false_ne_true, ha, Option.map_some, Option.getD_some, decide_eq_true hat]
  exact if_neg Bool.noConfusion

/-- What a tile reads of a released worm is not the queue that it left. -/
theorem updHeld_reads (rp : ReleasePoint) (g : List Held → List Held) (lt : Nat) :
    (s.updHeld rp g).ptOf lt = s.ptOf lt ∧ (s.updHeld rp g).sinks (s.ptOf lt) = s.sinks (s.ptOf lt) ∧
      (s.updHeld rp g).tile (s.ptOf lt) = s.tile (s.ptOf lt) ∧ ∀ fold, (s.updHeld rp g).foldCfg lt fold = s.foldCfg lt fold :=
  ⟨rfl, rfl, rfl, fun _ => rfl⟩

theorem exec_wormRelease_words {lt : Lt} {pt : Nat} {a : Armed} {c : TileCfg} {f : FoldCfg}
    (hn : (Tab.get [] s.held (rpKey (.tile lt)))[n]? = some h) (hw : h.whole = true) (hs : s.toStamp h.w = 0) (ho : s.orphan h.w = false)
    (hk : s.sinks (s.ptOf lt) = false) (ht : h.w.head.wtype = 0) (hf : s.foldCfg lt h.w.head.fold = some (pt, a, c, f))
    (ha : a.task = h.w.head.task) (hst : f.steers = []) :
    exec (.wormRelease (.tile lt) n) s = .next ((s.updHeld (.tile lt) fun q => q.eraseIdx n).updRt pt h.w.head.fold fun r =>
      { r with
        queues := (listUpd r.queues h.w.head.port fun q =>
          q ++ (chunks 128 h.w.head.count h.w.payload).map fun w => ⟨w, s.now, false⟩) }) := by
  obtain ⟨hpt, hsink, htile, hfold⟩ := updHeld_reads (s := s) (.tile lt) (fun q => q.eraseIdx n) lt
  rw [exec_wormRelease_tile hn hw hs ho, tileRelease_mine (by rw [hpt, hsink]; exact hk)
    (by rw [hpt, htile, runs_of_foldCfg hf]; exact congrArg some ha), if_pos ht, enterWords_plain _ ((hfold _).trans hf) hst]
  rfl

theorem exec_wormRelease_credits {lt : Lt} (hn : (Tab.get [] s.held (rpKey (.tile lt)))[n]? = some h) (hw : h.whole = true)
    (hs : s.toStamp h.w = 0) (ho : s.orphan h.w = false) (hk : s.sinks (s.ptOf lt) = false) (ht : h.w.head.wtype ≠ 0)
    (hr : (s.tile (s.ptOf lt)).running.map (·.task) = some h.w.head.task) :
    exec (.wormRelease (.tile lt) n) s =
      exec (.edgeCreditReturn lt h.w.head.fold h.w.head.port h.w.head.count) (s.updHeld (.tile lt) fun q => q.eraseIdx n) := by
  obtain ⟨hpt, hsink, htile, -⟩ := updHeld_reads (s := s) (.tile lt) (fun q => q.eraseIdx n) lt
  rw [exec_wormRelease_tile hn hw hs ho, tileRelease_mine (by rw [hpt, hsink]; exact hk) (by rw [hpt, htile]; exact hr), if_neg ht,
    show Fin.ofNat 2048 lt.val = lt from Fin.ext (Nat.mod_eq_of_lt lt.isLt)]
  rfl

end Release

/-! ### The obligation -/

/-- Settles O11: the counters' steps, arrivals at a release point, late worms and releases. -/
theorem fretsAndReleasePoints : Obligations.FretsAndReleasePoints := by
  unfold Obligations.FretsAndReleasePoints
  exact ⟨fun s w e hu hf ha => exec_fretStart_together w e hu hf ha, fun s e hu hf ha => exec_fretStart_apart e hu hf ha,
    fun s e hu hf ha => exec_fretStart_east e hu hf ha, fun s h => apart_split h, fun s h => apart_member h, fun s w e h => if_pos h,
    fun s rp w left flits last ht hl ho hp hc hs => arrive_holds ht hl ho hp hc hs,
    fun s rp w left flits last x ht hl ho hp hc hx hxc hxs => arrive_full ht hl ho hp hc hx hxc hxs,
    fun s rp w left flits last ht hl ho hp hc hs => arrive_late ht hl ho hp hc hs,
    fun s rp w left flits last ht hl ho => arrive_orphan ht hl ho, fun s p w left flits last h => arrive_parity h,
    fun s rp w ht hs ho hq => exec_wormLate ht hs ho hq, fun s rp w h hm hw hh => exec_wormLate_idle hm hw hh,
    fun s p n h hn hw hs ho => exec_wormRelease_fabric hn hw hs ho, fun s row e n h hn hw hs ho => exec_wormRelease_bridge hn hw hs ho,
    fun s lt n h pt a c f hn hw hs ho hk ht hf ha hst => exec_wormRelease_words hn hw hs ho hk ht hf ha hst,
    fun s lt n h hn hw hs ho hk ht hr => exec_wormRelease_credits hn hw hs ho hk ht hr,
    fun s rp n h hn ho => (exec_wormRelease hn).trans (if_pos ho),
    fun s rp n h hn ho hh => (exec_wormRelease hn).trans ((if_neg (by rw [ho]; exact Bool.false_ne_true)).trans (if_pos hh))⟩

end Sys2Proof.Machine
end

section
/-!
PROOFS. The host's windows onto memory and onto the message channels (05 R242 to R246; 09 R480, R483 to R488): O6.
-/

set_option Elab.async false

namespace Sys2Proof.Machine

variable {s : State}

/-! ### Bytes of memory and their sectors -/

theorem hbmBytes_congr {s t : State} (h : ∀ j, t.hbmByte j = s.hbmByte j) (a n : Nat) : t.hbmBytes a n = s.hbmBytes a n := by
  unfold State.hbmBytes
  induction n generalizing a with
  | zero => rfl
  | succ n ih =>
    unfold Mem.read
    rw [ih]
    exact congrArg (· :: _) (h a)

theorem noteErrs_byte (errs : List (Nat × BitErr)) (j : Nat) : (s.noteErrs errs).hbmByte j = s.hbmByte j :=
  hbmByte_congr' rfl rfl j

/-- The sectors of a range are those that hold a byte of it. -/
theorem mem_sectorsOf {a n sec : Nat} : sec ∈ sectorsOf a n ↔ 0 < n ∧ sec * 32 < a + n ∧ a < sec * 32 + 32 := by
  unfold sectorsOf
  split
  · simp; omega
  · rw [List.mem_map]
    constructor
    · rintro ⟨i, hi, rfl⟩
      rw [List.mem_range] at hi
      omega
    · rintro ⟨-, h1, h2⟩
      exact ⟨sec - a / 32, List.mem_range.2 (by omega), by omega⟩

theorem sectorsOf_nodup (a n : Nat) : (sectorsOf a n).Nodup := by
  unfold sectorsOf
  split
  · exact List.nodup_nil
  · exact List.nodup_range.map fun x y h => Nat.add_left_cancel h

/-! ### A write by the host, sector by sector -/

/-- The part of a write that falls into one sector. -/
def sectorPart (a : Nat) (bs : List Byte) (sec : Nat) : List Byte :=
  (bs.drop (max a (sec * 32) - a)).take (min (a + bs.length) (sec * 32 + 32) - max a (sec * 32))

/-- One sector's part of a write by the host (05 R241, R244). -/
def State.writeSector (s : State) (a : Nat) (bs : List Byte) (wrong : List Nat) (sec : Nat) : State :=
  if min (a + bs.length) (sec * 32 + 32) - max a (sec * 32) = 32 then
    s.sectorStore (max a (sec * 32)) (sectorPart a bs sec) (wrong.contains sec)
  else s.hbmPartWrite (max a (sec * 32)) (sectorPart a bs sec) (wrong.contains sec)

theorem hbmWrite_fold (a : Nat) (bs : List Byte) (wrong : List Nat) :
    s.hbmWrite a bs wrong = (sectorsOf a bs.length).foldl (fun u sec => u.writeSector a bs wrong sec) s := rfl

theorem sectorPart_length {a : Nat} {bs : List Byte} {sec : Nat} (h : sec ∈ sectorsOf a bs.length) :
    (sectorPart a bs sec).length = min (a + bs.length) (sec * 32 + 32) - max a (sec * 32) := by
  obtain ⟨h0, h1, h2⟩ := mem_sectorsOf.1 h
  unfold sectorPart
  rw [List.length_take, List.length_drop]
  omega

theorem sectorPart_getD {a : Nat} {bs : List Byte} {sec j : Nat} (h1 : max a (sec * 32) ≤ j)
    (h2 : j < min (a + bs.length) (sec * 32 + 32)) :
    (sectorPart a bs sec).getD (j - max a (sec * 32)) 0 = bs.getD (j - a) 0 := by
  unfold sectorPart
  rw [List.getD_eq_getElem?_getD, List.getD_eq_getElem?_getD, List.getElem?_take_of_lt (by omega), List.getElem?_drop,
    show max a (sec * 32) - a + (j - max a (sec * 32)) = j - a by omega]

/-- A sector whose check is good, or has one bit in error, is not uncorrectable. -/
theorem checkSector_correctable {sec : Nat} (h2 : s.sectorErr sec ≠ some .twoBits) (hp : s.sectorErr sec ≠ some .poison) :
    (s.checkSector sec).1 = false := by
  unfold State.checkSector
  split
  next => rfl
  next => rfl
  next h => exact absurd h h2
  next h => exact absurd h hp

theorem checkSector_sectorErr (sec x : Nat) : (s.checkSector sec).2.sectorErr x = s.sectorErr x := by
  unfold State.sectorErr
  rw [checkSector_bad]

/-- What a write of part of a sector does where the sector is not uncorrectable: the sector is checked, then stored. -/
theorem hbmPartWrite_correctable {a : Nat} (bs : List Byte) (wrong : Bool) (h2 : s.sectorErr (a / 32) ≠ some .twoBits)
    (hp : s.sectorErr (a / 32) ≠ some .poison) :
    s.hbmPartWrite a bs wrong = (s.checkSector (a / 32)).2.sectorStore a bs wrong := by
  unfold State.hbmPartWrite
  dsimp only
  rw [checkSector_correctable h2 hp]
  rfl

theorem sectorStore_sectorErr_other (a : Nat) (bs : List Byte) (wrong : Bool) {x : Nat} (h : x ∉ sectorsOf a bs.length) :
    (s.sectorStore a bs wrong).sectorErr x = s.sectorErr x := by
  rw [← hbmStore_sectorErr_other (s := s) a bs (if wrong then [a / 32] else []) h]
  unfold State.sectorStore State.sectorErr
  generalize s.hbmStore a bs (if wrong then [a / 32] else []) = u
  have hrec := only_recordUe (s := u) (sec := a / 32) (cause := 2) (.refl _ _) (fun _ h => h)
  rw [(only_when (c := wrong) (f := (·.recordUe (a / 32) 2)) (.refl u _) hrec).hbm]

/-- A sector that is not uncorrectable takes its part of the write, after its check. -/
theorem writeSector_stores {a : Nat} {bs : List Byte} (wrong : List Nat) {sec : Nat} (hs : sec ∈ sectorsOf a bs.length)
    (h2 : s.sectorErr sec ≠ some .twoBits) (hp : s.sectorErr sec ≠ some .poison) :
    ∃ u : State, (∀ j, u.hbmByte j = s.hbmByte j) ∧ (∀ x, u.sectorErr x = s.sectorErr x) ∧
      s.writeSector a bs wrong sec = u.sectorStore (max a (sec * 32)) (sectorPart a bs sec) (wrong.contains sec) := by
  obtain ⟨-, hlo, hhi⟩ := mem_sectorsOf.1 hs
  have hsec : max a (sec * 32) / 32 = sec := by omega
  unfold State.writeSector
  split
  · exact ⟨s, fun _ => rfl, fun _ => rfl, rfl⟩
  · refine ⟨(s.checkSector sec).2, checkSector_byte s sec, checkSector_sectorErr sec, ?_⟩
    rw [hbmPartWrite_correctable _ _ (by rw [hsec]; exact h2) (by rw [hsec]; exact hp), hsec]

theorem writeSector_byte {a : Nat} {bs : List Byte} (wrong : List Nat) {sec : Nat} (hs : sec ∈ sectorsOf a bs.length)
    (h2 : s.sectorErr sec ≠ some .twoBits) (hp : s.sectorErr sec ≠ some .poison) (j : Nat) :
    (s.writeSector a bs wrong sec).hbmByte j =
      if (a ≤ j ∧ j < a + bs.length) ∧ j / 32 = sec then bs.getD (j - a) 0 else s.hbmByte j := by
  obtain ⟨u, hbyte, -, hu⟩ := writeSector_stores wrong hs h2 hp
  rw [hu, sectorStore_byte, sectorPart_length hs, hbyte]
  by_cases hj : (a ≤ j ∧ j < a + bs.length) ∧ j / 32 = sec
  · rw [if_pos hj, if_pos (by omega), sectorPart_getD (by omega) (by omega)]
  · rw [if_neg hj, if_neg (by omega)]

theorem writeSector_sectorErr_other {a : Nat} {bs : List Byte} (wrong : List Nat) {sec x : Nat}
    (hs : sec ∈ sectorsOf a bs.length) (h2 : s.sectorErr sec ≠ some .twoBits) (hp : s.sectorErr sec ≠ some .poison)
    (hx : x ≠ sec) : (s.writeSector a bs wrong sec).sectorErr x = s.sectorErr x := by
  obtain ⟨u, -, herr, hu⟩ := writeSector_stores wrong hs h2 hp
  rw [hu, sectorStore_sectorErr_other, herr]
  rw [mem_sectorsOf, sectorPart_length hs]
  omega

/-- With no sector uncorrectable, the sectors' writes store every byte of the write that lies in one of them. -/
theorem writeSectors_byte {a : Nat} {bs : List Byte} (wrong : List Nat) {j : Nat} (hj : a ≤ j ∧ j < a + bs.length) :
    ∀ (xs : List Nat) (s : State), xs.Nodup →
      (∀ sec ∈ xs, sec ∈ sectorsOf a bs.length ∧ s.sectorErr sec ≠ some .twoBits ∧ s.sectorErr sec ≠ some .poison) →
      (xs.foldl (fun u sec => u.writeSector a bs wrong sec) s).hbmByte j =
        if j / 32 ∈ xs then bs.getD (j - a) 0 else s.hbmByte j
  | [], _, _, _ => rfl
  | x :: xs, s, hnd, hgood => by
    obtain ⟨hmem, h2, hp⟩ := hgood x List.mem_cons_self
    obtain ⟨hx, hnd⟩ := List.nodup_cons.1 hnd
    have hrest : ∀ sec ∈ xs, sec ∈ sectorsOf a bs.length ∧ (s.writeSector a bs wrong x).sectorErr sec ≠ some .twoBits ∧
        (s.writeSector a bs wrong x).sectorErr sec ≠ some .poison := by
      intro sec hsec
      rw [writeSector_sectorErr_other wrong hmem h2 hp fun k => hx (k ▸ hsec)]
      exact hgood sec (List.mem_cons_of_mem _ hsec)
    rw [List.foldl_cons, writeSectors_byte wrong hj xs _ hnd hrest, writeSector_byte wrong hmem h2 hp]
    by_cases hin : j / 32 ∈ xs
    · rw [if_pos hin, if_pos (List.mem_cons_of_mem _ hin)]
    · rw [if_neg hin]
      by_cases he : j / 32 = x
      · rw [if_pos ⟨hj, he⟩, if_pos (he ▸ List.mem_cons_self)]
      · rw [if_neg fun k => he k.2, if_neg fun k => (List.mem_cons.1 k).elim he hin]

/-- A write to sectors of which none is uncorrectable stores every byte. -/
theorem hbmWrite_stores {a : Nat} {bs : List Byte} (wrong : List Nat)
    (h : ∀ sec ∈ sectorsOf a bs.length, s.sectorErr sec ≠ some .twoBits ∧ s.sectorErr sec ≠ some .poison)
    {i : Nat} {b : Byte} (hi : bs[i]? = some b) : (s.hbmWrite a bs wrong).hbmByte (a + i) = b := by
  obtain ⟨hlt, -⟩ := List.getElem?_eq_some_iff.1 hi
  rw [hbmWrite_fold, writeSectors_byte wrong ⟨Nat.le_add_right .., by omega⟩ _ _ (sectorsOf_nodup ..)
    fun sec hs => ⟨hs, h sec hs⟩, if_pos (mem_sectorsOf.2 (by omega)), Nat.add_sub_cancel_left, List.getD_eq_getElem?_getD, hi]
  rfl

/-! ### The BAR2 window -/

section Bar2

variable {p : HostPort} {off : Nat}

theorem exec_bar2Read_unreachable {len : Nat} {errs : List (Nat × BitErr)} (h : s.reach (s.bar2Addr p off) len ≠ .ok) :
    exec (.bar2Read p off ⟨len, errs⟩) s = .next (s.emit (.bar2 p (List.replicate len 0xFF))) := by
  change execBar2Read p off ⟨len, errs⟩ s = _
  unfold execBar2Read
  exact if_neg h

/-- The range's check, after the bits in error that the read finds in its sectors. -/
def State.readCheck (s : State) (a len : Nat) (errs : List (Nat × BitErr)) : List Nat × State :=
  (s.noteErrs (errs.filter fun e => (sectorsOf a len).contains e.1)).checkRange a len

theorem readCheck_only (a len : Nat) (errs : List (Nat × BitErr)) :
    s.Only (s.readCheck a len errs).2 [.top, .rel, .chest, .hbm, .parts, .out] :=
  only_checkRange (only_noteErrs (.refl s _) (by decide)) (by decide)

theorem readCheck_byte (a len : Nat) (errs : List (Nat × BitErr)) (j : Nat) :
    (s.readCheck a len errs).2.hbmByte j = s.hbmByte j := by
  unfold State.readCheck
  rw [checkRange_byte, noteErrs_byte]

theorem exec_bar2Read {len : Nat} {errs : List (Nat × BitErr)} (h : s.reach (s.bar2Addr p off) len = .ok) :
    exec (.bar2Read p off ⟨len, errs⟩) s =
      .next ((s.readCheck (s.bar2Addr p off) len errs).2.emit (.bar2 p
        (if (s.readCheck (s.bar2Addr p off) len errs).1 = [] then s.hbmBytes (s.bar2Addr p off) len
          else List.replicate len 0xFF))) := by
  rw [← hbmBytes_congr (readCheck_byte (s.bar2Addr p off) len errs)]
  change execBar2Read p off ⟨len, errs⟩ s = _
  unfold execBar2Read
  exact if_pos h

/-- What a read that can be reached answers and leaves unchanged. -/
theorem bar2Read_reached {len : Nat} {errs : List (Nat × BitErr)} (h : s.reach (s.bar2Addr p off) len = .ok)
    {bs : List Byte} (hbs : (if (s.readCheck (s.bar2Addr p off) len errs).1 = [] then s.hbmBytes (s.bar2Addr p off) len
      else List.replicate len 0xFF) = bs) :
    ∃ t, exec (.bar2Read p off ⟨len, errs⟩) s = .next t ∧ s.Only t [.top, .rel, .chest, .hbm, .parts, .out] ∧
      t.out.head? = some (.bar2 p bs) ∧ ∀ a, t.hbmByte a = s.hbmByte a := by
  subst hbs
  refine ⟨_, exec_bar2Read h, ?_, rfl, fun a => ?_⟩
  · exact only_emit (readCheck_only ..) (by decide)
  · exact (hbmByte_congr rfl a).trans (readCheck_byte ..)

theorem exec_bar2Write_unreachable {data : List Byte} {wrong : List Nat} {errs : List (Nat × BitErr)}
    (h : s.reach (s.bar2Addr p off) data.length ≠ .ok) : exec (.bar2Write p off ⟨data, wrong, errs⟩) s = .next s := by
  change execBar2Write p off ⟨data, wrong, errs⟩ s = _
  unfold execBar2Write
  exact if_neg h

theorem exec_bar2Write {data : List Byte} {wrong : List Nat} {errs : List (Nat × BitErr)}
    (h : s.reach (s.bar2Addr p off) data.length = .ok) :
    exec (.bar2Write p off ⟨data, wrong, errs⟩) s = .next ((s.noteErrs (errs.filter fun e =>
      (sectorsOf (s.bar2Addr p off) data.length).contains e.1)).hbmWrite (s.bar2Addr p off) data wrong) := by
  change execBar2Write p off ⟨data, wrong, errs⟩ s = _
  unfold execBar2Write
  exact if_pos h

end Bar2

/-! ### What a port holds of submissions -/

@[simp] theorem updPcie_pcieOf_self (s : State) (p : HostPort) (f : PcieSt → PcieSt) : (s.updPcie p f).pcieOf p = f (s.pcieOf p) := by
  cases p <;> rfl

@[simp] theorem updPcie_pcieOf_other (s : State) (p : HostPort) (f : PcieSt → PcieSt) :
    (s.updPcie p f).pcieOf p.other = s.pcieOf p.other := by
  cases p <;> rfl

/-- The assembly slots, the writes that wait for one and the count of refusals are as they were. -/
def PcieSt.SameSubmissions (r q : PcieSt) : Prop := q.slots = r.slots ∧ q.stalled = r.stalled ∧ q.subRefused = r.subRefused

theorem pcieOf_of_pcie {s t : State} (h : t.pcie = s.pcie) (p : HostPort) : t.pcieOf p = s.pcieOf p := congrArg (·.get p) h

/-- A notice leaves them. -/
theorem noticeTo_submissions (p : HostPort) (type : Nat) (st : Status) (d n x : Nat) :
    (s.pcieOf p).SameSubmissions ((s.noticeTo p type st d n x).pcieOf p) := by
  unfold State.noticeTo
  extract_lets q bs u wrap v
  split
  · exact ⟨rfl, rfl, rfl⟩
  split
  · rw [pcieOf_of_pcie (attnOn_only ..).pcie, updPcie_pcieOf_self]
    exact ⟨rfl, rfl, rfl⟩
  · have hmsix : v.Only (v.when (!q.vec512) fun s => s.emit (.msix p 512)) [.out] :=
      only_when (.refl _ _) (only_emit (.refl _ _) (by decide))
    rw [pcieOf_of_pcie hmsix.pcie, updPcie_pcieOf_self]
    exact ⟨rfl, rfl, rfl⟩

/-- What a refused submission changes in its connection and its port. -/
structure State.RefusedAt (s : State) (p : HostPort) (n : Nat) (st : Status) (detail : BitVec 4) (t : State) : Prop where
  slots : (t.pcieOf p).slots = (s.pcieOf p).slots
  stalled : (t.pcieOf p).stalled = (s.pcieOf p).stalled
  subRefused : (t.pcieOf p).subRefused = satAdd (s.pcieOf p).subRefused 1
  refused : (t.conn n).refused = satAdd (s.conn n).refused 1
  lastStatus : (t.conn n).lastStatus = BitVec.ofNat 8 st.code
  detail_eq : (t.conn n).detail = detail

theorem refuseSubmission_refused (p : HostPort) (n : Nat) (st : Status) (detail : BitVec 4) :
    s.RefusedAt p n st detail (s.refuseSubmission p n st detail) := by
  have hconn : (s.refuseSubmission p n st detail).conn n = { s.conn n with
      refused := satAdd (s.conn n).refused 1, lastStatus := BitVec.ofNat 8 st.code, detail := detail } := by
    unfold State.refuseSubmission
    extract_lets u
    rw [conn_congr (noticeTo_only ..).mch]
    exact updConn_conn_self ..
  have hport := noticeTo_submissions (s := (s.refuse n st detail).updPcie p fun r => { r with subRefused := satAdd r.subRefused 1 })
    p 3 st detail.toNat n (((s.refuse n st detail).updPcie p fun r =>
      { r with subRefused := satAdd r.subRefused 1 }).conn n).seq.toNat
  rw [updPcie_pcieOf_self] at hport
  obtain ⟨hslots, hstalled, hsub⟩ := hport
  refine ⟨hslots, hstalled, hsub, ?_, ?_, ?_⟩ <;> rw [hconn]

/-! ### Writes to a message's window -/

section Bar4

variable {p : HostPort} {off n rel : Nat} {data : List Byte}

/-- The assembly that a write to connection `n`'s window leaves. -/
def State.assembly (s : State) (p : HostPort) (n rel : Nat) (data : List Byte) : Assembly :=
  Assembly.puts (((s.pcieOf p).slots.find? fun a => decide (a.conn = n)).getD ⟨n, [], s.now, 0x1004⟩) rel data

/-- The slots of the port's other messages, with `xs` after them. -/
def State.setSlot (s : State) (p : HostPort) (n : Nat) (xs : List Assembly) : State :=
  s.updPcie p fun r => { r with slots := ((s.pcieOf p).slots.filter fun a => decide (a.conn ≠ n)) ++ xs }

theorem setSlot_only (p : HostPort) (n : Nat) (xs : List Assembly) : s.Only (s.setSlot p n xs) [.pcie] := updPcie_only ..

theorem setSlot_pcieOf (p : HostPort) (n : Nat) (xs : List Assembly) : (s.setSlot p n xs).pcieOf p =
    { s.pcieOf p with slots := ((s.pcieOf p).slots.filter fun a => decide (a.conn ≠ n)) ++ xs } := updPcie_pcieOf_self ..

/-- What a write to a window comes to, by the state of its message. -/
def State.assembledAs (s : State) (p : HostPort) (n : Nat) (a : Assembly) : AsmEnd → State
  | .waits => s.setSlot p n [a]
  | .broken => (s.setSlot p n []).refuseSubmission p n .nakFull 9
  | .complete body => (s.setSlot p n []).submit p n body

theorem assemble_nil : s.assemble p n rel [] = s := by
  unfold State.assemble
  rw [List.take_nil]
  rfl

theorem assemble_eq (hfit : rel + data.length ≤ 0x1004) (hd : data ≠ []) :
    s.assemble p n rel data = s.assembledAs p n (s.assembly p n rel data) (s.assembly p n rel data).result := by
  have htake : data.take (0x1004 - rel) = data := List.take_of_length_le (by omega)
  unfold State.assemble
  rw [htake]
  dsimp only
  rw [if_neg hd]
  change (match (s.assembly p n rel data).result with | .waits => _ | .broken => _ | .complete body => _) = _
  cases (s.assembly p n rel data).result
  · rfl
  · unfold State.assembledAs State.setSlot
    rw [List.append_nil]
  · unfold State.assembledAs State.setSlot
    rw [List.append_nil]

/-- A write that lies within one window. -/
theorem window_within (hfit : off % 0x10000 + data.length ≤ 0x1004) :
    s.window p off data = s.assemble p (off / 0x10000 % 4096) (off % 0x10000) data := by
  unfold State.window
  dsimp only
  rw [List.take_of_length_le (by omega), List.drop_of_length_le (by omega), assemble_nil]

theorem exec_bar4Write (hst : (s.pcieOf p).stalled = []) (hlen : (s.pcieOf p).slots.length < 64)
    (hfit : off % 0x10000 + data.length ≤ 0x1004) (hd : data ≠ []) :
    exec (.bar4Write p off data) s = .next (s.assembledAs p (off / 0x10000 % 4096)
      (s.assembly p (off / 0x10000 % 4096) (off % 0x10000) data)
      (s.assembly p (off / 0x10000 % 4096) (off % 0x10000) data).result) := by
  rw [← assemble_eq hfit hd, ← window_within hfit]
  change execBar4Write p off data s = _
  unfold execBar4Write
  exact if_pos ⟨hst, hlen⟩

theorem exec_bar4Write_waits (h : (s.pcieOf p).stalled ≠ [] ∨ 64 ≤ (s.pcieOf p).slots.length) :
    exec (.bar4Write p off data) s = .next { s with
      pcie := s.pcie.set p { s.pcie.get p with stalled := (s.pcie.get p).stalled ++ [(off, data)] } } := by
  change execBar4Write p off data s = _
  unfold execBar4Write
  exact if_neg fun k => h.elim (fun hs => hs k.1) fun hl => absurd k.2 (by omega)

/-- A submission refused once its message has left its slot. -/
theorem dropped_refused (p : HostPort) (n : Nat) (st : Status) (detail : BitVec 4) :
    s.Only ((s.setSlot p n []).refuseSubmission p n st detail) [.top, .mch, .pcie, .out] ∧
      (((s.setSlot p n []).refuseSubmission p n st detail).pcieOf p).slots =
        ((s.pcieOf p).slots.filter fun a => decide (a.conn ≠ n)) ∧
      (((s.setSlot p n []).refuseSubmission p n st detail).pcieOf p).subRefused = satAdd (s.pcieOf p).subRefused 1 ∧
      (((s.setSlot p n []).refuseSubmission p n st detail).conn n).refused = satAdd (s.conn n).refused 1 ∧
      (((s.setSlot p n []).refuseSubmission p n st detail).conn n).lastStatus = BitVec.ofNat 8 st.code ∧
      (((s.setSlot p n []).refuseSubmission p n st detail).conn n).detail = detail := by
  have h := refuseSubmission_refused (s := s.setSlot p n []) p n st detail
  refine ⟨only_refuseSubmission ((setSlot_only p n []).mono (by decide)) (by decide), ?_, ?_, h.refused, h.lastStatus, h.detail_eq⟩
  · rw [h.slots, setSlot_pcieOf, List.append_nil]
  · rw [h.subRefused, setSlot_pcieOf]

/-- A complete message of a connection that another sends on is refused (09 R488, check 1). -/
theorem submit_foreign {body : List Byte} (h : txPort (s.conn n).srcKind ≠ some p) :
    s.submit p n body = s.refuseSubmission p n .nakStale 0xA := by
  unfold State.submit
  exact if_pos h

/-- A complete message that R378 allows is sent. -/
theorem submit_allowed {body : List Byte} (hp : txPort (s.conn n).srcKind = some p) (ho : (s.conn n).state = .opened)
    (hg : recUnits body.length ≤ (s.conn n).grant.toNat) (ha : (s.conn n).allows (recUnits body.length) = true) :
    s.submit p n body = s.transmit n ⟨body, 1, 0⟩ := by
  unfold State.submit
  dsimp only
  rw [if_neg (not_not.2 hp), if_neg (not_not.2 ho), ha, decide_eq_false (Nat.not_lt.2 hg), Bool.and_false, Bool.not_true,
    Bool.and_false]
  rfl

/-- A complete message that is sent once it has left its slot. -/
theorem dropped_sent {body : List Byte} (hp : txPort (s.conn n).srcKind = some p) (ho : (s.conn n).state = .opened)
    (hn : (s.conn n).nak = false) (hq : (s.conn n).outst < (s.conn n).quota)
    (hg : (s.conn n).outst.toNat + recUnits body.length ≤ (s.conn n).grant.toNat) :
    ∃ t, (s.setSlot p n []).submit p n body = t ∧ s.Only t [.mch, .pcie, .out] ∧
      (t.pcieOf p).slots = ((s.pcieOf p).slots.filter fun a => decide (a.conn ≠ n)) ∧
      (t.pcieOf p).subRefused = (s.pcieOf p).subRefused ∧ (t.conn n).seq = (s.conn n).seq + 1 ∧
      (t.conn n).outst = (s.conn n).outst + BitVec.ofNat 16 (recUnits body.length) ∧ t.out.length = s.out.length + 1 := by
  have hallow : (s.conn n).allows (recUnits body.length) = true := by
    unfold ConnSt.allows
    rw [decide_eq_true hg, decide_eq_true (show (s.conn n).outst.toNat < (s.conn n).quota.toNat from hq), hn]
    rfl
  have hconn : ((s.setSlot p n []).transmit n ⟨body, 1, 0⟩).conn n = (s.conn n).sends (s.conn n).seq (recUnits body.length) := by
    rw [transmit_conn, if_pos rfl]
    rfl
  have hport : ((s.setSlot p n []).transmit n ⟨body, 1, 0⟩).pcieOf p = (s.setSlot p n []).pcieOf p :=
    pcieOf_of_pcie (transmit_only ..).pcie p
  refine ⟨_, submit_allowed hp ho (Nat.le_trans (Nat.le_add_left ..) hg) hallow,
    only_transmit ((setSlot_only p n []).mono (by decide)) (by decide), ?_, ?_, ?_, ?_, ?_⟩
  · rw [hport, setSlot_pcieOf, List.append_nil]
  · rw [hport, setSlot_pcieOf]
  · rw [hconn]
    rfl
  · rw [hconn]
    unfold ConnSt.sends
    rw [hn]
    rfl
  · rw [transmit_out, List.length_cons]
    rfl

end Bar4

/-! ### A message that is not completed in time -/

section Timeout

variable {p : HostPort} {c : ConnN}

theorem exec_submissionTimeout_early
    (h : ((s.pcieOf p).slots.any fun a => decide (a.conn = c.val) && decide (a.first + 2 ^ 20 ≤ s.now)) = false) :
    exec (.submissionTimeout p c) s = .next s := by
  change execSubmissionTimeout p c s = _
  unfold execSubmissionTimeout
  exact if_neg (by rw [h]; decide)

theorem exec_submissionTimeout_due
    (h : ((s.pcieOf p).slots.any fun a => decide (a.conn = c.val) && decide (a.first + 2 ^ 20 ≤ s.now)) = true) :
    exec (.submissionTimeout p c) s = .next (State.drainStalled
      (((s.setSlot p c []).refuseSubmission p c .nakFull 9).pcieOf p).stalled.length
      ((s.setSlot p c []).refuseSubmission p c .nakFull 9) p) := by
  have hdrop : (s.setSlot p c []) = s.updPcie p fun r => { r with slots := r.slots.filter fun a => decide (a.conn ≠ c.val) } := by
    unfold State.setSlot
    rw [List.append_nil]
    rfl
  rw [hdrop]
  change execSubmissionTimeout p c s = _
  unfold execSubmissionTimeout
  exact if_pos h

theorem submissionTimeout_only
    (h : ((s.pcieOf p).slots.any fun a => decide (a.conn = c.val) && decide (a.first + 2 ^ 20 ≤ s.now)) = true) :
    ∃ t, exec (.submissionTimeout p c) s = .next t ∧ s.Only t [.top, .mch, .pcie, .out] :=
  ⟨_, exec_submissionTimeout_due h, only_drainStalled (dropped_refused ..).1 (by decide)⟩

/-- With no write waiting for its slot the message is refused and nothing more happens. -/
theorem exec_submissionTimeout_alone
    (h : ((s.pcieOf p).slots.any fun a => decide (a.conn = c.val) && decide (a.first + 2 ^ 20 ≤ s.now)) = true)
    (hst : (s.pcieOf p).stalled = []) :
    exec (.submissionTimeout p c) s = .next ((s.setSlot p c []).refuseSubmission p c .nakFull 9) := by
  have hnone : (((s.setSlot p c []).refuseSubmission p c .nakFull 9).pcieOf p).stalled = [] := by
    rw [(refuseSubmission_refused ..).stalled, setSlot_pcieOf]
    exact hst
  rw [exec_submissionTimeout_due h, hnone]
  rfl

end Timeout

/-! ### O6 -/

/-- Settles O6, a clause for each access: the check and the store of memory sector by sector, and what a message's
assembly comes to. -/
theorem hostWindowAccesses : Obligations.HostWindowAccesses := by
  unfold Obligations.HostWindowAccesses
  refine ⟨?_, ?_, ?_, ?_, ?_, ?_, ?_, ?_, ?_, ?_, ?_, ?_, ?_⟩
  · exact fun s p off len errs h => exec_bar2Read_unreachable h
  · exact fun s p off len errs h hgood => bar2Read_reached h (if_pos hgood)
  · exact fun s p off len errs h hbad => bar2Read_reached h (if_neg hbad)
  · exact fun s p off data wrong errs h => exec_bar2Write_unreachable h
  · intro s p off data wrong errs h
    refine ⟨_, exec_bar2Write h, only_hbmWrite (only_noteErrs (.refl s _) (by decide)) (by decide), fun a ha => ?_,
      fun hgood i b hi => hbmWrite_stores wrong hgood hi⟩
    rw [hbmWrite_byte _ _ _ _ _ ha, noteErrs_byte]
  · exact fun s p off data h => exec_bar4Write_waits h
  · intro s p off data a hst hlen hfit hd ha hwaits
    have hexec := exec_bar4Write hst hlen hfit hd
    rw [← show a = s.assembly p _ _ data from ha, hwaits] at hexec
    exact ⟨_, hexec, setSlot_only .., updPcie_pcieOf_other .., setSlot_pcieOf ..⟩
  · intro s p off data a hst hlen hfit hd ha hbroken
    have hexec := exec_bar4Write hst hlen hfit hd
    rw [← show a = s.assembly p _ _ data from ha, hbroken] at hexec
    exact ⟨_, hexec, dropped_refused ..⟩
  · intro s p off data a body hst hlen hfit hd ha hbody hp
    have hexec := exec_bar4Write hst hlen hfit hd
    rw [← show a = s.assembly p _ _ data from ha, hbody] at hexec
    exact ⟨_, hexec.trans (congrArg _ (submit_foreign hp)), dropped_refused ..⟩
  · intro s p off data a body hst hlen hfit hd ha hbody hp ho hn hq hg
    have hexec := exec_bar4Write hst hlen hfit hd
    rw [← show a = s.assembly p _ _ data from ha, hbody] at hexec
    obtain ⟨t, hsent, hrest⟩ := dropped_sent hp ho hn hq hg
    exact ⟨t, hexec.trans (congrArg _ hsent), hrest⟩
  · intro s p c h hst
    obtain ⟨honly, hslots, hsub, href, -, -⟩ := dropped_refused (s := s) p c .nakFull 9
    exact ⟨_, exec_submissionTimeout_alone h hst, honly, hslots, hsub, href⟩
  · exact fun s p c h => submissionTimeout_only h
  · exact fun s p c h => exec_submissionTimeout_early h

end Sys2Proof.Machine
end
